-- ==== Sys2Proof/Word.lean ====
section
/-!
DEFINITION. The word types of the ZH48's wires and registers, and the sparse maps in which the state keeps units that
the spec numbers: lists of (number, value) pairs in one canonical form.
-/

namespace Sys2Proof

/-- One byte (R7). -/
abbrev Byte := BitVec 8

/-- One register of the control space (R4, R5: 32 bits). -/
abbrev Word := BitVec 32

/-- A raster stamp (R2): bits 63:16 count house lines, bits 15:0 ticks of 1/65,536 line. -/
abbrev Stamp := BitVec 64

/-- A sparse map: the numbers rise strictly and no listed value equals what an unlisted number reads as. -/
abbrev Sparse (α : Type) := List (Nat × α)

end Sys2Proof
end

