-- ==== Sys2Proof/Units/Hull.lean ====
section
/-!
DEFINITION. What the hull side holds (chapter "Hull side and power", R360 to R380): feeds, rails, the hull controller and its
log, power states, temperatures. Every default value is the value at reset.
-/

namespace Sys2Proof.Machine

/-- Feed classes of Table 16-1 in the order of their codes. -/
inductive FeedClass where
  | absent | low | good | high | over
  deriving DecidableEq, Repr

/-- One feed with its OR-ing stage (R360, R361). -/
structure Feed where
  cls     : FeedClass := .absent
  mv      : Nat := 0
  /-- voltage and current as telemetry last showed them (R364, R379) -/
  shown   : Nat := 0
  ma      : Nat := 0
  highest : Nat := 0
  /-- the stage conducts -/
  closed  : Bool := true
  /-- since when the feed is in its class -/
  since   : Nat := 0
  deriving DecidableEq, Repr

/-- Power states of Table 16-4. -/
inductive PowerState where
  | run | trim | keep | off
  deriving DecidableEq, Repr

/-- An entry of the hull log (R363). -/
structure HullEntry where
  cls    : Nat
  sev    : Nat
  data   : List Byte
  /-- time from the warning to a reset, in us, for HULL_RESET_PRIOR (R370) -/
  micros : Nat := 0
  deriving DecidableEq, Repr

/-- The two junction sensors of a domain (R375), in 1/256 degree C. -/
structure DomainTemp where
  a    : Int := 0
  b    : Int := 0
  aOk  : Bool := true
  bOk  : Bool := true
  deriving DecidableEq, Repr

/-- The hull side and the hull interface. -/
structure Hull where
  feedA   : Feed := {}
  feedB   : Feed := {}
  /-- VBUS and input power as telemetry last showed them, mV and mW -/
  vbus    : Nat := 0
  power   : Nat := 0
  energy  : BitVec 64 := 0
  tempHull : Int := 0
  tempNand : Int := 0
  /-- the hull controller runs (R363), and since when (its uptime) -/
  running : Bool := true
  upSince : Nat := 0
  /-- rails at power-good; the next one was started at -/
  rails   : Nat := 0
  starting : Option Nat := none
  /-- failed start attempts since the last success -/
  attempts : Nat := 0
  retryAt : Option Nat := none
  /-- the module stays in OFF until RST_n low or VBUS below 18 V (R366, R376) -/
  latchedOff : Bool := false
  state   : PowerState := .run
  log     : List HullEntry := []
  logLost : Nat := 0
  sag     : Bool := false
  sagAt   : Nat := 0
  /-- the output cause of HULL_SAG stands; SAG released at -/
  sagHeld : Bool := false
  sagReleased : Option Nat := none
  /-- the RESET comparator is asserted -/
  resetOn : Bool := false
  linkOk  : Bool := false
  stale   : Bool := false
  linkLostAt : Nat := 0
  linkStamp : Stamp := 0
  alive   : Bool := false
  temps   : Sparse DomainTemp := []
  /-- the sensors have been read since the reset -/
  sampled : Bool := false
  tjMax   : Int := 0
  tjDomain : Nat := 0
  warn    : Bool := false
  crit    : Bool := false
  /-- times of the trips within the last hour; power is off after a trip -/
  trips   : List Nat := []
  tripped : Bool := false
  /-- a request for KEEP or OFF was made at; its tiles are not gated yet -/
  keepAt  : Option Nat := none
  offDue  : Bool := false
  /-- WAKE_S of the request for OFF -/
  wakeS   : Nat := 0
  wakeAt  : Option Nat := none
  deriving DecidableEq, Repr

end Sys2Proof.Machine
end

