-- ==== Sys2Proof/Units/Ledger.lean ====
section
/-!
DEFINITION. What the ledger tile and the SAFE_n block hold (chapter "Faults, harmless states and ordering", R381 to R402):
entries, standing causes, the response queue, device-safe. Every default value is the value at reset.
-/

namespace Sys2Proof.Machine

/-- A fault class: its code and its own severity (R402). -/
structure FaultClass where
  code : Nat
  sev  : Nat
  deriving DecidableEq, Repr

/-- An output in the sense of R386. -/
inductive Output where
  | channel (n : Nat) | head (n : Nat) | audio (g : Nat) | tio (n : Nat)
  deriving DecidableEq, Repr

/-- A ledger entry on its way (Tables 17-1 to 17-3). `data` is all class-specific data; delivery cuts it as R384 says. -/
structure Entry where
  stamp : Stamp
  ctrl  : Nat
  dp    : Nat := 0
  cls   : Nat
  /-- severity of the class itself and the effective one -/
  own   : Nat
  sev   : Nat
  late  : Bool := false
  provisional : Bool := false
  seq   : Nat := 0
  action : Nat := 0
  more  : Bool := false
  data  : List Byte := []
  /-- outputs that the entry names, with the reason each shows -/
  outs  : List (Output × Nat) := []
  /-- the entry raises no standing cause: it concerns only the data it names, or it is rate-limited (R386) -/
  dataOnly : Bool := false
  /-- the owning chapter names a response for it (R395) -/
  response : Bool := false
  /-- when it was handed to its unit's queue -/
  at_   : Nat := 0
  deriving DecidableEq, Repr

/-- A standing cause on an output (R386 to R389). -/
structure Cause where
  cls      : Nat
  sev      : Nat
  reason   : Nat := 0
  host     : Bool := false
  /-- cleared at; none while its condition lasts -/
  cleared  : Option Nat := none
  /-- raised under R391 and its chapter names no end: cleared by QUIET_MS without an entry -/
  policy   : Bool := false
  /-- when an entry of the class naming the output was last delivered -/
  lastAt   : Nat := 0
  deriving DecidableEq, Repr

/-- A cause of device-safe (R392, R394). -/
structure SafeCause where
  cls     : Nat
  /-- bit of SAFE_STATUS.CAUSES -/
  kind    : Nat
  cleared : Bool := false
  deriving DecidableEq, Repr

/-- A response that waits in the response queue (R395): the entry's class, severity and number. -/
structure Response where
  cls : Nat
  sev : Nat
  seq : Nat
  deriving DecidableEq, Repr

/-- A rate-limited class at one instance: when its last entry was logged and its occurrences since. -/
structure RateRec where
  cls    : Nat
  inst   : Nat
  lastAt : Nat
  count  : Nat
  deriving DecidableEq, Repr

/-- The ledger tile and the SAFE_n block. -/
structure Ledger where
  /-- entries in their units' queues, oldest first -/
  outbox  : List Entry := []
  /-- the intake, at most 1,024 -/
  intake  : List Entry := []
  /-- the store, newest first, at most 4,096 -/
  store   : List Entry := []
  /-- how many of the newest entries are not copied to the mirror queue -/
  uncopied : Nat := 0
  nextSeq : Nat := 0
  lastStamp : Option Stamp := none
  /-- the mirror queue: entries the recorder has not taken, oldest first -/
  mirror  : List Entry := []
  overflow : Bool := false
  /-- the response queue, and the response that runs -/
  responses : List Response := []
  running : Option Response := none
  /-- standing causes of each output, in the order raised -/
  causes  : List (Output × Cause) := []
  /-- rate-limited classes: what has been logged of each instance -/
  rates   : List RateRec := []
  safe    : Bool := false
  safeSince : Nat := 0
  safeStamp : Stamp := 0
  safeFirst : Nat := 0
  safeCauses : List SafeCause := []
  /-- SAFE_n: raw level, filtered level, since when the raw level stands -/
  pinHigh : Bool := true
  pinFiltered : Bool := true
  pinSince : Nat := 0
  deriving DecidableEq, Repr

end Sys2Proof.Machine
end

