-- ==== Sys2Proof/Units/Image.lean ====
section
/-!
DEFINITION. What the image manager holds (chapter "Structure images", R50 to R84): sections, staging slots, commits,
rolls, firmware banks and the boot store. Every default value is the value at reset.
-/

namespace Sys2Proof.Machine

/-- A section of a Saind image with its payload (Tables 3-3 and 3-4). -/
structure Section where
  type    : Nat
  domain  : Nat
  tile    : Nat
  index   : Nat := 0
  group   : Nat := 0
  /-- index of its entry in the section table -/
  entry   : Nat := 0
  payload : List Byte
  deriving DecidableEq, Repr

/-- What validation reads from a container (Table 3-2). -/
structure Image where
  kind     : Nat := 0
  role     : Nat := 0
  lineage  : Nat := 0
  rollback : Nat := 0
  build    : Nat := 0
  baseId   : BitVec 64 := 0
  digest   : List Byte := []
  sections : List Section := []
  deriving DecidableEq, Repr

/-- Slot states of Table 3-13. -/
inductive SlotState where
  | empty | loading | checking | valid | refused | lost
  deriving DecidableEq, Repr

/-- A staging slot, S0 or S1. -/
structure Slot where
  state  : SlotState := .empty
  bytes  : List Byte := []
  /-- class code of the refusal or loss -/
  reason : Nat := 0
  deriving DecidableEq, Repr

/-- Commit states of Tables 3-9 and 3-14; `refused` is the state of a refused ticket. -/
inductive CommitState where
  | accepted | ready | go | applied | refused | abandoned | cancelled
  deriving DecidableEq, Repr

/-- One staged register write (R67). -/
structure StagedWrite where
  addr  : Nat
  value : Word
  deriving DecidableEq, Repr

/-- A pending commit: what it carries and which of its tiles are not ready yet (R70, R74). -/
structure Commit where
  ticket   : Nat
  session  : Option Nat := none
  slot     : Option Nat := none
  state    : CommitState := .accepted
  stamp    : Stamp
  groups   : Nat := 0xFFFF
  image    : Image := {}
  /-- the sections of the image that lie in a committed group -/
  sections : List Section := []
  staged   : List StagedWrite := []
  /-- tiles (domain x 256 + tile) that have not reported ready -/
  waiting  : List Nat := []
  rollGap  : Nat := 6
  /-- the PARTIAL commit of CODER_TILE sections that applies as a roll (R76) -/
  roll     : Bool := false
  /-- ticket 0, issued by the device at seeding (R411) -/
  start    : Bool := false
  deriving DecidableEq, Repr

/-- The state the image manager keeps of a ticket (R70, Table 3-14). -/
structure Ticket where
  ticket : Nat
  state  : CommitState
  cls    : Nat := 0
  deriving DecidableEq, Repr

/-- A roll of the coder tiles (R77, R78). -/
structure Roll where
  active   : Bool := false
  halted   : Bool := false
  ticket   : Nat := 0
  gap      : Nat := 6
  /-- rennet point chosen for the next step, or the commit's own for the first -/
  nextStep : Option Stamp := none
  /-- rennet point of the last step taken -/
  lastStep : Stamp := 0
  /-- since when no step has been possible -/
  stalled  : Option Nat := none
  steps    : Nat := 0
  sections : List Section := []
  deriving DecidableEq, Repr

/-- One processor's code banks as the image manager sees them (R79, R80, Table 3-16). -/
structure FwBank where
  /-- active bank: false the first, true the second -/
  bank        : Bool := false
  swapping    : Bool := false
  unconfirmed : Bool := false
  reverted    : Bool := false
  /-- payload of the firmware that runs, and of the one kept in the old bank -/
  running     : List Byte := []
  old         : List Byte := []
  /-- new firmware must report ALIVE by this time -/
  aliveBy     : Option Nat := none
  deriving DecidableEq, Repr

/-- States of a boot bank (Table 3-17). -/
inductive BankState where
  | empty | valid | invalid | writing
  deriving DecidableEq, Repr

/-- One boot bank of the boot store (R82). -/
structure BootBank where
  state : BankState := .empty
  bytes : List Byte := []
  deriving DecidableEq, Repr

/-- A tile of D1 to D7 as R52, R74 and R365 see it. -/
inductive TileState where
  /-- held in reset until phase 5 -/
  | reset
  | ripening
  | inService
  /-- out of service with a failed self-test -/
  | failed
  | gated
  deriving DecidableEq, Repr

/-- State and plane of a tile, and when its ripening began. -/
structure Tile where
  state    : TileState := .reset
  /-- the active configuration plane (R52) -/
  plane    : Bool := false
  ripeFrom : Nat := 0
  /-- why it is gated: 0 not, 1 role, 2 unused, 3 KEEP (GATE_INFO) -/
  cause    : Nat := 0
  deriving DecidableEq, Repr

/-- The commits (R66 to R73). -/
structure Commits where
  /-- pending commits in issue order -/
  live       : List Commit := []
  /-- tickets accepted and not cancelled with their rennet points, as OP4 compares them (R68 step 4) -/
  order      : List (Nat × Stamp) := []
  /-- ticket of the next issue; ticket 0 is the start commit's (R411) -/
  nextTicket : Nat := 1
  /-- the last 256 tickets, newest first -/
  tickets    : List Ticket := []
  deriving DecidableEq, Repr

/-- The image manager apart from its commits and its roll (R62 to R65, R79 to R84). -/
structure ImageManager where
  slot0       : Slot := {}
  slot1       : Slot := {}
  configId    : BitVec 64 := 0
  lineage     : Word := 0
  floor       : Word := 0
  runRollback : Word := 0
  /-- 0 source, 1 wall; none before the first commit -/
  role        : Option Nat := none
  /-- role of the boot image, which ticket 0 puts in force (R411) -/
  bootRole    : Option Nat := none
  fwTc        : FwBank := {}
  fwSp        : FwBank := {}
  fwHull      : FwBank := {}
  bankA       : BootBank := {}
  bankB       : BootBank := {}
  startedFrom : Bool := false
  preferred   : Bool := false
  /-- a bank write in progress: bank, and the bytes being copied -/
  bootWrite   : Option (Bool × List Byte) := none
  deriving DecidableEq, Repr

end Sys2Proof.Machine
end

