-- ==== Sys2Proof/Units/Mdp.lean ====
section
/-!
DEFINITION. What the MDP engine and the identity engine hold (chapter "Management link and security", R340 to R359):
sessions, owner slots, enrolment. Every default value is the value at reset.
-/

namespace Sys2Proof.Machine

/-- Where a datagram came from and where its answer goes (R348): management port, address, UDP port. -/
structure Route where
  m1   : Bool := false
  addr : Nat := 0
  port : Nat := 0
  deriving DecidableEq, Repr

/-- A request that waits for its turn (R348). -/
structure HeldRequest where
  seq   : Nat
  body  : List Byte
  route : Route
  deriving DecidableEq, Repr

/-- A stored answer (R348). -/
structure Answer where
  seq  : Nat
  body : List Byte
  deriving DecidableEq, Repr

/-- A NOTIFY that no ACK covers yet (R352). -/
structure Notify where
  seq  : Nat
  body : List Byte
  /-- when it was last sent -/
  sentAt : Nat := 0
  deriving DecidableEq, Repr

/-- A session's ledger notification stream (R352). -/
structure Subscription where
  minSev : Nat
  state  : Bool
  /-- ledger sequence number of the next entry to look at -/
  next   : Nat
  stateAt : Nat
  deriving DecidableEq, Repr

/-- An open session (R345 to R352). -/
structure Session where
  present : Bool := false
  id      : Word := 0
  key     : List Byte := []
  /-- 0 to 3, or 0xFF for enrolment -/
  slot    : Nat := 0
  rights  : Nat := 0
  /-- E of R348 -/
  executed : Nat := 0
  /-- highest CTR accepted from the host and the accepted ones within the 64 below it -/
  rxHigh  : Nat := 0
  rxSeen  : List Nat := []
  /-- CTR of the next datagram to the host -/
  txCtr   : Nat := 1
  held    : List HeldRequest := []
  /-- answers of the last 64 requests executed, newest first -/
  answers : List Answer := []
  staged  : List StagedWrite := []
  route   : Route := {}
  lastAt  : Nat := 0
  sub     : Option Subscription := none
  /-- NOTIFY datagrams without ACK, oldest first, and the number of the next -/
  notifies : List Notify := []
  nextNotify : Nat := 1
  /-- last request number to execute, once the host has sent CLOSE -/
  closing : Option Nat := none
  deriving DecidableEq, Repr

/-- An owner slot (R347). -/
structure OwnerSlot where
  present  : Bool := false
  perms    : Nat := 0
  modulus  : List Byte := []
  exponent : Nat := 0
  keyId    : BitVec 64 := 0
  deriving DecidableEq, Repr

/-- The MDP engine and the identity engine. -/
structure Mdp where
  sessions : Sparse Session := []
  slots    : Sparse OwnerSlot := []
  enrolFails  : Nat := 0
  enrolLocked : Bool := false
  /-- OPENs of the running second: its number and their count; the same for IDENTIFY answers and REJECTs -/
  opens    : Nat × Nat := (0, 0)
  replies  : Nat × Nat := (0, 0)
  /-- first 8 bytes of SHA-512 over KEY_BLOCK of the OPENs accepted in the last 60 s, and when -/
  fresh    : List (List Byte × Nat) := []
  /-- sessions created, the index of the random draws -/
  draws    : Nat := 0
  deriving DecidableEq, Repr

end Sys2Proof.Machine
end

