-- ==== Sys2Proof/Units/Memory.lean ====
section
/-!
DEFINITION. What the memory controller holds (chapter "Frame memory", R273 to R298), apart from the bytes themselves.
Every default value is the value at reset.
-/

namespace Sys2Proof.Machine

/-- A requester of Table 12-4. -/
inductive MemPort where
  | rd (reader : Nat) | sw (ingress : Nat) | sg | rc | tc (core : Nat) | im | sc
  deriving DecidableEq, Repr

/-- A request to one memory channel (R281): a read, or a write with its bytes. It lies within one 64-byte line. -/
structure MemReq where
  port    : MemPort
  /-- device address (R274) -/
  addr    : Nat
  length  : Nat
  write   : Option (List Byte) := none
  urgent  : Bool := false
  panic   : Bool := false
  /-- when it entered the queue; raised to class 3 after 1 us (R283) -/
  since   : Nat := 0
  raised  : Bool := false
  /-- the image manager's one retry of a poisoned read (Table 12-3) -/
  again   : Bool := false
  deriving DecidableEq, Repr

/-- States of a memory channel (Table 12-10). -/
inductive MemChanState where
  | off | training | inService | oldSettings | retired
  deriving DecidableEq, Repr

/-- One LPDDR4X channel (R281 to R292). -/
structure MemChan where
  state     : MemChanState := .off
  hot       : Bool := false
  owed      : Nat := 0
  mr4       : Nat := 0
  mr4At     : Nat := 0
  coolReads : Nat := 0
  /-- when the next refresh falls due, and when the last one was issued -/
  refreshAt : Nat := 0
  lastRefresh : Nat := 0
  queue     : List MemReq := []
  /-- open row of each bank, plus 1; 0 while the bank is closed -/
  rows      : Sparse Nat := []
  /-- a training has fallen due, and a run is in progress -/
  trainDue  : Option Nat := none
  trainRun  : Bool := false
  lastTrain : Nat := 0
  /-- MR4 at the last training -/
  trainMr4  : Nat := 0
  /-- uncorrectable errors within the last second; corrected ones in this 256 ms window and in the last -/
  uncorrAt  : List Nat := []
  corrNow   : Nat := 0
  corrLast  : Nat := 0
  /-- an uncorrectable error since the last good training -/
  uncorrSince : Bool := false
  /-- four uncorrectable errors began a check that ends at this time -/
  checkBy   : Option Nat := none
  stallMax  : Nat := 0
  qPeak     : Nat := 0
  margin    : BitVec 16 := 0
  /-- since when a panic request is queued, and for how long one was -/
  panicSince : Option Nat := none
  panicNs   : Nat := 0
  deriving DecidableEq, Repr

/-- An extent moved by a retirement (R293): region, extent, copy, the pair it now lies on and the one that it left. -/
structure Remap where
  region : Nat
  extent : Nat
  copy   : Nat
  pair   : Nat
  left   : Nat
  deriving DecidableEq, Repr

/-- A DUP extent with one copy (R295): region, extent and the copy that survives. -/
structure SingleExtent where
  region : Nat
  extent : Nat
  copy   : Nat
  deriving DecidableEq, Repr

/-- The memory controller (R273 to R297). -/
structure Memory where
  /-- STATE of MEM_STATUS: 0 initialising, 1 training, 2 running, 3 degraded, 4 capacity lost -/
  state     : Nat := 0
  /-- pairs retired -/
  retired   : List Nat := []
  /-- pairs whose extents are being remapped -/
  remapping : List Nat := []
  chans     : Sparse MemChan := []
  remaps    : List Remap := []
  single    : List SingleExtent := []
  /-- extents copied since the first DUP extent became single -/
  copied    : Nat := 0
  lostMib   : Sparse Nat := []
  /-- 64-byte lines that are poisoned, by device address and copy -/
  poisoned  : List (Nat × Nat) := []
  scrubLine : Nat := 0
  deriving DecidableEq, Repr

end Sys2Proof.Machine
end

