-- ==== Sys2Proof/Units/Coder.lean ====
section
/-!
DEFINITION. What the coder tiles, the rinds, the brine store and the egress tiles hold (chapters "Channel coders", R160 to
R191, and "Coder sparing and paired modules", R192 to R204). Every default value is the value at reset.
-/

namespace Sys2Proof.Machine

/-- The press's choice for a curd (R167, R168): its record and what the coder reconstructed. -/
structure Winner where
  q       : Nat
  floor   : Bool
  zone    : Bool
  restart : Bool
  payload : List Byte
  /-- reconstructed samples, one list per unit in the order of Table 6-10 -/
  recon   : List (List Int)
  deriving DecidableEq, Repr

/-- What is to become of a curd at the rind (R174, R177, R178, R193). -/
inductive JobFate where
  /-- the verdict has arrived in time and is good -/
  | pass
  /-- the verdict failed: check 1 DAMAGED, 2 SOURCE, 3 RECON, 4 FIELDS -/
  | fail (check : Nat)
  /-- the deadline passed without a verdict -/
  | late
  /-- the deadline passed and its coder is not admitted -/
  | fence
  /-- VOID from ingress -/
  | lacking
  | skip
  deriving DecidableEq, Repr

/-- A curd on its way from the stripe FIFO to the rind (R160 to R178). -/
structure Job where
  frame    : Nat
  line     : Nat
  stripe   : Nat
  k        : Nat
  units    : Nat
  /-- source units that have arrived, newest first -/
  source   : List (List Int) := []
  /-- when, and at which stamp, the last source pixel so far passed the receive MAC service interface -/
  lastAt   : Nat
  lastStamp : Stamp
  /-- it lacks a unit: VOID from ingress (R121, R162) -/
  lacks    : Bool := false
  /-- no more units will come -/
  done     : Bool := false
  /-- the coder it is fed to -/
  coder    : Nat
  /-- when it was closed under R121 while lacking a pixel -/
  closedAt : Option (Nat × Stamp) := none
  /-- lane it was dealt to, and when the lane took its first unit (R161) -/
  lane     : Option Nat := none
  takenAt  : Option Nat := none
  /-- units that the lane had taken by a time; from then on it takes one per cycle while there are any (R160) -/
  taken    : Nat := 0
  tookAt   : Nat := 0
  restart  : Bool := false
  /-- a restart of Table 6-11 other than a restart position that forbids the skip (R146) -/
  blocked  : Bool := false
  above    : Option (List (List Int)) := none
  qb       : Nat := 0
  /-- the press's choice, and when -/
  winner   : Option Winner := none
  selectedAt : Option Nat := none
  /-- bank and q_next after the selection (Table 8-4) -/
  dAfter   : Nat := 0
  qAfter   : Nat := 0
  fate     : Option JobFate := none
  resolved : Bool := false
  /-- a CURD_LATE entry with reason BACKLOG is still to be handed to the ledger (R178) -/
  owed     : Bool := false
  deriving DecidableEq, Repr

/-- A resolved position of a line that is still open; `coded` is its bit of Table 6-5, and the time and the stamp are those at which
its last source pixel arrived or it was closed (Table 6-3). -/
structure Resolved where
  line   : Nat
  stripe : Nat
  k      : Nat
  coded  : Bool
  at_    : Nat
  stamp  : Stamp
  deriving DecidableEq, Repr

/-- The sections of a channel that a frame is coded under (R165). -/
structure ChanPlan where
  plan  : List Byte := []
  zones : List Byte := []
  key   : List Byte := []
  deriving DecidableEq, Repr

/-- The frame a channel is coding (R180, R187). -/
structure TxFrame where
  number     : Nat
  rtp        : Nat
  startStamp : Stamp
  n          : Nat
  curds      : Nat := 0
  voids      : Nat := 0
  /-- stamp of the frame's end, once it has ended or been interrupted -/
  ended      : Option Stamp := none
  noSkip     : Bool := false
  /-- the sections under which it is completed (R165) -/
  secs       : ChanPlan := {}
  /-- lines whose LINE_CLOSE has been formed -/
  closed     : List Nat := []
  resolved   : List Resolved := []
  /-- curds sent VOID in the frame: line, stripe, index (kept for the proxy, R302) -/
  voided     : List (Nat × Nat × Nat) := []
  deriving DecidableEq, Repr

/-- A stored skip signature (R173). -/
structure Signature where
  value : Nat
  valid : Bool
  deriving DecidableEq, Repr

/-- End-of-validity that a channel sends (R142): why, and how many more records. -/
structure Eov where
  reason : Nat
  cls    : Nat := 0
  stamp  : Stamp
  /-- media clock at the stamp -/
  media  : Nat
  lastAt : Nat
  /-- FRAME of the last FRAME_CLOSE before the cause; 0 when none was sent -/
  lastValid : Nat := 0
  /-- frame periods that are left after a stop (R188); none while a cause stands -/
  left   : Option Nat := none
  deriving DecidableEq, Repr

/-- A packet of packed packing that is still open (R182). -/
structure OpenPacket where
  frame     : Nat
  body      : List Byte
  stamp     : Stamp
  /-- last source pixel of its latest record, and the earliest among its records -/
  lastAt    : Nat
  firstAt   : Nat
  openedAt  : Nat
  lines     : List Nat
  deriving DecidableEq, Repr

/-- Numbers not sent on a path (R95). -/
structure PathGap where
  first : Option Nat := none
  last  : Nat := 0
  cause : Nat := 1
  deriving DecidableEq, Repr

/-- Channel states of Table 7-13. -/
inductive ChanState where
  | off | enabled | coding | harmless
  deriving DecidableEq, Repr

/-- Coding, packetising and sending of one channel (R160 to R188). -/
structure Chan where
  state    : ChanState := .off
  /-- the CHANNEL, ZONES and SKIP_KEY payloads in effect (R165) -/
  plan     : List Byte := []
  zones    : List Byte := []
  key      : List Byte := []
  seq      : Nat := 0
  /-- the channel has sent a packet since start-up or since its section was created -/
  sent     : Bool := false
  lastFrame : Nat := 0
  /-- FRAME of the last FRAME_CLOSE sent (LAST_VALID) -/
  lastClose : Option Nat := none
  bank     : Nat := 0
  qNext    : Sparse Nat := []
  n        : Nat := 0
  /-- frames not closed yet, oldest first -/
  frames   : List TxFrame := []
  /-- CHANNEL_START has been logged since the channel was last started -/
  started  : Bool := false
  /-- the last resolved position of a column: frame, line, and 0 skipped, 1 coded, 2 VOID -/
  last     : Sparse (Option (Nat × Nat × Nat)) := []
  jobs     : List Job := []
  sigs     : Sparse Signature := []
  /-- n + 1 of the last coded version of a position, and whether it was VOID -/
  codedAt  : Sparse (Nat × Bool) := []
  eov      : Option Eov := none
  packet   : Option OpenPacket := none
  gapA     : PathGap := {}
  gapB     : PathGap := {}
  latMax   : Nat := 0
  bytes    : Nat := 0
  qCount   : Sparse Nat := []
  qbLast   : Nat := 0
  qLast    : Nat := 0
  /-- sections that wait for the next frame start (R165) -/
  waiting  : Bool := false
  /-- the CHANNEL section has been removed; the channel is forgotten when its last record has been sent (R188) -/
  gone     : Bool := false
  /-- the next frame is coded without skips -/
  noSkip   : Bool := false
  /-- start not before this time, with this first SEQ rule (R210, R212) -/
  startAfter : Option Nat := none
  deriving DecidableEq, Repr

/-- Coder states of Table 7-11. -/
inductive CoderState where
  | spare | ripening | ripe | holding | failed
  deriving DecidableEq, Repr

/-- One coder tile (R160). -/
structure Coder where
  state   : CoderState := .spare
  channel : Option Nat := none
  plane   : Bool := false
  /-- CODER_TILE payload that its active plane holds -/
  content : List Byte := []
  /-- what its inactive plane holds, self-tested for a roll that is pending (R52, R77) -/
  loaded  : Option (List Byte) := none
  ripeFrom : Nat := 0
  /-- stripe stores and verify stores: column 64 x stripe + k to the last selected curd, with line and frame -/
  store   : Sparse (Nat × Nat × List (List Int)) := []
  verify  : Sparse (Nat × Nat × List (List Int)) := []
  fifoPeak : Nat := 0
  /-- coded-frame numbers of its channel at its verification failures, newest first (R179) -/
  fails   : List Nat := []
  fenced  : Bool := false
  selfDone : Bool := false
  selfPass : Bool := false
  selfStage : Nat := 0
  /-- CODER_RETEST is to be logged when the ripening ends -/
  retest  : Bool := false
  deriving DecidableEq, Repr

/-- A takeover cause waiting for arbitration (Table 8-1). -/
structure Takeover where
  channel : Nat
  coder   : Nat
  cause   : Nat
  /-- the coder named by MOVE or by the roll step -/
  target  : Option Nat := none
  stamp   : Option Stamp := none
  since   : Nat
  deriving DecidableEq, Repr

/-- A mirror entry (Table 8-4) with its ENTRY_CRC. -/
structure MirrorEntry where
  column : Nat
  void   : Bool
  qNext  : Nat
  dAfter : Nat
  record : List Byte
  crc    : Nat := 0
  /-- what a decoder of the record holds -/
  recon  : List (List Int) := []
  deriving DecidableEq, Repr

/-- A mirror record (Table 8-3). -/
structure MirrorRec where
  kind    : Nat
  channel : Nat
  claim   : Nat
  line    : Nat
  frame   : Nat
  n       : Nat
  d       : Nat
  qNext   : List Nat
  magic   : Nat := 0xB21E
  openCrc : Nat := 0
  /-- in the order of resolution -/
  entries : List MirrorEntry := []
  closed  : Bool := false
  seqNext : Nat := 0
  deriving DecidableEq, Repr

/-- One channel's rind and brine store (R192 to R202). -/
structure Rind where
  claim    : Nat := 0
  g        : Nat := 0
  granted  : Bool := false
  coder    : Option Nat := none
  prev     : Option Nat := none
  prevCause : Nat := 0
  fenced   : Bool := false
  takeLine : Nat := 0
  takeFrame : Nat := 0
  restartRow : Bool := false
  /-- a grant is made and line T is not yet reached; T is the first line that begins at this time or later -/
  pending  : Bool := false
  notBefore : Nat := 0
  /-- the claim that the last grant revoked -/
  revoked  : Nat := 0
  /-- line T - 1 of the last grant is not resolved yet -/
  handing  : Bool := false
  /-- TAKEOVER is to be logged when line T is reached -/
  announce : Bool := false
  /-- waits for a coder since (R197) -/
  waits    : Option Nat := none
  /-- times of the grants made within the last 1 s -/
  grants   : List Nat := []
  /-- times of the grants refused under R198 within the last 1 s -/
  refused  : List Nat := []
  storm    : Bool := false
  /-- a new term has been granted: the claim is renewed at the next frame start (R192) -/
  renew    : Bool := false
  fenceVoids : Nat × Nat × Nat := (0, 0, 0)
  /-- LS1 took the last line record -/
  second   : Bool := false
  ls0      : Option MirrorRec := none
  ls1      : Option MirrorRec := none
  frameRec : Option MirrorRec := none
  deriving DecidableEq, Repr

/-- A packet in a port's egress queue (R183). -/
structure QPacket where
  channel : Nat
  pathB   : Bool := false
  /-- the RTP packet, and the path record that addresses it (Table 7-2) -/
  bytes   : List Byte
  path    : List Byte := []
  line    : Nat
  /-- STAMP of the packet, and whether it is a curd packet -/
  stamp   : Stamp
  curd    : Bool
  /-- when the last source pixel of a curd packet passed, and the earliest last source pixel among its curds -/
  pixelAt : Nat := 0
  firstAt : Nat := 0
  seq     : Nat
  gap     : Bool := false
  queuedAt : Nat
  deriving DecidableEq, Repr

end Sys2Proof.Machine
end

