-- ==== Sys2Proof/Units/Pair.lean ====
section
/-!
DEFINITION. What the pair block holds (R205 to R213) and the datagrams it reads. Every default value is the value at reset.
-/

namespace Sys2Proof.Machine

/-- A datagram as it is read: the header of Table 8-6, the body of its type, and the tag. -/
structure PairDatagram where
  magic   : Nat
  version : Nat
  type    : Nat
  pairId  : Word
  rank    : Nat
  term    : Nat
  stamp   : Nat
  body    : List Byte
  tag     : List Byte
  deriving DecidableEq, Repr

/-- What reading a mirror entry out of the brine store meets (R200, R201): nothing, a corrected error, a header or an entry with a
wrong CRC, or an entry with an uncorrectable error. -/
inductive BrineRead where
  | good | corrected | header | entryCrc | entryEcc
  deriving DecidableEq, Repr

/-- An ASK waiting for its ANSWER (R209). -/
structure Ask where
  askId   : Word
  reason  : Nat
  /-- false W0, true W1 -/
  second  : Bool := false
  sentAt  : Nat
  deriving DecidableEq, Repr

/-- ROLE of PAIR_STATUS (Table 8-12). -/
inductive PairRole where
  | single | standby | ready | active | switching
  deriving DecidableEq, Repr

/-- The pair block (R205 to R213). -/
structure Pair where
  role      : PairRole := .single
  term      : Nat := 0
  /-- last accepted STAMP of the peer and of each witness, by its address -/
  peerStamp : Option Nat := none
  witStamps : List (Nat × Nat) := []
  peerAt    : Option Nat := none
  peerFlags : BitVec 8 := 0
  /-- when a HEARTBEAT with ACTIVE was last heard -/
  activeAt  : Option Nat := none
  silent    : Bool := false
  witOk     : Bool := false
  yield     : Bool := false
  lastTx    : Nat := 0
  lastFlags : BitVec 8 := 0
  /-- STAMP of the last datagram sent; none before the first (equal stamps are never sent) -/
  lastStamp : Option Stamp := none
  nextAsk   : Word := 0
  /-- ASKs that wait for their ANSWER, at most one for each REASON -/
  asks      : List Ask := []
  /-- conditions that ask again every RETRY_MS: REASON and when it was last asked -/
  retries   : List (Nat × Nat) := []
  switchH   : Option Stamp := none
  /-- the GRANT of a switchover is known to the active module: its peer sends ACTIVE with a higher TERM -/
  switchOk  : Bool := false
  /-- TERM of the last HEARTBEAT of the peer -/
  peerTerm  : Nat := 0
  /-- since when the module has been up, for the START case -/
  startAt   : Nat := 0
  records   : Sparse (Option MirrorRec) := []
  grantedAt : Nat := 0
  /-- channels whose newest frame record has not been sent (R207) -/
  unsent    : List Nat := []
  /-- SPARE_LOW has been logged and the count has not recovered (R215) -/
  spareLow  : Bool := false
  deriving DecidableEq, Repr

end Sys2Proof.Machine
end

