-- ==== Sys2Proof/Units/Time.lean ====
section
/-!
DEFINITION. What the time tile and the timing pins hold (chapter "House raster and time", R21 to R49): PTP messages and
instances, the servo, the clock monitors, the TIO pins. Every default value is the value at reset.
-/

namespace Sys2Proof.Machine

/-- The datasets that an Announce message carries and that IEEE 1588-2019 compares (R29, R30). -/
structure PtpDataset where
  grandmaster  : BitVec 64 := 0
  priority1    : Nat := 128
  clockClass   : Nat := 248
  accuracy     : Nat := 254
  variance     : Nat := 65535
  priority2    : Nat := 128
  stepsRemoved : Nat := 0
  deriving DecidableEq, Repr

/-- The message types of Table 2-2 that the ZH48 knows; every other type is `other`. -/
inductive PtpKind where
  | sync | followUp | delayReq | delayResp | announce | management | other
  deriving DecidableEq, Repr

/-- A PTP message as an instance receives or sends it (R26 to R31). Times are PTP ns; the correction is in 2^-16 ns. -/
structure PtpMsg where
  kind       : PtpKind := .sync
  version    : Nat := 2
  domain     : Nat := 0
  /-- the message's length agrees with its type (R31) -/
  lengthOk   : Bool := true
  clockId    : BitVec 64 := 0
  portNumber : Nat := 1
  seq        : BitVec 16 := 0
  twoStep    : Bool := false
  correction : Int := 0
  /-- the origin timestamp of Sync and Follow_Up, the receive timestamp of Delay_Resp -/
  timestamp  : Int := 0
  /-- requestingPortIdentity of a Delay_Resp -/
  reqClockId : BitVec 64 := 0
  reqPort    : Nat := 0
  dataset    : PtpDataset := {}
  deriving DecidableEq, Repr

/-- The servo states of Table 2-3. -/
inductive ServoState where
  | free | acquire | locked | quarantine | holdover
  deriving DecidableEq, Repr

/-- A source of the servo: a PTP instance or REF_IN (Table 2-12, SOURCE). -/
inductive Source where
  | ptp (i : Nat)
  | refIn
  deriving DecidableEq, Repr

/-- One offset and path-delay sample (R32), in ns. -/
structure PathSample where
  offset : Int := 0
  mpd    : Int := 0
  deriving DecidableEq, Repr

/-- The servo (R24, R25, R29, R32 to R34). -/
structure Servo where
  state     : ServoState := .free
  source    : Option Source := none
  /-- SOURCE code of the last source that was not "none" -/
  lastSource : Nat := 7
  suspect   : Bool := false
  /-- the TIME_FAR condition stands (R25) -/
  far       : Bool := false
  /-- frequency estimate relative to nominal, in 2^-16 ppm (FREQ_ADJ) -/
  freqAdj   : Int := 0
  /-- the value toward which the frequency estimate moves at the rate that R25 allows -/
  freqTarget : Int := 0
  /-- when the frequency estimate last changed -/
  freqAt    : Nat := 0
  /-- error of REF_IN against the raster when the frequency was last held, ppb (R37) -/
  refErrHeld : Int := 0
  /-- phase still to be removed by slewing, in 2^-16 x 10^-6 ns (R25) -/
  slewLeft  : Int := 0
  /-- filtered offset of the selected source, ns -/
  filtered  : Int := 0
  /-- offset of the selected source at its last sample, ns, with which R29 compares a new source -/
  lastOffset : Int := 0
  /-- offset of the last 1 PPS edge of REF_IN from the nearest whole second of the timebase, ns (R36) -/
  refOffset : Int := 0
  /-- reference mean path delay, ns (R32) -/
  reference : Int := 0
  /-- the accepted samples that form the reference, newest first, at most 64 -/
  accepted  : List PathSample := []
  /-- the reference restarts from a new instance and the next sample is accepted whatever its delay (R29) -/
  acceptAny : Bool := false
  /-- consecutive samples within 200 ns in ACQUIRE -/
  goodRun   : Nat := 0
  /-- the run of samples held aside on one side of the reference, newest first (R32) -/
  aside     : List PathSample := []
  /-- the stepped path delay of R32, while in QUARANTINE -/
  stepped   : Option Int := none
  /-- the new offset of Table 2-4 -/
  newOffset : Int := 0
  /-- consecutive samples within 100 ns of the old reference, in QUARANTINE -/
  oldRun    : Nat := 0
  /-- when the current QUARANTINE or HOLDOVER began -/
  heldSince : Nat := 0
  /-- when the 16 s of QUARANTINE began to run -/
  quarSince : Nat := 0
  /-- TIME_HOLDOVER_LONG has been raised in this HOLDOVER (R34) -/
  holdLong  : Bool := false
  deriving DecidableEq, Repr

/-- A foreign master that an instance has heard (IEEE 1588-2019 9.3.2.4, as R26 and R29 cite it). -/
structure ForeignMaster where
  clockId    : BitVec 64
  portNumber : Nat
  dataset    : PtpDataset
  /-- internet address it sends from -/
  address    : Nat := 0
  lastAt     : Nat
  count      : Nat
  deriving DecidableEq, Repr

/-- One PTP instance (R26 to R31). -/
structure PtpInst where
  /-- IEEE 1588 portState of a follower whose port is UP: 4 LISTENING, 8 UNCALIBRATED, 9 SLAVE -/
  portState   : Nat := 4
  /-- parent: the foreign master the instance follows -/
  parent      : Option ForeignMaster := none
  foreign     : List ForeignMaster := []
  /-- when the last Sync of the parent was accepted -/
  syncAt      : Option Nat := none
  announceAt  : Option Nat := none
  /-- Sync messages have arrived within 3 sync intervals (SYNC_OK) -/
  syncOk      : Bool := false
  /-- a two-step Sync waiting for its Follow_Up: sequence, receive time, correction -/
  pendingSync : Option (BitVec 16 × Int × Int) := none
  /-- master-to-slave times of the last complete Sync: origin t1 and receipt t2, correction removed -/
  lastSync    : Option (Int × Int) := none
  /-- outstanding Delay_Req messages: sequence and departure time t3 -/
  delayReqs   : List (BitVec 16 × Int) := []
  nextSeq     : BitVec 16 := 0
  syncSeq     : BitVec 16 := 0
  announceSeq : BitVec 16 := 0
  delayAt     : Nat := 0
  leadSyncAt  : Nat := 0
  leadAnnAt   : Nat := 0
  /-- offset and mean path delay of this instance's last sample, ns -/
  offset      : Int := 0
  mpd         : Int := 0
  /-- this instance's samples, newest first, at most 64 -/
  history     : List PathSample := []
  /-- consecutive samples of this instance that agree with the new or current offset (Table 2-4, R33) -/
  agreeRun    : Nat := 0
  /-- kind and arrival time of the last two accepted messages of each kind, newest first (R31) -/
  lastRx      : List (Nat × Nat) := []
  deriving DecidableEq, Repr

/-- State of a clock monitor (R35): 0 off, 1 acquiring, 2 good, 3 lost, as in REF_STATUS. -/
inductive MonitorState where
  | off | acquiring | good | lost
  deriving DecidableEq, Repr

/-- One clock monitor (R35). -/
structure Monitor where
  state       : MonitorState := .off
  /-- nominal period in ps, learned for a clock with a permitted range -/
  nominal     : Nat := 0
  /-- rate of the first window of the reacquisition in Hz, and error of the last clean window against nominal in ppb -/
  rate        : Nat := 0
  err         : Int := 0
  glitchRun   : Nat := 0
  cleanRun    : Nat := 0
  lastEdgeAt  : Nat := 0
  /-- stamp of the last 1 PPS edge of REF_IN, and the last good stamp: that of the last clean window or of the edge that ended it -/
  edgeStamp   : Stamp := 0
  lastStamp   : Stamp := 0
  deriving DecidableEq, Repr

/-- A capture in a TIO FIFO (R44). -/
structure Capture where
  stamp  : Stamp
  rising : Bool
  deriving DecidableEq, Repr

/-- One TIO pin (R41 to R46). -/
structure TioPin where
  /-- raw level of a capture input, and the raw transition that began it -/
  raw          : Bool := false
  rawAt        : Nat := 0
  rawStamp     : Stamp := 0
  /-- qualified level; LEVEL of TIO_STATUS for an input -/
  level        : Bool := false
  /-- a raw transition waits for qualification -/
  qualifying   : Bool := false
  fifo         : List Capture := []
  overflow     : Bool := false
  /-- TIO_OVERFLOW has been logged since the FIFO was last read -/
  overflowLog  : Bool := false
  quarantined  : Bool := false
  /-- times of the qualified edges within the last 1 ms, newest first -/
  edges        : List Nat := []
  lastEdgeAt   : Nat := 0
  /-- since when the input holds its active level -/
  activeSince  : Option Nat := none
  stuck        : Bool := false
  /-- armed stamp of ONESHOT or PERIODIC, and the number of the next edge -/
  armed        : Option Stamp := none
  nextEdge     : Nat := 0
  /-- the pulse output is at its active level until this time -/
  pulseEnd     : Option Nat := none
  /-- stamp of the last FRAME or SECOND edge emitted -/
  lastEdge     : Stamp := 0
  held         : Bool := false
  deriving DecidableEq, Repr

/-- Local time of the model and the two counters of R21 to R25. -/
structure Clock where
  /-- model time in ns; a reset does not set it back -/
  now      : Nat := 0
  /-- `now` at the release of D0 (phase 2), from which the provisional counter counts (R24) -/
  phase2   : Option Nat := none
  /-- provisional ticks counted until `provAt`, from which the mode in force counts on (R24) -/
  provTicks : Nat := 0
  provAt   : Nat := 0
  /-- the servo's timebase: an estimate of PTP time, in 2^-16 x 10^-6 ns -/
  timebase : Int := 0
  seeded   : Bool := false
  deriving DecidableEq, Repr

end Sys2Proof.Machine
end

