-- ==== Sys2Proof/Units/Commands.lean ====
section
/-!
DEFINITION. The operand types of the commands: who makes a register access, which clock or flow an event concerns, and what
the surroundings of the ZH48 contribute to an event (a reading, a sample, a latency).
-/

namespace Sys2Proof.Machine

/-- Who makes a register access: a tending core, the safety pair, or the MDP session of a given index. -/
inductive Agent where
  | tc (n : Fin 4) | sp | session (i : Fin 8)
  deriving DecidableEq, Repr

/-- A monitored clock (R35): REF_IN, a lane's recovered clock (R89), or a PDM bit clock (R262). -/
inductive MonitorId where
  | refIn | lane (l : Fin 34) | pdm (k : Fin 2)
  deriving DecidableEq, Repr

/-- A merged flow (R117): a channel of the source role or a surface of the wall role. -/
inductive FlowId where
  | channel (n : Fin 48) | surface (n : Nat)
  deriving DecidableEq, Repr

/-- A datagram as it arrives: its source address (an IPv4 address in its low 32 bits) and its UDP payload. -/
structure Datagram where
  source : Nat
  bytes  : List Byte
  deriving DecidableEq, Repr

/-- The FOM of an adapting lane: the lowest of the last 10 ms, and the one now (R88). -/
structure FomRead where
  lowest : Byte
  fom    : Byte
  deriving DecidableEq, Repr

/-- A newly inserted module: its bus, and whether it reports ready itself or 5 s have passed (R96). -/
structure ModuleReady where
  bus      : Fin 6
  reported : Bool
  deriving DecidableEq, Repr

/-- A lane that takes a curd, and what the read of the entry above meets at line T of a takeover (R161, R201). -/
structure LaneTake where
  lane  : Fin 4
  brine : BrineRead
  deriving DecidableEq, Repr

/-- What one poll of an optics bus reads (R100): the alarm flags set, and the received power of every lane. -/
structure OpticReading where
  present : Bool
  ready   : Bool
  nack    : Bool := false
  int     : Bool := false
  flags   : List Nat := []
  temp    : BitVec 16 := 0
  rxPower : List (BitVec 16) := []
  deriving DecidableEq, Repr

/-- What the memory and the line buffer contribute to one line of a head: per layer the reader that delivered too late and its first late
output pixel (R221), the slots that read uncorrectable (layer, line, stripe, index; R278), the slots whose tag changed while they were
read (R127), the reads that each reader's slots needed correction (R221), the first pixel missing from the line buffer (R245), its
lowest fill. -/
structure LineFill where
  late     : List (Nat × Nat × Nat) := []
  uncorr   : List (Nat × Nat × Nat × Nat) := []
  moved    : List (Nat × Nat × Nat × Nat) := []
  corrected : List (Nat × Nat) := []
  underrun : Option Nat := none
  low      : Nat := 0
  deriving DecidableEq, Repr

/-- What a microphone delivers in one audio frame to one capture group: the number of ones in the decimation window of
each sample, oldest sample first (R258). -/
structure MicSamples where
  group : Nat
  mic   : Nat
  ones  : List Nat
  deriving DecidableEq, Repr

/-- A record handed to the recorder (R300, R301): the next entry of the mirror queue, or a record of a given type of Table
13-2 with its contents, and for a tap its number. -/
inductive RecordSource where
  | ledger
  | data (type : Nat) (tap : Nat) (bytes : List Byte)
  deriving DecidableEq, Repr

/-- What the hull link reports every 1 ms (R379): mV, mA, mW, J and 1/256 degree C. -/
structure Telemetry where
  vbus     : Nat
  feedAMv  : Nat
  feedBMv  : Nat
  feedAMa  : Nat
  feedBMa  : Nat
  power    : Nat
  energy   : BitVec 64
  tempHull : Int
  tempNand : Int
  deriving DecidableEq, Repr

end Sys2Proof.Machine
end

