-- ==== Sys2Proof/Syntax.lean ====
section
/-!
DEFINITION. The commands: one constructor for every row of spec/opcode_table.json with the operands that the row's rule
gives it, in the table's order but for the rows without operands, which come last (compiled Lean builds at most 244 constructors
that carry data). A register access names the agent that makes it; an event of the surroundings names the unit it concerns
and what the surroundings contribute.
-/

namespace Sys2Proof

open Machine

/-- A command of the block. -/
inductive Instr where
  /-- REGISTER_WRITE (R6). -/
  | registerWrite (agent : Agent) (addr : Nat) (value : Word)
  /-- PTP_MESSAGE_RX (R31). -/
  | ptpMessageRx (inst : Fin 6) (datagram : Datagram)
  /-- DELAY_REQ_TX (R26). -/
  | delayReqTx (inst : Fin 6)
  /-- SYNC_TIMEOUT (R29). -/
  | syncTimeout (inst : Fin 6)
  /-- ANNOUNCE_TIMEOUT (R31). -/
  | announceTimeout (inst : Fin 6)
  /-- LEADING_SYNC_TX (R30). -/
  | leadingSyncTx (inst : Fin 6)
  /-- LEADING_ANNOUNCE_TX (R30). -/
  | leadingAnnounceTx (inst : Fin 6)
  /-- SUSPECT_CLR (R33). -/
  | suspectClr (agent : Agent)
  /-- FORCE_HOLD (R32). -/
  | forceHold (agent : Agent) (on : Bool)
  /-- MONITOR_WINDOW_END (R35). -/
  | monitorWindowEnd (clock : MonitorId) (periods : List Nat)
  /-- MONITOR_EDGE_TIMEOUT (R35). -/
  | monitorEdgeTimeout (clock : MonitorId)
  /-- RENNET_POINT (R40). -/
  | rennetPoint (stamp : Stamp)
  /-- STAMP_LO_READ (R48). -/
  | stampLoRead (agent : Agent)
  /-- ARM_HI_WRITE (R42). -/
  | armHiWrite (agent : Agent) (pin : Fin 8) (value : Word)
  /-- TIO_PULSE_EDGE (R41). -/
  | tioPulseEdge (pin : Fin 8)
  /-- TIO_PULSE_END (R41). -/
  | tioPulseEnd (pin : Fin 8)
  /-- TIO_INPUT_TRANSITION (R44). -/
  | tioInputTransition (pin : Fin 8) (level : Bool)
  /-- TIO_LEVEL_QUALIFIED (R44). -/
  | tioLevelQualified (pin : Fin 8)
  /-- TIO_STUCK_TIMEOUT (R46). -/
  | tioStuckTimeout (pin : Fin 8)
  /-- TIO_RELEASE (R43). -/
  | tioRelease (agent : Agent) (pin : Fin 8)
  /-- TIO_FLUSH (R44). -/
  | tioFlush (agent : Agent) (pin : Fin 8)
  /-- CAP_LO_READ (R44). -/
  | capLoRead (agent : Agent) (pin : Fin 8)
  /-- SLOT_CHECK (R62). -/
  | slotCheck (agent : Agent) (slot : Fin 2)
  /-- VALIDATION_DONE (R62). -/
  | validationDone (slot : Fin 2)
  /-- SLOT_CTRL_CLEAR (R63). -/
  | slotCtrlClear (agent : Agent) (slot : Fin 2)
  /-- COMMIT_ISSUE (R68). -/
  | commitIssue (agent : Agent)
  /-- RIPEN_DONE (R74). -/
  | ripenDone (domain : Fin 8) (tile : Fin 64) (failedStage : Option (Fin 3))
  /-- GO_POINT (R70). -/
  | goPoint (ticket : Nat)
  /-- COMMIT_CANCEL (R73). -/
  | commitCancel (agent : Agent) (ticket : Nat)
  /-- FLOOR_RAISE (R65). -/
  | floorRaise (agent : Agent) (value : Word)
  /-- STAGED_WRITE (R67). -/
  | stagedWrite (session : Fin 8) (addr : Nat) (value : Word)
  /-- FW_ALIVE_TIMEOUT (R79). -/
  | fwAliveTimeout (processor : Fin 3)
  /-- FW_CONFIRM (R80). -/
  | fwConfirm (agent : Agent) (processor : Fin 3)
  /-- FW_REVERT (R80). -/
  | fwRevert (agent : Agent) (processor : Fin 3)
  /-- BOOT_WRITE (R82). -/
  | bootWrite (agent : Agent) (bank : Bool) (slot : Fin 2)
  /-- BOOT_PREFER (R82). -/
  | bootPrefer (agent : Agent) (bank : Bool)
  /-- FRAME_RX (R87). -/
  | frameRx (port : Fin 34) (bytes : List Byte) (fcsOk : Bool)
  /-- FT_ADD (R110). -/
  | ftAdd (agent : Agent)
  /-- FT_REMOVE (R110). -/
  | ftRemove (agent : Agent)
  /-- FT_READ (R130). -/
  | ftRead (agent : Agent)
  /-- FT_LOOKUP (R130). -/
  | ftLookup (agent : Agent)
  /-- RING_ENABLE (R114). -/
  | ringEnable (agent : Agent) (ring : Fin 64) (size : Word)
  /-- INPUT_LOSS_TIMEOUT (R116). -/
  | inputLossTimeout (channel : Fin 48)
  /-- STRIPE_GAP_TIMEOUT (R121). -/
  | stripeGapTimeout (channel : Fin 48)
  /-- MERGE_SKEW_TIMEOUT (R117). -/
  | mergeSkewTimeout (flow : FlowId) (seq : Nat)
  /-- PATH_SILENCE_TIMEOUT (R120). -/
  | pathSilenceTimeout (flow : FlowId) (pathB : Bool)
  /-- SURFACE_FRAME_CLOSE (R126). -/
  | surfaceFrameClose (surface : Nat) (frame : Nat)
  /-- SURFACE_CLOSE_TIMEOUT (R126). -/
  | surfaceCloseTimeout (surface : Nat) (frame : Nat)
  /-- LANE_SIGNAL_DETECT (R88). -/
  | laneSignalDetect (lane : Fin 34)
  /-- LANE_ADAPT_CONVERGED (R88). -/
  | laneAdaptConverged (lane : Fin 34) (fom : FomRead)
  /-- PCS_LOCK (R88). -/
  | pcsLock (port : Fin 34)
  /-- PORT_UP (R88). -/
  | portUp (port : Fin 34)
  /-- BRINGUP_STEP_TIMEOUT (R88). -/
  | bringupStepTimeout (port : Fin 34)
  /-- BACKOFF_RETRY (R93). -/
  | backoffRetry (port : Fin 34)
  /-- ADAPT_STEP (R91). -/
  | adaptStep (lane : Fin 34) (before after : Byte)
  /-- LANE_LOW_FOM (R91). -/
  | laneLowFom (lane : Fin 34)
  /-- FOM_BELOW_MIN (R92). -/
  | fomBelowMin (lane : Fin 34)
  /-- PCS_ALIGNMENT_LOSS (R92). -/
  | pcsAlignmentLoss (port : Fin 34)
  /-- FEC_UNCORR_BURST (R92). -/
  | fecUncorrBurst (port : Fin 34) (codewords : Nat)
  /-- LINK_FAULT_PERSIST (R92). -/
  | linkFaultPersist (port : Fin 34) (remote : Bool)
  /-- FEC_DEGRADE (R92). -/
  | fecDegrade (port : Fin 34) (symbols codewords : Nat) (corrected : List Nat)
  /-- OPT_REMOVED (R96). -/
  | optRemoved (bus : Fin 6)
  /-- OPT_INSERTED (R96). -/
  | optInserted (bus : Fin 6)
  /-- OPT_MODULE_READY (R96). -/
  | optModuleReady (event : ModuleReady)
  /-- PORT_ADMIN (R92). -/
  | portAdmin (agent : Agent) (port : Fin 32) (admin : Bool)
  /-- RETRY_NOW (R93). -/
  | retryNow (agent : Agent) (port : Fin 34)
  /-- LANE_LOOP (R98). -/
  | laneLoop (agent : Agent) (lane : Fin 34) (loop : Fin 4)
  /-- LANE_PRBS (R99). -/
  | lanePrbs (agent : Agent) (lane : Fin 34) (prbs : Fin 4)
  /-- LANE_FREEZE (R91). -/
  | laneFreeze (agent : Agent) (lane : Fin 34) (freeze : Bool)
  /-- FOM_READ (R104). -/
  | fomRead (agent : Agent) (lane : Fin 34)
  /-- OPT_POLL (R100). -/
  | optPoll (bus : Fin 6) (reading : OpticReading)
  /-- OPT_CMD (R101). -/
  | optCmd (agent : Agent) (bus : Fin 6) (value : Word)
  /-- OPT_CMD_DONE (R101). -/
  | optCmdDone (bus : Fin 6) (ack : Bool) (data : Byte)
  /-- OPT_SDA_STUCK (R101). -/
  | optSdaStuck (bus : Fin 6) (freed : Bool)
  /-- OPT_RESET_BUS (R101). -/
  | optResetBus (agent : Agent) (bus : Fin 6)
  /-- LANE_TAKE_CURD (R161). -/
  | laneTakeCurd (channel : Fin 48) (take : LaneTake)
  /-- CURD_SELECT (R167). -/
  | curdSelect (channel : Fin 48) (lane : Fin 4)
  /-- VERDICT (R178). -/
  | verdict (channel : Fin 48) (stripe : Fin 4) (k : Nat) (injected : Option (Fin 4))
  /-- VERDICT_DEADLINE (R178). -/
  | verdictDeadline (channel : Fin 48) (stripe : Fin 4) (k : Nat)
  /-- CURD_LATE_HANDOVER (R178). -/
  | curdLateHandover (channel : Fin 48) (stripe : Fin 4) (k : Nat)
  /-- PACKED_PACKET_TIMEOUT (R182). -/
  | packedPacketTimeout (channel : Fin 48)
  /-- PACKET_DEPART (R183). -/
  | packetDepart (port : Fin 32)
  /-- CHANNEL_EOV_REPEAT (R142). -/
  | channelEovRepeat (channel : Fin 48)
  /-- SIGNATURE_PREFETCH_DONE (R285). -/
  | signaturePrefetchDone (channel : Fin 48) (line : Nat) (readable : Bool)
  /-- SIGNATURE_WRITE_TIMEOUT (R285). -/
  | signatureWriteTimeout (channel : Fin 48) (position : Nat)
  /-- CODER_ECC_FAULT (R195). -/
  | coderEccFault (coder : Fin 52)
  /-- CODER_CLOCK_LOSS (R195). -/
  | coderClockLoss (coder : Fin 52)
  /-- CODER_WATCHDOG (R195). -/
  | coderWatchdog (coder : Fin 52)
  /-- RIND_MOVE (R196). -/
  | rindMove (agent : Agent) (channel : Fin 48) (value : Word)
  /-- CODER_RETEST (R204). -/
  | coderRetest (agent : Agent) (coder : Fin 64)
  /-- CODER_RETIRE (R204). -/
  | coderRetire (agent : Agent) (coder : Fin 64)
  /-- CLAIM_FORGET (R194). -/
  | claimForget (surface : Nat)
  /-- HEARTBEAT_RX (R207). -/
  | heartbeatRx (bytes : List Byte)
  /-- RECORDS_RX (R207). -/
  | recordsRx (bytes : List Byte)
  /-- HANDOVER_RX (R212). -/
  | handoverRx (bytes : List Byte)
  /-- ANSWER_RX (R210). -/
  | answerRx (datagram : Datagram)
  /-- PROMOTED_CHANNEL_START (R210). -/
  | promotedChannelStart (channel : Fin 48)
  /-- PROBE_RX (R208). -/
  | probeRx (datagram : Datagram)
  /-- PAIR_SWITCH (R212). -/
  | pairSwitch (agent : Agent)
  /-- HEAD_LINE_START (R237). -/
  | headLineStart (head : Fin 16) (fill : LineFill)
  /-- HEAD_FRAME_START (R237). -/
  | headFrameStart (head : Fin 16)
  /-- HEAD_FRAME_DONE (R250). -/
  | headFrameDone (head : Fin 16)
  /-- HEAD_EOV_REPEAT (R243). -/
  | headEovRepeat (head : Fin 16)
  /-- HEAD_RETEST (R252). -/
  | headRetest (agent : Agent) (head : Fin 16)
  /-- UNIT_CHECK_FAIL (R233). -/
  | unitCheckFail (scaler : Bool) (unit : Fin 64)
  /-- READER_RETEST (R233). -/
  | readerRetest (agent : Agent) (reader : Fin 64)
  /-- SCALER_RETEST (R233). -/
  | scalerRetest (agent : Agent) (scaler : Fin 32)
  /-- AUDIO_FRAME_BOUNDARY (R259). -/
  | audioFrameBoundary (samples : List MicSamples)
  /-- AUDIO_SLIP (R264). -/
  | audioSlip (clock : Bool) (overrun : Bool)
  /-- MIC_STUCK_TIMEOUT (R265). -/
  | micStuckTimeout (mic : Fin 16)
  /-- MEM_REQUEST_SERVE (R281). -/
  | memRequestServe (channel : Fin 16) (arriving : List MemReq) (errors : Fin 3)
  /-- MEM_STARVATION_RAISE (R283). -/
  | memStarvationRaise (channel : Fin 16)
  /-- REFRESH_DUE (R286). -/
  | refreshDue (channel : Fin 16)
  /-- REFRESH_PAYBACK (R286). -/
  | refreshPayback (channel : Fin 16)
  /-- MR4_POLL (R287). -/
  | mr4Poll (channel : Fin 16) (mr4 : Fin 8)
  /-- TRAINING_DUE (R290). -/
  | trainingDue (channel : Fin 16)
  /-- TRAINING_STEP (R290). -/
  | trainingStep (channel : Fin 16)
  /-- TRAINING_FORCE (R290). -/
  | trainingForce (channel : Fin 16)
  /-- TRAINING_DONE (R291). -/
  | trainingDone (channel : Fin 16) (readMargin writeMargin : Byte)
  /-- TRAIN_NOW (R290). -/
  | trainNow (agent : Agent)
  /-- MEM_CHANNEL_SILENT (R292). -/
  | memChannelSilent (channel : Fin 16)
  /-- MEM_RETIRE (R292). -/
  | memRetire (agent : Agent)
  /-- REMAP_DONE (R293). -/
  | remapDone (pair : Fin 8)
  /-- PATROL_SCRUB (R279). -/
  | patrolScrub (errors : Fin 3)
  /-- DUP_COPY_DONE (R295). -/
  | dupCopyDone (region extent : Nat)
  /-- SURFACE_WRITE_TIMEOUT (R284). -/
  | surfaceWriteTimeout (group : Fin 4) (surface slot frame : Nat)
  /-- RECORD_ADMIT (R300). -/
  | recordAdmit (source : RecordSource)
  /-- WHEEL_SIGN (R308). -/
  | wheelSign (wheel : Nat)
  /-- SEAL_NOW (R310). -/
  | sealNow (agent : Agent)
  /-- EXPORT_OPEN (R314). -/
  | exportOpen (agent : Agent)
  /-- EXPORT_CLOSE (R314). -/
  | exportClose (agent : Agent)
  /-- EXPORT_IDLE_TIMEOUT (R314). -/
  | exportIdleTimeout (session : Fin 8)
  /-- VERIFY (R315). -/
  | verify (agent : Agent)
  /-- NAND_PROGRAM_FAIL (R316). -/
  | nandProgramFail (block : Nat)
  /-- CODE_FETCH_ERROR (R321). -/
  | codeFetchError (processor : Fin 5)
  /-- SRAM_UNCORR (R321). -/
  | sramUncorr (processor : Fin 5) (address : Nat)
  /-- CORE_WFI (R322). -/
  | coreWfi (processor : Fin 5)
  /-- CORE_PARK (R322). -/
  | corePark (agent : Agent) (core : Fin 4)
  /-- CORE_RESUME (R322). -/
  | coreResume (agent : Agent) (core : Fin 4)
  /-- CORE_WATCHDOG_EXPIRE (R323). -/
  | coreWatchdogExpire (processor : Fin 5)
  /-- WDT_KICK (R323). -/
  | wdtKick (agent : Agent) (processor : Fin 5)
  /-- CORE_ALIVE (R323). -/
  | coreAlive (agent : Agent) (processor : Fin 5)
  /-- SP_LOCKSTEP_MISMATCH (R324). -/
  | spLockstepMismatch (programCounter : Word)
  /-- IRQ_EVENT (R325). -/
  | irqEvent (events : Nat) (bit : Fin 32)
  /-- IRQ_CLAIM (R328). -/
  | irqClaim (agent : Agent) (target : Fin 5)
  /-- IRQ_COMPLETE (R328). -/
  | irqComplete (agent : Agent) (target : Fin 5) (source : Fin 512)
  /-- SRC_CFG_WRITE (R330). -/
  | srcCfgWrite (agent : Agent) (source : Fin 512) (value : Word)
  /-- THRESHOLD_WRITE (R329). -/
  | thresholdWrite (agent : Agent) (target : Fin 5) (value : Word)
  /-- SWI_SET (R325). -/
  | swiSet (agent : Agent) (value : Word)
  /-- SRC_CNT_SAT_CLEAR (R326). -/
  | srcCntSatClear (agent : Agent) (source : Fin 512)
  /-- IRQ_NO_TARGET (R327). -/
  | irqNoTarget (source : Fin 512)
  /-- RT_ARM (R331). -/
  | rtArm (agent : Agent) (timer : Fin 8) (value : Word)
  /-- RT_EXPIRE (R331). -/
  | rtExpire (timer : Fin 8)
  /-- RT_DISARM (R331). -/
  | rtDisarm (agent : Agent) (timer : Fin 8)
  /-- CHK_START (R334). -/
  | chkStart (agent : Agent) (channel : Fin 16)
  /-- CHK_DATA (R334). -/
  | chkData (agent : Agent) (channel : Fin 16) (size : Fin 3) (value : Word)
  /-- CHK_END (R334). -/
  | chkEnd (agent : Agent) (channel : Fin 16)
  /-- MDP_OPEN (R345). -/
  | mdpOpen (route : Route) (datagram : List Byte)
  /-- MDP_IDENTIFY (R344). -/
  | mdpIdentify (route : Route) (datagram : List Byte)
  /-- MDP_REQUEST (R348). -/
  | mdpRequest (route : Route) (datagram : List Byte)
  /-- MDP_ACK (R352). -/
  | mdpAck (route : Route) (datagram : List Byte)
  /-- MDP_CLOSE (R346). -/
  | mdpClose (route : Route) (datagram : List Byte)
  /-- READ (R350). -/
  | read (session : Fin 8) (addr count : Nat)
  /-- WRITE (R349). -/
  | write (session : Fin 8) (addr : Nat) (values : List Word)
  /-- MODIFY (R350). -/
  | modify (session : Fin 8) (addr : Nat) (mask value : Word)
  /-- BLOCK_READ (R351). -/
  | blockRead (session : Fin 8) (space offset length : Nat)
  /-- BLOCK_WRITE (R351). -/
  | blockWrite (session : Fin 8) (space offset : Nat) (data : List Byte)
  /-- SUBSCRIBE (R352). -/
  | subscribe (session : Fin 8) (minSev flags first : Nat)
  /-- UNSUBSCRIBE (R352). -/
  | unsubscribe (session : Fin 8)
  /-- ATTEST (R353). -/
  | attest (session : Fin 8) (nonce : List Byte)
  /-- ENROL (R354). -/
  | enrol (session : Fin 8) (operands : List Byte)
  /-- SLOT_WRITE (R355). -/
  | slotWrite (session : Fin 8) (operands : List Byte)
  /-- SLOT_CLEAR (R355). -/
  | slotClear (session : Fin 8) (slot : Nat)
  /-- DISOWN (R355). -/
  | disown (session : Fin 8) (confirm : BitVec 64)
  /-- NOP (R350). -/
  | nop (session : Fin 8)
  /-- SESSION_IDLE (R346). -/
  | sessionIdle (session : Fin 8)
  /-- SESSION_KILL (R346). -/
  | sessionKill (agent : Agent)
  /-- NOTIFY_SEND (R352). -/
  | notifySend (session : Fin 8)
  /-- NOTIFY_RETX (R352). -/
  | notifyRetx (session : Fin 8)
  /-- STATE_NOTIFY (R352). -/
  | stateNotify (session : Fin 8)
  /-- MP_ADMIN (R341). -/
  | mpAdmin (agent : Agent) (m1 : Bool) (admin : Bool)
  /-- FEED_CLASS_CHANGE (R360). -/
  | feedClassChange (feedB : Bool) (millivolts : Nat)
  /-- FEED_OVER (R360). -/
  | feedOver (feedB : Bool) (millivolts : Nat)
  /-- FEED_HIGH_TIMEOUT (R360). -/
  | feedHighTimeout (feedB : Bool)
  /-- FEED_STAGE_CLOSE (R361). -/
  | feedStageClose (feedB : Bool)
  /-- RAIL_FAULT (R366). -/
  | railFault (rail : Fin 10) (millivolts : Nat)
  /-- HULL_SAG (R367). -/
  | hullSag (vbus : Nat)
  /-- POWER_REQ_RUN (R373). -/
  | powerReqRun (agent : Agent)
  /-- POWER_REQ_TRIM (R373). -/
  | powerReqTrim (agent : Agent)
  /-- POWER_REQ_KEEP (R373). -/
  | powerReqKeep (agent : Agent) (confirm : BitVec 16)
  /-- POWER_REQ_OFF (R373). -/
  | powerReqOff (agent : Agent) (confirm : BitVec 16) (wake : Nat)
  /-- THERM_SAMPLE (R375). -/
  | thermSample (readings : List DomainTemp)
  /-- TELEMETRY_REFRESH (R379). -/
  | telemetryRefresh (telemetry : Telemetry)
  /-- LEDGER_INTAKE (R381). -/
  | ledgerIntake (ctrl : Nat)
  /-- QUIET_EXPIRE (R389). -/
  | quietExpire (out : Output)
  /-- REL_CTRL_ONE (R389). -/
  | relCtrlOne (agent : Agent) (kind : Fin 4) (index : Fin 64)
  /-- REL_CTRL_ALL (R390). -/
  | relCtrlAll (agent : Agent)
  /-- SAFE_N_TRANSITION (R393). -/
  | safeNTransition (high : Bool)
  /-- SAFE_ENTER (R392). -/
  | safeEnter (agent : Agent)
  /-- SAFE_RELEASE (R394). -/
  | safeRelease (agent : Agent)
  /-- RST_N_TRANSITION (R405). -/
  | rstNTransition (high : Bool)
  /-- HOST_RESET (R406). -/
  | hostReset (agent : Agent) (confirm : BitVec 16)
  /-- CODER_SELF_CHECK_FAIL (R179). -/
  | coderSelfCheckFail (coder : Fin 52) (store : Bool)
  /-- CLAIM_STORM_CLEAR (R198). -/
  | claimStormClear (channel : Fin 48)
  /-- RAISED_CAUSE_CLEAR (R389). -/
  | raisedCauseClear (out : Output) (cls : Nat)
  /-- PROCESSOR_RESTART_DONE (R322). -/
  | processorRestartDone (processor : Fin 5)
  /-- QUARANTINE_EXPIRE (R32). -/
  | quarantineExpire
  /-- HOLD_LIMIT_REACHED (R34). -/
  | holdLimitReached
  /-- REF_IN_PPS_EDGE (R36). -/
  | refInPpsEdge
  /-- ROLL_STEP (R77). -/
  | rollStep
  /-- ROLL_STEP_SCHEDULE (R77). -/
  | rollStepSchedule
  /-- ROLL_HALT (R78). -/
  | rollHalt
  /-- BOOT_WRITE_DONE (R82). -/
  | bootWriteDone
  /-- FT_REBUILD_DONE (R111). -/
  | ftRebuildDone
  /-- FT_COPY_DONE (R111). -/
  | ftCopyDone
  /-- CLAIM_GRANT (R196). -/
  | claimGrant
  /-- HEARTBEAT_TX (R207). -/
  | heartbeatTx
  /-- RECORDS_TX (R207). -/
  | recordsTx
  /-- HEARTBEAT_MISS (R209). -/
  | heartbeatMiss
  /-- WITNESS_TIMEOUT (R209). -/
  | witnessTimeout
  /-- WITNESS_RETRY (R209). -/
  | witnessRetry
  /-- SWITCH_DEADLINE (R212). -/
  | switchDeadline
  /-- PAGE_WRITE (R304). -/
  | pageWrite
  /-- PAGE_TIMEOUT (R304). -/
  | pageTimeout
  /-- REC_WARN_LEDGER_CLOSE (R309). -/
  | recWarnLedgerClose
  /-- REC_WARN_STOP (R309). -/
  | recWarnStop
  /-- SAFE_SEAL_TIMEOUT (R310). -/
  | safeSealTimeout
  /-- VERIFY_DONE (R315). -/
  | verifyDone
  /-- HULL_LINK_LOST (R364). -/
  | hullLinkLost
  /-- HULL_LINK_RESTORED (R364). -/
  | hullLinkRestored
  /-- RAIL_START (R365). -/
  | railStart
  /-- RAIL_POWER_GOOD (R365). -/
  | railPowerGood
  /-- RAIL_START_TIMEOUT (R366). -/
  | railStartTimeout
  /-- RAIL_RETRY (R366). -/
  | railRetry
  /-- SAG_RELEASE (R369). -/
  | sagRelease
  /-- SAG_HOLD_EXPIRE (R369). -/
  | sagHoldExpire
  /-- VBUS_RESET (R370). -/
  | vbusReset
  /-- VBUS_RESET_RELEASE (R370). -/
  | vbusResetRelease
  /-- KEEP_GATE (R373). -/
  | keepGate
  /-- WAKE_TIMER (R373). -/
  | wakeTimer
  /-- THERM_TRIP (R376). -/
  | thermTrip
  /-- TRIP_COOLED (R376). -/
  | tripCooled
  /-- LEDGER_DELIVER (R381). -/
  | ledgerDeliver
  /-- MIRROR_COPY (R385). -/
  | mirrorCopy
  /-- SAFE_PIN_QUALIFY (R393). -/
  | safePinQualify
  /-- SAFE_PIN_CLEAR (R393). -/
  | safePinClear
  /-- RESPONSE_RUN (R395). -/
  | responseRun
  /-- RST_PIN_QUALIFY (R405). -/
  | rstPinQualify
  /-- RST_PIN_RELEASE (R405). -/
  | rstPinRelease
  /-- HOST_RESET_ENTER (R406). -/
  | hostResetEnter
  /-- START_D0_RELEASE (R410). -/
  | startD0Release
  /-- BOOT_BANK_SELECT (R408). -/
  | bootBankSelect
  /-- START_FIRMWARE (R410). -/
  | startFirmware
  /-- START_INSTALL (R432). -/
  | startInstall
  /-- START_PORTS (R410). -/
  | startPorts
  /-- START_SLOW (R410). -/
  | startSlow
  /-- SP_RESTARTS_CLEAR (R394). -/
  | spRestartsClear
  /-- HULL_ALIVE (R378). -/
  | hullAlive
  /-- HULL_POWER_UP (R403). -/
  | hullPowerUp
  /-- VBUS_BELOW_18V (R363). -/
  | vbusBelow18v
  /-- NO_ACTIVE_HEARTBEAT (R209). -/
  | noActiveHeartbeat
  /-- SWITCHOVER_STAMP (R212). -/
  | switchoverStamp
  deriving DecidableEq, Repr

end Sys2Proof
end

