-- ==== Sys2Proof/Decode.lean ====
section
/-!
DEFINITION. The command that a word of spec/opcode_table.json spells. The table's rows carry no bits: a command of this block is a
register access, a datagram or an event, not a word, so no word spells one.
-/

namespace Sys2Proof

/-- The command that a word of the table's bits spells; the table gives no row any bits. -/
def decodeTableWord (nbits w : Nat) : Option Instr :=
  let _ := nbits + w
  none

end Sys2Proof
end

