-- ==== Sys2Proof/Machine/Crc.lean ====
section
/-!
DEFINITION. The cyclic redundancy checks of the spec: reflected and non-reflected CRCs of any width, bit by bit.
-/

namespace Sys2Proof.Machine

/-- One bit of a reflected CRC register with reflected polynomial `poly`. -/
def crcBitR (poly c : Nat) : Nat := if c % 2 = 1 then (c / 2) ^^^ poly else c / 2

/-- One byte of a reflected CRC. -/
def crcByteR (poly c : Nat) (b : Byte) : Nat :=
  let f := crcBitR poly
  f (f (f (f (f (f (f (f (c ^^^ b.toNat))))))))

/-- A reflected CRC register fed with bytes. -/
def crcFeedR (poly c : Nat) (p : List Byte) : Nat := p.foldl (crcByteR poly) c

/-- One bit of a non-reflected CRC register of `w` bits. -/
def crcBitN (w poly c : Nat) : Nat :=
  if c / 2 ^ (w - 1) % 2 = 1 then (c * 2 % 2 ^ w) ^^^ poly else c * 2 % 2 ^ w

/-- One byte of a non-reflected CRC of `w` bits. -/
def crcByteN (w poly c : Nat) (b : Byte) : Nat :=
  let f := crcBitN w poly
  f (f (f (f (f (f (f (f (c ^^^ (b.toNat * 2 ^ (w - 8))))))))))

/-- A non-reflected CRC register fed with bytes. -/
def crcFeedN (w poly c : Nat) (p : List Byte) : Nat := p.foldl (crcByteN w poly) c

/-- CRC-32C (Table 14-6): polynomial 0x1EDC_6F41 reflected, initial value and final XOR 0xFFFF_FFFF. -/
def crc32c (p : List Byte) : Nat := crcFeedR 0x82F63B78 0xFFFFFFFF p ^^^ 0xFFFFFFFF

/-- CRC-32 of IEEE 802.3 (Table 14-6): polynomial 0x04C1_1DB7 reflected. -/
def crc32 (p : List Byte) : Nat := crcFeedR 0xEDB88320 0xFFFFFFFF p ^^^ 0xFFFFFFFF

/-- CRC-16/CCITT (Table 14-6): polynomial 0x1021, initial value 0xFFFF, no final XOR. -/
def crc16 (p : List Byte) : Nat := crcFeedN 16 0x1021 0xFFFF p

end Sys2Proof.Machine
end

