-- ==== Sys2Proof/Config.lean ====
section
/-!
DEFINITION. What an implementation fixes and the spec leaves open: opaque constants without a value, of which nothing but
their type is known. A claim about the model holds whatever they are.
-/

namespace Sys2Proof

open Machine

/-- Free values, one for each number drawn from `State.fresh` (log entry 6). -/
opaque Config.freeBit : Nat → Bool
opaque Config.freeByte : Nat → Byte
opaque Config.freeWord : Nat → Word
opaque Config.freeNat : Nat → Nat
opaque Config.freeInt : Nat → Int

/-- How many ns after a pattern is enabled the checker of a lane locks, and the symbol errors that it sees in a given ns after that
(R99), by lane and time of enabling: what a lane receives is not the block's to say (log entry 6). -/
opaque Config.prbsLockAfter : Nat → Nat → Nat
opaque Config.prbsErrorsAt : Nat → Nat → Nat → Nat

/-- Corrected errors of data SRAM that a tending core meets in a given ns (R321); the memory is not the block's to watch (log entry 6). -/
opaque Config.sramCorrectedAt : Nat → Nat → Nat

/-- SHA-512 over a byte string, 64 bytes (R53, R344; log entry 8). -/
opaque Config.sha512 : List Byte → List Byte
/-- RSASSA-PSS verification of R58: modulus, exponent, message, signature. -/
opaque Config.pssVerify : List Byte → Nat → List Byte → List Byte → Bool
/-- RSASSA-PSS signature with the device identity key (R344). -/
opaque Config.pssSign : List Byte → List Byte
/-- RSASSA-PSS verification with the device identity key (R308, R315). -/
opaque Config.identityVerify : List Byte → List Byte → Bool
/-- The value of the filter and of its DC blocker for `ones` bits out of a ratio, before GAIN (R258 gives no coefficients): HPF, ones, ratio. -/
opaque Config.decimated : Bool → Nat → Nat → Int
/-- Bytes that the tags of a surface of so many slots take in its region (R124, R129; the manual gives no size). -/
opaque Config.tagBytes : Nat → Nat
/-- DRAM bank and row of a line of a memory channel, by device address (R281; the manual gives no mapping). -/
opaque Config.dramBank : Nat → Nat
opaque Config.dramRow : Nat → Nat
/-- Two MR4 readings lie more than 5 degrees C apart (R290; the manual gives no temperatures for the readings). -/
opaque Config.mr4Moved : Nat → Nat → Bool
/-- RSASSA-PSS verification with the Krovdan release key (R61). -/
opaque Config.releaseVerify : List Byte → List Byte → Bool
/-- RSAES-OAEP decryption with the device identity key (R345). -/
opaque Config.oaepDecrypt : List Byte → Option (List Byte)
/-- AES-256-GCM (R206, R342): byte of the key stream of a key and nonce, and the tag of key, nonce, associated data and ciphertext. -/
opaque Config.gcmStream : List Byte → List Byte → Nat → Byte
opaque Config.gcmTag : List Byte → List Byte → List Byte → List Byte → BitVec 128
/-- Random session identities (R345), one for each draw. -/
opaque Config.randomSession : Nat → Word
/-- The enrolment code set at manufacture (R354). -/
opaque Config.enrolCode : BitVec 64
/-- The device certificate and the Krovdan manufacturing certificate (R344), 1,056 bytes each. -/
opaque Config.deviceCertificate : List Byte
opaque Config.manufacturingCertificate : List Byte
/-- The clockIdentity of each PTP instance (R30, R31); the manual gives no value. -/
opaque Config.clockIdentity : Nat → BitVec 64
/-- What R26 leaves open of a sent PTP message: DSCP and TTL of its packet, and in Announce the leap-second and traceability flags,
currentUtcOffset and timeSource. -/
opaque Config.ptpDscp : Nat
opaque Config.ptpTtl : Nat
/-- TTL of pair-link and witness datagrams (R102 names none). -/
opaque Config.pairTtl : Nat
/-- T and F of a grant while line T is not yet reached, by channel and number of its grants: the safety pair names them at the grant,
and the manual does not say how it foresees them (R196, R215; log entry 66). -/
opaque Config.takeAhead : Nat → Nat → Nat × Nat
opaque Config.ptpUtcFlags : Byte
opaque Config.ptpUtcOffset : BitVec 16
opaque Config.ptpTimeSource : Byte
/-- The offset filter of the servo over the accepted samples, newest first, in ns (R32 leaves the filter open). -/
opaque Config.offsetFilter : List PathSample → Int
/-- The servo's frequency estimate from the accepted samples and the estimate in use, in 2^-16 ppm, before the limit of R25. -/
opaque Config.frequencyEstimate : List PathSample → Int → Int
/-- The same estimate while REF_IN, of which the error in ppb is given, filters PTP frequency noise (R37 leaves the filter open). -/
opaque Config.assistedEstimate : List PathSample → Int → Int → Int
/-- The frequency that holds the raster to REF_IN (R37), from REF_IN's error against the raster when the hold began and now, in
ppb, and the estimate in use. -/
opaque Config.heldToRefIn : Int → Int → Int → Int

end Sys2Proof
end

