-- ==== Sys2Proof/Machine/Classes.lean ====
section
/-!
DEFINITION. The fault classes of the chapters' fault tables (Table 17-15): code and own severity. Where a table gives a class
two severities, the lower one stands here and the meaning that logs it raises it.
-/

namespace Sys2Proof.Machine

/-! Table 2-18. -/
def F.TIME_STATE : FaultClass := ⟨0x0101, 1⟩
def F.TIME_SEEDED : FaultClass := ⟨0x0102, 0⟩
def F.TIME_PATH_STEP : FaultClass := ⟨0x0103, 1⟩
def F.TIME_SUSPECT : FaultClass := ⟨0x0104, 2⟩
def F.TIME_SOURCE_CHANGE : FaultClass := ⟨0x0105, 1⟩
def F.TIME_HOLDOVER : FaultClass := ⟨0x0106, 2⟩
def F.TIME_HOLDOVER_LONG : FaultClass := ⟨0x0107, 2⟩
def F.TIME_FAR : FaultClass := ⟨0x0108, 2⟩
def F.PTP_RX_INVALID : FaultClass := ⟨0x0109, 0⟩
def F.RENNET_LEAD : FaultClass := ⟨0x0110, 1⟩
def F.RENNET_RANGE : FaultClass := ⟨0x0111, 1⟩
def F.RENNET_FULL : FaultClass := ⟨0x0112, 1⟩
def F.TIME_PLAN : FaultClass := ⟨0x0120, 1⟩
def F.REF_LOSS : FaultClass := ⟨0x0E01, 1⟩
def F.REF_GLITCH : FaultClass := ⟨0x0E02, 0⟩
def F.REF_REACQUIRED : FaultClass := ⟨0x0E03, 0⟩
def F.CHATTER : FaultClass := ⟨0x0E10, 1⟩
def F.TIO_STUCK : FaultClass := ⟨0x0E11, 1⟩
def F.TIO_OVERFLOW : FaultClass := ⟨0x0E12, 1⟩
def F.TIO_RELEASE_IGNORED : FaultClass := ⟨0x0E13, 0⟩
def F.TIO_INACTIVE : FaultClass := ⟨0x0E14, 3⟩
def F.TIO_ARM_REFUSED : FaultClass := ⟨0x0E15, 1⟩
/-! Table 3-19. -/
def F.IMG_FORMAT : FaultClass := ⟨0x0A01, 1⟩
def F.IMG_TARGET : FaultClass := ⟨0x0A02, 1⟩
def F.IMG_CHAIN : FaultClass := ⟨0x0A03, 1⟩
def F.IMG_PERM : FaultClass := ⟨0x0A04, 1⟩
def F.IMG_SIGNATURE : FaultClass := ⟨0x0A05, 1⟩
def F.IMG_LINEAGE : FaultClass := ⟨0x0A06, 1⟩
def F.IMG_ROLLBACK : FaultClass := ⟨0x0A07, 1⟩
def F.IMG_SECTION : FaultClass := ⟨0x0A08, 1⟩
def F.IMG_VENDOR_SIG : FaultClass := ⟨0x0A09, 1⟩
def F.IMG_REFUSED : FaultClass := ⟨0x0A10, 1⟩
def F.IMG_ROLE : FaultClass := ⟨0x0A11, 1⟩
def F.IMG_D0 : FaultClass := ⟨0x0A12, 1⟩
def F.IMG_ORDER : FaultClass := ⟨0x0A13, 1⟩
def F.IMG_TILE_BUSY : FaultClass := ⟨0x0A14, 1⟩
def F.IMG_BASE : FaultClass := ⟨0x0A15, 1⟩
def F.IMG_FW_MULTI : FaultClass := ⟨0x0A16, 1⟩
def F.IMG_BIND : FaultClass := ⟨0x0A17, 1⟩
def F.IMG_BOOT_ONLY : FaultClass := ⟨0x0A18, 1⟩
def F.IMG_SLOT_STATE : FaultClass := ⟨0x0A19, 1⟩
def F.IMG_SLOT_BUSY : FaultClass := ⟨0x0A1A, 0⟩
def F.IMG_STAGE_FULL : FaultClass := ⟨0x0A1B, 1⟩
def F.IMG_PENDING_FULL : FaultClass := ⟨0x0A1C, 1⟩
def F.IMG_RIPEN_FAIL : FaultClass := ⟨0x0A20, 2⟩
def F.IMG_NOT_RIPE : FaultClass := ⟨0x0A21, 1⟩
def F.IMG_ABANDONED : FaultClass := ⟨0x0A22, 1⟩
def F.IMG_CANCELLED : FaultClass := ⟨0x0A23, 0⟩
def F.IMG_CANCEL_LATE : FaultClass := ⟨0x0A24, 0⟩
def F.IMG_APPLIED : FaultClass := ⟨0x0A25, 0⟩
def F.IMG_STAGE_LOST : FaultClass := ⟨0x0A26, 2⟩
def F.IMG_ROLL_STEP : FaultClass := ⟨0x0A30, 0⟩
def F.IMG_ROLL_HALT : FaultClass := ⟨0x0A31, 2⟩
def F.IMG_ROLL_DONE : FaultClass := ⟨0x0A32, 0⟩
def F.IMG_FW_SWAP : FaultClass := ⟨0x0A40, 1⟩
def F.IMG_FW_REVERT : FaultClass := ⟨0x0A41, 2⟩
def F.IMG_FW_CONFIRMED : FaultClass := ⟨0x0A42, 0⟩
def F.IMG_BOOT_WRITE : FaultClass := ⟨0x0A50, 0⟩
def F.IMG_BOOT_FAIL : FaultClass := ⟨0x0A51, 2⟩
def F.IMG_FLOOR : FaultClass := ⟨0x0A52, 0⟩
def F.IMG_BOOT_BUSY : FaultClass := ⟨0x0A53, 1⟩
/-! Table 4-10. -/
def F.PORT_UP : FaultClass := ⟨0x0201, 0⟩
def F.PORT_DOWN : FaultClass := ⟨0x0202, 2⟩
def F.LANE_FAIL : FaultClass := ⟨0x0203, 2⟩
def F.LANE_CDR_LOSS : FaultClass := ⟨0x0204, 1⟩
def F.LANE_LOW_FOM : FaultClass := ⟨0x0205, 1⟩
def F.FEC_DEGRADE : FaultClass := ⟨0x0206, 1⟩
def F.LANE_RETRAIN : FaultClass := ⟨0x0207, 0⟩
def F.LOOP_REFUSED : FaultClass := ⟨0x0208, 0⟩
def F.OPT_INSERTED : FaultClass := ⟨0x0210, 0⟩
def F.OPT_REMOVED : FaultClass := ⟨0x0211, 1⟩
def F.OPT_BUS_STUCK : FaultClass := ⟨0x0212, 2⟩
def F.OPT_ALARM : FaultClass := ⟨0x0213, 1⟩
def F.PAIR_LINK_DOWN : FaultClass := ⟨0x0220, 2⟩
def F.PAIR_LINK_UP : FaultClass := ⟨0x0221, 0⟩
def F.PORT_PLAN : FaultClass := ⟨0x0230, 1⟩
/-! Table 5-11. -/
def F.ING_RTP_BAD : FaultClass := ⟨0x0301, 0⟩
def F.ING_SSRC : FaultClass := ⟨0x0302, 1⟩
def F.ING_SEQ_JUMP : FaultClass := ⟨0x0303, 1⟩
def F.ING_SRD_BAD : FaultClass := ⟨0x0304, 1⟩
def F.ING_FRAME_SHORT : FaultClass := ⟨0x0305, 1⟩
def F.ING_RATE : FaultClass := ⟨0x0306, 2⟩
def F.INPUT_LOSS : FaultClass := ⟨0x0310, 3⟩
def F.INPUT_RESTORED : FaultClass := ⟨0x0311, 0⟩
def F.CURD_INCOMPLETE : FaultClass := ⟨0x0312, 1⟩
def F.SOURCE_STALE : FaultClass := ⟨0x0313, 1⟩
def F.SOURCE_LIVE : FaultClass := ⟨0x0314, 0⟩
def F.MERGE_PATH_LOSS : FaultClass := ⟨0x0320, 2⟩
def F.CHECK_ONLY : FaultClass := ⟨0x0321, 0⟩
def F.CHECK_FAIL : FaultClass := ⟨0x0322, 1⟩
def F.CURD_BAD : FaultClass := ⟨0x0330, 1⟩
def F.CLAIM_LOW : FaultClass := ⟨0x0331, 0⟩
def F.SURF_CLOSE_TIMEOUT : FaultClass := ⟨0x0332, 1⟩
def F.FT_NO_ROOM : FaultClass := ⟨0x0340, 1⟩
def F.FT_RING_FULL : FaultClass := ⟨0x0341, 1⟩
def F.FT_SWAP : FaultClass := ⟨0x0342, 0⟩
def F.ING_PLAN : FaultClass := ⟨0x0350, 1⟩
/-! Table 7-14. -/
def F.VERIFY_MISMATCH : FaultClass := ⟨0x0401, 3⟩
def F.CURD_LATE : FaultClass := ⟨0x0402, 3⟩
def F.LANE_OVERRUN : FaultClass := ⟨0x0403, 3⟩
def F.CODER_SUSPECT : FaultClass := ⟨0x0404, 2⟩
def F.RATE_FLOOR : FaultClass := ⟨0x0405, 1⟩
def F.EGRESS_BUDGET : FaultClass := ⟨0x0406, 1⟩
def F.CHANNEL_PLAN : FaultClass := ⟨0x0407, 1⟩
def F.CHANNEL_START : FaultClass := ⟨0x0410, 0⟩
def F.CHANNEL_END : FaultClass := ⟨0x0411, 1⟩
def F.SKIP_KEY_APPLIED : FaultClass := ⟨0x0412, 0⟩
def F.EG_LATE : FaultClass := ⟨0x0413, 1⟩
/-! Table 8-14. -/
def F.CODER_FAULT : FaultClass := ⟨0x0501, 2⟩
def F.TAKEOVER : FaultClass := ⟨0x0502, 1⟩
def F.FENCE_VOID : FaultClass := ⟨0x0503, 3⟩
def F.MIRROR_BAD : FaultClass := ⟨0x0504, 1⟩
def F.NO_SPARE : FaultClass := ⟨0x0505, 3⟩
def F.SPARE_LOW : FaultClass := ⟨0x0506, 2⟩
def F.CLAIM_STORM : FaultClass := ⟨0x0507, 3⟩
def F.CLAIM_EXHAUSTED : FaultClass := ⟨0x0508, 3⟩
def F.CODER_RETEST : FaultClass := ⟨0x0509, 0⟩
def F.CLAIM_CHANGE : FaultClass := ⟨0x0510, 0⟩
def F.PEER_SILENT : FaultClass := ⟨0x0520, 2⟩
def F.STANDBY_READY : FaultClass := ⟨0x0521, 0⟩
def F.WITNESS_UNREACHABLE : FaultClass := ⟨0x0522, 2⟩
def F.WITNESS_ANSWER : FaultClass := ⟨0x0523, 0⟩
def F.PROMOTED : FaultClass := ⟨0x0524, 1⟩
def F.DEMOTED : FaultClass := ⟨0x0525, 1⟩
def F.PAIR_GAP : FaultClass := ⟨0x0526, 1⟩
def F.PAIR_AUTH : FaultClass := ⟨0x0527, 1⟩
def F.PAIR_RANK_CLASH : FaultClass := ⟨0x0528, 2⟩
def F.SWITCH_ABANDONED : FaultClass := ⟨0x0529, 1⟩
def F.SPARE_PLAN : FaultClass := ⟨0x0530, 1⟩
/-! Table 9-12. -/
def F.LAYER_LATE : FaultClass := ⟨0x0601, 3⟩
def F.LAYER_STALE : FaultClass := ⟨0x0602, 3⟩
def F.LAYER_EOV : FaultClass := ⟨0x0603, 3⟩
def F.LAYER_GEOMETRY : FaultClass := ⟨0x0604, 3⟩
def F.LAYER_NO_SIGNAL : FaultClass := ⟨0x0605, 3⟩
def F.LAYER_DAMAGED : FaultClass := ⟨0x0606, 3⟩
def F.READ_ECC : FaultClass := ⟨0x0607, 3⟩
def F.UNIT_FAULT : FaultClass := ⟨0x0608, 3⟩
def F.LAYER_RESTORED : FaultClass := ⟨0x0609, 0⟩
def F.LAYER_PLAN : FaultClass := ⟨0x0610, 1⟩
/-! Table 10-10. -/
def F.HEAD_UNDERRUN : FaultClass := ⟨0x0681, 3⟩
def F.HEAD_FREEZE : FaultClass := ⟨0x0682, 3⟩
def F.HEAD_FREEZE_CLEARED : FaultClass := ⟨0x0683, 0⟩
def F.HEAD_FAILED : FaultClass := ⟨0x0684, 3⟩
def F.HEAD_MODE_CHANGE : FaultClass := ⟨0x0685, 1⟩
def F.HEAD_START : FaultClass := ⟨0x0686, 0⟩
def F.HEAD_STOP : FaultClass := ⟨0x0687, 1⟩
def F.TIMING_PLAN : FaultClass := ⟨0x0690, 1⟩
/-! Table 11-10. -/
def F.AUDIO_CLK_LOSS : FaultClass := ⟨0x0701, 2⟩
def F.AUDIO_CLK_GLITCH : FaultClass := ⟨0x0702, 0⟩
def F.AUDIO_CLK_REACQUIRED : FaultClass := ⟨0x0703, 0⟩
def F.AUDIO_CLK_RATE : FaultClass := ⟨0x0704, 3⟩
def F.AUDIO_SILENCED : FaultClass := ⟨0x0705, 3⟩
def F.AUDIO_SLIP : FaultClass := ⟨0x0706, 1⟩
def F.MIC_STUCK : FaultClass := ⟨0x0707, 3⟩
def F.MIC_LIVE : FaultClass := ⟨0x0708, 0⟩
def F.AUDIO_MASK_CHANGE : FaultClass := ⟨0x0709, 0⟩
def F.AUDIO_PLAN : FaultClass := ⟨0x0710, 1⟩
/-! Table 12-11. -/
def F.MEM_ECC_UNCORR : FaultClass := ⟨0x0801, 1⟩
def F.MEM_DUP_REPAIR : FaultClass := ⟨0x0802, 0⟩
def F.MEM_SYSTEM_LOST : FaultClass := ⟨0x0803, 4⟩
def F.MEM_ACCESS : FaultClass := ⟨0x0804, 1⟩
def F.MEM_WRITE_DROP : FaultClass := ⟨0x0805, 1⟩
def F.MEM_HOT : FaultClass := ⟨0x0806, 1⟩
def F.MEM_PAYBACK : FaultClass := ⟨0x0807, 0⟩
def F.MEM_TOO_HOT : FaultClass := ⟨0x0808, 4⟩
def F.MEM_TRAIN_FAIL : FaultClass := ⟨0x0809, 2⟩
def F.MEM_PAIR_RETIRED : FaultClass := ⟨0x080A, 2⟩
def F.MEM_AREA_VOID : FaultClass := ⟨0x080B, 3⟩
def F.MEM_REMAP_DONE : FaultClass := ⟨0x080C, 0⟩
def F.MEM_RING_LOST : FaultClass := ⟨0x080D, 2⟩
def F.MEM_DUP_SINGLE : FaultClass := ⟨0x080E, 2⟩
def F.MEM_DUP_RESTORED : FaultClass := ⟨0x080F, 0⟩
def F.MEM_CAPACITY : FaultClass := ⟨0x0810, 4⟩
def F.MEM_PLAN : FaultClass := ⟨0x0811, 1⟩
/-! Table 13-8. -/
def F.REC_SEALED : FaultClass := ⟨0x0901, 0⟩
def F.REC_SIGNED : FaultClass := ⟨0x0902, 0⟩
def F.REC_DROP : FaultClass := ⟨0x0903, 1⟩
def F.REC_WARN_SEAL : FaultClass := ⟨0x0904, 1⟩
def F.REC_RECOVERED : FaultClass := ⟨0x0905, 2⟩
def F.REC_HOLD_FULL : FaultClass := ⟨0x0906, 2⟩
def F.REC_VERIFY_FAIL : FaultClass := ⟨0x0907, 2⟩
def F.REC_READ_UNCORR : FaultClass := ⟨0x0908, 2⟩
def F.REC_BLOCK_RETIRED : FaultClass := ⟨0x0909, 0⟩
def F.REC_SLOT_RETIRED : FaultClass := ⟨0x090A, 2⟩
def F.REC_WEAR : FaultClass := ⟨0x090B, 2⟩
def F.REC_STORE_FAIL : FaultClass := ⟨0x090C, 3⟩
def F.REC_TAP_LIMIT : FaultClass := ⟨0x090D, 0⟩
def F.REC_PLAN : FaultClass := ⟨0x090E, 1⟩
def F.REC_SIGN_LATE : FaultClass := ⟨0x090F, 1⟩
/-! Table 14-14. -/
def F.CORE_WATCHDOG : FaultClass := ⟨0x0B01, 2⟩
def F.CORE_SRAM_UNCORR : FaultClass := ⟨0x0B02, 2⟩
def F.CORE_CODE_LOST : FaultClass := ⟨0x0B03, 2⟩
def F.CORE_ACCESS : FaultClass := ⟨0x0B04, 1⟩
def F.SP_LOCKSTEP : FaultClass := ⟨0x0B05, 2⟩
def F.SP_RESTART : FaultClass := ⟨0x0B06, 2⟩
def F.SP_RESTARTS : FaultClass := ⟨0x0B07, 4⟩
def F.IRQ_SATURATED : FaultClass := ⟨0x0B10, 1⟩
def F.HUB_DENIED : FaultClass := ⟨0x0B11, 1⟩
def F.IRQ_NO_TARGET : FaultClass := ⟨0x0B12, 1⟩
def F.CHK_FAIL : FaultClass := ⟨0x0B20, 1⟩
def F.TIMER_LATE : FaultClass := ⟨0x0B21, 0⟩
def F.FW_PLAN : FaultClass := ⟨0x0B30, 1⟩
def F.IRQ_PLAN : FaultClass := ⟨0x0B31, 1⟩
def F.CHK_PLAN : FaultClass := ⟨0x0B32, 1⟩
/-! Table 15-13. -/
def F.MDP_SESSION_OPEN : FaultClass := ⟨0x0C01, 0⟩
def F.MDP_SESSION_END : FaultClass := ⟨0x0C02, 0⟩
def F.MDP_OPEN_FAIL : FaultClass := ⟨0x0C03, 1⟩
def F.MDP_AUTH : FaultClass := ⟨0x0C04, 1⟩
def F.MDP_REPLAY : FaultClass := ⟨0x0C05, 1⟩
def F.MDP_MALFORMED : FaultClass := ⟨0x0C06, 0⟩
def F.MDP_NO_SESSION : FaultClass := ⟨0x0C07, 0⟩
def F.MDP_BAD_OP : FaultClass := ⟨0x0C08, 1⟩
def F.MDP_LENGTH : FaultClass := ⟨0x0C09, 1⟩
def F.MDP_RIGHTS : FaultClass := ⟨0x0C0A, 1⟩
def F.MDP_ADDRESS : FaultClass := ⟨0x0C0B, 1⟩
def F.MDP_BLOCK : FaultClass := ⟨0x0C0C, 1⟩
def F.NOTIFY_LOSS : FaultClass := ⟨0x0C10, 1⟩
def F.OWN_ENROLLED : FaultClass := ⟨0x0C20, 1⟩
def F.OWN_SLOT : FaultClass := ⟨0x0C21, 1⟩
def F.OWN_DISOWNED : FaultClass := ⟨0x0C22, 2⟩
def F.OWN_ENROL_FAIL : FaultClass := ⟨0x0C23, 1⟩
def F.OWN_ENROL_LOCK : FaultClass := ⟨0x0C24, 2⟩
def F.OWN_REFUSED : FaultClass := ⟨0x0C25, 1⟩
def F.ATTESTED : FaultClass := ⟨0x0C30, 0⟩
def F.MDP_PLAN : FaultClass := ⟨0x0C40, 1⟩
/-! Table 16-10. -/
def F.HULL_SAG : FaultClass := ⟨0x0D01, 3⟩
def F.HULL_SAG_CLEAR : FaultClass := ⟨0x0D02, 0⟩
def F.HULL_RESET_PRIOR : FaultClass := ⟨0x0D03, 2⟩
def F.HULL_HOLDUP_SHORT : FaultClass := ⟨0x0D04, 2⟩
def F.HULL_FEED_LOST : FaultClass := ⟨0x0D05, 2⟩
def F.HULL_FEED_RESTORED : FaultClass := ⟨0x0D06, 0⟩
def F.HULL_FEED_HIGH : FaultClass := ⟨0x0D07, 1⟩
def F.HULL_FEED_OFF : FaultClass := ⟨0x0D08, 2⟩
def F.HULL_RAIL_FAIL : FaultClass := ⟨0x0D10, 2⟩
def F.HULL_RAIL_FAULT : FaultClass := ⟨0x0D11, 2⟩
def F.HULL_LINK_LOST : FaultClass := ⟨0x0D12, 2⟩
def F.HULL_LINK_RESTORED : FaultClass := ⟨0x0D13, 0⟩
def F.HULL_LOG_LOST : FaultClass := ⟨0x0D14, 1⟩
def F.THERM_WARN : FaultClass := ⟨0x0D20, 1⟩
def F.THERM_CRIT : FaultClass := ⟨0x0D21, 4⟩
def F.THERM_TRIP : FaultClass := ⟨0x0D22, 2⟩
def F.THERM_SENSOR : FaultClass := ⟨0x0D23, 2⟩
def F.THERM_CLEAR : FaultClass := ⟨0x0D24, 0⟩
def F.POWER_STATE : FaultClass := ⟨0x0D30, 0⟩
def F.POWER_REFUSED : FaultClass := ⟨0x0D31, 1⟩
def F.POWER_PLAN : FaultClass := ⟨0x0D40, 1⟩
/-! Table 17-14. -/
def F.SAFE_ENTERED : FaultClass := ⟨0x0E81, 4⟩
def F.SAFE_PIN : FaultClass := ⟨0x0E82, 4⟩
def F.SAFE_HOST : FaultClass := ⟨0x0E83, 4⟩
def F.SAFE_RELEASED : FaultClass := ⟨0x0E84, 1⟩
def F.SAFE_RELEASE_IGNORED : FaultClass := ⟨0x0E85, 0⟩
def F.OUTPUT_RELEASED : FaultClass := ⟨0x0E86, 0⟩
def F.RELEASE_IGNORED : FaultClass := ⟨0x0E87, 0⟩
def F.LEDGER_OVERFLOW : FaultClass := ⟨0x0E88, 4⟩
def F.LEDGER_RECOVERED : FaultClass := ⟨0x0E89, 0⟩
def F.LEDGER_CONT : FaultClass := ⟨0x0E8F, 0⟩
def F.FAULT_PLAN : FaultClass := ⟨0x0E90, 1⟩
/-! Table 18-6. -/
def F.START_RESET : FaultClass := ⟨0x0EC1, 1⟩
def F.START_BANK_FAIL : FaultClass := ⟨0x0EC2, 2⟩
def F.START_NO_IMAGE : FaultClass := ⟨0x0EC3, 2⟩
def F.START_FW_FAIL : FaultClass := ⟨0x0EC4, 2⟩
def F.START_GATE_OPEN : FaultClass := ⟨0x0EC5, 0⟩
def F.START_SLOW : FaultClass := ⟨0x0EC6, 2⟩
def F.RST_HOST : FaultClass := ⟨0x0EC7, 1⟩
def F.RST_GLITCH : FaultClass := ⟨0x0EC8, 0⟩

/-! The classes of each fault table, and of all of them. -/
def classesOf2_18 : List FaultClass :=
  [F.TIME_STATE, F.TIME_SEEDED, F.TIME_PATH_STEP, F.TIME_SUSPECT, F.TIME_SOURCE_CHANGE, F.TIME_HOLDOVER,
   F.TIME_HOLDOVER_LONG, F.TIME_FAR, F.PTP_RX_INVALID, F.RENNET_LEAD, F.RENNET_RANGE, F.RENNET_FULL, F.TIME_PLAN,
   F.REF_LOSS, F.REF_GLITCH, F.REF_REACQUIRED, F.CHATTER, F.TIO_STUCK, F.TIO_OVERFLOW, F.TIO_RELEASE_IGNORED,
   F.TIO_INACTIVE, F.TIO_ARM_REFUSED]
def classesOf3_19 : List FaultClass :=
  [F.IMG_FORMAT, F.IMG_TARGET, F.IMG_CHAIN, F.IMG_PERM, F.IMG_SIGNATURE, F.IMG_LINEAGE, F.IMG_ROLLBACK, F.IMG_SECTION,
   F.IMG_VENDOR_SIG, F.IMG_REFUSED, F.IMG_ROLE, F.IMG_D0, F.IMG_ORDER, F.IMG_TILE_BUSY, F.IMG_BASE, F.IMG_FW_MULTI,
   F.IMG_BIND, F.IMG_BOOT_ONLY, F.IMG_SLOT_STATE, F.IMG_SLOT_BUSY, F.IMG_STAGE_FULL, F.IMG_PENDING_FULL,
   F.IMG_RIPEN_FAIL, F.IMG_NOT_RIPE, F.IMG_ABANDONED, F.IMG_CANCELLED, F.IMG_CANCEL_LATE, F.IMG_APPLIED,
   F.IMG_STAGE_LOST, F.IMG_ROLL_STEP, F.IMG_ROLL_HALT, F.IMG_ROLL_DONE, F.IMG_FW_SWAP, F.IMG_FW_REVERT,
   F.IMG_FW_CONFIRMED, F.IMG_BOOT_WRITE, F.IMG_BOOT_FAIL, F.IMG_FLOOR, F.IMG_BOOT_BUSY]
def classesOf4_10 : List FaultClass :=
  [F.PORT_UP, F.PORT_DOWN, F.LANE_FAIL, F.LANE_CDR_LOSS, F.LANE_LOW_FOM, F.FEC_DEGRADE, F.LANE_RETRAIN, F.LOOP_REFUSED,
   F.OPT_INSERTED, F.OPT_REMOVED, F.OPT_BUS_STUCK, F.OPT_ALARM, F.PAIR_LINK_DOWN, F.PAIR_LINK_UP, F.PORT_PLAN]
def classesOf5_11 : List FaultClass :=
  [F.ING_RTP_BAD, F.ING_SSRC, F.ING_SEQ_JUMP, F.ING_SRD_BAD, F.ING_FRAME_SHORT, F.ING_RATE, F.INPUT_LOSS,
   F.INPUT_RESTORED, F.CURD_INCOMPLETE, F.SOURCE_STALE, F.SOURCE_LIVE, F.MERGE_PATH_LOSS, F.CHECK_ONLY, F.CHECK_FAIL,
   F.CURD_BAD, F.CLAIM_LOW, F.SURF_CLOSE_TIMEOUT, F.FT_NO_ROOM, F.FT_RING_FULL, F.FT_SWAP, F.ING_PLAN]
def classesOf7_14 : List FaultClass :=
  [F.VERIFY_MISMATCH, F.CURD_LATE, F.LANE_OVERRUN, F.CODER_SUSPECT, F.RATE_FLOOR, F.EGRESS_BUDGET, F.CHANNEL_PLAN,
   F.CHANNEL_START, F.CHANNEL_END, F.SKIP_KEY_APPLIED, F.EG_LATE]
def classesOf8_14 : List FaultClass :=
  [F.CODER_FAULT, F.TAKEOVER, F.FENCE_VOID, F.MIRROR_BAD, F.NO_SPARE, F.SPARE_LOW, F.CLAIM_STORM, F.CLAIM_EXHAUSTED,
   F.CODER_RETEST, F.CLAIM_CHANGE, F.PEER_SILENT, F.STANDBY_READY, F.WITNESS_UNREACHABLE, F.WITNESS_ANSWER, F.PROMOTED,
   F.DEMOTED, F.PAIR_GAP, F.PAIR_AUTH, F.PAIR_RANK_CLASH, F.SWITCH_ABANDONED, F.SPARE_PLAN]
def classesOf9_12 : List FaultClass :=
  [F.LAYER_LATE, F.LAYER_STALE, F.LAYER_EOV, F.LAYER_GEOMETRY, F.LAYER_NO_SIGNAL, F.LAYER_DAMAGED, F.READ_ECC,
   F.UNIT_FAULT, F.LAYER_RESTORED, F.LAYER_PLAN]
def classesOf10_10 : List FaultClass :=
  [F.HEAD_UNDERRUN, F.HEAD_FREEZE, F.HEAD_FREEZE_CLEARED, F.HEAD_FAILED, F.HEAD_MODE_CHANGE, F.HEAD_START, F.HEAD_STOP,
   F.TIMING_PLAN]
def classesOf11_10 : List FaultClass :=
  [F.AUDIO_CLK_LOSS, F.AUDIO_CLK_GLITCH, F.AUDIO_CLK_REACQUIRED, F.AUDIO_CLK_RATE, F.AUDIO_SILENCED, F.AUDIO_SLIP,
   F.MIC_STUCK, F.MIC_LIVE, F.AUDIO_MASK_CHANGE, F.AUDIO_PLAN]
def classesOf12_11 : List FaultClass :=
  [F.MEM_ECC_UNCORR, F.MEM_DUP_REPAIR, F.MEM_SYSTEM_LOST, F.MEM_ACCESS, F.MEM_WRITE_DROP, F.MEM_HOT, F.MEM_PAYBACK,
   F.MEM_TOO_HOT, F.MEM_TRAIN_FAIL, F.MEM_PAIR_RETIRED, F.MEM_AREA_VOID, F.MEM_REMAP_DONE, F.MEM_RING_LOST,
   F.MEM_DUP_SINGLE, F.MEM_DUP_RESTORED, F.MEM_CAPACITY, F.MEM_PLAN]
def classesOf13_8 : List FaultClass :=
  [F.REC_SEALED, F.REC_SIGNED, F.REC_DROP, F.REC_WARN_SEAL, F.REC_RECOVERED, F.REC_HOLD_FULL, F.REC_VERIFY_FAIL,
   F.REC_READ_UNCORR, F.REC_BLOCK_RETIRED, F.REC_SLOT_RETIRED, F.REC_WEAR, F.REC_STORE_FAIL, F.REC_TAP_LIMIT, F.REC_PLAN,
   F.REC_SIGN_LATE]
def classesOf14_14 : List FaultClass :=
  [F.CORE_WATCHDOG, F.CORE_SRAM_UNCORR, F.CORE_CODE_LOST, F.CORE_ACCESS, F.SP_LOCKSTEP, F.SP_RESTART, F.SP_RESTARTS,
   F.IRQ_SATURATED, F.HUB_DENIED, F.IRQ_NO_TARGET, F.CHK_FAIL, F.TIMER_LATE, F.FW_PLAN, F.IRQ_PLAN, F.CHK_PLAN]
def classesOf15_13 : List FaultClass :=
  [F.MDP_SESSION_OPEN, F.MDP_SESSION_END, F.MDP_OPEN_FAIL, F.MDP_AUTH, F.MDP_REPLAY, F.MDP_MALFORMED, F.MDP_NO_SESSION,
   F.MDP_BAD_OP, F.MDP_LENGTH, F.MDP_RIGHTS, F.MDP_ADDRESS, F.MDP_BLOCK, F.NOTIFY_LOSS, F.OWN_ENROLLED, F.OWN_SLOT,
   F.OWN_DISOWNED, F.OWN_ENROL_FAIL, F.OWN_ENROL_LOCK, F.OWN_REFUSED, F.ATTESTED, F.MDP_PLAN]
def classesOf16_10 : List FaultClass :=
  [F.HULL_SAG, F.HULL_SAG_CLEAR, F.HULL_RESET_PRIOR, F.HULL_HOLDUP_SHORT, F.HULL_FEED_LOST, F.HULL_FEED_RESTORED,
   F.HULL_FEED_HIGH, F.HULL_FEED_OFF, F.HULL_RAIL_FAIL, F.HULL_RAIL_FAULT, F.HULL_LINK_LOST, F.HULL_LINK_RESTORED,
   F.HULL_LOG_LOST, F.THERM_WARN, F.THERM_CRIT, F.THERM_TRIP, F.THERM_SENSOR, F.THERM_CLEAR, F.POWER_STATE,
   F.POWER_REFUSED, F.POWER_PLAN]
def classesOf17_14 : List FaultClass :=
  [F.SAFE_ENTERED, F.SAFE_PIN, F.SAFE_HOST, F.SAFE_RELEASED, F.SAFE_RELEASE_IGNORED, F.OUTPUT_RELEASED,
   F.RELEASE_IGNORED, F.LEDGER_OVERFLOW, F.LEDGER_RECOVERED, F.LEDGER_CONT, F.FAULT_PLAN]
def classesOf18_6 : List FaultClass :=
  [F.START_RESET, F.START_BANK_FAIL, F.START_NO_IMAGE, F.START_FW_FAIL, F.START_GATE_OPEN, F.START_SLOW, F.RST_HOST,
   F.RST_GLITCH]
/-- Every class that a chapter defines (Table 17-15). -/
def allClasses : List FaultClass :=
  classesOf2_18 ++ classesOf3_19 ++ classesOf4_10 ++ classesOf5_11 ++ classesOf7_14 ++ classesOf8_14 ++ classesOf9_12 ++
  classesOf10_10 ++ classesOf11_10 ++ classesOf12_11 ++ classesOf13_8 ++ classesOf14_14 ++ classesOf15_13 ++
  classesOf16_10 ++ classesOf17_14 ++ classesOf18_6

end Sys2Proof.Machine
end

