-- ==== Sys2Proof/Machine/Regs.lean ====
section
/-!
DEFINITION. The register blocks of Table 18-4 and the registers of the tables it names: their control addresses (R4, R413),
and for each register what a plain write to it sets (RW bits, R5 and R6), clears (W1C bits), and its reset value.
-/

namespace Sys2Proof.Machine

/-- The 48 register layouts of Table 18-4. -/
inductive Layout where
  | timeL | rennetL | ptpL | refL | tioL | imL | pgL | laneL | portL | optL | ftL | ringL | igL | chL | surfL | coderL | egL | ccL | paL | brineL | pairL | rindL | rdL | scL | headL | auL | memL | mchL | regL | recL | coreL | spL | hubL | srcL | tgtL | rtL | chkL | mdpL | mpL | sessL | ownL | hullL | ledL | safeL | idL | rstL | startL | domL
  deriving DecidableEq, Repr

/-- Base of the block of Table 2-10 (its only block), by Table 18-4. -/
def R.time : Nat := 0x00100000
/-- Base of the block of Table 2-15 (Rennet), by Table 18-4. -/
def R.rennet : Nat := 0x00101000
/-- Base of the block of Table 2-15 (PTP Ii), by Table 18-4. -/
def R.ptp (i : Nat) : Nat := 0x00110000 + 0x1000 * i
/-- Base of the block of Table 2-16 (REF_IN), by Table 18-4. -/
def R.ref : Nat := 0x00604000
/-- Base of the block of Table 2-16 (TIOi), by Table 18-4. -/
def R.tio (i : Nat) : Nat := 0x00608000 + 0x1000 * i
/-- Base of the block of Table 3-12 (its only block), by Table 18-4. -/
def R.im : Nat := 0x00700000
/-- Base of the block of Table 4-6 (Group), by Table 18-4. -/
def R.pg (g : Nat) : Nat := 0x10000000 + 0x100000 * g
/-- Base of a lane block (Table 4-6): lanes 0 to 31 of the port groups, 32 and 33 of M0 and M1 at offset 0x100. -/
def R.lane (l : Nat) : Nat :=
  if l < 32 then 0x10010000 + 0x100000 * (l / 8) + 0x1000 * (l % 8) else 0x00401100 + 0x1000 * (l - 32)
/-- Base of the block of Table 4-6 (Port), by Table 18-4. -/
def R.port (p : Nat) : Nat := 0x10020000 + 0x100000 * (p / 8) + 0x1000 * (p % 8)
/-- Base of the block of Table 4-6 (Optics), by Table 18-4. -/
def R.opt (n : Nat) : Nat := 0x00610000 + 0x1000 * n
/-- Base of the block of Table 5-10 (Table), by Table 18-4. -/
def R.ft : Nat := 0x10800000
/-- Base of the block of Table 5-10 (Ring n), by Table 18-4. -/
def R.ring (n : Nat) : Nat := 0x10840000 + 0x1000 * n
/-- Base of the block of Table 5-10 (Tile), by Table 18-4. -/
def R.ig (g : Nat) : Nat := 0x10400000 + 0x100000 * g
/-- Base of the block of Table 5-10 (Channel Cn), by Table 18-4. -/
def R.ch (g : Nat) (c : Nat) : Nat := 0x10410000 + 0x100000 * g + 0x1000 * c
/-- Base of the block of Table 5-10 (Surface), by Table 18-4. -/
def R.surf (g : Nat) : Nat := 0x10440000 + 0x100000 * g
/-- Base of the block of Table 7-10 (its only block), by Table 18-4. -/
def R.coder (k : Nat) : Nat := 0x20000000 + 0x10000000 * (k / 26) + 0x100000 * (k % 26)
/-- Base of the block of Table 7-12 (Tile), by Table 18-4. -/
def R.eg (e : Nat) : Nat := 0x40000000 + 0x100000 * e
/-- Base of the block of Table 7-12 (Channel Cn), by Table 18-4. -/
def R.cc (e : Nat) (c : Nat) : Nat := 0x40010000 + 0x100000 * e + 0x1000 * c
/-- Base of the block of Table 7-12 (Path Cn), by Table 18-4. -/
def R.pa (e : Nat) (c : Nat) : Nat := 0x40050000 + 0x100000 * e + 0x1000 * c
/-- Base of the block of Table 8-11 (Brine), by Table 18-4. -/
def R.brine : Nat := 0x40800000
/-- Base of the block of Table 8-11 (Pair), by Table 18-4. -/
def R.pair : Nat := 0x40801000
/-- Base of the block of Table 8-11 (Rind Cn), by Table 18-4. -/
def R.rind (c : Nat) : Nat := 0x41000000 + 0x100000 * c
/-- Base of the block of Table 9-9 (Reader), by Table 18-4. -/
def R.rd (n : Nat) : Nat := 0x52000000 + 0x10000000 * (n / 32) + 0x100000 * (n % 32)
/-- Base of the block of Table 9-9 (Scaler), by Table 18-4. -/
def R.sc (n : Nat) : Nat := 0x51000000 + 0x10000000 * (n / 16) + 0x100000 * (n % 16)
/-- Base of the block of Table 10-8 (its only block), by Table 18-4. -/
def R.head (h : Nat) : Nat := 0x50000000 + 0x10000000 * (h / 8) + 0x100000 * (h % 8)
/-- Base of the block of Table 11-8 (its only block), by Table 18-4. -/
def R.au : Nat := 0x70000000
/-- Base of the block of Table 12-7 (Controller), by Table 18-4. -/
def R.mem : Nat := 0x00A00000
/-- Base of the block of Table 12-7 (Channel m), by Table 18-4. -/
def R.mch (m : Nat) : Nat := 0x00A10000 + 0x1000 * m
/-- Base of the block of Table 12-7 (Region), by Table 18-4. -/
def R.reg : Nat := 0x00A20000
/-- Base of the block of Table 13-6 (its only block), by Table 18-4. -/
def R.rec : Nat := 0x70100000
/-- Base of the block of Table 14-11 (Core TCn), by Table 18-4. -/
def R.core (n : Nat) : Nat := 0x00900000 + 0x1000 * n
/-- Base of the block of Table 14-11 (SP), by Table 18-4. -/
def R.sp : Nat := 0x00000000
/-- Base of the block of Table 14-11 (Hub control), by Table 18-4. -/
def R.hub : Nat := 0x00200000
/-- Base of the block of Table 14-11 (Source), by Table 18-4. -/
def R.src : Nat := 0x00201000
/-- Base of the block of Table 14-11 (Target t), by Table 18-4. -/
def R.tgt (t : Nat) : Nat := 0x00210000 + 0x1000 * t
/-- Base of the block of Table 14-11 (Timer RTn), by Table 18-4. -/
def R.rt (n : Nat) : Nat := 0x00220000 + 0x1000 * n
/-- Base of the block of Table 14-13 (its only block), by Table 18-4. -/
def R.chk (n : Nat) : Nat := 0x00300000 + 0x1000 * n
/-- Base of the block of Table 15-12 (MDP), by Table 18-4. -/
def R.mdp : Nat := 0x00400000
/-- Base of the block of Table 15-12 (Port Mn), by Table 18-4. -/
def R.mp (n : Nat) : Nat := 0x00401000 + 0x1000 * n
/-- Base of the block of Table 15-12 (Session), by Table 18-4. -/
def R.sess : Nat := 0x00403000
/-- Base of the block of Table 15-12 (Owner), by Table 18-4. -/
def R.own : Nat := 0x00404000
/-- Base of the block of Table 16-7 (its only block), by Table 18-4. -/
def R.hull : Nat := 0x00500000
/-- Base of the block of Table 17-11 (Ledger), by Table 18-4. -/
def R.led : Nat := 0x00800000
/-- Base of the block of Table 17-11 (SAFE_n), by Table 18-4. -/
def R.safe : Nat := 0x00603000
/-- Base of the block of Table 18-5 (Identity), by Table 18-4. -/
def R.id : Nat := 0x00600000
/-- Base of the block of Table 18-5 (Reset), by Table 18-4. -/
def R.rst : Nat := 0x00601000
/-- Base of the block of Table 18-5 (Start-up), by Table 18-4. -/
def R.start : Nat := 0x00602000
/-- Base of the block of Table 18-5 (Domain d), by Table 18-4. -/
def R.dom (d : Nat) : Nat := 0x00620000 + 0x1000 * d

/-! Registers of Table 2-10, layout time. -/
def R.time_STAMP_LO : Nat := R.time + 0x000
def R.time_STAMP_HI : Nat := R.time + 0x004
def R.time_MODE : Nat := R.time + 0x008
def R.time_SERVO : Nat := R.time + 0x00C
def R.time_OFFSET_NS : Nat := R.time + 0x010
def R.time_FREQ_ADJ : Nat := R.time + 0x014
def R.time_MPD_NS : Nat := R.time + 0x018
def R.time_HOLD_S : Nat := R.time + 0x01C
def R.time_CTRL : Nat := R.time + 0x020
def R.time_EVENTS : Nat := R.time + 0x024
def R.time_EVENT_EN : Nat := R.time + 0x028

/-! Registers of Table 2-15, layout rennet. -/
def R.rennet_PENDING : Nat := R.rennet + 0x000
def R.rennet_NEXT_LO : Nat := R.rennet + 0x004
def R.rennet_NEXT_HI : Nat := R.rennet + 0x008
def R.rennet_MIN_LEAD : Nat := R.rennet + 0x00C
def R.rennet_REFUSED : Nat := R.rennet + 0x010

/-! Registers of Table 2-15, layout ptp. -/
def R.ptp_CFG (i : Nat) : Nat := R.ptp i + 0x000
def R.ptp_STATUS (i : Nat) : Nat := R.ptp i + 0x004
def R.ptp_OFFSET_NS (i : Nat) : Nat := R.ptp i + 0x008
def R.ptp_MPD_NS (i : Nat) : Nat := R.ptp i + 0x00C
def R.ptp_ASYM_NS (i : Nat) : Nat := R.ptp i + 0x010
def R.ptp_GM_LO (i : Nat) : Nat := R.ptp i + 0x014
def R.ptp_GM_HI (i : Nat) : Nat := R.ptp i + 0x018
def R.ptp_RX_SYNC (i : Nat) : Nat := R.ptp i + 0x01C
def R.ptp_RX_INVALID (i : Nat) : Nat := R.ptp i + 0x020
def R.ptp_OUTLIERS (i : Nat) : Nat := R.ptp i + 0x024

/-! Registers of Table 2-16, layout ref. -/
def R.ref_REF_STATUS : Nat := R.ref + 0x000
def R.ref_REF_ERR : Nat := R.ref + 0x004
def R.ref_REF_LOSSES : Nat := R.ref + 0x008
def R.ref_REF_GLITCHES : Nat := R.ref + 0x00C

/-! Registers of Table 2-16, layout tio. -/
def R.tio_TIO_CFG (i : Nat) : Nat := R.tio i + 0x000
def R.tio_TIO_STATUS (i : Nat) : Nat := R.tio i + 0x004
def R.tio_TIO_CTRL (i : Nat) : Nat := R.tio i + 0x008
def R.tio_CAP_LO (i : Nat) : Nat := R.tio i + 0x00C
def R.tio_CAP_HI (i : Nat) : Nat := R.tio i + 0x010
def R.tio_CAP_INFO (i : Nat) : Nat := R.tio i + 0x014
def R.tio_ARM_LO (i : Nat) : Nat := R.tio i + 0x018
def R.tio_ARM_HI (i : Nat) : Nat := R.tio i + 0x01C
def R.tio_PERIOD_TICKS (i : Nat) : Nat := R.tio i + 0x020
def R.tio_REJECTED (i : Nat) : Nat := R.tio i + 0x024
def R.tio_DROPPED (i : Nat) : Nat := R.tio i + 0x028

/-! Registers of Table 3-12, layout im. -/
def R.im_CONFIG_ID_LO : Nat := R.im + 0x000
def R.im_CONFIG_ID_HI : Nat := R.im + 0x004
def R.im_LINEAGE : Nat := R.im + 0x008
def R.im_FLOOR : Nat := R.im + 0x00C
def R.im_RUN_ROLLBACK : Nat := R.im + 0x010
def R.im_FLOOR_RAISE : Nat := R.im + 0x014
def R.im_STATE : Nat := R.im + 0x018
def R.im_SLOT0 : Nat := R.im + 0x020
def R.im_SLOT1 : Nat := R.im + 0x024
def R.im_SLOT_CTRL : Nat := R.im + 0x028
def R.im_CMT_SLOT : Nat := R.im + 0x030
def R.im_CMT_GROUPS : Nat := R.im + 0x034
def R.im_CMT_STAMP_LO : Nat := R.im + 0x038
def R.im_CMT_STAMP_HI : Nat := R.im + 0x03C
def R.im_CMT_ROLL_GAP : Nat := R.im + 0x040
def R.im_CMT_ISSUE : Nat := R.im + 0x044
def R.im_CMT_TICKET : Nat := R.im + 0x048
def R.im_CMT_RESULT : Nat := R.im + 0x04C
def R.im_CANCEL : Nat := R.im + 0x050
def R.im_QUERY : Nat := R.im + 0x054
def R.im_QUERY_STATE : Nat := R.im + 0x058
def R.im_ROLL : Nat := R.im + 0x060
def R.im_FW : Nat := R.im + 0x064
def R.im_FW_CTRL : Nat := R.im + 0x068
def R.im_BOOT : Nat := R.im + 0x070
def R.im_BOOT_CTRL : Nat := R.im + 0x074
def R.im_EVENTS : Nat := R.im + 0x078
def R.im_EVENT_EN : Nat := R.im + 0x07C
def R.im_APPLIED : Nat := R.im + 0x080
def R.im_REFUSED : Nat := R.im + 0x084
def R.im_ABANDONED : Nat := R.im + 0x088

/-! Registers of Table 4-6, layout pg. -/
def R.pg_GROUP_CFG (g : Nat) : Nat := R.pg g + 0x000
def R.pg_GROUP_STATUS (g : Nat) : Nat := R.pg g + 0x004
def R.pg_EVENTS (g : Nat) : Nat := R.pg g + 0x008
def R.pg_EVENT_EN (g : Nat) : Nat := R.pg g + 0x00C

/-! Registers of Table 4-6, layout lane. -/
def R.lane_LANE_STATUS (l : Nat) : Nat := R.lane l + 0x000
def R.lane_FOM (l : Nat) : Nat := R.lane l + 0x004
def R.lane_TAPS (l : Nat) : Nat := R.lane l + 0x008
def R.lane_LANE_CTRL (l : Nat) : Nat := R.lane l + 0x00C
def R.lane_PRBS_ERR (l : Nat) : Nat := R.lane l + 0x010
def R.lane_SYM_CORR (l : Nat) : Nat := R.lane l + 0x014
def R.lane_BRINGUPS (l : Nat) : Nat := R.lane l + 0x018
def R.lane_FAILS (l : Nat) : Nat := R.lane l + 0x01C
def R.lane_CDR_LOSSES (l : Nat) : Nat := R.lane l + 0x020

/-! Registers of Table 4-6, layout port. -/
def R.port_PORT_STATUS (p : Nat) : Nat := R.port p + 0x000
def R.port_PORT_CTRL (p : Nat) : Nat := R.port p + 0x004
def R.port_RX_FRAMES (p : Nat) : Nat := R.port p + 0x008
def R.port_RX_FCS_ERR (p : Nat) : Nat := R.port p + 0x00C
def R.port_RX_DROP (p : Nat) : Nat := R.port p + 0x010
def R.port_TX_FRAMES (p : Nat) : Nat := R.port p + 0x014
def R.port_FEC_CORR (p : Nat) : Nat := R.port p + 0x018
def R.port_FEC_UNCORR (p : Nat) : Nat := R.port p + 0x01C
def R.port_LINK_DOWNS (p : Nat) : Nat := R.port p + 0x020

/-! Registers of Table 4-6, layout opt. -/
def R.opt_OPT_STATUS (n : Nat) : Nat := R.opt n + 0x000
def R.opt_OPT_CTRL (n : Nat) : Nat := R.opt n + 0x004
def R.opt_OPT_CMD (n : Nat) : Nat := R.opt n + 0x008
def R.opt_OPT_RESULT (n : Nat) : Nat := R.opt n + 0x00C
def R.opt_OPT_TEMP (n : Nat) : Nat := R.opt n + 0x010
def R.opt_OPT_RXPWR (n : Nat) : Nat := R.opt n + 0x014
def R.opt_OPT_ERRORS (n : Nat) : Nat := R.opt n + 0x018

/-! Registers of Table 5-10, layout ft. -/
def R.ft_FT_STATUS : Nat := R.ft + 0x000
def R.ft_FT_CTRL : Nat := R.ft + 0x004
def R.ft_FT_INDEX : Nat := R.ft + 0x008
def R.ft_FT_CMD : Nat := R.ft + 0x00C
def R.ft_FT_RESULT : Nat := R.ft + 0x010
def R.ft_FT_PKTS : Nat := R.ft + 0x014
def R.ft_FT_DROPS : Nat := R.ft + 0x018
def R.ft_FT_UNKNOWN : Nat := R.ft + 0x01C
def R.ft_EVENTS : Nat := R.ft + 0x020
def R.ft_EVENT_EN : Nat := R.ft + 0x024
def R.ft_FT_DATA (j : Nat) : Nat := R.ft + 0x040 + 4 * j

/-! Registers of Table 5-10, layout ring. -/
def R.ring_RING_BASE_LO (n : Nat) : Nat := R.ring n + 0x000
def R.ring_RING_BASE_HI (n : Nat) : Nat := R.ring n + 0x004
def R.ring_RING_SIZE (n : Nat) : Nat := R.ring n + 0x008
def R.ring_RING_HEAD (n : Nat) : Nat := R.ring n + 0x00C
def R.ring_RING_TAIL (n : Nat) : Nat := R.ring n + 0x010
def R.ring_RING_DROPS (n : Nat) : Nat := R.ring n + 0x014

/-! Registers of Table 5-10, layout ig. -/
def R.ig_IG_STATUS (g : Nat) : Nat := R.ig g + 0x000
def R.ig_RX_PKTS (g : Nat) : Nat := R.ig g + 0x004
def R.ig_MERGE_DUP (g : Nat) : Nat := R.ig g + 0x008
def R.ig_MERGE_LATE (g : Nat) : Nat := R.ig g + 0x00C
def R.ig_MERGE_LOST (g : Nat) : Nat := R.ig g + 0x010
def R.ig_CHECK_FAIL (g : Nat) : Nat := R.ig g + 0x014
def R.ig_CHECK_ONLY (g : Nat) : Nat := R.ig g + 0x018
def R.ig_VIOLATIONS (g : Nat) : Nat := R.ig g + 0x01C
def R.ig_EVENTS (g : Nat) : Nat := R.ig g + 0x020
def R.ig_EVENT_EN (g : Nat) : Nat := R.ig g + 0x024

/-! Registers of Table 5-10, layout ch. -/
def R.ch_CH_STATUS (g : Nat) (c : Nat) : Nat := R.ch g c + 0x000
def R.ch_CH_FRAMES (g : Nat) (c : Nat) : Nat := R.ch g c + 0x004
def R.ch_CH_VOID_CURDS (g : Nat) (c : Nat) : Nat := R.ch g c + 0x008
def R.ch_CH_RATE_DROPS (g : Nat) (c : Nat) : Nat := R.ch g c + 0x00C
def R.ch_CH_TILE_AGE (g : Nat) (c : Nat) : Nat := R.ch g c + 0x010

/-! Registers of Table 5-10, layout surf. -/
def R.surf_SURF_SEL (g : Nat) : Nat := R.surf g + 0x000
def R.surf_SURF_STATE (g : Nat) : Nat := R.surf g + 0x004
def R.surf_SURF_READY (g : Nat) : Nat := R.surf g + 0x008
def R.surf_SURF_VOIDS (g : Nat) : Nat := R.surf g + 0x00C
def R.surf_SURF_LATE (g : Nat) : Nat := R.surf g + 0x010

/-! Registers of Table 7-10, layout coder. -/
def R.coder_CODER_STATUS (k : Nat) : Nat := R.coder k + 0x000
def R.coder_FIFO_PEAK (k : Nat) : Nat := R.coder k + 0x004
def R.coder_UNITS (k : Nat) : Nat := R.coder k + 0x008
def R.coder_CURDS (k : Nat) : Nat := R.coder k + 0x00C
def R.coder_MISMATCH (k : Nat) : Nat := R.coder k + 0x010
def R.coder_SELFTEST (k : Nat) : Nat := R.coder k + 0x014
def R.coder_EVENTS (k : Nat) : Nat := R.coder k + 0x018
def R.coder_EVENT_EN (k : Nat) : Nat := R.coder k + 0x01C

/-! Registers of Table 7-12, layout eg. -/
def R.eg_EG_STATUS (e : Nat) : Nat := R.eg e + 0x000
def R.eg_TX_PKTS (e : Nat) : Nat := R.eg e + 0x004
def R.eg_TX_LATE (e : Nat) : Nat := R.eg e + 0x008
def R.eg_EVENTS (e : Nat) : Nat := R.eg e + 0x00C
def R.eg_EVENT_EN (e : Nat) : Nat := R.eg e + 0x010
def R.eg_QBOUND_P (e : Nat) (j : Nat) : Nat := R.eg e + 0x020 + 4 * j
def R.eg_QPEAK_P (e : Nat) (j : Nat) : Nat := R.eg e + 0x040 + 4 * j

/-! Registers of Table 7-12, layout cc. -/
def R.cc_CC_STATUS (e : Nat) (c : Nat) : Nat := R.cc e c + 0x000
def R.cc_CC_FRAMES (e : Nat) (c : Nat) : Nat := R.cc e c + 0x004
def R.cc_CC_CURDS (e : Nat) (c : Nat) : Nat := R.cc e c + 0x008
def R.cc_CC_SKIPPED (e : Nat) (c : Nat) : Nat := R.cc e c + 0x00C
def R.cc_CC_VOIDS (e : Nat) (c : Nat) : Nat := R.cc e c + 0x010
def R.cc_CC_FLOOR (e : Nat) (c : Nat) : Nat := R.cc e c + 0x014
def R.cc_CC_ZONE (e : Nat) (c : Nat) : Nat := R.cc e c + 0x018
def R.cc_CC_MISMATCH (e : Nat) (c : Nat) : Nat := R.cc e c + 0x01C
def R.cc_CC_LATE (e : Nat) (c : Nat) : Nat := R.cc e c + 0x020
def R.cc_CC_OVERRUN (e : Nat) (c : Nat) : Nat := R.cc e c + 0x024
def R.cc_CC_BYTES_LO (e : Nat) (c : Nat) : Nat := R.cc e c + 0x028
def R.cc_CC_BYTES_HI (e : Nat) (c : Nat) : Nat := R.cc e c + 0x02C
def R.cc_CC_BANK (e : Nat) (c : Nat) : Nat := R.cc e c + 0x030
def R.cc_CC_FLOOR_KBPS (e : Nat) (c : Nat) : Nat := R.cc e c + 0x034
def R.cc_CC_LAT_MAX (e : Nat) (c : Nat) : Nat := R.cc e c + 0x038
def R.cc_CC_QSEL (e : Nat) (c : Nat) : Nat := R.cc e c + 0x03C
def R.cc_CC_QCOUNT (e : Nat) (c : Nat) : Nat := R.cc e c + 0x040
def R.cc_CC_EVENTS (e : Nat) (c : Nat) : Nat := R.cc e c + 0x044
def R.cc_CC_EVENT_EN (e : Nat) (c : Nat) : Nat := R.cc e c + 0x048

/-! Registers of Table 7-12, layout pa. -/
def R.pa_PA_STATUS (e : Nat) (c : Nat) : Nat := R.pa e c + 0x000
def R.pa_PA_PKTS (e : Nat) (c : Nat) : Nat := R.pa e c + 0x004
def R.pa_PA_GAPS (e : Nat) (c : Nat) : Nat := R.pa e c + 0x008
def R.pa_PA_NOT_SENT (e : Nat) (c : Nat) : Nat := R.pa e c + 0x00C

/-! Registers of Table 8-11, layout brine. -/
def R.brine_BRINE_STATUS : Nat := R.brine + 0x000
def R.brine_SPARES_LO : Nat := R.brine + 0x004
def R.brine_SPARES_HI : Nat := R.brine + 0x008
def R.brine_FAILED_LO : Nat := R.brine + 0x00C
def R.brine_FAILED_HI : Nat := R.brine + 0x010
def R.brine_CODER_CTRL : Nat := R.brine + 0x014
def R.brine_ECC_CORR : Nat := R.brine + 0x018
def R.brine_ECC_UNCORR : Nat := R.brine + 0x01C
def R.brine_TAKEOVERS : Nat := R.brine + 0x020
def R.brine_EVENTS : Nat := R.brine + 0x024
def R.brine_EVENT_EN : Nat := R.brine + 0x028

/-! Registers of Table 8-11, layout pair. -/
def R.pair_PAIR_STATUS : Nat := R.pair + 0x000
def R.pair_TERM : Nat := R.pair + 0x004
def R.pair_PEER_AGE_US : Nat := R.pair + 0x008
def R.pair_PAIR_CTRL : Nat := R.pair + 0x00C
def R.pair_HB_RX : Nat := R.pair + 0x010
def R.pair_REC_RX : Nat := R.pair + 0x014
def R.pair_AUTH_FAIL : Nat := R.pair + 0x018
def R.pair_ASKS : Nat := R.pair + 0x01C
def R.pair_WIT_TIMEOUTS : Nat := R.pair + 0x020
def R.pair_SWITCH_REFUSED : Nat := R.pair + 0x024
def R.pair_EVENTS : Nat := R.pair + 0x028
def R.pair_EVENT_EN : Nat := R.pair + 0x02C

/-! Registers of Table 8-11, layout rind. -/
def R.rind_RIND_STATUS (c : Nat) : Nat := R.rind c + 0x000
def R.rind_TAKE_LINE (c : Nat) : Nat := R.rind c + 0x004
def R.rind_TAKE_FRAME (c : Nat) : Nat := R.rind c + 0x008
def R.rind_ADMITTED (c : Nat) : Nat := R.rind c + 0x00C
def R.rind_FENCE_VOIDS (c : Nat) : Nat := R.rind c + 0x010
def R.rind_TAKEOVERS (c : Nat) : Nat := R.rind c + 0x014
def R.rind_MIRROR_BADS (c : Nat) : Nat := R.rind c + 0x018
def R.rind_MOVE (c : Nat) : Nat := R.rind c + 0x01C
def R.rind_MOVE_REFUSED (c : Nat) : Nat := R.rind c + 0x020
def R.rind_EVENTS (c : Nat) : Nat := R.rind c + 0x024
def R.rind_EVENT_EN (c : Nat) : Nat := R.rind c + 0x028

/-! Registers of Table 9-9, layout rd. -/
def R.rd_RD_STATUS (n : Nat) : Nat := R.rd n + 0x000
def R.rd_RD_SNAP (n : Nat) : Nat := R.rd n + 0x004
def R.rd_RD_AGE (n : Nat) : Nat := R.rd n + 0x008
def R.rd_RD_CURDS (n : Nat) : Nat := R.rd n + 0x00C
def R.rd_RD_VOID_AREAS (n : Nat) : Nat := R.rd n + 0x010
def R.rd_RD_LATE (n : Nat) : Nat := R.rd n + 0x014
def R.rd_RD_DAMAGED (n : Nat) : Nat := R.rd n + 0x018
def R.rd_RD_ECC_CORR (n : Nat) : Nat := R.rd n + 0x01C
def R.rd_RD_ECC_UNCORR (n : Nat) : Nat := R.rd n + 0x020
def R.rd_RD_CTRL (n : Nat) : Nat := R.rd n + 0x024
def R.rd_EVENTS (n : Nat) : Nat := R.rd n + 0x028
def R.rd_EVENT_EN (n : Nat) : Nat := R.rd n + 0x02C

/-! Registers of Table 9-9, layout sc. -/
def R.sc_SC_STATUS (n : Nat) : Nat := R.sc n + 0x000
def R.sc_SC_STEP_H (n : Nat) : Nat := R.sc n + 0x004
def R.sc_SC_STEP_V (n : Nat) : Nat := R.sc n + 0x008
def R.sc_SC_PIXELS (n : Nat) : Nat := R.sc n + 0x00C
def R.sc_SC_VOID_PIX (n : Nat) : Nat := R.sc n + 0x010
def R.sc_SC_CLAMPS (n : Nat) : Nat := R.sc n + 0x014
def R.sc_SC_CTRL (n : Nat) : Nat := R.sc n + 0x018
def R.sc_EVENTS (n : Nat) : Nat := R.sc n + 0x01C
def R.sc_EVENT_EN (n : Nat) : Nat := R.sc n + 0x020

/-! Registers of Table 10-8, layout head. -/
def R.head_HEAD_STATUS (h : Nat) : Nat := R.head h + 0x000
def R.head_HEAD_FRAME (h : Nat) : Nat := R.head h + 0x004
def R.head_HEAD_LINE (h : Nat) : Nat := R.head h + 0x008
def R.head_LATCH_TARGET (h : Nat) : Nat := R.head h + 0x00C
def R.head_LM0 (h : Nat) : Nat := R.head h + 0x010
def R.head_LM1 (h : Nat) : Nat := R.head h + 0x014
def R.head_BUF_LOW (h : Nat) : Nat := R.head h + 0x018
def R.head_FRAMES_SENT (h : Nat) : Nat := R.head h + 0x01C
def R.head_VOID_FRAMES (h : Nat) : Nat := R.head h + 0x020
def R.head_EOV_FRAMES (h : Nat) : Nat := R.head h + 0x024
def R.head_UNDERRUNS (h : Nat) : Nat := R.head h + 0x028
def R.head_PANICS (h : Nat) : Nat := R.head h + 0x02C
def R.head_FREEZES (h : Nat) : Nat := R.head h + 0x030
def R.head_SIG_LO (h : Nat) : Nat := R.head h + 0x034
def R.head_SIG_HI (h : Nat) : Nat := R.head h + 0x038
def R.head_HEAD_CTRL (h : Nat) : Nat := R.head h + 0x03C
def R.head_EVENTS (h : Nat) : Nat := R.head h + 0x040
def R.head_EVENT_EN (h : Nat) : Nat := R.head h + 0x044
def R.head_PKTS_A (h : Nat) : Nat := R.head h + 0x048
def R.head_PKTS_B (h : Nat) : Nat := R.head h + 0x04C

/-! Registers of Table 11-8, layout au. -/
def R.au_AU_STATUS : Nat := R.au + 0x000
def R.au_CK0_RATE : Nat := R.au + 0x004
def R.au_CK1_RATE : Nat := R.au + 0x008
def R.au_CK0_LOSSES : Nat := R.au + 0x00C
def R.au_CK1_LOSSES : Nat := R.au + 0x010
def R.au_CK0_GLITCHES : Nat := R.au + 0x014
def R.au_CK1_GLITCHES : Nat := R.au + 0x018
def R.au_CK0_SLIPS : Nat := R.au + 0x01C
def R.au_CK1_SLIPS : Nat := R.au + 0x020
def R.au_CH_STUCK : Nat := R.au + 0x024
def R.au_EVENTS : Nat := R.au + 0x028
def R.au_EVENT_EN : Nat := R.au + 0x02C
def R.au_GRP_STATUS (j : Nat) : Nat := R.au + 0x040 + 32 * j
def R.au_GRP_HELD (j : Nat) : Nat := R.au + 0x044 + 32 * j
def R.au_GRP_INVALID (j : Nat) : Nat := R.au + 0x048 + 32 * j
def R.au_GRP_FRAME (j : Nat) : Nat := R.au + 0x04C + 32 * j
def R.au_GRP_PKTS (j : Nat) : Nat := R.au + 0x050 + 32 * j
def R.au_GRP_HOLD_FRAMES (j : Nat) : Nat := R.au + 0x054 + 32 * j
def R.au_GRP_SILENT_FRAMES (j : Nat) : Nat := R.au + 0x058 + 32 * j
def R.au_PEAK_A (j : Nat) : Nat := R.au + 0x080 + 4 * j

/-! Registers of Table 12-7, layout mem. -/
def R.mem_MEM_STATUS : Nat := R.mem + 0x000
def R.mem_CAPACITY_MIB : Nat := R.mem + 0x004
def R.mem_PLANNED_MIB : Nat := R.mem + 0x008
def R.mem_FREE_MIB : Nat := R.mem + 0x00C
def R.mem_MEM_CTRL : Nat := R.mem + 0x010
def R.mem_ECC_CORR : Nat := R.mem + 0x014
def R.mem_ECC_UNCORR : Nat := R.mem + 0x018
def R.mem_DUP_REPAIRS : Nat := R.mem + 0x01C
def R.mem_SCRUB_PASSES : Nat := R.mem + 0x020
def R.mem_WRITE_DROPS : Nat := R.mem + 0x024
def R.mem_EVENTS : Nat := R.mem + 0x028
def R.mem_EVENT_EN : Nat := R.mem + 0x02C

/-! Registers of Table 12-7, layout mch. -/
def R.mch_CH_STATUS (m : Nat) : Nat := R.mch m + 0x000
def R.mch_CH_CORR (m : Nat) : Nat := R.mch m + 0x004
def R.mch_CH_UNCORR (m : Nat) : Nat := R.mch m + 0x008
def R.mch_CH_PAYBACKS (m : Nat) : Nat := R.mch m + 0x00C
def R.mch_CH_STALL_MAX (m : Nat) : Nat := R.mch m + 0x010
def R.mch_CH_STARVED (m : Nat) : Nat := R.mch m + 0x014
def R.mch_CH_PANIC_US (m : Nat) : Nat := R.mch m + 0x018
def R.mch_CH_TRAINS (m : Nat) : Nat := R.mch m + 0x01C
def R.mch_CH_TRAIN_FAILS (m : Nat) : Nat := R.mch m + 0x020
def R.mch_CH_MARGIN (m : Nat) : Nat := R.mch m + 0x024
def R.mch_CH_QPEAK (m : Nat) : Nat := R.mch m + 0x028

/-! Registers of Table 12-7, layout reg. -/
def R.reg_REG_SEL : Nat := R.reg + 0x000
def R.reg_REG_INFO : Nat := R.reg + 0x004
def R.reg_REG_SIZE_MIB : Nat := R.reg + 0x008
def R.reg_REG_LOST_MIB : Nat := R.reg + 0x00C

/-! Registers of Table 13-6, layout rec. -/
def R.rec_REC_STATUS : Nat := R.rec + 0x000
def R.rec_OPEN_WHEEL_LO : Nat := R.rec + 0x004
def R.rec_OPEN_WHEEL_HI : Nat := R.rec + 0x008
def R.rec_OLDEST_WHEEL_LO : Nat := R.rec + 0x00C
def R.rec_OLDEST_WHEEL_HI : Nat := R.rec + 0x010
def R.rec_SLOTS : Nat := R.rec + 0x014
def R.rec_RATE_PLAN : Nat := R.rec + 0x018
def R.rec_RATE_NOW : Nat := R.rec + 0x01C
def R.rec_BACKLOG : Nat := R.rec + 0x020
def R.rec_REC_CTRL : Nat := R.rec + 0x024
def R.rec_VERIFY_WHEEL_LO : Nat := R.rec + 0x028
def R.rec_VERIFY_WHEEL_HI : Nat := R.rec + 0x02C
def R.rec_VERIFY_RESULT : Nat := R.rec + 0x030
def R.rec_EXPORT_WHEEL_LO : Nat := R.rec + 0x034
def R.rec_EXPORT_WHEEL_HI : Nat := R.rec + 0x038
def R.rec_EXPORT_STATUS : Nat := R.rec + 0x03C
def R.rec_TAP_DROPS : Nat := R.rec + 0x040
def R.rec_PROXY_DROPS : Nat := R.rec + 0x044
def R.rec_AUDIO_DROPS : Nat := R.rec + 0x048
def R.rec_WRITTEN_LO : Nat := R.rec + 0x04C
def R.rec_WRITTEN_HI : Nat := R.rec + 0x050
def R.rec_WEAR_MAX : Nat := R.rec + 0x054
def R.rec_SPARE_BLOCKS : Nat := R.rec + 0x058
def R.rec_SEALS : Nat := R.rec + 0x05C
def R.rec_ABANDONED : Nat := R.rec + 0x060
def R.rec_EVENTS : Nat := R.rec + 0x064
def R.rec_EVENT_EN : Nat := R.rec + 0x068
def R.rec_TAP_SEL : Nat := R.rec + 0x070
def R.rec_TAP_PKTS : Nat := R.rec + 0x074
def R.rec_TAP_LIMITED : Nat := R.rec + 0x078

/-! Registers of Table 14-11, layout core. -/
def R.core_CORE_STATUS (n : Nat) : Nat := R.core n + 0x000
def R.core_CORE_CTRL (n : Nat) : Nat := R.core n + 0x004
def R.core_CORE_ALIVE (n : Nat) : Nat := R.core n + 0x008
def R.core_WDT_KICK (n : Nat) : Nat := R.core n + 0x00C
def R.core_WDT_RESTARTS (n : Nat) : Nat := R.core n + 0x010
def R.core_SRAM_CORR (n : Nat) : Nat := R.core n + 0x014
def R.core_SRAM_UNCORR (n : Nat) : Nat := R.core n + 0x018
def R.core_EVENTS (n : Nat) : Nat := R.core n + 0x01C
def R.core_EVENT_EN (n : Nat) : Nat := R.core n + 0x020

/-! Registers of Table 14-11, layout sp. -/
def R.sp_SP_STATUS : Nat := R.sp + 0x000
def R.sp_SP_ALIVE : Nat := R.sp + 0x004
def R.sp_SP_KICK : Nat := R.sp + 0x008
def R.sp_SP_RESTARTS : Nat := R.sp + 0x00C
def R.sp_LOCKSTEP_ERRS : Nat := R.sp + 0x010
def R.sp_EVENTS : Nat := R.sp + 0x014
def R.sp_EVENT_EN : Nat := R.sp + 0x018

/-! Registers of Table 14-11, layout hub. -/
def R.hub_SWI_SET : Nat := R.hub + 0x000
def R.hub_DENIED : Nat := R.hub + 0x004
def R.hub_BAD_COMPLETE : Nat := R.hub + 0x008
def R.hub_SATURATED : Nat := R.hub + 0x00C

/-! Registers of Table 14-11, layout src. -/
def R.src_SRC_CFG (j : Nat) : Nat := R.src + 0x000 + 4 * j
def R.src_SRC_CNT (j : Nat) : Nat := R.src + 0x800 + 4 * j

/-! Registers of Table 14-11, layout tgt. -/
def R.tgt_THRESHOLD (t : Nat) : Nat := R.tgt t + 0x000
def R.tgt_CLAIM (t : Nat) : Nat := R.tgt t + 0x004
def R.tgt_COMPLETE (t : Nat) : Nat := R.tgt t + 0x008
def R.tgt_TOP (t : Nat) : Nat := R.tgt t + 0x00C
def R.tgt_TGT_STATE (t : Nat) : Nat := R.tgt t + 0x010

/-! Registers of Table 14-11, layout rt. -/
def R.rt_RT_CMP_LO (n : Nat) : Nat := R.rt n + 0x000
def R.rt_RT_CMP_HI (n : Nat) : Nat := R.rt n + 0x004
def R.rt_RT_PERIOD (n : Nat) : Nat := R.rt n + 0x008
def R.rt_RT_CTRL (n : Nat) : Nat := R.rt n + 0x00C
def R.rt_RT_STATUS (n : Nat) : Nat := R.rt n + 0x010
def R.rt_RT_FIRED (n : Nat) : Nat := R.rt n + 0x014

/-! Registers of Table 14-13, layout chk. -/
def R.chk_CHK_CFG (n : Nat) : Nat := R.chk n + 0x000
def R.chk_CHK_CTRL (n : Nat) : Nat := R.chk n + 0x004
def R.chk_CHK_DATA8 (n : Nat) : Nat := R.chk n + 0x008
def R.chk_CHK_DATA16 (n : Nat) : Nat := R.chk n + 0x00C
def R.chk_CHK_DATA32 (n : Nat) : Nat := R.chk n + 0x010
def R.chk_CHK_RESULT (n : Nat) : Nat := R.chk n + 0x014
def R.chk_CHK_STATUS (n : Nat) : Nat := R.chk n + 0x018
def R.chk_CHK_ALIVE (n : Nat) : Nat := R.chk n + 0x01C
def R.chk_CHK_MSGS (n : Nat) : Nat := R.chk n + 0x020
def R.chk_CHK_FAILS (n : Nat) : Nat := R.chk n + 0x024
def R.chk_CHK_ERRORS (n : Nat) : Nat := R.chk n + 0x028

/-! Registers of Table 15-12, layout mdp. -/
def R.mdp_MDP_STATUS : Nat := R.mdp + 0x000
def R.mdp_KEY_ID_LO : Nat := R.mdp + 0x004
def R.mdp_KEY_ID_HI : Nat := R.mdp + 0x008
def R.mdp_SERIAL : Nat := R.mdp + 0x00C
def R.mdp_OPENS : Nat := R.mdp + 0x010
def R.mdp_OPEN_FAILS : Nat := R.mdp + 0x014
def R.mdp_AUTH_FAIL : Nat := R.mdp + 0x018
def R.mdp_REPLAYS : Nat := R.mdp + 0x01C
def R.mdp_VIOLATIONS : Nat := R.mdp + 0x020
def R.mdp_RETX : Nat := R.mdp + 0x024
def R.mdp_NOTIFY_LOST : Nat := R.mdp + 0x028
def R.mdp_EVENTS : Nat := R.mdp + 0x02C
def R.mdp_EVENT_EN : Nat := R.mdp + 0x030

/-! Registers of Table 15-12, layout mp. -/
def R.mp_MP_STATUS (n : Nat) : Nat := R.mp n + 0x000
def R.mp_MP_CTRL (n : Nat) : Nat := R.mp n + 0x004
def R.mp_RX_FRAMES (n : Nat) : Nat := R.mp n + 0x008
def R.mp_RX_FCS_ERR (n : Nat) : Nat := R.mp n + 0x00C
def R.mp_RX_DROP (n : Nat) : Nat := R.mp n + 0x010
def R.mp_TX_FRAMES (n : Nat) : Nat := R.mp n + 0x014
def R.mp_LINK_DOWNS (n : Nat) : Nat := R.mp n + 0x018
def R.mp_MDP_RX (n : Nat) : Nat := R.mp n + 0x01C
def R.mp_MDP_TX (n : Nat) : Nat := R.mp n + 0x020
def R.mp_FACTORY_MAC_LO (n : Nat) : Nat := R.mp n + 0x024
def R.mp_FACTORY_MAC_HI (n : Nat) : Nat := R.mp n + 0x028

/-! Registers of Table 15-12, layout sess. -/
def R.sess_SESS_SEL : Nat := R.sess + 0x000
def R.sess_SESS_INFO : Nat := R.sess + 0x004
def R.sess_SESS_ID : Nat := R.sess + 0x008
def R.sess_SESS_SEQ : Nat := R.sess + 0x00C
def R.sess_SESS_AGE_MS : Nat := R.sess + 0x010
def R.sess_SESS_STAGED : Nat := R.sess + 0x014
def R.sess_SESS_CTRL : Nat := R.sess + 0x018

/-! Registers of Table 15-12, layout own. -/
def R.own_SLOT_INFO (j : Nat) : Nat := R.own + 0x000 + 16 * j
def R.own_SLOT_ID_LO (j : Nat) : Nat := R.own + 0x004 + 16 * j
def R.own_SLOT_ID_HI (j : Nat) : Nat := R.own + 0x008 + 16 * j

/-! Registers of Table 16-7, layout hull. -/
def R.hull_HULL_STATUS : Nat := R.hull + 0x000
def R.hull_VBUS_MV : Nat := R.hull + 0x004
def R.hull_FEED_A_MV : Nat := R.hull + 0x008
def R.hull_FEED_B_MV : Nat := R.hull + 0x00C
def R.hull_FEED_A_MA : Nat := R.hull + 0x010
def R.hull_FEED_B_MA : Nat := R.hull + 0x014
def R.hull_POWER_MW : Nat := R.hull + 0x018
def R.hull_ENERGY_LO : Nat := R.hull + 0x01C
def R.hull_ENERGY_HI : Nat := R.hull + 0x020
def R.hull_TJ_MAX : Nat := R.hull + 0x024
def R.hull_TEMP_D (j : Nat) : Nat := R.hull + 0x028 + 4 * j
def R.hull_TEMP_HULL : Nat := R.hull + 0x048
def R.hull_TEMP_NAND : Nat := R.hull + 0x04C
def R.hull_POWER_STATE : Nat := R.hull + 0x050
def R.hull_POWER_CTRL : Nat := R.hull + 0x054
def R.hull_GATE_SEL : Nat := R.hull + 0x058
def R.hull_GATE_INFO : Nat := R.hull + 0x05C
def R.hull_HOLDUP_US : Nat := R.hull + 0x060
def R.hull_SAGS : Nat := R.hull + 0x064
def R.hull_TRIPS : Nat := R.hull + 0x068
def R.hull_EVENTS : Nat := R.hull + 0x06C
def R.hull_EVENT_EN : Nat := R.hull + 0x070

/-! Registers of Table 17-11, layout led. -/
def R.led_LED_STATUS : Nat := R.led + 0x000
def R.led_NEXT_SEQ : Nat := R.led + 0x004
def R.led_OLDEST_SEQ : Nat := R.led + 0x008
def R.led_UNMIRRORED : Nat := R.led + 0x00C
def R.led_LOST : Nat := R.led + 0x010
def R.led_MIRROR_LOST : Nat := R.led + 0x014
def R.led_LATE : Nat := R.led + 0x018
def R.led_RQ_DEPTH : Nat := R.led + 0x01C
def R.led_PREEMPTS : Nat := R.led + 0x020
def R.led_WIN_SEQ : Nat := R.led + 0x024
def R.led_WIN (j : Nat) : Nat := R.led + 0x028 + 4 * j
def R.led_OUT_SEL : Nat := R.led + 0x048
def R.led_OUT_STATE : Nat := R.led + 0x04C
def R.led_REL_CTRL : Nat := R.led + 0x050
def R.led_RELEASES : Nat := R.led + 0x054
def R.led_REL_IGNORED : Nat := R.led + 0x058
def R.led_EVENT_MIN : Nat := R.led + 0x05C
def R.led_EVENTS : Nat := R.led + 0x060
def R.led_EVENT_EN : Nat := R.led + 0x064

/-! Registers of Table 17-11, layout safe. -/
def R.safe_SAFE_STATUS : Nat := R.safe + 0x000
def R.safe_SAFE_CTRL : Nat := R.safe + 0x004
def R.safe_SAFE_STAMP_LO : Nat := R.safe + 0x008
def R.safe_SAFE_STAMP_HI : Nat := R.safe + 0x00C
def R.safe_SAFE_ENTRIES : Nat := R.safe + 0x010
def R.safe_SAFE_GLITCHES : Nat := R.safe + 0x014
def R.safe_HIGH_MS : Nat := R.safe + 0x018
def R.safe_EVENTS : Nat := R.safe + 0x01C
def R.safe_EVENT_EN : Nat := R.safe + 0x020

/-! Registers of Table 18-5, layout id. -/
def R.id_ID_MODULE : Nat := R.id + 0x000
def R.id_ID_SERIAL : Nat := R.id + 0x004
def R.id_ID_DATE : Nat := R.id + 0x008
def R.id_ID_ROM : Nat := R.id + 0x00C
def R.id_ID_HULL : Nat := R.id + 0x010

/-! Registers of Table 18-5, layout rst. -/
def R.rst_RST_CAUSE : Nat := R.rst + 0x000
def R.rst_RST_CTRL : Nat := R.rst + 0x004
def R.rst_RST_COUNT : Nat := R.rst + 0x008
def R.rst_RST_GLITCHES : Nat := R.rst + 0x00C
def R.rst_UPTIME_S : Nat := R.rst + 0x010
def R.rst_PREV_UPTIME_S : Nat := R.rst + 0x014

/-! Registers of Table 18-5, layout start. -/
def R.start_START_STATUS : Nat := R.start + 0x000
def R.start_PHASE_MS : Nat := R.start + 0x004
def R.start_SEEDED_MS : Nat := R.start + 0x008
def R.start_GATE_MS : Nat := R.start + 0x00C
def R.start_GATE_STAMP_LO : Nat := R.start + 0x010
def R.start_GATE_STAMP_HI : Nat := R.start + 0x014

/-! Registers of Table 18-5, layout dom. -/
def R.dom_DOM_STATUS (d : Nat) : Nat := R.dom d + 0x000
def R.dom_DOM_ENTRIES (d : Nat) : Nat := R.dom d + 0x004

/-- One row of a register table: offset, how many registers it stands for and their distance, the bits that a plain write
sets (RW) and clears (W1C), and the reset value. -/
structure RegRow where
  off    : Nat
  count  : Nat := 1
  stride : Nat := 4
  rw     : Nat := 0
  w1c    : Nat := 0
  reset  : Nat := 0
  deriving DecidableEq, Repr

/-- The registers of a layout. -/
def Layout.rows : Layout → List RegRow
  | .timeL => [
      { off := 0x000 }, { off := 0x004 }, { off := 0x008 }, { off := 0x00C, reset := 0x70 }, { off := 0x010 },
      { off := 0x014 }, { off := 0x018 }, { off := 0x01C }, { off := 0x020, rw := 0x1 },
      { off := 0x024, w1c := 0x3FF }, { off := 0x028, rw := 0x3FF }]
  | .rennetL => [
      { off := 0x000 }, { off := 0x004 }, { off := 0x008 }, { off := 0x00C }, { off := 0x010 }]
  | .ptpL => [
      { off := 0x000 }, { off := 0x004, reset := 0x3 }, { off := 0x008 }, { off := 0x00C },
      { off := 0x010, rw := 0xFFFFFFFF }, { off := 0x014 }, { off := 0x018 }, { off := 0x01C }, { off := 0x020 },
      { off := 0x024 }]
  | .refL => [
      { off := 0x000 }, { off := 0x004 }, { off := 0x008 }, { off := 0x00C }]
  | .tioL => [
      { off := 0x000 }, { off := 0x004 }, { off := 0x008 }, { off := 0x00C }, { off := 0x010 }, { off := 0x014 },
      { off := 0x018, rw := 0xFFFFFFFF }, { off := 0x01C, rw := 0xFFFFFFFF }, { off := 0x020, rw := 0xFFFFFFFF },
      { off := 0x024 }, { off := 0x028 }]
  | .imL => [
      { off := 0x000 }, { off := 0x004 }, { off := 0x008 }, { off := 0x00C }, { off := 0x010 }, { off := 0x014 },
      { off := 0x018, reset := 0x3 }, { off := 0x020 }, { off := 0x024 }, { off := 0x028 },
      { off := 0x030, rw := 0xF, reset := 0xF }, { off := 0x034, rw := 0xFFFF, reset := 0xFFFF },
      { off := 0x038, rw := 0xFFFFFFFF }, { off := 0x03C, rw := 0xFFFFFFFF },
      { off := 0x040, rw := 0xFFFFFFFF, reset := 0x6 }, { off := 0x044 }, { off := 0x048 }, { off := 0x04C },
      { off := 0x050 }, { off := 0x054, rw := 0xFFFFFFFF }, { off := 0x058 }, { off := 0x060 }, { off := 0x064 },
      { off := 0x068 }, { off := 0x070 }, { off := 0x074 }, { off := 0x078, w1c := 0xFF },
      { off := 0x07C, rw := 0xFF }, { off := 0x080 }, { off := 0x084 }, { off := 0x088 }]
  | .pgL => [
      { off := 0x000 }, { off := 0x004 }, { off := 0x008, w1c := 0x7F }, { off := 0x00C, rw := 0x7F }]
  | .laneL => [
      { off := 0x000 }, { off := 0x004 }, { off := 0x008 }, { off := 0x00C, rw := 0x3D }, { off := 0x010 },
      { off := 0x014 }, { off := 0x018 }, { off := 0x01C }, { off := 0x020 }]
  | .portL => [
      { off := 0x000 }, { off := 0x004, rw := 0x1 }, { off := 0x008 }, { off := 0x00C }, { off := 0x010 },
      { off := 0x014 }, { off := 0x018 }, { off := 0x01C }, { off := 0x020 }]
  | .optL => [
      { off := 0x000 }, { off := 0x004, rw := 0xF, reset := 0x2 }, { off := 0x008 }, { off := 0x00C },
      { off := 0x010 }, { off := 0x014 }, { off := 0x018 }]
  | .ftL => [
      { off := 0x000 }, { off := 0x004, rw := 0x1 }, { off := 0x008, rw := 0xFFFFF }, { off := 0x00C },
      { off := 0x010 }, { off := 0x014 }, { off := 0x018 }, { off := 0x01C }, { off := 0x020, w1c := 0xF },
      { off := 0x024, rw := 0xF }, { off := 0x040, count := 16, rw := 0xFFFFFFFF }]
  | .ringL => [
      { off := 0x000, rw := 0xFFFFFFFF }, { off := 0x004, rw := 0xFFFFFFFF }, { off := 0x008, rw := 0x1F },
      { off := 0x00C }, { off := 0x010, rw := 0xFFFFFFFF }, { off := 0x014 }]
  | .igL => [
      { off := 0x000 }, { off := 0x004 }, { off := 0x008 }, { off := 0x00C }, { off := 0x010 }, { off := 0x014 },
      { off := 0x018 }, { off := 0x01C }, { off := 0x020, w1c := 0x1F }, { off := 0x024, rw := 0x1F }]
  | .chL => [
      { off := 0x000 }, { off := 0x004 }, { off := 0x008 }, { off := 0x00C }, { off := 0x010 }]
  | .surfL => [
      { off := 0x000, rw := 0x1FF }, { off := 0x004 }, { off := 0x008 }, { off := 0x00C }, { off := 0x010 }]
  | .coderL => [
      { off := 0x000, reset := 0xFF0000 }, { off := 0x004 }, { off := 0x008 }, { off := 0x00C }, { off := 0x010 },
      { off := 0x014 }, { off := 0x018, w1c := 0xF }, { off := 0x01C, rw := 0xF }]
  | .egL => [
      { off := 0x000 }, { off := 0x004 }, { off := 0x008 }, { off := 0x00C, w1c := 0x3 },
      { off := 0x010, rw := 0x3 }, { off := 0x020, count := 8 }, { off := 0x040, count := 8 }]
  | .ccL => [
      { off := 0x000, reset := 0x3F000000 }, { off := 0x004 }, { off := 0x008 }, { off := 0x00C }, { off := 0x010 },
      { off := 0x014 }, { off := 0x018 }, { off := 0x01C }, { off := 0x020 }, { off := 0x024 }, { off := 0x028 },
      { off := 0x02C }, { off := 0x030 }, { off := 0x034 }, { off := 0x038 }, { off := 0x03C, rw := 0xF },
      { off := 0x040 }, { off := 0x044, w1c := 0x1F }, { off := 0x048, rw := 0x1F }]
  | .paL => [
      { off := 0x000 }, { off := 0x004 }, { off := 0x008 }, { off := 0x00C }]
  | .brineL => [
      { off := 0x000 }, { off := 0x004 }, { off := 0x008 }, { off := 0x00C }, { off := 0x010 }, { off := 0x014 },
      { off := 0x018 }, { off := 0x01C }, { off := 0x020 }, { off := 0x024, w1c := 0x3F },
      { off := 0x028, rw := 0x3F }]
  | .pairL => [
      { off := 0x000 }, { off := 0x004 }, { off := 0x008, reset := 0xFFFFFFFF }, { off := 0x00C }, { off := 0x010 },
      { off := 0x014 }, { off := 0x018 }, { off := 0x01C }, { off := 0x020 }, { off := 0x024 },
      { off := 0x028, w1c := 0xF }, { off := 0x02C, rw := 0xF }]
  | .rindL => [
      { off := 0x000, reset := 0x3F0 }, { off := 0x004 }, { off := 0x008 }, { off := 0x00C }, { off := 0x010 },
      { off := 0x014 }, { off := 0x018 }, { off := 0x01C }, { off := 0x020 }, { off := 0x024, w1c := 0x7 },
      { off := 0x028, rw := 0x7 }]
  | .rdL => [
      { off := 0x000 }, { off := 0x004 }, { off := 0x008 }, { off := 0x00C }, { off := 0x010 }, { off := 0x014 },
      { off := 0x018 }, { off := 0x01C }, { off := 0x020 }, { off := 0x024 }, { off := 0x028, w1c := 0x1F },
      { off := 0x02C, rw := 0x1F }]
  | .scL => [
      { off := 0x000 }, { off := 0x004 }, { off := 0x008 }, { off := 0x00C }, { off := 0x010 }, { off := 0x014 },
      { off := 0x018 }, { off := 0x01C, w1c := 0x1 }, { off := 0x020, rw := 0x1 }]
  | .headL => [
      { off := 0x000 }, { off := 0x004 }, { off := 0x008 }, { off := 0x00C }, { off := 0x010, rw := 0x80001FFF },
      { off := 0x014, rw := 0x80001FFF }, { off := 0x018 }, { off := 0x01C }, { off := 0x020 }, { off := 0x024 },
      { off := 0x028 }, { off := 0x02C }, { off := 0x030 }, { off := 0x034 }, { off := 0x038 }, { off := 0x03C },
      { off := 0x040, w1c := 0x3F }, { off := 0x044, rw := 0x3F }, { off := 0x048 }, { off := 0x04C }]
  | .auL => [
      { off := 0x000 }, { off := 0x004 }, { off := 0x008 }, { off := 0x00C }, { off := 0x010 }, { off := 0x014 },
      { off := 0x018 }, { off := 0x01C }, { off := 0x020 }, { off := 0x024 }, { off := 0x028, w1c := 0xFF },
      { off := 0x02C, rw := 0xFF }, { off := 0x040, count := 2, stride := 32 },
      { off := 0x044, count := 2, stride := 32 }, { off := 0x048, count := 2, stride := 32 },
      { off := 0x04C, count := 2, stride := 32 }, { off := 0x050, count := 2, stride := 32 },
      { off := 0x054, count := 2, stride := 32 }, { off := 0x058, count := 2, stride := 32 },
      { off := 0x080, count := 16 }]
  | .memL => [
      { off := 0x000 }, { off := 0x004, reset := 0xE000 }, { off := 0x008 }, { off := 0x00C },
      { off := 0x010, rw := 0x71, reset := 0x1 }, { off := 0x014 }, { off := 0x018 }, { off := 0x01C },
      { off := 0x020 }, { off := 0x024 }, { off := 0x028, w1c := 0xFF }, { off := 0x02C, rw := 0xFF }]
  | .mchL => [
      { off := 0x000 }, { off := 0x004 }, { off := 0x008 }, { off := 0x00C }, { off := 0x010 }, { off := 0x014 },
      { off := 0x018 }, { off := 0x01C }, { off := 0x020 }, { off := 0x024 }, { off := 0x028 }]
  | .regL => [
      { off := 0x000, rw := 0xFF }, { off := 0x004 }, { off := 0x008 }, { off := 0x00C }]
  | .recL => [
      { off := 0x000 }, { off := 0x004 }, { off := 0x008 }, { off := 0x00C }, { off := 0x010 }, { off := 0x014 },
      { off := 0x018 }, { off := 0x01C }, { off := 0x020 }, { off := 0x024 }, { off := 0x028, rw := 0xFFFFFFFF },
      { off := 0x02C, rw := 0xFFFFFFFF }, { off := 0x030 }, { off := 0x034, rw := 0xFFFFFFFF },
      { off := 0x038, rw := 0xFFFFFFFF }, { off := 0x03C }, { off := 0x040 }, { off := 0x044 }, { off := 0x048 },
      { off := 0x04C }, { off := 0x050 }, { off := 0x054 }, { off := 0x058 }, { off := 0x05C }, { off := 0x060 },
      { off := 0x064, w1c := 0x7F }, { off := 0x068, rw := 0x7F }, { off := 0x070, rw := 0x3F }, { off := 0x074 },
      { off := 0x078 }]
  | .coreL => [
      { off := 0x000, reset := 0x3 }, { off := 0x004 }, { off := 0x008 }, { off := 0x00C }, { off := 0x010 },
      { off := 0x014 }, { off := 0x018 }, { off := 0x01C, w1c := 0x7 }, { off := 0x020, rw := 0x7 }]
  | .spL => [
      { off := 0x000 }, { off := 0x004 }, { off := 0x008 }, { off := 0x00C }, { off := 0x010 },
      { off := 0x014, w1c := 0x3 }, { off := 0x018, rw := 0x3 }]
  | .hubL => [
      { off := 0x000 }, { off := 0x004 }, { off := 0x008 }, { off := 0x00C }]
  | .srcL => [
      { off := 0x000, count := 512, rw := 0x3777 }, { off := 0x800, count := 512, w1c := 0x80000000 }]
  | .tgtL => [
      { off := 0x000, rw := 0xF }, { off := 0x004 }, { off := 0x008 }, { off := 0x00C }, { off := 0x010 }]
  | .rtL => [
      { off := 0x000, rw := 0xFFFFFFFF }, { off := 0x004, rw := 0xFFFFFFFF }, { off := 0x008, rw := 0xFFFFFFFF },
      { off := 0x00C }, { off := 0x010 }, { off := 0x014 }]
  | .chkL => [
      { off := 0x000 }, { off := 0x004 }, { off := 0x008 }, { off := 0x00C }, { off := 0x010 }, { off := 0x014 },
      { off := 0x018 }, { off := 0x01C }, { off := 0x020 }, { off := 0x024 }, { off := 0x028 }]
  | .mdpL => [
      { off := 0x000 }, { off := 0x004 }, { off := 0x008 }, { off := 0x00C }, { off := 0x010 }, { off := 0x014 },
      { off := 0x018 }, { off := 0x01C }, { off := 0x020 }, { off := 0x024 }, { off := 0x028 },
      { off := 0x02C, w1c := 0x3F }, { off := 0x030, rw := 0x3F }]
  | .mpL => [
      { off := 0x000 }, { off := 0x004, rw := 0x1 }, { off := 0x008 }, { off := 0x00C }, { off := 0x010 },
      { off := 0x014 }, { off := 0x018 }, { off := 0x01C }, { off := 0x020 }, { off := 0x024 }, { off := 0x028 }]
  | .sessL => [
      { off := 0x000, rw := 0x7 }, { off := 0x004 }, { off := 0x008 }, { off := 0x00C }, { off := 0x010 },
      { off := 0x014 }, { off := 0x018 }]
  | .ownL => [
      { off := 0x000, count := 4, stride := 16 }, { off := 0x004, count := 4, stride := 16 },
      { off := 0x008, count := 4, stride := 16 }]
  | .hullL => [
      { off := 0x000 }, { off := 0x004 }, { off := 0x008 }, { off := 0x00C }, { off := 0x010 }, { off := 0x014 },
      { off := 0x018 }, { off := 0x01C }, { off := 0x020 }, { off := 0x024 }, { off := 0x028, count := 8 },
      { off := 0x048 }, { off := 0x04C }, { off := 0x050 }, { off := 0x054 }, { off := 0x058, rw := 0xFFF },
      { off := 0x05C }, { off := 0x060 }, { off := 0x064 }, { off := 0x068 }, { off := 0x06C, w1c := 0xFF },
      { off := 0x070, rw := 0xFF }]
  | .ledL => [
      { off := 0x000 }, { off := 0x004 }, { off := 0x008 }, { off := 0x00C }, { off := 0x010 }, { off := 0x014 },
      { off := 0x018 }, { off := 0x01C }, { off := 0x020 }, { off := 0x024, rw := 0xFFFFFFFF },
      { off := 0x028, count := 8 }, { off := 0x048, rw := 0xFF }, { off := 0x04C }, { off := 0x050 },
      { off := 0x054 }, { off := 0x058 }, { off := 0x05C, rw := 0x7, reset := 0x1 }, { off := 0x060, w1c := 0x1F },
      { off := 0x064, rw := 0x1F }]
  | .safeL => [
      { off := 0x000 }, { off := 0x004 }, { off := 0x008 }, { off := 0x00C }, { off := 0x010 }, { off := 0x014 },
      { off := 0x018 }, { off := 0x01C, w1c := 0x7 }, { off := 0x020, rw := 0x7 }]
  | .idL => [
      { off := 0x000 }, { off := 0x004 }, { off := 0x008 }, { off := 0x00C }, { off := 0x010 }]
  | .rstL => [
      { off := 0x000 }, { off := 0x004 }, { off := 0x008 }, { off := 0x00C }, { off := 0x010 }, { off := 0x014 }]
  | .startL => [
      { off := 0x000, reset := 0x20000000 }, { off := 0x004 }, { off := 0x008 }, { off := 0x00C }, { off := 0x010 },
      { off := 0x014 }]
  | .domL => [
      { off := 0x000 }, { off := 0x004 }]

/-- The layout and the instance number of the block that a control address lies in, by Table 18-4; none where the table
lists no such block (R15, R413). The lanes of M0 and M1 share their ports' blocks from offset 0x100. -/
def layoutOf (addr : Nat) : Option (Layout × Nat) :=
  let dom := addr / 0x10000000
  let tile := addr / 0x100000 % 256
  let blk := addr / 0x1000 % 256
  let off := addr % 0x1000
  let one (b : Nat) (l : Layout) : Option (Layout × Nat) := if blk = b then some (l, 0) else none
  let span (b n : Nat) (l : Layout) (base : Nat) : Option (Layout × Nat) :=
    if b ≤ blk ∧ blk < b + n then some (l, base + (blk - b)) else none
  match dom with
  | 0 => match tile with
    | 0x00 => one 0 .spL
    | 0x01 => (one 0 .timeL).or ((one 1 .rennetL).or (span 0x10 6 .ptpL 0))
    | 0x02 => (one 0 .hubL).or ((one 1 .srcL).or ((span 0x10 5 .tgtL 0).or (span 0x20 8 .rtL 0)))
    | 0x03 => span 0 16 .chkL 0
    | 0x04 => (one 0 .mdpL).or ((if 1 ≤ blk ∧ blk ≤ 2 ∧ 0x100 ≤ off then some (.laneL, 31 + blk) else span 1 2 .mpL 0).or
        ((one 3 .sessL).or (one 4 .ownL)))
    | 0x05 => one 0 .hullL
    | 0x06 => (one 0 .idL).or ((one 1 .rstL).or ((one 2 .startL).or ((one 3 .safeL).or ((one 4 .refL).or
        ((span 0x08 8 .tioL 0).or ((span 0x10 6 .optL 0).or (span 0x20 8 .domL 0)))))))
    | 0x07 => one 0 .imL
    | 0x08 => one 0 .ledL
    | 0x09 => span 0 4 .coreL 0
    | 0x0A => (one 0 .memL).or ((span 0x10 16 .mchL 0).or (one 0x20 .regL))
    | _ => none
  | 1 =>
    if tile < 4 then (one 0 .pgL).or ((span 0x10 8 .laneL (8 * tile)).or (span 0x20 8 .portL (8 * tile)))
    else if tile < 8 then (if blk = 0 then some (.igL, tile - 4) else
      (span 0x10 48 .chL (48 * (tile - 4))).or (if blk = 0x40 then some (.surfL, tile - 4) else none))
    else if tile = 8 then (one 0 .ftL).or (span 0x40 64 .ringL 0)
    else none
  | 2 => if tile < 26 ∧ blk = 0 then some (.coderL, tile) else none
  | 3 => if tile < 26 ∧ blk = 0 then some (.coderL, 26 + tile) else none
  | 4 =>
    if tile < 4 then (if blk = 0 then some (.egL, tile) else
      (span 0x10 48 .ccL (48 * tile)).or (span 0x50 48 .paL (48 * tile)))
    else if tile = 8 then (one 0 .brineL).or (one 1 .pairL)
    else if 0x10 ≤ tile ∧ tile < 0x40 ∧ blk = 0 then some (.rindL, tile - 0x10)
    else none
  | 5 | 6 =>
    let k := dom - 5
    if blk ≠ 0 then none
    else if tile < 8 then some (.headL, 8 * k + tile)
    else if 0x10 ≤ tile ∧ tile < 0x20 then some (.scL, 16 * k + (tile - 0x10))
    else if 0x20 ≤ tile ∧ tile < 0x40 then some (.rdL, 32 * k + (tile - 0x20))
    else none
  | 7 => match tile with
    | 0x00 => one 0 .auL
    | 0x01 => one 0 .recL
    | _ => none
  | _ => none

/-- The offset of an address within its block's layout: a lane of M0 or M1 counts from 0x100. -/
def offsetOf (addr : Nat) : Nat :=
  match layoutOf addr with
  | some (.laneL, l) => if l < 32 then addr % 0x1000 else addr % 0x1000 - 0x100
  | _ => addr % 0x1000

/-- The row that names an offset, if one does (R413: an offset that names no register reads 0 and ignores writes). -/
def Layout.rowAt (l : Layout) (off : Nat) : Option RegRow :=
  l.rows.find? fun r => r.off ≤ off && (off - r.off) % r.stride == 0 && (off - r.off) / r.stride < r.count

/-- The row of a control address. -/
def rowOf (addr : Nat) : Option RegRow :=
  (layoutOf addr).bind fun l => l.1.rowAt (offsetOf addr)

/-- What a register holds at reset: the value of its table's Reset column. The values that the spec marks image, stored,
factory, enrolment, boot image and start-up are not given by it: 0 (DESIGN CHOICE, log entry 5), and ID_MODULE as R430
states it. -/
def resetOf (addr : Nat) : Word :=
  if addr = 0x00600000 then 0x480002B0
  else match rowOf addr with
    | some r => BitVec.ofNat 32 r.reset
    | none => 0

/-- R4, R15, R413: an access is refused when its offset is not a multiple of 4 or its address names no block. -/
def accessRefused (addr : Nat) : Bool :=
  addr % 4 != 0 || (layoutOf addr).isNone

end Sys2Proof.Machine
end

