-- ==== Sys2Proof/Units/Cores.lean ====
section
/-!
DEFINITION. What the tending cores, the safety pair, the interrupt hub, the raster-compare timers and the check-value
channels hold (chapter "Control cores, interrupts and check units", R320 to R339). Every default value is the value at reset.
-/

namespace Sys2Proof.Machine

/-- Core states of Table 14-3, in the order of their codes. -/
inductive CoreState where
  | active | sleep | parked | restarting
  deriving DecidableEq, Repr

/-- One processor: a tending core or the safety pair (R321 to R324). CORE_STATUS reads RESTARTING at reset. -/
structure Processor where
  state    : CoreState := .restarting
  /-- halted after an uncorrectable code fetch (R321) -/
  halted   : Bool := false
  alive    : Bool := false
  /-- when the watchdog last began to count -/
  kickedAt : Nat := 0
  deriving DecidableEq, Repr

/-- One interrupt source (R325 to R330). -/
structure IrqSource where
  prio     : Nat := 0
  target   : Nat := 0
  fallback : Nat := 0
  wake     : Bool := false
  mask     : Bool := false
  count    : Nat := 0
  sat      : Bool := false
  /-- cycle in which an event last set SAT: a write of 1 in that cycle leaves it set (R6) -/
  satAt    : Option Nat := none
  /-- the target that claimed it, while it is in service -/
  service  : Option Nat := none
  /-- pending with no effective target since, and IRQ_NO_TARGET logged in this episode -/
  noTarget : Option Nat := none
  noTargetLogged : Bool := false
  /-- cycle in which an EVENTS bit last counted here: bits of one cycle count as one event (R325) -/
  counted  : Option Nat := none
  deriving DecidableEq, Repr

/-- A raster-compare timer (R331, R332). -/
structure RtTimer where
  armed  : Option Stamp := none
  late   : Bool := false
  seededCancel : Bool := false
  deriving DecidableEq, Repr

/-- STATE of CHK_STATUS. -/
inductive CheckState where
  | idle | opened | finishing | done
  deriving DecidableEq, Repr

/-- A check-value channel with its CHECK_PLAN record (R333 to R336). -/
structure CheckChannel where
  mode   : Nat := 0
  alg    : Nat := 0
  order  : Bool := false
  owner  : Nat := 0
  window : Nat := 0
  seed   : Nat := 0
  state  : CheckState := .idle
  /-- bytes fed to the message, in the order fed -/
  fed    : List Byte := []
  /-- the unit takes one byte per cycle and is busy until this time -/
  busyTo : Nat := 0
  verdict : Nat := 0
  result : Nat := 0
  /-- CHK_ALIVE -/
  shown  : Nat := 0
  /-- next alive counter in append mode -/
  counter : Nat := 0
  /-- last accepted counter L; none until the first good message after a commit -/
  last   : Option Nat := none
  deriving DecidableEq, Repr

/-- The processors, the hub and the check units. -/
structure Cores where
  /-- TC0 to TC3 -/
  tc      : Sparse Processor := []
  sp      : Processor := { state := .active }
  /-- times of the safety pair's restarts and lockstep mismatches within the last 60 s -/
  spRestarts : List Nat := []
  spMismatch : List Nat := []
  sources : Sparse IrqSource := []
  /-- THRESHOLD of targets 0 to 4 -/
  thresholds : Sparse Nat := []
  timers  : Sparse RtTimer := []
  checks  : Sparse CheckChannel := []
  deriving DecidableEq, Repr

end Sys2Proof.Machine
end

