-- ==== Sys2Proof/Units/Ingress.lean ====
section
/-!
DEFINITION. What the flow table and the ingress tiles hold (chapter "Media ingress and the flow table", R106 to R131):
flow entries, descriptor rings, the merge trackers, the depacketisers, liveness tiles and surfaces. Every default value is
the value at reset.
-/

namespace Sys2Proof.Machine

/-- A flow entry (Table 5-1) with its packet counters. -/
structure FtEntry where
  valid   : Bool := false
  dst     : Nat := 0
  src     : Nat := 0
  dport   : Nat := 0
  srcAny  : Bool := false
  pathB   : Bool := false
  kind    : Nat := 0
  ports   : Nat := 0
  target  : Nat := 0
  pt      : Nat := 0
  ssrc    : Nat := 0
  /-- the SSRC learned under STRICT_SSRC (Table 5-9) -/
  learned : Option Nat := none
  pkts    : Nat := 0
  drops   : Nat := 0
  deriving DecidableEq, Repr

/-- The flow table (R107 to R111): two banks, which one is active, and the shadow work in progress. -/
structure FlowTable where
  bank0      : Sparse FtEntry := []
  bank1      : Sparse FtEntry := []
  /-- ACTIVE_BANK -/
  active     : Bool := false
  /-- ticket of the FLOW_PLAN commit whose rebuild or finished shadow is held -/
  rebuilding : Option Nat := none
  rebuilt    : Option Nat := none
  copying    : Bool := false
  deriving DecidableEq, Repr

/-- A sequence number that H has passed and that has not been seen (R117). -/
structure Missing where
  seq     : Nat
  since   : Nat
  passedA : Bool := false
  passedB : Bool := false
  deriving DecidableEq, Repr

/-- An ST 2022-7 merge tracker (R117 to R119). -/
structure Merge where
  started : Bool := false
  startAt : Nat := 0
  high    : Nat := 0
  /-- seen sequence numbers within 4,096 of H with the CRC-32C of their payload -/
  seen    : List (Nat × Nat) := []
  missing : List Missing := []
  /-- payload CRCs kept from copies with a wrong trailer -/
  bad     : List (Nat × Nat) := []
  /-- consecutive out-of-window packets per path: last number and count (R118) -/
  runA    : Nat × Nat := (0, 0)
  runB    : Nat × Nat := (0, 0)
  /-- numbers above H that gap records have named on each path: first and last (R117, R143) -/
  gapsA   : List (Nat × Nat) := []
  gapsB   : List (Nat × Nat) := []
  deriving DecidableEq, Repr

/-- One path of a merged flow (R120): its last packet, whether it is present, and whether its loss has been logged. -/
structure PathWatch where
  last : Option Nat := none
  ok   : Bool := false
  lost : Bool := false
  deriving DecidableEq, Repr

/-- One liveness tile's memory (R123). -/
structure LiveTile where
  /-- running CRC register over the frame in progress, and the value of the last complete frame -/
  running : Nat := 0xFFFFFFFF
  last    : Option Nat := none
  age     : Nat := 0
  stale   : Bool := false
  deriving DecidableEq, Repr

/-- A stripe line that has received a pixel (R121): its next column and the curds that lack a pixel so far. -/
structure LineIn where
  line    : Nat
  stripe  : Nat
  next    : Nat := 0
  missing : List Nat := []
  deriving DecidableEq, Repr

/-- The frame a channel is receiving (R116, R121). -/
structure FrameIn where
  rtp       : Nat
  number    : Nat
  startAt   : Nat
  startStamp : Stamp
  placed    : Nat := 0
  /-- a pixel was discarded or a stripe line closed while lacking a pixel -/
  broken    : Bool := false
  lastRow   : Nat := 0
  /-- rows of which a unit has arrived, without those that the frontier has passed -/
  begun     : List Nat := []
  /-- raster position up to which every stripe line that ends there is closed -/
  frontier  : Nat := 0
  /-- stripe lines started and not closed -/
  open_     : List LineIn := []
  /-- stripe lines closed at or after the frontier: line, stripe -/
  closed    : List (Nat × Nat) := []
  deriving DecidableEq, Repr

/-- Ingress of one channel (R116 to R123). -/
structure ChanIn where
  frame      : Option FrameIn := none
  lastStart  : Option Nat := none
  lastAccept : Option Nat := none
  /-- from when an enabled channel with no packet counts its 2 frame periods -/
  watchFrom  : Nat := 0
  /-- INPUT of CH_STATUS: 0 none, 1 receiving, 2 lost -/
  input      : Nat := 0
  lossStands : Bool := false
  /-- RTP timestamps of the frame before and of the last frame that was too early -/
  lastRtp    : Option Nat := none
  dropRtp    : Option Nat := none
  pathA      : PathWatch := {}
  pathB      : PathWatch := {}
  merge      : Merge := {}
  tile0      : LiveTile := {}
  tile1      : LiveTile := {}
  tile2      : LiveTile := {}
  tile3      : LiveTile := {}
  /-- sums of the blocks of the frames that a proxy is taken of: frame, and 6 x block + plane to the sum, 6 x block + 3 + plane to the count (R302) -/
  proxies    : List (Nat × Sparse Nat) := []
  deriving DecidableEq, Repr

/-- One version of a surface slot (R124): its frame, the VOID flag and the curd record. -/
structure Version where
  frame  : Nat
  void   : Bool := false
  record : List Byte := []
  deriving DecidableEq, Repr

/-- The two versions of a slot; `none` is an empty version. -/
structure SlotPair where
  a : Option Version := none
  b : Option Version := none
  /-- what the last write wrote over, while that write may still be discarded (R284) -/
  undo : Option Version := none
  deriving DecidableEq, Repr

/-- A line-close received in a frame (R126, R140). -/
structure LineBits where
  line  : Nat
  coded : List Nat
  deriving DecidableEq, Repr

/-- A frame of a surface that is not closed yet (R126). -/
structure SurfFrame where
  number   : Nat
  firstAt  : Option Nat := none
  /-- closing trigger seen at -/
  trigger  : Option Nat := none
  closeGot : Bool := false
  /-- V, RATE_N and RATE_D of its frame-close (Table 6-6) -/
  v        : Nat := 16
  rateN    : Nat := 60
  rateD    : Nat := 1
  lines    : List LineBits := []
  /-- slots written in this frame -/
  written  : List Nat := []
  deriving DecidableEq, Repr

/-- One surface (R124 to R127). -/
structure Surface where
  slots    : Sparse SlotPair := []
  frames   : List SurfFrame := []
  /-- newest frame closed -/
  closed   : Option Nat := none
  ready    : Option Nat := none
  readyAt  : Nat := 0
  invalid  : Bool := false
  /-- FRAME of the END_OF_VALIDITY record that made it invalid -/
  eovFrame : Nat := 0
  claim    : Option Nat := none
  lastAt   : Option Nat := none
  pathA    : PathWatch := {}
  pathB    : PathWatch := {}
  merge    : Merge := {}
  /-- no frame-close has differed from the plan since a frame last closed with the planned geometry (R141) -/
  geomOk   : Bool := true
  v        : Nat := 16
  rateN    : Nat := 60
  rateD    : Nat := 1
  /-- the entries changed: curds are written from frames newer than this one (R112) -/
  holdFrom : Option Nat := none
  /-- when its SURFACE_PLAN last changed: only a frame that has become ready since counts (R222) -/
  planAt   : Nat := 0
  /-- SURF_VOIDS and SURF_LATE -/
  voids    : Nat := 0
  late     : Nat := 0
  deriving DecidableEq, Repr

end Sys2Proof.Machine
end

