-- ==== Sys2Proof/Units/Sent.lean ====
section
/-!
DEFINITION. What leaves the ZH48.
-/

namespace Sys2Proof.Machine

/-- What has left the ZH48, newest first in `State.wire` (the model's own record, log entry 7). -/
inductive Sent where
  /-- an Ethernet frame, without FCS, on a port -/
  | eth (port : Nat) (bytes : List Byte)
  /-- a media packet on a port, from its IP header on (R132, R240, R266) -/
  | media (port : Nat) (packet : List Byte)
  /-- an IGMPv3 or MLDv2 report on a port: a group is joined or left, from one source or, with 0, from any -/
  | report (port group source : Nat) (join : Bool)
  /-- a PTP message of an instance on its port, from the IP header on (R26) -/
  | ptp (inst port : Nat) (packet : List Byte)
  /-- a datagram to the peer (0), to witness W0 (1) or W1 (2) on a pair-link port, from its IP header on (R206) -/
  | pair (dest port : Nat) (packet : List Byte)
  /-- an MDP datagram -/
  | mdp (route : Route) (bytes : List Byte)
  /-- the transmit pins of a lane go to electrical idle or leave it (R98) -/
  | laneIdle (lane : Nat) (idle : Bool)
  /-- a level of a TIO output: active or inactive -/
  | pin (pin : Nat) (active : Bool)
  deriving DecidableEq, Repr

end Sys2Proof.Machine
end

