-- ==== Sys2Proof/Units/Lanes.lean ====
section
/-!
DEFINITION. What the port-group tiles, the management ports and the optics buses hold (chapter "Serial lanes and Ethernet
ports", R85 to R105). Lanes 0 to 31 are the media lanes, 32 and 33 those of M0 and M1; ports are numbered 8 x group + port,
32 for M0 and 33 for M1. Every default value is the value at reset.
-/

namespace Sys2Proof.Machine

/-- Lane states of Table 4-7. -/
inductive LaneState where
  | idle | signal | cdrLock | adapting | locked | failed | loop
  deriving DecidableEq, Repr

/-- One lane (R88 to R91, R97 to R99). -/
structure Lane where
  state      : LaneState := .idle
  preset     : Nat := 0
  signal     : Bool := false
  frozen     : Bool := false
  fom        : Nat := 0
  /-- lowest FOM since FOM was last read -/
  lowest     : Nat := 0
  /-- highest FOM of the attempt (LANE_FAIL) -/
  best       : Nat := 0
  /-- the lane completed step 3 in the last try -/
  adapted    : Bool := false
  /-- when the lane began to adapt in this try (step 3) -/
  adaptSince : Nat := 0
  /-- since when the FOM has lain below FOM_MIN + 16, and below FOM_MIN -/
  lowSince   : Option Nat := none
  badSince   : Option Nat := none
  lowLogged  : Bool := false
  monitor    : Monitor := {}
  /-- transmit taps PRE, MAIN, POST as sent at `tapAt`, and the values toward which they move (R97) -/
  taps       : Int × Int × Int := (0, 0, 0)
  tapAt      : Nat := 0
  tapGoal    : Int × Int × Int := (0, 0, 0)
  /-- LOOP and PRBS of LANE_CTRL -/
  loop       : Nat := 0
  prbs       : Nat := 0
  /-- since when the pattern runs, and when the last one ended -/
  prbsSince  : Nat := 0
  prbsEnd    : Option Nat := none
  deriving DecidableEq, Repr

/-- Port states of Table 4-9. -/
inductive PortState where
  | disabled | down | bringup | up
  deriving DecidableEq, Repr

/-- One port (R87, R88, R92 to R97). -/
structure Port where
  state      : PortState := .disabled
  /-- ADMIN of PORT_CTRL -/
  admin      : Bool := false
  /-- step of Table 4-2 the running attempt is in, 1 to 5, and since when; the preset of the try -/
  step       : Nat := 0
  stepSince  : Nat := 0
  preset     : Nat := 0
  /-- attempts since the port was last UP -/
  attempts   : Nat := 0
  retries    : Nat := 0
  /-- back-off: k of the next retry and when the previous attempt failed -/
  backoff    : Option (Nat × Nat) := none
  /-- retries counted for the back-off interval (kept over an UP shorter than 600 s) -/
  backoffK   : Nat := 0
  /-- the running attempt was started by RETRY_NOW, which leaves the back-off count as it is -/
  retryNow   : Bool := false
  upSince    : Nat := 0
  degraded   : Bool := false
  /-- since when the corrected-symbol ratio has lain below 10^-5 -/
  cleanSince : Option Nat := none
  localFault  : Bool := false
  remoteFault : Bool := false
  /-- when a clause 81 fault was last reported in the running try (step 5) -/
  faultAt    : Nat := 0
  /-- uncorrectable codewords seen: times within the last 1 ms, newest first -/
  uncorr     : List Nat := []
  /-- answers of R87 given in the running second: its number and count -/
  answers    : Nat × Nat := (0, 0)
  /-- multicast groups joined: destination address, source address or 0 (R113) -/
  joined     : List (Nat × Nat) := []
  /-- out of service until the group joins (R97) -/
  leaving    : Bool := false
  /-- frames of other kinds than curd-stream packets that wait, oldest first, with their line bytes, and when the frame of such a
  kind that was started last is complete (R183) -/
  others     : List (Nat × Sent) := []
  lineFree   : Nat := 0
  deriving DecidableEq, Repr

/-- One optics management bus (R96, R100, R101): 0 to 3 for G0 to G3, 4 and 5 for M0 and M1. -/
structure Optic where
  /-- a module is present -/
  present    : Bool := false
  insertedAt : Option Nat := none
  ready      : Bool := false
  int        : Bool := false
  alarm      : Bool := false
  nack       : Bool := false
  busy       : Bool := false
  stuck      : Bool := false
  /-- host transaction waiting or running -/
  cmd        : Word := 0
  result     : Word := 0
  temp       : BitVec 16 := 0
  rxPower    : BitVec 16 := 0
  pollAt     : Nat := 0
  deriving DecidableEq, Repr

end Sys2Proof.Machine
end

