-- ==== Sys2Proof/Units/Recorder.lean ====
section
/-!
DEFINITION. What the evidence recorder holds (chapter "Evidence recorder", R299 to R319). Every default value is the value
at reset.
-/

namespace Sys2Proof.Machine

/-- A staged record: its type and source of Table 13-2, its payload, when it was admitted; or the mark of a seal that waits for
the records before it. -/
structure Staged where
  type    : Nat
  source  : Nat := 0
  payload : List Byte := []
  at_     : Nat
  stamp   : Stamp
  seal_   : Option Nat := none
  deriving DecidableEq, Repr

/-- A seal block's changing fields (Table 13-3). -/
structure Seal where
  cause       : Nat
  signDue     : Bool := false
  abandonedF  : Bool := false
  provisional : Bool := false
  abandoned   : Nat := 0
  configId    : BitVec 64 := 0
  prevDigest  : List Byte := []
  digest      : List Byte := []
  at_         : Nat := 0
  deriving DecidableEq, Repr

/-- A wheel (R299): its slot, the bytes of its record area written so far, its seal and signature. -/
structure Wheel where
  number  : Nat
  slot    : Nat
  /-- pages written, newest first -/
  area    : List (List Byte) := []
  bytes   : Nat := 0
  /-- records laid out so far: SEQ of the next one -/
  records : Nat := 0
  first   : Option Stamp := none
  last    : Stamp := 0
  provisional : Bool := false
  openedAt : Nat := 0
  seal_   : Option Seal := none
  signed  : Option (Stamp × List Byte) := none
  held    : Bool := false
  /-- a signature is due, from the seal or from a hold since (R308); SIGN_DUE of the seal block stays as it was written -/
  due     : Bool := false
  deriving DecidableEq, Repr

/-- States of Table 13-7. -/
inductive RecState where
  | initialising | recovering | recording | warnSealed | failed | ledgerOnly
  deriving DecidableEq, Repr

/-- What has been shed of a class since its last admitted record (R306): count, first and last stamp. -/
structure Shed where
  on    : Bool := false
  count : Nat := 0
  first : Stamp := 0
  last  : Stamp := 0
  deriving DecidableEq, Repr

/-- An export (R314): session, wheel, last read. -/
structure Export where
  session : Nat
  wheel   : Nat
  lastAt  : Nat
  deriving DecidableEq, Repr

/-- A tap's counters (R301). -/
structure Tap where
  pkts    : Nat := 0
  limited : Nat := 0
  /-- bytes admitted in the running second and its start -/
  inSecond : Nat := 0
  second  : Nat := 0
  deriving DecidableEq, Repr

/-- What the NAND keeps over every reset (R299, R316, Table 18-2). -/
structure NandStore where
  /-- wheels in store, oldest first; the open wheel is the last one while it has no seal -/
  wheels   : List Wheel := []
  nextNumber : Nat := 0
  badSlots : List Nat := []
  spares   : Nat := 0
  /-- program-erase cycles of each slot -/
  cycles   : Sparse Nat := []
  wearLogged : Bool := false
  written  : Nat := 0
  deriving DecidableEq, Repr

/-- The recorder (R299 to R318). -/
structure Recorder where
  store    : NandStore := {}
  state    : RecState := .initialising
  staging  : List Staged := []
  /-- record bytes laid out for the open wheel and not written yet -/
  carry    : List Byte := []
  /-- when the oldest of them was admitted -/
  carryAt  : Nat := 0
  /-- token bucket: bytes and when it was last filled -/
  tokens   : Nat := 16777216
  tokensAt : Nat := 0
  closedAll    : Bool := false
  closedLedger : Bool := false
  warnAt   : Option Nat := none
  shedTap   : Shed := {}
  shedProxy : Shed := {}
  shedAudio : Shed := {}
  /-- records abandoned since the last DROP record -/
  abandoned : Nat := 0
  /-- records abandoned since the last supply warning -/
  warnAbandoned : Nat := 0
  /-- cause of the last seal -/
  lastCause : Nat := 0
  exports  : List Export := []
  /-- sessions whose last EXPORT_OPEN was refused; sessions that have read an uncorrectable page -/
  refused  : List Nat := []
  uncorr   : List Nat := []
  verifying : Option Nat := none
  verifyResult : Word := 0
  holdFull : Bool := false
  taps     : Sparse Tap := []
  /-- bytes written to NAND: the running second, its bytes, and those of the second before -/
  rateNow  : Nat × Nat × Nat := (0, 0, 0)
  deriving DecidableEq, Repr

end Sys2Proof.Machine
end

