-- ==== Sys2Proof/Units/Startup.lean ====
section
/-!
DEFINITION. What the identity, reset and start-up blocks hold (chapter "Start-up and register map", R403 to R415). Every
default value is the value right after a POWER reset.
-/

namespace Sys2Proof.Machine

/-- Reset kinds of Table 18-1, in the order of the bits of RST_CAUSE. -/
inductive ResetKind where
  | power | vbus | rail | trip | pin | host | wake
  deriving DecidableEq, Repr

/-- Start-up and resets. -/
structure Startup where
  kind    : ResetKind := .power
  /-- phase of Table 18-3 -/
  phase   : Nat := 1
  phaseAt : Nat := 0
  gateOpen : Bool := false
  noImage : Bool := false
  fallback : Bool := false
  slow    : Bool := false
  /-- banks that failed in this phase 3: A, B -/
  triedA  : Bool := false
  triedB  : Bool := false
  seededMs : Nat := 0
  gateMs  : Nat := 0
  gateStamp : Stamp := 0
  /-- when phase 10 follows phase 9: one frame period of the slowest output after the gate opened -/
  phase10At : Nat := 0
  count   : Nat := 0
  prevUptime : Nat := 0
  /-- RST_n: level, since when, a qualified low holds the rails off -/
  pinHigh : Bool := true
  pinSince : Nat := 0
  pinHeld : Bool := false
  /-- a HOST reset runs since (R406) -/
  hostAt  : Option Nat := none
  deriving DecidableEq, Repr

end Sys2Proof.Machine
end

