-- ==== Sys2Proof/Units/Wall.lean ====
section
/-!
DEFINITION. What the heads, surface readers and scalers hold (chapters "Wall composition", R217 to R236, and "Wall heads and
scan-out", R237 to R255), and the audio tile ("Microphone audio", R256 to R272). Every default value is the value at reset.
-/

namespace Sys2Proof.Machine

/-- How a layer resolved at the last latch (R222): a snapshot, or the reason of a whole-layer void. -/
structure LayerRes where
  snapshot  : Option Nat := none
  age       : Nat := 0
  enabled   : Bool := false
  /-- when the layer was enabled: only a frame that has become ready since counts -/
  enabledAt : Nat := 0
  /-- reason of the whole-layer cause that stands -/
  cause     : Option Nat := none
  /-- reason of an ended cause whose release is still awaited -/
  held      : Option Nat := none
  /-- curds that the readers have decoded in this frame and may still need: 256 x line + column to the void reason, or to the frame and
  the reconstruction (R219, R223) -/
  read      : Sparse (Nat ⊕ (Nat × List (List Int))) := []
  deriving DecidableEq, Repr

/-- A memory cause over layers of a head (Table 12-5, step 2): the retired pair. -/
structure MemArea where
  pair     : Nat
  layers   : List Nat
  remapped : Bool := false
  deriving DecidableEq, Repr

/-- Latch-class values that wait for a latch (R246): their rennet point, when it came, and the head's sections after it. -/
structure StagedLatch where
  stamp    : Stamp
  at_      : Nat
  sections : List Section
  deriving DecidableEq, Repr

/-- A composed pixel: void with its reason, or three 12-bit components. -/
inductive Pix where
  | void (reason : Nat)
  | val (a b c : Nat)
  deriving DecidableEq, Repr

/-- Head states of Table 10-9. -/
inductive HeadState where
  | off | enabled | running | modeGap | harmless | failed | stopping
  deriving DecidableEq, Repr

/-- One head (R237 to R252). -/
structure Head where
  state     : HeadState := .off
  /-- HEAD_TIMING in force, and the gang that the head belongs to -/
  timing    : List Byte := []
  gang      : Bool := false
  /-- the Latch-class sections in force, and those that wait -/
  latched   : List Section := []
  staged    : List StagedLatch := []
  latchTarget : Nat := 0
  pend      : Bool := false
  /-- a mode change that waits for E: the new HEAD_TIMING and gang (R247) -/
  mode      : Option (List Byte × Bool) := none
  /-- first frame number that runs after a start or a mode change -/
  startK    : Option Nat := none
  /-- frame of the timing generator, its current line, and the next line to begin -/
  frame     : Nat := 0
  line      : Nat := 0
  next      : Nat := 0
  inFrame   : Bool := false
  /-- the frame in progress is sent (R210) -/
  sending   : Bool := false
  guardStamp : Stamp := 0
  /-- the frame tag block: o, latch stamp, CONFIG_ID (R251) -/
  tagFrame  : Nat := 0
  tagStamp  : Stamp := 0
  tagConfig : Nat := 0
  /-- the tag block formed at the last latch, for the next frame -/
  newFrame  : Nat := 0
  newStamp  : Stamp := 0
  newConfig : Nat := 0
  layers    : Sparse LayerRes := []
  memAreas  : List MemArea := []
  /-- slots of the frame that read uncorrectable: layer, line, stripe, index -/
  badReads  : List (Nat × Nat × Nat × Nat) := []
  /-- slots of the frame whose tag changed while they were read (R127) -/
  moved     : List (Nat × Nat × Nat × Nat) := []
  /-- running CRC-64 of the frame and the signature of the frame before -/
  sig       : Nat := 0
  lastSig   : Option Nat := none
  signature : Nat := 0
  frozen    : Bool := false
  /-- reason of the head-wide cause that holds the frame in progress, to its end (R249) -/
  heldReason : Option Nat := none
  /-- comparators that a smaller VT has put out of use until they are rewritten (R250) -/
  lmDead0   : Bool := false
  lmDead1   : Bool := false
  goodFrames : Nat := 0
  freezeAt  : List Nat := []
  /-- the frame in progress has had a packet in STATE 1, or in STATE 2 or 3 -/
  sawVoid   : Bool := false
  sawEov    : Bool := false
  lastValid : Nat := 0
  seq       : Nat := 0
  /-- extended sequence numbers not sent on a path -/
  gapA      : Option (Nat × Nat) := none
  gapB      : Option (Nat × Nat) := none
  lastEovAt : Nat := 0
  /-- frame period of the timing that paces repeated end-of-validity packets, in ns (R243) -/
  eovPeriod : Nat := 0
  eovLeft   : Option Nat := none
  bufLow    : Nat := 0
  panic     : Bool := false
  urgent    : Bool := false
  /-- composed lines of the frame for its proxy, newest first: drawn pixels and whether each is flagged void -/
  picture   : List (List ((Nat × Nat × Nat) × Bool)) := []
  deriving DecidableEq, Repr

/-- Self-check state of a surface reader or scaler (R233). -/
structure CheckedUnit where
  /-- times of the faults within the last 60 s -/
  faults  : List Nat := []
  faulty  : Bool := false
  failed  : Bool := false
  retest  : Bool := false
  /-- COEFF_SET and COLOUR_MATRIX of a scaler in force (R234) -/
  sections : List Section := []
  deriving DecidableEq, Repr

/-- One microphone channel as one capture group sees it (R258, R263). -/
structure MicGroup where
  /-- last output sample -/
  last    : Int := 0
  /-- hold count: consecutive frames with a HELD sample -/
  hold    : Nat := 0
  invalid : Bool := false
  deriving DecidableEq, Repr

/-- One microphone channel (R265). -/
structure Mic where
  g0     : MicGroup := {}
  g1     : MicGroup := {}
  stuck  : Bool := false
  peak   : Nat := 0
  /-- level of the equal bits and since when -/
  level  : Bool := false
  since  : Nat := 0
  deriving DecidableEq, Repr

/-- A span of PTP time, in ns, in which a clock's samples are HELD (R263): from its start to its stop, for a number of samples, or
without end. -/
structure HoldSpan where
  start   : Nat
  stop    : Option Nat := none
  samples : Option Nat := none
  deriving DecidableEq, Repr

/-- A capture group (R259 to R268). -/
structure AudioGroup where
  maskGen  : Nat := 0
  /-- the next packet carries MASK_CHANGE -/
  maskMark : Bool := false
  seq      : Nat := 0
  /-- the last frame formed was in the harmless state -/
  eov      : Bool := false
  /-- end-of-validity packets still to send after a stop, and the group's record before it (R268) -/
  stopLeft : Nat := 0
  flow     : List Byte := []
  /-- R262 is not met: PDM_CK0, PDM_CK1 -/
  rateBad0 : Bool := false
  rateBad1 : Bool := false
  /-- channels HELD and INVALID in the last frame, and its number -/
  held     : Nat := 0
  invalid  : Nat := 0
  frame    : Nat := 0
  deriving DecidableEq, Repr

/-- The audio tile (R256 to R272). -/
structure Audio where
  ck0     : Monitor := {}
  ck1     : Monitor := {}
  spans0  : List HoldSpan := []
  spans1  : List HoldSpan := []
  mics    : Sparse Mic := []
  g0      : AudioGroup := {}
  g1      : AudioGroup := {}
  /-- Audio-class sections whose rennet point has passed and that wait for a frame boundary -/
  waiting : List Section := []
  /-- a commit that leaves the configuration without its Audio-class sections waits too -/
  change  : Bool := false
  /-- the Audio-class sections in force -/
  inForce : List Section := []
  /-- the frame in progress: PTP time in ms -/
  frame   : Nat := 0
  deriving DecidableEq, Repr

end Sys2Proof.Machine
end

