-- ==== Sys2Proof/Machine/State.lean ====
section
/-!
DEFINITION. The state of the block, the reasons a step can stop, and the state right after a POWER reset.

Registers that hold a value of their own (counters, RW registers, EVENTS) lie in `regs` by control address; registers that
show the state of a unit are computed from that unit when they are read. Units that the spec numbers lie in sparse maps in
which an unlisted number holds the unit's reset value.
-/

namespace Sys2Proof.Machine

/-- Why the machine stops with a fault. -/
inductive Fault where
  /-- Raised by FEED_CLASS_CHANGE and FEED_OVER for a feed voltage outside the absolute limits of R416: the spec says that
  the module may be damaged and gives no behaviour. Safe: the model stops where the hardware's behaviour is not given. -/
  | outsideRatings
  deriving DecidableEq, Repr

/-- Why the machine refuses a command. -/
inductive Refusal where
  /-- The command has no meaning in this model yet. Safe. -/
  | notModelled (mnemonic : String)
  deriving DecidableEq, Repr

/-- The state of the block. -/
structure State where
  /-- registers with a value of their own, by control address (R4); unlisted: `resetOf` -/
  regs      : Sparse Word := []
  /-- registers and latches kept separately for each agent (R48): 2^32 x agent + address -/
  latches   : Sparse Word := []
  /-- EVENTS bits that hardware has set, with the cycle, by control address: a write of 1 in that cycle clears none of them (R6) -/
  setNow    : Sparse (Nat × Word) := []
  /-- the bytes of frame memory (R274), by device address; unlisted: 0 (R404: every region reads as empty) -/
  mem       : List Host.Cell := []
  /-- value returned by the last register read (the model's own field) -/
  readValue : Word := 0
  /-- what has left the device, newest first (the model's own field) -/
  wire      : List Sent := []
  /-- how many free values have been drawn (the model's own field) -/
  fresh     : Nat := 0
  clock     : Clock := {}
  servo     : Servo := {}
  ptp       : Sparse PtpInst := []
  refIn     : Monitor := {}
  tio       : Sparse TioPin := []
  im        : ImageManager := {}
  commits   : Commits := {}
  roll      : Roll := {}
  /-- tiles of D1 to D7: 256 x domain + tile -/
  tiles     : Sparse Tile := []
  /-- the configuration in force (R66) -/
  config    : List Section := []
  lanes     : Sparse Lane := []
  ports     : Sparse Port := []
  optics    : Sparse Optic := []
  ft        : FlowTable := {}
  chanIn    : Sparse ChanIn := []
  surfaces  : Sparse Surface := []
  chans     : Sparse Chan := []
  coders    : Sparse Coder := []
  /-- takeover causes that wait for the safety pair (R195, R196) -/
  takeovers : List Takeover := []
  rinds     : Sparse Rind := []
  /-- egress queue of each media port, oldest packet first -/
  queues    : Sparse (List QPacket) := []
  pair      : Pair := {}
  heads     : Sparse Head := []
  readers   : Sparse CheckedUnit := []
  scalers   : Sparse CheckedUnit := []
  audio     : Audio := {}
  memory    : Memory := {}
  recorder  : Recorder := {}
  cores     : Cores := {}
  mdp       : Mdp := {}
  hull      : Hull := {}
  ledger    : Ledger := {}
  startup   : Startup := {}
  /-- commands that wait, first in first out -/
  pending   : List Instr := []
  deriving DecidableEq, Repr

/-- The machine right after a POWER reset (R403): phase 1 of Table 18-3, rails off, no owner, both boot banks empty. -/
def State.reset : State := {}

end Sys2Proof.Machine
end

