-- ==== Sys2Proof/Machine/Ops.lean ====
section
/-!
DEFINITION. The shared operations: sparse maps, memory bytes, registers and latches, raster stamps, little-endian and
big-endian numbers, and the ledger entries that units write.
-/

namespace Sys2Proof

/-- The value of a sparse map at a number; an unlisted number reads as `d` says. -/
def Sparse.get {α : Type} (d : Nat → α) : Sparse α → Nat → α
  | [], k => d k
  | (j, v) :: r, k => if j = k then v else Sparse.get d r k

/-- The map without a number. -/
def Sparse.without {α : Type} (m : Sparse α) (k : Nat) : Sparse α := m.filter fun e => e.1 != k

/-- Insert a value before the first higher number. -/
def Sparse.insertAt {α : Type} : Sparse α → Nat → α → Sparse α
  | [], k, v => [(k, v)]
  | (j, w) :: r, k, v => if k < j then (k, v) :: (j, w) :: r else (j, w) :: Sparse.insertAt r k v

/-- Write one value, keeping the canonical form: the numbers rise strictly and no listed value is the unlisted one. -/
def Sparse.put {α : Type} [DecidableEq α] (d : Nat → α) (m : Sparse α) (k : Nat) (v : α) : Sparse α :=
  if v = d k then Sparse.without m k else Sparse.insertAt (Sparse.without m k) k v

/-- Change every listed value, keeping the canonical form. -/
def Sparse.mapVals {α : Type} [DecidableEq α] (d : Nat → α) (f : Nat → α → α) : Sparse α → Sparse α
  | [] => []
  | (k, v) :: r => if f k v = d k then Sparse.without (Sparse.mapVals d f r) k else (k, f k v) :: Sparse.mapVals d f r

/-- Every listed number is above `lo`, the numbers rise strictly, and no listed value is the unlisted one. -/
def Sparse.wfFrom {α : Type} [DecidableEq α] (d : Nat → α) : Option Nat → Sparse α → Bool
  | _, [] => true
  | lo, (j, v) :: r => (match lo with | none => true | some l => decide (l < j)) && decide (v ≠ d j) && Sparse.wfFrom d (some j) r

/-- The canonical form of a sparse map. -/
def Sparse.wf {α : Type} [DecidableEq α] (d : Nat → α) (m : Sparse α) : Bool := Sparse.wfFrom d none m

end Sys2Proof

namespace Sys2Proof.Machine

/-- What every meaning answers. -/
abbrev Out := Host.Outcome State Fault Refusal

/-! ## Numbers in byte strings -/

/-- Little-endian value of `n` bytes from offset `i` (R7); a byte past the end counts 0. -/
def le (p : List Byte) (i n : Nat) : Nat :=
  ((p.drop i).take n).foldr (fun b acc => b.toNat + 256 * acc) 0

/-- Big-endian value of `n` bytes from offset `i` (R7). -/
def be (p : List Byte) (i n : Nat) : Nat :=
  ((p.drop i).take n).foldl (fun acc b => 256 * acc + b.toNat) 0

/-- `n` bytes of a number, least significant first. -/
def leBytes : Nat → Nat → List Byte
  | 0, _ => []
  | n + 1, v => BitVec.ofNat 8 v :: leBytes n (v / 256)

/-- `n` bytes of a number, most significant first. -/
def beBytes (n v : Nat) : List Byte := (leBytes n v).reverse

/-- A signed number in little-endian two's complement. -/
def leInt (n : Nat) (v : Int) : List Byte := leBytes n (v % (2 ^ (8 * n) : Nat)).toNat

/-- Two's complement value of an unsigned field of `bits` bits. -/
def signed (bits v : Nat) : Int := if v < 2 ^ (bits - 1) then v else (v : Int) - (2 ^ bits : Nat)

/-- Bit `i` of a number. -/
def bit (v i : Nat) : Bool := v / 2 ^ i % 2 == 1

/-- 1 for true. -/
def b2n (b : Bool) : Nat := if b then 1 else 0

/-- A number cut to 32 bits. -/
def w32 (v : Nat) : Word := BitVec.ofNat 32 v

/-- A signed number as a 32-bit register shows it, saturating. -/
def w32i (v : Int) : Word := BitVec.ofInt 32 (max (-2147483648) (min 2147483647 v))

/-! ## Memory bytes (R274) -/

/-- One byte of frame memory; a byte that nothing has written reads 0 (R404). -/
def State.byte (s : State) (a : Nat) : Byte := Sparse.get (fun _ => 0) s.mem a

/-- Write one byte of frame memory. -/
def State.setByte (s : State) (a : Nat) (v : Byte) : State := { s with mem := Sparse.put (fun _ => (0 : Byte)) s.mem a v }

/-- `n` bytes from an address. -/
def State.bytes (s : State) (a n : Nat) : List Byte := (List.range n).map fun i => s.byte (a + i)

/-- Write a byte string from an address on. -/
def State.setBytes (s : State) : Nat → List Byte → State
  | _, [] => s
  | a, b :: r => (s.setByte a b).setBytes (a + 1) r

/-- The canonical form of frame memory. -/
def Memory.wf (m : List Host.Cell) : Bool := Sparse.wf (fun _ => (0 : Byte)) m

/-! ## Registers and latches (R4 to R6, R48) -/

/-- A register with a value of its own. -/
def State.reg (s : State) (a : Nat) : Word := s.regs.get resetOf a

/-- Set such a register. -/
def State.setReg (s : State) (a : Nat) (v : Word) : State := { s with regs := s.regs.put resetOf a v }

/-- Count in a 32-bit register that saturates at 0xFFFF_FFFF. -/
def State.countBy (s : State) (a n : Nat) : State :=
  s.setReg a (w32 (min 0xFFFFFFFF ((s.reg a).toNat + n)))

/-- Count one. -/
def State.count (s : State) (a : Nat) : State := s.countBy a 1

/-- Number of an agent: TC0 to TC3, SP, sessions 0 to 7. -/
def agentNo : Agent → Nat
  | .tc n => n.val
  | .sp => 4
  | .session i => 5 + i.val

/-- A latch or register kept separately for each agent. -/
def State.latch (s : State) (g : Agent) (a : Nat) : Word := s.latches.get (fun k => resetOf (k % 0x100000000)) (0x100000000 * agentNo g + a)

/-- Set it. -/
def State.setLatch (s : State) (g : Agent) (a : Nat) (v : Word) : State :=
  { s with latches := s.latches.put (fun k => resetOf (k % 0x100000000)) (0x100000000 * agentNo g + a) v }

/-- Discard the latches and CMT_ registers of an agent (R346). -/
def State.dropLatches (s : State) (g : Agent) : State :=
  { s with latches := s.latches.filter fun e => e.1 / 0x100000000 != agentNo g }

/-- An access is made by a core or the safety pair, not by host software. -/
def Agent.isCore : Agent → Bool
  | .session _ => false
  | _ => true

/-! ## Units -/

/-- Read, write and change a PTP instance. -/
def State.inst (s : State) (n : Nat) : PtpInst := s.ptp.get (fun _ => {}) n
def State.setInst (s : State) (n : Nat) (v : PtpInst) : State := { s with ptp := s.ptp.put (fun _ => {}) n v }
def State.modInst (s : State) (n : Nat) (f : PtpInst → PtpInst) : State := s.setInst n (f (s.inst n))
def State.mapPtp (s : State) (f : Nat → PtpInst → PtpInst) : State := { s with ptp := s.ptp.mapVals (fun _ => {}) f }

/-- Read, write and change a TIO pin. -/
def State.tioPin (s : State) (n : Nat) : TioPin := s.tio.get (fun _ => {}) n
def State.setTioPin (s : State) (n : Nat) (v : TioPin) : State := { s with tio := s.tio.put (fun _ => {}) n v }
def State.modTioPin (s : State) (n : Nat) (f : TioPin → TioPin) : State := s.setTioPin n (f (s.tioPin n))
def State.mapTio (s : State) (f : Nat → TioPin → TioPin) : State := { s with tio := s.tio.mapVals (fun _ => {}) f }

/-- Read, write and change a tile of D1 to D7, numbered 256 x domain + tile. -/
def State.tile (s : State) (n : Nat) : Tile := s.tiles.get (fun _ => {}) n
def State.setTile (s : State) (n : Nat) (v : Tile) : State := { s with tiles := s.tiles.put (fun _ => {}) n v }
def State.modTile (s : State) (n : Nat) (f : Tile → Tile) : State := s.setTile n (f (s.tile n))
def State.mapTiles (s : State) (f : Nat → Tile → Tile) : State := { s with tiles := s.tiles.mapVals (fun _ => {}) f }

/-- Read, write and change a lane. -/
def State.lane (s : State) (n : Nat) : Lane := s.lanes.get (fun _ => {}) n
def State.setLane (s : State) (n : Nat) (v : Lane) : State := { s with lanes := s.lanes.put (fun _ => {}) n v }
def State.modLane (s : State) (n : Nat) (f : Lane → Lane) : State := s.setLane n (f (s.lane n))
def State.mapLanes (s : State) (f : Nat → Lane → Lane) : State := { s with lanes := s.lanes.mapVals (fun _ => {}) f }

/-- Read, write and change a port. -/
def State.port (s : State) (n : Nat) : Port := s.ports.get (fun _ => {}) n
def State.setPort (s : State) (n : Nat) (v : Port) : State := { s with ports := s.ports.put (fun _ => {}) n v }
def State.modPort (s : State) (n : Nat) (f : Port → Port) : State := s.setPort n (f (s.port n))
def State.mapPorts (s : State) (f : Nat → Port → Port) : State := { s with ports := s.ports.mapVals (fun _ => {}) f }

/-- Read, write and change an optics bus. -/
def State.optic (s : State) (n : Nat) : Optic := s.optics.get (fun _ => {}) n
def State.setOptic (s : State) (n : Nat) (v : Optic) : State := { s with optics := s.optics.put (fun _ => {}) n v }
def State.modOptic (s : State) (n : Nat) (f : Optic → Optic) : State := s.setOptic n (f (s.optic n))
def State.mapOptics (s : State) (f : Nat → Optic → Optic) : State := { s with optics := s.optics.mapVals (fun _ => {}) f }

/-- Read, write and change a channel's ingress. -/
def State.chIn (s : State) (n : Nat) : ChanIn := s.chanIn.get (fun _ => {}) n
def State.setChIn (s : State) (n : Nat) (v : ChanIn) : State := { s with chanIn := s.chanIn.put (fun _ => {}) n v }
def State.modChIn (s : State) (n : Nat) (f : ChanIn → ChanIn) : State := s.setChIn n (f (s.chIn n))
def State.mapChanIn (s : State) (f : Nat → ChanIn → ChanIn) : State := { s with chanIn := s.chanIn.mapVals (fun _ => {}) f }

/-- Read, write and change a surface. -/
def State.surface (s : State) (n : Nat) : Surface := s.surfaces.get (fun _ => {}) n
def State.setSurface (s : State) (n : Nat) (v : Surface) : State := { s with surfaces := s.surfaces.put (fun _ => {}) n v }
def State.modSurface (s : State) (n : Nat) (f : Surface → Surface) : State := s.setSurface n (f (s.surface n))
def State.mapSurfaces (s : State) (f : Nat → Surface → Surface) : State := { s with surfaces := s.surfaces.mapVals (fun _ => {}) f }

/-- Read, write and change a channel's coding and egress. -/
def State.chan (s : State) (n : Nat) : Chan := s.chans.get (fun _ => {}) n
def State.setChan (s : State) (n : Nat) (v : Chan) : State := { s with chans := s.chans.put (fun _ => {}) n v }
def State.modChan (s : State) (n : Nat) (f : Chan → Chan) : State := s.setChan n (f (s.chan n))
def State.mapChans (s : State) (f : Nat → Chan → Chan) : State := { s with chans := s.chans.mapVals (fun _ => {}) f }

/-- Read, write and change a coder tile. -/
def State.coder (s : State) (n : Nat) : Coder := s.coders.get (fun _ => {}) n
def State.setCoder (s : State) (n : Nat) (v : Coder) : State := { s with coders := s.coders.put (fun _ => {}) n v }
def State.modCoder (s : State) (n : Nat) (f : Coder → Coder) : State := s.setCoder n (f (s.coder n))
def State.mapCoders (s : State) (f : Nat → Coder → Coder) : State := { s with coders := s.coders.mapVals (fun _ => {}) f }

/-- Read, write and change a rind with its brine store slots. -/
def State.rind (s : State) (n : Nat) : Rind := s.rinds.get (fun _ => {}) n
def State.setRind (s : State) (n : Nat) (v : Rind) : State := { s with rinds := s.rinds.put (fun _ => {}) n v }
def State.modRind (s : State) (n : Nat) (f : Rind → Rind) : State := s.setRind n (f (s.rind n))
def State.mapRinds (s : State) (f : Nat → Rind → Rind) : State := { s with rinds := s.rinds.mapVals (fun _ => {}) f }

/-- Read, write and change a head. -/
def State.head (s : State) (n : Nat) : Head := s.heads.get (fun _ => {}) n
def State.setHead (s : State) (n : Nat) (v : Head) : State := { s with heads := s.heads.put (fun _ => {}) n v }
def State.modHead (s : State) (n : Nat) (f : Head → Head) : State := s.setHead n (f (s.head n))
def State.mapHeads (s : State) (f : Nat → Head → Head) : State := { s with heads := s.heads.mapVals (fun _ => {}) f }

/-- Read, write and change a surface reader. -/
def State.reader (s : State) (n : Nat) : CheckedUnit := s.readers.get (fun _ => {}) n
def State.setReader (s : State) (n : Nat) (v : CheckedUnit) : State := { s with readers := s.readers.put (fun _ => {}) n v }
def State.modReader (s : State) (n : Nat) (f : CheckedUnit → CheckedUnit) : State := s.setReader n (f (s.reader n))
def State.mapReaders (s : State) (f : Nat → CheckedUnit → CheckedUnit) : State := { s with readers := s.readers.mapVals (fun _ => {}) f }

/-- Read, write and change a scaler. -/
def State.scaler (s : State) (n : Nat) : CheckedUnit := s.scalers.get (fun _ => {}) n
def State.setScaler (s : State) (n : Nat) (v : CheckedUnit) : State := { s with scalers := s.scalers.put (fun _ => {}) n v }
def State.modScaler (s : State) (n : Nat) (f : CheckedUnit → CheckedUnit) : State := s.setScaler n (f (s.scaler n))
def State.mapScalers (s : State) (f : Nat → CheckedUnit → CheckedUnit) : State := { s with scalers := s.scalers.mapVals (fun _ => {}) f }

/-- Read, write and change a tending core. -/
def State.tc (s : State) (n : Nat) : Processor := s.cores.tc.get (fun _ => {}) n
def State.setTc (s : State) (n : Nat) (v : Processor) : State := { s with cores := { s.cores with tc := s.cores.tc.put (fun _ => {}) n v } }
def State.modTc (s : State) (n : Nat) (f : Processor → Processor) : State := s.setTc n (f (s.tc n))
def State.mapTcs (s : State) (f : Nat → Processor → Processor) : State := { s with cores := { s.cores with tc := s.cores.tc.mapVals (fun _ => {}) f } }

/-- Read, write and change an interrupt source. -/
def State.source (s : State) (n : Nat) : IrqSource := s.cores.sources.get (fun _ => {}) n
def State.setSource (s : State) (n : Nat) (v : IrqSource) : State := { s with cores := { s.cores with sources := s.cores.sources.put (fun _ => {}) n v } }
def State.modSource (s : State) (n : Nat) (f : IrqSource → IrqSource) : State := s.setSource n (f (s.source n))
def State.mapSources (s : State) (f : Nat → IrqSource → IrqSource) : State := { s with cores := { s.cores with sources := s.cores.sources.mapVals (fun _ => {}) f } }

/-- Read, write and change a raster-compare timer. -/
def State.timer (s : State) (n : Nat) : RtTimer := s.cores.timers.get (fun _ => {}) n
def State.setTimer (s : State) (n : Nat) (v : RtTimer) : State := { s with cores := { s.cores with timers := s.cores.timers.put (fun _ => {}) n v } }
def State.modTimer (s : State) (n : Nat) (f : RtTimer → RtTimer) : State := s.setTimer n (f (s.timer n))
def State.mapTimers (s : State) (f : Nat → RtTimer → RtTimer) : State := { s with cores := { s.cores with timers := s.cores.timers.mapVals (fun _ => {}) f } }

/-- Read, write and change a check channel. -/
def State.check (s : State) (n : Nat) : CheckChannel := s.cores.checks.get (fun _ => {}) n
def State.setCheck (s : State) (n : Nat) (v : CheckChannel) : State := { s with cores := { s.cores with checks := s.cores.checks.put (fun _ => {}) n v } }
def State.modCheck (s : State) (n : Nat) (f : CheckChannel → CheckChannel) : State := s.setCheck n (f (s.check n))
def State.mapChecks (s : State) (f : Nat → CheckChannel → CheckChannel) : State := { s with cores := { s.cores with checks := s.cores.checks.mapVals (fun _ => {}) f } }

/-- Read, write and change an MDP session. -/
def State.session (s : State) (n : Nat) : Session := s.mdp.sessions.get (fun _ => {}) n
def State.setSession (s : State) (n : Nat) (v : Session) : State := { s with mdp := { s.mdp with sessions := s.mdp.sessions.put (fun _ => {}) n v } }
def State.modSession (s : State) (n : Nat) (f : Session → Session) : State := s.setSession n (f (s.session n))
def State.mapSessions (s : State) (f : Nat → Session → Session) : State := { s with mdp := { s.mdp with sessions := s.mdp.sessions.mapVals (fun _ => {}) f } }

/-- Read, write and change an owner slot. -/
def State.slot (s : State) (n : Nat) : OwnerSlot := s.mdp.slots.get (fun _ => {}) n
def State.setSlot (s : State) (n : Nat) (v : OwnerSlot) : State := { s with mdp := { s.mdp with slots := s.mdp.slots.put (fun _ => {}) n v } }
def State.modSlot (s : State) (n : Nat) (f : OwnerSlot → OwnerSlot) : State := s.setSlot n (f (s.slot n))
def State.mapSlots (s : State) (f : Nat → OwnerSlot → OwnerSlot) : State := { s with mdp := { s.mdp with slots := s.mdp.slots.mapVals (fun _ => {}) f } }

/-- Read, write and change a memory channel. -/
def State.mchan (s : State) (n : Nat) : MemChan := s.memory.chans.get (fun _ => {}) n
def State.setMchan (s : State) (n : Nat) (v : MemChan) : State := { s with memory := { s.memory with chans := s.memory.chans.put (fun _ => {}) n v } }
def State.modMchan (s : State) (n : Nat) (f : MemChan → MemChan) : State := s.setMchan n (f (s.mchan n))
def State.mapMchans (s : State) (f : Nat → MemChan → MemChan) : State := { s with memory := { s.memory with chans := s.memory.chans.mapVals (fun _ => {}) f } }

/-- Read, write and change a microphone channel. -/
def State.mic (s : State) (n : Nat) : Mic := s.audio.mics.get (fun _ => {}) n
def State.setMic (s : State) (n : Nat) (v : Mic) : State := { s with audio := { s.audio with mics := s.audio.mics.put (fun _ => {}) n v } }
def State.modMic (s : State) (n : Nat) (f : Mic → Mic) : State := s.setMic n (f (s.mic n))
def State.mapMics (s : State) (f : Nat → Mic → Mic) : State := { s with audio := { s.audio with mics := s.audio.mics.mapVals (fun _ => {}) f } }

/-- Read, write and change a domain's junction sensors. -/
def State.domTemp (s : State) (n : Nat) : DomainTemp := s.hull.temps.get (fun _ => {}) n
def State.setDomTemp (s : State) (n : Nat) (v : DomainTemp) : State := { s with hull := { s.hull with temps := s.hull.temps.put (fun _ => {}) n v } }
def State.modDomTemp (s : State) (n : Nat) (f : DomainTemp → DomainTemp) : State := s.setDomTemp n (f (s.domTemp n))
def State.mapDomTemps (s : State) (f : Nat → DomainTemp → DomainTemp) : State := { s with hull := { s.hull with temps := s.hull.temps.mapVals (fun _ => {}) f } }

/-- Read, write and change a tap. -/
def State.tap (s : State) (n : Nat) : Tap := s.recorder.taps.get (fun _ => {}) n
def State.setTap (s : State) (n : Nat) (v : Tap) : State := { s with recorder := { s.recorder with taps := s.recorder.taps.put (fun _ => {}) n v } }
def State.modTap (s : State) (n : Nat) (f : Tap → Tap) : State := s.setTap n (f (s.tap n))
def State.mapTaps (s : State) (f : Nat → Tap → Tap) : State := { s with recorder := { s.recorder with taps := s.recorder.taps.mapVals (fun _ => {}) f } }

/-- Change the clock. -/
def State.modClock (s : State) (f : Clock → Clock) : State := { s with clock := f s.clock }

/-- Change the servo. -/
def State.modServo (s : State) (f : Servo → Servo) : State := { s with servo := f s.servo }

/-- Change the image manager. -/
def State.modIm (s : State) (f : ImageManager → ImageManager) : State := { s with im := f s.im }

/-- Change the commits. -/
def State.modCommits (s : State) (f : Commits → Commits) : State := { s with commits := f s.commits }

/-- Change the roll. -/
def State.modRoll (s : State) (f : Roll → Roll) : State := { s with roll := f s.roll }

/-- Change the flow table. -/
def State.modFt (s : State) (f : FlowTable → FlowTable) : State := { s with ft := f s.ft }

/-- Change the pair block. -/
def State.modPair (s : State) (f : Pair → Pair) : State := { s with pair := f s.pair }

/-- Change the audio tile. -/
def State.modAudio (s : State) (f : Audio → Audio) : State := { s with audio := f s.audio }

/-- Change the memory controller. -/
def State.modMemory (s : State) (f : Memory → Memory) : State := { s with memory := f s.memory }

/-- Change the recorder. -/
def State.modRecorder (s : State) (f : Recorder → Recorder) : State := { s with recorder := f s.recorder }

/-- Change the processors, the hub and the check units. -/
def State.modCores (s : State) (f : Cores → Cores) : State := { s with cores := f s.cores }

/-- Change the MDP engine. -/
def State.modMdp (s : State) (f : Mdp → Mdp) : State := { s with mdp := f s.mdp }

/-- Change the hull side. -/
def State.modHull (s : State) (f : Hull → Hull) : State := { s with hull := f s.hull }

/-- Change the ledger tile. -/
def State.modLedger (s : State) (f : Ledger → Ledger) : State := { s with ledger := f s.ledger }

/-- Change start-up and resets. -/
def State.modStartup (s : State) (f : Startup → Startup) : State := { s with startup := f s.startup }
/-! ## Time and stamps (R2, R3, R21 to R25) -/

/-- ns since the POWER reset. -/
def State.now (s : State) : Nat := s.clock.now

/-- D0 is out of reset: phase 2 of Table 18-3 has begun. -/
def State.running (s : State) : Bool := 2 ≤ s.startup.phase

/-- Nanoseconds of a microsecond, a millisecond and a second. -/
def us (n : Nat) : Nat := 1000 * n
def ms (n : Nat) : Nat := 1000000 * n
def sec (n : Nat) : Nat := 1000000000 * n

/-- The event that was due at time `t` is due by now. -/
def State.due (s : State) (t : Nat) : Bool := t ≤ s.now

/-- A section of the configuration in force by type, target and index. -/
def findSection (cfg : List Section) (type domain tile : Nat) (index : Nat := 0) : Option Section :=
  cfg.find? fun x => x.type == type && x.domain == domain && x.tile == tile && x.index == index

/-- Its payload; empty when the configuration has none. -/
def State.payload (s : State) (type domain tile : Nat) (index : Nat := 0) : List Byte :=
  match findSection s.config type domain tile index with
  | some x => x.payload
  | none => []

/-- The configuration in force has the section. -/
def State.hasSection (s : State) (type domain tile : Nat) (index : Nat := 0) : Bool :=
  (findSection s.config type domain tile index).isSome

/-- Lines per frame and frame rate fn/fd of a raster mode (R22, Table 2-1). -/
structure RasterMode where
  lines : Nat
  fn    : Nat
  fd    : Nat
  deriving DecidableEq, Repr

/-- The mode that LINES and RATE select. -/
def rasterModeOf (lines rate : Nat) : RasterMode :=
  let l := if lines = 1 then 2250 else 1125
  match rate with
  | 0 => ⟨l, 25, 1⟩
  | 1 => ⟨l, 30000, 1001⟩
  | 2 => ⟨l, 30, 1⟩
  | 3 => ⟨l, 50, 1⟩
  | 4 => ⟨l, 60000, 1001⟩
  | _ => ⟨l, 60, 1⟩

/-- The raster mode of the boot image (R23, Table 2-6). Without a running image LINES and RATE read 0. -/
def State.mode (s : State) : RasterMode :=
  let p := s.payload 0x0101 0 1
  rasterModeOf (le p 0 1) (le p 1 1)

/-- Ticks since the epoch at `t` ns, not cut to 64 bits (R22). -/
def ticksAt (m : RasterMode) (t : Nat) : Nat := t * m.lines * m.fn * 65536 / (m.fd * 1000000000)

/-- stamp(t) of R22. -/
def stampOf (m : RasterMode) (t : Nat) : Stamp := BitVec.ofNat 64 (ticksAt m t)

/-- A time in ns expressed in ticks and rounded up. -/
def ticksUp (m : RasterMode) (ns : Nat) : Nat :=
  let d := m.fd * 1000000000
  (ns * m.lines * m.fn * 65536 + (d - 1)) / d

/-- Units of the timebase per ns: 2^-16 x 10^-6 ns each. -/
def tbUnit : Int := 65536000000

/-- The timebase's PTP time in whole ns. -/
def State.ptpNs (s : State) : Int := s.clock.timebase / tbUnit

/-- The provisional count of R24, from 0 at the release of D0: it counts on at the nominal line rate of the mode in force and keeps
what it has counted when the boot image brings the mode (log entry 13). -/
def State.provisional (s : State) : Nat :=
  if s.clock.phase2.isSome then s.clock.provTicks + ticksAt s.mode (s.now - s.clock.provAt) else 0

/-- Ticks of the raster counter, not cut to 64 bits: stamp(t) of the timebase once seeded, provisional before (R24). -/
def State.ticks (s : State) : Nat :=
  if s.clock.seeded then ticksAt s.mode s.ptpNs.toNat else s.provisional

/-- The raster counter (R2, R21). -/
def State.stamp (s : State) : Stamp := BitVec.ofNat 64 s.ticks

/-- a - b as R3 takes it. -/
def stampDiff (a b : Stamp) : Int := (a - b).toInt

/-- a is later than b (R3). -/
def later (a b : Stamp) : Bool := 0 < stampDiff a b

/-- The counter has reached stamp `a`. -/
def State.reached (s : State) (a : Stamp) : Bool := 0 ≤ stampDiff s.stamp a

/-! ## Free values -/

/-- A free bit, and the state in which the next one is another. -/
def State.freeBit (s : State) : Bool × State := (Config.freeBit s.fresh, { s with fresh := s.fresh + 1 })
/-- A free word. -/
def State.freeWord (s : State) : Word × State := (Config.freeWord s.fresh, { s with fresh := s.fresh + 1 })
/-- A free number below a bound. -/
def State.freeBelow (s : State) (n : Nat) : Nat × State := (Config.freeNat s.fresh % n, { s with fresh := s.fresh + 1 })
/-- A free integer. -/
def State.freeInt (s : State) : Int × State := (Config.freeInt s.fresh, { s with fresh := s.fresh + 1 })

/-! ## Ledger entries that units write (R381, R384, R391) -/

/-- Record `i` of FAULT_POLICY for a class: SEV and HOST (Table 17-10). -/
def State.policy (s : State) (cls : Nat) : Option (Nat × Bool) :=
  let p := s.payload 0x0E81 0 8
  ((List.range (le p 1 1)).find? fun i => le p (16 + 4 * i) 2 == cls).map fun i =>
    (le p (16 + 4 * i + 2) 1, bit (le p (16 + 4 * i + 3) 1) 0)

/-- The effective severity of a class (R391). -/
def State.effective (s : State) (c : FaultClass) : Nat :=
  match s.policy c.code with
  | some (sev, _) => max c.sev sev
  | none => c.sev

/-- A data-path address of Table 17-2: level, port, flow, channel, stripe, curd. -/
def dpAddr (level port flow channel stripe curd : Nat) : Nat :=
  level * 2 ^ 45 + port % 32 * 2 ^ 40 + flow % 2 ^ 20 * 2 ^ 20 + channel % 64 * 2 ^ 14 + stripe % 4 * 2 ^ 12 + curd % 128 * 2 ^ 5

/-- The entry a unit makes now. -/
def State.entry (s : State) (c : FaultClass) (ctrl : Nat) (data : List Byte) : Entry :=
  { stamp := s.stamp, ctrl := ctrl, cls := c.code, own := c.sev, sev := s.effective c,
    provisional := !s.clock.seeded, data := data, at_ := s.now }

/-- Put an entry into its unit's queue to the intake; while D0 is in reset nothing takes it. -/
def State.logEntry (s : State) (e : Entry) : State :=
  if s.running then { s with ledger := { s.ledger with outbox := s.ledger.outbox ++ [e] } } else s

/-- Log a class. -/
def State.log (s : State) (c : FaultClass) (ctrl : Nat) (data : List Byte) : State := s.logEntry (s.entry c ctrl data)

/-- Log a class that names outputs, each with the reason it shows (R386). -/
def State.logOut (s : State) (c : FaultClass) (ctrl dp : Nat) (outs : List (Output × Nat)) (data : List Byte) : State :=
  s.logEntry { s.entry c ctrl data with dp := dp, outs := outs, response := decide (2 ≤ s.effective c) }

/-- Log a class that concerns only the data it names. -/
def State.logData (s : State) (c : FaultClass) (ctrl dp : Nat) (data : List Byte) : State :=
  s.logEntry { s.entry c ctrl data with dp := dp, dataOnly := true }

/-- The rate record of a class and instance: occurrences since the last entry, and when that was. -/
def State.rate (s : State) (cls inst : Nat) : Option RateRec :=
  s.ledger.rates.find? fun r => r.cls == cls && r.inst == inst

/-- Log at most once per second for a class and instance; the data may hold the occurrences since the last entry, and the
entry may carry a stamp of its own. -/
def State.logRated (s : State) (c : FaultClass) (inst ctrl dp : Nat) (data : Nat → List Byte) (dataOnly : Bool := true)
    (stamp : Stamp := s.stamp) : State :=
  let old := s.rate c.code inst
  let n := match old with | some r => r.count + 1 | none => 1
  let ready := match old with | some r => decide (r.lastAt + sec 1 ≤ s.now) | none => true
  let rest := s.ledger.rates.filter fun r => !(r.cls == c.code && r.inst == inst)
  if ready then
    ({ s with ledger := { s.ledger with rates := ⟨c.code, inst, s.now, 0⟩ :: rest } } : State).logEntry
      { s.entry c ctrl (data n) with stamp := stamp, dp := dp, dataOnly := dataOnly }
  else
    { s with ledger := { s.ledger with rates := (match old with | some r => { r with count := n } | none => ⟨c.code, inst, s.now, n⟩) :: rest } }

/-- Send something. -/
def State.send (s : State) (x : Sent) : State := { s with wire := x :: s.wire }

/-- The value that a read returns. -/
def State.answer (s : State) (v : Word) : State := { s with readValue := v }

end Sys2Proof.Machine
end

