-- ==== Sys2Proof/Machine/Codec.lean ====
section
/-!
DEFINITION. The curd codec (R144 to R155): geometry of a frame, quantisation, adaptive and floor coding with their decoders,
curd headers, and the skip signature (R173).
-/

namespace Sys2Proof.Machine

/-! ## Formats and parameters -/

/-- Bit depth of a FORMAT byte (Table 6-6). -/
def depthOf (fmt : Nat) : Nat := 8 + 2 * (fmt / 4 % 4)

/-- delta(q) of Table 6-12. -/
def deltaOf (depth q : Nat) : Nat :=
  let l : List Nat := match depth with
    | 8 => [0, 1, 2, 3, 4, 5, 6, 7, 8, 10, 12, 15, 19, 24, 30, 38]
    | 10 => [0, 1, 2, 3, 5, 7, 10, 14, 19, 26, 35, 47, 63, 84, 112, 150]
    | _ => [0, 2, 5, 9, 16, 24, 40, 56, 76, 104, 140, 188, 252, 336, 448, 600]
  l.getD q 0

/-- ceil(log2 n). -/
def ceilLog (n : Nat) : Nat := if n ≤ 1 then 0 else Nat.log2 (n - 1) + 1

/-- What the coding of one curd depends on: sampling, depth and the values of R148. -/
structure Par where
  /-- 0 4:2:2, 1 4:4:4 YCbCr, 2 4:4:4 RGB -/
  sampling : Nat
  depth    : Nat
  delta    : Nat
  deriving DecidableEq, Repr

/-- Parameters of a FORMAT byte at a quality index. -/
def parOf (fmt q : Nat) : Par := ⟨fmt % 4, depthOf fmt, deltaOf (depthOf fmt) q⟩

/-- The step s, the range N, the floor width b, MAX and mid-grey of R148. -/
def Par.step (a : Par) : Nat := 2 * a.delta + 1
def Par.n (a : Par) : Nat := (2 ^ a.depth + 2 * a.delta + a.step - 1) / a.step
def Par.b (a : Par) : Nat := ceilLog a.n
def Par.max (a : Par) : Int := 2 ^ a.depth - 1
def Par.mid (a : Par) : Int := 2 ^ (a.depth - 1)

/-- Samples of a unit (Table 6-10). -/
def unitSize (sampling : Nat) : Nat := if sampling = 0 then 4 else 3

/-- Pixels of a unit. -/
def unitPixels (sampling : Nat) : Nat := if sampling = 0 then 2 else 1

/-- Plane and column of sample j of unit u (Table 6-10). -/
def sampleAt (sampling u j : Nat) : Nat × Nat :=
  if sampling = 0 then (match j with | 0 => (0, 2 * u) | 1 => (0, 2 * u + 1) | 2 => (1, u) | _ => (2, u)) else (j, u)

/-- The lead samples of a unit. -/
def leads (sampling : Nat) : List Nat := if sampling = 0 then [0, 2, 3] else [0, 1, 2]

/-- A row of units read by plane and column. -/
def rowAt (sampling : Nat) (units : List (List Int)) (p c : Nat) : Int :=
  if sampling = 0 then (if p = 0 then (units.getD (c / 2) []).getD (c % 2) 0 else (units.getD c []).getD (p + 1) 0)
  else (units.getD c []).getD p 0

/-- Plane width of a curd of `units` units. -/
def planeWidth (sampling units p : Nat) : Nat := if sampling = 0 ∧ p = 0 then 2 * units else units

/-! ## Prediction and quantisation (R149) -/

/-- The above line; mid-grey when RESTART is set. -/
def Par.up (a : Par) (above : Option (List (List Int))) (p c : Nat) : Int :=
  match above with
  | some u => rowAt a.sampling u p c
  | none => a.mid

/-- The value that val() takes: for RGB the planes above 0 are differences to plane 0. -/
def Par.val (a : Par) (row : Nat → Nat → Int) (p c : Nat) : Int :=
  if a.sampling = 2 ∧ 0 < p then row p c - row 0 c else row p c

/-- nbrs(): left, above, above-left and above-right. -/
def Par.nbrs (a : Par) (units : Nat) (up rec : Nat → Nat → Int) (p c : Nat) : Int × Int × Int × Int :=
  let b := a.val up p c
  let (l, ul) := if c = 0 then (b, b) else (a.val rec p (c - 1), a.val up p (c - 1))
  let ur := if c + 1 = planeWidth a.sampling units p then b else a.val up p (c + 1)
  (l, b, ul, ur)

/-- clamp(x, 0, MAX). -/
def Par.clamp (a : Par) (x : Int) : Int := if x < 0 then 0 else if a.max < x then a.max else x

/-- predict(). -/
def Par.predict (a : Par) (rec : Nat → Nat → Int) (p c : Nat) (aq bq cq : Int) : Int :=
  let m := if Max.max aq bq ≤ cq then Min.min aq bq else if cq ≤ Min.min aq bq then Max.max aq bq else aq + bq - cq
  a.clamp (if a.sampling = 2 ∧ 0 < p then m + rec 0 c else m)

/-- quantise(). -/
def Par.quantise (a : Par) (x pred sign : Int) : Int :=
  let e := sign * (x - pred)
  let d : Int := a.delta
  let s : Int := a.step
  let n : Int := a.n
  let q := if 0 ≤ e then (e + d) / s else -((d - e) / s)
  let q := if q < 0 then q + n else q
  if (n + 1) / 2 ≤ q then q - n else q

/-- reconstruct(). -/
def Par.reconstruct (a : Par) (pred sign qe : Int) : Int :=
  let s : Int := a.step
  let n : Int := a.n
  let r := pred + sign * qe * s
  let r := if r < -(a.delta : Int) then r + n * s else if a.max + a.delta < r then r - n * s else r
  a.clamp r

/-! ## Contexts (R150, R151) -/

/-- level(). -/
def Par.level (a : Par) (g : Int) : Int :=
  let d : Int := a.delta
  let t : Int := 4 * a.delta + 2 ^ (a.depth - 5)
  if g ≤ -t then -2 else if g < -d then -1 else if g ≤ d then 0 else if g < t then 1 else 2

/-- The three gradient levels. -/
def Par.gradients (a : Par) (n : Int × Int × Int × Int) : Int × Int × Int :=
  (a.level (n.2.2.2 - n.2.1), a.level (n.2.1 - n.2.2.1), a.level (n.2.2.1 - n.1))

/-- context(): number and sign. -/
def Par.context (a : Par) (n : Int × Int × Int × Int) : Nat × Int :=
  let (q1, q2, q3) := a.gradients n
  let neg := q1 < 0 || (q1 == 0 && (q2 < 0 || (q2 == 0 && q3 < 0)))
  let (q1, q2, q3, sign) : Int × Int × Int × Int := if neg then (-q1, -q2, -q3, -1) else (q1, q2, q3, 1)
  ((25 * (q1 + 2) + 5 * (q2 + 2) + (q3 + 2)).toNat, sign)

/-- Error sum A and count NC of a context at the start of a curd. -/
def Par.ctx0 (a : Par) : Nat × Nat := (Nat.max 2 ((a.n + 32) / 64), 1)

/-- golomb_k(). -/
def golombK (b : Nat) (e : Nat × Nat) : Nat :=
  ((List.range b).find? fun k => decide (e.1 ≤ e.2 * 2 ^ k)).getD b

/-- map() and unmap(). -/
def mapQe (q : Int) : Nat := if 0 ≤ q then (2 * q).toNat else (-2 * q - 1).toNat
def unmapQe (m : Nat) : Int := if m % 2 = 0 then (m / 2 : Nat) else -(((m + 1) / 2 : Nat) : Int)

/-- update(). -/
def updateCtx (e : Nat × Nat) (qe : Int) : Nat × Nat :=
  let a := e.1 + qe.natAbs
  if e.2 = 32 then (a / 2, 17) else (a, e.2 + 1)

/-! ## Bits -/

/-- A number in `n` bits, most significant first. -/
def toBits : Nat → Nat → List Bool
  | 0, _ => []
  | n + 1, v => (v / 2 ^ n % 2 == 1) :: toBits n v

/-- The number that bits spell. -/
def ofBits (l : List Bool) : Nat := l.foldl (fun v b => 2 * v + b2n b) 0

/-- Bits packed into bytes, the last padded with zeros. -/
def packBits : Nat → List Bool → List Byte
  | 0, _ => []
  | _, [] => []
  | f + 1, l => BitVec.ofNat 8 (ofBits ((l ++ List.replicate 8 false).take 8)) :: packBits f (l.drop 8)

/-- Bytes of a bit string. -/
def bytesOfBits (l : List Bool) : List Byte := packBits (l.length + 1) l

/-- Bits of bytes. -/
def bitsOf (p : List Byte) : List Bool := p.flatMap fun b => toBits 8 b.toNat

/-- Take `n` bits; none past the last one. -/
def readBits (n : Nat) (l : List Bool) : Option (Nat × List Bool) :=
  if n ≤ l.length then some (ofBits (l.take n), l.drop n) else none

/-! ## Coding -/

/-- Coder and decoder state within one curd. -/
structure CodeSt where
  /-- complete units, and the samples of the unit in progress -/
  done : List (List Int) := []
  cur  : List Int := []
  /-- contexts: 125 x plane + context -/
  ctx  : Sparse (Nat × Nat) := []
  ri   : Nat := 0
  deriving DecidableEq, Repr

/-- rec(p, c). -/
def CodeSt.rec' (st : CodeSt) (a : Par) : Nat → Nat → Int := rowAt a.sampling (st.done ++ [st.cur])

/-- Append a sample to the unit in progress; a full unit is done. -/
def CodeSt.push (st : CodeSt) (a : Par) (x : Int) : CodeSt :=
  let cur := st.cur ++ [x]
  if cur.length = unitSize a.sampling then { st with done := st.done ++ [cur], cur := [] } else { st with cur := cur }

/-- J of R152. -/
def runJ (ri : Nat) : Nat := ([0, 0, 0, 1, 1, 2, 2, 3, 3, 4, 4, 5, 5, 6, 7, 8] : List Nat).getD ri 8

/-- The unit may enter run mode: all gradients of its lead samples are at level 0 (R152). -/
def CodeSt.flat (st : CodeSt) (a : Par) (units : Nat) (above : Option (List (List Int))) : Bool :=
  (leads a.sampling).all fun j =>
    let (p, c) := sampleAt a.sampling st.done.length j
    a.gradients (a.nbrs units (a.up above) (st.rec' a) p c) == (0, 0, 0)

/-- The unit whose samples all have their run value. -/
def CodeSt.runUnit (st : CodeSt) (a : Par) (above : Option (List (List Int))) : List Int :=
  let u := st.done.length
  (List.range (unitSize a.sampling)).map fun j =>
    let (p, c) := sampleAt a.sampling u j
    let c0 := if a.sampling = 0 ∧ p = 0 then 2 * u else c
    if c0 = 0 then a.up above p 0 else st.rec' a p (c0 - 1)

/-- Code one sample with a Golomb-Rice code (R151). -/
def CodeSt.putSample (st : CodeSt) (a : Par) (units : Nat) (above : Option (List (List Int))) (x : Int) : List Bool × CodeSt :=
  let (p, c) := sampleAt a.sampling st.done.length st.cur.length
  let n := a.nbrs units (a.up above) (st.rec' a) p c
  let (i, sign) := a.context n
  let key := 125 * p + i
  let e := st.ctx.get (fun _ => a.ctx0) key
  let k := golombK a.b e
  let pred := a.predict (st.rec' a) p c n.1 n.2.1 n.2.2.1
  let qe := a.quantise x pred sign
  let m := mapQe qe
  let bits := if m / 2 ^ k < 16 then List.replicate (m / 2 ^ k) false ++ [true] ++ toBits k m
    else List.replicate 16 false ++ [true] ++ toBits a.b m
  (bits, ({ st with ctx := st.ctx.put (fun _ => a.ctx0) key (updateCtx e qe) }).push a (a.reconstruct pred sign qe))

/-- Code every sample of a unit regular. -/
def CodeSt.putUnit (st : CodeSt) (a : Par) (units : Nat) (above : Option (List (List Int))) (unit : List Int) :
    List Bool × CodeSt :=
  unit.foldl (fun r x => let y := r.2.putSample a units above x; (r.1 ++ y.1, y.2)) ([], st)

/-- The ones of a run length (R152): bits, what remains, and the index. -/
def runOnes : Nat → Nat → Nat → List Bool × Nat × Nat
  | 0, rem, ri => ([], rem, ri)
  | f + 1, rem, ri =>
    if 2 ^ runJ ri ≤ rem then
      let y := runOnes f (rem - 2 ^ runJ ri) (if ri < 15 then ri + 1 else ri)
      (true :: y.1, y.2)
    else ([], rem, ri)

/-- Code the units of a curd adaptively (R150 to R153). -/
def codeUnits (a : Par) (units : Nat) (above : Option (List (List Int))) : Nat → List (List Int) → CodeSt → List Bool × CodeSt
  | 0, _, st => ([], st)
  | _, [], st => ([], st)
  | f + 1, x :: r, st =>
    if st.flat a units above then
      let v := st.runUnit a above
      let near (u : List Int) : Bool := (u.zip v).all fun e => (e.1 - e.2).natAbs ≤ a.delta
      let n := ((x :: r).takeWhile near).length
      let rest := (x :: r).drop n
      let (ones, rem, ri) := runOnes (n + 1) n st.ri
      let st := { st with done := st.done ++ List.replicate n v, ri := ri }
      match rest with
      | [] => (ones ++ (if 0 < rem then [true] else []), st)
      | y :: t =>
        let bits := ones ++ [false] ++ toBits (runJ ri) rem
        let z := ({ st with ri := ri - 1 }).putUnit a units above y
        let w := codeUnits a units above f t z.2
        (bits ++ z.1 ++ w.1, w.2)
    else
      let z := st.putUnit a units above x
      let w := codeUnits a units above f r z.2
      (z.1 ++ w.1, w.2)

/-- The adaptive candidate of a curd: payload and reconstruction. -/
def codeAdaptive (a : Par) (above : Option (List (List Int))) (source : List (List Int)) : List Byte × List (List Int) :=
  let y := codeUnits a source.length above source.length source {}
  (bytesOfBits y.1, y.2.done)

/-- Code one sample in b bits (R154). -/
def CodeSt.putFloor (st : CodeSt) (a : Par) (units : Nat) (above : Option (List (List Int))) (x : Int) : List Bool × CodeSt :=
  let (p, c) := sampleAt a.sampling st.done.length st.cur.length
  let n := a.nbrs units (a.up above) (st.rec' a) p c
  let pred := a.predict (st.rec' a) p c n.1 n.2.1 n.2.2.1
  let qe := a.quantise x pred 1
  let v := if qe < 0 then (qe + a.n).toNat else qe.toNat
  (toBits a.b v, st.push a (a.reconstruct pred 1 qe))

/-- The floor candidate of a curd. -/
def codeFloor (a : Par) (above : Option (List (List Int))) (source : List (List Int)) : List Byte × List (List Int) :=
  let y := source.flatten.foldl (fun (r : List Bool × CodeSt) x =>
    let z := r.2.putFloor a source.length above x; (r.1 ++ z.1, z.2)) ([], {})
  (bytesOfBits y.1, y.2.done)

/-! ## Decoding (R153, R154): none when the curd is damaged -/

/-- Count the zeros before a one, at most 16. -/
def readZeros : Nat → List Bool → Option (Nat × List Bool)
  | _, [] => none
  | _, true :: r => some (0, r)
  | 0, false :: _ => none
  | f + 1, false :: r => (readZeros f r).map fun y => (y.1 + 1, y.2)

/-- regular(p, c). -/
def CodeSt.getSample (st : CodeSt) (a : Par) (units : Nat) (above : Option (List (List Int))) (l : List Bool) :
    Option (CodeSt × List Bool) :=
  let (p, c) := sampleAt a.sampling st.done.length st.cur.length
  let n := a.nbrs units (a.up above) (st.rec' a) p c
  let (i, sign) := a.context n
  let key := 125 * p + i
  let e := st.ctx.get (fun _ => a.ctx0) key
  let k := golombK a.b e
  match readZeros 16 l with
  | none => none
  | some (z, l) =>
    match (if z < 16 then (readBits k l).map fun y => (z * 2 ^ k + y.1, y.2) else readBits a.b l) with
    | none => none
    | some (m, l) =>
      if a.n ≤ m then none
      else
        let qe := unmapQe m
        let x := a.reconstruct (a.predict (st.rec' a) p c n.1 n.2.1 n.2.2.1) sign qe
        some (({ st with ctx := st.ctx.put (fun _ => a.ctx0) key (updateCtx e qe) }).push a x, l)

/-- `n` regular samples. -/
def CodeSt.getSamples (a : Par) (units : Nat) (above : Option (List (List Int))) : Nat → CodeSt → List Bool → Option (CodeSt × List Bool)
  | 0, st, l => some (st, l)
  | n + 1, st, l => match st.getSample a units above l with
    | none => none
    | some (st, l) => CodeSt.getSamples a units above n st l

/-- The inner loop of R153: a run from the current unit. -/
def getRun (a : Par) (units : Nat) (above : Option (List (List Int))) : Nat → CodeSt → List Bool → Option (CodeSt × List Bool)
  | 0, _, _ => none
  | _, _, [] => none
  | f + 1, st, true :: l =>
    let j := 2 ^ runJ st.ri
    let cnt := min j (units - st.done.length)
    let st' := { st with done := st.done ++ List.replicate cnt (st.runUnit a above),
                         ri := if cnt = j ∧ st.ri < 15 then st.ri + 1 else st.ri }
    if st'.done.length = units then some (st', l) else getRun a units above f st' l
  | _ + 1, st, false :: l =>
    match readBits (runJ st.ri) l with
    | none => none
    | some (r, l) =>
      if units ≤ st.done.length + r then none
      else
        CodeSt.getSamples a units above (unitSize a.sampling)
          { st with done := st.done ++ List.replicate r (st.runUnit a above), ri := st.ri - 1 } l

/-- The outer loop of R153. -/
def getUnits (a : Par) (units : Nat) (above : Option (List (List Int))) : Nat → CodeSt → List Bool → Option (CodeSt × List Bool)
  | 0, st, l => some (st, l)
  | f + 1, st, l =>
    if units ≤ st.done.length then some (st, l)
    else
      match (if st.flat a units above then getRun a units above (units + 1) st l
             else CodeSt.getSamples a units above (unitSize a.sampling) st l) with
      | none => none
      | some (st, l) => getUnits a units above f st l

/-- decode_adaptive(). -/
def decodeAdaptive (a : Par) (units : Nat) (above : Option (List (List Int))) (p : List Byte) : Option (List (List Int)) :=
  match getUnits a units above (units + 1) {} (bitsOf p) with
  | none => none
  | some (st, l) => if 8 ≤ l.length || l.any id then none else some st.done

/-- Floor samples. -/
def getFloor (a : Par) (units : Nat) (above : Option (List (List Int))) : Nat → CodeSt → List Bool → Option (CodeSt × List Bool)
  | 0, st, l => some (st, l)
  | n + 1, st, l =>
    match readBits a.b l with
    | none => none
    | some (v, l) =>
      if a.n ≤ v then none
      else
        let (p, c) := sampleAt a.sampling st.done.length st.cur.length
        let nb := a.nbrs units (a.up above) (st.rec' a) p c
        let qe : Int := if v ≤ (a.n - 1) / 2 then v else (v : Int) - a.n
        getFloor a units above n (st.push a (a.reconstruct (a.predict (st.rec' a) p c nb.1 nb.2.1 nb.2.2.1) 1 qe)) l

/-- Bytes of a floor payload: ceil(S x b / 8). -/
def floorBytes (a : Par) (units : Nat) : Nat := (unitSize a.sampling * units * a.b + 7) / 8

/-- decode_floor(). -/
def decodeFloor (a : Par) (units : Nat) (above : Option (List (List Int))) (p : List Byte) : Option (List (List Int)) :=
  if p.length ≠ floorBytes a units then none
  else match getFloor a units above (unitSize a.sampling * units) {} (bitsOf p) with
    | none => none
    | some (st, l) => if l.any id then none else some st.done

/-- The bound of R155: ceil(S x B / 8). -/
def curdBound (fmt units : Nat) : Nat := (unitSize (fmt % 4) * units * depthOf fmt + 7) / 8

/-! ## Curd headers (Table 6-4) -/

/-- The fields of a curd header. -/
structure CurdHead where
  line    : Nat
  stripe  : Nat
  index   : Nat
  q       : Nat := 0
  restart : Bool := false
  void    : Bool := false
  floor   : Bool := false
  zone    : Bool := false
  length  : Nat := 0
  deriving DecidableEq, Repr

/-- Its 6 bytes. -/
def CurdHead.bytes (h : CurdHead) : List Byte :=
  beBytes 6 (h.line * 2 ^ 35 + h.stripe * 2 ^ 33 + h.index * 2 ^ 26 + h.q * 2 ^ 22 + 2 ^ 21 * b2n h.restart +
    2 ^ 20 * b2n h.void + 2 ^ 19 * b2n h.floor + 2 ^ 18 * b2n h.zone + h.length)

/-- A curd header read from a record's first 6 bytes. -/
def readHead (p : List Byte) : CurdHead :=
  let v := be p 0 6
  { line := v / 2 ^ 35, stripe := v / 2 ^ 33 % 4, index := v / 2 ^ 26 % 128, q := v / 2 ^ 22 % 16, restart := bit v 21,
    void := bit v 20, floor := bit v 19, zone := bit v 18, length := v % 65536 }

/-- Position rule: a curd at a restart position (R145). -/
def restartPos (v line k : Nat) : Bool := line == 0 || (line + k) % v == 0

/-- Decode a record as a receiver does; none when it is damaged (R145, R148, R150 to R155). -/
def decodeCurd (fmt v units : Nat) (above : Option (List (List Int))) (h : CurdHead) (payload : List Byte) :
    Option (List (List Int)) :=
  if h.zone && h.q != 0 then none
  else if restartPos v h.line h.index && !h.restart then none
  else if h.length ≠ payload.length ∨ curdBound fmt units < h.length then none
  else
    let a := parOf fmt h.q
    let up := if h.restart then none else above
    if h.floor then decodeFloor a units up payload else decodeAdaptive a units up payload

/-! ## Geometry (R144) -/

/-- Stripes, curd size and line count of a picture. -/
structure Geometry where
  width  : Nat
  height : Nat
  fmt    : Nat
  curd   : Nat
  sw     : List Nat
  deriving DecidableEq, Repr

/-- Curds of a stripe line. -/
def Geometry.curds (g : Geometry) (s : Nat) : Nat :=
  if g.curd = 0 then 0 else (g.sw.getD s 0 + g.curd - 1) / g.curd

/-- Pixels of curd k of stripe s. -/
def Geometry.pixels (g : Geometry) (s k : Nat) : Nat := min g.curd (g.sw.getD s 0 - k * g.curd)

/-- Units of curd k of stripe s. -/
def Geometry.units (g : Geometry) (s k : Nat) : Nat := g.pixels s k / unitPixels (g.fmt % 4)

/-- First column of stripe s. -/
def Geometry.x0 (g : Geometry) (s : Nat) : Nat := (g.sw.take s).sum

/-- The stripe of a column. -/
def Geometry.stripeOf (g : Geometry) (x : Nat) : Nat :=
  ((List.range g.sw.length).find? fun s => decide (x < g.x0 s + g.sw.getD s 0)).getD 0

/-- Curd positions of a line: stripe and index, in raster order. -/
def Geometry.positions (g : Geometry) : List (Nat × Nat) :=
  (List.range g.sw.length).flatMap fun s => (List.range (g.curds s)).map fun k => (s, k)

/-- Stripe widths that keep Table 6-6. -/
def stripesOk (width stripes : Nat) (sw : List Nat) : Bool :=
  (stripes == 1 || stripes == 2 || stripes == 4) &&
  (sw.take stripes).all (fun w => 16 ≤ w && w ≤ 4096 && w % 16 == 0) && (sw.drop stripes).all (fun w => w == 0) && sw.sum == width

/-! ## Skip signatures (R173): SipHash-2-4 with a 128-bit output -/

/-- Rotate left. -/
def rotl (x : BitVec 64) (n : Nat) : BitVec 64 := x.rotateLeft n

/-- One SipRound. -/
def sipRound (v : BitVec 64 × BitVec 64 × BitVec 64 × BitVec 64) : BitVec 64 × BitVec 64 × BitVec 64 × BitVec 64 :=
  let (v0, v1, v2, v3) := v
  let v0 := v0 + v1
  let v1 := rotl v1 13 ^^^ v0
  let v0 := rotl v0 32
  let v2 := v2 + v3
  let v3 := rotl v3 16 ^^^ v2
  let v0 := v0 + v3
  let v3 := rotl v3 21 ^^^ v0
  let v2 := v2 + v1
  let v1 := rotl v1 17 ^^^ v2
  let v2 := rotl v2 32
  (v0, v1, v2, v3)

/-- Absorb one message word. -/
def sipWord (v : BitVec 64 × BitVec 64 × BitVec 64 × BitVec 64) (m : BitVec 64) : BitVec 64 × BitVec 64 × BitVec 64 × BitVec 64 :=
  let (v0, v1, v2, v3) := sipRound (sipRound (v.1, v.2.1, v.2.2.1, v.2.2.2 ^^^ m))
  (v0 ^^^ m, v1, v2, v3)

/-- The 128-bit hash of a message under key words k0 and k1. -/
def sipHash (k0 k1 : Nat) (p : List Byte) : Nat :=
  let k0 := BitVec.ofNat 64 k0
  let k1 := BitVec.ofNat 64 k1
  let v := (k0 ^^^ 0x736F6D6570736575, k1 ^^^ 0x646F72616E646F6D ^^^ 0xEE, k0 ^^^ 0x6C7967656E657261, k1 ^^^ 0x7465646279746573)
  let n := p.length
  let v := (List.range (n / 8)).foldl (fun v i => sipWord v (BitVec.ofNat 64 (le p (8 * i) 8))) v
  let v := sipWord v (BitVec.ofNat 64 (le p (n / 8 * 8) (n % 8) + n % 256 * 2 ^ 56))
  let fin (v : BitVec 64 × BitVec 64 × BitVec 64 × BitVec 64) := sipRound (sipRound (sipRound (sipRound v)))
  let x (v : BitVec 64 × BitVec 64 × BitVec 64 × BitVec 64) : BitVec 64 := v.1 ^^^ v.2.1 ^^^ v.2.2.1 ^^^ v.2.2.2
  let v := fin (v.1, v.2.1, v.2.2.1 ^^^ 0xEE, v.2.2.2)
  let w := fin (v.1, v.2.1 ^^^ 0xDD, v.2.2.1, v.2.2.2)
  (x v).toNat + 2 ^ 64 * (x w).toNat

/-- The message of a curd's signature: every source sample in 2 bytes. -/
def sigMessage (source : List (List Int)) : List Byte := source.flatten.flatMap fun x => leBytes 2 x.toNat

end Sys2Proof.Machine
end

