-- ==== Sys2Proof/Machine/Flags.lean ====
section
/-!
DEFINITION. Event flags and interrupt counts: the EVENTS bits of every block, the hub's sources with their counts, and the
arbitration that decides where a source is delivered (R325 to R329).
-/

namespace Sys2Proof.Machine

/-- The interrupt source of the block that holds an EVENTS register (Table 14-4). The pair block lies in the brine store
tile; the channel blocks of an egress tile count on the tile's source. -/
def eventSource (events : Nat) : Option Nat :=
  match layoutOf events with
  | some (.timeL, _) => some 1
  | some (.imL, _) => some 11
  | some (.ledL, _) => some 12
  | some (.safeL, _) => some 13
  | some (.mdpL, _) => some 14
  | some (.hullL, _) => some 15
  | some (.memL, _) => some 16
  | some (.coreL, _) => some 17
  | some (.spL, _) => some 18
  | some (.pgL, g) => some (19 + g)
  | some (.igL, g) => some (23 + g)
  | some (.ftL, _) => some 27
  | some (.coderL, k) => some (28 + k)
  | some (.egL, e) => some (80 + e)
  | some (.ccL, n) => some (80 + n / 48)
  | some (.brineL, _) => some 84
  | some (.pairL, _) => some 84
  | some (.rindL, c) => some (85 + c)
  | some (.headL, h) => some (133 + h)
  | some (.scL, n) => some (149 + n)
  | some (.rdL, n) => some (181 + n)
  | some (.auL, _) => some 245
  | some (.recL, _) => some 246
  | _ => none

/-- State of target 0 to 3 (TC0 to TC3) or 4 (SP) as the hub sees it (R322, Table 14-3). -/
def State.targetState (s : State) (t : Nat) : CoreState :=
  if t = 4 then s.cores.sp.state else (s.tc t).state

/-- A source may be delivered to `t`: it is ACTIVE, or SLEEP and the source may wake it (R327). -/
def State.takes (s : State) (x : IrqSource) (t : Nat) : Bool :=
  match s.targetState t with
  | .active => true
  | .sleep => x.wake || t == 4
  | _ => false

/-- The effective target of a source (R327). -/
def State.effectiveTarget (s : State) (x : IrqSource) : Option Nat :=
  if s.takes x x.target then some x.target
  else if s.takes x x.fallback then some x.fallback
  else none

/-- THRESHOLD of a target. -/
def State.threshold (s : State) (t : Nat) : Nat := s.cores.thresholds.get (fun _ => 0) t

/-- The source waits: it has a count, is not in service, not masked and not of priority 0. -/
def IrqSource.waits (x : IrqSource) : Bool := 0 < x.count && x.service.isNone && !x.mask && 0 < x.prio

/-- The source is eligible at target `t` (R327). -/
def State.eligible (s : State) (x : IrqSource) (t : Nat) : Bool :=
  x.waits && s.effectiveTarget x == some t && s.threshold t < x.prio

/-- The eligible source of highest priority at a target, ties to the lowest number; 0 when there is none (R328). -/
def State.topSource (s : State) (t : Nat) : Nat :=
  (s.cores.sources.foldl (fun (best : Nat × Nat) e =>
    if s.eligible e.2 t && best.2 < e.2.prio then (e.1, e.2.prio) else best) (0, 0)).1

/-- Wake a sleeping target. -/
def State.wakeTarget (s : State) (t : Nat) : State :=
  if s.targetState t = .sleep then
    if t = 4 then { s with cores := { s.cores with sp := { s.cores.sp with state := .active } } }
    else s.modTc t fun c => { c with state := .active }
  else s

/-- One arbitration (R327): a delivery wakes its sleeping target, and the time since when a waiting source has had no
effective target is kept. -/
def State.arbitrate (s : State) : State :=
  let s := s.cores.sources.foldl (fun s e =>
    match s.effectiveTarget e.2 with
    | some t => if s.eligible e.2 t then s.wakeTarget t else s
    | none => s) s
  s.mapSources fun _ x =>
    if x.waits && (s.effectiveTarget x).isNone then { x with noTarget := some (x.noTarget.getD s.now) }
    else { x with noTarget := none, noTargetLogged := false }

/-- One event of a source (R325, R326): the count saturates at 255; an event at 255 is lost, sets SAT and is logged once
until SAT is cleared. Source 0 and the reserved sources never count. -/
def State.irqCount (s : State) (n : Nat) : State :=
  if n = 0 ∨ 286 < n then s
  else
    let x := s.source n
    if x.count < 255 then (s.setSource n { x with count := x.count + 1 }).arbitrate
    else
      let s := (s.count R.hub_SATURATED).setSource n { x with sat := true, satAt := some s.now }
      if x.sat then s else (s.log F.IRQ_SATURATED R.src (leBytes 2 n)).arbitrate

/-- EVENTS bits that hardware has set in this cycle. -/
def State.setBits (s : State) (events : Nat) : Word :=
  let x : Nat × Word := s.setNow.get (fun _ => (0, 0)) events
  if x.1 = s.now then x.2 else 0

/-- Set bits of an EVENTS register; EVENT_EN lies in the next word. When a bit that is enabled becomes 1, the block's source
counts one event, once per cycle (R325). -/
def State.event (s : State) (events mask : Nat) : State :=
  let old := s.reg events
  let new := old ||| w32 mask
  let rising := new &&& ~~~old &&& s.reg (events + 4)
  let s : State := { s with setNow := s.setNow.put (fun _ => (0, 0)) events (s.now, s.setBits events ||| w32 mask) }
  let s := s.setReg events new
  match eventSource events with
  | some n =>
    if rising ≠ 0 ∧ (s.source n).counted ≠ some s.now then
      (s.modSource n fun x => { x with counted := some s.now }).irqCount n
    else s
  | none => s

/-- A write of EVENTS: each 1 clears its bit, but for a bit that hardware sets in the same cycle (R6). -/
def State.eventClear (s : State) (events : Nat) (ones : Word) : State :=
  s.setReg events (s.reg events &&& (~~~ones ||| s.setBits events))

/-- A write of EVENT_EN: an enable bit that becomes 1 while its EVENTS bit is 1 counts as one event (R325). -/
def State.eventEnable (s : State) (enable : Nat) (value : Word) : State :=
  let rising := value &&& ~~~(s.reg enable) &&& s.reg (enable - 4)
  let s := s.setReg enable value
  match eventSource enable with
  | some n =>
    if rising ≠ 0 ∧ (s.source n).counted ≠ some s.now then
      (s.modSource n fun x => { x with counted := some s.now }).irqCount n
    else s
  | none => s

/-- When a target enters RESTARTING every source in service for it leaves service and its count rises by 1, saturating
(R329). -/
def State.leaveService (s : State) (t : Nat) : State :=
  (s.mapSources fun _ x =>
    if x.service == some t then { x with service := none, count := min 255 (x.count + 1) } else x).arbitrate

end Sys2Proof.Machine
end

