-- ==== Sys2Proof/Machine/Operands.lean ====
section
/-!
DEFINITION. What the commands work on: the fields of the image sections in force (Tables 4-3 to 13-7), the paths and periods
of the outputs, and the ports that exist in a port-group mode.
-/

namespace Sys2Proof.Machine

/-- a / b rounded up. -/
def ceilDiv (a b : Nat) : Nat := (a + (b - 1)) / b

/-! ## Port groups and lanes (Tables 4-1, 4-3 to 4-5) -/

/-- Ports of a group in a mode of Table 4-1. -/
def portsOfMode (mode : Nat) : Nat := 2 ^ (mode % 4)

/-- MODE of a port group. -/
def State.groupMode (s : State) (g : Nat) : Nat := le (s.payload 0x0201 1 g) 0 1

/-- The port exists: a management port, or one that its group's mode has (R85). -/
def State.portExists (s : State) (p : Nat) : Bool :=
  p == 32 || p == 33 || (p < 32 && s.hasSection 0x0201 1 (p / 8) && p % 8 < portsOfMode (s.groupMode (p / 8)))

/-- Field of a media port's record in PORT_GROUP_MODE. -/
def State.portField (s : State) (p off n : Nat) : Nat := le (s.payload 0x0201 1 (p / 8)) (16 + 32 * (p % 8) + off) n

/-- Lanes of a port (R85). -/
def State.lanesOf (s : State) (p : Nat) : List Nat :=
  if 32 ≤ p then [p]
  else
    let w := 8 / portsOfMode (s.groupMode (p / 8))
    (List.range w).map fun i => p / 8 * 8 + p % 8 * w + i

/-- The port of a lane. -/
def State.portOfLane (s : State) (l : Nat) : Nat :=
  if 32 ≤ l then l else l / 8 * 8 + l % 8 / (8 / portsOfMode (s.groupMode (l / 8)))

/-- The record of a lane in LANE_SETTINGS; its default values without one (Table 4-4). -/
def State.laneRecord (s : State) (l : Nat) : List Byte :=
  if l < 32 && s.hasSection 0x0202 1 (l / 8) then (((s.payload 0x0202 1 (l / 8)).drop (8 * (l % 8))).take 8)
  else [0xFC, 52, 0xF8, 0, 48, 0, 0, 0]

/-- FOM_MIN of a lane (R89). -/
def State.fomMin (s : State) (l : Nat) : Nat := le (s.laneRecord l) 4 1

/-- The PAIR_LINK section, which lies in the tile of PORT_A's group (Table 4-5). -/
def State.pairLink (s : State) : List Byte :=
  match s.config.find? fun x => x.type == 0x0203 with
  | some x => x.payload
  | none => []

/-- PORT_A and PORT_B of an enabled pair link. -/
def State.pairPorts (s : State) : List Nat :=
  let p := s.pairLink
  if bit (le p 2 1) 0 then le p 0 1 :: (if le p 1 1 = 0xFF then [] else [le p 1 1]) else []

/-! ## Channels, heads and audio flows -/

/-- Field of a channel's CHANNEL section in effect (Table 7-1, R165). -/
def State.chanField (s : State) (c off n : Nat) : Nat := le (s.chan c).plan off n

/-- ENABLE of a channel; a channel without a section has none. -/
def State.chanOn (s : State) (c : Nat) : Bool := bit (s.chanField c 0 1) 0

/-- PATH_B of a channel: it is sent on two paths. -/
def State.chanTwoPaths (s : State) (c : Nat) : Bool := bit (s.chanField c 0 1) 2

/-- Ports of a channel: path A, and path B when it has one. -/
def State.chanPorts (s : State) (c : Nat) : List Nat :=
  s.chanField c 40 1 :: (if s.chanTwoPaths c then [s.chanField c 64 1] else [])

/-- Frame period of a channel in ns: fd/fn. -/
def State.chanPeriod (s : State) (c : Nat) : Nat := s.chanField c 10 2 * 1000000000 / s.chanField c 8 2

/-- A section of a head (D5 for H0 to H7, D6 for H8 to H15). -/
def State.headPayload (s : State) (type h : Nat) : List Byte := s.payload type (5 + h / 8) (h % 8)

/-- ENABLE of a head (Table 10-5). -/
def State.headOn (s : State) (h : Nat) : Bool := bit (le (s.headPayload 0x0681 h) 0 1) 0

/-- Ports of a head's output flow (Table 10-7). -/
def State.headPorts (s : State) (h : Nat) : List Nat :=
  let p := s.headPayload 0x0683 h
  if p.isEmpty then [] else le p 16 1 :: (if bit (le p 0 1) 0 then [le p 40 1] else [])

/-- Frame period of a head in ns. -/
def State.headPeriod (s : State) (h : Nat) : Nat :=
  let p := s.headPayload 0x0681 h
  le p 10 2 * 1000000000 / le p 8 2

/-- Field of a capture group (Table 11-6). -/
def State.groupField (s : State) (g off n : Nat) : Nat := le (s.payload 0x0701 7 0) (64 * g + off) n

/-- The group is enabled and sends an audio flow. -/
def State.audioOn (s : State) (g : Nat) : Bool := bit (s.groupField g 0 1) 0 && bit (s.groupField g 0 1) 1

/-- Ports of an audio flow. -/
def State.audioPorts (s : State) (g : Nat) : List Nat :=
  s.groupField g 12 1 :: (if bit (s.groupField g 0 1) 2 then [s.groupField g 36 1] else [])

/-- The enabled outputs of the configuration with the ports they are sent on. -/
def State.enabledOutputs (s : State) : List (Output × List Nat) :=
  ((List.range 48).filter s.chanOn).map (fun c => (Output.channel c, s.chanPorts c)) ++
  ((List.range 16).filter s.headOn).map (fun h => (Output.head h, s.headPorts h)) ++
  ((List.range 2).filter s.audioOn).map (fun g => (Output.audio g, s.audioPorts g))

/-- Longest frame period of the enabled channels and heads, 1 ms for an audio flow. -/
def State.slowestPeriod (s : State) : Nat :=
  let cs := ((List.range 48).filter s.chanOn).map s.chanPeriod
  let hs := ((List.range 16).filter s.headOn).map s.headPeriod
  (cs ++ hs).foldl max (ms 1)

/-- The sections of a configuration that have a type. -/
def sectionsOf (cfg : List Section) (type : Nat) : List Section := cfg.filter fun x => x.type == type

/-! ## Pair plan and witness (Tables 8-8 to 8-10) -/

def State.claimField (s : State) (off n : Nat) : Nat := le (s.payload 0x0501 4 8) off n
def State.pairField (s : State) (off n : Nat) : Nat := le (s.payload 0x0502 4 8) off n
def State.witnessField (s : State) (off n : Nat) : Nat := le (s.payload 0x0503 4 8) off n

/-- Pair mode: PAIR_PLAN.ENABLE (R205). -/
def State.pairMode (s : State) : Bool := bit (s.pairField 0 1) 0

/-! ## Surfaces and liveness tiles (Tables 5-6 to 5-8) -/

/-- Record of `size` bytes in a list section whose count has `cb` bytes and whose records begin at 4. -/
def records (p : List Byte) (cb size : Nat) : List (List Byte) :=
  (List.range (le p 0 cb)).map fun i => (p.drop (4 + size * i)).take size

/-- The record of a channel in INPUT_FORMATS of an ingress tile. -/
def State.inputFormat (s : State) (t c : Nat) : Option (List Byte) :=
  (records (s.payload 0x0302 1 (4 + t)) 1 16).find? fun r => le r 0 1 == c

/-- The record of a surface in any ingress tile, with the tile. -/
def State.surfacePlan (s : State) (n : Nat) : Option (Nat × List Byte) :=
  (List.range 4).findSome? fun t =>
    ((records (s.payload 0x0304 1 (4 + t)) 2 32).find? fun r => le r 0 2 == n).map fun r => (t, r)

end Sys2Proof.Machine
end

