-- ==== Sys2Proof/Machine/Net.lean ====
section
/-!
DEFINITION. Ports as the network sees them (R87, R103, R357), the internet packets that the ZH48 forms (R26, R102, R132, R180, Table
7-2), and how frames other than curd-stream packets share a port with those (R183).
-/

namespace Sys2Proof.Machine

/-! ## Addresses -/

/-- IPv4 addresses in the form ::ffff:a.b.c.d, and the multicast ones. -/
def isV4 (a : Nat) : Bool := a / 2 ^ 32 == 0xFFFF
def isMulticast (a : Nat) : Bool := if isV4 a then a / 2 ^ 28 % 16 == 14 else a / 2 ^ 120 == 0xFF

/-- Bytes of the port record of M0 or M1, octet strings as they stand (Table 15-9). -/
def State.mpBytes (s : State) (m1 : Bool) (off n : Nat) : List Byte :=
  ((s.payload 0x0C01 0 4).drop (16 + 64 * b2n m1 + off)).take n

/-- MTU of M0 or M1. -/
def State.mpMtu (s : State) (m1 : Bool) : Nat := if s.hasSection 0x0C01 0 4 then le (s.mpBytes m1 2 2) 0 2 else 1518

/-- The factory MAC of M0 or M1. -/
def State.factoryMac (s : State) (m1 : Bool) : Nat :=
  (s.reg (R.mp_FACTORY_MAC_LO (b2n m1))).toNat + 0x100000000 * ((s.reg (R.mp_FACTORY_MAC_HI (b2n m1))).toNat % 0x10000)

/-- The MAC address of M0 or M1. -/
def State.mpMac (s : State) (m1 : Bool) : Nat := if s.hasSection 0x0C01 0 4 then be (s.mpBytes m1 4 6) 0 6 else s.factoryMac m1

/-- MTU and MAC address of a port. -/
def State.portMtu (s : State) (p : Nat) : Nat := if p < 32 then s.portField p 2 2 else s.mpMtu (p == 33)
def State.portMac (s : State) (p : Nat) : Nat :=
  if p < 32 then be (((s.payload 0x0201 1 (p / 8)).drop (16 + 32 * (p % 8) + 4)).take 6) 0 6 else s.mpMac (p == 33)

/-- The link-local address that modified EUI-64 forms from a MAC address. -/
def linkLocal (mac : Nat) : Nat :=
  let hi := mac / 2 ^ 24
  let flip := if bit hi 17 then hi - 2 ^ 17 else hi + 2 ^ 17
  0xFE80 * 2 ^ 112 + flip * 2 ^ 40 + 0xFFFE * 2 ^ 24 + mac % 2 ^ 24

/-- The addresses of a port, IPv4 as ::ffff:a.b.c.d. -/
def State.portAddrs (s : State) (p : Nat) : List Nat :=
  let record := if p < 32 then (s.payload 0x0201 1 (p / 8)).drop (16 + 32 * (p % 8)) else (s.payload 0x0C01 0 4).drop (16 + 64 * (p - 32))
  let flags := le record 0 1
  if p < 32 ∨ s.hasSection 0x0C01 0 4 then
    (if bit flags 1 then [0xFFFF * 2 ^ 32 + be record 12 4] else []) ++ (if bit flags 2 then [be record 16 16] else [])
  else [linkLocal (s.portMac p)]

/-- The address from which a port sends in an address family; 0 when it has none. -/
def State.ownAddr (s : State) (p : Nat) (v6 : Bool) : Nat := ((s.portAddrs p).find? fun a => isV4 a != v6).getD 0

/-! ## Internet packets -/

/-- The internet checksum: one's complement of the one's complement sum of 16-bit words. -/
def inetSum : List Byte → Nat
  | a :: b :: r => 256 * a.toNat + b.toNat + inetSum r
  | [a] => 256 * a.toNat
  | [] => 0
/-- One's complement sum in 16 bits. -/
def inetFold (n : Nat) : Nat := if n = 0 then 0 else (n - 1) % 65535 + 1
def inetCheck (p : List Byte) : List Byte := beBytes 2 (65535 - inetFold (inetSum p))

/-- The IP header of a packet with a protocol and a number of bytes after the header: version 4 with no options and not to be
fragmented, or version 6 without extension headers (PRESUMED, log entry 34). -/
def ipHeader (v6 : Bool) (src dst dscp ttl proto n : Nat) : List Byte :=
  if v6 then
    beBytes 4 (0x60000000 + dscp % 64 * 2 ^ 22) ++ beBytes 2 n ++ beBytes 1 proto ++ beBytes 1 ttl ++ beBytes 16 src ++ beBytes 16 dst
  else
    let a := [0x45] ++ beBytes 1 (dscp % 64 * 4) ++ beBytes 2 (20 + n) ++ beBytes 4 0x4000 ++ beBytes 1 ttl ++ beBytes 1 proto
    let b := beBytes 4 (src % 2 ^ 32) ++ beBytes 4 (dst % 2 ^ 32)
    a ++ inetCheck (a ++ [0, 0] ++ b) ++ b

/-- What the checksum of a UDP datagram covers beside the datagram: the pseudo-header of RFC 768 and RFC 8200. -/
def udpPseudo (v6 : Bool) (src dst n : Nat) : List Byte :=
  if v6 then beBytes 16 src ++ beBytes 16 dst ++ beBytes 4 n ++ beBytes 4 17
  else beBytes 4 (src % 2 ^ 32) ++ beBytes 4 (dst % 2 ^ 32) ++ beBytes 2 17 ++ beBytes 2 n

/-- The checksum of a UDP datagram; a sum of 0 is sent as all ones. -/
def udpCheck (v6 : Bool) (src dst sport dport : Nat) (payload : List Byte) : List Byte :=
  let n := 8 + payload.length
  let c := inetCheck (udpPseudo v6 src dst n ++ beBytes 2 sport ++ beBytes 2 dport ++ beBytes 2 n ++ [0, 0] ++ payload)
  if be c 0 2 = 0 then [0xFF, 0xFF] else c

/-- A UDP packet from its IP header to the end of its payload, with a given checksum. -/
def udpPacket (v6 : Bool) (src dst dscp ttl sport dport : Nat) (check payload : List Byte) : List Byte :=
  ipHeader v6 src dst dscp ttl 17 (8 + payload.length) ++
  beBytes 2 sport ++ beBytes 2 dport ++ beBytes 2 (8 + payload.length) ++ check ++ payload

/-- The packet that a path record of Table 7-2 makes of an RTP packet; its source address is that of the sending port. -/
def State.pathPacket (s : State) (path rtp : List Byte) : List Byte :=
  let v6 := bit (le path 1 1) 0
  let src := s.ownAddr (le path 0 1) v6
  let dst := be path 8 16
  let sport := le path 4 2
  let dport := le path 6 2
  udpPacket v6 src dst (le path 2 1) (le path 3 1) sport dport (udpCheck v6 src dst sport dport rtp) rtp

/-! ## Sending (R94, R183) -/

/-- The egress queue of a port, oldest packet first. -/
def State.queue (s : State) (p : Nat) : List QPacket := s.queues.get (fun _ => []) p

/-- Set it. -/
def State.setQueue (s : State) (p : Nat) (q : List QPacket) : State := { s with queues := s.queues.put (fun _ => []) p q }

/-- Line rate of a media port in Gbit/s, that is in bits per ns (Table 4-1). -/
def State.portRate (s : State) (p : Nat) : Nat := 400 / portsOfMode (s.groupMode (p / 8))

/-- ns that a number of line bytes takes on a port, rounded up. -/
def State.lineNs (s : State) (p n : Nat) : Nat := (8 * n + (s.portRate p - 1)) / s.portRate p

/-- Count a frame sent. -/
def State.txFrame (s : State) (p : Nat) : State := s.count (if p < 32 then R.port_TX_FRAMES p else R.mp_TX_FRAMES (p - 32))

/-- A frame of another kind than a curd-stream packet is started: the port is busy until it is complete (R183). -/
def State.startOther (s : State) (p n : Nat) (x : Sent) : State :=
  ((s.txFrame p).send x).modPort p fun y => { y with lineFree := s.now + s.lineNs p n }

/-- A frame of another kind, with its line bytes, is to leave a port that is UP: on a media port it is started only while no
curd-stream packet waits and no frame is in progress, and otherwise waits (R94, R183). -/
def State.sendOther (s : State) (p n : Nat) (x : Sent) : State :=
  if (s.port p).state ≠ .up then s
  else if 32 ≤ p then (s.txFrame p).send x
  else if (s.queue p).isEmpty && (s.port p).others.isEmpty && s.due (s.port p).lineFree then s.startOther p n x
  else s.modPort p fun y => { y with others := y.others ++ [(n, x)] }

/-- The oldest waiting frame of another kind is started when no curd-stream packet waits and the line is free. -/
def State.nextOther (s : State) (p : Nat) : State :=
  match (s.port p).others with
  | (n, x) :: r =>
    if (s.queue p).isEmpty && s.due (s.port p).lineFree then (s.modPort p fun y => { y with others := r }).startOther p n x else s
  | [] => s

/-- Line bytes of an internet packet in a frame: preamble, header, FCS and gap, at least those of a 64-byte frame. -/
def ipLine (n : Nat) : Nat := max 64 (n + 18) + 20

/-- Send a head's or an audio flow's RTP packet on a path. -/
def State.sendMedia (s : State) (path rtp : List Byte) : State :=
  let p := le path 0 1
  (s.txFrame p).send (.media p (s.pathPacket path rtp))

end Sys2Proof.Machine
end

