-- ==== Sys2Proof/Machine/HeadPacket.lean ====
section
/-!
DEFINITION. The packets of a head output (R240 to R243): samples on the wire, the validity element, the two paths, gap packets.
-/

namespace Sys2Proof.Machine

/-! ## Samples on the wire (R240) -/

/-- A drawn 12-bit pixel: three components in the order of the head's colour family. -/
abbrev Rgb := Nat × Nat × Nat

/-- Depth reduction. -/
def reduceDepth (b y : Nat) : Nat := if b = 12 then y else min ((y + 2 ^ (11 - b)) / 2 ^ (12 - b)) (2 ^ b - 1)

/-- Samples of a run of pixels in the order of ST 2110-20 pgroups: Cb Y0 Cr Y1; Cb Y Cr; R G B. -/
def wireSamples (fmt : Nat) (l : List Rgb) : List Nat :=
  match fmt % 4 with
  | 0 => (List.range (l.length / 2)).flatMap fun u =>
    let p := l.getD (2 * u) (0, 0, 0)
    let q := l.getD (2 * u + 1) (0, 0, 0)
    [(p.2.1 + q.2.1 + 1) / 2, p.1, (p.2.2 + q.2.2 + 1) / 2, q.1]
  | 1 => l.flatMap fun p => [p.2.1, p.1, p.2.2]
  | _ => l.flatMap fun p => [p.1, p.2.1, p.2.2]

/-- Pixels as the bytes of whole pgroups. -/
def wireBytes (fmt : Nat) (l : List Rgb) : List Byte :=
  let b := depthOf fmt
  bytesOfBits ((wireSamples fmt l).flatMap fun y => toBits b (reduceDepth b y))

/-- Bytes and pixels of a pgroup. -/
def pgroupOf (fmt : Nat) : Nat × Nat :=
  if fmt % 4 = 0 then (if depthOf fmt = 12 then (6, 2) else (5, 2))
  else match depthOf fmt with | 8 => (3, 1) | 10 => (15, 4) | _ => (9, 2)

/-! ## A head's flow (Table 10-7) -/

/-- The OUTPUT_FLOWS section a head has latched. -/
def Head.flow (h : Head) : List Byte :=
  match h.latched.find? fun x => x.type == 0x0683 with
  | some x => x.payload
  | none => []

/-- Payload of a section of a type that a head has latched. -/
def Head.section_ (h : Head) (type : Nat) : List Byte :=
  match h.latched.find? fun x => x.type == type with
  | some x => x.payload
  | none => []

/-- FORMAT of a head. -/
def Head.fmt (h : Head) : Nat := le h.timing 1 1

/-- Paths of a head's output: not in service while it has latched no OUTPUT_FLOWS. -/
def Head.paths (h : Head) : List Bool := if h.flow = [] then [] else if bit (le h.flow 0 1) 0 then [false, true] else [false]

/-- The path record and the port of a path. -/
def Head.pathRecord (h : Head) (pathB : Bool) : List Byte := (h.flow.drop (if pathB then 40 else 16)).take 24
def Head.pathPort (h : Head) (pathB : Bool) : Nat := le h.flow (if pathB then 40 else 16) 1

/-- CLAIM of a head's packets (Table 10-2). -/
def State.headClaim (s : State) : Nat :=
  if s.pairMode then s.pair.term % 256 * 256 + s.pairField 1 1
  else if s.hasSection 0x0501 4 8 then s.claimField 0 1 else 0

/-! ## Packets -/

/-- The validity element (Table 10-2); `tail` is bytes 8 to 15. -/
def validity (state reason claim frame : Nat) (tail : List Byte) : List Byte :=
  leBytes 1 (16 + state) ++ leBytes 1 reason ++ beBytes 2 claim ++ beBytes 4 frame ++ tail

/-- Bytes 8 to 15 of every packet but a gap packet: LAST_VALID and INVALID_FROM. -/
def validTail (lastValid from_ : Nat) : List Byte := beBytes 4 lastValid ++ beBytes 2 from_ ++ beBytes 2 0

/-- RTP header, header extension, payload header and pixel data (R240, R241). -/
def headPacket (flow : List Byte) (marker : Bool) (seq rtp line offset : Nat) (element pixels : List Byte) : List Byte :=
  leBytes 1 0x90 ++ leBytes 1 (128 * b2n marker + le flow 2 1 % 128) ++ beBytes 2 (seq % 65536) ++ beBytes 4 rtp ++ beBytes 4 (le flow 4 4) ++
  [0xBE, 0xDE, 0x00, 0x05] ++ leBytes 1 (le flow 1 1 % 16 * 16 + 15) ++ element ++ [0, 0, 0] ++
  beBytes 2 (seq / 65536) ++ beBytes 2 pixels.length ++ beBytes 2 (line % 32768) ++ beBytes 2 (offset % 32768) ++ pixels

/-- One pgroup in colour A of a reason. -/
def Head.patch (h : Head) (reason : Nat) : List Byte :=
  let p := h.section_ 0x0604
  let c : Rgb := (le p (12 * reason) 2, le p (12 * reason + 2) 2, le p (12 * reason + 4) 2)
  wireBytes h.fmt (List.replicate (pgroupOf h.fmt).2 c)

/-- The media clock at a PTP time in ns, mod 2^32. -/
def rtpAt (ns : Nat) : Nat := ns * 9 / 100000 % 2 ^ 32

/-- Packet counter of a path. -/
def headPkts (n : Nat) (pathB : Bool) : Nat := if pathB then R.head_PKTS_B n else R.head_PKTS_A n

/-- The gap record of a path that holds one and whose port is UP (R95, R243). -/
def State.headGap (s : State) (n : Nat) (pathB : Bool) : State :=
  let h := s.head n
  let p := h.pathPort pathB
  match if pathB then h.gapB else h.gapA with
  | some (first, last) =>
    if (s.port p).state = .up ∧ pathB ∈ h.paths then
      let element := validity 4 0 s.headClaim h.tagFrame (beBytes 4 first ++ beBytes 4 last)
      let b := headPacket h.flow true last (rtpAt s.ptpNs.toNat) 0 0 element (h.patch 0)
      let s := s.modHead n fun h => if pathB then { h with gapB := none } else { h with gapA := none }
      (s.sendMedia (h.pathRecord pathB) b).count (headPkts n pathB)
    else s
  | none => s

/-- A number is not sent on a path. -/
def Head.notSent (h : Head) (pathB : Bool) (seq : Nat) : Head :=
  let f (g : Option (Nat × Nat)) : Option (Nat × Nat) := some ((g.map (·.1)).getD seq, seq)
  if pathB then { h with gapB := f h.gapB } else { h with gapA := f h.gapA }

/-- Send one packet of a head: it takes the next extended sequence number and goes out on every path whose port is UP, after
the path's gap record. -/
def State.headSend (s : State) (n : Nat) (packet : Nat → List Byte) : State :=
  let seq := (s.head n).seq
  let b := packet seq
  let s := s.modHead n fun h => { h with seq := (seq + 1) % 2 ^ 32 }
  (s.head n).paths.foldl (fun s pathB =>
    let p := (s.head n).pathPort pathB
    if (s.port p).state = .up then
      ((s.headGap n pathB).sendMedia ((s.head n).pathRecord pathB) b).count (headPkts n pathB)
    else s.modHead n fun h => h.notSent pathB seq) s

/-- An end-of-validity packet (R243). -/
def State.headEov (s : State) (n reason : Nat) : State :=
  let h := s.head n
  let element := validity 3 reason s.headClaim h.tagFrame (validTail h.lastValid 0xFFFF)
  let rtp := rtpAt s.ptpNs.toNat
  let s := s.headSend n fun seq => headPacket h.flow true seq rtp 0 0 element (h.patch reason)
  (s.count (R.head_EOV_FRAMES n)).modHead n fun h => { h with lastEovAt := s.now }

end Sys2Proof.Machine
end

