-- ==== Sys2Proof/Machine/Press.lean ====
section
/-!
DEFINITION. The press and the candidates (R163 to R176): what a CHANNEL section sets, the floor frame, the allowance, the
winner of a curd, q_next, the refresh schedule and the skip signature.
-/

namespace Sys2Proof.Machine

/-- The picture of a channel (Table 7-1). -/
def State.chanGeom (s : State) (c : Nat) : Geometry :=
  { width := s.chanField c 4 2, height := s.chanField c 6 2, fmt := s.chanField c 1 1, curd := s.chanField c 12 2,
    sw := (List.range (s.chanField c 2 1)).map fun i => s.chanField c (20 + 2 * i) 2 }

def State.chanR (s : State) (c : Nat) : Nat := s.chanField c 14 1
def State.chanV (s : State) (c : Nat) : Nat := s.chanField c 3 1
def State.chanQmax (s : State) (c : Nat) : Nat := s.chanField c 15 1
def State.chanQmin (s : State) (c : Nat) : Nat := s.chanField c 16 1
def State.chanBank (s : State) (c : Nat) : Nat := s.chanField c 18 2
def State.chanPacked (s : State) (c : Nat) : Bool := bit (s.chanField c 0 1) 1
def State.chanSkip (s : State) (c : Nat) : Bool := bit (s.chanField c 0 1) 3

/-- A curd lies in a zone when its columns and its line lie within a rectangle of the ZONES section (R164, Table 7-3). -/
def inZone (zones : List Byte) (line col : Nat) : Bool :=
  (records zones 1 8).any fun r =>
    le r 0 2 ≤ col && col < le r 0 2 + le r 4 2 && le r 2 2 ≤ line && line < le r 2 2 + le r 6 2

/-- What the budget of a channel depends on. -/
structure PressPlan where
  geom    : Geometry
  zones   : List Byte
  qmax    : Nat
  rateN   : Nat
  rateD   : Nat
  cap     : Nat
  curdMax : Nat
  deriving DecidableEq, Repr

/-- The budget fields of a CHANNEL payload. -/
def pressPlanOf (p zones : List Byte) : PressPlan :=
  { geom := { width := le p 4 2, height := le p 6 2, fmt := le p 1 1, curd := le p 12 2,
              sw := (List.range (le p 2 1)).map fun i => le p (20 + 2 * i) 2 },
    zones := zones, qmax := le p 15 1, rateN := le p 8 2, rateD := le p 10 2, cap := le p 28 4, curdMax := le p 32 2 }

def State.pressPlan (s : State) (c : Nat) : PressPlan := pressPlanOf (s.chan c).plan (s.chan c).zones

/-- The curd at a position lies in a zone. -/
def PressPlan.zone (a : PressPlan) (line s k : Nat) : Bool := inZone a.zones line (a.geom.x0 s + k * a.geom.curd)

/-- Floor payload fp(c) of a curd (R168). -/
def PressPlan.fp (a : PressPlan) (line s k : Nat) : Nat :=
  floorBytes (parOf a.geom.fmt (if a.zone line s k then 0 else a.qmax)) (a.geom.units s k)

/-- Curd positions of a frame. -/
def PressPlan.positions (a : PressPlan) : Nat := a.geom.height * a.geom.positions.length

/-- Floor frame size F (R170). -/
def PressPlan.floor (a : PressPlan) : Nat :=
  ((List.range a.geom.height).map fun y => (a.geom.positions.map fun e => 30 + a.fp y e.1 e.2).sum).sum + 60 * a.geom.height + 64

/-- Bytes per frame FB (R166). -/
def PressPlan.fb (a : PressPlan) : Nat := a.cap * 1000 * a.rateD / (8 * a.rateN)

/-- Units of a frame. -/
def PressPlan.frameUnits (a : PressPlan) : Nat := a.geom.height * (a.geom.positions.map fun e => a.geom.units e.1 e.2).sum

/-- Surplus per unit, 16 fraction bits (R166). -/
def PressPlan.eu (a : PressPlan) : Nat := (a.fb - a.floor) * 65536 / a.frameUnits

/-- base(c) (R166). -/
def PressPlan.base (a : PressPlan) (line s k : Nat) : Nat := 30 + a.fp line s k + a.eu * a.geom.units s k / 65536

/-- cmax of a curd (R167). -/
def PressPlan.cmax (a : PressPlan) (s k : Nat) : Nat :=
  if a.curdMax ≠ 0 then a.curdMax else curdBound a.geom.fmt (a.geom.units s k)

/-- Floor rate in kbit/s, rounded up (CC_FLOOR_KBPS). -/
def PressPlan.floorKbps (a : PressPlan) : Nat :=
  let d := a.rateD * 1000
  (a.floor * 8 * a.rateN + d - 1) / d

/-- The allowance A of a curd (R167). -/
def PressPlan.allowance (a : PressPlan) (line s k d : Nat) : Nat := min (a.cmax s k) (a.base line s k + d - 30)

/-- Candidates of a curd in the order of R168: the adaptive cores, then the floor core. -/
def PressPlan.candidates (a : PressPlan) (line s k qb : Nat) (restart : Bool) (above : Option (List (List Int)))
    (source : List (List Int)) : List Winner :=
  let zone := a.zone line s k
  let fmt := a.geom.fmt
  let ad (q : Nat) : Winner :=
    let y := codeAdaptive (parOf fmt q) above source
    { q := q, floor := false, zone := zone, restart := restart, payload := y.1, recon := y.2 }
  let fl (q : Nat) : Winner :=
    let y := codeFloor (parOf fmt q) above source
    { q := q, floor := true, zone := zone, restart := restart, payload := y.1, recon := y.2 }
  if zone then [ad 0, fl 0] else ((List.range 4).map fun i => ad (min (qb + i) a.qmax)) ++ [fl a.qmax]

/-- One candidate beats another: the lowest q, then the smallest LENGTH, then the adaptive one (R168). -/
def Winner.beats (a b : Winner) : Bool :=
  a.q < b.q || (a.q == b.q && (a.payload.length < b.payload.length || (a.payload.length == b.payload.length && !a.floor && b.floor)))

/-- The best of a list of candidates; among equals the first. -/
def bestOf : List Winner → Option Winner
  | [] => none
  | w :: r => some (r.foldl (fun b x => if x.beats b then x else b) w)

/-- winner(c, A) (R168). -/
def chooseWinner (bound allow : Nat) (cs : List Winner) : Option Winner :=
  bestOf (cs.filter fun w => (w.floor || w.payload.length ≤ bound) && w.payload.length ≤ allow)

/-- q_next after a selection (R169). -/
def nextQ (qmin qmax qb allow : Nat) (w : Winner) : Nat :=
  let q := if w.floor then qmax
    else if w.q = qb ∧ w.payload.length ≤ 3 * allow / 4 then w.q - 1
    else if w.q ≤ qb + 1 then w.q
    else w.q + 1
  max qmin (min qmax q)

/-- q_next of a column at channel start (R169). -/
def State.qMid (s : State) (c : Nat) : Nat := (s.chanQmin c + s.chanQmax c) / 2

/-- Column number of a stripe and index (Table 8-3). -/
def columnOf (stripe k : Nat) : Nat := 64 * stripe + k

/-- q_next of a column. -/
def State.qNextOf (s : State) (c col : Nat) : Nat := (s.chan c).qNext.get (fun _ => s.qMid c) col

/-- Set it. -/
def State.setQ (s : State) (c col q : Nat) : State :=
  let d := s.qMid c
  s.modChan c fun x => { x with qNext := x.qNext.put (fun _ => d) col q }

/-- Number of a curd position within the frame. -/
def Geometry.position (g : Geometry) (line s k : Nat) : Nat :=
  line * g.positions.length + ((List.range s).map g.curds).sum + k

/-- Segment of a column that a line lies in: restart positions at or above it, less one (R176). -/
def segmentOf (v line k : Nat) : Nat := ((List.range (line + 1)).filter fun y => restartPos v y k).length - 1

/-- The refresh schedule codes the curd in coded frame n (R176). -/
def refreshDue (v r n line s k : Nat) : Bool := (n + segmentOf v line k + k + s) % r == 0

/-- The key words of SKIP_KEY; zero without the section (R173). -/
def State.skipKey (s : State) (c : Nat) : Nat × Nat := (le (s.chan c).key 0 8, le (s.chan c).key 8 8)

/-- Signature of a curd (R173). -/
def State.signature (s : State) (c : Nat) (source : List (List Int)) : Nat :=
  sipHash (s.skipKey c).1 (s.skipKey c).2 (sigMessage source)

/-- What verification finds (R177): the number of the failed check, from its record, the verify store and the source. -/
def verifyCurd (fmt v units : Nat) (above : Option (List (List Int))) (h : CurdHead) (w : Winner) (source : List (List Int)) :
    Option Nat :=
  match decodeCurd fmt v units above h w.payload with
  | none => some 1
  | some r =>
    let bound := deltaOf (depthOf fmt) h.q
    let far := (r.zip source).any fun e => (e.1.zip e.2).any fun x => bound < (x.1 - x.2).natAbs
    if far then some 2
    else if r ≠ w.recon then some 3
    else if h.q ≠ w.q ∨ h.floor ≠ w.floor ∨ h.zone ≠ w.zone ∨ h.restart ≠ w.restart ∨ h.length ≠ w.payload.length then some 4
    else none

end Sys2Proof.Machine
end

