-- ==== Sys2Proof/Machine/Packet.lean ====
section
/-!
DEFINITION. The packetiser and the port queues of the curd stream (R132 to R143, R180 to R185, R94, R95): packet bytes, SEQ,
the two paths, gap records, the projection of R178.
-/

namespace Sys2Proof.Machine

/-! ## Addresses of the ledger and of the counters -/

/-- Flow entries of a bank. -/
def FlowTable.bankOf (t : FlowTable) (b : Bool) : Sparse FtEntry := if b then t.bank1 else t.bank0

/-- An entry of the active bank. -/
def State.ftEntry (s : State) (i : Nat) : FtEntry :=
  if s.ft.active then s.ft.bank1.get (fun _ => {}) i else s.ft.bank0.get (fun _ => {}) i

/-- The valid entry of a KIND, target and path in the active bank, with its index. -/
def State.entryFor (s : State) (kind target : Nat) (pathB : Bool) : Option (Nat × FtEntry) :=
  (s.ft.bankOf s.ft.active).find? fun e => e.2.valid && e.2.kind == kind && e.2.target == target && e.2.pathB == pathB

/-- Lowest port of a PORTS mask. -/
def lowestPort (mask : Nat) : Nat := ((List.range 32).find? fun i => bit mask i).getD 0

/-- Data-path address of a channel, stripe or curd: flow and port are those of the path-A MEDIA entry, unless a received packet
gives the port (Table 17-2). -/
def State.chanDp (s : State) (c level stripe k : Nat) (port : Option Nat := none) : Nat :=
  let e := s.entryFor 1 c false
  let i := match e with | some x => x.1 | none => 0
  let p := match e with | some x => lowestPort x.2.ports | none => 0
  dpAddr level (port.getD p) i c stripe k

/-- Egress tile of path A of a channel. -/
def State.egOf (s : State) (c : Nat) : Nat := s.chanField c 40 1 / 8

/-- Control address of the channel's egress tile. -/
def State.egCtrl (s : State) (c : Nat) : Nat := R.eg (s.egOf c)

/-! ## FRAME and the media clock (R136) -/

/-- The 90 kHz media clock at the timebase's PTP time. -/
def State.mediaClock (s : State) : Nat := s.ptpNs.toNat * 9 / 100000

/-- Frame number of a 64-bit RTP time at a rate fn/fd. -/
def frameNumber (t fn fd : Nat) : Nat := (2 * t * fn + 90000 * fd) / (2 * 90000 * fd) % 2 ^ 32

/-- The 64-bit value congruent to a timestamp that is nearest to the media clock; of two equally near, the higher. -/
def extendRtp (ts clock : Nat) : Nat :=
  let d := signed 32 ((ts + 2 ^ 32 - clock % 2 ^ 32) % 2 ^ 32)
  let d := if d = -2147483648 then 2147483648 else d
  ((clock : Int) + d).toNat

/-- a is newer than b, modulo 2^32. -/
def newer32 (a b : Nat) : Bool := 0 < signed 32 ((a + 2 ^ 32 - b % 2 ^ 32) % 2 ^ 32)

/-- Frame number of a media clock value for a channel's END_OF_VALIDITY and GAP packets: not below the previous packet's. -/
def State.recordFrame (s : State) (c clock : Nat) : Nat :=
  let f := frameNumber clock (s.chanField c 8 2) (s.chanField c 10 2)
  let l := (s.chan c).lastFrame
  if (s.chan c).sent && newer32 l f then l else f

/-! ## Queues -/

/-- Port of a path of a channel. -/
def State.pathPort (s : State) (c : Nat) (pathB : Bool) : Nat := if pathB then s.chanField c 64 1 else s.chanField c 40 1

/-- Paths of a channel. -/
def State.chanPaths (s : State) (c : Nat) : List Bool := if s.chanTwoPaths c then [false, true] else [false]

/-- Path record of a channel (Table 7-2). -/
def State.pathRecord (s : State) (c : Nat) (pathB : Bool) : List Byte := ((s.chan c).plan.drop (if pathB then 64 else 40)).take 24

/-- Framing of a path: 78 line bytes over IPv4, 98 over IPv6 (R171). -/
def pathFraming (path : List Byte) : Nat := if bit (le path 1 1) 0 then 98 else 78
def State.framing (s : State) (c : Nat) (pathB : Bool) : Nat := pathFraming (s.pathRecord c pathB)

/-- Line bytes of a queued packet: its stream bytes and the framing. -/
def QPacket.lineBytes (q : QPacket) : Nat := q.bytes.length - 12 + pathFraming q.path

/-- Line bytes in a port's queue. -/
def State.queuedBytes (s : State) (p : Nat) : Nat := ((s.queue p).map (·.lineBytes)).sum

/-- Projected time of the last bit of a packet of `stream` bytes of payload, handed over now: 20 ns of the rind stage, 60 ns,
the queue, the packet and 256 bytes (R178). -/
def State.projected (s : State) (c : Nat) (pathB : Bool) (stream : Nat) : Nat :=
  let p := s.pathPort c pathB
  let n := s.queuedBytes p + stream + s.framing c pathB + 256
  let r := s.portRate p
  s.now + 80 + (8 * n + (r - 1)) / r

/-- Largest projected excess over STAMP + 1,000 ns among the paths whose port is UP. -/
def State.excess (s : State) (c lastAt stream : Nat) : Nat :=
  (s.chanPaths c).foldl (fun v b =>
    if (s.port (s.pathPort c b)).state = .up then max v (s.projected c b stream - (lastAt + 1000)) else v) 0

/-! ## Packets -/

/-- Claim that every packet of the channel carries now (R192). -/
def State.claimOf (s : State) (c : Nat) : Nat := (s.rind c).claim

/-- RTP header, packet header, body and trailer (Tables 6-1 and 6-2, R134). -/
def State.packetBytes (s : State) (c kind frame seq rtp : Nat) (stamp : Stamp) (body : List Byte) : List Byte :=
  let m := 128 * b2n (kind == 3)
  let p := [0x80, BitVec.ofNat 8 (m + s.chanField c 17 1)] ++ beBytes 2 seq ++ beBytes 4 rtp ++ beBytes 4 (s.chanField c 36 4) ++
    leBytes 1 (16 + kind) ++ leBytes 1 c ++ beBytes 2 (s.claimOf c) ++ beBytes 4 frame ++ beBytes 4 seq ++
    beBytes 8 stamp.toNat ++ body
  p ++ beBytes 4 (crc32c p)

/-- Numbers not sent on a path, extended by a range (R95). -/
def PathGap.extend (g : PathGap) (first last cause : Nat) : PathGap :=
  match g.first with
  | some _ => { g with last := last }
  | none => { first := some first, last := last, cause := cause }

/-- Change the gap of a path. -/
def State.modGap (s : State) (c : Nat) (pathB : Bool) (f : PathGap → PathGap) : State :=
  s.modChan c fun x => if pathB then { x with gapB := f x.gapB } else { x with gapA := f x.gapA }

/-- Put a packet into the queue of a path; while the port is not UP its number is not sent (R94, R95). -/
def State.enqueue (s : State) (q : QPacket) : State :=
  let p := s.pathPort q.channel q.pathB
  if (s.port p).state = .up then s.setQueue p (s.queue p ++ [{ q with queuedAt := s.now, path := s.pathRecord q.channel q.pathB }])
  else s.modGap q.channel q.pathB fun g => g.extend q.seq q.seq 1

/-- Form a packet of any kind but GAP: it takes the next SEQ and goes to every path (R137, R180). -/
def State.chanSend (s : State) (c kind frame rtp : Nat) (stamp : Stamp) (body : List Byte) (pixelAt firstAt : Nat := 0) : State :=
  let seq := (s.chan c).seq
  let bytes := s.packetBytes c kind frame seq rtp stamp body
  let s := s.modChan c fun x => { x with
    seq := (seq + 1) % 2 ^ 32, sent := true, lastFrame := frame, bytes := x.bytes + (body.length + 24) }
  (s.chanPaths c).foldl (fun s b => s.enqueue
    { channel := c, pathB := b, bytes := bytes, line := 0, stamp := stamp, curd := kind == 1, pixelAt := pixelAt, firstAt := firstAt, seq := seq, queuedAt := 0 }) s

/-- One gap record on one path (R143). -/
def State.sendGap (s : State) (c : Nat) (pathB : Bool) (first last cause : Nat) : State :=
  let clock := s.mediaClock
  let frame := s.recordFrame c clock
  let body := beBytes 4 first ++ beBytes 4 last ++ leBytes 1 cause ++ leBytes 7 0
  let p := s.pathPort c pathB
  let bytes := s.packetBytes c 5 frame last clock s.stamp body
  let e := p / 8
  let s := (s.count (R.pa_PA_GAPS e c)).countBy (R.pa_PA_NOT_SENT e c) ((last + 2 ^ 32 - first) % 2 ^ 32 + 1)
  s.setQueue p (s.queue p ++ [{ channel := c, pathB := pathB, bytes := bytes, path := s.pathRecord c pathB, line := 0,
                                stamp := s.stamp, curd := false, seq := last, gap := true, queuedAt := s.now }])

/-- The gap that a path holds is sent when its port is UP (R95). -/
def State.flushGap (s : State) (c : Nat) (pathB : Bool) : State :=
  let g := if pathB then (s.chan c).gapB else (s.chan c).gapA
  match g.first with
  | some f =>
    if (s.port (s.pathPort c pathB)).state = .up then (s.sendGap c pathB f g.last g.cause).modGap c pathB fun _ => {} else s
  | none => s

/-- The module sends: pair mode off, or active in it (R205, R211). -/
def State.sends (s : State) : Bool :=
  match s.pair.role with | .standby => false | .ready => false | _ => true

/-- A port has returned to UP: one gap record for each channel path and head path on it (R95, R243). -/
def State.sendGaps (s : State) (p : Nat) : State :=
  if !s.sends then s else
  let s := (List.range 16).foldl (fun s n =>
    (s.head n).paths.foldl (fun s b => if (s.head n).pathPort b = p then s.headGap n b else s) s) s
  (List.range 48).foldl (fun s c =>
    (s.chanPaths c).foldl (fun s b => if s.pathPort c b = p then s.flushGap c b else s) s) s

/-- A port is no longer UP: what is queued for it is discarded and not sent (R94). -/
def State.dropQueue (s : State) (p : Nat) : State :=
  let q := s.queue p
  let s := s.modPort p fun y => { y with others := [], lineFree := 0 }
  q.foldl (fun s x =>
    if x.gap then s.modGap x.channel x.pathB fun g => { g.extend (be x.bytes 32 4) x.seq 1 with first := some (be x.bytes 32 4) }
    else s.modGap x.channel x.pathB fun g => g.extend x.seq x.seq 1) (s.setQueue p [])

/-- ns that a stamp difference stands for. -/
def ticksNs (m : RasterMode) (ticks : Int) : Nat :=
  ticks.toNat * (m.fd * 1000000000) / (m.lines * m.fn * 65536)

/-- LATE_LOG of an egress tile (Table 7-9). -/
def State.lateLog (s : State) (e : Nat) : Bool := bit (le (s.payload 0x0405 4 e) 1 1) 0

/-- When the last bit of a queued packet can have passed: its line bytes follow the frame in progress (R183). -/
def State.departsAt (s : State) (p : Nat) (q : QPacket) : Nat := max q.queuedAt (s.port p).lineFree + s.lineNs p q.lineBytes

/-- A curd packet's last bit has left: CC_LAT_MAX, and the packets that leave too late (R183, R185). -/
def State.curdLeft (s : State) (p : Nat) (q : QPacket) : State :=
  let e := p / 8
  let c := q.channel
  let span := s.now - q.pixelAt
  let s := s.modChan c fun x => { x with latMax := max x.latMax (s.now - q.firstAt) }
  if 1000 < span then
    let s := (s.count (R.eg_TX_LATE e)).event (R.eg_EVENTS e) 2
    let data := leBytes 1 p ++ leBytes 4 (span - 1000)
    let dp := s.chanDp c 3 0 0
    if s.lateLog e then s.logData F.EG_LATE (R.eg e) dp data
    else s.logRated F.EG_LATE (4 * c + e) (R.eg e) dp (fun _ => data)
  else s

/-- The packet at the head of a port's queue has left; `rest` remains (R183, R185, R190). -/
def State.packetLeft (s : State) (p : Nat) (q : QPacket) (rest : List QPacket) : State :=
  let e := p / 8
  let peak := max (s.reg (R.eg_QPEAK_P e (p % 8))).toNat (s.now - q.queuedAt)
  let s := ((s.setQueue p rest).send (.media p (s.pathPacket q.path q.bytes))).setReg (R.eg_QPEAK_P e (p % 8)) (w32 peak)
  let s := ((s.count (R.eg_TX_PKTS e)).count (R.pa_PA_PKTS e q.channel)).txFrame p
  let s := s.modPort p fun y => { y with lineFree := s.now }
  if q.curd then s.curdLeft p q else s

/-- Every packet that waits in the queue of an UP port leaves. -/
def State.flushQueue (s : State) (p : Nat) : State :=
  if (s.port p).state = .up then (s.queue p).foldl (fun s q => s.packetLeft p q ((s.queue p).drop 1)) s else s

/-- PACKET_DEPART (R183, R185): the last bit of the packet at the head of a port's queue leaves. When none is left, a waiting frame of
another kind is started. -/
def execPacketDepart (port : Fin 32) (s : State) : Out :=
  let p := port.val
  match s.queue p with
  | [] => if (s.port p).state = .up then .next (s.nextOther p) else .next s
  | q :: rest =>
    if (s.port p).state ≠ .up ∨ !s.due (s.departsAt p q) then .next s
    else .next ((s.packetLeft p q rest).nextOther p)

end Sys2Proof.Machine
end

