-- ==== Sys2Proof/Machine/Wheels.lean ====
section
/-!
DEFINITION. The evidence recorder's trail (R299 to R313): records and their admission, shedding, pages and the token bucket,
wheels, seals, holds, and what the supply warning and a start-up do with them.
-/

namespace Sys2Proof.Machine

/-! ## Sizes and sections -/

/-- Bytes of a wheel's record area, of a page, of the seal block and of the reserve of R304. -/
def areaBytes : Nat := 268427264
def pageBytes : Nat := 16384
def sealBytes : Nat := 4096
def reserveBytes : Nat := 1048576
def bucketDepth : Nat := 16777216

/-- CAUSE codes of Table 13-3. -/
def sealFull : Nat := 1
def sealWarning : Nat := 2
def sealSafe : Nat := 3
def sealDemand : Nat := 4
def sealRecovered : Nat := 5
def sealCommit : Nat := 6

/-- RECORDER_PLAN and HOLDS in force. -/
def State.recPlan (s : State) : List Byte := s.payload 0x0901 7 1
def State.holdPlan (s : State) : List Byte := s.payload 0x0902 7 1

/-- SAFE_SEAL_MS; 1,000 without a plan. -/
def State.safeSealMs (s : State) : Nat := if s.hasSection 0x0901 7 1 then le s.recPlan 4 2 else 1000

/-- PERIOD of the proxy of a source; none without one (R317). -/
def State.proxyPeriod (s : State) (source : Nat) : Option Nat :=
  let p := s.recPlan
  ((List.range (le p 1 1)).find? fun i => le p (16 + 4 * i) 1 == source).map fun i => le p (16 + 4 * i + 2) 2

/-- CAP_KBPS of a tap; none without a record (R317). -/
def State.tapCap (s : State) (tap : Nat) : Option Nat :=
  let p := s.recPlan
  let o := 16 + 4 * le p 1 1
  ((List.range (le p 2 1)).find? fun i => le p (o + 8 * i) 1 == tap).map fun i => le p (o + 8 * i + 4) 4

/-- Change what the NAND keeps. -/
def State.modStore (s : State) (f : NandStore → NandStore) : State := s.modRecorder fun r => { r with store := f r.store }

/-- An entry of the recorder. -/
def State.recLog (s : State) (f : FaultClass) (data : List Byte) : State := s.log f R.rec data

/-! ## Records (Table 13-1) -/

/-- A payload padded with zeros to a multiple of 8 bytes. -/
def pad8 (p : List Byte) : List Byte := p ++ List.replicate ((8 - p.length % 8) % 8) 0

/-- Bytes of a staged record with its header. -/
def Staged.size (r : Staged) : Nat := if r.seal_.isSome then 0 else 24 + (pad8 r.payload).length

/-- A record as it lies in the wheel. -/
def recordBytes (role type source : Nat) (stamp : Stamp) (seq : Nat) (payload : List Byte) : List Byte :=
  let h := leBytes 1 type ++ leBytes 1 role ++ leBytes 2 source ++ leBytes 4 payload.length ++ leBytes 8 stamp.toNat ++ leBytes 4 seq
  let p := pad8 payload
  h ++ leBytes 4 (crc32c (h ++ p)) ++ p

/-- Unwritten staged bytes (BACKLOG). -/
def State.backlog (s : State) : Nat := (s.recorder.staging.map Staged.size).sum + s.recorder.carry.length

/-! ## The token bucket (R304, R305) -/

/-- Bytes in the bucket now: 48,000,000 a second up to 16 MiB. -/
def State.bucket (s : State) : Nat :=
  min bucketDepth (s.recorder.tokens + (s.now - s.recorder.tokensAt) * 48 / 1000)

/-- A write of n bytes need not wait: outside the seal of R309 the reserve stays in the bucket; under the warning the bytes
of the seal block are kept back. -/
def State.mayWrite (s : State) (n : Nat) : Bool :=
  if s.recorder.warnAt.isSome then n + sealBytes ≤ s.bucket else n + reserveBytes ≤ s.bucket

/-- n bytes are written to NAND. -/
def State.nandWrite (s : State) (n : Nat) : State :=
  let t := s.bucket - n
  let sec1 := s.now / sec 1
  let (a, b, c) := s.recorder.rateNow
  let rate := if a = sec1 then (a, b + n, c) else (sec1, n, if a + 1 = sec1 then b else 0)
  s.modRecorder fun r => { r with tokens := t, tokensAt := s.now, rateNow := rate, store := { r.store with written := (r.store.written + n) % 2 ^ 64 } }

/-! ## Wheels -/

/-- The open wheel. -/
def State.openWheel (s : State) : Option Wheel :=
  match s.recorder.store.wheels.getLast? with
  | some w => if w.seal_.isNone then some w else none
  | none => none

/-- Change the open wheel. -/
def State.modOpen (s : State) (f : Wheel → Wheel) : State :=
  s.modStore fun t => { t with wheels := t.wheels.map fun w => if w.seal_.isNone then f w else w }

/-- A wheel of the store by its number. -/
def State.wheel (s : State) (n : Nat) : Option Wheel := s.recorder.store.wheels.find? fun w => w.number == n

/-- Slots in service and slots held. -/
def State.slotsInService (s : State) : Nat := 7450 - s.recorder.store.badSlots.length
def State.slotsHeld (s : State) : Nat := (s.recorder.store.wheels.filter fun w => w.held).length

/-- The wheel is pinned for an export (R314). -/
def State.pinned (s : State) (n : Nat) : Bool := s.recorder.exports.any fun e => e.wheel == n

/-- The slot of the next wheel: a free one, otherwise that of the lowest-numbered sealed wheel that is neither held nor pinned
(R312); with the wheel that gives way. -/
def State.nextSlot (s : State) : Option (Nat × Option Nat) :=
  let t := s.recorder.store
  match (List.range 7450).find? fun i => !t.badSlots.contains i && !(t.wheels.any fun w => w.slot == i) with
  | some i => some (i, none)
  | none =>
    (t.wheels.find? fun w => w.seal_.isSome && !w.held && !s.pinned w.number && !t.badSlots.contains w.slot).map fun w => (w.slot, some w.number)

/-- WEAR_MAX: cycles of the most worn slot. -/
def State.wearMax (s : State) : Nat := (s.recorder.store.cycles.map (·.2)).foldl max 0

/-- One more program-erase cycle of a slot; REC_WEAR once the most worn one has passed 90,000 (R316). -/
def State.wear (s : State) (slot : Nat) : State :=
  let s := s.modStore fun t => { t with cycles := t.cycles.put (fun _ => 0) slot (t.cycles.get (fun _ => 0) slot + 1) }
  if 90000 < s.wearMax ∧ s.recorder.store.wearLogged = false then
    ((s.modStore fun t => { t with wearLogged := true }).event R.rec_EVENTS 32).recLog F.REC_WEAR (leBytes 4 s.wearMax)
  else s

/-- The next wheel opens with its OPEN record, which goes ahead of everything staged (R299, R312); it is stamped no later than the record
that follows it, since STAMP never decreases within a wheel (R300). -/
def State.openNext (s : State) : State :=
  match s.nextSlot with
  | none => s
  | some (slot, gone) =>
    let n := s.recorder.store.nextNumber
    let w : Wheel := { number := n, slot := slot, provisional := !s.clock.seeded, openedAt := s.now }
    let s := s.modStore fun t => { t with
      wheels := (t.wheels.filter fun x => some x.number != gone) ++ [w], nextNumber := (n + 1) % 2 ^ 64 }
    let stamp := match s.recorder.staging with | x :: _ => x.stamp | [] => s.stamp
    let rec_ : Staged := { type := 7, at_ := s.now, stamp := stamp,
                           payload := leBytes 8 n ++ leBytes 8 s.im.configId.toNat ++ leBytes 1 s.recorder.lastCause ++ leBytes 7 0 }
    (s.modRecorder fun r => { r with staging := rec_ :: r.staging }).wear slot

/-! ## Holds (R313) -/

/-- Record i of HOLDS covers a span. -/
def holdCovers (p : List Byte) (i : Nat) (w : Wheel) : Bool :=
  let o := 8 + 24 * i
  let from_ : Stamp := BitVec.ofNat 64 (le p (o + 8) 8)
  let to_ : Stamp := BitVec.ofNat 64 (le p (o + 16) 8)
  match w.first with
  | some f => 0 ≤ stampDiff w.last from_ && (bit (le p (o + 4) 4) 0 || 0 ≤ stampDiff to_ f)
  | none => false

/-- The hold that covers a wheel: one with an end before an open-ended one. -/
def State.holdOf (s : State) (w : Wheel) : Option Nat :=
  let p := s.holdPlan
  let hs := (List.range (le p 0 1)).filter fun i => holdCovers p i w
  match hs.find? fun i => !bit (le p (8 + 24 * i + 4) 4) 0 with
  | some i => some i
  | none => hs.head?

/-- A wheel whose stamps are seeded is held when a hold covers it; an open-ended hold stops at 1,862 slots. -/
def State.holdWheel (s : State) (w : Wheel) : State × Bool :=
  let p := s.holdPlan
  match if w.provisional then none else s.holdOf w with
  | none => (s, false)
  | some i =>
    if bit (le p (8 + 24 * i + 4) 4) 0 ∧ 1862 ≤ s.slotsHeld then
      if s.recorder.holdFull then (s, false)
      else (((s.modRecorder fun r => { r with holdFull := true }).event R.rec_EVENTS 8).recLog F.REC_HOLD_FULL
        (leBytes 4 (le p (8 + 24 * i) 4) ++ leBytes 4 s.slotsHeld), false)
    else (s, true)

/-- A wheel must be signed (R308): also every wheel sealed under the supply warning, at the next start-up (R311). -/
def mustSign (number cause : Nat) (held : Bool) : Bool := number % 16 == 0 || held || cause == sealRecovered || cause == sealWarning

/-- HOLDS has changed: every sealed wheel is held when a hold covers it, a provisional one with the next (R313). -/
def State.applyHolds (s : State) : State :=
  let ws := s.recorder.store.wheels
  let covered (w : Wheel) : Bool := w.seal_.isSome && !w.provisional && (s.holdOf w).isSome
  let hold (i : Nat) (w : Wheel) : Bool :=
    covered w || (w.seal_.isSome && w.provisional && (match ws[i + 1]? with | some x => covered x | none => false))
  let ws' := ws.zipIdx.map fun (w, i) =>
    let h := hold i w
    { w with held := h, due := w.due || h }
  let s := s.modStore fun t => { t with wheels := ws' }
  if s.slotsHeld < 1862 then s.modRecorder fun r => { r with holdFull := false } else s

/-! ## Seals (R307, Table 13-3) -/

/-- First 120 bytes of the seal block. -/
def sealHead (w : Wheel) (x : Seal) : List Byte :=
  leBytes 4 0x4C454857 ++ leBytes 2 1 ++ leBytes 1 x.cause ++
  leBytes 1 (b2n x.signDue + 2 * b2n x.abandonedF + 4 * b2n x.provisional) ++ leBytes 8 w.number ++ leBytes 4 w.slot ++
  leBytes 4 w.records ++ leBytes 4 w.bytes ++ leBytes 4 x.abandoned ++ leBytes 8 (w.first.getD 0).toNat ++ leBytes 8 w.last.toNat ++
  leBytes 8 x.configId.toNat ++ x.prevDigest

/-- Bytes of the record area as written. -/
def Wheel.areaBytes (w : Wheel) : List Byte := (w.area.reverse.flatten).take w.bytes

/-- DIGEST of a wheel. -/
def digestOf (w : Wheel) (x : Seal) (area : List Byte) : List Byte := Config.sha512 (x.prevDigest ++ area ++ sealHead w x)

/-- KEY_ID: first 8 bytes of SHA-512 over the modulus and exponent of the device identity key, as its certificate holds them. -/
def keyId : List Byte := (Config.sha512 ((Config.deviceCertificate.drop 16).take 516)).take 8

/-- Bytes 0 to 191 of the seal block. -/
def sealBlock (w : Wheel) (x : Seal) : List Byte := sealHead w x ++ x.digest ++ keyId

/-- DIGEST of the wheel before. -/
def State.prevDigest (s : State) (n : Nat) : List Byte :=
  match s.wheel (n - 1) with
  | some w => match w.seal_ with | some x => if 0 < n then x.digest else List.replicate 64 0 | none => List.replicate 64 0
  | none => List.replicate 64 0

/-- The seal block of the open wheel is written; nothing opens yet. -/
def State.sealOpen (s : State) (cause abandoned : Nat) : State :=
  match s.openWheel with
  | none => s
  | some w =>
    let (s, held) := s.holdWheel w
    let due := mustSign w.number cause held
    let x : Seal := { cause := cause, signDue := due, abandonedF := decide (0 < abandoned), abandoned := abandoned,
                      provisional := w.provisional, configId := s.im.configId, prevDigest := s.prevDigest w.number, at_ := s.now }
    let x := { x with digest := digestOf w x w.areaBytes }
    let s := s.modOpen fun y => { y with seal_ := some x, held := held, due := due }
    let s := if held then
        s.modStore fun t => { t with wheels := t.wheels.map fun y =>
          if y.provisional && y.number + 1 == w.number then { y with held := true, due := true } else y }
      else s
    let s := (s.nandWrite sealBytes).modRecorder fun r => { r with lastCause := cause, carry := [] }
    ((s.count R.rec_SEALS).event R.rec_EVENTS 1).recLog F.REC_SEALED (leBytes 8 w.number ++ leBytes 1 cause ++ leBytes 4 w.records)

/-! ## Pages (R304) -/

/-- One page goes into the open wheel's record area. -/
def State.writePage (s : State) (page : List Byte) : State :=
  (s.nandWrite page.length).modOpen fun w => { w with area := page :: w.area }

/-- A record is laid out for the open wheel. -/
def State.layOut (s : State) (type source : Nat) (stamp : Stamp) (payload : List Byte) (at_ : Nat) : State :=
  match s.openWheel with
  | none => s
  | some w =>
    let b := recordBytes (match s.im.role with | some 1 => 1 | _ => 0) type source stamp w.records payload
    let s := s.modOpen fun y => { y with records := y.records + 1, bytes := y.bytes + b.length, first := some (y.first.getD stamp), last := stamp }
    s.modRecorder fun r => { r with carry := r.carry ++ b, carryAt := if r.carry.isEmpty then at_ else r.carryAt }

/-- A page that is written before it is full is completed with a PAD record (R304). -/
def State.padPage (s : State) : State :=
  let n := s.recorder.carry.length % pageBytes
  if n = 0 then s
  else
    let left := pageBytes - n
    let left := if left < 24 then left + pageBytes else left
    s.layOut 0 0 s.stamp (List.replicate (left - 24) 0) s.now

/-- Full pages that are laid out are written while the bucket allows it. -/
def State.writePages : Nat → State → State
  | 0, s => s
  | f + 1, s =>
    if pageBytes ≤ s.recorder.carry.length ∧ s.mayWrite pageBytes then
      State.writePages f ((s.writePage (s.recorder.carry.take pageBytes)).modRecorder fun r =>
        { r with carry := r.carry.drop pageBytes, carryAt := s.now })
    else s

/-- One step at the head of the staging ring: a seal, a record laid out, or nothing. `flush` lays out everything. -/
def State.drainStep (s : State) : State :=
  match s.recorder.staging with
  | [] => s
  | r :: rest =>
    match r.seal_ with
    | some cause =>
      let s := s.padPage
      let s := State.writePages (s.recorder.carry.length / pageBytes + 1) s
      if s.recorder.carry.isEmpty ∧ s.mayWrite sealBytes then
        ((s.modRecorder fun q => { q with staging := rest }).sealOpen cause 0).openNext
      else s
    | none =>
      let full : Bool := match s.openWheel with
        | some w => decide (areaBytes < w.bytes + r.size + pageBytes)
        | none => false
      if full then
        let s := s.padPage
        let s := State.writePages (s.recorder.carry.length / pageBytes + 1) s
        if s.recorder.carry.isEmpty ∧ s.mayWrite sealBytes then (s.sealOpen sealFull 0).openNext else s
      else
        let s := (s.modRecorder fun q => { q with staging := rest }).layOut r.type r.source r.stamp r.payload r.at_
        State.writePages (s.recorder.carry.length / pageBytes + 1) s

/-- Everything that can be written now, at most `n` records and seals. -/
def State.drain : Nat → State → State
  | 0, s => s
  | n + 1, s =>
    if s.recorder.staging.isEmpty || pageBytes ≤ s.recorder.carry.length then s else State.drain n s.drainStep

/-- A seal is asked for: it follows every record staged so far, and is made at once when the bucket allows it (R307, R310). -/
def State.sealWheel (s : State) (cause : Nat) : State :=
  match s.openWheel with
  | none => s
  | some _ =>
    let s := s.modRecorder fun r => { r with staging := r.staging ++ [{ type := 0, at_ := s.now, stamp := s.stamp, seal_ := some cause }] }
    State.drain (2 * s.recorder.staging.length + 4) s

/-! ## Admission and shedding (R301, R306) -/

/-- Bytes above which a class is shed: TAP, PROXY, AUDIO. -/
def shedLimit (type : Nat) : Option Nat :=
  match type with
  | 4 => some 8388608 | 2 => some 16777216 | 3 => some 33554432 | _ => none

/-- The shed record of a class. -/
def Recorder.shed (r : Recorder) (type : Nat) : Shed := match type with | 4 => r.shedTap | 2 => r.shedProxy | _ => r.shedAudio
def Recorder.setShed (r : Recorder) (type : Nat) (x : Shed) : Recorder :=
  match type with | 4 => { r with shedTap := x } | 2 => { r with shedProxy := x } | _ => { r with shedAudio := x }

/-- Counter of records shed of a class. -/
def dropsReg (type : Nat) : Nat := match type with | 4 => R.rec_TAP_DROPS | 2 => R.rec_PROXY_DROPS | _ => R.rec_AUDIO_DROPS

/-- The DROP record and the end of the counts it gives (R306). -/
def State.dropRecord (s : State) : State :=
  let r := s.recorder
  let xs := [r.shedTap, r.shedProxy, r.shedAudio].filter fun x => 0 < x.count
  let first := xs.foldl (fun (a : Stamp) x => if 0 < stampDiff a x.first then x.first else a) (match xs with | x :: _ => x.first | [] => 0)
  let last := xs.foldl (fun (a : Stamp) x => if 0 < stampDiff x.last a then x.last else a) (match xs with | x :: _ => x.last | [] => 0)
  let payload := leBytes 4 r.shedTap.count ++ leBytes 4 r.shedProxy.count ++ leBytes 4 r.shedAudio.count ++ leBytes 4 r.abandoned ++
    leBytes 8 first.toNat ++ leBytes 8 last.toNat
  s.modRecorder fun q => { q with
    staging := q.staging ++ [{ type := 6, payload := payload, at_ := s.now, stamp := s.stamp }], abandoned := 0
    shedTap := { q.shedTap with count := 0 }, shedProxy := { q.shedProxy with count := 0 }, shedAudio := { q.shedAudio with count := 0 } }

/-- The recorder admits records of a type in its state (R309, R311, R317). -/
def State.recAdmits (s : State) (type : Nat) : Bool :=
  let r := s.recorder
  (r.state == .recording || (r.state == .ledgerOnly && type == 1)) && !r.closedLedger && (!r.closedAll || type == 1)

/-- A record is admitted to the staging ring, or shed by its class. -/
def State.admitRecord (s : State) (type source : Nat) (payload : List Byte) : State :=
  if !s.recAdmits type then s
  else
    let back := s.backlog
    let add (s : State) : State := s.modRecorder fun r => { r with
      staging := r.staging ++ [{ type := type, source := source, payload := payload, at_ := s.now, stamp := s.stamp }] }
    match shedLimit type with
    | none => add s
    | some limit =>
      let x := s.recorder.shed type
      let on := if x.on then decide (limit / 2 ≤ back) else decide (limit < back)
      if on then
        let y : Shed := { on := true, count := x.count + 1, first := if x.count = 0 then s.stamp else x.first, last := s.stamp }
        let s := ((s.modRecorder fun r => r.setShed type y).count (dropsReg type)).event R.rec_EVENTS 4
        let r := s.recorder
        s.logRated F.REC_DROP 0 R.rec 0 (fun _ => leBytes 4 r.shedTap.count ++ leBytes 4 r.shedProxy.count ++ leBytes 4 r.shedAudio.count) false
      else
        let s := s.modRecorder fun r => r.setShed type { x with on := false }
        let s := if 0 < x.count then s.dropRecord else s
        add s

/-- A TAP record within its tap's cap, or discarded and counted beyond it (R301); its payload begins with flow and port. The result says
whether it was discarded or shed. -/
def State.tapAdmit (s : State) (tap : Nat) (payload : List Byte) : State × Bool :=
  let size := 24 + (pad8 payload).length
  let t := s.tap tap
  let used := if t.second = s.now / sec 1 then t.inSecond else 0
  if s.recAdmits 4 = false then (s, true)
  else
    let cap := (s.tapCap tap).getD 0 * 125
    if cap < used + size then
      let s := (s.modTap tap fun x => { x with limited := min 0xFFFFFFFF (x.limited + 1) }).count R.rec_TAP_DROPS
      s.logRated F.REC_TAP_LIMIT tap R.rec (dpAddr 2 (le payload 4 1) (le payload 0 4) 0 0 0) (fun n => leBytes 1 tap ++ leBytes 4 n) false |> (·, true)
    else
      let s := s.modTap tap fun x => { x with pkts := min 0xFFFFFFFF (x.pkts + 1), inSecond := used + size, second := s.now / sec 1 }
      let t := s.admitRecord 4 tap payload
      (t, t.recorder.staging.length == s.recorder.staging.length)

/-- A packet of a RECORD flow reaches its tap (R301): from the first byte of its IP header to the end of its UDP payload. -/
def State.tapDeliver (s : State) (tap flow port : Nat) (packet : List Byte) : State × Bool :=
  s.tapAdmit tap (leBytes 4 flow ++ leBytes 1 port ++ leBytes 3 0 ++ packet)

/-! ## The supply warning (R309) and start-up (R311) -/

/-- HULL_SAG: admission closes for every class except LEDGER, and writes draw on the whole bucket. -/
def State.recorderWarn (s : State) : State :=
  s.modRecorder fun r => { r with closedAll := true, warnAt := some s.now, warnAbandoned := 0 }

/-- ENABLE of RECORDER_PLAN decides between recording and ledger only (R317). -/
def State.recRunState (s : State) : RecState := if bit (le s.recPlan 0 1) 0 then .recording else .ledgerOnly

/-- The feeds rise again without a reset: a new wheel opens when the warning sealed one, and the recorder resumes. -/
def State.recorderResume (s : State) : State :=
  let s := s.modRecorder fun r => { r with closedAll := false, closedLedger := false, warnAt := none }
  if s.recorder.state = .warnSealed then (s.modRecorder fun r => { r with state := s.recRunState }).openNext else s

/-- RECORDER_PLAN has changed (R310): it seals nothing. -/
def State.recorderPlan (s : State) : State :=
  match s.recorder.state with
  | .recording | .ledgerOnly => s.modRecorder fun r => { r with state := s.recRunState }
  | _ => s

/-- Records of a record area up to the first one that fails its CRC or was never written: the size and stamp of each. -/
def areaRecords : Nat → List Byte → List (Nat × Stamp)
  | 0, _ => []
  | f + 1, p =>
    let len := le p 4 4
    let n := 24 + len + (8 - len % 8) % 8
    if p.length < 24 ∨ p.length < n then []
    else if crc32c (p.take 20 ++ (p.drop 24).take (n - 24)) ≠ le p 20 4 then []
    else (n, BitVec.ofNat 64 (le p 8 8)) :: areaRecords f (p.drop n)

/-- The records that a wheel's written pages hold whole. -/
def Wheel.kept (w : Wheel) : List (Nat × Stamp) :=
  let area := w.area.reverse.flatten
  areaRecords (area.length / 24 + 1) area

/-- The wheel holds the records that its written pages hold whole. -/
def Wheel.cut (w : Wheel) : Wheel :=
  let r := w.kept
  { w with records := r.length, bytes := (r.map (·.1)).sum, first := r.head?.map (·.2), last := (r.getLast?.map (·.2)).getD w.last }

/-- A sealed wheel is signed with the device identity key (R308, Table 13-4). -/
def State.signWheel (s : State) (n : Nat) : State :=
  match s.wheel n with
  | none => s
  | some w =>
    match w.seal_, w.signed with
    | some x, none =>
      let sig := Config.pssSign (sealBlock w x)
      let s := s.modStore fun t => { t with wheels := t.wheels.map fun y => if y.number = n then { y with signed := some (s.stamp, sig) } else y }
      ((s.nandWrite sealBytes).event R.rec_EVENTS 2).recLog F.REC_SIGNED (leBytes 8 n)
    | _, _ => s

/-- At start-up (R311): a wheel without a seal is sealed as RECOVERED and signed, then wheels sealed under a warning are signed,
then a new wheel opens and admits. -/
def State.recorderRecover (s : State) : State :=
  let s := s.modRecorder fun r => { r with state := .recovering, tokensAt := s.now }
  let s := match s.openWheel with
    | none => s
    | some w =>
      let s := s.modOpen Wheel.cut
      let s := (s.sealOpen sealRecovered 0).signWheel w.number
      s.recLog F.REC_RECOVERED (leBytes 8 w.number ++ leBytes 4 w.kept.length)
  let s := s.recorder.store.wheels.foldl (fun s w =>
    match w.seal_, w.signed with
    | some x, none => if x.cause = sealWarning ∧ w.due then (s.signWheel w.number).recLog F.REC_SIGN_LATE (leBytes 8 w.number) else s
    | _, _ => s) s
  (s.modRecorder fun r => { r with state := s.recRunState }).openNext

end Sys2Proof.Machine
end

