-- ==== Sys2Proof/Machine/Proxy.lean ====
section
/-!
DEFINITION. Proxies (R302): the mean of a block, its reduction to 8 bits, and the payload of a PROXY record.
-/

namespace Sys2Proof.Machine

/-- Mean of n samples of depth B, reduced to 8 bits. -/
def proxySample (depth sum n : Nat) : Nat :=
  let v := if n = 0 then 0 else (sum + n / 2) / n
  if depth = 8 then v else min ((v + 2 ^ (depth - 9)) / 2 ^ (depth - 8)) 255

/-- Proxy width and height of a picture. -/
def proxyWidth (width : Nat) : Nat := width / 16
def proxyHeight (height : Nat) : Nat := (height + 15) / 16

/-- Bits in bytes, bit 0 of byte 0 first, padded to 8 bytes. -/
def bitmapBytes (l : List Bool) : List Byte :=
  pad8 ((List.range ((l.length + 7) / 8)).map fun i =>
    BitVec.ofNat 8 (((l.drop (8 * i)).take 8).zipIdx.foldl (fun v e => v + 2 ^ e.2 * b2n e.1) 0))

/-- The payload of a PROXY record: FRAME, size, FORMAT, start stamp, flagged blocks, bitmap, pixels. -/
def proxyPayload (frame width height fmt : Nat) (start : Stamp) (voids : List Bool) (pixels : List Byte) : List Byte :=
  leBytes 4 frame ++ leBytes 2 (proxyWidth width) ++ leBytes 2 (proxyHeight height) ++ leBytes 1 fmt ++ leBytes 3 0 ++
  leBytes 8 start.toNat ++ leBytes 4 (voids.filter id).length ++ bitmapBytes voids ++ pixels

/-- Bytes of a proxy's record: 24 bytes and the padded payload (R303). -/
def proxyRecordSize (width height : Nat) : Nat :=
  let n := proxyWidth width * proxyHeight height
  let p := 24 + (n + 63) / 64 * 8 + 3 * n
  24 + (p + 7) / 8 * 8

/-- A proxy of a source is taken of a frame: its PERIOD divides the frame number. -/
def State.proxied (s : State) (source frame : Nat) : Bool :=
  match s.proxyPeriod source with
  | some p => 0 < p && frame % p == 0
  | none => false

end Sys2Proof.Machine
end

