-- ==== Sys2Proof/Machine/Tiles.lean ====
section
/-!
DEFINITION. The tiles of D1 to D7: which exist (Table 1-3), which the role gates and which are unused (R374), gating and
ungating.
-/

namespace Sys2Proof.Machine

/-- Tile numbers of a domain (Table 1-3). -/
def domainTiles (d : Nat) : List Nat :=
  match d with
  | 0 => List.range 11
  | 1 => List.range 9
  | 2 | 3 => List.range 26
  | 4 => List.range 4 ++ [8] ++ (List.range 48).map (0x10 + ·)
  | 5 | 6 => List.range 8 ++ (List.range 16).map (0x10 + ·) ++ (List.range 32).map (0x20 + ·)
  | 7 => [0, 1]
  | _ => []

/-- Number of a tile in `State.tiles`. -/
def tileNo (d t : Nat) : Nat := 256 * d + t

/-- Every tile of D1 to D7. -/
def allTiles : List (Nat × Nat) :=
  [1, 2, 3, 4, 5, 6, 7].flatMap fun d => (domainTiles d).map fun t => (d, t)

/-- Coder tile K of a number. -/
def coderTile (k : Nat) : Nat × Nat := (2 + k / 26, k % 26)

/-- The coder number of a tile of D2 or D3. -/
def coderOf (d t : Nat) : Option Nat := if d = 2 ∨ d = 3 then (if t < 26 then some (26 * (d - 2) + t) else none) else none

/-- The tile is in service. -/
def State.inService (s : State) (d t : Nat) : Bool := (s.tile (tileNo d t)).state == .inService

/-- The role gates the tile (R374): coder tiles and rinds in the wall role; heads, scalers and surface readers in the source
role. -/
def roleGates (role d t : Nat) : Bool :=
  if role = 1 then d == 2 || d == 3 || (d == 4 && 0x10 ≤ t)
  else d == 5 || d == 6

/-- Discard the registers of a tile: it reads its reset values. -/
def State.clearTileRegs (s : State) (d t : Nat) : State :=
  let keep (a : Nat) : Bool := a / 0x100000 != 256 * d + t
  { s with regs := s.regs.filter fun e => keep e.1 }

/-- A tile of the coders, the egress, the heads, the scalers or the readers. -/
def countsClear (d t : Nat) : Bool := d == 2 || d == 3 || (d == 4 && decide (t < 4)) || d == 5 || d == 6

/-- Counters of a tile clear as it joins service (R190, R235, R254): the registers that only count, and what is counted for its
channels and its coder. -/
def State.clearTileCounts (s : State) (d t : Nat) : State :=
  if !countsClear d t then s
  else
    let counter (a : Nat) : Bool := match rowOf a with | some r => r.rw == 0 && r.w1c == 0 | none => false
    let s : State := { s with regs := s.regs.filter fun e => !(e.1 / 0x100000 == 256 * d + t && counter e.1) }
    let s := match coderOf d t with
      | some k => s.modCoder k fun x => { x with fifoPeak := 0 }
      | none => s
    if d = 4 then
      (List.range 48).foldl (fun s c =>
        if s.chanField c 40 1 / 8 = t then s.modChan c fun x => { x with bytes := 0, qCount := [], latMax := 0 } else s) s
    else s

/-- KEEP_RIPE of POWER_POLICY; 4 without the section (R377). -/
def State.keepRipe (s : State) : Nat :=
  if s.hasSection 0x0D01 0 5 then le (s.payload 0x0D01 0 5) 1 1 else 4

/-- Coder tiles that hold no channel, in ascending order. -/
def State.freeCoders (s : State) : List Nat := (List.range 52).filter fun k => (s.coder k).channel.isNone

/-- The configuration in force gives the tile no channel, surface, layer, head output, flow, port or pair link, and among
the coder tiles without a channel it is not one of the KEEP_RIPE lowest-numbered (R374). -/
def State.tileUnused (s : State) (d t : Nat) : Bool :=
  match d with
  | 1 => if t < 4 then le (s.payload 0x0201 1 t) 0 1 == 0 && !s.hasSection 0x0203 1 t
         else if t < 8 then !(s.hasSection 0x0302 1 t || s.hasSection 0x0304 1 t) else false
  | 2 | 3 => match coderOf d t with
    | some k => (s.coder k).channel.isNone && !((s.freeCoders.take s.keepRipe).contains k)
    | none => false
  | 4 => if t < 4 then !s.hasSection 0x0405 4 t
         else if 0x10 ≤ t then !s.hasSection 0x0401 4 t else false
  | 5 | 6 => if t < 8 then !s.hasSection 0x0681 d t
             else !(s.config.any fun x => x.type == 0x0601 && (x.domain == 5 || x.domain == 6))
  | 7 => t == 0 && !s.hasSection 0x0701 7 0
  | _ => false

/-- Gate a tile: it reads its reset values and is neither ripe nor in service. -/
def State.gate (s : State) (d t cause : Nat) : State :=
  let s := (s.modTile (tileNo d t) fun x => { x with state := .gated, cause := cause }).clearTileRegs d t
  match coderOf d t with
  | some k => s.modCoder k fun c => { plane := c.plane, content := c.content }
  | none => s

/-- Ungate a tile: 20 us later it ripens (R374, R74). -/
def State.ungate (s : State) (d t : Nat) : State :=
  let x := s.tile (tileNo d t)
  if x.state = .gated then
    let s := s.setTile (tileNo d t) { x with state := .ripening, cause := 0, ripeFrom := s.now + us 20 }
    match coderOf d t with
    | some k => s.modCoder k fun c => { c with state := .ripening, ripeFrom := s.now + us 20 }
    | none => s
  else s

/-- The role in force: 0 source, 1 wall, 3 none (STATE.ROLE of Table 3-12). -/
def State.roleNo (s : State) : Nat := s.im.role.getD 3

/-- A pending commit uses the tile. -/
def State.tilePending (s : State) (d t : Nat) : Bool :=
  s.commits.live.any fun c => c.sections.any fun x => x.domain == d && x.tile == t

/-- Gate every tile of a list that is unused in TRIM (R374). -/
def State.gateUnusedOf (s : State) (l : List (Nat × Nat)) : State :=
  l.foldl (fun s x =>
    if (s.tile (tileNo x.1 x.2)).state = .inService && s.tileUnused x.1 x.2 && !s.tilePending x.1 x.2 then s.gate x.1 x.2 2 else s) s

/-- Gate every tile that is unused in TRIM. -/
def State.gateUnused (s : State) : State := s.gateUnusedOf allTiles

/-- In TRIM the coder tiles beyond the KEEP_RIPE lowest-numbered free ones are gated as they become free. -/
def State.trimCoders (s : State) : State :=
  if s.hull.state = .trim then s.gateUnusedOf ((List.range 52).map coderTile) else s

/-- In TRIM a takeover that consumes a powered spare ungates the lowest-numbered gated one (R374). -/
def State.ungateSpare (s : State) : State :=
  if s.hull.state = .trim then
    match (List.range 52).find? fun k => (s.tile (tileNo (coderTile k).1 (coderTile k).2)).cause == 2 with
    | some k => s.ungate (coderTile k).1 (coderTile k).2
    | none => s
  else s

/-- Ungate every tile that was gated for a given cause. -/
def State.ungateCause (s : State) (cause : Nat) : State :=
  allTiles.foldl (fun s x => if (s.tile (tileNo x.1 x.2)).cause = cause then s.ungate x.1 x.2 else s) s

/-- DOM_STATUS (Table 18-5): in D0 every tile is in service from phase 2. -/
def State.domStatus (s : State) (d : Nat) : Word :=
  let ts := domainTiles d
  let count (st : TileState) : Nat := (ts.filter fun t => (s.tile (tileNo d t)).state == st).length
  if d = 0 then w32 (0x1000000 * ts.length + 0x10000 * ts.length)
  else w32 (0x1000000 * ts.length + 0x10000 * count .inService + 0x100 * count .gated + count .ripening)

/-- GATE_INFO (Table 16-7). -/
def State.gateInfo (s : State) (sel : Nat) : Word :=
  let d := sel / 256 % 16
  let t := sel % 256
  if 1 ≤ d ∧ d ≤ 7 ∧ t ∈ domainTiles d then
    let x := s.tile (tileNo d t)
    w32 (0x80000000 + 0x40000000 * b2n (x.state == .gated) + 0x10000000 * x.cause)
  else 0

end Sys2Proof.Machine
end

