-- ==== Sys2Proof/Machine/Rind.lean ====
section
/-!
DEFINITION. The rind of a channel (R178, R193, R199 to R202): what becomes of each curd position, the mirror records, the
LINE_CLOSE and FRAME_CLOSE packets, and the release of a coder after a takeover.
-/

namespace Sys2Proof.Machine

/-! ## Mirror records (R200) -/

/-- q_next of 256 columns as 128 bytes; nibble i from the low nibble of byte 0 upward. -/
def qNextBytes (q : List Nat) : List Byte :=
  (List.range 128).map fun i => BitVec.ofNat 8 (q.getD (2 * i) 0 % 16 + 16 * (q.getD (2 * i + 1) 0 % 16))

/-- Bytes 0 to 147 of a mirror record (Table 8-3). -/
def MirrorRec.head (r : MirrorRec) : List Byte :=
  leBytes 2 r.magic ++ leBytes 1 r.kind ++ leBytes 1 r.channel ++ leBytes 2 r.claim ++ leBytes 2 r.line ++ leBytes 4 r.frame ++
  leBytes 4 r.n ++ leBytes 2 r.d ++ leBytes 2 0 ++ qNextBytes r.qNext

/-- Bytes 152 to 159: ENTRIES, 0xFFFF while the record is open, and SEQ_NEXT. -/
def MirrorRec.close (r : MirrorRec) : List Byte :=
  leBytes 2 (if r.closed then r.entries.length else 0xFFFF) ++ leBytes 2 0 ++ leBytes 4 r.seqNext

/-- A mirror entry before its ENTRY_CRC (Table 8-4). -/
def MirrorEntry.body (e : MirrorEntry) : List Byte :=
  leBytes 2 e.column ++ leBytes 1 (b2n e.void) ++ leBytes 1 e.qNext ++ leBytes 2 e.dAfter ++ leBytes 2 e.record.length ++ e.record ++
  List.replicate ((4 - e.record.length % 4) % 4) 0

/-- The record as the brine store holds it. -/
def MirrorRec.bytes (r : MirrorRec) : List Byte :=
  r.head ++ leBytes 4 r.openCrc ++ r.close ++ (r.entries.flatMap fun e => e.body ++ leBytes 4 e.crc) ++
  (if r.closed then leBytes 4 (crc32c r.close) else [])

/-- MAGIC and OPEN_CRC are right (R201). -/
def MirrorRec.headOk (r : MirrorRec) : Bool := r.magic == 0xB21E && r.openCrc == crc32c r.head

/-- ENTRY_CRC is right. -/
def MirrorEntry.ok (e : MirrorEntry) : Bool := e.crc == crc32c e.body

/-- Set OPEN_CRC, or ENTRY_CRC. -/
def MirrorRec.seal (r : MirrorRec) : MirrorRec := { r with openCrc := crc32c r.head }
def MirrorEntry.seal (e : MirrorEntry) : MirrorEntry := { e with crc := crc32c e.body }

/-- A frame record read from its 164 bytes, when OPEN_CRC and CLOSE_CRC are good (R207). -/
def readFrameRecord (b : List Byte) : Option MirrorRec :=
  if b.length = 164 ∧ le b 0 2 = 0xB21E ∧ le b 2 1 = 2 ∧ le b 3 1 < 48 ∧ le b 148 4 = crc32c (b.take 148) ∧
      le b 160 4 = crc32c ((b.drop 152).take 8) then
    some { kind := 2, channel := le b 3 1, claim := le b 4 2, line := le b 6 2 % 0x2000, frame := le b 8 4, n := le b 12 4, d := le b 16 2,
           qNext := (List.range 256).map fun i => le b (20 + i / 2) 1 / 16 ^ (i % 2) % 16, openCrc := le b 148 4, closed := true,
           seqNext := le b 156 4 }
  else none

/-- q_next of every column, 128 bytes of nibbles in Table 8-3. -/
def State.qNextAll (s : State) (c : Nat) : List Nat := (List.range 256).map (s.qNextOf c)

/-- The line record of a line of a frame in a brine slot. -/
def MirrorRec.isLine (r : MirrorRec) (frame line : Nat) : Bool := r.kind == 1 && r.frame == frame && r.line == line

/-- The channel's line record of a line. -/
def State.lineRecord (s : State) (c frame line : Nat) : Option MirrorRec :=
  let x := s.rind c
  match x.ls0, x.ls1 with
  | some r, q => if r.isLine frame line then some r else q.filter fun r => r.isLine frame line
  | none, q => q.filter fun r => r.isLine frame line

/-- Change it. -/
def State.modLineRecord (s : State) (c frame line : Nat) (f : MirrorRec → MirrorRec) : State :=
  s.modRind c fun x =>
    let g (r : Option MirrorRec) : Option MirrorRec := r.map fun r => if r.isLine frame line then f r else r
    { x with ls0 := g x.ls0, ls1 := g x.ls1 }

/-- A line record is opened in the other slot when the first curd of its line is resolved. -/
def State.openRecord (s : State) (c : Nat) (frame line n : Nat) : State :=
  if (s.lineRecord c frame line).isSome then s
  else
    let q := s.qNextAll c
    let d := (s.chan c).bank
    let claim := s.claimOf c
    s.modRind c fun x =>
      let r := ({ kind := 1, channel := c, claim := claim, line := line, frame := frame, n := n, d := d, qNext := q } : MirrorRec).seal
      if x.second then { x with ls0 := some r, second := false } else { x with ls1 := some r, second := true }

/-! ## Release of a coder after a takeover (R197, R199, R215) -/

/-- Ripe spares and failed coders. -/
def State.ripeSpares (s : State) : List Nat := (List.range 52).filter fun k => (s.coder k).state == .ripe
def State.failedCoders (s : State) : List Nat := (List.range 52).filter fun k => (s.coder k).state == .failed

/-- SPARE_MIN of CLAIM_PLAN; 1 without the section. -/
def State.spareMin (s : State) : Nat := if s.hasSection 0x0501 4 8 then s.claimField 1 1 else 1

/-- The plane that a roll gives a coder; none when the roll does not target it. -/
def Roll.planeOf (r : Roll) (k : Nat) : Option (List Byte) :=
  (r.sections.find? fun x => coderOf x.domain x.tile == some k).map (·.payload)

/-- The coder tile still holds the old plane of the roll; a failed or gated one does not count. -/
def State.oldPlane (s : State) (k : Nat) : Bool :=
  match s.roll.planeOf k with
  | some p => (s.coder k).content != p && (s.coder k).state != .failed && (s.tile (tileNo (coderTile k).1 (coderTile k).2)).state != .gated
  | none => false

/-- REMAINING: coder tiles still on the old plane. -/
def State.rollRemaining (s : State) : Nat := if s.roll.active || s.roll.halted then ((List.range 52).filter s.oldPlane).length else 0

/-- The lowest-numbered channel whose coder still holds the old plane, with that coder (R77 step 3). -/
def State.rollNext (s : State) : Option (Nat × Nat) :=
  (List.range 48).findSome? fun c =>
    match (s.rind c).coder with
    | some k => if s.oldPlane k then some (c, k) else none
    | none => none

/-- The lowest-numbered ripe spare of the new plane. -/
def State.newSpare (s : State) : Option Nat :=
  s.ripeSpares.find? fun k => (s.roll.planeOf k).isSome && !s.oldPlane k

/-- A step is possible: 2 spares are ripe and one of them holds the new plane. A roll with no channel left to move waits for none
(R77). -/
def State.stepPossible (s : State) : Bool := s.rollNext.isNone || (decide (2 ≤ s.ripeSpares.length) && s.newSpare.isSome)

/-- A roll notes since when no step has been possible (R78). -/
def State.rollWaits (s : State) : State :=
  if s.roll.active then
    s.modRoll fun r => { r with stalled := if s.stepPossible then none else some (r.stalled.getD s.now) }
  else s

/-- SPARE_LOW is logged once until the count recovers (R215). It concerns no channel: its control address is that of the first rind
(DESIGN CHOICE, log entry 66). -/
def State.spareCheck (s : State) : State :=
  let s := s.rollWaits
  let n := s.ripeSpares.length
  if n < s.spareMin then
    if s.pair.spareLow then s
    else ((s.modPair fun p => { p with spareLow := true }).event R.brine_EVENTS 4).log F.SPARE_LOW (R.rind 0)
      (leBytes 1 n ++ leBytes 1 s.spareMin)
  else if s.pair.spareLow then s.modPair fun p => { p with spareLow := false } else s

/-- The coder that a takeover freed: failed after a fault or a suspicion, a ripe spare after a MOVE, ripening after a roll
step (R199). -/
def State.freeCoder (s : State) (k cause : Nat) : State :=
  let s := s.modCoder k fun x => { x with channel := none, store := [], verify := [] }
  let s :=
    if cause = 5 then s.modCoder k fun x => { x with state := .ripe }
    else if cause = 6 then
      (s.modCoder k fun x => { x with state := .ripening, ripeFrom := s.now }).modTile (tileNo (coderTile k).1 (coderTile k).2)
        fun t => { t with state := .ripening, ripeFrom := s.now }
    else s.modCoder k fun x => { x with state := .failed }
  s.spareCheck.trimCoders

/-- One FENCE_VOID entry per takeover, when its last curd is voided (R193). -/
def State.fenceReport (s : State) (c : Nat) : State :=
  let (n, a, b) := (s.rind c).fenceVoids
  if n = 0 then s
  else (s.modRind c fun x => { x with fenceVoids := (0, 0, 0) }).logData F.FENCE_VOID (R.rind c) (s.chanDp c 3 0 0)
    (leBytes 4 n ++ leBytes 2 a ++ leBytes 2 b)

/-- Line T - 1 is resolved: the takeover is complete. -/
def State.handedOver (s : State) (c : Nat) : State :=
  let x := s.rind c
  let s := s.modRind c fun x => { x with handing := false, fenced := false, prev := none }
  let s := s.fenceReport c
  match x.prev with
  | some k => if some k = x.coder then s else s.freeCoder k x.prevCause
  | none => s

/-- A line of a frame has been closed; it may be line T - 1 of a takeover (R199). -/
def State.lineResolved (s : State) (c frame line : Nat) : State :=
  let x := s.rind c
  if x.handing && !x.pending && x.takeFrame == frame && line + 1 == x.takeLine then s.handedOver c else s

/-- A frame has been closed; for T = 0 its last line was line T - 1. -/
def State.frameResolved (s : State) (c : Nat) : State :=
  let x := s.rind c
  if x.handing && !x.pending && x.takeLine == 0 && !((s.chan c).frames.any fun f => newer32 x.takeFrame f.number) then
    s.handedOver c
  else s

/-! ## Packets of the rind -/

/-- The packet of packed packing is closed and queued (R182). -/
def State.closePacket (s : State) (c : Nat) : State :=
  match (s.chan c).packet with
  | none => s
  | some p =>
    let rtp := match (s.chan c).frames.find? fun f => f.number == p.frame with | some f => f.rtp | none => 0
    (s.modChan c fun x => { x with packet := none }).chanSend c 1 p.frame rtp p.stamp p.body p.lastAt p.firstAt

/-- Holding the open packet for a further 1,538 line bytes would make its earliest record late on a path (R182). -/
def State.packetFull (s : State) (c : Nat) (p : OpenPacket) : Bool :=
  (s.chanPaths c).any fun b =>
    let r := s.portRate (s.pathPort c b)
    (s.port (s.pathPort c b)).state == .up && p.firstAt + 1000 < s.projected c b (p.body.length + 24) + (8 * 1538 + (r - 1)) / r

/-- A record enters the open packet (R182). -/
def State.packRecord (s : State) (c frame line lastAt : Nat) (stamp : Stamp) (record : List Byte) : State :=
  let s := match (s.chan c).packet with
    | some p => if p.frame ≠ frame ∨ 1400 < p.body.length + record.length then s.closePacket c else s
    | none => s
  let p : OpenPacket := match (s.chan c).packet with
    | some p => { p with body := p.body ++ record, stamp := stamp, lastAt := lastAt, firstAt := min p.firstAt lastAt,
                         lines := if p.lines.contains line then p.lines else line :: p.lines }
    | none => { frame := frame, body := record, stamp := stamp, lastAt := lastAt, firstAt := lastAt, openedAt := s.now, lines := [line] }
  let s := s.modChan c fun x => { x with packet := some p }
  if s.packetFull c p then s.closePacket c else s

/-- Bytes of RTP payload that a record's packet will have. -/
def State.streamBytes (s : State) (c frame n : Nat) : Nat :=
  match (s.chan c).packet with
  | some p => if s.chanPacked c ∧ p.frame = frame ∧ p.body.length + n ≤ 1400 then p.body.length + n + 24 else n + 24
  | none => n + 24

/-- The bitmap CODEDs of a stripe (Table 6-5). -/
def codedBitmap (rs : List Resolved) (stripe : Nat) : Nat :=
  (rs.filter fun r => r.stripe == stripe && r.coded).foldl (fun v r => v ||| 2 ^ r.k) 0

/-- Body of a LINE_CLOSE packet (Table 6-5). -/
def lineCloseBody (line : Nat) (rs : List Resolved) : List Byte :=
  beBytes 2 line ++ beBytes 2 0 ++ (List.range 4).flatMap fun s => beBytes 8 (codedBitmap rs s)

/-- Change an open frame. -/
def State.modFrame (s : State) (c number : Nat) (f : TxFrame → TxFrame) : State :=
  s.modChan c fun x => { x with frames := x.frames.map fun t => if t.number = number then f t else t }

/-- An open frame. -/
def State.frameOf (s : State) (c number : Nat) : Option TxFrame := (s.chan c).frames.find? fun t => t.number == number

/-- The state in which the channel's sections are those of one of its open frames. -/
def State.underPlan (s : State) (c number : Nat) : State :=
  match s.frameOf c number with
  | none => s
  | some t => s.modChan c fun y => { y with plan := t.secs.plan, zones := t.secs.zones, key := t.secs.key }

/-- Do something to a frame of a channel under the sections that the frame is completed under (R165). -/
def State.under (s : State) (c number : Nat) (f : State → State) : State :=
  match s.frameOf c number with
  | none => f s
  | some t =>
    let x := s.chan c
    if t.secs = ⟨x.plan, x.zones, x.key⟩ then f s
    else (f (s.modChan c fun y => { y with plan := t.secs.plan, zones := t.secs.zones, key := t.secs.key })).modChan c fun y =>
      { y with plan := x.plan, zones := x.zones, key := x.key }

/-- Every position of a line is resolved: its LINE_CLOSE is formed and its mirror record is closed (R140, R180, R200). -/
def State.closeLine (s : State) (c number line : Nat) : State :=
  match s.frameOf c number with
  | none => s
  | some f =>
    let rs := f.resolved.filter fun r => r.line == line
    let s := match (s.chan c).packet with
      | some p => if p.lines.contains line && p.frame == number then s.closePacket c else s
      | none => s
    let last := rs.foldl (fun (a : Nat × Stamp) r => if a.1 < r.at_ then (r.at_, r.stamp) else a) (0, f.startStamp)
    let s := s.chanSend c 2 number f.rtp last.2 (lineCloseBody line rs)
    let next := (s.chan c).seq
    let s := s.modLineRecord c number line fun r => { r with closed := true, seqNext := next }
    let s := s.modFrame c number fun t => { t with closed := line :: t.closed, resolved := t.resolved.filter fun r => r.line != line }
    s.lineResolved c number line

/-- Body of a FRAME_CLOSE packet (Table 6-6). -/
def State.frameCloseBody (s : State) (c : Nat) (f : TxFrame) : List Byte :=
  let w (i : Nat) : List Byte := beBytes 2 (s.chanField c (20 + 2 * i) 2)
  beBytes 2 (s.chanField c 4 2) ++ beBytes 2 (s.chanField c 6 2) ++ leBytes 1 (s.chanField c 1 1) ++ leBytes 1 (s.chanField c 2 1) ++
  beBytes 2 (s.chanField c 12 2) ++ w 0 ++ w 1 ++ w 2 ++ w 3 ++ leBytes 1 (s.chanV c) ++ leBytes 1 (s.chanR c) ++
  beBytes 2 (s.chanField c 8 2) ++ beBytes 2 (s.chanField c 10 2) ++ leBytes 1 (s.chanQmax c) ++ [0] ++
  beBytes 4 f.curds ++ beBytes 4 f.voids ++ beBytes 8 f.startStamp.toNat

/-! ## Proxies of channels (R302) -/

/-- Plane and order of a proxy's samples: R, G, B for an RGB format, whose planes are G, B, R. -/
def proxyPlanes (sampling : Nat) : List Nat := if sampling = 2 then [2, 0, 1] else [0, 1, 2]

/-- Samples of a plane in a block. -/
def blockSamples (g : Geometry) (by_ plane : Nat) : Nat :=
  min 16 (g.height - 16 * by_) * (if g.fmt % 4 = 0 ∧ plane ≠ 0 then 8 else 16)

/-- A unit received at ingress enters the sums of its block: 6 x block + plane, and 6 x block + 3 + plane for the count. -/
def State.proxyUnit (s : State) (c frame row col : Nat) (unit : List Int) : State :=
  if !s.proxied c frame then s
  else
    let g := s.chanGeom c
    let block := row / 16 * proxyWidth g.width + col / 16
    if proxyWidth g.width ≤ col / 16 then s
    else s.modChIn c fun x =>
      let old := match x.proxies.find? fun e => e.1 == frame with | some e => e.2 | none => []
      let new := unit.zipIdx.foldl (fun (m : Sparse Nat) e =>
        let p := (sampleAt (g.fmt % 4) 0 e.2).1
        let add (m : Sparse Nat) (k v : Nat) : Sparse Nat := m.put (fun _ => 0) k (m.get (fun _ => 0) k + v)
        add (add m (6 * block + p) e.1.toNat) (6 * block + 3 + p) 1) old
      { x with proxies := (frame, new) :: x.proxies.filter fun e => e.1 != frame }

/-- A block has a pixel in a curd sent VOID in the frame. -/
def blockVoid (g : Geometry) (voided : List (Nat × Nat × Nat)) (by_ bx : Nat) : Bool :=
  voided.any fun v =>
    let x := g.x0 v.2.1 + v.2.2 * g.curd
    v.1 / 16 == by_ && x < 16 * bx + 16 && 16 * bx < x + g.pixels v.2.1 v.2.2

/-- The proxy of a frame that has been closed. A sample of a block that was not received whole has a free value. -/
def State.channelProxy (s : State) (c : Nat) (f : TxFrame) : State :=
  if !s.proxied c f.number then s
  else
    let g := s.chanGeom c
    let sums : Sparse Nat := match (s.chIn c).proxies.find? fun e => e.1 == f.number with | some e => e.2 | none => []
    let w := proxyWidth g.width
    let blocks := (List.range (proxyHeight g.height)).flatMap fun by_ => (List.range w).map fun bx => (by_, bx)
    let voids := blocks.map fun b => blockVoid g f.voided b.1 b.2
    let px := blocks.flatMap fun b => (proxyPlanes (g.fmt % 4)).map fun p =>
      let k := 6 * (b.1 * w + b.2)
      let n := sums.get (fun _ => 0) (k + 3 + p)
      if n = blockSamples g b.1 p then BitVec.ofNat 8 (proxySample (depthOf g.fmt) (sums.get (fun _ => 0) (k + p)) n)
      else Config.freeByte (s.fresh + k + p)
    let s : State := { s with fresh := s.fresh + 6 * blocks.length }
    (s.admitRecord 2 c (proxyPayload f.number g.width g.height g.fmt f.startStamp voids px)).modChIn c fun x =>
      { x with proxies := x.proxies.filter fun e => e.1 != f.number && !newer32 f.number e.1 }

/-- The oldest open frame has ended and every line of it is closed: its FRAME_CLOSE and its frame record are formed
(R141, R180, R200), and the refresh counter advances (R176). -/
def State.closeFrame (s : State) (c : Nat) : State :=
  match (s.chan c).frames with
  | [] => s
  | f :: rest =>
    match f.ended with
    | none => s
    | some stamp =>
      if f.closed.length < le f.secs.plan 6 2 then s
      else s.under c f.number fun s =>
        let s := s.chanSend c 3 f.number f.rtp stamp (s.frameCloseBody c f)
        let x := s.chan c
        let r := ({ kind := 2, channel := c, claim := s.claimOf c, line := (s.chanGeom c).height - 1, frame := f.number,
                    n := f.n, d := x.bank, qNext := s.qNextAll c, closed := true, seqNext := x.seq } : MirrorRec).seal
        let s := s.modRind c fun y => { y with frameRec := some r }
        let s := s.modPair fun p => { p with unsent := if p.unsent.contains c then p.unsent else p.unsent ++ [c] }
        let s := (s.modChan c fun x => { x with frames := rest, lastClose := some f.number, n := (f.n + 1) % 2 ^ 32 }).channelProxy c f
        s.frameResolved c

/-! ## Resolution of a position -/

/-- While line T - 1 of a takeover is not resolved, its entries still reach the new holder's press (R201, R202): the column's q_next,
and D until the new holder has selected a curd of line T (DEDUCED, log entry 66). -/
def State.pressFollows (s : State) (c frame line col q d : Nat) : State :=
  let x := s.rind c
  if x.handing && !x.pending && !x.restartRow && x.takeFrame == frame && line + 1 == x.takeLine then
    let own := (s.chan c).jobs.any fun j => j.frame == frame && j.line == x.takeLine && j.selectedAt.isSome
    let s := s.setQ c col q
    if own then s else s.modChan c fun y => { y with bank := d }
  else s

/-- The job of a position. -/
def Job.at (j : Job) (frame line stripe k : Nat) : Bool := j.frame == frame && j.line == line && j.stripe == stripe && j.k == k

/-- Change it. -/
def State.modJob (s : State) (c : Nat) (j : Job) (f : Job → Job) : State :=
  s.modChan c fun x => { x with jobs := x.jobs.map fun i => if i.at j.frame j.line j.stripe j.k then f i else i }

/-- Jobs that neither the rind nor the lanes nor a late entry need any more leave the list. -/
def State.dropJobs (s : State) (c : Nat) : State :=
  s.modChan c fun x => { x with jobs := x.jobs.filter fun j => !(j.resolved && !j.owed && (j.selectedAt.isSome || j.lacks || j.fate == some .fence)) }

/-- How a position was resolved. -/
inductive Outcome3 where
  | skipped
  | coded (w : Winner)
  | void
  deriving DecidableEq, Repr

/-- One position is resolved at the rind: its counts, its packet and its mirror entry; then its line and its frame may close
(R139, R178, R180 to R182, R193, R200). -/
def State.resolve (s : State) (c : Nat) (j : Job) (o : Outcome3) : State :=
  let e := s.egOf c
  let col := columnOf j.stripe j.k
  let g := s.chanGeom c
  let pos := g.position j.line j.stripe j.k
  let n := match s.frameOf c j.frame with | some f => f.n | none => 0
  let zone := (s.pressPlan c).zone j.line j.stripe j.k
  let how := match o with | .skipped => 0 | .coded _ => 1 | .void => 2
  let sent := how != 0
  let void := how == 2
  let s := (s.modJob c j fun i => { i with resolved := true }).modChan c fun x => { x with
    last := x.last.put (fun _ => none) col (some (j.frame, j.line, how))
    codedAt := if sent then x.codedAt.put (fun _ => (0, false)) pos (n + 1, void) else x.codedAt }
  let s := s.modFrame c j.frame fun f => { f with
    curds := f.curds + b2n sent, voids := f.voids + b2n void
    voided := if void && s.proxied c j.frame then (j.line, j.stripe, j.k) :: f.voided else f.voided
    resolved := (let e := j.closedAt.getD (j.lastAt, j.lastStamp); ⟨j.line, j.stripe, j.k, sent, e.1, e.2⟩) :: f.resolved }
  let s := if j.lacks then s.modChan c fun x => { x with sigs := x.sigs.put (fun _ => ⟨0, false⟩) pos ⟨0, false⟩ } else s
  let s := s.openRecord c j.frame j.line n
  let s : State :=
    if !sent then s.count (R.cc_CC_SKIPPED e c)
    else
      let head : CurdHead := match o with
        | .coded w => { line := j.line, stripe := j.stripe, index := j.k, q := w.q, restart := w.restart, floor := w.floor,
                        zone := zone, length := w.payload.length }
        | _ => { line := j.line, stripe := j.stripe, index := j.k, void := true, zone := zone }
      let record := head.bytes ++ (match o with | .coded w => w.payload | _ => [])
      let recon := match o with | .coded w => w.recon | _ => []
      let s := (s.count (R.cc_CC_CURDS e c)).count (R.rind_ADMITTED c)
      let s := if void then s.count (R.cc_CC_VOIDS e c) else s
      let s := if zone then s.count (R.cc_CC_ZONE e c) else s
      let s := if s.chanPacked c then s.packRecord c j.frame j.line j.lastAt j.lastStamp record
        else
          let rtp := match s.frameOf c j.frame with | some f => f.rtp | none => 0
          s.chanSend c 1 j.frame rtp j.lastStamp record j.lastAt j.lastAt
      let after := if j.selectedAt.isSome then (j.qAfter, j.dAfter) else (s.qNextOf c col, (s.chan c).bank)
      (s.modLineRecord c j.frame j.line fun r => { r with entries := r.entries ++
        [({ column := col, void := void, qNext := after.1, dAfter := after.2, record := record, recon := recon } : MirrorEntry).seal] }).pressFollows
          c j.frame j.line col after.1 after.2
  let s := match s.frameOf c j.frame with
    | some f => if (f.resolved.filter fun (r : Resolved) => r.line == j.line).length = g.positions.length then s.closeLine c j.frame j.line else s
    | none => s
  (s.closeFrame c).dropJobs c

/-! ## The press (R167, R169) -/

/-- The channel's bank and a job's columns after a selection that charges `cost` bytes. -/
def State.charge (s : State) (c : Nat) (j : Job) (cost q : Nat) : State :=
  let a := s.pressPlan c
  let d := min (s.chanBank c) ((s.chan c).bank + a.base j.line j.stripe j.k - cost)
  (s.modChan c fun x => { x with bank := d }).modJob c j fun i => { i with selectedAt := some s.now, dAfter := d, qAfter := q }

/-- The coder's stripe store takes a column's reconstruction. -/
def State.storeColumn (s : State) (k col frame line : Nat) (r : List (List Int)) : State :=
  s.modCoder k fun x => { x with store := x.store.put (fun _ => (0, 0, [])) col (frame, line, r) }

/-- The curd directly above has been selected, skipped or voided (R167). -/
def State.aboveSelected (s : State) (c : Nat) (j : Job) : Bool :=
  j.line == 0 || (s.chan c).jobs.any (fun i => i.at j.frame (j.line - 1) j.stripe j.k && i.selectedAt.isSome) ||
  (match (s.chan c).last.get (fun _ => none) (columnOf j.stripe j.k) with
   | some (f, l, _) => f == j.frame && l + 1 == j.line
   | none => false)

/-- The curd directly above has been handed over, voided or skipped at the rind; with what (R161). -/
def State.aboveDone (s : State) (c : Nat) (j : Job) : Option Nat :=
  match (s.chan c).last.get (fun _ => none) (columnOf j.stripe j.k) with
  | some (f, l, how) => if f = j.frame ∧ l + 1 = j.line then some how else none
  | none => none

/-- The coder of a job is still admitted at the rind (R193). -/
def State.admitted (s : State) (j : Job) : Bool := !(s.coder j.coder).fenced

/-- CURD_LATE with reason BACKLOG: 1, or EGRESS: 2 (R178). -/
def State.curdLate (s : State) (c : Nat) (j : Job) (reason lateness : Nat) (stamp : Stamp) : State :=
  s.logRated F.CURD_LATE c (s.egCtrl c) (s.chanDp c 5 j.stripe j.k)
    (fun _ => leBytes 2 j.line ++ leBytes 1 reason ++ leBytes 4 (min lateness 0xFFFFFFFF)) true stamp

/-- A curd with a good verdict is handed over unless a path would send it too late (R178). -/
def State.handOver (s : State) (c : Nat) (j : Job) : State :=
  match j.winner with
  | none => s.resolve c j .void
  | some w =>
    let x := s.excess c j.lastAt (s.streamBytes c j.frame (6 + w.payload.length))
    if x = 0 then s.resolve c j (.coded w)
    else
      let e := s.egOf c
      let s := ((s.count (R.cc_CC_LATE e c)).event (R.eg_EVENTS e) 1).event (R.cc_CC_EVENTS e c) 2
      (s.curdLate c j 2 x s.stamp).resolve c j .void

/-- What the rind does with one curd once its fate is known, the curd above is resolved and no older frame is open. -/
def State.settleIn (s : State) (c : Nat) (j : Job) : State :=
  let first := match (s.chan c).frames with | f :: _ => f.number == j.frame | [] => false
  if !first || !(j.line == 0 || (s.aboveDone c j).isSome) then s
  else match j.fate with
    | none => s
    | some .late => s.resolve c j .void
    | some .fence =>
      let s := s.count (R.rind_FENCE_VOIDS c)
      let s := s.modRind c fun x =>
        let (n, a, b) := x.fenceVoids
        { x with fenceVoids := if n = 0 then (1, j.line, j.line) else (n + 1, min a j.line, max b j.line) }
      s.resolve c j .void
    | some f =>
      if !s.admitted j then s
      else match f with
        | .pass => s.handOver c j
        | .skip => s.resolve c j .skipped
        | _ => s.resolve c j .void

/-- The same for a curd that may also lack a unit, under its frame's sections. -/
def State.settleJob (s : State) (c : Nat) (j : Job) : State :=
  match (s.chan c).jobs.find? fun i => i.at j.frame j.line j.stripe j.k with
  | none => s
  | some j =>
    if j.resolved then s
    else s.under c j.frame fun s =>
      let s := if j.lacks && j.done && j.selectedAt.isNone && j.fate.isNone && s.aboveSelected c j && s.admitted j then
          ((s.charge c j 30 (s.qNextOf c (columnOf j.stripe j.k))).modJob c j fun i => { i with fate := some .lacking })
        else s
      match (s.chan c).jobs.find? fun i => i.at j.frame j.line j.stripe j.k with
      | none => s
      | some j => s.settleIn c j

/-- Everything at the rind of a channel that can be settled now, in raster order. -/
def State.settle (s : State) (c : Nat) : State :=
  (s.chan c).jobs.foldl (fun s j => s.settleJob c j) s

/-! ## The harmless state and the end of a channel (R142, R187, R188) -/

/-- One open frame of a channel is ended with VOID curds and its FRAME_CLOSE. -/
def State.finishFrame (s : State) (c : Nat) (f : TxFrame) : State :=
  let s := s.modFrame c f.number fun t => { t with ended := some (t.ended.getD s.stamp) }
  s.under c f.number fun s =>
    let g := s.chanGeom c
    (List.range g.height).foldl (fun s line =>
      g.positions.foldl (fun s e =>
        let open_ := match s.frameOf c f.number with
          | some t => !(t.closed.contains line) && !(t.resolved.any fun r => r.line == line && r.stripe == e.1 && r.k == e.2)
          | none => false
        if open_ then
          s.resolve c { frame := f.number, line := line, stripe := e.1, k := e.2, units := 0, lastAt := s.now, lastStamp := s.stamp,
                        lacks := true, coder := 0 } .void
        else s) s) s

/-- Every open frame of a channel is ended. -/
def State.finishFrames (s : State) (c : Nat) : State :=
  ((s.chan c).frames.foldl (fun s f => s.finishFrame c f) s).modChan c fun x => { x with jobs := x.jobs.filter fun j => j.owed }

/-- The body of an END_OF_VALIDITY packet goes out (R142, Tables 6-7 and 6-8). -/
def State.sendEov (s : State) (c : Nat) : State :=
  match (s.chan c).eov with
  | none => s
  | some e =>
    let body := leBytes 1 e.reason ++ [0] ++ beBytes 2 e.cls ++ beBytes 4 e.lastValid
    let s := s.chanSend c 4 (s.recordFrame c e.media) e.media e.stamp body
    s.modChan c fun x => { x with eov := x.eov.map fun e => { e with lastAt := s.now } }

/-- A channel begins to send end-of-validity; `before` is the last frame that it had closed when the cause was taken. -/
def State.beginEov (s : State) (c reason cls : Nat) (left before : Option Nat) : State :=
  let e : Eov := { reason := reason, cls := cls, stamp := s.stamp, media := s.mediaClock, lastAt := s.now, lastValid := before.getD 0, left := left }
  (s.modChan c fun x => { x with eov := some e }).sendEov c

/-- A channel goes to its harmless state (R142, Table 17-5); a channel that already stands there keeps sending. Before the
output gate opens nothing is sent, and the gate's opening comes back here (R412). -/
def State.channelHarmless (s : State) (c reason cls : Nat) : State :=
  if !s.startup.gateOpen || !s.sends then s
  else match (s.chan c).state with
    | .off => s
    | .harmless => s
    | _ => ((s.finishFrames c).modChan c fun x => { x with state := .harmless }).beginEov c reason cls none (s.chan c).lastClose

/-- A channel returns to service: coding resumes at its next frame start, with no skip in that frame (R188); a channel
without a coder asks for a ripe spare (R198). -/
def State.channelReturn (s : State) (c : Nat) : State :=
  if (s.chan c).state = .harmless then
    let s := s.modChan c fun x => { x with eov := none, noSkip := true, state := if x.started then .coding else .enabled }
    if (s.rind c).coder.isNone then s.modRind c fun x => { x with waits := some (x.waits.getD s.now) } else s
  else s

end Sys2Proof.Machine
end

