-- ==== Sys2Proof/Machine/Effects.lean ====
section
/-!
DEFINITION. Outputs, their standing causes and their harmless states (R386 to R391), and the entry into device-safe (R392).
-/

namespace Sys2Proof.Machine

/-- KIND and INDEX of an output as OUT_SEL numbers them; a TIO output takes the reserved KIND 3 (log entry 21). -/
def Output.kind : Output → Nat
  | .channel _ => 0 | .head _ => 1 | .audio _ => 2 | .tio _ => 3
def Output.index : Output → Nat
  | .channel n => n | .head n => n | .audio n => n | .tio n => n

/-- The output of a KIND and INDEX. -/
def outputOf (kind index : Nat) : Option Output :=
  match kind with
  | 0 => if index < 48 then some (.channel index) else none
  | 1 => if index < 16 then some (.head index) else none
  | 2 => if index < 2 then some (.audio index) else none
  | _ => none

/-- The causes that stand on an output, earliest first. -/
def State.standing (s : State) (o : Output) : List Cause :=
  (s.ledger.causes.filter fun e => e.1 == o).map (·.2)

/-- The cause shown: the highest severity, among equals the earliest (R388). -/
def State.shown (s : State) (o : Output) : Option Cause :=
  (s.standing o).foldl (fun b c => match b with
    | none => some c
    | some d => if d.sev < c.sev then some c else some d) none

/-- Something other than a ledger cause holds every output: device-safe (R392), a request for KEEP or OFF (R373), a HOST
reset that runs (R406), or the supply warning from its first moment (R367). -/
def State.allHeld (s : State) : Bool :=
  s.ledger.safe || s.hull.keepAt.isSome || s.startup.hostAt.isSome || s.hull.sagHeld

/-- The output is held in its harmless state. -/
def State.heldDown (s : State) (o : Output) : Bool := s.allHeld || !(s.standing o).isEmpty

/-- REASON of Table 6-8 that a channel shows: the widest of what holds it. -/
def State.channelReason (s : State) (c : Nat) : Nat × Nat :=
  if s.ledger.safe then (2, s.ledger.safeFirst)
  else if s.startup.hostAt.isSome then (2, F.RST_HOST.code)
  else match s.shown (.channel c) with
    | some x => (x.reason, x.cls)
    | none => if s.hull.sagHeld then (1, F.HULL_SAG.code) else if s.hull.keepAt.isSome then (8, F.POWER_STATE.code) else (7, 0)

/-- The class of a whole-layer void of a head by its reason (Tables 9-1 and 9-3). Such a cause stands on the head, and it holds
the layer's area only (R222, R249). -/
def layerClass (reason : Nat) : Option FaultClass :=
  match reason with
  | 0 => some F.LAYER_NO_SIGNAL | 1 => some F.LAYER_STALE | 2 => some F.LAYER_EOV | 3 => some F.LAYER_GEOMETRY
  | 7 => some F.UNIT_FAULT | _ => none

/-- The class is that of a whole-layer void. -/
def isLayerClass (cls : Nat) : Bool :=
  [F.LAYER_NO_SIGNAL, F.LAYER_STALE, F.LAYER_EOV, F.LAYER_GEOMETRY, F.UNIT_FAULT].any fun c => c.code == cls

/-- An output goes to its harmless state (Table 17-5). A head and an audio flow form every later packet harmless while
they are held, so only the head's state changes here; a TIO output goes to its inactive level. -/
def State.goHarmless (s : State) (o : Output) (reason cls : Nat) : State :=
  match o with
  | .channel c => s.channelHarmless c reason cls
  | .head h =>
    if (s.head h).state = .running ∧ isLayerClass cls = false then s.modHead h fun x => { x with state := .harmless } else s
  | .audio _ => s
  | .tio n => (s.modTioPin n fun p => { p with held := true, pulseEnd := none }).send (.pin n false)

/-- An output returns to service after its last release. A head and an audio flow return at their next frame start. -/
def State.comeBack (s : State) (o : Output) : State :=
  if s.heldDown o then s
  else match o with
    | .channel c => s.channelReturn c
    | _ => s

/-- Every output of the device: channels, heads, audio flows, TIO outputs. -/
def allOutputs : List Output :=
  (List.range 48).map .channel ++ (List.range 16).map .head ++ (List.range 2).map .audio ++ (List.range 8).map .tio

/-- A TIO record of Table 2-9 that makes the pin a pulse output: MODE 1. -/
def State.isTioOutput (s : State) (n : Nat) : Bool := le (s.payload 0x0104 0 6) (16 * n) 1 == 1

/-- Every output goes to its harmless state for a cause of the whole device. -/
def State.allHarmless (s : State) (chReason cls : Nat) : State :=
  allOutputs.foldl (fun s o => match o with
    | .tio n => if s.isTioOutput n then s.goHarmless o 0 cls else s
    | _ => s.goHarmless o chReason cls) s

/-- Every output that nothing holds any more returns. -/
def State.allReturn (s : State) : State := allOutputs.foldl (fun s o => s.comeBack o) s

/-- The bit of SAFE_STATUS.CAUSES of a class (Table 17-13). -/
def safeKind (cls : Nat) : Nat :=
  if cls = F.SAFE_PIN.code then 1 else if cls = F.SAFE_HOST.code then 2 else if cls = F.LEDGER_OVERFLOW.code then 3 else 0

/-- CAUSES of SAFE_STATUS: a bit stays set until its causes have cleared. -/
def State.safeBits (s : State) : Nat :=
  (List.range 4).foldl (fun v k => if s.ledger.safeCauses.any (fun c => c.kind == k && !c.cleared) then v + 2 ^ k else v) 0

/-- Device-safe is entered, or joined while it stands (R392): the entry stamp is the present one, every output goes to its
harmless state, and SAFE_ENTERED names the first cause, and the recorder seals (R310). -/
def State.enterSafe (s : State) (cls : Nat) (cleared : Bool := false) : State :=
  let rest := s.ledger.safeCauses.filter fun c => c.cls != cls
  let s : State := { s with ledger := { s.ledger with safeCauses := rest ++ [⟨cls, safeKind cls, cleared⟩] } }
  if s.ledger.safe then s
  else
    let s : State := { s with ledger := { s.ledger with safe := true, safeSince := s.now, safeStamp := s.stamp, safeFirst := cls } }
    let s := (s.count R.safe_SAFE_ENTRIES).event R.safe_EVENTS 1
    let s := s.log F.SAFE_ENTERED R.led (leBytes 2 cls ++ leBytes 1 s.safeBits)
    (s.sealWheel sealSafe).allHarmless 2 cls

/-- The condition of a device-safe cause has gone (R394). -/
def State.clearSafe (s : State) (cls : Nat) : State :=
  { s with ledger := { s.ledger with safeCauses := s.ledger.safeCauses.map fun c => if c.cls = cls then { c with cleared := true } else c } }

/-- The condition of a cause on an output has gone (R386). -/
def State.clearCause (s : State) (o : Output) (cls : Nat) : State :=
  { s with ledger := { s.ledger with causes := s.ledger.causes.map fun e =>
      if e.1 = o ∧ e.2.cls = cls ∧ e.2.cleared.isNone then (e.1, { e.2 with cleared := some s.now }) else e } }

/-- The condition of a class has gone on every output. -/
def State.clearCauseAll (s : State) (cls : Nat) : State :=
  { s with ledger := { s.ledger with causes := s.ledger.causes.map fun e =>
      if e.2.cls = cls ∧ e.2.cleared.isNone then (e.1, { e.2 with cleared := some s.now }) else e } }

/-- QUIET_MS of FAULT_POLICY (Table 17-9). -/
def State.quietMs (s : State) : Nat := le (s.payload 0x0E81 0 8) 2 2

/-- Classes whose causes are always released by host software (R389). -/
def alwaysHost (cls : Nat) : Bool := cls == F.TIO_INACTIVE.code || cls == F.CLAIM_STORM.code

/-- A cause of this class on this output is HOST (R389, Table 17-9). -/
def State.hostCause (s : State) (o : Output) (cls : Nat) : Bool :=
  alwaysHost cls || bit (le (s.payload 0x0E81 0 8) 0 1) o.kind && o.kind < 3 ||
  (match s.policy cls with | some (_, h) => h | none => false)

/-- Release one cause: OUTPUT_RELEASED with the causes that still stand; the output returns with the last one (R389). -/
def State.releaseCause (s : State) (o : Output) (cls : Nat) : State :=
  let s : State := { s with ledger := { s.ledger with causes := s.ledger.causes.filter fun e => !(e.1 == o && e.2.cls == cls) } }
  let left := (s.standing o).length
  let s := (s.count R.led_RELEASES).event R.led_EVENTS 16
  let s := s.log F.OUTPUT_RELEASED R.led (leBytes 1 o.kind ++ leBytes 1 o.index ++ leBytes 2 cls ++ leBytes 4 left)
  s.comeBack o

end Sys2Proof.Machine
end

