-- ==== Sys2Proof/Machine/MemMap.lean ====
section
/-!
DEFINITION. The map of frame memory (R273 to R276), the classes of its requests (R281 to R283) and its poisoned lines (R277).
-/

namespace Sys2Proof.Machine

/-- Size of a region in MiB; none when REGION_PLAN has no such region. -/
def State.regionRecord (s : State) (n : Nat) : Option (List Byte) :=
  let p := s.payload 0x0801 0 0x0A
  ((List.range (le p 0 1)).map fun i => (p.drop (16 + 16 * i)).take 16).find? fun r => le r 0 1 == n

/-! ## Regions, extents and addresses (R274 to R276) -/

/-- Size of a region in MiB; 0 when it does not exist. -/
def State.regionMib (s : State) (r : Nat) : Nat :=
  match r with
  | 0 => 1024
  | 1 => 512
  | _ => match s.regionRecord r with | some x => le x 4 4 | none => 0

/-- KIND of a region. -/
def State.regionKind (s : State) (r : Nat) : Nat :=
  match s.regionRecord r with | some x => if r < 2 then 0 else le x 1 1 | none => 0

/-- The region holds two copies. -/
def State.regionDup (s : State) (r : Nat) : Bool :=
  match r with
  | 0 => true
  | 1 => false
  | _ => match s.regionRecord r with | some x => bit (le x 2 1) 0 | none => false

/-- Every region that exists. -/
def State.regions (s : State) : List Nat :=
  let p := s.payload 0x0801 0 0x0A
  [0, 1] ++ (List.range (le p 0 1)).map fun i => le p (16 + 16 * i) 1

/-- First device address of frame memory. -/
def memBase : Nat := 0x100000000000

/-- Region and offset of a device address. -/
def regionOf (a : Nat) : Nat × Nat := ((a - memBase) / 2 ^ 36, (a - memBase) % 2 ^ 36)

/-- The address lies in a region that exists. -/
def State.mapped (s : State) (a : Nat) : Bool :=
  memBase ≤ a && (regionOf a).1 < 256 && decide ((regionOf a).2 < s.regionMib (regionOf a).1 * 1048576)

/-- The extent of an offset: bands of 16 MiB, granules of 4,096 bytes in turn over eight extents. -/
def extentOf (x : Nat) : Nat := x / 16777216 * 8 + x / 4096 % 8

/-- The extents of a byte range. -/
def extentsOf (x len : Nat) : List Nat :=
  if len = 0 then [] else ((List.range ((x + len - 1) / 4096 - x / 4096 + 1)).map fun i => extentOf ((x / 4096 + i) * 4096)).dedup

/-- The pair on which copy 0 or copy 1 of an extent lies. -/
def State.pairOf (s : State) (region extent copy : Nat) : Nat :=
  match s.memory.remaps.find? fun m => m.region == region && m.extent == extent && m.copy == copy with
  | some m => m.pair
  | none => (extent + 4 * copy) % 8

/-- The copy of an extent that reads come from: the first, or the one that survives. -/
def State.liveCopy (s : State) (region extent : Nat) : Nat :=
  match s.memory.single.find? fun x => x.region == region && x.extent == extent with
  | some x => x.copy
  | none => 0

/-- The memory channel that serves an address. -/
def State.memChannel (s : State) (a : Nat) : Nat :=
  let (r, x) := regionOf a
  2 * s.pairOf r (extentOf x) (s.liveCopy r (extentOf x)) + x / 64 % 2

/-- Pairs in service. -/
def State.pairsUp (s : State) : List Nat := (List.range 8).filter fun p => !s.memory.retired.contains p

/-- Copies of a region. -/
def State.copies (s : State) (r : Nat) : Nat := if s.regionDup r then 2 else 1

/-- Extents used on a pair in service: one of each band and copy, and those moved there. -/
def State.usedOn (s : State) (p : Nat) : Nat :=
  (s.regions.map fun r => s.regionMib r / 16 * s.copies r).sum + (s.memory.remaps.filter fun m => m.pair == p).length

/-- Free extents of a pair: 7,168 MiB in extents of 2 MiB. -/
def State.freeOn (s : State) (p : Nat) : Nat := 3584 - s.usedOn p

/-! ## Classes (R281 to R283) -/

/-- Class of a request. -/
def MemReq.cls (r : MemReq) : Nat :=
  if r.panic then 2 else if r.urgent || r.raised then 3 else if r.port = .sc then 5 else 4

/-- The queue holds a request of class 2 or 3. -/
def MemChan.busy (x : MemChan) : Bool := x.queue.any fun r => r.cls ≤ 3

/-- A queued read matches the row of an earlier queued write of the bank: the bank is served in arrival order (R282). -/
def bankLocked : List MemReq → Nat → Bool
  | [], _ => false
  | w :: rest, b =>
    (w.write.isSome && Config.dramBank w.addr == b &&
      rest.any fun r => r.write.isNone && Config.dramBank r.addr == b && Config.dramRow r.addr == Config.dramRow w.addr) || bankLocked rest b

/-- The request may be served: its bank is not locked, or it is the oldest of its bank. -/
def mayServe (q : List MemReq) (r : MemReq) : Bool :=
  !bankLocked q (Config.dramBank r.addr) ||
  (match q.find? fun x => Config.dramBank x.addr == Config.dramBank r.addr with | some x => x == r | none => false)

/-- The request hits an open row. -/
def MemChan.rowHit (x : MemChan) (r : MemReq) : Bool :=
  x.rows.get (fun _ => 0) (Config.dramBank r.addr) == Config.dramRow r.addr + 1

/-- The request that is served next: lowest class, then a row hit, then the oldest. -/
def MemChan.next (x : MemChan) : Option MemReq :=
  (x.queue.filter (mayServe x.queue)).foldl (fun (b : Option MemReq) r => match b with
    | none => some r
    | some d => if r.cls < d.cls ∨ (r.cls = d.cls ∧ x.rowHit r = true ∧ x.rowHit d = false) then some r else some d) none

/-- A panic request is queued, or no longer. -/
def State.panicCheck (s : State) (m : Nat) : State :=
  let x := s.mchan m
  match x.queue.any (·.panic), x.panicSince with
  | true, none => s.modMchan m fun x => { x with panicSince := some s.now }
  | false, some t => s.modMchan m fun x => { x with panicSince := none, panicNs := x.panicNs + (s.now - t) }
  | _, _ => s

/-- The channel answers requests. -/
def MemChan.serves (x : MemChan) : Bool := x.state == .inService || x.state == .oldSettings

/-- The channel pays owed refreshes back: nothing else is served before it ends (R288). -/
def State.stalled (s : State) (m : Nat) : Bool := decide (s.now < (s.mchan m).lastRefresh)

/-- Every channel that serves reads below 0b101 (R394). -/
def State.allCool (s : State) : Bool := (List.range 16).all fun i => !(s.mchan i).serves || decide ((s.mchan i).mr4 < 5)

/-- The urgency and panic of the reads that some readers have queued change (R280). -/
def State.raiseReads (s : State) (readers : List Nat) (urgent panic : Bool) : State :=
  let mine (r : MemReq) : Bool := match r.port with | .rd k => readers.contains k | _ => false
  if (List.range 16).any fun m => (s.mchan m).queue.any mine then
    (List.range 16).foldl (fun s m =>
      (s.modMchan m fun x => { x with queue := x.queue.map fun r => if mine r then { r with urgent := urgent, panic := panic } else r }).panicCheck m) s
  else s

/-! ## Poisoned lines (R277) -/

/-- The 64-byte line of an address. -/
def lineOf (a : Nat) : Nat := a / 64 * 64

/-- A copy of a line becomes poisoned, or is good again. -/
def State.poison (s : State) (l copy : Nat) : State :=
  s.modMemory fun m => if m.poisoned.contains (l, copy) then m else { m with poisoned := (l, copy) :: m.poisoned }
def State.unpoison (s : State) (l copy : Nat) : State :=
  s.modMemory fun m => { m with poisoned := m.poisoned.filter fun e => e != (l, copy) }
def State.isPoisoned (s : State) (l copy : Nat) : Bool := s.memory.poisoned.contains (l, copy)

/-- No copy of the line of an address can be read (R278). -/
def State.lineDead (s : State) (a : Nat) : Bool :=
  let (r, x) := regionOf a
  let c := s.liveCopy r (extentOf x)
  let lone := s.memory.single.any fun y => y.region == r && y.extent == extentOf x
  s.isPoisoned (lineOf a) c && (!s.regionDup r || lone || s.isPoisoned (lineOf a) (1 - c))

end Sys2Proof.Machine
end

