-- ==== Sys2Proof/Machine/Ledger.lean ====
section
/-!
DEFINITION. The commands of the fault ledger and of device-safe (R381 to R395).
-/

namespace Sys2Proof.Machine

/-- The merge window in ticks (R381). -/
def State.mergeWindow (s : State) : Nat := ticksUp s.mode 4000

/-- The entry's merge window has passed: a stamp taken before seeding has passed once the counter is seeded. -/
def State.windowPassed (s : State) (e : Entry) : Bool :=
  (e.provisional && s.clock.seeded) || s.reached (e.stamp + BitVec.ofNat 64 s.mergeWindow)

/-- The bytes of an entry (Table 17-1). -/
def entryBytes (e : Entry) : List Byte :=
  leBytes 8 e.stamp.toNat ++ leBytes 4 e.seq ++ leBytes 4 e.ctrl ++ leBytes 6 e.dp ++ leBytes 2 e.cls ++
  leBytes 1 (e.sev + 8 * b2n (e.own < e.sev) + 16 * b2n e.more + 32 * b2n e.late + 64 * b2n e.provisional) ++
  leBytes 1 e.action ++ ((e.data ++ List.replicate 6 0).take 6)

/-- Classes that record a refusal (R431, 2). -/
def refusalClass (cls : Nat) : Bool :=
  (0x0A01 ≤ cls && cls ≤ 0x0A1C) ||
  [F.IMG_CANCEL_LATE, F.IMG_BOOT_BUSY, F.RENNET_LEAD, F.RENNET_RANGE, F.RENNET_FULL, F.TIO_ARM_REFUSED,
   F.TIO_RELEASE_IGNORED, F.LOOP_REFUSED, F.FT_NO_ROOM, F.MDP_OPEN_FAIL, F.OWN_REFUSED, F.POWER_REFUSED,
   F.RELEASE_IGNORED, F.SAFE_RELEASE_IGNORED].any fun c => c.code == cls

/-- The entry's cause would change the reason that one of its outputs shows (R388, R431): it is wider than the cause shown, or the
first cause of an output that KEEP holds (R373). -/
def State.widens (s : State) (e : Entry) : Bool :=
  e.sev == 3 && !e.dataOnly && e.outs.any fun o => match s.shown o.1 with
    | some c => decide (c.sev < e.sev)
    | none => s.hull.keepAt.isSome

/-- ACTION of an entry (R431). -/
def State.actionOf (s : State) (e : Entry) : Nat :=
  if refusalClass e.cls then 7
  else if e.cls = F.OUTPUT_RELEASED.code ∨ e.cls = F.SAFE_RELEASED.code then 6
  else if e.cls = F.SAFE_ENTERED.code ∨ e.sev = 4 ∨ (e.sev = 3 ∧ s.ledger.safe) then 4
  else if s.widens e then 5
  else e.sev

/-- Continuation entries of an entry whose data do not fit (R384): up to three, 12 bytes each in bytes 16 to 21 and 26 to 31. -/
def continuations (e : Entry) : Nat → List Byte → List Entry
  | 0, _ => []
  | n + 1, p =>
    if p.isEmpty then []
    else
      { e with cls := F.LEDGER_CONT.code, action := 3 - n, dp := le p 0 6, data := (p.drop 6).take 6, outs := [],
               more := decide (12 < p.length ∧ n ≠ 0), response := false } :: continuations e n (p.drop 12)

/-- The entry as it enters the store, with its continuations. -/
def State.delivered (s : State) (e : Entry) : List Entry :=
  let e := { e with action := s.actionOf e }
  let e := if e.late then
      match s.ledger.lastStamp with
      | some l => { e with stamp := if later l e.stamp then l else e.stamp, data := leBytes 8 e.stamp.toNat ++ e.data }
      | none => { e with data := leBytes 8 e.stamp.toNat ++ e.data }
    else e
  let first := { e with more := decide (6 < e.data.length), data := e.data.take 6 }
  first :: continuations e 3 (e.data.drop 6)

/-- Delivery order (OP3): stamps taken before seeding first, then ascending stamp under R3, then ascending control address;
the list keeps the order of hand-over. -/
def entryBefore (a b : Entry) : Bool :=
  if a.provisional ≠ b.provisional then a.provisional
  else if a.stamp ≠ b.stamp then later b.stamp a.stamp
  else decide (a.ctrl < b.ctrl)

/-- The entry of the intake that is delivered next. -/
def nextEntry : List Entry → Option Entry
  | [] => none
  | e :: r => match nextEntry r with
    | some f => if entryBefore f e then some f else some e
    | none => some e

/-- The overflow cause ends when the intake and the uncopied entries have both fallen below half (R385). -/
def State.overflowCheck (s : State) : State :=
  if s.ledger.overflow ∧ s.ledger.intake.length < 512 ∧ s.ledger.uncopied < 2048 then
    (({ s with ledger := { s.ledger with overflow := false } } : State).clearSafe F.LEDGER_OVERFLOW.code).log
      F.LEDGER_RECOVERED R.led (leBytes 4 (s.reg R.led_LOST).toNat)
  else s

/-- An overflow (R385): the entry is lost and counted; LEDGER_OVERFLOW is delivered once, from the place kept free for it,
with the stamp of the first loss, and device-safe is entered. -/
def State.overflowAt (s : State) (stamp : Stamp) : State :=
  let s := (s.count R.led_LOST).event R.led_EVENTS 8
  if s.ledger.overflow then s
  else
    let e := { s.entry F.LEDGER_OVERFLOW R.led (leBytes 2 s.ledger.intake.length ++ leBytes 2 s.ledger.store.length) with stamp := stamp }
    ({ s with ledger := { s.ledger with overflow := true, intake := s.ledger.intake ++ [e] } } : State).enterSafe F.LEDGER_OVERFLOW.code

/-- The classes that are causes of device-safe by themselves at intake: S4 but for the records of the entry (R392). The
three whose cause is raised by their own event have raised it there. -/
def raisesSafe (e : Entry) : Bool :=
  e.sev == 4 && [F.SAFE_ENTERED, F.LEDGER_CONT, F.SAFE_PIN, F.SAFE_HOST, F.LEDGER_OVERFLOW].all fun c => c.code != e.cls

/-- The condition of a native S4 class has gone before its entry is taken in (R394); a class raised by FAULT_POLICY clears at delivery. -/
def State.safeGone (s : State) (cls : Nat) : Bool :=
  if cls = F.THERM_CRIT.code then !s.hull.crit
  else if cls = F.MEM_TOO_HOT.code then s.allCool
  else if cls = F.CORE_CODE_LOST.code then s.cores.sp.alive
  else false

/-- The first element that satisfies `p`, and the rest of the list. -/
def takeFirst {α : Type} (p : α → Bool) : List α → Option (α × List α)
  | [] => none
  | x :: r => if p x then some (x, r) else (takeFirst p r).map fun y => (y.1, x :: y.2)

/-- LEDGER_INTAKE (R381, R382, R385, R392): the unit at `ctrl` hands over its oldest entry. -/
def State.ledgerIntake (s : State) (ctrl : Nat) : State :=
  match takeFirst (fun e => e.ctrl == ctrl) s.ledger.outbox with
  | none => s
  | some (e, rest) =>
    let s : State := { s with ledger := { s.ledger with outbox := rest } }
    if 1024 ≤ s.ledger.intake.length then (s.overflowAt e.stamp)
    else
      let e := { e with late := s.windowPassed e && e.provisional == !s.clock.seeded }
      let s : State := { s with ledger := { s.ledger with intake := s.ledger.intake ++ [e] } }
      if raisesSafe e then s.enterSafe e.cls (s.safeGone e.cls)
      else s

/-- The condition of a class on an output still stands when its entry is delivered. Where the condition has gone before the
delivery, the cause is raised cleared. -/
def State.conditionStands (s : State) (o : Output) (cls : Nat) : Bool :=
  match o with
  | .channel n =>
    if cls = F.INPUT_LOSS.code then (s.chIn n).lossStands
    else if cls = F.SOURCE_STALE.code then
      (s.chIn n).tile0.stale || (s.chIn n).tile1.stale || (s.chIn n).tile2.stale || (s.chIn n).tile3.stale
    else if cls = F.MERGE_PATH_LOSS.code then (s.chIn n).pathA.lost || (s.chIn n).pathB.lost
    else if cls = F.CLAIM_STORM.code then (s.rind n).storm
    else if cls = F.NO_SPARE.code then (s.rind n).waits.isSome
    else if cls = F.HULL_SAG.code then s.hull.sagHeld
    else true
  | .head n =>
    if cls = F.HEAD_FREEZE.code then (s.head n).frozen
    else if cls = F.HEAD_FAILED.code then (s.head n).state == .failed
    else if isLayerClass cls then (s.head n).layers.any fun l => match l.2.cause with
      | some r => (match layerClass r with | some c => c.code == cls | none => false)
      | none => false
    else if cls = F.HULL_SAG.code then s.hull.sagHeld
    else true
  | .audio _ => if cls = F.HULL_SAG.code then s.hull.sagHeld else true
  | .tio _ =>
    if cls = F.TIO_INACTIVE.code then s.servo.state != .locked
    else if cls = F.HULL_SAG.code then s.hull.sagHeld else true

/-- REASON with which a channel shows a class (Table 6-8). -/
def reasonOfClass (o : Output) (cls own : Nat) : Nat :=
  match o with
  | .channel _ =>
    if cls = F.HULL_SAG.code then 1 else if cls = F.INPUT_LOSS.code then 3
    else if cls = F.SOURCE_STALE.code then 4
    else if cls = F.NO_SPARE.code then 6
    else if cls = F.POWER_STATE.code then 8 else own
  | _ => own

/-- Classes below S3 of which a chapter describes an end of condition: a change of the stale tile (R123), the first packet of the absent
path (R120). A cause that FAULT_POLICY raises for another of them clears by time (R389). -/
def endsByChapter (cls : Nat) : Bool := cls == F.SOURCE_STALE.code || cls == F.MERGE_PATH_LOSS.code

/-- A delivered entry raises its cause on one output (R386 to R388); an entry of a class whose cause already stands there
only renews it. A class raised to S3 by FAULT_POLICY places the output in its harmless state here (R391). -/
def State.raiseCause (s : State) (e : Entry) (o : Output) (reason : Nat) : State :=
  let same (x : Output × Cause) : Bool := x.1 == o && x.2.cls == e.cls
  let stands := s.conditionStands o e.cls
  let renew (x : Output × Cause) : Output × Cause :=
    if same x then (x.1, { x.2 with lastAt := s.now, cleared := if stands then none else x.2.cleared }) else x
  let fresh : Cause :=
    { cls := e.cls, sev := e.sev, reason := reason, host := s.hostCause o e.cls,
      cleared := if stands then none else some s.now, policy := decide (e.own < 3) && !endsByChapter e.cls,
      lastAt := s.now }
  let causes := if s.ledger.causes.any same then s.ledger.causes.map renew else s.ledger.causes ++ [(o, fresh)]
  let s : State := { s with ledger := { s.ledger with causes := causes } }
  if e.own < 3 then s.goHarmless o reason e.cls else s

/-- LEDGER_DELIVER (R381 to R386, R391, R395): the next entry whose merge window has passed gets its number and its
place in the store; its events are set, it raises its causes and joins the response queue. -/
def State.ledgerDeliver (s : State) : State :=
  match nextEntry (s.ledger.intake.filter s.windowPassed) with
  | none => s
  | some e =>
    let intake := match takeFirst (fun x => decide (x = e)) s.ledger.intake with
      | some (_, r) => r
      | none => s.ledger.intake
    let out := s.delivered e
    if 4096 < s.ledger.uncopied + out.length ∧ e.cls ≠ F.LEDGER_OVERFLOW.code then
      (({ s with ledger := { s.ledger with intake := intake } } : State).overflowAt e.stamp)
    else
      let numbered := (out.zipIdx).map fun x => { x.1 with seq := (s.ledger.nextSeq + x.2) % 0x100000000 }
      let s := if e.late then s.count R.led_LATE else s
      let last := match numbered.head? with | some x => some x.stamp | none => s.ledger.lastStamp
      let s : State := { s with ledger := { s.ledger with
        intake := intake, store := (numbered.reverse ++ s.ledger.store).take 4096,
        uncopied := s.ledger.uncopied + out.length, nextSeq := (s.ledger.nextSeq + out.length) % 0x100000000,
        lastStamp := last } }
      let s := s.countBy (R.dom_DOM_ENTRIES (e.ctrl / 0x10000000)) out.length
      let bits := b2n (decide ((s.reg R.led_EVENT_MIN).toNat ≤ e.sev)) + 2 * b2n (e.sev == 3) + 4 * b2n (e.sev == 4)
      let s := s.event R.led_EVENTS bits
      let s := if e.sev = 3 ∧ e.dataOnly = false then
          e.outs.foldl (fun s o => s.raiseCause e o.1 (reasonOfClass o.1 e.cls o.2)) s
        else s
      let s := if e.sev = 4 ∧ e.own < 4 then s.clearSafe e.cls else s
      let s := if 2 ≤ e.sev ∧ e.response then
          (if 256 ≤ s.ledger.responses.length then s.overflowAt e.stamp
           else { s with ledger := { s.ledger with responses := s.ledger.responses ++ [⟨e.cls, e.sev, e.seq⟩] } })
        else s
      s.overflowCheck

/-- Frame memory accepts a write of the SYSTEM region, region 0: it runs, no channel pays back refreshes (R288), and no pair is being
retired of which a SYSTEM extent moves (R293, R385). -/
def State.systemWritable (s : State) : Bool :=
  2 ≤ s.memory.state && (s.memory.chans.all fun e => e.2.lastRefresh ≤ s.now) &&
  s.memory.remaps.all fun m => !(m.region == 0 && s.memory.remapping.contains m.left)

/-- MIRROR_COPY (R385): the oldest uncopied entry goes to the mirror queue; a full queue gives up its oldest entry. -/
def execMirrorCopy (s : State) : Out :=
  if s.ledger.uncopied = 0 ∨ s.systemWritable = false then .next s
  else match s.ledger.store[s.ledger.uncopied - 1]? with
    | none => .next s
    | some e =>
      let full := decide (1048576 ≤ s.ledger.mirror.length)
      let s := if full then s.count R.led_MIRROR_LOST else s
      let q := if full then s.ledger.mirror.drop 1 else s.ledger.mirror
      .next ({ s with ledger := { s.ledger with uncopied := s.ledger.uncopied - 1, mirror := q ++ [e] } } : State).overflowCheck

/-- A cause may be released automatically by now. -/
def State.quietOver (s : State) (c : Cause) : Bool :=
  !c.host && match c.cleared with | some t => s.due (t + ms s.quietMs) | none => false

/-- QUIET_EXPIRE (R389): the AUTO causes of an output that have stayed cleared for QUIET_MS are released. -/
def execQuietExpire (o : Output) (s : State) : Out :=
  .next (((s.standing o).filter s.quietOver).foldl (fun s c => s.releaseCause o c.cls) s)

/-- The agent is an MDP session with a right bit of Table 15-5. -/
def State.sessionRight (s : State) (g : Agent) (b : Nat) : Bool :=
  match g with
  | .session i => (s.session i.val).present && bit (s.session i.val).rights b
  | _ => false

/-- RELEASE_IGNORED for a cause. -/
def State.releaseIgnored (s : State) (o : Output) (cls : Nat) : State :=
  s.log F.RELEASE_IGNORED R.led (leBytes 1 o.kind ++ leBytes 1 o.index ++ leBytes 2 cls)

/-- REL_CTRL_ONE (R389, R390): the cleared HOST causes of one output are released; while any of its causes has not cleared
the write has no effect and is logged. A write without effect counts in REL_IGNORED (Table 17-11). -/
def execRelCtrlOne (agent : Agent) (kind : Fin 4) (index : Fin 64) (s : State) : Out :=
  if !s.running then .next s
  else if !s.sessionRight agent 1 then .next (s.count R.led_REL_IGNORED)
  else match outputOf kind.val index.val with
    | none => .next (s.count R.led_REL_IGNORED)
    | some o =>
      match (s.standing o).find? fun c => c.cleared.isNone with
      | some c => .next ((s.count R.led_REL_IGNORED).releaseIgnored o c.cls)
      | none =>
        let due := (s.standing o).filter fun c => c.host
        if due.isEmpty then .next (s.count R.led_REL_IGNORED)
        else .next (due.foldl (fun s c => s.releaseCause o c.cls) s)

/-- REL_CTRL_ALL (R390): every cleared HOST cause is released; each cause that has not cleared logs RELEASE_IGNORED. -/
def execRelCtrlAll (agent : Agent) (s : State) : Out :=
  if !s.running then .next s
  else if !s.sessionRight agent 1 then .next (s.count R.led_REL_IGNORED)
  else
    let named := s.ledger.causes.filter fun e => e.2.host || e.2.cleared.isNone
    let s' := named.foldl (fun s e => if e.2.cleared.isSome then s.releaseCause e.1 e.2.cls else s.releaseIgnored e.1 e.2.cls) s
    .next (if named.all (fun e => e.2.cleared.isNone) then s'.count R.led_REL_IGNORED else s')

/-- SAFE_N_TRANSITION (R393): the pin changes level; a low that ends before 1 us is a glitch. -/
def execSafeNTransition (high : Bool) (s : State) : Out :=
  if s.ledger.pinHigh = high then .next s
  else
    let short := high && decide (s.now < s.ledger.pinSince + us 1)
    let s := if short then s.count R.safe_SAFE_GLITCHES else s
    .next { s with ledger := { s.ledger with pinHigh := high, pinSince := s.now,
                                             pinFiltered := s.ledger.pinFiltered || high } }

/-- SAFE_PIN_QUALIFY (R393): 1 us of low latches device-safe with SAFE_PIN as its cause. -/
def State.safePinQualify (s : State) : State :=
  if s.running ∧ s.ledger.pinHigh = false ∧ s.ledger.pinFiltered ∧ s.due (s.ledger.pinSince + us 1) then
    let s : State := { s with ledger := { s.ledger with pinFiltered := false } }
    let s := (s.event R.safe_EVENTS 2).enterSafe F.SAFE_PIN.code
    (s.log F.SAFE_PIN R.safe (leBytes 4 (s.reg R.safe_SAFE_GLITCHES).toNat))
  else s

/-- SAFE_PIN_CLEAR (R393): 10 ms of high clears the SAFE_PIN cause. -/
def execSafePinClear (s : State) : Out :=
  if s.ledger.pinHigh ∧ s.due (s.ledger.pinSince + ms 10) then .next (s.clearSafe F.SAFE_PIN.code) else .next s

/-- SAFE_ENTER (R392, R390): a session with the WRITE right enters device-safe; the cause clears at once (R394). -/
def State.safeRequested (s : State) (agent : Agent) : State :=
  if !s.running then s
  else if !s.sessionRight agent 1 then (s.count R.led_REL_IGNORED)
  else
    let id := match agent with | .session i => (s.session i.val).id.toNat | _ => 0
    ((s.enterSafe F.SAFE_HOST.code true).log F.SAFE_HOST R.led (leBytes 4 id))

/-- HIGH_MS (Table 17-11). -/
def State.highMs (s : State) : Nat :=
  if s.ledger.pinHigh then min 0xFFFFFFFF ((s.now - s.ledger.pinSince) / ms 1) else 0

/-- SAFE_RELEASE (R394): device-safe ends when every cause has cleared, and each output that nothing else holds returns. -/
def execSafeRelease (agent : Agent) (s : State) : Out :=
  if !s.running then .next s
  else if !s.sessionRight agent 1 then .next (s.count R.led_REL_IGNORED)
  else if !s.ledger.safe then .next s
  else if s.ledger.safeCauses.any fun c => !c.cleared then
    .next (s.log F.SAFE_RELEASE_IGNORED R.safe (leBytes 1 s.safeBits ++ leBytes 4 s.highMs))
  else
    let dur := (s.now - s.ledger.safeSince) / ms 1
    let s : State := { s with ledger := { s.ledger with safe := false, safeCauses := [], safeFirst := 0 } }
    .next (((s.event R.safe_EVENTS 4).log F.SAFE_RELEASED R.led (leBytes 4 dur)).allReturn)

/-- Responses whose steps need the safety pair: takeovers of the sparing chapter (R395). -/
def needsSp (r : Response) : Bool := 0x0500 ≤ r.cls && r.cls ≤ 0x05FF

/-- The response that runs next: highest severity, then delivery order; those that need the safety pair wait while it
restarts. -/
def State.nextResponse (s : State) : Option Response :=
  (s.ledger.responses.filter fun r => !(needsSp r && s.cores.sp.state == .restarting)).foldl (fun b r => match b with
    | none => some r
    | some x => if x.sev < r.sev then some r else some x) none

/-- The step of a response: the outputs that its class's causes stand on are in their harmless states; a step never narrows
an action already taken. -/
def State.respond (s : State) (r : Response) : State :=
  (s.ledger.causes.filter fun e => e.2.cls == r.cls && e.2.cleared.isNone).foldl
    (fun s e => match s.shown e.1 with
      | some c => if c.cls = r.cls then s.goHarmless e.1 c.reason c.cls else s
      | none => s) s

/-- RESPONSE_RUN (R395): one step of the response queue. A response of higher severity stops a lower one at its step
boundary, which counts in PREEMPTS; otherwise the running response takes its step. -/
def execResponseRun (s : State) : Out :=
  match s.nextResponse, s.ledger.running with
  | none, none => .next s
  | none, some r => .next (({ s with ledger := { s.ledger with running := none } } : State).respond r)
  | some q, none =>
    .next { s with ledger := { s.ledger with running := some q, responses := s.ledger.responses.erase q } }
  | some q, some r =>
    if r.sev < q.sev then
      .next (({ s with ledger := { s.ledger with running := some q, responses := r :: s.ledger.responses.erase q } } : State).count R.led_PREEMPTS)
    else .next (({ s with ledger := { s.ledger with running := none } } : State).respond r)

/-- SP_RESTARTS_CLEAR (R394): 60 s without a further restart of the safety pair. -/
def execSpRestartsClear (s : State) : Out :=
  if s.cores.spRestarts.all fun t => decide (t + sec 60 ≤ s.now) then .next (s.clearSafe F.SP_RESTARTS.code) else .next s

/-- RAISED_CAUSE_CLEAR (R389): a cause raised by FAULT_POLICY clears when no entry of its class naming the output has been
delivered for the longer of QUIET_MS and 1 s. -/
def execRaisedCauseClear (o : Output) (cls : Nat) (s : State) : Out :=
  match (s.standing o).find? fun c => c.cls == cls && c.policy && c.cleared.isNone with
  | some c => if s.due (c.lastAt + max (ms s.quietMs) (sec 1)) then .next (s.clearCause o cls) else .next s
  | none => .next s

/-- An output is planned by the configuration in force. -/
def State.planned (s : State) (o : Output) : Bool :=
  match o with
  | .channel n => s.hasSection 0x0401 4 (0x10 + n)
  | .head n => s.hasSection 0x0681 (5 + n / 8) (n % 8)
  | .audio _ => s.hasSection 0x0701 7 0
  | .tio n => s.isTioOutput n

/-- Own severity of a class that a chapter defines. -/
def ownSeverity (cls : Nat) : Option Nat := (allClasses.find? fun f => f.code == cls).map fun f => f.sev

/-- A code lies in one of the ranges. -/
def codeIn (ranges : List (Nat × Nat)) (cls : Nat) : Bool := ranges.any fun r => r.1 ≤ cls && cls ≤ r.2

/-- Classes whose entries name an output (R386): a channel by its data-path address, a head by its number, an audio flow by its
data-path address, a TIO output by its block, or every output. -/
def namesOutput (cls : Nat) : Bool :=
  codeIn [(0x0202, 0x0202), (0x0301, 0x0306), (0x0310, 0x0314), (0x0320, 0x0322), (0x0401, 0x0404), (0x0410, 0x0413),
    (0x0501, 0x0508), (0x0526, 0x0526), (0x0601, 0x0609), (0x0681, 0x0687), (0x0704, 0x0705), (0x0709, 0x0709),
    (0x080B, 0x080B), (0x0D01, 0x0D01), (0x0E14, 0x0E15)] cls

/-- Classes whose entries concern only the data they name, or are rate-limited: they raise no standing cause (R386). -/
def dataClass (cls : Nat) : Bool :=
  codeIn [(0x0301, 0x0302), (0x0304, 0x0306), (0x0312, 0x0312), (0x0401, 0x0403), (0x0413, 0x0413), (0x0503, 0x0503),
    (0x0601, 0x0601), (0x0606, 0x0607), (0x0681, 0x0681), (0x0704, 0x0705), (0x080B, 0x080B)] cls

end Sys2Proof.Machine
end

