-- ==== Sys2Proof/Machine/Recorder.lean ====
section
/-!
DEFINITION. The commands of the evidence recorder (R300 to R318) and the registers of its block.
-/

namespace Sys2Proof.Machine

/-! ## Writing (R300, R304, R307, R309) -/

/-- RECORD_ADMIT (R300, R301): the next entry of the mirror queue, or a record that a unit hands over, is admitted or shed. -/
def execRecordAdmit (source : RecordSource) (s : State) : Out :=
  match source with
  | .ledger =>
    if s.recAdmits 1 = false then .next s
    else match s.ledger.mirror with
      | [] => .next s
      | e :: rest => .next (({ s with ledger := { s.ledger with mirror := rest } } : State).admitRecord 1 0 (entryBytes e))
  | .data type tap bytes =>
    if type = 4 then .next (s.tapAdmit tap bytes).1
    else if 2 ≤ type ∧ type ≤ 5 then .next (s.admitRecord type tap bytes)
    else .next s

/-- Bytes that can still be written before 1.2 ms after the warning, at 800 MB/s (Table 13-5). -/
def State.warnBytes (s : State) (w : Nat) : Nat := (w + 1200000 - s.now) * 4 / 5

/-- Under the warning, the head of the staging ring is abandoned while it is not LEDGER and the time would not hold it beside
every staged LEDGER record (Table 13-5). -/
def State.abandonHead : Nat → State → State
  | 0, s => s
  | n + 1, s =>
    match s.recorder.warnAt, s.recorder.staging with
    | some w, r :: rest =>
      let ledger := ((s.recorder.staging.filter fun x => x.type == 1).map Staged.size).sum
      if r.type ≠ 1 ∧ r.seal_.isNone ∧ s.warnBytes w < s.recorder.carry.length + ledger + r.size then
        State.abandonHead n ((s.modRecorder fun q => { q with
          staging := rest, abandoned := q.abandoned + 1, warnAbandoned := q.warnAbandoned + 1 }).count R.rec_ABANDONED)
      else s
    | _, _ => s

/-- The wheel's record area takes no further record of a size, keeping room for the page that completes it. -/
def State.wheelFull (s : State) (size : Nat) : Bool :=
  match s.openWheel with
  | some w => decide (areaBytes < w.bytes + size + pageBytes)
  | none => false

/-- Records are laid out until a page is full, or a seal comes first. -/
def State.layPage : Nat → State → State
  | 0, s => s
  | n + 1, s =>
    match s.recorder.staging with
    | r :: rest =>
      if pageBytes ≤ s.recorder.carry.length || r.seal_.isSome || s.wheelFull r.size then s
      else State.layPage n ((s.modRecorder fun q => { q with staging := rest }).layOut r.type r.source r.stamp r.payload r.at_)
    | [] => s

/-- The next thing to write is a seal: a seal mark, or the end of a full record area. -/
def State.sealNext (s : State) : Bool :=
  match s.recorder.staging with
  | r :: _ => r.seal_.isSome || s.wheelFull r.size
  | [] => false

/-- The open page is completed with a PAD record and written. -/
def State.flushPage (s : State) : State :=
  if s.mayWrite pageBytes then State.writePages 2 s.padPage else s

/-- PAGE_WRITE (R304, R307): a full page is written while the bucket allows it; a seal that is next is made instead, with its
wheel's last page, and the next wheel opens. Under the warning a page is also written before it is full. -/
def execPageWrite (s : State) : Out :=
  if s.openWheel.isNone then .next s
  else
    let s := State.abandonHead s.recorder.staging.length s
    let s := State.layPage s.recorder.staging.length s
    if pageBytes ≤ s.recorder.carry.length then .next (State.writePages 1 s)
    else if s.sealNext then .next s.drainStep
    else if s.recorder.warnAt.isSome ∧ s.recorder.carry ≠ [] then .next s.flushPage
    else .next s

/-- When the oldest unwritten record was admitted. -/
def State.oldestStaged (s : State) : Option Nat :=
  if s.recorder.carry ≠ [] then some s.recorder.carryAt else (s.recorder.staging.head?).map (·.at_)

/-- PAGE_TIMEOUT (R304): the oldest unwritten record has waited 10 ms, and its page is written, padded when it is not full. -/
def execPageTimeout (s : State) : Out :=
  match s.oldestStaged with
  | none => .next s
  | some t =>
    if s.openWheel.isNone ∨ s.due (t + ms 10) = false then .next s
    else
      let s := State.layPage s.recorder.staging.length s
      if pageBytes ≤ s.recorder.carry.length then .next (State.writePages 1 s)
      else if s.sealNext then .next s.drainStep
      else .next s.flushPage

/-! ## Signatures and seals (R307 to R310) -/

/-- WHEEL_SIGN (R308): a sealed wheel that is due a signature gets it. A wheel sealed under the supply warning waits for the
next start-up. -/
def execWheelSign (wheel : Nat) (s : State) : Out :=
  match s.wheel wheel with
  | some w =>
    match w.seal_ with
    | some x => .next (if w.due ∧ x.cause ≠ sealWarning ∧ s.mayWrite sealBytes then s.signWheel wheel else s)
    | none => .next s
  | none => .next s

/-- REC_WARN_LEDGER_CLOSE (R309): 1.0 ms after the warning no LEDGER record is admitted any more. -/
def execRecWarnLedgerClose (s : State) : Out :=
  match s.recorder.warnAt with
  | some w => .next (if s.due (w + us 1000) then s.modRecorder fun r => { r with closedLedger := true } else s)
  | none => .next s

/-- REC_WARN_STOP (R309): 1.2 ms after the warning writing stops, what is not in NAND is abandoned, and the open wheel is sealed. -/
def execRecWarnStop (s : State) : Out :=
  match s.recorder.warnAt, s.openWheel with
  | some w, some o =>
    if s.due (w + us 1200) = false ∨ s.recorder.state = .warnSealed then .next s
    else
      let cut := o.cut
      let staged := (s.recorder.staging.filter fun r => r.seal_.isNone).length + (o.records - cut.records)
      let n := s.recorder.warnAbandoned + staged
      let s := (s.modOpen fun _ => cut).modRecorder fun r => { r with
        staging := [], carry := [], abandoned := r.abandoned + staged, warnAbandoned := n, closedLedger := true, state := .warnSealed }
      let s := (s.countBy R.rec_ABANDONED staged).sealOpen sealWarning n
      .next (s.recLog F.REC_WARN_SEAL (leBytes 8 o.number ++ leBytes 4 n))
  | _, _ => .next s

/-- SAFE_SEAL_TIMEOUT (R310): under device-safe a wheel that has been open for SAFE_SEAL_MS is sealed. -/
def execSafeSealTimeout (s : State) : Out :=
  match s.openWheel with
  | some w =>
    .next (if s.ledger.safe ∧ s.due (w.openedAt + ms s.safeSealMs) ∧ (s.recorder.staging.all fun r => r.seal_.isNone)
      then s.sealWheel sealSafe else s)
  | none => .next s

/-- SEAL_NOW (R310). -/
def execSealNow (_agent : Agent) (s : State) : Out :=
  if s.running then .next (s.sealWheel sealDemand) else .next s

/-! ## Export and verification (R314, R315) -/

/-- A wheel number that an agent has written to a pair of registers. -/
def State.wheelLatch (s : State) (g : Agent) (lo hi : Nat) : Nat := (s.latch g lo).toNat + 0x100000000 * (s.latch g hi).toNat

/-- The export of a session. -/
def State.exportOf (s : State) (i : Nat) : Option Export := s.recorder.exports.find? fun e => e.session == i

/-- EXPORT_OPEN (R314): a sealed and retained wheel is pinned for the session, at most 8 of them; otherwise the session's
EXPORT_STATUS reads REFUSED. An earlier export of the session ends. -/
def execExportOpen (agent : Agent) (s : State) : Out :=
  match agent with
  | .session i =>
    let n := s.wheelLatch agent R.rec_EXPORT_WHEEL_LO R.rec_EXPORT_WHEEL_HI
    let good := (match s.wheel n with | some w => w.seal_.isSome | none => false) && s.recorder.exports.length < 8
    if good then
      .next (s.modRecorder fun r => { r with
        exports := (r.exports.filter fun e => e.session != i.val) ++ [⟨i.val, n, s.now⟩],
        refused := r.refused.filter (· != i.val), uncorr := r.uncorr.filter (· != i.val) })
    else .next (s.modRecorder fun r => { r with refused := i.val :: r.refused.filter (· != i.val) })
  | _ => .next s

/-- An export ends and its pin is released. -/
def State.endExport (s : State) (i : Nat) : State :=
  s.modRecorder fun r => { r with exports := r.exports.filter fun e => e.session != i,
                                  refused := r.refused.filter (· != i), uncorr := r.uncorr.filter (· != i) }

/-- EXPORT_CLOSE (R314). -/
def execExportClose (agent : Agent) (s : State) : Out :=
  match agent with
  | .session i => .next (s.endExport i.val)
  | _ => .next s

/-- EXPORT_IDLE_TIMEOUT (R314): 60 s without a read release the pin. -/
def execExportIdleTimeout (session : Fin 8) (s : State) : Out :=
  match s.exportOf session.val with
  | some e => .next (if s.due (e.lastAt + sec 60) then s.endExport session.val else s)
  | none => .next s

/-- The signature block (Table 13-4); 0xFF throughout while there is no signature. -/
def signatureBlock (w : Wheel) : List Byte :=
  match w.signed with
  | none => List.replicate sealBytes 0xFF
  | some (stamp, sig) =>
    let p := leBytes 2 1 ++ leBytes 2 512 ++ leBytes 4 0 ++ leBytes 8 w.number ++ leBytes 8 stamp.toNat ++ sig
    (p ++ List.replicate sealBytes 0).take sealBytes

/-- One byte of a slot as an export reads it; a byte of the record area that nothing has written is a free value. -/
def State.slotByte (s : State) (w : Wheel) (area block : List Byte) (i : Nat) : Byte :=
  if i < areaBytes then (if i < area.length then area.getD i 0 else Config.freeByte (s.fresh + i))
  else if i < areaBytes + sealBytes then block.getD (i - areaBytes) 0
  else (signatureBlock w).getD (i - areaBytes - sealBytes) 0

/-- A block read of the recorder space by a session (R314): the bytes, and the read counts against the 60 s. Whether a page reads
uncorrectable is a free value; such a page reads as zeros. -/
def State.exportRead (s : State) (i off len : Nat) : State × Option (List Byte) :=
  match s.exportOf i with
  | none => (s, none)
  | some e =>
    match s.wheel e.wheel with
    | none => (s, none)
    | some w =>
      let block := match w.seal_ with | some x => sealBlock w x | none => []
      let area := w.area.reverse.flatten
      let unread (page : Nat) : Bool := Config.freeBit (s.fresh + page)
      let bytes := (List.range len).map fun k => if unread ((off + k) / pageBytes) then 0 else s.slotByte w area block (off + k)
      let bad := (((List.range len).map fun k => (off + k) / pageBytes).dedup.filter unread).map (· * pageBytes)
      let s := s.modRecorder fun r => { r with
        exports := r.exports.map fun x => if x.session = i then { x with lastAt := s.now } else x,
        uncorr := if bad.isEmpty then r.uncorr else i :: r.uncorr.filter (· != i) }
      let s := bad.foldl (fun s b => s.recLog F.REC_READ_UNCORR (leBytes 8 w.number ++ leBytes 4 b)) s
      ({ s with fresh := s.fresh + areaBytes }, some bytes)

/-- VERIFY (R315): verification of the wheel in VERIFY_WHEEL begins. -/
def execVerify (_agent : Agent) (s : State) : Out :=
  if s.running then
    let n := (s.reg R.rec_VERIFY_WHEEL_LO).toNat + 0x100000000 * (s.reg R.rec_VERIFY_WHEEL_HI).toNat
    .next (s.modRecorder fun r => { r with verifying := some n, verifyResult := 0 })
  else .next s

/-- What verification finds: DIGEST failed, CRC failed, SIGNATURE failed. -/
def State.verifyWheel (s : State) (n : Nat) : Bool × Bool × Bool :=
  match s.wheel n with
  | none => (true, false, false)
  | some w =>
    match w.seal_ with
    | none => (true, false, false)
    | some x =>
      let block := sealBlock w x
      (decide (digestOf w x w.areaBytes ≠ x.digest), decide (w.kept.length < w.records),
       match w.signed with | some (_, sig) => !Config.identityVerify (block ++ []) sig | none => false)

/-- VERIFY_DONE (R315). -/
def execVerifyDone (s : State) : Out :=
  match s.recorder.verifying with
  | none => .next s
  | some n =>
    let (d, c, g) := s.verifyWheel n
    let bad := d || c || g
    let v := w32 (0x80000000 + 0x40000000 * b2n (!bad) + 4 * b2n g + 2 * b2n c + b2n d)
    let s := (s.modRecorder fun r => { r with verifying := none, verifyResult := v }).event R.rec_EVENTS 16
    .next (if bad then s.recLog F.REC_VERIFY_FAIL (leBytes 8 n ++ leBytes 4 v.toNat) else s)

/-! ## Endurance (R316) -/

/-- The recorder seals what it can, admits nothing more and is in its harmless state. No cause of Table 13-3 fits that seal. -/
def State.storeFail (s : State) (cause : Nat) : State :=
  let last := (s.recorder.store.wheels.getLast?.map (·.number)).getD 0
  let (k, s) := s.freeBelow 7
  let s := (State.writePages 2 s.padPage).modOpen Wheel.cut
  let s := s.sealOpen (k + 1) 0
  let s := s.modRecorder fun r => { r with state := .failed, staging := [], carry := [] }
  (s.event R.rec_EVENTS 64).recLog F.REC_STORE_FAIL (leBytes 8 last ++ leBytes 1 cause)

/-- NAND_PROGRAM_FAIL (R316): the block is retired and its data go to a spare block; without a spare the slot being written
leaves service, and below 16 slots the store has failed. -/
def execNandProgramFail (block : Nat) (s : State) : Out :=
  if 0 < s.recorder.store.spares then
    let s := s.modStore fun t => { t with spares := t.spares - 1 }
    .next (s.recLog F.REC_BLOCK_RETIRED (leBytes 4 block ++ leBytes 4 s.recorder.store.spares))
  else
    match s.openWheel with
    | none => .next s
    | some w =>
      if s.recorder.store.badSlots.contains w.slot then .next s
      else
        let s := s.modStore fun t => { t with badSlots := t.badSlots ++ [w.slot] }
        let s := s.recLog F.REC_SLOT_RETIRED (leBytes 4 w.slot ++ leBytes 4 s.slotsInService)
        .next (if s.slotsInService < 16 then s.storeFail 1 else s)

/-! ## Registers (Tables 13-6 and 13-7) -/

/-- STATE of REC_STATUS. -/
def RecState.code : RecState → Nat
  | .initialising => 0 | .recovering => 1 | .recording => 2 | .warnSealed => 3 | .failed => 4 | .ledgerOnly => 5

/-- REC_STATUS (Table 13-7). -/
def State.recStatus (s : State) : Word :=
  let r := s.recorder
  let waiting := !r.staging.isEmpty && (pageBytes ≤ r.carry.length || s.sealNext) && !s.mayWrite pageBytes
  let sign := r.store.wheels.any fun w => w.signed.isNone && w.due
  let shed (type : Nat) : Bool := (r.shed type).on && decide ((shedLimit type).getD 0 / 2 ≤ s.backlog)
  let prov := match s.openWheel with | some w => w.provisional | none => false
  w32 (0x10000000 * r.state.code + 0x8000000 * b2n s.ledger.safe + 0x4000000 * b2n waiting + 0x2000000 * b2n (shed 4) +
    0x1000000 * b2n (shed 2) + 0x800000 * b2n (shed 3) + 0x400000 * b2n sign + 0x200000 * b2n r.holdFull +
    0x100000 * b2n prov)

/-- Number of the open wheel, and of the lowest retained one; 0 without one. -/
def State.openNumber (s : State) : Nat := (s.openWheel.map (·.number)).getD 0
def State.oldestNumber (s : State) : Nat := (s.recorder.store.wheels.head?.map (·.number)).getD 0

/-- SLOTS. -/
def State.slotsWord (s : State) : Word := w32 (0x10000 * s.slotsHeld + s.slotsInService)

/-- RATE_NOW: bytes written to NAND in the last whole second. -/
def State.rateNowWord (s : State) : Word :=
  let (a, b, c) := s.recorder.rateNow
  let t := s.now / sec 1
  w32 (if a = t then c else if a + 1 = t then b else 0)

/-- EXPORT_STATUS of a session. -/
def State.exportStatus (s : State) (g : Agent) : Word :=
  match g with
  | .session i =>
    let e := (s.exportOf i.val).isSome
    let refused := s.recorder.refused.contains i.val
    w32 (8 * b2n (s.recorder.uncorr.contains i.val) + 4 * b2n e + (if refused then 2 else b2n e))
  | _ => 0

end Sys2Proof.Machine
end

