-- ==== Sys2Proof/Machine/Audio.lean ====
section
/-!
DEFINITION. Microphone audio (R256 to R272): clocks and their holds, decimated samples, capture groups, audio elements and
packets, mask changes.
-/

namespace Sys2Proof.Machine

/-! ## Sections in force (Tables 11-5 to 11-7) -/

/-- Payload of an Audio-class section in force. -/
def State.audioPayload (s : State) (type : Nat) : List Byte :=
  match findSection s.audio.inForce type 7 0 with
  | some x => x.payload
  | none => []

/-- Record of a capture group and its slot mask. -/
def groupRecord (p : List Byte) (g : Nat) : List Byte := (p.drop (64 * g)).take 64
def State.groupRec (s : State) (g : Nat) : List Byte := groupRecord (s.audioPayload 0x0701) g
def State.slotMask (s : State) (g : Nat) : Nat := le (s.audioPayload 0x0702) (2 * g) 2

/-- Field of a clock's record in PDM_CLOCKS. -/
def State.pdmField (s : State) (k off n : Nat) : Nat := le (s.payload 0x0703 7 0) (8 * k + off) n

/-- Samples per frame of a RATE code: fs / 1000 (R259). -/
def perFrame (rate : Nat) : Nat := match rate with | 0 => 16 | 1 => 32 | _ => 48

/-- FLAGS of a group record: ENABLE, SEND, PATH_B, RECORD, HPF. -/
def groupFlag (r : List Byte) (b : Nat) : Bool := bit (le r 0 1) b

/-- A capture group's state. -/
def State.group (s : State) (g : Nat) : AudioGroup := if g = 0 then s.audio.g0 else s.audio.g1
def State.modGroup (s : State) (g : Nat) (f : AudioGroup → AudioGroup) : State :=
  s.modAudio fun a => if g = 0 then { a with g0 := f a.g0 } else { a with g1 := f a.g1 }

/-- A PDM clock's monitor and its held spans. -/
def State.pdm (s : State) (k : Nat) : Monitor := if k = 0 then s.audio.ck0 else s.audio.ck1
def State.setPdm (s : State) (k : Nat) (m : Monitor) : State :=
  s.modAudio fun a => if k = 0 then { a with ck0 := m } else { a with ck1 := m }
def State.spans (s : State) (k : Nat) : List HoldSpan := if k = 0 then s.audio.spans0 else s.audio.spans1
def State.modSpans (s : State) (k : Nat) (f : List HoldSpan → List HoldSpan) : State :=
  s.modAudio fun a => if k = 0 then { a with spans0 := f a.spans0 } else { a with spans1 := f a.spans1 }

/-- Clock of a channel. -/
def clockOf (mic : Nat) : Nat := mic / 8

/-- A channel as a group sees it. -/
def Mic.of (m : Mic) (g : Nat) : MicGroup := if g = 0 then m.g0 else m.g1
def Mic.setOf (m : Mic) (g : Nat) (x : MicGroup) : Mic := if g = 0 then { m with g0 := x } else { m with g1 := x }

/-- A group's slot mask selects a channel. -/
def State.picks (s : State) (g mic : Nat) : Bool := bit (s.slotMask g) mic

/-- Data-path address of a group's entries: the port of path A when it sends (R272). -/
def State.groupDp (s : State) (g : Nat) : Nat :=
  if groupFlag (s.groupRec g) 1 then dpAddr 1 (le (s.groupRec g) 12 1) 0 0 0 0 else 0

/-- Data-path address of a channel's entries: that of the first group whose mask selects it. -/
def State.micDp (s : State) (mic : Nat) : Nat := if s.picks 0 mic then s.groupDp 0 else if s.picks 1 mic then s.groupDp 1 else 0

/-! ## Clocks (R257, R262) -/

/-- Driven or learned rate of a clock in Hz; 0 when it is off or lost. -/
def State.clockRate (s : State) (k : Nat) : Nat :=
  if s.pdmField k 0 1 = 1 then 1000 * s.pdmField k 2 2
  else if s.pdmField k 0 1 = 2 ∧ (s.pdm k).state = .good then (s.pdm k).rate else 0

/-- The decimation ratios of R257. -/
def ratios : List Nat := [32, 48, 64, 96, 128]

/-- The ratio that a rate gives at an output rate, within 1,000 ppm (R262). -/
def ratioOf (rate fs : Nat) : Option Nat :=
  ratios.find? fun r => decide ((rate : Int) - (r * fs : Nat) ≤ (r * fs / 1000 : Nat)) && decide ((r * fs : Nat) - (rate : Int) ≤ (r * fs / 1000 : Nat))

/-- R262 is not met for a group and a clock. -/
def State.rateBad (s : State) (g k : Nat) : Bool := if k = 0 then (s.group g).rateBad0 else (s.group g).rateBad1

/-- The group's use of a slave clock is judged again; AUDIO_CLK_RATE when it is not allowed (R262). -/
def State.judgeRate (s : State) (g k : Nat) : State :=
  let r := s.groupRec g
  let bad := s.pdmField k 0 1 == 2 && (s.pdm k).state == .good && groupFlag r 0 && (ratioOf (s.pdm k).rate (1000 * perFrame (le r 1 1))).isNone
  let s := s.modGroup g fun x => if k = 0 then { x with rateBad0 := bad } else { x with rateBad1 := bad }
  if bad then
    (s.event R.au_EVENTS (2 ^ k)).logData F.AUDIO_CLK_RATE R.au (s.groupDp g) (leBytes 1 k ++ leBytes 1 g ++ leBytes 4 (s.pdm k).rate)
  else s

/-- The clock delivers bits that the group may use. -/
def State.clockGood (s : State) (g k : Nat) : Bool :=
  s.pdmField k 0 1 != 0 && (s.pdm k).state == .good && !s.rateBad g k

/-- A loss of a clock is declared (R262, R263). -/
def State.pdmLost (s : State) (k : Nat) : State :=
  let s := (s.count (if k = 0 then R.au_CK0_LOSSES else R.au_CK1_LOSSES)).event R.au_EVENTS (2 ^ k)
  let s := s.modSpans k fun l => l ++ [{ start := s.ptpNs.toNat }]
  s.log F.AUDIO_CLK_LOSS R.au (leBytes 1 k ++ leBytes 8 (s.pdm k).lastStamp.toNat)

/-- A clock is reacquired: open spans end, each group judges the rate, and the bits of its channels are compared from now on
(DESIGN CHOICE, log 71). -/
def State.pdmGood (s : State) (k : Nat) : State :=
  let t := s.ptpNs.toNat
  let s := (List.range 8).foldl (fun s i => s.modMic (8 * k + i) fun m => { m with since := s.now }) s
  let s := s.modSpans k fun l => l.map fun x => if x.stop.isNone ∧ x.samples.isNone then { x with stop := some t } else x
  let s := (s.event R.au_EVENTS (2 ^ k)).log F.AUDIO_CLK_REACQUIRED R.au (leBytes 1 k ++ leBytes 4 (s.clockRate k))
  (s.judgeRate 0 k).judgeRate 1 k

/-- A glitched window of a clock in service: its samples are HELD throughout (R263). -/
def State.pdmGlitch (s : State) (k : Nat) : State :=
  let t := s.ptpNs.toNat
  let s := (s.count (if k = 0 then R.au_CK0_GLITCHES else R.au_CK1_GLITCHES)).event R.au_EVENTS 4
  let s := s.modSpans k fun l => l ++ [{ start := t - 1000000, stop := some t }]
  s.logRated F.AUDIO_CLK_GLITCH k R.au 0 (fun n => leBytes 1 k ++ leBytes 4 n) false

/-- PDM_CLOCKS has changed: each clock whose record differs is lost and acquires again (R262). The caller has put the section in
force. -/
def State.installPdm (s : State) (old : List Byte) : State :=
  (List.range 2).foldl (fun s k =>
    if (old.drop (8 * k)).take 8 = ((s.payload 0x0703 7 0).drop (8 * k)).take 8 then s
    else
      let s := if (s.pdm k).state = .good then s.pdmLost k else s
      let mode := s.pdmField k 0 1
      let st := if mode = 0 then MonitorState.off else if (s.pdm k).state = .good ∨ (s.pdm k).state = .lost then .lost else .acquiring
      s.setPdm k { state := st, nominal := if mode = 1 then 1000000000 / s.pdmField k 2 2 else 0, lastEdgeAt := s.now,
                   lastStamp := (s.pdm k).lastStamp }) s

/-- AUDIO_SLIP (R264): a slip buffer has run empty, or a sample has found it full. -/
def execAudioSlip (clock : Bool) (overrun : Bool) (s : State) : Out :=
  let k := b2n clock
  if s.running ∧ s.pdmField k 0 1 = 2 ∧ (s.pdm k).state = .good then
    let s := (s.count (if k = 0 then R.au_CK0_SLIPS else R.au_CK1_SLIPS)).event R.au_EVENTS 8
    let s := s.modSpans k fun l => l ++ [{ start := s.ptpNs.toNat, samples := some (if overrun then 1 else 32) }]
    .next (s.logRated F.AUDIO_SLIP k R.au 0 (fun n => leBytes 1 k ++ leBytes 1 (if overrun then 2 else 1) ++ leBytes 4 n) false)
  else .next s

/-! ## Samples (R258, R263 to R265) -/

/-- A sample of `ones` bits out of a ratio: exact where R258 gives the value, otherwise the filter's. -/
def micSample (hpf : Bool) (gain ratio ones : Nat) : Int :=
  let num : Int := (2 * (ones : Int) - ratio) * 8388607
  let v := if hpf = false ∧ num % ratio = 0 then num / ratio else Config.decimated hpf ones ratio
  max (-8388607) (min 8388607 (v * 2 ^ gain))

/-- The span covers a sample instant at fs samples per ms. -/
def HoldSpan.covers (h : HoldSpan) (fs t : Nat) : Bool :=
  h.start ≤ t && match h.stop, h.samples with
    | some e, _ => t < e
    | none, some n => t < h.start + n * 1000000 / fs
    | none, none => true

/-- Instant of sample i of a frame. -/
def instantOf (frame fs i : Nat) : Nat := frame * 1000000 + i * 1000000 / fs

/-- The output samples of one channel in a frame: from the fresh samples in order, repeating the last one where a span covers the
instant or nothing has arrived; with the last sample and whether any was HELD. -/
def fillSamples (fs frame : Nat) (spans : List HoldSpan) : Nat → Nat → Int → List Int → List Int × Int × Bool
  | 0, _, last, _ => ([], last, false)
  | n + 1, i, last, fresh =>
    let held := spans.any fun h => h.covers fs (instantOf frame fs i)
    match held, fresh with
    | false, x :: rest => let y := fillSamples fs frame spans n (i + 1) x rest; (x :: y.1, y.2.1, y.2.2)
    | _, _ => let y := fillSamples fs frame spans n (i + 1) last fresh; (last :: y.1, y.2.1, true)

/-- One channel of one group in the frame that ends: its samples, HELD and INVALID. -/
structure MicFrame where
  samples : List Int
  held    : Bool
  invalid : Bool
  deriving DecidableEq, Repr

/-- A frame of channel i in group g (R263): the hold count, and the fifth frame that would hold. -/
def State.micFrame (s : State) (g i frame : Nat) (input : List MicSamples) : MicFrame × MicGroup :=
  let r := s.groupRec g
  let fs := perFrame (le r 1 1)
  let k := clockOf i
  let x := (s.mic i).of g
  let ones := match input.find? fun e => e.group == g && e.mic == i with | some e => e.ones | none => []
  let ratio := (ratioOf (s.clockRate k) (1000 * fs)).getD 64
  let fresh := ones.map (micSample (groupFlag r 4) (le r 3 1) ratio)
  let (out, last, held) := fillSamples fs frame (s.spans k) fs 0 x.last fresh
  if x.invalid || (s.mic i).stuck then ({ samples := List.replicate fs 0, held := false, invalid := true }, { x with last := last })
  else if held ∧ 4 ≤ x.hold then
    ({ samples := List.replicate fs 0, held := false, invalid := true }, { last := last, hold := x.hold + 1, invalid := true })
  else ({ samples := out, held := held, invalid := false }, { x with last := last, hold := if held then x.hold + 1 else 0 })

/-- The channels that a group's mask selects, in ascending order (R260). -/
def selected (mask : Nat) : List Nat := (List.range 16).filter fun i => bit mask i

/-- Mask of the positions or channels that satisfy a condition. -/
def maskOf (l : List Bool) : Nat := (l.zipIdx).foldl (fun v e => v + 2 ^ e.2 * b2n e.1) 0

/-! ## Elements and packets (R266, R267) -/

/-- The audio element (Table 11-4). -/
def audioElement (state mask frame held invalid gen : Nat) (mark : Bool) : List Byte :=
  leBytes 1 (16 + state) ++ leBytes 1 (b2n mark) ++ beBytes 2 mask ++ beBytes 4 (frame % 2 ^ 32) ++ beBytes 2 held ++
  beBytes 2 invalid ++ leBytes 1 gen ++ leBytes 3 0

/-- The RTP packet of a frame: header, one-byte extension with the element, L24 samples. -/
def audioPacket (r : List Byte) (seq frame : Nat) (element : List Byte) (instants : List (List Int)) : List Byte :=
  [0x90] ++ leBytes 1 (le r 4 1) ++ beBytes 2 seq ++ beBytes 4 (frame * 48 % 2 ^ 32) ++ beBytes 4 (le r 8 4) ++
  beBytes 2 0xBEDE ++ beBytes 2 5 ++ leBytes 1 (16 * le r 5 1 + 15) ++ element ++ leBytes 3 0 ++
  instants.flatMap fun l => l.flatMap fun v => (leInt 3 v).reverse

/-- Path records of a group record. -/
def groupPaths (r : List Byte) : List (List Byte) := (r.drop 12).take 24 :: (if groupFlag r 2 then [(r.drop 36).take 24] else [])

/-- A packet goes to every path whose port is UP; its sequence number is taken in any case (R266). -/
def State.audioSend (s : State) (g : Nat) (r bytes : List Byte) : State :=
  let s := (s.modGroup g fun x => { x with seq := (x.seq + 1) % 65536 }).count (R.au_GRP_PKTS g)
  (groupPaths r).foldl (fun s q => if (s.port (le q 0 1)).state = .up then s.sendMedia q bytes else s) s

/-- Audio flows send: seeded, the gate open, not a standby (R268, R205, R411). -/
def State.audioSends (s : State) : Bool := s.clock.seeded && s.startup.gateOpen && s.sends

/-- A harmless frame of a record's width: every position INVALID, every sample 0. -/
def silence (n fs : Nat) : List (List Int) := List.replicate fs (List.replicate n 0)

/-- A frame of an enabled group is formed, sent and recorded (R260, R263, R266 to R269). -/
def State.formFrame (s : State) (g frame : Nat) (input : List MicSamples) : State :=
  let r := s.groupRec g
  let fs := perFrame (le r 1 1)
  let n := le r 2 1
  let mask := s.slotMask g
  let harmless := s.heldDown (.audio g)
  let frames := (List.range 16).map fun i => s.micFrame g i frame input
  let newly := maskOf (frames.zipIdx.map fun e => bit mask e.2 && e.1.2.invalid && !((s.mic e.2).of g).invalid)
  let s := (frames.zipIdx).foldl (fun s e => s.modMic e.2 fun m =>
    let top := (e.1.1.samples.map Int.natAbs).foldl max m.peak
    { m.setOf g e.1.2 with peak := top }) s
  let chans := selected mask
  let pos := (List.range n).map fun p => (chans[p]?).bind fun i => (frames.map (·.1))[i]?
  let held := maskOf (pos.map fun x => match x with | some f => f.held | none => false)
  let invalid := maskOf (pos.map fun x => match x with | some f => f.invalid | none => true)
  let all := 2 ^ n - 1
  let state := if harmless then 3 else if held + invalid = 0 then 0 else 1
  let element := audioElement state mask frame (if harmless then 0 else held) (if harmless then all else invalid)
    (s.group g).maskGen (s.group g).maskMark
  let instants := if harmless then silence n fs else (List.range fs).map fun t =>
    pos.map fun x => match x with | some f => f.samples.getD t 0 | none => 0
  let chMask (f : MicFrame → Bool) : Nat := maskOf ((List.range 16).map fun i => chans.contains i && match (frames.map (·.1))[i]? with | some x => f x | none => false)
  let heldCh := chMask (·.held)
  let invCh := chMask (·.invalid)
  let s := if newly = 0 then s
    else (s.event R.au_EVENTS 16).logData F.AUDIO_SILENCED R.au (s.groupDp g) (leBytes 1 g ++ leBytes 2 newly)
  let s := if heldCh = 0 then s else s.count (R.au_GRP_HOLD_FRAMES g)
  let s := if invCh = 0 then s else s.count (R.au_GRP_SILENT_FRAMES g)
  let s := if harmless ∧ (s.group g).eov = false then s.event R.au_EVENTS 128 else s
  let seq := (s.group g).seq
  let s := s.modGroup g fun x => { x with held := heldCh, invalid := invCh, frame := frame % 2 ^ 32, eov := harmless, maskMark := false }
  let s := if groupFlag r 1 ∧ s.audioSends then s.audioSend g r (audioPacket r seq frame element instants) else s
  if groupFlag r 3 then
    s.admitRecord 3 g (element ++ instants.flatMap fun l => l.flatMap fun v => leInt 3 v)
  else s

/-- One of the 16 packets after a stop (R268). -/
def State.stopFrame (s : State) (g frame : Nat) : State :=
  let x := s.group g
  if x.stopLeft = 0 then s
  else
    let n := le x.flow 2 1
    let element := audioElement 3 (s.slotMask g) frame 0 (2 ^ n - 1) x.maskGen x.maskMark
    let s := s.modGroup g fun y => { y with stopLeft := y.stopLeft - 1, maskMark := false }
    if s.audioSends then s.audioSend g x.flow (audioPacket x.flow x.seq frame element (silence n 48)) else s

/-! ## Frame boundaries (R259, R261) -/

/-- The bits of a channel in the frame: a window that is not all equal, or another level, is a transition (R265). -/
def State.micBits (s : State) (input : List MicSamples) (i : Nat) : State :=
  match input.find? fun e => e.mic == i with
  | none => s
  | some e =>
    let fs := perFrame (le (s.groupRec e.group) 1 1)
    let ratio := (ratioOf (s.clockRate (clockOf i)) (1000 * fs)).getD 64
    let moves := e.ones.any fun n => (n != 0 && n != ratio) || (n == ratio) != (s.mic i).level
    let level := match e.ones.getLast? with | some n => n == ratio | none => (s.mic i).level
    if !moves then s
    else
      let was := (s.mic i).stuck
      let s := s.modMic i fun m => { m with level := level, since := s.now, stuck := false }
      if was then s.logOut F.MIC_LIVE R.au (s.micDp i) [] (leBytes 1 i) else s

/-- At the start of a frame: a channel that has held four frames and still holds becomes INVALID, and one whose clock is good
again becomes valid (R263). -/
def State.openFrame (s : State) (g frame : Nat) : State :=
  let r := s.groupRec g
  let fs := perFrame (le r 1 1)
  let x (i : Nat) := (s.mic i).of g
  let holds (i : Nat) : Bool := (s.spans (clockOf i)).any fun h => h.covers fs (instantOf frame fs 0)
  let off (i : Nat) : Bool := s.pdmField (clockOf i) 0 1 == 0 || s.rateBad g (clockOf i) || (s.pdm (clockOf i)).state == .acquiring
  let newly := (List.range 16).filter fun i => !(x i).invalid && holds i && 4 ≤ (x i).hold
  let s := (List.range 16).foldl (fun s i =>
    let y := (s.mic i).of g
    if newly.contains i || off i then s.modMic i fun m => m.setOf g { y with invalid := true }
    else if y.invalid ∧ s.clockGood g (clockOf i) ∧ holds i = false then s.modMic i fun m => m.setOf g { y with invalid := false, hold := 0 }
    else s) s
  let named := maskOf ((List.range 16).map fun i => newly.contains i && bit (s.slotMask g) i)
  if named = 0 ∨ groupFlag r 0 = false then s
  else (s.event R.au_EVENTS 16).logData F.AUDIO_SILENCED R.au (s.groupDp g) (leBytes 1 g ++ leBytes 2 named)

/-- A group's mask has changed at this boundary (R261). -/
def State.maskChanged (s : State) (g frame old new : Nat) : State :=
  let gen := ((s.group g).maskGen + 1) % 256
  let s := (s.modGroup g fun x => { x with maskGen := gen, maskMark := true }).event R.au_EVENTS 64
  let s := s.admitRecord 5 g (leBytes 1 g ++ leBytes 1 gen ++ leBytes 2 old ++ leBytes 2 new ++ leBytes 2 0 ++ leBytes 4 (frame % 2 ^ 32))
  s.logOut F.AUDIO_MASK_CHANGE R.au (s.groupDp g) [(.audio g, 0)] (leBytes 1 g ++ leBytes 2 old ++ leBytes 2 new ++ leBytes 1 gen)

/-- The Audio-class sections that wait come into force (R259, R261, R268). -/
def State.audioApply (s : State) (frame : Nat) : State :=
  if s.audio.change = false then s
  else
    let old := s.audio.inForce
    let rec_ (g : Nat) := groupRecord (match findSection old 0x0701 7 0 with | some x => x.payload | none => []) g
    let mask (g : Nat) := le (match findSection old 0x0702 7 0 with | some x => x.payload | none => []) (2 * g) 2
    let s := s.modAudio fun a => { a with inForce := a.waiting, change := false }
    (List.range 2).foldl (fun s g =>
      let was := groupFlag (rec_ g) 0 && groupFlag (rec_ g) 1
      let is := groupFlag (s.groupRec g) 0 && groupFlag (s.groupRec g) 1
      let s := if was && !is then s.modGroup g fun x => { x with stopLeft := 16, flow := rec_ g }
        else if is then s.modGroup g fun x => { x with stopLeft := 0 } else s
      let s := if rec_ g = s.groupRec g then s else (s.judgeRate g 0).judgeRate g 1
      if mask g = s.slotMask g then s else s.maskChanged g frame (mask g) (s.slotMask g)) s

/-- The spans that can still cover a sample from a time on. -/
def State.pruneSpans (s : State) (t : Nat) : State :=
  let keep (l : List HoldSpan) := l.filter fun h => match h.stop, h.samples with
    | some e, _ => decide (t < e)
    | none, some n => decide (t < h.start + n * 1000000 / 16)
    | none, none => true
  s.modAudio fun a => { a with spans0 := keep a.spans0, spans1 := keep a.spans1 }

/-- AUDIO_FRAME_BOUNDARY (R259): the frame that ends is formed from what the microphones delivered, waiting changes apply, and
the next frame begins. -/
def execAudioFrameBoundary (samples : List MicSamples) (s : State) : Out :=
  let t := s.ptpNs.toNat / 1000000
  if s.running = false ∨ t = s.audio.frame ∨ t = 0 then .next s
  else
    let a := t - 1
    let s := (List.range 2).foldl (fun s g =>
      if groupFlag (s.groupRec g) 0 then s.formFrame g a samples else s.stopFrame g a) s
    let s := (List.range 2).foldl (fun s g =>
      if groupFlag (s.groupRec g) 0 && !groupFlag (s.groupRec g) 1 then s.stopFrame g a else s) s
    let s := (List.range 16).foldl (fun s i => s.micBits samples i) s
    let s := (s.audioApply t).pruneSpans (t * 1000000)
    let s := s.modAudio fun x => { x with frame := t }
    .next ((s.openFrame 0 t).openFrame 1 t)

/-- MIC_STUCK_TIMEOUT (R265): every bit of the channel has been equal for STUCK_MS. -/
def execMicStuckTimeout (mic : Fin 16) (s : State) : Out :=
  let i := mic.val
  let k := clockOf i
  let limit := s.pdmField k 4 2
  if s.running ∧ 0 < limit ∧ (s.pdm k).state = .good ∧ (s.mic i).stuck = false ∧ s.due ((s.mic i).since + ms limit) then
    let s := (s.modMic i fun m => { m with stuck := true }).event R.au_EVENTS 32
    .next (s.logData F.MIC_STUCK R.au (s.micDp i) (leBytes 1 i ++ leBytes 1 (b2n (s.mic i).level)))
  else .next s

/-- The Audio-class sections of the configuration have changed: they wait for the next frame boundary (R259). -/
def State.audioWait (s : State) : State :=
  s.modAudio fun a => { a with waiting := s.config.filter fun x => x.type == 0x0701 || x.type == 0x0702, change := true }

/-- At start-up they are in force at once. -/
def State.audioStart (s : State) : State :=
  s.modAudio fun a => { a with inForce := s.config.filter fun x => x.type == 0x0701 || x.type == 0x0702, change := false }

/-! ## Registers (Tables 11-8 and 11-9) -/

/-- Code of a monitor's state. -/
def MonitorState.code : MonitorState → Nat
  | .off => 0 | .acquiring => 1 | .good => 2 | .lost => 3

/-- AU_STATUS. -/
def State.auStatus (s : State) : Word :=
  let bad (k : Nat) := b2n (s.rateBad 0 k || s.rateBad 1 k)
  w32 (0x40000000 * (s.pdm 1).state.code + 0x10000000 * (s.pdm 0).state.code + 0x4000000 * (s.pdmField 1 0 1 % 4) +
    0x1000000 * (s.pdmField 0 0 1 % 4) + 0x20000 * bad 1 + 0x10000 * bad 0)

/-- CKn_RATE: the rate driven, or learned; 0 when off or lost. -/
def State.clockReg (s : State) (k : Nat) : Word :=
  match (s.pdm k).state with
  | .off | .lost => 0
  | _ => w32 (s.clockRate k)

/-- CH_STUCK. -/
def State.stuckReg (s : State) : Word := w32 (maskOf ((List.range 16).map fun i => (s.mic i).stuck))

/-- GRP_STATUS. -/
def State.grpStatus (s : State) (g : Nat) : Word :=
  let r := s.groupRec g
  let on := groupFlag r 0
  w32 (0x80000000 * b2n on + 0x40000000 * b2n (s.heldDown (.audio g) || 0 < (s.group g).stopLeft) +
    0x20000000 * b2n (on && groupFlag r 1 && s.audioSends) + 0x10000000 * b2n (on && groupFlag r 3) +
    0x4000000 * (le r 1 1 % 4) + 0x10000 * (s.group g).maskGen + s.slotMask g)

/-- A read of PEAK_Ann clears it. -/
def State.peakRead (s : State) (i : Nat) : State :=
  let v := (s.mic i).peak
  (s.modMic i fun m => { m with peak := 0 }).answer (w32 v)

end Sys2Proof.Machine
end

