-- ==== Sys2Proof/Machine/Check.lean ====
section
/-!
DEFINITION. The commands of the check-value units (R333 to R336).
-/

namespace Sys2Proof.Machine

/-- Width in bytes of an algorithm's check value (Table 14-6). -/
def checkWidth (alg : Nat) : Nat := if alg = 2 then 2 else 4

/-- The check value of an algorithm of Table 14-6. -/
def checkValue (alg : Nat) (p : List Byte) : Nat :=
  match alg with
  | 0 => crc32c p
  | 1 => crc32 p
  | _ => crc16 p

/-- A number in the channel's ORDER: least significant byte first with ORDER 0. -/
def orderBytes (order : Bool) (n v : Nat) : List Byte := if order then beBytes n v else leBytes n v

/-- The number that bytes in the channel's ORDER spell. -/
def orderValue (order : Bool) (p : List Byte) : Nat := if order then be p 0 p.length else le p 0 p.length

/-- The agent may write the channel; a channel that is off ignores every write, and another agent's write is counted
(R333, R337). -/
def State.checkOwned (s : State) (g : Agent) (n : Nat) : Bool := agentNo g == (s.check n).owner

/-- What END makes of an open channel in append mode (R335). -/
def CheckChannel.closeAppend (c : CheckChannel) : CheckChannel :=
  let m := c.fed ++ orderBytes c.order 2 c.counter
  { c with state := .done, verdict := 0, result := checkValue c.alg m, shown := c.counter, counter := (c.counter + 1) % 65536 }

/-- Verdict of a message in check-and-strip mode (R336): 1 PASS, 2 CRC_FAIL, 3 ALIVE_FAIL, 4 SHORT; with the computed check
value and the received alive counter. -/
def CheckChannel.judge (c : CheckChannel) : Nat × Nat × Nat :=
  let w := checkWidth c.alg
  let n := c.fed.length
  if n < 2 + w then (4, c.result, c.shown)
  else
    let covered := c.fed.take (n - w)
    let crc := checkValue c.alg covered
    let a := orderValue c.order ((c.fed.drop (n - w - 2)).take 2)
    if crc ≠ orderValue c.order (c.fed.drop (n - w)) then (2, crc, a)
    else match c.last with
      | none => (1, crc, a)
      | some l =>
        let d := (a + 65536 - l) % 65536
        if d = 0 ∨ c.window < d then (3, crc, a) else (1, crc, a)

/-- What END makes of an open channel in check-and-strip mode. -/
def CheckChannel.closeStrip (c : CheckChannel) : CheckChannel :=
  let (v, crc, a) := c.judge
  { c with state := .done, verdict := v, result := crc, shown := a, last := if v = 1 then some a else c.last }

/-- CHK_START (R334): opens a message and discards an open one. -/
def execChkStart (agent : Agent) (channel : Fin 16) (s : State) : Out :=
  let n := channel.val
  if !s.running || (s.check n).mode == 0 then .next s
  else if !s.checkOwned agent n then .next (s.count (R.chk_CHK_ERRORS n))
  else .next (s.modCheck n fun c => { c with state := .opened, fed := [], verdict := 0 })

/-- CHK_DATA (R334): 1, 2 or 4 bytes in the channel's ORDER, one byte per cycle. -/
def execChkData (agent : Agent) (channel : Fin 16) (size : Fin 3) (value : Word) (s : State) : Out :=
  let n := channel.val
  if !s.running || (s.check n).mode == 0 then .next s
  else if !s.checkOwned agent n || (s.check n).state != .opened then .next (s.count (R.chk_CHK_ERRORS n))
  else
    let k := 2 ^ size.val
    .next (s.modCheck n fun c =>
      { c with fed := c.fed ++ orderBytes c.order k value.toNat, busyTo := max c.busyTo s.now + k })

/-- CHK_END (R334 to R336): closes the message; in check-and-strip mode every verdict counts one event, and one other than
PASS is counted and logged at most once per second. -/
def execChkEnd (agent : Agent) (channel : Fin 16) (s : State) : Out :=
  let n := channel.val
  let c := s.check n
  if !s.running || c.mode == 0 then .next s
  else if !s.checkOwned agent n || c.state != .opened then .next (s.count (R.chk_CHK_ERRORS n))
  else
    let s := s.count (R.chk_CHK_MSGS n)
    if c.mode = 1 then .next (s.setCheck n c.closeAppend)
    else
      let d := c.closeStrip
      let s := (s.setCheck n d).irqCount (247 + n)
      if d.verdict = 1 then .next s
      else .next ((s.count (R.chk_CHK_FAILS n)).logRated F.CHK_FAIL n (R.chk n) 0
        (fun _ => leBytes 1 n ++ leBytes 1 d.verdict ++ leBytes 2 d.shown) false)

/-- A CHECK_PLAN record takes effect: the counter starts at SEED and the first good message is accepted (R335, R336). A
channel without a record is off. -/
def State.installCheckPlan (s : State) (p : List Byte) : State :=
  (List.range 16).foldl (fun s n =>
    let o := 8 * n
    s.modCheck n fun c =>
      { c with mode := le p o 1, alg := le p (o + 1) 1, order := bit (le p (o + 2) 1) 0, owner := le p (o + 3) 1,
               window := le p (o + 4) 2, seed := le p (o + 6) 2, counter := le p (o + 6) 2, shown := le p (o + 6) 2,
               last := none, state := .idle, fed := [], verdict := 0 }) s

/-- CHK_CFG. -/
def chkCfg (c : CheckChannel) : Word := w32 (65536 * c.owner + 32768 * b2n c.order + 4096 * c.alg + 1024 * c.mode)

/-- CHK_STATUS: a read is held until the verdict is ready, so FINISHING is never read. -/
def chkStatus (c : CheckChannel) : Word :=
  w32 ((match c.state with | .idle => 0 | .opened => 1 | .finishing => 2 | .done => 3) * 0x40000000 + 0x8000000 * c.verdict)

end Sys2Proof.Machine
end

