-- ==== Sys2Proof/Machine/Coder.lean ====
section
/-!
DEFINITION. Channel coders (R160 to R191): the stripe FIFO and the lanes, selection, verdicts and deadlines, frames and
sections of a channel, signatures, and the coder and egress registers.
-/

namespace Sys2Proof.Machine

/-! ## The stripe FIFO and the lanes (R160 to R162) -/

/-- The coder that the depacketiser feeds: the previous holder until line T of a pending grant is reached (R193, R196). -/
def State.feedCoder (s : State) (c : Nat) : Option Nat := if (s.rind c).pending then (s.rind c).prev else (s.rind c).coder

/-- Units of a job that its lane has taken: one per cycle while there are any (R160). -/
def Job.took (j : Job) (now : Nat) : Nat :=
  if j.takenAt.isSome then min j.source.length (j.taken + (now - j.tookAt)) else 0

/-- Units of a job still in the stripe FIFO. -/
def Job.inFifo (j : Job) (now : Nat) : Nat := j.source.length - j.took now

/-- Fill of the stripe FIFO of a coder. -/
def State.fifoFill (s : State) (c k : Nat) : Nat :=
  (((s.chan c).jobs.filter fun j => j.coder == k).map fun j => j.inFifo s.now).sum

/-- The lane still takes units of the job. -/
def Job.holdsLane (j : Job) (now : Nat) : Bool := j.lane.isSome && !(j.done && j.takenAt.isSome && j.inFifo now == 0)

/-- When a lane of a coder became free: when it took the last unit of the curds dealt to it. -/
def State.laneFreeAt (s : State) (c k l : Nat) : Nat :=
  (((s.chan c).jobs.filter fun i => i.coder == k && i.lane == some l).map fun i => i.tookAt + (i.source.length - i.taken)).foldl max 0

/-- The free lane that became free first, among equals the lowest-numbered (R161). -/
def State.firstFree (s : State) (c k : Nat) : Option Nat :=
  let busy := (s.chan c).jobs.filter fun i => i.coder == k && i.holdsLane s.now
  ((List.range 4).filter fun l => !(busy.any fun i => i.lane == some l)).foldl (fun b l => match b with
    | none => some l
    | some m => if s.laneFreeAt c k l < s.laneFreeAt c k m then some l else b) none

/-- Curds that wait are dealt: while lanes have been free, to the lowest-numbered; a curd that had to wait goes to the lane that became
free first (R161). -/
def State.deal (s : State) (c : Nat) (waited : Bool) : State :=
  (s.chan c).jobs.foldl (fun s j =>
    if j.lane.isSome || j.source.isEmpty then s
    else
      let busy := (s.chan c).jobs.filter fun i => i.coder == j.coder && i.holdsLane s.now
      let free := if waited then s.firstFree c j.coder else (List.range 4).find? fun l => !(busy.any fun i => i.lane == some l)
      match free with
      | some l => s.modJob c j fun i => { i with lane := some l }
      | none => s) s

/-- One more for the CURD voids that a LANE_OVERRUN entry reports. -/
def State.bumpRate (s : State) (cls inst : Nat) : State :=
  let n := match s.rate cls inst with | some r => r.count + 1 | none => 1
  let rest := s.ledger.rates.filter fun r => !(r.cls == cls && r.inst == inst)
  { s with ledger := { s.ledger with rates := ⟨cls, inst, s.now, n⟩ :: rest } }

/-- A unit arrives at a full stripe FIFO (R162). -/
def State.overrun (s : State) (c k stripe i : Nat) (first : Bool) : State :=
  let e := s.egOf c
  let s := (s.count (R.cc_CC_OVERRUN e c)).event (R.cc_CC_EVENTS e c) 4
  let s := s.event (R.coder_EVENTS k) 2
  let s := if first then s.bumpRate F.LANE_OVERRUN.code (64 + c) else s
  let voids := match s.rate F.LANE_OVERRUN.code (64 + c) with | some r => r.count | none => 0
  let was := s.ledger.outbox.length
  let s := s.logRated F.LANE_OVERRUN c (R.coder k) (s.chanDp c 5 stripe i) (fun n => leBytes 4 n ++ leBytes 4 voids)
  if was < s.ledger.outbox.length then
    { s with ledger := { s.ledger with rates := s.ledger.rates.filter fun r => !(r.cls == F.LANE_OVERRUN.code && r.inst == 64 + c) } }
  else s

/-- The job of a position, created when its first unit arrives or when it is closed without one. -/
def State.ensureJob (s : State) (c frame line stripe k : Nat) : State :=
  if (s.chan c).jobs.any fun j => j.at frame line stripe k then s
  else match s.feedCoder c with
    | none => s
    | some t => s.modChan c fun x => { x with jobs := x.jobs ++
        [{ frame := frame, line := line, stripe := stripe, k := k, units := (s.chanGeom c).units stripe k, lastAt := s.now,
           lastStamp := s.stamp, coder := t }] }

/-- A unit of a curd enters the stripe FIFO, or is discarded by a full one. -/
def State.feedUnit (s : State) (c frame line stripe k u : Nat) (unit : List Int) : State :=
  let s := s.ensureJob c frame line stripe k
  match (s.chan c).jobs.find? fun j => j.at frame line stripe k with
  | none => s
  | some j =>
    if j.resolved then s
    else
      let fill := s.fifoFill c j.coder
      let full := 8192 ≤ fill
      let s := if full then s.overrun c j.coder stripe k (!j.lacks)
        else s.modCoder j.coder fun x => { x with fifoPeak := max x.fifoPeak (fill + 1) }
      s.modJob c j fun i => { i with
        source := if full then i.source else unit :: i.source
        taken := i.took s.now, tookAt := s.now
        lacks := i.lacks || full || i.source.length != u
        done := u + 1 == i.units, lastAt := s.now, lastStamp := s.stamp }

/-- A curd that lacks a unit is closed: it is coded as a VOID curd (R121). -/
def State.closeCurd (s : State) (c frame line stripe k : Nat) : State :=
  let s := s.ensureJob c frame line stripe k
  match (s.chan c).jobs.find? fun j => j.at frame line stripe k with
  | none => s
  | some j => if j.done then s else s.modJob c j fun i => { i with lacks := true, done := true, closedAt := some (s.now, s.stamp) }

/-! ## A takeover reaches line T (R193, R199 to R202) -/

/-- A line record, a frame record or an entry is not usable (R201): cause 1 HEADER, 2 CLAIM, 3 ENTRY, 4 ECC. -/
def State.mirrorBad (s : State) (c line cause : Nat) : State :=
  let s := ((s.count (R.rind_MIRROR_BADS c)).event (R.rind_EVENTS c) 4).event R.brine_EVENTS 2
  s.logOut F.MIRROR_BAD (R.rind c) (s.chanDp c 3 0 0) [(.channel c, 7)] (leBytes 2 line ++ leBytes 1 cause)

/-- The press state that the new holder takes (R202). -/
def State.takePress (s : State) (c : Nat) (q : List Nat) (d : Nat) : State :=
  let s := s.modChan c fun x => { x with qNext := [], bank := d }
  (List.range 256).foldl (fun s i => s.setQ c i (q.getD i 0)) s

/-- The press of a channel without a usable record: q_next in the middle, no bank (R202). -/
def State.pressAnew (s : State) (c : Nat) : State := s.modChan c fun y => { y with qNext := [], bank := 0 }

/-- Line T restarts as a row, since the record of line T - 1 is not usable (R201): cause 1 HEADER, 2 CLAIM. -/
def State.restartWhole (s : State) (c line cause : Nat) : State :=
  (((s.modRind c fun x => { x with restartRow := true }).pressAnew c).mirrorBad c line cause)

/-- The new holder takes its press state at line T (R201, R202). -/
def State.takeState (s : State) (c frame line : Nat) : State :=
  let x := s.rind c
  if line = 0 then
    match x.frameRec with
    | some r => if r.headOk ∧ r.claim = x.revoked ∧ (r.frame + 1) % 2 ^ 32 = frame then s.takePress c r.qNext r.d else s.pressAnew c
    | none => s.pressAnew c
  else
    match s.lineRecord c frame (line - 1) with
    | some r =>
      if !r.headOk then s.restartWhole c (line - 1) 1
      else if r.claim ≠ x.revoked then s.restartWhole c (line - 1) 2
      else
        let good := r.entries.filter (·.ok)
        s.takePress c (good.foldl (fun q e => q.set e.column e.qNext) r.qNext) ((good.getLast?.map fun e => e.dAfter).getD r.d)
    | none => s.restartWhole c (line - 1) 1

/-- The first unit of a line reaches the depacketiser: line T of a pending grant when it is not too early. -/
def State.reachLine (s : State) (c frame line : Nat) : State :=
  let x := s.rind c
  if !x.pending || s.now < x.notBefore then s
  else
    let s := s.modRind c fun x => { x with pending := false, takeLine := line, takeFrame := frame, restartRow := false }
    let s := s.takeState c frame line
    let s :=
      if x.announce then
        let y := s.rind c
        (s.modRind c fun z => { z with announce := false }).logOut F.TAKEOVER (R.rind c) (s.chanDp c 3 0 0) [(.channel c, 7)]
          (leBytes 1 (x.prev.getD 0x3F) ++ leBytes 1 (x.coder.getD 0x3F) ++ leBytes 2 y.claim ++ leBytes 4 frame ++ leBytes 2 line ++
            leBytes 1 (b2n y.restartRow))
      else s
    let before := match s.frameOf c frame with
      | some f => line == 0 || f.closed.contains (line - 1)
      | none => true
    if (s.rind c).handing && before && (line != 0 || !((s.chan c).frames.any fun f => newer32 frame f.number)) then s.handedOver c
    else s

/-! ## Frames (R136, R165, R187, R188) -/

/-- A change to a channel's sections takes effect (R165). -/
def State.applySections (s : State) (c : Nat) : State :=
  let p := s.payload 0x0401 4 (0x10 + c)
  let z := s.payload 0x0402 4 (0x10 + c)
  let k := s.payload 0x0403 4 (0x10 + c)
  let x := s.chan c
  let old := x.plan
  let geom := le old 1 2 ≠ le p 1 2 ∨ le old 4 4 ≠ le p 4 4 ∨ le old 12 2 ≠ le p 12 2 ∨ le old 20 8 ≠ le p 20 8
  let qs := geom ∨ le old 15 2 ≠ le p 15 2
  let keyed := x.key ≠ k
  let same := old = p ∧ x.zones = z ∧ ¬keyed
  let s := s.modChan c fun x => { x with
    plan := p, zones := z, key := k, waiting := false, bank := min x.bank (le p 18 2)
    qNext := if qs then [] else x.qNext, noSkip := x.noSkip || decide (geom ∨ keyed), sigs := if same then x.sigs else [] }
  if keyed ∧ ¬old.isEmpty ∧ ¬p.isEmpty then s.logOut F.SKIP_KEY_APPLIED (s.egCtrl c) (s.chanDp c 3 0 0) [(.channel c, 7)] (leBytes 4 (s.chan c).lastFrame)
  else s

/-- A cause 1 to 4 of Table 8-1 stands against a coder of a channel: it is fenced, or the cause waits for the safety pair. -/
def State.coderBlamed (s : State) (c k : Nat) : Bool :=
  (s.coder k).fenced || s.takeovers.any fun t => t.channel == c && t.coder == k && t.cause ≤ 4

/-- The coders of a channel whose ENABLE is clear hold it no longer (R13): one with a cause 1 to 4 is failed, any other becomes a ripe
spare, or ripens after a roll step. -/
def State.releaseCoder (s : State) (c : Nat) : State :=
  let x := s.rind c
  let free (s : State) (k : Option Nat) (cause : Nat) : State := match k with
    | some k => if (s.coder k).channel = some c then s.freeCoder k (if s.coderBlamed c k then 1 else cause) else s
    | none => s
  let s := free (free s x.coder 5) x.prev (if x.handing ∧ x.prevCause ≠ 0 then x.prevCause else 5)
  (s.modRind c fun x => { x with coder := none, prev := none, pending := false, handing := false, waits := none, fenced := false }).spareCheck

/-- A channel is stopped (R188): a channel that has sent a packet ends its frame and sends end-of-validity with REASON 5 for
16 frame periods; any other falls silent at once. -/
def State.stopChannel (s : State) (c : Nat) : State :=
  let x := s.chan c
  if x.sent then
    let s := s.finishFrames c
    ((s.modChan c fun x => { x with state := .off, started := false, jobs := [] }).beginEov c 5 0 (some 16) x.lastClose).releaseCoder c
  else (s.modChan c fun x => { x with state := .off, started := false, eov := none, frames := [], jobs := [] }).releaseCoder c

/-- An enabled channel starts from nothing: D, n and q_next are those of a channel start (R167, R169, R176). -/
def State.enableChannel (s : State) (c : Nat) : State :=
  (s.modChan c fun x => { x with
    state := .enabled, started := false, eov := none, bank := 0, n := 0, qNext := [], sigs := [], codedAt := [], last := [],
    frames := [], jobs := [], noSkip := true }).modChIn c fun y => { y with watchFrom := s.now }

/-- The sections of a channel in the configuration in force take effect now; ENABLE may start or stop the channel. -/
def State.channelSections (s : State) (c : Nat) : State :=
  let was := s.chanOn c
  let present := s.hasSection 0x0401 4 (0x10 + c)
  let on := present && bit (le (s.payload 0x0401 4 (0x10 + c)) 0 1) 0
  if was && !on then
    let s := s.stopChannel c
    if present then s.applySections c
    else s.modChan c fun x => { x with plan := leBytes 1 (le x.plan 0 1 - le x.plan 0 1 % 2) ++ x.plan.drop 1, gone := true, waiting := false }
  else if !present then s
  else
    let s := if (s.chan c).gone || (s.chan c).plan.isEmpty then { s with chans := s.chans.put (fun _ => {}) c {} } else s
    let s := s.applySections c
    if on && !was then s.enableChannel c else s

/-- The channel codes frames now: a change of its sections waits for the next frame start (R165). -/
def State.channelCodes (s : State) (c : Nat) : Bool := (s.chan c).state == .coding

/-- FRAME of the frame that starts with a 64-bit RTP time: newer than that of the channel's previous packet (R136). -/
def State.nextFrame (s : State) (c rtp : Nat) : Nat :=
  let f := frameNumber (extendRtp rtp s.mediaClock) (s.chanField c 8 2) (s.chanField c 10 2)
  let l := (s.chan c).lastFrame
  let f := if (s.chan c).sent && !newer32 f l then (l + 1) % 2 ^ 32 else f
  match (s.chan c).frames.getLast? with
  | some t => if newer32 f t.number then f else (t.number + 1) % 2 ^ 32
  | none => f

/-- A new term has been granted: the claim of the channel carries it from the next frame start on, with g = 0 (R192). -/
def State.renewClaim (s : State) (c : Nat) : State :=
  if (s.rind c).renew then
    s.modRind c fun x => { x with renew := false, g := 0, claim := s.pair.term % 256 * 256 + s.pairField 1 1 }
  else s

/-- The first frame of a channel after a promotion (R210 steps 3 and 5, R212 step 4): press state, n and SEQ come from the frame
record that the peer sent; numbers the peer may have used are named in a gap record on each path. -/
def State.promotedStart (s : State) (c number : Nat) : State :=
  if (s.chan c).startAfter.isNone then s
  else
    let s := s.modChan c fun x => { x with startAfter := none, noSkip := true }
    match s.pair.records.get (fun _ => none) c with
    | none => s.modChan c fun x => { x with n := 0, qNext := [], bank := 0, sigs := [], codedAt := [], last := [] }
    | some r =>
      let g := s.chanGeom c
      let pf := g.height * g.positions.length + g.height + 2
      let s := (s.modChan c fun x => { x with n := (r.n + 1) % 2 ^ 32 }).takePress c r.qNext r.d
      if s.pair.switchH.isSome ∧ (r.frame + 1) % 2 ^ 32 = number then s.modChan c fun x => { x with seq := r.seqNext }
      else
        let seq := (r.seqNext + (number + 2 ^ 32 - r.frame) % 2 ^ 32 * pf) % 2 ^ 32
        let last := (seq + 2 ^ 32 - 1) % 2 ^ 32
        let s := (s.chanPaths c).foldl (fun s b =>
          if (s.port (s.pathPort c b)).state = .up then s.sendGap c b r.seqNext last 2
          else s.modGap c b fun g => g.extend r.seqNext last 2) s
        (s.modChan c fun x => { x with seq := seq }).logOut F.PAIR_GAP R.pair (s.chanDp c 3 0 0) [(.channel c, 7)]
          (leBytes 4 r.seqNext ++ leBytes 4 last)

/-- A promoted channel may start: at least 500 us after the GRANT, or at the switchover stamp (R210, R212). -/
def State.mayStart (s : State) (c : Nat) : Bool :=
  match (s.chan c).startAfter with
  | some t => s.due t && (match s.pair.switchH with | some h => s.reached h | none => true)
  | none => true

/-- The former active module sends only the frames that start before the switchover stamp (R212). -/
def State.handingOver (s : State) : Bool :=
  s.pair.role == .switching && (match s.pair.switchH with | some h => s.pair.switchOk && s.reached h | none => false)

/-- Sections that wait for the channel's next frame start take effect (R165). -/
def State.frameSections (s : State) (c : Nat) : State := if (s.chan c).waiting then s.channelSections c else s

/-- A frame of the channel starts at the depacketiser: the channel codes it when it is enabled, sends, is not held and a coder
holds its claim (R187). -/
def State.startFrame (s : State) (c number rtp : Nat) : State :=
  let x := s.chan c
  let ready := s.chanOn c && s.startup.gateOpen && s.sends && (x.state == .coding || x.state == .enabled) &&
    s.mayStart c && !s.handingOver
  if !ready then s
  else
    let s := ((s.renewClaim c).reachLine c number 0).promotedStart c number
    match s.feedCoder c with
    | none => s
    | some k =>
      let x := s.chan c
      let before := match x.frames.getLast? with | some t => some t.number | none => x.lastClose
      let noSkip := x.noSkip || (match before with | some b => (b + 1) % 2 ^ 32 != number | none => true)
      let n := match x.frames.getLast? with | some t => (t.n + 1) % 2 ^ 32 | none => x.n
      let s := s.modChan c fun x => { x with
        state := .coding, started := true, noSkip := false, startAfter := none,
        sigs := if noSkip then [] else x.sigs
        frames := x.frames ++ [{ number := number, rtp := rtp, startStamp := s.stamp, n := n, noSkip := noSkip,
                                  secs := ⟨x.plan, x.zones, x.key⟩ }] }
      if x.started then s
      else
        let e := s.egOf c
        (s.event (R.cc_CC_EVENTS e c) 8).logOut F.CHANNEL_START (R.eg e) (s.chanDp c 3 0 0) [(.channel c, 7)] (leBytes 4 number ++ leBytes 1 k)

/-- The frame in progress has ended or been interrupted. -/
def State.endFrame (s : State) (c number : Nat) : State :=
  ((s.modFrame c number fun f => { f with ended := some (f.ended.getD s.stamp) }).settle c).closeFrame c

/-! ## Lanes (R161, R167 to R169, R174) -/

/-- The rind has reached line T of a takeover and the job is a curd of it on the new holder, with the record of line T - 1 in the brine
store or a restart row (R201). -/
def State.atTakeover (s : State) (c : Nat) (j : Job) : Bool :=
  let x := s.rind c
  !x.pending && x.takeFrame == j.frame && x.takeLine == j.line && j.line != 0 && x.coder == some j.coder &&
  (x.restartRow || (s.lineRecord c j.frame (j.line - 1)).isSome)

/-- Reading the brine store counts its errors (R215); a header that cannot be trusted when line T begins makes line T a restart row
(R201). -/
def State.readBrine (s : State) (c : Nat) (j : Job) (b : BrineRead) : State :=
  match b with
  | .good => s
  | .corrected => s.count R.brine_ECC_CORR
  | .header =>
    if (s.rind c).restartRow || (s.chan c).jobs.any (fun i => i.frame == j.frame && i.line == j.line && i.takenAt.isSome) then s
    else s.restartWhole c (j.line - 1) 1
  | .entryCrc => s.mirrorBad c (j.line - 1) 3
  | .entryEcc => (s.count R.brine_ECC_UNCORR).mirrorBad c (j.line - 1) 4

/-- The reconstruction above a curd of line T: that of the column's entry, when it is good and not VOID (R201). -/
def State.entryAbove (s : State) (c : Nat) (j : Job) (b : BrineRead) : Option (List (List Int)) :=
  let e := (s.lineRecord c j.frame (j.line - 1)).bind fun r => r.entries.find? fun e => e.column == columnOf j.stripe j.k
  match e with
  | some e => if e.void || !e.ok || b == .entryCrc || b == .entryEcc then none else some e.recon
  | none => none

/-- LANE_TAKE_CURD (R161, R145, R201): a lane takes the first unit of the curd dealt to it, when it is coded with RESTART or the
curd above is resolved, and knows which above line applies. `take.brine` is what reading the entry above meets at line T of a takeover. -/
def execLaneTakeCurd (channel : Fin 48) (take : LaneTake) (s : State) : Out :=
  let c := channel.val
  let s := s.deal c true
  match (s.chan c).jobs.find? fun j => j.lane == some take.lane.val && j.takenAt.isNone && !j.source.isEmpty with
  | none => .next s
  | some j =>
    let pos := restartPos ((s.underPlan c j.frame).chanV c) j.line j.k
    let above := s.aboveDone c j
    let col := columnOf j.stripe j.k
    let atT := s.atTakeover c j
    let reads := atT && !pos && !(s.rind c).restartRow &&
      (s.lineRecord c j.frame (j.line - 1)).any fun r => r.entries.any fun e => e.column == col
    if !pos && !(atT && (s.rind c).restartRow) && above.isNone then .next s
    else
      let s := if reads then s.readBrine c j take.brine else s
      let row := atT && (s.rind c).restartRow
      let stored := (s.coder j.coder).store.get (fun _ => (0, 0, [])) col
      let up : Option (List (List Int)) :=
        if pos || row then none
        else if atT then s.entryAbove c j take.brine
        else if above = some 1 ∧ stored.1 = j.frame ∧ stored.2.1 + 1 = j.line then some stored.2.2
        else none
      let s := match up with
        | some r => if atT then
            (s.storeColumn j.coder col j.frame (j.line - 1) r).modCoder j.coder fun y => { y with verify := y.verify.put (fun _ => (0, 0, [])) col (j.frame, j.line - 1, r) }
          else s
        | none => s
      .next (s.modJob c j fun i => { i with
        takenAt := some s.now, tookAt := s.now, restart := up.isNone, above := up, qb := s.qNextOf c col,
        blocked := row || above == some 2 || (reads && (take.brine == .entryCrc || take.brine == .entryEcc)) })

/-- The curd may be skipped (R146, R174, R176). At a restart position the curd above must be resolved, so that it is known not to be
VOID (condition 5); otherwise the curd is coded. -/
def State.maySkip (s : State) (c : Nat) (j : Job) (sig : Nat) : Bool :=
  let v := s.chanV c
  let r := s.chanR c
  let pos := (s.chanGeom c).position j.line j.stripe j.k
  let above := s.aboveDone c j
  let pass := if restartPos v j.line j.k then j.line == 0 || above.isSome
    else above == some 0 || (s.chan c).jobs.any fun i => i.at j.frame (j.line - 1) j.stripe j.k && i.fate == some .skip
  let coded := (s.chan c).codedAt.get (fun _ => (0, false)) pos
  let stored := (s.chan c).sigs.get (fun _ => ⟨0, false⟩) pos
  match s.frameOf c j.frame with
  | none => false
  | some f =>
    s.chanSkip c && !f.noSkip && j.fate.isNone && !j.blocked && above != some 2 && !refreshDue v r f.n j.line j.stripe j.k &&
    stored.valid && stored.value == sig && pass && coded.1 != 0 && !coded.2 && (f.n + 1 + 2 ^ 32 - coded.1) % 2 ^ 32 < r && f.n + 1 != coded.1

/-- The press chooses the winner of a curd, or the curd is skipped (R167 to R169, R173, R174). -/
def State.selectCurd (s : State) (c : Nat) (j : Job) : State :=
  let k := j.coder
  let a := s.pressPlan c
  let col := columnOf j.stripe j.k
  let pos := a.geom.position j.line j.stripe j.k
  let source := j.source.reverse
  let sig := if s.chanSkip c then s.signature c source else 0
  let skip := s.maySkip c j sig
  let s := if s.chanSkip c then s.modChan c fun x => { x with sigs := x.sigs.put (fun _ => ⟨0, false⟩) pos ⟨sig, true⟩ } else s
  let s := (s.countBy (R.coder_UNITS k) j.units).count (R.coder_CURDS k)
  let q := s.qNextOf c col
  if skip then (s.charge c j 0 q).modJob c j fun i => { i with fate := some .skip }
  else
    let allow := a.allowance j.line j.stripe j.k (s.chan c).bank
    let cs := a.candidates j.line j.stripe j.k j.qb j.restart j.above source
    match chooseWinner (curdBound a.geom.fmt j.units) allow cs with
    | none => s
    | some w =>
      let q := if w.zone then q else nextQ (s.chanQmin c) (s.chanQmax c) j.qb allow w
      let s := (s.charge c j (30 + w.payload.length) q).setQ c col q
      let s := (s.modJob c j fun i => { i with winner := some w }).storeColumn k col j.frame j.line w.recon
      let s := if w.floor then s.count (R.cc_CC_FLOOR (s.egOf c) c) else s
      s.modChan c fun x => { x with
        qLast := w.q, qbLast := j.qb, qCount := x.qCount.put (fun _ => 0) w.q (min 0xFFFFFFFF (x.qCount.get (fun _ => 0) w.q + 1)) }

/-- CURD_SELECT (R167 to R169, R173, R174): a coder tail completes in a lane once the lane has taken the whole curd. -/
def execCurdSelect (channel : Fin 48) (lane : Fin 4) (s : State) : Out :=
  let c := channel.val
  match (s.chan c).jobs.find? fun j => j.lane == some lane.val && j.takenAt.isSome && j.selectedAt.isNone with
  | none => .next s
  | some j =>
    if !j.done || j.lacks || !s.aboveSelected c j || j.took s.now < j.units then .next (s.settle c)
    else .next (((s.under c j.frame fun s => s.selectCurd c j).settle c).dropJobs c)

/-! ## Verdicts and deadlines (R177 to R179) -/

/-- SUSPECT_LIMIT of a coder tile; 2 without the section (Table 7-8). -/
def State.suspectLimit (s : State) (k : Nat) : Nat :=
  let t := coderTile k
  if s.hasSection 0x0404 t.1 t.2 then le (s.payload 0x0404 t.1 t.2) 2 1 else 2

/-- A cause of Table 8-1 waits for the safety pair. -/
def State.takeoverCause (s : State) (c k cause : Nat) (target : Option Nat := none) : State :=
  if s.takeovers.any fun t => t.channel == c && t.coder == k && t.cause == cause then s
  else { s with takeovers := s.takeovers ++ [{ channel := c, coder := k, cause := cause, target := target, since := s.now }] }

/-- CODER_SUSPECT is reported to the safety pair (R179): cause 1 VERIFY, 2 CANDIDATE_CHECK, 3 STORE_CHECK. -/
def State.coderSuspect (s : State) (c k fails cause : Nat) : State :=
  let s := (s.event (R.coder_EVENTS k) 4).logOut F.CODER_SUSPECT (R.coder k) (s.chanDp c 3 0 0) [(.channel c, 7)]
    (leBytes 1 k ++ leBytes 4 fails ++ leBytes 1 cause)
  s.takeoverCause c k 4

/-- Verification failures of a coder within the last 64 frames that its channel coded, the present one being n (R179). -/
def recentFails (l : List Nat) (n : Nat) : List Nat := l.filter fun m => (n + 2 ^ 32 - m) % 2 ^ 32 < 64

/-- The coded-frame number of a channel now: that of its newest open frame, or of the next one. -/
def State.codedNow (s : State) (c : Nat) : Nat := match (s.chan c).frames.getLast? with | some f => f.n | none => (s.chan c).n

/-- A curd fails verification (R177 to R179). -/
def State.mismatch (s : State) (c : Nat) (j : Job) (check : Nat) : State :=
  let e := s.egOf c
  let k := j.coder
  let q := match j.winner with | some w => w.q | none => 0
  let s := (((s.count (R.cc_CC_MISMATCH e c)).count (R.coder_MISMATCH k)).event (R.coder_EVENTS k) 1).event (R.cc_CC_EVENTS e c) 1
  let s := s.logData F.VERIFY_MISMATCH (R.coder k) (s.chanDp c 5 j.stripe j.k) (leBytes 2 j.line ++ leBytes 1 q ++ leBytes 1 check)
  let n := match s.frameOf c j.frame with | some f => f.n | none => (s.chan c).n
  let fails := n :: recentFails (s.coder k).fails n
  if s.suspectLimit k ≤ fails.length then
    (s.modCoder k fun x => { x with fails := [] }).coderSuspect c k fails.length 1
  else s.modCoder k fun x => { x with fails := fails }

/-- The raster stamp of a curd's verdict deadline (R178). -/
def State.deadlineStamp (s : State) (j : Job) : Stamp := j.lastStamp + BitVec.ofNat 64 (ticksUp s.mode 530)

/-- The deadline of a curd has passed without a verdict: BACKLOG, or FENCE_VOID for a coder that is not admitted. -/
def State.missDeadline (s : State) (c : Nat) (j : Job) : State :=
  if s.admitted j then
    let e := s.egOf c
    ((s.count (R.cc_CC_LATE e c)).event (R.cc_CC_EVENTS e c) 2).modJob c j fun i => { i with fate := some .late, owed := true }
  else s.modJob c j fun i => { i with fate := some .fence }

/-- Every curd of a column without a verdict `after` ns after its last source pixel. -/
def State.columnDeadlines (s : State) (c stripe k : Nat) (after : Nat) : State :=
  let late := (s.chan c).jobs.filter fun j =>
    j.stripe == stripe && j.k == k && j.done && !j.resolved && s.due (j.lastAt + after) && (j.fate.isNone || !s.admitted j) &&
    j.fate != some .fence && j.fate != some .late
  (late.foldl (fun s j => s.missDeadline c j) s).settle c

/-- VERDICT (R177, R178): the verify verdict of the oldest selected curd of a column reaches the rind. `injected` is a check
that the hardware of the coder makes fail. -/
def execVerdict (channel : Fin 48) (stripe : Fin 4) (k : Nat) (injected : Option (Fin 4)) (s : State) : Out :=
  let c := channel.val
  let s := s.columnDeadlines c stripe.val k 531
  match (s.chan c).jobs.find? fun j =>
      j.stripe == stripe.val && j.k == k && j.winner.isSome && (j.fate.isNone || (j.fate == some .late && j.owed)) with
  | none => .next s
  | some j =>
    match j.winner with
    | none => .next s
    | some w =>
      let (g, v) := ((s.underPlan c j.frame).chanGeom c, (s.underPlan c j.frame).chanV c)
      let col := columnOf j.stripe j.k
      let stored := (s.coder j.coder).verify.get (fun _ => (0, 0, [])) col
      let above := if j.restart then none else some stored.2.2
      let head : CurdHead := { line := j.line, stripe := j.stripe, index := j.k, q := w.q, restart := w.restart, floor := w.floor,
                               zone := w.zone, length := w.payload.length }
      let failed := match injected with
        | some x => some (x.val + 1)
        | none => verifyCurd g.fmt v j.units above head w j.source.reverse
      let s := match failed with
        | some x => s.mismatch c j x
        | none => s.modCoder j.coder fun y => { y with verify := y.verify.put (fun _ => (0, 0, [])) col (j.frame, j.line, w.recon) }
      if j.fate.isNone then
        .next ((s.modJob c j fun i => { i with fate := some (match failed with | some x => .fail x | none => .pass) }).settle c)
      else
        let s := s.curdLate c j 1 (s.now - (j.lastAt + 530)) (s.deadlineStamp j)
        .next ((s.modJob c j fun i => { i with owed := false }).dropJobs c)

/-- VERDICT_DEADLINE (R178, R193): STAMP + 530 ns of a curd passes. -/
def execVerdictDeadline (channel : Fin 48) (stripe : Fin 4) (k : Nat) (s : State) : Out :=
  .next (s.columnDeadlines channel.val stripe.val k 530)

/-- CURD_LATE_HANDOVER (R178): 1 us after its deadline the entry of a curd still without a verdict goes to the ledger. -/
def execCurdLateHandover (channel : Fin 48) (stripe : Fin 4) (k : Nat) (s : State) : Out :=
  let c := channel.val
  match (s.chan c).jobs.find? fun j => j.stripe == stripe.val && j.k == k && j.owed && s.due (j.lastAt + 1530) with
  | none => .next s
  | some j =>
    .next (((s.curdLate c j 1 0xFFFFFFFF (s.deadlineStamp j)).modJob c j fun i => { i with owed := false }).dropJobs c)

/-- PACKED_PACKET_TIMEOUT (R182): the packet has been open for 4 us, or holding it longer would make its earliest record late. -/
def execPackedPacketTimeout (channel : Fin 48) (s : State) : Out :=
  let c := channel.val
  match (s.chan c).packet with
  | some p => if s.due (p.openedAt + us 4) || s.packetFull c p then .next (s.under c p.frame fun s => s.closePacket c) else .next s
  | none => .next s

/-- Level of the data-path address of an entry of a channel: level 3 is no level of the wall role (R18). -/
def State.chanLevel (s : State) : Nat := if s.roleNo = 0 then 3 else 2

/-- CHANNEL_EOV_REPEAT (R142, R188): one frame period after the last record. When another cause is shown, the record's STAMP is that of
the change (DEDUCED, log entry 66). -/
def execChannelEovRepeat (channel : Fin 48) (s : State) : Out :=
  let c := channel.val
  match (s.chan c).eov with
  | none => .next s
  | some e =>
    if !s.due (e.lastAt + s.chanPeriod c) || !s.sends then .next s
    else match e.left with
      | none =>
        let r := s.channelReason c
        let e := if r = (7, 0) ∨ r = (e.reason, e.cls) then e
          else { e with reason := r.1, cls := r.2, stamp := s.stamp, media := s.mediaClock }
        .next ((s.modChan c fun x => { x with eov := some e }).sendEov c)
      | some (n + 2) => .next ((s.modChan c fun x => { x with eov := some { e with left := some (n + 1) } }).sendEov c)
      | some _ =>
        let g := s.egOf c
        let s := (s.event (R.cc_CC_EVENTS g c) 16).logOut F.CHANNEL_END (R.eg g) (s.chanDp c s.chanLevel 0 0) [(.channel c, 7)] (leBytes 4 (s.chan c).lastFrame)
        .next (s.modChan c fun x => if x.gone then {} else { x with eov := none })

/-- SIGNATURE_PREFETCH_DONE (R173, R285): the stored signatures of a line that cannot be read are invalid. -/
def execSignaturePrefetchDone (channel : Fin 48) (line : Nat) (readable : Bool) (s : State) : Out :=
  let c := channel.val
  let n := (s.chanGeom c).positions.length
  if readable then .next s
  else .next (s.modChan c fun x => { x with sigs := x.sigs.filter fun e => !(line * n ≤ e.1 && e.1 < (line + 1) * n) })

/-- SIGNATURE_WRITE_TIMEOUT (R285): a signature that was not written is invalid. -/
def execSignatureWriteTimeout (channel : Fin 48) (position : Nat) (s : State) : Out :=
  .next (s.modChan channel.val fun x => { x with sigs := x.sigs.put (fun _ => ⟨0, false⟩) position ⟨0, false⟩ })

/-! ## Registers (Tables 7-10 to 7-13) -/

/-- CODER_STATUS. -/
def State.coderStatus (s : State) (k : Nat) : Word :=
  let x := s.coder k
  let st := match x.state with | .spare => 0 | .ripening => 1 | .ripe => 2 | .holding => 3 | .failed => 4
  let jobs := match x.channel with | some c => (s.chan c).jobs.filter fun (j : Job) => j.coder == k && j.takenAt.isSome && j.selectedAt.isNone | none => []
  let lanes := (List.range 4).foldl (fun v l => if jobs.any fun j => j.lane == some l then v + 2 ^ l else v) 0
  w32 (0x10000000 * st + 0x8000000 * b2n x.plane + 0x10000 * x.channel.getD 0xFF + 0x1000 * lanes)

/-- SELFTEST. -/
def selfTest (x : Coder) : Word := w32 (0x80000000 * b2n x.selfDone + 0x40000000 * b2n x.selfPass + x.selfStage)

/-- CC_STATUS. -/
def State.ccStatus (s : State) (c : Nat) : Word :=
  let x := s.chan c
  let st := match x.state with | .off => 0 | .enabled => 1 | .coding => 2 | .harmless => 3
  w32 (0x40000000 * st + 0x1000000 * (s.feedCoder c).getD 0x3F + 0x100000 * x.qbLast + 0x10000 * x.qLast +
    4 * b2n (s.chanSkip c) + 2 * b2n (s.chanTwoPaths c) + b2n (s.chanPacked c))

/-- EG_STATUS: paths sent from the tile. -/
def State.egStatus (s : State) (e : Nat) : Word :=
  w32 (((List.range 48).map fun c => if s.chanOn c then ((s.chanPorts c).filter fun p => p / 8 == e).length else 0).sum)

/-- Queue sum of R171, condition 2, over the paths that a list of channel plans puts on a port. -/
def queueSum (plans : List (List Byte)) (p : Nat) : Nat :=
  let path (a : List Byte) (off : Nat) : Nat :=
    if le a off 1 = p then
      let plan := pressPlanOf a []
      let big := (plan.geom.positions.map fun e => plan.cmax e.1 e.2).foldl max 0
      250 + big + 40 * (le a (off + 1) 1 % 2)
    else 0
  let live := plans.filter fun a => bit (le a 0 1) 0
  (live.map fun a => path a 40 + (if bit (le a 0 1) 2 then path a 64 else 0)).sum

/-- QBOUND of a port in ns (R171); 0 for a port without curd streams. -/
def State.qBound (s : State) (p : Nat) : Nat :=
  let n := queueSum ((List.range 48).map fun c => (s.chan c).plan) p
  let r := s.portRate p
  if n = 0 then 0 else (8 * (n + 256) + (r - 1)) / r

/-- PA_STATUS. -/
def State.paStatus (s : State) (e c : Nat) : Word :=
  let a := s.chanField c 40 1
  let b := s.chanField c 64 1
  if s.chanOn c && a / 8 == e then w32 (0x80000000 + a)
  else if s.chanOn c && s.chanTwoPaths c && b / 8 == e then w32 (0xC0000000 + b)
  else 0

end Sys2Proof.Machine
end

