-- ==== Sys2Proof/Machine/Gcm.lean ====
section
/-!
DEFINITION. AES-256-GCM as R206 and R342 use it: a key stream, and a tag of 16 bytes over the associated data and the ciphertext. The
stream and the tag themselves are open (log entry 8).
-/

namespace Sys2Proof.Machine

/-- The text under the key stream: it both enciphers and deciphers. -/
def gcmCipher (key nonce text : List Byte) : List Byte := text.zipIdx.map fun e => e.1 ^^^ Config.gcmStream key nonce e.2

/-- The tag of a ciphertext, most significant byte first. -/
def gcmTag (key nonce aad text : List Byte) : List Byte := beBytes 16 (Config.gcmTag key nonce aad text).toNat

/-- Ciphertext and tag of a plaintext. -/
def gcmSeal (key nonce aad plain : List Byte) : List Byte :=
  let text := gcmCipher key nonce plain
  text ++ gcmTag key nonce aad text

/-- The plaintext, when the tag is good. -/
def gcmOpen (key nonce aad sealed : List Byte) : Option (List Byte) :=
  let text := sealed.take (sealed.length - 16)
  if 16 ≤ sealed.length ∧ sealed.drop (sealed.length - 16) = gcmTag key nonce aad text then some (gcmCipher key nonce text) else none

end Sys2Proof.Machine
end

