-- ==== Sys2Proof/Machine/Groups.lean ====
section
/-!
DEFINITION. Multicast groups (R113): what the entries of the flow table make the ports join, and the reports that say so.
-/

namespace Sys2Proof.Machine

/-- A port has the address family. -/
def State.portFamily (s : State) (p addr : Nat) : Bool := bit (s.portField p 0 1) (if isV4 addr then 1 else 2)

/-- What a bank makes the ports join: port, group, source or 0. -/
def State.bankJoins (s : State) (b : Sparse FtEntry) : List (Nat × Nat × Nat) :=
  b.flatMap fun e =>
    if e.2.valid && isMulticast e.2.dst then
      ((List.range 32).filter fun p => bit e.2.ports p && s.portExists p && s.portFamily p e.2.dst).map fun p =>
        (p, e.2.dst, if e.2.srcAny then 0 else e.2.src)
    else []

/-- An IGMPv3 or MLDv2 report leaves a port; under device-safe none does (R392). -/
def State.sendReport (s : State) (p group source : Nat) (join : Bool) : State :=
  if s.ledger.safe then s else s.sendOther p (ipLine (if isV4 group then 40 else 76)) (.report p group source join)

/-- A port joins a group. -/
def State.join (s : State) (x : Nat × Nat × Nat) : State :=
  if (s.port x.1).joined.contains x.2 then s
  else (s.modPort x.1 fun p => { p with joined := p.joined ++ [x.2] }).sendReport x.1 x.2.1 x.2.2 true

/-- A port leaves a group. -/
def State.leave (s : State) (x : Nat × Nat × Nat) : State :=
  if (s.port x.1).joined.contains x.2 then
    (s.modPort x.1 fun p => { p with joined := p.joined.filter fun j => j != x.2 }).sendReport x.1 x.2.1 x.2.2 false
  else s

/-- Every group that the active bank needs is joined. -/
def State.joinBank (s : State) (b : Sparse FtEntry) : State := (s.bankJoins b).foldl (fun s x => s.join x) s

/-- Groups joined that neither the active bank nor a rebuilt shadow bank needs are left. -/
def State.leaveUnneeded (s : State) : State :=
  let need := s.bankJoins (s.ft.bankOf s.ft.active) ++
    (if s.ft.rebuilt.isSome then s.bankJoins (s.ft.bankOf (!s.ft.active)) else [])
  (List.range 32).foldl (fun s p =>
    (s.port p).joined.foldl (fun s j => if need.contains (p, j) then s else s.leave (p, j)) s) s

/-- A port that has become UP reports every group that the flow table makes it join: none of its reports has left while it was not
(R113; DESIGN CHOICE, log 70). -/
def State.rejoinPort (s : State) (p : Nat) : State :=
  let s := s.modPort p fun x => { x with joined := [] }
  ((s.bankJoins (s.ft.bankOf s.ft.active) ++
    (if s.ft.rebuilt.isSome then s.bankJoins (s.ft.bankOf (!s.ft.active)) else [])).filter fun x => x.1 == p).foldl (fun s x => s.join x) s

end Sys2Proof.Machine
end

