-- ==== Sys2Proof/Machine/Cores.lean ====
section
/-!
DEFINITION. The tending cores and the safety pair (R320 to R324), and the firmware banks of all processors (R79, R80).
-/

namespace Sys2Proof.Machine

/-- Processors 0 to 3 are TC0 to TC3, 4 is the safety pair. -/
def State.proc (s : State) (n : Nat) : Processor := if n = 4 then s.cores.sp else s.tc n

/-- Change a processor. -/
def State.modProc (s : State) (n : Nat) (f : Processor → Processor) : State :=
  if n = 4 then { s with cores := { s.cores with sp := f s.cores.sp } } else s.modTc n f

/-- Control address of a processor's block. -/
def procBlock (n : Nat) : Nat := if n = 4 then R.sp else R.core n

/-- The firmware banks of a processor kind: 0 the tending cores, 1 the safety pair, 2 the hull controller. -/
def State.fw (s : State) (k : Nat) : FwBank :=
  match k with
  | 0 => s.im.fwTc
  | 1 => s.im.fwSp
  | _ => s.im.fwHull

/-- Change them. -/
def State.modFw (s : State) (k : Nat) (f : FwBank → FwBank) : State :=
  match k with
  | 0 => { s with im := { s.im with fwTc := f s.im.fwTc } }
  | 1 => { s with im := { s.im with fwSp := f s.im.fwSp } }
  | _ => { s with im := { s.im with fwHull := f s.im.fwHull } }

/-- ALIVE limit of Table 3-11. -/
def aliveLimit (k : Nat) : Nat := if k = 1 then ms 500 else sec 2

/-- WDT_MS of the firmware that a processor runs (Table 14-7). -/
def State.wdtMs (s : State) (n : Nat) : Nat := le (s.fw (if n = 4 then 1 else 0)).running 2 2

/-- A processor restarts from its active bank: ALIVE clears, and what was in service for it is counted again (R323, R329). -/
def State.restart (s : State) (n : Nat) : State :=
  (s.modProc n fun p => { p with state := .restarting, alive := false, halted := false, kickedAt := s.now }).leaveService n

/-- The safety pair restarted at this moment; a second mismatch or a third restart within 60 s enters device-safe with
SP_RESTARTS (R324). -/
def State.spRestarted (s : State) (mismatch : Bool) : State :=
  let recent (l : List Nat) := l.filter fun t => decide (s.now < t + sec 60)
  let rs := s.now :: recent s.cores.spRestarts
  let ms := if mismatch then s.now :: recent s.cores.spMismatch else recent s.cores.spMismatch
  let s : State := { s with cores := { s.cores with spRestarts := rs, spMismatch := ms } }
  let s := (s.count R.sp_SP_RESTARTS).event R.sp_EVENTS 1
  if (mismatch && decide (2 ≤ ms.length)) || decide (3 ≤ rs.length) then
    s.log F.SP_RESTARTS R.sp (leBytes 1 rs.length ++ leBytes 1 ms.length)
  else s

/-- CODE_FETCH_ERROR (R321): the processor halts; the hub sees it as RESTARTING. -/
def execCodeFetchError (processor : Fin 5) (s : State) : Out :=
  let n := processor.val
  if !s.running then .next s
  else
    let bank := (s.fw (if n = 4 then 1 else 0)).bank
    let s := (s.restart n).modProc n fun p => { p with halted := true }
    let s := if n = 4 then s else s.event (R.core_EVENTS n) 4
    .next (s.log (if n = 4 then { F.CORE_CODE_LOST with sev := 4 } else F.CORE_CODE_LOST) (procBlock n)
      (leBytes 1 n ++ leBytes 1 (b2n bank)))

/-- SRAM_UNCORR (R321): the access faults in the reading core; it is counted and logged. -/
def execSramUncorr (processor : Fin 5) (address : Nat) (s : State) : Out :=
  let n := processor.val
  if !s.running then .next s
  else
    let s := if n = 4 then s else (s.count (R.core_SRAM_UNCORR n)).event (R.core_EVENTS n) 2
    .next (s.log F.CORE_SRAM_UNCORR (procBlock n) (leBytes 1 n ++ leBytes 4 address))

/-- CORE_WFI (R322): an ACTIVE processor sleeps until a delivery wakes it. -/
def execCoreWfi (processor : Fin 5) (s : State) : Out :=
  if (s.proc processor.val).state = .active then
    .next (s.modProc processor.val fun p => { p with state := .sleep }).arbitrate
  else .next s

/-- CORE_PARK (R322): written by any agent; the safety pair is never PARKED. -/
def execCorePark (agent : Agent) (core : Fin 4) (s : State) : Out :=
  let _ := agent
  if s.running ∧ ((s.tc core.val).state = .active ∨ (s.tc core.val).state = .sleep) then
    .next (s.modTc core.val fun p => { p with state := .parked }).arbitrate
  else .next s

/-- CORE_RESUME (R322): written by another agent; ignored when the core writes it itself. Without a running image the cores stay
PARKED (R409). -/
def execCoreResume (agent : Agent) (core : Fin 4) (s : State) : Out :=
  if s.running ∧ agent ≠ .tc core ∧ s.startup.noImage = false ∧ (s.tc core.val).state = .parked then
    .next (s.modTc core.val fun p => { p with state := .active, kickedAt := s.now }).arbitrate
  else .next s

/-- CORE_WATCHDOG_EXPIRE (R323): WDT_MS have passed since the last kick of a running processor; a PARKED core's clock is
gated. WDT_MS 0 disables the watchdog. -/
def execCoreWatchdogExpire (processor : Fin 5) (s : State) : Out :=
  let n := processor.val
  let p := s.proc n
  let w := s.wdtMs n
  if s.running ∧ 0 < w ∧ (p.state = .active ∨ p.state = .sleep) ∧ s.due (p.kickedAt + ms w) then
    let s := s.restart n
    if n = 4 then .next ((s.log F.SP_RESTART R.sp (leBytes 1 1)).spRestarted false)
    else .next (((s.count (R.core_WDT_RESTARTS n)).event (R.core_EVENTS n) 1).log F.CORE_WATCHDOG (R.core n) (leBytes 1 n))
  else .next s

/-- WDT_KICK (R323): restarts the watchdog; SP_KICK only by the safety pair. -/
def execWdtKick (agent : Agent) (processor : Fin 5) (s : State) : Out :=
  if s.running ∧ (processor.val ≠ 4 ∨ agent = .sp) then
    .next (s.modProc processor.val fun p => { p with kickedAt := s.now })
  else .next s

/-- Firmware of kind `k` has reported ALIVE: the swap is complete. -/
def State.fwAlive (s : State) (k : Nat) : State :=
  s.modFw k fun b => { b with swapping := false, aliveBy := none, old := if b.unconfirmed then b.old else [] }

/-- CORE_ALIVE (R323, R79): the firmware start of a processor is complete; the swap of the tending cores completes with the
last of the four. The code loss of the safety pair ends with its report (R394). -/
def execCoreAlive (agent : Agent) (processor : Fin 5) (s : State) : Out :=
  let n := processor.val
  if s.running ∧ (n ≠ 4 ∨ agent = .sp) then
    let s := s.modProc n fun p => { p with alive := true }
    if n = 4 then .next ((s.fwAlive 1).clearSafe F.CORE_CODE_LOST.code)
    else if (List.range 4).all fun i => (s.tc i).alive then .next (s.fwAlive 0)
    else .next s
  else .next s

/-- SP_LOCKSTEP_MISMATCH (R324): both cores restart from the active bank; a halted pair runs nothing to compare (R321). -/
def execSpLockstepMismatch (programCounter : Word) (s : State) : Out :=
  if !s.running || s.cores.sp.halted then .next s
  else
    let s := ((s.restart 4).count R.sp_LOCKSTEP_ERRS).event R.sp_EVENTS 2
    .next ((s.log F.SP_LOCKSTEP R.sp (leBytes 4 programCounter.toNat)).spRestarted true)

/-- PROCESSOR_RESTART_DONE (R322): the restart from the active bank is complete; a halted processor stays RESTARTING, and so do
the tending cores until start-up has loaded their firmware (R410 phase 4). -/
def execProcessorRestartDone (processor : Fin 5) (s : State) : Out :=
  let p := s.proc processor.val
  if s.running ∧ p.state = .restarting ∧ p.halted = false ∧ (processor.val = 4 ∨ s.im.fwTc.running ≠ []) then
    .next (s.modProc processor.val fun q => { q with state := .active, kickedAt := s.now }).arbitrate
  else .next s

/-- The processors of a firmware kind restart; the hull interface holds its telemetry (R364). -/
def State.restartKind (s : State) (k : Nat) : State :=
  match k with
  | 0 => (List.range 4).foldl (fun s n => s.restart n) s
  | 1 => s.restart 4
  | _ => { s with hull := { s.hull with alive := false, stale := true } }

/-- A swap restarts the processors of its kind; the safety pair's restarts of every cause count (R324, Table 14-11). -/
def State.swapRestart (s : State) (k : Nat) : State := if k = 1 then (s.restartKind 1).spRestarted false else s.restartKind k

/-- FW_SWAP (R79): at the rennet point a processor restarts from the bank that holds its new firmware. -/
def State.swapFirmware (s : State) (k : Nat) (payload : List Byte) : State :=
  let s := s.modFw k fun b =>
    { b with bank := !b.bank, swapping := true, unconfirmed := true, reverted := false, running := payload, old := b.running,
             aliveBy := some (s.now + aliveLimit k) }
  ((s.swapRestart k).event R.im_EVENTS 32).log F.IMG_FW_SWAP R.im (leBytes 1 (k + 1) ++ leBytes 8 (le payload 16 8))

/-- The processor goes back to its old bank (R79, R80): cause 1 ALIVE_MISSED, 2 REVERT_WRITTEN. A REVERT follows the procedure of a
swap, with its ALIVE limit and the other bank to fall back on; a missed ALIVE restarts the processor without a further limit. -/
def State.revertFirmware (s : State) (k cause : Nat) : State :=
  let again := cause == 2
  let s := s.modFw k fun b =>
    { b with bank := !b.bank, swapping := again, unconfirmed := false, reverted := true, running := b.old,
             old := if again then b.running else [], aliveBy := if again then some (s.now + aliveLimit k) else none }
  ((s.swapRestart k).event R.im_EVENTS 32).log F.IMG_FW_REVERT R.im (leBytes 1 (k + 1) ++ leBytes 1 cause)

/-- FW_ALIVE_TIMEOUT (R79, R408 step 4): swapped firmware has not reported ALIVE in time and the old bank returns. In phase 4
of start-up the boot bank has failed, and phase 3 restarts with the other bank. -/
def execFwAliveTimeout (processor : Fin 3) (s : State) : Out :=
  let k := processor.val
  match (s.fw k).aliveBy with
  | none => .next s
  | some t =>
    if !s.due t then .next s
    else if s.startup.phase = 4 then
      let bank := s.im.startedFrom
      let s := s.modFw k fun b => { b with aliveBy := none }
      let s := s.log F.START_FW_FAIL R.start (leBytes 1 (k + 1) ++ leBytes 1 (b2n bank))
      .next (s.modStartup fun x =>
        { x with phase := 3, phaseAt := s.now, triedA := x.triedA || !bank, triedB := x.triedB || bank })
    else .next (s.revertFirmware k 1)

/-- A write of FW_CTRL, BOOT_CTRL, FLOOR_RAISE or MEM_CTRL by a session needs ADMIN with WRITE (Table 15-5). -/
def State.adminWrite (s : State) (g : Agent) : Bool := g.isCore || (s.sessionRight g 1 && s.sessionRight g 2)

/-- FW_CONFIRM (R80): releases the old bank of UNCONFIRMED firmware; the bit is ignored otherwise. -/
def execFwConfirm (agent : Agent) (processor : Fin 3) (s : State) : Out :=
  if s.running ∧ s.adminWrite agent ∧ (s.fw processor.val).unconfirmed then
    let s := s.modFw processor.val fun b => { b with unconfirmed := false, old := [] }
    .next ((s.event R.im_EVENTS 32).log F.IMG_FW_CONFIRMED R.im (leBytes 1 (processor.val + 1)))
  else .next s

/-- FW_REVERT (R80): swaps UNCONFIRMED firmware back to its old bank; the bit is ignored otherwise. -/
def execFwRevert (agent : Agent) (processor : Fin 3) (s : State) : Out :=
  if s.running ∧ s.adminWrite agent ∧ (s.fw processor.val).unconfirmed then .next (s.revertFirmware processor.val 2)
  else .next s

/-- Corrected errors in `n` ns from a time on. -/
def sramCount (core since : Nat) : Nat → Nat
  | 0 => 0
  | n + 1 => sramCount core since n + Config.sramCorrectedAt core (since + n)

/-- SRAM_CORR (R321, Table 14-11): the corrected errors of the core's accesses since D0 left reset. -/
def State.sramCorr (s : State) (n : Nat) : Word :=
  match s.clock.phase2 with
  | some t => w32 (min 0xFFFFFFFF (sramCount n t (s.now - t)))
  | none => 0

/-- CORE_STATUS (Table 14-11). -/
def State.coreStatus (s : State) (n : Nat) : Word :=
  let p := s.tc n
  w32 (16 * b2n p.alive + 8 * b2n p.halted + 4 * b2n s.im.fwTc.bank +
    (match p.state with | .active => 0 | .sleep => 1 | .parked => 2 | .restarting => 3))

/-- SP_STATUS. -/
def State.spStatus (s : State) : Word :=
  let p := s.cores.sp
  w32 (16 * b2n p.alive + 8 * b2n p.halted + 4 * b2n s.im.fwSp.bank + 2 * b2n (p.state == .restarting) + b2n (p.state == .sleep))

end Sys2Proof.Machine
end

