-- ==== Sys2Proof/Machine/Hub.lean ====
section
/-!
DEFINITION. The commands of the interrupt hub and the raster-compare timers (R325 to R332).
-/

namespace Sys2Proof.Machine

/-- SRC_CFG of a source (Table 14-12). -/
def srcCfg (x : IrqSource) : Word :=
  w32 (8192 * b2n x.mask + 4096 * b2n x.wake + 256 * x.fallback + 16 * x.target + x.prio)

/-- SRC_CNT of a source. -/
def srcCnt (x : IrqSource) : Word :=
  w32 (0x80000000 * b2n x.sat + (match x.service with | some t => 0x40000000 + 0x8000000 * t | none => 0) + x.count)

/-- The source is the safety pair's to configure (R330). -/
def IrqSource.ofSp (x : IrqSource) : Bool := x.target == 4 || x.fallback == 4

/-- A write denied under R330. -/
def State.hubDenied (s : State) (g : Agent) (n : Nat) : State :=
  (s.count R.hub_DENIED).log F.HUB_DENIED R.src (leBytes 1 (agentNo g) ++ leBytes 2 n)

/-- What a write of SRC_CFG makes of a source: a TARGET or FALLBACK of 5 to 7 is ignored (Table 14-12). -/
def srcCfgWrite (x : IrqSource) (v : Word) : IrqSource :=
  let t := v.toNat / 16 % 8
  let f := v.toNat / 256 % 8
  { x with prio := v.toNat % 16, target := if t < 5 then t else x.target, fallback := if f < 5 then f else x.fallback,
           wake := bit v.toNat 12, mask := bit v.toNat 13 }

/-- IRQ_EVENT (R325, R326): a bit of an EVENTS register sets. -/
def execIrqEvent (events : Nat) (n : Fin 32) (s : State) : Out :=
  .next (if s.running then s.event events (2 ^ n.val) else s)

/-- IRQ_CLAIM (R328): the target's read of CLAIM puts the highest eligible source into service; another agent's read has no
effect and is counted. -/
def execIrqClaim (agent : Agent) (target : Fin 5) (s : State) : Out :=
  if !s.running then .next (s.answer 0)
  else if agentNo agent ≠ target.val then .next ((s.count R.hub_BAD_COMPLETE).answer 0)
  else
    let n := s.topSource target.val
    if n = 0 then .next (s.answer 0)
    else .next (((s.modSource n fun x => { x with count := x.count - 1, service := some target.val }).arbitrate).answer (w32 n))

/-- IRQ_COMPLETE (R328): ends a source's service at the writing target. -/
def execIrqComplete (agent : Agent) (target : Fin 5) (source : Fin 512) (s : State) : Out :=
  if !s.running then .next s
  else if agentNo agent = target.val ∧ (s.source source.val).service = some target.val then
    .next (s.modSource source.val fun x => { x with service := none }).arbitrate
  else .next (s.count R.hub_BAD_COMPLETE)

/-- SRC_CFG_WRITE (R329, R330). Offset 0x000 names no source; a reserved source of Table 14-4 keeps what is written and never counts. -/
def execSrcCfgWrite (agent : Agent) (source : Fin 512) (value : Word) (s : State) : Out :=
  if !s.running || source.val == 0 then .next s
  else
    let x := s.source source.val
    let y := srcCfgWrite x value
    if agent ≠ .sp ∧ (x.ofSp || y.ofSp) = true then .next (s.hubDenied agent source.val)
    else .next (s.setSource source.val y).arbitrate

/-- THRESHOLD_WRITE (R329): acts on the arbitrations after it. -/
def execThresholdWrite (agent : Agent) (target : Fin 5) (value : Word) (s : State) : Out :=
  let _ := agent
  .next (if s.running then
    ({ s with cores := { s.cores with thresholds := s.cores.thresholds.put (fun _ => 0) target.val (value.toNat % 16) } } : State).arbitrate
  else s)

/-- SWI_SET (R325): bit i counts one event of source 271 + i. -/
def execSwiSet (agent : Agent) (value : Word) (s : State) : Out :=
  let _ := agent
  .next (if s.running then
    (List.range 16).foldl (fun s i => if bit value.toNat i then s.irqCount (271 + i) else s) s
  else s)

/-- SRC_CNT_SAT_CLEAR (R326): a 1 in bit 31 clears SAT, unless an event sets it in the same cycle (R6). -/
def execSrcCntSatClear (agent : Agent) (source : Fin 512) (s : State) : Out :=
  let _ := agent
  .next (if s.running && source.val != 0 then s.modSource source.val fun x => { x with sat := x.sat && x.satAt == some s.now } else s)

/-- IRQ_NO_TARGET (R327): 1 s of waiting without an effective target, logged once per episode. -/
def execIrqNoTarget (source : Fin 512) (s : State) : Out :=
  let x := s.source source.val
  match x.noTarget with
  | some t =>
    if t + sec 1 ≤ s.now ∧ x.noTargetLogged = false then
      .next ((s.setSource source.val { x with noTargetLogged := true }).log F.IRQ_NO_TARGET R.src
        (leBytes 2 source.val ++ leBytes 1 x.target ++ leBytes 1 x.fallback))
    else .next s
  | none => .next s

/-- A timer fires: its source counts one event, and a periodic timer's stamp advances (R331). -/
def State.fireTimer (s : State) (n : Nat) (a : Stamp) : State :=
  let p := (s.reg (R.rt_RT_PERIOD n)).toNat
  ((s.count (R.rt_RT_FIRED n)).modTimer n fun t =>
    { t with armed := if p = 0 then none else some (a + BitVec.ofNat 64 p) }).irqCount (263 + n)

/-- RT_ARM (R331): a write of RT_CMP_HI arms the timer with the writer's own RT_CMP_LO; a stamp that is not later than now
expires at once with LATE. The timers of SP's sources are SP's (R330). -/
def execRtArm (agent : Agent) (timer : Fin 8) (value : Word) (s : State) : Out :=
  let n := timer.val
  if !s.running then .next s
  else if agent ≠ .sp ∧ (s.source (263 + n)).ofSp = true then .next (s.hubDenied agent (263 + n))
  else
    let a : Stamp := value ++ s.latch agent (R.rt_RT_CMP_LO n)
    let s := (s.setReg (R.rt_RT_CMP_HI n) value).modTimer n fun t => { t with armed := some a, late := false, seededCancel := false }
    if later a s.stamp then .next s
    else .next (((s.modTimer n fun t => { t with late := true }).log F.TIMER_LATE (R.rt n) (leBytes 1 n ++ leBytes 8 a.toNat)).fireTimer n a)

/-- RT_EXPIRE (R331): the counter reaches the compare stamp. -/
def execRtExpire (timer : Fin 8) (s : State) : Out :=
  match (s.timer timer.val).armed with
  | some a => if s.reached a then .next (s.fireTimer timer.val a) else .next s
  | none => .next s

/-- RT_DISARM (R331). -/
def execRtDisarm (agent : Agent) (timer : Fin 8) (s : State) : Out :=
  if !s.running then .next s
  else if agent ≠ .sp ∧ (s.source (263 + timer.val)).ofSp = true then .next (s.hubDenied agent (263 + timer.val))
  else .next (s.modTimer timer.val fun t => { t with armed := none })

/-- At seeding every armed timer is disarmed, its SEEDED_CANCEL bit is set and one event is counted (R332). -/
def State.cancelTimers (s : State) : State :=
  (List.range 8).foldl (fun s n =>
    match (s.timer n).armed with
    | some _ => (s.modTimer n fun t => { t with armed := none, seededCancel := true }).irqCount (263 + n)
    | none => s) s

/-- INTERRUPT_PLAN replaces every source's configuration and every THRESHOLD; counts, SAT bits and services are kept (R330). -/
def State.installInterruptPlan (s : State) (p : List Byte) : State :=
  let s := (List.range 5).foldl (fun (s : State) t =>
    { s with cores := { s.cores with thresholds := s.cores.thresholds.put (fun _ => 0) t (le p t 1 % 16) } }) s
  ((List.range 512).foldl (fun s n =>
    if n = 0 then s
    else
      let o := 16 + 4 * n
      s.modSource n fun x => { x with prio := le p o 1, target := le p (o + 1) 1, fallback := le p (o + 2) 1,
                                      wake := bit (le p (o + 3) 1) 0, mask := bit (le p (o + 3) 1) 1 }) s).arbitrate

end Sys2Proof.Machine
end

