-- ==== Sys2Proof/Machine/PtpPacket.lean ====
section
/-!
DEFINITION. PTP messages as bytes and their UDP transport (R7, R26, R27). The layout of the messages is that of IEEE 1588-2019 as R26
cites it (PRESUMED, log entry 65).
-/

namespace Sys2Proof.Machine

/-- Lengths of the message types of Table 2-2. -/
def ptpLength : PtpKind → Nat
  | .sync | .delayReq | .followUp => 44
  | .delayResp => 54
  | .announce => 64
  | _ => 34

/-- Message type and control field. -/
def ptpCode : PtpKind → Nat × Nat
  | .sync => (0, 0) | .delayReq => (1, 1) | .followUp => (8, 2) | .delayResp => (9, 3) | .announce => (11, 5)
  | .management => (13, 4) | .other => (12, 5)

/-- The message kind of a message type; peer delay, signalling and reserved types are `other`. -/
def ptpKindOf (n : Nat) : PtpKind :=
  match n with
  | 0 => .sync | 1 => .delayReq | 8 => .followUp | 9 => .delayResp | 11 => .announce | 13 => .management | _ => .other

/-- A received message: its length agrees with its type when messageLength covers the type's fields and the datagram holds so many
bytes (R31). -/
def ptpRead (b : List Byte) : PtpMsg :=
  let kind := ptpKindOf (be b 0 1 % 16)
  { kind := kind, version := be b 1 1 % 16, domain := be b 4 1
    lengthOk := decide (ptpLength kind ≤ be b 2 2) && decide (be b 2 2 ≤ b.length)
    twoStep := bit (be b 6 1) 1, correction := signed 64 (be b 8 8)
    clockId := BitVec.ofNat 64 (be b 20 8), portNumber := be b 28 2, seq := BitVec.ofNat 16 (be b 30 2)
    timestamp := be b 34 6 * 1000000000 + be b 40 4
    reqClockId := BitVec.ofNat 64 (be b 44 8), reqPort := be b 52 2
    dataset := { grandmaster := BitVec.ofNat 64 (be b 53 8), priority1 := be b 47 1, clockClass := be b 48 1,
                 accuracy := be b 49 1, variance := be b 50 2, priority2 := be b 52 1, stepsRemoved := be b 61 2 } }

/-- A timestamp: 48 bits of seconds and 32 of nanoseconds. -/
def ptpTime (t : Int) : List Byte := beBytes 6 (t.toNat / 1000000000) ++ beBytes 4 (t.toNat % 1000000000)

/-- A message as it is sent: PTP timescale, the flags and the UTC fields that the spec leaves open from Config; `log` is
logMessageInterval. -/
def ptpBytes (m : PtpMsg) (unicast : Bool) (log : Nat) : List Byte :=
  beBytes 1 (ptpCode m.kind).1 ++ beBytes 1 (16 + m.version) ++ beBytes 2 (ptpLength m.kind) ++ beBytes 1 m.domain ++ [0] ++
  beBytes 1 (4 * b2n unicast + 2 * b2n m.twoStep) ++ beBytes 1 (if m.kind = .announce then (Config.ptpUtcFlags ||| 8).toNat else 0) ++
  beBytes 8 (m.correction % 2 ^ 64).toNat ++ [0, 0, 0, 0] ++ beBytes 8 m.clockId.toNat ++ beBytes 2 m.portNumber ++
  beBytes 2 m.seq.toNat ++ beBytes 1 (ptpCode m.kind).2 ++ beBytes 1 log ++ ptpTime m.timestamp ++
  match m.kind with
  | .delayResp => beBytes 8 m.reqClockId.toNat ++ beBytes 2 m.reqPort
  | .announce =>
    let d := m.dataset
    beBytes 2 Config.ptpUtcOffset.toNat ++ [0] ++ beBytes 1 d.priority1 ++ beBytes 1 d.clockClass ++ beBytes 1 d.accuracy ++
    beBytes 2 d.variance ++ beBytes 1 d.priority2 ++ beBytes 8 d.grandmaster.toNat ++ beBytes 2 d.stepsRemoved ++ [Config.ptpTimeSource]
  | _ => []

/-- Sync and Delay_Req are event messages: their timestamp is inserted as they depart. -/
def isEvent (k : PtpKind) : Bool := k == .sync || k == .delayReq

/-- The UDP packet of a message (R26): over IPv4 its checksum is zero; over IPv6 the checksum of an event message is that of the
message with a timestamp of zero, and two octets after the message compensate for the timestamp inserted on departure. -/
def ptpPacket (v6 : Bool) (src dst : Nat) (m : PtpMsg) (unicast : Bool) (log : Nat) : List Byte :=
  let port := if isEvent m.kind then 319 else 320
  let b := ptpBytes m unicast log
  if v6 then
    let blank := if isEvent m.kind then ptpBytes { m with timestamp := 0 } unicast log else b
    let n := inetFold (inetSum blank)
    let pad := beBytes 2 ((n + 65535 - inetFold (inetSum b)) % 65535)
    udpPacket true src dst Config.ptpDscp Config.ptpTtl port port (udpCheck true src dst port port (blank ++ [0, 0])) (b ++ pad)
  else udpPacket false src dst Config.ptpDscp Config.ptpTtl port port [0, 0] b

/-- The multicast address of PTP: 224.0.1.129, or FF0E::181. -/
def ptpGroup (v6 : Bool) : Nat := if v6 then 0xFF0E * 2 ^ 112 + 0x181 else 0xFFFFE0000181

end Sys2Proof.Machine
end

