-- ==== Sys2Proof/Machine/Time.lean ====
section
/-!
DEFINITION. The house raster's servo, its PTP instances and the seeding of the counter (R21 to R36).
-/

namespace Sys2Proof.Machine

/-! ## Configuration -/

/-- Number of PTP instances that PTP_PORTS defines (Table 2-7). -/
def State.ptpCount (s : State) : Nat := le (s.payload 0x0102 0 1) 0 1

/-- Field of the record of instance Ii. -/
def State.ptpField (s : State) (i off n : Nat) : Nat := le (s.payload 0x0102 0 1) (4 + 16 * i + off) n

/-- A PTP interval of 2^x seconds, from its signed byte, in ns. -/
def ptpInterval (v : Nat) : Nat :=
  let e := signed 8 v
  if e < 0 then 1000000000 / 2 ^ e.natAbs else 1000000000 * 2 ^ e.natAbs

/-- LOG_SYNC, LOG_ANNOUNCE and LOG_DELAY as intervals. -/
def State.syncInterval (s : State) (i : Nat) : Nat := ptpInterval (s.ptpField i 4 1)
def State.announceInterval (s : State) (i : Nat) : Nat := ptpInterval (s.ptpField i 5 1)
def State.delayInterval (s : State) (i : Nat) : Nat := ptpInterval (s.ptpField i 6 1)

/-- The instance leads (ROLE 1). -/
def State.ptpLeads (s : State) (i : Nat) : Bool := s.ptpField i 3 1 == 1

/-- The instance is defined and its port is UP; PTP instances run from phase 6 (R27, Table 18-3). -/
def State.ptpRuns (s : State) (i : Nat) : Bool :=
  i < s.ptpCount && 6 ≤ s.startup.phase && (s.port (s.ptpField i 0 1)).state == .up

/-- Port group of a port number: G0 to G3, and M0 and M1 each their own (R27). -/
def portGroup (p : Nat) : Nat := if p < 32 then p / 8 else p

/-- The delay asymmetry in force, ns (R28). -/
def State.asym (s : State) (i : Nat) : Int := signed 32 (s.reg (R.ptp_ASYM_NS i)).toNat

/-- HOLD_LIMIT in s and FAR_LIMIT in ns (Table 2-6). -/
def State.holdLimit (s : State) : Nat := if s.hasSection 0x0101 0 1 then le (s.payload 0x0101 0 1) 2 2 else 60
def State.farLimit (s : State) : Nat := 1000 * (if s.hasSection 0x0101 0 1 then le (s.payload 0x0101 0 1) 4 2 else 100)

/-- MODE, USE and CABLE of REF_IN (Table 2-8). -/
def State.refMode (s : State) : Nat := le (s.payload 0x0103 0 6) 0 1
def State.refUse (s : State) : Nat := le (s.payload 0x0103 0 6) 1 1
def State.refCable (s : State) : Nat := le (s.payload 0x0103 0 6) 4 4

/-! ## Codes -/

/-- STATE of Table 2-3. -/
def servoCode : ServoState → Nat
  | .free => 0 | .acquire => 1 | .locked => 2 | .quarantine => 3 | .holdover => 4

/-- SOURCE of Table 2-12. -/
def sourceCode : Option Source → Nat
  | none => 7
  | some .refIn => 6
  | some (.ptp i) => i

/-! ## State changes of the servo -/

/-- A TIO output with LOCKREQ goes to its inactive level when the servo leaves LOCKED (R43). -/
def State.lockLost (s : State) : State :=
  (List.range 8).foldl (fun s n =>
    if s.isTioOutput n && bit (le (s.payload 0x0104 0 6) (16 * n + 1) 1) 1 then
      (s.goHarmless (.tio n) 0 F.TIO_INACTIVE.code).logOut F.TIO_INACTIVE (R.tio n) 0 [(.tio n, 0)]
        (leBytes 1 n ++ leBytes 1 (servoCode s.servo.state))
    else s) s

/-- The frequency is held at its estimate from now on, and with frequency assist at REF_IN's error of this moment (R34, R37). -/
def State.holdFrequency (s : State) : State :=
  s.modServo fun v => { v with freqTarget := v.freqAdj, heldSince := s.now, refErrHeld := s.refIn.err }

/-- STATE changes (Table 2-4, R49): TIME_STATE, and what the outputs that need LOCKED do. -/
def State.servoTo (s : State) (new : ServoState) : State :=
  let old := s.servo.state
  if old = new then s
  else
    let s := s.modServo fun v => { v with state := new, holdLong := false }
    let s := if new = .quarantine ∨ new = .holdover then s.holdFrequency else s
    let s := (s.event R.time_EVENTS 1).log F.TIME_STATE R.time
      (leBytes 1 (servoCode old) ++ leBytes 1 (servoCode new) ++ leBytes 1 (sourceCode s.servo.source))
    let s := if new = .acquire ∧ s.startup.phase = 6 then s.modStartup fun x => { x with phase := 7, phaseAt := s.now } else s
    if old = .locked then s.lockLost
    else if new = .locked then s.clearCauseAll F.TIO_INACTIVE.code
    else s

/-- HOLDOVER is entered; the frequency is held (R34). -/
def State.toHoldover (s : State) : State :=
  ((s.modServo fun v => { v with slewLeft := 0, aside := [], stepped := none }).log F.TIME_HOLDOVER R.time
    (leBytes 1 s.servo.lastSource)).servoTo .holdover

/-- A path step (R32): the stepped path delay, the new offset, and QUARANTINE with its 16 s started afresh. -/
def State.pathStep (s : State) (i : Nat) (mpd newOffset : Int) : State :=
  let s := (s.event R.time_EVENTS 2).log F.TIME_PATH_STEP R.time
    (leBytes 1 i ++ leInt 4 s.servo.reference ++ leInt 4 mpd)
  let s := s.mapPtp fun _ x => { x with agreeRun := 0 }
  (s.modServo fun v => { v with slewLeft := 0, aside := [], oldRun := 0, stepped := some mpd,
                                newOffset := newOffset, quarSince := s.now }).servoTo .quarantine

/-- QUARANTINE ends in LOCKED: with the new offset the reference becomes the stepped path delay, without it stays (R32). -/
def State.leaveQuarantine (s : State) (withNew : Bool) : State :=
  let s := if withNew then
      s.modServo fun v => { v with reference := v.stepped.getD v.reference, accepted := [], slewLeft := v.newOffset * tbUnit }
    else s
  (s.modServo fun v => { v with stepped := none, aside := [], oldRun := 0 }).servoTo .locked

/-! ## The choice of a source (R29, R37) -/

/-- Lexicographic order of number lists. -/
def lexLess : List Nat → List Nat → Bool
  | [], [] => false
  | [], _ :: _ => true
  | _ :: _, [] => false
  | a :: r, b :: t => a < b || (a == b && lexLess r t)

/-- What the IEEE 1588-2019 dataset comparison looks at, the better first. -/
def ForeignMaster.key (m : ForeignMaster) : List Nat :=
  [m.dataset.priority1, m.dataset.clockClass, m.dataset.accuracy, m.dataset.variance, m.dataset.priority2,
   m.dataset.grandmaster.toNat, m.dataset.stepsRemoved, m.clockId.toNat, m.portNumber]

/-- A follower instance in SLAVE with Sync within 3 sync intervals. Once seeded its offset and mean path delay must be
measured, since Table 2-4 and R29 compare them. -/
def State.usable (s : State) (i : Nat) : Bool :=
  s.ptpRuns i && !s.ptpLeads i && (s.inst i).portState == 9 && (s.inst i).syncOk &&
  (!s.clock.seeded || !(s.inst i).history.isEmpty)

/-- The best usable instance; among equals the lower number wins. -/
def State.bestInst (s : State) : Option Nat :=
  (List.range 6).foldl (fun b i =>
    if s.usable i then
      match b, (s.inst i).parent with
      | none, _ => some i
      | some j, some m => (match (s.inst j).parent with
        | some n => if lexLess m.key n.key then some i else b
        | none => b)
      | some _, none => b
    else b) none

/-- CTRL.FORCE_HOLD. -/
def State.forceHold (s : State) : Bool := bit (s.reg R.time_CTRL).toNat 0

/-- The source that R29 and R37 select now. -/
def State.candidate (s : State) : Option Source :=
  if s.forceHold then none
  else match s.bestInst with
    | some i => some (.ptp i)
    | none =>
      if s.clock.seeded && s.refMode == 2 && s.refUse == 2 && s.refIn.state == .good then some .refIn else none

/-- Offset of a source, ns. -/
def State.sourceOffset (s : State) : Source → Int
  | .ptp i => (s.inst i).offset
  | .refIn => s.servo.refOffset

/-- Mean path delay of a source; REF_IN has none, so the reference stands for it. -/
def State.sourceMpd (s : State) : Source → Int
  | .ptp i => (s.inst i).mpd
  | .refIn => s.servo.reference

/-- The offset of a new source is slewed in and the reference restarts from it (R29). -/
def State.slewIn (s : State) (x : Source) : State :=
  s.modServo fun v => { v with slewLeft := s.sourceOffset x * tbUnit, accepted := [], acceptAny := true, aside := [] }

/-- The selected source changes (R29, Table 2-4): its offset is compared with that of the old source's last sample. In QUARANTINE a
new source that agrees is slewed in and the reference restarts from it; one that does not is a further path step (log entry 29). -/
def State.takeSource (s : State) (new : Option Source) : State :=
  let old := s.servo.source
  if new = old then s
  else
    let state := s.servo.state
    let was := s.servo.lastOffset
    let s := s.modServo fun v => { v with source := new, lastSource := if old.isSome then sourceCode old else v.lastSource,
                                          aside := [], oldRun := 0,
                                          lastOffset := match new with | some x => s.sourceOffset x | none => v.lastOffset }
    let s := (s.event R.time_EVENTS 8).log F.TIME_SOURCE_CHANGE R.time (leBytes 1 (sourceCode old) ++ leBytes 1 (sourceCode new))
    match state, new with
    | .free, some _ => (s.modServo fun v => { v with goodRun := 0, accepted := [] }).servoTo .acquire
    | .acquire, none => s.servoTo .free
    | .acquire, some _ => s.modServo fun v => { v with goodRun := 0, accepted := [] }
    | .locked, none => s.toHoldover
    | .locked, some x =>
      if (s.sourceOffset x - was).natAbs ≤ 100 then s.slewIn x else s.pathStep (sourceCode new) (s.sourceMpd x) (s.sourceOffset x)
    | .quarantine, some x =>
      if old.isNone then s
      else if (s.sourceOffset x - was).natAbs ≤ 100 then
        (s.slewIn x).modServo fun v => { v with reference := s.sourceMpd x, stepped := some (s.sourceMpd x), newOffset := s.sourceOffset x }
      else s.pathStep (sourceCode new) (s.sourceMpd x) (s.sourceOffset x)
    | .holdover, some x =>
      if (s.sourceMpd x - s.servo.reference).natAbs ≤ 100 then (s.slewIn x).servoTo .locked
      else s.pathStep (sourceCode new) (s.sourceMpd x) (s.sourceOffset x)
    | _, _ => s

/-- Select again. -/
def State.reselect (s : State) : State := s.takeSource s.candidate

/-- A port has gone down: its instances are DISABLED and forget their masters (R27). -/
def State.ptpPortDown (s : State) (port : Nat) : State :=
  (List.range 6).foldl (fun s i => if i < s.ptpCount && s.ptpField i 0 1 == port then s.setInst i {} else s) s.reselect

/-! ## Seeding (R24, R411) -/

/-- MIN_LEAD: 500 us in ticks, rounded up (R38, Table 2-1). -/
def State.minLead (s : State) : Nat := ticksUp s.mode 500000

/-- Rennet point of ticket 0: the seeding stamp plus the larger of MIN_LEAD and what remains of 10 s since phase 2 (R411). -/
def State.startPoint (s : State) : Stamp :=
  let began := s.clock.phase2.getD s.now
  let rest := began + sec 10 - s.now
  s.stamp + BitVec.ofNat 64 (max s.minLead (ticksUp s.mode rest))

/-- The start commit: no slot, no staged writes; it has nothing to ripen. -/
def State.issueStart (s : State) : State :=
  let c : Commit := { ticket := 0, state := .ready, stamp := s.startPoint, start := true }
  s.modCommits fun m => { m with live := c :: m.live, tickets := ⟨0, .ready, 0⟩ :: m.tickets, order := [(0, c.stamp)] }

/-- CAUSE of a wheel that closes at seeding (Table 13-5). -/
def sealSeeded : Nat := 7

/-- The one load of the counter in a run (R24): the timebase's stamp replaces the provisional one. -/
def State.seed (s : State) : State :=
  let last := s.stamp
  let s := s.modClock fun c => { c with seeded := true }
  let s := (s.event R.time_EVENTS 64).log F.TIME_SEEDED R.time (leBytes 8 last.toNat ++ leBytes 8 s.stamp.toNat)
  let began := s.clock.phase2.getD s.now
  let s := s.modStartup fun x => { x with seededMs := (s.now - began) / ms 1, phase := max 8 x.phase, phaseAt := s.now }
  (s.cancelTimers.sealWheel sealSeeded).issueStart

/-! ## Samples (R32, R33) -/

/-- Mean of the path delays of a list of samples. -/
def meanMpd (l : List PathSample) : Int := (l.map (·.mpd)).sum / l.length

/-- TIME_FAR is raised above FAR_LIMIT and clears below half of it (R25). -/
def State.judgeFar (s : State) : State :=
  let f := s.servo.filtered.natAbs
  if !s.servo.far && s.farLimit < f then
    ((s.modServo fun v => { v with far := true }).event R.time_EVENTS 16).log F.TIME_FAR R.time (leInt 4 s.servo.filtered)
  else if s.servo.far && 2 * f < s.farLimit then
    (s.modServo fun v => { v with far := false }).event R.time_EVENTS 16
  else s

/-- REF_IN assists the frequency (R37). -/
def State.refAssist (s : State) : Bool :=
  s.refMode == 1 && s.refUse == 1 && s.refIn.state == .good &&
  (s.servo.state == .locked || s.servo.state == .quarantine || s.servo.state == .holdover)

/-- An accepted sample in LOCKED: it joins the reference, its offset is removed by slewing, and the frequency estimate moves toward
what the filter gives, with REF_IN's help where that assists (R25, R32, R37). -/
def State.acceptSample (s : State) (x : PathSample) : State :=
  let acc := (x :: s.servo.accepted).take 64
  let est := if s.refAssist then Config.assistedEstimate acc s.refIn.err s.servo.freqAdj
    else Config.frequencyEstimate acc s.servo.freqAdj
  let filtered := Config.offsetFilter acc
  (s.modServo fun v => { v with accepted := acc, reference := meanMpd acc, acceptAny := false, aside := [], filtered := filtered,
                                freqTarget := est, slewLeft := filtered * tbUnit }).judgeFar

/-- A clean REF_IN window while the frequency is held: the estimate moves to hold the raster to REF_IN (R37). -/
def State.followRefIn (s : State) : State :=
  if s.refAssist ∧ s.servo.state ≠ .locked then
    s.modServo fun v => { v with freqTarget := Config.heldToRefIn v.refErrHeld s.refIn.err v.freqAdj }
  else s

/-- Step the timebase by an offset; receive and departure times already taken move with it (R32). -/
def State.stepTimebase (s : State) (offset : Int) : State :=
  let s := s.modClock fun c => { c with timebase := c.timebase - offset * tbUnit }
  s.mapPtp fun _ x => { x with
    lastSync := x.lastSync.map fun t => (t.1, t.2 - offset)
    pendingSync := x.pendingSync.map fun t => (t.1, t.2.1 - offset, t.2.2)
    delayReqs := x.delayReqs.map fun t => (t.1, t.2 - offset) }

/-- A sample in ACQUIRE: a large offset steps the timebase, 64 small ones in a row seed the counter (R32). -/
def State.acquireSample (s : State) (x : PathSample) : State :=
  if 200 < x.offset.natAbs then (s.stepTimebase x.offset).modServo fun v => { v with goodRun := 0, accepted := [] }
  else
    let acc := (x :: s.servo.accepted).take 64
    let est := Config.frequencyEstimate acc s.servo.freqAdj
    let s := s.modServo fun v => { v with goodRun := v.goodRun + 1, accepted := acc, slewLeft := x.offset * tbUnit,
                                          freqAdj := est, freqTarget := est, freqAt := s.now,
                                          filtered := Config.offsetFilter acc }
    if 64 ≤ s.servo.goodRun then
      (s.modServo fun v => { v with reference := meanMpd acc, aside := [] }).seed.servoTo .locked
    else s

/-- The sample lies above a path delay. -/
def PathSample.above (x : PathSample) (d : Int) : Bool := d < x.mpd

/-- A sample held aside joins the run of its side, or begins a new run. -/
def joinRun (side : PathSample → Bool × Bool) (run : List PathSample) (x : PathSample) : List PathSample :=
  match run with
  | y :: _ => if side y = side x then x :: run else [x]
  | [] => [x]

/-- A sample of the selected instance in LOCKED (R32). -/
def State.lockedSample (s : State) (i : Nat) (x : PathSample) : State :=
  if s.servo.acceptAny || (x.mpd - s.servo.reference).natAbs ≤ 100 then s.acceptSample x
  else
    let s := s.count (R.ptp_OUTLIERS i)
    let run := joinRun (fun y => (y.above s.servo.reference, false)) s.servo.aside x
    if 8 ≤ run.length then
      let m := meanMpd run
      s.pathStep i m (x.offset + x.mpd - m)
    else s.modServo fun v => { v with aside := run }

/-- A sample of the selected instance in QUARANTINE (R32, Table 2-4). -/
def State.quarantineSample (s : State) (i : Nat) (x : PathSample) : State :=
  let st := s.servo.stepped.getD s.servo.reference
  if (x.mpd - s.servo.reference).natAbs ≤ 100 then
    let s := s.modServo fun v => { v with oldRun := v.oldRun + 1, aside := [] }
    if 8 ≤ s.servo.oldRun then s.leaveQuarantine false else s
  else if (x.mpd - st).natAbs ≤ 100 then
    s.modServo fun v => { v with oldRun := 0, aside := [], newOffset := x.offset + x.mpd - st }
  else
    let s := s.count (R.ptp_OUTLIERS i)
    let run := joinRun (fun y => (y.above s.servo.reference, y.above st)) s.servo.aside x
    if 8 ≤ run.length then
      let m := meanMpd run
      s.pathStep i m (x.offset + x.mpd - m)
    else s.modServo fun v => { v with oldRun := 0, aside := run }

/-- The instance lies on another port group than the selected source (R27). -/
def State.otherGroup (s : State) (i : Nat) : Bool :=
  match s.servo.source with
  | some (.ptp j) => portGroup (s.ptpField i 0 1) != portGroup (s.ptpField j 0 1)
  | some .refIn => true
  | none => false

/-- A sample of a follower that is not selected: 8 in a row that agree within 100 ns end QUARANTINE with the new offset
(Table 2-4), and clear SUSPECT (R33). -/
def State.otherSample (s : State) (i : Nat) (x : PathSample) : State :=
  let target : Option Int := match s.servo.state with
    | .quarantine => some s.servo.newOffset
    | .locked => if s.servo.suspect then s.servo.source.map s.sourceOffset else none
    | _ => none
  match target with
  | none => s.modInst i fun p => { p with agreeRun := 0 }
  | some t =>
    let run := if s.otherGroup i && (x.offset - t).natAbs ≤ 100 then (s.inst i).agreeRun + 1 else 0
    if 8 ≤ run then
      let s := s.modInst i fun p => { p with agreeRun := 0 }
      let s := s.modServo fun v => { v with suspect := false }
      if s.servo.state = .quarantine then s.leaveQuarantine true else s
    else s.modInst i fun p => { p with agreeRun := run }

/-- A complete sample of instance `i`. -/
def State.sample (s : State) (i : Nat) (x : PathSample) : State :=
  let s := s.modInst i fun p => { p with offset := x.offset, mpd := x.mpd, history := (x :: p.history).take 64 }
  let s := s.reselect
  if s.servo.source = some (.ptp i) then
    let s := s.modServo fun v => { v with lastOffset := x.offset }
    match s.servo.state with
    | .acquire => s.acquireSample x
    | .locked => s.lockedSample i x
    | .quarantine => s.quarantineSample i x
    | _ => s
  else s.otherSample i x

/-! ## PTP messages (R26 to R31) -/

/-- Code of a message kind for the rate check. -/
def ptpKindCode : PtpKind → Nat
  | .sync => 0 | .followUp => 1 | .delayReq => 2 | .delayResp => 3 | .announce => 4 | .management => 5 | .other => 6

/-- The configured interval of a message kind, where the image gives one. -/
def State.kindInterval (s : State) (i : Nat) : PtpKind → Option Nat
  | .sync | .followUp => some (s.syncInterval i)
  | .announce => some (s.announceInterval i)
  | .delayReq | .delayResp => some (s.delayInterval i)
  | _ => none

/-- The message comes at more than twice the configured rate of its kind: two of the kind have been accepted, from whatever senders,
within the configured interval that ends now. R31 names no time over which a rate is taken (DESIGN CHOICE, log entry 29). -/
def State.tooFast (s : State) (i : Nat) (k : PtpKind) : Bool :=
  match s.kindInterval i k with
  | some d => 2 ≤ ((s.inst i).lastRx.filter fun e => e.1 == ptpKindCode k && s.now < e.2 + d).length
  | none => false

/-- The arrivals kept for the rate check when a message of kind `k` is accepted: the last two of each kind. -/
def keepRx (k now : Nat) (l : List (Nat × Nat)) : List (Nat × Nat) :=
  (k, now) :: ((l.filter fun e => e.1 == k).take 1 ++ l.filter fun e => e.1 != k)

/-- Identity of the instance's own port: clockIdentity, with port number i + 1. -/
def ownMatches (i : Nat) (m : PtpMsg) : Bool := m.reqClockId == Config.clockIdentity i && m.reqPort == i + 1

/-- Why a message is discarded (R31): 1 to 6 in the rule's order; 0 for a message that Table 2-2 does not support. -/
def State.ptpDiscard (s : State) (i : Nat) (m : PtpMsg) : Option Nat :=
  if m.version ≠ 2 then some 1
  else if m.domain ≠ s.ptpField i 2 1 then some 2
  else if !m.lengthOk then some 3
  else if m.clockId = Config.clockIdentity i then some 4
  else if m.kind = .management ∨ m.kind = .other then some 0
  else if m.kind = .delayResp ∧ (ownMatches i m = false ∨ ((s.inst i).delayReqs.any fun r => r.1 == m.seq) = false) then some 5
  else if s.tooFast i m.kind then some 6
  else none

/-- Correction field in whole ns. -/
def PtpMsg.corr (m : PtpMsg) : Int := m.correction / 65536

/-- The foreign master that an Announce describes, with the earlier record of the same port identity. -/
def State.hear (s : State) (i source : Nat) (m : PtpMsg) : List ForeignMaster :=
  let window := 4 * s.announceInterval i
  let fresh := (s.inst i).foreign.filter fun f => s.now < f.lastAt + window
  let same (f : ForeignMaster) : Bool := f.clockId == m.clockId && f.portNumber == m.portNumber
  let n := match fresh.find? same with | some f => f.count + 1 | none => 1
  ⟨m.clockId, m.portNumber, m.dataset, source, s.now, n⟩ :: fresh.filter fun f => !same f

/-- The best foreign master with two Announce messages within 4 announce intervals. -/
def bestForeign (l : List ForeignMaster) : Option ForeignMaster :=
  (l.filter fun f => 2 ≤ f.count).foldl (fun b f => match b with
    | none => some f
    | some g => if lexLess f.key g.key then some f else b) none

/-- An accepted Announce at a follower: the BMCA chooses the parent (R26, slaveOnly). -/
def State.onAnnounce (s : State) (i source : Nat) (m : PtpMsg) : State :=
  let foreign := s.hear i source m
  let old := (s.inst i).parent
  let best := bestForeign foreign
  let same := match old, best with | some a, some b => a.clockId == b.clockId && a.portNumber == b.portNumber | _, _ => false
  let fromParent := match best with | some b => b.clockId == m.clockId && b.portNumber == m.portNumber | none => false
  let s := s.modInst i fun p => { p with foreign := foreign, announceAt := if fromParent then some s.now else p.announceAt }
  match best with
  | none => s
  | some b =>
    if same then (s.modInst i fun p => { p with parent := some b }).reselect
    else (s.modInst i fun p => { p with parent := some b, portState := 8, syncOk := false, lastSync := none, pendingSync := none }).reselect

/-- The message comes from the instance's parent. -/
def State.isParent (s : State) (i : Nat) (m : PtpMsg) : Bool :=
  match (s.inst i).parent with
  | some f => f.clockId == m.clockId && f.portNumber == m.portNumber
  | none => false

/-- An accepted Sync of the parent, one-step or two-step (R26). -/
def State.onSync (s : State) (i : Nat) (m : PtpMsg) : State :=
  if !s.isParent i m then s
  else
    let t2 := s.ptpNs
    let s := (s.count (R.ptp_RX_SYNC i)).modInst i fun p =>
      if m.twoStep then { p with syncAt := some s.now, syncOk := true, portState := 9, pendingSync := some (m.seq, t2, m.corr) }
      else { p with syncAt := some s.now, syncOk := true, portState := 9, lastSync := some (m.timestamp, t2 - m.corr), pendingSync := none }
    s.reselect

/-- The Follow_Up of a two-step Sync. -/
def State.onFollowUp (s : State) (i : Nat) (m : PtpMsg) : State :=
  match (s.inst i).pendingSync with
  | some (q, t2, c) =>
    if s.isParent i m ∧ q = m.seq then
      s.modInst i fun p => { p with lastSync := some (m.timestamp, t2 - c - m.corr), pendingSync := none }
    else s
  | none => s

/-- The Delay_Resp of an outstanding Delay_Req completes a sample; the delay asymmetry applies as IEEE 1588 prescribes
(R28). -/
def State.onDelayResp (s : State) (i : Nat) (m : PtpMsg) : State :=
  match (s.inst i).delayReqs.find? (fun r => r.1 == m.seq), (s.inst i).lastSync with
  | some (_, t3), some (t1, t2) =>
    let s := s.modInst i fun p => { p with delayReqs := p.delayReqs.filter fun r => r.1 != m.seq }
    let fwd := t2 - t1 - s.asym i
    let back := m.timestamp - m.corr - t3 + s.asym i
    let mpd := (fwd + back) / 2
    s.sample i ⟨fwd - mpd, mpd⟩
  | _, _ => s.modInst i fun p => { p with delayReqs := p.delayReqs.filter fun r => r.1 != m.seq }

/-- A leading instance is announcing: the servo is LOCKED, in QUARANTINE or in HOLDOVER (R30). -/
def State.ptpSends (s : State) (i : Nat) : Bool :=
  s.ptpRuns i && s.ptpLeads i && (s.servo.state == .locked || s.servo.state == .quarantine || s.servo.state == .holdover)

/-- FLAGS of an instance: IPV6 and HYBRID. -/
def State.ptpV6 (s : State) (i : Nat) : Bool := bit (s.ptpField i 7 1) 0
def State.ptpHybrid (s : State) (i : Nat) : Bool := bit (s.ptpField i 7 1) 1

/-- An instance sends a message from the address of its port (R27), multicast, or with hybrid mode unicast to `peer` (R26). -/
def State.ptpSend (s : State) (i : Nat) (peer : Option Nat) (log : Nat) (m : PtpMsg) : State :=
  let p := s.ptpField i 0 1
  let v6 := s.ptpV6 i
  let b := ptpPacket v6 (s.ownAddr p v6) (peer.getD (ptpGroup v6)) m peer.isSome log
  s.sendOther p (ipLine b.length) (.ptp i p b)

/-- The peer that hybrid mode addresses. -/
def State.ptpPeer (s : State) (i peer : Nat) : Option Nat := if s.ptpHybrid i then some peer else none

/-- A leading instance answers a Delay_Req; `source` is the requester's address. -/
def State.onDelayReq (s : State) (i source : Nat) (m : PtpMsg) : State :=
  if s.ptpSends i then
    s.ptpSend i (s.ptpPeer i source) (s.ptpField i 6 1)
      { kind := .delayResp, domain := m.domain, clockId := Config.clockIdentity i, portNumber := i + 1, seq := m.seq,
        timestamp := s.ptpNs, correction := m.correction, reqClockId := m.clockId, reqPort := m.portNumber }
  else s

/-- A PTP message of an instance (R26, R31): invalid messages are discarded and counted, one entry per instance per second at
most. -/
def State.ptpMessage (s : State) (i source : Nat) (msg : PtpMsg) : State :=
  if !s.ptpRuns i then s
  else match s.ptpDiscard i msg with
    | some reason =>
      (s.count (R.ptp_RX_INVALID i)).logRated F.PTP_RX_INVALID i (R.ptp i) 0
        (fun n => leBytes 1 i ++ leBytes 1 reason ++ leBytes 4 n)
    | none =>
      let s := s.modInst i fun p =>
        { p with lastRx := keepRx (ptpKindCode msg.kind) s.now p.lastRx }
      if s.ptpLeads i then (if msg.kind = .delayReq then s.onDelayReq i source msg else s)
      else match msg.kind with
        | .announce => s.onAnnounce i source msg
        | .sync => s.onSync i msg
        | .followUp => s.onFollowUp i msg
        | .delayResp => s.onDelayResp i msg
        | _ => s

/-- DELAY_REQ_TX (R26): a follower with a parent sends a Delay_Req at its interval. -/
def execDelayReqTx (inst : Fin 6) (s : State) : Out :=
  let i := inst.val
  let p := s.inst i
  if s.ptpRuns i ∧ s.ptpLeads i = false ∧ p.parent.isSome ∧ s.due (p.delayAt + s.delayInterval i) then
    let m : PtpMsg := { kind := .delayReq, domain := s.ptpField i 2 1, clockId := Config.clockIdentity i, portNumber := i + 1,
                        seq := p.nextSeq, timestamp := s.ptpNs }
    .next ((s.modInst i fun p => { p with delayAt := s.now, nextSeq := p.nextSeq + 1,
                                          delayReqs := p.delayReqs ++ [(p.nextSeq, s.ptpNs)] }).ptpSend i
      (s.ptpPeer i ((p.parent.map (·.address)).getD 0)) 0x7F m)
  else .next s

/-- SYNC_TIMEOUT (R29): no Sync for 3 sync intervals; the instance drops out of the selection. -/
def execSyncTimeout (inst : Fin 6) (s : State) : Out :=
  let i := inst.val
  match (s.inst i).syncAt with
  | some t =>
    if (s.inst i).syncOk ∧ s.due (t + 3 * s.syncInterval i) then .next (s.modInst i fun p => { p with syncOk := false }).reselect
    else .next s
  | none => .next s

/-- ANNOUNCE_TIMEOUT (R31): no Announce for 3 announce intervals; the instance leaves SLAVE. -/
def execAnnounceTimeout (inst : Fin 6) (s : State) : Out :=
  let i := inst.val
  match (s.inst i).announceAt with
  | some t =>
    if (s.inst i).parent.isSome ∧ s.due (t + 3 * s.announceInterval i) then
      .next (s.modInst i fun p => { p with parent := none, foreign := [], portState := 4, syncOk := false, lastSync := none,
                                           pendingSync := none, announceAt := none }).reselect
    else .next s
  | none => .next s

/-- QUARANTINE_EXPIRE (Table 2-4): 16 s without agreement; LOCKED with SUSPECT, or HOLDOVER when no source is left. -/
def execQuarantineExpire (s : State) : Out :=
  if s.servo.state = .quarantine ∧ s.due (s.servo.quarSince + sec 16) then
    if s.servo.source.isNone then .next s.toHoldover
    else
      let s := s.mapPtp fun _ x => { x with agreeRun := 0 }
      let s := (s.modServo fun v => { v with suspect := true }).event R.time_EVENTS 4
      .next ((s.log F.TIME_SUSPECT R.time (leBytes 1 (sourceCode s.servo.source) ++ leInt 4 s.servo.newOffset)).leaveQuarantine true)
  else .next s

/-- HOLD_LIMIT_REACHED (R34): HOLDOVER has lasted HOLD_LIMIT. -/
def execHoldLimitReached (s : State) : Out :=
  if s.servo.state = .holdover ∧ s.servo.holdLong = false ∧ s.due (s.servo.heldSince + sec s.holdLimit) then
    let held := (s.now - s.servo.heldSince) / sec 1
    .next (((s.modServo fun v => { v with holdLong := true }).event R.time_EVENTS 32).log F.TIME_HOLDOVER_LONG R.time (leBytes 4 held))
  else .next s

/-- LEADING_SYNC_TX (R30): one-step Sync with its timestamp inserted. -/
def execLeadingSyncTx (inst : Fin 6) (s : State) : Out :=
  let i := inst.val
  let p := s.inst i
  if s.ptpSends i ∧ s.due (p.leadSyncAt + s.syncInterval i) then
    let m : PtpMsg := { kind := .sync, domain := s.ptpField i 2 1, clockId := Config.clockIdentity i, portNumber := i + 1,
                        seq := p.syncSeq, timestamp := s.ptpNs }
    .next ((s.modInst i fun p => { p with leadSyncAt := s.now, syncSeq := p.syncSeq + 1 }).ptpSend i none (s.ptpField i 4 1) m)
  else .next s

/-- The dataset that a leading instance announces (R30). LOCKED to REF_IN it has no grandmaster to announce but itself. -/
def State.leadingDataset (s : State) (i : Nat) : PtpDataset :=
  let own : PtpDataset := { grandmaster := Config.clockIdentity i, priority1 := s.ptpField i 12 1,
                            clockClass := s.ptpField i 14 1, priority2 := s.ptpField i 13 1 }
  match s.servo.state, s.servo.source with
  | .locked, some (.ptp j) => (match (s.inst j).parent with
    | some f => { f.dataset with stepsRemoved := f.dataset.stepsRemoved + 1 }
    | none => own)
  | _, _ => own

/-- LEADING_ANNOUNCE_TX (R30). -/
def execLeadingAnnounceTx (inst : Fin 6) (s : State) : Out :=
  let i := inst.val
  let p := s.inst i
  if s.ptpSends i ∧ s.due (p.leadAnnAt + s.announceInterval i) then
    let m : PtpMsg := { kind := .announce, domain := s.ptpField i 2 1, clockId := Config.clockIdentity i, portNumber := i + 1,
                        seq := p.announceSeq, dataset := s.leadingDataset i }
    .next ((s.modInst i fun p => { p with leadAnnAt := s.now, announceSeq := p.announceSeq + 1 }).ptpSend i none (s.ptpField i 5 1) m)
  else .next s

/-- SUSPECT_CLR (R33). -/
def execSuspectClr (agent : Agent) (s : State) : Out :=
  let _ := agent
  if s.running then .next (s.modServo fun v => { v with suspect := false }) else .next s

/-- FORCE_HOLD (Table 2-13): while 1 the servo ignores all sources. -/
def execForceHold (agent : Agent) (on : Bool) (s : State) : Out :=
  let _ := agent
  if s.running then .next (s.setReg R.time_CTRL (w32 (b2n on))).reselect else .next s

/-- REF_IN_PPS_EDGE (R36, R37): the edge is stamped, less CABLE, and measured against the nearest whole second. An edge whose period
lies outside 12.5 % of 1 s belongs to a glitched window and is not used (R35). -/
def execRefInPpsEdge (s : State) : Out :=
  if s.running ∧ s.refMode = 2 then
    let t := s.ptpNs - s.refCable
    let off : Int := (t + 500000000) % 1000000000 - 500000000
    let period := s.now - s.refIn.lastEdgeAt
    let clean := 875000000 ≤ period && period ≤ 1125000000
    let st := s.stamp - BitVec.ofNat 64 (ticksAt s.mode s.refCable)
    let s : State := { s with refIn := { s.refIn with lastEdgeAt := s.now, edgeStamp := st } }
    if clean then
      let s := s.modServo fun v => { v with refOffset := off }
      if s.servo.source = some .refIn ∧ s.servo.state = .locked then
        .next (s.modServo fun v => { v with filtered := off, lastOffset := off, slewLeft := off * tbUnit }).judgeFar
      else .next s
    else .next s
  else .next s

/-- STAMP_LO_READ (R48): the low word of the current stamp; the high word is latched for the reader. -/
def execStampLoRead (agent : Agent) (s : State) : Out :=
  if s.running then
    let t := s.stamp
    .next ((s.setLatch agent R.time_STAMP_HI (t.extractLsb' 32 32)).answer (t.extractLsb' 0 32))
  else .next s

/-! ## Sections -/

/-- PTP_PORTS is installed: every instance starts afresh with its delay asymmetry (R28, R47). -/
def State.installPtpPorts (s : State) (p : List Byte) : State :=
  let n := le p 0 1
  ((List.range 6).foldl (fun s i =>
    (s.setInst i {}).setReg (R.ptp_ASYM_NS i) (if i < n then w32 (le p (4 + 16 * i + 8) 4) else 0)) s).reselect

/-- REF_IN is installed: the monitor starts anew, and its nominal period is that of the mode, in ps (R35, R36). -/
def State.installRefIn (s : State) (p : List Byte) : State :=
  let m := le p 0 1
  ({ s with refIn := { state := if m = 0 then .off else .acquiring, nominal := if m = 1 then 100000 else 1000000000000,
                       lastEdgeAt := s.now } } : State).reselect

/-! ## Registers (Tables 2-10 to 2-15) -/

/-- MODE. -/
def State.modeReg (s : State) : Word :=
  let p := s.payload 0x0101 0 1
  w32 (65536 * (if s.clock.seeded then s.ticks / 2 ^ 64 % 65536 else 0) + 16 * b2n s.clock.seeded + 8 * le p 0 1 + le p 1 1)

/-- SERVO. -/
def State.servoReg (s : State) : Word :=
  w32 (1024 * b2n s.refAssist + 512 * b2n s.servo.far + 256 * b2n s.servo.suspect + 16 * sourceCode s.servo.source +
    servoCode s.servo.state)

/-- HOLD_S. -/
def State.holdS (s : State) : Word :=
  if s.servo.state = .quarantine ∨ s.servo.state = .holdover then w32 (min 0xFFFFFFFF ((s.now - s.servo.heldSince) / sec 1)) else 0

/-- portState of an instance. -/
def State.ptpPortState (s : State) (i : Nat) : Nat :=
  if !s.ptpRuns i then 3 else if s.ptpLeads i then (if s.ptpSends i then 6 else 4) else (s.inst i).portState

/-- CFG of an instance. -/
def State.ptpCfg (s : State) (i : Nat) : Word :=
  if i < s.ptpCount then
    let f := s.ptpField i 7 1
    w32 (0x80000000 + 0x10000 * s.ptpField i 2 1 + 0x800 * b2n (bit f 1) + 0x400 * b2n (bit f 0) + 0x200 * s.ptpField i 3 1 +
      0x100 * s.ptpField i 1 1 + s.ptpField i 0 1)
  else 0

/-- STEPS_REMOVED of an instance. -/
def State.ptpSteps (s : State) (i : Nat) : Nat :=
  if s.ptpSends i then (s.leadingDataset i).stepsRemoved
  else if s.ptpRuns i && !s.ptpLeads i && (s.inst i).portState == 9 then
    (match (s.inst i).parent with | some f => f.dataset.stepsRemoved + 1 | none => 0)
  else 0

/-- STATUS of an instance. -/
def State.ptpStatus (s : State) (i : Nat) : Word :=
  w32 (256 * (s.ptpSteps i % 256) + 32 * b2n (s.ptpRuns i && (s.inst i).syncOk) + 16 * b2n (s.servo.source == some (.ptp i)) +
    s.ptpPortState i)

/-- clockIdentity of the parent's grandmaster. -/
def State.ptpGm (s : State) (i : Nat) : BitVec 64 :=
  match (s.inst i).parent with
  | some f => f.dataset.grandmaster
  | none => 0

end Sys2Proof.Machine
end

