-- ==== Sys2Proof/Machine/Lanes.lean ====
section
/-!
DEFINITION. Serial lanes, Ethernet ports and optics management buses (R85 to R105).
-/

namespace Sys2Proof.Machine

/-! ## Port and lane events -/

/-- Event bits of a port-group tile (Table 4-6); a management port raises PORT of the MDP block instead. -/
def State.groupEvent (s : State) (p bits : Nat) : State :=
  if p < 32 then s.event (R.pg_EVENTS (p / 8)) bits else s.event R.mdp_EVENTS 32

/-- Control address of a port's and of a lane's tile entry. -/
def portCtrl (p : Nat) : Nat := if p < 32 then R.pg (p / 8) else R.mp (p - 32)

/-- Log a class of Table 4-10 for a port: its data-path address is the port's; for M0 and M1 the data name the port (R341). -/
def State.portLog (s : State) (c : FaultClass) (p : Nat) (data : List Byte) : State :=
  if p < 32 then s.logOut c (portCtrl p) (dpAddr 1 p 0 0 0 0) [] data
  else s.log c (portCtrl p) (leBytes 1 p ++ data)

/-- Optics bus of a port, and the ports of a bus (R100). -/
def busOf (p : Nat) : Nat := if p < 32 then p / 8 else p - 28
def busPorts (b : Nat) : List Nat := if b < 4 then (List.range 8).map (8 * b + ·) else [b + 28]

/-- LINK_DOWNS of a port. -/
def linkDowns (p : Nat) : Nat := if p < 32 then R.port_LINK_DOWNS p else R.mp_LINK_DOWNS (p - 32)

/-- The pair-link port in use: PORT_A while it is UP, otherwise PORT_B (R102). -/
def State.pairPort (s : State) : Option Nat := s.pairPorts.find? fun p => (s.port p).state == .up

/-- A change of the pair-link port in use is logged when no port is left or one returns (R102). -/
def State.pairLinkMoved (s : State) (old : Option Nat) : State :=
  let a := (s.pairPorts.head?).getD 0
  match old, s.pairPort with
  | some _, none => (s.groupEvent a 32).portLog F.PAIR_LINK_DOWN a (s.pairPorts.flatMap fun p => leBytes 1 p)
  | none, some p => (s.groupEvent p 32).portLog F.PAIR_LINK_UP p (leBytes 1 p)
  | _, _ => s

/-! ## Bring-up (R88) -/

/-- An attempt may run: the port exists and is enabled, its tile is in service, a module is present, the group is not
leaving, and start-up has reached the ports. -/
def State.mayAttempt (s : State) (p : Nat) : Bool :=
  let x := s.port p
  s.running && s.portExists p && x.admin && !x.leaving && (s.optic (busOf p)).present &&
  (32 ≤ p || (6 ≤ s.startup.phase && s.inService 1 (p / 8)))

/-- Transmit taps of a lane's settings: PRE, MAIN, POST. -/
def State.tapTarget (s : State) (l : Nat) : Int × Int × Int :=
  let r := s.laneRecord l
  (signed 8 (le r 0 1), le r 1 1, signed 8 (le r 2 1))

/-- One try with a receiver preset (Table 4-2, step 1). -/
def State.startTry (s : State) (p preset : Nat) : State :=
  let s := s.modPort p fun x => { x with state := .bringup, preset := preset, step := 1, stepSince := s.now, faultAt := 0 }
  (s.lanesOf p).foldl (fun s l =>
    let t := s.tapTarget l
    (s.count (R.lane_BRINGUPS l)).modLane l fun x =>
      { x with state := .signal, preset := preset, signal := false, adapted := false, monitor := {},
               lowSince := none, badSince := none, taps := t, tapGoal := t }) s

/-- One attempt of a port. -/
def State.startAttempt (s : State) (p : Nat) : State :=
  let s := s.modPort p fun x => { x with attempts := x.attempts + 1, backoff := none, retryNow := false }
  let s := (s.lanesOf p).foldl (fun s l => s.modLane l fun x => { x with best := 0 }) s
  s.startTry p 0

/-- An attempt starts when one may run and none does. -/
def State.tryAttempt (s : State) (p : Nat) : State :=
  if s.mayAttempt p && (s.port p).state == .down then s.startAttempt p else s

/-- Step of Table 4-2 that a lane has reached. -/
def laneStep (l : Lane) : Nat :=
  match l.state with
  | .signal => 1 | .cdrLock => 2 | .adapting => 3 | .locked => 4 | _ => 0

/-- The port's step is that of its slowest lane; a new step begins now. -/
def State.portStep (s : State) (p : Nat) : State :=
  let n := ((s.lanesOf p).map fun l => laneStep (s.lane l)).foldl min 4
  if (s.port p).step < n then s.modPort p fun x => { x with step := n, stepSince := s.now } else s

/-- Limits of Table 4-2, in ms. -/
def stepLimit (p step : Nat) : Nat :=
  match step with
  | 1 => 5 | 2 => 2 | 3 => if p < 32 then 60 else 40 | 4 => if p < 32 then 20 else 5 | _ => 13

/-- The port is in a try whose step has not exceeded its limit: past the limit the try has failed (R88), and what its lanes do then
no longer counts. -/
def State.trying (s : State) (p : Nat) : Bool :=
  let x := s.port p
  x.state == .bringup && s.now ≤ x.stepSince + ms (stepLimit p x.step)

/-- The lane belongs to a port in such a try. -/
def State.bringing (s : State) (l : Nat) : Bool := s.trying (s.portOfLane l)

/-- LANE_SIGNAL_DETECT (Table 4-2, step 1). -/
def execLaneSignalDetect (lane : Fin 34) (s : State) : Out :=
  let l := lane.val
  if s.bringing l ∧ (s.lane l).state = .signal then
    .next ((s.modLane l fun x => { x with state := .cdrLock, signal := true,
                                          monitor := { state := .acquiring, lastEdgeAt := s.now } }).portStep (s.portOfLane l))
  else .next s

/-- The recovered clock of a lane is good: CDR_LOCK ends (step 2). -/
def State.laneClockGood (s : State) (l : Nat) : State :=
  if s.bringing l && (s.lane l).state == .cdrLock then
    (s.modLane l fun x => { x with state := .adapting, adaptSince := s.now }).portStep (s.portOfLane l)
  else s

/-- A new FOM of a lane, with the times that R91 and R92 measure. -/
def State.setFom (s : State) (l f : Nat) : State :=
  let m := s.fomMin l
  s.modLane l fun x => { x with
    fom := f, lowest := min x.lowest f, best := max x.best f
    lowSince := if f < m + 16 then some (x.lowSince.getD s.now) else none
    lowLogged := x.lowLogged && f < m + 24
    badSince := if f < m then some (x.badSince.getD s.now) else none }

/-- LANE_ADAPT_CONVERGED (step 3): the equaliser has converged. `fom` has the lowest FOM of the last 10 ms, all of which the
lane has spent adapting, and the FOM now: with FOM_MIN met over the 10 ms the lane becomes LOCKED. -/
def execLaneAdaptConverged (lane : Fin 34) (fom : FomRead) (s : State) : Out :=
  let l := lane.val
  if s.bringing l ∧ (s.lane l).state = .adapting then
    let s := s.setFom l fom.fom.toNat
    if s.fomMin l ≤ min fom.lowest.toNat fom.fom.toNat ∧ s.due ((s.lane l).adaptSince + ms 10) then
      .next ((s.modLane l fun x => { x with state := .locked, adapted := true }).portStep (s.portOfLane l))
    else .next s
  else .next s

/-- PCS_LOCK (step 4): alignment and FEC lock on all lanes of the port, which are LOCKED (Table 4-2). -/
def execPcsLock (port : Fin 34) (s : State) : Out :=
  let p := port.val
  if s.trying p ∧ (s.port p).step = 4 then .next (s.modPort p fun x => { x with step := 5, stepSince := s.now }) else .next s

/-- PORT_UP (step 5, R95): no local or remote fault for 1 ms; the port enters UP and its gap records go first. -/
def execPortUp (port : Fin 34) (s : State) : Out :=
  let p := port.val
  let x := s.port p
  if s.trying p ∧ x.step = 5 ∧ s.due (max x.stepSince x.faultAt + ms 1) then
    let old := s.pairPort
    let s := s.modPort p fun x => { x with
      state := .up, upSince := s.now, step := 0, retries := 0, attempts := 0, backoff := none, localFault := false, remoteFault := false, uncorr := []
      cleanSince := none }
    let s := (s.groupEvent p 1).portLog F.PORT_UP p (leBytes 4 x.attempts ++ leBytes 1 x.preset)
    .next (((s.pairLinkMoved old).sendGaps p).rejoinPort p)
  else .next s

/-- One lane is declared FAILED (R88). -/
def State.laneFailed (s : State) (p l : Nat) : State :=
  let s := ((s.count (R.lane_FAILS l)).modLane l fun x => { x with state := .failed }).groupEvent p 2
  s.portLog F.LANE_FAIL p (leBytes 1 l ++ leBytes 1 (s.lane l).best)

/-- An attempt has failed: FAILED lanes, then back-off (R88, R93). After an attempt that RETRY_NOW started the next retry is the one
that was due before. -/
def State.attemptFailed (s : State) (p : Nat) : State :=
  let ls := s.lanesOf p
  let bad := if ls.all (fun l => (s.lane l).adapted) then ls else ls.filter fun l => !(s.lane l).adapted
  let s := ls.foldl (fun s l => s.modLane l fun x => { x with state := .idle, signal := false }) s
  let s := bad.foldl (fun s l => s.laneFailed p l) s
  let x := s.port p
  let k := if x.retryNow then max 1 x.backoffK else x.backoffK + 1
  s.modPort p fun x => { x with state := .down, step := 0, retryNow := false, backoffK := k, backoff := some (k, s.now) }

/-- A try ends in failure: the next preset, or the end of the attempt (R88). -/
def State.tryFailed (s : State) (p : Nat) : State :=
  if (s.port p).preset < 3 then s.startTry p ((s.port p).preset + 1) else s.attemptFailed p

/-- BRINGUP_STEP_TIMEOUT (R88): a step has reached its limit. -/
def execBringupStepTimeout (port : Fin 34) (s : State) : Out :=
  let p := port.val
  let x := s.port p
  if x.state = .bringup ∧ s.due (x.stepSince + ms (stepLimit p x.step)) then .next (s.tryFailed p) else .next s

/-- Wait before the k-th retry: min(2^(k-1), 64) s (R93). -/
def backoffSec (k : Nat) : Nat := min (2 ^ (k - 1)) 64

/-- BACKOFF_RETRY (R93). -/
def execBackoffRetry (port : Fin 34) (s : State) : Out :=
  let p := port.val
  match (s.port p).backoff with
  | some (k, t) =>
    if s.due (t + sec (backoffSec k)) ∧ (s.port p).state = .down ∧ s.mayAttempt p then
      .next ((s.modPort p fun x => { x with retries := min 255 (x.retries + 1) }).startAttempt p)
    else .next s
  | none => .next s

/-! ## An UP port goes DOWN (R92, R94) -/

/-- Every enabled output on the port has an UP partner path, pair mode holds a standby, or the port carries none (R94). -/
def State.portCovered (s : State) (p : Nat) : Bool :=
  let outs := s.enabledOutputs.filter fun o => o.2.contains p
  (s.pairMode && s.pair.role == .active && s.pair.peerAt.isSome && !s.pair.silent) ||
  outs.all fun o => o.2.any fun q => q != p && (s.port q).state == .up

/-- Transmit taps of a lane now: on an UP port they move toward the settings by one unit per 10 us (R97). -/
def State.tapsNow (s : State) (l : Nat) : Int × Int × Int :=
  let x := s.lane l
  let n : Int := if (s.port (s.portOfLane l)).state = .up then ((s.now - x.tapAt) / 10000 : Nat) else 0
  let move (a b : Int) : Int := if a ≤ b then min b (a + n) else max b (a - n)
  (move x.taps.1 x.tapGoal.1, move x.taps.2.1 x.tapGoal.2.1, move x.taps.2.2 x.tapGoal.2.2)

/-- From now on the taps move from where they are toward new values; with their present values they stay. -/
def State.aimTaps (s : State) (l : Nat) (goal : Int × Int × Int) : State :=
  let t := s.tapsNow l
  s.modLane l fun x => { x with taps := t, tapAt := s.now, tapGoal := goal }

/-- An UP port goes DOWN with a cause of Table 4-10; its queue is discarded, its PTP instance is DISABLED, and an attempt
starts at once unless the cause is ADMIN, a removed module or LEAVE (R92 to R94, R97). -/
def State.portDown (s : State) (p cause : Nat) : State :=
  if (s.port p).state ≠ .up then s
  else
    let old := s.pairPort
    let long := (s.port p).upSince + sec 600 ≤ s.now
    let s := (s.lanesOf p).foldl (fun s l => s.aimTaps l (s.tapsNow l)) s
    let s := (s.count (linkDowns p)).modPort p fun x => { x with state := .down, backoffK := if long then 0 else x.backoffK,
                                                                 cleanSince := none }
    let s := (s.lanesOf p).foldl (fun s l => s.modLane l fun x => { x with state := .idle, signal := false }) s
    let sev := if 32 ≤ p || s.portCovered p then 2 else 3
    let s := (s.groupEvent p 1).portLog { F.PORT_DOWN with sev := sev } p (leBytes 1 cause)
    let s := ((s.dropQueue p).ptpPortDown p).pairLinkMoved old
    if cause = 6 ∨ cause = 7 ∨ cause = 9 then s else s.tryAttempt p

/-- The recovered clock of a LOCKED lane is lost (R90): an UP port goes DOWN at once, and a try in steps 3 to 5 has failed at once
(DEDUCED, log entry 33). -/
def State.cdrLoss (s : State) (l : Nat) : State :=
  if (s.lane l).state = .locked then
    let p := s.portOfLane l
    let s := ((s.count (R.lane_CDR_LOSSES l)).groupEvent p 16).portLog F.LANE_CDR_LOSS p (leBytes 1 l)
    if (s.port p).state = .bringup then s.tryFailed p else s.portDown p 1
  else s

/-- ADAPT_STEP (R91): a LOCKED lane that is not frozen steps its equaliser from a FOM to another; a step that would lower the
FOM by more than 2 is undone. A frozen lane is only monitored. -/
def execAdaptStep (lane : Fin 34) (before after : Byte) (s : State) : Out :=
  let l := lane.val
  if (s.lane l).state = .locked then
    let f := if (s.lane l).frozen ∨ after.toNat + 2 < before.toNat then before.toNat else after.toNat
    .next (s.setFom l f)
  else .next s

/-- LANE_LOW_FOM (R91). -/
def execLaneLowFom (lane : Fin 34) (s : State) : Out :=
  let l := lane.val
  let x := s.lane l
  match x.lowSince with
  | some t =>
    if x.state = .locked ∧ x.lowLogged = false ∧ s.due (t + ms 100) then
      let s := (s.modLane l fun x => { x with lowLogged := true }).groupEvent (s.portOfLane l) 4
      .next (s.portLog F.LANE_LOW_FOM (s.portOfLane l) (leBytes 1 l ++ leBytes 1 x.fom))
    else .next s
  | none => .next s

/-- FOM_BELOW_MIN (R92). -/
def execFomBelowMin (lane : Fin 34) (s : State) : Out :=
  match (s.lane lane.val).badSince with
  | some t =>
    if (s.lane lane.val).state = .locked ∧ s.due (t + ms 1) then .next (s.portDown (s.portOfLane lane.val) 2) else .next s
  | none => .next s

/-- PCS_ALIGNMENT_LOSS (R92). -/
def execPcsAlignmentLoss (port : Fin 34) (s : State) : Out := .next (s.portDown port.val 3)

/-- FEC_UNCORR_BURST (R92): uncorrectable codewords are counted; 16 or more within 1 ms take the port DOWN. A management
port has no FEC. -/
def execFecUncorrBurst (port : Fin 34) (codewords : Nat) (s : State) : Out :=
  let p := port.val
  if p < 32 ∧ (s.port p).state = .up then
    let recent := List.replicate (min 16 codewords) s.now ++ (s.port p).uncorr.filter fun t => s.now < t + ms 1
    let s := (s.countBy (R.port_FEC_UNCORR p) codewords).modPort p fun x => { x with uncorr := recent.take 16 }
    if 16 ≤ recent.length then .next (s.portDown p 4) else .next s
  else .next s

/-- LINK_FAULT_PERSIST (R92): a clause 81 fault has persisted for 1 ms. An UP port goes DOWN; in step 5 of a try the 1 ms without a
fault begins anew (Table 4-2). -/
def execLinkFaultPersist (port : Fin 34) (remote : Bool) (s : State) : Out :=
  let p := port.val
  let st := (s.port p).state
  if st = .up ∨ st = .bringup then
    let s := s.modPort p fun x => { x with
      localFault := x.localFault || !remote, remoteFault := x.remoteFault || remote, faultAt := s.now }
    .next (s.portDown p 5)
  else .next s

/-- FEC_DEGRADE (R92): at the end of a 1 s window, the symbols received, the codewords corrected and the symbols corrected on
each lane. -/
def execFecDegrade (port : Fin 34) (symbols codewords : Nat) (corrected : List Nat) (s : State) : Out :=
  let p := port.val
  if p < 32 ∧ (s.port p).state = .up then
    let total := corrected.sum
    let s := s.countBy (R.port_FEC_CORR p) codewords
    let s := ((s.lanesOf p).zip corrected).foldl (fun s e => s.countBy (R.lane_SYM_CORR e.1) e.2) s
    let clean := decide (total * 100000 < symbols)
    let since := if clean then some ((s.port p).cleanSince.getD (max (s.port p).upSince (s.now - sec 1))) else none
    let s := s.modPort p fun x => { x with cleanSince := since }
    if symbols < total * 10000 then
      let s := (s.modPort p fun x => { x with degraded := true }).groupEvent p 8
      .next (s.portLog F.FEC_DEGRADE p (leBytes 4 (total * 1000000000 / symbols)))
    else match since with
      | some t => if s.due (t + sec 10) then .next (s.modPort p fun x => { x with degraded := false }) else .next s
      | none => .next s
  else .next s

/-! ## Optics (R96, R100, R101) -/

/-- Log a class of a bus: the port concerned is the bus's lowest, whose data-path address it carries (DEDUCED, log entry 33). -/
def State.optLog (s : State) (c : FaultClass) (b : Nat) (data : List Byte) : State :=
  let p := (busPorts b).headD 0
  (s.groupEvent p 64).logOut c (R.opt b) (if p < 32 then dpAddr 1 p 0 0 0 0 else 0) [] data

/-- Stop what a port without a module is doing. -/
def State.moduleGone (s : State) (p : Nat) : State :=
  match (s.port p).state with
  | .up => s.portDown p 6
  | .bringup =>
    let s := (s.lanesOf p).foldl (fun s l => s.modLane l fun x => { x with state := .idle, signal := false }) s
    s.modPort p fun x => { x with state := .down, step := 0 }
  | _ => s

/-- The module of a bus is removed: its ports go DOWN and back-off is suspended. -/
def State.opticGone (s : State) (b : Nat) : State :=
  let s := s.modOptic b fun o => { o with present := false, ready := false, insertedAt := none }
  let s := (busPorts b).foldl (fun s p => if s.portExists p then s.moduleGone p else s) s
  s.optLog F.OPT_REMOVED b (leBytes 1 b)

/-- A module is inserted: the back-off interval returns to 1 s (R93). -/
def State.opticIn (s : State) (b : Nat) : State :=
  let s := s.modOptic b fun o => { o with present := true, ready := false, insertedAt := some s.now }
  let s := (busPorts b).foldl (fun s p => s.modPort p fun x => { x with backoff := none, backoffK := 0 }) s
  s.optLog F.OPT_INSERTED b (leBytes 1 b)

/-- OPT_REMOVED (R96). -/
def execOptRemoved (bus : Fin 6) (s : State) : Out :=
  if s.running ∧ (s.optic bus.val).present then .next (s.opticGone bus.val) else .next s

/-- OPT_INSERTED (R96). -/
def execOptInserted (bus : Fin 6) (s : State) : Out :=
  if s.running ∧ (s.optic bus.val).present = false then .next (s.opticIn bus.val) else .next s

/-- A newly inserted module is ready, or taken for ready: attempts start (R96). -/
def State.moduleReady (s : State) (b : Nat) : State :=
  let s := s.modOptic b fun o => { o with insertedAt := none }
  (busPorts b).foldl (fun s p => s.tryAttempt p) s

/-- OPT_MODULE_READY (R96): the module reports ready, or (`reported` false) 5 s have passed since its insertion. -/
def execOptModuleReady (event : ModuleReady) (s : State) : Out :=
  let b := event.bus.val
  match (s.optic b).insertedAt with
  | some t =>
    if s.running ∧ (s.optic b).present ∧ (event.reported = true ∨ s.due (t + sec 5)) then
      .next ((s.modOptic b fun o => { o with ready := event.reported }).moduleReady b)
    else .next s
  | none => .next s

/-- OPT_CTRL.POLL. -/
def State.optPolls (s : State) (b : Nat) : Bool := bit (s.reg (R.opt_OPT_CTRL b)).toNat 1

/-- Lowest of the received powers read. -/
def lowestPower (l : List (BitVec 16)) : BitVec 16 :=
  match l with
  | [] => 0
  | x :: r => r.foldl (fun a b => if b.toNat < a.toNat then b else a) x

/-- OPT_POLL (R100): every 100 ms presence, state, temperature, received power and alarm flags are read. A module that the poll finds
ready after its insertion starts its attempts (R96). INT is the level of OPT_INT_n that the poll reads (DEDUCED, log entry 33). -/
def execOptPoll (bus : Fin 6) (reading : OpticReading) (s : State) : Out :=
  let b := bus.val
  let o := s.optic b
  if s.running ∧ s.optPolls b ∧ o.stuck = false ∧ o.busy = false ∧ s.due (o.pollAt + ms 100) then
    let s := if reading.nack then s.count (R.opt_OPT_ERRORS b) else s
    let s := if reading.present = o.present then s else if reading.present then s.opticIn b else s.opticGone b
    let s := s.modOptic b fun o => { o with
      pollAt := s.now, nack := reading.nack, int := reading.int, alarm := !reading.flags.isEmpty, ready := reading.ready
      temp := reading.temp, rxPower := lowestPower reading.rxPower }
    let s := reading.flags.foldl (fun s f => s.optLog F.OPT_ALARM b (leBytes 1 b ++ leBytes 1 f)) s
    .next (if reading.ready && (s.optic b).present && (s.optic b).insertedAt.isSome then s.moduleReady b else s)
  else .next s

/-- OPT_CMD (R101): a host transaction; a second one while BUSY, or one on a disabled bus, is ignored and counted. -/
def execOptCmd (agent : Agent) (bus : Fin 6) (value : Word) (s : State) : Out :=
  let _ := agent
  let b := bus.val
  if !s.running then .next s
  else if (s.optic b).busy ∨ (s.optic b).stuck then .next (s.count (R.opt_OPT_ERRORS b))
  else .next (s.modOptic b fun o => { o with busy := true, cmd := value, result := 0 })

/-- OPT_CMD_DONE (R101): the transaction completes with an acknowledge or a NACK; a read brings its data. -/
def execOptCmdDone (bus : Fin 6) (ack : Bool) (data : Byte) (s : State) : Out :=
  let b := bus.val
  if (s.optic b).busy then
    let rd := bit (s.optic b).cmd.toNat 31 && ack
    let s := if ack then s else s.count (R.opt_OPT_ERRORS b)
    .next (s.modOptic b fun o => { o with
      busy := false, nack := !ack, result := w32 (0x80000000 + 0x40000000 * b2n (!ack) + (if rd then data.toNat else 0)) })
  else .next s

/-- OPT_SDA_STUCK (R101): nine clocks and a stop; the bus is disabled when OPT_SDA is still low. -/
def execOptSdaStuck (bus : Fin 6) (freed : Bool) (s : State) : Out :=
  let b := bus.val
  if s.running ∧ (s.optic b).stuck = false then
    let s := s.count (R.opt_OPT_ERRORS b)
    if freed then .next s
    else .next ((s.modOptic b fun o => { o with stuck := true, busy := false }).optLog F.OPT_BUS_STUCK b (leBytes 1 b))
  else .next s

/-- OPT_RESET_BUS (R101). -/
def execOptResetBus (agent : Agent) (bus : Fin 6) (s : State) : Out :=
  let _ := agent
  if s.running then .next (s.modOptic bus.val fun o => { o with stuck := false }) else .next s

/-! ## Writes of PORT_CTRL and LANE_CTRL (R92, R93, R98, R99) -/

/-- LOOP of a lane: in both near-end loops its transmit pins are at electrical idle (R98). -/
def State.setLoop (s : State) (l loop : Nat) : State :=
  let idle (n : Nat) : Bool := n == 1 || n == 2
  let s := if idle (s.lane l).loop = idle loop then s else s.send (.laneIdle l (idle loop))
  s.modLane l fun x => { x with loop := loop, state := if loop ≠ 0 then .loop else if x.state = .loop then .idle else x.state }

/-- PRBS of a lane: enabling a pattern clears PRBS_ERR (R99). -/
def State.setPrbs (s : State) (l prbs : Nat) : State :=
  s.modLane l fun x =>
    if prbs = 0 then { x with prbs := 0, prbsEnd := if x.prbs = 0 then x.prbsEnd else some s.now }
    else { x with prbs := prbs, prbsSince := s.now, prbsEnd := none }

/-- ADMIN of a port becomes 0. -/
def State.adminOff (s : State) (p : Nat) : State :=
  let s := s.portDown p 7
  let s := (s.lanesOf p).foldl (fun s l => s.modLane l fun x => { x with state := if x.state = .loop then .loop else .idle }) s
  s.modPort p fun x => { x with admin := false, state := .disabled, step := 0, backoff := none }

/-- ADMIN of a port becomes 1: LOOP and PRBS clear on its lanes and an attempt starts (R98). -/
def State.adminOn (s : State) (p : Nat) : State :=
  let s := (s.lanesOf p).foldl (fun s l => (s.setLoop l 0).setPrbs l 0) s
  let s := s.modPort p fun x => { x with admin := true, state := if x.state = .disabled then .down else x.state }
  s.tryAttempt p

/-- PORT_ADMIN: a write of PORT_CTRL.ADMIN of a media port; the value that it holds already changes nothing. -/
def execPortAdmin (agent : Agent) (port : Fin 32) (admin : Bool) (s : State) : Out :=
  let _ := agent
  if s.running ∧ s.portExists port.val ∧ (s.port port.val).admin ≠ admin then .next (if admin then s.adminOn port.val else s.adminOff port.val) else .next s

/-- RETRY_NOW (R93): an attempt at once when none is running; the back-off count does not change. -/
def execRetryNow (agent : Agent) (port : Fin 34) (s : State) : Out :=
  let _ := agent
  let p := port.val
  if s.mayAttempt p ∧ (s.port p).state = .down then .next ((s.startAttempt p).modPort p fun x => { x with retryNow := true })
  else .next s

/-- A write of LANE_CTRL that sets LOOP or PRBS while ADMIN is 1 is ignored and logged with the value written (R98). -/
def State.loopRefused (s : State) (l : Nat) (value : Word) : State :=
  s.portLog F.LOOP_REFUSED (s.portOfLane l) (leBytes 1 l ++ leBytes 4 value.toNat)

/-- LANE_CTRL of a lane (Table 4-8). -/
def laneCtrl (loop prbs : Nat) (freeze : Bool) : Word := w32 (16 * loop + 4 * prbs + b2n freeze)

/-- LANE_LOOP (R98): a write of LANE_CTRL that changes LOOP only. -/
def execLaneLoop (agent : Agent) (lane : Fin 34) (loop : Fin 4) (s : State) : Out :=
  let _ := agent
  let l := lane.val
  let x := s.lane l
  if !s.running then .next s
  else if loop.val ≠ 0 ∧ (s.port (s.portOfLane l)).admin then .next (s.loopRefused l (laneCtrl loop.val x.prbs x.frozen))
  else .next (s.setLoop l loop.val)

/-- LANE_PRBS (R99): a write of LANE_CTRL that changes PRBS only; the reserved value 3 is ignored. -/
def execLanePrbs (agent : Agent) (lane : Fin 34) (prbs : Fin 4) (s : State) : Out :=
  let _ := agent
  let l := lane.val
  let x := s.lane l
  if !s.running ∨ prbs.val = 3 then .next s
  else if prbs.val ≠ 0 ∧ (s.port (s.portOfLane l)).admin then .next (s.loopRefused l (laneCtrl x.loop prbs.val x.frozen))
  else .next (s.setPrbs l prbs.val)

/-- LANE_FREEZE (R91). -/
def execLaneFreeze (agent : Agent) (lane : Fin 34) (freeze : Bool) (s : State) : Out :=
  let _ := agent
  if s.running then .next (s.modLane lane.val fun x => { x with frozen := freeze }) else .next s

/-- FOM_READ (Table 4-6): LOWEST and CURRENT; LOWEST returns to 255. -/
def execFomRead (agent : Agent) (lane : Fin 34) (s : State) : Out :=
  let _ := agent
  let x := s.lane lane.val
  if s.running then .next ((s.modLane lane.val fun x => { x with lowest := 255 }).answer (w32 (256 * x.lowest + x.fom))) else .next s

/-! ## Commits (R97) -/

/-- A group's tile leaves service: every UP port goes DOWN with cause LEAVE and nothing runs until the join. -/
def State.groupLeave (s : State) (g : Nat) : State :=
  (busPorts g).foldl (fun s p =>
    (s.portDown p 9).modPort p fun x => { x with leaving := true, backoff := none, backoffK := 0, retries := 0, attempts := 0, step := 0,
                                                 state := if x.state = .bringup then .down else x.state }) s

/-- Registers that count for a lane or a port of a group. -/
def State.clearGroupCounts (s : State) (g : Nat) : State :=
  { s with regs := s.regs.filter fun e =>
      !((List.range 8).any fun i =>
        let l := R.lane (8 * g + i)
        let p := R.port (8 * g + i)
        (l + 0x10 ≤ e.1 && e.1 < l + 0x24) || (p + 8 ≤ e.1 && e.1 < p + 0x24)) }

/-- A group's tile joins service: counters clear, ports take ENABLE and the new mode's lanes start from nothing. -/
def State.groupJoin (s : State) (g : Nat) : State :=
  let s := s.clearGroupCounts g
  let s := (busPorts g).foldl (fun s l =>
    (s.setLoop l 0).setLane l { frozen := bit (le (s.laneRecord l) 3 1) 2, taps := s.tapTarget l, tapGoal := s.tapTarget l }) s
  let s := (busPorts g).foldl (fun s p =>
    let on := s.portExists p && bit (s.portField p 0 1) 0
    s.setPort p { admin := on, state := if on then .down else .disabled, joined := (s.port p).joined }) s
  (busPorts g).foldl (fun s p => s.tryAttempt p) s

/-- A group's tile rejoins with its old plane after an abandoned commit. -/
def State.groupRejoin (s : State) (g : Nat) : State :=
  (busPorts g).foldl (fun s p => (s.modPort p fun x => { x with leaving := false }).tryAttempt p) s

/-- A write of LANE_CTRL as a register (R98): refused as a whole, or LOOP, PRBS and FREEZE take their values. -/
def State.writeLaneCtrl (s : State) (l : Nat) (v : Word) : State :=
  let loop := v.toNat / 16 % 4
  let prbs := v.toNat / 4 % 4
  let sets := decide (loop ≠ 0) || prbs == 1 || prbs == 2
  if sets && (s.port (s.portOfLane l)).admin then s.loopRefused l v
  else
    let s := (s.modLane l fun x => { x with frozen := bit v.toNat 0 }).setLoop l loop
    if prbs = 3 then s else s.setPrbs l prbs

/-- Lanes of a group whose polarity bits differ between two LANE_SETTINGS payloads. -/
def flippedLanes (g : Nat) (old new : List Byte) : List Nat :=
  ((List.range 8).filter fun i => le old (8 * i + 3) 1 % 4 != le new (8 * i + 3) 1 % 4).map (8 * g + ·)

/-- LANE_SETTINGS is in force from this rennet point (R97): on an UP port the taps begin to move, a changed polarity takes the port
DOWN with one LANE_RETRAIN for each lane concerned and an attempt at once; elsewhere the values wait for the next try. -/
def State.installLaneSettings (s : State) (g : Nat) (old new : List Byte) : State :=
  let isUp (l : Nat) : Bool := (s.port (s.portOfLane l)).state == .up
  let retrain := (flippedLanes g old new).filter isUp
  let s := (List.range 8).foldl (fun s i =>
    let l := 8 * g + i
    let f := bit (le new (8 * i + 3) 1) 2
    let s := if bit (le old (8 * i + 3) 1) 2 = f then s else s.modLane l fun x => { x with frozen := f }
    if isUp l && (s.lane l).tapGoal != s.tapTarget l then s.aimTaps l (s.tapTarget l) else s) s
  let s := (retrain.map s.portOfLane).dedup.foldl (fun s p => s.portDown p 8) s
  retrain.foldl (fun s l => s.portLog F.LANE_RETRAIN (s.portOfLane l) (leBytes 1 l)) s

/-! ## Registers (Tables 4-6 to 4-9) -/

/-- GROUP_CFG. -/
def State.groupCfg (s : State) (g : Nat) : Word :=
  w32 (256 * b2n (s.pairPorts.any fun p => p / 8 == g) + s.groupMode g)

/-- GROUP_STATUS. -/
def State.groupStatus (s : State) (g : Nat) : Word :=
  w32 ((List.range 8).foldl (fun v i =>
    let x := s.port (8 * g + i)
    v + 2 ^ i * b2n (x.state == .up) + 256 * 2 ^ i * b2n x.degraded) 0)

/-- The checker of a lane has locked by time `t` onto the pattern enabled at `since` (R99; what the lane receives is open, log
entry 6). -/
def prbsLocked (l since t : Nat) : Bool := since + Config.prbsLockAfter l since < t

/-- Symbol errors that the checker counts in `n` ns after its lock. -/
def prbsCount (l since : Nat) : Nat → Nat
  | 0 => 0
  | n + 1 => prbsCount l since n + Config.prbsErrorsAt l since n

/-- PRBS_ERR (R99): the symbol errors counted since the checker locked, until now or the pattern's end; 0 before. -/
def State.prbsErr (s : State) (l : Nat) : Word :=
  let x := s.lane l
  let upTo (e : Nat) : Word := w32 (min 0xFFFFFFFF (prbsCount l x.prbsSince (e - x.prbsSince - Config.prbsLockAfter l x.prbsSince)))
  if x.prbs ≠ 0 then upTo s.now else match x.prbsEnd with
    | some e => upTo e
    | none => 0

/-- LANE_STATUS (Table 4-7). -/
def State.laneStatus (s : State) (l : Nat) : Word :=
  let x := s.lane l
  let st := match x.state with
    | .idle => 0 | .signal => 1 | .cdrLock => 2 | .adapting => 3 | .locked => 4 | .failed => 5 | .loop => 6
  w32 (512 * b2n x.frozen + 256 * b2n (x.prbs != 0 && prbsLocked l x.prbsSince s.now) + 128 * b2n x.signal + 32 * x.preset + st)

/-- TAPS. -/
def State.tapsReg (s : State) (l : Nat) : Word :=
  let t := s.tapsNow l
  let b (v : Int) : Nat := (v % 256).toNat
  w32 (65536 * b t.2.2 + 256 * b t.2.1 + b t.1)

/-- LANE_CTRL. -/
def State.laneCtrlReg (s : State) (l : Nat) : Word :=
  let x := s.lane l
  laneCtrl x.loop x.prbs x.frozen

/-- PORT_STATUS (Table 4-9). -/
def State.portStatus (s : State) (p : Nat) : Word :=
  let x := s.port p
  let st := match x.state with | .disabled => 0 | .down => 1 | .bringup => 2 | .up => 3
  let back := match x.backoff with | some (k, _) => backoffSec k | none => 0
  w32 (0x1000000 * back + 0x10000 * x.retries + 128 * b2n x.degraded + 64 * b2n (s.pairPort == some p) +
    32 * b2n ((s.lanesOf p).any fun l => (s.lane l).loop != 0) + 16 * b2n (!(s.optic (busOf p)).present) +
    8 * b2n x.remoteFault + 4 * b2n x.localFault + st)

/-- OPT_STATUS. -/
def State.optStatus (s : State) (b : Nat) : Word :=
  let o := s.optic b
  w32 (32 * b2n o.alarm + 16 * b2n o.nack + 8 * b2n o.busy + 4 * b2n o.stuck + 2 * b2n o.int + b2n o.present)

end Sys2Proof.Machine
end

