-- ==== Sys2Proof/Machine/Flow.lean ====
section
/-!
DEFINITION. The flow table and the descriptor rings (R107 to R114): entries and their keys, lookup, the FT_ operations on both
banks, multicast joins, and delivery to a ring.
-/

namespace Sys2Proof.Machine

/-! ## Entries and keys (R107, Table 5-1) -/

/-- The 34 key bytes of a flow; SRC counts 0 when SRC_ANY is set. -/
def keyBytes (dst src dport : Nat) (srcAny : Bool) : List Byte :=
  beBytes 16 dst ++ beBytes 16 (if srcAny then 0 else src) ++ leBytes 2 dport

/-- The two candidate indices of a key. -/
def keyH0 (k : List Byte) : Nat := crc32c k % 1048576
def keyH1 (k : List Byte) : Nat := crc32 k % 1048576

def FtEntry.key (e : FtEntry) : List Byte := keyBytes e.dst e.src e.dport e.srcAny

/-- An entry's bytes as Table 5-1 lays them out. -/
def readEntry (p : List Byte) : FtEntry :=
  { valid := bit (le p 34 1) 0, dst := be p 0 16, src := be p 16 16, dport := le p 32 2, srcAny := bit (le p 34 1) 1,
    pathB := bit (le p 34 1) 2, kind := le p 35 1, ports := le p 36 4, target := le p 40 2, pt := le p 42 1, ssrc := le p 44 4 }

def FtEntry.bytes (e : FtEntry) : List Byte :=
  beBytes 16 e.dst ++ beBytes 16 (if e.srcAny then 0 else e.src) ++ leBytes 2 e.dport ++
  leBytes 1 (b2n e.valid + 2 * b2n e.srcAny + 4 * b2n e.pathB) ++ leBytes 1 e.kind ++ leBytes 4 e.ports ++ leBytes 2 e.target ++
  leBytes 1 e.pt ++ [0] ++ leBytes 4 e.ssrc ++ leBytes 16 0

/-- An entry of a bank. -/
def bankGet (b : Sparse FtEntry) (i : Nat) : FtEntry := b.get (fun _ => {}) i
def bankPut (b : Sparse FtEntry) (i : Nat) (e : FtEntry) : Sparse FtEntry := b.put (fun _ => {}) i e

/-- The entry of a bank with this key: it lies at h0 or at h1. -/
def bankFind (b : Sparse FtEntry) (k : List Byte) : Option Nat :=
  let hit (i : Nat) : Bool := (bankGet b i).valid && (bankGet b i).key == k
  if hit (keyH0 k) then some (keyH0 k) else if hit (keyH1 k) then some (keyH1 k) else none

/-- Where a new entry with this key goes. -/
def bankRoom (b : Sparse FtEntry) (k : List Byte) : Option Nat :=
  if !(bankGet b (keyH0 k)).valid then some (keyH0 k) else if !(bankGet b (keyH1 k)).valid then some (keyH1 k) else none

/-- The flow of a packet: the specific key first, then the SRC_ANY key, each with the receiving port allowed (R107). -/
def State.flowLookup (s : State) (dst src dport port : Nat) : Option Nat :=
  let b := s.ft.bankOf s.ft.active
  let hit (any : Bool) (i : Nat) : Bool :=
    let e := bankGet b i
    e.valid && e.srcAny == any && e.key == keyBytes dst src dport any && bit e.ports port
  let try_ (any : Bool) : Option Nat :=
    let k := keyBytes dst src dport any
    if hit any (keyH0 k) then some (keyH0 k) else if hit any (keyH1 k) then some (keyH1 k) else none
  match try_ false with
  | some i => some i
  | none => try_ true

/-- An entry of the active bank has the packet's key, whatever its PORTS (R128). -/
def State.flowKnown (s : State) (dst src dport : Nat) : Bool :=
  let b := s.ft.bankOf s.ft.active
  [false, true].any fun any => match bankFind b (keyBytes dst src dport any) with
    | some i => (bankGet b i).srcAny == any
    | none => false

/-- Valid entries of a bank. -/
def bankEntries (b : Sparse FtEntry) : Nat := (b.filter fun e => e.2.valid).length

/-- Change an entry of the active bank. -/
def State.modEntry (s : State) (i : Nat) (f : FtEntry → FtEntry) : State :=
  s.modFt fun t => if t.active then { t with bank1 := bankPut t.bank1 i (f (bankGet t.bank1 i)) }
    else { t with bank0 := bankPut t.bank0 i (f (bankGet t.bank0 i)) }

/-- Change both banks, or only the active one: `shadow` says whether the shadow bank takes part (R111). -/
def FlowTable.modBank (t : FlowTable) (b : Bool) (f : Sparse FtEntry → Sparse FtEntry) : FlowTable :=
  if b then { t with bank1 := f t.bank1 } else { t with bank0 := f t.bank0 }

/-! ## Operations (R110, R111) -/

/-- The entry window of an agent. -/
def State.ftWindow (s : State) (g : Agent) : List Byte :=
  (List.range 16).flatMap fun i => leBytes 4 (s.latch g (R.ft_FT_DATA i)).toNat

/-- FT_RESULT of an agent. -/
def State.ftResult (s : State) (g : Agent) (code index : Nat) (both : Bool := false) : State :=
  (s.setLatch g R.ft_FT_RESULT (w32 (0x80000000 + 0x40000000 * b2n both + 0x1000000 * code + index))).event R.ft_EVENTS 1

/-- No room: code 1 (R110, R111). -/
def State.ftNoRoom (s : State) (g : Agent) (k : List Byte) (both : Bool) : State :=
  ((s.ftResult g 1 0 both).event R.ft_EVENTS 2).log F.FT_NO_ROOM R.ft
    (leBytes 4 (keyH0 k) ++ leBytes 4 (keyH1 k) ++ leBytes 1 (b2n both))

/-- A rebuild runs, its bank waits for the swap, or the copy runs: ADD and REMOVE act on both banks (R111). -/
def State.ftBoth (s : State) : Bool := s.ft.rebuilding.isSome || s.ft.rebuilt.isSome || s.ft.copying

/-- KINDs that host software and core firmware may add and remove. -/
def hostKind (k : Nat) : Bool := k == 3 || k == 4 || k == 5

/-- A bank with an entry added at a free index of its key; a bank that holds the key already stays, and none is full (R110). -/
def bankAdd (b : Sparse FtEntry) (e : FtEntry) : Option (Sparse FtEntry) :=
  if (bankFind b e.key).isSome then some b else (bankRoom b e.key).map fun i => bankPut b i e

/-- A bank without the key's entry, unless that entry is MEDIA or SURFACE (R110). -/
def bankRemove (b : Sparse FtEntry) (k : List Byte) : Sparse FtEntry :=
  match bankFind b k with
  | some i => if hostKind (bankGet b i).kind then bankPut b i {} else b
  | none => b

/-- Every port that PORTS names exists (R85). -/
def State.portsExist (s : State) (ports : Nat) : Bool := (List.range 32).all fun p => !bit ports p || s.portExists p

/-- FT_ADD (R110, R111): codes 0 OK, 1 NO_ROOM, 2 DUPLICATE, 4 KIND. The result is that of the active bank, but for a shadow bank
that has no room. -/
def execFtAdd (agent : Agent) (s : State) : Out :=
  if !(s.running && s.inService 1 8) then .next s
  else
    let e := { readEntry (s.ftWindow agent) with valid := true }
    let a := s.ft.bankOf s.ft.active
    let b := s.ft.bankOf (!s.ft.active)
    let shadow := if s.ftBoth then bankAdd b e else some b
    let withShadow (b : Sparse FtEntry) (s : State) : State := s.modFt fun t => t.modBank (!t.active) fun _ => b
    if !hostKind e.kind || !s.portsExist e.ports then .next (s.ftResult agent 4 0)
    else match bankFind a e.key, bankRoom a e.key, shadow with
      | some i, _, some b => .next ((withShadow b s).ftResult agent 2 i)
      | some i, _, none => .next (s.ftResult agent 2 i)
      | none, none, _ => .next (s.ftNoRoom agent e.key false)
      | none, some _, none => .next (s.ftNoRoom agent e.key true)
      | none, some i, some b =>
        let s := (withShadow b s).modFt fun t => t.modBank t.active fun a => bankPut a i e
        .next ((s.bankJoins [(i, e)]).foldl (fun s x => s.join x) (s.ftResult agent 0 i))

/-- FT_REMOVE (R110, R111): codes 0 OK, 3 NOT_FOUND, 4 KIND. The result is that of the active bank. -/
def execFtRemove (agent : Agent) (s : State) : Out :=
  if !(s.running && s.inService 1 8) then .next s
  else
    let e := readEntry (s.ftWindow agent)
    let a := s.ft.bankOf s.ft.active
    let both (s : State) : State :=
      let s := s.modFt fun t => t.modBank t.active fun b => bankRemove b e.key
      (if s.ftBoth then s.modFt fun t => t.modBank (!t.active) fun b => bankRemove b e.key else s).leaveUnneeded
    if e.kind = 1 ∨ e.kind = 2 then .next (s.ftResult agent 4 0)
    else match bankFind a e.key with
      | none => .next (both (s.ftResult agent 3 0))
      | some i =>
        if !hostKind (bankGet a i).kind then .next (s.ftResult agent 4 i)
        else .next (both (s.ftResult agent 0 i))

/-- The window, FT_PKTS and FT_DROPS show an entry. -/
def State.showEntry (s : State) (g : Agent) (i : Nat) : State :=
  let e := s.ftEntry i
  let s := (List.range 16).foldl (fun s j => s.setLatch g (R.ft_FT_DATA j) (w32 (le e.bytes (4 * j) 4))) s
  (s.setLatch g R.ft_FT_PKTS (w32 e.pkts)).setLatch g R.ft_FT_DROPS (w32 e.drops)

/-- FT_READ: the entry at FT_INDEX. -/
def execFtRead (agent : Agent) (s : State) : Out :=
  if !(s.running && s.inService 1 8) then .next s
  else
    let i := (s.latch agent R.ft_FT_INDEX).toNat % 1048576
    .next ((s.showEntry agent i).ftResult agent 0 i)

/-- FT_LOOKUP: finds the window's key. -/
def execFtLookup (agent : Agent) (s : State) : Out :=
  if !(s.running && s.inService 1 8) then .next s
  else match bankFind (s.ft.bankOf s.ft.active) (readEntry (s.ftWindow agent)).key with
    | none => .next (s.ftResult agent 3 0)
    | some i => .next ((s.showEntry agent i).ftResult agent 0 i)

/-- FT_COPY_DONE (R111): the background copy of the active bank has ended. The shadow bank holds the new active bank from the swap
on, so that an ADD or REMOVE during the copy meets it there. -/
def execFtCopyDone (s : State) : Out :=
  if s.ft.copying then .next (s.modFt fun t => { t with copying := false }) else .next s

/-- The bank that a FLOW_PLAN section describes (R129): records of 68 bytes from offset 16. -/
def planBank (p : List Byte) : Sparse FtEntry :=
  (List.range (le p 0 4)).foldl (fun b i =>
    let r := (p.drop (16 + 68 * i)).take 68
    bankPut b (le r 0 4 % 1048576) (readEntry (r.drop 4))) []

/-- FLOW_PLAN of the boot image goes straight into the active bank (R111). -/
def State.installFlowPlan (s : State) (p : List Byte) : State :=
  let b := planBank p
  (s.modFt fun t => { active := t.active, bank0 := if t.active then [] else b, bank1 := if t.active then b else [] }).joinBank b

/-- The rebuild of a FLOW_PLAN commit begins (R111). -/
def State.beginRebuild (s : State) (ticket : Nat) (p : List Byte) : State :=
  s.modFt fun t => { t.modBank (!t.active) (fun _ => planBank p) with rebuilding := some ticket }

/-- The commit has been abandoned or cancelled: its groups are left at once (R113). -/
def State.dropRebuild (s : State) (ticket : Nat) : State :=
  if s.ft.rebuilding = some ticket ∨ s.ft.rebuilt = some ticket then
    (s.modFt fun t => { t with rebuilding := none, rebuilt := none }).leaveUnneeded
  else s

/-! ## Descriptor rings (R114) -/

/-- Descriptors of an enabled ring. -/
def State.ringSlots (s : State) (n : Nat) : Nat :=
  let l := (s.reg (R.ring_RING_SIZE n)).toNat % 32
  if l = 0 then 0 else 2 ^ l

/-- Device address of a ring. -/
def State.ringBase (s : State) (n : Nat) : Nat :=
  (s.reg (R.ring_RING_BASE_LO n)).toNat + 2 ^ 32 * (s.reg (R.ring_RING_BASE_HI n)).toNat

/-- RING_ENABLE (R114): a write of RING_SIZE; while the ring is enabled only 0 is taken. -/
def execRingEnable (agent : Agent) (ring : Fin 64) (size : Word) (s : State) : Out :=
  let _ := agent
  let n := ring.val
  let l := size.toNat % 32
  if !(s.running && s.inService 1 8) then .next s
  else if l = 0 then .next (s.setReg (R.ring_RING_SIZE n) 0)
  else if s.ringSlots n ≠ 0 ∨ l < 4 ∨ 16 < l then .next s
  else .next ((s.setReg (R.ring_RING_SIZE n) (w32 l)).setReg (R.ring_RING_HEAD n) 0)

/-- A frame is delivered to a ring, with TRUNC also where its descriptor reads uncorrectable (R278), or discarded when RING_HEAD equals RING_TAIL (R114); the result says whether it was discarded. -/
def State.ringDeliver (s : State) (n flow port : Nat) (frame : List Byte) : State × Bool :=
  let slots := s.ringSlots n
  let head := (s.reg (R.ring_RING_HEAD n)).toNat
  let tail := (s.reg (R.ring_RING_TAIL n)).toNat
  if slots = 0 ∨ head = tail % slots then
    let s := (s.count (R.ring_RING_DROPS n)).event R.ft_EVENTS 4
    (s.logRated F.FT_RING_FULL n (R.ring n) 0 (fun k => leBytes 1 n ++ leBytes 4 k) false, true)
  else
    let d := s.ringBase n + 32 * head
    let buf := le (s.bytes d 8) 0 8
    let len := le (s.bytes (d + 8) 2) 0 2
    let cut := frame.take len
    let s := s.setBytes buf cut
    let s := s.setBytes (d + 10) (leBytes 2 frame.length)
    let s := s.setBytes (d + 12) (leBytes 4 (flow + 1048576 * port))
    let s := s.setBytes (d + 16) (leBytes 8 s.stamp.toNat)
    let s := s.setBytes (d + 24) (leBytes 4 (1 + 2 * b2n (len < frame.length || s.lineDead d)))
    (s.setReg (R.ring_RING_HEAD n) (w32 ((head + 1) % slots)), false)

/-- FT_STATUS. -/
def State.ftStatus (s : State) : Word :=
  w32 (0x80000000 * b2n s.ft.rebuilding.isSome + 0x40000000 * b2n s.ft.copying + 0x20000000 * b2n s.ft.active +
    bankEntries (s.ft.bankOf s.ft.active))

end Sys2Proof.Machine
end

