-- ==== Sys2Proof/Machine/Merge.lean ====
section
/-!
DEFINITION. The ST 2022-7 merge trackers (R117 to R120): sequence windows, duplicates, lost numbers and restarts.
-/

namespace Sys2Proof.Machine

/-- Difference of two 32-bit sequence numbers, signed (R117). -/
def seqDiff (a b : Nat) : Int := signed 32 ((a + 2 ^ 32 - b % 2 ^ 32) % 2 ^ 32)

/-- What the tracker makes of a packet. -/
inductive MergeAct where
  | forward
  /-- a first copy was seen before, with this payload CRC -/
  | duplicate (crc : Nat)
  /-- outside the window, discarded -/
  | window
  /-- the eighth packet of a new numbering: forwarded, the tracker restarts (R118) -/
  | restart (oldHigh : Nat)
  deriving DecidableEq, Repr

/-- A path has passed every missing number below `n`. -/
def Merge.passed (m : Merge) (pathB : Bool) (n : Nat) : Merge :=
  { m with missing := m.missing.map fun x =>
      if seqDiff x.seq n < 0 then (if pathB then { x with passedB := true } else { x with passedA := true }) else x }

/-- Seen numbers stay within 4,096 of H. -/
def Merge.trim (m : Merge) : Merge := { m with seen := m.seen.filter fun x => -4096 < seqDiff x.1 m.high,
                                               bad := m.bad.filter fun x => -4096 < seqDiff x.1 m.high
                                               gapsA := m.gapsA.filter fun x => 0 < seqDiff x.2 m.high
                                               gapsB := m.gapsB.filter fun x => 0 < seqDiff x.2 m.high }

/-- Run of consecutive out-of-window packets on a path: last number and count (R118). -/
def Merge.run (m : Merge) (pathB : Bool) : Nat × Nat := if pathB then m.runB else m.runA
def Merge.setRun (m : Merge) (pathB : Bool) (r : Nat × Nat) : Merge := if pathB then { m with runB := r } else { m with runA := r }

/-- A gap record names the number. -/
def inGap (g : List (Nat × Nat)) (n : Nat) : Bool := g.any fun x => decide (0 ≤ seqDiff n x.1 ∧ seqDiff n x.2 ≤ 0)

/-- A number that H passes now: gap records received before may have named it already (R117). -/
def Merge.newMissing (m : Merge) (n now : Nat) : Missing :=
  { seq := n, since := now, passedA := inGap m.gapsA n, passedB := inGap m.gapsB n }

/-- One packet with sequence number n and payload CRC (R117, R118). -/
def Merge.step (m : Merge) (pathB : Bool) (n crc now : Nat) : Merge × MergeAct :=
  if !m.started then ({ m with started := true, startAt := now, high := n, seen := [(n, crc)] }, .forward)
  else
    let d := seqDiff n m.high
    if 0 < d ∧ d ≤ 65536 then
      let gap := (List.range (d.toNat - 1)).map fun i => m.newMissing ((m.high + 1 + i) % 2 ^ 32) now
      ((({ m with high := n, seen := (n, crc) :: m.seen, missing := m.missing ++ gap }.trim).passed pathB n).setRun pathB (0, 0), .forward)
    else if -4096 < d ∧ d ≤ 0 then
      let m := (m.passed pathB n).setRun pathB (0, 0)
      match m.seen.find? fun x => x.1 == n with
      | some x => (m, .duplicate x.2)
      | none => ({ m with seen := (n, crc) :: m.seen, missing := m.missing.filter fun x => x.seq != n }, .forward)
    else
      let r := m.run pathB
      let k := if 0 < r.2 ∧ n = (r.1 + 1) % 2 ^ 32 then r.2 + 1 else 1
      if 8 ≤ k then
        ({ started := true, startAt := m.startAt, high := n, seen := [(n, crc)] }, .restart m.high)
      else (m.setRun pathB (n, k), .window)

/-- The tracker restarts at a packet: a rank change or a forgotten claim (R194). -/
def Merge.restartAt (m : Merge) (n crc now : Nat) : Merge :=
  { started := true, startAt := if m.started then m.startAt else now, high := n, seen := [(n, crc)] }

/-- Numbers FIRST to LAST count as passed on a path (R117, R143), those above H from when H passes them. -/
def Merge.gapRecord (m : Merge) (pathB : Bool) (first last : Nat) : Merge :=
  let m := if m.started && decide (seqDiff last m.high ≤ 0) then m
    else if pathB then { m with gapsB := (first, last) :: m.gapsB } else { m with gapsA := (first, last) :: m.gapsA }
  { m with missing := m.missing.map fun x =>
      if 0 ≤ seqDiff x.seq first ∧ seqDiff x.seq last ≤ 0 then
        (if pathB then { x with passedB := true } else { x with passedA := true }) else x }

/-- Missing numbers that are lost: passed on every path that is UP, or H passed them SKEW_US ago (R117). -/
def Merge.lost (m : Merge) (upA upB : Bool) (skew now : Nat) : List Missing :=
  m.missing.filter fun x => (x.passedA || !upA) && (x.passedB || !upB) || x.since + us skew ≤ now

/-- They leave the tracker. -/
def Merge.forget (m : Merge) (xs : List Missing) : Merge := { m with missing := m.missing.filter fun x => !(xs.contains x) }

/-- A packet of a path has arrived: the path is present (R120). -/
def PathWatch.seen (_ : PathWatch) (now : Nat) : PathWatch := { last := some now, ok := true, lost := false }

/-- A path delivers nothing for 10 ms while the other does (R120). -/
def PathWatch.silent (a b : PathWatch) (startAt now : Nat) : Bool :=
  !a.lost && (a.last.getD startAt) + ms 10 ≤ now && (match b.last with | some t => decide (now < t + ms 10) | none => false)

end Sys2Proof.Machine
end

