-- ==== Sys2Proof/Machine/Ingress.lean ====
section
/-!
DEFINITION. Inputs of the source role (R115 to R123): ST 2110-20 packets, frames, the cut-through depacketiser, input loss and
the liveness tiles.
-/

namespace Sys2Proof.Machine

/-! ## Ingress tiles -/

/-- Ingress tile of a channel: that of its INPUT_FORMATS record, otherwise that of its path-A port's group (R129). -/
def State.chanTile (s : State) (c : Nat) : Nat :=
  match (List.range 4).find? fun t => (s.inputFormat t c).isSome with
  | some t => t
  | none => match s.entryFor 1 c false with
    | some e => lowestPort e.2.ports / 8
    | none => 0

/-- Field of the channel's INPUT_FORMATS record; `d` without one. -/
def State.inputField (s : State) (c off n d : Nat) : Nat :=
  match s.inputFormat (s.chanTile c) c with
  | some r => le r off n
  | none => d

def State.gapUs (s : State) (c : Nat) : Nat := s.inputField c 4 2 20
def State.skewUs (s : State) (c : Nat) : Nat := s.inputField c 6 2 150

/-- The channel has a merge tracker: a path-B entry (R117). -/
def State.chanMerged (s : State) (c : Nat) : Bool := (s.entryFor 1 c true).isSome

/-- STRICT_SSRC of an ingress tile (Table 5-9). -/
def State.strictSsrc (s : State) (t : Nat) : Bool := bit (le (s.payload 0x0305 1 (4 + t)) 1 1) 0

/-- An entry that concerns a channel in an ingress tile. -/
def State.chanLog (s : State) (f : FaultClass) (c : Nat) (data : List Byte) (port : Option Nat := none) : State :=
  s.logOut f (R.ig (s.chanTile c)) (s.chanDp c 3 0 0 port) [(.channel c, 7)] data

/-- A packet of a channel is discarded under R128. -/
def State.violation (s : State) (f : FaultClass) (c flow port : Nat) (data : Nat → List Byte) : State :=
  let t := s.chanTile c
  (s.count (R.ig_VIOLATIONS t)).logRated f flow (R.ig t) (s.chanDp c 3 0 0 (some port)) data

/-! ## ST 2110-20 (Table 5-4) -/

/-- A sample row data header: length, row, offset, and whether another follows. -/
structure Srd where
  length : Nat
  row    : Nat
  offset : Nat
  deriving DecidableEq, Repr

/-- The sample row data headers of a payload, at most `n`; with the bytes that follow them. -/
def readSrds : Nat → List Byte → List Srd × List Byte
  | 0, p => ([], p)
  | n + 1, p =>
    if p.length < 6 then ([], p)
    else
      let x : Srd := ⟨be p 0 2, be p 2 2 % 32768, be p 4 2 % 32768⟩
      if bit (be p 4 2) 15 then
        let y := readSrds n (p.drop 6)
        (x :: y.1, y.2)
      else ([x], p.drop 6)

/-- What is wrong with the sample row data of a payload: row, offset and length of the first bad header (R128). -/
def srdBad (g : Geometry) : List Srd → Nat → Option Srd
  | [], _ => none
  | x :: r, left =>
    let (bytes, pixels) := pgroupOf g.fmt
    if g.height ≤ x.row ∨ x.length % bytes ≠ 0 ∨ x.offset % pixels ≠ 0 ∨ g.width < x.offset + x.length / bytes * pixels ∨ left < x.length then some x
    else srdBad g r (left - x.length)

/-- The samples of a pgroup in units (Table 6-10), from its samples in the order of the wire. -/
def pgroupUnits (fmt : Nat) (v : List Int) : List (List Int) :=
  let at_ (i : Nat) : Int := v.getD i 0
  match fmt % 4 with
  | 0 => [[at_ 1, at_ 3, at_ 0, at_ 2]]
  | 1 => (List.range (v.length / 3)).map fun i => [at_ (3 * i + 1), at_ (3 * i), at_ (3 * i + 2)]
  | _ => (List.range (v.length / 3)).map fun i => [at_ (3 * i + 1), at_ (3 * i + 2), at_ (3 * i)]

/-- `n` samples of `b` bits, most significant bit first. -/
def readSamples (b : Nat) : Nat → List Bool → List Int
  | 0, _ => []
  | n + 1, l => (ofBits (l.take b) : Nat) :: readSamples b n (l.drop b)

/-- The units of a run of pgroups. -/
def rowUnits (fmt : Nat) (p : List Byte) : List (List Int) :=
  let (bytes, pixels) := pgroupOf fmt
  let per := if fmt % 4 = 0 then 4 else 3 * pixels
  (List.range (p.length / bytes)).flatMap fun i =>
    pgroupUnits fmt (readSamples (depthOf fmt) per (bitsOf ((p.drop (i * bytes)).take bytes)))

/-! ## Liveness tiles (R123, Table 5-7) -/

/-- The record of tile Ti of a channel in the LIVENESS_TILES sections. -/
def State.livePlan (s : State) (c i : Nat) : Option (List Byte) :=
  (List.range 4).findSome? fun t =>
    (records (s.payload 0x0303 1 (4 + t)) 1 8).find? fun r => le r 0 1 == c && le r 1 1 % 4 == i

/-- A channel's tile memory. -/
def ChanIn.tile (x : ChanIn) (i : Nat) : LiveTile := match i with | 0 => x.tile0 | 1 => x.tile1 | 2 => x.tile2 | _ => x.tile3
def ChanIn.setTile (x : ChanIn) (i : Nat) (v : LiveTile) : ChanIn :=
  match i with
  | 0 => { x with tile0 := v } | 1 => { x with tile1 := v } | 2 => { x with tile2 := v } | _ => { x with tile3 := v }

/-- A unit at (row, column) enters the running CRCs of the tiles that hold it. -/
def State.liveUnit (s : State) (c row col : Nat) (unit : List Int) : State :=
  (List.range 4).foldl (fun s i =>
    match s.livePlan c i with
    | none => s
    | some r =>
      let size := 16 * le r 2 1
      if le r 4 2 ≤ col ∧ col < le r 4 2 + size ∧ le r 6 2 ≤ row ∧ row < le r 6 2 + size then
        s.modChIn c fun x =>
          let t := x.tile i
          x.setTile i { t with running := crcFeedR 0x82F63B78 t.running (sigMessage [unit]) }
      else s) s

/-- No tile of the channel is stale: its SOURCE_STALE cause has cleared. -/
def State.staleCheck (s : State) (c : Nat) : State :=
  if (List.range 4).any fun i => ((s.chIn c).tile i).stale then s else s.clearCause (.channel c) F.SOURCE_STALE.code

/-- A complete frame is compared with the last complete one (R123). -/
def State.liveCompare (s : State) (c : Nat) : State :=
  let g := s.chanTile c
  let s := (List.range 4).foldl (fun s i =>
    match s.livePlan c i with
    | none => s
    | some r =>
      let t := (s.chIn c).tile i
      let same := t.last == some t.running
      let t' : LiveTile := { t with last := some t.running, age := if same then min 255 (t.age + 1) else 0, stale := if same then t.stale else false }
      let act := bit (le r 1 1) 7
      if same && !t.stale && le r 3 1 ≤ t'.age then
        let s := (s.modChIn c fun x => x.setTile i { t' with stale := true }).event (R.ig_EVENTS g) 8
        let s := s.chanLog { F.SOURCE_STALE with sev := if act then 3 else 1 } c (leBytes 1 i ++ leBytes 4 t'.age)
        if act then s.goHarmless (.channel c) 4 F.SOURCE_STALE.code else s
      else
        let s := s.modChIn c fun x => x.setTile i t'
        if t.stale && !same then (s.event (R.ig_EVENTS g) 8).chanLog F.SOURCE_LIVE c (leBytes 1 i) else s) s
  s.staleCheck c

/-- A tile whose record has changed starts anew (DESIGN CHOICE, log 70). -/
def State.resetLive (s : State) (c i : Nat) : State := (s.modChIn c fun x => x.setTile i {}).staleCheck c

/-! ## The depacketiser (R121) -/

/-- Change the frame in progress. -/
def State.modFrameIn (s : State) (c : Nat) (f : FrameIn → FrameIn) : State :=
  s.modChIn c fun x => { x with frame := x.frame.map f }

/-- The channel codes the frame. -/
def State.coded (s : State) (c number : Nat) : Bool := (s.frameOf c number).isSome

/-- A stripe line is closed: every curd of it that lacks a pixel is coded as a VOID curd. -/
def State.closeStripeLine (s : State) (c : Nat) (line stripe : Nat) : State :=
  match (s.chIn c).frame with
  | none => s
  | some f =>
    let g := s.chanGeom c
    let lack (k : Nat) : Bool := match f.open_.find? fun x => x.line == line && x.stripe == stripe with
      | some x => x.missing.contains k || x.next < k * g.curd + g.pixels stripe k
      | none => true
    let ks := (List.range (g.curds stripe)).filter lack
    let t := s.chanTile c
    let s := s.modFrameIn c fun f => { f with
      open_ := f.open_.filter fun x => !(x.line == line && x.stripe == stripe)
      closed := (line, stripe) :: f.closed, broken := f.broken || !ks.isEmpty }
    ks.foldl (fun s k =>
      let s := (s.count (R.ch_CH_VOID_CURDS t c)).logRated F.CURD_INCOMPLETE c (R.ig t) (s.chanDp c 5 stripe k)
        (fun n => leBytes 2 line ++ leBytes 4 n)
      if s.coded c f.number then s.closeCurd c f.number line stripe k else s) s

/-- Every stripe line that ends before a raster position is closed. -/
def State.closeBefore (s : State) (c pos : Nat) : State :=
  match (s.chIn c).frame with
  | none => s
  | some f =>
    let g := s.chanGeom c
    let rows := (List.range g.height).filter fun y => f.frontier ≤ y * g.width + g.width - 1 && y * g.width < pos
    let s := rows.foldl (fun s y =>
      (List.range g.sw.length).foldl (fun s i =>
        let last := y * g.width + g.x0 i + g.sw.getD i 0 - 1
        let done := match (s.chIn c).frame with | some f => f.closed.contains (y, i) | none => true
        if f.frontier ≤ last && last < pos && !done then s.closeStripeLine c y i else s) s) s
    s.modFrameIn c fun f => { f with
      frontier := max f.frontier pos, begun := f.begun.filter fun y => pos < (y + 1) * g.width
      closed := f.closed.filter fun e => pos ≤ e.1 * g.width + g.x0 e.2 + g.sw.getD e.2 0 - 1 }

/-- One unit at (row, column) is placed, or discarded when its stripe line is closed or its stripe has been fed a later position; the
result says which. -/
def State.placeUnit (s : State) (c row col : Nat) (unit : List Int) : State × Bool :=
  match (s.chIn c).frame with
  | none => (s, false)
  | some f =>
    let g := s.chanGeom c
    let i := g.stripeOf col
    let x := col - g.x0 i
    let w := unitPixels (g.fmt % 4)
    let closed := f.closed.contains (row, i) || row * g.width + g.x0 i + g.sw.getD i 0 - 1 < f.frontier
    let line := f.open_.find? fun l => l.line == row && l.stripe == i
    let next := match line with | some l => l.next | none => 0
    let later := (f.open_.any fun l => l.stripe == i && row < l.line) || f.closed.any fun e => e.2 == i && row < e.1
    if closed || later || x < next then (s.modFrameIn c fun f => { f with broken := true }, false)
    else
      let newLine := !f.begun.contains row
      let s := if newLine && s.coded c f.number then s.reachLine c f.number row else s
      let skipped := (List.range (g.curds i)).filter fun k => next < x && next / g.curd ≤ k && k * g.curd < x
      let l : LineIn := match line with
        | some l => { l with next := x + w, missing := l.missing ++ skipped }
        | none => { line := row, stripe := i, next := x + w, missing := skipped }
      let full := decide (g.sw.getD i 0 ≤ l.next) && l.missing.isEmpty
      let s := s.modFrameIn c fun f => { f with
        placed := f.placed + w, lastRow := max f.lastRow row, begun := if newLine then row :: f.begun else f.begun
        open_ := (if full then [] else [l]) ++ f.open_.filter fun o => !(o.line == row && o.stripe == i)
        closed := if full then (row, i) :: f.closed else f.closed }
      let s := s.liveUnit c row col unit
      let before := (s.reg (R.cc_CC_OVERRUN (s.egOf c) c))
      let s := if s.coded c f.number then (s.proxyUnit c f.number row col unit).feedUnit c f.number row i (x / g.curd) (x % g.curd / w) unit else s
      let s := if s.reg (R.cc_CC_OVERRUN (s.egOf c) c) = before then s else s.modFrameIn c fun f => { f with broken := true }
      (s, true)

/-- A row of units from a column on; the result says whether any was discarded. -/
def State.placeRow (s : State) (c row : Nat) : Nat → List (List Int) → Bool → State × Bool
  | _, [], late => (s, late)
  | col, u :: r, late =>
    let y := s.placeUnit c row col u
    State.placeRow y.1 c row (col + unitPixels ((s.chanGeom c).fmt % 4)) r (late || !y.2)

/-- The pixels of a packet (R121). -/
def State.placePacket (s : State) (c : Nat) (srds : List Srd) (data : List Byte) : State :=
  let g := s.chanGeom c
  let first := match srds with | x :: _ => x.row * g.width + x.offset | [] => 0
  let s := (s.closeBefore c first).deal c true
  let y := srds.foldl (fun (y : State × Bool × List Byte) x =>
    let z := y.1.placeRow c x.row x.offset (rowUnits g.fmt (y.2.2.take x.length)) y.2.1
    (z.1, z.2, y.2.2.drop x.length)) (s, false, data)
  let s := y.1
  let t := s.chanTile c
  let s := if y.2.1 then s.count (if s.chanMerged c then R.ig_MERGE_LATE t else R.ig_VIOLATIONS t) else s
  (s.deal c false).settle c

/-! ## Frames (R116, R123) -/

/-- The frame in progress ends: with its marker bit, or interrupted (R112, R116, R118, R128). -/
def State.endFrameIn (s : State) (c : Nat) (marker : Bool) : State :=
  match (s.chIn c).frame with
  | none => s
  | some f =>
    let g := s.chanGeom c
    let s := s.closeBefore c (g.width * g.height)
    let whole := match (s.chIn c).frame with
      | some f => marker && !f.broken && f.placed == g.width * g.height
      | none => false
    let s := s.modChIn c fun x => { x with frame := none, lastRtp := some f.rtp }
    let s := if s.coded c f.number then s.endFrame c f.number else s
    if !whole then s
    else
      let t := s.chanTile c
      let s := s.count (R.ch_CH_FRAMES t c)
      let loss := (s.chIn c).lossStands
      let s := s.modChIn c fun x => { x with input := 1, lossStands := false }
      let s := if loss then
          ((s.event (R.ig_EVENTS t) 1).chanLog F.INPUT_RESTORED c (leBytes 4 f.number)).clearCause (.channel c) F.INPUT_LOSS.code
        else s
      s.liveCompare c

/-- A frame starts with a packet that carries a new RTP timestamp (R116). -/
def State.beginFrameIn (s : State) (c rtp : Nat) : State :=
  let s := s.frameSections c
  let number := s.nextFrame c rtp
  let s := s.startFrame c number rtp
  s.modChIn c fun x =>
    let x := { x with frame := some { rtp := rtp, number := number, startAt := s.now, startStamp := s.stamp }, lastStart := some s.now }
    (List.range 4).foldl (fun x i => x.setTile i { x.tile i with running := 0xFFFFFFFF }) x

/-- A packet of a frame is accepted: its time counts for input loss and for the gap rule. -/
def State.acceptMedia (s : State) (c : Nat) : State :=
  (s.count (R.ig_RX_PKTS (s.chanTile c))).modChIn c fun x => { x with lastAccept := some s.now, input := if x.input = 0 then 1 else x.input }

/-- An ST 2110-20 packet that the merge has forwarded; the result says whether its frame came too early. -/
def State.mediaFrame (s : State) (c flow port rtp : Nat) (marker : Bool) (srds : List Srd) (data : List Byte) : State × Bool :=
  let x := s.chIn c
  let t := s.chanTile c
  if x.dropRtp = some rtp then (s, true)
  else
    let old := x.lastRtp == some rtp && (match x.frame with | some f => f.rtp != rtp | none => true)
    let s := match x.frame with
      | some f => if f.rtp ≠ rtp ∧ !old then
          (s.violation F.ING_FRAME_SHORT c flow port (fun _ => leBytes 4 f.number ++ leBytes 2 f.lastRow)).endFrameIn c false
        else s
      | none => s
    let isNew := (s.chIn c).frame.isNone && !old
    let early := match x.lastStart with
      | some t => isNew && decide (10 * (s.now - t) < 9 * s.chanPeriod c)
      | none => false
    if early then
      let gap := ticksAt s.mode (s.now - x.lastStart.getD 0)
      (((s.modChIn c fun x => { x with dropRtp := some rtp }).count (R.ch_CH_RATE_DROPS t c)).logRated F.ING_RATE c (R.ig t)
        (s.chanDp c 3 0 0 (some port)) (fun _ => leBytes 8 gap) false, true)
    else
      let s := if isNew then s.beginFrameIn c rtp else s
      let s := s.acceptMedia c
      if old then (s.count (if s.chanMerged c then R.ig_MERGE_LATE t else R.ig_VIOLATIONS t), false)
      else
        let s := s.placePacket c srds data
        (if marker then s.endFrameIn c true else s, false)

/-- Numbers that are lost leave the tracker of a channel and are counted (R117). -/
def State.chanLost (s : State) (c : Nat) : State :=
  let m := (s.chIn c).merge
  let up (b : Bool) : Bool := match s.entryFor 1 c b with
    | some e => (List.range 32).any fun p => bit e.2.ports p && (s.port p).state == .up
    | none => false
  let lost := m.lost (up false) (up true) (s.skewUs c) s.now
  (s.modChIn c fun x => { x with merge := x.merge.forget lost }).countBy (R.ig_MERGE_LOST (s.chanTile c)) lost.length

/-- A packet of a path has arrived (R120): the path is present, and its loss ends once neither path is lost. -/
def State.chanPath (s : State) (c : Nat) (pathB : Bool) : State :=
  let s := s.modChIn c fun x => if pathB then { x with pathB := x.pathB.seen s.now } else { x with pathA := x.pathA.seen s.now }
  if (s.chIn c).pathA.lost || (s.chIn c).pathB.lost then s else s.clearCause (.channel c) F.MERGE_PATH_LOSS.code

/-- A packet of a MEDIA flow (R115 to R121, R128); the result says whether it was discarded. -/
def State.mediaPacket (s : State) (flow port : Nat) (e : FtEntry) (p : List Byte) : State × Bool :=
  let c := e.target
  let t := s.chanTile c
  if !s.hasSection 0x0401 4 (0x10 + c) then (s, true)
  else
    let b0 := le p 0 1
    let pt := le p 1 1 % 128
    let marker := bit (le p 1 1) 7
    let rtp := be p 4 4
    let ssrc := be p 8 4
    let hl := 12 + 4 * (b0 % 16)
    let hl := if bit b0 4 then hl + 4 + 4 * be p (hl + 2) 2 else hl
    let body := p.drop hl
    let seq := be body 0 2 * 65536 + be p 2 2
    let want := if e.ssrc ≠ 0 then some e.ssrc else if s.strictSsrc t then e.learned else none
    if b0 / 64 ≠ 2 ∨ p.length < 14 then (s.violation F.ING_RTP_BAD c flow port (fun n => leBytes 1 1 ++ leBytes 4 n), true)
    else if e.pt ≠ 0 ∧ pt ≠ e.pt then (s.violation F.ING_RTP_BAD c flow port (fun n => leBytes 1 2 ++ leBytes 4 n), true)
    else if want.isSome && want != some ssrc then
      (s.violation F.ING_SSRC c flow port (fun _ => leBytes 4 (want.getD 0) ++ leBytes 4 ssrc), true)
    else
      let g := s.chanGeom c
      let (srds, data) := readSrds 3 (body.drop 2)
      let bad : Option Srd := match srds with
        | [] => some ⟨0, 0, 0⟩
        | _ => srdBad g srds data.length
      match bad with
      | some x => (s.violation F.ING_SRD_BAD c flow port (fun _ => leBytes 2 x.row ++ leBytes 2 x.offset ++ leBytes 2 x.length), true)
      | none =>
        let s := if e.ssrc = 0 ∧ s.strictSsrc t ∧ e.learned.isNone then s.modEntry flow fun e => { e with learned := some ssrc } else s
        let s := s.chanPath c e.pathB
        if !s.chanMerged c then s.mediaFrame c flow port rtp marker srds data
        else
          let y := (s.chIn c).merge.step e.pathB seq (crc32c body) s.now
          let s := (s.modChIn c fun x => { x with merge := y.1 }).chanLost c
          match y.2 with
          | .forward => s.mediaFrame c flow port rtp marker srds data
          | .duplicate _ => (s.count (R.ig_MERGE_DUP t), true)
          | .window => (s.count (R.ig_VIOLATIONS t), true)
          | .restart old =>
            let s := s.chanLog F.ING_SEQ_JUMP c (leBytes 4 old ++ leBytes 4 seq) (some port)
            (s.endFrameIn c false).mediaFrame c flow port rtp marker srds data

/-! ## Time-outs -/

/-- INPUT_LOSS_TIMEOUT (R116): no packet of an enabled channel has been accepted for 2 declared frame periods. -/
def execInputLossTimeout (channel : Fin 48) (s : State) : Out :=
  let c := channel.val
  let x := s.chIn c
  let since := max x.watchFrom (x.lastAccept.getD 0)
  if s.chanOn c ∧ s.startup.gateOpen ∧ x.lossStands = false ∧ s.due (since + 2 * s.chanPeriod c) then
    let last := match x.frame with | some f => f.number | none => (s.chan c).lastFrame
    let s := (s.modChIn c fun x => { x with lossStands := true, input := 2 }).event (R.ig_EVENTS (s.chanTile c)) 1
    .next ((s.chanLog F.INPUT_LOSS c (leBytes 4 last)).goHarmless (.channel c) 3 F.INPUT_LOSS.code)
  else .next s

/-- STRIPE_GAP_TIMEOUT (R121): GAP_US without a packet closes every stripe line that has received a pixel. -/
def execStripeGapTimeout (channel : Fin 48) (s : State) : Out :=
  let c := channel.val
  match (s.chIn c).frame, (s.chIn c).lastAccept with
  | some f, some t =>
    if s.due (t + us (s.gapUs c)) then
      .next ((f.open_.reverse.foldl (fun s l => s.closeStripeLine c l.line l.stripe) s).settle c)
    else .next s
  | _, _ => .next s

/-- The MEDIA entries of a channel have changed at a swap: its frame in progress is interrupted (R112). -/
def State.mediaChanged (s : State) (c : Nat) : State :=
  ((s.endFrameIn c false).modChIn c fun x => { x with merge := {}, pathA := {}, pathB := {} }).clearCause (.channel c) F.MERGE_PATH_LOSS.code

/-! ## Registers (Table 5-10) -/

/-- CH_STATUS. -/
def State.chStatus (s : State) (c : Nat) : Word :=
  let x := s.chIn c
  let bits (f : Nat → Bool) : Nat := (List.range 4).foldl (fun v i => v + 2 ^ i * b2n (f i)) 0
  w32 (0x1000 * bits (fun i => (x.tile i).stale) + 0x100 * bits (fun i => (s.livePlan c i).isSome) +
    8 * b2n x.pathB.ok + 4 * b2n x.pathA.ok + x.input)

/-- CH_TILE_AGE. -/
def State.chTileAge (s : State) (c : Nat) : Word :=
  w32 ((List.range 4).foldl (fun v i => v + 256 ^ i * ((s.chIn c).tile i).age) 0)

end Sys2Proof.Machine
end

