-- ==== Sys2Proof/Machine/Surface.lean ====
section
/-!
DEFINITION. Surfaces of the wall role (R119, R124 to R128, R156, R157, R194, R284): the checks on curd packets, the claim filter,
the slots and their versions, and the closing of frames.
-/

namespace Sys2Proof.Machine

/-! ## The plan of a surface (Table 5-8) -/

/-- A SURFACE_PLAN record with its ingress tile. -/
structure SurfPlan where
  tile    : Nat
  channel : Nat
  geom    : Geometry
  stripes : Nat
  slotBytes : Nat
  region  : Nat
  skewUs  : Nat
  offset  : Nat
  closeMs : Nat
  deriving DecidableEq, Repr

/-- The plan that a record spells. -/
def surfPlanOf (t : Nat) (r : List Byte) : SurfPlan :=
  { tile := t, channel := le r 2 1, stripes := le r 9 1, slotBytes := le r 20 2, region := le r 22 1, skewUs := le r 23 1,
    offset := le r 24 4, closeMs := le r 28 2,
    geom := { width := le r 4 2, height := le r 6 2, fmt := le r 8 1, curd := le r 10 2,
              sw := (List.range (le r 9 1)).map fun i => le r (12 + 2 * i) 2 } }

/-- The plan of a surface in force. -/
def State.surfPlan (s : State) (n : Nat) : Option SurfPlan := (s.surfacePlan n).map fun x => surfPlanOf x.1 x.2

/-- The surface has a path-B entry and so a merge tracker (R117). -/
def State.surfMerged (s : State) (n : Nat) : Bool := (s.entryFor 2 n true).isSome

/-- Data-path address of a surface: it ends at the flow (R131). DESIGN CHOICE (log 70): of a merged surface's two flows the path-A
entry is named, with its lowest port, for an entry about either path; the spec names no flow for it. -/
def State.surfDp (s : State) (n : Nat) : Nat :=
  match s.entryFor 2 n false with
  | some e => dpAddr 2 (lowestPort e.2.ports) e.1 0 0 0
  | none => 0

/-- An entry about a surface. -/
def State.surfLog (s : State) (f : FaultClass) (p : SurfPlan) (n : Nat) (data : List Byte) : State :=
  s.logOut f (R.ig p.tile) (s.surfDp n) [] data

/-! ## Versions (R124 to R127) -/

/-- Frame a of a surface is closed: the newest closed frame is a or newer (R126). -/
def Surface.isClosed (x : Surface) (frame : Nat) : Bool :=
  match x.closed with
  | some c => !newer32 frame c
  | none => false

/-- The version of a slot tagged with a frame. -/
def SlotPair.tagged (p : SlotPair) (frame : Nat) : Option Version :=
  match p.a, p.b with
  | some v, _ => if v.frame = frame then some v else p.b.bind fun w => if w.frame = frame then some w else none
  | none, some w => if w.frame = frame then some w else none
  | none, none => none

/-- R125 over one slot: the pair afterwards, or none when the curd is older than both versions. A frame that is already tagged
leaves the pair as it is. -/
def SlotPair.write (p : SlotPair) (v : Version) : Option SlotPair :=
  if (p.tagged v.frame).isSome then some p
  else match p.a, p.b with
    | none, _ => some { p with a := some v, undo := none }
    | some _, none => some { p with b := some v, undo := none }
    | some x, some y =>
      let aOlder := newer32 y.frame x.frame
      let old := if aOlder then x else y
      if newer32 v.frame old.frame then
        some (if aOlder then { p with a := some v, undo := some x } else { p with b := some v, undo := some y })
      else none

/-- The newest version whose frame is at most S (R127). -/
def SlotPair.newest (p : SlotPair) (snap : Nat) : Option Version :=
  let ok (v : Option Version) : Option Version := v.bind fun x => if newer32 x.frame snap then none else some x
  match ok p.a, ok p.b with
  | some x, some y => if newer32 y.frame x.frame then some y else some x
  | some x, none => some x
  | none, y => y

/-- Change the frame of a surface that is not closed yet; it is opened by its first packet. -/
def Surface.modFrame (x : Surface) (number : Nat) (f : SurfFrame → SurfFrame) : Surface :=
  if x.frames.any fun e => e.number == number then
    { x with frames := x.frames.map fun e => if e.number = number then f e else e }
  else { x with frames := x.frames ++ [f { number := number }] }

/-- A slot of a surface. -/
def Surface.slot (x : Surface) (i : Nat) : SlotPair := x.slots.get (fun _ => {}) i
def Surface.setSlot (x : Surface) (i : Nat) (v : SlotPair) : Surface := { x with slots := x.slots.put (fun _ => {}) i v }

/-- A received curd is written, or discarded (R125). -/
def Surface.writeCurd (x : Surface) (i frame now : Nat) (v : Version) : Surface :=
  if x.isClosed frame then { x with late := min 0xFFFFFFFF (x.late + 1) }
  else
    let pair := x.slot i
    let x := x.modFrame frame fun e => { e with firstAt := some (e.firstAt.getD now) }
    if (pair.tagged frame).isSome then x
    else match pair.write v with
      | none => { x with late := min 0xFFFFFFFF (x.late + 1) }
      | some q => (x.setSlot i q).modFrame frame fun e => { e with written := i :: e.written }

/-! ## Closing (R126, R157) -/

/-- The closure writes VOID into the slots that the frame should have brought, or of whose line it brought nothing. -/
def Surface.voidMissing (x : Surface) (g : Geometry) (e : SurfFrame) : Surface :=
  (List.range g.height).foldl (fun x line =>
    let bits := e.lines.find? fun l => l.line == line
    g.positions.foldl (fun x (s, k) =>
      let i := g.position line s k
      let coded := match bits with | some l => bit (l.coded.getD s 0) k | none => true
      if coded && !e.written.contains i then
        if ((x.slot i).tagged e.number).isSome then x
        else match (x.slot i).write { frame := e.number, void := true } with
          | some q => { x.setSlot i q with voids := min 0xFFFFFFFF (x.voids + 1) }
          | none => { x with late := min 0xFFFFFFFF (x.late + 1) }
      else x) x) x

/-- Frames between the newest closed one and a number: frames of which no packet came (R126). -/
def Surface.between (x : Surface) (number : Nat) : List Nat :=
  match x.closed with
  | some c =>
    if newer32 number c then (List.range ((number + 2 ^ 32 - c % 2 ^ 32) % 2 ^ 32 - 1)).map fun i => (c + 1 + i) % 2 ^ 32 else []
  | none => []

/-- One frame is closed, after the frames before it of which no packet came: READY, INVALID and what the frame-close said follow
only its own frame-close. -/
def Surface.closeOne (x : Surface) (g : Geometry) (now : Nat) (e : SurfFrame) : Surface :=
  let x := ((x.between e.number).foldl (fun x n => x.voidMissing g { number := n }) x).voidMissing g e
  let x := { x with frames := x.frames.filter fun f => f.number != e.number, closed := some e.number }
  if e.closeGot then
    let x := { x with geomOk := true, v := e.v, rateN := e.rateN, rateD := e.rateD }
    let newer := match x.ready with | some r => newer32 e.number r | none => true
    let x := if newer then { x with ready := some e.number, readyAt := now } else x
    if x.invalid && newer32 e.number x.eovFrame then { x with invalid := false } else x
  else x

/-- Frames of the list up to and including a number, oldest first. -/
def Surface.upTo (x : Surface) (number : Nat) : List SurfFrame :=
  let fs := x.frames.filter fun e => !newer32 e.number number
  fs.foldl (fun l e => (l.takeWhile fun y => !newer32 y.number e.number) ++ [e] ++ (l.dropWhile fun y => !newer32 y.number e.number)) []

/-- Every open frame up to a number is closed, oldest first. -/
def State.closeSurface (s : State) (p : SurfPlan) (n number : Nat) : State :=
  let s := s.modSurface n fun x => (x.upTo number).foldl (fun x e => x.closeOne p.geom s.now e) x
  s.event (R.ig_EVENTS p.tile) 16

/-- Every open frame is closed without its frame-close (R194). -/
def State.interruptSurface (s : State) (p : SurfPlan) (n : Nat) : State :=
  s.modSurface n fun x =>
    (x.frames.foldl (fun (m : Option Nat) e => match m with
      | none => some e.number
      | some a => if newer32 e.number a then some e.number else m) none).elim x fun last =>
        (x.upTo last).foldl (fun x e => x.closeOne p.geom s.now { e with closeGot := false }) x

/-- SURFACE_FRAME_CLOSE (R126): SKEW_US after the closing trigger of a frame. -/
def execSurfaceFrameClose (surface frame : Nat) (s : State) : Out :=
  match s.surfPlan surface, (s.surface surface).frames.find? fun e => e.number == frame with
  | some p, some e => match e.trigger with
    | some t => if s.due (t + us p.skewUs) then .next (s.closeSurface p surface frame) else .next s
    | none => .next s
  | _, _ => .next s

/-- SURFACE_CLOSE_TIMEOUT (R126): CLOSE_MS since the first curd of a frame without a frame-close; the frame closes SKEW_US later. -/
def execSurfaceCloseTimeout (surface frame : Nat) (s : State) : Out :=
  match s.surfPlan surface, (s.surface surface).frames.find? fun e => e.number == frame with
  | some p, some e => match e.trigger, e.firstAt with
    | none, some t =>
      if s.due (t + ms p.closeMs) then
        let s := s.modSurface surface fun x => x.modFrame frame fun e => { e with trigger := some s.now }
        .next ((s.event (R.ig_EVENTS p.tile) 16).surfLog F.SURF_CLOSE_TIMEOUT p surface (leBytes 2 surface ++ leBytes 4 frame))
      else .next s
    | _, _ => .next s
  | _, _ => .next s

/-- SURFACE_WRITE_TIMEOUT (R284): a write has not entered the queue within 500 ns of its packet's last byte; its tag is never
written and the slot keeps what it held. -/
def execSurfaceWriteTimeout (group : Fin 4) (surface slot frame : Nat) (s : State) : Out :=
  let x := s.surface surface
  let pair := x.slot slot
  match x.frames.find? fun e => e.number == frame with
  | some e =>
    if e.written.contains slot ∧ (pair.tagged frame).isSome then
      let q : SlotPair := if pair.a.map (·.frame) = some frame then { a := pair.undo, b := pair.b } else { a := pair.a, b := pair.undo }
      let s := s.modSurface surface fun x => (x.setSlot slot q).modFrame frame fun e => { e with written := e.written.filter fun i => i != slot }
      .next (((s.count R.mem_WRITE_DROPS).event R.mem_EVENTS 128).logRated F.MEM_WRITE_DROP group.val R.mem 0 (fun n => leBytes 1 group.val ++ leBytes 4 n) false)
    else .next s
  | none => .next s

/-- The frame in progress is interrupted: the slots stay, and curds are written from the next frame start on (R112, R118). -/
def Surface.hold (x : Surface) : Surface :=
  { x with holdFrom := x.frames.foldl (fun (m : Option Nat) e => match m with
      | none => some e.number
      | some a => if newer32 e.number a then some e.number else m) x.closed }

/-! ## The claim filter (R135, R194) -/

/-- X is the higher claim. -/
def claimHigher (x y : Nat) : Bool :=
  let d := signed 12 ((x / 16 + 4096 - y / 16) % 4096)
  0 < d || (d == 0 && y % 16 < x % 16)

/-- CLAIM_FORGET (R194): no packet accepted for FORGET_MS. -/
def execClaimForget (surface : Nat) (s : State) : Out :=
  let x := s.surface surface
  let forget := if s.hasSection 0x0501 4 8 then s.claimField 4 2 else 2000
  match x.claim, x.lastAt with
  | some _, some t =>
    if s.due (t + ms forget) then .next (s.modSurface surface fun x => { x with claim := none, merge := {} }) else .next s
  | _, _ => .next s

/-! ## Curd packets (R156, Tables 5-5, 6-1 to 6-9) -/

/-- A packet of a surface's flow is discarded under R128. -/
def State.surfViolation (s : State) (f : FaultClass) (p : SurfPlan) (flow port : Nat) (data : Nat → List Byte) : State :=
  (s.count (R.ig_VIOLATIONS p.tile)).logRated f flow (R.ig p.tile) (dpAddr 2 port flow 0 0 0) data

/-- CURD_BAD: reason 1 version or kind, 2 channel, 3 outside the geometry, 4 too long. -/
def State.curdBad (s : State) (p : SurfPlan) (n flow port reason line index : Nat) : State :=
  s.surfViolation F.CURD_BAD p flow port fun _ => leBytes 2 n ++ leBytes 1 reason ++ leBytes 2 line ++ leBytes 1 index

/-- Lost numbers leave the tracker; those of which only bad copies came are CHECK_FAIL (R117, R119). -/
def State.surfLost (s : State) (p : SurfPlan) (n : Nat) : State :=
  let m := (s.surface n).merge
  let up (b : Bool) : Bool := match s.entryFor 2 n b with
    | some e => (List.range 32).any fun i => bit e.2.ports i && (s.port i).state == .up
    | none => false
  let lost := m.lost (up false) (up true) p.skewUs s.now
  let s := (s.modSurface n fun x => { x with merge := x.merge.forget lost }).countBy (R.ig_MERGE_LOST p.tile) lost.length
  lost.foldl (fun s x => if m.bad.any fun e => e.1 == x.seq then s.surfLog F.CHECK_FAIL p n (leBytes 4 x.seq) else s) s

/-- The records of a CURD body: header and record bytes; none when a record does not fit into the packet (R139). -/
def curdRecords : Nat → List Byte → Option (List (CurdHead × List Byte))
  | 0, _ => none
  | _, [] => some []
  | f + 1, p =>
    if p.length < 6 then none
    else
      let h := readHead p
      if p.length < 6 + h.length then none
      else (curdRecords f (p.drop (6 + h.length))).map fun r => (h, p.take (6 + h.length)) :: r

/-- The first header of a CURD body that a receiver refuses: its CURD_BAD reason, line and index (Table 5-5). -/
def badRecord (p : SurfPlan) (rs : List (CurdHead × List Byte)) : Option (Nat × Nat × Nat) :=
  rs.findSome? fun (h, r) =>
    if p.geom.height ≤ h.line ∨ p.stripes ≤ h.stripe ∨ p.geom.curds h.stripe ≤ h.index then some (3, h.line, h.index)
    else if p.slotBytes < r.length then some (4, h.line, h.index)
    else none

/-- The geometry that a frame-close body repeats is that of the plan (R141). -/
def sameGeometry (p : SurfPlan) (b : List Byte) : Bool :=
  be b 0 2 == p.geom.width && be b 2 2 == p.geom.height && be b 4 1 % 16 == p.geom.fmt % 16 && be b 5 1 == p.stripes &&
  be b 6 2 == p.geom.curd && (List.range 4).all fun i => be b (8 + 2 * i) 2 == p.geom.sw.getD i 0

/-- An accepted packet of a surface, by its kind (R156 step 5). -/
def State.surfRecords (s : State) (p : SurfPlan) (n flow port kind frame : Nat) (body : List Byte) : State × Bool :=
  let held : Bool := match (s.surface n).holdFrom with | some h => !newer32 frame h | none => false
  let s := if held then s else s.modSurface n fun x => { x with holdFrom := none }
  let done (s : State) : State × Bool := (s.count (R.ig_RX_PKTS p.tile), false)
  match kind with
  | 1 =>
    match curdRecords (body.length + 1) body with
    | none => (s.curdBad p n flow port 4 (readHead body).line (readHead body).index, true)
    | some rs => match badRecord p rs with
      | some (r, l, i) => (s.curdBad p n flow port r l i, true)
      | none =>
        if held then done s
        else done (s.modSurface n fun x => rs.foldl (fun x (h, r) =>
          x.writeCurd (p.geom.position h.line h.stripe h.index) frame s.now { frame := frame, void := h.void, record := r }) x)
  | 2 =>
    let line := be body 0 2 % 8192
    if p.geom.height ≤ line then (s.curdBad p n flow port 3 line 0, true)
    else if (s.surface n).isClosed frame ∨ held then done s
    else done (s.modSurface n fun x => x.modFrame frame fun e =>
      if e.lines.any fun l => l.line == line then e
      else { e with lines := ⟨line, (List.range 4).map fun i => be body (4 + 8 * i) 8⟩ :: e.lines })
  | 3 =>
    if (s.surface n).isClosed frame then done s
    else if !sameGeometry p body then done ((s.modSurface n fun x => { x with geomOk := false }).event (R.ig_EVENTS p.tile) 16)
    else done (s.modSurface n fun x =>
        let x := x.modFrame frame fun e =>
          { e with closeGot := true, v := be body 16 1, rateN := be body 18 2, rateD := be body 20 2 }
        { x with frames := x.frames.map fun e =>
            if e.trigger.isNone ∧ !newer32 e.number frame then { e with trigger := some s.now } else e })
  | _ =>
    done ((s.modSurface n fun x => { x with invalid := true, eovFrame := frame }).event (R.ig_EVENTS p.tile) 16)

/-- A packet of a SURFACE flow (R119, R156); the result says whether it was discarded. -/
def State.surfacePacket (s : State) (flow port : Nat) (e : FtEntry) (q : List Byte) : State × Bool :=
  let n := e.target
  match s.surfPlan n with
  | none => (s, true)
  | some p =>
    let t := p.tile
    let m := q.length - 4
    let seqOf := be q 20 4
    let merged := s.surfMerged n
    let crc := crc32c ((q.take m).drop 12)
    if q.length < 36 ∨ crc32c (q.take m) ≠ be q m 4 then
      let s := (s.count (R.ig_CHECK_FAIL t)).event (R.ig_EVENTS t) 2
      if !merged then (s.surfLog F.CHECK_FAIL p n (leBytes 4 seqOf), true)
      else
        let good := (s.surface n).merge.seen.find? fun x => x.1 == seqOf
        match good with
        | some g =>
          if g.2 = crc then ((s.count (R.ig_CHECK_ONLY t)).surfLog F.CHECK_ONLY p n (leBytes 4 seqOf ++ leBytes 1 (b2n e.pathB)), true)
          else (s, true)
        | none => (s.modSurface n fun x => { x with merge := { x.merge with bad := (seqOf, crc) :: x.merge.bad } }, true)
    else
      let b0 := le q 0 1
      let pt := le q 1 1 % 128
      let ssrc := be q 8 4
      let kind := be q 12 1 % 16
      let claim := be q 14 2
      let frame := be q 16 4
      let seq := be q 20 4
      let body := (q.take m).drop 32
      let want := if e.ssrc ≠ 0 then some e.ssrc else if s.strictSsrc t then e.learned else none
      if b0 ≠ 0x80 then (s.surfViolation F.ING_RTP_BAD p flow port (fun k => leBytes 1 1 ++ leBytes 4 k), true)
      else if e.pt ≠ 0 ∧ pt ≠ e.pt then (s.surfViolation F.ING_RTP_BAD p flow port (fun k => leBytes 1 2 ++ leBytes 4 k), true)
      else if want.isSome && want != some ssrc then
        (s.surfViolation F.ING_SSRC p flow port (fun _ => leBytes 4 (want.getD 0) ++ leBytes 4 ssrc), true)
      else if be q 12 1 / 16 ≠ 1 ∨ kind = 0 ∨ 5 < kind then (s.curdBad p n flow port 1 0 0, true)
      else if be q 13 1 ≠ p.channel then (s.curdBad p n flow port 2 0 0, true)
      else
        let s := if e.ssrc = 0 ∧ s.strictSsrc t ∧ e.learned.isNone then s.modEntry flow fun e => { e with learned := some ssrc } else s
        let old := (s.surface n).claim
        let low := match old with | some c => claimHigher c claim | none => false
        if low then
          (s.surfViolation F.CLAIM_LOW p flow port (fun _ => leBytes 2 n ++ leBytes 2 claim ++ leBytes 2 (old.getD 0)), true)
        else
          let rank := match old with | some c => c % 16 != claim % 16 | none => false
          let s := s.modSurface n fun x => { x with claim := some claim, lastAt := some s.now }
          let s := if rank then
              ((s.interruptSurface p n).modSurface n fun x => { x with merge := {} }).surfLog F.CLAIM_CHANGE p n
                (leBytes 2 n ++ leBytes 2 (old.getD 0) ++ leBytes 2 claim)
            else s
          let s := s.modSurface n fun x => if e.pathB then { x with pathB := x.pathB.seen s.now } else { x with pathA := x.pathA.seen s.now }
          if !merged then
            if kind = 5 then (s.count (R.ig_RX_PKTS t), false) else s.surfRecords p n flow port kind frame body
          else
            if kind = 5 then
              (((s.modSurface n fun x => { x with merge := x.merge.gapRecord e.pathB (be body 0 4) (be body 4 4) }).surfLost p n).count
                (R.ig_RX_PKTS t), false)
            else
              let y := (s.surface n).merge.step e.pathB seq crc s.now
              let kept := ((s.surface n).merge.bad.find? fun x => x.1 == seq).map (·.2)
              let s := (s.modSurface n fun x => { x with merge := y.1 }).surfLost p n
              match y.2 with
              | .duplicate _ => (s.count (R.ig_MERGE_DUP t), true)
              | .window => (s.count (R.ig_VIOLATIONS t), true)
              | .restart high =>
                let s := (s.surfLog F.ING_SEQ_JUMP p n (leBytes 4 high ++ leBytes 4 seq)).modSurface n Surface.hold
                s.surfRecords p n flow port kind frame body
              | .forward =>
                let s := s.modSurface n fun x => { x with merge := { x.merge with bad := x.merge.bad.filter fun b => b.1 != seq } }
                let s := if kept = some crc then
                    (s.count (R.ig_CHECK_ONLY t)).surfLog F.CHECK_ONLY p n (leBytes 4 seq ++ leBytes 1 (b2n e.pathB))
                  else s
                s.surfRecords p n flow port kind frame body

/-- The SURFACE entries of a surface have changed at a swap (R112). -/
def State.surfaceChanged (s : State) (n : Nat) : State :=
  s.modSurface n fun x => { x.hold with merge := {}, pathA := {}, pathB := {} }

/-! ## Merge time-outs of both roles (R117, R119, R120) -/

/-- MERGE_SKEW_TIMEOUT: SKEW_US has elapsed since H first passed a number. -/
def execMergeSkewTimeout (flow : FlowId) (seq : Nat) (s : State) : Out :=
  match flow with
  | .channel c =>
    match (s.chIn c).merge.missing.find? fun x => x.seq == seq with
    | some x => if s.due (x.since + us (s.skewUs c)) then .next (s.chanLost c) else .next s
    | none => .next s
  | .surface n =>
    match s.surfPlan n, (s.surface n).merge.missing.find? fun x => x.seq == seq with
    | some p, some x => if s.due (x.since + us p.skewUs) then .next (s.surfLost p n) else .next s
    | _, _ => .next s

/-- PATH_SILENCE_TIMEOUT (R120): one path of a merged flow has delivered nothing for 10 ms while the other delivers. -/
def execPathSilenceTimeout (flow : FlowId) (pathB : Bool) (s : State) : Out :=
  match flow with
  | .channel c =>
    let x := s.chIn c
    let silent := if pathB then x.pathB.silent x.pathA x.merge.startAt s.now else x.pathA.silent x.pathB x.merge.startAt s.now
    if s.chanMerged c ∧ silent then
      let off (w : PathWatch) : PathWatch := { w with ok := false, lost := true }
      let s := s.modChIn c fun x => if pathB then { x with pathB := off x.pathB } else { x with pathA := off x.pathA }
      .next ((s.event (R.ig_EVENTS (s.chanTile c)) 4).chanLog F.MERGE_PATH_LOSS c (leBytes 1 (b2n pathB)))
    else .next s
  | .surface n =>
    let x := s.surface n
    let silent := if pathB then x.pathB.silent x.pathA x.merge.startAt s.now else x.pathA.silent x.pathB x.merge.startAt s.now
    match s.surfPlan n with
    | some p =>
      if s.surfMerged n ∧ silent then
        let off (w : PathWatch) : PathWatch := { w with ok := false, lost := true }
        let s := s.modSurface n fun x => if pathB then { x with pathB := off x.pathB } else { x with pathA := off x.pathA }
        .next ((s.event (R.ig_EVENTS p.tile) 4).surfLog F.MERGE_PATH_LOSS p n (leBytes 1 (b2n pathB)))
      else .next s
    | none => .next s

/-! ## Registers (Table 5-10) -/

/-- The surface that an agent has selected, when it is planned in this tile. -/
def State.selSurface (s : State) (g : Agent) (t : Nat) : Option Nat :=
  let n := (s.latch g (R.surf_SURF_SEL t)).toNat % 512
  match s.surfPlan n with
  | some p => if p.tile = t then some n else none
  | none => none

/-- SURF_STATE. -/
def State.surfState (s : State) (g : Agent) (t : Nat) : Word :=
  match s.selSurface g t with
  | some n =>
    let x := s.surface n
    w32 (0x80000000 + 0x40000000 * b2n x.invalid + 0x20000000 * b2n x.pathB.ok + 0x10000000 * b2n x.pathA.ok + x.claim.getD 0)
  | none => 0

/-- IG_STATUS: merge trackers in use. -/
def State.igStatus (s : State) (t : Nat) : Word :=
  let cs := (List.range 48).filter fun c => s.chanMerged c && s.chanTile c == t && (s.chIn c).merge.started
  let ss := s.surfaces.filter fun e => e.2.merge.started && (match s.surfPlan e.1 with | some p => p.tile == t | none => false)
  w32 (cs.length + ss.length)

end Sys2Proof.Machine
end

