-- ==== Sys2Proof/Machine/PairLink.lean ====
section
/-!
DEFINITION. Pair-link and witness datagrams (R102, R206, R207, R209): their bytes, how the module sends them, how it checks what it
receives, and how it asks the witness.
-/

namespace Sys2Proof.Machine

/-- A pair class: its control address is that of the pair block (R216). -/
def State.pairLog (s : State) (f : FaultClass) (data : List Byte) : State := s.log f R.pair data

/-- The module is active, or a switchover runs. -/
def State.pairActive (s : State) : Bool := s.pair.role == .active || s.pair.role == .switching

/-- The module is standby. -/
def State.pairStandby (s : State) : Bool := s.pair.role == .standby || s.pair.role == .ready

/-! ## Bytes (Tables 8-6 and 8-7) -/

/-- PAIR_KEY, and WIT_KEY of the types that a witness sends or receives: 4 ASK, 5 ANSWER, 6 PROBE, 7 PROBE_ACK. -/
def State.pairKey (s : State) (type : Nat) : List Byte :=
  if 4 ≤ type then ((s.payload 0x0503 4 8).drop 40).take 32 else ((s.payload 0x0502 4 8).drop 16).take 32

/-- The GCM nonce: RANK, three zero bytes, STAMP. -/
def pairNonce (rank stamp : Nat) : List Byte := beBytes 1 rank ++ [0, 0, 0] ++ beBytes 8 stamp

/-- The header of Table 8-6. -/
def pairHeader (type pairId rank term stamp : Nat) : List Byte :=
  beBytes 2 0x5A48 ++ [1] ++ beBytes 1 type ++ beBytes 4 pairId ++ beBytes 1 rank ++ [0, 0, 0] ++ beBytes 4 term ++ beBytes 8 stamp

/-- A datagram that the module sends: the tag authenticates header and body, with an empty plaintext (R206). -/
def State.pairBytes (s : State) (type : Nat) (stamp : Stamp) (body : List Byte) : List Byte :=
  let rank := s.pairField 1 1
  let b := pairHeader type (s.pairField 8 4) rank (s.pair.term % 2 ^ 32) stamp.toNat ++ body
  b ++ gcmSeal (s.pairKey type) (pairNonce rank stamp.toNat) b []

/-- A received datagram as it is read. -/
def readPair (b : List Byte) : PairDatagram :=
  { magic := be b 0 2, version := be b 2 1, type := be b 3 1, pairId := w32 (be b 4 4), rank := be b 8 1, term := be b 12 4,
    stamp := be b 16 8, body := (b.take (b.length - 16)).drop 24, tag := b.drop (b.length - 16) }

/-- Bytes of the body of a type (Table 8-7); a RECORDS datagram holds COUNT records. -/
def pairBodyLength (type : Nat) (body : List Byte) : Nat :=
  match type with
  | 1 => 12 | 2 => 4 + 164 * be body 0 2 | 3 => 8 | 4 => 8 | 5 => 8 | 6 => 4 | _ => 8

/-- The bytes are a datagram of a type. -/
def isPair (b : List Byte) (type : Nat) : Bool :=
  let d := readPair b
  decide (40 ≤ b.length) && d.magic == 0x5A48 && d.version == 1 && d.type == type && d.body.length == pairBodyLength type d.body

/-! ## Sending -/

/-- Address of the peer (0), of W0 (1) or of W1 (2). -/
def State.pairAddr (s : State) (dest : Nat) : Nat :=
  if dest = 0 then
    (if bit (le s.pairLink 2 1) 1 then be s.pairLink 8 16 else 0xFFFF * 2 ^ 32 + be s.pairLink 4 4)
  else be (s.payload 0x0503 4 8) (if dest = 1 then 8 else 24) 16

/-- Send a datagram to an address from the pair-link port in use: UDP port 47810, or that of the witness. No two datagrams carry
equal STAMPs (R102, R206). -/
def State.sendPairTo (s : State) (dest addr type : Nat) (body : List Byte) : State :=
  let stamp := match s.pair.lastStamp with
    | some t => if later s.stamp t then s.stamp else t + 1
    | none => s.stamp
  let s := s.modPair fun p => { p with lastStamp := some stamp }
  match s.pairPort with
  | none => s
  | some p =>
    let v6 := !isV4 addr
    let src := s.ownAddr p v6
    let dport := if dest = 0 then 47810 else s.witnessField 6 2
    let b := s.pairBytes type stamp body
    let packet := udpPacket v6 src addr (le s.pairLink 3 1) Config.pairTtl 47810 dport (udpCheck v6 src addr 47810 dport b) b
    s.sendOther p (ipLine packet.length) (.pair dest p packet)

/-- Send a datagram to the peer (0), to W0 (1) or to W1 (2). -/
def State.sendPair (s : State) (dest type : Nat) (body : List Byte) : State := s.sendPairTo dest (s.pairAddr dest) type body

/-! ## Receiving -/

/-- What is wrong with a received datagram, given the last STAMP accepted from its sender: 1 tag, 2 PAIR_ID, 3 STAMP (R206). A STAMP
of a module is a raster stamp and is compared as one (R3), that of a witness is a counter. -/
def State.pairBad (s : State) (b : List Byte) (last : Option Nat) : Option Nat :=
  let d := readPair b
  let aad := b.take (b.length - 16)
  if gcmOpen (s.pairKey d.type) (pairNonce d.rank d.stamp) aad d.tag ≠ some [] then some 1
  else if d.pairId ≠ w32 (s.pairField 8 4) then some 2
  else match last with
    | some t => if (if 4 ≤ d.type then t < d.stamp else later (BitVec.ofNat 64 d.stamp) (BitVec.ofNat 64 t)) then none else some 3
    | none => none

/-- A datagram that fails the checks is counted and logged at most once per second. -/
def State.pairReject (s : State) (rank reason : Nat) : State :=
  ((s.count R.pair_AUTH_FAIL).event R.pair_EVENTS 8).logRated F.PAIR_AUTH 0 R.pair 0 (fun _ => leBytes 1 rank ++ leBytes 1 reason) false

/-- The module receives datagrams: pair mode is on and a pair-link port is UP (R102, R205). -/
def State.pairHears (s : State) : Bool := s.pair.role != .single && s.pairPort.isSome

/-- A datagram of the peer: when it is good its STAMP is the last accepted one, and its effect runs. -/
def State.pairAccept (s : State) (b : List Byte) (type : Nat) (f : PairDatagram → State → State) : State :=
  if !(s.pairHears && isPair b type) then s
  else match s.pairBad b s.pair.peerStamp with
    | some r => s.pairReject (readPair b).rank r
    | none => f (readPair b) (s.modPair fun p => { p with peerStamp := some (readPair b).stamp })

/-- A datagram of a witness, from its address. -/
def State.witAccept (s : State) (source : Nat) (b : List Byte) (type : Nat) (f : PairDatagram → State → State) : State :=
  if !(s.pairHears && isPair b type) then s
  else match s.pairBad b ((s.pair.witStamps.find? fun e => e.1 == source).map (·.2)) with
    | some r => s.pairReject (readPair b).rank r
    | none => f (readPair b) (s.modPair fun p => { p with
        witStamps := (source, (readPair b).stamp) :: p.witStamps.filter fun e => e.1 != source })

/-! ## Asking -/

/-- FLAGS of a HEARTBEAT (Table 8-7). -/
def State.pairFlags (s : State) : BitVec 8 :=
  BitVec.ofNat 8 (b2n s.pairActive + 2 * b2n (s.pair.role == .ready) + 4 * b2n s.ledger.safe + 8 * b2n s.hull.sagHeld +
    16 * b2n (s.pairActive && (s.pair.yield || s.ledger.safe || s.hull.sagHeld)))

/-- One ASK to W0 or W1 (R209). -/
def State.sendAsk (s : State) (reason : Nat) (second : Bool) : State :=
  let id := s.pair.nextAsk
  let s := (s.modPair fun p => { p with
    nextAsk := id + 1, asks := p.asks ++ [{ askId := id, reason := reason, second := second, sentAt := s.now }] }).count R.pair_ASKS
  s.sendPair (if second then 2 else 1) 4 (beBytes 1 reason ++ beBytes 1 (b2n s.pairActive) ++ [0, 0] ++ beBytes 4 id.toNat)

/-- Ask the witness for a reason of Table 8-7; while an ASK of this reason waits for its answer or its retry, nothing more is
asked. -/
def State.askWitness (s : State) (reason : Nat) : State :=
  if s.pair.asks.any (fun a => a.reason == reason) || s.pair.retries.any (fun r => r.1 == reason) then s else s.sendAsk reason false

end Sys2Proof.Machine
end

