-- ==== Sys2Proof/Machine/Sparing.lean ====
section
/-!
DEFINITION. Coder sparing (R192 to R204): claims, the causes of a takeover, the arbitration of the safety pair, and coders that
leave and rejoin service.
-/

namespace Sys2Proof.Machine

/-! ## Claims (R192) -/

/-- Claim and g of the next grant of a channel. -/
def State.nextClaim (s : State) (c : Nat) : Nat × Nat :=
  let x := s.rind c
  if s.pairMode then
    let g := if x.granted && !x.renew then x.g + 1 else 0
    ((s.pair.term % 256 * 16 + g) * 16 + s.pairField 1 1, g)
  else
    let rank := if s.hasSection 0x0501 4 8 then s.claimField 0 1 else 0
    ((if x.granted then (x.claim / 16 + 1) % 4096 else 0) * 16 + rank, 0)

/-- STORM of CLAIM_PLAN; 8 without the section. -/
def State.stormLimit (s : State) : Nat := if s.hasSection 0x0501 4 8 then s.claimField 2 1 else 8

/-- Times of the last 1 s. -/
def lastSecond (now : Nat) (l : List Nat) : List Nat := l.filter fun t => now < t + sec 1

/-- An entry of a rind. -/
def State.rindLog (s : State) (f : FaultClass) (c reason : Nat) (data : List Byte) : State :=
  s.logOut f (R.rind c) (s.chanDp c 3 0 0) [(.channel c, reason)] data

/-- CODER_FAULT (R195, R196 step 1); its data-path address runs to the channel of a holder (R216). -/
def State.coderFault (s : State) (c : Option Nat) (k cause : Nat) : State :=
  s.logData F.CODER_FAULT (R.coder k) (match c with | some c => s.chanDp c 3 0 0 | none => 0) (leBytes 1 k ++ leBytes 1 cause)

/-- The coder that a channel lost in a harmless state is marked failed, once its frame in progress has been closed (R197). -/
def State.loseCoder (s : State) (c cause : Nat) : State :=
  let x := s.rind c
  match x.coder with
  | some k =>
    if cause ≤ 4 then (s.modRind c fun x => { x with coder := none, prev := some k, pending := false, handing := false }).freeCoder k cause
    else s
  | none => s

/-- No ripe spare (R197): REASON 6, and the channel waits. -/
def State.noSpare (s : State) (c cause : Nat) : State :=
  let s := s.event R.brine_EVENTS 8
  let s := s.modRind c fun x => { x with waits := some (x.waits.getD s.now) }
  let s := s.rindLog F.NO_SPARE c 6 (leBytes 1 s.ripeSpares.length ++ leBytes 1 s.failedCoders.length)
  ((s.goHarmless (.channel c) 6 F.NO_SPARE.code).loseCoder c cause).spareCheck

/-- A grant that is made (R192, R193, R199): coder k takes the channel; T is the first line whose first unit arrives at
`notBefore` or later. A grant before line T of the last one is reached frees that one's coder under the new cause; the coder before it
keeps its own. -/
def State.makeGrant (s : State) (c k cause notBefore : Nat) : State :=
  let x := s.rind c
  let (claim, g) := s.nextClaim c
  let s := s.modCoder k fun y => { y with state := .holding, channel := some c }
  let s := match x.pending, x.coder with
    | true, some b => s.freeCoder b cause
    | _, _ => if x.handing then (match x.prev with | some a => s.freeCoder a x.prevCause | none => s) else s
  let old := if x.pending then x.prev else match x.coder with | some b => some b | none => x.prev
  let held := x.pending || x.coder.isSome
  let s := s.modRind c fun x => { x with
    claim := claim, g := g, granted := true, renew := false, revoked := x.claim, coder := some k, prev := old,
    prevCause := if x.pending then x.prevCause else cause,
    pending := true, handing := held, notBefore := notBefore, announce := old.isSome, waits := none,
    fenced := held && (match old with | some b => (s.coder b).fenced | none => false),
    grants := s.now :: lastSecond s.now x.grants }
  let s := s.ungateSpare.modCoder k fun y => { y with state := .holding, channel := some c, store := [], verify := [], fails := [] }
  let s := s.modChan c fun y => { y with sigs := if 1 ≤ cause ∧ cause ≤ 3 then [] else y.sigs }
  let s := ((s.count (R.rind_TAKEOVERS c)).event (R.rind_EVENTS c) 1).count R.brine_TAKEOVERS
  let s := (s.event R.brine_EVENTS 1).clearCause (.channel c) F.NO_SPARE.code
  let s := if s.pairMode ∧ 12 ≤ g ∧ s.pairActive then s.askWitness 6 else s
  s.spareCheck

/-- A grant, refused when the channel would receive more than STORM within 1 s (R198) or when g would reach 16 (R192). -/
def State.grant (s : State) (c k cause notBefore : Nat) : State :=
  let x := s.rind c
  let made := lastSecond s.now x.grants
  if s.stormLimit ≤ made.length then
    let s := s.modRind c fun x => { x with grants := made, refused := s.now :: lastSecond s.now x.refused, storm := true, waits := none }
    let s := (s.event R.brine_EVENTS 16).rindLog F.CLAIM_STORM c 7 (leBytes 4 made.length)
    (s.goHarmless (.channel c) 7 F.CLAIM_STORM.code).loseCoder c cause
  else if s.pairMode && 16 ≤ (s.nextClaim c).2 then
    let s := s.rindLog F.CLAIM_EXHAUSTED c 7 (leBytes 4 s.pair.term ++ leBytes 1 x.g)
    (s.goHarmless (.channel c) 7 F.CLAIM_EXHAUSTED.code).loseCoder c cause
  else s.makeGrant c k cause notBefore

/-! ## Arbitration (R196, R197) -/

/-- The safety pair runs: while it restarts no grant is made (R197). -/
def State.spRuns (s : State) : Bool := s.cores.sp.state == .active || s.cores.sp.state == .sleep

/-- The lowest-numbered ripe spare. -/
def State.lowestSpare (s : State) : Option Nat := s.ripeSpares.head?

/-- A cause against a coder that the channel does not hold any more: the coder is failed when the takeover that frees it completes, or
now when it is free. -/
def State.lateCause (s : State) (t : Takeover) : State :=
  let x := s.rind t.channel
  if 5 ≤ t.cause then s
  else if x.prev = some t.coder ∧ x.handing then s.modRind t.channel fun x => { x with prevCause := t.cause }
  else if (s.coder t.coder).channel.isNone then (s.modCoder t.coder fun y => { y with state := .failed }).spareCheck
  else s

/-- One cause of Table 8-1 (R196). -/
def State.arbitrateCause (s : State) (t : Takeover) : State :=
  let c := t.channel
  let s := if t.cause ≤ 4 then s.coderFault (some c) t.coder t.cause else s
  if (s.rind c).coder ≠ some t.coder then s.lateCause t
  else
    let spare : Option Nat := match t.target with
      | some k => if s.ripeSpares.contains k then some k else none
      | none => s.lowestSpare
    match spare with
    | some k => s.grant c k t.cause (if t.cause = 6 then s.now else s.now + 500)
    | none =>
      if t.cause = 5 then s.count (R.rind_MOVE_REFUSED c)
      else if t.cause = 6 then s
      else s.noSpare c t.cause

/-- Channels of the source role that wait for a coder, the longest-waiting first and among equals the lowest-numbered. -/
def State.waitingChannels (s : State) : List (Nat × Nat) :=
  ((List.range 48).filterMap fun c => (s.rind c).waits.map fun t => (t, c)).foldl (fun l e =>
    l.takeWhile (fun x => x.1 ≤ e.1) ++ [e] ++ l.dropWhile fun x => x.1 ≤ e.1) []

/-- A ripe spare goes to the channel that has waited longest (R197). -/
def State.grantWaiting (s : State) : State :=
  if !s.spRuns then s
  else match s.waitingChannels, s.lowestSpare with
    | e :: _, some k => s.grant e.2 k (s.rind e.2).prevCause s.now
    | _, _ => s

/-- A refused grant still holds the channel: CLAIM_STORM until host software releases it, CLAIM_EXHAUSTED until a new term is granted
(R192, R198). -/
def State.grantBarred (s : State) (c : Nat) : Bool :=
  (s.rind c).storm || (s.pairMode && decide (16 ≤ (s.nextClaim c).2)) ||
  (s.standing (.channel c)).any fun x => x.cls == F.CLAIM_STORM.code

/-- An enabled channel that holds no coder and does not wait for one. -/
def State.unserved (s : State) : Option Nat :=
  (List.range 48).find? fun c =>
    s.sends && s.chanOn c && (s.chan c).state != .off && (s.rind c).coder.isNone && (s.rind c).waits.isNone && !s.grantBarred c

/-- The cause to arbitrate next, with the others: the oldest fault, else the oldest planned one (R78). -/
def State.nextCause (s : State) : Option (Takeover × List Takeover) :=
  let may (t : Takeover) : Bool := match t.stamp with | some a => s.reached a | none => true
  match takeFirst (fun t => t.cause ≤ 3 && may t) s.takeovers with
  | some x => some x
  | none => takeFirst may s.takeovers

/-- CLAIM_GRANT (R192, R196 to R198): the safety pair arbitrates the oldest cause that may be arbitrated now; with none it serves
a waiting channel, and then an enabled channel that has never had a coder. -/
def execClaimGrant (s : State) : Out :=
  if !s.spRuns || s.roleNo ≠ 0 then .next s
  else
    match s.nextCause with
    | some (t, rest) => .next (({ s with takeovers := rest } : State).arbitrateCause t)
    | none =>
      if (s.waitingChannels.isEmpty) || s.ripeSpares.isEmpty then
        match s.unserved with
        | some c => match s.lowestSpare with
          | some k => .next (s.grant c k 0 s.now)
          | none => .next (s.noSpare c 0)
        | none => .next s
      else .next s.grantWaiting

/-! ## Failure detection (R195) -/

/-- A hardware cause on a coder: its holder is fenced at once; a spare is marked failed (R195). -/
def State.coderCause (s : State) (k cause : Nat) : State :=
  let x := s.coder k
  match x.channel with
  | some c =>
    let s := if cause ≤ 3 then
        let s := (s.modCoder k fun y => { y with fenced := true }).event (R.rind_EVENTS c) 2
        if (s.rind c).prev = some k ∧ (s.rind c).handing then s.modRind c fun r => { r with fenced := true } else s
      else s
    s.takeoverCause c k cause
  | none =>
    match x.state with
    | .spare | .ripening | .ripe => ((s.coderFault none k cause).modCoder k fun y => { y with state := .failed }).spareCheck
    | _ => s

/-- CODER_ECC_FAULT: cause 1. -/
def execCoderEccFault (coder : Fin 52) (s : State) : Out := .next (s.coderCause coder.val 1)

/-- CODER_CLOCK_LOSS: cause 2. -/
def execCoderClockLoss (coder : Fin 52) (s : State) : Out := .next (s.coderCause coder.val 2)

/-- CODER_WATCHDOG: cause 3, which cannot arise for a spare: the coder takes no unit from a stripe FIFO that holds units. -/
def execCoderWatchdog (coder : Fin 52) (s : State) : Out :=
  let k := coder.val
  match (s.coder k).channel with
  | some c => if 0 < s.fifoFill c k then .next (s.coderCause k 3) else .next s
  | none => .next s

/-- CODER_SELF_CHECK_FAIL (R179, R195): a candidate (cause CANDIDATE_CHECK) or a stripe store (STORE_CHECK) fails its self-check. -/
def execCoderSelfCheckFail (coder : Fin 52) (store : Bool) (s : State) : Out :=
  let k := coder.val
  let why := if store then 3 else 2
  match (s.coder k).channel with
  | some c => .next (s.coderSuspect c k (recentFails (s.coder k).fails (s.codedNow c)).length why)
  | none =>
    match (s.coder k).state with
    | .spare | .ripening | .ripe =>
      let s := (s.event (R.coder_EVENTS k) 4).log F.CODER_SUSPECT (R.coder k) (leBytes 1 k ++ leBytes 4 0 ++ leBytes 1 why)
      .next (s.coderCause k 4)
    | _ => .next s

/-- RIND_MOVE (R196, Table 8-11): a write of MOVE requests cause 5. -/
def execRindMove (agent : Agent) (channel : Fin 48) (value : Word) (s : State) : Out :=
  let _ := agent
  let c := channel.val
  let any := bit value.toNat 7
  let k := value.toNat % 64
  if !(s.running && s.inService 4 (0x10 + c)) then .next s
  else match (s.rind c).coder with
    | some h =>
      if any ∨ s.ripeSpares.contains k then .next (s.takeoverCause c h 5 (if any then none else some k))
      else .next (s.count (R.rind_MOVE_REFUSED c))
    | none => .next (s.count (R.rind_MOVE_REFUSED c))

/-- CODER_RETEST (R204): a failed coder ripens again. -/
def execCoderRetest (agent : Agent) (coder : Fin 64) (s : State) : Out :=
  let _ := agent
  let k := coder.val
  if s.running ∧ s.inService 4 8 ∧ k < 52 ∧ (s.coder k).state = .failed then
    let t := coderTile k
    let s := s.modCoder k fun x => { x with state := .ripening, ripeFrom := s.now, retest := true, fenced := false }
    .next (s.modTile (tileNo t.1 t.2) fun x => { x with state := .ripening, ripeFrom := s.now })
  else .next s

/-- CODER_RETIRE (R204): a spare is marked failed; a holder is left alone. -/
def execCoderRetire (agent : Agent) (coder : Fin 64) (s : State) : Out :=
  let _ := agent
  let k := coder.val
  if s.running ∧ s.inService 4 8 ∧ k < 52 ∧ (s.coder k).channel = none ∧
      ((s.coder k).state = .ripe ∨ (s.coder k).state = .ripening ∨ (s.coder k).state = .spare) then
    .next ((s.modCoder k fun x => { x with state := .failed }).spareCheck)
  else .next s

/-- CLAIM_STORM_CLEAR (R198): the grants made and refused within the last 1 s number at most STORM. -/
def execClaimStormClear (channel : Fin 48) (s : State) : Out :=
  let c := channel.val
  let x := s.rind c
  let made := lastSecond s.now x.grants
  let refused := lastSecond s.now x.refused
  if x.storm ∧ made.length + refused.length ≤ s.stormLimit then
    .next ((s.modRind c fun x => { x with storm := false, grants := made, refused := refused }).clearCause (.channel c) F.CLAIM_STORM.code)
  else .next s

/-! ## Registers (Tables 8-11 and 8-13) -/

/-- BRINE_STATUS. -/
def State.brineStatus (s : State) : Word := w32 (256 * s.ripeSpares.length + s.failedCoders.length)

/-- A bit for each coder in a list from `lo` on. -/
def coderBits (l : List Nat) (lo : Nat) : Word := w32 ((l.filter fun k => lo ≤ k && k < lo + 32).foldl (fun v k => v + 2 ^ (k - lo)) 0)

/-- The coder that the rind admits now: until line T of a grant is reached the previous holder, unless it is fenced (R193). -/
def State.admittedCoder (s : State) (c : Nat) : Option Nat :=
  (if (s.rind c).pending then (s.rind c).prev else (s.rind c).coder).filter fun k => !(s.coder k).fenced

/-- RIND_STATUS. -/
def State.rindStatus (s : State) (c : Nat) : Word :=
  let x := s.rind c
  w32 (0x10000 * x.claim + 0x1000 * (if s.pairMode then x.g else 0) + 0x800 * b2n x.fenced + 0x400 * b2n x.pending +
    0x10 * ((s.admittedCoder c).getD 0x3F))

/-- T and F of the last grant; before line T is reached they are free values. -/
def State.takeOf (s : State) (c : Nat) : Nat × Nat :=
  let x := s.rind c
  if x.pending then
    let e := Config.takeAhead c (s.reg (R.rind_TAKEOVERS c)).toNat
    (e.1 % 8192, e.2)
  else (x.takeLine, x.takeFrame)

/-- TAKE_LINE. -/
def State.takeLineReg (s : State) (c : Nat) : Word := w32 (0x80000000 * b2n (!(s.rind c).pending && (s.rind c).restartRow) + (s.takeOf c).1)

end Sys2Proof.Machine
end

