-- ==== Sys2Proof/Machine/Pair.lean ====
section
/-!
DEFINITION. Pair mode (R205 to R213): heartbeats and frame records, asking the witness, promotion, demotion and planned
switchover.
-/

namespace Sys2Proof.Machine

/-- Enabled channels. -/
def State.enabledChannels (s : State) : List Nat := (List.range 48).filter s.chanOn

/-- HB_MISS intervals of HB_US in ns. -/
def State.hbLimit (s : State) : Nat := s.pairField 3 1 * us (s.pairField 4 2)

/-! ## READY (R205) -/

/-- The frame record of a channel is no older than 2 frame periods. -/
def State.recordFresh (s : State) (c : Nat) : Bool :=
  match s.pair.records.get (fun _ => none) c with
  | some r => signed 32 ((frameNumber s.mediaClock (s.chanField c 8 2) (s.chanField c 10 2) + 2 ^ 32 - r.frame) % 2 ^ 32) ≤ 2
  | none => false

/-- The conditions of READY. -/
def State.pairIsReady (s : State) : Bool :=
  let cs := s.enabledChannels
  s.clock.seeded && cs.all (fun c => (s.chIn c).input == 1 && s.recordFresh c) &&
  decide ((cs.filter fun c => (s.rind c).coder.isNone).length ≤ s.ripeSpares.length)

/-- A standby becomes READY, or no longer is. -/
def State.pairReadyCheck (s : State) : State :=
  match s.pair.role with
  | .standby =>
    if s.pairIsReady then
      ((s.modPair fun p => { p with role := .ready }).event R.pair_EVENTS 2).pairLog F.STANDBY_READY (leBytes 4 s.pair.term)
    else s
  | .ready => if s.pairIsReady then s else (s.modPair fun p => { p with role := .standby }).event R.pair_EVENTS 2
  | _ => s

/-! ## Role changes (R209 to R212) -/

/-- On a GRANT the standby becomes active (R210): the claim of every enabled channel is one of the new term, and the channel starts later;
one without a coder is granted to a spare as CLAIM_GRANT. -/
def State.promote (s : State) (term : Nat) : State :=
  let cs := s.enabledChannels
  let s := s.modPair fun p => { p with role := .active, term := term, grantedAt := s.now, retries := [], yield := false, switchOk := false }
  let s := (s.event R.pair_EVENTS 2).pairLog F.PROMOTED (leBytes 4 term ++ leBytes 4 cs.length)
  let after := if s.pair.switchH.isSome then s.now else s.now + us 500
  cs.foldl (fun s c =>
    let s := s.modChan c fun x => { x with startAfter := some after, noSkip := true }
    let s := s.modRind c fun x => { x with
      claim := term % 256 * 256 + s.pairField 1 1, g := 0, granted := x.coder.isSome, renew := false }
    if s.heldDown (.channel c) then
      let r := s.channelReason c
      s.channelHarmless c r.1 r.2
    else s) s

/-- On turning standby the module stops forming packets of every channel and head output at once (R211): cause 1 DENY,
2 HEARTBEAT. -/
def State.demote (s : State) (term cause : Nat) : State :=
  let s := s.modPair fun p => { p with role := .standby, term := max p.term term, yield := false, switchH := none, switchOk := false, retries := [], asks := [] }
  let s := (s.event R.pair_EVENTS 2).pairLog F.DEMOTED (leBytes 4 s.pair.term ++ leBytes 1 cause)
  let s := s.mapChans fun _ x => { x with
    state := if x.state = .off then .off else .enabled, started := false, frames := [], jobs := [], packet := none, eov := none, startAfter := none,
    gapA := {}, gapB := {} }
  (s.mapHeads fun _ h => { h with sending := false, gapA := none, gapB := none }).pairReadyCheck

/-! ## Heartbeats and frame records (R207, R209) -/

/-- HEARTBEAT_TX (R207): every HB_US, and at a change of FLAGS. -/
def execHeartbeatTx (s : State) : Out :=
  let s := s.pairReadyCheck
  let flags := s.pairFlags
  if s.pair.role ≠ .single ∧ (s.due (s.pair.lastTx + us (s.pairField 4 2)) ∨ flags ≠ s.pair.lastFlags) then
    .next ((s.modPair fun p => { p with lastTx := s.now, lastFlags := flags }).sendPair 0 1 (leBytes 1 flags.toNat ++ [0, 0, 0] ++ beBytes 8 s.im.configId.toNat))
  else .next s

/-- SAFE, SAG or YIELD of the peer's FLAGS. -/
def yields (f : BitVec 8) : Bool := bit f.toNat 2 || bit f.toNat 3 || bit f.toNat 4

/-- An accepted HEARTBEAT. -/
def State.onHeartbeat (s : State) (d : PairDatagram) (flags : BitVec 8) : State :=
  let active := bit flags.toNat 0
  let was := s.pair.silent
  let s := (s.count R.pair_HB_RX).modPair fun p => { p with
    peerAt := some s.now, peerFlags := flags, silent := false, peerTerm := d.term, activeAt := if active then some s.now else p.activeAt }
  let s := if was then s.event R.pair_EVENTS 1 else s
  if s.pairActive then
    if active ∧ s.pair.term < d.term then
      if s.pair.role = .switching then s.modPair fun p => { p with switchOk := true } else s.demote d.term 2
    else s
  else
    let s := s.modPair fun p => { p with term := max p.term d.term }
    if s.pair.role = .ready ∧ active ∧ yields flags then s.askWitness (if s.pair.switchH.isSome then 4 else 2) else s

/-- HEARTBEAT_RX (R206, R207, R209): a heartbeat with the receiver's own RANK is discarded and leaves nothing behind. -/
def execHeartbeatRx (bytes : List Byte) (s : State) : Out :=
  if s.pairHears && isPair bytes 1 && (readPair bytes).rank == s.pairField 1 1 then
    match s.pairBad bytes none with
    | some r => .next (s.pairReject (readPair bytes).rank r)
    | none => .next (s.logRated F.PAIR_RANK_CLASH 0 R.pair 0 (fun _ => leBytes 1 (readPair bytes).rank) false)
  else .next (s.pairAccept bytes 1 fun d s => s.onHeartbeat d (BitVec.ofNat 8 (le d.body 0 1)))

/-- RECORDS_TX (R207, R212): the module sends the frame records formed since the last datagram. -/
def execRecordsTx (s : State) : Out :=
  if s.pairActive ∧ s.pair.unsent ≠ [] then
    let recs := s.pair.unsent.filterMap fun c => (s.rind c).frameRec
    .next ((s.modPair fun p => { p with unsent := [] }).sendPair 0 2 (beBytes 2 recs.length ++ [0, 0] ++ recs.flatMap fun r => r.bytes))
  else .next s

/-- The standby keeps a frame record that is newer than the one it has of the channel (R207). -/
def State.keepRecord (s : State) (r : MirrorRec) : State :=
  let newer : Bool := match s.pair.records.get (fun _ => none) r.channel with
    | some old => newer32 r.frame old.frame
    | none => true
  let s := s.count R.pair_REC_RX
  if newer then s.modPair fun p => { p with records := p.records.put (fun _ => none) r.channel (some r) } else s

/-- RECORDS_RX (R205, R207): the standby keeps the newest frame record of each channel whose CRCs are good. -/
def execRecordsRx (bytes : List Byte) (s : State) : Out :=
  .next (s.pairAccept bytes 2 fun d s =>
    if !s.pairStandby then s
    else (((List.range (be d.body 0 2)).filterMap fun i => readFrameRecord ((d.body.drop (4 + 164 * i)).take 164)).foldl
      (fun s r => s.keepRecord r) s).pairReadyCheck)

/-- HANDOVER_RX (R212): the standby learns the switchover stamp and asks with REASON 4. -/
def execHandoverRx (bytes : List Byte) (s : State) : Out :=
  .next (s.pairAccept bytes 3 fun d s =>
    if s.pair.role = .ready then (s.modPair fun p => { p with switchH := some (BitVec.ofNat 64 (be d.body 0 8)) }).askWitness 4 else s)

/-- HEARTBEAT_MISS (R209): no authenticated HEARTBEAT for HB_MISS intervals; a module that has heard none since its start asks
only under the START case (R213). -/
def execHeartbeatMiss (s : State) : Out :=
  match s.pair.peerAt with
  | some t =>
    if s.pair.role ≠ .single ∧ s.pair.silent = false ∧ s.due (t + s.hbLimit) then
      let s := (s.modPair fun p => { p with silent := true }).event R.pair_EVENTS 1
      let s := s.pairLog F.PEER_SILENT (leBytes 8 (s.pair.peerStamp.getD 0))
      .next (s.askWitness (if s.pairActive then 5 else 1))
    else .next s
  | none => .next s

/-- No HEARTBEAT with ACTIVE has been heard for HB_MISS intervals, and 1 s more when PREFER is clear (R209). -/
def State.noActive (s : State) : Bool :=
  s.pair.role == .ready &&
  s.due (s.pair.activeAt.getD s.pair.startAt + s.hbLimit + (if bit (s.pairField 0 1) 1 then 0 else sec 1))

/-- NO_ACTIVE_HEARTBEAT (R209, R213): the START case. -/
def execNoActiveHeartbeat (s : State) : Out := if s.noActive then .next (s.askWitness 3) else .next s

/-! ## The witness (R208, R209) -/

/-- The condition that a REASON stands for still lasts. -/
def State.askStands (s : State) (reason : Nat) : Bool :=
  match reason with
  | 1 => s.pairStandby && s.pair.silent
  | 2 => s.pair.role == .ready && yields s.pair.peerFlags
  | 3 => s.noActive
  | 4 => s.pairStandby && s.pair.switchH.isSome
  | 5 => s.pairActive && s.pair.silent
  | _ => s.pairActive && (List.range 48).any fun c => 12 ≤ (s.rind c).g

/-- An ANSWER to an ASK (R209 to R211): verdicts 1 GRANT, 2 DENY, 3 CONFIRM. -/
def State.onAnswer (s : State) (a : Ask) (verdict term : Nat) : State :=
  let s := (s.modPair fun p => { p with
    asks := p.asks.filter fun b => b.askId != a.askId, retries := p.retries ++ [(a.reason, s.now)], witOk := true }).event R.pair_EVENTS 4
  let s := s.pairLog F.WITNESS_ANSWER (leBytes 1 verdict ++ leBytes 4 term ++ leBytes 1 a.reason)
  match verdict with
  | 1 =>
    if s.pairStandby then s.promote term
    else
      let s := s.modPair fun p => { p with term := term, retries := [] }
      (List.range 48).foldl (fun s c =>
        if (s.rind c).granted then
          (s.modRind c fun x => { x with renew := true }).clearCause (.channel c) F.CLAIM_EXHAUSTED.code
        else s) s
  | 2 => if s.pairActive then s.demote term 1 else s.modPair fun p => { p with term := max p.term term }
  | _ => s

/-- ANSWER_RX (R209): an ANSWER with the ASK_ID of an ASK that waits. -/
def execAnswerRx (datagram : Datagram) (s : State) : Out :=
  .next (s.witAccept datagram.source datagram.bytes 5 fun d s =>
    match s.pair.asks.find? fun a => a.askId == w32 (be d.body 4 4) with
    | none => s
    | some a => s.onAnswer a (be d.body 0 1) d.term)

/-- WITNESS_TIMEOUT (R209): no ANSWER within WIT_MS; the ASK goes to W1, and when neither answers it is retried. -/
def execWitnessTimeout (s : State) : Out :=
  match s.pair.asks.find? fun a => s.due (a.sentAt + ms (s.witnessField 2 2)) with
  | none => .next s
  | some a =>
    let s := ((s.count R.pair_WIT_TIMEOUTS).event R.pair_EVENTS 4).modPair fun p => { p with
      witOk := false, asks := p.asks.filter fun b => b.askId != a.askId }
    if !a.second ∧ s.witnessField 0 1 = 2 then .next (s.sendAsk a.reason true)
    else
      let s := s.pairLog F.WITNESS_UNREACHABLE (leBytes 1 a.reason ++ leBytes 1 (if a.second then 2 else 1))
      .next (s.modPair fun p => { p with retries := p.retries ++ [(a.reason, s.now)] })

/-- WITNESS_RETRY (R209): the module asks again every RETRY_MS for as long as the condition stands. -/
def execWitnessRetry (s : State) : Out :=
  match s.pair.retries.find? fun r => s.due (r.2 + ms (s.witnessField 4 2)) with
  | none => .next s
  | some (reason, _) =>
    let s := s.modPair fun p => { p with retries := p.retries.filter fun r => r.1 != reason }
    if s.askStands reason then .next (s.sendAsk reason false) else .next s

/-- PROBE_RX (R208): a module answers a PROBE only while it is active, to the witness that sent it. -/
def execProbeRx (datagram : Datagram) (s : State) : Out :=
  .next (s.witAccept datagram.source datagram.bytes 6 fun d s =>
    if s.pairActive then
      s.sendPairTo (if datagram.source = s.pairAddr 2 then 2 else 1) datagram.source 7
        (d.body.take 4 ++ leBytes 1 (1 + 2 * b2n (bit s.pairFlags.toNat 4)) ++ [0, 0, 0])
    else s)

/-- PROMOTED_CHANNEL_START (R210, R212): a promoted channel reaches its first frame start. -/
def execPromotedChannelStart (channel : Fin 48) (s : State) : Out :=
  let c := channel.val
  if s.pairActive ∧ s.chanOn c ∧ (s.chan c).startAfter.isSome ∧ s.mayStart c then
    let f := frameNumber s.mediaClock (s.chanField c 8 2) (s.chanField c 10 2)
    .next (((s.renewClaim c).reachLine c f 0).promotedStart c f)
  else .next s

/-! ## Planned switchover (R212) -/

/-- H minus a time in ms. -/
def State.stampMs (s : State) (t : Nat) : BitVec 64 := BitVec.ofNat 64 (ticksUp s.mode (ms t))

/-- PAIR_SWITCH: a write of PAIR_CTRL.SWITCH. -/
def execPairSwitch (agent : Agent) (s : State) : Out :=
  let _ := agent
  if !(s.running && s.inService 4 8) then .next s
  else if s.pair.role = .active ∧ s.pair.peerAt.isSome ∧ !s.pair.silent ∧ bit s.pair.peerFlags.toNat 1 then
    let h := s.stamp + s.stampMs 50
    .next (((s.modPair fun p => { p with role := .switching, yield := true, switchH := some h, switchOk := false }).sendPair 0 3 (beBytes 8 h.toNat)).event R.pair_EVENTS 2)
  else .next (s.count R.pair_SWITCH_REFUSED)

/-- SWITCH_DEADLINE: the GRANT has not arrived by H - 5 ms. -/
def execSwitchDeadline (s : State) : Out :=
  match s.pair.role, s.pair.switchH with
  | .switching, some h =>
    if s.reached (h - s.stampMs 5) ∧ s.pair.switchOk = false then
      let s := s.modPair fun p => { p with role := .active, yield := false, switchH := none }
      .next ((s.event R.pair_EVENTS 2).pairLog F.SWITCH_ABANDONED (leBytes 8 h.toNat))
    else .next s
  | _, _ => .next s

/-- SWITCHOVER_STAMP: H has been reached. The former active module turns standby when its last frame is closed and every frame record
has been sent (RECORDS_TX); the new one
has handed over when every channel has started. -/
def execSwitchoverStamp (s : State) : Out :=
  match s.pair.switchH with
  | none => .next s
  | some h =>
    if !s.reached h then .next s
    else match s.pair.role with
      | .switching =>
        if s.pair.switchOk ∧ s.pair.unsent = [] ∧ (List.range 48).all (fun c => (s.chan c).frames.isEmpty) then .next (s.demote s.pair.peerTerm 2) else .next s
      | .active =>
        if (List.range 48).all (fun c => (s.chan c).startAfter.isNone) then .next (s.modPair fun p => { p with switchH := none }) else .next s
      | _ => .next (s.modPair fun p => { p with switchH := none })

/-- PTP_MESSAGE_RX (R26, R31): a message reaches an instance; a raster that seeds may make the standby READY (R205). -/
def execPtpMessageRx (inst : Fin 6) (datagram : Datagram) (s : State) : Out :=
  .next (s.ptpMessage inst.val datagram.source (ptpRead datagram.bytes)).pairReadyCheck

/-! ## Registers and installation (Table 8-12) -/

/-- PAIR_STATUS. -/
def State.pairStatus (s : State) : Word :=
  let role := match s.pair.role with | .single => 0 | .standby => 1 | .ready => 2 | .active => 3 | .switching => 4
  let seen := match s.pair.peerAt with | some t => decide (s.now < t + s.hbLimit) | none => false
  w32 (0x80000000 * b2n s.pairMode + 0x10000000 * role + 0x8000000 * b2n seen + 0x4000000 * b2n (bit s.pair.peerFlags.toNat 0) +
    0x2000000 * b2n s.pair.witOk + 0x1000000 * b2n (bit s.pairFlags.toNat 4) + 16 * s.pairField 2 1 + s.pairField 1 1)

/-- PEER_AGE_US. -/
def State.peerAge (s : State) : Word :=
  match s.pair.peerAt with
  | some t => w32 (min 0xFFFFFFFF ((s.now - t) / 1000))
  | none => 0xFFFFFFFF

/-- At start-up the module takes its place in the pair: standby with ENABLE set, single without (R213). -/
def State.installPair (s : State) : State :=
  s.modPair fun p => { p with role := if s.pairMode then .standby else .single, startAt := s.now }

end Sys2Proof.Machine
end

