-- ==== Sys2Proof/Machine/Container.lean ====
section
/-!
DEFINITION. Saind images (R50 to R62): the section type registry, the container, the certificate chain and the validation of a
slot or a boot bank.
-/

namespace Sys2Proof.Machine

/-! ## The registry (Tables 3-4 and 3-5) -/

/-- Apply classes of Table 3-5. -/
inductive ApplyClass where
  | boot | full | rennet | latch | mode | audio | shadow | ripen | roll | swap | stage
  deriving DecidableEq, Repr

/-- The FULL column of Table 3-4. -/
inductive Need where
  | always | source | wall | optional
  deriving DecidableEq, Repr

/-- A row of Table 3-4: the section type, its domains, its tiles, its apply class, and whether a FULL image needs it. -/
structure TypeRow where
  type    : Nat
  domains : List Nat
  tiles   : List Nat
  applies : ApplyClass
  need    : Need
  deriving DecidableEq, Repr

/-- Tiles lo to hi. -/
def tilesTo (lo n : Nat) : List Nat := (List.range n).map (lo + ·)

/-- Table 3-4, the rows of D0 to D3. -/
def registryLow : List TypeRow :=
  [⟨0x0101, [0], [1], .boot, .always⟩, ⟨0x0102, [0], [1], .rennet, .always⟩, ⟨0x0103, [0], [6], .rennet, .optional⟩,
   ⟨0x0104, [0], [6], .rennet, .optional⟩, ⟨0x0201, [1], tilesTo 0 4, .ripen, .always⟩, ⟨0x0202, [1], tilesTo 0 4, .rennet, .optional⟩,
   ⟨0x0203, [1], tilesTo 0 4, .rennet, .optional⟩, ⟨0x0301, [1], [8], .shadow, .always⟩, ⟨0x0302, [1], tilesTo 4 4, .rennet, .source⟩,
   ⟨0x0303, [1], tilesTo 4 4, .rennet, .optional⟩, ⟨0x0304, [1], tilesTo 4 4, .rennet, .wall⟩, ⟨0x0305, [1], tilesTo 4 4, .ripen, .always⟩,
   ⟨0x0401, [4], tilesTo 0x10 48, .rennet, .optional⟩, ⟨0x0402, [4], tilesTo 0x10 48, .rennet, .optional⟩,
   ⟨0x0403, [4], tilesTo 0x10 48, .rennet, .optional⟩, ⟨0x0404, [2, 3], tilesTo 0 26, .roll, .source⟩,
   ⟨0x0405, [4], tilesTo 0 4, .ripen, .always⟩, ⟨0x0501, [4], [8], .rennet, .source⟩, ⟨0x0502, [4], [8], .rennet, .optional⟩,
   ⟨0x0503, [4], [8], .rennet, .optional⟩]

/-- Table 3-4, the rows from LAYER_GRAPH on. -/
def registryHigh : List TypeRow :=
  [⟨0x0601, [5, 6], tilesTo 0 8, .latch, .optional⟩, ⟨0x0602, [5, 6], tilesTo 0x10 16, .latch, .optional⟩,
   ⟨0x0603, [5, 6], tilesTo 0x10 16, .latch, .optional⟩, ⟨0x0604, [5, 6], tilesTo 0 8, .latch, .wall⟩,
   ⟨0x0681, [5, 6], tilesTo 0 8, .mode, .optional⟩, ⟨0x0682, [5, 6], [0, 4], .mode, .optional⟩, ⟨0x0683, [5, 6], tilesTo 0 8, .latch, .optional⟩,
   ⟨0x0701, [7], [0], .audio, .optional⟩, ⟨0x0702, [7], [0], .audio, .optional⟩, ⟨0x0703, [7], [0], .rennet, .optional⟩,
   ⟨0x0801, [0], [0x0A], .full, .always⟩, ⟨0x0901, [7], [1], .rennet, .always⟩, ⟨0x0902, [7], [1], .rennet, .optional⟩,
   ⟨0x0A01, [0], [7], .stage, .optional⟩, ⟨0x0B01, [0], [9], .swap, .always⟩, ⟨0x0B02, [0], [0], .swap, .always⟩,
   ⟨0x0B03, [0], [2], .rennet, .always⟩, ⟨0x0B04, [0], [3], .rennet, .optional⟩, ⟨0x0C01, [0], [4], .rennet, .always⟩,
   ⟨0x0D01, [0], [5], .rennet, .always⟩, ⟨0x0D02, [0], [5], .swap, .always⟩, ⟨0x0E81, [0], [8], .rennet, .always⟩]

def registry : List TypeRow := registryLow ++ registryHigh

/-- The row of a type. -/
def typeRow (type : Nat) : Option TypeRow := registry.find? fun r => r.type == type

/-- The apply class of a type; a type outside the registry has none. -/
def applyOf (type : Nat) : Option ApplyClass := (typeRow type).map (·.applies)

/-- The tiles of a domain that an entry reaches (R54): one tile, or with 0xFF every tile that Table 3-4 lists for its type. -/
def reach (type domain tile : Nat) : List Nat :=
  match typeRow type with
  | some r => if r.domains.contains domain then (if tile = 0xFF then r.tiles else if r.tiles.contains tile then [tile] else []) else []
  | none => []

/-! ## The container (Tables 3-2 to 3-8) -/

/-- An entry of the section table (Table 3-3). -/
structure Entry3 where
  type   : Nat
  domain : Nat
  tile   : Nat
  index  : Nat
  group  : Nat
  zero   : Nat
  offset : Nat
  length : Nat
  digest : List Byte
  deriving DecidableEq, Repr

/-- Entry `i` of the table of an image. -/
def tableEntry (p : List Byte) (i : Nat) : Entry3 :=
  let o := 128 + 32 * i
  { type := le p o 2, domain := le p (o + 2) 1, tile := le p (o + 3) 1, index := le p (o + 4) 1, group := le p (o + 5) 1,
    zero := le p (o + 6) 2, offset := le p (o + 8) 4, length := le p (o + 12) 4, digest := (p.drop (o + 16)).take 16 }

/-- The section table. -/
def tableOf (p : List Byte) : List Entry3 := (List.range (le p 10 2)).map (tableEntry p)

/-- The payload of an entry. -/
def Entry3.payload (e : Entry3) (p : List Byte) : List Byte := (p.drop e.offset).take e.length

/-- Certificate `i` of the chain (R59). -/
def certificate (p : List Byte) (i : Nat) : List Byte := (p.drop (le p 24 4 + 16 + 1056 * i)).take 1056

/-- Fields of a certificate (Table 3-8). -/
def certModulus (c : List Byte) : List Byte := (c.drop 16).take 512
def certPerms (c : List Byte) : Nat := le c 4 4
def certIssuer (c : List Byte) : Nat := le c 532 8

/-- First 8 bytes of SHA-512 over a modulus and exponent as stored (Table 3-8, R344). -/
def keyIdOf (modulus : List Byte) (exponent : Nat) : Nat := le (Config.sha512 (modulus ++ leBytes 4 exponent)) 0 8

/-- The certificate keeps Table 3-8. -/
def certShape (c : List Byte) : Bool :=
  le c 0 2 == 1056 && le c 2 2 == 0 && le c 4 4 / 16 % 16 == 0 && le c 6 2 == 0 && 128 ≤ le c 16 1 && le c 528 4 == 65537 && le c 1052 4 == 0

/-! ## Validation (R62) -/

/-- Checks of the header, the signature block and the chain header with the offset of the field each concerns (R53, R59). -/
def formatChecks (p : List Byte) : List (Bool × Nat) :=
  let sig := le p 20 4
  let chain := le p 24 4
  let kind := le p 6 1
  let role := le p 7 1
  [(128 ≤ p.length, 0), (le p 0 4 == 0x4E494153, 0), (le p 4 2 == 1, 4),
   (1 ≤ kind && kind ≤ 3, 6), (if kind = 3 then role == 0xFF else role < 2, 7),
   (1 ≤ le p 10 2 && le p 10 2 ≤ 1024, 10),
   (le p 12 4 == p.length && p.length ≤ 268435456, 12), (le p 16 4 == 128, 16),
   (sig % 64 == 0 && 128 + 32 * le p 10 2 ≤ sig && (tableOf p).all (fun e => e.offset + e.length ≤ sig), 20), (chain == sig + 640, 24), (le p 56 72 == 0, 56),
   (le p sig 2 == 1, sig), (le p (sig + 2) 2 == 512, sig + 2), (le p (sig + 4) 4 == 0, sig + 4), (le p (sig + 584) 56 == 0, sig + 584),
   (1 ≤ le p chain 1 && le p chain 1 ≤ 3 && le p (chain + 1) 15 == 0 && chain + 16 + 1056 * le p chain 1 == p.length, chain)]

/-- The owner slot that anchors a chain: present, with ANCHOR, and of the KEY_ID that the last certificate names (R347). -/
def State.anchor (s : State) (issuer : Nat) : Option OwnerSlot :=
  (List.range 4).findSome? fun n =>
    let o := s.slot n
    if o.present && bit o.perms 3 && o.keyId.toNat == issuer then some o else none

/-- Certificate `i` verifies with its issuer's key (R59). -/
def State.certVerifies (s : State) (p : List Byte) (count i : Nat) : Bool :=
  let c := certificate p i
  let body := c.take 540
  let sig := (c.drop 540).take 512
  certShape c &&
  (if i + 1 = count then
    match s.anchor (certIssuer c) with
    | some o => Config.pssVerify o.modulus o.exponent body sig
    | none => false
   else
    let d := certificate p (i + 1)
    certIssuer c == keyIdOf (certModulus d) (le d 528 4) && Config.pssVerify (certModulus d) (le d 528 4) body sig)

/-- The permissions narrow along the chain (R60). -/
def chainNarrows (p : List Byte) (count i : Nat) : Bool :=
  let c := certificate p i
  let mine := certPerms c
  let lineage := le c 8 4
  (lineage == 0xFFFFFFFF || lineage == le p 28 4) &&
  (count ≤ i + 1 ||
    (let up := certPerms (certificate p (i + 1))
     bit up 3 && ([0, 1, 2, 8, 9, 10, 11, 12, 13, 14, 15].all fun b => !bit mine b || bit up b))) &&
  (i ≠ 0 || (bit mine (le p 6 1 - 1) && (tableOf p).all fun e => bit mine (8 + e.domain)))

/-- The class and the certificate that fail, the last one first. -/
def State.chainBad (s : State) (p : List Byte) : Option (FaultClass × Nat) :=
  let count := le p (le p 24 4) 1
  ((List.range count).reverse).findSome? fun i =>
    if !s.certVerifies p count i then some (F.IMG_CHAIN, i) else if !chainNarrows p count i then some (F.IMG_PERM, i) else none

/-- The kind allows the type (R50). -/
def kindAllows (kind type domain : Nat) : Bool :=
  match kind with
  | 1 => true
  | 2 => 1 ≤ domain && type != 0x0801
  | _ => domain == 0 && type != 0x0101 && type != 0x0801

/-- INDEX has a range for types with several instances (Table 3-3, R234). -/
def indexOk (type index : Nat) : Bool := if type = 0x0602 then index < 4 else index == 0

/-- Two entries are duplicates (R54). -/
def duplicates (a b : Entry3) : Bool :=
  a.type == b.type && a.domain == b.domain && a.index == b.index &&
  (reach a.type a.domain a.tile).any fun t => (reach b.type b.domain b.tile).contains t

/-- COMMIT_GROUPS keeps Table 3-6. -/
def commitGroupsOk (p : List Byte) : Bool := p.length == 64 && (List.range 16).all fun g => le p (4 * g + 2) 2 == 0

/-- Entry `i` keeps R50, R51, R54 and R55, and its digest agrees. -/
def entryOk (p : List Byte) (i : Nat) : Bool :=
  let es := tableOf p
  let e := tableEntry p i
  let role := le p 7 1
  let ts := reach e.type e.domain e.tile
  let sig := le p 20 4
  kindAllows (le p 6 1) e.type e.domain && !ts.isEmpty && (role == 0xFF || ts.all fun t => !roleGates role e.domain t) &&
  indexOk e.type e.index && e.group < 16 && e.zero == 0 && 1 ≤ e.length && e.offset % 16 == 0 &&
  128 + 32 * es.length ≤ e.offset && e.offset + e.length ≤ sig &&
  es.zipIdx.all (fun (f, j) =>
    j == i || (!duplicates e f && (e.offset + e.length ≤ f.offset || f.offset + f.length ≤ e.offset))) &&
  e.digest == (Config.sha512 (e.payload p)).take 16 && (e.type != 0x0A01 || commitGroupsOk (e.payload p))

/-- A firmware payload carries a good Krovdan release signature (R61, R337, R378). -/
def vendorOk (p : List Byte) : Bool :=
  let n := 32 + le p 4 4
  let block := (p.drop n).take 640
  block.length == 640 && le block 0 2 == 1 && le block 2 2 == 512 && le block 4 4 == 0 && le block 584 56 == 0 &&
  (block.drop 8).take 64 == Config.sha512 (p.take n) && Config.releaseVerify (p.take n) ((block.drop 72).take 512)

/-- A FULL image of a role must hold the type. -/
def needed (role : Nat) (r : TypeRow) : Bool :=
  match r.need with
  | .always => true
  | .source => role == 0
  | .wall => role == 1
  | .optional => false

/-- The first required type that a FULL image lacks. -/
def missingType (p : List Byte) : Option Nat :=
  if le p 6 1 = 1 then
    (registry.find? fun r => needed (le p 7 1) r && !((tableOf p).any fun e => e.type == r.type)).map (·.type)
  else none

/-- check(slot) of R62: the class of the first failure with its data after the slot number; none when the image is valid. -/
def State.checkImage (s : State) (p : List Byte) : Option (FaultClass × List Byte) :=
  let es := tableOf p
  match (formatChecks p).find? fun c => !c.1 with
  | some c => some (F.IMG_FORMAT, leBytes 2 c.2)
  | none =>
    if le p 8 2 ≠ 0x02B0 then some (F.IMG_TARGET, leBytes 2 (le p 8 2))
    else match s.chainBad p with
      | some (f, i) => some (f, leBytes 1 i)
      | none =>
        let sig := le p 20 4
        let body := p.take sig
        let c0 := certificate p 0
        if Config.sha512 body ≠ (p.drop (sig + 8)).take 64 ∨
            Config.pssVerify (certModulus c0) (le c0 528 4) body ((p.drop (sig + 72)).take 512) = false then some (F.IMG_SIGNATURE, [])
        else if le p 28 4 ≠ s.im.lineage.toNat then some (F.IMG_LINEAGE, leBytes 4 (le p 28 4))
        else if le p 32 4 < s.im.floor.toNat then some (F.IMG_ROLLBACK, leBytes 4 (le p 32 4) ++ leBytes 4 s.im.floor.toNat)
        else match (List.range es.length).find? fun i => !entryOk p i with
          | some i => some (F.IMG_SECTION, leBytes 2 i ++ leBytes 2 (tableEntry p i).type)
          | none =>
            match es.find? fun e => (e.type == 0x0B02 || e.type == 0x0D02) && !vendorOk (e.payload p) with
            | some e => some (F.IMG_VENDOR_SIG, leBytes 2 e.type)
            | none => (missingType p).map fun t => (F.IMG_SECTION, leBytes 2 0xFFFF ++ leBytes 2 t)

/-- The sections of an image, one for each tile that an entry reaches. -/
def sectionsIn (p : List Byte) : List Section :=
  ((tableOf p).zipIdx).flatMap fun (e, i) =>
    (reach e.type e.domain e.tile).map fun t =>
      { type := e.type, domain := e.domain, tile := t, index := e.index, group := e.group, entry := i, payload := e.payload p }

/-- A valid container as the image manager uses it. -/
def imageOf (p : List Byte) : Image :=
  { kind := le p 6 1, role := le p 7 1, lineage := le p 28 4, rollback := le p 32 4, build := le p 36 4, baseId := BitVec.ofNat 64 (le p 40 8),
    digest := (p.drop (le p 20 4 + 8)).take 64, sections := sectionsIn p }

end Sys2Proof.Machine
end

