-- ==== Sys2Proof/Machine/Image.lean ====
section
/-!
DEFINITION. The image manager apart from its commits (R62 to R67, R82, R83): staging slots and their validation, the rollback
floor, staged register writes, the boot store, and the registers of Tables 3-12 to 3-17.
-/

namespace Sys2Proof.Machine

/-! ## Slots (R62, R63) -/

/-- Staging slot S0 or S1. -/
def State.imgSlot (s : State) (n : Nat) : Slot := if n = 0 then s.im.slot0 else s.im.slot1

/-- Change it. -/
def State.modImgSlot (s : State) (n : Nat) (f : Slot → Slot) : State :=
  s.modIm fun im => if n = 0 then { im with slot0 := f im.slot0 } else { im with slot1 := f im.slot1 }

/-- A pending commit names the slot (R63). -/
def State.slotPinned (s : State) (n : Nat) : Bool := s.commits.live.any fun c => c.slot == some n

/-- IMG_SLOT_BUSY. -/
def State.slotBusy (s : State) (n : Nat) : State := s.log F.IMG_SLOT_BUSY R.im (leBytes 1 n)

/-- SLOT_CHECK (R62): validation begins; only MDP sessions may check a slot. -/
def execSlotCheck (agent : Agent) (slot : Fin 2) (s : State) : Out :=
  let n := slot.val
  if !s.running || agent.isCore then .next s
  else if (s.imgSlot n).state = .checking ∨ s.slotPinned n = true then .next (s.slotBusy n)
  else .next (s.modImgSlot n fun x => { x with state := .checking, reason := 0 })

/-- VALIDATION_DONE (R62): the outcome of the running validation. -/
def execValidationDone (slot : Fin 2) (s : State) : Out :=
  let n := slot.val
  if (s.imgSlot n).state ≠ .checking then .next s
  else match s.checkImage (s.imgSlot n).bytes with
    | none => .next ((s.modImgSlot n fun x => { x with state := .valid, reason := 0 }).event R.im_EVENTS 1)
    | some (c, data) =>
      let s := s.modImgSlot n fun x => { x with state := .refused, reason := c.code }
      .next ((s.log c R.im (leBytes 1 n ++ data)).event R.im_EVENTS 3)

/-- SLOT_CTRL_CLEAR (R63): the slot becomes EMPTY. -/
def execSlotCtrlClear (agent : Agent) (slot : Fin 2) (s : State) : Out :=
  let _ := agent
  let n := slot.val
  if !s.running then .next s
  else if s.slotPinned n then .next (s.slotBusy n)
  else .next (s.modImgSlot n fun _ => {})

/-! ## Floor and staged writes (R65, R67) -/

/-- FLOOR_RAISE: FLOOR < v ≤ RUN_ROLLBACK, or ignored. -/
def execFloorRaise (agent : Agent) (value : Word) (s : State) : Out :=
  let old := s.im.floor
  if s.running ∧ s.adminWrite agent ∧ old.toNat < value.toNat ∧ value.toNat ≤ s.im.runRollback.toNat then
    .next ((s.modIm fun im => { im with floor := value }).log F.IMG_FLOOR R.im (leBytes 4 old.toNat ++ leBytes 4 value.toNat))
  else .next s

/-- The registers marked "staged": ASYM_NS of each PTP instance (Table 2-15). -/
def stagedRegister (addr : Nat) : Bool := (List.range 6).any fun i => addr == R.ptp_ASYM_NS i

/-- ASYM_NS takes -100,000 to 100,000 ns. -/
def stagedInRange (value : Word) : Bool := decide (-100000 ≤ value.toInt) && decide (value.toInt ≤ 100000)

/-- STAGED_WRITE (R67): the write enters the session's set of at most 256. -/
def execStagedWrite (session : Fin 8) (addr : Nat) (value : Word) (s : State) : Out :=
  let i := session.val
  if !(s.running && (s.session i).present && stagedRegister addr && stagedInRange value) then .next s
  else if 256 ≤ (s.session i).staged.length then .next (s.log F.IMG_STAGE_FULL R.im (leBytes 4 (s.session i).id.toNat ++ leBytes 4 addr))
  else .next (s.modSession i fun x => { x with staged := x.staged ++ [⟨addr, value⟩] })

/-- What a session reads at a staged register: its own staged value, or the value in force. -/
def State.stagedRead (s : State) (g : Agent) (addr : Nat) : Word :=
  match g with
  | .session i => match (s.session i.val).staged.reverse.find? fun w => w.addr == addr with
    | some w => w.value
    | none => s.reg addr
  | _ => s.reg addr

/-! ## Boot store (R82) -/

/-- Bank A or B. -/
def State.bank (s : State) (b : Bool) : BootBank := if b then s.im.bankB else s.im.bankA

/-- Change it. -/
def State.modBankState (s : State) (b : Bool) (f : BootBank → BootBank) : State :=
  s.modIm fun im => if b then { im with bankB := f im.bankB } else { im with bankA := f im.bankA }

/-- A refusal under R82. -/
def State.bootBusy (s : State) (b : Bool) : State := s.log F.IMG_BOOT_BUSY R.im (leBytes 1 (b2n b))

/-- A bank write has failed. -/
def State.bootFail (s : State) (b : Bool) (cls : Nat) : State :=
  (s.log F.IMG_BOOT_FAIL R.im (leBytes 1 (b2n b) ++ leBytes 2 cls)).event R.im_EVENTS 64

/-- The device runs from a boot image: phase 4 has been reached. -/
def State.bootRuns (s : State) : Bool := 4 ≤ s.startup.phase && !s.startup.noImage

/-- BOOT_WRITE: a VALID FULL slot is copied into a bank. The bank that the device started from is written only while the other
one is valid. -/
def execBootWrite (agent : Agent) (bank : Bool) (slot : Fin 2) (s : State) : Out :=
  let x := s.imgSlot slot.val
  if !(s.running && s.adminWrite agent) then .next s
  else if s.im.bootWrite.isSome || (s.bootRuns && s.im.startedFrom == bank && (s.bank (!bank)).state != .valid) then
    .next (s.bootBusy bank)
  else if x.state ≠ .valid ∨ (imageOf x.bytes).kind ≠ 1 then .next (s.bootFail bank F.IMG_SLOT_STATE.code)
  else
    let s := s.modBankState bank fun _ => { state := .writing }
    .next (s.modIm fun im => { im with bootWrite := some (bank, x.bytes) })

/-- BOOT_WRITE_DONE: the bank has been written and is validated under R62. -/
def execBootWriteDone (s : State) : Out :=
  match s.im.bootWrite with
  | none => .next s
  | some (b, p) =>
    let s := s.modIm fun im => { im with bootWrite := none }
    match s.checkImage p with
    | none =>
      let s := s.modBankState b fun _ => { state := .valid, bytes := p }
      .next ((s.log F.IMG_BOOT_WRITE R.im (leBytes 1 (b2n b) ++ leBytes 4 (imageOf p).build)).event R.im_EVENTS 64)
    | some (c, _) => .next ((s.modBankState b fun _ => { state := .invalid, bytes := p }).bootFail b c.code)

/-- BOOT_PREFER: only a valid bank may be preferred. -/
def execBootPrefer (agent : Agent) (bank : Bool) (s : State) : Out :=
  if !(s.running && s.adminWrite agent) then .next s
  else if (s.bank bank).state = .valid then .next (s.modIm fun im => { im with preferred := bank })
  else .next (s.bootBusy bank)

/-! ## Registers (Tables 3-12 to 3-17) -/

/-- STATE of Table 3-14. -/
def CommitState.code : CommitState → Nat
  | .accepted => 1 | .ready => 2 | .go => 3 | .applied => 4 | .refused => 5 | .abandoned => 6 | .cancelled => 7

/-- STATE of Table 3-13. -/
def SlotState.code : SlotState → Nat
  | .empty => 0 | .loading => 1 | .checking => 2 | .valid => 3 | .refused => 4 | .lost => 5

/-- STATE of a bank (Table 3-17). -/
def BankState.code : BankState → Nat
  | .empty => 0 | .valid => 1 | .invalid => 2 | .writing => 3

/-- STATE. -/
def State.imState (s : State) : Word :=
  w32 (0x200 * b2n (s.commits.live.any fun c => c.image.kind == 1) + 0x100 * b2n s.roll.active + 4 * s.commits.live.length + s.roleNo)

/-- SLOT0 and SLOT1. -/
def State.slotReg (s : State) (n : Nat) : Word :=
  let x := s.imgSlot n
  w32 (0x10000000 * b2n (s.slotPinned n) + 0x1000000 * x.state.code + (if x.state = .valid then 0x400000 * (imageOf x.bytes).kind else 0) + x.reason)

/-- CMT_RESULT and QUERY_STATE: the state of a ticket; an unknown one that was issued is older than the last 256. -/
def State.ticketReg (s : State) (t : Nat) : Word :=
  match s.commits.tickets.find? fun x => x.ticket == t with
  | some x => w32 (0x10000000 * x.state.code + x.cls)
  | none => if t < s.commits.nextTicket ∧ 256 ≤ s.commits.tickets.length then 0x80000000 else 0

/-- ROLL. -/
def State.rollReg (s : State) : Word :=
  w32 (0x80000000 * b2n s.roll.active + 0x40000000 * b2n s.roll.halted + 0x100 * s.ripeSpares.length + s.rollRemaining)

/-- One processor's field of FW (Table 3-16). -/
def FwBank.field (b : FwBank) : Nat := 8 * b2n b.reverted + 4 * b2n b.unconfirmed + 2 * b2n b.swapping + b2n b.bank

/-- FW. -/
def State.fwReg (s : State) : Word := w32 (0x100 * s.im.fwHull.field + 0x10 * s.im.fwSp.field + s.im.fwTc.field)

/-- BOOT. -/
def State.bootReg (s : State) : Word :=
  w32 (0x8000 * b2n s.im.bootWrite.isSome + 0x4000 * b2n s.im.startedFrom + 0x2000 * b2n s.im.preferred +
    0x100 * s.im.bankB.state.code + 0x10 * s.im.bankA.state.code)

/-- Distinct rennet points that are pending (R39). -/
def State.pendingStamps (s : State) : List Stamp := (s.commits.live.map (·.stamp)).dedup

/-- NEXT: the earliest pending stamp, 0 when none is pending. -/
def State.nextStamp (s : State) : Stamp :=
  match s.pendingStamps with
  | [] => 0
  | a :: r => r.foldl (fun m x => if later m x then x else m) a

end Sys2Proof.Machine
end

