-- ==== Sys2Proof/Machine/Roll.lean ====
section
/-!
DEFINITION. Rolling coder updates (R76 to R78): the steps of a roll, its halt and its completion.
-/

namespace Sys2Proof.Machine

/-- The coder, with its tile, begins to ripen. -/
def State.ripenCoder (s : State) (k : Nat) : State :=
  let t := coderTile k
  (s.modCoder k fun x => { x with state := .ripening, ripeFrom := s.now, selfDone := false, selfPass := false, selfStage := 0 }).modTile
    (tileNo t.1 t.2) fun x => { x with state := .ripening, ripeFrom := s.now }

/-- Ripe spares that still hold the old plane ripen the new one. -/
def State.ripenOldSpares (s : State) : State :=
  (s.ripeSpares.filter s.oldPlane).foldl (fun s k => s.ripenCoder k) s

/-- One step of the roll at its rennet point: a planned takeover (R77). -/
def State.rollStep (s : State) (a : Stamp) : State :=
  match s.rollNext, s.newSpare with
  | some (c, k), some new =>
    let s := s.takeoverCause c k 6 (some new)
    let s := s.modRoll fun r => { r with steps := r.steps + 1, lastStep := a, stalled := none }
    (s.log F.IMG_ROLL_STEP R.im (leBytes 1 c ++ leBytes 1 k ++ leBytes 1 new)).event R.im_EVENTS 16
  | _, _ => s.rollWaits

/-- The roll is complete when every coder tile holds the new plane. -/
def State.rollDoneCheck (s : State) : State :=
  if s.roll.active ∧ s.rollRemaining = 0 then
    let s := s.modRoll fun r => { r with active := false, nextStep := none, stalled := none }
    (s.log F.IMG_ROLL_DONE R.im (leBytes 4 s.roll.ticket)).event R.im_EVENTS 16
  else s

/-- Rennet point of the next step: MIN_LEAD from now, and CMT_ROLL_GAP after the last step (R77). -/
def State.rollPoint (s : State) : Stamp :=
  let a := s.stamp + BitVec.ofNat 64 s.minLead
  let b := s.roll.lastStep + BitVec.ofNat 64 (ticksUp s.mode (ms s.roll.gap))
  if later b a then b else a

/-- ROLL_STEP_SCHEDULE (R77 step 5): the image manager chooses the next step's rennet point once it is a MIN_LEAD away, with at
least 2 spares ripe. -/
def execRollStepSchedule (s : State) : Out :=
  let r := s.roll
  if !r.active || r.nextStep.isSome then .next s
  else if s.rollNext.isNone then .next s.ripenOldSpares.rollDoneCheck
  else if s.ripeSpares.length < 2 then .next s.rollWaits
  else if s.reached (r.lastStep + BitVec.ofNat 64 (ticksUp s.mode (ms r.gap)) - BitVec.ofNat 64 s.minLead) then
    .next (s.modRoll fun r => { r with nextStep := some s.rollPoint })
  else .next s

/-- ROLL_STEP (R77): the rennet point chosen for the step has come. -/
def execRollStep (s : State) : Out :=
  match s.roll.nextStep with
  | none => .next s
  | some a =>
    if s.roll.active ∧ s.reached a then
      .next ((s.modRoll fun r => { r with nextStep := none }).rollStep a)
    else .next s

/-- ROLL_HALT (R78): no step has been possible for 1 s. -/
def execRollHalt (s : State) : Out :=
  match s.roll.stalled with
  | none => .next s
  | some t =>
    if s.roll.active ∧ s.due (t + sec 1) ∧ 0 < s.rollRemaining then
      let left := s.rollRemaining
      let s := s.modRoll fun r => { r with active := false, halted := true, nextStep := none, stalled := none }
      .next ((s.log F.IMG_ROLL_HALT R.im (leBytes 1 left ++ leBytes 1 s.ripeSpares.length)).event R.im_EVENTS 16)
    else .next s

end Sys2Proof.Machine
end

