-- ==== Sys2Proof/Machine/Compose.lean ====
section
/-!
DEFINITION. Composition of one line of a head (R217 to R232): the curds that a snapshot shows, source pixels, scaling, the colour
matrix, blending, the void pattern and the heartbeat mark.
-/

namespace Sys2Proof.Machine

/-! ## Reading surfaces (R127, R158, R219, R220, R223) -/

/-- Void reasons of Table 9-3. -/
def voidLate : Nat := 4
def voidDamaged : Nat := 5
def voidRead : Nat := 6
def voidUnit : Nat := 7
def voidMemory : Nat := 8
def voidFreeze : Nat := 9
def voidSafe : Nat := 10
def voidMode : Nat := 11

/-- What a reader works on: a surface with its plan, the snapshot, and the slots that read uncorrectable or whose tag changed while they
were read. -/
structure ReadView where
  plan : SurfPlan
  surf : Surface
  snap : Nat
  bad  : List (Nat × Nat × Nat)
  moved : List (Nat × Nat × Nat)
  deriving DecidableEq, Repr

/-- The version that the snapshot takes at a position: its frame, header and payload, or a void reason (R127, R223). -/
def ReadView.version (a : ReadView) (y s k : Nat) : Nat ⊕ (Nat × CurdHead × List Byte) :=
  if a.bad.contains (y, s, k) then .inl voidRead
  else if a.moved.contains (y, s, k) then .inl voidLate
  else match (a.surf.slot (a.plan.geom.position y s k)).newest a.snap with
    | none => .inl voidLate
    | some v => if v.void then .inl voidDamaged else .inr (v.frame, readHead v.record, v.record.drop 6)

/-- What a reader holds of a curd that it has decoded: the void reason, or the frame and the reconstruction. -/
abbrev ShownCurd := Nat ⊕ (Nat × List (List Int))

/-- The content shown at a position, given what was taken directly above it (R158, R223). A curd without RESTART whose above curd is
shown from another frame is void as DAMAGED. -/
def ReadView.decode (a : ReadView) (y s k : Nat) (above : ShownCurd) : ShownCurd :=
  match a.version y s k with
  | .inl r => .inl r
  | .inr (f, h, p) =>
    let dec (u : Option (List (List Int))) : ShownCurd :=
      match decodeCurd a.plan.geom.fmt a.surf.v (a.plan.geom.units s k) u h p with
      | some u => .inr (f, u)
      | none => .inl voidDamaged
    if h.restart || restartPos a.surf.v y k then dec none
    else match above with
      | .inl r => .inl r
      | .inr (g, u) => if g = f then dec (some u) else .inl voidDamaged

/-- What a layer's readers have decoded at a position; a curd that they have not read is late. -/
def readAt (m : Sparse ShownCurd) (y s k : Nat) : ShownCurd := m.get (fun _ => .inl voidLate) (256 * y + 64 * s + k)

/-- The units of a source line in raster order: void with a reason, or samples. -/
def ReadView.lineUnits (a : ReadView) (m : Sparse ShownCurd) (y : Nat) : List (Nat ⊕ List Int) :=
  a.plan.geom.positions.flatMap fun e => match readAt m y e.1 e.2 with
    | .inl r => List.replicate (a.plan.geom.units e.1 e.2) (.inl r)
    | .inr (_, u) => u.map .inr

/-- A sample promoted to 12 bits. -/
def promote (fmt : Nat) (x : Int) : Nat := x.toNat * 2 ^ (12 - depthOf fmt)

/-- The two pixels of a 4:2:2 unit, with the unit after it. -/
def pairPixels (fmt : Nat) (u : Nat ⊕ List Int) (next : Option (Nat ⊕ List Int)) : List Pix :=
  match u with
  | .inl r => [.void r, .void r]
  | .inr v =>
    let g (l : List Int) (i : Nat) : Nat := promote fmt (l.getD i 0)
    let first : Pix := .val (g v 0) (g v 2) (g v 3)
    match next with
    | none => [first, .val (g v 1) (g v 2) (g v 3)]
    | some (.inl r) => [first, .void r]
    | some (.inr w) => [first, .val (g v 1) ((g v 2 + g w 2 + 1) / 2) ((g v 3 + g w 3 + 1) / 2)]

/-- Pixels of 4:2:2 units. -/
def pairsPixels (fmt : Nat) : List (Nat ⊕ List Int) → List Pix
  | [] => []
  | u :: r => pairPixels fmt u r.head? ++ pairsPixels fmt r

/-- A source line as the reader passes it on: 12-bit components in the order of the family (R220). -/
def ReadView.line (a : ReadView) (m : Sparse ShownCurd) (y : Nat) : List Pix :=
  let fmt := a.plan.geom.fmt
  let us := a.lineUnits m y
  match fmt % 4 with
  | 0 => pairsPixels fmt us
  | 1 => us.map fun u => match u with
    | .inl r => .void r
    | .inr v => .val (promote fmt (v.getD 0 0)) (promote fmt (v.getD 1 0)) (promote fmt (v.getD 2 0))
  | _ => us.map fun u => match u with
    | .inl r => .void r
    | .inr v => .val (promote fmt (v.getD 2 0)) (promote fmt (v.getD 0 0)) (promote fmt (v.getD 1 0))

/-! ## Layer records (Table 9-5) -/

/-- Record of layer i of a LAYER_GRAPH payload. -/
def layerRec (g : List Byte) (i : Nat) : List Byte := (g.drop (32 + 48 * i)).take 48

/-- One enabled layer. -/
structure Layer where
  fresh   : Nat
  alpha   : Nat
  surface : Nat
  scaler  : Option Nat
  hset    : Nat
  vset    : Nat
  readers : Nat
  reader0 : Nat
  sx : Nat
  sy : Nat
  sw : Nat
  sh : Nat
  dx : Nat
  dy : Nat
  dw : Nat
  dh : Nat
  deriving DecidableEq, Repr

/-- The layer that a record spells; none with ENABLE clear. -/
def readLayer (r : List Byte) : Option Layer :=
  if bit (le r 0 1) 0 then
    some { fresh := le r 1 1, alpha := le r 2 2, surface := le r 4 2, scaler := if le r 6 1 = 0xFF then none else some (le r 6 1),
           hset := le r 7 1 % 4, vset := le r 7 1 / 4 % 4, readers := le r 8 1, reader0 := le r 9 1,
           sx := le r 12 4, sy := le r 16 4, sw := le r 20 4, sh := le r 24 4, dx := le r 28 2, dy := le r 30 2,
           dw := le r 32 2, dh := le r 34 2 }
  else none

/-- The destination rectangle holds a canvas position. -/
def Layer.holds (l : Layer) (x y : Nat) : Bool := l.dx ≤ x && x < l.dx + l.dw && l.dy ≤ y && y < l.dy + l.dh

/-! ## Scaling (R224 to R227) -/

/-- One axis of a layer: source start and size in 1/64, destination start and size. -/
structure Axis where
  s : Nat
  n : Nat
  d : Nat
  m : Nat
  deriving DecidableEq, Repr

def Layer.axisH (l : Layer) : Axis := ⟨l.sx, l.sw, l.dx, l.dw⟩
def Layer.axisV (l : Layer) : Axis := ⟨l.sy, l.sh, l.dy, l.dh⟩

/-- step of an axis, in 1/65,536. -/
def Axis.step (a : Axis) : Nat := a.n * 1024 / a.m

/-- p of a destination position: source index and phase. -/
def Axis.pos (a : Axis) (x : Nat) : Int × Nat :=
  let p : Int := ((a.s * 1024 + (2 * (x - a.d) + 1) * a.step / 2 : Nat) : Int) - 32768
  (p / 65536, (p % 65536).toNat / 1024)

/-- A source index replaced by the nearest one inside the source range. -/
def Axis.inside (a : Axis) (i : Int) : Nat :=
  let lo := a.s / 64
  let hi := (a.s + a.n + 63) / 64 - 1
  if i < lo then lo else if (hi : Int) < i then hi else i.toNat

/-- Coefficient Hc[phase][t] of a set; linear without a COEFF_SET section. -/
def coeffH (set : Option (List Byte)) (phase t : Nat) : Int :=
  match set with
  | some p => signed 16 (le p (16 * phase + 2 * t) 2)
  | none => if t = 3 then 1024 - 16 * phase else if t = 4 then 16 * phase else 0

/-- Coefficient Vc[phase][t]. -/
def coeffV (set : Option (List Byte)) (phase t : Nat) : Int :=
  match set with
  | some p => signed 16 (le p (1024 + 12 * phase + 2 * t) 2)
  | none => if t = 2 then 1024 - 16 * phase else if t = 3 then 16 * phase else 0

/-- Rounding and clamping of a filter stage. -/
def stageOut (sum : Int) : Int := max 0 (min 4095 ((sum + 512) / 1024))

/-- Component j of a pixel; 0 for a void one. -/
def Pix.comp (p : Pix) (j : Nat) : Int :=
  match p with
  | .void _ => 0
  | .val a b c => (match j with | 0 => a | 1 => b | _ => c : Nat)

/-- What a scaler holds: its coefficient sets by index and its matrix. -/
structure ScalerCfg where
  sets   : Nat → Option (List Byte)
  matrix : Option (List Byte)

/-- Taps of an axis at a destination position: source index and coefficient. -/
def taps (a : Axis) (n back : Nat) (coef : Nat → Nat → Int) (x : Nat) : List (Nat × Int) :=
  let (i, phase) := a.pos x
  (List.range n).map fun (t : Nat) => (a.inside (i - (back : Int) + (t : Int)), coef phase t)

/-- A scaled pixel (R224, R225, R230): `src` gives a source line. -/
def scalePixel (l : Layer) (c : ScalerCfg) (src : Nat → List Pix) (x y : Nat) : Pix :=
  let hs := taps l.axisH 8 3 (coeffH (c.sets l.hset)) x
  let vs := taps l.axisV 6 2 (coeffV (c.sets l.vset)) y
  let at_ (col line : Nat) : Pix := (src line).getD col (.void voidLate)
  let reason := (vs.filter fun v => v.2 != 0).findSome? fun v => (hs.filter fun h => h.2 != 0).findSome? fun h =>
    match at_ h.1 v.1 with | .void r => some r | _ => none
  match reason with
  | some r => .void r
  | none =>
    let first := decide (l.dw ≤ (l.sw + 63) / 64)
    let out (j : Nat) : Nat :=
      (if first then stageOut ((vs.map fun v => v.2 * stageOut ((hs.map fun h => h.2 * (at_ h.1 v.1).comp j).sum)).sum)
       else stageOut ((hs.map fun h => h.2 * stageOut ((vs.map fun v => v.2 * (at_ h.1 v.1).comp j).sum)).sum)).toNat
    .val (out 0) (out 1) (out 2)

/-! ## Colour matrix (R228) -/

/-- M[j][i], PRE[i] and POST[j]; the identity without a COLOUR_MATRIX section. -/
def matM (p : Option (List Byte)) (j i : Nat) : Int :=
  match p with | some q => signed 16 (le q (6 * j + 2 * i) 2) | none => if i = j then 4096 else 0
def matPre (p : Option (List Byte)) (i : Nat) : Int := match p with | some q => signed 16 (le q (18 + 2 * i) 2) | none => 0
def matPost (p : Option (List Byte)) (j : Nat) : Int := match p with | some q => signed 16 (le q (24 + 2 * j) 2) | none => 0

/-- The matrix over one pixel, and whether a component was clamped. -/
def applyMatrix (m : Option (List Byte)) (p : Pix) : Pix × Bool :=
  match p with
  | .void r => (.void r, false)
  | .val .. =>
    let y (j : Nat) : Int :=
      (((List.range 3).map fun i => matM m j i * (p.comp i + matPre m i)).sum + 2048) / 4096 + matPost m j
    let cl (v : Int) : Nat := (max 0 (min 4095 v)).toNat
    (.val (cl (y 0)) (cl (y 1)) (cl (y 2)), (List.range 3).any fun j => y j < 0 || 4095 < y j)

/-! ## Blending, void pattern, heartbeat (R229, R231, R232) -/

/-- One step upward over a layer. -/
def blend (alpha : Nat) (p : Pix) (v : Nat × Nat × Nat) : Nat × Nat × Nat :=
  let f (x y : Nat) : Nat := (alpha * x + (256 - alpha) * y + 128) / 256
  (f (p.comp 0).toNat v.1, f (p.comp 1).toNat v.2.1, f (p.comp 2).toNat v.2.2)

/-- The composite of the layers at a pixel, top layer first: a void pixel ends the walk and voids the composite, an opaque one
ends the walk. -/
def composite (bg : Nat × Nat × Nat) : List (Nat × Pix) → Nat ⊕ (Nat × Nat × Nat)
  | [] => .inr bg
  | (alpha, p) :: r =>
    if alpha = 0 then composite bg r
    else match p with
      | .void q => .inl q
      | .val .. =>
        if alpha = 256 then .inr (blend alpha p bg)
        else match composite bg r with
          | .inl q => .inl q
          | .inr v => .inr (blend alpha p v)

/-- Three 16-bit components at an offset. -/
def colour (p : List Byte) (o : Nat) : Nat × Nat × Nat := (le p o 2, le p (o + 2) 2, le p (o + 4) 2)

/-- The colour of the void pattern at a canvas position (R231). -/
def hatch (reasons : List Byte) (reason x y : Nat) : Nat × Nat × Nat :=
  colour reasons (12 * reason + (if (x + y) / 16 % 2 = 0 then 0 else 6))

/-- The heartbeat mark at a head position in frame o, when the square holds it (R232). -/
def heartbeat (g : List Byte) (o x y : Nat) : Option (Nat × Nat × Nat) :=
  let hx := le g 0 2
  let hy := le g 2 2
  if hx ≤ x ∧ x < hx + 32 ∧ hy ≤ y ∧ y < hy + 32 then
    let right := decide (hx + 16 ≤ x)
    let low := decide (hy + 16 ≤ y)
    let q := match low, right with | false, false => 0 | false, true => 1 | true, true => 2 | true, false => 3
    some (colour g (if q = o % 4 then 10 else 16))
  else none

end Sys2Proof.Machine
end

