-- ==== Sys2Proof/Machine/Wall.lean ====
section
/-!
DEFINITION. The layers of a head (R217 to R233): its timing and gang, the resolution of layers at a latch, the lines that its
readers decode, and the composed line.
-/

namespace Sys2Proof.Machine

/-! ## Timing (R237, R239, Tables 10-5 and 10-6) -/

/-- A HEAD_TIMING section. -/
structure HeadTiming where
  enable : Bool
  width  : Nat
  height : Nat
  vt     : Nat
  fn     : Nat
  fd     : Nat
  off    : Nat
  deriving DecidableEq, Repr

/-- The timing that a payload spells. -/
def headTiming (p : List Byte) : HeadTiming :=
  { enable := bit (le p 0 1) 0, width := le p 2 2, height := le p 4 2, vt := le p 6 2, fn := le p 8 2, fd := le p 10 2, off := le p 12 2 }

/-- PTP time in ns of the start of a line of frame k, rounded up. -/
def HeadTiming.lineNs (t : HeadTiming) (k line : Nat) : Nat :=
  ceilDiv (k * t.fd * 1000000000) t.fn + ceilDiv ((t.off + line) * t.fd * 1000000000) (t.fn * t.vt)

/-- PTP time of the virtual latch of frame k: the latch line of the frame before it (R247). -/
def HeadTiming.latchNs (t : HeadTiming) (k : Nat) : Nat := t.lineNs (k - 1) t.height

/-- The first frame whose virtual latch lies at or after a PTP time. -/
def HeadTiming.firstAfter (t : HeadTiming) (ns : Nat) : Nat :=
  let base := ns * t.fn / (t.fd * 1000000000) - 1
  ((List.range 6).find? fun i => ns ≤ t.latchNs (base + i)).getD 5 + base

/-- ns of a frame period. -/
def HeadTiming.period (t : HeadTiming) : Nat := ceilDiv (t.fd * 1000000000) t.fn

/-- Domain and tile of a head. -/
def headDom (n : Nat) : Nat := 5 + n / 8
def headTile (n : Nat) : Nat := n % 8

/-- Timing in force of a head. -/
def State.timing (s : State) (n : Nat) : HeadTiming := headTiming (s.head n).timing

/-- The heads that share a head's timing generator; the lead is the first (R239). -/
def State.gangOf (s : State) (n : Nat) : List Nat :=
  if (s.head n).gang then (List.range 4).map (n / 4 * 4 + ·) else [n]
def State.leadOf (s : State) (n : Nat) : Nat := if (s.head n).gang then n / 4 * 4 else n

/-- Canvas position of a head's first pixel (R239). -/
def State.origin (s : State) (n : Nat) : Nat × Nat :=
  if (s.head n).gang then (n % 2 * 3840, n % 4 / 2 * 2160) else (0, 0)

/-- Data-path address of a head: the port of its path A (R255). -/
def State.headDp (s : State) (n : Nat) : Nat := dpAddr 1 ((s.head n).pathPort false) 0 0 0 0

/-- Control address of a head's entries: the lead's for a gang (R255). -/
def State.headCtrl (s : State) (n : Nat) : Nat := R.head (s.leadOf n)

/-- An entry about a head. -/
def State.headLog (s : State) (f : FaultClass) (n : Nat) (data : List Byte) (outs : List (Output × Nat) := []) : State :=
  s.logOut f (s.headCtrl n) (s.headDp n) outs (leBytes 1 n ++ data)

/-! ## Layers and units (R217, R218, R233) -/

/-- LAYER_GRAPH of a head. -/
def Head.graph (h : Head) : List Byte := h.section_ 0x0601

/-- Layer i of a head, when it is enabled. -/
def State.layerOf (s : State) (n i : Nat) : Option Layer := readLayer (layerRec (s.head n).graph i)

/-- How a layer stands. -/
def Head.res (h : Head) (i : Nat) : LayerRes := h.layers.get (fun _ => {}) i
def Head.setRes (h : Head) (i : Nat) (v : LayerRes) : Head := { h with layers := h.layers.put (fun _ => {}) i v }
def State.modRes (s : State) (n i : Nat) (f : LayerRes → LayerRes) : State := s.modHead n fun h => h.setRes i (f (h.res i))

/-- Readers of a layer. -/
def Layer.readerList (l : Layer) : List Nat := (List.range l.readers).map (l.reader0 + ·)

/-- The first faulty unit of a layer: whether it is a scaler, and its number. -/
def State.faultyUnit (s : State) (l : Layer) : Option (Bool × Nat) :=
  match l.readerList.find? fun r => (s.reader r).faulty || (s.reader r).failed with
  | some r => some (false, r)
  | none => match l.scaler with
    | some n => if (s.scaler n).faulty || (s.scaler n).failed then some (true, n) else none
    | none => none

/-- The layer that uses a unit: head and layer. -/
def State.userOf (s : State) (scaler : Bool) (unit : Nat) : Option (Nat × Nat) :=
  (List.range 16).findSome? fun n => (List.range 8).findSome? fun i =>
    match s.layerOf n i with
    | some l => if (if scaler then l.scaler == some unit else l.readerList.contains unit) then some (n, i) else none
    | none => none

/-- A unit's state. -/
def State.unit (s : State) (scaler : Bool) (n : Nat) : CheckedUnit := if scaler then s.scaler n else s.reader n
def State.modUnit (s : State) (scaler : Bool) (n : Nat) (f : CheckedUnit → CheckedUnit) : State :=
  if scaler then s.modScaler n f else s.modReader n f

/-- UNIT_FAULT of a layer (R236): a scaler's entry carries the scaler's control address. -/
def State.unitLog (s : State) (n i : Nat) (l : Layer) (scaler : Bool) (unit : Nat) : State :=
  s.logOut F.UNIT_FAULT (if scaler then R.sc unit else R.rd l.reader0) (s.surfDp l.surface) [(.head n, voidUnit)]
    (leBytes 1 n ++ leBytes 1 i ++ leBytes 1 unit ++ leBytes 4 (s.unit scaler unit).faults.length)

/-- The class of a layer's cause no longer stands on any layer of the head. -/
def State.endLayerCause (s : State) (n reason : Nat) : State :=
  if (List.range 8).any fun i => ((s.head n).res i).cause == some reason then s
  else match layerClass reason with
    | some c => s.clearCause (.head n) c.code
    | none => s

/-- A whole-layer void begins or changes its reason (R222). -/
def State.beginLayerCause (s : State) (n i : Nat) (l : Layer) (reason age : Nat) : State :=
  let old := (s.head n).res i
  if old.cause = some reason then s
  else
    let s := s.modRes n i fun r => { r with cause := some reason, snapshot := none }
    let s := match old.cause with | some q => s.endLayerCause n q | none => s.event (R.rd_EVENTS l.reader0) 4
    let base := leBytes 1 n ++ leBytes 1 i
    let log (f : FaultClass) (data : List Byte) : State :=
      s.logOut f (R.rd l.reader0) (s.surfDp l.surface) [(.head n, reason)] (base ++ data)
    match reason with
    | 7 => match s.faultyUnit l with
      | some (sc, u) => s.unitLog n i l sc u
      | none => s
    | 1 => log F.LAYER_STALE (leBytes 4 ((s.surface l.surface).ready.getD 0) ++ leBytes 1 (min 255 age))
    | 2 => log F.LAYER_EOV (leBytes 2 l.surface)
    | 3 => log F.LAYER_GEOMETRY (leBytes 2 l.surface)
    | _ => log F.LAYER_NO_SIGNAL (leBytes 2 l.surface)

/-- A layer resolves to a snapshot; an ended whole-layer cause is restored, and its area waits for the release (R222). -/
def State.showLayer (s : State) (n i : Nat) (l : Layer) (snap age : Nat) : State :=
  let old := (s.head n).res i
  let s := s.modRes n i fun r => { r with cause := none, snapshot := some snap, age := age, read := [] }
  match old.cause with
  | some q =>
    let s := s.modRes n i fun r => { r with held := some q }
    let s := (s.event (R.rd_EVENTS l.reader0) 8).logOut F.LAYER_RESTORED (R.rd l.reader0) (s.surfDp l.surface) []
      (leBytes 1 n ++ leBytes 1 i ++ leBytes 4 snap)
    s.endLayerCause n q
  | none => s

/-- The current source frame at a media clock value (R222). -/
def sourceFrame (tm fn fd : Nat) : Nat := tm * fn / (90000 * fd) % 2 ^ 32

/-- LAYER_RESOLVE (R222, Table 9-1): one layer at the latch whose PTP time is `ns`. -/
def State.resolveLayer (s : State) (n i ns rennet : Nat) : State :=
  match s.layerOf n i with
  | none =>
    let old := (s.head n).res i
    let s := s.modRes n i fun _ => {}
    match old.cause with | some q => s.endLayerCause n q | none => s
  | some l =>
    let s := if ((s.head n).res i).enabled then s else s.modRes n i fun r => { r with enabled := true, enabledAt := rennet }
    let x := s.surface l.surface
    let since := max ((s.head n).res i).enabledAt x.planAt
    if (s.faultyUnit l).isSome then s.beginLayerCause n i l 7 0
    else if x.invalid then s.beginLayerCause n i l 2 0
    else if !x.geomOk then s.beginLayerCause n i l 3 0
    else match x.ready with
      | none => s.beginLayerCause n i l 0 0
      | some r =>
        if x.readyAt < since then s.beginLayerCause n i l 0 0
        else
          let d := signed 32 ((sourceFrame (ns * 9 / 100000) x.rateN x.rateD + 2 ^ 32 - r) % 2 ^ 32)
          let age := d.toNat
          let s := s.modRes n i fun v => { v with age := age }
          if l.fresh < age then s.beginLayerCause n i l 1 age else s.showLayer n i l r age

/-! ## The lines that readers decode (R219, R223) -/

/-- The part of a range that lies in a window: first and one past last. -/
def clip (a n lo m : Nat) : Nat × Nat := (max a lo, min (a + n) (lo + m))

/-- Source columns that feed the destination columns [x0, x1), first and last. -/
def Layer.sourceCols (l : Layer) (x0 x1 : Nat) : Nat × Nat :=
  if l.scaler.isSome then
    (l.axisH.inside ((l.axisH.pos x0).1 - 3), l.axisH.inside ((l.axisH.pos (x1 - 1)).1 + 4))
  else (l.sx / 64 + (x0 - l.dx), l.sx / 64 + (x1 - 1 - l.dx))

/-- Source lines that feed a destination line, first and last. -/
def Layer.sourceLines (l : Layer) (y : Nat) : Nat × Nat :=
  if l.scaler.isSome then (l.axisV.inside ((l.axisV.pos y).1 - 2), l.axisV.inside ((l.axisV.pos y).1 + 3))
  else (l.sy / 64 + (y - l.dy), l.sy / 64 + (y - l.dy))

/-- What a layer's readers work on. -/
def State.readView (s : State) (n i : Nat) (l : Layer) : Option ReadView :=
  match s.surfPlan l.surface, ((s.head n).res i).snapshot with
  | some p, some snap =>
    some { plan := p, surf := s.surface l.surface, snap := snap,
           bad := (s.head n).badReads.filterMap fun b => if b.1 = i then some b.2 else none,
           moved := (s.head n).moved.filterMap fun b => if b.1 = i then some b.2 else none }
  | _, _ => none

/-- Restart position at or above a line (R145, R219). -/
def restartAbove (v k : Nat) : Nat → Nat
  | 0 => 0
  | y + 1 => if restartPos v (y + 1) k then y + 1 else restartAbove v k y

/-- The curd columns of a range of source columns, in order. -/
def Geometry.columns (g : Geometry) (lo hi : Nat) : List (Nat × Nat) :=
  g.positions.filter fun e =>
    let x := g.x0 e.1 + e.2 * g.curd
    decide (x ≤ hi) && decide (lo < x + g.pixels e.1 e.2)

/-- The curd columns that feed a range of source columns; in 4:2:2 the last pixel of a pair takes chroma of the next pair too (R220). -/
def Geometry.feeding (g : Geometry) (lo hi : Nat) : List (Nat × Nat) := g.columns lo (if g.fmt % 4 = 0 then hi + 1 else hi)

/-- The reader of column j of m: contiguous groups of nearly equal width. -/
def Layer.readerOf (l : Layer) (j m : Nat) : Nat := l.reader0 + (if m = 0 then 0 else j * l.readers / m)

/-- A decoded curd is counted, and when it is void its entry is logged at most once per second (R221, R223). -/
def State.curdRead (s : State) (n i r : Nat) (l : Layer) (a : ReadView) (y st k : Nat) (v : ShownCurd) : State :=
  let s := s.count (R.rd_RD_CURDS r)
  match v with
  | .inr _ => s
  | .inl q =>
    let s := s.count (R.rd_RD_VOID_AREAS r)
    let base := leBytes 1 n ++ leBytes 1 i
    let rate (s : State) (f : FaultClass) (data : Nat → List Byte) : State :=
      s.logRated f (8 * n + i) (R.rd l.reader0) (s.surfDp l.surface) data
    match q with
    | 4 => rate ((s.count (R.rd_RD_LATE r)).event (R.rd_EVENTS r) 1) F.LAYER_LATE (fun c => base ++ leBytes 4 a.snap ++ leBytes 4 c)
    | 5 => rate ((s.count (R.rd_RD_DAMAGED r)).event (R.rd_EVENTS r) 2) F.LAYER_DAMAGED
        (fun _ => base ++ leBytes 4 a.snap ++ leBytes 2 y ++ leBytes 1 k)
    | 6 => if a.bad.contains (y, st, k) then
        rate (s.count (R.rd_RD_ECC_UNCORR r)) F.READ_ECC (fun _ => base ++ leBytes 2 y ++ leBytes 1 k)
      else s
    | _ => s

/-- Readers decode the curds of source lines lo to hi of the layer's columns once each, from the top down, each column from its
restart position when `first` (R219). Lines above lo are needed no more. -/
def State.decodeLines (s : State) (n i : Nat) (l : Layer) (a : ReadView) (cols : List (Nat × Nat)) (first : Bool) (keep lo hi : Nat) : State :=
  let s := cols.zipIdx.foldl (fun s e =>
    let (st, k) := e.1
    let r := l.readerOf e.2 cols.length
    let from_ := if first then restartAbove a.surf.v k lo else lo
    (List.range (hi + 1 - from_)).foldl (fun s d =>
      let y := from_ + d
      let above : ShownCurd := if y = 0 then .inl voidDamaged else readAt ((s.head n).res i).read (y - 1) st k
      let v := a.decode y st k above
      (s.modRes n i fun x => { x with read := x.read.put (fun _ => .inl voidLate) (256 * y + 64 * st + k) v }).curdRead n i r l a y st k v) s) s
  s.modRes n i fun x => { x with read := x.read.filter fun e => keep ≤ e.1 / 256 }

/-! ## One composed line -/

/-- The configuration of a scaler in force. -/
def State.scalerCfg (s : State) (n : Nat) : ScalerCfg :=
  let of_ (type index : Nat) : Option (List Byte) :=
    ((s.scaler n).sections.find? fun x => x.type == type && x.index == index).map (·.payload)
  { sets := of_ 0x0602, matrix := of_ 0x0603 0 }

/-- A layer's part of one head line. -/
structure LayerLine where
  index : Nat
  layer : Layer
  /-- first visible canvas column -/
  x0    : Nat
  pix   : List Pix
  clamps : Nat
  deriving DecidableEq, Repr

/-- The layer's pixels of canvas line y over the columns [x0, x1). Pixels from column `late` on were not delivered in time
(R221). -/
def State.layerLine (s : State) (n i : Nat) (l : Layer) (x0 x1 y : Nat) (late : Option Nat) : LayerLine :=
  let r := (s.head n).res i
  let cols := (List.range (x1 - x0)).map (x0 + ·)
  let whole (q : Nat) : LayerLine := ⟨i, l, x0, cols.map fun _ => .void q, 0⟩
  match (if r.cause.isSome then r.cause else r.held), s.readView n i l with
  | some q, _ => whole q
  | none, none => whole 0
  | none, some a =>
    let (lo, hi) := l.sourceLines y
    let lines := (List.range (hi + 1 - lo)).map fun d => (lo + d, a.line r.read (lo + d))
    let src (j : Nat) : List Pix := match lines.find? fun e => e.1 == j with | some e => e.2 | none => []
    let px : List (Pix × Bool) := cols.map fun x =>
      match l.scaler with
      | none => ((src lo).getD (l.sx / 64 + (x - l.dx)) (.void voidLate), false)
      | some c => applyMatrix (s.scalerCfg c).matrix (scalePixel l (s.scalerCfg c) src x y)
    let px := px.zipIdx.map fun e => match late with
      | some f => if f ≤ x0 + e.2 then (Pix.void voidLate, false) else e.1
      | none => e.1
    ⟨i, l, x0, px.map (·.1), (px.filter (·.2)).length⟩

/-- Background colour of a graph. -/
def background (g : List Byte) : Rgb := colour g 4

/-- One composed line: each pixel's drawn colour and its void reason. `held` is the reason of a head-wide cause. -/
def State.composeLine (s : State) (n y : Nat) (held : Option Nat) (ls : List LayerLine) : List (Rgb × Option Nat) :=
  let h := s.head n
  let (ox, oy) := s.origin n
  let reasons := h.section_ 0x0604
  let areas := h.memAreas.flatMap fun a => a.layers.filterMap fun i => s.layerOf n i
  (List.range (s.timing n).width).map fun x =>
    let cx := ox + x
    let cy := oy + y
    let v : Nat ⊕ Rgb :=
      match held with
      | some q => .inl q
      | none =>
        if areas.any fun l => l.holds cx cy then .inl voidMemory
        else composite (background h.graph) (ls.reverse.filterMap fun l =>
          if l.layer.holds cx cy then some (l.layer.alpha, l.pix.getD (cx - l.x0) (.void voidLate)) else none)
    match heartbeat h.graph h.tagFrame x y, v with
    | some c, _ => (c, none)
    | none, .inl q => (hatch reasons q cx cy, some q)
    | none, .inr c => (c, none)

end Sys2Proof.Machine
end

