-- ==== Sys2Proof/Machine/Head.lean ====
section
/-!
DEFINITION. The commands of the wall heads, surface readers and scalers (R233, R237 to R252), and how a commit reaches a head
(R246 to R248).
-/

namespace Sys2Proof.Machine

/-! ## What holds a head (R239, R249) -/

/-- The causes on a head that hold the whole of it: all but those of whole-layer voids. -/
def State.headCauses (s : State) (n : Nat) : List Cause := (s.standing (.head n)).filter fun c => !isLayerClass c.cls

/-- A head-wide cause stands on the head or on a member of its gang. -/
def State.headHeld (s : State) (n : Nat) : Bool :=
  s.allHeld || (s.gangOf n).any fun m => !(s.headCauses m).isEmpty || (s.head m).frozen || (s.head m).state == .failed

/-- The reason that it shows: highest severity, among equals the earliest (R249); MODE while a request of KEEP or OFF holds it (R373). -/
def State.headReason (s : State) (n : Nat) : Nat :=
  if s.ledger.safe || s.startup.hostAt.isSome then voidSafe
  else match ((s.ledger.causes.filter fun e => (s.gangOf n).any fun m => e.1 == .head m && !isLayerClass e.2.cls).map (·.2)).foldl
      (fun (b : Option Cause) c => match b with
      | none => some c
      | some d => if d.sev < c.sev then some c else some d) none with
    | some c => c.reason
    | none => if s.hull.sagHeld then voidSafe else if s.allHeld then voidMode else voidFreeze

/-- Reason of the head-wide cause, when one stands. -/
def State.heldBy (s : State) (n : Nat) : Option Nat := if s.headHeld n then some (s.headReason n) else none

/-- A head-wide cause that stands holds the frame from the present line to its end: a head leaves the harmless state at a frame
start (R249). -/
def State.holdLine (s : State) (n : Nat) : State :=
  match s.heldBy n with
  | some q => s.modHead n fun h => { h with heldReason := some q, state := if h.state = .running then .harmless else h.state }
  | none => s

/-- The head sends frames now: it runs or is harmless, and its module sends (R210, R211). -/
def HeadState.active (x : HeadState) : Bool := x == .running || x == .harmless

/-! ## Sending one line (R240 to R242, R245) -/

/-- STATE, REASON and INVALID_FROM of a packet of the pixels [off, off + m): `tail` is the reason that a TAIL packet shows. -/
def packetState (px : List (Rgb × Option Nat)) (off : Nat) (held under : Option Nat) (tail : Nat) : Nat × Nat × Nat :=
  match held, under with
  | some q, _ => (3, q, 0xFFFF)
  | none, some u =>
    if u < off + px.length then (2, tail, u - off)
    else match px.findSome? (·.2) with | some q => (1, q, 0xFFFF) | none => (0, 0, 0xFFFF)
  | none, none => match px.findSome? (·.2) with | some q => (1, q, 0xFFFF) | none => (0, 0, 0xFFFF)

/-- Cut a list into runs of n. -/
def chunks {α : Type} (n : Nat) : Nat → List α → List (List α)
  | 0, _ => []
  | _, [] => []
  | f + 1, l => l.take n :: chunks n f (l.drop n)

/-- CRC-64 of R251, fed with bytes. -/
def sigFeed (c : Nat) (p : List Byte) : Nat := crcFeedR 0xC96C5795D7870F42 c p

/-- The packets of one line; a standby forms none (R205). Pixels from an underrun on are background, in STATE 3 too (R245). -/
def State.sendLine (s : State) (n y : Nat) (px : List (Rgb × Option Nat)) (held under : Option Nat) : State :=
  let h := s.head n
  let (bytes, pixels) := pgroupOf h.fmt
  let per := le h.flow 8 2 / bytes * pixels
  let t := s.timing n
  let rtp := rtpAt (t.lineNs h.frame 0)
  let bg := background h.graph
  (chunks per (px.length + 1) px).zipIdx.foldl (fun s e =>
    let off := e.2 * per
    let (tail, s) := match held, under with
      | none, some u => if u < off + e.1.length then s.freeBelow 12 else (0, s)
      | _, _ => (0, s)
    let (st, reason, from_) := packetState e.1 off held under tail
    let drawn := e.1.zipIdx.map fun p => match under with
      | some u => if u ≤ off + p.2 then bg else p.1.1
      | none => p.1.1
    let data := wireBytes h.fmt drawn
    let last := y + 1 == t.height && decide (px.length ≤ off + e.1.length)
    let claim := s.headClaim
    let s := if !h.sending then s else s.headSend n fun seq =>
      headPacket h.flow last seq rtp y off (validity st reason claim h.tagFrame (validTail h.lastValid from_)) data
    s.modHead n fun h => { h with sig := sigFeed h.sig data, sawVoid := h.sawVoid || st == 1, sawEov := h.sawEov || st == 2 || st == 3 }) s

/-! ## One active line -/

/-- The layers whose visible part holds canvas line cy, bottom up: index, layer, first and one past last column. -/
def State.visible (s : State) (n cy : Nat) : List (Nat × Layer × Nat × Nat) :=
  let (ox, oy) := s.origin n
  let t := s.timing n
  (List.range 8).filterMap fun i => match s.layerOf n i with
    | some l =>
      let (x0, x1) := clip l.dx l.dw ox t.width
      let (y0, y1) := clip l.dy l.dh oy t.height
      if x0 < x1 ∧ y0 ≤ cy ∧ cy < y1 then some (i, l, x0, x1) else none
    | none => none

/-- The readers' work for a head line: the source lines that it needs first (R219). -/
def State.readFor (s : State) (n cy : Nat) (v : Nat × Layer × Nat × Nat) : State :=
  let (i, l, x0, x1) := v
  let r := (s.head n).res i
  match r.cause, s.readView n i l with
  | none, some a =>
    let oy := (s.origin n).2
    let (clo, chi) := l.sourceCols x0 x1
    let cols := a.plan.geom.feeding clo chi
    let (lo, hi) := l.sourceLines cy
    if cy = max l.dy oy then s.decodeLines n i l a cols true lo lo hi
    else
      let before := (l.sourceLines (cy - 1)).2
      if before < hi then s.decodeLines n i l a cols false lo (before + 1) hi else s
  | _, _ => s

/-- Compose and send active line y of a head. -/
def State.activeLine (s : State) (n y : Nat) (fill : LineFill) : State :=
  let (ox, oy) := s.origin n
  let t := s.timing n
  let cy := oy + y
  let s := s.modHead n fun h => { h with badReads := fill.uncorr ++ h.badReads, moved := fill.moved ++ h.moved }
  let s := fill.corrected.foldl (fun s e => s.countBy (R.rd_RD_ECC_CORR e.1) e.2) s
  let vs := s.visible n cy
  let s := vs.foldl (fun s v => s.readFor n cy v) s
  let s := s.holdLine n
  let held := (s.head n).heldReason
  let ls := vs.map fun v => s.layerLine n v.1 v.2.1 v.2.2.1 v.2.2.2 cy ((fill.late.find? fun e => e.1 == v.1).map fun e => ox + e.2.2)
  let s := ls.foldl (fun s l =>
    let voids := (l.pix.filter fun p => match p with | .void _ => true | _ => false).length
    let s := match l.layer.scaler with
      | some c => ((s.countBy (R.sc_SC_PIXELS c) l.pix.length).countBy (R.sc_SC_VOID_PIX c) voids).countBy (R.sc_SC_CLAMPS c) l.clamps
      | none => s
    match ((s.head n).res l.index).cause, fill.late.find? fun e => e.1 == l.index with
    | none, some e =>
      let m := l.x0 + l.pix.length - max l.x0 (ox + e.2.2)
      let s := (s.countBy (R.rd_RD_LATE e.2.1) m).event (R.rd_EVENTS e.2.1) 1
      s.logRated F.LAYER_LATE (8 * n + l.index) (R.rd l.layer.reader0) (s.surfDp l.layer.surface)
        (fun c => leBytes 1 n ++ leBytes 1 l.index ++ leBytes 4 (((s.head n).res l.index).snapshot.getD 0) ++ leBytes 4 c)
    | _, _ => s) s
  let px := s.composeLine n y held ls
  let under := match fill.underrun with | some u => if u < t.width then some u else none | none => none
  let s := s.sendLine n y px held under
  let tail (x : Nat) : Bool := match under with | some u => decide (u ≤ x) | none => false
  let bg := background (s.head n).graph
  let keep := px.zipIdx.map fun e => (if tail e.2 then bg else e.1.1, e.1.2.isSome || tail e.2 || held.isSome)
  let s := if s.proxied n (s.head n).tagFrame then s.modHead n fun h => { h with picture := keep :: h.picture } else s
  let s := match under with
    | some _ =>
      let s := (s.count (R.head_UNDERRUNS n)).event (R.head_EVENTS n) 16
      let o := (s.head n).tagFrame
      s.logRated F.HEAD_UNDERRUN n (R.head n) (s.headDp n) (fun c => leBytes 1 n ++ leBytes 4 o ++ leBytes 2 y ++ leBytes 4 c)
    | none => s
  let panic := decide (fill.low < t.width)
  let s := if panic && !(s.head n).panic then s.count (R.head_PANICS n) else s
  let urgent := decide (fill.low < 2 * t.width)
  let s := s.modHead n fun h => { h with bufLow := min h.bufLow fill.low, panic := panic, urgent := urgent }
  s.raiseReads (vs.flatMap fun v => v.2.1.readerList) urgent panic

/-! ## The latch (R246, R222, R251) -/

/-- Units that the layers of a head use. -/
def State.unitsOf (s : State) (n : Nat) : List (Bool × Nat) :=
  (List.range 8).flatMap fun i => match s.layerOf n i with
    | some l => (l.readerList.map fun r => (false, r)) ++ (match l.scaler with | some c => [(true, c)] | none => [])
    | none => []

/-- A check of a unit fails (R233): a third fault within 60 s fails the unit; UNIT_FAULT is logged for the layer that uses it. -/
def State.unitFault (s : State) (scaler : Bool) (k : Nat) : State :=
  let at_ := s.now :: (s.unit scaler k).faults.filter fun x => s.now < x + sec 60
  let s := s.modUnit scaler k fun u => { u with faults := at_, faulty := true, failed := u.failed || decide (3 ≤ at_.length) }
  match s.userOf scaler k with
  | none => s
  | some (n, i) =>
    let s := s.event (if scaler then R.sc_EVENTS k else R.rd_EVENTS k) (if scaler then 1 else 16)
    match s.layerOf n i with
    | some l => s.unitLog n i l scaler k
    | none => s

/-- The self-check of a unit at a latch line, and its RETEST (R233); whether they pass is a free value. -/
def State.selfCheck (s : State) (scaler : Bool) (n : Nat) : State :=
  let u := s.unit scaler n
  if u.failed then
    if u.retest then
      let (ok, s) := s.freeBit
      s.modUnit scaler n fun u => if ok then { u with failed := false, faulty := false, faults := [], retest := false } else { u with retest := false }
    else s
  else if u.faulty then
    let (ok, s) := s.freeBit
    if ok then s.modUnit scaler n fun u => { u with faulty := false } else s.unitFault scaler n
  else s

/-- Sections of a scaler among those that a commit staged for a head. -/
def scalerSections (l : List Section) (c : Nat) : List Section :=
  l.filter fun x => (x.type == 0x0602 || x.type == 0x0603) && x.domain == 5 + c / 16 && x.tile == 0x10 + c % 16

/-- The head latches: staged values whose rennet point lies before the guard line (all of them at a virtual latch) apply in
issue order, its units repeat their self-check, its layers resolve for the next frame, and that frame's tag block is formed. -/
def State.latchHead (s : State) (n : Nat) (all : Bool) (ns next : Nat) : State :=
  let h := s.head n
  let takes (e : StagedLatch) : Bool := all || later h.guardStamp e.stamp
  let taken := h.staged.filter takes
  let s := s.modHead n fun h => { h with staged := h.staged.filter fun e => !takes e }
  let s := taken.foldl (fun s e =>
    let s := s.modHead n fun h => { h with latched := e.sections.filter fun x => x.type == 0x0601 || x.type == 0x0604 || x.type == 0x0683 }
    (s.unitsOf n).foldl (fun s u => if u.1 then s.modScaler u.2 fun c => { c with sections := scalerSections e.sections u.2 } else s) s) s
  let rennet := match taken.getLast? with | some e => e.at_ | none => s.now
  let s := (s.unitsOf n).foldl (fun s u => s.selfCheck u.1 u.2) s
  let s := s.modHead n fun h => { h with memAreas := h.memAreas.filter fun a => !a.remapped }
  let s := (List.range 8).foldl (fun s i => s.resolveLayer n i ns rennet) s
  let id := s.im.configId.toNat % 2 ^ 32
  (s.modHead n fun h => { h with newFrame := next % 2 ^ 32, newStamp := s.stamp, newConfig := id }).event (R.head_EVENTS n) 1

/-- Line events of the comparators (R250). -/
def State.lineMatch (s : State) (n line : Nat) : State :=
  let hit (a : Nat) : Bool := let v := (s.reg a).toNat; bit v 31 && v % 8192 == line
  let m := 2 * b2n (hit (R.head_LM0 n) && !(s.head n).lmDead0) + 4 * b2n (hit (R.head_LM1 n) && !(s.head n).lmDead1)
  if m = 0 then s else s.event (R.head_EVENTS n) m

/-- A new VT puts every comparator whose LINE is not below it out of use until it is rewritten (R250). -/
def State.lineLimit (s : State) (n vt : Nat) : State :=
  let out (a : Nat) : Bool := decide (vt ≤ (s.reg a).toNat % 8192)
  s.modHead n fun h => { h with lmDead0 := h.lmDead0 || out (R.head_LM0 n), lmDead1 := h.lmDead1 || out (R.head_LM1 n) }

/-- A comparator is rewritten. -/
def State.writeLine (s : State) (n : Nat) (second : Bool) (v : Word) : State :=
  let a := if second then R.head_LM1 n else R.head_LM0 n
  (s.setReg a (v &&& 0x80001FFF)).modHead n fun h => if second then { h with lmDead1 := false } else { h with lmDead0 := false }

/-- HEAD_LINE_START (R237, R240, R245, R246, R250): the next line of the head's frame begins. -/
def execHeadLineStart (head : Fin 16) (fill : LineFill) (s : State) : Out :=
  let n := head.val
  let h := s.head n
  let t := s.timing n
  let y := h.next
  let ns := t.lineNs h.frame y
  if h.state = .off ∨ t.vt ≤ y ∨ s.ptpNs < ns then .next s
  else
    let s := (s.modHead n fun h => { h with line := y, next := y + 1 }).lineMatch n y
    let s := if y + 1 = t.height then s.modHead n fun h => { h with guardStamp := s.stamp } else s
    if y < t.height then
      if h.inFrame then .next (s.activeLine n y fill) else .next s
    else if y = t.height then
      match h.startK with
      | some k =>
        if h.frame + 1 = k then
          let s := s.latchHead n true ns k
          if h.state = .enabled then .next (s.headLog F.HEAD_START n (leBytes 4 (k % 2 ^ 32))) else .next s
        else .next s
      | none =>
        if !(h.state.active || h.state == .failed) then .next s
        else if h.mode.isNone then .next (s.latchHead n false ns (h.frame + 1))
        else .next (s.event (R.head_EVENTS n) 1)
    else .next s

/-- HEAD_FRAME_START (R237, R239, R249): the next frame begins. -/
def execHeadFrameStart (head : Fin 16) (s : State) : Out :=
  let n := head.val
  let h := s.head n
  let t := s.timing n
  let k := h.frame + 1
  if h.state = .off ∨ h.next < t.vt ∨ s.ptpNs < t.lineNs k 0 then .next s
  else
    let s := s.modHead n fun h => { h with frame := k, next := 0, line := 0 }
    let starts := h.startK == some k
    let st := if starts then HeadState.running else h.state
    if !st.active ∨ (!starts ∧ h.startK.isSome) then .next s
    else
      let st := if s.headHeld n then HeadState.harmless else .running
      let sending := s.sends && (!s.pairMode || s.due (s.pair.grantedAt + us 500))
      let s := s.modHead n fun h => { h with
        state := st, startK := none, inFrame := true, heldReason := s.heldBy n, sending := sending, tagFrame := h.newFrame, tagStamp := h.newStamp,
        tagConfig := h.newConfig, sawVoid := false, sawEov := false, picture := [], badReads := [], moved := [], pend := !h.staged.isEmpty,
        sig := sigFeed 0xFFFFFFFFFFFFFFFF (leBytes 4 h.newFrame ++ leBytes 8 h.newStamp.toNat ++ leBytes 4 h.newConfig) }
      .next ((List.range 8).foldl (fun s i => match ((s.head n).res i).held with
        | some q =>
          let stands := match layerClass q with
            | some c => (s.standing (.head n)).any fun x => x.cls == c.code
            | none => false
          if stands then s else s.modRes n i fun r => { r with held := none }
        | none => s) s)

/-! ## Mode changes, starts and stops (R247, R248) -/

/-- The head's generator runs its timing from now on; the first frame sent is `k`. -/
def State.runFrom (s : State) (n k : Nat) : State :=
  let t := s.timing n
  let ns := s.ptpNs.toNat
  let cur := if t.lineNs (k - 1) 0 ≤ ns then k - 1 else k - 2
  let next := ((List.range t.vt).find? fun y => ns ≤ t.lineNs cur y).getD t.vt
  s.modHead n fun h => { h with
    startK := some k, frame := cur, next := next, line := next - 1, inFrame := false, lastSig := none, goodFrames := 0
    latchTarget := if h.staged.isEmpty then h.latchTarget else k % 2 ^ 32 }

/-- E of a mode change or a stop has come: one end-of-validity packet, then the new timing (R247), or 16 frame periods of
end-of-validity (R248). A failed head that is re-planned is failed no longer (R252). -/
def State.enterMode (s : State) (n : Nat) (p : List Byte) (gang : Bool) : State :=
  let h := s.head n
  let old := s.timing n
  let s := if h.state = .failed then (s.modHead n fun h => { h with freezeAt := [] }).clearCause (.head n) F.HEAD_FAILED.code else s
  let s := s.modHead n fun h => { h with mode := none, inFrame := false, eovPeriod := old.period }
  let s := if s.sends then s.headEov n voidMode else s
  if (headTiming p).enable then
    let s := s.modHead n fun h => { h with state := .modeGap }
    let s := s.headLog F.HEAD_MODE_CHANGE n (h.timing ++ p ++ leBytes 8 s.stamp.toNat)
    let s := (s.modHead n fun h => { h with timing := p, gang := gang }).lineLimit n (headTiming p).vt
    s.runFrom n ((headTiming p).firstAfter s.ptpNs.toNat)
  else s.modHead n fun h => { h with state := .stopping, eovLeft := some 16, startK := none, gang := gang }

/-- HEAD_FRAME_DONE (R250, R251, R252, R302, R247): the last packet of the frame in progress has left. -/
def execHeadFrameDone (head : Fin 16) (s : State) : Out :=
  let n := head.val
  let h := s.head n
  let t := s.timing n
  if !h.inFrame ∨ h.next < t.height ∨ s.ptpNs < t.lineNs h.frame t.height then .next s
  else
    let s := s.modHead n fun h => { h with inFrame := false }
    let s :=
      if !h.sending then s.modHead n fun h => { h with lastSig := none }
      else
        let s := (s.event (R.head_EVENTS n) 8).count (R.head_FRAMES_SENT n)
        let s := if h.sawVoid then s.count (R.head_VOID_FRAMES n) else s
        let s := if h.sawEov then s.count (R.head_EOV_FRAMES n) else s.modHead n fun h => { h with lastValid := h.tagFrame }
        let v := h.sig ^^^ 0xFFFFFFFFFFFFFFFF
        let equal := h.lastSig == some v
        let wrong := h.tagFrame != h.frame % 2 ^ 32
        let s := s.modHead n fun h => { h with signature := v, lastSig := some v }
        let s := if h.picture = [] then s
          else
            let pic := h.picture.reverse
            let w := proxyWidth t.width
            let blocks := (List.range (proxyHeight t.height)).flatMap fun by_ =>
              let rows := (pic.drop (16 * by_)).take 16
              (List.range w).map fun bx => rows.flatMap fun r => (r.drop (16 * bx)).take 16
            let voids := blocks.map fun b => b.any (·.2)
            let px := blocks.flatMap fun b =>
              let m (f : Rgb → Nat) : List Byte := leBytes 1 (proxySample 12 ((b.map fun e => f e.1).sum) b.length)
              m (·.1) ++ m (·.2.1) ++ m (·.2.2)
            (s.admitRecord 2 n (proxyPayload h.tagFrame t.width t.height h.fmt h.tagStamp voids px)).modHead n fun h => { h with picture := [] }
        if equal || wrong then
          let at_ := s.now :: h.freezeAt.filter fun x => s.now < x + sec 60
          let s := (s.modHead n fun h => { h with frozen := true, goodFrames := 0, freezeAt := at_ }).count (R.head_FREEZES n)
          let s := (s.event (R.head_EVENTS n) 32).headLog F.HEAD_FREEZE n (leBytes 4 h.tagFrame ++ leBytes 1 (if equal then 1 else 2)) [(.head n, voidFreeze)]
          if 3 ≤ at_.length then
            let s := (s.modHead n fun h => { h with state := .failed, eovPeriod := t.period }).headLog F.HEAD_FAILED n (leBytes 4 at_.length) [(.head n, voidFreeze)]
            s.headEov n voidFreeze
          else s
        else if h.frozen then
          if h.goodFrames = 0 then s.modHead n fun h => { h with goodFrames := 1 }
          else ((s.modHead n fun h => { h with frozen := false, goodFrames := 0 }).headLog F.HEAD_FREEZE_CLEARED n (leBytes 4 h.tagFrame)).clearCause
            (.head n) F.HEAD_FREEZE.code
        else s
    match h.mode with
    | some (p, g) => .next (s.enterMode n p g)
    | none => .next s

/-- HEAD_EOV_REPEAT (R243, R247, R248): one more end-of-validity packet a frame period after the last; a stopping head falls
silent after 16 frame periods. -/
def execHeadEovRepeat (head : Fin 16) (s : State) : Out :=
  let n := head.val
  let h := s.head n
  if s.due (h.lastEovAt + h.eovPeriod) then
    match h.state with
    | .modeGap => if s.sends then .next (s.headEov n voidMode) else .next s
    | .failed => if s.sends then .next (s.headEov n voidFreeze) else .next s
    | .stopping =>
      let left := h.eovLeft.getD 0 - 1
      if left = 0 then
        .next ((s.modHead n fun h => { h with state := .off, eovLeft := none }).headLog F.HEAD_STOP n (leBytes 4 h.tagFrame))
      else
        let s := s.modHead n fun h => { h with eovLeft := some left, lastEovAt := s.now }
        if s.sends then .next (s.headEov n voidMode) else .next s
    | _ => .next s
  else .next s

/-- The complete Latch-class values of a head in the configuration in force: its own sections and those of the scalers that its
layers name. -/
def State.headSections (s : State) (n : Nat) : List Section :=
  let own := s.config.filter fun x =>
    (x.type == 0x0601 || x.type == 0x0604 || x.type == 0x0683) && x.domain == headDom n && x.tile == headTile n
  let graph := match own.find? fun x => x.type == 0x0601 with | some x => x.payload | none => []
  let cs := (List.range 8).filterMap fun i => (readLayer (layerRec graph i)).bind (·.scaler)
  own ++ cs.flatMap fun c => scalerSections s.config c

/-- The values that a head's latched sections and scalers hold now, or will hold. -/
def State.headHolds (s : State) (n : Nat) : List Section :=
  match (s.head n).staged.getLast? with
  | some e => e.sections
  | none => (s.head n).latched ++ ((List.range 8).filterMap fun i => (s.layerOf n i).bind (·.scaler)).flatMap fun c => (s.scaler c).sections

/-- New HEAD_TIMING and gang of a head in the configuration in force. -/
def State.plannedTiming (s : State) (n : Nat) : List Byte := s.payload 0x0681 (headDom n) (headTile n)
def State.plannedGang (s : State) (n : Nat) : Bool := bit (le (s.payload 0x0682 (headDom n) (headTile n / 4 * 4)) 0 1) 0

/-- A rennet point has changed the configuration (R246 to R248): the head stages its Latch-class values, and starts, stops or
changes its timing. `replan` says that the commit updates the head tile. -/
def State.headCommit (s : State) (n : Nat) (stamp : Stamp) (replan : Bool) : State :=
  let h := s.head n
  let t := s.timing n
  let secs := s.headSections n
  let s := if secs = s.headHolds n then s
    else s.modHead n fun h => { h with
      staged := h.staged ++ [{ stamp := stamp, at_ := s.now, sections := secs }], pend := true,
      latchTarget := (match h.startK with
        | some k => if h.frame + 1 = k ∧ t.height ≤ h.line then k + 1 else k
        | none => if h.line + 1 < t.height then h.frame + 1 else h.frame + 2) % 2 ^ 32 }
  let p := s.plannedTiming n
  let g := s.plannedGang n
  let on := (headTiming p).enable
  let start (s : State) : State :=
    let s := s.modHead n fun h => { h with state := .enabled, timing := p, gang := g, mode := none, eovLeft := none }
    s.runFrom n ((headTiming p).firstAfter (s.ptpNs.toNat + us 500))
  match h.state with
  | .off => if on then start s else s.modHead n fun h => { h with timing := p, gang := g }
  | .stopping => if on then start s else s
  | .enabled => if on then (if p = h.timing ∧ g = h.gang then s else start s) else s.modHead n fun h => { h with state := .off, timing := p, gang := g, startK := none }
  | _ =>
    let members := if h.gang || g then (List.range 4).map (n / 4 * 4 + ·) else [n]
    let changed := replan || members.any fun m => s.plannedTiming m != (s.head m).timing || s.plannedGang m != (s.head m).gang
    if changed then
      if h.inFrame then s.modHead n fun h => { h with mode := some (p, g) } else s.enterMode n p g
    else s

/-- Scaler sections of a scaler that no layer uses apply at the rennet point (R234). -/
def State.scalerCommit (s : State) (c : Nat) : State :=
  if (s.userOf true c).isSome then s else s.modScaler c fun u => { u with sections := scalerSections s.config c }

/-! ## Faults and tests of heads, readers and scalers (R233, R252) -/

/-- HEAD_RETEST (R252): a failed head runs its self-test; whether it passes is a free value. -/
def execHeadRetest (agent : Agent) (head : Fin 16) (s : State) : Out :=
  let n := head.val
  let _ := agent
  if (s.head n).state = .failed then
    let (ok, s) := s.freeBit
    if ok then .next ((s.modHead n fun h => { h with state := .harmless, freezeAt := [], lastSig := none }).clearCause (.head n) F.HEAD_FAILED.code)
    else .next s
  else .next s

/-- UNIT_CHECK_FAIL (R233): a reader or scaler in use detects a fault; its layer is void from now on. -/
def execUnitCheckFail (scaler : Bool) (unit : Fin 64) (s : State) : Out :=
  let k := unit.val
  match s.userOf scaler k with
  | none => .next s
  | some (n, i) => match s.layerOf n i with
    | none => .next s
    | some l =>
      let s := s.unitFault scaler k
      let old := ((s.head n).res i).cause
      let s := s.modRes n i fun r => { r with cause := some voidUnit, snapshot := none }
      match old with
      | some q => if q = voidUnit then .next s else .next (s.endLayerCause n q)
      | none => .next (s.event (R.rd_EVENTS l.reader0) 4)

/-- A RETEST of a unit: ignored while it is not failed; at the next latch of its head, or at once when no layer uses it. -/
def State.retestUnit (s : State) (scaler : Bool) (n : Nat) : State :=
  if (s.unit scaler n).failed then
    let s := s.modUnit scaler n fun u => { u with retest := true }
    if (s.userOf scaler n).isSome then s else s.selfCheck scaler n
  else s

/-- READER_RETEST (R233). -/
def execReaderRetest (agent : Agent) (reader : Fin 64) (s : State) : Out :=
  let _ := agent
  .next (s.retestUnit false reader.val)

/-- SCALER_RETEST (R233). -/
def execScalerRetest (agent : Agent) (scaler : Fin 32) (s : State) : Out :=
  let _ := agent
  .next (s.retestUnit true scaler.val)

/-! ## Registers (Tables 9-9 to 9-11, 10-8 and 10-9) -/

/-- Code of STATE in HEAD_STATUS. -/
def HeadState.code : HeadState → Nat
  | .off => 0 | .enabled => 1 | .running => 2 | .modeGap => 3 | .harmless => 4 | .failed => 5 | .stopping => 6

/-- HEAD_STATUS. -/
def State.headStatus (s : State) (n : Nat) : Word :=
  let h := s.head n
  let t := s.timing n
  let st : HeadState := if h.state = .running ∧ s.headHeld n then .harmless else h.state
  let blank := h.state != .off && decide (t.height ≤ h.line)
  w32 (2 ^ 28 * st.code + 2 ^ 26 * (if h.gang then (if n % 4 = 0 then 1 else 2) else 0) + 2 ^ 24 * (if h.gang then n % 4 else 0) +
    2 ^ 23 * b2n (h.fmt % 4 == 2) + 2 ^ 22 * b2n (h.pend || !h.staged.isEmpty) + 2 ^ 21 * b2n h.urgent + 2 ^ 20 * b2n h.panic +
    2 ^ 19 * b2n h.frozen + 2 ^ 18 * b2n blank + 2 ^ 14 * (match st with
      | .harmless => (s.heldBy n).getD (h.heldReason.getD 0)
      | .failed => s.headReason n
      | _ => 0))

/-- A read of BUF_LOW sets it to 16,384. -/
def State.bufLowRead (s : State) (n : Nat) : State :=
  let v := (s.head n).bufLow
  (s.modHead n fun h => { h with bufLow := 16384 }).answer (w32 v)

/-- RD_STATUS, RD_SNAP and RD_AGE of a reader. -/
def State.readerRegs (s : State) (r : Nat) : Word × Word × Word :=
  let u := s.reader r
  match s.userOf false r with
  | none => (w32 (2 ^ 28 * (if u.failed then 2 else 0)), 0, 0)
  | some (n, i) => match s.layerOf n i with
    | none => (0, 0, 0)
    | some l =>
      let v := (s.head n).res i
      let lead := l.reader0 == r
      let void := if v.cause.isSome then v.cause else v.held
      let st := w32 (2 ^ 28 * (if u.failed then 2 else 1) + 2 ^ 27 * b2n lead +
        (if lead then 2 ^ 26 * b2n void.isSome + 2 ^ 22 * void.getD 0 + 2 ^ 18 * n + 2 ^ 15 * i + l.surface % 512 else 0))
      (st, if lead then w32 (v.snapshot.getD 0) else 0, if lead then w32 (min 255 v.age) else 0)

/-- SC_STATUS, SC_STEP_H and SC_STEP_V of a scaler. -/
def State.scalerRegs (s : State) (c : Nat) : Word × Word × Word :=
  let u := s.scaler c
  match s.userOf true c with
  | none => (w32 (2 ^ 28 * (if u.failed then 2 else 0)), 0, 0)
  | some (n, i) => match s.layerOf n i with
    | none => (0, 0, 0)
    | some l =>
      (w32 (2 ^ 28 * (if u.failed then 2 else 1) + 2 ^ 27 * b2n (decide ((l.sw + 63) / 64 < l.dw)) + 2 ^ 24 * i + 2 ^ 20 * n +
        2 ^ 18 * l.vset + 2 ^ 16 * l.hset), w32 l.axisH.step, w32 l.axisV.step)

end Sys2Proof.Machine
end

