-- ==== Sys2Proof/Machine/Hull.lean ====
section
/-!
DEFINITION. The commands of the hull side (R360 to R380) and the resets that it gives the module (R403, R404).
-/

namespace Sys2Proof.Machine

/-! ## Resets -/

/-- RST_CAUSE (Table 18-5). -/
def resetBit : ResetKind → Nat
  | .power => 0 | .vbus => 1 | .rail => 2 | .trip => 3 | .pin => 4 | .host => 5 | .wake => 6

/-- Registers that keep their value across every reset (Table 18-2): the counters marked stored and the factory
values. -/
def storedRegs : List Nat :=
  [R.hull_SAGS, R.hull_TRIPS, R.rec_WRITTEN_LO, R.rec_WRITTEN_HI, R.rec_WEAR_MAX, R.rec_SPARE_BLOCKS,
   R.mdp_SERIAL, R.id_ID_SERIAL, R.id_ID_DATE, R.id_ID_ROM, R.id_ID_HULL]

/-- UPTIME_S (Table 18-5). -/
def State.uptime (s : State) : Nat :=
  match s.clock.phase2 with
  | some t => min 0xFFFFFFFF ((s.now - t) / sec 1)
  | none => 0

/-- The reset leaves the module in OFF: it was latched there, or OFF stands or was being carried out and the reset is none of
those that leave OFF (Table 16-4). -/
def State.staysOff (s : State) (kind : ResetKind) : Bool :=
  s.hull.latchedOff || (s.hull.state == .off && (kind == .vbus || kind == .rail || kind == .trip))

/-- A reset of D0 to D7 (R403, R404): what Table 18-2 keeps stays, everything else takes its reset value. `rails` is the
number of rails that stay up. The rails of a request of OFF are gone with it, so its wake timer runs. -/
def State.resetDevice (s : State) (kind : ResetKind) (rails : Nat) : State :=
  { State.reset with
    regs := s.regs.filter fun e => storedRegs.contains e.1
    fresh := s.fresh
    wire := s.wire
    pending := s.pending
    readValue := s.readValue
    clock := { now := s.now }
    tio := s.tio.mapVals (fun _ => {}) fun _ p => { raw := p.raw, rawAt := p.rawAt }
    im := { lineage := s.im.lineage, floor := s.im.floor, bankA := s.im.bankA, bankB := s.im.bankB,
            preferred := s.im.preferred, fwHull := { bank := s.im.fwHull.bank, running := s.im.fwHull.running } }
    mdp := { slots := s.mdp.slots, draws := s.mdp.draws }
    recorder := { store := s.recorder.store }
    optics := s.optics.mapVals (fun _ => {}) fun _ o => { present := o.present }
    hull := { s.hull with rails := rails, starting := none, sagHeld := false, sagReleased := none, linkOk := false, stale := false,
                          temps := [], sampled := false, tjMax := 0, tjDomain := 0, warn := false, crit := false, keepAt := none, offDue := false,
                          state := if s.staysOff kind then .off else .run,
                          wakeAt := if s.hull.offDue && s.staysOff kind && s.hull.wakeS != 0 then some (s.now + sec s.hull.wakeS) else s.hull.wakeAt }
    ledger := { pinHigh := s.ledger.pinHigh, pinFiltered := true, pinSince := s.ledger.pinSince }
    startup := { kind := kind, phaseAt := s.now, count := min 0xFFFFFFFF (s.startup.count + 1),
                 prevUptime := if s.running then s.uptime else s.startup.prevUptime, pinHigh := s.startup.pinHigh, pinSince := s.startup.pinSince,
                 pinHeld := s.startup.pinHeld } }

/-- A boot bank write in progress leaves its bank invalid when the supply warning or a reset interrupts it (R82). -/
def State.interruptBootWrite (s : State) : State :=
  match s.im.bootWrite with
  | some (b, _) =>
    s.modIm fun m =>
      { m with bootWrite := none, bankA := if b then m.bankA else { m.bankA with state := .invalid },
               bankB := if b then { m.bankB with state := .invalid } else m.bankB }
  | none => s

/-- The hull controller's uptime in whole seconds (R363). -/
def State.hullUptime (s : State) : Nat := (s.now - s.hull.upSince) / sec 1

/-- Write an entry into the hull log: 64 entries, the oldest gives way (R363). -/
def State.hullLog (s : State) (c : FaultClass) (data : List Byte) (micros : Nat := 0) : State :=
  let e : HullEntry := ⟨c.code, c.sev, data ++ leBytes 4 s.hullUptime, micros⟩
  s.modHull fun h =>
    if 64 ≤ h.log.length then { h with log := h.log.drop 1 ++ [e], logLost := h.logLost + 1 } else { h with log := h.log ++ [e] }

/-! ## Feeds (R360, R361) -/

/-- The class of a feed voltage in mV (Table 16-1). -/
def feedClass (mv : Nat) : FeedClass :=
  if mv < 20000 then .absent else if mv < 40000 then .low else if mv ≤ 60000 then .good else if mv ≤ 75000 then .high else .over

/-- A feed. -/
def State.feed (s : State) (b : Bool) : Feed := if b then s.hull.feedB else s.hull.feedA

/-- Change a feed. -/
def State.modFeed (s : State) (b : Bool) (f : Feed → Feed) : State :=
  s.modHull fun h => if b then { h with feedB := f h.feedB } else { h with feedA := f h.feedA }

/-- FLAGS of POWER_POLICY; without the section FEED_A, FEED_B and AUTO_RESTART are set and TRIM is clear (R377). -/
def State.powerFlags (s : State) : Nat :=
  if s.hasSection 0x0D01 0 5 then le (s.payload 0x0D01 0 5) 0 1 else 14

/-- The feed is expected (FEED_A, FEED_B). -/
def State.feedExpected (s : State) (b : Bool) : Bool := bit s.powerFlags (if b then 3 else 2)

/-- A hull event bit; the hull interface is part of D0. -/
def State.hullEvent (s : State) (mask : Nat) : State := if s.running then s.event R.hull_EVENTS mask else s

/-- The feed's stage opens and the opening is logged (R361). -/
def State.openStage (s : State) (b : Bool) : State :=
  let s := s.modFeed b fun f => { f with closed := false }
  (s.hullEvent 4).log F.HULL_FEED_OFF R.hull (leBytes 1 (b2n b) ++ leBytes 4 (s.feed b).highest)

/-- FEED_CLASS_CHANGE (R360, R361): 1 ms in a new class of Table 16-1. Above 80 V the absolute ratings are left (R416). -/
def execFeedClassChange (feedB : Bool) (millivolts : Nat) (s : State) : Out :=
  if 80000 < millivolts then .fault .outsideRatings
  else
    let old := s.feed feedB
    let c := feedClass millivolts
    let high := if c = .high ∨ c = .over then max old.highest millivolts else millivolts
    if c = old.cls then .next (s.modFeed feedB fun f => { f with mv := millivolts, highest := high })
    else
      let s := (s.modFeed feedB fun f => { f with cls := c, mv := millivolts, highest := high, since := s.now }).hullEvent 4
      match c with
      | .absent | .low =>
        .next (if s.feedExpected feedB then s.log F.HULL_FEED_LOST R.hull (leBytes 1 (b2n feedB) ++ leBytes 4 millivolts) else s)
      | .good =>
        .next (if (old.cls = .low ∨ old.cls = .absent) ∧ old.closed then s.log F.HULL_FEED_RESTORED R.hull (leBytes 1 (b2n feedB)) else s)
      | .high => .next (s.log F.HULL_FEED_HIGH R.hull (leBytes 1 (b2n feedB) ++ leBytes 4 millivolts))
      | .over => .next (if old.closed then s.openStage feedB else s)

/-- FEED_OVER (R360): above 75 V the stage opens within 10 us, without waiting for the class change. -/
def execFeedOver (feedB : Bool) (millivolts : Nat) (s : State) : Out :=
  if 80000 < millivolts then .fault .outsideRatings
  else if 75000 < millivolts ∧ (s.feed feedB).closed then
    .next ((s.modFeed feedB fun f => { f with cls := .over, mv := millivolts, highest := max f.highest millivolts, since := s.now }).openStage feedB)
  else .next s

/-- FEED_HIGH_TIMEOUT (R360): 100 ms of HIGH open the stage. -/
def execFeedHighTimeout (feedB : Bool) (s : State) : Out :=
  let f := s.feed feedB
  if f.cls = .high ∧ f.closed ∧ s.due (f.since + ms 100) then .next (s.openStage feedB) else .next s

/-- FEED_STAGE_CLOSE (R361): an opened stage closes after 1 s of GOOD. -/
def execFeedStageClose (feedB : Bool) (s : State) : Out :=
  let f := s.feed feedB
  if f.cls = .good ∧ f.closed = false ∧ s.due (f.since + sec 1) then
    .next (((s.modFeed feedB fun f => { f with closed := true }).hullEvent 4).log F.HULL_FEED_RESTORED R.hull (leBytes 1 (b2n feedB)))
  else .next s

/-! ## The hull link (R364) -/

/-- HULL_LINK_LOST (R364): 1 ms of silence holds the telemetry. -/
def execHullLinkLost (s : State) : Out :=
  if s.running ∧ s.hull.linkOk then
    let s := s.modHull fun h => { h with linkOk := false, stale := true, linkLostAt := s.now }
    .next ((s.hullEvent 8).log F.HULL_LINK_LOST R.hull (leBytes 8 s.hull.linkStamp.toNat))
  else .next s

/-- HULL_LINK_RESTORED (R364): STALE clears, unless the hull controller's firmware is being swapped. -/
def execHullLinkRestored (s : State) : Out :=
  if s.running ∧ s.hull.linkOk = false then
    let d := (s.now - s.hull.linkLostAt) / 1000
    let s := s.modHull fun h => { h with linkOk := true, stale := s.im.fwHull.swapping }
    .next ((s.hullEvent 8).log F.HULL_LINK_RESTORED R.hull (leBytes 4 d))
  else .next s

/-! ## Rails (R365, R366) -/

/-- Nominal voltage in mV and band in percent of rail 0 to 9 (Table 16-2). -/
def railBand (r : Nat) : Nat × Nat :=
  match r with
  | 0 => (12000, 5) | 1 => (800, 3) | 2 => (3300, 5) | 3 => (1800, 5) | 4 => (1100, 3)
  | 5 => (600, 3) | 6 => (850, 3) | 7 => (750, 3) | 8 => (900, 3) | _ => (1200, 3)

/-- The voltage lies within the rail's band. -/
def inBand (r mv : Nat) : Bool :=
  let (n, p) := railBand r
  n * (100 - p) ≤ 100 * mv && 100 * mv ≤ n * (100 + p)

/-- Nothing keeps the hull controller from starting the rails. -/
def State.mayStartRails (s : State) : Bool :=
  s.hull.running && !s.hull.latchedOff && !s.hull.tripped && !s.hull.resetOn && !s.startup.pinHeld && s.hull.state != .off &&
  s.hull.rails == 0 && s.hull.starting.isNone

/-- The hull controller starts the first rail. -/
def State.startRails (s : State) : State :=
  if s.mayStartRails then s.modHull fun h => { h with starting := some s.now, retryAt := none } else s

/-- RAIL_START (R365): VBUS has stood at 36.0 V for 10 ms. After a failed attempt the retry of R366 starts the rails. -/
def execRailStart (s : State) : Out := .next (if s.hull.retryAt.isNone then s.startRails else s)

/-- RAIL_POWER_GOOD (R365): the rail that was started is good and the next one is started. -/
def execRailPowerGood (s : State) : Out :=
  match s.hull.starting with
  | some _ => .next (s.modHull fun h =>
      { h with rails := h.rails + 1, starting := if h.rails + 1 < 10 then some s.now else none,
               attempts := if h.rails + 1 < 10 then h.attempts else 0 })
  | none => .next s

/-- RAIL_START_TIMEOUT (R366): 5 ms without power-good end the attempt; after the third the module stays in OFF. -/
def execRailStartTimeout (s : State) : Out :=
  match s.hull.starting with
  | some t =>
    if s.due (t + ms 5) then
      let n := s.hull.attempts + 1
      let s := s.hullLog F.HULL_RAIL_FAIL (leBytes 1 (s.hull.rails + 1) ++ leBytes 1 n)
      let s := s.modHull fun h => { h with latchedOff := decide (3 ≤ n) }
      .next ((s.resetDevice .rail 0).modHull fun h =>
        { h with attempts := n, retryAt := if 3 ≤ n then none else some (s.now + sec 1) })
    else .next s
  | none => .next s

/-- RAIL_RETRY (R366): 1 s after a failed start the rails are tried again. -/
def execRailRetry (s : State) : Out :=
  match s.hull.retryAt with
  | some t => if s.due t then .next ((s.modHull fun h => { h with retryAt := none }).startRails) else .next s
  | none => .next s

/-- RAIL_FAULT (R366): a running rail out of its band for 10 us removes every rail at once, without a seal. -/
def execRailFault (rail : Fin 10) (millivolts : Nat) (s : State) : Out :=
  if rail.val < s.hull.rails ∧ inBand rail.val millivolts = false then
    let s := s.hullLog F.HULL_RAIL_FAULT (leBytes 1 (rail.val + 1) ++ leBytes 4 millivolts)
    .next (s.interruptBootWrite.resetDevice .rail 0)
  else .next s

/-! ## Supply warning and reset (R367 to R370) -/

/-- SAG_HOLD_MS of POWER_POLICY, default 100. -/
def State.sagHoldMs (s : State) : Nat := if s.hasSection 0x0D01 0 5 then le (s.payload 0x0D01 0 5) 4 2 else 100

/-- HOLDUP_UF of POWER_POLICY, default 4,700. -/
def State.holdupUf (s : State) : Nat := if s.hasSection 0x0D01 0 5 then le (s.payload 0x0D01 0 5) 8 4 else 4700

/-- Outputs that a device-wide entry names: those the configuration in force plans, with the reason each shows. -/
def State.plannedOutputs (s : State) (chReason headReason : Nat) : List (Output × Nat) :=
  (allOutputs.filter s.planned).map fun o => (o, match o with | .channel _ => chReason | .head _ => headReason | _ => 0)

/-- Add `lo` and `hi` to the halves of a register whose halves saturate each (SAGS, TRIPS). -/
def State.countHalves (s : State) (a hi lo : Nat) : State :=
  let v := (s.reg a).toNat
  s.setReg a (w32 (0x10000 * min 0xFFFF (v / 0x10000 + hi) + min 0xFFFF (v % 0x10000 + lo)))

/-- The supply warning begins for D0 (R367, R368): the cause on every output, HULL_SAG, the recorder's warning, an
interrupted boot write. -/
def State.warningBegins (s : State) : State :=
  let s := s.modHull fun h => { h with sagHeld := true, sagReleased := none }
  let s := (s.countHalves R.hull_SAGS 0 1).hullEvent 1
  let s := s.logOut F.HULL_SAG R.hull 0 (s.plannedOutputs 1 10)
    (leBytes 4 s.hull.vbus ++ leBytes 4 s.hull.feedA.shown ++ leBytes 4 s.hull.feedB.shown)
  (s.interruptBootWrite.recorderWarn).allHarmless 1 F.HULL_SAG.code

/-- HULL_SAG (R367): VBUS falls below 38.0 V. Before D0 runs the comparator's line is only remembered. -/
def execHullSag (vbus : Nat) (s : State) : Out :=
  if s.hull.sag ∨ 38000 ≤ vbus then .next s
  else
    let s := s.modHull fun h => { h with sag := true, sagAt := s.now, vbus := vbus }
    .next (if s.running then s.warningBegins else s)

/-- SAG_RELEASE (R369): VBUS rises through 39.0 V; the recorder resumes and the hold begins. -/
def execSagRelease (s : State) : Out :=
  if s.hull.sag then
    let d := (s.now - s.hull.sagAt) / 1000
    let s := s.modHull fun h => { h with sag := false, sagReleased := some s.now }
    .next (if s.running then ((s.hullEvent 2).log F.HULL_SAG_CLEAR R.hull (leBytes 4 d)).recorderResume else s)
  else .next s

/-- SAG_HOLD_EXPIRE (R369): SAG has stayed released for SAG_HOLD_MS and the outputs' cause ends. -/
def execSagHoldExpire (s : State) : Out :=
  match s.hull.sagReleased with
  | some t =>
    if s.hull.sag = false ∧ s.hull.sagHeld ∧ s.due (t + ms s.sagHoldMs) then
      let s := s.modHull fun h => { h with sagHeld := false, sagReleased := none }
      .next ((s.clearCauseAll F.HULL_SAG.code).allReturn)
    else .next s
  | none => .next s

/-- VBUS_RESET (R370): VBUS falls below 34.0 V; the time from the warning goes to the hull log. -/
def execVbusReset (s : State) : Out :=
  if s.hull.running ∧ s.hull.resetOn = false then
    let d := (s.now - s.hull.sagAt) / 1000
    let s := if s.hull.sag ∧ s.running then s.countHalves R.hull_SAGS 1 0 else s
    let s := s.hullLog F.HULL_RESET_PRIOR (leBytes 4 d) d
    .next ((s.interruptBootWrite.resetDevice .vbus 0).modHull fun h => { h with resetOn := true })
  else .next s

/-- VBUS_RESET_RELEASE (R370): VBUS rises through 36.0 V; start-up follows. -/
def execVbusResetRelease (s : State) : Out := .next (s.modHull fun h => { h with resetOn := false })

/-- VBUS_BELOW_18V (R363): the hull controller loses its supply and stops; nothing else has power. -/
def execVbusBelow18v (s : State) : Out :=
  if s.hull.running then
    let s := if s.hull.resetOn then s else s.interruptBootWrite.resetDevice .vbus 0
    .next (s.modHull fun h => { h with running := false, alive := false })
  else .next s

/-- HULL_POWER_UP (R403): VBUS rises through 18 V and the hull controller starts from nothing: a POWER reset. Its log and
code banks are non-volatile; a latched OFF ends. -/
def execHullPowerUp (s : State) : Out :=
  if s.hull.running then .next s
  else
    let h := s.hull
    .next ((s.resetDevice .power 0).modHull fun _ =>
      { log := h.log, logLost := h.logLost, energy := h.energy, upSince := s.now,
        feedA := h.feedA, feedB := h.feedB, sag := h.sag, sagAt := h.sagAt })

/-! ## Power states (R372 to R374) -/

/-- Code of a power state (Table 16-4). -/
def powerCode : PowerState → Nat
  | .run => 0 | .trim => 1 | .keep => 2 | .off => 3

/-- POWER_REFUSED with its reason: 1 CONFIRM, 2 WARNING, 3 SAME_STATE. -/
def State.powerRefused (s : State) (req reason : Nat) : State :=
  s.log F.POWER_REFUSED R.hull (leBytes 1 req ++ leBytes 1 reason)

/-- POWER_STATE and the event of a change of state. -/
def State.powerState (s : State) (new : PowerState) (wake : Nat := 0) : State :=
  let old := powerCode s.hull.state
  let s := s.modHull fun h => { h with state := new }
  (s.hullEvent 0x80).log F.POWER_STATE R.hull (leBytes 1 old ++ leBytes 1 (powerCode new) ++ leBytes 4 wake)

/-- CONFIRM equals bits 15:0 of KEY_ID_LO. -/
def confirmed (c : BitVec 16) : Bool := c.toNat == le keyId 0 2

/-- Leaving KEEP (R373): tiles ungate and ripen, and the KEEP cause is released. -/
def State.leaveKeep (s : State) : State :=
  let s := s.modHull fun h => { h with keepAt := none, offDue := false }
  (s.ungateCause 3).allReturn

/-- POWER_REQ_RUN (R372, R373). A request while OFF is being carried out changes nothing: no request leaves OFF (Table 16-4). -/
def execPowerReqRun (agent : Agent) (s : State) : Out :=
  let _ := agent
  if !s.running then .next s
  else if s.hull.sag then .next (s.powerRefused 0 2)
  else match s.hull.state with
    | .run => .next (s.powerRefused 0 3)
    | .trim => .next ((s.powerState .run).ungateCause 2)
    | .off => .next s
    | .keep => .next (((s.powerState .run).leaveKeep).ungateCause 2)

/-- POWER_REQ_TRIM (R372, R373): the unused tiles of R374 are gated at once. -/
def execPowerReqTrim (agent : Agent) (s : State) : Out :=
  let _ := agent
  if !s.running then .next s
  else if s.hull.sag then .next (s.powerRefused 1 2)
  else match s.hull.state with
    | .trim => .next (s.powerRefused 1 3)
    | .run => .next ((s.powerState .trim).gateUnused)
    | .off => .next s
    | .keep => .next (((s.powerState .trim).leaveKeep).gateUnused)

/-- Every output goes to its harmless state for a request of KEEP or OFF (R373). -/
def State.keepBegins (s : State) : State :=
  let s := s.modHull fun h => { h with keepAt := some (h.keepAt.getD s.now) }
  s.allHarmless 8 F.POWER_STATE.code

/-- POWER_REQ_KEEP (R372, R373). -/
def execPowerReqKeep (agent : Agent) (confirm : BitVec 16) (s : State) : Out :=
  let _ := agent
  if !s.running then .next s
  else if !confirmed confirm then .next (s.powerRefused 2 1)
  else if s.hull.sag then .next (s.powerRefused 2 2)
  else if s.hull.state = .off then .next s
  else if s.hull.state = .keep then .next (s.powerRefused 2 3)
  else .next (s.powerState .keep).keepBegins

/-- POWER_REQ_OFF (R372, R373): as KEEP, the recorder seals with CAUSE DEMAND, and the rails go when the tiles are
gated. -/
def execPowerReqOff (agent : Agent) (confirm : BitVec 16) (wake : Nat) (s : State) : Out :=
  let _ := agent
  if !s.running then .next s
  else if !confirmed confirm then .next (s.powerRefused 3 1)
  else if s.hull.sag then .next (s.powerRefused 3 2)
  else if s.hull.state = .off then .next (s.powerRefused 3 3)
  else
    let w := wake % 0x4000
    let s := (s.powerState .off w).modHull fun h => { h with offDue := true, wakeS := w }
    .next (s.keepBegins.sealWheel sealDemand)

/-- KEEP_GATE (R373): 16 frame periods after the request the media ports go DOWN and every tile of D1 to D7 but the recorder is gated; for OFF the
hull controller then removes the rails and starts the wake timer; that is no reset of Table 18-1 and does not count as one. -/
def execKeepGate (s : State) : Out :=
  match s.hull.keepAt with
  | some t =>
    if s.running ∧ s.due (t + 16 * s.slowestPeriod) then
      if s.hull.offDue then
        let w := s.hull.wakeS
        let s := s.hullLog F.POWER_STATE (leBytes 1 2 ++ leBytes 1 3 ++ leBytes 4 w)
        let count := s.startup.count
        .next (((s.interruptBootWrite.resetDevice .power 0).modStartup fun x => { x with count := count }).modHull fun h =>
          { h with state := .off, wakeAt := if w = 0 then none else some (s.now + sec w), wakeS := 0 })
      else
        let s := (List.range 4).foldl (fun s g => s.groupLeave g) s
        let s := allTiles.foldl (fun s x => if x = (7, 1) ∨ (s.tile (tileNo x.1 x.2)).state = .gated then s else s.gate x.1 x.2 3) s
        .next { s with ports := s.ports.mapVals (fun _ => {}) fun n p => if n < 32 then { p with state := if p.state = .disabled then .disabled else .down, step := 0, backoff := none } else p,
                       lanes := s.lanes.mapVals (fun _ => {}) fun n l => if n < 32 then { l with state := .idle } else l }
    else .next s
  | none => .next s

/-- WAKE_TIMER (R373): WAKE_S have passed in OFF; a full start-up of kind WAKE follows. -/
def execWakeTimer (s : State) : Out :=
  match s.hull.wakeAt with
  | some t =>
    if s.due t ∧ s.hull.state = .off ∧ s.hull.latchedOff = false then
      let s := s.modHull fun h => { h with state := .run, wakeAt := none }
      .next ((s.modStartup fun x => { x with kind := .wake, count := min 0xFFFFFFFF (x.count + 1) }).startRails)
    else .next s
  | none => .next s

/-! ## Temperature (R375, R376) -/

/-- A reading within -40 to 150 degrees C. -/
def sensorInRange (v : Int) : Bool := -40 * 256 ≤ v && v ≤ 150 * 256

/-- The highest in-range reading of the domains other than `d`. -/
def highestOther (rs : List DomainTemp) (d : Nat) : Int :=
  (rs.zipIdx).foldl (fun m x => if x.2 = d then m else
    max m (max (if sensorInRange x.1.a then x.1.a else -40 * 256) (if sensorInRange x.1.b then x.1.b else -40 * 256))) (-40 * 256)

/-- Which sensors of a domain work (R375). -/
def judgeSensors (rs : List DomainTemp) (d : Nat) (t : DomainTemp) : DomainTemp :=
  let a := sensorInRange t.a
  let b := sensorInRange t.b
  if a && b && decide (10 * 256 < (t.a - t.b).natAbs) then
    let h := highestOther rs d
    if (t.b - h).natAbs < (t.a - h).natAbs then { t with aOk := false, bOk := true } else { t with aOk := true, bOk := false }
  else { t with aOk := a, bOk := b }

/-- The domain's temperature: the higher reading of its working sensors. -/
def DomainTemp.value (t : DomainTemp) : Option Int :=
  if t.aOk && t.bOk then some (max t.a t.b) else if t.aOk then some t.a else if t.bOk then some t.b else none

/-- WARN_C of POWER_POLICY, default 100. -/
def State.warnC (s : State) : Nat := if s.hasSection 0x0D01 0 5 then le (s.payload 0x0D01 0 5) 2 1 else 100

/-- THERM_SENSOR for a sensor that has failed. -/
def State.sensorFailed (s : State) (d sensor : Nat) (v : Int) : State :=
  (s.hullEvent 0x40).log F.THERM_SENSOR R.hull (leBytes 1 d ++ leBytes 1 sensor ++ leInt 2 v)

/-- THERM_SAMPLE (R375): the readings of D0 to D7; a failed sensor is logged; TJ_MAX crosses or clears the thresholds of
Table 16-5. A domain with no working sensor is treated as above THERM_CRIT, and so above WARN_C; the entries name it. -/
def execThermSample (readings : List DomainTemp) (s : State) : Out :=
  if !s.running then .next s
  else
    let judged := (readings.take 8).zipIdx.map fun x => (x.2, judgeSensors readings x.2 x.1)
    let s := judged.foldl (fun s x =>
      let old := s.domTemp x.1
      let s := if old.aOk && !x.2.aOk then s.sensorFailed x.1 0 x.2.a else s
      let s := if old.bOk && !x.2.bOk then s.sensorFailed x.1 1 x.2.b else s
      s.setDomTemp x.1 x.2) s
    let blind := judged.any fun x => x.2.value.isNone
    let top := judged.foldl (fun (m : Nat × Int) x => match x.2.value with
      | some v => if m.2 < v then (x.1, v) else m
      | none => m) (0, -40 * 256)
    let s := s.modHull fun h => { h with sampled := true, tjMax := top.2, tjDomain := top.1 }
    let data := leBytes 1 (((judged.find? fun x => x.2.value.isNone).map (·.1)).getD top.1) ++ leInt 2 top.2
    let hot := blind || decide ((110 : Int) * 256 ≤ top.2)
    let s := if s.hull.warn = false ∧ (blind || decide ((s.warnC : Int) * 256 ≤ top.2)) then
        ((s.modHull fun h => { h with warn := true }).hullEvent 0x10).log F.THERM_WARN R.hull data
      else if s.hull.warn ∧ blind = false ∧ top.2 < (s.warnC : Int) * 256 - 5 * 256 then
        (s.modHull fun h => { h with warn := false }).log F.THERM_CLEAR R.hull (leBytes 1 1 ++ leInt 2 top.2)
      else s
    let s := if s.hull.crit = false ∧ hot then
        ((((s.modHull fun h => { h with crit := true }).countHalves R.hull_TRIPS 0 1).hullEvent 0x20)).log F.THERM_CRIT R.hull data
      else if s.hull.crit ∧ blind = false ∧ top.2 < (105 : Int) * 256 then
        ((s.modHull fun h => { h with crit := false }).clearSafe F.THERM_CRIT.code).log F.THERM_CLEAR R.hull (leBytes 1 2 ++ leInt 2 top.2)
      else s
    .next s

/-- THERM_TRIP (R376): the hull controller removes every rail, with no seal; a fourth trip within 1 h, or any trip with
AUTO_RESTART clear, leaves the module in OFF. -/
def execThermTrip (s : State) : Out :=
  if s.hull.rails = 0 then .next s
  else
    let recent := s.now :: s.hull.trips.filter fun t => decide (s.now < t + sec 3600)
    let stay := decide (4 ≤ recent.length) || !bit s.powerFlags 1
    let s := s.countHalves R.hull_TRIPS 1 0
    let s := s.hullLog F.THERM_TRIP (leBytes 1 s.hull.tjDomain ++ leBytes 1 recent.length)
    let s := s.modHull fun h => { h with trips := recent, tripped := true, latchedOff := h.latchedOff || stay }
    .next (s.interruptBootWrite.resetDevice .trip 0)

/-- TRIP_COOLED (R376): every domain sensor reads below 85 degrees C and the rails start again. -/
def execTripCooled (s : State) : Out :=
  if s.hull.tripped then .next (s.modHull fun h => { h with tripped := false }).startRails else .next s

/-! ## Telemetry (R379) and the hull controller's firmware -/

/-- TELEMETRY_REFRESH (R379): every 1 ms, held while STALE. -/
def execTelemetryRefresh (telemetry : Telemetry) (s : State) : Out :=
  if s.running ∧ s.hull.linkOk ∧ s.hull.stale = false then
    .next (s.modHull fun h =>
      { h with vbus := telemetry.vbus, power := telemetry.power, energy := telemetry.energy, linkStamp := s.stamp,
               tempHull := telemetry.tempHull, tempNand := telemetry.tempNand,
               feedA := { h.feedA with shown := telemetry.feedAMv, ma := telemetry.feedAMa },
               feedB := { h.feedB with shown := telemetry.feedBMv, ma := telemetry.feedBMa } })
  else .next s

/-- HOLDUP_US (R371). -/
def State.holdupUs (s : State) : Nat := if s.hull.power = 0 then 0 else 144000 * s.holdupUf / s.hull.power

/-- HULL_ALIVE (R378): the hull controller's firmware reports ALIVE; its telemetry is fresh again. -/
def execHullAlive (s : State) : Out :=
  if s.hull.running then
    .next ((s.fwAlive 2).modHull fun h => { h with alive := true, stale := !h.linkOk && h.stale })
  else .next s

/-- Code of a feed class. -/
def feedCode : FeedClass → Nat
  | .absent => 0 | .low => 1 | .good => 2 | .high => 3 | .over => 4

/-- HULL_STATUS (Table 16-8). -/
def State.hullStatus (s : State) : Word :=
  let h := s.hull
  w32 (0x80000000 * b2n h.stale + 0x40000000 * b2n h.linkOk + 0x20000000 * b2n h.alive + 0x10000000 * b2n h.sag +
    0x8000000 * b2n h.sagHeld + 0x4000000 * b2n h.crit + 0x2000000 * b2n h.warn + 0x200000 * feedCode h.feedA.cls +
    0x100000 * b2n h.feedA.closed + 0x20000 * feedCode h.feedB.cls + 0x10000 * b2n h.feedB.closed + (2 ^ h.rails - 1))

end Sys2Proof.Machine
end

