-- ==== Sys2Proof/Machine/Tio.lean ====
section
/-!
DEFINITION. The TIO pins: pulse outputs, capture inputs, chatter and stuck checks (R41 to R46).
-/

namespace Sys2Proof.Machine

/-! ## The TIO plan (Table 2-9) -/

/-- Field of the record of TIOn. -/
def State.tioField (s : State) (n off k : Nat) : Nat := le (s.payload 0x0104 0 6) (16 * n + off) k

def State.tioMode (s : State) (n : Nat) : Nat := s.tioField n 0 1
def State.tioFlags (s : State) (n : Nat) : Nat := s.tioField n 1 1
def State.tioKind (s : State) (n : Nat) : Nat := s.tioField n 2 1
def State.tioTimeA (s : State) (n : Nat) : Nat := s.tioField n 4 4
def State.tioTimeB (s : State) (n : Nat) : Nat := s.tioField n 8 4
def State.tioChatter (s : State) (n : Nat) : Nat := s.tioField n 12 2

/-- A pulse width in ns is at least a number of ticks. -/
def widthReaches (m : RasterMode) (ns ticks : Nat) : Bool := ticks * m.fd * 1000000000 ≤ ns * m.lines * m.fn * 65536

/-- Why an arm is refused (R42): 1 the lead, 2 the width, 3 the gate. -/
def State.armRefusal (s : State) (n : Nat) (a : Stamp) : Option Nat :=
  let m := s.mode
  if stampDiff a s.stamp * (m.fd * 1000000000 : Nat) < (1000 * m.lines * m.fn * 65536 : Nat) then some 1
  else if s.tioKind n = 1 ∧ widthReaches m (s.tioTimeA n) (s.reg (R.tio_PERIOD_TICKS n)).toNat then some 2
  else if s.startup.gateOpen = false then some 3
  else none

/-- ARM_HI_WRITE (R42): arms a ONESHOT or PERIODIC output with ARM_HI and ARM_LO. A refused arm leaves an earlier arm of the pin
standing, since R42 says only that no pulse is emitted for it (DESIGN CHOICE, log entry 32). -/
def execArmHiWrite (agent : Agent) (pin : Fin 8) (value : Word) (s : State) : Out :=
  let _ := agent
  let n := pin.val
  if !s.running then .next s
  else
    let s := s.setReg (R.tio_ARM_HI n) value
    if s.tioMode n ≠ 1 ∨ 1 < s.tioKind n then .next s
    else
      let a : Stamp := value ++ s.reg (R.tio_ARM_LO n)
      match s.armRefusal n a with
      | some r => .next (s.log F.TIO_ARM_REFUSED (R.tio n) (leBytes 1 n ++ leBytes 8 a.toNat ++ leBytes 1 r))
      | none => .next (s.modTioPin n fun p => { p with armed := some a, nextEdge := 0 })

/-- The leading edge that is due at a pulse output, if any: its stamp (Table 2-5). A rewrite of PERIOD_TICKS acts on an armed PERIODIC
pin at once: edge n is n times the register's present value after ARM (DESIGN CHOICE, log entry 32). -/
def State.dueEdge (s : State) (n : Nat) : Option Stamp :=
  let p := s.tioPin n
  let m := s.mode
  let frame := m.lines * 65536
  let off := s.tioTimeB n
  let fresh (e : Nat) : Option Stamp :=
    let b := BitVec.ofNat 64 e
    if later b p.lastEdge then some b else none
  match s.tioKind n with
  | 0 => p.armed.filter s.reached
  | 1 => (p.armed.map fun a => a + BitVec.ofNat 64 (p.nextEdge * (s.reg (R.tio_PERIOD_TICKS n)).toNat)).filter s.reached
  | 2 => if off ≤ s.ticks then fresh ((s.ticks - off) / frame * frame + off) else none
  | _ =>
    let t := s.ptpNs.toNat
    if off ≤ t then fresh (ticksAt m ((t - off) / 1000000000 * 1000000000 + off)) else none

/-- TIO_PULSE_EDGE (R41): the pin goes active for WIDTH; a held pin lets the edge pass unsent. -/
def execTioPulseEdge (pin : Fin 8) (s : State) : Out :=
  let n := pin.val
  if s.tioMode n = 1 ∧ s.clock.seeded ∧ s.startup.gateOpen then
    match s.dueEdge n with
    | none => .next s
    | some e =>
      let s := s.modTioPin n fun p =>
        { p with lastEdge := e, nextEdge := p.nextEdge + 1, armed := if s.tioKind n = 0 then none else p.armed }
      if (s.tioPin n).held ∨ s.allHeld then .next s
      else .next ((s.modTioPin n fun p => { p with pulseEnd := some (s.now + s.tioTimeA n) }).send (.pin n true))
  else .next s

/-- TIO_PULSE_END (R41): the pin returns to its inactive level. -/
def execTioPulseEnd (pin : Fin 8) (s : State) : Out :=
  match (s.tioPin pin.val).pulseEnd with
  | some t =>
    if s.due t then .next ((s.modTioPin pin.val fun p => { p with pulseEnd := none }).send (.pin pin.val false)) else .next s
  | none => .next s

/-- TIO_INPUT_TRANSITION (R44): a raw transition begins qualification; a level that ends before FILTER is rejected. -/
def execTioInputTransition (pin : Fin 8) (level : Bool) (s : State) : Out :=
  let n := pin.val
  let p := s.tioPin n
  if s.running ∧ s.tioMode n = 2 ∧ level ≠ p.raw then
    let s := if p.qualifying then s.count (R.tio_REJECTED n) else s
    .next (s.modTioPin n fun p => { p with raw := level, rawAt := s.now, rawStamp := s.stamp, qualifying := level != p.level })
  else .next s

/-- An enabled edge is captured (R44): stored, or dropped on a full FIFO; every capture counts as an event of the pin. -/
def State.captureEdge (s : State) (n : Nat) (c : Capture) : State :=
  let p := s.tioPin n
  let s := if p.fifo.length < 16 then s.modTioPin n fun p => { p with fifo := p.fifo ++ [c] }
    else
      let s := (s.count (R.tio_DROPPED n)).modTioPin n fun p => { p with overflow := true, overflowLog := true }
      if p.overflowLog then s else s.log F.TIO_OVERFLOW (R.tio n) (leBytes 1 n)
  s.irqCount (3 + n)

/-- More than CHATTER qualified edges within 1 ms (R45): quarantine, and the event counter is set to 255 with SAT
(R326). -/
def State.chatter (s : State) (n edges : Nat) : State :=
  let s := (s.modTioPin n fun p => { p with quarantined := true }).log F.CHATTER (R.tio n) (leBytes 1 n ++ leBytes 4 edges)
  (s.modSource (3 + n) fun x => { x with count := 255, sat := true, satAt := some s.now }).arbitrate

/-- TIO_LEVEL_QUALIFIED (R44 to R46): the level has held for FILTER; an edge is counted, captured, and ends or begins the
active level. -/
def execTioLevelQualified (pin : Fin 8) (s : State) : Out :=
  let n := pin.val
  let p := s.tioPin n
  if s.running ∧ s.tioMode n = 2 ∧ p.qualifying ∧ s.due (p.rawAt + s.tioTimeA n) then
    let flags := s.tioFlags n
    let active := p.raw == bit flags 0
    let edges := s.now :: p.edges.filter fun t => s.now < t + ms 1
    let s := s.modTioPin n fun q => { q with
      level := q.raw, qualifying := false, lastEdgeAt := s.now, edges := edges
      activeSince := if active then some q.rawAt else none, stuck := false }
    if p.quarantined then .next s
    else if s.tioChatter n < edges.length then .next (s.chatter n edges.length)
    else if bit flags (if p.raw then 2 else 3) then .next (s.captureEdge n ⟨p.rawStamp, p.raw⟩)
    else .next s
  else .next s

/-- TIO_STUCK_TIMEOUT (R46): the active level has lasted longer than STUCK ms. -/
def execTioStuckTimeout (pin : Fin 8) (s : State) : Out :=
  let n := pin.val
  let p := s.tioPin n
  match p.activeSince with
  | some t =>
    if s.tioMode n = 2 ∧ 0 < s.tioTimeB n ∧ t + ms (s.tioTimeB n) < s.now ∧ p.stuck = false then
      .next ((s.modTioPin n fun q => { q with stuck := true }).log F.TIO_STUCK (R.tio n) (leBytes 1 n ++ leBytes 1 (b2n p.level)))
    else .next s
  | none => .next s

/-- A release while its cause stands. -/
def State.tioIgnored (s : State) (n : Nat) : State := s.log F.TIO_RELEASE_IGNORED (R.tio n) (leBytes 1 n)

/-- TIO_RELEASE (R43, R45): ends a held output while the servo is LOCKED and nothing holds the output any more, or a
quarantine after 10 ms without a qualified edge. -/
def execTioRelease (agent : Agent) (pin : Fin 8) (s : State) : Out :=
  let _ := agent
  let n := pin.val
  let p := s.tioPin n
  if !s.running then .next s
  else if p.held then
    if s.servo.state ≠ .locked ∨ s.allHeld ∨ (s.standing (.tio n)).any (fun c => c.cleared.isNone) then .next (s.tioIgnored n)
    else
      let s := (s.standing (.tio n)).foldl (fun s c => s.releaseCause (.tio n) c.cls) s
      .next (s.modTioPin n fun q => { q with held := false })
  else if p.quarantined then
    if s.due (p.lastEdgeAt + ms 10) then .next (s.modTioPin n fun q => { q with quarantined := false, edges := [] })
    else .next (s.tioIgnored n)
  else .next s

/-- TIO_FLUSH (Table 2-16): empties the FIFO. -/
def execTioFlush (agent : Agent) (pin : Fin 8) (s : State) : Out :=
  let _ := agent
  if s.running then .next (s.modTioPin pin.val fun p => { p with fifo := [] }) else .next s

/-- CAP_LO_READ (R44, R48): pops the oldest capture and latches CAP_HI and CAP_INFO for the reader. -/
def execCapLoRead (agent : Agent) (pin : Fin 8) (s : State) : Out :=
  let n := pin.val
  if !s.running then .next s
  else
    let (lo, hi, info, rest) : Word × Word × Word × List Capture := match (s.tioPin n).fifo with
      | c :: r => (c.stamp.extractLsb' 0 32, c.stamp.extractLsb' 32 32, w32 (2 + b2n c.rising), r)
      | [] => (0, 0, 0, [])
    let s := s.modTioPin n fun p => { p with fifo := rest, overflow := false, overflowLog := false }
    .next (((s.setLatch agent (R.tio_CAP_HI n) hi).setLatch agent (R.tio_CAP_INFO n) info).answer lo)

/-- A pin whose record changes at a rennet point (R42): edges due at or after it follow the new record, and a pulse in progress
completes. A quarantine, a stuck level, a held output and the captures in the FIFO outlast the change, because R43 to R46 name what
ends them; an arm is kept for a record that can use it (DESIGN CHOICE, log entry 32). An input whose level is active under the new
record is active from now on at the latest. -/
def TioPin.follow (p : TioPin) (stamp : Stamp) (now mode kind : Nat) (wasInput activeHigh : Bool) : TioPin :=
  let level := if wasInput then p.level else p.raw
  { p with lastEdge := stamp - 1, armed := if mode = 1 ∧ kind ≤ 1 then p.armed else none,
           level := level, qualifying := wasInput && p.qualifying,
           activeSince := if mode = 2 ∧ level = activeHigh then some (p.activeSince.getD now) else none }

/-- TIO_PLAN is installed at a rennet point. -/
def State.installTioPlan (s : State) (stamp : Stamp) (old new : List Byte) : State :=
  (List.range 8).foldl (fun s n =>
    let o := 16 * n
    if (old.drop o).take 16 = (new.drop o).take 16 then s
    else s.modTioPin n fun p => p.follow stamp s.now (le new o 1) (le new (o + 2) 1) (le old o 1 == 2) (bit (le new (o + 1) 1) 0)) s

/-- TIO_CFG. -/
def State.tioCfg (s : State) (n : Nat) : Word :=
  let f := s.tioFlags n
  w32 (256 * s.tioKind n + 8 * b2n (bit f 3) + 4 * b2n (bit f 2) + 2 * b2n (bit f 1) + b2n (bit f 0))

/-- TIO_STATUS (Table 2-17). -/
def State.tioStatus (s : State) (n : Nat) : Word :=
  let p := s.tioPin n
  let level := if s.tioMode n = 1 then p.pulseEnd.isSome == bit (s.tioFlags n) 0 else p.level
  w32 (65536 * s.tioMode n + 64 * p.fifo.length + 32 * b2n p.overflow + 16 * b2n p.armed.isSome + 8 * b2n p.held +
    4 * b2n p.stuck + 2 * b2n p.quarantined + b2n level)

end Sys2Proof.Machine
end

