-- ==== Sys2Proof/Machine/Plans.lean ====
section
/-!
DEFINITION. The payload and consistency checks that a commit passes (R68 step 10), first part: time, ports, ingress, channels and
sparing (R47, R85, R102, R103, R129, R163, R164, R170, R171, R189, R214). They run on a state whose `config` is the
configuration that the device will hold at the rennet point.
-/

namespace Sys2Proof.Machine

/-! ## What a check reports -/

/-- A failed check: the owning class, the section it failed on, and the values of the class, which IMG_REFUSED carries after its own
(DEDUCED, log entry 68). -/
structure Bad where
  cls    : FaultClass
  type   : Nat
  domain : Nat
  tile   : Nat
  data   : List Byte
  deriving DecidableEq, Repr

/-- One check: what it reports when it does not hold. -/
abbrev PlanCheck := Option Bad

/-- A check of a field or of a record: whether it holds, and the byte offset or the index that it reports. -/
abbrev FieldCheck := Bool × Nat

/-- Checks of every section of a type, each with the values of the class. -/
def State.eachSection (s : State) (cls : FaultClass) (type : Nat) (checks : Section → List (Bool × List Byte)) : List PlanCheck :=
  (sectionsOf s.config type).flatMap fun x => (checks x).map fun c => if c.1 then none else some ⟨cls, type, x.domain, x.tile, c.2⟩

/-- Checks of every section of a type for a class that reports the section type and a field offset or a record index. -/
def State.eachField (s : State) (cls : FaultClass) (type : Nat) (checks : Section → List FieldCheck) : List PlanCheck :=
  s.eachSection cls type fun x => (checks x).map fun c => (c.1, leBytes 2 type ++ leBytes 2 c.2)

/-- The record index of what stands before the records of a section. -/
def noRecord : Nat := 0xFFFF

/-- Bytes `i` to `i + n - 1` are 0. -/
def zeroAt (p : List Byte) (i n : Nat) : Bool := le p i n == 0

/-- A value within a range. -/
def within (v lo hi : Nat) : Bool := lo ≤ v && v ≤ hi

/-- A signed byte lies within a range. -/
def byteWithin (lo hi : Int) (v : Nat) : Bool := decide (lo ≤ signed 8 v) && decide (signed 8 v ≤ hi)

/-! ## Time and pins (R27, R41, R47) -/

/-- Checks of the time sections report a record and a field. -/
def State.eachTime (s : State) (type : Nat) (checks : List Byte → List (Bool × Nat × Nat)) : List PlanCheck :=
  s.eachSection F.TIME_PLAN type fun x => (checks x.payload).map fun c => (c.1, leBytes 2 type ++ leBytes 2 c.2.1 ++ leBytes 2 c.2.2)

/-- RASTER_MODE keeps Table 2-6. -/
def rasterModeChecks (p : List Byte) : List (Bool × Nat × Nat) :=
  [(p.length == 8, 0, 0), (le p 0 1 < 2, 0, 0), (le p 1 1 < 6, 0, 1), (within (le p 2 2) 10 3600, 0, 2), (1 ≤ le p 4 2, 0, 4),
   (zeroAt p 6 2, 0, 6)]

/-- Record i of PTP_PORTS keeps Table 2-7 and R27: one instance per port group, M0 and M1 at most. -/
def ptpRecordChecks (p : List Byte) (i : Nat) : List (Bool × Nat) :=
  let o := 4 + 16 * i
  let asym := signed 32 (le p (o + 8) 4)
  [(le p o 1 ≤ 33 && !((List.range i).any fun j => portGroup (le p (4 + 16 * j) 1) == portGroup (le p o 1)), o),
   (le p (o + 1) 1 < 2, o + 1), (le p (o + 2) 1 < 128, o + 2), (le p (o + 3) 1 < 2, o + 3), (byteWithin (-7) 0 (le p (o + 4) 1), o + 4),
   (byteWithin (-3) 1 (le p (o + 5) 1), o + 5), (byteWithin (-7) 0 (le p (o + 6) 1), o + 6), (le p (o + 7) 1 < 4, o + 7),
   (decide (-100000 ≤ asym) && decide (asym ≤ 100000), o + 8), (zeroAt p (o + 15) 1, o + 15)]

/-- PTP_PORTS keeps Table 2-7. -/
def ptpPortsChecks (p : List Byte) : List (Bool × Nat × Nat) :=
  ([(le p 0 1 ≤ 6, noRecord, 0), (zeroAt p 1 3, noRecord, 1), (p.length == 4 + 16 * le p 0 1, noRecord, 0)] :
    List (Bool × Nat × Nat)) ++
  (List.range (le p 0 1)).flatMap fun i => (ptpRecordChecks p i).map fun c => (c.1, i, c.2)

/-- REF_IN keeps Table 2-8. -/
def refInChecks (p : List Byte) : List (Bool × Nat × Nat) :=
  [(p.length == 8, 0, 0), (le p 0 1 ≤ 2, 0, 0), (le p 1 1 == 0 || (le p 1 1 == le p 0 1 && le p 1 1 ≤ 2), 0, 1), (zeroAt p 2 2, 0, 2),
   (le p 4 4 ≤ 100000, 0, 4)]

/-- One record of TIO_PLAN keeps Table 2-9 and R41 in a raster mode. -/
def tioRecordChecks (m : RasterMode) (p : List Byte) (o : Nat) : List FieldCheck :=
  let mode := le p o 1
  let kind := le p (o + 2) 1
  let a := le p (o + 4) 4
  let b := le p (o + 8) 4
  let ch := le p (o + 12) 2
  ([(mode ≤ 2, o), (le p (o + 1) 1 < 16, o + 1), (zeroAt p (o + 3) 1, o + 3), (zeroAt p (o + 14) 2, o + 14)] :
    List FieldCheck) ++
  (match mode with
   | 1 => [(kind ≤ 3, o + 2), (within a 8 100000000 && !(kind == 2 && widthReaches m a (m.lines * 65536)), o + 4),
           (match kind with | 2 => b < m.lines * 65536 | 3 => b ≤ 999999999 | _ => b == 0, o + 8), (ch == 0, o + 12)]
   | 2 => [(kind == 0, o + 2), (within a 8 1000000, o + 4), (b ≤ 60000, o + 8), (within ch 1 1000, o + 12)]
   | _ => [])

/-- TIO_PLAN keeps Table 2-9. -/
def tioPlanChecks (m : RasterMode) (p : List Byte) : List (Bool × Nat × Nat) :=
  (p.length == 128, noRecord, 0) :: (List.range 8).flatMap fun n => (tioRecordChecks m p (16 * n)).map fun c => (c.1, n, c.2)

def State.timeChecks (s : State) : List PlanCheck :=
  s.eachTime 0x0101 rasterModeChecks ++ s.eachTime 0x0102 ptpPortsChecks ++ s.eachTime 0x0103 refInChecks ++
  s.eachTime 0x0104 (tioPlanChecks s.mode)

/-! ## Ports (R85, R102, R103) -/

/-- PORT_GROUP_MODE keeps Table 4-3. -/
def portGroupChecks (p : List Byte) : List FieldCheck :=
  let n := portsOfMode (le p 0 1)
  (p.length == 272 && le p 0 1 < 4 && zeroAt p 1 15, noRecord) :: (List.range 8).map fun i =>
    let o := 16 + 32 * i
    let f := le p o 1
    (if n ≤ i then zeroAt p o 32
     else f < 8 && le p (o + 1) 1 ≤ 32 && within (le p (o + 2) 2) 1518 9216 && le p (o + 4) 1 % 2 == 0 && zeroAt p (o + 10) 2 &&
       (bit f 1 || zeroAt p (o + 12) 4) && (bit f 2 || zeroAt p (o + 16) 16), i)

/-- LANE_SETTINGS keeps Table 4-4 and |PRE| + MAIN + |POST| <= 64. -/
def laneSettingsChecks (p : List Byte) : List FieldCheck :=
  (p.length == 64, noRecord) :: (List.range 8).map fun i =>
    let o := 8 * i
    let pre := signed 8 (le p o 1)
    let post := signed 8 (le p (o + 2) 1)
    (byteWithin (-16) 0 (le p o 1) && byteWithin (-16) 0 (le p (o + 2) 1) && within (le p (o + 1) 1) 32 64 &&
     pre.natAbs + le p (o + 1) 1 + post.natAbs ≤ 64 && le p (o + 3) 1 < 8 && within (le p (o + 4) 1) 16 200 && zeroAt p (o + 5) 3, i)

/-- PAIR_LINK keeps Table 4-5: the fields' ranges, and two ports in two groups. -/
def pairLinkOk (p : List Byte) : Bool :=
  p.length == 24 && le p 0 1 < 32 && (le p 1 1 == 0xFF || (le p 1 1 < 32 && le p 1 1 / 8 != le p 0 1 / 8)) &&
  le p 2 1 < 4 && le p 3 1 ≤ 63

/-- Ports that exist with their MAC addresses. -/
def State.portMacs (s : State) : List Nat :=
  ((List.range 32).filter s.portExists).map fun p => s.portField p 4 6

/-- Ports that any PAIR_LINK section names. -/
def State.linkPorts (s : State) : List Nat :=
  (sectionsOf s.config 0x0203).flatMap fun x =>
    le x.payload 0 1 :: (if le x.payload 1 1 = 0xFF then [] else [le x.payload 1 1])

/-- Ports of the two path records of a section: path A, and path B when the section has one. -/
def pathPorts (p : List Byte) (offA offB : Nat) (two : Bool) : List Nat :=
  le p offA 1 :: (if two then [le p offB 1] else [])

/-- Ports of a CHANNEL payload. -/
def channelPorts (p : List Byte) : List Nat := pathPorts p 40 64 (bit (le p 0 1) 2)
/-- Ports of an OUTPUT_FLOWS payload. -/
def flowPorts (p : List Byte) : List Nat := pathPorts p 16 40 (bit (le p 0 1) 0)

/-- Ports that carry a channel or head output flow. -/
def State.videoPorts (s : State) : List Nat :=
  (sectionsOf s.config 0x0401).flatMap (fun x => channelPorts x.payload) ++
  (sectionsOf s.config 0x0683).flatMap (fun x => flowPorts x.payload)

def State.portChecks (s : State) : List PlanCheck :=
  s.eachField F.PORT_PLAN 0x0201 (fun x => portGroupChecks x.payload) ++
  s.eachField F.PORT_PLAN 0x0201 (fun x =>
    ((List.range 8).filter fun i => s.portExists (8 * x.tile + i)).map fun i =>
      (s.portMacs.count (s.portField (8 * x.tile + i) 4 6) ≤ 1, i)) ++
  s.eachField F.PORT_PLAN 0x0202 (fun x => laneSettingsChecks x.payload) ++
  s.eachField F.PORT_PLAN 0x0203 (fun x =>
    [(pairLinkOk x.payload && x.tile == le x.payload 0 1 / 8 &&
      s.linkPorts.all fun p => s.portExists p && !s.videoPorts.contains p, 0)]) ++
  s.eachField F.PORT_PLAN 0x0102 (fun x =>
    (List.range (le x.payload 0 1)).map fun i => (s.portExists (le x.payload (4 + 16 * i) 1), i)) ++
  s.eachField F.PORT_PLAN 0x0301 (fun x =>
    (List.range (le x.payload 0 4)).map fun i =>
      let ports := le x.payload (16 + 68 * i + 40) 4
      ((List.range 32).all fun p => !bit ports p || s.portExists p, i))

/-! ## Ingress (R107, R108, R115, R129) -/

/-- FORMAT lies within Table 5-4. -/
def formatOk (f : Nat) : Bool := f < 16 && f % 4 < 3 && f / 4 < 3 && !(f == 0)

/-- Width and height lie within Table 5-4. -/
def sizeOk (w h : Nat) : Bool := within w 16 7680 && w % 16 == 0 && within h 16 4320

/-- The entry of record i of FLOW_PLAN. -/
def planEntry (p : List Byte) (i : Nat) : FtEntry := readEntry ((p.drop (16 + 68 * i + 4)).take 64)

/-- The entries of the FLOW_PLAN section. -/
def State.planEntries (s : State) : List FtEntry :=
  let p := s.payload 0x0301 1 8
  (List.range (le p 0 4)).map (planEntry p)

/-- KIND is allowed in a role (R108). -/
def kindAllowed (role kind : Nat) : Bool :=
  kind == 3 || kind == 4 || kind == 5 || (kind == 1 && role == 0) || (kind == 2 && role == 1)

/-- TARGET lies in the range of its KIND. -/
def targetOk (kind target : Nat) : Bool :=
  match kind with
  | 1 => target < 48
  | 2 => target < 512
  | 3 | 4 => target < 64
  | _ => target == 0

/-- One record of FLOW_PLAN keeps Table 5-1 and R107. -/
def flowRecordOk (role : Nat) (p : List Byte) (i : Nat) : Bool :=
  let o := 16 + 68 * i
  let e := planEntry p i
  let idx := le p o 4
  idx < 1048576 && le p (o + 38) 1 < 8 && kindAllowed role e.kind && targetOk e.kind e.target &&
  (e.pt == 0 || within e.pt 96 127) && zeroAt p (o + 47) 1 && zeroAt p (o + 52) 16 && (!e.srcAny || e.src == 0) &&
  (idx == keyH0 e.key || idx == keyH1 e.key)

/-- FLOW_PLAN keeps R129; of two records with one key the later one is reported. -/
def flowPlanChecks (role : Nat) (p : List Byte) : List FieldCheck :=
  let n := le p 0 4
  (n ≤ 1048576 && p.length == 16 + 68 * n && zeroAt p 4 12, noRecord) :: (List.range n).map fun i =>
    (flowRecordOk role p i && !((List.range i).any fun j => (planEntry p j).key == (planEntry p i).key), i)

/-- Ingress tile and MERGE of a channel: its INPUT_FORMATS record, or the group of its path-A port with MERGE clear. -/
def State.ingressOf (s : State) (c pathA : Nat) : Nat × Bool :=
  match (List.range 4).findSome? fun t => (s.inputFormat t c).map fun r => (t, bit (le r 1 1) 0) with
  | some x => x
  | none => (pathA / 8, false)

/-- First port of a PORTS mask. -/
def firstPort (ports : Nat) : Nat := ((List.range 32).find? fun p => bit ports p).getD 0

/-- Every port of a mask lies in a group. -/
def portsInGroup (ports g : Nat) : Bool := (List.range 32).all fun p => !bit ports p || p / 8 == g

/-- The MEDIA or SURFACE entries of one target keep R129: one path-A entry in its tile's group, at most one path-B entry, and that
only with MERGE. -/
def targetFlowsOk (es : List FtEntry) (tileOf : Nat → Nat × Bool) : Bool :=
  match es.filter fun e => !e.pathB with
  | [a] =>
    let (t, merge) := tileOf (firstPort a.ports)
    let b := (es.filter fun e => e.pathB).length
    portsInGroup a.ports t && (b == 0 || (b == 1 && merge))
  | _ => false

/-- The channel or the surface that an entry feeds keeps R129. -/
def State.flowTargetOk (s : State) (e : FtEntry) : Bool :=
  let es := s.planEntries.filter fun x => x.valid && x.kind == e.kind && x.target == e.target
  match e.kind with
  | 1 => targetFlowsOk es fun p => s.ingressOf e.target p
  | 2 => match s.surfacePlan e.target with
    | some (t, r) => targetFlowsOk es fun _ => (t, bit (le r 3 1) 0)
    | none => targetFlowsOk es fun p => (p / 8, true)
  | _ => true

/-- The payload of a channel's CHANNEL section. -/
def State.channelPlan (s : State) (c : Nat) : List Byte := s.payload 0x0401 4 (0x10 + c)

/-- INPUT_FORMATS keeps Table 5-6. -/
def inputFormatsChecks (p : List Byte) : List FieldCheck :=
  (p.length == 4 + 16 * le p 0 1 && zeroAt p 1 3, noRecord) :: (records p 1 16).mapIdx fun i r =>
    (le r 0 1 < 48 && le r 1 1 < 4 && le r 2 1 < 3 && zeroAt r 3 1 && within (le r 4 2) 1 500 && le r 6 2 ≤ 150 && zeroAt r 8 8, i)

/-- LIVENESS_TILES keeps Table 5-7, and a tile lies in the picture of a channel that has a section. -/
def State.livenessChecks (s : State) (p : List Byte) : List FieldCheck :=
  (p.length == 4 + 8 * le p 0 1 && zeroAt p 1 3, noRecord) :: (records p 1 8).mapIdx fun i r =>
    let ch := s.channelPlan (le r 0 1)
    let size := 16 * le r 2 1
    (le r 0 1 < 48 && le r 1 1 / 4 % 32 == 0 && within (le r 2 1) 1 16 && 1 ≤ le r 3 1 && le r 4 2 % 16 == 0 && le r 6 2 % 16 == 0 &&
     (ch.isEmpty || (le r 4 2 + size ≤ le ch 4 2 && le r 6 2 + size ≤ le ch 6 2)), i)

/-- Geometry of a SURFACE_PLAN record. -/
def surfaceGeom (r : List Byte) : Geometry :=
  { width := le r 4 2, height := le r 6 2, fmt := le r 8 1, curd := le r 10 2,
    sw := (List.range (le r 9 1)).map fun i => le r (12 + 2 * i) 2 }

/-- Largest curd record of a geometry: 6 header bytes and the bound of R155 (Table 6-13). -/
def Geometry.largest (g : Geometry) : Nat := 6 + curdBound g.fmt (g.curd / unitPixels (g.fmt % 4))

/-- The surface fits its region: two versions of every slot and their tags, whose size the manual does not give. -/
def State.surfaceFits (s : State) (r : List Byte) : Bool :=
  let g := surfaceGeom r
  let slots := g.height * g.positions.length
  match s.regionRecord (le r 22 1) with
  | some x => le x 1 1 == 1 && le r 24 4 + 2 * slots * le r 20 2 + Config.tagBytes slots ≤ le x 4 4 * 1048576
  | none => false

/-- One record of SURFACE_PLAN keeps Table 5-8 and R129. -/
def State.surfaceRecordOk (s : State) (r : List Byte) : Bool :=
  let g := surfaceGeom r
  le r 0 2 < 512 && le r 3 1 < 2 && sizeOk g.width g.height && formatOk g.fmt &&
  stripesOk g.width (le r 9 1) ((List.range 4).map fun i => le r (12 + 2 * i) 2) &&
  (g.curd == 64 || g.curd == 128 || g.curd == 256) && le r 20 2 % 64 == 0 && within (le r 20 2) 64 4096 && g.largest ≤ le r 20 2 &&
  le r 23 1 ≤ 150 && le r 24 4 % 4096 == 0 && within (le r 28 2) 1 1000 && zeroAt r 30 2 && s.surfaceFits r

/-- SURFACE_PLAN keeps R129. -/
def State.surfacePlanChecks (s : State) (p : List Byte) : List FieldCheck :=
  (p.length == 4 + 32 * le p 0 2 && zeroAt p 2 2, noRecord) :: (records p 2 32).mapIdx fun i r => (s.surfaceRecordOk r, i)

/-- INGRESS_TILE keeps Table 5-9. -/
def ingressTileOk (role : Nat) (p : List Byte) : Bool := p.length == 16 && le p 0 1 == role && le p 1 1 < 2 && zeroAt p 2 14

def State.ingressChecks (s : State) (role : Nat) : List PlanCheck :=
  s.eachField F.ING_PLAN 0x0301 (fun x => flowPlanChecks role x.payload) ++
  s.eachField F.ING_PLAN 0x0301 (fun _ => s.planEntries.mapIdx fun i e => (!e.valid || s.flowTargetOk e, i)) ++
  s.eachField F.ING_PLAN 0x0302 (fun x => inputFormatsChecks x.payload) ++
  s.eachField F.ING_PLAN 0x0303 (fun x => s.livenessChecks x.payload) ++
  s.eachField F.ING_PLAN 0x0304 (fun x => s.surfacePlanChecks x.payload) ++
  s.eachField F.ING_PLAN 0x0305 (fun x => [(ingressTileOk role x.payload, 0)])

/-! ## Channels (R13, R163, R164, R170, R171, R189) -/

/-- A path record at offset o keeps Table 7-2: a media port, and an IPv4 destination in the form ::ffff:a.b.c.d. -/
def pathChecks (p : List Byte) (o : Nat) : List FieldCheck :=
  [(le p o 1 < 32, o), (le p (o + 1) 1 < 2, o + 1), (le p (o + 2) 1 ≤ 63, o + 2), (1 ≤ le p (o + 3) 1, o + 3),
   (bit (le p (o + 1) 1) 0 || isV4 (be p (o + 8) 16), o + 8)]

/-- The paths of a section keep Table 7-2: path B is all zero when the section has none. -/
def pathsChecks (p : List Byte) (offA offB : Nat) (two : Bool) : List FieldCheck :=
  pathChecks p offA ++ (if two then pathChecks p offB else [(zeroAt p offB 24, offB)])

/-- The ports of a section's paths exist, are no pair-link ports, and lie in two groups. -/
def State.pathPortsChecks (s : State) (p : List Byte) (offA offB : Nat) (two : Bool) : List FieldCheck :=
  let ok (n : Nat) : Bool := s.portExists n && !s.linkPorts.contains n
  (ok (le p offA 1), offA) :: (if two then [(ok (le p offB 1) && le p offA 1 / 8 != le p offB 1 / 8, offB)] else [])

/-- Every field of a CHANNEL section lies in its range, and the stripes keep Table 6-6. -/
def channelFieldsChecks (p : List Byte) : List FieldCheck :=
  let v := le p 3 1
  let c := le p 12 2
  [(p.length == 88, 0), (le p 0 1 < 16, 0), (formatOk (le p 1 1), 1), (v == 8 || v == 16 || v == 32 || v == 64, 3),
   (within (le p 4 2) 16 7680 && le p 4 2 % 16 == 0, 4), (within (le p 6 2) 16 4320, 6), (within (le p 8 2) 1 60000, 8),
   (within (le p 10 2) 1 1001 && le p 10 2 ≤ le p 8 2 && le p 8 2 ≤ 120 * le p 10 2, 10), (c == 64 || c == 128 || c == 256, 12),
   (within (le p 14 1) 1 64, 14), (le p 15 1 ≤ 15, 15), (le p 16 1 ≤ le p 15 1, 16), (within (le p 17 1) 96 127, 17),
   (stripesOk (le p 4 2) (le p 2 1) ((List.range 4).map fun i => le p (20 + 2 * i) 2), 20), (1 ≤ le p 28 4, 28), (zeroAt p 34 2, 34)] ++
  pathsChecks p 40 64 (bit (le p 0 1) 2)

/-- A column is a stripe edge or a curd boundary of its stripe. -/
def Geometry.boundary (g : Geometry) (x : Nat) : Bool :=
  x == g.width || g.positions.any fun e => g.x0 e.1 + e.2 * g.curd == x

/-- ZONES keeps Table 7-3, and its edges R164 when the channel has a section. -/
def zonesChecks (plan p : List Byte) : List FieldCheck :=
  let g := (pressPlanOf plan []).geom
  ([(le p 0 1 ≤ 64, 0), (zeroAt p 1 3, 1), (p.length == 4 + 8 * le p 0 1, 0)] : List FieldCheck) ++ (List.range (le p 0 1)).flatMap fun i =>
    let o := 4 + 8 * i
    let x := le p o 2
    let w := le p (o + 4) 2
    [(plan.isEmpty || g.boundary x, o), (1 ≤ w && (plan.isEmpty || (g.boundary (x + w) && x + w ≤ g.width)), o + 4),
     (1 ≤ le p (o + 6) 2 && (plan.isEmpty || le p (o + 2) 2 + le p (o + 6) 2 ≤ g.height), o + 6)]

/-- Active pixel rate of a channel as a fraction: pixels x fn over fd. -/
def pixelRate (p : List Byte) : Nat × Nat := (le p 4 2 * le p 6 2 * le p 8 2, le p 10 2)

/-- Sum of fractions. -/
def fracSum (l : List (Nat × Nat)) : Nat × Nat := l.foldl (fun a x => (a.1 * x.2 + x.1 * a.2, a.2 * x.2)) (0, 1)

/-- The CHANNEL payloads that have ENABLE set. -/
def State.liveChannels (s : State) : List (List Byte) :=
  ((sectionsOf s.config 0x0401).map fun x => x.payload).filter fun p => bit (le p 0 1) 0

/-- The channel plan keeps R13: at most 48 channels, 2.0 Gpix/s each and 24.0 Gpix/s together. -/
def State.pixelRatesOk (s : State) : Bool :=
  let l := s.liveChannels
  let sum := fracSum (l.map pixelRate)
  l.length ≤ 48 && l.all (fun p => (pixelRate p).1 ≤ 2000000000 * (pixelRate p).2) && sum.1 ≤ 24000000000 * sum.2

/-- Press plan of a channel in a configuration. -/
def State.plannedPress (s : State) (c : Nat) : PressPlan := pressPlanOf (s.channelPlan c) (s.payload 0x0402 4 (0x10 + c))

/-- The rate cap reaches the floor rate (R170), and CURD_MAX lies between the largest floor payload and the bound of R155. -/
def PressPlan.floorOk (a : PressPlan) : Bool :=
  let largest := (a.geom.positions.map fun e => curdBound a.geom.fmt (a.geom.units e.1 e.2)).foldl max 0
  a.floor ≤ a.fb &&
  (a.curdMax == 0 || (a.curdMax ≤ largest &&
    (List.range a.geom.height).all fun y => a.geom.positions.all fun e => a.fp y e.1 e.2 ≤ a.curdMax))

/-- Line rate of one path of R171, condition 1, as a fraction of bit/s. -/
def pathRate (p : List Byte) (off : Nat) : Nat × Nat :=
  let a := pressPlanOf p []
  let h := if bit (le p (off + 1) 1) 0 then 98 else 78
  (a.cap * 1000 * a.rateD + 8 * h * (a.positions + a.geom.height + 1) * a.rateN, a.rateD)

/-- The paths that the enabled channels put on a port. -/
def State.pathsOn (s : State) (port : Nat) : List (Nat × Nat) :=
  s.liveChannels.flatMap fun p =>
    (if le p 40 1 = port then [pathRate p 40] else []) ++ (if bit (le p 0 1) 2 ∧ le p 64 1 = port then [pathRate p 64] else [])

/-- A port keeps R171: the sum of its line rates (condition RATE, in kbit/s rounded up), and the queue sum within 390 ns at the port's
rate (condition QUEUE, in bytes). -/
def State.egressChecks (s : State) (port : Nat) : List (Bool × List Byte) :=
  let sum := fracSum (s.pathsOn port)
  let gbps := 400 / portsOfMode (s.groupMode (port / 8))
  let q := queueSum s.liveChannels port + 256
  if (s.pathsOn port).isEmpty then []
  else
    [(sum.1 ≤ gbps * 1000000000 * sum.2, leBytes 1 port ++ leBytes 1 1 ++ leBytes 4 (ceilDiv sum.1 (1000 * sum.2))),
     (8 * q ≤ gbps * 390, leBytes 1 port ++ leBytes 1 2 ++ leBytes 4 q)]

/-- CODER_TILE keeps Table 7-8. -/
def coderTileChecks (p : List Byte) : List FieldCheck :=
  [(le p 0 2 == 1, 0), (within (le p 2 1) 1 16, 2), (zeroAt p 3 1, 3), (le p 4 4 % 16 == 0 && p.length == 16 + le p 4 4, 4)]

/-- EGRESS_TILE keeps Table 7-9. -/
def egressTileChecks (role : Nat) (p : List Byte) : List FieldCheck :=
  [(p.length == 16, 0), (le p 0 1 == role, 0), (le p 1 1 < 2, 1), (zeroAt p 2 14, 2)]

/-- The values of RATE_FLOOR: the floor rate, RATE_CAP and CURD_MAX. -/
def floorData (a : PressPlan) : List Byte := leBytes 4 a.floorKbps ++ leBytes 4 a.cap ++ leBytes 2 a.curdMax

def State.channelChecks (s : State) (role : Nat) : List PlanCheck :=
  s.eachField F.CHANNEL_PLAN 0x0401 (fun x => channelFieldsChecks x.payload) ++
  s.eachField F.CHANNEL_PLAN 0x0402 (fun x => zonesChecks (s.channelPlan (x.tile - 0x10)) x.payload) ++
  s.eachField F.CHANNEL_PLAN 0x0403 (fun x => [(x.payload.length == 16, 0)]) ++
  s.eachField F.CHANNEL_PLAN 0x0401 (fun x =>
    [(!bit (le x.payload 0 1) 0 || decide ((pixelRate x.payload).1 ≤ 2000000000 * (pixelRate x.payload).2), 8), (s.pixelRatesOk, 8)]) ++
  s.eachField F.CHANNEL_PLAN 0x0401 (fun x => s.pathPortsChecks x.payload 40 64 (bit (le x.payload 0 1) 2)) ++
  s.eachField F.CHANNEL_PLAN 0x0404 (fun x => coderTileChecks x.payload) ++
  s.eachField F.CHANNEL_PLAN 0x0405 (fun x => egressTileChecks role x.payload) ++
  s.eachSection F.RATE_FLOOR 0x0401 (fun x =>
    let a := s.plannedPress (x.tile - 0x10)
    [(a.floorOk, floorData a)]) ++
  s.eachSection F.EGRESS_BUDGET 0x0401 (fun x => (channelPorts x.payload).flatMap s.egressChecks)

/-! ## Sparing and the pair (R214) -/

/-- CLAIM_PLAN keeps Table 8-8. -/
def claimPlanChecks (p : List Byte) : List FieldCheck :=
  [(p.length == 8, 0), (le p 0 1 ≤ 15, 0), (le p 1 1 ≤ 4, 1), (within (le p 2 1) 2 32, 2), (zeroAt p 3 1, 3), (within (le p 4 2) 1000 10000, 4),
   (zeroAt p 6 2, 6)]

/-- PAIR_PLAN keeps Table 8-9. -/
def pairPlanChecks (p : List Byte) : List FieldCheck :=
  [(p.length == 48, 0), (le p 0 1 < 4, 0), (le p 1 1 ≤ 15, 1), (le p 2 1 ≤ 15 && le p 1 1 != le p 2 1, 2), (within (le p 3 1) 2 16, 3),
   (within (le p 4 2) 250 10000, 4), (zeroAt p 6 2, 6), (le p 8 4 != 0, 8), (zeroAt p 12 4, 12)]

/-- WITNESS keeps Table 8-10. -/
def witnessChecks (p : List Byte) : List FieldCheck :=
  [(p.length == 72, 0), (within (le p 0 1) 1 2, 0), (le p 1 1 < 2, 1), (within (le p 2 2) 5 1000, 2), (within (le p 4 2) 10 10000, 4),
   (le p 0 1 == 2 || zeroAt p 24 16, 24)]

/-- A live commit keeps ENABLE, RANK, PEER_RANK and PAIR_ID, but while ENABLE is clear in both (R214). -/
def pairUnchanged (old new : List Byte) : List FieldCheck :=
  let on (p : List Byte) : Bool := bit (le p 0 1) 0
  if !on old && !on new then []
  else [(on old == on new, 0), (le old 1 1 == le new 1 1, 1), (le old 2 1 == le new 2 1, 2), (le old 8 4 == le new 8 4, 8)]

/-- `live` holds the PAIR_PLAN in force for a commit on a running device, and none at start-up. -/
def State.sparingChecks (s : State) (live : Option (List Byte)) : List PlanCheck :=
  let enabled := bit (s.pairField 0 1) 0
  s.eachField F.SPARE_PLAN 0x0501 (fun x => claimPlanChecks x.payload) ++
  s.eachField F.SPARE_PLAN 0x0502 (fun x =>
    pairPlanChecks x.payload ++ [(!enabled || (!s.pairPorts.isEmpty && s.hasSection 0x0503 4 8), 0)]) ++
  s.eachField F.SPARE_PLAN 0x0503 (fun x => witnessChecks x.payload) ++
  (match live with
   | some old => (pairUnchanged old (s.payload 0x0502 4 8)).map fun c =>
       if c.1 then none else some ⟨F.SPARE_PLAN, 0x0502, 4, 8, leBytes 2 0x0502 ++ leBytes 2 c.2⟩
   | none => [])

end Sys2Proof.Machine
end

