-- ==== Sys2Proof/Machine/WallPlans.lean ====
section
/-!
DEFINITION. The payload and consistency checks that a commit passes (R68 step 10), second part: layers, head timing, audio, frame
memory, the recorder, firmware, the management link, power and the fault policy (R14, R218, R219, R225 to R227, R234, R238 to R240,
R253, R257, R260, R266, R270, R296, R303, R313, R317, R337, R357, R377, R378, R399), and the first check that fails.
-/

namespace Sys2Proof.Machine

/-! ## Layers (R218, R219, R225 to R227, R234) -/

/-- Canvas of a head, and the window that the head shows: left, top, width, height (R239). -/
def State.plannedWindow (s : State) (n : Nat) : (Nat × Nat) × (Nat × Nat × Nat × Nat) :=
  let t := headTiming (s.plannedTiming n)
  if s.plannedGang n then ((7680, 4320), (n % 2 * 3840, n % 4 / 2 * 2160, 3840, 2160))
  else ((t.width, t.height), (0, 0, t.width, t.height))

/-- The enabled layers of a head in a configuration. -/
def State.plannedLayers (s : State) (n : Nat) : List Layer :=
  let g := s.headPayload 0x0601 n
  (List.range 8).filterMap fun i => readLayer (layerRec g i)

/-- Every enabled layer of every head. -/
def State.allLayers (s : State) : List Layer := (List.range 16).flatMap s.plannedLayers

/-- Visible destination columns and lines of a layer on a head, first and one past last; none when nothing is visible. -/
def State.visiblePart (s : State) (n : Nat) (l : Layer) : Option ((Nat × Nat) × (Nat × Nat)) :=
  let (wx, wy, ww, wh) := (s.plannedWindow n).2
  let x := clip l.dx l.dw wx ww
  let y := clip l.dy l.dh wy wh
  if x.1 < x.2 ∧ y.1 < y.2 then some (x, y) else none

/-- Source lines that the visible part needs, taps included. -/
def Layer.linesFor (l : Layer) (y : Nat × Nat) : Nat := (l.sourceLines (y.2 - 1)).2 + 1 - (l.sourceLines y.1).1

/-- Read area of a layer on a head (R219). -/
def State.readArea (s : State) (n : Nat) (l : Layer) (g : Geometry) : Nat :=
  match s.visiblePart n l with
  | some (x, y) =>
    let c := l.sourceCols x.1 x.2
    ((g.feeding c.1 c.2).map fun e => g.pixels e.1 e.2).sum * min g.height (l.linesFor y + 63)
  | none => 0

/-- Source and destination pixels of the visible part of a layer (R226). -/
def State.scalerLoad (s : State) (n : Nat) (l : Layer) : Nat × Nat :=
  match s.visiblePart n l with
  | some (x, y) =>
    let c := l.sourceCols x.1 x.2
    ((c.2 + 1 - c.1) * l.linesFor y, (x.2 - x.1) * (y.2 - y.1))
  | none => (0, 0)

/-- A number of pixels per frame stays within a rate at a head's frame rate. -/
def HeadTiming.within (t : HeadTiming) (pixels most : Nat) : Bool := pixels * t.fn ≤ most * t.fd

/-- The family of a FORMAT: RGB or YCbCr (R240). -/
def isRgb (fmt : Nat) : Bool := fmt % 4 == 2

/-- One enabled layer of a head keeps R218, R219, R225, R226 and R234. A head without HEAD_TIMING has no canvas to compare. -/
def State.layerOk (s : State) (n : Nat) (l : Layer) : Bool :=
  let dom := n / 8
  let t := headTiming (s.plannedTiming n)
  1 ≤ l.fresh && l.alpha ≤ 256 && l.surface < 512 && within l.readers 1 4 && 64 ≤ l.sw && 64 ≤ l.sh && 1 ≤ l.dw && 1 ≤ l.dh &&
  32 * dom ≤ l.reader0 && l.reader0 + l.readers ≤ 32 * dom + 32 &&
  (match l.scaler with
   | some k => within k (16 * dom) (16 * dom + 15) &&
       4 * l.dw ≤ l.sw && l.sw ≤ 256 * l.dw && 4 * l.dh ≤ l.sh && l.sh ≤ 256 * l.dh
   | none => l.sx % 64 == 0 && l.sy % 64 == 0 && l.sw == 64 * l.dw && l.sh == 64 * l.dh) &&
  ((s.plannedTiming n).isEmpty || (l.dx + l.dw ≤ (s.plannedWindow n).1.1 && l.dy + l.dh ≤ (s.plannedWindow n).1.2)) &&
  min ((l.sw + 63) / 64) l.dw ≤ 4096 &&
  ((s.plannedTiming n).isEmpty || l.scaler.isNone ||
    (let load := s.scalerLoad n l; t.within load.2 600000000 && t.within load.1 1200000000)) &&
  (match s.surfacePlan l.surface with
   | none => true
   | some (_, r) =>
     let g := surfaceGeom r
     l.sx + l.sw ≤ 64 * g.width && l.sy + l.sh ≤ 64 * g.height &&
     ((s.plannedTiming n).isEmpty ||
       (t.within (s.readArea n l g) (l.readers * 300000000) &&
        (l.scaler.isSome || isRgb g.fmt == isRgb (le (s.plannedTiming n) 1 1)))))

/-- Every component of a colour is a 12-bit value. -/
def colourOk (c : Nat × Nat × Nat) : Bool := c.1 < 4096 && c.2.1 < 4096 && c.2.2 < 4096

/-- Two colours differ by at least 1,024 in a component. -/
def coloursDiffer (a b : Nat × Nat × Nat) : Bool :=
  let far (x y : Nat) : Bool := 1024 ≤ (x - y) + (y - x)
  far a.1 b.1 || far a.2.1 b.2.1 || far a.2.2 b.2.2

/-- Index of what stands before the layers of LAYER_GRAPH, and head of a section that belongs to a scaler. -/
def noHead : Nat := 0xFF

/-- The header of LAYER_GRAPH and each layer record keep R234. -/
def State.layerGraphChecks (s : State) (n : Nat) (p : List Byte) : List FieldCheck :=
  let t := headTiming (s.plannedTiming n)
  (p.length == 416 && colourOk (colour p 4) && colourOk (colour p 10) && colourOk (colour p 16) && coloursDiffer (colour p 10) (colour p 16) &&
   zeroAt p 22 10 && ((s.plannedTiming n).isEmpty || (le p 0 2 + 32 ≤ t.width && le p 2 2 + 32 ≤ t.height)), noRecord) ::
  (List.range 8).map fun i =>
    let r := layerRec p i
    (le r 0 1 < 2 && zeroAt r 10 2 && zeroAt r 36 12 && le r 7 1 < 16 &&
     (match readLayer r with
      | some l =>
        s.layerOk n l && l.readerList.all (fun k => (s.allLayers.flatMap Layer.readerList).count k ≤ 1) &&
        (match l.scaler with | some k => (s.allLayers.filterMap fun l => l.scaler).count k ≤ 1 | none => true)
      | none => true), i)

/-- COEFF_SET keeps R227; entry i is phase i. -/
def coeffSetChecks (p : List Byte) : List FieldCheck :=
  let ok (f : Nat → Int) (n : Nat) : Bool :=
    (List.range n).all (fun t => decide (-2048 ≤ f t) && decide (f t ≤ 2047)) && ((List.range n).map f).sum == 1024
  (p.length == 1792, noRecord) :: (List.range 64).map fun ph =>
    (ok (fun t => signed 16 (le p (16 * ph + 2 * t) 2)) 8 && ok (fun t => signed 16 (le p (1024 + 12 * ph + 2 * t) 2)) 6, ph)

/-- COLOUR_MATRIX keeps Table 9-8. -/
def colourMatrixOk (p : List Byte) : Bool :=
  p.length == 32 && zeroAt p 30 2 &&
  (List.range 6).all fun i => let v := signed 16 (le p (18 + 2 * i) 2); decide (-4096 ≤ v) && decide (v ≤ 4095)

/-- VOID_REASONS keeps R234; entry i is reason i. -/
def voidReasonsChecks (p : List Byte) : List FieldCheck :=
  (p.length == 192, noRecord) :: (List.range 16).map fun r =>
    let a := colour p (12 * r)
    let b := colour p (12 * r + 6)
    (colourOk a && colourOk b && coloursDiffer a b, r)

/-- The head of a section's target. -/
def headOf (x : Section) : Nat := 8 * (x.domain - 5) + x.tile

/-- Checks that report a head and an index, or a head and a field offset. -/
def State.eachHead (s : State) (cls : FaultClass) (type : Nat) (head : Section → Nat) (checks : Section → List FieldCheck) : List PlanCheck :=
  s.eachSection cls type fun x => (checks x).map fun c => (c.1, leBytes 2 type ++ leBytes 1 (head x) ++ leBytes 2 c.2)

def State.layerChecks (s : State) : List PlanCheck :=
  s.eachHead F.LAYER_PLAN 0x0601 headOf (fun x => s.layerGraphChecks (headOf x) x.payload) ++
  s.eachHead F.LAYER_PLAN 0x0602 (fun _ => noHead) (fun x => coeffSetChecks x.payload) ++
  s.eachHead F.LAYER_PLAN 0x0603 (fun _ => noHead) (fun x => [(colourMatrixOk x.payload, 0)]) ++
  s.eachHead F.LAYER_PLAN 0x0604 headOf (fun x => voidReasonsChecks x.payload)

/-! ## Head timing and outputs (R14, R238 to R240, R253) -/

/-- The frame rates of R238. -/
def headRates : List (Nat × Nat) :=
  [(24000, 1001), (24, 1), (25, 1), (30000, 1001), (30, 1), (48000, 1001), (48, 1), (50, 1), (60000, 1001), (60, 1)]

/-- HEAD_TIMING keeps R238 and R14's limits of one head. -/
def headTimingChecks (p : List Byte) : List FieldCheck :=
  let t := headTiming p
  [(p.length == 16, 0), (le p 0 1 < 2, 0), (formatOk (le p 1 1), 1), (within t.width 16 4096 && t.width % 16 == 0, 2),
   (within t.height 16 2160, 4), (within t.vt (t.height + 8) 4095, 6), (headRates.any fun r => t.fn * r.2 == r.1 * t.fd, 8),
   (t.fd == 1 || t.fd == 1001, 10), (t.width * t.vt * t.fn ≤ 600000000 * t.fd, 8), (t.off < t.vt, 12), (zeroAt p 14 2, 14)]

/-- GANG keeps R239: four equal timings of 3,840 x 2,160. -/
def State.gangChecks (s : State) (n : Nat) (p : List Byte) : List FieldCheck :=
  let t := s.plannedTiming n
  [(p.length == 4, 0), (le p 0 1 < 2, 0), (zeroAt p 1 3, 1),
   (!bit (le p 0 1) 0 ||
     ((headTiming t).width == 3840 && (headTiming t).height == 2160 && (List.range 4).all fun i => s.plannedTiming (n + i) == t), 0)]

/-- Bytes that a line of a head takes, and its packets. -/
def lineLoad (timing flow : List Byte) : Nat × Nat :=
  let (group, pixels) := pgroupOf (le timing 1 1)
  let bytes := le timing 2 2 / pixels * group
  (bytes, ceilDiv bytes (le flow 8 2))

/-- The line rate that a head puts on a port, as a fraction of bit/s (R240). -/
def State.headLineRate (s : State) (n port : Nat) : Nat × Nat :=
  let t := s.plannedTiming n
  let p := s.headPayload 0x0683 n
  let (bytes, packets) := lineLoad t p
  let path (o : Nat) : Nat :=
    if le p o 1 = port then bytes + packets * (if bit (le p (o + 1) 1) 0 then 130 else 110) else 0
  if p.isEmpty ∨ !bit (le t 0 1) 0 then (0, 1)
  else ((path 16 + (if bit (le p 0 1) 0 then path 40 else 0)) * le t 4 2 * 8 * le t 8 2, le t 10 2)

/-- All head outputs on a port stay within its rate. -/
def State.headPortOk (s : State) (port : Nat) : Bool :=
  let sum := fracSum ((List.range 16).map fun n => s.headLineRate n port)
  sum.1 ≤ 400 / portsOfMode (s.groupMode (port / 8)) * 1000000000 * sum.2

/-- OUTPUT_FLOWS keeps R253. -/
def State.outputFlowsChecks (s : State) (n : Nat) (p : List Byte) : List FieldCheck :=
  let t := s.plannedTiming n
  let two := bit (le p 0 1) 0
  let payload := le p 8 2
  let fits (o : Nat) : Bool := payload + (if bit (le p (o + 1) 1) 0 then 110 else 90) ≤ s.portField (le p o 1) 2 2
  [(p.length == 64, 0), (le p 0 1 < 2, 0), (within (le p 1 1) 1 14, 1), (within (le p 2 1) 96 127, 2), (zeroAt p 3 1, 3),
   (within payload 480 8960, 8), (zeroAt p 10 6, 10)] ++
  pathsChecks p 16 40 two ++ s.pathPortsChecks p 16 40 two ++
  [(fits 16 && (!two || fits 40), 8), (t.isEmpty || payload % (pgroupOf (le t 1 1)).1 == 0, 8), (s.headPortOk (le p 16 1), 16),
   (!two || s.headPortOk (le p 40 1), 40)]

/-- All layers of the device together read at most 19.2 Gpix/s, those of heads with ENABLE clear too (R14, R219). -/
def State.readBudgetOk (s : State) : Bool :=
  let loads := (List.range 16).flatMap fun n =>
    let t := headTiming (s.plannedTiming n)
    (s.plannedLayers n).map fun l => match s.surfacePlan l.surface with
      | some (_, r) => if (s.plannedTiming n).isEmpty then (0, 1) else (s.readArea n l (surfaceGeom r) * t.fn, t.fd)
      | none => (0, 1)
  let sum := fracSum loads
  sum.1 ≤ 19200000000 * sum.2

def State.timingChecks (s : State) : List PlanCheck :=
  s.eachHead F.TIMING_PLAN 0x0681 headOf (fun x => headTimingChecks x.payload) ++
  s.eachHead F.TIMING_PLAN 0x0682 headOf (fun x => s.gangChecks (headOf x) x.payload) ++
  s.eachHead F.TIMING_PLAN 0x0683 headOf (fun x => s.outputFlowsChecks (headOf x) x.payload) ++
  s.eachHead F.TIMING_PLAN 0x0601 headOf (fun _ => [(s.readBudgetOk, 0)])

/-! ## Audio (R257, R260, R266, R270) -/

/-- Output rate of a RATE code, Hz. -/
def audioHz (rate : Nat) : Nat := 1000 * perFrame rate

/-- PDM_CLOCKS keeps Table 11-5. -/
def pdmClocksChecks (p : List Byte) : List FieldCheck :=
  (p.length == 16, noRecord) :: (List.range 2).map fun k =>
    let o := 8 * k
    (le p o 1 < 3 && zeroAt p (o + 1) 1 && le p (o + 4) 2 ≤ 1000 && zeroAt p (o + 6) 2 &&
    (match le p o 1 with
     | 1 => within (le p (o + 2) 2) 1024 4096
     | 2 => le p (o + 2) 2 == 0
     | _ => le p (o + 2) 2 == 0 || within (le p (o + 2) 2) 1024 4096), k)

/-- A capture group keeps Table 11-6, R260 and R266; `mask` is its slot mask. -/
def State.captureGroupOk (s : State) (r : List Byte) (mask : Nat) : Bool :=
  let flags := le r 0 1
  let ch := le r 2 1
  let ports := pathPorts r 12 36 (bit flags 2)
  let curds := s.liveChannels.flatMap channelPorts
  let fits (o : Nat) : Bool := (if bit (le r (o + 1) 1) 0 then 102 else 82) + 144 * ch ≤ s.portField (le r o 1) 2 2
  if r.all (fun b => b == 0) then true
  else
    flags < 32 && le r 1 1 < 3 && within ch 1 16 && le r 3 1 < 8 && within (le r 4 1) 96 127 && within (le r 5 1) 1 14 && zeroAt r 6 2 &&
    zeroAt r 60 4 && (selected mask).length ≤ ch &&
    (!bit flags 1 ||
      (le r 1 1 == 2 && ((pathsChecks r 12 36 (bit flags 2)) ++ s.pathPortsChecks r 12 36 (bit flags 2)).all (·.1) &&
       ports.all (fun p => !curds.contains p) &&
       fits 12 && (!bit flags 2 || fits 36)))

/-- Every clock in master mode that serves a channel of an enabled group gives a permitted ratio (R257). -/
def State.ratiosOk (s : State) (g : Nat) : Bool :=
  let r := ((s.payload 0x0701 7 0).drop (64 * g)).take 64
  let mask := le (s.payload 0x0702 7 0) (2 * g) 2
  !bit (le r 0 1) 0 ||
  (selected mask).all fun i =>
    let k := clockOf i
    let p := s.payload 0x0703 7 0
    le p (8 * k) 1 != 1 || ratios.any fun d => d * audioHz (le r 1 1) == 1000 * le p (8 * k + 2) 2

def State.audioChecks (s : State) : List PlanCheck :=
  let masks := s.payload 0x0702 7 0
  s.eachField F.AUDIO_PLAN 0x0703 (fun x => pdmClocksChecks x.payload) ++
  s.eachField F.AUDIO_PLAN 0x0701 (fun x => (x.payload.length == 128, noRecord) :: (List.range 2).map fun g =>
    (s.captureGroupOk ((x.payload.drop (64 * g)).take 64) (le masks (2 * g) 2) && s.ratiosOk g, g)) ++
  s.eachField F.AUDIO_PLAN 0x0702 (fun x => [(x.payload.length == 8 && zeroAt x.payload 4 4, noRecord)])

/-! ## Frame memory (R296) -/

/-- MiB that a region takes, its second copy included. -/
def regionMib (r : List Byte) : Nat := le r 4 4 * (1 + le r 2 1 % 2)

/-- Bytes of the skip signatures of every channel (R275). -/
def State.signatureBytes (s : State) : Nat :=
  ((List.range 48).map fun c =>
    let n := (s.plannedPress c).positions
    if (s.channelPlan c).isEmpty then 0 else (32 * n + 4095) / 4096 * 4096).sum

/-- REGION_PLAN keeps R296; of two records of one region the later one is reported. -/
def regionPlanChecks (role : Nat) (p : List Byte) : List FieldCheck :=
  let rs := (List.range (le p 0 1)).map fun i => (p.drop (16 + 16 * i)).take 16
  let sigs := (rs.filter fun r => le r 1 1 == 2).length
  (le p 0 1 ≤ 254 && p.length == 16 + 16 * le p 0 1 && zeroAt p 1 15, noRecord) ::
  (rs.mapIdx fun i r =>
    (2 ≤ le r 0 1 && within (le r 1 1) 1 4 && le r 2 1 < 2 && zeroAt r 3 1 && le r 4 4 % 16 == 0 && zeroAt r 8 8 &&
     (le r 1 1 != 4 || le r 2 1 == 1) && (le r 1 1 != 2 || le r 2 1 == 0) && (le r 1 1 != 1 || role == 1) &&
     !((rs.take i).any fun q => le q 0 1 == le r 0 1), i)) ++
  [(2560 + (rs.map regionMib).sum ≤ 50176 && sigs == (if role = 0 then 1 else 0), noRecord)]

/-- The SIGNATURE region holds the entries of every channel section. -/
def State.signaturesFit (s : State) : Bool :=
  let p := s.payload 0x0801 0 0x0A
  let rs := (List.range (le p 0 1)).map fun i => (p.drop (16 + 16 * i)).take 16
  match rs.find? fun r => le r 1 1 == 2 with
  | some r => s.signatureBytes ≤ le r 4 4 * 1048576
  | none => s.signatureBytes == 0

def State.memoryChecks (s : State) (role : Nat) : List PlanCheck :=
  s.eachField F.MEM_PLAN 0x0801 (fun x => regionPlanChecks role x.payload) ++
  s.eachField F.MEM_PLAN 0x0401 (fun _ => [(s.signaturesFit, 0)])

/-! ## The recorder (R303, R313, R317) -/

/-- Record size of a proxy and its frame rate; a source without a section takes nothing. -/
def State.proxyLoad (s : State) (role source : Nat) : Nat × Nat × Nat :=
  let p := if role = 0 then s.channelPlan source else s.plannedTiming source
  let o := if role = 0 then 4 else 2
  if p.isEmpty then (0, 1, 1) else (proxyRecordSize (le p o 2) (le p (o + 2) 2), le p 8 2, le p 10 2)

/-- Planned rate of the recorder as a fraction of bytes per second (R303). -/
def State.plannedRate (s : State) (role : Nat) (p : List Byte) : Nat × Nat :=
  let nProxy := le p 1 1
  let proxies := (List.range nProxy).map fun i =>
    let o := 16 + 4 * i
    let (size, fn, fd) := s.proxyLoad role (le p o 1)
    (size * fn, fd * le p (o + 2) 2)
  let groups := (List.range 2).map fun g =>
    let r := ((s.payload 0x0701 7 0).drop (64 * g)).take 64
    (if bit (le r 0 1) 3 then (40 + 3 * le r 2 1 * perFrame (le r 1 1) + 7) / 8 * 8 * 1000 else 0, 1)
  let taps := (List.range (le p 2 1)).map fun i => (le p (16 + 4 * nProxy + 8 * i + 4) 4 * 125, 1)
  fracSum (proxies ++ groups ++ taps)

/-- RECORDER_PLAN keeps R303 and R317; the records are the proxies, then the flow taps. -/
def State.recorderPlanChecks (s : State) (role : Nat) (p : List Byte) : List FieldCheck :=
  let np := le p 1 1
  let nt := le p 2 1
  let src (i : Nat) : Nat := le p (16 + 4 * i) 1
  let tap (i : Nat) : Nat := 16 + 4 * np + 8 * i
  let es := s.planEntries.filter fun e => e.valid && e.kind == 4
  (p.length == 16 + 4 * np + 8 * nt && le p 0 1 < 2 && np ≤ 48 && nt ≤ 64 && zeroAt p 3 1 && within (le p 4 2) 100 10000 && zeroAt p 6 10,
   noRecord) ::
  (List.range np).map (fun i =>
    (src i < (if role = 0 then 48 else 16) && zeroAt p (16 + 4 * i + 1) 1 && 1 ≤ le p (16 + 4 * i + 2) 2 &&
     !((List.range i).any fun j => src j == src i), i)) ++
  (List.range nt).map (fun i =>
    (le p (tap i) 1 < 64 && zeroAt p (tap i + 1) 3 && within (le p (tap i + 4) 4) 1 368000 && es.any fun e => e.target == le p (tap i) 1,
     np + i)) ++
  ([((s.plannedRate role p).1 ≤ 46000000 * (s.plannedRate role p).2, noRecord)] : List FieldCheck)

/-- HOLDS keeps R317, and covers at most 1,862 slots (R313). -/
def State.holdsChecks (s : State) (p : List Byte) : List FieldCheck :=
  (p.length == 8 + 24 * le p 0 1 && le p 0 1 ≤ 16 && zeroAt p 1 7, noRecord) ::
  (List.range (le p 0 1)).map (fun i => (le p (8 + 24 * i + 4) 4 < 2, i)) ++
  ([(s.applyHolds.slotsHeld ≤ 1862, noRecord)] : List FieldCheck)

/-- The values of REC_PLAN end with the planned rate in bytes per second. -/
def State.recorderChecks (s : State) (role : Nat) : List PlanCheck :=
  let rate := s.plannedRate role s.recPlan
  let with_ (type : Nat) (l : List FieldCheck) : List (Bool × List Byte) :=
    l.map fun c => (c.1, leBytes 2 type ++ leBytes 2 c.2 ++ leBytes 4 (rate.1 / rate.2))
  s.eachSection F.REC_PLAN 0x0901 (fun x => with_ 0x0901 (s.recorderPlanChecks role x.payload)) ++
  s.eachSection F.REC_PLAN 0x0902 (fun x => with_ 0x0902 (s.holdsChecks x.payload))

/-! ## Cores, management link, power, faults (R337, R357, R377, R378, R399) -/

/-- FW_TC, FW_SP or FW_HULL keeps R337 or R378: format, WDT_MS within `lo` to `hi`, CODE_LENGTH a multiple of 16 up to
`most`, ENTRY within the code, reserved bytes 0; `sig` bytes follow the code. -/
def fwPlanChecks (lo hi most sig : Nat) (p : List Byte) : List FieldCheck :=
  let n := le p 4 4
  [(le p 0 2 == 1, 0), (within (le p 2 2) lo hi, 2), (n % 16 == 0 && n ≤ most && p.length == 32 + n + sig, 4),
   (le p 8 8 % 4 == 0 && le p 8 8 < n, 8), (zeroAt p 24 8, 24)]

/-- INTERRUPT_PLAN keeps R337 with the source that each check concerns: thresholds 0 to 15, records within their ranges, none for source
0 or a reserved source, FALLBACK unlike TARGET while the priority is above 0, reserved fields 0. -/
def irqPlanChecks (p : List Byte) : List FieldCheck :=
  (p.length == 2064 && (List.range 5).all (fun t => le p t 1 < 16) && zeroAt p 5 11, 0) :: (List.range 512).map fun n =>
    let o := 16 + 4 * n
    (if n = 0 ∨ 286 < n then zeroAt p o 4
     else le p o 1 < 16 && le p (o + 1) 1 < 5 && le p (o + 2) 1 < 5 && le p (o + 3) 1 < 4 &&
       (le p o 1 == 0 || le p (o + 1) 1 != le p (o + 2) 1), n)

/-- CHECK_PLAN keeps R337 with the channel that each check concerns. -/
def chkPlanChecks (p : List Byte) : List FieldCheck :=
  (p.length == 128, 0) :: (List.range 16).map fun n =>
    let o := 8 * n
    (le p o 1 < 3 && le p (o + 1) 1 < 3 && le p (o + 2) 1 < 2 && le p (o + 3) 1 < 5 && within (le p (o + 4) 2) 1 32767, n)

/-- A management port record keeps Table 4-3 and R357. -/
def mdpPortChecks (p : List Byte) (o : Nat) : List FieldCheck :=
  let f := le p o 1
  [(f < 8, o), (le p (o + 1) 1 ≤ 32, o + 1), (within (le p (o + 2) 2) 1518 9216, o + 2), (le p (o + 4) 1 % 2 == 0, o + 4),
   (zeroAt p (o + 10) 2, o + 10), (bit f 1 || zeroAt p (o + 12) 4, o + 12), (bit f 2 || zeroAt p (o + 16) 16, o + 16),
   (zeroAt p (o + 36) 12, o + 36)]

/-- MDP_SETTINGS keeps R357. -/
def State.mdpSettingsChecks (s : State) (p : List Byte) : List FieldCheck :=
  [(p.length == 144, 0), (zeroAt p 0 1, 0), (within (le p 1 1) 1 8, 1), (within (le p 2 1) 1 64, 2), (within (le p 3 1) 1 50, 3),
   (within (le p 4 2) 10 3600, 4), (within (le p 6 2) 10 1000, 6), (zeroAt p 8 8, 8)] ++
  mdpPortChecks p 16 ++ mdpPortChecks p 80 ++
  [(bit (le p 16 1) 0 || bit (le p 80 1) 0, 16), (!s.portMacs.contains (le p 20 6), 20),
   (le p 20 6 != le p 84 6 && !s.portMacs.contains (le p 84 6), 84)]

/-- POWER_POLICY keeps R377; `spareMin` is SPARE_MIN of CLAIM_PLAN. -/
def powerPolicyChecks (spareMin : Nat) (p : List Byte) : List FieldCheck :=
  [(p.length == 16, 0), (le p 0 1 < 16, 0), (within (le p 1 1) 2 52 && spareMin ≤ le p 1 1, 1), (within (le p 2 1) 70 100, 2), (zeroAt p 3 1, 3),
   (within (le p 4 2) 10 10000, 4), (zeroAt p 6 2, 6), (within (le p 8 4) 4700 100000, 8), (zeroAt p 12 4, 12)]

/-- FAULT_POLICY keeps R399: HOST is set only for a class that raises a standing cause, at the latest after the raise. -/
def faultPolicyChecks (p : List Byte) : List FieldCheck :=
  let n := le p 1 1
  (16 ≤ p.length && p.length == 16 + 4 * n && n ≤ 128 && le p 0 1 < 8 && le p 2 2 ≤ 60000 && zeroAt p 4 12, noRecord) ::
  (List.range n).map fun i =>
    let o := 16 + 4 * i
    let c := le p o 2
    let sev := le p (o + 2) 1
    (!((List.range i).any fun j => le p (16 + 4 * j) 2 == c) &&
     (match ownSeverity c with
      | none => false
      | some own =>
        !(0x0E80 ≤ c && c ≤ 0x0EBF) && sev ≤ 4 && le p (o + 3) 1 < 2 && (sev != 3 || namesOutput c) &&
        (!bit (le p (o + 3) 1) 0 || (namesOutput c && !dataClass c && 3 ≤ max own sev))), i)

def State.controlChecks (s : State) : List PlanCheck :=
  s.eachField F.FW_PLAN 0x0B01 (fun x => fwPlanChecks 0 10000 2097152 0 x.payload) ++
  s.eachField F.FW_PLAN 0x0B02 (fun x => fwPlanChecks 1 100 131072 640 x.payload) ++
  s.eachSection F.IRQ_PLAN 0x0B03 (fun x => (irqPlanChecks x.payload).map fun c => (c.1, leBytes 2 c.2)) ++
  s.eachSection F.CHK_PLAN 0x0B04 (fun x => (chkPlanChecks x.payload).map fun c => (c.1, leBytes 1 c.2)) ++
  s.eachField F.MDP_PLAN 0x0C01 (fun x => s.mdpSettingsChecks x.payload) ++
  s.eachField F.POWER_PLAN 0x0D01 (fun x => powerPolicyChecks s.spareMin x.payload) ++
  s.eachField F.POWER_PLAN 0x0D02 (fun x => fwPlanChecks 1 1000 262144 640 x.payload) ++
  s.eachField F.FAULT_PLAN 0x0E81 (fun x => faultPolicyChecks x.payload)

/-- The first check that fails, chapter by chapter, on a state whose `config` is the projected configuration (R68 step 10). -/
def State.firstBad (s : State) (role : Nat) (live : Option (List Byte)) : Option Bad :=
  (s.timeChecks ++ s.portChecks ++ s.ingressChecks role ++ s.channelChecks role ++ s.sparingChecks live ++ s.layerChecks ++
    s.timingChecks ++ s.audioChecks ++ s.memoryChecks role ++ s.recorderChecks role ++ s.controlChecks).findSome? id

end Sys2Proof.Machine
end

