-- ==== Sys2Proof/Machine/Commit.lean ====
section
/-!
DEFINITION. Commits from their issue to the go point (R67 to R75): the ten checks, acceptance and ripening, the recheck at the go
point, and the ways in which a commit ends without applying.
-/

namespace Sys2Proof.Machine

/-! ## The projected configuration (R68) -/

/-- Two sections have the same place. -/
def samePlace (a b : Section) : Bool := a.type == b.type && a.domain == b.domain && a.tile == b.tile && a.index == b.index

/-- A configuration with a commit applied. COMMIT_GROUPS governs the commit and is no part of a configuration. -/
def projectOne (cfg : List Section) (c : Commit) : List Section :=
  let new := c.sections.filter fun x => x.type != 0x0A01
  let replaced (x : Section) : Bool := new.any fun y => samePlace x y
  if c.image.kind = 1 then
    new ++ cfg.filter fun x => !replaced x && c.image.sections.any fun y => samePlace x y
  else new ++ cfg.filter fun x => !replaced x

/-- CONFIG_ID after a commit of an image (R66). -/
def nextConfigId (old : BitVec 64) (c : Commit) : BitVec 64 :=
  if c.slot.isSome then BitVec.ofNat 64 (le (Config.sha512 (leBytes 8 old.toNat ++ c.image.digest ++ leBytes 2 c.groups)) 0 8) else old

/-- The configuration and CONFIG_ID with a list of commits applied in order. -/
def projectAll (cfg : List Section) (id : BitVec 64) (l : List Commit) : List Section × BitVec 64 :=
  l.foldl (fun a c => (projectOne a.1 c, nextConfigId a.2 c)) (cfg, id)

/-- Role in force, or the boot image's before ticket 0 has applied. -/
def State.runningRole (s : State) : Option Nat := match s.im.role with | some r => some r | none => s.im.bootRole

/-- The owning chapters' checks of a commit against a configuration: the class code, the entry index, 0xFFFF for a section that the
commit does not hold, and the values of the class (R68 step 10). -/
def State.ownerCheck (s : State) (cfg : List Section) (c : Commit) : Option (List Byte) :=
  let role := if c.image.kind = 1 then c.image.role else s.runningRole.getD 0
  let t : State := { s with config := projectOne cfg c }
  (t.firstBad role (some (s.payload 0x0502 4 8))).map fun b =>
    let entry := match c.sections.find? fun x => x.type == b.type && x.domain == b.domain && x.tile == b.tile with
      | some x => x.entry
      | none => 0xFFFF
    leBytes 2 b.cls.code ++ leBytes 2 entry ++ b.data

/-! ## Firmware (R68 step 7, R79) -/

/-- Processor of a firmware section. -/
def fwOf (type : Nat) : Option Nat :=
  match type with | 0x0B01 => some 0 | 0x0B02 => some 1 | 0x0D02 => some 2 | _ => none

/-- CODE of a firmware payload (R337, R378). -/
def fwCode (p : List Byte) : List Byte := (p.drop 32).take (le p 4 4)

/-- The section swaps firmware: its code differs from the running one. -/
def State.swaps (s : State) (x : Section) : Bool :=
  match fwOf x.type with
  | some k => fwCode x.payload != fwCode (s.fw k).running
  | none => false

/-! ## The checks of an issue (R68) -/

/-- An issue: what the session's CMT_ registers name. -/
structure Issue where
  session : Nat
  slotNo  : Nat
  commit  : Commit
  deriving DecidableEq, Repr

/-- The sections of an image in the committed groups. -/
def committed (image : Image) (groups : Nat) : List Section := image.sections.filter fun x => bit groups x.group

/-- What ISSUE names. -/
def State.issue (s : State) (i : Fin 8) : Issue :=
  let g := Agent.session i
  let n := (s.latch g R.im_CMT_SLOT).toNat % 16
  let groups := (s.latch g R.im_CMT_GROUPS).toNat % 0x10000
  let image : Image := if n < 2 ∧ (s.imgSlot n).state = .valid then imageOf (s.imgSlot n).bytes else {}
  let secs := committed image groups
  { session := i.val, slotNo := n,
    commit := { ticket := s.commits.nextTicket, session := some i.val, slot := if n < 2 then some n else none,
                stamp := s.latch g R.im_CMT_STAMP_HI ++ s.latch g R.im_CMT_STAMP_LO, groups := groups, image := image, sections := secs,
                staged := (s.session i.val).staged, rollGap := (s.latch g R.im_CMT_ROLL_GAP).toNat,
                roll := image.kind == 2 && secs.any fun x => x.type == 0x0404 } }

/-- Class and data after the ticket of a failed check. -/
abbrev IssueBad := Option (FaultClass × List Byte)

/-- Step 1. -/
def State.badSlot (s : State) (x : Issue) : IssueBad :=
  if x.slotNo = 15 ∨ (x.slotNo < 2 ∧ (s.imgSlot x.slotNo).state = .valid) then none else some (F.IMG_SLOT_STATE, leBytes 1 x.slotNo)

/-- The sections of the image that target D1 to D7 lie in one group of the commit (R9). -/
def coversTiles (c : Commit) : Bool :=
  let l := c.image.sections.filter fun x => 1 ≤ x.domain
  l.all fun x => bit c.groups x.group && l.all fun y => y.group == x.group

/-- Step 2: R16, and R9 for a PARTIAL image and for a FULL one whose role is another than the running one (its class is DEDUCED, log
entry 67). -/
def State.badRole (s : State) (c : Commit) : IssueBad :=
  if s.runningRole ≠ some c.image.role ∧ (c.image.kind = 2 ∨ (c.image.kind = 1 ∧ coversTiles c = false)) then some (F.IMG_ROLE, [])
  else match if c.image.kind = 2 then c.sections.find? fun x => x.domain == 0 else none with
    | some x => some (F.IMG_D0, leBytes 2 x.entry)
    | none => none

/-- A PARTIAL commit with CODER_TILE sections holds nothing else (R76). -/
def badRoll (c : Commit) : Option Section :=
  if c.roll then
    match c.sections.find? fun x => x.type != 0x0404 with
    | some x => some x
    | none => if c.staged.isEmpty then none else c.sections.head?
  else none

/-- Step 3, the bounds of R38; 600 s hold a whole number of ticks, rounded down. -/
def State.badLead (s : State) (c : Commit) : IssueBad :=
  let d := stampDiff c.stamp s.stamp
  if !s.clock.seeded || decide ((ticksAt s.mode (sec 600) : Int) < d) then some (F.RENNET_RANGE, leBytes 8 c.stamp.toNat)
  else if d < s.minLead then some (F.RENNET_LEAD, leBytes 8 c.stamp.toNat ++ leBytes 8 s.stamp.toNat)
  else if !s.pendingStamps.contains c.stamp && decide (64 ≤ s.pendingStamps.length) then some (F.RENNET_FULL, leBytes 8 c.stamp.toNat)
  else none

/-- Step 4: the earlier-issued commit whose rennet point lies later. -/
def State.badOrder (s : State) (c : Commit) : IssueBad :=
  (s.commits.order.find? fun e => later e.2 c.stamp).map fun e => (F.IMG_ORDER, leBytes 4 e.1)

/-- Step 5 (R57): the groups that BIND names and the commit leaves out. -/
def missingGroups (c : Commit) : Nat :=
  match c.image.sections.find? fun x => x.type == 0x0A01 with
  | some x =>
    ((List.range 16).filter fun h => !bit c.groups h && (List.range 16).any fun g => bit c.groups g && bit (le x.payload (4 * g) 2) h).foldl
      (fun v h => v + 2 ^ h) 0
  | none => 0

/-- The class of a section ripens, rolls, rebuilds or swaps. -/
def heavy (type : Nat) : Bool :=
  match applyOf type with
  | some .ripen => true | some .roll => true | some .shadow => true | some .swap => true | _ => false

/-- A pending commit, a roll, the copy of the flow table or an unconfirmed firmware holds the tile (R68 step 6, R80, R111). -/
def State.tileBusy (s : State) (d t : Nat) : Bool :=
  s.tilePending d t || (s.roll.active && s.roll.sections.any fun x => x.domain == d && x.tile == t) ||
  (d == 1 && t == 8 && s.ft.copying) ||
  (d == 0 && ((t == 9 && s.im.fwTc.unconfirmed) || (t == 0 && s.im.fwSp.unconfirmed) || (t == 5 && s.im.fwHull.unconfirmed)))

/-- Step 6. A tile's control address is its number times 2^20 (R4). -/
def State.badTile (s : State) (c : Commit) : IssueBad :=
  (c.sections.find? fun x => heavy x.type && s.tileBusy x.domain x.tile).map fun x =>
    (F.IMG_TILE_BUSY, leBytes 4 (tileNo x.domain x.tile * 0x100000))

/-- Step 7. -/
def State.badFirmware (s : State) (c : Commit) : IssueBad :=
  if 1 < (c.sections.filter s.swaps).length then some (F.IMG_FW_MULTI, []) else none

/-- Step 8. -/
def State.badBoot (s : State) (c : Commit) : IssueBad :=
  (c.sections.find? fun x => applyOf x.type == some .boot && x.payload != s.payload x.type x.domain x.tile).map fun x =>
    (F.IMG_BOOT_ONLY, leBytes 2 x.type)

/-- Step 9. -/
def badBase (id : BitVec 64) (c : Commit) : IssueBad :=
  if c.slot.isSome ∧ c.image.baseId ≠ 0 ∧ c.image.baseId ≠ id then some (F.IMG_BASE, leBytes 8 id.toNat) else none

/-- Step 10. -/
def State.badOwner (s : State) (cfg : List Section) (c : Commit) : IssueBad :=
  if c.slot.isNone then none
  else (s.ownerCheck cfg c).map fun b => (F.IMG_REFUSED, b)

/-- The checks from step 4 on. -/
def State.lateChecks (s : State) (c : Commit) : IssueBad :=
  let p := projectAll s.config s.im.configId s.commits.live
  [s.badOrder c, (if missingGroups c = 0 then none else some (F.IMG_BIND, leBytes 2 (missingGroups c))), s.badTile c, s.badFirmware c,
   s.badBoot c, badBase p.2 c, s.badOwner p.1 c].findSome? id

/-! ## Refusal and acceptance (R69, R70) -/

/-- The image manager keeps the state of the last 256 tickets. -/
def State.setTicket (s : State) (t : Nat) (st : CommitState) (cls : Nat := 0) : State :=
  s.modCommits fun m =>
    { m with tickets :=
        if m.tickets.any fun x => x.ticket == t then m.tickets.map fun x => if x.ticket = t then ⟨t, st, cls⟩ else x
        else (⟨t, st, cls⟩ :: m.tickets).take 256 }

/-- A refused commit: its state and the one ledger entry. -/
def State.refused (s : State) (t : Nat) (f : FaultClass) (ctrl : Nat) (data : List Byte) : State :=
  (((s.setTicket t .refused f.code).count R.im_REFUSED).event R.im_EVENTS 2).log f ctrl data

/-- The class ripens its tiles, so that they leave service: Ripen in every commit, and everything in D1 to D7 in a live FULL
commit (R56, R75). -/
def Commit.ripens (c : Commit) : List (Nat × Nat) :=
  if c.image.kind = 1 then allTiles
  else ((c.sections.filter fun x => applyOf x.type == some .ripen).map fun x => (x.domain, x.tile)).dedup

/-- A tile that a FULL commit leaves alone: the role in force gates it and so does the commit's. -/
def State.staysGated (s : State) (c : Commit) (x : Nat × Nat) : Bool :=
  c.image.kind == 1 && (s.tile (tileNo x.1 x.2)).cause == 1 && roleGates c.image.role x.1 x.2

/-- The tiles that leave service when the commit is accepted. -/
def State.leaving (s : State) (c : Commit) : List (Nat × Nat) := c.ripens.filter fun x => !s.staysGated c x

/-- Number under which the shadow of the flow table waits. -/
def shadowItem : Nat := 0x10000

/-- What must report ready: every tile that the commit loads, the flow table's shadow, and in a roll every spare (R70, R74). -/
def State.mustReport (s : State) (c : Commit) : List Nat :=
  let loads (x : Section) : Bool :=
    match applyOf x.type with
    | some .stage => false
    | some .boot => false
    | some .swap => s.swaps x
    | _ => true
  let live := c.sections.filter loads
  let item (x : Section) : List Nat :=
    if x.type = 0x0301 then [shadowItem]
    else if x.type = 0x0404 ∧ c.roll then
      (match coderOf x.domain x.tile with
       | some k => if (s.coder k).channel.isNone && (s.coder k).state != .failed then [tileNo x.domain x.tile] else []
       | none => [])
    else [tileNo x.domain x.tile]
  let staged : List Nat := if c.staged.isEmpty then [] else [tileNo 0 1]
  ((live.flatMap item) ++ ((s.leaving c).map fun x => tileNo x.1 x.2) ++ staged).dedup

/-- A head sends end-of-validity and stops (R75, R248). -/
def State.headSilence (s : State) (h : Nat) : State :=
  match (s.head h).state with
  | .off => s
  | .enabled => s.modHead h fun x => { x with state := .off, startK := none }
  | .stopping => s
  | _ =>
    let s := s.modHead h fun x => { x with state := .stopping, eovLeft := some 16, startK := none, inFrame := false, mode := none,
                                           eovPeriod := (s.timing h).period }
    if s.sends then s.headEov h voidMode else s

/-- Every output of D1 to D7 sends end-of-validity and the recorder seals its open wheel (R75). What waits at the ports leaves before
the tiles do, the end-of-validity records last (R9; in the same step, DESIGN CHOICE, log entry 67). -/
def State.fullAccepted (s : State) : State :=
  let s := (List.range 48).foldl (fun s c => s.stopChannel c) s
  let s := (List.range 16).foldl (fun s h => s.headSilence h) s
  let s := (s.modAudio fun a => { a with waiting := [], change := true }).sealWheel sealCommit
  (List.range 32).foldl (fun s p => s.flushQueue p) s

/-- A tile leaves service and ripens; a gated one is ungated first (R374). Its port group goes down with it (R97, R17). -/
def State.tileLeaves (s : State) (d t : Nat) : State :=
  let n := tileNo d t
  match (s.tile n).state with
  | .gated => if (s.tile n).cause = 3 then s else s.ungate d t
  | _ =>
    let s := s.modTile n fun x => { x with state := .ripening, ripeFrom := s.now }
    match coderOf d t with
    | some k => s.modCoder k fun x => { x with state := .ripening, ripeFrom := s.now, fenced := false, selfDone := false, selfPass := false, selfStage := 0 }
    | none => if d = 1 ∧ t < 4 then s.groupLeave t else if d = 1 ∧ t < 8 then s.groupLeave (t - 4) else if d = 4 ∧ t < 4 then s.groupLeave t else s

/-- A tile that a commit targets is ungated when the commit is accepted (R374). -/
def State.ungateTargets (s : State) (c : Commit) : State :=
  c.sections.foldl (fun s x => if (s.tile (tileNo x.domain x.tile)).cause = 2 then s.ungate x.domain x.tile else s) s

/-- The flow table's shadow is rebuilt (R111). -/
def State.startShadow (s : State) (c : Commit) : State :=
  match c.sections.find? fun x => x.type == 0x0301 with
  | some x => s.beginRebuild c.ticket x.payload
  | none => s

/-- Acceptance: the staged set leaves the session, the tiles begin to ripen, and in a roll every spare does (R67, R70, R74 to R77). -/
def State.accept (s : State) (c : Commit) : State :=
  let c := { c with waiting := s.mustReport c }
  let c := { c with state := if c.waiting.isEmpty then .ready else .accepted }
  let s := match c.session with
    | some i => s.modSession i fun x => { x with staged := [] }
    | none => s
  let s := s.modCommits fun m => { m with live := m.live ++ [c], order := m.order ++ [(c.ticket, c.stamp)] }
  let s := s.setTicket c.ticket c.state
  let s := (s.ungateTargets c).startShadow c
  let s := if c.image.kind = 1 then s.fullAccepted else s
  let s := (s.leaving c).foldl (fun s x => s.tileLeaves x.1 x.2) s
  if c.roll then
    ((c.sections.filterMap fun x => coderOf x.domain x.tile).filter fun k => (s.coder k).channel.isNone && (s.coder k).state == .ripe).foldl
      (fun s k => s.ripenCoder k) s
  else s

/-- ISSUE, decided at once: the first failing check refuses, or the commit is accepted (R68 to R70). -/
def State.decideIssue (s : State) (x : Issue) : State :=
  let c := x.commit
  let t := leBytes 4 c.ticket
  let no (s : State) (b : FaultClass × List Byte) : State := s.refused c.ticket b.1 R.im (t ++ b.2)
  match s.badSlot x with
  | some b => no s b
  | none => match s.badRole c with
    | some b => no s b
    | none => match badRoll c with
      | some y => s.refused c.ticket F.IMG_SECTION R.im (leBytes 1 x.slotNo ++ leBytes 2 y.entry ++ leBytes 2 y.type)
      | none => match s.badLead c with
        | some b => ((s.refused c.ticket b.1 R.rennet b.2).count R.rennet_REFUSED).event R.time_EVENTS 512
        | none =>
          if 63 ≤ s.commits.live.length then no s (F.IMG_PENDING_FULL, [])
          else match s.lateChecks c with
            | some b => no s b
            | none => s.accept c

/-- COMMIT_ISSUE (R68): only MDP sessions issue commits; the commit takes the next ticket. -/
def execCommitIssue (agent : Agent) (s : State) : Out :=
  match agent with
  | .session i =>
    if !s.running then .next s
    else
      let x := s.issue i
      let s := s.modCommits fun m => { m with nextTicket := m.nextTicket + 1 }
      .next ((s.setLatch (.session i) R.im_CMT_TICKET (w32 x.commit.ticket)).decideIssue x)
  | _ => .next s

/-! ## Commits that end without applying (R72, R73) -/

/-- A port group whose tiles are all in service runs again. -/
def State.groupBack (s : State) (d t : Nat) : State :=
  if d = 1 ∧ t < 4 then s.groupRejoin t
  else if d = 1 ∧ 4 ≤ t ∧ t < 8 then s.groupRejoin (t - 4)
  else if d = 4 ∧ t < 4 then s.groupRejoin t
  else s

/-- A tile that left service for a commit rejoins at once with its old plane; one that the role in force gates is gated again. -/
def State.tileRejoins (s : State) (x : Nat × Nat) : State :=
  let n := tileNo x.1 x.2
  if (s.tile n).state ≠ .ripening then s
  else match s.im.role with
    | some r =>
      if roleGates r x.1 x.2 then s.gate x.1 x.2 1
      else
        let s := (s.modTile n fun y => { y with state := .inService }).clearTileCounts x.1 x.2
        (match coderOf x.1 x.2 with
         | some k => s.modCoder k fun y => { y with state := if y.state = .failed then .failed else .ripe }
         | none => s.groupBack x.1 x.2)
    | none => s

/-- A channel starts as its sections in force direct, or stands harmless while a cause holds it (R187, R412). -/
def State.startChannel (s : State) (c : Nat) : State :=
  if s.hasSection 0x0401 4 (0x10 + c) then
    let s := if (s.chan c).gone || (s.chan c).plan.isEmpty then { s with chans := s.chans.put (fun _ => {}) c {} } else s
    let s := s.applySections c
    if s.chanOn c then
      let s := s.enableChannel c
      if s.heldDown (.channel c) then s.channelHarmless c (s.channelReason c).1 (s.channelReason c).2 else s
    else s
  else if (s.chan c).plan.isEmpty then s
  else s.modChan c fun x => { x with plan := leBytes 1 (le x.plan 0 1 - le x.plan 0 1 % 2) ++ x.plan.drop 1, gone := true, waiting := false }

/-- Every output of D1 to D7 starts under its chapter's rule (R75). -/
def State.startOutputs (s : State) (stamp : Stamp) : State :=
  let s := (List.range 48).foldl (fun s c => s.startChannel c) s
  let s := (List.range 16).foldl (fun s h => s.headCommit h stamp false) s
  s.audioWait

/-- The inactive planes are discarded. -/
def State.rejoin (s : State) (c : Commit) : State :=
  let s := s.dropRebuild c.ticket
  let s := c.ripens.foldl (fun s x => s.tileRejoins x) s
  let s := if c.image.kind = 1 then s.startOutputs s.stamp else s
  let s := if c.roll then
      (c.sections.filterMap fun x => coderOf x.domain x.tile).foldl (fun s k =>
        let s := s.modCoder k fun y => { y with loaded := none }
        if (s.coder k).channel.isNone && (s.coder k).state == .ripening && !(s.coder k).retest then
          let t := coderTile k
          ((s.modCoder k fun y => { y with state := .ripe }).modTile (tileNo t.1 t.2) fun y => { y with state := .inService }).clearTileCounts t.1 t.2
        else s) s
    else s
  let s := s.spareCheck
  if s.hull.state = .trim then s.gateUnused else s

/-- The commit leaves the pending ones: abandoned or cancelled. -/
def State.drop (s : State) (c : Commit) (st : CommitState) (cls : Nat) : State :=
  let s := s.modCommits fun m => { m with live := m.live.filter fun x => x.ticket != c.ticket }
  let s := ((s.setTicket c.ticket st cls).count R.im_ABANDONED).event R.im_EVENTS 8
  s.rejoin c

/-- Reasons of IMG_ABANDONED in their order. -/
def abandonRipen : Nat := 1
def abandonBase : Nat := 2
def abandonRecheck : Nat := 3
def abandonStage : Nat := 4
def abandonSafe : Nat := 5

/-- IMG_ABANDONED with a reason (R72). -/
def State.abandon (s : State) (c : Commit) (reason : Nat) : State :=
  (s.log F.IMG_ABANDONED R.im (leBytes 4 c.ticket ++ leBytes 1 reason ++ leBytes 4 c.staged.length)).drop c .abandoned F.IMG_ABANDONED.code

/-- IMG_NOT_RIPE (R72). -/
def State.notRipe (s : State) (c : Commit) : State :=
  (s.log F.IMG_NOT_RIPE R.im (leBytes 4 c.ticket ++ leBytes 4 c.waiting.length)).drop c .abandoned F.IMG_NOT_RIPE.code

/-- The go point: 250 us before the rennet point (R70). -/
def State.goStamp (s : State) (c : Commit) : Stamp := c.stamp - BitVec.ofNat 64 (ticksUp s.mode 250000)

/-- A pending commit. -/
def State.commitOf (s : State) (t : Nat) : Option Commit := s.commits.live.find? fun c => c.ticket == t

/-- Change it, and the state kept of its ticket. -/
def State.setCommit (s : State) (c : Commit) : State :=
  (s.modCommits fun m => { m with live := m.live.map fun x => if x.ticket = c.ticket then c else x }).setTicket c.ticket c.state

/-- COMMIT_CANCEL (R73): accepted while ACCEPTED or READY and before the go point. An unknown ticket, or one that has ended without
applying, is ignored. -/
def execCommitCancel (agent : Agent) (ticket : Nat) (s : State) : Out :=
  let _ := agent
  if !s.running then .next s
  else match s.commitOf ticket with
    | none =>
      (match s.commits.tickets.find? fun x => x.ticket == ticket with
       | some x => if x.state = .applied then .next (s.log F.IMG_CANCEL_LATE R.im (leBytes 4 ticket)) else .next s
       | none => .next s)
    | some c =>
      if c.state = .go ∨ s.reached (s.goStamp c) = true then .next (s.log F.IMG_CANCEL_LATE R.im (leBytes 4 ticket))
      else
        let s := s.log F.IMG_CANCELLED R.im (leBytes 4 ticket ++ leBytes 4 c.staged.length)
        let s := s.modCommits fun m => { m with order := m.order.filter fun e => e.1 != ticket }
        .next (s.drop c .cancelled 0)

/-- The slot has lost a part in frame memory (R64). -/
def State.slotLost (s : State) (n : Nat) : State :=
  if (s.imgSlot n).state = .empty ∨ (s.imgSlot n).state = .lost then s
  else
    let s := s.modImgSlot n fun _ => { state := .lost, reason := F.IMG_STAGE_LOST.code }
    let gone := s.commits.live.filter fun c => c.slot == some n && c.state != .go
    let s := (s.log F.IMG_STAGE_LOST R.im (leBytes 1 n ++ leBytes 4 gone.length)).event R.im_EVENTS 0x80
    gone.foldl (fun s c => s.abandon c abandonStage) s

/-- Device-safe abandons every commit whose rennet point lies more than 2 us after its entry (R72). -/
def State.safeAbandons (s : State) : State :=
  let limit := s.ledger.safeStamp + BitVec.ofNat 64 (ticksUp s.mode 2000)
  (s.commits.live.filter fun c => !c.start && later c.stamp limit).foldl (fun s c => s.abandon c abandonSafe) s

/-! ## The go point (R70, R72) -/

/-- GO_POINT: a commit that is not READY is abandoned, and so is a roll with fewer than 2 ripe spares; then BASE_ID and the owning
chapters' checks are repeated against the configuration in force. -/
def execGoPoint (ticket : Nat) (s : State) : Out :=
  match s.commitOf ticket with
  | none => .next s
  | some c =>
    if !s.reached (s.goStamp c) || c.state == .go then .next s
    else if c.state ≠ .ready ∨ (c.roll ∧ s.ripeSpares.length < 2) then .next (s.notRipe c)
    else if c.start then .next (s.setCommit { c with state := .go })
    else
      if (badBase s.im.configId c).isSome then .next (s.abandon c abandonBase)
      else if (s.badRole c).isSome || (s.badOwner s.config c).isSome then .next (s.abandon c abandonRecheck)
      else .next (s.setCommit { c with state := .go })

/-! ## Ripening (R74) -/

/-- Control address of a tile. -/
def tileCtrl (d t : Nat) : Nat := tileNo d t * 0x100000

/-- IMG_RIPEN_FAIL, with the number of the failed stage. -/
def State.ripenFail (s : State) (ticket d t stage : Nat) : State :=
  s.log F.IMG_RIPEN_FAIL (tileCtrl d t) (leBytes 4 ticket ++ leBytes 1 stage)

/-- A coder's self-test has ended: SELFTEST shows its outcome, and EVENTS bit 3 of Table 7-11 is raised, passed or failed
(DESIGN CHOICE: the spec names the bit only). -/
def State.selfTested (s : State) (k : Nat) (failed : Option Nat) : State :=
  (s.modCoder k fun x => { x with selfDone := true, selfPass := failed.isNone, selfStage := failed.getD 0 }).event (R.coder_EVENTS k) 8

/-- The outcome of a coder's ripening; a coder that was marked failed while it ripened stays failed until it is retested
(R195, R204). -/
def State.coderTested (s : State) (k : Nat) (failed : Option Nat) : State :=
  let again := (s.coder k).retest
  let bad := failed.isSome || (s.coder k).state == .failed
  let s := (s.selfTested k failed).modCoder k fun x => { x with retest := false, state := if bad then .failed else .ripe }
  if again then
    (s.event R.brine_EVENTS 32).log { F.CODER_RETEST with sev := if bad then 1 else 0 } (R.coder k) (leBytes 1 k ++ leBytes 1 (if bad then 2 else 1))
  else s

/-- A plane takes effect in a coder: the planes exchange where it is another one than that in force. A coder that holds none yet takes
it as it is. -/
def State.takePlane (s : State) (k : Nat) (p : List Byte) : State :=
  let flips := !(s.coder k).content.isEmpty && (s.coder k).content != p
  (s.modCoder k fun x => { x with content := p, loaded := none, plane := if flips then !x.plane else x.plane }).modTile
    (tileNo (coderTile k).1 (coderTile k).2) fun x => { x with plane := if flips then !x.plane else x.plane }

/-- At the rennet point of a roll a coder that has loaded the new plane exchanges its planes (R52). -/
def State.exchangePlanes (s : State) (k : Nat) : State :=
  match (s.coder k).loaded with
  | some p => s.takePlane k p
  | none => s

/-- The content that a coder ripens: the plane of a roll that is pending or runs, else the configuration's. -/
def State.ripeContent (s : State) (k : Nat) (c : Option Commit) : List Byte :=
  let t := coderTile k
  match c.bind fun c => c.sections.find? fun x => x.type == 0x0404 && x.domain == t.1 && x.tile == t.2 with
  | some x => x.payload
  | none => s.payload 0x0404 t.1 t.2

/-- A spare has become ripe, or a tile has joined service: who waits for it goes on. -/
def State.afterRipe (s : State) : State := s.grantWaiting.spareCheck.rollDoneCheck.trimCoders.pairReadyCheck

/-- A tile of a pending commit has reported. -/
def State.commitReports (s : State) (c : Commit) (d t : Nat) (failed : Option Nat) : State :=
  let n := tileNo d t
  match failed with
  | none =>
    let w := c.waiting.filter fun x => x != n
    let s := s.setCommit { c with waiting := w, state := if w.isEmpty then .ready else c.state }
    (match coderOf d t with
     | some k =>
       if c.roll then
         let p := s.ripeContent k (some c)
         (((s.coderTested k none).modCoder k fun x => { x with loaded := some p }).modTile n fun x => { x with state := .inService }).afterRipe
       else s.selfTested k none
     | none => s)
  | some st =>
    match coderOf d t, c.roll with
    | some k, true =>
      let w := c.waiting.filter fun x => x != n
      let s := s.setCommit { c with waiting := w, state := if w.isEmpty then .ready else c.state }
      (((s.coderTested k (some st)).modTile n fun x => { x with state := .failed }).ripenFail c.ticket d t st).afterRipe
    | some k, false => ((s.selfTested k (some st)).ripenFail c.ticket d t st).abandon c abandonRipen
    | none, _ => (s.ripenFail c.ticket d t st).abandon c abandonRipen

/-- A pending commit keeps the tile out of service until its rennet point. -/
def State.heldByCommit (s : State) (d t : Nat) : Bool := s.commits.live.any fun c => c.ripens.contains (d, t)

/-- A tile that ripens for no commit joins service, or has failed. -/
def State.tileReports (s : State) (d t : Nat) (failed : Option Nat) : State :=
  let n := tileNo d t
  match failed with
  | none =>
    let s := (s.modTile n fun x => { x with state := .inService }).clearTileCounts d t
    let s := match coderOf d t with
      | some k => if (s.coder k).state = CoderState.failed then s.coderTested k none else (s.coderTested k none).takePlane k (s.ripeContent k none)
      | none => if d = 1 ∧ t < 4 then s.groupJoin t else s.groupBack d t
    s.afterRipe
  | some st =>
    let s := s.modTile n fun x => { x with state := .failed }
    let s := match coderOf d t with
      | some k => s.coderTested k (some st)
      | none => s
    (s.ripenFail 0 d t st).afterRipe

/-- RIPEN_DONE (R70, R74): a tile reports the end of its ripening: passed, or failed in stage 1 MEMORY, 2 LOGIC or
3 KNOWN_ANSWER. -/
def execRipenDone (domain : Fin 8) (tile : Fin 64) (failedStage : Option (Fin 3)) (s : State) : Out :=
  let d := domain.val
  let t := tile.val
  let n := tileNo d t
  let failed := failedStage.map fun x => x.val + 1
  let x := s.tile n
  if x.state = .gated ∨ (x.state = .ripening ∧ s.now < x.ripeFrom) then .next s
  else match s.commits.live.find? fun c => c.waiting.contains n with
    | some c => .next (s.commitReports c d t failed)
    | none =>
      if x.state = .ripening ∧ s.heldByCommit d t = false then .next (s.tileReports d t failed) else .next s

/-- FT_REBUILD_DONE (R111, R113): the shadow of the flow table is rebuilt, its new groups are joined, and the flow table reports
ready. -/
def execFtRebuildDone (s : State) : Out :=
  match s.ft.rebuilding with
  | none => .next s
  | some t =>
    let s := s.modFt fun f => { f with rebuilding := none, rebuilt := some t }
    let s := s.joinBank (s.ft.bankOf (!s.ft.active))
    match s.commitOf t with
    | none => .next s
    | some c =>
      let w := c.waiting.filter fun x => x != shadowItem
      .next (s.setCommit { c with waiting := w, state := if w.isEmpty then .ready else c.state })

end Sys2Proof.Machine
end

