-- ==== Sys2Proof/Machine/Monitor.lean ====
section
/-!
DEFINITION. The clock monitors (R35): REF_IN (R36, R37), the recovered clocks of the lanes (R90) and the PDM clocks (R262).
-/

namespace Sys2Proof.Machine

/-- Every period of a window lies within 12.5 % of nominal. -/
def windowWithin (nominal : Nat) (periods : List Nat) : Bool :=
  periods.all fun p => 8 * (p - nominal) ≤ nominal && 8 * (nominal - p) ≤ nominal

/-- What a window or its absence makes of a monitor. -/
inductive MonitorNews where
  | none | glitch | lost | lostGlitched | reacquired
  deriving DecidableEq, Repr

/-- Mean period in ps and rate in Hz of a window. -/
def meanPeriod (periods : List Nat) : Nat := periods.sum / periods.length
def windowRate (periods : List Nat) : Nat := (periods.length * 1000000000000 + periods.sum / 2) / periods.sum

/-- Error of a window's rate against a nominal period, ppb. -/
def windowError (nominal : Nat) (periods : List Nat) : Int :=
  ((nominal * periods.length : Nat) - (periods.sum : Int)) * 1000000000 / periods.sum

/-- A first clean window of a clock that is not good: a clock with a permitted range of nominal periods learns its nominal from it. -/
def Monitor.learn (m : Monitor) (range : Option (Nat × Nat)) (periods : List Nat) : Monitor × MonitorNews :=
  match range with
  | some (lo, hi) =>
    let p := meanPeriod periods
    if !windowWithin p periods then ({ m with cleanRun := 0 }, .glitch)
    else if lo ≤ p ∧ p ≤ hi then ({ m with nominal := p, rate := windowRate periods, cleanRun := 1 }, .none)
    else ({ m with cleanRun := 0 }, .none)
  | none => if windowWithin m.nominal periods then ({ m with cleanRun := 1 }, .none) else ({ m with cleanRun := 0 }, .glitch)

/-- One window with its periods in ps (R35), and the stamp that is the last good one when the window is clean. A glitched window is
not used. A window that ends a run of clean ones may begin a new run (DEDUCED, log entry 30). -/
def Monitor.window (m : Monitor) (range : Option (Nat × Nat)) (periods : List Nat) (now : Nat) (stamp : Stamp) : Monitor × MonitorNews :=
  match m.state with
  | .off => (m, .none)
  | .good =>
    if periods.isEmpty then (m, .none)
    else
      let m := { m with lastEdgeAt := now }
      if windowWithin m.nominal periods then ({ m with glitchRun := 0, err := windowError m.nominal periods, lastStamp := stamp }, .none)
      else if m.glitchRun + 1 < 8 then ({ m with glitchRun := m.glitchRun + 1 }, .glitch)
      else ({ m with state := .lost, glitchRun := 0, cleanRun := 0 }, .lostGlitched)
  | _ =>
    if periods.isEmpty then ({ m with cleanRun := 0 }, .none)
    else
      let m := { m with lastEdgeAt := now }
      if m.cleanRun == 0 || !windowWithin m.nominal periods then m.learn range periods
      else if m.cleanRun + 1 < 8 then ({ m with cleanRun := m.cleanRun + 1 }, .none)
      else
        ({ m with state := .good, cleanRun := 0, glitchRun := 0, err := windowError m.nominal periods, lastStamp := stamp }, .reacquired)

/-- No edge for two nominal periods (R35): a good clock is lost. A clock that has not been good yet stays acquiring, since only a clock
that was there can be lost (DEDUCED, log entry 30). -/
def Monitor.silent (m : Monitor) : Monitor × MonitorNews :=
  match m.state with
  | .good => ({ m with state := .lost, glitchRun := 0, cleanRun := 0 }, .lost)
  | _ => ({ m with cleanRun := 0 }, .none)

/-- A glitched REF_IN window, and the loss of REF_IN (R36, R37, R49). -/
def State.refGlitch (s : State) : State :=
  ((s.count R.ref_REF_GLITCHES).event R.time_EVENTS 256).logRated F.REF_GLITCH 0 R.ref 0 (fun n => leBytes 4 n) false
def State.refLost (s : State) : State :=
  let s := (s.count R.ref_REF_LOSSES).event R.time_EVENTS 128
  (s.log F.REF_LOSS R.ref (leBytes 1 s.refMode ++ leBytes 8 s.refIn.lastStamp.toNat)).reselect

/-- What REF_IN's monitor reports. The first acquisition after REF_IN is installed counts as reacquired (DESIGN CHOICE, log entry 30);
a hold of the frequency continues from the error measured then (R37). -/
def State.refNews (s : State) (news : MonitorNews) : State :=
  match news with
  | .none => s
  | .glitch => s.refGlitch
  | .lost => s.refLost
  | .lostGlitched => s.refGlitch.refLost
  | .reacquired =>
    let s := s.modServo fun v => { v with refErrHeld := s.refIn.err }
    ((s.event R.time_EVENTS 128).log F.REF_REACQUIRED R.ref (leInt 4 s.refIn.err)).reselect

/-- What a lane's monitor reports (R88, R90). -/
def State.laneNews (s : State) (l : Nat) (news : MonitorNews) : State :=
  match news with
  | .lost | .lostGlitched => s.cdrLoss l
  | .reacquired => s.laneClockGood l
  | _ => s

/-- What a PDM clock's monitor reports (R262, R263). -/
def State.pdmNews (s : State) (k : Nat) (news : MonitorNews) : State :=
  match news with
  | .none => s
  | .glitch => s.pdmGlitch k
  | .lost => s.pdmLost k
  | .lostGlitched => (s.pdmGlitch k).pdmLost k
  | .reacquired => s.pdmGood k

/-- Nominal period in ps of a lane's recovered clock divided by 1,024 (R90): 25.94 MHz and 10.07 MHz. -/
def laneNominal (l : Nat) : Nat := if l < 32 then 38551 else 99297

/-- The permitted range of a slave PDM clock as periods in ps (R257). -/
def pdmRange : Nat × Nat := (244140, 976563)

/-- MONITOR_WINDOW_END (R35): a window ends with the periods, in ps, of the edges in it. -/
def execMonitorWindowEnd (clock : MonitorId) (periods : List Nat) (s : State) : Out :=
  if !s.running then .next s
  else match clock with
    | .refIn =>
      let (m, n) := s.refIn.window none periods s.now (if s.refMode = 2 then s.refIn.edgeStamp else s.stamp)
      .next ((({ s with refIn := m } : State).refNews n).followRefIn)
    | .lane l =>
      let m := { (s.lane l.val).monitor with nominal := laneNominal l.val }
      let (m, n) := m.window none periods s.now s.stamp
      .next ((s.modLane l.val fun x => { x with monitor := m }).laneNews l.val n)
    | .pdm k =>
      let (m, n) := (s.pdm k.val).window (if s.pdmField k.val 0 1 = 2 then some pdmRange else none) periods s.now s.stamp
      .next ((s.setPdm k.val m).pdmNews k.val n)

/-- MONITOR_EDGE_TIMEOUT (R35): no edge for two nominal periods. -/
def execMonitorEdgeTimeout (clock : MonitorId) (s : State) : Out :=
  if !s.running then .next s
  else match clock with
    | .refIn =>
      let (m, n) := s.refIn.silent
      .next (({ s with refIn := m } : State).refNews n)
    | .lane l =>
      let (m, n) := (s.lane l.val).monitor.silent
      .next ((s.modLane l.val fun x => { x with monitor := m }).laneNews l.val n)
    | .pdm k =>
      let (m, n) := (s.pdm k.val).silent
      .next ((s.setPdm k.val m).pdmNews k.val n)

/-- REF_STATUS. -/
def State.refStatus (s : State) : Word := w32 s.refIn.state.code

end Sys2Proof.Machine
end

