-- ==== Sys2Proof/Machine/SafeRows.lean ====
section
/-!
DEFINITION. The commands through which device-safe may be entered (R381 to R395), with the commits that its entry abandons
(R72).
-/

namespace Sys2Proof.Machine

/-- Device-safe stands in `t` and did not in `s`: commits with a later rennet point are abandoned (R72). -/
def State.safeEntered (s t : State) : State := if !s.ledger.safe && t.ledger.safe then t.safeAbandons else t

/-- LEDGER_INTAKE (R381, R382, R385, R392). -/
def execLedgerIntake (ctrl : Nat) (s : State) : Out := .next (s.safeEntered (s.ledgerIntake ctrl))

/-- LEDGER_DELIVER (R381 to R386, R391, R395). -/
def execLedgerDeliver (s : State) : Out := .next (s.safeEntered s.ledgerDeliver)

/-- SAFE_PIN_QUALIFY (R393). -/
def execSafePinQualify (s : State) : Out := .next (s.safeEntered s.safePinQualify)

/-- SAFE_ENTER (R390, R392). -/
def execSafeEnter (agent : Agent) (s : State) : Out := .next (s.safeEntered (s.safeRequested agent))

end Sys2Proof.Machine
end

