-- ==== Sys2Proof/Machine/Memory.lean ====
section
/-!
DEFINITION. The memory controller (R273 to R297): regions and extents, the service of requests, inline ECC, refresh, training,
and the retirement of a pair.
-/

namespace Sys2Proof.Machine

/-! ## Errors (R277, R278, R292) -/

/-- Position of a port in Table 12-4. -/
def MemPort.code : MemPort → Nat
  | .rd _ => 1 | .sw _ => 2 | .sg => 3 | .rc => 4 | .tc _ => 5 | .im => 6 | .sc => 7

/-- A corrected error. -/
def State.corrected (s : State) (m : Nat) : State :=
  ((s.count (R.mch_CH_CORR m)).count R.mem_ECC_CORR).modMchan m fun x => { x with corrNow := x.corrNow + 1 }

/-- An uncorrectable error is counted and reported; the fourth within 1 s starts a training at once (R292). -/
def State.uncorrectable (s : State) (m region : Nat) (port : MemPort) : State :=
  let s := ((s.count (R.mch_CH_UNCORR m)).count R.mem_ECC_UNCORR).event R.mem_EVENTS 4
  let s := s.logRated F.MEM_ECC_UNCORR m (R.mch m) 0 (fun _ => leBytes 1 m ++ leBytes 1 (min 255 region) ++ leBytes 1 port.code) false
  let at_ := s.now :: (s.mchan m).uncorrAt.filter fun t => s.now < t + sec 1
  let s := s.modMchan m fun x => { x with uncorrAt := at_, uncorrSince := true }
  let checking := match (s.mchan m).checkBy with | some t => decide (s.now ≤ t) | none => false
  if 4 ≤ at_.length ∧ checking = false then
    s.modMchan m fun x => { x with checkBy := some (s.now + sec 1), trainDue := some (x.trainDue.getD s.now), uncorrAt := [] }
  else s

/-- The errors continue within the second after four of them. -/
def State.errorsGoOn (s : State) (m : Nat) : Bool :=
  match (s.mchan m).checkBy with
  | some t => s.now ≤ t && !(s.mchan m).uncorrAt.isEmpty
  | none => false

/-- The second copy is read and returned, and the first is rewritten from it (R278). -/
def State.dupRepair (s : State) (region extent l copy : Nat) : State :=
  ((s.unpoison l copy).count R.mem_DUP_REPAIRS).log F.MEM_DUP_REPAIR R.mem (leBytes 1 region ++ leBytes 2 extent)

/-- Staging slot of an offset in region 1. -/
def slotAt (x : Nat) : Nat := x / 268435456

/-- What a poisoned read does to its requester (Table 12-3). A void surface slot, a stored signature, a ring buffer and a core's
access fault show in the commands of their own chapters. -/
def State.poisonEffect (s : State) (m : Nat) (r : MemReq) : State :=
  let (region, x) := regionOf r.addr
  if region = 0 then s.log F.MEM_SYSTEM_LOST R.mem (leBytes 2 (extentOf x))
  else if r.port = .im then
    if r.again then s.slotLost (slotAt x)
    else s.modMchan m fun c => { c with queue := c.queue ++ [{ r with again := true, since := s.now }] }
  else s

/-! ## Service of a request (R281, R282) -/

/-- The line of a request is read with `errors` wrong bits in a word of it (R277, R278): the result says whether its bytes are good. -/
def State.lineRead (s : State) (m : Nat) (r : MemReq) (errors : Nat) : State × Bool :=
  let (region, x) := regionOf r.addr
  let e := extentOf x
  let l := lineOf r.addr
  let copy := s.liveCopy region e
  let lone := s.memory.single.any fun y => y.region == region && y.extent == e
  if errors = 2 ∨ s.isPoisoned l copy = true then
    let s := (s.poison l copy).uncorrectable m region r.port
    if s.regionDup region && !lone && !s.isPoisoned l (1 - copy) then ((s.dupRepair region e l copy).event R.mem_EVENTS 32, true)
    else (s, false)
  else (if errors = 1 then s.corrected m else s, true)

/-- A write reaches both copies, and one of a whole line clears their poison; a smaller one is merged into the line, which is read
first and stays poisoned (R277). -/
def State.memWrite (s : State) (m : Nat) (r : MemReq) (p : List Byte) (errors : Nat) : State :=
  let s := s.setBytes r.addr (p.take r.length)
  if r.length = 64 then (s.unpoison (lineOf r.addr) 0).unpoison (lineOf r.addr) 1
  else if s.isPoisoned (lineOf r.addr) (s.liveCopy (regionOf r.addr).1 (extentOf (regionOf r.addr).2)) then s
  else (s.lineRead m r errors).1

/-- The bytes of a request go to a core that reads. -/
def State.memValue (s : State) (r : MemReq) : State :=
  match r.port with
  | .tc _ => s.answer (w32 (le (s.bytes r.addr r.length) 0 r.length))
  | _ => s

/-- A read with `errors` wrong bits in a word of the line. -/
def State.memRead (s : State) (m : Nat) (r : MemReq) (errors : Nat) : State :=
  let x := s.lineRead m r errors
  if x.2 then x.1.memValue r else x.1.poisonEffect m r

/-- The request is served. -/
def State.serve (s : State) (m : Nat) (r : MemReq) (errors : Nat) : State :=
  let b := Config.dramBank r.addr
  let s := s.modMchan m fun x => { x with queue := x.queue.erase r, rows := x.rows.put (fun _ => 0) b (Config.dramRow r.addr + 1) }
  match r.write with
  | some p => s.memWrite m r p errors
  | none => s.memRead m r errors

/-- The extent of an address has left a pair whose extents are being remapped. -/
def State.fenced (s : State) (a : Nat) : Bool :=
  let (r, x) := regionOf a
  s.memory.remaps.any fun m =>
    s.memory.remapping.contains m.left && m.region == r && m.extent == extentOf x && m.copy == s.liveCopy r (extentOf x)

/-- A request to a fenced pair (Table 12-5, step 1): a write is discarded; a read returns poison, or the second copy of a DUP extent. The
image manager's retry meets the same poison. -/
def State.fencedRequest (s : State) (m : Nat) (r : MemReq) : State :=
  let (region, x) := regionOf r.addr
  let lone := s.memory.single.any fun y => y.region == region && y.extent == extentOf x
  if r.write.isSome then s
  else if s.regionDup region && !lone then s.memValue r
  else s.poisonEffect m { r with again := true }

/-- Urgency and panic of a request by its port (Table 12-4): a surface reader's are those of its head's line buffer; only real-time
ports panic, and of the others only the recorder is ever urgent. -/
def State.ported (s : State) (r : MemReq) : MemReq :=
  match r.port with
  | .rd k => match s.userOf false k with
    | some (n, _) => { r with urgent := (s.head n).urgent, panic := (s.head n).panic }
    | none => { r with urgent := false, panic := false }
  | .sw _ => r
  | .rc => { r with panic := false }
  | _ => { r with urgent := false, panic := false }

/-- A request reaches the queue of its channel, which holds 64. An access of a core outside every region faults (R274). -/
def State.arrive (s : State) (m : Nat) (r : MemReq) : State :=
  if !s.mapped r.addr then
    match r.port with
    | .tc n => s.log F.MEM_ACCESS R.mem (leBytes 1 n ++ leBytes 8 r.addr)
    | _ => s
  else if s.fenced r.addr then s.fencedRequest m r
  else if r.length = 0 ∨ lineOf r.addr ≠ lineOf (r.addr + r.length - 1) ∨ s.memChannel r.addr ≠ m ∨ 64 ≤ (s.mchan m).queue.length then s
  else s.modMchan m fun x =>
    { x with queue := x.queue ++ [{ s.ported r with since := s.now, raised := false, again := false }], qPeak := max x.qPeak (x.queue.length + 1) }

/-! ## Retirement of a pair (R293, R294) -/

/-- Copies of extents that lie on a pair: region, extent, copy. -/
def State.extentsOn (s : State) (p : Nat) : List (Nat × Nat × Nat) :=
  s.regions.flatMap fun r =>
    (List.range (s.copies r)).flatMap fun c =>
      ((List.range (s.regionMib r / 2)).filter fun e =>
        s.pairOf r e c == p && !(s.memory.single.any fun x => x.region == r && x.extent == e && x.copy != c)).map fun e => (r, e, c)

/-- A pair for an extent: in ascending order one with a free extent on which no other extent of its band lies, else any with a
free extent; never `avoid`. -/
def State.placeExtent (s : State) (region extent copy : Nat) (avoid : Option Nat) : Option Nat :=
  let ok := s.pairsUp.filter fun p => 0 < s.freeOn p && some p != avoid
  let alone (p : Nat) : Bool := (List.range 8).all fun i =>
    let e := extent / 8 * 8 + i
    e == extent || s.pairOf region e copy != p
  match ok.find? alone with
  | some p => some p
  | none => ok.head?

/-- One copy lost with pair `p`: a DUP extent keeps its other copy, any other is remapped empty. The number counts the extents
that find no place: they stay on the retired pair, which serves nothing. -/
def State.moveExtent (s : State) (p : Nat) (x : Nat × Nat × Nat) : State × Nat :=
  let (r, e, c) := x
  let lone := s.memory.single.any fun y => y.region == r && y.extent == e
  if s.regionDup r && !lone then
    let first := !(s.memory.single.any fun y => y.region == r)
    let s := s.modMemory fun m => { m with single := m.single ++ [⟨r, e, 1 - c⟩] }
    (if first then (s.log F.MEM_DUP_SINGLE R.mem (leBytes 1 r)).event R.mem_EVENTS 32 else s, 0)
  else match s.placeExtent r e c none with
    | some q =>
      (s.modMemory fun m => { m with
        remaps := (m.remaps.filter fun y => !(y.region == r && y.extent == e && y.copy == c)) ++ [⟨r, e, c, q, p⟩] }, 0)
    | none => (s.modMemory fun m => { m with
        remaps := (m.remaps.filter fun y => !(y.region == r && y.extent == e && y.copy == c)) ++ [⟨r, e, c, p, p⟩] }, 1)

/-- A byte range of a region touches an extent that pair `p` has lost. -/
def State.lostBy (s : State) (p region x len : Nat) : Bool :=
  let es := extentsOf x len
  s.memory.remaps.any fun m => m.left == p && m.region == region && es.contains m.extent

/-- Step 2 of Table 12-5: the layers of each head whose SURFACE region has an extent on the pair. -/
def State.memoryAreas (s : State) (p : Nat) : State :=
  let onPair := (s.extentsOn p).map (·.1)
  (List.range 16).foldl (fun s h =>
    let layers := (List.range 8).filter fun i => match s.layerOf h i with
      | some l => (match s.surfPlan l.surface with | some q => onPair.contains q.region | none => false)
      | none => false
    if layers.isEmpty then s
    else
      let mask := layers.foldl (fun v i => v + 2 ^ i) 0
      let s := s.modHead h fun x => { x with memAreas := x.memAreas ++ [{ pair := p, layers := layers }] }
      s.logData F.MEM_AREA_VOID R.mem (s.headDp h) (leBytes 1 h ++ leBytes 1 mask)) s

/-- Rings with a descriptor in a lost extent are disabled. -/
def State.ringsLost (s : State) (p : Nat) : State :=
  (List.range 64).foldl (fun s n =>
    let a := s.ringBase n
    if s.ringSlots n ≠ 0 ∧ s.lostBy p (regionOf a).1 (regionOf a).2 (32 * s.ringSlots n) = true then
      (s.setReg (R.ring_RING_SIZE n) 0).log F.MEM_RING_LOST R.mem (leBytes 1 n)
    else s) s

/-- Slots with a part in a lost extent are lost (R64). -/
def State.slotsLost (s : State) (p : Nat) : State :=
  [0, 1].foldl (fun s n => if s.lostBy p 1 (268435456 * n) (s.imgSlot n).bytes.length then s.slotLost n else s) s

/-- Causes of MEM_PAIR_RETIRED in their order. -/
def retireTrain : Nat := 1
def retireUncorr : Nat := 2
def retireSilent : Nat := 3
def retireHost : Nat := 4

/-- The pair is fenced and retired. -/
def State.retirePair (s : State) (p cause : Nat) : State :=
  if s.memory.retired.contains p then s
  else
    let s := s.memoryAreas p
    let lost := s.extentsOn p
    let queued := (s.mchan (2 * p)).queue ++ (s.mchan (2 * p + 1)).queue
    let s := s.modMemory fun m => { m with retired := m.retired ++ [p], remapping := m.remapping ++ [p], state := max 3 m.state }
    let gone (x : MemChan) : MemChan := { x with state := .retired, queue := [], rows := [], trainDue := none, trainRun := false, checkBy := none, owed := 0 }
    let s := ((s.modMchan (2 * p) gone).modMchan (2 * p + 1) gone).panicCheck (2 * p)
    let s := s.panicCheck (2 * p + 1)
    let s := (s.log F.MEM_PAIR_RETIRED R.mem (leBytes 1 p ++ leBytes 1 cause)).event R.mem_EVENTS 1
    let (s, left) := lost.foldl (fun (a : State × Nat) x => let (t, n) := a.1.moveExtent p x; (t, a.2 + n)) (s, 0)
    let s := if s.regions.any fun r => s.regionKind r == 2 && 2 ≤ r then s.mapChans fun _ x => { x with noSkip := true } else s
    let s := (s.slotsLost p).ringsLost p
    let s := queued.foldl (fun s r => s.fencedRequest (2 * p) r) s
    if left = 0 then s
    else ((s.modMemory fun m => { m with state := 4 }).event R.mem_EVENTS 64).log F.MEM_CAPACITY R.mem
      (leBytes 1 s.pairsUp.length ++ leBytes 4 (2 * left))

/-! ## Commands: requests -/

/-- MEM_REQUEST_SERVE (R281, R282, R288): requests reach a channel and, unless it pays back refreshes, one is served; `errors` bits of a word of its line are wrong. -/
def execMemRequestServe (channel : Fin 16) (arriving : List MemReq) (errors : Fin 3) (s : State) : Out :=
  let m := channel.val
  let s := arriving.foldl (fun s r => s.arrive m r) s
  let s := s.panicCheck m
  if !(s.mchan m).serves || s.stalled m then .next s
  else match (s.mchan m).next with
    | none => .next s
    | some r =>
      let s := (s.serve m r errors.val).panicCheck m
      if s.errorsGoOn m then .next (s.retirePair (m / 2) retireUncorr) else .next s

/-- MEM_STARVATION_RAISE (R283): requests that have waited 1 us rise to class 3. -/
def execMemStarvationRaise (channel : Fin 16) (s : State) : Out :=
  let m := channel.val
  let due (r : MemReq) : Bool := 3 < r.cls && s.due (r.since + us 1)
  let n := ((s.mchan m).queue.filter due).length
  .next ((s.modMchan m fun x => { x with queue := x.queue.map fun r => if due r then { r with raised := true } else r }).countBy (R.mch_CH_STARVED m) n)

/-! ## Commands: refresh and temperature (R286 to R289) -/

/-- tREFI in ns: 3.9 us, 1.95 us while hot, a quarter of 3.9 us from MR4 0b101 on. -/
def MemChan.refi (x : MemChan) : Nat := if 5 ≤ x.mr4 then 975 else if x.hot then 1950 else 3900

/-- REFRESH_DUE (R286): a refresh falls due; it is postponed while requests of class 2 or 3 wait, unless 8 are owed or the channel
is hot. -/
def execRefreshDue (channel : Fin 16) (s : State) : Out :=
  let m := channel.val
  let x := s.mchan m
  if !x.serves || !s.due x.refreshAt then .next s
  else
    let s := s.modMchan m fun x => { x with refreshAt := x.refreshAt + x.refi }
    if x.busy && !x.hot && decide (x.owed < 8) then .next (s.modMchan m fun x => { x with owed := x.owed + 1 })
    else .next (s.modMchan m fun x => { x with rows := [], lastRefresh := s.now })

/-- REFRESH_PAYBACK (R286): one owed refresh is paid back. -/
def execRefreshPayback (channel : Fin 16) (s : State) : Out :=
  let m := channel.val
  let x := s.mchan m
  if x.serves && decide (0 < x.owed) && !x.busy then
    .next (s.modMchan m fun x => { x with owed := x.owed - 1, rows := [], lastRefresh := s.now })
  else .next s

/-- MEM_HOT on entry (1) or exit (2). -/
def State.memHot (s : State) (m mr4 way : Nat) : State :=
  (s.log F.MEM_HOT (R.mch m) (leBytes 1 m ++ leBytes 1 mr4 ++ leBytes 1 way)).event R.mem_EVENTS 8

/-- The channel becomes hot: every owed refresh is paid back to back after one precharge (R288). -/
def State.becomesHot (s : State) (m mr4 : Nat) : State :=
  let n := (s.mchan m).owed
  let s := (s.modMchan m fun x => { x with hot := true, coolReads := 0 }).memHot m mr4 1
  if n = 0 then s.modMchan m fun x => { x with refreshAt := min x.refreshAt (s.now + x.refi) }
  else
    let ns := 21 + 280 * n
    let s := s.modMchan m fun x => { x with owed := 0, rows := [], lastRefresh := s.now + ns, stallMax := max x.stallMax ns,
                                            refreshAt := s.now + ns + x.refi }
    ((s.count (R.mch_CH_PAYBACKS m)).event R.mem_EVENTS 16).log F.MEM_PAYBACK (R.mch m) (leBytes 1 m ++ leBytes 1 n ++ leBytes 4 ns)

/-- MR4_POLL (R287 to R290): the reading of a channel's MR4, every 4 ms. -/
def execMr4Poll (channel : Fin 16) (mr4 : Fin 8) (s : State) : Out :=
  let m := channel.val
  let v := mr4.val
  let x := s.mchan m
  if !x.serves || !s.due (x.mr4At + ms 4) then .next s
  else
    let s := s.modMchan m fun x => { x with mr4 := v, mr4At := s.now }
    let s :=
      if 4 ≤ v then (if x.hot then s.modMchan m fun x => { x with coolReads := 0 } else s.becomesHot m v)
      else if x.hot then
        (if 1 ≤ x.coolReads then (s.modMchan m fun x => { x with hot := false, coolReads := 0 }).memHot m v 2
         else s.modMchan m fun x => { x with coolReads := x.coolReads + 1 })
      else s
    let s := if 5 ≤ v ∧ x.mr4 < 5 then s.log F.MEM_TOO_HOT (R.mch m) (leBytes 1 m ++ leBytes 1 v) else s
    let s := if s.allCool then s.clearSafe F.MEM_TOO_HOT.code else s
    if Config.mr4Moved v x.trainMr4 && x.trainDue.isNone then .next (s.modMchan m fun x => { x with trainDue := some s.now })
    else .next s

/-! ## Commands: training (R290 to R292) -/

/-- TRAINING_DUE (R290): 256 ms since the last training; a new window of corrected errors begins. -/
def execTrainingDue (channel : Fin 16) (s : State) : Out :=
  let m := channel.val
  let x := s.mchan m
  if x.serves && x.trainDue.isNone && s.due (x.lastTrain + ms 256) then
    .next (s.modMchan m fun x => { x with trainDue := some s.now, corrLast := x.corrNow, corrNow := 0 })
  else .next s

/-- TRAINING_STEP (R290): a window without requests of class 2 or 3 and without a request older than 200 ns, and never during
a payback. -/
def execTrainingStep (channel : Fin 16) (s : State) : Out :=
  let m := channel.val
  let x := s.mchan m
  if x.serves && x.trainDue.isSome && !x.busy && !s.stalled m && !(x.queue.any fun r => r.since + 200 < s.now) then
    .next (s.modMchan m fun x => { x with trainRun := true })
  else .next s

/-- TRAINING_FORCE (R290): no window for 1 s; the step is issued in class 1 after the channel's next refresh. -/
def execTrainingForce (channel : Fin 16) (s : State) : Out :=
  let m := channel.val
  let x := s.mchan m
  match x.trainDue with
  | some t => if x.serves && !x.trainRun && !s.stalled m && decide (t + sec 1 ≤ x.lastRefresh) then .next (s.modMchan m fun x => { x with trainRun := true }) else .next s
  | none => .next s

/-- Every channel has been trained once: frame memory runs (R410 phase 3). -/
def State.memoryUp (s : State) : State :=
  if s.memory.state < 2 ∧ (List.range 16).all (fun i => (s.mchan i).serves || (s.mchan i).state == .retired) = true then
    s.modMemory fun x => { x with state := 2 }
  else s

/-- TRAINING_DONE (R290 to R292): the margins found, in 1/64 UI; 4 of each are needed. -/
def execTrainingDone (channel : Fin 16) (readMargin writeMargin : Byte) (s : State) : Out :=
  let m := channel.val
  let x := s.mchan m
  let first := x.state == .training
  if !first && !(x.serves && x.trainRun) then .next s
  else
    let s := s.modMchan m fun x => { x with
      margin := writeMargin ++ readMargin, trainRun := false, trainDue := none, lastTrain := s.now, trainMr4 := x.mr4,
      refreshAt := if first then s.now + m * 3900 / 16 else x.refreshAt, mr4At := if first then s.now else x.mr4At }
    let s := if first ∧ s.startup.phase = 2 then s.modStartup fun y => { y with phase := 3, phaseAt := s.now } else s
    if 4 ≤ readMargin.toNat ∧ 4 ≤ writeMargin.toNat then
      .next ((s.modMchan m fun x => { x with state := .inService, uncorrSince := false, checkBy := x.checkBy.filter fun t => s.now ≤ t }).count (R.mch_CH_TRAINS m)).memoryUp
    else
      let s := (s.count (R.mch_CH_TRAIN_FAILS m)).event R.mem_EVENTS 2
      if x.checkBy.isSome then .next (s.retirePair (m / 2) retireUncorr).memoryUp
      else if x.corrLast < 64 ∧ x.uncorrSince = false then
        let s := s.modMchan m fun x => { x with state := .oldSettings }
        .next (s.log F.MEM_TRAIN_FAIL (R.mch m) (leBytes 1 m ++ leBytes 2 (writeMargin ++ readMargin).toNat)).memoryUp
      else .next (s.retirePair (m / 2) retireTrain).memoryUp

/-- TRAIN_NOW (R290): a training of every channel at its next window. -/
def execTrainNow (agent : Agent) (s : State) : Out :=
  if s.running ∧ s.adminWrite agent then
    .next ((List.range 16).foldl (fun s m => if (s.mchan m).serves then s.modMchan m fun x => { x with trainDue := some (x.trainDue.getD s.now) } else s) s)
  else .next s

/-! ## Commands: retirement (R292 to R295) -/

/-- MEM_CHANNEL_SILENT (R292): a channel stops answering. -/
def execMemChannelSilent (channel : Fin 16) (s : State) : Out :=
  if (s.mchan channel.val).serves then .next (s.retirePair (channel.val / 2) retireSilent) else .next s

/-- MEM_RETIRE (R292): the pair in MEM_CTRL.PAIR; a retired pair and the last one in service are ignored. -/
def execMemRetire (agent : Agent) (s : State) : Out :=
  let p := (s.reg R.mem_MEM_CTRL).toNat / 16 % 8
  if s.running ∧ s.adminWrite agent ∧ 1 < s.pairsUp.length then .next (s.retirePair p retireHost) else .next s

/-- A lost surface slot has no tag (R293 step 3). -/
def State.surfacesLost (s : State) (p : Nat) : State :=
  s.mapSurfaces fun n x =>
    match s.surfPlan n with
    | some q => { x with slots := x.slots.filter fun e => !s.lostBy p q.region (q.offset + e.1 * 2 * q.slotBytes) (2 * q.slotBytes) }
    | none => x

/-- First byte of a channel's skip signatures in the SIGNATURE region (R275). -/
def State.signatureBase (s : State) (c : Nat) : Nat :=
  ((List.range c).map fun i => if (s.chan i).plan.isEmpty then 0 else ((s.chanGeom i).height * (s.chanGeom i).positions.length * 32 + 4095) / 4096 * 4096).sum

/-- Skip signatures in a lost extent are invalid. -/
def State.signaturesLost (s : State) (p : Nat) : State :=
  match s.regions.find? fun r => s.regionKind r == 2 && 2 ≤ r with
  | some r => s.mapChans fun c x => { x with sigs := x.sigs.filter fun e => !s.lostBy p r (s.signatureBase c + 32 * e.1) 32 }
  | none => s

/-- REMAP_DONE (R293 step 3): the extents of the pair lie elsewhere, and those without a second copy read as empty. -/
def execRemapDone (pair : Fin 8) (s : State) : Out :=
  let p := pair.val
  if !s.memory.remapping.contains p then .next s
  else
    let moved := s.memory.remaps.filter fun m => m.left == p && m.pair != p
    let s := (s.surfacesLost p).signaturesLost p
    let s : State := { s with mem := s.mem.filter fun e => !(memBase ≤ e.1 && s.lostBy p (regionOf e.1).1 (regionOf e.1).2 1) }
    let s := s.modMemory fun m => { m with
      remapping := m.remapping.filter fun q => q != p,
      lostMib := moved.foldl (fun l y => l.put (fun _ => 0) y.region (l.get (fun _ => 0) y.region + 2)) m.lostMib }
    let s := s.mapHeads fun _ x => { x with memAreas := x.memAreas.map fun a => if a.pair = p then { a with remapped := true } else a }
    .next (s.log F.MEM_REMAP_DONE R.mem (leBytes 1 p ++ leBytes 4 (2 * moved.length)))

/-- DUP_COPY_DONE (R295): a DUP extent has two copies again; without a free extent it stays single. -/
def execDupCopyDone (region extent : Nat) (s : State) : Out :=
  match s.memory.single.find? fun x => x.region == region && x.extent == extent with
  | none => .next s
  | some x =>
    let c := 1 - x.copy
    match s.placeExtent region extent c (some (s.pairOf region extent x.copy)) with
    | none => .next s
    | some q =>
      let s := s.modMemory fun m => { m with
        single := m.single.filter fun y => !(y.region == region && y.extent == extent), copied := m.copied + 1,
        remaps := (m.remaps.filter fun y => !(y.region == region && y.extent == extent && y.copy == c)) ++ [⟨region, extent, c, q, 8⟩] }
      if s.memory.single.isEmpty then
        let n := s.memory.copied
        .next (((s.modMemory fun m => { m with copied := 0 }).log F.MEM_DUP_RESTORED R.mem (leBytes 4 (2 * n))).event R.mem_EVENTS 32)
      else .next s

/-! ## Patrol scrub (R279) -/

/-- Lines that the scrub reads: those of the copies of every region, in order, then those of the free extents of the pairs in service. -/
def State.scrubLines (s : State) : Nat :=
  (s.regions.map fun r => s.regionMib r * 16384 * s.copies r).sum + (s.pairsUp.map fun p => s.freeOn p * 32768).sum

/-- A line of a free extent: 256 and its pair in place of the region, and its offset on the pair. -/
def State.scrubFree (s : State) (n : Nat) : List Nat → Nat × Nat × Nat
  | [] => (0, 0, 0)
  | p :: rest => let lines := s.freeOn p * 32768; if n < lines then (256 + p, n * 64, 0) else s.scrubFree (n - lines) rest

/-- The memory channel of a line that the scrub reads. -/
def State.scrubChannel (s : State) (r x c : Nat) : Nat := 2 * (if 256 ≤ r then r - 256 else s.pairOf r (extentOf x) c) + x / 64 % 2

/-- Region, offset and copy of a line number. -/
def State.scrubAt (s : State) (n : Nat) : List Nat → Nat × Nat × Nat
  | [] => s.scrubFree n s.pairsUp
  | r :: rest =>
    let lines := s.regionMib r * 16384
    if n < lines * s.copies r then (r, n % lines * 64, n / lines) else s.scrubAt (n - lines * s.copies r) rest

/-- PATROL_SCRUB (R279): the next line is read, unless another request waits for its channel; `errors` bits of a word of it are wrong. -/
def execPatrolScrub (errors : Fin 3) (s : State) : Out :=
  if s.memory.state < 2 ∨ bit (s.reg R.mem_MEM_CTRL).toNat 0 = false then .next s
  else
    let (r, x, c) := s.scrubAt s.memory.scrubLine s.regions
    let a := memBase + r * 2 ^ 36 + x
    let e := extentOf x
    let m := s.scrubChannel r x c
    if !(s.mchan m).queue.isEmpty || s.stalled m then .next s else
    let lone := s.memory.single.any fun y => y.region == r && y.extent == e
    let next := s.memory.scrubLine + 1
    let wrap := s.scrubLines ≤ next
    let s := s.modMemory fun y => { y with scrubLine := if wrap then 0 else next }
    let s := if wrap then s.count R.mem_SCRUB_PASSES else s
    if !(s.mchan m).serves || (lone && c != s.liveCopy r e) then .next s
    else if errors.val = 2 ∨ s.isPoisoned a c = true then
      let s := (s.poison a c).uncorrectable m r .sc
      let s := if s.regionDup r && !lone && !s.isPoisoned a (1 - c) then
          ((s.unpoison a c).log F.MEM_DUP_REPAIR R.mem (leBytes 1 r ++ leBytes 2 e)).event R.mem_EVENTS 32
        else if r = 0 then s.log F.MEM_SYSTEM_LOST R.mem (leBytes 2 e)
        else s
      if s.errorsGoOn m then .next (s.retirePair (m / 2) retireUncorr) else .next s
    else .next (if errors.val = 1 then s.corrected m else s)

/-! ## Registers (Tables 12-7 to 12-10) -/

/-- Code of a channel's STATE. -/
def MemChanState.code : MemChanState → Nat
  | .off => 0 | .training => 1 | .inService => 2 | .oldSettings => 3 | .retired => 4

/-- Bits of a list of pairs. -/
def pairBits (l : List Nat) : Nat := l.foldl (fun v p => v + 2 ^ p) 0

/-- MEM_STATUS. -/
def State.memStatus (s : State) : Word :=
  let up := if s.memory.state < 2 then [] else s.pairsUp
  let scrub := 2 ≤ s.memory.state && bit (s.reg R.mem_MEM_CTRL).toNat 0
  let hot := (List.range 16).any fun m => (s.mchan m).hot
  w32 (0x10000000 * s.memory.state + 0x10000 * pairBits up + 0x100 * pairBits s.memory.retired + 8 * b2n (!s.memory.remapping.isEmpty) +
    4 * b2n (!s.memory.single.isEmpty) + 2 * b2n scrub + b2n hot)

/-- CAPACITY_MIB. -/
def State.capacityMib (s : State) : Word := w32 (7168 * s.pairsUp.length)

/-- PLANNED_MIB. -/
def State.plannedMib (s : State) : Word := w32 (s.regions.map fun r => s.regionMib r * s.copies r).sum

/-- FREE_MIB. -/
def State.freeMib (s : State) : Word := w32 (2 * (s.pairsUp.map s.freeOn).sum)

/-- CH_STATUS. -/
def State.memChStatus (s : State) (m : Nat) : Word :=
  let x := s.mchan m
  w32 (0x10000000 * x.state.code + 0x8000000 * b2n x.hot + 0x4000000 * b2n (x.serves && !x.hot) + 0x2000000 * b2n (x.queue.any (·.panic)) +
    0x1000000 * b2n (x.queue.any fun r => r.urgent) + 0x100000 * x.owed + 0x20000 * x.mr4 + 0x4000 * (m / 2))

/-- CH_PANIC_US. -/
def State.chPanicUs (s : State) (m : Nat) : Word :=
  let x := s.mchan m
  w32 (min 0xFFFFFFFF ((x.panicNs + match x.panicSince with | some t => s.now - t | none => 0) / 1000))

/-- A read of CH_STALL_MAX or CH_QPEAK clears it. -/
def State.stallMaxRead (s : State) (m : Nat) : State :=
  let v := (s.mchan m).stallMax
  (s.modMchan m fun x => { x with stallMax := 0 }).answer (w32 v)
def State.qPeakRead (s : State) (m : Nat) : State :=
  let v := (s.mchan m).qPeak
  (s.modMchan m fun x => { x with qPeak := 0 }).answer (w32 v)

/-- REG_INFO and REG_SIZE_MIB of a region. -/
def State.regInfo (s : State) (r : Nat) : Word :=
  if s.regions.contains r then
    w32 (0x80000000 + 0x40000000 * b2n (s.regionDup r) + 0x20000000 * b2n (s.memory.single.any fun x => x.region == r) + 0x10000 * s.regionKind r)
  else 0
def State.regSize (s : State) (r : Nat) : Word := if s.regions.contains r then w32 (s.regionMib r) else 0
def State.regLost (s : State) (r : Nat) : Word := w32 (s.memory.lostMib.get (fun _ => 0) r)

end Sys2Proof.Machine
end

