-- ==== Sys2Proof/Machine/Rennet.lean ====
section
/-!
DEFINITION. What a rennet point does (R40, R52, R56, R66, R71, R75, R77, R79, R111, R411): the sections of the commits in GO take
effect, then their staged writes.
-/

namespace Sys2Proof.Machine

/-! ## What a commit changes -/

/-- The commit being applied and the configuration that it replaces. -/
structure Change where
  commit : Commit
  old    : List Section
  deriving DecidableEq, Repr

/-- The payload of a place in the old configuration. -/
def Change.was (x : Change) (type domain tile : Nat) : List Byte :=
  match findSection x.old type domain tile with
  | some y => y.payload
  | none => []

/-- The commit holds a section for the place; a FULL commit covers them all. -/
def Change.holds (x : Change) (type domain tile : Nat) : Bool :=
  x.commit.image.kind == 1 || x.commit.sections.any fun y => y.type == type && y.domain == domain && y.tile == tile

/-- Its payload in force differs from the old one. -/
def State.moved (s : State) (x : Change) (type domain tile : Nat) : Bool := s.payload type domain tile != x.was type domain tile

/-! ## D0 -/

/-- ASYM_NS of each instance takes the section's value (R71). -/
def State.installAsym (s : State) (p : List Byte) : State :=
  (List.range 6).foldl (fun s i => s.setReg (R.ptp_ASYM_NS i) (if i < le p 0 1 then w32 (le p (4 + 16 * i + 8) 4) else 0)) s

/-- PTP_PORTS, REF_IN and TIO_PLAN. -/
def State.applyTime (s : State) (x : Change) : State :=
  let s := if s.moved x 0x0102 0 1 then s.installPtpPorts (s.payload 0x0102 0 1)
    else if x.holds 0x0102 0 1 then s.installAsym (s.payload 0x0102 0 1) else s
  let s := if s.moved x 0x0103 0 6 then s.installRefIn (s.payload 0x0103 0 6) else s
  if s.moved x 0x0104 0 6 then s.installTioPlan x.commit.stamp (x.was 0x0104 0 6) (s.payload 0x0104 0 6) else s

/-- ENABLE of M0 and M1 (R357). -/
def State.applyMdp (s : State) (x : Change) : State :=
  [0, 1].foldl (fun s i =>
    let on (p : List Byte) : Bool := p.isEmpty || bit (le p (16 + 64 * i) 1) 0
    let was := on (x.was 0x0C01 0 4)
    let now := on (s.payload 0x0C01 0 4)
    if was = now then s else if now then s.adminOn (32 + i) else s.adminOff (32 + i)) s

/-- TRIM of POWER_POLICY moves the state between RUN and TRIM (R377). -/
def State.applyPower (s : State) (x : Change) : State :=
  let was := bit (le (x.was 0x0D01 0 5) 0 1) 0
  let now := bit (le (s.payload 0x0D01 0 5) 0 1) 0
  if now && (!was || x.commit.start) && s.hull.state == .run then s.powerState .trim
  else if was && !now && s.hull.state == .trim then (s.powerState .run).ungateCause 2
  else s

/-- Each processor whose code changes restarts from its other bank (R79). -/
def State.applyFirmware (s : State) (x : Change) : State :=
  x.commit.sections.foldl (fun s y =>
    match fwOf y.type with
    | some k => if s.swaps y then s.swapFirmware k y.payload else s
    | none => s) s

/-- INTERRUPT_PLAN and CHECK_PLAN replace what software has written since (R330, R335). -/
def State.applyControl (s : State) (x : Change) : State :=
  let s := if x.holds 0x0B03 0 2 && !x.commit.start then s.installInterruptPlan (s.payload 0x0B03 0 2) else s
  if x.holds 0x0B04 0 3 && !x.commit.start then s.installCheckPlan (s.payload 0x0B04 0 3) else s

/-! ## D1 -/

/-- LANE_SETTINGS in a configuration, or its default values. -/
def laneSettings (cfg : List Section) (g : Nat) : List Byte :=
  match findSection cfg 0x0202 1 g with
  | some x => x.payload
  | none => (List.range 8).flatMap fun _ => [0xFC, 52, 0xF8, 0, 48, 0, 0, 0]

def State.applyLanes (s : State) (x : Change) (link : Option Nat) : State :=
  let s := (List.range 4).foldl (fun s g =>
    let a := laneSettings x.old g
    let b := laneSettings s.config g
    if a = b then s else s.installLaneSettings g a b) s
  if (List.range 4).any fun g => s.moved x 0x0203 1 g then s.pairLinkMoved link else s

/-- Entries of a bank that feed a channel or a surface, without what they have counted. -/
def feeding (b : Sparse FtEntry) (kind target : Nat) : List FtEntry :=
  (b.filterMap fun e => if e.2.valid && e.2.kind == kind && e.2.target == target then some e.2 else none).map fun e =>
    { e with learned := none, pkts := 0, drops := 0 }

/-- Two lists hold the same entries. -/
def sameEntries (a b : List FtEntry) : Bool := a.all b.contains && b.all a.contains

/-- Surfaces that entries of a bank feed. -/
def fedSurfaces (b : Sparse FtEntry) : List Nat := (b.filterMap fun e => if e.2.valid && e.2.kind == 2 then some e.2.target else none).dedup

/-- The banks of the flow table swap (R111 to R113). -/
def State.applyFlowPlan (s : State) (t : Nat) : State :=
  if s.ft.rebuilt ≠ some t then s
  else
    let old := s.ft.bankOf s.ft.active
    let new := s.ft.bankOf (!s.ft.active)
    let s := s.modFt fun f => { f with active := !f.active, rebuilt := none, copying := true, bank0 := new, bank1 := new }
    let s := (s.log F.FT_SWAP R.ft (leBytes 4 t ++ leBytes 4 (bankEntries new))).event R.ft_EVENTS 8
    let s := (s.joinBank new).leaveUnneeded
    let s := (List.range 48).foldl (fun s c => if sameEntries (feeding old 1 c) (feeding new 1 c) then s else s.mediaChanged c) s
    (fedSurfaces old ++ fedSurfaces new).dedup.foldl (fun s n =>
      if sameEntries (feeding old 2 n) (feeding new 2 n) then s else s.surfaceChanged n) s

/-- The record of tile Ti of a channel is another one than in an old configuration. -/
def State.liveMoved (s : State) (old : List Section) (c i : Nat) : Bool := ({ s with config := old } : State).livePlan c i != s.livePlan c i

/-- LIVENESS_TILES: a tile whose record changes starts anew (R123). -/
def State.applyLiveness (s : State) (x : Change) : State :=
  if (List.range 4).any fun t => s.moved x 0x0303 1 (4 + t) then
    (List.range 48).foldl (fun s c => (List.range 4).foldl (fun s i => if s.liveMoved x.old c i then s.resetLive c i else s) s) s
  else s

/-- The records of every surface in a configuration. -/
def surfaceRecords (cfg : List Section) : List (Nat × Nat × List Byte) :=
  (sectionsOf cfg 0x0304).flatMap fun x => (records x.payload 2 32).map fun r => (le r 0 2, x.tile, r)

/-- The part of a surface record that decides where and how its slots lie (Table 5-8). -/
def slotPart (r : List Byte) : List Byte := (r.drop 4).take 19 ++ (r.drop 24).take 4

/-- SURFACE_PLAN: a surface whose record changes counts only frames that become ready from now on, and one whose geometry or
place changes starts empty (R124, R222). In a live FULL commit every surface starts empty. -/
def State.applySurfaces (s : State) (x : Change) : State :=
  let old := surfaceRecords x.old
  let new := surfaceRecords s.config
  let numbers := ((old ++ new).map (·.1)).dedup
  numbers.foldl (fun s n =>
    let a := old.find? fun e => e.1 == n
    let b := new.find? fun e => e.1 == n
    match a, b with
    | some (_, _, p), some (_, _, q) =>
      if x.commit.image.kind == 1 || slotPart p != slotPart q then s.setSurface n { planAt := s.now }
      else if a = b then s else s.modSurface n fun y => { y with planAt := s.now }
    | none, some _ => s.setSurface n { planAt := s.now }
    | _, none => s.setSurface n {}) s

/-! ## Channels, heads, audio and the recorder -/

/-- Sections of a channel that has changed take effect at once, or at its next frame start while it codes (R165, R188). -/
def State.applyChannels (s : State) (x : Change) : State :=
  (List.range 48).foldl (fun s c =>
    if [0x0401, 0x0402, 0x0403].any fun t => s.moved x t 4 (0x10 + c) then
      let on := bit (le (s.payload 0x0401 4 (0x10 + c)) 0 1) 0
      if s.channelCodes c && on then s.modChan c fun y => { y with waiting := true }
      else
        let s := s.channelSections c
        if s.chanOn c && s.heldDown (.channel c) then s.channelHarmless c (s.channelReason c).1 (s.channelReason c).2 else s
    else s) s

/-- Heads, scalers: each head stages its Latch-class values, starts, stops or changes its timing (R246 to R248). -/
def State.applyHeads (s : State) (x : Change) : State :=
  let stamp := x.commit.stamp
  let s := (List.range 16).foldl (fun s h =>
    s.headCommit h stamp (x.commit.sections.any fun y => (y.type == 0x0681 || y.type == 0x0682) && y.domain == 5 + h / 8 &&
      (y.tile == h % 8 || (y.type == 0x0682 && y.tile == h % 8 / 4 * 4)))) s
  (List.range 32).foldl (fun s c => s.scalerCommit c) s

/-- CAPTURE_GROUPS, SLOT_MASKS, PDM_CLOCKS, RECORDER_PLAN and HOLDS. -/
def State.applyAudio (s : State) (x : Change) : State :=
  let s := if s.moved x 0x0701 7 0 || s.moved x 0x0702 7 0 then s.audioWait else s
  let s := if s.moved x 0x0703 7 0 then s.installPdm (x.was 0x0703 7 0) else s
  let s := if s.moved x 0x0901 7 1 then s.recorderPlan else s
  if s.moved x 0x0902 7 1 then s.applyHolds else s

/-! ## Tiles -/

/-- A tile that has ripened exchanges its planes and joins service (R52, R56); a coder that has failed meanwhile stays failed (R71). A
tile that the commit's role gates does not join. -/
def State.tileJoins (s : State) (c : Commit) (x : Nat × Nat) : State :=
  if c.image.kind = 1 ∧ roleGates c.image.role x.1 x.2 = true then s
  else
    let s := (s.modTile (tileNo x.1 x.2) fun y => { y with state := .inService, plane := !y.plane }).clearTileCounts x.1 x.2
    let moded := c.image.kind = 1 ∨ c.sections.any fun y => y.type == 0x0201 && y.domain == 1 && y.tile == (if x.1 = 1 ∧ 4 ≤ x.2 then x.2 - 4 else x.2)
    match coderOf x.1 x.2 with
    | some k =>
      let p := s.payload 0x0404 x.1 x.2
      s.modCoder k fun y => { y with state := if y.state = .failed then .failed else .ripe, content := p, plane := !y.plane, fenced := false }
    | none =>
      if x.1 = 1 ∧ x.2 < 4 then s.groupJoin x.2
      else if moded then s
      else s.groupBack x.1 x.2

/-- The tiles of a role: those that it gates are gated (R374). -/
def State.gateRole (s : State) (role : Nat) : State :=
  allTiles.foldl (fun s x => if roleGates role x.1 x.2 && (s.tile (tileNo x.1 x.2)).state != .gated then s.gate x.1 x.2 1 else s) s

/-- A live FULL commit: its role, the tiles of that role, and every output starts (R9, R75). -/
def State.applyFull (s : State) (c : Commit) : State :=
  let s := s.modIm fun im => { im with role := some c.image.role }
  (s.gateRole c.image.role).startOutputs c.stamp

/-- The output gate opens with ticket 0 (R411, R412). -/
def State.openGate (s : State) (c : Commit) : State :=
  let s := s.modIm fun im => { im with role := im.bootRole }
  let gate := (s.now - s.clock.phase2.getD s.now) / ms 1
  let s := s.modStartup fun x =>
    { x with gateOpen := true, gateMs := gate, gateStamp := c.stamp, phase := 9, phaseAt := s.now, phase10At := s.now + s.slowestPeriod }
  let s := s.log F.START_GATE_OPEN R.start (leBytes 4 gate ++ leBytes 8 s.im.configId.toNat)
  let s := s.mapTio fun _ p => { p with lastEdge := c.stamp - 1 }
  let s := (List.range 8).foldl (fun s n => if s.isTioOutput n then s.modTioPin n fun p => { p with lastEdge := c.stamp - 1 } else s) s
  (List.range 16).foldl (fun s h => s.headCommit h c.stamp false) ((List.range 48).foldl (fun s n => s.startChannel n) s)

/-- The roll begins: the coders that have loaded the new plane exchange their planes, and its first step is taken (R52, R77). -/
def State.beginRoll (s : State) (c : Commit) : State :=
  let s : State := { s with roll := { active := true, ticket := c.ticket, gap := c.rollGap, lastStep := c.stamp, sections := c.sections } }
  let s := (c.sections.filterMap fun x => coderOf x.domain x.tile).foldl (fun s k => s.exchangePlanes k) s
  (s.rollWaits.rollStep c.stamp).rollDoneCheck

/-! ## The rennet point -/

/-- The sections of a commit take effect. -/
def State.applySections2 (s : State) (c : Commit) : State :=
  let x : Change := { commit := c, old := s.config }
  let link := s.pairPort
  let s := s.modIm fun im => { im with configId := nextConfigId im.configId c,
                                       runRollback := if c.slot.isSome then w32 c.image.rollback else im.runRollback }
  let s : State := { s with config := if c.start || c.slot.isNone then s.config else projectOne s.config c }
  let s := (s.applyTime x).applyControl x
  let s := ((s.applyMdp x).applyLanes x link).applyFlowPlan c.ticket
  let s := if c.image.kind = 1 then s.modIm fun im => { im with role := some c.image.role } else s
  let s := c.ripens.foldl (fun s t => s.tileJoins c t) s
  let s := (s.applyLiveness x).applySurfaces x
  let s := if c.image.kind = 1 then s.applyFull c else if c.start then s.openGate c else (s.applyChannels x).applyHeads x
  let s := s.applyAudio x
  let s := (s.applyFirmware x).applyPower x
  if s.hull.state = .trim then s.gateUnused else s

/-- One commit applies: its sections, then its staged writes in order (R67, R71). -/
def State.applyCommit (s : State) (c : Commit) : State :=
  let s := s.modCommits fun m => { m with live := m.live.filter fun x => x.ticket != c.ticket }
  let s := s.applySections2 c
  let s := c.staged.foldl (fun s w => s.setReg w.addr w.value) s
  let s := ((s.setTicket c.ticket .applied).count R.im_APPLIED).event R.im_EVENTS 4
  let s := s.log F.IMG_APPLIED R.im (leBytes 4 c.ticket ++ leBytes 8 s.im.configId.toNat)
  let s := if c.roll then s.beginRoll c else s
  s.grantWaiting.spareCheck.pairReadyCheck

/-- RENNET_POINT (R39, R40, R71): the commits in GO at the stamp apply in issue order. -/
def execRennetPoint (stamp : Stamp) (s : State) : Out :=
  if s.reached stamp then
    .next ((s.commits.live.filter fun c => c.stamp == stamp && c.state == .go).foldl (fun s c => s.applyCommit c) s)
  else .next s

end Sys2Proof.Machine
end

