-- ==== Sys2Proof/Machine/Startup.lean ====
section
/-!
DEFINITION. Resets by the pin and by host software, and start-up from a reset to the ports (chapter "Start-up and register map",
R403 to R412, R432).
-/

namespace Sys2Proof.Machine

/-! ## RST_n (R405) -/

/-- RST_N_TRANSITION (R405): the pin's level; a low shorter than 10 us is ignored and counted. -/
def execRstNTransition (high : Bool) (s : State) : Out :=
  let x := s.startup
  if high = x.pinHigh then .next s
  else
    let glitch := high && !x.pinHeld && decide (s.now < x.pinSince + us 10)
    let s := s.modStartup fun y => { y with pinHigh := high, pinSince := s.now }
    if glitch ∧ s.running then
      let s := s.count R.rst_RST_GLITCHES
      .next (s.logRated F.RST_GLITCH 0 R.rst 0 (fun _ => leBytes 4 (s.reg R.rst_RST_GLITCHES).toNat) false)
    else .next s

/-- RST_PIN_QUALIFY (R405): 10 us of low are a PIN reset in every power state. D0 to D7 are held in reset, the rails are removed,
and a latched OFF ends (R366, R376). -/
def execRstPinQualify (s : State) : Out :=
  let x := s.startup
  if s.hull.running ∧ x.pinHigh = false ∧ x.pinHeld = false ∧ s.due (x.pinSince + us 10) then
    let s := s.modHull fun h => { h with latchedOff := false, wakeAt := none, attempts := 0, retryAt := none }
    .next ((s.interruptBootWrite.resetDevice .pin 0).modStartup fun y => { y with pinHeld := true })
  else .next s

/-- RST_PIN_RELEASE (R405): RST_n has been high for 10 ms and the rails start. -/
def execRstPinRelease (s : State) : Out :=
  let x := s.startup
  if x.pinHigh ∧ x.pinHeld ∧ s.due (x.pinSince + ms 10) then
    .next (s.modStartup fun y => { y with pinHeld := false }).startRails
  else .next s

/-! ## Phase 2 (R404, R410) -/

/-- An entry of the hull log goes into the ledger under its class (R363, R370). -/
def State.copyHullEntry (s : State) (e : HullEntry) : State :=
  let s := s.log ⟨e.cls, e.sev⟩ R.hull e.data
  if e.cls = F.HULL_RESET_PRIOR.code ∧ e.micros < 3000 then
    s.log F.HULL_HOLDUP_SHORT R.hull (leBytes 4 e.micros ++ leBytes 4 s.holdupUf)
  else s

/-- The hull log is copied and cleared (R363). -/
def State.copyHullLog (s : State) : State :=
  let s := s.hull.log.foldl (fun s e => s.copyHullEntry e) s
  let s := if s.hull.logLost = 0 then s else s.log F.HULL_LOG_LOST R.hull (leBytes 4 s.hull.logLost)
  s.modHull fun h => { h with log := [], logLost := 0 }

/-- D0 leaves reset (R410 phase 2, R432): the raster counts provisionally, the hull log is copied, START_RESET is logged, the
recorder recovers its open wheel, and the channels of frame memory begin to train. A supply warning that stands already acts
as a new one (R367). -/
def State.releaseD0 (s : State) : State :=
  let s := s.modStartup fun y => { y with phase := 2, phaseAt := s.now }
  let s := (s.modClock fun c => { c with phase2 := some s.now, provTicks := 0, provAt := s.now }).modHull fun h => { h with linkOk := true }
  let s := s.copyHullLog
  let s := s.log F.START_RESET R.rst (leBytes 1 (2 ^ resetBit s.startup.kind) ++ leBytes 4 s.startup.prevUptime)
  let s := s.modTile (tileNo 7 1) fun x => { x with state := .inService }
  let s := s.recorderRecover
  let s := (List.range 16).foldl (fun s m => s.modMchan m fun x => { x with state := .training }) (s.modMemory fun x => { x with state := 1 })
  if s.hull.sag then (s.modHull fun h => { h with sagAt := s.now }).warningBegins else s

/-- START_D0_RELEASE (R410): every rail is good and nothing holds D0 in reset. -/
def execStartD0Release (s : State) : Out :=
  if s.startup.phase = 1 ∧ s.hull.rails = 10 ∧ s.hull.running ∧ s.startup.pinHeld = false ∧ s.hull.resetOn = false then .next s.releaseD0
  else .next s

/-! ## HOST reset (R406) -/

/-- HOST_RESET (R406): only a session's confirmed write counts. Every output goes to the harmless state of device-safe, which is
not entered, and the recorder seals. -/
def execHostReset (agent : Agent) (confirm : BitVec 16) (s : State) : Out :=
  match agent with
  | .session i =>
    if s.running ∧ confirmed confirm = true ∧ s.startup.hostAt = none then
      let s := s.modStartup fun y => { y with hostAt := some s.now }
      let s := s.log F.RST_HOST R.rst (leBytes 4 (s.session i.val).id.toNat)
      .next ((s.allHarmless 2 F.RST_HOST.code).sealWheel sealDemand)
    else .next s
  | _ => .next s

/-- HOST_RESET_ENTER (R406): 2 ms after the write D0 to D7 enter reset; the rails stay up and start-up begins at phase 2. -/
def execHostResetEnter (s : State) : Out :=
  match s.startup.hostAt with
  | some t => if s.due (t + ms 2) then .next (s.interruptBootWrite.resetDevice .host 10).releaseD0 else .next s
  | none => .next s

/-! ## Phases 3 and 4 (R408, R409) -/

/-- M0 or M1 takes its ENABLE; without MDP_SETTINGS it is enabled (R340). -/
def State.startManagement (s : State) : State :=
  let p := s.payload 0x0C01 0 4
  [0, 1].foldl (fun s i => if p.isEmpty || bit (le p (16 + 64 * i) 1) 0 then s.adminOn (32 + i) else s.adminOff (32 + i)) s

/-- No bank yields a running image (R409): the tending cores are PARKED, every tile of D1 to D7 but the recorder is gated, and the
management ports run with their defaults. -/
def State.enterNoImage (s : State) : State :=
  let s := (s.modStartup fun x => { x with noImage := true }).modIm fun im =>
    { im with fwTc := {}, fwSp := {}, bootRole := none, configId := 0, runRollback := 0 }
  let s := s.log F.START_NO_IMAGE R.start (leBytes 1 s.im.bankA.state.code ++ leBytes 1 s.im.bankB.state.code)
  let s := (List.range 4).foldl (fun s n => s.modTc n fun p => { p with state := .parked, alive := false, halted := false }) s
  let s := allTiles.foldl (fun s x => if x = (7, 1) then s else s.gate x.1 x.2 3) s
  s.startManagement

/-- Start-up goes on from a valid image: phase 4 (R408 step 3). CONFIG_ID and RUN_ROLLBACK are the boot image's (R65, R66). -/
def State.startFrom (s : State) (b : Bool) (image : Image) : State :=
  let s := s.modIm fun im =>
    { im with startedFrom := b, configId := BitVec.ofNat 64 (le image.digest 0 8), runRollback := w32 image.rollback,
              bootRole := some image.role, fwTc := {}, fwSp := {} }
  s.modStartup fun x => { x with phase := 4, phaseAt := s.now, fallback := b != s.im.preferred }

/-- One bank is loaded and validated; on a failure it has been tried (R408 step 2). -/
def State.tryBank (s : State) (b : Bool) : State :=
  match s.checkImage (s.bank b).bytes with
  | none => s.startFrom b (imageOf (s.bank b).bytes)
  | some (c, _) =>
    let s := s.modBankState b fun x => { x with state := if x.state = .empty then .empty else .invalid }
    let s := s.log F.START_BANK_FAIL R.start (leBytes 1 (b2n b) ++ leBytes 2 c.code)
    s.modStartup fun x => { x with triedA := x.triedA || !b, triedB := x.triedB || b }

/-- A bank has been tried since the reset. -/
def State.tried (s : State) (b : Bool) : Bool := if b then s.startup.triedB else s.startup.triedA

/-- BOOT_BANK_SELECT (R408): after training the preferred bank, then the other one, is loaded and validated. -/
def execBootBankSelect (s : State) : Out :=
  if s.startup.phase = 3 ∧ 2 ≤ s.memory.state ∧ s.startup.noImage = false then
    let p := s.im.preferred
    let s := if s.tried p then s else s.tryBank p
    let s := if s.startup.phase = 4 || s.tried (!p) then s else s.tryBank (!p)
    .next (if s.startup.phase = 4 then s else s.enterNoImage)
  else .next s

/-- The image that start-up runs. -/
def State.bootImage (s : State) : Image := imageOf (s.bank s.im.startedFrom).bytes

/-- A processor kind loads its code from the boot image and must report ALIVE (R410 phase 4, R81). -/
def State.loadFirmware (s : State) (k type : Nat) : State :=
  match s.bootImage.sections.find? fun x => x.type == type with
  | some x => (s.modFw k fun _ => { running := x.payload, aliveBy := some (s.now + aliveLimit k) }).restartKind k
  | none => s

/-- START_FIRMWARE (R410 phase 4): the tending cores and the safety pair start from the image; the hull controller's firmware is
swapped when the image's differs. -/
def execStartFirmware (s : State) : Out :=
  if s.startup.phase = 4 ∧ s.im.fwTc.running = [] then
    let s := (s.loadFirmware 0 0x0B01).loadFirmware 1 0x0B02
    .next (match s.bootImage.sections.find? fun x => x.type == 0x0D02 with
      | some x => if s.swaps x then s.swapFirmware 2 x.payload else s
      | none => s)
  else .next s

/-! ## Phase 5 (R410, R432) -/

/-- Every section of the boot image becomes the value in force. -/
def State.installAll (s : State) : State :=
  let s := s.modClock fun c => { c with provTicks := s.provisional, provAt := s.now }
  let s : State := { s with config := s.bootImage.sections.filter fun x => x.type != 0x0A01 }
  let s := (s.installPtpPorts (s.payload 0x0102 0 1)).installRefIn (s.payload 0x0103 0 6)
  let s := s.installTioPlan s.stamp [] (s.payload 0x0104 0 6)
  let s := (s.installInterruptPlan (s.payload 0x0B03 0 2)).installCheckPlan (s.payload 0x0B04 0 3)
  let s := ((s.installPair).installFlowPlan (s.payload 0x0301 1 8)).startManagement
  let s := (s.audioStart.installPdm []).recorderPlan.applyHolds
  (List.range 48).foldl (fun s c => if s.hasSection 0x0401 4 (0x10 + c) then s.applySections c else s) s

/-- A tile leaves reset with the boot image's plane: the role gates it at once, or it ripens (R432). -/
def State.leaveReset (s : State) (role : Nat) (x : Nat × Nat) : State :=
  if x = (7, 1) then s
  else if roleGates role x.1 x.2 then s.gate x.1 x.2 1
  else match coderOf x.1 x.2 with
    | some k => s.ripenCoder k
    | none => s.modTile (tileNo x.1 x.2) fun y => { y with state := .ripening, ripeFrom := s.now }

/-- START_INSTALL (R410 phase 5, R432): every processor has reported ALIVE, the sections are installed and the tiles ripen. -/
def execStartInstall (s : State) : Out :=
  if s.startup.phase = 4 ∧ s.im.fwTc.running ≠ [] ∧ s.im.fwTc.aliveBy = none ∧ s.im.fwSp.aliveBy = none ∧ s.im.fwHull.aliveBy = none then
    let s := s.modStartup fun x => { x with phase := 5, phaseAt := s.now }
    let s := s.installAll
    .next (allTiles.foldl (fun s x => s.leaveReset (s.im.bootRole.getD 0) x) s)
  else .next s

/-! ## Phases 6 to 8 (R410) -/

/-- No tile ripens. -/
def State.nothingRipens (s : State) : Bool := allTiles.all fun x => (s.tile (tileNo x.1 x.2)).state != .ripening

/-- START_PORTS (R410 phase 6, R432): every tile has ripened or failed, and the port groups are brought up. The servo may have
reached ACQUIRE over a management port before. -/
def execStartPorts (s : State) : Out :=
  if s.startup.phase = 5 ∧ s.nothingRipens then
    let p := if s.clock.seeded then 8 else if s.servo.state = .acquire then 7 else 6
    let s := s.modStartup fun x => { x with phase := p, phaseAt := s.now }
    .next ((List.range 32).foldl (fun s p => s.tryAttempt p) s)
  else .next s

/-- START_SLOW (R410): 120 s in one of phases 6 to 8. -/
def execStartSlow (s : State) : Out :=
  let x := s.startup
  if 6 ≤ x.phase ∧ x.phase ≤ 8 ∧ x.slow = false ∧ s.due (x.phaseAt + sec 120) then
    let s := s.modStartup fun y => { y with slow := true }
    .next (s.log F.START_SLOW R.start (leBytes 1 x.phase ++ leBytes 1 (servoCode s.servo.state)))
  else .next s

/-! ## Registers (Table 18-5) -/

/-- PHASE as START_STATUS shows it: phase 10 follows phase 9 by one frame period of the slowest output at the gate's
opening. -/
def State.phaseNo (s : State) : Nat :=
  let x := s.startup
  if x.phase = 9 ∧ s.due x.phase10At then 10 else x.phase

/-- START_STATUS. -/
def State.startStatus (s : State) : Word :=
  let x := s.startup
  w32 (0x10000000 * s.phaseNo + 0x8000000 * b2n x.gateOpen + 0x4000000 * b2n x.noImage + 0x2000000 * b2n x.fallback + 0x1000000 * b2n x.slow)

/-- PHASE_MS: the time in phase 9 ends with it. -/
def State.phaseMs (s : State) : Word :=
  let t := (if s.phaseNo = 10 then s.startup.phase10At else s.now) - s.startup.phaseAt
  w32 (min 0xFFFFFFFF (t / ms 1))

/-- RST_CAUSE. -/
def State.rstCause (s : State) : Word := w32 (2 ^ resetBit s.startup.kind)

/-- DOM_ENTRIES: entries delivered since phase 2 whose CTRL lies in the domain. -/
def State.domEntries (s : State) (d : Nat) : Word := s.reg (R.dom_DOM_ENTRIES d)

end Sys2Proof.Machine
end

