-- ==== Sys2Proof/Machine/RegRead.lean ====
section
/-!
DEFINITION. What a register read returns and changes (R4 to R6, R15, R48, R413): one definition for each group of layouts of
Table 18-4. A register that no arm names holds a value of its own; a register that is only written reads 0.
-/

namespace Sys2Proof.Machine

/-- The state that a meaning answers; a stop would leave the state as it is. -/
def doing (f : State → Out) (s : State) : State :=
  match f s with
  | .next t => t
  | _ => s

/-- Halves of a 64-bit value. -/
def lo32 (v : Nat) : Word := w32 v
def hi32 (v : Nat) : Word := w32 (v / 0x100000000)

/-- A number as a 32-bit register shows it, saturating. -/
def sat32 (v : Nat) : Word := w32 (min 0xFFFFFFFF v)

/-- A read of a _LO register: the low half is returned and the high half is latched for the reader at `hi` (R48). -/
def State.readLo (s : State) (g : Agent) (hi v : Nat) : State × Word := (s.setLatch g hi (hi32 v), lo32 v)

/-- A read that has an effect of its own, made through the meaning of its row. -/
def State.readBy (s : State) (f : State → State) : State × Word :=
  let t := f s
  (t, t.readValue)

/-! ## Time, pins and images (Tables 2-10 to 2-16, 3-12) -/

/-- Time block. -/
def State.viewTime (s : State) (g : Agent) (a off : Nat) : Word :=
  match off with
  | 0x004 => s.latch g a
  | 0x008 => s.modeReg
  | 0x00C => s.servoReg
  | 0x010 => w32i s.servo.filtered
  | 0x014 => w32i s.servo.freqAdj
  | 0x018 => w32i s.servo.reference
  | 0x01C => s.holdS
  | _ => s.reg a

/-- Rennet block. -/
def State.viewRennet (s : State) (a off : Nat) : Word :=
  match off with
  | 0x000 => w32 s.pendingStamps.length
  | 0x004 => lo32 s.nextStamp.toNat
  | 0x008 => hi32 s.nextStamp.toNat
  | 0x00C => w32 s.minLead
  | _ => s.reg a

/-- PTP instance block. -/
def State.viewPtp (s : State) (g : Agent) (a off i : Nat) : Word :=
  match off with
  | 0x000 => s.ptpCfg i
  | 0x004 => s.ptpStatus i
  | 0x008 => if (s.inst i).history.isEmpty then 0 else w32i (Config.offsetFilter (s.inst i).history)
  | 0x00C => w32i (s.inst i).mpd
  | 0x010 => s.stagedRead g a
  | 0x014 => lo32 (s.ptpGm i).toNat
  | 0x018 => hi32 (s.ptpGm i).toNat
  | _ => s.reg a

/-- REF_IN block. -/
def State.viewRef (s : State) (a off : Nat) : Word :=
  match off with
  | 0x000 => s.refStatus
  | 0x004 => w32i s.refIn.err
  | _ => s.reg a

/-- TIO block. -/
def State.viewTio (s : State) (g : Agent) (a off n : Nat) : Word :=
  match off with
  | 0x000 => s.tioCfg n
  | 0x004 => s.tioStatus n
  | 0x010 | 0x014 | 0x01C => s.latch g a
  | _ => s.reg a

/-- Image manager block; the CMT_ registers are each session's own (R83). -/
def State.viewIm (s : State) (g : Agent) (a off : Nat) : Word :=
  match off with
  | 0x000 => lo32 s.im.configId.toNat
  | 0x004 => hi32 s.im.configId.toNat
  | 0x008 => s.im.lineage
  | 0x00C => s.im.floor
  | 0x010 => s.im.runRollback
  | 0x018 => s.imState
  | 0x020 => s.slotReg 0
  | 0x024 => s.slotReg 1
  | 0x030 | 0x034 | 0x038 | 0x03C | 0x040 | 0x048 => s.latch g a
  | 0x04C => s.ticketReg (s.latch g R.im_CMT_TICKET).toNat
  | 0x058 => s.ticketReg (s.reg R.im_QUERY).toNat
  | 0x060 => s.rollReg
  | 0x064 => s.fwReg
  | 0x070 => s.bootReg
  | _ => s.reg a

/-! ## Ports and ingress (Tables 4-6, 5-10) -/

/-- Lane block. -/
def State.viewLane (s : State) (a off l : Nat) : Word :=
  match off with
  | 0x000 => s.laneStatus l
  | 0x008 => s.tapsReg l
  | 0x00C => s.laneCtrlReg l
  | 0x010 => s.prbsErr l
  | _ => s.reg a

/-- Group and port blocks. -/
def State.viewGroup (s : State) (a off n : Nat) : Word :=
  match off with
  | 0x000 => s.groupCfg n
  | 0x004 => s.groupStatus n
  | _ => s.reg a
def State.viewPort (s : State) (a off p : Nat) : Word :=
  match off with
  | 0x000 => s.portStatus p
  | 0x004 => w32 (b2n (s.port p).admin)
  | _ => s.reg a

/-- Optics block. -/
def State.viewOptics (s : State) (a off b : Nat) : Word :=
  match off with
  | 0x000 => s.optStatus b
  | 0x00C => (s.optic b).result
  | 0x010 => (s.optic b).temp.zeroExtend 32
  | 0x014 => (s.optic b).rxPower.zeroExtend 32
  | _ => s.reg a

/-- Flow-table block: FT_INDEX, FT_RESULT, FT_PKTS, FT_DROPS and the window are the agent's own (R130). -/
def State.viewFlow (s : State) (g : Agent) (a off : Nat) : Word :=
  if off = 0x000 then s.ftStatus
  else if off = 0x008 ∨ off = 0x010 ∨ off = 0x014 ∨ off = 0x018 ∨ (0x040 ≤ off ∧ off ≤ 0x07C) then s.latch g a
  else s.reg a

/-- Ingress channel block, live only in its channel's ingress tile (R130). -/
def State.viewChIn (s : State) (a off n : Nat) : Word :=
  let c := n % 48
  if s.chanTile c ≠ n / 48 then resetOf a
  else match off with
    | 0x000 => s.chStatus c
    | 0x010 => s.chTileAge c
    | _ => s.reg a

/-- Surface block: it shows the surface that the agent has selected. -/
def State.viewSurface (s : State) (g : Agent) (a off t : Nat) : Word :=
  let x : Surface := match s.selSurface g t with
    | some n => s.surface n
    | none => {}
  match off with
  | 0x000 => s.latch g a
  | 0x004 => s.surfState g t
  | 0x008 => w32 (x.ready.getD 0)
  | 0x00C => sat32 x.voids
  | 0x010 => sat32 x.late
  | _ => s.reg a

/-! ## Coders, egress, sparing (Tables 7-10, 7-12, 8-11) -/

/-- Coder block. -/
def State.viewCoder (s : State) (a off k : Nat) : Word :=
  match off with
  | 0x000 => s.coderStatus k
  | 0x004 => w32 (s.coder k).fifoPeak
  | 0x014 => selfTest (s.coder k)
  | _ => s.reg a

/-- Egress tile block. -/
def State.viewEgress (s : State) (a off e : Nat) : Word :=
  if off = 0x000 then s.egStatus e
  else if 0x020 ≤ off ∧ off ≤ 0x03C then sat32 (s.qBound (8 * e + (off - 0x020) / 4))
  else s.reg a

/-- Egress channel block, live only in the egress tile of the channel's path A (R190). -/
def State.viewCc (s : State) (g : Agent) (a off n : Nat) : Word :=
  let c := n % 48
  let x := s.chan c
  if s.chanField c 40 1 / 8 ≠ n / 48 ∨ x.plan.isEmpty then resetOf a
  else match off with
    | 0x000 => s.ccStatus c
    | 0x004 => w32 x.n
    | 0x028 => lo32 x.bytes
    | 0x02C | 0x03C => s.latch g a
    | 0x030 => w32 x.bank
    | 0x034 => w32 (s.pressPlan c).floorKbps
    | 0x038 => sat32 x.latMax
    | 0x040 => w32 (x.qCount.get (fun _ => 0) ((s.latch g (a - 4)).toNat % 16))
    | _ => s.reg a

/-- Path block. -/
def State.viewPath (s : State) (a off n : Nat) : Word :=
  match off with
  | 0x000 => s.paStatus (n / 48) (n % 48)
  | _ => s.reg a

/-- Brine store block. -/
def State.viewBrine (s : State) (a off : Nat) : Word :=
  match off with
  | 0x000 => s.brineStatus
  | 0x004 => coderBits s.ripeSpares 0
  | 0x008 => coderBits s.ripeSpares 32
  | 0x00C => coderBits s.failedCoders 0
  | 0x010 => coderBits s.failedCoders 32
  | _ => s.reg a

/-- Pair block. -/
def State.viewPair (s : State) (a off : Nat) : Word :=
  match off with
  | 0x000 => s.pairStatus
  | 0x004 => w32 s.pair.term
  | 0x008 => s.peerAge
  | _ => s.reg a

/-- Rind block. -/
def State.viewRind (s : State) (a off c : Nat) : Word :=
  match off with
  | 0x000 => s.rindStatus c
  | 0x004 => s.takeLineReg c
  | 0x008 => w32 (s.takeOf c).2
  | _ => s.reg a

/-! ## Wall, audio, memory, recorder (Tables 9-9, 10-8, 11-8, 12-7, 13-6) -/

/-- Surface reader and scaler blocks. -/
def State.viewReader (s : State) (a off r : Nat) : Word :=
  match off with
  | 0x000 => (s.readerRegs r).1
  | 0x004 => (s.readerRegs r).2.1
  | 0x008 => (s.readerRegs r).2.2
  | _ => s.reg a
def State.viewScaler (s : State) (a off c : Nat) : Word :=
  match off with
  | 0x000 => (s.scalerRegs c).1
  | 0x004 => (s.scalerRegs c).2.1
  | 0x008 => (s.scalerRegs c).2.2
  | _ => s.reg a

/-- Head block. -/
def State.viewHead (s : State) (g : Agent) (a off h : Nat) : Word :=
  let x := s.head h
  match off with
  | 0x000 => s.headStatus h
  | 0x004 => w32 x.frame
  | 0x008 => w32 x.line
  | 0x00C => w32 x.latchTarget
  | 0x018 => w32 x.bufLow
  | 0x034 => lo32 x.signature
  | 0x038 => s.latch g a
  | _ => s.reg a

/-- Audio block; the group and PEAK registers lie in arrays. -/
def State.viewAudio (s : State) (a off : Nat) : Word :=
  let gr := s.group ((off - 0x040) / 32)
  match off with
  | 0x000 => s.auStatus
  | 0x004 => s.clockReg 0
  | 0x008 => s.clockReg 1
  | 0x024 => s.stuckReg
  | 0x040 => s.grpStatus 0
  | 0x060 => s.grpStatus 1
  | 0x044 | 0x064 => w32 gr.held
  | 0x048 | 0x068 => w32 gr.invalid
  | 0x04C | 0x06C => w32 gr.frame
  | _ => if 0x080 ≤ off ∧ off ≤ 0x0BC then w32 (s.mic ((off - 0x080) / 4)).peak else s.reg a

/-- Memory controller block. -/
def State.viewMemory (s : State) (a off : Nat) : Word :=
  match off with
  | 0x000 => s.memStatus
  | 0x004 => s.capacityMib
  | 0x008 => s.plannedMib
  | 0x00C => s.freeMib
  | _ => s.reg a

/-- Memory channel block. -/
def State.viewMemChan (s : State) (a off m : Nat) : Word :=
  match off with
  | 0x000 => s.memChStatus m
  | 0x010 => w32 (s.mchan m).stallMax
  | 0x018 => s.chPanicUs m
  | 0x024 => (s.mchan m).margin.zeroExtend 32
  | 0x028 => w32 (s.mchan m).qPeak
  | _ => s.reg a

/-- Region block: it shows the region that the agent has selected. -/
def State.viewRegion (s : State) (g : Agent) (a off : Nat) : Word :=
  let r := (s.latch g R.reg_REG_SEL).toNat % 256
  match off with
  | 0x000 => s.latch g a
  | 0x004 => s.regInfo r
  | 0x008 => s.regSize r
  | 0x00C => s.regLost r
  | _ => s.reg a

/-- Recorder block; the EXPORT_ registers are each session's own, and so are TAP_SEL and the latches. -/
def State.viewRecorder (s : State) (g : Agent) (a off : Nat) : Word :=
  let tap := s.tap ((s.latch g R.rec_TAP_SEL).toNat % 64)
  match off with
  | 0x000 => s.recStatus
  | 0x004 => lo32 s.openNumber
  | 0x00C => lo32 s.oldestNumber
  | 0x008 | 0x010 | 0x034 | 0x038 | 0x050 | 0x070 => s.latch g a
  | 0x014 => s.slotsWord
  | 0x018 => let p := s.plannedRate s.roleNo s.recPlan
             w32 (p.1 / p.2)
  | 0x01C => s.rateNowWord
  | 0x020 => w32 s.backlog
  | 0x030 => s.recorder.verifyResult
  | 0x03C => s.exportStatus g
  | 0x074 => sat32 tap.pkts
  | 0x078 => sat32 tap.limited
  | _ => s.reg a

/-! ## Cores, hub and check units (Tables 14-11, 14-13) -/

/-- Core and safety-pair blocks. -/
def State.viewCore (s : State) (a off n : Nat) : Word :=
  match off with
  | 0x000 => s.coreStatus n
  | 0x014 => s.sramCorr n
  | _ => s.reg a
def State.viewSp (s : State) (a off : Nat) : Word := if off = 0x000 then s.spStatus else s.reg a

/-- Source block: SRC_CFGs from offset 0, SRC_CNTs from 0x800. Offset 0 reads 0. -/
def State.viewSource (s : State) (off : Nat) : Word :=
  let n := off % 0x800 / 4
  if n = 0 then 0 else if off < 0x800 then srcCfg (s.source n) else srcCnt (s.source n)

/-- Code of a target's state (Table 14-3). -/
def CoreState.code : CoreState → Nat
  | .active => 0 | .sleep => 1 | .parked => 2 | .restarting => 3

/-- Target block. -/
def State.viewTarget (s : State) (a off t : Nat) : Word :=
  match off with
  | 0x000 => w32 (s.threshold t)
  | 0x00C => w32 (s.topSource t)
  | 0x010 => w32 (256 * b2n (s.topSource t != 0) + (s.targetState t).code)
  | _ => s.reg a

/-- Timer block; RT_CMP_LO is the agent's own (R331). -/
def State.viewTimer (s : State) (g : Agent) (a off n : Nat) : Word :=
  let x := s.timer n
  match off with
  | 0x000 => s.latch g a
  | 0x010 => w32 (4 * b2n x.seededCancel + 2 * b2n x.late + b2n x.armed.isSome)
  | _ => s.reg a

/-- Check channel block. -/
def State.viewCheck (s : State) (a off n : Nat) : Word :=
  let x := s.check n
  match off with
  | 0x000 => chkCfg x
  | 0x014 => w32 x.result
  | 0x018 => chkStatus x
  | 0x01C => w32 x.shown
  | _ => s.reg a

/-! ## Management (Table 15-12) -/

/-- The module is UNOWNED: no owner slot is present (R354). -/
def State.unowned (s : State) : Bool := (List.range 4).all fun n => !(s.slot n).present

/-- Open sessions. -/
def State.openSessions (s : State) : Nat := ((List.range 8).filter fun i => (s.session i).present).length

/-- MDP_STATUS. -/
def State.mdpStatus (s : State) : Word :=
  let own := if !s.unowned then 1 else if s.mdp.enrolLocked then 2 else 0
  w32 (0x40000000 * own + 0x10000 * s.openSessions + 0x100 * min 255 s.mdp.enrolFails +
    2 * b2n ((s.port 33).state == .up) + b2n ((s.port 32).state == .up))

/-- MDP block. -/
def State.viewMdp (s : State) (a off : Nat) : Word :=
  match off with
  | 0x000 => s.mdpStatus
  | 0x004 => w32 (le keyId 0 4)
  | 0x008 => w32 (le keyId 4 4)
  | _ => s.reg a

/-- Session block: it shows the session that the agent has selected. -/
def State.viewSession (s : State) (g : Agent) (a off : Nat) : Word :=
  let x := s.session ((s.latch g R.sess_SESS_SEL).toNat % 8)
  if off = 0x000 then s.latch g a
  else if !x.present then s.reg a
  else match off with
    | 0x004 => w32 (0x80000000 + 0x40000000 * b2n (x.slot == 0xFF) + 0x8000000 * (x.rights % 8) + 0x10000 * b2n x.route.m1 + x.slot)
    | 0x008 => x.id
    | 0x00C => w32 x.executed
    | 0x010 => sat32 ((s.now - x.lastAt) / ms 1)
    | 0x014 => w32 x.staged.length
    | _ => s.reg a

/-- Owner block: four slots of 16 bytes. -/
def State.viewOwner (s : State) (a off : Nat) : Word :=
  let x := s.slot (off / 16)
  match off % 16 with
  | 0 => w32 (0x80000000 * b2n x.present + x.perms)
  | 4 => lo32 x.keyId.toNat
  | 8 => hi32 x.keyId.toNat
  | _ => s.reg a

/-! ## Hull, ledger, start-up (Tables 16-7, 17-11, 18-5) -/

/-- A temperature of 16 bits. -/
def temp16 (v : Int) : Nat := (v % 65536).toNat

/-- TEMP_Dn. -/
def State.tempReg (s : State) (d : Nat) : Word :=
  let t := s.domTemp d
  if !s.hull.sampled then 0
  else w32 (0x80000000 * b2n t.aOk + 0x40000000 * b2n t.bOk + temp16 (t.value.getD 0))

/-- Powered coder spares: free coder tiles that are not gated. -/
def State.sparesPowered (s : State) : Nat :=
  (s.freeCoders.filter fun k => (s.tile (tileNo (coderTile k).1 (coderTile k).2)).state != .gated).length

/-- Hull block. -/
def State.viewHull (s : State) (g : Agent) (a off : Nat) : Word :=
  let h := s.hull
  match off with
  | 0x000 => s.hullStatus
  | 0x004 => w32 h.vbus
  | 0x008 => w32 h.feedA.shown
  | 0x00C => w32 h.feedB.shown
  | 0x010 => w32 h.feedA.ma
  | 0x014 => w32 h.feedB.ma
  | 0x018 => w32 h.power
  | 0x01C => lo32 h.energy.toNat
  | 0x020 | 0x058 => s.latch g a
  | 0x024 => w32 (0x10000 * h.tjDomain + temp16 h.tjMax)
  | 0x048 => w32 (temp16 h.tempHull)
  | 0x04C => w32 (temp16 h.tempNand)
  | 0x050 => w32 (0x10000000 * powerCode h.state + s.sparesPowered)
  | 0x05C => s.gateInfo (s.latch g R.hull_GATE_SEL).toNat
  | 0x060 => sat32 s.holdupUs
  | _ => if 0x028 ≤ off ∧ off ≤ 0x044 then s.tempReg ((off - 0x028) / 4) else s.reg a

/-- Severity, reason and class that an output shows (R388, Table 17-12): device-safe and a HOST reset before its causes, the supply
warning and KEEP after them. -/
def State.outShown (s : State) (o : Output) : Nat × Nat × Nat :=
  let r := match o with
    | .channel c => (s.channelReason c).1
    | .head h => s.headReason h
    | _ => 0
  if s.ledger.safe then (4, r, s.ledger.safeFirst)
  else if s.startup.hostAt.isSome then (0, r, F.RST_HOST.code)
  else match s.shown o with
    | some c => (c.sev, c.reason, c.cls)
    | none =>
      if s.hull.sagHeld then (3, r, F.HULL_SAG.code) else if s.hull.keepAt.isSome then (0, r, F.POWER_STATE.code) else (0, 0, 0)

/-- OUT_STATE (Table 17-12). -/
def State.outState (s : State) (o : Output) : Word :=
  let cs := s.standing o
  let st := if !s.planned o then 4
    else if cs.isEmpty then b2n s.allHeld
    else if cs.any (fun c => c.cleared.isNone) then 1
    else if cs.any (fun c => c.host) then 2 else 3
  let (sev, reason, cls) := s.outShown o
  w32 (0x10000000 * st + 0x8000000 * b2n s.ledger.safe + 0x1000000 * sev + 0x100000 * (reason % 16) +
    0x10000 * min 15 cs.length + cls)

/-- A stored entry of the ledger by its number. -/
def State.entryAt (s : State) (seq : Nat) : Option Entry := s.ledger.store.find? fun e => e.seq == seq

/-- Ledger block: the window and the output shown are the agent's own (R400). -/
def State.viewLedger (s : State) (g : Agent) (a off : Nat) : Word :=
  let l := s.ledger
  match off with
  | 0x000 => w32 (0x80000000 * b2n l.overflow + 0x40000000 * b2n (4096 ≤ l.mirror.length) + 0x10000 * l.store.length + l.intake.length)
  | 0x004 => w32 l.nextSeq
  | 0x008 => w32 ((l.store.getLast?.map (·.seq)).getD 0)
  | 0x00C => w32 l.uncopied
  | 0x01C => w32 (l.responses.length + b2n l.running.isSome)
  | 0x024 | 0x048 => s.latch g a
  | 0x04C =>
    let v := (s.latch g R.led_OUT_SEL).toNat
    (match outputOf (v / 64 % 4) (v % 64) with
     | some o => s.outState o
     | none => 0)
  | _ =>
    if 0x028 ≤ off ∧ off ≤ 0x044 then
      match s.entryAt (s.latch g R.led_WIN_SEQ).toNat with
      | some e => w32 (le (entryBytes e) (off - 0x028) 4)
      | none => 0
    else s.reg a

/-- SAFE_n block. -/
def State.viewSafe (s : State) (g : Agent) (a off : Nat) : Word :=
  let l := s.ledger
  match off with
  | 0x000 => w32 (0x80000000 * b2n l.safe + 0x40000000 * b2n (l.safe && l.safeCauses.all (·.cleared)) + 0x20000000 * b2n l.pinFiltered +
      0x10000 * s.safeBits + (if l.safe then l.safeFirst else 0))
  | 0x008 => lo32 l.safeStamp.toNat
  | 0x00C => s.latch g a
  | 0x018 => w32 s.highMs
  | _ => s.reg a

/-- Reset and start-up blocks. -/
def State.viewReset (s : State) (a off : Nat) : Word :=
  match off with
  | 0x000 => s.rstCause
  | 0x008 => w32 s.startup.count
  | 0x010 => w32 s.uptime
  | 0x014 => w32 s.startup.prevUptime
  | _ => s.reg a
def State.viewStart (s : State) (g : Agent) (a off : Nat) : Word :=
  match off with
  | 0x000 => s.startStatus
  | 0x004 => s.phaseMs
  | 0x008 => sat32 s.startup.seededMs
  | 0x00C => sat32 s.startup.gateMs
  | 0x010 => lo32 s.startup.gateStamp.toNat
  | 0x014 => s.latch g a
  | _ => s.reg a

/-! ## One read -/

/-- What a register shows to an agent. -/
def State.view (s : State) (g : Agent) (a : Nat) : Word :=
  let off := offsetOf a
  match layoutOf a with
  | none => 0
  | some (l, n) =>
    match l with
    | .timeL => s.viewTime g a off
    | .rennetL => s.viewRennet a off
    | .ptpL => s.viewPtp g a off n
    | .refL => s.viewRef a off
    | .tioL => s.viewTio g a off n
    | .imL => s.viewIm g a off
    | .pgL => s.viewGroup a off n
    | .laneL => s.viewLane a off n
    | .portL => s.viewPort a off n
    | .optL => s.viewOptics a off n
    | .ftL => s.viewFlow g a off
    | .chL => s.viewChIn a off n
    | .surfL => s.viewSurface g a off n
    | .igL => if off = 0x000 then s.igStatus n else s.reg a
    | .coderL => s.viewCoder a off n
    | .egL => s.viewEgress a off n
    | .ccL => s.viewCc g a off n
    | .paL => s.viewPath a off n
    | .brineL => s.viewBrine a off
    | .pairL => s.viewPair a off
    | .rindL => s.viewRind a off n
    | .rdL => s.viewReader a off n
    | .scL => s.viewScaler a off n
    | .headL => s.viewHead g a off n
    | .auL => s.viewAudio a off
    | .memL => s.viewMemory a off
    | .mchL => s.viewMemChan a off n
    | .regL => s.viewRegion g a off
    | .recL => s.viewRecorder g a off
    | .coreL => s.viewCore a off n
    | .spL => s.viewSp a off
    | .srcL => s.viewSource off
    | .tgtL => s.viewTarget a off n
    | .rtL => s.viewTimer g a off n
    | .chkL => s.viewCheck a off n
    | .mdpL => s.viewMdp a off
    | .mpL => s.viewPort a off (32 + n)
    | .sessL => s.viewSession g a off
    | .ownL => s.viewOwner a off
    | .hullL => s.viewHull g a off
    | .ledL => s.viewLedger g a off
    | .safeL => s.viewSafe g a off
    | .rstL => s.viewReset a off
    | .startL => s.viewStart g a off
    | .domL => if off = 0x000 then s.domStatus n else s.reg a
    | .ringL | .hubL | .idL => s.reg a

/-- The tile of an address is gated or held in reset: it reads its reset values (R374, R432). -/
def State.tileDark (s : State) (a : Nat) : Bool :=
  let d := a / 0x10000000
  let x := s.tile (a / 0x100000)
  1 ≤ d && (x.state == .gated || x.state == .reset)

/-- The high half that a read of a _LO register latches, with the value shown by the pair (R48). -/
def State.latchPair (s : State) (l : Layout) (n off : Nat) : Option Nat :=
  match l, off with
  | .ccL, 0x028 => some (s.chan (n % 48)).bytes
  | .headL, 0x034 => some (s.head n).signature
  | .recL, 0x004 => some s.openNumber
  | .recL, 0x00C => some s.oldestNumber
  | .recL, 0x04C => some ((s.reg R.rec_WRITTEN_LO).toNat + 0x100000000 * (s.reg R.rec_WRITTEN_HI).toNat)
  | .hullL, 0x01C => some s.hull.energy.toNat
  | .safeL, 0x008 => some s.ledger.safeStamp.toNat
  | .startL, 0x010 => some s.startup.gateStamp.toNat
  | .tioL, 0x018 => some ((s.reg (R.tio_ARM_LO n)).toNat + 0x100000000 * (s.reg (R.tio_ARM_HI n)).toNat)
  | _, _ => none

/-- Reads that change something: the rows of their own, and values that a read clears. -/
def State.readActs (s : State) (g : Agent) (l : Layout) (n off a : Nat) : Option (State × Word) :=
  match l, off with
  | .timeL, 0x000 => some (s.readBy (doing (execStampLoRead g)))
  | .tioL, 0x00C => some (s.readBy (doing (execCapLoRead g (Fin.ofNat 8 n))))
  | .laneL, 0x004 => some (s.readBy (doing (execFomRead g (Fin.ofNat 34 n))))
  | .tgtL, 0x004 => some (s.readBy (doing (execIrqClaim g (Fin.ofNat 5 n))))
  | .headL, 0x018 => some (s.readBy fun s => s.bufLowRead n)
  | .auL, _ => if 0x080 ≤ off ∧ off ≤ 0x0BC then some (s.readBy fun s => s.peakRead ((off - 0x080) / 4)) else none
  | .mchL, 0x010 => some (s.readBy fun s => s.stallMaxRead n)
  | .mchL, 0x028 => some (s.readBy fun s => s.qPeakRead n)
  | .coderL, 0x004 => some (s.modCoder n fun x => { x with fifoPeak := 0 }, w32 (s.coder n).fifoPeak)
  | .ccL, 0x038 =>
    if s.chanField (n % 48) 40 1 / 8 = n / 48 then some (s.modChan (n % 48) fun x => { x with latMax := 0 }, s.view g a) else none
  | .egL, _ => if 0x040 ≤ off ∧ off ≤ 0x05C then some (s.setReg a 0, s.reg a) else none
  | _, _ => none

/-- One register read by an agent: what changes, and the value (R6, R48). -/
def State.readReg (s : State) (g : Agent) (a : Nat) : State × Word :=
  match layoutOf a with
  | none => (s, 0)
  | some (l, n) =>
    let off := offsetOf a
    if s.tileDark a then (s, resetOf a)
    else match s.readActs g l n off a with
      | some r => r
      | none => match s.latchPair l n off with
        | some v => s.readLo g (a + 4) v
        | none => (s, s.view g a)

end Sys2Proof.Machine
end

