-- ==== Sys2Proof/Machine/Session.lean ====
section
/-!
DEFINITION. MDP sessions: the settings in force, the datagrams that the device sends, and how a session ends (R340 to R346,
R357).
-/

namespace Sys2Proof.Machine

/-! ## MDP_SETTINGS (R357, Table 15-9) -/

/-- A session setting: the field of MDP_SETTINGS, or its default without a boot image (R340). -/
def State.mdpSetting (s : State) (off n default : Nat) : Nat :=
  if s.hasSection 0x0C01 0 4 then le (s.payload 0x0C01 0 4) off n else default
def State.maxSessions (s : State) : Nat := s.mdpSetting 1 1 8
def State.mdpWindow (s : State) : Nat := s.mdpSetting 2 1 32
def State.openRate (s : State) : Nat := s.mdpSetting 3 1 10
def State.idleS (s : State) : Nat := s.mdpSetting 4 2 60
def State.retxMs (s : State) : Nat := s.mdpSetting 6 2 50

/-- MDP sessions are possible: from phase 5 on, and in the state without an image (R409, Table 18-3). -/
def State.mdpOn (s : State) : Bool := s.running && (5 ≤ s.startup.phase || s.startup.noImage)

/-! ## Sending (R342) -/

/-- Table 15-1. -/
def mdpHeader (type session seq ctr : Nat) : List Byte :=
  beBytes 2 0x4D44 ++ beBytes 1 1 ++ beBytes 1 type ++ beBytes 4 session ++ beBytes 4 seq ++ beBytes 8 ctr

/-- The GCM nonce: direction byte, three zero bytes, CTR. -/
def mdpNonce (toHost : Bool) (ctr : Nat) : List Byte := beBytes 1 (b2n toHost) ++ beBytes 3 0 ++ beBytes 8 ctr

/-- The highest CTR of a direction. -/
def ctrLimit : Nat := 0xFFFFFFFFFFFFFFFE

/-- Management port of a route, 32 or 33. -/
def Route.mp (r : Route) : Nat := 32 + b2n r.m1

/-- A datagram leaves on its port while that is UP. -/
def State.sendDatagram (s : State) (r : Route) (bytes : List Byte) : State :=
  if (s.port r.mp).state = .up then
    ((s.count (R.mp_MDP_TX (b2n r.m1))).count (R.mp_TX_FRAMES (b2n r.m1))).send (.mdp r bytes)
  else s

/-- A session ends: its staged set, export pin, latches, CMT_ registers and subscription go with it (R346). Causes: 1 CLOSE, 2
IDLE, 3 KILL, 4 SLOT, 5 DISOWN, 6 CTR, 7 SEQ. -/
def State.endSession (s : State) (i cause : Nat) : State :=
  let x := s.session i
  if x.present then
    let s := (s.log F.MDP_SESSION_END R.mdp (leBytes 4 x.id.toNat ++ leBytes 1 cause)).event R.mdp_EVENTS 1
    ((s.endExport i).dropLatches (.session (Fin.ofNat 8 i))).setSession i {}
  else s

/-- A protected datagram of a session on a route; the session ends when its CTR would pass the limit. -/
def State.mdpSend (s : State) (i : Nat) (r : Route) (type seq : Nat) (body : List Byte) : State :=
  let x := s.session i
  if !x.present then s
  else if ctrLimit < x.txCtr then s.endSession i 6
  else
    let h := mdpHeader type x.id.toNat seq x.txCtr
    (s.modSession i fun x => { x with txCtr := x.txCtr + 1 }).sendDatagram r
      (h ++ gcmSeal x.key (mdpNonce true x.txCtr) h body)

/-! ## Rows of the sessions and of the management ports -/

/-- SESSION_IDLE (R346): no datagram of the session accepted for IDLE_S. -/
def execSessionIdle (session : Fin 8) (s : State) : Out :=
  let x := s.session session.val
  if x.present ∧ s.due (x.lastAt + sec s.idleS) then .next (s.endSession session.val 2) else .next s

/-- SESSION_KILL (R346, R358): a write of SESS_CTRL.KILL by core firmware or by a session with the ADMIN right ends the session
that the writer has selected in SESS_SEL. -/
def execSessionKill (agent : Agent) (s : State) : Out :=
  if s.running ∧ (agent.isCore ∨ s.sessionRight agent 2) then
    .next (s.endSession ((s.latch agent R.sess_SESS_SEL).toNat % 8) 3)
  else .next s

/-- MP_ADMIN (R341): a write of MP_CTRL.ADMIN; 0 is ignored while the other management port is not UP. -/
def execMpAdmin (agent : Agent) (m1 : Bool) (admin : Bool) (s : State) : Out :=
  let _ := agent
  let p := 32 + b2n m1
  if !s.running || (s.port p).admin == admin then .next s
  else if admin then .next (s.adminOn p)
  else if (s.port (65 - p)).state = .up then .next (s.adminOff p)
  else .next s

/-! ## Violations (R356) -/

/-- Count a violation. -/
def State.mdpViolation (s : State) : State := s.count R.mdp_VIOLATIONS

/-- A rate-limited class of a session. -/
def State.mdpLog (s : State) (c : FaultClass) (i : Nat) (data : List Byte) : State :=
  s.logRated c (s.session i).id.toNat R.mdp 0 (fun _ => leBytes 4 (s.session i).id.toNat ++ data) false

/-- An access that R4, R15 or R413 refuses: a core logs CORE_ACCESS (R320), a session MDP_ADDRESS (R350). `store` tells a write from a
read. -/
def State.accessFault (s : State) (g : Agent) (a : Nat) (store : Bool) : State :=
  match g with
  | .session i => s.mdpViolation.mdpLog F.MDP_ADDRESS i.val (leBytes 4 a)
  | _ => s.log F.CORE_ACCESS (procBlock (agentNo g)) (leBytes 1 (agentNo g) ++ leBytes 4 a ++ leBytes 1 (b2n store + 1))

end Sys2Proof.Machine
end

