-- ==== Sys2Proof/Machine/RegWrite.lean ====
section
/-!
DEFINITION. What a register write does (R4 to R6, R15, R413): the generic effect of each access code, and for the registers with an
effect of their own the call of the meaning of their row.
-/

namespace Sys2Proof.Machine

/-! ## Access codes (R5, R6) -/

/-- RW: the bits of the register take the value, reserved bits are ignored. -/
def rwValue (old : Word) (mask : Nat) (v : Word) : Word := (old &&& ~~~(w32 mask)) ||| (v &&& w32 mask)

/-- The word before an enable register holds event bits: the register is an EVENT_EN. -/
def isEventEnable (l : Layout) (off : Nat) : Bool :=
  match l with
  | .srcL => false
  | _ => 4 ≤ off && (match l.rowAt (off - 4) with | some r => r.w1c != 0 | none => false)

/-- A write to a register without an effect of its own: W1C bits clear, RW bits are set, all others are ignored. -/
def State.storeReg (s : State) (l : Layout) (off a : Nat) (v : Word) : State :=
  match l.rowAt off with
  | none => s
  | some r =>
    if r.w1c ≠ 0 then s.eventClear a (v &&& w32 r.w1c)
    else if r.rw = 0 then s
    else if isEventEnable l off then s.eventEnable a (v &&& w32 r.rw)
    else s.setReg a (rwValue (s.reg a) r.rw v)

/-- The same for a register that each agent has for itself. -/
def State.storeLatch (s : State) (g : Agent) (l : Layout) (off a : Nat) (v : Word) : State :=
  match l.rowAt off with
  | none => s
  | some r => s.setLatch g a (rwValue (s.latch g a) r.rw v)

/-- The registers that each agent has for itself; those of R83 and R314 exist for MDP sessions only. -/
def perAgent (l : Layout) (off : Nat) (g : Agent) : Option Bool :=
  match l, off with
  | .imL, 0x030 | .imL, 0x034 | .imL, 0x038 | .imL, 0x03C | .recL, 0x034 | .recL, 0x038 => some (!g.isCore)
  | .ftL, _ => if off = 0x008 ∨ (0x040 ≤ off ∧ off ≤ 0x07C) then some true else none
  | .surfL, 0x000 | .ccL, 0x03C | .regL, 0x000 | .recL, 0x070 | .rtL, 0x000 | .sessL, 0x000 | .hullL, 0x058
  | .ledL, 0x024 | .ledL, 0x048 => some true
  | _, _ => none

/-! ## Registers with an effect of their own -/

/-- A write that triggers, when a bit is 1. -/
def State.trigger (s : State) (on : Bool) (f : State → Out) : State := if on then doing f s else s

/-- Time, PTP and TIO blocks (Tables 2-13, 2-15, 2-16). -/
def State.writeTime (s : State) (g : Agent) (l : Layout) (n off a : Nat) (v : Word) : Option State :=
  let b := bit v.toNat
  match l, off with
  | .timeL, 0x020 => some ((doing (execForceHold g (b 0)) s).trigger (b 1) (execSuspectClr g))
  | .ptpL, 0x010 => match g with
    | .session i => some (doing (execStagedWrite i a v) s)
    | _ => some s
  | .tioL, 0x008 =>
    let pin := Fin.ofNat 8 n
    some ((s.trigger (b 0) (execTioRelease g pin)).trigger (b 1) (execTioFlush g pin))
  | .tioL, 0x01C => some ((doing (execArmHiWrite g (Fin.ofNat 8 n) v) s).setLatch g a v)
  | .tioL, 0x020 => some (if v.toNat < 1024 then s else s.setReg a v)
  | _, _ => none

/-- Image manager block (Tables 3-12 and 3-16). -/
def State.writeIm (s : State) (g : Agent) (off a : Nat) (v : Word) : Option State :=
  let n := v.toNat
  let b := bit n
  match off with
  | 0x014 => some (doing (execFloorRaise g v) s)
  | 0x028 => some ((((s.trigger (b 0) (execSlotCheck g 0)).trigger (b 1) (execSlotCheck g 1)).trigger (b 2) (execSlotCtrlClear g 0)).trigger
      (b 3) (execSlotCtrlClear g 1))
  | 0x040 => some (if g.isCore || n == 0 || 1000 < n then s else s.setLatch g a v)
  | 0x044 => some (s.trigger (b 0) (execCommitIssue g))
  | 0x050 => some (doing (execCommitCancel g n) s)
  | 0x068 => some ((((((s.trigger (b 0) (execFwConfirm g 0)).trigger (b 1) (execFwConfirm g 1)).trigger (b 2) (execFwConfirm g 2)).trigger
      (b 4) (execFwRevert g 0)).trigger (b 5) (execFwRevert g 1)).trigger (b 6) (execFwRevert g 2))
  | 0x074 => some ((s.trigger (n / 4 % 4 == 1) (execBootWrite g (b 1) (Fin.ofNat 2 n))).trigger (n / 4 % 4 == 2) (execBootPrefer g (b 1)))
  | _ => none

/-- Lane, port and optics blocks (Tables 4-6 and 4-8); of the value 3 of PRBS nothing is taken. -/
def State.writePorts (s : State) (g : Agent) (l : Layout) (n off a : Nat) (v : Word) : Option State :=
  let b := bit v.toNat
  match l, off with
  | .laneL, 0x00C =>
    some (s.writeLaneCtrl (n % 34) v)
  | .portL, 0x004 => some ((doing (execPortAdmin g (Fin.ofNat 32 n) (b 0)) s).trigger (b 1) (execRetryNow g (Fin.ofNat 34 n)))
  | .mpL, 0x004 => some ((doing (execMpAdmin g (n == 1) (b 0)) s).trigger (b 1) (execRetryNow g (Fin.ofNat 34 (32 + n))))
  | .optL, 0x004 => some ((s.storeReg l off a v).trigger (b 4) (execOptResetBus g (Fin.ofNat 6 n)))
  | .optL, 0x008 => some (doing (execOptCmd g (Fin.ofNat 6 n) v) s)
  | _, _ => none

/-- Flow-table and ring blocks (Table 5-10): a ring's base does not change while the ring is enabled. -/
def State.writeFlow (s : State) (g : Agent) (l : Layout) (n off a : Nat) (v : Word) : Option State :=
  let b := bit v.toNat
  match l, off with
  | .ftL, 0x00C => some ((((s.trigger (b 0) (execFtAdd g)).trigger (b 1) (execFtRemove g)).trigger (b 2) (execFtRead g)).trigger (b 3) (execFtLookup g))
  | .ringL, 0x000 => some (if s.ringSlots n ≠ 0 then s else s.setReg a (v &&& 0xFFFFF000))
  | .ringL, 0x004 => some (if s.ringSlots n ≠ 0 then s else s.setReg a v)
  | .ringL, 0x008 => some (doing (execRingEnable g (Fin.ofNat 64 n) v) s)
  | _, _ => none

/-- Brine, pair, rind, reader, scaler and head blocks (Tables 8-11, 9-9, 10-8). -/
def State.writeCoding (s : State) (g : Agent) (l : Layout) (n off : Nat) (v : Word) : Option State :=
  let k := v.toNat
  match l, off with
  | .brineL, 0x014 => some ((s.trigger (k / 64 % 4 == 1) (execCoderRetest g (Fin.ofNat 64 k))).trigger (k / 64 % 4 == 2)
      (execCoderRetire g (Fin.ofNat 64 k)))
  | .pairL, 0x00C => some (s.trigger (bit k 0) (execPairSwitch g))
  | .rindL, 0x01C => some (doing (execRindMove g (Fin.ofNat 48 n) v) s)
  | .rdL, 0x024 => some (s.trigger (bit k 0) (execReaderRetest g (Fin.ofNat 64 n)))
  | .scL, 0x018 => some (s.trigger (bit k 0) (execScalerRetest g (Fin.ofNat 32 n)))
  | .headL, 0x010 => some (s.writeLine n false v)
  | .headL, 0x014 => some (s.writeLine n true v)
  | .headL, 0x03C => some (s.trigger (bit k 0) (execHeadRetest g (Fin.ofNat 16 n)))
  | _, _ => none

/-- Memory controller and recorder blocks (Tables 12-9, 13-6). MEM_CTRL is written by core firmware or with WRITE and ADMIN. -/
def State.writeStores (s : State) (g : Agent) (l : Layout) (off a : Nat) (v : Word) : Option State :=
  let b := bit v.toNat
  match l, off with
  | .memL, 0x010 =>
    some (if s.adminWrite g then ((s.storeReg l off a v).trigger (b 1) (execTrainNow g)).trigger (b 7) (execMemRetire g) else s)
  | .recL, 0x024 => some ((((s.trigger (b 0) (execSealNow g)).trigger (b 1) (execVerify g)).trigger (b 2) (execExportOpen g)).trigger (b 3)
      (execExportClose g))
  | _, _ => none

/-- A write of RT_PERIOD: 0 or at least 1,024 ticks; the timers of SP's sources are SP's (R330, R331). -/
def State.writeRtPeriod (s : State) (g : Agent) (n a : Nat) (v : Word) : State :=
  if g ≠ .sp ∧ (s.source (263 + n)).ofSp = true then s.hubDenied g (263 + n)
  else if 1 ≤ v.toNat ∧ v.toNat < 1024 then s
  else s.setReg a v

/-- Core, safety-pair, hub, timer and check blocks (Tables 14-11, 14-13). -/
def State.writeCores (s : State) (g : Agent) (l : Layout) (n off a : Nat) (v : Word) : Option State :=
  let b := bit v.toNat
  match l, off with
  | .coreL, 0x004 => some ((s.trigger (b 0) (execCorePark g (Fin.ofNat 4 n))).trigger (b 1) (execCoreResume g (Fin.ofNat 4 n)))
  | .coreL, 0x008 => some (s.trigger (b 0) (execCoreAlive g (Fin.ofNat 5 n)))
  | .coreL, 0x00C => some (s.trigger (b 0) (execWdtKick g (Fin.ofNat 5 n)))
  | .spL, 0x004 => some (s.trigger (b 0) (execCoreAlive g 4))
  | .spL, 0x008 => some (s.trigger (b 0) (execWdtKick g 4))
  | .hubL, 0x000 => some (doing (execSwiSet g v) s)
  | .srcL, _ =>
    let k := Fin.ofNat 512 (off / 4)
    some (if off < 0x800 then doing (execSrcCfgWrite g k v) s else s.trigger (b 31) (execSrcCntSatClear g k))
  | .tgtL, 0x000 => some (doing (execThresholdWrite g (Fin.ofNat 5 n) v) s)
  | .tgtL, 0x008 => some (doing (execIrqComplete g (Fin.ofNat 5 n) (Fin.ofNat 512 v.toNat)) s)
  | .rtL, 0x004 => some (doing (execRtArm g (Fin.ofNat 8 n) v) s)
  | .rtL, 0x008 => some (s.writeRtPeriod g n a v)
  | .rtL, 0x00C => some (s.trigger (b 0) (execRtDisarm g (Fin.ofNat 8 n)))
  | .chkL, 0x004 => some ((s.trigger (b 0) (execChkStart g (Fin.ofNat 16 n))).trigger (b 1) (execChkEnd g (Fin.ofNat 16 n)))
  | .chkL, 0x008 => some (doing (execChkData g (Fin.ofNat 16 n) 0 v) s)
  | .chkL, 0x00C => some (doing (execChkData g (Fin.ofNat 16 n) 1 v) s)
  | .chkL, 0x010 => some (doing (execChkData g (Fin.ofNat 16 n) 2 v) s)
  | _, _ => none

/-- Session, hull, ledger, SAFE_n and reset blocks (Tables 15-12, 16-9, 17-11, 18-5). -/
def State.writeSystem (s : State) (g : Agent) (l : Layout) (off : Nat) (v : Word) : Option State :=
  let n := v.toNat
  let b := bit n
  match l, off with
  | .sessL, 0x018 => some (s.trigger (b 0) (execSessionKill g))
  | .hullL, 0x054 =>
    let c : BitVec 16 := v.extractLsb' 16 16
    some (match n % 4 with
      | 0 => doing (execPowerReqRun g) s
      | 1 => doing (execPowerReqTrim g) s
      | 2 => doing (execPowerReqKeep g c) s
      | _ => doing (execPowerReqOff g c (n / 4 % 0x4000)) s)
  | .ledL, 0x050 => some (if b 31 then doing (execRelCtrlAll g) s else doing (execRelCtrlOne g (Fin.ofNat 4 (n / 64)) (Fin.ofNat 64 n)) s)
  | .safeL, 0x004 => some ((s.trigger (b 0) (execSafeEnter g)).trigger (b 1) (execSafeRelease g))
  | .rstL, 0x004 => some (s.trigger (b 0) (execHostReset g (v.extractLsb' 16 16)))
  | _, _ => none

/-- The effect of its own that a write has, if the register has one. -/
def State.writeActs (s : State) (g : Agent) (l : Layout) (n off a : Nat) (v : Word) : Option State :=
  match l with
  | .timeL | .ptpL | .tioL => s.writeTime g l n off a v
  | .imL => s.writeIm g off a v
  | .laneL | .portL | .mpL | .optL => s.writePorts g l n off a v
  | .ftL | .ringL => s.writeFlow g l n off a v
  | .brineL | .pairL | .rindL | .rdL | .scL | .headL => s.writeCoding g l n off v
  | .memL | .recL => s.writeStores g l off a v
  | .coreL | .spL | .hubL | .srcL | .tgtL | .rtL | .chkL => s.writeCores g l n off a v
  | .sessL | .hullL | .ledL | .safeL | .rstL => s.writeSystem g l off v
  | _ => none

/-! ## One write -/

/-- One register write by an agent to an address that exists. A gated tile, or one held in reset, ignores it. -/
def State.writeReg (s : State) (g : Agent) (a : Nat) (v : Word) : State :=
  match layoutOf a with
  | none => s
  | some (l, n) =>
    let off := offsetOf a
    if s.tileDark a then s
    else match s.writeActs g l n off a v with
      | some t => t
      | none => match perAgent l off g with
        | some true => s.storeLatch g l off a v
        | some false => s
        | none => s.storeReg l off a v

/-- The agent can make an access: a session only while it is open. -/
def State.agentLive (s : State) (g : Agent) : Bool :=
  match g with
  | .session i => (s.session i.val).present
  | _ => true

/-- REGISTER_WRITE (R4 to R6, R413): one 32-bit write at a control address. -/
def execRegisterWrite (agent : Agent) (addr : Nat) (value : Word) (s : State) : Out :=
  if !(s.running && s.agentLive agent) then .next s
  else if accessRefused addr then .next (s.accessFault agent addr true)
  else .next (s.writeReg agent addr value)

end Sys2Proof.Machine
end

