-- ==== Sys2Proof/Machine/MdpOps.lean ====
section
/-!
DEFINITION. The operations that a REQUEST carries (R347 to R355, Tables 15-5 to 15-11): what each checks, does and answers.
-/

namespace Sys2Proof.Machine

/-- What an operation leaves: the state, STATUS, the results, and the sessions that end after the answer with their causes. -/
structure OpResult where
  state  : State
  status : Nat := 0
  result : List Byte := []
  ends   : List (Nat × Nat) := []

/-- OP codes of Table 15-6. -/
def opRead : Nat := 0x01
def opWrite : Nat := 0x02
def opModify : Nat := 0x03
def opBlockRead : Nat := 0x10
def opBlockWrite : Nat := 0x11
def opSubscribe : Nat := 0x20
def opUnsubscribe : Nat := 0x21
def opAttest : Nat := 0x30
def opEnrol : Nat := 0x40
def opSlotWrite : Nat := 0x41
def opSlotClear : Nat := 0x42
def opDisown : Nat := 0x43
def opNop : Nat := 0x50

/-! ## Refusals (R356) -/

/-- An operation refused as a violation of Table 15-8. -/
def State.opRefused (s : State) (i : Nat) (c : FaultClass) (data : List Byte) : OpResult :=
  { state := s.mdpViolation.mdpLog c i data, status := c.code }
def State.opLength (s : State) (i op oplen : Nat) : OpResult := s.opRefused i F.MDP_LENGTH (leBytes 1 op ++ leBytes 2 oplen)
def State.opRights (s : State) (i op addr : Nat) : OpResult := s.opRefused i F.MDP_RIGHTS (leBytes 1 op ++ leBytes 4 addr)
def State.opAddress (s : State) (i addr : Nat) : OpResult := s.opRefused i F.MDP_ADDRESS (leBytes 4 addr)
def State.opBlock (s : State) (i space offset : Nat) : OpResult := s.opRefused i F.MDP_BLOCK (leBytes 1 space ++ leBytes 8 offset)

/-- The right bit of Table 15-5 of a session. -/
def State.right (s : State) (i b : Nat) : Bool := bit (s.session i).rights b

/-- An answer with `n` bytes of results fits the MTU of its port (R350): MDP header, answer fields, tag, UDP, IP, Ethernet and FCS. -/
def State.answerFits (s : State) (r : Route) (n : Nat) : Bool :=
  20 + 4 + n + 16 + 8 + (if isV4 r.addr then 20 else 40) + 18 ≤ s.mpMtu r.m1

/-- A session as the agent of its register accesses. -/
def sessionAgent (i : Nat) : Agent := .session (Fin.ofNat 8 i)

/-! ## Register operations (R349) -/

/-- The addresses of a register operation. -/
def addrsOf (addr count : Nat) : List Nat := (List.range count).map fun k => addr + 4 * k

/-- READ. -/
def State.doRead (s : State) (i : Nat) (r : Route) (addr count : Nat) : OpResult :=
  if count = 0 ∨ 256 < count ∨ s.answerFits r (4 * count) = false then s.opLength i opRead 8
  else if !s.right i 0 then s.opRights i opRead addr
  else match (addrsOf addr count).find? accessRefused with
    | some a => s.opAddress i a
    | none =>
      let x := (addrsOf addr count).foldl (fun (x : State × List Byte) a =>
        let v := x.1.readReg (sessionAgent i) a
        (v.1, x.2 ++ beBytes 4 v.2.toNat)) (s, [])
      { state := x.1, result := x.2 }

/-- A register that needs ADMIN beside WRITE (Table 15-5). -/
def adminRegister (a : Nat) : Bool :=
  a == R.im_FLOOR_RAISE || a == R.im_FW_CTRL || a == R.im_BOOT_CTRL || a == R.mem_MEM_CTRL || a == R.sess_SESS_CTRL

/-- The class code of the first refusal that a write has set off (R349, R431). -/
def refusalSince (before after : State) : Nat :=
  (((after.ledger.outbox.drop before.ledger.outbox.length).find? fun e => refusalClass e.cls).map (·.cls)).getD 0

/-- The checks of a register write in their order: addresses, ADMIN, the capacity of the staged set; the first that fails. -/
def State.writeCheck (s : State) (i op : Nat) (writes : List (Nat × Word)) : Option OpResult :=
  match writes.find? fun w => accessRefused w.1 with
  | some w => some (s.opAddress i w.1)
  | none => match writes.find? fun w => adminRegister w.1 && !s.right i 2 with
    | some w => some (s.opRights i op w.1)
    | none =>
      match (writes.filter fun w => stagedRegister w.1 && stagedInRange w.2).drop (256 - (s.session i).staged.length) with
      | w :: _ => some { state := s.log F.IMG_STAGE_FULL R.im (leBytes 4 (s.session i).id.toNat ++ leBytes 4 w.1), status := F.IMG_STAGE_FULL.code }
      | [] => none

/-- WRITE. -/
def State.doWrite (s : State) (i : Nat) (addr : Nat) (values : List Word) : OpResult :=
  let n := values.length
  let writes := (addrsOf addr n).zip values
  if n = 0 ∨ 256 < n then s.opLength i opWrite (8 + 4 * n)
  else if !s.right i 1 then s.opRights i opWrite addr
  else match s.writeCheck i opWrite writes with
    | some r => r
    | none =>
      let t := writes.foldl (fun s w => s.writeReg (sessionAgent i) w.1 w.2) s
      { state := t, status := refusalSince s t }

/-- MODIFY: no other access comes between the read and the write. -/
def State.doModify (s : State) (i : Nat) (addr : Nat) (mask value : Word) : OpResult :=
  if !s.right i 1 then s.opRights i opModify addr
  else if accessRefused addr then s.opAddress i addr
  else
    let x := s.readReg (sessionAgent i) addr
    let v := (x.2 &&& ~~~mask) ||| (value &&& mask)
    match s.writeCheck i opModify [(addr, v)] with
    | some r => r
    | none =>
      let t := x.1.writeReg (sessionAgent i) addr v
      { state := t, status := refusalSince x.1 t, result := beBytes 4 x.2.toNat }

/-! ## Block operations (R351, Table 15-7) -/

/-- Content of the IDENTITY space. -/
def identitySpace : List Byte := Config.deviceCertificate ++ Config.manufacturingCertificate

/-- Entries of the ledger from a sequence number on, as stored; an entry that is no longer held reads as zero. -/
def State.ledgerBytes (s : State) (seq n : Nat) : List Byte :=
  (List.range n).flatMap fun k =>
    match s.entryAt (seq + k) with
    | some e => entryBytes e
    | none => List.replicate 32 0

/-- BLOCK_READ. -/
def State.doBlockRead (s : State) (i : Nat) (r : Route) (space offset length : Nat) : OpResult :=
  let right := if space < 2 then s.right i 1 else if space = 2 ∨ space = 4 then s.right i 0 else true
  let last := offset + length
  let bad := s.opBlock i space offset
  if length = 0 ∨ 8192 < length ∨ s.answerFits r length = false then s.opLength i opBlockRead 16
  else if !right then s.opRights i opBlockRead 0
  else match space with
    | 0 | 1 =>
      let p := (s.imgSlot space).bytes
      if last ≤ p.length then { state := s, result := (p.drop offset).take length } else bad
    | 2 =>
      if 268435456 < last then bad
      else match s.exportRead i offset length with
        | (t, some p) => { state := t, result := p }
        | (_, none) => bad
    | 3 => if last ≤ 2112 then { state := s, result := (identitySpace.drop offset).take length } else bad
    | 4 =>
      if offset % 32 = 0 ∧ length % 32 = 0 ∧ last ≤ 32 * s.ledger.nextSeq then { state := s, result := s.ledgerBytes (offset / 32) (length / 32) }
      else bad
    | _ => bad

/-- BLOCK_WRITE. -/
def State.doBlockWrite (s : State) (i : Nat) (space offset : Nat) (data : List Byte) : OpResult :=
  let n := data.length
  let bad := s.opBlock i space offset
  if n = 0 ∨ 8192 < n then s.opLength i opBlockWrite (12 + n)
  else if space < 2 ∧ s.right i 1 = false then s.opRights i opBlockWrite 0
  else if 2 ≤ space then bad
  else
    let x := s.imgSlot space
    if x.state = .checking then bad
    else if s.slotPinned space then { state := s.slotBusy space, status := F.IMG_SLOT_BUSY.code }
    else if offset = 0 then { state := s.modImgSlot space fun _ => { state := .loading, bytes := data } }
    else if offset = x.bytes.length ∧ offset + n ≤ 268435456 then
      { state := s.modImgSlot space fun y => { y with state := .loading, reason := 0, bytes := y.bytes ++ data } }
    else bad

/-! ## Subscriptions, NOP and attestation (R352, R353) -/

/-- SUBSCRIBE: the stream starts at FROM, or at the next entry with NEXT. -/
def State.doSubscribe (s : State) (i minSev flags first : Nat) : OpResult :=
  if 4 < minSev then s.opLength i opSubscribe 8
  else if !s.right i 0 then s.opRights i opSubscribe 0
  else
    let n := if bit flags 0 then s.ledger.nextSeq else first
    { state := s.modSession i fun x => { x with sub := some { minSev := minSev, state := bit flags 1, next := n, stateAt := s.now } },
      result := beBytes 4 n }

/-- UNSUBSCRIBE. -/
def State.doUnsubscribe (s : State) (i : Nat) : OpResult :=
  if !s.right i 0 then s.opRights i opUnsubscribe 0
  else { state := s.modSession i fun x => { x with sub := none } }

/-- NOP. -/
def State.doNop (s : State) : OpResult := { state := s, result := beBytes 8 s.stamp.toNat }

/-- First 16 bytes of DIGEST of a bank's image; 0 when the bank is not valid. -/
def bankDigest (b : BootBank) : List Byte :=
  if b.state = .valid then (b.bytes.drop (le b.bytes 20 4 + 8)).take 16 else List.replicate 16 0

/-- First 16 bytes of SHA-512 over the active code bank as loaded: CODE of the payload (Tables 14-7, 15-10). -/
def fwDigest (b : FwBank) : List Byte := (Config.sha512 ((b.running.drop 32).take (le b.running 4 4))).take 16

/-- KEY_ID as a number. -/
def keyIdNo : Nat := le keyId 0 8

/-- Bytes 0 to 191 of the attestation report (Table 15-10). -/
def State.report (s : State) (nonce : List Byte) : List Byte :=
  let im := s.im
  let flags := b2n s.clock.seeded + 2 * b2n s.ledger.safe +
    4 * b2n (im.fwTc.unconfirmed || im.fwSp.unconfirmed || im.fwHull.unconfirmed) + 8 * b2n (s.pairMode && s.pairActive)
  beBytes 4 0x5A484154 ++ beBytes 2 1 ++ beBytes 2 flags ++ nonce ++ beBytes 8 s.stamp.toNat ++ beBytes 8 keyIdNo ++ beBytes 2 0x02B0 ++
    beBytes 1 s.roleNo ++ beBytes 1 0 ++ beBytes 4 im.lineage.toNat ++ beBytes 4 im.floor.toNat ++ beBytes 4 im.runRollback.toNat ++
    beBytes 8 im.configId.toNat ++ bankDigest im.bankA ++ bankDigest im.bankB ++ fwDigest im.fwTc ++ fwDigest im.fwSp ++ fwDigest im.fwHull ++
    (List.range 4).flatMap fun n => beBytes 8 (s.slot n).keyId.toNat

/-- ATTEST. -/
def State.doAttest (s : State) (i : Nat) (r : Route) (nonce : List Byte) : OpResult :=
  if nonce.length ≠ 32 ∨ s.answerFits r 704 = false then s.opLength i opAttest nonce.length
  else
    let p := s.report nonce
    { state := s.log F.ATTESTED R.mdp (leBytes 4 (s.session i).id.toNat ++ nonce.take 8), result := p ++ Config.pssSign p }

/-! ## Ownership (R354, R355) -/

/-- OWN_REFUSED with the reason shown: 1 STATE, 2 KEY, 3 PROOF, 4 LAST_ADMIN, 5 ANCHOR, 0 another. -/
def State.ownRefused (s : State) (op reason : Nat) : OpResult :=
  { state := s.log F.OWN_REFUSED R.mdp (leBytes 1 op ++ leBytes 1 reason), status := F.OWN_REFUSED.code }

/-- MODULUS, EXPONENT and PROOF of Table 15-11. -/
def opModulus (p : List Byte) : List Byte := (p.drop 4).take 512
def opExponent (p : List Byte) : Nat := be p 516 4
def opProof (p : List Byte) : List Byte := (p.drop 520).take 512

/-- A well-formed key: top bit of the modulus 1, exponent 65,537. -/
def keyShape (p : List Byte) : Bool := 128 ≤ be p 4 1 && opExponent p == 65537

/-- The proof of possession for a lineage. -/
def proofGood (p : List Byte) (lineage : Nat) : Bool :=
  Config.pssVerify (opModulus p) (opExponent p) (keyId ++ beBytes 4 lineage ++ opModulus p ++ beBytes 4 (opExponent p)) (opProof p)

/-- The owner slot that key operands describe. -/
def opSlot (p : List Byte) (perms : Nat) : OwnerSlot :=
  { present := true, perms := perms, modulus := opModulus p, exponent := opExponent p, keyId := BitVec.ofNat 64 (keyIdOf (opModulus p) (opExponent p)) }

/-- The owner event. -/
def State.ownEvent (s : State) : State := s.event R.mdp_EVENTS 8

/-- ENROL: the first owner slot and the lineage of an UNOWNED module; the enrolment session ends after the answer. -/
def State.doEnrol (s : State) (i : Nat) (p : List Byte) : OpResult :=
  let lineage := be p 0 4
  if p.length ≠ 1032 then s.opLength i opEnrol p.length
  else if (s.session i).slot ≠ 0xFF then s.opRights i opEnrol 0
  else if !s.unowned then s.ownRefused opEnrol 1
  else if lineage = 0 ∨ lineage = 0xFFFFFFFF then s.ownRefused opEnrol 0
  else if !keyShape p then s.ownRefused opEnrol 2
  else if !proofGood p lineage then s.ownRefused opEnrol 3
  else
    let o := opSlot p 0x0F
    let t := (s.setSlot 0 o).modIm fun im => { im with lineage := w32 lineage }
    { state := (t.log F.OWN_ENROLLED R.mdp (leBytes 4 lineage ++ leBytes 8 o.keyId.toNat)).ownEvent, ends := [(i, 4)] }

/-- Sessions opened under the content of a slot. -/
def State.slotSessions (s : State) (n : Nat) : List Nat := (List.range 8).filter fun i => (s.session i).present && (s.session i).slot == n

/-- A slot with ADMIN remains when slot `n` becomes `o`. -/
def State.adminRemains (s : State) (n : Nat) (o : OwnerSlot) : Bool :=
  (List.range 4).any fun k =>
    let x := if k = n then o else s.slot k
    x.present && bit x.perms 2

/-- KEY_ID that the last certificate of a bank's image names. -/
def bankIssuer (b : BootBank) : Nat := certIssuer (certificate b.bytes (le b.bytes (le b.bytes 24 4) 1 - 1))

/-- The key of a slot anchors the chain of a valid boot bank. -/
def State.anchors (s : State) (o : OwnerSlot) : Bool :=
  o.present && bit o.perms 3 && [s.im.bankA, s.im.bankB].any fun b => b.state == .valid && bankIssuer b == o.keyId.toNat

/-- A slot takes new content: it is stored, logged, and every session opened under the old content ends after the answer. -/
def State.slotChange (s : State) (n : Nat) (o : OwnerSlot) : OpResult :=
  let old := s.slot n
  let t := (s.setSlot n o).log F.OWN_SLOT R.mdp
    (leBytes 1 n ++ leBytes 8 old.keyId.toNat ++ leBytes 8 o.keyId.toNat ++ leBytes 1 o.perms)
  { state := t.ownEvent, ends := (s.slotSessions n).map fun k => (k, 4) }

/-- SLOT_WRITE. -/
def State.doSlotWrite (s : State) (i : Nat) (p : List Byte) : OpResult :=
  let n := be p 0 1
  let o := opSlot p (be p 1 1)
  if p.length ≠ 1032 then s.opLength i opSlotWrite p.length
  else if !s.right i 2 then s.opRights i opSlotWrite 0
  else if 3 < n then s.ownRefused opSlotWrite 1
  else if !keyShape p || 16 ≤ o.perms then s.ownRefused opSlotWrite 2
  else if !proofGood p s.im.lineage.toNat then s.ownRefused opSlotWrite 3
  else if (List.range 4).any fun k => k != n && (s.slot k).present && (s.slot k).keyId == o.keyId then s.ownRefused opSlotWrite 2
  else if !s.adminRemains n o then s.ownRefused opSlotWrite 4
  else if s.anchors (s.slot n) && (s.slot n).keyId != o.keyId then s.ownRefused opSlotWrite 5
  else s.slotChange n o

/-- SLOT_CLEAR. -/
def State.doSlotClear (s : State) (i n : Nat) : OpResult :=
  if !s.right i 2 then s.opRights i opSlotClear 0
  else if 3 < n then s.ownRefused opSlotClear 1
  else if !s.adminRemains n {} then s.ownRefused opSlotClear 4
  else if s.anchors (s.slot n) then s.ownRefused opSlotClear 5
  else s.slotChange n {}

/-- DISOWN. -/
def State.doDisown (s : State) (i : Nat) (confirm : BitVec 64) : OpResult :=
  if !s.right i 2 then s.opRights i opDisown 0
  else if confirm.toNat ≠ keyIdNo then s.ownRefused opDisown 0
  else
    let former := s.im.lineage.toNat
    let t := (List.range 4).foldl (fun s n => s.setSlot n {}) s
    let t := ((t.modBankState false fun b => { b with state := .invalid }).modBankState true fun b => { b with state := .invalid }).modIm fun im =>
      { im with lineage := 0 }
    let t := [0, 1].foldl (fun s n => if s.slotPinned n then s else s.modImgSlot n fun _ => {}) t
    { state := (t.log F.OWN_DISOWNED R.mdp (leBytes 4 former)).ownEvent,
      ends := ((List.range 8).filter fun k => (s.session k).present).map fun k => (k, 5) }

/-! ## Answers (R348, R350) -/

/-- Body of an ANSWER. -/
def answerBody (op : Nat) (r : OpResult) : List Byte :=
  beBytes 1 op ++ beBytes 1 0 ++ beBytes 2 r.status ++ (if r.status = 0 then r.result else [])

/-- A session that has closed ends once every request up to the CLOSE's SEQ has been answered; the device confirms (R346). -/
def State.closeCheck (s : State) (i : Nat) : State :=
  let x := s.session i
  match x.closing with
  | some n => if x.present ∧ n ≤ x.executed then (s.mdpSend i x.route 7 0 []).endSession i 1 else s
  | none => s

/-- A request has been executed: E rises, the answer is stored and sent, and the sessions that end with it end. -/
def State.finishOp (i op : Nat) (route : Route) (r : OpResult) : State :=
  let x := r.state.session i
  if !x.present then r.ends.foldl (fun s e => s.endSession e.1 e.2) r.state
  else
    let n := x.executed + 1
    let body := answerBody op r
    let s := r.state.modSession i fun x => { x with executed := n, answers := ((⟨n, body⟩ : Answer) :: x.answers).take 64,
                                                    held := x.held.filter fun h => n < h.seq }
    let s := s.mdpSend i route 4 n body
    let s := if n = 0xFFFFFFFF then s.endSession i 7 else s
    (r.ends.foldl (fun s e => s.endSession e.1 e.2) s).closeCheck i

/-- The words of a WRITE. -/
def wordsOf (p : List Byte) : Nat → List Word
  | 0 => []
  | n + 1 => w32 (be p 0 4) :: wordsOf (p.drop 4) n

/-- One operation from its OP code and operands (R350): OPLEN that is wrong for the OP is MDP_LENGTH, an unknown OP is MDP_BAD_OP. -/
def State.runOp (s : State) (i : Nat) (r : Route) (op : Nat) (p : List Byte) : OpResult :=
  let n := p.length
  let sized (k : Nat) (x : OpResult) : OpResult := if n = k then x else s.opLength i op n
  match op with
  | 0x01 => sized 8 (s.doRead i r (be p 0 4) (be p 4 2))
  | 0x02 =>
    let k := be p 4 2
    if n = 8 + 4 * k then s.doWrite i (be p 0 4) (wordsOf (p.drop 8) k) else s.opLength i op n
  | 0x03 => sized 12 (s.doModify i (be p 0 4) (w32 (be p 4 4)) (w32 (be p 8 4)))
  | 0x10 => sized 16 (s.doBlockRead i r (be p 0 1) (be p 4 8) (be p 12 4))
  | 0x11 => if 12 ≤ n then s.doBlockWrite i (be p 0 1) (be p 4 8) (p.drop 12) else s.opLength i op n
  | 0x20 => sized 8 (s.doSubscribe i (be p 0 1) (be p 1 1) (be p 4 4))
  | 0x21 => sized 0 (s.doUnsubscribe i)
  | 0x30 => s.doAttest i r p
  | 0x40 => s.doEnrol i p
  | 0x41 => s.doSlotWrite i p
  | 0x42 => sized 4 (s.doSlotClear i (be p 0 1))
  | 0x43 => sized 8 (s.doDisown i (BitVec.ofNat 64 (be p 0 8)))
  | 0x50 => sized 0 s.doNop
  | _ => s.opRefused i F.MDP_BAD_OP (leBytes 1 op)

/-- One REQUEST body: OPLEN must be the length of the operands. -/
def State.runBody (s : State) (i : Nat) (h : HeldRequest) : State :=
  let op := be h.body 0 1
  let p := h.body.drop 4
  let r := if be h.body 2 2 = p.length then s.runOp i h.route op p else s.opLength i op (be h.body 2 2)
  State.finishOp i op h.route r

/-- Held requests run in SEQ order as far as they are consecutive (R348). -/
def State.runHeld (i : Nat) : Nat → State → State
  | 0, s => s
  | k + 1, s =>
    let x := s.session i
    if !x.present then s
    else match x.held.find? fun h => h.seq == x.executed + 1 with
      | some h => State.runHeld i k (s.runBody i h)
      | none => s

/-- An operation of an open session taken as its next request, E + 1, on the session's route; what it was holding up runs after
it. -/
def State.opCommand (s : State) (i op : Nat) (f : State → Route → OpResult) : State :=
  if s.mdpOn && (s.session i).present then
    let r := (s.session i).route
    State.runHeld i 64 (State.finishOp i op r (f s r))
  else s

/-! ## Rows -/

/-- READ (R349, R350). -/
def execRead (session : Fin 8) (addr count : Nat) (s : State) : Out :=
  .next (s.opCommand session.val opRead fun s r => s.doRead session.val r addr count)

/-- WRITE (R349, R350). -/
def execWrite (session : Fin 8) (addr : Nat) (values : List Word) (s : State) : Out :=
  .next (s.opCommand session.val opWrite fun s _ => s.doWrite session.val addr values)

/-- MODIFY (R350). -/
def execModify (session : Fin 8) (addr : Nat) (mask value : Word) (s : State) : Out :=
  .next (s.opCommand session.val opModify fun s _ => s.doModify session.val addr mask value)

/-- BLOCK_READ (R351). -/
def execBlockRead (session : Fin 8) (space offset length : Nat) (s : State) : Out :=
  .next (s.opCommand session.val opBlockRead fun s r => s.doBlockRead session.val r space offset length)

/-- BLOCK_WRITE (R351). -/
def execBlockWrite (session : Fin 8) (space offset : Nat) (data : List Byte) (s : State) : Out :=
  .next (s.opCommand session.val opBlockWrite fun s _ => s.doBlockWrite session.val space offset data)

/-- SUBSCRIBE (R352). -/
def execSubscribe (session : Fin 8) (minSev flags first : Nat) (s : State) : Out :=
  .next (s.opCommand session.val opSubscribe fun s _ => s.doSubscribe session.val minSev flags first)

/-- UNSUBSCRIBE (R350). -/
def execUnsubscribe (session : Fin 8) (s : State) : Out :=
  .next (s.opCommand session.val opUnsubscribe fun s _ => s.doUnsubscribe session.val)

/-- ATTEST (R353). -/
def execAttest (session : Fin 8) (nonce : List Byte) (s : State) : Out :=
  .next (s.opCommand session.val opAttest fun s r => s.doAttest session.val r nonce)

/-- ENROL (R354). -/
def execEnrol (session : Fin 8) (operands : List Byte) (s : State) : Out :=
  .next (s.opCommand session.val opEnrol fun s _ => s.doEnrol session.val operands)

/-- SLOT_WRITE (R355). -/
def execSlotWrite (session : Fin 8) (operands : List Byte) (s : State) : Out :=
  .next (s.opCommand session.val opSlotWrite fun s _ => s.doSlotWrite session.val operands)

/-- SLOT_CLEAR (R355). -/
def execSlotClear (session : Fin 8) (slot : Nat) (s : State) : Out :=
  .next (s.opCommand session.val opSlotClear fun s _ => s.doSlotClear session.val slot)

/-- DISOWN (R355). -/
def execDisown (session : Fin 8) (confirm : BitVec 64) (s : State) : Out :=
  .next (s.opCommand session.val opDisown fun s _ => s.doDisown session.val confirm)

/-- NOP (R350). -/
def execNop (session : Fin 8) (s : State) : Out :=
  .next (s.opCommand session.val opNop fun s _ => s.doNop)

end Sys2Proof.Machine
end

