-- ==== Sys2Proof/Machine/Mdp.lean ====
section
/-!
DEFINITION. MDP datagrams: acceptance, opening and closing of sessions, requests and acknowledgements, and the notification
stream (R342 to R348, R352, R356).
-/

namespace Sys2Proof.Machine

/-! ## Acceptance (R343, R356) -/

/-- The header of Table 15-1 with a type, and at least `n` bytes after it. -/
def headerOk (d : List Byte) (type n : Nat) : Bool :=
  20 + n ≤ d.length && be d 0 2 == 0x4D44 && be d 2 1 == 1 && be d 3 1 == type

/-- MDP_MALFORMED. -/
def State.malformed (s : State) (r : Route) (type : Nat) : State :=
  s.mdpViolation.logRated F.MDP_MALFORMED 0 R.mdp 0 (fun _ => leBytes 1 r.mp ++ leBytes 1 type) false

/-- The open session with an identity. -/
def State.sessionOf (s : State) (id : Nat) : Option Nat :=
  (List.range 8).find? fun i => (s.session i).present && (s.session i).id.toNat == id

/-- CTR is above every one accepted, or lies within the 64 below the highest and has not been accepted (R343). -/
def Session.ctrNew (x : Session) (ctr : Nat) : Bool :=
  1 ≤ ctr && (x.rxHigh < ctr || (x.rxHigh ≤ ctr + 64 && ctr ≠ x.rxHigh && !x.rxSeen.contains ctr))

/-- CTR is accepted. -/
def Session.take (x : Session) (ctr : Nat) : Session :=
  let high := max x.rxHigh ctr
  { x with rxHigh := high, rxSeen := (ctr :: x.rxSeen).filter fun c => high ≤ c + 64 }

/-- The port of a route can receive, and sessions are possible. -/
def State.mdpHears (s : State) (r : Route) : Bool := s.mdpOn && (s.port r.mp).state == .up

/-- A protected datagram: its session, its SEQ and its plaintext when it is accepted; otherwise it is discarded, counted and
logged without an answer. -/
def State.acceptDatagram (s : State) (r : Route) (type least : Nat) (d : List Byte) : State × Option (Nat × Nat × List Byte) :=
  let ctr := be d 12 8
  if !headerOk d type (16 + least) then (s.malformed r (be d 3 1), none)
  else match s.sessionOf (be d 4 4) with
    | none => (s.mdpViolation.logRated F.MDP_NO_SESSION 0 R.mdp 0 (fun _ => leBytes 4 (be d 4 4)) false, none)
    | some i =>
      let x := s.session i
      let id := x.id.toNat
      match gcmOpen x.key (mdpNonce false ctr) (d.take 20) (d.drop 20) with
      | none => (((s.count R.mdp_AUTH_FAIL).logRated F.MDP_AUTH id R.mdp 0 (fun n => leBytes 4 id ++ leBytes 4 n) false).event R.mdp_EVENTS 4, none)
      | some body =>
        if !x.ctrNew ctr then ((s.count R.mdp_REPLAYS).mdpLog F.MDP_REPLAY i (leBytes 8 ctr), none)
        else if ctrLimit < ctr then (s.endSession i 6, none)
        else ((s.setSession i { x.take ctr with route := r, lastAt := s.now }).count (R.mp_MDP_RX (b2n r.m1)), some (i, be d 8 4, body))

/-- A protected datagram of a row: what is accepted is handled. -/
def State.onDatagram (s : State) (r : Route) (type least : Nat) (d : List Byte) (f : State → Nat → Nat → List Byte → State) : State :=
  if s.mdpHears r then
    match s.acceptDatagram r type least d with
    | (t, some (i, seq, body)) => f t i seq body
    | (t, none) => t
  else s

/-! ## Requests, acknowledgements and CLOSE (R346, R348, R352) -/

/-- A request by its SEQ: executed in its turn, answered again, or a violation. -/
def State.onRequest (s : State) (r : Route) (i n : Nat) (body : List Byte) : State :=
  let x := s.session i
  if x.executed < n then
    if n ≤ x.executed + s.mdpWindow then
      State.runHeld i 64 (s.modSession i fun x => { x with held := ⟨n, body, r⟩ :: x.held.filter fun h => h.seq != n })
    else s.mdpViolation
  else match x.answers.find? fun a => a.seq == n with
    | some a => (s.count R.mdp_RETX).mdpSend i r 4 n a.body
    | none => s.mdpViolation

/-- MDP_REQUEST (R343, R348, R350). -/
def execMdpRequest (route : Route) (datagram : List Byte) (s : State) : Out :=
  .next (s.onDatagram route 3 4 datagram fun s i n body => s.onRequest route i n body)

/-- MDP_ACK (R352): every NOTIFY up to SEQ has been received; a NOTIFY that has not been sent is a violation. -/
def execMdpAck (route : Route) (datagram : List Byte) (s : State) : Out :=
  .next (s.onDatagram route 6 0 datagram fun s i n _ =>
    if (s.session i).nextNotify ≤ n then s.mdpViolation
    else s.modSession i fun x => { x with notifies := x.notifies.filter fun m => n < m.seq })

/-- MDP_CLOSE (R346): the session ends once the requests up to SEQ have been answered. -/
def execMdpClose (route : Route) (datagram : List Byte) (s : State) : Out :=
  .next (s.onDatagram route 7 0 datagram fun s i n _ => (s.modSession i fun x => { x with closing := some n }).closeCheck i)

/-! ## OPEN and IDENTIFY (R344, R345) -/

/-- One more of a kind in the running second: the new count, and whether it stays within the rate. -/
def State.inRate (s : State) (x : Nat × Nat) : (Nat × Nat) × Bool :=
  let second := s.now / sec 1
  let n := if x.1 = second then x.2 + 1 else 1
  ((second, n), n ≤ s.openRate)

/-- An unprotected datagram to a host, limited with the other answers of R344 and R345. -/
def State.mdpReply (s : State) (r : Route) (type : Nat) (body : List Byte) : State :=
  let x := s.inRate s.mdp.replies
  if x.2 then (s.modMdp fun m => { m with replies := x.1 }).sendDatagram r (mdpHeader type 0 0 0 ++ body) else s

/-- MDP_IDENTIFY (R344): the device certificate answers a body of at least 1,056 zero bytes. -/
def execMdpIdentify (route : Route) (datagram : List Byte) (s : State) : Out :=
  if !s.mdpHears route then .next s
  else if headerOk datagram 9 1056 && (datagram.drop 20).all fun b => b == 0 then
    .next ((s.count (R.mp_MDP_RX (b2n route.m1))).mdpReply route 10 Config.deviceCertificate)
  else .next (s.malformed route (be datagram 3 1))

/-- An OPEN as its fields (Table 15-3). -/
structure Opening where
  slot  : Nat
  time  : Nat
  block : List Byte
  sig   : List Byte
  /-- header bytes 0 to 19 and body bytes 0 to 523 -/
  signed : List Byte

def openingOf (d : List Byte) : Opening :=
  { slot := be d 20 1, time := be d 24 8, block := (d.drop 32).take 512, sig := (d.drop 544).take 512, signed := d.take 544 }

/-- The fingerprint of KEY_BLOCK that freshness compares. -/
def Opening.print (o : Opening) : List Byte := (Config.sha512 o.block).take 8

/-- The outcome of steps 2 to 8 of R345: the session key, or the step that fails with its REASON. -/
def State.openCheck (s : State) (o : Opening) : Except (Nat × Nat) (List Byte) :=
  let enrol := o.slot == 0xFF
  let x := s.slot o.slot
  if enrol && !s.unowned then .error (2, 4)
  else if enrol && s.mdp.enrolLocked then .error (2, 3)
  else if !enrol && (3 < o.slot || !x.present) then .error (2, 1)
  else if !enrol && !Config.pssVerify x.modulus x.exponent o.signed o.sig then .error (3, 1)
  else if s.clock.seeded && decide (30000000000 < ((o.time : Int) - s.ptpNs).natAbs) then .error (4, 1)
  else if s.mdp.fresh.any fun e => e.1 == o.print && decide (s.now < e.2 + sec 60) then .error (5, 1)
  else match Config.oaepDecrypt o.block with
    | none => .error (6, 1)
    | some k =>
      if k.length ≠ (if enrol then 40 else 32) then .error (6, 1)
      else if enrol && be k 32 8 != Config.enrolCode.toNat then .error (7, 1)
      else if s.maxSessions ≤ s.openSessions then .error (8, 2)
      else .ok (k.take 32)

/-- An enrolment OPEN that fails at step 6 or 7 counts; the fifth since reset locks (R354). -/
def State.enrolFailed (s : State) : State :=
  let n := s.mdp.enrolFails + 1
  let s := (s.modMdp fun m => { m with enrolFails := n }).log F.OWN_ENROL_FAIL R.mdp (leBytes 4 n)
  if n = 5 then ((s.modMdp fun m => { m with enrolLocked := true }).log F.OWN_ENROL_LOCK R.mdp []).ownEvent else s

/-- An OPEN fails at a step from 2 on. -/
def State.openFails (s : State) (r : Route) (o : Opening) (step reason : Nat) : State :=
  let s := ((s.count R.mdp_OPEN_FAILS).event R.mdp_EVENTS 2).log F.MDP_OPEN_FAIL R.mdp (leBytes 1 o.slot ++ leBytes 1 step ++ leBytes 1 r.mp)
  let s := if o.slot = 0xFF ∧ (step = 6 ∨ step = 7) then s.enrolFailed else s
  s.mdpReply r 8 (beBytes 2 reason ++ beBytes 2 0 ++ beBytes 8 o.time)

/-- A random non-zero session identity. -/
def sessionId (n : Nat) : Word := w32 (1 + (Config.randomSession n).toNat % 0xFFFFFFFF)

/-- OPEN_ACK (Table 15-4). -/
def State.openAck (s : State) (rights time : Nat) : List Byte :=
  beBytes 1 rights ++ beBytes 1 s.mdpWindow ++ beBytes 2 0 ++ beBytes 2 s.idleS ++ beBytes 2 0 ++ beBytes 8 s.stamp.toNat ++
    beBytes 8 s.im.configId.toNat ++ beBytes 8 keyIdNo ++ beBytes 8 time

/-- The session is created in the first free place. -/
def State.openSession (s : State) (r : Route) (o : Opening) (key : List Byte) : State :=
  match (List.range 8).find? fun i => !(s.session i).present with
  | none => s
  | some i =>
    let rights := if o.slot = 0xFF then 0 else (s.slot o.slot).perms % 8
    let id := sessionId s.mdp.draws
    let keep := s.mdp.fresh.filter fun e => decide (s.now < e.2 + sec 60)
    let s := s.modMdp fun m => { m with draws := m.draws + 1, fresh := (o.print, s.now) :: keep }
    let s := s.setSession i { present := true, id := id, key := key, slot := o.slot, rights := rights, route := r, lastAt := s.now }
    let s := s.count (R.mp_MDP_RX (b2n r.m1))
    let s := ((s.count R.mdp_OPENS).event R.mdp_EVENTS 1).log F.MDP_SESSION_OPEN R.mdp (leBytes 4 id.toNat ++ leBytes 1 o.slot ++ leBytes 1 r.mp)
    s.mdpSend i r 2 0 (s.openAck rights o.time)

/-- MDP_OPEN (R345). -/
def execMdpOpen (route : Route) (datagram : List Byte) (s : State) : Out :=
  if !s.mdpHears route then .next s
  else if !headerOk datagram 1 1036 then .next (s.malformed route (be datagram 3 1))
  else
    let o := openingOf datagram
    let x := s.inRate s.mdp.opens
    let s := s.modMdp fun m => { m with opens := x.1 }
    if !x.2 then
      .next (((s.count R.mdp_OPEN_FAILS).event R.mdp_EVENTS 2).logRated F.MDP_OPEN_FAIL 0 R.mdp 0
        (fun _ => leBytes 1 o.slot ++ leBytes 1 1 ++ leBytes 1 route.mp) false)
    else match s.openCheck o with
      | .error (step, reason) => .next (s.openFails route o step reason)
      | .ok key => .next (s.openSession route o key)

/-! ## Notifications (R352) -/

/-- One record of a NOTIFY. -/
def notifyRecord (kind : Nat) (content : List Byte) : List Byte :=
  beBytes 1 kind ++ beBytes 7 0 ++ ((content ++ List.replicate 32 0).take 32)

/-- Records that a NOTIFY on a route can hold. -/
def State.notifyRoom (s : State) (r : Route) : Nat :=
  min 32 ((s.mpMtu r.m1 - (20 + 4 + 16 + 8 + (if isV4 r.addr then 20 else 40) + 18)) / 40)

/-- A NOTIFY with its records is formed and sent. -/
def State.notify (s : State) (i : Nat) (recs : List (List Byte)) : State :=
  let x := s.session i
  let body := beBytes 1 recs.length ++ beBytes 3 0 ++ recs.flatten
  (s.modSession i fun x => { x with notifies := x.notifies ++ [⟨x.nextNotify, body, s.now⟩], nextNotify := x.nextNotify + 1 }).mdpSend i x.route 5
    x.nextNotify body

/-- Up to `room` entries of the stream from a sequence number on, oldest first, and the number to go on from. Numbers wrap at 2^32
(R381), so they compare under R3's rule for 32 bits. -/
def takeEntries (minSev : Nat) : Nat → Nat → List Entry → List Entry × Nat
  | _, next, [] => ([], next)
  | 0, next, _ => ([], next)
  | room + 1, next, e :: r =>
    if newer32 next e.seq then takeEntries minSev (room + 1) next r
    else if e.sev < minSev then takeEntries minSev (room + 1) ((e.seq + 1) % 0x100000000) r
    else
      let x := takeEntries minSev room ((e.seq + 1) % 0x100000000) r
      (e :: x.1, x.2)

/-- NOTIFY_SEND (R352): the entries due are sent; entries that have left the ledger are reported in one LOSS record. -/
def execNotifySend (session : Fin 8) (s : State) : Out :=
  let i := session.val
  let x := s.session i
  match x.sub with
  | none => .next s
  | some b =>
    if !x.present || 64 ≤ x.notifies.length then .next s
    else
      let oldest := match s.ledger.store.getLast? with | some e => e.seq | none => s.ledger.nextSeq
      let lost := newer32 oldest b.next
      let last := (oldest + 0xFFFFFFFF) % 0x100000000
      let room := s.notifyRoom x.route - b2n lost
      let (es, next) := takeEntries b.minSev room (if lost then oldest else b.next) s.ledger.store.reverse
      let loss : List (List Byte) := if lost then [notifyRecord 2 (beBytes 4 b.next ++ beBytes 4 last)] else []
      let recs := loss ++ es.map fun e => notifyRecord 1 (entryBytes e)
      let next := if newer32 b.next s.ledger.nextSeq then b.next else next
      let s := s.modSession i fun y => { y with sub := some { b with next := next } }
      let s := if lost then
          ((s.countBy R.mdp_NOTIFY_LOST ((oldest + 0x100000000 - b.next) % 0x100000000)).event R.mdp_EVENTS 16).log F.NOTIFY_LOSS R.mdp
            (leBytes 4 x.id.toNat ++ leBytes 4 b.next ++ leBytes 4 last)
        else s
      if recs.isEmpty then .next s else .next (s.notify i recs)

/-- NOTIFY_RETX (R352): the oldest NOTIFY without an ACK is sent again every RETX_MS. -/
def execNotifyRetx (session : Fin 8) (s : State) : Out :=
  let i := session.val
  let x := s.session i
  match x.notifies with
  | [] => .next s
  | n :: r =>
    if x.present ∧ s.due (n.sentAt + ms s.retxMs) then
      .next ((s.modSession i fun y => { y with notifies := { n with sentAt := s.now } :: r }).mdpSend i x.route 5 n.seq n.body)
    else .next s

/-- Content of a STATE record. -/
def State.stateContent (s : State) : List Byte :=
  beBytes 8 s.stamp.toNat ++ beBytes 8 s.im.configId.toNat ++ beBytes 1 (servoCode s.servo.state) ++
    beBytes 1 (b2n s.clock.seeded + 2 * b2n s.ledger.safe) ++ beBytes 1 s.roleNo

/-- STATE_NOTIFY (R352): a STATE record once per second. -/
def execStateNotify (session : Fin 8) (s : State) : Out :=
  let i := session.val
  let x := s.session i
  match x.sub with
  | none => .next s
  | some b =>
    if x.present ∧ b.state = true ∧ x.notifies.length < 64 ∧ s.due (b.stateAt + sec 1) then
      let s := s.modSession i fun y => { y with sub := some { b with stateAt := s.now } }
      .next (s.notify i [notifyRecord 3 s.stateContent])
    else .next s

/-- A datagram as its TYPE names its row; other types are malformed. -/
def State.mdpDatagram (s : State) (r : Route) (d : List Byte) : State :=
  match be d 3 1 with
  | 1 => doing (execMdpOpen r d) s
  | 3 => doing (execMdpRequest r d) s
  | 6 => doing (execMdpAck r d) s
  | 7 => doing (execMdpClose r d) s
  | 9 => doing (execMdpIdentify r d) s
  | t => if s.mdpHears r then s.malformed r t else s

end Sys2Proof.Machine
end

