-- ==== Sys2Proof/Machine/Frame.lean ====
section
/-!
DEFINITION. Received Ethernet frames (R86, R87, R106, R108, R113, R172, R340): what a port accepts, what it answers itself, and where
the rest goes.
-/

namespace Sys2Proof.Machine

/-! ## Ports as the network sees them -/

/-- Ethernet multicast address of an IP group. -/
def groupMac (a : Nat) : Nat := if isV4 a then 0x01005E000000 + a % 2 ^ 23 else 0x333300000000 + a % 2 ^ 32

/-- A PTP instance is bound to the port (R27). -/
def State.ptpAt (s : State) (p : Nat) : Bool := (List.range (min 6 s.ptpCount)).any fun i => s.ptpField i 0 1 == p

/-- Groups whose frames a port takes: those joined, and those that its own protocols need (all hosts, all nodes, solicited node,
PTP). -/
def State.portGroups (s : State) (p : Nat) : List Nat :=
  (s.port p).joined.map (fun j => groupMac j.1) ++ [0x01005E000001, 0x333300000001] ++
    ((s.portAddrs p).filter fun a => !isV4 a).map (fun a => 0x3333FF000000 + a % 2 ^ 24) ++
    (if s.ptpAt p then [0x01005E000181, 0x01005E00006B, 0x333300000181, 0x33330000006B] else [])

/-- The port takes a destination address (R87). -/
def State.takesMac (s : State) (p mac : Nat) : Bool := mac == s.portMac p || mac == 0xFFFFFFFFFFFF || (s.portGroups p).contains mac

/-- Count a dropped frame of a port, and an accepted one. -/
def State.rxDrop (s : State) (p : Nat) : State := s.count (if p < 32 then R.port_RX_DROP p else R.mp_RX_DROP (p - 32))
def State.rxFrame (s : State) (p : Nat) : State := s.count (if p < 32 then R.port_RX_FRAMES p else R.mp_RX_FRAMES (p - 32))

/-! ## Internet headers -/

/-- A UDP packet: addresses (IPv4 as ::ffff:a.b.c.d), ports, payload, and the packet from its IP header to the end of its payload. -/
structure Udp where
  src : Nat
  dst : Nat
  sport : Nat
  dport : Nat
  payload : List Byte
  packet : List Byte

/-- An IP packet: addresses, protocol, offset of its contents within the packet, and the packet. -/
structure IpPacket where
  src : Nat
  dst : Nat
  proto : Nat
  offset : Nat
  packet : List Byte

/-- The IP packet of a frame; fragments are none. -/
def ipOf (f : List Byte) : Option IpPacket :=
  let q := f.drop 14
  if be f 12 2 = 0x0800 then
    let h := 4 * (be q 0 1 % 16)
    if be q 0 1 / 16 = 4 ∧ 20 ≤ h ∧ h ≤ be q 2 2 ∧ be q 2 2 ≤ q.length ∧ be q 6 2 % 0x4000 = 0 then
      some ⟨0xFFFF * 2 ^ 32 + be q 12 4, 0xFFFF * 2 ^ 32 + be q 16 4, be q 9 1, h, q.take (be q 2 2)⟩
    else none
  else if be f 12 2 = 0x86DD then
    let n := 40 + be q 4 2
    if be q 0 1 / 16 = 6 ∧ n ≤ q.length then
      let hop := be q 6 1 == 0 && decide (48 ≤ n)
      some ⟨be q 8 16, be q 24 16, if hop then be q 40 1 else be q 6 1, if hop then 48 + 8 * be q 41 1 else 40, q.take n⟩
    else none
  else none

/-- The UDP packet of an IP packet. -/
def udpOf (x : IpPacket) : Option Udp :=
  let u := x.packet.drop x.offset
  if x.proto = 17 ∧ 8 ≤ be u 4 2 ∧ be u 4 2 ≤ u.length then
    some ⟨x.src, x.dst, be u 0 2, be u 2 2, (u.take (be u 4 2)).drop 8, x.packet.take (x.offset + be u 4 2)⟩
  else none

/-- Pad a frame to 60 bytes, 64 with the FCS. -/
def padFrame (f : List Byte) : List Byte := f ++ List.replicate (60 - f.length) 0

/-! ## Answers of a port (R87, R172) -/

/-- The ARP answer to a request for one of the addresses. -/
def arpReply (mac : Nat) (own : List Nat) (f : List Byte) : Option (List Byte) :=
  let q := f.drop 14
  if be f 12 2 = 0x0806 ∧ be q 0 8 = 0x0001080006040001 ∧ own.contains (0xFFFF * 2 ^ 32 + be q 24 4) then
    some (padFrame ((q.drop 8).take 6 ++ beBytes 6 mac ++ beBytes 2 0x0806 ++ beBytes 8 0x0001080006040002 ++ beBytes 6 mac ++ (q.drop 24).take 4 ++
      (q.drop 8).take 10))
  else none

/-- The ICMP echo answer. -/
def echoReply4 (mac : Nat) (f : List Byte) (x : IpPacket) : List Byte :=
  let q := x.packet
  let u := q.drop x.offset
  let m := beBytes 2 0 ++ beBytes 2 0 ++ u.drop 4
  let head := q.take 8 ++ [64, 1] ++ beBytes 2 0 ++ (q.drop 16).take 4 ++ (q.drop 12).take 4 ++ (q.take x.offset).drop 20
  padFrame ((f.drop 6).take 6 ++ beBytes 6 mac ++ beBytes 2 0x0800 ++ head.take 10 ++ inetCheck head ++ head.drop 12 ++
    m.take 2 ++ inetCheck m ++ m.drop 4)

/-- An ICMPv6 packet in a frame with its checksum. -/
def icmp6Frame (dstMac mac : List Byte) (src dst hop : Nat) (m : List Byte) : List Byte :=
  let a := beBytes 16 src ++ beBytes 16 dst
  let check := inetCheck (a ++ beBytes 4 m.length ++ beBytes 4 58 ++ m)
  padFrame (dstMac ++ mac ++ beBytes 2 0x86DD ++ beBytes 4 0x60000000 ++ beBytes 2 m.length ++ beBytes 1 58 ++ beBytes 1 hop ++ a ++
    m.take 2 ++ check ++ m.drop 4)

/-- The ICMPv6 answer to an echo request or a neighbour solicitation for one of the addresses. -/
def icmp6Reply (mac : Nat) (own : List Nat) (f : List Byte) (x : IpPacket) : Option (List Byte) :=
  let u := x.packet.drop x.offset
  let peer := (f.drop 6).take 6
  match be u 0 1 with
  | 128 => if own.contains x.dst then some (icmp6Frame peer (beBytes 6 mac) x.dst x.src 64 (beBytes 1 129 ++ beBytes 3 0 ++ u.drop 4)) else none
  | 135 =>
    let target := be u 8 16
    let m (flags : Nat) := beBytes 1 136 ++ beBytes 3 0 ++ beBytes 4 flags ++ beBytes 16 target ++ beBytes 2 0x0201 ++ beBytes 6 mac
    if !own.contains target then none
    else if x.src = 0 then some (icmp6Frame (beBytes 6 0x333300000001) (beBytes 6 mac) target (0xFF02 * 2 ^ 112 + 1) 255 (m 0x20000000))
    else some (icmp6Frame peer (beBytes 6 mac) target x.src 255 (m 0x60000000))
  | _ => none

/-- The answer that a port gives itself to ARP, neighbour discovery or echo for its own addresses. -/
def State.ownAnswer (s : State) (p : Nat) (f : List Byte) : Option (List Byte) :=
  let mac := s.portMac p
  let own := s.portAddrs p
  match arpReply mac own f with
  | some r => some r
  | none => match ipOf f with
    | some x =>
      if x.proto = 1 ∧ isV4 x.dst ∧ own.contains x.dst ∧ be (x.packet.drop x.offset) 0 2 = 0x0800 then some (echoReply4 mac f x)
      else if x.proto = 58 ∧ !isV4 x.dst then icmp6Reply mac own f x
      else none
    | none => none

/-- A frame of this traffic: ARP, neighbour discovery or echo. -/
def helperFrame (f : List Byte) : Bool :=
  be f 12 2 == 0x0806 ||
  match ipOf f with
  | some x =>
    let t := be (x.packet.drop x.offset) 0 1
    (isV4 x.dst && x.proto == 1 && t == 8) || (!isV4 x.dst && x.proto == 58 && (t == 128 || (133 ≤ t && t ≤ 137)))
  | none => false

/-- The port carries a path of an enabled channel (R172). -/
def State.carriesCurds (s : State) (p : Nat) : Bool := (List.range 48).any fun c => s.chanOn c && (s.chanPorts c).contains p

/-- An answer is sent, at most 1,000 per second, and on a port with a curd stream none of more than 256 line bytes. -/
def State.answerFrame (s : State) (p : Nat) (f : List Byte) : State :=
  let second := s.now / sec 1
  let n := if (s.port p).answers.1 = second then (s.port p).answers.2 else 0
  if 1000 ≤ n ∨ (s.carriesCurds p = true ∧ 256 < f.length + 24) then s.rxDrop p
  else
    let s := (s.rxFrame p).modPort p fun x => { x with answers := (second, n + 1) }
    s.sendOther p (f.length + 24) (.eth p f)

/-- A general or group query of IGMP or MLD: the group asked for, or 0. -/
def queryOf (f : List Byte) : Option Nat :=
  match ipOf f with
  | some x =>
    let u := x.packet.drop x.offset
    if isV4 x.dst ∧ x.proto = 2 ∧ be u 0 1 = 0x11 then some (if be u 4 4 = 0 then 0 else 0xFFFF * 2 ^ 32 + be u 4 4)
    else if !isV4 x.dst ∧ x.proto = 58 ∧ be u 0 1 = 130 then some (be u 8 16)
    else none
  | none => none

/-- The reports that answer a query (R113). -/
def State.answerQuery (s : State) (p group : Nat) : State :=
  ((s.port p).joined.filter fun j => group == 0 || j.1 == group).foldl (fun s j => s.sendReport p j.1 j.2 true) s

/-! ## Flows (R106 to R108) -/

/-- The ingress tile of a flow's channel or surface is in service. -/
def State.ingressUp (s : State) (e : FtEntry) : Bool :=
  match e.kind with
  | 1 => s.inService 1 (4 + s.chanTile e.target)
  | 2 => match s.surfPlan e.target with | some p => s.inService 1 (4 + p.tile) | none => false
  | _ => true

/-- The queue of a packet's flow takes it (Table 5-2): the state, and whether the packet was discarded. -/
def State.deliverFlow (s : State) (i p : Nat) (e : FtEntry) (f : List Byte) (u : Udp) : State × Bool :=
  if !s.ingressUp e then (s, true)
  else match e.kind with
    | 1 => s.mediaPacket i p e u.payload
    | 2 => s.surfacePacket i p e u.payload
    | 3 => s.ringDeliver (e.target % 64) i p f
    | 4 => s.tapDeliver (e.target % 64) i p u.packet
    | _ => (s, true)

/-- A UDP packet looks up its flow. One that no entry of its port takes is counted in FT_UNKNOWN, and reaches ring 0 only where no
entry has its key (R108, R128). -/
def State.flowPacket (s : State) (p : Nat) (f : List Byte) (u : Udp) : State :=
  if !s.inService 1 8 then s
  else match s.flowLookup u.dst u.src u.dport p with
    | none =>
      let s := s.count R.ft_FT_UNKNOWN
      if bit (s.reg R.ft_FT_CTRL).toNat 0 && !s.flowKnown u.dst u.src u.dport then (s.ringDeliver 0 0 p f).1 else s
    | some i =>
      let s := s.modEntry i fun e => { e with pkts := min 0xFFFFFFFF (e.pkts + 1) }
      let x := s.deliverFlow i p (s.ftEntry i) f u
      (if x.2 then x.1.modEntry i fun e => { e with drops := min 0xFFFFFFFF (e.drops + 1) } else x.1).pairReadyCheck

/-- ARP, neighbour discovery and echo: answered for the port's own addresses. -/
def State.helperRx (s : State) (p : Nat) (f : List Byte) : State :=
  match s.ownAnswer p f with
  | some r => s.answerFrame p r
  | none => s.rxFrame p

/-- PTP at a port with an instance: its messages reach the instance as PTP_MESSAGE_RX. -/
def State.isPtp (s : State) (p : Nat) (u : Udp) : Bool := (u.dport == 319 || u.dport == 320) && s.ptpAt p

/-- What a frame of a media port is (R106); pair-link datagrams reach the pair block as rows of their own. -/
def State.mediaRx (s : State) (p : Nat) (f : List Byte) : State :=
  if helperFrame f then s.helperRx p f
  else match queryOf f with
    | some g => (s.rxFrame p).answerQuery p g
    | none => match (ipOf f).bind udpOf with
      | none => s.rxDrop p
      | some u =>
        if s.isPtp p u || (u.dport == 47810 && s.pairPorts.contains p) then s.rxFrame p
        else (s.rxFrame p).flowPacket p f u

/-- What a frame of M0 or M1 is (R340). -/
def State.managementRx (s : State) (m1 : Bool) (f : List Byte) : State :=
  let p := 32 + b2n m1
  if helperFrame f then s.helperRx p f
  else match (ipOf f).bind udpOf with
    | none => s.rxDrop p
    | some u =>
      if s.isPtp p u then s.rxFrame p
      else if u.dport = 47800 ∧ (s.portAddrs p).contains u.dst then (s.rxFrame p).mdpDatagram ⟨m1, u.src, u.sport⟩ u.payload
      else s.rxDrop p

/-- FRAME_RX (R87, R106, R340): a frame, without its FCS, arrives at a port that is UP. -/
def execFrameRx (port : Fin 34) (bytes : List Byte) (fcsOk : Bool) (s : State) : Out :=
  let p := port.val
  let n := bytes.length + 4
  if !(s.running && (s.port p).state == .up) then .next s
  else if !fcsOk then .next (s.count (if p < 32 then R.port_RX_FCS_ERR p else R.mp_RX_FCS_ERR (p - 32)))
  else if n < 64 ∨ s.portMtu p < n ∨ s.takesMac p (be bytes 0 6) = false then .next (s.rxDrop p)
  else
    .next (if p < 32 then s.mediaRx p bytes else s.managementRx (p == 33) bytes)

end Sys2Proof.Machine
end

