-- ==== Sys2Proof/Machine/Dispatch.lean ====
section
/-!
DEFINITION. One arm for every command: a call of its meaning, or its refusal by name while it has none.
-/

namespace Sys2Proof.Machine

/-- The effect of a command on everything but the queue. -/
def exec (i : Instr) (s : State) : Host.Outcome State Fault Refusal :=
  match i with
  | .registerWrite agent addr value => Sys2Proof.Machine.execRegisterWrite agent addr value s
  | .ptpMessageRx inst datagram => Sys2Proof.Machine.execPtpMessageRx inst datagram s
  | .delayReqTx inst => Sys2Proof.Machine.execDelayReqTx inst s
  | .syncTimeout inst => Sys2Proof.Machine.execSyncTimeout inst s
  | .announceTimeout inst => Sys2Proof.Machine.execAnnounceTimeout inst s
  | .leadingSyncTx inst => Sys2Proof.Machine.execLeadingSyncTx inst s
  | .leadingAnnounceTx inst => Sys2Proof.Machine.execLeadingAnnounceTx inst s
  | .suspectClr agent => Sys2Proof.Machine.execSuspectClr agent s
  | .forceHold agent on => Sys2Proof.Machine.execForceHold agent on s
  | .monitorWindowEnd clock periods => Sys2Proof.Machine.execMonitorWindowEnd clock periods s
  | .monitorEdgeTimeout clock => Sys2Proof.Machine.execMonitorEdgeTimeout clock s
  | .rennetPoint stamp => Sys2Proof.Machine.execRennetPoint stamp s
  | .stampLoRead agent => Sys2Proof.Machine.execStampLoRead agent s
  | .armHiWrite agent pin value => Sys2Proof.Machine.execArmHiWrite agent pin value s
  | .tioPulseEdge pin => Sys2Proof.Machine.execTioPulseEdge pin s
  | .tioPulseEnd pin => Sys2Proof.Machine.execTioPulseEnd pin s
  | .tioInputTransition pin level => Sys2Proof.Machine.execTioInputTransition pin level s
  | .tioLevelQualified pin => Sys2Proof.Machine.execTioLevelQualified pin s
  | .tioStuckTimeout pin => Sys2Proof.Machine.execTioStuckTimeout pin s
  | .tioRelease agent pin => Sys2Proof.Machine.execTioRelease agent pin s
  | .tioFlush agent pin => Sys2Proof.Machine.execTioFlush agent pin s
  | .capLoRead agent pin => Sys2Proof.Machine.execCapLoRead agent pin s
  | .slotCheck agent slot => Sys2Proof.Machine.execSlotCheck agent slot s
  | .validationDone slot => Sys2Proof.Machine.execValidationDone slot s
  | .slotCtrlClear agent slot => Sys2Proof.Machine.execSlotCtrlClear agent slot s
  | .commitIssue agent => Sys2Proof.Machine.execCommitIssue agent s
  | .ripenDone domain tile failedStage => Sys2Proof.Machine.execRipenDone domain tile failedStage s
  | .goPoint ticket => Sys2Proof.Machine.execGoPoint ticket s
  | .commitCancel agent ticket => Sys2Proof.Machine.execCommitCancel agent ticket s
  | .floorRaise agent value => Sys2Proof.Machine.execFloorRaise agent value s
  | .stagedWrite session addr value => Sys2Proof.Machine.execStagedWrite session addr value s
  | .fwAliveTimeout processor => Sys2Proof.Machine.execFwAliveTimeout processor s
  | .fwConfirm agent processor => Sys2Proof.Machine.execFwConfirm agent processor s
  | .fwRevert agent processor => Sys2Proof.Machine.execFwRevert agent processor s
  | .bootWrite agent bank slot => Sys2Proof.Machine.execBootWrite agent bank slot s
  | .bootPrefer agent bank => Sys2Proof.Machine.execBootPrefer agent bank s
  | .frameRx port bytes fcsOk => Sys2Proof.Machine.execFrameRx port bytes fcsOk s
  | .ftAdd agent => Sys2Proof.Machine.execFtAdd agent s
  | .ftRemove agent => Sys2Proof.Machine.execFtRemove agent s
  | .ftRead agent => Sys2Proof.Machine.execFtRead agent s
  | .ftLookup agent => Sys2Proof.Machine.execFtLookup agent s
  | .ringEnable agent ring size => Sys2Proof.Machine.execRingEnable agent ring size s
  | .inputLossTimeout channel => Sys2Proof.Machine.execInputLossTimeout channel s
  | .stripeGapTimeout channel => Sys2Proof.Machine.execStripeGapTimeout channel s
  | .mergeSkewTimeout flow seq => Sys2Proof.Machine.execMergeSkewTimeout flow seq s
  | .pathSilenceTimeout flow pathB => Sys2Proof.Machine.execPathSilenceTimeout flow pathB s
  | .surfaceFrameClose surface frame => Sys2Proof.Machine.execSurfaceFrameClose surface frame s
  | .surfaceCloseTimeout surface frame => Sys2Proof.Machine.execSurfaceCloseTimeout surface frame s
  | .laneSignalDetect lane => Sys2Proof.Machine.execLaneSignalDetect lane s
  | .laneAdaptConverged lane fom => Sys2Proof.Machine.execLaneAdaptConverged lane fom s
  | .pcsLock port => Sys2Proof.Machine.execPcsLock port s
  | .portUp port => Sys2Proof.Machine.execPortUp port s
  | .bringupStepTimeout port => Sys2Proof.Machine.execBringupStepTimeout port s
  | .backoffRetry port => Sys2Proof.Machine.execBackoffRetry port s
  | .adaptStep lane before after => Sys2Proof.Machine.execAdaptStep lane before after s
  | .laneLowFom lane => Sys2Proof.Machine.execLaneLowFom lane s
  | .fomBelowMin lane => Sys2Proof.Machine.execFomBelowMin lane s
  | .pcsAlignmentLoss port => Sys2Proof.Machine.execPcsAlignmentLoss port s
  | .fecUncorrBurst port codewords => Sys2Proof.Machine.execFecUncorrBurst port codewords s
  | .linkFaultPersist port remote => Sys2Proof.Machine.execLinkFaultPersist port remote s
  | .fecDegrade port symbols codewords corrected => Sys2Proof.Machine.execFecDegrade port symbols codewords corrected s
  | .optRemoved bus => Sys2Proof.Machine.execOptRemoved bus s
  | .optInserted bus => Sys2Proof.Machine.execOptInserted bus s
  | .optModuleReady event => Sys2Proof.Machine.execOptModuleReady event s
  | .portAdmin agent port admin => Sys2Proof.Machine.execPortAdmin agent port admin s
  | .retryNow agent port => Sys2Proof.Machine.execRetryNow agent port s
  | .laneLoop agent lane loop => Sys2Proof.Machine.execLaneLoop agent lane loop s
  | .lanePrbs agent lane prbs => Sys2Proof.Machine.execLanePrbs agent lane prbs s
  | .laneFreeze agent lane freeze => Sys2Proof.Machine.execLaneFreeze agent lane freeze s
  | .fomRead agent lane => Sys2Proof.Machine.execFomRead agent lane s
  | .optPoll bus reading => Sys2Proof.Machine.execOptPoll bus reading s
  | .optCmd agent bus value => Sys2Proof.Machine.execOptCmd agent bus value s
  | .optCmdDone bus ack data => Sys2Proof.Machine.execOptCmdDone bus ack data s
  | .optSdaStuck bus freed => Sys2Proof.Machine.execOptSdaStuck bus freed s
  | .optResetBus agent bus => Sys2Proof.Machine.execOptResetBus agent bus s
  | .laneTakeCurd channel take => Sys2Proof.Machine.execLaneTakeCurd channel take s
  | .curdSelect channel lane => Sys2Proof.Machine.execCurdSelect channel lane s
  | .verdict channel stripe k injected => Sys2Proof.Machine.execVerdict channel stripe k injected s
  | .verdictDeadline channel stripe k => Sys2Proof.Machine.execVerdictDeadline channel stripe k s
  | .curdLateHandover channel stripe k => Sys2Proof.Machine.execCurdLateHandover channel stripe k s
  | .packedPacketTimeout channel => Sys2Proof.Machine.execPackedPacketTimeout channel s
  | .packetDepart port => Sys2Proof.Machine.execPacketDepart port s
  | .channelEovRepeat channel => Sys2Proof.Machine.execChannelEovRepeat channel s
  | .signaturePrefetchDone channel line readable => Sys2Proof.Machine.execSignaturePrefetchDone channel line readable s
  | .signatureWriteTimeout channel position => Sys2Proof.Machine.execSignatureWriteTimeout channel position s
  | .coderEccFault coder => Sys2Proof.Machine.execCoderEccFault coder s
  | .coderClockLoss coder => Sys2Proof.Machine.execCoderClockLoss coder s
  | .coderWatchdog coder => Sys2Proof.Machine.execCoderWatchdog coder s
  | .rindMove agent channel value => Sys2Proof.Machine.execRindMove agent channel value s
  | .coderRetest agent coder => Sys2Proof.Machine.execCoderRetest agent coder s
  | .coderRetire agent coder => Sys2Proof.Machine.execCoderRetire agent coder s
  | .claimForget surface => Sys2Proof.Machine.execClaimForget surface s
  | .heartbeatRx bytes => Sys2Proof.Machine.execHeartbeatRx bytes s
  | .recordsRx bytes => Sys2Proof.Machine.execRecordsRx bytes s
  | .handoverRx bytes => Sys2Proof.Machine.execHandoverRx bytes s
  | .answerRx datagram => Sys2Proof.Machine.execAnswerRx datagram s
  | .promotedChannelStart channel => Sys2Proof.Machine.execPromotedChannelStart channel s
  | .probeRx datagram => Sys2Proof.Machine.execProbeRx datagram s
  | .pairSwitch agent => Sys2Proof.Machine.execPairSwitch agent s
  | .headLineStart head fill => Sys2Proof.Machine.execHeadLineStart head fill s
  | .headFrameStart head => Sys2Proof.Machine.execHeadFrameStart head s
  | .headFrameDone head => Sys2Proof.Machine.execHeadFrameDone head s
  | .headEovRepeat head => Sys2Proof.Machine.execHeadEovRepeat head s
  | .headRetest agent head => Sys2Proof.Machine.execHeadRetest agent head s
  | .unitCheckFail scaler unit => Sys2Proof.Machine.execUnitCheckFail scaler unit s
  | .readerRetest agent reader => Sys2Proof.Machine.execReaderRetest agent reader s
  | .scalerRetest agent scaler => Sys2Proof.Machine.execScalerRetest agent scaler s
  | .audioFrameBoundary samples => Sys2Proof.Machine.execAudioFrameBoundary samples s
  | .audioSlip clock overrun => Sys2Proof.Machine.execAudioSlip clock overrun s
  | .micStuckTimeout mic => Sys2Proof.Machine.execMicStuckTimeout mic s
  | .memRequestServe channel arriving errors => Sys2Proof.Machine.execMemRequestServe channel arriving errors s
  | .memStarvationRaise channel => Sys2Proof.Machine.execMemStarvationRaise channel s
  | .refreshDue channel => Sys2Proof.Machine.execRefreshDue channel s
  | .refreshPayback channel => Sys2Proof.Machine.execRefreshPayback channel s
  | .mr4Poll channel mr4 => Sys2Proof.Machine.execMr4Poll channel mr4 s
  | .trainingDue channel => Sys2Proof.Machine.execTrainingDue channel s
  | .trainingStep channel => Sys2Proof.Machine.execTrainingStep channel s
  | .trainingForce channel => Sys2Proof.Machine.execTrainingForce channel s
  | .trainingDone channel readMargin writeMargin => Sys2Proof.Machine.execTrainingDone channel readMargin writeMargin s
  | .trainNow agent => Sys2Proof.Machine.execTrainNow agent s
  | .memChannelSilent channel => Sys2Proof.Machine.execMemChannelSilent channel s
  | .memRetire agent => Sys2Proof.Machine.execMemRetire agent s
  | .remapDone pair => Sys2Proof.Machine.execRemapDone pair s
  | .patrolScrub errors => Sys2Proof.Machine.execPatrolScrub errors s
  | .dupCopyDone region extent => Sys2Proof.Machine.execDupCopyDone region extent s
  | .surfaceWriteTimeout group surface slot frame => Sys2Proof.Machine.execSurfaceWriteTimeout group surface slot frame s
  | .recordAdmit source => Sys2Proof.Machine.execRecordAdmit source s
  | .wheelSign wheel => Sys2Proof.Machine.execWheelSign wheel s
  | .sealNow agent => Sys2Proof.Machine.execSealNow agent s
  | .exportOpen agent => Sys2Proof.Machine.execExportOpen agent s
  | .exportClose agent => Sys2Proof.Machine.execExportClose agent s
  | .exportIdleTimeout session => Sys2Proof.Machine.execExportIdleTimeout session s
  | .verify agent => Sys2Proof.Machine.execVerify agent s
  | .nandProgramFail block => Sys2Proof.Machine.execNandProgramFail block s
  | .codeFetchError processor => Sys2Proof.Machine.execCodeFetchError processor s
  | .sramUncorr processor address => Sys2Proof.Machine.execSramUncorr processor address s
  | .coreWfi processor => Sys2Proof.Machine.execCoreWfi processor s
  | .corePark agent core => Sys2Proof.Machine.execCorePark agent core s
  | .coreResume agent core => Sys2Proof.Machine.execCoreResume agent core s
  | .coreWatchdogExpire processor => Sys2Proof.Machine.execCoreWatchdogExpire processor s
  | .wdtKick agent processor => Sys2Proof.Machine.execWdtKick agent processor s
  | .coreAlive agent processor => Sys2Proof.Machine.execCoreAlive agent processor s
  | .spLockstepMismatch programCounter => Sys2Proof.Machine.execSpLockstepMismatch programCounter s
  | .irqEvent events bit => Sys2Proof.Machine.execIrqEvent events bit s
  | .irqClaim agent target => Sys2Proof.Machine.execIrqClaim agent target s
  | .irqComplete agent target source => Sys2Proof.Machine.execIrqComplete agent target source s
  | .srcCfgWrite agent source value => Sys2Proof.Machine.execSrcCfgWrite agent source value s
  | .thresholdWrite agent target value => Sys2Proof.Machine.execThresholdWrite agent target value s
  | .swiSet agent value => Sys2Proof.Machine.execSwiSet agent value s
  | .srcCntSatClear agent source => Sys2Proof.Machine.execSrcCntSatClear agent source s
  | .irqNoTarget source => Sys2Proof.Machine.execIrqNoTarget source s
  | .rtArm agent timer value => Sys2Proof.Machine.execRtArm agent timer value s
  | .rtExpire timer => Sys2Proof.Machine.execRtExpire timer s
  | .rtDisarm agent timer => Sys2Proof.Machine.execRtDisarm agent timer s
  | .chkStart agent channel => Sys2Proof.Machine.execChkStart agent channel s
  | .chkData agent channel size value => Sys2Proof.Machine.execChkData agent channel size value s
  | .chkEnd agent channel => Sys2Proof.Machine.execChkEnd agent channel s
  | .mdpOpen route datagram => Sys2Proof.Machine.execMdpOpen route datagram s
  | .mdpIdentify route datagram => Sys2Proof.Machine.execMdpIdentify route datagram s
  | .mdpRequest route datagram => Sys2Proof.Machine.execMdpRequest route datagram s
  | .mdpAck route datagram => Sys2Proof.Machine.execMdpAck route datagram s
  | .mdpClose route datagram => Sys2Proof.Machine.execMdpClose route datagram s
  | .read session addr count => Sys2Proof.Machine.execRead session addr count s
  | .write session addr values => Sys2Proof.Machine.execWrite session addr values s
  | .modify session addr mask value => Sys2Proof.Machine.execModify session addr mask value s
  | .blockRead session space offset length => Sys2Proof.Machine.execBlockRead session space offset length s
  | .blockWrite session space offset data => Sys2Proof.Machine.execBlockWrite session space offset data s
  | .subscribe session minSev flags first => Sys2Proof.Machine.execSubscribe session minSev flags first s
  | .unsubscribe session => Sys2Proof.Machine.execUnsubscribe session s
  | .attest session nonce => Sys2Proof.Machine.execAttest session nonce s
  | .enrol session operands => Sys2Proof.Machine.execEnrol session operands s
  | .slotWrite session operands => Sys2Proof.Machine.execSlotWrite session operands s
  | .slotClear session slot => Sys2Proof.Machine.execSlotClear session slot s
  | .disown session confirm => Sys2Proof.Machine.execDisown session confirm s
  | .nop session => Sys2Proof.Machine.execNop session s
  | .sessionIdle session => Sys2Proof.Machine.execSessionIdle session s
  | .sessionKill agent => Sys2Proof.Machine.execSessionKill agent s
  | .notifySend session => Sys2Proof.Machine.execNotifySend session s
  | .notifyRetx session => Sys2Proof.Machine.execNotifyRetx session s
  | .stateNotify session => Sys2Proof.Machine.execStateNotify session s
  | .mpAdmin agent m1 admin => Sys2Proof.Machine.execMpAdmin agent m1 admin s
  | .feedClassChange feedB millivolts => Sys2Proof.Machine.execFeedClassChange feedB millivolts s
  | .feedOver feedB millivolts => Sys2Proof.Machine.execFeedOver feedB millivolts s
  | .feedHighTimeout feedB => Sys2Proof.Machine.execFeedHighTimeout feedB s
  | .feedStageClose feedB => Sys2Proof.Machine.execFeedStageClose feedB s
  | .railFault rail millivolts => Sys2Proof.Machine.execRailFault rail millivolts s
  | .hullSag vbus => Sys2Proof.Machine.execHullSag vbus s
  | .powerReqRun agent => Sys2Proof.Machine.execPowerReqRun agent s
  | .powerReqTrim agent => Sys2Proof.Machine.execPowerReqTrim agent s
  | .powerReqKeep agent confirm => Sys2Proof.Machine.execPowerReqKeep agent confirm s
  | .powerReqOff agent confirm wake => Sys2Proof.Machine.execPowerReqOff agent confirm wake s
  | .thermSample readings => Sys2Proof.Machine.execThermSample readings s
  | .telemetryRefresh telemetry => Sys2Proof.Machine.execTelemetryRefresh telemetry s
  | .ledgerIntake ctrl => Sys2Proof.Machine.execLedgerIntake ctrl s
  | .quietExpire out => Sys2Proof.Machine.execQuietExpire out s
  | .relCtrlOne agent kind index => Sys2Proof.Machine.execRelCtrlOne agent kind index s
  | .relCtrlAll agent => Sys2Proof.Machine.execRelCtrlAll agent s
  | .safeNTransition high => Sys2Proof.Machine.execSafeNTransition high s
  | .safeEnter agent => Sys2Proof.Machine.execSafeEnter agent s
  | .safeRelease agent => Sys2Proof.Machine.execSafeRelease agent s
  | .rstNTransition high => Sys2Proof.Machine.execRstNTransition high s
  | .hostReset agent confirm => Sys2Proof.Machine.execHostReset agent confirm s
  | .coderSelfCheckFail coder store => Sys2Proof.Machine.execCoderSelfCheckFail coder store s
  | .claimStormClear channel => Sys2Proof.Machine.execClaimStormClear channel s
  | .raisedCauseClear out cls => Sys2Proof.Machine.execRaisedCauseClear out cls s
  | .processorRestartDone processor => Sys2Proof.Machine.execProcessorRestartDone processor s
  | .quarantineExpire => Sys2Proof.Machine.execQuarantineExpire s
  | .holdLimitReached => Sys2Proof.Machine.execHoldLimitReached s
  | .refInPpsEdge => Sys2Proof.Machine.execRefInPpsEdge s
  | .rollStep => Sys2Proof.Machine.execRollStep s
  | .rollStepSchedule => Sys2Proof.Machine.execRollStepSchedule s
  | .rollHalt => Sys2Proof.Machine.execRollHalt s
  | .bootWriteDone => Sys2Proof.Machine.execBootWriteDone s
  | .ftRebuildDone => Sys2Proof.Machine.execFtRebuildDone s
  | .ftCopyDone => Sys2Proof.Machine.execFtCopyDone s
  | .claimGrant => Sys2Proof.Machine.execClaimGrant s
  | .heartbeatTx => Sys2Proof.Machine.execHeartbeatTx s
  | .recordsTx => Sys2Proof.Machine.execRecordsTx s
  | .heartbeatMiss => Sys2Proof.Machine.execHeartbeatMiss s
  | .witnessTimeout => Sys2Proof.Machine.execWitnessTimeout s
  | .witnessRetry => Sys2Proof.Machine.execWitnessRetry s
  | .switchDeadline => Sys2Proof.Machine.execSwitchDeadline s
  | .pageWrite => Sys2Proof.Machine.execPageWrite s
  | .pageTimeout => Sys2Proof.Machine.execPageTimeout s
  | .recWarnLedgerClose => Sys2Proof.Machine.execRecWarnLedgerClose s
  | .recWarnStop => Sys2Proof.Machine.execRecWarnStop s
  | .safeSealTimeout => Sys2Proof.Machine.execSafeSealTimeout s
  | .verifyDone => Sys2Proof.Machine.execVerifyDone s
  | .hullLinkLost => Sys2Proof.Machine.execHullLinkLost s
  | .hullLinkRestored => Sys2Proof.Machine.execHullLinkRestored s
  | .railStart => Sys2Proof.Machine.execRailStart s
  | .railPowerGood => Sys2Proof.Machine.execRailPowerGood s
  | .railStartTimeout => Sys2Proof.Machine.execRailStartTimeout s
  | .railRetry => Sys2Proof.Machine.execRailRetry s
  | .sagRelease => Sys2Proof.Machine.execSagRelease s
  | .sagHoldExpire => Sys2Proof.Machine.execSagHoldExpire s
  | .vbusReset => Sys2Proof.Machine.execVbusReset s
  | .vbusResetRelease => Sys2Proof.Machine.execVbusResetRelease s
  | .keepGate => Sys2Proof.Machine.execKeepGate s
  | .wakeTimer => Sys2Proof.Machine.execWakeTimer s
  | .thermTrip => Sys2Proof.Machine.execThermTrip s
  | .tripCooled => Sys2Proof.Machine.execTripCooled s
  | .ledgerDeliver => Sys2Proof.Machine.execLedgerDeliver s
  | .mirrorCopy => Sys2Proof.Machine.execMirrorCopy s
  | .safePinQualify => Sys2Proof.Machine.execSafePinQualify s
  | .safePinClear => Sys2Proof.Machine.execSafePinClear s
  | .responseRun => Sys2Proof.Machine.execResponseRun s
  | .rstPinQualify => Sys2Proof.Machine.execRstPinQualify s
  | .rstPinRelease => Sys2Proof.Machine.execRstPinRelease s
  | .hostResetEnter => Sys2Proof.Machine.execHostResetEnter s
  | .startD0Release => Sys2Proof.Machine.execStartD0Release s
  | .bootBankSelect => Sys2Proof.Machine.execBootBankSelect s
  | .startFirmware => Sys2Proof.Machine.execStartFirmware s
  | .startInstall => Sys2Proof.Machine.execStartInstall s
  | .startPorts => Sys2Proof.Machine.execStartPorts s
  | .startSlow => Sys2Proof.Machine.execStartSlow s
  | .spRestartsClear => Sys2Proof.Machine.execSpRestartsClear s
  | .hullAlive => Sys2Proof.Machine.execHullAlive s
  | .hullPowerUp => Sys2Proof.Machine.execHullPowerUp s
  | .vbusBelow18v => Sys2Proof.Machine.execVbusBelow18v s
  | .noActiveHeartbeat => Sys2Proof.Machine.execNoActiveHeartbeat s
  | .switchoverStamp => Sys2Proof.Machine.execSwitchoverStamp s

end Sys2Proof.Machine
end

