-- ==== Sys2Proof/Machine/Tick.lean ====
section
/-!
DEFINITION. How time passes in the model: one nanosecond for each step that finds no command waiting (log entry 1).
-/

namespace Sys2Proof.Machine

/-- A phase correction is applied as a frequency offset of at most 0.5 ppm (R25): what one nanosecond removes of it, in 2^-16 x
10^-6 ns. -/
def slewStep (left : Int) : Int := max (-32768) (min 32768 left)

/-- Shortest time in ns between two changes of the frequency estimate by 2^-16 ppm: 655 of them within a second are less than
the 0.01 ppm of R25. -/
def freqStepNs : Nat := 1526718

/-- The frequency estimate moves toward its target by one unit of 2^-16 ppm when R25 allows it. -/
def Servo.steer (v : Servo) (now : Nat) : Servo :=
  if v.freqAdj = v.freqTarget ∨ now < v.freqAt + freqStepNs then v
  else { v with freqAdj := if v.freqAdj < v.freqTarget then v.freqAdj + 1 else v.freqAdj - 1, freqAt := now }

/-- One nanosecond passes: the timebase advances at its estimated frequency, less what the slew removes (R25). -/
def State.tick (s : State) : State :=
  let d := slewStep s.servo.slewLeft
  { s with
    clock := { s.clock with
      now := s.clock.now + 1
      timebase := if s.running then s.clock.timebase + tbUnit + s.servo.freqAdj - d else s.clock.timebase }
    servo := if s.running then { s.servo.steer s.clock.now with slewLeft := s.servo.slewLeft - d } else s.servo }

end Sys2Proof.Machine
end

