-- ==== Sys2Proof/Parts.lean ====
section
/-!
DEFINITION. The parts of the state, as statements about what a command leaves unchanged name them.
-/

namespace Sys2Proof.Machine

/-- A part of the state: one field of `State`. The queue is no part; no command touches it. -/
inductive Part where
  | regs
  | latches
  | setNow
  | mem
  | readValue
  | wire
  | fresh
  | clock
  | servo
  | ptp
  | refIn
  | tio
  | im
  | commits
  | roll
  | tiles
  | config
  | lanes
  | ports
  | optics
  | ft
  | chanIn
  | surfaces
  | chans
  | coders
  | takeovers
  | rinds
  | queues
  | pair
  | heads
  | readers
  | scalers
  | audio
  | memory
  | recorder
  | cores
  | mdp
  | hull
  | ledger
  | startup
  deriving DecidableEq, Repr

/-- The number of a part. -/
def Part.bit : Part → Nat
  | .regs => 0
  | .latches => 1
  | .setNow => 2
  | .mem => 3
  | .readValue => 4
  | .wire => 5
  | .fresh => 6
  | .clock => 7
  | .servo => 8
  | .ptp => 9
  | .refIn => 10
  | .tio => 11
  | .im => 12
  | .commits => 13
  | .roll => 14
  | .tiles => 15
  | .config => 16
  | .lanes => 17
  | .ports => 18
  | .optics => 19
  | .ft => 20
  | .chanIn => 21
  | .surfaces => 22
  | .chans => 23
  | .coders => 24
  | .takeovers => 25
  | .rinds => 26
  | .queues => 27
  | .pair => 28
  | .heads => 29
  | .readers => 30
  | .scalers => 31
  | .audio => 32
  | .memory => 33
  | .recorder => 34
  | .cores => 35
  | .mdp => 36
  | .hull => 37
  | .ledger => 38
  | .startup => 39

/-- A set of parts as a number. -/
def Part.mask (l : List Part) : Nat := l.foldl (fun m p => m ||| 2 ^ p.bit) 0

/-- Two states agree in a part. -/
def Part.Same (p : Part) (s t : State) : Prop :=
  match p with
  | .regs => t.regs = s.regs
  | .latches => t.latches = s.latches
  | .setNow => t.setNow = s.setNow
  | .mem => t.mem = s.mem
  | .readValue => t.readValue = s.readValue
  | .wire => t.wire = s.wire
  | .fresh => t.fresh = s.fresh
  | .clock => t.clock = s.clock
  | .servo => t.servo = s.servo
  | .ptp => t.ptp = s.ptp
  | .refIn => t.refIn = s.refIn
  | .tio => t.tio = s.tio
  | .im => t.im = s.im
  | .commits => t.commits = s.commits
  | .roll => t.roll = s.roll
  | .tiles => t.tiles = s.tiles
  | .config => t.config = s.config
  | .lanes => t.lanes = s.lanes
  | .ports => t.ports = s.ports
  | .optics => t.optics = s.optics
  | .ft => t.ft = s.ft
  | .chanIn => t.chanIn = s.chanIn
  | .surfaces => t.surfaces = s.surfaces
  | .chans => t.chans = s.chans
  | .coders => t.coders = s.coders
  | .takeovers => t.takeovers = s.takeovers
  | .rinds => t.rinds = s.rinds
  | .queues => t.queues = s.queues
  | .pair => t.pair = s.pair
  | .heads => t.heads = s.heads
  | .readers => t.readers = s.readers
  | .scalers => t.scalers = s.scalers
  | .audio => t.audio = s.audio
  | .memory => t.memory = s.memory
  | .recorder => t.recorder = s.recorder
  | .cores => t.cores = s.cores
  | .mdp => t.mdp = s.mdp
  | .hull => t.hull = s.hull
  | .ledger => t.ledger = s.ledger
  | .startup => t.startup = s.startup

end Sys2Proof.Machine
end

