-- ==== Sys2Proof/Safety.lean ====
section
/-!
DEFINITION. What counts as a safe run: a run that no step stops, the invariant that every step keeps, and the parts of the state
that a command may change.
-/

namespace Sys2Proof

open Machine

/-- A command takes effect at a state: it neither faults nor is refused. -/
def Completes (c : Instr) (s : State) : Prop := ∃ t, exec c s = .next t

/-- `n` steps from a state, none of which stops. -/
def SafeFor (n : Nat) (s : State) : Prop := ∃ t, core.run n s = .next t

/-- The canonical form of the plain registers, of the agents' latches and of frame memory: numbers rise strictly and nothing is
listed that equals what an unlisted number reads as. -/
structure Machine.State.Canonical (s : State) : Prop where
  mem     : Memory.wf s.mem = true
  regs    : Sparse.wf resetOf s.regs = true
  latches : Sparse.wf (fun k => resetOf (k % 0x100000000)) s.latches = true

/-- Among the entries that a step adds to the ledger's intake there is one of the class. -/
def Machine.State.Logs (s t : State) (c : FaultClass) : Prop :=
  ∃ a e b, t.ledger.outbox = s.ledger.outbox ++ (a ++ e :: b) ∧ e.cls = c.code

/-- A frame of another kind than a curd-stream packet leaves a port: at once from a management port or a free media port, else it waits
there (R183). -/
def Machine.State.Sends (s t : State) (p n : Nat) (x : Sent) : Prop :=
  if 32 ≤ p ∨ ((s.queue p).isEmpty ∧ (s.port p).others.isEmpty ∧ s.due (s.port p).lineFree) then t.wire = x :: s.wire
  else t.wire = s.wire ∧ (t.port p).others = (s.port p).others ++ [(n, x)]

/-- A step adds exactly one entry to the ledger's intake, and it is of the class. -/
def Machine.State.LogsOne (s t : State) (c : FaultClass) : Prop :=
  ∃ e, t.ledger.outbox = s.ledger.outbox ++ [e] ∧ e.cls = c.code

namespace Machine

/-- What an event and a log entry change: event bits, the hub and the ledger. -/
def Part.noted : List Part := [.regs, .setNow, .cores, .ledger]

/-- What may change when a cause reaches outputs, and they go to their harmless states, stop or return (R386 to R392). -/
def Part.outputs : List Part :=
  [.regs, .setNow, .wire, .fresh, .tio, .roll, .tiles, .chanIn, .chans, .coders, .rinds, .queues, .pair, .heads, .recorder, .cores, .ledger]

/-- Every part. -/
def Part.all : List Part :=
  [.regs, .latches, .setNow, .mem, .readValue, .wire, .fresh, .clock, .servo, .ptp, .refIn, .tio,
   .im, .commits, .roll, .tiles, .config, .lanes, .ports, .optics, .ft, .chanIn, .surfaces, .chans,
   .coders, .takeovers, .rinds, .queues, .pair, .heads, .readers, .scalers, .audio, .memory, .recorder, .cores,
   .mdp, .hull, .ledger, .startup]

/-- The parts of the state that a command may change; it leaves every other part as it was. -/
def mayChange (c : Instr) : List Part :=
  match c with
  | .suspectClr _ => [.servo]
  | .tioFlush _ _ => [.tio]
  | .ringEnable _ _ _ => [.regs]
  | .pcsLock _ => [.ports]
  | .adaptStep _ _ _ | .laneFreeze _ _ _ => [.lanes]
  | .optResetBus _ _ => [.optics]
  | .signaturePrefetchDone _ _ _ | .signatureWriteTimeout _ _ => [.chans]
  | .claimForget _ => [.surfaces]
  | .headFrameStart _ => [.heads]
  | .refreshDue _ | .refreshPayback _ | .trainingDue _ | .trainingStep _ | .trainingForce _ | .trainNow _ => [.memory]
  | .exportOpen _ | .exportClose _ | .exportIdleTimeout _ | .verify _ | .recWarnLedgerClose => [.recorder]
  | .coreWfi _ | .corePark _ _ | .coreResume _ _ | .wdtKick _ _ | .thresholdWrite _ _ _ | .srcCntSatClear _ _
  | .processorRestartDone _ => [.cores]
  | .telemetryRefresh _ | .railStart | .railPowerGood | .railRetry | .vbusResetRelease | .tripCooled => [.hull]
  | .raisedCauseClear _ _ | .safePinClear | .spRestartsClear => [.ledger]
  | .ftCopyDone => [.ft]
  | .stampLoRead _ => [.latches, .readValue]
  | .tioPulseEdge _ | .tioPulseEnd _ => [.wire, .tio]
  | .tioInputTransition _ _ => [.regs, .tio]
  | .tioStuckTimeout _ => [.tio, .ledger]
  | .slotCheck _ _ | .slotCtrlClear _ _ | .floorRaise _ _ | .bootPrefer _ _ => [.im, .ledger]
  | .stagedWrite _ _ _ => [.mdp, .ledger]
  | .laneSignalDetect _ | .laneAdaptConverged _ _ => [.lanes, .ports]
  | .lanePrbs _ _ _ => [.lanes, .ledger]
  | .fomRead _ _ => [.readValue, .lanes]
  | .optCmd _ _ _ | .optCmdDone _ _ _ => [.regs, .optics]
  | .curdLateHandover _ _ _ => [.chans, .ledger]
  | .packedPacketTimeout _ => [.chans, .queues]
  | .rindMove _ _ _ => [.regs, .takeovers]
  | .coderRetest _ _ => [.tiles, .coders]
  | .memStarvationRaise _ => [.regs, .memory]
  | .irqComplete _ _ _ | .chkStart _ _ | .chkData _ _ _ _ => [.regs, .cores]
  | .irqNoTarget _ => [.cores, .ledger]
  | .safeNTransition _ | .mirrorCopy => [.regs, .ledger]
  | .claimStormClear _ => [.rinds, .ledger]
  | .wakeTimer | .rstPinRelease => [.hull, .startup]
  | .startSlow => [.ledger, .startup]
  | .hullAlive => [.im, .hull]
  | .armHiWrite _ _ _ => [.regs, .tio, .ledger]
  | .capLoRead _ _ => [.latches, .readValue, .tio]
  | .backoffRetry _ | .retryNow _ _ => [.regs, .lanes, .ports]
  | .laneLoop _ _ _ => [.wire, .lanes, .ledger]
  | .headRetest _ _ => [.fresh, .heads, .ledger]
  | .coreAlive _ _ => [.im, .cores, .ledger]
  | .irqClaim _ _ => [.regs, .readValue, .cores]
  | .srcCfgWrite _ _ _ | .swiSet _ _ | .rtArm _ _ _ | .rtExpire _ | .rtDisarm _ _ | .chkEnd _ _ => [.regs, .cores, .ledger]
  | .rstNTransition _ => [.regs, .ledger, .startup]
  | .delayReqTx _ | .leadingSyncTx _ | .leadingAnnounceTx _ => [.regs, .wire, .ptp, .ports]
  | .tioLevelQualified _ => [.regs, .tio, .cores, .ledger]
  | .mergeSkewTimeout _ _ => [.regs, .chanIn, .surfaces, .ledger]
  | .optModuleReady _ => [.regs, .lanes, .ports, .optics]
  | .headEovRepeat _ => [.regs, .wire, .heads, .ledger]
  | .codeFetchError _ | .sramUncorr _ _ | .coreWatchdogExpire _ | .spLockstepMismatch _ | .irqEvent _ _ => Part.noted
  | .mdpIdentify _ _ => [.regs, .wire, .mdp, .ledger]
  | .recordsTx | .witnessRetry | .noActiveHeartbeat => [.regs, .wire, .ports, .pair]
  | .sagHoldExpire => [.chans, .rinds, .hull, .ledger]
  | .startPorts => [.regs, .lanes, .ports, .startup]
  | .validationDone _ | .fwConfirm _ _ | .bootWrite _ _ _ | .bootWriteDone => Part.noted ++ [.im]
  | .ftRead _ | .ftLookup _ => Part.noted ++ [.latches]
  | .surfaceFrameClose _ _ | .surfaceCloseTimeout _ _ | .surfaceWriteTimeout _ _ _ _ => Part.noted ++ [.surfaces]
  | .laneLowFom _ => Part.noted ++ [.lanes]
  | .fecDegrade _ _ _ _ => Part.noted ++ [.ports]
  | .optSdaStuck _ _ => Part.noted ++ [.optics]
  | .recordsRx _ | .switchDeadline => Part.noted ++ [.pair]
  | .audioSlip _ _ | .micStuckTimeout _ => Part.noted ++ [.audio]
  | .mr4Poll _ _ | .dupCopyDone _ _ => Part.noted ++ [.memory]
  | .recordAdmit _ | .wheelSign _ | .sealNow _ | .pageWrite | .pageTimeout | .recWarnStop | .safeSealTimeout | .verifyDone =>
    Part.noted ++ [.recorder]
  | .feedClassChange _ _ | .feedOver _ _ | .feedHighTimeout _ | .feedStageClose _ | .thermSample _ | .hullLinkLost
  | .hullLinkRestored => Part.noted ++ [.hull]
  | .holdLimitReached => Part.noted ++ [.servo]
  | .rollHalt => Part.noted ++ [.roll]
  | .ftRebuildDone => [.regs, .wire, .commits, .ports, .ft]
  | .fwRevert _ _ | .startFirmware => Part.noted ++ [.im, .hull]
  | .pathSilenceTimeout _ _ => Part.noted ++ [.chanIn, .surfaces]
  | .bringupStepTimeout _ => Part.noted ++ [.lanes, .ports]
  | .optInserted _ => Part.noted ++ [.ports, .optics]
  | .channelEovRepeat _ => Part.noted ++ [.chans, .queues]
  | .remapDone _ => [.mem, .surfaces, .chans, .heads, .memory, .ledger]
  | .nandProgramFail _ => Part.noted ++ [.fresh, .recorder]
  | .quietExpire _ | .relCtrlOne _ _ _ | .relCtrlAll _ | .safeRelease _ => Part.noted ++ [.chans, .rinds]
  | .refInPpsEdge => Part.noted ++ [.servo, .refIn]
  | .rollStep => Part.noted ++ [.roll, .takeovers]
  | .sagRelease => Part.noted ++ [.recorder, .hull]
  | .tioRelease _ _ => Part.noted ++ [.tio, .chans, .rinds]
  | .fwAliveTimeout _ => Part.noted ++ [.im, .hull, .startup]
  | .laneTakeCurd _ _ => Part.noted ++ [.chans, .coders, .rinds]
  | .coderRetire _ _ => Part.noted ++ [.roll, .coders, .pair]
  | .handoverRx _ | .probeRx _ | .pairSwitch _ | .heartbeatTx | .heartbeatMiss | .witnessTimeout =>
    Part.noted ++ [.wire, .ports, .pair]
  | .headFrameDone _ => Part.noted ++ [.wire, .heads, .recorder]
  | .unitCheckFail _ _ => Part.noted ++ [.heads, .readers, .scalers]
  | .readerRetest _ _ | .scalerRetest _ _ => Part.noted ++ [.fresh, .readers, .scalers]
  | .audioFrameBoundary _ => Part.noted ++ [.wire, .audio, .recorder]
  | .mdpAck _ _ | .sessionIdle _ | .sessionKill _ => Part.noted ++ [.latches, .recorder, .mdp]
  | .rollStepSchedule => Part.noted ++ [.roll, .tiles, .coders]
  | .switchoverStamp => Part.noted ++ [.chans, .pair, .heads]
  | .ftAdd _ | .ftRemove _ => Part.noted ++ [.latches, .wire, .ports, .ft]
  | .packetDepart _ => Part.noted ++ [.wire, .ports, .chans, .queues]
  | .mdpOpen _ _ | .mdpClose _ _ | .notifySend _ | .notifyRetx _ | .stateNotify _ => Part.noted ++ [.latches, .wire, .recorder, .mdp]
  | .portUp _ => Part.noted ++ [.wire, .ports, .chans, .queues, .heads]
  | .coderEccFault _ | .coderClockLoss _ | .coderWatchdog _ | .coderSelfCheckFail _ _ =>
    Part.noted ++ [.roll, .coders, .takeovers, .rinds, .pair]
  | .heartbeatRx _ => Part.noted ++ [.wire, .ports, .chans, .pair, .heads]
  | .powerReqRun _ | .powerReqTrim _ => Part.noted ++ [.tiles, .chans, .coders, .rinds, .hull]
  | .headLineStart _ _ => Part.noted ++ [.wire, .fresh, .heads, .readers, .scalers, .memory]
  | .promotedChannelStart _ => Part.noted ++ [.roll, .tiles, .chans, .coders, .rinds, .queues, .pair]
  | .stripeGapTimeout _ | .curdSelect _ _ | .verdictDeadline _ _ _ =>
    Part.noted ++ [.fresh, .roll, .tiles, .chanIn, .chans, .coders, .rinds, .queues, .pair, .recorder]
  | .verdict _ _ _ _ =>
    Part.noted ++ [.fresh, .roll, .tiles, .chanIn, .chans, .coders, .takeovers, .rinds, .queues, .pair, .recorder]
  | .answerRx _ => Part.noted ++ [.fresh, .roll, .tiles, .chanIn, .chans, .coders, .rinds, .queues, .pair, .heads, .recorder]
  | .inputLossTimeout _ | .responseRun => Part.outputs
  | .powerReqKeep _ _ | .powerReqOff _ _ _ => Part.outputs ++ [.hull]
  | .hostReset _ _ => Part.outputs ++ [.startup]
  | .hullSag _ => Part.outputs ++ [.im, .hull]
  | .claimGrant => Part.outputs ++ [.ports, .takeovers]
  | .syncTimeout _ | .announceTimeout _ | .forceHold _ _ | .quarantineExpire => Part.outputs ++ [.servo, .ptp, .startup]
  | .goPoint _ | .commitCancel _ _ =>
    Part.noted ++ [.wire, .fresh, .commits, .roll, .tiles, .lanes, .ports, .ft, .chanIn, .chans, .coders, .rinds, .queues, .pair, .heads, .audio, .recorder]
  | .ripenDone _ _ _ | .ledgerIntake _ | .safeEnter _ | .ledgerDeliver | .safePinQualify =>
    Part.outputs ++ [.commits, .lanes, .ports, .ft, .audio]
  | .fomBelowMin _ | .pcsAlignmentLoss _ | .fecUncorrBurst _ _ | .linkFaultPersist _ _ | .portAdmin _ _ _ | .mpAdmin _ _ _ =>
    Part.outputs ++ [.servo, .ptp, .lanes, .ports, .startup]
  | .startD0Release => Part.outputs ++ [.clock, .im, .memory, .hull, .startup]
  | .ptpMessageRx _ _ => Part.outputs ++ [.clock, .servo, .ptp, .commits, .ports, .startup]
  | .optRemoved _ | .optPoll _ _ => Part.outputs ++ [.servo, .ptp, .lanes, .ports, .optics, .startup]
  | .bootBankSelect => Part.outputs ++ [.servo, .ptp, .im, .lanes, .ports, .startup]
  | .monitorWindowEnd _ _ | .monitorEdgeTimeout _ => Part.outputs ++ [.servo, .ptp, .refIn, .lanes, .ports, .audio, .startup]
  | .memChannelSilent _ | .memRetire _ | .patrolScrub _ =>
    Part.noted ++ [.readValue, .wire, .fresh, .im, .commits, .roll, .tiles, .lanes, .ports, .ft, .chanIn, .chans, .coders, .rinds, .queues, .pair, .heads, .audio, .memory, .recorder]
  | .memRequestServe _ _ _ =>
    Part.noted ++ [.mem, .readValue, .wire, .fresh, .im, .commits, .roll, .tiles, .lanes, .ports, .ft, .chanIn, .chans, .coders, .rinds, .queues, .pair, .heads, .audio, .memory, .recorder]
  | .trainingDone _ _ _ =>
    Part.noted ++ [.readValue, .wire, .fresh, .im, .commits, .roll, .tiles, .lanes, .ports, .ft, .chanIn, .chans, .coders, .rinds, .queues, .pair, .heads, .audio, .memory, .recorder, .startup]
  | .commitIssue _ => Part.outputs ++ [.latches, .servo, .ptp, .commits, .lanes, .ports, .ft, .audio, .mdp, .startup]
  | .startInstall => Part.outputs ++ [.clock, .servo, .ptp, .refIn, .config, .lanes, .ports, .ft, .audio, .startup]
  | .rennetPoint _ =>
    Part.outputs ++ [.servo, .ptp, .refIn, .im, .commits, .config, .lanes, .ports, .ft, .surfaces, .takeovers, .scalers, .audio, .hull, .startup]
  | .registerWrite _ _ _ | .mdpRequest _ _ | .read _ _ _ | .write _ _ _ | .modify _ _ _ _ | .blockRead _ _ _ _
  | .blockWrite _ _ _ _ | .subscribe _ _ _ _ | .unsubscribe _ | .attest _ _ | .enrol _ _ | .slotWrite _ _ | .slotClear _ _
  | .disown _ _ | .nop _ =>
    Part.outputs ++ [.latches, .readValue, .servo, .ptp, .im, .commits, .lanes, .ports, .optics, .ft, .takeovers, .readers, .scalers, .audio, .memory, .mdp, .hull, .startup]
  | .frameRx _ _ _ =>
    Part.outputs ++ [.latches, .mem, .readValue, .servo, .ptp, .im, .commits, .lanes, .ports, .optics, .ft, .surfaces, .takeovers, .readers, .scalers, .audio, .memory, .mdp, .hull, .startup]
  | .railFault _ _ | .railStartTimeout | .vbusReset | .keepGate | .thermTrip | .rstPinQualify | .hostResetEnter
  | .hullPowerUp | .vbusBelow18v => Part.all

/-- The commands that may reset the device (R403 to R406). -/
def mayReset (c : Instr) : Bool :=
  match c with
  | .railFault _ _ | .railStartTimeout | .vbusReset | .keepGate | .thermTrip | .rstPinQualify | .hostResetEnter
  | .hullPowerUp | .vbusBelow18v => true
  | _ => false

end Machine

end Sys2Proof
end

