-- ==== Sys2Proof/Certificates/Slice0/Obligations.lean ====
section
/-!
DEFINITION. The statements for the provers. Every command of the block stands in some statement that says where it completes and
what the next state then holds; the first statements speak of all commands.
-/

open Sys2Proof Sys2Proof.Machine

/-- O1. For every command c, every queue rest r and every state s: step of s with the queue c :: r is exec of c on s with the queue
r. (The queue of waiting commands is the model's own; log entry 1.) -/
def Obligations.StepRunsTheFrontCommand : Prop :=
  ∀ (c : Instr) (r : List Instr) (s : State), step { s with pending := c :: r } = exec c { s with pending := r }

/-- O2. With an empty queue the step answers a next state in which the model's time is one nanosecond later; before D0 runs nothing
else changes; while D0 runs the timebase advances by one nanosecond at its estimated frequency less what the slew removes (at
most 0.5 ppm, R25), the slew that is left shrinks by that, and the frequency estimate stays or moves by 2^-16 ppm toward its
target, the latter only when 1,526,718 ns have passed since it last changed (at most 0.01 ppm per second, R25). That a step with
an empty queue passes a nanosecond is the model's choice (log entry 1). -/
def Obligations.EmptyQueuePassesOneNanosecond : Prop :=
  ∀ s : State, s.pending = [] →
    (s.running = false → step s = .next { s with clock := { s.clock with now := s.clock.now + 1 } }) ∧
    (s.running = true → ∃ d f : Int, -32768 ≤ d ∧ d ≤ 32768 ∧
      (d = s.servo.slewLeft ∨ (d = 32768 ∧ 32768 < s.servo.slewLeft) ∨ (d = -32768 ∧ s.servo.slewLeft < -32768)) ∧
      (f = s.servo.freqAdj ∨ (s.servo.freqAt + 1526718 ≤ s.now ∧
        ((f = s.servo.freqAdj + 1 ∧ f ≤ s.servo.freqTarget) ∨ (f = s.servo.freqAdj - 1 ∧ s.servo.freqTarget ≤ f)))) ∧
      step s = .next { s with
        clock := { s.clock with now := s.clock.now + 1, timebase := s.clock.timebase + 65536000000 + s.servo.freqAdj - d }
        servo := { s.servo with slewLeft := s.servo.slewLeft - d, freqAdj := f,
                                freqAt := if f = s.servo.freqAdj then s.servo.freqAt else s.now } })

/-- O3. Whenever exec of a command answers a next state, that state has the same queue and the same model time; what the device had
sent before is still the older part of what it has sent; and the count of free values drawn has not fallen. Unless the command
is one of those that may reset the device, D0 that runs goes on running, and, unless it is LEDGER_INTAKE, the entries on their
way to the ledger are all still there, the older first. (Queue, time, sent record and free values are the model's own fields.) -/
def Obligations.CommandsLeaveQueueTimeAndHistory : Prop :=
  ∀ (c : Instr) (s t : State), exec c s = .next t →
    t.pending = s.pending ∧ t.now = s.now ∧ (∃ new, t.wire = new ++ s.wire) ∧ s.fresh ≤ t.fresh ∧
    (mayReset c = false → (s.running = true → t.running = true) ∧
      ((∀ a, c ≠ .ledgerIntake a) → ∃ new, t.ledger.outbox = s.ledger.outbox ++ new))

/-- O4. If a state's frame memory, plain registers and per-agent latches are in canonical form (numbers rise strictly and nothing is
listed that equals what an unlisted number reads as), then so are those of the next state that a step answers, whatever command
the step runs. -/
def Obligations.EveryStepKeepsTheCanonicalForm : Prop :=
  ∀ s t : State, s.Canonical → step s = .next t → t.Canonical

/-- O5. The reset state is in canonical form; no register differs from its reset value, no byte of frame memory from 0, no command
waits, nothing has been sent, and no time has passed. -/
def Obligations.ResetStateIsCanonical : Prop :=
  State.reset.Canonical ∧ State.reset.pending = [] ∧ State.reset.wire = [] ∧ State.reset.now = 0 ∧
    (∀ a : Nat, State.reset.reg a = resetOf a) ∧ (∀ a : Nat, State.reset.byte a = 0)

/-- O6. For every command and every state: if exec answers a next state, each part of the state (one field: plain registers,
latches, frame memory, the servo, the lanes, the ledger and so on) that mayChange does not list for the command is the same
afterwards. So, for one, only FRAME_RX, MEM_REQUEST_SERVE, REMAP_DONE and the commands that reset the device can change a byte
of frame memory. -/
def Obligations.CommandsChangeOnlyTheirParts : Prop :=
  ∀ (c : Instr) (s t : State), exec c s = .next t → ∀ p : Part, p ∉ mayChange c → p.Same s t

/-- O7. In every state every command answers a next state, except FEED_CLASS_CHANGE and FEED_OVER with a feed voltage above 80 V
(80,000 mV): outside the absolute limits of R416 the spec gives no behaviour, and the command faults with outsideRatings. -/
def Obligations.EveryCommandCompletes : Prop :=
  ∀ (c : Instr) (s : State),
    ((∀ f v, c = .feedClassChange f v → v ≤ 80000) → (∀ f v, c = .feedOver f v → v ≤ 80000) → ∃ t, exec c s = .next t) ∧
    (∀ f v, (c = .feedClassChange f v ∨ c = .feedOver f v) → 80000 < v → exec c s = .fault .outsideRatings)

/-- O8. For an instance i whose port p is UP and runs PTP. As a follower with a parent, when the delay interval has passed since its
last Delay_Req: one Delay_Req goes out on p, from the address of p (R27), to the PTP group or with HYBRID to the parent's
address (R26), with the instance's domain and identity, its next sequence number and the timebase's time; it is remembered as
outstanding, and the sequence number and the interval go on. As a leader with the servo LOCKED, in QUARANTINE or in HOLDOVER
(R30), when the interval of the kind has passed: one one-step Sync with the timebase's time, or one Announce with the dataset
that leadingDataset gives: LOCKED to an instance with a parent, that parent's grandmaster dataset with stepsRemoved one higher;
in QUARANTINE or HOLDOVER the instance's own clockIdentity with PRIO1, PRIO2 and CLASS_HOLD of its record (R30). A media port
sends the frame at once when its line is free, else it waits on the port. TX_FRAMES of p is the one register that changes; every
other instance, port and part of the state stays. The message layout is PRESUMED (log entry 65). -/
def Obligations.PtpFollowersAndLeadersSend : Prop :=
  ∀ (i : Fin 6) (s : State), s.ptpRuns i.val = true →
    let p := s.ptpField i.val 0 1
    let v6 := s.ptpV6 i.val
    let sends (t : State) (m : PtpMsg) (dst : Nat) (unicast : Bool) (log : Nat) : Prop :=
      let b := ptpPacket v6 (s.ownAddr p v6) dst m unicast log
      s.Sends t p (ipLine b.length) (.ptp i.val p b) ∧ m.domain = s.ptpField i.val 2 1 ∧
      m.clockId = Config.clockIdentity i.val ∧ m.portNumber = i.val + 1 ∧ m.version = 2
    let rest (t : State) : Prop :=
      (∀ j, j ≠ i.val → t.inst j = s.inst j) ∧ (∀ q, q ≠ p → t.port q = s.port q) ∧
      (∀ a, a ≠ (if p < 32 then R.port_TX_FRAMES p else R.mp_TX_FRAMES (p - 32)) → t.reg a = s.reg a) ∧
      t = { s with wire := t.wire, ptp := t.ptp, ports := t.ports, regs := t.regs }
    (∀ f, s.ptpLeads i.val = false → (s.inst i.val).parent = some f →
      s.due ((s.inst i.val).delayAt + s.delayInterval i.val) = true →
      ∃ t m, exec (.delayReqTx i) s = .next t ∧ rest t ∧
        sends t m (if s.ptpHybrid i.val then f.address else ptpGroup v6) (s.ptpHybrid i.val) 0x7F ∧
        m.kind = .delayReq ∧ m.seq = (s.inst i.val).nextSeq ∧ m.timestamp = s.ptpNs ∧ m.correction = 0 ∧
        t.inst i.val = { s.inst i.val with delayAt := s.now, nextSeq := (s.inst i.val).nextSeq + 1,
                                           delayReqs := (s.inst i.val).delayReqs ++ [((s.inst i.val).nextSeq, s.ptpNs)] }) ∧
    (s.ptpLeads i.val = true → (s.servo.state = .locked ∨ s.servo.state = .quarantine ∨ s.servo.state = .holdover) →
      (s.due ((s.inst i.val).leadSyncAt + s.syncInterval i.val) = true →
        ∃ t m, exec (.leadingSyncTx i) s = .next t ∧ rest t ∧ sends t m (ptpGroup v6) false (s.ptpField i.val 4 1) ∧
          m.kind = .sync ∧ m.twoStep = false ∧ m.seq = (s.inst i.val).syncSeq ∧ m.timestamp = s.ptpNs ∧ m.correction = 0 ∧
          t.inst i.val = { s.inst i.val with leadSyncAt := s.now, syncSeq := (s.inst i.val).syncSeq + 1 }) ∧
      (s.due ((s.inst i.val).leadAnnAt + s.announceInterval i.val) = true →
        ∃ t m, exec (.leadingAnnounceTx i) s = .next t ∧ rest t ∧ sends t m (ptpGroup v6) false (s.ptpField i.val 5 1) ∧
          m.kind = .announce ∧ m.seq = (s.inst i.val).announceSeq ∧
          (∀ j f, s.servo.state = .locked → s.servo.source = some (.ptp j) → (s.inst j).parent = some f →
            m.dataset = { f.dataset with stepsRemoved := f.dataset.stepsRemoved + 1 }) ∧
          (s.servo.state ≠ .locked → m.dataset.grandmaster = Config.clockIdentity i.val ∧ m.dataset.stepsRemoved = 0 ∧
            m.dataset.priority1 = s.ptpField i.val 12 1 ∧ m.dataset.priority2 = s.ptpField i.val 13 1 ∧
            m.dataset.clockClass = s.ptpField i.val 14 1) ∧
          t.inst i.val = { s.inst i.val with leadAnnAt := s.now, announceSeq := (s.inst i.val).announceSeq + 1 }))

/-- O9. At a running instance, a message (bytes b, read as m) of another PTP version, of another domain, of a wrong length, from the
ZH48's own clock identity, of a kind that Table 2-2 does not support, or a Delay_Resp that no outstanding Delay_Req of the
instance matches, is discarded: RX_INVALID of the instance counts one (saturating), and neither the instances, the servo, the
clock nor what was sent change. A good Delay_Req at an announcing leading instance is answered by one Delay_Resp on the
instance's port that names its sequence number and sender. A good Follow_Up of the parent that matches the waiting two-step Sync
completes it: the instance's last Sync is its origin time with the receive time less both corrections. (Rules R26, R30, R31.) -/
def Obligations.PtpMessagesAreTakenOrDiscarded : Prop :=
  ∀ (i : Fin 6) (src : Nat) (b : List Byte) (s : State), s.ptpRuns i.val = true →
    let m := ptpRead b
    let p := s.ptpField i.val 0 1
    ((m.version ≠ 2 ∨ m.domain ≠ s.ptpField i.val 2 1 ∨ m.lengthOk = false ∨ m.clockId = Config.clockIdentity i.val ∨
        m.kind = .management ∨ m.kind = .other ∨
        (m.kind = .delayResp ∧ ¬(m.reqClockId = Config.clockIdentity i.val ∧ m.reqPort = i.val + 1 ∧
          ∃ r ∈ (s.inst i.val).delayReqs, r.1 = m.seq))) →
      ∃ t, exec (.ptpMessageRx i ⟨src, b⟩) s = .next t ∧
        (t.reg (R.ptp_RX_INVALID i.val)).toNat = min 0xFFFFFFFF ((s.reg (R.ptp_RX_INVALID i.val)).toNat + 1) ∧
        t.ptp = s.ptp ∧ t.servo = s.servo ∧ t.clock = s.clock ∧ t.wire = s.wire ∧ t.ports = s.ports) ∧
    (s.ptpDiscard i.val m = none → s.ptpSends i.val = true → m.kind = .delayReq →
      ∃ t a, exec (.ptpMessageRx i ⟨src, b⟩) s = .next t ∧ a.kind = .delayResp ∧ a.seq = m.seq ∧
        a.reqClockId = m.clockId ∧ a.reqPort = m.portNumber ∧ a.timestamp = s.ptpNs ∧ a.domain = m.domain ∧
        (let dst := if s.ptpHybrid i.val then src else ptpGroup (s.ptpV6 i.val)
         let k := ptpPacket (s.ptpV6 i.val) (s.ownAddr p (s.ptpV6 i.val)) dst a (s.ptpHybrid i.val) (s.ptpField i.val 6 1)
         s.Sends t p (ipLine k.length) (.ptp i.val p k)) ∧
        (∀ j, j ≠ i.val → t.inst j = s.inst j) ∧ t.servo = s.servo ∧ t.clock = s.clock) ∧
    (∀ q t2 c, s.ptpDiscard i.val m = none → s.ptpLeads i.val = false → m.kind = .followUp → s.isParent i.val m = true →
      (s.inst i.val).pendingSync = some (q, t2, c) → q = m.seq →
      ∃ t, exec (.ptpMessageRx i ⟨src, b⟩) s = .next t ∧ (t.inst i.val).lastSync = some (m.timestamp, t2 - c - m.corr) ∧
        (t.inst i.val).pendingSync = none ∧ (∀ j, j ≠ i.val → t.inst j = s.inst j) ∧ t.servo = s.servo ∧ t.wire = s.wire)

/-- O10. When no Sync has come for 3 sync intervals at an instance with SYNC_OK, or no Announce for 3 announce intervals at an
instance with a parent, the command completes and afterwards the instance is not the servo's source: without Sync it has no
SYNC_OK, without Announce it is LISTENING and has no parent. FORCE_HOLD with 1 sets CTRL.FORCE_HOLD and leaves the servo without
a source; with 0 it clears the bit. (Rules R29, R31, R32.) -/
def Obligations.LostSourcesLeaveTheSelection : Prop :=
  (∀ (i : Fin 6) (s : State) (at_ : Nat), (s.inst i.val).syncAt = some at_ → (s.inst i.val).syncOk = true →
      s.due (at_ + 3 * s.syncInterval i.val) = true →
      ∃ t, exec (.syncTimeout i) s = .next t ∧ t.servo.source ≠ some (.ptp i.val) ∧ (t.inst i.val).syncOk = false) ∧
  (∀ (i : Fin 6) (s : State) (at_ : Nat), (s.inst i.val).announceAt = some at_ → (s.inst i.val).parent.isSome = true →
      s.due (at_ + 3 * s.announceInterval i.val) = true →
      ∃ t, exec (.announceTimeout i) s = .next t ∧ t.servo.source ≠ some (.ptp i.val) ∧ (t.inst i.val).parent = none ∧
        (t.inst i.val).portState = 4) ∧
  (∀ (g : Agent) (s : State), s.running = true →
      (∃ t, exec (.forceHold g true) s = .next t ∧ t.reg R.time_CTRL = 1 ∧ t.servo.source = none) ∧
      (∃ t, exec (.forceHold g false) s = .next t ∧ t.reg R.time_CTRL = 0))

/-- O11. 16 s after QUARANTINE began without agreement the servo is LOCKED with SUSPECT and TIME_SUSPECT is logged if it has a
source, else it is in HOLDOVER. When HOLDOVER has lasted HOLD_LIMIT seconds, TIME_HOLDOVER_LONG is noted once: it is logged, and
event bit 5 of the time block is set. SUSPECT_CLR clears SUSPECT and nothing else. A read of STAMP_LO returns the low word of
the present stamp and latches the high word for the reader alone. A 1 PPS edge of REF_IN (MODE 2) is remembered with its time.
When its period lies within 12.5 % of 1 s, its distance off from the nearest whole second of the timebase less CABLE is taken:
while REF_IN is not the locked source nothing else changes; while it is, off is the filtered offset that slewing removes. An
edge of another period changes nothing more. (Rules R32 to R34, R36, R48.) -/
def Obligations.ServoTimersAndFlags : Prop :=
  (∀ s : State, s.servo.state = .quarantine → s.due (s.servo.quarSince + 16000000000) = true →
      ∃ t, exec .quarantineExpire s = .next t ∧
        (s.servo.source.isSome = true → t.servo.state = .locked ∧ t.servo.suspect = true ∧ s.Logs t F.TIME_SUSPECT) ∧
        (s.servo.source = none → t.servo.state = .holdover)) ∧
  (∀ s : State, s.servo.state = .holdover → s.servo.holdLong = false → s.due (s.servo.heldSince + sec s.holdLimit) = true →
      ∃ t, exec .holdLimitReached s = .next t ∧ t.servo = { s.servo with holdLong := true } ∧ s.Logs t F.TIME_HOLDOVER_LONG ∧
        t.reg R.time_EVENTS = s.reg R.time_EVENTS ||| 32 ∧
        (∀ a, a ≠ R.time_EVENTS → a ≠ R.hub_SATURATED → t.reg a = s.reg a)) ∧
  (∀ (g : Agent) (s : State), s.running = true →
      exec (.suspectClr g) s = .next { s with servo := { s.servo with suspect := false } }) ∧
  (∀ (g : Agent) (s : State), s.running = true →
      ∃ t, exec (.stampLoRead g) s = .next t ∧ t.readValue = s.stamp.extractLsb' 0 32 ∧
        t.latch g R.time_STAMP_HI = s.stamp.extractLsb' 32 32 ∧
        (∀ h a, (h, a) ≠ (g, R.time_STAMP_HI) → a < 0x100000000 → t.latch h a = s.latch h a) ∧
        t = { s with latches := t.latches, readValue := t.readValue }) ∧
  (∀ s : State, s.running = true → s.refMode = 2 →
      ∃ t off, exec .refInPpsEdge s = .next t ∧ t.refIn.lastEdgeAt = s.now ∧
        -500000000 ≤ off ∧ off < 500000000 ∧ (s.ptpNs - s.refCable - off) % 1000000000 = 0 ∧
        (s.now < s.refIn.lastEdgeAt + 875000000 ∨ s.refIn.lastEdgeAt + 1125000000 < s.now → t = { s with refIn := t.refIn }) ∧
        (s.refIn.lastEdgeAt + 875000000 ≤ s.now → s.now ≤ s.refIn.lastEdgeAt + 1125000000 → t.servo.refOffset = off ∧
          (¬(s.servo.source = some .refIn ∧ s.servo.state = .locked) →
            t = { s with servo := { s.servo with refOffset := off }, refIn := t.refIn }) ∧
          (s.servo.source = some .refIn → s.servo.state = .locked →
            t.servo.filtered = off ∧ t.servo.slewLeft = off * 65536000000)))

/-- O12. For REF_IN while D0 runs: in a good monitor a window whose periods all lie within 12.5 % of nominal clears the run of
glitched windows; a window that does not is a glitch, and the eighth in a row loses the clock. In a monitor that is not good the
eighth clean window in a row makes it good, and a window that is not clean ends the run. No edge for two nominal periods loses a
good clock. A lane's or PDM clock's monitor that is not good forgets its run of clean windows when no edge comes. (Rule R35.) -/
def Obligations.ClockMonitorsFollowR35 : Prop :=
  (∀ (s : State) (p : List Nat), s.running = true → p ≠ [] → s.refIn.state = .good →
      (windowWithin s.refIn.nominal p = true →
        ∃ t, exec (.monitorWindowEnd .refIn p) s = .next t ∧ t.refIn.state = .good ∧ t.refIn.glitchRun = 0) ∧
      (windowWithin s.refIn.nominal p = false → s.refIn.glitchRun < 7 →
        ∃ t, exec (.monitorWindowEnd .refIn p) s = .next t ∧ t.refIn.state = .good ∧ t.refIn.glitchRun = s.refIn.glitchRun + 1) ∧
      (windowWithin s.refIn.nominal p = false → 7 ≤ s.refIn.glitchRun →
        ∃ t, exec (.monitorWindowEnd .refIn p) s = .next t ∧ t.refIn.state = .lost)) ∧
  (∀ (s : State) (p : List Nat), s.running = true → p ≠ [] → (s.refIn.state = .acquiring ∨ s.refIn.state = .lost) →
      windowWithin s.refIn.nominal p = true →
      ∃ t, exec (.monitorWindowEnd .refIn p) s = .next t ∧
        (7 ≤ s.refIn.cleanRun → t.refIn.state = .good) ∧
        (s.refIn.cleanRun < 7 → t.refIn.state = s.refIn.state ∧ t.refIn.cleanRun = s.refIn.cleanRun + 1)) ∧
  (∀ (s : State) (p : List Nat), s.running = true → p ≠ [] → (s.refIn.state = .acquiring ∨ s.refIn.state = .lost) →
      windowWithin s.refIn.nominal p = false →
      ∃ t, exec (.monitorWindowEnd .refIn p) s = .next t ∧ t.refIn.state = s.refIn.state ∧ t.refIn.cleanRun = 0) ∧
  (∀ s : State, s.running = true → s.refIn.state = .good →
      ∃ t, exec (.monitorEdgeTimeout .refIn) s = .next t ∧ t.refIn.state = .lost) ∧
  (∀ (s : State) (l : Fin 34), s.running = true → (s.lane l.val).monitor.state ≠ .good →
      ∃ t, exec (.monitorEdgeTimeout (.lane l)) s = .next t ∧ (t.lane l.val).monitor.cleanRun = 0 ∧
        (∀ k, k ≠ l.val → t.lane k = s.lane k) ∧ t = { s with lanes := t.lanes }) ∧
  (∀ (s : State) (k : Fin 2), s.running = true → (s.pdm k.val).state ≠ .good →
      ∃ t, exec (.monitorEdgeTimeout (.pdm k)) s = .next t ∧ (t.pdm k.val).cleanRun = 0 ∧ t = { s with audio := t.audio })

/-- O13. On a pulse output of kind ONESHOT or PERIODIC: ARM_HI_WRITE arms the pin with ARM_HI and ARM_LO if the stamp lies at least
1 us ahead, a PERIODIC width is below the period, and the output gate is open; if one of these fails the arm is refused, no pin
changes and TIO_ARM_REFUSED is logged. When a ONESHOT output's armed stamp is reached, seeded and with the gate open and nothing
holding it, the pin goes active for WIDTH ns and is armed no more. When WIDTH has passed the pin returns to its inactive level.
No other pin changes. (Rules R41, R42.) -/
def Obligations.TioOutputsArmPulseAndEnd : Prop :=
  (∀ (g : Agent) (n : Fin 8) (v : Word) (s : State), s.running = true → s.tioMode n.val = 1 → s.tioKind n.val ≤ 1 →
      let a : Stamp := v ++ s.reg (R.tio_ARM_LO n.val)
      let early := stampDiff a s.stamp * (s.mode.fd * 1000000000 : Nat) < (1000 * s.mode.lines * s.mode.fn * 65536 : Nat)
      let wide := s.tioKind n.val = 1 ∧ widthReaches s.mode (s.tioTimeA n.val) (s.reg (R.tio_PERIOD_TICKS n.val)).toNat = true
      (¬early → ¬wide → s.startup.gateOpen = true →
        ∃ t, exec (.armHiWrite g n v) s = .next t ∧ (t.tioPin n.val).armed = some a ∧ t.reg (R.tio_ARM_HI n.val) = v ∧
          (∀ m, m ≠ n.val → t.tioPin m = s.tioPin m) ∧ t = { s with regs := t.regs, tio := t.tio }) ∧
      (early ∨ wide ∨ s.startup.gateOpen = false →
        ∃ t, exec (.armHiWrite g n v) s = .next t ∧ s.LogsOne t F.TIO_ARM_REFUSED ∧ t = { s with regs := t.regs, ledger := t.ledger })) ∧
  (∀ (n : Fin 8) (a : Stamp) (s : State), s.tioMode n.val = 1 → s.tioKind n.val = 0 → s.clock.seeded = true →
      s.startup.gateOpen = true → (s.tioPin n.val).armed = some a → s.reached a = true → (s.tioPin n.val).held = false →
      s.allHeld = false →
      ∃ t, exec (.tioPulseEdge n) s = .next t ∧ t.wire = .pin n.val true :: s.wire ∧
        (t.tioPin n.val).pulseEnd = some (s.now + s.tioTimeA n.val) ∧ (t.tioPin n.val).armed = none ∧
        (∀ m, m ≠ n.val → t.tioPin m = s.tioPin m) ∧ t = { s with wire := t.wire, tio := t.tio }) ∧
  (∀ (n : Fin 8) (e : Nat) (s : State), (s.tioPin n.val).pulseEnd = some e → s.due e = true →
      ∃ t, exec (.tioPulseEnd n) s = .next t ∧ t.wire = .pin n.val false :: s.wire ∧ (t.tioPin n.val).pulseEnd = none ∧
        (∀ m, m ≠ n.val → t.tioPin m = s.tioPin m) ∧ t = { s with wire := t.wire, tio := t.tio })

/-- O14. On a capture input while D0 runs: a transition of the raw level is remembered with its time and stamp; if an earlier one
was still waiting it is rejected and REJECTED counts one. A level that has held for FILTER ns becomes the qualified level; if
the pin is not quarantined, the edges of the last 1 ms number at most CHATTER, its direction is enabled and the FIFO holds fewer
than 16, one capture with the stamp of the transition joins the FIFO; if they number more, the pin is quarantined, its FIFO
stays, CHATTER is logged, and the count of its interrupt source is 255 with SAT. (Rules R44, R45.) -/
def Obligations.TioInputsQualifyAndCapture : Prop :=
  (∀ (n : Fin 8) (v : Bool) (s : State), s.running = true → s.tioMode n.val = 2 → v ≠ (s.tioPin n.val).raw →
      ∃ t, exec (.tioInputTransition n v) s = .next t ∧ (t.tioPin n.val).raw = v ∧ (t.tioPin n.val).rawAt = s.now ∧
        (t.tioPin n.val).rawStamp = s.stamp ∧ ((t.tioPin n.val).qualifying = true ↔ v ≠ (s.tioPin n.val).level) ∧
        (t.reg (R.tio_REJECTED n.val)).toNat = (if (s.tioPin n.val).qualifying then
          min 0xFFFFFFFF ((s.reg (R.tio_REJECTED n.val)).toNat + 1) else (s.reg (R.tio_REJECTED n.val)).toNat) ∧
        (∀ m, m ≠ n.val → t.tioPin m = s.tioPin m) ∧ (∀ a, a ≠ R.tio_REJECTED n.val → t.reg a = s.reg a) ∧
        t = { s with regs := t.regs, tio := t.tio }) ∧
  (∀ (n : Fin 8) (s : State), s.running = true → s.tioMode n.val = 2 → (s.tioPin n.val).qualifying = true →
      s.due ((s.tioPin n.val).rawAt + s.tioTimeA n.val) = true →
      ∃ t, exec (.tioLevelQualified n) s = .next t ∧ (t.tioPin n.val).level = (s.tioPin n.val).raw ∧
        (t.tioPin n.val).qualifying = false ∧ (∀ m, m ≠ n.val → t.tioPin m = s.tioPin m) ∧
        ((s.tioPin n.val).quarantined = false →
          ((s.tioPin n.val).edges.filter fun e => s.now < e + 1000000).length + 1 ≤ s.tioChatter n.val →
          bit (s.tioFlags n.val) (if (s.tioPin n.val).raw then 2 else 3) = true → (s.tioPin n.val).fifo.length < 16 →
          (t.tioPin n.val).fifo = (s.tioPin n.val).fifo ++ [⟨(s.tioPin n.val).rawStamp, (s.tioPin n.val).raw⟩]) ∧
        ((s.tioPin n.val).quarantined = false →
          s.tioChatter n.val < ((s.tioPin n.val).edges.filter fun e => s.now < e + 1000000).length + 1 →
          (t.tioPin n.val).quarantined = true ∧ (t.tioPin n.val).fifo = (s.tioPin n.val).fifo ∧ s.Logs t F.CHATTER ∧
            (t.source (3 + n.val)).count = 255 ∧ (t.source (3 + n.val)).sat = true) ∧
        t = { s with tio := t.tio, regs := t.regs, cores := t.cores, ledger := t.ledger })

/-- O15. On a capture input while D0 runs, whose active level began at b: TIO_STUCK_TIMEOUT sets STATUS.STUCK and logs TIO_STUCK
once if STUCK is not 0 and STUCK ms have passed since b; while STUCK is set already, or with STUCK 0, or before that time, it
changes nothing. It changes nothing else of the pin and no other pin. At a qualified edge the active level is remembered as
begun at the edge, or as ended; an inactive edge clears STUCK; whether STUCK was set makes no difference to what the edge does
to the pin, its captures and its chatter included, and no other pin changes. -/
def Obligations.StuckInputsFollowR46 : Prop :=
  ∀ (n : Fin 8) (s : State), s.running = true → s.tioMode n.val = 2 →
    (∀ b, (s.tioPin n.val).activeSince = some b →
      (0 < s.tioTimeB n.val → b + ms (s.tioTimeB n.val) < s.now → (s.tioPin n.val).stuck = false →
        ∃ t, exec (.tioStuckTimeout n) s = .next t ∧ t.tioPin n.val = { s.tioPin n.val with stuck := true } ∧
          bit (t.tioStatus n.val).toNat 2 = true ∧ s.LogsOne t F.TIO_STUCK ∧
          (∀ m, m ≠ n.val → t.tioPin m = s.tioPin m) ∧ t = { s with tio := t.tio, ledger := t.ledger }) ∧
      (s.tioTimeB n.val = 0 ∨ s.now ≤ b + ms (s.tioTimeB n.val) ∨ (s.tioPin n.val).stuck = true →
        exec (.tioStuckTimeout n) s = .next s)) ∧
    ((s.tioPin n.val).qualifying = true → s.due ((s.tioPin n.val).rawAt + s.tioTimeA n.val) = true →
      ∃ t, exec (.tioLevelQualified n) s = .next t ∧
        ((s.tioPin n.val).raw = bit (s.tioFlags n.val) 0 → (t.tioPin n.val).activeSince = some (s.tioPin n.val).rawAt) ∧
        ((s.tioPin n.val).raw ≠ bit (s.tioFlags n.val) 0 → (t.tioPin n.val).activeSince = none ∧ (t.tioPin n.val).stuck = false) ∧
        ∀ b, ∃ u, exec (.tioLevelQualified n) (s.modTioPin n.val fun p => { p with stuck := b }) = .next u ∧
          u.tioPin n.val = t.tioPin n.val ∧ (∀ m, m ≠ n.val → u.tioPin m = s.tioPin m))

/-- O16. While D0 runs: TIO_RELEASE ends the quarantine of a pin that nothing holds once 10 ms have passed since its last qualified
edge, and is otherwise ignored with TIO_RELEASE_IGNORED; it ends the hold of an output on which no cause stands while the servo
is LOCKED and nothing holds every output, and is ignored with TIO_RELEASE_IGNORED for a held output while the servo is not
LOCKED, something holds every output, or a cause that has not cleared stands on it. TIO_FLUSH empties the FIFO. A read of CAP_LO
takes the oldest capture out, returns the low word of its stamp and latches the high word and CAP_INFO for the reader; with an
empty FIFO all three are 0. (Rules R43 to R45, R48.) -/
def Obligations.TioControlsFromSoftware : Prop :=
  (∀ (g : Agent) (n : Fin 8) (s : State), s.running = true → (s.tioPin n.val).held = false → (s.tioPin n.val).quarantined = true →
      (s.due ((s.tioPin n.val).lastEdgeAt + 10000000) = true →
        ∃ t, exec (.tioRelease g n) s = .next t ∧ (t.tioPin n.val).quarantined = false ∧
          (∀ m, m ≠ n.val → t.tioPin m = s.tioPin m) ∧ t = { s with tio := t.tio }) ∧
      (s.due ((s.tioPin n.val).lastEdgeAt + 10000000) = false →
        ∃ t, exec (.tioRelease g n) s = .next t ∧ s.LogsOne t F.TIO_RELEASE_IGNORED ∧ t = { s with ledger := t.ledger })) ∧
  (∀ (g : Agent) (n : Fin 8) (s : State), s.running = true → (s.tioPin n.val).held = true → s.standing (.tio n.val) = [] →
      s.servo.state = .locked → s.allHeld = false →
      ∃ t, exec (.tioRelease g n) s = .next t ∧ (t.tioPin n.val).held = false ∧
        (∀ m, m ≠ n.val → t.tioPin m = s.tioPin m) ∧ t = { s with tio := t.tio }) ∧
  (∀ (g : Agent) (n : Fin 8) (s : State), s.running = true → (s.tioPin n.val).held = true →
      (s.servo.state ≠ .locked ∨ s.allHeld = true ∨ ∃ c ∈ s.standing (.tio n.val), c.cleared = none) →
      ∃ t, exec (.tioRelease g n) s = .next t ∧ s.LogsOne t F.TIO_RELEASE_IGNORED ∧ t = { s with ledger := t.ledger }) ∧
  (∀ (g : Agent) (n : Fin 8) (s : State), s.running = true →
      ∃ t, exec (.tioFlush g n) s = .next t ∧ t.tioPin n.val = { s.tioPin n.val with fifo := [] } ∧
        (∀ m, m ≠ n.val → t.tioPin m = s.tioPin m) ∧ t = { s with tio := t.tio }) ∧
  (∀ (g : Agent) (n : Fin 8) (s : State), s.running = true →
      ∃ t, exec (.capLoRead g n) s = .next t ∧ (t.tioPin n.val).fifo = (s.tioPin n.val).fifo.tail ∧
        (∀ c r, (s.tioPin n.val).fifo = c :: r → t.readValue = c.stamp.extractLsb' 0 32 ∧
          t.latch g (R.tio_CAP_HI n.val) = c.stamp.extractLsb' 32 32 ∧
          t.latch g (R.tio_CAP_INFO n.val) = (if c.rising then 3 else 2)) ∧
        ((s.tioPin n.val).fifo = [] → t.readValue = 0 ∧ t.latch g (R.tio_CAP_HI n.val) = 0 ∧ t.latch g (R.tio_CAP_INFO n.val) = 0) ∧
        (∀ m, m ≠ n.val → t.tioPin m = s.tioPin m) ∧ t = { s with tio := t.tio, latches := t.latches, readValue := t.readValue })

/-- O17. While D0 runs, SLOT_CHECK by an MDP session makes a slot that is not being validated and that no commit pins CHECKING
without a reason, and SLOT_CTRL_CLEAR by any agent makes an unpinned slot EMPTY; the other slot and every other part of the
state stay. A slot under validation (check) or pinned (check and clear) is left alone and IMG_SLOT_BUSY is logged once. From a
core SLOT_CHECK is ignored (R62). At the end of a validation without a finding the slot is VALID with REASON 0; with a finding
it is REFUSED, REASON shows the finding's class, and the class is logged. The other slot stays and IM_EVENTS bit 0 (CHECKED) is
set. -/
def Obligations.StagingSlotsAreCheckedAndCleared : Prop :=
  (∀ (g : Agent) (i : Fin 8) (n m : Fin 2) (s : State), s.running = true → m ≠ n →
      ((s.imgSlot n.val).state ≠ .checking → s.slotPinned n.val = false →
        ∃ t, exec (.slotCheck (.session i) n) s = .next t ∧ t.imgSlot n.val = { s.imgSlot n.val with state := .checking, reason := 0 } ∧
          t.imgSlot m.val = s.imgSlot m.val ∧ t = { s with im := t.im }) ∧
      ((s.imgSlot n.val).state = .checking ∨ s.slotPinned n.val = true →
        ∃ t, exec (.slotCheck (.session i) n) s = .next t ∧ s.LogsOne t F.IMG_SLOT_BUSY ∧ t = { s with ledger := t.ledger }) ∧
      (s.slotPinned n.val = false →
        ∃ t, exec (.slotCtrlClear g n) s = .next t ∧ t.imgSlot n.val = {} ∧ t.imgSlot m.val = s.imgSlot m.val ∧
          t = { s with im := t.im }) ∧
      (s.slotPinned n.val = true →
        ∃ t, exec (.slotCtrlClear g n) s = .next t ∧ s.LogsOne t F.IMG_SLOT_BUSY ∧ t = { s with ledger := t.ledger })) ∧
  (∀ (g : Agent) (n : Fin 2) (s : State), g.isCore = true →
      exec (.slotCheck g n) s = .next s) ∧
  (∀ (n m : Fin 2) (s : State), s.running = true → m ≠ n → (s.imgSlot n.val).state = .checking →
      ∃ t, exec (.validationDone n) s = .next t ∧ t.imgSlot m.val = s.imgSlot m.val ∧
        t.reg R.im_EVENTS &&& 1 = 1 ∧
        (s.checkImage (s.imgSlot n.val).bytes = none →
          t.imgSlot n.val = { s.imgSlot n.val with state := .valid, reason := 0 }) ∧
        (∀ c d, s.checkImage (s.imgSlot n.val).bytes = some (c, d) →
          t.imgSlot n.val = { s.imgSlot n.val with state := .refused, reason := c.code } ∧ s.Logs t c))

/-- O18. FLOOR_RAISE by an agent that may write it sets FLOOR and logs IMG_FLOOR when FLOOR < value <= RUN_ROLLBACK, and is ignored
otherwise. STAGED_WRITE of a session adds the write to the session's set, or with 256 staged logs IMG_STAGE_FULL; the register
itself stays. BOOT_WRITE of a VALID FULL slot starts a copy into a bank: the bank is WRITING and the slot's bytes are the copy.
While another write runs (log entry 24), and into the bank that the running device started from while the other bank is not
VALID, it is refused with IMG_BOOT_BUSY. BOOT_WRITE_DONE leaves the bank VALID with IMG_BOOT_WRITE, or INVALID with
IMG_BOOT_FAIL, as validation finds the copied bytes, and no write in progress. BOOT_PREFER of a valid bank sets the preferred
bank, of another it logs IMG_BOOT_BUSY. The other bank stays. (Rules R65, R67, R82.) -/
def Obligations.FloorStagedWritesAndBootStore : Prop :=
  (∀ (g : Agent) (v : Word) (s : State), s.running = true → s.adminWrite g = true →
      (s.im.floor.toNat < v.toNat ∧ v.toNat ≤ s.im.runRollback.toNat →
        ∃ t, exec (.floorRaise g v) s = .next t ∧ t.im = { s.im with floor := v } ∧ s.LogsOne t F.IMG_FLOOR ∧
          t = { s with im := t.im, ledger := t.ledger }) ∧
      (¬(s.im.floor.toNat < v.toNat ∧ v.toNat ≤ s.im.runRollback.toNat) → exec (.floorRaise g v) s = .next s)) ∧
  (∀ (g : Agent) (v : Word) (b : Bool) (n : Fin 2) (s : State), s.running = false ∨ s.adminWrite g = false →
      exec (.floorRaise g v) s = .next s ∧ exec (.bootWrite g b n) s = .next s ∧ exec (.bootPrefer g b) s = .next s) ∧
  (∀ (i : Fin 8) (a : Nat) (v : Word) (s : State), s.running = true → (s.session i.val).present = true →
      stagedRegister a = true → stagedInRange v = true →
      ((s.session i.val).staged.length < 256 →
        ∃ t, exec (.stagedWrite i a v) s = .next t ∧ (t.session i.val).staged = (s.session i.val).staged ++ [⟨a, v⟩] ∧
          (∀ j, j ≠ i.val → t.session j = s.session j) ∧ t.reg a = s.reg a ∧ t = { s with mdp := t.mdp }) ∧
      (256 ≤ (s.session i.val).staged.length →
        ∃ t, exec (.stagedWrite i a v) s = .next t ∧ s.LogsOne t F.IMG_STAGE_FULL ∧ t = { s with ledger := t.ledger })) ∧
  (∀ (g : Agent) (b : Bool) (n : Fin 2) (s : State), s.running = true → s.adminWrite g = true →
      (s.im.bootWrite = none → ¬(s.bootRuns = true ∧ s.im.startedFrom = b ∧ (s.bank (!b)).state ≠ .valid) →
        (s.imgSlot n.val).state = .valid → (imageOf (s.imgSlot n.val).bytes).kind = 1 →
        ∃ t, exec (.bootWrite g b n) s = .next t ∧ (t.bank b).state = .writing ∧ t.bank (!b) = s.bank (!b) ∧
          t.im.bootWrite = some (b, (s.imgSlot n.val).bytes) ∧ t = { s with im := t.im }) ∧
      (s.im.bootWrite.isSome = true ∨ (s.bootRuns = true ∧ s.im.startedFrom = b ∧ (s.bank (!b)).state ≠ .valid) →
        ∃ t, exec (.bootWrite g b n) s = .next t ∧ s.LogsOne t F.IMG_BOOT_BUSY ∧ t = { s with ledger := t.ledger })) ∧
  (∀ (b : Bool) (p : List Byte) (s : State), s.running = true → s.im.bootWrite = some (b, p) →
      ∃ t, exec .bootWriteDone s = .next t ∧ t.im.bootWrite = none ∧ (t.bank b).bytes = p ∧
        (t.bank b).state = (if s.checkImage p = none then .valid else .invalid) ∧ t.bank (!b) = s.bank (!b) ∧
        s.Logs t (if s.checkImage p = none then F.IMG_BOOT_WRITE else F.IMG_BOOT_FAIL)) ∧
  (∀ (g : Agent) (b : Bool) (s : State), s.running = true → s.adminWrite g = true →
      ((s.bank b).state = .valid → exec (.bootPrefer g b) s = .next { s with im := { s.im with preferred := b } }) ∧
      ((s.bank b).state ≠ .valid →
        ∃ t, exec (.bootPrefer g b) s = .next t ∧ s.LogsOne t F.IMG_BOOT_BUSY ∧ t = { s with ledger := t.ledger }))

/-- O19. While D0 runs, ISSUE of a session takes the next ticket, shown in the session's CMT_TICKET (u: the state with the ticket
taken). If the ten checks of R68 pass, the commit joins the pending ones with its waiting list, ACCEPTED or, with nothing to
wait for, READY; its staged set leaves the session. If one of them fails, the ticket is REFUSED, the pending commits and the
configuration stay, and for a CMT_SLOT that names neither 15 nor a VALID slot IMG_SLOT_STATE is logged. CANCEL by any agent
before the go point of a commit not in GO takes the commit out: its ticket is CANCELLED, IMG_CANCELLED is logged; from then on
it logs IMG_CANCEL_LATE and changes nothing else. GO_POINT, once the go point is reached: a commit that is not READY, or a roll
with fewer than 2 ripe spares, is taken out and abandoned with IMG_NOT_RIPE; one whose BASE_ID no longer holds, or that a
repeated check refuses, is abandoned with IMG_ABANDONED; any other becomes GO and nothing else changes. RENNET_POINT at a stamp
that is reached, with one commit in GO at it: the commit is no longer pending, its ticket is APPLIED and IMG_APPLIED is logged;
its sections are in the configuration and CONFIG_ID is the one of R66 (a commit without a slot, and the start commit, leave the
configuration). -/
def Obligations.CommitsAreIssuedCancelledAndApplied : Prop :=
  (∀ (i : Fin 8) (s : State), s.running = true →
      let x := s.issue i
      let c := x.commit
      let u := (s.modCommits fun m => { m with nextTicket := m.nextTicket + 1 }).setLatch (.session i) R.im_CMT_TICKET (w32 c.ticket)
      c.ticket = s.commits.nextTicket ∧
      (u.badSlot x = none → u.badRole c = none → badRoll c = none → u.badLead c = none → s.commits.live.length < 63 →
        u.lateChecks c = none →
        ∃ t w k, exec (.commitIssue (.session i)) s = .next t ∧ t.commits.nextTicket = c.ticket + 1 ∧
          t.latch (.session i) R.im_CMT_TICKET = w32 c.ticket ∧ w = u.mustReport c ∧ k = (if w.isEmpty then .ready else .accepted) ∧
          t.commits.live = s.commits.live ++ [{ c with waiting := w, state := k }] ∧
          (t.commits.tickets.find? fun y => y.ticket == c.ticket) = some ⟨c.ticket, k, 0⟩ ∧
          (t.session i.val).staged = [] ∧ t.config = s.config) ∧
      (u.badSlot x ≠ none ∨ u.badRole c ≠ none ∨ badRoll c ≠ none ∨ u.badLead c ≠ none ∨ 63 ≤ s.commits.live.length ∨
        u.lateChecks c ≠ none →
        ∃ t k, exec (.commitIssue (.session i)) s = .next t ∧ t.commits.nextTicket = c.ticket + 1 ∧
          t.latch (.session i) R.im_CMT_TICKET = w32 c.ticket ∧ t.commits.live = s.commits.live ∧
          (t.commits.tickets.find? fun y => y.ticket == c.ticket) = some ⟨c.ticket, .refused, k⟩ ∧ t.config = s.config ∧
          (x.slotNo ≠ 15 → ¬(x.slotNo < 2 ∧ (s.imgSlot x.slotNo).state = .valid) →
            k = F.IMG_SLOT_STATE.code ∧ s.Logs t F.IMG_SLOT_STATE))) ∧
  (∀ (g : Agent) (k : Nat) (c : Commit) (s : State), s.running = true → s.commitOf k = some c →
      (c.state ≠ .go → s.reached (s.goStamp c) = false →
        ∃ t, exec (.commitCancel g k) s = .next t ∧ t.commits.live = s.commits.live.filter (fun x => x.ticket != k) ∧
          (t.commits.tickets.find? fun y => y.ticket == k) = some ⟨k, .cancelled, 0⟩ ∧ s.Logs t F.IMG_CANCELLED ∧
          t.config = s.config) ∧
      (c.state = .go ∨ s.reached (s.goStamp c) = true →
        ∃ t, exec (.commitCancel g k) s = .next t ∧ s.LogsOne t F.IMG_CANCEL_LATE ∧ t = { s with ledger := t.ledger }) ∧
      (s.reached (s.goStamp c) = true → c.state ≠ .go →
        let unripe := c.state ≠ .ready ∨ (c.roll = true ∧ s.ripeSpares.length < 2)
        let bad := c.start = false ∧ (badBase s.im.configId c ≠ none ∨ s.badRole c ≠ none ∨ s.badOwner s.config c ≠ none)
        (unripe → ∃ t, exec (.goPoint k) s = .next t ∧ t.commits.live = s.commits.live.filter (fun x => x.ticket != k) ∧
          (t.commits.tickets.find? fun y => y.ticket == k) = some ⟨k, .abandoned, F.IMG_NOT_RIPE.code⟩ ∧
          s.Logs t F.IMG_NOT_RIPE ∧ t.config = s.config) ∧
        (¬unripe → bad → ∃ t, exec (.goPoint k) s = .next t ∧ t.commits.live = s.commits.live.filter (fun x => x.ticket != k) ∧
          (t.commits.tickets.find? fun y => y.ticket == k) = some ⟨k, .abandoned, F.IMG_ABANDONED.code⟩ ∧
          s.Logs t F.IMG_ABANDONED ∧ t.config = s.config) ∧
        (¬unripe → ¬bad → ∃ t, exec (.goPoint k) s = .next t ∧ t.commitOf k = some { c with state := .go } ∧
          (∀ j, j ≠ k → t.commitOf j = s.commitOf j) ∧ t = { s with commits := t.commits }))) ∧
  (∀ (a : Stamp) (c : Commit) (s : State), s.running = true → s.reached a = true →
      (s.commits.live.filter fun x => x.stamp == a && x.state == .go) = [c] →
      ∃ t, exec (.rennetPoint a) s = .next t ∧ t.commits.live = s.commits.live.filter (fun x => x.ticket != c.ticket) ∧
        (t.commits.tickets.find? fun x => x.ticket == c.ticket) = some ⟨c.ticket, .applied, 0⟩ ∧ s.Logs t F.IMG_APPLIED ∧
        t.config = (if c.start = true ∨ c.slot = none then s.config else projectOne s.config c) ∧
        t.im.configId = nextConfigId s.im.configId c)

/-- O20. A tile that is not gated and whose ripening has lasted until ripeFrom, and that a commit waits for, when it passes, leaves
the commit's waiting list; the commit is READY when the list is empty; for a tile that is no coder nothing else changes. When it
fails, the failure is logged (IMG_RIPEN_FAIL), and the commit is abandoned unless the tile is a coder of a roll. A ripening tile
that no commit waits for or holds, when it passes, joins service; when it fails, it is failed and IMG_RIPEN_FAIL is logged, and
the other tiles stay (both stated while no channel waits for a coder, outside TRIM). FT_REBUILD_DONE marks the rebuilt shadow as
waiting for its ticket and takes it from that commit's waiting list likewise. While a roll is active with a channel on the old
plane, at least 2 ripe spares and no step chosen, once the gap has all but MIN_LEAD passed, the next step's rennet point is
chosen: MIN_LEAD from now or the gap after the last step, whichever is later. At that point, with a ripe spare of the new plane,
the step is taken: a planned takeover of the lowest channel on the old plane is requested, steps go up by one, IMG_ROLL_STEP is
logged. After 1 s without a possible step the roll halts with IMG_ROLL_HALT. (Rules R70, R72, R74, R77, R78, R111.) -/
def Obligations.RipeningRollsAndShadowsReport : Prop :=
  (∀ (d : Fin 8) (x : Fin 64) (c : Commit) (s : State), (s.tile (tileNo d.val x.val)).state ≠ .gated →
      ((s.tile (tileNo d.val x.val)).state = .ripening → (s.tile (tileNo d.val x.val)).ripeFrom ≤ s.now) →
      (s.commits.live.find? fun c => c.waiting.contains (tileNo d.val x.val)) = some c → s.commitOf c.ticket = some c →
      (∃ t w, exec (.ripenDone d x none) s = .next t ∧ w = c.waiting.filter (fun y => y != tileNo d.val x.val) ∧
        t.commitOf c.ticket = some { c with waiting := w, state := if w.isEmpty then .ready else c.state } ∧
        (coderOf d.val x.val = none → t = { s with commits := t.commits })) ∧
      (∀ f : Fin 3, s.running = true →
        ∃ t, exec (.ripenDone d x (some f)) s = .next t ∧ s.Logs t F.IMG_RIPEN_FAIL ∧
          (¬(c.roll = true ∧ (coderOf d.val x.val).isSome = true) →
            t.commits.live = s.commits.live.filter (fun y => y.ticket != c.ticket) ∧
            (t.commits.tickets.find? fun y => y.ticket == c.ticket) = some ⟨c.ticket, .abandoned, F.IMG_ABANDONED.code⟩))) ∧
  (∀ (d : Fin 8) (x : Fin 64) (s : State), s.running = true → (s.tile (tileNo d.val x.val)).state = .ripening →
      (s.tile (tileNo d.val x.val)).ripeFrom ≤ s.now → (∀ c ∈ s.commits.live, tileNo d.val x.val ∉ c.waiting) →
      s.heldByCommit d.val x.val = false → (∀ c, (s.rind c).waits = none) → s.hull.state ≠ .trim →
      (∃ t, exec (.ripenDone d x none) s = .next t ∧ (t.tile (tileNo d.val x.val)).state = .inService) ∧
      (∀ f : Fin 3, ∃ t, exec (.ripenDone d x (some f)) s = .next t ∧ s.Logs t F.IMG_RIPEN_FAIL ∧
        (t.tile (tileNo d.val x.val)).state = .failed ∧ (∀ n, n ≠ tileNo d.val x.val → t.tile n = s.tile n))) ∧
  (∀ (k : Nat) (s : State), s.ft.rebuilding = some k →
      ∃ t, exec .ftRebuildDone s = .next t ∧ t.ft = { s.ft with rebuilding := none, rebuilt := some k } ∧
        (∀ c, s.commitOf k = some c → ∃ w, w = c.waiting.filter (fun y => y != shadowItem) ∧
          t.commitOf k = some { c with waiting := w, state := if w.isEmpty then .ready else c.state })) ∧
  (∀ s : State, s.roll.active = true → s.roll.nextStep = none → s.rollNext.isSome = true → 2 ≤ s.ripeSpares.length →
      let a := s.stamp + BitVec.ofNat 64 s.minLead
      let b := s.roll.lastStep + BitVec.ofNat 64 (ticksUp s.mode (ms s.roll.gap))
      s.reached (b - BitVec.ofNat 64 s.minLead) = true →
      ∃ p, exec .rollStepSchedule s = .next { s with roll := { s.roll with nextStep := some p } } ∧
        (p = a ∧ later b a = false ∨ p = b ∧ later b a = true)) ∧
  (∀ (a : Stamp) (c k n : Nat) (s : State), s.running = true → s.roll.active = true → s.roll.nextStep = some a →
      s.reached a = true → s.rollNext = some (c, k) → s.newSpare = some n →
      ∃ t, exec .rollStep s = .next t ∧ t.roll.steps = s.roll.steps + 1 ∧ t.roll.lastStep = a ∧
        t.roll.nextStep = none ∧ s.Logs t F.IMG_ROLL_STEP ∧
        (t.takeovers.any fun x => x.channel == c && x.coder == k && x.cause == 6) = true ∧
        (∀ x ∈ s.takeovers, x ∈ t.takeovers)) ∧
  (∀ (b : Nat) (s : State), s.running = true → s.roll.active = true → s.roll.stalled = some b → s.due (b + sec 1) = true →
      0 < s.rollRemaining →
      ∃ t, exec .rollHalt s = .next t ∧ t.roll = { s.roll with active := false, halted := true, nextStep := none, stalled := none } ∧
        s.Logs t F.IMG_ROLL_HALT)

/-- O21. While D0 runs and a processor kind's firmware is UNCONFIRMED, FW_CONFIRM by an agent that may write FW_CTRL releases the
old bank and logs IMG_FW_CONFIRMED; FW_REVERT swaps back to the old bank and its firmware by the same procedure (SWAPPING, with
the ALIVE limit of the kind) and logs IMG_FW_REVERT; with nothing UNCONFIRMED, or from an agent that may not write FW_CTRL, both
are ignored. New firmware that has not reported ALIVE in time goes back to the old bank likewise, and in phase 4 of start-up
phase 3 begins again instead, with START_FW_FAIL. The other kinds' banks stay. CORE_ALIVE sets the processor's ALIVE and no
other one's; the swap completes with the safety pair's report, or with that of the last of the four tending cores, and a tending
core's report changes no bank before that. (Rules R79, R80, R323, R408.) -/
def Obligations.FirmwareIsConfirmedRevertedAndReported : Prop :=
  (∀ (g : Agent) (p : Fin 3) (s : State), s.running = true →
      (s.adminWrite g = true → (s.fw p.val).unconfirmed = true →
        (∃ t, exec (.fwConfirm g p) s = .next t ∧ t.fw p.val = { s.fw p.val with unconfirmed := false, old := [] } ∧
          (∀ q : Fin 3, q ≠ p → t.fw q.val = s.fw q.val) ∧ s.Logs t F.IMG_FW_CONFIRMED) ∧
        (∃ t, exec (.fwRevert g p) s = .next t ∧ (t.fw p.val).running = (s.fw p.val).old ∧ (t.fw p.val).bank = !(s.fw p.val).bank ∧
          (t.fw p.val).reverted = true ∧ (t.fw p.val).unconfirmed = false ∧ (t.fw p.val).swapping = true ∧
          (t.fw p.val).aliveBy = some (s.now + aliveLimit p.val) ∧
          (∀ q : Fin 3, q ≠ p → t.fw q.val = s.fw q.val) ∧ s.Logs t F.IMG_FW_REVERT)) ∧
      (s.adminWrite g = false ∨ (s.fw p.val).unconfirmed = false →
        exec (.fwConfirm g p) s = .next s ∧ exec (.fwRevert g p) s = .next s)) ∧
  (∀ (p : Fin 3) (b : Nat) (s : State), s.running = true → (s.fw p.val).aliveBy = some b → s.due b = true →
      (s.startup.phase ≠ 4 →
        ∃ t, exec (.fwAliveTimeout p) s = .next t ∧ (t.fw p.val).running = (s.fw p.val).old ∧ (t.fw p.val).bank = !(s.fw p.val).bank ∧
          (t.fw p.val).reverted = true ∧ (∀ q : Fin 3, q ≠ p → t.fw q.val = s.fw q.val) ∧ s.Logs t F.IMG_FW_REVERT) ∧
      (s.startup.phase = 4 →
        ∃ t, exec (.fwAliveTimeout p) s = .next t ∧ t.startup.phase = 3 ∧ t.startup.phaseAt = s.now ∧ (t.fw p.val).aliveBy = none ∧
          (∀ q : Fin 3, q ≠ p → t.fw q.val = s.fw q.val) ∧ s.LogsOne t F.START_FW_FAIL)) ∧
  (∀ (g : Agent) (p : Fin 4) (s : State), s.running = true →
      ∃ t, exec (.coreAlive g ⟨p.val, by omega⟩) s = .next t ∧ (t.tc p.val).alive = true ∧
        (∀ q, q ≠ p.val → t.tc q = s.tc q) ∧
        ((∃ q : Fin 4, q ≠ p ∧ (s.tc q.val).alive = false) → t.im = s.im) ∧
        ((∀ q : Fin 4, q ≠ p → (s.tc q.val).alive = true) → t.im.fwTc.swapping = false ∧ t.im.fwTc.aliveBy = none)) ∧
  (∀ s : State, s.running = true →
      ∃ t, exec (.coreAlive .sp 4) s = .next t ∧ t.cores.sp = { s.cores.sp with alive := true } ∧ t.im.fwSp.swapping = false ∧
        t.im.fwSp.aliveBy = none)

/-- O22. Of a port whose try is within the limit of its step: a signal takes a lane from SIGNAL to CDR_LOCK. A converged equaliser
sets an adapting lane's FOM; the lane is LOCKED when FOM_MIN was met over 10 ms of adapting (the lowest FOM of those 10 ms and
the FOM now), else it goes on adapting. PCS lock in step 4 begins step 5. Past the limit of the step the three change nothing. A
LOCKED lane's adaptation step sets its FOM to the new one, or back to the old one when it is frozen or would lower the FOM by
more than 2, and LOWEST follows. A LOCKED lane whose FOM has lain below FOM_MIN + 16 for 100 ms logs LANE_LOW_FOM, once until it
has recovered. No other lane changes. (Rules R88, R91.) -/
def Obligations.LanesComeUpStepByStep : Prop :=
  (∀ (l : Fin 34) (s : State),
      (s.bringing l.val = true → (s.lane l.val).state = .signal →
        ∃ t, exec (.laneSignalDetect l) s = .next t ∧ (t.lane l.val).state = .cdrLock ∧ (t.lane l.val).signal = true ∧
          (∀ k, k ≠ l.val → t.lane k = s.lane k) ∧ t = { s with lanes := t.lanes, ports := t.ports }) ∧
      (∀ a f : Byte, s.bringing l.val = true → (s.lane l.val).state = .adapting →
        ∃ t, exec (.laneAdaptConverged l ⟨a, f⟩) s = .next t ∧ (t.lane l.val).fom = f.toNat ∧
          (t.lane l.val).lowest = min (s.lane l.val).lowest f.toNat ∧
          (t.lane l.val).state = (if s.fomMin l.val ≤ min a.toNat f.toNat ∧ s.due ((s.lane l.val).adaptSince + ms 10) = true
            then .locked else .adapting) ∧
          (∀ k, k ≠ l.val → t.lane k = s.lane k) ∧ t = { s with lanes := t.lanes, ports := t.ports }) ∧
      (s.bringing l.val = false →
        exec (.laneSignalDetect l) s = .next s ∧ ∀ a f : Byte, exec (.laneAdaptConverged l ⟨a, f⟩) s = .next s)) ∧
  (∀ (p : Fin 34) (s : State),
      (s.trying p.val = true → (s.port p.val).step = 4 →
        ∃ t, exec (.pcsLock p) s = .next t ∧ t.port p.val = { s.port p.val with step := 5, stepSince := s.now } ∧
          (∀ q, q ≠ p.val → t.port q = s.port q) ∧ t = { s with ports := t.ports }) ∧
      (s.trying p.val = false → exec (.pcsLock p) s = .next s)) ∧
  (∀ (l : Fin 34) (a b : Byte) (s : State), (s.lane l.val).state = .locked →
      ∃ t f, exec (.adaptStep l a b) s = .next t ∧
        f = (if (s.lane l.val).frozen = true ∨ b.toNat + 2 < a.toNat then a.toNat else b.toNat) ∧ (t.lane l.val).fom = f ∧
        (t.lane l.val).lowest = min (s.lane l.val).lowest f ∧ (t.lane l.val).state = .locked ∧
        (∀ k, k ≠ l.val → t.lane k = s.lane k) ∧ t = { s with lanes := t.lanes }) ∧
  (∀ (l : Fin 34) (b : Nat) (s : State), s.running = true → (s.lane l.val).lowSince = some b → (s.lane l.val).state = .locked →
      s.due (b + ms 100) = true →
      ((s.lane l.val).lowLogged = false →
        ∃ t, exec (.laneLowFom l) s = .next t ∧ t.lane l.val = { s.lane l.val with lowLogged := true } ∧
          (∀ k, k ≠ l.val → t.lane k = s.lane k) ∧ s.Logs t F.LANE_LOW_FOM) ∧
      ((s.lane l.val).lowLogged = true → exec (.laneLowFom l) s = .next s))

/-- O23. A port in step 5 within its limit, with no local or remote fault for 1 ms, is UP with no retries, and PORT_UP is logged
while D0 runs. A try whose step has overrun its limit ends: the next preset is tried from step 1, and after preset 3 the attempt
has failed: the port is DOWN and waits for retry k, where k is one more than the retries counted, or the same (at least 1) when
RETRY_NOW had started the attempt. After the wait of min(2^(k-1), 64) s, when an attempt may run, a DOWN port is in bring-up
again with one attempt and one retry more (at most 255); RETRY_NOW does the same at once without counting a retry, and nothing
where an attempt cannot start. A write of ADMIN that changes it: 0 leaves the port DISABLED; 1 leaves it enabled with LOOP and
PRBS clear on its lanes, and a disabled port in bring-up at once where an attempt may run; a write of the value held changes
nothing. (Rules R88, R93, R98.) -/
def Obligations.PortsAreTriedAndComeUp : Prop :=
  (∀ (p : Fin 34) (s : State), s.trying p.val = true → (s.port p.val).step = 5 →
      s.due (max (s.port p.val).stepSince (s.port p.val).faultAt + ms 1) = true →
      ∃ t, exec (.portUp p) s = .next t ∧ (t.port p.val).state = .up ∧ (t.port p.val).upSince = s.now ∧ (t.port p.val).retries = 0 ∧
        (s.running = true → s.Logs t F.PORT_UP) ∧ (∀ q, q ≠ p.val → t.port q = s.port q)) ∧
  (∀ (p : Fin 34) (s : State), (s.port p.val).state = .bringup →
      s.due ((s.port p.val).stepSince + ms (stepLimit p.val (s.port p.val).step)) = true →
      ∃ t, exec (.bringupStepTimeout p) s = .next t ∧ (∀ q, q ≠ p.val → t.port q = s.port q) ∧
        ((s.port p.val).preset < 3 → (t.port p.val).state = .bringup ∧ (t.port p.val).preset = (s.port p.val).preset + 1 ∧
          (t.port p.val).step = 1 ∧ (t.port p.val).stepSince = s.now) ∧
        (3 ≤ (s.port p.val).preset →
          let k := if (s.port p.val).retryNow then max 1 (s.port p.val).backoffK else (s.port p.val).backoffK + 1
          (t.port p.val).state = .down ∧ (t.port p.val).backoffK = k ∧ (t.port p.val).backoff = some (k, s.now))) ∧
  (∀ (p : Fin 34) (k b : Nat) (s : State), (s.port p.val).backoff = some (k, b) → s.due (b + 1000000000 * min (2 ^ (k - 1)) 64) = true →
      (s.port p.val).state = .down → s.mayAttempt p.val = true →
      ∃ t, exec (.backoffRetry p) s = .next t ∧ (t.port p.val).state = .bringup ∧ (t.port p.val).preset = 0 ∧ (t.port p.val).step = 1 ∧
        (t.port p.val).retries = min 255 ((s.port p.val).retries + 1) ∧ (t.port p.val).attempts = (s.port p.val).attempts + 1 ∧
        (∀ q, q ≠ p.val → t.port q = s.port q)) ∧
  (∀ (g : Agent) (p : Fin 34) (s : State),
      ((s.port p.val).state = .down → s.mayAttempt p.val = true →
        ∃ t, exec (.retryNow g p) s = .next t ∧ (t.port p.val).state = .bringup ∧ (t.port p.val).preset = 0 ∧ (t.port p.val).step = 1 ∧
          (t.port p.val).attempts = (s.port p.val).attempts + 1 ∧ (t.port p.val).backoffK = (s.port p.val).backoffK ∧
          (t.port p.val).retries = (s.port p.val).retries ∧ (∀ q, q ≠ p.val → t.port q = s.port q)) ∧
      ((s.port p.val).state ≠ .down ∨ s.mayAttempt p.val = false → exec (.retryNow g p) s = .next s)) ∧
  (∀ (g : Agent) (p : Fin 32) (s : State), s.running = true → s.portExists p.val = true →
      ((s.port p.val).admin = true →
        ∃ t, exec (.portAdmin g p false) s = .next t ∧ (t.port p.val).admin = false ∧ (t.port p.val).state = .disabled) ∧
      ((s.port p.val).admin = false →
        ∃ t, exec (.portAdmin g p true) s = .next t ∧ (t.port p.val).admin = true ∧ (t.port p.val).state ≠ .disabled ∧
          ((s.port p.val).state = .disabled → t.mayAttempt p.val = true → (t.port p.val).state = .bringup) ∧
          (∀ l ∈ s.lanesOf p.val, (t.lane l).loop = 0 ∧ (t.lane l).prbs = 0) ∧ (∀ q, q ≠ p.val → t.port q = s.port q)) ∧
      exec (.portAdmin g p (s.port p.val).admin) s = .next s)

/-- O24. A FOM below FOM_MIN for 1 ms on a LOCKED lane, a loss of PCS alignment, 16 uncorrectable codewords within 1 ms (media
ports) and a clause 81 fault of 1 ms each take an UP port DOWN; where an attempt may run it starts at once; no other port
changes. On a port that is not UP alignment loss changes nothing; a link fault there only begins anew the fault-free time of a
bring-up, and changes nothing elsewhere. Uncorrectable codewords that stay below 16 within 1 ms only count, saturating, and the
port stays UP. At the end of a 1 s window on an UP media port FEC_CORR counts the codewords corrected; a corrected-symbol ratio
above 10^-4 sets DEGRADED and logs FEC_DEGRADE (while D0 runs); DEGRADED ends once the ratio has lain below 10^-5 for 10 s, a
time that a window of another ratio ends and the first window below begins, at its start but not before the port was UP. (Rules
R88, R92.) -/
def Obligations.UpPortsGoDown : Prop :=
  (∀ (p : Fin 34) (s : State), (s.port p.val).state = .up →
      let down (t : State) : Prop := (t.port p.val).state = (if s.mayAttempt p.val then .bringup else .down) ∧
        ∀ q, q ≠ p.val → t.port q = s.port q
      (∀ (l : Fin 34) (b : Nat), s.portOfLane l.val = p.val → (s.lane l.val).badSince = some b → (s.lane l.val).state = .locked →
        s.due (b + ms 1) = true → ∃ t, exec (.fomBelowMin l) s = .next t ∧ down t) ∧
      (∃ t, exec (.pcsAlignmentLoss p) s = .next t ∧ down t) ∧
      (∀ n, p.val < 32 → 16 ≤ n + ((s.port p.val).uncorr.filter fun b => s.now < b + ms 1).length →
        ∃ t, exec (.fecUncorrBurst p n) s = .next t ∧ down t) ∧
      (∀ r, ∃ t, exec (.linkFaultPersist p r) s = .next t ∧ down t)) ∧
  (∀ (p : Fin 34) (r : Bool) (s : State), (s.port p.val).state ≠ .up →
      exec (.pcsAlignmentLoss p) s = .next s ∧
      ((s.port p.val).state = .bringup → ∃ t, exec (.linkFaultPersist p r) s = .next t ∧
        t.port p.val = { s.port p.val with
          localFault := (s.port p.val).localFault || !r, remoteFault := (s.port p.val).remoteFault || r, faultAt := s.now } ∧
        (∀ q, q ≠ p.val → t.port q = s.port q) ∧ t = { s with ports := t.ports }) ∧
      ((s.port p.val).state ≠ .bringup → exec (.linkFaultPersist p r) s = .next s)) ∧
  (∀ (p : Fin 34) (n : Nat) (s : State), p.val < 32 → (s.port p.val).state = .up →
      n + ((s.port p.val).uncorr.filter fun b => s.now < b + ms 1).length < 16 →
      ∃ t, exec (.fecUncorrBurst p n) s = .next t ∧ (t.port p.val).state = .up ∧
        (t.reg (R.port_FEC_UNCORR p.val)).toNat = min 0xFFFFFFFF ((s.reg (R.port_FEC_UNCORR p.val)).toNat + n) ∧
        (∀ b, b ≠ R.port_FEC_UNCORR p.val → t.reg b = s.reg b) ∧ t = { s with regs := t.regs, ports := t.ports }) ∧
  (∀ (p : Fin 34) (n w : Nat) (l : List Nat) (s : State), p.val < 32 → (s.port p.val).state = .up →
      ∃ t, exec (.fecDegrade p n w l) s = .next t ∧ (t.port p.val).state = .up ∧ (∀ q, q ≠ p.val → t.port q = s.port q) ∧
        (t.reg (R.port_FEC_CORR p.val)).toNat = min 0xFFFFFFFF ((s.reg (R.port_FEC_CORR p.val)).toNat + w) ∧
        (n < l.sum * 10000 → (t.port p.val).degraded = true ∧ (s.running = true → s.Logs t F.FEC_DEGRADE)) ∧
        (l.sum * 10000 ≤ n → n ≤ l.sum * 100000 → (t.port p.val).degraded = (s.port p.val).degraded) ∧
        (n ≤ l.sum * 100000 → (t.port p.val).cleanSince = none) ∧
        (l.sum * 100000 < n →
          (∀ b, (s.port p.val).cleanSince = some b →
            (t.port p.val).cleanSince = some b ∧
            (t.port p.val).degraded = (if s.due (b + sec 10) then false else (s.port p.val).degraded)) ∧
          ((s.port p.val).cleanSince = none →
            (t.port p.val).cleanSince = some (max (s.port p.val).upSince (s.now - sec 1)) ∧
            (t.port p.val).degraded = (s.port p.val).degraded)))

/-- O25. While D0 runs: a LOOP or PRBS pattern other than 0 on a lane whose port has ADMIN 1 is ignored and logs LOOP_REFUSED; else
it is taken (a LOOP of 0 takes a lane in LOOP to IDLE): entering or leaving the near-end loops tells the transmit pins' idle, a
pattern restarts PRBS_ERR at 0, pattern 3 is ignored. FREEZE is taken. A read of FOM answers LOWEST and CURRENT and resets
LOWEST. Removal of a present module leaves it absent and no existing port of the bus UP or in bring-up; insertion resets its
ports' back-off; when it reports ready, or 5 s after insertion, every DOWN port of the bus that may starts an attempt. A poll
stores what it reads (as alarm and power: whether any flag is set, and the lowest power), logs OPT_ALARM for each flag, and a
module found ready after insertion starts its ports. A host transaction makes an idle bus BUSY; on a busy or disabled one it
counts in OPT_ERRORS; its end clears BUSY and sets the result with DONE, NACK and the byte read. A stuck SDA that nine clocks do
not free disables the bus (OPT_BUS_STUCK), RESET_BUS enables it. (Rules R91, R93, R96, R98 to R101.) -/
def Obligations.LaneControlsAndOpticsBuses : Prop :=
  (∀ (g : Agent) (l : Fin 34) (v : Fin 4) (s : State), s.running = true →
      (v.val ≠ 0 → (s.port (s.portOfLane l.val)).admin = true →
        (∃ t, exec (.laneLoop g l v) s = .next t ∧ s.LogsOne t F.LOOP_REFUSED ∧ t = { s with ledger := t.ledger }) ∧
        (v.val ≠ 3 → ∃ t, exec (.lanePrbs g l v) s = .next t ∧ s.LogsOne t F.LOOP_REFUSED ∧ t = { s with ledger := t.ledger })) ∧
      (v.val = 0 ∨ (s.port (s.portOfLane l.val)).admin = false →
        (∃ t, exec (.laneLoop g l v) s = .next t ∧
          t.lane l.val = { s.lane l.val with
            loop := v.val
            state := if v.val ≠ 0 then .loop else if (s.lane l.val).state = .loop then .idle else (s.lane l.val).state } ∧
          (let was := (s.lane l.val).loop = 1 ∨ (s.lane l.val).loop = 2
           let is := v.val = 1 ∨ v.val = 2
           t.wire = if was ↔ is then s.wire else .laneIdle l.val (decide is) :: s.wire) ∧
          (∀ k, k ≠ l.val → t.lane k = s.lane k) ∧ t = { s with lanes := t.lanes, wire := t.wire }) ∧
        (v.val ≠ 3 → ∃ t, exec (.lanePrbs g l v) s = .next t ∧ (t.lane l.val).prbs = v.val ∧
          (v.val ≠ 0 → t.prbsErr l.val = 0) ∧ (∀ k, k ≠ l.val → t.lane k = s.lane k) ∧ t = { s with lanes := t.lanes })) ∧
      exec (.lanePrbs g l 3) s = .next s ∧
      (∀ b : Bool, ∃ t, exec (.laneFreeze g l b) s = .next t ∧ t.lane l.val = { s.lane l.val with frozen := b } ∧
        (∀ k, k ≠ l.val → t.lane k = s.lane k) ∧ t = { s with lanes := t.lanes }) ∧
      (∃ t, exec (.fomRead g l) s = .next t ∧ t.readValue = w32 (256 * (s.lane l.val).lowest + (s.lane l.val).fom) ∧
        t.lane l.val = { s.lane l.val with lowest := 255 } ∧ (∀ k, k ≠ l.val → t.lane k = s.lane k) ∧
        t = { s with lanes := t.lanes, readValue := t.readValue })) ∧
  (∀ (b : Fin 6) (s : State), s.running = true →
      ((s.optic b.val).present = true → ∃ t, exec (.optRemoved b) s = .next t ∧ (t.optic b.val).present = false ∧
        (∀ p ∈ busPorts b.val, s.portExists p = true → (t.port p).state ≠ .up ∧ (t.port p).state ≠ .bringup)) ∧
      ((s.optic b.val).present = false → ∃ t, exec (.optInserted b) s = .next t ∧ (t.optic b.val).present = true ∧
        (t.optic b.val).insertedAt = some s.now ∧ (∀ p ∈ busPorts b.val, (t.port p).backoff = none ∧ (t.port p).backoffK = 0) ∧
        s.Logs t F.OPT_INSERTED) ∧
      (∀ (k : Bool) (a : Nat), (s.optic b.val).present = true → (s.optic b.val).insertedAt = some a → k = true ∨ s.due (a + sec 5) = true →
        ∃ t, exec (.optModuleReady ⟨b, k⟩) s = .next t ∧ (t.optic b.val).ready = k ∧ (t.optic b.val).insertedAt = none ∧
          (∀ p ∈ busPorts b.val, s.mayAttempt p = true → (s.port p).state = .down → (t.port p).state = .bringup))) ∧
  (∀ (b : Fin 6) (r : OpticReading) (s : State), s.running = true → s.optPolls b.val = true → (s.optic b.val).stuck = false →
      (s.optic b.val).busy = false → s.due ((s.optic b.val).pollAt + ms 100) = true → r.present = (s.optic b.val).present →
      ∃ t new, exec (.optPoll b r) s = .next t ∧ t.optic b.val = { s.optic b.val with
          pollAt := s.now, nack := r.nack, int := r.int, alarm := !r.flags.isEmpty, ready := r.ready, temp := r.temp
          rxPower := lowestPower r.rxPower
          insertedAt := if r.ready && r.present then none else (s.optic b.val).insertedAt } ∧
        (∀ k, k ≠ b.val → t.optic k = s.optic k) ∧ t.ledger.outbox = s.ledger.outbox ++ new ∧
        new.map (fun e => (e.cls, e.data)) = r.flags.map (fun f => (F.OPT_ALARM.code, leBytes 1 b.val ++ leBytes 1 f)) ∧
        (r.ready = true → r.present = true → (s.optic b.val).insertedAt.isSome = true →
          ∀ p ∈ busPorts b.val, s.mayAttempt p = true → (s.port p).state = .down → (t.port p).state = .bringup)) ∧
  (∀ (g : Agent) (b : Fin 6) (s : State), s.running = true →
      (∀ v, (s.optic b.val).busy = false → (s.optic b.val).stuck = false →
        ∃ t, exec (.optCmd g b v) s = .next t ∧ t.optic b.val = { s.optic b.val with busy := true, cmd := v, result := 0 } ∧
          (∀ k, k ≠ b.val → t.optic k = s.optic k) ∧ t = { s with optics := t.optics }) ∧
      (∀ v, ((s.optic b.val).busy = true ∨ (s.optic b.val).stuck = true) →
        ∃ t, exec (.optCmd g b v) s = .next t ∧
          (t.reg (R.opt_OPT_ERRORS b.val)).toNat = min 0xFFFFFFFF ((s.reg (R.opt_OPT_ERRORS b.val)).toNat + 1) ∧
          t = { s with regs := t.regs }) ∧
      (∀ (a : Bool) (d : Byte), (s.optic b.val).busy = true →
        ∃ t, exec (.optCmdDone b a d) s = .next t ∧ (t.optic b.val).busy = false ∧ (t.optic b.val).nack = !a ∧
          (t.optic b.val).result = (if a then (if bit (s.optic b.val).cmd.toNat 31 then w32 (0x80000000 + d.toNat) else 0x80000000)
            else 0xC0000000) ∧ (∀ k, k ≠ b.val → t.optic k = s.optic k)) ∧
      ((s.optic b.val).stuck = false →
        (∃ t, exec (.optSdaStuck b false) s = .next t ∧ t.optic b.val = { s.optic b.val with stuck := true, busy := false } ∧
          s.Logs t F.OPT_BUS_STUCK) ∧
        (∃ t, exec (.optSdaStuck b true) s = .next t ∧ t.optics = s.optics)) ∧
      (∃ t, exec (.optResetBus g b) s = .next t ∧ t.optic b.val = { s.optic b.val with stuck := false } ∧
        (∀ k, k ≠ b.val → t.optic k = s.optic k) ∧ t = { s with optics := t.optics }))

/-- O26. A frame at an UP port while D0 runs: with a bad FCS it only counts in FCS_ERR; shorter than 64 bytes, longer than the MTU
or with a MAC address that the port does not take, it only counts in RX_DROP. Of ARP, neighbour discovery and echo, a frame that
the port answers (ownAnswer gives the answer) counts in RX_FRAMES and its answer leaves the port, at once or when the line is
free of curd packets; over 1,000 answers in the second, or with an answer of over 256 line bytes on a port of an enabled
channel, it only counts in RX_DROP. A UDP packet of no flow, not PTP and not a pair datagram of a pair-link port, counts in
RX_FRAMES and, with FT_CTRL bit 0 clear, in FT_UNKNOWN only. One of a ring flow counts in its entry and enters the ring whose
descriptor at RING_HEAD is free: RING_HEAD advances, the frame's bytes, as many as the descriptor's buffer takes, stand at the
buffer's address (where it does not overlap the descriptor's fields that the ZH48 writes), the descriptor holds the frame's
length, and no byte outside buffer and descriptor changes. (Rules R87, R106 to R108, R114, R172.) -/
def Obligations.FramesAreCountedAnsweredAndDelivered : Prop :=
  (∀ (p : Fin 34) (f : List Byte) (s : State), s.running = true → (s.port p.val).state = .up →
      let rxDrop := if p.val < 32 then R.port_RX_DROP p.val else R.mp_RX_DROP (p.val - 32)
      let rxFcs := if p.val < 32 then R.port_RX_FCS_ERR p.val else R.mp_RX_FCS_ERR (p.val - 32)
      let counts (t : State) (a : Nat) : Prop :=
        (t.reg a).toNat = min 0xFFFFFFFF ((s.reg a).toNat + 1) ∧ (∀ b, b ≠ a → t.reg b = s.reg b) ∧ t = { s with regs := t.regs }
      (∃ t, exec (.frameRx p f false) s = .next t ∧ counts t rxFcs) ∧
      (f.length + 4 < 64 ∨ s.portMtu p.val < f.length + 4 ∨ s.takesMac p.val (be f 0 6) = false →
        ∃ t, exec (.frameRx p f true) s = .next t ∧ counts t rxDrop) ∧
      (∀ r, 64 ≤ f.length + 4 → f.length + 4 ≤ s.portMtu p.val → s.takesMac p.val (be f 0 6) = true → helperFrame f = true →
        s.ownAnswer p.val f = some r →
        let tooMany := (s.port p.val).answers.1 = s.now / 1000000000 ∧ 1000 ≤ (s.port p.val).answers.2 ∨
          s.carriesCurds p.val = true ∧ 256 < r.length + 24
        (tooMany → ∃ t, exec (.frameRx p f true) s = .next t ∧ counts t rxDrop) ∧
        (¬ tooMany → ∃ t, exec (.frameRx p f true) s = .next t ∧ s.Sends t p.val (r.length + 24) (.eth p.val r) ∧
          (∀ q, q ≠ p.val → t.port q = s.port q) ∧ t = { s with regs := t.regs, ports := t.ports, wire := t.wire }))) ∧
  (∀ (p : Fin 34) (f : List Byte) (u : Udp) (s : State), s.running = true → (s.port p.val).state = .up → p.val < 32 →
      64 ≤ f.length + 4 → f.length + 4 ≤ s.portMtu p.val → s.takesMac p.val (be f 0 6) = true → helperFrame f = false →
      queryOf f = none → (ipOf f).bind udpOf = some u → s.isPtp p.val u = false →
      (u.dport = 47810 → s.pairPorts.contains p.val = false) → s.inService 1 8 = true →
      (s.flowLookup u.dst u.src u.dport p.val = none → bit (s.reg R.ft_FT_CTRL).toNat 0 = false →
        ∃ t, exec (.frameRx p f true) s = .next t ∧
          (t.reg R.ft_FT_UNKNOWN).toNat = min 0xFFFFFFFF ((s.reg R.ft_FT_UNKNOWN).toNat + 1) ∧
          (t.reg (R.port_RX_FRAMES p.val)).toNat = min 0xFFFFFFFF ((s.reg (R.port_RX_FRAMES p.val)).toNat + 1) ∧
          t = { s with regs := t.regs }) ∧
      (∀ i, s.flowLookup u.dst u.src u.dport p.val = some i → (s.ftEntry i).kind = 3 →
        let n := (s.ftEntry i).target % 64
        let head := (s.reg (R.ring_RING_HEAD n)).toNat
        let d := s.ringBase n + 32 * head
        let buf := le (s.bytes d 8) 0 8
        let len := min f.length (le (s.bytes (d + 8) 2) 0 2)
        s.ringSlots n ≠ 0 → head ≠ (s.reg (R.ring_RING_TAIL n)).toNat % s.ringSlots n →
        ∃ t, exec (.frameRx p f true) s = .next t ∧ t.reg (R.ring_RING_HEAD n) = w32 ((head + 1) % s.ringSlots n) ∧
          (t.ftEntry i).pkts = min 0xFFFFFFFF ((s.ftEntry i).pkts + 1) ∧
          (∀ k, k < len → ¬(d + 10 ≤ buf + k ∧ buf + k < d + 28) → t.byte (buf + k) = f.getD k 0) ∧
          le (t.bytes (d + 10) 2) 0 2 = f.length % 65536 ∧
          (∀ a, ¬(buf ≤ a ∧ a < buf + len) → ¬(d + 10 ≤ a ∧ a < d + 28) → t.byte a = s.byte a)))

/-- O27. With the flow table in service while D0 runs, for the entry in the agent's window: an ADD of KIND 3 to 5 whose ports exist
puts a new key at a free candidate index, which FT_RESULT shows, with code 0, as a valid entry of the active bank; an existing
key has code 2, no room code 1 with FT_NO_ROOM, another KIND, or a port that does not exist (DESIGN CHOICE, log entry 69), code
4. While a rebuild, a rebuilt bank or the copy is held the shadow bank takes the key as well, unless it holds it; where it has
no room nothing is added, with code 1 and BOTH set. A REMOVE of a KIND 3 to 5 entry found clears it with code 0, of none has
code 3, of KIND 1 or 2 code 4; the shadow bank held then loses such an entry of the key too. Nothing else of the banks changes.
READ shows the counters of the entry at FT_INDEX, LOOKUP finds the window's key or has code 3; neither changes the table. When
the background copy ends COPYING clears. A ring of 2^4 to 2^16 descriptors is enabled with RING_HEAD 0 when it was disabled; 0
disables it; any other write of RING_SIZE changes nothing. (Rules R85, R110, R111, R114.) -/
def Obligations.FlowTableIsWrittenReadAndCopied : Prop :=
  (∀ (g : Agent) (s : State), s.running = true → s.inService 1 8 = true →
      let e := { readEntry (s.ftWindow g) with valid := true }
      let a := s.ft.bankOf s.ft.active
      let b := s.ft.bankOf (!s.ft.active)
      let res (t : State) (both : Bool) (code i : Nat) : Prop :=
        t.latch g R.ft_FT_RESULT = w32 (0x80000000 + 0x40000000 * b2n both + 0x1000000 * code + i)
      let banks (t : State) (a' b' : Sparse FtEntry) : Prop :=
        t.ft.active = s.ft.active ∧ t.ft.bankOf s.ft.active = a' ∧ t.ft.bankOf (!s.ft.active) = b'
      let shadow := if s.ftBoth then bankAdd b e else some b
      (hostKind e.kind = false ∨ s.portsExist e.ports = false → ∃ t, exec (.ftAdd g) s = .next t ∧ res t false 4 0 ∧ t.ft = s.ft) ∧
      (hostKind e.kind = true → s.portsExist e.ports = true →
        (∀ i, bankFind a e.key = some i → ∃ t, exec (.ftAdd g) s = .next t ∧ res t false 2 i ∧ banks t a (shadow.getD b)) ∧
        (bankFind a e.key = none → bankRoom a e.key = none →
          ∃ t, exec (.ftAdd g) s = .next t ∧ res t false 1 0 ∧ t.ft = s.ft ∧ s.Logs t F.FT_NO_ROOM) ∧
        (∀ i, bankFind a e.key = none → bankRoom a e.key = some i →
          (shadow = none → ∃ t, exec (.ftAdd g) s = .next t ∧ res t true 1 0 ∧ t.ft = s.ft ∧ s.Logs t F.FT_NO_ROOM) ∧
          (∀ b', shadow = some b' → ∃ t, exec (.ftAdd g) s = .next t ∧ res t false 0 i ∧ banks t (bankPut a i e) b'))) ∧
      (e.kind = 1 ∨ e.kind = 2 → ∃ t, exec (.ftRemove g) s = .next t ∧ res t false 4 0 ∧ t.ft = s.ft) ∧
      (e.kind ≠ 1 → e.kind ≠ 2 →
        let less := if s.ftBoth then bankRemove b e.key else b
        (bankFind a e.key = none → ∃ t, exec (.ftRemove g) s = .next t ∧ res t false 3 0 ∧ banks t a less) ∧
        (∀ i, bankFind a e.key = some i →
          (hostKind (bankGet a i).kind = true → ∃ t, exec (.ftRemove g) s = .next t ∧ res t false 0 i ∧ banks t (bankPut a i {}) less) ∧
          (hostKind (bankGet a i).kind = false → ∃ t, exec (.ftRemove g) s = .next t ∧ res t false 4 i ∧ t.ft = s.ft))) ∧
      (∃ t i, exec (.ftRead g) s = .next t ∧ i = (s.latch g R.ft_FT_INDEX).toNat % 1048576 ∧ res t false 0 i ∧
        t.latch g R.ft_FT_PKTS = w32 (s.ftEntry i).pkts ∧ t.latch g R.ft_FT_DROPS = w32 (s.ftEntry i).drops ∧ t.ft = s.ft) ∧
      (bankFind a e.key = none → ∃ t, exec (.ftLookup g) s = .next t ∧ res t false 3 0 ∧ t.ft = s.ft) ∧
      (∀ i, bankFind a e.key = some i → ∃ t, exec (.ftLookup g) s = .next t ∧ res t false 0 i ∧
        t.latch g R.ft_FT_PKTS = w32 (s.ftEntry i).pkts ∧ t.latch g R.ft_FT_DROPS = w32 (s.ftEntry i).drops ∧ t.ft = s.ft)) ∧
  (∀ s : State, s.ft.copying = true →
      ∃ t, exec .ftCopyDone s = .next t ∧ t.ft = { s.ft with copying := false } ∧ t = { s with ft := t.ft }) ∧
  (∀ (g : Agent) (n : Fin 64) (v : Word) (s : State), s.running = true → s.inService 1 8 = true →
      (v.toNat % 32 = 0 → ∃ t, exec (.ringEnable g n v) s = .next t ∧ t.ringSlots n.val = 0 ∧ t = { s with regs := t.regs }) ∧
      (4 ≤ v.toNat % 32 → v.toNat % 32 ≤ 16 → s.ringSlots n.val = 0 →
        ∃ t, exec (.ringEnable g n v) s = .next t ∧ t.ringSlots n.val = 2 ^ (v.toNat % 32) ∧ t.reg (R.ring_RING_HEAD n.val) = 0 ∧
          t = { s with regs := t.regs }) ∧
      (v.toNat % 32 ≠ 0 → s.ringSlots n.val ≠ 0 ∨ v.toNat % 32 < 4 ∨ 16 < v.toNat % 32 → exec (.ringEnable g n v) s = .next s))

/-- O28. When no packet of an enabled channel has been accepted for 2 declared frame periods with the output gate open, its input is
lost, INPUT_LOSS is logged (while D0 runs), and a channel of a sending module that is not off is in its harmless state. After
GAP_US without a packet the frame in progress has no stripe line open any more; it stays in progress with the pixels it has
placed. When a missing number's SKEW_US has elapsed, no missing number of the flow is that old, no new number is missing, and
each number that left counts in MERGE_LOST of its tile (saturating). A path of a merged flow that has delivered nothing for 10
ms while the other delivers is no longer present, and MERGE_PATH_LOSS is logged (while D0 runs), once until the path delivers
again; the other path and every other flow stay. (Rules R116, R117, R120, R121, R142.) -/
def Obligations.InputTimeoutsOfChannelsAndPaths : Prop :=
  (∀ (c : Fin 48) (s : State), s.chanOn c.val = true → s.startup.gateOpen = true → (s.chIn c.val).lossStands = false →
      s.due (max (s.chIn c.val).watchFrom ((s.chIn c.val).lastAccept.getD 0) + 2 * s.chanPeriod c.val) = true →
      ∃ t, exec (.inputLossTimeout c) s = .next t ∧ (t.chIn c.val).lossStands = true ∧ (t.chIn c.val).input = 2 ∧
        (t.chIn c.val).frame = (s.chIn c.val).frame ∧ (t.chIn c.val).merge = (s.chIn c.val).merge ∧
        (∀ d, d ≠ c.val → t.chIn d = s.chIn d) ∧ (s.running = true → s.Logs t F.INPUT_LOSS) ∧
        (s.sends = true → (s.chan c.val).state ≠ .off → (t.chan c.val).state = .harmless)) ∧
  (∀ (c : Fin 48) (f : FrameIn) (b : Nat) (s : State), (s.chIn c.val).frame = some f → (s.chIn c.val).lastAccept = some b →
      s.due (b + us (s.gapUs c.val)) = true →
      ∃ t e, exec (.stripeGapTimeout c) s = .next t ∧ (t.chIn c.val).frame = some e ∧ e.open_ = [] ∧ e.number = f.number ∧
        e.rtp = f.rtp ∧ e.placed = f.placed ∧ (∀ d, d ≠ c.val → t.chIn d = s.chIn d)) ∧
  (∀ (c : Fin 48) (n : Nat) (x : Missing) (s : State), ((s.chIn c.val).merge.missing.find? fun y => y.seq == n) = some x →
      s.due (x.since + us (s.skewUs c.val)) = true →
      ∃ t, exec (.mergeSkewTimeout (.channel c) n) s = .next t ∧
        (∀ y ∈ (t.chIn c.val).merge.missing, y ∈ (s.chIn c.val).merge.missing ∧ s.now < y.since + us (s.skewUs c.val)) ∧
        (t.chIn c.val).merge.high = (s.chIn c.val).merge.high ∧ (∀ d, d ≠ c.val → t.chIn d = s.chIn d) ∧
        (t.reg (R.ig_MERGE_LOST (s.chanTile c.val))).toNat =
          min 0xFFFFFFFF ((s.reg (R.ig_MERGE_LOST (s.chanTile c.val))).toNat +
            ((s.chIn c.val).merge.missing.length - (t.chIn c.val).merge.missing.length))) ∧
  (∀ (v n : Nat) (p : SurfPlan) (x : Missing) (s : State), s.surfPlan v = some p →
      ((s.surface v).merge.missing.find? fun y => y.seq == n) = some x → s.due (x.since + us p.skewUs) = true →
      ∃ t, exec (.mergeSkewTimeout (.surface v) n) s = .next t ∧
        (∀ y ∈ (t.surface v).merge.missing, y ∈ (s.surface v).merge.missing ∧ s.now < y.since + us p.skewUs) ∧
        (t.surface v).slots = (s.surface v).slots ∧ (∀ d, d ≠ v → t.surface d = s.surface d) ∧
        (t.reg (R.ig_MERGE_LOST p.tile)).toNat = min 0xFFFFFFFF ((s.reg (R.ig_MERGE_LOST p.tile)).toNat +
          ((s.surface v).merge.missing.length - (t.surface v).merge.missing.length))) ∧
  (∀ (c : Fin 48) (s : State), s.chanMerged c.val = true →
      let x := s.chIn c.val
      let logs (t : State) : Prop := (∀ d, d ≠ c.val → t.chIn d = s.chIn d) ∧ (s.running = true → s.Logs t F.MERGE_PATH_LOSS)
      (x.pathB.silent x.pathA x.merge.startAt s.now = true →
        ∃ t, exec (.pathSilenceTimeout (.channel c) true) s = .next t ∧ logs t ∧
          t.chIn c.val = { x with pathB := { x.pathB with ok := false, lost := true } }) ∧
      (x.pathA.silent x.pathB x.merge.startAt s.now = true →
        ∃ t, exec (.pathSilenceTimeout (.channel c) false) s = .next t ∧ logs t ∧
          t.chIn c.val = { x with pathA := { x.pathA with ok := false, lost := true } })) ∧
  (∀ (v : Nat) (p : SurfPlan) (s : State), s.surfPlan v = some p → s.surfMerged v = true →
      let x := s.surface v
      let logs (t : State) : Prop := (∀ d, d ≠ v → t.surface d = s.surface d) ∧ (s.running = true → s.Logs t F.MERGE_PATH_LOSS)
      (x.pathB.silent x.pathA x.merge.startAt s.now = true →
        ∃ t, exec (.pathSilenceTimeout (.surface v) true) s = .next t ∧ logs t ∧
          t.surface v = { x with pathB := { x.pathB with ok := false, lost := true } }) ∧
      (x.pathA.silent x.pathB x.merge.startAt s.now = true →
        ∃ t, exec (.pathSilenceTimeout (.surface v) false) s = .next t ∧ logs t ∧
          t.surface v = { x with pathA := { x.pathA with ok := false, lost := true } }))

/-- O29. SKEW_US after a frame's closing trigger the frame is closed: it is open no more, and no frame that was not open becomes so.
A frame with a first curd and no trigger for CLOSE_MS gets its trigger now, and SURF_CLOSE_TIMEOUT is logged (while D0 runs). A
write that does not reach the memory queue in time is undone: the slot's version of that frame is again what it wrote over, the
slot's other version stays, the frame no longer counts the slot as written, WRITE_DROPS counts, and MEM_WRITE_DROP is logged at
most once per second and group (while D0 runs). After FORGET_MS without an accepted packet a surface forgets its claim and its
merge tracker and keeps its slots and frames. No other surface changes. (Rules R126, R194, R284.) -/
def Obligations.SurfaceFramesCloseAndWritesAreUndone : Prop :=
  (∀ (v f b : Nat) (p : SurfPlan) (e : SurfFrame) (s : State), s.surfPlan v = some p →
      ((s.surface v).frames.find? fun x => x.number == f) = some e →
      (e.trigger = some b → s.due (b + us p.skewUs) = true →
        ∃ t, exec (.surfaceFrameClose v f) s = .next t ∧ (∀ x ∈ (t.surface v).frames, x.number ≠ f ∧ x ∈ (s.surface v).frames) ∧
          (∀ d, d ≠ v → t.surface d = s.surface d)) ∧
      (e.trigger = none → e.firstAt = some b → s.due (b + ms p.closeMs) = true →
        ∃ t, exec (.surfaceCloseTimeout v f) s = .next t ∧
          ((t.surface v).frames.find? fun x => x.number == f) = some { e with trigger := some s.now } ∧
          (t.surface v).slots = (s.surface v).slots ∧ (∀ d, d ≠ v → t.surface d = s.surface d) ∧
          (s.running = true → s.Logs t F.SURF_CLOSE_TIMEOUT))) ∧
  (∀ (g : Fin 4) (v i f : Nat) (e : SurfFrame) (s : State),
      ((s.surface v).frames.find? fun x => x.number == f) = some e → e.written.contains i = true →
      (((s.surface v).slot i).tagged f).isSome = true →
      ∃ t, exec (.surfaceWriteTimeout g v i f) s = .next t ∧
        (let was := (s.surface v).slot i
         let is := (t.surface v).slot i
         if was.a.map (·.frame) = some f then is.a = was.undo ∧ is.b = was.b else is.b = was.undo ∧ is.a = was.a) ∧
        (∀ j, j ≠ i → (t.surface v).slot j = (s.surface v).slot j) ∧
        (∀ y ∈ (t.surface v).frames, y.number = f → i ∉ y.written) ∧ (∀ d, d ≠ v → t.surface d = s.surface d) ∧
        (t.reg R.mem_WRITE_DROPS).toNat = min 0xFFFFFFFF ((s.reg R.mem_WRITE_DROPS).toNat + 1) ∧
        (s.running = true → (∀ r, s.rate F.MEM_WRITE_DROP.code g.val = some r → r.lastAt + sec 1 ≤ s.now) →
          s.LogsOne t F.MEM_WRITE_DROP) ∧
        (∀ r, s.rate F.MEM_WRITE_DROP.code g.val = some r → s.now < r.lastAt + sec 1 → t.ledger.outbox = s.ledger.outbox)) ∧
  (∀ (v c b : Nat) (s : State), (s.surface v).claim = some c → (s.surface v).lastAt = some b →
      s.due (b + ms (if s.hasSection 0x0501 4 8 then s.claimField 4 2 else 2000)) = true →
      ∃ t, exec (.claimForget v) s = .next t ∧ t.surface v = { s.surface v with claim := none, merge := {} } ∧
        (∀ d, d ≠ v → t.surface d = s.surface d) ∧ t = { s with surfaces := t.surfaces })

/-- O30. A lane takes the curd dealt to it: at a restart position with RESTART; elsewhere not before the curd above is resolved, on
its reconstruction when it was coded and stands in the column's store, else with RESTART; at line T of a takeover with RESTART
in a restart row, else on the mirror entry that the brine store gives, if any. CURD_SELECT selects the lane's whole curd once
its units' time has passed and the curd above is selected, and the coder counts its units and one curd; it is skipped where it
may be, else it has the press's winner under the allowance (if there is one); of the only curd in hand D is charged 30 bytes and
the payload. A verdict, deadline or hand-over touches no other channel. While the curd above the only one in hand is not
resolved: a good verdict before the deadline marks it passed, an injected failure of check x marks it failed with x, counts in
CC_MISMATCH and logs VERIFY_MISMATCH; a deadline that passes marks it late, counts in CC_LATE and owes the entry, or marks it
fenced where its coder is not admitted. 1 us after the deadline the owed CURD_LATE entry is handed over, at most one per second,
and owed no more. (Rules R161, R167, R173, R177, R178, R193, R201.) -/
def Obligations.CurdsAreTakenSelectedAndJudged : Prop :=
  (∀ (c : Fin 48) (l : Fin 4) (b : BrineRead) (j : Job) (s : State),
      let d := s.deal c.val true
      let at_ (i : Job) : Bool := i.at j.frame j.line j.stripe j.k
      let col := columnOf j.stripe j.k
      let pos := restartPos ((s.underPlan c.val j.frame).chanV c.val) j.line j.k
      let takes (restart : Bool) (up : Option (List (List Int))) : Prop :=
        ∃ t, exec (.laneTakeCurd c ⟨l, b⟩) s = .next t ∧ (∀ e, e ≠ c.val → t.chan e = s.chan e) ∧ t.queues = s.queues ∧ t.wire = s.wire ∧
          ∀ i ∈ (t.chan c.val).jobs, at_ i = true → i.takenAt = some s.now ∧ i.restart = restart ∧ i.above = up ∧ i.qb = t.qNextOf c.val col
      ((d.chan c.val).jobs.find? fun j => j.lane == some l.val && j.takenAt.isNone && !j.source.isEmpty) = some j →
      (pos = true → takes true none) ∧
      (pos = false → d.atTakeover c.val j = false →
        (d.aboveDone c.val j = none → exec (.laneTakeCurd c ⟨l, b⟩) s = .next d) ∧
        (∀ how, d.aboveDone c.val j = some how →
          let stored := (d.coder j.coder).store.get (fun _ => (0, 0, [])) col
          (how = 1 ∧ stored.1 = j.frame ∧ stored.2.1 + 1 = j.line → takes false (some stored.2.2)) ∧
          (¬(how = 1 ∧ stored.1 = j.frame ∧ stored.2.1 + 1 = j.line) → takes true none))) ∧
      (pos = false → d.atTakeover c.val j = true →
        ((d.rind c.val).restartRow = true → takes true none) ∧
        ((d.rind c.val).restartRow = false → b ≠ .header → ∀ how, d.aboveDone c.val j = some how →
          takes (d.entryAbove c.val j b).isNone (d.entryAbove c.val j b)))) ∧
  (∀ (c : Fin 48) (l : Fin 4) (j : Job) (s : State),
      ((s.chan c.val).jobs.find? fun j => j.lane == some l.val && j.takenAt.isSome && j.selectedAt.isNone) = some j →
      j.coder < 52 → j.done = true → j.lacks = false → s.aboveSelected c.val j = true → j.units ≤ j.took s.now →
      let u := s.underPlan c.val j.frame
      let a := u.pressPlan c.val
      let skips := u.maySkip c.val j (if u.chanSkip c.val then u.signature c.val j.source.reverse else 0)
      let wins (w : Winner) : Prop := chooseWinner (curdBound a.geom.fmt j.units) (a.allowance j.line j.stripe j.k (s.chan c.val).bank)
        (a.candidates j.line j.stripe j.k j.qb j.restart j.above j.source.reverse) = some w
      ∃ t, exec (.curdSelect c l) s = .next t ∧
        (t.reg (R.coder_UNITS j.coder)).toNat = min 0xFFFFFFFF ((s.reg (R.coder_UNITS j.coder)).toNat + j.units) ∧
        (t.reg (R.coder_CURDS j.coder)).toNat = min 0xFFFFFFFF ((s.reg (R.coder_CURDS j.coder)).toNat + 1) ∧
        (∀ e, e ≠ c.val → t.chan e = s.chan e) ∧
        (∀ i ∈ (t.chan c.val).jobs, i.at j.frame j.line j.stripe j.k = true →
          (skips = true → i.fate = some .skip) ∧ (∀ w, skips = false → wins w → i.winner = some w ∧ i.selectedAt = some s.now)) ∧
        (∀ w, skips = false → wins w → (s.chan c.val).jobs = [j] → j.fate = none → j.resolved = false →
          (t.chan c.val).bank = min (u.chanBank c.val) ((s.chan c.val).bank + a.base j.line j.stripe j.k - (30 + w.payload.length)))) ∧
  (∀ (c : Fin 48) (st : Fin 4) (k : Nat) (x : Option (Fin 4)) (s : State),
      (∃ t, exec (.verdict c st k x) s = .next t ∧ ∀ e, e ≠ c.val → t.chan e = s.chan e) ∧
      (∃ t, exec (.verdictDeadline c st k) s = .next t ∧ ∀ e, e ≠ c.val → t.chan e = s.chan e)) ∧
  (∀ (c : Fin 48) (st : Fin 4) (j : Job) (s : State), (s.chan c.val).jobs = [j] → j.stripe = st.val → j.resolved = false →
      j.fate = none → j.line ≠ 0 → s.aboveDone c.val j = none →
      (∀ w, j.winner = some w → j.lacks = false → s.due (j.lastAt + 531) = false →
        let u := s.underPlan c.val j.frame
        let head : CurdHead := { line := j.line, stripe := j.stripe, index := j.k, q := w.q, restart := w.restart, floor := w.floor,
                                 zone := w.zone, length := w.payload.length }
        let above := if j.restart then none else some ((s.coder j.coder).verify.get (fun _ => (0, 0, [])) (columnOf j.stripe j.k)).2.2
        (verifyCurd (u.chanGeom c.val).fmt (u.chanV c.val) j.units above head w j.source.reverse = none →
          ∃ t, exec (.verdict c st j.k none) s = .next t ∧ (t.chan c.val).jobs = [{ j with fate := some .pass }] ∧
            (t.coder j.coder).verify.get (fun _ => (0, 0, [])) (columnOf j.stripe j.k) = (j.frame, j.line, w.recon)) ∧
        (∀ x : Fin 4, s.running = true → j.coder < 52 →
          ∃ t, exec (.verdict c st j.k (some x)) s = .next t ∧ (t.chan c.val).jobs = [{ j with fate := some (.fail (x.val + 1)) }] ∧
            (t.reg (R.cc_CC_MISMATCH (s.egOf c.val) c.val)).toNat =
              min 0xFFFFFFFF ((s.reg (R.cc_CC_MISMATCH (s.egOf c.val) c.val)).toNat + 1) ∧
            s.Logs t F.VERIFY_MISMATCH)) ∧
      (j.done = true → s.due (j.lastAt + 530) = true →
        (s.admitted j = true →
          ∃ t, exec (.verdictDeadline c st j.k) s = .next t ∧ (t.chan c.val).jobs = [{ j with fate := some .late, owed := true }] ∧
            (t.reg (R.cc_CC_LATE (s.egOf c.val) c.val)).toNat = min 0xFFFFFFFF ((s.reg (R.cc_CC_LATE (s.egOf c.val) c.val)).toNat + 1)) ∧
        (s.admitted j = false →
          ∃ t, exec (.verdictDeadline c st j.k) s = .next t ∧ (t.chan c.val).jobs = [{ j with fate := some .fence }]))) ∧
  (∀ (c : Fin 48) (st : Fin 4) (k : Nat) (j : Job) (s : State),
      ((s.chan c.val).jobs.find? fun j => j.stripe == st.val && j.k == k && j.owed && s.due (j.lastAt + 1530)) = some j →
      ∃ t, exec (.curdLateHandover c st k) s = .next t ∧
        (∀ i ∈ (t.chan c.val).jobs, i.at j.frame j.line j.stripe j.k = true → i.owed = false) ∧
        (s.running = true → (∀ r, s.rate F.CURD_LATE.code c.val = some r → r.lastAt + sec 1 ≤ s.now) → s.LogsOne t F.CURD_LATE) ∧
        (∀ r, s.rate F.CURD_LATE.code c.val = some r → s.now < r.lastAt + sec 1 → t.ledger.outbox = s.ledger.outbox) ∧
        (∀ d, d ≠ c.val → t.chan d = s.chan d) ∧ t = { s with chans := t.chans, ledger := t.ledger })

/-- O31. A packed packet open for 4 us, or one that waiting longer would make late, is closed and sent under the next SEQ. When the
last bit of the packet at the head of an UP port's queue has had its time, its packet leaves on the port with the headers of its
path, the rest of the queue stays, EG's TX_PKTS counts one, and for a curd packet the channel's largest latency follows its
oldest curd; when the queue is empty the oldest waiting frame of another kind is started. One frame period after the last
end-of-validity record a sending module sends the next under the next SEQ: while a cause stands, with the shown REASON and
CLASS, whose change gives it a new STAMP (DEDUCED, log entry 66); after a stop, while more than one period is left; then it
sends none any more and CHANNEL_END is logged (while D0 runs). Signatures of a line that cannot be read are all invalid, and so
is one that was not written; every other signature stays, and nothing falls when the line can be read. No other channel changes.
(Rules R142, R173, R182, R183, R185, R188, R285.) -/
def Obligations.PacketsLeaveAndSignaturesFall : Prop :=
  (∀ (c : Fin 48) (p : OpenPacket) (s : State), (s.chan c.val).packet = some p →
      s.due (p.openedAt + us 4) = true ∨ s.packetFull c.val p = true →
      ∃ t, exec (.packedPacketTimeout c) s = .next t ∧ (t.chan c.val).packet = none ∧
        (t.chan c.val).seq = ((s.chan c.val).seq + 1) % 2 ^ 32 ∧ (∀ d, d ≠ c.val → t.chan d = s.chan d)) ∧
  (∀ (p : Fin 32) (s : State), (s.port p.val).state = .up →
      (∀ q r, s.queue p.val = q :: r → s.due (s.departsAt p.val q) = true →
        ∃ t, exec (.packetDepart p) s = .next t ∧ t.queue p.val = r ∧ (∀ k, k ≠ p.val → t.queue k = s.queue k) ∧
          (let left := Sent.media p.val (s.pathPacket q.path q.bytes) :: s.wire
           (r ≠ [] ∨ (s.port p.val).others = [] → t.wire = left ∧ (t.port p.val).others = (s.port p.val).others) ∧
           (∀ n x o, r = [] → (s.port p.val).others = (n, x) :: o → t.wire = x :: left ∧ (t.port p.val).others = o)) ∧
          (t.reg (R.eg_TX_PKTS (p.val / 8))).toNat = min 0xFFFFFFFF ((s.reg (R.eg_TX_PKTS (p.val / 8))).toNat + 1) ∧
          (∀ d, t.chan d = if q.curd = true ∧ d = q.channel then
            { s.chan d with latMax := max (s.chan d).latMax (s.now - q.firstAt) } else s.chan d)) ∧
      (∀ n x o, s.queue p.val = [] → (s.port p.val).others = (n, x) :: o → s.due (s.port p.val).lineFree = true →
        ∃ t, exec (.packetDepart p) s = .next t ∧ t.wire = x :: s.wire ∧ (t.port p.val).others = o ∧ t.queues = s.queues ∧ t.chans = s.chans)) ∧
  (∀ (c : Fin 48) (e : Eov) (s : State), (s.chan c.val).eov = some e → s.due (e.lastAt + s.chanPeriod c.val) = true → s.sends = true →
      (e.left = none →
        let r := s.channelReason c.val
        let same := r = (7, 0) ∨ r = (e.reason, e.cls)
        ∃ t x, exec (.channelEovRepeat c) s = .next t ∧ (t.chan c.val).eov = some x ∧ x.left = none ∧ x.lastAt = s.now ∧
          (same → x.stamp = e.stamp ∧ x.reason = e.reason ∧ x.cls = e.cls) ∧
          (¬ same → x.stamp = s.stamp ∧ (x.reason, x.cls) = r) ∧
          (t.chan c.val).seq = ((s.chan c.val).seq + 1) % 2 ^ 32 ∧ (∀ d, d ≠ c.val → t.chan d = s.chan d)) ∧
      (∀ n, e.left = some (n + 2) →
        ∃ t, exec (.channelEovRepeat c) s = .next t ∧ (t.chan c.val).eov = some { e with left := some (n + 1), lastAt := s.now } ∧
          (t.chan c.val).seq = ((s.chan c.val).seq + 1) % 2 ^ 32 ∧ (∀ d, d ≠ c.val → t.chan d = s.chan d)) ∧
      (e.left = some 1 ∨ e.left = some 0 →
        ∃ t, exec (.channelEovRepeat c) s = .next t ∧ (t.chan c.val).eov = none ∧ (s.running = true → s.Logs t F.CHANNEL_END) ∧
          t.queues = s.queues ∧ t.wire = s.wire ∧ (∀ d, d ≠ c.val → t.chan d = s.chan d))) ∧
  (∀ (c : Fin 48) (n i : Nat) (s : State),
      exec (.signaturePrefetchDone c n true) s = .next s ∧
      (∃ t, exec (.signaturePrefetchDone c n false) s = .next t ∧
        (t.chan c.val).sigs.get (fun _ => ⟨0, false⟩) i =
          (if n * (s.chanGeom c.val).positions.length ≤ i ∧ i < (n + 1) * (s.chanGeom c.val).positions.length then ⟨0, false⟩
           else (s.chan c.val).sigs.get (fun _ => ⟨0, false⟩) i) ∧
        (∀ d, d ≠ c.val → t.chan d = s.chan d) ∧ t = { s with chans := t.chans }) ∧
      (∃ t, exec (.signatureWriteTimeout c n) s = .next t ∧
        (t.chan c.val).sigs.get (fun _ => ⟨0, false⟩) i =
          (if i = n then ⟨0, false⟩ else (s.chan c.val).sigs.get (fun _ => ⟨0, false⟩) i) ∧
        (∀ d, d ≠ c.val → t.chan d = s.chan d) ∧ t = { s with chans := t.chans }))

/-- O32. A hardware cause (1 ECC, 2 clock, 3 watchdog with units waiting in a stripe FIFO) on the coder that holds a channel fences
it at once and requests a takeover with that cause; a failed self-check of a holder requests cause 4 and logs CODER_SUSPECT
(while D0 runs). ECC, clock and self-check causes on a spare, ripening or ripe coder make it failed, and CODER_FAULT is logged
(while D0 runs); on a failed one ECC and clock causes change nothing, and a watchdog without units to take changes nothing.
While D0 runs and the tile is in service: RETEST makes a failed coder ripen again and changes no other; RETIRE makes a spare,
ripening or ripe coder failed and changes no other; a MOVE of a channel with a coder to a ripe spare or to any requests cause 5,
and one that names no ripe spare, or of a channel without a coder, only counts in MOVE_REFUSED. No older request is dropped; no
other coder changes. (Rules R179, R195, R196, R204.) -/
def Obligations.CoderCausesFenceFailAndRequest : Prop :=
  (∀ (k : Fin 52) (c : Nat) (s : State), (s.coder k.val).channel = some c →
      let asks (t : State) (cause : Nat) : Prop := (t.takeovers.any fun y => y.channel == c && y.coder == k.val && y.cause == cause) = true ∧
        ∀ y ∈ s.takeovers, y ∈ t.takeovers
      let fences (t : State) : Prop := t.coder k.val = { s.coder k.val with fenced := true } ∧ ∀ j, j ≠ k.val → t.coder j = s.coder j
      (∃ t, exec (.coderEccFault k) s = .next t ∧ fences t ∧ asks t 1) ∧
      (∃ t, exec (.coderClockLoss k) s = .next t ∧ fences t ∧ asks t 2) ∧
      (0 < s.fifoFill c k.val → ∃ t, exec (.coderWatchdog k) s = .next t ∧ fences t ∧ asks t 3) ∧
      (s.fifoFill c k.val = 0 → exec (.coderWatchdog k) s = .next s) ∧
      (∀ b : Bool, ∃ t, exec (.coderSelfCheckFail k b) s = .next t ∧ t.coders = s.coders ∧ asks t 4 ∧
        (s.running = true → s.Logs t F.CODER_SUSPECT))) ∧
  (∀ (k : Fin 52) (s : State), (s.coder k.val).channel = none →
      let fails (t : State) : Prop := t.coder k.val = { s.coder k.val with state := .failed } ∧
        (∀ j, j ≠ k.val → t.coder j = s.coder j) ∧ (s.running = true → s.Logs t F.CODER_FAULT)
      exec (.coderWatchdog k) s = .next s ∧
      ((s.coder k.val).state = .spare ∨ (s.coder k.val).state = .ripening ∨ (s.coder k.val).state = .ripe →
        (∃ t, exec (.coderEccFault k) s = .next t ∧ fails t) ∧ (∃ t, exec (.coderClockLoss k) s = .next t ∧ fails t) ∧
        (∀ b : Bool, ∃ t, exec (.coderSelfCheckFail k b) s = .next t ∧ fails t)) ∧
      ((s.coder k.val).state = .failed → exec (.coderEccFault k) s = .next s ∧ exec (.coderClockLoss k) s = .next s)) ∧
  (∀ (g : Agent) (k : Fin 64) (s : State), s.running = true → s.inService 4 8 = true → k.val < 52 →
      ((s.coder k.val).state = .failed →
        ∃ t, exec (.coderRetest g k) s = .next t ∧ (t.coder k.val).state = .ripening ∧ (t.coder k.val).retest = true ∧
          (t.coder k.val).ripeFrom = s.now ∧ (t.coder k.val).channel = (s.coder k.val).channel ∧
          (∀ j, j ≠ k.val → t.coder j = s.coder j) ∧ t = { s with coders := t.coders, tiles := t.tiles }) ∧
      ((s.coder k.val).state ≠ .failed → exec (.coderRetest g k) s = .next s) ∧
      ((s.coder k.val).channel = none →
        ((s.coder k.val).state = .spare ∨ (s.coder k.val).state = .ripening ∨ (s.coder k.val).state = .ripe) →
        ∃ t, exec (.coderRetire g k) s = .next t ∧ t.coder k.val = { s.coder k.val with state := .failed } ∧
          (∀ j, j ≠ k.val → t.coder j = s.coder j)) ∧
      ((s.coder k.val).state = .holding ∨ (s.coder k.val).state = .failed → exec (.coderRetire g k) s = .next s)) ∧
  (∀ (g : Agent) (c : Fin 48) (v : Word) (s : State), s.running = true → s.inService 4 (0x10 + c.val) = true →
      (∀ h, (s.rind c.val).coder = some h → (bit v.toNat 7 = true ∨ v.toNat % 64 ∈ s.ripeSpares) →
        ∃ t, exec (.rindMove g c v) s = .next t ∧
          (t.takeovers.any fun y => y.channel == c.val && y.coder == h && y.cause == 5) = true ∧
          (∀ y ∈ s.takeovers, y ∈ t.takeovers) ∧ t = { s with takeovers := t.takeovers }) ∧
      ((s.rind c.val).coder = none ∨ (bit v.toNat 7 = false ∧ v.toNat % 64 ∉ s.ripeSpares) →
        ∃ t, exec (.rindMove g c v) s = .next t ∧
          (t.reg (R.rind_MOVE_REFUSED c.val)).toNat = min 0xFFFFFFFF ((s.reg (R.rind_MOVE_REFUSED c.val)).toNat + 1) ∧
          (∀ b, b ≠ R.rind_MOVE_REFUSED c.val → t.reg b = s.reg b) ∧ t = { s with regs := t.regs }))

/-- O33. In the source role with the safety pair running CLAIM_GRANT serves the cause to arbitrate next, if any; else, with a ripe
spare, the channel that has waited longest; else the first enabled channel that has no coder and may have one. A grant below the
STORM limit of the last second, and outside an exhausted term of pair mode, gives the channel its ripe spare (the
lowest-numbered, or the target that the cause names) under its next claim, pending until its first line, which may begin 500 ns
later for a cause but 6, and the coder is HOLDING the channel; no other channel's rind changes. At the limit no claim is
granted: the storm is marked and CLAIM_STORM logged (while D0 runs). A cause 1 to 4 of the holding coder without a ripe spare
leaves the channel waiting, with NO_SPARE (while D0 runs); a MOVE then counts in MOVE_REFUSED. CLAIM_STORM_CLEAR ends the storm
of a channel whose grants made and refused in the last second number at most STORM, and no other channel's. (Rules R192, R193,
R196, R197, R198.) -/
def Obligations.ClaimsAreGrantedAndStormsEnd : Prop :=
  (∀ (s : State), s.spRuns = true → s.roleNo = 0 →
      let below (c : Nat) : Prop := (lastSecond s.now (s.rind c).grants).length < s.stormLimit ∧
        ¬(s.pairMode = true ∧ 16 ≤ (s.nextClaim c).2)
      let granted (t : State) (c k from_ : Nat) : Prop :=
        (t.rind c).coder = some k ∧ (t.rind c).claim = (s.nextClaim c).1 ∧ (t.rind c).pending = true ∧ (t.rind c).notBefore = from_ ∧
        (t.rind c).grants = s.now :: lastSecond s.now (s.rind c).grants ∧ (t.rind c).waits = none ∧
        (t.coder k).state = .holding ∧ (t.coder k).channel = some c ∧ (∀ d, d ≠ c → t.rind d = s.rind d)
      (∀ x rest, s.nextCause = some (x, rest) → (s.rind x.channel).coder = some x.coder →
        let c := x.channel
        let spare := match x.target with | some k => if s.ripeSpares.contains k then some k else none | none => s.lowestSpare
        (∀ k, spare = some k → below c →
          ∃ t, exec .claimGrant s = .next t ∧ granted t c k (if x.cause = 6 then s.now else s.now + 500) ∧
            (x.cause ≤ 4 → s.running = true → s.Logs t F.CODER_FAULT)) ∧
        (∀ k, spare = some k → s.stormLimit ≤ (lastSecond s.now (s.rind c).grants).length →
          ∃ t, exec .claimGrant s = .next t ∧ (t.rind c).storm = true ∧ (s.running = true → s.Logs t F.CLAIM_STORM) ∧
            (∀ d, d ≠ c → t.rind d = s.rind d)) ∧
        (spare = none → x.cause ≤ 4 →
          ∃ t, exec .claimGrant s = .next t ∧ (t.rind c).waits.isSome = true ∧ (s.running = true → s.Logs t F.NO_SPARE) ∧
            (∀ d, d ≠ c → t.rind d = s.rind d)) ∧
        (spare = none → x.cause = 5 →
          ∃ t, exec .claimGrant s = .next t ∧ t = { s with takeovers := rest, regs := t.regs } ∧
            (t.reg (R.rind_MOVE_REFUSED c)).toNat = min 0xFFFFFFFF ((s.reg (R.rind_MOVE_REFUSED c)).toNat + 1))) ∧
      (s.nextCause = none →
        (∀ e l k, s.waitingChannels = e :: l → s.lowestSpare = some k → below e.2 →
          ∃ t, exec .claimGrant s = .next t ∧ granted t e.2 k s.now) ∧
        (∀ c k, s.waitingChannels = [] → s.unserved = some c → s.lowestSpare = some k → below c →
          ∃ t, exec .claimGrant s = .next t ∧ granted t c k s.now))) ∧
  (∀ (c : Fin 48) (s : State), (s.rind c.val).storm = true →
      ((lastSecond s.now (s.rind c.val).grants).length + (lastSecond s.now (s.rind c.val).refused).length ≤ s.stormLimit →
        ∃ t, exec (.claimStormClear c) s = .next t ∧ (t.rind c.val).storm = false ∧ (t.rind c.val).coder = (s.rind c.val).coder ∧
          (∀ d, d ≠ c.val → t.rind d = s.rind d) ∧ t = { s with rinds := t.rinds, ledger := t.ledger }) ∧
      (s.stormLimit < (lastSecond s.now (s.rind c.val).grants).length + (lastSecond s.now (s.rind c.val).refused).length →
        exec (.claimStormClear c) s = .next s))

/-- O34. In pair mode, after READY has been judged anew, a HEARTBEAT with the module's FLAGS and CONFIG_ID goes to the peer when
HB_US has passed since the last or FLAGS have changed; from the active or switching module, when frame records have been formed
since the last datagram, one RECORDS datagram that holds them, after which none are unsent. PAIR_SWITCH (while D0 runs) of the
active module whose peer is heard and READY sends HANDOVER with H 50 ms ahead, and the module is SWITCHING and yields; otherwise
only SWITCH_REFUSED counts one. Each datagram is a UDP packet to the peer's address from the address of the pair-link port in
use (TTL and checksum: log entry 34), with the module's PAIR_ID, RANK and TERM, the tag under PAIR_KEY, and a STAMP that is the
raster's, or one past that of the last datagram sent where the raster's is not later; it leaves at once or waits for the port's
line; without a pair-link port UP none leaves. (Rules R102, R206, R207, R212.) -/
def Obligations.PairDatagramsAreSent : Prop :=
  let sends (r t : State) (type : Nat) (body : List Byte) : Prop :=
    let stamp := match r.pair.lastStamp with | some l => if later r.stamp l then r.stamp else l + 1 | none => r.stamp
    t.pair.lastStamp = some stamp ∧ (r.pairPort = none → t.wire = r.wire ∧ t.ports = r.ports) ∧
    ∀ p, r.pairPort = some p →
      let addr := r.pairAddr 0
      let v6 := !isV4 addr
      let head := pairHeader type (r.pairField 8 4) (r.pairField 1 1) (r.pair.term % 2 ^ 32) stamp.toNat ++ body
      let b := head ++ gcmSeal (r.pairKey type) (pairNonce (r.pairField 1 1) stamp.toNat) head []
      let packet := udpPacket v6 (r.ownAddr p v6) addr (le r.pairLink 3 1) Config.pairTtl 47810 47810
        (udpCheck v6 (r.ownAddr p v6) addr 47810 47810 b) b
      r.Sends t p (ipLine packet.length) (.pair 0 p packet)
  (∀ s : State,
      let r := s.pairReadyCheck
      r.pair.role ≠ .single → (r.due (r.pair.lastTx + us (r.pairField 4 2)) = true ∨ r.pairFlags ≠ r.pair.lastFlags) →
        ∃ t, exec .heartbeatTx s = .next t ∧
          sends r t 1 (leBytes 1 r.pairFlags.toNat ++ [0, 0, 0] ++ beBytes 8 r.im.configId.toNat) ∧
          t.pair = { r.pair with lastTx := r.now, lastFlags := r.pairFlags, lastStamp := t.pair.lastStamp } ∧
          t = { r with wire := t.wire, ports := t.ports, regs := t.regs, pair := t.pair }) ∧
  (∀ s : State, s.pairActive = true → s.pair.unsent ≠ [] →
      let recs := s.pair.unsent.filterMap fun c => (s.rind c).frameRec
      ∃ t, exec .recordsTx s = .next t ∧ sends s t 2 (beBytes 2 recs.length ++ [0, 0] ++ recs.flatMap fun r => r.bytes) ∧
        t.pair = { s.pair with unsent := [], lastStamp := t.pair.lastStamp } ∧
        t = { s with wire := t.wire, ports := t.ports, regs := t.regs, pair := t.pair }) ∧
  (∀ (g : Agent) (s : State), s.running = true → s.inService 4 8 = true →
      let ok := s.pair.role = .active ∧ s.pair.peerAt.isSome = true ∧ s.pair.silent = false ∧ bit s.pair.peerFlags.toNat 1 = true
      let h := s.stamp + s.stampMs 50
      (ok → ∃ t, exec (.pairSwitch g) s = .next t ∧ sends s t 3 (beBytes 8 h.toNat) ∧
        t.pair = { s.pair with role := .switching, yield := true, switchH := some h, switchOk := false, lastStamp := t.pair.lastStamp }) ∧
      (¬ok →
        ∃ t, exec (.pairSwitch g) s = .next t ∧
          (t.reg R.pair_SWITCH_REFUSED).toNat = min 0xFFFFFFFF ((s.reg R.pair_SWITCH_REFUSED).toNat + 1) ∧
          (∀ b, b ≠ R.pair_SWITCH_REFUSED → t.reg b = s.reg b) ∧ t = { s with regs := t.regs }))

/-- O35. In pair mode with a pair-link port UP, a datagram of the row's type that fails the checks of R206 only counts in AUTH_FAIL
(and may be logged); bytes that are no datagram of the type change nothing. A good HEARTBEAT with the module's own RANK changes
nothing outside the ledger. One of another RANK is remembered with its time, FLAGS and STAMP, and HB_RX counts one; it makes an
active module standby (at once READY if it may) with no open frame when it is ACTIVE with a higher TERM, a switching one knows
then that its successor is active, and a standby takes the higher TERM; otherwise the role of an active module stays. A good
RECORDS datagram gives a standby, for each channel, the newest good frame record, and REC_RX counts each. A good HANDOVER sets H
at a READY module, which asks the witness with REASON 4. A good ANSWER to an ASK that waits ends it: DENY makes an active module
standby, GRANT gives it the term and makes a standby active, CONFIRM changes no role; any other ANSWER asks nothing. A PROBE
sends nothing unless the module is active. (Rules R205 to R212.) -/
def Obligations.PairDatagramsAreCheckedAndTaken : Prop :=
  (∀ (b : List Byte) (src : Nat) (s : State),
      let own := (readPair b).rank = s.pairField 1 1
      let wit := (s.pair.witStamps.find? fun e => e.1 == src).map (·.2)
      let fails (c : Instr) : Prop := ∃ t, exec c s = .next t ∧ t = { s with regs := t.regs, cores := t.cores, setNow := t.setNow, ledger := t.ledger } ∧
        (t.reg R.pair_AUTH_FAIL).toNat = min 0xFFFFFFFF ((s.reg R.pair_AUTH_FAIL).toNat + 1)
      (s.pairHears = true →
        (isPair b 1 = true → (own ∧ s.pairBad b none ≠ none ∨ ¬own ∧ s.pairBad b s.pair.peerStamp ≠ none) → fails (.heartbeatRx b)) ∧
        (isPair b 1 = true → own → s.pairBad b none = none →
          ∃ t, exec (.heartbeatRx b) s = .next t ∧ t = { s with regs := t.regs, cores := t.cores, setNow := t.setNow, ledger := t.ledger } ∧
            t.regs = s.regs) ∧
        (isPair b 2 = true → s.pairBad b s.pair.peerStamp ≠ none → fails (.recordsRx b)) ∧
        (isPair b 3 = true → s.pairBad b s.pair.peerStamp ≠ none → fails (.handoverRx b)) ∧
        (isPair b 5 = true → s.pairBad b wit ≠ none → fails (.answerRx ⟨src, b⟩)) ∧
        (isPair b 6 = true → s.pairBad b wit ≠ none → fails (.probeRx ⟨src, b⟩))) ∧
      (s.pairHears = false → exec (.heartbeatRx b) s = .next s ∧ exec (.recordsRx b) s = .next s ∧ exec (.handoverRx b) s = .next s ∧
        exec (.answerRx ⟨src, b⟩) s = .next s ∧ exec (.probeRx ⟨src, b⟩) s = .next s) ∧
      (isPair b 1 = false → exec (.heartbeatRx b) s = .next s) ∧ (isPair b 2 = false → exec (.recordsRx b) s = .next s) ∧
      (isPair b 3 = false → exec (.handoverRx b) s = .next s) ∧ (isPair b 5 = false → exec (.answerRx ⟨src, b⟩) s = .next s) ∧
      (isPair b 6 = false → exec (.probeRx ⟨src, b⟩) s = .next s)) ∧
  (∀ (b : List Byte) (s : State), s.pairHears = true →
      let d := readPair b
      let f := BitVec.ofNat 8 (le d.body 0 1)
      (isPair b 1 = true → s.pairBad b s.pair.peerStamp = none → d.rank ≠ s.pairField 1 1 →
        ∃ t, exec (.heartbeatRx b) s = .next t ∧ t.pair.peerAt = some s.now ∧ t.pair.peerFlags = f ∧ t.pair.peerTerm = d.term ∧
          t.pair.silent = false ∧ t.pair.peerStamp = some d.stamp ∧
          (t.reg R.pair_HB_RX).toNat = min 0xFFFFFFFF ((s.reg R.pair_HB_RX).toNat + 1) ∧
          (s.pair.role = .active → bit f.toNat 0 = false ∨ d.term ≤ s.pair.term → t.pair.role = .active ∧ t.pair.term = s.pair.term) ∧
          (s.pair.role = .active → bit f.toNat 0 = true → s.pair.term < d.term →
            (t.pair.role = .standby ∨ t.pair.role = .ready) ∧ t.pair.term = d.term ∧
            (∀ c, (t.chan c).frames = [] ∧ (t.chan c).jobs = []) ∧ (s.running = true → s.Logs t F.DEMOTED)) ∧
          (s.pair.role = .switching → bit f.toNat 0 = true → s.pair.term < d.term → t.pair.role = .switching ∧ t.pair.switchOk = true) ∧
          (s.pairStandby = true → t.pair.role = s.pair.role ∧ t.pair.term = max s.pair.term d.term)) ∧
      (isPair b 2 = true → s.pairBad b s.pair.peerStamp = none → s.pairStandby = true →
        let recs := (List.range (be d.body 0 2)).filterMap fun i => readFrameRecord ((d.body.drop (4 + 164 * i)).take 164)
        ∃ t, exec (.recordsRx b) s = .next t ∧
          (∀ c, t.pair.records.get (fun _ => none) c = recs.foldl (fun old r =>
            if r.channel = c ∧ (∀ o, old = some o → newer32 r.frame o.frame = true) then some r else old)
              (s.pair.records.get (fun _ => none) c)) ∧
          (t.reg R.pair_REC_RX).toNat = min 0xFFFFFFFF ((s.reg R.pair_REC_RX).toNat + recs.length)) ∧
      (isPair b 3 = true → s.pairBad b s.pair.peerStamp = none → s.pair.role = .ready →
        ∃ t, exec (.handoverRx b) s = .next t ∧ t.pair.switchH = some (BitVec.ofNat 64 (be d.body 0 8)) ∧
          ((∃ a ∈ t.pair.asks, a.reason = 4) ∨ ∃ a ∈ t.pair.retries, a.1 = 4))) ∧
  (∀ (b : List Byte) (src : Nat) (s : State), s.pairHears = true →
      s.pairBad b ((s.pair.witStamps.find? fun e => e.1 == src).map (·.2)) = none →
      let d := readPair b
      (isPair b 5 = true →
        (∀ a, (s.pair.asks.find? fun a => a.askId == w32 (be d.body 4 4)) = some a →
          ∃ t, exec (.answerRx ⟨src, b⟩) s = .next t ∧ (∀ x ∈ t.pair.asks, x.askId ≠ a.askId) ∧ t.pair.witOk = true ∧
            (be d.body 0 1 = 1 → t.pair.role = (if s.pairStandby then .active else s.pair.role) ∧ t.pair.term = d.term ∧
              (s.pairStandby = false → ∀ c : Fin 48, (s.rind c.val).granted = true → (t.rind c.val).renew = true)) ∧
            (be d.body 0 1 = 2 → s.pairActive = true → t.pair.role = .standby ∨ t.pair.role = .ready) ∧
            (be d.body 0 1 = 3 → t.pair.role = s.pair.role)) ∧
        ((s.pair.asks.find? fun a => a.askId == w32 (be d.body 4 4)) = none →
          ∃ t, exec (.answerRx ⟨src, b⟩) s = .next t ∧ t = { s with pair := { s.pair with witStamps := t.pair.witStamps } })) ∧
      (isPair b 6 = true → s.pairActive = false →
        ∃ t, exec (.probeRx ⟨src, b⟩) s = .next t ∧ t = { s with pair := { s.pair with witStamps := t.pair.witStamps } }) ∧
      (isPair b 6 = true → s.pairActive = true →
        ∃ t p k, exec (.probeRx ⟨src, b⟩) s = .next t ∧ s.pairPort = some p ∧
          s.Sends t p (ipLine k.length) (.pair (if src = s.pairAddr 2 then 2 else 1) p k)))

/-- O36. In pair mode, when no HEARTBEAT has come for HB_MISS intervals the peer is silent, PEER_SILENT is logged (while D0 runs),
and an ASK with REASON 5 (active or switching) or 1 waits for its answer or its retry; a READY module that hears no active one
has one of REASON 3 so. When WIT_MS passes without an answer that ASK ends and WIT_TIMEOUTS counts one; with two witnesses the
first ASK of a reason then goes to W1 under the next ASK_ID, otherwise WITNESS_UNREACHABLE is logged (while D0 runs) and the
reason waits for its retry. After RETRY_MS the ASK of a reason goes to W0 again under the next ASK_ID while its condition
stands, and is dropped otherwise. Other ASKs stay. (Rule R209.) -/
def Obligations.WitnessIsAskedAndRetried : Prop :=
  (∀ (b : Nat) (s : State), s.pair.role ≠ .single → s.pair.peerAt = some b → s.pair.silent = false → s.due (b + s.hbLimit) = true →
      let r := if s.pairActive then 5 else 1
      ∃ t, exec .heartbeatMiss s = .next t ∧ t.pair.silent = true ∧ (s.running = true → s.Logs t F.PEER_SILENT) ∧ t.pair.role = s.pair.role ∧
        ((∃ a ∈ t.pair.asks, a.reason = r) ∨ ∃ a ∈ t.pair.retries, a.1 = r)) ∧
  (∀ s : State, s.noActive = true →
      ∃ t, exec .noActiveHeartbeat s = .next t ∧ t.pair.role = s.pair.role ∧
        ((∃ a ∈ t.pair.asks, a.reason = 3) ∨ ∃ a ∈ t.pair.retries, a.1 = 3)) ∧
  (∀ (a : Ask) (s : State), (s.pair.asks.find? fun a => s.due (a.sentAt + ms (s.witnessField 2 2))) = some a →
      let others := s.pair.asks.filter fun b => b.askId != a.askId
      ∃ t, exec .witnessTimeout s = .next t ∧ t.pair.witOk = false ∧
        (t.reg R.pair_WIT_TIMEOUTS).toNat = min 0xFFFFFFFF ((s.reg R.pair_WIT_TIMEOUTS).toNat + 1) ∧
        (a.second = false ∧ s.witnessField 0 1 = 2 →
          t.pair.asks = others ++ [{ askId := s.pair.nextAsk, reason := a.reason, second := true, sentAt := s.now }] ∧
          t.pair.nextAsk = s.pair.nextAsk + 1 ∧ t.pair.retries = s.pair.retries) ∧
        (¬(a.second = false ∧ s.witnessField 0 1 = 2) →
          t.pair.asks = others ∧ t.pair.retries = s.pair.retries ++ [(a.reason, s.now)] ∧
          (s.running = true → s.Logs t F.WITNESS_UNREACHABLE))) ∧
  (∀ (r b : Nat) (s : State), (s.pair.retries.find? fun r => s.due (r.2 + ms (s.witnessField 4 2))) = some (r, b) →
      ∃ t, exec .witnessRetry s = .next t ∧ (t.pair.retries = s.pair.retries.filter fun x => x.1 != r) ∧
        (s.askStands r = true →
          t.pair.asks = s.pair.asks ++ [{ askId := s.pair.nextAsk, reason := r, second := false, sentAt := s.now }] ∧
          t.pair.nextAsk = s.pair.nextAsk + 1) ∧
        (s.askStands r = false → t = { s with pair := t.pair } ∧ t.pair.asks = s.pair.asks))

/-- O37. A promoted, enabled channel of the active or switching module that may start no longer waits and codes its first frame
without skips; from the peer's frame record it takes the coded-frame number after the record's, and as next SEQ the record's
when the frame follows it directly in a switchover, else one past every number that the frames between may have used; without a
record it starts with coded-frame number 0 and an empty bank. A switchover whose GRANT has not arrived by H - 5 ms is given up:
the module is active, no longer yields, and SWITCH_ABANDONED is logged (while D0 runs). At H the former active module, its
successor known, its frames closed and its frame records sent, turns standby (or READY at once); the new one has handed over
once every channel has started; a module of another role forgets H. (Rules R210, R212.) -/
def Obligations.PromotionAndSwitchoverEnd : Prop :=
  (∀ (c : Fin 48) (s : State), s.pairActive = true → s.chanOn c.val = true → (s.chan c.val).startAfter.isSome = true →
      s.mayStart c.val = true →
      let f := frameNumber s.mediaClock (s.chanField c.val 8 2) (s.chanField c.val 10 2)
      let g := s.chanGeom c.val
      ∃ t, exec (.promotedChannelStart c) s = .next t ∧ (t.chan c.val).startAfter = none ∧ (t.chan c.val).noSkip = true ∧
        (s.pair.records.get (fun _ => none) c.val = none → (t.chan c.val).n = 0 ∧ (t.chan c.val).bank = 0) ∧
        (∀ r, s.pair.records.get (fun _ => none) c.val = some r →
          (t.chan c.val).n = (r.n + 1) % 2 ^ 32 ∧
          (t.chan c.val).seq = (if s.pair.switchH.isSome = true ∧ (r.frame + 1) % 2 ^ 32 = f then r.seqNext
            else (r.seqNext + (f + 2 ^ 32 - r.frame) % 2 ^ 32 * (g.height * g.positions.length + g.height + 2)) % 2 ^ 32))) ∧
  (∀ (h : Stamp) (s : State), s.pair.role = .switching → s.pair.switchH = some h →
      s.reached (h - s.stampMs 5) = true → s.pair.switchOk = false →
      ∃ t, exec .switchDeadline s = .next t ∧ t.pair = { s.pair with role := .active, yield := false, switchH := none } ∧
        (s.running = true → s.Logs t F.SWITCH_ABANDONED)) ∧
  (∀ (h : Stamp) (s : State), s.pair.switchH = some h → s.reached h = true →
      (s.pair.role = .switching → s.pair.switchOk = true → s.pair.unsent = [] → (∀ c : Fin 48, (s.chan c.val).frames = []) →
        ∃ t, exec .switchoverStamp s = .next t ∧ (t.pair.role = .standby ∨ t.pair.role = .ready) ∧ t.pair.switchH = none) ∧
      (s.pair.role = .active → (∀ c : Fin 48, (s.chan c.val).startAfter = none) →
        exec .switchoverStamp s = .next { s with pair := { s.pair with switchH := none } }) ∧
      (s.pair.role ≠ .switching → s.pair.role ≠ .active →
        exec .switchoverStamp s = .next { s with pair := { s.pair with switchH := none } }))

/-- O38. For a head that is not OFF whose next line y has come: y becomes its line and y + 1 its next. An active line outside a
frame in progress, and a blanking line after the latch line, change nothing else of the head (but the guard stamp at the last
active line) and send nothing; an active line of a frame in progress keeps BUF_LOW at the lowest fill and sets PANIC and URGENT
by it, makes a running head harmless when a head-wide cause stands, sends nothing where the frame is not sent, and changes no
other head. At the latch line of a head that runs with no mode change waiting, or of the frame before a start, the tag block of
the next frame is formed: its number, the latch's raster stamp, CONFIG_ID; an enabled head then logs HEAD_START (while D0 runs).
When the next frame of a running head, or the first of a starting one, has come it begins with that tag block, line 0 next, no
void or end-of-validity seen; it is harmless when a head-wide cause holds the head, and it is sent where the module sends and,
in pair mode, was granted 500 us ago. A frame period after its last end-of-validity packet a head in MODE_GAP or FAILED of a
sending module sends the next one and counts it (of another module nothing changes); a STOPPING head owes one fewer and, when
none is left, is OFF and logs HEAD_STOP (while D0 runs). (Rules R237, R239, R243, R246 to R251.) -/
def Obligations.HeadsRunTheirFrames : Prop :=
  (∀ (h : Fin 16) (fill : LineFill) (s : State), (s.head h.val).state ≠ .off → (s.head h.val).next < (s.timing h.val).vt →
      ((s.timing h.val).lineNs (s.head h.val).frame (s.head h.val).next : Int) ≤ s.ptpNs →
      let x := s.head h.val
      let y := x.next
      ((y < (s.timing h.val).height ∧ x.inFrame = false) ∨ (s.timing h.val).height < y →
        ∃ t, exec (.headLineStart h fill) s = .next t ∧
          t.head h.val = { x with line := y, next := y + 1, guardStamp := (if y + 1 = (s.timing h.val).height then s.stamp else x.guardStamp) } ∧
          (∀ m, m ≠ h.val → t.head m = s.head m) ∧ t.wire = s.wire) ∧
      (y < (s.timing h.val).height → x.inFrame = true →
        ∃ t, exec (.headLineStart h fill) s = .next t ∧ (t.head h.val).line = y ∧ (t.head h.val).next = y + 1 ∧
          (t.head h.val).bufLow = min x.bufLow fill.low ∧ (t.head h.val).panic = decide (fill.low < (s.timing h.val).width) ∧
          (t.head h.val).urgent = decide (fill.low < 2 * (s.timing h.val).width) ∧ (t.head h.val).tagFrame = x.tagFrame ∧
          (t.head h.val).state = (if s.headHeld h.val = true ∧ x.state = .running then .harmless else x.state) ∧
          (x.sending = false → t.wire = s.wire) ∧ (∀ m, m ≠ h.val → t.head m = s.head m)) ∧
      (y = (s.timing h.val).height → x.startK = none → x.mode = none → x.state.active = true ∨ x.state = .failed →
        ∃ t, exec (.headLineStart h fill) s = .next t ∧ (t.head h.val).line = y ∧ (t.head h.val).next = y + 1 ∧
          (t.head h.val).newFrame = (x.frame + 1) % 2 ^ 32 ∧ (t.head h.val).newStamp = s.stamp ∧
          (t.head h.val).newConfig = s.im.configId.toNat % 2 ^ 32 ∧ (t.head h.val).state = x.state) ∧
      (y = (s.timing h.val).height → x.startK = some (x.frame + 1) →
        ∃ t, exec (.headLineStart h fill) s = .next t ∧ (t.head h.val).newFrame = (x.frame + 1) % 2 ^ 32 ∧
          (t.head h.val).newStamp = s.stamp ∧ (t.head h.val).newConfig = s.im.configId.toNat % 2 ^ 32 ∧
          (x.state = .enabled → s.running = true → s.Logs t F.HEAD_START))) ∧
  (∀ (h : Fin 16) (s : State), (s.head h.val).state ≠ .off → (s.timing h.val).vt ≤ (s.head h.val).next →
      ((s.timing h.val).lineNs ((s.head h.val).frame + 1) 0 : Int) ≤ s.ptpNs →
      (s.head h.val).startK = some ((s.head h.val).frame + 1) ∨ ((s.head h.val).startK = none ∧ (s.head h.val).state.active = true) →
      ∃ t, exec (.headFrameStart h) s = .next t ∧ (t.head h.val).frame = (s.head h.val).frame + 1 ∧ (t.head h.val).next = 0 ∧
        (t.head h.val).inFrame = true ∧ (t.head h.val).tagFrame = (s.head h.val).newFrame ∧
        (t.head h.val).tagStamp = (s.head h.val).newStamp ∧ (t.head h.val).tagConfig = (s.head h.val).newConfig ∧
        (t.head h.val).sawVoid = false ∧ (t.head h.val).sawEov = false ∧
        (t.head h.val).state = (if s.headHeld h.val then .harmless else .running) ∧
        (t.head h.val).sending = (s.sends && (!s.pairMode || s.due (s.pair.grantedAt + us 500))) ∧
        (∀ m, m ≠ h.val → t.head m = s.head m) ∧ t = { s with heads := t.heads }) ∧
  (∀ (h : Fin 16) (s : State), s.due ((s.head h.val).lastEovAt + (s.head h.val).eovPeriod) = true →
      ((s.head h.val).state = .modeGap ∨ (s.head h.val).state = .failed →
        (s.sends = true → ∃ t, exec (.headEovRepeat h) s = .next t ∧ (t.head h.val).lastEovAt = s.now ∧
          (t.head h.val).seq = ((s.head h.val).seq + 1) % 2 ^ 32 ∧
          (t.reg (R.head_EOV_FRAMES h.val)).toNat = min 0xFFFFFFFF ((s.reg (R.head_EOV_FRAMES h.val)).toNat + 1) ∧
          (t.head h.val).state = (s.head h.val).state ∧ (∀ m, m ≠ h.val → t.head m = s.head m)) ∧
        (s.sends = false → exec (.headEovRepeat h) s = .next s)) ∧
      ((s.head h.val).state = .stopping →
        (∀ k, (s.head h.val).eovLeft = some (k + 2) →
          ∃ t, exec (.headEovRepeat h) s = .next t ∧ (t.head h.val).eovLeft = some (k + 1) ∧ (t.head h.val).lastEovAt = s.now ∧
            (t.head h.val).state = .stopping ∧ (∀ m, m ≠ h.val → t.head m = s.head m)) ∧
        ((s.head h.val).eovLeft = some 1 →
          ∃ t, exec (.headEovRepeat h) s = .next t ∧ t.head h.val = { s.head h.val with state := .off, eovLeft := none } ∧
            (∀ m, m ≠ h.val → t.head m = s.head m) ∧ (s.running = true → s.LogsOne t F.HEAD_STOP) ∧
            t = { s with heads := t.heads, ledger := t.ledger })))

/-- O39. When the last packet of a frame has left, with no mode change waiting: a frame that was not sent leaves no last signature.
Of a sent one FRAMES_SENT counts it, VOID_FRAMES and (unless the head fails) EOV_FRAMES when it had such packets, its CRC-64 is
the frame's signature, and a frame without end-of-validity is the last valid one. A signature equal to the one before, or a
wrong frame number, freezes the head, counts in FREEZES and logs HEAD_FREEZE; the third within 60 s fails it with HEAD_FAILED;
the second good frame in a row unfreezes it with HEAD_FREEZE_CLEARED. With a mode change waiting the head enters it: a new
enabled timing is in force in MODE_GAP, a disabled one makes it STOPPING with 16 periods of end-of-validity. HEAD_RETEST of a
failed head draws one free value: it is harmless with no freeze counted, or stays failed; of any other head it changes nothing.
A unit in use that fails its check is faulty, its layer is void with reason 7, UNIT_FAULT is logged, and the third fault within
60 s fails it; an unused one changes nothing. RETEST of a failed unit that no layer uses draws one free value: the unit is as
new or stays failed; of a used one it waits for the head's latch; of a unit that is not failed it changes nothing. Entries are
logged while D0 runs. (Rules R233, R247, R248, R250 to R252.) -/
def Obligations.FramesAreSignedAndUnitsTested : Prop :=
  (∀ (h : Fin 16) (s : State), (s.head h.val).inFrame = true → (s.timing h.val).height ≤ (s.head h.val).next →
      ((s.timing h.val).lineNs (s.head h.val).frame (s.timing h.val).height : Int) ≤ s.ptpNs →
      let x := s.head h.val
      let v := x.sig ^^^ 0xFFFFFFFFFFFFFFFF
      let bad := x.lastSig = some v ∨ x.tagFrame ≠ x.frame % 2 ^ 32
      let at_ := s.now :: x.freezeAt.filter fun b => decide (s.now < b + sec 60)
      let counts (t : State) (a n : Nat) : Prop := (t.reg a).toNat = min 0xFFFFFFFF ((s.reg a).toNat + n)
      (x.mode = none → x.sending = false →
        ∃ t, exec (.headFrameDone h) s = .next t ∧ t.head h.val = { x with inFrame := false, lastSig := none } ∧
          (∀ m, m ≠ h.val → t.head m = s.head m) ∧ t = { s with heads := t.heads }) ∧
      (x.mode = none → x.sending = true →
        ∃ t, exec (.headFrameDone h) s = .next t ∧ (t.head h.val).inFrame = false ∧ (t.head h.val).signature = v ∧
          (t.head h.val).lastSig = some v ∧ (t.head h.val).lastValid = (if x.sawEov then x.lastValid else x.tagFrame) ∧
          counts t (R.head_FRAMES_SENT h.val) 1 ∧ counts t (R.head_VOID_FRAMES h.val) (b2n x.sawVoid) ∧
          (¬(bad ∧ 3 ≤ at_.length) → counts t (R.head_EOV_FRAMES h.val) (b2n x.sawEov)) ∧
          (bad → (t.head h.val).frozen = true ∧ (t.head h.val).freezeAt = at_ ∧ (s.running = true → s.Logs t F.HEAD_FREEZE) ∧
            counts t (R.head_FREEZES h.val) 1 ∧ (at_.length < 3 → (t.head h.val).state = x.state) ∧
            (3 ≤ at_.length → (t.head h.val).state = .failed ∧ (s.running = true → s.Logs t F.HEAD_FAILED))) ∧
          (¬bad → t.reg (R.head_FREEZES h.val) = s.reg (R.head_FREEZES h.val) ∧ (t.head h.val).state = x.state ∧
            (x.frozen = true → x.goodFrames = 0 → (t.head h.val).frozen = true ∧ (t.head h.val).goodFrames = 1) ∧
            (x.frozen = true → x.goodFrames ≠ 0 → (t.head h.val).frozen = false ∧
              (s.running = true → s.Logs t F.HEAD_FREEZE_CLEARED))) ∧
          (∀ m, m ≠ h.val → t.head m = s.head m)) ∧
      (∀ p g, x.mode = some (p, g) →
        ∃ t, exec (.headFrameDone h) s = .next t ∧ (t.head h.val).mode = none ∧ (t.head h.val).inFrame = false ∧ (t.head h.val).gang = g ∧
          ((headTiming p).enable = true → (t.head h.val).state = .modeGap ∧ (t.head h.val).timing = p) ∧
          ((headTiming p).enable = false → (t.head h.val).state = .stopping ∧ (t.head h.val).eovLeft = some 16) ∧
          (∀ m, m ≠ h.val → t.head m = s.head m))) ∧
  (∀ (g : Agent) (h : Fin 16) (s : State),
      ((s.head h.val).state = .failed → ∃ t, exec (.headRetest g h) s = .next t ∧ t.fresh = s.fresh + 1 ∧
        (t.head h.val = { s.head h.val with state := .harmless, freezeAt := [], lastSig := none } ∨ t = { s with fresh := s.fresh + 1 }) ∧
        (∀ m, m ≠ h.val → t.head m = s.head m)) ∧
      ((s.head h.val).state ≠ .failed → exec (.headRetest g h) s = .next s)) ∧
  (∀ (sc : Bool) (u : Fin 64) (s : State),
      (s.userOf sc u.val = none → exec (.unitCheckFail sc u) s = .next s) ∧
      (∀ n i, s.userOf sc u.val = some (n, i) →
        let at_ := s.now :: (s.unit sc u.val).faults.filter fun b => decide (s.now < b + sec 60)
        ∃ t, exec (.unitCheckFail sc u) s = .next t ∧ (t.unit sc u.val).faulty = true ∧ (t.unit sc u.val).faults = at_ ∧
          ((t.unit sc u.val).failed = true ↔ (s.unit sc u.val).failed = true ∨ 3 ≤ at_.length) ∧
          ((t.head n).res i).cause = some 7 ∧ ((t.head n).res i).snapshot = none ∧ (s.running = true → s.Logs t F.UNIT_FAULT) ∧
          (∀ m, m ≠ u.val → t.unit sc m = s.unit sc m))) ∧
  (let retests (s : State) (sc : Bool) (u : Nat) (o : Host.Outcome State Fault Refusal) : Prop :=
      ((s.unit sc u).failed = false → o = .next s) ∧
      ((s.unit sc u).failed = true →
        ((s.userOf sc u).isSome = true → ∃ t, o = .next t ∧ t.unit sc u = { s.unit sc u with retest := true } ∧
          (∀ m, m ≠ u → t.unit sc m = s.unit sc m) ∧ t = { s with readers := t.readers, scalers := t.scalers }) ∧
        (s.userOf sc u = none → ∃ t, o = .next t ∧ t.fresh = s.fresh + 1 ∧
          (t.unit sc u = { s.unit sc u with failed := false, faulty := false, faults := [], retest := false } ∨
           t.unit sc u = { s.unit sc u with retest := false }) ∧
          (∀ m, m ≠ u → t.unit sc m = s.unit sc m) ∧ t = { s with fresh := t.fresh, readers := t.readers, scalers := t.scalers }))
   ∀ (g : Agent) (r : Fin 64) (c : Fin 32) (s : State),
      retests s false r.val (exec (.readerRetest g r) s) ∧ retests s true c.val (exec (.scalerRetest g c) s))

/-- O40. While D0 runs, at a millisecond t of PTP time that is neither 0 nor the frame in progress, t becomes the frame in progress;
waiting Audio-class sections, and only they, come into force; each enabled group's last frame is t - 1, and one that also sends,
where audio flows send, takes one sequence number, while no group takes one where they do not; at any other time the boundary
changes nothing. A slip of a slave clock that is GOOD counts one in its SLIPS and holds its samples from now on, one of them for
an overrun and 32 for an underrun, with AUDIO_SLIP logged when the last of this clock was a second ago or more and not within
the second; the other clock's holds stay; a slip of another clock changes nothing. When every bit of a channel of a GOOD clock
has been equal for its STUCK_MS the channel is stuck, MIC_STUCK is logged, and no other channel changes; with STUCK_MS 0, of a
stuck channel, of a clock not GOOD or before that time nothing changes. (Rules R259, R264 to R266, R268.) -/
def Obligations.AudioFramesSlipsAndStuckMicrophones : Prop :=
  (∀ (l : List MicSamples) (s : State), s.running = true →
      let n := s.ptpNs.toNat / 1000000
      (n = s.audio.frame ∨ n = 0 → exec (.audioFrameBoundary l) s = .next s) ∧
      (n ≠ s.audio.frame → n ≠ 0 → ∃ t, exec (.audioFrameBoundary l) s = .next t ∧ t.audio.frame = n ∧ t.audio.change = false ∧
        t.audio.inForce = (if s.audio.change then s.audio.waiting else s.audio.inForce) ∧
        (∀ g, g < 2 → groupFlag (s.groupRec g) 0 = true → (t.group g).frame = (n - 1) % 2 ^ 32 ∧
          (groupFlag (s.groupRec g) 1 = true → s.audioSends = true → (t.group g).seq = ((s.group g).seq + 1) % 65536)) ∧
        (∀ g, g < 2 → s.audioSends = false → (t.group g).seq = (s.group g).seq))) ∧
  (∀ (c o : Bool) (s : State), s.running = true →
      (s.pdmField (b2n c) 0 1 = 2 → (s.pdm (b2n c)).state = .good →
        ∃ t, exec (.audioSlip c o) s = .next t ∧
          (t.reg (if c then R.au_CK1_SLIPS else R.au_CK0_SLIPS)).toNat =
            min 0xFFFFFFFF ((s.reg (if c then R.au_CK1_SLIPS else R.au_CK0_SLIPS)).toNat + 1) ∧
          t.spans (b2n c) = s.spans (b2n c) ++ [{ start := s.ptpNs.toNat, samples := some (if o then 1 else 32) }] ∧
          t.spans (b2n (!c)) = s.spans (b2n (!c)) ∧ t.audio.mics = s.audio.mics ∧
          ((∀ r, s.rate F.AUDIO_SLIP.code (b2n c) = some r → r.lastAt + sec 1 ≤ s.now) → s.LogsOne t F.AUDIO_SLIP) ∧
          (∀ r, s.rate F.AUDIO_SLIP.code (b2n c) = some r → s.now < r.lastAt + sec 1 → t.ledger.outbox = s.ledger.outbox)) ∧
      (s.pdmField (b2n c) 0 1 ≠ 2 ∨ (s.pdm (b2n c)).state ≠ .good → exec (.audioSlip c o) s = .next s)) ∧
  (∀ (m : Fin 16) (s : State), s.running = true →
      let limit := s.pdmField (clockOf m.val) 4 2
      (0 < limit → (s.pdm (clockOf m.val)).state = .good → (s.mic m.val).stuck = false → s.due ((s.mic m.val).since + ms limit) = true →
        ∃ t, exec (.micStuckTimeout m) s = .next t ∧ t.mic m.val = { s.mic m.val with stuck := true } ∧
          (∀ k, k ≠ m.val → t.mic k = s.mic k) ∧ s.LogsOne t F.MIC_STUCK) ∧
      (limit = 0 ∨ (s.pdm (clockOf m.val)).state ≠ .good ∨ (s.mic m.val).stuck = true ∨ s.due ((s.mic m.val).since + ms limit) = false →
        exec (.micStuckTimeout m) s = .next s))

/-- O41. MEM_STARVATION_RAISE completes in every state: the queue keeps its length and order; a request of a class above 3 that has
waited 1 us has class 3, one already in class 1 or 2 keeps its class, and every other request is as before; CH_STARVED counts
the requests raised. Nothing else changes. -/
def Obligations.StarvedRequestsFollowR283 : Prop :=
  ∀ (m : Fin 16) (s : State),
    ∃ t, exec (.memStarvationRaise m) s = .next t ∧ (t.mchan m.val).queue.length = (s.mchan m.val).queue.length ∧
      (∀ (i : Nat) (r : MemReq), (s.mchan m.val).queue[i]? = some r → ∃ r', (t.mchan m.val).queue[i]? = some r' ∧
        (s.due (r.since + us 1) = true → 3 < r.cls → r'.cls = 3) ∧ (r.cls ≤ 2 → r'.cls = r.cls) ∧
        (¬(s.due (r.since + us 1) = true ∧ 3 < r.cls) → r' = r)) ∧
      (t.reg (R.mch_CH_STARVED m.val)).toNat = min 0xFFFFFFFF ((s.reg (R.mch_CH_STARVED m.val)).toNat +
        ((s.mchan m.val).queue.filter fun r => decide (3 < r.cls) && s.due (r.since + us 1)).length) ∧
      (∀ k, k ≠ m.val → t.mchan k = s.mchan k) ∧ (∀ a, a ≠ R.mch_CH_STARVED m.val → t.reg a = s.reg a) ∧
      t = { s with memory := t.memory, regs := t.regs }

/-- O42. Requests arrive one after another. One within a line of the channel that is not fenced enters its queue of 64 as its port
makes it, and CH_QPEAK follows; a write to a fenced extent, and another port's request outside every region, are discarded,
while a core's logs MEM_ACCESS (while D0 runs). Then, on a channel that serves, pays nothing back and whose errors do not go on,
the request that comes next leaves the queue: a write stores its bytes and no other byte changes, and a whole line is poisoned
no more. A read changes no byte: of a good line a core gets the bytes, one wrong bit counting in CH_CORR and ECC_CORR; of an
uncorrectable one without copies the line stays poisoned and CH_UNCORR counts, the image manager's request being queued once
more; of a DUP extent the other copy is returned, the line is good again and DUP_REPAIRS counts. With nothing to serve, or
during a payback, only the panic time changes. PATROL_SCRUB waits while its line's channel has requests or pays back; else it
goes to the next line, or to line 0 with a pass counted; one wrong bit counts in CH_CORR, an uncorrectable line without copies
is poisoned and counts in CH_UNCORR. Without the scrub it changes nothing. (Rules R274, R277 to R279, R281, R282, R288, R292.) -/
def Obligations.MemoryRequestsAreServed : Prop :=
  (∀ (m : Fin 16) (e : Fin 3) (r : MemReq) (l : List MemReq) (s : State),
      exec (.memRequestServe m (r :: l) e) s = exec (.memRequestServe m l e) (s.arrive m.val r)) ∧
  (∀ (m : Nat) (r : MemReq) (s : State),
      (s.mapped r.addr = false →
        (∀ n, r.port = .tc n → s.running = true →
          s.LogsOne (s.arrive m r) F.MEM_ACCESS ∧ s.arrive m r = { s with ledger := (s.arrive m r).ledger }) ∧
        ((∀ n, r.port ≠ .tc n) → s.arrive m r = s)) ∧
      (s.mapped r.addr = true → s.fenced r.addr = true → r.write.isSome = true → s.arrive m r = s) ∧
      (s.mapped r.addr = true → s.fenced r.addr = false →
        (r.length ≠ 0 → lineOf r.addr = lineOf (r.addr + r.length - 1) → s.memChannel r.addr = m → (s.mchan m).queue.length < 64 →
          ((s.arrive m r).mchan m).queue = (s.mchan m).queue ++ [{ s.ported r with since := s.now, raised := false, again := false }] ∧
          ((s.arrive m r).mchan m).qPeak = max (s.mchan m).qPeak ((s.mchan m).queue.length + 1) ∧
          (∀ k, k ≠ m → (s.arrive m r).mchan k = s.mchan k) ∧ s.arrive m r = { s with memory := (s.arrive m r).memory }) ∧
        (r.length = 0 ∨ lineOf r.addr ≠ lineOf (r.addr + r.length - 1) ∨ s.memChannel r.addr ≠ m ∨ 64 ≤ (s.mchan m).queue.length →
          s.arrive m r = s))) ∧
  (∀ (m : Fin 16) (e : Fin 3) (s : State), (s.mchan m.val).serves = false ∨ s.stalled m.val = true ∨ (s.mchan m.val).next = none →
      exec (.memRequestServe m [] e) s = .next (s.panicCheck m.val)) ∧
  (∀ (m : Fin 16) (e : Fin 3) (r : MemReq) (s : State), (s.mchan m.val).serves = true → s.stalled m.val = false →
      (s.mchan m.val).next = some r →
      let l := lineOf r.addr
      let c := s.liveCopy (regionOf r.addr).1 (extentOf (regionOf r.addr).2)
      let lone := s.memory.single.any fun y => y.region == (regionOf r.addr).1 && y.extent == extentOf (regionOf r.addr).2
      (s.errorsGoOn m.val = false →
        (∀ p, r.write = some p → (r.length = 64 ∨ s.isPoisoned l c = true ∨ e = 0) →
          ∃ t, exec (.memRequestServe m [] e) s = .next t ∧ (t.mchan m.val).queue = (s.mchan m.val).queue.erase r ∧
            (∀ a, t.byte a = (if r.addr ≤ a ∧ a < r.addr + min r.length p.length then p.getD (a - r.addr) 0 else s.byte a)) ∧
            (r.length = 64 → t.isPoisoned l 0 = false ∧ t.isPoisoned l 1 = false) ∧
            (∀ k, k ≠ m.val → t.mchan k = s.mchan k) ∧ t = { s with mem := t.mem, memory := t.memory }) ∧
        (r.write = none → s.isPoisoned l c = false →
          (e = 0 → ∃ t, exec (.memRequestServe m [] e) s = .next t ∧ (t.mchan m.val).queue = (s.mchan m.val).queue.erase r ∧
            (∀ n, r.port = .tc n → t.readValue = w32 (le (s.bytes r.addr r.length) 0 r.length)) ∧
            ((∀ n, r.port ≠ .tc n) → t.readValue = s.readValue) ∧
            (∀ k, k ≠ m.val → t.mchan k = s.mchan k) ∧ t = { s with readValue := t.readValue, memory := t.memory }) ∧
          (e = 1 → ∃ t, exec (.memRequestServe m [] e) s = .next t ∧ (t.mchan m.val).queue = (s.mchan m.val).queue.erase r ∧
            (∀ n, r.port = .tc n → t.readValue = w32 (le (s.bytes r.addr r.length) 0 r.length)) ∧
            (t.reg (R.mch_CH_CORR m.val)).toNat = min 0xFFFFFFFF ((s.reg (R.mch_CH_CORR m.val)).toNat + 1) ∧
            (t.reg R.mem_ECC_CORR).toNat = min 0xFFFFFFFF ((s.reg R.mem_ECC_CORR).toNat + 1) ∧
            t = { s with readValue := t.readValue, memory := t.memory, regs := t.regs }))) ∧
      ((s.mchan m.val).checkBy = none → r.write = none → e = 2 ∨ s.isPoisoned l c = true →
        (s.regionDup (regionOf r.addr).1 = false →
          ∃ t, exec (.memRequestServe m [] e) s = .next t ∧ t.isPoisoned l c = true ∧ t.mem = s.mem ∧
            (t.reg (R.mch_CH_UNCORR m.val)).toNat = min 0xFFFFFFFF ((s.reg (R.mch_CH_UNCORR m.val)).toNat + 1) ∧
            (r.port ≠ .im → (t.mchan m.val).queue = (s.mchan m.val).queue.erase r) ∧
            (r.port = .im → r.again = false →
              (t.mchan m.val).queue = (s.mchan m.val).queue.erase r ++ [{ r with again := true, since := s.now }])) ∧
        (s.regionDup (regionOf r.addr).1 = true → lone = false → s.isPoisoned l (1 - c) = false →
          ∃ t, exec (.memRequestServe m [] e) s = .next t ∧ t.isPoisoned l c = false ∧ t.mem = s.mem ∧
            (t.mchan m.val).queue = (s.mchan m.val).queue.erase r ∧
            (∀ n, r.port = .tc n → t.readValue = w32 (le (s.bytes r.addr r.length) 0 r.length)) ∧
            (t.reg R.mem_DUP_REPAIRS).toNat = min 0xFFFFFFFF ((s.reg R.mem_DUP_REPAIRS).toNat + 1) ∧
            (s.running = true → s.Logs t F.MEM_DUP_REPAIR)))) ∧
  (∀ (e : Fin 3) (s : State),
      (s.memory.state < 2 ∨ bit (s.reg R.mem_MEM_CTRL).toNat 0 = false → exec (.patrolScrub e) s = .next s) ∧
      (2 ≤ s.memory.state → bit (s.reg R.mem_MEM_CTRL).toNat 0 = true →
        let x := s.scrubAt s.memory.scrubLine s.regions
        let a := memBase + x.1 * 2 ^ 36 + x.2.1
        let m := s.scrubChannel x.1 x.2.1 x.2.2
        ((s.mchan m).queue ≠ [] ∨ s.stalled m = true → exec (.patrolScrub e) s = .next s) ∧
        ((s.mchan m).queue = [] → s.stalled m = false → m < 16 →
          (e ≠ 2 → s.isPoisoned a x.2.2 = false →
            ∃ t, exec (.patrolScrub e) s = .next t ∧
              t.memory.scrubLine = (if s.scrubLines ≤ s.memory.scrubLine + 1 then 0 else s.memory.scrubLine + 1) ∧
              (t.reg R.mem_SCRUB_PASSES).toNat =
                min 0xFFFFFFFF ((s.reg R.mem_SCRUB_PASSES).toNat + b2n (decide (s.scrubLines ≤ s.memory.scrubLine + 1))) ∧
              (e = 1 → (s.mchan m).serves = true → x.2.2 = s.liveCopy x.1 (extentOf x.2.1) →
                (t.reg (R.mch_CH_CORR m)).toNat = min 0xFFFFFFFF ((s.reg (R.mch_CH_CORR m)).toNat + 1)) ∧
              t = { s with memory := t.memory, regs := t.regs }) ∧
          (e = 2 ∨ s.isPoisoned a x.2.2 = true → (s.mchan m).serves = true → (s.mchan m).checkBy = none → s.regionDup x.1 = false →
            x.2.2 = s.liveCopy x.1 (extentOf x.2.1) →
            ∃ t, exec (.patrolScrub e) s = .next t ∧ t.isPoisoned a x.2.2 = true ∧ t.mem = s.mem ∧
              t.memory.scrubLine = (if s.scrubLines ≤ s.memory.scrubLine + 1 then 0 else s.memory.scrubLine + 1) ∧
              (t.reg (R.mch_CH_UNCORR m)).toNat = min 0xFFFFFFFF ((s.reg (R.mch_CH_UNCORR m)).toNat + 1)))))

/-- O43. For a channel that serves: a refresh that falls due sets the next one tREFI later, and is postponed while requests of class
2 or 3 wait on a channel not hot with fewer than 8 owed, else issued; an owed one is paid back when none wait. An MR4 reading is
kept; 4 or more makes the channel hot, the second reading below 4 ends that, each with MEM_HOT logged, and the first of 5 or
more logs MEM_TOO_HOT. A training falls due after 256 ms, for every such channel by an administrator's TRAIN_NOW, runs at a
window or is forced after 1 s, never in a payback; one that finds 4 of each margin, a channel's first at start-up too, puts it
in service and counts in CH_TRAINS; one that does not, with few errors and no check of errors running, keeps the old settings,
logs MEM_TRAIN_FAIL and counts, and otherwise retires the pair, as does a silent channel, and an administrator's MEM_RETIRE
while two pairs are in service; a retired pair serves nothing and waits for its remap. REMAP_DONE makes the bytes of lost
extents read as empty, no other, with MEM_REMAP_DONE; DUP_COPY_DONE ends an extent's single state where a place is free, and
logs MEM_DUP_RESTORED with the last one. What is not due, or of a channel that does not serve, a pair that is not remapping or
an extent that is not single, changes nothing. (Rules R286 to R295; entries in the ledger while D0 runs.) -/
def Obligations.MemoryIsRefreshedTrainedAndRetired : Prop :=
  (∀ (m : Fin 16) (v : Fin 8) (r w : Byte) (s : State),
      ((s.mchan m.val).serves = false →
        exec (.refreshDue m) s = .next s ∧ exec (.refreshPayback m) s = .next s ∧ exec (.mr4Poll m v) s = .next s ∧
        exec (.trainingDue m) s = .next s ∧ exec (.trainingStep m) s = .next s ∧ exec (.trainingForce m) s = .next s ∧
        exec (.memChannelSilent m) s = .next s ∧ ((s.mchan m.val).state ≠ .training → exec (.trainingDone m r w) s = .next s)) ∧
      ((s.mchan m.val).state = .training → 4 ≤ r.toNat → 4 ≤ w.toNat →
        ∃ t, exec (.trainingDone m r w) s = .next t ∧ (t.mchan m.val).state = .inService ∧ (t.mchan m.val).margin = w ++ r ∧
          (t.mchan m.val).lastTrain = s.now ∧ (t.mchan m.val).refreshAt = s.now + m.val * 3900 / 16 ∧
          (t.reg (R.mch_CH_TRAINS m.val)).toNat = min 0xFFFFFFFF ((s.reg (R.mch_CH_TRAINS m.val)).toNat + 1) ∧
          (∀ k, k ≠ m.val → t.mchan k = s.mchan k))) ∧
  (∀ (m : Fin 16) (s : State), (s.mchan m.val).serves = true →
      let x := s.mchan m.val
      let frame (t : State) : Prop := (∀ k, k ≠ m.val → t.mchan k = s.mchan k) ∧ t = { s with memory := t.memory }
      (s.due x.refreshAt = false → exec (.refreshDue m) s = .next s) ∧
      (s.due x.refreshAt = true →
        (x.busy = true ∧ x.hot = false ∧ x.owed < 8 →
          ∃ t, exec (.refreshDue m) s = .next t ∧ t.mchan m.val = { x with refreshAt := x.refreshAt + x.refi, owed := x.owed + 1 } ∧ frame t) ∧
        (¬(x.busy = true ∧ x.hot = false ∧ x.owed < 8) →
          ∃ t, exec (.refreshDue m) s = .next t ∧
            t.mchan m.val = { x with refreshAt := x.refreshAt + x.refi, rows := [], lastRefresh := s.now } ∧ frame t)) ∧
      (0 < x.owed → x.busy = false →
        ∃ t, exec (.refreshPayback m) s = .next t ∧ t.mchan m.val = { x with owed := x.owed - 1, rows := [], lastRefresh := s.now } ∧ frame t) ∧
      (x.owed = 0 ∨ x.busy = true → exec (.refreshPayback m) s = .next s) ∧
      (∀ v : Fin 8, s.due (x.mr4At + ms 4) = false → exec (.mr4Poll m v) s = .next s) ∧
      (∀ v : Fin 8, s.due (x.mr4At + ms 4) = true →
        ∃ t, exec (.mr4Poll m v) s = .next t ∧ (t.mchan m.val).mr4 = v.val ∧ (t.mchan m.val).mr4At = s.now ∧
          (t.mchan m.val).hot = (decide (4 ≤ v.val) || (x.hot && decide (x.coolReads = 0))) ∧
          (s.running = true → ((t.mchan m.val).hot ≠ x.hot → s.Logs t F.MEM_HOT) ∧ (5 ≤ v.val → x.mr4 < 5 → s.Logs t F.MEM_TOO_HOT)) ∧
          (∀ k, k ≠ m.val → t.mchan k = s.mchan k)) ∧
      (x.trainDue ≠ none ∨ s.due (x.lastTrain + ms 256) = false → exec (.trainingDue m) s = .next s) ∧
      (x.trainDue = none → s.due (x.lastTrain + ms 256) = true →
        ∃ t, exec (.trainingDue m) s = .next t ∧
          t.mchan m.val = { x with trainDue := some s.now, corrLast := x.corrNow, corrNow := 0 } ∧ frame t) ∧
      (x.trainDue = none ∨ x.busy = true ∨ s.stalled m.val = true ∨ (∃ r ∈ x.queue, r.since + 200 < s.now) → exec (.trainingStep m) s = .next s) ∧
      (x.trainDue.isSome = true → x.busy = false → s.stalled m.val = false → (∀ r ∈ x.queue, s.now ≤ r.since + 200) →
        ∃ t, exec (.trainingStep m) s = .next t ∧ t.mchan m.val = { x with trainRun := true } ∧ frame t) ∧
      (x.trainDue = none ∨ x.trainRun = true ∨ s.stalled m.val = true → exec (.trainingForce m) s = .next s) ∧
      (∀ b, x.trainDue = some b → x.trainRun = false → b + sec 1 ≤ x.lastRefresh → x.lastRefresh ≤ s.now →
        ∃ t, exec (.trainingForce m) s = .next t ∧ t.mchan m.val = { x with trainRun := true } ∧ frame t) ∧
      (∀ r w : Byte, x.trainRun = true →
        (4 ≤ r.toNat → 4 ≤ w.toNat →
          ∃ t, exec (.trainingDone m r w) s = .next t ∧ (t.mchan m.val).state = .inService ∧ (t.mchan m.val).margin = w ++ r ∧
            (t.mchan m.val).trainDue = none ∧ (t.mchan m.val).trainRun = false ∧ (t.mchan m.val).lastTrain = s.now ∧
            (t.reg (R.mch_CH_TRAINS m.val)).toNat = min 0xFFFFFFFF ((s.reg (R.mch_CH_TRAINS m.val)).toNat + 1) ∧
            (∀ k, k ≠ m.val → t.mchan k = s.mchan k)) ∧
        (¬(4 ≤ r.toNat ∧ 4 ≤ w.toNat) →
          (x.checkBy = none → x.corrLast < 64 → x.uncorrSince = false →
            ∃ t, exec (.trainingDone m r w) s = .next t ∧ (t.mchan m.val).state = .oldSettings ∧
              (s.running = true → s.LogsOne t F.MEM_TRAIN_FAIL) ∧
              (t.reg (R.mch_CH_TRAIN_FAILS m.val)).toNat = min 0xFFFFFFFF ((s.reg (R.mch_CH_TRAIN_FAILS m.val)).toNat + 1) ∧
              (∀ k, k ≠ m.val → t.mchan k = s.mchan k)) ∧
          (x.checkBy ≠ none ∨ 64 ≤ x.corrLast ∨ x.uncorrSince = true → m.val / 2 ∉ s.memory.retired →
            ∃ t, exec (.trainingDone m r w) s = .next t ∧ m.val / 2 ∈ t.memory.retired ∧ (t.mchan m.val).state = .retired))) ∧
      (m.val / 2 ∉ s.memory.retired →
        ∃ t, exec (.memChannelSilent m) s = .next t ∧ m.val / 2 ∈ t.memory.retired ∧ m.val / 2 ∈ t.memory.remapping ∧
          (t.mchan m.val).state = .retired ∧ (t.mchan m.val).queue = [] ∧
          (∀ k, k / 2 ≠ m.val / 2 → t.mchan k = s.mchan k))) ∧
  (∀ (g : Agent) (s : State),
      (s.running = false ∨ s.adminWrite g = false → exec (.trainNow g) s = .next s ∧ exec (.memRetire g) s = .next s) ∧
      (s.running = true → s.adminWrite g = true →
        ∃ t, exec (.trainNow g) s = .next t ∧ (∀ m, m < 16 → t.mchan m = (if (s.mchan m).serves then
            { s.mchan m with trainDue := some ((s.mchan m).trainDue.getD s.now) } else s.mchan m)) ∧ t = { s with memory := t.memory }) ∧
      (let p := (s.reg R.mem_MEM_CTRL).toNat / 16 % 8
       s.running = true → s.adminWrite g = true →
        (1 < s.pairsUp.length → p ∉ s.memory.retired →
          ∃ t, exec (.memRetire g) s = .next t ∧ p ∈ t.memory.retired ∧ (t.mchan (2 * p)).state = .retired ∧
            (t.mchan (2 * p + 1)).state = .retired) ∧
        (s.pairsUp.length ≤ 1 ∨ p ∈ s.memory.retired → exec (.memRetire g) s = .next s))) ∧
  (∀ (p : Fin 8) (s : State), p.val ∉ s.memory.remapping → exec (.remapDone p) s = .next s) ∧
  (∀ (p : Fin 8) (s : State), p.val ∈ s.memory.remapping →
      ∃ t, exec (.remapDone p) s = .next t ∧ t.memory.remapping = s.memory.remapping.filter (fun q => q != p.val) ∧
        (∀ a, t.byte a = (if memBase ≤ a ∧ s.lostBy p.val (regionOf a).1 (regionOf a).2 1 = true then 0 else s.byte a)) ∧
        (s.running = true → s.LogsOne t F.MEM_REMAP_DONE)) ∧
  (∀ (r e : Nat) (s : State), (s.memory.single.find? fun y => y.region == r && y.extent == e) = none →
      exec (.dupCopyDone r e) s = .next s) ∧
  (∀ (r e : Nat) (x : SingleExtent) (s : State), (s.memory.single.find? fun y => y.region == r && y.extent == e) = some x →
      (s.placeExtent r e (1 - x.copy) (some (s.pairOf r e x.copy)) = none → exec (.dupCopyDone r e) s = .next s) ∧
      (∀ q, s.placeExtent r e (1 - x.copy) (some (s.pairOf r e x.copy)) = some q →
        ∃ t, exec (.dupCopyDone r e) s = .next t ∧ t.pairOf r e (1 - x.copy) = q ∧
          t.memory.single = s.memory.single.filter (fun y => !(y.region == r && y.extent == e)) ∧
          (t.memory.single = [] → s.running = true → s.LogsOne t F.MEM_DUP_RESTORED) ∧ (∀ k, t.mchan k = s.mchan k)))

/-- O44. The oldest mirrored ledger entry is staged where LEDGER records are admitted, and leaves the mirror. A TAP, PROXY or AUDIO
record whose class is admitted is shed and counted when the backlog is above the class's limit, or, while the class is being
shed, not below half of it; otherwise it is staged, after a DROP record when records of its class have been shed, which ends
their count. A TAP record beyond its tap's cap is discarded and counted; a MASK record is staged; a record of another type, or
not admitted, changes nothing. With an open wheel and no warning, a full page of laid-out bytes is written when the bucket
allows, and not otherwise; a part page whose oldest byte has waited 10 ms is completed and written. With nothing staged or laid
out and room in the bucket, SEAL_NOW (while D0 runs) and, under device-safe after SAFE_SEAL_MS, SAFE_SEAL_TIMEOUT seal the open
wheel: SEALS counts one, REC_SEALED is logged, and the last cause is 4 or 3. Before its time, without an open wheel, or without
a warning none of these rows changes anything. 1.0 ms after a supply warning LEDGER admission closes; 1.2 ms after it nothing
staged or laid out is left, the wheel is sealed with cause 2, REC_WARN_SEAL is logged, and the recorder is WARN_SEALED. (Rules
R300, R301, R304 to R307, R309, R310.) -/
def Obligations.RecordsAreAdmittedWrittenAndSealed : Prop :=
  (∀ s : State,
      (s.recAdmits 1 = false ∨ s.ledger.mirror = [] → exec (.recordAdmit .ledger) s = .next s) ∧
      (∀ e r, s.recAdmits 1 = true → s.ledger.mirror = e :: r →
        ∃ t, exec (.recordAdmit .ledger) s = .next t ∧ t.ledger.mirror = r ∧
          t.recorder = { s.recorder with staging := s.recorder.staging ++
            [{ type := 1, source := 0, payload := entryBytes e, at_ := s.now, stamp := s.stamp }] } ∧
          t = { s with ledger := t.ledger, recorder := t.recorder }) ∧
      (∀ (type n : Nat) (p : List Byte),
        let rec_ : Staged := { type := type, source := n, payload := p, at_ := s.now, stamp := s.stamp }
        let sheds (l : Nat) : Prop := if (s.recorder.shed type).on then l / 2 ≤ s.backlog else l < s.backlog
        (type < 2 ∨ 5 < type ∨ s.recAdmits type = false → exec (.recordAdmit (.data type n p)) s = .next s) ∧
        (type = 5 → s.recAdmits type = true →
          ∃ t, exec (.recordAdmit (.data type n p)) s = .next t ∧ t.recorder.staging = s.recorder.staging ++ [rec_] ∧
            t = { s with recorder := t.recorder }) ∧
        (∀ l, type = 2 ∨ type = 3 → s.recAdmits type = true → shedLimit type = some l →
          (¬ sheds l →
            ∃ t, exec (.recordAdmit (.data type n p)) s = .next t ∧ (t.recorder.shed type).on = false ∧ (t.recorder.shed type).count = 0 ∧
              ((s.recorder.shed type).count = 0 → t.recorder.staging = s.recorder.staging ++ [rec_]) ∧
              (0 < (s.recorder.shed type).count →
                ∃ d : Staged, d.type = 6 ∧ d.stamp = s.stamp ∧ t.recorder.staging = s.recorder.staging ++ [d, rec_]) ∧
              t = { s with recorder := t.recorder }) ∧
          (sheds l →
            ∃ t, exec (.recordAdmit (.data type n p)) s = .next t ∧ t.recorder.staging = s.recorder.staging ∧
              (t.recorder.shed type).on = true ∧ (t.recorder.shed type).count = (s.recorder.shed type).count + 1 ∧
              (t.reg (dropsReg type)).toNat = min 0xFFFFFFFF ((s.reg (dropsReg type)).toNat + 1))) ∧
        (let used := if (s.tap n).second = s.now / sec 1 then (s.tap n).inSecond else 0
         let size := 24 + (pad8 p).length
         type = 4 → s.recAdmits 4 = true →
          (used + size ≤ (s.tapCap n).getD 0 * 125 →
            ∃ t, exec (.recordAdmit (.data type n p)) s = .next t ∧ (t.tap n).pkts = min 0xFFFFFFFF ((s.tap n).pkts + 1) ∧
              (t.tap n).inSecond = used + size ∧
              (¬ sheds 8388608 → (s.recorder.shed 4).count = 0 → t.recorder.staging = s.recorder.staging ++ [rec_]) ∧
              (sheds 8388608 → t.recorder.staging = s.recorder.staging ∧ (t.recorder.shed 4).count = (s.recorder.shed 4).count + 1 ∧
                (t.reg R.rec_TAP_DROPS).toNat = min 0xFFFFFFFF ((s.reg R.rec_TAP_DROPS).toNat + 1))) ∧
          ((s.tapCap n).getD 0 * 125 < used + size →
            ∃ t, exec (.recordAdmit (.data type n p)) s = .next t ∧ (t.tap n).limited = min 0xFFFFFFFF ((s.tap n).limited + 1) ∧
              t.recorder.staging = s.recorder.staging ∧
              (t.reg R.rec_TAP_DROPS).toNat = min 0xFFFFFFFF ((s.reg R.rec_TAP_DROPS).toNat + 1))))) ∧
  (∀ s : State, s.openWheel = none →
      exec .pageWrite s = .next s ∧ exec .pageTimeout s = .next s ∧ exec .safeSealTimeout s = .next s ∧ exec .recWarnStop s = .next s) ∧
  (∀ (w : Wheel) (s : State), s.openWheel = some w → s.recorder.warnAt = none → pageBytes ≤ s.recorder.carry.length →
      (s.mayWrite pageBytes = false → exec .pageWrite s = .next s) ∧
      (s.mayWrite pageBytes = true →
        ∃ t, exec .pageWrite s = .next t ∧ t.recorder.carry = s.recorder.carry.drop pageBytes ∧
          t.openWheel = some { w with area := s.recorder.carry.take pageBytes :: w.area } ∧
          t.recorder.store.written = (s.recorder.store.written + pageBytes) % 2 ^ 64 ∧ t.recorder.staging = s.recorder.staging ∧
          t = { s with recorder := t.recorder })) ∧
  (∀ s : State, s.recorder.carry ≠ [] → s.due (s.recorder.carryAt + ms 10) = false → exec .pageTimeout s = .next s) ∧
  (∀ (w : Wheel) (s : State), s.openWheel = some w → s.recorder.staging = [] → s.recorder.carry ≠ [] → s.due (s.recorder.carryAt + ms 10) = true →
      s.recorder.carry.length + 24 ≤ pageBytes → s.recorder.carry.length % 8 = 0 → s.mayWrite pageBytes = true →
      ∃ t p, exec .pageTimeout s = .next t ∧ t.recorder.carry = [] ∧ p.length = pageBytes ∧
        p.take s.recorder.carry.length = s.recorder.carry ∧
        t.openWheel = some { w with area := p :: w.area, records := w.records + 1, bytes := w.bytes + (pageBytes - s.recorder.carry.length), first := some (w.first.getD s.stamp), last := s.stamp } ∧
        t = { s with recorder := t.recorder }) ∧
  (∀ (w : Wheel) (s : State), s.openWheel = some w → s.recorder.staging = [] → s.recorder.carry = [] → s.mayWrite sealBytes = true →
      let seals (c : Instr) (cause : Nat) : Prop := ∃ t, exec c s = .next t ∧ t.recorder.lastCause = cause ∧
        (t.reg R.rec_SEALS).toNat = min 0xFFFFFFFF ((s.reg R.rec_SEALS).toNat + 1) ∧
        (s.running = true → s.Logs t F.REC_SEALED)
      (s.running = true → ∀ g, seals (.sealNow g) 4) ∧
      (s.ledger.safe = true → s.due (w.openedAt + ms s.safeSealMs) = true → seals .safeSealTimeout 3)) ∧
  (∀ (g : Agent) (s : State), s.running = false → exec (.sealNow g) s = .next s) ∧
  (∀ (w : Wheel) (s : State), s.openWheel = some w → s.ledger.safe = false ∨ s.due (w.openedAt + ms s.safeSealMs) = false →
      exec .safeSealTimeout s = .next s) ∧
  (∀ s : State, s.recorder.warnAt = none → exec .recWarnLedgerClose s = .next s ∧ exec .recWarnStop s = .next s) ∧
  (∀ (b : Nat) (s : State), s.recorder.warnAt = some b →
      (s.due (b + us 1000) = false → exec .recWarnLedgerClose s = .next s) ∧
      (s.due (b + us 1200) = false ∨ s.recorder.state = .warnSealed → exec .recWarnStop s = .next s) ∧
      (s.due (b + us 1000) = true →
        exec .recWarnLedgerClose s = .next { s with recorder := { s.recorder with closedLedger := true } }) ∧
      (∀ w, s.openWheel = some w → s.due (b + us 1200) = true → s.recorder.state ≠ .warnSealed →
        ∃ t, exec .recWarnStop s = .next t ∧ t.recorder.state = .warnSealed ∧ t.recorder.staging = [] ∧ t.recorder.carry = [] ∧
          t.recorder.lastCause = 2 ∧ t.recorder.closedLedger = true ∧ (s.running = true → s.Logs t F.REC_WARN_SEAL) ∧
          (t.reg R.rec_SEALS).toNat = min 0xFFFFFFFF ((s.reg R.rec_SEALS).toNat + 1)))

/-- O45. A sealed wheel that is due a signature, not sealed under a warning, with room in the bucket, gets the signature of its seal
block with REC_SIGNED logged; a wheel not due one, or signed already, does not. EXPORT_OPEN by a session of a sealed wheel in
store, with fewer than 8 exports, pins it for the session in place of its earlier export; otherwise the session reads REFUSED
and no export changes; a core, and an export not idle that long, change nothing. EXPORT_CLOSE, and 60 s without a read, end the
session's export and no other's. VERIFY, while D0 runs, names the wheel and clears the result; VERIFY_DONE shows what
verification found, bits 0 to 2 DIGEST, CRC, SIGNATURE, bit 30 when none failed, and logs REC_VERIFY_FAIL when one did. A failed
NAND block takes a spare with REC_BLOCK_RETIRED; without a spare the slot being written leaves service with REC_SLOT_RETIRED,
and with fewer than 16 slots left the recorder is FAILED with REC_STORE_FAIL. (Rules R308, R314 to R316.) -/
def Obligations.WheelsAreSignedExportedAndVerified : Prop :=
  (∀ (n : Nat) (w : Wheel) (x : Seal) (s : State), s.wheel n = some w → w.seal_ = some x →
      (w.due = true → x.cause ≠ sealWarning → s.mayWrite sealBytes = true → w.signed = none →
        ∃ t, exec (.wheelSign n) s = .next t ∧ t.wheel n = some { w with signed := some (s.stamp, Config.pssSign (sealBlock w x)) } ∧
          (∀ k, k ≠ n → t.wheel k = s.wheel k) ∧ (s.running = true → s.LogsOne t F.REC_SIGNED)) ∧
      (w.due = false ∨ x.cause = sealWarning ∨ s.mayWrite sealBytes = false ∨ w.signed.isSome = true → exec (.wheelSign n) s = .next s)) ∧
  (∀ (n : Nat) (s : State), (s.wheel n).bind (·.seal_) = none → exec (.wheelSign n) s = .next s) ∧
  (∀ (g : Agent) (s : State), (∀ i, g ≠ .session i) → exec (.exportOpen g) s = .next s ∧ exec (.exportClose g) s = .next s) ∧
  (∀ (i : Fin 8) (s : State),
      let n := s.wheelLatch (.session i) R.rec_EXPORT_WHEEL_LO R.rec_EXPORT_WHEEL_HI
      (∀ w x, s.wheel n = some w → w.seal_ = some x → s.recorder.exports.length < 8 →
        ∃ t, exec (.exportOpen (.session i)) s = .next t ∧ t.exportOf i.val = some ⟨i.val, n, s.now⟩ ∧
          (∀ j, j ≠ i.val → t.exportOf j = s.exportOf j) ∧ i.val ∉ t.recorder.refused ∧ t = { s with recorder := t.recorder }) ∧
      (s.wheel n = none ∨ 8 ≤ s.recorder.exports.length ∨ (∃ w, s.wheel n = some w ∧ w.seal_ = none) →
        ∃ t, exec (.exportOpen (.session i)) s = .next t ∧ i.val ∈ t.recorder.refused ∧ t.recorder.exports = s.recorder.exports ∧
          t = { s with recorder := t.recorder }) ∧
      (∃ t, exec (.exportClose (.session i)) s = .next t ∧ t.exportOf i.val = none ∧ (∀ j, j ≠ i.val → t.exportOf j = s.exportOf j) ∧
        t = { s with recorder := t.recorder }) ∧
      (s.exportOf i.val = none → exec (.exportIdleTimeout i) s = .next s) ∧
      (∀ e, s.exportOf i.val = some e →
        (s.due (e.lastAt + sec 60) = false → exec (.exportIdleTimeout i) s = .next s) ∧
        (s.due (e.lastAt + sec 60) = true →
          ∃ t, exec (.exportIdleTimeout i) s = .next t ∧ t.exportOf i.val = none ∧ (∀ j, j ≠ i.val → t.exportOf j = s.exportOf j) ∧
            t = { s with recorder := t.recorder }))) ∧
  (∀ (g : Agent) (s : State), s.running = false → exec (.verify g) s = .next s) ∧
  (∀ s : State, s.recorder.verifying = none → exec .verifyDone s = .next s) ∧
  (∀ (g : Agent) (s : State), s.running = true →
      exec (.verify g) s = .next { s with recorder := { s.recorder with verifying := some ((s.reg R.rec_VERIFY_WHEEL_LO).toNat + 0x100000000 * (s.reg R.rec_VERIFY_WHEEL_HI).toNat), verifyResult := 0 } }) ∧
  (∀ (n : Nat) (d c g : Bool) (s : State), s.recorder.verifying = some n → s.verifyWheel n = (d, c, g) →
      ∃ t, exec .verifyDone s = .next t ∧ t.recorder.verifying = none ∧
        t.recorder.verifyResult = w32 (0x80000000 + 0x40000000 * b2n (!d && !c && !g) + 4 * b2n g + 2 * b2n c + b2n d) ∧
        ((d || c || g) = true → s.running = true → s.LogsOne t F.REC_VERIFY_FAIL) ∧ t.recorder.store = s.recorder.store) ∧
  (∀ (b : Nat) (s : State),
      (0 < s.recorder.store.spares →
        ∃ t, exec (.nandProgramFail b) s = .next t ∧ t.recorder = { s.recorder with store := { s.recorder.store with spares := s.recorder.store.spares - 1 } } ∧
          (s.running = true → s.LogsOne t F.REC_BLOCK_RETIRED) ∧ t = { s with recorder := t.recorder, ledger := t.ledger }) ∧
      (s.recorder.store.spares = 0 → s.openWheel = none → exec (.nandProgramFail b) s = .next s) ∧
      (∀ w, s.recorder.store.spares = 0 → s.openWheel = some w → w.slot ∉ s.recorder.store.badSlots →
        ∃ t, exec (.nandProgramFail b) s = .next t ∧ t.recorder.store.badSlots = s.recorder.store.badSlots ++ [w.slot] ∧
          (s.running = true → s.Logs t F.REC_SLOT_RETIRED) ∧
          (16 ≤ 7449 - s.recorder.store.badSlots.length → t.recorder.store.wheels = s.recorder.store.wheels) ∧
          (7449 - s.recorder.store.badSlots.length < 16 → t.recorder.state = .failed ∧ (s.running = true → s.Logs t F.REC_STORE_FAIL))))

/-- O46. An ACTIVE processor that waits for an interrupt goes to SLEEP when no source waits for delivery, and is SLEEP or awake
again when one does. While D0 runs, a park write makes an ACTIVE or SLEEP tending core PARKED; a resume write by another agent
makes a PARKED core ACTIVE and restarts its watchdog, once an image has run; by the core itself it is ignored; WDT_KICK restarts
the watchdog and SP_KICK acts only from the safety pair. When WDT_MS (not 0) has passed since the last kick of an ACTIVE or
SLEEP processor it restarts: RESTARTING, not ALIVE, nothing in service for it; for a tending core WDT_RESTARTS counts one and
CORE_WATCHDOG is logged, for the safety pair SP_RESTART is. A restart that is done (not halted; a tending core with firmware
loaded) leaves it ACTIVE. In any other state of the processor, before that time, and while D0 is in reset, these rows change
nothing. (Rules R322, R323, R329.) -/
def Obligations.ProcessorsSleepParkAndRestart : Prop :=
  (∀ (p : Fin 5) (s : State), (s.proc p.val).state = .active → (∀ e ∈ s.cores.sources, e.2.waits = false) →
      ∃ t, exec (.coreWfi p) s = .next t ∧ t.proc p.val = { s.proc p.val with state := .sleep } ∧
        (∀ q, q ≠ p.val → t.proc q = s.proc q) ∧ t = { s with cores := t.cores }) ∧
  (∀ (p : Fin 5) (s : State),
      ((s.proc p.val).state = .active → ∃ t, exec (.coreWfi p) s = .next t ∧
        ((t.proc p.val).state = .sleep ∨ (t.proc p.val).state = .active) ∧ t = { s with cores := t.cores }) ∧
      ((s.proc p.val).state ≠ .active → exec (.coreWfi p) s = .next s)) ∧
  (∀ (g : Agent) (c : Fin 4) (p : Fin 5) (s : State), s.running = false →
      exec (.corePark g c) s = .next s ∧ exec (.coreResume g c) s = .next s ∧ exec (.wdtKick g p) s = .next s ∧
      exec (.coreWatchdogExpire p) s = .next s ∧ exec (.processorRestartDone p) s = .next s) ∧
  (∀ (g : Agent) (c : Fin 4) (s : State), s.running = true →
      ((s.tc c.val).state = .parked ∨ (s.tc c.val).state = .restarting → exec (.corePark g c) s = .next s) ∧
      ((s.tc c.val).state ≠ .parked → exec (.coreResume g c) s = .next s) ∧
      ((s.tc c.val).state = .active ∨ (s.tc c.val).state = .sleep →
        ∃ t, exec (.corePark g c) s = .next t ∧ t.tc c.val = { s.tc c.val with state := .parked } ∧ t = { s with cores := t.cores }) ∧
      ((s.tc c.val).state = .parked →
        (s.startup.noImage = true → exec (.coreResume g c) s = .next s) ∧
        (g ≠ .tc c → s.startup.noImage = false → ∃ t, exec (.coreResume g c) s = .next t ∧ t.tc c.val = { s.tc c.val with state := .active, kickedAt := s.now } ∧
          t = { s with cores := t.cores }) ∧
        exec (.coreResume (.tc c) c) s = .next s)) ∧
  (∀ (g : Agent) (p : Fin 5) (s : State), s.running = true →
      (p.val ≠ 4 ∨ g = .sp →
        ∃ t, exec (.wdtKick g p) s = .next t ∧ t.proc p.val = { s.proc p.val with kickedAt := s.now } ∧
          (∀ q, q ≠ p.val → t.proc q = s.proc q) ∧ t = { s with cores := t.cores }) ∧
      (g ≠ .sp → exec (.wdtKick g 4) s = .next s)) ∧
  (∀ (p : Fin 5) (s : State), s.wdtMs p.val = 0 ∨ (s.proc p.val).state = .parked ∨ (s.proc p.val).state = .restarting ∨
      s.due ((s.proc p.val).kickedAt + ms (s.wdtMs p.val)) = false → exec (.coreWatchdogExpire p) s = .next s) ∧
  (∀ (p : Fin 5) (s : State), s.running = true → 0 < s.wdtMs p.val → ((s.proc p.val).state = .active ∨ (s.proc p.val).state = .sleep) →
      s.due ((s.proc p.val).kickedAt + ms (s.wdtMs p.val)) = true →
      ∃ t, exec (.coreWatchdogExpire p) s = .next t ∧ (t.proc p.val).state = .restarting ∧ (t.proc p.val).alive = false ∧
        (t.proc p.val).kickedAt = s.now ∧ (∀ k, (t.source k).service ≠ some p.val) ∧
        (p.val ≠ 4 → (t.reg (R.core_WDT_RESTARTS p.val)).toNat = min 0xFFFFFFFF ((s.reg (R.core_WDT_RESTARTS p.val)).toNat + 1) ∧
          s.Logs t F.CORE_WATCHDOG) ∧
        (p.val = 4 → s.Logs t F.SP_RESTART)) ∧
  (∀ (p : Fin 5) (s : State), (s.proc p.val).state ≠ .restarting ∨ (s.proc p.val).halted = true ∨ (p.val ≠ 4 ∧ s.im.fwTc.running = []) →
      exec (.processorRestartDone p) s = .next s) ∧
  (∀ (p : Fin 5) (s : State), s.running = true → (s.proc p.val).state = .restarting → (s.proc p.val).halted = false →
      (p.val = 4 ∨ s.im.fwTc.running ≠ []) →
      ∃ t, exec (.processorRestartDone p) s = .next t ∧ t.proc p.val = { s.proc p.val with state := .active, kickedAt := s.now } ∧
        t = { s with cores := t.cores })

/-- O47. While D0 runs: an uncorrectable code fetch halts the processor, which the hub sees RESTARTING and not ALIVE, leaves nothing
in service for it, and logs CORE_CODE_LOST. An uncorrectable SRAM read counts in the core's SRAM_UNCORR and logs
CORE_SRAM_UNCORR; no processor stops. A lockstep mismatch of a safety pair that is not halted restarts it, counts in
LOCKSTEP_ERRS and logs SP_LOCKSTEP, and when an earlier mismatch lies within the last 60 s, or two earlier restarts do,
SP_RESTARTS is logged; a halted pair has none. While D0 is in reset nothing changes. (Rules R321, R324.) -/
def Obligations.ProcessorFaultsAreReported : Prop :=
  (∀ (p : Fin 5) (a : Nat) (pc : Word) (s : State), s.running = false →
      exec (.codeFetchError p) s = .next s ∧ exec (.sramUncorr p a) s = .next s ∧ exec (.spLockstepMismatch pc) s = .next s) ∧
  (∀ (p : Fin 5) (s : State), s.running = true →
      ∃ t, exec (.codeFetchError p) s = .next t ∧ (t.proc p.val).state = .restarting ∧ (t.proc p.val).halted = true ∧
        (t.proc p.val).alive = false ∧ (∀ k, (t.source k).service ≠ some p.val) ∧ s.Logs t F.CORE_CODE_LOST) ∧
  (∀ (p : Fin 4) (a : Nat) (s : State), s.running = true →
      ∃ t, exec (.sramUncorr ⟨p.val, by omega⟩ a) s = .next t ∧
        (t.reg (R.core_SRAM_UNCORR p.val)).toNat = min 0xFFFFFFFF ((s.reg (R.core_SRAM_UNCORR p.val)).toNat + 1) ∧
        s.Logs t F.CORE_SRAM_UNCORR) ∧
  (∀ (a : Nat) (s : State), s.running = true →
      ∃ t, exec (.sramUncorr 4 a) s = .next t ∧ s.LogsOne t F.CORE_SRAM_UNCORR ∧ t = { s with ledger := t.ledger }) ∧
  (∀ (pc : Word) (s : State), s.cores.sp.halted = true → exec (.spLockstepMismatch pc) s = .next s) ∧
  (∀ (pc : Word) (s : State), s.running = true → s.cores.sp.halted = false →
      ∃ t, exec (.spLockstepMismatch pc) s = .next t ∧ t.cores.sp.state = .restarting ∧ t.cores.sp.alive = false ∧
        (∀ k, (t.source k).service ≠ some 4) ∧
        (t.reg R.sp_LOCKSTEP_ERRS).toNat = min 0xFFFFFFFF ((s.reg R.sp_LOCKSTEP_ERRS).toNat + 1) ∧ s.Logs t F.SP_LOCKSTEP ∧
        ((∃ b ∈ s.cores.spMismatch, s.now < b + sec 60) ∨ 2 ≤ (s.cores.spRestarts.filter fun b => decide (s.now < b + sec 60)).length →
          s.Logs t F.SP_RESTARTS))

/-- O48. While D0 runs: an event bit sets in its EVENTS register (SATURATED, which counts lost events, is none), and when the bit
was 0 and is enabled, the block's source, unless it has counted in this cycle already, counts one, or at 255 loses the event and
has SAT. A claim by the target itself answers the highest eligible source, lowers its count by one and puts it in service for
the target, or answers 0 and changes nothing else; by another agent it answers 0 and counts in BAD_COMPLETE. A completion by the
target that serves the source ends its service; any other only counts in BAD_COMPLETE. Each set bit i of SWI_SET counts one
event of source 271 + i below 255; no other count changes. A 1 written to SAT clears SAT alone, but for a SAT set in the same
cycle; of source 0 nothing changes. While D0 is in reset a claim answers 0 and nothing else changes. No other source's count or
service changes. (Rules R325, R326, R328.) -/
def Obligations.HubCountsClaimsAndCompletes : Prop :=
  (∀ (a : Nat) (i : Fin 32) (g : Agent) (p : Fin 5) (n : Fin 512) (v : Word) (s : State), s.running = false →
      exec (.irqEvent a i) s = .next s ∧ exec (.irqClaim g p) s = .next { s with readValue := 0 } ∧
      exec (.irqComplete g p n) s = .next s ∧ exec (.swiSet g v) s = .next s ∧ exec (.srcCntSatClear g n) s = .next s) ∧
  (∀ (a : Nat) (n : Fin 32) (s : State), s.running = true → a ≠ R.hub_SATURATED →
      ∃ t, exec (.irqEvent a n) s = .next t ∧ t.reg a = s.reg a ||| w32 (2 ^ n.val) ∧
        (∀ k, eventSource a = some k → 0 < k → k ≤ 286 → (s.source k).counted ≠ some s.now →
          s.reg a &&& w32 (2 ^ n.val) = 0 → s.reg (a + 4) &&& w32 (2 ^ n.val) ≠ 0 →
          ((s.source k).count < 255 → (t.source k).count = (s.source k).count + 1) ∧
          (255 ≤ (s.source k).count → (t.source k).count = (s.source k).count ∧ (t.source k).sat = true) ∧
          ∀ m, m ≠ k → (t.source m).count = (s.source m).count) ∧
        (s.reg a &&& w32 (2 ^ n.val) ≠ 0 ∨ s.reg (a + 4) &&& w32 (2 ^ n.val) = 0 → ∀ m, t.source m = s.source m) ∧
        (∀ m, (t.source m).service = (s.source m).service)) ∧
  (∀ (g : Agent) (p : Fin 5) (s : State), s.running = true →
      (agentNo g = p.val → s.topSource p.val ≠ 0 →
        ∃ t, exec (.irqClaim g p) s = .next t ∧ t.readValue = w32 (s.topSource p.val) ∧
          (t.source (s.topSource p.val)).count = (s.source (s.topSource p.val)).count - 1 ∧
          (t.source (s.topSource p.val)).service = some p.val ∧
          (∀ m, m ≠ s.topSource p.val → (t.source m).count = (s.source m).count ∧ (t.source m).service = (s.source m).service) ∧
          t = { s with cores := t.cores, readValue := t.readValue }) ∧
      (agentNo g = p.val → s.topSource p.val = 0 → exec (.irqClaim g p) s = .next { s with readValue := 0 }) ∧
      (agentNo g ≠ p.val →
        ∃ t, exec (.irqClaim g p) s = .next t ∧ t.readValue = 0 ∧
          (t.reg R.hub_BAD_COMPLETE).toNat = min 0xFFFFFFFF ((s.reg R.hub_BAD_COMPLETE).toNat + 1) ∧
          (∀ b, b ≠ R.hub_BAD_COMPLETE → t.reg b = s.reg b) ∧ t = { s with regs := t.regs, readValue := t.readValue })) ∧
  (∀ (g : Agent) (p : Fin 5) (n : Fin 512) (s : State), s.running = true →
      (agentNo g = p.val ∧ (s.source n.val).service = some p.val →
        ∃ t, exec (.irqComplete g p n) s = .next t ∧ (t.source n.val).service = none ∧
          (∀ m, (t.source m).count = (s.source m).count ∧ (m ≠ n.val → (t.source m).service = (s.source m).service)) ∧
          t = { s with cores := t.cores }) ∧
      (¬(agentNo g = p.val ∧ (s.source n.val).service = some p.val) →
        ∃ t, exec (.irqComplete g p n) s = .next t ∧
          (t.reg R.hub_BAD_COMPLETE).toNat = min 0xFFFFFFFF ((s.reg R.hub_BAD_COMPLETE).toNat + 1) ∧
          (∀ b, b ≠ R.hub_BAD_COMPLETE → t.reg b = s.reg b) ∧ t = { s with regs := t.regs })) ∧
  (∀ (g : Agent) (v : Word) (s : State), s.running = true →
      ∃ t, exec (.swiSet g v) s = .next t ∧
        (∀ i : Fin 16, (t.source (271 + i.val)).count =
          (if bit v.toNat i.val = true ∧ (s.source (271 + i.val)).count < 255 then (s.source (271 + i.val)).count + 1
           else (s.source (271 + i.val)).count)) ∧
        (∀ m, (m < 271 ∨ 286 < m) → (t.source m).count = (s.source m).count) ∧
        (∀ m, (t.source m).service = (s.source m).service)) ∧
  (∀ (g : Agent) (n : Fin 512) (s : State), s.running = true → n.val ≠ 0 →
      ∃ t, exec (.srcCntSatClear g n) s = .next t ∧
        t.source n.val = { s.source n.val with sat := (s.source n.val).sat && decide ((s.source n.val).satAt = some s.now) } ∧
        (∀ m, m ≠ n.val → t.source m = s.source m) ∧ t = { s with cores := t.cores }) ∧
  (∀ (g : Agent) (s : State), exec (.srcCntSatClear g 0) s = .next s)

/-- O49. While D0 runs, a write of SRC_CFG of a source but 0 sets priority, WAKE, MASK and each of TARGET and FALLBACK that is 0 to
4, and keeps the count, SAT and service; but by an agent other than the safety pair, where TARGET or FALLBACK is or would be the
safety pair, it changes no source, counts in DENIED and logs HUB_DENIED. A write of THRESHOLD sets the target's and no other. A
source that has waited 1 s without an effective target logs IRQ_NO_TARGET once per episode (while D0 runs). Source 0, and any
write while D0 is in reset, changes nothing. (Rules R327, R329, R330.) -/
def Obligations.HubIsConfiguredByWhoMay : Prop :=
  (∀ (g : Agent) (n : Fin 512) (p : Fin 5) (v : Word) (s : State),
      (s.running = false ∨ n.val = 0 → exec (.srcCfgWrite g n v) s = .next s) ∧
      (s.running = false → exec (.thresholdWrite g p v) s = .next s)) ∧
  (∀ (g : Agent) (n : Fin 512) (v : Word) (s : State), s.running = true → n.val ≠ 0 →
      let target := v.toNat / 16 % 8
      let fallback := v.toNat / 256 % 8
      let sps := (s.source n.val).target = 4 ∨ (s.source n.val).fallback = 4 ∨ target = 4 ∨ fallback = 4
      (g = .sp ∨ ¬sps →
        ∃ t, exec (.srcCfgWrite g n v) s = .next t ∧ (t.source n.val).prio = v.toNat % 16 ∧
          (t.source n.val).target = (if target < 5 then target else (s.source n.val).target) ∧
          (t.source n.val).fallback = (if fallback < 5 then fallback else (s.source n.val).fallback) ∧
          (t.source n.val).wake = bit v.toNat 12 ∧ (t.source n.val).mask = bit v.toNat 13 ∧
          (∀ m, (t.source m).count = (s.source m).count ∧ (t.source m).sat = (s.source m).sat ∧
            (t.source m).service = (s.source m).service) ∧ t = { s with cores := t.cores }) ∧
      (g ≠ .sp ∧ sps →
        ∃ t, exec (.srcCfgWrite g n v) s = .next t ∧ s.LogsOne t F.HUB_DENIED ∧
          (t.reg R.hub_DENIED).toNat = min 0xFFFFFFFF ((s.reg R.hub_DENIED).toNat + 1) ∧
          (∀ b, b ≠ R.hub_DENIED → t.reg b = s.reg b) ∧ t = { s with regs := t.regs, ledger := t.ledger })) ∧
  (∀ (g : Agent) (p : Fin 5) (v : Word) (s : State), s.running = true →
      ∃ t, exec (.thresholdWrite g p v) s = .next t ∧ t.threshold p.val = v.toNat % 16 ∧
        (∀ q, q ≠ p.val → t.threshold q = s.threshold q) ∧ t = { s with cores := t.cores }) ∧
  (∀ (n : Fin 512) (s : State), ((s.source n.val).noTarget = none ∨ ∃ b, (s.source n.val).noTarget = some b ∧ s.now < b + sec 1) →
      exec (.irqNoTarget n) s = .next s) ∧
  (∀ (n : Fin 512) (b : Nat) (s : State), (s.source n.val).noTarget = some b → b + sec 1 ≤ s.now →
      ((s.source n.val).noTargetLogged = false →
        ∃ t, exec (.irqNoTarget n) s = .next t ∧ t.source n.val = { s.source n.val with noTargetLogged := true } ∧
          (∀ m, m ≠ n.val → t.source m = s.source m) ∧ (s.running = true → s.LogsOne t F.IRQ_NO_TARGET) ∧ t = { s with cores := t.cores, ledger := t.ledger }) ∧
      ((s.source n.val).noTargetLogged = true → exec (.irqNoTarget n) s = .next s))

/-- O50. While D0 runs, by the safety pair, or by any agent where the timer's source is not the safety pair's: RT_ARM takes the
writer's own RT_CMP_LO with the value as the compare stamp; a stamp later than now arms the timer, any other expires at once
with LATE, TIMER_LATE and one event of source 263 + n. By another agent RT_ARM and RT_DISARM change no timer, count in DENIED
and log HUB_DENIED. When the counter reaches an armed stamp the timer fires: RT_FIRED counts one, its source counts one event
below 255, and the timer is disarmed, or with RT_PERIOD not 0 armed at the stamp plus the period. RT_DISARM disarms. A timer not
armed or whose stamp is not reached does not fire. No other timer changes. (Rules R330, R331.) -/
def Obligations.RasterTimersArmFireAndDisarm : Prop :=
  (∀ (n : Fin 8) (s : State), (s.timer n.val).armed = none ∨ (∃ a, (s.timer n.val).armed = some a ∧ s.reached a = false) →
    exec (.rtExpire n) s = .next s) ∧
  (∀ (g : Agent) (n : Fin 8) (v : Word) (s : State), s.running = false →
    exec (.rtArm g n v) s = .next s ∧ exec (.rtDisarm g n) s = .next s) ∧
  ∀ (g : Agent) (n : Fin 8) (s : State), (s.running = true →
    (g ≠ .sp → (s.source (263 + n.val)).ofSp = true → ∀ (v : Word) (c : Instr), c = .rtArm g n v ∨ c = .rtDisarm g n →
      ∃ t, exec c s = .next t ∧ (t.reg R.hub_DENIED).toNat = min 0xFFFFFFFF ((s.reg R.hub_DENIED).toNat + 1) ∧
        (∀ b, b ≠ R.hub_DENIED → t.reg b = s.reg b) ∧ s.LogsOne t F.HUB_DENIED ∧ t = { s with regs := t.regs, ledger := t.ledger }) ∧
    ((g = .sp ∨ (s.source (263 + n.val)).ofSp = false) →
      (∀ v : Word, let a : Stamp := v ++ s.latch g (R.rt_RT_CMP_LO n.val)
        (later a s.stamp = true →
          ∃ t, exec (.rtArm g n v) s = .next t ∧ t.timer n.val = { armed := some a, late := false, seededCancel := false } ∧
            t.reg (R.rt_RT_CMP_HI n.val) = v ∧ (∀ m, m ≠ n.val → t.timer m = s.timer m) ∧ t.cores.sources = s.cores.sources) ∧
        (later a s.stamp = false →
          ∃ t, exec (.rtArm g n v) s = .next t ∧ (t.timer n.val).late = true ∧ s.Logs t F.TIMER_LATE ∧ (∀ m, m ≠ n.val → t.timer m = s.timer m) ∧
            (t.timer n.val).armed = (if (s.reg (R.rt_RT_PERIOD n.val)).toNat = 0 then none
              else some (a + BitVec.ofNat 64 (s.reg (R.rt_RT_PERIOD n.val)).toNat)) ∧
            (t.reg (R.rt_RT_FIRED n.val)).toNat = min 0xFFFFFFFF ((s.reg (R.rt_RT_FIRED n.val)).toNat + 1) ∧
            ((s.source (263 + n.val)).count < 255 → (t.source (263 + n.val)).count = (s.source (263 + n.val)).count + 1))) ∧
      (∃ t, exec (.rtDisarm g n) s = .next t ∧ t.timer n.val = { s.timer n.val with armed := none } ∧
        (∀ m, m ≠ n.val → t.timer m = s.timer m) ∧ t = { s with cores := t.cores }))) ∧
    (∀ a, (s.timer n.val).armed = some a → s.reached a = true →
      ∃ t, exec (.rtExpire n) s = .next t ∧
        (t.timer n.val).armed = (if (s.reg (R.rt_RT_PERIOD n.val)).toNat = 0 then none
          else some (a + BitVec.ofNat 64 (s.reg (R.rt_RT_PERIOD n.val)).toNat)) ∧
        (t.reg (R.rt_RT_FIRED n.val)).toNat = min 0xFFFFFFFF ((s.reg (R.rt_RT_FIRED n.val)).toNat + 1) ∧
        ((s.source (263 + n.val)).count < 255 → (t.source (263 + n.val)).count = (s.source (263 + n.val)).count + 1) ∧
        (∀ m, m ≠ n.val → t.timer m = s.timer m))

/-- O51. On a channel in use while D0 runs, a START, data write or END by an agent that is not its OWNER changes no channel and
counts in CHK_ERRORS, and so does the owner's data write or END with no message open. By the owner, START opens an empty
message; a data write of 1, 2 or 4 bytes to an open message adds them in ORDER; END of an append message feeds the alive
counter's two bytes, holds the check value of the whole in CHK_RESULT and the counter used in CHK_ALIVE, and the counter
advances by one modulo 2^16; END of a check-and-strip message that is shorter than its trailer has the verdict SHORT, one whose
check value is wrong CRC_FAIL, and one whose alive counter is neither the first nor advances by 1 to WINDOW ALIVE_FAIL, each
counted in CHK_FAILS; any other has PASS and its counter is remembered; each verdict is one event of source 247 + n. CHK_MSGS
counts one message at each END. The other channels stay. A channel that is off, and any channel while D0 is in reset, ignores
every write. (Rules R333 to R336.) -/
def Obligations.CheckChannelsOpenFeedAndJudge : Prop :=
  (∀ (g : Agent) (n : Fin 16) (z : Fin 3) (v : Word) (s : State), s.running = false ∨ (s.check n.val).mode = 0 →
    exec (.chkStart g n) s = .next s ∧ exec (.chkData g n z v) s = .next s ∧ exec (.chkEnd g n) s = .next s) ∧
  ∀ (g : Agent) (n : Fin 16) (s : State), s.running = true → (s.check n.val).mode ≠ 0 →
    (∀ (z : Fin 3) (v : Word) (c : Instr),
      (agentNo g ≠ (s.check n.val).owner ∧ (c = .chkStart g n ∨ c = .chkData g n z v ∨ c = .chkEnd g n)) ∨
        ((s.check n.val).state ≠ .opened ∧ (c = .chkData g n z v ∨ c = .chkEnd g n)) →
      ∃ t, exec c s = .next t ∧ (t.reg (R.chk_CHK_ERRORS n.val)).toNat = min 0xFFFFFFFF ((s.reg (R.chk_CHK_ERRORS n.val)).toNat + 1) ∧
        (∀ b, b ≠ R.chk_CHK_ERRORS n.val → t.reg b = s.reg b) ∧ t = { s with regs := t.regs }) ∧
    (agentNo g = (s.check n.val).owner →
      (∃ t, exec (.chkStart g n) s = .next t ∧ t.check n.val = { s.check n.val with state := .opened, fed := [], verdict := 0 } ∧
        (∀ m, m ≠ n.val → t.check m = s.check m) ∧ t = { s with cores := t.cores }) ∧
      ((s.check n.val).state = .opened →
        (∀ (z : Fin 3) (v : Word), ∃ t, exec (.chkData g n z v) s = .next t ∧
          (t.check n.val).fed = (s.check n.val).fed ++ (if (s.check n.val).order then beBytes (2 ^ z.val) v.toNat else leBytes (2 ^ z.val) v.toNat) ∧
          (t.check n.val).state = .opened ∧ (∀ m, m ≠ n.val → t.check m = s.check m) ∧ t = { s with cores := t.cores }) ∧
        ((s.check n.val).mode = 1 →
          ∃ t, exec (.chkEnd g n) s = .next t ∧
            (t.check n.val).result = checkValue (s.check n.val).alg ((s.check n.val).fed ++
              (if (s.check n.val).order then beBytes 2 (s.check n.val).counter else leBytes 2 (s.check n.val).counter)) ∧
            (t.check n.val).shown = (s.check n.val).counter ∧ (t.check n.val).counter = ((s.check n.val).counter + 1) % 65536 ∧
            (t.check n.val).state = .done ∧
            (t.reg (R.chk_CHK_MSGS n.val)).toNat = min 0xFFFFFFFF ((s.reg (R.chk_CHK_MSGS n.val)).toNat + 1) ∧
            (∀ m, m ≠ n.val → t.check m = s.check m)) ∧
        ((s.check n.val).mode ≠ 1 →
          (∃ t, exec (.chkEnd g n) s = .next t ∧ (t.check n.val).state = .done ∧ (∀ m, m ≠ n.val → t.check m = s.check m) ∧
            (t.reg (R.chk_CHK_MSGS n.val)).toNat = min 0xFFFFFFFF ((s.reg (R.chk_CHK_MSGS n.val)).toNat + 1) ∧
            ((s.source (247 + n.val)).count < 255 → (t.source (247 + n.val)).count = (s.source (247 + n.val)).count + 1)) ∧
          ((s.check n.val).fed.length < 2 + checkWidth (s.check n.val).alg →
            ∃ t, exec (.chkEnd g n) s = .next t ∧ (t.check n.val).verdict = 4 ∧ (t.check n.val).last = (s.check n.val).last ∧
              (t.reg (R.chk_CHK_FAILS n.val)).toNat = min 0xFFFFFFFF ((s.reg (R.chk_CHK_FAILS n.val)).toNat + 1)) ∧
          (∀ (body : List Byte) (a x : Nat), a < 65536 → x < 256 ^ checkWidth (s.check n.val).alg →
            let covered := body ++ orderBytes (s.check n.val).order 2 a
            let value := checkValue (s.check n.val).alg covered
            let stale := ∃ l, (s.check n.val).last = some l ∧
              ((a + 65536 - l) % 65536 = 0 ∨ (s.check n.val).window < (a + 65536 - l) % 65536)
            (s.check n.val).fed = covered ++ orderBytes (s.check n.val).order (checkWidth (s.check n.val).alg) x →
            ∃ t, exec (.chkEnd g n) s = .next t ∧ (t.check n.val).result = value ∧ (t.check n.val).shown = a ∧
              (x ≠ value → (t.check n.val).verdict = 2) ∧ (x = value → stale → (t.check n.val).verdict = 3) ∧
              (x ≠ value ∨ stale → (t.check n.val).last = (s.check n.val).last ∧
                (t.reg (R.chk_CHK_FAILS n.val)).toNat = min 0xFFFFFFFF ((s.reg (R.chk_CHK_FAILS n.val)).toNat + 1)) ∧
              (x = value → ¬ stale → (t.check n.val).verdict = 1 ∧ (t.check n.val).last = some a)))))

/-- O52. While D0 is in reset, and by a closed session, a write changes nothing. While D0 runs: a write to an address that the map
refuses changes no register it names: a core's logs CORE_ACCESS, an open session's counts in VIOLATIONS. A write to a register
of a gated or reset tile, and to an offset that names no register or only a read-only one, changes nothing. For a register
without an effect of its own that all agents share: a W1C register keeps the bits not written 1 and those that hardware sets in
the same cycle; an RW register takes the value in its RW bits and keeps the others; no other register and no other part of the
state changes. An EVENT_EN takes the value in its RW bits, and one of its bits that rises over a set event bit counts one event
of the block's source below 255, once in a cycle. A register that each agent has for itself takes the value in its RW bits for
the writing agent and for no other. (Rules R4 to R6, R15, R320, R374, R413.) -/
def Obligations.RegisterWritesFollowTheirAccessCodes : Prop :=
  ∀ (g : Agent) (a : Nat) (v : Word) (s : State), (s.running = false → exec (.registerWrite g a v) s = .next s) ∧ (s.running = true →
    (s.agentLive g = false → exec (.registerWrite g a v) s = .next s) ∧
    (s.agentLive g = true → accessRefused a = true →
      (g.isCore = true → ∃ t, exec (.registerWrite g a v) s = .next t ∧ s.LogsOne t F.CORE_ACCESS ∧ t = { s with ledger := t.ledger }) ∧
      (g.isCore = false → ∃ t, exec (.registerWrite g a v) s = .next t ∧
        (t.reg R.mdp_VIOLATIONS).toNat = min 0xFFFFFFFF ((s.reg R.mdp_VIOLATIONS).toNat + 1) ∧
        (∀ b, b ≠ R.mdp_VIOLATIONS → t.reg b = s.reg b) ∧ t = { s with regs := t.regs, ledger := t.ledger })) ∧
    (∀ l n, s.agentLive g = true → accessRefused a = false → layoutOf a = some (l, n) →
      (s.tileDark a = true → exec (.registerWrite g a v) s = .next s) ∧
      (s.tileDark a = false → s.writeActs g l n (offsetOf a) a v = none → perAgent l (offsetOf a) g = some true →
        ∀ r, l.rowAt (offsetOf a) = some r → ∃ t, exec (.registerWrite g a v) s = .next t ∧
          t.latch g a = (s.latch g a &&& ~~~(w32 r.rw)) ||| (v &&& w32 r.rw) ∧
          (∀ h, agentNo h ≠ agentNo g → t.latch h a = s.latch h a) ∧ t = { s with latches := t.latches }) ∧
      (s.tileDark a = false → s.writeActs g l n (offsetOf a) a v = none → perAgent l (offsetOf a) g = none →
        (l.rowAt (offsetOf a) = none → exec (.registerWrite g a v) s = .next s) ∧
        (∀ r, l.rowAt (offsetOf a) = some r →
          (r.w1c = 0 → r.rw = 0 → exec (.registerWrite g a v) s = .next s) ∧
          (r.w1c ≠ 0 → ∃ t, exec (.registerWrite g a v) s = .next t ∧
            t.reg a = s.reg a &&& (~~~(v &&& w32 r.w1c) ||| s.setBits a) ∧ (∀ b, b ≠ a → t.reg b = s.reg b) ∧ t = { s with regs := t.regs }) ∧
          (r.w1c = 0 → r.rw ≠ 0 → isEventEnable l (offsetOf a) = true → a ≠ R.hub_SATURATED →
            ∃ t, exec (.registerWrite g a v) s = .next t ∧ t.reg a = v &&& w32 r.rw ∧
              (∀ k, eventSource a = some k → 0 < k → k ≤ 286 → (s.source k).counted ≠ some s.now → (s.source k).count < 255 →
                (v &&& w32 r.rw) &&& ~~~(s.reg a) &&& s.reg (a - 4) ≠ 0 → (t.source k).count = (s.source k).count + 1) ∧
              (∀ b, b ≠ a → b ≠ R.hub_SATURATED → t.reg b = s.reg b)) ∧
          (r.w1c = 0 → r.rw ≠ 0 → isEventEnable l (offsetOf a) = false → ∃ t, exec (.registerWrite g a v) s = .next t ∧
            t.reg a = (s.reg a &&& ~~~(w32 r.rw)) ||| (v &&& w32 r.rw) ∧ (∀ b, b ≠ a → t.reg b = s.reg b) ∧ t = { s with regs := t.regs })))))

/-- O53. For an open session with nothing held and no CLOSE, whose counters have room: an operation becomes request E + 1, its
answer is stored and its CTR advances. READ of one register answers its value, without the right it is a violation; WRITE and
MODIFY of a plain RW register store it (MODIFY under its mask, answering the old value), a refused address is MDP_ADDRESS;
BLOCK_READ of the identity space answers its bytes; BLOCK_WRITE loads a slot from offset 0 and appends at its end; SUBSCRIBE and
UNSUBSCRIBE set and end the stream; ATTEST answers the report and its signature with ATTESTED logged; NOP answers the raster.
ENROL of an unowned module with a good key and proof stores slot 0 with the lineage, logs OWN_ENROLLED and ends the session,
without the proof it is OWN_REFUSED and no slot changes; SLOT_WRITE and SLOT_CLEAR by a session with ADMIN, with a good proof
and key of its own, a slot with ADMIN remaining and no anchor lost, store the slot alone, log OWN_SLOT and end its sessions, and
otherwise are OWN_REFUSED and no slot changes; DISOWN with the module's KEY_ID empties every slot, the lineage, the boot banks
and the staging slots not pinned and ends every session, otherwise it is OWN_REFUSED. Without ADMIN these are violations. Of a
closed session, or while sessions are not possible, no operation changes anything. (Rules R348 to R355. What the crypto finds is
free: log entry 8.) -/
def Obligations.OperationsOfSessionsAreExecuted : Prop :=
  (∀ (i : Fin 8) (a n k : Nat) (v w : Word) (l : List Word) (p : List Byte) (c : BitVec 64) (s : State),
    s.mdpOn = false ∨ (s.session i.val).present = false →
    exec (.read i a n) s = .next s ∧ exec (.write i a l) s = .next s ∧ exec (.modify i a v w) s = .next s ∧
    exec (.blockRead i a n k) s = .next s ∧ exec (.blockWrite i a n p) s = .next s ∧ exec (.subscribe i a n k) s = .next s ∧
    exec (.unsubscribe i) s = .next s ∧ exec (.attest i p) s = .next s ∧ exec (.enrol i p) s = .next s ∧
    exec (.slotWrite i p) s = .next s ∧ exec (.slotClear i k) s = .next s ∧ exec (.disown i c) s = .next s ∧ exec (.nop i) s = .next s) ∧
  ∀ (i : Fin 8) (s : State), s.mdpOn = true → (s.session i.val).present = true → (s.session i.val).held = [] →
    (s.session i.val).closing = none → (s.session i.val).txCtr ≤ ctrLimit → (s.session i.val).executed + 1 < 0xFFFFFFFF →
    let x := s.session i.val
    let n := x.executed + 1
    let answered (t : State) (op status : Nat) (res : List Byte) : Prop :=
      (t.session i.val).present = true ∧ (t.session i.val).executed = n ∧ (t.session i.val).txCtr = x.txCtr + 1 ∧
      (t.session i.val).answers = ((⟨n, beBytes 1 op ++ beBytes 1 0 ++ beBytes 2 status ++ res⟩ : Answer) :: x.answers).take 64
    let counts (t : State) : Prop := (t.reg R.mdp_VIOLATIONS).toNat = min 0xFFFFFFFF ((s.reg R.mdp_VIOLATIONS).toNat + 1)
    let ended (t : State) (k : Nat) : Prop := ∀ j, j < 8 → (s.session j).present = true → (s.session j).slot = k → (t.session j).present = false
    (∀ a, (bit x.rights 0 = true → accessRefused a = false → s.answerFits x.route 4 = true →
        ∃ t, exec (.read i a 1) s = .next t ∧ answered t 1 0 (beBytes 4 (s.readReg (.session i) a).2.toNat)) ∧
      (bit x.rights 0 = false → s.answerFits x.route 4 = true →
        ∃ t, exec (.read i a 1) s = .next t ∧ answered t 1 F.MDP_RIGHTS.code [] ∧ counts t)) ∧
    (∀ a v, bit x.rights 1 = true →
      (accessRefused a = true →
        ∃ t, exec (.write i a [v]) s = .next t ∧ answered t 2 F.MDP_ADDRESS.code [] ∧ counts t) ∧
      (∀ l k r, accessRefused a = false → adminRegister a = false → stagedRegister a = false → layoutOf a = some (l, k) →
        s.tileDark a = false → perAgent l (offsetOf a) (.session i) = none → l.rowAt (offsetOf a) = some r → r.w1c = 0 → r.rw ≠ 0 →
        isEventEnable l (offsetOf a) = false →
        (s.writeActs (.session i) l k (offsetOf a) a v = none →
          ∃ t, exec (.write i a [v]) s = .next t ∧ answered t 2 0 [] ∧ t.reg a = (s.reg a &&& ~~~(w32 r.rw)) ||| (v &&& w32 r.rw) ∧
            t = { s with regs := t.regs, mdp := t.mdp, wire := t.wire }) ∧
        (∀ m, let old := (s.readReg (.session i) a).2
          let w := (old &&& ~~~m) ||| (v &&& m)
          s.readActs (.session i) l k (offsetOf a) a = none → s.latchPair l k (offsetOf a) = none →
          s.writeActs (.session i) l k (offsetOf a) a w = none →
          ∃ t, exec (.modify i a m v) s = .next t ∧ answered t 3 0 (beBytes 4 old.toNat) ∧
            t.reg a = (s.reg a &&& ~~~(w32 r.rw)) ||| (w &&& w32 r.rw) ∧ t = { s with regs := t.regs, mdp := t.mdp, wire := t.wire }))) ∧
    (∀ off len, 0 < len → len ≤ 8192 → off + len ≤ 2112 → s.answerFits x.route len = true →
      ∃ t, exec (.blockRead i 3 off len) s = .next t ∧ answered t 0x10 0 ((identitySpace.drop off).take len) ∧
        t = { s with regs := t.regs, mdp := t.mdp, wire := t.wire }) ∧
    (∀ (k : Fin 2) (p : List Byte), bit x.rights 1 = true → p ≠ [] → p.length ≤ 8192 → (s.imgSlot k.val).state ≠ .checking → s.slotPinned k.val = false →
      (∃ t, exec (.blockWrite i k.val 0 p) s = .next t ∧ answered t 0x11 0 [] ∧ t.imgSlot k.val = { state := .loading, bytes := p } ∧
        (∀ j, j < 2 → j ≠ k.val → t.imgSlot j = s.imgSlot j)) ∧
      (let b := (s.imgSlot k.val).bytes
       b ≠ [] → b.length + p.length ≤ 268435456 →
        ∃ t, exec (.blockWrite i k.val b.length p) s = .next t ∧ answered t 0x11 0 [] ∧ (t.imgSlot k.val).bytes = b ++ p ∧
          (t.imgSlot k.val).state = .loading)) ∧
    (∀ m f q, m ≤ 4 → bit x.rights 0 = true →
      let from_ := if bit f 0 then s.ledger.nextSeq else q
      ∃ t, exec (.subscribe i m f q) s = .next t ∧ answered t 0x20 0 (beBytes 4 from_) ∧
        (t.session i.val).sub = some { minSev := m, state := bit f 1, next := from_, stateAt := s.now }) ∧
    (bit x.rights 0 = true → ∃ t, exec (.unsubscribe i) s = .next t ∧ answered t 0x21 0 [] ∧ (t.session i.val).sub = none) ∧
    (∀ p : List Byte, p.length = 32 → s.answerFits x.route 704 = true →
      ∃ t, exec (.attest i p) s = .next t ∧ answered t 0x30 0 (s.report p ++ Config.pssSign (s.report p)) ∧ s.Logs t F.ATTESTED) ∧
    (∃ t, exec (.nop i) s = .next t ∧ answered t 0x50 0 (beBytes 8 s.stamp.toNat) ∧ (∀ j, j ≠ i.val → t.session j = s.session j) ∧
      ((s.port (32 + b2n x.route.m1)).state = .up → ∃ b, t.wire = .mdp x.route b :: s.wire) ∧
      t = { s with regs := t.regs, mdp := t.mdp, wire := t.wire }) ∧
    (∀ p : List Byte, p.length = 1032 → x.slot = 0xFF → s.unowned = true → be p 0 4 ≠ 0 → be p 0 4 ≠ 0xFFFFFFFF → keyShape p = true →
      ∃ t, exec (.enrol i p) s = .next t ∧
        (if proofGood p (be p 0 4) = true then
          t.slot 0 = opSlot p 0x0F ∧ t.im.lineage = w32 (be p 0 4) ∧ t.session i.val = {} ∧ s.Logs t F.OWN_ENROLLED
         else answered t 0x40 F.OWN_REFUSED.code [] ∧ s.Logs t F.OWN_REFUSED ∧ t.mdp.slots = s.mdp.slots ∧ t.im = s.im)) ∧
    (∀ p : List Byte, p.length = 1032 →
      let k := be p 0 1
      let o := opSlot p (be p 1 1)
      (bit x.rights 2 = false → ∃ t, exec (.slotWrite i p) s = .next t ∧ answered t 0x41 F.MDP_RIGHTS.code [] ∧ counts t ∧ t.mdp.slots = s.mdp.slots) ∧
      (bit x.rights 2 = true →
        ∃ t, exec (.slotWrite i p) s = .next t ∧
          (if k ≤ 3 ∧ keyShape p = true ∧ be p 1 1 < 16 ∧ proofGood p s.im.lineage.toNat = true ∧
              ((List.range 4).any fun j => j != k && (s.slot j).present && (s.slot j).keyId == o.keyId) = false ∧ s.adminRemains k o = true ∧
              (s.anchors (s.slot k) = true → (s.slot k).keyId = o.keyId) then
            t.slot k = o ∧ (∀ j, j ≠ k → t.slot j = s.slot j) ∧ ended t k ∧ s.Logs t F.OWN_SLOT
           else answered t 0x41 F.OWN_REFUSED.code [] ∧ s.Logs t F.OWN_REFUSED ∧ t.mdp.slots = s.mdp.slots))) ∧
    (∀ k,
      (bit x.rights 2 = false → ∃ t, exec (.slotClear i k) s = .next t ∧ answered t 0x42 F.MDP_RIGHTS.code [] ∧ counts t ∧ t.mdp.slots = s.mdp.slots) ∧
      (bit x.rights 2 = true →
        ∃ t, exec (.slotClear i k) s = .next t ∧
          (if k ≤ 3 ∧ s.adminRemains k {} = true ∧ s.anchors (s.slot k) = false then
            t.slot k = {} ∧ (∀ j, j ≠ k → t.slot j = s.slot j) ∧ ended t k ∧ s.Logs t F.OWN_SLOT
           else answered t 0x42 F.OWN_REFUSED.code [] ∧ s.Logs t F.OWN_REFUSED ∧ t.mdp.slots = s.mdp.slots))) ∧
    (∀ c : BitVec 64, bit x.rights 2 = false →
      ∃ t, exec (.disown i c) s = .next t ∧ answered t 0x43 F.MDP_RIGHTS.code [] ∧ counts t ∧ t.mdp.slots = s.mdp.slots) ∧
    (∀ c : BitVec 64, bit x.rights 2 = true → c.toNat ≠ keyIdNo →
      ∃ t, exec (.disown i c) s = .next t ∧ answered t 0x43 F.OWN_REFUSED.code [] ∧ s.Logs t F.OWN_REFUSED ∧ t.mdp.slots = s.mdp.slots) ∧
    (∀ c : BitVec 64, bit x.rights 2 = true → c.toNat = keyIdNo →
      ∃ t, exec (.disown i c) s = .next t ∧ (∀ n, n < 2 → s.slotPinned n = false → t.imgSlot n = {}) ∧ (∀ k, k < 4 → t.slot k = {}) ∧ t.im.lineage = 0 ∧ t.im.bankA.state = .invalid ∧
        t.im.bankB.state = .invalid ∧ (∀ j, j < 8 → (t.session j).present = false) ∧ s.Logs t F.OWN_DISOWNED)

/-- O54. A port that cannot receive hears nothing. On a management port that can: IDENTIFY with 1,056 zero bytes is answered with
the certificate within the rate, any other counts in VIOLATIONS. An OPEN within the rate that passes the checks opens a session
in the first free place, counts in OPENS and logs MDP_SESSION_OPEN; one that fails or exceeds the rate counts in OPEN_FAILS and
opens none. A protected datagram of no open session counts in VIOLATIONS; one that does not authenticate counts in AUTH_FAIL and
changes no session; of an authentic one, a CTR seen before counts in REPLAYS and one beyond the limit ends the session; a NOP
request E + 1 is executed, an executed one is answered again and counts in RETX, one beyond the window is a violation; an ACK
removes the NOTIFYs up to SEQ, one not sent is a violation; a CLOSE whose requests are answered ends the session, an earlier one
is remembered. IDLE_S without a datagram, and KILL by a core or an ADMIN session, end a session and no other; not before then,
and by no other agent. Entries due are sent as one NOTIFY, lost ones are counted with NOTIFY_LOSS; the oldest unacknowledged is
repeated after RETX_MS; a STATE record goes out each second. MP_ADMIN turns a management port on, or off while the other is UP.
(Rules R340 to R352. What the crypto finds is free: log entry 8.) -/
def Obligations.DatagramsOpenServeAndCloseSessions : Prop :=
  (∀ (r : Route) (d : List Byte) (s : State), s.mdpHears r = false →
      exec (.mdpIdentify r d) s = .next s ∧ exec (.mdpOpen r d) s = .next s ∧ exec (.mdpRequest r d) s = .next s ∧
      exec (.mdpAck r d) s = .next s ∧ exec (.mdpClose r d) s = .next s) ∧
  (∀ (r : Route) (d : List Byte) (s : State), s.mdpHears r = true →
      (headerOk d 9 1056 = true → ((d.drop 20).all fun b => b == 0) = true →
        ((s.inRate s.mdp.replies).2 = true → ∃ t, exec (.mdpIdentify r d) s = .next t ∧
          t.wire = .mdp r (mdpHeader 10 0 0 0 ++ Config.deviceCertificate) :: s.wire ∧ t.mdp.sessions = s.mdp.sessions) ∧
        ((s.inRate s.mdp.replies).2 = false → ∃ t, exec (.mdpIdentify r d) s = .next t ∧ t.wire = s.wire ∧ t.mdp = s.mdp)) ∧
      (headerOk d 9 1056 = false → ∃ t, exec (.mdpIdentify r d) s = .next t ∧ t.wire = s.wire ∧ t.mdp = s.mdp ∧
        (t.reg R.mdp_VIOLATIONS).toNat = min 0xFFFFFFFF ((s.reg R.mdp_VIOLATIONS).toNat + 1)) ∧
      (headerOk d 1 1036 = false → ∃ t, exec (.mdpOpen r d) s = .next t ∧ t.wire = s.wire ∧ t.mdp = s.mdp ∧
        (t.reg R.mdp_VIOLATIONS).toNat = min 0xFFFFFFFF ((s.reg R.mdp_VIOLATIONS).toNat + 1)) ∧
      (headerOk d 1 1036 = true →
        let fails (t : State) : Prop := (t.reg R.mdp_OPEN_FAILS).toNat = min 0xFFFFFFFF ((s.reg R.mdp_OPEN_FAILS).toNat + 1) ∧
          t.mdp.sessions = s.mdp.sessions
        ((s.inRate s.mdp.opens).2 = false → ∃ t, exec (.mdpOpen r d) s = .next t ∧ fails t ∧ t.wire = s.wire) ∧
        ((s.inRate s.mdp.opens).2 = true → s.maxSessions ≤ 8 → (∀ k, k < 8 → (s.session k).present = true) →
          ∃ t, exec (.mdpOpen r d) s = .next t ∧ fails t ∧ s.Logs t F.MDP_OPEN_FAIL) ∧
        ((s.inRate s.mdp.opens).2 = true → ∀ i : Nat, ((List.range 8).find? fun k => !(s.session k).present) = some i →
          ∃ t, exec (.mdpOpen r d) s = .next t ∧
            (match s.openCheck (openingOf d) with
             | .ok key => (t.session i).present = true ∧ (t.session i).key = key ∧ (t.session i).slot = be d 20 1 ∧ (t.session i).route = r ∧
                 (t.session i).rights = (if be d 20 1 = 0xFF then 0 else (s.slot (be d 20 1)).perms % 8) ∧
                 (∀ k, k ≠ i → t.session k = s.session k) ∧ s.Logs t F.MDP_SESSION_OPEN ∧
                 (t.reg R.mdp_OPENS).toNat = min 0xFFFFFFFF ((s.reg R.mdp_OPENS).toNat + 1)
             | .error _ => fails t ∧ s.Logs t F.MDP_OPEN_FAIL)))) ∧
  (∀ (r : Route) (d : List Byte) (c : Instr) (s : State), s.mdpHears r = true →
      (c = .mdpRequest r d ∧ headerOk d 3 20 = true) ∨ (c = .mdpAck r d ∧ headerOk d 6 16 = true) ∨ (c = .mdpClose r d ∧ headerOk d 7 16 = true) →
      let taken (t : State) (a : Nat) : Prop := (t.reg a).toNat = min 0xFFFFFFFF ((s.reg a).toNat + 1)
      (s.sessionOf (be d 4 4) = none → ∃ t, exec c s = .next t ∧ t.mdp = s.mdp ∧ taken t R.mdp_VIOLATIONS) ∧
      (∀ i, s.sessionOf (be d 4 4) = some i →
        let plain := gcmOpen (s.session i).key (mdpNonce false (be d 12 8)) (d.take 20) (d.drop 20)
        (plain = none → ∃ t, exec c s = .next t ∧ t.mdp = s.mdp ∧ taken t R.mdp_AUTH_FAIL) ∧
        (plain ≠ none → (s.session i).ctrNew (be d 12 8) = false → ∃ t, exec c s = .next t ∧ t.mdp = s.mdp ∧ taken t R.mdp_REPLAYS) ∧
        (plain ≠ none → (s.session i).ctrNew (be d 12 8) = true → ctrLimit < be d 12 8 → ∃ t, exec c s = .next t ∧ t.session i = {} ∧
          (∀ k, k ≠ i → t.session k = s.session k) ∧ s.Logs t F.MDP_SESSION_END))) ∧
  (∀ (r : Route) (d : List Byte) (i : Nat) (s : State), s.mdpHears r = true → s.sessionOf (be d 4 4) = some i →
      let x := s.session i
      let n := be d 8 4
      let plain := gcmOpen x.key (mdpNonce false (be d 12 8)) (d.take 20) (d.drop 20)
      let taken (t : State) (a : Nat) : Prop := (t.reg a).toNat = min 0xFFFFFFFF ((s.reg a).toNat + 1)
      let fresh := x.ctrNew (be d 12 8) = true ∧ be d 12 8 ≤ ctrLimit
      (headerOk d 3 20 = true → fresh → x.executed + s.mdpWindow < n → plain ≠ none → ∃ t, exec (.mdpRequest r d) s = .next t ∧
        (t.session i).executed = x.executed ∧ (t.session i).answers = x.answers ∧ taken t R.mdp_VIOLATIONS) ∧
      (headerOk d 3 20 = true → fresh → x.txCtr ≤ ctrLimit → ∀ a, n ≤ x.executed → (x.answers.find? fun a => a.seq == n) = some a →
        ∃ t, exec (.mdpRequest r d) s = .next t ∧
          (match plain with
           | none => t.mdp = s.mdp ∧ taken t R.mdp_AUTH_FAIL
           | some _ => (t.session i).executed = x.executed ∧ taken t R.mdp_RETX ∧ ∃ b, t.wire = .mdp r b :: s.wire)) ∧
      (headerOk d 3 20 = true → fresh → x.txCtr ≤ ctrLimit → 1 ≤ s.mdpWindow → n = x.executed + 1 → n < 0xFFFFFFFF → x.held = [] → x.closing = none →
        ∃ t, exec (.mdpRequest r d) s = .next t ∧
          (match plain with
           | none => t.mdp = s.mdp ∧ taken t R.mdp_AUTH_FAIL
           | some body => body = [0x50, 0, 0, 0] → (t.session i).executed = n ∧ (t.session i).rxHigh = max x.rxHigh (be d 12 8) ∧
               (t.session i).answers = ((⟨n, [0x50, 0, 0, 0] ++ beBytes 8 s.stamp.toNat⟩ : Answer) :: x.answers).take 64)) ∧
      (headerOk d 6 16 = true → fresh → ∃ t, exec (.mdpAck r d) s = .next t ∧
        (match plain with
         | none => t.mdp = s.mdp ∧ taken t R.mdp_AUTH_FAIL
         | some _ => (∀ k, k ≠ i → t.session k = s.session k) ∧
             (n < x.nextNotify → (t.session i).notifies = x.notifies.filter fun m => decide (n < m.seq)) ∧
             (x.nextNotify ≤ n → (t.session i).notifies = x.notifies ∧ taken t R.mdp_VIOLATIONS))) ∧
      (headerOk d 7 16 = true → fresh → ∃ t, exec (.mdpClose r d) s = .next t ∧
        (match plain with
         | none => t.mdp = s.mdp ∧ taken t R.mdp_AUTH_FAIL
         | some _ => (∀ k, k ≠ i → t.session k = s.session k) ∧
             (n ≤ x.executed → t.session i = {} ∧ s.Logs t F.MDP_SESSION_END) ∧
             (x.executed < n → (t.session i).present = true ∧ (t.session i).closing = some n)))) ∧
  (∀ (i : Fin 8) (s : State),
      ((s.session i.val).present = false ∨ s.due ((s.session i.val).lastAt + sec s.idleS) = false → exec (.sessionIdle i) s = .next s) ∧
      ((s.session i.val).sub = none ∨ 64 ≤ (s.session i.val).notifies.length →
        exec (.notifySend i) s = .next s ∧ exec (.stateNotify i) s = .next s) ∧
      ((s.session i.val).notifies = [] → exec (.notifyRetx i) s = .next s)) ∧
  (∀ (g : Agent) (s : State), s.running = false → exec (.sessionKill g) s = .next s) ∧
  (∀ (i : Fin 8) (s : State), s.running = true → (s.session i.val).present = true →
      (s.due ((s.session i.val).lastAt + sec s.idleS) = true →
        ∃ t, exec (.sessionIdle i) s = .next t ∧ t.session i.val = {} ∧ (∀ k, k ≠ i.val → t.session k = s.session k) ∧ s.Logs t F.MDP_SESSION_END) ∧
      (∀ g, (s.latch g R.sess_SESS_SEL).toNat % 8 = i.val →
        (g.isCore = true ∨ s.sessionRight g 2 = true →
          ∃ t, exec (.sessionKill g) s = .next t ∧ t.session i.val = {} ∧ (∀ k, k ≠ i.val → t.session k = s.session k) ∧
            s.Logs t F.MDP_SESSION_END) ∧
        (g.isCore = false → s.sessionRight g 2 = false → exec (.sessionKill g) s = .next s)) ∧
      (∀ b, (s.session i.val).sub = some b → (s.session i.val).notifies.length < 64 → (s.session i.val).txCtr ≤ ctrLimit →
        let x := s.session i.val
        let oldest := match s.ledger.store.getLast? with | some e => e.seq | none => s.ledger.nextSeq
        let y := takeEntries b.minSev (s.notifyRoom x.route) b.next s.ledger.store.reverse
        (newer32 oldest b.next = false → newer32 b.next s.ledger.nextSeq = false →
          (y.1 = [] → ∃ t, exec (.notifySend i) s = .next t ∧ t.session i.val = { x with sub := some { b with next := y.2 } } ∧ t = { s with mdp := t.mdp }) ∧
          (y.1 ≠ [] → ∃ t p, exec (.notifySend i) s = .next t ∧ (t.session i.val).sub = some { b with next := y.2 } ∧
            (t.session i.val).notifies = x.notifies ++ [⟨x.nextNotify, p, s.now⟩] ∧ (t.session i.val).nextNotify = x.nextNotify + 1)) ∧
        (newer32 oldest b.next = true → ∃ t, exec (.notifySend i) s = .next t ∧ s.Logs t F.NOTIFY_LOSS ∧
          (t.session i.val).notifies.length = x.notifies.length + 1 ∧
          (t.reg R.mdp_NOTIFY_LOST).toNat = min 0xFFFFFFFF ((s.reg R.mdp_NOTIFY_LOST).toNat + (oldest + 0x100000000 - b.next) % 0x100000000)) ∧
        (b.state = true → s.due (b.stateAt + sec 1) = true → ∃ t p, exec (.stateNotify i) s = .next t ∧
          (t.session i.val).sub = some { b with stateAt := s.now } ∧ (t.session i.val).nextNotify = x.nextNotify + 1 ∧
          (t.session i.val).notifies = x.notifies ++ [⟨x.nextNotify, p, s.now⟩])) ∧
      (∀ m l, (s.session i.val).notifies = m :: l → s.due (m.sentAt + ms s.retxMs) = true → (s.session i.val).txCtr ≤ ctrLimit →
        ∃ t, exec (.notifyRetx i) s = .next t ∧ (t.session i.val).notifies = { m with sentAt := s.now } :: l ∧
          (t.session i.val).txCtr = (s.session i.val).txCtr + 1 ∧ (∀ k, k ≠ i.val → t.session k = s.session k))) ∧
  (∀ (g : Agent) (b c : Bool) (s : State), s.running = false → exec (.mpAdmin g b c) s = .next s) ∧
  (∀ (g : Agent) (b : Bool) (s : State), s.running = true →
      let p := 32 + b2n b
      exec (.mpAdmin g b (s.port p).admin) s = .next s ∧
      ((s.port p).admin = true → (s.port (65 - p)).state = .up →
        ∃ t, exec (.mpAdmin g b false) s = .next t ∧ (t.port p).admin = false ∧ (t.port p).state = .disabled) ∧
      ((s.port (65 - p)).state ≠ .up → exec (.mpAdmin g b false) s = .next s) ∧
      ((s.port p).admin = false → ∃ t, exec (.mpAdmin g b true) s = .next t ∧ (t.port p).admin = true ∧ (t.port p).state ≠ .disabled ∧
        (∀ q, q ≠ p → t.port q = s.port q)))

/-- O55. A feed voltage above 80 V leaves the ratings (a fault). One within them gives the feed its class and changes no other feed;
a change to HIGH is logged as HULL_FEED_HIGH, to ABSENT or LOW of an expected feed as HULL_FEED_LOST, back to GOOD of a closed
stage as HULL_FEED_RESTORED; above 75 V, and after 100 ms of HIGH, the stage opens with HULL_FEED_OFF; after 1 s of GOOD an
opened one closes with HULL_FEED_RESTORED. The first rail starts when nothing keeps it; power-good counts a rail and starts the
next until ten; 5 ms without it reset the module, with a retry after 1 s until the third attempt latches OFF; a rail that runs
out of its band resets it. A reset leaves phase 1 with the rails removed, memory and configuration empty, and keeps the store,
the slots, the lineage and the waiting commands, counts itself and leaves D0 in reset. A sample, of any domains, changes the
temperatures and what it logs alone; one whose sensors agree makes TJ_MAX the higher one and moves WARN and CRIT over their
thresholds, with THERM_CRIT logged; a domain with no working sensor is critical. A trip removes the rails, and the fourth within
1 h, or one without AUTO_RESTART, latches OFF; cooled, the rails start again. Otherwise these rows change nothing. (Entries in
the ledger while D0 runs.) -/
def Obligations.HullFeedsRailsAndTemperature : Prop :=
  let wasReset (s t : State) (k : ResetKind) : Prop :=
    t.startup.phase = 1 ∧ t.startup.kind = k ∧ t.running = false ∧ t.hull.rails = 0 ∧ t.mem = [] ∧ t.config = [] ∧
    t.recorder.store = s.recorder.store ∧ t.mdp.slots = s.mdp.slots ∧ t.im.lineage = s.im.lineage ∧ t.pending = s.pending ∧
    t.startup.count = min 0xFFFFFFFF (s.startup.count + 1) ∧ t.clock = { now := s.now }
  let hullLogged (t : State) (c : FaultClass) : Prop := ∃ e, t.hull.log.getLast? = some e ∧ e.cls = c.code ∧ e.sev = c.sev
  let noted (s t : State) : Prop :=
    t = { s with regs := t.regs, setNow := t.setNow, cores := t.cores, ledger := t.ledger, hull := t.hull }
  (∀ (b : Bool) (mv : Nat) (s : State), 80000 < mv →
    exec (.feedClassChange b mv) s = .fault .outsideRatings ∧ exec (.feedOver b mv) s = .fault .outsideRatings) ∧
  (∀ (b : Bool) (mv : Nat) (s : State), mv ≤ 80000 →
    let old := s.feed b
    let c := feedClass mv
    (∃ t, exec (.feedClassChange b mv) s = .next t ∧ (t.feed b).cls = c ∧ (t.feed b).mv = mv ∧ t.feed (!b) = s.feed (!b) ∧ noted s t ∧
      (t.feed b).closed = (if c = .over ∧ old.cls ≠ .over then false else old.closed) ∧
      (c ≠ old.cls → s.running = true →
        (c = .high → s.Logs t F.HULL_FEED_HIGH) ∧
        (c = .good → old.cls = .absent ∨ old.cls = .low → old.closed = true → s.Logs t F.HULL_FEED_RESTORED) ∧
        ((c = .absent ∨ c = .low) → s.feedExpected b = true → s.Logs t F.HULL_FEED_LOST) ∧
        (c = .over → old.closed = true → s.Logs t F.HULL_FEED_OFF))) ∧
    (75000 < mv → old.closed = true →
      ∃ t, exec (.feedOver b mv) s = .next t ∧ (t.feed b).closed = false ∧ (t.feed b).cls = .over ∧ t.feed (!b) = s.feed (!b) ∧ noted s t ∧
        (s.running = true → s.Logs t F.HULL_FEED_OFF)) ∧
    (mv ≤ 75000 ∨ old.closed = false → exec (.feedOver b mv) s = .next s)) ∧
  (∀ (b : Bool) (s : State),
    let f := s.feed b
    (f.cls = .high → f.closed = true → f.since + 100000000 ≤ s.now →
      ∃ t, exec (.feedHighTimeout b) s = .next t ∧ t.feed b = { f with closed := false } ∧ t.feed (!b) = s.feed (!b) ∧ noted s t ∧
        (s.running = true → s.Logs t F.HULL_FEED_OFF)) ∧
    (f.cls ≠ .high ∨ f.closed = false ∨ s.now < f.since + 100000000 → exec (.feedHighTimeout b) s = .next s) ∧
    (f.cls = .good → f.closed = false → f.since + 1000000000 ≤ s.now →
      ∃ t, exec (.feedStageClose b) s = .next t ∧ t.feed b = { f with closed := true } ∧ t.feed (!b) = s.feed (!b) ∧ noted s t ∧
        (s.running = true → s.Logs t F.HULL_FEED_RESTORED)) ∧
    (f.cls ≠ .good ∨ f.closed = true ∨ s.now < f.since + 1000000000 → exec (.feedStageClose b) s = .next s)) ∧
  (∀ s : State,
    (s.mayStartRails = true → s.hull.retryAt = none →
      exec .railStart s = .next { s with hull := { s.hull with starting := some s.now } }) ∧
    (s.mayStartRails = false ∨ s.hull.retryAt.isSome = true → exec .railStart s = .next s) ∧
    (∀ x, s.hull.starting = some x →
      exec .railPowerGood s = .next { s with hull := { s.hull with rails := s.hull.rails + 1, starting := if s.hull.rails < 9 then some s.now else none, attempts := if s.hull.rails < 9 then s.hull.attempts else 0 } } ∧
      (x + 5000000 ≤ s.now → ∃ t, exec .railStartTimeout s = .next t ∧ wasReset s t .rail ∧ hullLogged t F.HULL_RAIL_FAIL ∧
        t.hull.attempts = s.hull.attempts + 1 ∧ t.hull.starting = none ∧
        (s.hull.attempts < 2 → t.hull.latchedOff = false ∧ t.hull.retryAt = some (s.now + 1000000000)) ∧
        (2 ≤ s.hull.attempts → t.hull.latchedOff = true ∧ t.hull.state = .off ∧ t.hull.retryAt = none)) ∧
      (s.now < x + 5000000 → exec .railStartTimeout s = .next s)) ∧
    (s.hull.starting = none → exec .railPowerGood s = .next s ∧ exec .railStartTimeout s = .next s) ∧
    (s.hull.retryAt = none → exec .railRetry s = .next s) ∧
    (∀ x, s.hull.retryAt = some x → s.now < x → exec .railRetry s = .next s) ∧
    (∀ x, s.hull.retryAt = some x → x ≤ s.now →
      ∃ t, exec .railRetry s = .next t ∧ t.hull.retryAt = none ∧ t = { s with hull := t.hull } ∧
        (s.mayStartRails = true → t.hull.starting = some s.now)) ∧
    (∀ (r : Fin 10) (mv : Nat),
      (r.val < s.hull.rails → inBand r.val mv = false →
        ∃ t, exec (.railFault r mv) s = .next t ∧ wasReset s t .rail ∧ hullLogged t F.HULL_RAIL_FAULT) ∧
      (s.hull.rails ≤ r.val ∨ inBand r.val mv = true → exec (.railFault r mv) s = .next s)) ∧
    (s.running = false → ∀ l, exec (.thermSample l) s = .next s) ∧
    (∀ l, ∃ t, exec (.thermSample l) s = .next t ∧ noted s t) ∧
    (s.running = true → ∀ r : DomainTemp,
      let top := max r.a r.b
      let warnAt := (s.warnC : Int) * 256
      (sensorInRange r.a = true → sensorInRange r.b = true → (r.a - r.b).natAbs ≤ 2560 →
        ∃ t, exec (.thermSample [r]) s = .next t ∧ t.hull.tjMax = top ∧ t.domTemp 0 = { r with aOk := true, bOk := true } ∧ noted s t ∧
          t.hull.warn = (if s.hull.warn then decide (warnAt - 1280 ≤ top) else decide (warnAt ≤ top)) ∧
          t.hull.crit = (if s.hull.crit then decide (105 * 256 ≤ top) else decide (110 * 256 ≤ top)) ∧
          (s.hull.crit = false → 110 * 256 ≤ top → s.Logs t F.THERM_CRIT)) ∧
      (sensorInRange r.a = false → sensorInRange r.b = false →
        ∃ t, exec (.thermSample [r]) s = .next t ∧ t.hull.crit = true ∧ (s.hull.crit = false → s.Logs t F.THERM_CRIT) ∧ noted s t)) ∧
    (s.hull.rails ≠ 0 → ∃ t, exec .thermTrip s = .next t ∧ wasReset s t .trip ∧ hullLogged t F.THERM_TRIP ∧ t.hull.tripped = true ∧
      t.hull.latchedOff = (s.hull.latchedOff || decide (4 ≤ (s.now :: s.hull.trips.filter fun x => decide (s.now < x + 3600000000000)).length) || !bit s.powerFlags 1)) ∧
    (s.hull.rails = 0 → exec .thermTrip s = .next s) ∧
    (s.hull.tripped = true → ∃ t, exec .tripCooled s = .next t ∧ t.hull.tripped = false ∧ t = { s with hull := t.hull } ∧
      (({ s with hull := { s.hull with tripped := false } } : State).mayStartRails = true → t.hull.starting = some s.now)) ∧
    (s.hull.tripped = false → exec .tripCooled s = .next s))

/-- O56. Below 38.0 V the warning begins: every output is held, HULL_SAG is logged and the recorder closes its classes; its release
resumes the recorder, and SAG_HOLD_MS later the hold ends. VBUS below 34.0 V, and, where that has not, the loss of the hull
controller's supply below 18 V, reset the module and keep what is stored; the release, and HULL_POWER_UP with its log kept, let
it start again. A lost hull link makes the telemetry stale, its return and ALIVE end that; a refresh takes the telemetry. A
request of the present state, during the warning, or of KEEP or OFF without CONFIRM, logs POWER_REFUSED alone; while OFF is
carried out no other request changes anything. Else RUN and TRIM set the state, KEEP and OFF set it and hold every output. 16
frame periods after the request KEEP gates every tile but the recorder's, and OFF removes the rails with the wake timer set,
which is no counted reset; when it ends the rails start with a counted reset of kind WAKE. Otherwise these rows change nothing. -/
def Obligations.SupplyWarningAndPowerStates : Prop :=
  let cleared (s t : State) (k : ResetKind) : Prop :=
    t.startup.phase = 1 ∧ t.startup.kind = k ∧ t.running = false ∧ t.hull.rails = 0 ∧ t.mem = [] ∧ t.config = [] ∧
    t.recorder.store = s.recorder.store ∧ t.mdp.slots = s.mdp.slots ∧ t.im.lineage = s.im.lineage ∧ t.pending = s.pending ∧ t.clock = { now := s.now }
  let wasReset (s t : State) (k : ResetKind) : Prop := cleared s t k ∧ t.startup.count = min 0xFFFFFFFF (s.startup.count + 1)
  ∀ (g : Agent) (s : State),
    (∀ v, s.hull.sag = false → v < 38000 →
      (s.running = true → ∃ t, exec (.hullSag v) s = .next t ∧
        t.hull = { s.hull with sag := true, sagAt := s.now, vbus := v, sagHeld := true, sagReleased := none } ∧ (∀ o, t.heldDown o = true) ∧
        s.Logs t F.HULL_SAG ∧ t.recorder.closedAll = true ∧ t.recorder.warnAt = some s.now) ∧
      (s.running = false → exec (.hullSag v) s = .next { s with hull := { s.hull with sag := true, sagAt := s.now, vbus := v } })) ∧
    (∀ v, s.hull.sag = true ∨ 38000 ≤ v → exec (.hullSag v) s = .next s) ∧
    (s.hull.sag = true → s.running = true → ∃ t, exec .sagRelease s = .next t ∧ t.hull = { s.hull with sag := false, sagReleased := some s.now } ∧
      s.Logs t F.HULL_SAG_CLEAR ∧ t.recorder.closedAll = false ∧ t.recorder.warnAt = none ∧ t.chans = s.chans) ∧
    (s.hull.sag = true → s.running = false →
      exec .sagRelease s = .next { s with hull := { s.hull with sag := false, sagReleased := some s.now } }) ∧
    (s.hull.sag = false → exec .sagRelease s = .next s) ∧
    (s.hull.sagReleased = none ∨ s.hull.sag = true ∨ s.hull.sagHeld = false → exec .sagHoldExpire s = .next s) ∧
    (∀ x, s.hull.sagReleased = some x → s.hull.sag = false → s.hull.sagHeld = true →
      (x + s.sagHoldMs * 1000000 ≤ s.now → ∃ t, exec .sagHoldExpire s = .next t ∧ t.hull = { s.hull with sagHeld := false, sagReleased := none } ∧
        (∀ o c, c ∈ t.standing o → c.cls = F.HULL_SAG.code → c.cleared.isSome = true) ∧ t.recorder = s.recorder ∧ t.regs = s.regs) ∧
      (s.now < x + s.sagHoldMs * 1000000 → exec .sagHoldExpire s = .next s)) ∧
    (s.hull.running = true → s.hull.resetOn = false → ∃ t e, exec .vbusReset s = .next t ∧ wasReset s t .vbus ∧ t.hull.resetOn = true ∧
      t.hull.log.getLast? = some e ∧ e.cls = F.HULL_RESET_PRIOR.code ∧ e.micros = (s.now - s.hull.sagAt) / 1000) ∧
    (s.hull.running = false ∨ s.hull.resetOn = true → exec .vbusReset s = .next s) ∧
    exec .vbusResetRelease s = .next { s with hull := { s.hull with resetOn := false } } ∧
    (s.hull.running = true → s.hull.resetOn = false → ∃ t, exec .vbusBelow18v s = .next t ∧ wasReset s t .vbus ∧ t.hull.running = false ∧
      t.hull.log = s.hull.log) ∧
    (s.hull.running = true → s.hull.resetOn = true →
      exec .vbusBelow18v s = .next { s with hull := { s.hull with running := false, alive := false } }) ∧
    (s.hull.running = false → exec .vbusBelow18v s = .next s ∧ ∃ t, exec .hullPowerUp s = .next t ∧ wasReset s t .power ∧
      t.hull.running = true ∧ t.hull.log = s.hull.log ∧ t.hull.latchedOff = false ∧ t.hull.upSince = s.now) ∧
    (s.hull.running = true → exec .hullPowerUp s = .next s) ∧
    (s.running = true → s.hull.linkOk = true → ∃ t, exec .hullLinkLost s = .next t ∧
      t.hull = { s.hull with linkOk := false, stale := true, linkLostAt := s.now } ∧ s.Logs t F.HULL_LINK_LOST ∧ t.chans = s.chans) ∧
    (s.running = false ∨ s.hull.linkOk = false → exec .hullLinkLost s = .next s) ∧
    (s.running = false ∨ s.hull.linkOk = true → exec .hullLinkRestored s = .next s) ∧
    (s.hull.running = false → exec .hullAlive s = .next s) ∧
    (s.running = true → s.hull.linkOk = false → ∃ t, exec .hullLinkRestored s = .next t ∧
      t.hull = { s.hull with linkOk := true, stale := s.im.fwHull.swapping } ∧ s.Logs t F.HULL_LINK_RESTORED ∧ t.chans = s.chans) ∧
    (s.hull.running = true → ∃ t, exec .hullAlive s = .next t ∧ t.hull.alive = true ∧ (s.hull.linkOk = true → t.hull.stale = false) ∧
      t.im.fwHull.aliveBy = none ∧ t.im.fwHull.swapping = false ∧ t = { s with im := t.im, hull := t.hull }) ∧
    (∀ x : Telemetry, (s.running = true → s.hull.linkOk = true → s.hull.stale = false →
        ∃ t, exec (.telemetryRefresh x) s = .next t ∧ t.hull.vbus = x.vbus ∧ t.hull.power = x.power ∧ t.hull.energy = x.energy ∧
          t.hull.tempHull = x.tempHull ∧ t.hull.tempNand = x.tempNand ∧ 
          t.hull.feedA = { s.hull.feedA with shown := x.feedAMv, ma := x.feedAMa } ∧
          t.hull.feedB = { s.hull.feedB with shown := x.feedBMv, ma := x.feedBMa } ∧ t = { s with hull := t.hull }) ∧
      (s.running = false ∨ s.hull.linkOk = false ∨ s.hull.stale = true → exec (.telemetryRefresh x) s = .next s)) ∧
    (s.running = false → ∀ c w, exec (.powerReqRun g) s = .next s ∧ exec (.powerReqTrim g) s = .next s ∧
      exec (.powerReqKeep g c) s = .next s ∧ exec (.powerReqOff g c w) s = .next s) ∧
    (s.running = true →
      let refused (t : State) : Prop := s.LogsOne t F.POWER_REFUSED ∧ t = { s with ledger := t.ledger }
      (s.hull.sag = false → s.hull.state = .off → exec (.powerReqRun g) s = .next s ∧ exec (.powerReqTrim g) s = .next s ∧
        (∀ c, confirmed c = true → exec (.powerReqKeep g c) s = .next s)) ∧
      (s.hull.sag = true ∨ s.hull.state = .run → ∃ t, exec (.powerReqRun g) s = .next t ∧ refused t) ∧
      (s.hull.sag = false → s.hull.state = .trim ∨ s.hull.state = .keep → ∃ t, exec (.powerReqRun g) s = .next t ∧ t.hull.state = .run ∧ t.mem = s.mem ∧ t.config = s.config ∧
        (s.hull.state ≠ .trim → t.hull.keepAt = none ∧ t.hull.offDue = false)) ∧
      (s.hull.sag = true ∨ s.hull.state = .trim → ∃ t, exec (.powerReqTrim g) s = .next t ∧ refused t) ∧
      (s.hull.sag = false → s.hull.state = .run ∨ s.hull.state = .keep → ∃ t, exec (.powerReqTrim g) s = .next t ∧ t.hull.state = .trim ∧ t.mem = s.mem ∧ t.config = s.config ∧
        (s.hull.state ≠ .run → t.hull.keepAt = none ∧ t.hull.offDue = false)) ∧
      (∀ c, confirmed c = false ∨ s.hull.sag = true ∨ s.hull.state = .keep →
        ∃ t, exec (.powerReqKeep g c) s = .next t ∧ refused t) ∧
      (∀ c, confirmed c = true → s.hull.sag = false → s.hull.state = .run ∨ s.hull.state = .trim →
        ∃ t, exec (.powerReqKeep g c) s = .next t ∧ t.hull = { s.hull with state := .keep, keepAt := some (s.hull.keepAt.getD s.now) } ∧
          (∀ o, t.heldDown o = true) ∧ t.mem = s.mem ∧ t.config = s.config) ∧
      (∀ c w, confirmed c = false ∨ s.hull.sag = true ∨ s.hull.state = .off → ∃ t, exec (.powerReqOff g c w) s = .next t ∧ refused t) ∧
      (∀ c w, confirmed c = true → s.hull.sag = false → s.hull.state ≠ .off →
        ∃ t, exec (.powerReqOff g c w) s = .next t ∧ (∀ o, t.heldDown o = true) ∧ t.mem = s.mem ∧ t.config = s.config ∧
          t.hull = { s.hull with state := .off, offDue := true, wakeS := w % 16384, keepAt := some (s.hull.keepAt.getD s.now) })) ∧
    (s.running = false → exec .keepGate s = .next s) ∧
    (∀ x, s.hull.keepAt = some x → s.running = true →
      (s.now < x + 16 * s.slowestPeriod → exec .keepGate s = .next s) ∧
      (x + 16 * s.slowestPeriod ≤ s.now →
        (s.hull.offDue = true → ∃ t, exec .keepGate s = .next t ∧ cleared s t .power ∧ t.startup.count = s.startup.count ∧ t.hull.state = .off ∧
          t.hull.wakeAt = (if s.hull.wakeS = 0 then none else some (s.now + s.hull.wakeS * 1000000000))) ∧
        (s.hull.offDue = false → ∃ t, exec .keepGate s = .next t ∧ t.hull = s.hull ∧ t.recorder.store = s.recorder.store ∧
          (∀ d n, (d, n) ∈ allTiles → (d, n) ≠ (7, 1) → (t.tile (tileNo d n)).state = .gated) ∧
          t.tile (tileNo 7 1) = s.tile (tileNo 7 1)))) ∧
    (s.hull.keepAt = none → exec .keepGate s = .next s) ∧
    (∀ x, s.hull.wakeAt = some x → s.hull.state = .off → s.hull.latchedOff = false →
      (x ≤ s.now → ∃ t, exec .wakeTimer s = .next t ∧ t.hull.state = .run ∧ t.hull.wakeAt = none ∧ 
        t.startup = { s.startup with kind := .wake, count := min 0xFFFFFFFF (s.startup.count + 1) } ∧
        t = { s with hull := t.hull, startup := t.startup } ∧
        (s.hull.running = true → s.hull.tripped = false → s.hull.resetOn = false → s.startup.pinHeld = false → s.hull.rails = 0 →
          s.hull.starting = none → t.hull.starting = some s.now)) ∧
      (s.now < x → exec .wakeTimer s = .next s)) ∧
    (s.hull.wakeAt = none ∨ s.hull.state ≠ .off ∨ s.hull.latchedOff = true → exec .wakeTimer s = .next s)

/-- O57. The intake takes the oldest entry of the unit at a control address, late when its window has passed, and an entry that
raises device-safe enters it; a full intake loses the entry, counts it in LOST, and at the first loss LEDGER_OVERFLOW is placed
and device-safe entered. Of the entries whose merge window has passed the next is delivered with its continuations: numbered,
stored as the newest of at most 4,096, counted as not copied; an S3 entry that names outputs has its cause on each, with one
output a new cause or the renewal of the one that stands; a response joins the queue; without room for them the entry is lost.
The copy to the mirror queue takes the oldest entry not copied, a full queue giving up its oldest. A response starts when none
runs; a running one gives way to a higher severity and is counted, else it ends. QUIET_EXPIRE releases the AUTO causes of an
output that have stayed cleared, counted in RELEASES with OUTPUT_RELEASED logged. A write of REL_CTRL without the WRITE right,
of no output, or that releases nothing is counted in REL_IGNORED; with the right, a cause of the output that has not cleared is
logged and nothing is released, else the cleared HOST causes of the output are. With ALL those of every output are, and a cause
that has not cleared is logged. A cause raised by the policy clears after its quiet time. (Entries are noted while D0 runs.) -/
def Obligations.TheLedgerTakesAndDeliversEntries : Prop :=
  (∀ (a : Nat) (s : State),
    (takeFirst (fun e => e.ctrl == a) s.ledger.outbox = none → exec (.ledgerIntake a) s = .next s) ∧
    (∀ e rest, takeFirst (fun e => e.ctrl == a) s.ledger.outbox = some (e, rest) →
      let lost (t : State) : Prop := (t.reg R.led_LOST).toNat = min 0xFFFFFFFF ((s.reg R.led_LOST).toNat + 1) ∧ t.ledger.store = s.ledger.store
      (s.ledger.intake.length < 1024 →
        (raisesSafe e = false → exec (.ledgerIntake a) s = .next { s with ledger := { s.ledger with
          outbox := rest, intake := s.ledger.intake ++ [{ e with late := s.windowPassed e && e.provisional == !s.clock.seeded }] } }) ∧
        (raisesSafe e = true → ∃ t, exec (.ledgerIntake a) s = .next t ∧ t.ledger.safe = true ∧
          (s.ledger.safe = false → t.ledger.safeFirst = e.cls ∧ t.ledger.safeStamp = s.stamp) ∧
          (∃ x ∈ t.ledger.safeCauses, x.cls = e.cls ∧ x.cleared = s.safeGone e.cls) ∧ (∀ o, t.heldDown o = true))) ∧
      (1024 ≤ s.ledger.intake.length →
        (s.ledger.overflow = true → ∃ t l, exec (.ledgerIntake a) s = .next t ∧ lost t ∧ t.ledger.intake = s.ledger.intake ∧
          t.ledger.outbox = rest ++ l ∧ t.hull = s.hull ∧ t.chans = s.chans) ∧
        (s.ledger.overflow = false → ∃ t x, exec (.ledgerIntake a) s = .next t ∧ lost t ∧ t.ledger.overflow = true ∧ t.ledger.safe = true ∧
          t.ledger.intake = s.ledger.intake ++ [x] ∧ x.cls = F.LEDGER_OVERFLOW.code ∧ x.stamp = e.stamp)))) ∧
  (∀ s : State,
    let next := nextEntry (s.ledger.intake.filter s.windowPassed)
    (next = none → exec .ledgerDeliver s = .next s) ∧
    (∀ e r, next = some e → takeFirst (fun x => decide (x = e)) s.ledger.intake = some (e, r) →
      let out := s.delivered e
      (e.data.length ≤ 6 → e.late = false → out = [{ e with action := s.actionOf e, more := false }]) ∧
      (4096 < s.ledger.uncopied + out.length → e.cls ≠ F.LEDGER_OVERFLOW.code →
        ∃ t, exec .ledgerDeliver s = .next t ∧ t.ledger.store = s.ledger.store ∧ t.ledger.nextSeq = s.ledger.nextSeq ∧ t.ledger.overflow = true ∧
          (t.reg R.led_LOST).toNat = min 0xFFFFFFFF ((s.reg R.led_LOST).toNat + 1)) ∧
      (s.ledger.uncopied + out.length ≤ 4096 ∨ e.cls = F.LEDGER_OVERFLOW.code →
        ∃ t, exec .ledgerDeliver s = .next t ∧
          t.ledger.store = ((out.zipIdx.map fun (x : Entry × Nat) => { x.1 with seq := (s.ledger.nextSeq + x.2) % 0x100000000 }).reverse ++ s.ledger.store).take 4096 ∧
          t.ledger.nextSeq = (s.ledger.nextSeq + out.length) % 0x100000000 ∧ t.ledger.uncopied = s.ledger.uncopied + out.length ∧
          (e.response = false ∨ e.sev < 2 ∨ s.ledger.responses.length < 256 → t.ledger.intake = r ∧ t.ledger.responses =
            (if 2 ≤ e.sev ∧ e.response = true then s.ledger.responses ++ [⟨e.cls, e.sev, e.seq⟩] else s.ledger.responses)) ∧
          (e.sev ≠ 3 ∨ e.dataOnly = true → t.ledger.causes = s.ledger.causes) ∧
          (e.sev = 3 → e.dataOnly = false →
            (∀ x ∈ e.outs, (∃ c ∈ t.standing x.1, c.cls = e.cls) ∧ t.heldDown x.1 = true) ∧
            (∀ o q, e.outs = [(o, q)] →
              ((∃ z ∈ s.standing o, z.cls = e.cls) → t.ledger.causes.length = s.ledger.causes.length) ∧
              ((∀ z ∈ s.standing o, z.cls ≠ e.cls) →
                ∃ c, t.ledger.causes = s.ledger.causes ++ [(o, c)] ∧ c.cls = e.cls ∧ c.sev = 3 ∧ c.reason = reasonOfClass o e.cls q ∧
                  c.host = s.hostCause o e.cls ∧ c.cleared = (if s.conditionStands o e.cls then none else some s.now)))))) ∧
    (s.ledger.uncopied = 0 ∨ s.systemWritable = false → exec .mirrorCopy s = .next s) ∧
    (∀ e, s.ledger.uncopied ≠ 0 → s.systemWritable = true → s.ledger.store[s.ledger.uncopied - 1]? = some e →
      let full : Bool := decide (1048576 ≤ s.ledger.mirror.length)
      ∃ t, exec .mirrorCopy s = .next t ∧ t.ledger.uncopied = s.ledger.uncopied - 1 ∧ t.ledger.store = s.ledger.store ∧
        t.ledger.mirror = (if full then s.ledger.mirror.drop 1 else s.ledger.mirror) ++ [e] ∧
        (t.reg R.led_MIRROR_LOST).toNat = min 0xFFFFFFFF ((s.reg R.led_MIRROR_LOST).toNat + b2n full) ∧
        (s.ledger.overflow = true → s.ledger.intake.length < 512 → s.ledger.uncopied - 1 < 2048 →
          t.ledger.overflow = false ∧ (s.running = true → s.LogsOne t F.LEDGER_RECOVERED)) ∧
        t = { s with regs := t.regs, ledger := t.ledger }) ∧
    (s.nextResponse = none → s.ledger.running = none → exec .responseRun s = .next s) ∧
    (∀ q, s.nextResponse = some q →
      (s.ledger.running = none → exec .responseRun s = .next { s with ledger := { s.ledger with running := some q, responses := s.ledger.responses.erase q } }) ∧
      (∀ r, s.ledger.running = some r → r.sev < q.sev → ∃ t, exec .responseRun s = .next t ∧
        t.ledger = { s.ledger with running := some q, responses := r :: s.ledger.responses.erase q } ∧
        (t.reg R.led_PREEMPTS).toNat = min 0xFFFFFFFF ((s.reg R.led_PREEMPTS).toNat + 1) ∧ t = { s with regs := t.regs, ledger := t.ledger })) ∧
    (∀ r, s.ledger.running = some r → (∀ q, s.nextResponse = some q → q.sev ≤ r.sev) →
      ∃ t, exec .responseRun s = .next t ∧ t.ledger.running = none ∧ t.hull = s.hull ∧ t.mem = s.mem ∧
        ((∀ x ∈ s.ledger.causes, x.2.cls ≠ r.cls) → t = { s with ledger := { s.ledger with running := none } }))) ∧
  (∀ (o : Output) (s : State),
    let due := (s.standing o).filter s.quietOver
    (due = [] → exec (.quietExpire o) s = .next s) ∧
    (due ≠ [] → ∃ t, exec (.quietExpire o) s = .next t ∧
      t.standing o = ((s.standing o).filter fun c => !(due.any fun d => d.cls == c.cls)) ∧
      (∀ p, p ≠ o → t.standing p = s.standing p) ∧ (s.running = true → s.Logs t F.OUTPUT_RELEASED) ∧
      (t.reg R.led_RELEASES).toNat = min 0xFFFFFFFF ((s.reg R.led_RELEASES).toNat + due.length) ∧ t.recorder = s.recorder ∧ t.hull = s.hull) ∧
    (∀ k,
      ((s.standing o).find? (fun c => c.cls == k && c.policy && c.cleared.isNone) = none → exec (.raisedCauseClear o k) s = .next s) ∧
      (∀ c, (s.standing o).find? (fun c => c.cls == k && c.policy && c.cleared.isNone) = some c →
        (c.lastAt + max (s.quietMs * 1000000) 1000000000 ≤ s.now → ∃ t, exec (.raisedCauseClear o k) s = .next t ∧
          (∀ x ∈ t.standing o, x.cls = k → x.cleared.isSome = true) ∧ (∀ p, p ≠ o → t.standing p = s.standing p) ∧
          t = { s with ledger := { s.ledger with causes := t.ledger.causes } }) ∧
        (s.now < c.lastAt + max (s.quietMs * 1000000) 1000000000 → exec (.raisedCauseClear o k) s = .next s)))) ∧
  (∀ (g : Agent) (k : Fin 4) (n : Fin 64) (s : State), s.running = false →
    exec (.relCtrlOne g k n) s = .next s ∧ exec (.relCtrlAll g) s = .next s) ∧
  (∀ (g : Agent) (s : State), s.running = true →
    let ignored (t : State) : Prop := (t.reg R.led_REL_IGNORED).toNat = min 0xFFFFFFFF ((s.reg R.led_REL_IGNORED).toNat + 1)
    (s.sessionRight g 1 = false →
      (∃ t, exec (.relCtrlAll g) s = .next t ∧ ignored t ∧ t = { s with regs := t.regs }) ∧
      ∀ k n, ∃ t, exec (.relCtrlOne g k n) s = .next t ∧ ignored t ∧ t = { s with regs := t.regs }) ∧
    (s.sessionRight g 1 = true →
      (∀ k n, outputOf k.val n.val = none → ∃ t, exec (.relCtrlOne g k n) s = .next t ∧ ignored t ∧ t = { s with regs := t.regs }) ∧
      (∀ k n o, outputOf k.val n.val = some o →
        (∀ c, (s.standing o).find? (fun c => c.cleared.isNone) = some c →
          ∃ t, exec (.relCtrlOne g k n) s = .next t ∧ ignored t ∧ s.LogsOne t F.RELEASE_IGNORED ∧ t.ledger.causes = s.ledger.causes ∧
            t = { s with regs := t.regs, ledger := t.ledger }) ∧
        ((∀ c ∈ s.standing o, c.cleared.isSome = true) →
          let due := (s.standing o).filter fun c => c.host
          (due = [] → ∃ t, exec (.relCtrlOne g k n) s = .next t ∧ ignored t ∧ t = { s with regs := t.regs }) ∧
          (due ≠ [] → ∃ t, exec (.relCtrlOne g k n) s = .next t ∧
            t.standing o = ((s.standing o).filter fun c => !(due.any fun d => d.cls == c.cls)) ∧
            (∀ p, p ≠ o → t.standing p = s.standing p) ∧ s.Logs t F.OUTPUT_RELEASED ∧ t.recorder = s.recorder))) ∧
      (let due := s.ledger.causes.filter fun e => e.2.host && e.2.cleared.isSome
       ∃ t, exec (.relCtrlAll g) s = .next t ∧
         t.ledger.causes = (s.ledger.causes.filter fun e => !(due.any fun f => f.1 == e.1 && f.2.cls == e.2.cls)) ∧
         (due = [] → ignored t) ∧
         (due ≠ [] → s.Logs t F.OUTPUT_RELEASED) ∧
         ((∃ e ∈ s.ledger.causes, e.2.cleared = none) → s.Logs t F.RELEASE_IGNORED) ∧ t.recorder = s.recorder)))

/-- O58. A change of SAFE_n is taken with its time, a low shorter than 1 us is counted as a glitch and filtered. 1 us of low, and a
write of SAFE_ENTER by a session with the WRITE right, join device-safe with their cause when it stands already; else they enter
it: it names the first cause, every output is held, and SAFE_ENTERED is logged. 10 ms of high, and 60 s without a restart of the
safety pair, clear their cause and no other. A write of SAFE_ENTER or SAFE_RELEASE without the right is counted and does nothing
else; while a cause has not cleared it logs SAFE_RELEASE_IGNORED and device-safe stands; else device-safe and its causes end and
SAFE_RELEASED is logged. Otherwise, and while D0 is in reset, these writes change nothing. -/
def Obligations.DeviceSafeIsEnteredAndReleased : Prop :=
  (∀ (b : Bool) (s : State),
    (s.ledger.pinHigh = b → exec (.safeNTransition b) s = .next s) ∧
    (s.ledger.pinHigh ≠ b → ∃ t, exec (.safeNTransition b) s = .next t ∧
      t.ledger = { s.ledger with pinHigh := b, pinSince := s.now, pinFiltered := s.ledger.pinFiltered || b } ∧
      t = { s with regs := t.regs, ledger := t.ledger } ∧
      (t.reg R.safe_SAFE_GLITCHES).toNat = (if b = true ∧ s.now < s.ledger.pinSince + 1000 then
        min 0xFFFFFFFF ((s.reg R.safe_SAFE_GLITCHES).toNat + 1) else (s.reg R.safe_SAFE_GLITCHES).toNat))) ∧
  (∀ s : State,
    let enters (c : FaultClass) (t : State) : Prop :=
      (s.ledger.safe = true → t.ledger.safe = true ∧ t.ledger.safeFirst = s.ledger.safeFirst ∧ t.ledger.safeStamp = s.ledger.safeStamp ∧ s.Logs t c ∧
        ∃ x ∈ t.ledger.safeCauses, x.cls = c.code) ∧
      (s.ledger.safe = false →
        t.ledger.safe = true ∧ t.ledger.safeFirst = c.code ∧ t.ledger.safeStamp = s.stamp ∧ t.ledger.safeSince = s.now ∧
        s.Logs t F.SAFE_ENTERED ∧ s.Logs t c ∧ (∀ o, t.heldDown o = true) ∧
        ∃ x ∈ t.ledger.safeCauses, x.cls = c.code)
    let only (c : FaultClass) (t : State) : Prop :=
      (∀ x ∈ t.ledger.safeCauses, x.cls = c.code → x.cleared = true) ∧
      (∀ x, x.cls ≠ c.code → (x ∈ t.ledger.safeCauses ↔ x ∈ s.ledger.safeCauses)) ∧ t = { s with ledger := { s.ledger with safeCauses := t.ledger.safeCauses } }
    (s.running = true → s.ledger.pinHigh = false → s.ledger.pinFiltered = true → s.ledger.pinSince + 1000 ≤ s.now →
      ∃ t, exec .safePinQualify s = .next t ∧ enters F.SAFE_PIN t ∧ t.hull = s.hull ∧
        (s.ledger.safe = true → t.ledger.pinFiltered = false ∧ t.chans = s.chans)) ∧
    (s.running = false ∨ s.ledger.pinHigh = true ∨ s.ledger.pinFiltered = false ∨ s.now < s.ledger.pinSince + 1000 → exec .safePinQualify s = .next s) ∧
    (s.ledger.pinHigh = true → s.ledger.pinSince + 10000000 ≤ s.now → ∃ t, exec .safePinClear s = .next t ∧ only F.SAFE_PIN t) ∧
    (s.ledger.pinHigh = false ∨ s.now < s.ledger.pinSince + 10000000 → exec .safePinClear s = .next s) ∧
    ((∀ x ∈ s.cores.spRestarts, x + 60000000000 ≤ s.now) → ∃ t, exec .spRestartsClear s = .next t ∧ only F.SP_RESTARTS t) ∧
    (∀ x ∈ s.cores.spRestarts, s.now < x + 60000000000 → exec .spRestartsClear s = .next s) ∧
    (s.running = false → ∀ g : Agent, exec (.safeEnter g) s = .next s ∧ exec (.safeRelease g) s = .next s) ∧
    (s.running = true → ∀ g : Agent,
      let ignored (t : State) : Prop := (t.reg R.led_REL_IGNORED).toNat = min 0xFFFFFFFF ((s.reg R.led_REL_IGNORED).toNat + 1) ∧ t = { s with regs := t.regs }
      (s.sessionRight g 1 = false →
        (∃ t, exec (.safeEnter g) s = .next t ∧ ignored t) ∧ (∃ t, exec (.safeRelease g) s = .next t ∧ ignored t)) ∧
      (s.sessionRight g 1 = true →
        (∃ t, exec (.safeEnter g) s = .next t ∧ enters F.SAFE_HOST t ∧ t.hull = s.hull ∧ (s.ledger.safe = true → t.chans = s.chans)) ∧
        (s.ledger.safe = false → exec (.safeRelease g) s = .next s) ∧
        (s.ledger.safe = true →
          ((∃ x ∈ s.ledger.safeCauses, x.cleared = false) → ∃ t, exec (.safeRelease g) s = .next t ∧ t.ledger.safe = true ∧
            t.ledger.safeCauses = s.ledger.safeCauses ∧ s.LogsOne t F.SAFE_RELEASE_IGNORED ∧ t = { s with ledger := t.ledger }) ∧
          ((∀ x ∈ s.ledger.safeCauses, x.cleared = true) → ∃ t, exec (.safeRelease g) s = .next t ∧ t.ledger.safe = false ∧ t.ledger.safeCauses = [] ∧
            s.Logs t F.SAFE_RELEASED ∧ t.ledger.causes = s.ledger.causes ∧ t.recorder = s.recorder ∧ t.hull = s.hull)))))

/-- O59. A change of RST_n is taken with its time; a low that ends before 10 us is a glitch, counted while D0 runs. 10 us of low are
a PIN reset: phase 1 with the rails removed and held off, memory and configuration empty, a latched OFF ended, and what is
stored, the slots and the lineage kept; 10 ms of high let the rails start. A confirmed HOST_RESET of a session is remembered,
holds every output, logs RST_HOST and leaves device-safe as it was; an unconfirmed one, one of a core, or one while another runs
does nothing. 2 ms later D0 to D7 are reset, the rails stay up and phase 2 begins. With every rail good and nothing holding it,
D0 leaves reset: phase 2, the raster counts, the hull log is empty, the recorder's tile is in service, the sixteen channels
train, and START_RESET is logged. -/
def Obligations.ResetsByThePinAndByHostSoftware : Prop :=
  let cleared (s t : State) (k : ResetKind) : Prop :=
    t.startup.kind = k ∧ t.config = [] ∧ t.mdp.slots = s.mdp.slots ∧ t.im.lineage = s.im.lineage ∧ t.pending = s.pending ∧
    t.startup.count = min 0xFFFFFFFF (s.startup.count + 1) ∧ t.clock.now = s.clock.now ∧ t.clock.seeded = false
  let released (s t : State) : Prop :=
    t.startup.phase = 2 ∧ t.startup.phaseAt = s.now ∧ t.running = true ∧ t.clock.phase2 = some s.now ∧ t.hull.log = [] ∧ t.hull.linkOk = true ∧
    (t.tile (tileNo 7 1)).state = .inService ∧ t.memory.state = 1 ∧ ∀ m, m < 16 → (t.mchan m).state = .training
  (∀ (b : Bool) (s : State),
    let x := s.startup
    (b = x.pinHigh → exec (.rstNTransition b) s = .next s) ∧
    (b ≠ x.pinHigh →
      let glitch := b = true ∧ x.pinHeld = false ∧ s.now < x.pinSince + 10000 ∧ s.running = true
      ∃ t, exec (.rstNTransition b) s = .next t ∧ t.startup = { x with pinHigh := b, pinSince := s.now } ∧
        t = { s with regs := t.regs, ledger := t.ledger, startup := t.startup } ∧
        (glitch → (t.reg R.rst_RST_GLITCHES).toNat = min 0xFFFFFFFF ((s.reg R.rst_RST_GLITCHES).toNat + 1)) ∧
        (¬ glitch → t.regs = s.regs ∧ t.ledger = s.ledger))) ∧
  (∀ s : State,
    let x := s.startup
    (s.hull.running = true → x.pinHigh = false → x.pinHeld = false → x.pinSince + 10000 ≤ s.now →
      ∃ t, exec .rstPinQualify s = .next t ∧ cleared s t .pin ∧ t.startup.phase = 1 ∧ t.startup.pinHeld = true ∧ t.hull.rails = 0 ∧
        t.hull.latchedOff = false ∧ t.hull.state = .run ∧ t.hull.attempts = 0 ∧ t.mem = [] ∧ t.recorder.store = s.recorder.store ∧ t.ledger.store = []) ∧
    (s.hull.running = false ∨ x.pinHigh = true ∨ x.pinHeld = true ∨ s.now < x.pinSince + 10000 → exec .rstPinQualify s = .next s) ∧
    (x.pinHigh = true → x.pinHeld = true → x.pinSince + 10000000 ≤ s.now →
      ∃ t, exec .rstPinRelease s = .next t ∧ t.startup = { x with pinHeld := false } ∧ t = { s with hull := t.hull, startup := t.startup } ∧
        (({ s with startup := { x with pinHeld := false } } : State).mayStartRails = true → t.hull.starting = some s.now)) ∧
    (x.pinHigh = false ∨ x.pinHeld = false ∨ s.now < x.pinSince + 10000000 → exec .rstPinRelease s = .next s) ∧
    (∀ (i : Fin 8) (c : BitVec 16),
      (s.running = true → confirmed c = true → x.hostAt = none →
        ∃ t, exec (.hostReset (.session i) c) s = .next t ∧ t.startup = { x with hostAt := some s.now } ∧ (∀ o, t.heldDown o = true) ∧
          t.hull = s.hull ∧ t.mem = s.mem ∧ t.config = s.config ∧
          s.Logs t F.RST_HOST ∧ t.ledger.safe = s.ledger.safe) ∧
      (s.running = false ∨ confirmed c = false ∨ x.hostAt ≠ none → exec (.hostReset (.session i) c) s = .next s)) ∧
    (∀ (g : Agent) (c : BitVec 16), g.isCore = true → exec (.hostReset g c) s = .next s) ∧
    (∀ a, x.hostAt = some a →
      (a + 2000000 ≤ s.now →
        ∃ t, exec .hostResetEnter s = .next t ∧ cleared s t .host ∧ released s t ∧ t.hull.rails = 10 ∧ t.startup.hostAt = none) ∧
      (s.now < a + 2000000 → exec .hostResetEnter s = .next s)) ∧
    (x.hostAt = none → exec .hostResetEnter s = .next s) ∧
    (x.phase = 1 → s.hull.rails = 10 → s.hull.running = true → x.pinHeld = false → s.hull.resetOn = false →
      (∃ t, exec .startD0Release s = .next t ∧ released s t ∧ s.Logs t F.START_RESET ∧ t.hull.rails = 10)) ∧
    (x.phase ≠ 1 ∨ s.hull.rails ≠ 10 ∨ s.hull.running = false ∨ x.pinHeld = true ∨ s.hull.resetOn = true → exec .startD0Release s = .next s))

/-- O60. After training the preferred bank, not tried yet, starts phase 4 when the checks accept it, with CONFIG_ID and RUN_ROLLBACK
of its image; one that they refuse is marked tried, with START_BANK_FAIL, and the other one, not tried yet, starts phase 4 as a
fallback when they accept it; with no bank left both have been tried, START_NO_IMAGE is set and the tending cores are PARKED. In
phase 4 the tending cores take the code of the image, must report in time and restart; when every processor has reported, the
sections of the image but its commit groups become the configuration in force and phase 5 begins. When no tile ripens, phase 8
begins where the raster is seeded, phase 7 where the servo acquires, else phase 6. 120 s in one of phases 6 to 8 are logged once
as START_SLOW (while D0 runs, as it does from phase 2 on). In any other phase each of these does nothing. -/
def Obligations.StartUpBringsTheImageIntoForce : Prop :=
  ∀ s : State,
    let x := s.startup
    let b := s.im.preferred
    (x.phase ≠ 3 ∨ s.memory.state < 2 ∨ x.noImage = true → exec .bootBankSelect s = .next s) ∧
    (x.phase = 3 → 2 ≤ s.memory.state → x.noImage = false →
      let good (c : Bool) : Prop := s.tried c = false ∧ s.checkImage (s.bank c).bytes = none
      let runs (t : State) (c : Bool) : Prop := t.startup.phase = 4 ∧ t.startup.phaseAt = s.now ∧ t.startup.fallback = (c != b) ∧
        t.im.startedFrom = c ∧ t.im.bootRole = some (imageOf (s.bank c).bytes).role ∧
        t.im.configId = BitVec.ofNat 64 (le (imageOf (s.bank c).bytes).digest 0 8) ∧ t.im.runRollback = w32 (imageOf (s.bank c).bytes).rollback
      let failed (t : State) (c : Bool) : Prop := t.tried c = true ∧
        (s.tried c = false → (s.running = true → s.Logs t F.START_BANK_FAIL) ∧ (t.bank c).state = (if (s.bank c).state = .empty then .empty else .invalid))
      ∃ t, exec .bootBankSelect s = .next t ∧ t.mem = s.mem ∧ t.config = s.config ∧ t.hull = s.hull ∧
        (good b → runs t b ∧ t = { s with im := t.im, startup := t.startup }) ∧
        (¬ good b → good (!b) → runs t (!b) ∧ failed t b ∧ t = { s with im := t.im, startup := t.startup, ledger := t.ledger }) ∧
        (¬ good b → ¬ good (!b) → t.startup.noImage = true ∧ t.startup.phase = 3 ∧ failed t b ∧ failed t (!b) ∧
          (s.running = true → s.Logs t F.START_NO_IMAGE) ∧ ∀ n, n < 4 → (t.tc n).state = .parked)) ∧
    (x.phase ≠ 4 ∨ s.im.fwTc.running ≠ [] → exec .startFirmware s = .next s) ∧
    (x.phase = 4 → s.im.fwTc.running = [] →
      ∃ t, exec .startFirmware s = .next t ∧ t.startup = x ∧ t.config = s.config ∧ t.mem = s.mem ∧
        (∀ y, (s.bootImage.sections.find? fun z => z.type == 0x0B01) = some y →
          t.im.fwTc.running = y.payload ∧ t.im.fwTc.aliveBy = some (s.now + 2000000000) ∧
          ∀ n, n < 4 → (t.tc n).state = .restarting ∧ (t.tc n).alive = false)) ∧
    (x.phase ≠ 4 ∨ s.im.fwTc.running = [] ∨ s.im.fwTc.aliveBy ≠ none ∨ s.im.fwSp.aliveBy ≠ none ∨ s.im.fwHull.aliveBy ≠ none →
      exec .startInstall s = .next s) ∧
    (x.phase = 4 → s.im.fwTc.running ≠ [] → s.im.fwTc.aliveBy = none → s.im.fwSp.aliveBy = none → s.im.fwHull.aliveBy = none →
      ∃ t, exec .startInstall s = .next t ∧ t.config = s.bootImage.sections.filter (fun z => z.type != 0x0A01) ∧ t.startup.phase = 5 ∧
        t.mem = s.mem ∧ t.hull = s.hull ∧ t.mdp = s.mdp) ∧
    (x.phase ≠ 5 ∨ s.nothingRipens = false → exec .startPorts s = .next s) ∧
    (x.phase = 5 → s.nothingRipens = true →
      ∃ t, exec .startPorts s = .next t ∧ t.startup = { x with phase := if s.clock.seeded then 8 else if s.servo.state = .acquire then 7 else 6, phaseAt := s.now } ∧
        t.config = s.config ∧ t.tiles = s.tiles ∧ t.ledger = s.ledger ∧ t.mem = s.mem) ∧
    (6 ≤ x.phase → x.phase ≤ 8 → x.slow = false → x.phaseAt + 120000000000 ≤ s.now →
      ∃ t, exec .startSlow s = .next t ∧ t.startup = { x with slow := true } ∧ (s.running = true → s.LogsOne t F.START_SLOW) ∧
        t = { s with ledger := t.ledger, startup := t.startup }) ∧
    (x.phase < 6 ∨ 8 < x.phase ∨ x.slow = true ∨ s.now < x.phaseAt + 120000000000 → exec .startSlow s = .next s)
end

