-- ==== Sys2Proof/Laws/Sparse.lean ====
section
/-!
SUPPORT. The laws of sparse maps: a read after a write, and that every operation keeps the canonical form.
-/

namespace Sys2Proof

variable {α : Type}

theorem Sparse.get_cons (d : Nat → α) (j : Nat) (v : α) (r : Sparse α) (k : Nat) :
    Sparse.get d ((j, v) :: r) k = if j = k then v else Sparse.get d r k := rfl

theorem Sparse.get_without (d : Nat → α) (m : Sparse α) (k j : Nat) :
    Sparse.get d (m.without k) j = if j = k then d k else Sparse.get d m j := by
  induction m with
  | nil => by_cases h : j = k <;> simp [Sparse.without, Sparse.get, h]
  | cons e r ih =>
    obtain ⟨i, w⟩ := e
    simp only [Sparse.without] at ih ⊢
    by_cases hi : i = k
    · subst hi
      rw [List.filter_cons_of_neg (by simp), ih, Sparse.get_cons]
      by_cases hj : j = i
      · simp [hj]
      · simp [hj, Ne.symm hj]
    · rw [List.filter_cons_of_pos (by simpa using hi), Sparse.get_cons, ih, Sparse.get_cons]
      by_cases hij : i = j
      · subst hij; simp [hi]
      · simp [hij]

theorem Sparse.get_insertAt (d : Nat → α) (m : Sparse α) (k : Nat) (v : α) (j : Nat)
    (h : ∀ e ∈ m, e.1 ≠ k) :
    Sparse.get d (m.insertAt k v) j = if j = k then v else Sparse.get d m j := by
  induction m with
  | nil =>
    by_cases hj : j = k
    · simp [Sparse.insertAt, Sparse.get, hj]
    · simp [Sparse.insertAt, Sparse.get, hj, Ne.symm hj]
  | cons e r ih =>
    obtain ⟨i, w⟩ := e
    have hi : i ≠ k := h (i, w) (List.mem_cons_self ..)
    unfold Sparse.insertAt
    split
    · rw [Sparse.get_cons]
      by_cases hj : j = k
      · simp [hj]
      · simp [hj, Ne.symm hj]
    · rw [Sparse.get_cons, Sparse.get_cons, ih fun e he => h e (List.mem_cons_of_mem _ he)]
      by_cases hij : i = j
      · subst hij; simp [hi]
      · simp [hij]

/-- A read after a write: the value written at its number, what was there before at every other. -/
theorem Sparse.get_put [DecidableEq α] (d : Nat → α) (m : Sparse α) (k : Nat) (v : α) (j : Nat) :
    Sparse.get d (m.put d k v) j = if j = k then v else Sparse.get d m j := by
  unfold Sparse.put
  split
  · rename_i hv; rw [Sparse.get_without, hv]
  · rw [Sparse.get_insertAt, Sparse.get_without]
    · by_cases hj : j = k <;> simp [hj]
    · intro e he
      simpa [Sparse.without] using (List.mem_filter.mp he).2

/-! ## The canonical form -/

theorem Sparse.wfFrom_mono [DecidableEq α] (d : Nat → α) (lo : Nat) (m : Sparse α) (h : Sparse.wfFrom d (some lo) m = true) (lo' : Option Nat)
    (hl : ∀ l, lo' = some l → l ≤ lo) : Sparse.wfFrom d lo' m = true := by
  cases m with
  | nil => rfl
  | cons e r =>
    obtain ⟨j, v⟩ := e
    simp only [Sparse.wfFrom, Bool.and_eq_true, decide_eq_true_eq] at h ⊢
    refine ⟨⟨?_, h.1.2⟩, h.2⟩
    cases lo' with
    | none => rfl
    | some l => simpa using Nat.lt_of_le_of_lt (hl l rfl) h.1.1

theorem Sparse.wfFrom_filter [DecidableEq α] (d : Nat → α) (p : Nat × α → Bool) (m : Sparse α) :
    ∀ lo, Sparse.wfFrom d lo m = true → Sparse.wfFrom d lo (m.filter p) = true := by
  induction m with
  | nil => intro lo h; exact h
  | cons e r ih =>
    obtain ⟨j, v⟩ := e
    intro lo h
    simp only [Sparse.wfFrom, Bool.and_eq_true, decide_eq_true_eq] at h
    by_cases hp : p (j, v)
    · rw [List.filter_cons_of_pos hp]
      simp only [Sparse.wfFrom, Bool.and_eq_true, decide_eq_true_eq]
      exact ⟨h.1, ih _ h.2⟩
    · rw [List.filter_cons_of_neg hp]
      apply Sparse.wfFrom_mono d j _ (ih _ h.2)
      intro l hl; subst hl
      simpa using Nat.le_of_lt (by simpa using h.1.1)

/-- Leaving entries out keeps the canonical form. -/
theorem Sparse.wf_filter [DecidableEq α] (d : Nat → α) (p : Nat × α → Bool) (m : Sparse α) (h : Sparse.wf d m = true) :
    Sparse.wf d (m.filter p) = true := Sparse.wfFrom_filter d p m none h

theorem Sparse.wfFrom_insertAt [DecidableEq α] (d : Nat → α) (k : Nat) (v : α) (hv : v ≠ d k) (m : Sparse α) :
    ∀ lo, (∀ e ∈ m, e.1 ≠ k) → (∀ l, lo = some l → l < k) → Sparse.wfFrom d lo m = true →
      Sparse.wfFrom d lo (m.insertAt k v) = true := by
  induction m with
  | nil =>
    intro lo _ hl _
    cases lo with
    | none => simp [Sparse.insertAt, Sparse.wfFrom, hv]
    | some l => simp [Sparse.insertAt, Sparse.wfFrom, hv, hl l rfl]
  | cons e r ih =>
    obtain ⟨j, w⟩ := e
    intro lo hk hl h
    simp only [Sparse.wfFrom, Bool.and_eq_true, decide_eq_true_eq] at h
    unfold Sparse.insertAt
    split
    · rename_i hlt
      simp only [Sparse.wfFrom, Bool.and_eq_true, decide_eq_true_eq]
      refine ⟨⟨?_, hv⟩, ⟨hlt, h.1.2⟩, h.2⟩
      cases lo with
      | none => rfl
      | some l => simpa using hl l rfl
    · rename_i hlt
      simp only [Sparse.wfFrom, Bool.and_eq_true, decide_eq_true_eq]
      have hne : j ≠ k := hk (j, w) (List.mem_cons_self ..)
      refine ⟨h.1, ih (some j) (fun e he => hk e (List.mem_cons_of_mem _ he)) ?_ h.2⟩
      intro l hl'; cases hl'; omega

/-- Writing a value keeps the canonical form. -/
theorem Sparse.wf_put [DecidableEq α] (d : Nat → α) (m : Sparse α) (k : Nat) (v : α) (h : Sparse.wf d m = true) :
    Sparse.wf d (m.put d k v) = true := by
  unfold Sparse.put
  split
  · exact Sparse.wf_filter d _ m h
  · rename_i hv
    refine Sparse.wfFrom_insertAt d k v hv _ none ?_ ?_ (Sparse.wf_filter d _ m h)
    · intro e he
      simpa [Sparse.without] using (List.mem_filter.mp he).2
    · intro l hl; cases hl

theorem Sparse.wfFrom_mapVals [DecidableEq α] (d : Nat → α) (f : Nat → α → α) (m : Sparse α) :
    ∀ lo, Sparse.wfFrom d lo m = true → Sparse.wfFrom d lo (Sparse.mapVals d f m) = true := by
  induction m with
  | nil => intro lo h; exact h
  | cons e r ih =>
    obtain ⟨j, v⟩ := e
    intro lo h
    simp only [Sparse.wfFrom, Bool.and_eq_true, decide_eq_true_eq] at h
    unfold Sparse.mapVals
    split
    · apply Sparse.wfFrom_filter
      apply Sparse.wfFrom_mono d j _ (ih _ h.2)
      intro l hl; subst hl
      simpa using Nat.le_of_lt (by simpa using h.1.1)
    · rename_i hv
      simp only [Sparse.wfFrom, Bool.and_eq_true, decide_eq_true_eq]
      exact ⟨⟨h.1.1, hv⟩, ih _ h.2⟩

/-- Changing every value keeps the canonical form. -/
theorem Sparse.wf_mapVals [DecidableEq α] (d : Nat → α) (f : Nat → α → α) (m : Sparse α) (h : Sparse.wf d m = true) :
    Sparse.wf d (Sparse.mapVals d f m) = true := Sparse.wfFrom_mapVals d f m none h

/-- What a map reads after every value has changed, where the change leaves an unlisted value as it is. -/
theorem Sparse.get_mapVals [DecidableEq α] (d : Nat → α) (f : Nat → α → α) (m : Sparse α) (k : Nat) (h : f k (d k) = d k) :
    Sparse.get d (Sparse.mapVals d f m) k = f k (Sparse.get d m k) := by
  induction m with
  | nil => exact h.symm
  | cons e r ih =>
    obtain ⟨j, v⟩ := e
    unfold Sparse.mapVals
    by_cases e : j = k
    · subst e
      split
      · rename_i hv; rw [Sparse.get_without, Sparse.get_cons]; simp [hv]
      · simp [Sparse.get_cons]
    · split
      · rw [Sparse.get_without, Sparse.get_cons, ih]
        simp [e, Ne.symm e]
      · simp [Sparse.get_cons, e, ih]

end Sys2Proof
end

