-- ==== Sys2Proof/Laws/KeepOps.lean ====
section
/-!
SUPPORT. What every shared operation and every meaning keeps: the waiting commands, the model's time, the canonical form of the
sparse maps, what has left the device, and every part of the state that it does not name; and the rules by which this passes from
an operation to those that call it. A set of parts is a number with one bit per part (`Part.bit`).
-/

namespace Sys2Proof.Machine

/-- The bit of a set that says that entries on their way to the ledger may be taken out, and that D0 may stop running. -/
def drainBit : Nat := 41

/-- What any operation short of a step leaves as it was: the queue and the time are the same, the maps stay canonical,
nothing that has left the device is taken back, no free value is drawn twice, no entry on its way to the ledger is lost, D0 goes on running, and a part outside the set `A` is the same. -/
structure Keeps (A : Nat) (s t : State) : Prop where
  pending : t.pending = s.pending
  now     : t.clock.now = s.clock.now
  mem     : Memory.wf s.mem = true → Memory.wf t.mem = true
  regs    : Sparse.wf resetOf s.regs = true → Sparse.wf resetOf t.regs = true
  latches : Sparse.wf (fun k => resetOf (k % 0x100000000)) s.latches = true →
    Sparse.wf (fun k => resetOf (k % 0x100000000)) t.latches = true
  wire    : ∃ w, t.wire = w ++ s.wire
  fresh   : s.fresh ≤ t.fresh
  noted   : A.testBit drainBit = false → ∃ w, t.ledger.outbox = s.ledger.outbox ++ w
  runs    : A.testBit drainBit = false → 2 ≤ s.startup.phase → 2 ≤ t.startup.phase
  same    : ∀ p : Part, A.testBit p.bit = false → p.Same s t

theorem Part.same_refl (p : Part) (s : State) : p.Same s s := by cases p <;> rfl

theorem Part.same_trans {p : Part} {s t u : State} (h : p.Same s t) (k : p.Same t u) : p.Same s u := by
  cases p <;> exact Eq.trans k h

/-- A set within a set within `A`. -/
theorem Part.sub {p q A : Nat} (h : q &&& A = q) (k : p &&& q = p) : p &&& A = p := by
  rw [← k, Nat.land_assoc, h]

/-- A part that `A` holds is not outside it. -/
theorem Part.inside {q A i : Nat} {C : Prop} (h : q &&& A = q) (hp : A.testBit i = false) (k : q.testBit i = true) : C := by
  rw [← h, Nat.testBit_land, hp, Bool.and_false] at k
  cases k

theorem Keeps.refl (A : Nat) (s : State) : Keeps A s s :=
  ⟨rfl, rfl, id, id, id, ⟨[], rfl⟩, Nat.le_refl _, fun _ => ⟨[], (List.append_nil _).symm⟩, fun _ => id, fun p _ => p.same_refl s⟩

theorem Keeps.trans {A : Nat} {s t u : State} (h : Keeps A s t) (k : Keeps A t u) : Keeps A s u where
  pending := k.pending.trans h.pending
  now := k.now.trans h.now
  mem := k.mem ∘ h.mem
  regs := k.regs ∘ h.regs
  latches := k.latches ∘ h.latches
  wire := by
    obtain ⟨w, hw⟩ := h.wire
    obtain ⟨v, hv⟩ := k.wire
    exact ⟨v ++ w, by rw [hv, hw, List.append_assoc]⟩
  fresh := Nat.le_trans h.fresh k.fresh
  noted := fun d => by
    obtain ⟨w, hw⟩ := h.noted d
    obtain ⟨v, hv⟩ := k.noted d
    exact ⟨w ++ v, by rw [hv, hw, List.append_assoc]⟩
  runs := fun d => k.runs d ∘ h.runs d
  same := fun p hp => Part.same_trans (h.same p hp) (k.same p hp)

/-- An intermediate state of a meaning. -/
theorem Keeps.cut {A : Nat} {z y t : State} (h : Keeps A z y) (k : Keeps A z y → Keeps A z t) : Keeps A z t := k h

/-- A change of fields that Keeps speaks of only as parts. -/
theorem Keeps.upd {A : Nat} {z x t : State} (h : Keeps A z x) (h1 : t.pending = x.pending) (h2 : t.clock.now = x.clock.now)
    (h3 : t.mem = x.mem) (h4 : t.regs = x.regs) (h5 : t.latches = x.latches) (h6 : t.wire = x.wire) (h7 : t.fresh = x.fresh)
    (h8 : t.ledger.outbox = x.ledger.outbox) (h9 : 2 ≤ x.startup.phase → 2 ≤ t.startup.phase)
    (hs : ∀ p : Part, A.testBit p.bit = false → p.Same x t) : Keeps A z t :=
  h.trans ⟨h1, h2, fun h => h3 ▸ h, fun h => h4 ▸ h, fun h => h5 ▸ h, ⟨[], by simp [h6]⟩, by rw [h7], fun _ => ⟨[], by rw [h8, List.append_nil]⟩, fun _ => h9, hs⟩

/-- A state written out field by field, the fields that Keeps speaks of taken from an earlier one. -/
theorem Keeps.change {A : Nat} {z x : State} (h : Keeps A z x) {regs latches setNow mem readValue wire fresh clock servo ptp refIn tio im commits roll tiles config lanes ports optics ft chanIn surfaces chans coders takeovers rinds queues pair heads readers scalers audio memory recorder cores mdp hull ledger startup pending} (h1 : pending = x.pending)
    (h2 : clock.now = x.clock.now) (h3 : mem = x.mem) (h4 : regs = x.regs) (h5 : latches = x.latches) (h6 : wire = x.wire)
    (h7 : fresh = x.fresh) (h8 : ledger.outbox = x.ledger.outbox) (h9 : 2 ≤ x.startup.phase → 2 ≤ startup.phase)
    (hs : ∀ p : Part, A.testBit p.bit = false → p.Same x (State.mk regs latches setNow mem readValue wire fresh clock servo ptp refIn tio im commits roll tiles config lanes ports optics ft chanIn surfaces chans coders takeovers rinds queues pair heads readers scalers audio memory recorder cores mdp hull ledger startup pending)) :
    Keeps A z (State.mk regs latches setNow mem readValue wire fresh clock servo ptp refIn tio im commits roll tiles config lanes ports optics ft chanIn surfaces chans coders takeovers rinds queues pair heads readers scalers audio memory recorder cores mdp hull ledger startup pending) :=
  h.upd h1 h2 h3 h4 h5 h6 h7 h8 h9 hs

/-- The same, with entries taken out on their way to the ledger. -/
theorem Keeps.changeDrain {A : Nat} {z x : State} (h : Keeps A z x) {regs latches setNow mem readValue wire fresh clock servo ptp refIn tio im commits roll tiles config lanes ports optics ft chanIn surfaces chans coders takeovers rinds queues pair heads readers scalers audio memory recorder cores mdp hull ledger startup pending} (h1 : pending = x.pending)
    (h2 : clock.now = x.clock.now) (h3 : mem = x.mem) (h4 : regs = x.regs) (h5 : latches = x.latches) (h6 : wire = x.wire)
    (h7 : fresh = x.fresh) (h8 : A.testBit drainBit = true)
    (hs : ∀ p : Part, A.testBit p.bit = false → p.Same x (State.mk regs latches setNow mem readValue wire fresh clock servo ptp refIn tio im commits roll tiles config lanes ports optics ft chanIn surfaces chans coders takeovers rinds queues pair heads readers scalers audio memory recorder cores mdp hull ledger startup pending)) :
    Keeps A z (State.mk regs latches setNow mem readValue wire fresh clock servo ptp refIn tio im commits roll tiles config lanes ports optics ft chanIn surfaces chans coders takeovers rinds queues pair heads readers scalers audio memory recorder cores mdp hull ledger startup pending) :=
  h.trans ⟨h1, h2, fun h => h3 ▸ h, fun h => h4 ▸ h, fun h => h5 ▸ h, ⟨[], by simp [h6]⟩, by simp [h7], fun d => (by rw [h8] at d; cases d), fun d => (by rw [h8] at d; cases d), hs⟩

/-- A set within `A` brings its bits. -/
theorem Part.has {q A i : Nat} (h : q &&& A = q) (k : q.testBit i = true) : A.testBit i = true := by
  rw [← h, Nat.testBit_land, Bool.and_eq_true] at k
  exact k.2

/-- One step after another over a list. -/
theorem Keeps.foldl {β : Type} {A : Nat} {z x : State} {f : State → β → State} {l : List β}
    (hf : ∀ y b, Keeps A z y → Keeps A z (f y b)) (hx : Keeps A z x) : Keeps A z (l.foldl f x) := by
  induction l generalizing x with
  | nil => exact hx
  | cons b r ih => exact ih (hf x b hx)

theorem Keeps.foldl_fst {β γ : Type} {A : Nat} {z : State} {x : State × γ} {f : State × γ → β → State × γ} {l : List β}
    (hf : ∀ y b, Keeps A z y.1 → Keeps A z (f y b).1) (hx : Keeps A z x.1) : Keeps A z (l.foldl f x).1 := by
  induction l generalizing x with
  | nil => exact hx
  | cons b r ih => exact ih (hf x b hx)

theorem Keeps.of_fst {α : Type} {A : Nat} {z a : State} {b : α} {p : State × α} (h : Keeps A z p.1) (e : p = (a, b)) :
    Keeps A z a := by
  rw [e] at h; exact h

theorem Keeps.of_snd {α : Type} {A : Nat} {z a : State} {b : α} {p : α × State} (h : Keeps A z p.2) (e : p = (b, a)) :
    Keeps A z a := by
  rw [e] at h; exact h

/-- A branch, without taking the whole term apart. -/
theorem Keeps.ite_fst {α : Type} {A : Nat} {z : State} {c : Prop} [Decidable c] {a b : State × α} (h : Keeps A z a.1)
    (k : Keeps A z b.1) : Keeps A z (if c then a else b).1 := by
  split
  · exact h
  · exact k

/-- Keeps for what a meaning answers. -/
def KeepsOut (A : Nat) (s : State) (o : Out) : Prop := ∀ t, o = .next t → Keeps A s t

theorem KeepsOut.cut {A : Nat} {z y : State} {o : Out} (h : Keeps A z y) (k : Keeps A z y → KeepsOut A z o) : KeepsOut A z o := k h

theorem KeepsOut.next {A : Nat} {s t : State} (h : Keeps A s t) : KeepsOut A s (.next t) := by
  intro u e
  cases e
  exact h

theorem KeepsOut.fault {A : Nat} {s : State} {r : Fault} : KeepsOut A s (.fault r) := by
  intro u e
  cases e

theorem State.setByte_keeps {A : Nat} {z s : State} {a : Nat} {v : Byte} (hA : 0x8 &&& A = 0x8) (h : Keeps A z s) :
    Keeps A z (s.setByte a v) :=
  h.trans ⟨rfl, rfl, Sparse.wf_put _ _ _ _, id, id, ⟨[], rfl⟩, Nat.le_refl _, fun _ => ⟨[], (List.append_nil _).symm⟩, fun _ => id, by intro p hp; cases p <;> first | exact Part.inside hA hp rfl | rfl⟩

theorem State.setBytes_keeps {A : Nat} {z s : State} {a : Nat} {l : List Byte} (hA : 0x8 &&& A = 0x8) (h : Keeps A z s) :
    Keeps A z (s.setBytes a l) := by
  induction l generalizing s a with
  | nil => exact h
  | cons b r ih => exact ih (State.setByte_keeps hA h)

theorem State.setReg_keeps {A : Nat} {z s : State} {a : Nat} {v : Word} (hA : 0x1 &&& A = 0x1) (h : Keeps A z s) :
    Keeps A z (s.setReg a v) :=
  h.trans ⟨rfl, rfl, id, Sparse.wf_put _ _ _ _, id, ⟨[], rfl⟩, Nat.le_refl _, fun _ => ⟨[], (List.append_nil _).symm⟩, fun _ => id, by intro p hp; cases p <;> first | exact Part.inside hA hp rfl | rfl⟩

theorem State.setLatch_keeps {A : Nat} {z s : State} {g : Agent} {a : Nat} {v : Word} (hA : 0x2 &&& A = 0x2)
    (h : Keeps A z s) : Keeps A z (s.setLatch g a v) :=
  h.trans ⟨rfl, rfl, id, id, Sparse.wf_put _ _ _ _, ⟨[], rfl⟩, Nat.le_refl _, fun _ => ⟨[], (List.append_nil _).symm⟩, fun _ => id, by intro p hp; cases p <;> first | exact Part.inside hA hp rfl | rfl⟩

theorem State.dropLatches_keeps {A : Nat} {z s : State} {g : Agent} (hA : 0x2 &&& A = 0x2) (h : Keeps A z s) :
    Keeps A z (s.dropLatches g) :=
  h.trans ⟨rfl, rfl, id, id, Sparse.wf_filter _ _ _, ⟨[], rfl⟩, Nat.le_refl _, fun _ => ⟨[], (List.append_nil _).symm⟩, fun _ => id, by intro p hp; cases p <;> first | exact Part.inside hA hp rfl | rfl⟩

/-- Registers left out go back to their reset values. -/
theorem Keeps.filterRegs {A : Nat} {z x : State} {p : Nat × Word → Bool} (hA : 0x1 &&& A = 0x1) (h : Keeps A z x) :
    Keeps A z { x with regs := x.regs.filter p } :=
  h.trans ⟨rfl, rfl, id, Sparse.wf_filter _ _ _, id, ⟨[], rfl⟩, Nat.le_refl _, fun _ => ⟨[], (List.append_nil _).symm⟩, fun _ => id, by intro p hp; cases p <;> first | exact Part.inside hA hp rfl | rfl⟩

/-- Bytes left out read as bytes that nothing has written. -/
theorem Keeps.filterMem {A : Nat} {z x : State} {p : Nat × Byte → Bool} (hA : 0x8 &&& A = 0x8) (h : Keeps A z x) :
    Keeps A z { x with mem := x.mem.filter p } :=
  h.trans ⟨rfl, rfl, Sparse.wf_filter _ _ _, id, id, ⟨[], rfl⟩, Nat.le_refl _, fun _ => ⟨[], (List.append_nil _).symm⟩, fun _ => id, by intro p hp; cases p <;> first | exact Part.inside hA hp rfl | rfl⟩

/-- Several free values drawn at once. -/
theorem Keeps.freshMore {A : Nat} {z x : State} {n : Nat} (hA : 0x40 &&& A = 0x40) (h : Keeps A z x) :
    Keeps A z { x with fresh := x.fresh + n } :=
  h.trans ⟨rfl, rfl, id, id, id, ⟨[], rfl⟩, Nat.le_add_right _ _, fun _ => ⟨[], (List.append_nil _).symm⟩, fun _ => id, by intro p hp; cases p <;> first | exact Part.inside hA hp rfl | rfl⟩

theorem State.send_keeps {A : Nat} {z s : State} {x : Sent} (hA : 0x20 &&& A = 0x20) (h : Keeps A z s) : Keeps A z (s.send x) :=
  h.trans ⟨rfl, rfl, id, id, id, ⟨[x], rfl⟩, Nat.le_refl _, fun _ => ⟨[], (List.append_nil _).symm⟩, fun _ => id, by intro p hp; cases p <;> first | exact Part.inside hA hp rfl | rfl⟩

theorem State.freeBit_keeps {A : Nat} {z s : State} (hA : 0x40 &&& A = 0x40) (h : Keeps A z s) : Keeps A z s.freeBit.2 :=
  h.trans ⟨rfl, rfl, id, id, id, ⟨[], rfl⟩, Nat.le_succ _, fun _ => ⟨[], (List.append_nil _).symm⟩, fun _ => id, by intro p hp; cases p <;> first | exact Part.inside hA hp rfl | rfl⟩

theorem State.freeWord_keeps {A : Nat} {z s : State} (hA : 0x40 &&& A = 0x40) (h : Keeps A z s) : Keeps A z s.freeWord.2 :=
  h.trans ⟨rfl, rfl, id, id, id, ⟨[], rfl⟩, Nat.le_succ _, fun _ => ⟨[], (List.append_nil _).symm⟩, fun _ => id, by intro p hp; cases p <;> first | exact Part.inside hA hp rfl | rfl⟩

theorem State.freeBelow_keeps {A : Nat} {z s : State} {n : Nat} (hA : 0x40 &&& A = 0x40) (h : Keeps A z s) :
    Keeps A z (s.freeBelow n).2 :=
  h.trans ⟨rfl, rfl, id, id, id, ⟨[], rfl⟩, Nat.le_succ _, fun _ => ⟨[], (List.append_nil _).symm⟩, fun _ => id, by intro p hp; cases p <;> first | exact Part.inside hA hp rfl | rfl⟩

theorem State.freeInt_keeps {A : Nat} {z s : State} (hA : 0x40 &&& A = 0x40) (h : Keeps A z s) : Keeps A z s.freeInt.2 :=
  h.trans ⟨rfl, rfl, id, id, id, ⟨[], rfl⟩, Nat.le_succ _, fun _ => ⟨[], (List.append_nil _).symm⟩, fun _ => id, by intro p hp; cases p <;> first | exact Part.inside hA hp rfl | rfl⟩

theorem State.logEntry_keeps {A : Nat} {z s : State} {e : Entry} (hA : 0x4000000000 &&& A = 0x4000000000) (h : Keeps A z s) :
    Keeps A z (s.logEntry e) := by
  unfold State.logEntry
  split
  · exact h.trans ⟨rfl, rfl, id, id, id, ⟨[], rfl⟩, Nat.le_refl _, fun _ => ⟨[e], rfl⟩, fun _ => id, by intro p hp; cases p <;> first | exact Part.inside hA hp rfl | rfl⟩
  · exact h

theorem State.countBy_keeps {A : Nat} {z : State} {s : State} {a n : Nat} (hA : 0x1 &&& A = 0x1) (hk : Keeps A z s) :
    Keeps A z (State.countBy s a n) := by
  unfold State.countBy
  repeat' first
    | with_reducible assumption
    | ((with_reducible refine Part.sub hA ?_); rfl)
    | (extract_lets +onlyGivenNames y; refine Keeps.cut (y := y) ?_ (fun hy => ?_) <;> [(unfold y; clear y); (clear_value y; rename' y => w)])
    | (extract_lets +onlyGivenNames y; clear_value y; rename' y => w)
    | (extract_lets +onlyGivenNames y; rename' y => w)
    | with_reducible apply State.setReg_keeps
    | split
    | dsimp -zeta only

theorem State.count_keeps {A : Nat} {z : State} {s : State} {a : Nat} (hA : 0x1 &&& A = 0x1) (hk : Keeps A z s) :
    Keeps A z (State.count s a) := by
  unfold State.count
  repeat' first
    | with_reducible assumption
    | ((with_reducible refine Part.sub hA ?_); rfl)
    | (extract_lets +onlyGivenNames y; refine Keeps.cut (y := y) ?_ (fun hy => ?_) <;> [(unfold y; clear y); (clear_value y; rename' y => w)])
    | (extract_lets +onlyGivenNames y; clear_value y; rename' y => w)
    | (extract_lets +onlyGivenNames y; rename' y => w)
    | with_reducible apply State.countBy_keeps
    | split
    | dsimp -zeta only

theorem State.setInst_keeps {A : Nat} {z : State} {s : State} {n : Nat} {v : PtpInst} (hA : 0x200 &&& A = 0x200) (hk : Keeps A z s) :
    Keeps A z (State.setInst s n v) :=
  Keeps.upd hk rfl rfl rfl rfl rfl rfl rfl rfl id (by intro p hp; cases p <;> first | exact Part.inside hA hp rfl | rfl)

theorem State.modInst_keeps {A : Nat} {z : State} {s : State} {n : Nat} {f : PtpInst → PtpInst} (hA : 0x200 &&& A = 0x200) (hk : Keeps A z s) :
    Keeps A z (State.modInst s n f) :=
  State.setInst_keeps hA hk

theorem State.mapPtp_keeps {A : Nat} {z : State} {s : State} {f : Nat → PtpInst → PtpInst} (hA : 0x200 &&& A = 0x200) (hk : Keeps A z s) :
    Keeps A z (State.mapPtp s f) :=
  Keeps.upd hk rfl rfl rfl rfl rfl rfl rfl rfl id (by intro p hp; cases p <;> first | exact Part.inside hA hp rfl | rfl)

theorem State.setTioPin_keeps {A : Nat} {z : State} {s : State} {n : Nat} {v : TioPin} (hA : 0x800 &&& A = 0x800) (hk : Keeps A z s) :
    Keeps A z (State.setTioPin s n v) :=
  Keeps.upd hk rfl rfl rfl rfl rfl rfl rfl rfl id (by intro p hp; cases p <;> first | exact Part.inside hA hp rfl | rfl)

theorem State.modTioPin_keeps {A : Nat} {z : State} {s : State} {n : Nat} {f : TioPin → TioPin} (hA : 0x800 &&& A = 0x800) (hk : Keeps A z s) :
    Keeps A z (State.modTioPin s n f) :=
  State.setTioPin_keeps hA hk

theorem State.mapTio_keeps {A : Nat} {z : State} {s : State} {f : Nat → TioPin → TioPin} (hA : 0x800 &&& A = 0x800) (hk : Keeps A z s) :
    Keeps A z (State.mapTio s f) :=
  Keeps.upd hk rfl rfl rfl rfl rfl rfl rfl rfl id (by intro p hp; cases p <;> first | exact Part.inside hA hp rfl | rfl)

theorem State.setTile_keeps {A : Nat} {z : State} {s : State} {n : Nat} {v : Tile} (hA : 0x8000 &&& A = 0x8000) (hk : Keeps A z s) :
    Keeps A z (State.setTile s n v) :=
  Keeps.upd hk rfl rfl rfl rfl rfl rfl rfl rfl id (by intro p hp; cases p <;> first | exact Part.inside hA hp rfl | rfl)

theorem State.modTile_keeps {A : Nat} {z : State} {s : State} {n : Nat} {f : Tile → Tile} (hA : 0x8000 &&& A = 0x8000) (hk : Keeps A z s) :
    Keeps A z (State.modTile s n f) :=
  State.setTile_keeps hA hk

theorem State.mapTiles_keeps {A : Nat} {z : State} {s : State} {f : Nat → Tile → Tile} (hA : 0x8000 &&& A = 0x8000) (hk : Keeps A z s) :
    Keeps A z (State.mapTiles s f) :=
  Keeps.upd hk rfl rfl rfl rfl rfl rfl rfl rfl id (by intro p hp; cases p <;> first | exact Part.inside hA hp rfl | rfl)

theorem State.setLane_keeps {A : Nat} {z : State} {s : State} {n : Nat} {v : Lane} (hA : 0x20000 &&& A = 0x20000) (hk : Keeps A z s) :
    Keeps A z (State.setLane s n v) :=
  Keeps.upd hk rfl rfl rfl rfl rfl rfl rfl rfl id (by intro p hp; cases p <;> first | exact Part.inside hA hp rfl | rfl)

theorem State.modLane_keeps {A : Nat} {z : State} {s : State} {n : Nat} {f : Lane → Lane} (hA : 0x20000 &&& A = 0x20000) (hk : Keeps A z s) :
    Keeps A z (State.modLane s n f) :=
  State.setLane_keeps hA hk

theorem State.mapLanes_keeps {A : Nat} {z : State} {s : State} {f : Nat → Lane → Lane} (hA : 0x20000 &&& A = 0x20000) (hk : Keeps A z s) :
    Keeps A z (State.mapLanes s f) :=
  Keeps.upd hk rfl rfl rfl rfl rfl rfl rfl rfl id (by intro p hp; cases p <;> first | exact Part.inside hA hp rfl | rfl)

theorem State.setPort_keeps {A : Nat} {z : State} {s : State} {n : Nat} {v : Port} (hA : 0x40000 &&& A = 0x40000) (hk : Keeps A z s) :
    Keeps A z (State.setPort s n v) :=
  Keeps.upd hk rfl rfl rfl rfl rfl rfl rfl rfl id (by intro p hp; cases p <;> first | exact Part.inside hA hp rfl | rfl)

theorem State.modPort_keeps {A : Nat} {z : State} {s : State} {n : Nat} {f : Port → Port} (hA : 0x40000 &&& A = 0x40000) (hk : Keeps A z s) :
    Keeps A z (State.modPort s n f) :=
  State.setPort_keeps hA hk

theorem State.mapPorts_keeps {A : Nat} {z : State} {s : State} {f : Nat → Port → Port} (hA : 0x40000 &&& A = 0x40000) (hk : Keeps A z s) :
    Keeps A z (State.mapPorts s f) :=
  Keeps.upd hk rfl rfl rfl rfl rfl rfl rfl rfl id (by intro p hp; cases p <;> first | exact Part.inside hA hp rfl | rfl)

theorem State.setOptic_keeps {A : Nat} {z : State} {s : State} {n : Nat} {v : Optic} (hA : 0x80000 &&& A = 0x80000) (hk : Keeps A z s) :
    Keeps A z (State.setOptic s n v) :=
  Keeps.upd hk rfl rfl rfl rfl rfl rfl rfl rfl id (by intro p hp; cases p <;> first | exact Part.inside hA hp rfl | rfl)

theorem State.modOptic_keeps {A : Nat} {z : State} {s : State} {n : Nat} {f : Optic → Optic} (hA : 0x80000 &&& A = 0x80000) (hk : Keeps A z s) :
    Keeps A z (State.modOptic s n f) :=
  State.setOptic_keeps hA hk

theorem State.mapOptics_keeps {A : Nat} {z : State} {s : State} {f : Nat → Optic → Optic} (hA : 0x80000 &&& A = 0x80000) (hk : Keeps A z s) :
    Keeps A z (State.mapOptics s f) :=
  Keeps.upd hk rfl rfl rfl rfl rfl rfl rfl rfl id (by intro p hp; cases p <;> first | exact Part.inside hA hp rfl | rfl)

theorem State.setChIn_keeps {A : Nat} {z : State} {s : State} {n : Nat} {v : ChanIn} (hA : 0x200000 &&& A = 0x200000) (hk : Keeps A z s) :
    Keeps A z (State.setChIn s n v) :=
  Keeps.upd hk rfl rfl rfl rfl rfl rfl rfl rfl id (by intro p hp; cases p <;> first | exact Part.inside hA hp rfl | rfl)

theorem State.modChIn_keeps {A : Nat} {z : State} {s : State} {n : Nat} {f : ChanIn → ChanIn} (hA : 0x200000 &&& A = 0x200000) (hk : Keeps A z s) :
    Keeps A z (State.modChIn s n f) :=
  State.setChIn_keeps hA hk

theorem State.mapChanIn_keeps {A : Nat} {z : State} {s : State} {f : Nat → ChanIn → ChanIn} (hA : 0x200000 &&& A = 0x200000) (hk : Keeps A z s) :
    Keeps A z (State.mapChanIn s f) :=
  Keeps.upd hk rfl rfl rfl rfl rfl rfl rfl rfl id (by intro p hp; cases p <;> first | exact Part.inside hA hp rfl | rfl)

theorem State.setSurface_keeps {A : Nat} {z : State} {s : State} {n : Nat} {v : Surface} (hA : 0x400000 &&& A = 0x400000) (hk : Keeps A z s) :
    Keeps A z (State.setSurface s n v) :=
  Keeps.upd hk rfl rfl rfl rfl rfl rfl rfl rfl id (by intro p hp; cases p <;> first | exact Part.inside hA hp rfl | rfl)

theorem State.modSurface_keeps {A : Nat} {z : State} {s : State} {n : Nat} {f : Surface → Surface} (hA : 0x400000 &&& A = 0x400000) (hk : Keeps A z s) :
    Keeps A z (State.modSurface s n f) :=
  State.setSurface_keeps hA hk

theorem State.mapSurfaces_keeps {A : Nat} {z : State} {s : State} {f : Nat → Surface → Surface} (hA : 0x400000 &&& A = 0x400000) (hk : Keeps A z s) :
    Keeps A z (State.mapSurfaces s f) :=
  Keeps.upd hk rfl rfl rfl rfl rfl rfl rfl rfl id (by intro p hp; cases p <;> first | exact Part.inside hA hp rfl | rfl)

theorem State.setChan_keeps {A : Nat} {z : State} {s : State} {n : Nat} {v : Chan} (hA : 0x800000 &&& A = 0x800000) (hk : Keeps A z s) :
    Keeps A z (State.setChan s n v) :=
  Keeps.upd hk rfl rfl rfl rfl rfl rfl rfl rfl id (by intro p hp; cases p <;> first | exact Part.inside hA hp rfl | rfl)

theorem State.modChan_keeps {A : Nat} {z : State} {s : State} {n : Nat} {f : Chan → Chan} (hA : 0x800000 &&& A = 0x800000) (hk : Keeps A z s) :
    Keeps A z (State.modChan s n f) :=
  State.setChan_keeps hA hk

theorem State.mapChans_keeps {A : Nat} {z : State} {s : State} {f : Nat → Chan → Chan} (hA : 0x800000 &&& A = 0x800000) (hk : Keeps A z s) :
    Keeps A z (State.mapChans s f) :=
  Keeps.upd hk rfl rfl rfl rfl rfl rfl rfl rfl id (by intro p hp; cases p <;> first | exact Part.inside hA hp rfl | rfl)

theorem State.setCoder_keeps {A : Nat} {z : State} {s : State} {n : Nat} {v : Coder} (hA : 0x1000000 &&& A = 0x1000000) (hk : Keeps A z s) :
    Keeps A z (State.setCoder s n v) :=
  Keeps.upd hk rfl rfl rfl rfl rfl rfl rfl rfl id (by intro p hp; cases p <;> first | exact Part.inside hA hp rfl | rfl)

theorem State.modCoder_keeps {A : Nat} {z : State} {s : State} {n : Nat} {f : Coder → Coder} (hA : 0x1000000 &&& A = 0x1000000) (hk : Keeps A z s) :
    Keeps A z (State.modCoder s n f) :=
  State.setCoder_keeps hA hk

theorem State.mapCoders_keeps {A : Nat} {z : State} {s : State} {f : Nat → Coder → Coder} (hA : 0x1000000 &&& A = 0x1000000) (hk : Keeps A z s) :
    Keeps A z (State.mapCoders s f) :=
  Keeps.upd hk rfl rfl rfl rfl rfl rfl rfl rfl id (by intro p hp; cases p <;> first | exact Part.inside hA hp rfl | rfl)

theorem State.setRind_keeps {A : Nat} {z : State} {s : State} {n : Nat} {v : Rind} (hA : 0x4000000 &&& A = 0x4000000) (hk : Keeps A z s) :
    Keeps A z (State.setRind s n v) :=
  Keeps.upd hk rfl rfl rfl rfl rfl rfl rfl rfl id (by intro p hp; cases p <;> first | exact Part.inside hA hp rfl | rfl)

theorem State.modRind_keeps {A : Nat} {z : State} {s : State} {n : Nat} {f : Rind → Rind} (hA : 0x4000000 &&& A = 0x4000000) (hk : Keeps A z s) :
    Keeps A z (State.modRind s n f) :=
  State.setRind_keeps hA hk

theorem State.mapRinds_keeps {A : Nat} {z : State} {s : State} {f : Nat → Rind → Rind} (hA : 0x4000000 &&& A = 0x4000000) (hk : Keeps A z s) :
    Keeps A z (State.mapRinds s f) :=
  Keeps.upd hk rfl rfl rfl rfl rfl rfl rfl rfl id (by intro p hp; cases p <;> first | exact Part.inside hA hp rfl | rfl)

theorem State.setHead_keeps {A : Nat} {z : State} {s : State} {n : Nat} {v : Head} (hA : 0x20000000 &&& A = 0x20000000) (hk : Keeps A z s) :
    Keeps A z (State.setHead s n v) :=
  Keeps.upd hk rfl rfl rfl rfl rfl rfl rfl rfl id (by intro p hp; cases p <;> first | exact Part.inside hA hp rfl | rfl)

theorem State.modHead_keeps {A : Nat} {z : State} {s : State} {n : Nat} {f : Head → Head} (hA : 0x20000000 &&& A = 0x20000000) (hk : Keeps A z s) :
    Keeps A z (State.modHead s n f) :=
  State.setHead_keeps hA hk

theorem State.mapHeads_keeps {A : Nat} {z : State} {s : State} {f : Nat → Head → Head} (hA : 0x20000000 &&& A = 0x20000000) (hk : Keeps A z s) :
    Keeps A z (State.mapHeads s f) :=
  Keeps.upd hk rfl rfl rfl rfl rfl rfl rfl rfl id (by intro p hp; cases p <;> first | exact Part.inside hA hp rfl | rfl)

theorem State.setReader_keeps {A : Nat} {z : State} {s : State} {n : Nat} {v : CheckedUnit} (hA : 0x40000000 &&& A = 0x40000000) (hk : Keeps A z s) :
    Keeps A z (State.setReader s n v) :=
  Keeps.upd hk rfl rfl rfl rfl rfl rfl rfl rfl id (by intro p hp; cases p <;> first | exact Part.inside hA hp rfl | rfl)

theorem State.modReader_keeps {A : Nat} {z : State} {s : State} {n : Nat} {f : CheckedUnit → CheckedUnit} (hA : 0x40000000 &&& A = 0x40000000) (hk : Keeps A z s) :
    Keeps A z (State.modReader s n f) :=
  State.setReader_keeps hA hk

theorem State.mapReaders_keeps {A : Nat} {z : State} {s : State} {f : Nat → CheckedUnit → CheckedUnit} (hA : 0x40000000 &&& A = 0x40000000) (hk : Keeps A z s) :
    Keeps A z (State.mapReaders s f) :=
  Keeps.upd hk rfl rfl rfl rfl rfl rfl rfl rfl id (by intro p hp; cases p <;> first | exact Part.inside hA hp rfl | rfl)

theorem State.setScaler_keeps {A : Nat} {z : State} {s : State} {n : Nat} {v : CheckedUnit} (hA : 0x80000000 &&& A = 0x80000000) (hk : Keeps A z s) :
    Keeps A z (State.setScaler s n v) :=
  Keeps.upd hk rfl rfl rfl rfl rfl rfl rfl rfl id (by intro p hp; cases p <;> first | exact Part.inside hA hp rfl | rfl)

theorem State.modScaler_keeps {A : Nat} {z : State} {s : State} {n : Nat} {f : CheckedUnit → CheckedUnit} (hA : 0x80000000 &&& A = 0x80000000) (hk : Keeps A z s) :
    Keeps A z (State.modScaler s n f) :=
  State.setScaler_keeps hA hk

theorem State.mapScalers_keeps {A : Nat} {z : State} {s : State} {f : Nat → CheckedUnit → CheckedUnit} (hA : 0x80000000 &&& A = 0x80000000) (hk : Keeps A z s) :
    Keeps A z (State.mapScalers s f) :=
  Keeps.upd hk rfl rfl rfl rfl rfl rfl rfl rfl id (by intro p hp; cases p <;> first | exact Part.inside hA hp rfl | rfl)

theorem State.setTc_keeps {A : Nat} {z : State} {s : State} {n : Nat} {v : Processor} (hA : 0x800000000 &&& A = 0x800000000) (hk : Keeps A z s) :
    Keeps A z (State.setTc s n v) :=
  Keeps.upd hk rfl rfl rfl rfl rfl rfl rfl rfl id (by intro p hp; cases p <;> first | exact Part.inside hA hp rfl | rfl)

theorem State.modTc_keeps {A : Nat} {z : State} {s : State} {n : Nat} {f : Processor → Processor} (hA : 0x800000000 &&& A = 0x800000000) (hk : Keeps A z s) :
    Keeps A z (State.modTc s n f) :=
  State.setTc_keeps hA hk

theorem State.mapTcs_keeps {A : Nat} {z : State} {s : State} {f : Nat → Processor → Processor} (hA : 0x800000000 &&& A = 0x800000000) (hk : Keeps A z s) :
    Keeps A z (State.mapTcs s f) :=
  Keeps.upd hk rfl rfl rfl rfl rfl rfl rfl rfl id (by intro p hp; cases p <;> first | exact Part.inside hA hp rfl | rfl)

theorem State.setSource_keeps {A : Nat} {z : State} {s : State} {n : Nat} {v : IrqSource} (hA : 0x800000000 &&& A = 0x800000000) (hk : Keeps A z s) :
    Keeps A z (State.setSource s n v) :=
  Keeps.upd hk rfl rfl rfl rfl rfl rfl rfl rfl id (by intro p hp; cases p <;> first | exact Part.inside hA hp rfl | rfl)

theorem State.modSource_keeps {A : Nat} {z : State} {s : State} {n : Nat} {f : IrqSource → IrqSource} (hA : 0x800000000 &&& A = 0x800000000) (hk : Keeps A z s) :
    Keeps A z (State.modSource s n f) :=
  State.setSource_keeps hA hk

theorem State.mapSources_keeps {A : Nat} {z : State} {s : State} {f : Nat → IrqSource → IrqSource} (hA : 0x800000000 &&& A = 0x800000000) (hk : Keeps A z s) :
    Keeps A z (State.mapSources s f) :=
  Keeps.upd hk rfl rfl rfl rfl rfl rfl rfl rfl id (by intro p hp; cases p <;> first | exact Part.inside hA hp rfl | rfl)

theorem State.setTimer_keeps {A : Nat} {z : State} {s : State} {n : Nat} {v : RtTimer} (hA : 0x800000000 &&& A = 0x800000000) (hk : Keeps A z s) :
    Keeps A z (State.setTimer s n v) :=
  Keeps.upd hk rfl rfl rfl rfl rfl rfl rfl rfl id (by intro p hp; cases p <;> first | exact Part.inside hA hp rfl | rfl)

theorem State.modTimer_keeps {A : Nat} {z : State} {s : State} {n : Nat} {f : RtTimer → RtTimer} (hA : 0x800000000 &&& A = 0x800000000) (hk : Keeps A z s) :
    Keeps A z (State.modTimer s n f) :=
  State.setTimer_keeps hA hk

theorem State.mapTimers_keeps {A : Nat} {z : State} {s : State} {f : Nat → RtTimer → RtTimer} (hA : 0x800000000 &&& A = 0x800000000) (hk : Keeps A z s) :
    Keeps A z (State.mapTimers s f) :=
  Keeps.upd hk rfl rfl rfl rfl rfl rfl rfl rfl id (by intro p hp; cases p <;> first | exact Part.inside hA hp rfl | rfl)

theorem State.setCheck_keeps {A : Nat} {z : State} {s : State} {n : Nat} {v : CheckChannel} (hA : 0x800000000 &&& A = 0x800000000) (hk : Keeps A z s) :
    Keeps A z (State.setCheck s n v) :=
  Keeps.upd hk rfl rfl rfl rfl rfl rfl rfl rfl id (by intro p hp; cases p <;> first | exact Part.inside hA hp rfl | rfl)

theorem State.modCheck_keeps {A : Nat} {z : State} {s : State} {n : Nat} {f : CheckChannel → CheckChannel} (hA : 0x800000000 &&& A = 0x800000000) (hk : Keeps A z s) :
    Keeps A z (State.modCheck s n f) :=
  State.setCheck_keeps hA hk

theorem State.mapChecks_keeps {A : Nat} {z : State} {s : State} {f : Nat → CheckChannel → CheckChannel} (hA : 0x800000000 &&& A = 0x800000000) (hk : Keeps A z s) :
    Keeps A z (State.mapChecks s f) :=
  Keeps.upd hk rfl rfl rfl rfl rfl rfl rfl rfl id (by intro p hp; cases p <;> first | exact Part.inside hA hp rfl | rfl)

theorem State.setSession_keeps {A : Nat} {z : State} {s : State} {n : Nat} {v : Session} (hA : 0x1000000000 &&& A = 0x1000000000) (hk : Keeps A z s) :
    Keeps A z (State.setSession s n v) :=
  Keeps.upd hk rfl rfl rfl rfl rfl rfl rfl rfl id (by intro p hp; cases p <;> first | exact Part.inside hA hp rfl | rfl)

theorem State.modSession_keeps {A : Nat} {z : State} {s : State} {n : Nat} {f : Session → Session} (hA : 0x1000000000 &&& A = 0x1000000000) (hk : Keeps A z s) :
    Keeps A z (State.modSession s n f) :=
  State.setSession_keeps hA hk

theorem State.mapSessions_keeps {A : Nat} {z : State} {s : State} {f : Nat → Session → Session} (hA : 0x1000000000 &&& A = 0x1000000000) (hk : Keeps A z s) :
    Keeps A z (State.mapSessions s f) :=
  Keeps.upd hk rfl rfl rfl rfl rfl rfl rfl rfl id (by intro p hp; cases p <;> first | exact Part.inside hA hp rfl | rfl)

theorem State.setSlot_keeps {A : Nat} {z : State} {s : State} {n : Nat} {v : OwnerSlot} (hA : 0x1000000000 &&& A = 0x1000000000) (hk : Keeps A z s) :
    Keeps A z (State.setSlot s n v) :=
  Keeps.upd hk rfl rfl rfl rfl rfl rfl rfl rfl id (by intro p hp; cases p <;> first | exact Part.inside hA hp rfl | rfl)

theorem State.modSlot_keeps {A : Nat} {z : State} {s : State} {n : Nat} {f : OwnerSlot → OwnerSlot} (hA : 0x1000000000 &&& A = 0x1000000000) (hk : Keeps A z s) :
    Keeps A z (State.modSlot s n f) :=
  State.setSlot_keeps hA hk

theorem State.mapSlots_keeps {A : Nat} {z : State} {s : State} {f : Nat → OwnerSlot → OwnerSlot} (hA : 0x1000000000 &&& A = 0x1000000000) (hk : Keeps A z s) :
    Keeps A z (State.mapSlots s f) :=
  Keeps.upd hk rfl rfl rfl rfl rfl rfl rfl rfl id (by intro p hp; cases p <;> first | exact Part.inside hA hp rfl | rfl)

theorem State.setMchan_keeps {A : Nat} {z : State} {s : State} {n : Nat} {v : MemChan} (hA : 0x200000000 &&& A = 0x200000000) (hk : Keeps A z s) :
    Keeps A z (State.setMchan s n v) :=
  Keeps.upd hk rfl rfl rfl rfl rfl rfl rfl rfl id (by intro p hp; cases p <;> first | exact Part.inside hA hp rfl | rfl)

theorem State.modMchan_keeps {A : Nat} {z : State} {s : State} {n : Nat} {f : MemChan → MemChan} (hA : 0x200000000 &&& A = 0x200000000) (hk : Keeps A z s) :
    Keeps A z (State.modMchan s n f) :=
  State.setMchan_keeps hA hk

theorem State.mapMchans_keeps {A : Nat} {z : State} {s : State} {f : Nat → MemChan → MemChan} (hA : 0x200000000 &&& A = 0x200000000) (hk : Keeps A z s) :
    Keeps A z (State.mapMchans s f) :=
  Keeps.upd hk rfl rfl rfl rfl rfl rfl rfl rfl id (by intro p hp; cases p <;> first | exact Part.inside hA hp rfl | rfl)

theorem State.setMic_keeps {A : Nat} {z : State} {s : State} {n : Nat} {v : Mic} (hA : 0x100000000 &&& A = 0x100000000) (hk : Keeps A z s) :
    Keeps A z (State.setMic s n v) :=
  Keeps.upd hk rfl rfl rfl rfl rfl rfl rfl rfl id (by intro p hp; cases p <;> first | exact Part.inside hA hp rfl | rfl)

theorem State.modMic_keeps {A : Nat} {z : State} {s : State} {n : Nat} {f : Mic → Mic} (hA : 0x100000000 &&& A = 0x100000000) (hk : Keeps A z s) :
    Keeps A z (State.modMic s n f) :=
  State.setMic_keeps hA hk

theorem State.mapMics_keeps {A : Nat} {z : State} {s : State} {f : Nat → Mic → Mic} (hA : 0x100000000 &&& A = 0x100000000) (hk : Keeps A z s) :
    Keeps A z (State.mapMics s f) :=
  Keeps.upd hk rfl rfl rfl rfl rfl rfl rfl rfl id (by intro p hp; cases p <;> first | exact Part.inside hA hp rfl | rfl)

theorem State.setDomTemp_keeps {A : Nat} {z : State} {s : State} {n : Nat} {v : DomainTemp} (hA : 0x2000000000 &&& A = 0x2000000000) (hk : Keeps A z s) :
    Keeps A z (State.setDomTemp s n v) :=
  Keeps.upd hk rfl rfl rfl rfl rfl rfl rfl rfl id (by intro p hp; cases p <;> first | exact Part.inside hA hp rfl | rfl)

theorem State.modDomTemp_keeps {A : Nat} {z : State} {s : State} {n : Nat} {f : DomainTemp → DomainTemp} (hA : 0x2000000000 &&& A = 0x2000000000) (hk : Keeps A z s) :
    Keeps A z (State.modDomTemp s n f) :=
  State.setDomTemp_keeps hA hk

theorem State.mapDomTemps_keeps {A : Nat} {z : State} {s : State} {f : Nat → DomainTemp → DomainTemp} (hA : 0x2000000000 &&& A = 0x2000000000) (hk : Keeps A z s) :
    Keeps A z (State.mapDomTemps s f) :=
  Keeps.upd hk rfl rfl rfl rfl rfl rfl rfl rfl id (by intro p hp; cases p <;> first | exact Part.inside hA hp rfl | rfl)

theorem State.setTap_keeps {A : Nat} {z : State} {s : State} {n : Nat} {v : Tap} (hA : 0x400000000 &&& A = 0x400000000) (hk : Keeps A z s) :
    Keeps A z (State.setTap s n v) :=
  Keeps.upd hk rfl rfl rfl rfl rfl rfl rfl rfl id (by intro p hp; cases p <;> first | exact Part.inside hA hp rfl | rfl)

theorem State.modTap_keeps {A : Nat} {z : State} {s : State} {n : Nat} {f : Tap → Tap} (hA : 0x400000000 &&& A = 0x400000000) (hk : Keeps A z s) :
    Keeps A z (State.modTap s n f) :=
  State.setTap_keeps hA hk

theorem State.mapTaps_keeps {A : Nat} {z : State} {s : State} {f : Nat → Tap → Tap} (hA : 0x400000000 &&& A = 0x400000000) (hk : Keeps A z s) :
    Keeps A z (State.mapTaps s f) :=
  Keeps.upd hk rfl rfl rfl rfl rfl rfl rfl rfl id (by intro p hp; cases p <;> first | exact Part.inside hA hp rfl | rfl)

theorem State.modClock_keeps {A : Nat} {z : State} {s : State} {f : Clock → Clock} (hA : 0x80 &&& A = 0x80) (hk : Keeps A z s) (hf : ∀ c, (f c).now = c.now) :
    Keeps A z (State.modClock s f) :=
  Keeps.upd hk rfl (hf _) rfl rfl rfl rfl rfl rfl id (by intro p hp; cases p <;> first | exact Part.inside hA hp rfl | rfl)

theorem State.modServo_keeps {A : Nat} {z : State} {s : State} {f : Servo → Servo} (hA : 0x100 &&& A = 0x100) (hk : Keeps A z s) :
    Keeps A z (State.modServo s f) :=
  Keeps.upd hk rfl rfl rfl rfl rfl rfl rfl rfl id (by intro p hp; cases p <;> first | exact Part.inside hA hp rfl | rfl)

theorem State.modIm_keeps {A : Nat} {z : State} {s : State} {f : ImageManager → ImageManager} (hA : 0x1000 &&& A = 0x1000) (hk : Keeps A z s) :
    Keeps A z (State.modIm s f) :=
  Keeps.upd hk rfl rfl rfl rfl rfl rfl rfl rfl id (by intro p hp; cases p <;> first | exact Part.inside hA hp rfl | rfl)

theorem State.modCommits_keeps {A : Nat} {z : State} {s : State} {f : Commits → Commits} (hA : 0x2000 &&& A = 0x2000) (hk : Keeps A z s) :
    Keeps A z (State.modCommits s f) :=
  Keeps.upd hk rfl rfl rfl rfl rfl rfl rfl rfl id (by intro p hp; cases p <;> first | exact Part.inside hA hp rfl | rfl)

theorem State.modRoll_keeps {A : Nat} {z : State} {s : State} {f : Roll → Roll} (hA : 0x4000 &&& A = 0x4000) (hk : Keeps A z s) :
    Keeps A z (State.modRoll s f) :=
  Keeps.upd hk rfl rfl rfl rfl rfl rfl rfl rfl id (by intro p hp; cases p <;> first | exact Part.inside hA hp rfl | rfl)

theorem State.modFt_keeps {A : Nat} {z : State} {s : State} {f : FlowTable → FlowTable} (hA : 0x100000 &&& A = 0x100000) (hk : Keeps A z s) :
    Keeps A z (State.modFt s f) :=
  Keeps.upd hk rfl rfl rfl rfl rfl rfl rfl rfl id (by intro p hp; cases p <;> first | exact Part.inside hA hp rfl | rfl)

theorem State.modPair_keeps {A : Nat} {z : State} {s : State} {f : Pair → Pair} (hA : 0x10000000 &&& A = 0x10000000) (hk : Keeps A z s) :
    Keeps A z (State.modPair s f) :=
  Keeps.upd hk rfl rfl rfl rfl rfl rfl rfl rfl id (by intro p hp; cases p <;> first | exact Part.inside hA hp rfl | rfl)

theorem State.modAudio_keeps {A : Nat} {z : State} {s : State} {f : Audio → Audio} (hA : 0x100000000 &&& A = 0x100000000) (hk : Keeps A z s) :
    Keeps A z (State.modAudio s f) :=
  Keeps.upd hk rfl rfl rfl rfl rfl rfl rfl rfl id (by intro p hp; cases p <;> first | exact Part.inside hA hp rfl | rfl)

theorem State.modMemory_keeps {A : Nat} {z : State} {s : State} {f : Memory → Memory} (hA : 0x200000000 &&& A = 0x200000000) (hk : Keeps A z s) :
    Keeps A z (State.modMemory s f) :=
  Keeps.upd hk rfl rfl rfl rfl rfl rfl rfl rfl id (by intro p hp; cases p <;> first | exact Part.inside hA hp rfl | rfl)

theorem State.modRecorder_keeps {A : Nat} {z : State} {s : State} {f : Recorder → Recorder} (hA : 0x400000000 &&& A = 0x400000000) (hk : Keeps A z s) :
    Keeps A z (State.modRecorder s f) :=
  Keeps.upd hk rfl rfl rfl rfl rfl rfl rfl rfl id (by intro p hp; cases p <;> first | exact Part.inside hA hp rfl | rfl)

theorem State.modCores_keeps {A : Nat} {z : State} {s : State} {f : Cores → Cores} (hA : 0x800000000 &&& A = 0x800000000) (hk : Keeps A z s) :
    Keeps A z (State.modCores s f) :=
  Keeps.upd hk rfl rfl rfl rfl rfl rfl rfl rfl id (by intro p hp; cases p <;> first | exact Part.inside hA hp rfl | rfl)

theorem State.modMdp_keeps {A : Nat} {z : State} {s : State} {f : Mdp → Mdp} (hA : 0x1000000000 &&& A = 0x1000000000) (hk : Keeps A z s) :
    Keeps A z (State.modMdp s f) :=
  Keeps.upd hk rfl rfl rfl rfl rfl rfl rfl rfl id (by intro p hp; cases p <;> first | exact Part.inside hA hp rfl | rfl)

theorem State.modHull_keeps {A : Nat} {z : State} {s : State} {f : Hull → Hull} (hA : 0x2000000000 &&& A = 0x2000000000) (hk : Keeps A z s) :
    Keeps A z (State.modHull s f) :=
  Keeps.upd hk rfl rfl rfl rfl rfl rfl rfl rfl id (by intro p hp; cases p <;> first | exact Part.inside hA hp rfl | rfl)

theorem State.modLedger_keeps {A : Nat} {z : State} {s : State} {f : Ledger → Ledger} (hA : 0x4000000000 &&& A = 0x4000000000) (hk : Keeps A z s) (hf : ∀ c, (f c).outbox = c.outbox) :
    Keeps A z (State.modLedger s f) :=
  Keeps.upd hk rfl rfl rfl rfl rfl rfl rfl (hf _) id (by intro p hp; cases p <;> first | exact Part.inside hA hp rfl | rfl)

theorem State.modStartup_keeps {A : Nat} {z : State} {s : State} {f : Startup → Startup} (hA : 0x8000000000 &&& A = 0x8000000000) (hk : Keeps A z s) (hf : ∀ c, 2 ≤ c.phase → 2 ≤ (f c).phase) :
    Keeps A z (State.modStartup s f) :=
  Keeps.upd hk rfl rfl rfl rfl rfl rfl rfl rfl (hf _) (by intro p hp; cases p <;> first | exact Part.inside hA hp rfl | rfl)

theorem State.log_keeps {A : Nat} {z : State} {s : State} {c : FaultClass} {ctrl : Nat} {data : List Byte} (hA : 0x4000000000 &&& A = 0x4000000000) (hk : Keeps A z s) :
    Keeps A z (State.log s c ctrl data) := by
  unfold State.log
  repeat' first
    | with_reducible assumption
    | ((with_reducible refine Part.sub hA ?_); rfl)
    | (extract_lets +onlyGivenNames y; refine Keeps.cut (y := y) ?_ (fun hy => ?_) <;> [(unfold y; clear y); (clear_value y; rename' y => w)])
    | (extract_lets +onlyGivenNames y; clear_value y; rename' y => w)
    | (extract_lets +onlyGivenNames y; rename' y => w)
    | with_reducible apply State.logEntry_keeps
    | split
    | dsimp -zeta only

theorem State.logOut_keeps {A : Nat} {z : State} {s : State} {c : FaultClass} {ctrl dp : Nat} {outs : List (Output × Nat)} {data : List Byte} (hA : 0x4000000000 &&& A = 0x4000000000) (hk : Keeps A z s) :
    Keeps A z (State.logOut s c ctrl dp outs data) := by
  unfold State.logOut
  repeat' first
    | with_reducible assumption
    | ((with_reducible refine Part.sub hA ?_); rfl)
    | (extract_lets +onlyGivenNames y; refine Keeps.cut (y := y) ?_ (fun hy => ?_) <;> [(unfold y; clear y); (clear_value y; rename' y => w)])
    | (extract_lets +onlyGivenNames y; clear_value y; rename' y => w)
    | (extract_lets +onlyGivenNames y; rename' y => w)
    | with_reducible apply State.logEntry_keeps
    | split
    | dsimp -zeta only

theorem State.logData_keeps {A : Nat} {z : State} {s : State} {c : FaultClass} {ctrl dp : Nat} {data : List Byte} (hA : 0x4000000000 &&& A = 0x4000000000) (hk : Keeps A z s) :
    Keeps A z (State.logData s c ctrl dp data) := by
  unfold State.logData
  repeat' first
    | with_reducible assumption
    | ((with_reducible refine Part.sub hA ?_); rfl)
    | (extract_lets +onlyGivenNames y; refine Keeps.cut (y := y) ?_ (fun hy => ?_) <;> [(unfold y; clear y); (clear_value y; rename' y => w)])
    | (extract_lets +onlyGivenNames y; clear_value y; rename' y => w)
    | (extract_lets +onlyGivenNames y; rename' y => w)
    | with_reducible apply State.logEntry_keeps
    | split
    | dsimp -zeta only

theorem State.logRated_keeps {A : Nat} {z : State} {s : State} {c : FaultClass} {inst ctrl dp : Nat} {data : Nat → List Byte} {dataOnly : Bool} {stamp : Stamp} (hA : 0x4000000000 &&& A = 0x4000000000) (hk : Keeps A z s) :
    Keeps A z (State.logRated s c inst ctrl dp data dataOnly stamp) := by
  unfold State.logRated
  repeat' first
    | with_reducible assumption
    | ((with_reducible refine Part.sub hA ?_); rfl)
    | (extract_lets +onlyGivenNames y; refine Keeps.cut (y := y) ?_ (fun hy => ?_) <;> [(unfold y; clear y); rename' y => w])
    | (extract_lets +onlyGivenNames y; rename' y => w)
    | with_reducible apply State.logEntry_keeps
    | split
    | (with_reducible refine Keeps.change ?_ rfl rfl rfl rfl rfl rfl rfl rfl id ?_)
    | (intro p hp; cases p <;> first | exact Part.inside hA hp rfl | rfl)
    | dsimp -zeta only

theorem State.answer_keeps {A : Nat} {z : State} {s : State} {v : Word} (hA : 0x10 &&& A = 0x10) (hk : Keeps A z s) :
    Keeps A z (State.answer s v) :=
  Keeps.upd hk rfl rfl rfl rfl rfl rfl rfl rfl id (by intro p hp; cases p <;> first | exact Part.inside hA hp rfl | rfl)

end Sys2Proof.Machine
end

