-- ==== Sys2Proof/Laws/KeepFlags.lean ====
section
/-!
SUPPORT. Keeps for the operations of Machine/Flags.lean.
-/

namespace Sys2Proof.Machine

theorem State.wakeTarget_keeps {A : Nat} {z : State} {s : State} {t : Nat} (hA : 0x800000000 &&& A = 0x800000000) (hk : Keeps A z s) :
    Keeps A z (State.wakeTarget s t) := by
  unfold State.wakeTarget
  repeat' first
    | with_reducible assumption
    | ((with_reducible refine Part.sub hA ?_); rfl)
    | (extract_lets +onlyGivenNames y; refine Keeps.cut (y := y) ?_ (fun hy => ?_) <;> [(unfold y; clear y); (clear_value y; rename' y => w)])
    | (extract_lets +onlyGivenNames y; clear_value y; rename' y => w)
    | (extract_lets +onlyGivenNames y; rename' y => w)
    | with_reducible apply State.modTc_keeps
    | split
    | (with_reducible refine Keeps.change ?_ rfl rfl rfl rfl rfl rfl rfl rfl id ?_)
    | (intro p hp; cases p <;> first | exact Part.inside hA hp rfl | rfl)
    | dsimp -zeta only

theorem State.arbitrate_keeps {A : Nat} {z : State} {s : State} (hA : 0x800000000 &&& A = 0x800000000) (hk : Keeps A z s) :
    Keeps A z (State.arbitrate s) := by
  unfold State.arbitrate
  repeat' first
    | with_reducible assumption
    | ((with_reducible refine Part.sub hA ?_); rfl)
    | (extract_lets +onlyGivenNames y; refine Keeps.cut (y := y) ?_ (fun hy => ?_) <;> [(unfold y; clear y); (clear_value y; rename' y => w)])
    | (extract_lets +onlyGivenNames y; clear_value y; rename' y => w)
    | (extract_lets +onlyGivenNames y; rename' y => w)
    | with_reducible apply State.mapSources_keeps
    | with_reducible apply State.wakeTarget_keeps
    | (with_reducible apply Keeps.foldl; intro y b hy)
    | (with_reducible apply Keeps.foldl_fst; intro y b hy)
    | split
    | dsimp -zeta only

theorem State.irqCount_keeps {A : Nat} {z : State} {s : State} {n : Nat} (hA : 0x4800000001 &&& A = 0x4800000001) (hk : Keeps A z s) :
    Keeps A z (State.irqCount s n) := by
  unfold State.irqCount
  repeat' first
    | with_reducible assumption
    | ((with_reducible refine Part.sub hA ?_); rfl)
    | (extract_lets +onlyGivenNames y; refine Keeps.cut (y := y) ?_ (fun hy => ?_) <;> [(unfold y; clear y); (clear_value y; rename' y => w)])
    | (extract_lets +onlyGivenNames y; clear_value y; rename' y => w)
    | (extract_lets +onlyGivenNames y; rename' y => w)
    | with_reducible apply State.count_keeps
    | with_reducible apply State.setSource_keeps
    | with_reducible apply State.log_keeps
    | with_reducible apply State.arbitrate_keeps
    | split
    | dsimp -zeta only

theorem State.event_keeps {A : Nat} {z : State} {s : State} {events mask : Nat} (hA : 0x4800000005 &&& A = 0x4800000005) (hk : Keeps A z s) :
    Keeps A z (State.event s events mask) := by
  unfold State.event
  repeat' first
    | with_reducible assumption
    | ((with_reducible refine Part.sub hA ?_); rfl)
    | (extract_lets +onlyGivenNames y; refine Keeps.cut (y := y) ?_ (fun hy => ?_) <;> [(unfold y; clear y); (clear_value y; rename' y => w)])
    | (extract_lets +onlyGivenNames y; clear_value y; rename' y => w)
    | (extract_lets +onlyGivenNames y; rename' y => w)
    | with_reducible apply State.setReg_keeps
    | with_reducible apply State.modSource_keeps
    | with_reducible apply State.irqCount_keeps
    | split
    | (with_reducible refine Keeps.change ?_ rfl rfl rfl rfl rfl rfl rfl rfl id ?_)
    | (intro p hp; cases p <;> first | exact Part.inside hA hp rfl | rfl)
    | dsimp -zeta only

theorem State.eventClear_keeps {A : Nat} {z : State} {s : State} {events : Nat} {ones : Word} (hA : 0x1 &&& A = 0x1) (hk : Keeps A z s) :
    Keeps A z (State.eventClear s events ones) := by
  unfold State.eventClear
  repeat' first
    | with_reducible assumption
    | ((with_reducible refine Part.sub hA ?_); rfl)
    | (extract_lets +onlyGivenNames y; refine Keeps.cut (y := y) ?_ (fun hy => ?_) <;> [(unfold y; clear y); (clear_value y; rename' y => w)])
    | (extract_lets +onlyGivenNames y; clear_value y; rename' y => w)
    | (extract_lets +onlyGivenNames y; rename' y => w)
    | with_reducible apply State.setReg_keeps
    | split
    | dsimp -zeta only

theorem State.eventEnable_keeps {A : Nat} {z : State} {s : State} {enable : Nat} {value : Word} (hA : 0x4800000001 &&& A = 0x4800000001) (hk : Keeps A z s) :
    Keeps A z (State.eventEnable s enable value) := by
  unfold State.eventEnable
  repeat' first
    | with_reducible assumption
    | ((with_reducible refine Part.sub hA ?_); rfl)
    | (extract_lets +onlyGivenNames y; refine Keeps.cut (y := y) ?_ (fun hy => ?_) <;> [(unfold y; clear y); (clear_value y; rename' y => w)])
    | (extract_lets +onlyGivenNames y; clear_value y; rename' y => w)
    | (extract_lets +onlyGivenNames y; rename' y => w)
    | with_reducible apply State.setReg_keeps
    | with_reducible apply State.modSource_keeps
    | with_reducible apply State.irqCount_keeps
    | split
    | dsimp -zeta only

theorem State.leaveService_keeps {A : Nat} {z : State} {s : State} {t : Nat} (hA : 0x800000000 &&& A = 0x800000000) (hk : Keeps A z s) :
    Keeps A z (State.leaveService s t) := by
  unfold State.leaveService
  repeat' first
    | with_reducible assumption
    | ((with_reducible refine Part.sub hA ?_); rfl)
    | (extract_lets +onlyGivenNames y; refine Keeps.cut (y := y) ?_ (fun hy => ?_) <;> [(unfold y; clear y); (clear_value y; rename' y => w)])
    | (extract_lets +onlyGivenNames y; clear_value y; rename' y => w)
    | (extract_lets +onlyGivenNames y; rename' y => w)
    | with_reducible apply State.mapSources_keeps
    | with_reducible apply State.arbitrate_keeps
    | split
    | dsimp -zeta only

end Sys2Proof.Machine
end

