-- ==== Sys2Proof/Laws/KeepNet.lean ====
section
/-!
SUPPORT. Keeps for the operations of Machine/Net.lean.
-/

namespace Sys2Proof.Machine

theorem State.setQueue_keeps {A : Nat} {z : State} {s : State} {p : Nat} {q : List QPacket} (hA : 0x8000000 &&& A = 0x8000000) (hk : Keeps A z s) :
    Keeps A z (State.setQueue s p q) := by
  unfold State.setQueue
  repeat' first
    | with_reducible assumption
    | ((with_reducible refine Part.sub hA ?_); rfl)
    | (extract_lets +onlyGivenNames y; refine Keeps.cut (y := y) ?_ (fun hy => ?_) <;> [(unfold y; clear y); (clear_value y; rename' y => w)])
    | (extract_lets +onlyGivenNames y; clear_value y; rename' y => w)
    | (extract_lets +onlyGivenNames y; rename' y => w)
    | split
    | (with_reducible refine Keeps.change ?_ rfl rfl rfl rfl rfl rfl rfl rfl id ?_)
    | (intro p hp; cases p <;> first | exact Part.inside hA hp rfl | rfl)
    | dsimp -zeta only

theorem State.txFrame_keeps {A : Nat} {z : State} {s : State} {p : Nat} (hA : 0x1 &&& A = 0x1) (hk : Keeps A z s) :
    Keeps A z (State.txFrame s p) := by
  unfold State.txFrame
  repeat' first
    | with_reducible assumption
    | ((with_reducible refine Part.sub hA ?_); rfl)
    | (extract_lets +onlyGivenNames y; refine Keeps.cut (y := y) ?_ (fun hy => ?_) <;> [(unfold y; clear y); (clear_value y; rename' y => w)])
    | (extract_lets +onlyGivenNames y; clear_value y; rename' y => w)
    | (extract_lets +onlyGivenNames y; rename' y => w)
    | with_reducible apply State.count_keeps
    | split
    | dsimp -zeta only

theorem State.startOther_keeps {A : Nat} {z : State} {s : State} {p n : Nat} {x : Sent} (hA : 0x40021 &&& A = 0x40021) (hk : Keeps A z s) :
    Keeps A z (State.startOther s p n x) := by
  unfold State.startOther
  repeat' first
    | with_reducible assumption
    | ((with_reducible refine Part.sub hA ?_); rfl)
    | (extract_lets +onlyGivenNames y; refine Keeps.cut (y := y) ?_ (fun hy => ?_) <;> [(unfold y; clear y); (clear_value y; rename' y => w)])
    | (extract_lets +onlyGivenNames y; clear_value y; rename' y => w)
    | (extract_lets +onlyGivenNames y; rename' y => w)
    | with_reducible apply State.modPort_keeps
    | with_reducible apply State.send_keeps
    | with_reducible apply State.txFrame_keeps
    | split
    | dsimp -zeta only

theorem State.sendOther_keeps {A : Nat} {z : State} {s : State} {p n : Nat} {x : Sent} (hA : 0x40021 &&& A = 0x40021) (hk : Keeps A z s) :
    Keeps A z (State.sendOther s p n x) := by
  unfold State.sendOther
  repeat' first
    | with_reducible assumption
    | ((with_reducible refine Part.sub hA ?_); rfl)
    | (extract_lets +onlyGivenNames y; refine Keeps.cut (y := y) ?_ (fun hy => ?_) <;> [(unfold y; clear y); (clear_value y; rename' y => w)])
    | (extract_lets +onlyGivenNames y; clear_value y; rename' y => w)
    | (extract_lets +onlyGivenNames y; rename' y => w)
    | with_reducible apply State.modPort_keeps
    | with_reducible apply State.send_keeps
    | with_reducible apply State.txFrame_keeps
    | with_reducible apply State.startOther_keeps
    | split
    | dsimp -zeta only

theorem State.nextOther_keeps {A : Nat} {z : State} {s : State} {p : Nat} (hA : 0x40021 &&& A = 0x40021) (hk : Keeps A z s) :
    Keeps A z (State.nextOther s p) := by
  unfold State.nextOther
  repeat' first
    | with_reducible assumption
    | ((with_reducible refine Part.sub hA ?_); rfl)
    | (extract_lets +onlyGivenNames y; refine Keeps.cut (y := y) ?_ (fun hy => ?_) <;> [(unfold y; clear y); (clear_value y; rename' y => w)])
    | (extract_lets +onlyGivenNames y; clear_value y; rename' y => w)
    | (extract_lets +onlyGivenNames y; rename' y => w)
    | with_reducible apply State.modPort_keeps
    | with_reducible apply State.startOther_keeps
    | split
    | dsimp -zeta only

theorem State.sendMedia_keeps {A : Nat} {z : State} {s : State} {path rtp : List Byte} (hA : 0x21 &&& A = 0x21) (hk : Keeps A z s) :
    Keeps A z (State.sendMedia s path rtp) := by
  unfold State.sendMedia
  repeat' first
    | with_reducible assumption
    | ((with_reducible refine Part.sub hA ?_); rfl)
    | (extract_lets +onlyGivenNames y; refine Keeps.cut (y := y) ?_ (fun hy => ?_) <;> [(unfold y; clear y); (clear_value y; rename' y => w)])
    | (extract_lets +onlyGivenNames y; clear_value y; rename' y => w)
    | (extract_lets +onlyGivenNames y; rename' y => w)
    | with_reducible apply State.send_keeps
    | with_reducible apply State.txFrame_keeps
    | split
    | dsimp -zeta only

end Sys2Proof.Machine
end

