-- ==== Sys2Proof/Laws/KeepHeadPacket.lean ====
section
/-!
SUPPORT. Keeps for the operations of Machine/HeadPacket.lean.
-/

namespace Sys2Proof.Machine

theorem State.headGap_keeps {A : Nat} {z : State} {s : State} {n : Nat} {pathB : Bool} (hA : 0x20000021 &&& A = 0x20000021) (hk : Keeps A z s) :
    Keeps A z (State.headGap s n pathB) := by
  unfold State.headGap
  repeat' first
    | with_reducible assumption
    | ((with_reducible refine Part.sub hA ?_); rfl)
    | (extract_lets +onlyGivenNames y; refine Keeps.cut (y := y) ?_ (fun hy => ?_) <;> [(unfold y; clear y); (clear_value y; rename' y => w)])
    | (extract_lets +onlyGivenNames y; clear_value y; rename' y => w)
    | (extract_lets +onlyGivenNames y; rename' y => w)
    | with_reducible apply State.count_keeps
    | with_reducible apply State.modHead_keeps
    | with_reducible apply State.sendMedia_keeps
    | split
    | dsimp -zeta only

theorem State.headSend_keeps {A : Nat} {z : State} {s : State} {n : Nat} {packet : Nat → List Byte} (hA : 0x20000021 &&& A = 0x20000021) (hk : Keeps A z s) :
    Keeps A z (State.headSend s n packet) := by
  unfold State.headSend
  repeat' first
    | with_reducible assumption
    | ((with_reducible refine Part.sub hA ?_); rfl)
    | (extract_lets +onlyGivenNames y; refine Keeps.cut (y := y) ?_ (fun hy => ?_) <;> [(unfold y; clear y); (clear_value y; rename' y => w)])
    | (extract_lets +onlyGivenNames y; clear_value y; rename' y => w)
    | (extract_lets +onlyGivenNames y; rename' y => w)
    | with_reducible apply State.count_keeps
    | with_reducible apply State.modHead_keeps
    | with_reducible apply State.sendMedia_keeps
    | with_reducible apply State.headGap_keeps
    | (with_reducible apply Keeps.foldl; intro y b hy)
    | (with_reducible apply Keeps.foldl_fst; intro y b hy)
    | split
    | dsimp -zeta only

theorem State.headEov_keeps {A : Nat} {z : State} {s : State} {n reason : Nat} (hA : 0x20000021 &&& A = 0x20000021) (hk : Keeps A z s) :
    Keeps A z (State.headEov s n reason) := by
  unfold State.headEov
  repeat' first
    | with_reducible assumption
    | ((with_reducible refine Part.sub hA ?_); rfl)
    | (extract_lets +onlyGivenNames y; refine Keeps.cut (y := y) ?_ (fun hy => ?_) <;> [(unfold y; clear y); (clear_value y; rename' y => w)])
    | (extract_lets +onlyGivenNames y; clear_value y; rename' y => w)
    | (extract_lets +onlyGivenNames y; rename' y => w)
    | with_reducible apply State.count_keeps
    | with_reducible apply State.modHead_keeps
    | with_reducible apply State.headSend_keeps
    | split
    | dsimp -zeta only

end Sys2Proof.Machine
end

