-- ==== Sys2Proof/Laws/KeepPress.lean ====
section
/-!
SUPPORT. Keeps for the operations of Machine/Press.lean.
-/

namespace Sys2Proof.Machine

theorem State.setQ_keeps {A : Nat} {z : State} {s : State} {c col q : Nat} (hA : 0x800000 &&& A = 0x800000) (hk : Keeps A z s) :
    Keeps A z (State.setQ s c col q) := by
  unfold State.setQ
  repeat' first
    | with_reducible assumption
    | ((with_reducible refine Part.sub hA ?_); rfl)
    | (extract_lets +onlyGivenNames y; refine Keeps.cut (y := y) ?_ (fun hy => ?_) <;> [(unfold y; clear y); (clear_value y; rename' y => w)])
    | (extract_lets +onlyGivenNames y; clear_value y; rename' y => w)
    | (extract_lets +onlyGivenNames y; rename' y => w)
    | with_reducible apply State.modChan_keeps
    | split
    | dsimp -zeta only

end Sys2Proof.Machine
end

