-- ==== Sys2Proof/Laws/KeepPacket.lean ====
section
/-!
SUPPORT. Keeps for the operations of Machine/Packet.lean.
-/

namespace Sys2Proof.Machine

theorem State.modGap_keeps {A : Nat} {z : State} {s : State} {c : Nat} {pathB : Bool} {f : PathGap → PathGap} (hA : 0x800000 &&& A = 0x800000) (hk : Keeps A z s) :
    Keeps A z (State.modGap s c pathB f) := by
  unfold State.modGap
  repeat' first
    | with_reducible assumption
    | ((with_reducible refine Part.sub hA ?_); rfl)
    | (extract_lets +onlyGivenNames y; refine Keeps.cut (y := y) ?_ (fun hy => ?_) <;> [(unfold y; clear y); (clear_value y; rename' y => w)])
    | (extract_lets +onlyGivenNames y; clear_value y; rename' y => w)
    | (extract_lets +onlyGivenNames y; rename' y => w)
    | with_reducible apply State.modChan_keeps
    | split
    | dsimp -zeta only

theorem State.enqueue_keeps {A : Nat} {z : State} {s : State} {q : QPacket} (hA : 0x8800000 &&& A = 0x8800000) (hk : Keeps A z s) :
    Keeps A z (State.enqueue s q) := by
  unfold State.enqueue
  repeat' first
    | with_reducible assumption
    | ((with_reducible refine Part.sub hA ?_); rfl)
    | (extract_lets +onlyGivenNames y; refine Keeps.cut (y := y) ?_ (fun hy => ?_) <;> [(unfold y; clear y); (clear_value y; rename' y => w)])
    | (extract_lets +onlyGivenNames y; clear_value y; rename' y => w)
    | (extract_lets +onlyGivenNames y; rename' y => w)
    | with_reducible apply State.setQueue_keeps
    | with_reducible apply State.modGap_keeps
    | split
    | dsimp -zeta only

theorem State.chanSend_keeps {A : Nat} {z : State} {s : State} {c kind frame rtp : Nat} {stamp : Stamp} {body : List Byte} {pixelAt firstAt : Nat} (hA : 0x8800000 &&& A = 0x8800000) (hk : Keeps A z s) :
    Keeps A z (State.chanSend s c kind frame rtp stamp body pixelAt firstAt) := by
  unfold State.chanSend
  repeat' first
    | with_reducible assumption
    | ((with_reducible refine Part.sub hA ?_); rfl)
    | (extract_lets +onlyGivenNames y; refine Keeps.cut (y := y) ?_ (fun hy => ?_) <;> [(unfold y; clear y); (clear_value y; rename' y => w)])
    | (extract_lets +onlyGivenNames y; clear_value y; rename' y => w)
    | (extract_lets +onlyGivenNames y; rename' y => w)
    | with_reducible apply State.modChan_keeps
    | with_reducible apply State.enqueue_keeps
    | (with_reducible apply Keeps.foldl; intro y b hy)
    | (with_reducible apply Keeps.foldl_fst; intro y b hy)
    | split
    | dsimp -zeta only

theorem State.sendGap_keeps {A : Nat} {z : State} {s : State} {c : Nat} {pathB : Bool} {first last cause : Nat} (hA : 0x8000001 &&& A = 0x8000001) (hk : Keeps A z s) :
    Keeps A z (State.sendGap s c pathB first last cause) := by
  unfold State.sendGap
  repeat' first
    | with_reducible assumption
    | ((with_reducible refine Part.sub hA ?_); rfl)
    | (extract_lets +onlyGivenNames y; refine Keeps.cut (y := y) ?_ (fun hy => ?_) <;> [(unfold y; clear y); (clear_value y; rename' y => w)])
    | (extract_lets +onlyGivenNames y; clear_value y; rename' y => w)
    | (extract_lets +onlyGivenNames y; rename' y => w)
    | with_reducible apply State.countBy_keeps
    | with_reducible apply State.count_keeps
    | with_reducible apply State.setQueue_keeps
    | split
    | dsimp -zeta only

theorem State.flushGap_keeps {A : Nat} {z : State} {s : State} {c : Nat} {pathB : Bool} (hA : 0x8800001 &&& A = 0x8800001) (hk : Keeps A z s) :
    Keeps A z (State.flushGap s c pathB) := by
  unfold State.flushGap
  repeat' first
    | with_reducible assumption
    | ((with_reducible refine Part.sub hA ?_); rfl)
    | (extract_lets +onlyGivenNames y; refine Keeps.cut (y := y) ?_ (fun hy => ?_) <;> [(unfold y; clear y); (clear_value y; rename' y => w)])
    | (extract_lets +onlyGivenNames y; clear_value y; rename' y => w)
    | (extract_lets +onlyGivenNames y; rename' y => w)
    | with_reducible apply State.modGap_keeps
    | with_reducible apply State.sendGap_keeps
    | split
    | dsimp -zeta only

theorem State.sendGaps_keeps {A : Nat} {z : State} {s : State} {p : Nat} (hA : 0x28800021 &&& A = 0x28800021) (hk : Keeps A z s) :
    Keeps A z (State.sendGaps s p) := by
  unfold State.sendGaps
  repeat' first
    | with_reducible assumption
    | ((with_reducible refine Part.sub hA ?_); rfl)
    | (extract_lets +onlyGivenNames y; refine Keeps.cut (y := y) ?_ (fun hy => ?_) <;> [(unfold y; clear y); (clear_value y; rename' y => w)])
    | (extract_lets +onlyGivenNames y; clear_value y; rename' y => w)
    | (extract_lets +onlyGivenNames y; rename' y => w)
    | with_reducible apply State.headGap_keeps
    | with_reducible apply State.flushGap_keeps
    | (with_reducible apply Keeps.foldl; intro y b hy)
    | (with_reducible apply Keeps.foldl_fst; intro y b hy)
    | split
    | dsimp -zeta only

theorem State.dropQueue_keeps {A : Nat} {z : State} {s : State} {p : Nat} (hA : 0x8840000 &&& A = 0x8840000) (hk : Keeps A z s) :
    Keeps A z (State.dropQueue s p) := by
  unfold State.dropQueue
  repeat' first
    | with_reducible assumption
    | ((with_reducible refine Part.sub hA ?_); rfl)
    | (extract_lets +onlyGivenNames y; refine Keeps.cut (y := y) ?_ (fun hy => ?_) <;> [(unfold y; clear y); (clear_value y; rename' y => w)])
    | (extract_lets +onlyGivenNames y; clear_value y; rename' y => w)
    | (extract_lets +onlyGivenNames y; rename' y => w)
    | with_reducible apply State.modPort_keeps
    | with_reducible apply State.setQueue_keeps
    | with_reducible apply State.modGap_keeps
    | (with_reducible apply Keeps.foldl; intro y b hy)
    | (with_reducible apply Keeps.foldl_fst; intro y b hy)
    | split
    | dsimp -zeta only

theorem State.curdLeft_keeps {A : Nat} {z : State} {s : State} {p : Nat} {q : QPacket} (hA : 0x4800800005 &&& A = 0x4800800005) (hk : Keeps A z s) :
    Keeps A z (State.curdLeft s p q) := by
  unfold State.curdLeft
  repeat' first
    | with_reducible assumption
    | ((with_reducible refine Part.sub hA ?_); rfl)
    | (extract_lets +onlyGivenNames y; refine Keeps.cut (y := y) ?_ (fun hy => ?_) <;> [(unfold y; clear y); (clear_value y; rename' y => w)])
    | (extract_lets +onlyGivenNames y; clear_value y; rename' y => w)
    | (extract_lets +onlyGivenNames y; rename' y => w)
    | with_reducible apply State.count_keeps
    | with_reducible apply State.modChan_keeps
    | with_reducible apply State.logData_keeps
    | with_reducible apply State.logRated_keeps
    | with_reducible apply State.event_keeps
    | split
    | dsimp -zeta only

theorem State.packetLeft_keeps {A : Nat} {z : State} {s : State} {p : Nat} {q : QPacket} {rest : List QPacket} (hA : 0x4808840025 &&& A = 0x4808840025) (hk : Keeps A z s) :
    Keeps A z (State.packetLeft s p q rest) := by
  unfold State.packetLeft
  repeat' first
    | with_reducible assumption
    | ((with_reducible refine Part.sub hA ?_); rfl)
    | (extract_lets +onlyGivenNames y; refine Keeps.cut (y := y) ?_ (fun hy => ?_) <;> [(unfold y; clear y); (clear_value y; rename' y => w)])
    | (extract_lets +onlyGivenNames y; clear_value y; rename' y => w)
    | (extract_lets +onlyGivenNames y; rename' y => w)
    | with_reducible apply State.setReg_keeps
    | with_reducible apply State.count_keeps
    | with_reducible apply State.modPort_keeps
    | with_reducible apply State.send_keeps
    | with_reducible apply State.setQueue_keeps
    | with_reducible apply State.txFrame_keeps
    | with_reducible apply State.curdLeft_keeps
    | split
    | dsimp -zeta only

theorem State.flushQueue_keeps {A : Nat} {z : State} {s : State} {p : Nat} (hA : 0x4808840025 &&& A = 0x4808840025) (hk : Keeps A z s) :
    Keeps A z (State.flushQueue s p) := by
  unfold State.flushQueue
  repeat' first
    | with_reducible assumption
    | ((with_reducible refine Part.sub hA ?_); rfl)
    | (extract_lets +onlyGivenNames y; refine Keeps.cut (y := y) ?_ (fun hy => ?_) <;> [(unfold y; clear y); (clear_value y; rename' y => w)])
    | (extract_lets +onlyGivenNames y; clear_value y; rename' y => w)
    | (extract_lets +onlyGivenNames y; rename' y => w)
    | with_reducible apply State.packetLeft_keeps
    | (with_reducible apply Keeps.foldl; intro y b hy)
    | (with_reducible apply Keeps.foldl_fst; intro y b hy)
    | split
    | dsimp -zeta only

theorem execPacketDepart_keeps {A : Nat} {z : State} {port : Fin 32} {s : State} (hA : 0x4808840025 &&& A = 0x4808840025) (hk : Keeps A z s) :
    KeepsOut A z (execPacketDepart port s) := by
  unfold execPacketDepart
  repeat' first
    | with_reducible assumption
    | with_reducible apply KeepsOut.fault
    | with_reducible apply KeepsOut.next
    | (extract_lets +onlyGivenNames y; refine KeepsOut.cut (y := y) ?_ (fun hy => ?_) <;> [(unfold y; clear y); (clear_value y; rename' y => w)])
    | ((with_reducible refine Part.sub hA ?_); rfl)
    | (extract_lets +onlyGivenNames y; refine Keeps.cut (y := y) ?_ (fun hy => ?_) <;> [(unfold y; clear y); (clear_value y; rename' y => w)])
    | (extract_lets +onlyGivenNames y; clear_value y; rename' y => w)
    | (extract_lets +onlyGivenNames y; rename' y => w)
    | with_reducible apply State.nextOther_keeps
    | with_reducible apply State.packetLeft_keeps
    | split
    | dsimp -zeta only

end Sys2Proof.Machine
end

