-- ==== Sys2Proof/Laws/KeepTiles.lean ====
section
/-!
SUPPORT. Keeps for the operations of Machine/Tiles.lean.
-/

namespace Sys2Proof.Machine

theorem State.clearTileRegs_keeps {A : Nat} {z : State} {s : State} {d t : Nat} (hA : 0x1 &&& A = 0x1) (hk : Keeps A z s) :
    Keeps A z (State.clearTileRegs s d t) := by
  unfold State.clearTileRegs
  repeat' first
    | with_reducible assumption
    | ((with_reducible refine Part.sub hA ?_); rfl)
    | (extract_lets +onlyGivenNames y; refine Keeps.cut (y := y) ?_ (fun hy => ?_) <;> [(unfold y; clear y); (clear_value y; rename' y => w)])
    | (extract_lets +onlyGivenNames y; clear_value y; rename' y => w)
    | (extract_lets +onlyGivenNames y; rename' y => w)
    | with_reducible apply Keeps.filterRegs
    | with_reducible apply Keeps.filterMem
    | split
    | (with_reducible refine Keeps.change ?_ rfl rfl rfl rfl rfl rfl rfl rfl id ?_)
    | (intro p hp; cases p <;> first | exact Part.inside hA hp rfl | rfl)
    | dsimp -zeta only

theorem State.clearTileCounts_keeps {A : Nat} {z : State} {s : State} {d t : Nat} (hA : 0x1800001 &&& A = 0x1800001) (hk : Keeps A z s) :
    Keeps A z (State.clearTileCounts s d t) := by
  unfold State.clearTileCounts
  repeat' first
    | with_reducible assumption
    | ((with_reducible refine Part.sub hA ?_); rfl)
    | (extract_lets +onlyGivenNames y; refine Keeps.cut (y := y) ?_ (fun hy => ?_) <;> [(unfold y; clear y); (clear_value y; rename' y => w)])
    | (extract_lets +onlyGivenNames y; clear_value y; rename' y => w)
    | (extract_lets +onlyGivenNames y; rename' y => w)
    | with_reducible apply State.modChan_keeps
    | with_reducible apply State.modCoder_keeps
    | (with_reducible apply Keeps.foldl; intro y b hy)
    | (with_reducible apply Keeps.foldl_fst; intro y b hy)
    | with_reducible apply Keeps.filterRegs
    | with_reducible apply Keeps.filterMem
    | split
    | (with_reducible refine Keeps.change ?_ rfl rfl rfl rfl rfl rfl rfl rfl id ?_)
    | (intro p hp; cases p <;> first | exact Part.inside hA hp rfl | rfl)
    | dsimp -zeta only

theorem State.gate_keeps {A : Nat} {z : State} {s : State} {d t cause : Nat} (hA : 0x1008001 &&& A = 0x1008001) (hk : Keeps A z s) :
    Keeps A z (State.gate s d t cause) := by
  unfold State.gate
  repeat' first
    | with_reducible assumption
    | ((with_reducible refine Part.sub hA ?_); rfl)
    | (extract_lets +onlyGivenNames y; refine Keeps.cut (y := y) ?_ (fun hy => ?_) <;> [(unfold y; clear y); (clear_value y; rename' y => w)])
    | (extract_lets +onlyGivenNames y; clear_value y; rename' y => w)
    | (extract_lets +onlyGivenNames y; rename' y => w)
    | with_reducible apply State.modTile_keeps
    | with_reducible apply State.modCoder_keeps
    | with_reducible apply State.clearTileRegs_keeps
    | split
    | dsimp -zeta only

theorem State.ungate_keeps {A : Nat} {z : State} {s : State} {d t : Nat} (hA : 0x1008000 &&& A = 0x1008000) (hk : Keeps A z s) :
    Keeps A z (State.ungate s d t) := by
  unfold State.ungate
  repeat' first
    | with_reducible assumption
    | ((with_reducible refine Part.sub hA ?_); rfl)
    | (extract_lets +onlyGivenNames y; refine Keeps.cut (y := y) ?_ (fun hy => ?_) <;> [(unfold y; clear y); (clear_value y; rename' y => w)])
    | (extract_lets +onlyGivenNames y; clear_value y; rename' y => w)
    | (extract_lets +onlyGivenNames y; rename' y => w)
    | with_reducible apply State.setTile_keeps
    | with_reducible apply State.modCoder_keeps
    | split
    | dsimp -zeta only

theorem State.gateUnusedOf_keeps {A : Nat} {z : State} {s : State} {l : List (Nat × Nat)} (hA : 0x1008001 &&& A = 0x1008001) (hk : Keeps A z s) :
    Keeps A z (State.gateUnusedOf s l) := by
  unfold State.gateUnusedOf
  repeat' first
    | with_reducible assumption
    | ((with_reducible refine Part.sub hA ?_); rfl)
    | (extract_lets +onlyGivenNames y; refine Keeps.cut (y := y) ?_ (fun hy => ?_) <;> [(unfold y; clear y); (clear_value y; rename' y => w)])
    | (extract_lets +onlyGivenNames y; clear_value y; rename' y => w)
    | (extract_lets +onlyGivenNames y; rename' y => w)
    | with_reducible apply State.gate_keeps
    | (with_reducible apply Keeps.foldl; intro y b hy)
    | (with_reducible apply Keeps.foldl_fst; intro y b hy)
    | split
    | dsimp -zeta only

theorem State.gateUnused_keeps {A : Nat} {z : State} {s : State} (hA : 0x1008001 &&& A = 0x1008001) (hk : Keeps A z s) :
    Keeps A z (State.gateUnused s) := by
  unfold State.gateUnused
  repeat' first
    | with_reducible assumption
    | ((with_reducible refine Part.sub hA ?_); rfl)
    | (extract_lets +onlyGivenNames y; refine Keeps.cut (y := y) ?_ (fun hy => ?_) <;> [(unfold y; clear y); (clear_value y; rename' y => w)])
    | (extract_lets +onlyGivenNames y; clear_value y; rename' y => w)
    | (extract_lets +onlyGivenNames y; rename' y => w)
    | with_reducible apply State.gateUnusedOf_keeps
    | split
    | dsimp -zeta only

theorem State.trimCoders_keeps {A : Nat} {z : State} {s : State} (hA : 0x1008001 &&& A = 0x1008001) (hk : Keeps A z s) :
    Keeps A z (State.trimCoders s) := by
  unfold State.trimCoders
  repeat' first
    | with_reducible assumption
    | ((with_reducible refine Part.sub hA ?_); rfl)
    | (extract_lets +onlyGivenNames y; refine Keeps.cut (y := y) ?_ (fun hy => ?_) <;> [(unfold y; clear y); (clear_value y; rename' y => w)])
    | (extract_lets +onlyGivenNames y; clear_value y; rename' y => w)
    | (extract_lets +onlyGivenNames y; rename' y => w)
    | with_reducible apply State.gateUnusedOf_keeps
    | split
    | dsimp -zeta only

theorem State.ungateSpare_keeps {A : Nat} {z : State} {s : State} (hA : 0x1008000 &&& A = 0x1008000) (hk : Keeps A z s) :
    Keeps A z (State.ungateSpare s) := by
  unfold State.ungateSpare
  repeat' first
    | with_reducible assumption
    | ((with_reducible refine Part.sub hA ?_); rfl)
    | (extract_lets +onlyGivenNames y; refine Keeps.cut (y := y) ?_ (fun hy => ?_) <;> [(unfold y; clear y); (clear_value y; rename' y => w)])
    | (extract_lets +onlyGivenNames y; clear_value y; rename' y => w)
    | (extract_lets +onlyGivenNames y; rename' y => w)
    | with_reducible apply State.ungate_keeps
    | split
    | dsimp -zeta only

theorem State.ungateCause_keeps {A : Nat} {z : State} {s : State} {cause : Nat} (hA : 0x1008000 &&& A = 0x1008000) (hk : Keeps A z s) :
    Keeps A z (State.ungateCause s cause) := by
  unfold State.ungateCause
  repeat' first
    | with_reducible assumption
    | ((with_reducible refine Part.sub hA ?_); rfl)
    | (extract_lets +onlyGivenNames y; refine Keeps.cut (y := y) ?_ (fun hy => ?_) <;> [(unfold y; clear y); (clear_value y; rename' y => w)])
    | (extract_lets +onlyGivenNames y; clear_value y; rename' y => w)
    | (extract_lets +onlyGivenNames y; rename' y => w)
    | with_reducible apply State.ungate_keeps
    | (with_reducible apply Keeps.foldl; intro y b hy)
    | (with_reducible apply Keeps.foldl_fst; intro y b hy)
    | split
    | dsimp -zeta only

end Sys2Proof.Machine
end

