-- ==== Sys2Proof/Laws/KeepWheels.lean ====
section
/-!
SUPPORT. Keeps for the operations of Machine/Wheels.lean.
-/

namespace Sys2Proof.Machine

theorem State.modStore_keeps {A : Nat} {z : State} {s : State} {f : NandStore → NandStore} (hA : 0x400000000 &&& A = 0x400000000) (hk : Keeps A z s) :
    Keeps A z (State.modStore s f) := by
  unfold State.modStore
  repeat' first
    | with_reducible assumption
    | ((with_reducible refine Part.sub hA ?_); rfl)
    | (extract_lets +onlyGivenNames y; refine Keeps.cut (y := y) ?_ (fun hy => ?_) <;> [(unfold y; clear y); (clear_value y; rename' y => w)])
    | (extract_lets +onlyGivenNames y; clear_value y; rename' y => w)
    | (extract_lets +onlyGivenNames y; rename' y => w)
    | with_reducible apply State.modRecorder_keeps
    | split
    | dsimp -zeta only

theorem State.recLog_keeps {A : Nat} {z : State} {s : State} {f : FaultClass} {data : List Byte} (hA : 0x4000000000 &&& A = 0x4000000000) (hk : Keeps A z s) :
    Keeps A z (State.recLog s f data) := by
  unfold State.recLog
  repeat' first
    | with_reducible assumption
    | ((with_reducible refine Part.sub hA ?_); rfl)
    | (extract_lets +onlyGivenNames y; refine Keeps.cut (y := y) ?_ (fun hy => ?_) <;> [(unfold y; clear y); (clear_value y; rename' y => w)])
    | (extract_lets +onlyGivenNames y; clear_value y; rename' y => w)
    | (extract_lets +onlyGivenNames y; rename' y => w)
    | with_reducible apply State.log_keeps
    | split
    | dsimp -zeta only

theorem State.nandWrite_keeps {A : Nat} {z : State} {s : State} {n : Nat} (hA : 0x400000000 &&& A = 0x400000000) (hk : Keeps A z s) :
    Keeps A z (State.nandWrite s n) := by
  unfold State.nandWrite
  repeat' first
    | with_reducible assumption
    | ((with_reducible refine Part.sub hA ?_); rfl)
    | (extract_lets +onlyGivenNames y; refine Keeps.cut (y := y) ?_ (fun hy => ?_) <;> [(unfold y; clear y); (clear_value y; rename' y => w)])
    | (extract_lets +onlyGivenNames y; clear_value y; rename' y => w)
    | (extract_lets +onlyGivenNames y; rename' y => w)
    | with_reducible apply State.modRecorder_keeps
    | split
    | dsimp -zeta only

theorem State.modOpen_keeps {A : Nat} {z : State} {s : State} {f : Wheel → Wheel} (hA : 0x400000000 &&& A = 0x400000000) (hk : Keeps A z s) :
    Keeps A z (State.modOpen s f) := by
  unfold State.modOpen
  repeat' first
    | with_reducible assumption
    | ((with_reducible refine Part.sub hA ?_); rfl)
    | (extract_lets +onlyGivenNames y; refine Keeps.cut (y := y) ?_ (fun hy => ?_) <;> [(unfold y; clear y); (clear_value y; rename' y => w)])
    | (extract_lets +onlyGivenNames y; clear_value y; rename' y => w)
    | (extract_lets +onlyGivenNames y; rename' y => w)
    | with_reducible apply State.modStore_keeps
    | split
    | dsimp -zeta only

theorem State.wear_keeps {A : Nat} {z : State} {s : State} {slot : Nat} (hA : 0x4c00000005 &&& A = 0x4c00000005) (hk : Keeps A z s) :
    Keeps A z (State.wear s slot) := by
  unfold State.wear
  repeat' first
    | with_reducible assumption
    | ((with_reducible refine Part.sub hA ?_); rfl)
    | (extract_lets +onlyGivenNames y; refine Keeps.cut (y := y) ?_ (fun hy => ?_) <;> [(unfold y; clear y); (clear_value y; rename' y => w)])
    | (extract_lets +onlyGivenNames y; clear_value y; rename' y => w)
    | (extract_lets +onlyGivenNames y; rename' y => w)
    | with_reducible apply State.event_keeps
    | with_reducible apply State.modStore_keeps
    | with_reducible apply State.recLog_keeps
    | split
    | dsimp -zeta only

theorem State.openNext_keeps {A : Nat} {z : State} {s : State} (hA : 0x4c00000005 &&& A = 0x4c00000005) (hk : Keeps A z s) :
    Keeps A z (State.openNext s) := by
  unfold State.openNext
  repeat' first
    | with_reducible assumption
    | ((with_reducible refine Part.sub hA ?_); rfl)
    | (extract_lets +onlyGivenNames y; refine Keeps.cut (y := y) ?_ (fun hy => ?_) <;> [(unfold y; clear y); (clear_value y; rename' y => w)])
    | (extract_lets +onlyGivenNames y; clear_value y; rename' y => w)
    | (extract_lets +onlyGivenNames y; rename' y => w)
    | with_reducible apply State.modRecorder_keeps
    | with_reducible apply State.modStore_keeps
    | with_reducible apply State.wear_keeps
    | split
    | dsimp -zeta only

theorem State.holdWheel_keeps {A : Nat} {z : State} {s : State} {w : Wheel} (hA : 0x4c00000005 &&& A = 0x4c00000005) (hk : Keeps A z s) :
    Keeps A z (State.holdWheel s w).1 := by
  unfold State.holdWheel
  repeat' first
    | with_reducible assumption
    | ((with_reducible refine Part.sub hA ?_); rfl)
    | (extract_lets +onlyGivenNames y; refine Keeps.cut (y := y) ?_ (fun hy => ?_) <;> [(unfold y; clear y); (clear_value y; rename' y => w)])
    | (extract_lets +onlyGivenNames y; clear_value y; rename' y => w)
    | (extract_lets +onlyGivenNames y; rename' y => w)
    | with_reducible apply State.modRecorder_keeps
    | with_reducible apply State.event_keeps
    | with_reducible apply State.recLog_keeps
    | split
    | dsimp -zeta only

theorem State.applyHolds_keeps {A : Nat} {z : State} {s : State} (hA : 0x400000000 &&& A = 0x400000000) (hk : Keeps A z s) :
    Keeps A z (State.applyHolds s) := by
  unfold State.applyHolds
  repeat' first
    | with_reducible assumption
    | ((with_reducible refine Part.sub hA ?_); rfl)
    | (extract_lets +onlyGivenNames y; refine Keeps.cut (y := y) ?_ (fun hy => ?_) <;> [(unfold y; clear y); (clear_value y; rename' y => w)])
    | (extract_lets +onlyGivenNames y; clear_value y; rename' y => w)
    | (extract_lets +onlyGivenNames y; rename' y => w)
    | with_reducible apply State.modRecorder_keeps
    | with_reducible apply State.modStore_keeps
    | split
    | dsimp -zeta only

theorem State.sealOpen_keeps {A : Nat} {z : State} {s : State} {cause abandoned : Nat} (hA : 0x4c00000005 &&& A = 0x4c00000005) (hk : Keeps A z s) :
    Keeps A z (State.sealOpen s cause abandoned) := by
  unfold State.sealOpen
  repeat' first
    | with_reducible assumption
    | ((with_reducible refine Part.sub hA ?_); rfl)
    | (extract_lets +onlyGivenNames y; refine Keeps.cut (y := y) ?_ (fun hy => ?_) <;> [(unfold y; clear y); (clear_value y; rename' y => w)])
    | (extract_lets +onlyGivenNames y; clear_value y; rename' y => w)
    | (extract_lets +onlyGivenNames y; rename' y => w)
    | with_reducible apply State.count_keeps
    | with_reducible apply State.modRecorder_keeps
    | with_reducible apply State.event_keeps
    | with_reducible apply State.modStore_keeps
    | with_reducible apply State.recLog_keeps
    | with_reducible apply State.nandWrite_keeps
    | with_reducible apply State.modOpen_keeps
    | (refine Keeps.of_fst (State.holdWheel_keeps (Part.sub hA rfl) ?_) (by assumption))
    | with_reducible apply State.holdWheel_keeps
    | split
    | dsimp -zeta only

theorem State.writePage_keeps {A : Nat} {z : State} {s : State} {page : List Byte} (hA : 0x400000000 &&& A = 0x400000000) (hk : Keeps A z s) :
    Keeps A z (State.writePage s page) := by
  unfold State.writePage
  repeat' first
    | with_reducible assumption
    | ((with_reducible refine Part.sub hA ?_); rfl)
    | (extract_lets +onlyGivenNames y; refine Keeps.cut (y := y) ?_ (fun hy => ?_) <;> [(unfold y; clear y); (clear_value y; rename' y => w)])
    | (extract_lets +onlyGivenNames y; clear_value y; rename' y => w)
    | (extract_lets +onlyGivenNames y; rename' y => w)
    | with_reducible apply State.nandWrite_keeps
    | with_reducible apply State.modOpen_keeps
    | split
    | dsimp -zeta only

theorem State.layOut_keeps {A : Nat} {z : State} {s : State} {type source : Nat} {stamp : Stamp} {payload : List Byte} {at_ : Nat} (hA : 0x400000000 &&& A = 0x400000000) (hk : Keeps A z s) :
    Keeps A z (State.layOut s type source stamp payload at_) := by
  unfold State.layOut
  repeat' first
    | with_reducible assumption
    | ((with_reducible refine Part.sub hA ?_); rfl)
    | (extract_lets +onlyGivenNames y; refine Keeps.cut (y := y) ?_ (fun hy => ?_) <;> [(unfold y; clear y); (clear_value y; rename' y => w)])
    | (extract_lets +onlyGivenNames y; clear_value y; rename' y => w)
    | (extract_lets +onlyGivenNames y; rename' y => w)
    | with_reducible apply State.modRecorder_keeps
    | with_reducible apply State.modOpen_keeps
    | split
    | dsimp -zeta only

theorem State.padPage_keeps {A : Nat} {z : State} {s : State} (hA : 0x400000000 &&& A = 0x400000000) (hk : Keeps A z s) :
    Keeps A z (State.padPage s) := by
  unfold State.padPage
  repeat' first
    | with_reducible assumption
    | ((with_reducible refine Part.sub hA ?_); rfl)
    | (extract_lets +onlyGivenNames y; refine Keeps.cut (y := y) ?_ (fun hy => ?_) <;> [(unfold y; clear y); (clear_value y; rename' y => w)])
    | (extract_lets +onlyGivenNames y; clear_value y; rename' y => w)
    | (extract_lets +onlyGivenNames y; rename' y => w)
    | with_reducible apply State.layOut_keeps
    | split
    | dsimp -zeta only

theorem State.writePages_keeps {A : Nat} {z : State} {n : Nat} {s : State} (hA : 0x400000000 &&& A = 0x400000000) (hk : Keeps A z s) : Keeps A z (State.writePages  n s) := by
  induction n generalizing s with
  | zero => exact hk
  | succ n ih =>
    unfold State.writePages
    repeat' first
      | with_reducible assumption
      | with_reducible apply ih
      | ((with_reducible refine Part.sub hA ?_); rfl)
      | (extract_lets +onlyGivenNames y; refine Keeps.cut (y := y) ?_ (fun hy => ?_) <;> [(unfold y; clear y); (clear_value y; rename' y => w)])
      | (extract_lets +onlyGivenNames y; clear_value y; rename' y => w)
      | (extract_lets +onlyGivenNames y; rename' y => w)
      | with_reducible apply State.modRecorder_keeps
      | with_reducible apply State.writePage_keeps
      | with_reducible apply State.drop_keeps
      | split
      | dsimp -zeta only

theorem State.drainStep_keeps {A : Nat} {z : State} {s : State} (hA : 0x4c00000005 &&& A = 0x4c00000005) (hk : Keeps A z s) :
    Keeps A z (State.drainStep s) := by
  unfold State.drainStep
  repeat' first
    | with_reducible assumption
    | ((with_reducible refine Part.sub hA ?_); rfl)
    | (extract_lets +onlyGivenNames y; refine Keeps.cut (y := y) ?_ (fun hy => ?_) <;> [(unfold y; clear y); (clear_value y; rename' y => w)])
    | (extract_lets +onlyGivenNames y; clear_value y; rename' y => w)
    | (extract_lets +onlyGivenNames y; rename' y => w)
    | with_reducible apply State.modRecorder_keeps
    | with_reducible apply State.openNext_keeps
    | with_reducible apply State.sealOpen_keeps
    | with_reducible apply State.layOut_keeps
    | with_reducible apply State.padPage_keeps
    | with_reducible apply State.writePages_keeps
    | split
    | dsimp -zeta only

theorem State.drain_keeps {A : Nat} {z : State} {n : Nat} {s : State} (hA : 0x4c00000005 &&& A = 0x4c00000005) (hk : Keeps A z s) : Keeps A z (State.drain  n s) := by
  induction n generalizing s with
  | zero => exact hk
  | succ n ih =>
    unfold State.drain
    repeat' first
      | with_reducible assumption
      | with_reducible apply ih
      | ((with_reducible refine Part.sub hA ?_); rfl)
      | (extract_lets +onlyGivenNames y; refine Keeps.cut (y := y) ?_ (fun hy => ?_) <;> [(unfold y; clear y); (clear_value y; rename' y => w)])
      | (extract_lets +onlyGivenNames y; clear_value y; rename' y => w)
      | (extract_lets +onlyGivenNames y; rename' y => w)
      | with_reducible apply State.drainStep_keeps
      | split
      | dsimp -zeta only

theorem State.sealWheel_keeps {A : Nat} {z : State} {s : State} {cause : Nat} (hA : 0x4c00000005 &&& A = 0x4c00000005) (hk : Keeps A z s) :
    Keeps A z (State.sealWheel s cause) := by
  unfold State.sealWheel
  repeat' first
    | with_reducible assumption
    | ((with_reducible refine Part.sub hA ?_); rfl)
    | (extract_lets +onlyGivenNames y; refine Keeps.cut (y := y) ?_ (fun hy => ?_) <;> [(unfold y; clear y); (clear_value y; rename' y => w)])
    | (extract_lets +onlyGivenNames y; clear_value y; rename' y => w)
    | (extract_lets +onlyGivenNames y; rename' y => w)
    | with_reducible apply State.modRecorder_keeps
    | with_reducible apply State.drain_keeps
    | split
    | dsimp -zeta only

theorem State.dropRecord_keeps {A : Nat} {z : State} {s : State} (hA : 0x400000000 &&& A = 0x400000000) (hk : Keeps A z s) :
    Keeps A z (State.dropRecord s) := by
  unfold State.dropRecord
  repeat' first
    | with_reducible assumption
    | ((with_reducible refine Part.sub hA ?_); rfl)
    | (extract_lets +onlyGivenNames y; refine Keeps.cut (y := y) ?_ (fun hy => ?_) <;> [(unfold y; clear y); (clear_value y; rename' y => w)])
    | (extract_lets +onlyGivenNames y; refine Keeps.cut (y := y.1) ?_ (fun hy => ?_) <;> [(unfold y; clear y); (clear_value y; rename' y => w)])
    | (extract_lets +onlyGivenNames y; clear_value y; rename' y => w)
    | (extract_lets +onlyGivenNames y; rename' y => w)
    | with_reducible apply State.modRecorder_keeps
    | (with_reducible apply Keeps.foldl; intro y b hy)
    | (with_reducible apply Keeps.foldl_fst; intro y b hy)
    | split
    | dsimp -zeta only

theorem State.admitRecord_keeps {A : Nat} {z : State} {s : State} {type source : Nat} {payload : List Byte} (hA : 0x4c00000005 &&& A = 0x4c00000005) (hk : Keeps A z s) :
    Keeps A z (State.admitRecord s type source payload) := by
  unfold State.admitRecord
  dsimp only
  repeat' first
    | with_reducible assumption
    | ((with_reducible refine Part.sub hA ?_); rfl)
    | (extract_lets +onlyGivenNames y; refine Keeps.cut (y := y) ?_ (fun hy => ?_) <;> [(unfold y; clear y); (clear_value y; rename' y => w)])
    | (extract_lets +onlyGivenNames y; refine Keeps.cut (y := y.1) ?_ (fun hy => ?_) <;> [(unfold y; clear y); (clear_value y; rename' y => w)])
    | (extract_lets +onlyGivenNames y; clear_value y; rename' y => w)
    | (extract_lets +onlyGivenNames y; rename' y => w)
    | with_reducible apply State.count_keeps
    | with_reducible apply State.modRecorder_keeps
    | with_reducible apply State.logRated_keeps
    | with_reducible apply State.event_keeps
    | with_reducible apply State.dropRecord_keeps
    | split
    | dsimp -zeta only

theorem State.tapAdmit_keeps {A : Nat} {z : State} {s : State} {tap : Nat} {payload : List Byte} (hA : 0x4c00000005 &&& A = 0x4c00000005) (hk : Keeps A z s) :
    Keeps A z (State.tapAdmit s tap payload).1 := by
  unfold State.tapAdmit
  repeat' first
    | with_reducible assumption
    | ((with_reducible refine Part.sub hA ?_); rfl)
    | (extract_lets +onlyGivenNames y; refine Keeps.cut (y := y) ?_ (fun hy => ?_) <;> [(unfold y; clear y); (clear_value y; rename' y => w)])
    | (extract_lets +onlyGivenNames y; clear_value y; rename' y => w)
    | (extract_lets +onlyGivenNames y; rename' y => w)
    | with_reducible apply State.count_keeps
    | with_reducible apply State.modTap_keeps
    | with_reducible apply State.logRated_keeps
    | with_reducible apply State.admitRecord_keeps
    | split
    | dsimp -zeta only

theorem State.tapDeliver_keeps {A : Nat} {z : State} {s : State} {tap flow port : Nat} {packet : List Byte} (hA : 0x4c00000005 &&& A = 0x4c00000005) (hk : Keeps A z s) :
    Keeps A z (State.tapDeliver s tap flow port packet).1 := by
  unfold State.tapDeliver
  repeat' first
    | with_reducible assumption
    | ((with_reducible refine Part.sub hA ?_); rfl)
    | (extract_lets +onlyGivenNames y; refine Keeps.cut (y := y) ?_ (fun hy => ?_) <;> [(unfold y; clear y); (clear_value y; rename' y => w)])
    | (extract_lets +onlyGivenNames y; clear_value y; rename' y => w)
    | (extract_lets +onlyGivenNames y; rename' y => w)
    | (refine Keeps.of_fst (State.tapAdmit_keeps (Part.sub hA rfl) ?_) (by assumption))
    | with_reducible apply State.tapAdmit_keeps
    | split
    | dsimp -zeta only

theorem State.recorderWarn_keeps {A : Nat} {z : State} {s : State} (hA : 0x400000000 &&& A = 0x400000000) (hk : Keeps A z s) :
    Keeps A z (State.recorderWarn s) := by
  unfold State.recorderWarn
  repeat' first
    | with_reducible assumption
    | ((with_reducible refine Part.sub hA ?_); rfl)
    | (extract_lets +onlyGivenNames y; refine Keeps.cut (y := y) ?_ (fun hy => ?_) <;> [(unfold y; clear y); (clear_value y; rename' y => w)])
    | (extract_lets +onlyGivenNames y; clear_value y; rename' y => w)
    | (extract_lets +onlyGivenNames y; rename' y => w)
    | with_reducible apply State.modRecorder_keeps
    | split
    | dsimp -zeta only

theorem State.recorderResume_keeps {A : Nat} {z : State} {s : State} (hA : 0x4c00000005 &&& A = 0x4c00000005) (hk : Keeps A z s) :
    Keeps A z (State.recorderResume s) := by
  unfold State.recorderResume
  repeat' first
    | with_reducible assumption
    | ((with_reducible refine Part.sub hA ?_); rfl)
    | (extract_lets +onlyGivenNames y; refine Keeps.cut (y := y) ?_ (fun hy => ?_) <;> [(unfold y; clear y); (clear_value y; rename' y => w)])
    | (extract_lets +onlyGivenNames y; clear_value y; rename' y => w)
    | (extract_lets +onlyGivenNames y; rename' y => w)
    | with_reducible apply State.modRecorder_keeps
    | with_reducible apply State.openNext_keeps
    | split
    | dsimp -zeta only

theorem State.recorderPlan_keeps {A : Nat} {z : State} {s : State} (hA : 0x400000000 &&& A = 0x400000000) (hk : Keeps A z s) :
    Keeps A z (State.recorderPlan s) := by
  unfold State.recorderPlan
  repeat' first
    | with_reducible assumption
    | ((with_reducible refine Part.sub hA ?_); rfl)
    | (extract_lets +onlyGivenNames y; refine Keeps.cut (y := y) ?_ (fun hy => ?_) <;> [(unfold y; clear y); (clear_value y; rename' y => w)])
    | (extract_lets +onlyGivenNames y; clear_value y; rename' y => w)
    | (extract_lets +onlyGivenNames y; rename' y => w)
    | with_reducible apply State.modRecorder_keeps
    | split
    | dsimp -zeta only

theorem State.signWheel_keeps {A : Nat} {z : State} {s : State} {n : Nat} (hA : 0x4c00000005 &&& A = 0x4c00000005) (hk : Keeps A z s) :
    Keeps A z (State.signWheel s n) := by
  unfold State.signWheel
  repeat' first
    | with_reducible assumption
    | ((with_reducible refine Part.sub hA ?_); rfl)
    | (extract_lets +onlyGivenNames y; refine Keeps.cut (y := y) ?_ (fun hy => ?_) <;> [(unfold y; clear y); (clear_value y; rename' y => w)])
    | (extract_lets +onlyGivenNames y; clear_value y; rename' y => w)
    | (extract_lets +onlyGivenNames y; rename' y => w)
    | with_reducible apply State.event_keeps
    | with_reducible apply State.modStore_keeps
    | with_reducible apply State.recLog_keeps
    | with_reducible apply State.nandWrite_keeps
    | split
    | dsimp -zeta only

theorem State.recorderRecover_keeps {A : Nat} {z : State} {s : State} (hA : 0x4c00000005 &&& A = 0x4c00000005) (hk : Keeps A z s) :
    Keeps A z (State.recorderRecover s) := by
  unfold State.recorderRecover
  repeat' first
    | with_reducible assumption
    | ((with_reducible refine Part.sub hA ?_); rfl)
    | (extract_lets +onlyGivenNames y; refine Keeps.cut (y := y) ?_ (fun hy => ?_) <;> [(unfold y; clear y); (clear_value y; rename' y => w)])
    | (extract_lets +onlyGivenNames y; clear_value y; rename' y => w)
    | (extract_lets +onlyGivenNames y; rename' y => w)
    | with_reducible apply State.modRecorder_keeps
    | with_reducible apply State.recLog_keeps
    | with_reducible apply State.modOpen_keeps
    | with_reducible apply State.openNext_keeps
    | with_reducible apply State.sealOpen_keeps
    | with_reducible apply State.signWheel_keeps
    | (with_reducible apply Keeps.foldl; intro y b hy)
    | (with_reducible apply Keeps.foldl_fst; intro y b hy)
    | split
    | dsimp -zeta only

end Sys2Proof.Machine
end

