-- ==== Sys2Proof/Laws/KeepRind.lean ====
section
/-!
SUPPORT. Keeps for the operations of Machine/Rind.lean.
-/

namespace Sys2Proof.Machine

theorem State.modLineRecord_keeps {A : Nat} {z : State} {s : State} {c frame line : Nat} {f : MirrorRec → MirrorRec} (hA : 0x4000000 &&& A = 0x4000000) (hk : Keeps A z s) :
    Keeps A z (State.modLineRecord s c frame line f) := by
  unfold State.modLineRecord
  repeat' first
    | with_reducible assumption
    | ((with_reducible refine Part.sub hA ?_); rfl)
    | (extract_lets +onlyGivenNames y; refine Keeps.cut (y := y) ?_ (fun hy => ?_) <;> [(unfold y; clear y); (clear_value y; rename' y => w)])
    | (extract_lets +onlyGivenNames y; clear_value y; rename' y => w)
    | (extract_lets +onlyGivenNames y; rename' y => w)
    | with_reducible apply State.modRind_keeps
    | split
    | dsimp -zeta only

theorem State.openRecord_keeps {A : Nat} {z : State} {s : State} {c : Nat} {frame line n : Nat} (hA : 0x4000000 &&& A = 0x4000000) (hk : Keeps A z s) :
    Keeps A z (State.openRecord s c frame line n) := by
  unfold State.openRecord
  repeat' first
    | with_reducible assumption
    | ((with_reducible refine Part.sub hA ?_); rfl)
    | (extract_lets +onlyGivenNames y; refine Keeps.cut (y := y) ?_ (fun hy => ?_) <;> [(unfold y; clear y); (clear_value y; rename' y => w)])
    | (extract_lets +onlyGivenNames y; refine Keeps.cut (y := y.1) ?_ (fun hy => ?_) <;> [(unfold y; clear y); (clear_value y; rename' y => w)])
    | (extract_lets +onlyGivenNames y; clear_value y; rename' y => w)
    | (extract_lets +onlyGivenNames y; rename' y => w)
    | with_reducible apply State.modRind_keeps
    | split
    | dsimp -zeta only

theorem State.rollWaits_keeps {A : Nat} {z : State} {s : State} (hA : 0x4000 &&& A = 0x4000) (hk : Keeps A z s) :
    Keeps A z (State.rollWaits s) := by
  unfold State.rollWaits
  repeat' first
    | with_reducible assumption
    | ((with_reducible refine Part.sub hA ?_); rfl)
    | (extract_lets +onlyGivenNames y; refine Keeps.cut (y := y) ?_ (fun hy => ?_) <;> [(unfold y; clear y); (clear_value y; rename' y => w)])
    | (extract_lets +onlyGivenNames y; clear_value y; rename' y => w)
    | (extract_lets +onlyGivenNames y; rename' y => w)
    | with_reducible apply State.modRoll_keeps
    | split
    | dsimp -zeta only

theorem State.spareCheck_keeps {A : Nat} {z : State} {s : State} (hA : 0x4810004005 &&& A = 0x4810004005) (hk : Keeps A z s) :
    Keeps A z (State.spareCheck s) := by
  unfold State.spareCheck
  repeat' first
    | with_reducible assumption
    | ((with_reducible refine Part.sub hA ?_); rfl)
    | (extract_lets +onlyGivenNames y; refine Keeps.cut (y := y) ?_ (fun hy => ?_) <;> [(unfold y; clear y); (clear_value y; rename' y => w)])
    | (extract_lets +onlyGivenNames y; clear_value y; rename' y => w)
    | (extract_lets +onlyGivenNames y; rename' y => w)
    | with_reducible apply State.modPair_keeps
    | with_reducible apply State.log_keeps
    | with_reducible apply State.event_keeps
    | with_reducible apply State.rollWaits_keeps
    | split
    | dsimp -zeta only

theorem State.freeCoder_keeps {A : Nat} {z : State} {s : State} {k cause : Nat} (hA : 0x481100c005 &&& A = 0x481100c005) (hk : Keeps A z s) :
    Keeps A z (State.freeCoder s k cause) := by
  unfold State.freeCoder
  repeat' first
    | with_reducible assumption
    | ((with_reducible refine Part.sub hA ?_); rfl)
    | (extract_lets +onlyGivenNames y; refine Keeps.cut (y := y) ?_ (fun hy => ?_) <;> [(unfold y; clear y); (clear_value y; rename' y => w)])
    | (extract_lets +onlyGivenNames y; clear_value y; rename' y => w)
    | (extract_lets +onlyGivenNames y; rename' y => w)
    | with_reducible apply State.modTile_keeps
    | with_reducible apply State.modCoder_keeps
    | with_reducible apply State.trimCoders_keeps
    | with_reducible apply State.spareCheck_keeps
    | split
    | dsimp -zeta only

theorem State.fenceReport_keeps {A : Nat} {z : State} {s : State} {c : Nat} (hA : 0x4004000000 &&& A = 0x4004000000) (hk : Keeps A z s) :
    Keeps A z (State.fenceReport s c) := by
  unfold State.fenceReport
  repeat' first
    | with_reducible assumption
    | ((with_reducible refine Part.sub hA ?_); rfl)
    | (extract_lets +onlyGivenNames y; refine Keeps.cut (y := y) ?_ (fun hy => ?_) <;> [(unfold y; clear y); (clear_value y; rename' y => w)])
    | (extract_lets +onlyGivenNames y; clear_value y; rename' y => w)
    | (extract_lets +onlyGivenNames y; rename' y => w)
    | with_reducible apply State.modRind_keeps
    | with_reducible apply State.logData_keeps
    | split
    | dsimp -zeta only

theorem State.handedOver_keeps {A : Nat} {z : State} {s : State} {c : Nat} (hA : 0x481500c005 &&& A = 0x481500c005) (hk : Keeps A z s) :
    Keeps A z (State.handedOver s c) := by
  unfold State.handedOver
  repeat' first
    | with_reducible assumption
    | ((with_reducible refine Part.sub hA ?_); rfl)
    | (extract_lets +onlyGivenNames y; refine Keeps.cut (y := y) ?_ (fun hy => ?_) <;> [(unfold y; clear y); (clear_value y; rename' y => w)])
    | (extract_lets +onlyGivenNames y; clear_value y; rename' y => w)
    | (extract_lets +onlyGivenNames y; rename' y => w)
    | with_reducible apply State.modRind_keeps
    | with_reducible apply State.freeCoder_keeps
    | with_reducible apply State.fenceReport_keeps
    | split
    | dsimp -zeta only

theorem State.lineResolved_keeps {A : Nat} {z : State} {s : State} {c frame line : Nat} (hA : 0x481500c005 &&& A = 0x481500c005) (hk : Keeps A z s) :
    Keeps A z (State.lineResolved s c frame line) := by
  unfold State.lineResolved
  repeat' first
    | with_reducible assumption
    | ((with_reducible refine Part.sub hA ?_); rfl)
    | (extract_lets +onlyGivenNames y; refine Keeps.cut (y := y) ?_ (fun hy => ?_) <;> [(unfold y; clear y); (clear_value y; rename' y => w)])
    | (extract_lets +onlyGivenNames y; clear_value y; rename' y => w)
    | (extract_lets +onlyGivenNames y; rename' y => w)
    | with_reducible apply State.handedOver_keeps
    | split
    | dsimp -zeta only

theorem State.frameResolved_keeps {A : Nat} {z : State} {s : State} {c : Nat} (hA : 0x481500c005 &&& A = 0x481500c005) (hk : Keeps A z s) :
    Keeps A z (State.frameResolved s c) := by
  unfold State.frameResolved
  repeat' first
    | with_reducible assumption
    | ((with_reducible refine Part.sub hA ?_); rfl)
    | (extract_lets +onlyGivenNames y; refine Keeps.cut (y := y) ?_ (fun hy => ?_) <;> [(unfold y; clear y); (clear_value y; rename' y => w)])
    | (extract_lets +onlyGivenNames y; clear_value y; rename' y => w)
    | (extract_lets +onlyGivenNames y; rename' y => w)
    | with_reducible apply State.handedOver_keeps
    | split
    | dsimp -zeta only

theorem State.closePacket_keeps {A : Nat} {z : State} {s : State} {c : Nat} (hA : 0x8800000 &&& A = 0x8800000) (hk : Keeps A z s) :
    Keeps A z (State.closePacket s c) := by
  unfold State.closePacket
  repeat' first
    | with_reducible assumption
    | ((with_reducible refine Part.sub hA ?_); rfl)
    | (extract_lets +onlyGivenNames y; refine Keeps.cut (y := y) ?_ (fun hy => ?_) <;> [(unfold y; clear y); (clear_value y; rename' y => w)])
    | (extract_lets +onlyGivenNames y; clear_value y; rename' y => w)
    | (extract_lets +onlyGivenNames y; rename' y => w)
    | with_reducible apply State.modChan_keeps
    | with_reducible apply State.chanSend_keeps
    | split
    | dsimp -zeta only

theorem State.packRecord_keeps {A : Nat} {z : State} {s : State} {c frame line lastAt : Nat} {stamp : Stamp} {record : List Byte} (hA : 0x8800000 &&& A = 0x8800000) (hk : Keeps A z s) :
    Keeps A z (State.packRecord s c frame line lastAt stamp record) := by
  unfold State.packRecord
  repeat' first
    | with_reducible assumption
    | ((with_reducible refine Part.sub hA ?_); rfl)
    | (extract_lets +onlyGivenNames y; refine Keeps.cut (y := y) ?_ (fun hy => ?_) <;> [(unfold y; clear y); (clear_value y; rename' y => w)])
    | (extract_lets +onlyGivenNames y; clear_value y; rename' y => w)
    | (extract_lets +onlyGivenNames y; rename' y => w)
    | with_reducible apply State.modChan_keeps
    | with_reducible apply State.closePacket_keeps
    | split
    | dsimp -zeta only

theorem State.modFrame_keeps {A : Nat} {z : State} {s : State} {c number : Nat} {f : TxFrame → TxFrame} (hA : 0x800000 &&& A = 0x800000) (hk : Keeps A z s) :
    Keeps A z (State.modFrame s c number f) := by
  unfold State.modFrame
  repeat' first
    | with_reducible assumption
    | ((with_reducible refine Part.sub hA ?_); rfl)
    | (extract_lets +onlyGivenNames y; refine Keeps.cut (y := y) ?_ (fun hy => ?_) <;> [(unfold y; clear y); (clear_value y; rename' y => w)])
    | (extract_lets +onlyGivenNames y; clear_value y; rename' y => w)
    | (extract_lets +onlyGivenNames y; rename' y => w)
    | with_reducible apply State.modChan_keeps
    | split
    | dsimp -zeta only

theorem State.underPlan_keeps {A : Nat} {z : State} {s : State} {c number : Nat} (hA : 0x800000 &&& A = 0x800000) (hk : Keeps A z s) :
    Keeps A z (State.underPlan s c number) := by
  unfold State.underPlan
  repeat' first
    | with_reducible assumption
    | ((with_reducible refine Part.sub hA ?_); rfl)
    | (extract_lets +onlyGivenNames y; refine Keeps.cut (y := y) ?_ (fun hy => ?_) <;> [(unfold y; clear y); (clear_value y; rename' y => w)])
    | (extract_lets +onlyGivenNames y; clear_value y; rename' y => w)
    | (extract_lets +onlyGivenNames y; rename' y => w)
    | with_reducible apply State.modChan_keeps
    | split
    | dsimp -zeta only

theorem State.under_keeps {A : Nat} {z : State} {s : State} {c number : Nat} {f : State → State} (hA : 0x800000 &&& A = 0x800000) (hk : Keeps A z s) (hf : ∀ y, Keeps A z y → Keeps A z (f y)) :
    Keeps A z (State.under s c number f) := by
  unfold State.under
  repeat' first
    | with_reducible assumption
    | ((with_reducible refine Part.sub hA ?_); rfl)
    | (extract_lets +onlyGivenNames y; refine Keeps.cut (y := y) ?_ (fun hy => ?_) <;> [(unfold y; clear y); (clear_value y; rename' y => w)])
    | (extract_lets +onlyGivenNames y; clear_value y; rename' y => w)
    | (extract_lets +onlyGivenNames y; rename' y => w)
    | with_reducible apply State.modChan_keeps
    | with_reducible apply hf
    | split
    | dsimp -zeta only

theorem State.closeLine_keeps {A : Nat} {z : State} {s : State} {c number line : Nat} (hA : 0x481d80c005 &&& A = 0x481d80c005) (hk : Keeps A z s) :
    Keeps A z (State.closeLine s c number line) := by
  unfold State.closeLine
  repeat' first
    | with_reducible assumption
    | ((with_reducible refine Part.sub hA ?_); rfl)
    | (extract_lets +onlyGivenNames y; refine Keeps.cut (y := y) ?_ (fun hy => ?_) <;> [(unfold y; clear y); (clear_value y; rename' y => w)])
    | (extract_lets +onlyGivenNames y; clear_value y; rename' y => w)
    | (extract_lets +onlyGivenNames y; rename' y => w)
    | with_reducible apply State.chanSend_keeps
    | with_reducible apply State.modLineRecord_keeps
    | with_reducible apply State.lineResolved_keeps
    | with_reducible apply State.closePacket_keeps
    | with_reducible apply State.modFrame_keeps
    | (with_reducible apply Keeps.foldl; intro y b hy)
    | (with_reducible apply Keeps.foldl_fst; intro y b hy)
    | split
    | dsimp -zeta only

theorem State.proxyUnit_keeps {A : Nat} {z : State} {s : State} {c frame row col : Nat} {unit : List Int} (hA : 0x200000 &&& A = 0x200000) (hk : Keeps A z s) :
    Keeps A z (State.proxyUnit s c frame row col unit) := by
  unfold State.proxyUnit
  repeat' first
    | with_reducible assumption
    | ((with_reducible refine Part.sub hA ?_); rfl)
    | (extract_lets +onlyGivenNames y; refine Keeps.cut (y := y) ?_ (fun hy => ?_) <;> [(unfold y; clear y); (clear_value y; rename' y => w)])
    | (extract_lets +onlyGivenNames y; clear_value y; rename' y => w)
    | (extract_lets +onlyGivenNames y; rename' y => w)
    | with_reducible apply State.modChIn_keeps
    | (with_reducible apply Keeps.foldl; intro y b hy)
    | (with_reducible apply Keeps.foldl_fst; intro y b hy)
    | split
    | dsimp -zeta only

theorem State.channelProxy_keeps {A : Nat} {z : State} {s : State} {c : Nat} {f : TxFrame} (hA : 0x4c00200045 &&& A = 0x4c00200045) (hk : Keeps A z s) :
    Keeps A z (State.channelProxy s c f) := by
  unfold State.channelProxy
  repeat' first
    | with_reducible assumption
    | ((with_reducible refine Part.sub hA ?_); rfl)
    | (extract_lets +onlyGivenNames y; refine Keeps.cut (y := y) ?_ (fun hy => ?_) <;> [(unfold y; clear y); (clear_value y; rename' y => w)])
    | (extract_lets +onlyGivenNames y; clear_value y; rename' y => w)
    | (extract_lets +onlyGivenNames y; rename' y => w)
    | with_reducible apply State.modChIn_keeps
    | with_reducible apply State.admitRecord_keeps
    | with_reducible apply Keeps.freshMore
    | split
    | (with_reducible refine Keeps.change ?_ rfl rfl rfl rfl rfl rfl rfl rfl id ?_)
    | (intro p hp; cases p <;> first | exact Part.inside hA hp rfl | rfl)
    | dsimp -zeta only

theorem State.closeFrame_keeps {A : Nat} {z : State} {s : State} {c : Nat} (hA : 0x4c1da0c045 &&& A = 0x4c1da0c045) (hk : Keeps A z s) :
    Keeps A z (State.closeFrame s c) := by
  unfold State.closeFrame
  repeat' first
    | with_reducible assumption
    | ((with_reducible refine Part.sub hA ?_); rfl)
    | (extract_lets +onlyGivenNames y; refine Keeps.cut (y := y.1) ?_ (fun hy => ?_) <;> [(unfold y; clear y); rename' y => w])
    | (extract_lets +onlyGivenNames y; refine Keeps.cut (y := y) ?_ (fun hy => ?_) <;> [(unfold y; clear y); rename' y => w])
    | (extract_lets +onlyGivenNames y; rename' y => w)
    | with_reducible apply State.modChan_keeps
    | with_reducible apply State.modRind_keeps
    | with_reducible apply State.modPair_keeps
    | with_reducible apply State.chanSend_keeps
    | with_reducible apply State.frameResolved_keeps
    | with_reducible apply State.under_keeps
    | with_reducible intro _
    | with_reducible apply State.channelProxy_keeps
    | split
    | dsimp -zeta only

theorem State.pressFollows_keeps {A : Nat} {z : State} {s : State} {c frame line col q d : Nat} (hA : 0x800000 &&& A = 0x800000) (hk : Keeps A z s) :
    Keeps A z (State.pressFollows s c frame line col q d) := by
  unfold State.pressFollows
  repeat' first
    | with_reducible assumption
    | ((with_reducible refine Part.sub hA ?_); rfl)
    | (extract_lets +onlyGivenNames y; refine Keeps.cut (y := y) ?_ (fun hy => ?_) <;> [(unfold y; clear y); (clear_value y; rename' y => w)])
    | (extract_lets +onlyGivenNames y; clear_value y; rename' y => w)
    | (extract_lets +onlyGivenNames y; rename' y => w)
    | with_reducible apply State.modChan_keeps
    | with_reducible apply State.setQ_keeps
    | split
    | dsimp -zeta only

theorem State.modJob_keeps {A : Nat} {z : State} {s : State} {c : Nat} {j : Job} {f : Job → Job} (hA : 0x800000 &&& A = 0x800000) (hk : Keeps A z s) :
    Keeps A z (State.modJob s c j f) := by
  unfold State.modJob
  repeat' first
    | with_reducible assumption
    | ((with_reducible refine Part.sub hA ?_); rfl)
    | (extract_lets +onlyGivenNames y; refine Keeps.cut (y := y) ?_ (fun hy => ?_) <;> [(unfold y; clear y); (clear_value y; rename' y => w)])
    | (extract_lets +onlyGivenNames y; clear_value y; rename' y => w)
    | (extract_lets +onlyGivenNames y; rename' y => w)
    | with_reducible apply State.modChan_keeps
    | split
    | dsimp -zeta only

theorem State.dropJobs_keeps {A : Nat} {z : State} {s : State} {c : Nat} (hA : 0x800000 &&& A = 0x800000) (hk : Keeps A z s) :
    Keeps A z (State.dropJobs s c) := by
  unfold State.dropJobs
  repeat' first
    | with_reducible assumption
    | ((with_reducible refine Part.sub hA ?_); rfl)
    | (extract_lets +onlyGivenNames y; refine Keeps.cut (y := y) ?_ (fun hy => ?_) <;> [(unfold y; clear y); (clear_value y; rename' y => w)])
    | (extract_lets +onlyGivenNames y; clear_value y; rename' y => w)
    | (extract_lets +onlyGivenNames y; rename' y => w)
    | with_reducible apply State.modChan_keeps
    | split
    | dsimp -zeta only

theorem State.resolve_keeps {A : Nat} {z : State} {s : State} {c : Nat} {j : Job} {o : Outcome3} (hA : 0x4c1da0c045 &&& A = 0x4c1da0c045) (hk : Keeps A z s) :
    Keeps A z (State.resolve s c j o) := by
  unfold State.resolve
  repeat' first
    | with_reducible assumption
    | ((with_reducible refine Part.sub hA ?_); rfl)
    | (extract_lets +onlyGivenNames y; refine Keeps.cut (y := y) ?_ (fun hy => ?_) <;> [(unfold y; clear y); (clear_value y; rename' y => w)])
    | (extract_lets +onlyGivenNames y; clear_value y; rename' y => w)
    | (extract_lets +onlyGivenNames y; rename' y => w)
    | with_reducible apply State.count_keeps
    | with_reducible apply State.modChan_keeps
    | with_reducible apply State.chanSend_keeps
    | with_reducible apply State.modLineRecord_keeps
    | with_reducible apply State.openRecord_keeps
    | with_reducible apply State.packRecord_keeps
    | with_reducible apply State.modFrame_keeps
    | with_reducible apply State.closeLine_keeps
    | with_reducible apply State.closeFrame_keeps
    | with_reducible apply State.pressFollows_keeps
    | with_reducible apply State.modJob_keeps
    | with_reducible apply State.dropJobs_keeps
    | split
    | dsimp -zeta only

theorem State.charge_keeps {A : Nat} {z : State} {s : State} {c : Nat} {j : Job} {cost q : Nat} (hA : 0x800000 &&& A = 0x800000) (hk : Keeps A z s) :
    Keeps A z (State.charge s c j cost q) := by
  unfold State.charge
  repeat' first
    | with_reducible assumption
    | ((with_reducible refine Part.sub hA ?_); rfl)
    | (extract_lets +onlyGivenNames y; refine Keeps.cut (y := y) ?_ (fun hy => ?_) <;> [(unfold y; clear y); (clear_value y; rename' y => w)])
    | (extract_lets +onlyGivenNames y; clear_value y; rename' y => w)
    | (extract_lets +onlyGivenNames y; rename' y => w)
    | with_reducible apply State.modChan_keeps
    | with_reducible apply State.modJob_keeps
    | split
    | dsimp -zeta only

theorem State.storeColumn_keeps {A : Nat} {z : State} {s : State} {k col frame line : Nat} {r : List (List Int)} (hA : 0x1000000 &&& A = 0x1000000) (hk : Keeps A z s) :
    Keeps A z (State.storeColumn s k col frame line r) := by
  unfold State.storeColumn
  repeat' first
    | with_reducible assumption
    | ((with_reducible refine Part.sub hA ?_); rfl)
    | (extract_lets +onlyGivenNames y; refine Keeps.cut (y := y) ?_ (fun hy => ?_) <;> [(unfold y; clear y); (clear_value y; rename' y => w)])
    | (extract_lets +onlyGivenNames y; clear_value y; rename' y => w)
    | (extract_lets +onlyGivenNames y; rename' y => w)
    | with_reducible apply State.modCoder_keeps
    | split
    | dsimp -zeta only

theorem State.curdLate_keeps {A : Nat} {z : State} {s : State} {c : Nat} {j : Job} {reason lateness : Nat} {stamp : Stamp} (hA : 0x4000000000 &&& A = 0x4000000000) (hk : Keeps A z s) :
    Keeps A z (State.curdLate s c j reason lateness stamp) := by
  unfold State.curdLate
  repeat' first
    | with_reducible assumption
    | ((with_reducible refine Part.sub hA ?_); rfl)
    | (extract_lets +onlyGivenNames y; refine Keeps.cut (y := y) ?_ (fun hy => ?_) <;> [(unfold y; clear y); (clear_value y; rename' y => w)])
    | (extract_lets +onlyGivenNames y; clear_value y; rename' y => w)
    | (extract_lets +onlyGivenNames y; rename' y => w)
    | with_reducible apply State.logRated_keeps
    | split
    | dsimp -zeta only

theorem State.handOver_keeps {A : Nat} {z : State} {s : State} {c : Nat} {j : Job} (hA : 0x4c1da0c045 &&& A = 0x4c1da0c045) (hk : Keeps A z s) :
    Keeps A z (State.handOver s c j) := by
  unfold State.handOver
  repeat' first
    | with_reducible assumption
    | ((with_reducible refine Part.sub hA ?_); rfl)
    | (extract_lets +onlyGivenNames y; refine Keeps.cut (y := y) ?_ (fun hy => ?_) <;> [(unfold y; clear y); (clear_value y; rename' y => w)])
    | (extract_lets +onlyGivenNames y; clear_value y; rename' y => w)
    | (extract_lets +onlyGivenNames y; rename' y => w)
    | with_reducible apply State.count_keeps
    | with_reducible apply State.event_keeps
    | with_reducible apply State.resolve_keeps
    | with_reducible apply State.curdLate_keeps
    | split
    | dsimp -zeta only

theorem State.settleIn_keeps {A : Nat} {z : State} {s : State} {c : Nat} {j : Job} (hA : 0x4c1da0c045 &&& A = 0x4c1da0c045) (hk : Keeps A z s) :
    Keeps A z (State.settleIn s c j) := by
  unfold State.settleIn
  repeat' first
    | with_reducible assumption
    | ((with_reducible refine Part.sub hA ?_); rfl)
    | (extract_lets +onlyGivenNames y; refine Keeps.cut (y := y) ?_ (fun hy => ?_) <;> [(unfold y; clear y); (clear_value y; rename' y => w)])
    | (extract_lets +onlyGivenNames y; clear_value y; rename' y => w)
    | (extract_lets +onlyGivenNames y; rename' y => w)
    | with_reducible apply State.count_keeps
    | with_reducible apply State.modRind_keeps
    | with_reducible apply State.resolve_keeps
    | with_reducible apply State.handOver_keeps
    | split
    | dsimp -zeta only

theorem State.settleJob_keeps {A : Nat} {z : State} {s : State} {c : Nat} {j : Job} (hA : 0x4c1da0c045 &&& A = 0x4c1da0c045) (hk : Keeps A z s) :
    Keeps A z (State.settleJob s c j) := by
  unfold State.settleJob
  dsimp only
  repeat' first
    | with_reducible assumption
    | ((with_reducible refine Part.sub hA ?_); rfl)
    | (extract_lets +onlyGivenNames y; refine Keeps.cut (y := y) ?_ (fun hy => ?_) <;> [(unfold y; clear y); (clear_value y; rename' y => w)])
    | (extract_lets +onlyGivenNames y; clear_value y; rename' y => w)
    | (extract_lets +onlyGivenNames y; rename' y => w)
    | with_reducible apply State.under_keeps
    | with_reducible intro _
    | with_reducible apply State.modJob_keeps
    | with_reducible apply State.charge_keeps
    | with_reducible apply State.settleIn_keeps
    | split
    | dsimp -zeta only

theorem State.settle_keeps {A : Nat} {z : State} {s : State} {c : Nat} (hA : 0x4c1da0c045 &&& A = 0x4c1da0c045) (hk : Keeps A z s) :
    Keeps A z (State.settle s c) := by
  unfold State.settle
  repeat' first
    | with_reducible assumption
    | ((with_reducible refine Part.sub hA ?_); rfl)
    | (extract_lets +onlyGivenNames y; refine Keeps.cut (y := y) ?_ (fun hy => ?_) <;> [(unfold y; clear y); (clear_value y; rename' y => w)])
    | (extract_lets +onlyGivenNames y; clear_value y; rename' y => w)
    | (extract_lets +onlyGivenNames y; rename' y => w)
    | with_reducible apply State.settleJob_keeps
    | (with_reducible apply Keeps.foldl; intro y b hy)
    | (with_reducible apply Keeps.foldl_fst; intro y b hy)
    | split
    | dsimp -zeta only

theorem State.finishFrame_keeps {A : Nat} {z : State} {s : State} {c : Nat} {f : TxFrame} (hA : 0x4c1da0c045 &&& A = 0x4c1da0c045) (hk : Keeps A z s) :
    Keeps A z (State.finishFrame s c f) := by
  unfold State.finishFrame
  repeat' first
    | with_reducible assumption
    | ((with_reducible refine Part.sub hA ?_); rfl)
    | (extract_lets +onlyGivenNames y; refine Keeps.cut (y := y) ?_ (fun hy => ?_) <;> [(unfold y; clear y); (clear_value y; rename' y => w)])
    | (extract_lets +onlyGivenNames y; clear_value y; rename' y => w)
    | (extract_lets +onlyGivenNames y; rename' y => w)
    | with_reducible apply State.modFrame_keeps
    | with_reducible apply State.under_keeps
    | with_reducible intro _
    | with_reducible apply State.resolve_keeps
    | (with_reducible apply Keeps.foldl; intro y b hy)
    | (with_reducible apply Keeps.foldl_fst; intro y b hy)
    | split
    | dsimp -zeta only

theorem State.finishFrames_keeps {A : Nat} {z : State} {s : State} {c : Nat} (hA : 0x4c1da0c045 &&& A = 0x4c1da0c045) (hk : Keeps A z s) :
    Keeps A z (State.finishFrames s c) := by
  unfold State.finishFrames
  repeat' first
    | with_reducible assumption
    | ((with_reducible refine Part.sub hA ?_); rfl)
    | (extract_lets +onlyGivenNames y; refine Keeps.cut (y := y) ?_ (fun hy => ?_) <;> [(unfold y; clear y); (clear_value y; rename' y => w)])
    | (extract_lets +onlyGivenNames y; clear_value y; rename' y => w)
    | (extract_lets +onlyGivenNames y; rename' y => w)
    | with_reducible apply State.modChan_keeps
    | with_reducible apply State.finishFrame_keeps
    | (with_reducible apply Keeps.foldl; intro y b hy)
    | (with_reducible apply Keeps.foldl_fst; intro y b hy)
    | split
    | dsimp -zeta only

theorem State.sendEov_keeps {A : Nat} {z : State} {s : State} {c : Nat} (hA : 0x8800000 &&& A = 0x8800000) (hk : Keeps A z s) :
    Keeps A z (State.sendEov s c) := by
  unfold State.sendEov
  repeat' first
    | with_reducible assumption
    | ((with_reducible refine Part.sub hA ?_); rfl)
    | (extract_lets +onlyGivenNames y; refine Keeps.cut (y := y) ?_ (fun hy => ?_) <;> [(unfold y; clear y); (clear_value y; rename' y => w)])
    | (extract_lets +onlyGivenNames y; clear_value y; rename' y => w)
    | (extract_lets +onlyGivenNames y; rename' y => w)
    | with_reducible apply State.modChan_keeps
    | with_reducible apply State.chanSend_keeps
    | split
    | dsimp -zeta only

theorem State.beginEov_keeps {A : Nat} {z : State} {s : State} {c reason cls : Nat} {left before : Option Nat} (hA : 0x8800000 &&& A = 0x8800000) (hk : Keeps A z s) :
    Keeps A z (State.beginEov s c reason cls left before) := by
  unfold State.beginEov
  repeat' first
    | with_reducible assumption
    | ((with_reducible refine Part.sub hA ?_); rfl)
    | (extract_lets +onlyGivenNames y; refine Keeps.cut (y := y) ?_ (fun hy => ?_) <;> [(unfold y; clear y); (clear_value y; rename' y => w)])
    | (extract_lets +onlyGivenNames y; clear_value y; rename' y => w)
    | (extract_lets +onlyGivenNames y; rename' y => w)
    | with_reducible apply State.modChan_keeps
    | with_reducible apply State.sendEov_keeps
    | split
    | dsimp -zeta only

theorem State.channelHarmless_keeps {A : Nat} {z : State} {s : State} {c reason cls : Nat} (hA : 0x4c1da0c045 &&& A = 0x4c1da0c045) (hk : Keeps A z s) :
    Keeps A z (State.channelHarmless s c reason cls) := by
  unfold State.channelHarmless
  repeat' first
    | with_reducible assumption
    | ((with_reducible refine Part.sub hA ?_); rfl)
    | (extract_lets +onlyGivenNames y; refine Keeps.cut (y := y) ?_ (fun hy => ?_) <;> [(unfold y; clear y); (clear_value y; rename' y => w)])
    | (extract_lets +onlyGivenNames y; clear_value y; rename' y => w)
    | (extract_lets +onlyGivenNames y; rename' y => w)
    | with_reducible apply State.modChan_keeps
    | with_reducible apply State.finishFrames_keeps
    | with_reducible apply State.beginEov_keeps
    | split
    | dsimp -zeta only

theorem State.channelReturn_keeps {A : Nat} {z : State} {s : State} {c : Nat} (hA : 0x4800000 &&& A = 0x4800000) (hk : Keeps A z s) :
    Keeps A z (State.channelReturn s c) := by
  unfold State.channelReturn
  repeat' first
    | with_reducible assumption
    | ((with_reducible refine Part.sub hA ?_); rfl)
    | (extract_lets +onlyGivenNames y; refine Keeps.cut (y := y) ?_ (fun hy => ?_) <;> [(unfold y; clear y); (clear_value y; rename' y => w)])
    | (extract_lets +onlyGivenNames y; clear_value y; rename' y => w)
    | (extract_lets +onlyGivenNames y; rename' y => w)
    | with_reducible apply State.modChan_keeps
    | with_reducible apply State.modRind_keeps
    | split
    | dsimp -zeta only

end Sys2Proof.Machine
end

