-- ==== Sys2Proof/Laws/KeepEffects.lean ====
section
/-!
SUPPORT. Keeps for the operations of Machine/Effects.lean.
-/

namespace Sys2Proof.Machine

theorem State.goHarmless_keeps {A : Nat} {z : State} {s : State} {o : Output} {reason cls : Nat} (hA : 0x4c3da0c865 &&& A = 0x4c3da0c865) (hk : Keeps A z s) :
    Keeps A z (State.goHarmless s o reason cls) := by
  unfold State.goHarmless
  repeat' first
    | with_reducible assumption
    | ((with_reducible refine Part.sub hA ?_); rfl)
    | (extract_lets +onlyGivenNames y; refine Keeps.cut (y := y) ?_ (fun hy => ?_) <;> [(unfold y; clear y); (clear_value y; rename' y => w)])
    | (extract_lets +onlyGivenNames y; clear_value y; rename' y => w)
    | (extract_lets +onlyGivenNames y; rename' y => w)
    | with_reducible apply State.modTioPin_keeps
    | with_reducible apply State.modHead_keeps
    | with_reducible apply State.send_keeps
    | with_reducible apply State.channelHarmless_keeps
    | split
    | dsimp -zeta only

theorem State.comeBack_keeps {A : Nat} {z : State} {s : State} {o : Output} (hA : 0x4800000 &&& A = 0x4800000) (hk : Keeps A z s) :
    Keeps A z (State.comeBack s o) := by
  unfold State.comeBack
  repeat' first
    | with_reducible assumption
    | ((with_reducible refine Part.sub hA ?_); rfl)
    | (extract_lets +onlyGivenNames y; refine Keeps.cut (y := y) ?_ (fun hy => ?_) <;> [(unfold y; clear y); (clear_value y; rename' y => w)])
    | (extract_lets +onlyGivenNames y; clear_value y; rename' y => w)
    | (extract_lets +onlyGivenNames y; rename' y => w)
    | with_reducible apply State.channelReturn_keeps
    | split
    | dsimp -zeta only

theorem State.allHarmless_keeps {A : Nat} {z : State} {s : State} {chReason cls : Nat} (hA : 0x4c3da0c865 &&& A = 0x4c3da0c865) (hk : Keeps A z s) :
    Keeps A z (State.allHarmless s chReason cls) := by
  unfold State.allHarmless
  repeat' first
    | with_reducible assumption
    | ((with_reducible refine Part.sub hA ?_); rfl)
    | (extract_lets +onlyGivenNames y; refine Keeps.cut (y := y) ?_ (fun hy => ?_) <;> [(unfold y; clear y); (clear_value y; rename' y => w)])
    | (extract_lets +onlyGivenNames y; clear_value y; rename' y => w)
    | (extract_lets +onlyGivenNames y; rename' y => w)
    | with_reducible apply State.goHarmless_keeps
    | (with_reducible apply Keeps.foldl; intro y b hy)
    | (with_reducible apply Keeps.foldl_fst; intro y b hy)
    | split
    | dsimp -zeta only

theorem State.allReturn_keeps {A : Nat} {z : State} {s : State} (hA : 0x4800000 &&& A = 0x4800000) (hk : Keeps A z s) :
    Keeps A z (State.allReturn s) := by
  unfold State.allReturn
  repeat' first
    | with_reducible assumption
    | ((with_reducible refine Part.sub hA ?_); rfl)
    | (extract_lets +onlyGivenNames y; refine Keeps.cut (y := y) ?_ (fun hy => ?_) <;> [(unfold y; clear y); (clear_value y; rename' y => w)])
    | (extract_lets +onlyGivenNames y; clear_value y; rename' y => w)
    | (extract_lets +onlyGivenNames y; rename' y => w)
    | with_reducible apply State.comeBack_keeps
    | (with_reducible apply Keeps.foldl; intro y b hy)
    | (with_reducible apply Keeps.foldl_fst; intro y b hy)
    | split
    | dsimp -zeta only

theorem State.enterSafe_keeps {A : Nat} {z : State} {s : State} {cls : Nat} {cleared : Bool} (hA : 0x4c3da0c865 &&& A = 0x4c3da0c865) (hk : Keeps A z s) :
    Keeps A z (State.enterSafe s cls cleared) := by
  unfold State.enterSafe
  repeat' first
    | with_reducible assumption
    | ((with_reducible refine Part.sub hA ?_); rfl)
    | (extract_lets +onlyGivenNames y; refine Keeps.cut (y := y) ?_ (fun hy => ?_) <;> [(unfold y; clear y); rename' y => w])
    | (extract_lets +onlyGivenNames y; rename' y => w)
    | with_reducible apply State.count_keeps
    | with_reducible apply State.log_keeps
    | with_reducible apply State.event_keeps
    | with_reducible apply State.sealWheel_keeps
    | with_reducible apply State.allHarmless_keeps
    | split
    | (with_reducible refine Keeps.change ?_ rfl rfl rfl rfl rfl rfl rfl rfl id ?_)
    | (intro p hp; cases p <;> first | exact Part.inside hA hp rfl | rfl)
    | dsimp -zeta only

theorem State.clearSafe_keeps {A : Nat} {z : State} {s : State} {cls : Nat} (hA : 0x4000000000 &&& A = 0x4000000000) (hk : Keeps A z s) :
    Keeps A z (State.clearSafe s cls) := by
  unfold State.clearSafe
  repeat' first
    | with_reducible assumption
    | ((with_reducible refine Part.sub hA ?_); rfl)
    | (extract_lets +onlyGivenNames y; refine Keeps.cut (y := y) ?_ (fun hy => ?_) <;> [(unfold y; clear y); rename' y => w])
    | (extract_lets +onlyGivenNames y; rename' y => w)
    | split
    | (with_reducible refine Keeps.change ?_ rfl rfl rfl rfl rfl rfl rfl rfl id ?_)
    | (intro p hp; cases p <;> first | exact Part.inside hA hp rfl | rfl)
    | dsimp -zeta only

theorem State.clearCause_keeps {A : Nat} {z : State} {s : State} {o : Output} {cls : Nat} (hA : 0x4000000000 &&& A = 0x4000000000) (hk : Keeps A z s) :
    Keeps A z (State.clearCause s o cls) := by
  unfold State.clearCause
  repeat' first
    | with_reducible assumption
    | ((with_reducible refine Part.sub hA ?_); rfl)
    | (extract_lets +onlyGivenNames y; refine Keeps.cut (y := y) ?_ (fun hy => ?_) <;> [(unfold y; clear y); rename' y => w])
    | (extract_lets +onlyGivenNames y; rename' y => w)
    | split
    | (with_reducible refine Keeps.change ?_ rfl rfl rfl rfl rfl rfl rfl rfl id ?_)
    | (intro p hp; cases p <;> first | exact Part.inside hA hp rfl | rfl)
    | dsimp -zeta only

theorem State.clearCauseAll_keeps {A : Nat} {z : State} {s : State} {cls : Nat} (hA : 0x4000000000 &&& A = 0x4000000000) (hk : Keeps A z s) :
    Keeps A z (State.clearCauseAll s cls) := by
  unfold State.clearCauseAll
  repeat' first
    | with_reducible assumption
    | ((with_reducible refine Part.sub hA ?_); rfl)
    | (extract_lets +onlyGivenNames y; refine Keeps.cut (y := y) ?_ (fun hy => ?_) <;> [(unfold y; clear y); rename' y => w])
    | (extract_lets +onlyGivenNames y; rename' y => w)
    | split
    | (with_reducible refine Keeps.change ?_ rfl rfl rfl rfl rfl rfl rfl rfl id ?_)
    | (intro p hp; cases p <;> first | exact Part.inside hA hp rfl | rfl)
    | dsimp -zeta only

theorem State.releaseCause_keeps {A : Nat} {z : State} {s : State} {o : Output} {cls : Nat} (hA : 0x4804800005 &&& A = 0x4804800005) (hk : Keeps A z s) :
    Keeps A z (State.releaseCause s o cls) := by
  unfold State.releaseCause
  repeat' first
    | with_reducible assumption
    | ((with_reducible refine Part.sub hA ?_); rfl)
    | (extract_lets +onlyGivenNames y; refine Keeps.cut (y := y) ?_ (fun hy => ?_) <;> [(unfold y; clear y); rename' y => w])
    | (extract_lets +onlyGivenNames y; rename' y => w)
    | with_reducible apply State.count_keeps
    | with_reducible apply State.log_keeps
    | with_reducible apply State.event_keeps
    | with_reducible apply State.comeBack_keeps
    | split
    | (with_reducible refine Keeps.change ?_ rfl rfl rfl rfl rfl rfl rfl rfl id ?_)
    | (intro p hp; cases p <;> first | exact Part.inside hA hp rfl | rfl)
    | dsimp -zeta only

end Sys2Proof.Machine
end

