-- ==== Sys2Proof/Laws/KeepMemMap.lean ====
section
/-!
SUPPORT. Keeps for the operations of Machine/MemMap.lean.
-/

namespace Sys2Proof.Machine

theorem State.panicCheck_keeps {A : Nat} {z : State} {s : State} {m : Nat} (hA : 0x200000000 &&& A = 0x200000000) (hk : Keeps A z s) :
    Keeps A z (State.panicCheck s m) := by
  unfold State.panicCheck
  repeat' first
    | with_reducible assumption
    | ((with_reducible refine Part.sub hA ?_); rfl)
    | (extract_lets +onlyGivenNames y; refine Keeps.cut (y := y) ?_ (fun hy => ?_) <;> [(unfold y; clear y); (clear_value y; rename' y => w)])
    | (extract_lets +onlyGivenNames y; clear_value y; rename' y => w)
    | (extract_lets +onlyGivenNames y; rename' y => w)
    | with_reducible apply State.modMchan_keeps
    | split
    | dsimp -zeta only

theorem State.raiseReads_keeps {A : Nat} {z : State} {s : State} {readers : List Nat} {urgent panic : Bool} (hA : 0x200000000 &&& A = 0x200000000) (hk : Keeps A z s) :
    Keeps A z (State.raiseReads s readers urgent panic) := by
  unfold State.raiseReads
  repeat' first
    | with_reducible assumption
    | ((with_reducible refine Part.sub hA ?_); rfl)
    | (extract_lets +onlyGivenNames y; refine Keeps.cut (y := y) ?_ (fun hy => ?_) <;> [(unfold y; clear y); (clear_value y; rename' y => w)])
    | (extract_lets +onlyGivenNames y; clear_value y; rename' y => w)
    | (extract_lets +onlyGivenNames y; rename' y => w)
    | with_reducible apply State.modMchan_keeps
    | with_reducible apply State.panicCheck_keeps
    | (with_reducible apply Keeps.foldl; intro y b hy)
    | (with_reducible apply Keeps.foldl_fst; intro y b hy)
    | split
    | dsimp -zeta only

theorem State.poison_keeps {A : Nat} {z : State} {s : State} {l copy : Nat} (hA : 0x200000000 &&& A = 0x200000000) (hk : Keeps A z s) :
    Keeps A z (State.poison s l copy) := by
  unfold State.poison
  repeat' first
    | with_reducible assumption
    | ((with_reducible refine Part.sub hA ?_); rfl)
    | (extract_lets +onlyGivenNames y; refine Keeps.cut (y := y) ?_ (fun hy => ?_) <;> [(unfold y; clear y); (clear_value y; rename' y => w)])
    | (extract_lets +onlyGivenNames y; clear_value y; rename' y => w)
    | (extract_lets +onlyGivenNames y; rename' y => w)
    | with_reducible apply State.modMemory_keeps
    | split
    | dsimp -zeta only

theorem State.unpoison_keeps {A : Nat} {z : State} {s : State} {l copy : Nat} (hA : 0x200000000 &&& A = 0x200000000) (hk : Keeps A z s) :
    Keeps A z (State.unpoison s l copy) := by
  unfold State.unpoison
  repeat' first
    | with_reducible assumption
    | ((with_reducible refine Part.sub hA ?_); rfl)
    | (extract_lets +onlyGivenNames y; refine Keeps.cut (y := y) ?_ (fun hy => ?_) <;> [(unfold y; clear y); (clear_value y; rename' y => w)])
    | (extract_lets +onlyGivenNames y; clear_value y; rename' y => w)
    | (extract_lets +onlyGivenNames y; rename' y => w)
    | with_reducible apply State.modMemory_keeps
    | split
    | dsimp -zeta only

end Sys2Proof.Machine
end

