-- ==== Sys2Proof/Laws/KeepLedger.lean ====
section
/-!
SUPPORT. Keeps for the operations of Machine/Ledger.lean.
-/

namespace Sys2Proof.Machine

theorem State.overflowCheck_keeps {A : Nat} {z : State} {s : State} (hA : 0x4000000000 &&& A = 0x4000000000) (hk : Keeps A z s) :
    Keeps A z (State.overflowCheck s) := by
  unfold State.overflowCheck
  repeat' first
    | with_reducible assumption
    | ((with_reducible refine Part.sub hA ?_); rfl)
    | (extract_lets +onlyGivenNames y; refine Keeps.cut (y := y) ?_ (fun hy => ?_) <;> [(unfold y; clear y); rename' y => w])
    | (extract_lets +onlyGivenNames y; rename' y => w)
    | with_reducible apply State.log_keeps
    | with_reducible apply State.clearSafe_keeps
    | split
    | (with_reducible refine Keeps.change ?_ rfl rfl rfl rfl rfl rfl rfl rfl id ?_)
    | (intro p hp; cases p <;> first | exact Part.inside hA hp rfl | rfl)
    | dsimp -zeta only

theorem State.overflowAt_keeps {A : Nat} {z : State} {s : State} {stamp : Stamp} (hA : 0x4c3da0c865 &&& A = 0x4c3da0c865) (hk : Keeps A z s) :
    Keeps A z (State.overflowAt s stamp) := by
  unfold State.overflowAt
  repeat' first
    | with_reducible assumption
    | ((with_reducible refine Part.sub hA ?_); rfl)
    | (extract_lets +onlyGivenNames y; refine Keeps.cut (y := y) ?_ (fun hy => ?_) <;> [(unfold y; clear y); rename' y => w])
    | (extract_lets +onlyGivenNames y; rename' y => w)
    | with_reducible apply State.count_keeps
    | with_reducible apply State.event_keeps
    | with_reducible apply State.enterSafe_keeps
    | split
    | (with_reducible refine Keeps.change ?_ rfl rfl rfl rfl rfl rfl rfl rfl id ?_)
    | (intro p hp; cases p <;> first | exact Part.inside hA hp rfl | rfl)
    | dsimp -zeta only

theorem State.ledgerIntake_keeps {A : Nat} {z : State} {s : State} {ctrl : Nat} (hA : 0x24c3da0c865 &&& A = 0x24c3da0c865) (hk : Keeps A z s) :
    Keeps A z (State.ledgerIntake s ctrl) := by
  unfold State.ledgerIntake
  repeat' first
    | with_reducible assumption
    | ((with_reducible refine Part.sub hA ?_); rfl)
    | (extract_lets +onlyGivenNames y; refine Keeps.cut (y := y) ?_ (fun hy => ?_) <;> [(unfold y; clear y); rename' y => w])
    | (extract_lets +onlyGivenNames y; rename' y => w)
    | with_reducible apply State.enterSafe_keeps
    | with_reducible apply State.overflowAt_keeps
    | split
    | (with_reducible refine Keeps.change ?_ rfl rfl rfl rfl rfl rfl rfl rfl id ?_)
    | (intro p hp; cases p <;> first | exact Part.inside hA hp rfl | rfl)
    | (with_reducible refine Keeps.changeDrain ?_ rfl rfl rfl rfl rfl rfl rfl (Part.has hA rfl) ?_)
    | dsimp -zeta only

theorem State.raiseCause_keeps {A : Nat} {z : State} {s : State} {e : Entry} {o : Output} {reason : Nat} (hA : 0x4c3da0c865 &&& A = 0x4c3da0c865) (hk : Keeps A z s) :
    Keeps A z (State.raiseCause s e o reason) := by
  unfold State.raiseCause
  repeat' first
    | with_reducible assumption
    | ((with_reducible refine Part.sub hA ?_); rfl)
    | (extract_lets +onlyGivenNames y; refine Keeps.cut (y := y) ?_ (fun hy => ?_) <;> [(unfold y; clear y); rename' y => w])
    | (extract_lets +onlyGivenNames y; rename' y => w)
    | with_reducible apply State.goHarmless_keeps
    | split
    | (with_reducible refine Keeps.change ?_ rfl rfl rfl rfl rfl rfl rfl rfl id ?_)
    | (intro p hp; cases p <;> first | exact Part.inside hA hp rfl | rfl)
    | dsimp -zeta only

theorem State.ledgerDeliver_keeps {A : Nat} {z : State} {s : State} (hA : 0x4c3da0c865 &&& A = 0x4c3da0c865) (hk : Keeps A z s) :
    Keeps A z (State.ledgerDeliver s) := by
  unfold State.ledgerDeliver
  repeat' first
    | with_reducible assumption
    | ((with_reducible refine Part.sub hA ?_); rfl)
    | (extract_lets +onlyGivenNames y; refine Keeps.cut (y := y) ?_ (fun hy => ?_) <;> [(unfold y; clear y); rename' y => w])
    | (extract_lets +onlyGivenNames y; rename' y => w)
    | with_reducible apply State.countBy_keeps
    | with_reducible apply State.count_keeps
    | with_reducible apply State.event_keeps
    | with_reducible apply State.clearSafe_keeps
    | with_reducible apply State.overflowCheck_keeps
    | with_reducible apply State.overflowAt_keeps
    | with_reducible apply State.raiseCause_keeps
    | (with_reducible apply Keeps.foldl; intro y b hy)
    | (with_reducible apply Keeps.foldl_fst; intro y b hy)
    | split
    | (with_reducible refine Keeps.change ?_ rfl rfl rfl rfl rfl rfl rfl rfl id ?_)
    | (intro p hp; cases p <;> first | exact Part.inside hA hp rfl | rfl)
    | dsimp -zeta only

theorem execMirrorCopy_keeps {A : Nat} {z : State} {s : State} (hA : 0x4000000001 &&& A = 0x4000000001) (hk : Keeps A z s) :
    KeepsOut A z (execMirrorCopy s) := by
  unfold execMirrorCopy
  repeat' first
    | with_reducible assumption
    | with_reducible apply KeepsOut.fault
    | with_reducible apply KeepsOut.next
    | (extract_lets +onlyGivenNames y; refine KeepsOut.cut (y := y) ?_ (fun hy => ?_) <;> [(unfold y; clear y); rename' y => w])
    | ((with_reducible refine Part.sub hA ?_); rfl)
    | (extract_lets +onlyGivenNames y; refine Keeps.cut (y := y) ?_ (fun hy => ?_) <;> [(unfold y; clear y); rename' y => w])
    | (extract_lets +onlyGivenNames y; rename' y => w)
    | with_reducible apply State.count_keeps
    | with_reducible apply State.overflowCheck_keeps
    | split
    | (with_reducible refine Keeps.change ?_ rfl rfl rfl rfl rfl rfl rfl rfl id ?_)
    | (intro p hp; cases p <;> first | exact Part.inside hA hp rfl | rfl)
    | dsimp -zeta only

theorem execQuietExpire_keeps {A : Nat} {z : State} {o : Output} {s : State} (hA : 0x4804800005 &&& A = 0x4804800005) (hk : Keeps A z s) :
    KeepsOut A z (execQuietExpire o s) := by
  unfold execQuietExpire
  repeat' first
    | with_reducible assumption
    | with_reducible apply KeepsOut.fault
    | with_reducible apply KeepsOut.next
    | (extract_lets +onlyGivenNames y; refine KeepsOut.cut (y := y) ?_ (fun hy => ?_) <;> [(unfold y; clear y); (clear_value y; rename' y => w)])
    | ((with_reducible refine Part.sub hA ?_); rfl)
    | (extract_lets +onlyGivenNames y; refine Keeps.cut (y := y) ?_ (fun hy => ?_) <;> [(unfold y; clear y); (clear_value y; rename' y => w)])
    | (extract_lets +onlyGivenNames y; clear_value y; rename' y => w)
    | (extract_lets +onlyGivenNames y; rename' y => w)
    | with_reducible apply State.releaseCause_keeps
    | (with_reducible apply Keeps.foldl; intro y b hy)
    | (with_reducible apply Keeps.foldl_fst; intro y b hy)
    | split
    | dsimp -zeta only

theorem State.releaseIgnored_keeps {A : Nat} {z : State} {s : State} {o : Output} {cls : Nat} (hA : 0x4000000000 &&& A = 0x4000000000) (hk : Keeps A z s) :
    Keeps A z (State.releaseIgnored s o cls) := by
  unfold State.releaseIgnored
  repeat' first
    | with_reducible assumption
    | ((with_reducible refine Part.sub hA ?_); rfl)
    | (extract_lets +onlyGivenNames y; refine Keeps.cut (y := y) ?_ (fun hy => ?_) <;> [(unfold y; clear y); (clear_value y; rename' y => w)])
    | (extract_lets +onlyGivenNames y; clear_value y; rename' y => w)
    | (extract_lets +onlyGivenNames y; rename' y => w)
    | with_reducible apply State.log_keeps
    | split
    | dsimp -zeta only

theorem execRelCtrlOne_keeps {A : Nat} {z : State} {agent : Agent} {kind : Fin 4} {index : Fin 64} {s : State} (hA : 0x4804800005 &&& A = 0x4804800005) (hk : Keeps A z s) :
    KeepsOut A z (execRelCtrlOne agent kind index s) := by
  unfold execRelCtrlOne
  repeat' first
    | with_reducible assumption
    | with_reducible apply KeepsOut.fault
    | with_reducible apply KeepsOut.next
    | (extract_lets +onlyGivenNames y; refine KeepsOut.cut (y := y) ?_ (fun hy => ?_) <;> [(unfold y; clear y); (clear_value y; rename' y => w)])
    | ((with_reducible refine Part.sub hA ?_); rfl)
    | (extract_lets +onlyGivenNames y; refine Keeps.cut (y := y) ?_ (fun hy => ?_) <;> [(unfold y; clear y); (clear_value y; rename' y => w)])
    | (extract_lets +onlyGivenNames y; clear_value y; rename' y => w)
    | (extract_lets +onlyGivenNames y; rename' y => w)
    | with_reducible apply State.count_keeps
    | with_reducible apply State.releaseCause_keeps
    | with_reducible apply State.releaseIgnored_keeps
    | (with_reducible apply Keeps.foldl; intro y b hy)
    | (with_reducible apply Keeps.foldl_fst; intro y b hy)
    | split
    | dsimp -zeta only

theorem execRelCtrlAll_keeps {A : Nat} {z : State} {agent : Agent} {s : State} (hA : 0x4804800005 &&& A = 0x4804800005) (hk : Keeps A z s) :
    KeepsOut A z (execRelCtrlAll agent s) := by
  unfold execRelCtrlAll
  repeat' first
    | with_reducible assumption
    | with_reducible apply KeepsOut.fault
    | with_reducible apply KeepsOut.next
    | (extract_lets +onlyGivenNames y; refine KeepsOut.cut (y := y) ?_ (fun hy => ?_) <;> [(unfold y; clear y); (clear_value y; rename' y => w)])
    | ((with_reducible refine Part.sub hA ?_); rfl)
    | (extract_lets +onlyGivenNames y; refine Keeps.cut (y := y) ?_ (fun hy => ?_) <;> [(unfold y; clear y); (clear_value y; rename' y => w)])
    | (extract_lets +onlyGivenNames y; clear_value y; rename' y => w)
    | (extract_lets +onlyGivenNames y; rename' y => w)
    | with_reducible apply State.count_keeps
    | with_reducible apply State.releaseCause_keeps
    | with_reducible apply State.releaseIgnored_keeps
    | (with_reducible apply Keeps.foldl; intro y b hy)
    | (with_reducible apply Keeps.foldl_fst; intro y b hy)
    | split
    | dsimp -zeta only

theorem execSafeNTransition_keeps {A : Nat} {z : State} {high : Bool} {s : State} (hA : 0x4000000001 &&& A = 0x4000000001) (hk : Keeps A z s) :
    KeepsOut A z (execSafeNTransition high s) := by
  unfold execSafeNTransition
  repeat' first
    | with_reducible assumption
    | with_reducible apply KeepsOut.fault
    | with_reducible apply KeepsOut.next
    | (extract_lets +onlyGivenNames y; refine KeepsOut.cut (y := y) ?_ (fun hy => ?_) <;> [(unfold y; clear y); rename' y => w])
    | ((with_reducible refine Part.sub hA ?_); rfl)
    | (extract_lets +onlyGivenNames y; refine Keeps.cut (y := y) ?_ (fun hy => ?_) <;> [(unfold y; clear y); rename' y => w])
    | (extract_lets +onlyGivenNames y; rename' y => w)
    | with_reducible apply State.count_keeps
    | split
    | (with_reducible refine Keeps.change ?_ rfl rfl rfl rfl rfl rfl rfl rfl id ?_)
    | (intro p hp; cases p <;> first | exact Part.inside hA hp rfl | rfl)
    | dsimp -zeta only

theorem State.safePinQualify_keeps {A : Nat} {z : State} {s : State} (hA : 0x4c3da0c865 &&& A = 0x4c3da0c865) (hk : Keeps A z s) :
    Keeps A z (State.safePinQualify s) := by
  unfold State.safePinQualify
  repeat' first
    | with_reducible assumption
    | ((with_reducible refine Part.sub hA ?_); rfl)
    | (extract_lets +onlyGivenNames y; refine Keeps.cut (y := y) ?_ (fun hy => ?_) <;> [(unfold y; clear y); rename' y => w])
    | (extract_lets +onlyGivenNames y; rename' y => w)
    | with_reducible apply State.log_keeps
    | with_reducible apply State.event_keeps
    | with_reducible apply State.enterSafe_keeps
    | split
    | (with_reducible refine Keeps.change ?_ rfl rfl rfl rfl rfl rfl rfl rfl id ?_)
    | (intro p hp; cases p <;> first | exact Part.inside hA hp rfl | rfl)
    | dsimp -zeta only

theorem execSafePinClear_keeps {A : Nat} {z : State} {s : State} (hA : 0x4000000000 &&& A = 0x4000000000) (hk : Keeps A z s) :
    KeepsOut A z (execSafePinClear s) := by
  unfold execSafePinClear
  repeat' first
    | with_reducible assumption
    | with_reducible apply KeepsOut.fault
    | with_reducible apply KeepsOut.next
    | (extract_lets +onlyGivenNames y; refine KeepsOut.cut (y := y) ?_ (fun hy => ?_) <;> [(unfold y; clear y); (clear_value y; rename' y => w)])
    | ((with_reducible refine Part.sub hA ?_); rfl)
    | (extract_lets +onlyGivenNames y; refine Keeps.cut (y := y) ?_ (fun hy => ?_) <;> [(unfold y; clear y); (clear_value y; rename' y => w)])
    | (extract_lets +onlyGivenNames y; clear_value y; rename' y => w)
    | (extract_lets +onlyGivenNames y; rename' y => w)
    | with_reducible apply State.clearSafe_keeps
    | split
    | dsimp -zeta only

theorem State.safeRequested_keeps {A : Nat} {z : State} {s : State} {agent : Agent} (hA : 0x4c3da0c865 &&& A = 0x4c3da0c865) (hk : Keeps A z s) :
    Keeps A z (State.safeRequested s agent) := by
  unfold State.safeRequested
  repeat' first
    | with_reducible assumption
    | ((with_reducible refine Part.sub hA ?_); rfl)
    | (extract_lets +onlyGivenNames y; refine Keeps.cut (y := y) ?_ (fun hy => ?_) <;> [(unfold y; clear y); (clear_value y; rename' y => w)])
    | (extract_lets +onlyGivenNames y; clear_value y; rename' y => w)
    | (extract_lets +onlyGivenNames y; rename' y => w)
    | with_reducible apply State.count_keeps
    | with_reducible apply State.log_keeps
    | with_reducible apply State.enterSafe_keeps
    | split
    | dsimp -zeta only

theorem execSafeRelease_keeps {A : Nat} {z : State} {agent : Agent} {s : State} (hA : 0x4804800005 &&& A = 0x4804800005) (hk : Keeps A z s) :
    KeepsOut A z (execSafeRelease agent s) := by
  unfold execSafeRelease
  repeat' first
    | with_reducible assumption
    | with_reducible apply KeepsOut.fault
    | with_reducible apply KeepsOut.next
    | (extract_lets +onlyGivenNames y; refine KeepsOut.cut (y := y) ?_ (fun hy => ?_) <;> [(unfold y; clear y); rename' y => w])
    | ((with_reducible refine Part.sub hA ?_); rfl)
    | (extract_lets +onlyGivenNames y; refine Keeps.cut (y := y) ?_ (fun hy => ?_) <;> [(unfold y; clear y); rename' y => w])
    | (extract_lets +onlyGivenNames y; rename' y => w)
    | with_reducible apply State.count_keeps
    | with_reducible apply State.log_keeps
    | with_reducible apply State.event_keeps
    | with_reducible apply State.allReturn_keeps
    | split
    | (with_reducible refine Keeps.change ?_ rfl rfl rfl rfl rfl rfl rfl rfl id ?_)
    | (intro p hp; cases p <;> first | exact Part.inside hA hp rfl | rfl)
    | dsimp -zeta only

theorem State.respond_keeps {A : Nat} {z : State} {s : State} {r : Response} (hA : 0x4c3da0c865 &&& A = 0x4c3da0c865) (hk : Keeps A z s) :
    Keeps A z (State.respond s r) := by
  unfold State.respond
  repeat' first
    | with_reducible assumption
    | ((with_reducible refine Part.sub hA ?_); rfl)
    | (extract_lets +onlyGivenNames y; refine Keeps.cut (y := y) ?_ (fun hy => ?_) <;> [(unfold y; clear y); (clear_value y; rename' y => w)])
    | (extract_lets +onlyGivenNames y; clear_value y; rename' y => w)
    | (extract_lets +onlyGivenNames y; rename' y => w)
    | with_reducible apply State.goHarmless_keeps
    | (with_reducible apply Keeps.foldl; intro y b hy)
    | (with_reducible apply Keeps.foldl_fst; intro y b hy)
    | split
    | dsimp -zeta only

theorem execResponseRun_keeps {A : Nat} {z : State} {s : State} (hA : 0x4c3da0c865 &&& A = 0x4c3da0c865) (hk : Keeps A z s) :
    KeepsOut A z (execResponseRun s) := by
  unfold execResponseRun
  repeat' first
    | with_reducible assumption
    | with_reducible apply KeepsOut.fault
    | with_reducible apply KeepsOut.next
    | (extract_lets +onlyGivenNames y; refine KeepsOut.cut (y := y) ?_ (fun hy => ?_) <;> [(unfold y; clear y); rename' y => w])
    | ((with_reducible refine Part.sub hA ?_); rfl)
    | (extract_lets +onlyGivenNames y; refine Keeps.cut (y := y) ?_ (fun hy => ?_) <;> [(unfold y; clear y); rename' y => w])
    | (extract_lets +onlyGivenNames y; rename' y => w)
    | with_reducible apply State.count_keeps
    | with_reducible apply State.respond_keeps
    | split
    | (with_reducible refine Keeps.change ?_ rfl rfl rfl rfl rfl rfl rfl rfl id ?_)
    | (intro p hp; cases p <;> first | exact Part.inside hA hp rfl | rfl)
    | dsimp -zeta only

theorem execSpRestartsClear_keeps {A : Nat} {z : State} {s : State} (hA : 0x4000000000 &&& A = 0x4000000000) (hk : Keeps A z s) :
    KeepsOut A z (execSpRestartsClear s) := by
  unfold execSpRestartsClear
  repeat' first
    | with_reducible assumption
    | with_reducible apply KeepsOut.fault
    | with_reducible apply KeepsOut.next
    | (extract_lets +onlyGivenNames y; refine KeepsOut.cut (y := y) ?_ (fun hy => ?_) <;> [(unfold y; clear y); (clear_value y; rename' y => w)])
    | ((with_reducible refine Part.sub hA ?_); rfl)
    | (extract_lets +onlyGivenNames y; refine Keeps.cut (y := y) ?_ (fun hy => ?_) <;> [(unfold y; clear y); (clear_value y; rename' y => w)])
    | (extract_lets +onlyGivenNames y; clear_value y; rename' y => w)
    | (extract_lets +onlyGivenNames y; rename' y => w)
    | with_reducible apply State.clearSafe_keeps
    | split
    | dsimp -zeta only

theorem execRaisedCauseClear_keeps {A : Nat} {z : State} {o : Output} {cls : Nat} {s : State} (hA : 0x4000000000 &&& A = 0x4000000000) (hk : Keeps A z s) :
    KeepsOut A z (execRaisedCauseClear o cls s) := by
  unfold execRaisedCauseClear
  repeat' first
    | with_reducible assumption
    | with_reducible apply KeepsOut.fault
    | with_reducible apply KeepsOut.next
    | (extract_lets +onlyGivenNames y; refine KeepsOut.cut (y := y) ?_ (fun hy => ?_) <;> [(unfold y; clear y); (clear_value y; rename' y => w)])
    | ((with_reducible refine Part.sub hA ?_); rfl)
    | (extract_lets +onlyGivenNames y; refine Keeps.cut (y := y) ?_ (fun hy => ?_) <;> [(unfold y; clear y); (clear_value y; rename' y => w)])
    | (extract_lets +onlyGivenNames y; clear_value y; rename' y => w)
    | (extract_lets +onlyGivenNames y; rename' y => w)
    | with_reducible apply State.clearCause_keeps
    | split
    | dsimp -zeta only

end Sys2Proof.Machine
end

