-- ==== Sys2Proof/Laws/KeepCores.lean ====
section
/-!
SUPPORT. Keeps for the operations of Machine/Cores.lean.
-/

namespace Sys2Proof.Machine

theorem State.modProc_keeps {A : Nat} {z : State} {s : State} {n : Nat} {f : Processor → Processor} (hA : 0x800000000 &&& A = 0x800000000) (hk : Keeps A z s) :
    Keeps A z (State.modProc s n f) := by
  unfold State.modProc
  repeat' first
    | with_reducible assumption
    | ((with_reducible refine Part.sub hA ?_); rfl)
    | (extract_lets +onlyGivenNames y; refine Keeps.cut (y := y) ?_ (fun hy => ?_) <;> [(unfold y; clear y); (clear_value y; rename' y => w)])
    | (extract_lets +onlyGivenNames y; clear_value y; rename' y => w)
    | (extract_lets +onlyGivenNames y; rename' y => w)
    | with_reducible apply State.modTc_keeps
    | split
    | (with_reducible refine Keeps.change ?_ rfl rfl rfl rfl rfl rfl rfl rfl id ?_)
    | (intro p hp; cases p <;> first | exact Part.inside hA hp rfl | rfl)
    | dsimp -zeta only

theorem State.modFw_keeps {A : Nat} {z : State} {s : State} {k : Nat} {f : FwBank → FwBank} (hA : 0x1000 &&& A = 0x1000) (hk : Keeps A z s) :
    Keeps A z (State.modFw s k f) := by
  unfold State.modFw
  repeat' first
    | with_reducible assumption
    | ((with_reducible refine Part.sub hA ?_); rfl)
    | (extract_lets +onlyGivenNames y; refine Keeps.cut (y := y) ?_ (fun hy => ?_) <;> [(unfold y; clear y); (clear_value y; rename' y => w)])
    | (extract_lets +onlyGivenNames y; clear_value y; rename' y => w)
    | (extract_lets +onlyGivenNames y; rename' y => w)
    | split
    | (with_reducible refine Keeps.change ?_ rfl rfl rfl rfl rfl rfl rfl rfl id ?_)
    | (intro p hp; cases p <;> first | exact Part.inside hA hp rfl | rfl)
    | dsimp -zeta only

theorem State.restart_keeps {A : Nat} {z : State} {s : State} {n : Nat} (hA : 0x800000000 &&& A = 0x800000000) (hk : Keeps A z s) :
    Keeps A z (State.restart s n) := by
  unfold State.restart
  repeat' first
    | with_reducible assumption
    | ((with_reducible refine Part.sub hA ?_); rfl)
    | (extract_lets +onlyGivenNames y; refine Keeps.cut (y := y) ?_ (fun hy => ?_) <;> [(unfold y; clear y); (clear_value y; rename' y => w)])
    | (extract_lets +onlyGivenNames y; clear_value y; rename' y => w)
    | (extract_lets +onlyGivenNames y; rename' y => w)
    | with_reducible apply State.leaveService_keeps
    | with_reducible apply State.modProc_keeps
    | split
    | dsimp -zeta only

theorem State.spRestarted_keeps {A : Nat} {z : State} {s : State} {mismatch : Bool} (hA : 0x4800000005 &&& A = 0x4800000005) (hk : Keeps A z s) :
    Keeps A z (State.spRestarted s mismatch) := by
  unfold State.spRestarted
  repeat' first
    | with_reducible assumption
    | ((with_reducible refine Part.sub hA ?_); rfl)
    | (extract_lets +onlyGivenNames y; refine Keeps.cut (y := y) ?_ (fun hy => ?_) <;> [(unfold y; clear y); (clear_value y; rename' y => w)])
    | (extract_lets +onlyGivenNames y; clear_value y; rename' y => w)
    | (extract_lets +onlyGivenNames y; rename' y => w)
    | with_reducible apply State.count_keeps
    | with_reducible apply State.log_keeps
    | with_reducible apply State.event_keeps
    | split
    | (with_reducible refine Keeps.change ?_ rfl rfl rfl rfl rfl rfl rfl rfl id ?_)
    | (intro p hp; cases p <;> first | exact Part.inside hA hp rfl | rfl)
    | dsimp -zeta only

theorem execCodeFetchError_keeps {A : Nat} {z : State} {processor : Fin 5} {s : State} (hA : 0x4800000005 &&& A = 0x4800000005) (hk : Keeps A z s) :
    KeepsOut A z (execCodeFetchError processor s) := by
  unfold execCodeFetchError
  repeat' first
    | with_reducible assumption
    | with_reducible apply KeepsOut.fault
    | with_reducible apply KeepsOut.next
    | (extract_lets +onlyGivenNames y; refine KeepsOut.cut (y := y) ?_ (fun hy => ?_) <;> [(unfold y; clear y); (clear_value y; rename' y => w)])
    | ((with_reducible refine Part.sub hA ?_); rfl)
    | (extract_lets +onlyGivenNames y; refine Keeps.cut (y := y) ?_ (fun hy => ?_) <;> [(unfold y; clear y); (clear_value y; rename' y => w)])
    | (extract_lets +onlyGivenNames y; clear_value y; rename' y => w)
    | (extract_lets +onlyGivenNames y; rename' y => w)
    | with_reducible apply State.log_keeps
    | with_reducible apply State.event_keeps
    | with_reducible apply State.modProc_keeps
    | with_reducible apply State.restart_keeps
    | split
    | dsimp -zeta only

theorem execSramUncorr_keeps {A : Nat} {z : State} {processor : Fin 5} {address : Nat} {s : State} (hA : 0x4800000005 &&& A = 0x4800000005) (hk : Keeps A z s) :
    KeepsOut A z (execSramUncorr processor address s) := by
  unfold execSramUncorr
  repeat' first
    | with_reducible assumption
    | with_reducible apply KeepsOut.fault
    | with_reducible apply KeepsOut.next
    | (extract_lets +onlyGivenNames y; refine KeepsOut.cut (y := y) ?_ (fun hy => ?_) <;> [(unfold y; clear y); (clear_value y; rename' y => w)])
    | ((with_reducible refine Part.sub hA ?_); rfl)
    | (extract_lets +onlyGivenNames y; refine Keeps.cut (y := y) ?_ (fun hy => ?_) <;> [(unfold y; clear y); (clear_value y; rename' y => w)])
    | (extract_lets +onlyGivenNames y; clear_value y; rename' y => w)
    | (extract_lets +onlyGivenNames y; rename' y => w)
    | with_reducible apply State.count_keeps
    | with_reducible apply State.log_keeps
    | with_reducible apply State.event_keeps
    | split
    | dsimp -zeta only

theorem execCoreWfi_keeps {A : Nat} {z : State} {processor : Fin 5} {s : State} (hA : 0x800000000 &&& A = 0x800000000) (hk : Keeps A z s) :
    KeepsOut A z (execCoreWfi processor s) := by
  unfold execCoreWfi
  repeat' first
    | with_reducible assumption
    | with_reducible apply KeepsOut.fault
    | with_reducible apply KeepsOut.next
    | (extract_lets +onlyGivenNames y; refine KeepsOut.cut (y := y) ?_ (fun hy => ?_) <;> [(unfold y; clear y); (clear_value y; rename' y => w)])
    | ((with_reducible refine Part.sub hA ?_); rfl)
    | (extract_lets +onlyGivenNames y; refine Keeps.cut (y := y) ?_ (fun hy => ?_) <;> [(unfold y; clear y); (clear_value y; rename' y => w)])
    | (extract_lets +onlyGivenNames y; clear_value y; rename' y => w)
    | (extract_lets +onlyGivenNames y; rename' y => w)
    | with_reducible apply State.arbitrate_keeps
    | with_reducible apply State.modProc_keeps
    | split
    | dsimp -zeta only

theorem execCorePark_keeps {A : Nat} {z : State} {agent : Agent} {core : Fin 4} {s : State} (hA : 0x800000000 &&& A = 0x800000000) (hk : Keeps A z s) :
    KeepsOut A z (execCorePark agent core s) := by
  unfold execCorePark
  repeat' first
    | with_reducible assumption
    | with_reducible apply KeepsOut.fault
    | with_reducible apply KeepsOut.next
    | (extract_lets +onlyGivenNames y; refine KeepsOut.cut (y := y) ?_ (fun hy => ?_) <;> [(unfold y; clear y); (clear_value y; rename' y => w)])
    | ((with_reducible refine Part.sub hA ?_); rfl)
    | (extract_lets +onlyGivenNames y; refine Keeps.cut (y := y) ?_ (fun hy => ?_) <;> [(unfold y; clear y); (clear_value y; rename' y => w)])
    | (extract_lets +onlyGivenNames y; clear_value y; rename' y => w)
    | (extract_lets +onlyGivenNames y; rename' y => w)
    | with_reducible apply State.modTc_keeps
    | with_reducible apply State.arbitrate_keeps
    | split
    | dsimp -zeta only

theorem execCoreResume_keeps {A : Nat} {z : State} {agent : Agent} {core : Fin 4} {s : State} (hA : 0x800000000 &&& A = 0x800000000) (hk : Keeps A z s) :
    KeepsOut A z (execCoreResume agent core s) := by
  unfold execCoreResume
  repeat' first
    | with_reducible assumption
    | with_reducible apply KeepsOut.fault
    | with_reducible apply KeepsOut.next
    | (extract_lets +onlyGivenNames y; refine KeepsOut.cut (y := y) ?_ (fun hy => ?_) <;> [(unfold y; clear y); (clear_value y; rename' y => w)])
    | ((with_reducible refine Part.sub hA ?_); rfl)
    | (extract_lets +onlyGivenNames y; refine Keeps.cut (y := y) ?_ (fun hy => ?_) <;> [(unfold y; clear y); (clear_value y; rename' y => w)])
    | (extract_lets +onlyGivenNames y; clear_value y; rename' y => w)
    | (extract_lets +onlyGivenNames y; rename' y => w)
    | with_reducible apply State.modTc_keeps
    | with_reducible apply State.arbitrate_keeps
    | split
    | dsimp -zeta only

theorem execCoreWatchdogExpire_keeps {A : Nat} {z : State} {processor : Fin 5} {s : State} (hA : 0x4800000005 &&& A = 0x4800000005) (hk : Keeps A z s) :
    KeepsOut A z (execCoreWatchdogExpire processor s) := by
  unfold execCoreWatchdogExpire
  repeat' first
    | with_reducible assumption
    | with_reducible apply KeepsOut.fault
    | with_reducible apply KeepsOut.next
    | (extract_lets +onlyGivenNames y; refine KeepsOut.cut (y := y) ?_ (fun hy => ?_) <;> [(unfold y; clear y); (clear_value y; rename' y => w)])
    | ((with_reducible refine Part.sub hA ?_); rfl)
    | (extract_lets +onlyGivenNames y; refine Keeps.cut (y := y) ?_ (fun hy => ?_) <;> [(unfold y; clear y); (clear_value y; rename' y => w)])
    | (extract_lets +onlyGivenNames y; clear_value y; rename' y => w)
    | (extract_lets +onlyGivenNames y; rename' y => w)
    | with_reducible apply State.count_keeps
    | with_reducible apply State.log_keeps
    | with_reducible apply State.event_keeps
    | with_reducible apply State.restart_keeps
    | with_reducible apply State.spRestarted_keeps
    | split
    | dsimp -zeta only

theorem execWdtKick_keeps {A : Nat} {z : State} {agent : Agent} {processor : Fin 5} {s : State} (hA : 0x800000000 &&& A = 0x800000000) (hk : Keeps A z s) :
    KeepsOut A z (execWdtKick agent processor s) := by
  unfold execWdtKick
  repeat' first
    | with_reducible assumption
    | with_reducible apply KeepsOut.fault
    | with_reducible apply KeepsOut.next
    | (extract_lets +onlyGivenNames y; refine KeepsOut.cut (y := y) ?_ (fun hy => ?_) <;> [(unfold y; clear y); (clear_value y; rename' y => w)])
    | ((with_reducible refine Part.sub hA ?_); rfl)
    | (extract_lets +onlyGivenNames y; refine Keeps.cut (y := y) ?_ (fun hy => ?_) <;> [(unfold y; clear y); (clear_value y; rename' y => w)])
    | (extract_lets +onlyGivenNames y; clear_value y; rename' y => w)
    | (extract_lets +onlyGivenNames y; rename' y => w)
    | with_reducible apply State.modProc_keeps
    | split
    | dsimp -zeta only

theorem State.fwAlive_keeps {A : Nat} {z : State} {s : State} {k : Nat} (hA : 0x1000 &&& A = 0x1000) (hk : Keeps A z s) :
    Keeps A z (State.fwAlive s k) := by
  unfold State.fwAlive
  repeat' first
    | with_reducible assumption
    | ((with_reducible refine Part.sub hA ?_); rfl)
    | (extract_lets +onlyGivenNames y; refine Keeps.cut (y := y) ?_ (fun hy => ?_) <;> [(unfold y; clear y); (clear_value y; rename' y => w)])
    | (extract_lets +onlyGivenNames y; clear_value y; rename' y => w)
    | (extract_lets +onlyGivenNames y; rename' y => w)
    | with_reducible apply State.modFw_keeps
    | split
    | dsimp -zeta only

theorem execCoreAlive_keeps {A : Nat} {z : State} {agent : Agent} {processor : Fin 5} {s : State} (hA : 0x4800001000 &&& A = 0x4800001000) (hk : Keeps A z s) :
    KeepsOut A z (execCoreAlive agent processor s) := by
  unfold execCoreAlive
  repeat' first
    | with_reducible assumption
    | with_reducible apply KeepsOut.fault
    | with_reducible apply KeepsOut.next
    | (extract_lets +onlyGivenNames y; refine KeepsOut.cut (y := y) ?_ (fun hy => ?_) <;> [(unfold y; clear y); (clear_value y; rename' y => w)])
    | ((with_reducible refine Part.sub hA ?_); rfl)
    | (extract_lets +onlyGivenNames y; refine Keeps.cut (y := y) ?_ (fun hy => ?_) <;> [(unfold y; clear y); (clear_value y; rename' y => w)])
    | (extract_lets +onlyGivenNames y; clear_value y; rename' y => w)
    | (extract_lets +onlyGivenNames y; rename' y => w)
    | with_reducible apply State.clearSafe_keeps
    | with_reducible apply State.modProc_keeps
    | with_reducible apply State.fwAlive_keeps
    | split
    | dsimp -zeta only

theorem execSpLockstepMismatch_keeps {A : Nat} {z : State} {programCounter : Word} {s : State} (hA : 0x4800000005 &&& A = 0x4800000005) (hk : Keeps A z s) :
    KeepsOut A z (execSpLockstepMismatch programCounter s) := by
  unfold execSpLockstepMismatch
  repeat' first
    | with_reducible assumption
    | with_reducible apply KeepsOut.fault
    | with_reducible apply KeepsOut.next
    | (extract_lets +onlyGivenNames y; refine KeepsOut.cut (y := y) ?_ (fun hy => ?_) <;> [(unfold y; clear y); (clear_value y; rename' y => w)])
    | ((with_reducible refine Part.sub hA ?_); rfl)
    | (extract_lets +onlyGivenNames y; refine Keeps.cut (y := y) ?_ (fun hy => ?_) <;> [(unfold y; clear y); (clear_value y; rename' y => w)])
    | (extract_lets +onlyGivenNames y; clear_value y; rename' y => w)
    | (extract_lets +onlyGivenNames y; rename' y => w)
    | with_reducible apply State.count_keeps
    | with_reducible apply State.log_keeps
    | with_reducible apply State.event_keeps
    | with_reducible apply State.restart_keeps
    | with_reducible apply State.spRestarted_keeps
    | split
    | dsimp -zeta only

theorem execProcessorRestartDone_keeps {A : Nat} {z : State} {processor : Fin 5} {s : State} (hA : 0x800000000 &&& A = 0x800000000) (hk : Keeps A z s) :
    KeepsOut A z (execProcessorRestartDone processor s) := by
  unfold execProcessorRestartDone
  repeat' first
    | with_reducible assumption
    | with_reducible apply KeepsOut.fault
    | with_reducible apply KeepsOut.next
    | (extract_lets +onlyGivenNames y; refine KeepsOut.cut (y := y) ?_ (fun hy => ?_) <;> [(unfold y; clear y); (clear_value y; rename' y => w)])
    | ((with_reducible refine Part.sub hA ?_); rfl)
    | (extract_lets +onlyGivenNames y; refine Keeps.cut (y := y) ?_ (fun hy => ?_) <;> [(unfold y; clear y); (clear_value y; rename' y => w)])
    | (extract_lets +onlyGivenNames y; clear_value y; rename' y => w)
    | (extract_lets +onlyGivenNames y; rename' y => w)
    | with_reducible apply State.arbitrate_keeps
    | with_reducible apply State.modProc_keeps
    | split
    | dsimp -zeta only

theorem State.restartKind_keeps {A : Nat} {z : State} {s : State} {k : Nat} (hA : 0x2800000000 &&& A = 0x2800000000) (hk : Keeps A z s) :
    Keeps A z (State.restartKind s k) := by
  unfold State.restartKind
  repeat' first
    | with_reducible assumption
    | ((with_reducible refine Part.sub hA ?_); rfl)
    | (extract_lets +onlyGivenNames y; refine Keeps.cut (y := y) ?_ (fun hy => ?_) <;> [(unfold y; clear y); (clear_value y; rename' y => w)])
    | (extract_lets +onlyGivenNames y; clear_value y; rename' y => w)
    | (extract_lets +onlyGivenNames y; rename' y => w)
    | with_reducible apply State.restart_keeps
    | (with_reducible apply Keeps.foldl; intro y b hy)
    | (with_reducible apply Keeps.foldl_fst; intro y b hy)
    | split
    | (with_reducible refine Keeps.change ?_ rfl rfl rfl rfl rfl rfl rfl rfl id ?_)
    | (intro p hp; cases p <;> first | exact Part.inside hA hp rfl | rfl)
    | dsimp -zeta only

theorem State.swapRestart_keeps {A : Nat} {z : State} {s : State} {k : Nat} (hA : 0x6800000005 &&& A = 0x6800000005) (hk : Keeps A z s) :
    Keeps A z (State.swapRestart s k) := by
  unfold State.swapRestart
  repeat' first
    | with_reducible assumption
    | ((with_reducible refine Part.sub hA ?_); rfl)
    | (extract_lets +onlyGivenNames y; refine Keeps.cut (y := y) ?_ (fun hy => ?_) <;> [(unfold y; clear y); (clear_value y; rename' y => w)])
    | (extract_lets +onlyGivenNames y; clear_value y; rename' y => w)
    | (extract_lets +onlyGivenNames y; rename' y => w)
    | with_reducible apply State.spRestarted_keeps
    | with_reducible apply State.restartKind_keeps
    | split
    | dsimp -zeta only

theorem State.swapFirmware_keeps {A : Nat} {z : State} {s : State} {k : Nat} {payload : List Byte} (hA : 0x6800001005 &&& A = 0x6800001005) (hk : Keeps A z s) :
    Keeps A z (State.swapFirmware s k payload) := by
  unfold State.swapFirmware
  repeat' first
    | with_reducible assumption
    | ((with_reducible refine Part.sub hA ?_); rfl)
    | (extract_lets +onlyGivenNames y; refine Keeps.cut (y := y) ?_ (fun hy => ?_) <;> [(unfold y; clear y); (clear_value y; rename' y => w)])
    | (extract_lets +onlyGivenNames y; clear_value y; rename' y => w)
    | (extract_lets +onlyGivenNames y; rename' y => w)
    | with_reducible apply State.log_keeps
    | with_reducible apply State.event_keeps
    | with_reducible apply State.modFw_keeps
    | with_reducible apply State.swapRestart_keeps
    | split
    | dsimp -zeta only

theorem State.revertFirmware_keeps {A : Nat} {z : State} {s : State} {k cause : Nat} (hA : 0x6800001005 &&& A = 0x6800001005) (hk : Keeps A z s) :
    Keeps A z (State.revertFirmware s k cause) := by
  unfold State.revertFirmware
  repeat' first
    | with_reducible assumption
    | ((with_reducible refine Part.sub hA ?_); rfl)
    | (extract_lets +onlyGivenNames y; refine Keeps.cut (y := y) ?_ (fun hy => ?_) <;> [(unfold y; clear y); (clear_value y; rename' y => w)])
    | (extract_lets +onlyGivenNames y; clear_value y; rename' y => w)
    | (extract_lets +onlyGivenNames y; rename' y => w)
    | with_reducible apply State.log_keeps
    | with_reducible apply State.event_keeps
    | with_reducible apply State.modFw_keeps
    | with_reducible apply State.swapRestart_keeps
    | split
    | dsimp -zeta only

theorem execFwAliveTimeout_keeps {A : Nat} {z : State} {processor : Fin 3} {s : State} (hA : 0xe800001005 &&& A = 0xe800001005) (hk : Keeps A z s) :
    KeepsOut A z (execFwAliveTimeout processor s) := by
  unfold execFwAliveTimeout
  repeat' first
    | with_reducible assumption
    | with_reducible apply KeepsOut.fault
    | with_reducible apply KeepsOut.next
    | (extract_lets +onlyGivenNames y; refine KeepsOut.cut (y := y) ?_ (fun hy => ?_) <;> [(unfold y; clear y); (clear_value y; rename' y => w)])
    | ((with_reducible refine Part.sub hA ?_); rfl)
    | (extract_lets +onlyGivenNames y; refine Keeps.cut (y := y) ?_ (fun hy => ?_) <;> [(unfold y; clear y); (clear_value y; rename' y => w)])
    | (extract_lets +onlyGivenNames y; clear_value y; rename' y => w)
    | (extract_lets +onlyGivenNames y; rename' y => w)
    | with_reducible apply State.modStartup_keeps
    | (with_reducible intro c hc; first | exact hc | (dsimp only; omega))
    | with_reducible apply State.log_keeps
    | with_reducible apply State.modFw_keeps
    | with_reducible apply State.revertFirmware_keeps
    | split
    | dsimp -zeta only

theorem execFwConfirm_keeps {A : Nat} {z : State} {agent : Agent} {processor : Fin 3} {s : State} (hA : 0x4800001005 &&& A = 0x4800001005) (hk : Keeps A z s) :
    KeepsOut A z (execFwConfirm agent processor s) := by
  unfold execFwConfirm
  repeat' first
    | with_reducible assumption
    | with_reducible apply KeepsOut.fault
    | with_reducible apply KeepsOut.next
    | (extract_lets +onlyGivenNames y; refine KeepsOut.cut (y := y) ?_ (fun hy => ?_) <;> [(unfold y; clear y); (clear_value y; rename' y => w)])
    | ((with_reducible refine Part.sub hA ?_); rfl)
    | (extract_lets +onlyGivenNames y; refine Keeps.cut (y := y) ?_ (fun hy => ?_) <;> [(unfold y; clear y); (clear_value y; rename' y => w)])
    | (extract_lets +onlyGivenNames y; clear_value y; rename' y => w)
    | (extract_lets +onlyGivenNames y; rename' y => w)
    | with_reducible apply State.log_keeps
    | with_reducible apply State.event_keeps
    | with_reducible apply State.modFw_keeps
    | split
    | dsimp -zeta only

theorem execFwRevert_keeps {A : Nat} {z : State} {agent : Agent} {processor : Fin 3} {s : State} (hA : 0x6800001005 &&& A = 0x6800001005) (hk : Keeps A z s) :
    KeepsOut A z (execFwRevert agent processor s) := by
  unfold execFwRevert
  repeat' first
    | with_reducible assumption
    | with_reducible apply KeepsOut.fault
    | with_reducible apply KeepsOut.next
    | (extract_lets +onlyGivenNames y; refine KeepsOut.cut (y := y) ?_ (fun hy => ?_) <;> [(unfold y; clear y); (clear_value y; rename' y => w)])
    | ((with_reducible refine Part.sub hA ?_); rfl)
    | (extract_lets +onlyGivenNames y; refine Keeps.cut (y := y) ?_ (fun hy => ?_) <;> [(unfold y; clear y); (clear_value y; rename' y => w)])
    | (extract_lets +onlyGivenNames y; clear_value y; rename' y => w)
    | (extract_lets +onlyGivenNames y; rename' y => w)
    | with_reducible apply State.revertFirmware_keeps
    | split
    | dsimp -zeta only

end Sys2Proof.Machine
end

