-- ==== Sys2Proof/Laws/State.lean ====
section
/-!
SUPPORT. One law per field of the state and per update of it, so that no proof unfolds a record update: what an update leaves,
and what the accessor of the field reads after it.
-/

namespace Sys2Proof.Machine

/-! ## Registers, latches, memory, and what leaves the device -/

@[simp] theorem State.setReg_latches (s : State) (a : Nat) (v : Word) : (s.setReg a v).latches = s.latches := rfl
@[simp] theorem State.setReg_setNow (s : State) (a : Nat) (v : Word) : (s.setReg a v).setNow = s.setNow := rfl
@[simp] theorem State.setReg_mem (s : State) (a : Nat) (v : Word) : (s.setReg a v).mem = s.mem := rfl
@[simp] theorem State.setReg_readValue (s : State) (a : Nat) (v : Word) : (s.setReg a v).readValue = s.readValue := rfl
@[simp] theorem State.setReg_wire (s : State) (a : Nat) (v : Word) : (s.setReg a v).wire = s.wire := rfl
@[simp] theorem State.setReg_fresh (s : State) (a : Nat) (v : Word) : (s.setReg a v).fresh = s.fresh := rfl
@[simp] theorem State.setReg_clock (s : State) (a : Nat) (v : Word) : (s.setReg a v).clock = s.clock := rfl
@[simp] theorem State.setReg_servo (s : State) (a : Nat) (v : Word) : (s.setReg a v).servo = s.servo := rfl
@[simp] theorem State.setReg_ptp (s : State) (a : Nat) (v : Word) : (s.setReg a v).ptp = s.ptp := rfl
@[simp] theorem State.setReg_refIn (s : State) (a : Nat) (v : Word) : (s.setReg a v).refIn = s.refIn := rfl
@[simp] theorem State.setReg_tio (s : State) (a : Nat) (v : Word) : (s.setReg a v).tio = s.tio := rfl
@[simp] theorem State.setReg_im (s : State) (a : Nat) (v : Word) : (s.setReg a v).im = s.im := rfl
@[simp] theorem State.setReg_commits (s : State) (a : Nat) (v : Word) : (s.setReg a v).commits = s.commits := rfl
@[simp] theorem State.setReg_roll (s : State) (a : Nat) (v : Word) : (s.setReg a v).roll = s.roll := rfl
@[simp] theorem State.setReg_tiles (s : State) (a : Nat) (v : Word) : (s.setReg a v).tiles = s.tiles := rfl
@[simp] theorem State.setReg_config (s : State) (a : Nat) (v : Word) : (s.setReg a v).config = s.config := rfl
@[simp] theorem State.setReg_lanes (s : State) (a : Nat) (v : Word) : (s.setReg a v).lanes = s.lanes := rfl
@[simp] theorem State.setReg_ports (s : State) (a : Nat) (v : Word) : (s.setReg a v).ports = s.ports := rfl
@[simp] theorem State.setReg_optics (s : State) (a : Nat) (v : Word) : (s.setReg a v).optics = s.optics := rfl
@[simp] theorem State.setReg_ft (s : State) (a : Nat) (v : Word) : (s.setReg a v).ft = s.ft := rfl
@[simp] theorem State.setReg_chanIn (s : State) (a : Nat) (v : Word) : (s.setReg a v).chanIn = s.chanIn := rfl
@[simp] theorem State.setReg_surfaces (s : State) (a : Nat) (v : Word) : (s.setReg a v).surfaces = s.surfaces := rfl
@[simp] theorem State.setReg_chans (s : State) (a : Nat) (v : Word) : (s.setReg a v).chans = s.chans := rfl
@[simp] theorem State.setReg_coders (s : State) (a : Nat) (v : Word) : (s.setReg a v).coders = s.coders := rfl
@[simp] theorem State.setReg_takeovers (s : State) (a : Nat) (v : Word) : (s.setReg a v).takeovers = s.takeovers := rfl
@[simp] theorem State.setReg_rinds (s : State) (a : Nat) (v : Word) : (s.setReg a v).rinds = s.rinds := rfl
@[simp] theorem State.setReg_queues (s : State) (a : Nat) (v : Word) : (s.setReg a v).queues = s.queues := rfl
@[simp] theorem State.setReg_pair (s : State) (a : Nat) (v : Word) : (s.setReg a v).pair = s.pair := rfl
@[simp] theorem State.setReg_heads (s : State) (a : Nat) (v : Word) : (s.setReg a v).heads = s.heads := rfl
@[simp] theorem State.setReg_readers (s : State) (a : Nat) (v : Word) : (s.setReg a v).readers = s.readers := rfl
@[simp] theorem State.setReg_scalers (s : State) (a : Nat) (v : Word) : (s.setReg a v).scalers = s.scalers := rfl
@[simp] theorem State.setReg_audio (s : State) (a : Nat) (v : Word) : (s.setReg a v).audio = s.audio := rfl
@[simp] theorem State.setReg_memory (s : State) (a : Nat) (v : Word) : (s.setReg a v).memory = s.memory := rfl
@[simp] theorem State.setReg_recorder (s : State) (a : Nat) (v : Word) : (s.setReg a v).recorder = s.recorder := rfl
@[simp] theorem State.setReg_cores (s : State) (a : Nat) (v : Word) : (s.setReg a v).cores = s.cores := rfl
@[simp] theorem State.setReg_mdp (s : State) (a : Nat) (v : Word) : (s.setReg a v).mdp = s.mdp := rfl
@[simp] theorem State.setReg_hull (s : State) (a : Nat) (v : Word) : (s.setReg a v).hull = s.hull := rfl
@[simp] theorem State.setReg_ledger (s : State) (a : Nat) (v : Word) : (s.setReg a v).ledger = s.ledger := rfl
@[simp] theorem State.setReg_startup (s : State) (a : Nat) (v : Word) : (s.setReg a v).startup = s.startup := rfl
@[simp] theorem State.setReg_pending (s : State) (a : Nat) (v : Word) : (s.setReg a v).pending = s.pending := rfl

@[simp] theorem State.reg_setReg (s : State) (a b : Nat) (v : Word) : (s.setReg a v).reg b = if b = a then v else s.reg b :=
  Sparse.get_put _ _ _ _ _

@[simp] theorem State.setLatch_regs (s : State) (g : Agent) (a : Nat) (v : Word) : (s.setLatch g a v).regs = s.regs := rfl
@[simp] theorem State.setLatch_setNow (s : State) (g : Agent) (a : Nat) (v : Word) : (s.setLatch g a v).setNow = s.setNow := rfl
@[simp] theorem State.setLatch_mem (s : State) (g : Agent) (a : Nat) (v : Word) : (s.setLatch g a v).mem = s.mem := rfl
@[simp] theorem State.setLatch_readValue (s : State) (g : Agent) (a : Nat) (v : Word) : (s.setLatch g a v).readValue = s.readValue := rfl
@[simp] theorem State.setLatch_wire (s : State) (g : Agent) (a : Nat) (v : Word) : (s.setLatch g a v).wire = s.wire := rfl
@[simp] theorem State.setLatch_fresh (s : State) (g : Agent) (a : Nat) (v : Word) : (s.setLatch g a v).fresh = s.fresh := rfl
@[simp] theorem State.setLatch_clock (s : State) (g : Agent) (a : Nat) (v : Word) : (s.setLatch g a v).clock = s.clock := rfl
@[simp] theorem State.setLatch_servo (s : State) (g : Agent) (a : Nat) (v : Word) : (s.setLatch g a v).servo = s.servo := rfl
@[simp] theorem State.setLatch_ptp (s : State) (g : Agent) (a : Nat) (v : Word) : (s.setLatch g a v).ptp = s.ptp := rfl
@[simp] theorem State.setLatch_refIn (s : State) (g : Agent) (a : Nat) (v : Word) : (s.setLatch g a v).refIn = s.refIn := rfl
@[simp] theorem State.setLatch_tio (s : State) (g : Agent) (a : Nat) (v : Word) : (s.setLatch g a v).tio = s.tio := rfl
@[simp] theorem State.setLatch_im (s : State) (g : Agent) (a : Nat) (v : Word) : (s.setLatch g a v).im = s.im := rfl
@[simp] theorem State.setLatch_commits (s : State) (g : Agent) (a : Nat) (v : Word) : (s.setLatch g a v).commits = s.commits := rfl
@[simp] theorem State.setLatch_roll (s : State) (g : Agent) (a : Nat) (v : Word) : (s.setLatch g a v).roll = s.roll := rfl
@[simp] theorem State.setLatch_tiles (s : State) (g : Agent) (a : Nat) (v : Word) : (s.setLatch g a v).tiles = s.tiles := rfl
@[simp] theorem State.setLatch_config (s : State) (g : Agent) (a : Nat) (v : Word) : (s.setLatch g a v).config = s.config := rfl
@[simp] theorem State.setLatch_lanes (s : State) (g : Agent) (a : Nat) (v : Word) : (s.setLatch g a v).lanes = s.lanes := rfl
@[simp] theorem State.setLatch_ports (s : State) (g : Agent) (a : Nat) (v : Word) : (s.setLatch g a v).ports = s.ports := rfl
@[simp] theorem State.setLatch_optics (s : State) (g : Agent) (a : Nat) (v : Word) : (s.setLatch g a v).optics = s.optics := rfl
@[simp] theorem State.setLatch_ft (s : State) (g : Agent) (a : Nat) (v : Word) : (s.setLatch g a v).ft = s.ft := rfl
@[simp] theorem State.setLatch_chanIn (s : State) (g : Agent) (a : Nat) (v : Word) : (s.setLatch g a v).chanIn = s.chanIn := rfl
@[simp] theorem State.setLatch_surfaces (s : State) (g : Agent) (a : Nat) (v : Word) : (s.setLatch g a v).surfaces = s.surfaces := rfl
@[simp] theorem State.setLatch_chans (s : State) (g : Agent) (a : Nat) (v : Word) : (s.setLatch g a v).chans = s.chans := rfl
@[simp] theorem State.setLatch_coders (s : State) (g : Agent) (a : Nat) (v : Word) : (s.setLatch g a v).coders = s.coders := rfl
@[simp] theorem State.setLatch_takeovers (s : State) (g : Agent) (a : Nat) (v : Word) : (s.setLatch g a v).takeovers = s.takeovers := rfl
@[simp] theorem State.setLatch_rinds (s : State) (g : Agent) (a : Nat) (v : Word) : (s.setLatch g a v).rinds = s.rinds := rfl
@[simp] theorem State.setLatch_queues (s : State) (g : Agent) (a : Nat) (v : Word) : (s.setLatch g a v).queues = s.queues := rfl
@[simp] theorem State.setLatch_pair (s : State) (g : Agent) (a : Nat) (v : Word) : (s.setLatch g a v).pair = s.pair := rfl
@[simp] theorem State.setLatch_heads (s : State) (g : Agent) (a : Nat) (v : Word) : (s.setLatch g a v).heads = s.heads := rfl
@[simp] theorem State.setLatch_readers (s : State) (g : Agent) (a : Nat) (v : Word) : (s.setLatch g a v).readers = s.readers := rfl
@[simp] theorem State.setLatch_scalers (s : State) (g : Agent) (a : Nat) (v : Word) : (s.setLatch g a v).scalers = s.scalers := rfl
@[simp] theorem State.setLatch_audio (s : State) (g : Agent) (a : Nat) (v : Word) : (s.setLatch g a v).audio = s.audio := rfl
@[simp] theorem State.setLatch_memory (s : State) (g : Agent) (a : Nat) (v : Word) : (s.setLatch g a v).memory = s.memory := rfl
@[simp] theorem State.setLatch_recorder (s : State) (g : Agent) (a : Nat) (v : Word) : (s.setLatch g a v).recorder = s.recorder := rfl
@[simp] theorem State.setLatch_cores (s : State) (g : Agent) (a : Nat) (v : Word) : (s.setLatch g a v).cores = s.cores := rfl
@[simp] theorem State.setLatch_mdp (s : State) (g : Agent) (a : Nat) (v : Word) : (s.setLatch g a v).mdp = s.mdp := rfl
@[simp] theorem State.setLatch_hull (s : State) (g : Agent) (a : Nat) (v : Word) : (s.setLatch g a v).hull = s.hull := rfl
@[simp] theorem State.setLatch_ledger (s : State) (g : Agent) (a : Nat) (v : Word) : (s.setLatch g a v).ledger = s.ledger := rfl
@[simp] theorem State.setLatch_startup (s : State) (g : Agent) (a : Nat) (v : Word) : (s.setLatch g a v).startup = s.startup := rfl
@[simp] theorem State.setLatch_pending (s : State) (g : Agent) (a : Nat) (v : Word) : (s.setLatch g a v).pending = s.pending := rfl

@[simp] theorem State.latch_setLatch (s : State) (g h : Agent) (a b : Nat) (v : Word) :
    (s.setLatch g a v).latch h b = if 0x100000000 * agentNo h + b = 0x100000000 * agentNo g + a then v else s.latch h b :=
  Sparse.get_put _ _ _ _ _

@[simp] theorem State.setByte_regs (s : State) (a : Nat) (v : Byte) : (s.setByte a v).regs = s.regs := rfl
@[simp] theorem State.setByte_latches (s : State) (a : Nat) (v : Byte) : (s.setByte a v).latches = s.latches := rfl
@[simp] theorem State.setByte_setNow (s : State) (a : Nat) (v : Byte) : (s.setByte a v).setNow = s.setNow := rfl
@[simp] theorem State.setByte_readValue (s : State) (a : Nat) (v : Byte) : (s.setByte a v).readValue = s.readValue := rfl
@[simp] theorem State.setByte_wire (s : State) (a : Nat) (v : Byte) : (s.setByte a v).wire = s.wire := rfl
@[simp] theorem State.setByte_fresh (s : State) (a : Nat) (v : Byte) : (s.setByte a v).fresh = s.fresh := rfl
@[simp] theorem State.setByte_clock (s : State) (a : Nat) (v : Byte) : (s.setByte a v).clock = s.clock := rfl
@[simp] theorem State.setByte_servo (s : State) (a : Nat) (v : Byte) : (s.setByte a v).servo = s.servo := rfl
@[simp] theorem State.setByte_ptp (s : State) (a : Nat) (v : Byte) : (s.setByte a v).ptp = s.ptp := rfl
@[simp] theorem State.setByte_refIn (s : State) (a : Nat) (v : Byte) : (s.setByte a v).refIn = s.refIn := rfl
@[simp] theorem State.setByte_tio (s : State) (a : Nat) (v : Byte) : (s.setByte a v).tio = s.tio := rfl
@[simp] theorem State.setByte_im (s : State) (a : Nat) (v : Byte) : (s.setByte a v).im = s.im := rfl
@[simp] theorem State.setByte_commits (s : State) (a : Nat) (v : Byte) : (s.setByte a v).commits = s.commits := rfl
@[simp] theorem State.setByte_roll (s : State) (a : Nat) (v : Byte) : (s.setByte a v).roll = s.roll := rfl
@[simp] theorem State.setByte_tiles (s : State) (a : Nat) (v : Byte) : (s.setByte a v).tiles = s.tiles := rfl
@[simp] theorem State.setByte_config (s : State) (a : Nat) (v : Byte) : (s.setByte a v).config = s.config := rfl
@[simp] theorem State.setByte_lanes (s : State) (a : Nat) (v : Byte) : (s.setByte a v).lanes = s.lanes := rfl
@[simp] theorem State.setByte_ports (s : State) (a : Nat) (v : Byte) : (s.setByte a v).ports = s.ports := rfl
@[simp] theorem State.setByte_optics (s : State) (a : Nat) (v : Byte) : (s.setByte a v).optics = s.optics := rfl
@[simp] theorem State.setByte_ft (s : State) (a : Nat) (v : Byte) : (s.setByte a v).ft = s.ft := rfl
@[simp] theorem State.setByte_chanIn (s : State) (a : Nat) (v : Byte) : (s.setByte a v).chanIn = s.chanIn := rfl
@[simp] theorem State.setByte_surfaces (s : State) (a : Nat) (v : Byte) : (s.setByte a v).surfaces = s.surfaces := rfl
@[simp] theorem State.setByte_chans (s : State) (a : Nat) (v : Byte) : (s.setByte a v).chans = s.chans := rfl
@[simp] theorem State.setByte_coders (s : State) (a : Nat) (v : Byte) : (s.setByte a v).coders = s.coders := rfl
@[simp] theorem State.setByte_takeovers (s : State) (a : Nat) (v : Byte) : (s.setByte a v).takeovers = s.takeovers := rfl
@[simp] theorem State.setByte_rinds (s : State) (a : Nat) (v : Byte) : (s.setByte a v).rinds = s.rinds := rfl
@[simp] theorem State.setByte_queues (s : State) (a : Nat) (v : Byte) : (s.setByte a v).queues = s.queues := rfl
@[simp] theorem State.setByte_pair (s : State) (a : Nat) (v : Byte) : (s.setByte a v).pair = s.pair := rfl
@[simp] theorem State.setByte_heads (s : State) (a : Nat) (v : Byte) : (s.setByte a v).heads = s.heads := rfl
@[simp] theorem State.setByte_readers (s : State) (a : Nat) (v : Byte) : (s.setByte a v).readers = s.readers := rfl
@[simp] theorem State.setByte_scalers (s : State) (a : Nat) (v : Byte) : (s.setByte a v).scalers = s.scalers := rfl
@[simp] theorem State.setByte_audio (s : State) (a : Nat) (v : Byte) : (s.setByte a v).audio = s.audio := rfl
@[simp] theorem State.setByte_memory (s : State) (a : Nat) (v : Byte) : (s.setByte a v).memory = s.memory := rfl
@[simp] theorem State.setByte_recorder (s : State) (a : Nat) (v : Byte) : (s.setByte a v).recorder = s.recorder := rfl
@[simp] theorem State.setByte_cores (s : State) (a : Nat) (v : Byte) : (s.setByte a v).cores = s.cores := rfl
@[simp] theorem State.setByte_mdp (s : State) (a : Nat) (v : Byte) : (s.setByte a v).mdp = s.mdp := rfl
@[simp] theorem State.setByte_hull (s : State) (a : Nat) (v : Byte) : (s.setByte a v).hull = s.hull := rfl
@[simp] theorem State.setByte_ledger (s : State) (a : Nat) (v : Byte) : (s.setByte a v).ledger = s.ledger := rfl
@[simp] theorem State.setByte_startup (s : State) (a : Nat) (v : Byte) : (s.setByte a v).startup = s.startup := rfl
@[simp] theorem State.setByte_pending (s : State) (a : Nat) (v : Byte) : (s.setByte a v).pending = s.pending := rfl

@[simp] theorem State.byte_setByte (s : State) (a b : Nat) (v : Byte) :
    (s.setByte a v).byte b = if b = a then v else s.byte b :=
  Sparse.get_put _ _ _ _ _

/-- After a byte string is stored, its addresses read it and every other address reads as before. -/
theorem State.byte_setBytes (s : State) (a b : Nat) (l : List Byte) :
    (s.setBytes a l).byte b = if a ≤ b then (l[b - a]?).getD (s.byte b) else s.byte b := by
  induction l generalizing s a with
  | nil => simp [State.setBytes]
  | cons v r ih =>
    rw [State.setBytes, ih, State.byte_setByte]
    by_cases h : a + 1 ≤ b
    · have e : b - a = (b - (a + 1)) + 1 := by omega
      have n : b ≠ a := by omega
      simp [h, show a ≤ b by omega, e, n]
    · by_cases k : b = a
      · subst k; simp
      · simp [h, k, show ¬ a ≤ b by omega]

/-- A byte string read back where it was stored. -/
theorem State.bytes_setBytes (s : State) (a : Nat) (l : List Byte) : (s.setBytes a l).bytes a l.length = l := by
  apply List.ext_getElem
  · simp [State.bytes]
  · intro i h1 h2
    simp [State.bytes, State.byte_setBytes, h2]

/-- Memory keeps its canonical form under a store of a byte, and of a byte string. -/
theorem State.setByte_wf (s : State) (a : Nat) (v : Byte) (h : Memory.wf s.mem = true) : Memory.wf (s.setByte a v).mem = true :=
  Sparse.wf_put _ _ _ _ h

theorem State.setBytes_wf (s : State) (a : Nat) (l : List Byte) (h : Memory.wf s.mem = true) :
    Memory.wf (s.setBytes a l).mem = true := by
  induction l generalizing s a with
  | nil => exact h
  | cons v r ih => exact ih _ _ (State.setByte_wf s a v h)

@[simp] theorem State.send_regs (s : State) (x : Sent) : (s.send x).regs = s.regs := rfl
@[simp] theorem State.send_latches (s : State) (x : Sent) : (s.send x).latches = s.latches := rfl
@[simp] theorem State.send_setNow (s : State) (x : Sent) : (s.send x).setNow = s.setNow := rfl
@[simp] theorem State.send_mem (s : State) (x : Sent) : (s.send x).mem = s.mem := rfl
@[simp] theorem State.send_readValue (s : State) (x : Sent) : (s.send x).readValue = s.readValue := rfl
@[simp] theorem State.send_fresh (s : State) (x : Sent) : (s.send x).fresh = s.fresh := rfl
@[simp] theorem State.send_clock (s : State) (x : Sent) : (s.send x).clock = s.clock := rfl
@[simp] theorem State.send_servo (s : State) (x : Sent) : (s.send x).servo = s.servo := rfl
@[simp] theorem State.send_ptp (s : State) (x : Sent) : (s.send x).ptp = s.ptp := rfl
@[simp] theorem State.send_refIn (s : State) (x : Sent) : (s.send x).refIn = s.refIn := rfl
@[simp] theorem State.send_tio (s : State) (x : Sent) : (s.send x).tio = s.tio := rfl
@[simp] theorem State.send_im (s : State) (x : Sent) : (s.send x).im = s.im := rfl
@[simp] theorem State.send_commits (s : State) (x : Sent) : (s.send x).commits = s.commits := rfl
@[simp] theorem State.send_roll (s : State) (x : Sent) : (s.send x).roll = s.roll := rfl
@[simp] theorem State.send_tiles (s : State) (x : Sent) : (s.send x).tiles = s.tiles := rfl
@[simp] theorem State.send_config (s : State) (x : Sent) : (s.send x).config = s.config := rfl
@[simp] theorem State.send_lanes (s : State) (x : Sent) : (s.send x).lanes = s.lanes := rfl
@[simp] theorem State.send_ports (s : State) (x : Sent) : (s.send x).ports = s.ports := rfl
@[simp] theorem State.send_optics (s : State) (x : Sent) : (s.send x).optics = s.optics := rfl
@[simp] theorem State.send_ft (s : State) (x : Sent) : (s.send x).ft = s.ft := rfl
@[simp] theorem State.send_chanIn (s : State) (x : Sent) : (s.send x).chanIn = s.chanIn := rfl
@[simp] theorem State.send_surfaces (s : State) (x : Sent) : (s.send x).surfaces = s.surfaces := rfl
@[simp] theorem State.send_chans (s : State) (x : Sent) : (s.send x).chans = s.chans := rfl
@[simp] theorem State.send_coders (s : State) (x : Sent) : (s.send x).coders = s.coders := rfl
@[simp] theorem State.send_takeovers (s : State) (x : Sent) : (s.send x).takeovers = s.takeovers := rfl
@[simp] theorem State.send_rinds (s : State) (x : Sent) : (s.send x).rinds = s.rinds := rfl
@[simp] theorem State.send_queues (s : State) (x : Sent) : (s.send x).queues = s.queues := rfl
@[simp] theorem State.send_pair (s : State) (x : Sent) : (s.send x).pair = s.pair := rfl
@[simp] theorem State.send_heads (s : State) (x : Sent) : (s.send x).heads = s.heads := rfl
@[simp] theorem State.send_readers (s : State) (x : Sent) : (s.send x).readers = s.readers := rfl
@[simp] theorem State.send_scalers (s : State) (x : Sent) : (s.send x).scalers = s.scalers := rfl
@[simp] theorem State.send_audio (s : State) (x : Sent) : (s.send x).audio = s.audio := rfl
@[simp] theorem State.send_memory (s : State) (x : Sent) : (s.send x).memory = s.memory := rfl
@[simp] theorem State.send_recorder (s : State) (x : Sent) : (s.send x).recorder = s.recorder := rfl
@[simp] theorem State.send_cores (s : State) (x : Sent) : (s.send x).cores = s.cores := rfl
@[simp] theorem State.send_mdp (s : State) (x : Sent) : (s.send x).mdp = s.mdp := rfl
@[simp] theorem State.send_hull (s : State) (x : Sent) : (s.send x).hull = s.hull := rfl
@[simp] theorem State.send_ledger (s : State) (x : Sent) : (s.send x).ledger = s.ledger := rfl
@[simp] theorem State.send_startup (s : State) (x : Sent) : (s.send x).startup = s.startup := rfl
@[simp] theorem State.send_pending (s : State) (x : Sent) : (s.send x).pending = s.pending := rfl

@[simp] theorem State.send_wire (s : State) (x : Sent) : (s.send x).wire = x :: s.wire := rfl

@[simp] theorem State.answer_regs (s : State) (v : Word) : (s.answer v).regs = s.regs := rfl
@[simp] theorem State.answer_latches (s : State) (v : Word) : (s.answer v).latches = s.latches := rfl
@[simp] theorem State.answer_setNow (s : State) (v : Word) : (s.answer v).setNow = s.setNow := rfl
@[simp] theorem State.answer_mem (s : State) (v : Word) : (s.answer v).mem = s.mem := rfl
@[simp] theorem State.answer_wire (s : State) (v : Word) : (s.answer v).wire = s.wire := rfl
@[simp] theorem State.answer_fresh (s : State) (v : Word) : (s.answer v).fresh = s.fresh := rfl
@[simp] theorem State.answer_clock (s : State) (v : Word) : (s.answer v).clock = s.clock := rfl
@[simp] theorem State.answer_servo (s : State) (v : Word) : (s.answer v).servo = s.servo := rfl
@[simp] theorem State.answer_ptp (s : State) (v : Word) : (s.answer v).ptp = s.ptp := rfl
@[simp] theorem State.answer_refIn (s : State) (v : Word) : (s.answer v).refIn = s.refIn := rfl
@[simp] theorem State.answer_tio (s : State) (v : Word) : (s.answer v).tio = s.tio := rfl
@[simp] theorem State.answer_im (s : State) (v : Word) : (s.answer v).im = s.im := rfl
@[simp] theorem State.answer_commits (s : State) (v : Word) : (s.answer v).commits = s.commits := rfl
@[simp] theorem State.answer_roll (s : State) (v : Word) : (s.answer v).roll = s.roll := rfl
@[simp] theorem State.answer_tiles (s : State) (v : Word) : (s.answer v).tiles = s.tiles := rfl
@[simp] theorem State.answer_config (s : State) (v : Word) : (s.answer v).config = s.config := rfl
@[simp] theorem State.answer_lanes (s : State) (v : Word) : (s.answer v).lanes = s.lanes := rfl
@[simp] theorem State.answer_ports (s : State) (v : Word) : (s.answer v).ports = s.ports := rfl
@[simp] theorem State.answer_optics (s : State) (v : Word) : (s.answer v).optics = s.optics := rfl
@[simp] theorem State.answer_ft (s : State) (v : Word) : (s.answer v).ft = s.ft := rfl
@[simp] theorem State.answer_chanIn (s : State) (v : Word) : (s.answer v).chanIn = s.chanIn := rfl
@[simp] theorem State.answer_surfaces (s : State) (v : Word) : (s.answer v).surfaces = s.surfaces := rfl
@[simp] theorem State.answer_chans (s : State) (v : Word) : (s.answer v).chans = s.chans := rfl
@[simp] theorem State.answer_coders (s : State) (v : Word) : (s.answer v).coders = s.coders := rfl
@[simp] theorem State.answer_takeovers (s : State) (v : Word) : (s.answer v).takeovers = s.takeovers := rfl
@[simp] theorem State.answer_rinds (s : State) (v : Word) : (s.answer v).rinds = s.rinds := rfl
@[simp] theorem State.answer_queues (s : State) (v : Word) : (s.answer v).queues = s.queues := rfl
@[simp] theorem State.answer_pair (s : State) (v : Word) : (s.answer v).pair = s.pair := rfl
@[simp] theorem State.answer_heads (s : State) (v : Word) : (s.answer v).heads = s.heads := rfl
@[simp] theorem State.answer_readers (s : State) (v : Word) : (s.answer v).readers = s.readers := rfl
@[simp] theorem State.answer_scalers (s : State) (v : Word) : (s.answer v).scalers = s.scalers := rfl
@[simp] theorem State.answer_audio (s : State) (v : Word) : (s.answer v).audio = s.audio := rfl
@[simp] theorem State.answer_memory (s : State) (v : Word) : (s.answer v).memory = s.memory := rfl
@[simp] theorem State.answer_recorder (s : State) (v : Word) : (s.answer v).recorder = s.recorder := rfl
@[simp] theorem State.answer_cores (s : State) (v : Word) : (s.answer v).cores = s.cores := rfl
@[simp] theorem State.answer_mdp (s : State) (v : Word) : (s.answer v).mdp = s.mdp := rfl
@[simp] theorem State.answer_hull (s : State) (v : Word) : (s.answer v).hull = s.hull := rfl
@[simp] theorem State.answer_ledger (s : State) (v : Word) : (s.answer v).ledger = s.ledger := rfl
@[simp] theorem State.answer_startup (s : State) (v : Word) : (s.answer v).startup = s.startup := rfl
@[simp] theorem State.answer_pending (s : State) (v : Word) : (s.answer v).pending = s.pending := rfl

@[simp] theorem State.answer_readValue (s : State) (v : Word) : (s.answer v).readValue = v := rfl

/-! ## Numbered units -/

@[simp] theorem State.inst_setInst (s : State) (n m : Nat) (v : PtpInst) : (s.setInst n v).inst m = if m = n then v else s.inst m :=
  Sparse.get_put _ _ _ _ _
@[simp] theorem State.modInst_eq (s : State) (n : Nat) (f : PtpInst → PtpInst) : s.modInst n f = s.setInst n (f (s.inst n)) := rfl
@[simp] theorem State.setInst_regs (s : State) (n : Nat) (v : PtpInst) : (s.setInst n v).regs = s.regs := rfl
@[simp] theorem State.setInst_latches (s : State) (n : Nat) (v : PtpInst) : (s.setInst n v).latches = s.latches := rfl
@[simp] theorem State.setInst_setNow (s : State) (n : Nat) (v : PtpInst) : (s.setInst n v).setNow = s.setNow := rfl
@[simp] theorem State.setInst_mem (s : State) (n : Nat) (v : PtpInst) : (s.setInst n v).mem = s.mem := rfl
@[simp] theorem State.setInst_readValue (s : State) (n : Nat) (v : PtpInst) : (s.setInst n v).readValue = s.readValue := rfl
@[simp] theorem State.setInst_wire (s : State) (n : Nat) (v : PtpInst) : (s.setInst n v).wire = s.wire := rfl
@[simp] theorem State.setInst_fresh (s : State) (n : Nat) (v : PtpInst) : (s.setInst n v).fresh = s.fresh := rfl
@[simp] theorem State.setInst_clock (s : State) (n : Nat) (v : PtpInst) : (s.setInst n v).clock = s.clock := rfl
@[simp] theorem State.setInst_servo (s : State) (n : Nat) (v : PtpInst) : (s.setInst n v).servo = s.servo := rfl
@[simp] theorem State.setInst_refIn (s : State) (n : Nat) (v : PtpInst) : (s.setInst n v).refIn = s.refIn := rfl
@[simp] theorem State.setInst_tio (s : State) (n : Nat) (v : PtpInst) : (s.setInst n v).tio = s.tio := rfl
@[simp] theorem State.setInst_im (s : State) (n : Nat) (v : PtpInst) : (s.setInst n v).im = s.im := rfl
@[simp] theorem State.setInst_commits (s : State) (n : Nat) (v : PtpInst) : (s.setInst n v).commits = s.commits := rfl
@[simp] theorem State.setInst_roll (s : State) (n : Nat) (v : PtpInst) : (s.setInst n v).roll = s.roll := rfl
@[simp] theorem State.setInst_tiles (s : State) (n : Nat) (v : PtpInst) : (s.setInst n v).tiles = s.tiles := rfl
@[simp] theorem State.setInst_config (s : State) (n : Nat) (v : PtpInst) : (s.setInst n v).config = s.config := rfl
@[simp] theorem State.setInst_lanes (s : State) (n : Nat) (v : PtpInst) : (s.setInst n v).lanes = s.lanes := rfl
@[simp] theorem State.setInst_ports (s : State) (n : Nat) (v : PtpInst) : (s.setInst n v).ports = s.ports := rfl
@[simp] theorem State.setInst_optics (s : State) (n : Nat) (v : PtpInst) : (s.setInst n v).optics = s.optics := rfl
@[simp] theorem State.setInst_ft (s : State) (n : Nat) (v : PtpInst) : (s.setInst n v).ft = s.ft := rfl
@[simp] theorem State.setInst_chanIn (s : State) (n : Nat) (v : PtpInst) : (s.setInst n v).chanIn = s.chanIn := rfl
@[simp] theorem State.setInst_surfaces (s : State) (n : Nat) (v : PtpInst) : (s.setInst n v).surfaces = s.surfaces := rfl
@[simp] theorem State.setInst_chans (s : State) (n : Nat) (v : PtpInst) : (s.setInst n v).chans = s.chans := rfl
@[simp] theorem State.setInst_coders (s : State) (n : Nat) (v : PtpInst) : (s.setInst n v).coders = s.coders := rfl
@[simp] theorem State.setInst_takeovers (s : State) (n : Nat) (v : PtpInst) : (s.setInst n v).takeovers = s.takeovers := rfl
@[simp] theorem State.setInst_rinds (s : State) (n : Nat) (v : PtpInst) : (s.setInst n v).rinds = s.rinds := rfl
@[simp] theorem State.setInst_queues (s : State) (n : Nat) (v : PtpInst) : (s.setInst n v).queues = s.queues := rfl
@[simp] theorem State.setInst_pair (s : State) (n : Nat) (v : PtpInst) : (s.setInst n v).pair = s.pair := rfl
@[simp] theorem State.setInst_heads (s : State) (n : Nat) (v : PtpInst) : (s.setInst n v).heads = s.heads := rfl
@[simp] theorem State.setInst_readers (s : State) (n : Nat) (v : PtpInst) : (s.setInst n v).readers = s.readers := rfl
@[simp] theorem State.setInst_scalers (s : State) (n : Nat) (v : PtpInst) : (s.setInst n v).scalers = s.scalers := rfl
@[simp] theorem State.setInst_audio (s : State) (n : Nat) (v : PtpInst) : (s.setInst n v).audio = s.audio := rfl
@[simp] theorem State.setInst_memory (s : State) (n : Nat) (v : PtpInst) : (s.setInst n v).memory = s.memory := rfl
@[simp] theorem State.setInst_recorder (s : State) (n : Nat) (v : PtpInst) : (s.setInst n v).recorder = s.recorder := rfl
@[simp] theorem State.setInst_cores (s : State) (n : Nat) (v : PtpInst) : (s.setInst n v).cores = s.cores := rfl
@[simp] theorem State.setInst_mdp (s : State) (n : Nat) (v : PtpInst) : (s.setInst n v).mdp = s.mdp := rfl
@[simp] theorem State.setInst_hull (s : State) (n : Nat) (v : PtpInst) : (s.setInst n v).hull = s.hull := rfl
@[simp] theorem State.setInst_ledger (s : State) (n : Nat) (v : PtpInst) : (s.setInst n v).ledger = s.ledger := rfl
@[simp] theorem State.setInst_startup (s : State) (n : Nat) (v : PtpInst) : (s.setInst n v).startup = s.startup := rfl
@[simp] theorem State.setInst_pending (s : State) (n : Nat) (v : PtpInst) : (s.setInst n v).pending = s.pending := rfl

@[simp] theorem State.tioPin_setTioPin (s : State) (n m : Nat) (v : TioPin) : (s.setTioPin n v).tioPin m = if m = n then v else s.tioPin m :=
  Sparse.get_put _ _ _ _ _
@[simp] theorem State.modTioPin_eq (s : State) (n : Nat) (f : TioPin → TioPin) : s.modTioPin n f = s.setTioPin n (f (s.tioPin n)) := rfl
@[simp] theorem State.setTioPin_regs (s : State) (n : Nat) (v : TioPin) : (s.setTioPin n v).regs = s.regs := rfl
@[simp] theorem State.setTioPin_latches (s : State) (n : Nat) (v : TioPin) : (s.setTioPin n v).latches = s.latches := rfl
@[simp] theorem State.setTioPin_setNow (s : State) (n : Nat) (v : TioPin) : (s.setTioPin n v).setNow = s.setNow := rfl
@[simp] theorem State.setTioPin_mem (s : State) (n : Nat) (v : TioPin) : (s.setTioPin n v).mem = s.mem := rfl
@[simp] theorem State.setTioPin_readValue (s : State) (n : Nat) (v : TioPin) : (s.setTioPin n v).readValue = s.readValue := rfl
@[simp] theorem State.setTioPin_wire (s : State) (n : Nat) (v : TioPin) : (s.setTioPin n v).wire = s.wire := rfl
@[simp] theorem State.setTioPin_fresh (s : State) (n : Nat) (v : TioPin) : (s.setTioPin n v).fresh = s.fresh := rfl
@[simp] theorem State.setTioPin_clock (s : State) (n : Nat) (v : TioPin) : (s.setTioPin n v).clock = s.clock := rfl
@[simp] theorem State.setTioPin_servo (s : State) (n : Nat) (v : TioPin) : (s.setTioPin n v).servo = s.servo := rfl
@[simp] theorem State.setTioPin_ptp (s : State) (n : Nat) (v : TioPin) : (s.setTioPin n v).ptp = s.ptp := rfl
@[simp] theorem State.setTioPin_refIn (s : State) (n : Nat) (v : TioPin) : (s.setTioPin n v).refIn = s.refIn := rfl
@[simp] theorem State.setTioPin_im (s : State) (n : Nat) (v : TioPin) : (s.setTioPin n v).im = s.im := rfl
@[simp] theorem State.setTioPin_commits (s : State) (n : Nat) (v : TioPin) : (s.setTioPin n v).commits = s.commits := rfl
@[simp] theorem State.setTioPin_roll (s : State) (n : Nat) (v : TioPin) : (s.setTioPin n v).roll = s.roll := rfl
@[simp] theorem State.setTioPin_tiles (s : State) (n : Nat) (v : TioPin) : (s.setTioPin n v).tiles = s.tiles := rfl
@[simp] theorem State.setTioPin_config (s : State) (n : Nat) (v : TioPin) : (s.setTioPin n v).config = s.config := rfl
@[simp] theorem State.setTioPin_lanes (s : State) (n : Nat) (v : TioPin) : (s.setTioPin n v).lanes = s.lanes := rfl
@[simp] theorem State.setTioPin_ports (s : State) (n : Nat) (v : TioPin) : (s.setTioPin n v).ports = s.ports := rfl
@[simp] theorem State.setTioPin_optics (s : State) (n : Nat) (v : TioPin) : (s.setTioPin n v).optics = s.optics := rfl
@[simp] theorem State.setTioPin_ft (s : State) (n : Nat) (v : TioPin) : (s.setTioPin n v).ft = s.ft := rfl
@[simp] theorem State.setTioPin_chanIn (s : State) (n : Nat) (v : TioPin) : (s.setTioPin n v).chanIn = s.chanIn := rfl
@[simp] theorem State.setTioPin_surfaces (s : State) (n : Nat) (v : TioPin) : (s.setTioPin n v).surfaces = s.surfaces := rfl
@[simp] theorem State.setTioPin_chans (s : State) (n : Nat) (v : TioPin) : (s.setTioPin n v).chans = s.chans := rfl
@[simp] theorem State.setTioPin_coders (s : State) (n : Nat) (v : TioPin) : (s.setTioPin n v).coders = s.coders := rfl
@[simp] theorem State.setTioPin_takeovers (s : State) (n : Nat) (v : TioPin) : (s.setTioPin n v).takeovers = s.takeovers := rfl
@[simp] theorem State.setTioPin_rinds (s : State) (n : Nat) (v : TioPin) : (s.setTioPin n v).rinds = s.rinds := rfl
@[simp] theorem State.setTioPin_queues (s : State) (n : Nat) (v : TioPin) : (s.setTioPin n v).queues = s.queues := rfl
@[simp] theorem State.setTioPin_pair (s : State) (n : Nat) (v : TioPin) : (s.setTioPin n v).pair = s.pair := rfl
@[simp] theorem State.setTioPin_heads (s : State) (n : Nat) (v : TioPin) : (s.setTioPin n v).heads = s.heads := rfl
@[simp] theorem State.setTioPin_readers (s : State) (n : Nat) (v : TioPin) : (s.setTioPin n v).readers = s.readers := rfl
@[simp] theorem State.setTioPin_scalers (s : State) (n : Nat) (v : TioPin) : (s.setTioPin n v).scalers = s.scalers := rfl
@[simp] theorem State.setTioPin_audio (s : State) (n : Nat) (v : TioPin) : (s.setTioPin n v).audio = s.audio := rfl
@[simp] theorem State.setTioPin_memory (s : State) (n : Nat) (v : TioPin) : (s.setTioPin n v).memory = s.memory := rfl
@[simp] theorem State.setTioPin_recorder (s : State) (n : Nat) (v : TioPin) : (s.setTioPin n v).recorder = s.recorder := rfl
@[simp] theorem State.setTioPin_cores (s : State) (n : Nat) (v : TioPin) : (s.setTioPin n v).cores = s.cores := rfl
@[simp] theorem State.setTioPin_mdp (s : State) (n : Nat) (v : TioPin) : (s.setTioPin n v).mdp = s.mdp := rfl
@[simp] theorem State.setTioPin_hull (s : State) (n : Nat) (v : TioPin) : (s.setTioPin n v).hull = s.hull := rfl
@[simp] theorem State.setTioPin_ledger (s : State) (n : Nat) (v : TioPin) : (s.setTioPin n v).ledger = s.ledger := rfl
@[simp] theorem State.setTioPin_startup (s : State) (n : Nat) (v : TioPin) : (s.setTioPin n v).startup = s.startup := rfl
@[simp] theorem State.setTioPin_pending (s : State) (n : Nat) (v : TioPin) : (s.setTioPin n v).pending = s.pending := rfl

@[simp] theorem State.tile_setTile (s : State) (n m : Nat) (v : Tile) : (s.setTile n v).tile m = if m = n then v else s.tile m :=
  Sparse.get_put _ _ _ _ _
@[simp] theorem State.modTile_eq (s : State) (n : Nat) (f : Tile → Tile) : s.modTile n f = s.setTile n (f (s.tile n)) := rfl
@[simp] theorem State.setTile_regs (s : State) (n : Nat) (v : Tile) : (s.setTile n v).regs = s.regs := rfl
@[simp] theorem State.setTile_latches (s : State) (n : Nat) (v : Tile) : (s.setTile n v).latches = s.latches := rfl
@[simp] theorem State.setTile_setNow (s : State) (n : Nat) (v : Tile) : (s.setTile n v).setNow = s.setNow := rfl
@[simp] theorem State.setTile_mem (s : State) (n : Nat) (v : Tile) : (s.setTile n v).mem = s.mem := rfl
@[simp] theorem State.setTile_readValue (s : State) (n : Nat) (v : Tile) : (s.setTile n v).readValue = s.readValue := rfl
@[simp] theorem State.setTile_wire (s : State) (n : Nat) (v : Tile) : (s.setTile n v).wire = s.wire := rfl
@[simp] theorem State.setTile_fresh (s : State) (n : Nat) (v : Tile) : (s.setTile n v).fresh = s.fresh := rfl
@[simp] theorem State.setTile_clock (s : State) (n : Nat) (v : Tile) : (s.setTile n v).clock = s.clock := rfl
@[simp] theorem State.setTile_servo (s : State) (n : Nat) (v : Tile) : (s.setTile n v).servo = s.servo := rfl
@[simp] theorem State.setTile_ptp (s : State) (n : Nat) (v : Tile) : (s.setTile n v).ptp = s.ptp := rfl
@[simp] theorem State.setTile_refIn (s : State) (n : Nat) (v : Tile) : (s.setTile n v).refIn = s.refIn := rfl
@[simp] theorem State.setTile_tio (s : State) (n : Nat) (v : Tile) : (s.setTile n v).tio = s.tio := rfl
@[simp] theorem State.setTile_im (s : State) (n : Nat) (v : Tile) : (s.setTile n v).im = s.im := rfl
@[simp] theorem State.setTile_commits (s : State) (n : Nat) (v : Tile) : (s.setTile n v).commits = s.commits := rfl
@[simp] theorem State.setTile_roll (s : State) (n : Nat) (v : Tile) : (s.setTile n v).roll = s.roll := rfl
@[simp] theorem State.setTile_config (s : State) (n : Nat) (v : Tile) : (s.setTile n v).config = s.config := rfl
@[simp] theorem State.setTile_lanes (s : State) (n : Nat) (v : Tile) : (s.setTile n v).lanes = s.lanes := rfl
@[simp] theorem State.setTile_ports (s : State) (n : Nat) (v : Tile) : (s.setTile n v).ports = s.ports := rfl
@[simp] theorem State.setTile_optics (s : State) (n : Nat) (v : Tile) : (s.setTile n v).optics = s.optics := rfl
@[simp] theorem State.setTile_ft (s : State) (n : Nat) (v : Tile) : (s.setTile n v).ft = s.ft := rfl
@[simp] theorem State.setTile_chanIn (s : State) (n : Nat) (v : Tile) : (s.setTile n v).chanIn = s.chanIn := rfl
@[simp] theorem State.setTile_surfaces (s : State) (n : Nat) (v : Tile) : (s.setTile n v).surfaces = s.surfaces := rfl
@[simp] theorem State.setTile_chans (s : State) (n : Nat) (v : Tile) : (s.setTile n v).chans = s.chans := rfl
@[simp] theorem State.setTile_coders (s : State) (n : Nat) (v : Tile) : (s.setTile n v).coders = s.coders := rfl
@[simp] theorem State.setTile_takeovers (s : State) (n : Nat) (v : Tile) : (s.setTile n v).takeovers = s.takeovers := rfl
@[simp] theorem State.setTile_rinds (s : State) (n : Nat) (v : Tile) : (s.setTile n v).rinds = s.rinds := rfl
@[simp] theorem State.setTile_queues (s : State) (n : Nat) (v : Tile) : (s.setTile n v).queues = s.queues := rfl
@[simp] theorem State.setTile_pair (s : State) (n : Nat) (v : Tile) : (s.setTile n v).pair = s.pair := rfl
@[simp] theorem State.setTile_heads (s : State) (n : Nat) (v : Tile) : (s.setTile n v).heads = s.heads := rfl
@[simp] theorem State.setTile_readers (s : State) (n : Nat) (v : Tile) : (s.setTile n v).readers = s.readers := rfl
@[simp] theorem State.setTile_scalers (s : State) (n : Nat) (v : Tile) : (s.setTile n v).scalers = s.scalers := rfl
@[simp] theorem State.setTile_audio (s : State) (n : Nat) (v : Tile) : (s.setTile n v).audio = s.audio := rfl
@[simp] theorem State.setTile_memory (s : State) (n : Nat) (v : Tile) : (s.setTile n v).memory = s.memory := rfl
@[simp] theorem State.setTile_recorder (s : State) (n : Nat) (v : Tile) : (s.setTile n v).recorder = s.recorder := rfl
@[simp] theorem State.setTile_cores (s : State) (n : Nat) (v : Tile) : (s.setTile n v).cores = s.cores := rfl
@[simp] theorem State.setTile_mdp (s : State) (n : Nat) (v : Tile) : (s.setTile n v).mdp = s.mdp := rfl
@[simp] theorem State.setTile_hull (s : State) (n : Nat) (v : Tile) : (s.setTile n v).hull = s.hull := rfl
@[simp] theorem State.setTile_ledger (s : State) (n : Nat) (v : Tile) : (s.setTile n v).ledger = s.ledger := rfl
@[simp] theorem State.setTile_startup (s : State) (n : Nat) (v : Tile) : (s.setTile n v).startup = s.startup := rfl
@[simp] theorem State.setTile_pending (s : State) (n : Nat) (v : Tile) : (s.setTile n v).pending = s.pending := rfl

@[simp] theorem State.lane_setLane (s : State) (n m : Nat) (v : Lane) : (s.setLane n v).lane m = if m = n then v else s.lane m :=
  Sparse.get_put _ _ _ _ _
@[simp] theorem State.modLane_eq (s : State) (n : Nat) (f : Lane → Lane) : s.modLane n f = s.setLane n (f (s.lane n)) := rfl
@[simp] theorem State.setLane_regs (s : State) (n : Nat) (v : Lane) : (s.setLane n v).regs = s.regs := rfl
@[simp] theorem State.setLane_latches (s : State) (n : Nat) (v : Lane) : (s.setLane n v).latches = s.latches := rfl
@[simp] theorem State.setLane_setNow (s : State) (n : Nat) (v : Lane) : (s.setLane n v).setNow = s.setNow := rfl
@[simp] theorem State.setLane_mem (s : State) (n : Nat) (v : Lane) : (s.setLane n v).mem = s.mem := rfl
@[simp] theorem State.setLane_readValue (s : State) (n : Nat) (v : Lane) : (s.setLane n v).readValue = s.readValue := rfl
@[simp] theorem State.setLane_wire (s : State) (n : Nat) (v : Lane) : (s.setLane n v).wire = s.wire := rfl
@[simp] theorem State.setLane_fresh (s : State) (n : Nat) (v : Lane) : (s.setLane n v).fresh = s.fresh := rfl
@[simp] theorem State.setLane_clock (s : State) (n : Nat) (v : Lane) : (s.setLane n v).clock = s.clock := rfl
@[simp] theorem State.setLane_servo (s : State) (n : Nat) (v : Lane) : (s.setLane n v).servo = s.servo := rfl
@[simp] theorem State.setLane_ptp (s : State) (n : Nat) (v : Lane) : (s.setLane n v).ptp = s.ptp := rfl
@[simp] theorem State.setLane_refIn (s : State) (n : Nat) (v : Lane) : (s.setLane n v).refIn = s.refIn := rfl
@[simp] theorem State.setLane_tio (s : State) (n : Nat) (v : Lane) : (s.setLane n v).tio = s.tio := rfl
@[simp] theorem State.setLane_im (s : State) (n : Nat) (v : Lane) : (s.setLane n v).im = s.im := rfl
@[simp] theorem State.setLane_commits (s : State) (n : Nat) (v : Lane) : (s.setLane n v).commits = s.commits := rfl
@[simp] theorem State.setLane_roll (s : State) (n : Nat) (v : Lane) : (s.setLane n v).roll = s.roll := rfl
@[simp] theorem State.setLane_tiles (s : State) (n : Nat) (v : Lane) : (s.setLane n v).tiles = s.tiles := rfl
@[simp] theorem State.setLane_config (s : State) (n : Nat) (v : Lane) : (s.setLane n v).config = s.config := rfl
@[simp] theorem State.setLane_ports (s : State) (n : Nat) (v : Lane) : (s.setLane n v).ports = s.ports := rfl
@[simp] theorem State.setLane_optics (s : State) (n : Nat) (v : Lane) : (s.setLane n v).optics = s.optics := rfl
@[simp] theorem State.setLane_ft (s : State) (n : Nat) (v : Lane) : (s.setLane n v).ft = s.ft := rfl
@[simp] theorem State.setLane_chanIn (s : State) (n : Nat) (v : Lane) : (s.setLane n v).chanIn = s.chanIn := rfl
@[simp] theorem State.setLane_surfaces (s : State) (n : Nat) (v : Lane) : (s.setLane n v).surfaces = s.surfaces := rfl
@[simp] theorem State.setLane_chans (s : State) (n : Nat) (v : Lane) : (s.setLane n v).chans = s.chans := rfl
@[simp] theorem State.setLane_coders (s : State) (n : Nat) (v : Lane) : (s.setLane n v).coders = s.coders := rfl
@[simp] theorem State.setLane_takeovers (s : State) (n : Nat) (v : Lane) : (s.setLane n v).takeovers = s.takeovers := rfl
@[simp] theorem State.setLane_rinds (s : State) (n : Nat) (v : Lane) : (s.setLane n v).rinds = s.rinds := rfl
@[simp] theorem State.setLane_queues (s : State) (n : Nat) (v : Lane) : (s.setLane n v).queues = s.queues := rfl
@[simp] theorem State.setLane_pair (s : State) (n : Nat) (v : Lane) : (s.setLane n v).pair = s.pair := rfl
@[simp] theorem State.setLane_heads (s : State) (n : Nat) (v : Lane) : (s.setLane n v).heads = s.heads := rfl
@[simp] theorem State.setLane_readers (s : State) (n : Nat) (v : Lane) : (s.setLane n v).readers = s.readers := rfl
@[simp] theorem State.setLane_scalers (s : State) (n : Nat) (v : Lane) : (s.setLane n v).scalers = s.scalers := rfl
@[simp] theorem State.setLane_audio (s : State) (n : Nat) (v : Lane) : (s.setLane n v).audio = s.audio := rfl
@[simp] theorem State.setLane_memory (s : State) (n : Nat) (v : Lane) : (s.setLane n v).memory = s.memory := rfl
@[simp] theorem State.setLane_recorder (s : State) (n : Nat) (v : Lane) : (s.setLane n v).recorder = s.recorder := rfl
@[simp] theorem State.setLane_cores (s : State) (n : Nat) (v : Lane) : (s.setLane n v).cores = s.cores := rfl
@[simp] theorem State.setLane_mdp (s : State) (n : Nat) (v : Lane) : (s.setLane n v).mdp = s.mdp := rfl
@[simp] theorem State.setLane_hull (s : State) (n : Nat) (v : Lane) : (s.setLane n v).hull = s.hull := rfl
@[simp] theorem State.setLane_ledger (s : State) (n : Nat) (v : Lane) : (s.setLane n v).ledger = s.ledger := rfl
@[simp] theorem State.setLane_startup (s : State) (n : Nat) (v : Lane) : (s.setLane n v).startup = s.startup := rfl
@[simp] theorem State.setLane_pending (s : State) (n : Nat) (v : Lane) : (s.setLane n v).pending = s.pending := rfl

@[simp] theorem State.port_setPort (s : State) (n m : Nat) (v : Port) : (s.setPort n v).port m = if m = n then v else s.port m :=
  Sparse.get_put _ _ _ _ _
@[simp] theorem State.modPort_eq (s : State) (n : Nat) (f : Port → Port) : s.modPort n f = s.setPort n (f (s.port n)) := rfl
@[simp] theorem State.setPort_regs (s : State) (n : Nat) (v : Port) : (s.setPort n v).regs = s.regs := rfl
@[simp] theorem State.setPort_latches (s : State) (n : Nat) (v : Port) : (s.setPort n v).latches = s.latches := rfl
@[simp] theorem State.setPort_setNow (s : State) (n : Nat) (v : Port) : (s.setPort n v).setNow = s.setNow := rfl
@[simp] theorem State.setPort_mem (s : State) (n : Nat) (v : Port) : (s.setPort n v).mem = s.mem := rfl
@[simp] theorem State.setPort_readValue (s : State) (n : Nat) (v : Port) : (s.setPort n v).readValue = s.readValue := rfl
@[simp] theorem State.setPort_wire (s : State) (n : Nat) (v : Port) : (s.setPort n v).wire = s.wire := rfl
@[simp] theorem State.setPort_fresh (s : State) (n : Nat) (v : Port) : (s.setPort n v).fresh = s.fresh := rfl
@[simp] theorem State.setPort_clock (s : State) (n : Nat) (v : Port) : (s.setPort n v).clock = s.clock := rfl
@[simp] theorem State.setPort_servo (s : State) (n : Nat) (v : Port) : (s.setPort n v).servo = s.servo := rfl
@[simp] theorem State.setPort_ptp (s : State) (n : Nat) (v : Port) : (s.setPort n v).ptp = s.ptp := rfl
@[simp] theorem State.setPort_refIn (s : State) (n : Nat) (v : Port) : (s.setPort n v).refIn = s.refIn := rfl
@[simp] theorem State.setPort_tio (s : State) (n : Nat) (v : Port) : (s.setPort n v).tio = s.tio := rfl
@[simp] theorem State.setPort_im (s : State) (n : Nat) (v : Port) : (s.setPort n v).im = s.im := rfl
@[simp] theorem State.setPort_commits (s : State) (n : Nat) (v : Port) : (s.setPort n v).commits = s.commits := rfl
@[simp] theorem State.setPort_roll (s : State) (n : Nat) (v : Port) : (s.setPort n v).roll = s.roll := rfl
@[simp] theorem State.setPort_tiles (s : State) (n : Nat) (v : Port) : (s.setPort n v).tiles = s.tiles := rfl
@[simp] theorem State.setPort_config (s : State) (n : Nat) (v : Port) : (s.setPort n v).config = s.config := rfl
@[simp] theorem State.setPort_lanes (s : State) (n : Nat) (v : Port) : (s.setPort n v).lanes = s.lanes := rfl
@[simp] theorem State.setPort_optics (s : State) (n : Nat) (v : Port) : (s.setPort n v).optics = s.optics := rfl
@[simp] theorem State.setPort_ft (s : State) (n : Nat) (v : Port) : (s.setPort n v).ft = s.ft := rfl
@[simp] theorem State.setPort_chanIn (s : State) (n : Nat) (v : Port) : (s.setPort n v).chanIn = s.chanIn := rfl
@[simp] theorem State.setPort_surfaces (s : State) (n : Nat) (v : Port) : (s.setPort n v).surfaces = s.surfaces := rfl
@[simp] theorem State.setPort_chans (s : State) (n : Nat) (v : Port) : (s.setPort n v).chans = s.chans := rfl
@[simp] theorem State.setPort_coders (s : State) (n : Nat) (v : Port) : (s.setPort n v).coders = s.coders := rfl
@[simp] theorem State.setPort_takeovers (s : State) (n : Nat) (v : Port) : (s.setPort n v).takeovers = s.takeovers := rfl
@[simp] theorem State.setPort_rinds (s : State) (n : Nat) (v : Port) : (s.setPort n v).rinds = s.rinds := rfl
@[simp] theorem State.setPort_queues (s : State) (n : Nat) (v : Port) : (s.setPort n v).queues = s.queues := rfl
@[simp] theorem State.setPort_pair (s : State) (n : Nat) (v : Port) : (s.setPort n v).pair = s.pair := rfl
@[simp] theorem State.setPort_heads (s : State) (n : Nat) (v : Port) : (s.setPort n v).heads = s.heads := rfl
@[simp] theorem State.setPort_readers (s : State) (n : Nat) (v : Port) : (s.setPort n v).readers = s.readers := rfl
@[simp] theorem State.setPort_scalers (s : State) (n : Nat) (v : Port) : (s.setPort n v).scalers = s.scalers := rfl
@[simp] theorem State.setPort_audio (s : State) (n : Nat) (v : Port) : (s.setPort n v).audio = s.audio := rfl
@[simp] theorem State.setPort_memory (s : State) (n : Nat) (v : Port) : (s.setPort n v).memory = s.memory := rfl
@[simp] theorem State.setPort_recorder (s : State) (n : Nat) (v : Port) : (s.setPort n v).recorder = s.recorder := rfl
@[simp] theorem State.setPort_cores (s : State) (n : Nat) (v : Port) : (s.setPort n v).cores = s.cores := rfl
@[simp] theorem State.setPort_mdp (s : State) (n : Nat) (v : Port) : (s.setPort n v).mdp = s.mdp := rfl
@[simp] theorem State.setPort_hull (s : State) (n : Nat) (v : Port) : (s.setPort n v).hull = s.hull := rfl
@[simp] theorem State.setPort_ledger (s : State) (n : Nat) (v : Port) : (s.setPort n v).ledger = s.ledger := rfl
@[simp] theorem State.setPort_startup (s : State) (n : Nat) (v : Port) : (s.setPort n v).startup = s.startup := rfl
@[simp] theorem State.setPort_pending (s : State) (n : Nat) (v : Port) : (s.setPort n v).pending = s.pending := rfl

@[simp] theorem State.optic_setOptic (s : State) (n m : Nat) (v : Optic) : (s.setOptic n v).optic m = if m = n then v else s.optic m :=
  Sparse.get_put _ _ _ _ _
@[simp] theorem State.modOptic_eq (s : State) (n : Nat) (f : Optic → Optic) : s.modOptic n f = s.setOptic n (f (s.optic n)) := rfl
@[simp] theorem State.setOptic_regs (s : State) (n : Nat) (v : Optic) : (s.setOptic n v).regs = s.regs := rfl
@[simp] theorem State.setOptic_latches (s : State) (n : Nat) (v : Optic) : (s.setOptic n v).latches = s.latches := rfl
@[simp] theorem State.setOptic_setNow (s : State) (n : Nat) (v : Optic) : (s.setOptic n v).setNow = s.setNow := rfl
@[simp] theorem State.setOptic_mem (s : State) (n : Nat) (v : Optic) : (s.setOptic n v).mem = s.mem := rfl
@[simp] theorem State.setOptic_readValue (s : State) (n : Nat) (v : Optic) : (s.setOptic n v).readValue = s.readValue := rfl
@[simp] theorem State.setOptic_wire (s : State) (n : Nat) (v : Optic) : (s.setOptic n v).wire = s.wire := rfl
@[simp] theorem State.setOptic_fresh (s : State) (n : Nat) (v : Optic) : (s.setOptic n v).fresh = s.fresh := rfl
@[simp] theorem State.setOptic_clock (s : State) (n : Nat) (v : Optic) : (s.setOptic n v).clock = s.clock := rfl
@[simp] theorem State.setOptic_servo (s : State) (n : Nat) (v : Optic) : (s.setOptic n v).servo = s.servo := rfl
@[simp] theorem State.setOptic_ptp (s : State) (n : Nat) (v : Optic) : (s.setOptic n v).ptp = s.ptp := rfl
@[simp] theorem State.setOptic_refIn (s : State) (n : Nat) (v : Optic) : (s.setOptic n v).refIn = s.refIn := rfl
@[simp] theorem State.setOptic_tio (s : State) (n : Nat) (v : Optic) : (s.setOptic n v).tio = s.tio := rfl
@[simp] theorem State.setOptic_im (s : State) (n : Nat) (v : Optic) : (s.setOptic n v).im = s.im := rfl
@[simp] theorem State.setOptic_commits (s : State) (n : Nat) (v : Optic) : (s.setOptic n v).commits = s.commits := rfl
@[simp] theorem State.setOptic_roll (s : State) (n : Nat) (v : Optic) : (s.setOptic n v).roll = s.roll := rfl
@[simp] theorem State.setOptic_tiles (s : State) (n : Nat) (v : Optic) : (s.setOptic n v).tiles = s.tiles := rfl
@[simp] theorem State.setOptic_config (s : State) (n : Nat) (v : Optic) : (s.setOptic n v).config = s.config := rfl
@[simp] theorem State.setOptic_lanes (s : State) (n : Nat) (v : Optic) : (s.setOptic n v).lanes = s.lanes := rfl
@[simp] theorem State.setOptic_ports (s : State) (n : Nat) (v : Optic) : (s.setOptic n v).ports = s.ports := rfl
@[simp] theorem State.setOptic_ft (s : State) (n : Nat) (v : Optic) : (s.setOptic n v).ft = s.ft := rfl
@[simp] theorem State.setOptic_chanIn (s : State) (n : Nat) (v : Optic) : (s.setOptic n v).chanIn = s.chanIn := rfl
@[simp] theorem State.setOptic_surfaces (s : State) (n : Nat) (v : Optic) : (s.setOptic n v).surfaces = s.surfaces := rfl
@[simp] theorem State.setOptic_chans (s : State) (n : Nat) (v : Optic) : (s.setOptic n v).chans = s.chans := rfl
@[simp] theorem State.setOptic_coders (s : State) (n : Nat) (v : Optic) : (s.setOptic n v).coders = s.coders := rfl
@[simp] theorem State.setOptic_takeovers (s : State) (n : Nat) (v : Optic) : (s.setOptic n v).takeovers = s.takeovers := rfl
@[simp] theorem State.setOptic_rinds (s : State) (n : Nat) (v : Optic) : (s.setOptic n v).rinds = s.rinds := rfl
@[simp] theorem State.setOptic_queues (s : State) (n : Nat) (v : Optic) : (s.setOptic n v).queues = s.queues := rfl
@[simp] theorem State.setOptic_pair (s : State) (n : Nat) (v : Optic) : (s.setOptic n v).pair = s.pair := rfl
@[simp] theorem State.setOptic_heads (s : State) (n : Nat) (v : Optic) : (s.setOptic n v).heads = s.heads := rfl
@[simp] theorem State.setOptic_readers (s : State) (n : Nat) (v : Optic) : (s.setOptic n v).readers = s.readers := rfl
@[simp] theorem State.setOptic_scalers (s : State) (n : Nat) (v : Optic) : (s.setOptic n v).scalers = s.scalers := rfl
@[simp] theorem State.setOptic_audio (s : State) (n : Nat) (v : Optic) : (s.setOptic n v).audio = s.audio := rfl
@[simp] theorem State.setOptic_memory (s : State) (n : Nat) (v : Optic) : (s.setOptic n v).memory = s.memory := rfl
@[simp] theorem State.setOptic_recorder (s : State) (n : Nat) (v : Optic) : (s.setOptic n v).recorder = s.recorder := rfl
@[simp] theorem State.setOptic_cores (s : State) (n : Nat) (v : Optic) : (s.setOptic n v).cores = s.cores := rfl
@[simp] theorem State.setOptic_mdp (s : State) (n : Nat) (v : Optic) : (s.setOptic n v).mdp = s.mdp := rfl
@[simp] theorem State.setOptic_hull (s : State) (n : Nat) (v : Optic) : (s.setOptic n v).hull = s.hull := rfl
@[simp] theorem State.setOptic_ledger (s : State) (n : Nat) (v : Optic) : (s.setOptic n v).ledger = s.ledger := rfl
@[simp] theorem State.setOptic_startup (s : State) (n : Nat) (v : Optic) : (s.setOptic n v).startup = s.startup := rfl
@[simp] theorem State.setOptic_pending (s : State) (n : Nat) (v : Optic) : (s.setOptic n v).pending = s.pending := rfl

@[simp] theorem State.chIn_setChIn (s : State) (n m : Nat) (v : ChanIn) : (s.setChIn n v).chIn m = if m = n then v else s.chIn m :=
  Sparse.get_put _ _ _ _ _
@[simp] theorem State.modChIn_eq (s : State) (n : Nat) (f : ChanIn → ChanIn) : s.modChIn n f = s.setChIn n (f (s.chIn n)) := rfl
@[simp] theorem State.setChIn_regs (s : State) (n : Nat) (v : ChanIn) : (s.setChIn n v).regs = s.regs := rfl
@[simp] theorem State.setChIn_latches (s : State) (n : Nat) (v : ChanIn) : (s.setChIn n v).latches = s.latches := rfl
@[simp] theorem State.setChIn_setNow (s : State) (n : Nat) (v : ChanIn) : (s.setChIn n v).setNow = s.setNow := rfl
@[simp] theorem State.setChIn_mem (s : State) (n : Nat) (v : ChanIn) : (s.setChIn n v).mem = s.mem := rfl
@[simp] theorem State.setChIn_readValue (s : State) (n : Nat) (v : ChanIn) : (s.setChIn n v).readValue = s.readValue := rfl
@[simp] theorem State.setChIn_wire (s : State) (n : Nat) (v : ChanIn) : (s.setChIn n v).wire = s.wire := rfl
@[simp] theorem State.setChIn_fresh (s : State) (n : Nat) (v : ChanIn) : (s.setChIn n v).fresh = s.fresh := rfl
@[simp] theorem State.setChIn_clock (s : State) (n : Nat) (v : ChanIn) : (s.setChIn n v).clock = s.clock := rfl
@[simp] theorem State.setChIn_servo (s : State) (n : Nat) (v : ChanIn) : (s.setChIn n v).servo = s.servo := rfl
@[simp] theorem State.setChIn_ptp (s : State) (n : Nat) (v : ChanIn) : (s.setChIn n v).ptp = s.ptp := rfl
@[simp] theorem State.setChIn_refIn (s : State) (n : Nat) (v : ChanIn) : (s.setChIn n v).refIn = s.refIn := rfl
@[simp] theorem State.setChIn_tio (s : State) (n : Nat) (v : ChanIn) : (s.setChIn n v).tio = s.tio := rfl
@[simp] theorem State.setChIn_im (s : State) (n : Nat) (v : ChanIn) : (s.setChIn n v).im = s.im := rfl
@[simp] theorem State.setChIn_commits (s : State) (n : Nat) (v : ChanIn) : (s.setChIn n v).commits = s.commits := rfl
@[simp] theorem State.setChIn_roll (s : State) (n : Nat) (v : ChanIn) : (s.setChIn n v).roll = s.roll := rfl
@[simp] theorem State.setChIn_tiles (s : State) (n : Nat) (v : ChanIn) : (s.setChIn n v).tiles = s.tiles := rfl
@[simp] theorem State.setChIn_config (s : State) (n : Nat) (v : ChanIn) : (s.setChIn n v).config = s.config := rfl
@[simp] theorem State.setChIn_lanes (s : State) (n : Nat) (v : ChanIn) : (s.setChIn n v).lanes = s.lanes := rfl
@[simp] theorem State.setChIn_ports (s : State) (n : Nat) (v : ChanIn) : (s.setChIn n v).ports = s.ports := rfl
@[simp] theorem State.setChIn_optics (s : State) (n : Nat) (v : ChanIn) : (s.setChIn n v).optics = s.optics := rfl
@[simp] theorem State.setChIn_ft (s : State) (n : Nat) (v : ChanIn) : (s.setChIn n v).ft = s.ft := rfl
@[simp] theorem State.setChIn_surfaces (s : State) (n : Nat) (v : ChanIn) : (s.setChIn n v).surfaces = s.surfaces := rfl
@[simp] theorem State.setChIn_chans (s : State) (n : Nat) (v : ChanIn) : (s.setChIn n v).chans = s.chans := rfl
@[simp] theorem State.setChIn_coders (s : State) (n : Nat) (v : ChanIn) : (s.setChIn n v).coders = s.coders := rfl
@[simp] theorem State.setChIn_takeovers (s : State) (n : Nat) (v : ChanIn) : (s.setChIn n v).takeovers = s.takeovers := rfl
@[simp] theorem State.setChIn_rinds (s : State) (n : Nat) (v : ChanIn) : (s.setChIn n v).rinds = s.rinds := rfl
@[simp] theorem State.setChIn_queues (s : State) (n : Nat) (v : ChanIn) : (s.setChIn n v).queues = s.queues := rfl
@[simp] theorem State.setChIn_pair (s : State) (n : Nat) (v : ChanIn) : (s.setChIn n v).pair = s.pair := rfl
@[simp] theorem State.setChIn_heads (s : State) (n : Nat) (v : ChanIn) : (s.setChIn n v).heads = s.heads := rfl
@[simp] theorem State.setChIn_readers (s : State) (n : Nat) (v : ChanIn) : (s.setChIn n v).readers = s.readers := rfl
@[simp] theorem State.setChIn_scalers (s : State) (n : Nat) (v : ChanIn) : (s.setChIn n v).scalers = s.scalers := rfl
@[simp] theorem State.setChIn_audio (s : State) (n : Nat) (v : ChanIn) : (s.setChIn n v).audio = s.audio := rfl
@[simp] theorem State.setChIn_memory (s : State) (n : Nat) (v : ChanIn) : (s.setChIn n v).memory = s.memory := rfl
@[simp] theorem State.setChIn_recorder (s : State) (n : Nat) (v : ChanIn) : (s.setChIn n v).recorder = s.recorder := rfl
@[simp] theorem State.setChIn_cores (s : State) (n : Nat) (v : ChanIn) : (s.setChIn n v).cores = s.cores := rfl
@[simp] theorem State.setChIn_mdp (s : State) (n : Nat) (v : ChanIn) : (s.setChIn n v).mdp = s.mdp := rfl
@[simp] theorem State.setChIn_hull (s : State) (n : Nat) (v : ChanIn) : (s.setChIn n v).hull = s.hull := rfl
@[simp] theorem State.setChIn_ledger (s : State) (n : Nat) (v : ChanIn) : (s.setChIn n v).ledger = s.ledger := rfl
@[simp] theorem State.setChIn_startup (s : State) (n : Nat) (v : ChanIn) : (s.setChIn n v).startup = s.startup := rfl
@[simp] theorem State.setChIn_pending (s : State) (n : Nat) (v : ChanIn) : (s.setChIn n v).pending = s.pending := rfl

@[simp] theorem State.surface_setSurface (s : State) (n m : Nat) (v : Surface) : (s.setSurface n v).surface m = if m = n then v else s.surface m :=
  Sparse.get_put _ _ _ _ _
@[simp] theorem State.modSurface_eq (s : State) (n : Nat) (f : Surface → Surface) : s.modSurface n f = s.setSurface n (f (s.surface n)) := rfl
@[simp] theorem State.setSurface_regs (s : State) (n : Nat) (v : Surface) : (s.setSurface n v).regs = s.regs := rfl
@[simp] theorem State.setSurface_latches (s : State) (n : Nat) (v : Surface) : (s.setSurface n v).latches = s.latches := rfl
@[simp] theorem State.setSurface_setNow (s : State) (n : Nat) (v : Surface) : (s.setSurface n v).setNow = s.setNow := rfl
@[simp] theorem State.setSurface_mem (s : State) (n : Nat) (v : Surface) : (s.setSurface n v).mem = s.mem := rfl
@[simp] theorem State.setSurface_readValue (s : State) (n : Nat) (v : Surface) : (s.setSurface n v).readValue = s.readValue := rfl
@[simp] theorem State.setSurface_wire (s : State) (n : Nat) (v : Surface) : (s.setSurface n v).wire = s.wire := rfl
@[simp] theorem State.setSurface_fresh (s : State) (n : Nat) (v : Surface) : (s.setSurface n v).fresh = s.fresh := rfl
@[simp] theorem State.setSurface_clock (s : State) (n : Nat) (v : Surface) : (s.setSurface n v).clock = s.clock := rfl
@[simp] theorem State.setSurface_servo (s : State) (n : Nat) (v : Surface) : (s.setSurface n v).servo = s.servo := rfl
@[simp] theorem State.setSurface_ptp (s : State) (n : Nat) (v : Surface) : (s.setSurface n v).ptp = s.ptp := rfl
@[simp] theorem State.setSurface_refIn (s : State) (n : Nat) (v : Surface) : (s.setSurface n v).refIn = s.refIn := rfl
@[simp] theorem State.setSurface_tio (s : State) (n : Nat) (v : Surface) : (s.setSurface n v).tio = s.tio := rfl
@[simp] theorem State.setSurface_im (s : State) (n : Nat) (v : Surface) : (s.setSurface n v).im = s.im := rfl
@[simp] theorem State.setSurface_commits (s : State) (n : Nat) (v : Surface) : (s.setSurface n v).commits = s.commits := rfl
@[simp] theorem State.setSurface_roll (s : State) (n : Nat) (v : Surface) : (s.setSurface n v).roll = s.roll := rfl
@[simp] theorem State.setSurface_tiles (s : State) (n : Nat) (v : Surface) : (s.setSurface n v).tiles = s.tiles := rfl
@[simp] theorem State.setSurface_config (s : State) (n : Nat) (v : Surface) : (s.setSurface n v).config = s.config := rfl
@[simp] theorem State.setSurface_lanes (s : State) (n : Nat) (v : Surface) : (s.setSurface n v).lanes = s.lanes := rfl
@[simp] theorem State.setSurface_ports (s : State) (n : Nat) (v : Surface) : (s.setSurface n v).ports = s.ports := rfl
@[simp] theorem State.setSurface_optics (s : State) (n : Nat) (v : Surface) : (s.setSurface n v).optics = s.optics := rfl
@[simp] theorem State.setSurface_ft (s : State) (n : Nat) (v : Surface) : (s.setSurface n v).ft = s.ft := rfl
@[simp] theorem State.setSurface_chanIn (s : State) (n : Nat) (v : Surface) : (s.setSurface n v).chanIn = s.chanIn := rfl
@[simp] theorem State.setSurface_chans (s : State) (n : Nat) (v : Surface) : (s.setSurface n v).chans = s.chans := rfl
@[simp] theorem State.setSurface_coders (s : State) (n : Nat) (v : Surface) : (s.setSurface n v).coders = s.coders := rfl
@[simp] theorem State.setSurface_takeovers (s : State) (n : Nat) (v : Surface) : (s.setSurface n v).takeovers = s.takeovers := rfl
@[simp] theorem State.setSurface_rinds (s : State) (n : Nat) (v : Surface) : (s.setSurface n v).rinds = s.rinds := rfl
@[simp] theorem State.setSurface_queues (s : State) (n : Nat) (v : Surface) : (s.setSurface n v).queues = s.queues := rfl
@[simp] theorem State.setSurface_pair (s : State) (n : Nat) (v : Surface) : (s.setSurface n v).pair = s.pair := rfl
@[simp] theorem State.setSurface_heads (s : State) (n : Nat) (v : Surface) : (s.setSurface n v).heads = s.heads := rfl
@[simp] theorem State.setSurface_readers (s : State) (n : Nat) (v : Surface) : (s.setSurface n v).readers = s.readers := rfl
@[simp] theorem State.setSurface_scalers (s : State) (n : Nat) (v : Surface) : (s.setSurface n v).scalers = s.scalers := rfl
@[simp] theorem State.setSurface_audio (s : State) (n : Nat) (v : Surface) : (s.setSurface n v).audio = s.audio := rfl
@[simp] theorem State.setSurface_memory (s : State) (n : Nat) (v : Surface) : (s.setSurface n v).memory = s.memory := rfl
@[simp] theorem State.setSurface_recorder (s : State) (n : Nat) (v : Surface) : (s.setSurface n v).recorder = s.recorder := rfl
@[simp] theorem State.setSurface_cores (s : State) (n : Nat) (v : Surface) : (s.setSurface n v).cores = s.cores := rfl
@[simp] theorem State.setSurface_mdp (s : State) (n : Nat) (v : Surface) : (s.setSurface n v).mdp = s.mdp := rfl
@[simp] theorem State.setSurface_hull (s : State) (n : Nat) (v : Surface) : (s.setSurface n v).hull = s.hull := rfl
@[simp] theorem State.setSurface_ledger (s : State) (n : Nat) (v : Surface) : (s.setSurface n v).ledger = s.ledger := rfl
@[simp] theorem State.setSurface_startup (s : State) (n : Nat) (v : Surface) : (s.setSurface n v).startup = s.startup := rfl
@[simp] theorem State.setSurface_pending (s : State) (n : Nat) (v : Surface) : (s.setSurface n v).pending = s.pending := rfl

@[simp] theorem State.chan_setChan (s : State) (n m : Nat) (v : Chan) : (s.setChan n v).chan m = if m = n then v else s.chan m :=
  Sparse.get_put _ _ _ _ _
@[simp] theorem State.modChan_eq (s : State) (n : Nat) (f : Chan → Chan) : s.modChan n f = s.setChan n (f (s.chan n)) := rfl
@[simp] theorem State.setChan_regs (s : State) (n : Nat) (v : Chan) : (s.setChan n v).regs = s.regs := rfl
@[simp] theorem State.setChan_latches (s : State) (n : Nat) (v : Chan) : (s.setChan n v).latches = s.latches := rfl
@[simp] theorem State.setChan_setNow (s : State) (n : Nat) (v : Chan) : (s.setChan n v).setNow = s.setNow := rfl
@[simp] theorem State.setChan_mem (s : State) (n : Nat) (v : Chan) : (s.setChan n v).mem = s.mem := rfl
@[simp] theorem State.setChan_readValue (s : State) (n : Nat) (v : Chan) : (s.setChan n v).readValue = s.readValue := rfl
@[simp] theorem State.setChan_wire (s : State) (n : Nat) (v : Chan) : (s.setChan n v).wire = s.wire := rfl
@[simp] theorem State.setChan_fresh (s : State) (n : Nat) (v : Chan) : (s.setChan n v).fresh = s.fresh := rfl
@[simp] theorem State.setChan_clock (s : State) (n : Nat) (v : Chan) : (s.setChan n v).clock = s.clock := rfl
@[simp] theorem State.setChan_servo (s : State) (n : Nat) (v : Chan) : (s.setChan n v).servo = s.servo := rfl
@[simp] theorem State.setChan_ptp (s : State) (n : Nat) (v : Chan) : (s.setChan n v).ptp = s.ptp := rfl
@[simp] theorem State.setChan_refIn (s : State) (n : Nat) (v : Chan) : (s.setChan n v).refIn = s.refIn := rfl
@[simp] theorem State.setChan_tio (s : State) (n : Nat) (v : Chan) : (s.setChan n v).tio = s.tio := rfl
@[simp] theorem State.setChan_im (s : State) (n : Nat) (v : Chan) : (s.setChan n v).im = s.im := rfl
@[simp] theorem State.setChan_commits (s : State) (n : Nat) (v : Chan) : (s.setChan n v).commits = s.commits := rfl
@[simp] theorem State.setChan_roll (s : State) (n : Nat) (v : Chan) : (s.setChan n v).roll = s.roll := rfl
@[simp] theorem State.setChan_tiles (s : State) (n : Nat) (v : Chan) : (s.setChan n v).tiles = s.tiles := rfl
@[simp] theorem State.setChan_config (s : State) (n : Nat) (v : Chan) : (s.setChan n v).config = s.config := rfl
@[simp] theorem State.setChan_lanes (s : State) (n : Nat) (v : Chan) : (s.setChan n v).lanes = s.lanes := rfl
@[simp] theorem State.setChan_ports (s : State) (n : Nat) (v : Chan) : (s.setChan n v).ports = s.ports := rfl
@[simp] theorem State.setChan_optics (s : State) (n : Nat) (v : Chan) : (s.setChan n v).optics = s.optics := rfl
@[simp] theorem State.setChan_ft (s : State) (n : Nat) (v : Chan) : (s.setChan n v).ft = s.ft := rfl
@[simp] theorem State.setChan_chanIn (s : State) (n : Nat) (v : Chan) : (s.setChan n v).chanIn = s.chanIn := rfl
@[simp] theorem State.setChan_surfaces (s : State) (n : Nat) (v : Chan) : (s.setChan n v).surfaces = s.surfaces := rfl
@[simp] theorem State.setChan_coders (s : State) (n : Nat) (v : Chan) : (s.setChan n v).coders = s.coders := rfl
@[simp] theorem State.setChan_takeovers (s : State) (n : Nat) (v : Chan) : (s.setChan n v).takeovers = s.takeovers := rfl
@[simp] theorem State.setChan_rinds (s : State) (n : Nat) (v : Chan) : (s.setChan n v).rinds = s.rinds := rfl
@[simp] theorem State.setChan_queues (s : State) (n : Nat) (v : Chan) : (s.setChan n v).queues = s.queues := rfl
@[simp] theorem State.setChan_pair (s : State) (n : Nat) (v : Chan) : (s.setChan n v).pair = s.pair := rfl
@[simp] theorem State.setChan_heads (s : State) (n : Nat) (v : Chan) : (s.setChan n v).heads = s.heads := rfl
@[simp] theorem State.setChan_readers (s : State) (n : Nat) (v : Chan) : (s.setChan n v).readers = s.readers := rfl
@[simp] theorem State.setChan_scalers (s : State) (n : Nat) (v : Chan) : (s.setChan n v).scalers = s.scalers := rfl
@[simp] theorem State.setChan_audio (s : State) (n : Nat) (v : Chan) : (s.setChan n v).audio = s.audio := rfl
@[simp] theorem State.setChan_memory (s : State) (n : Nat) (v : Chan) : (s.setChan n v).memory = s.memory := rfl
@[simp] theorem State.setChan_recorder (s : State) (n : Nat) (v : Chan) : (s.setChan n v).recorder = s.recorder := rfl
@[simp] theorem State.setChan_cores (s : State) (n : Nat) (v : Chan) : (s.setChan n v).cores = s.cores := rfl
@[simp] theorem State.setChan_mdp (s : State) (n : Nat) (v : Chan) : (s.setChan n v).mdp = s.mdp := rfl
@[simp] theorem State.setChan_hull (s : State) (n : Nat) (v : Chan) : (s.setChan n v).hull = s.hull := rfl
@[simp] theorem State.setChan_ledger (s : State) (n : Nat) (v : Chan) : (s.setChan n v).ledger = s.ledger := rfl
@[simp] theorem State.setChan_startup (s : State) (n : Nat) (v : Chan) : (s.setChan n v).startup = s.startup := rfl
@[simp] theorem State.setChan_pending (s : State) (n : Nat) (v : Chan) : (s.setChan n v).pending = s.pending := rfl

@[simp] theorem State.coder_setCoder (s : State) (n m : Nat) (v : Coder) : (s.setCoder n v).coder m = if m = n then v else s.coder m :=
  Sparse.get_put _ _ _ _ _
@[simp] theorem State.modCoder_eq (s : State) (n : Nat) (f : Coder → Coder) : s.modCoder n f = s.setCoder n (f (s.coder n)) := rfl
@[simp] theorem State.setCoder_regs (s : State) (n : Nat) (v : Coder) : (s.setCoder n v).regs = s.regs := rfl
@[simp] theorem State.setCoder_latches (s : State) (n : Nat) (v : Coder) : (s.setCoder n v).latches = s.latches := rfl
@[simp] theorem State.setCoder_setNow (s : State) (n : Nat) (v : Coder) : (s.setCoder n v).setNow = s.setNow := rfl
@[simp] theorem State.setCoder_mem (s : State) (n : Nat) (v : Coder) : (s.setCoder n v).mem = s.mem := rfl
@[simp] theorem State.setCoder_readValue (s : State) (n : Nat) (v : Coder) : (s.setCoder n v).readValue = s.readValue := rfl
@[simp] theorem State.setCoder_wire (s : State) (n : Nat) (v : Coder) : (s.setCoder n v).wire = s.wire := rfl
@[simp] theorem State.setCoder_fresh (s : State) (n : Nat) (v : Coder) : (s.setCoder n v).fresh = s.fresh := rfl
@[simp] theorem State.setCoder_clock (s : State) (n : Nat) (v : Coder) : (s.setCoder n v).clock = s.clock := rfl
@[simp] theorem State.setCoder_servo (s : State) (n : Nat) (v : Coder) : (s.setCoder n v).servo = s.servo := rfl
@[simp] theorem State.setCoder_ptp (s : State) (n : Nat) (v : Coder) : (s.setCoder n v).ptp = s.ptp := rfl
@[simp] theorem State.setCoder_refIn (s : State) (n : Nat) (v : Coder) : (s.setCoder n v).refIn = s.refIn := rfl
@[simp] theorem State.setCoder_tio (s : State) (n : Nat) (v : Coder) : (s.setCoder n v).tio = s.tio := rfl
@[simp] theorem State.setCoder_im (s : State) (n : Nat) (v : Coder) : (s.setCoder n v).im = s.im := rfl
@[simp] theorem State.setCoder_commits (s : State) (n : Nat) (v : Coder) : (s.setCoder n v).commits = s.commits := rfl
@[simp] theorem State.setCoder_roll (s : State) (n : Nat) (v : Coder) : (s.setCoder n v).roll = s.roll := rfl
@[simp] theorem State.setCoder_tiles (s : State) (n : Nat) (v : Coder) : (s.setCoder n v).tiles = s.tiles := rfl
@[simp] theorem State.setCoder_config (s : State) (n : Nat) (v : Coder) : (s.setCoder n v).config = s.config := rfl
@[simp] theorem State.setCoder_lanes (s : State) (n : Nat) (v : Coder) : (s.setCoder n v).lanes = s.lanes := rfl
@[simp] theorem State.setCoder_ports (s : State) (n : Nat) (v : Coder) : (s.setCoder n v).ports = s.ports := rfl
@[simp] theorem State.setCoder_optics (s : State) (n : Nat) (v : Coder) : (s.setCoder n v).optics = s.optics := rfl
@[simp] theorem State.setCoder_ft (s : State) (n : Nat) (v : Coder) : (s.setCoder n v).ft = s.ft := rfl
@[simp] theorem State.setCoder_chanIn (s : State) (n : Nat) (v : Coder) : (s.setCoder n v).chanIn = s.chanIn := rfl
@[simp] theorem State.setCoder_surfaces (s : State) (n : Nat) (v : Coder) : (s.setCoder n v).surfaces = s.surfaces := rfl
@[simp] theorem State.setCoder_chans (s : State) (n : Nat) (v : Coder) : (s.setCoder n v).chans = s.chans := rfl
@[simp] theorem State.setCoder_takeovers (s : State) (n : Nat) (v : Coder) : (s.setCoder n v).takeovers = s.takeovers := rfl
@[simp] theorem State.setCoder_rinds (s : State) (n : Nat) (v : Coder) : (s.setCoder n v).rinds = s.rinds := rfl
@[simp] theorem State.setCoder_queues (s : State) (n : Nat) (v : Coder) : (s.setCoder n v).queues = s.queues := rfl
@[simp] theorem State.setCoder_pair (s : State) (n : Nat) (v : Coder) : (s.setCoder n v).pair = s.pair := rfl
@[simp] theorem State.setCoder_heads (s : State) (n : Nat) (v : Coder) : (s.setCoder n v).heads = s.heads := rfl
@[simp] theorem State.setCoder_readers (s : State) (n : Nat) (v : Coder) : (s.setCoder n v).readers = s.readers := rfl
@[simp] theorem State.setCoder_scalers (s : State) (n : Nat) (v : Coder) : (s.setCoder n v).scalers = s.scalers := rfl
@[simp] theorem State.setCoder_audio (s : State) (n : Nat) (v : Coder) : (s.setCoder n v).audio = s.audio := rfl
@[simp] theorem State.setCoder_memory (s : State) (n : Nat) (v : Coder) : (s.setCoder n v).memory = s.memory := rfl
@[simp] theorem State.setCoder_recorder (s : State) (n : Nat) (v : Coder) : (s.setCoder n v).recorder = s.recorder := rfl
@[simp] theorem State.setCoder_cores (s : State) (n : Nat) (v : Coder) : (s.setCoder n v).cores = s.cores := rfl
@[simp] theorem State.setCoder_mdp (s : State) (n : Nat) (v : Coder) : (s.setCoder n v).mdp = s.mdp := rfl
@[simp] theorem State.setCoder_hull (s : State) (n : Nat) (v : Coder) : (s.setCoder n v).hull = s.hull := rfl
@[simp] theorem State.setCoder_ledger (s : State) (n : Nat) (v : Coder) : (s.setCoder n v).ledger = s.ledger := rfl
@[simp] theorem State.setCoder_startup (s : State) (n : Nat) (v : Coder) : (s.setCoder n v).startup = s.startup := rfl
@[simp] theorem State.setCoder_pending (s : State) (n : Nat) (v : Coder) : (s.setCoder n v).pending = s.pending := rfl

@[simp] theorem State.rind_setRind (s : State) (n m : Nat) (v : Rind) : (s.setRind n v).rind m = if m = n then v else s.rind m :=
  Sparse.get_put _ _ _ _ _
@[simp] theorem State.modRind_eq (s : State) (n : Nat) (f : Rind → Rind) : s.modRind n f = s.setRind n (f (s.rind n)) := rfl
@[simp] theorem State.setRind_regs (s : State) (n : Nat) (v : Rind) : (s.setRind n v).regs = s.regs := rfl
@[simp] theorem State.setRind_latches (s : State) (n : Nat) (v : Rind) : (s.setRind n v).latches = s.latches := rfl
@[simp] theorem State.setRind_setNow (s : State) (n : Nat) (v : Rind) : (s.setRind n v).setNow = s.setNow := rfl
@[simp] theorem State.setRind_mem (s : State) (n : Nat) (v : Rind) : (s.setRind n v).mem = s.mem := rfl
@[simp] theorem State.setRind_readValue (s : State) (n : Nat) (v : Rind) : (s.setRind n v).readValue = s.readValue := rfl
@[simp] theorem State.setRind_wire (s : State) (n : Nat) (v : Rind) : (s.setRind n v).wire = s.wire := rfl
@[simp] theorem State.setRind_fresh (s : State) (n : Nat) (v : Rind) : (s.setRind n v).fresh = s.fresh := rfl
@[simp] theorem State.setRind_clock (s : State) (n : Nat) (v : Rind) : (s.setRind n v).clock = s.clock := rfl
@[simp] theorem State.setRind_servo (s : State) (n : Nat) (v : Rind) : (s.setRind n v).servo = s.servo := rfl
@[simp] theorem State.setRind_ptp (s : State) (n : Nat) (v : Rind) : (s.setRind n v).ptp = s.ptp := rfl
@[simp] theorem State.setRind_refIn (s : State) (n : Nat) (v : Rind) : (s.setRind n v).refIn = s.refIn := rfl
@[simp] theorem State.setRind_tio (s : State) (n : Nat) (v : Rind) : (s.setRind n v).tio = s.tio := rfl
@[simp] theorem State.setRind_im (s : State) (n : Nat) (v : Rind) : (s.setRind n v).im = s.im := rfl
@[simp] theorem State.setRind_commits (s : State) (n : Nat) (v : Rind) : (s.setRind n v).commits = s.commits := rfl
@[simp] theorem State.setRind_roll (s : State) (n : Nat) (v : Rind) : (s.setRind n v).roll = s.roll := rfl
@[simp] theorem State.setRind_tiles (s : State) (n : Nat) (v : Rind) : (s.setRind n v).tiles = s.tiles := rfl
@[simp] theorem State.setRind_config (s : State) (n : Nat) (v : Rind) : (s.setRind n v).config = s.config := rfl
@[simp] theorem State.setRind_lanes (s : State) (n : Nat) (v : Rind) : (s.setRind n v).lanes = s.lanes := rfl
@[simp] theorem State.setRind_ports (s : State) (n : Nat) (v : Rind) : (s.setRind n v).ports = s.ports := rfl
@[simp] theorem State.setRind_optics (s : State) (n : Nat) (v : Rind) : (s.setRind n v).optics = s.optics := rfl
@[simp] theorem State.setRind_ft (s : State) (n : Nat) (v : Rind) : (s.setRind n v).ft = s.ft := rfl
@[simp] theorem State.setRind_chanIn (s : State) (n : Nat) (v : Rind) : (s.setRind n v).chanIn = s.chanIn := rfl
@[simp] theorem State.setRind_surfaces (s : State) (n : Nat) (v : Rind) : (s.setRind n v).surfaces = s.surfaces := rfl
@[simp] theorem State.setRind_chans (s : State) (n : Nat) (v : Rind) : (s.setRind n v).chans = s.chans := rfl
@[simp] theorem State.setRind_coders (s : State) (n : Nat) (v : Rind) : (s.setRind n v).coders = s.coders := rfl
@[simp] theorem State.setRind_takeovers (s : State) (n : Nat) (v : Rind) : (s.setRind n v).takeovers = s.takeovers := rfl
@[simp] theorem State.setRind_queues (s : State) (n : Nat) (v : Rind) : (s.setRind n v).queues = s.queues := rfl
@[simp] theorem State.setRind_pair (s : State) (n : Nat) (v : Rind) : (s.setRind n v).pair = s.pair := rfl
@[simp] theorem State.setRind_heads (s : State) (n : Nat) (v : Rind) : (s.setRind n v).heads = s.heads := rfl
@[simp] theorem State.setRind_readers (s : State) (n : Nat) (v : Rind) : (s.setRind n v).readers = s.readers := rfl
@[simp] theorem State.setRind_scalers (s : State) (n : Nat) (v : Rind) : (s.setRind n v).scalers = s.scalers := rfl
@[simp] theorem State.setRind_audio (s : State) (n : Nat) (v : Rind) : (s.setRind n v).audio = s.audio := rfl
@[simp] theorem State.setRind_memory (s : State) (n : Nat) (v : Rind) : (s.setRind n v).memory = s.memory := rfl
@[simp] theorem State.setRind_recorder (s : State) (n : Nat) (v : Rind) : (s.setRind n v).recorder = s.recorder := rfl
@[simp] theorem State.setRind_cores (s : State) (n : Nat) (v : Rind) : (s.setRind n v).cores = s.cores := rfl
@[simp] theorem State.setRind_mdp (s : State) (n : Nat) (v : Rind) : (s.setRind n v).mdp = s.mdp := rfl
@[simp] theorem State.setRind_hull (s : State) (n : Nat) (v : Rind) : (s.setRind n v).hull = s.hull := rfl
@[simp] theorem State.setRind_ledger (s : State) (n : Nat) (v : Rind) : (s.setRind n v).ledger = s.ledger := rfl
@[simp] theorem State.setRind_startup (s : State) (n : Nat) (v : Rind) : (s.setRind n v).startup = s.startup := rfl
@[simp] theorem State.setRind_pending (s : State) (n : Nat) (v : Rind) : (s.setRind n v).pending = s.pending := rfl

@[simp] theorem State.head_setHead (s : State) (n m : Nat) (v : Head) : (s.setHead n v).head m = if m = n then v else s.head m :=
  Sparse.get_put _ _ _ _ _
@[simp] theorem State.modHead_eq (s : State) (n : Nat) (f : Head → Head) : s.modHead n f = s.setHead n (f (s.head n)) := rfl
@[simp] theorem State.setHead_regs (s : State) (n : Nat) (v : Head) : (s.setHead n v).regs = s.regs := rfl
@[simp] theorem State.setHead_latches (s : State) (n : Nat) (v : Head) : (s.setHead n v).latches = s.latches := rfl
@[simp] theorem State.setHead_setNow (s : State) (n : Nat) (v : Head) : (s.setHead n v).setNow = s.setNow := rfl
@[simp] theorem State.setHead_mem (s : State) (n : Nat) (v : Head) : (s.setHead n v).mem = s.mem := rfl
@[simp] theorem State.setHead_readValue (s : State) (n : Nat) (v : Head) : (s.setHead n v).readValue = s.readValue := rfl
@[simp] theorem State.setHead_wire (s : State) (n : Nat) (v : Head) : (s.setHead n v).wire = s.wire := rfl
@[simp] theorem State.setHead_fresh (s : State) (n : Nat) (v : Head) : (s.setHead n v).fresh = s.fresh := rfl
@[simp] theorem State.setHead_clock (s : State) (n : Nat) (v : Head) : (s.setHead n v).clock = s.clock := rfl
@[simp] theorem State.setHead_servo (s : State) (n : Nat) (v : Head) : (s.setHead n v).servo = s.servo := rfl
@[simp] theorem State.setHead_ptp (s : State) (n : Nat) (v : Head) : (s.setHead n v).ptp = s.ptp := rfl
@[simp] theorem State.setHead_refIn (s : State) (n : Nat) (v : Head) : (s.setHead n v).refIn = s.refIn := rfl
@[simp] theorem State.setHead_tio (s : State) (n : Nat) (v : Head) : (s.setHead n v).tio = s.tio := rfl
@[simp] theorem State.setHead_im (s : State) (n : Nat) (v : Head) : (s.setHead n v).im = s.im := rfl
@[simp] theorem State.setHead_commits (s : State) (n : Nat) (v : Head) : (s.setHead n v).commits = s.commits := rfl
@[simp] theorem State.setHead_roll (s : State) (n : Nat) (v : Head) : (s.setHead n v).roll = s.roll := rfl
@[simp] theorem State.setHead_tiles (s : State) (n : Nat) (v : Head) : (s.setHead n v).tiles = s.tiles := rfl
@[simp] theorem State.setHead_config (s : State) (n : Nat) (v : Head) : (s.setHead n v).config = s.config := rfl
@[simp] theorem State.setHead_lanes (s : State) (n : Nat) (v : Head) : (s.setHead n v).lanes = s.lanes := rfl
@[simp] theorem State.setHead_ports (s : State) (n : Nat) (v : Head) : (s.setHead n v).ports = s.ports := rfl
@[simp] theorem State.setHead_optics (s : State) (n : Nat) (v : Head) : (s.setHead n v).optics = s.optics := rfl
@[simp] theorem State.setHead_ft (s : State) (n : Nat) (v : Head) : (s.setHead n v).ft = s.ft := rfl
@[simp] theorem State.setHead_chanIn (s : State) (n : Nat) (v : Head) : (s.setHead n v).chanIn = s.chanIn := rfl
@[simp] theorem State.setHead_surfaces (s : State) (n : Nat) (v : Head) : (s.setHead n v).surfaces = s.surfaces := rfl
@[simp] theorem State.setHead_chans (s : State) (n : Nat) (v : Head) : (s.setHead n v).chans = s.chans := rfl
@[simp] theorem State.setHead_coders (s : State) (n : Nat) (v : Head) : (s.setHead n v).coders = s.coders := rfl
@[simp] theorem State.setHead_takeovers (s : State) (n : Nat) (v : Head) : (s.setHead n v).takeovers = s.takeovers := rfl
@[simp] theorem State.setHead_rinds (s : State) (n : Nat) (v : Head) : (s.setHead n v).rinds = s.rinds := rfl
@[simp] theorem State.setHead_queues (s : State) (n : Nat) (v : Head) : (s.setHead n v).queues = s.queues := rfl
@[simp] theorem State.setHead_pair (s : State) (n : Nat) (v : Head) : (s.setHead n v).pair = s.pair := rfl
@[simp] theorem State.setHead_readers (s : State) (n : Nat) (v : Head) : (s.setHead n v).readers = s.readers := rfl
@[simp] theorem State.setHead_scalers (s : State) (n : Nat) (v : Head) : (s.setHead n v).scalers = s.scalers := rfl
@[simp] theorem State.setHead_audio (s : State) (n : Nat) (v : Head) : (s.setHead n v).audio = s.audio := rfl
@[simp] theorem State.setHead_memory (s : State) (n : Nat) (v : Head) : (s.setHead n v).memory = s.memory := rfl
@[simp] theorem State.setHead_recorder (s : State) (n : Nat) (v : Head) : (s.setHead n v).recorder = s.recorder := rfl
@[simp] theorem State.setHead_cores (s : State) (n : Nat) (v : Head) : (s.setHead n v).cores = s.cores := rfl
@[simp] theorem State.setHead_mdp (s : State) (n : Nat) (v : Head) : (s.setHead n v).mdp = s.mdp := rfl
@[simp] theorem State.setHead_hull (s : State) (n : Nat) (v : Head) : (s.setHead n v).hull = s.hull := rfl
@[simp] theorem State.setHead_ledger (s : State) (n : Nat) (v : Head) : (s.setHead n v).ledger = s.ledger := rfl
@[simp] theorem State.setHead_startup (s : State) (n : Nat) (v : Head) : (s.setHead n v).startup = s.startup := rfl
@[simp] theorem State.setHead_pending (s : State) (n : Nat) (v : Head) : (s.setHead n v).pending = s.pending := rfl

@[simp] theorem State.reader_setReader (s : State) (n m : Nat) (v : CheckedUnit) : (s.setReader n v).reader m = if m = n then v else s.reader m :=
  Sparse.get_put _ _ _ _ _
@[simp] theorem State.modReader_eq (s : State) (n : Nat) (f : CheckedUnit → CheckedUnit) : s.modReader n f = s.setReader n (f (s.reader n)) := rfl
@[simp] theorem State.setReader_regs (s : State) (n : Nat) (v : CheckedUnit) : (s.setReader n v).regs = s.regs := rfl
@[simp] theorem State.setReader_latches (s : State) (n : Nat) (v : CheckedUnit) : (s.setReader n v).latches = s.latches := rfl
@[simp] theorem State.setReader_setNow (s : State) (n : Nat) (v : CheckedUnit) : (s.setReader n v).setNow = s.setNow := rfl
@[simp] theorem State.setReader_mem (s : State) (n : Nat) (v : CheckedUnit) : (s.setReader n v).mem = s.mem := rfl
@[simp] theorem State.setReader_readValue (s : State) (n : Nat) (v : CheckedUnit) : (s.setReader n v).readValue = s.readValue := rfl
@[simp] theorem State.setReader_wire (s : State) (n : Nat) (v : CheckedUnit) : (s.setReader n v).wire = s.wire := rfl
@[simp] theorem State.setReader_fresh (s : State) (n : Nat) (v : CheckedUnit) : (s.setReader n v).fresh = s.fresh := rfl
@[simp] theorem State.setReader_clock (s : State) (n : Nat) (v : CheckedUnit) : (s.setReader n v).clock = s.clock := rfl
@[simp] theorem State.setReader_servo (s : State) (n : Nat) (v : CheckedUnit) : (s.setReader n v).servo = s.servo := rfl
@[simp] theorem State.setReader_ptp (s : State) (n : Nat) (v : CheckedUnit) : (s.setReader n v).ptp = s.ptp := rfl
@[simp] theorem State.setReader_refIn (s : State) (n : Nat) (v : CheckedUnit) : (s.setReader n v).refIn = s.refIn := rfl
@[simp] theorem State.setReader_tio (s : State) (n : Nat) (v : CheckedUnit) : (s.setReader n v).tio = s.tio := rfl
@[simp] theorem State.setReader_im (s : State) (n : Nat) (v : CheckedUnit) : (s.setReader n v).im = s.im := rfl
@[simp] theorem State.setReader_commits (s : State) (n : Nat) (v : CheckedUnit) : (s.setReader n v).commits = s.commits := rfl
@[simp] theorem State.setReader_roll (s : State) (n : Nat) (v : CheckedUnit) : (s.setReader n v).roll = s.roll := rfl
@[simp] theorem State.setReader_tiles (s : State) (n : Nat) (v : CheckedUnit) : (s.setReader n v).tiles = s.tiles := rfl
@[simp] theorem State.setReader_config (s : State) (n : Nat) (v : CheckedUnit) : (s.setReader n v).config = s.config := rfl
@[simp] theorem State.setReader_lanes (s : State) (n : Nat) (v : CheckedUnit) : (s.setReader n v).lanes = s.lanes := rfl
@[simp] theorem State.setReader_ports (s : State) (n : Nat) (v : CheckedUnit) : (s.setReader n v).ports = s.ports := rfl
@[simp] theorem State.setReader_optics (s : State) (n : Nat) (v : CheckedUnit) : (s.setReader n v).optics = s.optics := rfl
@[simp] theorem State.setReader_ft (s : State) (n : Nat) (v : CheckedUnit) : (s.setReader n v).ft = s.ft := rfl
@[simp] theorem State.setReader_chanIn (s : State) (n : Nat) (v : CheckedUnit) : (s.setReader n v).chanIn = s.chanIn := rfl
@[simp] theorem State.setReader_surfaces (s : State) (n : Nat) (v : CheckedUnit) : (s.setReader n v).surfaces = s.surfaces := rfl
@[simp] theorem State.setReader_chans (s : State) (n : Nat) (v : CheckedUnit) : (s.setReader n v).chans = s.chans := rfl
@[simp] theorem State.setReader_coders (s : State) (n : Nat) (v : CheckedUnit) : (s.setReader n v).coders = s.coders := rfl
@[simp] theorem State.setReader_takeovers (s : State) (n : Nat) (v : CheckedUnit) : (s.setReader n v).takeovers = s.takeovers := rfl
@[simp] theorem State.setReader_rinds (s : State) (n : Nat) (v : CheckedUnit) : (s.setReader n v).rinds = s.rinds := rfl
@[simp] theorem State.setReader_queues (s : State) (n : Nat) (v : CheckedUnit) : (s.setReader n v).queues = s.queues := rfl
@[simp] theorem State.setReader_pair (s : State) (n : Nat) (v : CheckedUnit) : (s.setReader n v).pair = s.pair := rfl
@[simp] theorem State.setReader_heads (s : State) (n : Nat) (v : CheckedUnit) : (s.setReader n v).heads = s.heads := rfl
@[simp] theorem State.setReader_scalers (s : State) (n : Nat) (v : CheckedUnit) : (s.setReader n v).scalers = s.scalers := rfl
@[simp] theorem State.setReader_audio (s : State) (n : Nat) (v : CheckedUnit) : (s.setReader n v).audio = s.audio := rfl
@[simp] theorem State.setReader_memory (s : State) (n : Nat) (v : CheckedUnit) : (s.setReader n v).memory = s.memory := rfl
@[simp] theorem State.setReader_recorder (s : State) (n : Nat) (v : CheckedUnit) : (s.setReader n v).recorder = s.recorder := rfl
@[simp] theorem State.setReader_cores (s : State) (n : Nat) (v : CheckedUnit) : (s.setReader n v).cores = s.cores := rfl
@[simp] theorem State.setReader_mdp (s : State) (n : Nat) (v : CheckedUnit) : (s.setReader n v).mdp = s.mdp := rfl
@[simp] theorem State.setReader_hull (s : State) (n : Nat) (v : CheckedUnit) : (s.setReader n v).hull = s.hull := rfl
@[simp] theorem State.setReader_ledger (s : State) (n : Nat) (v : CheckedUnit) : (s.setReader n v).ledger = s.ledger := rfl
@[simp] theorem State.setReader_startup (s : State) (n : Nat) (v : CheckedUnit) : (s.setReader n v).startup = s.startup := rfl
@[simp] theorem State.setReader_pending (s : State) (n : Nat) (v : CheckedUnit) : (s.setReader n v).pending = s.pending := rfl

@[simp] theorem State.scaler_setScaler (s : State) (n m : Nat) (v : CheckedUnit) : (s.setScaler n v).scaler m = if m = n then v else s.scaler m :=
  Sparse.get_put _ _ _ _ _
@[simp] theorem State.modScaler_eq (s : State) (n : Nat) (f : CheckedUnit → CheckedUnit) : s.modScaler n f = s.setScaler n (f (s.scaler n)) := rfl
@[simp] theorem State.setScaler_regs (s : State) (n : Nat) (v : CheckedUnit) : (s.setScaler n v).regs = s.regs := rfl
@[simp] theorem State.setScaler_latches (s : State) (n : Nat) (v : CheckedUnit) : (s.setScaler n v).latches = s.latches := rfl
@[simp] theorem State.setScaler_setNow (s : State) (n : Nat) (v : CheckedUnit) : (s.setScaler n v).setNow = s.setNow := rfl
@[simp] theorem State.setScaler_mem (s : State) (n : Nat) (v : CheckedUnit) : (s.setScaler n v).mem = s.mem := rfl
@[simp] theorem State.setScaler_readValue (s : State) (n : Nat) (v : CheckedUnit) : (s.setScaler n v).readValue = s.readValue := rfl
@[simp] theorem State.setScaler_wire (s : State) (n : Nat) (v : CheckedUnit) : (s.setScaler n v).wire = s.wire := rfl
@[simp] theorem State.setScaler_fresh (s : State) (n : Nat) (v : CheckedUnit) : (s.setScaler n v).fresh = s.fresh := rfl
@[simp] theorem State.setScaler_clock (s : State) (n : Nat) (v : CheckedUnit) : (s.setScaler n v).clock = s.clock := rfl
@[simp] theorem State.setScaler_servo (s : State) (n : Nat) (v : CheckedUnit) : (s.setScaler n v).servo = s.servo := rfl
@[simp] theorem State.setScaler_ptp (s : State) (n : Nat) (v : CheckedUnit) : (s.setScaler n v).ptp = s.ptp := rfl
@[simp] theorem State.setScaler_refIn (s : State) (n : Nat) (v : CheckedUnit) : (s.setScaler n v).refIn = s.refIn := rfl
@[simp] theorem State.setScaler_tio (s : State) (n : Nat) (v : CheckedUnit) : (s.setScaler n v).tio = s.tio := rfl
@[simp] theorem State.setScaler_im (s : State) (n : Nat) (v : CheckedUnit) : (s.setScaler n v).im = s.im := rfl
@[simp] theorem State.setScaler_commits (s : State) (n : Nat) (v : CheckedUnit) : (s.setScaler n v).commits = s.commits := rfl
@[simp] theorem State.setScaler_roll (s : State) (n : Nat) (v : CheckedUnit) : (s.setScaler n v).roll = s.roll := rfl
@[simp] theorem State.setScaler_tiles (s : State) (n : Nat) (v : CheckedUnit) : (s.setScaler n v).tiles = s.tiles := rfl
@[simp] theorem State.setScaler_config (s : State) (n : Nat) (v : CheckedUnit) : (s.setScaler n v).config = s.config := rfl
@[simp] theorem State.setScaler_lanes (s : State) (n : Nat) (v : CheckedUnit) : (s.setScaler n v).lanes = s.lanes := rfl
@[simp] theorem State.setScaler_ports (s : State) (n : Nat) (v : CheckedUnit) : (s.setScaler n v).ports = s.ports := rfl
@[simp] theorem State.setScaler_optics (s : State) (n : Nat) (v : CheckedUnit) : (s.setScaler n v).optics = s.optics := rfl
@[simp] theorem State.setScaler_ft (s : State) (n : Nat) (v : CheckedUnit) : (s.setScaler n v).ft = s.ft := rfl
@[simp] theorem State.setScaler_chanIn (s : State) (n : Nat) (v : CheckedUnit) : (s.setScaler n v).chanIn = s.chanIn := rfl
@[simp] theorem State.setScaler_surfaces (s : State) (n : Nat) (v : CheckedUnit) : (s.setScaler n v).surfaces = s.surfaces := rfl
@[simp] theorem State.setScaler_chans (s : State) (n : Nat) (v : CheckedUnit) : (s.setScaler n v).chans = s.chans := rfl
@[simp] theorem State.setScaler_coders (s : State) (n : Nat) (v : CheckedUnit) : (s.setScaler n v).coders = s.coders := rfl
@[simp] theorem State.setScaler_takeovers (s : State) (n : Nat) (v : CheckedUnit) : (s.setScaler n v).takeovers = s.takeovers := rfl
@[simp] theorem State.setScaler_rinds (s : State) (n : Nat) (v : CheckedUnit) : (s.setScaler n v).rinds = s.rinds := rfl
@[simp] theorem State.setScaler_queues (s : State) (n : Nat) (v : CheckedUnit) : (s.setScaler n v).queues = s.queues := rfl
@[simp] theorem State.setScaler_pair (s : State) (n : Nat) (v : CheckedUnit) : (s.setScaler n v).pair = s.pair := rfl
@[simp] theorem State.setScaler_heads (s : State) (n : Nat) (v : CheckedUnit) : (s.setScaler n v).heads = s.heads := rfl
@[simp] theorem State.setScaler_readers (s : State) (n : Nat) (v : CheckedUnit) : (s.setScaler n v).readers = s.readers := rfl
@[simp] theorem State.setScaler_audio (s : State) (n : Nat) (v : CheckedUnit) : (s.setScaler n v).audio = s.audio := rfl
@[simp] theorem State.setScaler_memory (s : State) (n : Nat) (v : CheckedUnit) : (s.setScaler n v).memory = s.memory := rfl
@[simp] theorem State.setScaler_recorder (s : State) (n : Nat) (v : CheckedUnit) : (s.setScaler n v).recorder = s.recorder := rfl
@[simp] theorem State.setScaler_cores (s : State) (n : Nat) (v : CheckedUnit) : (s.setScaler n v).cores = s.cores := rfl
@[simp] theorem State.setScaler_mdp (s : State) (n : Nat) (v : CheckedUnit) : (s.setScaler n v).mdp = s.mdp := rfl
@[simp] theorem State.setScaler_hull (s : State) (n : Nat) (v : CheckedUnit) : (s.setScaler n v).hull = s.hull := rfl
@[simp] theorem State.setScaler_ledger (s : State) (n : Nat) (v : CheckedUnit) : (s.setScaler n v).ledger = s.ledger := rfl
@[simp] theorem State.setScaler_startup (s : State) (n : Nat) (v : CheckedUnit) : (s.setScaler n v).startup = s.startup := rfl
@[simp] theorem State.setScaler_pending (s : State) (n : Nat) (v : CheckedUnit) : (s.setScaler n v).pending = s.pending := rfl

@[simp] theorem State.tc_setTc (s : State) (n m : Nat) (v : Processor) : (s.setTc n v).tc m = if m = n then v else s.tc m :=
  Sparse.get_put _ _ _ _ _
@[simp] theorem State.modTc_eq (s : State) (n : Nat) (f : Processor → Processor) : s.modTc n f = s.setTc n (f (s.tc n)) := rfl
@[simp] theorem State.setTc_regs (s : State) (n : Nat) (v : Processor) : (s.setTc n v).regs = s.regs := rfl
@[simp] theorem State.setTc_latches (s : State) (n : Nat) (v : Processor) : (s.setTc n v).latches = s.latches := rfl
@[simp] theorem State.setTc_setNow (s : State) (n : Nat) (v : Processor) : (s.setTc n v).setNow = s.setNow := rfl
@[simp] theorem State.setTc_mem (s : State) (n : Nat) (v : Processor) : (s.setTc n v).mem = s.mem := rfl
@[simp] theorem State.setTc_readValue (s : State) (n : Nat) (v : Processor) : (s.setTc n v).readValue = s.readValue := rfl
@[simp] theorem State.setTc_wire (s : State) (n : Nat) (v : Processor) : (s.setTc n v).wire = s.wire := rfl
@[simp] theorem State.setTc_fresh (s : State) (n : Nat) (v : Processor) : (s.setTc n v).fresh = s.fresh := rfl
@[simp] theorem State.setTc_clock (s : State) (n : Nat) (v : Processor) : (s.setTc n v).clock = s.clock := rfl
@[simp] theorem State.setTc_servo (s : State) (n : Nat) (v : Processor) : (s.setTc n v).servo = s.servo := rfl
@[simp] theorem State.setTc_ptp (s : State) (n : Nat) (v : Processor) : (s.setTc n v).ptp = s.ptp := rfl
@[simp] theorem State.setTc_refIn (s : State) (n : Nat) (v : Processor) : (s.setTc n v).refIn = s.refIn := rfl
@[simp] theorem State.setTc_tio (s : State) (n : Nat) (v : Processor) : (s.setTc n v).tio = s.tio := rfl
@[simp] theorem State.setTc_im (s : State) (n : Nat) (v : Processor) : (s.setTc n v).im = s.im := rfl
@[simp] theorem State.setTc_commits (s : State) (n : Nat) (v : Processor) : (s.setTc n v).commits = s.commits := rfl
@[simp] theorem State.setTc_roll (s : State) (n : Nat) (v : Processor) : (s.setTc n v).roll = s.roll := rfl
@[simp] theorem State.setTc_tiles (s : State) (n : Nat) (v : Processor) : (s.setTc n v).tiles = s.tiles := rfl
@[simp] theorem State.setTc_config (s : State) (n : Nat) (v : Processor) : (s.setTc n v).config = s.config := rfl
@[simp] theorem State.setTc_lanes (s : State) (n : Nat) (v : Processor) : (s.setTc n v).lanes = s.lanes := rfl
@[simp] theorem State.setTc_ports (s : State) (n : Nat) (v : Processor) : (s.setTc n v).ports = s.ports := rfl
@[simp] theorem State.setTc_optics (s : State) (n : Nat) (v : Processor) : (s.setTc n v).optics = s.optics := rfl
@[simp] theorem State.setTc_ft (s : State) (n : Nat) (v : Processor) : (s.setTc n v).ft = s.ft := rfl
@[simp] theorem State.setTc_chanIn (s : State) (n : Nat) (v : Processor) : (s.setTc n v).chanIn = s.chanIn := rfl
@[simp] theorem State.setTc_surfaces (s : State) (n : Nat) (v : Processor) : (s.setTc n v).surfaces = s.surfaces := rfl
@[simp] theorem State.setTc_chans (s : State) (n : Nat) (v : Processor) : (s.setTc n v).chans = s.chans := rfl
@[simp] theorem State.setTc_coders (s : State) (n : Nat) (v : Processor) : (s.setTc n v).coders = s.coders := rfl
@[simp] theorem State.setTc_takeovers (s : State) (n : Nat) (v : Processor) : (s.setTc n v).takeovers = s.takeovers := rfl
@[simp] theorem State.setTc_rinds (s : State) (n : Nat) (v : Processor) : (s.setTc n v).rinds = s.rinds := rfl
@[simp] theorem State.setTc_queues (s : State) (n : Nat) (v : Processor) : (s.setTc n v).queues = s.queues := rfl
@[simp] theorem State.setTc_pair (s : State) (n : Nat) (v : Processor) : (s.setTc n v).pair = s.pair := rfl
@[simp] theorem State.setTc_heads (s : State) (n : Nat) (v : Processor) : (s.setTc n v).heads = s.heads := rfl
@[simp] theorem State.setTc_readers (s : State) (n : Nat) (v : Processor) : (s.setTc n v).readers = s.readers := rfl
@[simp] theorem State.setTc_scalers (s : State) (n : Nat) (v : Processor) : (s.setTc n v).scalers = s.scalers := rfl
@[simp] theorem State.setTc_audio (s : State) (n : Nat) (v : Processor) : (s.setTc n v).audio = s.audio := rfl
@[simp] theorem State.setTc_memory (s : State) (n : Nat) (v : Processor) : (s.setTc n v).memory = s.memory := rfl
@[simp] theorem State.setTc_recorder (s : State) (n : Nat) (v : Processor) : (s.setTc n v).recorder = s.recorder := rfl
@[simp] theorem State.setTc_mdp (s : State) (n : Nat) (v : Processor) : (s.setTc n v).mdp = s.mdp := rfl
@[simp] theorem State.setTc_hull (s : State) (n : Nat) (v : Processor) : (s.setTc n v).hull = s.hull := rfl
@[simp] theorem State.setTc_ledger (s : State) (n : Nat) (v : Processor) : (s.setTc n v).ledger = s.ledger := rfl
@[simp] theorem State.setTc_startup (s : State) (n : Nat) (v : Processor) : (s.setTc n v).startup = s.startup := rfl
@[simp] theorem State.setTc_pending (s : State) (n : Nat) (v : Processor) : (s.setTc n v).pending = s.pending := rfl

@[simp] theorem State.source_setSource (s : State) (n m : Nat) (v : IrqSource) : (s.setSource n v).source m = if m = n then v else s.source m :=
  Sparse.get_put _ _ _ _ _
@[simp] theorem State.modSource_eq (s : State) (n : Nat) (f : IrqSource → IrqSource) : s.modSource n f = s.setSource n (f (s.source n)) := rfl
@[simp] theorem State.setSource_regs (s : State) (n : Nat) (v : IrqSource) : (s.setSource n v).regs = s.regs := rfl
@[simp] theorem State.setSource_latches (s : State) (n : Nat) (v : IrqSource) : (s.setSource n v).latches = s.latches := rfl
@[simp] theorem State.setSource_setNow (s : State) (n : Nat) (v : IrqSource) : (s.setSource n v).setNow = s.setNow := rfl
@[simp] theorem State.setSource_mem (s : State) (n : Nat) (v : IrqSource) : (s.setSource n v).mem = s.mem := rfl
@[simp] theorem State.setSource_readValue (s : State) (n : Nat) (v : IrqSource) : (s.setSource n v).readValue = s.readValue := rfl
@[simp] theorem State.setSource_wire (s : State) (n : Nat) (v : IrqSource) : (s.setSource n v).wire = s.wire := rfl
@[simp] theorem State.setSource_fresh (s : State) (n : Nat) (v : IrqSource) : (s.setSource n v).fresh = s.fresh := rfl
@[simp] theorem State.setSource_clock (s : State) (n : Nat) (v : IrqSource) : (s.setSource n v).clock = s.clock := rfl
@[simp] theorem State.setSource_servo (s : State) (n : Nat) (v : IrqSource) : (s.setSource n v).servo = s.servo := rfl
@[simp] theorem State.setSource_ptp (s : State) (n : Nat) (v : IrqSource) : (s.setSource n v).ptp = s.ptp := rfl
@[simp] theorem State.setSource_refIn (s : State) (n : Nat) (v : IrqSource) : (s.setSource n v).refIn = s.refIn := rfl
@[simp] theorem State.setSource_tio (s : State) (n : Nat) (v : IrqSource) : (s.setSource n v).tio = s.tio := rfl
@[simp] theorem State.setSource_im (s : State) (n : Nat) (v : IrqSource) : (s.setSource n v).im = s.im := rfl
@[simp] theorem State.setSource_commits (s : State) (n : Nat) (v : IrqSource) : (s.setSource n v).commits = s.commits := rfl
@[simp] theorem State.setSource_roll (s : State) (n : Nat) (v : IrqSource) : (s.setSource n v).roll = s.roll := rfl
@[simp] theorem State.setSource_tiles (s : State) (n : Nat) (v : IrqSource) : (s.setSource n v).tiles = s.tiles := rfl
@[simp] theorem State.setSource_config (s : State) (n : Nat) (v : IrqSource) : (s.setSource n v).config = s.config := rfl
@[simp] theorem State.setSource_lanes (s : State) (n : Nat) (v : IrqSource) : (s.setSource n v).lanes = s.lanes := rfl
@[simp] theorem State.setSource_ports (s : State) (n : Nat) (v : IrqSource) : (s.setSource n v).ports = s.ports := rfl
@[simp] theorem State.setSource_optics (s : State) (n : Nat) (v : IrqSource) : (s.setSource n v).optics = s.optics := rfl
@[simp] theorem State.setSource_ft (s : State) (n : Nat) (v : IrqSource) : (s.setSource n v).ft = s.ft := rfl
@[simp] theorem State.setSource_chanIn (s : State) (n : Nat) (v : IrqSource) : (s.setSource n v).chanIn = s.chanIn := rfl
@[simp] theorem State.setSource_surfaces (s : State) (n : Nat) (v : IrqSource) : (s.setSource n v).surfaces = s.surfaces := rfl
@[simp] theorem State.setSource_chans (s : State) (n : Nat) (v : IrqSource) : (s.setSource n v).chans = s.chans := rfl
@[simp] theorem State.setSource_coders (s : State) (n : Nat) (v : IrqSource) : (s.setSource n v).coders = s.coders := rfl
@[simp] theorem State.setSource_takeovers (s : State) (n : Nat) (v : IrqSource) : (s.setSource n v).takeovers = s.takeovers := rfl
@[simp] theorem State.setSource_rinds (s : State) (n : Nat) (v : IrqSource) : (s.setSource n v).rinds = s.rinds := rfl
@[simp] theorem State.setSource_queues (s : State) (n : Nat) (v : IrqSource) : (s.setSource n v).queues = s.queues := rfl
@[simp] theorem State.setSource_pair (s : State) (n : Nat) (v : IrqSource) : (s.setSource n v).pair = s.pair := rfl
@[simp] theorem State.setSource_heads (s : State) (n : Nat) (v : IrqSource) : (s.setSource n v).heads = s.heads := rfl
@[simp] theorem State.setSource_readers (s : State) (n : Nat) (v : IrqSource) : (s.setSource n v).readers = s.readers := rfl
@[simp] theorem State.setSource_scalers (s : State) (n : Nat) (v : IrqSource) : (s.setSource n v).scalers = s.scalers := rfl
@[simp] theorem State.setSource_audio (s : State) (n : Nat) (v : IrqSource) : (s.setSource n v).audio = s.audio := rfl
@[simp] theorem State.setSource_memory (s : State) (n : Nat) (v : IrqSource) : (s.setSource n v).memory = s.memory := rfl
@[simp] theorem State.setSource_recorder (s : State) (n : Nat) (v : IrqSource) : (s.setSource n v).recorder = s.recorder := rfl
@[simp] theorem State.setSource_mdp (s : State) (n : Nat) (v : IrqSource) : (s.setSource n v).mdp = s.mdp := rfl
@[simp] theorem State.setSource_hull (s : State) (n : Nat) (v : IrqSource) : (s.setSource n v).hull = s.hull := rfl
@[simp] theorem State.setSource_ledger (s : State) (n : Nat) (v : IrqSource) : (s.setSource n v).ledger = s.ledger := rfl
@[simp] theorem State.setSource_startup (s : State) (n : Nat) (v : IrqSource) : (s.setSource n v).startup = s.startup := rfl
@[simp] theorem State.setSource_pending (s : State) (n : Nat) (v : IrqSource) : (s.setSource n v).pending = s.pending := rfl

@[simp] theorem State.timer_setTimer (s : State) (n m : Nat) (v : RtTimer) : (s.setTimer n v).timer m = if m = n then v else s.timer m :=
  Sparse.get_put _ _ _ _ _
@[simp] theorem State.modTimer_eq (s : State) (n : Nat) (f : RtTimer → RtTimer) : s.modTimer n f = s.setTimer n (f (s.timer n)) := rfl
@[simp] theorem State.setTimer_regs (s : State) (n : Nat) (v : RtTimer) : (s.setTimer n v).regs = s.regs := rfl
@[simp] theorem State.setTimer_latches (s : State) (n : Nat) (v : RtTimer) : (s.setTimer n v).latches = s.latches := rfl
@[simp] theorem State.setTimer_setNow (s : State) (n : Nat) (v : RtTimer) : (s.setTimer n v).setNow = s.setNow := rfl
@[simp] theorem State.setTimer_mem (s : State) (n : Nat) (v : RtTimer) : (s.setTimer n v).mem = s.mem := rfl
@[simp] theorem State.setTimer_readValue (s : State) (n : Nat) (v : RtTimer) : (s.setTimer n v).readValue = s.readValue := rfl
@[simp] theorem State.setTimer_wire (s : State) (n : Nat) (v : RtTimer) : (s.setTimer n v).wire = s.wire := rfl
@[simp] theorem State.setTimer_fresh (s : State) (n : Nat) (v : RtTimer) : (s.setTimer n v).fresh = s.fresh := rfl
@[simp] theorem State.setTimer_clock (s : State) (n : Nat) (v : RtTimer) : (s.setTimer n v).clock = s.clock := rfl
@[simp] theorem State.setTimer_servo (s : State) (n : Nat) (v : RtTimer) : (s.setTimer n v).servo = s.servo := rfl
@[simp] theorem State.setTimer_ptp (s : State) (n : Nat) (v : RtTimer) : (s.setTimer n v).ptp = s.ptp := rfl
@[simp] theorem State.setTimer_refIn (s : State) (n : Nat) (v : RtTimer) : (s.setTimer n v).refIn = s.refIn := rfl
@[simp] theorem State.setTimer_tio (s : State) (n : Nat) (v : RtTimer) : (s.setTimer n v).tio = s.tio := rfl
@[simp] theorem State.setTimer_im (s : State) (n : Nat) (v : RtTimer) : (s.setTimer n v).im = s.im := rfl
@[simp] theorem State.setTimer_commits (s : State) (n : Nat) (v : RtTimer) : (s.setTimer n v).commits = s.commits := rfl
@[simp] theorem State.setTimer_roll (s : State) (n : Nat) (v : RtTimer) : (s.setTimer n v).roll = s.roll := rfl
@[simp] theorem State.setTimer_tiles (s : State) (n : Nat) (v : RtTimer) : (s.setTimer n v).tiles = s.tiles := rfl
@[simp] theorem State.setTimer_config (s : State) (n : Nat) (v : RtTimer) : (s.setTimer n v).config = s.config := rfl
@[simp] theorem State.setTimer_lanes (s : State) (n : Nat) (v : RtTimer) : (s.setTimer n v).lanes = s.lanes := rfl
@[simp] theorem State.setTimer_ports (s : State) (n : Nat) (v : RtTimer) : (s.setTimer n v).ports = s.ports := rfl
@[simp] theorem State.setTimer_optics (s : State) (n : Nat) (v : RtTimer) : (s.setTimer n v).optics = s.optics := rfl
@[simp] theorem State.setTimer_ft (s : State) (n : Nat) (v : RtTimer) : (s.setTimer n v).ft = s.ft := rfl
@[simp] theorem State.setTimer_chanIn (s : State) (n : Nat) (v : RtTimer) : (s.setTimer n v).chanIn = s.chanIn := rfl
@[simp] theorem State.setTimer_surfaces (s : State) (n : Nat) (v : RtTimer) : (s.setTimer n v).surfaces = s.surfaces := rfl
@[simp] theorem State.setTimer_chans (s : State) (n : Nat) (v : RtTimer) : (s.setTimer n v).chans = s.chans := rfl
@[simp] theorem State.setTimer_coders (s : State) (n : Nat) (v : RtTimer) : (s.setTimer n v).coders = s.coders := rfl
@[simp] theorem State.setTimer_takeovers (s : State) (n : Nat) (v : RtTimer) : (s.setTimer n v).takeovers = s.takeovers := rfl
@[simp] theorem State.setTimer_rinds (s : State) (n : Nat) (v : RtTimer) : (s.setTimer n v).rinds = s.rinds := rfl
@[simp] theorem State.setTimer_queues (s : State) (n : Nat) (v : RtTimer) : (s.setTimer n v).queues = s.queues := rfl
@[simp] theorem State.setTimer_pair (s : State) (n : Nat) (v : RtTimer) : (s.setTimer n v).pair = s.pair := rfl
@[simp] theorem State.setTimer_heads (s : State) (n : Nat) (v : RtTimer) : (s.setTimer n v).heads = s.heads := rfl
@[simp] theorem State.setTimer_readers (s : State) (n : Nat) (v : RtTimer) : (s.setTimer n v).readers = s.readers := rfl
@[simp] theorem State.setTimer_scalers (s : State) (n : Nat) (v : RtTimer) : (s.setTimer n v).scalers = s.scalers := rfl
@[simp] theorem State.setTimer_audio (s : State) (n : Nat) (v : RtTimer) : (s.setTimer n v).audio = s.audio := rfl
@[simp] theorem State.setTimer_memory (s : State) (n : Nat) (v : RtTimer) : (s.setTimer n v).memory = s.memory := rfl
@[simp] theorem State.setTimer_recorder (s : State) (n : Nat) (v : RtTimer) : (s.setTimer n v).recorder = s.recorder := rfl
@[simp] theorem State.setTimer_mdp (s : State) (n : Nat) (v : RtTimer) : (s.setTimer n v).mdp = s.mdp := rfl
@[simp] theorem State.setTimer_hull (s : State) (n : Nat) (v : RtTimer) : (s.setTimer n v).hull = s.hull := rfl
@[simp] theorem State.setTimer_ledger (s : State) (n : Nat) (v : RtTimer) : (s.setTimer n v).ledger = s.ledger := rfl
@[simp] theorem State.setTimer_startup (s : State) (n : Nat) (v : RtTimer) : (s.setTimer n v).startup = s.startup := rfl
@[simp] theorem State.setTimer_pending (s : State) (n : Nat) (v : RtTimer) : (s.setTimer n v).pending = s.pending := rfl

@[simp] theorem State.check_setCheck (s : State) (n m : Nat) (v : CheckChannel) : (s.setCheck n v).check m = if m = n then v else s.check m :=
  Sparse.get_put _ _ _ _ _
@[simp] theorem State.modCheck_eq (s : State) (n : Nat) (f : CheckChannel → CheckChannel) : s.modCheck n f = s.setCheck n (f (s.check n)) := rfl
@[simp] theorem State.setCheck_regs (s : State) (n : Nat) (v : CheckChannel) : (s.setCheck n v).regs = s.regs := rfl
@[simp] theorem State.setCheck_latches (s : State) (n : Nat) (v : CheckChannel) : (s.setCheck n v).latches = s.latches := rfl
@[simp] theorem State.setCheck_setNow (s : State) (n : Nat) (v : CheckChannel) : (s.setCheck n v).setNow = s.setNow := rfl
@[simp] theorem State.setCheck_mem (s : State) (n : Nat) (v : CheckChannel) : (s.setCheck n v).mem = s.mem := rfl
@[simp] theorem State.setCheck_readValue (s : State) (n : Nat) (v : CheckChannel) : (s.setCheck n v).readValue = s.readValue := rfl
@[simp] theorem State.setCheck_wire (s : State) (n : Nat) (v : CheckChannel) : (s.setCheck n v).wire = s.wire := rfl
@[simp] theorem State.setCheck_fresh (s : State) (n : Nat) (v : CheckChannel) : (s.setCheck n v).fresh = s.fresh := rfl
@[simp] theorem State.setCheck_clock (s : State) (n : Nat) (v : CheckChannel) : (s.setCheck n v).clock = s.clock := rfl
@[simp] theorem State.setCheck_servo (s : State) (n : Nat) (v : CheckChannel) : (s.setCheck n v).servo = s.servo := rfl
@[simp] theorem State.setCheck_ptp (s : State) (n : Nat) (v : CheckChannel) : (s.setCheck n v).ptp = s.ptp := rfl
@[simp] theorem State.setCheck_refIn (s : State) (n : Nat) (v : CheckChannel) : (s.setCheck n v).refIn = s.refIn := rfl
@[simp] theorem State.setCheck_tio (s : State) (n : Nat) (v : CheckChannel) : (s.setCheck n v).tio = s.tio := rfl
@[simp] theorem State.setCheck_im (s : State) (n : Nat) (v : CheckChannel) : (s.setCheck n v).im = s.im := rfl
@[simp] theorem State.setCheck_commits (s : State) (n : Nat) (v : CheckChannel) : (s.setCheck n v).commits = s.commits := rfl
@[simp] theorem State.setCheck_roll (s : State) (n : Nat) (v : CheckChannel) : (s.setCheck n v).roll = s.roll := rfl
@[simp] theorem State.setCheck_tiles (s : State) (n : Nat) (v : CheckChannel) : (s.setCheck n v).tiles = s.tiles := rfl
@[simp] theorem State.setCheck_config (s : State) (n : Nat) (v : CheckChannel) : (s.setCheck n v).config = s.config := rfl
@[simp] theorem State.setCheck_lanes (s : State) (n : Nat) (v : CheckChannel) : (s.setCheck n v).lanes = s.lanes := rfl
@[simp] theorem State.setCheck_ports (s : State) (n : Nat) (v : CheckChannel) : (s.setCheck n v).ports = s.ports := rfl
@[simp] theorem State.setCheck_optics (s : State) (n : Nat) (v : CheckChannel) : (s.setCheck n v).optics = s.optics := rfl
@[simp] theorem State.setCheck_ft (s : State) (n : Nat) (v : CheckChannel) : (s.setCheck n v).ft = s.ft := rfl
@[simp] theorem State.setCheck_chanIn (s : State) (n : Nat) (v : CheckChannel) : (s.setCheck n v).chanIn = s.chanIn := rfl
@[simp] theorem State.setCheck_surfaces (s : State) (n : Nat) (v : CheckChannel) : (s.setCheck n v).surfaces = s.surfaces := rfl
@[simp] theorem State.setCheck_chans (s : State) (n : Nat) (v : CheckChannel) : (s.setCheck n v).chans = s.chans := rfl
@[simp] theorem State.setCheck_coders (s : State) (n : Nat) (v : CheckChannel) : (s.setCheck n v).coders = s.coders := rfl
@[simp] theorem State.setCheck_takeovers (s : State) (n : Nat) (v : CheckChannel) : (s.setCheck n v).takeovers = s.takeovers := rfl
@[simp] theorem State.setCheck_rinds (s : State) (n : Nat) (v : CheckChannel) : (s.setCheck n v).rinds = s.rinds := rfl
@[simp] theorem State.setCheck_queues (s : State) (n : Nat) (v : CheckChannel) : (s.setCheck n v).queues = s.queues := rfl
@[simp] theorem State.setCheck_pair (s : State) (n : Nat) (v : CheckChannel) : (s.setCheck n v).pair = s.pair := rfl
@[simp] theorem State.setCheck_heads (s : State) (n : Nat) (v : CheckChannel) : (s.setCheck n v).heads = s.heads := rfl
@[simp] theorem State.setCheck_readers (s : State) (n : Nat) (v : CheckChannel) : (s.setCheck n v).readers = s.readers := rfl
@[simp] theorem State.setCheck_scalers (s : State) (n : Nat) (v : CheckChannel) : (s.setCheck n v).scalers = s.scalers := rfl
@[simp] theorem State.setCheck_audio (s : State) (n : Nat) (v : CheckChannel) : (s.setCheck n v).audio = s.audio := rfl
@[simp] theorem State.setCheck_memory (s : State) (n : Nat) (v : CheckChannel) : (s.setCheck n v).memory = s.memory := rfl
@[simp] theorem State.setCheck_recorder (s : State) (n : Nat) (v : CheckChannel) : (s.setCheck n v).recorder = s.recorder := rfl
@[simp] theorem State.setCheck_mdp (s : State) (n : Nat) (v : CheckChannel) : (s.setCheck n v).mdp = s.mdp := rfl
@[simp] theorem State.setCheck_hull (s : State) (n : Nat) (v : CheckChannel) : (s.setCheck n v).hull = s.hull := rfl
@[simp] theorem State.setCheck_ledger (s : State) (n : Nat) (v : CheckChannel) : (s.setCheck n v).ledger = s.ledger := rfl
@[simp] theorem State.setCheck_startup (s : State) (n : Nat) (v : CheckChannel) : (s.setCheck n v).startup = s.startup := rfl
@[simp] theorem State.setCheck_pending (s : State) (n : Nat) (v : CheckChannel) : (s.setCheck n v).pending = s.pending := rfl

@[simp] theorem State.session_setSession (s : State) (n m : Nat) (v : Session) : (s.setSession n v).session m = if m = n then v else s.session m :=
  Sparse.get_put _ _ _ _ _
@[simp] theorem State.modSession_eq (s : State) (n : Nat) (f : Session → Session) : s.modSession n f = s.setSession n (f (s.session n)) := rfl
@[simp] theorem State.setSession_regs (s : State) (n : Nat) (v : Session) : (s.setSession n v).regs = s.regs := rfl
@[simp] theorem State.setSession_latches (s : State) (n : Nat) (v : Session) : (s.setSession n v).latches = s.latches := rfl
@[simp] theorem State.setSession_setNow (s : State) (n : Nat) (v : Session) : (s.setSession n v).setNow = s.setNow := rfl
@[simp] theorem State.setSession_mem (s : State) (n : Nat) (v : Session) : (s.setSession n v).mem = s.mem := rfl
@[simp] theorem State.setSession_readValue (s : State) (n : Nat) (v : Session) : (s.setSession n v).readValue = s.readValue := rfl
@[simp] theorem State.setSession_wire (s : State) (n : Nat) (v : Session) : (s.setSession n v).wire = s.wire := rfl
@[simp] theorem State.setSession_fresh (s : State) (n : Nat) (v : Session) : (s.setSession n v).fresh = s.fresh := rfl
@[simp] theorem State.setSession_clock (s : State) (n : Nat) (v : Session) : (s.setSession n v).clock = s.clock := rfl
@[simp] theorem State.setSession_servo (s : State) (n : Nat) (v : Session) : (s.setSession n v).servo = s.servo := rfl
@[simp] theorem State.setSession_ptp (s : State) (n : Nat) (v : Session) : (s.setSession n v).ptp = s.ptp := rfl
@[simp] theorem State.setSession_refIn (s : State) (n : Nat) (v : Session) : (s.setSession n v).refIn = s.refIn := rfl
@[simp] theorem State.setSession_tio (s : State) (n : Nat) (v : Session) : (s.setSession n v).tio = s.tio := rfl
@[simp] theorem State.setSession_im (s : State) (n : Nat) (v : Session) : (s.setSession n v).im = s.im := rfl
@[simp] theorem State.setSession_commits (s : State) (n : Nat) (v : Session) : (s.setSession n v).commits = s.commits := rfl
@[simp] theorem State.setSession_roll (s : State) (n : Nat) (v : Session) : (s.setSession n v).roll = s.roll := rfl
@[simp] theorem State.setSession_tiles (s : State) (n : Nat) (v : Session) : (s.setSession n v).tiles = s.tiles := rfl
@[simp] theorem State.setSession_config (s : State) (n : Nat) (v : Session) : (s.setSession n v).config = s.config := rfl
@[simp] theorem State.setSession_lanes (s : State) (n : Nat) (v : Session) : (s.setSession n v).lanes = s.lanes := rfl
@[simp] theorem State.setSession_ports (s : State) (n : Nat) (v : Session) : (s.setSession n v).ports = s.ports := rfl
@[simp] theorem State.setSession_optics (s : State) (n : Nat) (v : Session) : (s.setSession n v).optics = s.optics := rfl
@[simp] theorem State.setSession_ft (s : State) (n : Nat) (v : Session) : (s.setSession n v).ft = s.ft := rfl
@[simp] theorem State.setSession_chanIn (s : State) (n : Nat) (v : Session) : (s.setSession n v).chanIn = s.chanIn := rfl
@[simp] theorem State.setSession_surfaces (s : State) (n : Nat) (v : Session) : (s.setSession n v).surfaces = s.surfaces := rfl
@[simp] theorem State.setSession_chans (s : State) (n : Nat) (v : Session) : (s.setSession n v).chans = s.chans := rfl
@[simp] theorem State.setSession_coders (s : State) (n : Nat) (v : Session) : (s.setSession n v).coders = s.coders := rfl
@[simp] theorem State.setSession_takeovers (s : State) (n : Nat) (v : Session) : (s.setSession n v).takeovers = s.takeovers := rfl
@[simp] theorem State.setSession_rinds (s : State) (n : Nat) (v : Session) : (s.setSession n v).rinds = s.rinds := rfl
@[simp] theorem State.setSession_queues (s : State) (n : Nat) (v : Session) : (s.setSession n v).queues = s.queues := rfl
@[simp] theorem State.setSession_pair (s : State) (n : Nat) (v : Session) : (s.setSession n v).pair = s.pair := rfl
@[simp] theorem State.setSession_heads (s : State) (n : Nat) (v : Session) : (s.setSession n v).heads = s.heads := rfl
@[simp] theorem State.setSession_readers (s : State) (n : Nat) (v : Session) : (s.setSession n v).readers = s.readers := rfl
@[simp] theorem State.setSession_scalers (s : State) (n : Nat) (v : Session) : (s.setSession n v).scalers = s.scalers := rfl
@[simp] theorem State.setSession_audio (s : State) (n : Nat) (v : Session) : (s.setSession n v).audio = s.audio := rfl
@[simp] theorem State.setSession_memory (s : State) (n : Nat) (v : Session) : (s.setSession n v).memory = s.memory := rfl
@[simp] theorem State.setSession_recorder (s : State) (n : Nat) (v : Session) : (s.setSession n v).recorder = s.recorder := rfl
@[simp] theorem State.setSession_cores (s : State) (n : Nat) (v : Session) : (s.setSession n v).cores = s.cores := rfl
@[simp] theorem State.setSession_hull (s : State) (n : Nat) (v : Session) : (s.setSession n v).hull = s.hull := rfl
@[simp] theorem State.setSession_ledger (s : State) (n : Nat) (v : Session) : (s.setSession n v).ledger = s.ledger := rfl
@[simp] theorem State.setSession_startup (s : State) (n : Nat) (v : Session) : (s.setSession n v).startup = s.startup := rfl
@[simp] theorem State.setSession_pending (s : State) (n : Nat) (v : Session) : (s.setSession n v).pending = s.pending := rfl

@[simp] theorem State.slot_setSlot (s : State) (n m : Nat) (v : OwnerSlot) : (s.setSlot n v).slot m = if m = n then v else s.slot m :=
  Sparse.get_put _ _ _ _ _
@[simp] theorem State.modSlot_eq (s : State) (n : Nat) (f : OwnerSlot → OwnerSlot) : s.modSlot n f = s.setSlot n (f (s.slot n)) := rfl
@[simp] theorem State.setSlot_regs (s : State) (n : Nat) (v : OwnerSlot) : (s.setSlot n v).regs = s.regs := rfl
@[simp] theorem State.setSlot_latches (s : State) (n : Nat) (v : OwnerSlot) : (s.setSlot n v).latches = s.latches := rfl
@[simp] theorem State.setSlot_setNow (s : State) (n : Nat) (v : OwnerSlot) : (s.setSlot n v).setNow = s.setNow := rfl
@[simp] theorem State.setSlot_mem (s : State) (n : Nat) (v : OwnerSlot) : (s.setSlot n v).mem = s.mem := rfl
@[simp] theorem State.setSlot_readValue (s : State) (n : Nat) (v : OwnerSlot) : (s.setSlot n v).readValue = s.readValue := rfl
@[simp] theorem State.setSlot_wire (s : State) (n : Nat) (v : OwnerSlot) : (s.setSlot n v).wire = s.wire := rfl
@[simp] theorem State.setSlot_fresh (s : State) (n : Nat) (v : OwnerSlot) : (s.setSlot n v).fresh = s.fresh := rfl
@[simp] theorem State.setSlot_clock (s : State) (n : Nat) (v : OwnerSlot) : (s.setSlot n v).clock = s.clock := rfl
@[simp] theorem State.setSlot_servo (s : State) (n : Nat) (v : OwnerSlot) : (s.setSlot n v).servo = s.servo := rfl
@[simp] theorem State.setSlot_ptp (s : State) (n : Nat) (v : OwnerSlot) : (s.setSlot n v).ptp = s.ptp := rfl
@[simp] theorem State.setSlot_refIn (s : State) (n : Nat) (v : OwnerSlot) : (s.setSlot n v).refIn = s.refIn := rfl
@[simp] theorem State.setSlot_tio (s : State) (n : Nat) (v : OwnerSlot) : (s.setSlot n v).tio = s.tio := rfl
@[simp] theorem State.setSlot_im (s : State) (n : Nat) (v : OwnerSlot) : (s.setSlot n v).im = s.im := rfl
@[simp] theorem State.setSlot_commits (s : State) (n : Nat) (v : OwnerSlot) : (s.setSlot n v).commits = s.commits := rfl
@[simp] theorem State.setSlot_roll (s : State) (n : Nat) (v : OwnerSlot) : (s.setSlot n v).roll = s.roll := rfl
@[simp] theorem State.setSlot_tiles (s : State) (n : Nat) (v : OwnerSlot) : (s.setSlot n v).tiles = s.tiles := rfl
@[simp] theorem State.setSlot_config (s : State) (n : Nat) (v : OwnerSlot) : (s.setSlot n v).config = s.config := rfl
@[simp] theorem State.setSlot_lanes (s : State) (n : Nat) (v : OwnerSlot) : (s.setSlot n v).lanes = s.lanes := rfl
@[simp] theorem State.setSlot_ports (s : State) (n : Nat) (v : OwnerSlot) : (s.setSlot n v).ports = s.ports := rfl
@[simp] theorem State.setSlot_optics (s : State) (n : Nat) (v : OwnerSlot) : (s.setSlot n v).optics = s.optics := rfl
@[simp] theorem State.setSlot_ft (s : State) (n : Nat) (v : OwnerSlot) : (s.setSlot n v).ft = s.ft := rfl
@[simp] theorem State.setSlot_chanIn (s : State) (n : Nat) (v : OwnerSlot) : (s.setSlot n v).chanIn = s.chanIn := rfl
@[simp] theorem State.setSlot_surfaces (s : State) (n : Nat) (v : OwnerSlot) : (s.setSlot n v).surfaces = s.surfaces := rfl
@[simp] theorem State.setSlot_chans (s : State) (n : Nat) (v : OwnerSlot) : (s.setSlot n v).chans = s.chans := rfl
@[simp] theorem State.setSlot_coders (s : State) (n : Nat) (v : OwnerSlot) : (s.setSlot n v).coders = s.coders := rfl
@[simp] theorem State.setSlot_takeovers (s : State) (n : Nat) (v : OwnerSlot) : (s.setSlot n v).takeovers = s.takeovers := rfl
@[simp] theorem State.setSlot_rinds (s : State) (n : Nat) (v : OwnerSlot) : (s.setSlot n v).rinds = s.rinds := rfl
@[simp] theorem State.setSlot_queues (s : State) (n : Nat) (v : OwnerSlot) : (s.setSlot n v).queues = s.queues := rfl
@[simp] theorem State.setSlot_pair (s : State) (n : Nat) (v : OwnerSlot) : (s.setSlot n v).pair = s.pair := rfl
@[simp] theorem State.setSlot_heads (s : State) (n : Nat) (v : OwnerSlot) : (s.setSlot n v).heads = s.heads := rfl
@[simp] theorem State.setSlot_readers (s : State) (n : Nat) (v : OwnerSlot) : (s.setSlot n v).readers = s.readers := rfl
@[simp] theorem State.setSlot_scalers (s : State) (n : Nat) (v : OwnerSlot) : (s.setSlot n v).scalers = s.scalers := rfl
@[simp] theorem State.setSlot_audio (s : State) (n : Nat) (v : OwnerSlot) : (s.setSlot n v).audio = s.audio := rfl
@[simp] theorem State.setSlot_memory (s : State) (n : Nat) (v : OwnerSlot) : (s.setSlot n v).memory = s.memory := rfl
@[simp] theorem State.setSlot_recorder (s : State) (n : Nat) (v : OwnerSlot) : (s.setSlot n v).recorder = s.recorder := rfl
@[simp] theorem State.setSlot_cores (s : State) (n : Nat) (v : OwnerSlot) : (s.setSlot n v).cores = s.cores := rfl
@[simp] theorem State.setSlot_hull (s : State) (n : Nat) (v : OwnerSlot) : (s.setSlot n v).hull = s.hull := rfl
@[simp] theorem State.setSlot_ledger (s : State) (n : Nat) (v : OwnerSlot) : (s.setSlot n v).ledger = s.ledger := rfl
@[simp] theorem State.setSlot_startup (s : State) (n : Nat) (v : OwnerSlot) : (s.setSlot n v).startup = s.startup := rfl
@[simp] theorem State.setSlot_pending (s : State) (n : Nat) (v : OwnerSlot) : (s.setSlot n v).pending = s.pending := rfl

@[simp] theorem State.mchan_setMchan (s : State) (n m : Nat) (v : MemChan) : (s.setMchan n v).mchan m = if m = n then v else s.mchan m :=
  Sparse.get_put _ _ _ _ _
@[simp] theorem State.modMchan_eq (s : State) (n : Nat) (f : MemChan → MemChan) : s.modMchan n f = s.setMchan n (f (s.mchan n)) := rfl
@[simp] theorem State.setMchan_regs (s : State) (n : Nat) (v : MemChan) : (s.setMchan n v).regs = s.regs := rfl
@[simp] theorem State.setMchan_latches (s : State) (n : Nat) (v : MemChan) : (s.setMchan n v).latches = s.latches := rfl
@[simp] theorem State.setMchan_setNow (s : State) (n : Nat) (v : MemChan) : (s.setMchan n v).setNow = s.setNow := rfl
@[simp] theorem State.setMchan_mem (s : State) (n : Nat) (v : MemChan) : (s.setMchan n v).mem = s.mem := rfl
@[simp] theorem State.setMchan_readValue (s : State) (n : Nat) (v : MemChan) : (s.setMchan n v).readValue = s.readValue := rfl
@[simp] theorem State.setMchan_wire (s : State) (n : Nat) (v : MemChan) : (s.setMchan n v).wire = s.wire := rfl
@[simp] theorem State.setMchan_fresh (s : State) (n : Nat) (v : MemChan) : (s.setMchan n v).fresh = s.fresh := rfl
@[simp] theorem State.setMchan_clock (s : State) (n : Nat) (v : MemChan) : (s.setMchan n v).clock = s.clock := rfl
@[simp] theorem State.setMchan_servo (s : State) (n : Nat) (v : MemChan) : (s.setMchan n v).servo = s.servo := rfl
@[simp] theorem State.setMchan_ptp (s : State) (n : Nat) (v : MemChan) : (s.setMchan n v).ptp = s.ptp := rfl
@[simp] theorem State.setMchan_refIn (s : State) (n : Nat) (v : MemChan) : (s.setMchan n v).refIn = s.refIn := rfl
@[simp] theorem State.setMchan_tio (s : State) (n : Nat) (v : MemChan) : (s.setMchan n v).tio = s.tio := rfl
@[simp] theorem State.setMchan_im (s : State) (n : Nat) (v : MemChan) : (s.setMchan n v).im = s.im := rfl
@[simp] theorem State.setMchan_commits (s : State) (n : Nat) (v : MemChan) : (s.setMchan n v).commits = s.commits := rfl
@[simp] theorem State.setMchan_roll (s : State) (n : Nat) (v : MemChan) : (s.setMchan n v).roll = s.roll := rfl
@[simp] theorem State.setMchan_tiles (s : State) (n : Nat) (v : MemChan) : (s.setMchan n v).tiles = s.tiles := rfl
@[simp] theorem State.setMchan_config (s : State) (n : Nat) (v : MemChan) : (s.setMchan n v).config = s.config := rfl
@[simp] theorem State.setMchan_lanes (s : State) (n : Nat) (v : MemChan) : (s.setMchan n v).lanes = s.lanes := rfl
@[simp] theorem State.setMchan_ports (s : State) (n : Nat) (v : MemChan) : (s.setMchan n v).ports = s.ports := rfl
@[simp] theorem State.setMchan_optics (s : State) (n : Nat) (v : MemChan) : (s.setMchan n v).optics = s.optics := rfl
@[simp] theorem State.setMchan_ft (s : State) (n : Nat) (v : MemChan) : (s.setMchan n v).ft = s.ft := rfl
@[simp] theorem State.setMchan_chanIn (s : State) (n : Nat) (v : MemChan) : (s.setMchan n v).chanIn = s.chanIn := rfl
@[simp] theorem State.setMchan_surfaces (s : State) (n : Nat) (v : MemChan) : (s.setMchan n v).surfaces = s.surfaces := rfl
@[simp] theorem State.setMchan_chans (s : State) (n : Nat) (v : MemChan) : (s.setMchan n v).chans = s.chans := rfl
@[simp] theorem State.setMchan_coders (s : State) (n : Nat) (v : MemChan) : (s.setMchan n v).coders = s.coders := rfl
@[simp] theorem State.setMchan_takeovers (s : State) (n : Nat) (v : MemChan) : (s.setMchan n v).takeovers = s.takeovers := rfl
@[simp] theorem State.setMchan_rinds (s : State) (n : Nat) (v : MemChan) : (s.setMchan n v).rinds = s.rinds := rfl
@[simp] theorem State.setMchan_queues (s : State) (n : Nat) (v : MemChan) : (s.setMchan n v).queues = s.queues := rfl
@[simp] theorem State.setMchan_pair (s : State) (n : Nat) (v : MemChan) : (s.setMchan n v).pair = s.pair := rfl
@[simp] theorem State.setMchan_heads (s : State) (n : Nat) (v : MemChan) : (s.setMchan n v).heads = s.heads := rfl
@[simp] theorem State.setMchan_readers (s : State) (n : Nat) (v : MemChan) : (s.setMchan n v).readers = s.readers := rfl
@[simp] theorem State.setMchan_scalers (s : State) (n : Nat) (v : MemChan) : (s.setMchan n v).scalers = s.scalers := rfl
@[simp] theorem State.setMchan_audio (s : State) (n : Nat) (v : MemChan) : (s.setMchan n v).audio = s.audio := rfl
@[simp] theorem State.setMchan_recorder (s : State) (n : Nat) (v : MemChan) : (s.setMchan n v).recorder = s.recorder := rfl
@[simp] theorem State.setMchan_cores (s : State) (n : Nat) (v : MemChan) : (s.setMchan n v).cores = s.cores := rfl
@[simp] theorem State.setMchan_mdp (s : State) (n : Nat) (v : MemChan) : (s.setMchan n v).mdp = s.mdp := rfl
@[simp] theorem State.setMchan_hull (s : State) (n : Nat) (v : MemChan) : (s.setMchan n v).hull = s.hull := rfl
@[simp] theorem State.setMchan_ledger (s : State) (n : Nat) (v : MemChan) : (s.setMchan n v).ledger = s.ledger := rfl
@[simp] theorem State.setMchan_startup (s : State) (n : Nat) (v : MemChan) : (s.setMchan n v).startup = s.startup := rfl
@[simp] theorem State.setMchan_pending (s : State) (n : Nat) (v : MemChan) : (s.setMchan n v).pending = s.pending := rfl

@[simp] theorem State.mic_setMic (s : State) (n m : Nat) (v : Mic) : (s.setMic n v).mic m = if m = n then v else s.mic m :=
  Sparse.get_put _ _ _ _ _
@[simp] theorem State.modMic_eq (s : State) (n : Nat) (f : Mic → Mic) : s.modMic n f = s.setMic n (f (s.mic n)) := rfl
@[simp] theorem State.setMic_regs (s : State) (n : Nat) (v : Mic) : (s.setMic n v).regs = s.regs := rfl
@[simp] theorem State.setMic_latches (s : State) (n : Nat) (v : Mic) : (s.setMic n v).latches = s.latches := rfl
@[simp] theorem State.setMic_setNow (s : State) (n : Nat) (v : Mic) : (s.setMic n v).setNow = s.setNow := rfl
@[simp] theorem State.setMic_mem (s : State) (n : Nat) (v : Mic) : (s.setMic n v).mem = s.mem := rfl
@[simp] theorem State.setMic_readValue (s : State) (n : Nat) (v : Mic) : (s.setMic n v).readValue = s.readValue := rfl
@[simp] theorem State.setMic_wire (s : State) (n : Nat) (v : Mic) : (s.setMic n v).wire = s.wire := rfl
@[simp] theorem State.setMic_fresh (s : State) (n : Nat) (v : Mic) : (s.setMic n v).fresh = s.fresh := rfl
@[simp] theorem State.setMic_clock (s : State) (n : Nat) (v : Mic) : (s.setMic n v).clock = s.clock := rfl
@[simp] theorem State.setMic_servo (s : State) (n : Nat) (v : Mic) : (s.setMic n v).servo = s.servo := rfl
@[simp] theorem State.setMic_ptp (s : State) (n : Nat) (v : Mic) : (s.setMic n v).ptp = s.ptp := rfl
@[simp] theorem State.setMic_refIn (s : State) (n : Nat) (v : Mic) : (s.setMic n v).refIn = s.refIn := rfl
@[simp] theorem State.setMic_tio (s : State) (n : Nat) (v : Mic) : (s.setMic n v).tio = s.tio := rfl
@[simp] theorem State.setMic_im (s : State) (n : Nat) (v : Mic) : (s.setMic n v).im = s.im := rfl
@[simp] theorem State.setMic_commits (s : State) (n : Nat) (v : Mic) : (s.setMic n v).commits = s.commits := rfl
@[simp] theorem State.setMic_roll (s : State) (n : Nat) (v : Mic) : (s.setMic n v).roll = s.roll := rfl
@[simp] theorem State.setMic_tiles (s : State) (n : Nat) (v : Mic) : (s.setMic n v).tiles = s.tiles := rfl
@[simp] theorem State.setMic_config (s : State) (n : Nat) (v : Mic) : (s.setMic n v).config = s.config := rfl
@[simp] theorem State.setMic_lanes (s : State) (n : Nat) (v : Mic) : (s.setMic n v).lanes = s.lanes := rfl
@[simp] theorem State.setMic_ports (s : State) (n : Nat) (v : Mic) : (s.setMic n v).ports = s.ports := rfl
@[simp] theorem State.setMic_optics (s : State) (n : Nat) (v : Mic) : (s.setMic n v).optics = s.optics := rfl
@[simp] theorem State.setMic_ft (s : State) (n : Nat) (v : Mic) : (s.setMic n v).ft = s.ft := rfl
@[simp] theorem State.setMic_chanIn (s : State) (n : Nat) (v : Mic) : (s.setMic n v).chanIn = s.chanIn := rfl
@[simp] theorem State.setMic_surfaces (s : State) (n : Nat) (v : Mic) : (s.setMic n v).surfaces = s.surfaces := rfl
@[simp] theorem State.setMic_chans (s : State) (n : Nat) (v : Mic) : (s.setMic n v).chans = s.chans := rfl
@[simp] theorem State.setMic_coders (s : State) (n : Nat) (v : Mic) : (s.setMic n v).coders = s.coders := rfl
@[simp] theorem State.setMic_takeovers (s : State) (n : Nat) (v : Mic) : (s.setMic n v).takeovers = s.takeovers := rfl
@[simp] theorem State.setMic_rinds (s : State) (n : Nat) (v : Mic) : (s.setMic n v).rinds = s.rinds := rfl
@[simp] theorem State.setMic_queues (s : State) (n : Nat) (v : Mic) : (s.setMic n v).queues = s.queues := rfl
@[simp] theorem State.setMic_pair (s : State) (n : Nat) (v : Mic) : (s.setMic n v).pair = s.pair := rfl
@[simp] theorem State.setMic_heads (s : State) (n : Nat) (v : Mic) : (s.setMic n v).heads = s.heads := rfl
@[simp] theorem State.setMic_readers (s : State) (n : Nat) (v : Mic) : (s.setMic n v).readers = s.readers := rfl
@[simp] theorem State.setMic_scalers (s : State) (n : Nat) (v : Mic) : (s.setMic n v).scalers = s.scalers := rfl
@[simp] theorem State.setMic_memory (s : State) (n : Nat) (v : Mic) : (s.setMic n v).memory = s.memory := rfl
@[simp] theorem State.setMic_recorder (s : State) (n : Nat) (v : Mic) : (s.setMic n v).recorder = s.recorder := rfl
@[simp] theorem State.setMic_cores (s : State) (n : Nat) (v : Mic) : (s.setMic n v).cores = s.cores := rfl
@[simp] theorem State.setMic_mdp (s : State) (n : Nat) (v : Mic) : (s.setMic n v).mdp = s.mdp := rfl
@[simp] theorem State.setMic_hull (s : State) (n : Nat) (v : Mic) : (s.setMic n v).hull = s.hull := rfl
@[simp] theorem State.setMic_ledger (s : State) (n : Nat) (v : Mic) : (s.setMic n v).ledger = s.ledger := rfl
@[simp] theorem State.setMic_startup (s : State) (n : Nat) (v : Mic) : (s.setMic n v).startup = s.startup := rfl
@[simp] theorem State.setMic_pending (s : State) (n : Nat) (v : Mic) : (s.setMic n v).pending = s.pending := rfl

@[simp] theorem State.domTemp_setDomTemp (s : State) (n m : Nat) (v : DomainTemp) : (s.setDomTemp n v).domTemp m = if m = n then v else s.domTemp m :=
  Sparse.get_put _ _ _ _ _
@[simp] theorem State.modDomTemp_eq (s : State) (n : Nat) (f : DomainTemp → DomainTemp) : s.modDomTemp n f = s.setDomTemp n (f (s.domTemp n)) := rfl
@[simp] theorem State.setDomTemp_regs (s : State) (n : Nat) (v : DomainTemp) : (s.setDomTemp n v).regs = s.regs := rfl
@[simp] theorem State.setDomTemp_latches (s : State) (n : Nat) (v : DomainTemp) : (s.setDomTemp n v).latches = s.latches := rfl
@[simp] theorem State.setDomTemp_setNow (s : State) (n : Nat) (v : DomainTemp) : (s.setDomTemp n v).setNow = s.setNow := rfl
@[simp] theorem State.setDomTemp_mem (s : State) (n : Nat) (v : DomainTemp) : (s.setDomTemp n v).mem = s.mem := rfl
@[simp] theorem State.setDomTemp_readValue (s : State) (n : Nat) (v : DomainTemp) : (s.setDomTemp n v).readValue = s.readValue := rfl
@[simp] theorem State.setDomTemp_wire (s : State) (n : Nat) (v : DomainTemp) : (s.setDomTemp n v).wire = s.wire := rfl
@[simp] theorem State.setDomTemp_fresh (s : State) (n : Nat) (v : DomainTemp) : (s.setDomTemp n v).fresh = s.fresh := rfl
@[simp] theorem State.setDomTemp_clock (s : State) (n : Nat) (v : DomainTemp) : (s.setDomTemp n v).clock = s.clock := rfl
@[simp] theorem State.setDomTemp_servo (s : State) (n : Nat) (v : DomainTemp) : (s.setDomTemp n v).servo = s.servo := rfl
@[simp] theorem State.setDomTemp_ptp (s : State) (n : Nat) (v : DomainTemp) : (s.setDomTemp n v).ptp = s.ptp := rfl
@[simp] theorem State.setDomTemp_refIn (s : State) (n : Nat) (v : DomainTemp) : (s.setDomTemp n v).refIn = s.refIn := rfl
@[simp] theorem State.setDomTemp_tio (s : State) (n : Nat) (v : DomainTemp) : (s.setDomTemp n v).tio = s.tio := rfl
@[simp] theorem State.setDomTemp_im (s : State) (n : Nat) (v : DomainTemp) : (s.setDomTemp n v).im = s.im := rfl
@[simp] theorem State.setDomTemp_commits (s : State) (n : Nat) (v : DomainTemp) : (s.setDomTemp n v).commits = s.commits := rfl
@[simp] theorem State.setDomTemp_roll (s : State) (n : Nat) (v : DomainTemp) : (s.setDomTemp n v).roll = s.roll := rfl
@[simp] theorem State.setDomTemp_tiles (s : State) (n : Nat) (v : DomainTemp) : (s.setDomTemp n v).tiles = s.tiles := rfl
@[simp] theorem State.setDomTemp_config (s : State) (n : Nat) (v : DomainTemp) : (s.setDomTemp n v).config = s.config := rfl
@[simp] theorem State.setDomTemp_lanes (s : State) (n : Nat) (v : DomainTemp) : (s.setDomTemp n v).lanes = s.lanes := rfl
@[simp] theorem State.setDomTemp_ports (s : State) (n : Nat) (v : DomainTemp) : (s.setDomTemp n v).ports = s.ports := rfl
@[simp] theorem State.setDomTemp_optics (s : State) (n : Nat) (v : DomainTemp) : (s.setDomTemp n v).optics = s.optics := rfl
@[simp] theorem State.setDomTemp_ft (s : State) (n : Nat) (v : DomainTemp) : (s.setDomTemp n v).ft = s.ft := rfl
@[simp] theorem State.setDomTemp_chanIn (s : State) (n : Nat) (v : DomainTemp) : (s.setDomTemp n v).chanIn = s.chanIn := rfl
@[simp] theorem State.setDomTemp_surfaces (s : State) (n : Nat) (v : DomainTemp) : (s.setDomTemp n v).surfaces = s.surfaces := rfl
@[simp] theorem State.setDomTemp_chans (s : State) (n : Nat) (v : DomainTemp) : (s.setDomTemp n v).chans = s.chans := rfl
@[simp] theorem State.setDomTemp_coders (s : State) (n : Nat) (v : DomainTemp) : (s.setDomTemp n v).coders = s.coders := rfl
@[simp] theorem State.setDomTemp_takeovers (s : State) (n : Nat) (v : DomainTemp) : (s.setDomTemp n v).takeovers = s.takeovers := rfl
@[simp] theorem State.setDomTemp_rinds (s : State) (n : Nat) (v : DomainTemp) : (s.setDomTemp n v).rinds = s.rinds := rfl
@[simp] theorem State.setDomTemp_queues (s : State) (n : Nat) (v : DomainTemp) : (s.setDomTemp n v).queues = s.queues := rfl
@[simp] theorem State.setDomTemp_pair (s : State) (n : Nat) (v : DomainTemp) : (s.setDomTemp n v).pair = s.pair := rfl
@[simp] theorem State.setDomTemp_heads (s : State) (n : Nat) (v : DomainTemp) : (s.setDomTemp n v).heads = s.heads := rfl
@[simp] theorem State.setDomTemp_readers (s : State) (n : Nat) (v : DomainTemp) : (s.setDomTemp n v).readers = s.readers := rfl
@[simp] theorem State.setDomTemp_scalers (s : State) (n : Nat) (v : DomainTemp) : (s.setDomTemp n v).scalers = s.scalers := rfl
@[simp] theorem State.setDomTemp_audio (s : State) (n : Nat) (v : DomainTemp) : (s.setDomTemp n v).audio = s.audio := rfl
@[simp] theorem State.setDomTemp_memory (s : State) (n : Nat) (v : DomainTemp) : (s.setDomTemp n v).memory = s.memory := rfl
@[simp] theorem State.setDomTemp_recorder (s : State) (n : Nat) (v : DomainTemp) : (s.setDomTemp n v).recorder = s.recorder := rfl
@[simp] theorem State.setDomTemp_cores (s : State) (n : Nat) (v : DomainTemp) : (s.setDomTemp n v).cores = s.cores := rfl
@[simp] theorem State.setDomTemp_mdp (s : State) (n : Nat) (v : DomainTemp) : (s.setDomTemp n v).mdp = s.mdp := rfl
@[simp] theorem State.setDomTemp_ledger (s : State) (n : Nat) (v : DomainTemp) : (s.setDomTemp n v).ledger = s.ledger := rfl
@[simp] theorem State.setDomTemp_startup (s : State) (n : Nat) (v : DomainTemp) : (s.setDomTemp n v).startup = s.startup := rfl
@[simp] theorem State.setDomTemp_pending (s : State) (n : Nat) (v : DomainTemp) : (s.setDomTemp n v).pending = s.pending := rfl

@[simp] theorem State.tap_setTap (s : State) (n m : Nat) (v : Tap) : (s.setTap n v).tap m = if m = n then v else s.tap m :=
  Sparse.get_put _ _ _ _ _
@[simp] theorem State.modTap_eq (s : State) (n : Nat) (f : Tap → Tap) : s.modTap n f = s.setTap n (f (s.tap n)) := rfl
@[simp] theorem State.setTap_regs (s : State) (n : Nat) (v : Tap) : (s.setTap n v).regs = s.regs := rfl
@[simp] theorem State.setTap_latches (s : State) (n : Nat) (v : Tap) : (s.setTap n v).latches = s.latches := rfl
@[simp] theorem State.setTap_setNow (s : State) (n : Nat) (v : Tap) : (s.setTap n v).setNow = s.setNow := rfl
@[simp] theorem State.setTap_mem (s : State) (n : Nat) (v : Tap) : (s.setTap n v).mem = s.mem := rfl
@[simp] theorem State.setTap_readValue (s : State) (n : Nat) (v : Tap) : (s.setTap n v).readValue = s.readValue := rfl
@[simp] theorem State.setTap_wire (s : State) (n : Nat) (v : Tap) : (s.setTap n v).wire = s.wire := rfl
@[simp] theorem State.setTap_fresh (s : State) (n : Nat) (v : Tap) : (s.setTap n v).fresh = s.fresh := rfl
@[simp] theorem State.setTap_clock (s : State) (n : Nat) (v : Tap) : (s.setTap n v).clock = s.clock := rfl
@[simp] theorem State.setTap_servo (s : State) (n : Nat) (v : Tap) : (s.setTap n v).servo = s.servo := rfl
@[simp] theorem State.setTap_ptp (s : State) (n : Nat) (v : Tap) : (s.setTap n v).ptp = s.ptp := rfl
@[simp] theorem State.setTap_refIn (s : State) (n : Nat) (v : Tap) : (s.setTap n v).refIn = s.refIn := rfl
@[simp] theorem State.setTap_tio (s : State) (n : Nat) (v : Tap) : (s.setTap n v).tio = s.tio := rfl
@[simp] theorem State.setTap_im (s : State) (n : Nat) (v : Tap) : (s.setTap n v).im = s.im := rfl
@[simp] theorem State.setTap_commits (s : State) (n : Nat) (v : Tap) : (s.setTap n v).commits = s.commits := rfl
@[simp] theorem State.setTap_roll (s : State) (n : Nat) (v : Tap) : (s.setTap n v).roll = s.roll := rfl
@[simp] theorem State.setTap_tiles (s : State) (n : Nat) (v : Tap) : (s.setTap n v).tiles = s.tiles := rfl
@[simp] theorem State.setTap_config (s : State) (n : Nat) (v : Tap) : (s.setTap n v).config = s.config := rfl
@[simp] theorem State.setTap_lanes (s : State) (n : Nat) (v : Tap) : (s.setTap n v).lanes = s.lanes := rfl
@[simp] theorem State.setTap_ports (s : State) (n : Nat) (v : Tap) : (s.setTap n v).ports = s.ports := rfl
@[simp] theorem State.setTap_optics (s : State) (n : Nat) (v : Tap) : (s.setTap n v).optics = s.optics := rfl
@[simp] theorem State.setTap_ft (s : State) (n : Nat) (v : Tap) : (s.setTap n v).ft = s.ft := rfl
@[simp] theorem State.setTap_chanIn (s : State) (n : Nat) (v : Tap) : (s.setTap n v).chanIn = s.chanIn := rfl
@[simp] theorem State.setTap_surfaces (s : State) (n : Nat) (v : Tap) : (s.setTap n v).surfaces = s.surfaces := rfl
@[simp] theorem State.setTap_chans (s : State) (n : Nat) (v : Tap) : (s.setTap n v).chans = s.chans := rfl
@[simp] theorem State.setTap_coders (s : State) (n : Nat) (v : Tap) : (s.setTap n v).coders = s.coders := rfl
@[simp] theorem State.setTap_takeovers (s : State) (n : Nat) (v : Tap) : (s.setTap n v).takeovers = s.takeovers := rfl
@[simp] theorem State.setTap_rinds (s : State) (n : Nat) (v : Tap) : (s.setTap n v).rinds = s.rinds := rfl
@[simp] theorem State.setTap_queues (s : State) (n : Nat) (v : Tap) : (s.setTap n v).queues = s.queues := rfl
@[simp] theorem State.setTap_pair (s : State) (n : Nat) (v : Tap) : (s.setTap n v).pair = s.pair := rfl
@[simp] theorem State.setTap_heads (s : State) (n : Nat) (v : Tap) : (s.setTap n v).heads = s.heads := rfl
@[simp] theorem State.setTap_readers (s : State) (n : Nat) (v : Tap) : (s.setTap n v).readers = s.readers := rfl
@[simp] theorem State.setTap_scalers (s : State) (n : Nat) (v : Tap) : (s.setTap n v).scalers = s.scalers := rfl
@[simp] theorem State.setTap_audio (s : State) (n : Nat) (v : Tap) : (s.setTap n v).audio = s.audio := rfl
@[simp] theorem State.setTap_memory (s : State) (n : Nat) (v : Tap) : (s.setTap n v).memory = s.memory := rfl
@[simp] theorem State.setTap_cores (s : State) (n : Nat) (v : Tap) : (s.setTap n v).cores = s.cores := rfl
@[simp] theorem State.setTap_mdp (s : State) (n : Nat) (v : Tap) : (s.setTap n v).mdp = s.mdp := rfl
@[simp] theorem State.setTap_hull (s : State) (n : Nat) (v : Tap) : (s.setTap n v).hull = s.hull := rfl
@[simp] theorem State.setTap_ledger (s : State) (n : Nat) (v : Tap) : (s.setTap n v).ledger = s.ledger := rfl
@[simp] theorem State.setTap_startup (s : State) (n : Nat) (v : Tap) : (s.setTap n v).startup = s.startup := rfl
@[simp] theorem State.setTap_pending (s : State) (n : Nat) (v : Tap) : (s.setTap n v).pending = s.pending := rfl

/-! ## Single units -/

@[simp] theorem State.modClock_clock (s : State) (f : Clock → Clock) : (s.modClock f).clock = f s.clock := rfl
@[simp] theorem State.modClock_regs (s : State) (f : Clock → Clock) : (s.modClock f).regs = s.regs := rfl
@[simp] theorem State.modClock_latches (s : State) (f : Clock → Clock) : (s.modClock f).latches = s.latches := rfl
@[simp] theorem State.modClock_setNow (s : State) (f : Clock → Clock) : (s.modClock f).setNow = s.setNow := rfl
@[simp] theorem State.modClock_mem (s : State) (f : Clock → Clock) : (s.modClock f).mem = s.mem := rfl
@[simp] theorem State.modClock_readValue (s : State) (f : Clock → Clock) : (s.modClock f).readValue = s.readValue := rfl
@[simp] theorem State.modClock_wire (s : State) (f : Clock → Clock) : (s.modClock f).wire = s.wire := rfl
@[simp] theorem State.modClock_fresh (s : State) (f : Clock → Clock) : (s.modClock f).fresh = s.fresh := rfl
@[simp] theorem State.modClock_servo (s : State) (f : Clock → Clock) : (s.modClock f).servo = s.servo := rfl
@[simp] theorem State.modClock_ptp (s : State) (f : Clock → Clock) : (s.modClock f).ptp = s.ptp := rfl
@[simp] theorem State.modClock_refIn (s : State) (f : Clock → Clock) : (s.modClock f).refIn = s.refIn := rfl
@[simp] theorem State.modClock_tio (s : State) (f : Clock → Clock) : (s.modClock f).tio = s.tio := rfl
@[simp] theorem State.modClock_im (s : State) (f : Clock → Clock) : (s.modClock f).im = s.im := rfl
@[simp] theorem State.modClock_commits (s : State) (f : Clock → Clock) : (s.modClock f).commits = s.commits := rfl
@[simp] theorem State.modClock_roll (s : State) (f : Clock → Clock) : (s.modClock f).roll = s.roll := rfl
@[simp] theorem State.modClock_tiles (s : State) (f : Clock → Clock) : (s.modClock f).tiles = s.tiles := rfl
@[simp] theorem State.modClock_config (s : State) (f : Clock → Clock) : (s.modClock f).config = s.config := rfl
@[simp] theorem State.modClock_lanes (s : State) (f : Clock → Clock) : (s.modClock f).lanes = s.lanes := rfl
@[simp] theorem State.modClock_ports (s : State) (f : Clock → Clock) : (s.modClock f).ports = s.ports := rfl
@[simp] theorem State.modClock_optics (s : State) (f : Clock → Clock) : (s.modClock f).optics = s.optics := rfl
@[simp] theorem State.modClock_ft (s : State) (f : Clock → Clock) : (s.modClock f).ft = s.ft := rfl
@[simp] theorem State.modClock_chanIn (s : State) (f : Clock → Clock) : (s.modClock f).chanIn = s.chanIn := rfl
@[simp] theorem State.modClock_surfaces (s : State) (f : Clock → Clock) : (s.modClock f).surfaces = s.surfaces := rfl
@[simp] theorem State.modClock_chans (s : State) (f : Clock → Clock) : (s.modClock f).chans = s.chans := rfl
@[simp] theorem State.modClock_coders (s : State) (f : Clock → Clock) : (s.modClock f).coders = s.coders := rfl
@[simp] theorem State.modClock_takeovers (s : State) (f : Clock → Clock) : (s.modClock f).takeovers = s.takeovers := rfl
@[simp] theorem State.modClock_rinds (s : State) (f : Clock → Clock) : (s.modClock f).rinds = s.rinds := rfl
@[simp] theorem State.modClock_queues (s : State) (f : Clock → Clock) : (s.modClock f).queues = s.queues := rfl
@[simp] theorem State.modClock_pair (s : State) (f : Clock → Clock) : (s.modClock f).pair = s.pair := rfl
@[simp] theorem State.modClock_heads (s : State) (f : Clock → Clock) : (s.modClock f).heads = s.heads := rfl
@[simp] theorem State.modClock_readers (s : State) (f : Clock → Clock) : (s.modClock f).readers = s.readers := rfl
@[simp] theorem State.modClock_scalers (s : State) (f : Clock → Clock) : (s.modClock f).scalers = s.scalers := rfl
@[simp] theorem State.modClock_audio (s : State) (f : Clock → Clock) : (s.modClock f).audio = s.audio := rfl
@[simp] theorem State.modClock_memory (s : State) (f : Clock → Clock) : (s.modClock f).memory = s.memory := rfl
@[simp] theorem State.modClock_recorder (s : State) (f : Clock → Clock) : (s.modClock f).recorder = s.recorder := rfl
@[simp] theorem State.modClock_cores (s : State) (f : Clock → Clock) : (s.modClock f).cores = s.cores := rfl
@[simp] theorem State.modClock_mdp (s : State) (f : Clock → Clock) : (s.modClock f).mdp = s.mdp := rfl
@[simp] theorem State.modClock_hull (s : State) (f : Clock → Clock) : (s.modClock f).hull = s.hull := rfl
@[simp] theorem State.modClock_ledger (s : State) (f : Clock → Clock) : (s.modClock f).ledger = s.ledger := rfl
@[simp] theorem State.modClock_startup (s : State) (f : Clock → Clock) : (s.modClock f).startup = s.startup := rfl
@[simp] theorem State.modClock_pending (s : State) (f : Clock → Clock) : (s.modClock f).pending = s.pending := rfl

@[simp] theorem State.modServo_servo (s : State) (f : Servo → Servo) : (s.modServo f).servo = f s.servo := rfl
@[simp] theorem State.modServo_regs (s : State) (f : Servo → Servo) : (s.modServo f).regs = s.regs := rfl
@[simp] theorem State.modServo_latches (s : State) (f : Servo → Servo) : (s.modServo f).latches = s.latches := rfl
@[simp] theorem State.modServo_setNow (s : State) (f : Servo → Servo) : (s.modServo f).setNow = s.setNow := rfl
@[simp] theorem State.modServo_mem (s : State) (f : Servo → Servo) : (s.modServo f).mem = s.mem := rfl
@[simp] theorem State.modServo_readValue (s : State) (f : Servo → Servo) : (s.modServo f).readValue = s.readValue := rfl
@[simp] theorem State.modServo_wire (s : State) (f : Servo → Servo) : (s.modServo f).wire = s.wire := rfl
@[simp] theorem State.modServo_fresh (s : State) (f : Servo → Servo) : (s.modServo f).fresh = s.fresh := rfl
@[simp] theorem State.modServo_clock (s : State) (f : Servo → Servo) : (s.modServo f).clock = s.clock := rfl
@[simp] theorem State.modServo_ptp (s : State) (f : Servo → Servo) : (s.modServo f).ptp = s.ptp := rfl
@[simp] theorem State.modServo_refIn (s : State) (f : Servo → Servo) : (s.modServo f).refIn = s.refIn := rfl
@[simp] theorem State.modServo_tio (s : State) (f : Servo → Servo) : (s.modServo f).tio = s.tio := rfl
@[simp] theorem State.modServo_im (s : State) (f : Servo → Servo) : (s.modServo f).im = s.im := rfl
@[simp] theorem State.modServo_commits (s : State) (f : Servo → Servo) : (s.modServo f).commits = s.commits := rfl
@[simp] theorem State.modServo_roll (s : State) (f : Servo → Servo) : (s.modServo f).roll = s.roll := rfl
@[simp] theorem State.modServo_tiles (s : State) (f : Servo → Servo) : (s.modServo f).tiles = s.tiles := rfl
@[simp] theorem State.modServo_config (s : State) (f : Servo → Servo) : (s.modServo f).config = s.config := rfl
@[simp] theorem State.modServo_lanes (s : State) (f : Servo → Servo) : (s.modServo f).lanes = s.lanes := rfl
@[simp] theorem State.modServo_ports (s : State) (f : Servo → Servo) : (s.modServo f).ports = s.ports := rfl
@[simp] theorem State.modServo_optics (s : State) (f : Servo → Servo) : (s.modServo f).optics = s.optics := rfl
@[simp] theorem State.modServo_ft (s : State) (f : Servo → Servo) : (s.modServo f).ft = s.ft := rfl
@[simp] theorem State.modServo_chanIn (s : State) (f : Servo → Servo) : (s.modServo f).chanIn = s.chanIn := rfl
@[simp] theorem State.modServo_surfaces (s : State) (f : Servo → Servo) : (s.modServo f).surfaces = s.surfaces := rfl
@[simp] theorem State.modServo_chans (s : State) (f : Servo → Servo) : (s.modServo f).chans = s.chans := rfl
@[simp] theorem State.modServo_coders (s : State) (f : Servo → Servo) : (s.modServo f).coders = s.coders := rfl
@[simp] theorem State.modServo_takeovers (s : State) (f : Servo → Servo) : (s.modServo f).takeovers = s.takeovers := rfl
@[simp] theorem State.modServo_rinds (s : State) (f : Servo → Servo) : (s.modServo f).rinds = s.rinds := rfl
@[simp] theorem State.modServo_queues (s : State) (f : Servo → Servo) : (s.modServo f).queues = s.queues := rfl
@[simp] theorem State.modServo_pair (s : State) (f : Servo → Servo) : (s.modServo f).pair = s.pair := rfl
@[simp] theorem State.modServo_heads (s : State) (f : Servo → Servo) : (s.modServo f).heads = s.heads := rfl
@[simp] theorem State.modServo_readers (s : State) (f : Servo → Servo) : (s.modServo f).readers = s.readers := rfl
@[simp] theorem State.modServo_scalers (s : State) (f : Servo → Servo) : (s.modServo f).scalers = s.scalers := rfl
@[simp] theorem State.modServo_audio (s : State) (f : Servo → Servo) : (s.modServo f).audio = s.audio := rfl
@[simp] theorem State.modServo_memory (s : State) (f : Servo → Servo) : (s.modServo f).memory = s.memory := rfl
@[simp] theorem State.modServo_recorder (s : State) (f : Servo → Servo) : (s.modServo f).recorder = s.recorder := rfl
@[simp] theorem State.modServo_cores (s : State) (f : Servo → Servo) : (s.modServo f).cores = s.cores := rfl
@[simp] theorem State.modServo_mdp (s : State) (f : Servo → Servo) : (s.modServo f).mdp = s.mdp := rfl
@[simp] theorem State.modServo_hull (s : State) (f : Servo → Servo) : (s.modServo f).hull = s.hull := rfl
@[simp] theorem State.modServo_ledger (s : State) (f : Servo → Servo) : (s.modServo f).ledger = s.ledger := rfl
@[simp] theorem State.modServo_startup (s : State) (f : Servo → Servo) : (s.modServo f).startup = s.startup := rfl
@[simp] theorem State.modServo_pending (s : State) (f : Servo → Servo) : (s.modServo f).pending = s.pending := rfl

@[simp] theorem State.modIm_im (s : State) (f : ImageManager → ImageManager) : (s.modIm f).im = f s.im := rfl
@[simp] theorem State.modIm_regs (s : State) (f : ImageManager → ImageManager) : (s.modIm f).regs = s.regs := rfl
@[simp] theorem State.modIm_latches (s : State) (f : ImageManager → ImageManager) : (s.modIm f).latches = s.latches := rfl
@[simp] theorem State.modIm_setNow (s : State) (f : ImageManager → ImageManager) : (s.modIm f).setNow = s.setNow := rfl
@[simp] theorem State.modIm_mem (s : State) (f : ImageManager → ImageManager) : (s.modIm f).mem = s.mem := rfl
@[simp] theorem State.modIm_readValue (s : State) (f : ImageManager → ImageManager) : (s.modIm f).readValue = s.readValue := rfl
@[simp] theorem State.modIm_wire (s : State) (f : ImageManager → ImageManager) : (s.modIm f).wire = s.wire := rfl
@[simp] theorem State.modIm_fresh (s : State) (f : ImageManager → ImageManager) : (s.modIm f).fresh = s.fresh := rfl
@[simp] theorem State.modIm_clock (s : State) (f : ImageManager → ImageManager) : (s.modIm f).clock = s.clock := rfl
@[simp] theorem State.modIm_servo (s : State) (f : ImageManager → ImageManager) : (s.modIm f).servo = s.servo := rfl
@[simp] theorem State.modIm_ptp (s : State) (f : ImageManager → ImageManager) : (s.modIm f).ptp = s.ptp := rfl
@[simp] theorem State.modIm_refIn (s : State) (f : ImageManager → ImageManager) : (s.modIm f).refIn = s.refIn := rfl
@[simp] theorem State.modIm_tio (s : State) (f : ImageManager → ImageManager) : (s.modIm f).tio = s.tio := rfl
@[simp] theorem State.modIm_commits (s : State) (f : ImageManager → ImageManager) : (s.modIm f).commits = s.commits := rfl
@[simp] theorem State.modIm_roll (s : State) (f : ImageManager → ImageManager) : (s.modIm f).roll = s.roll := rfl
@[simp] theorem State.modIm_tiles (s : State) (f : ImageManager → ImageManager) : (s.modIm f).tiles = s.tiles := rfl
@[simp] theorem State.modIm_config (s : State) (f : ImageManager → ImageManager) : (s.modIm f).config = s.config := rfl
@[simp] theorem State.modIm_lanes (s : State) (f : ImageManager → ImageManager) : (s.modIm f).lanes = s.lanes := rfl
@[simp] theorem State.modIm_ports (s : State) (f : ImageManager → ImageManager) : (s.modIm f).ports = s.ports := rfl
@[simp] theorem State.modIm_optics (s : State) (f : ImageManager → ImageManager) : (s.modIm f).optics = s.optics := rfl
@[simp] theorem State.modIm_ft (s : State) (f : ImageManager → ImageManager) : (s.modIm f).ft = s.ft := rfl
@[simp] theorem State.modIm_chanIn (s : State) (f : ImageManager → ImageManager) : (s.modIm f).chanIn = s.chanIn := rfl
@[simp] theorem State.modIm_surfaces (s : State) (f : ImageManager → ImageManager) : (s.modIm f).surfaces = s.surfaces := rfl
@[simp] theorem State.modIm_chans (s : State) (f : ImageManager → ImageManager) : (s.modIm f).chans = s.chans := rfl
@[simp] theorem State.modIm_coders (s : State) (f : ImageManager → ImageManager) : (s.modIm f).coders = s.coders := rfl
@[simp] theorem State.modIm_takeovers (s : State) (f : ImageManager → ImageManager) : (s.modIm f).takeovers = s.takeovers := rfl
@[simp] theorem State.modIm_rinds (s : State) (f : ImageManager → ImageManager) : (s.modIm f).rinds = s.rinds := rfl
@[simp] theorem State.modIm_queues (s : State) (f : ImageManager → ImageManager) : (s.modIm f).queues = s.queues := rfl
@[simp] theorem State.modIm_pair (s : State) (f : ImageManager → ImageManager) : (s.modIm f).pair = s.pair := rfl
@[simp] theorem State.modIm_heads (s : State) (f : ImageManager → ImageManager) : (s.modIm f).heads = s.heads := rfl
@[simp] theorem State.modIm_readers (s : State) (f : ImageManager → ImageManager) : (s.modIm f).readers = s.readers := rfl
@[simp] theorem State.modIm_scalers (s : State) (f : ImageManager → ImageManager) : (s.modIm f).scalers = s.scalers := rfl
@[simp] theorem State.modIm_audio (s : State) (f : ImageManager → ImageManager) : (s.modIm f).audio = s.audio := rfl
@[simp] theorem State.modIm_memory (s : State) (f : ImageManager → ImageManager) : (s.modIm f).memory = s.memory := rfl
@[simp] theorem State.modIm_recorder (s : State) (f : ImageManager → ImageManager) : (s.modIm f).recorder = s.recorder := rfl
@[simp] theorem State.modIm_cores (s : State) (f : ImageManager → ImageManager) : (s.modIm f).cores = s.cores := rfl
@[simp] theorem State.modIm_mdp (s : State) (f : ImageManager → ImageManager) : (s.modIm f).mdp = s.mdp := rfl
@[simp] theorem State.modIm_hull (s : State) (f : ImageManager → ImageManager) : (s.modIm f).hull = s.hull := rfl
@[simp] theorem State.modIm_ledger (s : State) (f : ImageManager → ImageManager) : (s.modIm f).ledger = s.ledger := rfl
@[simp] theorem State.modIm_startup (s : State) (f : ImageManager → ImageManager) : (s.modIm f).startup = s.startup := rfl
@[simp] theorem State.modIm_pending (s : State) (f : ImageManager → ImageManager) : (s.modIm f).pending = s.pending := rfl

@[simp] theorem State.modCommits_commits (s : State) (f : Commits → Commits) : (s.modCommits f).commits = f s.commits := rfl
@[simp] theorem State.modCommits_regs (s : State) (f : Commits → Commits) : (s.modCommits f).regs = s.regs := rfl
@[simp] theorem State.modCommits_latches (s : State) (f : Commits → Commits) : (s.modCommits f).latches = s.latches := rfl
@[simp] theorem State.modCommits_setNow (s : State) (f : Commits → Commits) : (s.modCommits f).setNow = s.setNow := rfl
@[simp] theorem State.modCommits_mem (s : State) (f : Commits → Commits) : (s.modCommits f).mem = s.mem := rfl
@[simp] theorem State.modCommits_readValue (s : State) (f : Commits → Commits) : (s.modCommits f).readValue = s.readValue := rfl
@[simp] theorem State.modCommits_wire (s : State) (f : Commits → Commits) : (s.modCommits f).wire = s.wire := rfl
@[simp] theorem State.modCommits_fresh (s : State) (f : Commits → Commits) : (s.modCommits f).fresh = s.fresh := rfl
@[simp] theorem State.modCommits_clock (s : State) (f : Commits → Commits) : (s.modCommits f).clock = s.clock := rfl
@[simp] theorem State.modCommits_servo (s : State) (f : Commits → Commits) : (s.modCommits f).servo = s.servo := rfl
@[simp] theorem State.modCommits_ptp (s : State) (f : Commits → Commits) : (s.modCommits f).ptp = s.ptp := rfl
@[simp] theorem State.modCommits_refIn (s : State) (f : Commits → Commits) : (s.modCommits f).refIn = s.refIn := rfl
@[simp] theorem State.modCommits_tio (s : State) (f : Commits → Commits) : (s.modCommits f).tio = s.tio := rfl
@[simp] theorem State.modCommits_im (s : State) (f : Commits → Commits) : (s.modCommits f).im = s.im := rfl
@[simp] theorem State.modCommits_roll (s : State) (f : Commits → Commits) : (s.modCommits f).roll = s.roll := rfl
@[simp] theorem State.modCommits_tiles (s : State) (f : Commits → Commits) : (s.modCommits f).tiles = s.tiles := rfl
@[simp] theorem State.modCommits_config (s : State) (f : Commits → Commits) : (s.modCommits f).config = s.config := rfl
@[simp] theorem State.modCommits_lanes (s : State) (f : Commits → Commits) : (s.modCommits f).lanes = s.lanes := rfl
@[simp] theorem State.modCommits_ports (s : State) (f : Commits → Commits) : (s.modCommits f).ports = s.ports := rfl
@[simp] theorem State.modCommits_optics (s : State) (f : Commits → Commits) : (s.modCommits f).optics = s.optics := rfl
@[simp] theorem State.modCommits_ft (s : State) (f : Commits → Commits) : (s.modCommits f).ft = s.ft := rfl
@[simp] theorem State.modCommits_chanIn (s : State) (f : Commits → Commits) : (s.modCommits f).chanIn = s.chanIn := rfl
@[simp] theorem State.modCommits_surfaces (s : State) (f : Commits → Commits) : (s.modCommits f).surfaces = s.surfaces := rfl
@[simp] theorem State.modCommits_chans (s : State) (f : Commits → Commits) : (s.modCommits f).chans = s.chans := rfl
@[simp] theorem State.modCommits_coders (s : State) (f : Commits → Commits) : (s.modCommits f).coders = s.coders := rfl
@[simp] theorem State.modCommits_takeovers (s : State) (f : Commits → Commits) : (s.modCommits f).takeovers = s.takeovers := rfl
@[simp] theorem State.modCommits_rinds (s : State) (f : Commits → Commits) : (s.modCommits f).rinds = s.rinds := rfl
@[simp] theorem State.modCommits_queues (s : State) (f : Commits → Commits) : (s.modCommits f).queues = s.queues := rfl
@[simp] theorem State.modCommits_pair (s : State) (f : Commits → Commits) : (s.modCommits f).pair = s.pair := rfl
@[simp] theorem State.modCommits_heads (s : State) (f : Commits → Commits) : (s.modCommits f).heads = s.heads := rfl
@[simp] theorem State.modCommits_readers (s : State) (f : Commits → Commits) : (s.modCommits f).readers = s.readers := rfl
@[simp] theorem State.modCommits_scalers (s : State) (f : Commits → Commits) : (s.modCommits f).scalers = s.scalers := rfl
@[simp] theorem State.modCommits_audio (s : State) (f : Commits → Commits) : (s.modCommits f).audio = s.audio := rfl
@[simp] theorem State.modCommits_memory (s : State) (f : Commits → Commits) : (s.modCommits f).memory = s.memory := rfl
@[simp] theorem State.modCommits_recorder (s : State) (f : Commits → Commits) : (s.modCommits f).recorder = s.recorder := rfl
@[simp] theorem State.modCommits_cores (s : State) (f : Commits → Commits) : (s.modCommits f).cores = s.cores := rfl
@[simp] theorem State.modCommits_mdp (s : State) (f : Commits → Commits) : (s.modCommits f).mdp = s.mdp := rfl
@[simp] theorem State.modCommits_hull (s : State) (f : Commits → Commits) : (s.modCommits f).hull = s.hull := rfl
@[simp] theorem State.modCommits_ledger (s : State) (f : Commits → Commits) : (s.modCommits f).ledger = s.ledger := rfl
@[simp] theorem State.modCommits_startup (s : State) (f : Commits → Commits) : (s.modCommits f).startup = s.startup := rfl
@[simp] theorem State.modCommits_pending (s : State) (f : Commits → Commits) : (s.modCommits f).pending = s.pending := rfl

@[simp] theorem State.modRoll_roll (s : State) (f : Roll → Roll) : (s.modRoll f).roll = f s.roll := rfl
@[simp] theorem State.modRoll_regs (s : State) (f : Roll → Roll) : (s.modRoll f).regs = s.regs := rfl
@[simp] theorem State.modRoll_latches (s : State) (f : Roll → Roll) : (s.modRoll f).latches = s.latches := rfl
@[simp] theorem State.modRoll_setNow (s : State) (f : Roll → Roll) : (s.modRoll f).setNow = s.setNow := rfl
@[simp] theorem State.modRoll_mem (s : State) (f : Roll → Roll) : (s.modRoll f).mem = s.mem := rfl
@[simp] theorem State.modRoll_readValue (s : State) (f : Roll → Roll) : (s.modRoll f).readValue = s.readValue := rfl
@[simp] theorem State.modRoll_wire (s : State) (f : Roll → Roll) : (s.modRoll f).wire = s.wire := rfl
@[simp] theorem State.modRoll_fresh (s : State) (f : Roll → Roll) : (s.modRoll f).fresh = s.fresh := rfl
@[simp] theorem State.modRoll_clock (s : State) (f : Roll → Roll) : (s.modRoll f).clock = s.clock := rfl
@[simp] theorem State.modRoll_servo (s : State) (f : Roll → Roll) : (s.modRoll f).servo = s.servo := rfl
@[simp] theorem State.modRoll_ptp (s : State) (f : Roll → Roll) : (s.modRoll f).ptp = s.ptp := rfl
@[simp] theorem State.modRoll_refIn (s : State) (f : Roll → Roll) : (s.modRoll f).refIn = s.refIn := rfl
@[simp] theorem State.modRoll_tio (s : State) (f : Roll → Roll) : (s.modRoll f).tio = s.tio := rfl
@[simp] theorem State.modRoll_im (s : State) (f : Roll → Roll) : (s.modRoll f).im = s.im := rfl
@[simp] theorem State.modRoll_commits (s : State) (f : Roll → Roll) : (s.modRoll f).commits = s.commits := rfl
@[simp] theorem State.modRoll_tiles (s : State) (f : Roll → Roll) : (s.modRoll f).tiles = s.tiles := rfl
@[simp] theorem State.modRoll_config (s : State) (f : Roll → Roll) : (s.modRoll f).config = s.config := rfl
@[simp] theorem State.modRoll_lanes (s : State) (f : Roll → Roll) : (s.modRoll f).lanes = s.lanes := rfl
@[simp] theorem State.modRoll_ports (s : State) (f : Roll → Roll) : (s.modRoll f).ports = s.ports := rfl
@[simp] theorem State.modRoll_optics (s : State) (f : Roll → Roll) : (s.modRoll f).optics = s.optics := rfl
@[simp] theorem State.modRoll_ft (s : State) (f : Roll → Roll) : (s.modRoll f).ft = s.ft := rfl
@[simp] theorem State.modRoll_chanIn (s : State) (f : Roll → Roll) : (s.modRoll f).chanIn = s.chanIn := rfl
@[simp] theorem State.modRoll_surfaces (s : State) (f : Roll → Roll) : (s.modRoll f).surfaces = s.surfaces := rfl
@[simp] theorem State.modRoll_chans (s : State) (f : Roll → Roll) : (s.modRoll f).chans = s.chans := rfl
@[simp] theorem State.modRoll_coders (s : State) (f : Roll → Roll) : (s.modRoll f).coders = s.coders := rfl
@[simp] theorem State.modRoll_takeovers (s : State) (f : Roll → Roll) : (s.modRoll f).takeovers = s.takeovers := rfl
@[simp] theorem State.modRoll_rinds (s : State) (f : Roll → Roll) : (s.modRoll f).rinds = s.rinds := rfl
@[simp] theorem State.modRoll_queues (s : State) (f : Roll → Roll) : (s.modRoll f).queues = s.queues := rfl
@[simp] theorem State.modRoll_pair (s : State) (f : Roll → Roll) : (s.modRoll f).pair = s.pair := rfl
@[simp] theorem State.modRoll_heads (s : State) (f : Roll → Roll) : (s.modRoll f).heads = s.heads := rfl
@[simp] theorem State.modRoll_readers (s : State) (f : Roll → Roll) : (s.modRoll f).readers = s.readers := rfl
@[simp] theorem State.modRoll_scalers (s : State) (f : Roll → Roll) : (s.modRoll f).scalers = s.scalers := rfl
@[simp] theorem State.modRoll_audio (s : State) (f : Roll → Roll) : (s.modRoll f).audio = s.audio := rfl
@[simp] theorem State.modRoll_memory (s : State) (f : Roll → Roll) : (s.modRoll f).memory = s.memory := rfl
@[simp] theorem State.modRoll_recorder (s : State) (f : Roll → Roll) : (s.modRoll f).recorder = s.recorder := rfl
@[simp] theorem State.modRoll_cores (s : State) (f : Roll → Roll) : (s.modRoll f).cores = s.cores := rfl
@[simp] theorem State.modRoll_mdp (s : State) (f : Roll → Roll) : (s.modRoll f).mdp = s.mdp := rfl
@[simp] theorem State.modRoll_hull (s : State) (f : Roll → Roll) : (s.modRoll f).hull = s.hull := rfl
@[simp] theorem State.modRoll_ledger (s : State) (f : Roll → Roll) : (s.modRoll f).ledger = s.ledger := rfl
@[simp] theorem State.modRoll_startup (s : State) (f : Roll → Roll) : (s.modRoll f).startup = s.startup := rfl
@[simp] theorem State.modRoll_pending (s : State) (f : Roll → Roll) : (s.modRoll f).pending = s.pending := rfl

@[simp] theorem State.modFt_ft (s : State) (f : FlowTable → FlowTable) : (s.modFt f).ft = f s.ft := rfl
@[simp] theorem State.modFt_regs (s : State) (f : FlowTable → FlowTable) : (s.modFt f).regs = s.regs := rfl
@[simp] theorem State.modFt_latches (s : State) (f : FlowTable → FlowTable) : (s.modFt f).latches = s.latches := rfl
@[simp] theorem State.modFt_setNow (s : State) (f : FlowTable → FlowTable) : (s.modFt f).setNow = s.setNow := rfl
@[simp] theorem State.modFt_mem (s : State) (f : FlowTable → FlowTable) : (s.modFt f).mem = s.mem := rfl
@[simp] theorem State.modFt_readValue (s : State) (f : FlowTable → FlowTable) : (s.modFt f).readValue = s.readValue := rfl
@[simp] theorem State.modFt_wire (s : State) (f : FlowTable → FlowTable) : (s.modFt f).wire = s.wire := rfl
@[simp] theorem State.modFt_fresh (s : State) (f : FlowTable → FlowTable) : (s.modFt f).fresh = s.fresh := rfl
@[simp] theorem State.modFt_clock (s : State) (f : FlowTable → FlowTable) : (s.modFt f).clock = s.clock := rfl
@[simp] theorem State.modFt_servo (s : State) (f : FlowTable → FlowTable) : (s.modFt f).servo = s.servo := rfl
@[simp] theorem State.modFt_ptp (s : State) (f : FlowTable → FlowTable) : (s.modFt f).ptp = s.ptp := rfl
@[simp] theorem State.modFt_refIn (s : State) (f : FlowTable → FlowTable) : (s.modFt f).refIn = s.refIn := rfl
@[simp] theorem State.modFt_tio (s : State) (f : FlowTable → FlowTable) : (s.modFt f).tio = s.tio := rfl
@[simp] theorem State.modFt_im (s : State) (f : FlowTable → FlowTable) : (s.modFt f).im = s.im := rfl
@[simp] theorem State.modFt_commits (s : State) (f : FlowTable → FlowTable) : (s.modFt f).commits = s.commits := rfl
@[simp] theorem State.modFt_roll (s : State) (f : FlowTable → FlowTable) : (s.modFt f).roll = s.roll := rfl
@[simp] theorem State.modFt_tiles (s : State) (f : FlowTable → FlowTable) : (s.modFt f).tiles = s.tiles := rfl
@[simp] theorem State.modFt_config (s : State) (f : FlowTable → FlowTable) : (s.modFt f).config = s.config := rfl
@[simp] theorem State.modFt_lanes (s : State) (f : FlowTable → FlowTable) : (s.modFt f).lanes = s.lanes := rfl
@[simp] theorem State.modFt_ports (s : State) (f : FlowTable → FlowTable) : (s.modFt f).ports = s.ports := rfl
@[simp] theorem State.modFt_optics (s : State) (f : FlowTable → FlowTable) : (s.modFt f).optics = s.optics := rfl
@[simp] theorem State.modFt_chanIn (s : State) (f : FlowTable → FlowTable) : (s.modFt f).chanIn = s.chanIn := rfl
@[simp] theorem State.modFt_surfaces (s : State) (f : FlowTable → FlowTable) : (s.modFt f).surfaces = s.surfaces := rfl
@[simp] theorem State.modFt_chans (s : State) (f : FlowTable → FlowTable) : (s.modFt f).chans = s.chans := rfl
@[simp] theorem State.modFt_coders (s : State) (f : FlowTable → FlowTable) : (s.modFt f).coders = s.coders := rfl
@[simp] theorem State.modFt_takeovers (s : State) (f : FlowTable → FlowTable) : (s.modFt f).takeovers = s.takeovers := rfl
@[simp] theorem State.modFt_rinds (s : State) (f : FlowTable → FlowTable) : (s.modFt f).rinds = s.rinds := rfl
@[simp] theorem State.modFt_queues (s : State) (f : FlowTable → FlowTable) : (s.modFt f).queues = s.queues := rfl
@[simp] theorem State.modFt_pair (s : State) (f : FlowTable → FlowTable) : (s.modFt f).pair = s.pair := rfl
@[simp] theorem State.modFt_heads (s : State) (f : FlowTable → FlowTable) : (s.modFt f).heads = s.heads := rfl
@[simp] theorem State.modFt_readers (s : State) (f : FlowTable → FlowTable) : (s.modFt f).readers = s.readers := rfl
@[simp] theorem State.modFt_scalers (s : State) (f : FlowTable → FlowTable) : (s.modFt f).scalers = s.scalers := rfl
@[simp] theorem State.modFt_audio (s : State) (f : FlowTable → FlowTable) : (s.modFt f).audio = s.audio := rfl
@[simp] theorem State.modFt_memory (s : State) (f : FlowTable → FlowTable) : (s.modFt f).memory = s.memory := rfl
@[simp] theorem State.modFt_recorder (s : State) (f : FlowTable → FlowTable) : (s.modFt f).recorder = s.recorder := rfl
@[simp] theorem State.modFt_cores (s : State) (f : FlowTable → FlowTable) : (s.modFt f).cores = s.cores := rfl
@[simp] theorem State.modFt_mdp (s : State) (f : FlowTable → FlowTable) : (s.modFt f).mdp = s.mdp := rfl
@[simp] theorem State.modFt_hull (s : State) (f : FlowTable → FlowTable) : (s.modFt f).hull = s.hull := rfl
@[simp] theorem State.modFt_ledger (s : State) (f : FlowTable → FlowTable) : (s.modFt f).ledger = s.ledger := rfl
@[simp] theorem State.modFt_startup (s : State) (f : FlowTable → FlowTable) : (s.modFt f).startup = s.startup := rfl
@[simp] theorem State.modFt_pending (s : State) (f : FlowTable → FlowTable) : (s.modFt f).pending = s.pending := rfl

@[simp] theorem State.modPair_pair (s : State) (f : Pair → Pair) : (s.modPair f).pair = f s.pair := rfl
@[simp] theorem State.modPair_regs (s : State) (f : Pair → Pair) : (s.modPair f).regs = s.regs := rfl
@[simp] theorem State.modPair_latches (s : State) (f : Pair → Pair) : (s.modPair f).latches = s.latches := rfl
@[simp] theorem State.modPair_setNow (s : State) (f : Pair → Pair) : (s.modPair f).setNow = s.setNow := rfl
@[simp] theorem State.modPair_mem (s : State) (f : Pair → Pair) : (s.modPair f).mem = s.mem := rfl
@[simp] theorem State.modPair_readValue (s : State) (f : Pair → Pair) : (s.modPair f).readValue = s.readValue := rfl
@[simp] theorem State.modPair_wire (s : State) (f : Pair → Pair) : (s.modPair f).wire = s.wire := rfl
@[simp] theorem State.modPair_fresh (s : State) (f : Pair → Pair) : (s.modPair f).fresh = s.fresh := rfl
@[simp] theorem State.modPair_clock (s : State) (f : Pair → Pair) : (s.modPair f).clock = s.clock := rfl
@[simp] theorem State.modPair_servo (s : State) (f : Pair → Pair) : (s.modPair f).servo = s.servo := rfl
@[simp] theorem State.modPair_ptp (s : State) (f : Pair → Pair) : (s.modPair f).ptp = s.ptp := rfl
@[simp] theorem State.modPair_refIn (s : State) (f : Pair → Pair) : (s.modPair f).refIn = s.refIn := rfl
@[simp] theorem State.modPair_tio (s : State) (f : Pair → Pair) : (s.modPair f).tio = s.tio := rfl
@[simp] theorem State.modPair_im (s : State) (f : Pair → Pair) : (s.modPair f).im = s.im := rfl
@[simp] theorem State.modPair_commits (s : State) (f : Pair → Pair) : (s.modPair f).commits = s.commits := rfl
@[simp] theorem State.modPair_roll (s : State) (f : Pair → Pair) : (s.modPair f).roll = s.roll := rfl
@[simp] theorem State.modPair_tiles (s : State) (f : Pair → Pair) : (s.modPair f).tiles = s.tiles := rfl
@[simp] theorem State.modPair_config (s : State) (f : Pair → Pair) : (s.modPair f).config = s.config := rfl
@[simp] theorem State.modPair_lanes (s : State) (f : Pair → Pair) : (s.modPair f).lanes = s.lanes := rfl
@[simp] theorem State.modPair_ports (s : State) (f : Pair → Pair) : (s.modPair f).ports = s.ports := rfl
@[simp] theorem State.modPair_optics (s : State) (f : Pair → Pair) : (s.modPair f).optics = s.optics := rfl
@[simp] theorem State.modPair_ft (s : State) (f : Pair → Pair) : (s.modPair f).ft = s.ft := rfl
@[simp] theorem State.modPair_chanIn (s : State) (f : Pair → Pair) : (s.modPair f).chanIn = s.chanIn := rfl
@[simp] theorem State.modPair_surfaces (s : State) (f : Pair → Pair) : (s.modPair f).surfaces = s.surfaces := rfl
@[simp] theorem State.modPair_chans (s : State) (f : Pair → Pair) : (s.modPair f).chans = s.chans := rfl
@[simp] theorem State.modPair_coders (s : State) (f : Pair → Pair) : (s.modPair f).coders = s.coders := rfl
@[simp] theorem State.modPair_takeovers (s : State) (f : Pair → Pair) : (s.modPair f).takeovers = s.takeovers := rfl
@[simp] theorem State.modPair_rinds (s : State) (f : Pair → Pair) : (s.modPair f).rinds = s.rinds := rfl
@[simp] theorem State.modPair_queues (s : State) (f : Pair → Pair) : (s.modPair f).queues = s.queues := rfl
@[simp] theorem State.modPair_heads (s : State) (f : Pair → Pair) : (s.modPair f).heads = s.heads := rfl
@[simp] theorem State.modPair_readers (s : State) (f : Pair → Pair) : (s.modPair f).readers = s.readers := rfl
@[simp] theorem State.modPair_scalers (s : State) (f : Pair → Pair) : (s.modPair f).scalers = s.scalers := rfl
@[simp] theorem State.modPair_audio (s : State) (f : Pair → Pair) : (s.modPair f).audio = s.audio := rfl
@[simp] theorem State.modPair_memory (s : State) (f : Pair → Pair) : (s.modPair f).memory = s.memory := rfl
@[simp] theorem State.modPair_recorder (s : State) (f : Pair → Pair) : (s.modPair f).recorder = s.recorder := rfl
@[simp] theorem State.modPair_cores (s : State) (f : Pair → Pair) : (s.modPair f).cores = s.cores := rfl
@[simp] theorem State.modPair_mdp (s : State) (f : Pair → Pair) : (s.modPair f).mdp = s.mdp := rfl
@[simp] theorem State.modPair_hull (s : State) (f : Pair → Pair) : (s.modPair f).hull = s.hull := rfl
@[simp] theorem State.modPair_ledger (s : State) (f : Pair → Pair) : (s.modPair f).ledger = s.ledger := rfl
@[simp] theorem State.modPair_startup (s : State) (f : Pair → Pair) : (s.modPair f).startup = s.startup := rfl
@[simp] theorem State.modPair_pending (s : State) (f : Pair → Pair) : (s.modPair f).pending = s.pending := rfl

@[simp] theorem State.modAudio_audio (s : State) (f : Audio → Audio) : (s.modAudio f).audio = f s.audio := rfl
@[simp] theorem State.modAudio_regs (s : State) (f : Audio → Audio) : (s.modAudio f).regs = s.regs := rfl
@[simp] theorem State.modAudio_latches (s : State) (f : Audio → Audio) : (s.modAudio f).latches = s.latches := rfl
@[simp] theorem State.modAudio_setNow (s : State) (f : Audio → Audio) : (s.modAudio f).setNow = s.setNow := rfl
@[simp] theorem State.modAudio_mem (s : State) (f : Audio → Audio) : (s.modAudio f).mem = s.mem := rfl
@[simp] theorem State.modAudio_readValue (s : State) (f : Audio → Audio) : (s.modAudio f).readValue = s.readValue := rfl
@[simp] theorem State.modAudio_wire (s : State) (f : Audio → Audio) : (s.modAudio f).wire = s.wire := rfl
@[simp] theorem State.modAudio_fresh (s : State) (f : Audio → Audio) : (s.modAudio f).fresh = s.fresh := rfl
@[simp] theorem State.modAudio_clock (s : State) (f : Audio → Audio) : (s.modAudio f).clock = s.clock := rfl
@[simp] theorem State.modAudio_servo (s : State) (f : Audio → Audio) : (s.modAudio f).servo = s.servo := rfl
@[simp] theorem State.modAudio_ptp (s : State) (f : Audio → Audio) : (s.modAudio f).ptp = s.ptp := rfl
@[simp] theorem State.modAudio_refIn (s : State) (f : Audio → Audio) : (s.modAudio f).refIn = s.refIn := rfl
@[simp] theorem State.modAudio_tio (s : State) (f : Audio → Audio) : (s.modAudio f).tio = s.tio := rfl
@[simp] theorem State.modAudio_im (s : State) (f : Audio → Audio) : (s.modAudio f).im = s.im := rfl
@[simp] theorem State.modAudio_commits (s : State) (f : Audio → Audio) : (s.modAudio f).commits = s.commits := rfl
@[simp] theorem State.modAudio_roll (s : State) (f : Audio → Audio) : (s.modAudio f).roll = s.roll := rfl
@[simp] theorem State.modAudio_tiles (s : State) (f : Audio → Audio) : (s.modAudio f).tiles = s.tiles := rfl
@[simp] theorem State.modAudio_config (s : State) (f : Audio → Audio) : (s.modAudio f).config = s.config := rfl
@[simp] theorem State.modAudio_lanes (s : State) (f : Audio → Audio) : (s.modAudio f).lanes = s.lanes := rfl
@[simp] theorem State.modAudio_ports (s : State) (f : Audio → Audio) : (s.modAudio f).ports = s.ports := rfl
@[simp] theorem State.modAudio_optics (s : State) (f : Audio → Audio) : (s.modAudio f).optics = s.optics := rfl
@[simp] theorem State.modAudio_ft (s : State) (f : Audio → Audio) : (s.modAudio f).ft = s.ft := rfl
@[simp] theorem State.modAudio_chanIn (s : State) (f : Audio → Audio) : (s.modAudio f).chanIn = s.chanIn := rfl
@[simp] theorem State.modAudio_surfaces (s : State) (f : Audio → Audio) : (s.modAudio f).surfaces = s.surfaces := rfl
@[simp] theorem State.modAudio_chans (s : State) (f : Audio → Audio) : (s.modAudio f).chans = s.chans := rfl
@[simp] theorem State.modAudio_coders (s : State) (f : Audio → Audio) : (s.modAudio f).coders = s.coders := rfl
@[simp] theorem State.modAudio_takeovers (s : State) (f : Audio → Audio) : (s.modAudio f).takeovers = s.takeovers := rfl
@[simp] theorem State.modAudio_rinds (s : State) (f : Audio → Audio) : (s.modAudio f).rinds = s.rinds := rfl
@[simp] theorem State.modAudio_queues (s : State) (f : Audio → Audio) : (s.modAudio f).queues = s.queues := rfl
@[simp] theorem State.modAudio_pair (s : State) (f : Audio → Audio) : (s.modAudio f).pair = s.pair := rfl
@[simp] theorem State.modAudio_heads (s : State) (f : Audio → Audio) : (s.modAudio f).heads = s.heads := rfl
@[simp] theorem State.modAudio_readers (s : State) (f : Audio → Audio) : (s.modAudio f).readers = s.readers := rfl
@[simp] theorem State.modAudio_scalers (s : State) (f : Audio → Audio) : (s.modAudio f).scalers = s.scalers := rfl
@[simp] theorem State.modAudio_memory (s : State) (f : Audio → Audio) : (s.modAudio f).memory = s.memory := rfl
@[simp] theorem State.modAudio_recorder (s : State) (f : Audio → Audio) : (s.modAudio f).recorder = s.recorder := rfl
@[simp] theorem State.modAudio_cores (s : State) (f : Audio → Audio) : (s.modAudio f).cores = s.cores := rfl
@[simp] theorem State.modAudio_mdp (s : State) (f : Audio → Audio) : (s.modAudio f).mdp = s.mdp := rfl
@[simp] theorem State.modAudio_hull (s : State) (f : Audio → Audio) : (s.modAudio f).hull = s.hull := rfl
@[simp] theorem State.modAudio_ledger (s : State) (f : Audio → Audio) : (s.modAudio f).ledger = s.ledger := rfl
@[simp] theorem State.modAudio_startup (s : State) (f : Audio → Audio) : (s.modAudio f).startup = s.startup := rfl
@[simp] theorem State.modAudio_pending (s : State) (f : Audio → Audio) : (s.modAudio f).pending = s.pending := rfl

@[simp] theorem State.modMemory_memory (s : State) (f : Memory → Memory) : (s.modMemory f).memory = f s.memory := rfl
@[simp] theorem State.modMemory_regs (s : State) (f : Memory → Memory) : (s.modMemory f).regs = s.regs := rfl
@[simp] theorem State.modMemory_latches (s : State) (f : Memory → Memory) : (s.modMemory f).latches = s.latches := rfl
@[simp] theorem State.modMemory_setNow (s : State) (f : Memory → Memory) : (s.modMemory f).setNow = s.setNow := rfl
@[simp] theorem State.modMemory_mem (s : State) (f : Memory → Memory) : (s.modMemory f).mem = s.mem := rfl
@[simp] theorem State.modMemory_readValue (s : State) (f : Memory → Memory) : (s.modMemory f).readValue = s.readValue := rfl
@[simp] theorem State.modMemory_wire (s : State) (f : Memory → Memory) : (s.modMemory f).wire = s.wire := rfl
@[simp] theorem State.modMemory_fresh (s : State) (f : Memory → Memory) : (s.modMemory f).fresh = s.fresh := rfl
@[simp] theorem State.modMemory_clock (s : State) (f : Memory → Memory) : (s.modMemory f).clock = s.clock := rfl
@[simp] theorem State.modMemory_servo (s : State) (f : Memory → Memory) : (s.modMemory f).servo = s.servo := rfl
@[simp] theorem State.modMemory_ptp (s : State) (f : Memory → Memory) : (s.modMemory f).ptp = s.ptp := rfl
@[simp] theorem State.modMemory_refIn (s : State) (f : Memory → Memory) : (s.modMemory f).refIn = s.refIn := rfl
@[simp] theorem State.modMemory_tio (s : State) (f : Memory → Memory) : (s.modMemory f).tio = s.tio := rfl
@[simp] theorem State.modMemory_im (s : State) (f : Memory → Memory) : (s.modMemory f).im = s.im := rfl
@[simp] theorem State.modMemory_commits (s : State) (f : Memory → Memory) : (s.modMemory f).commits = s.commits := rfl
@[simp] theorem State.modMemory_roll (s : State) (f : Memory → Memory) : (s.modMemory f).roll = s.roll := rfl
@[simp] theorem State.modMemory_tiles (s : State) (f : Memory → Memory) : (s.modMemory f).tiles = s.tiles := rfl
@[simp] theorem State.modMemory_config (s : State) (f : Memory → Memory) : (s.modMemory f).config = s.config := rfl
@[simp] theorem State.modMemory_lanes (s : State) (f : Memory → Memory) : (s.modMemory f).lanes = s.lanes := rfl
@[simp] theorem State.modMemory_ports (s : State) (f : Memory → Memory) : (s.modMemory f).ports = s.ports := rfl
@[simp] theorem State.modMemory_optics (s : State) (f : Memory → Memory) : (s.modMemory f).optics = s.optics := rfl
@[simp] theorem State.modMemory_ft (s : State) (f : Memory → Memory) : (s.modMemory f).ft = s.ft := rfl
@[simp] theorem State.modMemory_chanIn (s : State) (f : Memory → Memory) : (s.modMemory f).chanIn = s.chanIn := rfl
@[simp] theorem State.modMemory_surfaces (s : State) (f : Memory → Memory) : (s.modMemory f).surfaces = s.surfaces := rfl
@[simp] theorem State.modMemory_chans (s : State) (f : Memory → Memory) : (s.modMemory f).chans = s.chans := rfl
@[simp] theorem State.modMemory_coders (s : State) (f : Memory → Memory) : (s.modMemory f).coders = s.coders := rfl
@[simp] theorem State.modMemory_takeovers (s : State) (f : Memory → Memory) : (s.modMemory f).takeovers = s.takeovers := rfl
@[simp] theorem State.modMemory_rinds (s : State) (f : Memory → Memory) : (s.modMemory f).rinds = s.rinds := rfl
@[simp] theorem State.modMemory_queues (s : State) (f : Memory → Memory) : (s.modMemory f).queues = s.queues := rfl
@[simp] theorem State.modMemory_pair (s : State) (f : Memory → Memory) : (s.modMemory f).pair = s.pair := rfl
@[simp] theorem State.modMemory_heads (s : State) (f : Memory → Memory) : (s.modMemory f).heads = s.heads := rfl
@[simp] theorem State.modMemory_readers (s : State) (f : Memory → Memory) : (s.modMemory f).readers = s.readers := rfl
@[simp] theorem State.modMemory_scalers (s : State) (f : Memory → Memory) : (s.modMemory f).scalers = s.scalers := rfl
@[simp] theorem State.modMemory_audio (s : State) (f : Memory → Memory) : (s.modMemory f).audio = s.audio := rfl
@[simp] theorem State.modMemory_recorder (s : State) (f : Memory → Memory) : (s.modMemory f).recorder = s.recorder := rfl
@[simp] theorem State.modMemory_cores (s : State) (f : Memory → Memory) : (s.modMemory f).cores = s.cores := rfl
@[simp] theorem State.modMemory_mdp (s : State) (f : Memory → Memory) : (s.modMemory f).mdp = s.mdp := rfl
@[simp] theorem State.modMemory_hull (s : State) (f : Memory → Memory) : (s.modMemory f).hull = s.hull := rfl
@[simp] theorem State.modMemory_ledger (s : State) (f : Memory → Memory) : (s.modMemory f).ledger = s.ledger := rfl
@[simp] theorem State.modMemory_startup (s : State) (f : Memory → Memory) : (s.modMemory f).startup = s.startup := rfl
@[simp] theorem State.modMemory_pending (s : State) (f : Memory → Memory) : (s.modMemory f).pending = s.pending := rfl

@[simp] theorem State.modRecorder_recorder (s : State) (f : Recorder → Recorder) : (s.modRecorder f).recorder = f s.recorder := rfl
@[simp] theorem State.modRecorder_regs (s : State) (f : Recorder → Recorder) : (s.modRecorder f).regs = s.regs := rfl
@[simp] theorem State.modRecorder_latches (s : State) (f : Recorder → Recorder) : (s.modRecorder f).latches = s.latches := rfl
@[simp] theorem State.modRecorder_setNow (s : State) (f : Recorder → Recorder) : (s.modRecorder f).setNow = s.setNow := rfl
@[simp] theorem State.modRecorder_mem (s : State) (f : Recorder → Recorder) : (s.modRecorder f).mem = s.mem := rfl
@[simp] theorem State.modRecorder_readValue (s : State) (f : Recorder → Recorder) : (s.modRecorder f).readValue = s.readValue := rfl
@[simp] theorem State.modRecorder_wire (s : State) (f : Recorder → Recorder) : (s.modRecorder f).wire = s.wire := rfl
@[simp] theorem State.modRecorder_fresh (s : State) (f : Recorder → Recorder) : (s.modRecorder f).fresh = s.fresh := rfl
@[simp] theorem State.modRecorder_clock (s : State) (f : Recorder → Recorder) : (s.modRecorder f).clock = s.clock := rfl
@[simp] theorem State.modRecorder_servo (s : State) (f : Recorder → Recorder) : (s.modRecorder f).servo = s.servo := rfl
@[simp] theorem State.modRecorder_ptp (s : State) (f : Recorder → Recorder) : (s.modRecorder f).ptp = s.ptp := rfl
@[simp] theorem State.modRecorder_refIn (s : State) (f : Recorder → Recorder) : (s.modRecorder f).refIn = s.refIn := rfl
@[simp] theorem State.modRecorder_tio (s : State) (f : Recorder → Recorder) : (s.modRecorder f).tio = s.tio := rfl
@[simp] theorem State.modRecorder_im (s : State) (f : Recorder → Recorder) : (s.modRecorder f).im = s.im := rfl
@[simp] theorem State.modRecorder_commits (s : State) (f : Recorder → Recorder) : (s.modRecorder f).commits = s.commits := rfl
@[simp] theorem State.modRecorder_roll (s : State) (f : Recorder → Recorder) : (s.modRecorder f).roll = s.roll := rfl
@[simp] theorem State.modRecorder_tiles (s : State) (f : Recorder → Recorder) : (s.modRecorder f).tiles = s.tiles := rfl
@[simp] theorem State.modRecorder_config (s : State) (f : Recorder → Recorder) : (s.modRecorder f).config = s.config := rfl
@[simp] theorem State.modRecorder_lanes (s : State) (f : Recorder → Recorder) : (s.modRecorder f).lanes = s.lanes := rfl
@[simp] theorem State.modRecorder_ports (s : State) (f : Recorder → Recorder) : (s.modRecorder f).ports = s.ports := rfl
@[simp] theorem State.modRecorder_optics (s : State) (f : Recorder → Recorder) : (s.modRecorder f).optics = s.optics := rfl
@[simp] theorem State.modRecorder_ft (s : State) (f : Recorder → Recorder) : (s.modRecorder f).ft = s.ft := rfl
@[simp] theorem State.modRecorder_chanIn (s : State) (f : Recorder → Recorder) : (s.modRecorder f).chanIn = s.chanIn := rfl
@[simp] theorem State.modRecorder_surfaces (s : State) (f : Recorder → Recorder) : (s.modRecorder f).surfaces = s.surfaces := rfl
@[simp] theorem State.modRecorder_chans (s : State) (f : Recorder → Recorder) : (s.modRecorder f).chans = s.chans := rfl
@[simp] theorem State.modRecorder_coders (s : State) (f : Recorder → Recorder) : (s.modRecorder f).coders = s.coders := rfl
@[simp] theorem State.modRecorder_takeovers (s : State) (f : Recorder → Recorder) : (s.modRecorder f).takeovers = s.takeovers := rfl
@[simp] theorem State.modRecorder_rinds (s : State) (f : Recorder → Recorder) : (s.modRecorder f).rinds = s.rinds := rfl
@[simp] theorem State.modRecorder_queues (s : State) (f : Recorder → Recorder) : (s.modRecorder f).queues = s.queues := rfl
@[simp] theorem State.modRecorder_pair (s : State) (f : Recorder → Recorder) : (s.modRecorder f).pair = s.pair := rfl
@[simp] theorem State.modRecorder_heads (s : State) (f : Recorder → Recorder) : (s.modRecorder f).heads = s.heads := rfl
@[simp] theorem State.modRecorder_readers (s : State) (f : Recorder → Recorder) : (s.modRecorder f).readers = s.readers := rfl
@[simp] theorem State.modRecorder_scalers (s : State) (f : Recorder → Recorder) : (s.modRecorder f).scalers = s.scalers := rfl
@[simp] theorem State.modRecorder_audio (s : State) (f : Recorder → Recorder) : (s.modRecorder f).audio = s.audio := rfl
@[simp] theorem State.modRecorder_memory (s : State) (f : Recorder → Recorder) : (s.modRecorder f).memory = s.memory := rfl
@[simp] theorem State.modRecorder_cores (s : State) (f : Recorder → Recorder) : (s.modRecorder f).cores = s.cores := rfl
@[simp] theorem State.modRecorder_mdp (s : State) (f : Recorder → Recorder) : (s.modRecorder f).mdp = s.mdp := rfl
@[simp] theorem State.modRecorder_hull (s : State) (f : Recorder → Recorder) : (s.modRecorder f).hull = s.hull := rfl
@[simp] theorem State.modRecorder_ledger (s : State) (f : Recorder → Recorder) : (s.modRecorder f).ledger = s.ledger := rfl
@[simp] theorem State.modRecorder_startup (s : State) (f : Recorder → Recorder) : (s.modRecorder f).startup = s.startup := rfl
@[simp] theorem State.modRecorder_pending (s : State) (f : Recorder → Recorder) : (s.modRecorder f).pending = s.pending := rfl

@[simp] theorem State.modCores_cores (s : State) (f : Cores → Cores) : (s.modCores f).cores = f s.cores := rfl
@[simp] theorem State.modCores_regs (s : State) (f : Cores → Cores) : (s.modCores f).regs = s.regs := rfl
@[simp] theorem State.modCores_latches (s : State) (f : Cores → Cores) : (s.modCores f).latches = s.latches := rfl
@[simp] theorem State.modCores_setNow (s : State) (f : Cores → Cores) : (s.modCores f).setNow = s.setNow := rfl
@[simp] theorem State.modCores_mem (s : State) (f : Cores → Cores) : (s.modCores f).mem = s.mem := rfl
@[simp] theorem State.modCores_readValue (s : State) (f : Cores → Cores) : (s.modCores f).readValue = s.readValue := rfl
@[simp] theorem State.modCores_wire (s : State) (f : Cores → Cores) : (s.modCores f).wire = s.wire := rfl
@[simp] theorem State.modCores_fresh (s : State) (f : Cores → Cores) : (s.modCores f).fresh = s.fresh := rfl
@[simp] theorem State.modCores_clock (s : State) (f : Cores → Cores) : (s.modCores f).clock = s.clock := rfl
@[simp] theorem State.modCores_servo (s : State) (f : Cores → Cores) : (s.modCores f).servo = s.servo := rfl
@[simp] theorem State.modCores_ptp (s : State) (f : Cores → Cores) : (s.modCores f).ptp = s.ptp := rfl
@[simp] theorem State.modCores_refIn (s : State) (f : Cores → Cores) : (s.modCores f).refIn = s.refIn := rfl
@[simp] theorem State.modCores_tio (s : State) (f : Cores → Cores) : (s.modCores f).tio = s.tio := rfl
@[simp] theorem State.modCores_im (s : State) (f : Cores → Cores) : (s.modCores f).im = s.im := rfl
@[simp] theorem State.modCores_commits (s : State) (f : Cores → Cores) : (s.modCores f).commits = s.commits := rfl
@[simp] theorem State.modCores_roll (s : State) (f : Cores → Cores) : (s.modCores f).roll = s.roll := rfl
@[simp] theorem State.modCores_tiles (s : State) (f : Cores → Cores) : (s.modCores f).tiles = s.tiles := rfl
@[simp] theorem State.modCores_config (s : State) (f : Cores → Cores) : (s.modCores f).config = s.config := rfl
@[simp] theorem State.modCores_lanes (s : State) (f : Cores → Cores) : (s.modCores f).lanes = s.lanes := rfl
@[simp] theorem State.modCores_ports (s : State) (f : Cores → Cores) : (s.modCores f).ports = s.ports := rfl
@[simp] theorem State.modCores_optics (s : State) (f : Cores → Cores) : (s.modCores f).optics = s.optics := rfl
@[simp] theorem State.modCores_ft (s : State) (f : Cores → Cores) : (s.modCores f).ft = s.ft := rfl
@[simp] theorem State.modCores_chanIn (s : State) (f : Cores → Cores) : (s.modCores f).chanIn = s.chanIn := rfl
@[simp] theorem State.modCores_surfaces (s : State) (f : Cores → Cores) : (s.modCores f).surfaces = s.surfaces := rfl
@[simp] theorem State.modCores_chans (s : State) (f : Cores → Cores) : (s.modCores f).chans = s.chans := rfl
@[simp] theorem State.modCores_coders (s : State) (f : Cores → Cores) : (s.modCores f).coders = s.coders := rfl
@[simp] theorem State.modCores_takeovers (s : State) (f : Cores → Cores) : (s.modCores f).takeovers = s.takeovers := rfl
@[simp] theorem State.modCores_rinds (s : State) (f : Cores → Cores) : (s.modCores f).rinds = s.rinds := rfl
@[simp] theorem State.modCores_queues (s : State) (f : Cores → Cores) : (s.modCores f).queues = s.queues := rfl
@[simp] theorem State.modCores_pair (s : State) (f : Cores → Cores) : (s.modCores f).pair = s.pair := rfl
@[simp] theorem State.modCores_heads (s : State) (f : Cores → Cores) : (s.modCores f).heads = s.heads := rfl
@[simp] theorem State.modCores_readers (s : State) (f : Cores → Cores) : (s.modCores f).readers = s.readers := rfl
@[simp] theorem State.modCores_scalers (s : State) (f : Cores → Cores) : (s.modCores f).scalers = s.scalers := rfl
@[simp] theorem State.modCores_audio (s : State) (f : Cores → Cores) : (s.modCores f).audio = s.audio := rfl
@[simp] theorem State.modCores_memory (s : State) (f : Cores → Cores) : (s.modCores f).memory = s.memory := rfl
@[simp] theorem State.modCores_recorder (s : State) (f : Cores → Cores) : (s.modCores f).recorder = s.recorder := rfl
@[simp] theorem State.modCores_mdp (s : State) (f : Cores → Cores) : (s.modCores f).mdp = s.mdp := rfl
@[simp] theorem State.modCores_hull (s : State) (f : Cores → Cores) : (s.modCores f).hull = s.hull := rfl
@[simp] theorem State.modCores_ledger (s : State) (f : Cores → Cores) : (s.modCores f).ledger = s.ledger := rfl
@[simp] theorem State.modCores_startup (s : State) (f : Cores → Cores) : (s.modCores f).startup = s.startup := rfl
@[simp] theorem State.modCores_pending (s : State) (f : Cores → Cores) : (s.modCores f).pending = s.pending := rfl

@[simp] theorem State.modMdp_mdp (s : State) (f : Mdp → Mdp) : (s.modMdp f).mdp = f s.mdp := rfl
@[simp] theorem State.modMdp_regs (s : State) (f : Mdp → Mdp) : (s.modMdp f).regs = s.regs := rfl
@[simp] theorem State.modMdp_latches (s : State) (f : Mdp → Mdp) : (s.modMdp f).latches = s.latches := rfl
@[simp] theorem State.modMdp_setNow (s : State) (f : Mdp → Mdp) : (s.modMdp f).setNow = s.setNow := rfl
@[simp] theorem State.modMdp_mem (s : State) (f : Mdp → Mdp) : (s.modMdp f).mem = s.mem := rfl
@[simp] theorem State.modMdp_readValue (s : State) (f : Mdp → Mdp) : (s.modMdp f).readValue = s.readValue := rfl
@[simp] theorem State.modMdp_wire (s : State) (f : Mdp → Mdp) : (s.modMdp f).wire = s.wire := rfl
@[simp] theorem State.modMdp_fresh (s : State) (f : Mdp → Mdp) : (s.modMdp f).fresh = s.fresh := rfl
@[simp] theorem State.modMdp_clock (s : State) (f : Mdp → Mdp) : (s.modMdp f).clock = s.clock := rfl
@[simp] theorem State.modMdp_servo (s : State) (f : Mdp → Mdp) : (s.modMdp f).servo = s.servo := rfl
@[simp] theorem State.modMdp_ptp (s : State) (f : Mdp → Mdp) : (s.modMdp f).ptp = s.ptp := rfl
@[simp] theorem State.modMdp_refIn (s : State) (f : Mdp → Mdp) : (s.modMdp f).refIn = s.refIn := rfl
@[simp] theorem State.modMdp_tio (s : State) (f : Mdp → Mdp) : (s.modMdp f).tio = s.tio := rfl
@[simp] theorem State.modMdp_im (s : State) (f : Mdp → Mdp) : (s.modMdp f).im = s.im := rfl
@[simp] theorem State.modMdp_commits (s : State) (f : Mdp → Mdp) : (s.modMdp f).commits = s.commits := rfl
@[simp] theorem State.modMdp_roll (s : State) (f : Mdp → Mdp) : (s.modMdp f).roll = s.roll := rfl
@[simp] theorem State.modMdp_tiles (s : State) (f : Mdp → Mdp) : (s.modMdp f).tiles = s.tiles := rfl
@[simp] theorem State.modMdp_config (s : State) (f : Mdp → Mdp) : (s.modMdp f).config = s.config := rfl
@[simp] theorem State.modMdp_lanes (s : State) (f : Mdp → Mdp) : (s.modMdp f).lanes = s.lanes := rfl
@[simp] theorem State.modMdp_ports (s : State) (f : Mdp → Mdp) : (s.modMdp f).ports = s.ports := rfl
@[simp] theorem State.modMdp_optics (s : State) (f : Mdp → Mdp) : (s.modMdp f).optics = s.optics := rfl
@[simp] theorem State.modMdp_ft (s : State) (f : Mdp → Mdp) : (s.modMdp f).ft = s.ft := rfl
@[simp] theorem State.modMdp_chanIn (s : State) (f : Mdp → Mdp) : (s.modMdp f).chanIn = s.chanIn := rfl
@[simp] theorem State.modMdp_surfaces (s : State) (f : Mdp → Mdp) : (s.modMdp f).surfaces = s.surfaces := rfl
@[simp] theorem State.modMdp_chans (s : State) (f : Mdp → Mdp) : (s.modMdp f).chans = s.chans := rfl
@[simp] theorem State.modMdp_coders (s : State) (f : Mdp → Mdp) : (s.modMdp f).coders = s.coders := rfl
@[simp] theorem State.modMdp_takeovers (s : State) (f : Mdp → Mdp) : (s.modMdp f).takeovers = s.takeovers := rfl
@[simp] theorem State.modMdp_rinds (s : State) (f : Mdp → Mdp) : (s.modMdp f).rinds = s.rinds := rfl
@[simp] theorem State.modMdp_queues (s : State) (f : Mdp → Mdp) : (s.modMdp f).queues = s.queues := rfl
@[simp] theorem State.modMdp_pair (s : State) (f : Mdp → Mdp) : (s.modMdp f).pair = s.pair := rfl
@[simp] theorem State.modMdp_heads (s : State) (f : Mdp → Mdp) : (s.modMdp f).heads = s.heads := rfl
@[simp] theorem State.modMdp_readers (s : State) (f : Mdp → Mdp) : (s.modMdp f).readers = s.readers := rfl
@[simp] theorem State.modMdp_scalers (s : State) (f : Mdp → Mdp) : (s.modMdp f).scalers = s.scalers := rfl
@[simp] theorem State.modMdp_audio (s : State) (f : Mdp → Mdp) : (s.modMdp f).audio = s.audio := rfl
@[simp] theorem State.modMdp_memory (s : State) (f : Mdp → Mdp) : (s.modMdp f).memory = s.memory := rfl
@[simp] theorem State.modMdp_recorder (s : State) (f : Mdp → Mdp) : (s.modMdp f).recorder = s.recorder := rfl
@[simp] theorem State.modMdp_cores (s : State) (f : Mdp → Mdp) : (s.modMdp f).cores = s.cores := rfl
@[simp] theorem State.modMdp_hull (s : State) (f : Mdp → Mdp) : (s.modMdp f).hull = s.hull := rfl
@[simp] theorem State.modMdp_ledger (s : State) (f : Mdp → Mdp) : (s.modMdp f).ledger = s.ledger := rfl
@[simp] theorem State.modMdp_startup (s : State) (f : Mdp → Mdp) : (s.modMdp f).startup = s.startup := rfl
@[simp] theorem State.modMdp_pending (s : State) (f : Mdp → Mdp) : (s.modMdp f).pending = s.pending := rfl

@[simp] theorem State.modHull_hull (s : State) (f : Hull → Hull) : (s.modHull f).hull = f s.hull := rfl
@[simp] theorem State.modHull_regs (s : State) (f : Hull → Hull) : (s.modHull f).regs = s.regs := rfl
@[simp] theorem State.modHull_latches (s : State) (f : Hull → Hull) : (s.modHull f).latches = s.latches := rfl
@[simp] theorem State.modHull_setNow (s : State) (f : Hull → Hull) : (s.modHull f).setNow = s.setNow := rfl
@[simp] theorem State.modHull_mem (s : State) (f : Hull → Hull) : (s.modHull f).mem = s.mem := rfl
@[simp] theorem State.modHull_readValue (s : State) (f : Hull → Hull) : (s.modHull f).readValue = s.readValue := rfl
@[simp] theorem State.modHull_wire (s : State) (f : Hull → Hull) : (s.modHull f).wire = s.wire := rfl
@[simp] theorem State.modHull_fresh (s : State) (f : Hull → Hull) : (s.modHull f).fresh = s.fresh := rfl
@[simp] theorem State.modHull_clock (s : State) (f : Hull → Hull) : (s.modHull f).clock = s.clock := rfl
@[simp] theorem State.modHull_servo (s : State) (f : Hull → Hull) : (s.modHull f).servo = s.servo := rfl
@[simp] theorem State.modHull_ptp (s : State) (f : Hull → Hull) : (s.modHull f).ptp = s.ptp := rfl
@[simp] theorem State.modHull_refIn (s : State) (f : Hull → Hull) : (s.modHull f).refIn = s.refIn := rfl
@[simp] theorem State.modHull_tio (s : State) (f : Hull → Hull) : (s.modHull f).tio = s.tio := rfl
@[simp] theorem State.modHull_im (s : State) (f : Hull → Hull) : (s.modHull f).im = s.im := rfl
@[simp] theorem State.modHull_commits (s : State) (f : Hull → Hull) : (s.modHull f).commits = s.commits := rfl
@[simp] theorem State.modHull_roll (s : State) (f : Hull → Hull) : (s.modHull f).roll = s.roll := rfl
@[simp] theorem State.modHull_tiles (s : State) (f : Hull → Hull) : (s.modHull f).tiles = s.tiles := rfl
@[simp] theorem State.modHull_config (s : State) (f : Hull → Hull) : (s.modHull f).config = s.config := rfl
@[simp] theorem State.modHull_lanes (s : State) (f : Hull → Hull) : (s.modHull f).lanes = s.lanes := rfl
@[simp] theorem State.modHull_ports (s : State) (f : Hull → Hull) : (s.modHull f).ports = s.ports := rfl
@[simp] theorem State.modHull_optics (s : State) (f : Hull → Hull) : (s.modHull f).optics = s.optics := rfl
@[simp] theorem State.modHull_ft (s : State) (f : Hull → Hull) : (s.modHull f).ft = s.ft := rfl
@[simp] theorem State.modHull_chanIn (s : State) (f : Hull → Hull) : (s.modHull f).chanIn = s.chanIn := rfl
@[simp] theorem State.modHull_surfaces (s : State) (f : Hull → Hull) : (s.modHull f).surfaces = s.surfaces := rfl
@[simp] theorem State.modHull_chans (s : State) (f : Hull → Hull) : (s.modHull f).chans = s.chans := rfl
@[simp] theorem State.modHull_coders (s : State) (f : Hull → Hull) : (s.modHull f).coders = s.coders := rfl
@[simp] theorem State.modHull_takeovers (s : State) (f : Hull → Hull) : (s.modHull f).takeovers = s.takeovers := rfl
@[simp] theorem State.modHull_rinds (s : State) (f : Hull → Hull) : (s.modHull f).rinds = s.rinds := rfl
@[simp] theorem State.modHull_queues (s : State) (f : Hull → Hull) : (s.modHull f).queues = s.queues := rfl
@[simp] theorem State.modHull_pair (s : State) (f : Hull → Hull) : (s.modHull f).pair = s.pair := rfl
@[simp] theorem State.modHull_heads (s : State) (f : Hull → Hull) : (s.modHull f).heads = s.heads := rfl
@[simp] theorem State.modHull_readers (s : State) (f : Hull → Hull) : (s.modHull f).readers = s.readers := rfl
@[simp] theorem State.modHull_scalers (s : State) (f : Hull → Hull) : (s.modHull f).scalers = s.scalers := rfl
@[simp] theorem State.modHull_audio (s : State) (f : Hull → Hull) : (s.modHull f).audio = s.audio := rfl
@[simp] theorem State.modHull_memory (s : State) (f : Hull → Hull) : (s.modHull f).memory = s.memory := rfl
@[simp] theorem State.modHull_recorder (s : State) (f : Hull → Hull) : (s.modHull f).recorder = s.recorder := rfl
@[simp] theorem State.modHull_cores (s : State) (f : Hull → Hull) : (s.modHull f).cores = s.cores := rfl
@[simp] theorem State.modHull_mdp (s : State) (f : Hull → Hull) : (s.modHull f).mdp = s.mdp := rfl
@[simp] theorem State.modHull_ledger (s : State) (f : Hull → Hull) : (s.modHull f).ledger = s.ledger := rfl
@[simp] theorem State.modHull_startup (s : State) (f : Hull → Hull) : (s.modHull f).startup = s.startup := rfl
@[simp] theorem State.modHull_pending (s : State) (f : Hull → Hull) : (s.modHull f).pending = s.pending := rfl

@[simp] theorem State.modLedger_ledger (s : State) (f : Ledger → Ledger) : (s.modLedger f).ledger = f s.ledger := rfl
@[simp] theorem State.modLedger_regs (s : State) (f : Ledger → Ledger) : (s.modLedger f).regs = s.regs := rfl
@[simp] theorem State.modLedger_latches (s : State) (f : Ledger → Ledger) : (s.modLedger f).latches = s.latches := rfl
@[simp] theorem State.modLedger_setNow (s : State) (f : Ledger → Ledger) : (s.modLedger f).setNow = s.setNow := rfl
@[simp] theorem State.modLedger_mem (s : State) (f : Ledger → Ledger) : (s.modLedger f).mem = s.mem := rfl
@[simp] theorem State.modLedger_readValue (s : State) (f : Ledger → Ledger) : (s.modLedger f).readValue = s.readValue := rfl
@[simp] theorem State.modLedger_wire (s : State) (f : Ledger → Ledger) : (s.modLedger f).wire = s.wire := rfl
@[simp] theorem State.modLedger_fresh (s : State) (f : Ledger → Ledger) : (s.modLedger f).fresh = s.fresh := rfl
@[simp] theorem State.modLedger_clock (s : State) (f : Ledger → Ledger) : (s.modLedger f).clock = s.clock := rfl
@[simp] theorem State.modLedger_servo (s : State) (f : Ledger → Ledger) : (s.modLedger f).servo = s.servo := rfl
@[simp] theorem State.modLedger_ptp (s : State) (f : Ledger → Ledger) : (s.modLedger f).ptp = s.ptp := rfl
@[simp] theorem State.modLedger_refIn (s : State) (f : Ledger → Ledger) : (s.modLedger f).refIn = s.refIn := rfl
@[simp] theorem State.modLedger_tio (s : State) (f : Ledger → Ledger) : (s.modLedger f).tio = s.tio := rfl
@[simp] theorem State.modLedger_im (s : State) (f : Ledger → Ledger) : (s.modLedger f).im = s.im := rfl
@[simp] theorem State.modLedger_commits (s : State) (f : Ledger → Ledger) : (s.modLedger f).commits = s.commits := rfl
@[simp] theorem State.modLedger_roll (s : State) (f : Ledger → Ledger) : (s.modLedger f).roll = s.roll := rfl
@[simp] theorem State.modLedger_tiles (s : State) (f : Ledger → Ledger) : (s.modLedger f).tiles = s.tiles := rfl
@[simp] theorem State.modLedger_config (s : State) (f : Ledger → Ledger) : (s.modLedger f).config = s.config := rfl
@[simp] theorem State.modLedger_lanes (s : State) (f : Ledger → Ledger) : (s.modLedger f).lanes = s.lanes := rfl
@[simp] theorem State.modLedger_ports (s : State) (f : Ledger → Ledger) : (s.modLedger f).ports = s.ports := rfl
@[simp] theorem State.modLedger_optics (s : State) (f : Ledger → Ledger) : (s.modLedger f).optics = s.optics := rfl
@[simp] theorem State.modLedger_ft (s : State) (f : Ledger → Ledger) : (s.modLedger f).ft = s.ft := rfl
@[simp] theorem State.modLedger_chanIn (s : State) (f : Ledger → Ledger) : (s.modLedger f).chanIn = s.chanIn := rfl
@[simp] theorem State.modLedger_surfaces (s : State) (f : Ledger → Ledger) : (s.modLedger f).surfaces = s.surfaces := rfl
@[simp] theorem State.modLedger_chans (s : State) (f : Ledger → Ledger) : (s.modLedger f).chans = s.chans := rfl
@[simp] theorem State.modLedger_coders (s : State) (f : Ledger → Ledger) : (s.modLedger f).coders = s.coders := rfl
@[simp] theorem State.modLedger_takeovers (s : State) (f : Ledger → Ledger) : (s.modLedger f).takeovers = s.takeovers := rfl
@[simp] theorem State.modLedger_rinds (s : State) (f : Ledger → Ledger) : (s.modLedger f).rinds = s.rinds := rfl
@[simp] theorem State.modLedger_queues (s : State) (f : Ledger → Ledger) : (s.modLedger f).queues = s.queues := rfl
@[simp] theorem State.modLedger_pair (s : State) (f : Ledger → Ledger) : (s.modLedger f).pair = s.pair := rfl
@[simp] theorem State.modLedger_heads (s : State) (f : Ledger → Ledger) : (s.modLedger f).heads = s.heads := rfl
@[simp] theorem State.modLedger_readers (s : State) (f : Ledger → Ledger) : (s.modLedger f).readers = s.readers := rfl
@[simp] theorem State.modLedger_scalers (s : State) (f : Ledger → Ledger) : (s.modLedger f).scalers = s.scalers := rfl
@[simp] theorem State.modLedger_audio (s : State) (f : Ledger → Ledger) : (s.modLedger f).audio = s.audio := rfl
@[simp] theorem State.modLedger_memory (s : State) (f : Ledger → Ledger) : (s.modLedger f).memory = s.memory := rfl
@[simp] theorem State.modLedger_recorder (s : State) (f : Ledger → Ledger) : (s.modLedger f).recorder = s.recorder := rfl
@[simp] theorem State.modLedger_cores (s : State) (f : Ledger → Ledger) : (s.modLedger f).cores = s.cores := rfl
@[simp] theorem State.modLedger_mdp (s : State) (f : Ledger → Ledger) : (s.modLedger f).mdp = s.mdp := rfl
@[simp] theorem State.modLedger_hull (s : State) (f : Ledger → Ledger) : (s.modLedger f).hull = s.hull := rfl
@[simp] theorem State.modLedger_startup (s : State) (f : Ledger → Ledger) : (s.modLedger f).startup = s.startup := rfl
@[simp] theorem State.modLedger_pending (s : State) (f : Ledger → Ledger) : (s.modLedger f).pending = s.pending := rfl

@[simp] theorem State.modStartup_startup (s : State) (f : Startup → Startup) : (s.modStartup f).startup = f s.startup := rfl
@[simp] theorem State.modStartup_regs (s : State) (f : Startup → Startup) : (s.modStartup f).regs = s.regs := rfl
@[simp] theorem State.modStartup_latches (s : State) (f : Startup → Startup) : (s.modStartup f).latches = s.latches := rfl
@[simp] theorem State.modStartup_setNow (s : State) (f : Startup → Startup) : (s.modStartup f).setNow = s.setNow := rfl
@[simp] theorem State.modStartup_mem (s : State) (f : Startup → Startup) : (s.modStartup f).mem = s.mem := rfl
@[simp] theorem State.modStartup_readValue (s : State) (f : Startup → Startup) : (s.modStartup f).readValue = s.readValue := rfl
@[simp] theorem State.modStartup_wire (s : State) (f : Startup → Startup) : (s.modStartup f).wire = s.wire := rfl
@[simp] theorem State.modStartup_fresh (s : State) (f : Startup → Startup) : (s.modStartup f).fresh = s.fresh := rfl
@[simp] theorem State.modStartup_clock (s : State) (f : Startup → Startup) : (s.modStartup f).clock = s.clock := rfl
@[simp] theorem State.modStartup_servo (s : State) (f : Startup → Startup) : (s.modStartup f).servo = s.servo := rfl
@[simp] theorem State.modStartup_ptp (s : State) (f : Startup → Startup) : (s.modStartup f).ptp = s.ptp := rfl
@[simp] theorem State.modStartup_refIn (s : State) (f : Startup → Startup) : (s.modStartup f).refIn = s.refIn := rfl
@[simp] theorem State.modStartup_tio (s : State) (f : Startup → Startup) : (s.modStartup f).tio = s.tio := rfl
@[simp] theorem State.modStartup_im (s : State) (f : Startup → Startup) : (s.modStartup f).im = s.im := rfl
@[simp] theorem State.modStartup_commits (s : State) (f : Startup → Startup) : (s.modStartup f).commits = s.commits := rfl
@[simp] theorem State.modStartup_roll (s : State) (f : Startup → Startup) : (s.modStartup f).roll = s.roll := rfl
@[simp] theorem State.modStartup_tiles (s : State) (f : Startup → Startup) : (s.modStartup f).tiles = s.tiles := rfl
@[simp] theorem State.modStartup_config (s : State) (f : Startup → Startup) : (s.modStartup f).config = s.config := rfl
@[simp] theorem State.modStartup_lanes (s : State) (f : Startup → Startup) : (s.modStartup f).lanes = s.lanes := rfl
@[simp] theorem State.modStartup_ports (s : State) (f : Startup → Startup) : (s.modStartup f).ports = s.ports := rfl
@[simp] theorem State.modStartup_optics (s : State) (f : Startup → Startup) : (s.modStartup f).optics = s.optics := rfl
@[simp] theorem State.modStartup_ft (s : State) (f : Startup → Startup) : (s.modStartup f).ft = s.ft := rfl
@[simp] theorem State.modStartup_chanIn (s : State) (f : Startup → Startup) : (s.modStartup f).chanIn = s.chanIn := rfl
@[simp] theorem State.modStartup_surfaces (s : State) (f : Startup → Startup) : (s.modStartup f).surfaces = s.surfaces := rfl
@[simp] theorem State.modStartup_chans (s : State) (f : Startup → Startup) : (s.modStartup f).chans = s.chans := rfl
@[simp] theorem State.modStartup_coders (s : State) (f : Startup → Startup) : (s.modStartup f).coders = s.coders := rfl
@[simp] theorem State.modStartup_takeovers (s : State) (f : Startup → Startup) : (s.modStartup f).takeovers = s.takeovers := rfl
@[simp] theorem State.modStartup_rinds (s : State) (f : Startup → Startup) : (s.modStartup f).rinds = s.rinds := rfl
@[simp] theorem State.modStartup_queues (s : State) (f : Startup → Startup) : (s.modStartup f).queues = s.queues := rfl
@[simp] theorem State.modStartup_pair (s : State) (f : Startup → Startup) : (s.modStartup f).pair = s.pair := rfl
@[simp] theorem State.modStartup_heads (s : State) (f : Startup → Startup) : (s.modStartup f).heads = s.heads := rfl
@[simp] theorem State.modStartup_readers (s : State) (f : Startup → Startup) : (s.modStartup f).readers = s.readers := rfl
@[simp] theorem State.modStartup_scalers (s : State) (f : Startup → Startup) : (s.modStartup f).scalers = s.scalers := rfl
@[simp] theorem State.modStartup_audio (s : State) (f : Startup → Startup) : (s.modStartup f).audio = s.audio := rfl
@[simp] theorem State.modStartup_memory (s : State) (f : Startup → Startup) : (s.modStartup f).memory = s.memory := rfl
@[simp] theorem State.modStartup_recorder (s : State) (f : Startup → Startup) : (s.modStartup f).recorder = s.recorder := rfl
@[simp] theorem State.modStartup_cores (s : State) (f : Startup → Startup) : (s.modStartup f).cores = s.cores := rfl
@[simp] theorem State.modStartup_mdp (s : State) (f : Startup → Startup) : (s.modStartup f).mdp = s.mdp := rfl
@[simp] theorem State.modStartup_hull (s : State) (f : Startup → Startup) : (s.modStartup f).hull = s.hull := rfl
@[simp] theorem State.modStartup_ledger (s : State) (f : Startup → Startup) : (s.modStartup f).ledger = s.ledger := rfl
@[simp] theorem State.modStartup_pending (s : State) (f : Startup → Startup) : (s.modStartup f).pending = s.pending := rfl

/-! ## Counts, events and ledger entries -/

@[simp] theorem State.countBy_latches (s : State) (a n : Nat) : (s.countBy a n).latches = s.latches :=
  (State.countBy_keeps rfl (Keeps.refl 0x1 s)).same .latches rfl
@[simp] theorem State.countBy_setNow (s : State) (a n : Nat) : (s.countBy a n).setNow = s.setNow :=
  (State.countBy_keeps rfl (Keeps.refl 0x1 s)).same .setNow rfl
@[simp] theorem State.countBy_mem (s : State) (a n : Nat) : (s.countBy a n).mem = s.mem :=
  (State.countBy_keeps rfl (Keeps.refl 0x1 s)).same .mem rfl
@[simp] theorem State.countBy_readValue (s : State) (a n : Nat) : (s.countBy a n).readValue = s.readValue :=
  (State.countBy_keeps rfl (Keeps.refl 0x1 s)).same .readValue rfl
@[simp] theorem State.countBy_wire (s : State) (a n : Nat) : (s.countBy a n).wire = s.wire :=
  (State.countBy_keeps rfl (Keeps.refl 0x1 s)).same .wire rfl
@[simp] theorem State.countBy_fresh (s : State) (a n : Nat) : (s.countBy a n).fresh = s.fresh :=
  (State.countBy_keeps rfl (Keeps.refl 0x1 s)).same .fresh rfl
@[simp] theorem State.countBy_clock (s : State) (a n : Nat) : (s.countBy a n).clock = s.clock :=
  (State.countBy_keeps rfl (Keeps.refl 0x1 s)).same .clock rfl
@[simp] theorem State.countBy_servo (s : State) (a n : Nat) : (s.countBy a n).servo = s.servo :=
  (State.countBy_keeps rfl (Keeps.refl 0x1 s)).same .servo rfl
@[simp] theorem State.countBy_ptp (s : State) (a n : Nat) : (s.countBy a n).ptp = s.ptp :=
  (State.countBy_keeps rfl (Keeps.refl 0x1 s)).same .ptp rfl
@[simp] theorem State.countBy_refIn (s : State) (a n : Nat) : (s.countBy a n).refIn = s.refIn :=
  (State.countBy_keeps rfl (Keeps.refl 0x1 s)).same .refIn rfl
@[simp] theorem State.countBy_tio (s : State) (a n : Nat) : (s.countBy a n).tio = s.tio :=
  (State.countBy_keeps rfl (Keeps.refl 0x1 s)).same .tio rfl
@[simp] theorem State.countBy_im (s : State) (a n : Nat) : (s.countBy a n).im = s.im :=
  (State.countBy_keeps rfl (Keeps.refl 0x1 s)).same .im rfl
@[simp] theorem State.countBy_commits (s : State) (a n : Nat) : (s.countBy a n).commits = s.commits :=
  (State.countBy_keeps rfl (Keeps.refl 0x1 s)).same .commits rfl
@[simp] theorem State.countBy_roll (s : State) (a n : Nat) : (s.countBy a n).roll = s.roll :=
  (State.countBy_keeps rfl (Keeps.refl 0x1 s)).same .roll rfl
@[simp] theorem State.countBy_tiles (s : State) (a n : Nat) : (s.countBy a n).tiles = s.tiles :=
  (State.countBy_keeps rfl (Keeps.refl 0x1 s)).same .tiles rfl
@[simp] theorem State.countBy_config (s : State) (a n : Nat) : (s.countBy a n).config = s.config :=
  (State.countBy_keeps rfl (Keeps.refl 0x1 s)).same .config rfl
@[simp] theorem State.countBy_lanes (s : State) (a n : Nat) : (s.countBy a n).lanes = s.lanes :=
  (State.countBy_keeps rfl (Keeps.refl 0x1 s)).same .lanes rfl
@[simp] theorem State.countBy_ports (s : State) (a n : Nat) : (s.countBy a n).ports = s.ports :=
  (State.countBy_keeps rfl (Keeps.refl 0x1 s)).same .ports rfl
@[simp] theorem State.countBy_optics (s : State) (a n : Nat) : (s.countBy a n).optics = s.optics :=
  (State.countBy_keeps rfl (Keeps.refl 0x1 s)).same .optics rfl
@[simp] theorem State.countBy_ft (s : State) (a n : Nat) : (s.countBy a n).ft = s.ft :=
  (State.countBy_keeps rfl (Keeps.refl 0x1 s)).same .ft rfl
@[simp] theorem State.countBy_chanIn (s : State) (a n : Nat) : (s.countBy a n).chanIn = s.chanIn :=
  (State.countBy_keeps rfl (Keeps.refl 0x1 s)).same .chanIn rfl
@[simp] theorem State.countBy_surfaces (s : State) (a n : Nat) : (s.countBy a n).surfaces = s.surfaces :=
  (State.countBy_keeps rfl (Keeps.refl 0x1 s)).same .surfaces rfl
@[simp] theorem State.countBy_chans (s : State) (a n : Nat) : (s.countBy a n).chans = s.chans :=
  (State.countBy_keeps rfl (Keeps.refl 0x1 s)).same .chans rfl
@[simp] theorem State.countBy_coders (s : State) (a n : Nat) : (s.countBy a n).coders = s.coders :=
  (State.countBy_keeps rfl (Keeps.refl 0x1 s)).same .coders rfl
@[simp] theorem State.countBy_takeovers (s : State) (a n : Nat) : (s.countBy a n).takeovers = s.takeovers :=
  (State.countBy_keeps rfl (Keeps.refl 0x1 s)).same .takeovers rfl
@[simp] theorem State.countBy_rinds (s : State) (a n : Nat) : (s.countBy a n).rinds = s.rinds :=
  (State.countBy_keeps rfl (Keeps.refl 0x1 s)).same .rinds rfl
@[simp] theorem State.countBy_queues (s : State) (a n : Nat) : (s.countBy a n).queues = s.queues :=
  (State.countBy_keeps rfl (Keeps.refl 0x1 s)).same .queues rfl
@[simp] theorem State.countBy_pair (s : State) (a n : Nat) : (s.countBy a n).pair = s.pair :=
  (State.countBy_keeps rfl (Keeps.refl 0x1 s)).same .pair rfl
@[simp] theorem State.countBy_heads (s : State) (a n : Nat) : (s.countBy a n).heads = s.heads :=
  (State.countBy_keeps rfl (Keeps.refl 0x1 s)).same .heads rfl
@[simp] theorem State.countBy_readers (s : State) (a n : Nat) : (s.countBy a n).readers = s.readers :=
  (State.countBy_keeps rfl (Keeps.refl 0x1 s)).same .readers rfl
@[simp] theorem State.countBy_scalers (s : State) (a n : Nat) : (s.countBy a n).scalers = s.scalers :=
  (State.countBy_keeps rfl (Keeps.refl 0x1 s)).same .scalers rfl
@[simp] theorem State.countBy_audio (s : State) (a n : Nat) : (s.countBy a n).audio = s.audio :=
  (State.countBy_keeps rfl (Keeps.refl 0x1 s)).same .audio rfl
@[simp] theorem State.countBy_memory (s : State) (a n : Nat) : (s.countBy a n).memory = s.memory :=
  (State.countBy_keeps rfl (Keeps.refl 0x1 s)).same .memory rfl
@[simp] theorem State.countBy_recorder (s : State) (a n : Nat) : (s.countBy a n).recorder = s.recorder :=
  (State.countBy_keeps rfl (Keeps.refl 0x1 s)).same .recorder rfl
@[simp] theorem State.countBy_cores (s : State) (a n : Nat) : (s.countBy a n).cores = s.cores :=
  (State.countBy_keeps rfl (Keeps.refl 0x1 s)).same .cores rfl
@[simp] theorem State.countBy_mdp (s : State) (a n : Nat) : (s.countBy a n).mdp = s.mdp :=
  (State.countBy_keeps rfl (Keeps.refl 0x1 s)).same .mdp rfl
@[simp] theorem State.countBy_hull (s : State) (a n : Nat) : (s.countBy a n).hull = s.hull :=
  (State.countBy_keeps rfl (Keeps.refl 0x1 s)).same .hull rfl
@[simp] theorem State.countBy_ledger (s : State) (a n : Nat) : (s.countBy a n).ledger = s.ledger :=
  (State.countBy_keeps rfl (Keeps.refl 0x1 s)).same .ledger rfl
@[simp] theorem State.countBy_startup (s : State) (a n : Nat) : (s.countBy a n).startup = s.startup :=
  (State.countBy_keeps rfl (Keeps.refl 0x1 s)).same .startup rfl
@[simp] theorem State.countBy_pending (s : State) (a n : Nat) : (s.countBy a n).pending = s.pending :=
  (State.countBy_keeps rfl (Keeps.refl 0x1 s)).pending

@[simp] theorem State.count_latches (s : State) (a : Nat) : (s.count a).latches = s.latches :=
  (State.count_keeps rfl (Keeps.refl 0x1 s)).same .latches rfl
@[simp] theorem State.count_setNow (s : State) (a : Nat) : (s.count a).setNow = s.setNow :=
  (State.count_keeps rfl (Keeps.refl 0x1 s)).same .setNow rfl
@[simp] theorem State.count_mem (s : State) (a : Nat) : (s.count a).mem = s.mem :=
  (State.count_keeps rfl (Keeps.refl 0x1 s)).same .mem rfl
@[simp] theorem State.count_readValue (s : State) (a : Nat) : (s.count a).readValue = s.readValue :=
  (State.count_keeps rfl (Keeps.refl 0x1 s)).same .readValue rfl
@[simp] theorem State.count_wire (s : State) (a : Nat) : (s.count a).wire = s.wire :=
  (State.count_keeps rfl (Keeps.refl 0x1 s)).same .wire rfl
@[simp] theorem State.count_fresh (s : State) (a : Nat) : (s.count a).fresh = s.fresh :=
  (State.count_keeps rfl (Keeps.refl 0x1 s)).same .fresh rfl
@[simp] theorem State.count_clock (s : State) (a : Nat) : (s.count a).clock = s.clock :=
  (State.count_keeps rfl (Keeps.refl 0x1 s)).same .clock rfl
@[simp] theorem State.count_servo (s : State) (a : Nat) : (s.count a).servo = s.servo :=
  (State.count_keeps rfl (Keeps.refl 0x1 s)).same .servo rfl
@[simp] theorem State.count_ptp (s : State) (a : Nat) : (s.count a).ptp = s.ptp :=
  (State.count_keeps rfl (Keeps.refl 0x1 s)).same .ptp rfl
@[simp] theorem State.count_refIn (s : State) (a : Nat) : (s.count a).refIn = s.refIn :=
  (State.count_keeps rfl (Keeps.refl 0x1 s)).same .refIn rfl
@[simp] theorem State.count_tio (s : State) (a : Nat) : (s.count a).tio = s.tio :=
  (State.count_keeps rfl (Keeps.refl 0x1 s)).same .tio rfl
@[simp] theorem State.count_im (s : State) (a : Nat) : (s.count a).im = s.im :=
  (State.count_keeps rfl (Keeps.refl 0x1 s)).same .im rfl
@[simp] theorem State.count_commits (s : State) (a : Nat) : (s.count a).commits = s.commits :=
  (State.count_keeps rfl (Keeps.refl 0x1 s)).same .commits rfl
@[simp] theorem State.count_roll (s : State) (a : Nat) : (s.count a).roll = s.roll :=
  (State.count_keeps rfl (Keeps.refl 0x1 s)).same .roll rfl
@[simp] theorem State.count_tiles (s : State) (a : Nat) : (s.count a).tiles = s.tiles :=
  (State.count_keeps rfl (Keeps.refl 0x1 s)).same .tiles rfl
@[simp] theorem State.count_config (s : State) (a : Nat) : (s.count a).config = s.config :=
  (State.count_keeps rfl (Keeps.refl 0x1 s)).same .config rfl
@[simp] theorem State.count_lanes (s : State) (a : Nat) : (s.count a).lanes = s.lanes :=
  (State.count_keeps rfl (Keeps.refl 0x1 s)).same .lanes rfl
@[simp] theorem State.count_ports (s : State) (a : Nat) : (s.count a).ports = s.ports :=
  (State.count_keeps rfl (Keeps.refl 0x1 s)).same .ports rfl
@[simp] theorem State.count_optics (s : State) (a : Nat) : (s.count a).optics = s.optics :=
  (State.count_keeps rfl (Keeps.refl 0x1 s)).same .optics rfl
@[simp] theorem State.count_ft (s : State) (a : Nat) : (s.count a).ft = s.ft :=
  (State.count_keeps rfl (Keeps.refl 0x1 s)).same .ft rfl
@[simp] theorem State.count_chanIn (s : State) (a : Nat) : (s.count a).chanIn = s.chanIn :=
  (State.count_keeps rfl (Keeps.refl 0x1 s)).same .chanIn rfl
@[simp] theorem State.count_surfaces (s : State) (a : Nat) : (s.count a).surfaces = s.surfaces :=
  (State.count_keeps rfl (Keeps.refl 0x1 s)).same .surfaces rfl
@[simp] theorem State.count_chans (s : State) (a : Nat) : (s.count a).chans = s.chans :=
  (State.count_keeps rfl (Keeps.refl 0x1 s)).same .chans rfl
@[simp] theorem State.count_coders (s : State) (a : Nat) : (s.count a).coders = s.coders :=
  (State.count_keeps rfl (Keeps.refl 0x1 s)).same .coders rfl
@[simp] theorem State.count_takeovers (s : State) (a : Nat) : (s.count a).takeovers = s.takeovers :=
  (State.count_keeps rfl (Keeps.refl 0x1 s)).same .takeovers rfl
@[simp] theorem State.count_rinds (s : State) (a : Nat) : (s.count a).rinds = s.rinds :=
  (State.count_keeps rfl (Keeps.refl 0x1 s)).same .rinds rfl
@[simp] theorem State.count_queues (s : State) (a : Nat) : (s.count a).queues = s.queues :=
  (State.count_keeps rfl (Keeps.refl 0x1 s)).same .queues rfl
@[simp] theorem State.count_pair (s : State) (a : Nat) : (s.count a).pair = s.pair :=
  (State.count_keeps rfl (Keeps.refl 0x1 s)).same .pair rfl
@[simp] theorem State.count_heads (s : State) (a : Nat) : (s.count a).heads = s.heads :=
  (State.count_keeps rfl (Keeps.refl 0x1 s)).same .heads rfl
@[simp] theorem State.count_readers (s : State) (a : Nat) : (s.count a).readers = s.readers :=
  (State.count_keeps rfl (Keeps.refl 0x1 s)).same .readers rfl
@[simp] theorem State.count_scalers (s : State) (a : Nat) : (s.count a).scalers = s.scalers :=
  (State.count_keeps rfl (Keeps.refl 0x1 s)).same .scalers rfl
@[simp] theorem State.count_audio (s : State) (a : Nat) : (s.count a).audio = s.audio :=
  (State.count_keeps rfl (Keeps.refl 0x1 s)).same .audio rfl
@[simp] theorem State.count_memory (s : State) (a : Nat) : (s.count a).memory = s.memory :=
  (State.count_keeps rfl (Keeps.refl 0x1 s)).same .memory rfl
@[simp] theorem State.count_recorder (s : State) (a : Nat) : (s.count a).recorder = s.recorder :=
  (State.count_keeps rfl (Keeps.refl 0x1 s)).same .recorder rfl
@[simp] theorem State.count_cores (s : State) (a : Nat) : (s.count a).cores = s.cores :=
  (State.count_keeps rfl (Keeps.refl 0x1 s)).same .cores rfl
@[simp] theorem State.count_mdp (s : State) (a : Nat) : (s.count a).mdp = s.mdp :=
  (State.count_keeps rfl (Keeps.refl 0x1 s)).same .mdp rfl
@[simp] theorem State.count_hull (s : State) (a : Nat) : (s.count a).hull = s.hull :=
  (State.count_keeps rfl (Keeps.refl 0x1 s)).same .hull rfl
@[simp] theorem State.count_ledger (s : State) (a : Nat) : (s.count a).ledger = s.ledger :=
  (State.count_keeps rfl (Keeps.refl 0x1 s)).same .ledger rfl
@[simp] theorem State.count_startup (s : State) (a : Nat) : (s.count a).startup = s.startup :=
  (State.count_keeps rfl (Keeps.refl 0x1 s)).same .startup rfl
@[simp] theorem State.count_pending (s : State) (a : Nat) : (s.count a).pending = s.pending :=
  (State.count_keeps rfl (Keeps.refl 0x1 s)).pending

@[simp] theorem State.logEntry_regs (s : State) (e : Entry) : (s.logEntry e).regs = s.regs :=
  (State.logEntry_keeps rfl (Keeps.refl 0x4000000000 s)).same .regs rfl
@[simp] theorem State.logEntry_latches (s : State) (e : Entry) : (s.logEntry e).latches = s.latches :=
  (State.logEntry_keeps rfl (Keeps.refl 0x4000000000 s)).same .latches rfl
@[simp] theorem State.logEntry_setNow (s : State) (e : Entry) : (s.logEntry e).setNow = s.setNow :=
  (State.logEntry_keeps rfl (Keeps.refl 0x4000000000 s)).same .setNow rfl
@[simp] theorem State.logEntry_mem (s : State) (e : Entry) : (s.logEntry e).mem = s.mem :=
  (State.logEntry_keeps rfl (Keeps.refl 0x4000000000 s)).same .mem rfl
@[simp] theorem State.logEntry_readValue (s : State) (e : Entry) : (s.logEntry e).readValue = s.readValue :=
  (State.logEntry_keeps rfl (Keeps.refl 0x4000000000 s)).same .readValue rfl
@[simp] theorem State.logEntry_wire (s : State) (e : Entry) : (s.logEntry e).wire = s.wire :=
  (State.logEntry_keeps rfl (Keeps.refl 0x4000000000 s)).same .wire rfl
@[simp] theorem State.logEntry_fresh (s : State) (e : Entry) : (s.logEntry e).fresh = s.fresh :=
  (State.logEntry_keeps rfl (Keeps.refl 0x4000000000 s)).same .fresh rfl
@[simp] theorem State.logEntry_clock (s : State) (e : Entry) : (s.logEntry e).clock = s.clock :=
  (State.logEntry_keeps rfl (Keeps.refl 0x4000000000 s)).same .clock rfl
@[simp] theorem State.logEntry_servo (s : State) (e : Entry) : (s.logEntry e).servo = s.servo :=
  (State.logEntry_keeps rfl (Keeps.refl 0x4000000000 s)).same .servo rfl
@[simp] theorem State.logEntry_ptp (s : State) (e : Entry) : (s.logEntry e).ptp = s.ptp :=
  (State.logEntry_keeps rfl (Keeps.refl 0x4000000000 s)).same .ptp rfl
@[simp] theorem State.logEntry_refIn (s : State) (e : Entry) : (s.logEntry e).refIn = s.refIn :=
  (State.logEntry_keeps rfl (Keeps.refl 0x4000000000 s)).same .refIn rfl
@[simp] theorem State.logEntry_tio (s : State) (e : Entry) : (s.logEntry e).tio = s.tio :=
  (State.logEntry_keeps rfl (Keeps.refl 0x4000000000 s)).same .tio rfl
@[simp] theorem State.logEntry_im (s : State) (e : Entry) : (s.logEntry e).im = s.im :=
  (State.logEntry_keeps rfl (Keeps.refl 0x4000000000 s)).same .im rfl
@[simp] theorem State.logEntry_commits (s : State) (e : Entry) : (s.logEntry e).commits = s.commits :=
  (State.logEntry_keeps rfl (Keeps.refl 0x4000000000 s)).same .commits rfl
@[simp] theorem State.logEntry_roll (s : State) (e : Entry) : (s.logEntry e).roll = s.roll :=
  (State.logEntry_keeps rfl (Keeps.refl 0x4000000000 s)).same .roll rfl
@[simp] theorem State.logEntry_tiles (s : State) (e : Entry) : (s.logEntry e).tiles = s.tiles :=
  (State.logEntry_keeps rfl (Keeps.refl 0x4000000000 s)).same .tiles rfl
@[simp] theorem State.logEntry_config (s : State) (e : Entry) : (s.logEntry e).config = s.config :=
  (State.logEntry_keeps rfl (Keeps.refl 0x4000000000 s)).same .config rfl
@[simp] theorem State.logEntry_lanes (s : State) (e : Entry) : (s.logEntry e).lanes = s.lanes :=
  (State.logEntry_keeps rfl (Keeps.refl 0x4000000000 s)).same .lanes rfl
@[simp] theorem State.logEntry_ports (s : State) (e : Entry) : (s.logEntry e).ports = s.ports :=
  (State.logEntry_keeps rfl (Keeps.refl 0x4000000000 s)).same .ports rfl
@[simp] theorem State.logEntry_optics (s : State) (e : Entry) : (s.logEntry e).optics = s.optics :=
  (State.logEntry_keeps rfl (Keeps.refl 0x4000000000 s)).same .optics rfl
@[simp] theorem State.logEntry_ft (s : State) (e : Entry) : (s.logEntry e).ft = s.ft :=
  (State.logEntry_keeps rfl (Keeps.refl 0x4000000000 s)).same .ft rfl
@[simp] theorem State.logEntry_chanIn (s : State) (e : Entry) : (s.logEntry e).chanIn = s.chanIn :=
  (State.logEntry_keeps rfl (Keeps.refl 0x4000000000 s)).same .chanIn rfl
@[simp] theorem State.logEntry_surfaces (s : State) (e : Entry) : (s.logEntry e).surfaces = s.surfaces :=
  (State.logEntry_keeps rfl (Keeps.refl 0x4000000000 s)).same .surfaces rfl
@[simp] theorem State.logEntry_chans (s : State) (e : Entry) : (s.logEntry e).chans = s.chans :=
  (State.logEntry_keeps rfl (Keeps.refl 0x4000000000 s)).same .chans rfl
@[simp] theorem State.logEntry_coders (s : State) (e : Entry) : (s.logEntry e).coders = s.coders :=
  (State.logEntry_keeps rfl (Keeps.refl 0x4000000000 s)).same .coders rfl
@[simp] theorem State.logEntry_takeovers (s : State) (e : Entry) : (s.logEntry e).takeovers = s.takeovers :=
  (State.logEntry_keeps rfl (Keeps.refl 0x4000000000 s)).same .takeovers rfl
@[simp] theorem State.logEntry_rinds (s : State) (e : Entry) : (s.logEntry e).rinds = s.rinds :=
  (State.logEntry_keeps rfl (Keeps.refl 0x4000000000 s)).same .rinds rfl
@[simp] theorem State.logEntry_queues (s : State) (e : Entry) : (s.logEntry e).queues = s.queues :=
  (State.logEntry_keeps rfl (Keeps.refl 0x4000000000 s)).same .queues rfl
@[simp] theorem State.logEntry_pair (s : State) (e : Entry) : (s.logEntry e).pair = s.pair :=
  (State.logEntry_keeps rfl (Keeps.refl 0x4000000000 s)).same .pair rfl
@[simp] theorem State.logEntry_heads (s : State) (e : Entry) : (s.logEntry e).heads = s.heads :=
  (State.logEntry_keeps rfl (Keeps.refl 0x4000000000 s)).same .heads rfl
@[simp] theorem State.logEntry_readers (s : State) (e : Entry) : (s.logEntry e).readers = s.readers :=
  (State.logEntry_keeps rfl (Keeps.refl 0x4000000000 s)).same .readers rfl
@[simp] theorem State.logEntry_scalers (s : State) (e : Entry) : (s.logEntry e).scalers = s.scalers :=
  (State.logEntry_keeps rfl (Keeps.refl 0x4000000000 s)).same .scalers rfl
@[simp] theorem State.logEntry_audio (s : State) (e : Entry) : (s.logEntry e).audio = s.audio :=
  (State.logEntry_keeps rfl (Keeps.refl 0x4000000000 s)).same .audio rfl
@[simp] theorem State.logEntry_memory (s : State) (e : Entry) : (s.logEntry e).memory = s.memory :=
  (State.logEntry_keeps rfl (Keeps.refl 0x4000000000 s)).same .memory rfl
@[simp] theorem State.logEntry_recorder (s : State) (e : Entry) : (s.logEntry e).recorder = s.recorder :=
  (State.logEntry_keeps rfl (Keeps.refl 0x4000000000 s)).same .recorder rfl
@[simp] theorem State.logEntry_cores (s : State) (e : Entry) : (s.logEntry e).cores = s.cores :=
  (State.logEntry_keeps rfl (Keeps.refl 0x4000000000 s)).same .cores rfl
@[simp] theorem State.logEntry_mdp (s : State) (e : Entry) : (s.logEntry e).mdp = s.mdp :=
  (State.logEntry_keeps rfl (Keeps.refl 0x4000000000 s)).same .mdp rfl
@[simp] theorem State.logEntry_hull (s : State) (e : Entry) : (s.logEntry e).hull = s.hull :=
  (State.logEntry_keeps rfl (Keeps.refl 0x4000000000 s)).same .hull rfl
@[simp] theorem State.logEntry_startup (s : State) (e : Entry) : (s.logEntry e).startup = s.startup :=
  (State.logEntry_keeps rfl (Keeps.refl 0x4000000000 s)).same .startup rfl
@[simp] theorem State.logEntry_pending (s : State) (e : Entry) : (s.logEntry e).pending = s.pending :=
  (State.logEntry_keeps rfl (Keeps.refl 0x4000000000 s)).pending

@[simp] theorem State.log_regs (s : State) (c : FaultClass) (ctrl : Nat) (data : List Byte) : (s.log c ctrl data).regs = s.regs :=
  (State.log_keeps rfl (Keeps.refl 0x4000000000 s)).same .regs rfl
@[simp] theorem State.log_latches (s : State) (c : FaultClass) (ctrl : Nat) (data : List Byte) : (s.log c ctrl data).latches = s.latches :=
  (State.log_keeps rfl (Keeps.refl 0x4000000000 s)).same .latches rfl
@[simp] theorem State.log_setNow (s : State) (c : FaultClass) (ctrl : Nat) (data : List Byte) : (s.log c ctrl data).setNow = s.setNow :=
  (State.log_keeps rfl (Keeps.refl 0x4000000000 s)).same .setNow rfl
@[simp] theorem State.log_mem (s : State) (c : FaultClass) (ctrl : Nat) (data : List Byte) : (s.log c ctrl data).mem = s.mem :=
  (State.log_keeps rfl (Keeps.refl 0x4000000000 s)).same .mem rfl
@[simp] theorem State.log_readValue (s : State) (c : FaultClass) (ctrl : Nat) (data : List Byte) : (s.log c ctrl data).readValue = s.readValue :=
  (State.log_keeps rfl (Keeps.refl 0x4000000000 s)).same .readValue rfl
@[simp] theorem State.log_wire (s : State) (c : FaultClass) (ctrl : Nat) (data : List Byte) : (s.log c ctrl data).wire = s.wire :=
  (State.log_keeps rfl (Keeps.refl 0x4000000000 s)).same .wire rfl
@[simp] theorem State.log_fresh (s : State) (c : FaultClass) (ctrl : Nat) (data : List Byte) : (s.log c ctrl data).fresh = s.fresh :=
  (State.log_keeps rfl (Keeps.refl 0x4000000000 s)).same .fresh rfl
@[simp] theorem State.log_clock (s : State) (c : FaultClass) (ctrl : Nat) (data : List Byte) : (s.log c ctrl data).clock = s.clock :=
  (State.log_keeps rfl (Keeps.refl 0x4000000000 s)).same .clock rfl
@[simp] theorem State.log_servo (s : State) (c : FaultClass) (ctrl : Nat) (data : List Byte) : (s.log c ctrl data).servo = s.servo :=
  (State.log_keeps rfl (Keeps.refl 0x4000000000 s)).same .servo rfl
@[simp] theorem State.log_ptp (s : State) (c : FaultClass) (ctrl : Nat) (data : List Byte) : (s.log c ctrl data).ptp = s.ptp :=
  (State.log_keeps rfl (Keeps.refl 0x4000000000 s)).same .ptp rfl
@[simp] theorem State.log_refIn (s : State) (c : FaultClass) (ctrl : Nat) (data : List Byte) : (s.log c ctrl data).refIn = s.refIn :=
  (State.log_keeps rfl (Keeps.refl 0x4000000000 s)).same .refIn rfl
@[simp] theorem State.log_tio (s : State) (c : FaultClass) (ctrl : Nat) (data : List Byte) : (s.log c ctrl data).tio = s.tio :=
  (State.log_keeps rfl (Keeps.refl 0x4000000000 s)).same .tio rfl
@[simp] theorem State.log_im (s : State) (c : FaultClass) (ctrl : Nat) (data : List Byte) : (s.log c ctrl data).im = s.im :=
  (State.log_keeps rfl (Keeps.refl 0x4000000000 s)).same .im rfl
@[simp] theorem State.log_commits (s : State) (c : FaultClass) (ctrl : Nat) (data : List Byte) : (s.log c ctrl data).commits = s.commits :=
  (State.log_keeps rfl (Keeps.refl 0x4000000000 s)).same .commits rfl
@[simp] theorem State.log_roll (s : State) (c : FaultClass) (ctrl : Nat) (data : List Byte) : (s.log c ctrl data).roll = s.roll :=
  (State.log_keeps rfl (Keeps.refl 0x4000000000 s)).same .roll rfl
@[simp] theorem State.log_tiles (s : State) (c : FaultClass) (ctrl : Nat) (data : List Byte) : (s.log c ctrl data).tiles = s.tiles :=
  (State.log_keeps rfl (Keeps.refl 0x4000000000 s)).same .tiles rfl
@[simp] theorem State.log_config (s : State) (c : FaultClass) (ctrl : Nat) (data : List Byte) : (s.log c ctrl data).config = s.config :=
  (State.log_keeps rfl (Keeps.refl 0x4000000000 s)).same .config rfl
@[simp] theorem State.log_lanes (s : State) (c : FaultClass) (ctrl : Nat) (data : List Byte) : (s.log c ctrl data).lanes = s.lanes :=
  (State.log_keeps rfl (Keeps.refl 0x4000000000 s)).same .lanes rfl
@[simp] theorem State.log_ports (s : State) (c : FaultClass) (ctrl : Nat) (data : List Byte) : (s.log c ctrl data).ports = s.ports :=
  (State.log_keeps rfl (Keeps.refl 0x4000000000 s)).same .ports rfl
@[simp] theorem State.log_optics (s : State) (c : FaultClass) (ctrl : Nat) (data : List Byte) : (s.log c ctrl data).optics = s.optics :=
  (State.log_keeps rfl (Keeps.refl 0x4000000000 s)).same .optics rfl
@[simp] theorem State.log_ft (s : State) (c : FaultClass) (ctrl : Nat) (data : List Byte) : (s.log c ctrl data).ft = s.ft :=
  (State.log_keeps rfl (Keeps.refl 0x4000000000 s)).same .ft rfl
@[simp] theorem State.log_chanIn (s : State) (c : FaultClass) (ctrl : Nat) (data : List Byte) : (s.log c ctrl data).chanIn = s.chanIn :=
  (State.log_keeps rfl (Keeps.refl 0x4000000000 s)).same .chanIn rfl
@[simp] theorem State.log_surfaces (s : State) (c : FaultClass) (ctrl : Nat) (data : List Byte) : (s.log c ctrl data).surfaces = s.surfaces :=
  (State.log_keeps rfl (Keeps.refl 0x4000000000 s)).same .surfaces rfl
@[simp] theorem State.log_chans (s : State) (c : FaultClass) (ctrl : Nat) (data : List Byte) : (s.log c ctrl data).chans = s.chans :=
  (State.log_keeps rfl (Keeps.refl 0x4000000000 s)).same .chans rfl
@[simp] theorem State.log_coders (s : State) (c : FaultClass) (ctrl : Nat) (data : List Byte) : (s.log c ctrl data).coders = s.coders :=
  (State.log_keeps rfl (Keeps.refl 0x4000000000 s)).same .coders rfl
@[simp] theorem State.log_takeovers (s : State) (c : FaultClass) (ctrl : Nat) (data : List Byte) : (s.log c ctrl data).takeovers = s.takeovers :=
  (State.log_keeps rfl (Keeps.refl 0x4000000000 s)).same .takeovers rfl
@[simp] theorem State.log_rinds (s : State) (c : FaultClass) (ctrl : Nat) (data : List Byte) : (s.log c ctrl data).rinds = s.rinds :=
  (State.log_keeps rfl (Keeps.refl 0x4000000000 s)).same .rinds rfl
@[simp] theorem State.log_queues (s : State) (c : FaultClass) (ctrl : Nat) (data : List Byte) : (s.log c ctrl data).queues = s.queues :=
  (State.log_keeps rfl (Keeps.refl 0x4000000000 s)).same .queues rfl
@[simp] theorem State.log_pair (s : State) (c : FaultClass) (ctrl : Nat) (data : List Byte) : (s.log c ctrl data).pair = s.pair :=
  (State.log_keeps rfl (Keeps.refl 0x4000000000 s)).same .pair rfl
@[simp] theorem State.log_heads (s : State) (c : FaultClass) (ctrl : Nat) (data : List Byte) : (s.log c ctrl data).heads = s.heads :=
  (State.log_keeps rfl (Keeps.refl 0x4000000000 s)).same .heads rfl
@[simp] theorem State.log_readers (s : State) (c : FaultClass) (ctrl : Nat) (data : List Byte) : (s.log c ctrl data).readers = s.readers :=
  (State.log_keeps rfl (Keeps.refl 0x4000000000 s)).same .readers rfl
@[simp] theorem State.log_scalers (s : State) (c : FaultClass) (ctrl : Nat) (data : List Byte) : (s.log c ctrl data).scalers = s.scalers :=
  (State.log_keeps rfl (Keeps.refl 0x4000000000 s)).same .scalers rfl
@[simp] theorem State.log_audio (s : State) (c : FaultClass) (ctrl : Nat) (data : List Byte) : (s.log c ctrl data).audio = s.audio :=
  (State.log_keeps rfl (Keeps.refl 0x4000000000 s)).same .audio rfl
@[simp] theorem State.log_memory (s : State) (c : FaultClass) (ctrl : Nat) (data : List Byte) : (s.log c ctrl data).memory = s.memory :=
  (State.log_keeps rfl (Keeps.refl 0x4000000000 s)).same .memory rfl
@[simp] theorem State.log_recorder (s : State) (c : FaultClass) (ctrl : Nat) (data : List Byte) : (s.log c ctrl data).recorder = s.recorder :=
  (State.log_keeps rfl (Keeps.refl 0x4000000000 s)).same .recorder rfl
@[simp] theorem State.log_cores (s : State) (c : FaultClass) (ctrl : Nat) (data : List Byte) : (s.log c ctrl data).cores = s.cores :=
  (State.log_keeps rfl (Keeps.refl 0x4000000000 s)).same .cores rfl
@[simp] theorem State.log_mdp (s : State) (c : FaultClass) (ctrl : Nat) (data : List Byte) : (s.log c ctrl data).mdp = s.mdp :=
  (State.log_keeps rfl (Keeps.refl 0x4000000000 s)).same .mdp rfl
@[simp] theorem State.log_hull (s : State) (c : FaultClass) (ctrl : Nat) (data : List Byte) : (s.log c ctrl data).hull = s.hull :=
  (State.log_keeps rfl (Keeps.refl 0x4000000000 s)).same .hull rfl
@[simp] theorem State.log_startup (s : State) (c : FaultClass) (ctrl : Nat) (data : List Byte) : (s.log c ctrl data).startup = s.startup :=
  (State.log_keeps rfl (Keeps.refl 0x4000000000 s)).same .startup rfl
@[simp] theorem State.log_pending (s : State) (c : FaultClass) (ctrl : Nat) (data : List Byte) : (s.log c ctrl data).pending = s.pending :=
  (State.log_keeps rfl (Keeps.refl 0x4000000000 s)).pending

@[simp] theorem State.logOut_regs (s : State) (c : FaultClass) (ctrl dp : Nat) (outs : List (Output × Nat)) (data : List Byte) : (s.logOut c ctrl dp outs data).regs = s.regs :=
  (State.logOut_keeps rfl (Keeps.refl 0x4000000000 s)).same .regs rfl
@[simp] theorem State.logOut_latches (s : State) (c : FaultClass) (ctrl dp : Nat) (outs : List (Output × Nat)) (data : List Byte) : (s.logOut c ctrl dp outs data).latches = s.latches :=
  (State.logOut_keeps rfl (Keeps.refl 0x4000000000 s)).same .latches rfl
@[simp] theorem State.logOut_setNow (s : State) (c : FaultClass) (ctrl dp : Nat) (outs : List (Output × Nat)) (data : List Byte) : (s.logOut c ctrl dp outs data).setNow = s.setNow :=
  (State.logOut_keeps rfl (Keeps.refl 0x4000000000 s)).same .setNow rfl
@[simp] theorem State.logOut_mem (s : State) (c : FaultClass) (ctrl dp : Nat) (outs : List (Output × Nat)) (data : List Byte) : (s.logOut c ctrl dp outs data).mem = s.mem :=
  (State.logOut_keeps rfl (Keeps.refl 0x4000000000 s)).same .mem rfl
@[simp] theorem State.logOut_readValue (s : State) (c : FaultClass) (ctrl dp : Nat) (outs : List (Output × Nat)) (data : List Byte) : (s.logOut c ctrl dp outs data).readValue = s.readValue :=
  (State.logOut_keeps rfl (Keeps.refl 0x4000000000 s)).same .readValue rfl
@[simp] theorem State.logOut_wire (s : State) (c : FaultClass) (ctrl dp : Nat) (outs : List (Output × Nat)) (data : List Byte) : (s.logOut c ctrl dp outs data).wire = s.wire :=
  (State.logOut_keeps rfl (Keeps.refl 0x4000000000 s)).same .wire rfl
@[simp] theorem State.logOut_fresh (s : State) (c : FaultClass) (ctrl dp : Nat) (outs : List (Output × Nat)) (data : List Byte) : (s.logOut c ctrl dp outs data).fresh = s.fresh :=
  (State.logOut_keeps rfl (Keeps.refl 0x4000000000 s)).same .fresh rfl
@[simp] theorem State.logOut_clock (s : State) (c : FaultClass) (ctrl dp : Nat) (outs : List (Output × Nat)) (data : List Byte) : (s.logOut c ctrl dp outs data).clock = s.clock :=
  (State.logOut_keeps rfl (Keeps.refl 0x4000000000 s)).same .clock rfl
@[simp] theorem State.logOut_servo (s : State) (c : FaultClass) (ctrl dp : Nat) (outs : List (Output × Nat)) (data : List Byte) : (s.logOut c ctrl dp outs data).servo = s.servo :=
  (State.logOut_keeps rfl (Keeps.refl 0x4000000000 s)).same .servo rfl
@[simp] theorem State.logOut_ptp (s : State) (c : FaultClass) (ctrl dp : Nat) (outs : List (Output × Nat)) (data : List Byte) : (s.logOut c ctrl dp outs data).ptp = s.ptp :=
  (State.logOut_keeps rfl (Keeps.refl 0x4000000000 s)).same .ptp rfl
@[simp] theorem State.logOut_refIn (s : State) (c : FaultClass) (ctrl dp : Nat) (outs : List (Output × Nat)) (data : List Byte) : (s.logOut c ctrl dp outs data).refIn = s.refIn :=
  (State.logOut_keeps rfl (Keeps.refl 0x4000000000 s)).same .refIn rfl
@[simp] theorem State.logOut_tio (s : State) (c : FaultClass) (ctrl dp : Nat) (outs : List (Output × Nat)) (data : List Byte) : (s.logOut c ctrl dp outs data).tio = s.tio :=
  (State.logOut_keeps rfl (Keeps.refl 0x4000000000 s)).same .tio rfl
@[simp] theorem State.logOut_im (s : State) (c : FaultClass) (ctrl dp : Nat) (outs : List (Output × Nat)) (data : List Byte) : (s.logOut c ctrl dp outs data).im = s.im :=
  (State.logOut_keeps rfl (Keeps.refl 0x4000000000 s)).same .im rfl
@[simp] theorem State.logOut_commits (s : State) (c : FaultClass) (ctrl dp : Nat) (outs : List (Output × Nat)) (data : List Byte) : (s.logOut c ctrl dp outs data).commits = s.commits :=
  (State.logOut_keeps rfl (Keeps.refl 0x4000000000 s)).same .commits rfl
@[simp] theorem State.logOut_roll (s : State) (c : FaultClass) (ctrl dp : Nat) (outs : List (Output × Nat)) (data : List Byte) : (s.logOut c ctrl dp outs data).roll = s.roll :=
  (State.logOut_keeps rfl (Keeps.refl 0x4000000000 s)).same .roll rfl
@[simp] theorem State.logOut_tiles (s : State) (c : FaultClass) (ctrl dp : Nat) (outs : List (Output × Nat)) (data : List Byte) : (s.logOut c ctrl dp outs data).tiles = s.tiles :=
  (State.logOut_keeps rfl (Keeps.refl 0x4000000000 s)).same .tiles rfl
@[simp] theorem State.logOut_config (s : State) (c : FaultClass) (ctrl dp : Nat) (outs : List (Output × Nat)) (data : List Byte) : (s.logOut c ctrl dp outs data).config = s.config :=
  (State.logOut_keeps rfl (Keeps.refl 0x4000000000 s)).same .config rfl
@[simp] theorem State.logOut_lanes (s : State) (c : FaultClass) (ctrl dp : Nat) (outs : List (Output × Nat)) (data : List Byte) : (s.logOut c ctrl dp outs data).lanes = s.lanes :=
  (State.logOut_keeps rfl (Keeps.refl 0x4000000000 s)).same .lanes rfl
@[simp] theorem State.logOut_ports (s : State) (c : FaultClass) (ctrl dp : Nat) (outs : List (Output × Nat)) (data : List Byte) : (s.logOut c ctrl dp outs data).ports = s.ports :=
  (State.logOut_keeps rfl (Keeps.refl 0x4000000000 s)).same .ports rfl
@[simp] theorem State.logOut_optics (s : State) (c : FaultClass) (ctrl dp : Nat) (outs : List (Output × Nat)) (data : List Byte) : (s.logOut c ctrl dp outs data).optics = s.optics :=
  (State.logOut_keeps rfl (Keeps.refl 0x4000000000 s)).same .optics rfl
@[simp] theorem State.logOut_ft (s : State) (c : FaultClass) (ctrl dp : Nat) (outs : List (Output × Nat)) (data : List Byte) : (s.logOut c ctrl dp outs data).ft = s.ft :=
  (State.logOut_keeps rfl (Keeps.refl 0x4000000000 s)).same .ft rfl
@[simp] theorem State.logOut_chanIn (s : State) (c : FaultClass) (ctrl dp : Nat) (outs : List (Output × Nat)) (data : List Byte) : (s.logOut c ctrl dp outs data).chanIn = s.chanIn :=
  (State.logOut_keeps rfl (Keeps.refl 0x4000000000 s)).same .chanIn rfl
@[simp] theorem State.logOut_surfaces (s : State) (c : FaultClass) (ctrl dp : Nat) (outs : List (Output × Nat)) (data : List Byte) : (s.logOut c ctrl dp outs data).surfaces = s.surfaces :=
  (State.logOut_keeps rfl (Keeps.refl 0x4000000000 s)).same .surfaces rfl
@[simp] theorem State.logOut_chans (s : State) (c : FaultClass) (ctrl dp : Nat) (outs : List (Output × Nat)) (data : List Byte) : (s.logOut c ctrl dp outs data).chans = s.chans :=
  (State.logOut_keeps rfl (Keeps.refl 0x4000000000 s)).same .chans rfl
@[simp] theorem State.logOut_coders (s : State) (c : FaultClass) (ctrl dp : Nat) (outs : List (Output × Nat)) (data : List Byte) : (s.logOut c ctrl dp outs data).coders = s.coders :=
  (State.logOut_keeps rfl (Keeps.refl 0x4000000000 s)).same .coders rfl
@[simp] theorem State.logOut_takeovers (s : State) (c : FaultClass) (ctrl dp : Nat) (outs : List (Output × Nat)) (data : List Byte) : (s.logOut c ctrl dp outs data).takeovers = s.takeovers :=
  (State.logOut_keeps rfl (Keeps.refl 0x4000000000 s)).same .takeovers rfl
@[simp] theorem State.logOut_rinds (s : State) (c : FaultClass) (ctrl dp : Nat) (outs : List (Output × Nat)) (data : List Byte) : (s.logOut c ctrl dp outs data).rinds = s.rinds :=
  (State.logOut_keeps rfl (Keeps.refl 0x4000000000 s)).same .rinds rfl
@[simp] theorem State.logOut_queues (s : State) (c : FaultClass) (ctrl dp : Nat) (outs : List (Output × Nat)) (data : List Byte) : (s.logOut c ctrl dp outs data).queues = s.queues :=
  (State.logOut_keeps rfl (Keeps.refl 0x4000000000 s)).same .queues rfl
@[simp] theorem State.logOut_pair (s : State) (c : FaultClass) (ctrl dp : Nat) (outs : List (Output × Nat)) (data : List Byte) : (s.logOut c ctrl dp outs data).pair = s.pair :=
  (State.logOut_keeps rfl (Keeps.refl 0x4000000000 s)).same .pair rfl
@[simp] theorem State.logOut_heads (s : State) (c : FaultClass) (ctrl dp : Nat) (outs : List (Output × Nat)) (data : List Byte) : (s.logOut c ctrl dp outs data).heads = s.heads :=
  (State.logOut_keeps rfl (Keeps.refl 0x4000000000 s)).same .heads rfl
@[simp] theorem State.logOut_readers (s : State) (c : FaultClass) (ctrl dp : Nat) (outs : List (Output × Nat)) (data : List Byte) : (s.logOut c ctrl dp outs data).readers = s.readers :=
  (State.logOut_keeps rfl (Keeps.refl 0x4000000000 s)).same .readers rfl
@[simp] theorem State.logOut_scalers (s : State) (c : FaultClass) (ctrl dp : Nat) (outs : List (Output × Nat)) (data : List Byte) : (s.logOut c ctrl dp outs data).scalers = s.scalers :=
  (State.logOut_keeps rfl (Keeps.refl 0x4000000000 s)).same .scalers rfl
@[simp] theorem State.logOut_audio (s : State) (c : FaultClass) (ctrl dp : Nat) (outs : List (Output × Nat)) (data : List Byte) : (s.logOut c ctrl dp outs data).audio = s.audio :=
  (State.logOut_keeps rfl (Keeps.refl 0x4000000000 s)).same .audio rfl
@[simp] theorem State.logOut_memory (s : State) (c : FaultClass) (ctrl dp : Nat) (outs : List (Output × Nat)) (data : List Byte) : (s.logOut c ctrl dp outs data).memory = s.memory :=
  (State.logOut_keeps rfl (Keeps.refl 0x4000000000 s)).same .memory rfl
@[simp] theorem State.logOut_recorder (s : State) (c : FaultClass) (ctrl dp : Nat) (outs : List (Output × Nat)) (data : List Byte) : (s.logOut c ctrl dp outs data).recorder = s.recorder :=
  (State.logOut_keeps rfl (Keeps.refl 0x4000000000 s)).same .recorder rfl
@[simp] theorem State.logOut_cores (s : State) (c : FaultClass) (ctrl dp : Nat) (outs : List (Output × Nat)) (data : List Byte) : (s.logOut c ctrl dp outs data).cores = s.cores :=
  (State.logOut_keeps rfl (Keeps.refl 0x4000000000 s)).same .cores rfl
@[simp] theorem State.logOut_mdp (s : State) (c : FaultClass) (ctrl dp : Nat) (outs : List (Output × Nat)) (data : List Byte) : (s.logOut c ctrl dp outs data).mdp = s.mdp :=
  (State.logOut_keeps rfl (Keeps.refl 0x4000000000 s)).same .mdp rfl
@[simp] theorem State.logOut_hull (s : State) (c : FaultClass) (ctrl dp : Nat) (outs : List (Output × Nat)) (data : List Byte) : (s.logOut c ctrl dp outs data).hull = s.hull :=
  (State.logOut_keeps rfl (Keeps.refl 0x4000000000 s)).same .hull rfl
@[simp] theorem State.logOut_startup (s : State) (c : FaultClass) (ctrl dp : Nat) (outs : List (Output × Nat)) (data : List Byte) : (s.logOut c ctrl dp outs data).startup = s.startup :=
  (State.logOut_keeps rfl (Keeps.refl 0x4000000000 s)).same .startup rfl
@[simp] theorem State.logOut_pending (s : State) (c : FaultClass) (ctrl dp : Nat) (outs : List (Output × Nat)) (data : List Byte) : (s.logOut c ctrl dp outs data).pending = s.pending :=
  (State.logOut_keeps rfl (Keeps.refl 0x4000000000 s)).pending

@[simp] theorem State.logData_regs (s : State) (c : FaultClass) (ctrl dp : Nat) (data : List Byte) : (s.logData c ctrl dp data).regs = s.regs :=
  (State.logData_keeps rfl (Keeps.refl 0x4000000000 s)).same .regs rfl
@[simp] theorem State.logData_latches (s : State) (c : FaultClass) (ctrl dp : Nat) (data : List Byte) : (s.logData c ctrl dp data).latches = s.latches :=
  (State.logData_keeps rfl (Keeps.refl 0x4000000000 s)).same .latches rfl
@[simp] theorem State.logData_setNow (s : State) (c : FaultClass) (ctrl dp : Nat) (data : List Byte) : (s.logData c ctrl dp data).setNow = s.setNow :=
  (State.logData_keeps rfl (Keeps.refl 0x4000000000 s)).same .setNow rfl
@[simp] theorem State.logData_mem (s : State) (c : FaultClass) (ctrl dp : Nat) (data : List Byte) : (s.logData c ctrl dp data).mem = s.mem :=
  (State.logData_keeps rfl (Keeps.refl 0x4000000000 s)).same .mem rfl
@[simp] theorem State.logData_readValue (s : State) (c : FaultClass) (ctrl dp : Nat) (data : List Byte) : (s.logData c ctrl dp data).readValue = s.readValue :=
  (State.logData_keeps rfl (Keeps.refl 0x4000000000 s)).same .readValue rfl
@[simp] theorem State.logData_wire (s : State) (c : FaultClass) (ctrl dp : Nat) (data : List Byte) : (s.logData c ctrl dp data).wire = s.wire :=
  (State.logData_keeps rfl (Keeps.refl 0x4000000000 s)).same .wire rfl
@[simp] theorem State.logData_fresh (s : State) (c : FaultClass) (ctrl dp : Nat) (data : List Byte) : (s.logData c ctrl dp data).fresh = s.fresh :=
  (State.logData_keeps rfl (Keeps.refl 0x4000000000 s)).same .fresh rfl
@[simp] theorem State.logData_clock (s : State) (c : FaultClass) (ctrl dp : Nat) (data : List Byte) : (s.logData c ctrl dp data).clock = s.clock :=
  (State.logData_keeps rfl (Keeps.refl 0x4000000000 s)).same .clock rfl
@[simp] theorem State.logData_servo (s : State) (c : FaultClass) (ctrl dp : Nat) (data : List Byte) : (s.logData c ctrl dp data).servo = s.servo :=
  (State.logData_keeps rfl (Keeps.refl 0x4000000000 s)).same .servo rfl
@[simp] theorem State.logData_ptp (s : State) (c : FaultClass) (ctrl dp : Nat) (data : List Byte) : (s.logData c ctrl dp data).ptp = s.ptp :=
  (State.logData_keeps rfl (Keeps.refl 0x4000000000 s)).same .ptp rfl
@[simp] theorem State.logData_refIn (s : State) (c : FaultClass) (ctrl dp : Nat) (data : List Byte) : (s.logData c ctrl dp data).refIn = s.refIn :=
  (State.logData_keeps rfl (Keeps.refl 0x4000000000 s)).same .refIn rfl
@[simp] theorem State.logData_tio (s : State) (c : FaultClass) (ctrl dp : Nat) (data : List Byte) : (s.logData c ctrl dp data).tio = s.tio :=
  (State.logData_keeps rfl (Keeps.refl 0x4000000000 s)).same .tio rfl
@[simp] theorem State.logData_im (s : State) (c : FaultClass) (ctrl dp : Nat) (data : List Byte) : (s.logData c ctrl dp data).im = s.im :=
  (State.logData_keeps rfl (Keeps.refl 0x4000000000 s)).same .im rfl
@[simp] theorem State.logData_commits (s : State) (c : FaultClass) (ctrl dp : Nat) (data : List Byte) : (s.logData c ctrl dp data).commits = s.commits :=
  (State.logData_keeps rfl (Keeps.refl 0x4000000000 s)).same .commits rfl
@[simp] theorem State.logData_roll (s : State) (c : FaultClass) (ctrl dp : Nat) (data : List Byte) : (s.logData c ctrl dp data).roll = s.roll :=
  (State.logData_keeps rfl (Keeps.refl 0x4000000000 s)).same .roll rfl
@[simp] theorem State.logData_tiles (s : State) (c : FaultClass) (ctrl dp : Nat) (data : List Byte) : (s.logData c ctrl dp data).tiles = s.tiles :=
  (State.logData_keeps rfl (Keeps.refl 0x4000000000 s)).same .tiles rfl
@[simp] theorem State.logData_config (s : State) (c : FaultClass) (ctrl dp : Nat) (data : List Byte) : (s.logData c ctrl dp data).config = s.config :=
  (State.logData_keeps rfl (Keeps.refl 0x4000000000 s)).same .config rfl
@[simp] theorem State.logData_lanes (s : State) (c : FaultClass) (ctrl dp : Nat) (data : List Byte) : (s.logData c ctrl dp data).lanes = s.lanes :=
  (State.logData_keeps rfl (Keeps.refl 0x4000000000 s)).same .lanes rfl
@[simp] theorem State.logData_ports (s : State) (c : FaultClass) (ctrl dp : Nat) (data : List Byte) : (s.logData c ctrl dp data).ports = s.ports :=
  (State.logData_keeps rfl (Keeps.refl 0x4000000000 s)).same .ports rfl
@[simp] theorem State.logData_optics (s : State) (c : FaultClass) (ctrl dp : Nat) (data : List Byte) : (s.logData c ctrl dp data).optics = s.optics :=
  (State.logData_keeps rfl (Keeps.refl 0x4000000000 s)).same .optics rfl
@[simp] theorem State.logData_ft (s : State) (c : FaultClass) (ctrl dp : Nat) (data : List Byte) : (s.logData c ctrl dp data).ft = s.ft :=
  (State.logData_keeps rfl (Keeps.refl 0x4000000000 s)).same .ft rfl
@[simp] theorem State.logData_chanIn (s : State) (c : FaultClass) (ctrl dp : Nat) (data : List Byte) : (s.logData c ctrl dp data).chanIn = s.chanIn :=
  (State.logData_keeps rfl (Keeps.refl 0x4000000000 s)).same .chanIn rfl
@[simp] theorem State.logData_surfaces (s : State) (c : FaultClass) (ctrl dp : Nat) (data : List Byte) : (s.logData c ctrl dp data).surfaces = s.surfaces :=
  (State.logData_keeps rfl (Keeps.refl 0x4000000000 s)).same .surfaces rfl
@[simp] theorem State.logData_chans (s : State) (c : FaultClass) (ctrl dp : Nat) (data : List Byte) : (s.logData c ctrl dp data).chans = s.chans :=
  (State.logData_keeps rfl (Keeps.refl 0x4000000000 s)).same .chans rfl
@[simp] theorem State.logData_coders (s : State) (c : FaultClass) (ctrl dp : Nat) (data : List Byte) : (s.logData c ctrl dp data).coders = s.coders :=
  (State.logData_keeps rfl (Keeps.refl 0x4000000000 s)).same .coders rfl
@[simp] theorem State.logData_takeovers (s : State) (c : FaultClass) (ctrl dp : Nat) (data : List Byte) : (s.logData c ctrl dp data).takeovers = s.takeovers :=
  (State.logData_keeps rfl (Keeps.refl 0x4000000000 s)).same .takeovers rfl
@[simp] theorem State.logData_rinds (s : State) (c : FaultClass) (ctrl dp : Nat) (data : List Byte) : (s.logData c ctrl dp data).rinds = s.rinds :=
  (State.logData_keeps rfl (Keeps.refl 0x4000000000 s)).same .rinds rfl
@[simp] theorem State.logData_queues (s : State) (c : FaultClass) (ctrl dp : Nat) (data : List Byte) : (s.logData c ctrl dp data).queues = s.queues :=
  (State.logData_keeps rfl (Keeps.refl 0x4000000000 s)).same .queues rfl
@[simp] theorem State.logData_pair (s : State) (c : FaultClass) (ctrl dp : Nat) (data : List Byte) : (s.logData c ctrl dp data).pair = s.pair :=
  (State.logData_keeps rfl (Keeps.refl 0x4000000000 s)).same .pair rfl
@[simp] theorem State.logData_heads (s : State) (c : FaultClass) (ctrl dp : Nat) (data : List Byte) : (s.logData c ctrl dp data).heads = s.heads :=
  (State.logData_keeps rfl (Keeps.refl 0x4000000000 s)).same .heads rfl
@[simp] theorem State.logData_readers (s : State) (c : FaultClass) (ctrl dp : Nat) (data : List Byte) : (s.logData c ctrl dp data).readers = s.readers :=
  (State.logData_keeps rfl (Keeps.refl 0x4000000000 s)).same .readers rfl
@[simp] theorem State.logData_scalers (s : State) (c : FaultClass) (ctrl dp : Nat) (data : List Byte) : (s.logData c ctrl dp data).scalers = s.scalers :=
  (State.logData_keeps rfl (Keeps.refl 0x4000000000 s)).same .scalers rfl
@[simp] theorem State.logData_audio (s : State) (c : FaultClass) (ctrl dp : Nat) (data : List Byte) : (s.logData c ctrl dp data).audio = s.audio :=
  (State.logData_keeps rfl (Keeps.refl 0x4000000000 s)).same .audio rfl
@[simp] theorem State.logData_memory (s : State) (c : FaultClass) (ctrl dp : Nat) (data : List Byte) : (s.logData c ctrl dp data).memory = s.memory :=
  (State.logData_keeps rfl (Keeps.refl 0x4000000000 s)).same .memory rfl
@[simp] theorem State.logData_recorder (s : State) (c : FaultClass) (ctrl dp : Nat) (data : List Byte) : (s.logData c ctrl dp data).recorder = s.recorder :=
  (State.logData_keeps rfl (Keeps.refl 0x4000000000 s)).same .recorder rfl
@[simp] theorem State.logData_cores (s : State) (c : FaultClass) (ctrl dp : Nat) (data : List Byte) : (s.logData c ctrl dp data).cores = s.cores :=
  (State.logData_keeps rfl (Keeps.refl 0x4000000000 s)).same .cores rfl
@[simp] theorem State.logData_mdp (s : State) (c : FaultClass) (ctrl dp : Nat) (data : List Byte) : (s.logData c ctrl dp data).mdp = s.mdp :=
  (State.logData_keeps rfl (Keeps.refl 0x4000000000 s)).same .mdp rfl
@[simp] theorem State.logData_hull (s : State) (c : FaultClass) (ctrl dp : Nat) (data : List Byte) : (s.logData c ctrl dp data).hull = s.hull :=
  (State.logData_keeps rfl (Keeps.refl 0x4000000000 s)).same .hull rfl
@[simp] theorem State.logData_startup (s : State) (c : FaultClass) (ctrl dp : Nat) (data : List Byte) : (s.logData c ctrl dp data).startup = s.startup :=
  (State.logData_keeps rfl (Keeps.refl 0x4000000000 s)).same .startup rfl
@[simp] theorem State.logData_pending (s : State) (c : FaultClass) (ctrl dp : Nat) (data : List Byte) : (s.logData c ctrl dp data).pending = s.pending :=
  (State.logData_keeps rfl (Keeps.refl 0x4000000000 s)).pending

@[simp] theorem State.irqCount_latches (s : State) (n : Nat) : (s.irqCount n).latches = s.latches :=
  (State.irqCount_keeps rfl (Keeps.refl 0x4800000001 s)).same .latches rfl
@[simp] theorem State.irqCount_setNow (s : State) (n : Nat) : (s.irqCount n).setNow = s.setNow :=
  (State.irqCount_keeps rfl (Keeps.refl 0x4800000001 s)).same .setNow rfl
@[simp] theorem State.irqCount_mem (s : State) (n : Nat) : (s.irqCount n).mem = s.mem :=
  (State.irqCount_keeps rfl (Keeps.refl 0x4800000001 s)).same .mem rfl
@[simp] theorem State.irqCount_readValue (s : State) (n : Nat) : (s.irqCount n).readValue = s.readValue :=
  (State.irqCount_keeps rfl (Keeps.refl 0x4800000001 s)).same .readValue rfl
@[simp] theorem State.irqCount_wire (s : State) (n : Nat) : (s.irqCount n).wire = s.wire :=
  (State.irqCount_keeps rfl (Keeps.refl 0x4800000001 s)).same .wire rfl
@[simp] theorem State.irqCount_fresh (s : State) (n : Nat) : (s.irqCount n).fresh = s.fresh :=
  (State.irqCount_keeps rfl (Keeps.refl 0x4800000001 s)).same .fresh rfl
@[simp] theorem State.irqCount_clock (s : State) (n : Nat) : (s.irqCount n).clock = s.clock :=
  (State.irqCount_keeps rfl (Keeps.refl 0x4800000001 s)).same .clock rfl
@[simp] theorem State.irqCount_servo (s : State) (n : Nat) : (s.irqCount n).servo = s.servo :=
  (State.irqCount_keeps rfl (Keeps.refl 0x4800000001 s)).same .servo rfl
@[simp] theorem State.irqCount_ptp (s : State) (n : Nat) : (s.irqCount n).ptp = s.ptp :=
  (State.irqCount_keeps rfl (Keeps.refl 0x4800000001 s)).same .ptp rfl
@[simp] theorem State.irqCount_refIn (s : State) (n : Nat) : (s.irqCount n).refIn = s.refIn :=
  (State.irqCount_keeps rfl (Keeps.refl 0x4800000001 s)).same .refIn rfl
@[simp] theorem State.irqCount_tio (s : State) (n : Nat) : (s.irqCount n).tio = s.tio :=
  (State.irqCount_keeps rfl (Keeps.refl 0x4800000001 s)).same .tio rfl
@[simp] theorem State.irqCount_im (s : State) (n : Nat) : (s.irqCount n).im = s.im :=
  (State.irqCount_keeps rfl (Keeps.refl 0x4800000001 s)).same .im rfl
@[simp] theorem State.irqCount_commits (s : State) (n : Nat) : (s.irqCount n).commits = s.commits :=
  (State.irqCount_keeps rfl (Keeps.refl 0x4800000001 s)).same .commits rfl
@[simp] theorem State.irqCount_roll (s : State) (n : Nat) : (s.irqCount n).roll = s.roll :=
  (State.irqCount_keeps rfl (Keeps.refl 0x4800000001 s)).same .roll rfl
@[simp] theorem State.irqCount_tiles (s : State) (n : Nat) : (s.irqCount n).tiles = s.tiles :=
  (State.irqCount_keeps rfl (Keeps.refl 0x4800000001 s)).same .tiles rfl
@[simp] theorem State.irqCount_config (s : State) (n : Nat) : (s.irqCount n).config = s.config :=
  (State.irqCount_keeps rfl (Keeps.refl 0x4800000001 s)).same .config rfl
@[simp] theorem State.irqCount_lanes (s : State) (n : Nat) : (s.irqCount n).lanes = s.lanes :=
  (State.irqCount_keeps rfl (Keeps.refl 0x4800000001 s)).same .lanes rfl
@[simp] theorem State.irqCount_ports (s : State) (n : Nat) : (s.irqCount n).ports = s.ports :=
  (State.irqCount_keeps rfl (Keeps.refl 0x4800000001 s)).same .ports rfl
@[simp] theorem State.irqCount_optics (s : State) (n : Nat) : (s.irqCount n).optics = s.optics :=
  (State.irqCount_keeps rfl (Keeps.refl 0x4800000001 s)).same .optics rfl
@[simp] theorem State.irqCount_ft (s : State) (n : Nat) : (s.irqCount n).ft = s.ft :=
  (State.irqCount_keeps rfl (Keeps.refl 0x4800000001 s)).same .ft rfl
@[simp] theorem State.irqCount_chanIn (s : State) (n : Nat) : (s.irqCount n).chanIn = s.chanIn :=
  (State.irqCount_keeps rfl (Keeps.refl 0x4800000001 s)).same .chanIn rfl
@[simp] theorem State.irqCount_surfaces (s : State) (n : Nat) : (s.irqCount n).surfaces = s.surfaces :=
  (State.irqCount_keeps rfl (Keeps.refl 0x4800000001 s)).same .surfaces rfl
@[simp] theorem State.irqCount_chans (s : State) (n : Nat) : (s.irqCount n).chans = s.chans :=
  (State.irqCount_keeps rfl (Keeps.refl 0x4800000001 s)).same .chans rfl
@[simp] theorem State.irqCount_coders (s : State) (n : Nat) : (s.irqCount n).coders = s.coders :=
  (State.irqCount_keeps rfl (Keeps.refl 0x4800000001 s)).same .coders rfl
@[simp] theorem State.irqCount_takeovers (s : State) (n : Nat) : (s.irqCount n).takeovers = s.takeovers :=
  (State.irqCount_keeps rfl (Keeps.refl 0x4800000001 s)).same .takeovers rfl
@[simp] theorem State.irqCount_rinds (s : State) (n : Nat) : (s.irqCount n).rinds = s.rinds :=
  (State.irqCount_keeps rfl (Keeps.refl 0x4800000001 s)).same .rinds rfl
@[simp] theorem State.irqCount_queues (s : State) (n : Nat) : (s.irqCount n).queues = s.queues :=
  (State.irqCount_keeps rfl (Keeps.refl 0x4800000001 s)).same .queues rfl
@[simp] theorem State.irqCount_pair (s : State) (n : Nat) : (s.irqCount n).pair = s.pair :=
  (State.irqCount_keeps rfl (Keeps.refl 0x4800000001 s)).same .pair rfl
@[simp] theorem State.irqCount_heads (s : State) (n : Nat) : (s.irqCount n).heads = s.heads :=
  (State.irqCount_keeps rfl (Keeps.refl 0x4800000001 s)).same .heads rfl
@[simp] theorem State.irqCount_readers (s : State) (n : Nat) : (s.irqCount n).readers = s.readers :=
  (State.irqCount_keeps rfl (Keeps.refl 0x4800000001 s)).same .readers rfl
@[simp] theorem State.irqCount_scalers (s : State) (n : Nat) : (s.irqCount n).scalers = s.scalers :=
  (State.irqCount_keeps rfl (Keeps.refl 0x4800000001 s)).same .scalers rfl
@[simp] theorem State.irqCount_audio (s : State) (n : Nat) : (s.irqCount n).audio = s.audio :=
  (State.irqCount_keeps rfl (Keeps.refl 0x4800000001 s)).same .audio rfl
@[simp] theorem State.irqCount_memory (s : State) (n : Nat) : (s.irqCount n).memory = s.memory :=
  (State.irqCount_keeps rfl (Keeps.refl 0x4800000001 s)).same .memory rfl
@[simp] theorem State.irqCount_recorder (s : State) (n : Nat) : (s.irqCount n).recorder = s.recorder :=
  (State.irqCount_keeps rfl (Keeps.refl 0x4800000001 s)).same .recorder rfl
@[simp] theorem State.irqCount_mdp (s : State) (n : Nat) : (s.irqCount n).mdp = s.mdp :=
  (State.irqCount_keeps rfl (Keeps.refl 0x4800000001 s)).same .mdp rfl
@[simp] theorem State.irqCount_hull (s : State) (n : Nat) : (s.irqCount n).hull = s.hull :=
  (State.irqCount_keeps rfl (Keeps.refl 0x4800000001 s)).same .hull rfl
@[simp] theorem State.irqCount_startup (s : State) (n : Nat) : (s.irqCount n).startup = s.startup :=
  (State.irqCount_keeps rfl (Keeps.refl 0x4800000001 s)).same .startup rfl
@[simp] theorem State.irqCount_pending (s : State) (n : Nat) : (s.irqCount n).pending = s.pending :=
  (State.irqCount_keeps rfl (Keeps.refl 0x4800000001 s)).pending

@[simp] theorem State.event_latches (s : State) (events mask : Nat) : (s.event events mask).latches = s.latches :=
  (State.event_keeps rfl (Keeps.refl 0x4800000005 s)).same .latches rfl
@[simp] theorem State.event_mem (s : State) (events mask : Nat) : (s.event events mask).mem = s.mem :=
  (State.event_keeps rfl (Keeps.refl 0x4800000005 s)).same .mem rfl
@[simp] theorem State.event_readValue (s : State) (events mask : Nat) : (s.event events mask).readValue = s.readValue :=
  (State.event_keeps rfl (Keeps.refl 0x4800000005 s)).same .readValue rfl
@[simp] theorem State.event_wire (s : State) (events mask : Nat) : (s.event events mask).wire = s.wire :=
  (State.event_keeps rfl (Keeps.refl 0x4800000005 s)).same .wire rfl
@[simp] theorem State.event_fresh (s : State) (events mask : Nat) : (s.event events mask).fresh = s.fresh :=
  (State.event_keeps rfl (Keeps.refl 0x4800000005 s)).same .fresh rfl
@[simp] theorem State.event_clock (s : State) (events mask : Nat) : (s.event events mask).clock = s.clock :=
  (State.event_keeps rfl (Keeps.refl 0x4800000005 s)).same .clock rfl
@[simp] theorem State.event_servo (s : State) (events mask : Nat) : (s.event events mask).servo = s.servo :=
  (State.event_keeps rfl (Keeps.refl 0x4800000005 s)).same .servo rfl
@[simp] theorem State.event_ptp (s : State) (events mask : Nat) : (s.event events mask).ptp = s.ptp :=
  (State.event_keeps rfl (Keeps.refl 0x4800000005 s)).same .ptp rfl
@[simp] theorem State.event_refIn (s : State) (events mask : Nat) : (s.event events mask).refIn = s.refIn :=
  (State.event_keeps rfl (Keeps.refl 0x4800000005 s)).same .refIn rfl
@[simp] theorem State.event_tio (s : State) (events mask : Nat) : (s.event events mask).tio = s.tio :=
  (State.event_keeps rfl (Keeps.refl 0x4800000005 s)).same .tio rfl
@[simp] theorem State.event_im (s : State) (events mask : Nat) : (s.event events mask).im = s.im :=
  (State.event_keeps rfl (Keeps.refl 0x4800000005 s)).same .im rfl
@[simp] theorem State.event_commits (s : State) (events mask : Nat) : (s.event events mask).commits = s.commits :=
  (State.event_keeps rfl (Keeps.refl 0x4800000005 s)).same .commits rfl
@[simp] theorem State.event_roll (s : State) (events mask : Nat) : (s.event events mask).roll = s.roll :=
  (State.event_keeps rfl (Keeps.refl 0x4800000005 s)).same .roll rfl
@[simp] theorem State.event_tiles (s : State) (events mask : Nat) : (s.event events mask).tiles = s.tiles :=
  (State.event_keeps rfl (Keeps.refl 0x4800000005 s)).same .tiles rfl
@[simp] theorem State.event_config (s : State) (events mask : Nat) : (s.event events mask).config = s.config :=
  (State.event_keeps rfl (Keeps.refl 0x4800000005 s)).same .config rfl
@[simp] theorem State.event_lanes (s : State) (events mask : Nat) : (s.event events mask).lanes = s.lanes :=
  (State.event_keeps rfl (Keeps.refl 0x4800000005 s)).same .lanes rfl
@[simp] theorem State.event_ports (s : State) (events mask : Nat) : (s.event events mask).ports = s.ports :=
  (State.event_keeps rfl (Keeps.refl 0x4800000005 s)).same .ports rfl
@[simp] theorem State.event_optics (s : State) (events mask : Nat) : (s.event events mask).optics = s.optics :=
  (State.event_keeps rfl (Keeps.refl 0x4800000005 s)).same .optics rfl
@[simp] theorem State.event_ft (s : State) (events mask : Nat) : (s.event events mask).ft = s.ft :=
  (State.event_keeps rfl (Keeps.refl 0x4800000005 s)).same .ft rfl
@[simp] theorem State.event_chanIn (s : State) (events mask : Nat) : (s.event events mask).chanIn = s.chanIn :=
  (State.event_keeps rfl (Keeps.refl 0x4800000005 s)).same .chanIn rfl
@[simp] theorem State.event_surfaces (s : State) (events mask : Nat) : (s.event events mask).surfaces = s.surfaces :=
  (State.event_keeps rfl (Keeps.refl 0x4800000005 s)).same .surfaces rfl
@[simp] theorem State.event_chans (s : State) (events mask : Nat) : (s.event events mask).chans = s.chans :=
  (State.event_keeps rfl (Keeps.refl 0x4800000005 s)).same .chans rfl
@[simp] theorem State.event_coders (s : State) (events mask : Nat) : (s.event events mask).coders = s.coders :=
  (State.event_keeps rfl (Keeps.refl 0x4800000005 s)).same .coders rfl
@[simp] theorem State.event_takeovers (s : State) (events mask : Nat) : (s.event events mask).takeovers = s.takeovers :=
  (State.event_keeps rfl (Keeps.refl 0x4800000005 s)).same .takeovers rfl
@[simp] theorem State.event_rinds (s : State) (events mask : Nat) : (s.event events mask).rinds = s.rinds :=
  (State.event_keeps rfl (Keeps.refl 0x4800000005 s)).same .rinds rfl
@[simp] theorem State.event_queues (s : State) (events mask : Nat) : (s.event events mask).queues = s.queues :=
  (State.event_keeps rfl (Keeps.refl 0x4800000005 s)).same .queues rfl
@[simp] theorem State.event_pair (s : State) (events mask : Nat) : (s.event events mask).pair = s.pair :=
  (State.event_keeps rfl (Keeps.refl 0x4800000005 s)).same .pair rfl
@[simp] theorem State.event_heads (s : State) (events mask : Nat) : (s.event events mask).heads = s.heads :=
  (State.event_keeps rfl (Keeps.refl 0x4800000005 s)).same .heads rfl
@[simp] theorem State.event_readers (s : State) (events mask : Nat) : (s.event events mask).readers = s.readers :=
  (State.event_keeps rfl (Keeps.refl 0x4800000005 s)).same .readers rfl
@[simp] theorem State.event_scalers (s : State) (events mask : Nat) : (s.event events mask).scalers = s.scalers :=
  (State.event_keeps rfl (Keeps.refl 0x4800000005 s)).same .scalers rfl
@[simp] theorem State.event_audio (s : State) (events mask : Nat) : (s.event events mask).audio = s.audio :=
  (State.event_keeps rfl (Keeps.refl 0x4800000005 s)).same .audio rfl
@[simp] theorem State.event_memory (s : State) (events mask : Nat) : (s.event events mask).memory = s.memory :=
  (State.event_keeps rfl (Keeps.refl 0x4800000005 s)).same .memory rfl
@[simp] theorem State.event_recorder (s : State) (events mask : Nat) : (s.event events mask).recorder = s.recorder :=
  (State.event_keeps rfl (Keeps.refl 0x4800000005 s)).same .recorder rfl
@[simp] theorem State.event_mdp (s : State) (events mask : Nat) : (s.event events mask).mdp = s.mdp :=
  (State.event_keeps rfl (Keeps.refl 0x4800000005 s)).same .mdp rfl
@[simp] theorem State.event_hull (s : State) (events mask : Nat) : (s.event events mask).hull = s.hull :=
  (State.event_keeps rfl (Keeps.refl 0x4800000005 s)).same .hull rfl
@[simp] theorem State.event_startup (s : State) (events mask : Nat) : (s.event events mask).startup = s.startup :=
  (State.event_keeps rfl (Keeps.refl 0x4800000005 s)).same .startup rfl
@[simp] theorem State.event_pending (s : State) (events mask : Nat) : (s.event events mask).pending = s.pending :=
  (State.event_keeps rfl (Keeps.refl 0x4800000005 s)).pending

@[simp] theorem State.eventClear_latches (s : State) (events : Nat) (ones : Word) : (s.eventClear events ones).latches = s.latches :=
  (State.eventClear_keeps rfl (Keeps.refl 0x1 s)).same .latches rfl
@[simp] theorem State.eventClear_setNow (s : State) (events : Nat) (ones : Word) : (s.eventClear events ones).setNow = s.setNow :=
  (State.eventClear_keeps rfl (Keeps.refl 0x1 s)).same .setNow rfl
@[simp] theorem State.eventClear_mem (s : State) (events : Nat) (ones : Word) : (s.eventClear events ones).mem = s.mem :=
  (State.eventClear_keeps rfl (Keeps.refl 0x1 s)).same .mem rfl
@[simp] theorem State.eventClear_readValue (s : State) (events : Nat) (ones : Word) : (s.eventClear events ones).readValue = s.readValue :=
  (State.eventClear_keeps rfl (Keeps.refl 0x1 s)).same .readValue rfl
@[simp] theorem State.eventClear_wire (s : State) (events : Nat) (ones : Word) : (s.eventClear events ones).wire = s.wire :=
  (State.eventClear_keeps rfl (Keeps.refl 0x1 s)).same .wire rfl
@[simp] theorem State.eventClear_fresh (s : State) (events : Nat) (ones : Word) : (s.eventClear events ones).fresh = s.fresh :=
  (State.eventClear_keeps rfl (Keeps.refl 0x1 s)).same .fresh rfl
@[simp] theorem State.eventClear_clock (s : State) (events : Nat) (ones : Word) : (s.eventClear events ones).clock = s.clock :=
  (State.eventClear_keeps rfl (Keeps.refl 0x1 s)).same .clock rfl
@[simp] theorem State.eventClear_servo (s : State) (events : Nat) (ones : Word) : (s.eventClear events ones).servo = s.servo :=
  (State.eventClear_keeps rfl (Keeps.refl 0x1 s)).same .servo rfl
@[simp] theorem State.eventClear_ptp (s : State) (events : Nat) (ones : Word) : (s.eventClear events ones).ptp = s.ptp :=
  (State.eventClear_keeps rfl (Keeps.refl 0x1 s)).same .ptp rfl
@[simp] theorem State.eventClear_refIn (s : State) (events : Nat) (ones : Word) : (s.eventClear events ones).refIn = s.refIn :=
  (State.eventClear_keeps rfl (Keeps.refl 0x1 s)).same .refIn rfl
@[simp] theorem State.eventClear_tio (s : State) (events : Nat) (ones : Word) : (s.eventClear events ones).tio = s.tio :=
  (State.eventClear_keeps rfl (Keeps.refl 0x1 s)).same .tio rfl
@[simp] theorem State.eventClear_im (s : State) (events : Nat) (ones : Word) : (s.eventClear events ones).im = s.im :=
  (State.eventClear_keeps rfl (Keeps.refl 0x1 s)).same .im rfl
@[simp] theorem State.eventClear_commits (s : State) (events : Nat) (ones : Word) : (s.eventClear events ones).commits = s.commits :=
  (State.eventClear_keeps rfl (Keeps.refl 0x1 s)).same .commits rfl
@[simp] theorem State.eventClear_roll (s : State) (events : Nat) (ones : Word) : (s.eventClear events ones).roll = s.roll :=
  (State.eventClear_keeps rfl (Keeps.refl 0x1 s)).same .roll rfl
@[simp] theorem State.eventClear_tiles (s : State) (events : Nat) (ones : Word) : (s.eventClear events ones).tiles = s.tiles :=
  (State.eventClear_keeps rfl (Keeps.refl 0x1 s)).same .tiles rfl
@[simp] theorem State.eventClear_config (s : State) (events : Nat) (ones : Word) : (s.eventClear events ones).config = s.config :=
  (State.eventClear_keeps rfl (Keeps.refl 0x1 s)).same .config rfl
@[simp] theorem State.eventClear_lanes (s : State) (events : Nat) (ones : Word) : (s.eventClear events ones).lanes = s.lanes :=
  (State.eventClear_keeps rfl (Keeps.refl 0x1 s)).same .lanes rfl
@[simp] theorem State.eventClear_ports (s : State) (events : Nat) (ones : Word) : (s.eventClear events ones).ports = s.ports :=
  (State.eventClear_keeps rfl (Keeps.refl 0x1 s)).same .ports rfl
@[simp] theorem State.eventClear_optics (s : State) (events : Nat) (ones : Word) : (s.eventClear events ones).optics = s.optics :=
  (State.eventClear_keeps rfl (Keeps.refl 0x1 s)).same .optics rfl
@[simp] theorem State.eventClear_ft (s : State) (events : Nat) (ones : Word) : (s.eventClear events ones).ft = s.ft :=
  (State.eventClear_keeps rfl (Keeps.refl 0x1 s)).same .ft rfl
@[simp] theorem State.eventClear_chanIn (s : State) (events : Nat) (ones : Word) : (s.eventClear events ones).chanIn = s.chanIn :=
  (State.eventClear_keeps rfl (Keeps.refl 0x1 s)).same .chanIn rfl
@[simp] theorem State.eventClear_surfaces (s : State) (events : Nat) (ones : Word) : (s.eventClear events ones).surfaces = s.surfaces :=
  (State.eventClear_keeps rfl (Keeps.refl 0x1 s)).same .surfaces rfl
@[simp] theorem State.eventClear_chans (s : State) (events : Nat) (ones : Word) : (s.eventClear events ones).chans = s.chans :=
  (State.eventClear_keeps rfl (Keeps.refl 0x1 s)).same .chans rfl
@[simp] theorem State.eventClear_coders (s : State) (events : Nat) (ones : Word) : (s.eventClear events ones).coders = s.coders :=
  (State.eventClear_keeps rfl (Keeps.refl 0x1 s)).same .coders rfl
@[simp] theorem State.eventClear_takeovers (s : State) (events : Nat) (ones : Word) : (s.eventClear events ones).takeovers = s.takeovers :=
  (State.eventClear_keeps rfl (Keeps.refl 0x1 s)).same .takeovers rfl
@[simp] theorem State.eventClear_rinds (s : State) (events : Nat) (ones : Word) : (s.eventClear events ones).rinds = s.rinds :=
  (State.eventClear_keeps rfl (Keeps.refl 0x1 s)).same .rinds rfl
@[simp] theorem State.eventClear_queues (s : State) (events : Nat) (ones : Word) : (s.eventClear events ones).queues = s.queues :=
  (State.eventClear_keeps rfl (Keeps.refl 0x1 s)).same .queues rfl
@[simp] theorem State.eventClear_pair (s : State) (events : Nat) (ones : Word) : (s.eventClear events ones).pair = s.pair :=
  (State.eventClear_keeps rfl (Keeps.refl 0x1 s)).same .pair rfl
@[simp] theorem State.eventClear_heads (s : State) (events : Nat) (ones : Word) : (s.eventClear events ones).heads = s.heads :=
  (State.eventClear_keeps rfl (Keeps.refl 0x1 s)).same .heads rfl
@[simp] theorem State.eventClear_readers (s : State) (events : Nat) (ones : Word) : (s.eventClear events ones).readers = s.readers :=
  (State.eventClear_keeps rfl (Keeps.refl 0x1 s)).same .readers rfl
@[simp] theorem State.eventClear_scalers (s : State) (events : Nat) (ones : Word) : (s.eventClear events ones).scalers = s.scalers :=
  (State.eventClear_keeps rfl (Keeps.refl 0x1 s)).same .scalers rfl
@[simp] theorem State.eventClear_audio (s : State) (events : Nat) (ones : Word) : (s.eventClear events ones).audio = s.audio :=
  (State.eventClear_keeps rfl (Keeps.refl 0x1 s)).same .audio rfl
@[simp] theorem State.eventClear_memory (s : State) (events : Nat) (ones : Word) : (s.eventClear events ones).memory = s.memory :=
  (State.eventClear_keeps rfl (Keeps.refl 0x1 s)).same .memory rfl
@[simp] theorem State.eventClear_recorder (s : State) (events : Nat) (ones : Word) : (s.eventClear events ones).recorder = s.recorder :=
  (State.eventClear_keeps rfl (Keeps.refl 0x1 s)).same .recorder rfl
@[simp] theorem State.eventClear_cores (s : State) (events : Nat) (ones : Word) : (s.eventClear events ones).cores = s.cores :=
  (State.eventClear_keeps rfl (Keeps.refl 0x1 s)).same .cores rfl
@[simp] theorem State.eventClear_mdp (s : State) (events : Nat) (ones : Word) : (s.eventClear events ones).mdp = s.mdp :=
  (State.eventClear_keeps rfl (Keeps.refl 0x1 s)).same .mdp rfl
@[simp] theorem State.eventClear_hull (s : State) (events : Nat) (ones : Word) : (s.eventClear events ones).hull = s.hull :=
  (State.eventClear_keeps rfl (Keeps.refl 0x1 s)).same .hull rfl
@[simp] theorem State.eventClear_ledger (s : State) (events : Nat) (ones : Word) : (s.eventClear events ones).ledger = s.ledger :=
  (State.eventClear_keeps rfl (Keeps.refl 0x1 s)).same .ledger rfl
@[simp] theorem State.eventClear_startup (s : State) (events : Nat) (ones : Word) : (s.eventClear events ones).startup = s.startup :=
  (State.eventClear_keeps rfl (Keeps.refl 0x1 s)).same .startup rfl
@[simp] theorem State.eventClear_pending (s : State) (events : Nat) (ones : Word) : (s.eventClear events ones).pending = s.pending :=
  (State.eventClear_keeps rfl (Keeps.refl 0x1 s)).pending

@[simp] theorem State.eventEnable_latches (s : State) (enable : Nat) (value : Word) : (s.eventEnable enable value).latches = s.latches :=
  (State.eventEnable_keeps rfl (Keeps.refl 0x4800000001 s)).same .latches rfl
@[simp] theorem State.eventEnable_setNow (s : State) (enable : Nat) (value : Word) : (s.eventEnable enable value).setNow = s.setNow :=
  (State.eventEnable_keeps rfl (Keeps.refl 0x4800000001 s)).same .setNow rfl
@[simp] theorem State.eventEnable_mem (s : State) (enable : Nat) (value : Word) : (s.eventEnable enable value).mem = s.mem :=
  (State.eventEnable_keeps rfl (Keeps.refl 0x4800000001 s)).same .mem rfl
@[simp] theorem State.eventEnable_readValue (s : State) (enable : Nat) (value : Word) : (s.eventEnable enable value).readValue = s.readValue :=
  (State.eventEnable_keeps rfl (Keeps.refl 0x4800000001 s)).same .readValue rfl
@[simp] theorem State.eventEnable_wire (s : State) (enable : Nat) (value : Word) : (s.eventEnable enable value).wire = s.wire :=
  (State.eventEnable_keeps rfl (Keeps.refl 0x4800000001 s)).same .wire rfl
@[simp] theorem State.eventEnable_fresh (s : State) (enable : Nat) (value : Word) : (s.eventEnable enable value).fresh = s.fresh :=
  (State.eventEnable_keeps rfl (Keeps.refl 0x4800000001 s)).same .fresh rfl
@[simp] theorem State.eventEnable_clock (s : State) (enable : Nat) (value : Word) : (s.eventEnable enable value).clock = s.clock :=
  (State.eventEnable_keeps rfl (Keeps.refl 0x4800000001 s)).same .clock rfl
@[simp] theorem State.eventEnable_servo (s : State) (enable : Nat) (value : Word) : (s.eventEnable enable value).servo = s.servo :=
  (State.eventEnable_keeps rfl (Keeps.refl 0x4800000001 s)).same .servo rfl
@[simp] theorem State.eventEnable_ptp (s : State) (enable : Nat) (value : Word) : (s.eventEnable enable value).ptp = s.ptp :=
  (State.eventEnable_keeps rfl (Keeps.refl 0x4800000001 s)).same .ptp rfl
@[simp] theorem State.eventEnable_refIn (s : State) (enable : Nat) (value : Word) : (s.eventEnable enable value).refIn = s.refIn :=
  (State.eventEnable_keeps rfl (Keeps.refl 0x4800000001 s)).same .refIn rfl
@[simp] theorem State.eventEnable_tio (s : State) (enable : Nat) (value : Word) : (s.eventEnable enable value).tio = s.tio :=
  (State.eventEnable_keeps rfl (Keeps.refl 0x4800000001 s)).same .tio rfl
@[simp] theorem State.eventEnable_im (s : State) (enable : Nat) (value : Word) : (s.eventEnable enable value).im = s.im :=
  (State.eventEnable_keeps rfl (Keeps.refl 0x4800000001 s)).same .im rfl
@[simp] theorem State.eventEnable_commits (s : State) (enable : Nat) (value : Word) : (s.eventEnable enable value).commits = s.commits :=
  (State.eventEnable_keeps rfl (Keeps.refl 0x4800000001 s)).same .commits rfl
@[simp] theorem State.eventEnable_roll (s : State) (enable : Nat) (value : Word) : (s.eventEnable enable value).roll = s.roll :=
  (State.eventEnable_keeps rfl (Keeps.refl 0x4800000001 s)).same .roll rfl
@[simp] theorem State.eventEnable_tiles (s : State) (enable : Nat) (value : Word) : (s.eventEnable enable value).tiles = s.tiles :=
  (State.eventEnable_keeps rfl (Keeps.refl 0x4800000001 s)).same .tiles rfl
@[simp] theorem State.eventEnable_config (s : State) (enable : Nat) (value : Word) : (s.eventEnable enable value).config = s.config :=
  (State.eventEnable_keeps rfl (Keeps.refl 0x4800000001 s)).same .config rfl
@[simp] theorem State.eventEnable_lanes (s : State) (enable : Nat) (value : Word) : (s.eventEnable enable value).lanes = s.lanes :=
  (State.eventEnable_keeps rfl (Keeps.refl 0x4800000001 s)).same .lanes rfl
@[simp] theorem State.eventEnable_ports (s : State) (enable : Nat) (value : Word) : (s.eventEnable enable value).ports = s.ports :=
  (State.eventEnable_keeps rfl (Keeps.refl 0x4800000001 s)).same .ports rfl
@[simp] theorem State.eventEnable_optics (s : State) (enable : Nat) (value : Word) : (s.eventEnable enable value).optics = s.optics :=
  (State.eventEnable_keeps rfl (Keeps.refl 0x4800000001 s)).same .optics rfl
@[simp] theorem State.eventEnable_ft (s : State) (enable : Nat) (value : Word) : (s.eventEnable enable value).ft = s.ft :=
  (State.eventEnable_keeps rfl (Keeps.refl 0x4800000001 s)).same .ft rfl
@[simp] theorem State.eventEnable_chanIn (s : State) (enable : Nat) (value : Word) : (s.eventEnable enable value).chanIn = s.chanIn :=
  (State.eventEnable_keeps rfl (Keeps.refl 0x4800000001 s)).same .chanIn rfl
@[simp] theorem State.eventEnable_surfaces (s : State) (enable : Nat) (value : Word) : (s.eventEnable enable value).surfaces = s.surfaces :=
  (State.eventEnable_keeps rfl (Keeps.refl 0x4800000001 s)).same .surfaces rfl
@[simp] theorem State.eventEnable_chans (s : State) (enable : Nat) (value : Word) : (s.eventEnable enable value).chans = s.chans :=
  (State.eventEnable_keeps rfl (Keeps.refl 0x4800000001 s)).same .chans rfl
@[simp] theorem State.eventEnable_coders (s : State) (enable : Nat) (value : Word) : (s.eventEnable enable value).coders = s.coders :=
  (State.eventEnable_keeps rfl (Keeps.refl 0x4800000001 s)).same .coders rfl
@[simp] theorem State.eventEnable_takeovers (s : State) (enable : Nat) (value : Word) : (s.eventEnable enable value).takeovers = s.takeovers :=
  (State.eventEnable_keeps rfl (Keeps.refl 0x4800000001 s)).same .takeovers rfl
@[simp] theorem State.eventEnable_rinds (s : State) (enable : Nat) (value : Word) : (s.eventEnable enable value).rinds = s.rinds :=
  (State.eventEnable_keeps rfl (Keeps.refl 0x4800000001 s)).same .rinds rfl
@[simp] theorem State.eventEnable_queues (s : State) (enable : Nat) (value : Word) : (s.eventEnable enable value).queues = s.queues :=
  (State.eventEnable_keeps rfl (Keeps.refl 0x4800000001 s)).same .queues rfl
@[simp] theorem State.eventEnable_pair (s : State) (enable : Nat) (value : Word) : (s.eventEnable enable value).pair = s.pair :=
  (State.eventEnable_keeps rfl (Keeps.refl 0x4800000001 s)).same .pair rfl
@[simp] theorem State.eventEnable_heads (s : State) (enable : Nat) (value : Word) : (s.eventEnable enable value).heads = s.heads :=
  (State.eventEnable_keeps rfl (Keeps.refl 0x4800000001 s)).same .heads rfl
@[simp] theorem State.eventEnable_readers (s : State) (enable : Nat) (value : Word) : (s.eventEnable enable value).readers = s.readers :=
  (State.eventEnable_keeps rfl (Keeps.refl 0x4800000001 s)).same .readers rfl
@[simp] theorem State.eventEnable_scalers (s : State) (enable : Nat) (value : Word) : (s.eventEnable enable value).scalers = s.scalers :=
  (State.eventEnable_keeps rfl (Keeps.refl 0x4800000001 s)).same .scalers rfl
@[simp] theorem State.eventEnable_audio (s : State) (enable : Nat) (value : Word) : (s.eventEnable enable value).audio = s.audio :=
  (State.eventEnable_keeps rfl (Keeps.refl 0x4800000001 s)).same .audio rfl
@[simp] theorem State.eventEnable_memory (s : State) (enable : Nat) (value : Word) : (s.eventEnable enable value).memory = s.memory :=
  (State.eventEnable_keeps rfl (Keeps.refl 0x4800000001 s)).same .memory rfl
@[simp] theorem State.eventEnable_recorder (s : State) (enable : Nat) (value : Word) : (s.eventEnable enable value).recorder = s.recorder :=
  (State.eventEnable_keeps rfl (Keeps.refl 0x4800000001 s)).same .recorder rfl
@[simp] theorem State.eventEnable_mdp (s : State) (enable : Nat) (value : Word) : (s.eventEnable enable value).mdp = s.mdp :=
  (State.eventEnable_keeps rfl (Keeps.refl 0x4800000001 s)).same .mdp rfl
@[simp] theorem State.eventEnable_hull (s : State) (enable : Nat) (value : Word) : (s.eventEnable enable value).hull = s.hull :=
  (State.eventEnable_keeps rfl (Keeps.refl 0x4800000001 s)).same .hull rfl
@[simp] theorem State.eventEnable_startup (s : State) (enable : Nat) (value : Word) : (s.eventEnable enable value).startup = s.startup :=
  (State.eventEnable_keeps rfl (Keeps.refl 0x4800000001 s)).same .startup rfl
@[simp] theorem State.eventEnable_pending (s : State) (enable : Nat) (value : Word) : (s.eventEnable enable value).pending = s.pending :=
  (State.eventEnable_keeps rfl (Keeps.refl 0x4800000001 s)).pending

@[simp] theorem State.reg_countBy (s : State) (a n b : Nat) :
    (s.countBy a n).reg b = if b = a then w32 (min 0xFFFFFFFF ((s.reg a).toNat + n)) else s.reg b := by
  simp [State.countBy]

@[simp] theorem State.reg_count (s : State) (a b : Nat) :
    (s.count a).reg b = if b = a then w32 (min 0xFFFFFFFF ((s.reg a).toNat + 1)) else s.reg b := by
  simp [State.count]

/-- A ledger entry joins the queue to the intake once D0 runs. -/
theorem State.logEntry_outbox (s : State) (e : Entry) :
    (s.logEntry e).ledger.outbox = if s.running then s.ledger.outbox ++ [e] else s.ledger.outbox := by
  unfold State.logEntry
  split <;> rfl

/-- One event of a source touches no register but SATURATED of the hub. -/
theorem State.reg_irqCount (s : State) (n b : Nat) (h : b ≠ R.hub_SATURATED) : (s.irqCount n).reg b = s.reg b := by
  have arb (s : State) : s.arbitrate.reg b = s.reg b :=
    congrArg (fun m => Sparse.get resetOf m b) ((State.arbitrate_keeps rfl (Keeps.refl 0x800000000 s)).same .regs rfl)
  unfold State.irqCount
  split
  · rfl
  · dsimp only
    repeat' split
    · rw [arb]; rfl
    · exact (State.reg_count s _ b).trans (if_neg h)
    · rw [arb]
      have e (x : State) (c : FaultClass) (k : Nat) (d : List Byte) : (x.log c k d).reg b = x.reg b :=
        congrArg (fun m => Sparse.get resetOf m b) (State.log_regs x c k d)
      rw [e]
      exact (State.reg_count s _ b).trans (if_neg h)

/-- Bits of an EVENTS register are set; no other register changes but SATURATED of the hub. -/
theorem State.reg_event (s : State) (e m b : Nat) (h : b ≠ R.hub_SATURATED) :
    (s.event e m).reg b = if b = e then s.reg e ||| w32 m else s.reg b := by
  have put : Sparse.get resetOf (Sparse.put resetOf s.regs e (s.reg e ||| w32 m)) b =
      if b = e then s.reg e ||| w32 m else s.reg b := Sparse.get_put _ _ _ _ _
  rw [← put]
  unfold State.event
  dsimp only
  split
  · split
    · rw [State.reg_irqCount _ _ _ h]
      rfl
    · rfl
  · rfl

end Sys2Proof.Machine
end

