-- ==== Sys2Proof/Laws/Flags.lean ====
section
/-!
SUPPORT. What the hub's shared operations do to the sources and to the processors.
-/

namespace Sys2Proof.Machine

/-- A step of a fold that leaves the sources as they are. -/
theorem State.wakeTarget_sources (s : State) (t : Nat) : (s.wakeTarget t).cores.sources = s.cores.sources := by
  unfold State.wakeTarget State.modTc State.setTc
  repeat' split
  all_goals rfl

/-- A wake touches sleeping processors only. -/
theorem State.wakeTarget_proc (s : State) (t n : Nat) (h : (s.proc n).state ≠ .sleep) : (s.wakeTarget t).proc n = s.proc n := by
  unfold State.wakeTarget
  split
  · rename_i hs
    split
    · rename_i h4
      subst h4
      by_cases hn : n = 4
      · subst hn; exact absurd (by simpa [State.proc, State.targetState] using hs) h
      · simp [State.proc, hn, State.tc]
    · rename_i h4
      by_cases hn : n = 4
      · subst hn; simp [State.proc, State.modTc, State.setTc]
      · by_cases ht : n = t
        · subst ht
          exact absurd (by simpa [State.proc, State.targetState, h4] using hs) h
        · simp [State.proc, hn, ht]
  · rfl

/-- What an arbitration leaves of a source: all but the record of a missing target. -/
theorem State.arbitrate_source (s : State) (n : Nat) :
    ∃ a b, s.arbitrate.source n = { s.source n with noTarget := a, noTargetLogged := b } := by
  unfold State.arbitrate
  have fold : ∀ (l : List (Nat × IrqSource)) (x : State), (l.foldl (fun s e =>
      match s.effectiveTarget e.2 with
      | some t => if s.eligible e.2 t then s.wakeTarget t else s
      | none => s) x).cores.sources = x.cores.sources := by
    intro l
    induction l with
    | nil => intro x; rfl
    | cons e r ih =>
      intro x
      rw [List.foldl_cons, ih]
      repeat' split
      all_goals first | exact State.wakeTarget_sources _ _ | rfl
  extract_lets y
  have hy : y.cores.sources = s.cores.sources := fold _ _
  have e : y.source n = s.source n := by simp [State.source, hy]
  have d : (y.mapSources fun _ x =>
      if x.waits && (y.effectiveTarget x).isNone then { x with noTarget := some (x.noTarget.getD y.now) }
      else { x with noTarget := none, noTargetLogged := false }).source n =
      (fun _ x => if x.waits && (y.effectiveTarget x).isNone then { x with noTarget := some (x.noTarget.getD y.now) }
        else { x with noTarget := none, noTargetLogged := false } : Nat → IrqSource → IrqSource) n (y.source n) :=
    Sparse.get_mapVals _ _ _ _ (by simp [IrqSource.waits])
  rw [d, e]
  dsimp only
  split
  · exact ⟨_, _, rfl⟩
  · exact ⟨_, _, rfl⟩

/-- An arbitration wakes sleeping processors only. -/
theorem State.arbitrate_proc (s : State) (n : Nat) (h : (s.proc n).state ≠ .sleep) : s.arbitrate.proc n = s.proc n := by
  unfold State.arbitrate
  have fold : ∀ (l : List (Nat × IrqSource)) (x : State), x.proc n = s.proc n → (l.foldl (fun s e =>
      match s.effectiveTarget e.2 with
      | some t => if s.eligible e.2 t then s.wakeTarget t else s
      | none => s) x).proc n = s.proc n := by
    intro l
    induction l with
    | nil => intro x hx; exact hx
    | cons e r ih =>
      intro x hx
      rw [List.foldl_cons]
      apply ih
      repeat' split
      all_goals first
        | exact hx
        | exact (State.wakeTarget_proc x _ n (by rw [hx]; exact h)).trans hx
  exact fold _ _ rfl

/-- One event of a source: its count rises by one up to 255, and no other source's count or service changes. -/
theorem State.irqCount_source (s : State) (n m : Nat) :
    ((s.irqCount n).source m).count =
      (if m = n ∧ n ≠ 0 ∧ n ≤ 286 ∧ (s.source n).count < 255 then (s.source n).count + 1 else (s.source m).count) ∧
    ((s.irqCount n).source m).service = (s.source m).service := by
  unfold State.irqCount
  split
  · rename_i h
    refine ⟨?_, rfl⟩
    rw [if_neg]
    rintro ⟨-, a, b, -⟩
    omega
  rename_i h
  push Not at h
  extract_lets x y
  split
  · rename_i hc
    obtain ⟨a, b, e⟩ := State.arbitrate_source (s.setSource n { x with count := x.count + 1 }) m
    rw [e, State.source_setSource]
    by_cases hm : m = n
    · subst hm; simp [x] at hc ⊢; simp [hc, h]
    · simp [hm]
  · rename_i hc
    have k : (y.source m).count = (s.source m).count ∧ (y.source m).service = (s.source m).service := by
      simp only [y, State.source_setSource]
      by_cases hm : m = n
      · subst hm; simp [x]
      · simp [hm]; exact ⟨rfl, rfl⟩
    have nc : ¬(m = n ∧ n ≠ 0 ∧ n ≤ 286 ∧ (s.source n).count < 255) := by rintro ⟨-, -, -, c⟩; exact hc c
    split
    · exact k
    · obtain ⟨a, b, e⟩ := State.arbitrate_source (y.log F.IRQ_SATURATED R.src (leBytes 2 n)) m
      have z : (y.log F.IRQ_SATURATED R.src (leBytes 2 n)).source m = y.source m := by simp [State.source]
      rw [e, z]
      exact k

end Sys2Proof.Machine
end

