-- ==== Sys2Proof/Laws/Gcm.lean ====
section
/-!
SUPPORT. Opening what was sealed gives the plaintext back.
-/

namespace Sys2Proof.Machine

@[simp] theorem leBytes_length (n v : Nat) : (leBytes n v).length = n := by
  induction n generalizing v with
  | zero => rfl
  | succ n ih => simp [leBytes, ih]

@[simp] theorem beBytes_length (n v : Nat) : (beBytes n v).length = n := by simp [beBytes]

@[simp] theorem gcmTag_length (k n a t : List Byte) : (gcmTag k n a t).length = 16 := by simp [gcmTag]

@[simp] theorem gcmCipher_length (k n t : List Byte) : (gcmCipher k n t).length = t.length := by simp [gcmCipher]

/-- The key stream twice is none. -/
@[simp] theorem gcmCipher_gcmCipher (k n t : List Byte) : gcmCipher k n (gcmCipher k n t) = t := by
  apply List.ext_getElem <;> simp [gcmCipher, BitVec.xor_assoc]

@[simp] theorem gcmOpen_gcmSeal (k n a p : List Byte) : gcmOpen k n a (gcmSeal k n a p) = some p := by
  simp [gcmOpen, gcmSeal]

end Sys2Proof.Machine
end

