-- ==== Sys2Proof/Laws/KeepRecorder.lean ====
section
/-!
SUPPORT. Keeps for the operations of Machine/Recorder.lean.
-/

namespace Sys2Proof.Machine

theorem execRecordAdmit_keeps {A : Nat} {z : State} {source : RecordSource} {s : State} (hA : 0x4c00000005 &&& A = 0x4c00000005) (hk : Keeps A z s) :
    KeepsOut A z (execRecordAdmit source s) := by
  unfold execRecordAdmit
  repeat' first
    | with_reducible assumption
    | with_reducible apply KeepsOut.fault
    | with_reducible apply KeepsOut.next
    | (extract_lets +onlyGivenNames y; refine KeepsOut.cut (y := y) ?_ (fun hy => ?_) <;> [(unfold y; clear y); rename' y => w])
    | ((with_reducible refine Part.sub hA ?_); rfl)
    | (extract_lets +onlyGivenNames y; refine Keeps.cut (y := y) ?_ (fun hy => ?_) <;> [(unfold y; clear y); rename' y => w])
    | (extract_lets +onlyGivenNames y; rename' y => w)
    | with_reducible apply State.admitRecord_keeps
    | (refine Keeps.of_fst (State.tapAdmit_keeps (Part.sub hA rfl) ?_) (by assumption))
    | with_reducible apply State.tapAdmit_keeps
    | split
    | (with_reducible refine Keeps.change ?_ rfl rfl rfl rfl rfl rfl rfl rfl id ?_)
    | (intro p hp; cases p <;> first | exact Part.inside hA hp rfl | rfl)
    | dsimp -zeta only

theorem State.abandonHead_keeps {A : Nat} {z : State} {n : Nat} {s : State} (hA : 0x400000001 &&& A = 0x400000001) (hk : Keeps A z s) : Keeps A z (State.abandonHead  n s) := by
  induction n generalizing s with
  | zero => exact hk
  | succ n ih =>
    unfold State.abandonHead
    repeat' first
      | with_reducible assumption
      | with_reducible apply ih
      | ((with_reducible refine Part.sub hA ?_); rfl)
      | (extract_lets +onlyGivenNames y; refine Keeps.cut (y := y) ?_ (fun hy => ?_) <;> [(unfold y; clear y); (clear_value y; rename' y => w)])
      | (extract_lets +onlyGivenNames y; clear_value y; rename' y => w)
      | (extract_lets +onlyGivenNames y; rename' y => w)
      | with_reducible apply State.count_keeps
      | with_reducible apply State.modRecorder_keeps
      | split
      | dsimp -zeta only

theorem State.layPage_keeps {A : Nat} {z : State} {n : Nat} {s : State} (hA : 0x400000000 &&& A = 0x400000000) (hk : Keeps A z s) : Keeps A z (State.layPage  n s) := by
  induction n generalizing s with
  | zero => exact hk
  | succ n ih =>
    unfold State.layPage
    repeat' first
      | with_reducible assumption
      | with_reducible apply ih
      | ((with_reducible refine Part.sub hA ?_); rfl)
      | (extract_lets +onlyGivenNames y; refine Keeps.cut (y := y) ?_ (fun hy => ?_) <;> [(unfold y; clear y); (clear_value y; rename' y => w)])
      | (extract_lets +onlyGivenNames y; clear_value y; rename' y => w)
      | (extract_lets +onlyGivenNames y; rename' y => w)
      | with_reducible apply State.modRecorder_keeps
      | with_reducible apply State.layOut_keeps
      | split
      | dsimp -zeta only

theorem State.flushPage_keeps {A : Nat} {z : State} {s : State} (hA : 0x400000000 &&& A = 0x400000000) (hk : Keeps A z s) :
    Keeps A z (State.flushPage s) := by
  unfold State.flushPage
  repeat' first
    | with_reducible assumption
    | ((with_reducible refine Part.sub hA ?_); rfl)
    | (extract_lets +onlyGivenNames y; refine Keeps.cut (y := y) ?_ (fun hy => ?_) <;> [(unfold y; clear y); (clear_value y; rename' y => w)])
    | (extract_lets +onlyGivenNames y; clear_value y; rename' y => w)
    | (extract_lets +onlyGivenNames y; rename' y => w)
    | with_reducible apply State.padPage_keeps
    | with_reducible apply State.writePages_keeps
    | split
    | dsimp -zeta only

theorem execPageWrite_keeps {A : Nat} {z : State} {s : State} (hA : 0x4c00000005 &&& A = 0x4c00000005) (hk : Keeps A z s) :
    KeepsOut A z (execPageWrite s) := by
  unfold execPageWrite
  repeat' first
    | with_reducible assumption
    | with_reducible apply KeepsOut.fault
    | with_reducible apply KeepsOut.next
    | (extract_lets +onlyGivenNames y; refine KeepsOut.cut (y := y) ?_ (fun hy => ?_) <;> [(unfold y; clear y); (clear_value y; rename' y => w)])
    | ((with_reducible refine Part.sub hA ?_); rfl)
    | (extract_lets +onlyGivenNames y; refine Keeps.cut (y := y) ?_ (fun hy => ?_) <;> [(unfold y; clear y); (clear_value y; rename' y => w)])
    | (extract_lets +onlyGivenNames y; clear_value y; rename' y => w)
    | (extract_lets +onlyGivenNames y; rename' y => w)
    | with_reducible apply State.writePages_keeps
    | with_reducible apply State.drainStep_keeps
    | with_reducible apply State.abandonHead_keeps
    | with_reducible apply State.layPage_keeps
    | with_reducible apply State.flushPage_keeps
    | split
    | dsimp -zeta only

theorem execPageTimeout_keeps {A : Nat} {z : State} {s : State} (hA : 0x4c00000005 &&& A = 0x4c00000005) (hk : Keeps A z s) :
    KeepsOut A z (execPageTimeout s) := by
  unfold execPageTimeout
  repeat' first
    | with_reducible assumption
    | with_reducible apply KeepsOut.fault
    | with_reducible apply KeepsOut.next
    | (extract_lets +onlyGivenNames y; refine KeepsOut.cut (y := y) ?_ (fun hy => ?_) <;> [(unfold y; clear y); (clear_value y; rename' y => w)])
    | ((with_reducible refine Part.sub hA ?_); rfl)
    | (extract_lets +onlyGivenNames y; refine Keeps.cut (y := y) ?_ (fun hy => ?_) <;> [(unfold y; clear y); (clear_value y; rename' y => w)])
    | (extract_lets +onlyGivenNames y; clear_value y; rename' y => w)
    | (extract_lets +onlyGivenNames y; rename' y => w)
    | with_reducible apply State.writePages_keeps
    | with_reducible apply State.drainStep_keeps
    | with_reducible apply State.layPage_keeps
    | with_reducible apply State.flushPage_keeps
    | split
    | dsimp -zeta only

theorem execWheelSign_keeps {A : Nat} {z : State} {wheel : Nat} {s : State} (hA : 0x4c00000005 &&& A = 0x4c00000005) (hk : Keeps A z s) :
    KeepsOut A z (execWheelSign wheel s) := by
  unfold execWheelSign
  repeat' first
    | with_reducible assumption
    | with_reducible apply KeepsOut.fault
    | with_reducible apply KeepsOut.next
    | (extract_lets +onlyGivenNames y; refine KeepsOut.cut (y := y) ?_ (fun hy => ?_) <;> [(unfold y; clear y); (clear_value y; rename' y => w)])
    | ((with_reducible refine Part.sub hA ?_); rfl)
    | (extract_lets +onlyGivenNames y; refine Keeps.cut (y := y) ?_ (fun hy => ?_) <;> [(unfold y; clear y); (clear_value y; rename' y => w)])
    | (extract_lets +onlyGivenNames y; clear_value y; rename' y => w)
    | (extract_lets +onlyGivenNames y; rename' y => w)
    | with_reducible apply State.signWheel_keeps
    | split
    | dsimp -zeta only

theorem execRecWarnLedgerClose_keeps {A : Nat} {z : State} {s : State} (hA : 0x400000000 &&& A = 0x400000000) (hk : Keeps A z s) :
    KeepsOut A z (execRecWarnLedgerClose s) := by
  unfold execRecWarnLedgerClose
  repeat' first
    | with_reducible assumption
    | with_reducible apply KeepsOut.fault
    | with_reducible apply KeepsOut.next
    | (extract_lets +onlyGivenNames y; refine KeepsOut.cut (y := y) ?_ (fun hy => ?_) <;> [(unfold y; clear y); (clear_value y; rename' y => w)])
    | ((with_reducible refine Part.sub hA ?_); rfl)
    | (extract_lets +onlyGivenNames y; refine Keeps.cut (y := y) ?_ (fun hy => ?_) <;> [(unfold y; clear y); (clear_value y; rename' y => w)])
    | (extract_lets +onlyGivenNames y; clear_value y; rename' y => w)
    | (extract_lets +onlyGivenNames y; rename' y => w)
    | with_reducible apply State.modRecorder_keeps
    | split
    | dsimp -zeta only

theorem execRecWarnStop_keeps {A : Nat} {z : State} {s : State} (hA : 0x4c00000005 &&& A = 0x4c00000005) (hk : Keeps A z s) :
    KeepsOut A z (execRecWarnStop s) := by
  unfold execRecWarnStop
  repeat' first
    | with_reducible assumption
    | with_reducible apply KeepsOut.fault
    | with_reducible apply KeepsOut.next
    | (extract_lets +onlyGivenNames y; refine KeepsOut.cut (y := y) ?_ (fun hy => ?_) <;> [(unfold y; clear y); (clear_value y; rename' y => w)])
    | ((with_reducible refine Part.sub hA ?_); rfl)
    | (extract_lets +onlyGivenNames y; refine Keeps.cut (y := y) ?_ (fun hy => ?_) <;> [(unfold y; clear y); (clear_value y; rename' y => w)])
    | (extract_lets +onlyGivenNames y; clear_value y; rename' y => w)
    | (extract_lets +onlyGivenNames y; rename' y => w)
    | with_reducible apply State.countBy_keeps
    | with_reducible apply State.modRecorder_keeps
    | with_reducible apply State.recLog_keeps
    | with_reducible apply State.modOpen_keeps
    | with_reducible apply State.sealOpen_keeps
    | split
    | dsimp -zeta only

theorem execSafeSealTimeout_keeps {A : Nat} {z : State} {s : State} (hA : 0x4c00000005 &&& A = 0x4c00000005) (hk : Keeps A z s) :
    KeepsOut A z (execSafeSealTimeout s) := by
  unfold execSafeSealTimeout
  repeat' first
    | with_reducible assumption
    | with_reducible apply KeepsOut.fault
    | with_reducible apply KeepsOut.next
    | (extract_lets +onlyGivenNames y; refine KeepsOut.cut (y := y) ?_ (fun hy => ?_) <;> [(unfold y; clear y); (clear_value y; rename' y => w)])
    | ((with_reducible refine Part.sub hA ?_); rfl)
    | (extract_lets +onlyGivenNames y; refine Keeps.cut (y := y) ?_ (fun hy => ?_) <;> [(unfold y; clear y); (clear_value y; rename' y => w)])
    | (extract_lets +onlyGivenNames y; clear_value y; rename' y => w)
    | (extract_lets +onlyGivenNames y; rename' y => w)
    | with_reducible apply State.sealWheel_keeps
    | split
    | dsimp -zeta only

theorem execSealNow_keeps {A : Nat} {z : State} {_agent : Agent} {s : State} (hA : 0x4c00000005 &&& A = 0x4c00000005) (hk : Keeps A z s) :
    KeepsOut A z (execSealNow _agent s) := by
  unfold execSealNow
  repeat' first
    | with_reducible assumption
    | with_reducible apply KeepsOut.fault
    | with_reducible apply KeepsOut.next
    | (extract_lets +onlyGivenNames y; refine KeepsOut.cut (y := y) ?_ (fun hy => ?_) <;> [(unfold y; clear y); (clear_value y; rename' y => w)])
    | ((with_reducible refine Part.sub hA ?_); rfl)
    | (extract_lets +onlyGivenNames y; refine Keeps.cut (y := y) ?_ (fun hy => ?_) <;> [(unfold y; clear y); (clear_value y; rename' y => w)])
    | (extract_lets +onlyGivenNames y; clear_value y; rename' y => w)
    | (extract_lets +onlyGivenNames y; rename' y => w)
    | with_reducible apply State.sealWheel_keeps
    | split
    | dsimp -zeta only

theorem execExportOpen_keeps {A : Nat} {z : State} {agent : Agent} {s : State} (hA : 0x400000000 &&& A = 0x400000000) (hk : Keeps A z s) :
    KeepsOut A z (execExportOpen agent s) := by
  unfold execExportOpen
  repeat' first
    | with_reducible assumption
    | with_reducible apply KeepsOut.fault
    | with_reducible apply KeepsOut.next
    | (extract_lets +onlyGivenNames y; refine KeepsOut.cut (y := y) ?_ (fun hy => ?_) <;> [(unfold y; clear y); (clear_value y; rename' y => w)])
    | ((with_reducible refine Part.sub hA ?_); rfl)
    | (extract_lets +onlyGivenNames y; refine Keeps.cut (y := y) ?_ (fun hy => ?_) <;> [(unfold y; clear y); (clear_value y; rename' y => w)])
    | (extract_lets +onlyGivenNames y; clear_value y; rename' y => w)
    | (extract_lets +onlyGivenNames y; rename' y => w)
    | with_reducible apply State.modRecorder_keeps
    | split
    | dsimp -zeta only

theorem State.endExport_keeps {A : Nat} {z : State} {s : State} {i : Nat} (hA : 0x400000000 &&& A = 0x400000000) (hk : Keeps A z s) :
    Keeps A z (State.endExport s i) := by
  unfold State.endExport
  repeat' first
    | with_reducible assumption
    | ((with_reducible refine Part.sub hA ?_); rfl)
    | (extract_lets +onlyGivenNames y; refine Keeps.cut (y := y) ?_ (fun hy => ?_) <;> [(unfold y; clear y); (clear_value y; rename' y => w)])
    | (extract_lets +onlyGivenNames y; clear_value y; rename' y => w)
    | (extract_lets +onlyGivenNames y; rename' y => w)
    | with_reducible apply State.modRecorder_keeps
    | split
    | dsimp -zeta only

theorem execExportClose_keeps {A : Nat} {z : State} {agent : Agent} {s : State} (hA : 0x400000000 &&& A = 0x400000000) (hk : Keeps A z s) :
    KeepsOut A z (execExportClose agent s) := by
  unfold execExportClose
  repeat' first
    | with_reducible assumption
    | with_reducible apply KeepsOut.fault
    | with_reducible apply KeepsOut.next
    | (extract_lets +onlyGivenNames y; refine KeepsOut.cut (y := y) ?_ (fun hy => ?_) <;> [(unfold y; clear y); (clear_value y; rename' y => w)])
    | ((with_reducible refine Part.sub hA ?_); rfl)
    | (extract_lets +onlyGivenNames y; refine Keeps.cut (y := y) ?_ (fun hy => ?_) <;> [(unfold y; clear y); (clear_value y; rename' y => w)])
    | (extract_lets +onlyGivenNames y; clear_value y; rename' y => w)
    | (extract_lets +onlyGivenNames y; rename' y => w)
    | with_reducible apply State.endExport_keeps
    | split
    | dsimp -zeta only

theorem execExportIdleTimeout_keeps {A : Nat} {z : State} {session : Fin 8} {s : State} (hA : 0x400000000 &&& A = 0x400000000) (hk : Keeps A z s) :
    KeepsOut A z (execExportIdleTimeout session s) := by
  unfold execExportIdleTimeout
  repeat' first
    | with_reducible assumption
    | with_reducible apply KeepsOut.fault
    | with_reducible apply KeepsOut.next
    | (extract_lets +onlyGivenNames y; refine KeepsOut.cut (y := y) ?_ (fun hy => ?_) <;> [(unfold y; clear y); (clear_value y; rename' y => w)])
    | ((with_reducible refine Part.sub hA ?_); rfl)
    | (extract_lets +onlyGivenNames y; refine Keeps.cut (y := y) ?_ (fun hy => ?_) <;> [(unfold y; clear y); (clear_value y; rename' y => w)])
    | (extract_lets +onlyGivenNames y; clear_value y; rename' y => w)
    | (extract_lets +onlyGivenNames y; rename' y => w)
    | with_reducible apply State.endExport_keeps
    | split
    | dsimp -zeta only

theorem State.exportRead_keeps {A : Nat} {z : State} {s : State} {i off len : Nat} (hA : 0x4400000040 &&& A = 0x4400000040) (hk : Keeps A z s) :
    Keeps A z (State.exportRead s i off len).1 := by
  unfold State.exportRead
  repeat' first
    | with_reducible assumption
    | ((with_reducible refine Part.sub hA ?_); rfl)
    | (extract_lets +onlyGivenNames y; refine Keeps.cut (y := y) ?_ (fun hy => ?_) <;> [(unfold y; clear y); (clear_value y; rename' y => w)])
    | (extract_lets +onlyGivenNames y; clear_value y; rename' y => w)
    | (extract_lets +onlyGivenNames y; rename' y => w)
    | with_reducible apply State.modRecorder_keeps
    | with_reducible apply State.recLog_keeps
    | (with_reducible apply Keeps.foldl; intro y b hy)
    | (with_reducible apply Keeps.foldl_fst; intro y b hy)
    | with_reducible apply Keeps.freshMore
    | split
    | (with_reducible refine Keeps.change ?_ rfl rfl rfl rfl rfl rfl rfl rfl id ?_)
    | (intro p hp; cases p <;> first | exact Part.inside hA hp rfl | rfl)
    | dsimp -zeta only

theorem execVerify_keeps {A : Nat} {z : State} {_agent : Agent} {s : State} (hA : 0x400000000 &&& A = 0x400000000) (hk : Keeps A z s) :
    KeepsOut A z (execVerify _agent s) := by
  unfold execVerify
  repeat' first
    | with_reducible assumption
    | with_reducible apply KeepsOut.fault
    | with_reducible apply KeepsOut.next
    | (extract_lets +onlyGivenNames y; refine KeepsOut.cut (y := y) ?_ (fun hy => ?_) <;> [(unfold y; clear y); (clear_value y; rename' y => w)])
    | ((with_reducible refine Part.sub hA ?_); rfl)
    | (extract_lets +onlyGivenNames y; refine Keeps.cut (y := y) ?_ (fun hy => ?_) <;> [(unfold y; clear y); (clear_value y; rename' y => w)])
    | (extract_lets +onlyGivenNames y; clear_value y; rename' y => w)
    | (extract_lets +onlyGivenNames y; rename' y => w)
    | with_reducible apply State.modRecorder_keeps
    | split
    | dsimp -zeta only

theorem execVerifyDone_keeps {A : Nat} {z : State} {s : State} (hA : 0x4c00000005 &&& A = 0x4c00000005) (hk : Keeps A z s) :
    KeepsOut A z (execVerifyDone s) := by
  unfold execVerifyDone
  repeat' first
    | with_reducible assumption
    | with_reducible apply KeepsOut.fault
    | with_reducible apply KeepsOut.next
    | (extract_lets +onlyGivenNames y; refine KeepsOut.cut (y := y) ?_ (fun hy => ?_) <;> [(unfold y; clear y); (clear_value y; rename' y => w)])
    | ((with_reducible refine Part.sub hA ?_); rfl)
    | (extract_lets +onlyGivenNames y; refine Keeps.cut (y := y) ?_ (fun hy => ?_) <;> [(unfold y; clear y); (clear_value y; rename' y => w)])
    | (extract_lets +onlyGivenNames y; clear_value y; rename' y => w)
    | (extract_lets +onlyGivenNames y; rename' y => w)
    | with_reducible apply State.modRecorder_keeps
    | with_reducible apply State.event_keeps
    | with_reducible apply State.recLog_keeps
    | split
    | dsimp -zeta only

theorem State.storeFail_keeps {A : Nat} {z : State} {s : State} {cause : Nat} (hA : 0x4c00000045 &&& A = 0x4c00000045) (hk : Keeps A z s) :
    Keeps A z (State.storeFail s cause) := by
  unfold State.storeFail
  repeat' first
    | with_reducible assumption
    | ((with_reducible refine Part.sub hA ?_); rfl)
    | (extract_lets +onlyGivenNames y; refine Keeps.cut (y := y) ?_ (fun hy => ?_) <;> [(unfold y; clear y); (clear_value y; rename' y => w)])
    | (extract_lets +onlyGivenNames y; clear_value y; rename' y => w)
    | (extract_lets +onlyGivenNames y; rename' y => w)
    | with_reducible apply State.modRecorder_keeps
    | (refine Keeps.of_snd (State.freeBelow_keeps (Part.sub hA rfl) ?_) (by assumption))
    | with_reducible apply State.freeBelow_keeps
    | with_reducible apply State.event_keeps
    | with_reducible apply State.recLog_keeps
    | with_reducible apply State.modOpen_keeps
    | with_reducible apply State.sealOpen_keeps
    | with_reducible apply State.padPage_keeps
    | with_reducible apply State.writePages_keeps
    | split
    | dsimp -zeta only

theorem execNandProgramFail_keeps {A : Nat} {z : State} {block : Nat} {s : State} (hA : 0x4c00000045 &&& A = 0x4c00000045) (hk : Keeps A z s) :
    KeepsOut A z (execNandProgramFail block s) := by
  unfold execNandProgramFail
  repeat' first
    | with_reducible assumption
    | with_reducible apply KeepsOut.fault
    | with_reducible apply KeepsOut.next
    | (extract_lets +onlyGivenNames y; refine KeepsOut.cut (y := y) ?_ (fun hy => ?_) <;> [(unfold y; clear y); (clear_value y; rename' y => w)])
    | ((with_reducible refine Part.sub hA ?_); rfl)
    | (extract_lets +onlyGivenNames y; refine Keeps.cut (y := y) ?_ (fun hy => ?_) <;> [(unfold y; clear y); (clear_value y; rename' y => w)])
    | (extract_lets +onlyGivenNames y; clear_value y; rename' y => w)
    | (extract_lets +onlyGivenNames y; rename' y => w)
    | with_reducible apply State.modStore_keeps
    | with_reducible apply State.recLog_keeps
    | with_reducible apply State.storeFail_keeps
    | split
    | dsimp -zeta only

end Sys2Proof.Machine
end

