-- ==== Sys2Proof/Laws/KeepAudio.lean ====
section
/-!
SUPPORT. Keeps for the operations of Machine/Audio.lean.
-/

namespace Sys2Proof.Machine

theorem State.modGroup_keeps {A : Nat} {z : State} {s : State} {g : Nat} {f : AudioGroup → AudioGroup} (hA : 0x100000000 &&& A = 0x100000000) (hk : Keeps A z s) :
    Keeps A z (State.modGroup s g f) := by
  unfold State.modGroup
  repeat' first
    | with_reducible assumption
    | ((with_reducible refine Part.sub hA ?_); rfl)
    | (extract_lets +onlyGivenNames y; refine Keeps.cut (y := y) ?_ (fun hy => ?_) <;> [(unfold y; clear y); (clear_value y; rename' y => w)])
    | (extract_lets +onlyGivenNames y; clear_value y; rename' y => w)
    | (extract_lets +onlyGivenNames y; rename' y => w)
    | with_reducible apply State.modAudio_keeps
    | split
    | dsimp -zeta only

theorem State.setPdm_keeps {A : Nat} {z : State} {s : State} {k : Nat} {m : Monitor} (hA : 0x100000000 &&& A = 0x100000000) (hk : Keeps A z s) :
    Keeps A z (State.setPdm s k m) := by
  unfold State.setPdm
  repeat' first
    | with_reducible assumption
    | ((with_reducible refine Part.sub hA ?_); rfl)
    | (extract_lets +onlyGivenNames y; refine Keeps.cut (y := y) ?_ (fun hy => ?_) <;> [(unfold y; clear y); (clear_value y; rename' y => w)])
    | (extract_lets +onlyGivenNames y; clear_value y; rename' y => w)
    | (extract_lets +onlyGivenNames y; rename' y => w)
    | with_reducible apply State.modAudio_keeps
    | split
    | dsimp -zeta only

theorem State.modSpans_keeps {A : Nat} {z : State} {s : State} {k : Nat} {f : List HoldSpan → List HoldSpan} (hA : 0x100000000 &&& A = 0x100000000) (hk : Keeps A z s) :
    Keeps A z (State.modSpans s k f) := by
  unfold State.modSpans
  repeat' first
    | with_reducible assumption
    | ((with_reducible refine Part.sub hA ?_); rfl)
    | (extract_lets +onlyGivenNames y; refine Keeps.cut (y := y) ?_ (fun hy => ?_) <;> [(unfold y; clear y); (clear_value y; rename' y => w)])
    | (extract_lets +onlyGivenNames y; clear_value y; rename' y => w)
    | (extract_lets +onlyGivenNames y; rename' y => w)
    | with_reducible apply State.modAudio_keeps
    | split
    | dsimp -zeta only

theorem State.judgeRate_keeps {A : Nat} {z : State} {s : State} {g k : Nat} (hA : 0x4900000005 &&& A = 0x4900000005) (hk : Keeps A z s) :
    Keeps A z (State.judgeRate s g k) := by
  unfold State.judgeRate
  repeat' first
    | with_reducible assumption
    | ((with_reducible refine Part.sub hA ?_); rfl)
    | (extract_lets +onlyGivenNames y; refine Keeps.cut (y := y) ?_ (fun hy => ?_) <;> [(unfold y; clear y); (clear_value y; rename' y => w)])
    | (extract_lets +onlyGivenNames y; refine Keeps.cut (y := y.1) ?_ (fun hy => ?_) <;> [(unfold y; clear y); (clear_value y; rename' y => w)])
    | (extract_lets +onlyGivenNames y; clear_value y; rename' y => w)
    | (extract_lets +onlyGivenNames y; rename' y => w)
    | with_reducible apply State.logData_keeps
    | with_reducible apply State.event_keeps
    | with_reducible apply State.modGroup_keeps
    | split
    | dsimp -zeta only

theorem State.pdmLost_keeps {A : Nat} {z : State} {s : State} {k : Nat} (hA : 0x4900000005 &&& A = 0x4900000005) (hk : Keeps A z s) :
    Keeps A z (State.pdmLost s k) := by
  unfold State.pdmLost
  repeat' first
    | with_reducible assumption
    | ((with_reducible refine Part.sub hA ?_); rfl)
    | (extract_lets +onlyGivenNames y; refine Keeps.cut (y := y) ?_ (fun hy => ?_) <;> [(unfold y; clear y); (clear_value y; rename' y => w)])
    | (extract_lets +onlyGivenNames y; clear_value y; rename' y => w)
    | (extract_lets +onlyGivenNames y; rename' y => w)
    | with_reducible apply State.count_keeps
    | with_reducible apply State.log_keeps
    | with_reducible apply State.event_keeps
    | with_reducible apply State.modSpans_keeps
    | split
    | dsimp -zeta only

theorem State.pdmGood_keeps {A : Nat} {z : State} {s : State} {k : Nat} (hA : 0x4900000005 &&& A = 0x4900000005) (hk : Keeps A z s) :
    Keeps A z (State.pdmGood s k) := by
  unfold State.pdmGood
  repeat' first
    | with_reducible assumption
    | ((with_reducible refine Part.sub hA ?_); rfl)
    | (extract_lets +onlyGivenNames y; refine Keeps.cut (y := y) ?_ (fun hy => ?_) <;> [(unfold y; clear y); (clear_value y; rename' y => w)])
    | (extract_lets +onlyGivenNames y; clear_value y; rename' y => w)
    | (extract_lets +onlyGivenNames y; rename' y => w)
    | with_reducible apply State.modMic_keeps
    | with_reducible apply State.log_keeps
    | with_reducible apply State.event_keeps
    | with_reducible apply State.modSpans_keeps
    | with_reducible apply State.judgeRate_keeps
    | (with_reducible apply Keeps.foldl; intro y b hy)
    | (with_reducible apply Keeps.foldl_fst; intro y b hy)
    | split
    | dsimp -zeta only

theorem State.pdmGlitch_keeps {A : Nat} {z : State} {s : State} {k : Nat} (hA : 0x4900000005 &&& A = 0x4900000005) (hk : Keeps A z s) :
    Keeps A z (State.pdmGlitch s k) := by
  unfold State.pdmGlitch
  repeat' first
    | with_reducible assumption
    | ((with_reducible refine Part.sub hA ?_); rfl)
    | (extract_lets +onlyGivenNames y; refine Keeps.cut (y := y) ?_ (fun hy => ?_) <;> [(unfold y; clear y); (clear_value y; rename' y => w)])
    | (extract_lets +onlyGivenNames y; clear_value y; rename' y => w)
    | (extract_lets +onlyGivenNames y; rename' y => w)
    | with_reducible apply State.count_keeps
    | with_reducible apply State.logRated_keeps
    | with_reducible apply State.event_keeps
    | with_reducible apply State.modSpans_keeps
    | split
    | dsimp -zeta only

theorem State.installPdm_keeps {A : Nat} {z : State} {s : State} {old : List Byte} (hA : 0x4900000005 &&& A = 0x4900000005) (hk : Keeps A z s) :
    Keeps A z (State.installPdm s old) := by
  unfold State.installPdm
  repeat' first
    | with_reducible assumption
    | ((with_reducible refine Part.sub hA ?_); rfl)
    | (extract_lets +onlyGivenNames y; refine Keeps.cut (y := y) ?_ (fun hy => ?_) <;> [(unfold y; clear y); (clear_value y; rename' y => w)])
    | (extract_lets +onlyGivenNames y; clear_value y; rename' y => w)
    | (extract_lets +onlyGivenNames y; rename' y => w)
    | with_reducible apply State.setPdm_keeps
    | with_reducible apply State.pdmLost_keeps
    | (with_reducible apply Keeps.foldl; intro y b hy)
    | (with_reducible apply Keeps.foldl_fst; intro y b hy)
    | split
    | dsimp -zeta only

theorem execAudioSlip_keeps {A : Nat} {z : State} {clock : Bool} {overrun : Bool} {s : State} (hA : 0x4900000005 &&& A = 0x4900000005) (hk : Keeps A z s) :
    KeepsOut A z (execAudioSlip clock overrun s) := by
  unfold execAudioSlip
  repeat' first
    | with_reducible assumption
    | with_reducible apply KeepsOut.fault
    | with_reducible apply KeepsOut.next
    | (extract_lets +onlyGivenNames y; refine KeepsOut.cut (y := y) ?_ (fun hy => ?_) <;> [(unfold y; clear y); (clear_value y; rename' y => w)])
    | ((with_reducible refine Part.sub hA ?_); rfl)
    | (extract_lets +onlyGivenNames y; refine Keeps.cut (y := y) ?_ (fun hy => ?_) <;> [(unfold y; clear y); (clear_value y; rename' y => w)])
    | (extract_lets +onlyGivenNames y; clear_value y; rename' y => w)
    | (extract_lets +onlyGivenNames y; rename' y => w)
    | with_reducible apply State.count_keeps
    | with_reducible apply State.logRated_keeps
    | with_reducible apply State.event_keeps
    | with_reducible apply State.modSpans_keeps
    | split
    | dsimp -zeta only

theorem State.audioSend_keeps {A : Nat} {z : State} {s : State} {g : Nat} {r bytes : List Byte} (hA : 0x100000021 &&& A = 0x100000021) (hk : Keeps A z s) :
    Keeps A z (State.audioSend s g r bytes) := by
  unfold State.audioSend
  repeat' first
    | with_reducible assumption
    | ((with_reducible refine Part.sub hA ?_); rfl)
    | (extract_lets +onlyGivenNames y; refine Keeps.cut (y := y) ?_ (fun hy => ?_) <;> [(unfold y; clear y); (clear_value y; rename' y => w)])
    | (extract_lets +onlyGivenNames y; clear_value y; rename' y => w)
    | (extract_lets +onlyGivenNames y; rename' y => w)
    | with_reducible apply State.count_keeps
    | with_reducible apply State.sendMedia_keeps
    | with_reducible apply State.modGroup_keeps
    | (with_reducible apply Keeps.foldl; intro y b hy)
    | (with_reducible apply Keeps.foldl_fst; intro y b hy)
    | split
    | dsimp -zeta only

theorem State.formFrame_keeps {A : Nat} {z : State} {s : State} {g frame : Nat} {input : List MicSamples} (hA : 0x4d00000025 &&& A = 0x4d00000025) (hk : Keeps A z s) :
    Keeps A z (State.formFrame s g frame input) := by
  unfold State.formFrame
  repeat' first
    | with_reducible assumption
    | ((with_reducible refine Part.sub hA ?_); rfl)
    | (extract_lets +onlyGivenNames y; refine Keeps.cut (y := y) ?_ (fun hy => ?_) <;> [(unfold y; clear y); (clear_value y; rename' y => w)])
    | (extract_lets +onlyGivenNames y; refine Keeps.cut (y := y.1) ?_ (fun hy => ?_) <;> [(unfold y; clear y); (clear_value y; rename' y => w)])
    | (extract_lets +onlyGivenNames y; clear_value y; rename' y => w)
    | (extract_lets +onlyGivenNames y; rename' y => w)
    | with_reducible apply State.count_keeps
    | with_reducible apply State.modMic_keeps
    | with_reducible apply State.logData_keeps
    | with_reducible apply State.event_keeps
    | with_reducible apply State.admitRecord_keeps
    | with_reducible apply State.modGroup_keeps
    | with_reducible apply State.audioSend_keeps
    | (with_reducible apply Keeps.foldl; intro y b hy)
    | (with_reducible apply Keeps.foldl_fst; intro y b hy)
    | split
    | dsimp -zeta only

theorem State.stopFrame_keeps {A : Nat} {z : State} {s : State} {g frame : Nat} (hA : 0x100000021 &&& A = 0x100000021) (hk : Keeps A z s) :
    Keeps A z (State.stopFrame s g frame) := by
  unfold State.stopFrame
  repeat' first
    | with_reducible assumption
    | ((with_reducible refine Part.sub hA ?_); rfl)
    | (extract_lets +onlyGivenNames y; refine Keeps.cut (y := y) ?_ (fun hy => ?_) <;> [(unfold y; clear y); (clear_value y; rename' y => w)])
    | (extract_lets +onlyGivenNames y; clear_value y; rename' y => w)
    | (extract_lets +onlyGivenNames y; rename' y => w)
    | with_reducible apply State.modGroup_keeps
    | with_reducible apply State.audioSend_keeps
    | split
    | dsimp -zeta only

theorem State.micBits_keeps {A : Nat} {z : State} {s : State} {input : List MicSamples} {i : Nat} (hA : 0x4100000000 &&& A = 0x4100000000) (hk : Keeps A z s) :
    Keeps A z (State.micBits s input i) := by
  unfold State.micBits
  repeat' first
    | with_reducible assumption
    | ((with_reducible refine Part.sub hA ?_); rfl)
    | (extract_lets +onlyGivenNames y; refine Keeps.cut (y := y) ?_ (fun hy => ?_) <;> [(unfold y; clear y); (clear_value y; rename' y => w)])
    | (extract_lets +onlyGivenNames y; clear_value y; rename' y => w)
    | (extract_lets +onlyGivenNames y; rename' y => w)
    | with_reducible apply State.modMic_keeps
    | with_reducible apply State.logOut_keeps
    | split
    | dsimp -zeta only

theorem State.openFrame_keeps {A : Nat} {z : State} {s : State} {g frame : Nat} (hA : 0x4900000005 &&& A = 0x4900000005) (hk : Keeps A z s) :
    Keeps A z (State.openFrame s g frame) := by
  unfold State.openFrame
  repeat' first
    | with_reducible assumption
    | ((with_reducible refine Part.sub hA ?_); rfl)
    | (extract_lets +onlyGivenNames y; refine Keeps.cut (y := y) ?_ (fun hy => ?_) <;> [(unfold y; clear y); (clear_value y; rename' y => w)])
    | (extract_lets +onlyGivenNames y; refine Keeps.cut (y := y.1) ?_ (fun hy => ?_) <;> [(unfold y; clear y); (clear_value y; rename' y => w)])
    | (extract_lets +onlyGivenNames y; clear_value y; rename' y => w)
    | (extract_lets +onlyGivenNames y; rename' y => w)
    | with_reducible apply State.modMic_keeps
    | with_reducible apply State.logData_keeps
    | with_reducible apply State.event_keeps
    | (with_reducible apply Keeps.foldl; intro y b hy)
    | (with_reducible apply Keeps.foldl_fst; intro y b hy)
    | split
    | dsimp -zeta only

theorem State.maskChanged_keeps {A : Nat} {z : State} {s : State} {g frame old new : Nat} (hA : 0x4d00000005 &&& A = 0x4d00000005) (hk : Keeps A z s) :
    Keeps A z (State.maskChanged s g frame old new) := by
  unfold State.maskChanged
  repeat' first
    | with_reducible assumption
    | ((with_reducible refine Part.sub hA ?_); rfl)
    | (extract_lets +onlyGivenNames y; refine Keeps.cut (y := y) ?_ (fun hy => ?_) <;> [(unfold y; clear y); (clear_value y; rename' y => w)])
    | (extract_lets +onlyGivenNames y; clear_value y; rename' y => w)
    | (extract_lets +onlyGivenNames y; rename' y => w)
    | with_reducible apply State.logOut_keeps
    | with_reducible apply State.event_keeps
    | with_reducible apply State.admitRecord_keeps
    | with_reducible apply State.modGroup_keeps
    | split
    | dsimp -zeta only

theorem State.audioApply_keeps {A : Nat} {z : State} {s : State} {frame : Nat} (hA : 0x4d00000005 &&& A = 0x4d00000005) (hk : Keeps A z s) :
    Keeps A z (State.audioApply s frame) := by
  unfold State.audioApply
  repeat' first
    | with_reducible assumption
    | ((with_reducible refine Part.sub hA ?_); rfl)
    | (extract_lets +onlyGivenNames y; refine Keeps.cut (y := y) ?_ (fun hy => ?_) <;> [(unfold y; clear y); (clear_value y; rename' y => w)])
    | (extract_lets +onlyGivenNames y; clear_value y; rename' y => w)
    | (extract_lets +onlyGivenNames y; rename' y => w)
    | with_reducible apply State.modAudio_keeps
    | with_reducible apply State.modGroup_keeps
    | with_reducible apply State.judgeRate_keeps
    | with_reducible apply State.maskChanged_keeps
    | (with_reducible apply Keeps.foldl; intro y b hy)
    | (with_reducible apply Keeps.foldl_fst; intro y b hy)
    | split
    | dsimp -zeta only

theorem State.pruneSpans_keeps {A : Nat} {z : State} {s : State} {t : Nat} (hA : 0x100000000 &&& A = 0x100000000) (hk : Keeps A z s) :
    Keeps A z (State.pruneSpans s t) := by
  unfold State.pruneSpans
  repeat' first
    | with_reducible assumption
    | ((with_reducible refine Part.sub hA ?_); rfl)
    | (extract_lets +onlyGivenNames y; refine Keeps.cut (y := y) ?_ (fun hy => ?_) <;> [(unfold y; clear y); (clear_value y; rename' y => w)])
    | (extract_lets +onlyGivenNames y; clear_value y; rename' y => w)
    | (extract_lets +onlyGivenNames y; rename' y => w)
    | with_reducible apply State.modAudio_keeps
    | split
    | dsimp -zeta only

theorem execAudioFrameBoundary_keeps {A : Nat} {z : State} {samples : List MicSamples} {s : State} (hA : 0x4d00000025 &&& A = 0x4d00000025) (hk : Keeps A z s) :
    KeepsOut A z (execAudioFrameBoundary samples s) := by
  unfold execAudioFrameBoundary
  repeat' first
    | with_reducible assumption
    | with_reducible apply KeepsOut.fault
    | with_reducible apply KeepsOut.next
    | (extract_lets +onlyGivenNames y; refine KeepsOut.cut (y := y) ?_ (fun hy => ?_) <;> [(unfold y; clear y); (clear_value y; rename' y => w)])
    | ((with_reducible refine Part.sub hA ?_); rfl)
    | (extract_lets +onlyGivenNames y; refine Keeps.cut (y := y) ?_ (fun hy => ?_) <;> [(unfold y; clear y); (clear_value y; rename' y => w)])
    | (extract_lets +onlyGivenNames y; clear_value y; rename' y => w)
    | (extract_lets +onlyGivenNames y; rename' y => w)
    | with_reducible apply State.modAudio_keeps
    | with_reducible apply State.formFrame_keeps
    | with_reducible apply State.stopFrame_keeps
    | with_reducible apply State.micBits_keeps
    | with_reducible apply State.openFrame_keeps
    | with_reducible apply State.audioApply_keeps
    | with_reducible apply State.pruneSpans_keeps
    | (with_reducible apply Keeps.foldl; intro y b hy)
    | (with_reducible apply Keeps.foldl_fst; intro y b hy)
    | split
    | dsimp -zeta only

theorem execMicStuckTimeout_keeps {A : Nat} {z : State} {mic : Fin 16} {s : State} (hA : 0x4900000005 &&& A = 0x4900000005) (hk : Keeps A z s) :
    KeepsOut A z (execMicStuckTimeout mic s) := by
  unfold execMicStuckTimeout
  repeat' first
    | with_reducible assumption
    | with_reducible apply KeepsOut.fault
    | with_reducible apply KeepsOut.next
    | (extract_lets +onlyGivenNames y; refine KeepsOut.cut (y := y) ?_ (fun hy => ?_) <;> [(unfold y; clear y); (clear_value y; rename' y => w)])
    | ((with_reducible refine Part.sub hA ?_); rfl)
    | (extract_lets +onlyGivenNames y; refine Keeps.cut (y := y) ?_ (fun hy => ?_) <;> [(unfold y; clear y); (clear_value y; rename' y => w)])
    | (extract_lets +onlyGivenNames y; clear_value y; rename' y => w)
    | (extract_lets +onlyGivenNames y; rename' y => w)
    | with_reducible apply State.modMic_keeps
    | with_reducible apply State.logData_keeps
    | with_reducible apply State.event_keeps
    | split
    | dsimp -zeta only

theorem State.audioWait_keeps {A : Nat} {z : State} {s : State} (hA : 0x100000000 &&& A = 0x100000000) (hk : Keeps A z s) :
    Keeps A z (State.audioWait s) := by
  unfold State.audioWait
  repeat' first
    | with_reducible assumption
    | ((with_reducible refine Part.sub hA ?_); rfl)
    | (extract_lets +onlyGivenNames y; refine Keeps.cut (y := y) ?_ (fun hy => ?_) <;> [(unfold y; clear y); (clear_value y; rename' y => w)])
    | (extract_lets +onlyGivenNames y; clear_value y; rename' y => w)
    | (extract_lets +onlyGivenNames y; rename' y => w)
    | with_reducible apply State.modAudio_keeps
    | split
    | dsimp -zeta only

theorem State.audioStart_keeps {A : Nat} {z : State} {s : State} (hA : 0x100000000 &&& A = 0x100000000) (hk : Keeps A z s) :
    Keeps A z (State.audioStart s) := by
  unfold State.audioStart
  repeat' first
    | with_reducible assumption
    | ((with_reducible refine Part.sub hA ?_); rfl)
    | (extract_lets +onlyGivenNames y; refine Keeps.cut (y := y) ?_ (fun hy => ?_) <;> [(unfold y; clear y); (clear_value y; rename' y => w)])
    | (extract_lets +onlyGivenNames y; clear_value y; rename' y => w)
    | (extract_lets +onlyGivenNames y; rename' y => w)
    | with_reducible apply State.modAudio_keeps
    | split
    | dsimp -zeta only

theorem State.peakRead_keeps {A : Nat} {z : State} {s : State} {i : Nat} (hA : 0x100000010 &&& A = 0x100000010) (hk : Keeps A z s) :
    Keeps A z (State.peakRead s i) := by
  unfold State.peakRead
  repeat' first
    | with_reducible assumption
    | ((with_reducible refine Part.sub hA ?_); rfl)
    | (extract_lets +onlyGivenNames y; refine Keeps.cut (y := y) ?_ (fun hy => ?_) <;> [(unfold y; clear y); (clear_value y; rename' y => w)])
    | (extract_lets +onlyGivenNames y; clear_value y; rename' y => w)
    | (extract_lets +onlyGivenNames y; rename' y => w)
    | with_reducible apply State.modMic_keeps
    | with_reducible apply State.answer_keeps
    | split
    | dsimp -zeta only

end Sys2Proof.Machine
end

