-- ==== Sys2Proof/Laws/KeepCheck.lean ====
section
/-!
SUPPORT. Keeps for the operations of Machine/Check.lean.
-/

namespace Sys2Proof.Machine

theorem execChkStart_keeps {A : Nat} {z : State} {agent : Agent} {channel : Fin 16} {s : State} (hA : 0x800000001 &&& A = 0x800000001) (hk : Keeps A z s) :
    KeepsOut A z (execChkStart agent channel s) := by
  unfold execChkStart
  repeat' first
    | with_reducible assumption
    | with_reducible apply KeepsOut.fault
    | with_reducible apply KeepsOut.next
    | (extract_lets +onlyGivenNames y; refine KeepsOut.cut (y := y) ?_ (fun hy => ?_) <;> [(unfold y; clear y); (clear_value y; rename' y => w)])
    | ((with_reducible refine Part.sub hA ?_); rfl)
    | (extract_lets +onlyGivenNames y; refine Keeps.cut (y := y) ?_ (fun hy => ?_) <;> [(unfold y; clear y); (clear_value y; rename' y => w)])
    | (extract_lets +onlyGivenNames y; clear_value y; rename' y => w)
    | (extract_lets +onlyGivenNames y; rename' y => w)
    | with_reducible apply State.count_keeps
    | with_reducible apply State.modCheck_keeps
    | split
    | dsimp -zeta only

theorem execChkData_keeps {A : Nat} {z : State} {agent : Agent} {channel : Fin 16} {size : Fin 3} {value : Word} {s : State} (hA : 0x800000001 &&& A = 0x800000001) (hk : Keeps A z s) :
    KeepsOut A z (execChkData agent channel size value s) := by
  unfold execChkData
  repeat' first
    | with_reducible assumption
    | with_reducible apply KeepsOut.fault
    | with_reducible apply KeepsOut.next
    | (extract_lets +onlyGivenNames y; refine KeepsOut.cut (y := y) ?_ (fun hy => ?_) <;> [(unfold y; clear y); (clear_value y; rename' y => w)])
    | ((with_reducible refine Part.sub hA ?_); rfl)
    | (extract_lets +onlyGivenNames y; refine Keeps.cut (y := y) ?_ (fun hy => ?_) <;> [(unfold y; clear y); (clear_value y; rename' y => w)])
    | (extract_lets +onlyGivenNames y; clear_value y; rename' y => w)
    | (extract_lets +onlyGivenNames y; rename' y => w)
    | with_reducible apply State.count_keeps
    | with_reducible apply State.modCheck_keeps
    | split
    | dsimp -zeta only

theorem execChkEnd_keeps {A : Nat} {z : State} {agent : Agent} {channel : Fin 16} {s : State} (hA : 0x4800000001 &&& A = 0x4800000001) (hk : Keeps A z s) :
    KeepsOut A z (execChkEnd agent channel s) := by
  unfold execChkEnd
  repeat' first
    | with_reducible assumption
    | with_reducible apply KeepsOut.fault
    | with_reducible apply KeepsOut.next
    | (extract_lets +onlyGivenNames y; refine KeepsOut.cut (y := y) ?_ (fun hy => ?_) <;> [(unfold y; clear y); (clear_value y; rename' y => w)])
    | ((with_reducible refine Part.sub hA ?_); rfl)
    | (extract_lets +onlyGivenNames y; refine Keeps.cut (y := y) ?_ (fun hy => ?_) <;> [(unfold y; clear y); (clear_value y; rename' y => w)])
    | (extract_lets +onlyGivenNames y; clear_value y; rename' y => w)
    | (extract_lets +onlyGivenNames y; rename' y => w)
    | with_reducible apply State.count_keeps
    | with_reducible apply State.setCheck_keeps
    | with_reducible apply State.logRated_keeps
    | with_reducible apply State.irqCount_keeps
    | split
    | dsimp -zeta only

theorem State.installCheckPlan_keeps {A : Nat} {z : State} {s : State} {p : List Byte} (hA : 0x800000000 &&& A = 0x800000000) (hk : Keeps A z s) :
    Keeps A z (State.installCheckPlan s p) := by
  unfold State.installCheckPlan
  repeat' first
    | with_reducible assumption
    | ((with_reducible refine Part.sub hA ?_); rfl)
    | (extract_lets +onlyGivenNames y; refine Keeps.cut (y := y) ?_ (fun hy => ?_) <;> [(unfold y; clear y); (clear_value y; rename' y => w)])
    | (extract_lets +onlyGivenNames y; clear_value y; rename' y => w)
    | (extract_lets +onlyGivenNames y; rename' y => w)
    | with_reducible apply State.modCheck_keeps
    | (with_reducible apply Keeps.foldl; intro y b hy)
    | (with_reducible apply Keeps.foldl_fst; intro y b hy)
    | split
    | dsimp -zeta only

end Sys2Proof.Machine
end

