-- ==== Sys2Proof/Laws/KeepCoder.lean ====
section
/-!
SUPPORT. Keeps for the operations of Machine/Coder.lean.
-/

namespace Sys2Proof.Machine

theorem State.deal_keeps {A : Nat} {z : State} {s : State} {c : Nat} {waited : Bool} (hA : 0x800000 &&& A = 0x800000) (hk : Keeps A z s) :
    Keeps A z (State.deal s c waited) := by
  unfold State.deal
  repeat' first
    | with_reducible assumption
    | ((with_reducible refine Part.sub hA ?_); rfl)
    | (extract_lets +onlyGivenNames y; refine Keeps.cut (y := y) ?_ (fun hy => ?_) <;> [(unfold y; clear y); (clear_value y; rename' y => w)])
    | (extract_lets +onlyGivenNames y; clear_value y; rename' y => w)
    | (extract_lets +onlyGivenNames y; rename' y => w)
    | with_reducible apply State.modJob_keeps
    | (with_reducible apply Keeps.foldl; intro y b hy)
    | (with_reducible apply Keeps.foldl_fst; intro y b hy)
    | split
    | dsimp -zeta only

theorem State.bumpRate_keeps {A : Nat} {z : State} {s : State} {cls inst : Nat} (hA : 0x4000000000 &&& A = 0x4000000000) (hk : Keeps A z s) :
    Keeps A z (State.bumpRate s cls inst) := by
  unfold State.bumpRate
  repeat' first
    | with_reducible assumption
    | ((with_reducible refine Part.sub hA ?_); rfl)
    | (extract_lets +onlyGivenNames y; refine Keeps.cut (y := y) ?_ (fun hy => ?_) <;> [(unfold y; clear y); rename' y => w])
    | (extract_lets +onlyGivenNames y; rename' y => w)
    | split
    | (with_reducible refine Keeps.change ?_ rfl rfl rfl rfl rfl rfl rfl rfl id ?_)
    | (intro p hp; cases p <;> first | exact Part.inside hA hp rfl | rfl)
    | dsimp -zeta only

theorem State.overrun_keeps {A : Nat} {z : State} {s : State} {c k stripe i : Nat} {first : Bool} (hA : 0x4800000005 &&& A = 0x4800000005) (hk : Keeps A z s) :
    Keeps A z (State.overrun s c k stripe i first) := by
  unfold State.overrun
  repeat' first
    | with_reducible assumption
    | ((with_reducible refine Part.sub hA ?_); rfl)
    | (extract_lets +onlyGivenNames y; refine Keeps.cut (y := y) ?_ (fun hy => ?_) <;> [(unfold y; clear y); rename' y => w])
    | (extract_lets +onlyGivenNames y; rename' y => w)
    | with_reducible apply State.count_keeps
    | with_reducible apply State.logRated_keeps
    | with_reducible apply State.event_keeps
    | with_reducible apply State.bumpRate_keeps
    | split
    | (with_reducible refine Keeps.change ?_ rfl rfl rfl rfl rfl rfl rfl rfl id ?_)
    | (intro p hp; cases p <;> first | exact Part.inside hA hp rfl | rfl)
    | dsimp -zeta only

theorem State.ensureJob_keeps {A : Nat} {z : State} {s : State} {c frame line stripe k : Nat} (hA : 0x800000 &&& A = 0x800000) (hk : Keeps A z s) :
    Keeps A z (State.ensureJob s c frame line stripe k) := by
  unfold State.ensureJob
  repeat' first
    | with_reducible assumption
    | ((with_reducible refine Part.sub hA ?_); rfl)
    | (extract_lets +onlyGivenNames y; refine Keeps.cut (y := y) ?_ (fun hy => ?_) <;> [(unfold y; clear y); (clear_value y; rename' y => w)])
    | (extract_lets +onlyGivenNames y; clear_value y; rename' y => w)
    | (extract_lets +onlyGivenNames y; rename' y => w)
    | with_reducible apply State.modChan_keeps
    | split
    | dsimp -zeta only

theorem State.feedUnit_keeps {A : Nat} {z : State} {s : State} {c frame line stripe k u : Nat} {unit : List Int} (hA : 0x4801800005 &&& A = 0x4801800005) (hk : Keeps A z s) :
    Keeps A z (State.feedUnit s c frame line stripe k u unit) := by
  unfold State.feedUnit
  repeat' first
    | with_reducible assumption
    | ((with_reducible refine Part.sub hA ?_); rfl)
    | (extract_lets +onlyGivenNames y; refine Keeps.cut (y := y) ?_ (fun hy => ?_) <;> [(unfold y; clear y); (clear_value y; rename' y => w)])
    | (extract_lets +onlyGivenNames y; clear_value y; rename' y => w)
    | (extract_lets +onlyGivenNames y; rename' y => w)
    | with_reducible apply State.modCoder_keeps
    | with_reducible apply State.modJob_keeps
    | with_reducible apply State.overrun_keeps
    | with_reducible apply State.ensureJob_keeps
    | split
    | dsimp -zeta only

theorem State.closeCurd_keeps {A : Nat} {z : State} {s : State} {c frame line stripe k : Nat} (hA : 0x800000 &&& A = 0x800000) (hk : Keeps A z s) :
    Keeps A z (State.closeCurd s c frame line stripe k) := by
  unfold State.closeCurd
  repeat' first
    | with_reducible assumption
    | ((with_reducible refine Part.sub hA ?_); rfl)
    | (extract_lets +onlyGivenNames y; refine Keeps.cut (y := y) ?_ (fun hy => ?_) <;> [(unfold y; clear y); (clear_value y; rename' y => w)])
    | (extract_lets +onlyGivenNames y; clear_value y; rename' y => w)
    | (extract_lets +onlyGivenNames y; rename' y => w)
    | with_reducible apply State.modJob_keeps
    | with_reducible apply State.ensureJob_keeps
    | split
    | dsimp -zeta only

theorem State.mirrorBad_keeps {A : Nat} {z : State} {s : State} {c line cause : Nat} (hA : 0x4800000005 &&& A = 0x4800000005) (hk : Keeps A z s) :
    Keeps A z (State.mirrorBad s c line cause) := by
  unfold State.mirrorBad
  repeat' first
    | with_reducible assumption
    | ((with_reducible refine Part.sub hA ?_); rfl)
    | (extract_lets +onlyGivenNames y; refine Keeps.cut (y := y) ?_ (fun hy => ?_) <;> [(unfold y; clear y); (clear_value y; rename' y => w)])
    | (extract_lets +onlyGivenNames y; clear_value y; rename' y => w)
    | (extract_lets +onlyGivenNames y; rename' y => w)
    | with_reducible apply State.count_keeps
    | with_reducible apply State.logOut_keeps
    | with_reducible apply State.event_keeps
    | split
    | dsimp -zeta only

theorem State.takePress_keeps {A : Nat} {z : State} {s : State} {c : Nat} {q : List Nat} {d : Nat} (hA : 0x800000 &&& A = 0x800000) (hk : Keeps A z s) :
    Keeps A z (State.takePress s c q d) := by
  unfold State.takePress
  repeat' first
    | with_reducible assumption
    | ((with_reducible refine Part.sub hA ?_); rfl)
    | (extract_lets +onlyGivenNames y; refine Keeps.cut (y := y) ?_ (fun hy => ?_) <;> [(unfold y; clear y); (clear_value y; rename' y => w)])
    | (extract_lets +onlyGivenNames y; clear_value y; rename' y => w)
    | (extract_lets +onlyGivenNames y; rename' y => w)
    | with_reducible apply State.modChan_keeps
    | with_reducible apply State.setQ_keeps
    | (with_reducible apply Keeps.foldl; intro y b hy)
    | (with_reducible apply Keeps.foldl_fst; intro y b hy)
    | split
    | dsimp -zeta only

theorem State.pressAnew_keeps {A : Nat} {z : State} {s : State} {c : Nat} (hA : 0x800000 &&& A = 0x800000) (hk : Keeps A z s) :
    Keeps A z (State.pressAnew s c) := by
  unfold State.pressAnew
  repeat' first
    | with_reducible assumption
    | ((with_reducible refine Part.sub hA ?_); rfl)
    | (extract_lets +onlyGivenNames y; refine Keeps.cut (y := y) ?_ (fun hy => ?_) <;> [(unfold y; clear y); (clear_value y; rename' y => w)])
    | (extract_lets +onlyGivenNames y; clear_value y; rename' y => w)
    | (extract_lets +onlyGivenNames y; rename' y => w)
    | with_reducible apply State.modChan_keeps
    | split
    | dsimp -zeta only

theorem State.restartWhole_keeps {A : Nat} {z : State} {s : State} {c line cause : Nat} (hA : 0x4804800005 &&& A = 0x4804800005) (hk : Keeps A z s) :
    Keeps A z (State.restartWhole s c line cause) := by
  unfold State.restartWhole
  repeat' first
    | with_reducible assumption
    | ((with_reducible refine Part.sub hA ?_); rfl)
    | (extract_lets +onlyGivenNames y; refine Keeps.cut (y := y) ?_ (fun hy => ?_) <;> [(unfold y; clear y); (clear_value y; rename' y => w)])
    | (extract_lets +onlyGivenNames y; clear_value y; rename' y => w)
    | (extract_lets +onlyGivenNames y; rename' y => w)
    | with_reducible apply State.modRind_keeps
    | with_reducible apply State.mirrorBad_keeps
    | with_reducible apply State.pressAnew_keeps
    | split
    | dsimp -zeta only

theorem State.takeState_keeps {A : Nat} {z : State} {s : State} {c frame line : Nat} (hA : 0x4804800005 &&& A = 0x4804800005) (hk : Keeps A z s) :
    Keeps A z (State.takeState s c frame line) := by
  unfold State.takeState
  repeat' first
    | with_reducible assumption
    | ((with_reducible refine Part.sub hA ?_); rfl)
    | (extract_lets +onlyGivenNames y; refine Keeps.cut (y := y) ?_ (fun hy => ?_) <;> [(unfold y; clear y); (clear_value y; rename' y => w)])
    | (extract_lets +onlyGivenNames y; clear_value y; rename' y => w)
    | (extract_lets +onlyGivenNames y; rename' y => w)
    | with_reducible apply State.takePress_keeps
    | with_reducible apply State.pressAnew_keeps
    | with_reducible apply State.restartWhole_keeps
    | (with_reducible apply Keeps.foldl; intro y b hy)
    | (with_reducible apply Keeps.foldl_fst; intro y b hy)
    | split
    | dsimp -zeta only

theorem State.reachLine_keeps {A : Nat} {z : State} {s : State} {c frame line : Nat} (hA : 0x481580c005 &&& A = 0x481580c005) (hk : Keeps A z s) :
    Keeps A z (State.reachLine s c frame line) := by
  unfold State.reachLine
  repeat' first
    | with_reducible assumption
    | ((with_reducible refine Part.sub hA ?_); rfl)
    | (extract_lets +onlyGivenNames y; refine Keeps.cut (y := y) ?_ (fun hy => ?_) <;> [(unfold y; clear y); (clear_value y; rename' y => w)])
    | (extract_lets +onlyGivenNames y; refine Keeps.cut (y := y.1) ?_ (fun hy => ?_) <;> [(unfold y; clear y); (clear_value y; rename' y => w)])
    | (extract_lets +onlyGivenNames y; clear_value y; rename' y => w)
    | (extract_lets +onlyGivenNames y; rename' y => w)
    | with_reducible apply State.modRind_keeps
    | with_reducible apply State.logOut_keeps
    | with_reducible apply State.handedOver_keeps
    | with_reducible apply State.takeState_keeps
    | split
    | dsimp -zeta only

theorem State.applySections_keeps {A : Nat} {z : State} {s : State} {c : Nat} (hA : 0x4000800000 &&& A = 0x4000800000) (hk : Keeps A z s) :
    Keeps A z (State.applySections s c) := by
  unfold State.applySections
  repeat' first
    | with_reducible assumption
    | ((with_reducible refine Part.sub hA ?_); rfl)
    | (extract_lets +onlyGivenNames y; refine Keeps.cut (y := y) ?_ (fun hy => ?_) <;> [(unfold y; clear y); (clear_value y; rename' y => w)])
    | (extract_lets +onlyGivenNames y; refine Keeps.cut (y := y.1) ?_ (fun hy => ?_) <;> [(unfold y; clear y); (clear_value y; rename' y => w)])
    | (extract_lets +onlyGivenNames y; clear_value y; rename' y => w)
    | (extract_lets +onlyGivenNames y; rename' y => w)
    | with_reducible apply State.modChan_keeps
    | with_reducible apply State.logOut_keeps
    | split
    | dsimp -zeta only

theorem State.releaseCoder_keeps {A : Nat} {z : State} {s : State} {c : Nat} (hA : 0x481500c005 &&& A = 0x481500c005) (hk : Keeps A z s) :
    Keeps A z (State.releaseCoder s c) := by
  unfold State.releaseCoder
  dsimp only
  repeat' first
    | with_reducible assumption
    | ((with_reducible refine Part.sub hA ?_); rfl)
    | (extract_lets +onlyGivenNames y; refine Keeps.cut (y := y) ?_ (fun hy => ?_) <;> [(unfold y; clear y); (clear_value y; rename' y => w)])
    | (extract_lets +onlyGivenNames y; clear_value y; rename' y => w)
    | (extract_lets +onlyGivenNames y; rename' y => w)
    | with_reducible apply State.modRind_keeps
    | with_reducible apply State.spareCheck_keeps
    | with_reducible apply State.freeCoder_keeps
    | split
    | dsimp -zeta only

theorem State.stopChannel_keeps {A : Nat} {z : State} {s : State} {c : Nat} (hA : 0x4c1da0c045 &&& A = 0x4c1da0c045) (hk : Keeps A z s) :
    Keeps A z (State.stopChannel s c) := by
  unfold State.stopChannel
  repeat' first
    | with_reducible assumption
    | ((with_reducible refine Part.sub hA ?_); rfl)
    | (extract_lets +onlyGivenNames y; refine Keeps.cut (y := y) ?_ (fun hy => ?_) <;> [(unfold y; clear y); (clear_value y; rename' y => w)])
    | (extract_lets +onlyGivenNames y; clear_value y; rename' y => w)
    | (extract_lets +onlyGivenNames y; rename' y => w)
    | with_reducible apply State.modChan_keeps
    | with_reducible apply State.finishFrames_keeps
    | with_reducible apply State.beginEov_keeps
    | with_reducible apply State.releaseCoder_keeps
    | split
    | dsimp -zeta only

theorem State.enableChannel_keeps {A : Nat} {z : State} {s : State} {c : Nat} (hA : 0xa00000 &&& A = 0xa00000) (hk : Keeps A z s) :
    Keeps A z (State.enableChannel s c) := by
  unfold State.enableChannel
  repeat' first
    | with_reducible assumption
    | ((with_reducible refine Part.sub hA ?_); rfl)
    | (extract_lets +onlyGivenNames y; refine Keeps.cut (y := y) ?_ (fun hy => ?_) <;> [(unfold y; clear y); (clear_value y; rename' y => w)])
    | (extract_lets +onlyGivenNames y; clear_value y; rename' y => w)
    | (extract_lets +onlyGivenNames y; rename' y => w)
    | with_reducible apply State.modChIn_keeps
    | with_reducible apply State.modChan_keeps
    | split
    | dsimp -zeta only

theorem State.channelSections_keeps {A : Nat} {z : State} {s : State} {c : Nat} (hA : 0x4c1da0c045 &&& A = 0x4c1da0c045) (hk : Keeps A z s) :
    Keeps A z (State.channelSections s c) := by
  unfold State.channelSections
  repeat' first
    | with_reducible assumption
    | ((with_reducible refine Part.sub hA ?_); rfl)
    | (extract_lets +onlyGivenNames y; refine Keeps.cut (y := y) ?_ (fun hy => ?_) <;> [(unfold y; clear y); (clear_value y; rename' y => w)])
    | (extract_lets +onlyGivenNames y; clear_value y; rename' y => w)
    | (extract_lets +onlyGivenNames y; rename' y => w)
    | with_reducible apply State.modChan_keeps
    | with_reducible apply State.applySections_keeps
    | with_reducible apply State.stopChannel_keeps
    | with_reducible apply State.enableChannel_keeps
    | split
    | (with_reducible refine Keeps.change ?_ rfl rfl rfl rfl rfl rfl rfl rfl id ?_)
    | (intro p hp; cases p <;> first | exact Part.inside hA hp rfl | rfl)
    | dsimp -zeta only

theorem State.renewClaim_keeps {A : Nat} {z : State} {s : State} {c : Nat} (hA : 0x4000000 &&& A = 0x4000000) (hk : Keeps A z s) :
    Keeps A z (State.renewClaim s c) := by
  unfold State.renewClaim
  repeat' first
    | with_reducible assumption
    | ((with_reducible refine Part.sub hA ?_); rfl)
    | (extract_lets +onlyGivenNames y; refine Keeps.cut (y := y) ?_ (fun hy => ?_) <;> [(unfold y; clear y); (clear_value y; rename' y => w)])
    | (extract_lets +onlyGivenNames y; clear_value y; rename' y => w)
    | (extract_lets +onlyGivenNames y; rename' y => w)
    | with_reducible apply State.modRind_keeps
    | split
    | dsimp -zeta only

theorem State.promotedStart_keeps {A : Nat} {z : State} {s : State} {c number : Nat} (hA : 0x4008800001 &&& A = 0x4008800001) (hk : Keeps A z s) :
    Keeps A z (State.promotedStart s c number) := by
  unfold State.promotedStart
  repeat' first
    | with_reducible assumption
    | ((with_reducible refine Part.sub hA ?_); rfl)
    | (extract_lets +onlyGivenNames y; refine Keeps.cut (y := y) ?_ (fun hy => ?_) <;> [(unfold y; clear y); (clear_value y; rename' y => w)])
    | (extract_lets +onlyGivenNames y; clear_value y; rename' y => w)
    | (extract_lets +onlyGivenNames y; rename' y => w)
    | with_reducible apply State.modChan_keeps
    | with_reducible apply State.logOut_keeps
    | with_reducible apply State.modGap_keeps
    | with_reducible apply State.sendGap_keeps
    | with_reducible apply State.takePress_keeps
    | (with_reducible apply Keeps.foldl; intro y b hy)
    | (with_reducible apply Keeps.foldl_fst; intro y b hy)
    | split
    | dsimp -zeta only

theorem State.frameSections_keeps {A : Nat} {z : State} {s : State} {c : Nat} (hA : 0x4c1da0c045 &&& A = 0x4c1da0c045) (hk : Keeps A z s) :
    Keeps A z (State.frameSections s c) := by
  unfold State.frameSections
  repeat' first
    | with_reducible assumption
    | ((with_reducible refine Part.sub hA ?_); rfl)
    | (extract_lets +onlyGivenNames y; refine Keeps.cut (y := y) ?_ (fun hy => ?_) <;> [(unfold y; clear y); (clear_value y; rename' y => w)])
    | (extract_lets +onlyGivenNames y; clear_value y; rename' y => w)
    | (extract_lets +onlyGivenNames y; rename' y => w)
    | with_reducible apply State.channelSections_keeps
    | split
    | dsimp -zeta only

theorem State.startFrame_keeps {A : Nat} {z : State} {s : State} {c number rtp : Nat} (hA : 0x481d80c005 &&& A = 0x481d80c005) (hk : Keeps A z s) :
    Keeps A z (State.startFrame s c number rtp) := by
  unfold State.startFrame
  repeat' first
    | with_reducible assumption
    | ((with_reducible refine Part.sub hA ?_); rfl)
    | (extract_lets +onlyGivenNames y; refine Keeps.cut (y := y) ?_ (fun hy => ?_) <;> [(unfold y; clear y); (clear_value y; rename' y => w)])
    | (extract_lets +onlyGivenNames y; clear_value y; rename' y => w)
    | (extract_lets +onlyGivenNames y; rename' y => w)
    | with_reducible apply State.modChan_keeps
    | with_reducible apply State.logOut_keeps
    | with_reducible apply State.event_keeps
    | with_reducible apply State.reachLine_keeps
    | with_reducible apply State.renewClaim_keeps
    | with_reducible apply State.promotedStart_keeps
    | split
    | dsimp -zeta only

theorem State.endFrame_keeps {A : Nat} {z : State} {s : State} {c number : Nat} (hA : 0x4c1da0c045 &&& A = 0x4c1da0c045) (hk : Keeps A z s) :
    Keeps A z (State.endFrame s c number) := by
  unfold State.endFrame
  repeat' first
    | with_reducible assumption
    | ((with_reducible refine Part.sub hA ?_); rfl)
    | (extract_lets +onlyGivenNames y; refine Keeps.cut (y := y) ?_ (fun hy => ?_) <;> [(unfold y; clear y); (clear_value y; rename' y => w)])
    | (extract_lets +onlyGivenNames y; clear_value y; rename' y => w)
    | (extract_lets +onlyGivenNames y; rename' y => w)
    | with_reducible apply State.modFrame_keeps
    | with_reducible apply State.closeFrame_keeps
    | with_reducible apply State.settle_keeps
    | split
    | dsimp -zeta only

theorem State.readBrine_keeps {A : Nat} {z : State} {s : State} {c : Nat} {j : Job} {b : BrineRead} (hA : 0x4804800005 &&& A = 0x4804800005) (hk : Keeps A z s) :
    Keeps A z (State.readBrine s c j b) := by
  unfold State.readBrine
  repeat' first
    | with_reducible assumption
    | ((with_reducible refine Part.sub hA ?_); rfl)
    | (extract_lets +onlyGivenNames y; refine Keeps.cut (y := y) ?_ (fun hy => ?_) <;> [(unfold y; clear y); (clear_value y; rename' y => w)])
    | (extract_lets +onlyGivenNames y; clear_value y; rename' y => w)
    | (extract_lets +onlyGivenNames y; rename' y => w)
    | with_reducible apply State.count_keeps
    | with_reducible apply State.mirrorBad_keeps
    | with_reducible apply State.restartWhole_keeps
    | split
    | dsimp -zeta only

theorem execLaneTakeCurd_keeps {A : Nat} {z : State} {channel : Fin 48} {take : LaneTake} {s : State} (hA : 0x4805800005 &&& A = 0x4805800005) (hk : Keeps A z s) :
    KeepsOut A z (execLaneTakeCurd channel take s) := by
  unfold execLaneTakeCurd
  repeat' first
    | with_reducible assumption
    | with_reducible apply KeepsOut.fault
    | with_reducible apply KeepsOut.next
    | (extract_lets +onlyGivenNames y; refine KeepsOut.cut (y := y) ?_ (fun hy => ?_) <;> [(unfold y; clear y); (clear_value y; rename' y => w)])
    | ((with_reducible refine Part.sub hA ?_); rfl)
    | (extract_lets +onlyGivenNames y; refine Keeps.cut (y := y) ?_ (fun hy => ?_) <;> [(unfold y; clear y); (clear_value y; rename' y => w)])
    | (extract_lets +onlyGivenNames y; clear_value y; rename' y => w)
    | (extract_lets +onlyGivenNames y; rename' y => w)
    | with_reducible apply State.modCoder_keeps
    | with_reducible apply State.underPlan_keeps
    | with_reducible apply State.modJob_keeps
    | with_reducible apply State.storeColumn_keeps
    | with_reducible apply State.deal_keeps
    | with_reducible apply State.readBrine_keeps
    | split
    | dsimp -zeta only

theorem State.selectCurd_keeps {A : Nat} {z : State} {s : State} {c : Nat} {j : Job} (hA : 0x1800001 &&& A = 0x1800001) (hk : Keeps A z s) :
    Keeps A z (State.selectCurd s c j) := by
  unfold State.selectCurd
  repeat' first
    | with_reducible assumption
    | ((with_reducible refine Part.sub hA ?_); rfl)
    | (extract_lets +onlyGivenNames y; refine Keeps.cut (y := y) ?_ (fun hy => ?_) <;> [(unfold y; clear y); (clear_value y; rename' y => w)])
    | (extract_lets +onlyGivenNames y; clear_value y; rename' y => w)
    | (extract_lets +onlyGivenNames y; rename' y => w)
    | with_reducible apply State.countBy_keeps
    | with_reducible apply State.count_keeps
    | with_reducible apply State.modChan_keeps
    | with_reducible apply State.setQ_keeps
    | with_reducible apply State.modJob_keeps
    | with_reducible apply State.charge_keeps
    | with_reducible apply State.storeColumn_keeps
    | split
    | dsimp -zeta only

theorem execCurdSelect_keeps {A : Nat} {z : State} {channel : Fin 48} {lane : Fin 4} {s : State} (hA : 0x4c1da0c045 &&& A = 0x4c1da0c045) (hk : Keeps A z s) :
    KeepsOut A z (execCurdSelect channel lane s) := by
  unfold execCurdSelect
  repeat' first
    | with_reducible assumption
    | with_reducible apply KeepsOut.fault
    | with_reducible apply KeepsOut.next
    | (extract_lets +onlyGivenNames y; refine KeepsOut.cut (y := y) ?_ (fun hy => ?_) <;> [(unfold y; clear y); (clear_value y; rename' y => w)])
    | ((with_reducible refine Part.sub hA ?_); rfl)
    | (extract_lets +onlyGivenNames y; refine Keeps.cut (y := y) ?_ (fun hy => ?_) <;> [(unfold y; clear y); (clear_value y; rename' y => w)])
    | (extract_lets +onlyGivenNames y; clear_value y; rename' y => w)
    | (extract_lets +onlyGivenNames y; rename' y => w)
    | with_reducible apply State.under_keeps
    | with_reducible intro _
    | with_reducible apply State.dropJobs_keeps
    | with_reducible apply State.settle_keeps
    | with_reducible apply State.selectCurd_keeps
    | split
    | dsimp -zeta only

theorem State.takeoverCause_keeps {A : Nat} {z : State} {s : State} {c k cause : Nat} {target : Option Nat} (hA : 0x2000000 &&& A = 0x2000000) (hk : Keeps A z s) :
    Keeps A z (State.takeoverCause s c k cause target) := by
  unfold State.takeoverCause
  repeat' first
    | with_reducible assumption
    | ((with_reducible refine Part.sub hA ?_); rfl)
    | (extract_lets +onlyGivenNames y; refine Keeps.cut (y := y) ?_ (fun hy => ?_) <;> [(unfold y; clear y); (clear_value y; rename' y => w)])
    | (extract_lets +onlyGivenNames y; clear_value y; rename' y => w)
    | (extract_lets +onlyGivenNames y; rename' y => w)
    | split
    | (with_reducible refine Keeps.change ?_ rfl rfl rfl rfl rfl rfl rfl rfl id ?_)
    | (intro p hp; cases p <;> first | exact Part.inside hA hp rfl | rfl)
    | dsimp -zeta only

theorem State.coderSuspect_keeps {A : Nat} {z : State} {s : State} {c k fails cause : Nat} (hA : 0x4802000005 &&& A = 0x4802000005) (hk : Keeps A z s) :
    Keeps A z (State.coderSuspect s c k fails cause) := by
  unfold State.coderSuspect
  repeat' first
    | with_reducible assumption
    | ((with_reducible refine Part.sub hA ?_); rfl)
    | (extract_lets +onlyGivenNames y; refine Keeps.cut (y := y) ?_ (fun hy => ?_) <;> [(unfold y; clear y); (clear_value y; rename' y => w)])
    | (extract_lets +onlyGivenNames y; clear_value y; rename' y => w)
    | (extract_lets +onlyGivenNames y; rename' y => w)
    | with_reducible apply State.logOut_keeps
    | with_reducible apply State.event_keeps
    | with_reducible apply State.takeoverCause_keeps
    | split
    | dsimp -zeta only

theorem State.mismatch_keeps {A : Nat} {z : State} {s : State} {c : Nat} {j : Job} {check : Nat} (hA : 0x4803000005 &&& A = 0x4803000005) (hk : Keeps A z s) :
    Keeps A z (State.mismatch s c j check) := by
  unfold State.mismatch
  repeat' first
    | with_reducible assumption
    | ((with_reducible refine Part.sub hA ?_); rfl)
    | (extract_lets +onlyGivenNames y; refine Keeps.cut (y := y) ?_ (fun hy => ?_) <;> [(unfold y; clear y); (clear_value y; rename' y => w)])
    | (extract_lets +onlyGivenNames y; clear_value y; rename' y => w)
    | (extract_lets +onlyGivenNames y; rename' y => w)
    | with_reducible apply State.count_keeps
    | with_reducible apply State.modCoder_keeps
    | with_reducible apply State.logData_keeps
    | with_reducible apply State.event_keeps
    | with_reducible apply State.coderSuspect_keeps
    | split
    | dsimp -zeta only

theorem State.missDeadline_keeps {A : Nat} {z : State} {s : State} {c : Nat} {j : Job} (hA : 0x4800800005 &&& A = 0x4800800005) (hk : Keeps A z s) :
    Keeps A z (State.missDeadline s c j) := by
  unfold State.missDeadline
  repeat' first
    | with_reducible assumption
    | ((with_reducible refine Part.sub hA ?_); rfl)
    | (extract_lets +onlyGivenNames y; refine Keeps.cut (y := y) ?_ (fun hy => ?_) <;> [(unfold y; clear y); (clear_value y; rename' y => w)])
    | (extract_lets +onlyGivenNames y; clear_value y; rename' y => w)
    | (extract_lets +onlyGivenNames y; rename' y => w)
    | with_reducible apply State.count_keeps
    | with_reducible apply State.event_keeps
    | with_reducible apply State.modJob_keeps
    | split
    | dsimp -zeta only

theorem State.columnDeadlines_keeps {A : Nat} {z : State} {s : State} {c stripe k : Nat} {after : Nat} (hA : 0x4c1da0c045 &&& A = 0x4c1da0c045) (hk : Keeps A z s) :
    Keeps A z (State.columnDeadlines s c stripe k after) := by
  unfold State.columnDeadlines
  repeat' first
    | with_reducible assumption
    | ((with_reducible refine Part.sub hA ?_); rfl)
    | (extract_lets +onlyGivenNames y; refine Keeps.cut (y := y) ?_ (fun hy => ?_) <;> [(unfold y; clear y); (clear_value y; rename' y => w)])
    | (extract_lets +onlyGivenNames y; clear_value y; rename' y => w)
    | (extract_lets +onlyGivenNames y; rename' y => w)
    | with_reducible apply State.settle_keeps
    | with_reducible apply State.missDeadline_keeps
    | (with_reducible apply Keeps.foldl; intro y b hy)
    | (with_reducible apply Keeps.foldl_fst; intro y b hy)
    | split
    | dsimp -zeta only

theorem execVerdict_keeps {A : Nat} {z : State} {channel : Fin 48} {stripe : Fin 4} {k : Nat} {injected : Option (Fin 4)} {s : State} (hA : 0x4c1fa0c045 &&& A = 0x4c1fa0c045) (hk : Keeps A z s) :
    KeepsOut A z (execVerdict channel stripe k injected s) := by
  unfold execVerdict
  repeat' first
    | with_reducible assumption
    | with_reducible apply KeepsOut.fault
    | with_reducible apply KeepsOut.next
    | (extract_lets +onlyGivenNames y; refine KeepsOut.cut (y := y) ?_ (fun hy => ?_) <;> [(unfold y; clear y); (clear_value y; rename' y => w)])
    | ((with_reducible refine Part.sub hA ?_); rfl)
    | (extract_lets +onlyGivenNames y; refine Keeps.cut (y := y) ?_ (fun hy => ?_) <;> [(unfold y; clear y); (clear_value y; rename' y => w)])
    | (extract_lets +onlyGivenNames y; clear_value y; rename' y => w)
    | (extract_lets +onlyGivenNames y; rename' y => w)
    | with_reducible apply State.modCoder_keeps
    | with_reducible apply State.underPlan_keeps
    | with_reducible apply State.modJob_keeps
    | with_reducible apply State.dropJobs_keeps
    | with_reducible apply State.curdLate_keeps
    | with_reducible apply State.settle_keeps
    | with_reducible apply State.mismatch_keeps
    | with_reducible apply State.columnDeadlines_keeps
    | split
    | dsimp -zeta only

theorem execVerdictDeadline_keeps {A : Nat} {z : State} {channel : Fin 48} {stripe : Fin 4} {k : Nat} {s : State} (hA : 0x4c1da0c045 &&& A = 0x4c1da0c045) (hk : Keeps A z s) :
    KeepsOut A z (execVerdictDeadline channel stripe k s) := by
  unfold execVerdictDeadline
  repeat' first
    | with_reducible assumption
    | with_reducible apply KeepsOut.fault
    | with_reducible apply KeepsOut.next
    | (extract_lets +onlyGivenNames y; refine KeepsOut.cut (y := y) ?_ (fun hy => ?_) <;> [(unfold y; clear y); (clear_value y; rename' y => w)])
    | ((with_reducible refine Part.sub hA ?_); rfl)
    | (extract_lets +onlyGivenNames y; refine Keeps.cut (y := y) ?_ (fun hy => ?_) <;> [(unfold y; clear y); (clear_value y; rename' y => w)])
    | (extract_lets +onlyGivenNames y; clear_value y; rename' y => w)
    | (extract_lets +onlyGivenNames y; rename' y => w)
    | with_reducible apply State.columnDeadlines_keeps
    | split
    | dsimp -zeta only

theorem execCurdLateHandover_keeps {A : Nat} {z : State} {channel : Fin 48} {stripe : Fin 4} {k : Nat} {s : State} (hA : 0x4000800000 &&& A = 0x4000800000) (hk : Keeps A z s) :
    KeepsOut A z (execCurdLateHandover channel stripe k s) := by
  unfold execCurdLateHandover
  repeat' first
    | with_reducible assumption
    | with_reducible apply KeepsOut.fault
    | with_reducible apply KeepsOut.next
    | (extract_lets +onlyGivenNames y; refine KeepsOut.cut (y := y) ?_ (fun hy => ?_) <;> [(unfold y; clear y); (clear_value y; rename' y => w)])
    | ((with_reducible refine Part.sub hA ?_); rfl)
    | (extract_lets +onlyGivenNames y; refine Keeps.cut (y := y) ?_ (fun hy => ?_) <;> [(unfold y; clear y); (clear_value y; rename' y => w)])
    | (extract_lets +onlyGivenNames y; clear_value y; rename' y => w)
    | (extract_lets +onlyGivenNames y; rename' y => w)
    | with_reducible apply State.modJob_keeps
    | with_reducible apply State.dropJobs_keeps
    | with_reducible apply State.curdLate_keeps
    | split
    | dsimp -zeta only

theorem execPackedPacketTimeout_keeps {A : Nat} {z : State} {channel : Fin 48} {s : State} (hA : 0x8800000 &&& A = 0x8800000) (hk : Keeps A z s) :
    KeepsOut A z (execPackedPacketTimeout channel s) := by
  unfold execPackedPacketTimeout
  repeat' first
    | with_reducible assumption
    | with_reducible apply KeepsOut.fault
    | with_reducible apply KeepsOut.next
    | (extract_lets +onlyGivenNames y; refine KeepsOut.cut (y := y) ?_ (fun hy => ?_) <;> [(unfold y; clear y); (clear_value y; rename' y => w)])
    | ((with_reducible refine Part.sub hA ?_); rfl)
    | (extract_lets +onlyGivenNames y; refine Keeps.cut (y := y) ?_ (fun hy => ?_) <;> [(unfold y; clear y); (clear_value y; rename' y => w)])
    | (extract_lets +onlyGivenNames y; clear_value y; rename' y => w)
    | (extract_lets +onlyGivenNames y; rename' y => w)
    | with_reducible apply State.closePacket_keeps
    | with_reducible apply State.under_keeps
    | with_reducible intro _
    | split
    | dsimp -zeta only

theorem execChannelEovRepeat_keeps {A : Nat} {z : State} {channel : Fin 48} {s : State} (hA : 0x4808800005 &&& A = 0x4808800005) (hk : Keeps A z s) :
    KeepsOut A z (execChannelEovRepeat channel s) := by
  unfold execChannelEovRepeat
  repeat' first
    | with_reducible assumption
    | with_reducible apply KeepsOut.fault
    | with_reducible apply KeepsOut.next
    | (extract_lets +onlyGivenNames y; refine KeepsOut.cut (y := y) ?_ (fun hy => ?_) <;> [(unfold y; clear y); (clear_value y; rename' y => w)])
    | ((with_reducible refine Part.sub hA ?_); rfl)
    | (extract_lets +onlyGivenNames y; refine Keeps.cut (y := y) ?_ (fun hy => ?_) <;> [(unfold y; clear y); (clear_value y; rename' y => w)])
    | (extract_lets +onlyGivenNames y; refine Keeps.cut (y := y.1) ?_ (fun hy => ?_) <;> [(unfold y; clear y); (clear_value y; rename' y => w)])
    | (extract_lets +onlyGivenNames y; clear_value y; rename' y => w)
    | (extract_lets +onlyGivenNames y; rename' y => w)
    | with_reducible apply State.modChan_keeps
    | with_reducible apply State.logOut_keeps
    | with_reducible apply State.event_keeps
    | with_reducible apply State.sendEov_keeps
    | split
    | dsimp -zeta only

theorem execSignaturePrefetchDone_keeps {A : Nat} {z : State} {channel : Fin 48} {line : Nat} {readable : Bool} {s : State} (hA : 0x800000 &&& A = 0x800000) (hk : Keeps A z s) :
    KeepsOut A z (execSignaturePrefetchDone channel line readable s) := by
  unfold execSignaturePrefetchDone
  repeat' first
    | with_reducible assumption
    | with_reducible apply KeepsOut.fault
    | with_reducible apply KeepsOut.next
    | (extract_lets +onlyGivenNames y; refine KeepsOut.cut (y := y) ?_ (fun hy => ?_) <;> [(unfold y; clear y); (clear_value y; rename' y => w)])
    | ((with_reducible refine Part.sub hA ?_); rfl)
    | (extract_lets +onlyGivenNames y; refine Keeps.cut (y := y) ?_ (fun hy => ?_) <;> [(unfold y; clear y); (clear_value y; rename' y => w)])
    | (extract_lets +onlyGivenNames y; clear_value y; rename' y => w)
    | (extract_lets +onlyGivenNames y; rename' y => w)
    | with_reducible apply State.modChan_keeps
    | split
    | dsimp -zeta only

theorem execSignatureWriteTimeout_keeps {A : Nat} {z : State} {channel : Fin 48} {position : Nat} {s : State} (hA : 0x800000 &&& A = 0x800000) (hk : Keeps A z s) :
    KeepsOut A z (execSignatureWriteTimeout channel position s) := by
  unfold execSignatureWriteTimeout
  repeat' first
    | with_reducible assumption
    | with_reducible apply KeepsOut.fault
    | with_reducible apply KeepsOut.next
    | (extract_lets +onlyGivenNames y; refine KeepsOut.cut (y := y) ?_ (fun hy => ?_) <;> [(unfold y; clear y); (clear_value y; rename' y => w)])
    | ((with_reducible refine Part.sub hA ?_); rfl)
    | (extract_lets +onlyGivenNames y; refine Keeps.cut (y := y) ?_ (fun hy => ?_) <;> [(unfold y; clear y); (clear_value y; rename' y => w)])
    | (extract_lets +onlyGivenNames y; clear_value y; rename' y => w)
    | (extract_lets +onlyGivenNames y; rename' y => w)
    | with_reducible apply State.modChan_keeps
    | split
    | dsimp -zeta only

end Sys2Proof.Machine
end

