-- ==== Sys2Proof/Laws/KeepGroups.lean ====
section
/-!
SUPPORT. Keeps for the operations of Machine/Groups.lean.
-/

namespace Sys2Proof.Machine

theorem State.sendReport_keeps {A : Nat} {z : State} {s : State} {p group source : Nat} {join : Bool} (hA : 0x40021 &&& A = 0x40021) (hk : Keeps A z s) :
    Keeps A z (State.sendReport s p group source join) := by
  unfold State.sendReport
  repeat' first
    | with_reducible assumption
    | ((with_reducible refine Part.sub hA ?_); rfl)
    | (extract_lets +onlyGivenNames y; refine Keeps.cut (y := y) ?_ (fun hy => ?_) <;> [(unfold y; clear y); (clear_value y; rename' y => w)])
    | (extract_lets +onlyGivenNames y; clear_value y; rename' y => w)
    | (extract_lets +onlyGivenNames y; rename' y => w)
    | with_reducible apply State.sendOther_keeps
    | split
    | dsimp -zeta only

theorem State.join_keeps {A : Nat} {z : State} {s : State} {x : Nat × Nat × Nat} (hA : 0x40021 &&& A = 0x40021) (hk : Keeps A z s) :
    Keeps A z (State.join s x) := by
  unfold State.join
  repeat' first
    | with_reducible assumption
    | ((with_reducible refine Part.sub hA ?_); rfl)
    | (extract_lets +onlyGivenNames y; refine Keeps.cut (y := y) ?_ (fun hy => ?_) <;> [(unfold y; clear y); (clear_value y; rename' y => w)])
    | (extract_lets +onlyGivenNames y; clear_value y; rename' y => w)
    | (extract_lets +onlyGivenNames y; rename' y => w)
    | with_reducible apply State.modPort_keeps
    | with_reducible apply State.sendReport_keeps
    | split
    | dsimp -zeta only

theorem State.leave_keeps {A : Nat} {z : State} {s : State} {x : Nat × Nat × Nat} (hA : 0x40021 &&& A = 0x40021) (hk : Keeps A z s) :
    Keeps A z (State.leave s x) := by
  unfold State.leave
  repeat' first
    | with_reducible assumption
    | ((with_reducible refine Part.sub hA ?_); rfl)
    | (extract_lets +onlyGivenNames y; refine Keeps.cut (y := y) ?_ (fun hy => ?_) <;> [(unfold y; clear y); (clear_value y; rename' y => w)])
    | (extract_lets +onlyGivenNames y; clear_value y; rename' y => w)
    | (extract_lets +onlyGivenNames y; rename' y => w)
    | with_reducible apply State.modPort_keeps
    | with_reducible apply State.sendReport_keeps
    | split
    | dsimp -zeta only

theorem State.joinBank_keeps {A : Nat} {z : State} {s : State} {b : Sparse FtEntry} (hA : 0x40021 &&& A = 0x40021) (hk : Keeps A z s) :
    Keeps A z (State.joinBank s b) := by
  unfold State.joinBank
  repeat' first
    | with_reducible assumption
    | ((with_reducible refine Part.sub hA ?_); rfl)
    | (extract_lets +onlyGivenNames y; refine Keeps.cut (y := y) ?_ (fun hy => ?_) <;> [(unfold y; clear y); (clear_value y; rename' y => w)])
    | (extract_lets +onlyGivenNames y; clear_value y; rename' y => w)
    | (extract_lets +onlyGivenNames y; rename' y => w)
    | with_reducible apply State.join_keeps
    | (with_reducible apply Keeps.foldl; intro y b hy)
    | (with_reducible apply Keeps.foldl_fst; intro y b hy)
    | split
    | dsimp -zeta only

theorem State.leaveUnneeded_keeps {A : Nat} {z : State} {s : State} (hA : 0x40021 &&& A = 0x40021) (hk : Keeps A z s) :
    Keeps A z (State.leaveUnneeded s) := by
  unfold State.leaveUnneeded
  repeat' first
    | with_reducible assumption
    | ((with_reducible refine Part.sub hA ?_); rfl)
    | (extract_lets +onlyGivenNames y; refine Keeps.cut (y := y) ?_ (fun hy => ?_) <;> [(unfold y; clear y); (clear_value y; rename' y => w)])
    | (extract_lets +onlyGivenNames y; clear_value y; rename' y => w)
    | (extract_lets +onlyGivenNames y; rename' y => w)
    | with_reducible apply State.leave_keeps
    | (with_reducible apply Keeps.foldl; intro y b hy)
    | (with_reducible apply Keeps.foldl_fst; intro y b hy)
    | split
    | dsimp -zeta only

theorem State.rejoinPort_keeps {A : Nat} {z : State} {s : State} {p : Nat} (hA : 0x40021 &&& A = 0x40021) (hk : Keeps A z s) :
    Keeps A z (State.rejoinPort s p) := by
  unfold State.rejoinPort
  repeat' first
    | with_reducible assumption
    | ((with_reducible refine Part.sub hA ?_); rfl)
    | (extract_lets +onlyGivenNames y; refine Keeps.cut (y := y) ?_ (fun hy => ?_) <;> [(unfold y; clear y); (clear_value y; rename' y => w)])
    | (extract_lets +onlyGivenNames y; clear_value y; rename' y => w)
    | (extract_lets +onlyGivenNames y; rename' y => w)
    | with_reducible apply State.modPort_keeps
    | with_reducible apply State.join_keeps
    | (with_reducible apply Keeps.foldl; intro y b hy)
    | (with_reducible apply Keeps.foldl_fst; intro y b hy)
    | split
    | dsimp -zeta only

end Sys2Proof.Machine
end

