-- ==== Sys2Proof/Laws/KeepFlow.lean ====
section
/-!
SUPPORT. Keeps for the operations of Machine/Flow.lean.
-/

namespace Sys2Proof.Machine

theorem State.modEntry_keeps {A : Nat} {z : State} {s : State} {i : Nat} {f : FtEntry → FtEntry} (hA : 0x100000 &&& A = 0x100000) (hk : Keeps A z s) :
    Keeps A z (State.modEntry s i f) := by
  unfold State.modEntry
  repeat' first
    | with_reducible assumption
    | ((with_reducible refine Part.sub hA ?_); rfl)
    | (extract_lets +onlyGivenNames y; refine Keeps.cut (y := y) ?_ (fun hy => ?_) <;> [(unfold y; clear y); (clear_value y; rename' y => w)])
    | (extract_lets +onlyGivenNames y; clear_value y; rename' y => w)
    | (extract_lets +onlyGivenNames y; rename' y => w)
    | with_reducible apply State.modFt_keeps
    | split
    | dsimp -zeta only

theorem State.ftResult_keeps {A : Nat} {z : State} {s : State} {g : Agent} {code index : Nat} {both : Bool} (hA : 0x4800000007 &&& A = 0x4800000007) (hk : Keeps A z s) :
    Keeps A z (State.ftResult s g code index both) := by
  unfold State.ftResult
  repeat' first
    | with_reducible assumption
    | ((with_reducible refine Part.sub hA ?_); rfl)
    | (extract_lets +onlyGivenNames y; refine Keeps.cut (y := y) ?_ (fun hy => ?_) <;> [(unfold y; clear y); (clear_value y; rename' y => w)])
    | (extract_lets +onlyGivenNames y; clear_value y; rename' y => w)
    | (extract_lets +onlyGivenNames y; rename' y => w)
    | with_reducible apply State.setLatch_keeps
    | with_reducible apply State.event_keeps
    | split
    | dsimp -zeta only

theorem State.ftNoRoom_keeps {A : Nat} {z : State} {s : State} {g : Agent} {k : List Byte} {both : Bool} (hA : 0x4800000007 &&& A = 0x4800000007) (hk : Keeps A z s) :
    Keeps A z (State.ftNoRoom s g k both) := by
  unfold State.ftNoRoom
  repeat' first
    | with_reducible assumption
    | ((with_reducible refine Part.sub hA ?_); rfl)
    | (extract_lets +onlyGivenNames y; refine Keeps.cut (y := y) ?_ (fun hy => ?_) <;> [(unfold y; clear y); (clear_value y; rename' y => w)])
    | (extract_lets +onlyGivenNames y; clear_value y; rename' y => w)
    | (extract_lets +onlyGivenNames y; rename' y => w)
    | with_reducible apply State.log_keeps
    | with_reducible apply State.event_keeps
    | with_reducible apply State.ftResult_keeps
    | split
    | dsimp -zeta only

theorem execFtAdd_keeps {A : Nat} {z : State} {agent : Agent} {s : State} (hA : 0x4800140027 &&& A = 0x4800140027) (hk : Keeps A z s) :
    KeepsOut A z (execFtAdd agent s) := by
  unfold execFtAdd
  repeat' first
    | with_reducible assumption
    | with_reducible apply KeepsOut.fault
    | with_reducible apply KeepsOut.next
    | (extract_lets +onlyGivenNames y; refine KeepsOut.cut (y := y) ?_ (fun hy => ?_) <;> [(unfold y; clear y); rename' y => w])
    | ((with_reducible refine Part.sub hA ?_); rfl)
    | (extract_lets +onlyGivenNames y; refine Keeps.cut (y := y) ?_ (fun hy => ?_) <;> [(unfold y; clear y); rename' y => w])
    | (extract_lets +onlyGivenNames y; rename' y => w)
    | with_reducible apply State.modFt_keeps
    | with_reducible apply State.join_keeps
    | with_reducible apply State.ftResult_keeps
    | with_reducible apply State.ftNoRoom_keeps
    | (with_reducible apply Keeps.foldl; intro y b hy)
    | (with_reducible apply Keeps.foldl_fst; intro y b hy)
    | split
    | dsimp -zeta only

theorem execFtRemove_keeps {A : Nat} {z : State} {agent : Agent} {s : State} (hA : 0x4800140027 &&& A = 0x4800140027) (hk : Keeps A z s) :
    KeepsOut A z (execFtRemove agent s) := by
  unfold execFtRemove
  repeat' first
    | with_reducible assumption
    | with_reducible apply KeepsOut.fault
    | with_reducible apply KeepsOut.next
    | (extract_lets +onlyGivenNames y; refine KeepsOut.cut (y := y) ?_ (fun hy => ?_) <;> [(unfold y; clear y); rename' y => w])
    | ((with_reducible refine Part.sub hA ?_); rfl)
    | (extract_lets +onlyGivenNames y; refine Keeps.cut (y := y) ?_ (fun hy => ?_) <;> [(unfold y; clear y); rename' y => w])
    | (extract_lets +onlyGivenNames y; rename' y => w)
    | with_reducible apply State.modFt_keeps
    | with_reducible apply State.leaveUnneeded_keeps
    | with_reducible apply State.ftResult_keeps
    | split
    | dsimp -zeta only

theorem State.showEntry_keeps {A : Nat} {z : State} {s : State} {g : Agent} {i : Nat} (hA : 0x2 &&& A = 0x2) (hk : Keeps A z s) :
    Keeps A z (State.showEntry s g i) := by
  unfold State.showEntry
  repeat' first
    | with_reducible assumption
    | ((with_reducible refine Part.sub hA ?_); rfl)
    | (extract_lets +onlyGivenNames y; refine Keeps.cut (y := y) ?_ (fun hy => ?_) <;> [(unfold y; clear y); (clear_value y; rename' y => w)])
    | (extract_lets +onlyGivenNames y; clear_value y; rename' y => w)
    | (extract_lets +onlyGivenNames y; rename' y => w)
    | with_reducible apply State.setLatch_keeps
    | (with_reducible apply Keeps.foldl; intro y b hy)
    | (with_reducible apply Keeps.foldl_fst; intro y b hy)
    | split
    | dsimp -zeta only

theorem execFtRead_keeps {A : Nat} {z : State} {agent : Agent} {s : State} (hA : 0x4800000007 &&& A = 0x4800000007) (hk : Keeps A z s) :
    KeepsOut A z (execFtRead agent s) := by
  unfold execFtRead
  repeat' first
    | with_reducible assumption
    | with_reducible apply KeepsOut.fault
    | with_reducible apply KeepsOut.next
    | (extract_lets +onlyGivenNames y; refine KeepsOut.cut (y := y) ?_ (fun hy => ?_) <;> [(unfold y; clear y); (clear_value y; rename' y => w)])
    | ((with_reducible refine Part.sub hA ?_); rfl)
    | (extract_lets +onlyGivenNames y; refine Keeps.cut (y := y) ?_ (fun hy => ?_) <;> [(unfold y; clear y); (clear_value y; rename' y => w)])
    | (extract_lets +onlyGivenNames y; clear_value y; rename' y => w)
    | (extract_lets +onlyGivenNames y; rename' y => w)
    | with_reducible apply State.ftResult_keeps
    | with_reducible apply State.showEntry_keeps
    | split
    | dsimp -zeta only

theorem execFtLookup_keeps {A : Nat} {z : State} {agent : Agent} {s : State} (hA : 0x4800000007 &&& A = 0x4800000007) (hk : Keeps A z s) :
    KeepsOut A z (execFtLookup agent s) := by
  unfold execFtLookup
  repeat' first
    | with_reducible assumption
    | with_reducible apply KeepsOut.fault
    | with_reducible apply KeepsOut.next
    | (extract_lets +onlyGivenNames y; refine KeepsOut.cut (y := y) ?_ (fun hy => ?_) <;> [(unfold y; clear y); (clear_value y; rename' y => w)])
    | ((with_reducible refine Part.sub hA ?_); rfl)
    | (extract_lets +onlyGivenNames y; refine Keeps.cut (y := y) ?_ (fun hy => ?_) <;> [(unfold y; clear y); (clear_value y; rename' y => w)])
    | (extract_lets +onlyGivenNames y; clear_value y; rename' y => w)
    | (extract_lets +onlyGivenNames y; rename' y => w)
    | with_reducible apply State.ftResult_keeps
    | with_reducible apply State.showEntry_keeps
    | split
    | dsimp -zeta only

theorem execFtCopyDone_keeps {A : Nat} {z : State} {s : State} (hA : 0x100000 &&& A = 0x100000) (hk : Keeps A z s) :
    KeepsOut A z (execFtCopyDone s) := by
  unfold execFtCopyDone
  repeat' first
    | with_reducible assumption
    | with_reducible apply KeepsOut.fault
    | with_reducible apply KeepsOut.next
    | (extract_lets +onlyGivenNames y; refine KeepsOut.cut (y := y) ?_ (fun hy => ?_) <;> [(unfold y; clear y); (clear_value y; rename' y => w)])
    | ((with_reducible refine Part.sub hA ?_); rfl)
    | (extract_lets +onlyGivenNames y; refine Keeps.cut (y := y) ?_ (fun hy => ?_) <;> [(unfold y; clear y); (clear_value y; rename' y => w)])
    | (extract_lets +onlyGivenNames y; clear_value y; rename' y => w)
    | (extract_lets +onlyGivenNames y; rename' y => w)
    | with_reducible apply State.modFt_keeps
    | split
    | dsimp -zeta only

theorem State.installFlowPlan_keeps {A : Nat} {z : State} {s : State} {p : List Byte} (hA : 0x140021 &&& A = 0x140021) (hk : Keeps A z s) :
    Keeps A z (State.installFlowPlan s p) := by
  unfold State.installFlowPlan
  repeat' first
    | with_reducible assumption
    | ((with_reducible refine Part.sub hA ?_); rfl)
    | (extract_lets +onlyGivenNames y; refine Keeps.cut (y := y) ?_ (fun hy => ?_) <;> [(unfold y; clear y); (clear_value y; rename' y => w)])
    | (extract_lets +onlyGivenNames y; clear_value y; rename' y => w)
    | (extract_lets +onlyGivenNames y; rename' y => w)
    | with_reducible apply State.modFt_keeps
    | with_reducible apply State.joinBank_keeps
    | split
    | dsimp -zeta only

theorem State.beginRebuild_keeps {A : Nat} {z : State} {s : State} {ticket : Nat} {p : List Byte} (hA : 0x100000 &&& A = 0x100000) (hk : Keeps A z s) :
    Keeps A z (State.beginRebuild s ticket p) := by
  unfold State.beginRebuild
  repeat' first
    | with_reducible assumption
    | ((with_reducible refine Part.sub hA ?_); rfl)
    | (extract_lets +onlyGivenNames y; refine Keeps.cut (y := y) ?_ (fun hy => ?_) <;> [(unfold y; clear y); (clear_value y; rename' y => w)])
    | (extract_lets +onlyGivenNames y; clear_value y; rename' y => w)
    | (extract_lets +onlyGivenNames y; rename' y => w)
    | with_reducible apply State.modFt_keeps
    | split
    | dsimp -zeta only

theorem State.dropRebuild_keeps {A : Nat} {z : State} {s : State} {ticket : Nat} (hA : 0x140021 &&& A = 0x140021) (hk : Keeps A z s) :
    Keeps A z (State.dropRebuild s ticket) := by
  unfold State.dropRebuild
  repeat' first
    | with_reducible assumption
    | ((with_reducible refine Part.sub hA ?_); rfl)
    | (extract_lets +onlyGivenNames y; refine Keeps.cut (y := y) ?_ (fun hy => ?_) <;> [(unfold y; clear y); (clear_value y; rename' y => w)])
    | (extract_lets +onlyGivenNames y; clear_value y; rename' y => w)
    | (extract_lets +onlyGivenNames y; rename' y => w)
    | with_reducible apply State.modFt_keeps
    | with_reducible apply State.leaveUnneeded_keeps
    | split
    | dsimp -zeta only

theorem execRingEnable_keeps {A : Nat} {z : State} {agent : Agent} {ring : Fin 64} {size : Word} {s : State} (hA : 0x1 &&& A = 0x1) (hk : Keeps A z s) :
    KeepsOut A z (execRingEnable agent ring size s) := by
  unfold execRingEnable
  repeat' first
    | with_reducible assumption
    | with_reducible apply KeepsOut.fault
    | with_reducible apply KeepsOut.next
    | (extract_lets +onlyGivenNames y; refine KeepsOut.cut (y := y) ?_ (fun hy => ?_) <;> [(unfold y; clear y); (clear_value y; rename' y => w)])
    | ((with_reducible refine Part.sub hA ?_); rfl)
    | (extract_lets +onlyGivenNames y; refine Keeps.cut (y := y) ?_ (fun hy => ?_) <;> [(unfold y; clear y); (clear_value y; rename' y => w)])
    | (extract_lets +onlyGivenNames y; clear_value y; rename' y => w)
    | (extract_lets +onlyGivenNames y; rename' y => w)
    | with_reducible apply State.setReg_keeps
    | split
    | dsimp -zeta only

theorem State.ringDeliver_keeps {A : Nat} {z : State} {s : State} {n flow port : Nat} {frame : List Byte} (hA : 0x480000000d &&& A = 0x480000000d) (hk : Keeps A z s) :
    Keeps A z (State.ringDeliver s n flow port frame).1 := by
  unfold State.ringDeliver
  repeat' first
    | with_reducible assumption
    | ((with_reducible refine Part.sub hA ?_); rfl)
    | (extract_lets +onlyGivenNames y; refine Keeps.cut (y := y) ?_ (fun hy => ?_) <;> [(unfold y; clear y); (clear_value y; rename' y => w)])
    | (extract_lets +onlyGivenNames y; clear_value y; rename' y => w)
    | (extract_lets +onlyGivenNames y; rename' y => w)
    | with_reducible apply State.setReg_keeps
    | with_reducible apply State.count_keeps
    | with_reducible apply State.logRated_keeps
    | with_reducible apply State.event_keeps
    | with_reducible apply State.setBytes_keeps
    | split
    | dsimp -zeta only

end Sys2Proof.Machine
end

