-- ==== Sys2Proof/Laws/KeepIngress.lean ====
section
/-!
SUPPORT. Keeps for the operations of Machine/Ingress.lean.
-/

namespace Sys2Proof.Machine

theorem State.chanLog_keeps {A : Nat} {z : State} {s : State} {f : FaultClass} {c : Nat} {data : List Byte} {port : Option Nat} (hA : 0x4000000000 &&& A = 0x4000000000) (hk : Keeps A z s) :
    Keeps A z (State.chanLog s f c data port) := by
  unfold State.chanLog
  repeat' first
    | with_reducible assumption
    | ((with_reducible refine Part.sub hA ?_); rfl)
    | (extract_lets +onlyGivenNames y; refine Keeps.cut (y := y) ?_ (fun hy => ?_) <;> [(unfold y; clear y); (clear_value y; rename' y => w)])
    | (extract_lets +onlyGivenNames y; clear_value y; rename' y => w)
    | (extract_lets +onlyGivenNames y; rename' y => w)
    | with_reducible apply State.logOut_keeps
    | split
    | dsimp -zeta only

theorem State.violation_keeps {A : Nat} {z : State} {s : State} {f : FaultClass} {c flow port : Nat} {data : Nat → List Byte} (hA : 0x4000000001 &&& A = 0x4000000001) (hk : Keeps A z s) :
    Keeps A z (State.violation s f c flow port data) := by
  unfold State.violation
  repeat' first
    | with_reducible assumption
    | ((with_reducible refine Part.sub hA ?_); rfl)
    | (extract_lets +onlyGivenNames y; refine Keeps.cut (y := y) ?_ (fun hy => ?_) <;> [(unfold y; clear y); (clear_value y; rename' y => w)])
    | (extract_lets +onlyGivenNames y; clear_value y; rename' y => w)
    | (extract_lets +onlyGivenNames y; rename' y => w)
    | with_reducible apply State.count_keeps
    | with_reducible apply State.logRated_keeps
    | split
    | dsimp -zeta only

theorem State.liveUnit_keeps {A : Nat} {z : State} {s : State} {c row col : Nat} {unit : List Int} (hA : 0x200000 &&& A = 0x200000) (hk : Keeps A z s) :
    Keeps A z (State.liveUnit s c row col unit) := by
  unfold State.liveUnit
  repeat' first
    | with_reducible assumption
    | ((with_reducible refine Part.sub hA ?_); rfl)
    | (extract_lets +onlyGivenNames y; refine Keeps.cut (y := y) ?_ (fun hy => ?_) <;> [(unfold y; clear y); (clear_value y; rename' y => w)])
    | (extract_lets +onlyGivenNames y; clear_value y; rename' y => w)
    | (extract_lets +onlyGivenNames y; rename' y => w)
    | with_reducible apply State.modChIn_keeps
    | (with_reducible apply Keeps.foldl; intro y b hy)
    | (with_reducible apply Keeps.foldl_fst; intro y b hy)
    | split
    | dsimp -zeta only

theorem State.staleCheck_keeps {A : Nat} {z : State} {s : State} {c : Nat} (hA : 0x4000000000 &&& A = 0x4000000000) (hk : Keeps A z s) :
    Keeps A z (State.staleCheck s c) := by
  unfold State.staleCheck
  repeat' first
    | with_reducible assumption
    | ((with_reducible refine Part.sub hA ?_); rfl)
    | (extract_lets +onlyGivenNames y; refine Keeps.cut (y := y) ?_ (fun hy => ?_) <;> [(unfold y; clear y); (clear_value y; rename' y => w)])
    | (extract_lets +onlyGivenNames y; clear_value y; rename' y => w)
    | (extract_lets +onlyGivenNames y; rename' y => w)
    | with_reducible apply State.clearCause_keeps
    | split
    | dsimp -zeta only

theorem State.liveCompare_keeps {A : Nat} {z : State} {s : State} {c : Nat} (hA : 0x4c3da0c865 &&& A = 0x4c3da0c865) (hk : Keeps A z s) :
    Keeps A z (State.liveCompare s c) := by
  unfold State.liveCompare
  repeat' first
    | with_reducible assumption
    | ((with_reducible refine Part.sub hA ?_); rfl)
    | (extract_lets +onlyGivenNames y; refine Keeps.cut (y := y) ?_ (fun hy => ?_) <;> [(unfold y; clear y); (clear_value y; rename' y => w)])
    | (extract_lets +onlyGivenNames y; clear_value y; rename' y => w)
    | (extract_lets +onlyGivenNames y; rename' y => w)
    | with_reducible apply State.modChIn_keeps
    | with_reducible apply State.event_keeps
    | with_reducible apply State.goHarmless_keeps
    | with_reducible apply State.chanLog_keeps
    | with_reducible apply State.staleCheck_keeps
    | (with_reducible apply Keeps.foldl; intro y b hy)
    | (with_reducible apply Keeps.foldl_fst; intro y b hy)
    | split
    | dsimp -zeta only

theorem State.resetLive_keeps {A : Nat} {z : State} {s : State} {c i : Nat} (hA : 0x4000200000 &&& A = 0x4000200000) (hk : Keeps A z s) :
    Keeps A z (State.resetLive s c i) := by
  unfold State.resetLive
  repeat' first
    | with_reducible assumption
    | ((with_reducible refine Part.sub hA ?_); rfl)
    | (extract_lets +onlyGivenNames y; refine Keeps.cut (y := y) ?_ (fun hy => ?_) <;> [(unfold y; clear y); (clear_value y; rename' y => w)])
    | (extract_lets +onlyGivenNames y; clear_value y; rename' y => w)
    | (extract_lets +onlyGivenNames y; rename' y => w)
    | with_reducible apply State.modChIn_keeps
    | with_reducible apply State.staleCheck_keeps
    | split
    | dsimp -zeta only

theorem State.modFrameIn_keeps {A : Nat} {z : State} {s : State} {c : Nat} {f : FrameIn → FrameIn} (hA : 0x200000 &&& A = 0x200000) (hk : Keeps A z s) :
    Keeps A z (State.modFrameIn s c f) := by
  unfold State.modFrameIn
  repeat' first
    | with_reducible assumption
    | ((with_reducible refine Part.sub hA ?_); rfl)
    | (extract_lets +onlyGivenNames y; refine Keeps.cut (y := y) ?_ (fun hy => ?_) <;> [(unfold y; clear y); (clear_value y; rename' y => w)])
    | (extract_lets +onlyGivenNames y; clear_value y; rename' y => w)
    | (extract_lets +onlyGivenNames y; rename' y => w)
    | with_reducible apply State.modChIn_keeps
    | split
    | dsimp -zeta only

theorem State.closeStripeLine_keeps {A : Nat} {z : State} {s : State} {c : Nat} {line stripe : Nat} (hA : 0x4000a00001 &&& A = 0x4000a00001) (hk : Keeps A z s) :
    Keeps A z (State.closeStripeLine s c line stripe) := by
  unfold State.closeStripeLine
  repeat' first
    | with_reducible assumption
    | ((with_reducible refine Part.sub hA ?_); rfl)
    | (extract_lets +onlyGivenNames y; refine Keeps.cut (y := y) ?_ (fun hy => ?_) <;> [(unfold y; clear y); (clear_value y; rename' y => w)])
    | (extract_lets +onlyGivenNames y; clear_value y; rename' y => w)
    | (extract_lets +onlyGivenNames y; rename' y => w)
    | with_reducible apply State.count_keeps
    | with_reducible apply State.logRated_keeps
    | with_reducible apply State.closeCurd_keeps
    | with_reducible apply State.modFrameIn_keeps
    | (with_reducible apply Keeps.foldl; intro y b hy)
    | (with_reducible apply Keeps.foldl_fst; intro y b hy)
    | split
    | dsimp -zeta only

theorem State.closeBefore_keeps {A : Nat} {z : State} {s : State} {c pos : Nat} (hA : 0x4000a00001 &&& A = 0x4000a00001) (hk : Keeps A z s) :
    Keeps A z (State.closeBefore s c pos) := by
  unfold State.closeBefore
  repeat' first
    | with_reducible assumption
    | ((with_reducible refine Part.sub hA ?_); rfl)
    | (extract_lets +onlyGivenNames y; refine Keeps.cut (y := y) ?_ (fun hy => ?_) <;> [(unfold y; clear y); (clear_value y; rename' y => w)])
    | (extract_lets +onlyGivenNames y; clear_value y; rename' y => w)
    | (extract_lets +onlyGivenNames y; rename' y => w)
    | with_reducible apply State.modFrameIn_keeps
    | with_reducible apply State.closeStripeLine_keeps
    | (with_reducible apply Keeps.foldl; intro y b hy)
    | (with_reducible apply Keeps.foldl_fst; intro y b hy)
    | split
    | dsimp -zeta only

theorem State.placeUnit_keeps {A : Nat} {z : State} {s : State} {c row col : Nat} {unit : List Int} (hA : 0x4815a0c005 &&& A = 0x4815a0c005) (hk : Keeps A z s) :
    Keeps A z (State.placeUnit s c row col unit).1 := by
  unfold State.placeUnit
  repeat' first
    | with_reducible assumption
    | ((with_reducible refine Part.sub hA ?_); rfl)
    | (extract_lets +onlyGivenNames y; refine Keeps.cut (y := y) ?_ (fun hy => ?_) <;> [(unfold y; clear y); (clear_value y; rename' y => w)])
    | (extract_lets +onlyGivenNames y; clear_value y; rename' y => w)
    | (extract_lets +onlyGivenNames y; rename' y => w)
    | with_reducible apply State.proxyUnit_keeps
    | with_reducible apply State.feedUnit_keeps
    | with_reducible apply State.reachLine_keeps
    | with_reducible apply State.liveUnit_keeps
    | with_reducible apply State.modFrameIn_keeps
    | split
    | dsimp -zeta only

theorem State.placeRow_keeps {A : Nat} {z : State} {s : State} {c row col : Nat} {l : List (List Int)} {late : Bool} (hA : 0x4815a0c005 &&& A = 0x4815a0c005) (h : Keeps A z s) :
    Keeps A z (State.placeRow s c row col l late).1 := by
  induction l generalizing s col late with
  | nil => exact h
  | cons u r ih => exact ih (State.placeUnit_keeps (Part.sub hA rfl) h)

theorem State.placePacket_keeps {A : Nat} {z : State} {s : State} {c : Nat} {srds : List Srd} {data : List Byte} (hA : 0x4c1da0c045 &&& A = 0x4c1da0c045) (hk : Keeps A z s) :
    Keeps A z (State.placePacket s c srds data) := by
  unfold State.placePacket
  repeat' first
    | with_reducible assumption
    | ((with_reducible refine Part.sub hA ?_); rfl)
    | (extract_lets +onlyGivenNames y; refine Keeps.cut (y := y) ?_ (fun hy => ?_) <;> [(unfold y; clear y); (clear_value y; rename' y => w)])
    | (extract_lets +onlyGivenNames y; refine Keeps.cut (y := y.1) ?_ (fun hy => ?_) <;> [(unfold y; clear y); (clear_value y; rename' y => w)])
    | (extract_lets +onlyGivenNames y; clear_value y; rename' y => w)
    | (extract_lets +onlyGivenNames y; rename' y => w)
    | with_reducible apply State.count_keeps
    | with_reducible apply State.settle_keeps
    | with_reducible apply State.deal_keeps
    | with_reducible apply State.closeBefore_keeps
    | (refine Keeps.of_fst (State.placeRow_keeps (Part.sub hA rfl) ?_) (by assumption))
    | with_reducible apply State.placeRow_keeps
    | (with_reducible apply Keeps.foldl; intro y b hy)
    | (with_reducible apply Keeps.foldl_fst; intro y b hy)
    | split
    | dsimp -zeta only

theorem State.endFrameIn_keeps {A : Nat} {z : State} {s : State} {c : Nat} {marker : Bool} (hA : 0x4c3da0c865 &&& A = 0x4c3da0c865) (hk : Keeps A z s) :
    Keeps A z (State.endFrameIn s c marker) := by
  unfold State.endFrameIn
  repeat' first
    | with_reducible assumption
    | ((with_reducible refine Part.sub hA ?_); rfl)
    | (extract_lets +onlyGivenNames y; refine Keeps.cut (y := y) ?_ (fun hy => ?_) <;> [(unfold y; clear y); (clear_value y; rename' y => w)])
    | (extract_lets +onlyGivenNames y; clear_value y; rename' y => w)
    | (extract_lets +onlyGivenNames y; rename' y => w)
    | with_reducible apply State.count_keeps
    | with_reducible apply State.modChIn_keeps
    | with_reducible apply State.event_keeps
    | with_reducible apply State.clearCause_keeps
    | with_reducible apply State.endFrame_keeps
    | with_reducible apply State.chanLog_keeps
    | with_reducible apply State.liveCompare_keeps
    | with_reducible apply State.closeBefore_keeps
    | split
    | dsimp -zeta only

theorem State.beginFrameIn_keeps {A : Nat} {z : State} {s : State} {c rtp : Nat} (hA : 0x4c1da0c045 &&& A = 0x4c1da0c045) (hk : Keeps A z s) :
    Keeps A z (State.beginFrameIn s c rtp) := by
  unfold State.beginFrameIn
  repeat' first
    | with_reducible assumption
    | ((with_reducible refine Part.sub hA ?_); rfl)
    | (extract_lets +onlyGivenNames y; refine Keeps.cut (y := y) ?_ (fun hy => ?_) <;> [(unfold y; clear y); (clear_value y; rename' y => w)])
    | (extract_lets +onlyGivenNames y; clear_value y; rename' y => w)
    | (extract_lets +onlyGivenNames y; rename' y => w)
    | with_reducible apply State.modChIn_keeps
    | with_reducible apply State.frameSections_keeps
    | with_reducible apply State.startFrame_keeps
    | (with_reducible apply Keeps.foldl; intro y b hy)
    | (with_reducible apply Keeps.foldl_fst; intro y b hy)
    | split
    | dsimp -zeta only

theorem State.acceptMedia_keeps {A : Nat} {z : State} {s : State} {c : Nat} (hA : 0x200001 &&& A = 0x200001) (hk : Keeps A z s) :
    Keeps A z (State.acceptMedia s c) := by
  unfold State.acceptMedia
  repeat' first
    | with_reducible assumption
    | ((with_reducible refine Part.sub hA ?_); rfl)
    | (extract_lets +onlyGivenNames y; refine Keeps.cut (y := y) ?_ (fun hy => ?_) <;> [(unfold y; clear y); (clear_value y; rename' y => w)])
    | (extract_lets +onlyGivenNames y; clear_value y; rename' y => w)
    | (extract_lets +onlyGivenNames y; rename' y => w)
    | with_reducible apply State.count_keeps
    | with_reducible apply State.modChIn_keeps
    | split
    | dsimp -zeta only

theorem State.mediaFrame_keeps {A : Nat} {z : State} {s : State} {c flow port rtp : Nat} {marker : Bool} {srds : List Srd} {data : List Byte} (hA : 0x4c3da0c865 &&& A = 0x4c3da0c865) (hk : Keeps A z s) :
    Keeps A z (State.mediaFrame s c flow port rtp marker srds data).1 := by
  unfold State.mediaFrame
  repeat' first
    | with_reducible assumption
    | ((with_reducible refine Part.sub hA ?_); rfl)
    | (extract_lets +onlyGivenNames y; refine Keeps.cut (y := y) ?_ (fun hy => ?_) <;> [(unfold y; clear y); (clear_value y; rename' y => w)])
    | (extract_lets +onlyGivenNames y; clear_value y; rename' y => w)
    | (extract_lets +onlyGivenNames y; rename' y => w)
    | with_reducible apply State.count_keeps
    | with_reducible apply State.modChIn_keeps
    | with_reducible apply State.logRated_keeps
    | with_reducible apply State.violation_keeps
    | with_reducible apply State.placePacket_keeps
    | with_reducible apply State.endFrameIn_keeps
    | with_reducible apply State.beginFrameIn_keeps
    | with_reducible apply State.acceptMedia_keeps
    | split
    | dsimp -zeta only

theorem State.chanLost_keeps {A : Nat} {z : State} {s : State} {c : Nat} (hA : 0x200001 &&& A = 0x200001) (hk : Keeps A z s) :
    Keeps A z (State.chanLost s c) := by
  unfold State.chanLost
  repeat' first
    | with_reducible assumption
    | ((with_reducible refine Part.sub hA ?_); rfl)
    | (extract_lets +onlyGivenNames y; refine Keeps.cut (y := y) ?_ (fun hy => ?_) <;> [(unfold y; clear y); (clear_value y; rename' y => w)])
    | (extract_lets +onlyGivenNames y; clear_value y; rename' y => w)
    | (extract_lets +onlyGivenNames y; rename' y => w)
    | with_reducible apply State.countBy_keeps
    | with_reducible apply State.modChIn_keeps
    | split
    | dsimp -zeta only

theorem State.chanPath_keeps {A : Nat} {z : State} {s : State} {c : Nat} {pathB : Bool} (hA : 0x4000200000 &&& A = 0x4000200000) (hk : Keeps A z s) :
    Keeps A z (State.chanPath s c pathB) := by
  unfold State.chanPath
  repeat' first
    | with_reducible assumption
    | ((with_reducible refine Part.sub hA ?_); rfl)
    | (extract_lets +onlyGivenNames y; refine Keeps.cut (y := y) ?_ (fun hy => ?_) <;> [(unfold y; clear y); (clear_value y; rename' y => w)])
    | (extract_lets +onlyGivenNames y; clear_value y; rename' y => w)
    | (extract_lets +onlyGivenNames y; rename' y => w)
    | with_reducible apply State.modChIn_keeps
    | with_reducible apply State.clearCause_keeps
    | split
    | dsimp -zeta only

theorem State.mediaPacket_keeps {A : Nat} {z : State} {s : State} {flow port : Nat} {e : FtEntry} {p : List Byte} (hA : 0x4c3db0c865 &&& A = 0x4c3db0c865) (hk : Keeps A z s) :
    Keeps A z (State.mediaPacket s flow port e p).1 := by
  unfold State.mediaPacket
  repeat' first
    | with_reducible assumption
    | ((with_reducible refine Part.sub hA ?_); rfl)
    | (extract_lets +onlyGivenNames y; refine Keeps.cut (y := y) ?_ (fun hy => ?_) <;> [(unfold y; clear y); (clear_value y; rename' y => w)])
    | (extract_lets +onlyGivenNames y; refine Keeps.cut (y := y.1) ?_ (fun hy => ?_) <;> [(unfold y; clear y); (clear_value y; rename' y => w)])
    | (extract_lets +onlyGivenNames y; clear_value y; rename' y => w)
    | (extract_lets +onlyGivenNames y; rename' y => w)
    | with_reducible apply State.count_keeps
    | with_reducible apply State.modChIn_keeps
    | with_reducible apply State.modEntry_keeps
    | with_reducible apply State.chanLog_keeps
    | with_reducible apply State.violation_keeps
    | with_reducible apply State.endFrameIn_keeps
    | (refine Keeps.of_fst (State.mediaFrame_keeps (Part.sub hA rfl) ?_) (by assumption))
    | with_reducible apply State.mediaFrame_keeps
    | with_reducible apply State.chanLost_keeps
    | with_reducible apply State.chanPath_keeps
    | split
    | dsimp -zeta only

theorem execInputLossTimeout_keeps {A : Nat} {z : State} {channel : Fin 48} {s : State} (hA : 0x4c3da0c865 &&& A = 0x4c3da0c865) (hk : Keeps A z s) :
    KeepsOut A z (execInputLossTimeout channel s) := by
  unfold execInputLossTimeout
  repeat' first
    | with_reducible assumption
    | with_reducible apply KeepsOut.fault
    | with_reducible apply KeepsOut.next
    | (extract_lets +onlyGivenNames y; refine KeepsOut.cut (y := y) ?_ (fun hy => ?_) <;> [(unfold y; clear y); (clear_value y; rename' y => w)])
    | ((with_reducible refine Part.sub hA ?_); rfl)
    | (extract_lets +onlyGivenNames y; refine Keeps.cut (y := y) ?_ (fun hy => ?_) <;> [(unfold y; clear y); (clear_value y; rename' y => w)])
    | (extract_lets +onlyGivenNames y; clear_value y; rename' y => w)
    | (extract_lets +onlyGivenNames y; rename' y => w)
    | with_reducible apply State.modChIn_keeps
    | with_reducible apply State.event_keeps
    | with_reducible apply State.goHarmless_keeps
    | with_reducible apply State.chanLog_keeps
    | split
    | dsimp -zeta only

theorem execStripeGapTimeout_keeps {A : Nat} {z : State} {channel : Fin 48} {s : State} (hA : 0x4c1da0c045 &&& A = 0x4c1da0c045) (hk : Keeps A z s) :
    KeepsOut A z (execStripeGapTimeout channel s) := by
  unfold execStripeGapTimeout
  repeat' first
    | with_reducible assumption
    | with_reducible apply KeepsOut.fault
    | with_reducible apply KeepsOut.next
    | (extract_lets +onlyGivenNames y; refine KeepsOut.cut (y := y) ?_ (fun hy => ?_) <;> [(unfold y; clear y); (clear_value y; rename' y => w)])
    | ((with_reducible refine Part.sub hA ?_); rfl)
    | (extract_lets +onlyGivenNames y; refine Keeps.cut (y := y) ?_ (fun hy => ?_) <;> [(unfold y; clear y); (clear_value y; rename' y => w)])
    | (extract_lets +onlyGivenNames y; clear_value y; rename' y => w)
    | (extract_lets +onlyGivenNames y; rename' y => w)
    | with_reducible apply State.settle_keeps
    | with_reducible apply State.closeStripeLine_keeps
    | (with_reducible apply Keeps.foldl; intro y b hy)
    | (with_reducible apply Keeps.foldl_fst; intro y b hy)
    | split
    | dsimp -zeta only

theorem State.mediaChanged_keeps {A : Nat} {z : State} {s : State} {c : Nat} (hA : 0x4c3da0c865 &&& A = 0x4c3da0c865) (hk : Keeps A z s) :
    Keeps A z (State.mediaChanged s c) := by
  unfold State.mediaChanged
  repeat' first
    | with_reducible assumption
    | ((with_reducible refine Part.sub hA ?_); rfl)
    | (extract_lets +onlyGivenNames y; refine Keeps.cut (y := y) ?_ (fun hy => ?_) <;> [(unfold y; clear y); (clear_value y; rename' y => w)])
    | (extract_lets +onlyGivenNames y; clear_value y; rename' y => w)
    | (extract_lets +onlyGivenNames y; rename' y => w)
    | with_reducible apply State.modChIn_keeps
    | with_reducible apply State.clearCause_keeps
    | with_reducible apply State.endFrameIn_keeps
    | split
    | dsimp -zeta only

end Sys2Proof.Machine
end

