-- ==== Sys2Proof/Laws/KeepSurface.lean ====
section
/-!
SUPPORT. Keeps for the operations of Machine/Surface.lean.
-/

namespace Sys2Proof.Machine

theorem State.surfLog_keeps {A : Nat} {z : State} {s : State} {f : FaultClass} {p : SurfPlan} {n : Nat} {data : List Byte} (hA : 0x4000000000 &&& A = 0x4000000000) (hk : Keeps A z s) :
    Keeps A z (State.surfLog s f p n data) := by
  unfold State.surfLog
  repeat' first
    | with_reducible assumption
    | ((with_reducible refine Part.sub hA ?_); rfl)
    | (extract_lets +onlyGivenNames y; refine Keeps.cut (y := y) ?_ (fun hy => ?_) <;> [(unfold y; clear y); (clear_value y; rename' y => w)])
    | (extract_lets +onlyGivenNames y; clear_value y; rename' y => w)
    | (extract_lets +onlyGivenNames y; rename' y => w)
    | with_reducible apply State.logOut_keeps
    | split
    | dsimp -zeta only

theorem State.closeSurface_keeps {A : Nat} {z : State} {s : State} {p : SurfPlan} {n number : Nat} (hA : 0x4800400005 &&& A = 0x4800400005) (hk : Keeps A z s) :
    Keeps A z (State.closeSurface s p n number) := by
  unfold State.closeSurface
  repeat' first
    | with_reducible assumption
    | ((with_reducible refine Part.sub hA ?_); rfl)
    | (extract_lets +onlyGivenNames y; refine Keeps.cut (y := y) ?_ (fun hy => ?_) <;> [(unfold y; clear y); (clear_value y; rename' y => w)])
    | (extract_lets +onlyGivenNames y; clear_value y; rename' y => w)
    | (extract_lets +onlyGivenNames y; rename' y => w)
    | with_reducible apply State.modSurface_keeps
    | with_reducible apply State.event_keeps
    | (with_reducible apply Keeps.foldl; intro y b hy)
    | (with_reducible apply Keeps.foldl_fst; intro y b hy)
    | split
    | dsimp -zeta only

theorem State.interruptSurface_keeps {A : Nat} {z : State} {s : State} {p : SurfPlan} {n : Nat} (hA : 0x400000 &&& A = 0x400000) (hk : Keeps A z s) :
    Keeps A z (State.interruptSurface s p n) := by
  unfold State.interruptSurface
  repeat' first
    | with_reducible assumption
    | ((with_reducible refine Part.sub hA ?_); rfl)
    | (extract_lets +onlyGivenNames y; refine Keeps.cut (y := y) ?_ (fun hy => ?_) <;> [(unfold y; clear y); (clear_value y; rename' y => w)])
    | (extract_lets +onlyGivenNames y; clear_value y; rename' y => w)
    | (extract_lets +onlyGivenNames y; rename' y => w)
    | with_reducible apply State.modSurface_keeps
    | (with_reducible apply Keeps.foldl; intro y b hy)
    | (with_reducible apply Keeps.foldl_fst; intro y b hy)
    | split
    | dsimp -zeta only

theorem execSurfaceFrameClose_keeps {A : Nat} {z : State} {surface frame : Nat} {s : State} (hA : 0x4800400005 &&& A = 0x4800400005) (hk : Keeps A z s) :
    KeepsOut A z (execSurfaceFrameClose surface frame s) := by
  unfold execSurfaceFrameClose
  repeat' first
    | with_reducible assumption
    | with_reducible apply KeepsOut.fault
    | with_reducible apply KeepsOut.next
    | (extract_lets +onlyGivenNames y; refine KeepsOut.cut (y := y) ?_ (fun hy => ?_) <;> [(unfold y; clear y); (clear_value y; rename' y => w)])
    | ((with_reducible refine Part.sub hA ?_); rfl)
    | (extract_lets +onlyGivenNames y; refine Keeps.cut (y := y) ?_ (fun hy => ?_) <;> [(unfold y; clear y); (clear_value y; rename' y => w)])
    | (extract_lets +onlyGivenNames y; clear_value y; rename' y => w)
    | (extract_lets +onlyGivenNames y; rename' y => w)
    | with_reducible apply State.closeSurface_keeps
    | split
    | dsimp -zeta only

theorem execSurfaceCloseTimeout_keeps {A : Nat} {z : State} {surface frame : Nat} {s : State} (hA : 0x4800400005 &&& A = 0x4800400005) (hk : Keeps A z s) :
    KeepsOut A z (execSurfaceCloseTimeout surface frame s) := by
  unfold execSurfaceCloseTimeout
  repeat' first
    | with_reducible assumption
    | with_reducible apply KeepsOut.fault
    | with_reducible apply KeepsOut.next
    | (extract_lets +onlyGivenNames y; refine KeepsOut.cut (y := y) ?_ (fun hy => ?_) <;> [(unfold y; clear y); (clear_value y; rename' y => w)])
    | ((with_reducible refine Part.sub hA ?_); rfl)
    | (extract_lets +onlyGivenNames y; refine Keeps.cut (y := y) ?_ (fun hy => ?_) <;> [(unfold y; clear y); (clear_value y; rename' y => w)])
    | (extract_lets +onlyGivenNames y; clear_value y; rename' y => w)
    | (extract_lets +onlyGivenNames y; rename' y => w)
    | with_reducible apply State.modSurface_keeps
    | with_reducible apply State.event_keeps
    | with_reducible apply State.surfLog_keeps
    | split
    | dsimp -zeta only

theorem execSurfaceWriteTimeout_keeps {A : Nat} {z : State} {group : Fin 4} {surface slot frame : Nat} {s : State} (hA : 0x4800400005 &&& A = 0x4800400005) (hk : Keeps A z s) :
    KeepsOut A z (execSurfaceWriteTimeout group surface slot frame s) := by
  unfold execSurfaceWriteTimeout
  repeat' first
    | with_reducible assumption
    | with_reducible apply KeepsOut.fault
    | with_reducible apply KeepsOut.next
    | (extract_lets +onlyGivenNames y; refine KeepsOut.cut (y := y) ?_ (fun hy => ?_) <;> [(unfold y; clear y); (clear_value y; rename' y => w)])
    | ((with_reducible refine Part.sub hA ?_); rfl)
    | (extract_lets +onlyGivenNames y; refine Keeps.cut (y := y) ?_ (fun hy => ?_) <;> [(unfold y; clear y); (clear_value y; rename' y => w)])
    | (extract_lets +onlyGivenNames y; clear_value y; rename' y => w)
    | (extract_lets +onlyGivenNames y; rename' y => w)
    | with_reducible apply State.count_keeps
    | with_reducible apply State.modSurface_keeps
    | with_reducible apply State.logRated_keeps
    | with_reducible apply State.event_keeps
    | split
    | dsimp -zeta only

theorem execClaimForget_keeps {A : Nat} {z : State} {surface : Nat} {s : State} (hA : 0x400000 &&& A = 0x400000) (hk : Keeps A z s) :
    KeepsOut A z (execClaimForget surface s) := by
  unfold execClaimForget
  repeat' first
    | with_reducible assumption
    | with_reducible apply KeepsOut.fault
    | with_reducible apply KeepsOut.next
    | (extract_lets +onlyGivenNames y; refine KeepsOut.cut (y := y) ?_ (fun hy => ?_) <;> [(unfold y; clear y); (clear_value y; rename' y => w)])
    | ((with_reducible refine Part.sub hA ?_); rfl)
    | (extract_lets +onlyGivenNames y; refine Keeps.cut (y := y) ?_ (fun hy => ?_) <;> [(unfold y; clear y); (clear_value y; rename' y => w)])
    | (extract_lets +onlyGivenNames y; clear_value y; rename' y => w)
    | (extract_lets +onlyGivenNames y; rename' y => w)
    | with_reducible apply State.modSurface_keeps
    | split
    | dsimp -zeta only

theorem State.surfViolation_keeps {A : Nat} {z : State} {s : State} {f : FaultClass} {p : SurfPlan} {flow port : Nat} {data : Nat → List Byte} (hA : 0x4000000001 &&& A = 0x4000000001) (hk : Keeps A z s) :
    Keeps A z (State.surfViolation s f p flow port data) := by
  unfold State.surfViolation
  repeat' first
    | with_reducible assumption
    | ((with_reducible refine Part.sub hA ?_); rfl)
    | (extract_lets +onlyGivenNames y; refine Keeps.cut (y := y) ?_ (fun hy => ?_) <;> [(unfold y; clear y); (clear_value y; rename' y => w)])
    | (extract_lets +onlyGivenNames y; clear_value y; rename' y => w)
    | (extract_lets +onlyGivenNames y; rename' y => w)
    | with_reducible apply State.count_keeps
    | with_reducible apply State.logRated_keeps
    | split
    | dsimp -zeta only

theorem State.curdBad_keeps {A : Nat} {z : State} {s : State} {p : SurfPlan} {n flow port reason line index : Nat} (hA : 0x4000000001 &&& A = 0x4000000001) (hk : Keeps A z s) :
    Keeps A z (State.curdBad s p n flow port reason line index) := by
  unfold State.curdBad
  repeat' first
    | with_reducible assumption
    | ((with_reducible refine Part.sub hA ?_); rfl)
    | (extract_lets +onlyGivenNames y; refine Keeps.cut (y := y) ?_ (fun hy => ?_) <;> [(unfold y; clear y); (clear_value y; rename' y => w)])
    | (extract_lets +onlyGivenNames y; clear_value y; rename' y => w)
    | (extract_lets +onlyGivenNames y; rename' y => w)
    | with_reducible apply State.surfViolation_keeps
    | split
    | dsimp -zeta only

theorem State.surfLost_keeps {A : Nat} {z : State} {s : State} {p : SurfPlan} {n : Nat} (hA : 0x4000400001 &&& A = 0x4000400001) (hk : Keeps A z s) :
    Keeps A z (State.surfLost s p n) := by
  unfold State.surfLost
  repeat' first
    | with_reducible assumption
    | ((with_reducible refine Part.sub hA ?_); rfl)
    | (extract_lets +onlyGivenNames y; refine Keeps.cut (y := y) ?_ (fun hy => ?_) <;> [(unfold y; clear y); (clear_value y; rename' y => w)])
    | (extract_lets +onlyGivenNames y; clear_value y; rename' y => w)
    | (extract_lets +onlyGivenNames y; rename' y => w)
    | with_reducible apply State.countBy_keeps
    | with_reducible apply State.modSurface_keeps
    | with_reducible apply State.surfLog_keeps
    | (with_reducible apply Keeps.foldl; intro y b hy)
    | (with_reducible apply Keeps.foldl_fst; intro y b hy)
    | split
    | dsimp -zeta only

theorem State.surfRecords_keeps {A : Nat} {z : State} {s : State} {p : SurfPlan} {n flow port kind frame : Nat} {body : List Byte} (hA : 0x4800400005 &&& A = 0x4800400005) (hk : Keeps A z s) :
    Keeps A z (State.surfRecords s p n flow port kind frame body).1 := by
  unfold State.surfRecords
  dsimp only
  repeat' first
    | with_reducible assumption
    | ((with_reducible refine Part.sub hA ?_); rfl)
    | (extract_lets +onlyGivenNames y; refine Keeps.cut (y := y) ?_ (fun hy => ?_) <;> [(unfold y; clear y); (clear_value y; rename' y => w)])
    | (extract_lets +onlyGivenNames y; clear_value y; rename' y => w)
    | (extract_lets +onlyGivenNames y; rename' y => w)
    | with_reducible apply State.count_keeps
    | with_reducible apply State.modSurface_keeps
    | with_reducible apply State.event_keeps
    | with_reducible apply State.curdBad_keeps
    | (with_reducible apply Keeps.foldl; intro y b hy)
    | (with_reducible apply Keeps.foldl_fst; intro y b hy)
    | split
    | dsimp -zeta only

theorem State.surfacePacket_keeps {A : Nat} {z : State} {s : State} {flow port : Nat} {e : FtEntry} {q : List Byte} (hA : 0x4800500005 &&& A = 0x4800500005) (hk : Keeps A z s) :
    Keeps A z (State.surfacePacket s flow port e q).1 := by
  unfold State.surfacePacket
  extract_lets +onlyGivenNames n
  clear_value n
  split
  · exact hk
  extract_lets +onlyGivenNames t m seqOf merged crc
  clear_value t m seqOf merged crc
  refine Keeps.ite_fst ?_ ?_
  · extract_lets +onlyGivenNames y
    have hy : Keeps A z y := State.event_keeps (Part.sub hA rfl) (State.count_keeps (Part.sub hA rfl) hk)
    clear_value y
    refine Keeps.ite_fst ?_ ?_
    · exact State.surfLog_keeps (Part.sub hA rfl) hy
    dsimp only
    split
    · split
      · exact State.surfLog_keeps (Part.sub hA rfl) (State.count_keeps (Part.sub hA rfl) hy)
      · exact hy
    · dsimp only
      exact State.modSurface_keeps (Part.sub hA rfl) hy
  extract_lets +onlyGivenNames b0 pt ssrc kind claim frame body want
  clear_value b0 pt ssrc kind claim frame body want
  refine Keeps.ite_fst ?_ ?_
  · dsimp only
    exact State.surfViolation_keeps (Part.sub hA rfl) hk
  refine Keeps.ite_fst ?_ ?_
  · dsimp only
    exact State.surfViolation_keeps (Part.sub hA rfl) hk
  refine Keeps.ite_fst ?_ ?_
  · dsimp only
    exact State.surfViolation_keeps (Part.sub hA rfl) hk
  refine Keeps.ite_fst ?_ ?_
  · exact State.curdBad_keeps (Part.sub hA rfl) hk
  refine Keeps.ite_fst ?_ ?_
  · exact State.curdBad_keeps (Part.sub hA rfl) hk
  extract_lets +onlyGivenNames y old low
  have hy : Keeps A z y := by
    unfold y
    split
    · exact State.modEntry_keeps (Part.sub hA rfl) hk
    · exact hk
  clear_value y old low
  refine Keeps.ite_fst ?_ ?_
  · dsimp only
    exact State.surfViolation_keeps (Part.sub hA rfl) hy
  extract_lets +onlyGivenNames rank y1 y2 y3
  have hy1 : Keeps A z y1 := State.modSurface_keeps (Part.sub hA rfl) hy
  clear_value y1 rank
  have hy2 : Keeps A z y2 := by
    unfold y2
    split
    · exact State.surfLog_keeps (Part.sub hA rfl) (State.modSurface_keeps (Part.sub hA rfl) (State.interruptSurface_keeps
        (Part.sub hA rfl) hy1))
    · exact hy1
  clear_value y2
  have hy3 : Keeps A z y3 := State.modSurface_keeps (Part.sub hA rfl) hy2
  clear_value y3
  refine Keeps.ite_fst ?_ ?_
  · refine Keeps.ite_fst ?_ ?_
    · exact State.count_keeps (Part.sub hA rfl) hy3
    · exact State.surfRecords_keeps (Part.sub hA rfl) hy3
  refine Keeps.ite_fst ?_ ?_
  · exact State.count_keeps (Part.sub hA rfl) (State.surfLost_keeps (Part.sub hA rfl) (State.modSurface_keeps (Part.sub hA rfl) hy3))
  extract_lets +onlyGivenNames w kept y4
  have hy4 : Keeps A z y4 := State.surfLost_keeps (Part.sub hA rfl) (State.modSurface_keeps (Part.sub hA rfl) hy3)
  clear_value w kept y4
  split
  · exact State.count_keeps (Part.sub hA rfl) hy4
  · exact State.count_keeps (Part.sub hA rfl) hy4
  · exact State.surfRecords_keeps (Part.sub hA rfl) (State.modSurface_keeps (Part.sub hA rfl)
      (State.surfLog_keeps (Part.sub hA rfl) hy4))
  · extract_lets +onlyGivenNames y5 y6
    have hy5 : Keeps A z y5 := State.modSurface_keeps (Part.sub hA rfl) hy4
    clear_value y5
    have hy6 : Keeps A z y6 := by
      unfold y6
      split
      · exact State.surfLog_keeps (Part.sub hA rfl) (State.count_keeps (Part.sub hA rfl) hy5)
      · exact hy5
    clear_value y6
    exact State.surfRecords_keeps (Part.sub hA rfl) hy6

theorem State.surfaceChanged_keeps {A : Nat} {z : State} {s : State} {n : Nat} (hA : 0x400000 &&& A = 0x400000) (hk : Keeps A z s) :
    Keeps A z (State.surfaceChanged s n) := by
  unfold State.surfaceChanged
  repeat' first
    | with_reducible assumption
    | ((with_reducible refine Part.sub hA ?_); rfl)
    | (extract_lets +onlyGivenNames y; refine Keeps.cut (y := y) ?_ (fun hy => ?_) <;> [(unfold y; clear y); (clear_value y; rename' y => w)])
    | (extract_lets +onlyGivenNames y; clear_value y; rename' y => w)
    | (extract_lets +onlyGivenNames y; rename' y => w)
    | with_reducible apply State.modSurface_keeps
    | split
    | dsimp -zeta only

theorem execMergeSkewTimeout_keeps {A : Nat} {z : State} {flow : FlowId} {seq : Nat} {s : State} (hA : 0x4000600001 &&& A = 0x4000600001) (hk : Keeps A z s) :
    KeepsOut A z (execMergeSkewTimeout flow seq s) := by
  unfold execMergeSkewTimeout
  repeat' first
    | with_reducible assumption
    | with_reducible apply KeepsOut.fault
    | with_reducible apply KeepsOut.next
    | (extract_lets +onlyGivenNames y; refine KeepsOut.cut (y := y) ?_ (fun hy => ?_) <;> [(unfold y; clear y); (clear_value y; rename' y => w)])
    | ((with_reducible refine Part.sub hA ?_); rfl)
    | (extract_lets +onlyGivenNames y; refine Keeps.cut (y := y) ?_ (fun hy => ?_) <;> [(unfold y; clear y); (clear_value y; rename' y => w)])
    | (extract_lets +onlyGivenNames y; clear_value y; rename' y => w)
    | (extract_lets +onlyGivenNames y; rename' y => w)
    | with_reducible apply State.chanLost_keeps
    | with_reducible apply State.surfLost_keeps
    | split
    | dsimp -zeta only

theorem execPathSilenceTimeout_keeps {A : Nat} {z : State} {flow : FlowId} {pathB : Bool} {s : State} (hA : 0x4800600005 &&& A = 0x4800600005) (hk : Keeps A z s) :
    KeepsOut A z (execPathSilenceTimeout flow pathB s) := by
  unfold execPathSilenceTimeout
  repeat' first
    | with_reducible assumption
    | with_reducible apply KeepsOut.fault
    | with_reducible apply KeepsOut.next
    | (extract_lets +onlyGivenNames y; refine KeepsOut.cut (y := y) ?_ (fun hy => ?_) <;> [(unfold y; clear y); (clear_value y; rename' y => w)])
    | ((with_reducible refine Part.sub hA ?_); rfl)
    | (extract_lets +onlyGivenNames y; refine Keeps.cut (y := y) ?_ (fun hy => ?_) <;> [(unfold y; clear y); (clear_value y; rename' y => w)])
    | (extract_lets +onlyGivenNames y; clear_value y; rename' y => w)
    | (extract_lets +onlyGivenNames y; rename' y => w)
    | with_reducible apply State.modChIn_keeps
    | with_reducible apply State.modSurface_keeps
    | with_reducible apply State.event_keeps
    | with_reducible apply State.chanLog_keeps
    | with_reducible apply State.surfLog_keeps
    | split
    | dsimp -zeta only

end Sys2Proof.Machine
end

