-- ==== Sys2Proof/Laws/KeepWall.lean ====
section
/-!
SUPPORT. Keeps for the operations of Machine/Wall.lean.
-/

namespace Sys2Proof.Machine

theorem State.headLog_keeps {A : Nat} {z : State} {s : State} {f : FaultClass} {n : Nat} {data : List Byte} {outs : List (Output × Nat)} (hA : 0x4000000000 &&& A = 0x4000000000) (hk : Keeps A z s) :
    Keeps A z (State.headLog s f n data outs) := by
  unfold State.headLog
  repeat' first
    | with_reducible assumption
    | ((with_reducible refine Part.sub hA ?_); rfl)
    | (extract_lets +onlyGivenNames y; refine Keeps.cut (y := y) ?_ (fun hy => ?_) <;> [(unfold y; clear y); (clear_value y; rename' y => w)])
    | (extract_lets +onlyGivenNames y; clear_value y; rename' y => w)
    | (extract_lets +onlyGivenNames y; rename' y => w)
    | with_reducible apply State.logOut_keeps
    | split
    | dsimp -zeta only

theorem State.modRes_keeps {A : Nat} {z : State} {s : State} {n i : Nat} {f : LayerRes → LayerRes} (hA : 0x20000000 &&& A = 0x20000000) (hk : Keeps A z s) :
    Keeps A z (State.modRes s n i f) := by
  unfold State.modRes
  repeat' first
    | with_reducible assumption
    | ((with_reducible refine Part.sub hA ?_); rfl)
    | (extract_lets +onlyGivenNames y; refine Keeps.cut (y := y) ?_ (fun hy => ?_) <;> [(unfold y; clear y); (clear_value y; rename' y => w)])
    | (extract_lets +onlyGivenNames y; clear_value y; rename' y => w)
    | (extract_lets +onlyGivenNames y; rename' y => w)
    | with_reducible apply State.modHead_keeps
    | split
    | dsimp -zeta only

theorem State.modUnit_keeps {A : Nat} {z : State} {s : State} {scaler : Bool} {n : Nat} {f : CheckedUnit → CheckedUnit} (hA : 0xc0000000 &&& A = 0xc0000000) (hk : Keeps A z s) :
    Keeps A z (State.modUnit s scaler n f) := by
  unfold State.modUnit
  repeat' first
    | with_reducible assumption
    | ((with_reducible refine Part.sub hA ?_); rfl)
    | (extract_lets +onlyGivenNames y; refine Keeps.cut (y := y) ?_ (fun hy => ?_) <;> [(unfold y; clear y); (clear_value y; rename' y => w)])
    | (extract_lets +onlyGivenNames y; clear_value y; rename' y => w)
    | (extract_lets +onlyGivenNames y; rename' y => w)
    | with_reducible apply State.modReader_keeps
    | with_reducible apply State.modScaler_keeps
    | split
    | dsimp -zeta only

theorem State.unitLog_keeps {A : Nat} {z : State} {s : State} {n i : Nat} {l : Layer} {scaler : Bool} {unit : Nat} (hA : 0x4000000000 &&& A = 0x4000000000) (hk : Keeps A z s) :
    Keeps A z (State.unitLog s n i l scaler unit) := by
  unfold State.unitLog
  repeat' first
    | with_reducible assumption
    | ((with_reducible refine Part.sub hA ?_); rfl)
    | (extract_lets +onlyGivenNames y; refine Keeps.cut (y := y) ?_ (fun hy => ?_) <;> [(unfold y; clear y); (clear_value y; rename' y => w)])
    | (extract_lets +onlyGivenNames y; clear_value y; rename' y => w)
    | (extract_lets +onlyGivenNames y; rename' y => w)
    | with_reducible apply State.logOut_keeps
    | split
    | dsimp -zeta only

theorem State.endLayerCause_keeps {A : Nat} {z : State} {s : State} {n reason : Nat} (hA : 0x4000000000 &&& A = 0x4000000000) (hk : Keeps A z s) :
    Keeps A z (State.endLayerCause s n reason) := by
  unfold State.endLayerCause
  repeat' first
    | with_reducible assumption
    | ((with_reducible refine Part.sub hA ?_); rfl)
    | (extract_lets +onlyGivenNames y; refine Keeps.cut (y := y) ?_ (fun hy => ?_) <;> [(unfold y; clear y); (clear_value y; rename' y => w)])
    | (extract_lets +onlyGivenNames y; clear_value y; rename' y => w)
    | (extract_lets +onlyGivenNames y; rename' y => w)
    | with_reducible apply State.clearCause_keeps
    | split
    | dsimp -zeta only

theorem State.beginLayerCause_keeps {A : Nat} {z : State} {s : State} {n i : Nat} {l : Layer} {reason age : Nat} (hA : 0x4820000005 &&& A = 0x4820000005) (hk : Keeps A z s) :
    Keeps A z (State.beginLayerCause s n i l reason age) := by
  unfold State.beginLayerCause
  dsimp only
  repeat' first
    | with_reducible assumption
    | ((with_reducible refine Part.sub hA ?_); rfl)
    | (extract_lets +onlyGivenNames y; refine Keeps.cut (y := y) ?_ (fun hy => ?_) <;> [(unfold y; clear y); (clear_value y; rename' y => w)])
    | (extract_lets +onlyGivenNames y; clear_value y; rename' y => w)
    | (extract_lets +onlyGivenNames y; rename' y => w)
    | with_reducible apply State.logOut_keeps
    | with_reducible apply State.event_keeps
    | with_reducible apply State.modRes_keeps
    | with_reducible apply State.unitLog_keeps
    | with_reducible apply State.endLayerCause_keeps
    | split
    | dsimp -zeta only

theorem State.showLayer_keeps {A : Nat} {z : State} {s : State} {n i : Nat} {l : Layer} {snap age : Nat} (hA : 0x4820000005 &&& A = 0x4820000005) (hk : Keeps A z s) :
    Keeps A z (State.showLayer s n i l snap age) := by
  unfold State.showLayer
  repeat' first
    | with_reducible assumption
    | ((with_reducible refine Part.sub hA ?_); rfl)
    | (extract_lets +onlyGivenNames y; refine Keeps.cut (y := y) ?_ (fun hy => ?_) <;> [(unfold y; clear y); (clear_value y; rename' y => w)])
    | (extract_lets +onlyGivenNames y; clear_value y; rename' y => w)
    | (extract_lets +onlyGivenNames y; rename' y => w)
    | with_reducible apply State.logOut_keeps
    | with_reducible apply State.event_keeps
    | with_reducible apply State.modRes_keeps
    | with_reducible apply State.endLayerCause_keeps
    | split
    | dsimp -zeta only

theorem State.resolveLayer_keeps {A : Nat} {z : State} {s : State} {n i ns rennet : Nat} (hA : 0x4820000005 &&& A = 0x4820000005) (hk : Keeps A z s) :
    Keeps A z (State.resolveLayer s n i ns rennet) := by
  unfold State.resolveLayer
  repeat' first
    | with_reducible assumption
    | ((with_reducible refine Part.sub hA ?_); rfl)
    | (extract_lets +onlyGivenNames y; refine Keeps.cut (y := y) ?_ (fun hy => ?_) <;> [(unfold y; clear y); (clear_value y; rename' y => w)])
    | (extract_lets +onlyGivenNames y; clear_value y; rename' y => w)
    | (extract_lets +onlyGivenNames y; rename' y => w)
    | with_reducible apply State.modRes_keeps
    | with_reducible apply State.endLayerCause_keeps
    | with_reducible apply State.beginLayerCause_keeps
    | with_reducible apply State.showLayer_keeps
    | split
    | dsimp -zeta only

theorem State.curdRead_keeps {A : Nat} {z : State} {s : State} {n i r : Nat} {l : Layer} {a : ReadView} {y st k : Nat} {v : ShownCurd} (hA : 0x4800000005 &&& A = 0x4800000005) (hk : Keeps A z s) :
    Keeps A z (State.curdRead s n i r l a y st k v) := by
  unfold State.curdRead
  repeat' first
    | with_reducible assumption
    | ((with_reducible refine Part.sub hA ?_); rfl)
    | (extract_lets +onlyGivenNames y; refine Keeps.cut (y := y) ?_ (fun hy => ?_) <;> [(unfold y; clear y); rename' y => w])
    | (extract_lets +onlyGivenNames y; rename' y => w)
    | with_reducible apply State.count_keeps
    | with_reducible apply State.logRated_keeps
    | with_reducible apply State.event_keeps
    | split
    | dsimp -zeta only

theorem State.decodeLines_keeps {A : Nat} {z : State} {s : State} {n i : Nat} {l : Layer} {a : ReadView} {cols : List (Nat × Nat)} {first : Bool} {keep lo hi : Nat} (hA : 0x4820000005 &&& A = 0x4820000005) (hk : Keeps A z s) :
    Keeps A z (State.decodeLines s n i l a cols first keep lo hi) := by
  unfold State.decodeLines
  dsimp only
  repeat' first
    | with_reducible assumption
    | ((with_reducible refine Part.sub hA ?_); rfl)
    | (extract_lets +onlyGivenNames y; refine Keeps.cut (y := y) ?_ (fun hy => ?_) <;> [(unfold y; clear y); (clear_value y; rename' y => w)])
    | (extract_lets +onlyGivenNames y; refine Keeps.cut (y := y.1) ?_ (fun hy => ?_) <;> [(unfold y; clear y); (clear_value y; rename' y => w)])
    | (extract_lets +onlyGivenNames y; clear_value y; rename' y => w)
    | (extract_lets +onlyGivenNames y; rename' y => w)
    | with_reducible apply State.modRes_keeps
    | with_reducible apply State.curdRead_keeps
    | (with_reducible apply Keeps.foldl; intro y b hy)
    | (with_reducible apply Keeps.foldl_fst; intro y b hy)
    | split
    | dsimp -zeta only

end Sys2Proof.Machine
end

