-- ==== Sys2Proof/Laws/KeepHead.lean ====
section
/-!
SUPPORT. Keeps for the operations of Machine/Head.lean.
-/

namespace Sys2Proof.Machine

theorem State.holdLine_keeps {A : Nat} {z : State} {s : State} {n : Nat} (hA : 0x20000000 &&& A = 0x20000000) (hk : Keeps A z s) :
    Keeps A z (State.holdLine s n) := by
  unfold State.holdLine
  repeat' first
    | with_reducible assumption
    | ((with_reducible refine Part.sub hA ?_); rfl)
    | (extract_lets +onlyGivenNames y; refine Keeps.cut (y := y) ?_ (fun hy => ?_) <;> [(unfold y; clear y); (clear_value y; rename' y => w)])
    | (extract_lets +onlyGivenNames y; clear_value y; rename' y => w)
    | (extract_lets +onlyGivenNames y; rename' y => w)
    | with_reducible apply State.modHead_keeps
    | split
    | dsimp -zeta only

theorem State.sendLine_keeps {A : Nat} {z : State} {s : State} {n y : Nat} {px : List (Rgb × Option Nat)} {held under : Option Nat} (hA : 0x20000061 &&& A = 0x20000061) (hk : Keeps A z s) :
    Keeps A z (State.sendLine s n y px held under) := by
  unfold State.sendLine
  repeat' first
    | with_reducible assumption
    | ((with_reducible refine Part.sub hA ?_); rfl)
    | (extract_lets +onlyGivenNames y; refine Keeps.cut (y := y) ?_ (fun hy => ?_) <;> [(unfold y; clear y); (clear_value y; rename' y => w)])
    | (extract_lets +onlyGivenNames y; clear_value y; rename' y => w)
    | (extract_lets +onlyGivenNames y; rename' y => w)
    | with_reducible apply State.modHead_keeps
    | (refine Keeps.of_snd (State.freeBelow_keeps (Part.sub hA rfl) ?_) (by assumption))
    | with_reducible apply State.freeBelow_keeps
    | with_reducible apply State.headSend_keeps
    | (with_reducible apply Keeps.foldl; intro y b hy)
    | (with_reducible apply Keeps.foldl_fst; intro y b hy)
    | split
    | dsimp -zeta only

theorem State.readFor_keeps {A : Nat} {z : State} {s : State} {n cy : Nat} {v : Nat × Layer × Nat × Nat} (hA : 0x4820000005 &&& A = 0x4820000005) (hk : Keeps A z s) :
    Keeps A z (State.readFor s n cy v) := by
  unfold State.readFor
  repeat' first
    | with_reducible assumption
    | ((with_reducible refine Part.sub hA ?_); rfl)
    | (extract_lets +onlyGivenNames y; refine Keeps.cut (y := y) ?_ (fun hy => ?_) <;> [(unfold y; clear y); (clear_value y; rename' y => w)])
    | (extract_lets +onlyGivenNames y; refine Keeps.cut (y := y.1) ?_ (fun hy => ?_) <;> [(unfold y; clear y); (clear_value y; rename' y => w)])
    | (extract_lets +onlyGivenNames y; clear_value y; rename' y => w)
    | (extract_lets +onlyGivenNames y; rename' y => w)
    | with_reducible apply State.decodeLines_keeps
    | split
    | dsimp -zeta only

theorem State.activeLine_keeps {A : Nat} {z : State} {s : State} {n y : Nat} {fill : LineFill} (hA : 0x4a20000065 &&& A = 0x4a20000065) (hk : Keeps A z s) :
    Keeps A z (State.activeLine s n y fill) := by
  unfold State.activeLine
  repeat' first
    | with_reducible assumption
    | ((with_reducible refine Part.sub hA ?_); rfl)
    | (extract_lets +onlyGivenNames y; refine Keeps.cut (y := y) ?_ (fun hy => ?_) <;> [(unfold y; clear y); (clear_value y; rename' y => w)])
    | (extract_lets +onlyGivenNames y; clear_value y; rename' y => w)
    | (extract_lets +onlyGivenNames y; rename' y => w)
    | with_reducible apply State.countBy_keeps
    | with_reducible apply State.count_keeps
    | with_reducible apply State.modHead_keeps
    | with_reducible apply State.logRated_keeps
    | with_reducible apply State.event_keeps
    | with_reducible apply State.raiseReads_keeps
    | with_reducible apply State.holdLine_keeps
    | with_reducible apply State.sendLine_keeps
    | with_reducible apply State.readFor_keeps
    | (with_reducible apply Keeps.foldl; intro y b hy)
    | (with_reducible apply Keeps.foldl_fst; intro y b hy)
    | split
    | dsimp -zeta only

theorem State.unitFault_keeps {A : Nat} {z : State} {s : State} {scaler : Bool} {k : Nat} (hA : 0x48c0000005 &&& A = 0x48c0000005) (hk : Keeps A z s) :
    Keeps A z (State.unitFault s scaler k) := by
  unfold State.unitFault
  repeat' first
    | with_reducible assumption
    | ((with_reducible refine Part.sub hA ?_); rfl)
    | (extract_lets +onlyGivenNames y; refine Keeps.cut (y := y) ?_ (fun hy => ?_) <;> [(unfold y; clear y); (clear_value y; rename' y => w)])
    | (extract_lets +onlyGivenNames y; clear_value y; rename' y => w)
    | (extract_lets +onlyGivenNames y; rename' y => w)
    | with_reducible apply State.event_keeps
    | with_reducible apply State.modUnit_keeps
    | with_reducible apply State.unitLog_keeps
    | split
    | dsimp -zeta only

theorem State.selfCheck_keeps {A : Nat} {z : State} {s : State} {scaler : Bool} {n : Nat} (hA : 0x48c0000045 &&& A = 0x48c0000045) (hk : Keeps A z s) :
    Keeps A z (State.selfCheck s scaler n) := by
  unfold State.selfCheck
  repeat' first
    | with_reducible assumption
    | ((with_reducible refine Part.sub hA ?_); rfl)
    | (extract_lets +onlyGivenNames y; refine Keeps.cut (y := y) ?_ (fun hy => ?_) <;> [(unfold y; clear y); (clear_value y; rename' y => w)])
    | (extract_lets +onlyGivenNames y; clear_value y; rename' y => w)
    | (extract_lets +onlyGivenNames y; rename' y => w)
    | (refine Keeps.of_snd (State.freeBit_keeps (Part.sub hA rfl) ?_) (by assumption))
    | with_reducible apply State.freeBit_keeps
    | with_reducible apply State.modUnit_keeps
    | with_reducible apply State.unitFault_keeps
    | split
    | dsimp -zeta only

theorem State.latchHead_keeps {A : Nat} {z : State} {s : State} {n : Nat} {all : Bool} {ns next : Nat} (hA : 0x48e0000045 &&& A = 0x48e0000045) (hk : Keeps A z s) :
    Keeps A z (State.latchHead s n all ns next) := by
  unfold State.latchHead
  repeat' first
    | with_reducible assumption
    | ((with_reducible refine Part.sub hA ?_); rfl)
    | (extract_lets +onlyGivenNames y; refine Keeps.cut (y := y) ?_ (fun hy => ?_) <;> [(unfold y; clear y); (clear_value y; rename' y => w)])
    | (extract_lets +onlyGivenNames y; clear_value y; rename' y => w)
    | (extract_lets +onlyGivenNames y; rename' y => w)
    | with_reducible apply State.modHead_keeps
    | with_reducible apply State.modScaler_keeps
    | with_reducible apply State.event_keeps
    | with_reducible apply State.resolveLayer_keeps
    | with_reducible apply State.selfCheck_keeps
    | (with_reducible apply Keeps.foldl; intro y b hy)
    | (with_reducible apply Keeps.foldl_fst; intro y b hy)
    | split
    | dsimp -zeta only

theorem State.lineMatch_keeps {A : Nat} {z : State} {s : State} {n line : Nat} (hA : 0x4800000005 &&& A = 0x4800000005) (hk : Keeps A z s) :
    Keeps A z (State.lineMatch s n line) := by
  unfold State.lineMatch
  repeat' first
    | with_reducible assumption
    | ((with_reducible refine Part.sub hA ?_); rfl)
    | (extract_lets +onlyGivenNames y; refine Keeps.cut (y := y) ?_ (fun hy => ?_) <;> [(unfold y; clear y); (clear_value y; rename' y => w)])
    | (extract_lets +onlyGivenNames y; clear_value y; rename' y => w)
    | (extract_lets +onlyGivenNames y; rename' y => w)
    | with_reducible apply State.event_keeps
    | split
    | dsimp -zeta only

theorem State.lineLimit_keeps {A : Nat} {z : State} {s : State} {n vt : Nat} (hA : 0x20000000 &&& A = 0x20000000) (hk : Keeps A z s) :
    Keeps A z (State.lineLimit s n vt) := by
  unfold State.lineLimit
  repeat' first
    | with_reducible assumption
    | ((with_reducible refine Part.sub hA ?_); rfl)
    | (extract_lets +onlyGivenNames y; refine Keeps.cut (y := y) ?_ (fun hy => ?_) <;> [(unfold y; clear y); (clear_value y; rename' y => w)])
    | (extract_lets +onlyGivenNames y; clear_value y; rename' y => w)
    | (extract_lets +onlyGivenNames y; rename' y => w)
    | with_reducible apply State.modHead_keeps
    | split
    | dsimp -zeta only

theorem State.writeLine_keeps {A : Nat} {z : State} {s : State} {n : Nat} {second : Bool} {v : Word} (hA : 0x20000001 &&& A = 0x20000001) (hk : Keeps A z s) :
    Keeps A z (State.writeLine s n second v) := by
  unfold State.writeLine
  repeat' first
    | with_reducible assumption
    | ((with_reducible refine Part.sub hA ?_); rfl)
    | (extract_lets +onlyGivenNames y; refine Keeps.cut (y := y) ?_ (fun hy => ?_) <;> [(unfold y; clear y); (clear_value y; rename' y => w)])
    | (extract_lets +onlyGivenNames y; clear_value y; rename' y => w)
    | (extract_lets +onlyGivenNames y; rename' y => w)
    | with_reducible apply State.setReg_keeps
    | with_reducible apply State.modHead_keeps
    | split
    | dsimp -zeta only

theorem execHeadLineStart_keeps {A : Nat} {z : State} {head : Fin 16} {fill : LineFill} {s : State} (hA : 0x4ae0000065 &&& A = 0x4ae0000065) (hk : Keeps A z s) :
    KeepsOut A z (execHeadLineStart head fill s) := by
  unfold execHeadLineStart
  repeat' first
    | with_reducible assumption
    | with_reducible apply KeepsOut.fault
    | with_reducible apply KeepsOut.next
    | (extract_lets +onlyGivenNames y; refine KeepsOut.cut (y := y) ?_ (fun hy => ?_) <;> [(unfold y; clear y); (clear_value y; rename' y => w)])
    | ((with_reducible refine Part.sub hA ?_); rfl)
    | (extract_lets +onlyGivenNames y; refine Keeps.cut (y := y) ?_ (fun hy => ?_) <;> [(unfold y; clear y); (clear_value y; rename' y => w)])
    | (extract_lets +onlyGivenNames y; refine Keeps.cut (y := y.1) ?_ (fun hy => ?_) <;> [(unfold y; clear y); (clear_value y; rename' y => w)])
    | (extract_lets +onlyGivenNames y; clear_value y; rename' y => w)
    | (extract_lets +onlyGivenNames y; rename' y => w)
    | with_reducible apply State.modHead_keeps
    | with_reducible apply State.event_keeps
    | with_reducible apply State.headLog_keeps
    | with_reducible apply State.activeLine_keeps
    | with_reducible apply State.latchHead_keeps
    | with_reducible apply State.lineMatch_keeps
    | split
    | dsimp -zeta only

theorem execHeadFrameStart_keeps {A : Nat} {z : State} {head : Fin 16} {s : State} (hA : 0x20000000 &&& A = 0x20000000) (hk : Keeps A z s) :
    KeepsOut A z (execHeadFrameStart head s) := by
  unfold execHeadFrameStart
  repeat' first
    | with_reducible assumption
    | with_reducible apply KeepsOut.fault
    | with_reducible apply KeepsOut.next
    | (extract_lets +onlyGivenNames y; refine KeepsOut.cut (y := y) ?_ (fun hy => ?_) <;> [(unfold y; clear y); (clear_value y; rename' y => w)])
    | ((with_reducible refine Part.sub hA ?_); rfl)
    | (extract_lets +onlyGivenNames y; refine Keeps.cut (y := y) ?_ (fun hy => ?_) <;> [(unfold y; clear y); (clear_value y; rename' y => w)])
    | (extract_lets +onlyGivenNames y; clear_value y; rename' y => w)
    | (extract_lets +onlyGivenNames y; rename' y => w)
    | with_reducible apply State.modHead_keeps
    | with_reducible apply State.modRes_keeps
    | (with_reducible apply Keeps.foldl; intro y b hy)
    | (with_reducible apply Keeps.foldl_fst; intro y b hy)
    | split
    | dsimp -zeta only

theorem State.runFrom_keeps {A : Nat} {z : State} {s : State} {n k : Nat} (hA : 0x20000000 &&& A = 0x20000000) (hk : Keeps A z s) :
    Keeps A z (State.runFrom s n k) := by
  unfold State.runFrom
  repeat' first
    | with_reducible assumption
    | ((with_reducible refine Part.sub hA ?_); rfl)
    | (extract_lets +onlyGivenNames y; refine Keeps.cut (y := y) ?_ (fun hy => ?_) <;> [(unfold y; clear y); (clear_value y; rename' y => w)])
    | (extract_lets +onlyGivenNames y; clear_value y; rename' y => w)
    | (extract_lets +onlyGivenNames y; rename' y => w)
    | with_reducible apply State.modHead_keeps
    | split
    | dsimp -zeta only

theorem State.enterMode_keeps {A : Nat} {z : State} {s : State} {n : Nat} {p : List Byte} {gang : Bool} (hA : 0x4020000021 &&& A = 0x4020000021) (hk : Keeps A z s) :
    Keeps A z (State.enterMode s n p gang) := by
  unfold State.enterMode
  repeat' first
    | with_reducible assumption
    | ((with_reducible refine Part.sub hA ?_); rfl)
    | (extract_lets +onlyGivenNames y; refine Keeps.cut (y := y) ?_ (fun hy => ?_) <;> [(unfold y; clear y); (clear_value y; rename' y => w)])
    | (extract_lets +onlyGivenNames y; clear_value y; rename' y => w)
    | (extract_lets +onlyGivenNames y; rename' y => w)
    | with_reducible apply State.modHead_keeps
    | with_reducible apply State.headEov_keeps
    | with_reducible apply State.clearCause_keeps
    | with_reducible apply State.headLog_keeps
    | with_reducible apply State.lineLimit_keeps
    | with_reducible apply State.runFrom_keeps
    | split
    | dsimp -zeta only

theorem execHeadFrameDone_keeps {A : Nat} {z : State} {head : Fin 16} {s : State} (hA : 0x4c20000025 &&& A = 0x4c20000025) (hk : Keeps A z s) :
    KeepsOut A z (execHeadFrameDone head s) := by
  unfold execHeadFrameDone
  repeat' first
    | with_reducible assumption
    | with_reducible apply KeepsOut.fault
    | with_reducible apply KeepsOut.next
    | (extract_lets +onlyGivenNames y; refine KeepsOut.cut (y := y) ?_ (fun hy => ?_) <;> [(unfold y; clear y); (clear_value y; rename' y => w)])
    | ((with_reducible refine Part.sub hA ?_); rfl)
    | (extract_lets +onlyGivenNames y; refine Keeps.cut (y := y) ?_ (fun hy => ?_) <;> [(unfold y; clear y); (clear_value y; rename' y => w)])
    | (extract_lets +onlyGivenNames y; clear_value y; rename' y => w)
    | (extract_lets +onlyGivenNames y; rename' y => w)
    | with_reducible apply State.count_keeps
    | with_reducible apply State.modHead_keeps
    | with_reducible apply State.event_keeps
    | with_reducible apply State.headEov_keeps
    | with_reducible apply State.admitRecord_keeps
    | with_reducible apply State.clearCause_keeps
    | with_reducible apply State.headLog_keeps
    | with_reducible apply State.enterMode_keeps
    | split
    | dsimp -zeta only

theorem execHeadEovRepeat_keeps {A : Nat} {z : State} {head : Fin 16} {s : State} (hA : 0x4020000021 &&& A = 0x4020000021) (hk : Keeps A z s) :
    KeepsOut A z (execHeadEovRepeat head s) := by
  unfold execHeadEovRepeat
  repeat' first
    | with_reducible assumption
    | with_reducible apply KeepsOut.fault
    | with_reducible apply KeepsOut.next
    | (extract_lets +onlyGivenNames y; refine KeepsOut.cut (y := y) ?_ (fun hy => ?_) <;> [(unfold y; clear y); (clear_value y; rename' y => w)])
    | ((with_reducible refine Part.sub hA ?_); rfl)
    | (extract_lets +onlyGivenNames y; refine Keeps.cut (y := y) ?_ (fun hy => ?_) <;> [(unfold y; clear y); (clear_value y; rename' y => w)])
    | (extract_lets +onlyGivenNames y; clear_value y; rename' y => w)
    | (extract_lets +onlyGivenNames y; rename' y => w)
    | with_reducible apply State.modHead_keeps
    | with_reducible apply State.headEov_keeps
    | with_reducible apply State.headLog_keeps
    | split
    | dsimp -zeta only

theorem State.headCommit_keeps {A : Nat} {z : State} {s : State} {n : Nat} {stamp : Stamp} {replan : Bool} (hA : 0x4020000021 &&& A = 0x4020000021) (hk : Keeps A z s) :
    Keeps A z (State.headCommit s n stamp replan) := by
  unfold State.headCommit
  dsimp only
  repeat' first
    | with_reducible assumption
    | ((with_reducible refine Part.sub hA ?_); rfl)
    | (extract_lets +onlyGivenNames y; refine Keeps.cut (y := y) ?_ (fun hy => ?_) <;> [(unfold y; clear y); (clear_value y; rename' y => w)])
    | (extract_lets +onlyGivenNames y; clear_value y; rename' y => w)
    | (extract_lets +onlyGivenNames y; rename' y => w)
    | with_reducible apply State.modHead_keeps
    | with_reducible apply State.runFrom_keeps
    | with_reducible apply State.enterMode_keeps
    | split
    | dsimp -zeta only

theorem State.scalerCommit_keeps {A : Nat} {z : State} {s : State} {c : Nat} (hA : 0x80000000 &&& A = 0x80000000) (hk : Keeps A z s) :
    Keeps A z (State.scalerCommit s c) := by
  unfold State.scalerCommit
  repeat' first
    | with_reducible assumption
    | ((with_reducible refine Part.sub hA ?_); rfl)
    | (extract_lets +onlyGivenNames y; refine Keeps.cut (y := y) ?_ (fun hy => ?_) <;> [(unfold y; clear y); (clear_value y; rename' y => w)])
    | (extract_lets +onlyGivenNames y; clear_value y; rename' y => w)
    | (extract_lets +onlyGivenNames y; rename' y => w)
    | with_reducible apply State.modScaler_keeps
    | split
    | dsimp -zeta only

theorem execHeadRetest_keeps {A : Nat} {z : State} {agent : Agent} {head : Fin 16} {s : State} (hA : 0x4020000040 &&& A = 0x4020000040) (hk : Keeps A z s) :
    KeepsOut A z (execHeadRetest agent head s) := by
  unfold execHeadRetest
  repeat' first
    | with_reducible assumption
    | with_reducible apply KeepsOut.fault
    | with_reducible apply KeepsOut.next
    | (extract_lets +onlyGivenNames y; refine KeepsOut.cut (y := y) ?_ (fun hy => ?_) <;> [(unfold y; clear y); (clear_value y; rename' y => w)])
    | ((with_reducible refine Part.sub hA ?_); rfl)
    | (extract_lets +onlyGivenNames y; refine Keeps.cut (y := y) ?_ (fun hy => ?_) <;> [(unfold y; clear y); (clear_value y; rename' y => w)])
    | (extract_lets +onlyGivenNames y; clear_value y; rename' y => w)
    | (extract_lets +onlyGivenNames y; rename' y => w)
    | with_reducible apply State.modHead_keeps
    | (refine Keeps.of_snd (State.freeBit_keeps (Part.sub hA rfl) ?_) (by assumption))
    | with_reducible apply State.freeBit_keeps
    | with_reducible apply State.clearCause_keeps
    | split
    | dsimp -zeta only

theorem execUnitCheckFail_keeps {A : Nat} {z : State} {scaler : Bool} {unit : Fin 64} {s : State} (hA : 0x48e0000005 &&& A = 0x48e0000005) (hk : Keeps A z s) :
    KeepsOut A z (execUnitCheckFail scaler unit s) := by
  unfold execUnitCheckFail
  repeat' first
    | with_reducible assumption
    | with_reducible apply KeepsOut.fault
    | with_reducible apply KeepsOut.next
    | (extract_lets +onlyGivenNames y; refine KeepsOut.cut (y := y) ?_ (fun hy => ?_) <;> [(unfold y; clear y); (clear_value y; rename' y => w)])
    | ((with_reducible refine Part.sub hA ?_); rfl)
    | (extract_lets +onlyGivenNames y; refine Keeps.cut (y := y) ?_ (fun hy => ?_) <;> [(unfold y; clear y); (clear_value y; rename' y => w)])
    | (extract_lets +onlyGivenNames y; clear_value y; rename' y => w)
    | (extract_lets +onlyGivenNames y; rename' y => w)
    | with_reducible apply State.event_keeps
    | with_reducible apply State.modRes_keeps
    | with_reducible apply State.endLayerCause_keeps
    | with_reducible apply State.unitFault_keeps
    | split
    | dsimp -zeta only

theorem State.retestUnit_keeps {A : Nat} {z : State} {s : State} {scaler : Bool} {n : Nat} (hA : 0x48c0000045 &&& A = 0x48c0000045) (hk : Keeps A z s) :
    Keeps A z (State.retestUnit s scaler n) := by
  unfold State.retestUnit
  repeat' first
    | with_reducible assumption
    | ((with_reducible refine Part.sub hA ?_); rfl)
    | (extract_lets +onlyGivenNames y; refine Keeps.cut (y := y) ?_ (fun hy => ?_) <;> [(unfold y; clear y); (clear_value y; rename' y => w)])
    | (extract_lets +onlyGivenNames y; clear_value y; rename' y => w)
    | (extract_lets +onlyGivenNames y; rename' y => w)
    | with_reducible apply State.modUnit_keeps
    | with_reducible apply State.selfCheck_keeps
    | split
    | dsimp -zeta only

theorem execReaderRetest_keeps {A : Nat} {z : State} {agent : Agent} {reader : Fin 64} {s : State} (hA : 0x48c0000045 &&& A = 0x48c0000045) (hk : Keeps A z s) :
    KeepsOut A z (execReaderRetest agent reader s) := by
  unfold execReaderRetest
  repeat' first
    | with_reducible assumption
    | with_reducible apply KeepsOut.fault
    | with_reducible apply KeepsOut.next
    | (extract_lets +onlyGivenNames y; refine KeepsOut.cut (y := y) ?_ (fun hy => ?_) <;> [(unfold y; clear y); (clear_value y; rename' y => w)])
    | ((with_reducible refine Part.sub hA ?_); rfl)
    | (extract_lets +onlyGivenNames y; refine Keeps.cut (y := y) ?_ (fun hy => ?_) <;> [(unfold y; clear y); (clear_value y; rename' y => w)])
    | (extract_lets +onlyGivenNames y; clear_value y; rename' y => w)
    | (extract_lets +onlyGivenNames y; rename' y => w)
    | with_reducible apply State.retestUnit_keeps
    | split
    | dsimp -zeta only

theorem execScalerRetest_keeps {A : Nat} {z : State} {agent : Agent} {scaler : Fin 32} {s : State} (hA : 0x48c0000045 &&& A = 0x48c0000045) (hk : Keeps A z s) :
    KeepsOut A z (execScalerRetest agent scaler s) := by
  unfold execScalerRetest
  repeat' first
    | with_reducible assumption
    | with_reducible apply KeepsOut.fault
    | with_reducible apply KeepsOut.next
    | (extract_lets +onlyGivenNames y; refine KeepsOut.cut (y := y) ?_ (fun hy => ?_) <;> [(unfold y; clear y); (clear_value y; rename' y => w)])
    | ((with_reducible refine Part.sub hA ?_); rfl)
    | (extract_lets +onlyGivenNames y; refine Keeps.cut (y := y) ?_ (fun hy => ?_) <;> [(unfold y; clear y); (clear_value y; rename' y => w)])
    | (extract_lets +onlyGivenNames y; clear_value y; rename' y => w)
    | (extract_lets +onlyGivenNames y; rename' y => w)
    | with_reducible apply State.retestUnit_keeps
    | split
    | dsimp -zeta only

theorem State.bufLowRead_keeps {A : Nat} {z : State} {s : State} {n : Nat} (hA : 0x20000010 &&& A = 0x20000010) (hk : Keeps A z s) :
    Keeps A z (State.bufLowRead s n) := by
  unfold State.bufLowRead
  repeat' first
    | with_reducible assumption
    | ((with_reducible refine Part.sub hA ?_); rfl)
    | (extract_lets +onlyGivenNames y; refine Keeps.cut (y := y) ?_ (fun hy => ?_) <;> [(unfold y; clear y); (clear_value y; rename' y => w)])
    | (extract_lets +onlyGivenNames y; clear_value y; rename' y => w)
    | (extract_lets +onlyGivenNames y; rename' y => w)
    | with_reducible apply State.modHead_keeps
    | with_reducible apply State.answer_keeps
    | split
    | dsimp -zeta only

end Sys2Proof.Machine
end

