-- ==== Sys2Proof/Laws/KeepHub.lean ====
section
/-!
SUPPORT. Keeps for the operations of Machine/Hub.lean.
-/

namespace Sys2Proof.Machine

theorem State.hubDenied_keeps {A : Nat} {z : State} {s : State} {g : Agent} {n : Nat} (hA : 0x4000000001 &&& A = 0x4000000001) (hk : Keeps A z s) :
    Keeps A z (State.hubDenied s g n) := by
  unfold State.hubDenied
  repeat' first
    | with_reducible assumption
    | ((with_reducible refine Part.sub hA ?_); rfl)
    | (extract_lets +onlyGivenNames y; refine Keeps.cut (y := y) ?_ (fun hy => ?_) <;> [(unfold y; clear y); (clear_value y; rename' y => w)])
    | (extract_lets +onlyGivenNames y; clear_value y; rename' y => w)
    | (extract_lets +onlyGivenNames y; rename' y => w)
    | with_reducible apply State.count_keeps
    | with_reducible apply State.log_keeps
    | split
    | dsimp -zeta only

theorem execIrqEvent_keeps {A : Nat} {z : State} {events : Nat} {n : Fin 32} {s : State} (hA : 0x4800000005 &&& A = 0x4800000005) (hk : Keeps A z s) :
    KeepsOut A z (execIrqEvent events n s) := by
  unfold execIrqEvent
  repeat' first
    | with_reducible assumption
    | with_reducible apply KeepsOut.fault
    | with_reducible apply KeepsOut.next
    | (extract_lets +onlyGivenNames y; refine KeepsOut.cut (y := y) ?_ (fun hy => ?_) <;> [(unfold y; clear y); (clear_value y; rename' y => w)])
    | ((with_reducible refine Part.sub hA ?_); rfl)
    | (extract_lets +onlyGivenNames y; refine Keeps.cut (y := y) ?_ (fun hy => ?_) <;> [(unfold y; clear y); (clear_value y; rename' y => w)])
    | (extract_lets +onlyGivenNames y; clear_value y; rename' y => w)
    | (extract_lets +onlyGivenNames y; rename' y => w)
    | with_reducible apply State.event_keeps
    | split
    | dsimp -zeta only

theorem execIrqClaim_keeps {A : Nat} {z : State} {agent : Agent} {target : Fin 5} {s : State} (hA : 0x800000011 &&& A = 0x800000011) (hk : Keeps A z s) :
    KeepsOut A z (execIrqClaim agent target s) := by
  unfold execIrqClaim
  repeat' first
    | with_reducible assumption
    | with_reducible apply KeepsOut.fault
    | with_reducible apply KeepsOut.next
    | (extract_lets +onlyGivenNames y; refine KeepsOut.cut (y := y) ?_ (fun hy => ?_) <;> [(unfold y; clear y); (clear_value y; rename' y => w)])
    | ((with_reducible refine Part.sub hA ?_); rfl)
    | (extract_lets +onlyGivenNames y; refine Keeps.cut (y := y) ?_ (fun hy => ?_) <;> [(unfold y; clear y); (clear_value y; rename' y => w)])
    | (extract_lets +onlyGivenNames y; clear_value y; rename' y => w)
    | (extract_lets +onlyGivenNames y; rename' y => w)
    | with_reducible apply State.count_keeps
    | with_reducible apply State.modSource_keeps
    | with_reducible apply State.answer_keeps
    | with_reducible apply State.arbitrate_keeps
    | split
    | dsimp -zeta only

theorem execIrqComplete_keeps {A : Nat} {z : State} {agent : Agent} {target : Fin 5} {source : Fin 512} {s : State} (hA : 0x800000001 &&& A = 0x800000001) (hk : Keeps A z s) :
    KeepsOut A z (execIrqComplete agent target source s) := by
  unfold execIrqComplete
  repeat' first
    | with_reducible assumption
    | with_reducible apply KeepsOut.fault
    | with_reducible apply KeepsOut.next
    | (extract_lets +onlyGivenNames y; refine KeepsOut.cut (y := y) ?_ (fun hy => ?_) <;> [(unfold y; clear y); (clear_value y; rename' y => w)])
    | ((with_reducible refine Part.sub hA ?_); rfl)
    | (extract_lets +onlyGivenNames y; refine Keeps.cut (y := y) ?_ (fun hy => ?_) <;> [(unfold y; clear y); (clear_value y; rename' y => w)])
    | (extract_lets +onlyGivenNames y; clear_value y; rename' y => w)
    | (extract_lets +onlyGivenNames y; rename' y => w)
    | with_reducible apply State.count_keeps
    | with_reducible apply State.modSource_keeps
    | with_reducible apply State.arbitrate_keeps
    | split
    | dsimp -zeta only

theorem execSrcCfgWrite_keeps {A : Nat} {z : State} {agent : Agent} {source : Fin 512} {value : Word} {s : State} (hA : 0x4800000001 &&& A = 0x4800000001) (hk : Keeps A z s) :
    KeepsOut A z (execSrcCfgWrite agent source value s) := by
  unfold execSrcCfgWrite
  repeat' first
    | with_reducible assumption
    | with_reducible apply KeepsOut.fault
    | with_reducible apply KeepsOut.next
    | (extract_lets +onlyGivenNames y; refine KeepsOut.cut (y := y) ?_ (fun hy => ?_) <;> [(unfold y; clear y); (clear_value y; rename' y => w)])
    | ((with_reducible refine Part.sub hA ?_); rfl)
    | (extract_lets +onlyGivenNames y; refine Keeps.cut (y := y) ?_ (fun hy => ?_) <;> [(unfold y; clear y); (clear_value y; rename' y => w)])
    | (extract_lets +onlyGivenNames y; refine Keeps.cut (y := y.1) ?_ (fun hy => ?_) <;> [(unfold y; clear y); (clear_value y; rename' y => w)])
    | (extract_lets +onlyGivenNames y; clear_value y; rename' y => w)
    | (extract_lets +onlyGivenNames y; rename' y => w)
    | with_reducible apply State.setSource_keeps
    | with_reducible apply State.arbitrate_keeps
    | with_reducible apply State.hubDenied_keeps
    | split
    | dsimp -zeta only

theorem execThresholdWrite_keeps {A : Nat} {z : State} {agent : Agent} {target : Fin 5} {value : Word} {s : State} (hA : 0x800000000 &&& A = 0x800000000) (hk : Keeps A z s) :
    KeepsOut A z (execThresholdWrite agent target value s) := by
  unfold execThresholdWrite
  repeat' first
    | with_reducible assumption
    | with_reducible apply KeepsOut.fault
    | with_reducible apply KeepsOut.next
    | (extract_lets +onlyGivenNames y; refine KeepsOut.cut (y := y) ?_ (fun hy => ?_) <;> [(unfold y; clear y); (clear_value y; rename' y => w)])
    | ((with_reducible refine Part.sub hA ?_); rfl)
    | (extract_lets +onlyGivenNames y; refine Keeps.cut (y := y) ?_ (fun hy => ?_) <;> [(unfold y; clear y); (clear_value y; rename' y => w)])
    | (extract_lets +onlyGivenNames y; clear_value y; rename' y => w)
    | (extract_lets +onlyGivenNames y; rename' y => w)
    | with_reducible apply State.arbitrate_keeps
    | split
    | (with_reducible refine Keeps.change ?_ rfl rfl rfl rfl rfl rfl rfl rfl id ?_)
    | (intro p hp; cases p <;> first | exact Part.inside hA hp rfl | rfl)
    | dsimp -zeta only

theorem execSwiSet_keeps {A : Nat} {z : State} {agent : Agent} {value : Word} {s : State} (hA : 0x4800000001 &&& A = 0x4800000001) (hk : Keeps A z s) :
    KeepsOut A z (execSwiSet agent value s) := by
  unfold execSwiSet
  repeat' first
    | with_reducible assumption
    | with_reducible apply KeepsOut.fault
    | with_reducible apply KeepsOut.next
    | (extract_lets +onlyGivenNames y; refine KeepsOut.cut (y := y) ?_ (fun hy => ?_) <;> [(unfold y; clear y); (clear_value y; rename' y => w)])
    | ((with_reducible refine Part.sub hA ?_); rfl)
    | (extract_lets +onlyGivenNames y; refine Keeps.cut (y := y) ?_ (fun hy => ?_) <;> [(unfold y; clear y); (clear_value y; rename' y => w)])
    | (extract_lets +onlyGivenNames y; clear_value y; rename' y => w)
    | (extract_lets +onlyGivenNames y; rename' y => w)
    | with_reducible apply State.irqCount_keeps
    | (with_reducible apply Keeps.foldl; intro y b hy)
    | (with_reducible apply Keeps.foldl_fst; intro y b hy)
    | split
    | dsimp -zeta only

theorem execSrcCntSatClear_keeps {A : Nat} {z : State} {agent : Agent} {source : Fin 512} {s : State} (hA : 0x800000000 &&& A = 0x800000000) (hk : Keeps A z s) :
    KeepsOut A z (execSrcCntSatClear agent source s) := by
  unfold execSrcCntSatClear
  repeat' first
    | with_reducible assumption
    | with_reducible apply KeepsOut.fault
    | with_reducible apply KeepsOut.next
    | (extract_lets +onlyGivenNames y; refine KeepsOut.cut (y := y) ?_ (fun hy => ?_) <;> [(unfold y; clear y); (clear_value y; rename' y => w)])
    | ((with_reducible refine Part.sub hA ?_); rfl)
    | (extract_lets +onlyGivenNames y; refine Keeps.cut (y := y) ?_ (fun hy => ?_) <;> [(unfold y; clear y); (clear_value y; rename' y => w)])
    | (extract_lets +onlyGivenNames y; clear_value y; rename' y => w)
    | (extract_lets +onlyGivenNames y; rename' y => w)
    | with_reducible apply State.modSource_keeps
    | split
    | dsimp -zeta only

theorem execIrqNoTarget_keeps {A : Nat} {z : State} {source : Fin 512} {s : State} (hA : 0x4800000000 &&& A = 0x4800000000) (hk : Keeps A z s) :
    KeepsOut A z (execIrqNoTarget source s) := by
  unfold execIrqNoTarget
  repeat' first
    | with_reducible assumption
    | with_reducible apply KeepsOut.fault
    | with_reducible apply KeepsOut.next
    | (extract_lets +onlyGivenNames y; refine KeepsOut.cut (y := y) ?_ (fun hy => ?_) <;> [(unfold y; clear y); (clear_value y; rename' y => w)])
    | ((with_reducible refine Part.sub hA ?_); rfl)
    | (extract_lets +onlyGivenNames y; refine Keeps.cut (y := y) ?_ (fun hy => ?_) <;> [(unfold y; clear y); (clear_value y; rename' y => w)])
    | (extract_lets +onlyGivenNames y; clear_value y; rename' y => w)
    | (extract_lets +onlyGivenNames y; rename' y => w)
    | with_reducible apply State.setSource_keeps
    | with_reducible apply State.log_keeps
    | split
    | dsimp -zeta only

theorem State.fireTimer_keeps {A : Nat} {z : State} {s : State} {n : Nat} {a : Stamp} (hA : 0x4800000001 &&& A = 0x4800000001) (hk : Keeps A z s) :
    Keeps A z (State.fireTimer s n a) := by
  unfold State.fireTimer
  repeat' first
    | with_reducible assumption
    | ((with_reducible refine Part.sub hA ?_); rfl)
    | (extract_lets +onlyGivenNames y; refine Keeps.cut (y := y) ?_ (fun hy => ?_) <;> [(unfold y; clear y); (clear_value y; rename' y => w)])
    | (extract_lets +onlyGivenNames y; clear_value y; rename' y => w)
    | (extract_lets +onlyGivenNames y; rename' y => w)
    | with_reducible apply State.count_keeps
    | with_reducible apply State.modTimer_keeps
    | with_reducible apply State.irqCount_keeps
    | split
    | dsimp -zeta only

theorem execRtArm_keeps {A : Nat} {z : State} {agent : Agent} {timer : Fin 8} {value : Word} {s : State} (hA : 0x4800000001 &&& A = 0x4800000001) (hk : Keeps A z s) :
    KeepsOut A z (execRtArm agent timer value s) := by
  unfold execRtArm
  repeat' first
    | with_reducible assumption
    | with_reducible apply KeepsOut.fault
    | with_reducible apply KeepsOut.next
    | (extract_lets +onlyGivenNames y; refine KeepsOut.cut (y := y) ?_ (fun hy => ?_) <;> [(unfold y; clear y); (clear_value y; rename' y => w)])
    | ((with_reducible refine Part.sub hA ?_); rfl)
    | (extract_lets +onlyGivenNames y; refine Keeps.cut (y := y) ?_ (fun hy => ?_) <;> [(unfold y; clear y); (clear_value y; rename' y => w)])
    | (extract_lets +onlyGivenNames y; clear_value y; rename' y => w)
    | (extract_lets +onlyGivenNames y; rename' y => w)
    | with_reducible apply State.setReg_keeps
    | with_reducible apply State.modTimer_keeps
    | with_reducible apply State.log_keeps
    | with_reducible apply State.hubDenied_keeps
    | with_reducible apply State.fireTimer_keeps
    | split
    | dsimp -zeta only

theorem execRtExpire_keeps {A : Nat} {z : State} {timer : Fin 8} {s : State} (hA : 0x4800000001 &&& A = 0x4800000001) (hk : Keeps A z s) :
    KeepsOut A z (execRtExpire timer s) := by
  unfold execRtExpire
  repeat' first
    | with_reducible assumption
    | with_reducible apply KeepsOut.fault
    | with_reducible apply KeepsOut.next
    | (extract_lets +onlyGivenNames y; refine KeepsOut.cut (y := y) ?_ (fun hy => ?_) <;> [(unfold y; clear y); (clear_value y; rename' y => w)])
    | ((with_reducible refine Part.sub hA ?_); rfl)
    | (extract_lets +onlyGivenNames y; refine Keeps.cut (y := y) ?_ (fun hy => ?_) <;> [(unfold y; clear y); (clear_value y; rename' y => w)])
    | (extract_lets +onlyGivenNames y; clear_value y; rename' y => w)
    | (extract_lets +onlyGivenNames y; rename' y => w)
    | with_reducible apply State.fireTimer_keeps
    | split
    | dsimp -zeta only

theorem execRtDisarm_keeps {A : Nat} {z : State} {agent : Agent} {timer : Fin 8} {s : State} (hA : 0x4800000001 &&& A = 0x4800000001) (hk : Keeps A z s) :
    KeepsOut A z (execRtDisarm agent timer s) := by
  unfold execRtDisarm
  repeat' first
    | with_reducible assumption
    | with_reducible apply KeepsOut.fault
    | with_reducible apply KeepsOut.next
    | (extract_lets +onlyGivenNames y; refine KeepsOut.cut (y := y) ?_ (fun hy => ?_) <;> [(unfold y; clear y); (clear_value y; rename' y => w)])
    | ((with_reducible refine Part.sub hA ?_); rfl)
    | (extract_lets +onlyGivenNames y; refine Keeps.cut (y := y) ?_ (fun hy => ?_) <;> [(unfold y; clear y); (clear_value y; rename' y => w)])
    | (extract_lets +onlyGivenNames y; clear_value y; rename' y => w)
    | (extract_lets +onlyGivenNames y; rename' y => w)
    | with_reducible apply State.modTimer_keeps
    | with_reducible apply State.hubDenied_keeps
    | split
    | dsimp -zeta only

theorem State.cancelTimers_keeps {A : Nat} {z : State} {s : State} (hA : 0x4800000001 &&& A = 0x4800000001) (hk : Keeps A z s) :
    Keeps A z (State.cancelTimers s) := by
  unfold State.cancelTimers
  repeat' first
    | with_reducible assumption
    | ((with_reducible refine Part.sub hA ?_); rfl)
    | (extract_lets +onlyGivenNames y; refine Keeps.cut (y := y) ?_ (fun hy => ?_) <;> [(unfold y; clear y); (clear_value y; rename' y => w)])
    | (extract_lets +onlyGivenNames y; clear_value y; rename' y => w)
    | (extract_lets +onlyGivenNames y; rename' y => w)
    | with_reducible apply State.modTimer_keeps
    | with_reducible apply State.irqCount_keeps
    | (with_reducible apply Keeps.foldl; intro y b hy)
    | (with_reducible apply Keeps.foldl_fst; intro y b hy)
    | split
    | dsimp -zeta only

theorem State.installInterruptPlan_keeps {A : Nat} {z : State} {s : State} {p : List Byte} (hA : 0x800000000 &&& A = 0x800000000) (hk : Keeps A z s) :
    Keeps A z (State.installInterruptPlan s p) := by
  unfold State.installInterruptPlan
  repeat' first
    | with_reducible assumption
    | ((with_reducible refine Part.sub hA ?_); rfl)
    | (extract_lets +onlyGivenNames y; refine Keeps.cut (y := y) ?_ (fun hy => ?_) <;> [(unfold y; clear y); (clear_value y; rename' y => w)])
    | (extract_lets +onlyGivenNames y; clear_value y; rename' y => w)
    | (extract_lets +onlyGivenNames y; rename' y => w)
    | with_reducible apply State.modSource_keeps
    | with_reducible apply State.arbitrate_keeps
    | (with_reducible apply Keeps.foldl; intro y b hy)
    | (with_reducible apply Keeps.foldl_fst; intro y b hy)
    | split
    | (with_reducible refine Keeps.change ?_ rfl rfl rfl rfl rfl rfl rfl rfl id ?_)
    | (intro p hp; cases p <;> first | exact Part.inside hA hp rfl | rfl)
    | dsimp -zeta only

end Sys2Proof.Machine
end

