-- ==== Sys2Proof/Laws/KeepTime.lean ====
section
/-!
SUPPORT. Keeps for the operations of Machine/Time.lean.
-/

namespace Sys2Proof.Machine

theorem State.lockLost_keeps {A : Nat} {z : State} {s : State} (hA : 0x4c3da0c865 &&& A = 0x4c3da0c865) (hk : Keeps A z s) :
    Keeps A z (State.lockLost s) := by
  unfold State.lockLost
  repeat' first
    | with_reducible assumption
    | ((with_reducible refine Part.sub hA ?_); rfl)
    | (extract_lets +onlyGivenNames y; refine Keeps.cut (y := y) ?_ (fun hy => ?_) <;> [(unfold y; clear y); (clear_value y; rename' y => w)])
    | (extract_lets +onlyGivenNames y; clear_value y; rename' y => w)
    | (extract_lets +onlyGivenNames y; rename' y => w)
    | with_reducible apply State.logOut_keeps
    | with_reducible apply State.goHarmless_keeps
    | (with_reducible apply Keeps.foldl; intro y b hy)
    | (with_reducible apply Keeps.foldl_fst; intro y b hy)
    | split
    | dsimp -zeta only

theorem State.holdFrequency_keeps {A : Nat} {z : State} {s : State} (hA : 0x100 &&& A = 0x100) (hk : Keeps A z s) :
    Keeps A z (State.holdFrequency s) := by
  unfold State.holdFrequency
  repeat' first
    | with_reducible assumption
    | ((with_reducible refine Part.sub hA ?_); rfl)
    | (extract_lets +onlyGivenNames y; refine Keeps.cut (y := y) ?_ (fun hy => ?_) <;> [(unfold y; clear y); (clear_value y; rename' y => w)])
    | (extract_lets +onlyGivenNames y; clear_value y; rename' y => w)
    | (extract_lets +onlyGivenNames y; rename' y => w)
    | with_reducible apply State.modServo_keeps
    | split
    | dsimp -zeta only

theorem State.servoTo_keeps {A : Nat} {z : State} {s : State} {new : ServoState} (hA : 0xcc3da0c965 &&& A = 0xcc3da0c965) (hk : Keeps A z s) :
    Keeps A z (State.servoTo s new) := by
  unfold State.servoTo
  repeat' first
    | with_reducible assumption
    | ((with_reducible refine Part.sub hA ?_); rfl)
    | (extract_lets +onlyGivenNames y; refine Keeps.cut (y := y) ?_ (fun hy => ?_) <;> [(unfold y; clear y); (clear_value y; rename' y => w)])
    | (extract_lets +onlyGivenNames y; clear_value y; rename' y => w)
    | (extract_lets +onlyGivenNames y; rename' y => w)
    | with_reducible apply State.modServo_keeps
    | with_reducible apply State.modStartup_keeps
    | (with_reducible intro c hc; first | exact hc | (dsimp only; omega))
    | with_reducible apply State.log_keeps
    | with_reducible apply State.event_keeps
    | with_reducible apply State.clearCauseAll_keeps
    | with_reducible apply State.lockLost_keeps
    | with_reducible apply State.holdFrequency_keeps
    | split
    | dsimp -zeta only

theorem State.toHoldover_keeps {A : Nat} {z : State} {s : State} (hA : 0xcc3da0c965 &&& A = 0xcc3da0c965) (hk : Keeps A z s) :
    Keeps A z (State.toHoldover s) := by
  unfold State.toHoldover
  repeat' first
    | with_reducible assumption
    | ((with_reducible refine Part.sub hA ?_); rfl)
    | (extract_lets +onlyGivenNames y; refine Keeps.cut (y := y) ?_ (fun hy => ?_) <;> [(unfold y; clear y); (clear_value y; rename' y => w)])
    | (extract_lets +onlyGivenNames y; clear_value y; rename' y => w)
    | (extract_lets +onlyGivenNames y; rename' y => w)
    | with_reducible apply State.modServo_keeps
    | with_reducible apply State.log_keeps
    | with_reducible apply State.servoTo_keeps
    | split
    | dsimp -zeta only

theorem State.pathStep_keeps {A : Nat} {z : State} {s : State} {i : Nat} {mpd newOffset : Int} (hA : 0xcc3da0cb65 &&& A = 0xcc3da0cb65) (hk : Keeps A z s) :
    Keeps A z (State.pathStep s i mpd newOffset) := by
  unfold State.pathStep
  repeat' first
    | with_reducible assumption
    | ((with_reducible refine Part.sub hA ?_); rfl)
    | (extract_lets +onlyGivenNames y; refine Keeps.cut (y := y) ?_ (fun hy => ?_) <;> [(unfold y; clear y); (clear_value y; rename' y => w)])
    | (extract_lets +onlyGivenNames y; clear_value y; rename' y => w)
    | (extract_lets +onlyGivenNames y; rename' y => w)
    | with_reducible apply State.mapPtp_keeps
    | with_reducible apply State.modServo_keeps
    | with_reducible apply State.log_keeps
    | with_reducible apply State.event_keeps
    | with_reducible apply State.servoTo_keeps
    | split
    | dsimp -zeta only

theorem State.leaveQuarantine_keeps {A : Nat} {z : State} {s : State} {withNew : Bool} (hA : 0xcc3da0c965 &&& A = 0xcc3da0c965) (hk : Keeps A z s) :
    Keeps A z (State.leaveQuarantine s withNew) := by
  unfold State.leaveQuarantine
  repeat' first
    | with_reducible assumption
    | ((with_reducible refine Part.sub hA ?_); rfl)
    | (extract_lets +onlyGivenNames y; refine Keeps.cut (y := y) ?_ (fun hy => ?_) <;> [(unfold y; clear y); (clear_value y; rename' y => w)])
    | (extract_lets +onlyGivenNames y; clear_value y; rename' y => w)
    | (extract_lets +onlyGivenNames y; rename' y => w)
    | with_reducible apply State.modServo_keeps
    | with_reducible apply State.servoTo_keeps
    | split
    | dsimp -zeta only

theorem State.slewIn_keeps {A : Nat} {z : State} {s : State} {x : Source} (hA : 0x100 &&& A = 0x100) (hk : Keeps A z s) :
    Keeps A z (State.slewIn s x) := by
  unfold State.slewIn
  repeat' first
    | with_reducible assumption
    | ((with_reducible refine Part.sub hA ?_); rfl)
    | (extract_lets +onlyGivenNames y; refine Keeps.cut (y := y) ?_ (fun hy => ?_) <;> [(unfold y; clear y); (clear_value y; rename' y => w)])
    | (extract_lets +onlyGivenNames y; clear_value y; rename' y => w)
    | (extract_lets +onlyGivenNames y; rename' y => w)
    | with_reducible apply State.modServo_keeps
    | split
    | dsimp -zeta only

theorem State.takeSource_keeps {A : Nat} {z : State} {s : State} {new : Option Source} (hA : 0xcc3da0cb65 &&& A = 0xcc3da0cb65) (hk : Keeps A z s) :
    Keeps A z (State.takeSource s new) := by
  unfold State.takeSource
  repeat' first
    | with_reducible assumption
    | ((with_reducible refine Part.sub hA ?_); rfl)
    | (extract_lets +onlyGivenNames y; refine Keeps.cut (y := y) ?_ (fun hy => ?_) <;> [(unfold y; clear y); (clear_value y; rename' y => w)])
    | (extract_lets +onlyGivenNames y; clear_value y; rename' y => w)
    | (extract_lets +onlyGivenNames y; rename' y => w)
    | with_reducible apply State.modServo_keeps
    | with_reducible apply State.log_keeps
    | with_reducible apply State.event_keeps
    | with_reducible apply State.servoTo_keeps
    | with_reducible apply State.toHoldover_keeps
    | with_reducible apply State.pathStep_keeps
    | with_reducible apply State.slewIn_keeps
    | split
    | dsimp -zeta only

theorem State.reselect_keeps {A : Nat} {z : State} {s : State} (hA : 0xcc3da0cb65 &&& A = 0xcc3da0cb65) (hk : Keeps A z s) :
    Keeps A z (State.reselect s) := by
  unfold State.reselect
  repeat' first
    | with_reducible assumption
    | ((with_reducible refine Part.sub hA ?_); rfl)
    | (extract_lets +onlyGivenNames y; refine Keeps.cut (y := y) ?_ (fun hy => ?_) <;> [(unfold y; clear y); (clear_value y; rename' y => w)])
    | (extract_lets +onlyGivenNames y; clear_value y; rename' y => w)
    | (extract_lets +onlyGivenNames y; rename' y => w)
    | with_reducible apply State.takeSource_keeps
    | split
    | dsimp -zeta only

theorem State.ptpPortDown_keeps {A : Nat} {z : State} {s : State} {port : Nat} (hA : 0xcc3da0cb65 &&& A = 0xcc3da0cb65) (hk : Keeps A z s) :
    Keeps A z (State.ptpPortDown s port) := by
  unfold State.ptpPortDown
  repeat' first
    | with_reducible assumption
    | ((with_reducible refine Part.sub hA ?_); rfl)
    | (extract_lets +onlyGivenNames y; refine Keeps.cut (y := y) ?_ (fun hy => ?_) <;> [(unfold y; clear y); (clear_value y; rename' y => w)])
    | (extract_lets +onlyGivenNames y; clear_value y; rename' y => w)
    | (extract_lets +onlyGivenNames y; rename' y => w)
    | with_reducible apply State.setInst_keeps
    | with_reducible apply State.reselect_keeps
    | (with_reducible apply Keeps.foldl; intro y b hy)
    | (with_reducible apply Keeps.foldl_fst; intro y b hy)
    | split
    | dsimp -zeta only

theorem State.issueStart_keeps {A : Nat} {z : State} {s : State} (hA : 0x2000 &&& A = 0x2000) (hk : Keeps A z s) :
    Keeps A z (State.issueStart s) := by
  unfold State.issueStart
  repeat' first
    | with_reducible assumption
    | ((with_reducible refine Part.sub hA ?_); rfl)
    | (extract_lets +onlyGivenNames y; refine Keeps.cut (y := y) ?_ (fun hy => ?_) <;> [(unfold y; clear y); (clear_value y; rename' y => w)])
    | (extract_lets +onlyGivenNames y; clear_value y; rename' y => w)
    | (extract_lets +onlyGivenNames y; rename' y => w)
    | with_reducible apply State.modCommits_keeps
    | split
    | dsimp -zeta only

theorem State.seed_keeps {A : Nat} {z : State} {s : State} (hA : 0xcc00002085 &&& A = 0xcc00002085) (hk : Keeps A z s) :
    Keeps A z (State.seed s) := by
  unfold State.seed
  repeat' first
    | with_reducible assumption
    | ((with_reducible refine Part.sub hA ?_); rfl)
    | (extract_lets +onlyGivenNames y; refine Keeps.cut (y := y) ?_ (fun hy => ?_) <;> [(unfold y; clear y); (clear_value y; rename' y => w)])
    | (extract_lets +onlyGivenNames y; clear_value y; rename' y => w)
    | (extract_lets +onlyGivenNames y; rename' y => w)
    | with_reducible apply State.modClock_keeps
    | (with_reducible intro _; rfl)
    | with_reducible apply State.modStartup_keeps
    | (with_reducible intro c hc; first | exact hc | (dsimp only; omega))
    | with_reducible apply State.log_keeps
    | with_reducible apply State.event_keeps
    | with_reducible apply State.sealWheel_keeps
    | with_reducible apply State.cancelTimers_keeps
    | with_reducible apply State.issueStart_keeps
    | split
    | dsimp -zeta only

theorem State.judgeFar_keeps {A : Nat} {z : State} {s : State} (hA : 0x4800000105 &&& A = 0x4800000105) (hk : Keeps A z s) :
    Keeps A z (State.judgeFar s) := by
  unfold State.judgeFar
  repeat' first
    | with_reducible assumption
    | ((with_reducible refine Part.sub hA ?_); rfl)
    | (extract_lets +onlyGivenNames y; refine Keeps.cut (y := y) ?_ (fun hy => ?_) <;> [(unfold y; clear y); (clear_value y; rename' y => w)])
    | (extract_lets +onlyGivenNames y; clear_value y; rename' y => w)
    | (extract_lets +onlyGivenNames y; rename' y => w)
    | with_reducible apply State.modServo_keeps
    | with_reducible apply State.log_keeps
    | with_reducible apply State.event_keeps
    | split
    | dsimp -zeta only

theorem State.acceptSample_keeps {A : Nat} {z : State} {s : State} {x : PathSample} (hA : 0x4800000105 &&& A = 0x4800000105) (hk : Keeps A z s) :
    Keeps A z (State.acceptSample s x) := by
  unfold State.acceptSample
  repeat' first
    | with_reducible assumption
    | ((with_reducible refine Part.sub hA ?_); rfl)
    | (extract_lets +onlyGivenNames y; refine Keeps.cut (y := y) ?_ (fun hy => ?_) <;> [(unfold y; clear y); (clear_value y; rename' y => w)])
    | (extract_lets +onlyGivenNames y; clear_value y; rename' y => w)
    | (extract_lets +onlyGivenNames y; rename' y => w)
    | with_reducible apply State.modServo_keeps
    | with_reducible apply State.judgeFar_keeps
    | split
    | dsimp -zeta only

theorem State.followRefIn_keeps {A : Nat} {z : State} {s : State} (hA : 0x100 &&& A = 0x100) (hk : Keeps A z s) :
    Keeps A z (State.followRefIn s) := by
  unfold State.followRefIn
  repeat' first
    | with_reducible assumption
    | ((with_reducible refine Part.sub hA ?_); rfl)
    | (extract_lets +onlyGivenNames y; refine Keeps.cut (y := y) ?_ (fun hy => ?_) <;> [(unfold y; clear y); (clear_value y; rename' y => w)])
    | (extract_lets +onlyGivenNames y; clear_value y; rename' y => w)
    | (extract_lets +onlyGivenNames y; rename' y => w)
    | with_reducible apply State.modServo_keeps
    | split
    | dsimp -zeta only

theorem State.stepTimebase_keeps {A : Nat} {z : State} {s : State} {offset : Int} (hA : 0x280 &&& A = 0x280) (hk : Keeps A z s) :
    Keeps A z (State.stepTimebase s offset) := by
  unfold State.stepTimebase
  repeat' first
    | with_reducible assumption
    | ((with_reducible refine Part.sub hA ?_); rfl)
    | (extract_lets +onlyGivenNames y; refine Keeps.cut (y := y) ?_ (fun hy => ?_) <;> [(unfold y; clear y); (clear_value y; rename' y => w)])
    | (extract_lets +onlyGivenNames y; clear_value y; rename' y => w)
    | (extract_lets +onlyGivenNames y; rename' y => w)
    | with_reducible apply State.mapPtp_keeps
    | with_reducible apply State.modClock_keeps
    | (with_reducible intro _; rfl)
    | split
    | dsimp -zeta only

theorem State.acquireSample_keeps {A : Nat} {z : State} {s : State} {x : PathSample} (hA : 0xcc3da0ebe5 &&& A = 0xcc3da0ebe5) (hk : Keeps A z s) :
    Keeps A z (State.acquireSample s x) := by
  unfold State.acquireSample
  repeat' first
    | with_reducible assumption
    | ((with_reducible refine Part.sub hA ?_); rfl)
    | (extract_lets +onlyGivenNames y; refine Keeps.cut (y := y) ?_ (fun hy => ?_) <;> [(unfold y; clear y); (clear_value y; rename' y => w)])
    | (extract_lets +onlyGivenNames y; clear_value y; rename' y => w)
    | (extract_lets +onlyGivenNames y; rename' y => w)
    | with_reducible apply State.modServo_keeps
    | with_reducible apply State.servoTo_keeps
    | with_reducible apply State.seed_keeps
    | with_reducible apply State.stepTimebase_keeps
    | split
    | dsimp -zeta only

theorem State.lockedSample_keeps {A : Nat} {z : State} {s : State} {i : Nat} {x : PathSample} (hA : 0xcc3da0cb65 &&& A = 0xcc3da0cb65) (hk : Keeps A z s) :
    Keeps A z (State.lockedSample s i x) := by
  unfold State.lockedSample
  repeat' first
    | with_reducible assumption
    | ((with_reducible refine Part.sub hA ?_); rfl)
    | (extract_lets +onlyGivenNames y; refine Keeps.cut (y := y) ?_ (fun hy => ?_) <;> [(unfold y; clear y); (clear_value y; rename' y => w)])
    | (extract_lets +onlyGivenNames y; clear_value y; rename' y => w)
    | (extract_lets +onlyGivenNames y; rename' y => w)
    | with_reducible apply State.count_keeps
    | with_reducible apply State.modServo_keeps
    | with_reducible apply State.pathStep_keeps
    | with_reducible apply State.acceptSample_keeps
    | split
    | dsimp -zeta only

theorem State.quarantineSample_keeps {A : Nat} {z : State} {s : State} {i : Nat} {x : PathSample} (hA : 0xcc3da0cb65 &&& A = 0xcc3da0cb65) (hk : Keeps A z s) :
    Keeps A z (State.quarantineSample s i x) := by
  unfold State.quarantineSample
  repeat' first
    | with_reducible assumption
    | ((with_reducible refine Part.sub hA ?_); rfl)
    | (extract_lets +onlyGivenNames y; refine Keeps.cut (y := y) ?_ (fun hy => ?_) <;> [(unfold y; clear y); (clear_value y; rename' y => w)])
    | (extract_lets +onlyGivenNames y; clear_value y; rename' y => w)
    | (extract_lets +onlyGivenNames y; rename' y => w)
    | with_reducible apply State.count_keeps
    | with_reducible apply State.modServo_keeps
    | with_reducible apply State.pathStep_keeps
    | with_reducible apply State.leaveQuarantine_keeps
    | split
    | dsimp -zeta only

theorem State.otherSample_keeps {A : Nat} {z : State} {s : State} {i : Nat} {x : PathSample} (hA : 0xcc3da0cb65 &&& A = 0xcc3da0cb65) (hk : Keeps A z s) :
    Keeps A z (State.otherSample s i x) := by
  unfold State.otherSample
  repeat' first
    | with_reducible assumption
    | ((with_reducible refine Part.sub hA ?_); rfl)
    | (extract_lets +onlyGivenNames y; refine Keeps.cut (y := y) ?_ (fun hy => ?_) <;> [(unfold y; clear y); (clear_value y; rename' y => w)])
    | (extract_lets +onlyGivenNames y; clear_value y; rename' y => w)
    | (extract_lets +onlyGivenNames y; rename' y => w)
    | with_reducible apply State.modInst_keeps
    | with_reducible apply State.modServo_keeps
    | with_reducible apply State.leaveQuarantine_keeps
    | split
    | dsimp -zeta only

theorem State.sample_keeps {A : Nat} {z : State} {s : State} {i : Nat} {x : PathSample} (hA : 0xcc3da0ebe5 &&& A = 0xcc3da0ebe5) (hk : Keeps A z s) :
    Keeps A z (State.sample s i x) := by
  unfold State.sample
  repeat' first
    | with_reducible assumption
    | ((with_reducible refine Part.sub hA ?_); rfl)
    | (extract_lets +onlyGivenNames y; refine Keeps.cut (y := y) ?_ (fun hy => ?_) <;> [(unfold y; clear y); (clear_value y; rename' y => w)])
    | (extract_lets +onlyGivenNames y; clear_value y; rename' y => w)
    | (extract_lets +onlyGivenNames y; rename' y => w)
    | with_reducible apply State.modInst_keeps
    | with_reducible apply State.modServo_keeps
    | with_reducible apply State.reselect_keeps
    | with_reducible apply State.acquireSample_keeps
    | with_reducible apply State.lockedSample_keeps
    | with_reducible apply State.quarantineSample_keeps
    | with_reducible apply State.otherSample_keeps
    | split
    | dsimp -zeta only

theorem State.onAnnounce_keeps {A : Nat} {z : State} {s : State} {i source : Nat} {m : PtpMsg} (hA : 0xcc3da0cb65 &&& A = 0xcc3da0cb65) (hk : Keeps A z s) :
    Keeps A z (State.onAnnounce s i source m) := by
  unfold State.onAnnounce
  repeat' first
    | with_reducible assumption
    | ((with_reducible refine Part.sub hA ?_); rfl)
    | (extract_lets +onlyGivenNames y; refine Keeps.cut (y := y) ?_ (fun hy => ?_) <;> [(unfold y; clear y); (clear_value y; rename' y => w)])
    | (extract_lets +onlyGivenNames y; clear_value y; rename' y => w)
    | (extract_lets +onlyGivenNames y; rename' y => w)
    | with_reducible apply State.modInst_keeps
    | with_reducible apply State.reselect_keeps
    | split
    | dsimp -zeta only

theorem State.onSync_keeps {A : Nat} {z : State} {s : State} {i : Nat} {m : PtpMsg} (hA : 0xcc3da0cb65 &&& A = 0xcc3da0cb65) (hk : Keeps A z s) :
    Keeps A z (State.onSync s i m) := by
  unfold State.onSync
  repeat' first
    | with_reducible assumption
    | ((with_reducible refine Part.sub hA ?_); rfl)
    | (extract_lets +onlyGivenNames y; refine Keeps.cut (y := y) ?_ (fun hy => ?_) <;> [(unfold y; clear y); (clear_value y; rename' y => w)])
    | (extract_lets +onlyGivenNames y; clear_value y; rename' y => w)
    | (extract_lets +onlyGivenNames y; rename' y => w)
    | with_reducible apply State.count_keeps
    | with_reducible apply State.modInst_keeps
    | with_reducible apply State.reselect_keeps
    | split
    | dsimp -zeta only

theorem State.onFollowUp_keeps {A : Nat} {z : State} {s : State} {i : Nat} {m : PtpMsg} (hA : 0x200 &&& A = 0x200) (hk : Keeps A z s) :
    Keeps A z (State.onFollowUp s i m) := by
  unfold State.onFollowUp
  repeat' first
    | with_reducible assumption
    | ((with_reducible refine Part.sub hA ?_); rfl)
    | (extract_lets +onlyGivenNames y; refine Keeps.cut (y := y) ?_ (fun hy => ?_) <;> [(unfold y; clear y); (clear_value y; rename' y => w)])
    | (extract_lets +onlyGivenNames y; clear_value y; rename' y => w)
    | (extract_lets +onlyGivenNames y; rename' y => w)
    | with_reducible apply State.modInst_keeps
    | split
    | dsimp -zeta only

theorem State.onDelayResp_keeps {A : Nat} {z : State} {s : State} {i : Nat} {m : PtpMsg} (hA : 0xcc3da0ebe5 &&& A = 0xcc3da0ebe5) (hk : Keeps A z s) :
    Keeps A z (State.onDelayResp s i m) := by
  unfold State.onDelayResp
  repeat' first
    | with_reducible assumption
    | ((with_reducible refine Part.sub hA ?_); rfl)
    | (extract_lets +onlyGivenNames y; refine Keeps.cut (y := y) ?_ (fun hy => ?_) <;> [(unfold y; clear y); (clear_value y; rename' y => w)])
    | (extract_lets +onlyGivenNames y; clear_value y; rename' y => w)
    | (extract_lets +onlyGivenNames y; rename' y => w)
    | with_reducible apply State.modInst_keeps
    | with_reducible apply State.sample_keeps
    | split
    | dsimp -zeta only

theorem State.ptpSend_keeps {A : Nat} {z : State} {s : State} {i : Nat} {peer : Option Nat} {log : Nat} {m : PtpMsg} (hA : 0x40021 &&& A = 0x40021) (hk : Keeps A z s) :
    Keeps A z (State.ptpSend s i peer log m) := by
  unfold State.ptpSend
  repeat' first
    | with_reducible assumption
    | ((with_reducible refine Part.sub hA ?_); rfl)
    | (extract_lets +onlyGivenNames y; refine Keeps.cut (y := y) ?_ (fun hy => ?_) <;> [(unfold y; clear y); (clear_value y; rename' y => w)])
    | (extract_lets +onlyGivenNames y; clear_value y; rename' y => w)
    | (extract_lets +onlyGivenNames y; rename' y => w)
    | with_reducible apply State.sendOther_keeps
    | split
    | dsimp -zeta only

theorem State.onDelayReq_keeps {A : Nat} {z : State} {s : State} {i source : Nat} {m : PtpMsg} (hA : 0x40021 &&& A = 0x40021) (hk : Keeps A z s) :
    Keeps A z (State.onDelayReq s i source m) := by
  unfold State.onDelayReq
  repeat' first
    | with_reducible assumption
    | ((with_reducible refine Part.sub hA ?_); rfl)
    | (extract_lets +onlyGivenNames y; refine Keeps.cut (y := y) ?_ (fun hy => ?_) <;> [(unfold y; clear y); (clear_value y; rename' y => w)])
    | (extract_lets +onlyGivenNames y; clear_value y; rename' y => w)
    | (extract_lets +onlyGivenNames y; rename' y => w)
    | with_reducible apply State.ptpSend_keeps
    | split
    | dsimp -zeta only

theorem State.ptpMessage_keeps {A : Nat} {z : State} {s : State} {i source : Nat} {msg : PtpMsg} (hA : 0xcc3da4ebe5 &&& A = 0xcc3da4ebe5) (hk : Keeps A z s) :
    Keeps A z (State.ptpMessage s i source msg) := by
  unfold State.ptpMessage
  repeat' first
    | with_reducible assumption
    | ((with_reducible refine Part.sub hA ?_); rfl)
    | (extract_lets +onlyGivenNames y; refine Keeps.cut (y := y) ?_ (fun hy => ?_) <;> [(unfold y; clear y); (clear_value y; rename' y => w)])
    | (extract_lets +onlyGivenNames y; clear_value y; rename' y => w)
    | (extract_lets +onlyGivenNames y; rename' y => w)
    | with_reducible apply State.count_keeps
    | with_reducible apply State.modInst_keeps
    | with_reducible apply State.logRated_keeps
    | with_reducible apply State.onAnnounce_keeps
    | with_reducible apply State.onSync_keeps
    | with_reducible apply State.onFollowUp_keeps
    | with_reducible apply State.onDelayResp_keeps
    | with_reducible apply State.onDelayReq_keeps
    | split
    | dsimp -zeta only

theorem execDelayReqTx_keeps {A : Nat} {z : State} {inst : Fin 6} {s : State} (hA : 0x40221 &&& A = 0x40221) (hk : Keeps A z s) :
    KeepsOut A z (execDelayReqTx inst s) := by
  unfold execDelayReqTx
  repeat' first
    | with_reducible assumption
    | with_reducible apply KeepsOut.fault
    | with_reducible apply KeepsOut.next
    | (extract_lets +onlyGivenNames y; refine KeepsOut.cut (y := y) ?_ (fun hy => ?_) <;> [(unfold y; clear y); (clear_value y; rename' y => w)])
    | ((with_reducible refine Part.sub hA ?_); rfl)
    | (extract_lets +onlyGivenNames y; refine Keeps.cut (y := y) ?_ (fun hy => ?_) <;> [(unfold y; clear y); (clear_value y; rename' y => w)])
    | (extract_lets +onlyGivenNames y; clear_value y; rename' y => w)
    | (extract_lets +onlyGivenNames y; rename' y => w)
    | with_reducible apply State.modInst_keeps
    | with_reducible apply State.ptpSend_keeps
    | split
    | dsimp -zeta only

theorem execSyncTimeout_keeps {A : Nat} {z : State} {inst : Fin 6} {s : State} (hA : 0xcc3da0cb65 &&& A = 0xcc3da0cb65) (hk : Keeps A z s) :
    KeepsOut A z (execSyncTimeout inst s) := by
  unfold execSyncTimeout
  repeat' first
    | with_reducible assumption
    | with_reducible apply KeepsOut.fault
    | with_reducible apply KeepsOut.next
    | (extract_lets +onlyGivenNames y; refine KeepsOut.cut (y := y) ?_ (fun hy => ?_) <;> [(unfold y; clear y); (clear_value y; rename' y => w)])
    | ((with_reducible refine Part.sub hA ?_); rfl)
    | (extract_lets +onlyGivenNames y; refine Keeps.cut (y := y) ?_ (fun hy => ?_) <;> [(unfold y; clear y); (clear_value y; rename' y => w)])
    | (extract_lets +onlyGivenNames y; clear_value y; rename' y => w)
    | (extract_lets +onlyGivenNames y; rename' y => w)
    | with_reducible apply State.modInst_keeps
    | with_reducible apply State.reselect_keeps
    | split
    | dsimp -zeta only

theorem execAnnounceTimeout_keeps {A : Nat} {z : State} {inst : Fin 6} {s : State} (hA : 0xcc3da0cb65 &&& A = 0xcc3da0cb65) (hk : Keeps A z s) :
    KeepsOut A z (execAnnounceTimeout inst s) := by
  unfold execAnnounceTimeout
  repeat' first
    | with_reducible assumption
    | with_reducible apply KeepsOut.fault
    | with_reducible apply KeepsOut.next
    | (extract_lets +onlyGivenNames y; refine KeepsOut.cut (y := y) ?_ (fun hy => ?_) <;> [(unfold y; clear y); (clear_value y; rename' y => w)])
    | ((with_reducible refine Part.sub hA ?_); rfl)
    | (extract_lets +onlyGivenNames y; refine Keeps.cut (y := y) ?_ (fun hy => ?_) <;> [(unfold y; clear y); (clear_value y; rename' y => w)])
    | (extract_lets +onlyGivenNames y; clear_value y; rename' y => w)
    | (extract_lets +onlyGivenNames y; rename' y => w)
    | with_reducible apply State.modInst_keeps
    | with_reducible apply State.reselect_keeps
    | split
    | dsimp -zeta only

theorem execQuarantineExpire_keeps {A : Nat} {z : State} {s : State} (hA : 0xcc3da0cb65 &&& A = 0xcc3da0cb65) (hk : Keeps A z s) :
    KeepsOut A z (execQuarantineExpire s) := by
  unfold execQuarantineExpire
  repeat' first
    | with_reducible assumption
    | with_reducible apply KeepsOut.fault
    | with_reducible apply KeepsOut.next
    | (extract_lets +onlyGivenNames y; refine KeepsOut.cut (y := y) ?_ (fun hy => ?_) <;> [(unfold y; clear y); (clear_value y; rename' y => w)])
    | ((with_reducible refine Part.sub hA ?_); rfl)
    | (extract_lets +onlyGivenNames y; refine Keeps.cut (y := y) ?_ (fun hy => ?_) <;> [(unfold y; clear y); (clear_value y; rename' y => w)])
    | (extract_lets +onlyGivenNames y; clear_value y; rename' y => w)
    | (extract_lets +onlyGivenNames y; rename' y => w)
    | with_reducible apply State.mapPtp_keeps
    | with_reducible apply State.modServo_keeps
    | with_reducible apply State.log_keeps
    | with_reducible apply State.event_keeps
    | with_reducible apply State.toHoldover_keeps
    | with_reducible apply State.leaveQuarantine_keeps
    | split
    | dsimp -zeta only

theorem execHoldLimitReached_keeps {A : Nat} {z : State} {s : State} (hA : 0x4800000105 &&& A = 0x4800000105) (hk : Keeps A z s) :
    KeepsOut A z (execHoldLimitReached s) := by
  unfold execHoldLimitReached
  repeat' first
    | with_reducible assumption
    | with_reducible apply KeepsOut.fault
    | with_reducible apply KeepsOut.next
    | (extract_lets +onlyGivenNames y; refine KeepsOut.cut (y := y) ?_ (fun hy => ?_) <;> [(unfold y; clear y); (clear_value y; rename' y => w)])
    | ((with_reducible refine Part.sub hA ?_); rfl)
    | (extract_lets +onlyGivenNames y; refine Keeps.cut (y := y) ?_ (fun hy => ?_) <;> [(unfold y; clear y); (clear_value y; rename' y => w)])
    | (extract_lets +onlyGivenNames y; clear_value y; rename' y => w)
    | (extract_lets +onlyGivenNames y; rename' y => w)
    | with_reducible apply State.modServo_keeps
    | with_reducible apply State.log_keeps
    | with_reducible apply State.event_keeps
    | split
    | dsimp -zeta only

theorem execLeadingSyncTx_keeps {A : Nat} {z : State} {inst : Fin 6} {s : State} (hA : 0x40221 &&& A = 0x40221) (hk : Keeps A z s) :
    KeepsOut A z (execLeadingSyncTx inst s) := by
  unfold execLeadingSyncTx
  repeat' first
    | with_reducible assumption
    | with_reducible apply KeepsOut.fault
    | with_reducible apply KeepsOut.next
    | (extract_lets +onlyGivenNames y; refine KeepsOut.cut (y := y) ?_ (fun hy => ?_) <;> [(unfold y; clear y); (clear_value y; rename' y => w)])
    | ((with_reducible refine Part.sub hA ?_); rfl)
    | (extract_lets +onlyGivenNames y; refine Keeps.cut (y := y) ?_ (fun hy => ?_) <;> [(unfold y; clear y); (clear_value y; rename' y => w)])
    | (extract_lets +onlyGivenNames y; clear_value y; rename' y => w)
    | (extract_lets +onlyGivenNames y; rename' y => w)
    | with_reducible apply State.modInst_keeps
    | with_reducible apply State.ptpSend_keeps
    | split
    | dsimp -zeta only

theorem execLeadingAnnounceTx_keeps {A : Nat} {z : State} {inst : Fin 6} {s : State} (hA : 0x40221 &&& A = 0x40221) (hk : Keeps A z s) :
    KeepsOut A z (execLeadingAnnounceTx inst s) := by
  unfold execLeadingAnnounceTx
  repeat' first
    | with_reducible assumption
    | with_reducible apply KeepsOut.fault
    | with_reducible apply KeepsOut.next
    | (extract_lets +onlyGivenNames y; refine KeepsOut.cut (y := y) ?_ (fun hy => ?_) <;> [(unfold y; clear y); (clear_value y; rename' y => w)])
    | ((with_reducible refine Part.sub hA ?_); rfl)
    | (extract_lets +onlyGivenNames y; refine Keeps.cut (y := y) ?_ (fun hy => ?_) <;> [(unfold y; clear y); (clear_value y; rename' y => w)])
    | (extract_lets +onlyGivenNames y; clear_value y; rename' y => w)
    | (extract_lets +onlyGivenNames y; rename' y => w)
    | with_reducible apply State.modInst_keeps
    | with_reducible apply State.ptpSend_keeps
    | split
    | dsimp -zeta only

theorem execSuspectClr_keeps {A : Nat} {z : State} {agent : Agent} {s : State} (hA : 0x100 &&& A = 0x100) (hk : Keeps A z s) :
    KeepsOut A z (execSuspectClr agent s) := by
  unfold execSuspectClr
  repeat' first
    | with_reducible assumption
    | with_reducible apply KeepsOut.fault
    | with_reducible apply KeepsOut.next
    | (extract_lets +onlyGivenNames y; refine KeepsOut.cut (y := y) ?_ (fun hy => ?_) <;> [(unfold y; clear y); (clear_value y; rename' y => w)])
    | ((with_reducible refine Part.sub hA ?_); rfl)
    | (extract_lets +onlyGivenNames y; refine Keeps.cut (y := y) ?_ (fun hy => ?_) <;> [(unfold y; clear y); (clear_value y; rename' y => w)])
    | (extract_lets +onlyGivenNames y; clear_value y; rename' y => w)
    | (extract_lets +onlyGivenNames y; rename' y => w)
    | with_reducible apply State.modServo_keeps
    | split
    | dsimp -zeta only

theorem execForceHold_keeps {A : Nat} {z : State} {agent : Agent} {on : Bool} {s : State} (hA : 0xcc3da0cb65 &&& A = 0xcc3da0cb65) (hk : Keeps A z s) :
    KeepsOut A z (execForceHold agent on s) := by
  unfold execForceHold
  repeat' first
    | with_reducible assumption
    | with_reducible apply KeepsOut.fault
    | with_reducible apply KeepsOut.next
    | (extract_lets +onlyGivenNames y; refine KeepsOut.cut (y := y) ?_ (fun hy => ?_) <;> [(unfold y; clear y); (clear_value y; rename' y => w)])
    | ((with_reducible refine Part.sub hA ?_); rfl)
    | (extract_lets +onlyGivenNames y; refine Keeps.cut (y := y) ?_ (fun hy => ?_) <;> [(unfold y; clear y); (clear_value y; rename' y => w)])
    | (extract_lets +onlyGivenNames y; clear_value y; rename' y => w)
    | (extract_lets +onlyGivenNames y; rename' y => w)
    | with_reducible apply State.setReg_keeps
    | with_reducible apply State.reselect_keeps
    | split
    | dsimp -zeta only

theorem execRefInPpsEdge_keeps {A : Nat} {z : State} {s : State} (hA : 0x4800000505 &&& A = 0x4800000505) (hk : Keeps A z s) :
    KeepsOut A z (execRefInPpsEdge s) := by
  unfold execRefInPpsEdge
  repeat' first
    | with_reducible assumption
    | with_reducible apply KeepsOut.fault
    | with_reducible apply KeepsOut.next
    | (extract_lets +onlyGivenNames y; refine KeepsOut.cut (y := y) ?_ (fun hy => ?_) <;> [(unfold y; clear y); (clear_value y; rename' y => w)])
    | ((with_reducible refine Part.sub hA ?_); rfl)
    | (extract_lets +onlyGivenNames y; refine Keeps.cut (y := y) ?_ (fun hy => ?_) <;> [(unfold y; clear y); (clear_value y; rename' y => w)])
    | (extract_lets +onlyGivenNames y; clear_value y; rename' y => w)
    | (extract_lets +onlyGivenNames y; rename' y => w)
    | with_reducible apply State.modServo_keeps
    | with_reducible apply State.judgeFar_keeps
    | split
    | (with_reducible refine Keeps.change ?_ rfl rfl rfl rfl rfl rfl rfl rfl id ?_)
    | (intro p hp; cases p <;> first | exact Part.inside hA hp rfl | rfl)
    | dsimp -zeta only

theorem execStampLoRead_keeps {A : Nat} {z : State} {agent : Agent} {s : State} (hA : 0x12 &&& A = 0x12) (hk : Keeps A z s) :
    KeepsOut A z (execStampLoRead agent s) := by
  unfold execStampLoRead
  repeat' first
    | with_reducible assumption
    | with_reducible apply KeepsOut.fault
    | with_reducible apply KeepsOut.next
    | (extract_lets +onlyGivenNames y; refine KeepsOut.cut (y := y) ?_ (fun hy => ?_) <;> [(unfold y; clear y); (clear_value y; rename' y => w)])
    | ((with_reducible refine Part.sub hA ?_); rfl)
    | (extract_lets +onlyGivenNames y; refine Keeps.cut (y := y) ?_ (fun hy => ?_) <;> [(unfold y; clear y); (clear_value y; rename' y => w)])
    | (extract_lets +onlyGivenNames y; clear_value y; rename' y => w)
    | (extract_lets +onlyGivenNames y; rename' y => w)
    | with_reducible apply State.setLatch_keeps
    | with_reducible apply State.answer_keeps
    | split
    | dsimp -zeta only

theorem State.installPtpPorts_keeps {A : Nat} {z : State} {s : State} {p : List Byte} (hA : 0xcc3da0cb65 &&& A = 0xcc3da0cb65) (hk : Keeps A z s) :
    Keeps A z (State.installPtpPorts s p) := by
  unfold State.installPtpPorts
  repeat' first
    | with_reducible assumption
    | ((with_reducible refine Part.sub hA ?_); rfl)
    | (extract_lets +onlyGivenNames y; refine Keeps.cut (y := y) ?_ (fun hy => ?_) <;> [(unfold y; clear y); (clear_value y; rename' y => w)])
    | (extract_lets +onlyGivenNames y; clear_value y; rename' y => w)
    | (extract_lets +onlyGivenNames y; rename' y => w)
    | with_reducible apply State.setReg_keeps
    | with_reducible apply State.setInst_keeps
    | with_reducible apply State.reselect_keeps
    | (with_reducible apply Keeps.foldl; intro y b hy)
    | (with_reducible apply Keeps.foldl_fst; intro y b hy)
    | split
    | dsimp -zeta only

theorem State.installRefIn_keeps {A : Nat} {z : State} {s : State} {p : List Byte} (hA : 0xcc3da0cf65 &&& A = 0xcc3da0cf65) (hk : Keeps A z s) :
    Keeps A z (State.installRefIn s p) := by
  unfold State.installRefIn
  repeat' first
    | with_reducible assumption
    | ((with_reducible refine Part.sub hA ?_); rfl)
    | (extract_lets +onlyGivenNames y; refine Keeps.cut (y := y) ?_ (fun hy => ?_) <;> [(unfold y; clear y); (clear_value y; rename' y => w)])
    | (extract_lets +onlyGivenNames y; clear_value y; rename' y => w)
    | (extract_lets +onlyGivenNames y; rename' y => w)
    | with_reducible apply State.reselect_keeps
    | split
    | (with_reducible refine Keeps.change ?_ rfl rfl rfl rfl rfl rfl rfl rfl id ?_)
    | (intro p hp; cases p <;> first | exact Part.inside hA hp rfl | rfl)
    | dsimp -zeta only

end Sys2Proof.Machine
end

