-- ==== Sys2Proof/Laws/KeepLanes.lean ====
section
/-!
SUPPORT. Keeps for the operations of Machine/Lanes.lean.
-/

namespace Sys2Proof.Machine

theorem State.groupEvent_keeps {A : Nat} {z : State} {s : State} {p bits : Nat} (hA : 0x4800000005 &&& A = 0x4800000005) (hk : Keeps A z s) :
    Keeps A z (State.groupEvent s p bits) := by
  unfold State.groupEvent
  repeat' first
    | with_reducible assumption
    | ((with_reducible refine Part.sub hA ?_); rfl)
    | (extract_lets +onlyGivenNames y; refine Keeps.cut (y := y) ?_ (fun hy => ?_) <;> [(unfold y; clear y); (clear_value y; rename' y => w)])
    | (extract_lets +onlyGivenNames y; clear_value y; rename' y => w)
    | (extract_lets +onlyGivenNames y; rename' y => w)
    | with_reducible apply State.event_keeps
    | split
    | dsimp -zeta only

theorem State.portLog_keeps {A : Nat} {z : State} {s : State} {c : FaultClass} {p : Nat} {data : List Byte} (hA : 0x4000000000 &&& A = 0x4000000000) (hk : Keeps A z s) :
    Keeps A z (State.portLog s c p data) := by
  unfold State.portLog
  repeat' first
    | with_reducible assumption
    | ((with_reducible refine Part.sub hA ?_); rfl)
    | (extract_lets +onlyGivenNames y; refine Keeps.cut (y := y) ?_ (fun hy => ?_) <;> [(unfold y; clear y); (clear_value y; rename' y => w)])
    | (extract_lets +onlyGivenNames y; clear_value y; rename' y => w)
    | (extract_lets +onlyGivenNames y; rename' y => w)
    | with_reducible apply State.log_keeps
    | with_reducible apply State.logOut_keeps
    | split
    | dsimp -zeta only

theorem State.pairLinkMoved_keeps {A : Nat} {z : State} {s : State} {old : Option Nat} (hA : 0x4800000005 &&& A = 0x4800000005) (hk : Keeps A z s) :
    Keeps A z (State.pairLinkMoved s old) := by
  unfold State.pairLinkMoved
  repeat' first
    | with_reducible assumption
    | ((with_reducible refine Part.sub hA ?_); rfl)
    | (extract_lets +onlyGivenNames y; refine Keeps.cut (y := y) ?_ (fun hy => ?_) <;> [(unfold y; clear y); (clear_value y; rename' y => w)])
    | (extract_lets +onlyGivenNames y; clear_value y; rename' y => w)
    | (extract_lets +onlyGivenNames y; rename' y => w)
    | with_reducible apply State.groupEvent_keeps
    | with_reducible apply State.portLog_keeps
    | split
    | dsimp -zeta only

theorem State.startTry_keeps {A : Nat} {z : State} {s : State} {p preset : Nat} (hA : 0x60001 &&& A = 0x60001) (hk : Keeps A z s) :
    Keeps A z (State.startTry s p preset) := by
  unfold State.startTry
  repeat' first
    | with_reducible assumption
    | ((with_reducible refine Part.sub hA ?_); rfl)
    | (extract_lets +onlyGivenNames y; refine Keeps.cut (y := y) ?_ (fun hy => ?_) <;> [(unfold y; clear y); (clear_value y; rename' y => w)])
    | (extract_lets +onlyGivenNames y; clear_value y; rename' y => w)
    | (extract_lets +onlyGivenNames y; rename' y => w)
    | with_reducible apply State.count_keeps
    | with_reducible apply State.modLane_keeps
    | with_reducible apply State.modPort_keeps
    | (with_reducible apply Keeps.foldl; intro y b hy)
    | (with_reducible apply Keeps.foldl_fst; intro y b hy)
    | split
    | dsimp -zeta only

theorem State.startAttempt_keeps {A : Nat} {z : State} {s : State} {p : Nat} (hA : 0x60001 &&& A = 0x60001) (hk : Keeps A z s) :
    Keeps A z (State.startAttempt s p) := by
  unfold State.startAttempt
  repeat' first
    | with_reducible assumption
    | ((with_reducible refine Part.sub hA ?_); rfl)
    | (extract_lets +onlyGivenNames y; refine Keeps.cut (y := y) ?_ (fun hy => ?_) <;> [(unfold y; clear y); (clear_value y; rename' y => w)])
    | (extract_lets +onlyGivenNames y; clear_value y; rename' y => w)
    | (extract_lets +onlyGivenNames y; rename' y => w)
    | with_reducible apply State.modLane_keeps
    | with_reducible apply State.modPort_keeps
    | with_reducible apply State.startTry_keeps
    | (with_reducible apply Keeps.foldl; intro y b hy)
    | (with_reducible apply Keeps.foldl_fst; intro y b hy)
    | split
    | dsimp -zeta only

theorem State.tryAttempt_keeps {A : Nat} {z : State} {s : State} {p : Nat} (hA : 0x60001 &&& A = 0x60001) (hk : Keeps A z s) :
    Keeps A z (State.tryAttempt s p) := by
  unfold State.tryAttempt
  repeat' first
    | with_reducible assumption
    | ((with_reducible refine Part.sub hA ?_); rfl)
    | (extract_lets +onlyGivenNames y; refine Keeps.cut (y := y) ?_ (fun hy => ?_) <;> [(unfold y; clear y); (clear_value y; rename' y => w)])
    | (extract_lets +onlyGivenNames y; clear_value y; rename' y => w)
    | (extract_lets +onlyGivenNames y; rename' y => w)
    | with_reducible apply State.startAttempt_keeps
    | split
    | dsimp -zeta only

theorem State.portStep_keeps {A : Nat} {z : State} {s : State} {p : Nat} (hA : 0x40000 &&& A = 0x40000) (hk : Keeps A z s) :
    Keeps A z (State.portStep s p) := by
  unfold State.portStep
  repeat' first
    | with_reducible assumption
    | ((with_reducible refine Part.sub hA ?_); rfl)
    | (extract_lets +onlyGivenNames y; refine Keeps.cut (y := y) ?_ (fun hy => ?_) <;> [(unfold y; clear y); (clear_value y; rename' y => w)])
    | (extract_lets +onlyGivenNames y; clear_value y; rename' y => w)
    | (extract_lets +onlyGivenNames y; rename' y => w)
    | with_reducible apply State.modPort_keeps
    | (with_reducible apply Keeps.foldl; intro y b hy)
    | (with_reducible apply Keeps.foldl_fst; intro y b hy)
    | split
    | dsimp -zeta only

theorem execLaneSignalDetect_keeps {A : Nat} {z : State} {lane : Fin 34} {s : State} (hA : 0x60000 &&& A = 0x60000) (hk : Keeps A z s) :
    KeepsOut A z (execLaneSignalDetect lane s) := by
  unfold execLaneSignalDetect
  repeat' first
    | with_reducible assumption
    | with_reducible apply KeepsOut.fault
    | with_reducible apply KeepsOut.next
    | (extract_lets +onlyGivenNames y; refine KeepsOut.cut (y := y) ?_ (fun hy => ?_) <;> [(unfold y; clear y); (clear_value y; rename' y => w)])
    | ((with_reducible refine Part.sub hA ?_); rfl)
    | (extract_lets +onlyGivenNames y; refine Keeps.cut (y := y) ?_ (fun hy => ?_) <;> [(unfold y; clear y); (clear_value y; rename' y => w)])
    | (extract_lets +onlyGivenNames y; clear_value y; rename' y => w)
    | (extract_lets +onlyGivenNames y; rename' y => w)
    | with_reducible apply State.modLane_keeps
    | with_reducible apply State.portStep_keeps
    | split
    | dsimp -zeta only

theorem State.laneClockGood_keeps {A : Nat} {z : State} {s : State} {l : Nat} (hA : 0x60000 &&& A = 0x60000) (hk : Keeps A z s) :
    Keeps A z (State.laneClockGood s l) := by
  unfold State.laneClockGood
  repeat' first
    | with_reducible assumption
    | ((with_reducible refine Part.sub hA ?_); rfl)
    | (extract_lets +onlyGivenNames y; refine Keeps.cut (y := y) ?_ (fun hy => ?_) <;> [(unfold y; clear y); (clear_value y; rename' y => w)])
    | (extract_lets +onlyGivenNames y; clear_value y; rename' y => w)
    | (extract_lets +onlyGivenNames y; rename' y => w)
    | with_reducible apply State.modLane_keeps
    | with_reducible apply State.portStep_keeps
    | split
    | dsimp -zeta only

theorem State.setFom_keeps {A : Nat} {z : State} {s : State} {l f : Nat} (hA : 0x20000 &&& A = 0x20000) (hk : Keeps A z s) :
    Keeps A z (State.setFom s l f) := by
  unfold State.setFom
  repeat' first
    | with_reducible assumption
    | ((with_reducible refine Part.sub hA ?_); rfl)
    | (extract_lets +onlyGivenNames y; refine Keeps.cut (y := y) ?_ (fun hy => ?_) <;> [(unfold y; clear y); (clear_value y; rename' y => w)])
    | (extract_lets +onlyGivenNames y; clear_value y; rename' y => w)
    | (extract_lets +onlyGivenNames y; rename' y => w)
    | with_reducible apply State.modLane_keeps
    | split
    | dsimp -zeta only

theorem execLaneAdaptConverged_keeps {A : Nat} {z : State} {lane : Fin 34} {fom : FomRead} {s : State} (hA : 0x60000 &&& A = 0x60000) (hk : Keeps A z s) :
    KeepsOut A z (execLaneAdaptConverged lane fom s) := by
  unfold execLaneAdaptConverged
  repeat' first
    | with_reducible assumption
    | with_reducible apply KeepsOut.fault
    | with_reducible apply KeepsOut.next
    | (extract_lets +onlyGivenNames y; refine KeepsOut.cut (y := y) ?_ (fun hy => ?_) <;> [(unfold y; clear y); (clear_value y; rename' y => w)])
    | ((with_reducible refine Part.sub hA ?_); rfl)
    | (extract_lets +onlyGivenNames y; refine Keeps.cut (y := y) ?_ (fun hy => ?_) <;> [(unfold y; clear y); (clear_value y; rename' y => w)])
    | (extract_lets +onlyGivenNames y; clear_value y; rename' y => w)
    | (extract_lets +onlyGivenNames y; rename' y => w)
    | with_reducible apply State.modLane_keeps
    | with_reducible apply State.portStep_keeps
    | with_reducible apply State.setFom_keeps
    | split
    | dsimp -zeta only

theorem execPcsLock_keeps {A : Nat} {z : State} {port : Fin 34} {s : State} (hA : 0x40000 &&& A = 0x40000) (hk : Keeps A z s) :
    KeepsOut A z (execPcsLock port s) := by
  unfold execPcsLock
  repeat' first
    | with_reducible assumption
    | with_reducible apply KeepsOut.fault
    | with_reducible apply KeepsOut.next
    | (extract_lets +onlyGivenNames y; refine KeepsOut.cut (y := y) ?_ (fun hy => ?_) <;> [(unfold y; clear y); (clear_value y; rename' y => w)])
    | ((with_reducible refine Part.sub hA ?_); rfl)
    | (extract_lets +onlyGivenNames y; refine Keeps.cut (y := y) ?_ (fun hy => ?_) <;> [(unfold y; clear y); (clear_value y; rename' y => w)])
    | (extract_lets +onlyGivenNames y; clear_value y; rename' y => w)
    | (extract_lets +onlyGivenNames y; rename' y => w)
    | with_reducible apply State.modPort_keeps
    | split
    | dsimp -zeta only

theorem execPortUp_keeps {A : Nat} {z : State} {port : Fin 34} {s : State} (hA : 0x4828840025 &&& A = 0x4828840025) (hk : Keeps A z s) :
    KeepsOut A z (execPortUp port s) := by
  unfold execPortUp
  repeat' first
    | with_reducible assumption
    | with_reducible apply KeepsOut.fault
    | with_reducible apply KeepsOut.next
    | (extract_lets +onlyGivenNames y; refine KeepsOut.cut (y := y) ?_ (fun hy => ?_) <;> [(unfold y; clear y); (clear_value y; rename' y => w)])
    | ((with_reducible refine Part.sub hA ?_); rfl)
    | (extract_lets +onlyGivenNames y; refine Keeps.cut (y := y) ?_ (fun hy => ?_) <;> [(unfold y; clear y); (clear_value y; rename' y => w)])
    | (extract_lets +onlyGivenNames y; clear_value y; rename' y => w)
    | (extract_lets +onlyGivenNames y; rename' y => w)
    | with_reducible apply State.modPort_keeps
    | with_reducible apply State.sendGaps_keeps
    | with_reducible apply State.rejoinPort_keeps
    | with_reducible apply State.groupEvent_keeps
    | with_reducible apply State.portLog_keeps
    | with_reducible apply State.pairLinkMoved_keeps
    | split
    | dsimp -zeta only

theorem State.laneFailed_keeps {A : Nat} {z : State} {s : State} {p l : Nat} (hA : 0x4800020005 &&& A = 0x4800020005) (hk : Keeps A z s) :
    Keeps A z (State.laneFailed s p l) := by
  unfold State.laneFailed
  repeat' first
    | with_reducible assumption
    | ((with_reducible refine Part.sub hA ?_); rfl)
    | (extract_lets +onlyGivenNames y; refine Keeps.cut (y := y) ?_ (fun hy => ?_) <;> [(unfold y; clear y); (clear_value y; rename' y => w)])
    | (extract_lets +onlyGivenNames y; clear_value y; rename' y => w)
    | (extract_lets +onlyGivenNames y; rename' y => w)
    | with_reducible apply State.count_keeps
    | with_reducible apply State.modLane_keeps
    | with_reducible apply State.groupEvent_keeps
    | with_reducible apply State.portLog_keeps
    | split
    | dsimp -zeta only

theorem State.attemptFailed_keeps {A : Nat} {z : State} {s : State} {p : Nat} (hA : 0x4800060005 &&& A = 0x4800060005) (hk : Keeps A z s) :
    Keeps A z (State.attemptFailed s p) := by
  unfold State.attemptFailed
  repeat' first
    | with_reducible assumption
    | ((with_reducible refine Part.sub hA ?_); rfl)
    | (extract_lets +onlyGivenNames y; refine Keeps.cut (y := y) ?_ (fun hy => ?_) <;> [(unfold y; clear y); (clear_value y; rename' y => w)])
    | (extract_lets +onlyGivenNames y; clear_value y; rename' y => w)
    | (extract_lets +onlyGivenNames y; rename' y => w)
    | with_reducible apply State.modLane_keeps
    | with_reducible apply State.modPort_keeps
    | with_reducible apply State.laneFailed_keeps
    | (with_reducible apply Keeps.foldl; intro y b hy)
    | (with_reducible apply Keeps.foldl_fst; intro y b hy)
    | split
    | dsimp -zeta only

theorem State.tryFailed_keeps {A : Nat} {z : State} {s : State} {p : Nat} (hA : 0x4800060005 &&& A = 0x4800060005) (hk : Keeps A z s) :
    Keeps A z (State.tryFailed s p) := by
  unfold State.tryFailed
  repeat' first
    | with_reducible assumption
    | ((with_reducible refine Part.sub hA ?_); rfl)
    | (extract_lets +onlyGivenNames y; refine Keeps.cut (y := y) ?_ (fun hy => ?_) <;> [(unfold y; clear y); (clear_value y; rename' y => w)])
    | (extract_lets +onlyGivenNames y; clear_value y; rename' y => w)
    | (extract_lets +onlyGivenNames y; rename' y => w)
    | with_reducible apply State.startTry_keeps
    | with_reducible apply State.attemptFailed_keeps
    | split
    | dsimp -zeta only

theorem execBringupStepTimeout_keeps {A : Nat} {z : State} {port : Fin 34} {s : State} (hA : 0x4800060005 &&& A = 0x4800060005) (hk : Keeps A z s) :
    KeepsOut A z (execBringupStepTimeout port s) := by
  unfold execBringupStepTimeout
  repeat' first
    | with_reducible assumption
    | with_reducible apply KeepsOut.fault
    | with_reducible apply KeepsOut.next
    | (extract_lets +onlyGivenNames y; refine KeepsOut.cut (y := y) ?_ (fun hy => ?_) <;> [(unfold y; clear y); (clear_value y; rename' y => w)])
    | ((with_reducible refine Part.sub hA ?_); rfl)
    | (extract_lets +onlyGivenNames y; refine Keeps.cut (y := y) ?_ (fun hy => ?_) <;> [(unfold y; clear y); (clear_value y; rename' y => w)])
    | (extract_lets +onlyGivenNames y; clear_value y; rename' y => w)
    | (extract_lets +onlyGivenNames y; rename' y => w)
    | with_reducible apply State.tryFailed_keeps
    | split
    | dsimp -zeta only

theorem execBackoffRetry_keeps {A : Nat} {z : State} {port : Fin 34} {s : State} (hA : 0x60001 &&& A = 0x60001) (hk : Keeps A z s) :
    KeepsOut A z (execBackoffRetry port s) := by
  unfold execBackoffRetry
  repeat' first
    | with_reducible assumption
    | with_reducible apply KeepsOut.fault
    | with_reducible apply KeepsOut.next
    | (extract_lets +onlyGivenNames y; refine KeepsOut.cut (y := y) ?_ (fun hy => ?_) <;> [(unfold y; clear y); (clear_value y; rename' y => w)])
    | ((with_reducible refine Part.sub hA ?_); rfl)
    | (extract_lets +onlyGivenNames y; refine Keeps.cut (y := y) ?_ (fun hy => ?_) <;> [(unfold y; clear y); (clear_value y; rename' y => w)])
    | (extract_lets +onlyGivenNames y; clear_value y; rename' y => w)
    | (extract_lets +onlyGivenNames y; rename' y => w)
    | with_reducible apply State.modPort_keeps
    | with_reducible apply State.startAttempt_keeps
    | split
    | dsimp -zeta only

theorem State.aimTaps_keeps {A : Nat} {z : State} {s : State} {l : Nat} {goal : Int × Int × Int} (hA : 0x20000 &&& A = 0x20000) (hk : Keeps A z s) :
    Keeps A z (State.aimTaps s l goal) := by
  unfold State.aimTaps
  repeat' first
    | with_reducible assumption
    | ((with_reducible refine Part.sub hA ?_); rfl)
    | (extract_lets +onlyGivenNames y; refine Keeps.cut (y := y) ?_ (fun hy => ?_) <;> [(unfold y; clear y); (clear_value y; rename' y => w)])
    | (extract_lets +onlyGivenNames y; clear_value y; rename' y => w)
    | (extract_lets +onlyGivenNames y; rename' y => w)
    | with_reducible apply State.modLane_keeps
    | split
    | dsimp -zeta only

theorem State.portDown_keeps {A : Nat} {z : State} {s : State} {p cause : Nat} (hA : 0xcc3da6cb65 &&& A = 0xcc3da6cb65) (hk : Keeps A z s) :
    Keeps A z (State.portDown s p cause) := by
  unfold State.portDown
  repeat' first
    | with_reducible assumption
    | ((with_reducible refine Part.sub hA ?_); rfl)
    | (extract_lets +onlyGivenNames y; refine Keeps.cut (y := y) ?_ (fun hy => ?_) <;> [(unfold y; clear y); (clear_value y; rename' y => w)])
    | (extract_lets +onlyGivenNames y; clear_value y; rename' y => w)
    | (extract_lets +onlyGivenNames y; rename' y => w)
    | with_reducible apply State.count_keeps
    | with_reducible apply State.modLane_keeps
    | with_reducible apply State.modPort_keeps
    | with_reducible apply State.dropQueue_keeps
    | with_reducible apply State.ptpPortDown_keeps
    | with_reducible apply State.groupEvent_keeps
    | with_reducible apply State.portLog_keeps
    | with_reducible apply State.pairLinkMoved_keeps
    | with_reducible apply State.tryAttempt_keeps
    | with_reducible apply State.aimTaps_keeps
    | (with_reducible apply Keeps.foldl; intro y b hy)
    | (with_reducible apply Keeps.foldl_fst; intro y b hy)
    | split
    | dsimp -zeta only

theorem State.cdrLoss_keeps {A : Nat} {z : State} {s : State} {l : Nat} (hA : 0xcc3da6cb65 &&& A = 0xcc3da6cb65) (hk : Keeps A z s) :
    Keeps A z (State.cdrLoss s l) := by
  unfold State.cdrLoss
  repeat' first
    | with_reducible assumption
    | ((with_reducible refine Part.sub hA ?_); rfl)
    | (extract_lets +onlyGivenNames y; refine Keeps.cut (y := y) ?_ (fun hy => ?_) <;> [(unfold y; clear y); (clear_value y; rename' y => w)])
    | (extract_lets +onlyGivenNames y; clear_value y; rename' y => w)
    | (extract_lets +onlyGivenNames y; rename' y => w)
    | with_reducible apply State.count_keeps
    | with_reducible apply State.groupEvent_keeps
    | with_reducible apply State.portLog_keeps
    | with_reducible apply State.tryFailed_keeps
    | with_reducible apply State.portDown_keeps
    | split
    | dsimp -zeta only

theorem execAdaptStep_keeps {A : Nat} {z : State} {lane : Fin 34} {before after : Byte} {s : State} (hA : 0x20000 &&& A = 0x20000) (hk : Keeps A z s) :
    KeepsOut A z (execAdaptStep lane before after s) := by
  unfold execAdaptStep
  repeat' first
    | with_reducible assumption
    | with_reducible apply KeepsOut.fault
    | with_reducible apply KeepsOut.next
    | (extract_lets +onlyGivenNames y; refine KeepsOut.cut (y := y) ?_ (fun hy => ?_) <;> [(unfold y; clear y); (clear_value y; rename' y => w)])
    | ((with_reducible refine Part.sub hA ?_); rfl)
    | (extract_lets +onlyGivenNames y; refine Keeps.cut (y := y) ?_ (fun hy => ?_) <;> [(unfold y; clear y); (clear_value y; rename' y => w)])
    | (extract_lets +onlyGivenNames y; clear_value y; rename' y => w)
    | (extract_lets +onlyGivenNames y; rename' y => w)
    | with_reducible apply State.setFom_keeps
    | split
    | dsimp -zeta only

theorem execLaneLowFom_keeps {A : Nat} {z : State} {lane : Fin 34} {s : State} (hA : 0x4800020005 &&& A = 0x4800020005) (hk : Keeps A z s) :
    KeepsOut A z (execLaneLowFom lane s) := by
  unfold execLaneLowFom
  repeat' first
    | with_reducible assumption
    | with_reducible apply KeepsOut.fault
    | with_reducible apply KeepsOut.next
    | (extract_lets +onlyGivenNames y; refine KeepsOut.cut (y := y) ?_ (fun hy => ?_) <;> [(unfold y; clear y); (clear_value y; rename' y => w)])
    | ((with_reducible refine Part.sub hA ?_); rfl)
    | (extract_lets +onlyGivenNames y; refine Keeps.cut (y := y) ?_ (fun hy => ?_) <;> [(unfold y; clear y); (clear_value y; rename' y => w)])
    | (extract_lets +onlyGivenNames y; clear_value y; rename' y => w)
    | (extract_lets +onlyGivenNames y; rename' y => w)
    | with_reducible apply State.modLane_keeps
    | with_reducible apply State.groupEvent_keeps
    | with_reducible apply State.portLog_keeps
    | split
    | dsimp -zeta only

theorem execFomBelowMin_keeps {A : Nat} {z : State} {lane : Fin 34} {s : State} (hA : 0xcc3da6cb65 &&& A = 0xcc3da6cb65) (hk : Keeps A z s) :
    KeepsOut A z (execFomBelowMin lane s) := by
  unfold execFomBelowMin
  repeat' first
    | with_reducible assumption
    | with_reducible apply KeepsOut.fault
    | with_reducible apply KeepsOut.next
    | (extract_lets +onlyGivenNames y; refine KeepsOut.cut (y := y) ?_ (fun hy => ?_) <;> [(unfold y; clear y); (clear_value y; rename' y => w)])
    | ((with_reducible refine Part.sub hA ?_); rfl)
    | (extract_lets +onlyGivenNames y; refine Keeps.cut (y := y) ?_ (fun hy => ?_) <;> [(unfold y; clear y); (clear_value y; rename' y => w)])
    | (extract_lets +onlyGivenNames y; clear_value y; rename' y => w)
    | (extract_lets +onlyGivenNames y; rename' y => w)
    | with_reducible apply State.portDown_keeps
    | split
    | dsimp -zeta only

theorem execPcsAlignmentLoss_keeps {A : Nat} {z : State} {port : Fin 34} {s : State} (hA : 0xcc3da6cb65 &&& A = 0xcc3da6cb65) (hk : Keeps A z s) :
    KeepsOut A z (execPcsAlignmentLoss port s) := by
  unfold execPcsAlignmentLoss
  repeat' first
    | with_reducible assumption
    | with_reducible apply KeepsOut.fault
    | with_reducible apply KeepsOut.next
    | (extract_lets +onlyGivenNames y; refine KeepsOut.cut (y := y) ?_ (fun hy => ?_) <;> [(unfold y; clear y); (clear_value y; rename' y => w)])
    | ((with_reducible refine Part.sub hA ?_); rfl)
    | (extract_lets +onlyGivenNames y; refine Keeps.cut (y := y) ?_ (fun hy => ?_) <;> [(unfold y; clear y); (clear_value y; rename' y => w)])
    | (extract_lets +onlyGivenNames y; clear_value y; rename' y => w)
    | (extract_lets +onlyGivenNames y; rename' y => w)
    | with_reducible apply State.portDown_keeps
    | split
    | dsimp -zeta only

theorem execFecUncorrBurst_keeps {A : Nat} {z : State} {port : Fin 34} {codewords : Nat} {s : State} (hA : 0xcc3da6cb65 &&& A = 0xcc3da6cb65) (hk : Keeps A z s) :
    KeepsOut A z (execFecUncorrBurst port codewords s) := by
  unfold execFecUncorrBurst
  repeat' first
    | with_reducible assumption
    | with_reducible apply KeepsOut.fault
    | with_reducible apply KeepsOut.next
    | (extract_lets +onlyGivenNames y; refine KeepsOut.cut (y := y) ?_ (fun hy => ?_) <;> [(unfold y; clear y); (clear_value y; rename' y => w)])
    | ((with_reducible refine Part.sub hA ?_); rfl)
    | (extract_lets +onlyGivenNames y; refine Keeps.cut (y := y) ?_ (fun hy => ?_) <;> [(unfold y; clear y); (clear_value y; rename' y => w)])
    | (extract_lets +onlyGivenNames y; clear_value y; rename' y => w)
    | (extract_lets +onlyGivenNames y; rename' y => w)
    | with_reducible apply State.countBy_keeps
    | with_reducible apply State.modPort_keeps
    | with_reducible apply State.portDown_keeps
    | split
    | dsimp -zeta only

theorem execLinkFaultPersist_keeps {A : Nat} {z : State} {port : Fin 34} {remote : Bool} {s : State} (hA : 0xcc3da6cb65 &&& A = 0xcc3da6cb65) (hk : Keeps A z s) :
    KeepsOut A z (execLinkFaultPersist port remote s) := by
  unfold execLinkFaultPersist
  repeat' first
    | with_reducible assumption
    | with_reducible apply KeepsOut.fault
    | with_reducible apply KeepsOut.next
    | (extract_lets +onlyGivenNames y; refine KeepsOut.cut (y := y) ?_ (fun hy => ?_) <;> [(unfold y; clear y); (clear_value y; rename' y => w)])
    | ((with_reducible refine Part.sub hA ?_); rfl)
    | (extract_lets +onlyGivenNames y; refine Keeps.cut (y := y) ?_ (fun hy => ?_) <;> [(unfold y; clear y); (clear_value y; rename' y => w)])
    | (extract_lets +onlyGivenNames y; clear_value y; rename' y => w)
    | (extract_lets +onlyGivenNames y; rename' y => w)
    | with_reducible apply State.modPort_keeps
    | with_reducible apply State.portDown_keeps
    | split
    | dsimp -zeta only

theorem execFecDegrade_keeps {A : Nat} {z : State} {port : Fin 34} {symbols codewords : Nat} {corrected : List Nat} {s : State} (hA : 0x4800040005 &&& A = 0x4800040005) (hk : Keeps A z s) :
    KeepsOut A z (execFecDegrade port symbols codewords corrected s) := by
  unfold execFecDegrade
  repeat' first
    | with_reducible assumption
    | with_reducible apply KeepsOut.fault
    | with_reducible apply KeepsOut.next
    | (extract_lets +onlyGivenNames y; refine KeepsOut.cut (y := y) ?_ (fun hy => ?_) <;> [(unfold y; clear y); (clear_value y; rename' y => w)])
    | ((with_reducible refine Part.sub hA ?_); rfl)
    | (extract_lets +onlyGivenNames y; refine Keeps.cut (y := y) ?_ (fun hy => ?_) <;> [(unfold y; clear y); (clear_value y; rename' y => w)])
    | (extract_lets +onlyGivenNames y; clear_value y; rename' y => w)
    | (extract_lets +onlyGivenNames y; rename' y => w)
    | with_reducible apply State.countBy_keeps
    | with_reducible apply State.modPort_keeps
    | with_reducible apply State.groupEvent_keeps
    | with_reducible apply State.portLog_keeps
    | (with_reducible apply Keeps.foldl; intro y b hy)
    | (with_reducible apply Keeps.foldl_fst; intro y b hy)
    | split
    | dsimp -zeta only

theorem State.optLog_keeps {A : Nat} {z : State} {s : State} {c : FaultClass} {b : Nat} {data : List Byte} (hA : 0x4800000005 &&& A = 0x4800000005) (hk : Keeps A z s) :
    Keeps A z (State.optLog s c b data) := by
  unfold State.optLog
  repeat' first
    | with_reducible assumption
    | ((with_reducible refine Part.sub hA ?_); rfl)
    | (extract_lets +onlyGivenNames y; refine Keeps.cut (y := y) ?_ (fun hy => ?_) <;> [(unfold y; clear y); (clear_value y; rename' y => w)])
    | (extract_lets +onlyGivenNames y; clear_value y; rename' y => w)
    | (extract_lets +onlyGivenNames y; rename' y => w)
    | with_reducible apply State.logOut_keeps
    | with_reducible apply State.groupEvent_keeps
    | split
    | dsimp -zeta only

theorem State.moduleGone_keeps {A : Nat} {z : State} {s : State} {p : Nat} (hA : 0xcc3da6cb65 &&& A = 0xcc3da6cb65) (hk : Keeps A z s) :
    Keeps A z (State.moduleGone s p) := by
  unfold State.moduleGone
  repeat' first
    | with_reducible assumption
    | ((with_reducible refine Part.sub hA ?_); rfl)
    | (extract_lets +onlyGivenNames y; refine Keeps.cut (y := y) ?_ (fun hy => ?_) <;> [(unfold y; clear y); (clear_value y; rename' y => w)])
    | (extract_lets +onlyGivenNames y; clear_value y; rename' y => w)
    | (extract_lets +onlyGivenNames y; rename' y => w)
    | with_reducible apply State.modLane_keeps
    | with_reducible apply State.modPort_keeps
    | with_reducible apply State.portDown_keeps
    | (with_reducible apply Keeps.foldl; intro y b hy)
    | (with_reducible apply Keeps.foldl_fst; intro y b hy)
    | split
    | dsimp -zeta only

theorem State.opticGone_keeps {A : Nat} {z : State} {s : State} {b : Nat} (hA : 0xcc3daecb65 &&& A = 0xcc3daecb65) (hk : Keeps A z s) :
    Keeps A z (State.opticGone s b) := by
  unfold State.opticGone
  repeat' first
    | with_reducible assumption
    | ((with_reducible refine Part.sub hA ?_); rfl)
    | (extract_lets +onlyGivenNames y; refine Keeps.cut (y := y) ?_ (fun hy => ?_) <;> [(unfold y; clear y); (clear_value y; rename' y => w)])
    | (extract_lets +onlyGivenNames y; clear_value y; rename' y => w)
    | (extract_lets +onlyGivenNames y; rename' y => w)
    | with_reducible apply State.modOptic_keeps
    | with_reducible apply State.optLog_keeps
    | with_reducible apply State.moduleGone_keeps
    | (with_reducible apply Keeps.foldl; intro y b hy)
    | (with_reducible apply Keeps.foldl_fst; intro y b hy)
    | split
    | dsimp -zeta only

theorem State.opticIn_keeps {A : Nat} {z : State} {s : State} {b : Nat} (hA : 0x48000c0005 &&& A = 0x48000c0005) (hk : Keeps A z s) :
    Keeps A z (State.opticIn s b) := by
  unfold State.opticIn
  repeat' first
    | with_reducible assumption
    | ((with_reducible refine Part.sub hA ?_); rfl)
    | (extract_lets +onlyGivenNames y; refine Keeps.cut (y := y) ?_ (fun hy => ?_) <;> [(unfold y; clear y); (clear_value y; rename' y => w)])
    | (extract_lets +onlyGivenNames y; clear_value y; rename' y => w)
    | (extract_lets +onlyGivenNames y; rename' y => w)
    | with_reducible apply State.modPort_keeps
    | with_reducible apply State.modOptic_keeps
    | with_reducible apply State.optLog_keeps
    | (with_reducible apply Keeps.foldl; intro y b hy)
    | (with_reducible apply Keeps.foldl_fst; intro y b hy)
    | split
    | dsimp -zeta only

theorem execOptRemoved_keeps {A : Nat} {z : State} {bus : Fin 6} {s : State} (hA : 0xcc3daecb65 &&& A = 0xcc3daecb65) (hk : Keeps A z s) :
    KeepsOut A z (execOptRemoved bus s) := by
  unfold execOptRemoved
  repeat' first
    | with_reducible assumption
    | with_reducible apply KeepsOut.fault
    | with_reducible apply KeepsOut.next
    | (extract_lets +onlyGivenNames y; refine KeepsOut.cut (y := y) ?_ (fun hy => ?_) <;> [(unfold y; clear y); (clear_value y; rename' y => w)])
    | ((with_reducible refine Part.sub hA ?_); rfl)
    | (extract_lets +onlyGivenNames y; refine Keeps.cut (y := y) ?_ (fun hy => ?_) <;> [(unfold y; clear y); (clear_value y; rename' y => w)])
    | (extract_lets +onlyGivenNames y; clear_value y; rename' y => w)
    | (extract_lets +onlyGivenNames y; rename' y => w)
    | with_reducible apply State.opticGone_keeps
    | split
    | dsimp -zeta only

theorem execOptInserted_keeps {A : Nat} {z : State} {bus : Fin 6} {s : State} (hA : 0x48000c0005 &&& A = 0x48000c0005) (hk : Keeps A z s) :
    KeepsOut A z (execOptInserted bus s) := by
  unfold execOptInserted
  repeat' first
    | with_reducible assumption
    | with_reducible apply KeepsOut.fault
    | with_reducible apply KeepsOut.next
    | (extract_lets +onlyGivenNames y; refine KeepsOut.cut (y := y) ?_ (fun hy => ?_) <;> [(unfold y; clear y); (clear_value y; rename' y => w)])
    | ((with_reducible refine Part.sub hA ?_); rfl)
    | (extract_lets +onlyGivenNames y; refine Keeps.cut (y := y) ?_ (fun hy => ?_) <;> [(unfold y; clear y); (clear_value y; rename' y => w)])
    | (extract_lets +onlyGivenNames y; clear_value y; rename' y => w)
    | (extract_lets +onlyGivenNames y; rename' y => w)
    | with_reducible apply State.opticIn_keeps
    | split
    | dsimp -zeta only

theorem State.moduleReady_keeps {A : Nat} {z : State} {s : State} {b : Nat} (hA : 0xe0001 &&& A = 0xe0001) (hk : Keeps A z s) :
    Keeps A z (State.moduleReady s b) := by
  unfold State.moduleReady
  repeat' first
    | with_reducible assumption
    | ((with_reducible refine Part.sub hA ?_); rfl)
    | (extract_lets +onlyGivenNames y; refine Keeps.cut (y := y) ?_ (fun hy => ?_) <;> [(unfold y; clear y); (clear_value y; rename' y => w)])
    | (extract_lets +onlyGivenNames y; clear_value y; rename' y => w)
    | (extract_lets +onlyGivenNames y; rename' y => w)
    | with_reducible apply State.modOptic_keeps
    | with_reducible apply State.tryAttempt_keeps
    | (with_reducible apply Keeps.foldl; intro y b hy)
    | (with_reducible apply Keeps.foldl_fst; intro y b hy)
    | split
    | dsimp -zeta only

theorem execOptModuleReady_keeps {A : Nat} {z : State} {event : ModuleReady} {s : State} (hA : 0xe0001 &&& A = 0xe0001) (hk : Keeps A z s) :
    KeepsOut A z (execOptModuleReady event s) := by
  unfold execOptModuleReady
  repeat' first
    | with_reducible assumption
    | with_reducible apply KeepsOut.fault
    | with_reducible apply KeepsOut.next
    | (extract_lets +onlyGivenNames y; refine KeepsOut.cut (y := y) ?_ (fun hy => ?_) <;> [(unfold y; clear y); (clear_value y; rename' y => w)])
    | ((with_reducible refine Part.sub hA ?_); rfl)
    | (extract_lets +onlyGivenNames y; refine Keeps.cut (y := y) ?_ (fun hy => ?_) <;> [(unfold y; clear y); (clear_value y; rename' y => w)])
    | (extract_lets +onlyGivenNames y; clear_value y; rename' y => w)
    | (extract_lets +onlyGivenNames y; rename' y => w)
    | with_reducible apply State.modOptic_keeps
    | with_reducible apply State.moduleReady_keeps
    | split
    | dsimp -zeta only

theorem execOptPoll_keeps {A : Nat} {z : State} {bus : Fin 6} {reading : OpticReading} {s : State} (hA : 0xcc3daecb65 &&& A = 0xcc3daecb65) (hk : Keeps A z s) :
    KeepsOut A z (execOptPoll bus reading s) := by
  unfold execOptPoll
  repeat' first
    | with_reducible assumption
    | with_reducible apply KeepsOut.fault
    | with_reducible apply KeepsOut.next
    | (extract_lets +onlyGivenNames y; refine KeepsOut.cut (y := y) ?_ (fun hy => ?_) <;> [(unfold y; clear y); (clear_value y; rename' y => w)])
    | ((with_reducible refine Part.sub hA ?_); rfl)
    | (extract_lets +onlyGivenNames y; refine Keeps.cut (y := y) ?_ (fun hy => ?_) <;> [(unfold y; clear y); (clear_value y; rename' y => w)])
    | (extract_lets +onlyGivenNames y; clear_value y; rename' y => w)
    | (extract_lets +onlyGivenNames y; rename' y => w)
    | with_reducible apply State.count_keeps
    | with_reducible apply State.modOptic_keeps
    | with_reducible apply State.optLog_keeps
    | with_reducible apply State.opticGone_keeps
    | with_reducible apply State.opticIn_keeps
    | with_reducible apply State.moduleReady_keeps
    | (with_reducible apply Keeps.foldl; intro y b hy)
    | (with_reducible apply Keeps.foldl_fst; intro y b hy)
    | split
    | dsimp -zeta only

theorem execOptCmd_keeps {A : Nat} {z : State} {agent : Agent} {bus : Fin 6} {value : Word} {s : State} (hA : 0x80001 &&& A = 0x80001) (hk : Keeps A z s) :
    KeepsOut A z (execOptCmd agent bus value s) := by
  unfold execOptCmd
  repeat' first
    | with_reducible assumption
    | with_reducible apply KeepsOut.fault
    | with_reducible apply KeepsOut.next
    | (extract_lets +onlyGivenNames y; refine KeepsOut.cut (y := y) ?_ (fun hy => ?_) <;> [(unfold y; clear y); (clear_value y; rename' y => w)])
    | ((with_reducible refine Part.sub hA ?_); rfl)
    | (extract_lets +onlyGivenNames y; refine Keeps.cut (y := y) ?_ (fun hy => ?_) <;> [(unfold y; clear y); (clear_value y; rename' y => w)])
    | (extract_lets +onlyGivenNames y; clear_value y; rename' y => w)
    | (extract_lets +onlyGivenNames y; rename' y => w)
    | with_reducible apply State.count_keeps
    | with_reducible apply State.modOptic_keeps
    | split
    | dsimp -zeta only

theorem execOptCmdDone_keeps {A : Nat} {z : State} {bus : Fin 6} {ack : Bool} {data : Byte} {s : State} (hA : 0x80001 &&& A = 0x80001) (hk : Keeps A z s) :
    KeepsOut A z (execOptCmdDone bus ack data s) := by
  unfold execOptCmdDone
  repeat' first
    | with_reducible assumption
    | with_reducible apply KeepsOut.fault
    | with_reducible apply KeepsOut.next
    | (extract_lets +onlyGivenNames y; refine KeepsOut.cut (y := y) ?_ (fun hy => ?_) <;> [(unfold y; clear y); (clear_value y; rename' y => w)])
    | ((with_reducible refine Part.sub hA ?_); rfl)
    | (extract_lets +onlyGivenNames y; refine Keeps.cut (y := y) ?_ (fun hy => ?_) <;> [(unfold y; clear y); (clear_value y; rename' y => w)])
    | (extract_lets +onlyGivenNames y; clear_value y; rename' y => w)
    | (extract_lets +onlyGivenNames y; rename' y => w)
    | with_reducible apply State.count_keeps
    | with_reducible apply State.modOptic_keeps
    | split
    | dsimp -zeta only

theorem execOptSdaStuck_keeps {A : Nat} {z : State} {bus : Fin 6} {freed : Bool} {s : State} (hA : 0x4800080005 &&& A = 0x4800080005) (hk : Keeps A z s) :
    KeepsOut A z (execOptSdaStuck bus freed s) := by
  unfold execOptSdaStuck
  repeat' first
    | with_reducible assumption
    | with_reducible apply KeepsOut.fault
    | with_reducible apply KeepsOut.next
    | (extract_lets +onlyGivenNames y; refine KeepsOut.cut (y := y) ?_ (fun hy => ?_) <;> [(unfold y; clear y); (clear_value y; rename' y => w)])
    | ((with_reducible refine Part.sub hA ?_); rfl)
    | (extract_lets +onlyGivenNames y; refine Keeps.cut (y := y) ?_ (fun hy => ?_) <;> [(unfold y; clear y); (clear_value y; rename' y => w)])
    | (extract_lets +onlyGivenNames y; clear_value y; rename' y => w)
    | (extract_lets +onlyGivenNames y; rename' y => w)
    | with_reducible apply State.count_keeps
    | with_reducible apply State.modOptic_keeps
    | with_reducible apply State.optLog_keeps
    | split
    | dsimp -zeta only

theorem execOptResetBus_keeps {A : Nat} {z : State} {agent : Agent} {bus : Fin 6} {s : State} (hA : 0x80000 &&& A = 0x80000) (hk : Keeps A z s) :
    KeepsOut A z (execOptResetBus agent bus s) := by
  unfold execOptResetBus
  repeat' first
    | with_reducible assumption
    | with_reducible apply KeepsOut.fault
    | with_reducible apply KeepsOut.next
    | (extract_lets +onlyGivenNames y; refine KeepsOut.cut (y := y) ?_ (fun hy => ?_) <;> [(unfold y; clear y); (clear_value y; rename' y => w)])
    | ((with_reducible refine Part.sub hA ?_); rfl)
    | (extract_lets +onlyGivenNames y; refine Keeps.cut (y := y) ?_ (fun hy => ?_) <;> [(unfold y; clear y); (clear_value y; rename' y => w)])
    | (extract_lets +onlyGivenNames y; clear_value y; rename' y => w)
    | (extract_lets +onlyGivenNames y; rename' y => w)
    | with_reducible apply State.modOptic_keeps
    | split
    | dsimp -zeta only

theorem State.setLoop_keeps {A : Nat} {z : State} {s : State} {l loop : Nat} (hA : 0x20020 &&& A = 0x20020) (hk : Keeps A z s) :
    Keeps A z (State.setLoop s l loop) := by
  unfold State.setLoop
  repeat' first
    | with_reducible assumption
    | ((with_reducible refine Part.sub hA ?_); rfl)
    | (extract_lets +onlyGivenNames y; refine Keeps.cut (y := y) ?_ (fun hy => ?_) <;> [(unfold y; clear y); (clear_value y; rename' y => w)])
    | (extract_lets +onlyGivenNames y; clear_value y; rename' y => w)
    | (extract_lets +onlyGivenNames y; rename' y => w)
    | with_reducible apply State.modLane_keeps
    | with_reducible apply State.send_keeps
    | split
    | dsimp -zeta only

theorem State.setPrbs_keeps {A : Nat} {z : State} {s : State} {l prbs : Nat} (hA : 0x20000 &&& A = 0x20000) (hk : Keeps A z s) :
    Keeps A z (State.setPrbs s l prbs) := by
  unfold State.setPrbs
  repeat' first
    | with_reducible assumption
    | ((with_reducible refine Part.sub hA ?_); rfl)
    | (extract_lets +onlyGivenNames y; refine Keeps.cut (y := y) ?_ (fun hy => ?_) <;> [(unfold y; clear y); (clear_value y; rename' y => w)])
    | (extract_lets +onlyGivenNames y; clear_value y; rename' y => w)
    | (extract_lets +onlyGivenNames y; rename' y => w)
    | with_reducible apply State.modLane_keeps
    | split
    | dsimp -zeta only

theorem State.adminOff_keeps {A : Nat} {z : State} {s : State} {p : Nat} (hA : 0xcc3da6cb65 &&& A = 0xcc3da6cb65) (hk : Keeps A z s) :
    Keeps A z (State.adminOff s p) := by
  unfold State.adminOff
  repeat' first
    | with_reducible assumption
    | ((with_reducible refine Part.sub hA ?_); rfl)
    | (extract_lets +onlyGivenNames y; refine Keeps.cut (y := y) ?_ (fun hy => ?_) <;> [(unfold y; clear y); (clear_value y; rename' y => w)])
    | (extract_lets +onlyGivenNames y; clear_value y; rename' y => w)
    | (extract_lets +onlyGivenNames y; rename' y => w)
    | with_reducible apply State.modLane_keeps
    | with_reducible apply State.modPort_keeps
    | with_reducible apply State.portDown_keeps
    | (with_reducible apply Keeps.foldl; intro y b hy)
    | (with_reducible apply Keeps.foldl_fst; intro y b hy)
    | split
    | dsimp -zeta only

theorem State.adminOn_keeps {A : Nat} {z : State} {s : State} {p : Nat} (hA : 0x60021 &&& A = 0x60021) (hk : Keeps A z s) :
    Keeps A z (State.adminOn s p) := by
  unfold State.adminOn
  repeat' first
    | with_reducible assumption
    | ((with_reducible refine Part.sub hA ?_); rfl)
    | (extract_lets +onlyGivenNames y; refine Keeps.cut (y := y) ?_ (fun hy => ?_) <;> [(unfold y; clear y); (clear_value y; rename' y => w)])
    | (extract_lets +onlyGivenNames y; clear_value y; rename' y => w)
    | (extract_lets +onlyGivenNames y; rename' y => w)
    | with_reducible apply State.modPort_keeps
    | with_reducible apply State.tryAttempt_keeps
    | with_reducible apply State.setLoop_keeps
    | with_reducible apply State.setPrbs_keeps
    | (with_reducible apply Keeps.foldl; intro y b hy)
    | (with_reducible apply Keeps.foldl_fst; intro y b hy)
    | split
    | dsimp -zeta only

theorem execPortAdmin_keeps {A : Nat} {z : State} {agent : Agent} {port : Fin 32} {admin : Bool} {s : State} (hA : 0xcc3da6cb65 &&& A = 0xcc3da6cb65) (hk : Keeps A z s) :
    KeepsOut A z (execPortAdmin agent port admin s) := by
  unfold execPortAdmin
  repeat' first
    | with_reducible assumption
    | with_reducible apply KeepsOut.fault
    | with_reducible apply KeepsOut.next
    | (extract_lets +onlyGivenNames y; refine KeepsOut.cut (y := y) ?_ (fun hy => ?_) <;> [(unfold y; clear y); (clear_value y; rename' y => w)])
    | ((with_reducible refine Part.sub hA ?_); rfl)
    | (extract_lets +onlyGivenNames y; refine Keeps.cut (y := y) ?_ (fun hy => ?_) <;> [(unfold y; clear y); (clear_value y; rename' y => w)])
    | (extract_lets +onlyGivenNames y; clear_value y; rename' y => w)
    | (extract_lets +onlyGivenNames y; rename' y => w)
    | with_reducible apply State.adminOff_keeps
    | with_reducible apply State.adminOn_keeps
    | split
    | dsimp -zeta only

theorem execRetryNow_keeps {A : Nat} {z : State} {agent : Agent} {port : Fin 34} {s : State} (hA : 0x60001 &&& A = 0x60001) (hk : Keeps A z s) :
    KeepsOut A z (execRetryNow agent port s) := by
  unfold execRetryNow
  repeat' first
    | with_reducible assumption
    | with_reducible apply KeepsOut.fault
    | with_reducible apply KeepsOut.next
    | (extract_lets +onlyGivenNames y; refine KeepsOut.cut (y := y) ?_ (fun hy => ?_) <;> [(unfold y; clear y); (clear_value y; rename' y => w)])
    | ((with_reducible refine Part.sub hA ?_); rfl)
    | (extract_lets +onlyGivenNames y; refine Keeps.cut (y := y) ?_ (fun hy => ?_) <;> [(unfold y; clear y); (clear_value y; rename' y => w)])
    | (extract_lets +onlyGivenNames y; clear_value y; rename' y => w)
    | (extract_lets +onlyGivenNames y; rename' y => w)
    | with_reducible apply State.modPort_keeps
    | with_reducible apply State.startAttempt_keeps
    | split
    | dsimp -zeta only

theorem State.loopRefused_keeps {A : Nat} {z : State} {s : State} {l : Nat} {value : Word} (hA : 0x4000000000 &&& A = 0x4000000000) (hk : Keeps A z s) :
    Keeps A z (State.loopRefused s l value) := by
  unfold State.loopRefused
  repeat' first
    | with_reducible assumption
    | ((with_reducible refine Part.sub hA ?_); rfl)
    | (extract_lets +onlyGivenNames y; refine Keeps.cut (y := y) ?_ (fun hy => ?_) <;> [(unfold y; clear y); (clear_value y; rename' y => w)])
    | (extract_lets +onlyGivenNames y; clear_value y; rename' y => w)
    | (extract_lets +onlyGivenNames y; rename' y => w)
    | with_reducible apply State.portLog_keeps
    | split
    | dsimp -zeta only

theorem execLaneLoop_keeps {A : Nat} {z : State} {agent : Agent} {lane : Fin 34} {loop : Fin 4} {s : State} (hA : 0x4000020020 &&& A = 0x4000020020) (hk : Keeps A z s) :
    KeepsOut A z (execLaneLoop agent lane loop s) := by
  unfold execLaneLoop
  repeat' first
    | with_reducible assumption
    | with_reducible apply KeepsOut.fault
    | with_reducible apply KeepsOut.next
    | (extract_lets +onlyGivenNames y; refine KeepsOut.cut (y := y) ?_ (fun hy => ?_) <;> [(unfold y; clear y); (clear_value y; rename' y => w)])
    | ((with_reducible refine Part.sub hA ?_); rfl)
    | (extract_lets +onlyGivenNames y; refine Keeps.cut (y := y) ?_ (fun hy => ?_) <;> [(unfold y; clear y); (clear_value y; rename' y => w)])
    | (extract_lets +onlyGivenNames y; clear_value y; rename' y => w)
    | (extract_lets +onlyGivenNames y; rename' y => w)
    | with_reducible apply State.setLoop_keeps
    | with_reducible apply State.loopRefused_keeps
    | split
    | dsimp -zeta only

theorem execLanePrbs_keeps {A : Nat} {z : State} {agent : Agent} {lane : Fin 34} {prbs : Fin 4} {s : State} (hA : 0x4000020000 &&& A = 0x4000020000) (hk : Keeps A z s) :
    KeepsOut A z (execLanePrbs agent lane prbs s) := by
  unfold execLanePrbs
  repeat' first
    | with_reducible assumption
    | with_reducible apply KeepsOut.fault
    | with_reducible apply KeepsOut.next
    | (extract_lets +onlyGivenNames y; refine KeepsOut.cut (y := y) ?_ (fun hy => ?_) <;> [(unfold y; clear y); (clear_value y; rename' y => w)])
    | ((with_reducible refine Part.sub hA ?_); rfl)
    | (extract_lets +onlyGivenNames y; refine Keeps.cut (y := y) ?_ (fun hy => ?_) <;> [(unfold y; clear y); (clear_value y; rename' y => w)])
    | (extract_lets +onlyGivenNames y; clear_value y; rename' y => w)
    | (extract_lets +onlyGivenNames y; rename' y => w)
    | with_reducible apply State.setPrbs_keeps
    | with_reducible apply State.loopRefused_keeps
    | split
    | dsimp -zeta only

theorem execLaneFreeze_keeps {A : Nat} {z : State} {agent : Agent} {lane : Fin 34} {freeze : Bool} {s : State} (hA : 0x20000 &&& A = 0x20000) (hk : Keeps A z s) :
    KeepsOut A z (execLaneFreeze agent lane freeze s) := by
  unfold execLaneFreeze
  repeat' first
    | with_reducible assumption
    | with_reducible apply KeepsOut.fault
    | with_reducible apply KeepsOut.next
    | (extract_lets +onlyGivenNames y; refine KeepsOut.cut (y := y) ?_ (fun hy => ?_) <;> [(unfold y; clear y); (clear_value y; rename' y => w)])
    | ((with_reducible refine Part.sub hA ?_); rfl)
    | (extract_lets +onlyGivenNames y; refine Keeps.cut (y := y) ?_ (fun hy => ?_) <;> [(unfold y; clear y); (clear_value y; rename' y => w)])
    | (extract_lets +onlyGivenNames y; clear_value y; rename' y => w)
    | (extract_lets +onlyGivenNames y; rename' y => w)
    | with_reducible apply State.modLane_keeps
    | split
    | dsimp -zeta only

theorem execFomRead_keeps {A : Nat} {z : State} {agent : Agent} {lane : Fin 34} {s : State} (hA : 0x20010 &&& A = 0x20010) (hk : Keeps A z s) :
    KeepsOut A z (execFomRead agent lane s) := by
  unfold execFomRead
  repeat' first
    | with_reducible assumption
    | with_reducible apply KeepsOut.fault
    | with_reducible apply KeepsOut.next
    | (extract_lets +onlyGivenNames y; refine KeepsOut.cut (y := y) ?_ (fun hy => ?_) <;> [(unfold y; clear y); (clear_value y; rename' y => w)])
    | ((with_reducible refine Part.sub hA ?_); rfl)
    | (extract_lets +onlyGivenNames y; refine Keeps.cut (y := y) ?_ (fun hy => ?_) <;> [(unfold y; clear y); (clear_value y; rename' y => w)])
    | (extract_lets +onlyGivenNames y; clear_value y; rename' y => w)
    | (extract_lets +onlyGivenNames y; rename' y => w)
    | with_reducible apply State.modLane_keeps
    | with_reducible apply State.answer_keeps
    | split
    | dsimp -zeta only

theorem State.groupLeave_keeps {A : Nat} {z : State} {s : State} {g : Nat} (hA : 0xcc3da6cb65 &&& A = 0xcc3da6cb65) (hk : Keeps A z s) :
    Keeps A z (State.groupLeave s g) := by
  unfold State.groupLeave
  repeat' first
    | with_reducible assumption
    | ((with_reducible refine Part.sub hA ?_); rfl)
    | (extract_lets +onlyGivenNames y; refine Keeps.cut (y := y) ?_ (fun hy => ?_) <;> [(unfold y; clear y); (clear_value y; rename' y => w)])
    | (extract_lets +onlyGivenNames y; clear_value y; rename' y => w)
    | (extract_lets +onlyGivenNames y; rename' y => w)
    | with_reducible apply State.modPort_keeps
    | with_reducible apply State.portDown_keeps
    | (with_reducible apply Keeps.foldl; intro y b hy)
    | (with_reducible apply Keeps.foldl_fst; intro y b hy)
    | split
    | dsimp -zeta only

theorem State.clearGroupCounts_keeps {A : Nat} {z : State} {s : State} {g : Nat} (hA : 0x1 &&& A = 0x1) (hk : Keeps A z s) :
    Keeps A z (State.clearGroupCounts s g) := by
  unfold State.clearGroupCounts
  repeat' first
    | with_reducible assumption
    | ((with_reducible refine Part.sub hA ?_); rfl)
    | (extract_lets +onlyGivenNames y; refine Keeps.cut (y := y) ?_ (fun hy => ?_) <;> [(unfold y; clear y); (clear_value y; rename' y => w)])
    | (extract_lets +onlyGivenNames y; clear_value y; rename' y => w)
    | (extract_lets +onlyGivenNames y; rename' y => w)
    | with_reducible apply Keeps.filterRegs
    | with_reducible apply Keeps.filterMem
    | split
    | (with_reducible refine Keeps.change ?_ rfl rfl rfl rfl rfl rfl rfl rfl id ?_)
    | (intro p hp; cases p <;> first | exact Part.inside hA hp rfl | rfl)
    | dsimp -zeta only

theorem State.groupJoin_keeps {A : Nat} {z : State} {s : State} {g : Nat} (hA : 0x60021 &&& A = 0x60021) (hk : Keeps A z s) :
    Keeps A z (State.groupJoin s g) := by
  unfold State.groupJoin
  repeat' first
    | with_reducible assumption
    | ((with_reducible refine Part.sub hA ?_); rfl)
    | (extract_lets +onlyGivenNames y; refine Keeps.cut (y := y) ?_ (fun hy => ?_) <;> [(unfold y; clear y); (clear_value y; rename' y => w)])
    | (extract_lets +onlyGivenNames y; clear_value y; rename' y => w)
    | (extract_lets +onlyGivenNames y; rename' y => w)
    | with_reducible apply State.setLane_keeps
    | with_reducible apply State.setPort_keeps
    | with_reducible apply State.tryAttempt_keeps
    | with_reducible apply State.setLoop_keeps
    | with_reducible apply State.clearGroupCounts_keeps
    | (with_reducible apply Keeps.foldl; intro y b hy)
    | (with_reducible apply Keeps.foldl_fst; intro y b hy)
    | split
    | dsimp -zeta only

theorem State.groupRejoin_keeps {A : Nat} {z : State} {s : State} {g : Nat} (hA : 0x60001 &&& A = 0x60001) (hk : Keeps A z s) :
    Keeps A z (State.groupRejoin s g) := by
  unfold State.groupRejoin
  repeat' first
    | with_reducible assumption
    | ((with_reducible refine Part.sub hA ?_); rfl)
    | (extract_lets +onlyGivenNames y; refine Keeps.cut (y := y) ?_ (fun hy => ?_) <;> [(unfold y; clear y); (clear_value y; rename' y => w)])
    | (extract_lets +onlyGivenNames y; clear_value y; rename' y => w)
    | (extract_lets +onlyGivenNames y; rename' y => w)
    | with_reducible apply State.modPort_keeps
    | with_reducible apply State.tryAttempt_keeps
    | (with_reducible apply Keeps.foldl; intro y b hy)
    | (with_reducible apply Keeps.foldl_fst; intro y b hy)
    | split
    | dsimp -zeta only

theorem State.writeLaneCtrl_keeps {A : Nat} {z : State} {s : State} {l : Nat} {v : Word} (hA : 0x4000020020 &&& A = 0x4000020020) (hk : Keeps A z s) :
    Keeps A z (State.writeLaneCtrl s l v) := by
  unfold State.writeLaneCtrl
  repeat' first
    | with_reducible assumption
    | ((with_reducible refine Part.sub hA ?_); rfl)
    | (extract_lets +onlyGivenNames y; refine Keeps.cut (y := y) ?_ (fun hy => ?_) <;> [(unfold y; clear y); (clear_value y; rename' y => w)])
    | (extract_lets +onlyGivenNames y; clear_value y; rename' y => w)
    | (extract_lets +onlyGivenNames y; rename' y => w)
    | with_reducible apply State.modLane_keeps
    | with_reducible apply State.setLoop_keeps
    | with_reducible apply State.setPrbs_keeps
    | with_reducible apply State.loopRefused_keeps
    | split
    | dsimp -zeta only

theorem State.installLaneSettings_keeps {A : Nat} {z : State} {s : State} {g : Nat} {old new : List Byte} (hA : 0xcc3da6cb65 &&& A = 0xcc3da6cb65) (hk : Keeps A z s) :
    Keeps A z (State.installLaneSettings s g old new) := by
  unfold State.installLaneSettings
  repeat' first
    | with_reducible assumption
    | ((with_reducible refine Part.sub hA ?_); rfl)
    | (extract_lets +onlyGivenNames y; refine Keeps.cut (y := y) ?_ (fun hy => ?_) <;> [(unfold y; clear y); (clear_value y; rename' y => w)])
    | (extract_lets +onlyGivenNames y; clear_value y; rename' y => w)
    | (extract_lets +onlyGivenNames y; rename' y => w)
    | with_reducible apply State.modLane_keeps
    | with_reducible apply State.portLog_keeps
    | with_reducible apply State.aimTaps_keeps
    | with_reducible apply State.portDown_keeps
    | (with_reducible apply Keeps.foldl; intro y b hy)
    | (with_reducible apply Keeps.foldl_fst; intro y b hy)
    | split
    | dsimp -zeta only

end Sys2Proof.Machine
end

