-- ==== Sys2Proof/Laws/KeepHull.lean ====
section
/-!
SUPPORT. Keeps for the operations of Machine/Hull.lean.
-/

namespace Sys2Proof.Machine

theorem State.resetDevice_keeps {A : Nat} {z : State} {s : State} {kind : ResetKind} {rails : Nat} (hA : 0x2ffffffffff &&& A = 0x2ffffffffff) (h : Keeps A z s) :
    Keeps A z (State.resetDevice s kind rails) :=
  h.trans ⟨rfl, rfl, fun _ => rfl, Sparse.wf_filter _ _ _, fun _ => rfl, ⟨[], rfl⟩, Nat.le_refl _, fun d => (by rw [Part.has hA rfl] at d; cases d), fun d => (by rw [Part.has hA rfl] at d; cases d), by intro p hp; cases p <;> first | exact Part.inside hA hp rfl | rfl⟩

theorem State.interruptBootWrite_keeps {A : Nat} {z : State} {s : State} (hA : 0x1000 &&& A = 0x1000) (hk : Keeps A z s) :
    Keeps A z (State.interruptBootWrite s) := by
  unfold State.interruptBootWrite
  repeat' first
    | with_reducible assumption
    | ((with_reducible refine Part.sub hA ?_); rfl)
    | (extract_lets +onlyGivenNames y; refine Keeps.cut (y := y) ?_ (fun hy => ?_) <;> [(unfold y; clear y); (clear_value y; rename' y => w)])
    | (extract_lets +onlyGivenNames y; clear_value y; rename' y => w)
    | (extract_lets +onlyGivenNames y; rename' y => w)
    | with_reducible apply State.modIm_keeps
    | split
    | dsimp -zeta only

theorem State.hullLog_keeps {A : Nat} {z : State} {s : State} {c : FaultClass} {data : List Byte} {micros : Nat} (hA : 0x2000000000 &&& A = 0x2000000000) (hk : Keeps A z s) :
    Keeps A z (State.hullLog s c data micros) := by
  unfold State.hullLog
  repeat' first
    | with_reducible assumption
    | ((with_reducible refine Part.sub hA ?_); rfl)
    | (extract_lets +onlyGivenNames y; refine Keeps.cut (y := y) ?_ (fun hy => ?_) <;> [(unfold y; clear y); (clear_value y; rename' y => w)])
    | (extract_lets +onlyGivenNames y; clear_value y; rename' y => w)
    | (extract_lets +onlyGivenNames y; rename' y => w)
    | with_reducible apply State.modHull_keeps
    | split
    | dsimp -zeta only

theorem State.modFeed_keeps {A : Nat} {z : State} {s : State} {b : Bool} {f : Feed → Feed} (hA : 0x2000000000 &&& A = 0x2000000000) (hk : Keeps A z s) :
    Keeps A z (State.modFeed s b f) := by
  unfold State.modFeed
  repeat' first
    | with_reducible assumption
    | ((with_reducible refine Part.sub hA ?_); rfl)
    | (extract_lets +onlyGivenNames y; refine Keeps.cut (y := y) ?_ (fun hy => ?_) <;> [(unfold y; clear y); (clear_value y; rename' y => w)])
    | (extract_lets +onlyGivenNames y; clear_value y; rename' y => w)
    | (extract_lets +onlyGivenNames y; rename' y => w)
    | with_reducible apply State.modHull_keeps
    | split
    | dsimp -zeta only

theorem State.hullEvent_keeps {A : Nat} {z : State} {s : State} {mask : Nat} (hA : 0x4800000005 &&& A = 0x4800000005) (hk : Keeps A z s) :
    Keeps A z (State.hullEvent s mask) := by
  unfold State.hullEvent
  repeat' first
    | with_reducible assumption
    | ((with_reducible refine Part.sub hA ?_); rfl)
    | (extract_lets +onlyGivenNames y; refine Keeps.cut (y := y) ?_ (fun hy => ?_) <;> [(unfold y; clear y); (clear_value y; rename' y => w)])
    | (extract_lets +onlyGivenNames y; clear_value y; rename' y => w)
    | (extract_lets +onlyGivenNames y; rename' y => w)
    | with_reducible apply State.event_keeps
    | split
    | dsimp -zeta only

theorem State.openStage_keeps {A : Nat} {z : State} {s : State} {b : Bool} (hA : 0x6800000005 &&& A = 0x6800000005) (hk : Keeps A z s) :
    Keeps A z (State.openStage s b) := by
  unfold State.openStage
  repeat' first
    | with_reducible assumption
    | ((with_reducible refine Part.sub hA ?_); rfl)
    | (extract_lets +onlyGivenNames y; refine Keeps.cut (y := y) ?_ (fun hy => ?_) <;> [(unfold y; clear y); (clear_value y; rename' y => w)])
    | (extract_lets +onlyGivenNames y; clear_value y; rename' y => w)
    | (extract_lets +onlyGivenNames y; rename' y => w)
    | with_reducible apply State.log_keeps
    | with_reducible apply State.modFeed_keeps
    | with_reducible apply State.hullEvent_keeps
    | split
    | dsimp -zeta only

theorem execFeedClassChange_keeps {A : Nat} {z : State} {feedB : Bool} {millivolts : Nat} {s : State} (hA : 0x6800000005 &&& A = 0x6800000005) (hk : Keeps A z s) :
    KeepsOut A z (execFeedClassChange feedB millivolts s) := by
  unfold execFeedClassChange
  repeat' first
    | with_reducible assumption
    | with_reducible apply KeepsOut.fault
    | with_reducible apply KeepsOut.next
    | (extract_lets +onlyGivenNames y; refine KeepsOut.cut (y := y) ?_ (fun hy => ?_) <;> [(unfold y; clear y); (clear_value y; rename' y => w)])
    | ((with_reducible refine Part.sub hA ?_); rfl)
    | (extract_lets +onlyGivenNames y; refine Keeps.cut (y := y) ?_ (fun hy => ?_) <;> [(unfold y; clear y); (clear_value y; rename' y => w)])
    | (extract_lets +onlyGivenNames y; clear_value y; rename' y => w)
    | (extract_lets +onlyGivenNames y; rename' y => w)
    | with_reducible apply State.log_keeps
    | with_reducible apply State.modFeed_keeps
    | with_reducible apply State.hullEvent_keeps
    | with_reducible apply State.openStage_keeps
    | split
    | dsimp -zeta only

theorem execFeedOver_keeps {A : Nat} {z : State} {feedB : Bool} {millivolts : Nat} {s : State} (hA : 0x6800000005 &&& A = 0x6800000005) (hk : Keeps A z s) :
    KeepsOut A z (execFeedOver feedB millivolts s) := by
  unfold execFeedOver
  repeat' first
    | with_reducible assumption
    | with_reducible apply KeepsOut.fault
    | with_reducible apply KeepsOut.next
    | (extract_lets +onlyGivenNames y; refine KeepsOut.cut (y := y) ?_ (fun hy => ?_) <;> [(unfold y; clear y); (clear_value y; rename' y => w)])
    | ((with_reducible refine Part.sub hA ?_); rfl)
    | (extract_lets +onlyGivenNames y; refine Keeps.cut (y := y) ?_ (fun hy => ?_) <;> [(unfold y; clear y); (clear_value y; rename' y => w)])
    | (extract_lets +onlyGivenNames y; clear_value y; rename' y => w)
    | (extract_lets +onlyGivenNames y; rename' y => w)
    | with_reducible apply State.modFeed_keeps
    | with_reducible apply State.openStage_keeps
    | split
    | dsimp -zeta only

theorem execFeedHighTimeout_keeps {A : Nat} {z : State} {feedB : Bool} {s : State} (hA : 0x6800000005 &&& A = 0x6800000005) (hk : Keeps A z s) :
    KeepsOut A z (execFeedHighTimeout feedB s) := by
  unfold execFeedHighTimeout
  repeat' first
    | with_reducible assumption
    | with_reducible apply KeepsOut.fault
    | with_reducible apply KeepsOut.next
    | (extract_lets +onlyGivenNames y; refine KeepsOut.cut (y := y) ?_ (fun hy => ?_) <;> [(unfold y; clear y); (clear_value y; rename' y => w)])
    | ((with_reducible refine Part.sub hA ?_); rfl)
    | (extract_lets +onlyGivenNames y; refine Keeps.cut (y := y) ?_ (fun hy => ?_) <;> [(unfold y; clear y); (clear_value y; rename' y => w)])
    | (extract_lets +onlyGivenNames y; clear_value y; rename' y => w)
    | (extract_lets +onlyGivenNames y; rename' y => w)
    | with_reducible apply State.openStage_keeps
    | split
    | dsimp -zeta only

theorem execFeedStageClose_keeps {A : Nat} {z : State} {feedB : Bool} {s : State} (hA : 0x6800000005 &&& A = 0x6800000005) (hk : Keeps A z s) :
    KeepsOut A z (execFeedStageClose feedB s) := by
  unfold execFeedStageClose
  repeat' first
    | with_reducible assumption
    | with_reducible apply KeepsOut.fault
    | with_reducible apply KeepsOut.next
    | (extract_lets +onlyGivenNames y; refine KeepsOut.cut (y := y) ?_ (fun hy => ?_) <;> [(unfold y; clear y); (clear_value y; rename' y => w)])
    | ((with_reducible refine Part.sub hA ?_); rfl)
    | (extract_lets +onlyGivenNames y; refine Keeps.cut (y := y) ?_ (fun hy => ?_) <;> [(unfold y; clear y); (clear_value y; rename' y => w)])
    | (extract_lets +onlyGivenNames y; clear_value y; rename' y => w)
    | (extract_lets +onlyGivenNames y; rename' y => w)
    | with_reducible apply State.log_keeps
    | with_reducible apply State.modFeed_keeps
    | with_reducible apply State.hullEvent_keeps
    | split
    | dsimp -zeta only

theorem execHullLinkLost_keeps {A : Nat} {z : State} {s : State} (hA : 0x6800000005 &&& A = 0x6800000005) (hk : Keeps A z s) :
    KeepsOut A z (execHullLinkLost s) := by
  unfold execHullLinkLost
  repeat' first
    | with_reducible assumption
    | with_reducible apply KeepsOut.fault
    | with_reducible apply KeepsOut.next
    | (extract_lets +onlyGivenNames y; refine KeepsOut.cut (y := y) ?_ (fun hy => ?_) <;> [(unfold y; clear y); (clear_value y; rename' y => w)])
    | ((with_reducible refine Part.sub hA ?_); rfl)
    | (extract_lets +onlyGivenNames y; refine Keeps.cut (y := y) ?_ (fun hy => ?_) <;> [(unfold y; clear y); (clear_value y; rename' y => w)])
    | (extract_lets +onlyGivenNames y; clear_value y; rename' y => w)
    | (extract_lets +onlyGivenNames y; rename' y => w)
    | with_reducible apply State.modHull_keeps
    | with_reducible apply State.log_keeps
    | with_reducible apply State.hullEvent_keeps
    | split
    | dsimp -zeta only

theorem execHullLinkRestored_keeps {A : Nat} {z : State} {s : State} (hA : 0x6800000005 &&& A = 0x6800000005) (hk : Keeps A z s) :
    KeepsOut A z (execHullLinkRestored s) := by
  unfold execHullLinkRestored
  repeat' first
    | with_reducible assumption
    | with_reducible apply KeepsOut.fault
    | with_reducible apply KeepsOut.next
    | (extract_lets +onlyGivenNames y; refine KeepsOut.cut (y := y) ?_ (fun hy => ?_) <;> [(unfold y; clear y); (clear_value y; rename' y => w)])
    | ((with_reducible refine Part.sub hA ?_); rfl)
    | (extract_lets +onlyGivenNames y; refine Keeps.cut (y := y) ?_ (fun hy => ?_) <;> [(unfold y; clear y); (clear_value y; rename' y => w)])
    | (extract_lets +onlyGivenNames y; clear_value y; rename' y => w)
    | (extract_lets +onlyGivenNames y; rename' y => w)
    | with_reducible apply State.modHull_keeps
    | with_reducible apply State.log_keeps
    | with_reducible apply State.hullEvent_keeps
    | split
    | dsimp -zeta only

theorem State.startRails_keeps {A : Nat} {z : State} {s : State} (hA : 0x2000000000 &&& A = 0x2000000000) (hk : Keeps A z s) :
    Keeps A z (State.startRails s) := by
  unfold State.startRails
  repeat' first
    | with_reducible assumption
    | ((with_reducible refine Part.sub hA ?_); rfl)
    | (extract_lets +onlyGivenNames y; refine Keeps.cut (y := y) ?_ (fun hy => ?_) <;> [(unfold y; clear y); (clear_value y; rename' y => w)])
    | (extract_lets +onlyGivenNames y; clear_value y; rename' y => w)
    | (extract_lets +onlyGivenNames y; rename' y => w)
    | with_reducible apply State.modHull_keeps
    | split
    | dsimp -zeta only

theorem execRailStart_keeps {A : Nat} {z : State} {s : State} (hA : 0x2000000000 &&& A = 0x2000000000) (hk : Keeps A z s) :
    KeepsOut A z (execRailStart s) := by
  unfold execRailStart
  repeat' first
    | with_reducible assumption
    | with_reducible apply KeepsOut.fault
    | with_reducible apply KeepsOut.next
    | (extract_lets +onlyGivenNames y; refine KeepsOut.cut (y := y) ?_ (fun hy => ?_) <;> [(unfold y; clear y); (clear_value y; rename' y => w)])
    | ((with_reducible refine Part.sub hA ?_); rfl)
    | (extract_lets +onlyGivenNames y; refine Keeps.cut (y := y) ?_ (fun hy => ?_) <;> [(unfold y; clear y); (clear_value y; rename' y => w)])
    | (extract_lets +onlyGivenNames y; clear_value y; rename' y => w)
    | (extract_lets +onlyGivenNames y; rename' y => w)
    | with_reducible apply State.startRails_keeps
    | split
    | dsimp -zeta only

theorem execRailPowerGood_keeps {A : Nat} {z : State} {s : State} (hA : 0x2000000000 &&& A = 0x2000000000) (hk : Keeps A z s) :
    KeepsOut A z (execRailPowerGood s) := by
  unfold execRailPowerGood
  repeat' first
    | with_reducible assumption
    | with_reducible apply KeepsOut.fault
    | with_reducible apply KeepsOut.next
    | (extract_lets +onlyGivenNames y; refine KeepsOut.cut (y := y) ?_ (fun hy => ?_) <;> [(unfold y; clear y); (clear_value y; rename' y => w)])
    | ((with_reducible refine Part.sub hA ?_); rfl)
    | (extract_lets +onlyGivenNames y; refine Keeps.cut (y := y) ?_ (fun hy => ?_) <;> [(unfold y; clear y); (clear_value y; rename' y => w)])
    | (extract_lets +onlyGivenNames y; clear_value y; rename' y => w)
    | (extract_lets +onlyGivenNames y; rename' y => w)
    | with_reducible apply State.modHull_keeps
    | split
    | dsimp -zeta only

theorem execRailStartTimeout_keeps {A : Nat} {z : State} {s : State} (hA : 0x2ffffffffff &&& A = 0x2ffffffffff) (hk : Keeps A z s) :
    KeepsOut A z (execRailStartTimeout s) := by
  unfold execRailStartTimeout
  repeat' first
    | with_reducible assumption
    | with_reducible apply KeepsOut.fault
    | with_reducible apply KeepsOut.next
    | (extract_lets +onlyGivenNames y; refine KeepsOut.cut (y := y) ?_ (fun hy => ?_) <;> [(unfold y; clear y); (clear_value y; rename' y => w)])
    | ((with_reducible refine Part.sub hA ?_); rfl)
    | (extract_lets +onlyGivenNames y; refine Keeps.cut (y := y) ?_ (fun hy => ?_) <;> [(unfold y; clear y); (clear_value y; rename' y => w)])
    | (extract_lets +onlyGivenNames y; clear_value y; rename' y => w)
    | (extract_lets +onlyGivenNames y; rename' y => w)
    | with_reducible apply State.modHull_keeps
    | with_reducible apply State.resetDevice_keeps
    | with_reducible apply State.hullLog_keeps
    | split
    | dsimp -zeta only

theorem execRailRetry_keeps {A : Nat} {z : State} {s : State} (hA : 0x2000000000 &&& A = 0x2000000000) (hk : Keeps A z s) :
    KeepsOut A z (execRailRetry s) := by
  unfold execRailRetry
  repeat' first
    | with_reducible assumption
    | with_reducible apply KeepsOut.fault
    | with_reducible apply KeepsOut.next
    | (extract_lets +onlyGivenNames y; refine KeepsOut.cut (y := y) ?_ (fun hy => ?_) <;> [(unfold y; clear y); (clear_value y; rename' y => w)])
    | ((with_reducible refine Part.sub hA ?_); rfl)
    | (extract_lets +onlyGivenNames y; refine Keeps.cut (y := y) ?_ (fun hy => ?_) <;> [(unfold y; clear y); (clear_value y; rename' y => w)])
    | (extract_lets +onlyGivenNames y; clear_value y; rename' y => w)
    | (extract_lets +onlyGivenNames y; rename' y => w)
    | with_reducible apply State.modHull_keeps
    | with_reducible apply State.startRails_keeps
    | split
    | dsimp -zeta only

theorem execRailFault_keeps {A : Nat} {z : State} {rail : Fin 10} {millivolts : Nat} {s : State} (hA : 0x2ffffffffff &&& A = 0x2ffffffffff) (hk : Keeps A z s) :
    KeepsOut A z (execRailFault rail millivolts s) := by
  unfold execRailFault
  repeat' first
    | with_reducible assumption
    | with_reducible apply KeepsOut.fault
    | with_reducible apply KeepsOut.next
    | (extract_lets +onlyGivenNames y; refine KeepsOut.cut (y := y) ?_ (fun hy => ?_) <;> [(unfold y; clear y); (clear_value y; rename' y => w)])
    | ((with_reducible refine Part.sub hA ?_); rfl)
    | (extract_lets +onlyGivenNames y; refine Keeps.cut (y := y) ?_ (fun hy => ?_) <;> [(unfold y; clear y); (clear_value y; rename' y => w)])
    | (extract_lets +onlyGivenNames y; clear_value y; rename' y => w)
    | (extract_lets +onlyGivenNames y; rename' y => w)
    | with_reducible apply State.resetDevice_keeps
    | with_reducible apply State.interruptBootWrite_keeps
    | with_reducible apply State.hullLog_keeps
    | split
    | dsimp -zeta only

theorem State.countHalves_keeps {A : Nat} {z : State} {s : State} {a hi lo : Nat} (hA : 0x1 &&& A = 0x1) (hk : Keeps A z s) :
    Keeps A z (State.countHalves s a hi lo) := by
  unfold State.countHalves
  repeat' first
    | with_reducible assumption
    | ((with_reducible refine Part.sub hA ?_); rfl)
    | (extract_lets +onlyGivenNames y; refine Keeps.cut (y := y) ?_ (fun hy => ?_) <;> [(unfold y; clear y); (clear_value y; rename' y => w)])
    | (extract_lets +onlyGivenNames y; clear_value y; rename' y => w)
    | (extract_lets +onlyGivenNames y; rename' y => w)
    | with_reducible apply State.setReg_keeps
    | split
    | dsimp -zeta only

theorem State.warningBegins_keeps {A : Nat} {z : State} {s : State} (hA : 0x6c3da0d865 &&& A = 0x6c3da0d865) (hk : Keeps A z s) :
    Keeps A z (State.warningBegins s) := by
  unfold State.warningBegins
  repeat' first
    | with_reducible assumption
    | ((with_reducible refine Part.sub hA ?_); rfl)
    | (extract_lets +onlyGivenNames y; refine Keeps.cut (y := y) ?_ (fun hy => ?_) <;> [(unfold y; clear y); (clear_value y; rename' y => w)])
    | (extract_lets +onlyGivenNames y; clear_value y; rename' y => w)
    | (extract_lets +onlyGivenNames y; rename' y => w)
    | with_reducible apply State.modHull_keeps
    | with_reducible apply State.logOut_keeps
    | with_reducible apply State.recorderWarn_keeps
    | with_reducible apply State.allHarmless_keeps
    | with_reducible apply State.interruptBootWrite_keeps
    | with_reducible apply State.hullEvent_keeps
    | with_reducible apply State.countHalves_keeps
    | split
    | dsimp -zeta only

theorem execHullSag_keeps {A : Nat} {z : State} {vbus : Nat} {s : State} (hA : 0x6c3da0d865 &&& A = 0x6c3da0d865) (hk : Keeps A z s) :
    KeepsOut A z (execHullSag vbus s) := by
  unfold execHullSag
  repeat' first
    | with_reducible assumption
    | with_reducible apply KeepsOut.fault
    | with_reducible apply KeepsOut.next
    | (extract_lets +onlyGivenNames y; refine KeepsOut.cut (y := y) ?_ (fun hy => ?_) <;> [(unfold y; clear y); (clear_value y; rename' y => w)])
    | ((with_reducible refine Part.sub hA ?_); rfl)
    | (extract_lets +onlyGivenNames y; refine Keeps.cut (y := y) ?_ (fun hy => ?_) <;> [(unfold y; clear y); (clear_value y; rename' y => w)])
    | (extract_lets +onlyGivenNames y; clear_value y; rename' y => w)
    | (extract_lets +onlyGivenNames y; rename' y => w)
    | with_reducible apply State.modHull_keeps
    | with_reducible apply State.warningBegins_keeps
    | split
    | dsimp -zeta only

theorem execSagRelease_keeps {A : Nat} {z : State} {s : State} (hA : 0x6c00000005 &&& A = 0x6c00000005) (hk : Keeps A z s) :
    KeepsOut A z (execSagRelease s) := by
  unfold execSagRelease
  repeat' first
    | with_reducible assumption
    | with_reducible apply KeepsOut.fault
    | with_reducible apply KeepsOut.next
    | (extract_lets +onlyGivenNames y; refine KeepsOut.cut (y := y) ?_ (fun hy => ?_) <;> [(unfold y; clear y); (clear_value y; rename' y => w)])
    | ((with_reducible refine Part.sub hA ?_); rfl)
    | (extract_lets +onlyGivenNames y; refine Keeps.cut (y := y) ?_ (fun hy => ?_) <;> [(unfold y; clear y); (clear_value y; rename' y => w)])
    | (extract_lets +onlyGivenNames y; clear_value y; rename' y => w)
    | (extract_lets +onlyGivenNames y; rename' y => w)
    | with_reducible apply State.modHull_keeps
    | with_reducible apply State.log_keeps
    | with_reducible apply State.recorderResume_keeps
    | with_reducible apply State.hullEvent_keeps
    | split
    | dsimp -zeta only

theorem execSagHoldExpire_keeps {A : Nat} {z : State} {s : State} (hA : 0x6004800000 &&& A = 0x6004800000) (hk : Keeps A z s) :
    KeepsOut A z (execSagHoldExpire s) := by
  unfold execSagHoldExpire
  repeat' first
    | with_reducible assumption
    | with_reducible apply KeepsOut.fault
    | with_reducible apply KeepsOut.next
    | (extract_lets +onlyGivenNames y; refine KeepsOut.cut (y := y) ?_ (fun hy => ?_) <;> [(unfold y; clear y); (clear_value y; rename' y => w)])
    | ((with_reducible refine Part.sub hA ?_); rfl)
    | (extract_lets +onlyGivenNames y; refine Keeps.cut (y := y) ?_ (fun hy => ?_) <;> [(unfold y; clear y); (clear_value y; rename' y => w)])
    | (extract_lets +onlyGivenNames y; clear_value y; rename' y => w)
    | (extract_lets +onlyGivenNames y; rename' y => w)
    | with_reducible apply State.modHull_keeps
    | with_reducible apply State.allReturn_keeps
    | with_reducible apply State.clearCauseAll_keeps
    | split
    | dsimp -zeta only

theorem execVbusReset_keeps {A : Nat} {z : State} {s : State} (hA : 0x2ffffffffff &&& A = 0x2ffffffffff) (hk : Keeps A z s) :
    KeepsOut A z (execVbusReset s) := by
  unfold execVbusReset
  repeat' first
    | with_reducible assumption
    | with_reducible apply KeepsOut.fault
    | with_reducible apply KeepsOut.next
    | (extract_lets +onlyGivenNames y; refine KeepsOut.cut (y := y) ?_ (fun hy => ?_) <;> [(unfold y; clear y); (clear_value y; rename' y => w)])
    | ((with_reducible refine Part.sub hA ?_); rfl)
    | (extract_lets +onlyGivenNames y; refine Keeps.cut (y := y) ?_ (fun hy => ?_) <;> [(unfold y; clear y); (clear_value y; rename' y => w)])
    | (extract_lets +onlyGivenNames y; clear_value y; rename' y => w)
    | (extract_lets +onlyGivenNames y; rename' y => w)
    | with_reducible apply State.modHull_keeps
    | with_reducible apply State.resetDevice_keeps
    | with_reducible apply State.interruptBootWrite_keeps
    | with_reducible apply State.hullLog_keeps
    | with_reducible apply State.countHalves_keeps
    | split
    | dsimp -zeta only

theorem execVbusResetRelease_keeps {A : Nat} {z : State} {s : State} (hA : 0x2000000000 &&& A = 0x2000000000) (hk : Keeps A z s) :
    KeepsOut A z (execVbusResetRelease s) := by
  unfold execVbusResetRelease
  repeat' first
    | with_reducible assumption
    | with_reducible apply KeepsOut.fault
    | with_reducible apply KeepsOut.next
    | (extract_lets +onlyGivenNames y; refine KeepsOut.cut (y := y) ?_ (fun hy => ?_) <;> [(unfold y; clear y); (clear_value y; rename' y => w)])
    | ((with_reducible refine Part.sub hA ?_); rfl)
    | (extract_lets +onlyGivenNames y; refine Keeps.cut (y := y) ?_ (fun hy => ?_) <;> [(unfold y; clear y); (clear_value y; rename' y => w)])
    | (extract_lets +onlyGivenNames y; clear_value y; rename' y => w)
    | (extract_lets +onlyGivenNames y; rename' y => w)
    | with_reducible apply State.modHull_keeps
    | split
    | dsimp -zeta only

theorem execVbusBelow18v_keeps {A : Nat} {z : State} {s : State} (hA : 0x2ffffffffff &&& A = 0x2ffffffffff) (hk : Keeps A z s) :
    KeepsOut A z (execVbusBelow18v s) := by
  unfold execVbusBelow18v
  repeat' first
    | with_reducible assumption
    | with_reducible apply KeepsOut.fault
    | with_reducible apply KeepsOut.next
    | (extract_lets +onlyGivenNames y; refine KeepsOut.cut (y := y) ?_ (fun hy => ?_) <;> [(unfold y; clear y); (clear_value y; rename' y => w)])
    | ((with_reducible refine Part.sub hA ?_); rfl)
    | (extract_lets +onlyGivenNames y; refine Keeps.cut (y := y) ?_ (fun hy => ?_) <;> [(unfold y; clear y); (clear_value y; rename' y => w)])
    | (extract_lets +onlyGivenNames y; clear_value y; rename' y => w)
    | (extract_lets +onlyGivenNames y; rename' y => w)
    | with_reducible apply State.modHull_keeps
    | with_reducible apply State.resetDevice_keeps
    | with_reducible apply State.interruptBootWrite_keeps
    | split
    | dsimp -zeta only

theorem execHullPowerUp_keeps {A : Nat} {z : State} {s : State} (hA : 0x2ffffffffff &&& A = 0x2ffffffffff) (hk : Keeps A z s) :
    KeepsOut A z (execHullPowerUp s) := by
  unfold execHullPowerUp
  repeat' first
    | with_reducible assumption
    | with_reducible apply KeepsOut.fault
    | with_reducible apply KeepsOut.next
    | (extract_lets +onlyGivenNames y; refine KeepsOut.cut (y := y) ?_ (fun hy => ?_) <;> [(unfold y; clear y); (clear_value y; rename' y => w)])
    | ((with_reducible refine Part.sub hA ?_); rfl)
    | (extract_lets +onlyGivenNames y; refine Keeps.cut (y := y) ?_ (fun hy => ?_) <;> [(unfold y; clear y); (clear_value y; rename' y => w)])
    | (extract_lets +onlyGivenNames y; clear_value y; rename' y => w)
    | (extract_lets +onlyGivenNames y; rename' y => w)
    | with_reducible apply State.modHull_keeps
    | with_reducible apply State.resetDevice_keeps
    | split
    | dsimp -zeta only

theorem State.powerRefused_keeps {A : Nat} {z : State} {s : State} {req reason : Nat} (hA : 0x4000000000 &&& A = 0x4000000000) (hk : Keeps A z s) :
    Keeps A z (State.powerRefused s req reason) := by
  unfold State.powerRefused
  repeat' first
    | with_reducible assumption
    | ((with_reducible refine Part.sub hA ?_); rfl)
    | (extract_lets +onlyGivenNames y; refine Keeps.cut (y := y) ?_ (fun hy => ?_) <;> [(unfold y; clear y); (clear_value y; rename' y => w)])
    | (extract_lets +onlyGivenNames y; clear_value y; rename' y => w)
    | (extract_lets +onlyGivenNames y; rename' y => w)
    | with_reducible apply State.log_keeps
    | split
    | dsimp -zeta only

theorem State.powerState_keeps {A : Nat} {z : State} {s : State} {new : PowerState} {wake : Nat} (hA : 0x6800000005 &&& A = 0x6800000005) (hk : Keeps A z s) :
    Keeps A z (State.powerState s new wake) := by
  unfold State.powerState
  repeat' first
    | with_reducible assumption
    | ((with_reducible refine Part.sub hA ?_); rfl)
    | (extract_lets +onlyGivenNames y; refine Keeps.cut (y := y) ?_ (fun hy => ?_) <;> [(unfold y; clear y); (clear_value y; rename' y => w)])
    | (extract_lets +onlyGivenNames y; clear_value y; rename' y => w)
    | (extract_lets +onlyGivenNames y; rename' y => w)
    | with_reducible apply State.modHull_keeps
    | with_reducible apply State.log_keeps
    | with_reducible apply State.hullEvent_keeps
    | split
    | dsimp -zeta only

theorem State.leaveKeep_keeps {A : Nat} {z : State} {s : State} (hA : 0x2005808000 &&& A = 0x2005808000) (hk : Keeps A z s) :
    Keeps A z (State.leaveKeep s) := by
  unfold State.leaveKeep
  repeat' first
    | with_reducible assumption
    | ((with_reducible refine Part.sub hA ?_); rfl)
    | (extract_lets +onlyGivenNames y; refine Keeps.cut (y := y) ?_ (fun hy => ?_) <;> [(unfold y; clear y); (clear_value y; rename' y => w)])
    | (extract_lets +onlyGivenNames y; clear_value y; rename' y => w)
    | (extract_lets +onlyGivenNames y; rename' y => w)
    | with_reducible apply State.modHull_keeps
    | with_reducible apply State.ungateCause_keeps
    | with_reducible apply State.allReturn_keeps
    | split
    | dsimp -zeta only

theorem execPowerReqRun_keeps {A : Nat} {z : State} {agent : Agent} {s : State} (hA : 0x6805808005 &&& A = 0x6805808005) (hk : Keeps A z s) :
    KeepsOut A z (execPowerReqRun agent s) := by
  unfold execPowerReqRun
  repeat' first
    | with_reducible assumption
    | with_reducible apply KeepsOut.fault
    | with_reducible apply KeepsOut.next
    | (extract_lets +onlyGivenNames y; refine KeepsOut.cut (y := y) ?_ (fun hy => ?_) <;> [(unfold y; clear y); (clear_value y; rename' y => w)])
    | ((with_reducible refine Part.sub hA ?_); rfl)
    | (extract_lets +onlyGivenNames y; refine Keeps.cut (y := y) ?_ (fun hy => ?_) <;> [(unfold y; clear y); (clear_value y; rename' y => w)])
    | (extract_lets +onlyGivenNames y; clear_value y; rename' y => w)
    | (extract_lets +onlyGivenNames y; rename' y => w)
    | with_reducible apply State.ungateCause_keeps
    | with_reducible apply State.powerRefused_keeps
    | with_reducible apply State.powerState_keeps
    | with_reducible apply State.leaveKeep_keeps
    | split
    | dsimp -zeta only

theorem execPowerReqTrim_keeps {A : Nat} {z : State} {agent : Agent} {s : State} (hA : 0x6805808005 &&& A = 0x6805808005) (hk : Keeps A z s) :
    KeepsOut A z (execPowerReqTrim agent s) := by
  unfold execPowerReqTrim
  repeat' first
    | with_reducible assumption
    | with_reducible apply KeepsOut.fault
    | with_reducible apply KeepsOut.next
    | (extract_lets +onlyGivenNames y; refine KeepsOut.cut (y := y) ?_ (fun hy => ?_) <;> [(unfold y; clear y); (clear_value y; rename' y => w)])
    | ((with_reducible refine Part.sub hA ?_); rfl)
    | (extract_lets +onlyGivenNames y; refine Keeps.cut (y := y) ?_ (fun hy => ?_) <;> [(unfold y; clear y); (clear_value y; rename' y => w)])
    | (extract_lets +onlyGivenNames y; clear_value y; rename' y => w)
    | (extract_lets +onlyGivenNames y; rename' y => w)
    | with_reducible apply State.gateUnused_keeps
    | with_reducible apply State.powerRefused_keeps
    | with_reducible apply State.powerState_keeps
    | with_reducible apply State.leaveKeep_keeps
    | split
    | dsimp -zeta only

theorem State.keepBegins_keeps {A : Nat} {z : State} {s : State} (hA : 0x6c3da0c865 &&& A = 0x6c3da0c865) (hk : Keeps A z s) :
    Keeps A z (State.keepBegins s) := by
  unfold State.keepBegins
  repeat' first
    | with_reducible assumption
    | ((with_reducible refine Part.sub hA ?_); rfl)
    | (extract_lets +onlyGivenNames y; refine Keeps.cut (y := y) ?_ (fun hy => ?_) <;> [(unfold y; clear y); (clear_value y; rename' y => w)])
    | (extract_lets +onlyGivenNames y; clear_value y; rename' y => w)
    | (extract_lets +onlyGivenNames y; rename' y => w)
    | with_reducible apply State.modHull_keeps
    | with_reducible apply State.allHarmless_keeps
    | split
    | dsimp -zeta only

theorem execPowerReqKeep_keeps {A : Nat} {z : State} {agent : Agent} {confirm : BitVec 16} {s : State} (hA : 0x6c3da0c865 &&& A = 0x6c3da0c865) (hk : Keeps A z s) :
    KeepsOut A z (execPowerReqKeep agent confirm s) := by
  unfold execPowerReqKeep
  repeat' first
    | with_reducible assumption
    | with_reducible apply KeepsOut.fault
    | with_reducible apply KeepsOut.next
    | (extract_lets +onlyGivenNames y; refine KeepsOut.cut (y := y) ?_ (fun hy => ?_) <;> [(unfold y; clear y); (clear_value y; rename' y => w)])
    | ((with_reducible refine Part.sub hA ?_); rfl)
    | (extract_lets +onlyGivenNames y; refine Keeps.cut (y := y) ?_ (fun hy => ?_) <;> [(unfold y; clear y); (clear_value y; rename' y => w)])
    | (extract_lets +onlyGivenNames y; clear_value y; rename' y => w)
    | (extract_lets +onlyGivenNames y; rename' y => w)
    | with_reducible apply State.powerRefused_keeps
    | with_reducible apply State.powerState_keeps
    | with_reducible apply State.keepBegins_keeps
    | split
    | dsimp -zeta only

theorem execPowerReqOff_keeps {A : Nat} {z : State} {agent : Agent} {confirm : BitVec 16} {wake : Nat} {s : State} (hA : 0x6c3da0c865 &&& A = 0x6c3da0c865) (hk : Keeps A z s) :
    KeepsOut A z (execPowerReqOff agent confirm wake s) := by
  unfold execPowerReqOff
  repeat' first
    | with_reducible assumption
    | with_reducible apply KeepsOut.fault
    | with_reducible apply KeepsOut.next
    | (extract_lets +onlyGivenNames y; refine KeepsOut.cut (y := y) ?_ (fun hy => ?_) <;> [(unfold y; clear y); (clear_value y; rename' y => w)])
    | ((with_reducible refine Part.sub hA ?_); rfl)
    | (extract_lets +onlyGivenNames y; refine Keeps.cut (y := y) ?_ (fun hy => ?_) <;> [(unfold y; clear y); (clear_value y; rename' y => w)])
    | (extract_lets +onlyGivenNames y; clear_value y; rename' y => w)
    | (extract_lets +onlyGivenNames y; rename' y => w)
    | with_reducible apply State.modHull_keeps
    | with_reducible apply State.sealWheel_keeps
    | with_reducible apply State.powerRefused_keeps
    | with_reducible apply State.powerState_keeps
    | with_reducible apply State.keepBegins_keeps
    | split
    | dsimp -zeta only

theorem execKeepGate_keeps {A : Nat} {z : State} {s : State} (hA : 0x2ffffffffff &&& A = 0x2ffffffffff) (hk : Keeps A z s) :
    KeepsOut A z (execKeepGate s) := by
  unfold execKeepGate
  repeat' first
    | with_reducible assumption
    | with_reducible apply KeepsOut.fault
    | with_reducible apply KeepsOut.next
    | (extract_lets +onlyGivenNames y; refine KeepsOut.cut (y := y) ?_ (fun hy => ?_) <;> [(unfold y; clear y); (clear_value y; rename' y => w)])
    | ((with_reducible refine Part.sub hA ?_); rfl)
    | (extract_lets +onlyGivenNames y; refine Keeps.cut (y := y) ?_ (fun hy => ?_) <;> [(unfold y; clear y); (clear_value y; rename' y => w)])
    | (extract_lets +onlyGivenNames y; clear_value y; rename' y => w)
    | (extract_lets +onlyGivenNames y; rename' y => w)
    | with_reducible apply State.modHull_keeps
    | with_reducible apply State.modStartup_keeps
    | (with_reducible intro c hc; first | exact hc | (dsimp only; omega))
    | with_reducible apply State.gate_keeps
    | with_reducible apply State.groupLeave_keeps
    | with_reducible apply State.resetDevice_keeps
    | with_reducible apply State.interruptBootWrite_keeps
    | with_reducible apply State.hullLog_keeps
    | (with_reducible apply Keeps.foldl; intro y b hy)
    | (with_reducible apply Keeps.foldl_fst; intro y b hy)
    | split
    | (with_reducible refine Keeps.change ?_ rfl rfl rfl rfl rfl rfl rfl rfl id ?_)
    | (intro p hp; cases p <;> first | exact Part.inside hA hp rfl | rfl)
    | dsimp -zeta only

theorem execWakeTimer_keeps {A : Nat} {z : State} {s : State} (hA : 0xa000000000 &&& A = 0xa000000000) (hk : Keeps A z s) :
    KeepsOut A z (execWakeTimer s) := by
  unfold execWakeTimer
  repeat' first
    | with_reducible assumption
    | with_reducible apply KeepsOut.fault
    | with_reducible apply KeepsOut.next
    | (extract_lets +onlyGivenNames y; refine KeepsOut.cut (y := y) ?_ (fun hy => ?_) <;> [(unfold y; clear y); (clear_value y; rename' y => w)])
    | ((with_reducible refine Part.sub hA ?_); rfl)
    | (extract_lets +onlyGivenNames y; refine Keeps.cut (y := y) ?_ (fun hy => ?_) <;> [(unfold y; clear y); (clear_value y; rename' y => w)])
    | (extract_lets +onlyGivenNames y; clear_value y; rename' y => w)
    | (extract_lets +onlyGivenNames y; rename' y => w)
    | with_reducible apply State.modHull_keeps
    | with_reducible apply State.modStartup_keeps
    | (with_reducible intro c hc; first | exact hc | (dsimp only; omega))
    | with_reducible apply State.startRails_keeps
    | split
    | dsimp -zeta only

theorem State.sensorFailed_keeps {A : Nat} {z : State} {s : State} {d sensor : Nat} {v : Int} (hA : 0x4800000005 &&& A = 0x4800000005) (hk : Keeps A z s) :
    Keeps A z (State.sensorFailed s d sensor v) := by
  unfold State.sensorFailed
  repeat' first
    | with_reducible assumption
    | ((with_reducible refine Part.sub hA ?_); rfl)
    | (extract_lets +onlyGivenNames y; refine Keeps.cut (y := y) ?_ (fun hy => ?_) <;> [(unfold y; clear y); (clear_value y; rename' y => w)])
    | (extract_lets +onlyGivenNames y; clear_value y; rename' y => w)
    | (extract_lets +onlyGivenNames y; rename' y => w)
    | with_reducible apply State.log_keeps
    | with_reducible apply State.hullEvent_keeps
    | split
    | dsimp -zeta only

theorem execThermSample_keeps {A : Nat} {z : State} {readings : List DomainTemp} {s : State} (hA : 0x6800000005 &&& A = 0x6800000005) (hk : Keeps A z s) :
    KeepsOut A z (execThermSample readings s) := by
  unfold execThermSample
  repeat' first
    | with_reducible assumption
    | with_reducible apply KeepsOut.fault
    | with_reducible apply KeepsOut.next
    | (extract_lets +onlyGivenNames y; refine KeepsOut.cut (y := y) ?_ (fun hy => ?_) <;> [(unfold y; clear y); (clear_value y; rename' y => w)])
    | ((with_reducible refine Part.sub hA ?_); rfl)
    | (extract_lets +onlyGivenNames y; refine Keeps.cut (y := y) ?_ (fun hy => ?_) <;> [(unfold y; clear y); (clear_value y; rename' y => w)])
    | (extract_lets +onlyGivenNames y; clear_value y; rename' y => w)
    | (extract_lets +onlyGivenNames y; rename' y => w)
    | with_reducible apply State.setDomTemp_keeps
    | with_reducible apply State.modHull_keeps
    | with_reducible apply State.log_keeps
    | with_reducible apply State.clearSafe_keeps
    | with_reducible apply State.hullEvent_keeps
    | with_reducible apply State.countHalves_keeps
    | with_reducible apply State.sensorFailed_keeps
    | (with_reducible apply Keeps.foldl; intro y b hy)
    | (with_reducible apply Keeps.foldl_fst; intro y b hy)
    | split
    | dsimp -zeta only

theorem execThermTrip_keeps {A : Nat} {z : State} {s : State} (hA : 0x2ffffffffff &&& A = 0x2ffffffffff) (hk : Keeps A z s) :
    KeepsOut A z (execThermTrip s) := by
  unfold execThermTrip
  repeat' first
    | with_reducible assumption
    | with_reducible apply KeepsOut.fault
    | with_reducible apply KeepsOut.next
    | (extract_lets +onlyGivenNames y; refine KeepsOut.cut (y := y) ?_ (fun hy => ?_) <;> [(unfold y; clear y); (clear_value y; rename' y => w)])
    | ((with_reducible refine Part.sub hA ?_); rfl)
    | (extract_lets +onlyGivenNames y; refine Keeps.cut (y := y) ?_ (fun hy => ?_) <;> [(unfold y; clear y); (clear_value y; rename' y => w)])
    | (extract_lets +onlyGivenNames y; clear_value y; rename' y => w)
    | (extract_lets +onlyGivenNames y; rename' y => w)
    | with_reducible apply State.modHull_keeps
    | with_reducible apply State.resetDevice_keeps
    | with_reducible apply State.interruptBootWrite_keeps
    | with_reducible apply State.hullLog_keeps
    | with_reducible apply State.countHalves_keeps
    | split
    | dsimp -zeta only

theorem execTripCooled_keeps {A : Nat} {z : State} {s : State} (hA : 0x2000000000 &&& A = 0x2000000000) (hk : Keeps A z s) :
    KeepsOut A z (execTripCooled s) := by
  unfold execTripCooled
  repeat' first
    | with_reducible assumption
    | with_reducible apply KeepsOut.fault
    | with_reducible apply KeepsOut.next
    | (extract_lets +onlyGivenNames y; refine KeepsOut.cut (y := y) ?_ (fun hy => ?_) <;> [(unfold y; clear y); (clear_value y; rename' y => w)])
    | ((with_reducible refine Part.sub hA ?_); rfl)
    | (extract_lets +onlyGivenNames y; refine Keeps.cut (y := y) ?_ (fun hy => ?_) <;> [(unfold y; clear y); (clear_value y; rename' y => w)])
    | (extract_lets +onlyGivenNames y; clear_value y; rename' y => w)
    | (extract_lets +onlyGivenNames y; rename' y => w)
    | with_reducible apply State.modHull_keeps
    | with_reducible apply State.startRails_keeps
    | split
    | dsimp -zeta only

theorem execTelemetryRefresh_keeps {A : Nat} {z : State} {telemetry : Telemetry} {s : State} (hA : 0x2000000000 &&& A = 0x2000000000) (hk : Keeps A z s) :
    KeepsOut A z (execTelemetryRefresh telemetry s) := by
  unfold execTelemetryRefresh
  repeat' first
    | with_reducible assumption
    | with_reducible apply KeepsOut.fault
    | with_reducible apply KeepsOut.next
    | (extract_lets +onlyGivenNames y; refine KeepsOut.cut (y := y) ?_ (fun hy => ?_) <;> [(unfold y; clear y); (clear_value y; rename' y => w)])
    | ((with_reducible refine Part.sub hA ?_); rfl)
    | (extract_lets +onlyGivenNames y; refine Keeps.cut (y := y) ?_ (fun hy => ?_) <;> [(unfold y; clear y); (clear_value y; rename' y => w)])
    | (extract_lets +onlyGivenNames y; clear_value y; rename' y => w)
    | (extract_lets +onlyGivenNames y; rename' y => w)
    | with_reducible apply State.modHull_keeps
    | split
    | dsimp -zeta only

theorem execHullAlive_keeps {A : Nat} {z : State} {s : State} (hA : 0x2000001000 &&& A = 0x2000001000) (hk : Keeps A z s) :
    KeepsOut A z (execHullAlive s) := by
  unfold execHullAlive
  repeat' first
    | with_reducible assumption
    | with_reducible apply KeepsOut.fault
    | with_reducible apply KeepsOut.next
    | (extract_lets +onlyGivenNames y; refine KeepsOut.cut (y := y) ?_ (fun hy => ?_) <;> [(unfold y; clear y); (clear_value y; rename' y => w)])
    | ((with_reducible refine Part.sub hA ?_); rfl)
    | (extract_lets +onlyGivenNames y; refine Keeps.cut (y := y) ?_ (fun hy => ?_) <;> [(unfold y; clear y); (clear_value y; rename' y => w)])
    | (extract_lets +onlyGivenNames y; clear_value y; rename' y => w)
    | (extract_lets +onlyGivenNames y; rename' y => w)
    | with_reducible apply State.modHull_keeps
    | with_reducible apply State.fwAlive_keeps
    | split
    | dsimp -zeta only

end Sys2Proof.Machine
end

