-- ==== Sys2Proof/Laws/KeepImage.lean ====
section
/-!
SUPPORT. Keeps for the operations of Machine/Image.lean.
-/

namespace Sys2Proof.Machine

theorem State.modImgSlot_keeps {A : Nat} {z : State} {s : State} {n : Nat} {f : Slot → Slot} (hA : 0x1000 &&& A = 0x1000) (hk : Keeps A z s) :
    Keeps A z (State.modImgSlot s n f) := by
  unfold State.modImgSlot
  repeat' first
    | with_reducible assumption
    | ((with_reducible refine Part.sub hA ?_); rfl)
    | (extract_lets +onlyGivenNames y; refine Keeps.cut (y := y) ?_ (fun hy => ?_) <;> [(unfold y; clear y); (clear_value y; rename' y => w)])
    | (extract_lets +onlyGivenNames y; clear_value y; rename' y => w)
    | (extract_lets +onlyGivenNames y; rename' y => w)
    | with_reducible apply State.modIm_keeps
    | split
    | dsimp -zeta only

theorem State.slotBusy_keeps {A : Nat} {z : State} {s : State} {n : Nat} (hA : 0x4000000000 &&& A = 0x4000000000) (hk : Keeps A z s) :
    Keeps A z (State.slotBusy s n) := by
  unfold State.slotBusy
  repeat' first
    | with_reducible assumption
    | ((with_reducible refine Part.sub hA ?_); rfl)
    | (extract_lets +onlyGivenNames y; refine Keeps.cut (y := y) ?_ (fun hy => ?_) <;> [(unfold y; clear y); (clear_value y; rename' y => w)])
    | (extract_lets +onlyGivenNames y; clear_value y; rename' y => w)
    | (extract_lets +onlyGivenNames y; rename' y => w)
    | with_reducible apply State.log_keeps
    | split
    | dsimp -zeta only

theorem execSlotCheck_keeps {A : Nat} {z : State} {agent : Agent} {slot : Fin 2} {s : State} (hA : 0x4000001000 &&& A = 0x4000001000) (hk : Keeps A z s) :
    KeepsOut A z (execSlotCheck agent slot s) := by
  unfold execSlotCheck
  repeat' first
    | with_reducible assumption
    | with_reducible apply KeepsOut.fault
    | with_reducible apply KeepsOut.next
    | (extract_lets +onlyGivenNames y; refine KeepsOut.cut (y := y) ?_ (fun hy => ?_) <;> [(unfold y; clear y); (clear_value y; rename' y => w)])
    | ((with_reducible refine Part.sub hA ?_); rfl)
    | (extract_lets +onlyGivenNames y; refine Keeps.cut (y := y) ?_ (fun hy => ?_) <;> [(unfold y; clear y); (clear_value y; rename' y => w)])
    | (extract_lets +onlyGivenNames y; clear_value y; rename' y => w)
    | (extract_lets +onlyGivenNames y; rename' y => w)
    | with_reducible apply State.modImgSlot_keeps
    | with_reducible apply State.slotBusy_keeps
    | split
    | dsimp -zeta only

theorem execValidationDone_keeps {A : Nat} {z : State} {slot : Fin 2} {s : State} (hA : 0x4800001005 &&& A = 0x4800001005) (hk : Keeps A z s) :
    KeepsOut A z (execValidationDone slot s) := by
  unfold execValidationDone
  repeat' first
    | with_reducible assumption
    | with_reducible apply KeepsOut.fault
    | with_reducible apply KeepsOut.next
    | (extract_lets +onlyGivenNames y; refine KeepsOut.cut (y := y) ?_ (fun hy => ?_) <;> [(unfold y; clear y); (clear_value y; rename' y => w)])
    | ((with_reducible refine Part.sub hA ?_); rfl)
    | (extract_lets +onlyGivenNames y; refine Keeps.cut (y := y) ?_ (fun hy => ?_) <;> [(unfold y; clear y); (clear_value y; rename' y => w)])
    | (extract_lets +onlyGivenNames y; clear_value y; rename' y => w)
    | (extract_lets +onlyGivenNames y; rename' y => w)
    | with_reducible apply State.log_keeps
    | with_reducible apply State.event_keeps
    | with_reducible apply State.modImgSlot_keeps
    | split
    | dsimp -zeta only

theorem execSlotCtrlClear_keeps {A : Nat} {z : State} {agent : Agent} {slot : Fin 2} {s : State} (hA : 0x4000001000 &&& A = 0x4000001000) (hk : Keeps A z s) :
    KeepsOut A z (execSlotCtrlClear agent slot s) := by
  unfold execSlotCtrlClear
  repeat' first
    | with_reducible assumption
    | with_reducible apply KeepsOut.fault
    | with_reducible apply KeepsOut.next
    | (extract_lets +onlyGivenNames y; refine KeepsOut.cut (y := y) ?_ (fun hy => ?_) <;> [(unfold y; clear y); (clear_value y; rename' y => w)])
    | ((with_reducible refine Part.sub hA ?_); rfl)
    | (extract_lets +onlyGivenNames y; refine Keeps.cut (y := y) ?_ (fun hy => ?_) <;> [(unfold y; clear y); (clear_value y; rename' y => w)])
    | (extract_lets +onlyGivenNames y; clear_value y; rename' y => w)
    | (extract_lets +onlyGivenNames y; rename' y => w)
    | with_reducible apply State.modImgSlot_keeps
    | with_reducible apply State.slotBusy_keeps
    | split
    | dsimp -zeta only

theorem execFloorRaise_keeps {A : Nat} {z : State} {agent : Agent} {value : Word} {s : State} (hA : 0x4000001000 &&& A = 0x4000001000) (hk : Keeps A z s) :
    KeepsOut A z (execFloorRaise agent value s) := by
  unfold execFloorRaise
  repeat' first
    | with_reducible assumption
    | with_reducible apply KeepsOut.fault
    | with_reducible apply KeepsOut.next
    | (extract_lets +onlyGivenNames y; refine KeepsOut.cut (y := y) ?_ (fun hy => ?_) <;> [(unfold y; clear y); (clear_value y; rename' y => w)])
    | ((with_reducible refine Part.sub hA ?_); rfl)
    | (extract_lets +onlyGivenNames y; refine Keeps.cut (y := y) ?_ (fun hy => ?_) <;> [(unfold y; clear y); (clear_value y; rename' y => w)])
    | (extract_lets +onlyGivenNames y; clear_value y; rename' y => w)
    | (extract_lets +onlyGivenNames y; rename' y => w)
    | with_reducible apply State.modIm_keeps
    | with_reducible apply State.log_keeps
    | split
    | dsimp -zeta only

theorem execStagedWrite_keeps {A : Nat} {z : State} {session : Fin 8} {addr : Nat} {value : Word} {s : State} (hA : 0x5000000000 &&& A = 0x5000000000) (hk : Keeps A z s) :
    KeepsOut A z (execStagedWrite session addr value s) := by
  unfold execStagedWrite
  repeat' first
    | with_reducible assumption
    | with_reducible apply KeepsOut.fault
    | with_reducible apply KeepsOut.next
    | (extract_lets +onlyGivenNames y; refine KeepsOut.cut (y := y) ?_ (fun hy => ?_) <;> [(unfold y; clear y); (clear_value y; rename' y => w)])
    | ((with_reducible refine Part.sub hA ?_); rfl)
    | (extract_lets +onlyGivenNames y; refine Keeps.cut (y := y) ?_ (fun hy => ?_) <;> [(unfold y; clear y); (clear_value y; rename' y => w)])
    | (extract_lets +onlyGivenNames y; clear_value y; rename' y => w)
    | (extract_lets +onlyGivenNames y; rename' y => w)
    | with_reducible apply State.modSession_keeps
    | with_reducible apply State.log_keeps
    | split
    | dsimp -zeta only

theorem State.modBankState_keeps {A : Nat} {z : State} {s : State} {b : Bool} {f : BootBank → BootBank} (hA : 0x1000 &&& A = 0x1000) (hk : Keeps A z s) :
    Keeps A z (State.modBankState s b f) := by
  unfold State.modBankState
  repeat' first
    | with_reducible assumption
    | ((with_reducible refine Part.sub hA ?_); rfl)
    | (extract_lets +onlyGivenNames y; refine Keeps.cut (y := y) ?_ (fun hy => ?_) <;> [(unfold y; clear y); (clear_value y; rename' y => w)])
    | (extract_lets +onlyGivenNames y; clear_value y; rename' y => w)
    | (extract_lets +onlyGivenNames y; rename' y => w)
    | with_reducible apply State.modIm_keeps
    | split
    | dsimp -zeta only

theorem State.bootBusy_keeps {A : Nat} {z : State} {s : State} {b : Bool} (hA : 0x4000000000 &&& A = 0x4000000000) (hk : Keeps A z s) :
    Keeps A z (State.bootBusy s b) := by
  unfold State.bootBusy
  repeat' first
    | with_reducible assumption
    | ((with_reducible refine Part.sub hA ?_); rfl)
    | (extract_lets +onlyGivenNames y; refine Keeps.cut (y := y) ?_ (fun hy => ?_) <;> [(unfold y; clear y); (clear_value y; rename' y => w)])
    | (extract_lets +onlyGivenNames y; clear_value y; rename' y => w)
    | (extract_lets +onlyGivenNames y; rename' y => w)
    | with_reducible apply State.log_keeps
    | split
    | dsimp -zeta only

theorem State.bootFail_keeps {A : Nat} {z : State} {s : State} {b : Bool} {cls : Nat} (hA : 0x4800000005 &&& A = 0x4800000005) (hk : Keeps A z s) :
    Keeps A z (State.bootFail s b cls) := by
  unfold State.bootFail
  repeat' first
    | with_reducible assumption
    | ((with_reducible refine Part.sub hA ?_); rfl)
    | (extract_lets +onlyGivenNames y; refine Keeps.cut (y := y) ?_ (fun hy => ?_) <;> [(unfold y; clear y); (clear_value y; rename' y => w)])
    | (extract_lets +onlyGivenNames y; clear_value y; rename' y => w)
    | (extract_lets +onlyGivenNames y; rename' y => w)
    | with_reducible apply State.log_keeps
    | with_reducible apply State.event_keeps
    | split
    | dsimp -zeta only

theorem execBootWrite_keeps {A : Nat} {z : State} {agent : Agent} {bank : Bool} {slot : Fin 2} {s : State} (hA : 0x4800001005 &&& A = 0x4800001005) (hk : Keeps A z s) :
    KeepsOut A z (execBootWrite agent bank slot s) := by
  unfold execBootWrite
  repeat' first
    | with_reducible assumption
    | with_reducible apply KeepsOut.fault
    | with_reducible apply KeepsOut.next
    | (extract_lets +onlyGivenNames y; refine KeepsOut.cut (y := y) ?_ (fun hy => ?_) <;> [(unfold y; clear y); (clear_value y; rename' y => w)])
    | ((with_reducible refine Part.sub hA ?_); rfl)
    | (extract_lets +onlyGivenNames y; refine Keeps.cut (y := y) ?_ (fun hy => ?_) <;> [(unfold y; clear y); (clear_value y; rename' y => w)])
    | (extract_lets +onlyGivenNames y; clear_value y; rename' y => w)
    | (extract_lets +onlyGivenNames y; rename' y => w)
    | with_reducible apply State.modIm_keeps
    | with_reducible apply State.modBankState_keeps
    | with_reducible apply State.bootBusy_keeps
    | with_reducible apply State.bootFail_keeps
    | split
    | dsimp -zeta only

theorem execBootWriteDone_keeps {A : Nat} {z : State} {s : State} (hA : 0x4800001005 &&& A = 0x4800001005) (hk : Keeps A z s) :
    KeepsOut A z (execBootWriteDone s) := by
  unfold execBootWriteDone
  repeat' first
    | with_reducible assumption
    | with_reducible apply KeepsOut.fault
    | with_reducible apply KeepsOut.next
    | (extract_lets +onlyGivenNames y; refine KeepsOut.cut (y := y) ?_ (fun hy => ?_) <;> [(unfold y; clear y); (clear_value y; rename' y => w)])
    | ((with_reducible refine Part.sub hA ?_); rfl)
    | (extract_lets +onlyGivenNames y; refine Keeps.cut (y := y) ?_ (fun hy => ?_) <;> [(unfold y; clear y); (clear_value y; rename' y => w)])
    | (extract_lets +onlyGivenNames y; clear_value y; rename' y => w)
    | (extract_lets +onlyGivenNames y; rename' y => w)
    | with_reducible apply State.modIm_keeps
    | with_reducible apply State.log_keeps
    | with_reducible apply State.event_keeps
    | with_reducible apply State.modBankState_keeps
    | with_reducible apply State.bootFail_keeps
    | split
    | dsimp -zeta only

theorem execBootPrefer_keeps {A : Nat} {z : State} {agent : Agent} {bank : Bool} {s : State} (hA : 0x4000001000 &&& A = 0x4000001000) (hk : Keeps A z s) :
    KeepsOut A z (execBootPrefer agent bank s) := by
  unfold execBootPrefer
  repeat' first
    | with_reducible assumption
    | with_reducible apply KeepsOut.fault
    | with_reducible apply KeepsOut.next
    | (extract_lets +onlyGivenNames y; refine KeepsOut.cut (y := y) ?_ (fun hy => ?_) <;> [(unfold y; clear y); (clear_value y; rename' y => w)])
    | ((with_reducible refine Part.sub hA ?_); rfl)
    | (extract_lets +onlyGivenNames y; refine Keeps.cut (y := y) ?_ (fun hy => ?_) <;> [(unfold y; clear y); (clear_value y; rename' y => w)])
    | (extract_lets +onlyGivenNames y; clear_value y; rename' y => w)
    | (extract_lets +onlyGivenNames y; rename' y => w)
    | with_reducible apply State.modIm_keeps
    | with_reducible apply State.bootBusy_keeps
    | split
    | dsimp -zeta only

end Sys2Proof.Machine
end

