-- ==== Sys2Proof/Laws/KeepPairLink.lean ====
section
/-!
SUPPORT. Keeps for the operations of Machine/PairLink.lean.
-/

namespace Sys2Proof.Machine

theorem State.pairLog_keeps {A : Nat} {z : State} {s : State} {f : FaultClass} {data : List Byte} (hA : 0x4000000000 &&& A = 0x4000000000) (hk : Keeps A z s) :
    Keeps A z (State.pairLog s f data) := by
  unfold State.pairLog
  repeat' first
    | with_reducible assumption
    | ((with_reducible refine Part.sub hA ?_); rfl)
    | (extract_lets +onlyGivenNames y; refine Keeps.cut (y := y) ?_ (fun hy => ?_) <;> [(unfold y; clear y); (clear_value y; rename' y => w)])
    | (extract_lets +onlyGivenNames y; clear_value y; rename' y => w)
    | (extract_lets +onlyGivenNames y; rename' y => w)
    | with_reducible apply State.log_keeps
    | split
    | dsimp -zeta only

theorem State.sendPairTo_keeps {A : Nat} {z : State} {s : State} {dest addr type : Nat} {body : List Byte} (hA : 0x10040021 &&& A = 0x10040021) (hk : Keeps A z s) :
    Keeps A z (State.sendPairTo s dest addr type body) := by
  unfold State.sendPairTo
  repeat' first
    | with_reducible assumption
    | ((with_reducible refine Part.sub hA ?_); rfl)
    | (extract_lets +onlyGivenNames y; refine Keeps.cut (y := y) ?_ (fun hy => ?_) <;> [(unfold y; clear y); (clear_value y; rename' y => w)])
    | (extract_lets +onlyGivenNames y; clear_value y; rename' y => w)
    | (extract_lets +onlyGivenNames y; rename' y => w)
    | with_reducible apply State.modPair_keeps
    | with_reducible apply State.sendOther_keeps
    | split
    | dsimp -zeta only

theorem State.sendPair_keeps {A : Nat} {z : State} {s : State} {dest type : Nat} {body : List Byte} (hA : 0x10040021 &&& A = 0x10040021) (hk : Keeps A z s) :
    Keeps A z (State.sendPair s dest type body) := by
  unfold State.sendPair
  repeat' first
    | with_reducible assumption
    | ((with_reducible refine Part.sub hA ?_); rfl)
    | (extract_lets +onlyGivenNames y; refine Keeps.cut (y := y) ?_ (fun hy => ?_) <;> [(unfold y; clear y); (clear_value y; rename' y => w)])
    | (extract_lets +onlyGivenNames y; clear_value y; rename' y => w)
    | (extract_lets +onlyGivenNames y; rename' y => w)
    | with_reducible apply State.sendPairTo_keeps
    | split
    | dsimp -zeta only

theorem State.pairReject_keeps {A : Nat} {z : State} {s : State} {rank reason : Nat} (hA : 0x4800000005 &&& A = 0x4800000005) (hk : Keeps A z s) :
    Keeps A z (State.pairReject s rank reason) := by
  unfold State.pairReject
  repeat' first
    | with_reducible assumption
    | ((with_reducible refine Part.sub hA ?_); rfl)
    | (extract_lets +onlyGivenNames y; refine Keeps.cut (y := y) ?_ (fun hy => ?_) <;> [(unfold y; clear y); (clear_value y; rename' y => w)])
    | (extract_lets +onlyGivenNames y; clear_value y; rename' y => w)
    | (extract_lets +onlyGivenNames y; rename' y => w)
    | with_reducible apply State.count_keeps
    | with_reducible apply State.logRated_keeps
    | with_reducible apply State.event_keeps
    | split
    | dsimp -zeta only

theorem State.pairAccept_keeps {A : Nat} {z : State} {s : State} {b : List Byte} {type : Nat} {f : PairDatagram → State → State} (hA : 0x4810000005 &&& A = 0x4810000005) (hk : Keeps A z s) (hf : ∀ d y, Keeps A z y → Keeps A z (f d y)) :
    Keeps A z (State.pairAccept s b type f) := by
  unfold State.pairAccept
  repeat' first
    | with_reducible assumption
    | ((with_reducible refine Part.sub hA ?_); rfl)
    | (extract_lets +onlyGivenNames y; refine Keeps.cut (y := y) ?_ (fun hy => ?_) <;> [(unfold y; clear y); (clear_value y; rename' y => w)])
    | (extract_lets +onlyGivenNames y; clear_value y; rename' y => w)
    | (extract_lets +onlyGivenNames y; rename' y => w)
    | with_reducible apply State.modPair_keeps
    | with_reducible apply State.pairReject_keeps
    | with_reducible apply hf
    | split
    | dsimp -zeta only

theorem State.witAccept_keeps {A : Nat} {z : State} {s : State} {source : Nat} {b : List Byte} {type : Nat} {f : PairDatagram → State → State} (hA : 0x4810000005 &&& A = 0x4810000005) (hk : Keeps A z s) (hf : ∀ d y, Keeps A z y → Keeps A z (f d y)) :
    Keeps A z (State.witAccept s source b type f) := by
  unfold State.witAccept
  repeat' first
    | with_reducible assumption
    | ((with_reducible refine Part.sub hA ?_); rfl)
    | (extract_lets +onlyGivenNames y; refine Keeps.cut (y := y) ?_ (fun hy => ?_) <;> [(unfold y; clear y); (clear_value y; rename' y => w)])
    | (extract_lets +onlyGivenNames y; clear_value y; rename' y => w)
    | (extract_lets +onlyGivenNames y; rename' y => w)
    | with_reducible apply State.modPair_keeps
    | with_reducible apply State.pairReject_keeps
    | with_reducible apply hf
    | split
    | dsimp -zeta only

theorem State.sendAsk_keeps {A : Nat} {z : State} {s : State} {reason : Nat} {second : Bool} (hA : 0x10040021 &&& A = 0x10040021) (hk : Keeps A z s) :
    Keeps A z (State.sendAsk s reason second) := by
  unfold State.sendAsk
  repeat' first
    | with_reducible assumption
    | ((with_reducible refine Part.sub hA ?_); rfl)
    | (extract_lets +onlyGivenNames y; refine Keeps.cut (y := y) ?_ (fun hy => ?_) <;> [(unfold y; clear y); (clear_value y; rename' y => w)])
    | (extract_lets +onlyGivenNames y; clear_value y; rename' y => w)
    | (extract_lets +onlyGivenNames y; rename' y => w)
    | with_reducible apply State.count_keeps
    | with_reducible apply State.modPair_keeps
    | with_reducible apply State.sendPair_keeps
    | split
    | dsimp -zeta only

theorem State.askWitness_keeps {A : Nat} {z : State} {s : State} {reason : Nat} (hA : 0x10040021 &&& A = 0x10040021) (hk : Keeps A z s) :
    Keeps A z (State.askWitness s reason) := by
  unfold State.askWitness
  repeat' first
    | with_reducible assumption
    | ((with_reducible refine Part.sub hA ?_); rfl)
    | (extract_lets +onlyGivenNames y; refine Keeps.cut (y := y) ?_ (fun hy => ?_) <;> [(unfold y; clear y); (clear_value y; rename' y => w)])
    | (extract_lets +onlyGivenNames y; clear_value y; rename' y => w)
    | (extract_lets +onlyGivenNames y; rename' y => w)
    | with_reducible apply State.sendAsk_keeps
    | split
    | dsimp -zeta only

end Sys2Proof.Machine
end

