-- ==== Sys2Proof/Laws/KeepSparing.lean ====
section
/-!
SUPPORT. Keeps for the operations of Machine/Sparing.lean.
-/

namespace Sys2Proof.Machine

theorem State.rindLog_keeps {A : Nat} {z : State} {s : State} {f : FaultClass} {c reason : Nat} {data : List Byte} (hA : 0x4000000000 &&& A = 0x4000000000) (hk : Keeps A z s) :
    Keeps A z (State.rindLog s f c reason data) := by
  unfold State.rindLog
  repeat' first
    | with_reducible assumption
    | ((with_reducible refine Part.sub hA ?_); rfl)
    | (extract_lets +onlyGivenNames y; refine Keeps.cut (y := y) ?_ (fun hy => ?_) <;> [(unfold y; clear y); (clear_value y; rename' y => w)])
    | (extract_lets +onlyGivenNames y; clear_value y; rename' y => w)
    | (extract_lets +onlyGivenNames y; rename' y => w)
    | with_reducible apply State.logOut_keeps
    | split
    | dsimp -zeta only

theorem State.coderFault_keeps {A : Nat} {z : State} {s : State} {c : Option Nat} {k cause : Nat} (hA : 0x4000000000 &&& A = 0x4000000000) (hk : Keeps A z s) :
    Keeps A z (State.coderFault s c k cause) := by
  unfold State.coderFault
  repeat' first
    | with_reducible assumption
    | ((with_reducible refine Part.sub hA ?_); rfl)
    | (extract_lets +onlyGivenNames y; refine Keeps.cut (y := y) ?_ (fun hy => ?_) <;> [(unfold y; clear y); (clear_value y; rename' y => w)])
    | (extract_lets +onlyGivenNames y; clear_value y; rename' y => w)
    | (extract_lets +onlyGivenNames y; rename' y => w)
    | with_reducible apply State.logData_keeps
    | split
    | dsimp -zeta only

theorem State.loseCoder_keeps {A : Nat} {z : State} {s : State} {c cause : Nat} (hA : 0x481500c005 &&& A = 0x481500c005) (hk : Keeps A z s) :
    Keeps A z (State.loseCoder s c cause) := by
  unfold State.loseCoder
  repeat' first
    | with_reducible assumption
    | ((with_reducible refine Part.sub hA ?_); rfl)
    | (extract_lets +onlyGivenNames y; refine Keeps.cut (y := y) ?_ (fun hy => ?_) <;> [(unfold y; clear y); (clear_value y; rename' y => w)])
    | (extract_lets +onlyGivenNames y; clear_value y; rename' y => w)
    | (extract_lets +onlyGivenNames y; rename' y => w)
    | with_reducible apply State.modRind_keeps
    | with_reducible apply State.freeCoder_keeps
    | split
    | dsimp -zeta only

theorem State.noSpare_keeps {A : Nat} {z : State} {s : State} {c cause : Nat} (hA : 0x4c3da0c865 &&& A = 0x4c3da0c865) (hk : Keeps A z s) :
    Keeps A z (State.noSpare s c cause) := by
  unfold State.noSpare
  repeat' first
    | with_reducible assumption
    | ((with_reducible refine Part.sub hA ?_); rfl)
    | (extract_lets +onlyGivenNames y; refine Keeps.cut (y := y) ?_ (fun hy => ?_) <;> [(unfold y; clear y); (clear_value y; rename' y => w)])
    | (extract_lets +onlyGivenNames y; clear_value y; rename' y => w)
    | (extract_lets +onlyGivenNames y; rename' y => w)
    | with_reducible apply State.modRind_keeps
    | with_reducible apply State.event_keeps
    | with_reducible apply State.spareCheck_keeps
    | with_reducible apply State.goHarmless_keeps
    | with_reducible apply State.rindLog_keeps
    | with_reducible apply State.loseCoder_keeps
    | split
    | dsimp -zeta only

theorem State.makeGrant_keeps {A : Nat} {z : State} {s : State} {c k cause notBefore : Nat} (hA : 0x481584c025 &&& A = 0x481584c025) (hk : Keeps A z s) :
    Keeps A z (State.makeGrant s c k cause notBefore) := by
  unfold State.makeGrant
  dsimp only
  repeat' first
    | with_reducible assumption
    | ((with_reducible refine Part.sub hA ?_); rfl)
    | (extract_lets +onlyGivenNames y; refine Keeps.cut (y := y) ?_ (fun hy => ?_) <;> [(unfold y; clear y); (clear_value y; rename' y => w)])
    | (extract_lets +onlyGivenNames y; clear_value y; rename' y => w)
    | (extract_lets +onlyGivenNames y; rename' y => w)
    | with_reducible apply State.count_keeps
    | with_reducible apply State.modChan_keeps
    | with_reducible apply State.modCoder_keeps
    | with_reducible apply State.modRind_keeps
    | with_reducible apply State.event_keeps
    | with_reducible apply State.ungateSpare_keeps
    | with_reducible apply State.spareCheck_keeps
    | with_reducible apply State.freeCoder_keeps
    | with_reducible apply State.clearCause_keeps
    | with_reducible apply State.askWitness_keeps
    | split
    | dsimp -zeta only

theorem State.grant_keeps {A : Nat} {z : State} {s : State} {c k cause notBefore : Nat} (hA : 0x4c3da4c865 &&& A = 0x4c3da4c865) (hk : Keeps A z s) :
    Keeps A z (State.grant s c k cause notBefore) := by
  unfold State.grant
  repeat' first
    | with_reducible assumption
    | ((with_reducible refine Part.sub hA ?_); rfl)
    | (extract_lets +onlyGivenNames y; refine Keeps.cut (y := y) ?_ (fun hy => ?_) <;> [(unfold y; clear y); (clear_value y; rename' y => w)])
    | (extract_lets +onlyGivenNames y; clear_value y; rename' y => w)
    | (extract_lets +onlyGivenNames y; rename' y => w)
    | with_reducible apply State.modRind_keeps
    | with_reducible apply State.event_keeps
    | with_reducible apply State.goHarmless_keeps
    | with_reducible apply State.rindLog_keeps
    | with_reducible apply State.loseCoder_keeps
    | with_reducible apply State.makeGrant_keeps
    | split
    | dsimp -zeta only

theorem State.lateCause_keeps {A : Nat} {z : State} {s : State} {t : Takeover} (hA : 0x4815004005 &&& A = 0x4815004005) (hk : Keeps A z s) :
    Keeps A z (State.lateCause s t) := by
  unfold State.lateCause
  repeat' first
    | with_reducible assumption
    | ((with_reducible refine Part.sub hA ?_); rfl)
    | (extract_lets +onlyGivenNames y; refine Keeps.cut (y := y) ?_ (fun hy => ?_) <;> [(unfold y; clear y); (clear_value y; rename' y => w)])
    | (extract_lets +onlyGivenNames y; clear_value y; rename' y => w)
    | (extract_lets +onlyGivenNames y; rename' y => w)
    | with_reducible apply State.modCoder_keeps
    | with_reducible apply State.modRind_keeps
    | with_reducible apply State.spareCheck_keeps
    | split
    | dsimp -zeta only

theorem State.arbitrateCause_keeps {A : Nat} {z : State} {s : State} {t : Takeover} (hA : 0x4c3da4c865 &&& A = 0x4c3da4c865) (hk : Keeps A z s) :
    Keeps A z (State.arbitrateCause s t) := by
  unfold State.arbitrateCause
  repeat' first
    | with_reducible assumption
    | ((with_reducible refine Part.sub hA ?_); rfl)
    | (extract_lets +onlyGivenNames y; refine Keeps.cut (y := y) ?_ (fun hy => ?_) <;> [(unfold y; clear y); (clear_value y; rename' y => w)])
    | (extract_lets +onlyGivenNames y; clear_value y; rename' y => w)
    | (extract_lets +onlyGivenNames y; rename' y => w)
    | with_reducible apply State.count_keeps
    | with_reducible apply State.coderFault_keeps
    | with_reducible apply State.noSpare_keeps
    | with_reducible apply State.grant_keeps
    | with_reducible apply State.lateCause_keeps
    | split
    | dsimp -zeta only

theorem State.grantWaiting_keeps {A : Nat} {z : State} {s : State} (hA : 0x4c3da4c865 &&& A = 0x4c3da4c865) (hk : Keeps A z s) :
    Keeps A z (State.grantWaiting s) := by
  unfold State.grantWaiting
  repeat' first
    | with_reducible assumption
    | ((with_reducible refine Part.sub hA ?_); rfl)
    | (extract_lets +onlyGivenNames y; refine Keeps.cut (y := y) ?_ (fun hy => ?_) <;> [(unfold y; clear y); (clear_value y; rename' y => w)])
    | (extract_lets +onlyGivenNames y; clear_value y; rename' y => w)
    | (extract_lets +onlyGivenNames y; rename' y => w)
    | with_reducible apply State.grant_keeps
    | split
    | dsimp -zeta only

theorem execClaimGrant_keeps {A : Nat} {z : State} {s : State} (hA : 0x4c3fa4c865 &&& A = 0x4c3fa4c865) (hk : Keeps A z s) :
    KeepsOut A z (execClaimGrant s) := by
  unfold execClaimGrant
  repeat' first
    | with_reducible assumption
    | with_reducible apply KeepsOut.fault
    | with_reducible apply KeepsOut.next
    | (extract_lets +onlyGivenNames y; refine KeepsOut.cut (y := y) ?_ (fun hy => ?_) <;> [(unfold y; clear y); (clear_value y; rename' y => w)])
    | ((with_reducible refine Part.sub hA ?_); rfl)
    | (extract_lets +onlyGivenNames y; refine Keeps.cut (y := y) ?_ (fun hy => ?_) <;> [(unfold y; clear y); (clear_value y; rename' y => w)])
    | (extract_lets +onlyGivenNames y; clear_value y; rename' y => w)
    | (extract_lets +onlyGivenNames y; rename' y => w)
    | with_reducible apply State.noSpare_keeps
    | with_reducible apply State.grant_keeps
    | with_reducible apply State.arbitrateCause_keeps
    | with_reducible apply State.grantWaiting_keeps
    | split
    | (with_reducible refine Keeps.change ?_ rfl rfl rfl rfl rfl rfl rfl rfl id ?_)
    | (intro p hp; cases p <;> first | exact Part.inside hA hp rfl | rfl)
    | dsimp -zeta only

theorem State.coderCause_keeps {A : Nat} {z : State} {s : State} {k cause : Nat} (hA : 0x4817004005 &&& A = 0x4817004005) (hk : Keeps A z s) :
    Keeps A z (State.coderCause s k cause) := by
  unfold State.coderCause
  repeat' first
    | with_reducible assumption
    | ((with_reducible refine Part.sub hA ?_); rfl)
    | (extract_lets +onlyGivenNames y; refine Keeps.cut (y := y) ?_ (fun hy => ?_) <;> [(unfold y; clear y); (clear_value y; rename' y => w)])
    | (extract_lets +onlyGivenNames y; clear_value y; rename' y => w)
    | (extract_lets +onlyGivenNames y; rename' y => w)
    | with_reducible apply State.modCoder_keeps
    | with_reducible apply State.modRind_keeps
    | with_reducible apply State.event_keeps
    | with_reducible apply State.spareCheck_keeps
    | with_reducible apply State.takeoverCause_keeps
    | with_reducible apply State.coderFault_keeps
    | split
    | dsimp -zeta only

theorem execCoderEccFault_keeps {A : Nat} {z : State} {coder : Fin 52} {s : State} (hA : 0x4817004005 &&& A = 0x4817004005) (hk : Keeps A z s) :
    KeepsOut A z (execCoderEccFault coder s) := by
  unfold execCoderEccFault
  repeat' first
    | with_reducible assumption
    | with_reducible apply KeepsOut.fault
    | with_reducible apply KeepsOut.next
    | (extract_lets +onlyGivenNames y; refine KeepsOut.cut (y := y) ?_ (fun hy => ?_) <;> [(unfold y; clear y); (clear_value y; rename' y => w)])
    | ((with_reducible refine Part.sub hA ?_); rfl)
    | (extract_lets +onlyGivenNames y; refine Keeps.cut (y := y) ?_ (fun hy => ?_) <;> [(unfold y; clear y); (clear_value y; rename' y => w)])
    | (extract_lets +onlyGivenNames y; clear_value y; rename' y => w)
    | (extract_lets +onlyGivenNames y; rename' y => w)
    | with_reducible apply State.coderCause_keeps
    | split
    | dsimp -zeta only

theorem execCoderClockLoss_keeps {A : Nat} {z : State} {coder : Fin 52} {s : State} (hA : 0x4817004005 &&& A = 0x4817004005) (hk : Keeps A z s) :
    KeepsOut A z (execCoderClockLoss coder s) := by
  unfold execCoderClockLoss
  repeat' first
    | with_reducible assumption
    | with_reducible apply KeepsOut.fault
    | with_reducible apply KeepsOut.next
    | (extract_lets +onlyGivenNames y; refine KeepsOut.cut (y := y) ?_ (fun hy => ?_) <;> [(unfold y; clear y); (clear_value y; rename' y => w)])
    | ((with_reducible refine Part.sub hA ?_); rfl)
    | (extract_lets +onlyGivenNames y; refine Keeps.cut (y := y) ?_ (fun hy => ?_) <;> [(unfold y; clear y); (clear_value y; rename' y => w)])
    | (extract_lets +onlyGivenNames y; clear_value y; rename' y => w)
    | (extract_lets +onlyGivenNames y; rename' y => w)
    | with_reducible apply State.coderCause_keeps
    | split
    | dsimp -zeta only

theorem execCoderWatchdog_keeps {A : Nat} {z : State} {coder : Fin 52} {s : State} (hA : 0x4817004005 &&& A = 0x4817004005) (hk : Keeps A z s) :
    KeepsOut A z (execCoderWatchdog coder s) := by
  unfold execCoderWatchdog
  repeat' first
    | with_reducible assumption
    | with_reducible apply KeepsOut.fault
    | with_reducible apply KeepsOut.next
    | (extract_lets +onlyGivenNames y; refine KeepsOut.cut (y := y) ?_ (fun hy => ?_) <;> [(unfold y; clear y); (clear_value y; rename' y => w)])
    | ((with_reducible refine Part.sub hA ?_); rfl)
    | (extract_lets +onlyGivenNames y; refine Keeps.cut (y := y) ?_ (fun hy => ?_) <;> [(unfold y; clear y); (clear_value y; rename' y => w)])
    | (extract_lets +onlyGivenNames y; clear_value y; rename' y => w)
    | (extract_lets +onlyGivenNames y; rename' y => w)
    | with_reducible apply State.coderCause_keeps
    | split
    | dsimp -zeta only

theorem execCoderSelfCheckFail_keeps {A : Nat} {z : State} {coder : Fin 52} {store : Bool} {s : State} (hA : 0x4817004005 &&& A = 0x4817004005) (hk : Keeps A z s) :
    KeepsOut A z (execCoderSelfCheckFail coder store s) := by
  unfold execCoderSelfCheckFail
  repeat' first
    | with_reducible assumption
    | with_reducible apply KeepsOut.fault
    | with_reducible apply KeepsOut.next
    | (extract_lets +onlyGivenNames y; refine KeepsOut.cut (y := y) ?_ (fun hy => ?_) <;> [(unfold y; clear y); (clear_value y; rename' y => w)])
    | ((with_reducible refine Part.sub hA ?_); rfl)
    | (extract_lets +onlyGivenNames y; refine Keeps.cut (y := y) ?_ (fun hy => ?_) <;> [(unfold y; clear y); (clear_value y; rename' y => w)])
    | (extract_lets +onlyGivenNames y; clear_value y; rename' y => w)
    | (extract_lets +onlyGivenNames y; rename' y => w)
    | with_reducible apply State.log_keeps
    | with_reducible apply State.event_keeps
    | with_reducible apply State.coderSuspect_keeps
    | with_reducible apply State.coderCause_keeps
    | split
    | dsimp -zeta only

theorem execRindMove_keeps {A : Nat} {z : State} {agent : Agent} {channel : Fin 48} {value : Word} {s : State} (hA : 0x2000001 &&& A = 0x2000001) (hk : Keeps A z s) :
    KeepsOut A z (execRindMove agent channel value s) := by
  unfold execRindMove
  repeat' first
    | with_reducible assumption
    | with_reducible apply KeepsOut.fault
    | with_reducible apply KeepsOut.next
    | (extract_lets +onlyGivenNames y; refine KeepsOut.cut (y := y) ?_ (fun hy => ?_) <;> [(unfold y; clear y); (clear_value y; rename' y => w)])
    | ((with_reducible refine Part.sub hA ?_); rfl)
    | (extract_lets +onlyGivenNames y; refine Keeps.cut (y := y) ?_ (fun hy => ?_) <;> [(unfold y; clear y); (clear_value y; rename' y => w)])
    | (extract_lets +onlyGivenNames y; clear_value y; rename' y => w)
    | (extract_lets +onlyGivenNames y; rename' y => w)
    | with_reducible apply State.count_keeps
    | with_reducible apply State.takeoverCause_keeps
    | split
    | dsimp -zeta only

theorem execCoderRetest_keeps {A : Nat} {z : State} {agent : Agent} {coder : Fin 64} {s : State} (hA : 0x1008000 &&& A = 0x1008000) (hk : Keeps A z s) :
    KeepsOut A z (execCoderRetest agent coder s) := by
  unfold execCoderRetest
  repeat' first
    | with_reducible assumption
    | with_reducible apply KeepsOut.fault
    | with_reducible apply KeepsOut.next
    | (extract_lets +onlyGivenNames y; refine KeepsOut.cut (y := y) ?_ (fun hy => ?_) <;> [(unfold y; clear y); (clear_value y; rename' y => w)])
    | ((with_reducible refine Part.sub hA ?_); rfl)
    | (extract_lets +onlyGivenNames y; refine Keeps.cut (y := y) ?_ (fun hy => ?_) <;> [(unfold y; clear y); (clear_value y; rename' y => w)])
    | (extract_lets +onlyGivenNames y; clear_value y; rename' y => w)
    | (extract_lets +onlyGivenNames y; rename' y => w)
    | with_reducible apply State.modTile_keeps
    | with_reducible apply State.modCoder_keeps
    | split
    | dsimp -zeta only

theorem execCoderRetire_keeps {A : Nat} {z : State} {agent : Agent} {coder : Fin 64} {s : State} (hA : 0x4811004005 &&& A = 0x4811004005) (hk : Keeps A z s) :
    KeepsOut A z (execCoderRetire agent coder s) := by
  unfold execCoderRetire
  repeat' first
    | with_reducible assumption
    | with_reducible apply KeepsOut.fault
    | with_reducible apply KeepsOut.next
    | (extract_lets +onlyGivenNames y; refine KeepsOut.cut (y := y) ?_ (fun hy => ?_) <;> [(unfold y; clear y); (clear_value y; rename' y => w)])
    | ((with_reducible refine Part.sub hA ?_); rfl)
    | (extract_lets +onlyGivenNames y; refine Keeps.cut (y := y) ?_ (fun hy => ?_) <;> [(unfold y; clear y); (clear_value y; rename' y => w)])
    | (extract_lets +onlyGivenNames y; clear_value y; rename' y => w)
    | (extract_lets +onlyGivenNames y; rename' y => w)
    | with_reducible apply State.modCoder_keeps
    | with_reducible apply State.spareCheck_keeps
    | split
    | dsimp -zeta only

theorem execClaimStormClear_keeps {A : Nat} {z : State} {channel : Fin 48} {s : State} (hA : 0x4004000000 &&& A = 0x4004000000) (hk : Keeps A z s) :
    KeepsOut A z (execClaimStormClear channel s) := by
  unfold execClaimStormClear
  repeat' first
    | with_reducible assumption
    | with_reducible apply KeepsOut.fault
    | with_reducible apply KeepsOut.next
    | (extract_lets +onlyGivenNames y; refine KeepsOut.cut (y := y) ?_ (fun hy => ?_) <;> [(unfold y; clear y); (clear_value y; rename' y => w)])
    | ((with_reducible refine Part.sub hA ?_); rfl)
    | (extract_lets +onlyGivenNames y; refine Keeps.cut (y := y) ?_ (fun hy => ?_) <;> [(unfold y; clear y); (clear_value y; rename' y => w)])
    | (extract_lets +onlyGivenNames y; clear_value y; rename' y => w)
    | (extract_lets +onlyGivenNames y; rename' y => w)
    | with_reducible apply State.modRind_keeps
    | with_reducible apply State.clearCause_keeps
    | split
    | dsimp -zeta only

end Sys2Proof.Machine
end

