-- ==== Sys2Proof/Laws/KeepPair.lean ====
section
/-!
SUPPORT. Keeps for the operations of Machine/Pair.lean.
-/

namespace Sys2Proof.Machine

theorem State.pairReadyCheck_keeps {A : Nat} {z : State} {s : State} (hA : 0x4810000005 &&& A = 0x4810000005) (hk : Keeps A z s) :
    Keeps A z (State.pairReadyCheck s) := by
  unfold State.pairReadyCheck
  repeat' first
    | with_reducible assumption
    | ((with_reducible refine Part.sub hA ?_); rfl)
    | (extract_lets +onlyGivenNames y; refine Keeps.cut (y := y) ?_ (fun hy => ?_) <;> [(unfold y; clear y); (clear_value y; rename' y => w)])
    | (extract_lets +onlyGivenNames y; clear_value y; rename' y => w)
    | (extract_lets +onlyGivenNames y; rename' y => w)
    | with_reducible apply State.modPair_keeps
    | with_reducible apply State.event_keeps
    | with_reducible apply State.pairLog_keeps
    | split
    | dsimp -zeta only

theorem State.promote_keeps {A : Nat} {z : State} {s : State} {term : Nat} (hA : 0x4c1da0c045 &&& A = 0x4c1da0c045) (hk : Keeps A z s) :
    Keeps A z (State.promote s term) := by
  unfold State.promote
  repeat' first
    | with_reducible assumption
    | ((with_reducible refine Part.sub hA ?_); rfl)
    | (extract_lets +onlyGivenNames y; refine Keeps.cut (y := y) ?_ (fun hy => ?_) <;> [(unfold y; clear y); (clear_value y; rename' y => w)])
    | (extract_lets +onlyGivenNames y; refine Keeps.cut (y := y.1) ?_ (fun hy => ?_) <;> [(unfold y; clear y); (clear_value y; rename' y => w)])
    | (extract_lets +onlyGivenNames y; clear_value y; rename' y => w)
    | (extract_lets +onlyGivenNames y; rename' y => w)
    | with_reducible apply State.modChan_keeps
    | with_reducible apply State.modRind_keeps
    | with_reducible apply State.modPair_keeps
    | with_reducible apply State.event_keeps
    | with_reducible apply State.channelHarmless_keeps
    | with_reducible apply State.pairLog_keeps
    | (with_reducible apply Keeps.foldl; intro y b hy)
    | (with_reducible apply Keeps.foldl_fst; intro y b hy)
    | split
    | dsimp -zeta only

theorem State.demote_keeps {A : Nat} {z : State} {s : State} {term cause : Nat} (hA : 0x4830800005 &&& A = 0x4830800005) (hk : Keeps A z s) :
    Keeps A z (State.demote s term cause) := by
  unfold State.demote
  repeat' first
    | with_reducible assumption
    | ((with_reducible refine Part.sub hA ?_); rfl)
    | (extract_lets +onlyGivenNames y; refine Keeps.cut (y := y) ?_ (fun hy => ?_) <;> [(unfold y; clear y); (clear_value y; rename' y => w)])
    | (extract_lets +onlyGivenNames y; clear_value y; rename' y => w)
    | (extract_lets +onlyGivenNames y; rename' y => w)
    | with_reducible apply State.mapChans_keeps
    | with_reducible apply State.mapHeads_keeps
    | with_reducible apply State.modPair_keeps
    | with_reducible apply State.event_keeps
    | with_reducible apply State.pairLog_keeps
    | with_reducible apply State.pairReadyCheck_keeps
    | split
    | dsimp -zeta only

theorem execHeartbeatTx_keeps {A : Nat} {z : State} {s : State} (hA : 0x4810040025 &&& A = 0x4810040025) (hk : Keeps A z s) :
    KeepsOut A z (execHeartbeatTx s) := by
  unfold execHeartbeatTx
  repeat' first
    | with_reducible assumption
    | with_reducible apply KeepsOut.fault
    | with_reducible apply KeepsOut.next
    | (extract_lets +onlyGivenNames y; refine KeepsOut.cut (y := y) ?_ (fun hy => ?_) <;> [(unfold y; clear y); (clear_value y; rename' y => w)])
    | ((with_reducible refine Part.sub hA ?_); rfl)
    | (extract_lets +onlyGivenNames y; refine Keeps.cut (y := y) ?_ (fun hy => ?_) <;> [(unfold y; clear y); (clear_value y; rename' y => w)])
    | (extract_lets +onlyGivenNames y; clear_value y; rename' y => w)
    | (extract_lets +onlyGivenNames y; rename' y => w)
    | with_reducible apply State.modPair_keeps
    | with_reducible apply State.sendPair_keeps
    | with_reducible apply State.pairReadyCheck_keeps
    | split
    | dsimp -zeta only

theorem State.onHeartbeat_keeps {A : Nat} {z : State} {s : State} {d : PairDatagram} {flags : BitVec 8} (hA : 0x4830840025 &&& A = 0x4830840025) (hk : Keeps A z s) :
    Keeps A z (State.onHeartbeat s d flags) := by
  unfold State.onHeartbeat
  repeat' first
    | with_reducible assumption
    | ((with_reducible refine Part.sub hA ?_); rfl)
    | (extract_lets +onlyGivenNames y; refine Keeps.cut (y := y) ?_ (fun hy => ?_) <;> [(unfold y; clear y); (clear_value y; rename' y => w)])
    | (extract_lets +onlyGivenNames y; clear_value y; rename' y => w)
    | (extract_lets +onlyGivenNames y; rename' y => w)
    | with_reducible apply State.count_keeps
    | with_reducible apply State.modPair_keeps
    | with_reducible apply State.event_keeps
    | with_reducible apply State.askWitness_keeps
    | with_reducible apply State.demote_keeps
    | split
    | dsimp -zeta only

theorem execHeartbeatRx_keeps {A : Nat} {z : State} {bytes : List Byte} {s : State} (hA : 0x4830840025 &&& A = 0x4830840025) (hk : Keeps A z s) :
    KeepsOut A z (execHeartbeatRx bytes s) := by
  unfold execHeartbeatRx
  repeat' first
    | with_reducible assumption
    | with_reducible apply KeepsOut.fault
    | with_reducible apply KeepsOut.next
    | (extract_lets +onlyGivenNames y; refine KeepsOut.cut (y := y) ?_ (fun hy => ?_) <;> [(unfold y; clear y); (clear_value y; rename' y => w)])
    | ((with_reducible refine Part.sub hA ?_); rfl)
    | (extract_lets +onlyGivenNames y; refine Keeps.cut (y := y) ?_ (fun hy => ?_) <;> [(unfold y; clear y); (clear_value y; rename' y => w)])
    | (extract_lets +onlyGivenNames y; clear_value y; rename' y => w)
    | (extract_lets +onlyGivenNames y; rename' y => w)
    | with_reducible apply State.logRated_keeps
    | with_reducible apply State.pairReject_keeps
    | with_reducible apply State.pairAccept_keeps
    | with_reducible intro _
    | with_reducible apply State.onHeartbeat_keeps
    | split
    | dsimp -zeta only

theorem execRecordsTx_keeps {A : Nat} {z : State} {s : State} (hA : 0x10040021 &&& A = 0x10040021) (hk : Keeps A z s) :
    KeepsOut A z (execRecordsTx s) := by
  unfold execRecordsTx
  repeat' first
    | with_reducible assumption
    | with_reducible apply KeepsOut.fault
    | with_reducible apply KeepsOut.next
    | (extract_lets +onlyGivenNames y; refine KeepsOut.cut (y := y) ?_ (fun hy => ?_) <;> [(unfold y; clear y); (clear_value y; rename' y => w)])
    | ((with_reducible refine Part.sub hA ?_); rfl)
    | (extract_lets +onlyGivenNames y; refine Keeps.cut (y := y) ?_ (fun hy => ?_) <;> [(unfold y; clear y); (clear_value y; rename' y => w)])
    | (extract_lets +onlyGivenNames y; clear_value y; rename' y => w)
    | (extract_lets +onlyGivenNames y; rename' y => w)
    | with_reducible apply State.modPair_keeps
    | with_reducible apply State.sendPair_keeps
    | split
    | dsimp -zeta only

theorem State.keepRecord_keeps {A : Nat} {z : State} {s : State} {r : MirrorRec} (hA : 0x10000001 &&& A = 0x10000001) (hk : Keeps A z s) :
    Keeps A z (State.keepRecord s r) := by
  unfold State.keepRecord
  repeat' first
    | with_reducible assumption
    | ((with_reducible refine Part.sub hA ?_); rfl)
    | (extract_lets +onlyGivenNames y; refine Keeps.cut (y := y) ?_ (fun hy => ?_) <;> [(unfold y; clear y); (clear_value y; rename' y => w)])
    | (extract_lets +onlyGivenNames y; clear_value y; rename' y => w)
    | (extract_lets +onlyGivenNames y; rename' y => w)
    | with_reducible apply State.count_keeps
    | with_reducible apply State.modPair_keeps
    | split
    | dsimp -zeta only

theorem execRecordsRx_keeps {A : Nat} {z : State} {bytes : List Byte} {s : State} (hA : 0x4810000005 &&& A = 0x4810000005) (hk : Keeps A z s) :
    KeepsOut A z (execRecordsRx bytes s) := by
  unfold execRecordsRx
  repeat' first
    | with_reducible assumption
    | with_reducible apply KeepsOut.fault
    | with_reducible apply KeepsOut.next
    | (extract_lets +onlyGivenNames y; refine KeepsOut.cut (y := y) ?_ (fun hy => ?_) <;> [(unfold y; clear y); (clear_value y; rename' y => w)])
    | ((with_reducible refine Part.sub hA ?_); rfl)
    | (extract_lets +onlyGivenNames y; refine Keeps.cut (y := y) ?_ (fun hy => ?_) <;> [(unfold y; clear y); (clear_value y; rename' y => w)])
    | (extract_lets +onlyGivenNames y; clear_value y; rename' y => w)
    | (extract_lets +onlyGivenNames y; rename' y => w)
    | with_reducible apply State.pairAccept_keeps
    | with_reducible intro _
    | with_reducible apply State.pairReadyCheck_keeps
    | with_reducible apply State.keepRecord_keeps
    | (with_reducible apply Keeps.foldl; intro y b hy)
    | (with_reducible apply Keeps.foldl_fst; intro y b hy)
    | split
    | dsimp -zeta only

theorem execHandoverRx_keeps {A : Nat} {z : State} {bytes : List Byte} {s : State} (hA : 0x4810040025 &&& A = 0x4810040025) (hk : Keeps A z s) :
    KeepsOut A z (execHandoverRx bytes s) := by
  unfold execHandoverRx
  repeat' first
    | with_reducible assumption
    | with_reducible apply KeepsOut.fault
    | with_reducible apply KeepsOut.next
    | (extract_lets +onlyGivenNames y; refine KeepsOut.cut (y := y) ?_ (fun hy => ?_) <;> [(unfold y; clear y); (clear_value y; rename' y => w)])
    | ((with_reducible refine Part.sub hA ?_); rfl)
    | (extract_lets +onlyGivenNames y; refine Keeps.cut (y := y) ?_ (fun hy => ?_) <;> [(unfold y; clear y); (clear_value y; rename' y => w)])
    | (extract_lets +onlyGivenNames y; clear_value y; rename' y => w)
    | (extract_lets +onlyGivenNames y; rename' y => w)
    | with_reducible apply State.modPair_keeps
    | with_reducible apply State.pairAccept_keeps
    | with_reducible intro _
    | with_reducible apply State.askWitness_keeps
    | split
    | dsimp -zeta only

theorem execHeartbeatMiss_keeps {A : Nat} {z : State} {s : State} (hA : 0x4810040025 &&& A = 0x4810040025) (hk : Keeps A z s) :
    KeepsOut A z (execHeartbeatMiss s) := by
  unfold execHeartbeatMiss
  repeat' first
    | with_reducible assumption
    | with_reducible apply KeepsOut.fault
    | with_reducible apply KeepsOut.next
    | (extract_lets +onlyGivenNames y; refine KeepsOut.cut (y := y) ?_ (fun hy => ?_) <;> [(unfold y; clear y); (clear_value y; rename' y => w)])
    | ((with_reducible refine Part.sub hA ?_); rfl)
    | (extract_lets +onlyGivenNames y; refine Keeps.cut (y := y) ?_ (fun hy => ?_) <;> [(unfold y; clear y); (clear_value y; rename' y => w)])
    | (extract_lets +onlyGivenNames y; clear_value y; rename' y => w)
    | (extract_lets +onlyGivenNames y; rename' y => w)
    | with_reducible apply State.modPair_keeps
    | with_reducible apply State.event_keeps
    | with_reducible apply State.pairLog_keeps
    | with_reducible apply State.askWitness_keeps
    | split
    | dsimp -zeta only

theorem execNoActiveHeartbeat_keeps {A : Nat} {z : State} {s : State} (hA : 0x10040021 &&& A = 0x10040021) (hk : Keeps A z s) :
    KeepsOut A z (execNoActiveHeartbeat s) := by
  unfold execNoActiveHeartbeat
  repeat' first
    | with_reducible assumption
    | with_reducible apply KeepsOut.fault
    | with_reducible apply KeepsOut.next
    | (extract_lets +onlyGivenNames y; refine KeepsOut.cut (y := y) ?_ (fun hy => ?_) <;> [(unfold y; clear y); (clear_value y; rename' y => w)])
    | ((with_reducible refine Part.sub hA ?_); rfl)
    | (extract_lets +onlyGivenNames y; refine Keeps.cut (y := y) ?_ (fun hy => ?_) <;> [(unfold y; clear y); (clear_value y; rename' y => w)])
    | (extract_lets +onlyGivenNames y; clear_value y; rename' y => w)
    | (extract_lets +onlyGivenNames y; rename' y => w)
    | with_reducible apply State.askWitness_keeps
    | split
    | dsimp -zeta only

theorem State.onAnswer_keeps {A : Nat} {z : State} {s : State} {a : Ask} {verdict term : Nat} (hA : 0x4c3da0c045 &&& A = 0x4c3da0c045) (hk : Keeps A z s) :
    Keeps A z (State.onAnswer s a verdict term) := by
  unfold State.onAnswer
  repeat' first
    | with_reducible assumption
    | ((with_reducible refine Part.sub hA ?_); rfl)
    | (extract_lets +onlyGivenNames y; refine Keeps.cut (y := y) ?_ (fun hy => ?_) <;> [(unfold y; clear y); (clear_value y; rename' y => w)])
    | (extract_lets +onlyGivenNames y; clear_value y; rename' y => w)
    | (extract_lets +onlyGivenNames y; rename' y => w)
    | with_reducible apply State.modRind_keeps
    | with_reducible apply State.modPair_keeps
    | with_reducible apply State.event_keeps
    | with_reducible apply State.clearCause_keeps
    | with_reducible apply State.pairLog_keeps
    | with_reducible apply State.promote_keeps
    | with_reducible apply State.demote_keeps
    | (with_reducible apply Keeps.foldl; intro y b hy)
    | (with_reducible apply Keeps.foldl_fst; intro y b hy)
    | split
    | dsimp -zeta only

theorem execAnswerRx_keeps {A : Nat} {z : State} {datagram : Datagram} {s : State} (hA : 0x4c3da0c045 &&& A = 0x4c3da0c045) (hk : Keeps A z s) :
    KeepsOut A z (execAnswerRx datagram s) := by
  unfold execAnswerRx
  repeat' first
    | with_reducible assumption
    | with_reducible apply KeepsOut.fault
    | with_reducible apply KeepsOut.next
    | (extract_lets +onlyGivenNames y; refine KeepsOut.cut (y := y) ?_ (fun hy => ?_) <;> [(unfold y; clear y); (clear_value y; rename' y => w)])
    | ((with_reducible refine Part.sub hA ?_); rfl)
    | (extract_lets +onlyGivenNames y; refine Keeps.cut (y := y) ?_ (fun hy => ?_) <;> [(unfold y; clear y); (clear_value y; rename' y => w)])
    | (extract_lets +onlyGivenNames y; clear_value y; rename' y => w)
    | (extract_lets +onlyGivenNames y; rename' y => w)
    | with_reducible apply State.witAccept_keeps
    | with_reducible intro _
    | with_reducible apply State.onAnswer_keeps
    | split
    | dsimp -zeta only

theorem execWitnessTimeout_keeps {A : Nat} {z : State} {s : State} (hA : 0x4810040025 &&& A = 0x4810040025) (hk : Keeps A z s) :
    KeepsOut A z (execWitnessTimeout s) := by
  unfold execWitnessTimeout
  repeat' first
    | with_reducible assumption
    | with_reducible apply KeepsOut.fault
    | with_reducible apply KeepsOut.next
    | (extract_lets +onlyGivenNames y; refine KeepsOut.cut (y := y) ?_ (fun hy => ?_) <;> [(unfold y; clear y); (clear_value y; rename' y => w)])
    | ((with_reducible refine Part.sub hA ?_); rfl)
    | (extract_lets +onlyGivenNames y; refine Keeps.cut (y := y) ?_ (fun hy => ?_) <;> [(unfold y; clear y); (clear_value y; rename' y => w)])
    | (extract_lets +onlyGivenNames y; clear_value y; rename' y => w)
    | (extract_lets +onlyGivenNames y; rename' y => w)
    | with_reducible apply State.count_keeps
    | with_reducible apply State.modPair_keeps
    | with_reducible apply State.event_keeps
    | with_reducible apply State.pairLog_keeps
    | with_reducible apply State.sendAsk_keeps
    | split
    | dsimp -zeta only

theorem execWitnessRetry_keeps {A : Nat} {z : State} {s : State} (hA : 0x10040021 &&& A = 0x10040021) (hk : Keeps A z s) :
    KeepsOut A z (execWitnessRetry s) := by
  unfold execWitnessRetry
  repeat' first
    | with_reducible assumption
    | with_reducible apply KeepsOut.fault
    | with_reducible apply KeepsOut.next
    | (extract_lets +onlyGivenNames y; refine KeepsOut.cut (y := y) ?_ (fun hy => ?_) <;> [(unfold y; clear y); (clear_value y; rename' y => w)])
    | ((with_reducible refine Part.sub hA ?_); rfl)
    | (extract_lets +onlyGivenNames y; refine Keeps.cut (y := y) ?_ (fun hy => ?_) <;> [(unfold y; clear y); (clear_value y; rename' y => w)])
    | (extract_lets +onlyGivenNames y; clear_value y; rename' y => w)
    | (extract_lets +onlyGivenNames y; rename' y => w)
    | with_reducible apply State.modPair_keeps
    | with_reducible apply State.sendAsk_keeps
    | split
    | dsimp -zeta only

theorem execProbeRx_keeps {A : Nat} {z : State} {datagram : Datagram} {s : State} (hA : 0x4810040025 &&& A = 0x4810040025) (hk : Keeps A z s) :
    KeepsOut A z (execProbeRx datagram s) := by
  unfold execProbeRx
  repeat' first
    | with_reducible assumption
    | with_reducible apply KeepsOut.fault
    | with_reducible apply KeepsOut.next
    | (extract_lets +onlyGivenNames y; refine KeepsOut.cut (y := y) ?_ (fun hy => ?_) <;> [(unfold y; clear y); (clear_value y; rename' y => w)])
    | ((with_reducible refine Part.sub hA ?_); rfl)
    | (extract_lets +onlyGivenNames y; refine Keeps.cut (y := y) ?_ (fun hy => ?_) <;> [(unfold y; clear y); (clear_value y; rename' y => w)])
    | (extract_lets +onlyGivenNames y; clear_value y; rename' y => w)
    | (extract_lets +onlyGivenNames y; rename' y => w)
    | with_reducible apply State.sendPairTo_keeps
    | with_reducible apply State.witAccept_keeps
    | with_reducible intro _
    | split
    | dsimp -zeta only

theorem execPromotedChannelStart_keeps {A : Nat} {z : State} {channel : Fin 48} {s : State} (hA : 0x481d80c005 &&& A = 0x481d80c005) (hk : Keeps A z s) :
    KeepsOut A z (execPromotedChannelStart channel s) := by
  unfold execPromotedChannelStart
  repeat' first
    | with_reducible assumption
    | with_reducible apply KeepsOut.fault
    | with_reducible apply KeepsOut.next
    | (extract_lets +onlyGivenNames y; refine KeepsOut.cut (y := y) ?_ (fun hy => ?_) <;> [(unfold y; clear y); (clear_value y; rename' y => w)])
    | ((with_reducible refine Part.sub hA ?_); rfl)
    | (extract_lets +onlyGivenNames y; refine Keeps.cut (y := y) ?_ (fun hy => ?_) <;> [(unfold y; clear y); (clear_value y; rename' y => w)])
    | (extract_lets +onlyGivenNames y; clear_value y; rename' y => w)
    | (extract_lets +onlyGivenNames y; rename' y => w)
    | with_reducible apply State.reachLine_keeps
    | with_reducible apply State.renewClaim_keeps
    | with_reducible apply State.promotedStart_keeps
    | split
    | dsimp -zeta only

theorem execPairSwitch_keeps {A : Nat} {z : State} {agent : Agent} {s : State} (hA : 0x4810040025 &&& A = 0x4810040025) (hk : Keeps A z s) :
    KeepsOut A z (execPairSwitch agent s) := by
  unfold execPairSwitch
  repeat' first
    | with_reducible assumption
    | with_reducible apply KeepsOut.fault
    | with_reducible apply KeepsOut.next
    | (extract_lets +onlyGivenNames y; refine KeepsOut.cut (y := y) ?_ (fun hy => ?_) <;> [(unfold y; clear y); (clear_value y; rename' y => w)])
    | ((with_reducible refine Part.sub hA ?_); rfl)
    | (extract_lets +onlyGivenNames y; refine Keeps.cut (y := y) ?_ (fun hy => ?_) <;> [(unfold y; clear y); (clear_value y; rename' y => w)])
    | (extract_lets +onlyGivenNames y; clear_value y; rename' y => w)
    | (extract_lets +onlyGivenNames y; rename' y => w)
    | with_reducible apply State.count_keeps
    | with_reducible apply State.modPair_keeps
    | with_reducible apply State.event_keeps
    | with_reducible apply State.sendPair_keeps
    | split
    | dsimp -zeta only

theorem execSwitchDeadline_keeps {A : Nat} {z : State} {s : State} (hA : 0x4810000005 &&& A = 0x4810000005) (hk : Keeps A z s) :
    KeepsOut A z (execSwitchDeadline s) := by
  unfold execSwitchDeadline
  repeat' first
    | with_reducible assumption
    | with_reducible apply KeepsOut.fault
    | with_reducible apply KeepsOut.next
    | (extract_lets +onlyGivenNames y; refine KeepsOut.cut (y := y) ?_ (fun hy => ?_) <;> [(unfold y; clear y); (clear_value y; rename' y => w)])
    | ((with_reducible refine Part.sub hA ?_); rfl)
    | (extract_lets +onlyGivenNames y; refine Keeps.cut (y := y) ?_ (fun hy => ?_) <;> [(unfold y; clear y); (clear_value y; rename' y => w)])
    | (extract_lets +onlyGivenNames y; clear_value y; rename' y => w)
    | (extract_lets +onlyGivenNames y; rename' y => w)
    | with_reducible apply State.modPair_keeps
    | with_reducible apply State.event_keeps
    | with_reducible apply State.pairLog_keeps
    | split
    | dsimp -zeta only

theorem execSwitchoverStamp_keeps {A : Nat} {z : State} {s : State} (hA : 0x4830800005 &&& A = 0x4830800005) (hk : Keeps A z s) :
    KeepsOut A z (execSwitchoverStamp s) := by
  unfold execSwitchoverStamp
  repeat' first
    | with_reducible assumption
    | with_reducible apply KeepsOut.fault
    | with_reducible apply KeepsOut.next
    | (extract_lets +onlyGivenNames y; refine KeepsOut.cut (y := y) ?_ (fun hy => ?_) <;> [(unfold y; clear y); (clear_value y; rename' y => w)])
    | ((with_reducible refine Part.sub hA ?_); rfl)
    | (extract_lets +onlyGivenNames y; refine Keeps.cut (y := y) ?_ (fun hy => ?_) <;> [(unfold y; clear y); (clear_value y; rename' y => w)])
    | (extract_lets +onlyGivenNames y; clear_value y; rename' y => w)
    | (extract_lets +onlyGivenNames y; rename' y => w)
    | with_reducible apply State.modPair_keeps
    | with_reducible apply State.demote_keeps
    | split
    | dsimp -zeta only

theorem execPtpMessageRx_keeps {A : Nat} {z : State} {inst : Fin 6} {datagram : Datagram} {s : State} (hA : 0xcc3da4ebe5 &&& A = 0xcc3da4ebe5) (hk : Keeps A z s) :
    KeepsOut A z (execPtpMessageRx inst datagram s) := by
  unfold execPtpMessageRx
  repeat' first
    | with_reducible assumption
    | with_reducible apply KeepsOut.fault
    | with_reducible apply KeepsOut.next
    | (extract_lets +onlyGivenNames y; refine KeepsOut.cut (y := y) ?_ (fun hy => ?_) <;> [(unfold y; clear y); (clear_value y; rename' y => w)])
    | ((with_reducible refine Part.sub hA ?_); rfl)
    | (extract_lets +onlyGivenNames y; refine Keeps.cut (y := y) ?_ (fun hy => ?_) <;> [(unfold y; clear y); (clear_value y; rename' y => w)])
    | (extract_lets +onlyGivenNames y; clear_value y; rename' y => w)
    | (extract_lets +onlyGivenNames y; rename' y => w)
    | with_reducible apply State.ptpMessage_keeps
    | with_reducible apply State.pairReadyCheck_keeps
    | split
    | dsimp -zeta only

theorem State.installPair_keeps {A : Nat} {z : State} {s : State} (hA : 0x10000000 &&& A = 0x10000000) (hk : Keeps A z s) :
    Keeps A z (State.installPair s) := by
  unfold State.installPair
  repeat' first
    | with_reducible assumption
    | ((with_reducible refine Part.sub hA ?_); rfl)
    | (extract_lets +onlyGivenNames y; refine Keeps.cut (y := y) ?_ (fun hy => ?_) <;> [(unfold y; clear y); (clear_value y; rename' y => w)])
    | (extract_lets +onlyGivenNames y; clear_value y; rename' y => w)
    | (extract_lets +onlyGivenNames y; rename' y => w)
    | with_reducible apply State.modPair_keeps
    | split
    | dsimp -zeta only

end Sys2Proof.Machine
end

