-- ==== Sys2Proof/Laws/KeepRoll.lean ====
section
/-!
SUPPORT. Keeps for the operations of Machine/Roll.lean.
-/

namespace Sys2Proof.Machine

theorem State.ripenCoder_keeps {A : Nat} {z : State} {s : State} {k : Nat} (hA : 0x1008000 &&& A = 0x1008000) (hk : Keeps A z s) :
    Keeps A z (State.ripenCoder s k) := by
  unfold State.ripenCoder
  repeat' first
    | with_reducible assumption
    | ((with_reducible refine Part.sub hA ?_); rfl)
    | (extract_lets +onlyGivenNames y; refine Keeps.cut (y := y) ?_ (fun hy => ?_) <;> [(unfold y; clear y); (clear_value y; rename' y => w)])
    | (extract_lets +onlyGivenNames y; clear_value y; rename' y => w)
    | (extract_lets +onlyGivenNames y; rename' y => w)
    | with_reducible apply State.modTile_keeps
    | with_reducible apply State.modCoder_keeps
    | split
    | dsimp -zeta only

theorem State.ripenOldSpares_keeps {A : Nat} {z : State} {s : State} (hA : 0x1008000 &&& A = 0x1008000) (hk : Keeps A z s) :
    Keeps A z (State.ripenOldSpares s) := by
  unfold State.ripenOldSpares
  repeat' first
    | with_reducible assumption
    | ((with_reducible refine Part.sub hA ?_); rfl)
    | (extract_lets +onlyGivenNames y; refine Keeps.cut (y := y) ?_ (fun hy => ?_) <;> [(unfold y; clear y); (clear_value y; rename' y => w)])
    | (extract_lets +onlyGivenNames y; clear_value y; rename' y => w)
    | (extract_lets +onlyGivenNames y; rename' y => w)
    | with_reducible apply State.ripenCoder_keeps
    | (with_reducible apply Keeps.foldl; intro y b hy)
    | (with_reducible apply Keeps.foldl_fst; intro y b hy)
    | split
    | dsimp -zeta only

theorem State.rollStep_keeps {A : Nat} {z : State} {s : State} {a : Stamp} (hA : 0x4802004005 &&& A = 0x4802004005) (hk : Keeps A z s) :
    Keeps A z (State.rollStep s a) := by
  unfold State.rollStep
  repeat' first
    | with_reducible assumption
    | ((with_reducible refine Part.sub hA ?_); rfl)
    | (extract_lets +onlyGivenNames y; refine Keeps.cut (y := y) ?_ (fun hy => ?_) <;> [(unfold y; clear y); (clear_value y; rename' y => w)])
    | (extract_lets +onlyGivenNames y; clear_value y; rename' y => w)
    | (extract_lets +onlyGivenNames y; rename' y => w)
    | with_reducible apply State.modRoll_keeps
    | with_reducible apply State.log_keeps
    | with_reducible apply State.event_keeps
    | with_reducible apply State.rollWaits_keeps
    | with_reducible apply State.takeoverCause_keeps
    | split
    | dsimp -zeta only

theorem State.rollDoneCheck_keeps {A : Nat} {z : State} {s : State} (hA : 0x4800004005 &&& A = 0x4800004005) (hk : Keeps A z s) :
    Keeps A z (State.rollDoneCheck s) := by
  unfold State.rollDoneCheck
  repeat' first
    | with_reducible assumption
    | ((with_reducible refine Part.sub hA ?_); rfl)
    | (extract_lets +onlyGivenNames y; refine Keeps.cut (y := y) ?_ (fun hy => ?_) <;> [(unfold y; clear y); (clear_value y; rename' y => w)])
    | (extract_lets +onlyGivenNames y; clear_value y; rename' y => w)
    | (extract_lets +onlyGivenNames y; rename' y => w)
    | with_reducible apply State.modRoll_keeps
    | with_reducible apply State.log_keeps
    | with_reducible apply State.event_keeps
    | split
    | dsimp -zeta only

theorem execRollStepSchedule_keeps {A : Nat} {z : State} {s : State} (hA : 0x480100c005 &&& A = 0x480100c005) (hk : Keeps A z s) :
    KeepsOut A z (execRollStepSchedule s) := by
  unfold execRollStepSchedule
  repeat' first
    | with_reducible assumption
    | with_reducible apply KeepsOut.fault
    | with_reducible apply KeepsOut.next
    | (extract_lets +onlyGivenNames y; refine KeepsOut.cut (y := y) ?_ (fun hy => ?_) <;> [(unfold y; clear y); (clear_value y; rename' y => w)])
    | ((with_reducible refine Part.sub hA ?_); rfl)
    | (extract_lets +onlyGivenNames y; refine Keeps.cut (y := y) ?_ (fun hy => ?_) <;> [(unfold y; clear y); (clear_value y; rename' y => w)])
    | (extract_lets +onlyGivenNames y; refine Keeps.cut (y := y.1) ?_ (fun hy => ?_) <;> [(unfold y; clear y); (clear_value y; rename' y => w)])
    | (extract_lets +onlyGivenNames y; clear_value y; rename' y => w)
    | (extract_lets +onlyGivenNames y; rename' y => w)
    | with_reducible apply State.modRoll_keeps
    | with_reducible apply State.rollWaits_keeps
    | with_reducible apply State.ripenOldSpares_keeps
    | with_reducible apply State.rollDoneCheck_keeps
    | split
    | dsimp -zeta only

theorem execRollStep_keeps {A : Nat} {z : State} {s : State} (hA : 0x4802004005 &&& A = 0x4802004005) (hk : Keeps A z s) :
    KeepsOut A z (execRollStep s) := by
  unfold execRollStep
  repeat' first
    | with_reducible assumption
    | with_reducible apply KeepsOut.fault
    | with_reducible apply KeepsOut.next
    | (extract_lets +onlyGivenNames y; refine KeepsOut.cut (y := y) ?_ (fun hy => ?_) <;> [(unfold y; clear y); (clear_value y; rename' y => w)])
    | ((with_reducible refine Part.sub hA ?_); rfl)
    | (extract_lets +onlyGivenNames y; refine Keeps.cut (y := y) ?_ (fun hy => ?_) <;> [(unfold y; clear y); (clear_value y; rename' y => w)])
    | (extract_lets +onlyGivenNames y; clear_value y; rename' y => w)
    | (extract_lets +onlyGivenNames y; rename' y => w)
    | with_reducible apply State.modRoll_keeps
    | with_reducible apply State.rollStep_keeps
    | split
    | dsimp -zeta only

theorem execRollHalt_keeps {A : Nat} {z : State} {s : State} (hA : 0x4800004005 &&& A = 0x4800004005) (hk : Keeps A z s) :
    KeepsOut A z (execRollHalt s) := by
  unfold execRollHalt
  repeat' first
    | with_reducible assumption
    | with_reducible apply KeepsOut.fault
    | with_reducible apply KeepsOut.next
    | (extract_lets +onlyGivenNames y; refine KeepsOut.cut (y := y) ?_ (fun hy => ?_) <;> [(unfold y; clear y); (clear_value y; rename' y => w)])
    | ((with_reducible refine Part.sub hA ?_); rfl)
    | (extract_lets +onlyGivenNames y; refine Keeps.cut (y := y) ?_ (fun hy => ?_) <;> [(unfold y; clear y); (clear_value y; rename' y => w)])
    | (extract_lets +onlyGivenNames y; clear_value y; rename' y => w)
    | (extract_lets +onlyGivenNames y; rename' y => w)
    | with_reducible apply State.modRoll_keeps
    | with_reducible apply State.log_keeps
    | with_reducible apply State.event_keeps
    | split
    | dsimp -zeta only

end Sys2Proof.Machine
end

