-- ==== Sys2Proof/Laws/KeepTio.lean ====
section
/-!
SUPPORT. Keeps for the operations of Machine/Tio.lean.
-/

namespace Sys2Proof.Machine

theorem execArmHiWrite_keeps {A : Nat} {z : State} {agent : Agent} {pin : Fin 8} {value : Word} {s : State} (hA : 0x4000000801 &&& A = 0x4000000801) (hk : Keeps A z s) :
    KeepsOut A z (execArmHiWrite agent pin value s) := by
  unfold execArmHiWrite
  repeat' first
    | with_reducible assumption
    | with_reducible apply KeepsOut.fault
    | with_reducible apply KeepsOut.next
    | (extract_lets +onlyGivenNames y; refine KeepsOut.cut (y := y) ?_ (fun hy => ?_) <;> [(unfold y; clear y); (clear_value y; rename' y => w)])
    | ((with_reducible refine Part.sub hA ?_); rfl)
    | (extract_lets +onlyGivenNames y; refine Keeps.cut (y := y) ?_ (fun hy => ?_) <;> [(unfold y; clear y); (clear_value y; rename' y => w)])
    | (extract_lets +onlyGivenNames y; clear_value y; rename' y => w)
    | (extract_lets +onlyGivenNames y; rename' y => w)
    | with_reducible apply State.setReg_keeps
    | with_reducible apply State.modTioPin_keeps
    | with_reducible apply State.log_keeps
    | split
    | dsimp -zeta only

theorem execTioPulseEdge_keeps {A : Nat} {z : State} {pin : Fin 8} {s : State} (hA : 0x820 &&& A = 0x820) (hk : Keeps A z s) :
    KeepsOut A z (execTioPulseEdge pin s) := by
  unfold execTioPulseEdge
  repeat' first
    | with_reducible assumption
    | with_reducible apply KeepsOut.fault
    | with_reducible apply KeepsOut.next
    | (extract_lets +onlyGivenNames y; refine KeepsOut.cut (y := y) ?_ (fun hy => ?_) <;> [(unfold y; clear y); (clear_value y; rename' y => w)])
    | ((with_reducible refine Part.sub hA ?_); rfl)
    | (extract_lets +onlyGivenNames y; refine Keeps.cut (y := y) ?_ (fun hy => ?_) <;> [(unfold y; clear y); (clear_value y; rename' y => w)])
    | (extract_lets +onlyGivenNames y; clear_value y; rename' y => w)
    | (extract_lets +onlyGivenNames y; rename' y => w)
    | with_reducible apply State.modTioPin_keeps
    | with_reducible apply State.send_keeps
    | split
    | dsimp -zeta only

theorem execTioPulseEnd_keeps {A : Nat} {z : State} {pin : Fin 8} {s : State} (hA : 0x820 &&& A = 0x820) (hk : Keeps A z s) :
    KeepsOut A z (execTioPulseEnd pin s) := by
  unfold execTioPulseEnd
  repeat' first
    | with_reducible assumption
    | with_reducible apply KeepsOut.fault
    | with_reducible apply KeepsOut.next
    | (extract_lets +onlyGivenNames y; refine KeepsOut.cut (y := y) ?_ (fun hy => ?_) <;> [(unfold y; clear y); (clear_value y; rename' y => w)])
    | ((with_reducible refine Part.sub hA ?_); rfl)
    | (extract_lets +onlyGivenNames y; refine Keeps.cut (y := y) ?_ (fun hy => ?_) <;> [(unfold y; clear y); (clear_value y; rename' y => w)])
    | (extract_lets +onlyGivenNames y; clear_value y; rename' y => w)
    | (extract_lets +onlyGivenNames y; rename' y => w)
    | with_reducible apply State.modTioPin_keeps
    | with_reducible apply State.send_keeps
    | split
    | dsimp -zeta only

theorem execTioInputTransition_keeps {A : Nat} {z : State} {pin : Fin 8} {level : Bool} {s : State} (hA : 0x801 &&& A = 0x801) (hk : Keeps A z s) :
    KeepsOut A z (execTioInputTransition pin level s) := by
  unfold execTioInputTransition
  repeat' first
    | with_reducible assumption
    | with_reducible apply KeepsOut.fault
    | with_reducible apply KeepsOut.next
    | (extract_lets +onlyGivenNames y; refine KeepsOut.cut (y := y) ?_ (fun hy => ?_) <;> [(unfold y; clear y); (clear_value y; rename' y => w)])
    | ((with_reducible refine Part.sub hA ?_); rfl)
    | (extract_lets +onlyGivenNames y; refine Keeps.cut (y := y) ?_ (fun hy => ?_) <;> [(unfold y; clear y); (clear_value y; rename' y => w)])
    | (extract_lets +onlyGivenNames y; clear_value y; rename' y => w)
    | (extract_lets +onlyGivenNames y; rename' y => w)
    | with_reducible apply State.count_keeps
    | with_reducible apply State.modTioPin_keeps
    | split
    | dsimp -zeta only

theorem State.captureEdge_keeps {A : Nat} {z : State} {s : State} {n : Nat} {c : Capture} (hA : 0x4800000801 &&& A = 0x4800000801) (hk : Keeps A z s) :
    Keeps A z (State.captureEdge s n c) := by
  unfold State.captureEdge
  repeat' first
    | with_reducible assumption
    | ((with_reducible refine Part.sub hA ?_); rfl)
    | (extract_lets +onlyGivenNames y; refine Keeps.cut (y := y) ?_ (fun hy => ?_) <;> [(unfold y; clear y); (clear_value y; rename' y => w)])
    | (extract_lets +onlyGivenNames y; clear_value y; rename' y => w)
    | (extract_lets +onlyGivenNames y; rename' y => w)
    | with_reducible apply State.count_keeps
    | with_reducible apply State.modTioPin_keeps
    | with_reducible apply State.log_keeps
    | with_reducible apply State.irqCount_keeps
    | split
    | dsimp -zeta only

theorem State.chatter_keeps {A : Nat} {z : State} {s : State} {n edges : Nat} (hA : 0x4800000800 &&& A = 0x4800000800) (hk : Keeps A z s) :
    Keeps A z (State.chatter s n edges) := by
  unfold State.chatter
  repeat' first
    | with_reducible assumption
    | ((with_reducible refine Part.sub hA ?_); rfl)
    | (extract_lets +onlyGivenNames y; refine Keeps.cut (y := y) ?_ (fun hy => ?_) <;> [(unfold y; clear y); (clear_value y; rename' y => w)])
    | (extract_lets +onlyGivenNames y; clear_value y; rename' y => w)
    | (extract_lets +onlyGivenNames y; rename' y => w)
    | with_reducible apply State.modTioPin_keeps
    | with_reducible apply State.modSource_keeps
    | with_reducible apply State.log_keeps
    | with_reducible apply State.arbitrate_keeps
    | split
    | dsimp -zeta only

theorem execTioLevelQualified_keeps {A : Nat} {z : State} {pin : Fin 8} {s : State} (hA : 0x4800000801 &&& A = 0x4800000801) (hk : Keeps A z s) :
    KeepsOut A z (execTioLevelQualified pin s) := by
  unfold execTioLevelQualified
  repeat' first
    | with_reducible assumption
    | with_reducible apply KeepsOut.fault
    | with_reducible apply KeepsOut.next
    | (extract_lets +onlyGivenNames y; refine KeepsOut.cut (y := y) ?_ (fun hy => ?_) <;> [(unfold y; clear y); (clear_value y; rename' y => w)])
    | ((with_reducible refine Part.sub hA ?_); rfl)
    | (extract_lets +onlyGivenNames y; refine Keeps.cut (y := y) ?_ (fun hy => ?_) <;> [(unfold y; clear y); (clear_value y; rename' y => w)])
    | (extract_lets +onlyGivenNames y; clear_value y; rename' y => w)
    | (extract_lets +onlyGivenNames y; rename' y => w)
    | with_reducible apply State.modTioPin_keeps
    | with_reducible apply State.captureEdge_keeps
    | with_reducible apply State.chatter_keeps
    | split
    | dsimp -zeta only

theorem execTioStuckTimeout_keeps {A : Nat} {z : State} {pin : Fin 8} {s : State} (hA : 0x4000000800 &&& A = 0x4000000800) (hk : Keeps A z s) :
    KeepsOut A z (execTioStuckTimeout pin s) := by
  unfold execTioStuckTimeout
  repeat' first
    | with_reducible assumption
    | with_reducible apply KeepsOut.fault
    | with_reducible apply KeepsOut.next
    | (extract_lets +onlyGivenNames y; refine KeepsOut.cut (y := y) ?_ (fun hy => ?_) <;> [(unfold y; clear y); (clear_value y; rename' y => w)])
    | ((with_reducible refine Part.sub hA ?_); rfl)
    | (extract_lets +onlyGivenNames y; refine Keeps.cut (y := y) ?_ (fun hy => ?_) <;> [(unfold y; clear y); (clear_value y; rename' y => w)])
    | (extract_lets +onlyGivenNames y; clear_value y; rename' y => w)
    | (extract_lets +onlyGivenNames y; rename' y => w)
    | with_reducible apply State.modTioPin_keeps
    | with_reducible apply State.log_keeps
    | split
    | dsimp -zeta only

theorem State.tioIgnored_keeps {A : Nat} {z : State} {s : State} {n : Nat} (hA : 0x4000000000 &&& A = 0x4000000000) (hk : Keeps A z s) :
    Keeps A z (State.tioIgnored s n) := by
  unfold State.tioIgnored
  repeat' first
    | with_reducible assumption
    | ((with_reducible refine Part.sub hA ?_); rfl)
    | (extract_lets +onlyGivenNames y; refine Keeps.cut (y := y) ?_ (fun hy => ?_) <;> [(unfold y; clear y); (clear_value y; rename' y => w)])
    | (extract_lets +onlyGivenNames y; clear_value y; rename' y => w)
    | (extract_lets +onlyGivenNames y; rename' y => w)
    | with_reducible apply State.log_keeps
    | split
    | dsimp -zeta only

theorem execTioRelease_keeps {A : Nat} {z : State} {agent : Agent} {pin : Fin 8} {s : State} (hA : 0x4804800805 &&& A = 0x4804800805) (hk : Keeps A z s) :
    KeepsOut A z (execTioRelease agent pin s) := by
  unfold execTioRelease
  repeat' first
    | with_reducible assumption
    | with_reducible apply KeepsOut.fault
    | with_reducible apply KeepsOut.next
    | (extract_lets +onlyGivenNames y; refine KeepsOut.cut (y := y) ?_ (fun hy => ?_) <;> [(unfold y; clear y); (clear_value y; rename' y => w)])
    | ((with_reducible refine Part.sub hA ?_); rfl)
    | (extract_lets +onlyGivenNames y; refine Keeps.cut (y := y) ?_ (fun hy => ?_) <;> [(unfold y; clear y); (clear_value y; rename' y => w)])
    | (extract_lets +onlyGivenNames y; clear_value y; rename' y => w)
    | (extract_lets +onlyGivenNames y; rename' y => w)
    | with_reducible apply State.modTioPin_keeps
    | with_reducible apply State.releaseCause_keeps
    | with_reducible apply State.tioIgnored_keeps
    | (with_reducible apply Keeps.foldl; intro y b hy)
    | (with_reducible apply Keeps.foldl_fst; intro y b hy)
    | split
    | dsimp -zeta only

theorem execTioFlush_keeps {A : Nat} {z : State} {agent : Agent} {pin : Fin 8} {s : State} (hA : 0x800 &&& A = 0x800) (hk : Keeps A z s) :
    KeepsOut A z (execTioFlush agent pin s) := by
  unfold execTioFlush
  repeat' first
    | with_reducible assumption
    | with_reducible apply KeepsOut.fault
    | with_reducible apply KeepsOut.next
    | (extract_lets +onlyGivenNames y; refine KeepsOut.cut (y := y) ?_ (fun hy => ?_) <;> [(unfold y; clear y); (clear_value y; rename' y => w)])
    | ((with_reducible refine Part.sub hA ?_); rfl)
    | (extract_lets +onlyGivenNames y; refine Keeps.cut (y := y) ?_ (fun hy => ?_) <;> [(unfold y; clear y); (clear_value y; rename' y => w)])
    | (extract_lets +onlyGivenNames y; clear_value y; rename' y => w)
    | (extract_lets +onlyGivenNames y; rename' y => w)
    | with_reducible apply State.modTioPin_keeps
    | split
    | dsimp -zeta only

theorem execCapLoRead_keeps {A : Nat} {z : State} {agent : Agent} {pin : Fin 8} {s : State} (hA : 0x812 &&& A = 0x812) (hk : Keeps A z s) :
    KeepsOut A z (execCapLoRead agent pin s) := by
  unfold execCapLoRead
  repeat' first
    | with_reducible assumption
    | with_reducible apply KeepsOut.fault
    | with_reducible apply KeepsOut.next
    | (extract_lets +onlyGivenNames y; refine KeepsOut.cut (y := y) ?_ (fun hy => ?_) <;> [(unfold y; clear y); (clear_value y; rename' y => w)])
    | ((with_reducible refine Part.sub hA ?_); rfl)
    | (extract_lets +onlyGivenNames y; refine Keeps.cut (y := y) ?_ (fun hy => ?_) <;> [(unfold y; clear y); (clear_value y; rename' y => w)])
    | (extract_lets +onlyGivenNames y; clear_value y; rename' y => w)
    | (extract_lets +onlyGivenNames y; rename' y => w)
    | with_reducible apply State.setLatch_keeps
    | with_reducible apply State.modTioPin_keeps
    | with_reducible apply State.answer_keeps
    | split
    | dsimp -zeta only

theorem State.installTioPlan_keeps {A : Nat} {z : State} {s : State} {stamp : Stamp} {old new : List Byte} (hA : 0x800 &&& A = 0x800) (hk : Keeps A z s) :
    Keeps A z (State.installTioPlan s stamp old new) := by
  unfold State.installTioPlan
  repeat' first
    | with_reducible assumption
    | ((with_reducible refine Part.sub hA ?_); rfl)
    | (extract_lets +onlyGivenNames y; refine Keeps.cut (y := y) ?_ (fun hy => ?_) <;> [(unfold y; clear y); (clear_value y; rename' y => w)])
    | (extract_lets +onlyGivenNames y; clear_value y; rename' y => w)
    | (extract_lets +onlyGivenNames y; rename' y => w)
    | with_reducible apply State.modTioPin_keeps
    | (with_reducible apply Keeps.foldl; intro y b hy)
    | (with_reducible apply Keeps.foldl_fst; intro y b hy)
    | split
    | dsimp -zeta only

end Sys2Proof.Machine
end

