-- ==== Sys2Proof/Laws/KeepCommit.lean ====
section
/-!
SUPPORT. Keeps for the operations of Machine/Commit.lean.
-/

namespace Sys2Proof.Machine

theorem State.setTicket_keeps {A : Nat} {z : State} {s : State} {t : Nat} {st : CommitState} {cls : Nat} (hA : 0x2000 &&& A = 0x2000) (hk : Keeps A z s) :
    Keeps A z (State.setTicket s t st cls) := by
  unfold State.setTicket
  repeat' first
    | with_reducible assumption
    | ((with_reducible refine Part.sub hA ?_); rfl)
    | (extract_lets +onlyGivenNames y; refine Keeps.cut (y := y) ?_ (fun hy => ?_) <;> [(unfold y; clear y); (clear_value y; rename' y => w)])
    | (extract_lets +onlyGivenNames y; clear_value y; rename' y => w)
    | (extract_lets +onlyGivenNames y; rename' y => w)
    | with_reducible apply State.modCommits_keeps
    | split
    | dsimp -zeta only

theorem State.refused_keeps {A : Nat} {z : State} {s : State} {t : Nat} {f : FaultClass} {ctrl : Nat} {data : List Byte} (hA : 0x4800002005 &&& A = 0x4800002005) (hk : Keeps A z s) :
    Keeps A z (State.refused s t f ctrl data) := by
  unfold State.refused
  repeat' first
    | with_reducible assumption
    | ((with_reducible refine Part.sub hA ?_); rfl)
    | (extract_lets +onlyGivenNames y; refine Keeps.cut (y := y) ?_ (fun hy => ?_) <;> [(unfold y; clear y); (clear_value y; rename' y => w)])
    | (extract_lets +onlyGivenNames y; clear_value y; rename' y => w)
    | (extract_lets +onlyGivenNames y; rename' y => w)
    | with_reducible apply State.count_keeps
    | with_reducible apply State.log_keeps
    | with_reducible apply State.event_keeps
    | with_reducible apply State.setTicket_keeps
    | split
    | dsimp -zeta only

theorem State.headSilence_keeps {A : Nat} {z : State} {s : State} {h : Nat} (hA : 0x20000021 &&& A = 0x20000021) (hk : Keeps A z s) :
    Keeps A z (State.headSilence s h) := by
  unfold State.headSilence
  repeat' first
    | with_reducible assumption
    | ((with_reducible refine Part.sub hA ?_); rfl)
    | (extract_lets +onlyGivenNames y; refine Keeps.cut (y := y) ?_ (fun hy => ?_) <;> [(unfold y; clear y); (clear_value y; rename' y => w)])
    | (extract_lets +onlyGivenNames y; clear_value y; rename' y => w)
    | (extract_lets +onlyGivenNames y; rename' y => w)
    | with_reducible apply State.modHead_keeps
    | with_reducible apply State.headEov_keeps
    | split
    | dsimp -zeta only

theorem State.fullAccepted_keeps {A : Nat} {z : State} {s : State} (hA : 0x4d3da4c065 &&& A = 0x4d3da4c065) (hk : Keeps A z s) :
    Keeps A z (State.fullAccepted s) := by
  unfold State.fullAccepted
  repeat' first
    | with_reducible assumption
    | ((with_reducible refine Part.sub hA ?_); rfl)
    | (extract_lets +onlyGivenNames y; refine Keeps.cut (y := y) ?_ (fun hy => ?_) <;> [(unfold y; clear y); (clear_value y; rename' y => w)])
    | (extract_lets +onlyGivenNames y; clear_value y; rename' y => w)
    | (extract_lets +onlyGivenNames y; rename' y => w)
    | with_reducible apply State.modAudio_keeps
    | with_reducible apply State.flushQueue_keeps
    | with_reducible apply State.sealWheel_keeps
    | with_reducible apply State.stopChannel_keeps
    | with_reducible apply State.headSilence_keeps
    | (with_reducible apply Keeps.foldl; intro y b hy)
    | (with_reducible apply Keeps.foldl_fst; intro y b hy)
    | split
    | dsimp -zeta only

theorem State.tileLeaves_keeps {A : Nat} {z : State} {s : State} {d t : Nat} (hA : 0xcc3da6cb65 &&& A = 0xcc3da6cb65) (hk : Keeps A z s) :
    Keeps A z (State.tileLeaves s d t) := by
  unfold State.tileLeaves
  repeat' first
    | with_reducible assumption
    | ((with_reducible refine Part.sub hA ?_); rfl)
    | (extract_lets +onlyGivenNames y; refine Keeps.cut (y := y) ?_ (fun hy => ?_) <;> [(unfold y; clear y); (clear_value y; rename' y => w)])
    | (extract_lets +onlyGivenNames y; clear_value y; rename' y => w)
    | (extract_lets +onlyGivenNames y; rename' y => w)
    | with_reducible apply State.modTile_keeps
    | with_reducible apply State.modCoder_keeps
    | with_reducible apply State.ungate_keeps
    | with_reducible apply State.groupLeave_keeps
    | split
    | dsimp -zeta only

theorem State.ungateTargets_keeps {A : Nat} {z : State} {s : State} {c : Commit} (hA : 0x1008000 &&& A = 0x1008000) (hk : Keeps A z s) :
    Keeps A z (State.ungateTargets s c) := by
  unfold State.ungateTargets
  repeat' first
    | with_reducible assumption
    | ((with_reducible refine Part.sub hA ?_); rfl)
    | (extract_lets +onlyGivenNames y; refine Keeps.cut (y := y) ?_ (fun hy => ?_) <;> [(unfold y; clear y); (clear_value y; rename' y => w)])
    | (extract_lets +onlyGivenNames y; clear_value y; rename' y => w)
    | (extract_lets +onlyGivenNames y; rename' y => w)
    | with_reducible apply State.ungate_keeps
    | (with_reducible apply Keeps.foldl; intro y b hy)
    | (with_reducible apply Keeps.foldl_fst; intro y b hy)
    | split
    | dsimp -zeta only

theorem State.startShadow_keeps {A : Nat} {z : State} {s : State} {c : Commit} (hA : 0x100000 &&& A = 0x100000) (hk : Keeps A z s) :
    Keeps A z (State.startShadow s c) := by
  unfold State.startShadow
  repeat' first
    | with_reducible assumption
    | ((with_reducible refine Part.sub hA ?_); rfl)
    | (extract_lets +onlyGivenNames y; refine Keeps.cut (y := y) ?_ (fun hy => ?_) <;> [(unfold y; clear y); (clear_value y; rename' y => w)])
    | (extract_lets +onlyGivenNames y; clear_value y; rename' y => w)
    | (extract_lets +onlyGivenNames y; rename' y => w)
    | with_reducible apply State.beginRebuild_keeps
    | split
    | dsimp -zeta only

theorem State.accept_keeps {A : Nat} {z : State} {s : State} {c : Commit} (hA : 0xdd3db6eb65 &&& A = 0xdd3db6eb65) (hk : Keeps A z s) :
    Keeps A z (State.accept s c) := by
  unfold State.accept
  repeat' first
    | with_reducible assumption
    | ((with_reducible refine Part.sub hA ?_); rfl)
    | (extract_lets +onlyGivenNames y; refine Keeps.cut (y := y) ?_ (fun hy => ?_) <;> [(unfold y; clear y); (clear_value y; rename' y => w)])
    | (extract_lets +onlyGivenNames y; clear_value y; rename' y => w)
    | (extract_lets +onlyGivenNames y; rename' y => w)
    | with_reducible apply State.modSession_keeps
    | with_reducible apply State.modCommits_keeps
    | with_reducible apply State.ripenCoder_keeps
    | with_reducible apply State.setTicket_keeps
    | with_reducible apply State.fullAccepted_keeps
    | with_reducible apply State.tileLeaves_keeps
    | with_reducible apply State.ungateTargets_keeps
    | with_reducible apply State.startShadow_keeps
    | (with_reducible apply Keeps.foldl; intro y b hy)
    | (with_reducible apply Keeps.foldl_fst; intro y b hy)
    | split
    | dsimp -zeta only

theorem State.decideIssue_keeps {A : Nat} {z : State} {s : State} {x : Issue} (hA : 0xdd3db6eb65 &&& A = 0xdd3db6eb65) (hk : Keeps A z s) :
    Keeps A z (State.decideIssue s x) := by
  unfold State.decideIssue
  dsimp only
  repeat' first
    | with_reducible assumption
    | ((with_reducible refine Part.sub hA ?_); rfl)
    | (extract_lets +onlyGivenNames y; refine Keeps.cut (y := y) ?_ (fun hy => ?_) <;> [(unfold y; clear y); (clear_value y; rename' y => w)])
    | (extract_lets +onlyGivenNames y; clear_value y; rename' y => w)
    | (extract_lets +onlyGivenNames y; rename' y => w)
    | with_reducible apply State.count_keeps
    | with_reducible apply State.event_keeps
    | with_reducible apply State.refused_keeps
    | with_reducible apply State.accept_keeps
    | split
    | dsimp -zeta only

theorem execCommitIssue_keeps {A : Nat} {z : State} {agent : Agent} {s : State} (hA : 0xdd3db6eb67 &&& A = 0xdd3db6eb67) (hk : Keeps A z s) :
    KeepsOut A z (execCommitIssue agent s) := by
  unfold execCommitIssue
  repeat' first
    | with_reducible assumption
    | with_reducible apply KeepsOut.fault
    | with_reducible apply KeepsOut.next
    | (extract_lets +onlyGivenNames y; refine KeepsOut.cut (y := y) ?_ (fun hy => ?_) <;> [(unfold y; clear y); (clear_value y; rename' y => w)])
    | ((with_reducible refine Part.sub hA ?_); rfl)
    | (extract_lets +onlyGivenNames y; refine Keeps.cut (y := y) ?_ (fun hy => ?_) <;> [(unfold y; clear y); (clear_value y; rename' y => w)])
    | (extract_lets +onlyGivenNames y; clear_value y; rename' y => w)
    | (extract_lets +onlyGivenNames y; rename' y => w)
    | with_reducible apply State.setLatch_keeps
    | with_reducible apply State.modCommits_keeps
    | with_reducible apply State.decideIssue_keeps
    | split
    | dsimp -zeta only

theorem State.groupBack_keeps {A : Nat} {z : State} {s : State} {d t : Nat} (hA : 0x60001 &&& A = 0x60001) (hk : Keeps A z s) :
    Keeps A z (State.groupBack s d t) := by
  unfold State.groupBack
  repeat' first
    | with_reducible assumption
    | ((with_reducible refine Part.sub hA ?_); rfl)
    | (extract_lets +onlyGivenNames y; refine Keeps.cut (y := y) ?_ (fun hy => ?_) <;> [(unfold y; clear y); (clear_value y; rename' y => w)])
    | (extract_lets +onlyGivenNames y; clear_value y; rename' y => w)
    | (extract_lets +onlyGivenNames y; rename' y => w)
    | with_reducible apply State.groupRejoin_keeps
    | split
    | dsimp -zeta only

theorem State.tileRejoins_keeps {A : Nat} {z : State} {s : State} {x : Nat × Nat} (hA : 0x1868001 &&& A = 0x1868001) (hk : Keeps A z s) :
    Keeps A z (State.tileRejoins s x) := by
  unfold State.tileRejoins
  repeat' first
    | with_reducible assumption
    | ((with_reducible refine Part.sub hA ?_); rfl)
    | (extract_lets +onlyGivenNames y; refine Keeps.cut (y := y) ?_ (fun hy => ?_) <;> [(unfold y; clear y); (clear_value y; rename' y => w)])
    | (extract_lets +onlyGivenNames y; clear_value y; rename' y => w)
    | (extract_lets +onlyGivenNames y; rename' y => w)
    | with_reducible apply State.modTile_keeps
    | with_reducible apply State.modCoder_keeps
    | with_reducible apply State.clearTileCounts_keeps
    | with_reducible apply State.gate_keeps
    | with_reducible apply State.groupBack_keeps
    | split
    | dsimp -zeta only

theorem State.startChannel_keeps {A : Nat} {z : State} {s : State} {c : Nat} (hA : 0x4c1da0c045 &&& A = 0x4c1da0c045) (hk : Keeps A z s) :
    Keeps A z (State.startChannel s c) := by
  unfold State.startChannel
  repeat' first
    | with_reducible assumption
    | ((with_reducible refine Part.sub hA ?_); rfl)
    | (extract_lets +onlyGivenNames y; refine Keeps.cut (y := y) ?_ (fun hy => ?_) <;> [(unfold y; clear y); (clear_value y; rename' y => w)])
    | (extract_lets +onlyGivenNames y; clear_value y; rename' y => w)
    | (extract_lets +onlyGivenNames y; rename' y => w)
    | with_reducible apply State.modChan_keeps
    | with_reducible apply State.channelHarmless_keeps
    | with_reducible apply State.applySections_keeps
    | with_reducible apply State.enableChannel_keeps
    | split
    | (with_reducible refine Keeps.change ?_ rfl rfl rfl rfl rfl rfl rfl rfl id ?_)
    | (intro p hp; cases p <;> first | exact Part.inside hA hp rfl | rfl)
    | dsimp -zeta only

theorem State.startOutputs_keeps {A : Nat} {z : State} {s : State} {stamp : Stamp} (hA : 0x4d3da0c065 &&& A = 0x4d3da0c065) (hk : Keeps A z s) :
    Keeps A z (State.startOutputs s stamp) := by
  unfold State.startOutputs
  repeat' first
    | with_reducible assumption
    | ((with_reducible refine Part.sub hA ?_); rfl)
    | (extract_lets +onlyGivenNames y; refine Keeps.cut (y := y) ?_ (fun hy => ?_) <;> [(unfold y; clear y); (clear_value y; rename' y => w)])
    | (extract_lets +onlyGivenNames y; clear_value y; rename' y => w)
    | (extract_lets +onlyGivenNames y; rename' y => w)
    | with_reducible apply State.audioWait_keeps
    | with_reducible apply State.headCommit_keeps
    | with_reducible apply State.startChannel_keeps
    | (with_reducible apply Keeps.foldl; intro y b hy)
    | (with_reducible apply Keeps.foldl_fst; intro y b hy)
    | split
    | dsimp -zeta only

theorem State.rejoin_keeps {A : Nat} {z : State} {s : State} {c : Commit} (hA : 0x4d3db6c065 &&& A = 0x4d3db6c065) (hk : Keeps A z s) :
    Keeps A z (State.rejoin s c) := by
  unfold State.rejoin
  repeat' first
    | with_reducible assumption
    | ((with_reducible refine Part.sub hA ?_); rfl)
    | (extract_lets +onlyGivenNames y; refine Keeps.cut (y := y) ?_ (fun hy => ?_) <;> [(unfold y; clear y); (clear_value y; rename' y => w)])
    | (extract_lets +onlyGivenNames y; clear_value y; rename' y => w)
    | (extract_lets +onlyGivenNames y; rename' y => w)
    | with_reducible apply State.modTile_keeps
    | with_reducible apply State.modCoder_keeps
    | with_reducible apply State.clearTileCounts_keeps
    | with_reducible apply State.gateUnused_keeps
    | with_reducible apply State.spareCheck_keeps
    | with_reducible apply State.dropRebuild_keeps
    | with_reducible apply State.tileRejoins_keeps
    | with_reducible apply State.startOutputs_keeps
    | (with_reducible apply Keeps.foldl; intro y b hy)
    | (with_reducible apply Keeps.foldl_fst; intro y b hy)
    | split
    | dsimp -zeta only

theorem State.drop_keeps {A : Nat} {z : State} {s : State} {c : Commit} {st : CommitState} {cls : Nat} (hA : 0x4d3db6e065 &&& A = 0x4d3db6e065) (hk : Keeps A z s) :
    Keeps A z (State.drop s c st cls) := by
  unfold State.drop
  repeat' first
    | with_reducible assumption
    | ((with_reducible refine Part.sub hA ?_); rfl)
    | (extract_lets +onlyGivenNames y; refine Keeps.cut (y := y) ?_ (fun hy => ?_) <;> [(unfold y; clear y); (clear_value y; rename' y => w)])
    | (extract_lets +onlyGivenNames y; clear_value y; rename' y => w)
    | (extract_lets +onlyGivenNames y; rename' y => w)
    | with_reducible apply State.count_keeps
    | with_reducible apply State.modCommits_keeps
    | with_reducible apply State.event_keeps
    | with_reducible apply State.setTicket_keeps
    | with_reducible apply State.rejoin_keeps
    | split
    | dsimp -zeta only

theorem State.abandon_keeps {A : Nat} {z : State} {s : State} {c : Commit} {reason : Nat} (hA : 0x4d3db6e065 &&& A = 0x4d3db6e065) (hk : Keeps A z s) :
    Keeps A z (State.abandon s c reason) := by
  unfold State.abandon
  repeat' first
    | with_reducible assumption
    | ((with_reducible refine Part.sub hA ?_); rfl)
    | (extract_lets +onlyGivenNames y; refine Keeps.cut (y := y) ?_ (fun hy => ?_) <;> [(unfold y; clear y); (clear_value y; rename' y => w)])
    | (extract_lets +onlyGivenNames y; clear_value y; rename' y => w)
    | (extract_lets +onlyGivenNames y; rename' y => w)
    | with_reducible apply State.log_keeps
    | with_reducible apply State.drop_keeps
    | split
    | dsimp -zeta only

theorem State.notRipe_keeps {A : Nat} {z : State} {s : State} {c : Commit} (hA : 0x4d3db6e065 &&& A = 0x4d3db6e065) (hk : Keeps A z s) :
    Keeps A z (State.notRipe s c) := by
  unfold State.notRipe
  repeat' first
    | with_reducible assumption
    | ((with_reducible refine Part.sub hA ?_); rfl)
    | (extract_lets +onlyGivenNames y; refine Keeps.cut (y := y) ?_ (fun hy => ?_) <;> [(unfold y; clear y); (clear_value y; rename' y => w)])
    | (extract_lets +onlyGivenNames y; clear_value y; rename' y => w)
    | (extract_lets +onlyGivenNames y; rename' y => w)
    | with_reducible apply State.log_keeps
    | with_reducible apply State.drop_keeps
    | split
    | dsimp -zeta only

theorem State.setCommit_keeps {A : Nat} {z : State} {s : State} {c : Commit} (hA : 0x2000 &&& A = 0x2000) (hk : Keeps A z s) :
    Keeps A z (State.setCommit s c) := by
  unfold State.setCommit
  repeat' first
    | with_reducible assumption
    | ((with_reducible refine Part.sub hA ?_); rfl)
    | (extract_lets +onlyGivenNames y; refine Keeps.cut (y := y) ?_ (fun hy => ?_) <;> [(unfold y; clear y); (clear_value y; rename' y => w)])
    | (extract_lets +onlyGivenNames y; clear_value y; rename' y => w)
    | (extract_lets +onlyGivenNames y; rename' y => w)
    | with_reducible apply State.modCommits_keeps
    | with_reducible apply State.setTicket_keeps
    | split
    | dsimp -zeta only

theorem execCommitCancel_keeps {A : Nat} {z : State} {agent : Agent} {ticket : Nat} {s : State} (hA : 0x4d3db6e065 &&& A = 0x4d3db6e065) (hk : Keeps A z s) :
    KeepsOut A z (execCommitCancel agent ticket s) := by
  unfold execCommitCancel
  repeat' first
    | with_reducible assumption
    | with_reducible apply KeepsOut.fault
    | with_reducible apply KeepsOut.next
    | (extract_lets +onlyGivenNames y; refine KeepsOut.cut (y := y) ?_ (fun hy => ?_) <;> [(unfold y; clear y); (clear_value y; rename' y => w)])
    | ((with_reducible refine Part.sub hA ?_); rfl)
    | (extract_lets +onlyGivenNames y; refine Keeps.cut (y := y) ?_ (fun hy => ?_) <;> [(unfold y; clear y); (clear_value y; rename' y => w)])
    | (extract_lets +onlyGivenNames y; clear_value y; rename' y => w)
    | (extract_lets +onlyGivenNames y; rename' y => w)
    | with_reducible apply State.modCommits_keeps
    | with_reducible apply State.log_keeps
    | with_reducible apply State.drop_keeps
    | split
    | dsimp -zeta only

theorem State.slotLost_keeps {A : Nat} {z : State} {s : State} {n : Nat} (hA : 0x4d3db6f065 &&& A = 0x4d3db6f065) (hk : Keeps A z s) :
    Keeps A z (State.slotLost s n) := by
  unfold State.slotLost
  repeat' first
    | with_reducible assumption
    | ((with_reducible refine Part.sub hA ?_); rfl)
    | (extract_lets +onlyGivenNames y; refine Keeps.cut (y := y) ?_ (fun hy => ?_) <;> [(unfold y; clear y); (clear_value y; rename' y => w)])
    | (extract_lets +onlyGivenNames y; clear_value y; rename' y => w)
    | (extract_lets +onlyGivenNames y; rename' y => w)
    | with_reducible apply State.log_keeps
    | with_reducible apply State.event_keeps
    | with_reducible apply State.modImgSlot_keeps
    | with_reducible apply State.abandon_keeps
    | (with_reducible apply Keeps.foldl; intro y b hy)
    | (with_reducible apply Keeps.foldl_fst; intro y b hy)
    | split
    | dsimp -zeta only

theorem State.safeAbandons_keeps {A : Nat} {z : State} {s : State} (hA : 0x4d3db6e065 &&& A = 0x4d3db6e065) (hk : Keeps A z s) :
    Keeps A z (State.safeAbandons s) := by
  unfold State.safeAbandons
  repeat' first
    | with_reducible assumption
    | ((with_reducible refine Part.sub hA ?_); rfl)
    | (extract_lets +onlyGivenNames y; refine Keeps.cut (y := y) ?_ (fun hy => ?_) <;> [(unfold y; clear y); (clear_value y; rename' y => w)])
    | (extract_lets +onlyGivenNames y; clear_value y; rename' y => w)
    | (extract_lets +onlyGivenNames y; rename' y => w)
    | with_reducible apply State.abandon_keeps
    | (with_reducible apply Keeps.foldl; intro y b hy)
    | (with_reducible apply Keeps.foldl_fst; intro y b hy)
    | split
    | dsimp -zeta only

theorem execGoPoint_keeps {A : Nat} {z : State} {ticket : Nat} {s : State} (hA : 0x4d3db6e065 &&& A = 0x4d3db6e065) (hk : Keeps A z s) :
    KeepsOut A z (execGoPoint ticket s) := by
  unfold execGoPoint
  repeat' first
    | with_reducible assumption
    | with_reducible apply KeepsOut.fault
    | with_reducible apply KeepsOut.next
    | (extract_lets +onlyGivenNames y; refine KeepsOut.cut (y := y) ?_ (fun hy => ?_) <;> [(unfold y; clear y); (clear_value y; rename' y => w)])
    | ((with_reducible refine Part.sub hA ?_); rfl)
    | (extract_lets +onlyGivenNames y; refine Keeps.cut (y := y) ?_ (fun hy => ?_) <;> [(unfold y; clear y); (clear_value y; rename' y => w)])
    | (extract_lets +onlyGivenNames y; clear_value y; rename' y => w)
    | (extract_lets +onlyGivenNames y; rename' y => w)
    | with_reducible apply State.abandon_keeps
    | with_reducible apply State.notRipe_keeps
    | with_reducible apply State.setCommit_keeps
    | split
    | dsimp -zeta only

theorem State.ripenFail_keeps {A : Nat} {z : State} {s : State} {ticket d t stage : Nat} (hA : 0x4000000000 &&& A = 0x4000000000) (hk : Keeps A z s) :
    Keeps A z (State.ripenFail s ticket d t stage) := by
  unfold State.ripenFail
  repeat' first
    | with_reducible assumption
    | ((with_reducible refine Part.sub hA ?_); rfl)
    | (extract_lets +onlyGivenNames y; refine Keeps.cut (y := y) ?_ (fun hy => ?_) <;> [(unfold y; clear y); (clear_value y; rename' y => w)])
    | (extract_lets +onlyGivenNames y; clear_value y; rename' y => w)
    | (extract_lets +onlyGivenNames y; rename' y => w)
    | with_reducible apply State.log_keeps
    | split
    | dsimp -zeta only

theorem State.selfTested_keeps {A : Nat} {z : State} {s : State} {k : Nat} {failed : Option Nat} (hA : 0x4801000005 &&& A = 0x4801000005) (hk : Keeps A z s) :
    Keeps A z (State.selfTested s k failed) := by
  unfold State.selfTested
  repeat' first
    | with_reducible assumption
    | ((with_reducible refine Part.sub hA ?_); rfl)
    | (extract_lets +onlyGivenNames y; refine Keeps.cut (y := y) ?_ (fun hy => ?_) <;> [(unfold y; clear y); (clear_value y; rename' y => w)])
    | (extract_lets +onlyGivenNames y; clear_value y; rename' y => w)
    | (extract_lets +onlyGivenNames y; rename' y => w)
    | with_reducible apply State.modCoder_keeps
    | with_reducible apply State.event_keeps
    | split
    | dsimp -zeta only

theorem State.coderTested_keeps {A : Nat} {z : State} {s : State} {k : Nat} {failed : Option Nat} (hA : 0x4801000005 &&& A = 0x4801000005) (hk : Keeps A z s) :
    Keeps A z (State.coderTested s k failed) := by
  unfold State.coderTested
  repeat' first
    | with_reducible assumption
    | ((with_reducible refine Part.sub hA ?_); rfl)
    | (extract_lets +onlyGivenNames y; refine Keeps.cut (y := y) ?_ (fun hy => ?_) <;> [(unfold y; clear y); (clear_value y; rename' y => w)])
    | (extract_lets +onlyGivenNames y; clear_value y; rename' y => w)
    | (extract_lets +onlyGivenNames y; rename' y => w)
    | with_reducible apply State.modCoder_keeps
    | with_reducible apply State.log_keeps
    | with_reducible apply State.event_keeps
    | with_reducible apply State.selfTested_keeps
    | split
    | dsimp -zeta only

theorem State.takePlane_keeps {A : Nat} {z : State} {s : State} {k : Nat} {p : List Byte} (hA : 0x1008000 &&& A = 0x1008000) (hk : Keeps A z s) :
    Keeps A z (State.takePlane s k p) := by
  unfold State.takePlane
  repeat' first
    | with_reducible assumption
    | ((with_reducible refine Part.sub hA ?_); rfl)
    | (extract_lets +onlyGivenNames y; refine Keeps.cut (y := y) ?_ (fun hy => ?_) <;> [(unfold y; clear y); (clear_value y; rename' y => w)])
    | (extract_lets +onlyGivenNames y; clear_value y; rename' y => w)
    | (extract_lets +onlyGivenNames y; rename' y => w)
    | with_reducible apply State.modTile_keeps
    | with_reducible apply State.modCoder_keeps
    | split
    | dsimp -zeta only

theorem State.exchangePlanes_keeps {A : Nat} {z : State} {s : State} {k : Nat} (hA : 0x1008000 &&& A = 0x1008000) (hk : Keeps A z s) :
    Keeps A z (State.exchangePlanes s k) := by
  unfold State.exchangePlanes
  repeat' first
    | with_reducible assumption
    | ((with_reducible refine Part.sub hA ?_); rfl)
    | (extract_lets +onlyGivenNames y; refine Keeps.cut (y := y) ?_ (fun hy => ?_) <;> [(unfold y; clear y); (clear_value y; rename' y => w)])
    | (extract_lets +onlyGivenNames y; clear_value y; rename' y => w)
    | (extract_lets +onlyGivenNames y; rename' y => w)
    | with_reducible apply State.takePlane_keeps
    | split
    | dsimp -zeta only

theorem State.afterRipe_keeps {A : Nat} {z : State} {s : State} (hA : 0x4c3da4c865 &&& A = 0x4c3da4c865) (hk : Keeps A z s) :
    Keeps A z (State.afterRipe s) := by
  unfold State.afterRipe
  repeat' first
    | with_reducible assumption
    | ((with_reducible refine Part.sub hA ?_); rfl)
    | (extract_lets +onlyGivenNames y; refine Keeps.cut (y := y) ?_ (fun hy => ?_) <;> [(unfold y; clear y); (clear_value y; rename' y => w)])
    | (extract_lets +onlyGivenNames y; clear_value y; rename' y => w)
    | (extract_lets +onlyGivenNames y; rename' y => w)
    | with_reducible apply State.trimCoders_keeps
    | with_reducible apply State.spareCheck_keeps
    | with_reducible apply State.grantWaiting_keeps
    | with_reducible apply State.rollDoneCheck_keeps
    | with_reducible apply State.pairReadyCheck_keeps
    | split
    | dsimp -zeta only

theorem State.commitReports_keeps {A : Nat} {z : State} {s : State} {c : Commit} {d t : Nat} {failed : Option Nat} (hA : 0x4d3db6e865 &&& A = 0x4d3db6e865) (hk : Keeps A z s) :
    Keeps A z (State.commitReports s c d t failed) := by
  unfold State.commitReports
  repeat' first
    | with_reducible assumption
    | ((with_reducible refine Part.sub hA ?_); rfl)
    | (extract_lets +onlyGivenNames y; refine Keeps.cut (y := y) ?_ (fun hy => ?_) <;> [(unfold y; clear y); (clear_value y; rename' y => w)])
    | (extract_lets +onlyGivenNames y; clear_value y; rename' y => w)
    | (extract_lets +onlyGivenNames y; rename' y => w)
    | with_reducible apply State.modTile_keeps
    | with_reducible apply State.modCoder_keeps
    | with_reducible apply State.abandon_keeps
    | with_reducible apply State.setCommit_keeps
    | with_reducible apply State.ripenFail_keeps
    | with_reducible apply State.selfTested_keeps
    | with_reducible apply State.coderTested_keeps
    | with_reducible apply State.afterRipe_keeps
    | split
    | dsimp -zeta only

theorem State.tileReports_keeps {A : Nat} {z : State} {s : State} {d t : Nat} {failed : Option Nat} (hA : 0x4c3da6c865 &&& A = 0x4c3da6c865) (hk : Keeps A z s) :
    Keeps A z (State.tileReports s d t failed) := by
  unfold State.tileReports
  repeat' first
    | with_reducible assumption
    | ((with_reducible refine Part.sub hA ?_); rfl)
    | (extract_lets +onlyGivenNames y; refine Keeps.cut (y := y) ?_ (fun hy => ?_) <;> [(unfold y; clear y); (clear_value y; rename' y => w)])
    | (extract_lets +onlyGivenNames y; clear_value y; rename' y => w)
    | (extract_lets +onlyGivenNames y; rename' y => w)
    | with_reducible apply State.modTile_keeps
    | with_reducible apply State.clearTileCounts_keeps
    | with_reducible apply State.groupJoin_keeps
    | with_reducible apply State.groupBack_keeps
    | with_reducible apply State.ripenFail_keeps
    | with_reducible apply State.coderTested_keeps
    | with_reducible apply State.takePlane_keeps
    | with_reducible apply State.afterRipe_keeps
    | split
    | dsimp -zeta only

theorem execRipenDone_keeps {A : Nat} {z : State} {domain : Fin 8} {tile : Fin 64} {failedStage : Option (Fin 3)} {s : State} (hA : 0x4d3db6e865 &&& A = 0x4d3db6e865) (hk : Keeps A z s) :
    KeepsOut A z (execRipenDone domain tile failedStage s) := by
  unfold execRipenDone
  repeat' first
    | with_reducible assumption
    | with_reducible apply KeepsOut.fault
    | with_reducible apply KeepsOut.next
    | (extract_lets +onlyGivenNames y; refine KeepsOut.cut (y := y) ?_ (fun hy => ?_) <;> [(unfold y; clear y); (clear_value y; rename' y => w)])
    | ((with_reducible refine Part.sub hA ?_); rfl)
    | (extract_lets +onlyGivenNames y; refine Keeps.cut (y := y) ?_ (fun hy => ?_) <;> [(unfold y; clear y); (clear_value y; rename' y => w)])
    | (extract_lets +onlyGivenNames y; clear_value y; rename' y => w)
    | (extract_lets +onlyGivenNames y; rename' y => w)
    | with_reducible apply State.commitReports_keeps
    | with_reducible apply State.tileReports_keeps
    | split
    | dsimp -zeta only

theorem execFtRebuildDone_keeps {A : Nat} {z : State} {s : State} (hA : 0x142021 &&& A = 0x142021) (hk : Keeps A z s) :
    KeepsOut A z (execFtRebuildDone s) := by
  unfold execFtRebuildDone
  repeat' first
    | with_reducible assumption
    | with_reducible apply KeepsOut.fault
    | with_reducible apply KeepsOut.next
    | (extract_lets +onlyGivenNames y; refine KeepsOut.cut (y := y) ?_ (fun hy => ?_) <;> [(unfold y; clear y); (clear_value y; rename' y => w)])
    | ((with_reducible refine Part.sub hA ?_); rfl)
    | (extract_lets +onlyGivenNames y; refine Keeps.cut (y := y) ?_ (fun hy => ?_) <;> [(unfold y; clear y); (clear_value y; rename' y => w)])
    | (extract_lets +onlyGivenNames y; clear_value y; rename' y => w)
    | (extract_lets +onlyGivenNames y; rename' y => w)
    | with_reducible apply State.modFt_keeps
    | with_reducible apply State.joinBank_keeps
    | with_reducible apply State.setCommit_keeps
    | split
    | dsimp -zeta only

end Sys2Proof.Machine
end

