-- ==== Sys2Proof/Laws/KeepMemory.lean ====
section
/-!
SUPPORT. Keeps for the operations of Machine/Memory.lean.
-/

namespace Sys2Proof.Machine

theorem State.corrected_keeps {A : Nat} {z : State} {s : State} {m : Nat} (hA : 0x200000001 &&& A = 0x200000001) (hk : Keeps A z s) :
    Keeps A z (State.corrected s m) := by
  unfold State.corrected
  repeat' first
    | with_reducible assumption
    | ((with_reducible refine Part.sub hA ?_); rfl)
    | (extract_lets +onlyGivenNames y; refine Keeps.cut (y := y) ?_ (fun hy => ?_) <;> [(unfold y; clear y); (clear_value y; rename' y => w)])
    | (extract_lets +onlyGivenNames y; clear_value y; rename' y => w)
    | (extract_lets +onlyGivenNames y; rename' y => w)
    | with_reducible apply State.count_keeps
    | with_reducible apply State.modMchan_keeps
    | split
    | dsimp -zeta only

theorem State.uncorrectable_keeps {A : Nat} {z : State} {s : State} {m region : Nat} {port : MemPort} (hA : 0x4a00000005 &&& A = 0x4a00000005) (hk : Keeps A z s) :
    Keeps A z (State.uncorrectable s m region port) := by
  unfold State.uncorrectable
  repeat' first
    | with_reducible assumption
    | ((with_reducible refine Part.sub hA ?_); rfl)
    | (extract_lets +onlyGivenNames y; refine Keeps.cut (y := y) ?_ (fun hy => ?_) <;> [(unfold y; clear y); (clear_value y; rename' y => w)])
    | (extract_lets +onlyGivenNames y; clear_value y; rename' y => w)
    | (extract_lets +onlyGivenNames y; rename' y => w)
    | with_reducible apply State.count_keeps
    | with_reducible apply State.modMchan_keeps
    | with_reducible apply State.logRated_keeps
    | with_reducible apply State.event_keeps
    | split
    | dsimp -zeta only

theorem State.dupRepair_keeps {A : Nat} {z : State} {s : State} {region extent l copy : Nat} (hA : 0x4200000001 &&& A = 0x4200000001) (hk : Keeps A z s) :
    Keeps A z (State.dupRepair s region extent l copy) := by
  unfold State.dupRepair
  repeat' first
    | with_reducible assumption
    | ((with_reducible refine Part.sub hA ?_); rfl)
    | (extract_lets +onlyGivenNames y; refine Keeps.cut (y := y) ?_ (fun hy => ?_) <;> [(unfold y; clear y); (clear_value y; rename' y => w)])
    | (extract_lets +onlyGivenNames y; clear_value y; rename' y => w)
    | (extract_lets +onlyGivenNames y; rename' y => w)
    | with_reducible apply State.count_keeps
    | with_reducible apply State.log_keeps
    | with_reducible apply State.unpoison_keeps
    | split
    | dsimp -zeta only

theorem State.poisonEffect_keeps {A : Nat} {z : State} {s : State} {m : Nat} {r : MemReq} (hA : 0x4f3db6f065 &&& A = 0x4f3db6f065) (hk : Keeps A z s) :
    Keeps A z (State.poisonEffect s m r) := by
  unfold State.poisonEffect
  repeat' first
    | with_reducible assumption
    | ((with_reducible refine Part.sub hA ?_); rfl)
    | (extract_lets +onlyGivenNames y; refine Keeps.cut (y := y) ?_ (fun hy => ?_) <;> [(unfold y; clear y); (clear_value y; rename' y => w)])
    | (extract_lets +onlyGivenNames y; clear_value y; rename' y => w)
    | (extract_lets +onlyGivenNames y; rename' y => w)
    | with_reducible apply State.modMchan_keeps
    | with_reducible apply State.log_keeps
    | with_reducible apply State.slotLost_keeps
    | split
    | dsimp -zeta only

theorem State.lineRead_keeps {A : Nat} {z : State} {s : State} {m : Nat} {r : MemReq} {errors : Nat} (hA : 0x4a00000005 &&& A = 0x4a00000005) (hk : Keeps A z s) :
    Keeps A z (State.lineRead s m r errors).1 := by
  unfold State.lineRead
  repeat' first
    | with_reducible assumption
    | ((with_reducible refine Part.sub hA ?_); rfl)
    | (extract_lets +onlyGivenNames y; refine Keeps.cut (y := y) ?_ (fun hy => ?_) <;> [(unfold y; clear y); (clear_value y; rename' y => w)])
    | (extract_lets +onlyGivenNames y; clear_value y; rename' y => w)
    | (extract_lets +onlyGivenNames y; rename' y => w)
    | with_reducible apply State.event_keeps
    | with_reducible apply State.poison_keeps
    | with_reducible apply State.corrected_keeps
    | with_reducible apply State.uncorrectable_keeps
    | with_reducible apply State.dupRepair_keeps
    | split
    | dsimp -zeta only

theorem State.memWrite_keeps {A : Nat} {z : State} {s : State} {m : Nat} {r : MemReq} {p : List Byte} {errors : Nat} (hA : 0x4a0000000d &&& A = 0x4a0000000d) (hk : Keeps A z s) :
    Keeps A z (State.memWrite s m r p errors) := by
  unfold State.memWrite
  repeat' first
    | with_reducible assumption
    | ((with_reducible refine Part.sub hA ?_); rfl)
    | (extract_lets +onlyGivenNames y; refine Keeps.cut (y := y) ?_ (fun hy => ?_) <;> [(unfold y; clear y); (clear_value y; rename' y => w)])
    | (extract_lets +onlyGivenNames y; clear_value y; rename' y => w)
    | (extract_lets +onlyGivenNames y; rename' y => w)
    | with_reducible apply State.unpoison_keeps
    | (refine Keeps.of_fst (State.lineRead_keeps (Part.sub hA rfl) ?_) (by assumption))
    | with_reducible apply State.lineRead_keeps
    | with_reducible apply State.setBytes_keeps
    | split
    | dsimp -zeta only

theorem State.memValue_keeps {A : Nat} {z : State} {s : State} {r : MemReq} (hA : 0x10 &&& A = 0x10) (hk : Keeps A z s) :
    Keeps A z (State.memValue s r) := by
  unfold State.memValue
  repeat' first
    | with_reducible assumption
    | ((with_reducible refine Part.sub hA ?_); rfl)
    | (extract_lets +onlyGivenNames y; refine Keeps.cut (y := y) ?_ (fun hy => ?_) <;> [(unfold y; clear y); (clear_value y; rename' y => w)])
    | (extract_lets +onlyGivenNames y; clear_value y; rename' y => w)
    | (extract_lets +onlyGivenNames y; rename' y => w)
    | with_reducible apply State.answer_keeps
    | split
    | dsimp -zeta only

theorem State.memRead_keeps {A : Nat} {z : State} {s : State} {m : Nat} {r : MemReq} {errors : Nat} (hA : 0x4f3db6f075 &&& A = 0x4f3db6f075) (hk : Keeps A z s) :
    Keeps A z (State.memRead s m r errors) := by
  unfold State.memRead
  dsimp only
  repeat' first
    | with_reducible assumption
    | ((with_reducible refine Part.sub hA ?_); rfl)
    | (extract_lets +onlyGivenNames y; refine Keeps.cut (y := y) ?_ (fun hy => ?_) <;> [(unfold y; clear y); (clear_value y; rename' y => w)])
    | (extract_lets +onlyGivenNames y; clear_value y; rename' y => w)
    | (extract_lets +onlyGivenNames y; rename' y => w)
    | with_reducible apply State.poisonEffect_keeps
    | (refine Keeps.of_fst (State.lineRead_keeps (Part.sub hA rfl) ?_) (by assumption))
    | with_reducible apply State.lineRead_keeps
    | with_reducible apply State.memValue_keeps
    | split
    | dsimp -zeta only

theorem State.serve_keeps {A : Nat} {z : State} {s : State} {m : Nat} {r : MemReq} {errors : Nat} (hA : 0x4f3db6f07d &&& A = 0x4f3db6f07d) (hk : Keeps A z s) :
    Keeps A z (State.serve s m r errors) := by
  unfold State.serve
  repeat' first
    | with_reducible assumption
    | ((with_reducible refine Part.sub hA ?_); rfl)
    | (extract_lets +onlyGivenNames y; refine Keeps.cut (y := y) ?_ (fun hy => ?_) <;> [(unfold y; clear y); (clear_value y; rename' y => w)])
    | (extract_lets +onlyGivenNames y; clear_value y; rename' y => w)
    | (extract_lets +onlyGivenNames y; rename' y => w)
    | with_reducible apply State.modMchan_keeps
    | with_reducible apply State.memWrite_keeps
    | with_reducible apply State.memRead_keeps
    | split
    | dsimp -zeta only

theorem State.fencedRequest_keeps {A : Nat} {z : State} {s : State} {m : Nat} {r : MemReq} (hA : 0x4f3db6f075 &&& A = 0x4f3db6f075) (hk : Keeps A z s) :
    Keeps A z (State.fencedRequest s m r) := by
  unfold State.fencedRequest
  repeat' first
    | with_reducible assumption
    | ((with_reducible refine Part.sub hA ?_); rfl)
    | (extract_lets +onlyGivenNames y; refine Keeps.cut (y := y) ?_ (fun hy => ?_) <;> [(unfold y; clear y); (clear_value y; rename' y => w)])
    | (extract_lets +onlyGivenNames y; clear_value y; rename' y => w)
    | (extract_lets +onlyGivenNames y; rename' y => w)
    | with_reducible apply State.poisonEffect_keeps
    | with_reducible apply State.memValue_keeps
    | split
    | dsimp -zeta only

theorem State.arrive_keeps {A : Nat} {z : State} {s : State} {m : Nat} {r : MemReq} (hA : 0x4f3db6f075 &&& A = 0x4f3db6f075) (hk : Keeps A z s) :
    Keeps A z (State.arrive s m r) := by
  unfold State.arrive
  repeat' first
    | with_reducible assumption
    | ((with_reducible refine Part.sub hA ?_); rfl)
    | (extract_lets +onlyGivenNames y; refine Keeps.cut (y := y) ?_ (fun hy => ?_) <;> [(unfold y; clear y); (clear_value y; rename' y => w)])
    | (extract_lets +onlyGivenNames y; clear_value y; rename' y => w)
    | (extract_lets +onlyGivenNames y; rename' y => w)
    | with_reducible apply State.modMchan_keeps
    | with_reducible apply State.log_keeps
    | with_reducible apply State.fencedRequest_keeps
    | split
    | dsimp -zeta only

theorem State.moveExtent_keeps {A : Nat} {z : State} {s : State} {p : Nat} {x : Nat × Nat × Nat} (hA : 0x4a00000005 &&& A = 0x4a00000005) (hk : Keeps A z s) :
    Keeps A z (State.moveExtent s p x).1 := by
  unfold State.moveExtent
  repeat' first
    | with_reducible assumption
    | ((with_reducible refine Part.sub hA ?_); rfl)
    | (extract_lets +onlyGivenNames y; refine Keeps.cut (y := y) ?_ (fun hy => ?_) <;> [(unfold y; clear y); (clear_value y; rename' y => w)])
    | (extract_lets +onlyGivenNames y; clear_value y; rename' y => w)
    | (extract_lets +onlyGivenNames y; rename' y => w)
    | with_reducible apply State.modMemory_keeps
    | with_reducible apply State.log_keeps
    | with_reducible apply State.event_keeps
    | split
    | dsimp -zeta only

theorem State.memoryAreas_keeps {A : Nat} {z : State} {s : State} {p : Nat} (hA : 0x4020000000 &&& A = 0x4020000000) (hk : Keeps A z s) :
    Keeps A z (State.memoryAreas s p) := by
  unfold State.memoryAreas
  repeat' first
    | with_reducible assumption
    | ((with_reducible refine Part.sub hA ?_); rfl)
    | (extract_lets +onlyGivenNames y; refine Keeps.cut (y := y) ?_ (fun hy => ?_) <;> [(unfold y; clear y); (clear_value y; rename' y => w)])
    | (extract_lets +onlyGivenNames y; clear_value y; rename' y => w)
    | (extract_lets +onlyGivenNames y; rename' y => w)
    | with_reducible apply State.modHead_keeps
    | with_reducible apply State.logData_keeps
    | (with_reducible apply Keeps.foldl; intro y b hy)
    | (with_reducible apply Keeps.foldl_fst; intro y b hy)
    | split
    | dsimp -zeta only

theorem State.ringsLost_keeps {A : Nat} {z : State} {s : State} {p : Nat} (hA : 0x4000000001 &&& A = 0x4000000001) (hk : Keeps A z s) :
    Keeps A z (State.ringsLost s p) := by
  unfold State.ringsLost
  repeat' first
    | with_reducible assumption
    | ((with_reducible refine Part.sub hA ?_); rfl)
    | (extract_lets +onlyGivenNames y; refine Keeps.cut (y := y) ?_ (fun hy => ?_) <;> [(unfold y; clear y); (clear_value y; rename' y => w)])
    | (extract_lets +onlyGivenNames y; clear_value y; rename' y => w)
    | (extract_lets +onlyGivenNames y; rename' y => w)
    | with_reducible apply State.setReg_keeps
    | with_reducible apply State.log_keeps
    | (with_reducible apply Keeps.foldl; intro y b hy)
    | (with_reducible apply Keeps.foldl_fst; intro y b hy)
    | split
    | dsimp -zeta only

theorem State.slotsLost_keeps {A : Nat} {z : State} {s : State} {p : Nat} (hA : 0x4d3db6f065 &&& A = 0x4d3db6f065) (hk : Keeps A z s) :
    Keeps A z (State.slotsLost s p) := by
  unfold State.slotsLost
  repeat' first
    | with_reducible assumption
    | ((with_reducible refine Part.sub hA ?_); rfl)
    | (extract_lets +onlyGivenNames y; refine Keeps.cut (y := y) ?_ (fun hy => ?_) <;> [(unfold y; clear y); (clear_value y; rename' y => w)])
    | (extract_lets +onlyGivenNames y; clear_value y; rename' y => w)
    | (extract_lets +onlyGivenNames y; rename' y => w)
    | with_reducible apply State.slotLost_keeps
    | (with_reducible apply Keeps.foldl; intro y b hy)
    | (with_reducible apply Keeps.foldl_fst; intro y b hy)
    | split
    | dsimp -zeta only

theorem State.retirePair_keeps {A : Nat} {z : State} {s : State} {p cause : Nat} (hA : 0x4f3db6f075 &&& A = 0x4f3db6f075) (hk : Keeps A z s) :
    Keeps A z (State.retirePair s p cause) := by
  unfold State.retirePair
  dsimp only
  repeat' first
    | with_reducible assumption
    | ((with_reducible refine Part.sub hA ?_); rfl)
    | (extract_lets +onlyGivenNames y; refine Keeps.cut (y := y) ?_ (fun hy => ?_) <;> [(unfold y; clear y); (clear_value y; rename' y => w)])
    | (extract_lets +onlyGivenNames y; clear_value y; rename' y => w)
    | (extract_lets +onlyGivenNames y; rename' y => w)
    | with_reducible apply State.mapChans_keeps
    | with_reducible apply State.modMchan_keeps
    | with_reducible apply State.modMemory_keeps
    | with_reducible apply State.log_keeps
    | with_reducible apply State.event_keeps
    | with_reducible apply State.panicCheck_keeps
    | with_reducible apply State.fencedRequest_keeps
    | (refine Keeps.of_fst (State.moveExtent_keeps (Part.sub hA rfl) ?_) (by assumption))
    | with_reducible apply State.moveExtent_keeps
    | with_reducible apply State.memoryAreas_keeps
    | with_reducible apply State.ringsLost_keeps
    | with_reducible apply State.slotsLost_keeps
    | (with_reducible apply Keeps.foldl; intro y b hy)
    | (with_reducible apply Keeps.foldl_fst; intro y b hy)
    | split
    | dsimp -zeta only

theorem execMemRequestServe_keeps {A : Nat} {z : State} {channel : Fin 16} {arriving : List MemReq} {errors : Fin 3} {s : State} (hA : 0x4f3db6f07d &&& A = 0x4f3db6f07d) (hk : Keeps A z s) :
    KeepsOut A z (execMemRequestServe channel arriving errors s) := by
  unfold execMemRequestServe
  repeat' first
    | with_reducible assumption
    | with_reducible apply KeepsOut.fault
    | with_reducible apply KeepsOut.next
    | (extract_lets +onlyGivenNames y; refine KeepsOut.cut (y := y) ?_ (fun hy => ?_) <;> [(unfold y; clear y); (clear_value y; rename' y => w)])
    | ((with_reducible refine Part.sub hA ?_); rfl)
    | (extract_lets +onlyGivenNames y; refine Keeps.cut (y := y) ?_ (fun hy => ?_) <;> [(unfold y; clear y); (clear_value y; rename' y => w)])
    | (extract_lets +onlyGivenNames y; clear_value y; rename' y => w)
    | (extract_lets +onlyGivenNames y; rename' y => w)
    | with_reducible apply State.panicCheck_keeps
    | with_reducible apply State.serve_keeps
    | with_reducible apply State.arrive_keeps
    | with_reducible apply State.retirePair_keeps
    | (with_reducible apply Keeps.foldl; intro y b hy)
    | (with_reducible apply Keeps.foldl_fst; intro y b hy)
    | split
    | dsimp -zeta only

theorem execMemStarvationRaise_keeps {A : Nat} {z : State} {channel : Fin 16} {s : State} (hA : 0x200000001 &&& A = 0x200000001) (hk : Keeps A z s) :
    KeepsOut A z (execMemStarvationRaise channel s) := by
  unfold execMemStarvationRaise
  repeat' first
    | with_reducible assumption
    | with_reducible apply KeepsOut.fault
    | with_reducible apply KeepsOut.next
    | (extract_lets +onlyGivenNames y; refine KeepsOut.cut (y := y) ?_ (fun hy => ?_) <;> [(unfold y; clear y); (clear_value y; rename' y => w)])
    | ((with_reducible refine Part.sub hA ?_); rfl)
    | (extract_lets +onlyGivenNames y; refine Keeps.cut (y := y) ?_ (fun hy => ?_) <;> [(unfold y; clear y); (clear_value y; rename' y => w)])
    | (extract_lets +onlyGivenNames y; clear_value y; rename' y => w)
    | (extract_lets +onlyGivenNames y; rename' y => w)
    | with_reducible apply State.countBy_keeps
    | with_reducible apply State.modMchan_keeps
    | split
    | dsimp -zeta only

theorem execRefreshDue_keeps {A : Nat} {z : State} {channel : Fin 16} {s : State} (hA : 0x200000000 &&& A = 0x200000000) (hk : Keeps A z s) :
    KeepsOut A z (execRefreshDue channel s) := by
  unfold execRefreshDue
  repeat' first
    | with_reducible assumption
    | with_reducible apply KeepsOut.fault
    | with_reducible apply KeepsOut.next
    | (extract_lets +onlyGivenNames y; refine KeepsOut.cut (y := y) ?_ (fun hy => ?_) <;> [(unfold y; clear y); (clear_value y; rename' y => w)])
    | ((with_reducible refine Part.sub hA ?_); rfl)
    | (extract_lets +onlyGivenNames y; refine Keeps.cut (y := y) ?_ (fun hy => ?_) <;> [(unfold y; clear y); (clear_value y; rename' y => w)])
    | (extract_lets +onlyGivenNames y; clear_value y; rename' y => w)
    | (extract_lets +onlyGivenNames y; rename' y => w)
    | with_reducible apply State.modMchan_keeps
    | split
    | dsimp -zeta only

theorem execRefreshPayback_keeps {A : Nat} {z : State} {channel : Fin 16} {s : State} (hA : 0x200000000 &&& A = 0x200000000) (hk : Keeps A z s) :
    KeepsOut A z (execRefreshPayback channel s) := by
  unfold execRefreshPayback
  repeat' first
    | with_reducible assumption
    | with_reducible apply KeepsOut.fault
    | with_reducible apply KeepsOut.next
    | (extract_lets +onlyGivenNames y; refine KeepsOut.cut (y := y) ?_ (fun hy => ?_) <;> [(unfold y; clear y); (clear_value y; rename' y => w)])
    | ((with_reducible refine Part.sub hA ?_); rfl)
    | (extract_lets +onlyGivenNames y; refine Keeps.cut (y := y) ?_ (fun hy => ?_) <;> [(unfold y; clear y); (clear_value y; rename' y => w)])
    | (extract_lets +onlyGivenNames y; clear_value y; rename' y => w)
    | (extract_lets +onlyGivenNames y; rename' y => w)
    | with_reducible apply State.modMchan_keeps
    | split
    | dsimp -zeta only

theorem State.memHot_keeps {A : Nat} {z : State} {s : State} {m mr4 way : Nat} (hA : 0x4800000005 &&& A = 0x4800000005) (hk : Keeps A z s) :
    Keeps A z (State.memHot s m mr4 way) := by
  unfold State.memHot
  repeat' first
    | with_reducible assumption
    | ((with_reducible refine Part.sub hA ?_); rfl)
    | (extract_lets +onlyGivenNames y; refine Keeps.cut (y := y) ?_ (fun hy => ?_) <;> [(unfold y; clear y); (clear_value y; rename' y => w)])
    | (extract_lets +onlyGivenNames y; clear_value y; rename' y => w)
    | (extract_lets +onlyGivenNames y; rename' y => w)
    | with_reducible apply State.log_keeps
    | with_reducible apply State.event_keeps
    | split
    | dsimp -zeta only

theorem State.becomesHot_keeps {A : Nat} {z : State} {s : State} {m mr4 : Nat} (hA : 0x4a00000005 &&& A = 0x4a00000005) (hk : Keeps A z s) :
    Keeps A z (State.becomesHot s m mr4) := by
  unfold State.becomesHot
  repeat' first
    | with_reducible assumption
    | ((with_reducible refine Part.sub hA ?_); rfl)
    | (extract_lets +onlyGivenNames y; refine Keeps.cut (y := y) ?_ (fun hy => ?_) <;> [(unfold y; clear y); (clear_value y; rename' y => w)])
    | (extract_lets +onlyGivenNames y; clear_value y; rename' y => w)
    | (extract_lets +onlyGivenNames y; rename' y => w)
    | with_reducible apply State.count_keeps
    | with_reducible apply State.modMchan_keeps
    | with_reducible apply State.log_keeps
    | with_reducible apply State.event_keeps
    | with_reducible apply State.memHot_keeps
    | split
    | dsimp -zeta only

theorem execMr4Poll_keeps {A : Nat} {z : State} {channel : Fin 16} {mr4 : Fin 8} {s : State} (hA : 0x4a00000005 &&& A = 0x4a00000005) (hk : Keeps A z s) :
    KeepsOut A z (execMr4Poll channel mr4 s) := by
  unfold execMr4Poll
  repeat' first
    | with_reducible assumption
    | with_reducible apply KeepsOut.fault
    | with_reducible apply KeepsOut.next
    | (extract_lets +onlyGivenNames y; refine KeepsOut.cut (y := y) ?_ (fun hy => ?_) <;> [(unfold y; clear y); (clear_value y; rename' y => w)])
    | ((with_reducible refine Part.sub hA ?_); rfl)
    | (extract_lets +onlyGivenNames y; refine Keeps.cut (y := y) ?_ (fun hy => ?_) <;> [(unfold y; clear y); (clear_value y; rename' y => w)])
    | (extract_lets +onlyGivenNames y; clear_value y; rename' y => w)
    | (extract_lets +onlyGivenNames y; rename' y => w)
    | with_reducible apply State.modMchan_keeps
    | with_reducible apply State.log_keeps
    | with_reducible apply State.clearSafe_keeps
    | with_reducible apply State.memHot_keeps
    | with_reducible apply State.becomesHot_keeps
    | split
    | dsimp -zeta only

theorem execTrainingDue_keeps {A : Nat} {z : State} {channel : Fin 16} {s : State} (hA : 0x200000000 &&& A = 0x200000000) (hk : Keeps A z s) :
    KeepsOut A z (execTrainingDue channel s) := by
  unfold execTrainingDue
  repeat' first
    | with_reducible assumption
    | with_reducible apply KeepsOut.fault
    | with_reducible apply KeepsOut.next
    | (extract_lets +onlyGivenNames y; refine KeepsOut.cut (y := y) ?_ (fun hy => ?_) <;> [(unfold y; clear y); (clear_value y; rename' y => w)])
    | ((with_reducible refine Part.sub hA ?_); rfl)
    | (extract_lets +onlyGivenNames y; refine Keeps.cut (y := y) ?_ (fun hy => ?_) <;> [(unfold y; clear y); (clear_value y; rename' y => w)])
    | (extract_lets +onlyGivenNames y; clear_value y; rename' y => w)
    | (extract_lets +onlyGivenNames y; rename' y => w)
    | with_reducible apply State.modMchan_keeps
    | split
    | dsimp -zeta only

theorem execTrainingStep_keeps {A : Nat} {z : State} {channel : Fin 16} {s : State} (hA : 0x200000000 &&& A = 0x200000000) (hk : Keeps A z s) :
    KeepsOut A z (execTrainingStep channel s) := by
  unfold execTrainingStep
  repeat' first
    | with_reducible assumption
    | with_reducible apply KeepsOut.fault
    | with_reducible apply KeepsOut.next
    | (extract_lets +onlyGivenNames y; refine KeepsOut.cut (y := y) ?_ (fun hy => ?_) <;> [(unfold y; clear y); (clear_value y; rename' y => w)])
    | ((with_reducible refine Part.sub hA ?_); rfl)
    | (extract_lets +onlyGivenNames y; refine Keeps.cut (y := y) ?_ (fun hy => ?_) <;> [(unfold y; clear y); (clear_value y; rename' y => w)])
    | (extract_lets +onlyGivenNames y; clear_value y; rename' y => w)
    | (extract_lets +onlyGivenNames y; rename' y => w)
    | with_reducible apply State.modMchan_keeps
    | split
    | dsimp -zeta only

theorem execTrainingForce_keeps {A : Nat} {z : State} {channel : Fin 16} {s : State} (hA : 0x200000000 &&& A = 0x200000000) (hk : Keeps A z s) :
    KeepsOut A z (execTrainingForce channel s) := by
  unfold execTrainingForce
  repeat' first
    | with_reducible assumption
    | with_reducible apply KeepsOut.fault
    | with_reducible apply KeepsOut.next
    | (extract_lets +onlyGivenNames y; refine KeepsOut.cut (y := y) ?_ (fun hy => ?_) <;> [(unfold y; clear y); (clear_value y; rename' y => w)])
    | ((with_reducible refine Part.sub hA ?_); rfl)
    | (extract_lets +onlyGivenNames y; refine Keeps.cut (y := y) ?_ (fun hy => ?_) <;> [(unfold y; clear y); (clear_value y; rename' y => w)])
    | (extract_lets +onlyGivenNames y; clear_value y; rename' y => w)
    | (extract_lets +onlyGivenNames y; rename' y => w)
    | with_reducible apply State.modMchan_keeps
    | split
    | dsimp -zeta only

theorem State.memoryUp_keeps {A : Nat} {z : State} {s : State} (hA : 0x200000000 &&& A = 0x200000000) (hk : Keeps A z s) :
    Keeps A z (State.memoryUp s) := by
  unfold State.memoryUp
  repeat' first
    | with_reducible assumption
    | ((with_reducible refine Part.sub hA ?_); rfl)
    | (extract_lets +onlyGivenNames y; refine Keeps.cut (y := y) ?_ (fun hy => ?_) <;> [(unfold y; clear y); (clear_value y; rename' y => w)])
    | (extract_lets +onlyGivenNames y; clear_value y; rename' y => w)
    | (extract_lets +onlyGivenNames y; rename' y => w)
    | with_reducible apply State.modMemory_keeps
    | split
    | dsimp -zeta only

theorem execTrainingDone_keeps {A : Nat} {z : State} {channel : Fin 16} {readMargin writeMargin : Byte} {s : State} (hA : 0xcf3db6f075 &&& A = 0xcf3db6f075) (hk : Keeps A z s) :
    KeepsOut A z (execTrainingDone channel readMargin writeMargin s) := by
  unfold execTrainingDone
  repeat' first
    | with_reducible assumption
    | with_reducible apply KeepsOut.fault
    | with_reducible apply KeepsOut.next
    | (extract_lets +onlyGivenNames y; refine KeepsOut.cut (y := y) ?_ (fun hy => ?_) <;> [(unfold y; clear y); (clear_value y; rename' y => w)])
    | ((with_reducible refine Part.sub hA ?_); rfl)
    | (extract_lets +onlyGivenNames y; refine Keeps.cut (y := y) ?_ (fun hy => ?_) <;> [(unfold y; clear y); (clear_value y; rename' y => w)])
    | (extract_lets +onlyGivenNames y; clear_value y; rename' y => w)
    | (extract_lets +onlyGivenNames y; rename' y => w)
    | with_reducible apply State.count_keeps
    | with_reducible apply State.modMchan_keeps
    | with_reducible apply State.modStartup_keeps
    | (with_reducible intro c hc; first | exact hc | (dsimp only; omega))
    | with_reducible apply State.log_keeps
    | with_reducible apply State.event_keeps
    | with_reducible apply State.retirePair_keeps
    | with_reducible apply State.memoryUp_keeps
    | split
    | dsimp -zeta only

theorem execTrainNow_keeps {A : Nat} {z : State} {agent : Agent} {s : State} (hA : 0x200000000 &&& A = 0x200000000) (hk : Keeps A z s) :
    KeepsOut A z (execTrainNow agent s) := by
  unfold execTrainNow
  repeat' first
    | with_reducible assumption
    | with_reducible apply KeepsOut.fault
    | with_reducible apply KeepsOut.next
    | (extract_lets +onlyGivenNames y; refine KeepsOut.cut (y := y) ?_ (fun hy => ?_) <;> [(unfold y; clear y); (clear_value y; rename' y => w)])
    | ((with_reducible refine Part.sub hA ?_); rfl)
    | (extract_lets +onlyGivenNames y; refine Keeps.cut (y := y) ?_ (fun hy => ?_) <;> [(unfold y; clear y); (clear_value y; rename' y => w)])
    | (extract_lets +onlyGivenNames y; clear_value y; rename' y => w)
    | (extract_lets +onlyGivenNames y; rename' y => w)
    | with_reducible apply State.modMchan_keeps
    | (with_reducible apply Keeps.foldl; intro y b hy)
    | (with_reducible apply Keeps.foldl_fst; intro y b hy)
    | split
    | dsimp -zeta only

theorem execMemChannelSilent_keeps {A : Nat} {z : State} {channel : Fin 16} {s : State} (hA : 0x4f3db6f075 &&& A = 0x4f3db6f075) (hk : Keeps A z s) :
    KeepsOut A z (execMemChannelSilent channel s) := by
  unfold execMemChannelSilent
  repeat' first
    | with_reducible assumption
    | with_reducible apply KeepsOut.fault
    | with_reducible apply KeepsOut.next
    | (extract_lets +onlyGivenNames y; refine KeepsOut.cut (y := y) ?_ (fun hy => ?_) <;> [(unfold y; clear y); (clear_value y; rename' y => w)])
    | ((with_reducible refine Part.sub hA ?_); rfl)
    | (extract_lets +onlyGivenNames y; refine Keeps.cut (y := y) ?_ (fun hy => ?_) <;> [(unfold y; clear y); (clear_value y; rename' y => w)])
    | (extract_lets +onlyGivenNames y; clear_value y; rename' y => w)
    | (extract_lets +onlyGivenNames y; rename' y => w)
    | with_reducible apply State.retirePair_keeps
    | split
    | dsimp -zeta only

theorem execMemRetire_keeps {A : Nat} {z : State} {agent : Agent} {s : State} (hA : 0x4f3db6f075 &&& A = 0x4f3db6f075) (hk : Keeps A z s) :
    KeepsOut A z (execMemRetire agent s) := by
  unfold execMemRetire
  repeat' first
    | with_reducible assumption
    | with_reducible apply KeepsOut.fault
    | with_reducible apply KeepsOut.next
    | (extract_lets +onlyGivenNames y; refine KeepsOut.cut (y := y) ?_ (fun hy => ?_) <;> [(unfold y; clear y); (clear_value y; rename' y => w)])
    | ((with_reducible refine Part.sub hA ?_); rfl)
    | (extract_lets +onlyGivenNames y; refine Keeps.cut (y := y) ?_ (fun hy => ?_) <;> [(unfold y; clear y); (clear_value y; rename' y => w)])
    | (extract_lets +onlyGivenNames y; clear_value y; rename' y => w)
    | (extract_lets +onlyGivenNames y; rename' y => w)
    | with_reducible apply State.retirePair_keeps
    | split
    | dsimp -zeta only

theorem State.surfacesLost_keeps {A : Nat} {z : State} {s : State} {p : Nat} (hA : 0x400000 &&& A = 0x400000) (hk : Keeps A z s) :
    Keeps A z (State.surfacesLost s p) := by
  unfold State.surfacesLost
  repeat' first
    | with_reducible assumption
    | ((with_reducible refine Part.sub hA ?_); rfl)
    | (extract_lets +onlyGivenNames y; refine Keeps.cut (y := y) ?_ (fun hy => ?_) <;> [(unfold y; clear y); (clear_value y; rename' y => w)])
    | (extract_lets +onlyGivenNames y; clear_value y; rename' y => w)
    | (extract_lets +onlyGivenNames y; rename' y => w)
    | with_reducible apply State.mapSurfaces_keeps
    | split
    | dsimp -zeta only

theorem State.signaturesLost_keeps {A : Nat} {z : State} {s : State} {p : Nat} (hA : 0x800000 &&& A = 0x800000) (hk : Keeps A z s) :
    Keeps A z (State.signaturesLost s p) := by
  unfold State.signaturesLost
  repeat' first
    | with_reducible assumption
    | ((with_reducible refine Part.sub hA ?_); rfl)
    | (extract_lets +onlyGivenNames y; refine Keeps.cut (y := y) ?_ (fun hy => ?_) <;> [(unfold y; clear y); (clear_value y; rename' y => w)])
    | (extract_lets +onlyGivenNames y; clear_value y; rename' y => w)
    | (extract_lets +onlyGivenNames y; rename' y => w)
    | with_reducible apply State.mapChans_keeps
    | split
    | dsimp -zeta only

theorem execRemapDone_keeps {A : Nat} {z : State} {pair : Fin 8} {s : State} (hA : 0x4220c00008 &&& A = 0x4220c00008) (hk : Keeps A z s) :
    KeepsOut A z (execRemapDone pair s) := by
  unfold execRemapDone
  repeat' first
    | with_reducible assumption
    | with_reducible apply KeepsOut.fault
    | with_reducible apply KeepsOut.next
    | (extract_lets +onlyGivenNames y; refine KeepsOut.cut (y := y) ?_ (fun hy => ?_) <;> [(unfold y; clear y); (clear_value y; rename' y => w)])
    | ((with_reducible refine Part.sub hA ?_); rfl)
    | (extract_lets +onlyGivenNames y; refine Keeps.cut (y := y) ?_ (fun hy => ?_) <;> [(unfold y; clear y); (clear_value y; rename' y => w)])
    | (extract_lets +onlyGivenNames y; clear_value y; rename' y => w)
    | (extract_lets +onlyGivenNames y; rename' y => w)
    | with_reducible apply State.mapHeads_keeps
    | with_reducible apply State.modMemory_keeps
    | with_reducible apply State.log_keeps
    | with_reducible apply State.surfacesLost_keeps
    | with_reducible apply State.signaturesLost_keeps
    | (with_reducible apply Keeps.foldl; intro y b hy)
    | (with_reducible apply Keeps.foldl_fst; intro y b hy)
    | with_reducible apply Keeps.filterRegs
    | with_reducible apply Keeps.filterMem
    | split
    | (with_reducible refine Keeps.change ?_ rfl rfl rfl rfl rfl rfl rfl rfl id ?_)
    | (intro p hp; cases p <;> first | exact Part.inside hA hp rfl | rfl)
    | dsimp -zeta only

theorem execDupCopyDone_keeps {A : Nat} {z : State} {region extent : Nat} {s : State} (hA : 0x4a00000005 &&& A = 0x4a00000005) (hk : Keeps A z s) :
    KeepsOut A z (execDupCopyDone region extent s) := by
  unfold execDupCopyDone
  repeat' first
    | with_reducible assumption
    | with_reducible apply KeepsOut.fault
    | with_reducible apply KeepsOut.next
    | (extract_lets +onlyGivenNames y; refine KeepsOut.cut (y := y) ?_ (fun hy => ?_) <;> [(unfold y; clear y); (clear_value y; rename' y => w)])
    | ((with_reducible refine Part.sub hA ?_); rfl)
    | (extract_lets +onlyGivenNames y; refine Keeps.cut (y := y) ?_ (fun hy => ?_) <;> [(unfold y; clear y); (clear_value y; rename' y => w)])
    | (extract_lets +onlyGivenNames y; clear_value y; rename' y => w)
    | (extract_lets +onlyGivenNames y; rename' y => w)
    | with_reducible apply State.modMemory_keeps
    | with_reducible apply State.log_keeps
    | with_reducible apply State.event_keeps
    | split
    | dsimp -zeta only

theorem execPatrolScrub_keeps {A : Nat} {z : State} {errors : Fin 3} {s : State} (hA : 0x4f3db6f075 &&& A = 0x4f3db6f075) (hk : Keeps A z s) :
    KeepsOut A z (execPatrolScrub errors s) := by
  unfold execPatrolScrub
  repeat' first
    | with_reducible assumption
    | with_reducible apply KeepsOut.fault
    | with_reducible apply KeepsOut.next
    | (extract_lets +onlyGivenNames y; refine KeepsOut.cut (y := y) ?_ (fun hy => ?_) <;> [(unfold y; clear y); (clear_value y; rename' y => w)])
    | ((with_reducible refine Part.sub hA ?_); rfl)
    | (extract_lets +onlyGivenNames y; refine Keeps.cut (y := y) ?_ (fun hy => ?_) <;> [(unfold y; clear y); (clear_value y; rename' y => w)])
    | (extract_lets +onlyGivenNames y; clear_value y; rename' y => w)
    | (extract_lets +onlyGivenNames y; rename' y => w)
    | with_reducible apply State.count_keeps
    | with_reducible apply State.modMemory_keeps
    | with_reducible apply State.log_keeps
    | with_reducible apply State.event_keeps
    | with_reducible apply State.poison_keeps
    | with_reducible apply State.unpoison_keeps
    | with_reducible apply State.corrected_keeps
    | with_reducible apply State.uncorrectable_keeps
    | with_reducible apply State.retirePair_keeps
    | split
    | dsimp -zeta only

theorem State.stallMaxRead_keeps {A : Nat} {z : State} {s : State} {m : Nat} (hA : 0x200000010 &&& A = 0x200000010) (hk : Keeps A z s) :
    Keeps A z (State.stallMaxRead s m) := by
  unfold State.stallMaxRead
  repeat' first
    | with_reducible assumption
    | ((with_reducible refine Part.sub hA ?_); rfl)
    | (extract_lets +onlyGivenNames y; refine Keeps.cut (y := y) ?_ (fun hy => ?_) <;> [(unfold y; clear y); (clear_value y; rename' y => w)])
    | (extract_lets +onlyGivenNames y; clear_value y; rename' y => w)
    | (extract_lets +onlyGivenNames y; rename' y => w)
    | with_reducible apply State.modMchan_keeps
    | with_reducible apply State.answer_keeps
    | split
    | dsimp -zeta only

theorem State.qPeakRead_keeps {A : Nat} {z : State} {s : State} {m : Nat} (hA : 0x200000010 &&& A = 0x200000010) (hk : Keeps A z s) :
    Keeps A z (State.qPeakRead s m) := by
  unfold State.qPeakRead
  repeat' first
    | with_reducible assumption
    | ((with_reducible refine Part.sub hA ?_); rfl)
    | (extract_lets +onlyGivenNames y; refine Keeps.cut (y := y) ?_ (fun hy => ?_) <;> [(unfold y; clear y); (clear_value y; rename' y => w)])
    | (extract_lets +onlyGivenNames y; clear_value y; rename' y => w)
    | (extract_lets +onlyGivenNames y; rename' y => w)
    | with_reducible apply State.modMchan_keeps
    | with_reducible apply State.answer_keeps
    | split
    | dsimp -zeta only

end Sys2Proof.Machine
end

