-- ==== Sys2Proof/Laws/KeepMonitor.lean ====
section
/-!
SUPPORT. Keeps for the operations of Machine/Monitor.lean.
-/

namespace Sys2Proof.Machine

theorem State.refGlitch_keeps {A : Nat} {z : State} {s : State} (hA : 0x4800000005 &&& A = 0x4800000005) (hk : Keeps A z s) :
    Keeps A z (State.refGlitch s) := by
  unfold State.refGlitch
  repeat' first
    | with_reducible assumption
    | ((with_reducible refine Part.sub hA ?_); rfl)
    | (extract_lets +onlyGivenNames y; refine Keeps.cut (y := y) ?_ (fun hy => ?_) <;> [(unfold y; clear y); (clear_value y; rename' y => w)])
    | (extract_lets +onlyGivenNames y; clear_value y; rename' y => w)
    | (extract_lets +onlyGivenNames y; rename' y => w)
    | with_reducible apply State.count_keeps
    | with_reducible apply State.logRated_keeps
    | with_reducible apply State.event_keeps
    | split
    | dsimp -zeta only

theorem State.refLost_keeps {A : Nat} {z : State} {s : State} (hA : 0xcc3da0cb65 &&& A = 0xcc3da0cb65) (hk : Keeps A z s) :
    Keeps A z (State.refLost s) := by
  unfold State.refLost
  repeat' first
    | with_reducible assumption
    | ((with_reducible refine Part.sub hA ?_); rfl)
    | (extract_lets +onlyGivenNames y; refine Keeps.cut (y := y) ?_ (fun hy => ?_) <;> [(unfold y; clear y); (clear_value y; rename' y => w)])
    | (extract_lets +onlyGivenNames y; clear_value y; rename' y => w)
    | (extract_lets +onlyGivenNames y; rename' y => w)
    | with_reducible apply State.count_keeps
    | with_reducible apply State.log_keeps
    | with_reducible apply State.event_keeps
    | with_reducible apply State.reselect_keeps
    | split
    | dsimp -zeta only

theorem State.refNews_keeps {A : Nat} {z : State} {s : State} {news : MonitorNews} (hA : 0xcc3da0cb65 &&& A = 0xcc3da0cb65) (hk : Keeps A z s) :
    Keeps A z (State.refNews s news) := by
  unfold State.refNews
  repeat' first
    | with_reducible assumption
    | ((with_reducible refine Part.sub hA ?_); rfl)
    | (extract_lets +onlyGivenNames y; refine Keeps.cut (y := y) ?_ (fun hy => ?_) <;> [(unfold y; clear y); (clear_value y; rename' y => w)])
    | (extract_lets +onlyGivenNames y; clear_value y; rename' y => w)
    | (extract_lets +onlyGivenNames y; rename' y => w)
    | with_reducible apply State.modServo_keeps
    | with_reducible apply State.log_keeps
    | with_reducible apply State.event_keeps
    | with_reducible apply State.reselect_keeps
    | with_reducible apply State.refGlitch_keeps
    | with_reducible apply State.refLost_keeps
    | split
    | dsimp -zeta only

theorem State.laneNews_keeps {A : Nat} {z : State} {s : State} {l : Nat} {news : MonitorNews} (hA : 0xcc3da6cb65 &&& A = 0xcc3da6cb65) (hk : Keeps A z s) :
    Keeps A z (State.laneNews s l news) := by
  unfold State.laneNews
  repeat' first
    | with_reducible assumption
    | ((with_reducible refine Part.sub hA ?_); rfl)
    | (extract_lets +onlyGivenNames y; refine Keeps.cut (y := y) ?_ (fun hy => ?_) <;> [(unfold y; clear y); (clear_value y; rename' y => w)])
    | (extract_lets +onlyGivenNames y; clear_value y; rename' y => w)
    | (extract_lets +onlyGivenNames y; rename' y => w)
    | with_reducible apply State.laneClockGood_keeps
    | with_reducible apply State.cdrLoss_keeps
    | split
    | dsimp -zeta only

theorem State.pdmNews_keeps {A : Nat} {z : State} {s : State} {k : Nat} {news : MonitorNews} (hA : 0x4900000005 &&& A = 0x4900000005) (hk : Keeps A z s) :
    Keeps A z (State.pdmNews s k news) := by
  unfold State.pdmNews
  repeat' first
    | with_reducible assumption
    | ((with_reducible refine Part.sub hA ?_); rfl)
    | (extract_lets +onlyGivenNames y; refine Keeps.cut (y := y) ?_ (fun hy => ?_) <;> [(unfold y; clear y); (clear_value y; rename' y => w)])
    | (extract_lets +onlyGivenNames y; clear_value y; rename' y => w)
    | (extract_lets +onlyGivenNames y; rename' y => w)
    | with_reducible apply State.pdmLost_keeps
    | with_reducible apply State.pdmGood_keeps
    | with_reducible apply State.pdmGlitch_keeps
    | split
    | dsimp -zeta only

theorem execMonitorWindowEnd_keeps {A : Nat} {z : State} {clock : MonitorId} {periods : List Nat} {s : State} (hA : 0xcd3da6cf65 &&& A = 0xcd3da6cf65) (hk : Keeps A z s) :
    KeepsOut A z (execMonitorWindowEnd clock periods s) := by
  unfold execMonitorWindowEnd
  repeat' first
    | with_reducible assumption
    | with_reducible apply KeepsOut.fault
    | with_reducible apply KeepsOut.next
    | (extract_lets +onlyGivenNames y; refine KeepsOut.cut (y := y) ?_ (fun hy => ?_) <;> [(unfold y; clear y); (clear_value y; rename' y => w)])
    | ((with_reducible refine Part.sub hA ?_); rfl)
    | (extract_lets +onlyGivenNames y; refine Keeps.cut (y := y) ?_ (fun hy => ?_) <;> [(unfold y; clear y); (clear_value y; rename' y => w)])
    | (extract_lets +onlyGivenNames y; clear_value y; rename' y => w)
    | (extract_lets +onlyGivenNames y; rename' y => w)
    | with_reducible apply State.modLane_keeps
    | with_reducible apply State.setPdm_keeps
    | with_reducible apply State.followRefIn_keeps
    | with_reducible apply State.refNews_keeps
    | with_reducible apply State.laneNews_keeps
    | with_reducible apply State.pdmNews_keeps
    | split
    | (with_reducible refine Keeps.change ?_ rfl rfl rfl rfl rfl rfl rfl rfl id ?_)
    | (intro p hp; cases p <;> first | exact Part.inside hA hp rfl | rfl)
    | dsimp -zeta only

theorem execMonitorEdgeTimeout_keeps {A : Nat} {z : State} {clock : MonitorId} {s : State} (hA : 0xcd3da6cf65 &&& A = 0xcd3da6cf65) (hk : Keeps A z s) :
    KeepsOut A z (execMonitorEdgeTimeout clock s) := by
  unfold execMonitorEdgeTimeout
  repeat' first
    | with_reducible assumption
    | with_reducible apply KeepsOut.fault
    | with_reducible apply KeepsOut.next
    | (extract_lets +onlyGivenNames y; refine KeepsOut.cut (y := y) ?_ (fun hy => ?_) <;> [(unfold y; clear y); (clear_value y; rename' y => w)])
    | ((with_reducible refine Part.sub hA ?_); rfl)
    | (extract_lets +onlyGivenNames y; refine Keeps.cut (y := y) ?_ (fun hy => ?_) <;> [(unfold y; clear y); (clear_value y; rename' y => w)])
    | (extract_lets +onlyGivenNames y; clear_value y; rename' y => w)
    | (extract_lets +onlyGivenNames y; rename' y => w)
    | with_reducible apply State.modLane_keeps
    | with_reducible apply State.setPdm_keeps
    | with_reducible apply State.refNews_keeps
    | with_reducible apply State.laneNews_keeps
    | with_reducible apply State.pdmNews_keeps
    | split
    | (with_reducible refine Keeps.change ?_ rfl rfl rfl rfl rfl rfl rfl rfl id ?_)
    | (intro p hp; cases p <;> first | exact Part.inside hA hp rfl | rfl)
    | dsimp -zeta only

end Sys2Proof.Machine
end

