-- ==== Sys2Proof/Laws/KeepRennet.lean ====
section
/-!
SUPPORT. Keeps for the operations of Machine/Rennet.lean.
-/

namespace Sys2Proof.Machine

theorem State.installAsym_keeps {A : Nat} {z : State} {s : State} {p : List Byte} (hA : 0x1 &&& A = 0x1) (hk : Keeps A z s) :
    Keeps A z (State.installAsym s p) := by
  unfold State.installAsym
  repeat' first
    | with_reducible assumption
    | ((with_reducible refine Part.sub hA ?_); rfl)
    | (extract_lets +onlyGivenNames y; refine Keeps.cut (y := y) ?_ (fun hy => ?_) <;> [(unfold y; clear y); (clear_value y; rename' y => w)])
    | (extract_lets +onlyGivenNames y; clear_value y; rename' y => w)
    | (extract_lets +onlyGivenNames y; rename' y => w)
    | with_reducible apply State.setReg_keeps
    | (with_reducible apply Keeps.foldl; intro y b hy)
    | (with_reducible apply Keeps.foldl_fst; intro y b hy)
    | split
    | dsimp -zeta only

theorem State.applyTime_keeps {A : Nat} {z : State} {s : State} {x : Change} (hA : 0xcc3da0cf65 &&& A = 0xcc3da0cf65) (hk : Keeps A z s) :
    Keeps A z (State.applyTime s x) := by
  unfold State.applyTime
  repeat' first
    | with_reducible assumption
    | ((with_reducible refine Part.sub hA ?_); rfl)
    | (extract_lets +onlyGivenNames y; refine Keeps.cut (y := y) ?_ (fun hy => ?_) <;> [(unfold y; clear y); (clear_value y; rename' y => w)])
    | (extract_lets +onlyGivenNames y; clear_value y; rename' y => w)
    | (extract_lets +onlyGivenNames y; rename' y => w)
    | with_reducible apply State.installPtpPorts_keeps
    | with_reducible apply State.installRefIn_keeps
    | with_reducible apply State.installTioPlan_keeps
    | with_reducible apply State.installAsym_keeps
    | split
    | dsimp -zeta only

theorem State.applyMdp_keeps {A : Nat} {z : State} {s : State} {x : Change} (hA : 0xcc3da6cb65 &&& A = 0xcc3da6cb65) (hk : Keeps A z s) :
    Keeps A z (State.applyMdp s x) := by
  unfold State.applyMdp
  repeat' first
    | with_reducible assumption
    | ((with_reducible refine Part.sub hA ?_); rfl)
    | (extract_lets +onlyGivenNames y; refine Keeps.cut (y := y) ?_ (fun hy => ?_) <;> [(unfold y; clear y); (clear_value y; rename' y => w)])
    | (extract_lets +onlyGivenNames y; clear_value y; rename' y => w)
    | (extract_lets +onlyGivenNames y; rename' y => w)
    | with_reducible apply State.adminOff_keeps
    | with_reducible apply State.adminOn_keeps
    | (with_reducible apply Keeps.foldl; intro y b hy)
    | (with_reducible apply Keeps.foldl_fst; intro y b hy)
    | split
    | dsimp -zeta only

theorem State.applyPower_keeps {A : Nat} {z : State} {s : State} {x : Change} (hA : 0x6801008005 &&& A = 0x6801008005) (hk : Keeps A z s) :
    Keeps A z (State.applyPower s x) := by
  unfold State.applyPower
  repeat' first
    | with_reducible assumption
    | ((with_reducible refine Part.sub hA ?_); rfl)
    | (extract_lets +onlyGivenNames y; refine Keeps.cut (y := y) ?_ (fun hy => ?_) <;> [(unfold y; clear y); (clear_value y; rename' y => w)])
    | (extract_lets +onlyGivenNames y; clear_value y; rename' y => w)
    | (extract_lets +onlyGivenNames y; rename' y => w)
    | with_reducible apply State.ungateCause_keeps
    | with_reducible apply State.powerState_keeps
    | split
    | dsimp -zeta only

theorem State.applyFirmware_keeps {A : Nat} {z : State} {s : State} {x : Change} (hA : 0x6800001005 &&& A = 0x6800001005) (hk : Keeps A z s) :
    Keeps A z (State.applyFirmware s x) := by
  unfold State.applyFirmware
  repeat' first
    | with_reducible assumption
    | ((with_reducible refine Part.sub hA ?_); rfl)
    | (extract_lets +onlyGivenNames y; refine Keeps.cut (y := y) ?_ (fun hy => ?_) <;> [(unfold y; clear y); (clear_value y; rename' y => w)])
    | (extract_lets +onlyGivenNames y; clear_value y; rename' y => w)
    | (extract_lets +onlyGivenNames y; rename' y => w)
    | with_reducible apply State.swapFirmware_keeps
    | (with_reducible apply Keeps.foldl; intro y b hy)
    | (with_reducible apply Keeps.foldl_fst; intro y b hy)
    | split
    | dsimp -zeta only

theorem State.applyControl_keeps {A : Nat} {z : State} {s : State} {x : Change} (hA : 0x800000000 &&& A = 0x800000000) (hk : Keeps A z s) :
    Keeps A z (State.applyControl s x) := by
  unfold State.applyControl
  repeat' first
    | with_reducible assumption
    | ((with_reducible refine Part.sub hA ?_); rfl)
    | (extract_lets +onlyGivenNames y; refine Keeps.cut (y := y) ?_ (fun hy => ?_) <;> [(unfold y; clear y); (clear_value y; rename' y => w)])
    | (extract_lets +onlyGivenNames y; clear_value y; rename' y => w)
    | (extract_lets +onlyGivenNames y; rename' y => w)
    | with_reducible apply State.installCheckPlan_keeps
    | with_reducible apply State.installInterruptPlan_keeps
    | split
    | dsimp -zeta only

theorem State.applyLanes_keeps {A : Nat} {z : State} {s : State} {x : Change} {link : Option Nat} (hA : 0xcc3da6cb65 &&& A = 0xcc3da6cb65) (hk : Keeps A z s) :
    Keeps A z (State.applyLanes s x link) := by
  unfold State.applyLanes
  repeat' first
    | with_reducible assumption
    | ((with_reducible refine Part.sub hA ?_); rfl)
    | (extract_lets +onlyGivenNames y; refine Keeps.cut (y := y) ?_ (fun hy => ?_) <;> [(unfold y; clear y); (clear_value y; rename' y => w)])
    | (extract_lets +onlyGivenNames y; clear_value y; rename' y => w)
    | (extract_lets +onlyGivenNames y; rename' y => w)
    | with_reducible apply State.pairLinkMoved_keeps
    | with_reducible apply State.installLaneSettings_keeps
    | (with_reducible apply Keeps.foldl; intro y b hy)
    | (with_reducible apply Keeps.foldl_fst; intro y b hy)
    | split
    | dsimp -zeta only

theorem State.applyFlowPlan_keeps {A : Nat} {z : State} {s : State} {t : Nat} (hA : 0x4c3df4c865 &&& A = 0x4c3df4c865) (hk : Keeps A z s) :
    Keeps A z (State.applyFlowPlan s t) := by
  unfold State.applyFlowPlan
  repeat' first
    | with_reducible assumption
    | ((with_reducible refine Part.sub hA ?_); rfl)
    | (extract_lets +onlyGivenNames y; refine Keeps.cut (y := y) ?_ (fun hy => ?_) <;> [(unfold y; clear y); (clear_value y; rename' y => w)])
    | (extract_lets +onlyGivenNames y; clear_value y; rename' y => w)
    | (extract_lets +onlyGivenNames y; rename' y => w)
    | with_reducible apply State.modFt_keeps
    | with_reducible apply State.log_keeps
    | with_reducible apply State.event_keeps
    | with_reducible apply State.joinBank_keeps
    | with_reducible apply State.leaveUnneeded_keeps
    | with_reducible apply State.mediaChanged_keeps
    | with_reducible apply State.surfaceChanged_keeps
    | (with_reducible apply Keeps.foldl; intro y b hy)
    | (with_reducible apply Keeps.foldl_fst; intro y b hy)
    | split
    | dsimp -zeta only

theorem State.applyLiveness_keeps {A : Nat} {z : State} {s : State} {x : Change} (hA : 0x4000200000 &&& A = 0x4000200000) (hk : Keeps A z s) :
    Keeps A z (State.applyLiveness s x) := by
  unfold State.applyLiveness
  repeat' first
    | with_reducible assumption
    | ((with_reducible refine Part.sub hA ?_); rfl)
    | (extract_lets +onlyGivenNames y; refine Keeps.cut (y := y) ?_ (fun hy => ?_) <;> [(unfold y; clear y); (clear_value y; rename' y => w)])
    | (extract_lets +onlyGivenNames y; clear_value y; rename' y => w)
    | (extract_lets +onlyGivenNames y; rename' y => w)
    | with_reducible apply State.resetLive_keeps
    | (with_reducible apply Keeps.foldl; intro y b hy)
    | (with_reducible apply Keeps.foldl_fst; intro y b hy)
    | split
    | dsimp -zeta only

theorem State.applySurfaces_keeps {A : Nat} {z : State} {s : State} {x : Change} (hA : 0x400000 &&& A = 0x400000) (hk : Keeps A z s) :
    Keeps A z (State.applySurfaces s x) := by
  unfold State.applySurfaces
  repeat' first
    | with_reducible assumption
    | ((with_reducible refine Part.sub hA ?_); rfl)
    | (extract_lets +onlyGivenNames y; refine Keeps.cut (y := y) ?_ (fun hy => ?_) <;> [(unfold y; clear y); (clear_value y; rename' y => w)])
    | (extract_lets +onlyGivenNames y; clear_value y; rename' y => w)
    | (extract_lets +onlyGivenNames y; rename' y => w)
    | with_reducible apply State.setSurface_keeps
    | with_reducible apply State.modSurface_keeps
    | (with_reducible apply Keeps.foldl; intro y b hy)
    | (with_reducible apply Keeps.foldl_fst; intro y b hy)
    | split
    | dsimp -zeta only

theorem State.applyChannels_keeps {A : Nat} {z : State} {s : State} {x : Change} (hA : 0x4c1da0c045 &&& A = 0x4c1da0c045) (hk : Keeps A z s) :
    Keeps A z (State.applyChannels s x) := by
  unfold State.applyChannels
  repeat' first
    | with_reducible assumption
    | ((with_reducible refine Part.sub hA ?_); rfl)
    | (extract_lets +onlyGivenNames y; refine Keeps.cut (y := y) ?_ (fun hy => ?_) <;> [(unfold y; clear y); (clear_value y; rename' y => w)])
    | (extract_lets +onlyGivenNames y; clear_value y; rename' y => w)
    | (extract_lets +onlyGivenNames y; rename' y => w)
    | with_reducible apply State.modChan_keeps
    | with_reducible apply State.channelHarmless_keeps
    | with_reducible apply State.channelSections_keeps
    | (with_reducible apply Keeps.foldl; intro y b hy)
    | (with_reducible apply Keeps.foldl_fst; intro y b hy)
    | split
    | dsimp -zeta only

theorem State.applyHeads_keeps {A : Nat} {z : State} {s : State} {x : Change} (hA : 0x40a0000021 &&& A = 0x40a0000021) (hk : Keeps A z s) :
    Keeps A z (State.applyHeads s x) := by
  unfold State.applyHeads
  repeat' first
    | with_reducible assumption
    | ((with_reducible refine Part.sub hA ?_); rfl)
    | (extract_lets +onlyGivenNames y; refine Keeps.cut (y := y) ?_ (fun hy => ?_) <;> [(unfold y; clear y); (clear_value y; rename' y => w)])
    | (extract_lets +onlyGivenNames y; clear_value y; rename' y => w)
    | (extract_lets +onlyGivenNames y; rename' y => w)
    | with_reducible apply State.headCommit_keeps
    | with_reducible apply State.scalerCommit_keeps
    | (with_reducible apply Keeps.foldl; intro y b hy)
    | (with_reducible apply Keeps.foldl_fst; intro y b hy)
    | split
    | dsimp -zeta only

theorem State.applyAudio_keeps {A : Nat} {z : State} {s : State} {x : Change} (hA : 0x4d00000005 &&& A = 0x4d00000005) (hk : Keeps A z s) :
    Keeps A z (State.applyAudio s x) := by
  unfold State.applyAudio
  repeat' first
    | with_reducible assumption
    | ((with_reducible refine Part.sub hA ?_); rfl)
    | (extract_lets +onlyGivenNames y; refine Keeps.cut (y := y) ?_ (fun hy => ?_) <;> [(unfold y; clear y); (clear_value y; rename' y => w)])
    | (extract_lets +onlyGivenNames y; clear_value y; rename' y => w)
    | (extract_lets +onlyGivenNames y; rename' y => w)
    | with_reducible apply State.applyHolds_keeps
    | with_reducible apply State.recorderPlan_keeps
    | with_reducible apply State.installPdm_keeps
    | with_reducible apply State.audioWait_keeps
    | split
    | dsimp -zeta only

theorem State.tileJoins_keeps {A : Nat} {z : State} {s : State} {c : Commit} {x : Nat × Nat} (hA : 0x1868021 &&& A = 0x1868021) (hk : Keeps A z s) :
    Keeps A z (State.tileJoins s c x) := by
  unfold State.tileJoins
  repeat' first
    | with_reducible assumption
    | ((with_reducible refine Part.sub hA ?_); rfl)
    | (extract_lets +onlyGivenNames y; refine Keeps.cut (y := y) ?_ (fun hy => ?_) <;> [(unfold y; clear y); (clear_value y; rename' y => w)])
    | (extract_lets +onlyGivenNames y; clear_value y; rename' y => w)
    | (extract_lets +onlyGivenNames y; rename' y => w)
    | with_reducible apply State.modTile_keeps
    | with_reducible apply State.modCoder_keeps
    | with_reducible apply State.clearTileCounts_keeps
    | with_reducible apply State.groupJoin_keeps
    | with_reducible apply State.groupBack_keeps
    | split
    | dsimp -zeta only

theorem State.gateRole_keeps {A : Nat} {z : State} {s : State} {role : Nat} (hA : 0x1008001 &&& A = 0x1008001) (hk : Keeps A z s) :
    Keeps A z (State.gateRole s role) := by
  unfold State.gateRole
  repeat' first
    | with_reducible assumption
    | ((with_reducible refine Part.sub hA ?_); rfl)
    | (extract_lets +onlyGivenNames y; refine Keeps.cut (y := y) ?_ (fun hy => ?_) <;> [(unfold y; clear y); (clear_value y; rename' y => w)])
    | (extract_lets +onlyGivenNames y; clear_value y; rename' y => w)
    | (extract_lets +onlyGivenNames y; rename' y => w)
    | with_reducible apply State.gate_keeps
    | (with_reducible apply Keeps.foldl; intro y b hy)
    | (with_reducible apply Keeps.foldl_fst; intro y b hy)
    | split
    | dsimp -zeta only

theorem State.applyFull_keeps {A : Nat} {z : State} {s : State} {c : Commit} (hA : 0x4d3da0d065 &&& A = 0x4d3da0d065) (hk : Keeps A z s) :
    Keeps A z (State.applyFull s c) := by
  unfold State.applyFull
  repeat' first
    | with_reducible assumption
    | ((with_reducible refine Part.sub hA ?_); rfl)
    | (extract_lets +onlyGivenNames y; refine Keeps.cut (y := y) ?_ (fun hy => ?_) <;> [(unfold y; clear y); (clear_value y; rename' y => w)])
    | (extract_lets +onlyGivenNames y; clear_value y; rename' y => w)
    | (extract_lets +onlyGivenNames y; rename' y => w)
    | with_reducible apply State.modIm_keeps
    | with_reducible apply State.startOutputs_keeps
    | with_reducible apply State.gateRole_keeps
    | split
    | dsimp -zeta only

theorem State.openGate_keeps {A : Nat} {z : State} {s : State} {c : Commit} (hA : 0xcc3da0d865 &&& A = 0xcc3da0d865) (hk : Keeps A z s) :
    Keeps A z (State.openGate s c) := by
  unfold State.openGate
  repeat' first
    | with_reducible assumption
    | ((with_reducible refine Part.sub hA ?_); rfl)
    | (extract_lets +onlyGivenNames y; refine Keeps.cut (y := y) ?_ (fun hy => ?_) <;> [(unfold y; clear y); (clear_value y; rename' y => w)])
    | (extract_lets +onlyGivenNames y; clear_value y; rename' y => w)
    | (extract_lets +onlyGivenNames y; rename' y => w)
    | with_reducible apply State.modTioPin_keeps
    | with_reducible apply State.mapTio_keeps
    | with_reducible apply State.modIm_keeps
    | with_reducible apply State.modStartup_keeps
    | (with_reducible intro c hc; first | exact hc | (dsimp only; omega))
    | with_reducible apply State.log_keeps
    | with_reducible apply State.headCommit_keeps
    | with_reducible apply State.startChannel_keeps
    | (with_reducible apply Keeps.foldl; intro y b hy)
    | (with_reducible apply Keeps.foldl_fst; intro y b hy)
    | split
    | dsimp -zeta only

theorem State.beginRoll_keeps {A : Nat} {z : State} {s : State} {c : Commit} (hA : 0x480300c005 &&& A = 0x480300c005) (hk : Keeps A z s) :
    Keeps A z (State.beginRoll s c) := by
  unfold State.beginRoll
  repeat' first
    | with_reducible assumption
    | ((with_reducible refine Part.sub hA ?_); rfl)
    | (extract_lets +onlyGivenNames y; refine Keeps.cut (y := y) ?_ (fun hy => ?_) <;> [(unfold y; clear y); (clear_value y; rename' y => w)])
    | (extract_lets +onlyGivenNames y; clear_value y; rename' y => w)
    | (extract_lets +onlyGivenNames y; rename' y => w)
    | with_reducible apply State.rollWaits_keeps
    | with_reducible apply State.rollStep_keeps
    | with_reducible apply State.rollDoneCheck_keeps
    | with_reducible apply State.exchangePlanes_keeps
    | (with_reducible apply Keeps.foldl; intro y b hy)
    | (with_reducible apply Keeps.foldl_fst; intro y b hy)
    | split
    | (with_reducible refine Keeps.change ?_ rfl rfl rfl rfl rfl rfl rfl rfl id ?_)
    | (intro p hp; cases p <;> first | exact Part.inside hA hp rfl | rfl)
    | dsimp -zeta only

theorem State.applySections2_keeps {A : Nat} {z : State} {s : State} {c : Commit} (hA : 0xedbdf7df65 &&& A = 0xedbdf7df65) (hk : Keeps A z s) :
    Keeps A z (State.applySections2 s c) := by
  unfold State.applySections2
  repeat' first
    | with_reducible assumption
    | ((with_reducible refine Part.sub hA ?_); rfl)
    | (extract_lets +onlyGivenNames y; refine Keeps.cut (y := y) ?_ (fun hy => ?_) <;> [(unfold y; clear y); (clear_value y; rename' y => w)])
    | (extract_lets +onlyGivenNames y; clear_value y; rename' y => w)
    | (extract_lets +onlyGivenNames y; rename' y => w)
    | with_reducible apply State.modIm_keeps
    | with_reducible apply State.gateUnused_keeps
    | with_reducible apply State.applyTime_keeps
    | with_reducible apply State.applyMdp_keeps
    | with_reducible apply State.applyPower_keeps
    | with_reducible apply State.applyFirmware_keeps
    | with_reducible apply State.applyControl_keeps
    | with_reducible apply State.applyLanes_keeps
    | with_reducible apply State.applyFlowPlan_keeps
    | with_reducible apply State.applyLiveness_keeps
    | with_reducible apply State.applySurfaces_keeps
    | with_reducible apply State.applyChannels_keeps
    | with_reducible apply State.applyHeads_keeps
    | with_reducible apply State.applyAudio_keeps
    | with_reducible apply State.tileJoins_keeps
    | with_reducible apply State.applyFull_keeps
    | with_reducible apply State.openGate_keeps
    | (with_reducible apply Keeps.foldl; intro y b hy)
    | (with_reducible apply Keeps.foldl_fst; intro y b hy)
    | split
    | (with_reducible refine Keeps.change ?_ rfl rfl rfl rfl rfl rfl rfl rfl id ?_)
    | (intro p hp; cases p <;> first | exact Part.inside hA hp rfl | rfl)
    | dsimp -zeta only

theorem State.applyCommit_keeps {A : Nat} {z : State} {s : State} {c : Commit} (hA : 0xedbff7ff65 &&& A = 0xedbff7ff65) (hk : Keeps A z s) :
    Keeps A z (State.applyCommit s c) := by
  unfold State.applyCommit
  repeat' first
    | with_reducible assumption
    | ((with_reducible refine Part.sub hA ?_); rfl)
    | (extract_lets +onlyGivenNames y; refine Keeps.cut (y := y) ?_ (fun hy => ?_) <;> [(unfold y; clear y); (clear_value y; rename' y => w)])
    | (extract_lets +onlyGivenNames y; clear_value y; rename' y => w)
    | (extract_lets +onlyGivenNames y; rename' y => w)
    | with_reducible apply State.setReg_keeps
    | with_reducible apply State.count_keeps
    | with_reducible apply State.modCommits_keeps
    | with_reducible apply State.log_keeps
    | with_reducible apply State.event_keeps
    | with_reducible apply State.spareCheck_keeps
    | with_reducible apply State.grantWaiting_keeps
    | with_reducible apply State.pairReadyCheck_keeps
    | with_reducible apply State.setTicket_keeps
    | with_reducible apply State.beginRoll_keeps
    | with_reducible apply State.applySections2_keeps
    | (with_reducible apply Keeps.foldl; intro y b hy)
    | (with_reducible apply Keeps.foldl_fst; intro y b hy)
    | split
    | dsimp -zeta only

theorem execRennetPoint_keeps {A : Nat} {z : State} {stamp : Stamp} {s : State} (hA : 0xedbff7ff65 &&& A = 0xedbff7ff65) (hk : Keeps A z s) :
    KeepsOut A z (execRennetPoint stamp s) := by
  unfold execRennetPoint
  repeat' first
    | with_reducible assumption
    | with_reducible apply KeepsOut.fault
    | with_reducible apply KeepsOut.next
    | (extract_lets +onlyGivenNames y; refine KeepsOut.cut (y := y) ?_ (fun hy => ?_) <;> [(unfold y; clear y); (clear_value y; rename' y => w)])
    | ((with_reducible refine Part.sub hA ?_); rfl)
    | (extract_lets +onlyGivenNames y; refine Keeps.cut (y := y) ?_ (fun hy => ?_) <;> [(unfold y; clear y); (clear_value y; rename' y => w)])
    | (extract_lets +onlyGivenNames y; clear_value y; rename' y => w)
    | (extract_lets +onlyGivenNames y; rename' y => w)
    | with_reducible apply State.applyCommit_keeps
    | (with_reducible apply Keeps.foldl; intro y b hy)
    | (with_reducible apply Keeps.foldl_fst; intro y b hy)
    | split
    | dsimp -zeta only

end Sys2Proof.Machine
end

