-- ==== Sys2Proof/Laws/KeepSafeRows.lean ====
section
/-!
SUPPORT. Keeps for the operations of Machine/SafeRows.lean.
-/

namespace Sys2Proof.Machine

theorem State.safeEntered_keeps {A : Nat} {z : State} {s t : State} (hA : 0x4d3db6e065 &&& A = 0x4d3db6e065) (hk : Keeps A z t) :
    Keeps A z (State.safeEntered s t) := by
  unfold State.safeEntered
  split
  · exact State.safeAbandons_keeps (Part.sub hA rfl) hk
  · exact hk

theorem execLedgerIntake_keeps {A : Nat} {z : State} {ctrl : Nat} {s : State} (hA : 0x24d3db6e865 &&& A = 0x24d3db6e865) (hk : Keeps A z s) :
    KeepsOut A z (execLedgerIntake ctrl s) := by
  unfold execLedgerIntake
  repeat' first
    | with_reducible assumption
    | with_reducible apply KeepsOut.fault
    | with_reducible apply KeepsOut.next
    | (extract_lets +onlyGivenNames y; refine KeepsOut.cut (y := y) ?_ (fun hy => ?_) <;> [(unfold y; clear y); (clear_value y; rename' y => w)])
    | ((with_reducible refine Part.sub hA ?_); rfl)
    | (extract_lets +onlyGivenNames y; refine Keeps.cut (y := y) ?_ (fun hy => ?_) <;> [(unfold y; clear y); (clear_value y; rename' y => w)])
    | (extract_lets +onlyGivenNames y; clear_value y; rename' y => w)
    | (extract_lets +onlyGivenNames y; rename' y => w)
    | with_reducible apply State.ledgerIntake_keeps
    | with_reducible apply State.safeEntered_keeps
    | split
    | dsimp -zeta only

theorem execLedgerDeliver_keeps {A : Nat} {z : State} {s : State} (hA : 0x4d3db6e865 &&& A = 0x4d3db6e865) (hk : Keeps A z s) :
    KeepsOut A z (execLedgerDeliver s) := by
  unfold execLedgerDeliver
  repeat' first
    | with_reducible assumption
    | with_reducible apply KeepsOut.fault
    | with_reducible apply KeepsOut.next
    | (extract_lets +onlyGivenNames y; refine KeepsOut.cut (y := y) ?_ (fun hy => ?_) <;> [(unfold y; clear y); (clear_value y; rename' y => w)])
    | ((with_reducible refine Part.sub hA ?_); rfl)
    | (extract_lets +onlyGivenNames y; refine Keeps.cut (y := y) ?_ (fun hy => ?_) <;> [(unfold y; clear y); (clear_value y; rename' y => w)])
    | (extract_lets +onlyGivenNames y; clear_value y; rename' y => w)
    | (extract_lets +onlyGivenNames y; rename' y => w)
    | with_reducible apply State.ledgerDeliver_keeps
    | with_reducible apply State.safeEntered_keeps
    | split
    | dsimp -zeta only

theorem execSafePinQualify_keeps {A : Nat} {z : State} {s : State} (hA : 0x4d3db6e865 &&& A = 0x4d3db6e865) (hk : Keeps A z s) :
    KeepsOut A z (execSafePinQualify s) := by
  unfold execSafePinQualify
  repeat' first
    | with_reducible assumption
    | with_reducible apply KeepsOut.fault
    | with_reducible apply KeepsOut.next
    | (extract_lets +onlyGivenNames y; refine KeepsOut.cut (y := y) ?_ (fun hy => ?_) <;> [(unfold y; clear y); (clear_value y; rename' y => w)])
    | ((with_reducible refine Part.sub hA ?_); rfl)
    | (extract_lets +onlyGivenNames y; refine Keeps.cut (y := y) ?_ (fun hy => ?_) <;> [(unfold y; clear y); (clear_value y; rename' y => w)])
    | (extract_lets +onlyGivenNames y; clear_value y; rename' y => w)
    | (extract_lets +onlyGivenNames y; rename' y => w)
    | with_reducible apply State.safePinQualify_keeps
    | with_reducible apply State.safeEntered_keeps
    | split
    | dsimp -zeta only

theorem execSafeEnter_keeps {A : Nat} {z : State} {agent : Agent} {s : State} (hA : 0x4d3db6e865 &&& A = 0x4d3db6e865) (hk : Keeps A z s) :
    KeepsOut A z (execSafeEnter agent s) := by
  unfold execSafeEnter
  repeat' first
    | with_reducible assumption
    | with_reducible apply KeepsOut.fault
    | with_reducible apply KeepsOut.next
    | (extract_lets +onlyGivenNames y; refine KeepsOut.cut (y := y) ?_ (fun hy => ?_) <;> [(unfold y; clear y); (clear_value y; rename' y => w)])
    | ((with_reducible refine Part.sub hA ?_); rfl)
    | (extract_lets +onlyGivenNames y; refine Keeps.cut (y := y) ?_ (fun hy => ?_) <;> [(unfold y; clear y); (clear_value y; rename' y => w)])
    | (extract_lets +onlyGivenNames y; clear_value y; rename' y => w)
    | (extract_lets +onlyGivenNames y; rename' y => w)
    | with_reducible apply State.safeRequested_keeps
    | with_reducible apply State.safeEntered_keeps
    | split
    | dsimp -zeta only

end Sys2Proof.Machine
end

