-- ==== Sys2Proof/Laws/KeepStartup.lean ====
section
/-!
SUPPORT. Keeps for the operations of Machine/Startup.lean.
-/

namespace Sys2Proof.Machine

theorem execRstNTransition_keeps {A : Nat} {z : State} {high : Bool} {s : State} (hA : 0xc000000001 &&& A = 0xc000000001) (hk : Keeps A z s) :
    KeepsOut A z (execRstNTransition high s) := by
  unfold execRstNTransition
  repeat' first
    | with_reducible assumption
    | with_reducible apply KeepsOut.fault
    | with_reducible apply KeepsOut.next
    | (extract_lets +onlyGivenNames y; refine KeepsOut.cut (y := y) ?_ (fun hy => ?_) <;> [(unfold y; clear y); (clear_value y; rename' y => w)])
    | ((with_reducible refine Part.sub hA ?_); rfl)
    | (extract_lets +onlyGivenNames y; refine Keeps.cut (y := y) ?_ (fun hy => ?_) <;> [(unfold y; clear y); (clear_value y; rename' y => w)])
    | (extract_lets +onlyGivenNames y; clear_value y; rename' y => w)
    | (extract_lets +onlyGivenNames y; rename' y => w)
    | with_reducible apply State.count_keeps
    | with_reducible apply State.modStartup_keeps
    | (with_reducible intro c hc; first | exact hc | (dsimp only; omega))
    | with_reducible apply State.logRated_keeps
    | split
    | dsimp -zeta only

theorem execRstPinQualify_keeps {A : Nat} {z : State} {s : State} (hA : 0x2ffffffffff &&& A = 0x2ffffffffff) (hk : Keeps A z s) :
    KeepsOut A z (execRstPinQualify s) := by
  unfold execRstPinQualify
  repeat' first
    | with_reducible assumption
    | with_reducible apply KeepsOut.fault
    | with_reducible apply KeepsOut.next
    | (extract_lets +onlyGivenNames y; refine KeepsOut.cut (y := y) ?_ (fun hy => ?_) <;> [(unfold y; clear y); (clear_value y; rename' y => w)])
    | ((with_reducible refine Part.sub hA ?_); rfl)
    | (extract_lets +onlyGivenNames y; refine Keeps.cut (y := y) ?_ (fun hy => ?_) <;> [(unfold y; clear y); (clear_value y; rename' y => w)])
    | (extract_lets +onlyGivenNames y; clear_value y; rename' y => w)
    | (extract_lets +onlyGivenNames y; rename' y => w)
    | with_reducible apply State.modHull_keeps
    | with_reducible apply State.modStartup_keeps
    | (with_reducible intro c hc; first | exact hc | (dsimp only; omega))
    | with_reducible apply State.resetDevice_keeps
    | with_reducible apply State.interruptBootWrite_keeps
    | split
    | dsimp -zeta only

theorem execRstPinRelease_keeps {A : Nat} {z : State} {s : State} (hA : 0xa000000000 &&& A = 0xa000000000) (hk : Keeps A z s) :
    KeepsOut A z (execRstPinRelease s) := by
  unfold execRstPinRelease
  repeat' first
    | with_reducible assumption
    | with_reducible apply KeepsOut.fault
    | with_reducible apply KeepsOut.next
    | (extract_lets +onlyGivenNames y; refine KeepsOut.cut (y := y) ?_ (fun hy => ?_) <;> [(unfold y; clear y); (clear_value y; rename' y => w)])
    | ((with_reducible refine Part.sub hA ?_); rfl)
    | (extract_lets +onlyGivenNames y; refine Keeps.cut (y := y) ?_ (fun hy => ?_) <;> [(unfold y; clear y); (clear_value y; rename' y => w)])
    | (extract_lets +onlyGivenNames y; clear_value y; rename' y => w)
    | (extract_lets +onlyGivenNames y; rename' y => w)
    | with_reducible apply State.modStartup_keeps
    | (with_reducible intro c hc; first | exact hc | (dsimp only; omega))
    | with_reducible apply State.startRails_keeps
    | split
    | dsimp -zeta only

theorem State.copyHullEntry_keeps {A : Nat} {z : State} {s : State} {e : HullEntry} (hA : 0x4000000000 &&& A = 0x4000000000) (hk : Keeps A z s) :
    Keeps A z (State.copyHullEntry s e) := by
  unfold State.copyHullEntry
  repeat' first
    | with_reducible assumption
    | ((with_reducible refine Part.sub hA ?_); rfl)
    | (extract_lets +onlyGivenNames y; refine Keeps.cut (y := y) ?_ (fun hy => ?_) <;> [(unfold y; clear y); (clear_value y; rename' y => w)])
    | (extract_lets +onlyGivenNames y; clear_value y; rename' y => w)
    | (extract_lets +onlyGivenNames y; rename' y => w)
    | with_reducible apply State.log_keeps
    | split
    | dsimp -zeta only

theorem State.copyHullLog_keeps {A : Nat} {z : State} {s : State} (hA : 0x6000000000 &&& A = 0x6000000000) (hk : Keeps A z s) :
    Keeps A z (State.copyHullLog s) := by
  unfold State.copyHullLog
  repeat' first
    | with_reducible assumption
    | ((with_reducible refine Part.sub hA ?_); rfl)
    | (extract_lets +onlyGivenNames y; refine Keeps.cut (y := y) ?_ (fun hy => ?_) <;> [(unfold y; clear y); (clear_value y; rename' y => w)])
    | (extract_lets +onlyGivenNames y; clear_value y; rename' y => w)
    | (extract_lets +onlyGivenNames y; rename' y => w)
    | with_reducible apply State.modHull_keeps
    | with_reducible apply State.log_keeps
    | with_reducible apply State.copyHullEntry_keeps
    | (with_reducible apply Keeps.foldl; intro y b hy)
    | (with_reducible apply Keeps.foldl_fst; intro y b hy)
    | split
    | dsimp -zeta only

theorem State.releaseD0_keeps {A : Nat} {z : State} {s : State} (hA : 0xee3da0d8e5 &&& A = 0xee3da0d8e5) (hk : Keeps A z s) :
    Keeps A z (State.releaseD0 s) := by
  unfold State.releaseD0
  repeat' first
    | with_reducible assumption
    | ((with_reducible refine Part.sub hA ?_); rfl)
    | (extract_lets +onlyGivenNames y; refine Keeps.cut (y := y) ?_ (fun hy => ?_) <;> [(unfold y; clear y); (clear_value y; rename' y => w)])
    | (extract_lets +onlyGivenNames y; clear_value y; rename' y => w)
    | (extract_lets +onlyGivenNames y; rename' y => w)
    | with_reducible apply State.modTile_keeps
    | with_reducible apply State.modMchan_keeps
    | with_reducible apply State.modClock_keeps
    | (with_reducible intro _; rfl)
    | with_reducible apply State.modMemory_keeps
    | with_reducible apply State.modHull_keeps
    | with_reducible apply State.modStartup_keeps
    | (with_reducible intro c hc; first | exact hc | (dsimp only; omega))
    | with_reducible apply State.log_keeps
    | with_reducible apply State.recorderRecover_keeps
    | with_reducible apply State.warningBegins_keeps
    | with_reducible apply State.copyHullLog_keeps
    | (with_reducible apply Keeps.foldl; intro y b hy)
    | (with_reducible apply Keeps.foldl_fst; intro y b hy)
    | split
    | dsimp -zeta only

theorem execStartD0Release_keeps {A : Nat} {z : State} {s : State} (hA : 0xee3da0d8e5 &&& A = 0xee3da0d8e5) (hk : Keeps A z s) :
    KeepsOut A z (execStartD0Release s) := by
  unfold execStartD0Release
  repeat' first
    | with_reducible assumption
    | with_reducible apply KeepsOut.fault
    | with_reducible apply KeepsOut.next
    | (extract_lets +onlyGivenNames y; refine KeepsOut.cut (y := y) ?_ (fun hy => ?_) <;> [(unfold y; clear y); (clear_value y; rename' y => w)])
    | ((with_reducible refine Part.sub hA ?_); rfl)
    | (extract_lets +onlyGivenNames y; refine Keeps.cut (y := y) ?_ (fun hy => ?_) <;> [(unfold y; clear y); (clear_value y; rename' y => w)])
    | (extract_lets +onlyGivenNames y; clear_value y; rename' y => w)
    | (extract_lets +onlyGivenNames y; rename' y => w)
    | with_reducible apply State.releaseD0_keeps
    | split
    | dsimp -zeta only

theorem execHostReset_keeps {A : Nat} {z : State} {agent : Agent} {confirm : BitVec 16} {s : State} (hA : 0xcc3da0c865 &&& A = 0xcc3da0c865) (hk : Keeps A z s) :
    KeepsOut A z (execHostReset agent confirm s) := by
  unfold execHostReset
  repeat' first
    | with_reducible assumption
    | with_reducible apply KeepsOut.fault
    | with_reducible apply KeepsOut.next
    | (extract_lets +onlyGivenNames y; refine KeepsOut.cut (y := y) ?_ (fun hy => ?_) <;> [(unfold y; clear y); (clear_value y; rename' y => w)])
    | ((with_reducible refine Part.sub hA ?_); rfl)
    | (extract_lets +onlyGivenNames y; refine Keeps.cut (y := y) ?_ (fun hy => ?_) <;> [(unfold y; clear y); (clear_value y; rename' y => w)])
    | (extract_lets +onlyGivenNames y; clear_value y; rename' y => w)
    | (extract_lets +onlyGivenNames y; rename' y => w)
    | with_reducible apply State.modStartup_keeps
    | (with_reducible intro c hc; first | exact hc | (dsimp only; omega))
    | with_reducible apply State.log_keeps
    | with_reducible apply State.sealWheel_keeps
    | with_reducible apply State.allHarmless_keeps
    | split
    | dsimp -zeta only

theorem execHostResetEnter_keeps {A : Nat} {z : State} {s : State} (hA : 0x2ffffffffff &&& A = 0x2ffffffffff) (hk : Keeps A z s) :
    KeepsOut A z (execHostResetEnter s) := by
  unfold execHostResetEnter
  repeat' first
    | with_reducible assumption
    | with_reducible apply KeepsOut.fault
    | with_reducible apply KeepsOut.next
    | (extract_lets +onlyGivenNames y; refine KeepsOut.cut (y := y) ?_ (fun hy => ?_) <;> [(unfold y; clear y); (clear_value y; rename' y => w)])
    | ((with_reducible refine Part.sub hA ?_); rfl)
    | (extract_lets +onlyGivenNames y; refine Keeps.cut (y := y) ?_ (fun hy => ?_) <;> [(unfold y; clear y); (clear_value y; rename' y => w)])
    | (extract_lets +onlyGivenNames y; clear_value y; rename' y => w)
    | (extract_lets +onlyGivenNames y; rename' y => w)
    | with_reducible apply State.resetDevice_keeps
    | with_reducible apply State.interruptBootWrite_keeps
    | with_reducible apply State.releaseD0_keeps
    | split
    | dsimp -zeta only

theorem State.startManagement_keeps {A : Nat} {z : State} {s : State} (hA : 0xcc3da6cb65 &&& A = 0xcc3da6cb65) (hk : Keeps A z s) :
    Keeps A z (State.startManagement s) := by
  unfold State.startManagement
  repeat' first
    | with_reducible assumption
    | ((with_reducible refine Part.sub hA ?_); rfl)
    | (extract_lets +onlyGivenNames y; refine Keeps.cut (y := y) ?_ (fun hy => ?_) <;> [(unfold y; clear y); (clear_value y; rename' y => w)])
    | (extract_lets +onlyGivenNames y; clear_value y; rename' y => w)
    | (extract_lets +onlyGivenNames y; rename' y => w)
    | with_reducible apply State.adminOff_keeps
    | with_reducible apply State.adminOn_keeps
    | (with_reducible apply Keeps.foldl; intro y b hy)
    | (with_reducible apply Keeps.foldl_fst; intro y b hy)
    | split
    | dsimp -zeta only

theorem State.enterNoImage_keeps {A : Nat} {z : State} {s : State} (hA : 0xcc3da6db65 &&& A = 0xcc3da6db65) (hk : Keeps A z s) :
    Keeps A z (State.enterNoImage s) := by
  unfold State.enterNoImage
  repeat' first
    | with_reducible assumption
    | ((with_reducible refine Part.sub hA ?_); rfl)
    | (extract_lets +onlyGivenNames y; refine Keeps.cut (y := y) ?_ (fun hy => ?_) <;> [(unfold y; clear y); (clear_value y; rename' y => w)])
    | (extract_lets +onlyGivenNames y; clear_value y; rename' y => w)
    | (extract_lets +onlyGivenNames y; rename' y => w)
    | with_reducible apply State.modTc_keeps
    | with_reducible apply State.modIm_keeps
    | with_reducible apply State.modStartup_keeps
    | (with_reducible intro c hc; first | exact hc | (dsimp only; omega))
    | with_reducible apply State.log_keeps
    | with_reducible apply State.gate_keeps
    | with_reducible apply State.startManagement_keeps
    | (with_reducible apply Keeps.foldl; intro y b hy)
    | (with_reducible apply Keeps.foldl_fst; intro y b hy)
    | split
    | dsimp -zeta only

theorem State.startFrom_keeps {A : Nat} {z : State} {s : State} {b : Bool} {image : Image} (hA : 0x8000001000 &&& A = 0x8000001000) (hk : Keeps A z s) :
    Keeps A z (State.startFrom s b image) := by
  unfold State.startFrom
  repeat' first
    | with_reducible assumption
    | ((with_reducible refine Part.sub hA ?_); rfl)
    | (extract_lets +onlyGivenNames y; refine Keeps.cut (y := y) ?_ (fun hy => ?_) <;> [(unfold y; clear y); (clear_value y; rename' y => w)])
    | (extract_lets +onlyGivenNames y; clear_value y; rename' y => w)
    | (extract_lets +onlyGivenNames y; rename' y => w)
    | with_reducible apply State.modIm_keeps
    | with_reducible apply State.modStartup_keeps
    | (with_reducible intro c hc; first | exact hc | (dsimp only; omega))
    | split
    | dsimp -zeta only

theorem State.tryBank_keeps {A : Nat} {z : State} {s : State} {b : Bool} (hA : 0xc000001000 &&& A = 0xc000001000) (hk : Keeps A z s) :
    Keeps A z (State.tryBank s b) := by
  unfold State.tryBank
  repeat' first
    | with_reducible assumption
    | ((with_reducible refine Part.sub hA ?_); rfl)
    | (extract_lets +onlyGivenNames y; refine Keeps.cut (y := y) ?_ (fun hy => ?_) <;> [(unfold y; clear y); (clear_value y; rename' y => w)])
    | (extract_lets +onlyGivenNames y; clear_value y; rename' y => w)
    | (extract_lets +onlyGivenNames y; rename' y => w)
    | with_reducible apply State.modStartup_keeps
    | (with_reducible intro c hc; first | exact hc | (dsimp only; omega))
    | with_reducible apply State.log_keeps
    | with_reducible apply State.modBankState_keeps
    | with_reducible apply State.startFrom_keeps
    | split
    | dsimp -zeta only

theorem execBootBankSelect_keeps {A : Nat} {z : State} {s : State} (hA : 0xcc3da6db65 &&& A = 0xcc3da6db65) (hk : Keeps A z s) :
    KeepsOut A z (execBootBankSelect s) := by
  unfold execBootBankSelect
  repeat' first
    | with_reducible assumption
    | with_reducible apply KeepsOut.fault
    | with_reducible apply KeepsOut.next
    | (extract_lets +onlyGivenNames y; refine KeepsOut.cut (y := y) ?_ (fun hy => ?_) <;> [(unfold y; clear y); (clear_value y; rename' y => w)])
    | ((with_reducible refine Part.sub hA ?_); rfl)
    | (extract_lets +onlyGivenNames y; refine Keeps.cut (y := y) ?_ (fun hy => ?_) <;> [(unfold y; clear y); (clear_value y; rename' y => w)])
    | (extract_lets +onlyGivenNames y; clear_value y; rename' y => w)
    | (extract_lets +onlyGivenNames y; rename' y => w)
    | with_reducible apply State.enterNoImage_keeps
    | with_reducible apply State.tryBank_keeps
    | split
    | dsimp -zeta only

theorem State.loadFirmware_keeps {A : Nat} {z : State} {s : State} {k type : Nat} (hA : 0x2800001000 &&& A = 0x2800001000) (hk : Keeps A z s) :
    Keeps A z (State.loadFirmware s k type) := by
  unfold State.loadFirmware
  repeat' first
    | with_reducible assumption
    | ((with_reducible refine Part.sub hA ?_); rfl)
    | (extract_lets +onlyGivenNames y; refine Keeps.cut (y := y) ?_ (fun hy => ?_) <;> [(unfold y; clear y); (clear_value y; rename' y => w)])
    | (extract_lets +onlyGivenNames y; clear_value y; rename' y => w)
    | (extract_lets +onlyGivenNames y; rename' y => w)
    | with_reducible apply State.modFw_keeps
    | with_reducible apply State.restartKind_keeps
    | split
    | dsimp -zeta only

theorem execStartFirmware_keeps {A : Nat} {z : State} {s : State} (hA : 0x6800001005 &&& A = 0x6800001005) (hk : Keeps A z s) :
    KeepsOut A z (execStartFirmware s) := by
  unfold execStartFirmware
  repeat' first
    | with_reducible assumption
    | with_reducible apply KeepsOut.fault
    | with_reducible apply KeepsOut.next
    | (extract_lets +onlyGivenNames y; refine KeepsOut.cut (y := y) ?_ (fun hy => ?_) <;> [(unfold y; clear y); (clear_value y; rename' y => w)])
    | ((with_reducible refine Part.sub hA ?_); rfl)
    | (extract_lets +onlyGivenNames y; refine Keeps.cut (y := y) ?_ (fun hy => ?_) <;> [(unfold y; clear y); (clear_value y; rename' y => w)])
    | (extract_lets +onlyGivenNames y; clear_value y; rename' y => w)
    | (extract_lets +onlyGivenNames y; rename' y => w)
    | with_reducible apply State.swapFirmware_keeps
    | with_reducible apply State.loadFirmware_keeps
    | split
    | dsimp -zeta only

theorem State.installAll_keeps {A : Nat} {z : State} {s : State} (hA : 0xcd3db7cfe5 &&& A = 0xcd3db7cfe5) (hk : Keeps A z s) :
    Keeps A z (State.installAll s) := by
  unfold State.installAll
  repeat' first
    | with_reducible assumption
    | ((with_reducible refine Part.sub hA ?_); rfl)
    | (extract_lets +onlyGivenNames y; refine Keeps.cut (y := y) ?_ (fun hy => ?_) <;> [(unfold y; clear y); (clear_value y; rename' y => w)])
    | (extract_lets +onlyGivenNames y; clear_value y; rename' y => w)
    | (extract_lets +onlyGivenNames y; rename' y => w)
    | with_reducible apply State.modClock_keeps
    | (with_reducible intro _; rfl)
    | with_reducible apply State.applyHolds_keeps
    | with_reducible apply State.recorderPlan_keeps
    | with_reducible apply State.installPdm_keeps
    | with_reducible apply State.audioStart_keeps
    | with_reducible apply State.installCheckPlan_keeps
    | with_reducible apply State.applySections_keeps
    | with_reducible apply State.installFlowPlan_keeps
    | with_reducible apply State.installInterruptPlan_keeps
    | with_reducible apply State.installPtpPorts_keeps
    | with_reducible apply State.installRefIn_keeps
    | with_reducible apply State.installPair_keeps
    | with_reducible apply State.installTioPlan_keeps
    | with_reducible apply State.startManagement_keeps
    | (with_reducible apply Keeps.foldl; intro y b hy)
    | (with_reducible apply Keeps.foldl_fst; intro y b hy)
    | split
    | (with_reducible refine Keeps.change ?_ rfl rfl rfl rfl rfl rfl rfl rfl id ?_)
    | (intro p hp; cases p <;> first | exact Part.inside hA hp rfl | rfl)
    | dsimp -zeta only

theorem State.leaveReset_keeps {A : Nat} {z : State} {s : State} {role : Nat} {x : Nat × Nat} (hA : 0x1008001 &&& A = 0x1008001) (hk : Keeps A z s) :
    Keeps A z (State.leaveReset s role x) := by
  unfold State.leaveReset
  repeat' first
    | with_reducible assumption
    | ((with_reducible refine Part.sub hA ?_); rfl)
    | (extract_lets +onlyGivenNames y; refine Keeps.cut (y := y) ?_ (fun hy => ?_) <;> [(unfold y; clear y); (clear_value y; rename' y => w)])
    | (extract_lets +onlyGivenNames y; clear_value y; rename' y => w)
    | (extract_lets +onlyGivenNames y; rename' y => w)
    | with_reducible apply State.modTile_keeps
    | with_reducible apply State.gate_keeps
    | with_reducible apply State.ripenCoder_keeps
    | split
    | dsimp -zeta only

theorem execStartInstall_keeps {A : Nat} {z : State} {s : State} (hA : 0xcd3db7cfe5 &&& A = 0xcd3db7cfe5) (hk : Keeps A z s) :
    KeepsOut A z (execStartInstall s) := by
  unfold execStartInstall
  repeat' first
    | with_reducible assumption
    | with_reducible apply KeepsOut.fault
    | with_reducible apply KeepsOut.next
    | (extract_lets +onlyGivenNames y; refine KeepsOut.cut (y := y) ?_ (fun hy => ?_) <;> [(unfold y; clear y); (clear_value y; rename' y => w)])
    | ((with_reducible refine Part.sub hA ?_); rfl)
    | (extract_lets +onlyGivenNames y; refine Keeps.cut (y := y) ?_ (fun hy => ?_) <;> [(unfold y; clear y); (clear_value y; rename' y => w)])
    | (extract_lets +onlyGivenNames y; clear_value y; rename' y => w)
    | (extract_lets +onlyGivenNames y; rename' y => w)
    | with_reducible apply State.modStartup_keeps
    | (with_reducible intro c hc; first | exact hc | (dsimp only; omega))
    | with_reducible apply State.installAll_keeps
    | with_reducible apply State.leaveReset_keeps
    | (with_reducible apply Keeps.foldl; intro y b hy)
    | (with_reducible apply Keeps.foldl_fst; intro y b hy)
    | split
    | dsimp -zeta only

theorem execStartPorts_keeps {A : Nat} {z : State} {s : State} (hA : 0x8000060001 &&& A = 0x8000060001) (hk : Keeps A z s) :
    KeepsOut A z (execStartPorts s) := by
  unfold execStartPorts
  dsimp only
  repeat' first
    | with_reducible assumption
    | with_reducible apply KeepsOut.fault
    | with_reducible apply KeepsOut.next
    | (extract_lets +onlyGivenNames y; refine KeepsOut.cut (y := y) ?_ (fun hy => ?_) <;> [(unfold y; clear y); (clear_value y; rename' y => w)])
    | ((with_reducible refine Part.sub hA ?_); rfl)
    | (extract_lets +onlyGivenNames y; refine Keeps.cut (y := y) ?_ (fun hy => ?_) <;> [(unfold y; clear y); (clear_value y; rename' y => w)])
    | (extract_lets +onlyGivenNames y; clear_value y; rename' y => w)
    | (extract_lets +onlyGivenNames y; rename' y => w)
    | with_reducible apply State.modStartup_keeps
    | (with_reducible intro c hc; first | exact hc | (dsimp only; omega))
    | with_reducible apply State.tryAttempt_keeps
    | (with_reducible apply Keeps.foldl; intro y b hy)
    | (with_reducible apply Keeps.foldl_fst; intro y b hy)
    | split
    | dsimp -zeta only

theorem execStartSlow_keeps {A : Nat} {z : State} {s : State} (hA : 0xc000000000 &&& A = 0xc000000000) (hk : Keeps A z s) :
    KeepsOut A z (execStartSlow s) := by
  unfold execStartSlow
  repeat' first
    | with_reducible assumption
    | with_reducible apply KeepsOut.fault
    | with_reducible apply KeepsOut.next
    | (extract_lets +onlyGivenNames y; refine KeepsOut.cut (y := y) ?_ (fun hy => ?_) <;> [(unfold y; clear y); (clear_value y; rename' y => w)])
    | ((with_reducible refine Part.sub hA ?_); rfl)
    | (extract_lets +onlyGivenNames y; refine Keeps.cut (y := y) ?_ (fun hy => ?_) <;> [(unfold y; clear y); (clear_value y; rename' y => w)])
    | (extract_lets +onlyGivenNames y; clear_value y; rename' y => w)
    | (extract_lets +onlyGivenNames y; rename' y => w)
    | with_reducible apply State.modStartup_keeps
    | (with_reducible intro c hc; first | exact hc | (dsimp only; omega))
    | with_reducible apply State.log_keeps
    | split
    | dsimp -zeta only

end Sys2Proof.Machine
end

