-- ==== Sys2Proof/Laws/KeepRegRead.lean ====
section
/-!
SUPPORT. Keeps for the operations of Machine/RegRead.lean.
-/

namespace Sys2Proof.Machine

theorem doing_keeps {A : Nat} {z : State} {f : State → Out} {s : State} (hk : Keeps A z s) (hf : KeepsOut A z (f s)) :
    Keeps A z (doing f s) := by
  unfold doing
  split
  · exact hf _ (by assumption)
  · exact hk

theorem State.readLo_keeps {A : Nat} {z : State} {s : State} {g : Agent} {hi v : Nat} (hA : 0x2 &&& A = 0x2) (hk : Keeps A z s) :
    Keeps A z (State.readLo s g hi v).1 := by
  unfold State.readLo
  repeat' first
    | with_reducible assumption
    | ((with_reducible refine Part.sub hA ?_); rfl)
    | (extract_lets +onlyGivenNames y; refine Keeps.cut (y := y) ?_ (fun hy => ?_) <;> [(unfold y; clear y); (clear_value y; rename' y => w)])
    | (extract_lets +onlyGivenNames y; clear_value y; rename' y => w)
    | (extract_lets +onlyGivenNames y; rename' y => w)
    | with_reducible apply State.setLatch_keeps
    | split
    | dsimp -zeta only

theorem State.readBy_keeps {A : Nat} {z : State} {s : State} {f : State → State} (hk : Keeps A z s) (hf : ∀ y, Keeps A z y → Keeps A z (f y)) :
    Keeps A z (State.readBy s f).1 := by
  unfold State.readBy
  repeat' first
    | with_reducible assumption
    | ((with_reducible refine Part.sub hA ?_); rfl)
    | (extract_lets +onlyGivenNames y; refine Keeps.cut (y := y) ?_ (fun hy => ?_) <;> [(unfold y; clear y); (clear_value y; rename' y => w)])
    | (extract_lets +onlyGivenNames y; clear_value y; rename' y => w)
    | (extract_lets +onlyGivenNames y; rename' y => w)
    | with_reducible apply hf
    | split
    | dsimp -zeta only

theorem State.readActs_keeps {A : Nat} {z : State} {s : State} {g : Agent} {l : Layout} {n off a : Nat} {r : State × Word} (hA : 0xb21820813 &&& A = 0xb21820813) (hk : Keeps A z s)
    (e : State.readActs s g l n off a = some r) : Keeps A z r.1 := by
  unfold State.readActs at e
  repeat' split at e
  all_goals cases e
  all_goals repeat' first
    | with_reducible assumption
    | ((with_reducible refine Part.sub hA ?_); rfl)
    | with_reducible apply State.readBy_keeps
    | with_reducible apply State.modCoder_keeps
    | with_reducible apply State.modChan_keeps
    | with_reducible apply State.setReg_keeps
    | with_reducible intro _
    | with_reducible apply doing_keeps
    | with_reducible apply execStampLoRead_keeps
    | with_reducible apply execCapLoRead_keeps
    | with_reducible apply execFomRead_keeps
    | with_reducible apply execIrqClaim_keeps
    | with_reducible apply State.bufLowRead_keeps
    | with_reducible apply State.peakRead_keeps
    | with_reducible apply State.stallMaxRead_keeps
    | with_reducible apply State.qPeakRead_keeps

theorem State.readReg_keeps {A : Nat} {z : State} {s : State} {g : Agent} {a : Nat} (hA : 0xb21820813 &&& A = 0xb21820813) (hk : Keeps A z s) :
    Keeps A z (State.readReg s g a).1 := by
  unfold State.readReg
  repeat' first
    | with_reducible assumption
    | ((with_reducible refine Part.sub hA ?_); rfl)
    | (extract_lets +onlyGivenNames y; refine Keeps.cut (y := y) ?_ (fun hy => ?_) <;> [(unfold y; clear y); (clear_value y; rename' y => w)])
    | (extract_lets +onlyGivenNames y; clear_value y; rename' y => w)
    | (extract_lets +onlyGivenNames y; rename' y => w)
    | (refine Keeps.of_fst (State.readLo_keeps (Part.sub hA rfl) ?_) (by assumption))
    | with_reducible apply State.readLo_keeps
    | (refine State.readActs_keeps (Part.sub hA rfl) ?_ (by assumption))
    | split
    | dsimp -zeta only

end Sys2Proof.Machine
end

