-- ==== Sys2Proof/Laws/KeepSession.lean ====
section
/-!
SUPPORT. Keeps for the operations of Machine/Session.lean.
-/

namespace Sys2Proof.Machine

theorem State.sendDatagram_keeps {A : Nat} {z : State} {s : State} {r : Route} {bytes : List Byte} (hA : 0x21 &&& A = 0x21) (hk : Keeps A z s) :
    Keeps A z (State.sendDatagram s r bytes) := by
  unfold State.sendDatagram
  repeat' first
    | with_reducible assumption
    | ((with_reducible refine Part.sub hA ?_); rfl)
    | (extract_lets +onlyGivenNames y; refine Keeps.cut (y := y) ?_ (fun hy => ?_) <;> [(unfold y; clear y); (clear_value y; rename' y => w)])
    | (extract_lets +onlyGivenNames y; clear_value y; rename' y => w)
    | (extract_lets +onlyGivenNames y; rename' y => w)
    | with_reducible apply State.count_keeps
    | with_reducible apply State.send_keeps
    | split
    | dsimp -zeta only

theorem State.endSession_keeps {A : Nat} {z : State} {s : State} {i cause : Nat} (hA : 0x5c00000007 &&& A = 0x5c00000007) (hk : Keeps A z s) :
    Keeps A z (State.endSession s i cause) := by
  unfold State.endSession
  repeat' first
    | with_reducible assumption
    | ((with_reducible refine Part.sub hA ?_); rfl)
    | (extract_lets +onlyGivenNames y; refine Keeps.cut (y := y) ?_ (fun hy => ?_) <;> [(unfold y; clear y); (clear_value y; rename' y => w)])
    | (extract_lets +onlyGivenNames y; clear_value y; rename' y => w)
    | (extract_lets +onlyGivenNames y; rename' y => w)
    | with_reducible apply State.dropLatches_keeps
    | with_reducible apply State.setSession_keeps
    | with_reducible apply State.log_keeps
    | with_reducible apply State.event_keeps
    | with_reducible apply State.endExport_keeps
    | split
    | dsimp -zeta only

theorem State.mdpSend_keeps {A : Nat} {z : State} {s : State} {i : Nat} {r : Route} {type seq : Nat} {body : List Byte} (hA : 0x5c00000027 &&& A = 0x5c00000027) (hk : Keeps A z s) :
    Keeps A z (State.mdpSend s i r type seq body) := by
  unfold State.mdpSend
  repeat' first
    | with_reducible assumption
    | ((with_reducible refine Part.sub hA ?_); rfl)
    | (extract_lets +onlyGivenNames y; refine Keeps.cut (y := y) ?_ (fun hy => ?_) <;> [(unfold y; clear y); (clear_value y; rename' y => w)])
    | (extract_lets +onlyGivenNames y; clear_value y; rename' y => w)
    | (extract_lets +onlyGivenNames y; rename' y => w)
    | with_reducible apply State.modSession_keeps
    | with_reducible apply State.sendDatagram_keeps
    | with_reducible apply State.endSession_keeps
    | split
    | dsimp -zeta only

theorem execSessionIdle_keeps {A : Nat} {z : State} {session : Fin 8} {s : State} (hA : 0x5c00000007 &&& A = 0x5c00000007) (hk : Keeps A z s) :
    KeepsOut A z (execSessionIdle session s) := by
  unfold execSessionIdle
  repeat' first
    | with_reducible assumption
    | with_reducible apply KeepsOut.fault
    | with_reducible apply KeepsOut.next
    | (extract_lets +onlyGivenNames y; refine KeepsOut.cut (y := y) ?_ (fun hy => ?_) <;> [(unfold y; clear y); (clear_value y; rename' y => w)])
    | ((with_reducible refine Part.sub hA ?_); rfl)
    | (extract_lets +onlyGivenNames y; refine Keeps.cut (y := y) ?_ (fun hy => ?_) <;> [(unfold y; clear y); (clear_value y; rename' y => w)])
    | (extract_lets +onlyGivenNames y; clear_value y; rename' y => w)
    | (extract_lets +onlyGivenNames y; rename' y => w)
    | with_reducible apply State.endSession_keeps
    | split
    | dsimp -zeta only

theorem execSessionKill_keeps {A : Nat} {z : State} {agent : Agent} {s : State} (hA : 0x5c00000007 &&& A = 0x5c00000007) (hk : Keeps A z s) :
    KeepsOut A z (execSessionKill agent s) := by
  unfold execSessionKill
  repeat' first
    | with_reducible assumption
    | with_reducible apply KeepsOut.fault
    | with_reducible apply KeepsOut.next
    | (extract_lets +onlyGivenNames y; refine KeepsOut.cut (y := y) ?_ (fun hy => ?_) <;> [(unfold y; clear y); (clear_value y; rename' y => w)])
    | ((with_reducible refine Part.sub hA ?_); rfl)
    | (extract_lets +onlyGivenNames y; refine Keeps.cut (y := y) ?_ (fun hy => ?_) <;> [(unfold y; clear y); (clear_value y; rename' y => w)])
    | (extract_lets +onlyGivenNames y; clear_value y; rename' y => w)
    | (extract_lets +onlyGivenNames y; rename' y => w)
    | with_reducible apply State.endSession_keeps
    | split
    | dsimp -zeta only

theorem execMpAdmin_keeps {A : Nat} {z : State} {agent : Agent} {m1 : Bool} {admin : Bool} {s : State} (hA : 0xcc3da6cb65 &&& A = 0xcc3da6cb65) (hk : Keeps A z s) :
    KeepsOut A z (execMpAdmin agent m1 admin s) := by
  unfold execMpAdmin
  repeat' first
    | with_reducible assumption
    | with_reducible apply KeepsOut.fault
    | with_reducible apply KeepsOut.next
    | (extract_lets +onlyGivenNames y; refine KeepsOut.cut (y := y) ?_ (fun hy => ?_) <;> [(unfold y; clear y); (clear_value y; rename' y => w)])
    | ((with_reducible refine Part.sub hA ?_); rfl)
    | (extract_lets +onlyGivenNames y; refine Keeps.cut (y := y) ?_ (fun hy => ?_) <;> [(unfold y; clear y); (clear_value y; rename' y => w)])
    | (extract_lets +onlyGivenNames y; clear_value y; rename' y => w)
    | (extract_lets +onlyGivenNames y; rename' y => w)
    | with_reducible apply State.adminOff_keeps
    | with_reducible apply State.adminOn_keeps
    | split
    | dsimp -zeta only

theorem State.mdpViolation_keeps {A : Nat} {z : State} {s : State} (hA : 0x1 &&& A = 0x1) (hk : Keeps A z s) :
    Keeps A z (State.mdpViolation s) := by
  unfold State.mdpViolation
  repeat' first
    | with_reducible assumption
    | ((with_reducible refine Part.sub hA ?_); rfl)
    | (extract_lets +onlyGivenNames y; refine Keeps.cut (y := y) ?_ (fun hy => ?_) <;> [(unfold y; clear y); (clear_value y; rename' y => w)])
    | (extract_lets +onlyGivenNames y; clear_value y; rename' y => w)
    | (extract_lets +onlyGivenNames y; rename' y => w)
    | with_reducible apply State.count_keeps
    | split
    | dsimp -zeta only

theorem State.mdpLog_keeps {A : Nat} {z : State} {s : State} {c : FaultClass} {i : Nat} {data : List Byte} (hA : 0x4000000000 &&& A = 0x4000000000) (hk : Keeps A z s) :
    Keeps A z (State.mdpLog s c i data) := by
  unfold State.mdpLog
  repeat' first
    | with_reducible assumption
    | ((with_reducible refine Part.sub hA ?_); rfl)
    | (extract_lets +onlyGivenNames y; refine Keeps.cut (y := y) ?_ (fun hy => ?_) <;> [(unfold y; clear y); (clear_value y; rename' y => w)])
    | (extract_lets +onlyGivenNames y; clear_value y; rename' y => w)
    | (extract_lets +onlyGivenNames y; rename' y => w)
    | with_reducible apply State.logRated_keeps
    | split
    | dsimp -zeta only

theorem State.accessFault_keeps {A : Nat} {z : State} {s : State} {g : Agent} {a : Nat} {store : Bool} (hA : 0x4000000001 &&& A = 0x4000000001) (hk : Keeps A z s) :
    Keeps A z (State.accessFault s g a store) := by
  unfold State.accessFault
  repeat' first
    | with_reducible assumption
    | ((with_reducible refine Part.sub hA ?_); rfl)
    | (extract_lets +onlyGivenNames y; refine Keeps.cut (y := y) ?_ (fun hy => ?_) <;> [(unfold y; clear y); (clear_value y; rename' y => w)])
    | (extract_lets +onlyGivenNames y; clear_value y; rename' y => w)
    | (extract_lets +onlyGivenNames y; rename' y => w)
    | with_reducible apply State.log_keeps
    | with_reducible apply State.mdpViolation_keeps
    | with_reducible apply State.mdpLog_keeps
    | split
    | dsimp -zeta only

end Sys2Proof.Machine
end

