-- ==== Sys2Proof/Laws/KeepRegWrite.lean ====
section
/-!
SUPPORT. Keeps for the operations of Machine/RegWrite.lean.
-/

namespace Sys2Proof.Machine

theorem State.storeReg_keeps {A : Nat} {z : State} {s : State} {l : Layout} {off a : Nat} {v : Word} (hA : 0x4800000001 &&& A = 0x4800000001) (hk : Keeps A z s) :
    Keeps A z (State.storeReg s l off a v) := by
  unfold State.storeReg
  repeat' first
    | with_reducible assumption
    | ((with_reducible refine Part.sub hA ?_); rfl)
    | (extract_lets +onlyGivenNames y; refine Keeps.cut (y := y) ?_ (fun hy => ?_) <;> [(unfold y; clear y); (clear_value y; rename' y => w)])
    | (extract_lets +onlyGivenNames y; clear_value y; rename' y => w)
    | (extract_lets +onlyGivenNames y; rename' y => w)
    | with_reducible apply State.setReg_keeps
    | with_reducible apply State.eventClear_keeps
    | with_reducible apply State.eventEnable_keeps
    | split
    | dsimp -zeta only

theorem State.storeLatch_keeps {A : Nat} {z : State} {s : State} {g : Agent} {l : Layout} {off a : Nat} {v : Word} (hA : 0x2 &&& A = 0x2) (hk : Keeps A z s) :
    Keeps A z (State.storeLatch s g l off a v) := by
  unfold State.storeLatch
  repeat' first
    | with_reducible assumption
    | ((with_reducible refine Part.sub hA ?_); rfl)
    | (extract_lets +onlyGivenNames y; refine Keeps.cut (y := y) ?_ (fun hy => ?_) <;> [(unfold y; clear y); (clear_value y; rename' y => w)])
    | (extract_lets +onlyGivenNames y; clear_value y; rename' y => w)
    | (extract_lets +onlyGivenNames y; rename' y => w)
    | with_reducible apply State.setLatch_keeps
    | split
    | dsimp -zeta only

theorem State.trigger_keeps {A : Nat} {z : State} {s : State} {on : Bool} {f : State → Out} (hk : Keeps A z s)
    (hf : ∀ y, Keeps A z y → KeepsOut A z (f y)) : Keeps A z (State.trigger s on f) := by
  unfold State.trigger
  split
  · exact doing_keeps hk (hf _ hk)
  · exact hk

theorem State.writeTime_keeps {A : Nat} {z : State} {s : State} {g : Agent} {l : Layout} {n off a : Nat} {v : Word} (hA : 0xdc3da0cb67 &&& A = 0xdc3da0cb67) (hk : Keeps A z s) {t : State}
    (e : State.writeTime s g l n off a v = some t) : Keeps A z t := by
  unfold State.writeTime at e
  dsimp only at e
  repeat' split at e
  all_goals cases e
  all_goals repeat' first
    | with_reducible assumption
    | ((with_reducible refine Part.sub hA ?_); rfl)
    | with_reducible apply State.trigger_keeps
    | with_reducible apply doing_keeps
    | with_reducible intro _
    | with_reducible apply execArmHiWrite_keeps
    | with_reducible apply execForceHold_keeps
    | with_reducible apply execStagedWrite_keeps
    | with_reducible apply execSuspectClr_keeps
    | with_reducible apply execTioFlush_keeps
    | with_reducible apply execTioRelease_keeps
    | with_reducible apply State.setReg_keeps
    | with_reducible apply State.setLatch_keeps
    | with_reducible apply State.storeReg_keeps
    | with_reducible apply State.setLatch_keeps
    | with_reducible apply State.setReg_keeps
    | split

theorem State.writeIm_keeps {A : Nat} {z : State} {s : State} {g : Agent} {off a : Nat} {v : Word} (hA : 0xfd3db6fb67 &&& A = 0xfd3db6fb67) (hk : Keeps A z s) {t : State}
    (e : State.writeIm s g off a v = some t) : Keeps A z t := by
  unfold State.writeIm at e
  dsimp only at e
  repeat' split at e
  all_goals cases e
  all_goals repeat' first
    | with_reducible assumption
    | ((with_reducible refine Part.sub hA ?_); rfl)
    | with_reducible apply State.trigger_keeps
    | with_reducible apply doing_keeps
    | with_reducible intro _
    | with_reducible apply execBootPrefer_keeps
    | with_reducible apply execBootWrite_keeps
    | with_reducible apply execCommitCancel_keeps
    | with_reducible apply execCommitIssue_keeps
    | with_reducible apply execFloorRaise_keeps
    | with_reducible apply execFwConfirm_keeps
    | with_reducible apply execFwRevert_keeps
    | with_reducible apply execSlotCheck_keeps
    | with_reducible apply execSlotCtrlClear_keeps
    | with_reducible apply State.setReg_keeps
    | with_reducible apply State.setLatch_keeps
    | with_reducible apply State.storeReg_keeps
    | with_reducible apply State.setLatch_keeps
    | split

theorem State.writePorts_keeps {A : Nat} {z : State} {s : State} {g : Agent} {l : Layout} {n off a : Nat} {v : Word} (hA : 0xcc3daecb65 &&& A = 0xcc3daecb65) (hk : Keeps A z s) {t : State}
    (e : State.writePorts s g l n off a v = some t) : Keeps A z t := by
  unfold State.writePorts at e
  dsimp only at e
  repeat' split at e
  all_goals cases e
  all_goals repeat' first
    | with_reducible assumption
    | ((with_reducible refine Part.sub hA ?_); rfl)
    | with_reducible apply State.trigger_keeps
    | with_reducible apply doing_keeps
    | with_reducible intro _
    | with_reducible apply execMpAdmin_keeps
    | with_reducible apply execOptCmd_keeps
    | with_reducible apply execOptResetBus_keeps
    | with_reducible apply execPortAdmin_keeps
    | with_reducible apply execRetryNow_keeps
    | with_reducible apply State.setReg_keeps
    | with_reducible apply State.setLatch_keeps
    | with_reducible apply State.storeReg_keeps
    | with_reducible apply State.storeReg_keeps
    | with_reducible apply State.writeLaneCtrl_keeps
    | split

theorem State.writeFlow_keeps {A : Nat} {z : State} {s : State} {g : Agent} {l : Layout} {n off a : Nat} {v : Word} (hA : 0x4800140027 &&& A = 0x4800140027) (hk : Keeps A z s) {t : State}
    (e : State.writeFlow s g l n off a v = some t) : Keeps A z t := by
  unfold State.writeFlow at e
  dsimp only at e
  repeat' split at e
  all_goals cases e
  all_goals repeat' first
    | with_reducible assumption
    | ((with_reducible refine Part.sub hA ?_); rfl)
    | with_reducible apply State.trigger_keeps
    | with_reducible apply doing_keeps
    | with_reducible intro _
    | with_reducible apply execFtAdd_keeps
    | with_reducible apply execFtLookup_keeps
    | with_reducible apply execFtRead_keeps
    | with_reducible apply execFtRemove_keeps
    | with_reducible apply execRingEnable_keeps
    | with_reducible apply State.setReg_keeps
    | with_reducible apply State.setLatch_keeps
    | with_reducible apply State.storeReg_keeps
    | with_reducible apply State.setReg_keeps
    | split

theorem State.writeCoding_keeps {A : Nat} {z : State} {s : State} {g : Agent} {l : Layout} {n off : Nat} {v : Word} (hA : 0x48f304c065 &&& A = 0x48f304c065) (hk : Keeps A z s) {t : State}
    (e : State.writeCoding s g l n off v = some t) : Keeps A z t := by
  unfold State.writeCoding at e
  dsimp only at e
  repeat' split at e
  all_goals cases e
  all_goals repeat' first
    | with_reducible assumption
    | ((with_reducible refine Part.sub hA ?_); rfl)
    | with_reducible apply State.trigger_keeps
    | with_reducible apply doing_keeps
    | with_reducible intro _
    | with_reducible apply execCoderRetest_keeps
    | with_reducible apply execCoderRetire_keeps
    | with_reducible apply execHeadRetest_keeps
    | with_reducible apply execPairSwitch_keeps
    | with_reducible apply execReaderRetest_keeps
    | with_reducible apply execRindMove_keeps
    | with_reducible apply execScalerRetest_keeps
    | with_reducible apply State.setReg_keeps
    | with_reducible apply State.setLatch_keeps
    | with_reducible apply State.storeReg_keeps
    | with_reducible apply State.writeLine_keeps
    | split

theorem State.writeStores_keeps {A : Nat} {z : State} {s : State} {g : Agent} {l : Layout} {off a : Nat} {v : Word} (hA : 0x4f3db6f075 &&& A = 0x4f3db6f075) (hk : Keeps A z s) {t : State}
    (e : State.writeStores s g l off a v = some t) : Keeps A z t := by
  unfold State.writeStores at e
  dsimp only at e
  repeat' split at e
  all_goals cases e
  all_goals repeat' first
    | with_reducible assumption
    | ((with_reducible refine Part.sub hA ?_); rfl)
    | with_reducible apply State.trigger_keeps
    | with_reducible apply doing_keeps
    | with_reducible intro _
    | with_reducible apply execExportClose_keeps
    | with_reducible apply execExportOpen_keeps
    | with_reducible apply execMemRetire_keeps
    | with_reducible apply execSealNow_keeps
    | with_reducible apply execTrainNow_keeps
    | with_reducible apply execVerify_keeps
    | with_reducible apply State.setReg_keeps
    | with_reducible apply State.setLatch_keeps
    | with_reducible apply State.storeReg_keeps
    | with_reducible apply State.storeReg_keeps
    | split

theorem State.writeRtPeriod_keeps {A : Nat} {z : State} {s : State} {g : Agent} {n a : Nat} {v : Word} (hA : 0x4000000001 &&& A = 0x4000000001) (hk : Keeps A z s) :
    Keeps A z (State.writeRtPeriod s g n a v) := by
  unfold State.writeRtPeriod
  repeat' first
    | with_reducible assumption
    | ((with_reducible refine Part.sub hA ?_); rfl)
    | (extract_lets +onlyGivenNames y; refine Keeps.cut (y := y) ?_ (fun hy => ?_) <;> [(unfold y; clear y); (clear_value y; rename' y => w)])
    | (extract_lets +onlyGivenNames y; clear_value y; rename' y => w)
    | (extract_lets +onlyGivenNames y; rename' y => w)
    | with_reducible apply State.setReg_keeps
    | with_reducible apply State.hubDenied_keeps
    | split
    | dsimp -zeta only

theorem State.writeCores_keeps {A : Nat} {z : State} {s : State} {g : Agent} {l : Layout} {n off a : Nat} {v : Word} (hA : 0x4800001001 &&& A = 0x4800001001) (hk : Keeps A z s) {t : State}
    (e : State.writeCores s g l n off a v = some t) : Keeps A z t := by
  unfold State.writeCores at e
  dsimp only at e
  repeat' split at e
  all_goals cases e
  all_goals repeat' first
    | with_reducible assumption
    | ((with_reducible refine Part.sub hA ?_); rfl)
    | with_reducible apply State.trigger_keeps
    | with_reducible apply doing_keeps
    | with_reducible intro _
    | with_reducible apply execChkData_keeps
    | with_reducible apply execChkEnd_keeps
    | with_reducible apply execChkStart_keeps
    | with_reducible apply execCoreAlive_keeps
    | with_reducible apply execCorePark_keeps
    | with_reducible apply execCoreResume_keeps
    | with_reducible apply execIrqComplete_keeps
    | with_reducible apply execRtArm_keeps
    | with_reducible apply execRtDisarm_keeps
    | with_reducible apply execSrcCfgWrite_keeps
    | with_reducible apply execSrcCntSatClear_keeps
    | with_reducible apply execSwiSet_keeps
    | with_reducible apply execThresholdWrite_keeps
    | with_reducible apply execWdtKick_keeps
    | with_reducible apply State.setReg_keeps
    | with_reducible apply State.setLatch_keeps
    | with_reducible apply State.storeReg_keeps
    | with_reducible apply State.writeRtPeriod_keeps
    | split

theorem State.writeSystem_keeps {A : Nat} {z : State} {s : State} {g : Agent} {l : Layout} {off : Nat} {v : Word} (hA : 0xfd3db6e867 &&& A = 0xfd3db6e867) (hk : Keeps A z s) {t : State}
    (e : State.writeSystem s g l off v = some t) : Keeps A z t := by
  unfold State.writeSystem at e
  dsimp only at e
  repeat' split at e
  all_goals cases e
  all_goals repeat' first
    | with_reducible assumption
    | ((with_reducible refine Part.sub hA ?_); rfl)
    | with_reducible apply State.trigger_keeps
    | with_reducible apply doing_keeps
    | with_reducible intro _
    | with_reducible apply execHostReset_keeps
    | with_reducible apply execPowerReqKeep_keeps
    | with_reducible apply execPowerReqOff_keeps
    | with_reducible apply execPowerReqRun_keeps
    | with_reducible apply execPowerReqTrim_keeps
    | with_reducible apply execRelCtrlAll_keeps
    | with_reducible apply execRelCtrlOne_keeps
    | with_reducible apply execSafeEnter_keeps
    | with_reducible apply execSafeRelease_keeps
    | with_reducible apply execSessionKill_keeps
    | with_reducible apply State.setReg_keeps
    | with_reducible apply State.setLatch_keeps
    | with_reducible apply State.storeReg_keeps
    | split

theorem State.writeActs_keeps {A : Nat} {z : State} {s : State} {g : Agent} {l : Layout} {n off a : Nat} {v : Word} (hA : 0xffffbefb77 &&& A = 0xffffbefb77) (hk : Keeps A z s)
    {t : State} (e : State.writeActs s g l n off a v = some t) : Keeps A z t := by
  unfold State.writeActs at e
  split at e
  all_goals first
    | exact State.writeTime_keeps (Part.sub hA rfl) hk e
    | exact State.writeIm_keeps (Part.sub hA rfl) hk e
    | exact State.writePorts_keeps (Part.sub hA rfl) hk e
    | exact State.writeFlow_keeps (Part.sub hA rfl) hk e
    | exact State.writeCoding_keeps (Part.sub hA rfl) hk e
    | exact State.writeStores_keeps (Part.sub hA rfl) hk e
    | exact State.writeCores_keeps (Part.sub hA rfl) hk e
    | exact State.writeSystem_keeps (Part.sub hA rfl) hk e
    | cases e

theorem State.writeReg_keeps {A : Nat} {z : State} {s : State} {g : Agent} {a : Nat} {v : Word} (hA : 0xffffbefb77 &&& A = 0xffffbefb77) (hk : Keeps A z s) :
    Keeps A z (State.writeReg s g a v) := by
  unfold State.writeReg
  repeat' first
    | with_reducible assumption
    | ((with_reducible refine Part.sub hA ?_); rfl)
    | (extract_lets +onlyGivenNames y; refine Keeps.cut (y := y) ?_ (fun hy => ?_) <;> [(unfold y; clear y); (clear_value y; rename' y => w)])
    | (extract_lets +onlyGivenNames y; clear_value y; rename' y => w)
    | (extract_lets +onlyGivenNames y; rename' y => w)
    | with_reducible apply State.storeReg_keeps
    | with_reducible apply State.storeLatch_keeps
    | (refine State.writeActs_keeps (Part.sub hA rfl) ?_ (by assumption))
    | split
    | dsimp -zeta only

theorem execRegisterWrite_keeps {A : Nat} {z : State} {agent : Agent} {addr : Nat} {value : Word} {s : State} (hA : 0xffffbefb77 &&& A = 0xffffbefb77) (hk : Keeps A z s) :
    KeepsOut A z (execRegisterWrite agent addr value s) := by
  unfold execRegisterWrite
  repeat' first
    | with_reducible assumption
    | with_reducible apply KeepsOut.fault
    | with_reducible apply KeepsOut.next
    | (extract_lets +onlyGivenNames y; refine KeepsOut.cut (y := y) ?_ (fun hy => ?_) <;> [(unfold y; clear y); (clear_value y; rename' y => w)])
    | ((with_reducible refine Part.sub hA ?_); rfl)
    | (extract_lets +onlyGivenNames y; refine Keeps.cut (y := y) ?_ (fun hy => ?_) <;> [(unfold y; clear y); (clear_value y; rename' y => w)])
    | (extract_lets +onlyGivenNames y; clear_value y; rename' y => w)
    | (extract_lets +onlyGivenNames y; rename' y => w)
    | with_reducible apply State.accessFault_keeps
    | with_reducible apply State.writeReg_keeps
    | split
    | dsimp -zeta only

end Sys2Proof.Machine
end

