-- ==== Sys2Proof/Laws/KeepMdpOps.lean ====
section
/-!
SUPPORT. Keeps for the operations of Machine/MdpOps.lean.
-/

namespace Sys2Proof.Machine

theorem State.opRefused_keeps {A : Nat} {z : State} {s : State} {i : Nat} {c : FaultClass} {data : List Byte} (hA : 0x4000000001 &&& A = 0x4000000001) (hk : Keeps A z s) :
    Keeps A z (State.opRefused s i c data).state := by
  unfold State.opRefused
  repeat' first
    | with_reducible assumption
    | ((with_reducible refine Part.sub hA ?_); rfl)
    | (extract_lets +onlyGivenNames y; refine Keeps.cut (y := y) ?_ (fun hy => ?_) <;> [(unfold y; clear y); (clear_value y; rename' y => w)])
    | (extract_lets +onlyGivenNames y; clear_value y; rename' y => w)
    | (extract_lets +onlyGivenNames y; rename' y => w)
    | with_reducible apply State.mdpViolation_keeps
    | with_reducible apply State.mdpLog_keeps
    | split
    | dsimp -zeta only

theorem State.opLength_keeps {A : Nat} {z : State} {s : State} {i op oplen : Nat} (hA : 0x4000000001 &&& A = 0x4000000001) (hk : Keeps A z s) :
    Keeps A z (State.opLength s i op oplen).state := by
  unfold State.opLength
  repeat' first
    | with_reducible assumption
    | ((with_reducible refine Part.sub hA ?_); rfl)
    | (extract_lets +onlyGivenNames y; refine Keeps.cut (y := y) ?_ (fun hy => ?_) <;> [(unfold y; clear y); (clear_value y; rename' y => w)])
    | (extract_lets +onlyGivenNames y; clear_value y; rename' y => w)
    | (extract_lets +onlyGivenNames y; rename' y => w)
    | with_reducible apply State.opRefused_keeps
    | split
    | dsimp -zeta only

theorem State.opRights_keeps {A : Nat} {z : State} {s : State} {i op addr : Nat} (hA : 0x4000000001 &&& A = 0x4000000001) (hk : Keeps A z s) :
    Keeps A z (State.opRights s i op addr).state := by
  unfold State.opRights
  repeat' first
    | with_reducible assumption
    | ((with_reducible refine Part.sub hA ?_); rfl)
    | (extract_lets +onlyGivenNames y; refine Keeps.cut (y := y) ?_ (fun hy => ?_) <;> [(unfold y; clear y); (clear_value y; rename' y => w)])
    | (extract_lets +onlyGivenNames y; clear_value y; rename' y => w)
    | (extract_lets +onlyGivenNames y; rename' y => w)
    | with_reducible apply State.opRefused_keeps
    | split
    | dsimp -zeta only

theorem State.opAddress_keeps {A : Nat} {z : State} {s : State} {i addr : Nat} (hA : 0x4000000001 &&& A = 0x4000000001) (hk : Keeps A z s) :
    Keeps A z (State.opAddress s i addr).state := by
  unfold State.opAddress
  repeat' first
    | with_reducible assumption
    | ((with_reducible refine Part.sub hA ?_); rfl)
    | (extract_lets +onlyGivenNames y; refine Keeps.cut (y := y) ?_ (fun hy => ?_) <;> [(unfold y; clear y); (clear_value y; rename' y => w)])
    | (extract_lets +onlyGivenNames y; clear_value y; rename' y => w)
    | (extract_lets +onlyGivenNames y; rename' y => w)
    | with_reducible apply State.opRefused_keeps
    | split
    | dsimp -zeta only

theorem State.opBlock_keeps {A : Nat} {z : State} {s : State} {i space offset : Nat} (hA : 0x4000000001 &&& A = 0x4000000001) (hk : Keeps A z s) :
    Keeps A z (State.opBlock s i space offset).state := by
  unfold State.opBlock
  repeat' first
    | with_reducible assumption
    | ((with_reducible refine Part.sub hA ?_); rfl)
    | (extract_lets +onlyGivenNames y; refine Keeps.cut (y := y) ?_ (fun hy => ?_) <;> [(unfold y; clear y); (clear_value y; rename' y => w)])
    | (extract_lets +onlyGivenNames y; clear_value y; rename' y => w)
    | (extract_lets +onlyGivenNames y; rename' y => w)
    | with_reducible apply State.opRefused_keeps
    | split
    | dsimp -zeta only

theorem State.doRead_keeps {A : Nat} {z : State} {s : State} {i : Nat} {r : Route} {addr count : Nat} (hA : 0x4b21820813 &&& A = 0x4b21820813) (hk : Keeps A z s) :
    Keeps A z (State.doRead s i r addr count).state := by
  unfold State.doRead
  split
  · exact State.opLength_keeps (Part.sub hA rfl) hk
  split
  · exact State.opRights_keeps (Part.sub hA rfl) hk
  split
  · exact State.opAddress_keeps (Part.sub hA rfl) hk
  · exact Keeps.foldl_fst (fun y b hy => State.readReg_keeps (Part.sub hA rfl) hy) hk

theorem State.writeCheck_keeps {A : Nat} {z : State} {s : State} {i op : Nat} {w : List (Nat × Word)} (hA : 0x4000000001 &&& A = 0x4000000001) (hk : Keeps A z s) {r : OpResult}
    (e : State.writeCheck s i op w = some r) : Keeps A z r.state := by
  unfold State.writeCheck at e
  repeat' split at e
  all_goals cases e
  · exact State.opAddress_keeps (Part.sub hA rfl) hk
  · exact State.opRights_keeps (Part.sub hA rfl) hk
  · exact State.log_keeps (Part.sub hA rfl) hk

theorem State.doWrite_keeps {A : Nat} {z : State} {s : State} {i : Nat} {addr : Nat} {values : List Word} (hA : 0xffffbefb77 &&& A = 0xffffbefb77) (hk : Keeps A z s) :
    Keeps A z (State.doWrite s i addr values).state := by
  unfold State.doWrite
  extract_lets n writes
  split
  · exact State.opLength_keeps (Part.sub hA rfl) hk
  split
  · exact State.opRights_keeps (Part.sub hA rfl) hk
  split
  case h_1 r e => exact State.writeCheck_keeps (Part.sub hA rfl) hk e
  · exact Keeps.foldl (fun y b hy => State.writeReg_keeps (Part.sub hA rfl) hy) hk

theorem State.doModify_keeps {A : Nat} {z : State} {s : State} {i : Nat} {addr : Nat} {mask value : Word} (hA : 0xffffbefb77 &&& A = 0xffffbefb77) (hk : Keeps A z s) :
    Keeps A z (State.doModify s i addr mask value).state := by
  unfold State.doModify
  split
  · exact State.opRights_keeps (Part.sub hA rfl) hk
  split
  · exact State.opAddress_keeps (Part.sub hA rfl) hk
  extract_lets x v
  split
  case h_1 r e => exact State.writeCheck_keeps (Part.sub hA rfl) hk e
  · exact State.writeReg_keeps (Part.sub hA rfl) (State.readReg_keeps (Part.sub hA rfl) hk)

theorem State.doBlockRead_keeps {A : Nat} {z : State} {s : State} {i : Nat} {r : Route} {space offset length : Nat} (hA : 0x4400000041 &&& A = 0x4400000041) (hk : Keeps A z s) :
    Keeps A z (State.doBlockRead s i r space offset length).state := by
  unfold State.doBlockRead
  extract_lets right last bad
  have hb : Keeps A z bad.state := State.opBlock_keeps (Part.sub hA rfl) hk
  clear_value right last bad
  split
  · exact State.opLength_keeps (Part.sub hA rfl) hk
  split
  · exact State.opRights_keeps (Part.sub hA rfl) hk
  split
  case h_3 =>
    split
    · exact hb
    split
    case h_1 e => exact Keeps.of_fst (State.exportRead_keeps (Part.sub hA rfl) hk) e
    · exact hb
  all_goals first
    | exact hb
    | (split
       · exact hk
       · exact hb)

theorem State.doBlockWrite_keeps {A : Nat} {z : State} {s : State} {i : Nat} {space offset : Nat} {data : List Byte} (hA : 0x4000001001 &&& A = 0x4000001001) (hk : Keeps A z s) :
    Keeps A z (State.doBlockWrite s i space offset data).state := by
  unfold State.doBlockWrite
  extract_lets n bad x
  have hb : Keeps A z bad.state := State.opBlock_keeps (Part.sub hA rfl) hk
  clear_value n bad x
  split
  · exact State.opLength_keeps (Part.sub hA rfl) hk
  split
  · exact State.opRights_keeps (Part.sub hA rfl) hk
  split
  · exact hb
  split
  · exact hb
  split
  · exact State.slotBusy_keeps (Part.sub hA rfl) hk
  split
  · dsimp only
    exact State.modImgSlot_keeps (Part.sub hA rfl) hk
  split
  · dsimp only
    exact State.modImgSlot_keeps (Part.sub hA rfl) hk
  · exact hb

theorem State.doSubscribe_keeps {A : Nat} {z : State} {s : State} {i minSev flags first : Nat} (hA : 0x5000000001 &&& A = 0x5000000001) (hk : Keeps A z s) :
    Keeps A z (State.doSubscribe s i minSev flags first).state := by
  unfold State.doSubscribe
  repeat' first
    | with_reducible assumption
    | ((with_reducible refine Part.sub hA ?_); rfl)
    | (extract_lets +onlyGivenNames y; refine Keeps.cut (y := y) ?_ (fun hy => ?_) <;> [(unfold y; clear y); (clear_value y; rename' y => w)])
    | (extract_lets +onlyGivenNames y; clear_value y; rename' y => w)
    | (extract_lets +onlyGivenNames y; rename' y => w)
    | with_reducible apply State.modSession_keeps
    | with_reducible apply State.opLength_keeps
    | with_reducible apply State.opRights_keeps
    | split
    | dsimp -zeta only

theorem State.doUnsubscribe_keeps {A : Nat} {z : State} {s : State} {i : Nat} (hA : 0x5000000001 &&& A = 0x5000000001) (hk : Keeps A z s) :
    Keeps A z (State.doUnsubscribe s i).state := by
  unfold State.doUnsubscribe
  repeat' first
    | with_reducible assumption
    | ((with_reducible refine Part.sub hA ?_); rfl)
    | (extract_lets +onlyGivenNames y; refine Keeps.cut (y := y) ?_ (fun hy => ?_) <;> [(unfold y; clear y); (clear_value y; rename' y => w)])
    | (extract_lets +onlyGivenNames y; clear_value y; rename' y => w)
    | (extract_lets +onlyGivenNames y; rename' y => w)
    | with_reducible apply State.modSession_keeps
    | with_reducible apply State.opRights_keeps
    | split
    | dsimp -zeta only

theorem State.doNop_keeps {A : Nat} {z : State} {s : State} (hk : Keeps A z s) :
    Keeps A z (State.doNop s).state := by
  unfold State.doNop
  repeat' first
    | with_reducible assumption
    | ((with_reducible refine Part.sub hA ?_); rfl)
    | (extract_lets +onlyGivenNames y; refine Keeps.cut (y := y) ?_ (fun hy => ?_) <;> [(unfold y; clear y); (clear_value y; rename' y => w)])
    | (extract_lets +onlyGivenNames y; clear_value y; rename' y => w)
    | (extract_lets +onlyGivenNames y; rename' y => w)
    | split
    | dsimp -zeta only

theorem State.doAttest_keeps {A : Nat} {z : State} {s : State} {i : Nat} {r : Route} {nonce : List Byte} (hA : 0x4000000001 &&& A = 0x4000000001) (hk : Keeps A z s) :
    Keeps A z (State.doAttest s i r nonce).state := by
  unfold State.doAttest
  repeat' first
    | with_reducible assumption
    | ((with_reducible refine Part.sub hA ?_); rfl)
    | (extract_lets +onlyGivenNames y; refine Keeps.cut (y := y) ?_ (fun hy => ?_) <;> [(unfold y; clear y); (clear_value y; rename' y => w)])
    | (extract_lets +onlyGivenNames y; clear_value y; rename' y => w)
    | (extract_lets +onlyGivenNames y; rename' y => w)
    | with_reducible apply State.log_keeps
    | with_reducible apply State.opLength_keeps
    | split
    | dsimp -zeta only

theorem State.ownRefused_keeps {A : Nat} {z : State} {s : State} {op reason : Nat} (hA : 0x4000000000 &&& A = 0x4000000000) (hk : Keeps A z s) :
    Keeps A z (State.ownRefused s op reason).state := by
  unfold State.ownRefused
  repeat' first
    | with_reducible assumption
    | ((with_reducible refine Part.sub hA ?_); rfl)
    | (extract_lets +onlyGivenNames y; refine Keeps.cut (y := y) ?_ (fun hy => ?_) <;> [(unfold y; clear y); (clear_value y; rename' y => w)])
    | (extract_lets +onlyGivenNames y; clear_value y; rename' y => w)
    | (extract_lets +onlyGivenNames y; rename' y => w)
    | with_reducible apply State.log_keeps
    | split
    | dsimp -zeta only

theorem State.ownEvent_keeps {A : Nat} {z : State} {s : State} (hA : 0x4800000005 &&& A = 0x4800000005) (hk : Keeps A z s) :
    Keeps A z (State.ownEvent s) := by
  unfold State.ownEvent
  repeat' first
    | with_reducible assumption
    | ((with_reducible refine Part.sub hA ?_); rfl)
    | (extract_lets +onlyGivenNames y; refine Keeps.cut (y := y) ?_ (fun hy => ?_) <;> [(unfold y; clear y); (clear_value y; rename' y => w)])
    | (extract_lets +onlyGivenNames y; clear_value y; rename' y => w)
    | (extract_lets +onlyGivenNames y; rename' y => w)
    | with_reducible apply State.event_keeps
    | split
    | dsimp -zeta only

theorem State.doEnrol_keeps {A : Nat} {z : State} {s : State} {i : Nat} {p : List Byte} (hA : 0x5800001005 &&& A = 0x5800001005) (hk : Keeps A z s) :
    Keeps A z (State.doEnrol s i p).state := by
  unfold State.doEnrol
  repeat' first
    | with_reducible assumption
    | ((with_reducible refine Part.sub hA ?_); rfl)
    | (extract_lets +onlyGivenNames y; refine Keeps.cut (y := y) ?_ (fun hy => ?_) <;> [(unfold y; clear y); (clear_value y; rename' y => w)])
    | (extract_lets +onlyGivenNames y; clear_value y; rename' y => w)
    | (extract_lets +onlyGivenNames y; rename' y => w)
    | with_reducible apply State.setSlot_keeps
    | with_reducible apply State.modIm_keeps
    | with_reducible apply State.log_keeps
    | with_reducible apply State.opLength_keeps
    | with_reducible apply State.opRights_keeps
    | with_reducible apply State.ownRefused_keeps
    | with_reducible apply State.ownEvent_keeps
    | split
    | dsimp -zeta only

theorem State.slotChange_keeps {A : Nat} {z : State} {s : State} {n : Nat} {o : OwnerSlot} (hA : 0x5800000005 &&& A = 0x5800000005) (hk : Keeps A z s) :
    Keeps A z (State.slotChange s n o).state := by
  unfold State.slotChange
  repeat' first
    | with_reducible assumption
    | ((with_reducible refine Part.sub hA ?_); rfl)
    | (extract_lets +onlyGivenNames y; refine Keeps.cut (y := y) ?_ (fun hy => ?_) <;> [(unfold y; clear y); (clear_value y; rename' y => w)])
    | (extract_lets +onlyGivenNames y; clear_value y; rename' y => w)
    | (extract_lets +onlyGivenNames y; rename' y => w)
    | with_reducible apply State.setSlot_keeps
    | with_reducible apply State.log_keeps
    | with_reducible apply State.ownEvent_keeps
    | split
    | dsimp -zeta only

theorem State.doSlotWrite_keeps {A : Nat} {z : State} {s : State} {i : Nat} {p : List Byte} (hA : 0x5800000005 &&& A = 0x5800000005) (hk : Keeps A z s) :
    Keeps A z (State.doSlotWrite s i p).state := by
  unfold State.doSlotWrite
  repeat' first
    | with_reducible assumption
    | ((with_reducible refine Part.sub hA ?_); rfl)
    | (extract_lets +onlyGivenNames y; refine Keeps.cut (y := y) ?_ (fun hy => ?_) <;> [(unfold y; clear y); (clear_value y; rename' y => w)])
    | (extract_lets +onlyGivenNames y; clear_value y; rename' y => w)
    | (extract_lets +onlyGivenNames y; rename' y => w)
    | with_reducible apply State.opLength_keeps
    | with_reducible apply State.opRights_keeps
    | with_reducible apply State.ownRefused_keeps
    | with_reducible apply State.slotChange_keeps
    | split
    | dsimp -zeta only

theorem State.doSlotClear_keeps {A : Nat} {z : State} {s : State} {i n : Nat} (hA : 0x5800000005 &&& A = 0x5800000005) (hk : Keeps A z s) :
    Keeps A z (State.doSlotClear s i n).state := by
  unfold State.doSlotClear
  repeat' first
    | with_reducible assumption
    | ((with_reducible refine Part.sub hA ?_); rfl)
    | (extract_lets +onlyGivenNames y; refine Keeps.cut (y := y) ?_ (fun hy => ?_) <;> [(unfold y; clear y); (clear_value y; rename' y => w)])
    | (extract_lets +onlyGivenNames y; clear_value y; rename' y => w)
    | (extract_lets +onlyGivenNames y; rename' y => w)
    | with_reducible apply State.opRights_keeps
    | with_reducible apply State.ownRefused_keeps
    | with_reducible apply State.slotChange_keeps
    | split
    | dsimp -zeta only

theorem State.doDisown_keeps {A : Nat} {z : State} {s : State} {i : Nat} {confirm : BitVec 64} (hA : 0x5800001005 &&& A = 0x5800001005) (hk : Keeps A z s) :
    Keeps A z (State.doDisown s i confirm).state := by
  unfold State.doDisown
  repeat' first
    | with_reducible assumption
    | ((with_reducible refine Part.sub hA ?_); rfl)
    | (extract_lets +onlyGivenNames y; refine Keeps.cut (y := y) ?_ (fun hy => ?_) <;> [(unfold y; clear y); (clear_value y; rename' y => w)])
    | (extract_lets +onlyGivenNames y; clear_value y; rename' y => w)
    | (extract_lets +onlyGivenNames y; rename' y => w)
    | with_reducible apply State.setSlot_keeps
    | with_reducible apply State.modIm_keeps
    | with_reducible apply State.log_keeps
    | with_reducible apply State.modImgSlot_keeps
    | with_reducible apply State.modBankState_keeps
    | with_reducible apply State.opRights_keeps
    | with_reducible apply State.ownRefused_keeps
    | with_reducible apply State.ownEvent_keeps
    | (with_reducible apply Keeps.foldl; intro y b hy)
    | (with_reducible apply Keeps.foldl_fst; intro y b hy)
    | split
    | dsimp -zeta only

theorem State.closeCheck_keeps {A : Nat} {z : State} {s : State} {i : Nat} (hA : 0x5c00000027 &&& A = 0x5c00000027) (hk : Keeps A z s) :
    Keeps A z (State.closeCheck s i) := by
  unfold State.closeCheck
  repeat' first
    | with_reducible assumption
    | ((with_reducible refine Part.sub hA ?_); rfl)
    | (extract_lets +onlyGivenNames y; refine Keeps.cut (y := y) ?_ (fun hy => ?_) <;> [(unfold y; clear y); (clear_value y; rename' y => w)])
    | (extract_lets +onlyGivenNames y; clear_value y; rename' y => w)
    | (extract_lets +onlyGivenNames y; rename' y => w)
    | with_reducible apply State.endSession_keeps
    | with_reducible apply State.mdpSend_keeps
    | split
    | dsimp -zeta only

theorem State.finishOp_keeps {A : Nat} {z : State} {i op : Nat} {route : Route} {r : OpResult} (hA : 0x5c00000027 &&& A = 0x5c00000027) (hk : Keeps A z r.state) :
    Keeps A z (State.finishOp i op route r) := by
  unfold State.finishOp
  repeat' first
    | with_reducible assumption
    | ((with_reducible refine Part.sub hA ?_); rfl)
    | (extract_lets +onlyGivenNames y; refine Keeps.cut (y := y) ?_ (fun hy => ?_) <;> [(unfold y; clear y); (clear_value y; rename' y => w)])
    | (extract_lets +onlyGivenNames y; clear_value y; rename' y => w)
    | (extract_lets +onlyGivenNames y; rename' y => w)
    | with_reducible apply State.modSession_keeps
    | with_reducible apply State.endSession_keeps
    | with_reducible apply State.mdpSend_keeps
    | with_reducible apply State.closeCheck_keeps
    | (with_reducible apply Keeps.foldl; intro y b hy)
    | (with_reducible apply Keeps.foldl_fst; intro y b hy)
    | split
    | dsimp -zeta only

theorem State.runOp_keeps {A : Nat} {z : State} {s : State} {i : Nat} {r : Route} {op : Nat} {p : List Byte} (hA : 0xffffbefb77 &&& A = 0xffffbefb77) (hk : Keeps A z s) :
    Keeps A z (State.runOp s i r op p).state := by
  unfold State.runOp
  dsimp only
  repeat' first
    | with_reducible assumption
    | ((with_reducible refine Part.sub hA ?_); rfl)
    | (extract_lets +onlyGivenNames y; refine Keeps.cut (y := y) ?_ (fun hy => ?_) <;> [(unfold y; clear y); (clear_value y; rename' y => w)])
    | (extract_lets +onlyGivenNames y; clear_value y; rename' y => w)
    | (extract_lets +onlyGivenNames y; rename' y => w)
    | with_reducible apply State.opRefused_keeps
    | with_reducible apply State.opLength_keeps
    | with_reducible apply State.doRead_keeps
    | with_reducible apply State.doWrite_keeps
    | with_reducible apply State.doModify_keeps
    | with_reducible apply State.doBlockRead_keeps
    | with_reducible apply State.doBlockWrite_keeps
    | with_reducible apply State.doSubscribe_keeps
    | with_reducible apply State.doUnsubscribe_keeps
    | with_reducible apply State.doNop_keeps
    | with_reducible apply State.doAttest_keeps
    | with_reducible apply State.doEnrol_keeps
    | with_reducible apply State.doSlotWrite_keeps
    | with_reducible apply State.doSlotClear_keeps
    | with_reducible apply State.doDisown_keeps
    | split
    | dsimp -zeta only

theorem State.runBody_keeps {A : Nat} {z : State} {s : State} {i : Nat} {h : HeldRequest} (hA : 0xffffbefb77 &&& A = 0xffffbefb77) (hk : Keeps A z s) :
    Keeps A z (State.runBody s i h) := by
  unfold State.runBody
  repeat' first
    | with_reducible assumption
    | ((with_reducible refine Part.sub hA ?_); rfl)
    | (extract_lets +onlyGivenNames y; refine Keeps.cut (y := y) ?_ (fun hy => ?_) <;> [(unfold y; clear y); (clear_value y; rename' y => w)])
    | (extract_lets +onlyGivenNames y; refine Keeps.cut (y := y.1) ?_ (fun hy => ?_) <;> [(unfold y; clear y); (clear_value y; rename' y => w)])
    | (extract_lets +onlyGivenNames y; clear_value y; rename' y => w)
    | (extract_lets +onlyGivenNames y; rename' y => w)
    | with_reducible apply State.opLength_keeps
    | with_reducible apply State.finishOp_keeps
    | with_reducible apply State.runOp_keeps
    | split
    | dsimp -zeta only

theorem State.runHeld_keeps {A : Nat} {z : State} {i : Nat} {n : Nat} {s : State} (hA : 0xffffbefb77 &&& A = 0xffffbefb77) (hk : Keeps A z s) : Keeps A z (State.runHeld i n s) := by
  induction n generalizing s with
  | zero => exact hk
  | succ n ih =>
    unfold State.runHeld
    repeat' first
      | with_reducible assumption
      | with_reducible apply ih
      | ((with_reducible refine Part.sub hA ?_); rfl)
      | (extract_lets +onlyGivenNames y; refine Keeps.cut (y := y) ?_ (fun hy => ?_) <;> [(unfold y; clear y); (clear_value y; rename' y => w)])
      | (extract_lets +onlyGivenNames y; clear_value y; rename' y => w)
      | (extract_lets +onlyGivenNames y; rename' y => w)
      | with_reducible apply State.runBody_keeps
      | split
      | dsimp -zeta only

theorem State.opCommand_keeps {A : Nat} {z : State} {s : State} {i op : Nat} {f : State → Route → OpResult} (hA : 0xffffbefb77 &&& A = 0xffffbefb77) (hk : Keeps A z s) (hf : ∀ y a, Keeps A z y → Keeps A z (f y a).state) :
    Keeps A z (State.opCommand s i op f) := by
  unfold State.opCommand
  repeat' first
    | with_reducible assumption
    | ((with_reducible refine Part.sub hA ?_); rfl)
    | (extract_lets +onlyGivenNames y; refine Keeps.cut (y := y) ?_ (fun hy => ?_) <;> [(unfold y; clear y); (clear_value y; rename' y => w)])
    | (extract_lets +onlyGivenNames y; refine Keeps.cut (y := y.1) ?_ (fun hy => ?_) <;> [(unfold y; clear y); (clear_value y; rename' y => w)])
    | (extract_lets +onlyGivenNames y; clear_value y; rename' y => w)
    | (extract_lets +onlyGivenNames y; rename' y => w)
    | with_reducible apply State.finishOp_keeps
    | with_reducible apply State.runHeld_keeps
    | with_reducible apply hf
    | split
    | dsimp -zeta only

theorem execRead_keeps {A : Nat} {z : State} {session : Fin 8} {addr count : Nat} {s : State} (hA : 0xffffbefb77 &&& A = 0xffffbefb77) (hk : Keeps A z s) :
    KeepsOut A z (execRead session addr count s) := by
  unfold execRead
  repeat' first
    | with_reducible assumption
    | with_reducible apply KeepsOut.fault
    | with_reducible apply KeepsOut.next
    | (extract_lets +onlyGivenNames y; refine KeepsOut.cut (y := y) ?_ (fun hy => ?_) <;> [(unfold y; clear y); (clear_value y; rename' y => w)])
    | ((with_reducible refine Part.sub hA ?_); rfl)
    | (extract_lets +onlyGivenNames y; refine Keeps.cut (y := y) ?_ (fun hy => ?_) <;> [(unfold y; clear y); (clear_value y; rename' y => w)])
    | (extract_lets +onlyGivenNames y; clear_value y; rename' y => w)
    | (extract_lets +onlyGivenNames y; rename' y => w)
    | with_reducible apply State.doRead_keeps
    | with_reducible apply State.opCommand_keeps
    | with_reducible intro _
    | split
    | dsimp -zeta only

theorem execWrite_keeps {A : Nat} {z : State} {session : Fin 8} {addr : Nat} {values : List Word} {s : State} (hA : 0xffffbefb77 &&& A = 0xffffbefb77) (hk : Keeps A z s) :
    KeepsOut A z (execWrite session addr values s) := by
  unfold execWrite
  repeat' first
    | with_reducible assumption
    | with_reducible apply KeepsOut.fault
    | with_reducible apply KeepsOut.next
    | (extract_lets +onlyGivenNames y; refine KeepsOut.cut (y := y) ?_ (fun hy => ?_) <;> [(unfold y; clear y); (clear_value y; rename' y => w)])
    | ((with_reducible refine Part.sub hA ?_); rfl)
    | (extract_lets +onlyGivenNames y; refine Keeps.cut (y := y) ?_ (fun hy => ?_) <;> [(unfold y; clear y); (clear_value y; rename' y => w)])
    | (extract_lets +onlyGivenNames y; clear_value y; rename' y => w)
    | (extract_lets +onlyGivenNames y; rename' y => w)
    | with_reducible apply State.doWrite_keeps
    | with_reducible apply State.opCommand_keeps
    | with_reducible intro _
    | split
    | dsimp -zeta only

theorem execModify_keeps {A : Nat} {z : State} {session : Fin 8} {addr : Nat} {mask value : Word} {s : State} (hA : 0xffffbefb77 &&& A = 0xffffbefb77) (hk : Keeps A z s) :
    KeepsOut A z (execModify session addr mask value s) := by
  unfold execModify
  repeat' first
    | with_reducible assumption
    | with_reducible apply KeepsOut.fault
    | with_reducible apply KeepsOut.next
    | (extract_lets +onlyGivenNames y; refine KeepsOut.cut (y := y) ?_ (fun hy => ?_) <;> [(unfold y; clear y); (clear_value y; rename' y => w)])
    | ((with_reducible refine Part.sub hA ?_); rfl)
    | (extract_lets +onlyGivenNames y; refine Keeps.cut (y := y) ?_ (fun hy => ?_) <;> [(unfold y; clear y); (clear_value y; rename' y => w)])
    | (extract_lets +onlyGivenNames y; clear_value y; rename' y => w)
    | (extract_lets +onlyGivenNames y; rename' y => w)
    | with_reducible apply State.doModify_keeps
    | with_reducible apply State.opCommand_keeps
    | with_reducible intro _
    | split
    | dsimp -zeta only

theorem execBlockRead_keeps {A : Nat} {z : State} {session : Fin 8} {space offset length : Nat} {s : State} (hA : 0xffffbefb77 &&& A = 0xffffbefb77) (hk : Keeps A z s) :
    KeepsOut A z (execBlockRead session space offset length s) := by
  unfold execBlockRead
  repeat' first
    | with_reducible assumption
    | with_reducible apply KeepsOut.fault
    | with_reducible apply KeepsOut.next
    | (extract_lets +onlyGivenNames y; refine KeepsOut.cut (y := y) ?_ (fun hy => ?_) <;> [(unfold y; clear y); (clear_value y; rename' y => w)])
    | ((with_reducible refine Part.sub hA ?_); rfl)
    | (extract_lets +onlyGivenNames y; refine Keeps.cut (y := y) ?_ (fun hy => ?_) <;> [(unfold y; clear y); (clear_value y; rename' y => w)])
    | (extract_lets +onlyGivenNames y; clear_value y; rename' y => w)
    | (extract_lets +onlyGivenNames y; rename' y => w)
    | with_reducible apply State.doBlockRead_keeps
    | with_reducible apply State.opCommand_keeps
    | with_reducible intro _
    | split
    | dsimp -zeta only

theorem execBlockWrite_keeps {A : Nat} {z : State} {session : Fin 8} {space offset : Nat} {data : List Byte} {s : State} (hA : 0xffffbefb77 &&& A = 0xffffbefb77) (hk : Keeps A z s) :
    KeepsOut A z (execBlockWrite session space offset data s) := by
  unfold execBlockWrite
  repeat' first
    | with_reducible assumption
    | with_reducible apply KeepsOut.fault
    | with_reducible apply KeepsOut.next
    | (extract_lets +onlyGivenNames y; refine KeepsOut.cut (y := y) ?_ (fun hy => ?_) <;> [(unfold y; clear y); (clear_value y; rename' y => w)])
    | ((with_reducible refine Part.sub hA ?_); rfl)
    | (extract_lets +onlyGivenNames y; refine Keeps.cut (y := y) ?_ (fun hy => ?_) <;> [(unfold y; clear y); (clear_value y; rename' y => w)])
    | (extract_lets +onlyGivenNames y; clear_value y; rename' y => w)
    | (extract_lets +onlyGivenNames y; rename' y => w)
    | with_reducible apply State.doBlockWrite_keeps
    | with_reducible apply State.opCommand_keeps
    | with_reducible intro _
    | split
    | dsimp -zeta only

theorem execSubscribe_keeps {A : Nat} {z : State} {session : Fin 8} {minSev flags first : Nat} {s : State} (hA : 0xffffbefb77 &&& A = 0xffffbefb77) (hk : Keeps A z s) :
    KeepsOut A z (execSubscribe session minSev flags first s) := by
  unfold execSubscribe
  repeat' first
    | with_reducible assumption
    | with_reducible apply KeepsOut.fault
    | with_reducible apply KeepsOut.next
    | (extract_lets +onlyGivenNames y; refine KeepsOut.cut (y := y) ?_ (fun hy => ?_) <;> [(unfold y; clear y); (clear_value y; rename' y => w)])
    | ((with_reducible refine Part.sub hA ?_); rfl)
    | (extract_lets +onlyGivenNames y; refine Keeps.cut (y := y) ?_ (fun hy => ?_) <;> [(unfold y; clear y); (clear_value y; rename' y => w)])
    | (extract_lets +onlyGivenNames y; clear_value y; rename' y => w)
    | (extract_lets +onlyGivenNames y; rename' y => w)
    | with_reducible apply State.doSubscribe_keeps
    | with_reducible apply State.opCommand_keeps
    | with_reducible intro _
    | split
    | dsimp -zeta only

theorem execUnsubscribe_keeps {A : Nat} {z : State} {session : Fin 8} {s : State} (hA : 0xffffbefb77 &&& A = 0xffffbefb77) (hk : Keeps A z s) :
    KeepsOut A z (execUnsubscribe session s) := by
  unfold execUnsubscribe
  repeat' first
    | with_reducible assumption
    | with_reducible apply KeepsOut.fault
    | with_reducible apply KeepsOut.next
    | (extract_lets +onlyGivenNames y; refine KeepsOut.cut (y := y) ?_ (fun hy => ?_) <;> [(unfold y; clear y); (clear_value y; rename' y => w)])
    | ((with_reducible refine Part.sub hA ?_); rfl)
    | (extract_lets +onlyGivenNames y; refine Keeps.cut (y := y) ?_ (fun hy => ?_) <;> [(unfold y; clear y); (clear_value y; rename' y => w)])
    | (extract_lets +onlyGivenNames y; clear_value y; rename' y => w)
    | (extract_lets +onlyGivenNames y; rename' y => w)
    | with_reducible apply State.doUnsubscribe_keeps
    | with_reducible apply State.opCommand_keeps
    | with_reducible intro _
    | split
    | dsimp -zeta only

theorem execAttest_keeps {A : Nat} {z : State} {session : Fin 8} {nonce : List Byte} {s : State} (hA : 0xffffbefb77 &&& A = 0xffffbefb77) (hk : Keeps A z s) :
    KeepsOut A z (execAttest session nonce s) := by
  unfold execAttest
  repeat' first
    | with_reducible assumption
    | with_reducible apply KeepsOut.fault
    | with_reducible apply KeepsOut.next
    | (extract_lets +onlyGivenNames y; refine KeepsOut.cut (y := y) ?_ (fun hy => ?_) <;> [(unfold y; clear y); (clear_value y; rename' y => w)])
    | ((with_reducible refine Part.sub hA ?_); rfl)
    | (extract_lets +onlyGivenNames y; refine Keeps.cut (y := y) ?_ (fun hy => ?_) <;> [(unfold y; clear y); (clear_value y; rename' y => w)])
    | (extract_lets +onlyGivenNames y; clear_value y; rename' y => w)
    | (extract_lets +onlyGivenNames y; rename' y => w)
    | with_reducible apply State.doAttest_keeps
    | with_reducible apply State.opCommand_keeps
    | with_reducible intro _
    | split
    | dsimp -zeta only

theorem execEnrol_keeps {A : Nat} {z : State} {session : Fin 8} {operands : List Byte} {s : State} (hA : 0xffffbefb77 &&& A = 0xffffbefb77) (hk : Keeps A z s) :
    KeepsOut A z (execEnrol session operands s) := by
  unfold execEnrol
  repeat' first
    | with_reducible assumption
    | with_reducible apply KeepsOut.fault
    | with_reducible apply KeepsOut.next
    | (extract_lets +onlyGivenNames y; refine KeepsOut.cut (y := y) ?_ (fun hy => ?_) <;> [(unfold y; clear y); (clear_value y; rename' y => w)])
    | ((with_reducible refine Part.sub hA ?_); rfl)
    | (extract_lets +onlyGivenNames y; refine Keeps.cut (y := y) ?_ (fun hy => ?_) <;> [(unfold y; clear y); (clear_value y; rename' y => w)])
    | (extract_lets +onlyGivenNames y; clear_value y; rename' y => w)
    | (extract_lets +onlyGivenNames y; rename' y => w)
    | with_reducible apply State.doEnrol_keeps
    | with_reducible apply State.opCommand_keeps
    | with_reducible intro _
    | split
    | dsimp -zeta only

theorem execSlotWrite_keeps {A : Nat} {z : State} {session : Fin 8} {operands : List Byte} {s : State} (hA : 0xffffbefb77 &&& A = 0xffffbefb77) (hk : Keeps A z s) :
    KeepsOut A z (execSlotWrite session operands s) := by
  unfold execSlotWrite
  repeat' first
    | with_reducible assumption
    | with_reducible apply KeepsOut.fault
    | with_reducible apply KeepsOut.next
    | (extract_lets +onlyGivenNames y; refine KeepsOut.cut (y := y) ?_ (fun hy => ?_) <;> [(unfold y; clear y); (clear_value y; rename' y => w)])
    | ((with_reducible refine Part.sub hA ?_); rfl)
    | (extract_lets +onlyGivenNames y; refine Keeps.cut (y := y) ?_ (fun hy => ?_) <;> [(unfold y; clear y); (clear_value y; rename' y => w)])
    | (extract_lets +onlyGivenNames y; clear_value y; rename' y => w)
    | (extract_lets +onlyGivenNames y; rename' y => w)
    | with_reducible apply State.doSlotWrite_keeps
    | with_reducible apply State.opCommand_keeps
    | with_reducible intro _
    | split
    | dsimp -zeta only

theorem execSlotClear_keeps {A : Nat} {z : State} {session : Fin 8} {slot : Nat} {s : State} (hA : 0xffffbefb77 &&& A = 0xffffbefb77) (hk : Keeps A z s) :
    KeepsOut A z (execSlotClear session slot s) := by
  unfold execSlotClear
  repeat' first
    | with_reducible assumption
    | with_reducible apply KeepsOut.fault
    | with_reducible apply KeepsOut.next
    | (extract_lets +onlyGivenNames y; refine KeepsOut.cut (y := y) ?_ (fun hy => ?_) <;> [(unfold y; clear y); (clear_value y; rename' y => w)])
    | ((with_reducible refine Part.sub hA ?_); rfl)
    | (extract_lets +onlyGivenNames y; refine Keeps.cut (y := y) ?_ (fun hy => ?_) <;> [(unfold y; clear y); (clear_value y; rename' y => w)])
    | (extract_lets +onlyGivenNames y; clear_value y; rename' y => w)
    | (extract_lets +onlyGivenNames y; rename' y => w)
    | with_reducible apply State.doSlotClear_keeps
    | with_reducible apply State.opCommand_keeps
    | with_reducible intro _
    | split
    | dsimp -zeta only

theorem execDisown_keeps {A : Nat} {z : State} {session : Fin 8} {confirm : BitVec 64} {s : State} (hA : 0xffffbefb77 &&& A = 0xffffbefb77) (hk : Keeps A z s) :
    KeepsOut A z (execDisown session confirm s) := by
  unfold execDisown
  repeat' first
    | with_reducible assumption
    | with_reducible apply KeepsOut.fault
    | with_reducible apply KeepsOut.next
    | (extract_lets +onlyGivenNames y; refine KeepsOut.cut (y := y) ?_ (fun hy => ?_) <;> [(unfold y; clear y); (clear_value y; rename' y => w)])
    | ((with_reducible refine Part.sub hA ?_); rfl)
    | (extract_lets +onlyGivenNames y; refine Keeps.cut (y := y) ?_ (fun hy => ?_) <;> [(unfold y; clear y); (clear_value y; rename' y => w)])
    | (extract_lets +onlyGivenNames y; clear_value y; rename' y => w)
    | (extract_lets +onlyGivenNames y; rename' y => w)
    | with_reducible apply State.doDisown_keeps
    | with_reducible apply State.opCommand_keeps
    | with_reducible intro _
    | split
    | dsimp -zeta only

theorem execNop_keeps {A : Nat} {z : State} {session : Fin 8} {s : State} (hA : 0xffffbefb77 &&& A = 0xffffbefb77) (hk : Keeps A z s) :
    KeepsOut A z (execNop session s) := by
  unfold execNop
  repeat' first
    | with_reducible assumption
    | with_reducible apply KeepsOut.fault
    | with_reducible apply KeepsOut.next
    | (extract_lets +onlyGivenNames y; refine KeepsOut.cut (y := y) ?_ (fun hy => ?_) <;> [(unfold y; clear y); (clear_value y; rename' y => w)])
    | ((with_reducible refine Part.sub hA ?_); rfl)
    | (extract_lets +onlyGivenNames y; refine Keeps.cut (y := y) ?_ (fun hy => ?_) <;> [(unfold y; clear y); (clear_value y; rename' y => w)])
    | (extract_lets +onlyGivenNames y; clear_value y; rename' y => w)
    | (extract_lets +onlyGivenNames y; rename' y => w)
    | with_reducible apply State.doNop_keeps
    | with_reducible apply State.opCommand_keeps
    | with_reducible intro _
    | split
    | dsimp -zeta only

end Sys2Proof.Machine
end

