-- ==== Sys2Proof/Laws/KeepMdp.lean ====
section
/-!
SUPPORT. Keeps for the operations of Machine/Mdp.lean.
-/

namespace Sys2Proof.Machine

theorem State.malformed_keeps {A : Nat} {z : State} {s : State} {r : Route} {type : Nat} (hA : 0x4000000001 &&& A = 0x4000000001) (hk : Keeps A z s) :
    Keeps A z (State.malformed s r type) := by
  unfold State.malformed
  repeat' first
    | with_reducible assumption
    | ((with_reducible refine Part.sub hA ?_); rfl)
    | (extract_lets +onlyGivenNames y; refine Keeps.cut (y := y) ?_ (fun hy => ?_) <;> [(unfold y; clear y); (clear_value y; rename' y => w)])
    | (extract_lets +onlyGivenNames y; clear_value y; rename' y => w)
    | (extract_lets +onlyGivenNames y; rename' y => w)
    | with_reducible apply State.logRated_keeps
    | with_reducible apply State.mdpViolation_keeps
    | split
    | dsimp -zeta only

theorem State.acceptDatagram_keeps {A : Nat} {z : State} {s : State} {r : Route} {type least : Nat} {d : List Byte} (hA : 0x5c00000007 &&& A = 0x5c00000007) (hk : Keeps A z s) :
    Keeps A z (State.acceptDatagram s r type least d).1 := by
  unfold State.acceptDatagram
  repeat' first
    | with_reducible assumption
    | ((with_reducible refine Part.sub hA ?_); rfl)
    | (extract_lets +onlyGivenNames y; refine Keeps.cut (y := y) ?_ (fun hy => ?_) <;> [(unfold y; clear y); (clear_value y; rename' y => w)])
    | (extract_lets +onlyGivenNames y; clear_value y; rename' y => w)
    | (extract_lets +onlyGivenNames y; rename' y => w)
    | with_reducible apply State.count_keeps
    | with_reducible apply State.setSession_keeps
    | with_reducible apply State.logRated_keeps
    | with_reducible apply State.event_keeps
    | with_reducible apply State.endSession_keeps
    | with_reducible apply State.mdpViolation_keeps
    | with_reducible apply State.mdpLog_keeps
    | with_reducible apply State.malformed_keeps
    | split
    | dsimp -zeta only

theorem State.onDatagram_keeps {A : Nat} {z : State} {s : State} {r : Route} {type least : Nat} {d : List Byte} {f : State → Nat → Nat → List Byte → State} (hA : 0x5c00000007 &&& A = 0x5c00000007) (hk : Keeps A z s) (hf : ∀ y a b c, Keeps A z y → Keeps A z (f y a b c)) :
    Keeps A z (State.onDatagram s r type least d f) := by
  unfold State.onDatagram
  repeat' first
    | with_reducible assumption
    | ((with_reducible refine Part.sub hA ?_); rfl)
    | (extract_lets +onlyGivenNames y; refine Keeps.cut (y := y) ?_ (fun hy => ?_) <;> [(unfold y; clear y); (clear_value y; rename' y => w)])
    | (extract_lets +onlyGivenNames y; clear_value y; rename' y => w)
    | (extract_lets +onlyGivenNames y; rename' y => w)
    | (refine Keeps.of_fst (State.acceptDatagram_keeps (Part.sub hA rfl) ?_) (by assumption))
    | with_reducible apply State.acceptDatagram_keeps
    | with_reducible apply hf
    | split
    | dsimp -zeta only

theorem State.onRequest_keeps {A : Nat} {z : State} {s : State} {r : Route} {i n : Nat} {body : List Byte} (hA : 0xffffbefb77 &&& A = 0xffffbefb77) (hk : Keeps A z s) :
    Keeps A z (State.onRequest s r i n body) := by
  unfold State.onRequest
  repeat' first
    | with_reducible assumption
    | ((with_reducible refine Part.sub hA ?_); rfl)
    | (extract_lets +onlyGivenNames y; refine Keeps.cut (y := y) ?_ (fun hy => ?_) <;> [(unfold y; clear y); (clear_value y; rename' y => w)])
    | (extract_lets +onlyGivenNames y; clear_value y; rename' y => w)
    | (extract_lets +onlyGivenNames y; rename' y => w)
    | with_reducible apply State.count_keeps
    | with_reducible apply State.modSession_keeps
    | with_reducible apply State.mdpSend_keeps
    | with_reducible apply State.mdpViolation_keeps
    | with_reducible apply State.runHeld_keeps
    | split
    | dsimp -zeta only

theorem execMdpRequest_keeps {A : Nat} {z : State} {route : Route} {datagram : List Byte} {s : State} (hA : 0xffffbefb77 &&& A = 0xffffbefb77) (hk : Keeps A z s) :
    KeepsOut A z (execMdpRequest route datagram s) := by
  unfold execMdpRequest
  repeat' first
    | with_reducible assumption
    | with_reducible apply KeepsOut.fault
    | with_reducible apply KeepsOut.next
    | (extract_lets +onlyGivenNames y; refine KeepsOut.cut (y := y) ?_ (fun hy => ?_) <;> [(unfold y; clear y); (clear_value y; rename' y => w)])
    | ((with_reducible refine Part.sub hA ?_); rfl)
    | (extract_lets +onlyGivenNames y; refine Keeps.cut (y := y) ?_ (fun hy => ?_) <;> [(unfold y; clear y); (clear_value y; rename' y => w)])
    | (extract_lets +onlyGivenNames y; clear_value y; rename' y => w)
    | (extract_lets +onlyGivenNames y; rename' y => w)
    | with_reducible apply State.onDatagram_keeps
    | with_reducible intro _
    | with_reducible apply State.onRequest_keeps
    | split
    | dsimp -zeta only

theorem execMdpAck_keeps {A : Nat} {z : State} {route : Route} {datagram : List Byte} {s : State} (hA : 0x5c00000007 &&& A = 0x5c00000007) (hk : Keeps A z s) :
    KeepsOut A z (execMdpAck route datagram s) := by
  unfold execMdpAck
  repeat' first
    | with_reducible assumption
    | with_reducible apply KeepsOut.fault
    | with_reducible apply KeepsOut.next
    | (extract_lets +onlyGivenNames y; refine KeepsOut.cut (y := y) ?_ (fun hy => ?_) <;> [(unfold y; clear y); (clear_value y; rename' y => w)])
    | ((with_reducible refine Part.sub hA ?_); rfl)
    | (extract_lets +onlyGivenNames y; refine Keeps.cut (y := y) ?_ (fun hy => ?_) <;> [(unfold y; clear y); (clear_value y; rename' y => w)])
    | (extract_lets +onlyGivenNames y; clear_value y; rename' y => w)
    | (extract_lets +onlyGivenNames y; rename' y => w)
    | with_reducible apply State.modSession_keeps
    | with_reducible apply State.mdpViolation_keeps
    | with_reducible apply State.onDatagram_keeps
    | with_reducible intro _
    | split
    | dsimp -zeta only

theorem execMdpClose_keeps {A : Nat} {z : State} {route : Route} {datagram : List Byte} {s : State} (hA : 0x5c00000027 &&& A = 0x5c00000027) (hk : Keeps A z s) :
    KeepsOut A z (execMdpClose route datagram s) := by
  unfold execMdpClose
  repeat' first
    | with_reducible assumption
    | with_reducible apply KeepsOut.fault
    | with_reducible apply KeepsOut.next
    | (extract_lets +onlyGivenNames y; refine KeepsOut.cut (y := y) ?_ (fun hy => ?_) <;> [(unfold y; clear y); (clear_value y; rename' y => w)])
    | ((with_reducible refine Part.sub hA ?_); rfl)
    | (extract_lets +onlyGivenNames y; refine Keeps.cut (y := y) ?_ (fun hy => ?_) <;> [(unfold y; clear y); (clear_value y; rename' y => w)])
    | (extract_lets +onlyGivenNames y; clear_value y; rename' y => w)
    | (extract_lets +onlyGivenNames y; rename' y => w)
    | with_reducible apply State.modSession_keeps
    | with_reducible apply State.closeCheck_keeps
    | with_reducible apply State.onDatagram_keeps
    | with_reducible intro _
    | split
    | dsimp -zeta only

theorem State.mdpReply_keeps {A : Nat} {z : State} {s : State} {r : Route} {type : Nat} {body : List Byte} (hA : 0x1000000021 &&& A = 0x1000000021) (hk : Keeps A z s) :
    Keeps A z (State.mdpReply s r type body) := by
  unfold State.mdpReply
  repeat' first
    | with_reducible assumption
    | ((with_reducible refine Part.sub hA ?_); rfl)
    | (extract_lets +onlyGivenNames y; refine Keeps.cut (y := y) ?_ (fun hy => ?_) <;> [(unfold y; clear y); (clear_value y; rename' y => w)])
    | (extract_lets +onlyGivenNames y; clear_value y; rename' y => w)
    | (extract_lets +onlyGivenNames y; rename' y => w)
    | with_reducible apply State.modMdp_keeps
    | with_reducible apply State.sendDatagram_keeps
    | split
    | dsimp -zeta only

theorem execMdpIdentify_keeps {A : Nat} {z : State} {route : Route} {datagram : List Byte} {s : State} (hA : 0x5000000021 &&& A = 0x5000000021) (hk : Keeps A z s) :
    KeepsOut A z (execMdpIdentify route datagram s) := by
  unfold execMdpIdentify
  repeat' first
    | with_reducible assumption
    | with_reducible apply KeepsOut.fault
    | with_reducible apply KeepsOut.next
    | (extract_lets +onlyGivenNames y; refine KeepsOut.cut (y := y) ?_ (fun hy => ?_) <;> [(unfold y; clear y); (clear_value y; rename' y => w)])
    | ((with_reducible refine Part.sub hA ?_); rfl)
    | (extract_lets +onlyGivenNames y; refine Keeps.cut (y := y) ?_ (fun hy => ?_) <;> [(unfold y; clear y); (clear_value y; rename' y => w)])
    | (extract_lets +onlyGivenNames y; clear_value y; rename' y => w)
    | (extract_lets +onlyGivenNames y; rename' y => w)
    | with_reducible apply State.count_keeps
    | with_reducible apply State.malformed_keeps
    | with_reducible apply State.mdpReply_keeps
    | split
    | dsimp -zeta only

theorem State.enrolFailed_keeps {A : Nat} {z : State} {s : State} (hA : 0x5800000005 &&& A = 0x5800000005) (hk : Keeps A z s) :
    Keeps A z (State.enrolFailed s) := by
  unfold State.enrolFailed
  repeat' first
    | with_reducible assumption
    | ((with_reducible refine Part.sub hA ?_); rfl)
    | (extract_lets +onlyGivenNames y; refine Keeps.cut (y := y) ?_ (fun hy => ?_) <;> [(unfold y; clear y); (clear_value y; rename' y => w)])
    | (extract_lets +onlyGivenNames y; clear_value y; rename' y => w)
    | (extract_lets +onlyGivenNames y; rename' y => w)
    | with_reducible apply State.modMdp_keeps
    | with_reducible apply State.log_keeps
    | with_reducible apply State.ownEvent_keeps
    | split
    | dsimp -zeta only

theorem State.openFails_keeps {A : Nat} {z : State} {s : State} {r : Route} {o : Opening} {step reason : Nat} (hA : 0x5800000025 &&& A = 0x5800000025) (hk : Keeps A z s) :
    Keeps A z (State.openFails s r o step reason) := by
  unfold State.openFails
  repeat' first
    | with_reducible assumption
    | ((with_reducible refine Part.sub hA ?_); rfl)
    | (extract_lets +onlyGivenNames y; refine Keeps.cut (y := y) ?_ (fun hy => ?_) <;> [(unfold y; clear y); (clear_value y; rename' y => w)])
    | (extract_lets +onlyGivenNames y; clear_value y; rename' y => w)
    | (extract_lets +onlyGivenNames y; rename' y => w)
    | with_reducible apply State.count_keeps
    | with_reducible apply State.log_keeps
    | with_reducible apply State.event_keeps
    | with_reducible apply State.mdpReply_keeps
    | with_reducible apply State.enrolFailed_keeps
    | split
    | dsimp -zeta only

theorem State.openSession_keeps {A : Nat} {z : State} {s : State} {r : Route} {o : Opening} {key : List Byte} (hA : 0x5c00000027 &&& A = 0x5c00000027) (hk : Keeps A z s) :
    Keeps A z (State.openSession s r o key) := by
  unfold State.openSession
  repeat' first
    | with_reducible assumption
    | ((with_reducible refine Part.sub hA ?_); rfl)
    | (extract_lets +onlyGivenNames y; refine Keeps.cut (y := y) ?_ (fun hy => ?_) <;> [(unfold y; clear y); (clear_value y; rename' y => w)])
    | (extract_lets +onlyGivenNames y; clear_value y; rename' y => w)
    | (extract_lets +onlyGivenNames y; rename' y => w)
    | with_reducible apply State.count_keeps
    | with_reducible apply State.setSession_keeps
    | with_reducible apply State.modMdp_keeps
    | with_reducible apply State.log_keeps
    | with_reducible apply State.event_keeps
    | with_reducible apply State.mdpSend_keeps
    | split
    | dsimp -zeta only

theorem execMdpOpen_keeps {A : Nat} {z : State} {route : Route} {datagram : List Byte} {s : State} (hA : 0x5c00000027 &&& A = 0x5c00000027) (hk : Keeps A z s) :
    KeepsOut A z (execMdpOpen route datagram s) := by
  unfold execMdpOpen
  repeat' first
    | with_reducible assumption
    | with_reducible apply KeepsOut.fault
    | with_reducible apply KeepsOut.next
    | (extract_lets +onlyGivenNames y; refine KeepsOut.cut (y := y) ?_ (fun hy => ?_) <;> [(unfold y; clear y); (clear_value y; rename' y => w)])
    | ((with_reducible refine Part.sub hA ?_); rfl)
    | (extract_lets +onlyGivenNames y; refine Keeps.cut (y := y) ?_ (fun hy => ?_) <;> [(unfold y; clear y); (clear_value y; rename' y => w)])
    | (extract_lets +onlyGivenNames y; clear_value y; rename' y => w)
    | (extract_lets +onlyGivenNames y; rename' y => w)
    | with_reducible apply State.count_keeps
    | with_reducible apply State.modMdp_keeps
    | with_reducible apply State.logRated_keeps
    | with_reducible apply State.event_keeps
    | with_reducible apply State.malformed_keeps
    | with_reducible apply State.openFails_keeps
    | with_reducible apply State.openSession_keeps
    | split
    | dsimp -zeta only

theorem State.notify_keeps {A : Nat} {z : State} {s : State} {i : Nat} {recs : List (List Byte)} (hA : 0x5c00000027 &&& A = 0x5c00000027) (hk : Keeps A z s) :
    Keeps A z (State.notify s i recs) := by
  unfold State.notify
  repeat' first
    | with_reducible assumption
    | ((with_reducible refine Part.sub hA ?_); rfl)
    | (extract_lets +onlyGivenNames y; refine Keeps.cut (y := y) ?_ (fun hy => ?_) <;> [(unfold y; clear y); (clear_value y; rename' y => w)])
    | (extract_lets +onlyGivenNames y; clear_value y; rename' y => w)
    | (extract_lets +onlyGivenNames y; rename' y => w)
    | with_reducible apply State.modSession_keeps
    | with_reducible apply State.mdpSend_keeps
    | split
    | dsimp -zeta only

theorem execNotifySend_keeps {A : Nat} {z : State} {session : Fin 8} {s : State} (hA : 0x5c00000027 &&& A = 0x5c00000027) (hk : Keeps A z s) :
    KeepsOut A z (execNotifySend session s) := by
  unfold execNotifySend
  repeat' first
    | with_reducible assumption
    | with_reducible apply KeepsOut.fault
    | with_reducible apply KeepsOut.next
    | (extract_lets +onlyGivenNames y; refine KeepsOut.cut (y := y) ?_ (fun hy => ?_) <;> [(unfold y; clear y); (clear_value y; rename' y => w)])
    | ((with_reducible refine Part.sub hA ?_); rfl)
    | (extract_lets +onlyGivenNames y; refine Keeps.cut (y := y) ?_ (fun hy => ?_) <;> [(unfold y; clear y); (clear_value y; rename' y => w)])
    | (extract_lets +onlyGivenNames y; clear_value y; rename' y => w)
    | (extract_lets +onlyGivenNames y; rename' y => w)
    | with_reducible apply State.countBy_keeps
    | with_reducible apply State.modSession_keeps
    | with_reducible apply State.log_keeps
    | with_reducible apply State.event_keeps
    | with_reducible apply State.notify_keeps
    | split
    | dsimp -zeta only

theorem execNotifyRetx_keeps {A : Nat} {z : State} {session : Fin 8} {s : State} (hA : 0x5c00000027 &&& A = 0x5c00000027) (hk : Keeps A z s) :
    KeepsOut A z (execNotifyRetx session s) := by
  unfold execNotifyRetx
  repeat' first
    | with_reducible assumption
    | with_reducible apply KeepsOut.fault
    | with_reducible apply KeepsOut.next
    | (extract_lets +onlyGivenNames y; refine KeepsOut.cut (y := y) ?_ (fun hy => ?_) <;> [(unfold y; clear y); (clear_value y; rename' y => w)])
    | ((with_reducible refine Part.sub hA ?_); rfl)
    | (extract_lets +onlyGivenNames y; refine Keeps.cut (y := y) ?_ (fun hy => ?_) <;> [(unfold y; clear y); (clear_value y; rename' y => w)])
    | (extract_lets +onlyGivenNames y; clear_value y; rename' y => w)
    | (extract_lets +onlyGivenNames y; rename' y => w)
    | with_reducible apply State.modSession_keeps
    | with_reducible apply State.mdpSend_keeps
    | split
    | dsimp -zeta only

theorem execStateNotify_keeps {A : Nat} {z : State} {session : Fin 8} {s : State} (hA : 0x5c00000027 &&& A = 0x5c00000027) (hk : Keeps A z s) :
    KeepsOut A z (execStateNotify session s) := by
  unfold execStateNotify
  repeat' first
    | with_reducible assumption
    | with_reducible apply KeepsOut.fault
    | with_reducible apply KeepsOut.next
    | (extract_lets +onlyGivenNames y; refine KeepsOut.cut (y := y) ?_ (fun hy => ?_) <;> [(unfold y; clear y); (clear_value y; rename' y => w)])
    | ((with_reducible refine Part.sub hA ?_); rfl)
    | (extract_lets +onlyGivenNames y; refine Keeps.cut (y := y) ?_ (fun hy => ?_) <;> [(unfold y; clear y); (clear_value y; rename' y => w)])
    | (extract_lets +onlyGivenNames y; clear_value y; rename' y => w)
    | (extract_lets +onlyGivenNames y; rename' y => w)
    | with_reducible apply State.modSession_keeps
    | with_reducible apply State.notify_keeps
    | split
    | dsimp -zeta only

theorem State.mdpDatagram_keeps {A : Nat} {z : State} {s : State} {r : Route} {d : List Byte} (hA : 0xffffbefb77 &&& A = 0xffffbefb77) (hk : Keeps A z s) :
    Keeps A z (State.mdpDatagram s r d) := by
  unfold State.mdpDatagram
  repeat' first
    | with_reducible assumption
    | ((with_reducible refine Part.sub hA ?_); rfl)
    | (extract_lets +onlyGivenNames y; refine Keeps.cut (y := y) ?_ (fun hy => ?_) <;> [(unfold y; clear y); (clear_value y; rename' y => w)])
    | (extract_lets +onlyGivenNames y; clear_value y; rename' y => w)
    | (extract_lets +onlyGivenNames y; rename' y => w)
    | with_reducible apply doing_keeps
    | with_reducible intro _
    | with_reducible apply State.malformed_keeps
    | with_reducible apply execMdpRequest_keeps
    | with_reducible apply execMdpAck_keeps
    | with_reducible apply execMdpClose_keeps
    | with_reducible apply execMdpIdentify_keeps
    | with_reducible apply execMdpOpen_keeps
    | split
    | dsimp -zeta only

end Sys2Proof.Machine
end

