-- ==== Sys2Proof/Laws/KeepFrame.lean ====
section
/-!
SUPPORT. Keeps for the operations of Machine/Frame.lean.
-/

namespace Sys2Proof.Machine

theorem State.rxDrop_keeps {A : Nat} {z : State} {s : State} {p : Nat} (hA : 0x1 &&& A = 0x1) (hk : Keeps A z s) :
    Keeps A z (State.rxDrop s p) := by
  unfold State.rxDrop
  repeat' first
    | with_reducible assumption
    | ((with_reducible refine Part.sub hA ?_); rfl)
    | (extract_lets +onlyGivenNames y; refine Keeps.cut (y := y) ?_ (fun hy => ?_) <;> [(unfold y; clear y); (clear_value y; rename' y => w)])
    | (extract_lets +onlyGivenNames y; clear_value y; rename' y => w)
    | (extract_lets +onlyGivenNames y; rename' y => w)
    | with_reducible apply State.count_keeps
    | split
    | dsimp -zeta only

theorem State.rxFrame_keeps {A : Nat} {z : State} {s : State} {p : Nat} (hA : 0x1 &&& A = 0x1) (hk : Keeps A z s) :
    Keeps A z (State.rxFrame s p) := by
  unfold State.rxFrame
  repeat' first
    | with_reducible assumption
    | ((with_reducible refine Part.sub hA ?_); rfl)
    | (extract_lets +onlyGivenNames y; refine Keeps.cut (y := y) ?_ (fun hy => ?_) <;> [(unfold y; clear y); (clear_value y; rename' y => w)])
    | (extract_lets +onlyGivenNames y; clear_value y; rename' y => w)
    | (extract_lets +onlyGivenNames y; rename' y => w)
    | with_reducible apply State.count_keeps
    | split
    | dsimp -zeta only

theorem State.answerFrame_keeps {A : Nat} {z : State} {s : State} {p : Nat} {f : List Byte} (hA : 0x40021 &&& A = 0x40021) (hk : Keeps A z s) :
    Keeps A z (State.answerFrame s p f) := by
  unfold State.answerFrame
  repeat' first
    | with_reducible assumption
    | ((with_reducible refine Part.sub hA ?_); rfl)
    | (extract_lets +onlyGivenNames y; refine Keeps.cut (y := y) ?_ (fun hy => ?_) <;> [(unfold y; clear y); (clear_value y; rename' y => w)])
    | (extract_lets +onlyGivenNames y; clear_value y; rename' y => w)
    | (extract_lets +onlyGivenNames y; rename' y => w)
    | with_reducible apply State.modPort_keeps
    | with_reducible apply State.sendOther_keeps
    | with_reducible apply State.rxDrop_keeps
    | with_reducible apply State.rxFrame_keeps
    | split
    | dsimp -zeta only

theorem State.answerQuery_keeps {A : Nat} {z : State} {s : State} {p group : Nat} (hA : 0x40021 &&& A = 0x40021) (hk : Keeps A z s) :
    Keeps A z (State.answerQuery s p group) := by
  unfold State.answerQuery
  repeat' first
    | with_reducible assumption
    | ((with_reducible refine Part.sub hA ?_); rfl)
    | (extract_lets +onlyGivenNames y; refine Keeps.cut (y := y) ?_ (fun hy => ?_) <;> [(unfold y; clear y); (clear_value y; rename' y => w)])
    | (extract_lets +onlyGivenNames y; clear_value y; rename' y => w)
    | (extract_lets +onlyGivenNames y; rename' y => w)
    | with_reducible apply State.sendReport_keeps
    | (with_reducible apply Keeps.foldl; intro y b hy)
    | (with_reducible apply Keeps.foldl_fst; intro y b hy)
    | split
    | dsimp -zeta only

theorem State.deliverFlow_keeps {A : Nat} {z : State} {s : State} {i p : Nat} {e : FtEntry} {f : List Byte} {u : Udp} (hA : 0x4c3df0c86d &&& A = 0x4c3df0c86d) (hk : Keeps A z s) :
    Keeps A z (State.deliverFlow s i p e f u).1 := by
  unfold State.deliverFlow
  repeat' first
    | with_reducible assumption
    | ((with_reducible refine Part.sub hA ?_); rfl)
    | (extract_lets +onlyGivenNames y; refine Keeps.cut (y := y) ?_ (fun hy => ?_) <;> [(unfold y; clear y); (clear_value y; rename' y => w)])
    | (extract_lets +onlyGivenNames y; clear_value y; rename' y => w)
    | (extract_lets +onlyGivenNames y; rename' y => w)
    | (refine Keeps.of_fst (State.tapDeliver_keeps (Part.sub hA rfl) ?_) (by assumption))
    | with_reducible apply State.tapDeliver_keeps
    | (refine Keeps.of_fst (State.ringDeliver_keeps (Part.sub hA rfl) ?_) (by assumption))
    | with_reducible apply State.ringDeliver_keeps
    | (refine Keeps.of_fst (State.mediaPacket_keeps (Part.sub hA rfl) ?_) (by assumption))
    | with_reducible apply State.mediaPacket_keeps
    | (refine Keeps.of_fst (State.surfacePacket_keeps (Part.sub hA rfl) ?_) (by assumption))
    | with_reducible apply State.surfacePacket_keeps
    | split
    | dsimp -zeta only

theorem State.flowPacket_keeps {A : Nat} {z : State} {s : State} {p : Nat} {f : List Byte} {u : Udp} (hA : 0x4c3df0c86d &&& A = 0x4c3df0c86d) (hk : Keeps A z s) :
    Keeps A z (State.flowPacket s p f u) := by
  unfold State.flowPacket
  split
  · exact hk
  split
  · have hc : Keeps A z (s.count R.ft_FT_UNKNOWN) := State.count_keeps (Part.sub hA rfl) hk
    dsimp only
    split
    · exact State.ringDeliver_keeps (Part.sub hA rfl) hc
    · exact hc
  extract_lets y x
  have hx : Keeps A z x.1 := State.deliverFlow_keeps (Part.sub hA rfl) (State.modEntry_keeps (Part.sub hA rfl) hk)
  clear_value x
  refine State.pairReadyCheck_keeps (Part.sub hA rfl) ?_
  split
  · exact State.modEntry_keeps (Part.sub hA rfl) hx
  · exact hx

theorem State.helperRx_keeps {A : Nat} {z : State} {s : State} {p : Nat} {f : List Byte} (hA : 0x40021 &&& A = 0x40021) (hk : Keeps A z s) :
    Keeps A z (State.helperRx s p f) := by
  unfold State.helperRx
  repeat' first
    | with_reducible assumption
    | ((with_reducible refine Part.sub hA ?_); rfl)
    | (extract_lets +onlyGivenNames y; refine Keeps.cut (y := y) ?_ (fun hy => ?_) <;> [(unfold y; clear y); (clear_value y; rename' y => w)])
    | (extract_lets +onlyGivenNames y; clear_value y; rename' y => w)
    | (extract_lets +onlyGivenNames y; rename' y => w)
    | with_reducible apply State.rxFrame_keeps
    | with_reducible apply State.answerFrame_keeps
    | split
    | dsimp -zeta only

theorem State.mediaRx_keeps {A : Nat} {z : State} {s : State} {p : Nat} {f : List Byte} (hA : 0x4c3df4c86d &&& A = 0x4c3df4c86d) (hk : Keeps A z s) :
    Keeps A z (State.mediaRx s p f) := by
  unfold State.mediaRx
  repeat' first
    | with_reducible assumption
    | ((with_reducible refine Part.sub hA ?_); rfl)
    | (extract_lets +onlyGivenNames y; refine Keeps.cut (y := y) ?_ (fun hy => ?_) <;> [(unfold y; clear y); (clear_value y; rename' y => w)])
    | (extract_lets +onlyGivenNames y; clear_value y; rename' y => w)
    | (extract_lets +onlyGivenNames y; rename' y => w)
    | with_reducible apply State.rxDrop_keeps
    | with_reducible apply State.rxFrame_keeps
    | with_reducible apply State.answerQuery_keeps
    | with_reducible apply State.flowPacket_keeps
    | with_reducible apply State.helperRx_keeps
    | split
    | dsimp -zeta only

theorem State.managementRx_keeps {A : Nat} {z : State} {s : State} {m1 : Bool} {f : List Byte} (hA : 0xffffbefb77 &&& A = 0xffffbefb77) (hk : Keeps A z s) :
    Keeps A z (State.managementRx s m1 f) := by
  unfold State.managementRx
  repeat' first
    | with_reducible assumption
    | ((with_reducible refine Part.sub hA ?_); rfl)
    | (extract_lets +onlyGivenNames y; refine Keeps.cut (y := y) ?_ (fun hy => ?_) <;> [(unfold y; clear y); (clear_value y; rename' y => w)])
    | (extract_lets +onlyGivenNames y; clear_value y; rename' y => w)
    | (extract_lets +onlyGivenNames y; rename' y => w)
    | with_reducible apply State.mdpDatagram_keeps
    | with_reducible apply State.rxDrop_keeps
    | with_reducible apply State.rxFrame_keeps
    | with_reducible apply State.helperRx_keeps
    | split
    | dsimp -zeta only

theorem execFrameRx_keeps {A : Nat} {z : State} {port : Fin 34} {bytes : List Byte} {fcsOk : Bool} {s : State} (hA : 0xfffffefb7f &&& A = 0xfffffefb7f) (hk : Keeps A z s) :
    KeepsOut A z (execFrameRx port bytes fcsOk s) := by
  unfold execFrameRx
  repeat' first
    | with_reducible assumption
    | with_reducible apply KeepsOut.fault
    | with_reducible apply KeepsOut.next
    | (extract_lets +onlyGivenNames y; refine KeepsOut.cut (y := y) ?_ (fun hy => ?_) <;> [(unfold y; clear y); (clear_value y; rename' y => w)])
    | ((with_reducible refine Part.sub hA ?_); rfl)
    | (extract_lets +onlyGivenNames y; refine Keeps.cut (y := y) ?_ (fun hy => ?_) <;> [(unfold y; clear y); (clear_value y; rename' y => w)])
    | (extract_lets +onlyGivenNames y; clear_value y; rename' y => w)
    | (extract_lets +onlyGivenNames y; rename' y => w)
    | with_reducible apply State.count_keeps
    | with_reducible apply State.rxDrop_keeps
    | with_reducible apply State.mediaRx_keeps
    | with_reducible apply State.managementRx_keeps
    | split
    | dsimp -zeta only

end Sys2Proof.Machine
end

