-- ==== Sys2Proof/WellFormed.lean ====
section
/-!
DEFINITION. Well-formed commands: operands whose fields the spec gives a width or a range hold a value of it. Operands of finite types
are within their range by their type. The meanings do not rest on this; they are total.
-/

namespace Sys2Proof

open Machine

/-- A merged flow: a channel, or a surface 0 to 511 (R17). -/
def Machine.FlowId.wf : FlowId → Bool
  | .channel _ => true
  | .surface n => n < 512

/-- A record for the recorder: its type of Table 13-2 and its tap. -/
def Machine.RecordSource.wf : RecordSource → Bool
  | .ledger => true
  | .data type tap _ => type < 256 && tap < 64

/-- A source address and UDP port. -/
def Machine.Route.wf (r : Route) : Bool := r.addr < 2 ^ 128 && r.port < 65536

/-- An output that exists: channel 0 to 47, head 0 to 15, audio group 0 or 1, TIO0 to TIO7. -/
def Machine.Output.wf : Output → Bool
  | .channel n => n < 48
  | .head n => n < 16
  | .audio n => n < 2
  | .tio n => n < 8

/-- A well-formed command. -/
def Instr.wf (i : Instr) : Bool :=
  match i with
  | .registerWrite _ addr _ => addr < 2 ^ 32
  | .ptpMessageRx _ datagram => datagram.source < 2 ^ 128
  | .delayReqTx _ => true
  | .syncTimeout _ => true
  | .announceTimeout _ => true
  | .leadingSyncTx _ => true
  | .leadingAnnounceTx _ => true
  | .suspectClr _ => true
  | .forceHold _ _ => true
  | .monitorWindowEnd _ periods => !periods.any fun p => p == 0
  | .monitorEdgeTimeout _ => true
  | .rennetPoint _ => true
  | .stampLoRead _ => true
  | .armHiWrite _ _ _ => true
  | .tioPulseEdge _ => true
  | .tioPulseEnd _ => true
  | .tioInputTransition _ _ => true
  | .tioLevelQualified _ => true
  | .tioStuckTimeout _ => true
  | .tioRelease _ _ => true
  | .tioFlush _ _ => true
  | .capLoRead _ _ => true
  | .slotCheck _ _ => true
  | .validationDone _ => true
  | .slotCtrlClear _ _ => true
  | .commitIssue _ => true
  | .ripenDone _ _ _ => true
  | .goPoint ticket => ticket < 2 ^ 32
  | .commitCancel _ ticket => ticket < 2 ^ 32
  | .floorRaise _ _ => true
  | .stagedWrite _ addr _ => addr < 2 ^ 32
  | .fwAliveTimeout _ => true
  | .fwConfirm _ _ => true
  | .fwRevert _ _ => true
  | .bootWrite _ _ _ => true
  | .bootPrefer _ _ => true
  | .frameRx _ _ _ => true
  | .ftAdd _ => true
  | .ftRemove _ => true
  | .ftRead _ => true
  | .ftLookup _ => true
  | .ringEnable _ _ _ => true
  | .inputLossTimeout _ => true
  | .stripeGapTimeout _ => true
  | .mergeSkewTimeout flow seq => flow.wf && seq < 2 ^ 32
  | .pathSilenceTimeout flow _ => flow.wf
  | .surfaceFrameClose surface frame => surface < 512 && frame < 2 ^ 32
  | .surfaceCloseTimeout surface frame => surface < 512 && frame < 2 ^ 32
  | .laneSignalDetect _ => true
  | .laneAdaptConverged _ _ => true
  | .pcsLock _ => true
  | .portUp _ => true
  | .bringupStepTimeout _ => true
  | .backoffRetry _ => true
  | .adaptStep _ _ _ => true
  | .laneLowFom _ => true
  | .fomBelowMin _ => true
  | .pcsAlignmentLoss _ => true
  | .fecUncorrBurst _ codewords => 0 < codewords
  | .linkFaultPersist _ _ => true
  | .fecDegrade _ _ _ _ => true
  | .optRemoved _ => true
  | .optInserted _ => true
  | .optModuleReady _ => true
  | .portAdmin _ _ _ => true
  | .retryNow _ _ => true
  | .laneLoop _ _ _ => true
  | .lanePrbs _ _ _ => true
  | .laneFreeze _ _ _ => true
  | .fomRead _ _ => true
  | .optPoll _ _ => true
  | .optCmd _ _ _ => true
  | .optCmdDone _ _ _ => true
  | .optSdaStuck _ _ => true
  | .optResetBus _ _ => true
  | .laneTakeCurd _ _ => true
  | .curdSelect _ _ => true
  | .verdict _ _ k _ => k < 128
  | .verdictDeadline _ _ k => k < 128
  | .curdLateHandover _ _ k => k < 128
  | .packedPacketTimeout _ => true
  | .packetDepart _ => true
  | .channelEovRepeat _ => true
  | .signaturePrefetchDone _ line _ => line < 4320
  | .signatureWriteTimeout _ _ => true
  | .coderEccFault _ => true
  | .coderClockLoss _ => true
  | .coderWatchdog _ => true
  | .rindMove _ _ _ => true
  | .coderRetest _ _ => true
  | .coderRetire _ _ => true
  | .claimForget surface => surface < 512
  | .heartbeatRx _ => true
  | .recordsRx _ => true
  | .handoverRx _ => true
  | .answerRx datagram => datagram.source < 2 ^ 128
  | .promotedChannelStart _ => true
  | .probeRx datagram => datagram.source < 2 ^ 128
  | .pairSwitch _ => true
  | .headLineStart _ _ => true
  | .headFrameStart _ => true
  | .headFrameDone _ => true
  | .headEovRepeat _ => true
  | .headRetest _ _ => true
  | .unitCheckFail _ _ => true
  | .readerRetest _ _ => true
  | .scalerRetest _ _ => true
  | .audioFrameBoundary samples => samples.all fun x => x.group < 2 && x.mic < 16
  | .audioSlip _ _ => true
  | .micStuckTimeout _ => true
  | .memRequestServe _ _ _ => true
  | .memStarvationRaise _ => true
  | .refreshDue _ => true
  | .refreshPayback _ => true
  | .mr4Poll _ _ => true
  | .trainingDue _ => true
  | .trainingStep _ => true
  | .trainingForce _ => true
  | .trainingDone _ _ _ => true
  | .trainNow _ => true
  | .memChannelSilent _ => true
  | .memRetire _ => true
  | .remapDone _ => true
  | .patrolScrub _ => true
  | .dupCopyDone region _ => region < 256
  | .surfaceWriteTimeout _ surface slot frame => surface < 512 && slot < 256 && frame < 2 ^ 32
  | .recordAdmit source => source.wf
  | .wheelSign wheel => wheel < 2 ^ 64
  | .sealNow _ => true
  | .exportOpen _ => true
  | .exportClose _ => true
  | .exportIdleTimeout _ => true
  | .verify _ => true
  | .nandProgramFail _ => true
  | .codeFetchError _ => true
  | .sramUncorr _ address => address < 2 ^ 32
  | .coreWfi _ => true
  | .corePark _ _ => true
  | .coreResume _ _ => true
  | .coreWatchdogExpire _ => true
  | .wdtKick _ _ => true
  | .coreAlive _ _ => true
  | .spLockstepMismatch _ => true
  | .irqEvent events _ => events < 2 ^ 32
  | .irqClaim _ _ => true
  | .irqComplete _ _ _ => true
  | .srcCfgWrite _ _ _ => true
  | .thresholdWrite _ _ _ => true
  | .swiSet _ _ => true
  | .srcCntSatClear _ _ => true
  | .irqNoTarget _ => true
  | .rtArm _ _ _ => true
  | .rtExpire _ => true
  | .rtDisarm _ _ => true
  | .chkStart _ _ => true
  | .chkData _ _ _ _ => true
  | .chkEnd _ _ => true
  | .mdpOpen route _ => route.wf
  | .mdpIdentify route _ => route.wf
  | .mdpRequest route _ => route.wf
  | .mdpAck route _ => route.wf
  | .mdpClose route _ => route.wf
  | .read _ addr count => addr < 2 ^ 32 && count < 65536
  | .write _ addr values => addr < 2 ^ 32 && values.length < 65536
  | .modify _ addr _ _ => addr < 2 ^ 32
  | .blockRead _ space offset length => space < 256 && offset < 2 ^ 64 && length < 2 ^ 32
  | .blockWrite _ space offset _ => space < 256 && offset < 2 ^ 64
  | .subscribe _ minSev flags first => minSev < 256 && flags < 256 && first < 2 ^ 32
  | .unsubscribe _ => true
  | .attest _ _ => true
  | .enrol _ _ => true
  | .slotWrite _ _ => true
  | .slotClear _ slot => slot < 256
  | .disown _ _ => true
  | .nop _ => true
  | .sessionIdle _ => true
  | .sessionKill _ => true
  | .notifySend _ => true
  | .notifyRetx _ => true
  | .stateNotify _ => true
  | .mpAdmin _ _ _ => true
  | .feedClassChange _ _ => true
  | .feedOver _ _ => true
  | .feedHighTimeout _ => true
  | .feedStageClose _ => true
  | .railFault _ _ => true
  | .hullSag _ => true
  | .powerReqRun _ => true
  | .powerReqTrim _ => true
  | .powerReqKeep _ _ => true
  | .powerReqOff _ _ wake => wake < 2 ^ 14
  | .thermSample readings => readings.length == 8
  | .telemetryRefresh _ => true
  | .ledgerIntake ctrl => ctrl < 2 ^ 32
  | .quietExpire out => out.wf
  | .relCtrlOne _ _ _ => true
  | .relCtrlAll _ => true
  | .safeNTransition _ => true
  | .safeEnter _ => true
  | .safeRelease _ => true
  | .rstNTransition _ => true
  | .hostReset _ _ => true
  | .coderSelfCheckFail _ _ => true
  | .claimStormClear _ => true
  | .raisedCauseClear out cls => out.wf && cls < 65536
  | .processorRestartDone _ => true
  | .quarantineExpire => true
  | .holdLimitReached => true
  | .refInPpsEdge => true
  | .rollStep => true
  | .rollStepSchedule => true
  | .rollHalt => true
  | .bootWriteDone => true
  | .ftRebuildDone => true
  | .ftCopyDone => true
  | .claimGrant => true
  | .heartbeatTx => true
  | .recordsTx => true
  | .heartbeatMiss => true
  | .witnessTimeout => true
  | .witnessRetry => true
  | .switchDeadline => true
  | .pageWrite => true
  | .pageTimeout => true
  | .recWarnLedgerClose => true
  | .recWarnStop => true
  | .safeSealTimeout => true
  | .verifyDone => true
  | .hullLinkLost => true
  | .hullLinkRestored => true
  | .railStart => true
  | .railPowerGood => true
  | .railStartTimeout => true
  | .railRetry => true
  | .sagRelease => true
  | .sagHoldExpire => true
  | .vbusReset => true
  | .vbusResetRelease => true
  | .keepGate => true
  | .wakeTimer => true
  | .thermTrip => true
  | .tripCooled => true
  | .ledgerDeliver => true
  | .mirrorCopy => true
  | .safePinQualify => true
  | .safePinClear => true
  | .responseRun => true
  | .rstPinQualify => true
  | .rstPinRelease => true
  | .hostResetEnter => true
  | .startD0Release => true
  | .bootBankSelect => true
  | .startFirmware => true
  | .startInstall => true
  | .startPorts => true
  | .startSlow => true
  | .spRestartsClear => true
  | .hullAlive => true
  | .hullPowerUp => true
  | .vbusBelow18v => true
  | .noActiveHeartbeat => true
  | .switchoverStamp => true

end Sys2Proof
end

