-- ==== Sys2Proof/Tests/Slice0.lean ====
section
/-!
SUPPORT. Tests of one step each on small states: the numbers and worked examples that the spec prints, ill-formed terms that
WellFormed refuses, and for each statement concrete states and operands that meet its hypotheses, clause by clause.
-/

namespace Sys2Proof.Tests

set_option Elab.async false

open Machine

/-! ## States to test on -/

/-- D0 runs, seeded at 1,000 s, with the output gate open. -/
def live : State := { State.reset with
  clock := { now := 1000000000000, phase2 := some 0, timebase := 65536000000 * 1000000000000, seeded := true }
  startup := { phase := 9, gateOpen := true }
  hull := { rails := 10, linkOk := true } }

/-- With a section in force. -/
def sect (type d t : Nat) (p : List Byte) (s : State) : State :=
  { s with config := { type := type, domain := d, tile := t, payload := p } :: s.config }

/-- Bytes of zero. -/
def zeros (n : Nat) : List Byte := List.replicate n 0

/-- Session 0 is open with the rights READ, WRITE and ADMIN. -/
def logged (s : State) : State := s.setSession 0 { present := true, id := 7, slot := 0, rights := 7 }

/-! ## Witnesses of the hypotheses: time and timing pins -/

/-- Instance 0 on M0 follows a parent of clock identity `c`, with an outstanding two-step Sync; instance 1 on M1 leads. -/
def ptpFrom (c : Nat) : State :=
  ((((sect 0x0102 0 1 ([2, 0, 0, 0] ++ [32, 0, 0, 0, 0, 0, 0, 0] ++ zeros 8 ++ [33, 0, 0, 1, 0, 0, 0, 0] ++ zeros 8) live).setPort 32 { state := .up }).setPort 33
    { state := .up }).modServo fun v => { v with state := .locked }).setInst 0
    { parent := some ⟨BitVec.ofNat 64 c, 1, {}, 0, 0, 0⟩, syncAt := some 0, announceAt := some 0, syncOk := true, pendingSync := some (5, 100, 0) }

theorem witness_PtpFollowersAndLeadersSend :
    (ptpFrom 0).ptpRuns 0 = true ∧ (ptpFrom 0).ptpLeads 0 = false ∧ ((ptpFrom 0).inst 0).parent.isSome = true ∧
    (ptpFrom 0).due (((ptpFrom 0).inst 0).delayAt + (ptpFrom 0).delayInterval 0) = true ∧
    (ptpFrom 0).ptpRuns 1 = true ∧ (ptpFrom 0).ptpLeads 1 = true ∧ (ptpFrom 0).servo.state = .locked ∧
    (ptpFrom 0).due (((ptpFrom 0).inst 1).leadSyncAt + (ptpFrom 0).syncInterval 1) = true ∧
    (ptpFrom 0).due (((ptpFrom 0).inst 1).leadAnnAt + (ptpFrom 0).announceInterval 1) = true := by decide +kernel

/-- Bytes of a PTP message by message type, length, the sender's clock identity and the sequence number; port number 1. -/
def ptpOf (code len c seq : Byte) : List Byte :=
  [code, 2, 0, len] ++ zeros 23 ++ [c, 0, 1, 0, seq] ++ zeros (len.toNat - 32)

/-- A well-formed Follow_Up or Delay_Req of another clock that comes at its rate is taken. -/
theorem sample_taken (s : State) (i : Nat) (m : PtpMsg) (id : BitVec 64) (v : m.version = 2) (d : m.domain = s.ptpField i 2 1)
    (l : m.lengthOk = true) (c : m.clockId = id) (h : Config.clockIdentity i ≠ id) (k : m.kind = .followUp ∨ m.kind = .delayReq)
    (f : s.tooFast i m.kind = false) : s.ptpDiscard i m = none := by
  rcases k with k | k <;> simp only [k] at f <;> simp [State.ptpDiscard, v, ← d, l, c, Ne.symm h, k, f]

/-- Each reason to discard, a Follow_Up of the parent and a Delay_Req to a leader; clockIdentity is open, so one of two senders is not it. -/
theorem witness_PtpMessagesAreTakenOrDiscarded :
    (ptpFrom 0).ptpRuns 0 = true ∧ (ptpRead []).version ≠ 2 ∧
    (ptpRead ([0, 2, 0, 44, 9] ++ zeros 39)).domain ≠ (ptpFrom 0).ptpField 0 2 1 ∧
    (ptpRead (ptpOf 0 43 0 0)).lengthOk = false ∧ (ptpRead (ptpOf 13 44 0 0)).kind = .management ∧
    (ptpRead (ptpOf 2 54 0 0)).kind = .other ∧ (ptpRead (ptpOf 9 54 0 5)).kind = .delayResp ∧
    (¬∃ r ∈ ((ptpFrom 0).inst 0).delayReqs, r.1 = (5 : BitVec 16)) ∧
    (∃ c : Byte, (ptpFrom c.toNat).ptpRuns 1 = true ∧ (ptpFrom c.toNat).ptpDiscard 1 (ptpRead (ptpOf 1 44 c 5)) = none ∧
      (ptpFrom c.toNat).ptpSends 1 = true ∧ (ptpRead (ptpOf 1 44 c 5)).kind = .delayReq) ∧
    (∃ c : Byte, (ptpFrom c.toNat).ptpRuns 0 = true ∧ (ptpFrom c.toNat).ptpDiscard 0 (ptpRead (ptpOf 8 44 c 5)) = none ∧
      (ptpFrom c.toNat).ptpLeads 0 = false ∧ (ptpRead (ptpOf 8 44 c 5)).kind = .followUp ∧
      (ptpFrom c.toNat).isParent 0 (ptpRead (ptpOf 8 44 c 5)) = true ∧
      ((ptpFrom c.toNat).inst 0).pendingSync = some (5, 100, 0) ∧ (ptpRead (ptpOf 8 44 c 5)).seq = 5) := by
  refine ⟨by decide +kernel, by decide +kernel, by decide +kernel, by decide +kernel, by decide +kernel, by decide +kernel,
    by decide +kernel, by decide +kernel, ?_, ?_⟩
  · by_cases h : Config.clockIdentity 1 = (0 : BitVec 64)
    · exact ⟨1, by decide +kernel, sample_taken _ 1 (ptpRead (ptpOf 1 44 1 5)) 1 (by decide +kernel) (by decide +kernel) (by decide +kernel)
        (by decide +kernel) (by rw [h]; decide) (by decide +kernel) (by decide +kernel), by decide +kernel, by decide +kernel⟩
    · exact ⟨0, by decide +kernel, sample_taken _ 1 (ptpRead (ptpOf 1 44 0 5)) 0 (by decide +kernel) (by decide +kernel) (by decide +kernel)
        (by decide +kernel) h (by decide +kernel) (by decide +kernel), by decide +kernel, by decide +kernel⟩
  · by_cases h : Config.clockIdentity 0 = (0 : BitVec 64)
    · exact ⟨1, by decide +kernel, sample_taken _ 0 (ptpRead (ptpOf 8 44 1 5)) 1 (by decide +kernel) (by decide +kernel) (by decide +kernel)
        (by decide +kernel) (by rw [h]; decide) (by decide +kernel) (by decide +kernel), by decide +kernel, by decide +kernel,
        by decide +kernel, by decide +kernel, by decide +kernel⟩
    · exact ⟨0, by decide +kernel, sample_taken _ 0 (ptpRead (ptpOf 8 44 0 5)) 0 (by decide +kernel) (by decide +kernel) (by decide +kernel)
        (by decide +kernel) h (by decide +kernel) (by decide +kernel), by decide +kernel, by decide +kernel,
        by decide +kernel, by decide +kernel, by decide +kernel⟩

theorem witness_LostSourcesLeaveTheSelection :
    ((ptpFrom 0).inst 0).syncAt = some 0 ∧ ((ptpFrom 0).inst 0).syncOk = true ∧ (ptpFrom 0).due (0 + 3 * (ptpFrom 0).syncInterval 0) = true ∧
    ((ptpFrom 0).inst 0).announceAt = some 0 ∧ ((ptpFrom 0).inst 0).parent.isSome = true ∧
    (ptpFrom 0).due (0 + 3 * (ptpFrom 0).announceInterval 0) = true ∧ (ptpFrom 0).running = true := by decide +kernel

/-- The servo in a state since time 0, with and without a source. -/
def servoIn (x : ServoState) (src : Option Source) : State := live.modServo fun v => { v with state := x, source := src }
/-- REF_IN in MODE 2. -/
def ppsIn : State := sect 0x0103 0 6 ([2] ++ zeros 7) live

/-- The same with the last edge at a time, and as the locked source. -/
def ppsAt (t : Nat) : State := { ppsIn with refIn := { lastEdgeAt := t } }
def ppsLocked (t : Nat) : State := (ppsAt t).modServo fun v => { v with state := .locked, source := some .refIn }

theorem witness_ServoTimersAndFlags :
    (servoIn .quarantine (some .refIn)).servo.state = .quarantine ∧ (servoIn .quarantine (some .refIn)).servo.source.isSome = true ∧
    (servoIn .quarantine none).due ((servoIn .quarantine none).servo.quarSince + 16000000000) = true ∧
    (servoIn .quarantine none).servo.source = none ∧ (servoIn .holdover none).servo.state = .holdover ∧
    (servoIn .holdover none).servo.holdLong = false ∧
    (servoIn .holdover none).due ((servoIn .holdover none).servo.heldSince + sec (servoIn .holdover none).holdLimit) = true ∧
    live.running = true ∧ (ppsAt 0).running = true ∧ (ppsAt 0).refMode = 2 ∧
    (ppsAt 0).refIn.lastEdgeAt + 1125000000 < (ppsAt 0).now ∧ (ppsAt 999125000001).now < (ppsAt 999125000001).refIn.lastEdgeAt + 875000000 ∧
    (ppsAt 999125000000).refIn.lastEdgeAt + 875000000 ≤ (ppsAt 999125000000).now ∧
    (ppsAt 998875000000).now ≤ (ppsAt 998875000000).refIn.lastEdgeAt + 1125000000 ∧
    ¬((ppsAt 0).servo.source = some .refIn ∧ (ppsAt 0).servo.state = .locked) ∧
    (ppsLocked 999000000000).servo.source = some .refIn ∧ (ppsLocked 999000000000).servo.state = .locked ∧
    (ppsLocked 999000000000).refIn.lastEdgeAt + 875000000 ≤ (ppsLocked 999000000000).now ∧
    (ppsLocked 999000000000).now ≤ (ppsLocked 999000000000).refIn.lastEdgeAt + 1125000000 := by
  decide +kernel

/-- REF_IN's monitor in a state, with runs of glitched and clean windows. -/
def refIn (x : MonitorState) (g c : Nat) : State := { live with refIn := { state := x, nominal := 100000, glitchRun := g, cleanRun := c } }

theorem witness_ClockMonitorsFollowR35 :
    (refIn .good 7 0).running = true ∧ (refIn .good 7 0).refIn.state = .good ∧
    windowWithin (refIn .good 7 0).refIn.nominal [87500, 112500] = true ∧ windowWithin (refIn .good 7 0).refIn.nominal [112501] = false ∧
    windowWithin (refIn .good 6 0).refIn.nominal [87499] = false ∧ (refIn .good 6 0).refIn.glitchRun < 7 ∧
    7 ≤ (refIn .good 7 0).refIn.glitchRun ∧ (refIn .lost 0 7).refIn.state = .lost ∧ 7 ≤ (refIn .lost 0 7).refIn.cleanRun ∧
    (refIn .acquiring 0 6).refIn.state = .acquiring ∧ (refIn .acquiring 0 6).refIn.cleanRun < 7 ∧
    (live.lane 33).monitor.state ≠ .good ∧ (live.pdm 1).state ≠ .good := by decide +kernel

/-- TIO0 is a ONESHOT output with WIDTH 1,000 ns, TIO7 a capture input: active high, FILTER 0, both edges, CHATTER 1, STUCK 1. -/
def tioPlan : List Byte := [1, 0, 0, 0] ++ leBytes 4 1000 ++ zeros 8 ++ zeros 96 ++ ([2, 13, 0, 0] ++ zeros 4 ++ leBytes 4 1 ++ leBytes 4 1)
def tioState : State := sect 0x0104 0 6 tioPlan live
/-- TIO0 as a PERIODIC output with a period of no tick. -/
def tioPeriodic : State := sect 0x0104 0 6 ([1, 0, 1, 0] ++ leBytes 4 1000 ++ zeros 8) live
/-- The same with a stamp armed that is reached, and a pulse that is due to end. -/
def tioArmed : State := (tioState.setTioPin 0 { armed := some tioState.stamp, pulseEnd := some 1000000000000 })

theorem witness_TioOutputsArmPulseAndEnd :
    tioState.running = true ∧ tioState.tioMode 0 = 1 ∧ tioState.tioKind 0 ≤ 1 ∧ tioState.startup.gateOpen = true ∧
    (let a : Stamp := (0x7F00 : Word) ++ tioState.reg (R.tio_ARM_LO 0)
     ¬(stampDiff a tioState.stamp * (tioState.mode.fd * 1000000000 : Nat) < (1000 * tioState.mode.lines * tioState.mode.fn * 65536 : Nat)) ∧
     ¬(tioState.tioKind 0 = 1)) ∧
    (let a : Stamp := (0 : Word) ++ tioState.reg (R.tio_ARM_LO 0)
     stampDiff a tioState.stamp * (tioState.mode.fd * 1000000000 : Nat) < (1000 * tioState.mode.lines * tioState.mode.fn * 65536 : Nat)) ∧
    (tioPeriodic.tioKind 0 = 1 ∧ widthReaches tioPeriodic.mode (tioPeriodic.tioTimeA 0) (tioPeriodic.reg (R.tio_PERIOD_TICKS 0)).toNat = true) ∧
    tioArmed.clock.seeded = true ∧ (tioArmed.tioPin 0).armed = some tioState.stamp ∧ tioArmed.reached tioState.stamp = true ∧
    (tioArmed.tioPin 0).held = false ∧ tioArmed.allHeld = false ∧ (tioArmed.tioPin 0).pulseEnd = some 1000000000000 ∧
    tioArmed.due 1000000000000 = true := by decide +kernel

/-- A transition of TIO7 waits, another capture and the active level stand. -/
def tioWaits : State := tioState.setTioPin 7 { raw := true, qualifying := true, rawAt := 0, activeSince := some 1, fifo := [⟨3, true⟩] }

theorem witness_TioInputsQualifyAndCapture :
    tioState.tioMode 7 = 2 ∧ true ≠ (tioState.tioPin 7).raw ∧ false ≠ (tioWaits.tioPin 7).raw ∧ (tioWaits.tioPin 7).qualifying = true ∧
    tioWaits.due ((tioWaits.tioPin 7).rawAt + tioWaits.tioTimeA 7) = true ∧ (tioWaits.tioPin 7).quarantined = false ∧
    ((tioWaits.tioPin 7).edges.filter fun e => tioWaits.now < e + 1000000).length + 1 ≤ tioWaits.tioChatter 7 ∧
    bit (tioWaits.tioFlags 7) 2 = true ∧ (tioWaits.tioPin 7).fifo.length < 16 ∧
    (let s := tioWaits.modTioPin 7 fun p => { p with edges := List.replicate (tioWaits.tioChatter 7) tioWaits.now }
     s.tioChatter 7 < ((s.tioPin 7).edges.filter fun e => s.now < e + 1000000).length + 1) := by decide +kernel

theorem witness_StuckInputsFollowR46 :
    tioWaits.running = true ∧ tioWaits.tioMode 7 = 2 ∧ (tioWaits.tioPin 7).activeSince = some 1 ∧ 0 < tioWaits.tioTimeB 7 ∧
    1 + ms (tioWaits.tioTimeB 7) < tioWaits.now ∧ (tioWaits.tioPin 7).stuck = false ∧
    ((tioWaits.modTioPin 7 fun p => { p with stuck := true }).tioPin 7).stuck = true ∧ (tioWaits.tioPin 7).qualifying = true ∧
    (tioWaits.tioPin 7).raw = bit (tioWaits.tioFlags 7) 0 := by decide +kernel

/-- TIO7 quarantined with its last edge at a time; TIO0 held with the servo LOCKED. -/
def tioQuiet (t : Nat) : State := tioState.setTioPin 7 { quarantined := true, lastEdgeAt := t }
def tioHeld : State := ((tioState.setTioPin 0 { held := true }).modServo fun v => { v with state := .locked })

theorem witness_TioControlsFromSoftware :
    (tioQuiet 999990000000).running = true ∧ ((tioQuiet 0).tioPin 7).held = false ∧ ((tioQuiet 0).tioPin 7).quarantined = true ∧
    (tioQuiet 999990000000).due (((tioQuiet 999990000000).tioPin 7).lastEdgeAt + 10000000) = true ∧
    (tioQuiet 999990000001).due (((tioQuiet 999990000001).tioPin 7).lastEdgeAt + 10000000) = false ∧
    (tioHeld.tioPin 0).held = true ∧ tioHeld.standing (.tio 0) = [] ∧ tioHeld.servo.state = .locked ∧ tioHeld.allHeld = false ∧
    (tioWaits.tioPin 7).fifo = ⟨3, true⟩ :: [] ∧ (tioHeld.tioPin 0).fifo = [] := by decide +kernel

/-! ## Witnesses: images, firmware, lanes, ports and flows -/

/-- Slot 0 in a state; slot 1 empty. -/
def slotIn (x : SlotState) : State := live.modIm fun m => { m with slot0 := { state := x } }
/-- A commit that pins slot 0. -/
def slotUsed : State := live.modCommits fun m => { m with live := [{ ticket := 3, stamp := 0, slot := some 0 }] }

theorem witness_StagingSlotsAreCheckedAndCleared :
    live.running = true ∧ (1 : Fin 2) ≠ 0 ∧ (live.imgSlot 0).state ≠ .checking ∧ live.slotPinned 0 = false ∧
    ((slotIn .checking).imgSlot 0).state = .checking ∧ slotUsed.slotPinned 0 = true ∧ (Agent.tc 0).isCore = true ∧
    ((slotIn .checking).checkImage ((slotIn .checking).imgSlot 0).bytes).isSome = true := by decide +kernel

/-- The floor may rise to 5; bank A is valid; a FULL image stands VALID in slot 0. -/
def bootState : State := (logged live).modIm fun m => { m with
  runRollback := 5, bankA := { state := .valid }, slot0 := { state := .valid, bytes := zeros 6 ++ [1] } }

theorem witness_FloorStagedWritesAndBootStore :
    bootState.running = true ∧ bootState.adminWrite (.session 0) = true ∧ bootState.im.floor.toNat < (5 : Word).toNat ∧
    (5 : Word).toNat ≤ bootState.im.runRollback.toNat ∧ ¬((6 : Word).toNat ≤ bootState.im.runRollback.toNat) ∧
    (bootState.session 0).present = true ∧ stagedRegister (R.ptp_ASYM_NS 5) = true ∧ stagedInRange 100000 = true ∧
    (bootState.session 0).staged.length < 256 ∧
    256 ≤ ((bootState.modSession 0 fun x => { x with staged := List.replicate 256 ⟨0, 0⟩ }).session 0).staged.length ∧
    bootState.im.bootWrite = none ∧ ¬(bootState.bootRuns = true ∧ bootState.im.startedFrom = true ∧ (bootState.bank false).state ≠ .valid) ∧
    (bootState.bootRuns = true ∧ bootState.im.startedFrom = false ∧ (bootState.bank true).state ≠ .valid) ∧ live.adminWrite (.session 0) = false ∧ (bootState.imgSlot 0).state = .valid ∧
    (imageOf (bootState.imgSlot 0).bytes).kind = 1 ∧ (bootState.modIm fun m => { m with bootWrite := some (true, []) }).im.bootWrite = some (true, []) ∧
    (bootState.bank false).state = .valid ∧ (bootState.bank true).state ≠ .valid := by decide +kernel

/-- Session 0 asks for a commit of its staged writes, at the earliest stamp that is allowed. -/
def issuing : State :=
  let a := (logged live).stamp + BitVec.ofNat 64 live.minLead
  (((logged live).setLatch (.session 0) R.im_CMT_SLOT 15).setLatch (.session 0) R.im_CMT_STAMP_HI (a.extractLsb' 32 32)).setLatch (.session 0)
    R.im_CMT_STAMP_LO (a.extractLsb' 0 32)
/-- What ISSUE of session 0 reads, and the state in which its checks are made. -/
def asked : Issue := issuing.issue 0
def askedIn : State :=
  (issuing.modCommits fun m => { m with nextTicket := m.nextTicket + 1 }).setLatch (.session 0) R.im_CMT_TICKET (w32 asked.commit.ticket)
/-- The same with CMT_SLOT 1, which is EMPTY. -/
def askedEmpty : Issue := (issuing.setLatch (.session 0) R.im_CMT_SLOT 1).issue 0
/-- One commit of staged writes, in a state, `lead` ticks ahead; the second waits for a tile, the third is a PARTIAL of another base. -/
def commitAt (x : CommitState) (lead : Nat) : Commit := { ticket := 3, stamp := live.stamp + BitVec.ofNat 64 lead, state := x }
def commitsOf (c : Commit) : State := live.modCommits fun m => { m with live := [c], tickets := [⟨3, c.state, 0⟩] }
def commitIn (x : CommitState) (lead : Nat) : State := commitsOf (commitAt x lead)
def otherBase : Commit := { commitAt .ready 0 with slot := some 0, image := { baseId := 9 } }

theorem witness_CommitsAreIssuedCancelledAndApplied :
    issuing.running = true ∧ askedIn.badSlot asked = none ∧ askedIn.badRole asked.commit = none ∧ badRoll asked.commit = none ∧
    askedIn.badLead asked.commit = none ∧ issuing.commits.live.length < 63 ∧ askedIn.lateChecks asked.commit = none ∧
    askedIn.badSlot askedEmpty ≠ none ∧ askedEmpty.slotNo ≠ 15 ∧ ¬(askedEmpty.slotNo < 2 ∧ (issuing.imgSlot askedEmpty.slotNo).state = .valid) ∧
    (commitIn .ready 1000000000).commitOf 3 = some (commitAt .ready 1000000000) ∧
    (commitIn .ready 1000000000).reached ((commitIn .ready 1000000000).goStamp (commitAt .ready 1000000000)) = false ∧
    (commitIn .go 0).commitOf 3 = some (commitAt .go 0) ∧
    (commitIn .ready 0).reached ((commitIn .ready 0).goStamp (commitAt .ready 0)) = true ∧ (commitIn .accepted 0).commitOf 3 = some (commitAt .accepted 0) ∧
    (commitIn .accepted 0).reached ((commitIn .accepted 0).goStamp (commitAt .accepted 0)) = true ∧
    ((commitAt .ready 0).roll = false ∧ (commitAt .ready 0).start = false ∧ badBase (commitIn .ready 0).im.configId (commitAt .ready 0) = none ∧
      (commitIn .ready 0).badRole (commitAt .ready 0) = none ∧ (commitIn .ready 0).badOwner (commitIn .ready 0).config (commitAt .ready 0) = none) ∧
    ((commitsOf otherBase).commitOf 3 = some otherBase ∧ otherBase.start = false ∧ badBase (commitsOf otherBase).im.configId otherBase ≠ none ∧
      (commitsOf otherBase).reached ((commitsOf otherBase).goStamp otherBase) = true) ∧
    ((commitIn .go 0).commits.live.filter fun x => x.stamp == live.stamp && x.state == .go) = [commitAt .go 0] ∧
    (commitIn .go 0).reached live.stamp = true := by
  decide +kernel

/-- Tile (5, 0) ripens since time 0; commit 3 waits for it. -/
def ripens : State := (live.setTile (tileNo 5 0) { state := .ripening }).modCommits fun m => { m with live := [{ ticket := 3, stamp := 0, waiting := [tileNo 5 0] }] }
def ripensAlone : State := live.setTile (tileNo 5 0) { state := .ripening }
/-- No channel of `live` waits for a coder. -/
theorem witness_nobody_waits : ∀ k, (ripensAlone.rind k).waits = none := fun _ => rfl

/-- Channel 0 on coder 0 of the old plane; coders 1 and 2 are ripe, coder 1 on the new plane. -/
def rolling (next : Option Stamp) (stalled : Option Nat) : State :=
  { (((live.setRind 0 { coder := some 0 }).setCoder 1 { state := .ripe, content := [9] }).setCoder 2 { state := .ripe }) with roll :=
    { active := true, nextStep := next, stalled := stalled, lastStep := live.stamp - 0x100000000,
      sections := [{ type := 0x0404, domain := 2, tile := 0, payload := [8] }, { type := 0x0404, domain := 2, tile := 1, payload := [9] }] } }

theorem witness_RipeningRollsAndShadowsReport :
    coderOf 5 0 = none ∧ (ripens.tile (tileNo 5 0)).state ≠ .gated ∧ (ripens.tile (tileNo 5 0)).ripeFrom ≤ ripens.now ∧
    (ripens.commits.live.find? fun c => c.waiting.contains (tileNo 5 0)) = some { ticket := 3, stamp := 0, waiting := [tileNo 5 0] } ∧
    ripens.commitOf 3 = some { ticket := 3, stamp := 0, waiting := [tileNo 5 0] } ∧
    ripensAlone.running = true ∧ (ripensAlone.tile (tileNo 5 0)).state = .ripening ∧ (∀ c ∈ ripensAlone.commits.live, tileNo 5 0 ∉ c.waiting) ∧
    ripensAlone.heldByCommit 5 0 = false ∧ ripensAlone.hull.state ≠ .trim ∧
    ({ ripens with ft := { ripens.ft with rebuilding := some 3 } } : State).ft.rebuilding = some 3 ∧
    (rolling none none).roll.active = true ∧ (rolling none none).rollNext = some (0, 0) ∧ 2 ≤ (rolling none none).ripeSpares.length ∧
    (rolling none none).reached ((rolling none none).roll.lastStep + BitVec.ofNat 64 (ticksUp live.mode (ms (rolling none none).roll.gap)) - BitVec.ofNat 64 live.minLead) = true ∧
    (rolling (some live.stamp) none).reached live.stamp = true ∧ (rolling (some live.stamp) none).newSpare = some 1 ∧
    (rolling none (some 0)).due (0 + sec 1) = true ∧ 0 < (rolling none (some 0)).rollRemaining := by decide +kernel

/-- The firmware of kind 0 runs unconfirmed and must report by time 0; the other three tending cores are alive. -/
def newFw (phase : Nat) : State :=
  let s := (live.modIm fun m => { m with fwTc := { running := [1], old := [2], unconfirmed := true, swapping := true, aliveBy := some 0 } }).modStartup
    fun x => { x with phase := phase }
  [1, 2, 3].foldl (fun s n => s.modTc n fun p => { p with alive := true }) s

theorem witness_FirmwareIsConfirmedRevertedAndReported :
    (newFw 4).running = true ∧ (newFw 4).adminWrite .sp = true ∧ ((newFw 9).fw 0).unconfirmed = true ∧ ((newFw 9).fw 1).unconfirmed = false ∧
    ((newFw 9).fw 0).aliveBy = some 0 ∧ (newFw 9).due 0 = true ∧ (newFw 9).startup.phase ≠ 4 ∧ (newFw 4).startup.phase = 4 ∧
    (∀ q : Fin 4, q ≠ 0 → ((newFw 9).tc q.val).alive = true) := by decide +kernel

/-- M1 in bring-up in a step since a time, its lane in a state. -/
def since (t step : Nat) (x : LaneState) : State :=
  (live.setPort 33 { state := .bringup, admin := true, step := step, stepSince := t }).setLane 33 { state := x }
/-- The same since 5 ms, which is the limit of steps 1 and 4. -/
def bringing (step : Nat) (x : LaneState) : State := since 999995000000 step x
/-- Its lane LOCKED with a low FOM since time 0. -/
def lowFom (logged : Bool) : State := (live.setPort 33 { state := .up, admin := true }).setLane 33
  { state := .locked, lowSince := some 0, badSince := some 0, lowLogged := logged }

theorem witness_LanesComeUpStepByStep :
    (bringing 1 .signal).bringing 33 = true ∧ ((bringing 1 .signal).lane 33).state = .signal ∧ (bringing 3 .adapting).bringing 33 = true ∧
    ((bringing 3 .adapting).lane 33).state = .adapting ∧ (since 999994999999 1 .signal).bringing 33 = false ∧
    (bringing 4 .locked).trying 33 = true ∧ ((bringing 4 .locked).port 33).step = 4 ∧ (since 999994999999 4 .locked).trying 33 = false ∧
    ((lowFom true).lane 33).state = .locked ∧ (lowFom true).running = true ∧
    ((lowFom true).lane 33).lowSince = some 0 ∧ (lowFom true).due (0 + ms 100) = true ∧ ((lowFom false).lane 33).lowLogged = false ∧
    ((lowFom true).lane 33).lowLogged = true := by decide +kernel

/-- M1 is down after a failed attempt at time 0, its module present. -/
def downPort : State := (live.setPort 33 { state := .down, admin := true, backoff := some (7, 936000000000) }).setOptic 5 { present := true }
/-- M1 in the last try of an attempt. -/
def lastTry (preset : Nat) : State := live.setPort 33 { state := .bringup, step := 2, stepSince := 0, preset := preset }
/-- Group G0 has one port of MTU 64 at 10.0.0.1, whose ADMIN is a value and whose state is another. -/
def mediaPort (admin : Bool) (x : PortState) : State :=
  (sect 0x0201 1 0 (zeros 16 ++ ([3, 0, 64, 0] ++ [2, 0, 0, 0, 0, 1] ++ [0, 0] ++ [10, 0, 0, 1] ++ zeros 16)) live).setPort 0 { state := x, admin := admin }

theorem witness_PortsAreTriedAndComeUp :
    (bringing 5 .locked).trying 33 = true ∧ ((bringing 5 .locked).port 33).step = 5 ∧
    (bringing 5 .locked).due (max ((bringing 5 .locked).port 33).stepSince ((bringing 5 .locked).port 33).faultAt + ms 1) = true ∧
    ((lastTry 2).port 33).state = .bringup ∧ ((lastTry 2).port 33).preset < 3 ∧ 3 ≤ ((lastTry 3).port 33).preset ∧
    (lastTry 3).due (((lastTry 3).port 33).stepSince + ms (stepLimit 33 ((lastTry 3).port 33).step)) = true ∧
    (downPort.port 33).backoff = some (7, 936000000000) ∧ downPort.due (936000000000 + 1000000000 * min (2 ^ (7 - 1)) 64) = true ∧
    (downPort.port 33).state = .down ∧ downPort.mayAttempt 33 = true ∧ (live.port 33).state ≠ .down ∧ (mediaPort true .up).running = true ∧
    (mediaPort true .up).portExists 0 = true ∧ ((mediaPort true .up).port 0).admin = true ∧
    ((mediaPort false .disabled).port 0).admin = false := by decide +kernel

/-- The media port with codewords seen just now, and clean for 10 s. -/
def dirty (n : Nat) : State := (mediaPort true .up).modPort 0 fun p => { p with uncorr := List.replicate n 1000000000000, cleanSince := some 990000000000 }

theorem witness_UpPortsGoDown :
    ((lowFom true).port 33).state = .up ∧ (lowFom true).portOfLane 33 = 33 ∧ ((lowFom true).lane 33).badSince = some 0 ∧ (lowFom true).due (0 + ms 1) = true ∧
    (live.port 33).state ≠ .up ∧ ((dirty 14).port 0).state = .up ∧
    1 + (((dirty 14).port 0).uncorr.filter fun b => (dirty 14).now < b + ms 1).length < 16 ∧ 16 < [1].sum * 10000 ∧ [0].sum * 100000 < 1 ∧
    ((dirty 0).port 0).cleanSince = some 990000000000 ∧ (dirty 0).due (990000000000 + sec 10) = true := by decide +kernel

/-- Bus 5 with a module, ready or to be polled; its port is down or enabled. -/
def bus (o : Optic) (admin : Bool) : State := ((live.setOptic 5 o).setPort 33 { state := .down, admin := admin }).setReg (R.opt_OPT_CTRL 5) 2

theorem witness_LaneControlsAndOpticsBuses :
    (bus {} true).running = true ∧ (2 : Fin 4).val ≠ 0 ∧ ((bus {} true).port ((bus {} true).portOfLane 33)).admin = true ∧
    ((bus {} false).port ((bus {} false).portOfLane 33)).admin = false ∧ ((bus { present := true } true).optic 5).present = true ∧
    ((bus {} true).optic 5).present = false ∧ ((bus { present := true, insertedAt := some 0 } true).optic 5).insertedAt = some 0 ∧
    (bus { present := true, insertedAt := some 0 } true).due (0 + sec 5) = true ∧ (1 : Fin 4).val ≠ 3 ∧ (0 : Fin 4).val = 0 ∧
    (bus { present := true } true).optPolls 5 = true ∧ ((bus { present := true } true).optic 5).stuck = false ∧
    ((bus { present := true } true).optic 5).busy = false ∧
    (bus { present := true, pollAt := 999900000000 } true).due (((bus { present := true, pollAt := 999900000000 } true).optic 5).pollAt + ms 100) = true ∧
    ({ present := true, ready := true, flags := [1, 2] } : OpticReading).present = ((bus { present := true } true).optic 5).present ∧
    ((bus { busy := true } true).optic 5).busy = true ∧ ((bus { stuck := true } true).optic 5).stuck = true := by decide +kernel

/-- A UDP packet from 10.0.0.2 to port 5000 of 10.0.0.1, and an ARP request for 10.0.0.1, in frames of 64 bytes with their FCS. -/
def udpFrame : List Byte :=
  List.replicate 6 0xFF ++ [2, 0, 0, 0, 0, 2] ++ [8, 0] ++
  ([0x45, 0, 0, 46, 0, 0, 0, 0, 64, 17, 0, 0, 10, 0, 0, 2, 10, 0, 0, 1] ++ [0x10, 0, 0x13, 0x88, 0, 26, 0, 0] ++ zeros 18)
def arpFrame : List Byte :=
  List.replicate 6 0xFF ++ [2, 0, 0, 0, 0, 2] ++ [8, 6] ++
  ([0, 1, 8, 0, 6, 4, 0, 1] ++ [2, 0, 0, 0, 0, 2, 10, 0, 0, 2] ++ zeros 6 ++ [10, 0, 0, 1]) ++ zeros 18
/-- The packet as it is read. -/
def udpRead : Udp := ((ipOf udpFrame).bind udpOf).getD ⟨0, 0, 0, 0, [], []⟩
/-- The flow table in service, with the ring flow 5 of that packet, and its ring of 16 descriptors, of which the first is free. -/
def flows : State := (mediaPort true .up).setTile (tileNo 1 8) { state := .inService }
def ringEntry : FtEntry := { valid := true, dst := udpRead.dst, src := udpRead.src, dport := udpRead.dport, kind := 3, ports := 1, target := 5 }
def ringFlow : State := (({ flows with ft := { bank0 := bankPut [] (keyH0 ringEntry.key) ringEntry } } : State).setReg (R.ring_RING_SIZE 5) 4).setReg (R.ring_RING_TAIL 5) 1

theorem witness_FramesAreCountedAnsweredAndDelivered :
    flows.running = true ∧ (flows.port 0).state = .up ∧ 64 ≤ udpFrame.length + 4 ∧ udpFrame.length + 4 ≤ flows.portMtu 0 ∧
    flows.takesMac 0 (be udpFrame 0 6) = true ∧ (udpFrame.take 59).length + 4 < 64 ∧ flows.portMtu 0 < (udpFrame ++ [0]).length + 4 ∧
    flows.takesMac 0 5 = false ∧ helperFrame arpFrame = true ∧ (flows.ownAnswer 0 arpFrame).isSome = true ∧ flows.carriesCurds 0 = false ∧
    ¬((flows.port 0).answers.1 = flows.now / 1000000000 ∧ 1000 ≤ (flows.port 0).answers.2) ∧
    ((flows.modPort 0 fun x => { x with answers := (1000, 1000) }).port 0).answers = (flows.now / 1000000000, 1000) ∧ helperFrame udpFrame = false ∧ queryOf udpFrame = none ∧ ((ipOf udpFrame).bind udpOf).isSome = true ∧
    flows.isPtp 0 udpRead = false ∧ udpRead.dport ≠ 47810 ∧ flows.pairPorts.contains 0 = false ∧ flows.inService 1 8 = true ∧
    flows.flowLookup udpRead.dst udpRead.src udpRead.dport 0 = none ∧ bit (flows.reg R.ft_FT_CTRL).toNat 0 = false ∧
    ringFlow.flowLookup udpRead.dst udpRead.src udpRead.dport 0 = some (keyH0 ringEntry.key) ∧ (ringFlow.ftEntry (keyH0 ringEntry.key)).kind = 3 ∧
    ringFlow.ringSlots 5 ≠ 0 ∧
    (ringFlow.reg (R.ring_RING_HEAD 5)).toNat ≠ (ringFlow.reg (R.ring_RING_TAIL 5)).toNat % ringFlow.ringSlots 5 := by decide +kernel

/-- The window of the safety pair holds a flow of a KIND to address 0. -/
def window (kind : Word) (e : List (Nat × FtEntry)) : State :=
  ({ flows with ft := { bank0 := e.foldl (fun b x => bankPut b x.1 x.2) [] } } : State).setLatch .sp (R.ft_FT_DATA 8) (kind <<< 24)
def flow0 : FtEntry := { readEntry ((window 3 []).ftWindow .sp) with valid := true }

/-- The same with the background copy running, and the shadow bank holding the flow, full or empty. -/
def copying (e b : List (Nat × FtEntry)) : State :=
  let w := window 3 e
  { w with ft := { w.ft with copying := true, bank1 := b.foldl (fun m x => bankPut m x.1 x.2) [] } }
/-- Both candidate places of the flow's key are taken. -/
def taken2 : List (Nat × FtEntry) := [(keyH0 flow0.key, ringEntry), (keyH1 flow0.key, ringEntry)]

theorem witness_FlowTableIsWrittenReadAndCopied :
    (window 3 []).running = true ∧ (window 3 []).inService 1 8 = true ∧ hostKind (readEntry ((window 2 []).ftWindow .sp)).kind = false ∧
    (readEntry ((window 2 []).ftWindow .sp)).kind = 2 ∧ hostKind flow0.kind = true ∧ flow0.kind ≠ 1 ∧ flow0.kind ≠ 2 ∧
    (window 3 []).portsExist flow0.ports = true ∧ (window 3 []).portsExist 2 = false ∧
    bankFind ((window 3 [(keyH0 flow0.key, flow0)]).ft.bankOf false) flow0.key = some (keyH0 flow0.key) ∧
    hostKind (bankGet ((window 3 [(keyH0 flow0.key, flow0)]).ft.bankOf false) (keyH0 flow0.key)).kind = true ∧
    hostKind (bankGet ((window 3 [(keyH0 flow0.key, { flow0 with kind := 1 })]).ft.bankOf false) (keyH0 flow0.key)).kind = false ∧
    bankFind ((window 3 []).ft.bankOf false) flow0.key = none ∧ bankRoom ((window 3 []).ft.bankOf false) flow0.key = some (keyH0 flow0.key) ∧
    (let full := (window 3 taken2).ft.bankOf false; bankFind full flow0.key = none ∧ bankRoom full flow0.key = none) ∧
    (window 3 []).ftBoth = false ∧ (copying [] []).ftBoth = true ∧ (bankAdd ((copying [] []).ft.bankOf true) flow0).isSome = true ∧
    bankAdd ((copying [] taken2).ft.bankOf true) flow0 = none ∧ (copying [] []).ft.copying = true ∧ (0 : Word).toNat % 32 = 0 ∧
    4 ≤ (4 : Word).toNat % 32 ∧ (16 : Word).toNat % 32 ≤ 16 ∧ (window 3 []).ringSlots 5 = 0 ∧ (1 : Word).toNat % 32 ≠ 0 ∧
    (3 : Word).toNat % 32 < 4 ∧ 16 < (17 : Word).toNat % 32 ∧ ringFlow.ringSlots 5 ≠ 0 := by
  decide +kernel
/-! ## Witnesses: ingress, surfaces, coders, sparing and the pair -/

/-- CHANNEL of channel 0: enabled, 4:2:2 8-bit, V 16, 32 x 2 at 60 Hz, one stripe and curd of 32 pixels, QMAX 6, no skip. -/
def chPlan : List Byte :=
  [1, 0, 1, 16] ++ leBytes 2 32 ++ leBytes 2 2 ++ leBytes 2 60 ++ leBytes 2 1 ++ leBytes 2 32 ++ [0, 6] ++ leBytes 2 0 ++ leBytes 2 1000 ++
  leBytes 2 32 ++ zeros 6 ++ leBytes 4 1000000000 ++ zeros 12
/-- Channel 0 codes; channel 1 has no plan. -/
def coding : State := live.setChan 0 { state := .coding, plan := chPlan }
/-- Surface 3 of 32 x 2 with SKEW_US 150 and CLOSE_MS 10, in an ingress tile's plan. -/
def surfState (x : Surface) : State :=
  (sect 0x0304 1 4 ([1, 0, 0, 0] ++ (leBytes 2 3 ++ [0, 16] ++ leBytes 2 32 ++ leBytes 2 2 ++ [0, 1] ++ leBytes 2 32 ++ leBytes 2 32 ++ zeros 6 ++
    leBytes 2 96 ++ [1, 150] ++ leBytes 4 0 ++ leBytes 2 10 ++ zeros 2)) live).setSurface 3 x
/-- A flow entry of a KIND and target for path B. -/
def withPathB (kind target : Nat) (s : State) : State :=
  { s with ft := { bank0 := bankPut [] 9 { valid := true, kind := kind, target := target, pathB := true } } }
/-- A path that delivers now. -/
def fresh : PathWatch := { last := some 1000000000000, ok := true }

theorem witness_InputTimeoutsOfChannelsAndPaths :
    coding.running = true ∧ coding.chanOn 0 = true ∧ coding.startup.gateOpen = true ∧ (coding.chIn 0).lossStands = false ∧
    coding.due (max (coding.chIn 0).watchFrom ((coding.chIn 0).lastAccept.getD 0) + 2 * coding.chanPeriod 0) = true ∧ 
    coding.sends = true ∧ (coding.chan 0).state ≠ .off ∧
    (let s := coding.setChIn 0 { frame := some ⟨0, 4, 0, 0, 0, false, 0, [], 0, [], []⟩, lastAccept := some 0, merge := { missing := [⟨5, 0, false, false⟩] } }
     (s.chIn 0).frame = some ⟨0, 4, 0, 0, 0, false, 0, [], 0, [], []⟩ ∧ (s.chIn 0).lastAccept = some 0 ∧ s.due (0 + us (s.gapUs 0)) = true ∧
     ((s.chIn 0).merge.missing.find? fun y => y.seq == 5) = some ⟨5, 0, false, false⟩ ∧
     s.due (0 + us (s.skewUs 0)) = true) ∧
    (let s := surfState { merge := { missing := [⟨5, 0, false, false⟩] } }
     (s.surfPlan 3).isSome = true ∧ ((s.surface 3).merge.missing.find? fun y => y.seq == 5) = some ⟨5, 0, false, false⟩ ∧ s.due (0 + us 150) = true) ∧
    (let s := withPathB 1 0 (coding.setChIn 0 { pathA := fresh })
     s.chanMerged 0 = true ∧ (s.chIn 0).pathB.silent (s.chIn 0).pathA (s.chIn 0).merge.startAt s.now = true) ∧
    (let s := withPathB 1 0 (coding.setChIn 0 { pathB := fresh })
     (s.chIn 0).pathA.silent (s.chIn 0).pathB (s.chIn 0).merge.startAt s.now = true) ∧
    (let s := withPathB 2 3 (surfState { pathA := fresh })
     (s.surface 3).pathB.silent (s.surface 3).pathA (s.surface 3).merge.startAt s.now = true) ∧
    (let s := withPathB 2 3 (surfState { pathB := fresh })
     s.surfMerged 3 = true ∧ (s.surface 3).pathA.silent (s.surface 3).pathB (s.surface 3).merge.startAt s.now = true) := by decide +kernel

/-- Surface 3 with frame 7 in progress; slot 5 holds a version of it. -/
def openFrame (trigger first : Option Nat) : State :=
  surfState { frames := [{ number := 7, trigger := trigger, firstAt := first, written := [5] }], slots := [(5, { a := some { frame := 7 } })],
              claim := some 4, lastAt := some 0 }

theorem witness_SurfaceFramesCloseAndWritesAreUndone :
    ((openFrame (some 0) none).surfPlan 3).isSome = true ∧
    ((openFrame (some 0) none).surface 3).frames.find? (fun x => x.number == 7) = some { number := 7, trigger := some 0, written := [5] } ∧
    (openFrame (some 0) none).due (0 + us 150) = true ∧
    ((openFrame none (some 0)).surface 3).frames.find? (fun x => x.number == 7) = some { number := 7, firstAt := some 0, written := [5] } ∧
    (openFrame none (some 0)).due (0 + ms 10) = true ∧ (openFrame none (some 0)).running = true ∧
    ((({ number := 7, firstAt := some 0, written := [5] } : SurfFrame).written).contains 5 = true) ∧
    ((((openFrame none (some 0)).surface 3).slot 5).tagged 7).isSome = true ∧ (openFrame none none).rate F.MEM_WRITE_DROP.code 0 = none ∧
    (∃ r, ((openFrame none none).logRated F.MEM_WRITE_DROP 0 R.mem 0 (fun _ => [])).rate F.MEM_WRITE_DROP.code 0 = some r ∧
      (openFrame none none).now < r.lastAt + sec 1) ∧
    ((openFrame none none).surface 3).claim = some 4 ∧ ((openFrame none none).surface 3).lastAt = some 0 ∧
    (openFrame none none).due (0 + ms (if (openFrame none none).hasSection 0x0501 4 8 then (openFrame none none).claimField 4 2 else 2000)) = true := by
  decide +kernel

/-- A whole curd of 16 grey units of line `n` of channel 0 on coder 0, and what the press chooses for it. -/
def grey : List (List Int) := List.replicate 16 [100, 128, 100, 128]
def waiting (n : Nat) : Job :=
  { frame := 0, line := n, stripe := 0, k := 0, units := 16, source := grey, lastAt := 0, lastStamp := 0, done := true, coder := 0 }
def dealt (n : Nat) : Job := { waiting n with lane := some 0 }
def taken : Job := { waiting 0 with lane := some 0, takenAt := some 0, restart := true, qb := 3 }
def withJob (j : Job) : State := coding.modChan 0 fun x => { x with jobs := [j] }
/-- The curd above line 1 was coded and stands in the column's store, or not. -/
def below (stored : Bool) : State :=
  ((withJob (dealt 1)).modChan 0 fun x => { x with last := [(0, some (0, 0, 1))] }).setCoder 0 { store := if stored then [(0, (0, 0, grey))] else [] }
/-- The line record of line 0. -/
def line0 : MirrorRec :=
  { kind := 1, channel := 0, claim := 0, line := 0, frame := 0, n := 0, d := 0, qNext := [], closed := true,
    entries := [{ column := 0, void := false, qNext := 0, dAfter := 0, record := [] }] }
/-- Line 1 is line T of a takeover, in a restart row or not; the line record of line 0 is kept. -/
def takeover (restart : Bool) : State :=
  (below false).setRind 0 { coder := some 0, takeLine := 1, restartRow := restart, ls0 := some line0 }
def choice : Option Winner :=
  let a := coding.pressPlan 0
  chooseWinner (curdBound a.geom.fmt 16) (a.allowance 0 0 0 0) (a.candidates 0 0 0 3 true none grey)
def chosen : Winner := choice.getD ⟨0, false, false, false, [], []⟩
/-- Line 1 is selected and its verdict is near, late, or owed. -/
def judged (lastAt : Nat) (owed : Bool) : Job :=
  { waiting 1 with lane := some 1, restart := true, lastAt := lastAt, winner := some chosen, selectedAt := some 0, owed := owed }

/-- The curd that a lane takes next. -/
def nextCurd (s : State) : Option Job :=
  ((s.deal 0 true).chan 0).jobs.find? fun j => j.lane == some 0 && j.takenAt.isNone && !j.source.isEmpty

theorem witness_CurdsAreTakenSelectedAndJudged :
    (nextCurd (withJob (waiting 0)) = some (dealt 0) ∧ restartPos (((withJob (waiting 0)).underPlan 0 0).chanV 0) 0 0 = true) ∧
    (nextCurd (withJob (dealt 1)) = some (dealt 1) ∧ restartPos (((withJob (dealt 1)).underPlan 0 0).chanV 0) 1 0 = false ∧
      ((withJob (dealt 1)).deal 0 true).atTakeover 0 (dealt 1) = false ∧ ((withJob (dealt 1)).deal 0 true).aboveDone 0 (dealt 1) = none) ∧
    (nextCurd (below true) = some (dealt 1) ∧ ((below true).deal 0 true).aboveDone 0 (dealt 1) = some 1 ∧
      (((below true).deal 0 true).coder 0).store.get (fun _ => (0, 0, [])) 0 = (0, 0, grey)) ∧
    (nextCurd (below false) = some (dealt 1) ∧ ((below false).deal 0 true).atTakeover 0 (dealt 1) = false ∧
      ((below false).deal 0 true).aboveDone 0 (dealt 1) = some 1 ∧
      (((below false).deal 0 true).coder 0).store.get (fun _ => (0, 0, [])) 0 = (0, 0, [])) ∧
    (nextCurd (takeover true) = some (dealt 1) ∧ ((takeover true).deal 0 true).atTakeover 0 (dealt 1) = true ∧
      (((takeover true).deal 0 true).rind 0).restartRow = true) ∧
    (nextCurd (takeover false) = some (dealt 1) ∧ ((takeover false).deal 0 true).atTakeover 0 (dealt 1) = true ∧
      (((takeover false).deal 0 true).rind 0).restartRow = false ∧ ((takeover false).deal 0 true).aboveDone 0 (dealt 1) = some 1) := by
  decide +kernel

theorem witness_CurdsAreTakenSelectedAndJudged_select :
    (((withJob taken).chan 0).jobs.find? fun j => j.lane == some 0 && j.takenAt.isSome && j.selectedAt.isNone) = some taken ∧
    taken.coder < 52 ∧ taken.done = true ∧ taken.lacks = false ∧ (withJob taken).aboveSelected 0 taken = true ∧ taken.units ≤ taken.took (withJob taken).now ∧
    ((withJob taken).underPlan 0 0).maySkip 0 taken 0 = false ∧ ((withJob taken).underPlan 0 0).chanSkip 0 = false ∧
    (let a := ((withJob taken).underPlan 0 0).pressPlan 0
     chooseWinner (curdBound a.geom.fmt 16) (a.allowance 0 0 0 ((withJob taken).chan 0).bank) (a.candidates 0 0 0 3 true none taken.source.reverse) = some chosen) ∧
    taken.fate = none ∧ taken.resolved = false := by decide +kernel

theorem witness_CurdsAreTakenSelectedAndJudged_verdict :
    (judged 999999999470 false).line ≠ 0 ∧ (judged 999999999470 false).winner = some chosen ∧
    (withJob (judged 999999999470 false)).aboveDone 0 (judged 999999999470 false) = none ∧
    (withJob (judged 999999999470 false)).due ((judged 999999999470 false).lastAt + 531) = false ∧
    (let j := judged 999999999470 false
     let s := (withJob j).underPlan 0 0
     verifyCurd (s.chanGeom 0).fmt (s.chanV 0) j.units none
       { line := j.line, stripe := 0, index := 0, q := chosen.q, restart := chosen.restart, floor := chosen.floor, zone := chosen.zone,
         length := chosen.payload.length } chosen j.source.reverse = none) ∧
    (withJob (judged 999999999470 false)).due ((judged 999999999470 false).lastAt + 530) = true ∧
    (withJob (judged 0 false)).admitted (judged 0 false) = true ∧
    ((withJob (judged 0 false)).setCoder 0 { fenced := true }).admitted (judged 0 false) = false ∧
    (((withJob (judged 0 true)).chan 0).jobs.find? fun j => j.stripe == 0 && j.k == 0 && j.owed && (withJob (judged 0 true)).due (j.lastAt + 1530)) =
      some (judged 0 true) ∧ (withJob (judged 0 true)).rate F.CURD_LATE.code 0 = none ∧
    (∃ r, ((withJob (judged 0 true)).curdLate 0 (judged 0 true) 1 0 0).rate F.CURD_LATE.code 0 = some r ∧
      (withJob (judged 0 true)).now < r.lastAt + sec 1) := by decide +kernel

/-- A packet in port 0's queue, and an open packed packet. -/
def queued : QPacket := { channel := 0, bytes := zeros 40, path := zeros 24, line := 0, stamp := 0, curd := true, seq := 0, queuedAt := 0 }
def open0 : OpenPacket := ⟨0, [], 0, 0, 0, 0, []⟩
/-- Channel 0 with an open packed packet and end-of-validity; packets and frames of other kinds wait at port 0. -/
def sending (left : Option Nat) (q : List QPacket) (o : List (Nat × Sent)) : State :=
  let s := coding.modChan 0 fun x => { x with packet := some open0, eov := some { reason := 1, stamp := 0, media := 0, lastAt := 0, left := left } }
  ({ s with queues := [(0, q)] } : State).setPort 0 { state := .up, others := o }

theorem witness_PacketsLeaveAndSignaturesFall :
    ((sending none [] []).chan 0).packet = some open0 ∧ (sending none [] []).due (open0.openedAt + us 4) = true ∧
    ((sending none [] []).port 0).state = .up ∧ (sending none [queued] []).queue 0 = queued :: [] ∧
    (sending none [queued] []).due ((sending none [queued] []).departsAt 0 queued) = true ∧
    (sending none [queued, queued] []).queue 0 = queued :: [queued] ∧
    ((sending none [queued] [(84, .pin 0 true)]).port 0).others = (84, .pin 0 true) :: [] ∧
    (sending none [] [(84, .pin 0 true)]).queue 0 = [] ∧ (sending none [] [(84, .pin 0 true)]).due ((sending none [] [(84, .pin 0 true)]).port 0).lineFree = true ∧
    ((sending none [] []).chan 0).eov = some { reason := 1, stamp := 0, media := 0, lastAt := 0, left := none } ∧
    (sending none [] []).due (0 + (sending none [] []).chanPeriod 0) = true ∧ (sending none [] []).sends = true ∧
    (sending none [] []).channelReason 0 = (7, 0) ∧
    (let s := sending none [] []; ({ s with hull := { s.hull with sagHeld := true } } : State).channelReason 0 = (1, F.HULL_SAG.code)) ∧
    ((sending (some 2) [] []).chan 0).eov.map (·.left) = some (some (0 + 2)) ∧ ((sending (some 1) [] []).chan 0).eov.map (·.left) = some (some 1) ∧
    ((sending (some 0) [] []).chan 0).eov.map (·.left) = some (some 0) ∧ (sending (some 0) [] []).running = true := by decide +kernel

/-- The sparing tiles are in service and a coder is in a state, held by a channel or not. -/
def sparing (x : CoderState) (c : Option Nat) : State :=
  ((coding.setTile (tileNo 4 8) { state := .inService }).setTile (tileNo 4 0x10) { state := .inService }).setCoder 5 { state := x, channel := c }
/-- Channel 0 is on coder 5, with units in its stripe FIFO, and coder 6 is ripe. -/
def heldCoder : State :=
  ((((sparing .holding (some 0)).setRind 0 { coder := some 5 }).modChan 0 fun x => { x with jobs := [{ waiting 0 with coder := 5 }] })).setCoder 6 { state := .ripe }

theorem witness_CoderCausesFenceFailAndRequest :
    (heldCoder.coder 5).channel = some 0 ∧ 0 < heldCoder.fifoFill 0 5 ∧ heldCoder.running = true ∧ ((sparing .spare none).coder 5).channel = none ∧
    ((sparing .ripening none).coder 5).state = .ripening ∧ ((sparing .ripe none).coder 5).state = .ripe ∧ heldCoder.inService 4 8 = true ∧
    (5 : Fin 64).val < 52 ∧ ((sparing .failed none).coder 5).state = .failed ∧ (heldCoder.coder 5).state = .holding ∧
    heldCoder.inService 4 (0x10 + 0) = true ∧ (heldCoder.rind 0).coder = some 5 ∧ bit (0x80 : Word).toNat 7 = true ∧ (6 : Word).toNat % 64 ∈ heldCoder.ripeSpares ∧
    ((sparing .spare none).rind 0).coder = none ∧ (bit (5 : Word).toNat 7 = false ∧ (5 : Word).toNat % 64 ∉ heldCoder.ripeSpares) := by decide +kernel

/-- Source role, coder 5 ripe, channel 0 enabled without a coder; a cause of coder 6; or its claims in a storm. -/
def toGrant : State := (sparing .ripe none).modIm fun m => { m with role := some 0 }
def asking (cause : Nat) (s : State) : State :=
  { s.setRind 0 { coder := some 6 } with takeovers := [{ channel := 0, coder := 6, cause := cause, since := 0 }] }
def stormy (n : Nat) : State := toGrant.setRind 0 { storm := true, grants := List.replicate n 1000000000000 }

theorem witness_ClaimsAreGrantedAndStormsEnd :
    toGrant.spRuns = true ∧ toGrant.roleNo = 0 ∧ toGrant.running = true ∧ toGrant.nextCause = none ∧ toGrant.waitingChannels = [] ∧
    toGrant.unserved = some 0 ∧ toGrant.lowestSpare = some 5 ∧ (lastSecond toGrant.now (toGrant.rind 0).grants).length < toGrant.stormLimit ∧
    toGrant.pairMode = false ∧ (toGrant.modRind 0 fun x => { x with waits := some 0 }).waitingChannels = (0, 0) :: [] ∧
    (asking 1 toGrant).nextCause = some ({ channel := 0, coder := 6, cause := 1, since := 0 }, []) ∧ ((asking 1 toGrant).rind 0).coder = some 6 ∧
    (asking 1 toGrant).lowestSpare = some 5 ∧ (lastSecond (asking 1 toGrant).now ((asking 1 toGrant).rind 0).grants).length < (asking 1 toGrant).stormLimit ∧
    (let s := (asking 1 toGrant).modRind 0 fun x => { x with grants := List.replicate 20 1000000000000 }
     s.stormLimit ≤ (lastSecond s.now (s.rind 0).grants).length) ∧
    (let s := asking 1 (toGrant.setCoder 5 {})
     s.spRuns = true ∧ s.roleNo = 0 ∧ s.lowestSpare = none ∧ s.nextCause = some ({ channel := 0, coder := 6, cause := 1, since := 0 }, [])) ∧
    (asking 5 toGrant).nextCause = some ({ channel := 0, coder := 6, cause := 5, since := 0 }, []) ∧
    ((stormy 8).rind 0).storm = true ∧
    (lastSecond (stormy 8).now ((stormy 8).rind 0).grants).length + (lastSecond (stormy 8).now ((stormy 8).rind 0).refused).length ≤ (stormy 8).stormLimit ∧
    (stormy 9).stormLimit < (lastSecond (stormy 9).now ((stormy 9).rind 0).grants).length +
      (lastSecond (stormy 9).now ((stormy 9).rind 0).refused).length := by decide +kernel
/-- Pair mode: RANK 1, HB_MISS 3, HB_US 1,000, PAIR_ID 7, one witness of WIT_MS 2 and RETRY_MS 10; PORT_A is port 0, UP. -/
def paired (x : Pair) : State :=
  { ((((sect 0x0203 1 0 [0, 0xFF, 1] (sect 0x0503 4 8 ([1, 0] ++ leBytes 2 2 ++ leBytes 2 10) (sect 0x0502 4 8
      ([1, 1, 0, 3] ++ leBytes 2 1000 ++ zeros 2 ++ leBytes 4 7) coding))).setPort 0 { state := .up }).setTile (tileNo 4 8) { state := .inService })) with pair := x }
/-- A datagram for that module under its keys, with a good tag. -/
def gram (type id rank term stamp : Nat) (body : List Byte) : List Byte :=
  let h := pairHeader type id rank term stamp ++ body
  h ++ gcmSeal [] (pairNonce rank stamp) h []
def heartbeat (rank term : Nat) : List Byte := gram 1 7 rank term 5 ([1, 0, 0, 0] ++ zeros 8)
/-- A frame record of channel 0. -/
def frameRec : MirrorRec :=
  ({ kind := 2, channel := 0, claim := 0, line := 0, frame := 5, n := 0, d := 0, qNext := List.replicate 256 0, closed := true } : MirrorRec).seal
def recordsOf : List Byte := gram 2 7 2 2 5 ([0, 1, 0, 0] ++ frameRec.bytes)
def handover : List Byte := gram 3 7 2 2 5 (zeros 8)
def answer (verdict : Byte) : List Byte := gram 5 7 2 3 5 ([verdict, 0, 0, 0] ++ [0, 0, 0, 9])
def probe : List Byte := gram 6 7 2 2 5 (zeros 4)
/-- The same with another PAIR_ID. -/
def strange (type n : Nat) : List Byte := gram type 8 2 2 5 (zeros n)

theorem paired_key (x : Pair) (t : Nat) : (paired x).pairKey t = [] := by
  have a : ((((paired x).payload 0x0503 4 8).drop 40).take 32) = [] := rfl
  have b : ((((paired x).payload 0x0502 4 8).drop 16).take 32) = [] := rfl
  simp [State.pairKey, a, b]

theorem split_tag (h t : List Byte) (n : t.length = 16) : (h ++ t).take ((h ++ t).length - 16) = h ∧ (h ++ t).drop ((h ++ t).length - 16) = t := by
  have : (h ++ t).length - 16 = h.length := by simp [n]
  rw [this]; simp

/-- A datagram with a good tag and PAIR_ID 7 from a sender whose last STAMP was none or is earlier is good. -/
theorem gram_good (x : Pair) (type rank term stamp : Nat) (body : List Byte) (last : Option Nat)
    (h : let d := readPair (gram type 7 rank term stamp body); d.rank = rank ∧ d.stamp = stamp ∧ d.pairId = 7)
    (l : last = none ∨ (last = some 4 ∧ stamp = 5)) : (paired x).pairBad (gram type 7 rank term stamp body) last = none := by
  obtain ⟨h1, h2, h3⟩ := h
  have id : w32 ((paired x).pairField 8 4) = 7 := rfl
  have e : gram type 7 rank term stamp body = (pairHeader type 7 rank term stamp ++ body) ++
      gcmTag [] (pairNonce rank stamp) (pairHeader type 7 rank term stamp ++ body) [] := rfl
  have t : (readPair (gram type 7 rank term stamp body)).tag = gcmTag [] (pairNonce rank stamp) (pairHeader type 7 rank term stamp ++ body) [] := by
    rw [e, readPair]; exact (split_tag _ _ (gcmTag_length ..)).2
  have a : (gram type 7 rank term stamp body).take ((gram type 7 rank term stamp body).length - 16) = pairHeader type 7 rank term stamp ++ body := by
    rw [e]; exact (split_tag _ _ (gcmTag_length ..)).1
  have g : ∀ k n d, gcmOpen k n d (gcmTag k n d []) = some [] := fun k n d => gcmOpen_gcmSeal k n d []
  have w : later (BitVec.ofNat 64 5) (BitVec.ofNat 64 4) = true := by decide
  unfold State.pairBad
  simp only [h1, h2, h3, id, t, a, paired_key, g, ne_eq, not_true_eq_false, if_false]
  rcases l with rfl | ⟨rfl, rfl⟩
  · rfl
  · by_cases c : 4 ≤ (readPair (gram type 7 rank term 5 body)).type <;> simp [c, w]

/-- A datagram of another pair fails. -/
theorem strange_bad (s : State) (b : List Byte) (last : Option Nat) (h : (readPair b).pairId ≠ w32 (s.pairField 8 4)) : s.pairBad b last ≠ none := by
  unfold State.pairBad
  simp only [h, ne_eq, not_false_eq_true, if_true]
  split <;> simp

theorem witness_PairDatagramsAreSent :
    (paired { role := .active }).pairPort.isSome = true ∧ (paired { role := .active }).pairReadyCheck.pair.role = .active ∧
    (paired { role := .active }).pairReadyCheck.due (0 + us ((paired { role := .active }).pairField 4 2)) = true ∧
    (paired { role := .active, lastTx := 1000000000000 }).pairReadyCheck.pairFlags ≠ (paired { role := .active, lastTx := 1000000000000 }).pairReadyCheck.pair.lastFlags ∧
    (paired { role := .active, unsent := [0] }).pair.unsent ≠ [] ∧ (paired { role := .active, unsent := [0] }).pairActive = true ∧
    (paired { role := .active }).running = true ∧ (paired { role := .active }).inService 4 8 = true ∧
    ((paired { role := .active }).setPort 0 {}).pairPort = none ∧
    (let s := paired { role := .active, peerAt := some 0, peerFlags := 2 }
     s.pair.role = .active ∧ s.pair.peerAt.isSome = true ∧ s.pair.silent = false ∧ bit s.pair.peerFlags.toNat 1 = true) ∧
    bit (paired { role := .active, peerAt := some 0 }).pair.peerFlags.toNat 1 = false := by decide +kernel

theorem witness_PairDatagramsAreCheckedAndTaken_bad :
    (paired { role := .active }).pairHears = true ∧ (paired {}).pairHears = false ∧
    isPair (strange 1 12) 1 = true ∧ (readPair (strange 1 12)).rank ≠ (paired { role := .active }).pairField 1 1 ∧
    (paired { role := .active }).pairBad (strange 1 12) none ≠ none ∧ isPair (strange 2 4) 2 = true ∧
    (paired { role := .active }).pairBad (strange 2 4) none ≠ none ∧ isPair (strange 3 8) 3 = true ∧ (paired { role := .active }).pairBad (strange 3 8) none ≠ none ∧
    isPair (strange 5 8) 5 = true ∧ (paired { role := .active }).pairBad (strange 5 8) none ≠ none ∧ isPair (strange 6 4) 6 = true ∧
    (paired { role := .active }).pairBad (strange 6 4) none ≠ none ∧
    isPair (heartbeat 1 2) 1 = true ∧ (readPair (heartbeat 1 2)).rank = (paired { role := .active }).pairField 1 1 ∧
    (paired { role := .active }).pairBad (heartbeat 1 2) none = none ∧
    isPair (zeros 40) 1 = false ∧ isPair (zeros 40) 2 = false ∧ isPair (zeros 40) 3 = false ∧ isPair (zeros 40) 5 = false ∧ isPair (zeros 40) 6 = false :=
  ⟨by decide +kernel, by decide +kernel, by decide +kernel, by decide +kernel, strange_bad _ _ _ (by decide +kernel), by decide +kernel,
    strange_bad _ _ _ (by decide +kernel), by decide +kernel, strange_bad _ _ _ (by decide +kernel), by decide +kernel,
    strange_bad _ _ _ (by decide +kernel), by decide +kernel, strange_bad _ _ _ (by decide +kernel), by decide +kernel, by decide +kernel,
    gram_good _ _ _ _ _ _ _ (by decide +kernel) (.inl rfl), by decide +kernel, by decide +kernel, by decide +kernel, by decide +kernel, by decide +kernel⟩

/-- The peer's last STAMP was 4. -/
theorem witness_PairDatagramsAreCheckedAndTaken :
    (isPair (heartbeat 2 3) 1 = true ∧ (∀ x : Pair, (paired x).pairBad (heartbeat 2 3) (some 4) = none) ∧
      (paired { role := .active, peerStamp := some 4 }).pair.peerStamp = some 4 ∧ (readPair (heartbeat 2 3)).rank ≠ (paired {}).pairField 1 1 ∧
      bit (BitVec.ofNat 8 (le (readPair (heartbeat 2 3)).body 0 1)).toNat 0 = true ∧ 2 < (readPair (heartbeat 2 3)).term ∧ (readPair (heartbeat 2 3)).term ≤ 3 ∧
      (paired { role := .standby }).pairStandby = true) ∧
    (isPair recordsOf 2 = true ∧ (∀ x : Pair, (paired x).pairBad recordsOf (some 4) = none) ∧ (readFrameRecord frameRec.bytes).isSome = true ∧
      (paired { role := .ready, peerStamp := some 4 }).pairStandby = true) ∧
    (isPair handover 3 = true ∧ (∀ x : Pair, (paired x).pairBad handover (some 4) = none) ∧ (paired { role := .ready, peerStamp := some 4 }).pairHears = true) ∧
    (∀ v : Byte, v = 1 ∨ v = 2 ∨ v = 3 → isPair (answer v) 5 = true ∧ (∀ x : Pair, (paired x).pairBad (answer v) none = none) ∧
      be (readPair (answer v)).body 0 1 = v.toNat ∧
      (paired { role := .active, asks := [⟨9, 5, false, 0⟩] }).pair.asks.find? (fun a => a.askId == w32 (be (readPair (answer v)).body 4 4)) = some ⟨9, 5, false, 0⟩ ∧
      (paired { role := .active }).pair.asks.find? (fun a => a.askId == w32 (be (readPair (answer v)).body 4 4)) = none) ∧
    ((paired { role := .active }).pair.witStamps.find? fun e => e.1 == 0) = none ∧
    (isPair probe 6 = true ∧ (∀ x : Pair, (paired x).pairBad probe none = none) ∧ (paired { role := .active }).pairActive = true ∧
      (paired { role := .active }).pairHears = true ∧ (paired { role := .standby }).pairActive = false) := by
  refine ⟨⟨by decide +kernel, fun x => gram_good x _ _ _ _ _ _ (by decide +kernel) (.inr ⟨rfl, rfl⟩), by decide +kernel⟩,
    ⟨by decide +kernel, fun x => gram_good x _ _ _ _ _ _ (by decide +kernel) (.inr ⟨rfl, rfl⟩), by decide +kernel⟩,
    ⟨by decide +kernel, fun x => gram_good x _ _ _ _ _ _ (by decide +kernel) (.inr ⟨rfl, rfl⟩), by decide +kernel⟩, ?_, by decide +kernel,
    ⟨by decide +kernel, fun x => gram_good x _ _ _ _ _ _ (by decide +kernel) (.inl rfl), by decide +kernel⟩⟩
  intro v hv
  refine ⟨?_, fun x => gram_good x _ _ _ _ _ _ ?_ (.inl rfl), ?_, ?_, ?_⟩ <;> rcases hv with rfl | rfl | rfl <;> decide +kernel

theorem witness_WitnessIsAskedAndRetried :
    (let s := paired { role := .active, peerAt := some 0 }
     s.pair.role ≠ .single ∧ s.running = true ∧ s.pair.peerAt = some 0 ∧ s.pair.silent = false ∧ s.due (0 + s.hbLimit) = true) ∧
    (paired { role := .ready }).noActive = true ∧
    (let s := paired { role := .active, asks := [⟨9, 5, false, 0⟩] }
     (s.pair.asks.find? fun a => s.due (a.sentAt + ms (s.witnessField 2 2))) = some ⟨9, 5, false, 0⟩ ∧ ¬(s.witnessField 0 1 = 2)) ∧
    (let s := sect 0x0503 4 8 [2, 0] (paired { role := .active, asks := [⟨9, 5, false, 0⟩] })
     s.witnessField 0 1 = 2 ∧ (s.pair.asks.find? fun a => s.due (a.sentAt + ms (s.witnessField 2 2))) = some ⟨9, 5, false, 0⟩) ∧
    (let s := paired { role := .active, silent := true, retries := [(5, 0)] }
     (s.pair.retries.find? fun r => s.due (r.2 + ms (s.witnessField 4 2))) = some (5, 0) ∧ s.askStands 5 = true) ∧
    (let s := paired { role := .active, retries := [(5, 0)] }
     (s.pair.retries.find? fun r => s.due (r.2 + ms (s.witnessField 4 2))) = some (5, 0) ∧ s.askStands 5 = false) := by decide +kernel

/-- Channel 0 may start with the peer's frame record. -/
def promoted : State := (paired { role := .active, switchH := some 0, records := [(0, some frameRec)] }).modChan 0 fun x => { x with startAfter := some 0 }

theorem witness_PromotionAndSwitchoverEnd :
    promoted.pairActive = true ∧ promoted.chanOn 0 = true ∧ (promoted.chan 0).startAfter.isSome = true ∧ promoted.mayStart 0 = true ∧
    promoted.pair.records.get (fun _ => none) 0 = some frameRec ∧ promoted.pair.switchH.isSome = true ∧
    (let s := { promoted with pair := { promoted.pair with records := [], switchH := none } }
     s.pair.records.get (fun _ => none) 0 = none ∧ s.mayStart 0 = true ∧ s.pairActive = true) ∧
    (let s := paired { role := .switching, switchH := some 0 }
     s.pair.role = .switching ∧ s.pair.switchH = some 0 ∧ s.running = true ∧ s.reached (0 - s.stampMs 5) = true ∧ s.pair.switchOk = false ∧ s.reached 0 = true) ∧
    (let s := paired { role := .switching, switchH := some 0, switchOk := true }
     s.pair.switchOk = true ∧ s.pair.unsent = [] ∧ (∀ c : Fin 48, (s.chan c.val).frames = [])) ∧
    (let s := paired { role := .active, switchH := some 0 }
     s.pair.role = .active ∧ s.reached 0 = true ∧ (∀ c : Fin 48, (s.chan c.val).startAfter = none)) := by decide +kernel

/-! ## Witnesses: the wall, audio and memory -/

/-- Head 0 with the timing 32 x 2, 4 lines at 60 Hz and offset 0. -/
def headIn (h : Head) : State := live.setHead 0 { h with timing := [1, 0] ++ leBytes 2 32 ++ leBytes 2 2 ++ leBytes 2 4 ++ leBytes 2 60 ++ leBytes 2 1 ++ leBytes 2 0 }

theorem witness_HeadsRunTheirFrames :
    ((headIn { state := .running }).head 0).state ≠ .off ∧ ((headIn { state := .running }).head 0).next < ((headIn { state := .running }).timing 0).vt ∧
    (((headIn { state := .running }).timing 0).lineNs 0 3 : Int) ≤ (headIn { state := .running }).ptpNs ∧
    ((headIn { state := .running }).head 0).inFrame = false ∧ ((headIn { state := .running }).timing 0).height < 3 ∧
    ((headIn { state := .running, next := 1, inFrame := true, sending := true }).head 0).next < ((headIn { state := .running }).timing 0).height ∧
    ((headIn { state := .running, next := 2 }).head 0).next = ((headIn { state := .running }).timing 0).height ∧
    ((headIn { state := .running }).head 0).state.active = true ∧ ((headIn { state := .enabled, startK := some 1, next := 2 }).head 0).startK = some (0 + 1) ∧
    ((headIn { state := .harmless, next := 4 }).head 0).state.active = true ∧ ((headIn { state := .harmless, next := 4 }).timing 0).vt ≤ 4 ∧
    (((headIn { state := .harmless, next := 4 }).timing 0).lineNs (0 + 1) 0 : Int) ≤ (headIn { state := .harmless, next := 4 }).ptpNs ∧
    (headIn { state := .modeGap }).due (0 + 0) = true ∧ (headIn { state := .modeGap }).sends = true ∧
    ((headIn { state := .stopping, eovLeft := some 2 }).head 0).eovLeft = some (0 + 2) ∧ ((headIn { state := .stopping, eovLeft := some 1 }).head 0).eovLeft = some 1 ∧
    ((headIn { state := .failed }).head 0).state = .failed ∧
    (let s := { headIn { state := .modeGap } with pair := { role := .standby } }; s.sends = false ∧ (s.head 0).state = .modeGap ∧ s.due ((s.head 0).lastEovAt + (s.head 0).eovPeriod) = true) ∧
    ((headIn { state := .running, next := 2 }).head 0).startK = none ∧ ((headIn { state := .running, next := 2 }).head 0).mode = none := by decide +kernel

/-- Layer 0 of head 0 uses reader 7 and scaler 5; the head's last line has been sent. -/
def usedUnits : State := headIn { state := .running, latched := [{ type := 0x0601, domain := 5, tile := 0, payload := zeros 32 ++ [1, 0, 0, 0, 0, 0, 5, 0, 1, 7] ++ zeros 38 }] }
def sentFrame (frozen : Bool) (good tag : Nat) (at_ : List Nat) : State :=
  headIn { state := .running, inFrame := true, sending := true, next := 2, frozen := frozen, goodFrames := good, tagFrame := tag, freezeAt := at_ }

theorem witness_FramesAreSignedAndUnitsTested :
    ((sentFrame false 0 0 []).head 0).inFrame = true ∧ ((sentFrame false 0 0 []).timing 0).height ≤ ((sentFrame false 0 0 []).head 0).next ∧
    (((sentFrame false 0 0 []).timing 0).lineNs 0 ((sentFrame false 0 0 []).timing 0).height : Int) ≤ (sentFrame false 0 0 []).ptpNs ∧
    ((sentFrame false 0 0 []).head 0).mode = none ∧ ((sentFrame false 0 0 []).head 0).picture = [] ∧ (sentFrame false 0 0 []).running = true ∧
    ((headIn { state := .enabled, inFrame := true, next := 2 }).head 0).sending = false ∧ ((sentFrame false 0 1 []).head 0).tagFrame ≠ 0 % 2 ^ 32 ∧
    ((sentFrame false 0 1 [1000000000000, 1000000000000]).now :: ((sentFrame false 0 1 [1000000000000, 1000000000000]).head 0).freezeAt.filter fun b =>
      decide (1000000000000 < b + sec 60)).length = 3 ∧
    ((sentFrame true 0 0 []).head 0).lastSig = none ∧ ((sentFrame true 0 0 []).head 0).tagFrame = 0 % 2 ^ 32 ∧ ((sentFrame true 1 0 []).head 0).goodFrames ≠ 0 ∧
    ((headIn { state := .running, inFrame := true, next := 2, mode := some ([1], true) }).head 0).mode = some ([1], true) ∧
    (headTiming [1]).enable = true ∧ (headTiming []).enable = false ∧
    ((headIn { state := .failed }).head 0).state = .failed ∧ ((headIn {}).head 0).state ≠ .failed ∧
    live.userOf false 7 = none ∧ usedUnits.userOf false 7 = some (0, 0) ∧ usedUnits.userOf true 5 = some (0, 0) ∧
    (live.unit false 7).failed = false ∧ ((live.setReader 7 { failed := true }).unit false 7).failed = true ∧
    (live.setReader 7 { failed := true }).userOf false 7 = none ∧ ((usedUnits.setReader 7 { failed := true }).reader 7).failed = true ∧
    (usedUnits.setReader 7 { failed := true }).userOf false 7 = some (0, 0) ∧ ((usedUnits.setScaler 5 { failed := true }).scaler 5).failed = true ∧
    (usedUnits.setScaler 5 { failed := true }).userOf true 5 = some (0, 0) := by decide +kernel

/-- Clock 1 is a good slave clock with STUCK_MS 20; group 0 captures and sends. -/
def audioState : State :=
  (sect 0x0703 7 0 (zeros 8 ++ [2, 0, 0, 0, 20, 0, 0, 0]) live).modAudio fun a => { a with
    ck1 := { state := .good }, inForce := [{ type := 0x0701, domain := 7, tile := 0, payload := [3] ++ zeros 127 }] }

theorem witness_AudioFramesSlipsAndStuckMicrophones :
    audioState.running = true ∧ (audioState.modAudio fun a => { a with frame := 1000000 }).ptpNs.toNat / 1000000 = (audioState.modAudio fun a => { a with frame := 1000000 }).audio.frame ∧
    audioState.ptpNs.toNat / 1000000 ≠ audioState.audio.frame ∧ audioState.ptpNs.toNat / 1000000 ≠ 0 ∧ groupFlag (audioState.groupRec 0) 0 = true ∧
    groupFlag (audioState.groupRec 0) 1 = true ∧ audioState.audioSends = true ∧ State.reset.audioSends = false ∧
    audioState.pdmField (b2n true) 0 1 = 2 ∧ (audioState.pdm (b2n true)).state = .good ∧ audioState.rate F.AUDIO_SLIP.code 1 = none ∧
    (∃ r, (audioState.logRated F.AUDIO_SLIP 1 R.au 0 (fun _ => [])).rate F.AUDIO_SLIP.code 1 = some r ∧ audioState.now < r.lastAt + sec 1) ∧
    audioState.pdmField (b2n false) 0 1 ≠ 2 ∧ (audioState.pdm (b2n false)).state ≠ .good ∧ live.pdmField (clockOf 15) 4 2 = 0 ∧
    0 < audioState.pdmField (clockOf 15) 4 2 ∧ (audioState.pdm (clockOf 15)).state = .good ∧ (audioState.mic 15).stuck = false ∧
    audioState.due ((audioState.mic 15).since + ms (audioState.pdmField (clockOf 15) 4 2)) = true := by decide +kernel

/-- Channel 0 of frame memory; memory runs with the scrub on. -/
def memIn (x : MemChan) : State := ((live.setMchan 0 x).modMemory fun m => { m with state := 2 }).setReg R.mem_MEM_CTRL 1
/-- A read of a tending core and of the image manager at the first address of region 1, a write there, and a read of region 0, which is DUP. -/
def readReq : MemReq := { port := .tc 0, addr := memBase + 2 ^ 36, length := 4 }
def imReq : MemReq := { readReq with port := .im }
def writeReq : MemReq := { port := .sw 0, addr := memBase + 2 ^ 36, length := 4, write := some [1, 2, 3, 4] }
def dupReq : MemReq := { readReq with addr := memBase }
/-- Its extent is fenced, or its line poisoned. -/
def fencedMem : State := (memIn {}).modMemory fun m => { m with remapping := [3], remaps := [⟨1, 0, 0, 0, 3⟩] }
def poisonedMem : State := (memIn { state := .inService }).modMemory fun m => { m with poisoned := [(memBase + 2 ^ 36, 0)] }

theorem witness_MemoryRequestsAreServed :
    (memIn {}).mapped (memBase - 1) = false ∧ (memIn {}).running = true ∧ writeReq.port ≠ .tc 0 ∧
    fencedMem.mapped writeReq.addr = true ∧ fencedMem.fenced writeReq.addr = true ∧ writeReq.write.isSome = true ∧
    (memIn {}).mapped readReq.addr = true ∧ (memIn {}).fenced readReq.addr = false ∧ readReq.length ≠ 0 ∧
    lineOf readReq.addr = lineOf (readReq.addr + readReq.length - 1) ∧ (memIn {}).memChannel readReq.addr = 0 ∧
    ((memIn { queue := List.replicate 63 readReq }).mchan 0).queue.length < 64 ∧ 64 ≤ ((memIn { queue := List.replicate 64 readReq }).mchan 0).queue.length ∧
    lineOf memBase ≠ lineOf (memBase + 65 - 1) ∧ (memIn {}).memChannel readReq.addr ≠ 1 ∧ ((memIn {}).mchan 0).serves = false ∧
    ((memIn { state := .inService }).mchan 0).serves = true ∧
    (memIn { state := .inService }).stalled 0 = false ∧ (memIn { lastRefresh := 1000000000001 }).stalled 0 = true ∧ (memIn { state := .inService }).errorsGoOn 0 = false ∧ ((memIn { state := .inService }).mchan 0).checkBy = none ∧
    (memIn {}).isPoisoned (lineOf readReq.addr) ((memIn {}).liveCopy (regionOf readReq.addr).1 (extentOf (regionOf readReq.addr).2)) = false ∧
    poisonedMem.isPoisoned (lineOf readReq.addr) (poisonedMem.liveCopy (regionOf readReq.addr).1 (extentOf (regionOf readReq.addr).2)) = true ∧
    (memIn {}).regionDup (regionOf readReq.addr).1 = false ∧ (memIn {}).regionDup (regionOf dupReq.addr).1 = true ∧
    ((memIn {}).memory.single.any fun y => y.region == (regionOf dupReq.addr).1 && y.extent == extentOf (regionOf dupReq.addr).2) = false ∧
    (memIn {}).isPoisoned (lineOf dupReq.addr) (1 - (memIn {}).liveCopy (regionOf dupReq.addr).1 (extentOf (regionOf dupReq.addr).2)) = false ∧
    readReq.port ≠ .im ∧ imReq.again = false ∧ live.memory.state < 2 ∧ 2 ≤ (memIn {}).memory.state ∧
    bit ((memIn {}).reg R.mem_MEM_CTRL).toNat 0 = true ∧ bit ((live.setReg R.mem_MEM_CTRL 0).reg R.mem_MEM_CTRL).toNat 0 = false ∧
    (let s := memIn { state := .inService }
     let x := s.scrubAt s.memory.scrubLine s.regions
     let m := s.scrubChannel x.1 x.2.1 x.2.2
     (s.mchan m).queue = [] ∧ s.stalled m = false ∧ m < 16 ∧ s.isPoisoned (memBase + x.1 * 2 ^ 36 + x.2.1) x.2.2 = false ∧ (s.mchan m).serves = true ∧
     x.2.2 = s.liveCopy x.1 (extentOf x.2.1)) ∧
    (let s := memIn { queue := [readReq] }
     let x := s.scrubAt s.memory.scrubLine s.regions
     (s.mchan (s.scrubChannel x.1 x.2.1 x.2.2)).queue ≠ []) ∧
    (let s := (memIn { state := .inService }).modMemory fun m => { m with scrubLine := 500000000 }
     let x := s.scrubAt s.memory.scrubLine s.regions
     let m := s.scrubChannel x.1 x.2.1 x.2.2
     s.regionDup x.1 = false ∧ x.2.2 = s.liveCopy x.1 (extentOf x.2.1) ∧ m < 16) := by decide +kernel

/-- The only request of a queue is the one that is served next. -/
theorem witness_next_request (r : MemReq) (h : r = readReq ∨ r = writeReq ∨ r = imReq ∨ r = dupReq) :
    ((memIn { state := .inService, queue := [r] }).mchan 0).next = some r := by
  have : (memIn { state := .inService, queue := [r] }).mchan 0 = { state := .inService, queue := [r] } := by
    simp [memIn, State.mchan, State.setMchan, State.modMemory, State.setReg, Sparse.get_put]
  rw [this]
  rcases h with rfl | rfl | rfl | rfl <;> simp [MemChan.next, mayServe]

/-- A serving channel with a request of class 2, 4 or none. -/
def chan (x : MemChan) (panic : Option Bool) : State := memIn { x with state := .inService, queue := match panic with
  | some b => [{ readReq with panic := b, since := 999999999800 }] | none => [] }

theorem witness_MemoryIsRefreshedTrainedAndRetired :
    ((memIn {}).mchan 0).serves = false ∧ ((memIn {}).mchan 0).state ≠ .training ∧ ((memIn { state := .training }).mchan 0).state = .training ∧
    ((chan { owed := 7 } (some true)).mchan 0).serves = true ∧ (chan { owed := 7 } (some true)).due ((chan { owed := 7 } (some true)).mchan 0).refreshAt = true ∧
    ((chan { owed := 7 } (some true)).mchan 0).busy = true ∧ ((chan { owed := 7 } (some true)).mchan 0).hot = false ∧ ((chan { owed := 7 } (some true)).mchan 0).owed < 8 ∧
    ((chan { owed := 8 } (some true)).mchan 0).owed = 8 ∧ ((chan { owed := 8 } (some false)).mchan 0).busy = false ∧ 0 < ((chan { owed := 8 } (some false)).mchan 0).owed ∧
    (chan { refreshAt := 1000000000001 } none).due ((chan { refreshAt := 1000000000001 } none).mchan 0).refreshAt = false ∧ ((chan {} none).mchan 0).owed = 0 ∧
    (chan {} none).due (((chan {} none).mchan 0).mr4At + ms 4) = true ∧
    (chan { mr4At := 1000000000000 } none).due (((chan { mr4At := 1000000000000 } none).mchan 0).mr4At + ms 4) = false ∧
    ((chan { mr4 := 4, hot := true, coolReads := 1 } none).mchan 0).mr4 < 5 ∧
    ((chan {} none).mchan 0).trainDue = none ∧ (chan {} none).due (((chan {} none).mchan 0).lastTrain + ms 256) = true ∧
    (chan { lastTrain := 1000000000000 } none).due (((chan { lastTrain := 1000000000000 } none).mchan 0).lastTrain + ms 256) = false ∧
    ((chan { trainDue := some 0 } (some false)).mchan 0).trainDue = some 0 ∧ ((chan { trainDue := some 0 } (some false)).mchan 0).busy = false ∧
    (∀ r ∈ ((chan { trainDue := some 0 } (some false)).mchan 0).queue, 1000000000000 ≤ r.since + 200) ∧
    (∃ r ∈ ((memIn { state := .inService, trainDue := some 0, queue := [{ readReq with since := 999999999799 }] }).mchan 0).queue, r.since + 200 < 1000000000000) ∧
    0 + sec 1 ≤ ((chan { trainDue := some 0, lastRefresh := 1000000000 } none).mchan 0).lastRefresh ∧
    ((chan { trainDue := some 0, lastRefresh := 1000000000 } none).mchan 0).lastRefresh ≤ (chan {} none).now ∧ (chan { trainDue := some 0 } (some false)).stalled 0 = false ∧
    (chan { lastRefresh := 1000000000001 } none).stalled 0 = true ∧ ((chan { trainDue := some 0, lastRefresh := 1000000000 } none).mchan 0).trainRun = false ∧
    ((chan { trainRun := true, corrLast := 63 } none).mchan 0).trainRun = true ∧ ((chan { trainRun := true, corrLast := 63 } none).mchan 0).corrLast < 64 ∧
    ((chan { trainRun := true, corrLast := 63 } none).mchan 0).uncorrSince = false ∧ ((chan {} none).mchan 0).checkBy = none ∧
    64 ≤ ((chan { trainRun := true, corrLast := 64 } none).mchan 0).corrLast ∧ 0 / 2 ∉ (chan {} none).memory.retired ∧
    live.running = true ∧ live.adminWrite .sp = true ∧ live.adminWrite (.session 0) = false ∧
    1 < live.pairsUp.length ∧ (live.reg R.mem_MEM_CTRL).toNat / 16 % 8 ∉ live.memory.retired ∧
    (live.modMemory fun m => { m with retired := [1, 2, 3, 4, 5, 6, 7] }).pairsUp.length ≤ 1 ∧
    3 ∈ (live.modMemory fun m => { m with remapping := [3] }).memory.remapping ∧ 3 ∉ live.memory.remapping ∧
    (live.memory.single.find? fun y => y.region == 0 && y.extent == 5) = none ∧
    (let s := live.modMemory fun m => { m with single := [⟨0, 5, 0⟩], retired := [0, 1, 2, 3, 4, 5, 6, 7] }
     (s.memory.single.find? fun y => y.region == 0 && y.extent == 5) = some ⟨0, 5, 0⟩ ∧ s.placeExtent 0 5 (1 - 0) (some (s.pairOf 0 5 0)) = none) ∧
    (let s := live.modMemory fun m => { m with single := [⟨0, 5, 0⟩], retired := [0] }
     (s.placeExtent 0 5 (1 - 0) (some (s.pairOf 0 5 0))).isSome = true) := by decide +kernel

/-! ## Witnesses: the recorder -/

/-- The open wheel of slot 3, and the same wheel sealed by command, due a signature or not. -/
def openW : Wheel := { number := 9, slot := 3 }
def sealedW (due : Bool) (cause : Nat) : Wheel := { number := 8, slot := 2, seal_ := some { cause := cause, signDue := due }, due := due }
/-- A recorder that records, with wheels 8 (sealed) and 9 (open) in its store. -/
def rec (x : Recorder) : State := { live with recorder := { x with state := .recording } }
def recW (x : Recorder) (w : List Wheel) (bad : List Nat) (spares : Nat) : State :=
  rec { x with store := { wheels := w, badSlots := bad, spares := spares } }
/-- A full bucket, and one just emptied. -/
def fullBucket : Recorder := {}
def noTokens : Recorder := { tokens := 0, tokensAt := 1000000000000 }
def ledgerEntry : Entry := { stamp := 5, ctrl := 0, cls := 1, own := 2, sev := 2 }
/-- The caps of RECORDER_PLAN: tap 5 with 1 Mbit/s units of 125 bytes. -/
def capped (x : Recorder) : State := sect 0x0901 7 1 (zeros 2 ++ [1] ++ zeros 13 ++ [5, 0, 0, 0, 1, 0, 0, 0]) (rec x)

theorem witness_RecordsAreAdmittedWrittenAndSealed :
    State.reset.recAdmits 1 = false ∧ (rec {}).ledger.mirror = [] ∧
    (let s := { rec {} with ledger := { mirror := [ledgerEntry] } }
     s.recAdmits 1 = true ∧ s.ledger.mirror = [ledgerEntry]) ∧
    (∀ type ∈ [2, 3, 4, 5], (rec {}).recAdmits type = true) ∧
    ((rec {}).recorder.shed 2).on = false ∧ ((rec {}).recorder.shed 3).count = 0 ∧ shedLimit 2 = some 16777216 ∧ shedLimit 5 = none ∧ (rec {}).backlog ≤ 16777216 ∧
    0 < ((rec { shedProxy := { count := 3 } }).recorder.shed 2).count ∧ ((rec { shedProxy := { on := true } }).recorder.shed 2).on = true ∧
    (rec {}).openWheel = none ∧ (recW { carry := [0], carryAt := 999990000001 } [openW] [] 5).due (999990000001 + ms 10) = false ∧
    (let s := capped {}
     s.recAdmits 4 = true ∧ (if (s.tap 5).second = s.now / sec 1 then (s.tap 5).inSecond else 0) + (24 + (pad8 (zeros 96)).length) ≤ (s.tapCap 5).getD 0 * 125 + 3 ∧
     (s.tapCap 5).getD 0 * 125 < (if (s.tap 5).second = s.now / sec 1 then (s.tap 5).inSecond else 0) + (24 + (pad8 (zeros 102)).length) ∧
     (if (s.tap 5).second = s.now / sec 1 then (s.tap 5).inSecond else 0) + (24 + (pad8 (zeros 96)).length) ≤ (s.tapCap 5).getD 0 * 125 ∧
     s.recorder.shedTap.on = false ∧ s.recorder.shedTap.count = 0 ∧ s.backlog ≤ 8388608) ∧
    (recW fullBucket [sealedW false 4, openW] [] 5).openWheel = some openW ∧ (recW fullBucket [openW] [] 5).recorder.warnAt = none ∧
    (recW noTokens [openW] [] 5).mayWrite pageBytes = false ∧ (recW fullBucket [openW] [] 5).mayWrite pageBytes = true ∧
    (let s := recW { carry := zeros 8 } [openW] [] 5
     s.recorder.staging = [] ∧ s.recorder.carry ≠ [] ∧ s.due (s.recorder.carryAt + ms 10) = true ∧ s.recorder.carry.length + 24 ≤ pageBytes ∧ s.recorder.carry.length % 8 = 0) ∧
    (recW fullBucket [openW] [] 5).mayWrite sealBytes = true ∧ (recW fullBucket [openW] [] 5).recorder.carry = [] ∧ (recW fullBucket [openW] [] 5).running = true ∧
    ({ recW fullBucket [openW] [] 5 with ledger := { safe := true } } : State).due (openW.openedAt + ms (recW fullBucket [openW] [] 5).safeSealMs) = true ∧
    State.reset.running = false ∧ State.reset.ledger.safe = false ∧
    (let s := recW { warnAt := some 0 } [openW] [] 5
     s.recorder.warnAt = some 0 ∧ s.due (0 + us 1000) = true ∧ s.openWheel = some openW ∧ s.due (0 + us 1200) = true ∧ s.recorder.state ≠ .warnSealed ∧ s.running = true) := by decide +kernel

/-- A page's worth of laid-out bytes, and a backlog just above the limit of PROXY records. -/
theorem witness_full_page (n : Nat) (h : n = pageBytes) : pageBytes ≤ (recW { carry := zeros n } [openW] [] 5).recorder.carry.length := by
  simp only [recW, rec, zeros, List.length_replicate]; omega
theorem witness_backlog_over (n : Nat) (h : n = 16777217) : 16777216 < (rec { carry := zeros n }).backlog := by simp only [State.backlog, rec, zeros, List.length_replicate]; omega

theorem witness_WheelsAreSignedExportedAndVerified :
    (let s := recW {} [sealedW true 4, openW] [] 5
     s.wheel 8 = some (sealedW true 4) ∧ (4 : Nat) ≠ sealWarning ∧ s.mayWrite sealBytes = true ∧ (sealedW true 4).signed = none ∧ s.running = true) ∧
    (recW {} [sealedW false 4, openW] [] 5).wheel 8 = some (sealedW false 4) ∧ (recW {} [sealedW true sealWarning] [] 5).wheel 8 = some (sealedW true sealWarning) ∧
    (let s := (recW { exports := [⟨1, 8, 0⟩, ⟨2, 8, 0⟩, ⟨3, 8, 0⟩, ⟨4, 8, 0⟩, ⟨5, 8, 0⟩, ⟨6, 8, 0⟩, ⟨7, 8, 0⟩] } [sealedW false 4, openW] [] 5).setLatch (.session 0) R.rec_EXPORT_WHEEL_LO 8
     s.wheelLatch (.session 0) R.rec_EXPORT_WHEEL_LO R.rec_EXPORT_WHEEL_HI = 8 ∧ s.wheel 8 = some (sealedW false 4) ∧ s.recorder.exports.length < 8 ∧ s.exportOf 7 = some ⟨7, 8, 0⟩ ∧
     s.due (0 + sec 60) = true ∧ s.wheelLatch (.session 1) R.rec_EXPORT_WHEEL_LO R.rec_EXPORT_WHEEL_HI = 0 ∧ s.wheel 0 = none) ∧
    8 ≤ (recW { exports := List.replicate 8 ⟨1, 8, 0⟩ } [] [] 0).recorder.exports.length ∧ (recW {} [openW] [] 5).wheel 9 = some openW ∧ openW.seal_ = none ∧
    (recW { exports := [⟨0, 8, 940000000001⟩] } [] [] 0).exportOf 0 = some ⟨0, 8, 940000000001⟩ ∧ (recW {} [] [] 0).due (940000000001 + sec 60) = false ∧
    (recW { verifying := some 9 } [openW] [] 5).recorder.verifying = some 9 ∧ (recW { verifying := some 9 } [openW] [] 5).verifyWheel 9 = (true, false, false) ∧
    0 < (recW {} [openW] [] 1).recorder.store.spares ∧ (recW {} [openW] [] 0).recorder.store.spares = 0 ∧ openW.slot ∉ (recW {} [openW] [2, 4] 0).recorder.store.badSlots := by decide +kernel

/-- With 7,433 slots out of service 16 are left beside the one that fails; with 7,434, 15. -/
theorem witness_slots_left :
    16 ≤ 7449 - (recW {} [openW] (List.replicate 7433 0) 0).recorder.store.badSlots.length ∧
    7449 - (recW {} [openW] (List.replicate 7434 0) 0).recorder.store.badSlots.length < 16 := by
  simp [recW, rec, -List.reduceReplicate]

/-! ## Witnesses: the control cores -/

def coresIn (x : Cores) : State := { live with cores := x }
/-- Firmware whose WDT_MS is 50 runs on tending cores and the safety pair. -/
def watched (x : Cores) : State := { coresIn x with im := { fwTc := { running := [0, 0, 50, 0] }, fwSp := { running := [0, 0, 50, 0] } } }

theorem witness_ProcessorsSleepParkAndRestart :
    ((coresIn {}).proc 4).state = .active ∧ (∀ e ∈ (coresIn {}).cores.sources, e.2.waits = false) ∧ ((coresIn { tc := [(0, { state := .active })] }).tc 0).state = .active ∧
    ((coresIn { tc := [(3, { state := .sleep })] }).tc 3).state = .sleep ∧ ((coresIn { tc := [(3, { state := .parked })] }).tc 3).state = .parked ∧
    (coresIn {}).running = true ∧ (Agent.sp ≠ .tc 3) ∧ (3 : Nat) ≠ 4 ∧ (Agent.tc 0 ≠ .sp) ∧ 0 < (watched {}).wdtMs 0 ∧ 0 < (watched {}).wdtMs 4 ∧
    (watched {}).due (((watched {}).proc 4).kickedAt + ms ((watched {}).wdtMs 4)) = true ∧
    ((watched { tc := [(0, { state := .sleep })] }).proc 0).state = .sleep ∧ ((watched {}).proc 0).state = .restarting ∧ ((watched {}).proc 0).halted = false ∧
    (watched {}).im.fwTc.running ≠ [] ∧ (coresIn {}).wdtMs 0 = 0 ∧ (coresIn {}).startup.noImage = false ∧
    (watched { sp := { kickedAt := 999950000001 } }).due (999950000001 + ms ((watched {}).wdtMs 4)) = false ∧
    ((watched { tc := [(0, { halted := true })] }).proc 0).halted = true ∧ (coresIn {}).im.fwTc.running = [] ∧ State.reset.running = false := by decide +kernel

theorem witness_ProcessorFaultsAreReported :
    (coresIn {}).running = true ∧ (coresIn {}).cores.sp.halted = false ∧ (coresIn { sp := { halted := true } }).cores.sp.halted = true ∧  (∃ b ∈ (coresIn { spMismatch := [940000000001] }).cores.spMismatch, (coresIn {}).now < b + sec 60) ∧
    2 ≤ ((coresIn { spRestarts := [940000000001, 1000000000000] }).cores.spRestarts.filter fun b => decide ((coresIn {}).now < b + sec 60)).length := by decide +kernel

def hubIn (n : Nat) (x : IrqSource) : State := coresIn { sources := [(n, x)] }

theorem witness_HubCountsClaimsAndCompletes :
    (hubIn 1 {}).running = true ∧ R.time_EVENTS ≠ R.hub_SATURATED ∧ eventSource R.time_EVENTS = some 1 ∧
    (let s := (hubIn 1 { count := 254 }).setReg (R.time_EVENTS + 4) 0x3FF
     (s.source 1).counted ≠ some s.now ∧ (s.source 1).count < 255 ∧ s.reg R.time_EVENTS &&& w32 (2 ^ 9) = 0 ∧ s.reg (R.time_EVENTS + 4) &&& w32 (2 ^ 9) ≠ 0) ∧
    agentNo .sp = 4 ∧ (hubIn 286 { count := 1, prio := 1, target := 4 }).topSource 4 = 286 ∧ (hubIn 286 {}).topSource 4 = 0 ∧ agentNo (.tc 3) ≠ 4 ∧
    ((hubIn 1 { count := 1, service := some 0 }).source 1).service = some 0 ∧ agentNo (.tc 0) = 0 ∧
    ¬(agentNo .sp = 4 ∧ ((hubIn 1 { service := some 0 }).source 1).service = some 4) ∧
    255 ≤ ((hubIn 1 { count := 255 }).source 1).count ∧ bit (0x8001 : Word).toNat 15 = true ∧ ((hubIn 286 { count := 254 }).source 286).count < 255 ∧ (511 : Nat) ≠ 0 := by decide +kernel

theorem witness_HubIsConfiguredByWhoMay :
    (hubIn 1 {}).running = true ∧ (0x0444 : Nat) / 16 % 8 < 5 ∧ (0x0444 : Nat) / 256 % 8 < 5 ∧ (1 : Nat) ≠ 0 ∧ (511 : Fin 512).val ≠ 0 ∧
    ¬((hubIn 1 {}).source 1).target = 4 ∧ ¬((hubIn 1 {}).source 1).fallback = 4 ∧ ¬(0x0331 / 16 % 8 = 4) ∧ ¬(0x0331 / 256 % 8 = 4) ∧
    ((hubIn 286 { target := 4 }).source 286).target = 4 ∧ Agent.tc 0 ≠ .sp ∧
    ((hubIn 2 { noTarget := some 999000000000 }).source 2).noTarget = some 999000000000 ∧ 999000000000 + sec 1 ≤ (hubIn 2 {}).now ∧
    ((hubIn 2 { noTarget := some 0 }).source 2).noTargetLogged = false ∧ ((hubIn 2 { noTarget := some 0, noTargetLogged := true }).source 2).noTargetLogged = true := by decide +kernel

/-- Timer 7, and stamps at and just after now. -/
def timerIn (x : RtTimer) (period : Word) : State := (coresIn { timers := [(7, x)] }).setReg (R.rt_RT_PERIOD 7) period
def nowHi : Word := (live.stamp >>> 32).setWidth 32
def nowLo : Word := live.stamp.setWidth 32

theorem witness_RasterTimersArmFireAndDisarm :
    (timerIn {} 0).running = true ∧ ((timerIn {} 0).source 270).ofSp = false ∧ ((hubIn 270 { target := 4 }).source 270).ofSp = true ∧ Agent.tc 0 ≠ .sp ∧
    (timerIn {} 0).reached (nowHi ++ (nowLo + 1)) = false ∧ ((timerIn {} 0).timer 7).armed = none ∧
    (let s := (timerIn {} 0).setLatch (.tc 0) (R.rt_RT_CMP_LO 7) nowLo
     later (nowHi ++ s.latch (.tc 0) (R.rt_RT_CMP_LO 7)) s.stamp = false) ∧
    (let s := (timerIn {} 0).setLatch (.tc 0) (R.rt_RT_CMP_LO 7) (nowLo + 1)
     later (nowHi ++ s.latch (.tc 0) (R.rt_RT_CMP_LO 7)) s.stamp = true) ∧
    ((timerIn { armed := some (nowHi ++ nowLo) } 0).timer 7).armed = some (nowHi ++ nowLo) ∧ (timerIn {} 0).reached (nowHi ++ nowLo) = true ∧
    ((timerIn {} 0).reg (R.rt_RT_PERIOD 7)).toNat = 0 ∧ ((timerIn {} 5).reg (R.rt_RT_PERIOD 7)).toNat ≠ 0 ∧
    ((timerIn {} 0).source 270).count < 255 := by decide +kernel

def checkIn (x : CheckChannel) : State := coresIn { checks := [(15, x)] }

theorem witness_CheckChannelsOpenFeedAndJudge :
    (checkIn { mode := 1 }).running = true ∧ ((checkIn { mode := 1 }).check 15).mode = 1 ∧ agentNo (.tc 0) = ((checkIn { mode := 1 }).check 15).owner ∧
    agentNo .sp ≠ ((checkIn { mode := 1 }).check 15).owner ∧ ((checkIn { mode := 2, state := .opened }).check 15).state = .opened ∧
    ((checkIn { mode := 2, fed := zeros 5 }).check 15).fed.length < 2 + checkWidth 0 ∧ ((checkIn { mode := 2, alg := 2, fed := zeros 3 }).check 15).fed.length < 2 + checkWidth 2 ∧
    (let body : List Byte := [0x31, 0x32]
     let covered := body ++ orderBytes true 2 65535
     let s := checkIn { mode := 2, alg := 2, order := true, window := 1, last := some 65534, state := .opened, fed := covered ++ orderBytes true (checkWidth 2) (checkValue 2 covered) }
     (s.check 15).fed = covered ++ orderBytes (s.check 15).order (checkWidth (s.check 15).alg) (checkValue (s.check 15).alg covered) ∧
     (s.check 15).last = some 65534 ∧ 1 ≤ (65535 + 65536 - 65534) % 65536 ∧ (65535 + 65536 - 65534) % 65536 ≤ (s.check 15).window) ∧
    (∃ l, ((checkIn { mode := 2, last := some 65535 }).check 15).last = some l ∧ (65535 + 65536 - l) % 65536 = 0) ∧
    ((checkIn { mode := 1 }).check 15).state ≠ .opened ∧ ((checkIn {}).check 15).mode = 0 ∧
    1 ≤ (0 + 65536 - 65535) % 65536 ∧ ((checkIn { mode := 2 }).check 15).last = none := by decide +kernel

/-! ## Witnesses: registers and the management link -/

/-- An address of each kind: EVENT_MIN of the ledger (RW), EVENTS of the raster time block (W1C), ID_MODULE (read-only), one past the
defined offsets of coder 0's tile, which is gated. -/
def rwReg : Nat := R.led_EVENT_MIN

theorem witness_RegisterWritesFollowTheirAccessCodes :
    live.running = true ∧ live.agentLive (.session 7) = false ∧ (logged live).agentLive (.session 0) = true ∧ accessRefused 1 = true ∧ accessRefused 0xFFFFFFFC = true ∧
    live.agentLive (.tc 0) = true ∧ (Agent.tc 0).isCore = true ∧ (Agent.session 0).isCore = false ∧
    accessRefused (R.coder_EVENTS 0) = false ∧ layoutOf (R.coder_EVENTS 0) = some (.coderL, 0) ∧ live.tileDark (R.coder_EVENTS 0) = true ∧
    accessRefused rwReg = false ∧ layoutOf rwReg = some (.ledL, 0) ∧ live.tileDark rwReg = false ∧
    (live.writeActs (.tc 0) .ledL 0 (offsetOf rwReg) rwReg 3).isNone = true ∧ perAgent .ledL (offsetOf rwReg) (.tc 0) = none ∧
    (Layout.rowAt .ledL (offsetOf rwReg)).any (fun r => r.rw == 7 && r.w1c == 0) = true ∧ isEventEnable .ledL (offsetOf rwReg) = false ∧
    layoutOf R.time_EVENTS = some (.timeL, 0) ∧ (Layout.rowAt .timeL (offsetOf R.time_EVENTS)).any (fun r => r.w1c == 0x3FF) = true ∧
    (live.writeActs (.tc 0) .timeL 0 (offsetOf R.time_EVENTS) R.time_EVENTS 3).isNone = true ∧
    layoutOf 0x600000 = some (.idL, 0) ∧ (Layout.rowAt .idL 0).any (fun r => r.w1c == 0 && r.rw == 0) = true ∧
    (live.writeActs (.tc 0) .idL 0 0 0x600000 3).isNone = true ∧ (Layout.rowAt .idL 0xFFC).isNone = true ∧ accessRefused 0x600FFC = false := by decide +kernel

/-- An enrolment or slot payload: slot 0 or LINEAGE 0x00010203, with a key of the shape that R354 asks. -/
def keyPayload (first : List Byte) : List Byte := first ++ [0x80] ++ zeros 511 ++ [0, 1, 0, 1] ++ zeros 512
def mdpIn (x : Session) : State := live.setSession 0 { x with present := true, rights := 7 }

theorem witness_OperationsOfSessionsAreExecuted :
    (mdpIn {}).mdpOn = true ∧ ((mdpIn {}).session 0).present = true ∧ ((mdpIn {}).session 0).held = [] ∧ ((mdpIn {}).session 0).closing = none ∧
    ((mdpIn { txCtr := ctrLimit }).session 0).txCtr ≤ ctrLimit ∧ ((mdpIn { executed := 0xFFFFFFFD }).session 0).executed + 1 < 0xFFFFFFFF ∧
    bit ((mdpIn {}).session 0).rights 0 = true ∧ bit ((live.setSession 0 { present := true }).session 0).rights 0 = false ∧ accessRefused 0x600000 = false ∧
    (mdpIn {}).answerFits ((mdpIn {}).session 0).route 4 = true ∧ bit ((mdpIn {}).session 0).rights 1 = true ∧ accessRefused 2 = true ∧
    accessRefused rwReg = false ∧ adminRegister rwReg = false ∧ stagedRegister rwReg = false ∧ layoutOf rwReg = some (.ledL, 0) ∧ (mdpIn {}).tileDark rwReg = false ∧
    perAgent .ledL (offsetOf rwReg) (.session 0) = none ∧ (Layout.rowAt .ledL (offsetOf rwReg)).any (fun r => r.rw == 7 && r.w1c == 0) = true ∧
    isEventEnable .ledL (offsetOf rwReg) = false ∧ ((mdpIn {}).writeActs (.session 0) .ledL 0 (offsetOf rwReg) rwReg 5).isNone = true ∧
    ((mdpIn {}).readActs (.session 0) .ledL 0 (offsetOf rwReg) rwReg).isNone = true ∧ (mdpIn {}).latchPair .ledL 0 (offsetOf rwReg) = none ∧
    2111 + 1 ≤ 2112 ∧ (mdpIn {}).answerFits ((mdpIn {}).session 0).route 1 = true ∧ ((mdpIn {}).imgSlot 1).state ≠ .checking ∧ (mdpIn {}).slotPinned 1 = false ∧
    (let s := { mdpIn {} with im := { slot1 := { state := .loading, bytes := [1, 2, 3] } } }
     (s.imgSlot 1).bytes ≠ [] ∧ (s.imgSlot 1).bytes.length + 1 ≤ 268435456) ∧
    (4 : Nat) ≤ 4 ∧ (zeros 32).length = 32 ∧ (mdpIn {}).answerFits ((mdpIn {}).session 0).route 704 = true ∧
    ((({ mdpIn {} with ports := [(32, { state := .up })] } : State)).port (32 + b2n false)).state = .up := by decide +kernel

theorem witness_keys_are_stored :
    (keyPayload [0, 1, 2, 3]).length = 1032 ∧ be (keyPayload [0, 1, 2, 3]) 0 4 ≠ 0 ∧ be (keyPayload [0, 1, 2, 3]) 0 4 ≠ 0xFFFFFFFF ∧
    keyShape (keyPayload [0, 1, 2, 3]) = true ∧ ((mdpIn { slot := 0xFF }).session 0).slot = 0xFF ∧ (mdpIn { slot := 0xFF }).unowned = true ∧
    bit ((mdpIn {}).session 0).rights 2 = true ∧ be (keyPayload [3, 15, 0, 0]) 0 1 ≤ 3 ∧ be (keyPayload [3, 15, 0, 0]) 1 1 < 16 ∧
    ((List.range 4).any fun k => k != 3 && ((mdpIn {}).slot k).present && ((mdpIn {}).slot k).keyId == (opSlot (keyPayload [3, 15, 0, 0]) 15).keyId) = false ∧
    (mdpIn {}).adminRemains 3 (opSlot (keyPayload [3, 15, 0, 0]) 15) = true ∧ (mdpIn {}).anchors ((mdpIn {}).slot 3) = false ∧
    (({ mdpIn {} with mdp := { slots := [(0, { present := true, perms := 4 })] } } : State)).adminRemains 3 {} = true := by decide +kernel

theorem bytes_bound (l : List Byte) : l.foldr (fun b acc => b.toNat + 256 * acc) 0 < 256 ^ l.length := by
  induction l with
  | nil => simp
  | cons b l ih =>
    have := b.isLt
    simp only [List.foldr_cons, List.length_cons, Nat.pow_succ]
    omega

/-- The KEY_ID that DISOWN names is the module's, whatever that is: some value of its 64 bits is it. -/
theorem witness_key_id : ∃ c : BitVec 64, c.toNat = keyIdNo := by
  refine ⟨BitVec.ofNat 64 keyIdNo, ?_⟩
  have h := bytes_bound ((keyId.drop 0).take 8)
  have l : ((keyId.drop 0).take 8).length ≤ 8 := by simp only [List.length_take]; omega
  have b : keyIdNo < 2 ^ 64 := Nat.lt_of_lt_of_le h (Nat.le_trans (Nat.pow_le_pow_right (by decide) l) (by decide))
  rw [BitVec.toNat_ofNat, Nat.mod_eq_of_lt b]

/-- A datagram of a type with its session, SEQ, CTR and n more bytes. -/
def gramOf (type session seq ctr n : Nat) : List Byte :=
  [0x4D, 0x44, 1, BitVec.ofNat 8 type] ++ beBytes 4 session ++ beBytes 4 seq ++ beBytes 8 ctr ++ zeros n
/-- Session 0, number 7, on port M0, which is UP. -/
def mpUp (x : Session) : State := { mdpIn { x with id := 7 } with ports := [(32, { state := .up, admin := true })] }
def entryOf (seq sev : Nat) : Entry := { stamp := 5, ctrl := 0, cls := 1, own := sev, sev := sev, seq := seq }
/-- A session subscribed from an entry on, with entries 1 and 2 in store (severity 3), and the next one 3. -/
def subscribed (next sev : Nat) : State :=
  { mpUp { sub := some { minSev := sev, state := true, next := next, stateAt := 0 } } with ledger := { nextSeq := 3, store := [entryOf 2 3, entryOf 1 3] } }

/-- A sealed datagram of session 7, whose key is empty: a protected one that authenticates. -/
def sealedGram (type seq ctr : Nat) (p : List Byte) : List Byte :=
  let h := [0x4D, 0x44, 1, BitVec.ofNat 8 type] ++ beBytes 4 7 ++ beBytes 4 seq ++ beBytes 8 ctr
  h ++ gcmSeal [] (mdpNonce false ctr) h p

theorem sealedGram_opens (type seq ctr : Nat) (p : List Byte) :
    gcmOpen [] (mdpNonce false ctr) ((sealedGram type seq ctr p).take 20) ((sealedGram type seq ctr p).drop 20) = some p := by
  have e : ∀ h t : List Byte, h.length = 20 → (h ++ t).take 20 = h ∧ (h ++ t).drop 20 = t := by intro h t n; simp [← n]
  have l : ([0x4D, 0x44, 1, BitVec.ofNat 8 type] ++ beBytes 4 7 ++ beBytes 4 seq ++ beBytes 8 ctr : List Byte).length = 20 := by simp
  unfold sealedGram
  rw [(e _ _ l).1, (e _ _ l).2, gcmOpen_gcmSeal]

theorem witness_protected_datagrams :
    (∀ (type seq ctr : Nat) (p : List Byte), gcmOpen ((mpUp {}).session 0).key (mdpNonce false ctr) ((sealedGram type seq ctr p).take 20)
      ((sealedGram type seq ctr p).drop 20) = some p) ∧
    (mpUp {}).mdpHears {} = true ∧ State.reset.mdpHears {} = false ∧ headerOk (sealedGram 3 1 9 [0x50, 0, 0, 0]) 3 20 = true ∧
    headerOk (sealedGram 6 1 9 []) 6 16 = true ∧ headerOk (sealedGram 7 1 9 []) 7 16 = true ∧
    (mpUp {}).sessionOf (be (sealedGram 3 1 9 [0x50, 0, 0, 0]) 4 4) = some 0 ∧ be (sealedGram 3 1 9 [0x50, 0, 0, 0]) 12 8 = 9 ∧
    ((mpUp {}).session 0).ctrNew 9 = true ∧ ((mpUp { rxHigh := 9 }).session 0).ctrNew 9 = false ∧ be (sealedGram 3 1 9 [0x50, 0, 0, 0]) 8 4 = 1 ∧
    ctrLimit < be (sealedGram 3 1 (ctrLimit + 1) [0x50, 0, 0, 0]) 12 8 ∧ ((mpUp {}).session 0).ctrNew (ctrLimit + 1) = true ∧
    ((mpUp {}).session 0).executed + (mpUp {}).mdpWindow < be (sealedGram 3 ((mpUp {}).mdpWindow + 1) 9 []) 8 4 ∧
    (live.sessionOf (be (sealedGram 3 1 9 []) 4 4)) = none :=
  ⟨fun _ _ _ _ => sealedGram_opens _ _ _ _, by decide +kernel⟩

theorem witness_DatagramsOpenServeAndCloseSessions :
    (mpUp {}).mdpHears {} = true ∧ headerOk (gramOf 9 0 0 0 1056) 9 1056 = true ∧ (((gramOf 9 0 0 0 1056).drop 20).all fun b => b == 0) = true ∧
    headerOk (gramOf 9 0 0 0 1055) 9 1056 = false ∧ ((mpUp {}).inRate (mpUp {}).mdp.replies).2 = true ∧ ((mpUp {}).inRate (1000, (mpUp {}).openRate)).2 = false ∧
    ((mpUp {}).inRate (1000, (mpUp {}).openRate - 1)).2 = true ∧ ((mpUp {}).inRate (999, 1000)).2 = true ∧
    headerOk (gramOf 1 0 0 0 1036) 1 1036 = true ∧ ((List.range 8).find? fun k => !((mpUp {}).session k).present) = some 1 ∧
    (mpUp {}).sessionOf (be (gramOf 3 7 1 1 20) 4 4) = some 0 ∧ headerOk (gramOf 3 7 1 1 20) 3 20 = true ∧
    ((mpUp { rxHigh := 1 }).session 0).ctrNew (be (gramOf 3 7 1 1 20) 12 8) = false ∧ ((mpUp { rxHigh := 65 }).session 0).ctrNew 1 = true ∧
    ((mpUp { rxHigh := 66 }).session 0).ctrNew 1 = false ∧ ((mpUp {}).session 0).ctrNew (be (gramOf 3 7 1 1 20) 12 8) = true ∧
    be (gramOf 3 7 1 ctrLimit 20) 12 8 ≤ ctrLimit ∧ ((mpUp {}).session 0).txCtr ≤ ctrLimit ∧
    (((mpUp { executed := 1, answers := [⟨1, [0x50]⟩] }).session 0).answers.find? fun a => a.seq == 1) = some ⟨1, [0x50]⟩ ∧
    1 ≤ (mpUp {}).mdpWindow ∧ be (gramOf 3 7 1 1 20) 8 4 = ((mpUp {}).session 0).executed + 1 ∧ ((mpUp {}).session 0).held = [] ∧ ((mpUp {}).session 0).closing = none ∧
    headerOk (gramOf 6 7 4 1 16) 6 16 = true ∧ be (gramOf 6 7 4 1 16) 8 4 < ((mpUp { nextNotify := 5 }).session 0).nextNotify ∧
    ((mpUp { nextNotify := 4 }).session 0).nextNotify ≤ be (gramOf 6 7 4 1 16) 8 4 ∧ headerOk (gramOf 7 7 4 1 16) 7 16 = true ∧
    be (gramOf 7 7 4 1 16) 8 4 ≤ ((mpUp { executed := 4 }).session 0).executed ∧ ((mpUp { executed := 3 }).session 0).executed < be (gramOf 7 7 4 1 16) 8 4 := by decide +kernel

theorem witness_sessions_end_and_are_notified :
    (mpUp {}).running = true ∧ ((mpUp {}).session 0).present = true ∧ (mpUp {}).due (((mpUp {}).session 0).lastAt + sec (mpUp {}).idleS) = true ∧
    ((mpUp {}).latch .sp R.sess_SESS_SEL).toNat % 8 = 0 ∧ Agent.sp.isCore = true ∧ (mpUp {}).sessionRight (.session 0) 2 = true ∧
    (Agent.session 1).isCore = false ∧ (mpUp {}).sessionRight (.session 1) 2 = false ∧
    ((subscribed 1 3).session 0).sub = some { minSev := 3, state := true, next := 1, stateAt := 0 } ∧ ((subscribed 1 3).session 0).notifies.length < 64 ∧
    ((subscribed 1 3).session 0).txCtr ≤ ctrLimit ∧ (match (subscribed 1 3).ledger.store.getLast? with | some e => e.seq | none => 0) = 1 ∧
    (takeEntries 3 ((subscribed 1 3).notifyRoom {}) 1 (subscribed 1 3).ledger.store.reverse).1 ≠ [] ∧
    (takeEntries 4 ((subscribed 1 4).notifyRoom {}) 1 (subscribed 1 4).ledger.store.reverse).1 = [] ∧ newer32 1 (subscribed 1 3).ledger.nextSeq = false ∧
    newer32 1 1 = false ∧ newer32 1 0 = true ∧
    ((subscribed 0 3).session 0).sub = some { minSev := 3, state := true, next := 0, stateAt := 0 } ∧ (subscribed 0 3).due (0 + sec 1) = true ∧
    (let s := mpUp { notifies := [⟨4, [1], 0⟩] }
     (s.session 0).notifies = [⟨4, [1], 0⟩] ∧ s.due (0 + ms s.retxMs) = true) ∧
    (let s := { mpUp {} with ports := [(32, { state := .up, admin := true }), (33, { state := .up, admin := true })] }
     (s.port (32 + b2n true)).admin = true ∧ (s.port (65 - 33)).state = .up) ∧
    ((mpUp {}).port (65 - (32 + b2n false))).state ≠ .up ∧ ((mpUp {}).port (32 + b2n true)).admin = false := by decide +kernel

/-! ## Witnesses: hull, ledger, device-safe and start-up -/

def hullIn (x : Hull) : State := { live with hull := x }
/-- Not running: phase 1, the hull controller up, no rail. -/
def dark (x : Hull) : State := { live with startup := {}, hull := x }

theorem witness_HullFeedsRailsAndTemperature :
    feedClass 80000 = .over ∧ feedClass 75000 = .high ∧ feedClass 60001 = .high ∧ feedClass 19999 = .absent ∧ feedClass 39999 = .low ∧
    ((hullIn { feedA := { cls := .good } }).feed false).cls = .good ∧ (hullIn {}).feedExpected false = true ∧ (hullIn {}).running = true ∧
    ((hullIn {}).feed false).closed = true ∧ ((hullIn { feedB := { closed := false } }).feed true).closed = false ∧
    (let s := hullIn { feedB := { cls := .high, since := 999900000000 } }
     (s.feed true).cls = .high ∧ (s.feed true).closed = true ∧ (s.feed true).since + 100000000 ≤ s.now) ∧
    (let s := hullIn { feedB := { cls := .high, since := 999900000001 } }
     s.now < (s.feed true).since + 100000000) ∧
    (let s := hullIn { feedA := { cls := .good, closed := false, since := 999000000000 } }
     (s.feed false).cls = .good ∧ (s.feed false).closed = false ∧ (s.feed false).since + 1000000000 ≤ s.now) ∧
    (dark {}).mayStartRails = true ∧ (dark {}).hull.retryAt = none ∧ (dark { tripped := true }).mayStartRails = false ∧
    (let s := dark { starting := some 999995000000, attempts := 2 }
     s.hull.starting = some 999995000000 ∧ 999995000000 + 5000000 ≤ s.now ∧ 2 ≤ s.hull.attempts) ∧ (dark { attempts := 1 }).hull.attempts < 2 ∧
    (dark {}).now < 999995000001 + 5000000 ∧ (dark {}).hull.starting = none ∧ (dark { retryAt := some 1000000000000 }).hull.retryAt = some 1000000000000 ∧
    (hullIn { rails := 10 }).hull.rails = 10 ∧ inBand 0 0 = false ∧ inBand 9 0 = false ∧ (railBand 0).1 ≠ 0 ∧ inBand 0 (railBand 0).1 = true ∧ (hullIn {}).hull.rails ≠ 10 ∧
    (dark {}).running = false ∧ sensorInRange (-10240) = true ∧ sensorInRange 38400 = true ∧ sensorInRange (-10241) = false ∧ sensorInRange 38401 = false ∧
    ((38400 : Int) - 35840).natAbs ≤ 2560 ∧ (hullIn {}).hull.crit = false ∧ (110 * 256 : Int) ≤ max 28160 28160 ∧
    (hullIn { rails := 1 }).hull.rails ≠ 0 ∧ (hullIn {}).hull.rails = 0 ∧ (dark { tripped := true }).hull.tripped = true ∧
    (({ dark { tripped := true } with hull := { (dark { tripped := true }).hull with tripped := false } } : State)).mayStartRails = true ∧
    (dark {}).hull.tripped = false ∧ (dark { retryAt := some 1000000000001 }).hull.retryAt = some 1000000000001 ∧ (dark {}).now < 1000000000001 ∧
    (hullIn { crit := true }).hull.crit = true ∧ (hullIn { feedB := { closed := false } }).running = true ∧
    (hullIn { feedB := { cls := .over } }).running = true ∧ ((hullIn { feedB := { cls := .low } }).feed true).cls = .low := by decide +kernel

/-- POWER_CTRL and HOST_RESET carry a confirmation that only the module's KEY_ID gives: some value is it, and some is not. -/
theorem witness_confirmation : (∃ c, confirmed c = true) ∧ ∃ c, confirmed c = false := by
  have h := bytes_bound ((keyId.drop 0).take 2)
  have l : ((keyId.drop 0).take 2).length ≤ 2 := by simp only [List.length_take]; omega
  have b : le keyId 0 2 < 2 ^ 16 := Nat.lt_of_lt_of_le h (Nat.le_trans (Nat.pow_le_pow_right (by decide) l) (by decide))
  refine ⟨⟨BitVec.ofNat 16 (le keyId 0 2), ?_⟩, ⟨BitVec.ofNat 16 (if le keyId 0 2 = 0 then 1 else 0), ?_⟩⟩
  · rw [confirmed, BitVec.toNat_ofNat, Nat.mod_eq_of_lt b]; exact beq_self_eq_true _
  · by_cases e : le keyId 0 2 = 0
    · simp [confirmed, e]
    · rw [confirmed, if_neg e]; exact beq_false_of_ne fun h => e h.symm

/-- No channel of such a state has a frame under way. -/
theorem witness_no_frames (x : Hull) (c : Nat) : ((hullIn x).chan c).frames = [] := rfl

theorem witness_SupplyWarningAndPowerStates :
    (hullIn {}).hull.sag = false ∧ (37999 : Nat) < 38000 ∧ (hullIn {}).running = true ∧ (dark {}).running = false ∧ (38000 : Nat) ≤ 38000 ∧
    (hullIn { sag := true }).hull.sag = true ∧
    (let s := hullIn { sagHeld := true, sagReleased := some 999900000000 }
     s.hull.sagReleased = some 999900000000 ∧ s.hull.sagHeld = true ∧ 999900000000 + s.sagHoldMs * 1000000 ≤ s.now ∧ s.now < 999900000001 + s.sagHoldMs * 1000000) ∧
    (hullIn {}).hull.running = true ∧ (hullIn {}).hull.resetOn = false ∧ (hullIn { resetOn := true }).hull.resetOn = true ∧ (hullIn { resetOn := true }).hull.running = true ∧ (dark { sag := true }).hull.sag = true ∧ (dark { sag := true }).running = false ∧ (dark { running := false }).hull.running = false ∧
    (hullIn { linkOk := true }).hull.linkOk = true ∧ (hullIn {}).hull.linkOk = false ∧ (hullIn { linkOk := true }).hull.stale = false ∧ (hullIn { stale := true }).hull.stale = true ∧
    (hullIn {}).hull.state = .run ∧ (hullIn { state := .trim }).hull.state ≠ .run ∧ (hullIn { state := .trim }).hull.state = .trim ∧ (hullIn { state := .keep }).hull.state = .keep ∧
    (hullIn { state := .off }).hull.state = .off ∧ (hullIn { state := .keep }).hull.state ≠ .off ∧
    (let s := hullIn { keepAt := some (1000000000000 - 16 * live.slowestPeriod), offDue := true }
     s.hull.keepAt = some (1000000000000 - 16 * live.slowestPeriod) ∧ (1000000000000 - 16 * live.slowestPeriod) + 16 * s.slowestPeriod ≤ s.now ∧ s.hull.offDue = true) ∧
    (hullIn {}).now < 1000000000000 + 16 * (hullIn {}).slowestPeriod ∧ (hullIn { keepAt := some 0 }).hull.offDue = false ∧ (hullIn {}).hull.keepAt = none ∧
    (let s := dark { wakeAt := some 1000000000000, state := .off }
     s.hull.wakeAt = some 1000000000000 ∧ s.hull.state = .off ∧ s.hull.latchedOff = false ∧ 1000000000000 ≤ s.now ∧ s.hull.running = true ∧ s.hull.tripped = false ∧
     s.hull.resetOn = false ∧ s.startup.pinHeld = false ∧ s.hull.rails = 0 ∧ s.hull.starting = none) ∧ (hullIn {}).hull.wakeAt = none := by decide +kernel

theorem witness_power_requests :
    (let s := dark { wakeAt := some 1000000000001, state := .off }
     s.hull.wakeAt = some 1000000000001 ∧ s.hull.state = .off ∧ s.hull.latchedOff = false ∧ s.now < 1000000000001) ∧
    (dark { latchedOff := true }).hull.latchedOff = true ∧
    (let s := hullIn { state := .keep, keepAt := some 0 }
     s.hull.keepAt = some 0 ∧ s.running = true ∧ 0 + 16 * s.slowestPeriod ≤ s.now ∧ s.hull.offDue = false) ∧
    (let s := hullIn { state := .off, keepAt := some 1000000000000, offDue := true }
     s.hull.keepAt = some 1000000000000 ∧ s.running = true ∧ s.now < 1000000000000 + 16 * s.slowestPeriod) ∧
    (let s := hullIn { state := .off }
     s.running = true ∧ s.hull.sag = false ∧ s.hull.state = .off) ∧
    (let s := hullIn { state := .keep, keepAt := some 5 }
     s.running = true ∧ s.hull.sag = false ∧ s.hull.state = .keep ∧ s.hull.state ≠ .trim ∧ s.hull.state ≠ .run) := by decide +kernel

def ledIn (x : Ledger) : State := { live with ledger := x }
/-- An entry of severity 3 that names channel 47. -/
def outEntry : Entry := { stamp := 5, ctrl := 0x20000000, cls := F.CODER_FAULT.code, own := 3, sev := 3, outs := [(.channel 47, 2)] }
def cause (host : Bool) (cleared : Option Nat) : Output × Cause := (.channel 47, { cls := F.INPUT_LOSS.code, sev := 3, host := host, cleared := cleared })

/-- An entry of severity 4 that raises device-safe. -/
def safeEntry : Entry := { stamp := 5, ctrl := 0, cls := F.THERM_CRIT.code, own := 4, sev := 4 }

theorem witness_TheLedgerTakesAndDeliversEntries :
    takeFirst (fun e => e.ctrl == 0) (ledIn {}).ledger.outbox = none ∧
    takeFirst (fun e => e.ctrl == 0x20000000) (ledIn { outbox := [ledgerEntry, outEntry] }).ledger.outbox = some (outEntry, [ledgerEntry]) ∧
    (ledIn { intake := List.replicate 1023 ledgerEntry }).ledger.intake.length < 1024 ∧ raisesSafe outEntry = false ∧
    (ledIn { overflow := true }).ledger.overflow = true ∧
    ({ (ledIn { overflow := true }) with startup := {} } : State).running = false ∧
    nextEntry ((ledIn {}).ledger.intake.filter (ledIn {}).windowPassed) = none ∧
    (let s := ledIn { intake := [outEntry], uncopied := 4095 }
     nextEntry (s.ledger.intake.filter s.windowPassed) = some outEntry ∧ takeFirst (fun x => decide (x = outEntry)) s.ledger.intake = some (outEntry, []) ∧
     s.ledger.uncopied < 4096 ∧ s.conditionStands (.channel 47) outEntry.cls = true) ∧
    outEntry.data.length ≤ 6 ∧ outEntry.late = false ∧ outEntry.response = false ∧ outEntry.sev < 4 ∧ (outEntry.sev = 3 → outEntry.own = 3) ∧
    outEntry.dataOnly = false ∧ ledgerEntry.sev < 3 ∧ (∀ z ∈ (ledIn {}).standing (.channel 47), z.cls ≠ outEntry.cls) ∧
    (ledIn {}).ledger.uncopied = 0 ∧ (ledIn { uncopied := 1 }).systemWritable = false ∧
    (let s := { ledIn { uncopied := 1, store := [outEntry] } with memory := { state := 2 } }
     s.ledger.uncopied ≠ 0 ∧ s.systemWritable = true ∧ s.ledger.overflow = false ∧ s.ledger.store[s.ledger.uncopied - 1]? = some outEntry ∧ s.ledger.mirror.length < 1048576) ∧
    (ledIn {}).nextResponse = none ∧ (ledIn {}).ledger.running = none ∧
    (ledIn { responses := [⟨0x1234, 2, 1⟩, ⟨0x1234, 3, 2⟩], running := some ⟨0x1234, 2, 3⟩ }).nextResponse = some ⟨0x1234, 3, 2⟩ ∧
    (ledIn { running := some ⟨0x1234, 2, 3⟩ }).ledger.running = some ⟨0x1234, 2, 3⟩ ∧ ((ledIn {}).standing (.channel 47)).filter (ledIn {}).quietOver = [] ∧
    (ledIn { causes := [cause false (some 0)] }).standing (.channel 47) = [(cause false (some 0)).2] ∧ (ledIn {}).quietOver (cause false (some 0)).2 = true ∧
    (let s := ledIn { causes := [(.channel 47, { (cause false none).2 with policy := true, lastAt := 999000000000 })] }
     (s.standing (.channel 47)).find? (fun c => c.cls == F.INPUT_LOSS.code && c.policy && c.cleared.isNone) = some { (cause false none).2 with policy := true, lastAt := 999000000000 } ∧
     999000000000 + max (s.quietMs * 1000000) 1000000000 ≤ s.now ∧ s.now < 999000000001 + max (s.quietMs * 1000000) 1000000000) ∧
    ((ledIn {}).standing (.channel 47)).find? (fun c => c.cls == F.INPUT_LOSS.code && c.policy && c.cleared.isNone) = none ∧
    (ledIn {}).sessionRight .sp 1 = false ∧ (logged (ledIn {})).sessionRight (.session 0) 1 = true ∧ outputOf 0 48 = none ∧ outputOf 3 0 = none ∧ outputOf 0 47 = some (.channel 47) ∧
    ((logged (ledIn { causes := [cause true none] })).standing (.channel 47)).find? (fun c => c.cleared.isNone) = some (cause true none).2 ∧
    (∀ c ∈ (logged (ledIn { causes := [cause true (some 0)] })).standing (.channel 47), c.cleared.isSome = true) ∧
    (logged (ledIn { causes := [cause true (some 0)] })).standing (.channel 47) = [(cause true (some 0)).2] ∧
    (∀ c ∈ (logged (ledIn { causes := [cause false (some 0)] })).standing (.channel 47), c.host = false) ∧
    (∀ e ∈ (logged (ledIn { causes := [cause false none] })).ledger.causes, e.2.host = false) := by decide +kernel

theorem witness_full_intake_and_delivery :
    1024 ≤ (ledIn { intake := List.replicate 1024 ledgerEntry, overflow := true }).ledger.intake.length ∧
    (let s := ledIn { outbox := [safeEntry], intake := List.replicate 1024 ledgerEntry }
     takeFirst (fun e => e.ctrl == 0) s.ledger.outbox = some (safeEntry, []) ∧ raisesSafe safeEntry = true ∧ 1024 ≤ s.ledger.intake.length ∧ s.ledger.overflow = false) ∧
    (let s := ledIn { intake := [outEntry], uncopied := 4096 }
     nextEntry (s.ledger.intake.filter s.windowPassed) = some outEntry ∧ takeFirst (fun x => decide (x = outEntry)) s.ledger.intake = some (outEntry, []) ∧
     4096 < s.ledger.uncopied + (s.delivered outEntry).length ∧ outEntry.cls ≠ F.LEDGER_OVERFLOW.code) ∧
    (let e := { outEntry with cls := F.LEDGER_OVERFLOW.code, sev := 4, outs := [] }
     let s := ledIn { intake := [e], uncopied := 4096 }
     nextEntry (s.ledger.intake.filter s.windowPassed) = some e ∧ takeFirst (fun x => decide (x = e)) s.ledger.intake = some (e, []) ∧
     e.cls = F.LEDGER_OVERFLOW.code ∧ e.sev ≠ 3) ∧
    (let s := ledIn { intake := [outEntry], uncopied := 4095 }
     s.ledger.uncopied + (s.delivered outEntry).length ≤ 4096) ∧
    (let s := ledIn { intake := [outEntry], causes := [(.channel 47, { cls := outEntry.cls, sev := 3 })] }
     ∃ z ∈ s.standing (.channel 47), z.cls = outEntry.cls) ∧
    (let e := { outEntry with sev := 2, response := true }
     e.response = true ∧ 2 ≤ e.sev ∧ (ledIn {}).ledger.responses.length < 256) ∧
    (let s := { ledIn { uncopied := 1, store := [outEntry], overflow := true } with memory := { state := 2 } }
     s.ledger.uncopied ≠ 0 ∧ s.systemWritable = true ∧ s.ledger.overflow = true ∧ s.ledger.intake.length < 512 ∧ s.ledger.uncopied - 1 < 2048 ∧ s.running = true) := by decide +kernel

/-- Device-safe stands, with a cause not cleared or cleared. -/
def safeIn (cleared : Bool) : State := logged (ledIn { safe := true, safeCauses := [{ cls := F.SAFE_HOST.code, kind := 1, cleared := cleared }] })

theorem witness_DeviceSafeIsEnteredAndReleased :
    live.ledger.pinHigh = true ∧ live.ledger.pinHigh ≠ false ∧ (live.now < 999999999001 + 1000) ∧
    (let s := ledIn { pinHigh := false, pinSince := 999999999000 }
     s.running = true ∧ s.ledger.pinHigh = false ∧ s.ledger.pinFiltered = true ∧ s.ledger.pinSince + 1000 ≤ s.now ∧ s.ledger.safe = false) ∧
    (safeIn true).ledger.safe = true ∧ (safeIn true).running = true ∧ (dark {}).running = false ∧ (ledIn { pinFiltered := false }).ledger.pinFiltered = false ∧
    (ledIn { pinSince := 999990000000 }).ledger.pinSince + 10000000 ≤ live.now ∧ live.now < 999990000001 + 10000000 ∧
    (∀ x ∈ (coresIn { spRestarts := [940000000000] }).cores.spRestarts, x + 60000000000 ≤ live.now) ∧ 940000000001 ∈ (coresIn { spRestarts := [940000000001] }).cores.spRestarts ∧
    live.now < 940000000001 + 60000000000 ∧ live.sessionRight (.tc 0) 1 = false ∧ (safeIn true).sessionRight (.session 0) 1 = true ∧
    (∃ x ∈ (safeIn false).ledger.safeCauses, x.cleared = false) ∧ (∀ x ∈ (safeIn true).ledger.safeCauses, x.cleared = true) := by decide +kernel

def startIn (x : Startup) : State := { live with startup := x }

theorem witness_ResetsByThePinAndByHostSoftware :
    (true = (startIn {}).startup.pinHigh) ∧ (false ≠ (startIn {}).startup.pinHigh) ∧
    (let s := startIn { phase := 9, pinHigh := false, pinSince := 999999990001 }
     true ≠ s.startup.pinHigh ∧ s.startup.pinHeld = false ∧ s.now < s.startup.pinSince + 10000 ∧ s.running = true) ∧
    (let s := startIn { phase := 9, pinHigh := false, pinSince := 999999990000 }
     s.hull.running = true ∧ s.startup.pinHigh = false ∧ s.startup.pinHeld = false ∧ s.startup.pinSince + 10000 ≤ s.now) ∧
    (let s := { startIn { pinHeld := true, pinSince := 999990000000 } with hull := {} }
     s.startup.pinHigh = true ∧ s.startup.pinHeld = true ∧ s.startup.pinSince + 10000000 ≤ s.now ∧
     (({ s with startup := { s.startup with pinHeld := false } } : State)).mayStartRails = true) ∧
    (startIn { phase := 9 }).running = true ∧ (startIn { phase := 9 }).startup.hostAt = none ∧ Agent.sp.isCore = true ∧
    (let s := startIn { phase := 9, hostAt := some 999998000000 }
     s.startup.hostAt = some 999998000000 ∧ 999998000000 + 2000000 ≤ s.now ∧ s.now < 999998000001 + 2000000) ∧
    (startIn {}).startup.phase = 1 ∧ (startIn {}).hull.rails = 10 ∧ (startIn {}).hull.resetOn = false ∧ (startIn { phase := 2 }).startup.phase ≠ 1 := by decide +kernel

theorem witness_StartUpBringsTheImageIntoForce :
    (let s := { startIn { phase := 3, triedA := true } with memory := { state := 2 }, im := { preferred := true } }
     s.startup.phase = 3 ∧ 2 ≤ s.memory.state ∧ s.startup.noImage = false ∧ s.tried s.im.preferred = false ∧ s.tried (!s.im.preferred) = true ∧ s.payload 0x0C01 0 4 = []) ∧
    (startIn { phase := 4 }).startup.phase ≠ 3 ∧ (startIn { phase := 4 }).im.fwTc.running = [] ∧
    (let s := { startIn { phase := 4 } with im := { fwTc := { running := [1] } } }
     s.startup.phase = 4 ∧ s.im.fwTc.running ≠ [] ∧ s.im.fwTc.aliveBy = none ∧ s.im.fwSp.aliveBy = none ∧ s.im.fwHull.aliveBy = none) ∧
    (startIn { phase := 5 }).startup.phase = 5 ∧ (startIn { phase := 5 }).nothingRipens = true ∧
    ((startIn { phase := 5 }).setTile (tileNo 7 1) { state := .ripening }).nothingRipens = false ∧
    (let s := startIn { phase := 8, phaseAt := 880000000000 }
     6 ≤ s.startup.phase ∧ s.startup.phase ≤ 8 ∧ s.startup.slow = false ∧ s.startup.phaseAt + 120000000000 ≤ s.now ∧ s.now < 880000000001 + 120000000000) := by decide +kernel

/-! ## Numbers and worked examples that the spec prints -/

/-- The nine ASCII bytes "123456789". -/
def nine : List Byte := [0x31, 0x32, 0x33, 0x34, 0x35, 0x36, 0x37, 0x38, 0x39]

/-- R333's table of check values, and the CRC-64 of R251. -/
theorem test_check_values :
    crc32c nine = 0xE3069283 ∧ crc32 nine = 0xCBF43926 ∧ crc16 nine = 0x29B1 ∧
    sigFeed 0xFFFFFFFFFFFFFFFF nine ^^^ 0xFFFFFFFFFFFFFFFF = 0x995DC9BBDF1939FA := by decide +kernel

/-- The example under R3 and R23: a stamp past the wrap is half a line after one before it. -/
theorem test_stamp_wrap : stampDiff 0x4000 0xFFFFFFFFFFFFC000 = 32768 ∧ later 0x4000 0xFFFFFFFFFFFFC000 = true := by decide +kernel

/-- The table of addresses under R413. -/
theorem test_register_map :
    R.cc_CC_STATUS 2 7 = 0x40217000 ∧ R.src_SRC_CNT 263 = 0x00201C1C ∧ R.rd_RD_STATUS 40 = 0x62800000 ∧ R.port_PORT_STATUS 29 = 0x10325000 ∧
    R.id_ID_MODULE = 0x00600000 ∧ layoutOf 0x40217000 = some (.ccL, 48 * 2 + 7) ∧ layoutOf 0x62800000 = some (.rdL, 40) ∧
    layoutOf 0x10325000 = some (.portL, 29) := by decide +kernel

/-- The curd record of line 49 in the example of the chapter "Curd format". -/
def exampleRecord : List Byte := [0x01, 0x8A, 0x3C, 0xA0, 0x00, 0x03, 0xFE, 0x05, 0x20]
def exampleHead : CurdHead := { line := 49, stripe := 1, index := 15, q := 2, restart := true, length := 3 }
def flatUnits (u : List Int) : List (List Int) := List.replicate 15 [128, 128, 128] ++ [u]

theorem test_curd_header : readHead exampleRecord = exampleHead ∧ exampleHead.bytes = exampleRecord.take 6 ∧ restartPos 16 49 15 = true := by decide +kernel

/-- Its parameters: 8 bits and Q 2 give a step of 5, N 52 and b 6; its bounds are 36 and 48 bytes. -/
theorem test_curd_parameters :
    (parOf 1 2).delta = 2 ∧ (parOf 1 2).step = 5 ∧ (parOf 1 2).n = 52 ∧ (parOf 1 2).b = 6 ∧ (parOf 1 2).ctx0 = (2, 1) ∧
    floorBytes (parOf 1 2) 16 = 36 ∧ curdBound 1 16 = 48 := by decide +kernel

/-- Its payload decodes to the picture that the example prints, and the source of the example is coded so. -/
theorem test_curd_decode : decodeCurd 1 16 16 none exampleHead (exampleRecord.drop 6) = some (flatUnits [138, 128, 133]) := by decide +kernel
theorem test_curd_code : codeAdaptive (parOf 1 2) none (flatUnits [140, 126, 131]) = (exampleRecord.drop 6, flatUnits [138, 128, 133]) := by decide +kernel

/-- The channel of the press example: UHD60, 4:4:4 at 10 bit, one stripe, C 256, QMAX 15, 5,200,000 kbit/s, CURD_MAX 384. -/
def uhd60 : PressPlan :=
  { geom := { width := 3840, height := 2160, fmt := 5, curd := 256, sw := [3840] }, zones := [], qmax := 15, rateN := 60, rateD := 1, cap := 5200000, curdMax := 384 }

/-- F by line: one line has 15 x 318 + 60 bytes, so that 2,160 lines and the frame-close have 10,432,864; then eu and base. -/
theorem test_press_budget :
    uhd60.fb = 10833333 ∧ ({ uhd60 with geom := { uhd60.geom with height := 1 } } : PressPlan).floor = 4830 + 64 ∧ 2160 * 4830 + 64 = 10432864 ∧
    (10833333 - 10432864) * 65536 / (2160 * (uhd60.geom.positions.map fun e => uhd60.geom.units e.1 e.2).sum) = 3164 ∧
    30 + uhd60.fp 100 0 3 + 3164 * uhd60.geom.units 0 3 / 65536 = 330 ∧ (parOf 5 15).n = 5 ∧ (parOf 5 15).b = 3 := by decide +kernel

/-- Candidates as Table 7-5 lists them. -/
def cand (floor : Bool) (q n : Nat) : Winner := { q := q, floor := floor, zone := false, restart := false, payload := zeros n, recon := [] }
def pressRow (qb d : Nat) (l : List (Nat × Nat)) : Option (Nat × Bool × Nat × Nat) :=
  let a := min (uhd60.cmax 0 0) (330 + d - 30)
  (chooseWinner 960 a (l.map (fun x => cand false x.1 x.2) ++ [cand true 15 288])).map fun w => (w.q, w.floor, w.payload.length, nextQ 0 15 qb a w)

/-- Rows k0 to k3 of Table 7-5. -/
theorem test_press_selections :
    pressRow 6 200 [(6, 410), (7, 352), (8, 301), (9, 255)] = some (7, false, 352, 7) ∧
    pressRow 7 148 [(7, 240), (8, 214), (9, 190), (10, 171)] = some (7, false, 240, 6) ∧
    pressRow 9 208 [(9, 470), (10, 428), (11, 391), (12, 356)] = some (12, false, 356, 13) ∧
    pressRow 13 152 [(13, 402), (14, 395), (15, 389), (15, 389)] = some (15, true, 288, 15) := by decide +kernel

/-- The queue sum of the example under R171: 30 paths of CURD_MAX 384 take 386 ns of 400 Gbit/s, and 960 would not fit in 390 ns. -/
theorem test_queue_bound : 30 * (108 + 384 + 142) + 256 = 19276 ∧ (8 * 19276 + 399) / 400 = 386 ∧ 390 < (8 * (30 * (108 + 960 + 142) + 256) + 399) / 400 := by decide

/-- The example of Table 14-5: RT0 of priority 6 falls back to TC0 while TC1 sleeps, and at TC2 waits for its threshold. -/
def movingSource (target : Nat) (threshold2 : Nat) (mask : Bool) : State :=
  coresIn { tc := [(0, { state := .active }), (1, { state := .sleep }), (2, { state := .active })], thresholds := [(0, 3), (2, threshold2)],
            sources := [(263, { prio := 6, target := target, fallback := 0, count := 1, mask := mask })] }

theorem test_pending_interrupt_moves :
    (movingSource 1 7 false).topSource 0 = 263 ∧ (movingSource 2 7 false).topSource 0 = 0 ∧ (movingSource 2 7 false).topSource 2 = 0 ∧
    (movingSource 2 5 false).topSource 2 = 263 ∧ (movingSource 2 5 true).topSource 2 = 0 := by decide +kernel

/-- A step takes the front command; with none waiting one nanosecond passes. -/
theorem test_step_front : (match step { live with pending := [.irqClaim (.tc 0) 0] } with | .next t => t.pending == [] && t.now == 1000000000000 | _ => false) = true := by decide +kernel
theorem test_step_idle : (match step live with | .next t => t.now == 1000000000001 | _ => false) = true := by decide +kernel

/-- The reset state by the tables of "Start-up and register map": phase 1, every register at its reset value, no session, no wheel. -/
theorem test_reset : State.reset.running = false ∧ State.reset.startup.phase = 1 ∧ State.reset.pending = [] ∧ State.reset.reg R.id_ID_MODULE = 0x480002B0 := by decide +kernel

/-! ## Ill-formed commands, one for each check of WellFormed -/

theorem test_ill_formed_addresses :
    Instr.wf (.registerWrite .sp (2 ^ 32) 0) = false ∧ Instr.wf (.stagedWrite 0 (2 ^ 32) 0) = false ∧ Instr.wf (.sramUncorr 0 (2 ^ 32)) = false ∧
    Instr.wf (.irqEvent (2 ^ 32) 0) = false ∧ Instr.wf (.read 0 (2 ^ 32) 1) = false ∧ Instr.wf (.read 0 0 65536) = false ∧ Instr.wf (.write 0 (2 ^ 32) []) = false ∧
    Instr.wf (.modify 0 (2 ^ 32) 0 0) = false ∧ Instr.wf (.ledgerIntake (2 ^ 32)) = false ∧ Instr.wf (.blockRead 0 256 0 1) = false ∧
    Instr.wf (.blockRead 0 0 (2 ^ 64) 1) = false ∧ Instr.wf (.blockRead 0 0 0 (2 ^ 32)) = false ∧ Instr.wf (.blockWrite 0 256 0 []) = false ∧
    Instr.wf (.blockWrite 0 0 (2 ^ 64) []) = false := by decide

theorem test_ill_formed_numbers :
    Instr.wf (.goPoint (2 ^ 32)) = false ∧ Instr.wf (.commitCancel .sp (2 ^ 32)) = false ∧ Instr.wf (.mergeSkewTimeout (.surface 512) 0) = false ∧
    Instr.wf (.mergeSkewTimeout (.channel 0) (2 ^ 32)) = false ∧ Instr.wf (.pathSilenceTimeout (.surface 512) false) = false ∧
    Instr.wf (.surfaceFrameClose 512 0) = false ∧ Instr.wf (.surfaceCloseTimeout 0 (2 ^ 32)) = false ∧ Instr.wf (.fecUncorrBurst 0 0) = false ∧
    Instr.wf (.monitorWindowEnd .refIn [5, 0]) = false ∧ Instr.wf (.claimForget 512) = false ∧ Instr.wf (.audioFrameBoundary [⟨2, 0, []⟩]) = false ∧
    Instr.wf (.audioFrameBoundary [⟨0, 16, []⟩]) = false ∧ Instr.wf (.wheelSign (2 ^ 64)) = false ∧ Instr.wf (.dupCopyDone 256 0) = false ∧
    Instr.wf (.subscribe 0 256 0 0) = false ∧ Instr.wf (.slotClear 0 256) = false ∧ Instr.wf (.powerReqOff .sp 0 (2 ^ 14)) = false ∧
    Instr.wf (.thermSample []) = false ∧ Instr.wf (.quietExpire (.channel 48)) = false ∧ Instr.wf (.quietExpire (.head 16)) = false ∧
    Instr.wf (.raisedCauseClear (.audio 2) 0) = false ∧ Instr.wf (.raisedCauseClear (.tio 8) 0) = false ∧ Instr.wf (.raisedCauseClear (.channel 0) 65536) = false := by decide

theorem test_ill_formed_positions :
    Instr.wf (.verdict 0 0 128 none) = false ∧ Instr.wf (.verdictDeadline 0 0 128) = false ∧ Instr.wf (.curdLateHandover 0 0 128) = false ∧
    Instr.wf (.surfaceWriteTimeout 0 512 0 0) = false ∧ Instr.wf (.surfaceWriteTimeout 0 0 256 0) = false ∧
    Instr.wf (.surfaceWriteTimeout 0 0 0 (2 ^ 32)) = false ∧ Instr.wf (.mdpIdentify { addr := 2 ^ 128 } []) = false ∧
    Instr.wf (.mdpRequest { addr := 2 ^ 128 } []) = false ∧ Instr.wf (.mdpClose { port := 65536 } []) = false ∧
    Instr.wf (.write 0 0 (List.replicate 65535 0)) = true := by decide +kernel

theorem test_ill_formed_messages :
    Instr.wf (.ptpMessageRx 0 ⟨2 ^ 128, []⟩) = false ∧ Instr.wf (.probeRx ⟨2 ^ 128, []⟩) = false ∧ Instr.wf (.answerRx ⟨2 ^ 128, []⟩) = false ∧
    Instr.wf (.registerWrite .sp (2 ^ 32 - 1) 0) = true ∧ Instr.wf (.recordAdmit (.data 256 0 [])) = false ∧
    Instr.wf (.recordAdmit (.data 4 64 [])) = false ∧ Instr.wf (.mdpOpen { addr := 2 ^ 128 } []) = false ∧ Instr.wf (.mdpAck { port := 65536 } []) = false ∧
    Instr.wf .pageWrite = true ∧ Instr.wf (.powerReqOff .sp 0 16383) = true := by decide

/-! ## Witnesses: the statements over all commands -/

theorem witness_first_statements :
    State.reset.pending = [] ∧ State.reset.running = false ∧ live.pending = [] ∧ live.running = true ∧ (80000 : Nat) ≤ 80000 ∧ 80000 < 80001 := by decide +kernel
theorem witness_canonical : live.Canonical := ⟨by decide +kernel, by decide +kernel, by decide +kernel⟩
theorem witness_exec_answers : (match exec .pageWrite State.reset with | .next t => decide (t = State.reset) | _ => false) = true := by decide +kernel
theorem witness_feed_fault : (match exec (.feedOver true 80001) State.reset with | .fault e => decide (e = .outsideRatings) | _ => false) = true := by decide +kernel

end Sys2Proof.Tests
end

section
/-!
PROOF. What one register write does (R4 to R6, R15, R320, R374, R413): one rule per gate that a write passes, one per access code of
the register it reaches, and the statement about REGISTER_WRITE that they make up.
-/

namespace Sys2Proof.Machine

/-! ## The gates of a write: D0, the session, the map, the tile -/

theorem exec_registerWrite (g : Agent) (a : Nat) (v : Word) (s : State) :
    exec (.registerWrite g a v) s = execRegisterWrite g a v s := rfl

/-- While D0 is in reset, and by a closed session, a write does nothing (log entry 56). -/
theorem execRegisterWrite_of_idle {g : Agent} {s : State} (a : Nat) (v : Word) (h : s.running = false ∨ s.agentLive g = false) :
    execRegisterWrite g a v s = .next s := by
  obtain h | h := h <;> simp [execRegisterWrite, h]

theorem execRegisterWrite_of_refused {g : Agent} {a : Nat} {s : State} (v : Word) (hrun : s.running = true)
    (hlive : s.agentLive g = true) (ha : accessRefused a = true) :
    execRegisterWrite g a v s = .next (s.accessFault g a true) := by
  simp [execRegisterWrite, hrun, hlive, ha]

theorem execRegisterWrite_of_mapped {g : Agent} {a : Nat} {s : State} (v : Word) (hrun : s.running = true)
    (hlive : s.agentLive g = true) (ha : accessRefused a = false) :
    execRegisterWrite g a v s = .next (s.writeReg g a v) := by
  simp [execRegisterWrite, hrun, hlive, ha]

section
variable {s : State} {g : Agent} {a : Nat} {v : Word} {l : Layout} {n : Nat}

/-- A gated tile, or one held in reset, ignores a write (log entry 52). -/
theorem State.writeReg_of_dark (hl : layoutOf a = some (l, n)) (hd : s.tileDark a = true) : s.writeReg g a v = s := by
  simp [State.writeReg, hl, hd]

/-- A register that each agent has for itself, without an effect of its own. -/
theorem State.writeReg_of_perAgent (hl : layoutOf a = some (l, n)) (hd : s.tileDark a = false)
    (ha : s.writeActs g l n (offsetOf a) a v = none) (hp : perAgent l (offsetOf a) g = some true) :
    s.writeReg g a v = s.storeLatch g l (offsetOf a) a v := by
  simp [State.writeReg, hl, hd, ha, hp]

/-- A register that all agents share, without an effect of its own. -/
theorem State.writeReg_of_shared (hl : layoutOf a = some (l, n)) (hd : s.tileDark a = false)
    (ha : s.writeActs g l n (offsetOf a) a v = none) (hp : perAgent l (offsetOf a) g = none) :
    s.writeReg g a v = s.storeReg l (offsetOf a) a v := by
  simp [State.writeReg, hl, hd, ha, hp]

end

/-! ## The access codes (R5, R6) -/

section
variable {s : State} {a : Nat} {v : Word} {l : Layout} {off : Nat} {r : RegRow}

theorem State.storeReg_of_unnamed (hr : l.rowAt off = none) : s.storeReg l off a v = s := by
  simp [State.storeReg, hr]

theorem State.storeReg_of_readOnly (hr : l.rowAt off = some r) (hc : r.w1c = 0) (hw : r.rw = 0) : s.storeReg l off a v = s := by
  simp [State.storeReg, hr, hc, hw]

theorem State.storeReg_of_w1c (hr : l.rowAt off = some r) (hc : r.w1c ≠ 0) :
    s.storeReg l off a v = s.eventClear a (v &&& w32 r.w1c) := by
  simp [State.storeReg, hr, hc]

theorem State.storeReg_of_eventEnable (hr : l.rowAt off = some r) (hc : r.w1c = 0) (hw : r.rw ≠ 0)
    (he : isEventEnable l off = true) : s.storeReg l off a v = s.eventEnable a (v &&& w32 r.rw) := by
  simp [State.storeReg, hr, hc, hw, he]

theorem State.storeReg_of_rw (hr : l.rowAt off = some r) (hc : r.w1c = 0) (hw : r.rw ≠ 0)
    (he : isEventEnable l off = false) : s.storeReg l off a v = s.setReg a (rwValue (s.reg a) r.rw v) := by
  simp [State.storeReg, hr, hc, hw, he]

theorem State.storeLatch_of_row {g : Agent} (hr : l.rowAt off = some r) :
    s.storeLatch g l off a v = s.setLatch g a (rwValue (s.latch g a) r.rw v) := by
  simp [State.storeLatch, hr]

end

/-- W1C keeps the bits not written 1 and those that hardware sets in the same cycle (R6, log entry 55). -/
theorem State.reg_eventClear (s : State) (a b : Nat) (v : Word) :
    (s.eventClear a v).reg b = if b = a then s.reg a &&& (~~~v ||| s.setBits a) else s.reg b :=
  State.reg_setReg _ _ _ _

/-- The latches of two agents at one address are apart. -/
theorem State.latch_setLatch_of_ne {g h : Agent} (s : State) (a : Nat) (v : Word) (hne : agentNo h ≠ agentNo g) :
    (s.setLatch g a v).latch h a = s.latch h a := by
  rw [State.latch_setLatch, if_neg]
  omega

/-! ## EVENT_EN (R325) -/

/-- A write of EVENT_EN touches no other register but SATURATED of the hub. -/
theorem State.reg_eventEnable (s : State) (a b : Nat) (v : Word) (h : b ≠ R.hub_SATURATED) :
    (s.eventEnable a v).reg b = if b = a then v else s.reg b := by
  rw [← State.reg_setReg]
  unfold State.eventEnable
  dsimp only
  split
  · split
    · exact State.reg_irqCount _ _ _ h
    · rfl
  · rfl

/-- An enable bit that rises over its set event bit counts one event of the block's source, unless the source has counted in this
cycle (log entry 24). -/
theorem State.eventEnable_counts {s : State} {a k : Nat} {v : Word} (hk : eventSource a = some k) (h0 : 0 < k) (h286 : k ≤ 286)
    (hc : (s.source k).counted ≠ some s.now) (hn : (s.source k).count < 255)
    (hrise : v &&& ~~~(s.reg a) &&& s.reg (a - 4) ≠ 0) :
    ((s.eventEnable a v).source k).count = (s.source k).count + 1 := by
  have run : s.eventEnable a v =
      ((s.setReg a v).setSource k { (s.source k) with counted := some s.now }).irqCount k := by
    unfold State.eventEnable
    rw [hk]
    exact if_pos ⟨hrise, hc⟩
  have src : ((s.setReg a v).setSource k { (s.source k) with counted := some s.now }).source k =
      { (s.source k) with counted := some s.now } := by simp
  rw [run, (State.irqCount_source _ k k).1, src, if_pos ⟨rfl, h0.ne', h286, hn⟩]

/-! ## Refused addresses (R4, R15, R320, R350, R413) -/

theorem State.logEntry_frame (s : State) (e : Entry) : ∃ l, s.logEntry e = { s with ledger := l } := by
  unfold State.logEntry
  split
  · exact ⟨_, rfl⟩
  · exact ⟨s.ledger, rfl⟩

theorem State.log_frame (s : State) (c : FaultClass) (ctrl : Nat) (data : List Byte) :
    ∃ l, s.log c ctrl data = { s with ledger := l } :=
  s.logEntry_frame _

theorem State.logRated_frame (s : State) (c : FaultClass) (inst ctrl dp : Nat) (data : Nat → List Byte) (only : Bool) (stamp : Stamp) :
    ∃ l, s.logRated c inst ctrl dp data only stamp = { s with ledger := l } := by
  unfold State.logRated
  extract_lets old n ready rest
  split
  · exact State.logEntry_frame _ _
  · exact ⟨_, rfl⟩

theorem State.mdpLog_frame (s : State) (c : FaultClass) (i : Nat) (data : List Byte) :
    ∃ l, s.mdpLog c i data = { s with ledger := l } :=
  s.logRated_frame _ _ _ _ _ _ _

/-- While D0 runs, a class that is logged makes one entry. -/
theorem State.log_logsOne {s : State} (hrun : s.running = true) (c : FaultClass) (ctrl : Nat) (data : List Byte) :
    s.LogsOne (s.log c ctrl data) c := by
  refine ⟨s.entry c ctrl data, ?_, rfl⟩
  rw [State.log, State.logEntry_outbox, if_pos hrun]

/-- A refused access of a core makes one entry of CORE_ACCESS, and nothing changes besides (R320). -/
theorem State.accessFault_of_core {g : Agent} {s : State} (a : Nat) (store : Bool) (hrun : s.running = true) (hg : g.isCore = true) :
    s.LogsOne (s.accessFault g a store) F.CORE_ACCESS ∧ ∃ l, s.accessFault g a store = { s with ledger := l } := by
  cases g with
  | tc n => exact ⟨State.log_logsOne hrun _ _ _, s.log_frame _ _ _⟩
  | sp => exact ⟨State.log_logsOne hrun _ _ _, s.log_frame _ _ _⟩
  | session i => cases hg

/-- A refused access of a session counts in VIOLATIONS; its entry in the ledger is all that changes besides (R350). -/
theorem State.accessFault_of_session {g : Agent} (s : State) (a : Nat) (store : Bool) (hg : g.isCore = false) :
    ∃ l, s.accessFault g a store = { s.count R.mdp_VIOLATIONS with ledger := l } := by
  cases g with
  | tc n => cases hg
  | sp => cases hg
  | session i => exact s.mdpViolation.mdpLog_frame _ _ _

theorem toNat_w32_min (n : Nat) : (w32 (min 0xFFFFFFFF n)).toNat = min 0xFFFFFFFF n := by
  rw [w32, BitVec.toNat_ofNat, Nat.mod_eq_of_lt (by omega)]

theorem State.toNat_reg_count (s : State) (a : Nat) : ((s.count a).reg a).toNat = min 0xFFFFFFFF ((s.reg a).toNat + 1) := by
  rw [State.reg_count, if_pos rfl, toNat_w32_min]

/-! ## The statement -/

/-- Settles O52: a write passes the gates of D0, session, map and tile in turn, and then the access code of its register decides. -/
theorem registerWritesFollowTheirAccessCodes : Obligations.RegisterWritesFollowTheirAccessCodes := by
  intro g a v s
  rw [exec_registerWrite]
  refine ⟨fun h => execRegisterWrite_of_idle a v (.inl h), fun hrun => ⟨fun h => execRegisterWrite_of_idle a v (.inr h), ?_, ?_⟩⟩
  · intro hlive ha
    rw [execRegisterWrite_of_refused v hrun hlive ha]
    constructor
    · intro hg
      obtain ⟨hlog, l, e⟩ := State.accessFault_of_core a true hrun hg
      exact ⟨_, rfl, hlog, by rw [e]⟩
    · intro hg
      obtain ⟨l, e⟩ := s.accessFault_of_session a true hg
      rw [e]
      exact ⟨_, rfl, s.toNat_reg_count _, fun b hb => (s.reg_count _ b).trans (if_neg hb), rfl⟩
  intro l n hlive ha hl
  rw [execRegisterWrite_of_mapped v hrun hlive ha]
  refine ⟨fun hd => by rw [State.writeReg_of_dark hl hd], ?perAgent, ?shared⟩
  case perAgent =>
    intro hd hacts hp r hr
    rw [State.writeReg_of_perAgent hl hd hacts hp, State.storeLatch_of_row hr]
    exact ⟨_, rfl, (s.latch_setLatch g g a a _).trans (if_pos rfl), fun h hne => s.latch_setLatch_of_ne a _ hne, rfl⟩
  case shared =>
    intro hd hacts hp
    rw [State.writeReg_of_shared hl hd hacts hp]
    refine ⟨fun hr => by rw [State.storeReg_of_unnamed hr], fun r hr => ⟨?readOnly, ?w1c, ?eventEnable, ?rw⟩⟩
    case readOnly =>
      intro hc hw
      rw [State.storeReg_of_readOnly hr hc hw]
    case w1c =>
      intro hc
      rw [State.storeReg_of_w1c hr hc]
      exact ⟨_, rfl, (s.reg_eventClear a a _).trans (if_pos rfl), fun b hb => (s.reg_eventClear a b _).trans (if_neg hb), rfl⟩
    case eventEnable =>
      intro hc hw he hsat
      rw [State.storeReg_of_eventEnable hr hc hw he]
      exact ⟨_, rfl, (s.reg_eventEnable a a _ hsat).trans (if_pos rfl),
        fun k hk h0 h286 hcnt hn hrise => State.eventEnable_counts hk h0 h286 hcnt hn hrise,
        fun b hb hbsat => (s.reg_eventEnable a b _ hbsat).trans (if_neg hb)⟩
    case rw =>
      intro hc hw he
      rw [State.storeReg_of_rw hr hc hw he]
      exact ⟨_, rfl, (s.reg_setReg a a _).trans (if_pos rfl), fun b hb => (s.reg_setReg a b _).trans (if_neg hb), rfl⟩

end Sys2Proof.Machine
end

section
/-!
PROOF. From what an operation keeps to what the state is afterwards: two states that agree in every part are one, and an entry
that is made stays.
-/

namespace Sys2Proof.Machine

/-! ## Frames -/

/-- Two states that agree in every part, and in the queue, are one. -/
theorem State.eq_of_parts {s t : State} (hq : t.pending = s.pending) (h : ∀ p : Part, p.Same s t) : t = s := by
  obtain ⟨⟩ := s
  obtain ⟨⟩ := t
  rw [State.mk.injEq]
  exact ⟨h .regs, h .latches, h .setNow, h .mem, h .readValue, h .wire, h .fresh, h .clock, h .servo, h .ptp, h .refIn, h .tio, h .im,
    h .commits, h .roll, h .tiles, h .config, h .lanes, h .ports, h .optics, h .ft, h .chanIn, h .surfaces, h .chans, h .coders,
    h .takeovers, h .rinds, h .queues, h .pair, h .heads, h .readers, h .scalers, h .audio, h .memory, h .recorder, h .cores, h .mdp,
    h .hull, h .ledger, h .startup, hq⟩

/-- After an operation that keeps all parts outside `A`, the state is the earlier one but for the parts of `A`. -/
theorem Keeps.eq_of_agree {A : Nat} {s t x : State} (h : Keeps A s t) (hq : x.pending = s.pending)
    (outside : ∀ p : Part, A.testBit p.bit = false → p.Same x s) (inside : ∀ p : Part, A.testBit p.bit = true → p.Same x t) : t = x := by
  refine State.eq_of_parts (h.pending.trans hq.symm) fun p => ?_
  cases hp : A.testBit p.bit
  case false => exact Part.same_trans (outside p hp) (h.same p hp)
  case true => exact inside p hp

/-! ## Units are read from their own part -/

section
variable {s t : State} (n : Nat)

theorem State.reg_of_regs (h : t.regs = s.regs) : t.reg n = s.reg n := by rw [State.reg, h, State.reg]
theorem State.tioPin_of_tio (h : t.tio = s.tio) : t.tioPin n = s.tioPin n := by rw [State.tioPin, h, State.tioPin]
theorem State.inst_of_ptp (h : t.ptp = s.ptp) : t.inst n = s.inst n := by rw [State.inst, h, State.inst]
theorem State.session_of_mdp (h : t.mdp = s.mdp) : t.session n = s.session n := by rw [State.session, h, State.session]
theorem State.port_of_ports (h : t.ports = s.ports) : t.port n = s.port n := by rw [State.port, h, State.port]

end

/-! ## What the ledger is told -/

theorem State.running_of_startup {s t : State} (h : t.startup = s.startup) : t.running = s.running := by simp [State.running, h]

/-- An entry that joins the intake is still among the new ones after operations that take none out. -/
theorem State.Logs.keep {A : Nat} {s t u : State} {c : FaultClass} (h : s.Logs t c) (k : Keeps A t u)
    (hA : A.testBit drainBit = false) : s.Logs u c := by
  obtain ⟨a, e, b, he, hc⟩ := h
  obtain ⟨w, hw⟩ := k.noted hA
  exact ⟨a, e, b ++ w, by simp [hw, he], hc⟩

/-- Entries made before do not hide a later one. -/
theorem State.Logs.after {A : Nat} {s t u : State} {c : FaultClass} (h : t.Logs u c) (k : Keeps A s t)
    (hA : A.testBit drainBit = false) : s.Logs u c := by
  obtain ⟨a, e, b, he, hc⟩ := h
  obtain ⟨w, hw⟩ := k.noted hA
  exact ⟨w ++ a, e, b, by simp [hw, he], hc⟩

theorem State.LogsOne.logs {s t : State} {c : FaultClass} (h : s.LogsOne t c) : s.Logs t c := by
  obtain ⟨e, he, hc⟩ := h
  exact ⟨[], e, [], he, hc⟩

/-- What counts from one state counts from another that has told the ledger the same. -/
theorem State.LogsOne.of_ledger {s s' t : State} {c : FaultClass} (h : s.LogsOne t c) (e : s'.ledger = s.ledger) : s'.LogsOne t c := by
  unfold State.LogsOne
  rw [e]
  exact h

theorem State.Logs.of_ledger {s s' t : State} {c : FaultClass} (h : s.Logs t c) (e : s'.ledger = s.ledger) : s'.Logs t c := by
  unfold State.Logs
  rw [e]
  exact h

end Sys2Proof.Machine
end

section
/-!
PROOF. The TIO pins (R41 to R46, R48): what each row does to its pin, case by case, and the statements about outputs, inputs, the
stuck check and software's controls.
-/

namespace Sys2Proof.Machine

/-! ## A change of one pin -/

theorem State.tioPin_modTioPin_same (s : State) (n : Nat) (f : TioPin → TioPin) : (s.modTioPin n f).tioPin n = f (s.tioPin n) := by simp

@[simp] theorem State.tioPin_send (s : State) (x : Sent) (n : Nat) : (s.send x).tioPin n = s.tioPin n := rfl

theorem State.tioPin_modTioPin_ne (s : State) {n m : Nat} (f : TioPin → TioPin) (h : m ≠ n) : (s.modTioPin n f).tioPin m = s.tioPin m := by
  simp [h]

/-! ## Outputs (R41, R42) -/

/-- After a write of ARM_HI the pin is armed or refused as before it, since the other registers of the pin lie elsewhere. -/
theorem State.armRefusal_setReg_ARM_HI (s : State) (n : Nat) (v : Word) (a : Stamp) :
    (s.setReg (R.tio_ARM_HI n) v).armRefusal n a = s.armRefusal n a := by
  have period : (s.setReg (R.tio_ARM_HI n) v).reg (R.tio_PERIOD_TICKS n) = s.reg (R.tio_PERIOD_TICKS n) :=
    (s.reg_setReg _ _ _).trans (if_neg (by simp [R.tio_PERIOD_TICKS, R.tio_ARM_HI]))
  unfold State.armRefusal
  rw [period]
  rfl

theorem State.armRefusal_eq_none_iff (s : State) (n : Nat) (a : Stamp) :
    s.armRefusal n a = none ↔
      ¬stampDiff a s.stamp * (s.mode.fd * 1000000000 : Nat) < (1000 * s.mode.lines * s.mode.fn * 65536 : Nat) ∧
      ¬(s.tioKind n = 1 ∧ widthReaches s.mode (s.tioTimeA n) (s.reg (R.tio_PERIOD_TICKS n)).toNat = true) ∧
      s.startup.gateOpen = true := by
  unfold State.armRefusal
  dsimp only
  split
  case isTrue early => exact iff_of_false nofun fun h => h.1 early
  case isFalse late =>
    split
    case isTrue wide => exact iff_of_false nofun fun h => h.2.1 wide
    case isFalse narrow =>
      rw [and_iff_right late, and_iff_right narrow]
      cases s.startup.gateOpen <;> simp

section
variable {s : State} {pin : Fin 8}

/-- ARM_HI_WRITE of a ONESHOT or PERIODIC output, armed or refused for `r`. -/
theorem execArmHiWrite_of_output {g : Agent} {v : Word} (hrun : s.running = true) (hm : s.tioMode pin.val = 1)
    (hk : s.tioKind pin.val ≤ 1) :
    (s.armRefusal pin.val (v ++ s.reg (R.tio_ARM_LO pin.val)) = none →
      execArmHiWrite g pin v s = .next ((s.setReg (R.tio_ARM_HI pin.val) v).modTioPin pin.val fun p =>
        { p with armed := some (v ++ s.reg (R.tio_ARM_LO pin.val)), nextEdge := 0 })) ∧
    (∀ r, s.armRefusal pin.val (v ++ s.reg (R.tio_ARM_LO pin.val)) = some r →
      ∃ d, execArmHiWrite g pin v s =
        .next ((s.setReg (R.tio_ARM_HI pin.val) v).log F.TIO_ARM_REFUSED (R.tio pin.val) d)) := by
  have lo : (s.setReg (R.tio_ARM_HI pin.val) v).reg (R.tio_ARM_LO pin.val) = s.reg (R.tio_ARM_LO pin.val) :=
    (s.reg_setReg _ _ _).trans (if_neg (by simp [R.tio_ARM_LO, R.tio_ARM_HI]))
  have mode : ¬((s.setReg (R.tio_ARM_HI pin.val) v).tioMode pin.val ≠ 1 ∨ 1 < (s.setReg (R.tio_ARM_HI pin.val) v).tioKind pin.val) := by
    change ¬(s.tioMode pin.val ≠ 1 ∨ 1 < s.tioKind pin.val)
    omega
  unfold execArmHiWrite
  dsimp only
  rw [hrun, if_neg mode, lo, State.armRefusal_setReg_ARM_HI]
  constructor
  · intro h
    rw [h]
    rfl
  · intro r h
    rw [h]
    exact ⟨_, rfl⟩

/-- A ONESHOT output has an edge due when its armed stamp is reached. -/
theorem State.dueEdge_of_oneshot {a : Stamp} (hk : s.tioKind pin.val = 0) (ha : (s.tioPin pin.val).armed = some a)
    (hr : s.reached a = true) : s.dueEdge pin.val = some a := by
  unfold State.dueEdge
  dsimp only
  rw [hk, ha]
  simp [hr]

theorem execTioPulseEdge_of_due {e : Stamp} (hm : s.tioMode pin.val = 1) (hs : s.clock.seeded = true) (hg : s.startup.gateOpen = true)
    (he : s.dueEdge pin.val = some e) (hh : (s.tioPin pin.val).held = false) (ha : s.allHeld = false) :
    execTioPulseEdge pin s = .next (((s.modTioPin pin.val fun p =>
        { p with lastEdge := e, nextEdge := p.nextEdge + 1, armed := if s.tioKind pin.val = 0 then none else p.armed }).modTioPin
          pin.val fun p => { p with pulseEnd := some (s.now + s.tioTimeA pin.val) }).send (.pin pin.val true)) := by
  unfold execTioPulseEdge
  dsimp only
  rw [if_pos ⟨hm, hs, hg⟩, he]
  refine if_neg ?_
  simp only [State.modTioPin_eq, State.tioPin_setTioPin, if_true, hh]
  change ¬(false = true ∨ s.allHeld = true)
  simp [ha]

theorem execTioPulseEnd_of_due {e : Nat} (hp : (s.tioPin pin.val).pulseEnd = some e) (hd : s.due e = true) :
    execTioPulseEnd pin s =
      .next ((s.modTioPin pin.val fun p => { p with pulseEnd := none }).send (.pin pin.val false)) := by
  simp [execTioPulseEnd, hp, hd]

end

/-- Settles O13: the refusal of R42 decides an arm, an armed stamp that is reached is the due edge of a ONESHOT output, and the end of a
pulse asks for nothing but its time. -/
theorem tioOutputsArmPulseAndEnd : Obligations.TioOutputsArmPulseAndEnd := by
  refine ⟨?arm, ?edge, ?finish⟩
  case arm =>
    intro g n v s hrun hm hk a early wide
    have refusal := s.armRefusal_eq_none_iff n.val a
    obtain ⟨armed, refused⟩ := execArmHiWrite_of_output (g := g) (v := v) hrun hm hk
    constructor
    · intro hearly hwide hgate
      refine ⟨_, armed (refusal.2 ⟨hearly, hwide, hgate⟩), ?_, ?_, fun m hm => ?_, rfl⟩
      · rw [State.tioPin_modTioPin_same]
      · exact (s.reg_setReg _ _ _).trans (if_pos rfl)
      · exact (State.tioPin_modTioPin_ne _ _ hm).trans (State.tioPin_of_tio _ rfl)
    · intro hbad
      obtain ⟨r, hr⟩ : ∃ r, s.armRefusal n.val a = some r := by
        rw [← Option.ne_none_iff_exists']
        intro hnone
        obtain ⟨he, hw, hg⟩ := refusal.1 hnone
        obtain h | h | h := hbad
        · exact he h
        · exact hw h
        · rw [hg] at h; cases h
      obtain ⟨d, run⟩ := refused r hr
      refine ⟨_, run, (State.log_logsOne (s := s.setReg (R.tio_ARM_HI n.val) v) hrun _ _ d).of_ledger rfl, ?_⟩
      obtain ⟨l, hl⟩ := (s.setReg (R.tio_ARM_HI n.val) v).log_frame F.TIO_ARM_REFUSED (R.tio n.val) d
      rw [hl]
      rfl
  case edge =>
    intro n a s hm hk hs hg ha hr hh hall
    refine ⟨_, execTioPulseEdge_of_due hm hs hg (State.dueEdge_of_oneshot hk ha hr) hh hall, rfl, ?_, ?_, fun m hm => ?_, rfl⟩
    · rw [State.tioPin_send, State.tioPin_modTioPin_same]
    · rw [State.tioPin_send, State.tioPin_modTioPin_same, State.tioPin_modTioPin_same]
      exact if_pos hk
    · rw [State.tioPin_send, State.tioPin_modTioPin_ne _ _ hm, State.tioPin_modTioPin_ne _ _ hm]
  case finish =>
    intro n e s hp hd
    refine ⟨_, execTioPulseEnd_of_due hp hd, rfl, ?_, fun m hm => ?_, rfl⟩
    · rw [State.tioPin_send, State.tioPin_modTioPin_same]
    · rw [State.tioPin_send, State.tioPin_modTioPin_ne _ _ hm]

/-! ## Inputs: a transition, and what an edge makes of its pin (R44, R45) -/

/-- A capture joins a FIFO with room, and is dropped otherwise. -/
def TioPin.capture (p : TioPin) (c : Capture) : TioPin :=
  if p.fifo.length < 16 then { p with fifo := p.fifo ++ [c] } else { p with overflow := true, overflowLog := true }

/-- The pin at a qualified edge, before chatter and capture. -/
def TioPin.qualify (p : TioPin) (now flags : Nat) : TioPin :=
  { p with level := p.raw, qualifying := false, lastEdgeAt := now, edges := now :: p.edges.filter (fun e => now < e + ms 1)
           activeSince := if p.raw == bit flags 0 then some p.rawAt else none, stuck := false }

/-- The pin after a qualified edge. -/
def TioPin.afterEdge (p : TioPin) (now flags chatter : Nat) : TioPin :=
  let q := p.qualify now flags
  if p.quarantined then q
  else if chatter < q.edges.length then { q with quarantined := true }
  else if bit flags (if p.raw then 2 else 3) then q.capture ⟨p.rawStamp, p.raw⟩
  else q

section
variable {p : TioPin} {now flags chatter : Nat}

theorem TioPin.afterEdge_of_chatter (hq : p.quarantined = false)
    (hc : chatter < (p.edges.filter fun e => now < e + ms 1).length + 1) :
    p.afterEdge now flags chatter = { p.qualify now flags with quarantined := true } := by
  simp [TioPin.afterEdge, hq, TioPin.qualify, hc]

theorem TioPin.afterEdge_of_capture (hq : p.quarantined = false)
    (hc : (p.edges.filter fun e => now < e + ms 1).length + 1 ≤ chatter) (hb : bit flags (if p.raw then 2 else 3) = true)
    (hf : p.fifo.length < 16) :
    p.afterEdge now flags chatter =
      { p.qualify now flags with fifo := p.fifo ++ [⟨p.rawStamp, p.raw⟩] } := by
  simp [TioPin.afterEdge, hq, TioPin.qualify, Nat.not_lt.2 hc, hb, TioPin.capture, hf]

/-- Chatter and capture touch neither the level nor the active level nor STUCK. -/
theorem TioPin.afterEdge_level (p : TioPin) (now flags chatter : Nat) :
    (p.afterEdge now flags chatter).level = p.raw ∧ (p.afterEdge now flags chatter).qualifying = false ∧
    (p.afterEdge now flags chatter).activeSince = (p.qualify now flags).activeSince ∧
    (p.afterEdge now flags chatter).stuck = false := by
  unfold TioPin.afterEdge TioPin.capture
  dsimp only
  repeat' split
  all_goals exact ⟨rfl, rfl, rfl, rfl⟩

/-- Whether a pin was stuck makes no difference to an edge (R46). -/
theorem TioPin.afterEdge_stuck (p : TioPin) (b : Bool) (now flags chatter : Nat) :
    ({ p with stuck := b } : TioPin).afterEdge now flags chatter = p.afterEdge now flags chatter := rfl

end

theorem State.tioPin_captureEdge (s : State) (n m : Nat) (c : Capture) :
    (s.captureEdge n c).tioPin m = if m = n then (s.tioPin n).capture c else s.tioPin m := by
  unfold State.captureEdge TioPin.capture
  dsimp only
  rw [State.tioPin_of_tio m (State.irqCount_tio _ _)]
  split
  case isTrue room => simp
  case isFalse full =>
    split
    · simp [State.tioPin_of_tio _ (State.count_tio s _)]
    · rw [State.tioPin_of_tio m (State.log_tio _ _ _ _)]
      simp [State.tioPin_of_tio _ (State.count_tio s _)]

theorem State.tioPin_chatter (s : State) (n m k : Nat) :
    (s.chatter n k).tioPin m = if m = n then { s.tioPin n with quarantined := true } else s.tioPin m := by
  unfold State.chatter
  dsimp only
  rw [State.tioPin_of_tio m ((State.arbitrate_keeps rfl (Keeps.refl 0x800000000 _)).same .tio rfl)]
  simp only [State.modSource_eq]
  rw [State.tioPin_of_tio m (State.setSource_tio _ _ _), State.tioPin_of_tio m (State.log_tio _ _ _ _)]
  simp

/-- An arbitration leaves the count and SAT that a source was given. -/
theorem State.arbitrate_setSource (s : State) (n : Nat) (x : IrqSource) :
    ((s.setSource n x).arbitrate.source n).count = x.count ∧ ((s.setSource n x).arbitrate.source n).sat = x.sat := by
  obtain ⟨a, b, e⟩ := State.arbitrate_source (s.setSource n x) n
  rw [e, State.source_setSource, if_pos rfl]
  exact ⟨rfl, rfl⟩

/-- Chatter sets its source's count to 255 with SAT, and is logged (R45, R326). -/
theorem State.chatter_notes {s : State} (hrun : s.running = true) (n k : Nat) :
    ((s.chatter n k).source (3 + n)).count = 255 ∧ ((s.chatter n k).source (3 + n)).sat = true ∧ s.Logs (s.chatter n k) F.CHATTER := by
  have noted := (State.log_logsOne (s := s.modTioPin n fun p => { p with quarantined := true }) hrun F.CHATTER (R.tio n)
    (leBytes 1 n ++ leBytes 4 k)).of_ledger (s' := s) rfl
  exact ⟨(State.arbitrate_setSource _ _ _).1, (State.arbitrate_setSource _ _ _).2,
    noted.logs.keep (A := 0x800000000) (State.arbitrate_keeps rfl (State.modSource_keeps rfl (Keeps.refl _ _))) rfl⟩

/-! ## The input rows -/

/-- A level that ends while it waits for qualification is rejected. -/
def State.countRejected (s : State) (n : Nat) : State :=
  if (s.tioPin n).qualifying then s.count (R.tio_REJECTED n) else s

theorem State.countRejected_eq (s : State) (n : Nat) : s.countRejected n = { s with regs := (s.countRejected n).regs } := by
  unfold State.countRejected
  split <;> rfl

theorem State.toNat_reg_countRejected (s : State) (n : Nat) :
    ((s.countRejected n).reg (R.tio_REJECTED n)).toNat =
      if (s.tioPin n).qualifying then min 0xFFFFFFFF ((s.reg (R.tio_REJECTED n)).toNat + 1) else (s.reg (R.tio_REJECTED n)).toNat := by
  unfold State.countRejected
  split
  · exact s.toNat_reg_count _
  · rfl

theorem State.reg_countRejected_ne (s : State) {n a : Nat} (h : a ≠ R.tio_REJECTED n) : (s.countRejected n).reg a = s.reg a := by
  unfold State.countRejected
  split
  · exact (s.reg_count _ _).trans (if_neg h)
  · rfl

section
variable {s : State} {pin : Fin 8}

theorem execTioInputTransition_of_change {v : Bool} (hrun : s.running = true) (hm : s.tioMode pin.val = 2)
    (hv : v ≠ (s.tioPin pin.val).raw) :
    execTioInputTransition pin v s = .next ((s.countRejected pin.val).modTioPin pin.val fun p => { p with raw := v, rawAt := s.now, rawStamp := s.stamp, qualifying := v != p.level }) := by
  unfold execTioInputTransition
  dsimp only
  rw [if_pos ⟨hrun, hm, hv⟩]
  change Host.Outcome.next (State.modTioPin (s.countRejected pin.val) pin.val fun p =>
    { p with raw := v, rawAt := (s.countRejected pin.val).now, rawStamp := (s.countRejected pin.val).stamp, qualifying := v != p.level }) = _
  rw [s.countRejected_eq]
  rfl

/-- A level that has held for FILTER: the pin is the one after its edge, no other pin changes, and chatter is noted (R44, R45). -/
theorem execTioLevelQualified_of_due (hrun : s.running = true) (hm : s.tioMode pin.val = 2)
    (hq : (s.tioPin pin.val).qualifying = true) (hd : s.due ((s.tioPin pin.val).rawAt + s.tioTimeA pin.val) = true) :
    ∃ t, execTioLevelQualified pin s = .next t ∧
      (∀ m, t.tioPin m = if m = pin.val then
        (s.tioPin pin.val).afterEdge s.now (s.tioFlags pin.val) (s.tioChatter pin.val) else s.tioPin m) ∧
      ((s.tioPin pin.val).quarantined = false →
        s.tioChatter pin.val < ((s.tioPin pin.val).edges.filter fun e => s.now < e + ms 1).length + 1 →
        (t.source (3 + pin.val)).count = 255 ∧ (t.source (3 + pin.val)).sat = true ∧ s.Logs t F.CHATTER) := by
  have run : execTioLevelQualified pin s = .next (
      let u := s.modTioPin pin.val fun q => q.qualify s.now (s.tioFlags pin.val)
      let k := ((s.tioPin pin.val).qualify s.now (s.tioFlags pin.val)).edges.length
      if (s.tioPin pin.val).quarantined then u
      else if s.tioChatter pin.val < k then u.chatter pin.val k
      else if bit (s.tioFlags pin.val) (if (s.tioPin pin.val).raw then 2 else 3) then
        u.captureEdge pin.val ⟨(s.tioPin pin.val).rawStamp, (s.tioPin pin.val).raw⟩
      else u) := by
    unfold execTioLevelQualified
    dsimp only
    rw [if_pos ⟨hrun, hm, hq, hd⟩]
    simp only [apply_ite Host.Outcome.next]
    rfl
  refine ⟨_, run, fun m => ?_, fun hn hc => ?_⟩
  · unfold TioPin.afterEdge
    dsimp only
    repeat' split
    all_goals simp_all [State.tioPin_chatter, State.tioPin_captureEdge]
  · obtain ⟨hcount, hsat, hlog⟩ := State.chatter_notes (s := s.modTioPin pin.val fun q => q.qualify s.now (s.tioFlags pin.val)) hrun pin.val
      ((s.tioPin pin.val).qualify s.now (s.tioFlags pin.val)).edges.length
    dsimp only
    rw [hn, if_neg nofun, if_pos (by exact hc)]
    exact ⟨hcount, hsat, hlog⟩

end

/-- Settles O14: a transition is remembered whatever the pin was doing, and the pin after a qualified edge decides the rest. -/
theorem tioInputsQualifyAndCapture : Obligations.TioInputsQualifyAndCapture := by
  refine ⟨?transition, ?qualified⟩
  case transition =>
    intro n v s hrun hm hv
    have run := execTioInputTransition_of_change (pin := n) hrun hm hv
    have old (m : Nat) : (s.countRejected n.val).tioPin m = s.tioPin m := State.tioPin_of_tio m (by rw [s.countRejected_eq])
    refine ⟨_, run, ?_, ?_, ?_, ?_, s.toNat_reg_countRejected n.val, fun m hm => ?_, fun a ha => s.reg_countRejected_ne ha, ?_⟩
    iterate 3 rw [State.tioPin_modTioPin_same]
    · rw [State.tioPin_modTioPin_same, old]
      exact bne_iff_ne
    · rw [State.tioPin_modTioPin_ne _ _ hm, old]
    · rw [s.countRejected_eq]
      rfl
  case qualified =>
    intro n s hrun hm hq hd
    obtain ⟨t, run, pins, noted⟩ := execTioLevelQualified_of_due hrun hm hq hd
    have pin := (pins n.val).trans (if_pos rfl)
    obtain ⟨hlevel, hidle, -, -⟩ := (s.tioPin n.val).afterEdge_level s.now (s.tioFlags n.val) (s.tioChatter n.val)
    refine ⟨t, run, ?_, ?_, fun m hm => (pins m).trans (if_neg hm), ?_, ?_, ?_⟩
    · rw [pin, hlevel]
    · rw [pin, hidle]
    · intro hfree hc hb hf
      rw [pin, TioPin.afterEdge_of_capture hfree hc hb hf]
    · intro hfree hc
      obtain ⟨hcount, hsat, hlog⟩ := noted hfree hc
      rw [pin, TioPin.afterEdge_of_chatter hfree hc]
      exact ⟨rfl, rfl, hlog, hcount, hsat⟩
    · refine (execTioLevelQualified_keeps (A := 0x4800000801) rfl (Keeps.refl _ s) t run).eq_of_agree rfl ?_ ?_
      all_goals
        intro p hp
        cases p <;> first | rfl | cases hp

/-! ## The stuck check (R46) -/

/-- STUCK is bit 2 of TIO_STATUS (Table 2-17). -/
theorem State.bit_tioStatus_stuck (s : State) (n : Nat) : bit (s.tioStatus n).toNat 2 = (s.tioPin n).stuck := by
  have small (b : Bool) : b2n b ≤ 1 := by cases b <;> decide
  have set : b2n true = 1 := rfl
  have clear : b2n false = 0 := rfl
  unfold State.tioStatus bit
  dsimp only
  generalize (if s.tioMode n = 1 then _ else _ : Bool) = level
  have hq := small (s.tioPin n).quarantined
  have hl := small level
  rw [w32, BitVec.toNat_ofNat]
  cases (s.tioPin n).stuck
  · rw [beq_eq_false_iff_ne]
    omega
  · rw [beq_iff_eq]
    omega

section
variable {s : State} {pin : Fin 8} {b : Nat}

theorem execTioStuckTimeout_of_due (hm : s.tioMode pin.val = 2) (hb : (s.tioPin pin.val).activeSince = some b)
    (h0 : 0 < s.tioTimeB pin.val) (hd : b + ms (s.tioTimeB pin.val) < s.now) (hs : (s.tioPin pin.val).stuck = false) :
    execTioStuckTimeout pin s = .next ((s.modTioPin pin.val fun q => { q with stuck := true }).log F.TIO_STUCK (R.tio pin.val)
      (leBytes 1 pin.val ++ leBytes 1 (b2n (s.tioPin pin.val).level))) := by
  unfold execTioStuckTimeout
  dsimp only
  rw [hb]
  exact if_pos ⟨hm, h0, hd, hs⟩

theorem execTioStuckTimeout_of_not_due (hb : (s.tioPin pin.val).activeSince = some b)
    (h : s.tioTimeB pin.val = 0 ∨ s.now ≤ b + ms (s.tioTimeB pin.val) ∨ (s.tioPin pin.val).stuck = true) :
    execTioStuckTimeout pin s = .next s := by
  unfold execTioStuckTimeout
  dsimp only
  rw [hb]
  refine if_neg ?_
  rintro ⟨-, h0, hd, hs⟩
  obtain h | h | h := h
  · omega
  · omega
  · rw [hs] at h; cases h

end

/-- Settles O15: the stuck check reads and sets STUCK alone, and the pin after an edge does not depend on it. -/
theorem stuckInputsFollowR46 : Obligations.StuckInputsFollowR46 := by
  intro n s hrun hm
  constructor
  · intro b hb
    refine ⟨fun h0 hd hs => ?_, execTioStuckTimeout_of_not_due hb⟩
    have pins (m : Nat) := State.tioPin_of_tio m (State.log_tio (s.modTioPin n.val fun q => { q with stuck := true }) F.TIO_STUCK
      (R.tio n.val) (leBytes 1 n.val ++ leBytes 1 (b2n (s.tioPin n.val).level)))
    have pin := (pins n.val).trans (State.tioPin_modTioPin_same _ _ _)
    refine ⟨_, execTioStuckTimeout_of_due hm hb h0 hd hs, pin, ?_,
      (State.log_logsOne (s := s.modTioPin n.val _) hrun _ _ _).of_ledger rfl,
      fun m hm => (pins m).trans (State.tioPin_modTioPin_ne _ _ hm), ?_⟩
    · rw [State.bit_tioStatus_stuck, pin]
    · obtain ⟨l, e⟩ := (s.modTioPin n.val fun q => { q with stuck := true }).log_frame F.TIO_STUCK (R.tio n.val)
        (leBytes 1 n.val ++ leBytes 1 (b2n (s.tioPin n.val).level))
      rw [e]
      rfl
  · intro hq hd
    obtain ⟨t, run, pins, -⟩ := execTioLevelQualified_of_due hrun hm hq hd
    have pin := (pins n.val).trans (if_pos rfl)
    obtain ⟨-, -, hactive, hstuck⟩ := (s.tioPin n.val).afterEdge_level s.now (s.tioFlags n.val) (s.tioChatter n.val)
    refine ⟨t, run, fun h => ?_, fun h => ?_, fun b => ?_⟩
    · rw [pin, hactive]
      exact if_pos (beq_iff_eq.2 h)
    · rw [pin, hactive, hstuck]
      exact ⟨if_neg (mt beq_iff_eq.1 h), rfl⟩
    · let x := s.modTioPin n.val fun p => { p with stuck := b }
      have old : x.tioPin n.val = { s.tioPin n.val with stuck := b } := State.tioPin_modTioPin_same _ _ _
      obtain ⟨u, urun, upins, -⟩ := execTioLevelQualified_of_due (s := x) (pin := n) hrun hm (by rw [old]; exact hq) (by rw [old]; exact hd)
      refine ⟨u, urun, ?_, fun m hm => ?_⟩
      · rw [upins, if_pos rfl, old, TioPin.afterEdge_stuck, pin]
        rfl
      · rw [upins, if_neg hm]
        exact State.tioPin_modTioPin_ne _ _ hm

/-! ## Software's controls (R43 to R45, R48) -/

section
variable {s : State} {g : Agent} {pin : Fin 8}

theorem State.tioIgnored_logsOne (hrun : s.running = true) (n : Nat) :
    s.LogsOne (s.tioIgnored n) F.TIO_RELEASE_IGNORED ∧ s.tioIgnored n = { s with ledger := (s.tioIgnored n).ledger } := by
  obtain ⟨l, e⟩ := s.log_frame F.TIO_RELEASE_IGNORED (R.tio n) (leBytes 1 n)
  refine ⟨State.log_logsOne hrun _ _ _, ?_⟩
  rw [State.tioIgnored, e]

theorem execTioRelease_of_quarantined (hrun : s.running = true) (hh : (s.tioPin pin.val).held = false)
    (hq : (s.tioPin pin.val).quarantined = true) :
    execTioRelease g pin s = .next (if s.due ((s.tioPin pin.val).lastEdgeAt + ms 10) then
      s.modTioPin pin.val fun q => { q with quarantined := false, edges := [] } else s.tioIgnored pin.val) := by
  unfold execTioRelease
  dsimp only
  rw [hrun, hh, hq, if_neg (by decide), if_neg (by decide), if_pos rfl, ← apply_ite Host.Outcome.next]

theorem execTioRelease_of_held_by (hrun : s.running = true) (hh : (s.tioPin pin.val).held = true)
    (h : s.servo.state ≠ .locked ∨ s.allHeld = true ∨ ∃ c ∈ s.standing (.tio pin.val), c.cleared = none) :
    execTioRelease g pin s = .next (s.tioIgnored pin.val) := by
  unfold execTioRelease
  dsimp only
  rw [hrun, hh, if_neg (by decide), if_pos rfl, if_pos (by simpa using h)]

theorem execTioRelease_of_free (hrun : s.running = true) (hh : (s.tioPin pin.val).held = true)
    (hs : s.standing (.tio pin.val) = []) (hl : s.servo.state = .locked) (ha : s.allHeld = false) :
    execTioRelease g pin s = .next (s.modTioPin pin.val fun q => { q with held := false }) := by
  unfold execTioRelease
  dsimp only
  rw [hrun, hh, hs, hl, ha]
  rfl

theorem execTioFlush_of_running (hrun : s.running = true) :
    execTioFlush g pin s = .next (s.modTioPin pin.val fun p => { p with fifo := [] }) := by
  simp [execTioFlush, hrun]

/-- What a read of CAP_LO answers and latches for a FIFO. -/
def capWords : List Capture → Word × Word × Word
  | c :: _ => (c.stamp.extractLsb' 0 32, c.stamp.extractLsb' 32 32, w32 (2 + b2n c.rising))
  | [] => (0, 0, 0)

/-- The words that a read of CAP_LO leaves for the reader. -/
def State.capLatched (s : State) (g : Agent) (n : Nat) (w : Word × Word × Word) : State :=
  ((s.setLatch g (R.tio_CAP_HI n) w.2.1).setLatch g (R.tio_CAP_INFO n) w.2.2).answer w.1

theorem State.tioPin_capLatched (s : State) (g : Agent) (n m : Nat) (w : Word × Word × Word) :
    (s.capLatched g n w).tioPin m = s.tioPin m := rfl

theorem State.latch_capLatched (s : State) (g : Agent) (n : Nat) (w : Word × Word × Word) :
    (s.capLatched g n w).latch g (R.tio_CAP_HI n) = w.2.1 ∧ (s.capLatched g n w).latch g (R.tio_CAP_INFO n) = w.2.2 := by
  have apart : R.tio_CAP_HI n ≠ R.tio_CAP_INFO n := by simp [R.tio_CAP_HI, R.tio_CAP_INFO]
  constructor
  · change State.latch (State.setLatch _ g _ _) g _ = _
    rw [State.latch_setLatch, if_neg (by omega), State.latch_setLatch, if_pos rfl]
  · change State.latch (State.setLatch _ g _ _) g _ = _
    rw [State.latch_setLatch, if_pos rfl]

theorem execCapLoRead_of_running (hrun : s.running = true) :
    execCapLoRead g pin s = .next ((s.modTioPin pin.val fun p =>
      { p with fifo := (s.tioPin pin.val).fifo.tail, overflow := false, overflowLog := false }).capLatched g pin.val
        (capWords (s.tioPin pin.val).fifo)) := by
  unfold execCapLoRead
  dsimp only
  rw [hrun]
  cases (s.tioPin pin.val).fifo <;> rfl

end

/-- Settles O16: each control has one effect in each case, and the read of CAP_LO takes its words from the FIFO's head. -/
theorem tioControlsFromSoftware : Obligations.TioControlsFromSoftware := by
  refine ⟨?quarantine, ?free, ?stands, ?flush, ?read⟩
  case quarantine =>
    intro g n s hrun hh hq
    have run := execTioRelease_of_quarantined (g := g) hrun hh hq
    refine ⟨fun hd => ?_, fun hd => ?_⟩
    · rw [if_pos (by simpa [ms] using hd)] at run
      refine ⟨_, run, ?_, fun m hm => State.tioPin_modTioPin_ne _ _ hm, rfl⟩
      rw [State.tioPin_modTioPin_same]
    · rw [if_neg (by simpa [ms] using hd)] at run
      exact ⟨_, run, State.tioIgnored_logsOne hrun n.val⟩
  case free =>
    intro g n s hrun hh hs hl ha
    refine ⟨_, execTioRelease_of_free (g := g) hrun hh hs hl ha, ?_, fun m hm => State.tioPin_modTioPin_ne _ _ hm, rfl⟩
    rw [State.tioPin_modTioPin_same]
  case stands =>
    intro g n s hrun hh h
    exact ⟨_, execTioRelease_of_held_by (g := g) hrun hh h, State.tioIgnored_logsOne hrun n.val⟩
  case flush =>
    intro g n s hrun
    exact ⟨_, execTioFlush_of_running (g := g) hrun, State.tioPin_modTioPin_same _ _ _, fun m hm => State.tioPin_modTioPin_ne _ _ hm, rfl⟩
  case read =>
    intro g n s hrun
    have run := execCapLoRead_of_running (g := g) (pin := n) hrun
    obtain ⟨hhi, hinfo⟩ := State.latch_capLatched (s.modTioPin n.val fun p =>
      { p with fifo := (s.tioPin n.val).fifo.tail, overflow := false, overflowLog := false }) g n.val (capWords (s.tioPin n.val).fifo)
    refine ⟨_, run, ?_, fun c r hc => ?_, fun hc => ?_, fun m hm => ?_, rfl⟩
    · rw [State.tioPin_capLatched, State.tioPin_modTioPin_same]
    · refine ⟨by rw [hc]; rfl, hhi.trans (by rw [hc]; rfl), hinfo.trans ?_⟩
      rw [hc]
      cases h : c.rising <;> simp [capWords, h, b2n, w32]
    · exact ⟨by rw [hc]; rfl, hhi.trans (by rw [hc]; rfl), hinfo.trans (by rw [hc]; rfl)⟩
    · rw [State.tioPin_capLatched, State.tioPin_modTioPin_ne _ _ hm]

end Sys2Proof.Machine
end

section
/-!
PROOF. The clock monitors of REF_IN, the lanes and the PDM clocks (R35), and the servo that loses its source (R29, R31, R32): what
every change of the servo's state leaves, and that the source selected is the candidate.
-/

namespace Sys2Proof.Machine

/-! ## Monitors (R35) -/

section
variable {m : Monitor} {p : List Nat} (now : Nat) (stamp : Stamp)

theorem Monitor.window_of_good_clean (hg : m.state = .good) (hp : p ≠ []) (hw : windowWithin m.nominal p = true) :
    (m.window none p now stamp).1.state = .good ∧ (m.window none p now stamp).1.glitchRun = 0 := by
  simp [Monitor.window, hg, hp, hw]

theorem Monitor.window_of_good_glitched (hg : m.state = .good) (hp : p ≠ []) (hw : windowWithin m.nominal p = false) :
    (m.glitchRun < 7 → (m.window none p now stamp).1.state = .good ∧ (m.window none p now stamp).1.glitchRun = m.glitchRun + 1) ∧
    (7 ≤ m.glitchRun → (m.window none p now stamp).1.state = .lost) := by
  constructor
  · intro h
    have h8 : m.glitchRun + 1 < 8 := by omega
    simp [Monitor.window, hg, hp, hw, h8]
  · intro h
    have h8 : ¬m.glitchRun + 1 < 8 := by omega
    simp [Monitor.window, hg, hp, hw, h8]

theorem Monitor.window_of_clean (hs : m.state = .acquiring ∨ m.state = .lost) (hp : p ≠ []) (hw : windowWithin m.nominal p = true) :
    (7 ≤ m.cleanRun → (m.window none p now stamp).1.state = .good) ∧
    (m.cleanRun < 7 → (m.window none p now stamp).1.state = m.state ∧ (m.window none p now stamp).1.cleanRun = m.cleanRun + 1) := by
  constructor
  · intro h
    have h0 : m.cleanRun ≠ 0 := by omega
    have h8 : ¬m.cleanRun + 1 < 8 := by omega
    obtain hs | hs := hs <;> simp [Monitor.window, hs, hp, hw, h0, h8]
  · intro h
    have h8 : m.cleanRun + 1 < 8 := by omega
    by_cases h0 : m.cleanRun = 0
    · obtain hs | hs := hs <;> simp [Monitor.window, Monitor.learn, hs, hp, hw, h0]
    · obtain hs | hs := hs <;> simp [Monitor.window, hs, hp, hw, h0, h8]

theorem Monitor.window_of_dirty (hs : m.state = .acquiring ∨ m.state = .lost) (hp : p ≠ []) (hw : windowWithin m.nominal p = false) :
    (m.window none p now stamp).1.state = m.state ∧ (m.window none p now stamp).1.cleanRun = 0 := by
  obtain hs | hs := hs <;> simp [Monitor.window, Monitor.learn, hs, hp, hw]

theorem Monitor.silent_of_good (hg : m.state = .good) : m.silent.1.state = .lost := by simp [Monitor.silent, hg]

theorem Monitor.silent_of_not_good (hg : m.state ≠ .good) : m.silent = ({ m with cleanRun := 0 }, .none) := by
  unfold Monitor.silent
  split
  · contradiction
  · rfl

end

/-- The stamp that a REF_IN window shows as the last good one. -/
def State.refStamp (s : State) : Stamp := if s.refMode = 2 then s.refIn.edgeStamp else s.stamp

/-- What REF_IN's monitor reports goes to the ledger, the servo and the outputs; the monitor itself stays as the window left it. -/
theorem execMonitorWindowEnd_refIn {s : State} (hrun : s.running = true) (p : List Nat) :
    ∃ t, execMonitorWindowEnd .refIn p s = .next t ∧ t.refIn = (s.refIn.window none p s.now s.refStamp).1 := by
  let w := s.refIn.window none p s.now s.refStamp
  refine ⟨(({ s with refIn := w.1 } : State).refNews w.2).followRefIn, ?_, ?_⟩
  · simp [execMonitorWindowEnd, hrun, w, State.refStamp]
  · exact (State.followRefIn_keeps rfl (State.refNews_keeps rfl (Keeps.refl 0xcc3da0cb65 ({ s with refIn := w.1 } : State)))).same .refIn rfl

theorem execMonitorEdgeTimeout_refIn {s : State} (hrun : s.running = true) :
    ∃ t, execMonitorEdgeTimeout .refIn s = .next t ∧ t.refIn = s.refIn.silent.1 := by
  refine ⟨({ s with refIn := s.refIn.silent.1 } : State).refNews s.refIn.silent.2, ?_, ?_⟩
  · simp [execMonitorEdgeTimeout, hrun]
  · exact (State.refNews_keeps rfl (Keeps.refl 0xcc3da0cb65 ({ s with refIn := s.refIn.silent.1 } : State))).same .refIn rfl

theorem execMonitorEdgeTimeout_lane {s : State} {l : Fin 34} (hrun : s.running = true) (hg : (s.lane l.val).monitor.state ≠ .good) :
    execMonitorEdgeTimeout (.lane l) s =
      .next (s.modLane l.val fun x => { x with monitor := { (s.lane l.val).monitor with cleanRun := 0 } }) := by
  simp only [execMonitorEdgeTimeout, hrun, Monitor.silent_of_not_good hg]
  rfl

theorem execMonitorEdgeTimeout_pdm {s : State} {k : Fin 2} (hrun : s.running = true) (hg : (s.pdm k.val).state ≠ .good) :
    execMonitorEdgeTimeout (.pdm k) s = .next (s.setPdm k.val { s.pdm k.val with cleanRun := 0 }) := by
  simp only [execMonitorEdgeTimeout, hrun, Monitor.silent_of_not_good hg]
  rfl

theorem State.pdm_setPdm (s : State) (k : Nat) (m : Monitor) : (s.setPdm k m).pdm k = m := by
  unfold State.setPdm State.pdm
  by_cases h : k = 0 <;> simp [State.modAudio, h]

/-- Settles O12: the row's window or its absence makes the new monitor, and what it reports leaves that as it is. -/
theorem clockMonitorsFollowR35 : Obligations.ClockMonitorsFollowR35 := by
  refine ⟨?good, ?clean, ?dirty, ?silent, ?lane, ?pdm⟩
  case good =>
    intro s p hrun hp hg
    obtain ⟨t, run, e⟩ := execMonitorWindowEnd_refIn hrun p
    refine ⟨fun hw => ?_, fun hw h => ?_, fun hw h => ?_⟩
    all_goals refine ⟨t, run, ?_⟩; rw [e]
    · exact Monitor.window_of_good_clean _ _ hg hp hw
    · exact (Monitor.window_of_good_glitched _ _ hg hp hw).1 h
    · exact (Monitor.window_of_good_glitched _ _ hg hp hw).2 h
  case clean =>
    intro s p hrun hp hs hw
    obtain ⟨t, run, e⟩ := execMonitorWindowEnd_refIn hrun p
    refine ⟨t, run, ?_⟩
    rw [e]
    exact Monitor.window_of_clean _ _ hs hp hw
  case dirty =>
    intro s p hrun hp hs hw
    obtain ⟨t, run, e⟩ := execMonitorWindowEnd_refIn hrun p
    refine ⟨t, run, ?_⟩
    rw [e]
    exact Monitor.window_of_dirty _ _ hs hp hw
  case silent =>
    intro s hrun hg
    obtain ⟨t, run, e⟩ := execMonitorEdgeTimeout_refIn hrun
    exact ⟨t, run, by rw [e, Monitor.silent_of_good hg]⟩
  case lane =>
    intro s l hrun hg
    refine ⟨_, execMonitorEdgeTimeout_lane hrun hg, ?_, fun k hk => ?_, rfl⟩
    · simp
    · simp [hk]
  case pdm =>
    intro s k hrun hg
    exact ⟨_, execMonitorEdgeTimeout_pdm hrun hg, by rw [State.pdm_setPdm], rfl⟩

/-! ## What every change of the servo's state leaves -/

/-- The source stays, the PTP sources change in their runs of agreeing samples alone, and no register changes but EVENTS of the time
block and SATURATED of the hub. -/
structure State.SourceKept (s t : State) : Prop where
  source : t.servo.source = s.servo.source
  inst   : ∀ i, ∃ r, t.inst i = { s.inst i with agreeRun := r }
  reg    : ∀ a, a ≠ R.time_EVENTS → a ≠ R.hub_SATURATED → t.reg a = s.reg a

theorem State.SourceKept.of_parts {s t : State} (hs : t.servo.source = s.servo.source) (hp : t.ptp = s.ptp) (hr : t.regs = s.regs) :
    s.SourceKept t :=
  ⟨hs, fun i => ⟨(s.inst i).agreeRun, State.inst_of_ptp i hp⟩, fun a _ _ => State.reg_of_regs a hr⟩

theorem State.SourceKept.trans {s t u : State} (h : s.SourceKept t) (k : t.SourceKept u) : s.SourceKept u where
  source := k.source.trans h.source
  inst i := by
    obtain ⟨a, ha⟩ := h.inst i
    obtain ⟨b, hb⟩ := k.inst i
    exact ⟨b, by rw [hb, ha]⟩
  reg a h1 h2 := (k.reg a h1 h2).trans (h.reg a h1 h2)

theorem State.SourceKept.modServo {s t : State} {f : Servo → Servo} (h : s.SourceKept t) (hf : (f t.servo).source = t.servo.source) :
    s.SourceKept (t.modServo f) :=
  h.trans (.of_parts hf rfl rfl)

theorem State.SourceKept.event {s t : State} (h : s.SourceKept t) (m : Nat) : s.SourceKept (t.event R.time_EVENTS m) :=
  h.trans ⟨by rw [State.event_servo], fun i => ⟨(t.inst i).agreeRun, State.inst_of_ptp i (State.event_ptp _ _ _)⟩,
    fun a h1 h2 => (State.reg_event _ _ _ _ h2).trans (if_neg h1)⟩

theorem State.SourceKept.log {s t : State} (h : s.SourceKept t) (c : FaultClass) (k : Nat) (d : List Byte) : s.SourceKept (t.log c k d) :=
  h.trans (.of_parts (by rw [State.log_servo]) (State.log_ptp _ _ _ _) (State.log_regs _ _ _ _))

/-- Outputs that need LOCKED go to their inactive level; that is a matter of pins and the ledger. -/
theorem State.lockLost_regs (s : State) : s.lockLost.regs = s.regs := by
  unfold State.lockLost
  induction List.range 8 generalizing s with
  | nil => rfl
  | cons n r ih =>
    rw [List.foldl_cons, ih]
    split
    · exact State.logOut_regs _ _ _ _ _ _
    · rfl

theorem State.SourceKept.lockLost {s t : State} (h : s.SourceKept t) : s.SourceKept t.lockLost :=
  h.trans (.of_parts (congrArg Servo.source ((State.lockLost_keeps rfl (Keeps.refl 0x4c3da0c865 t)).same .servo rfl))
    ((State.lockLost_keeps rfl (Keeps.refl 0x4c3da0c865 t)).same .ptp rfl) t.lockLost_regs)

theorem State.SourceKept.servoTo {s t : State} (h : s.SourceKept t) (new : ServoState) : s.SourceKept (t.servoTo new) := by
  unfold State.servoTo
  extract_lets old x y z w
  split
  · exact h
  have hx : s.SourceKept x := h.modServo rfl
  have hy : s.SourceKept y := by
    unfold y
    split
    · exact hx.modServo rfl
    · exact hx
  have hz : s.SourceKept z := (hy.event 1).log _ _ _
  have hw : s.SourceKept w := by
    unfold w
    split
    · exact hz.trans (.of_parts rfl rfl rfl)
    · exact hz
  repeat' split
  · exact hw.lockLost
  · exact hw.trans (.of_parts rfl rfl rfl)
  · exact hw

theorem State.SourceKept.toHoldover {s t : State} (h : s.SourceKept t) : s.SourceKept t.toHoldover :=
  ((h.modServo rfl).log _ _ _).servoTo _

theorem State.SourceKept.slewIn {s t : State} (h : s.SourceKept t) (x : Source) : s.SourceKept (t.slewIn x) := h.modServo rfl

theorem State.SourceKept.pathStep {s t : State} (h : s.SourceKept t) (i : Nat) (mpd off : Int) : s.SourceKept (t.pathStep i mpd off) := by
  have fresh (x : State) : x.SourceKept (x.mapPtp fun _ p => { p with agreeRun := 0 }) :=
    ⟨rfl, fun i => ⟨0, Sparse.get_mapVals _ _ _ _ rfl⟩, fun _ _ _ => rfl⟩
  exact ((((h.event 2).log _ _ _).trans (fresh _)).modServo rfl).servoTo _

/-! ## The choice of a source (R29, R37) -/

/-- After a choice the source is the one chosen, whatever it was. -/
theorem State.takeSource_kept (s : State) (new : Option Source) :
    (s.modServo fun v => { v with source := new }).SourceKept (s.takeSource new) := by
  unfold State.takeSource
  extract_lets old state was x y
  split
  case isTrue same => exact .of_parts same.symm rfl rfl
  have hx : (s.modServo fun v => { v with source := new }).SourceKept x := .of_parts rfl rfl rfl
  have hy : (s.modServo fun v => { v with source := new }).SourceKept y := (hx.event 8).log _ _ _
  clear_value y state
  split
  · exact (hy.modServo rfl).servoTo _
  · exact hy.servoTo _
  · exact hy.modServo rfl
  · exact hy.toHoldover
  · split
    · exact hy.slewIn _
    · exact hy.pathStep _ _ _
  · repeat' split
    · exact hy
    · exact (hy.slewIn _).modServo rfl
    · exact hy.pathStep _ _ _
  · split
    · exact (hy.slewIn _).servoTo _
    · exact hy.pathStep _ _ _
  · exact hy

theorem State.reselect_source (s : State) : s.reselect.servo.source = s.candidate := (s.takeSource_kept _).source

theorem State.reselect_inst (s : State) (i : Nat) : ∃ r, s.reselect.inst i = { s.inst i with agreeRun := r } :=
  (s.takeSource_kept _).inst i

theorem State.reselect_reg (s : State) {a : Nat} (h1 : a ≠ R.time_EVENTS) (h2 : a ≠ R.hub_SATURATED) : s.reselect.reg a = s.reg a :=
  (s.takeSource_kept _).reg a h1 h2

/-- The best of the sources is usable. -/
theorem State.usable_of_bestInst {s : State} {i : Nat} (h : s.bestInst = some i) : s.usable i = true := by
  have chosen : ∀ j, s.bestInst = some j → s.usable j = true := by
    refine List.foldlRecOn (motive := fun b => ∀ j, b = some j → s.usable j = true) _ _ nofun fun b hb k _ j hj => ?_
    split at hj
    case isFalse => exact hb j hj
    case isTrue hk =>
      repeat' split at hj
      all_goals first
        | exact hb j hj
        | (cases hj; exact hk)
  exact chosen i h

theorem State.candidate_ne_of_not_usable {s : State} {i : Nat} (h : s.usable i = false) : s.candidate ≠ some (.ptp i) := by
  intro hc
  unfold State.candidate at hc
  split at hc
  · cases hc
  · split at hc
    case h_1 j hj =>
      cases hc
      rw [State.usable_of_bestInst hj] at h
      cases h
    case h_2 =>
      split at hc <;> cases hc

theorem State.candidate_of_forceHold {s : State} (h : s.forceHold = true) : s.candidate = none := if_pos h

/-! ## The rows that lose a source -/

section
variable {s : State} {inst : Fin 6} {t : Nat}

theorem execSyncTimeout_of_due (ht : (s.inst inst.val).syncAt = some t) (hok : (s.inst inst.val).syncOk = true)
    (hd : s.due (t + 3 * s.syncInterval inst.val) = true) :
    execSyncTimeout inst s = .next (s.modInst inst.val fun p => { p with syncOk := false }).reselect := by
  simp only [execSyncTimeout, ht, hok, hd, and_self, if_true]

theorem execAnnounceTimeout_of_due (ht : (s.inst inst.val).announceAt = some t) (hp : (s.inst inst.val).parent.isSome = true)
    (hd : s.due (t + 3 * s.announceInterval inst.val) = true) :
    execAnnounceTimeout inst s = .next (s.modInst inst.val fun p =>
      { p with parent := none, foreign := [], portState := 4, syncOk := false, lastSync := none, pendingSync := none,
               announceAt := none }).reselect := by
  simp only [execAnnounceTimeout, ht, hp, hd, and_self, if_true]

theorem execForceHold_of_running {g : Agent} {on : Bool} (hrun : s.running = true) :
    execForceHold g on s = .next (s.setReg R.time_CTRL (w32 (b2n on))).reselect := if_pos hrun

end

theorem State.inst_modInst_same (s : State) (i : Nat) (f : PtpInst → PtpInst) : (s.modInst i f).inst i = f (s.inst i) := by simp

/-- Without SYNC_OK a source is not chosen (R29). -/
theorem State.usable_eq_false_of_syncOk {s : State} {i : Nat} (h : (s.inst i).syncOk = false) : s.usable i = false := by
  simp [State.usable, h]

/-- Settles O10: a new choice makes the candidate the source, and one that lost its Sync, or any under FORCE_HOLD, is none. -/
theorem lostSourcesLeaveTheSelection : Obligations.LostSourcesLeaveTheSelection := by
  refine ⟨?sync, ?announce, ?force⟩
  case sync =>
    intro i s t ht hok hd
    have same := s.inst_modInst_same i.val fun p => { p with syncOk := false }
    obtain ⟨r, hr⟩ := State.reselect_inst (s.modInst i.val fun p => { p with syncOk := false }) i.val
    refine ⟨_, execSyncTimeout_of_due ht hok hd, ?_, by rw [hr, same]⟩
    rw [State.reselect_source]
    exact State.candidate_ne_of_not_usable (State.usable_eq_false_of_syncOk (by rw [same]))
  case announce =>
    intro i s t ht hp hd
    have same := s.inst_modInst_same i.val fun p =>
      { p with parent := none, foreign := [], portState := 4, syncOk := false, lastSync := none, pendingSync := none, announceAt := none }
    obtain ⟨r, hr⟩ := State.reselect_inst (s.modInst i.val fun p =>
      { p with parent := none, foreign := [], portState := 4, syncOk := false, lastSync := none, pendingSync := none, announceAt := none })
      i.val
    refine ⟨_, execAnnounceTimeout_of_due ht hp hd, ?_, by rw [hr, same], by rw [hr, same]⟩
    rw [State.reselect_source]
    exact State.candidate_ne_of_not_usable (State.usable_eq_false_of_syncOk (by rw [same]))
  case force =>
    intro g s hrun
    have ctrl (v : Word) : (s.setReg R.time_CTRL v).reselect.reg R.time_CTRL = v := by
      rw [State.reselect_reg _ (by decide) (by decide), State.reg_setReg, if_pos rfl]
    refine ⟨⟨_, execForceHold_of_running (g := g) hrun, ctrl _, ?_⟩, _, execForceHold_of_running (g := g) hrun, ctrl _⟩
    rw [State.reselect_source]
    refine State.candidate_of_forceHold ?_
    rw [State.forceHold, State.reg_setReg, if_pos rfl]
    decide

end Sys2Proof.Machine
end

section
/-!
PROOF. The PTP instances as senders and receivers (R26 to R31): what a frame sent from a port changes, the messages of followers and
leaders, and which messages are discarded, answered or completed.
-/

namespace Sys2Proof.Machine

/-! ## A frame leaves a port (R94, R183) -/

/-- TX_FRAMES of a media or management port. -/
def txFramesReg (p : Nat) : Nat := if p < 32 then R.port_TX_FRAMES p else R.mp_TX_FRAMES (p - 32)

/-- A port that is UP sends or queues the frame; it is the one port that changes, and TX_FRAMES the one register. -/
theorem State.sendOther_of_up {s : State} {p : Nat} (hp : (s.port p).state = .up) (n : Nat) (x : Sent) :
    s.Sends (s.sendOther p n x) p n x ∧ (∀ q, q ≠ p → (s.sendOther p n x).port q = s.port q) ∧
    (∀ a, a ≠ txFramesReg p → (s.sendOther p n x).reg a = s.reg a) ∧
    s.sendOther p n x = { s with wire := (s.sendOther p n x).wire, ports := (s.sendOther p n x).ports, regs := (s.sendOther p n x).regs } := by
  have counted (a : Nat) (h : a ≠ txFramesReg p) : (s.txFrame p).reg a = s.reg a := (s.reg_count _ _).trans (if_neg h)
  unfold State.sendOther State.Sends
  rw [if_neg (not_not.2 hp)]
  by_cases hm : 32 ≤ p
  · rw [if_pos hm, if_pos (Or.inl hm)]
    exact ⟨rfl, fun _ _ => rfl, counted, rfl⟩
  rw [if_neg hm]
  by_cases hfree : ((s.queue p).isEmpty && (s.port p).others.isEmpty && s.due (s.port p).lineFree) = true
  · rw [if_pos hfree, if_pos (Or.inr (by simpa [and_assoc] using hfree))]
    exact ⟨rfl, fun q hq => (State.port_setPort _ _ _ _).trans (if_neg hq), counted, rfl⟩
  · rw [if_neg hfree, if_neg (by rintro (h | ⟨h1, h2, h3⟩) <;> simp_all)]
    exact ⟨⟨rfl, by simp⟩, fun q hq => by simp [hq], fun _ _ => rfl, rfl⟩

/-- Whether a frame has left or waits is a matter of what was sent and of the ports. -/
theorem State.Sends.of_same {s t u : State} {p n : Nat} {x : Sent} (h : s.Sends t p n x) (hw : u.wire = t.wire) (hp : u.ports = t.ports) :
    s.Sends u p n x := by
  unfold State.Sends
  rw [hw, State.port_of_ports p hp]
  exact h

/-! ## A message leaves on its port (R26, R27) -/

section
variable {s : State} {i : Nat}

theorem State.port_up_of_ptpRuns (h : s.ptpRuns i = true) : (s.port (s.ptpField i 0 1)).state = .up := by
  simp only [State.ptpRuns, Bool.and_eq_true, beq_iff_eq] at h
  exact h.2

/-- What a message that an instance sends leaves, where the instance's own record has changed before. -/
structure State.PtpSent (s : State) (i : Nat) (v : PtpInst) (peer : Option Nat) (log : Nat) (m : PtpMsg) (t : State) : Prop where
  sends : let p := s.ptpField i 0 1
    let b := ptpPacket (s.ptpV6 i) (s.ownAddr p (s.ptpV6 i)) (peer.getD (ptpGroup (s.ptpV6 i))) m peer.isSome log
    s.Sends t p (ipLine b.length) (.ptp i p b)
  inst  : ∀ j, t.inst j = if j = i then v else s.inst j
  port  : ∀ q, q ≠ s.ptpField i 0 1 → t.port q = s.port q
  reg   : ∀ a, a ≠ txFramesReg (s.ptpField i 0 1) → t.reg a = s.reg a
  rest  : t = { s with wire := t.wire, ptp := t.ptp, ports := t.ports, regs := t.regs }

theorem State.PtpSent.servo {v : PtpInst} {peer : Option Nat} {log : Nat} {m : PtpMsg} {t : State} (h : s.PtpSent i v peer log m t) :
    t.servo = s.servo := by rw [h.rest]

theorem State.PtpSent.clock {v : PtpInst} {peer : Option Nat} {log : Nat} {m : PtpMsg} {t : State} (h : s.PtpSent i v peer log m t) :
    t.clock = s.clock := by rw [h.rest]

theorem State.ptpSend_sent (hp : (s.port (s.ptpField i 0 1)).state = .up) (v : PtpInst) (peer : Option Nat) (log : Nat) (m : PtpMsg) :
    s.PtpSent i v peer log m ((s.setInst i v).ptpSend i peer log m) := by
  let p := s.ptpField i 0 1
  let b := ptpPacket (s.ptpV6 i) (s.ownAddr p (s.ptpV6 i)) (peer.getD (ptpGroup (s.ptpV6 i))) m peer.isSome log
  obtain ⟨hsends, hport, hreg, hrest⟩ := State.sendOther_of_up (s := s.setInst i v) hp (ipLine b.length) (.ptp i p b)
  change s.PtpSent i v peer log m ((s.setInst i v).sendOther p (ipLine b.length) (.ptp i p b))
  refine ⟨hsends, fun j => ?_, hport, hreg, ?_⟩
  · rw [hrest]
    exact s.inst_setInst i j v
  · rw [hrest]
    rfl

/-! ## The rows that send (R26, R30) -/

/-- The record of a follower that has sent a Delay_Req with departure time `t`. -/
def PtpInst.afterDelayReq (p : PtpInst) (now : Nat) (t : Int) : PtpInst :=
  { p with delayAt := now, nextSeq := p.nextSeq + 1, delayReqs := p.delayReqs ++ [(p.nextSeq, t)] }

/-- The records of a leader that has sent a Sync or an Announce. -/
def PtpInst.afterSync (p : PtpInst) (now : Nat) : PtpInst := { p with leadSyncAt := now, syncSeq := p.syncSeq + 1 }
def PtpInst.afterAnnounce (p : PtpInst) (now : Nat) : PtpInst := { p with leadAnnAt := now, announceSeq := p.announceSeq + 1 }

/-- A message of an instance with its identity and domain. -/
def State.ownMsg (s : State) (i : Nat) (kind : PtpKind) (seq : BitVec 16) : PtpMsg :=
  { kind := kind, domain := s.ptpField i 2 1, clockId := Config.clockIdentity i, portNumber := i + 1, seq := seq }

theorem execDelayReqTx_of_due {inst : Fin 6} {f : ForeignMaster} (hr : s.ptpRuns inst.val = true) (hl : s.ptpLeads inst.val = false)
    (hf : (s.inst inst.val).parent = some f) (hd : s.due ((s.inst inst.val).delayAt + s.delayInterval inst.val) = true) :
    execDelayReqTx inst s = .next ((s.setInst inst.val ((s.inst inst.val).afterDelayReq s.now s.ptpNs)).ptpSend inst.val
      (s.ptpPeer inst.val f.address) 0x7F { s.ownMsg inst.val .delayReq (s.inst inst.val).nextSeq with timestamp := s.ptpNs }) := by
  unfold execDelayReqTx
  dsimp only
  rw [hf]
  exact if_pos ⟨hr, hl, rfl, hd⟩

theorem execLeadingSyncTx_of_due {inst : Fin 6} (hs : s.ptpSends inst.val = true)
    (hd : s.due ((s.inst inst.val).leadSyncAt + s.syncInterval inst.val) = true) :
    execLeadingSyncTx inst s = .next ((s.setInst inst.val ((s.inst inst.val).afterSync s.now)).ptpSend inst.val none
      (s.ptpField inst.val 4 1) { s.ownMsg inst.val .sync (s.inst inst.val).syncSeq with timestamp := s.ptpNs }) :=
  if_pos ⟨hs, hd⟩

theorem execLeadingAnnounceTx_of_due {inst : Fin 6} (hs : s.ptpSends inst.val = true)
    (hd : s.due ((s.inst inst.val).leadAnnAt + s.announceInterval inst.val) = true) :
    execLeadingAnnounceTx inst s = .next ((s.setInst inst.val ((s.inst inst.val).afterAnnounce s.now)).ptpSend inst.val none
      (s.ptpField inst.val 5 1)
      { s.ownMsg inst.val .announce (s.inst inst.val).announceSeq with dataset := s.leadingDataset inst.val }) :=
  if_pos ⟨hs, hd⟩

theorem State.ptpSends_of_leads (hr : s.ptpRuns i = true) (hl : s.ptpLeads i = true)
    (hs : s.servo.state = .locked ∨ s.servo.state = .quarantine ∨ s.servo.state = .holdover) : s.ptpSends i = true := by
  simp only [State.ptpSends, hr, hl, Bool.true_and, Bool.or_eq_true, beq_iff_eq, or_assoc]
  exact hs

theorem State.leadingDataset_of_locked {j : Nat} {f : ForeignMaster} (hs : s.servo.state = .locked)
    (hsrc : s.servo.source = some (.ptp j)) (hf : (s.inst j).parent = some f) :
    s.leadingDataset i = { f.dataset with stepsRemoved := f.dataset.stepsRemoved + 1 } := by
  simp only [State.leadingDataset, hs, hsrc, hf]

theorem State.leadingDataset_of_not_locked (hs : s.servo.state ≠ .locked) :
    s.leadingDataset i = { grandmaster := Config.clockIdentity i, priority1 := s.ptpField i 12 1, clockClass := s.ptpField i 14 1,
                           priority2 := s.ptpField i 13 1 } := by
  unfold State.leadingDataset
  dsimp only
  split
  · contradiction
  · rfl

/-- The peer of hybrid mode as the address and the unicast flag of the packet (R26). -/
theorem State.ptpPeer_packet (s : State) (i addr : Nat) :
    (s.ptpPeer i addr).getD (ptpGroup (s.ptpV6 i)) = (if s.ptpHybrid i then addr else ptpGroup (s.ptpV6 i)) ∧
    (s.ptpPeer i addr).isSome = s.ptpHybrid i := by
  unfold State.ptpPeer
  cases s.ptpHybrid i <;> exact ⟨rfl, rfl⟩

end

/-- Settles O8: each row sends one message that its record and the servo give, and `ptpSend_sent` says what that leaves. -/
theorem ptpFollowersAndLeadersSend : Obligations.PtpFollowersAndLeadersSend := by
  intro i s hr p v6 sends rest
  have up := State.port_up_of_ptpRuns hr
  have left {v peer log m t} (h : s.PtpSent i.val v peer log m t) : rest t :=
    ⟨fun j hj => (h.inst j).trans (if_neg hj), h.port, h.reg, h.rest⟩
  refine ⟨fun f hl hf hd => ?follower, fun hl hs => ⟨fun hd => ?sync, fun hd => ?announce⟩⟩
  case follower =>
    have sent := State.ptpSend_sent up ((s.inst i.val).afterDelayReq s.now s.ptpNs) (s.ptpPeer i.val f.address) 0x7F
      { s.ownMsg i.val .delayReq (s.inst i.val).nextSeq with timestamp := s.ptpNs }
    have hsends := sent.sends
    obtain ⟨haddr, huni⟩ := s.ptpPeer_packet i.val f.address
    rw [haddr, huni] at hsends
    exact ⟨_, _, execDelayReqTx_of_due hr hl hf hd, left sent, ⟨hsends, rfl, rfl, rfl, rfl⟩, rfl, rfl, rfl, rfl,
      (sent.inst i.val).trans (if_pos rfl)⟩
  case sync =>
    have sent := State.ptpSend_sent up ((s.inst i.val).afterSync s.now) none (s.ptpField i.val 4 1)
      { s.ownMsg i.val .sync (s.inst i.val).syncSeq with timestamp := s.ptpNs }
    exact ⟨_, _, execLeadingSyncTx_of_due (State.ptpSends_of_leads hr hl hs) hd, left sent, ⟨sent.sends, rfl, rfl, rfl, rfl⟩,
      rfl, rfl, rfl, rfl, rfl, (sent.inst i.val).trans (if_pos rfl)⟩
  case announce =>
    have sent := State.ptpSend_sent up ((s.inst i.val).afterAnnounce s.now) none (s.ptpField i.val 5 1)
      { s.ownMsg i.val .announce (s.inst i.val).announceSeq with dataset := s.leadingDataset i.val }
    refine ⟨_, _, execLeadingAnnounceTx_of_due (State.ptpSends_of_leads hr hl hs) hd, left sent, ⟨sent.sends, rfl, rfl, rfl, rfl⟩,
      rfl, rfl, fun j f hlock hsrc hf => State.leadingDataset_of_locked hlock hsrc hf, fun hfree => ?_,
      (sent.inst i.val).trans (if_pos rfl)⟩
    rw [State.leadingDataset_of_not_locked hfree]
    exact ⟨rfl, rfl, rfl, rfl, rfl⟩

/-! ## Messages that come in (R31) -/

/-- The standby's readiness is judged after every message; it touches no register but the pair's EVENTS and SATURATED of the hub. -/
theorem State.pairReadyCheck_reg (s : State) {a : Nat} (h1 : a ≠ R.pair_EVENTS) (h2 : a ≠ R.hub_SATURATED) :
    s.pairReadyCheck.reg a = s.reg a := by
  have event (x : State) : (x.event R.pair_EVENTS 2).reg a = x.reg a := (State.reg_event _ _ _ _ h2).trans (if_neg h1)
  unfold State.pairReadyCheck
  repeat' split
  · rw [State.pairLog, State.reg_of_regs _ (State.log_regs _ _ _ _), event]
    rfl
  · rfl
  · rfl
  · rw [event]
    rfl
  · rfl

/-- Readiness is a matter of the pair, its events and the ledger. -/
theorem State.pairReadyCheck_same (s : State) (p : Part) (hp : Nat.testBit 0x4810000005 p.bit = false) : p.Same s s.pairReadyCheck :=
  (State.pairReadyCheck_keeps rfl (Keeps.refl 0x4810000005 s)).same p hp

section
variable {s : State} {i : Nat} {m : PtpMsg}

/-- The reasons of R31 before the rate, and the kinds that Table 2-2 leaves out. -/
def State.ptpInvalid (s : State) (i : Nat) (m : PtpMsg) : Prop :=
  m.version ≠ 2 ∨ m.domain ≠ s.ptpField i 2 1 ∨ m.lengthOk = false ∨ m.clockId = Config.clockIdentity i ∨
    m.kind = .management ∨ m.kind = .other ∨
    (m.kind = .delayResp ∧ ¬(m.reqClockId = Config.clockIdentity i ∧ m.reqPort = i + 1 ∧ ∃ r ∈ (s.inst i).delayReqs, r.1 = m.seq))

theorem State.ptpDiscard_of_invalid (h : s.ptpInvalid i m) : ∃ r, s.ptpDiscard i m = some r := by
  rw [← Option.ne_none_iff_exists']
  intro hnone
  unfold State.ptpDiscard at hnone
  split at hnone; · cases hnone
  split at hnone; · cases hnone
  split at hnone; · cases hnone
  split at hnone; · cases hnone
  split at hnone; · cases hnone
  split at hnone; · cases hnone
  rename_i hversion hdomain hlength hown hkind hresp
  obtain h | h | h | h | h | h | ⟨hk, h⟩ := h
  · exact hversion h
  · exact hdomain h
  · exact hlength (by rw [h]; rfl)
  · exact hown h
  · exact hkind (.inl h)
  · exact hkind (.inr h)
  · refine hresp ⟨hk, ?_⟩
    by_contra hboth
    simp only [not_or, Bool.not_eq_false, ownMatches, Bool.and_eq_true, beq_iff_eq, List.any_eq_true] at hboth
    exact h ⟨hboth.1.1, hboth.1.2, hboth.2⟩

theorem State.ptpMessage_of_discarded {src r : Nat} (hr : s.ptpRuns i = true) (hd : s.ptpDiscard i m = some r) :
    s.ptpMessage i src m = (s.count (R.ptp_RX_INVALID i)).logRated F.PTP_RX_INVALID i (R.ptp i) 0
      (fun n => leBytes 1 i ++ leBytes 1 r ++ leBytes 4 n) := by
  unfold State.ptpMessage
  rw [hr, hd]
  rfl

/-- The record of an instance once an accepted message has been counted for the rate check, and the state then. -/
def PtpInst.heard (p : PtpInst) (m : PtpMsg) (now : Nat) : PtpInst := { p with lastRx := keepRx (ptpKindCode m.kind) now p.lastRx }
def State.ptpHeard (s : State) (i : Nat) (m : PtpMsg) : State := s.setInst i ((s.inst i).heard m s.now)

/-- The Delay_Resp to a Delay_Req. -/
def State.delayResp (s : State) (i : Nat) (m : PtpMsg) : PtpMsg :=
  { s.ownMsg i .delayResp m.seq with
    domain := m.domain, timestamp := s.ptpNs, correction := m.correction, reqClockId := m.clockId, reqPort := m.portNumber }

theorem State.ptpMessage_of_delayReq {src : Nat} (hs : s.ptpSends i = true) (hd : s.ptpDiscard i m = none) (hk : m.kind = .delayReq) :
    s.ptpMessage i src m = (s.ptpHeard i m).ptpSend i (s.ptpPeer i src) (s.ptpField i 6 1)
      (s.delayResp i m) := by
  have hs' := hs
  simp only [State.ptpSends, Bool.and_eq_true] at hs'
  obtain ⟨⟨hr, hl⟩, -⟩ := hs'
  unfold State.ptpMessage
  rw [hr, hd]
  change (if s.ptpLeads i then (if m.kind = .delayReq then (s.ptpHeard i m).onDelayReq i src m else s.ptpHeard i m) else _) = _
  rw [hl, if_pos rfl, if_pos hk]
  exact if_pos hs

theorem State.ptpMessage_of_followUp {src : Nat} (hr : s.ptpRuns i = true) (hd : s.ptpDiscard i m = none) (hl : s.ptpLeads i = false)
    (hk : m.kind = .followUp) : s.ptpMessage i src m = (s.ptpHeard i m).onFollowUp i m := by
  obtain ⟨kind⟩ := m
  obtain rfl : kind = .followUp := hk
  unfold State.ptpMessage
  rw [hr, hd]
  change (if s.ptpLeads i then _ else _) = _
  rw [hl]
  rfl

theorem State.inst_ptpHeard (s : State) (i : Nat) (m : PtpMsg) :
    (s.ptpHeard i m).inst i = (s.inst i).heard m s.now := (s.inst_setInst _ _ _).trans (if_pos rfl)

theorem State.onFollowUp_of_waiting {q : BitVec 16} {t2 c : Int} (hp : s.isParent i m = true)
    (hw : (s.inst i).pendingSync = some (q, t2, c)) (hq : q = m.seq) :
    s.onFollowUp i m = s.modInst i fun p => { p with lastSync := some (m.timestamp, t2 - c - m.corr), pendingSync := none } := by
  unfold State.onFollowUp
  rw [hw]
  exact if_pos ⟨hp, hq⟩

end

/-- Settles O9: a message is discarded before it reaches its instance, a Delay_Req of a leader is answered as `ptpSend_sent` says, and a
Follow_Up changes the record of its instance alone. -/
theorem ptpMessagesAreTakenOrDiscarded : Obligations.PtpMessagesAreTakenOrDiscarded := by
  intro i src b s hr m p
  have hi := i.isLt
  refine ⟨fun hbad => ?discarded, fun hd hs hk => ?answered, fun q t2 c hd hl hk hp hw hq => ?completed⟩
  case discarded =>
    obtain ⟨r, hd⟩ := State.ptpDiscard_of_invalid (s := s) (i := i.val) (m := m) hbad
    obtain ⟨l, frame⟩ := (s.count (R.ptp_RX_INVALID i.val)).logRated_frame F.PTP_RX_INVALID i.val (R.ptp i.val) 0
      (fun n => leBytes 1 i.val ++ leBytes 1 r ++ leBytes 4 n) true (s.count (R.ptp_RX_INVALID i.val)).stamp
    have msg := (State.ptpMessage_of_discarded (src := src) hr hd).trans frame
    refine ⟨(s.ptpMessage i.val src m).pairReadyCheck, rfl, ?_, ?_, ?_, ?_, ?_, ?_⟩
    · rw [State.pairReadyCheck_reg _ (by simp [R.ptp_RX_INVALID, R.ptp, R.pair_EVENTS, R.pair]; omega)
        (by simp [R.ptp_RX_INVALID, R.ptp, R.hub_SATURATED, R.hub]; omega), msg]
      exact s.toNat_reg_count _
    · rw [State.pairReadyCheck_same _ .ptp rfl, msg]; rfl
    · rw [State.pairReadyCheck_same _ .servo rfl, msg]; rfl
    · rw [State.pairReadyCheck_same _ .clock rfl, msg]; rfl
    · rw [State.pairReadyCheck_same _ .wire rfl, msg]; rfl
    · rw [State.pairReadyCheck_same _ .ports rfl, msg]; rfl
  case answered =>
    have sent := State.ptpSend_sent (State.port_up_of_ptpRuns hr)
      ((s.inst i.val).heard m s.now) (s.ptpPeer i.val src) (s.ptpField i.val 6 1)
      (s.delayResp i.val m)
    have hsends := sent.sends
    obtain ⟨haddr, huni⟩ := s.ptpPeer_packet i.val src
    rw [haddr, huni] at hsends
    have msg := State.ptpMessage_of_delayReq (src := src) hs hd hk
    refine ⟨(s.ptpMessage i.val src m).pairReadyCheck, s.delayResp i.val m, rfl, rfl, rfl, rfl, rfl, rfl, rfl,
      hsends.of_same ?_ ?_, fun j hj => ?_, ?_, ?_⟩
    · rw [State.pairReadyCheck_same _ .wire rfl, msg]; rfl
    · rw [State.pairReadyCheck_same _ .ports rfl, msg]; rfl
    · rw [State.inst_of_ptp j (State.pairReadyCheck_same _ .ptp rfl), msg]
      exact (sent.inst j).trans (if_neg hj)
    · rw [State.pairReadyCheck_same _ .servo rfl, msg]
      exact sent.servo
    · rw [State.pairReadyCheck_same _ .clock rfl, msg]
      exact sent.clock
  case completed =>
    have waits : ((s.ptpHeard i.val m).inst i.val).pendingSync = some (q, t2, c) := by rw [State.inst_ptpHeard]; exact hw
    have parent : (s.ptpHeard i.val m).isParent i.val m = true := by
      unfold State.isParent
      rw [State.inst_ptpHeard]
      exact hp
    have msg := (State.ptpMessage_of_followUp (src := src) hr hd hl hk).trans (State.onFollowUp_of_waiting parent waits hq)
    have inst (j : Nat) : (s.ptpMessage i.val src m).pairReadyCheck.inst j = (s.ptpMessage i.val src m).inst j :=
      State.inst_of_ptp j (State.pairReadyCheck_same _ .ptp rfl)
    refine ⟨(s.ptpMessage i.val src m).pairReadyCheck, rfl, ?_, ?_, fun j hj => ?_, ?_, ?_⟩
    · rw [inst, msg, State.inst_modInst_same]
    · rw [inst, msg, State.inst_modInst_same]
    · rw [inst, msg]
      simp [State.ptpHeard, hj]
    · rw [State.pairReadyCheck_same _ .servo rfl, msg]; rfl
    · rw [State.pairReadyCheck_same _ .wire rfl, msg]; rfl

end Sys2Proof.Machine
end

section
/-!
PROOF. Commits (R66, R68 to R73): what becomes of a ticket and of the pending commits when one is issued, cancelled, judged at its go
point, and applied.
-/

namespace Sys2Proof.Machine

/-! ## Tickets and pending commits -/

section
variable {α : Type} (key : α → Nat)

/-- Where the entries with a key are replaced by one, that one is found under the key. -/
theorem find?_replace_same {l : List α} {c : α} (h : (l.any fun x => key x == key c) = true) :
    (l.map fun x => if key x = key c then c else x).find? (fun x => key x == key c) = some c := by
  induction l with
  | nil => cases h
  | cons x r ih =>
    by_cases hx : key x = key c
    · simp [hx]
    · rw [List.map_cons, if_neg hx, List.find?_cons_of_neg (by simpa using hx)]
      exact ih (by simpa [hx] using h)

/-- Under another key what was there is found. -/
theorem find?_replace_ne (l : List α) {c : α} {j : Nat} (h : j ≠ key c) :
    (l.map fun x => if key x = key c then c else x).find? (fun x => key x == j) = l.find? fun x => key x == j := by
  induction l with
  | nil => rfl
  | cons x r ih =>
    rw [List.map_cons, List.find?_cons, List.find?_cons, ih]
    by_cases hx : key x = key c
    · simp [hx, beq_eq_false_iff_ne.2 h.symm]
    · rw [if_neg hx]

end

/-- The state last given to a ticket is the one that is shown of it. -/
theorem State.ticket_setTicket (s : State) (t : Nat) (st : CommitState) (cls : Nat) :
    ((s.setTicket t st cls).commits.tickets.find? fun x => x.ticket == t) = some ⟨t, st, cls⟩ := by
  unfold State.setTicket State.modCommits
  dsimp only
  split
  case isTrue known => exact find?_replace_same Ticket.ticket (c := ⟨t, st, cls⟩) known
  case isFalse => simp

theorem State.setTicket_live (s : State) (t : Nat) (st : CommitState) (cls : Nat) : (s.setTicket t st cls).commits.live = s.commits.live := rfl

theorem State.setTicket_nextTicket (s : State) (t : Nat) (st : CommitState) (cls : Nat) :
    (s.setTicket t st cls).commits.nextTicket = s.commits.nextTicket := rfl

theorem State.ticket_of_commitOf {s : State} {k : Nat} {c : Commit} (h : s.commitOf k = some c) : c.ticket = k := by
  simpa using List.find?_some h

/-- Only the commits of the ticket are replaced. -/
theorem State.commitOf_setCommit_ne (s : State) {c : Commit} {j : Nat} (h : j ≠ c.ticket) : (s.setCommit c).commitOf j = s.commitOf j :=
  find?_replace_ne Commit.ticket _ h

theorem State.commitOf_setCommit_same {s : State} {c d : Commit} (h : s.commitOf c.ticket = some d) :
    (s.setCommit c).commitOf c.ticket = some c := by
  refine find?_replace_same Commit.ticket (List.any_eq_true.2 ⟨d, List.mem_of_find?_eq_some h, ?_⟩)
  simp [State.ticket_of_commitOf h]

/-! ## Commits that end without applying (R69, R72, R73) -/

/-- A commit that is dropped leaves the pending ones, and its ticket shows how it ended. -/
theorem State.drop_spec (s : State) (c : Commit) (st : CommitState) (cls : Nat) :
    (s.drop c st cls).commits.live = s.commits.live.filter (fun x => x.ticket != c.ticket) ∧
    ((s.drop c st cls).commits.tickets.find? fun x => x.ticket == c.ticket) = some ⟨c.ticket, st, cls⟩ ∧
    (s.drop c st cls).config = s.config := by
  let a := (s.modCommits fun m => { m with live := m.live.filter fun x => x.ticket != c.ticket }).setTicket c.ticket st cls
  have tail : Keeps 0x4d3db6c065 a (s.drop c st cls) :=
    State.rejoin_keeps rfl (State.event_keeps rfl (State.count_keeps rfl (Keeps.refl _ _)))
  have commits : (s.drop c st cls).commits = a.commits := tail.same .commits rfl
  rw [commits]
  exact ⟨rfl, State.ticket_setTicket _ _ _ _, tail.same .config rfl⟩

/-- Dropping a commit takes no entry out of the ledger's intake. -/
theorem State.drop_kept (s : State) (c : Commit) (st : CommitState) (cls : Nat) : Keeps 0x4d3db6e065 s (s.drop c st cls) :=
  State.drop_keeps rfl (Keeps.refl _ s)

section
variable {s : State}

/-- A class is logged, and the commit is dropped with it. -/
theorem State.log_drop_spec {u : State} {f : FaultClass} {d : List Byte} (hrun : s.running = true) (hu : Keeps 0x2000 (s.log f R.im d) u)
    (hlive : u.commits.live = s.commits.live) (c : Commit) (st : CommitState) (cls : Nat) :
    (u.drop c st cls).commits.live = s.commits.live.filter (fun x => x.ticket != c.ticket) ∧
    ((u.drop c st cls).commits.tickets.find? fun x => x.ticket == c.ticket) = some ⟨c.ticket, st, cls⟩ ∧
    s.Logs (u.drop c st cls) f ∧ (u.drop c st cls).config = s.config := by
  obtain ⟨live, ticket, config⟩ := u.drop_spec c st cls
  refine ⟨by rw [live, hlive], ticket, ((State.log_logsOne hrun f R.im d).logs.keep hu rfl).keep (u.drop_kept c st cls) rfl, ?_⟩
  exact config.trans ((hu.same .config rfl).trans (State.log_config _ _ _ _))

/-! ## COMMIT_CANCEL (R73) -/

variable {g : Agent} {k : Nat} {c : Commit}

theorem execCommitCancel_of_early (hrun : s.running = true) (hc : s.commitOf k = some c) (hgo : c.state ≠ .go)
    (he : s.reached (s.goStamp c) = false) :
    execCommitCancel g k s = .next (((s.log F.IMG_CANCELLED R.im (leBytes 4 k ++ leBytes 4 c.staged.length)).modCommits fun m =>
      { m with order := m.order.filter fun e => e.1 != k }).drop c .cancelled 0) := by
  have early : ¬(c.state = .go ∨ s.reached (s.goStamp c) = true) := by simp [hgo, he]
  unfold execCommitCancel
  dsimp only
  rw [hrun, hc]
  exact if_neg early

theorem execCommitCancel_of_late (hrun : s.running = true) (hc : s.commitOf k = some c)
    (hl : c.state = .go ∨ s.reached (s.goStamp c) = true) :
    execCommitCancel g k s = .next (s.log F.IMG_CANCEL_LATE R.im (leBytes 4 k)) := by
  unfold execCommitCancel
  dsimp only
  rw [hrun, hc]
  exact if_pos hl

/-! ## GO_POINT (R70, R72) -/

/-- A repeated check refuses the commit: its BASE_ID, its role, or its owning chapters. -/
def State.goBad (s : State) (c : Commit) : Prop :=
  c.start = false ∧ (badBase s.im.configId c ≠ none ∨ s.badRole c ≠ none ∨ s.badOwner s.config c ≠ none)

theorem execGoPoint_of_unripe (hc : s.commitOf k = some c) (hr : s.reached (s.goStamp c) = true) (hgo : c.state ≠ .go)
    (hu : c.state ≠ .ready ∨ (c.roll = true ∧ s.ripeSpares.length < 2)) : execGoPoint k s = .next (s.notRipe c) := by
  unfold execGoPoint
  rw [hc]
  refine (if_neg ?_).trans (if_pos hu)
  simp [hr, hgo]

theorem execGoPoint_of_ripe (hc : s.commitOf k = some c) (hr : s.reached (s.goStamp c) = true) (hgo : c.state ≠ .go)
    (hu : ¬(c.state ≠ .ready ∨ (c.roll = true ∧ s.ripeSpares.length < 2))) :
    (s.goBad c → ∃ r, execGoPoint k s = .next (s.abandon c r)) ∧
    (¬s.goBad c → execGoPoint k s = .next (s.setCommit { c with state := .go })) := by
  unfold execGoPoint State.goBad
  rw [hc]
  dsimp only
  rw [if_neg (by simp [hr, hgo]), if_neg hu]
  cases hs : c.start
  case true => exact ⟨fun h => (nomatch h.1), fun _ => rfl⟩
  case false =>
    by_cases hb : badBase s.im.configId c = none
    · by_cases hr : s.badRole c = none ∧ s.badOwner s.config c = none
      · exact ⟨fun h => absurd h (by simp [hb, hr]), fun _ => by simp [hb, hr]⟩
      · refine ⟨fun _ => ⟨abandonRecheck, ?_⟩, fun h => absurd ⟨rfl, .inr (not_and_or.1 hr)⟩ h⟩
        rw [if_neg nofun, hb, if_neg nofun]
        exact if_pos (by simpa [Option.isSome_iff_ne_none, ← not_and_or] using hr)
    · refine ⟨fun _ => ⟨abandonBase, ?_⟩, fun h => absurd ⟨rfl, .inl hb⟩ h⟩
      rw [if_neg nofun]
      exact if_pos (Option.isSome_iff_ne_none.2 hb)

end

/-! ## COMMIT_ISSUE, refused (R68, R69) -/

/-- A ticket is refused for a class: the pending commits, the registers of the session and the configuration stay. -/
structure State.Refuses (s t : State) (n k : Nat) : Prop where
  commits : t.commits = (s.setTicket n .refused k).commits
  latches : t.latches = s.latches
  config  : t.config = s.config

theorem State.refused_refuses (s : State) (n : Nat) (f : FaultClass) (ctrl : Nat) (d : List Byte) :
    s.Refuses (s.refused n f ctrl d) n f.code where
  commits := (State.log_keeps rfl (State.event_keeps rfl (State.count_keeps rfl (Keeps.refl 0x4800000005 _)))).same .commits rfl
  latches := (State.refused_keeps rfl (Keeps.refl 0x4800002005 s)).same .latches rfl
  config := (State.refused_keeps rfl (Keeps.refl 0x4800002005 s)).same .config rfl

theorem State.refused_logs {s : State} (hrun : s.running = true) (n : Nat) (f : FaultClass) (ctrl : Nat) (d : List Byte) :
    s.Logs (s.refused n f ctrl d) f := by
  have early : Keeps 0x4800002005 s (((s.setTicket n .refused f.code).count R.im_REFUSED).event R.im_EVENTS 2) :=
    State.event_keeps rfl (State.count_keeps rfl (State.setTicket_keeps rfl (Keeps.refl _ _)))
  exact (State.log_logsOne ((State.running_of_startup (early.same .startup rfl)).trans hrun) f ctrl d).logs.after early rfl

theorem State.Refuses.counted {s t : State} {n k : Nat} (h : s.Refuses t n k) (a e m : Nat) : s.Refuses ((t.count a).event e m) n k :=
  have kept : Keeps 0x4800000005 t ((t.count a).event e m) := State.event_keeps rfl (State.count_keeps rfl (Keeps.refl _ _))
  ⟨(kept.same .commits rfl).trans h.commits, (kept.same .latches rfl).trans h.latches, (kept.same .config rfl).trans h.config⟩

section
variable {s : State} {x : Issue}

/-- One of the ten checks of R68 fails. -/
def State.issueBad (s : State) (x : Issue) : Prop :=
  s.badSlot x ≠ none ∨ s.badRole x.commit ≠ none ∨ badRoll x.commit ≠ none ∨ s.badLead x.commit ≠ none ∨
    63 ≤ s.commits.live.length ∨ s.lateChecks x.commit ≠ none

/-- The first check that fails refuses the ticket, whichever it is. -/
theorem State.decideIssue_of_bad (h : s.issueBad x) : ∃ k, s.Refuses (s.decideIssue x) x.commit.ticket k := by
  unfold State.decideIssue
  dsimp only
  split
  · exact ⟨_, s.refused_refuses _ _ _ _⟩
  split
  · exact ⟨_, s.refused_refuses _ _ _ _⟩
  split
  · exact ⟨_, s.refused_refuses _ _ _ _⟩
  split
  · exact ⟨_, (s.refused_refuses _ _ _ _).counted _ _ _⟩
  split
  · exact ⟨_, s.refused_refuses _ _ _ _⟩
  split
  · exact ⟨_, s.refused_refuses _ _ _ _⟩
  rename_i hslot _ hrole _ hroll _ hlead hfull _ hlate
  obtain h | h | h | h | h | h := h
  · exact absurd hslot h
  · exact absurd hrole h
  · exact absurd hroll h
  · exact absurd hlead h
  · exact absurd h hfull
  · exact absurd hlate h

/-- A CMT_SLOT that names neither 15 nor a VALID slot is refused before anything else. -/
theorem State.decideIssue_of_badSlot (h15 : x.slotNo ≠ 15) (hv : ¬(x.slotNo < 2 ∧ (s.imgSlot x.slotNo).state = .valid)) :
    ∃ d, s.decideIssue x = s.refused x.commit.ticket F.IMG_SLOT_STATE R.im d := by
  have bad : s.badSlot x = some (F.IMG_SLOT_STATE, leBytes 1 x.slotNo) := if_neg (by simp only [h15, hv, or_self, not_false_eq_true])
  unfold State.decideIssue
  dsimp only
  rw [bad]
  exact ⟨_, rfl⟩

theorem State.decideIssue_of_good (hslot : s.badSlot x = none) (hrole : s.badRole x.commit = none) (hroll : badRoll x.commit = none)
    (hlead : s.badLead x.commit = none) (hfull : s.commits.live.length < 63) (hlate : s.lateChecks x.commit = none) :
    s.decideIssue x = s.accept x.commit := by
  unfold State.decideIssue
  dsimp only
  rw [hslot, hrole, hroll, hlead]
  dsimp only
  rw [if_neg (Nat.not_le.2 hfull), hlate]

end

/-! ## COMMIT_ISSUE, accepted (R70) -/

/-- A commit with what it waits for. -/
def Commit.await (c : Commit) (w : List Nat) : Commit := { c with waiting := w, state := if w.isEmpty then .ready else .accepted }

/-- The commit joins the pending ones, and its staged set leaves the session. -/
def State.enlist (s : State) (c : Commit) : State :=
  let s := match c.session with
    | some i => s.modSession i fun x => { x with staged := [] }
    | none => s
  (s.modCommits fun m => { m with live := m.live ++ [c], order := m.order ++ [(c.ticket, c.stamp)] }).setTicket c.ticket c.state

theorem State.enlist_spec (s : State) {c : Commit} {i : Nat} (hi : c.session = some i) :
    (s.enlist c).commits.live = s.commits.live ++ [c] ∧ (s.enlist c).commits.nextTicket = s.commits.nextTicket ∧
    ((s.enlist c).commits.tickets.find? fun x => x.ticket == c.ticket) = some ⟨c.ticket, c.state, 0⟩ ∧
    ((s.enlist c).session i).staged = [] ∧ (s.enlist c).latches = s.latches ∧ (s.enlist c).config = s.config := by
  refine ⟨?_, ?_, State.ticket_setTicket _ _ _ _, ?_, ?_, ?_⟩
  all_goals
    unfold State.enlist
    rw [hi]
  · rfl
  · rfl
  · change ((s.modSession i fun x => { x with staged := [] }).session i).staged = []
    simp
  · rfl
  · rfl

/-- What follows the acceptance, tiles that leave service among it, is no matter of the commits or of the sessions. -/
theorem State.accept_kept (s : State) (c : Commit) : Keeps 0xcd3db6cb65 (s.enlist (c.await (s.mustReport c))) (s.accept c) := by
  unfold State.accept
  extract_lets c₁ c₂ a b d e f g
  have hd : Keeps 0xcd3db6cb65 (s.enlist (c.await (s.mustReport c))) d := Keeps.refl _ _
  have he : Keeps 0xcd3db6cb65 (s.enlist (c.await (s.mustReport c))) e := State.startShadow_keeps rfl (State.ungateTargets_keeps rfl hd)
  have hf : Keeps 0xcd3db6cb65 (s.enlist (c.await (s.mustReport c))) f := by
    unfold f
    split
    · exact State.fullAccepted_keeps rfl he
    · exact he
  have hg : Keeps 0xcd3db6cb65 (s.enlist (c.await (s.mustReport c))) g := Keeps.foldl (fun _ _ hy => State.tileLeaves_keeps rfl hy) hf
  split
  · exact Keeps.foldl (fun _ _ hy => State.ripenCoder_keeps rfl hy) hg
  · exact hg

/-- The state that an issue is decided in: the ticket is taken and shown in the session's CMT_TICKET (R68). -/
def State.ticketTaken (s : State) (i : Fin 8) : State :=
  (s.modCommits fun m => { m with nextTicket := m.nextTicket + 1 }).setLatch (.session i) R.im_CMT_TICKET (w32 (s.issue i).commit.ticket)

theorem State.latch_ticketTaken (s : State) (i : Fin 8) :
    (s.ticketTaken i).latch (.session i) R.im_CMT_TICKET = w32 (s.issue i).commit.ticket := by
  rw [State.ticketTaken, State.latch_setLatch, if_pos rfl]

theorem State.ticketTaken_config (s : State) (i : Fin 8) : (s.ticketTaken i).config = s.config := State.setLatch_config _ _ _ _

theorem State.ticketTaken_commits (s : State) (i : Fin 8) :
    (s.ticketTaken i).commits = { s.commits with nextTicket := s.commits.nextTicket + 1 } := State.setLatch_commits _ _ _ _

theorem State.ticketTaken_im (s : State) (i : Fin 8) : (s.ticketTaken i).im = s.im := State.setLatch_im _ _ _ _

theorem State.ticketTaken_ledger (s : State) (i : Fin 8) : (s.ticketTaken i).ledger = s.ledger := State.setLatch_ledger _ _ _ _

theorem State.imgSlot_of_im {s t : State} {n : Nat} (h : t.im = s.im) : t.imgSlot n = s.imgSlot n := by
  rw [State.imgSlot, h, State.imgSlot]

theorem State.ticketTaken_running (s : State) (i : Fin 8) : (s.ticketTaken i).running = s.running :=
  State.running_of_startup (State.setLatch_startup _ _ _ _)

theorem State.latch_of_latches {s t : State} (h : t.latches = s.latches) (g : Agent) (a : Nat) : t.latch g a = s.latch g a := by
  rw [State.latch, h, State.latch]

theorem execCommitIssue_of_running {s : State} (i : Fin 8) (hrun : s.running = true) :
    execCommitIssue (.session i) s = .next ((s.ticketTaken i).decideIssue (s.issue i)) := by
  unfold execCommitIssue
  rw [hrun]
  rfl

/-! ## RENNET_POINT (R66, R71) -/

/-- The configuration and its CONFIG_ID stay. -/
structure State.ConfigKept (s t : State) : Prop where
  config : t.config = s.config
  id     : t.im.configId = s.im.configId

theorem State.ConfigKept.trans {s t u : State} (h : s.ConfigKept t) (k : t.ConfigKept u) : s.ConfigKept u :=
  ⟨k.config.trans h.config, k.id.trans h.id⟩

/-- An operation that keeps the configuration and the image manager. -/
theorem Keeps.configKept {A : Nat} {s t : State} (h : Keeps A s t) (hc : A.testBit (Part.bit .config) = false)
    (hi : A.testBit (Part.bit .im) = false) : s.ConfigKept t := ⟨h.same .config hc, congrArg ImageManager.configId (h.same .im hi)⟩

theorem State.ConfigKept.modIm {s t : State} {f : ImageManager → ImageManager} (h : s.ConfigKept t)
    (hf : (f t.im).configId = t.im.configId) : s.ConfigKept (t.modIm f) := h.trans ⟨rfl, hf⟩

/-- A firmware swap changes the bank of its processor. -/
theorem State.configKept_swapFirmware (s : State) (k : Nat) (p : List Byte) : s.ConfigKept (s.swapFirmware k p) := by
  have bank (f : FwBank → FwBank) : s.ConfigKept (s.modFw k f) := by
    unfold State.modFw
    split <;> exact ⟨rfl, rfl⟩
  exact (bank _).trans ((State.log_keeps rfl (State.event_keeps rfl (State.swapRestart_keeps rfl (Keeps.refl 0x6800000005 _)))).configKept rfl rfl)

theorem State.configKept_applyFirmware (s : State) (x : Change) : s.ConfigKept (s.applyFirmware x) := by
  refine List.foldlRecOn (motive := fun t => s.ConfigKept t) _ _ ⟨rfl, rfl⟩ fun t ht y _ => ?_
  repeat' split
  · exact ht.trans (t.configKept_swapFirmware _ _)
  · exact ht
  · exact ht

theorem State.configKept_applyFull (s : State) (c : Commit) : s.ConfigKept (s.applyFull c) :=
  (State.ConfigKept.modIm (f := fun im => { im with role := some c.image.role }) ⟨rfl, rfl⟩ rfl).trans
    ((State.startOutputs_keeps rfl (State.gateRole_keeps rfl (Keeps.refl 0x4d3da0c065 _))).configKept rfl rfl)

theorem State.configKept_openGate (s : State) (c : Commit) : s.ConfigKept (s.openGate c) := by
  unfold State.openGate
  extract_lets a gate b d e f
  have ha : s.ConfigKept a := State.ConfigKept.modIm ⟨rfl, rfl⟩ rfl
  have hd : Keeps 0xcc3da0c865 a d := State.log_keeps rfl (State.modStartup_keeps rfl (Keeps.refl _ _) fun _ _ => by simp)
  have hf : Keeps 0xcc3da0c865 a f := by
    refine Keeps.foldl (fun y n hy => ?_) (State.mapTio_keeps rfl hd)
    split
    · exact State.modTioPin_keeps rfl hy
    · exact hy
  have channels := Keeps.foldl (l := List.range 48) (fun _ n hy => State.startChannel_keeps (c := n) rfl hy) hf
  exact ha.trans ((Keeps.foldl (fun _ _ hy => State.headCommit_keeps rfl hy) channels).configKept rfl rfl)

/-- The sections of a commit make the configuration and CONFIG_ID of R66; a commit without a slot, and the start commit, leave the
configuration. -/
theorem State.applySections2_config (s : State) (c : Commit) :
    (s.applySections2 c).config = (if c.start = true ∨ c.slot = none then s.config else projectOne s.config c) ∧
    (s.applySections2 c).im.configId = nextConfigId s.im.configId c := by
  unfold State.applySections2
  extract_lets x link a b d e f g h i j k
  have hd : b.ConfigKept d := (State.applyControl_keeps rfl (State.applyTime_keeps rfl (Keeps.refl 0xcc3da0cf65 b))).configKept rfl rfl
  have he : b.ConfigKept e := hd.trans ((State.applyFlowPlan_keeps rfl (State.applyLanes_keeps rfl (State.applyMdp_keeps rfl
    (Keeps.refl 0xcc3df6cb65 d)))).configKept rfl rfl)
  have hf : b.ConfigKept f := by
    unfold f
    split
    · exact he.modIm rfl
    · exact he
  have hh : b.ConfigKept h := hf.trans ((State.applySurfaces_keeps rfl (State.applyLiveness_keeps rfl
    (Keeps.foldl (fun _ _ hy => State.tileJoins_keeps rfl hy) (Keeps.refl 0x4001e68021 f)))).configKept rfl rfl)
  have hi : b.ConfigKept i := by
    unfold i
    repeat' split
    · exact hh.trans (h.configKept_applyFull c)
    · exact hh.trans (h.configKept_openGate c)
    · exact hh.trans ((State.applyHeads_keeps rfl (State.applyChannels_keeps rfl (Keeps.refl 0x4cbda0c065 h))).configKept rfl rfl)
  have hj : b.ConfigKept j := hi.trans ((State.applyAudio_keeps rfl (Keeps.refl 0x4d00000005 i)).configKept rfl rfl)
  have hk : b.ConfigKept k := hj.trans ((j.configKept_applyFirmware x).trans
    ((State.applyPower_keeps rfl (Keeps.refl 0x6801008005 _)).configKept rfl rfl))
  have all : b.ConfigKept (if k.hull.state = .trim then k.gateUnused else k) := by
    split
    · exact hk.trans ((State.gateUnused_keeps rfl (Keeps.refl 0x1008001 k)).configKept rfl rfl)
    · exact hk
  refine ⟨all.config.trans ?_, all.id⟩
  have none_iff : (c.start || c.slot.isNone) = true ↔ c.start = true ∨ c.slot = none := by simp
  exact if_congr none_iff rfl rfl

/-- A commit that applies is no longer pending, its ticket is APPLIED, and IMG_APPLIED is logged. -/
theorem State.applyCommit_spec {s : State} (hrun : s.running = true) (c : Commit) :
    (s.applyCommit c).commits.live = s.commits.live.filter (fun x => x.ticket != c.ticket) ∧
    ((s.applyCommit c).commits.tickets.find? fun x => x.ticket == c.ticket) = some ⟨c.ticket, .applied, 0⟩ ∧
    s.Logs (s.applyCommit c) F.IMG_APPLIED ∧
    (s.applyCommit c).config = (if c.start = true ∨ c.slot = none then s.config else projectOne s.config c) ∧
    (s.applyCommit c).im.configId = nextConfigId s.im.configId c := by
  unfold State.applyCommit
  extract_lets a b d e f g
  have early : Keeps 0xedbff7ff65 s e := by
    refine State.event_keeps rfl (State.count_keeps rfl (State.setTicket_keeps rfl
      (Keeps.foldl (fun _ _ hy => State.setReg_keeps rfl hy) ?_)))
    exact State.applySections2_keeps rfl (State.modCommits_keeps rfl (Keeps.refl _ _))
  have logged : s.Logs f F.IMG_APPLIED := by
    have he : e.running = true := decide_eq_true (early.runs rfl (of_decide_eq_true hrun))
    exact (State.log_logsOne he _ _ _).logs.after early rfl
  have staged : Keeps 0x1 b d := Keeps.foldl (fun _ _ hy => State.setReg_keeps rfl hy) (Keeps.refl _ _)
  have hf : Keeps 0x4c3fa4c865 (d.setTicket c.ticket .applied) f :=
    State.log_keeps rfl (State.event_keeps rfl (State.count_keeps rfl (Keeps.refl _ _)))
  have tail {z : State} (hz : Keeps 0x4c3fa4c865 z f) : Keeps 0x4c3fa4c865 z g.grantWaiting.spareCheck.pairReadyCheck := by
    have hg : Keeps 0x4c3fa4c865 z g := by
      unfold g
      split
      · exact State.beginRoll_keeps rfl hz
      · exact hz
    exact State.pairReadyCheck_keeps rfl (State.spareCheck_keeps rfl (State.grantWaiting_keeps rfl hg))
  obtain ⟨config, id⟩ := a.applySections2_config c
  have commits : g.grantWaiting.spareCheck.pairReadyCheck.commits = (d.setTicket c.ticket .applied).commits := (tail hf).same .commits rfl
  have live : d.commits.live = a.commits.live := congrArg Commits.live ((staged.same .commits rfl).trans
    ((State.applySections2_keeps rfl (Keeps.refl 0xedbdf7df65 a)).same .commits rfl))
  have kept : b.ConfigKept g.grantWaiting.spareCheck.pairReadyCheck :=
    (staged.configKept rfl rfl).trans ((⟨rfl, rfl⟩ : d.ConfigKept (d.setTicket c.ticket .applied)).trans
      ((tail hf).configKept rfl rfl))
  refine ⟨?_, ?_, logged.keep (tail (Keeps.refl _ _)) rfl, kept.config.trans config, kept.id.trans id⟩
  · rw [commits]
    exact live
  · rw [commits, State.ticket_setTicket]

theorem execRennetPoint_of_one {s : State} {a : Stamp} {c : Commit} (hr : s.reached a = true)
    (hc : (s.commits.live.filter fun x => x.stamp == a && x.state == .go) = [c]) : execRennetPoint a s = .next (s.applyCommit c) := by
  unfold execRennetPoint
  rw [if_pos hr, hc]
  rfl

/-! ## The statement -/

/-- Settles O19: a ticket ends in one of the four ways, and each has its rule above. -/
theorem commitsAreIssuedCancelledAndApplied : Obligations.CommitsAreIssuedCancelledAndApplied := by
  refine ⟨?issue, ?pending, ?rennet⟩
  case issue =>
    intro i s hrun x c u
    have run := execCommitIssue_of_running i hrun
    have latch := s.latch_ticketTaken i
    have taken : s.ticketTaken i = u := rfl
    have ulive : u.commits.live = s.commits.live := by rw [← taken, s.ticketTaken_commits]
    have unext : u.commits.nextTicket = s.commits.nextTicket + 1 := by rw [← taken, s.ticketTaken_commits]
    have uconfig : u.config = s.config := s.ticketTaken_config i
    rw [taken] at run latch
    refine ⟨rfl, fun hslot hrole hroll hlead hfull hlate => ?accepted, fun hbad => ?refused⟩
    case accepted =>
      rw [State.decideIssue_of_good hslot hrole hroll hlead (by rw [ulive]; exact hfull) hlate] at run
      obtain ⟨live, next, ticket, staged, latches, config⟩ := u.enlist_spec (c := c.await (u.mustReport c)) (i := i.val) rfl
      have kept := u.accept_kept c
      have commits : (u.accept c).commits = (u.enlist (c.await (u.mustReport c))).commits := kept.same .commits rfl
      refine ⟨u.accept c, u.mustReport c, _, run, ?_, ?_, rfl, rfl, ?_, ?_, ?_, ?_⟩
      · rw [commits, next, unext]
        rfl
      · rw [State.latch_of_latches ((kept.same .latches rfl).trans latches)]
        exact latch
      · rw [commits, live, ulive]
        rfl
      · rw [commits]
        exact ticket
      · rw [State.session_of_mdp _ (kept.same .mdp rfl)]
        exact staged
      · rw [kept.same .config rfl, config, uconfig]
    case refused =>
      obtain ⟨k, refuses, note⟩ : ∃ k, u.Refuses (u.decideIssue x) c.ticket k ∧
          (x.slotNo ≠ 15 → ¬(x.slotNo < 2 ∧ (s.imgSlot x.slotNo).state = .valid) →
            k = F.IMG_SLOT_STATE.code ∧ s.Logs (u.decideIssue x) F.IMG_SLOT_STATE) := by
        by_cases hslot : x.slotNo ≠ 15 ∧ ¬(x.slotNo < 2 ∧ (s.imgSlot x.slotNo).state = .valid)
        case pos =>
          have uslot : u.imgSlot x.slotNo = s.imgSlot x.slotNo := by rw [← taken, State.imgSlot_of_im (s.ticketTaken_im i)]
          obtain ⟨d, e⟩ := State.decideIssue_of_badSlot (s := u) hslot.1 (by rw [uslot]; exact hslot.2)
          rw [e]
          exact ⟨_, u.refused_refuses _ _ _ _, fun _ _ => ⟨rfl,
            (State.refused_logs ((s.ticketTaken_running i).trans hrun) _ _ _ _).of_ledger (s.ticketTaken_ledger i).symm⟩⟩
        case neg =>
          obtain ⟨k, refuses⟩ := State.decideIssue_of_bad (s := u) (x := x) (by rw [State.issueBad, ulive]; exact hbad)
          exact ⟨k, refuses, fun h15 hv => absurd ⟨h15, hv⟩ hslot⟩
      refine ⟨u.decideIssue x, k, run, ?_, ?_, ?_, ?_, ?_, note⟩
      · rw [refuses.commits, State.setTicket_nextTicket, unext]
        rfl
      · rw [State.latch_of_latches refuses.latches]
        exact latch
      · rw [refuses.commits, State.setTicket_live, ulive]
      · rw [refuses.commits, State.ticket_setTicket]
      · rw [refuses.config, uconfig]
  case pending =>
    intro g k c s hrun hc
    refine ⟨fun hgo he => ?cancelled, fun hl => ?late, fun hr hgo => ?goPoint⟩
    case cancelled =>
      obtain ⟨live, ticket, logs, config⟩ := State.log_drop_spec (f := F.IMG_CANCELLED) (d := leBytes 4 k ++ leBytes 4 c.staged.length) hrun
        (State.modCommits_keeps (f := fun m => { m with order := m.order.filter fun e => e.1 != k }) rfl (Keeps.refl _ _))
        (by change (s.log _ _ _).commits.live = _; rw [State.log_commits]) c .cancelled 0
      rw [State.ticket_of_commitOf hc] at live ticket
      exact ⟨_, execCommitCancel_of_early (g := g) hrun hc hgo he, live, ticket, logs, config⟩
    case late =>
      obtain ⟨l, e⟩ := s.log_frame F.IMG_CANCEL_LATE R.im (leBytes 4 k)
      exact ⟨_, execCommitCancel_of_late (g := g) hrun hc hl, State.log_logsOne hrun _ _ _, by rw [e]⟩
    case goPoint =>
      have ended (f : FaultClass) (d : List Byte) := State.log_drop_spec hrun (Keeps.refl _ (s.log f R.im d))
        (congrArg Commits.live (State.log_commits _ _ _ _)) c .abandoned f.code
      rw [State.ticket_of_commitOf hc] at ended
      intro unripe bad
      refine ⟨fun hu => ?_, fun hu hb => ?_, fun hu hb => ?_⟩
      · exact ⟨_, execGoPoint_of_unripe hc hr hgo hu, ended _ _⟩
      · obtain ⟨r, run⟩ := (execGoPoint_of_ripe hc hr hgo hu).1 hb
        exact ⟨_, run, ended _ _⟩
      · have ticket : c.ticket = k := State.ticket_of_commitOf hc
        refine ⟨_, (execGoPoint_of_ripe hc hr hgo hu).2 hb, ?_, fun j hj => ?_, rfl⟩
        · subst ticket
          exact State.commitOf_setCommit_same hc
        · exact s.commitOf_setCommit_ne (by rw [ticket]; exact hj)
  case rennet =>
    intro a c s hrun hr hc
    obtain ⟨live, ticket, logs, config, id⟩ := State.applyCommit_spec hrun c
    exact ⟨s.applyCommit c, execRennetPoint_of_one hr hc, live, ticket, logs, config, id⟩

end Sys2Proof.Machine
end

section
/-!
PROOF. The image manager apart from its commits (R62, R63, R65, R67, R82): what each row makes of its staging slot, the rollback floor,
a session's staged set and the boot store, case by case.
-/

namespace Sys2Proof.Machine

/-- A class that is logged makes one entry, and nothing changes besides the ledger. -/
theorem State.log_alone {s : State} (hrun : s.running = true) (c : FaultClass) (ctrl : Nat) (data : List Byte) :
    s.LogsOne (s.log c ctrl data) c ∧ s.log c ctrl data = { s with ledger := (s.log c ctrl data).ledger } := by
  refine ⟨State.log_logsOne hrun c ctrl data, ?_⟩
  obtain ⟨l, e⟩ := s.log_frame c ctrl data
  rw [e]

/-- A class that is logged, with an event of a block after it. -/
theorem State.log_event_logs {s : State} (hrun : s.running = true) (c : FaultClass) (ctrl : Nat) (data : List Byte) (e m : Nat) :
    s.Logs ((s.log c ctrl data).event e m) c :=
  (State.log_logsOne hrun c ctrl data).logs.keep (State.event_keeps rfl (Keeps.refl 0x4800000005 _)) rfl

theorem Keeps.running {A : Nat} {s t : State} (h : Keeps A s t) (hA : A.testBit (Part.bit .startup) = false) (hrun : s.running = true) :
    t.running = true := (State.running_of_startup (h.same .startup hA)).trans hrun

/-! ## Staging slots (R62, R63) -/

theorem State.imgSlot_modImgSlot_same (s : State) (n : Nat) (f : Slot → Slot) : (s.modImgSlot n f).imgSlot n = f (s.imgSlot n) := by
  by_cases h : n = 0 <;> simp [State.imgSlot, State.modImgSlot, h]

theorem State.imgSlot_modImgSlot_ne (s : State) {n m : Fin 2} (f : Slot → Slot) (h : m ≠ n) :
    (s.modImgSlot n.val f).imgSlot m.val = s.imgSlot m.val := by
  by_cases hn : n.val = 0
  · have hm : m.val ≠ 0 := fun hm => h (Fin.ext (hm.trans hn.symm))
    simp [State.imgSlot, State.modImgSlot, hn, hm]
  · have hm : m.val = 0 := by omega
    simp [State.imgSlot, State.modImgSlot, hn, hm]

section
variable {s : State} {slot : Fin 2} {g : Agent}

theorem execSlotCheck_of_core (hg : g.isCore = true) : execSlotCheck g slot s = .next s := by
  simp [execSlotCheck, hg]

theorem execSlotCheck_of_busy {i : Fin 8} (hrun : s.running = true)
    (hb : (s.imgSlot slot.val).state = .checking ∨ s.slotPinned slot.val = true) :
    execSlotCheck (.session i) slot s = .next (s.slotBusy slot.val) := by
  simp [execSlotCheck, hrun, Agent.isCore, hb]

theorem execSlotCheck_of_free {i : Fin 8} (hrun : s.running = true) (hc : (s.imgSlot slot.val).state ≠ .checking)
    (hp : s.slotPinned slot.val = false) :
    execSlotCheck (.session i) slot s = .next (s.modImgSlot slot.val fun x => { x with state := .checking, reason := 0 }) := by
  simp [execSlotCheck, hrun, Agent.isCore, hc, hp]

theorem execSlotCtrlClear_of_pinned (hrun : s.running = true) (hp : s.slotPinned slot.val = true) :
    execSlotCtrlClear g slot s = .next (s.slotBusy slot.val) := by
  simp [execSlotCtrlClear, hrun, hp]

theorem execSlotCtrlClear_of_free (hrun : s.running = true) (hp : s.slotPinned slot.val = false) :
    execSlotCtrlClear g slot s = .next (s.modImgSlot slot.val fun _ => {}) := by
  simp [execSlotCtrlClear, hrun, hp]

theorem execValidationDone_of_valid (hc : (s.imgSlot slot.val).state = .checking) (hv : s.checkImage (s.imgSlot slot.val).bytes = none) :
    execValidationDone slot s =
      .next ((s.modImgSlot slot.val fun x => { x with state := .valid, reason := 0 }).event R.im_EVENTS 1) := by
  simp [execValidationDone, hc, hv]

theorem execValidationDone_of_finding {c : FaultClass} {d : List Byte} (hc : (s.imgSlot slot.val).state = .checking)
    (hv : s.checkImage (s.imgSlot slot.val).bytes = some (c, d)) :
    execValidationDone slot s = .next (((s.modImgSlot slot.val fun x => { x with state := .refused, reason := c.code }).log c R.im
      (leBytes 1 slot.val ++ d)).event R.im_EVENTS 3) := by
  simp [execValidationDone, hc, hv]

end

/-- The EVENTS bits of the image manager that an event names are set after it; its interrupt counts elsewhere. -/
theorem State.event_im_sets (s : State) {m : Nat} (hm : w32 m &&& 1 = 1) : (s.event R.im_EVENTS m).reg R.im_EVENTS &&& 1 = 1 := by
  rw [State.reg_event _ _ _ _ (by decide), if_pos rfl, BitVec.and_or_distrib_right, hm]
  ext i
  rw [BitVec.getElem_or, BitVec.getElem_and, Bool.or_eq_right_iff_imp]
  exact Bool.and_elim_right

/-- Settles O17: a slot moves as its rule says, and a refusal is one entry. -/
theorem stagingSlotsAreCheckedAndCleared : Obligations.StagingSlotsAreCheckedAndCleared := by
  refine ⟨?control, ?core, ?validated⟩
  case control =>
    intro g i n m s hrun hm
    refine ⟨fun hc hp => ?_, fun hb => ?_, fun hp => ?_, fun hp => ?_⟩
    · exact ⟨_, execSlotCheck_of_free hrun hc hp, s.imgSlot_modImgSlot_same _ _, s.imgSlot_modImgSlot_ne _ hm, rfl⟩
    · exact ⟨_, execSlotCheck_of_busy hrun hb, State.log_alone hrun _ _ _⟩
    · exact ⟨_, execSlotCtrlClear_of_free (g := g) hrun hp, s.imgSlot_modImgSlot_same _ _, s.imgSlot_modImgSlot_ne _ hm, rfl⟩
    · exact ⟨_, execSlotCtrlClear_of_pinned (g := g) hrun hp, State.log_alone hrun _ _ _⟩
  case core =>
    intro g n s hg
    exact execSlotCheck_of_core hg
  case validated =>
    intro n m s hrun hm hc
    cases hv : s.checkImage (s.imgSlot n.val).bytes with
    | none =>
      refine ⟨_, execValidationDone_of_valid hc hv, ?_, State.event_im_sets _ rfl, fun _ => ?_, nofun⟩
      · rw [State.imgSlot_of_im (State.event_im _ _ _), s.imgSlot_modImgSlot_ne _ hm]
      · rw [State.imgSlot_of_im (State.event_im _ _ _), s.imgSlot_modImgSlot_same]
    | some found =>
      obtain ⟨c, d⟩ := found
      let u := s.modImgSlot n.val fun x => { x with state := .refused, reason := c.code }
      have im : ((u.log c R.im (leBytes 1 n.val ++ d)).event R.im_EVENTS 3).im = u.im := by simp
      refine ⟨_, execValidationDone_of_finding hc hv, ?_, State.event_im_sets _ rfl, nofun, fun e f he => ?_⟩
      · rw [State.imgSlot_of_im im, s.imgSlot_modImgSlot_ne _ hm]
      · cases he
        refine ⟨by rw [State.imgSlot_of_im im, s.imgSlot_modImgSlot_same], ?_⟩
        exact (State.log_event_logs (s := u) hrun _ _ _ _ _).of_ledger rfl

/-! ## Rollback floor and staged writes (R65, R67) -/

section
variable {s : State} {g : Agent} {v : Word}

theorem execFloorRaise_of_allowed (hrun : s.running = true) (hg : s.adminWrite g = true)
    (hv : s.im.floor.toNat < v.toNat ∧ v.toNat ≤ s.im.runRollback.toNat) :
    execFloorRaise g v s = .next ((s.modIm fun im => { im with floor := v }).log F.IMG_FLOOR R.im
      (leBytes 4 s.im.floor.toNat ++ leBytes 4 v.toNat)) := by
  simp [execFloorRaise, hrun, hg, hv]

theorem execFloorRaise_of_refused
    (h : ¬(s.running = true ∧ s.adminWrite g = true ∧ s.im.floor.toNat < v.toNat ∧ v.toNat ≤ s.im.runRollback.toNat)) :
    execFloorRaise g v s = .next s := if_neg h

/-- The guard of a staged write, met. -/
theorem stagedWrite_guard {i a : Nat} (hrun : s.running = true) (hp : (s.session i).present = true) (ha : stagedRegister a = true)
    (hv : stagedInRange v = true) : ¬(!(s.running && (s.session i).present && stagedRegister a && stagedInRange v)) = true := by
  simp [hrun, hp, ha, hv]

theorem execStagedWrite_of_room {i : Fin 8} {a : Nat} (hrun : s.running = true) (hp : (s.session i.val).present = true)
    (ha : stagedRegister a = true) (hv : stagedInRange v = true) (hn : (s.session i.val).staged.length < 256) :
    execStagedWrite i a v s = .next (s.modSession i.val fun x => { x with staged := x.staged ++ [⟨a, v⟩] }) :=
  (if_neg (stagedWrite_guard hrun hp ha hv)).trans (if_neg (Nat.not_le.2 hn))

theorem execStagedWrite_of_full {i : Fin 8} {a : Nat} (hrun : s.running = true) (hp : (s.session i.val).present = true)
    (ha : stagedRegister a = true) (hv : stagedInRange v = true) (hn : 256 ≤ (s.session i.val).staged.length) :
    execStagedWrite i a v s = .next (s.log F.IMG_STAGE_FULL R.im (leBytes 4 (s.session i.val).id.toNat ++ leBytes 4 a)) :=
  (if_neg (stagedWrite_guard hrun hp ha hv)).trans (if_pos hn)

end

/-! ## The boot store (R82) -/

theorem State.bank_modBankState_same (s : State) (b : Bool) (f : BootBank → BootBank) : (s.modBankState b f).bank b = f (s.bank b) := by
  cases b <;> rfl

theorem State.bank_modBankState_other (s : State) (b : Bool) (f : BootBank → BootBank) : (s.modBankState b f).bank (!b) = s.bank (!b) := by
  cases b <;> rfl

theorem State.bank_of_im {s t : State} {b : Bool} (h : t.im = s.im) : t.bank b = s.bank b := by rw [State.bank, h, State.bank]

/-- No write may begin into the bank: another one runs (log entry 49), or the running device started from this bank while the other one
is not valid (R82). -/
def State.bootBarred (s : State) (b : Bool) : Prop :=
  s.im.bootWrite.isSome = true ∨ (s.bootRuns = true ∧ s.im.startedFrom = b ∧ (s.bank (!b)).state ≠ .valid)

section
variable {s : State} {g : Agent} {b : Bool} {slot : Fin 2}

theorem State.bootBarred_iff :
    (s.im.bootWrite.isSome || (s.bootRuns && s.im.startedFrom == b && (s.bank (!b)).state != .valid)) = true ↔ s.bootBarred b := by
  simp [State.bootBarred, and_assoc]

theorem execBootWrite_of_barred (hrun : s.running = true) (hg : s.adminWrite g = true) (h : s.bootBarred b) :
    execBootWrite g b slot s = .next (s.bootBusy b) := by
  unfold execBootWrite
  dsimp only
  rw [if_neg (by simp [hrun, hg]), if_pos (State.bootBarred_iff.2 h)]

theorem execBootWrite_of_full (hrun : s.running = true) (hg : s.adminWrite g = true) (h : ¬s.bootBarred b)
    (hv : (s.imgSlot slot.val).state = .valid) (hk : (imageOf (s.imgSlot slot.val).bytes).kind = 1) :
    execBootWrite g b slot s = .next ((s.modBankState b fun _ => { state := .writing }).modIm fun im =>
      { im with bootWrite := some (b, (s.imgSlot slot.val).bytes) }) := by
  unfold execBootWrite
  dsimp only
  rw [if_neg (by simp [hrun, hg]), if_neg (mt State.bootBarred_iff.1 h), if_neg (by simp [hv, hk])]

theorem execBootWriteDone_of_valid {p : List Byte} (hw : s.im.bootWrite = some (b, p)) (hv : s.checkImage p = none) :
    execBootWriteDone s = .next ((((s.modIm fun im => { im with bootWrite := none }).modBankState b fun _ => { state := .valid, bytes := p }).log
      F.IMG_BOOT_WRITE R.im (leBytes 1 (b2n b) ++ leBytes 4 (imageOf p).build)).event R.im_EVENTS 64) := by
  have hv' : (s.modIm fun im => { im with bootWrite := none }).checkImage p = none := hv
  simp only [execBootWriteDone, hw, hv']

theorem execBootWriteDone_of_finding {p : List Byte} {c : FaultClass} {d : List Byte} (hw : s.im.bootWrite = some (b, p))
    (hv : s.checkImage p = some (c, d)) :
    execBootWriteDone s = .next (((s.modIm fun im => { im with bootWrite := none }).modBankState b fun _ =>
      { state := .invalid, bytes := p }).bootFail b c.code) := by
  have hv' : (s.modIm fun im => { im with bootWrite := none }).checkImage p = some (c, d) := hv
  simp only [execBootWriteDone, hw, hv']

theorem execBootPrefer_of_valid (hrun : s.running = true) (hg : s.adminWrite g = true) (hv : (s.bank b).state = .valid) :
    execBootPrefer g b s = .next { s with im := { s.im with preferred := b } } := by
  simp only [execBootPrefer, hrun, hg, hv, Bool.and_self, Bool.not_true, Bool.false_eq_true, if_false, if_true]
  rfl

theorem execBootPrefer_of_invalid (hrun : s.running = true) (hg : s.adminWrite g = true) (hv : (s.bank b).state ≠ .valid) :
    execBootPrefer g b s = .next (s.bootBusy b) := by
  simp [execBootPrefer, hrun, hg, hv]

/-- In reset, or by an agent without the right, the floor and the boot store are left alone. -/
theorem boot_store_ignores {v : Word} (h : s.running = false ∨ s.adminWrite g = false) :
    execFloorRaise g v s = .next s ∧ execBootWrite g b slot s = .next s ∧ execBootPrefer g b s = .next s := by
  obtain h | h := h <;> simp [execFloorRaise, execBootWrite, execBootPrefer, h]

end

/-- What a finished write leaves (R82): the copied bytes in the bank in a state, no write in progress, the other bank, and an entry. -/
structure State.BankWritten (s t : State) (b : Bool) (p : List Byte) (st : BankState) (f : FaultClass) : Prop where
  idle  : t.im.bootWrite = none
  bytes : (t.bank b).bytes = p
  state : (t.bank b).state = st
  other : t.bank (!b) = s.bank (!b)
  logs  : s.Logs t f

/-- A bank takes the copied bytes, and the outcome is logged with the event of the boot store. -/
theorem State.bankWritten {s : State} (hrun : s.running = true) (b : Bool) (p : List Byte) (st : BankState) (f : FaultClass) (d : List Byte) :
    s.BankWritten ((((s.modIm fun im => { im with bootWrite := none }).modBankState b fun _ => { state := st, bytes := p }).log f R.im d).event
      R.im_EVENTS 64) b p st f := by
  let u := (s.modIm fun im => { im with bootWrite := none }).modBankState b fun _ => { state := st, bytes := p }
  have im : ((u.log f R.im d).event R.im_EVENTS 64).im = u.im := by simp
  have written : u.bank b = { state := st, bytes := p } := State.bank_modBankState_same _ _ _
  refine ⟨?_, ?_, ?_, ?_, (State.log_event_logs (s := u) hrun _ _ _ _ _).of_ledger rfl⟩
  · rw [im]
    cases b <;> rfl
  · rw [State.bank_of_im im, written]
  · rw [State.bank_of_im im, written]
  · rw [State.bank_of_im im]
    exact State.bank_modBankState_other _ _ _

/-- Settles O18: each row acts where its rule lets it, and a refusal is one entry. -/
theorem floorStagedWritesAndBootStore : Obligations.FloorStagedWritesAndBootStore := by
  refine ⟨?floor, fun g v b n s h => boot_store_ignores h, ?staged, ?write, ?written, ?prefer⟩
  case floor =>
    intro g v s hrun hg
    refine ⟨fun hv => ?_, fun hv => execFloorRaise_of_refused fun h => hv h.2.2⟩
    let u := s.modIm fun im => { im with floor := v }
    obtain ⟨one, alone⟩ := State.log_alone (s := u) hrun F.IMG_FLOOR R.im (leBytes 4 s.im.floor.toNat ++ leBytes 4 v.toNat)
    refine ⟨_, execFloorRaise_of_allowed hrun hg hv, State.log_im u _ _ _, one.of_ledger rfl, alone.trans ?_⟩
    rw [State.log_im]
    rfl
  case staged =>
    intro i a v s hrun hp ha hv
    refine ⟨fun hn => ⟨_, execStagedWrite_of_room hrun hp ha hv hn, ?_, fun j hj => ?_, rfl, rfl⟩, fun hn => ?_⟩
    · simp
    · simp [hj]
    · exact ⟨_, execStagedWrite_of_full hrun hp ha hv hn, State.log_alone hrun _ _ _⟩
  case write =>
    intro g b n s hrun hg
    refine ⟨fun hw hb hv hk => ?_, fun hb => ⟨_, execBootWrite_of_barred hrun hg hb, State.log_alone hrun _ _ _⟩⟩
    have free : ¬s.bootBarred b := fun h => h.elim (fun h => by simp [hw] at h) hb
    let u := s.modBankState b fun _ => { state := .writing }
    have same : (u.modIm fun im => { im with bootWrite := some (b, (s.imgSlot n.val).bytes) }).bank = u.bank := rfl
    refine ⟨_, execBootWrite_of_full hrun hg free hv hk, ?_, ?_, rfl, rfl⟩
    · rw [same, State.bank_modBankState_same]
    · rw [same, State.bank_modBankState_other]
  case written =>
    intro b p s hrun hw
    cases hv : s.checkImage p with
    | none =>
      obtain ⟨idle, bytes, state, other, logs⟩ := State.bankWritten hrun b p .valid F.IMG_BOOT_WRITE
        (leBytes 1 (b2n b) ++ leBytes 4 (imageOf p).build)
      exact ⟨_, execBootWriteDone_of_valid hw hv, idle, bytes, state, other, logs⟩
    | some found =>
      obtain ⟨idle, bytes, state, other, logs⟩ := State.bankWritten hrun b p .invalid F.IMG_BOOT_FAIL
        (leBytes 1 (b2n b) ++ leBytes 2 found.1.code)
      exact ⟨_, execBootWriteDone_of_finding hw hv, idle, bytes, state, other, logs⟩
  case prefer =>
    intro g b s hrun hg
    exact ⟨execBootPrefer_of_valid hrun hg, fun hv => ⟨_, execBootPrefer_of_invalid hrun hg hv, State.log_alone hrun _ _ _⟩⟩

end Sys2Proof.Machine
end

section
/-!
PROOF. The firmware banks (R79, R80, R323, R408): what a confirmation, a revert and a missed ALIVE make of the banks of a processor
kind, and what a report of ALIVE completes.
-/

namespace Sys2Proof.Machine

/-! ## The banks of a kind -/

theorem State.fw_modFw_same (s : State) (k : Nat) (f : FwBank → FwBank) : (s.modFw k f).fw k = f (s.fw k) :=
  match k with
  | 0 | 1 | _ + 2 => rfl

theorem State.fw_modFw_ne (s : State) (f : FwBank → FwBank) : ∀ {k q : Fin 3}, q ≠ k → (s.modFw k.val f).fw q.val = s.fw q.val
  | 0, 1, _ | 0, 2, _ | 1, 0, _ | 1, 2, _ | 2, 0, _ | 2, 1, _ => rfl
  | 0, 0, h | 1, 1, h | 2, 2, h => absurd rfl h

theorem State.modFw_startup (s : State) (k : Nat) (f : FwBank → FwBank) : (s.modFw k f).startup = s.startup :=
  match k with
  | 0 | 1 | _ + 2 => rfl

theorem State.modFw_ledger (s : State) (k : Nat) (f : FwBank → FwBank) : (s.modFw k f).ledger = s.ledger :=
  match k with
  | 0 | 1 | _ + 2 => rfl

theorem State.fw_of_im {s t : State} (h : t.im = s.im) (k : Nat) : t.fw k = s.fw k := by
  unfold State.fw
  rw [h]

/-- Between two states one kind's banks change as `f` says, no other kind's do, and a class is logged. -/
structure State.BanksMove (s t : State) (k : Fin 3) (f : FwBank → FwBank) (c : FaultClass) : Prop where
  own   : t.fw k.val = f (s.fw k.val)
  other : ∀ q : Fin 3, q ≠ k → t.fw q.val = s.fw q.val
  logs  : s.Logs t c

/-- A change of the banks, what keeps the image manager, and an entry at the end. -/
theorem State.banksMove_log {s u : State} (hrun : s.running = true) {k : Fin 3} {f : FwBank → FwBank}
    (h : Keeps 0x6800000005 (s.modFw k.val f) u)
    (c : FaultClass) (ctrl : Nat) (d : List Byte) : s.BanksMove (u.log c ctrl d) k f c := by
  have im : (u.log c ctrl d).im = (s.modFw k.val f).im := (State.log_im _ _ _ _).trans (h.same .im rfl)
  have urun : u.running = true := h.running rfl ((State.running_of_startup (s.modFw_startup _ _)).trans hrun)
  refine ⟨?_, fun q hq => ?_, ?_⟩
  · rw [State.fw_of_im im, State.fw_modFw_same]
  · rw [State.fw_of_im im, State.fw_modFw_ne _ _ hq]
  · exact (((State.log_logsOne urun c ctrl d).logs).after h rfl).of_ledger (s.modFw_ledger _ _).symm

/-! ## FW_CONFIRM, FW_REVERT and FW_ALIVE_TIMEOUT (R79, R80, R408) -/

/-- The banks of a kind that goes back to its old firmware, by a further swap with a limit or at once. -/
def FwBank.fallBack (again : Bool) (limit : Nat) (b : FwBank) : FwBank :=
  { b with bank := !b.bank, swapping := again, unconfirmed := false, reverted := true, running := b.old,
           old := if again then b.running else [], aliveBy := if again then some limit else none }

section
variable {s : State} {k : Fin 3}

theorem State.revertFirmware_moves (hrun : s.running = true) (cause : Nat) :
    s.BanksMove (s.revertFirmware k.val cause) k (.fallBack (cause == 2) (s.now + aliveLimit k.val)) F.IMG_FW_REVERT :=
  State.banksMove_log hrun (State.event_keeps rfl (State.swapRestart_keeps rfl (Keeps.refl _ _))) _ _ _

theorem execFwConfirm_of_unconfirmed {g : Agent} (hrun : s.running = true) (hg : s.adminWrite g = true) (hu : (s.fw k.val).unconfirmed = true) :
    ∃ t, execFwConfirm g k s = .next t ∧ s.BanksMove t k (fun b => { b with unconfirmed := false, old := [] }) F.IMG_FW_CONFIRMED :=
  ⟨_, if_pos ⟨hrun, hg, hu⟩, State.banksMove_log hrun (State.event_keeps rfl (Keeps.refl _ _)) _ _ _⟩

theorem execFwRevert_of_unconfirmed {g : Agent} (hrun : s.running = true) (hg : s.adminWrite g = true) (hu : (s.fw k.val).unconfirmed = true) :
    execFwRevert g k s = .next (s.revertFirmware k.val 2) := if_pos ⟨hrun, hg, hu⟩

theorem fw_ctrl_ignores {g : Agent} (h : s.adminWrite g = false ∨ (s.fw k.val).unconfirmed = false) :
    execFwConfirm g k s = .next s ∧ execFwRevert g k s = .next s := by
  have barred : ¬(s.running = true ∧ s.adminWrite g = true ∧ (s.fw k.val).unconfirmed = true) := by
    obtain h | h := h <;> simp [h]
  exact ⟨if_neg barred, if_neg barred⟩

theorem execFwAliveTimeout_of_running {b : Nat} (hb : (s.fw k.val).aliveBy = some b) (hd : s.due b = true) (hp : s.startup.phase ≠ 4) :
    execFwAliveTimeout k s = .next (s.revertFirmware k.val 1) := by
  simp [execFwAliveTimeout, hb, hd, hp]

/-- In phase 4 the kind waits for no ALIVE any more, START_FW_FAIL is the one entry, and phase 3 begins again. -/
theorem execFwAliveTimeout_of_start {b : Nat} (hrun : s.running = true) (hb : (s.fw k.val).aliveBy = some b) (hd : s.due b = true)
    (hp : s.startup.phase = 4) :
    ∃ t, execFwAliveTimeout k s = .next t ∧ t.startup.phase = 3 ∧ t.startup.phaseAt = s.now ∧ (t.fw k.val).aliveBy = none ∧
      (∀ q : Fin 3, q ≠ k → t.fw q.val = s.fw q.val) ∧ s.LogsOne t F.START_FW_FAIL := by
  let u := s.modFw k.val fun b => { b with aliveBy := none }
  let data := leBytes 1 (k.val + 1) ++ leBytes 1 (b2n s.im.startedFrom)
  have now : u.now = s.now := congrArg Clock.now ((State.modFw_keeps rfl (Keeps.refl 0x1000 s)).same .clock rfl)
  have urun : u.running = true := (State.running_of_startup (s.modFw_startup _ _)).trans hrun
  have moved := State.banksMove_log hrun (Keeps.refl _ u) F.START_FW_FAIL R.start data
  have one : s.LogsOne (u.log F.START_FW_FAIL R.start data) F.START_FW_FAIL :=
    (State.log_logsOne urun _ _ _).of_ledger (s.modFw_ledger _ _).symm
  unfold execFwAliveTimeout
  dsimp only
  rw [hb]
  dsimp only
  rw [if_neg (by simp [hd]), if_pos hp]
  exact ⟨_, rfl, rfl, (congrArg Clock.now (State.log_clock u _ _ _)).trans now, congrArg FwBank.aliveBy moved.own, moved.other, one⟩

end

/-! ## CORE_ALIVE (R323, R79) -/

/-- A tending core has reported. -/
def State.coreReports (s : State) (n : Nat) : State := s.modTc n fun x => { x with alive := true }

theorem State.tc_coreReports (s : State) (n m : Nat) :
    (s.coreReports n).tc m = if m = n then { s.tc n with alive := true } else s.tc m := by
  simp [State.coreReports]

theorem State.tc_fwAlive (s : State) (k n : Nat) : (s.fwAlive k).tc n = s.tc n := by
  have cores : (s.fwAlive k).cores = s.cores := (State.fwAlive_keeps rfl (Keeps.refl 0x1000 s)).same .cores rfl
  rw [State.tc, cores, State.tc]

theorem execCoreAlive_of_core {s : State} (hrun : s.running = true) (g : Agent) (p : Fin 4) :
    execCoreAlive g ⟨p.val, by omega⟩ s = .next (if (List.range 4).all fun i => ((s.coreReports p.val).tc i).alive
      then (s.coreReports p.val).fwAlive 0 else s.coreReports p.val) := by
  have hp : p.val ≠ 4 := by omega
  simp only [execCoreAlive, hrun, hp, State.modProc, State.coreReports, ne_eq, not_false_eq_true, true_or, and_self, if_true, if_false]
  exact (apply_ite _ _ _ _).symm

/-- All four have reported with this one when the other three had. -/
theorem State.coreReports_all_iff (s : State) (p : Fin 4) :
    ((List.range 4).all fun i => ((s.coreReports p.val).tc i).alive) = true ↔ ∀ q : Fin 4, q ≠ p → (s.tc q.val).alive = true := by
  simp only [List.all_eq_true, List.mem_range, State.tc_coreReports]
  constructor
  · intro h q hq
    simpa [Fin.val_ne_of_ne hq] using h q.val q.isLt
  · intro h i hi
    split
    · rfl
    · exact h ⟨i, hi⟩ (Fin.ne_of_val_ne ‹_›)

/-- Settles O21: the banks move as the row says, and the swap completes with the last report. -/
theorem firmwareIsConfirmedRevertedAndReported : Obligations.FirmwareIsConfirmedRevertedAndReported := by
  refine ⟨?control, ?timeout, ?cores, ?pair⟩
  case control =>
    intro g p s hrun
    refine ⟨fun hg hu => ⟨?_, ?_⟩, fw_ctrl_ignores⟩
    · obtain ⟨t, run, own, other, logs⟩ := execFwConfirm_of_unconfirmed hrun hg hu
      exact ⟨t, run, own, other, logs⟩
    · obtain ⟨own, other, logs⟩ := State.revertFirmware_moves hrun (k := p) 2
      refine ⟨_, execFwRevert_of_unconfirmed hrun hg hu, ?_, ?_, ?_, ?_, ?_, ?_, other, logs⟩
      all_goals
        rw [own]
        rfl
  case timeout =>
    intro p b s hrun hb hd
    refine ⟨fun hp => ?_, execFwAliveTimeout_of_start hrun hb hd⟩
    obtain ⟨own, other, logs⟩ := State.revertFirmware_moves hrun (k := p) 1
    refine ⟨_, execFwAliveTimeout_of_running hb hd hp, ?_, ?_, ?_, other, logs⟩
    all_goals
      rw [own]
      rfl
  case cores =>
    intro g p s hrun
    refine ⟨_, execCoreAlive_of_core hrun g p, ?_⟩
    by_cases all : ∀ q : Fin 4, q ≠ p → (s.tc q.val).alive = true
    · rw [if_pos ((s.coreReports_all_iff p).2 all)]
      refine ⟨?_, fun q hq => ?_, fun ⟨q, hq, dead⟩ => ?_, fun _ => ⟨rfl, rfl⟩⟩
      · rw [State.tc_fwAlive, State.tc_coreReports, if_pos rfl]
      · rw [State.tc_fwAlive, State.tc_coreReports, if_neg hq]
      · rw [all q hq] at dead
        cases dead
    · rw [if_neg (mt (s.coreReports_all_iff p).1 all)]
      refine ⟨?_, fun q hq => ?_, fun _ => rfl, fun h => absurd h all⟩
      · rw [State.tc_coreReports, if_pos rfl]
      · rw [State.tc_coreReports, if_neg hq]
  case pair =>
    intro s hrun
    refine ⟨((s.modProc 4 fun x => { x with alive := true }).fwAlive 1).clearSafe F.CORE_CODE_LOST.code, ?_, rfl, rfl, rfl⟩
    exact if_pos ⟨hrun, .inr rfl⟩

end Sys2Proof.Machine
end

section
/-!
PROOF. Ripening, rolls and the rebuilt shadow of the flow table (R70, R72, R74, R77, R78, R111): what a tile's report makes of the commit
that waits for it or of the tile, and how a roll chooses, takes and gives up its steps.
-/

namespace Sys2Proof.Machine

/-! ## A tile reports to the commit that waits for it (R70, R72, R74) -/

/-- A commit that one of the things it waits for has reported to. -/
def Commit.heard (c : Commit) (n : Nat) : Commit :=
  let w := c.waiting.filter fun x => x != n
  { c with waiting := w, state := if w.isEmpty then .ready else c.state }

theorem State.commitOf_of_commits {s t : State} (h : t.commits = s.commits) (k : Nat) : t.commitOf k = s.commitOf k := by
  rw [State.commitOf, h, State.commitOf]

/-- After the report, which the commit takes, come the coder's own outcome and whom a ripe coder serves. -/
theorem State.commitReports_passed (s : State) (c : Commit) (d t : Nat) :
    Keeps 0x4d3da4c865 (s.setCommit (c.heard (tileNo d t))) (s.commitReports c d t none) ∧
    (coderOf d t = none → s.commitReports c d t none = s.setCommit (c.heard (tileNo d t))) := by
  unfold State.commitReports
  dsimp only
  cases coderOf d t with
  | none => exact ⟨Keeps.refl _ _, fun _ => rfl⟩
  | some k =>
    refine ⟨?_, nofun⟩
    dsimp only
    split
    · exact State.afterRipe_keeps rfl (State.modTile_keeps rfl (State.modCoder_keeps rfl (State.coderTested_keeps rfl (Keeps.refl _ _))))
    · exact State.selfTested_keeps rfl (Keeps.refl _ _)

theorem State.ripenFail_logs {s : State} (hrun : s.running = true) (k d t st : Nat) : s.Logs (s.ripenFail k d t st) F.IMG_RIPEN_FAIL :=
  (State.log_logsOne hrun _ _ _).logs

/-- After a failure is logged, the commit is abandoned, or goes on with its roll. -/
theorem State.commitReports_failed (s : State) (c : Commit) (d t st : Nat) :
    ∃ u, Keeps 0x480100a005 s u ∧
      (s.commitReports c d t (some st) = (u.ripenFail c.ticket d t st).abandon c abandonRipen ∧ u.commits = s.commits ∨
       s.commitReports c d t (some st) = (u.ripenFail c.ticket d t st).afterRipe ∧ c.roll = true ∧ (coderOf d t).isSome = true) := by
  unfold State.commitReports
  dsimp only
  cases coderOf d t with
  | none => exact ⟨s, Keeps.refl _ _, .inl ⟨rfl, rfl⟩⟩
  | some k =>
    cases c.roll with
    | false =>
      exact ⟨s.selfTested k (some st), State.selfTested_keeps rfl (Keeps.refl _ _), .inl ⟨rfl,
        (State.selfTested_keeps rfl (Keeps.refl 0x4801000005 s)).same .commits rfl⟩⟩
    | true =>
      exact ⟨_, State.modTile_keeps rfl (State.coderTested_keeps rfl (State.setCommit_keeps rfl (Keeps.refl _ _))), .inr ⟨rfl, rfl, rfl⟩⟩

/-- An abandoned commit is no longer pending, and its ticket shows IMG_ABANDONED. -/
theorem State.abandon_spec (s : State) (c : Commit) (r : Nat) :
    (s.abandon c r).commits.live = s.commits.live.filter (fun x => x.ticket != c.ticket) ∧
    ((s.abandon c r).commits.tickets.find? fun x => x.ticket == c.ticket) = some ⟨c.ticket, .abandoned, F.IMG_ABANDONED.code⟩ := by
  obtain ⟨live, ticket, -⟩ := (s.log F.IMG_ABANDONED R.im (leBytes 4 c.ticket ++ leBytes 1 r ++ leBytes 4 c.staged.length)).drop_spec c
    .abandoned F.IMG_ABANDONED.code
  exact ⟨by rw [← State.log_commits s]; exact live, ticket⟩

/-! ## A tile reports for itself (R74) -/

theorem State.tile_of_tiles {s t : State} (h : t.tiles = s.tiles) (n : Nat) : t.tile n = s.tile n := by rw [State.tile, h, State.tile]
theorem State.rind_of_rinds {s t : State} (h : t.rinds = s.rinds) (n : Nat) : t.rind n = s.rind n := by rw [State.rind, h, State.rind]

/-- A plane that takes effect leaves the states of the tiles. -/
theorem State.takePlane_tileState (s : State) (k : Nat) (p : List Byte) (n : Nat) :
    ((s.takePlane k p).tile n).state = (s.tile n).state := by
  unfold State.takePlane
  dsimp only
  rw [State.modTile_eq, State.tile_setTile]
  split
  case isTrue h => rw [h]; rfl
  case isFalse => rfl

theorem State.grantWaiting_of_nobody {s : State} (h : ∀ c, (s.rind c).waits = none) : s.grantWaiting = s := by
  have nobody : s.waitingChannels = [] := by simp [State.waitingChannels, h]
  unfold State.grantWaiting
  rw [nobody]
  split <;> rfl

/-- While no channel waits for a coder, outside TRIM, a ripe spare moves no tile. -/
theorem State.afterRipe_tiles {s : State} (h : ∀ c, (s.rind c).waits = none) (ht : s.hull.state ≠ .trim) : s.afterRipe.tiles = s.tiles := by
  have spare : Keeps 0x4810004005 s s.spareCheck.rollDoneCheck :=
    State.rollDoneCheck_keeps rfl (State.spareCheck_keeps rfl (Keeps.refl _ _))
  have trim : s.spareCheck.rollDoneCheck.trimCoders = s.spareCheck.rollDoneCheck :=
    if_neg (by rw [spare.same .hull rfl]; exact ht)
  rw [State.afterRipe, State.grantWaiting_of_nobody h, trim]
  exact (State.pairReadyCheck_keeps rfl spare).same .tiles rfl

/-- What a tile that has passed sets going: its coder, or its port group. -/
def State.joinsWith (s : State) (d t : Nat) : State :=
  match coderOf d t with
  | some k => if (s.coder k).state = .failed then s.coderTested k none else (s.coderTested k none).takePlane k (s.ripeContent k none)
  | none => if d = 1 ∧ t < 4 then s.groupJoin t else s.groupBack d t

theorem State.joinsWith_keeps {A : Nat} {z s : State} {d t : Nat} (hA : 0x4801068025 &&& A = 0x4801068025) (h : Keeps A z s) :
    Keeps A z (s.joinsWith d t) := by
  unfold State.joinsWith
  cases coderOf d t with
  | none =>
    dsimp only
    split
    · exact State.groupJoin_keeps (Part.sub hA rfl) h
    · exact State.groupBack_keeps (Part.sub hA rfl) h
  | some k =>
    have tested := State.coderTested_keeps (k := k) (failed := none) (Part.sub hA rfl) h
    dsimp only
    split
    · exact tested
    · exact State.takePlane_keeps (Part.sub hA rfl) tested

/-- Only a plane that takes effect touches a tile, and not its state. -/
theorem State.joinsWith_tileState (s : State) (d t n : Nat) : ((s.joinsWith d t).tile n).state = (s.tile n).state := by
  have of_tiles {u : State} (h : u.tiles = s.tiles) : (u.tile n).state = (s.tile n).state := congrArg Tile.state (State.tile_of_tiles h n)
  unfold State.joinsWith
  cases coderOf d t with
  | none =>
    dsimp only
    split
    · exact of_tiles ((State.groupJoin_keeps rfl (Keeps.refl 0x60021 s)).same .tiles rfl)
    · exact of_tiles ((State.groupBack_keeps rfl (Keeps.refl 0x60001 s)).same .tiles rfl)
  | some k =>
    have tested := of_tiles ((State.coderTested_keeps (k := k) (failed := none) rfl (Keeps.refl 0x4801000005 s)).same .tiles rfl)
    dsimp only
    split
    · exact tested
    · rw [State.takePlane_tileState, tested]

/-- A tile that has passed is in service before the others hear of it. -/
theorem State.tileReports_passed (s : State) (d t : Nat) :
    ∃ u, s.tileReports d t none = u.afterRipe ∧ Keeps 0x4801868025 s u ∧ (u.tile (tileNo d t)).state = .inService := by
  let x := s.modTile (tileNo d t) fun x => { x with state := .inService }
  have counts : (x.clearTileCounts d t).tiles = x.tiles := (State.clearTileCounts_keeps rfl (Keeps.refl 0x1800001 x)).same .tiles rfl
  refine ⟨(x.clearTileCounts d t).joinsWith d t, rfl, ?_, ?_⟩
  · exact State.joinsWith_keeps rfl (State.clearTileCounts_keeps rfl (State.modTile_keeps rfl (Keeps.refl _ s)))
  · rw [State.joinsWith_tileState, State.tile_of_tiles counts]
    simp [x]

/-- A tile that has failed is out of service, and no other tile changes, before the others hear of it. -/
theorem State.tileReports_failed (s : State) (d t st : Nat) :
    ∃ u, s.tileReports d t (some st) = (u.ripenFail 0 d t st).afterRipe ∧ Keeps 0x4801008005 s u ∧
      u.tiles = (s.modTile (tileNo d t) fun x => { x with state := .failed }).tiles := by
  unfold State.tileReports
  dsimp only
  have failed : Keeps 0x4801008005 s (s.modTile (tileNo d t) fun x => { x with state := .failed }) := State.modTile_keeps rfl (Keeps.refl _ s)
  cases coderOf d t with
  | none => exact ⟨_, rfl, failed, rfl⟩
  | some k =>
    exact ⟨_, rfl, State.coderTested_keeps rfl failed, (State.coderTested_keeps rfl (Keeps.refl 0x4801000005 _)).same .tiles rfl⟩

/-! ## RIPEN_DONE -/

section
variable {s : State} {d : Fin 8} {x : Fin 64} {f : Option (Fin 3)}

theorem execRipenDone_of_waiting {c : Commit} (hg : (s.tile (tileNo d.val x.val)).state ≠ .gated)
    (hr : (s.tile (tileNo d.val x.val)).state = .ripening → (s.tile (tileNo d.val x.val)).ripeFrom ≤ s.now)
    (hc : (s.commits.live.find? fun c => c.waiting.contains (tileNo d.val x.val)) = some c) :
    execRipenDone d x f s = .next (s.commitReports c d.val x.val (f.map fun y => y.val + 1)) := by
  have ripe : ¬((s.tile (tileNo d.val x.val)).state = .gated ∨
      ((s.tile (tileNo d.val x.val)).state = .ripening ∧ s.now < (s.tile (tileNo d.val x.val)).ripeFrom)) :=
    not_or.2 ⟨hg, fun h => Nat.not_lt.2 (hr h.1) h.2⟩
  unfold execRipenDone
  dsimp only
  rw [if_neg ripe, hc]

theorem execRipenDone_of_alone (hs : (s.tile (tileNo d.val x.val)).state = .ripening) (hr : (s.tile (tileNo d.val x.val)).ripeFrom ≤ s.now)
    (hw : ∀ c ∈ s.commits.live, tileNo d.val x.val ∉ c.waiting) (hh : s.heldByCommit d.val x.val = false) :
    execRipenDone d x f s = .next (s.tileReports d.val x.val (f.map fun y => y.val + 1)) := by
  have nobody : (s.commits.live.find? fun c => c.waiting.contains (tileNo d.val x.val)) = none := by
    simpa [List.find?_eq_none] using hw
  unfold execRipenDone
  dsimp only
  rw [if_neg (by simp [hs, hr]), nobody]
  exact if_pos ⟨hs, hh⟩

end

/-! ## FT_REBUILD_DONE (R111) -/

theorem execFtRebuildDone_of_rebuilding {s : State} {k : Nat} (hk : s.ft.rebuilding = some k) :
    ∃ t, execFtRebuildDone s = .next t ∧ t.ft = { s.ft with rebuilding := none, rebuilt := some k } ∧
      ∀ c, s.commitOf k = some c → t.commitOf k = some (c.heard shadowItem) := by
  let u := (s.modFt fun f => { f with rebuilding := none, rebuilt := some k })
  let v := u.joinBank (u.ft.bankOf (!u.ft.active))
  have kept : Keeps 0x40021 u v := State.joinBank_keeps rfl (Keeps.refl _ u)
  have commits : v.commitOf k = s.commitOf k := State.commitOf_of_commits (kept.same .commits rfl) k
  unfold execFtRebuildDone
  rw [hk]
  change ∃ t, (match v.commitOf k with
    | none => .next v
    | some c => .next (v.setCommit (c.heard shadowItem))) = Host.Outcome.next t ∧ _
  cases hc : v.commitOf k with
  | none => exact ⟨v, rfl, kept.same .ft rfl, fun c h => absurd (commits.trans h) (by simp [hc])⟩
  | some d =>
    refine ⟨_, rfl, kept.same .ft rfl, fun c h => ?_⟩
    obtain rfl : d = c := Option.some.inj (hc.symm.trans (commits.trans h))
    obtain rfl : d.ticket = k := State.ticket_of_commitOf hc
    exact State.commitOf_setCommit_same (c := d.heard shadowItem) hc

/-! ## The steps of a roll (R77, R78) -/

section
variable {s : State}

/-- The rennet point of the next step is a MIN_LEAD from now, or the gap after the last step where that is later. -/
theorem State.rollPoint_cases (s : State) :
    let a := s.stamp + BitVec.ofNat 64 s.minLead
    let b := s.roll.lastStep + BitVec.ofNat 64 (ticksUp s.mode (ms s.roll.gap))
    s.rollPoint = a ∧ later b a = false ∨ s.rollPoint = b ∧ later b a = true := by
  intro a b
  unfold State.rollPoint
  dsimp only
  by_cases h : later b a = true
  · exact .inr ⟨if_pos h, h⟩
  · exact .inl ⟨if_neg h, eq_false_of_ne_true h⟩

theorem execRollStepSchedule_of_due (ha : s.roll.active = true) (hn : s.roll.nextStep = none) (hx : s.rollNext.isSome = true)
    (hs : 2 ≤ s.ripeSpares.length)
    (hr : s.reached (s.roll.lastStep + BitVec.ofNat 64 (ticksUp s.mode (ms s.roll.gap)) - BitVec.ofNat 64 s.minLead) = true) :
    execRollStepSchedule s = .next (s.modRoll fun r => { r with nextStep := some s.rollPoint }) := by
  have waits : ¬s.rollNext.isNone = true := by simpa [Option.isSome_iff_ne_none] using hx
  unfold execRollStepSchedule
  dsimp only
  rw [if_neg (by simp [ha, hn]), if_neg waits, if_neg (Nat.not_lt.2 hs), if_pos hr]

/-- A takeover that is asked for waits for the safety pair, and no earlier one is lost. -/
theorem State.takeoverCause_spec (s : State) (c k cause : Nat) (target : Option Nat) :
    ((s.takeoverCause c k cause target).takeovers.any fun x => x.channel == c && x.coder == k && x.cause == cause) = true ∧
    ∀ x ∈ s.takeovers, x ∈ (s.takeoverCause c k cause target).takeovers := by
  unfold State.takeoverCause
  split
  case isTrue waits => exact ⟨waits, fun _ h => h⟩
  case isFalse => exact ⟨by simp, fun _ h => List.mem_append_left _ h⟩

/-- A step of a roll that is possible (R77). -/
theorem State.rollStep_spec {a : Stamp} {c k n : Nat} (hrun : s.running = true) (hx : s.rollNext = some (c, k)) (hn : s.newSpare = some n) :
    (s.rollStep a).roll = { s.roll with steps := s.roll.steps + 1, lastStep := a, stalled := none } ∧
    s.Logs (s.rollStep a) F.IMG_ROLL_STEP ∧ (s.rollStep a).takeovers = (s.takeoverCause c k 6 (some n)).takeovers := by
  have asked : Keeps 0x2000000 s (s.takeoverCause c k 6 (some n)) := State.takeoverCause_keeps rfl (Keeps.refl _ s)
  let u := (s.takeoverCause c k 6 (some n)).modRoll fun r => { r with steps := r.steps + 1, lastStep := a, stalled := none }
  let v := u.log F.IMG_ROLL_STEP R.im (leBytes 1 c ++ leBytes 1 k ++ leBytes 1 n)
  have run : s.rollStep a = v.event R.im_EVENTS 16 := by simp only [State.rollStep, hx, hn]; rfl
  have noted : Keeps 0x4800000005 u (v.event R.im_EVENTS 16) := State.event_keeps rfl (State.log_keeps rfl (Keeps.refl _ u))
  have logged : u.Logs (v.event R.im_EVENTS 16) F.IMG_ROLL_STEP := State.log_event_logs (s := u) (asked.running rfl hrun) _ _ _ _ _
  rw [run]
  refine ⟨?_, ?_, noted.same .takeovers rfl⟩
  · rw [noted.same .roll rfl, ← asked.same .roll rfl]
    rfl
  · exact logged.after (State.modRoll_keeps (A := 0x2004000) rfl (State.takeoverCause_keeps rfl (Keeps.refl _ s))) rfl

theorem execRollStep_of_reached {a : Stamp} (ha : s.roll.active = true) (hn : s.roll.nextStep = some a) (hr : s.reached a = true) :
    execRollStep s = .next ((s.modRoll fun r => { r with nextStep := none }).rollStep a) := by
  unfold execRollStep
  rw [hn]
  exact if_pos ⟨ha, hr⟩

theorem execRollHalt_of_stalled {b : Nat} (hrun : s.running = true) (ha : s.roll.active = true) (hs : s.roll.stalled = some b)
    (hd : s.due (b + sec 1) = true) (hl : 0 < s.rollRemaining) :
    ∃ t, execRollHalt s = .next t ∧ t.roll = { s.roll with active := false, halted := true, nextStep := none, stalled := none } ∧
      s.Logs t F.IMG_ROLL_HALT := by
  let u := s.modRoll fun r => { r with active := false, halted := true, nextStep := none, stalled := none }
  let v := u.log F.IMG_ROLL_HALT R.im (leBytes 1 s.rollRemaining ++ leBytes 1 u.ripeSpares.length)
  have run : execRollHalt s = .next (v.event R.im_EVENTS 16) := by
    unfold execRollHalt
    rw [hs]
    exact if_pos ⟨ha, hd, hl⟩
  refine ⟨_, run, ?_, (State.log_event_logs (s := u) hrun _ _ _ _ _).of_ledger rfl⟩
  rw [State.event_roll, State.log_roll]
  rfl

end

/-! ## The statement -/

/-- Settles O20: a report reaches the commit that waits, or else the tile; a roll steps at the point it chose, or halts. -/
theorem ripeningRollsAndShadowsReport : Obligations.RipeningRollsAndShadowsReport := by
  refine ⟨?waiting, ?alone, ?rebuilt, ?schedule, ?step, ?halt⟩
  case waiting =>
    intro d x c s hg hr hw hc
    refine ⟨?passed, fun f hrun => ?failed⟩
    case passed =>
      obtain ⟨kept, plain⟩ := s.commitReports_passed c d.val x.val
      refine ⟨_, _, execRipenDone_of_waiting hg hr hw, rfl, ?_, fun hk => ?_⟩
      · exact (State.commitOf_of_commits (kept.same .commits rfl) _).trans
          (State.commitOf_setCommit_same (c := c.heard (tileNo d.val x.val)) hc)
      · rw [Option.map_none, plain hk]
        rfl
    case failed =>
      obtain ⟨u, kept, h⟩ := s.commitReports_failed c d.val x.val (f.val + 1)
      have logged := (State.ripenFail_logs (kept.running rfl hrun) c.ticket d.val x.val (f.val + 1)).after kept rfl
      refine ⟨_, execRipenDone_of_waiting hg hr hw, ?_⟩
      rw [Option.map_some]
      obtain ⟨run, commits⟩ | ⟨run, roll, coder⟩ := h
      · rw [run]
        refine ⟨logged.keep (State.abandon_keeps rfl (Keeps.refl 0x4d3db6e065 _)) rfl, fun _ => ?_⟩
        obtain ⟨live, ticket⟩ := (u.ripenFail c.ticket d.val x.val (f.val + 1)).abandon_spec c abandonRipen
        exact ⟨by rw [live, State.ripenFail, State.log_commits, commits], ticket⟩
      · rw [run]
        exact ⟨logged.keep (State.afterRipe_keeps rfl (Keeps.refl 0x4c3da4c865 _)) rfl, fun h => absurd ⟨roll, coder⟩ h⟩
  case alone =>
    intro d x s hrun hs hr hw hh nobody trim
    have rest {A : Nat} {u : State} (k : Keeps A s u) (hr : A.testBit (Part.bit .rinds) = false) (hh : A.testBit (Part.bit .hull) = false) :
        u.afterRipe.tiles = u.tiles :=
      State.afterRipe_tiles (fun c => by rw [State.rind_of_rinds (k.same .rinds hr), nobody]) (by rw [k.same .hull hh]; exact trim)
    refine ⟨?_, fun f => ?_⟩
    · obtain ⟨u, run, kept, tile⟩ := s.tileReports_passed d.val x.val
      refine ⟨_, execRipenDone_of_alone hs hr hw hh, ?_⟩
      rw [Option.map_none, run, State.tile_of_tiles (rest kept rfl rfl), tile]
    · obtain ⟨u, run, kept, tiles⟩ := s.tileReports_failed d.val x.val (f.val + 1)
      have failed : Keeps 0x4801008005 s (u.ripenFail 0 d.val x.val (f.val + 1)) := State.ripenFail_keeps rfl kept
      have logged := (State.ripenFail_logs (kept.running rfl hrun) 0 d.val x.val (f.val + 1)).after kept rfl
      have all : (u.ripenFail 0 d.val x.val (f.val + 1)).afterRipe.tiles =
          (s.modTile (tileNo d.val x.val) fun x => { x with state := .failed }).tiles :=
        (rest failed rfl rfl).trans ((State.log_tiles _ _ _ _).trans tiles)
      refine ⟨_, execRipenDone_of_alone hs hr hw hh, ?_⟩
      rw [Option.map_some, run]
      refine ⟨logged.keep (State.afterRipe_keeps rfl (Keeps.refl 0x4c3da4c865 _)) rfl, ?_, fun n hn => ?_⟩
      · rw [State.tile_of_tiles all, State.modTile_eq, State.tile_setTile, if_pos rfl]
      · rw [State.tile_of_tiles all, State.modTile_eq, State.tile_setTile, if_neg hn]
  case rebuilt =>
    intro k s hk
    obtain ⟨t, run, ft, commit⟩ := execFtRebuildDone_of_rebuilding hk
    exact ⟨t, run, ft, fun c hc => ⟨_, rfl, commit c hc⟩⟩
  case schedule =>
    intro s ha hn hx hs a b hr
    exact ⟨_, execRollStepSchedule_of_due ha hn hx hs hr, s.rollPoint_cases⟩
  case step =>
    intro a c k n s hrun ha hn hr hx hspare
    let u := s.modRoll fun r => { r with nextStep := none }
    obtain ⟨roll, logs, takeovers⟩ := State.rollStep_spec (s := u) (a := a) hrun hx hspare
    obtain ⟨waits, others⟩ := u.takeoverCause_spec c k 6 (some n)
    refine ⟨_, execRollStep_of_reached ha hn hr, ?_, ?_, ?_, logs.of_ledger rfl, ?_, ?_⟩
    · rw [roll]
      rfl
    · rw [roll]
    · rw [roll]
      rfl
    · rw [takeovers, waits]
    · rw [takeovers]
      exact others
  case halt =>
    intro b s hrun ha hs hd hl
    exact execRollHalt_of_stalled hrun ha hs hd hl

end Sys2Proof.Machine
end

section
/-!
PROOF. Lanes in bring-up and LOCKED lanes (R88, R91): what the steps of a lane change.
-/

namespace Sys2Proof.Machine

/-! ## Events and entries of a port change no unit -/

theorem State.lane_of_lanes {s t : State} (h : t.lanes = s.lanes) (l : Nat) : t.lane l = s.lane l := by rw [State.lane, h, State.lane]

theorem State.logOut_logsOne {s : State} (hrun : s.running = true) (c : FaultClass) (ctrl dp : Nat) (outs : List (Output × Nat)) (data : List Byte) :
    s.LogsOne (s.logOut c ctrl dp outs data) c := by
  refine ⟨{ s.entry c ctrl data with dp := dp, outs := outs, response := decide (2 ≤ s.effective c) }, ?_, rfl⟩
  rw [State.logOut, State.logEntry_outbox, if_pos hrun]

/-- While D0 runs, a class that is logged for a port makes one entry. -/
theorem State.portLog_logsOne {s : State} (hrun : s.running = true) (c : FaultClass) (p : Nat) (data : List Byte) :
    s.LogsOne (s.portLog c p data) c := by
  unfold State.portLog
  split
  · exact State.logOut_logsOne hrun _ _ _ _ _
  · exact State.log_logsOne hrun _ _ _

/-- An event of a port's block and an entry for the port: every unit stays as it is. -/
theorem State.noted_keeps {A : Nat} {z s : State} {p m q : Nat} {c : FaultClass} {d : List Byte} (hA : 0x4800000005 &&& A = 0x4800000005)
    (h : Keeps A z s) : Keeps A z ((s.groupEvent p m).portLog c q d) :=
  State.portLog_keeps (Part.sub hA rfl) (State.groupEvent_keeps hA h)

theorem State.noted_logs {s : State} (hrun : s.running = true) (p m q : Nat) (c : FaultClass) (d : List Byte) :
    s.Logs ((s.groupEvent p m).portLog c q d) c :=
  have kept : Keeps 0x4800000005 s (s.groupEvent p m) := State.groupEvent_keeps rfl (Keeps.refl _ s)
  (State.portLog_logsOne (kept.running rfl hrun) c q d).logs.after kept rfl

/-! ## The steps of a lane (R88) -/

/-- The port follows its lanes; no lane changes. -/
theorem State.portStep_eq (s : State) (p : Nat) : s.portStep p = { s with ports := (s.portStep p).ports } := by
  unfold State.portStep
  dsimp only
  split <;> rfl

theorem State.lane_portStep (s : State) (p l : Nat) : (s.portStep p).lane l = s.lane l := by rw [State.portStep_eq]; rfl

/-- A step of a lane, whose port follows. -/
theorem State.laneMoves (s : State) (l p : Nat) (f : Lane → Lane) :
    let t := (s.modLane l f).portStep p
    t.lane l = f (s.lane l) ∧ (∀ k, k ≠ l → t.lane k = s.lane k) ∧ t = { s with lanes := t.lanes, ports := t.ports } := by
  refine ⟨?_, fun k hk => ?_, ?_⟩
  · simp [State.lane_portStep]
  · simp [State.lane_portStep, hk]
  · rw [State.portStep_eq]
    rfl

/-- A new FOM changes the lane's record of it and nothing else. -/
theorem State.lane_setFom (s : State) (l f : Nat) :
    ((s.setFom l f).lane l).fom = f ∧ ((s.setFom l f).lane l).lowest = min (s.lane l).lowest f ∧
    ((s.setFom l f).lane l).state = (s.lane l).state ∧ ((s.setFom l f).lane l).adaptSince = (s.lane l).adaptSince ∧
    (∀ k, k ≠ l → (s.setFom l f).lane k = s.lane k) ∧ s.setFom l f = { s with lanes := (s.setFom l f).lanes } := by
  refine ⟨?_, ?_, ?_, ?_, fun k hk => ?_, rfl⟩
  · simp [State.setFom]
  · simp [State.setFom]
  · simp [State.setFom]
  · simp [State.setFom]
  · simp [State.setFom, hk]

section
variable {s : State} {l : Fin 34}

theorem execLaneSignalDetect_of_signal (hb : s.bringing l.val = true) (hs : (s.lane l.val).state = .signal) :
    execLaneSignalDetect l s = .next ((s.modLane l.val fun x =>
      { x with state := .cdrLock, signal := true, monitor := { state := .acquiring, lastEdgeAt := s.now } }).portStep (s.portOfLane l.val)) :=
  if_pos (c := _ ∧ _) ⟨hb, hs⟩

/-- The equaliser of an adapting lane has converged: its FOM is set, and with FOM_MIN met over 10 ms of adapting it is LOCKED. -/
theorem execLaneAdaptConverged_of_adapting (a f : Byte) (hb : s.bringing l.val = true) (hs : (s.lane l.val).state = .adapting) :
    execLaneAdaptConverged l ⟨a, f⟩ s =
      if s.fomMin l.val ≤ min a.toNat f.toNat ∧ s.due ((s.lane l.val).adaptSince + ms 10) = true then
        .next (((s.setFom l.val f.toNat).modLane l.val fun x => { x with state := .locked, adapted := true }).portStep (s.portOfLane l.val))
      else .next (s.setFom l.val f.toNat) := by
  unfold execLaneAdaptConverged
  obtain ⟨-, -, -, since, -⟩ := s.lane_setFom l.val f.toNat
  dsimp only
  rw [if_pos ⟨hb, hs⟩, since]
  rfl

theorem bringing_rows_ignore (hb : s.bringing l.val = false) :
    execLaneSignalDetect l s = .next s ∧ ∀ a f : Byte, execLaneAdaptConverged l ⟨a, f⟩ s = .next s := by
  have no {c : Prop} : ¬(s.bringing l.val = true ∧ c) := by simp [hb]
  exact ⟨if_neg no, fun a f => if_neg no⟩

/-- ADAPT_STEP leaves a lane LOCKED with the FOM that it keeps. -/
theorem execAdaptStep_of_locked (a b : Byte) (hs : (s.lane l.val).state = .locked) :
    execAdaptStep l a b s =
      .next (s.setFom l.val (if (s.lane l.val).frozen = true ∨ b.toNat + 2 < a.toNat then a.toNat else b.toNat)) :=
  if_pos (c := _ = _) hs

theorem execLaneLowFom_of_low {b : Nat} (hl : (s.lane l.val).lowSince = some b) :
    execLaneLowFom l s = if (s.lane l.val).state = .locked ∧ (s.lane l.val).lowLogged = false ∧ s.due (b + ms 100) = true then
        .next (((s.modLane l.val fun x => { x with lowLogged := true }).groupEvent (s.portOfLane l.val) 4).portLog F.LANE_LOW_FOM
          (s.portOfLane l.val) (leBytes 1 l.val ++ leBytes 1 (s.lane l.val).fom))
      else .next s := by
  have out (u : State) : (u.groupEvent (s.portOfLane l.val) 4).portOfLane l.val = u.portOfLane l.val := by
    unfold State.portOfLane State.groupMode State.payload
    rw [(State.groupEvent_keeps rfl (Keeps.refl 0x4800000005 u)).same .config rfl]
  unfold execLaneLowFom
  dsimp only
  rw [hl]
  dsimp only
  rw [out]
  rfl

end

/-- Settles O22: each row by what it changes of its lane or port. -/
theorem lanesComeUpStepByStep : Obligations.LanesComeUpStepByStep := by
  unfold Obligations.LanesComeUpStepByStep
  refine ⟨fun l s => ⟨?signal, ?converged, bringing_rows_ignore⟩, fun p s => ⟨?pcs, ?late⟩, ?adapt, ?low⟩
  case signal =>
    intro hb hs
    obtain ⟨lane, others, rest⟩ := s.laneMoves l.val (s.portOfLane l.val) fun x =>
      { x with state := .cdrLock, signal := true, monitor := { state := .acquiring, lastEdgeAt := s.now } }
    exact ⟨_, execLaneSignalDetect_of_signal hb hs, by rw [lane], by rw [lane], others, rest⟩
  case converged =>
    intro a f hb hs
    obtain ⟨fom, lowest, state, -, others, rest⟩ := s.lane_setFom l.val f.toNat
    by_cases met : s.fomMin l.val ≤ min a.toNat f.toNat ∧ s.due ((s.lane l.val).adaptSince + ms 10) = true
    · obtain ⟨lane, others', rest'⟩ := (s.setFom l.val f.toNat).laneMoves l.val (s.portOfLane l.val) fun x =>
        { x with state := .locked, adapted := true }
      refine ⟨_, (execLaneAdaptConverged_of_adapting a f hb hs).trans (if_pos met), by rw [lane]; exact fom, by rw [lane]; exact lowest,
        by rw [lane, if_pos met], fun k hk => (others' k hk).trans (others k hk), ?_⟩
      exact rest'
    · exact ⟨_, (execLaneAdaptConverged_of_adapting a f hb hs).trans (if_neg met), fom, lowest, by rw [state, hs, if_neg met], others, rest⟩
  case pcs =>
    intro ht h4
    exact ⟨_, if_pos (c := _ ∧ _) ⟨ht, h4⟩, by simp, fun q hq => by simp [hq], rfl⟩
  case late =>
    intro ht
    exact if_neg (c := _ ∧ _) (by simp [ht])
  case adapt =>
    intro l a b s hs
    obtain ⟨fom, lowest, state, -, others, rest⟩ :=
      s.lane_setFom l.val (if (s.lane l.val).frozen = true ∨ b.toNat + 2 < a.toNat then a.toNat else b.toNat)
    exact ⟨_, _, execAdaptStep_of_locked a b hs, rfl, fom, lowest, state.trans hs, others, rest⟩
  case low =>
    intro l b s hrun hl hs hd
    refine ⟨fun fresh => ?_, fun logged => (execLaneLowFom_of_low hl).trans (if_neg (by simp [logged]))⟩
    let u := s.modLane l.val fun x => { x with lowLogged := true }
    have lanes : ((u.groupEvent (s.portOfLane l.val) 4).portLog F.LANE_LOW_FOM (s.portOfLane l.val)
        (leBytes 1 l.val ++ leBytes 1 (s.lane l.val).fom)).lanes = u.lanes :=
      (State.noted_keeps rfl (Keeps.refl 0x4800000005 u)).same .lanes rfl
    refine ⟨_, (execLaneLowFom_of_low hl).trans (if_pos ⟨hs, fresh, hd⟩), ?_, fun k hk => ?_, ?_⟩
    · rw [State.lane_of_lanes lanes]
      simp [u]
    · rw [State.lane_of_lanes lanes]
      simp [u, hk]
    · exact State.noted_logs (s := u) hrun _ _ _ _ _

end Sys2Proof.Machine
end

section
/-!
PROOF. Ports in bring-up (R88, R93, R98): tries and attempts as changes of one port, what lets an attempt start, and the rows that begin
and end them.
-/

namespace Sys2Proof.Machine

/-! ## Steps over a list -/

/-- What one step brings about for its own entry, and the other steps keep, holds of every entry in the end. -/
theorem foldl_reaches {α β : Type} {f : α → β → α} {P : α → β → Prop} (set : ∀ s b, P (f s b) b)
    (keep : ∀ s b c, P s c → P (f s b) c) (l : List β) (s : α) : ∀ b ∈ l, P (l.foldl f s) b := by
  induction l generalizing s with
  | nil => nofun
  | cons c r ih =>
    intro b hb
    rcases List.mem_cons.1 hb with rfl | hb
    · exact List.foldlRecOn (motive := fun x => P x b) r f (set s b) fun x hx d _ => keep x d b hx
    · exact ih _ b hb

/-! ## A try and an attempt (R88) -/

/-- The port in a new try with a preset. -/
def Port.tried (x : Port) (preset now : Nat) : Port :=
  { x with state := .bringup, preset := preset, step := 1, stepSince := now, faultAt := 0 }

/-- The port in a new attempt, that is in its first try. -/
def Port.attempted (x : Port) (now : Nat) : Port :=
  Port.tried { x with attempts := x.attempts + 1, backoff := none, retryNow := false } 0 now

section
variable (s : State) (p : Nat)

theorem State.port_startTry (k q : Nat) : (s.startTry p k).port q = if q = p then (s.port p).tried k s.now else s.port q := by
  let u := s.modPort p fun x => x.tried k s.now
  have lanes : Keeps 0x20001 u (s.startTry p k) :=
    Keeps.foldl (fun _ _ h => State.modLane_keeps rfl (State.count_keeps rfl h)) (Keeps.refl _ u)
  rw [State.port_of_ports q (lanes.same .ports rfl)]
  exact s.port_setPort _ _ _

theorem State.port_startAttempt (q : Nat) : (s.startAttempt p).port q = if q = p then (s.port p).attempted s.now else s.port q := by
  let u := s.modPort p fun x => { x with attempts := x.attempts + 1, backoff := none, retryNow := false }
  let v := (u.lanesOf p).foldl (fun s l => s.modLane l fun x => { x with best := 0 }) u
  have lanes : Keeps 0x20000 u v := Keeps.foldl (fun _ _ h => State.modLane_keeps rfl h) (Keeps.refl _ u)
  have own (n : Nat) : v.port n = u.port n := State.port_of_ports n (lanes.same .ports rfl)
  have now : v.now = s.now := lanes.now
  change (v.startTry p 0).port q = _
  rw [State.port_startTry, own, own, now]
  by_cases h : q = p
  · simp [u, h, Port.attempted]
  · simp [u, h]

theorem State.port_tryAttempt (q : Nat) :
    (s.tryAttempt p).port q =
      if q = p ∧ s.mayAttempt p = true ∧ (s.port p).state = .down then (s.port p).attempted s.now else s.port q := by
  unfold State.tryAttempt
  by_cases h : s.mayAttempt p = true ∧ (s.port p).state = .down
  · rw [if_pos (by simpa using h), State.port_startAttempt]
    simp [h]
  · rw [if_neg (by simpa using h), if_neg (fun k => h k.2)]

end

/-! ## What lets an attempt start -/

section
variable {s t : State} (h : t.config = s.config)
include h

theorem State.payload_of_config (a b c d : Nat) : t.payload a b c d = s.payload a b c d := by rw [State.payload, h, State.payload]

theorem State.groupMode_of_config (g : Nat) : t.groupMode g = s.groupMode g := by
  rw [State.groupMode, State.payload_of_config h, State.groupMode]

theorem State.portExists_of_config (p : Nat) : t.portExists p = s.portExists p := by
  rw [State.portExists, State.groupMode_of_config h, State.hasSection, h, State.portExists, State.hasSection]

theorem State.lanesOf_of_config (p : Nat) : t.lanesOf p = s.lanesOf p := by
  simp only [State.lanesOf, State.groupMode_of_config h]

end

/-- An attempt may run wherever it might before, as long as what it asks of the port, of the module and of the device is the same. -/
theorem State.mayAttempt_of_same {s t : State} {p : Nat} (hrun : t.running = s.running) (hphase : 6 ≤ t.startup.phase ↔ 6 ≤ s.startup.phase)
    (hconfig : t.config = s.config) (htiles : t.tiles = s.tiles) (hoptic : (t.optic (busOf p)).present = (s.optic (busOf p)).present)
    (hadmin : (t.port p).admin = (s.port p).admin) (hleaving : (t.port p).leaving = (s.port p).leaving) :
    t.mayAttempt p = s.mayAttempt p := by
  have service (d n : Nat) : t.inService d n = s.inService d n := by rw [State.inService, State.tile_of_tiles htiles, State.inService]
  simp only [State.mayAttempt, hrun, State.portExists_of_config hconfig, hadmin, hleaving, hoptic, service, hphase]

/-- The same after an operation on other parts. -/
theorem Keeps.mayAttempt {A : Nat} {s t : State} {p : Nat} (h : Keeps A s t) (hA : 0x8000098000 &&& A = 0)
    (hadmin : (t.port p).admin = (s.port p).admin) (hleaving : (t.port p).leaving = (s.port p).leaving) : t.mayAttempt p = s.mayAttempt p := by
  have out {i : Nat} (hi : Nat.testBit 0x8000098000 i = true) : A.testBit i = false := by
    have both : (0x8000098000 &&& A).testBit i = false := by rw [hA, Nat.zero_testBit]
    simpa [Nat.testBit_land, hi] using both
  have startup := h.same .startup (out rfl)
  refine State.mayAttempt_of_same (State.running_of_startup startup) ?_ (h.same .config (out rfl)) (h.same .tiles (out rfl)) ?_ hadmin hleaving
  · rw [show t.startup = s.startup from startup]
  · rw [State.optic, State.optic, h.same .optics (out rfl)]

/-! ## Frames that a port sends itself -/

/-- The port has sent or joined something; where it stands is as before, and so are the other ports. -/
structure State.PortTalks (s t : State) (p : Nat) : Prop where
  own    : ∃ o l j, t.port p = { s.port p with others := o, lineFree := l, joined := j }
  others : ∀ q, q ≠ p → t.port q = s.port q

theorem State.PortTalks.of_ports {s t : State} {p : Nat} (h : t.ports = s.ports) : s.PortTalks t p :=
  ⟨⟨_, _, _, State.port_of_ports p h⟩, fun q _ => State.port_of_ports q h⟩

theorem State.PortTalks.of_modPort (s : State) (p : Nat) (o : List (Nat × Sent)) (l : Nat) (j : List (Nat × Nat)) :
    s.PortTalks (s.modPort p fun x => { x with others := o, lineFree := l, joined := j }) p :=
  ⟨⟨o, l, j, by simp⟩, fun q hq => by simp [hq]⟩

theorem State.PortTalks.trans {s t u : State} {p : Nat} (h : s.PortTalks t p) (k : t.PortTalks u p) : s.PortTalks u p := by
  obtain ⟨_, _, _, ho⟩ := h.own
  obtain ⟨_, _, _, ko⟩ := k.own
  exact ⟨⟨_, _, _, by rw [ko, ho]⟩, fun q hq => (k.others q hq).trans (h.others q hq)⟩

theorem State.sendOther_talks (s : State) (p n : Nat) (x : Sent) : s.PortTalks (s.sendOther p n x) p := by
  unfold State.sendOther
  repeat' split
  · exact .of_ports rfl
  · exact .of_ports rfl
  · have sent : s.PortTalks ((s.txFrame p).send x) p := .of_ports rfl
    exact sent.trans (State.PortTalks.of_modPort _ p _ _ _)
  · exact State.PortTalks.of_modPort s p _ _ _

theorem State.join_talks (s : State) (x : Nat × Nat × Nat) : s.PortTalks (s.join x) x.1 := by
  unfold State.join State.sendReport
  split
  · exact .of_ports rfl
  · have joined := State.PortTalks.of_modPort s x.1 (s.port x.1).others (s.port x.1).lineFree ((s.port x.1).joined ++ [x.2])
    split
    · exact joined
    · exact joined.trans (State.sendOther_talks _ _ _ _)

theorem State.rejoinPort_talks (s : State) (p : Nat) : s.PortTalks (s.rejoinPort p) p := by
  unfold State.rejoinPort
  refine List.foldlRecOn (motive := fun t => s.PortTalks t p) _ _ (State.PortTalks.of_modPort s p _ _ []) fun t ht x hx => ?_
  have own : x.1 = p := by simpa using (List.mem_filter.1 hx).2
  exact ht.trans (own ▸ t.join_talks x)

/-! ## LOOP and PRBS of a lane (R98, R99) -/

/-- The lane has neither a loop nor a pattern. -/
def Lane.quiet (x : Lane) : Prop := x.loop = 0 ∧ x.prbs = 0

section
variable (s : State)

/-- A lane whose LOOP and PRBS clear is quiet; the other lanes stay. -/
theorem State.lane_clears (l : Nat) :
    (((s.setLoop l 0).setPrbs l 0).lane l).quiet ∧ ∀ k, k ≠ l → ((s.setLoop l 0).setPrbs l 0).lane k = s.lane k := by
  have sent (x : State) (y : Sent) (k : Nat) : (x.send y).lane k = x.lane k := rfl
  constructor
  · simp [State.setPrbs, Lane.quiet, State.setLoop]
  · intro k hk
    unfold State.setPrbs State.setLoop
    extract_lets idle u
    have hu : u.lane k = s.lane k := by
      unfold u
      split
      · rfl
      · exact sent _ _ _
    simp [hk, hu]

/-- LOOP and PRBS clear on every lane of a list. -/
theorem State.lanes_clear (ls : List Nat) : ∀ l ∈ ls, ((ls.foldl (fun s l => (s.setLoop l 0).setPrbs l 0) s).lane l).quiet := by
  refine foldl_reaches (P := fun s l => (s.lane l).quiet) (fun s b => (s.lane_clears b).1) (fun s b c hc => ?_) ls s
  by_cases h : c = b
  · rw [h]
    exact (s.lane_clears b).1
  · rwa [(s.lane_clears b).2 c h]

/-- An attempt makes no lane noisy. -/
theorem State.quiet_startAttempt {p k : Nat} (h : (s.lane k).quiet) : ((s.startAttempt p).lane k).quiet := by
  have step {t : State} {l : Nat} {f : Lane → Lane} (hf : ∀ x, (f x).loop = x.loop ∧ (f x).prbs = x.prbs) (ht : (t.lane k).quiet) :
      ((t.modLane l f).lane k).quiet := by
    rw [State.modLane_eq, State.lane_setLane]
    split
    case isTrue own =>
      obtain ⟨loop, prbs⟩ := hf (t.lane l)
      rw [← own] at loop prbs ⊢
      exact ⟨loop.trans ht.1, prbs.trans ht.2⟩
    case isFalse => exact ht
  unfold State.startAttempt State.startTry
  refine List.foldlRecOn (motive := fun t : State => (t.lane k).quiet) _ _ ?_ fun t ht l _ => step (fun _ => ⟨rfl, rfl⟩) ht
  exact List.foldlRecOn (motive := fun t : State => (t.lane k).quiet) _ _ h fun t ht l _ => step (fun _ => ⟨rfl, rfl⟩) ht

theorem State.quiet_tryAttempt {p k : Nat} (h : (s.lane k).quiet) : ((s.tryAttempt p).lane k).quiet := by
  unfold State.tryAttempt
  split
  · exact s.quiet_startAttempt h
  · exact h

end

/-! ## ADMIN (R98) -/

theorem State.port_adminOff (s : State) (p : Nat) : ((s.adminOff p).port p).admin = false ∧ ((s.adminOff p).port p).state = .disabled := by
  simp [State.adminOff]

/-- ADMIN becomes 1: the port is enabled and DOWN where it was DISABLED, its lanes are quiet, and an attempt starts where one may run. -/
theorem State.adminOn_spec (s : State) (p : Nat) :
    ((s.adminOn p).port p).admin = true ∧ ((s.adminOn p).port p).state ≠ .disabled ∧
    ((s.port p).state = .disabled → (s.adminOn p).mayAttempt p = true → ((s.adminOn p).port p).state = .bringup) ∧
    (∀ l ∈ s.lanesOf p, ((s.adminOn p).lane l).quiet) ∧ ∀ q, q ≠ p → (s.adminOn p).port q = s.port q := by
  let u := (s.lanesOf p).foldl (fun s l => (s.setLoop l 0).setPrbs l 0) s
  let v := u.modPort p fun x => { x with admin := true, state := if x.state = .disabled then .down else x.state }
  have kept : Keeps 0x20020 s u := Keeps.foldl (fun _ _ h => State.setPrbs_keeps rfl (State.setLoop_keeps rfl h)) (Keeps.refl _ s)
  have own (n : Nat) : u.port n = s.port n := State.port_of_ports n (kept.same .ports rfl)
  have port : v.port p = { s.port p with admin := true, state := if (s.port p).state = .disabled then .down else (s.port p).state } := by
    simp [v, own]
  have tried (q : Nat) := v.port_tryAttempt p q
  have admin : ((v.tryAttempt p).port p).admin = true := by
    rw [tried]
    split <;> simp [Port.attempted, Port.tried, port]
  have leaving : ((v.tryAttempt p).port p).leaving = (v.port p).leaving := by
    rw [tried]
    split <;> rfl
  have may : (v.tryAttempt p).mayAttempt p = v.mayAttempt p :=
    (State.tryAttempt_keeps rfl (Keeps.refl 0x60001 v)).mayAttempt rfl (admin.trans (by rw [port])) leaving
  change ((v.tryAttempt p).port p).admin = true ∧ _
  refine ⟨admin, ?_, fun hd hm => ?_, fun l hl => ?_, fun q hq => ?_⟩
  · change ((v.tryAttempt p).port p).state ≠ _
    rw [tried, port]
    repeat' split
    all_goals simp_all [Port.attempted, Port.tried]
  · change ((v.tryAttempt p).port p).state = _
    rw [tried, if_pos ⟨rfl, may ▸ hm, by simp [port, hd]⟩]
    rfl
  · exact v.quiet_tryAttempt (s.lanes_clear (s.lanesOf p) l hl)
  · change (v.tryAttempt p).port q = _
    rw [tried, if_neg (fun h => hq h.1)]
    simp [v, hq, own]

/-! ## The rows of a try (R88, R93) -/

section
variable {s : State} {p : Fin 34}

theorem execPortUp_of_clean (ht : s.trying p.val = true) (h5 : (s.port p.val).step = 5)
    (hd : s.due (max (s.port p.val).stepSince (s.port p.val).faultAt + ms 1) = true) :
    let u := s.modPort p.val fun x => { x with
      state := .up, upSince := s.now, step := 0, retries := 0, attempts := 0, backoff := none, localFault := false, remoteFault := false,
      uncorr := [], cleanSince := none }
    let v := (u.groupEvent p.val 1).portLog F.PORT_UP p.val (leBytes 4 (s.port p.val).attempts ++ leBytes 1 (s.port p.val).preset)
    execPortUp p s = .next (((v.pairLinkMoved s.pairPort).sendGaps p.val).rejoinPort p.val) :=
  if_pos (c := _ ∧ _ ∧ _) ⟨ht, h5, hd⟩

theorem execBringupStepTimeout_of_late (hb : (s.port p.val).state = .bringup)
    (hd : s.due ((s.port p.val).stepSince + ms (stepLimit p.val (s.port p.val).step)) = true) :
    execBringupStepTimeout p s = .next (s.tryFailed p.val) :=
  if_pos (c := _ ∧ _) ⟨hb, hd⟩

theorem execBackoffRetry_of_waited {k b : Nat} (hk : (s.port p.val).backoff = some (k, b)) (hd : s.due (b + sec (backoffSec k)) = true)
    (hs : (s.port p.val).state = .down) (hm : s.mayAttempt p.val = true) :
    execBackoffRetry p s = .next ((s.modPort p.val fun x => { x with retries := min 255 (x.retries + 1) }).startAttempt p.val) := by
  unfold execBackoffRetry
  dsimp only
  rw [hk]
  exact if_pos ⟨hd, hs, hm⟩

theorem execRetryNow_of_down (g : Agent) (hs : (s.port p.val).state = .down) (hm : s.mayAttempt p.val = true) :
    execRetryNow g p s = .next ((s.startAttempt p.val).modPort p.val fun x => { x with retryNow := true }) :=
  if_pos (c := _ ∧ _) ⟨hm, hs⟩

theorem execRetryNow_of_other (g : Agent) (h : (s.port p.val).state ≠ .down ∨ s.mayAttempt p.val = false) : execRetryNow g p s = .next s :=
  if_neg (c := _ ∧ _) (by rintro ⟨hm, hs⟩; simp [hm, hs] at h)

end

/-- k of the next retry after an attempt: the one that was due before when RETRY_NOW had started the attempt, else one more (R93). -/
def Port.nextRetry (x : Port) : Nat := if x.retryNow then max 1 x.backoffK else x.backoffK + 1

/-- After an attempt the port is DOWN and waits for its next retry; no other port changes. -/
theorem State.port_attemptFailed (s : State) (p q : Nat) :
    (s.attemptFailed p).port q = if q = p then { s.port p with
      state := .down, step := 0, retryNow := false, backoffK := (s.port p).nextRetry, backoff := some ((s.port p).nextRetry, s.now) }
    else s.port q := by
  unfold State.attemptFailed
  extract_lets ls bad u v x k
  have idle : Keeps 0x4800020005 s u := Keeps.foldl (fun _ _ h => State.modLane_keeps rfl h) (Keeps.refl _ s)
  have kept : Keeps 0x4800020005 s v := Keeps.foldl (fun _ _ h => State.laneFailed_keeps rfl h) idle
  have own (n : Nat) : v.port n = s.port n := State.port_of_ports n (kept.same .ports rfl)
  have now : v.now = s.now := kept.now
  rw [State.modPort_eq, State.port_setPort, own, own, now]
  have hk : k = (s.port p).nextRetry := by
    unfold k x Port.nextRetry
    rw [own]
  rw [hk]

/-! ## The statement -/

/-- Settles O23: each row by the change of its port that it makes. -/
theorem portsAreTriedAndComeUp : Obligations.PortsAreTriedAndComeUp := by
  unfold Obligations.PortsAreTriedAndComeUp
  refine ⟨?up, ?timeout, ?retry, fun g p s => ⟨?now, execRetryNow_of_other g⟩, fun g p s hrun he => ⟨?off, ?on, ?held⟩⟩
  case up =>
    intro p s ht h5 hd
    let u := s.modPort p.val fun x => { x with
      state := .up, upSince := s.now, step := 0, retries := 0, attempts := 0, backoff := none, localFault := false, remoteFault := false,
      uncorr := [], cleanSince := none }
    let v := (u.groupEvent p.val 1).portLog F.PORT_UP p.val (leBytes 4 (s.port p.val).attempts ++ leBytes 1 (s.port p.val).preset)
    let w := (v.pairLinkMoved s.pairPort).sendGaps p.val
    have told : Keeps 0x4828800025 v w := State.sendGaps_keeps rfl (State.pairLinkMoved_keeps rfl (Keeps.refl _ v))
    have kept : Keeps 0x4828800025 u w := (State.noted_keeps rfl (Keeps.refl _ u)).trans told
    have all : Keeps 0x4828840025 v (w.rejoinPort p.val) :=
      State.rejoinPort_keeps rfl (State.sendGaps_keeps rfl (State.pairLinkMoved_keeps rfl (Keeps.refl _ v)))
    obtain ⟨⟨o, l, j, own⟩, others⟩ := w.rejoinPort_talks p.val
    rw [State.port_of_ports p.val (kept.same .ports rfl)] at own
    have up : u.port p.val = _ := s.port_setPort p.val p.val _
    rw [if_pos rfl] at up
    refine ⟨_, execPortUp_of_clean ht h5 hd, ?_, ?_, ?_, fun hrun => ?_, fun q hq => ?_⟩
    · rw [own, up]
    · rw [own, up]
    · rw [own, up]
    · exact (State.noted_logs (s := u) hrun _ _ _ _ _).keep all rfl
    · rw [others q hq, State.port_of_ports q (kept.same .ports rfl)]
      exact (s.port_setPort p.val q _).trans (if_neg hq)
  case timeout =>
    intro p s hb hd
    refine ⟨_, execBringupStepTimeout_of_late hb hd, ?_⟩
    unfold State.tryFailed
    by_cases h3 : (s.port p.val).preset < 3
    · rw [if_pos h3]
      have port := s.port_startTry p.val ((s.port p.val).preset + 1)
      refine ⟨fun q hq => (port q).trans (if_neg hq), fun _ => ?_, fun h => absurd h3 (by omega)⟩
      rw [port, if_pos rfl]
      exact ⟨rfl, rfl, rfl, rfl⟩
    · rw [if_neg h3]
      have port := s.port_attemptFailed p.val
      refine ⟨fun q hq => (port q).trans (if_neg hq), fun h => absurd h h3, fun _ => ?_⟩
      rw [port, if_pos rfl]
      exact ⟨rfl, rfl, rfl⟩
  case retry =>
    intro p k b s hk hd hs hm
    refine ⟨_, execBackoffRetry_of_waited hk hd hs hm, ?_⟩
    have port := (s.modPort p.val fun x => { x with retries := min 255 (x.retries + 1) }).port_startAttempt p.val
    refine ⟨?_, ?_, ?_, ?_, ?_, fun q hq => by rw [port, if_neg hq]; simp [hq]⟩
    all_goals
      rw [port, if_pos rfl]
      simp [Port.attempted, Port.tried]
  case now =>
    intro hs hm
    refine ⟨_, execRetryNow_of_down g hs hm, ?_⟩
    have port := s.port_startAttempt p.val
    refine ⟨?_, ?_, ?_, ?_, ?_, ?_, fun q hq => by simp [hq, port]⟩
    all_goals simp [port, Port.attempted, Port.tried]
  case off =>
    intro ha
    exact ⟨_, if_pos (c := _ ∧ _ ∧ _) ⟨hrun, he, by simp [ha]⟩, s.port_adminOff p.val⟩
  case on =>
    intro ha
    exact ⟨_, if_pos (c := _ ∧ _ ∧ _) ⟨hrun, he, by simp [ha]⟩, s.adminOn_spec p.val⟩
  case held => exact if_neg (c := _ ∧ _ ∧ _) fun ⟨_, _, changed⟩ => changed rfl

end Sys2Proof.Machine
end

section
/-!
PROOF. UP ports that go DOWN (R92): what a port's fall leaves of the device, so that a new attempt starts where one might have run before,
the causes that bring it about, and the watch of the corrected symbols.
-/

namespace Sys2Proof.Machine

/-! ## The choice of a time source leaves the tiles in service (R29, R43) -/

/-- Pins alone follow the loss of LOCKED, with an entry for each. -/
theorem State.lockLost_keeps_tiles (s : State) : Keeps 0x4000000820 s s.lockLost := by
  unfold State.lockLost
  refine Keeps.foldl (fun t n ht => ?_) (Keeps.refl _ s)
  split
  · exact State.logOut_keeps rfl (State.send_keeps rfl (State.modTioPin_keeps rfl ht))
  · exact ht

/-- No tile enters or leaves service, and start-up does not fall behind the ports. -/
structure State.ServiceKept (s t : State) : Prop where
  tiles   : t.tiles = s.tiles
  running : t.running = s.running
  ports   : 6 ≤ t.startup.phase ↔ 6 ≤ s.startup.phase

theorem State.ServiceKept.of_parts {s t : State} (ht : t.tiles = s.tiles) (hs : t.startup = s.startup) : s.ServiceKept t :=
  ⟨ht, State.running_of_startup hs, by rw [hs]⟩

theorem State.ServiceKept.trans {s t u : State} (h : s.ServiceKept t) (k : t.ServiceKept u) : s.ServiceKept u :=
  ⟨k.tiles.trans h.tiles, k.running.trans h.running, k.ports.trans h.ports⟩

theorem Keeps.service {A : Nat} {s t : State} (h : Keeps A s t) (ht : A.testBit (Part.bit .tiles) = false)
    (hs : A.testBit (Part.bit .startup) = false) : s.ServiceKept t :=
  .of_parts (h.same .tiles ht) (h.same .startup hs)

/-- An event of the time block and its entry. -/
theorem State.timeNoted_keeps {A : Nat} {z s : State} {m : Nat} {c : FaultClass} {d : List Byte} (hA : 0x4800000005 &&& A = 0x4800000005)
    (h : Keeps A z s) : Keeps A z ((s.event R.time_EVENTS m).log c R.time d) :=
  State.log_keeps (Part.sub hA rfl) (State.event_keeps hA h)

/-- A new state of the servo may bring start-up from its phase 6 to 7. -/
theorem State.servoTo_service (s : State) (new : ServoState) : s.ServiceKept (s.servoTo new) := by
  unfold State.servoTo
  extract_lets old x y z w
  split
  · exact .of_parts rfl rfl
  have hy : Keeps 0x100 s y := by
    unfold y
    split
    · exact State.modServo_keeps rfl (State.modServo_keeps rfl (Keeps.refl _ s))
    · exact State.modServo_keeps rfl (Keeps.refl _ s)
  have hz : s.ServiceKept z :=
    (hy.service rfl rfl).trans ((State.timeNoted_keeps rfl (Keeps.refl 0x4800000005 y)).service rfl rfl)
  have hw : z.ServiceKept w := by
    unfold w
    split
    case isTrue six => exact ⟨rfl, by simp [State.running, six.2], by simp [six.2]⟩
    case isFalse => exact .of_parts rfl rfl
  repeat' split
  · exact (hz.trans hw).trans (w.lockLost_keeps_tiles.service rfl rfl)
  · exact (hz.trans hw).trans (.of_parts rfl rfl)
  · exact hz.trans hw

theorem State.toHoldover_service (s : State) : s.ServiceKept s.toHoldover := by
  unfold State.toHoldover
  refine .trans ?_ (State.servoTo_service _ _)
  exact (State.log_keeps rfl (State.modServo_keeps rfl (Keeps.refl 0x4000000100 s))).service rfl rfl

theorem State.pathStep_service (s : State) (i : Nat) (mpd off : Int) : s.ServiceKept (s.pathStep i mpd off) := by
  unfold State.pathStep
  refine .trans ?_ (State.servoTo_service _ _)
  exact (State.modServo_keeps rfl (State.mapPtp_keeps rfl (State.timeNoted_keeps rfl (Keeps.refl 0x4800000305 s)))).service rfl rfl

theorem State.slewIn_service (s : State) (x : Source) : s.ServiceKept (s.slewIn x) := .of_parts rfl rfl

theorem State.ServiceKept.modServo {s t : State} (h : s.ServiceKept t) (f : Servo → Servo) : s.ServiceKept (t.modServo f) :=
  h.trans (.of_parts rfl rfl)

theorem State.ServiceKept.servoTo {s t : State} (h : s.ServiceKept t) (new : ServoState) : s.ServiceKept (t.servoTo new) :=
  h.trans (t.servoTo_service new)

theorem State.ServiceKept.pathStep {s t : State} (h : s.ServiceKept t) (i : Nat) (mpd off : Int) : s.ServiceKept (t.pathStep i mpd off) :=
  h.trans (t.pathStep_service i mpd off)

theorem State.takeSource_service (s : State) (new : Option Source) : s.ServiceKept (s.takeSource new) := by
  unfold State.takeSource
  extract_lets old state was x y
  split
  · exact .of_parts rfl rfl
  have hx : s.ServiceKept x := .of_parts rfl rfl
  have hy : s.ServiceKept y := hx.trans ((State.timeNoted_keeps rfl (Keeps.refl 0x4800000005 x)).service rfl rfl)
  have hslew (c : Source) : s.ServiceKept (y.slewIn c) := hy.trans (y.slewIn_service c)
  clear_value y state
  split
  · exact (hy.modServo _).servoTo _
  · exact hy.servoTo _
  · exact hy.modServo _
  · exact hy.trans y.toHoldover_service
  · split
    · exact hslew _
    · exact hy.pathStep _ _ _
  · repeat' split
    · exact hy
    · exact (hslew _).modServo _
    · exact hy.pathStep _ _ _
  · split
    · exact (hslew _).servoTo _
    · exact hy.pathStep _ _ _
  · exact hy

theorem State.ptpPortDown_service (s : State) (p : Nat) : s.ServiceKept (s.ptpPortDown p) := by
  unfold State.ptpPortDown
  refine (s.takeSource_service s.candidate).trans (Keeps.service (A := 0x200) ?_ rfl rfl)
  refine Keeps.foldl (fun t i ht => ?_) (Keeps.refl _ _)
  split
  · exact State.setInst_keeps rfl ht
  · exact ht

/-! ## The fall of a port (R92 to R94) -/

/-- A port's waiting frames and curd packets are discarded; for the port that is the end of its own frames. -/
theorem State.port_dropQueue (s : State) (p q : Nat) :
    (s.dropQueue p).port q = if q = p then { s.port p with others := [], lineFree := 0 } else s.port q := by
  let u := s.modPort p fun y => { y with others := [], lineFree := 0 }
  have queue : Keeps 0x8800000 u (s.dropQueue p) := by
    refine Keeps.foldl (fun t x ht => ?_) (Keeps.upd (Keeps.refl _ _) rfl rfl rfl rfl rfl rfl rfl rfl id ?_)
    · split
      · exact State.modChan_keeps rfl ht
      · exact State.modChan_keeps rfl ht
    · intro part hpart
      cases part <;> first | rfl | cases hpart
  rw [State.port_of_ports q (queue.same .ports rfl)]
  exact s.port_setPort _ _ _

/-- An UP port falls: it is DOWN, no other port changes, and unless the cause bars it an attempt is tried, which may run where one might
have before. -/
theorem State.portDown_of_up {s : State} {p : Nat} (cause : Nat) (hp : (s.port p).state = .up) :
    ∃ u, s.portDown p cause = (if cause = 6 ∨ cause = 7 ∨ cause = 9 then u else u.tryAttempt p) ∧
      (u.port p).state = .down ∧ (∀ q, q ≠ p → u.port q = s.port q) ∧ u.mayAttempt p = s.mayAttempt p := by
  unfold State.portDown
  rw [if_neg (not_not.2 hp)]
  extract_lets old long a b c sev down d e
  refine ⟨e, rfl, ?_⟩
  have ha : Keeps 0x20000 s a := Keeps.foldl (fun _ _ h => State.aimTaps_keeps rfl h) (Keeps.refl _ s)
  have hd : Keeps 0x4800020005 b d :=
    State.noted_keeps rfl (Keeps.foldl (fun _ _ h => State.modLane_keeps rfl h) (Keeps.refl _ b))
  let f := d.dropQueue p
  have hf (q : Nat) := d.port_dropQueue p q
  have he : Keeps 0xcc3da0cb65 f e := State.pairLinkMoved_keeps rfl (State.ptpPortDown_keeps rfl (Keeps.refl _ f))
  have port (q : Nat) : e.port q = if q = p then { s.port p with
      state := .down, backoffK := if long then 0 else (s.port p).backoffK, cleanSince := none, others := [], lineFree := 0 } else s.port q := by
    have fallen : b.port q = if q = p then { a.port p with
        state := .down, backoffK := if long then 0 else (a.port p).backoffK, cleanSince := none } else a.port q :=
      (a.count _).port_setPort _ _ _
    have own (n : Nat) : a.port n = s.port n := State.port_of_ports n (ha.same .ports rfl)
    rw [State.port_of_ports q (he.same .ports rfl), hf q, State.port_of_ports p (hd.same .ports rfl), State.port_of_ports q (hd.same .ports rfl)]
    by_cases h : q = p
    · subst h
      rw [if_pos rfl, if_pos rfl, fallen, if_pos rfl, own]
    · rw [if_neg h, if_neg h, fallen, if_neg h, own]
  have service : f.ServiceKept e :=
    (f.ptpPortDown_service p).trans ((State.pairLinkMoved_keeps rfl (Keeps.refl 0x4800000005 _)).service rfl rfl)
  have before : Keeps 0x4808860005 s f :=
    State.dropQueue_keeps rfl ((State.modPort_keeps rfl (State.count_keeps rfl
      (Keeps.foldl (fun _ _ h => State.aimTaps_keeps rfl h) (Keeps.refl _ s)))).trans (State.noted_keeps rfl
        (Keeps.foldl (fun _ _ h => State.modLane_keeps rfl h) (Keeps.refl _ b))))
  have all := (before.service rfl rfl).trans service
  refine ⟨by rw [port, if_pos rfl], fun q hq => by rw [port, if_neg hq], ?_⟩
  refine State.mayAttempt_of_same all.running all.ports ((he.same .config rfl).trans (before.same .config rfl)) all.tiles ?_ ?_ ?_
  · rw [State.optic, State.optic, he.same .optics rfl, before.same .optics rfl]
  · rw [port, if_pos rfl]
  · rw [port, if_pos rfl]

/-- The port has fallen, and its next attempt has begun where one may run. -/
def State.Fallen (s t : State) (p : Nat) : Prop :=
  (t.port p).state = (if s.mayAttempt p then .bringup else .down) ∧ ∀ q, q ≠ p → t.port q = s.port q

theorem State.portDown_fallen {s : State} {p cause : Nat} (hc : cause < 6) (hp : (s.port p).state = .up) : s.Fallen (s.portDown p cause) p := by
  obtain ⟨u, eq, down, others, may⟩ := s.portDown_of_up cause hp
  rw [eq, if_neg (by omega)]
  refine ⟨?_, fun q hq => by rw [State.port_tryAttempt, if_neg (fun h => hq h.1), others q hq]⟩
  rw [State.port_tryAttempt, may]
  by_cases hm : s.mayAttempt p = true
  · rw [if_pos ⟨rfl, hm, down⟩, if_pos hm]
    rfl
  · rw [if_neg (fun h => hm h.2.1), if_neg hm, down]

/-- What was noted of the port before it fell takes nothing away. -/
theorem State.Fallen.of_noted {s u t : State} {p : Nat} {x : Port} (h : u.Fallen t p) (hk : Keeps 0x40001 s u)
    (hu : ∀ q, u.port q = if q = p then x else s.port q) (ha : x.admin = (s.port p).admin) (hl : x.leaving = (s.port p).leaving) :
    s.Fallen t p := by
  have own : u.port p = x := by rw [hu, if_pos rfl]
  have may : u.mayAttempt p = s.mayAttempt p := hk.mayAttempt rfl (by rw [own, ha]) (by rw [own, hl])
  exact ⟨by rw [h.1, may], fun q hq => by rw [h.2 q hq, hu, if_neg hq]⟩

/-! ## The causes (R92) -/

section
variable {s : State} {p : Fin 34}

theorem execFomBelowMin_of_bad {l : Fin 34} {b : Nat} (hb : (s.lane l.val).badSince = some b) (hs : (s.lane l.val).state = .locked)
    (hd : s.due (b + ms 1) = true) : execFomBelowMin l s = .next (s.portDown (s.portOfLane l.val) 2) := by
  unfold execFomBelowMin
  rw [hb]
  exact if_pos ⟨hs, hd⟩

/-- The uncorrectable codewords of the last 1 ms, of which 16 are as good as more. -/
def Port.recentUncorr (x : Port) (now n : Nat) : List Nat :=
  List.replicate (min 16 n) now ++ x.uncorr.filter fun t => now < t + ms 1

theorem Port.length_recentUncorr (x : Port) (now n : Nat) :
    (x.recentUncorr now n).length = min 16 n + (x.uncorr.filter fun t => now < t + ms 1).length := by
  rw [Port.recentUncorr, List.length_append, List.length_replicate]

/-- The codewords are counted and their times kept. -/
def State.uncorrNoted (s : State) (p n : Nat) : State :=
  (s.countBy (R.port_FEC_UNCORR p) n).modPort p fun x => { x with uncorr := ((s.port p).recentUncorr s.now n).take 16 }

theorem execFecUncorrBurst_of_up {n : Nat} (hp : p.val < 32) (hs : (s.port p.val).state = .up) :
    execFecUncorrBurst p n s = if 16 ≤ ((s.port p.val).recentUncorr s.now n).length then .next ((s.uncorrNoted p.val n).portDown p.val 4)
      else .next (s.uncorrNoted p.val n) :=
  if_pos (c := _ ∧ _) ⟨hp, hs⟩

theorem State.port_uncorrNoted (s : State) (p n q : Nat) :
    (s.uncorrNoted p n).port q =
      if q = p then { s.port p with uncorr := ((s.port p).recentUncorr s.now n).take 16 } else s.port q :=
  (s.countBy _ _).port_setPort _ _ _

/-- A clause 81 fault, of which a port in bring-up takes the time. -/
def Port.faulted (x : Port) (remote : Bool) (now : Nat) : Port :=
  { x with localFault := x.localFault || !remote, remoteFault := x.remoteFault || remote, faultAt := now }

theorem execLinkFaultPersist_of_trying (r : Bool) (h : (s.port p.val).state = .up ∨ (s.port p.val).state = .bringup) :
    execLinkFaultPersist p r s = .next ((s.modPort p.val fun x => x.faulted r s.now).portDown p.val 5) :=
  if_pos (c := _ ∨ _) h

theorem State.portDown_of_not_up {s : State} {p : Nat} (cause : Nat) (h : (s.port p).state ≠ .up) : s.portDown p cause = s :=
  if_pos (c := _ ≠ _) h

end

/-! ## The window of the corrected symbols (R92) -/

/-- Since when the ratio has lain below 10^-5, at the end of a window of `n` symbols, `total` of them corrected. -/
def Port.cleanAfter (x : Port) (now n total : Nat) : Option Nat :=
  if total * 100000 < n then some (x.cleanSince.getD (max x.upSince (now - sec 1))) else none

/-- The codewords and the symbols corrected are counted. -/
def State.fecCounted (s : State) (p w : Nat) (l : List Nat) : State :=
  let u := s.countBy (R.port_FEC_CORR p) w
  ((u.lanesOf p).zip l).foldl (fun s e => s.countBy (R.lane_SYM_CORR e.1) e.2) u

/-- After the counting the time of the clean windows is kept. -/
def State.fecWindow (s : State) (p n w : Nat) (l : List Nat) : State :=
  let u := s.fecCounted p w l
  u.modPort p fun x => { x with cleanSince := (u.port p).cleanAfter u.now n l.sum }

section
variable (s : State) (p n w : Nat) (l : List Nat)

theorem State.fecCounted_keeps {A : Nat} (hA : 0x1 &&& A = 0x1) : Keeps A s (s.fecCounted p w l) :=
  Keeps.foldl (fun _ _ h => State.countBy_keeps hA h) (State.countBy_keeps hA (Keeps.refl _ s))

theorem State.fecWindow_keeps : Keeps 0x40001 s (s.fecWindow p n w l) := by
  unfold State.fecWindow
  exact State.modPort_keeps rfl (s.fecCounted_keeps p w l rfl)

theorem State.port_fecCounted (q : Nat) : (s.fecCounted p w l).port q = s.port q :=
  State.port_of_ports q ((s.fecCounted_keeps p w l (A := 0x1) rfl).same .ports rfl)

theorem State.cleanAfter_fecCounted :
    ((s.fecCounted p w l).port p).cleanAfter (s.fecCounted p w l).now n l.sum = (s.port p).cleanAfter s.now n l.sum := by
  have now : (s.fecCounted p w l).now = s.now := (s.fecCounted_keeps p w l (A := 0x1) rfl).now
  rw [State.port_fecCounted, now]

theorem State.port_fecWindow (q : Nat) :
    (s.fecWindow p n w l).port q =
      if q = p then { s.port p with cleanSince := (s.port p).cleanAfter s.now n l.sum } else s.port q := by
  rw [← State.cleanAfter_fecCounted s p n w l]
  refine ((s.fecCounted p w l).port_setPort p q _).trans ?_
  rw [State.port_fecCounted s p w l p, State.port_fecCounted s p w l q]

/-- Registers of a port, of a lane and of a group lie apart. -/
theorem fecCorr_ne (k : Nat) :
    R.port_FEC_CORR p ≠ R.lane_SYM_CORR k ∧ R.port_FEC_CORR p ≠ R.hub_SATURATED ∧ R.port_FEC_CORR p ≠ R.pg_EVENTS k := by
  simp only [R.port_FEC_CORR, R.port, R.lane_SYM_CORR, R.lane, R.hub_SATURATED, R.hub, R.pg_EVENTS, R.pg]
  refine ⟨?_, by omega, by omega⟩
  split <;> omega

theorem State.reg_fecWindow :
    ((s.fecWindow p n w l).reg (R.port_FEC_CORR p)).toNat = min 0xFFFFFFFF ((s.reg (R.port_FEC_CORR p)).toNat + w) := by
  have lanes (es : List (Nat × Nat)) (u : State) :
      (es.foldl (fun s e => s.countBy (R.lane_SYM_CORR e.1) e.2) u).reg (R.port_FEC_CORR p) = u.reg (R.port_FEC_CORR p) := by
    induction es generalizing u with
    | nil => rfl
    | cons e es ih => rw [List.foldl_cons, ih, State.reg_countBy, if_neg (fecCorr_ne p e.1).1]
  rw [← toNat_w32_min]
  refine congrArg BitVec.toNat ((lanes _ _).trans ?_)
  rw [State.reg_countBy, if_pos rfl]

/-- A window whose ratio is above 10^-4 is noted. -/
def State.degradedNoted (s : State) (p : Nat) (d : List Byte) : State :=
  ((s.modPort p fun x => { x with degraded := true }).groupEvent p 8).portLog F.FEC_DEGRADE p d

theorem State.degradedNoted_keeps {A : Nat} {z s : State} {p : Nat} {d : List Byte} (hA : 0x4800040005 &&& A = 0x4800040005)
    (h : Keeps A z s) : Keeps A z (s.degradedNoted p d) :=
  State.noted_keeps (Part.sub hA rfl) (State.modPort_keeps (Part.sub hA rfl) h)

theorem State.port_degradedNoted (d : List Byte) (q : Nat) :
    (s.degradedNoted p d).port q = if q = p then { s.port p with degraded := true } else s.port q := by
  have kept := State.noted_keeps (p := p) (m := 8) (q := p) (c := F.FEC_DEGRADE) (d := d) rfl
    (Keeps.refl 0x4800000005 (s.modPort p fun x => { x with degraded := true }))
  rw [State.degradedNoted, State.port_of_ports q (kept.same .ports rfl)]
  exact s.port_setPort _ _ _

theorem State.reg_degradedNoted (d : List Byte) (hp : p < 32) :
    (s.degradedNoted p d).reg (R.port_FEC_CORR p) = s.reg (R.port_FEC_CORR p) := by
  obtain ⟨-, hub, events⟩ := fecCorr_ne p (p / 8)
  rw [State.degradedNoted, State.portLog, if_pos hp, State.reg_of_regs _ (State.logOut_regs _ _ _ _ _ _), State.groupEvent, if_pos hp,
    State.reg_event _ _ _ _ hub, if_neg events]
  rfl

end

section
variable {s : State} {p : Fin 34} {n w : Nat} {l : List Nat} (hp : p.val < 32) (hs : (s.port p.val).state = .up)
include hp hs

theorem execFecDegrade_of_high (hn : n < l.sum * 10000) :
    execFecDegrade p n w l s = .next ((s.fecWindow p.val n w l).degradedNoted p.val (leBytes 4 (l.sum * 1000000000 / n))) := by
  unfold execFecDegrade
  dsimp only
  rw [if_pos ⟨hp, hs⟩, if_pos hn]
  unfold State.degradedNoted State.fecWindow Port.cleanAfter
  simp only [decide_eq_true_eq]
  rfl

/-- Of a window that is not above 10^-4 the time of the clean windows decides. -/
theorem execFecDegrade_of_low (hn : ¬n < l.sum * 10000) :
    execFecDegrade p n w l s = match (s.port p.val).cleanAfter s.now n l.sum with
      | some t => if s.due (t + sec 10) = true then .next ((s.fecWindow p.val n w l).modPort p.val fun x => { x with degraded := false })
        else .next (s.fecWindow p.val n w l)
      | none => .next (s.fecWindow p.val n w l) := by
  have now : (s.fecWindow p.val n w l).now = s.now := (s.fecWindow_keeps p.val n w l).now
  have due (t : Nat) : s.due t = (s.fecWindow p.val n w l).due t := by rw [State.due, State.due, now]
  simp only [due]
  rw [← State.cleanAfter_fecCounted s p.val n w l]
  unfold execFecDegrade
  dsimp only
  rw [if_pos ⟨hp, hs⟩, if_neg hn]
  unfold State.fecWindow Port.cleanAfter
  simp only [decide_eq_true_eq]
  rfl

/-- The port at the end of a window below 10^-5: 10 s of such windows end DEGRADED. -/
theorem execFecDegrade_of_clean (hn : l.sum * 100000 < n) :
    let b := (s.port p.val).cleanSince.getD (max (s.port p.val).upSince (s.now - sec 1))
    ∃ t, execFecDegrade p n w l s = .next t ∧
      t.port p.val = { s.port p.val with
        cleanSince := some b, degraded := if s.due (b + sec 10) then false else (s.port p.val).degraded } ∧
      (∀ q, q ≠ p.val → t.port q = s.port q) ∧ t.regs = (s.fecWindow p.val n w l).regs := by
  intro b
  have since : (s.port p.val).cleanAfter s.now n l.sum = some b := if_pos hn
  have low := execFecDegrade_of_low hp hs (n := n) (w := w) (l := l) (by omega)
  have port (q : Nat) := s.port_fecWindow p.val n w l q
  rw [since] at low port
  dsimp only at low
  by_cases h : s.due (b + sec 10) = true
  · rw [if_pos h] at low
    refine ⟨_, low, ?_, fun q hq => ?_, rfl⟩
    · rw [State.modPort_eq, State.port_setPort, if_pos rfl, port, if_pos rfl, if_pos h]
    · rw [State.modPort_eq, State.port_setPort, if_neg hq, port, if_neg hq]
  · rw [if_neg h] at low
    exact ⟨_, low, by rw [port, if_pos rfl, if_neg h], fun q hq => by rw [port, if_neg hq], rfl⟩

end

/-- Settles O24: each cause takes the port DOWN, and a window of corrected symbols is judged by its ratio. -/
theorem upPortsGoDown : Obligations.UpPortsGoDown := by
  unfold Obligations.UpPortsGoDown
  refine ⟨fun p s hs => ?down, fun p r s hs => ?other, fun p n s hp hs hn => ?few, fun p n w l s hp hs => ?window⟩
  case down =>
    refine ⟨fun l b hl hb hlane hd => ?_, ⟨_, rfl, State.portDown_fallen (by decide) hs⟩, fun n hp hn => ?_, fun r => ?_⟩
    · exact ⟨_, execFomBelowMin_of_bad hb hlane hd, hl ▸ State.portDown_fallen (by decide) (hl ▸ hs)⟩
    · have many : 16 ≤ ((s.port p.val).recentUncorr s.now n).length := by
        rw [Port.length_recentUncorr]
        omega
      refine ⟨_, (execFecUncorrBurst_of_up hp hs).trans (if_pos many), ?_⟩
      refine State.Fallen.of_noted (State.portDown_fallen (by decide) ?_) ?_ (s.port_uncorrNoted p.val n) rfl rfl
      · rw [State.port_uncorrNoted, if_pos rfl, hs]
      · exact State.modPort_keeps rfl (State.countBy_keeps rfl (Keeps.refl _ s))
    · refine ⟨_, execLinkFaultPersist_of_trying r (.inl hs), ?_⟩
      refine State.Fallen.of_noted (State.portDown_fallen (by decide) ?_) (State.modPort_keeps rfl (Keeps.refl _ s))
        (fun q => s.port_setPort p.val q _) rfl rfl
      rw [State.modPort_eq, State.port_setPort, if_pos rfl]
      exact hs
  case other =>
    refine ⟨congrArg Host.Outcome.next (State.portDown_of_not_up 3 hs), fun hb => ?_, fun hb => if_neg (c := _ ∨ _) (by simp [hs, hb])⟩
    have own (q : Nat) : (s.modPort p.val fun x => x.faulted r s.now).port q = if q = p.val then (s.port p.val).faulted r s.now else s.port q :=
      s.port_setPort p.val q _
    refine ⟨_, (execLinkFaultPersist_of_trying r (.inr hb)).trans (congrArg Host.Outcome.next (State.portDown_of_not_up 5 ?_)),
      by rw [own, if_pos rfl]; rfl, fun q hq => by rw [own, if_neg hq], rfl⟩
    rw [own, if_pos rfl]
    exact hs
  case few =>
    have few : ¬16 ≤ ((s.port p.val).recentUncorr s.now n).length := by
      rw [Port.length_recentUncorr]
      omega
    have own (b : Nat) : (s.uncorrNoted p.val n).reg b = (s.countBy (R.port_FEC_UNCORR p.val) n).reg b := rfl
    refine ⟨_, (execFecUncorrBurst_of_up hp hs).trans (if_neg few), ?_, ?_, fun b hb => ?_, rfl⟩
    · rw [State.port_uncorrNoted, if_pos rfl, hs]
    · rw [own, State.reg_countBy, if_pos rfl, toNat_w32_min]
    · rw [own, State.reg_countBy, if_neg hb]
  case window =>
    have own : (s.fecWindow p.val n w l).port p.val = { s.port p.val with cleanSince := (s.port p.val).cleanAfter s.now n l.sum } := by
      rw [State.port_fecWindow, if_pos rfl]
    have other (q : Nat) (hq : q ≠ p.val) : (s.fecWindow p.val n w l).port q = s.port q := by rw [State.port_fecWindow, if_neg hq]
    by_cases high : n < l.sum * 10000
    · let d := leBytes 4 (l.sum * 1000000000 / n)
      have noted : ((s.fecWindow p.val n w l).degradedNoted p.val d).port p.val =
          { (s.fecWindow p.val n w l).port p.val with degraded := true } := by rw [State.port_degradedNoted, if_pos rfl]
      refine ⟨_, execFecDegrade_of_high hp hs high, ?_, fun q hq => ?_, ?_, fun _ => ⟨?_, fun hrun => ?_⟩, fun _ _ => by omega,
        fun _ => ?_, fun _ => by omega⟩
      · rw [noted, own]
        exact hs
      · rw [State.port_degradedNoted, if_neg hq, other q hq]
      · rw [State.reg_degradedNoted _ _ _ hp, State.reg_fecWindow]
      · rw [noted]
      · have kept : Keeps 0x40001 s ((s.fecWindow p.val n w l).modPort p.val fun x => { x with degraded := true }) :=
          State.modPort_keeps rfl (s.fecWindow_keeps p.val n w l)
        exact (State.noted_logs (kept.running rfl hrun) _ _ _ _ _).after kept rfl
      · rw [noted, own]
        exact if_neg (by omega)
    by_cases clean : l.sum * 100000 < n
    · obtain ⟨t, exec, port, others, regs⟩ := execFecDegrade_of_clean hp hs (w := w) clean
      refine ⟨t, exec, by rw [port]; exact hs, others, by rw [State.reg_of_regs _ regs, State.reg_fecWindow], fun h => absurd h high,
        fun _ _ => by omega, fun _ => by omega, fun _ => ⟨fun b hb => ?_, fun hb => ?_⟩⟩
      · rw [port, hb]
        exact ⟨rfl, rfl⟩
      · rw [port, hb]
        refine ⟨rfl, if_neg fun due => ?_⟩
        have waited : max (s.port p.val).upSince (s.now - sec 1) + sec 10 ≤ s.now := of_decide_eq_true due
        unfold sec at waited
        omega
    · have low := execFecDegrade_of_low hp hs (w := w) high
      have since : (s.port p.val).cleanAfter s.now n l.sum = none := if_neg clean
      rw [since] at low own
      exact ⟨_, low, by rw [own]; exact hs, other, State.reg_fecWindow _ _ _ _ _, fun h => absurd h high, fun _ _ => by rw [own],
        fun _ => by rw [own], fun h => absurd h clean⟩

end Sys2Proof.Machine
end

section
/-!
PROOF. The optics buses (R100, R325): a poll that finds an alarm flag raises the block's event before it logs OPT_ALARM. Where that
event meets a saturated interrupt source, IRQ_SATURATED joins the ledger's intake as well, which the statement leaves no room for.
-/

namespace Sys2Proof.Machine

/-- D0 runs; bus 0 is polled and its last poll lies 100 ms back; the group's event OPTICS is enabled, and its source has counted 255. -/
def saturatedGroup : State :=
  (((({ clock := { now := ms 100 }, startup := { phase := 2 } } : State).setReg (R.opt_OPT_CTRL 0) 2).setReg (R.pg_EVENTS 0 + 4) 64).setSource 19
    { count := 255 })

/-- A poll that reads one alarm flag of an empty cage. -/
def oneFlag : OpticReading := { present := false, ready := false, flags := [1] }

/-- The one flag makes two entries: IRQ_SATURATED, then OPT_ALARM. -/
theorem optPoll_saturatedGroup :
    (match exec (.optPoll 0 oneFlag) saturatedGroup with
      | .next t => t.ledger.outbox.map Entry.cls
      | _ => []) = [F.IRQ_SATURATED.code, F.OPT_ALARM.code] := by decide +kernel

/-- Refutes O25: the flags of a poll need not be all that is logged, since the event of OPT_ALARM may find its interrupt source full. -/
theorem not_laneControlsAndOpticsBuses : ¬ Obligations.LaneControlsAndOpticsBuses := by
  unfold Obligations.LaneControlsAndOpticsBuses
  rintro ⟨-, -, polls, -⟩
  obtain ⟨t, new, run, -, -, outbox, flags, -⟩ := polls 0 oneFlag saturatedGroup (by decide +kernel) (by decide +kernel)
    (by decide +kernel) (by decide +kernel) (by decide +kernel) (by decide +kernel)
  have two := optPoll_saturatedGroup
  rw [run] at two
  have none : saturatedGroup.ledger.outbox = [] := by decide +kernel
  rw [none, List.nil_append] at outbox
  have one : new.length = 1 := by simpa [oneFlag] using congrArg List.length flags
  have length : new.length = 2 := by simpa [outbox] using congrArg List.length two
  omega

end Sys2Proof.Machine
end

section
/-!
PROOF. Frames at a port (R87, R106 to R108, R114, R172): what is counted, what the port answers itself, and a flow's frame in its ring.
-/

namespace Sys2Proof.Machine

/-! ## Frames that are only counted, and answers (R87, R172) -/

section
variable {s : State} {p : Fin 34} {f : List Byte} (hrun : s.running = true) (hup : (s.port p.val).state = .up)
include hrun hup

/-- What a frame with a good FCS is. -/
theorem execFrameRx_of_good :
    execFrameRx p f true s =
      if f.length + 4 < 64 ∨ s.portMtu p.val < f.length + 4 ∨ s.takesMac p.val (be f 0 6) = false then .next (s.rxDrop p.val)
      else .next (if p.val < 32 then s.mediaRx p.val f else s.managementRx (p.val == 33) f) := by
  unfold execFrameRx
  dsimp only
  rw [if_neg (by simp [hrun, hup]), if_neg (by simp)]

theorem execFrameRx_of_badFcs :
    execFrameRx p f false s = .next (s.count (if p.val < 32 then R.port_RX_FCS_ERR p.val else R.mp_RX_FCS_ERR (p.val - 32))) := by
  unfold execFrameRx
  dsimp only
  rw [if_neg (by simp [hrun, hup]), if_pos (by simp)]

section
variable (hmin : 64 ≤ f.length + 4) (hmax : f.length + 4 ≤ s.portMtu p.val) (hmac : s.takesMac p.val (be f 0 6) = true)
include hmin hmax hmac

theorem execFrameRx_of_taken :
    execFrameRx p f true s = .next (if p.val < 32 then s.mediaRx p.val f else s.managementRx (p.val == 33) f) :=
  (execFrameRx_of_good hrun hup).trans (if_neg (by
    rintro (short | long | other)
    · omega
    · omega
    · exact absurd (hmac.symm.trans other) (by decide)))

/-- Media and management ports alike answer this traffic for their own addresses. -/
theorem execFrameRx_of_answer {r : List Byte} (hf : helperFrame f = true) (hr : s.ownAnswer p.val f = some r) :
    execFrameRx p f true s = .next (s.answerFrame p.val r) := by
  have helper : s.helperRx p.val f = s.answerFrame p.val r := by rw [State.helperRx, hr]
  rw [execFrameRx_of_taken hrun hup hmin hmax hmac]
  split
  · rw [State.mediaRx, if_pos hf, helper]
  case isFalse h =>
    have own : 32 + b2n (p.val == 33) = p.val := by
      have := p.isLt
      by_cases m1 : p.val = 33
      · rw [m1]
        rfl
      · rw [show (p.val == 33) = false by simpa using m1, b2n]
        simp only [Bool.false_eq_true, if_false]
        omega
    rw [State.managementRx, own, if_pos hf, helper]

/-- A UDP packet at a media port that is neither PTP nor of the pair looks up its flow. -/
theorem execFrameRx_of_udp {u : Udp} (hp : p.val < 32) (hf : helperFrame f = false) (hq : queryOf f = none)
    (hu : (ipOf f).bind udpOf = some u) (hptp : s.isPtp p.val u = false) (hpair : u.dport = 47810 → s.pairPorts.contains p.val = false) :
    execFrameRx p f true s = .next ((s.rxFrame p.val).flowPacket p.val f u) := by
  have no : ¬(s.isPtp p.val u || (u.dport == 47810 && s.pairPorts.contains p.val)) = true := by
    rw [hptp, Bool.false_or, Bool.and_eq_true, beq_iff_eq]
    rintro ⟨port, link⟩
    exact absurd ((hpair port).symm.trans link) (by decide)
  rw [execFrameRx_of_taken hrun hup hmin hmax hmac, if_pos hp, State.mediaRx, if_neg (by simp [hf]), hq]
  dsimp only
  rw [hu]
  exact congrArg _ (if_neg no)

end
end

/-- The answers of the present second have reached 1,000, or the answer is too long for a port with a curd stream. -/
def State.barsAnswer (s : State) (p : Nat) (r : List Byte) : Prop :=
  (s.port p).answers.1 = s.now / 1000000000 ∧ 1000 ≤ (s.port p).answers.2 ∨ s.carriesCurds p = true ∧ 256 < r.length + 24

theorem State.barsAnswer_iff (s : State) (p : Nat) (r : List Byte) :
    s.barsAnswer p r ↔
      1000 ≤ (if (s.port p).answers.1 = s.now / sec 1 then (s.port p).answers.2 else 0) ∨ (s.carriesCurds p = true ∧ 256 < r.length + 24) := by
  rw [State.barsAnswer, sec, Nat.mul_one]
  refine or_congr_left ?_
  split
  case isTrue h => simp [h]
  case isFalse h => simp [h]

theorem State.answerFrame_of_barred {s : State} {p : Nat} {r : List Byte} (h : s.barsAnswer p r) : s.answerFrame p r = s.rxDrop p := by
  unfold State.answerFrame
  exact if_pos ((s.barsAnswer_iff p r).1 h)

/-- An answer leaves its port; the frame and the answer are counted, and nothing else changes. -/
theorem State.answerFrame_sends {s : State} {p : Nat} {r : List Byte} (hup : (s.port p).state = .up) (h : ¬s.barsAnswer p r) :
    s.Sends (s.answerFrame p r) p (r.length + 24) (.eth p r) ∧ (∀ q, q ≠ p → (s.answerFrame p r).port q = s.port q) ∧
      s.answerFrame p r = { s with
        regs := (s.answerFrame p r).regs, ports := (s.answerFrame p r).ports, wire := (s.answerFrame p r).wire } := by
  unfold State.answerFrame
  dsimp only
  rw [if_neg (fun bars => h ((s.barsAnswer_iff p r).2 bars))]
  generalize (if (s.port p).answers.1 = s.now / sec 1 then (s.port p).answers.2 else 0) = n
  let v := (s.rxFrame p).modPort p fun x => { x with answers := (s.now / sec 1, n + 1) }
  have port (q : Nat) : v.port q = if q = p then { s.port p with answers := (s.now / sec 1, n + 1) } else s.port q :=
    (s.rxFrame p).port_setPort p q _
  have own : v.port p = { s.port p with answers := (s.now / sec 1, n + 1) } := by rw [port, if_pos rfl]
  obtain ⟨sent, others, -, rest⟩ := State.sendOther_of_up (s := v) (p := p) (by rw [own]; exact hup) (r.length + 24) (.eth p r)
  refine ⟨?_, fun q hq => (others q hq).trans (by rw [port, if_neg hq]), rest⟩
  unfold State.Sends at sent ⊢
  rw [own] at sent
  exact sent

/-! ## Frame memory under a store -/

theorem State.byte_setBytes_of_outside (s : State) {a b : Nat} {l : List Byte} (h : ¬(a ≤ b ∧ b < a + l.length)) :
    (s.setBytes a l).byte b = s.byte b := by
  rw [State.byte_setBytes]
  split
  · rw [List.getElem?_eq_none (by omega), Option.getD_none]
  · rfl

theorem State.byte_setBytes_of_inside (s : State) {a k : Nat} {l : List Byte} (h : k < l.length) : (s.setBytes a l).byte (a + k) = l[k] := by
  rw [State.byte_setBytes, if_pos (Nat.le_add_right a k), Nat.add_sub_cancel_left, List.getElem?_eq_getElem h, Option.getD_some]

theorem State.bytes_congr {s t : State} {a n : Nat} (h : ∀ k, k < n → t.byte (a + k) = s.byte (a + k)) : t.bytes a n = s.bytes a n :=
  List.map_congr_left fun k hk => h k (List.mem_range.1 hk)

/-- Two bytes of a number read back. -/
theorem le_leBytes_two (n : Nat) : le (leBytes 2 n) 0 2 = n % 65536 := by
  simp [le, leBytes]
  omega

/-! ## Descriptor rings (R114) -/

/-- The fields of a descriptor that the ZH48 writes: its bytes 10 to 27. -/
def State.describe (s : State) (d length place : Nat) (at_ : Stamp) (flags : Nat) : State :=
  (((s.setBytes (d + 10) (leBytes 2 length)).setBytes (d + 12) (leBytes 4 place)).setBytes (d + 16) (leBytes 8 at_.toNat)).setBytes (d + 24)
    (leBytes 4 flags)

section
variable (s : State) (d length place : Nat) (at_ : Stamp) (flags : Nat)

theorem State.byte_describe_of_outside {a : Nat} (h : ¬(d + 10 ≤ a ∧ a < d + 28)) :
    (s.describe d length place at_ flags).byte a = s.byte a := by
  unfold State.describe
  rw [State.byte_setBytes_of_outside, State.byte_setBytes_of_outside, State.byte_setBytes_of_outside, State.byte_setBytes_of_outside]
  all_goals
    rw [leBytes_length]
    omega

theorem State.length_describe : le ((s.describe d length place at_ flags).bytes (d + 10) 2) 0 2 = length % 65536 := by
  have read : (s.describe d length place at_ flags).bytes (d + 10) 2 = (s.setBytes (d + 10) (leBytes 2 length)).bytes (d + 10) 2 := by
    refine State.bytes_congr fun k hk => ?_
    unfold State.describe
    rw [State.byte_setBytes_of_outside, State.byte_setBytes_of_outside, State.byte_setBytes_of_outside]
    all_goals
      rw [leBytes_length]
      omega
  have back := s.bytes_setBytes (d + 10) (leBytes 2 length)
  rw [leBytes_length] at back
  rw [read, back, le_leBytes_two]

end

/-- The descriptor at RING_HEAD, and the frame's part that its buffer takes. -/
def State.ringHead (s : State) (n : Nat) : Nat := s.ringBase n + 32 * (s.reg (R.ring_RING_HEAD n)).toNat
def State.ringBuffer (s : State) (n : Nat) : Nat := le (s.bytes (s.ringHead n) 8) 0 8
def State.ringRoom (s : State) (n : Nat) : Nat := le (s.bytes (s.ringHead n + 8) 2) 0 2

section
variable {s : State} {n : Nat} (hslots : s.ringSlots n ≠ 0)
  (hfree : (s.reg (R.ring_RING_HEAD n)).toNat ≠ (s.reg (R.ring_RING_TAIL n)).toNat % s.ringSlots n) (flow port : Nat) (f : List Byte)
include hslots hfree

theorem State.ringDeliver_of_free : ∃ place at_ flags, s.ringDeliver n flow port f =
    (((s.setBytes (s.ringBuffer n) (f.take (s.ringRoom n))).describe (s.ringHead n) f.length place at_ flags).setReg (R.ring_RING_HEAD n)
      (w32 (((s.reg (R.ring_RING_HEAD n)).toNat + 1) % s.ringSlots n)), false) := by
  unfold State.ringDeliver
  dsimp only
  rw [if_neg (not_or.2 ⟨hslots, hfree⟩)]
  exact ⟨_, _, _, rfl⟩

/-- A frame enters a ring with a free descriptor. -/
theorem State.ringDeliver_spec :
    let t := (s.ringDeliver n flow port f).1
    let len := min f.length (s.ringRoom n)
    let within (a : Nat) : Prop := s.ringHead n + 10 ≤ a ∧ a < s.ringHead n + 28
    (s.ringDeliver n flow port f).2 = false ∧
      t.reg (R.ring_RING_HEAD n) = w32 (((s.reg (R.ring_RING_HEAD n)).toNat + 1) % s.ringSlots n) ∧
      (∀ k, k < len → ¬within (s.ringBuffer n + k) → t.byte (s.ringBuffer n + k) = f.getD k 0) ∧
      le (t.bytes (s.ringHead n + 10) 2) 0 2 = f.length % 65536 ∧
      (∀ a, ¬(s.ringBuffer n ≤ a ∧ a < s.ringBuffer n + len) → ¬within a → t.byte a = s.byte a) := by
  obtain ⟨place, at_, flags, run⟩ := State.ringDeliver_of_free hslots hfree flow port f
  have taken : (f.take (s.ringRoom n)).length = min f.length (s.ringRoom n) := by rw [List.length_take, Nat.min_comm]
  rw [run]
  refine ⟨rfl, ?_, fun k hk out => ?_, State.length_describe _ _ _ _ _ _, fun a buf out => ?_⟩
  · rw [State.reg_setReg, if_pos rfl]
  · refine (State.byte_describe_of_outside _ _ _ _ _ _ out).trans ?_
    rw [State.byte_setBytes_of_inside _ (by omega), List.getElem_take, List.getD_eq_getElem _ _ (by omega)]
  · refine (State.byte_describe_of_outside _ _ _ _ _ _ out).trans (State.byte_setBytes_of_outside _ ?_)
    rw [taken]
    exact buf

end

/-! ## Flows (R106 to R108) -/

theorem State.ftEntry_modEntry (s : State) (i : Nat) (f : FtEntry → FtEntry) : (s.modEntry i f).ftEntry i = f (s.ftEntry i) := by
  have get (b : Sparse FtEntry) (e : FtEntry) : (bankPut b i e).get (fun _ => {}) i = e := (Sparse.get_put _ _ _ _ _).trans (if_pos rfl)
  cases ha : s.ft.active <;> simp only [State.ftEntry, State.modEntry, State.modFt_ft, ha, if_true, if_false, Bool.false_eq_true, get]
  · rfl
  · rfl

/-- A ring's registers are not the pair's events, nor the hub's. -/
theorem ringHead_ne (n : Nat) (hn : n < 64) :
    R.ring_RING_HEAD n ≠ R.pair_EVENTS ∧ R.ring_RING_HEAD n ≠ R.hub_SATURATED := by
  simp only [R.ring_RING_HEAD, R.ring, R.pair_EVENTS, R.pair, R.hub_SATURATED, R.hub]
  omega

section
variable {s : State} {p : Nat} {f : List Byte} {u : Udp} (hs : s.inService 1 8 = true)
include hs

theorem State.flowPacket_of_none (hl : s.flowLookup u.dst u.src u.dport p = none) (hc : bit (s.reg R.ft_FT_CTRL).toNat 0 = false) :
    s.flowPacket p f u = s.count R.ft_FT_UNKNOWN := by
  have ctrl : (s.count R.ft_FT_UNKNOWN).reg R.ft_FT_CTRL = s.reg R.ft_FT_CTRL := by rw [State.reg_count, if_neg (by decide)]
  unfold State.flowPacket
  rw [if_neg (by simp [hs]), hl]
  dsimp only
  rw [ctrl, hc]
  rfl

/-- The packet of a ring flow counts in its entry, and a ring that takes it discards nothing. -/
theorem State.flowPacket_of_ring {i : Nat} (hl : s.flowLookup u.dst u.src u.dport p = some i) (hk : (s.ftEntry i).kind = 3)
    (hd : ((s.modEntry i fun e => { e with pkts := min 0xFFFFFFFF (e.pkts + 1) }).ringDeliver ((s.ftEntry i).target % 64) i p f).2 = false) :
    s.flowPacket p f u =
      ((s.modEntry i fun e => { e with pkts := min 0xFFFFFFFF (e.pkts + 1) }).ringDeliver ((s.ftEntry i).target % 64) i p f).1.pairReadyCheck := by
  let v := s.modEntry i fun e => { e with pkts := min 0xFFFFFFFF (e.pkts + 1) }
  have entry : v.ftEntry i = { s.ftEntry i with pkts := min 0xFFFFFFFF ((s.ftEntry i).pkts + 1) } := s.ftEntry_modEntry i _
  have deliver : v.deliverFlow i p (v.ftEntry i) f u = v.ringDeliver ((s.ftEntry i).target % 64) i p f := by
    rw [entry, State.deliverFlow, State.ingressUp, hk]
    rfl
  unfold State.flowPacket
  rw [if_neg (by simp [hs]), hl]
  dsimp only
  rw [deliver, if_neg (by simp [v, hd])]

/-- The packet of a ring flow whose ring has a free descriptor. -/
theorem State.flowPacket_spec {i : Nat} (hl : s.flowLookup u.dst u.src u.dport p = some i) (hk : (s.ftEntry i).kind = 3) :
    let n := (s.ftEntry i).target % 64
    let head := (s.reg (R.ring_RING_HEAD n)).toNat
    let t := s.flowPacket p f u
    let len := min f.length (s.ringRoom n)
    let within (a : Nat) : Prop := s.ringHead n + 10 ≤ a ∧ a < s.ringHead n + 28
    s.ringSlots n ≠ 0 → head ≠ (s.reg (R.ring_RING_TAIL n)).toNat % s.ringSlots n →
      t.reg (R.ring_RING_HEAD n) = w32 ((head + 1) % s.ringSlots n) ∧ (t.ftEntry i).pkts = min 0xFFFFFFFF ((s.ftEntry i).pkts + 1) ∧
      (∀ k, k < len → ¬within (s.ringBuffer n + k) → t.byte (s.ringBuffer n + k) = f.getD k 0) ∧
      le (t.bytes (s.ringHead n + 10) 2) 0 2 = f.length % 65536 ∧
      (∀ a, ¬(s.ringBuffer n ≤ a ∧ a < s.ringBuffer n + len) → ¬within a → t.byte a = s.byte a) := by
  intro n head t len within slots free
  let w := s.modEntry i fun e => { e with pkts := min 0xFFFFFFFF (e.pkts + 1) }
  obtain ⟨kept, next, taken, length, rest⟩ := State.ringDeliver_spec (s := w) (n := n) slots free i p f
  let x := (w.ringDeliver n i p f).1
  have run : t = x.pairReadyCheck := State.flowPacket_of_ring hs hl hk kept
  have ready : Keeps 0x4810000005 x x.pairReadyCheck := State.pairReadyCheck_keeps rfl (Keeps.refl _ x)
  have byte (a : Nat) : x.pairReadyCheck.byte a = x.byte a := by rw [State.byte, ready.same .mem rfl, State.byte]
  have entry : x.pairReadyCheck.ft = w.ft :=
    (ready.same .ft rfl).trans ((State.ringDeliver_keeps rfl (Keeps.refl 0x480000000d w)).same .ft rfl)
  have counted : w.ftEntry i = { s.ftEntry i with pkts := min 0xFFFFFFFF ((s.ftEntry i).pkts + 1) } := s.ftEntry_modEntry i _
  obtain ⟨pairs, hub⟩ := ringHead_ne n (Nat.mod_lt _ (by decide))
  rw [run]
  refine ⟨(State.pairReadyCheck_reg _ pairs hub).trans next, ?_, fun k hk out => (byte _).trans (taken k hk out), ?_,
    fun a outside out => (byte a).trans (rest a outside out)⟩
  · rw [State.ftEntry, entry]
    exact congrArg FtEntry.pkts counted
  · rw [State.bytes_congr fun k _ => byte _]
    exact length

end

/-- Below the rings lie the registers of a media port. -/
theorem rxFrames_lt {p : Nat} (hp : p < 32) : R.port_RX_FRAMES p < 0x10800000 := by
  simp only [R.port_RX_FRAMES, R.port]
  omega

/-- Settles O26: what is only counted, what is answered, and the flows that no entry or a ring's entry takes. -/
theorem framesAreCountedAnsweredAndDelivered : Obligations.FramesAreCountedAnsweredAndDelivered := by
  unfold Obligations.FramesAreCountedAnsweredAndDelivered
  refine ⟨fun p f s hrun hup => ?own, fun p f u s hrun hup hp hmin hmax hmac hf hq hu hptp hpair hs => ?flow⟩
  case own =>
    intro rxDrop rxFcs counts
    have count (a : Nat) : counts (s.count a) a :=
      ⟨s.toNat_reg_count a, fun b hb => (s.reg_count a b).trans (if_neg hb), rfl⟩
    refine ⟨⟨_, execFrameRx_of_badFcs hrun hup, count rxFcs⟩, fun hbad => ?_, fun r hmin hmax hmac hf hr => ?_⟩
    · exact ⟨_, (execFrameRx_of_good hrun hup).trans (if_pos hbad), count rxDrop⟩
    have run := execFrameRx_of_answer hrun hup hmin hmax hmac hf hr
    refine ⟨fun many => ⟨_, run, ?_⟩, fun few => ⟨_, run, State.answerFrame_sends hup few⟩⟩
    rw [State.answerFrame_of_barred many]
    exact count rxDrop
  case flow =>
    let v := s.rxFrame p.val
    have run := execFrameRx_of_udp hrun hup hmin hmax hmac hp hf hq hu hptp hpair
    have rx (b : Nat) : v.reg b = if b = R.port_RX_FRAMES p.val then w32 (min 0xFFFFFFFF ((s.reg (R.port_RX_FRAMES p.val)).toNat + 1))
        else s.reg b := by
      rw [show v = s.count (R.port_RX_FRAMES p.val) by simp [v, State.rxFrame, hp], State.reg_count]
    have below := rxFrames_lt hp
    have apart {b : Nat} (hb : 0x10800000 ≤ b) : v.reg b = s.reg b := (rx b).trans (if_neg (by omega))
    refine ⟨fun miss off => ?_, fun i hit kind => ?_⟩
    · have ctrl : v.reg R.ft_FT_CTRL = s.reg R.ft_FT_CTRL := apart (by decide)
      refine ⟨_, run.trans (congrArg _ (State.flowPacket_of_none hs miss (by rw [ctrl]; exact off))), ?_, ?_, rfl⟩
      · rw [State.toNat_reg_count, apart (by decide)]
      · rw [State.reg_count, if_neg (by simp only [R.ft_FT_UNKNOWN, R.ft]; omega), rx, if_pos rfl, toNat_w32_min]
    · intro n head d buf len slots free
      have ring {b : Nat} (hb : b < 0x1000) : v.reg (R.ring n + b) = s.reg (R.ring n + b) :=
        apart (by simp only [R.ring]; omega)
      have hsize : v.ringSlots n = s.ringSlots n := by rw [State.ringSlots, R.ring_RING_SIZE, ring (by omega)]; rfl
      have hbase : v.ringBase n = s.ringBase n := by
        rw [State.ringBase, R.ring_RING_BASE_LO, R.ring_RING_BASE_HI, ring (by omega), ring (by omega)]
        rfl
      have hhead : v.reg (R.ring_RING_HEAD n) = s.reg (R.ring_RING_HEAD n) := ring (by omega)
      have htail : v.reg (R.ring_RING_TAIL n) = s.reg (R.ring_RING_TAIL n) := ring (by omega)
      have hd : v.ringHead n = d := by rw [State.ringHead, hbase, hhead]
      have hbuf : v.ringBuffer n = buf := by rw [State.ringBuffer, hd]; rfl
      have hroom : v.ringRoom n = le (s.bytes (d + 8) 2) 0 2 := by rw [State.ringRoom, hd]; rfl
      have spec := State.flowPacket_spec (s := v) (f := f) hs hit kind (by rw [show v.ftEntry i = s.ftEntry i from rfl, hsize]; exact slots)
        (by rw [show v.ftEntry i = s.ftEntry i from rfl, hsize, hhead, htail]; exact free)
      rw [show v.ftEntry i = s.ftEntry i from rfl, hd, hbuf, hroom, hhead, hsize] at spec
      exact ⟨_, run, spec⟩

end Sys2Proof.Machine
end

section
/-!
PROOF. The flow table's commands and the descriptor rings (R110, R111, R114): what FT_RESULT shows, what each command makes of the two
banks, and the statement that they make up.
-/

namespace Sys2Proof.Machine

/-! ## What a command shows its agent -/

section
variable (s : State) (g : Agent)

theorem State.latch_setLatch_own (a b : Nat) (v : Word) : (s.setLatch g a v).latch g b = if b = a then v else s.latch g b := by simp

/-- FT_RESULT of the agent shows a code, an index and BOTH. -/
def State.FtShows (both : Bool) (code i : Nat) : Prop :=
  s.latch g R.ft_FT_RESULT = w32 (0x80000000 + 0x40000000 * b2n both + 0x1000000 * code + i)

/-- FT_RESULT is given; the agent's other latches stay. -/
theorem State.latch_ftResult (code i : Nat) (both : Bool) (a : Nat) :
    (s.ftResult g code i both).latch g a =
      if a = R.ft_FT_RESULT then w32 (0x80000000 + 0x40000000 * b2n both + 0x1000000 * code + i) else s.latch g a := by
  rw [State.ftResult, State.latch_of_latches (State.event_latches _ _ _), State.latch_setLatch_own]

theorem State.ftResult_shows (code i : Nat) (both : Bool) : (s.ftResult g code i both).FtShows g both code i := by
  rw [State.FtShows, State.latch_ftResult, if_pos rfl]

theorem State.FtShows.of_latches {s t : State} {g : Agent} {both : Bool} {code i : Nat} (h : s.FtShows g both code i)
    (e : t.latches = s.latches) : t.FtShows g both code i :=
  (State.latch_of_latches e _ _).trans h

theorem State.ftResult_ft (code i : Nat) (both : Bool) : (s.ftResult g code i both).ft = s.ft := by
  rw [State.ftResult, State.event_ft, State.setLatch_ft]

/-- Without room the result has code 1, the table stays, and FT_NO_ROOM is logged (R110, R111). -/
theorem State.ftNoRoom_spec (hrun : s.running = true) (k : List Byte) (both : Bool) :
    (s.ftNoRoom g k both).FtShows g both 1 0 ∧ (s.ftNoRoom g k both).ft = s.ft ∧ s.Logs (s.ftNoRoom g k both) F.FT_NO_ROOM := by
  let u := (s.ftResult g 1 0 both).event R.ft_EVENTS 2
  have kept : Keeps 0x4800000007 s u := State.event_keeps rfl (State.ftResult_keeps rfl (Keeps.refl _ s))
  refine ⟨?_, ?_, (State.log_logsOne (kept.running rfl hrun) _ _ _).logs.after kept rfl⟩
  · exact ((s.ftResult_shows g 1 0 both).of_latches (State.event_latches _ _ _)).of_latches (State.log_latches _ _ _ _)
  · rw [State.ftNoRoom, State.log_ft, State.event_ft, State.ftResult_ft]

/-- The entry's counters stand in FT_PKTS and FT_DROPS. -/
theorem State.showEntry_spec (i : Nat) :
    (s.showEntry g i).latch g R.ft_FT_PKTS = w32 (s.ftEntry i).pkts ∧ (s.showEntry g i).latch g R.ft_FT_DROPS = w32 (s.ftEntry i).drops ∧
    (s.showEntry g i).ft = s.ft := by
  refine ⟨?_, ?_, (State.showEntry_keeps rfl (Keeps.refl 0x2 s)).same .ft rfl⟩
  · rw [State.showEntry, State.latch_setLatch_own, if_neg (by decide), State.latch_setLatch_own, if_pos rfl]
  · rw [State.showEntry, State.latch_setLatch_own, if_pos rfl]

end

/-! ## The two banks -/

section
variable (t : FlowTable) (b : Bool) (f : Sparse FtEntry → Sparse FtEntry)

@[simp] theorem FlowTable.modBank_active : (t.modBank b f).active = t.active := by cases b <;> rfl
@[simp] theorem FlowTable.bankOf_modBank_same : (t.modBank b f).bankOf b = f (t.bankOf b) := by cases b <;> rfl
@[simp] theorem FlowTable.bankOf_modBank_of_not : (t.modBank b f).bankOf (!b) = t.bankOf (!b) := by cases b <;> rfl
@[simp] theorem FlowTable.bankOf_modBank_not : (t.modBank (!b) f).bankOf b = t.bankOf b := by cases b <;> rfl

end

/-- The active bank stays active, and the banks hold what is said. -/
def State.BanksAre (s t : State) (a b : Sparse FtEntry) : Prop :=
  t.ft.active = s.ft.active ∧ t.ft.bankOf s.ft.active = a ∧ t.ft.bankOf (!s.ft.active) = b

theorem State.BanksAre.of_ft {s t u : State} {a b : Sparse FtEntry} (h : s.BanksAre t a b) (e : u.ft = t.ft) : s.BanksAre u a b := by
  unfold State.BanksAre
  rw [e]
  exact h

theorem State.BanksAre.refl {s t : State} (e : t.ft = s.ft) : s.BanksAre t (s.ft.bankOf s.ft.active) (s.ft.bankOf (!s.ft.active)) := by
  unfold State.BanksAre
  rw [e]
  exact ⟨rfl, rfl, rfl⟩

/-- A new shadow bank. -/
def State.withShadow (s : State) (b : Sparse FtEntry) : State := s.modFt fun t => t.modBank (!t.active) fun _ => b

theorem State.withShadow_banks (s : State) (b : Sparse FtEntry) : s.BanksAre (s.withShadow b) (s.ft.bankOf s.ft.active) b := by
  simp [State.withShadow, State.BanksAre]

theorem State.withShadow_put_banks (s : State) (b : Sparse FtEntry) (i : Nat) (e : FtEntry) :
    s.BanksAre ((s.withShadow b).modFt fun t => t.modBank t.active fun a => bankPut a i e) (bankPut (s.ft.bankOf s.ft.active) i e) b := by
  simp [State.withShadow, State.BanksAre]

/-- The key leaves the active bank, and the shadow bank where both take part (R111); then the groups that nothing needs are left. -/
def State.ftForget (s : State) (k : List Byte) : State :=
  let s := s.modFt fun t => t.modBank t.active fun b => bankRemove b k
  (if s.ftBoth then s.modFt fun t => t.modBank (!t.active) fun b => bankRemove b k else s).leaveUnneeded

theorem State.ftForget_keeps (s : State) (k : List Byte) : Keeps 0x140021 s (s.ftForget k) := by
  unfold State.ftForget
  extract_lets u
  refine State.leaveUnneeded_keeps rfl ?_
  split
  · exact State.modFt_keeps rfl (State.modFt_keeps rfl (Keeps.refl _ s))
  · exact State.modFt_keeps rfl (Keeps.refl _ s)

theorem State.ftBoth_modBank (s : State) (b : Bool) (f : Sparse FtEntry → Sparse FtEntry) :
    (s.modFt fun t => t.modBank b f).ftBoth = s.ftBoth := by
  cases b <;> rfl

theorem State.ftForget_banks (s : State) (k : List Byte) :
    s.BanksAre (s.ftForget k) (bankRemove (s.ft.bankOf s.ft.active) k)
      (if s.ftBoth then bankRemove (s.ft.bankOf (!s.ft.active)) k else s.ft.bankOf (!s.ft.active)) := by
  unfold State.ftForget
  extract_lets u
  have both : u.ftBoth = s.ftBoth := State.ftBoth_modBank s _ _
  refine State.BanksAre.of_ft ?_ ((State.leaveUnneeded_keeps rfl (Keeps.refl 0x40021 _)).same .ft rfl)
  rw [both]
  split <;> simp [u, State.BanksAre]

/-- A key is forgotten after the result has been given: the result stays, and the banks are those of the earlier state. -/
theorem State.ftForget_result (s : State) (g : Agent) (k : List Byte) (code i : Nat) :
    ((s.ftResult g code i).ftForget k).FtShows g false code i ∧
    s.BanksAre ((s.ftResult g code i).ftForget k) (bankRemove (s.ft.bankOf s.ft.active) k)
      (if s.ftBoth then bankRemove (s.ft.bankOf (!s.ft.active)) k else s.ft.bankOf (!s.ft.active)) := by
  refine ⟨(s.ftResult_shows g code i false).of_latches ((State.ftForget_keeps _ k).same .latches rfl), ?_⟩
  have banks := (s.ftResult g code i).ftForget_banks k
  have both : (s.ftResult g code i).ftBoth = s.ftBoth := by simp only [State.ftBoth, State.ftResult_ft]
  unfold State.BanksAre at banks ⊢
  rwa [both, State.ftResult_ft] at banks

theorem bankRemove_of_none {b : Sparse FtEntry} {k : List Byte} (h : bankFind b k = none) : bankRemove b k = b := by simp [bankRemove, h]

theorem bankRemove_of_host {b : Sparse FtEntry} {k : List Byte} {i : Nat} (h : bankFind b k = some i) (hk : hostKind (bankGet b i).kind = true) :
    bankRemove b k = bankPut b i {} := by simp [bankRemove, h, hk]

/-! ## ADD and REMOVE -/

/-- The entry that the agent's window holds, as ADD takes it. -/
def State.ftNew (s : State) (g : Agent) : FtEntry := { readEntry (s.ftWindow g) with valid := true }

/-- The shadow bank with the entry, where it takes part; none without room. -/
def State.ftShadow (s : State) (e : FtEntry) : Option (Sparse FtEntry) :=
  if s.ftBoth then bankAdd (s.ft.bankOf (!s.ft.active)) e else some (s.ft.bankOf (!s.ft.active))

section
variable {s : State} {g : Agent} {i : Nat} (hrun : s.running = true) (hs : s.inService 1 8 = true)
include hrun hs

theorem execFtAdd_of_barred (h : hostKind (s.ftNew g).kind = false ∨ s.portsExist (s.ftNew g).ports = false) :
    execFtAdd g s = .next (s.ftResult g 4 0) := by
  have barred : (!hostKind (s.ftNew g).kind || !s.portsExist (s.ftNew g).ports) = true := by simpa using h
  unfold execFtAdd
  rw [hrun, hs]
  exact if_pos barred

section
variable (hk : hostKind (s.ftNew g).kind = true) (hp : s.portsExist (s.ftNew g).ports = true)
include hk hp

/-- An ADD that is not barred answers as the search of the banks turns out. -/
theorem execFtAdd_of_host :
    execFtAdd g s = match bankFind (s.ft.bankOf s.ft.active) (s.ftNew g).key, bankRoom (s.ft.bankOf s.ft.active) (s.ftNew g).key,
        s.ftShadow (s.ftNew g) with
      | some i, _, some b => .next ((s.withShadow b).ftResult g 2 i)
      | some i, _, none => .next (s.ftResult g 2 i)
      | none, none, _ => .next (s.ftNoRoom g (s.ftNew g).key false)
      | none, some _, none => .next (s.ftNoRoom g (s.ftNew g).key true)
      | none, some i, some b =>
        let t := (s.withShadow b).modFt fun t => t.modBank t.active fun a => bankPut a i (s.ftNew g)
        .next ((t.bankJoins [(i, s.ftNew g)]).foldl (fun s x => s.join x) (t.ftResult g 0 i)) := by
  have taken : ¬(!hostKind (s.ftNew g).kind || !s.portsExist (s.ftNew g).ports) = true := by simp [hk, hp]
  unfold execFtAdd
  rw [hrun, hs]
  exact (if_neg taken).trans rfl

theorem execFtAdd_of_known (known : bankFind (s.ft.bankOf s.ft.active) (s.ftNew g).key = some i) :
    ∃ t, execFtAdd g s = .next t ∧ t.FtShows g false 2 i ∧
      s.BanksAre t (s.ft.bankOf s.ft.active) ((s.ftShadow (s.ftNew g)).getD (s.ft.bankOf (!s.ft.active))) := by
  have run := execFtAdd_of_host hrun hs hk hp
  rw [known] at run
  cases shadow : s.ftShadow (s.ftNew g) with
  | none =>
    rw [shadow] at run
    exact ⟨_, run, State.ftResult_shows _ _ _ _ _, State.BanksAre.refl (s.ftResult_ft g 2 i false)⟩
  | some b =>
    rw [shadow] at run
    exact ⟨_, run, State.ftResult_shows _ _ _ _ _, (s.withShadow_banks b).of_ft (State.ftResult_ft _ _ _ _ _)⟩

theorem execFtAdd_of_full (fresh : bankFind (s.ft.bankOf s.ft.active) (s.ftNew g).key = none)
    (full : bankRoom (s.ft.bankOf s.ft.active) (s.ftNew g).key = none) :
    ∃ t, execFtAdd g s = .next t ∧ t.FtShows g false 1 0 ∧ t.ft = s.ft ∧ s.Logs t F.FT_NO_ROOM := by
  have run := execFtAdd_of_host hrun hs hk hp
  rw [fresh, full] at run
  exact ⟨_, run, s.ftNoRoom_spec g hrun _ _⟩

theorem execFtAdd_of_shadow_full (fresh : bankFind (s.ft.bankOf s.ft.active) (s.ftNew g).key = none)
    (room : bankRoom (s.ft.bankOf s.ft.active) (s.ftNew g).key = some i) (shadow : s.ftShadow (s.ftNew g) = none) :
    ∃ t, execFtAdd g s = .next t ∧ t.FtShows g true 1 0 ∧ t.ft = s.ft ∧ s.Logs t F.FT_NO_ROOM := by
  have run := execFtAdd_of_host hrun hs hk hp
  rw [fresh, room, shadow] at run
  exact ⟨_, run, s.ftNoRoom_spec g hrun _ _⟩

/-- A new key is put into the banks; the joins of its groups touch neither the result nor the banks. -/
theorem execFtAdd_of_room {b : Sparse FtEntry} (fresh : bankFind (s.ft.bankOf s.ft.active) (s.ftNew g).key = none)
    (room : bankRoom (s.ft.bankOf s.ft.active) (s.ftNew g).key = some i) (shadow : s.ftShadow (s.ftNew g) = some b) :
    ∃ t, execFtAdd g s = .next t ∧ t.FtShows g false 0 i ∧
      s.BanksAre t (bankPut (s.ft.bankOf s.ft.active) i (s.ftNew g)) b := by
  have run := execFtAdd_of_host hrun hs hk hp
  rw [fresh, room, shadow] at run
  let t := (s.withShadow b).modFt fun t => t.modBank t.active fun a => bankPut a i (s.ftNew g)
  have joined : Keeps 0x40021 (t.ftResult g 0 i) ((t.bankJoins [(i, s.ftNew g)]).foldl (fun s x => s.join x) (t.ftResult g 0 i)) :=
    Keeps.foldl (fun _ _ h => State.join_keeps rfl h) (Keeps.refl _ _)
  exact ⟨_, run, (t.ftResult_shows g 0 i false).of_latches (joined.same .latches rfl),
    (s.withShadow_put_banks b i (s.ftNew g)).of_ft ((joined.same .ft rfl).trans (t.ftResult_ft g 0 i false))⟩

end

theorem execFtRemove_of_plan (h : (s.ftNew g).kind = 1 ∨ (s.ftNew g).kind = 2) : execFtRemove g s = .next (s.ftResult g 4 0) := by
  unfold execFtRemove
  rw [hrun, hs]
  exact if_pos h

section
variable (h1 : (s.ftNew g).kind ≠ 1) (h2 : (s.ftNew g).kind ≠ 2)
include h1 h2

/-- A REMOVE that is not barred answers as the search of the active bank turns out. -/
theorem execFtRemove_of_other :
    execFtRemove g s = match bankFind (s.ft.bankOf s.ft.active) (s.ftNew g).key with
      | none => .next ((s.ftResult g 3 0).ftForget (s.ftNew g).key)
      | some i =>
        if !hostKind (bankGet (s.ft.bankOf s.ft.active) i).kind then .next (s.ftResult g 4 i)
        else .next ((s.ftResult g 0 i).ftForget (s.ftNew g).key) := by
  unfold execFtRemove
  rw [hrun, hs]
  exact (if_neg (not_or.2 ⟨h1, h2⟩)).trans rfl

theorem execFtRemove_of_unknown (unknown : bankFind (s.ft.bankOf s.ft.active) (s.ftNew g).key = none) :
    ∃ t, execFtRemove g s = .next t ∧ t.FtShows g false 3 0 ∧ s.BanksAre t (s.ft.bankOf s.ft.active)
      (if s.ftBoth then bankRemove (s.ft.bankOf (!s.ft.active)) (s.ftNew g).key else s.ft.bankOf (!s.ft.active)) := by
  have run := execFtRemove_of_other hrun hs h1 h2
  have forgotten := s.ftForget_result g (s.ftNew g).key 3 0
  rw [bankRemove_of_none unknown] at forgotten
  rw [unknown] at run
  exact ⟨_, run, forgotten⟩

theorem execFtRemove_of_known (known : bankFind (s.ft.bankOf s.ft.active) (s.ftNew g).key = some i)
    (host : hostKind (bankGet (s.ft.bankOf s.ft.active) i).kind = true) :
    ∃ t, execFtRemove g s = .next t ∧ t.FtShows g false 0 i ∧ s.BanksAre t (bankPut (s.ft.bankOf s.ft.active) i {})
      (if s.ftBoth then bankRemove (s.ft.bankOf (!s.ft.active)) (s.ftNew g).key else s.ft.bankOf (!s.ft.active)) := by
  have run := execFtRemove_of_other hrun hs h1 h2
  have forgotten := s.ftForget_result g (s.ftNew g).key 0 i
  rw [bankRemove_of_host known host] at forgotten
  rw [known] at run
  exact ⟨_, run.trans (if_neg (by simp [host])), forgotten⟩

theorem execFtRemove_of_known_plan (known : bankFind (s.ft.bankOf s.ft.active) (s.ftNew g).key = some i)
    (plan : hostKind (bankGet (s.ft.bankOf s.ft.active) i).kind = false) : execFtRemove g s = .next (s.ftResult g 4 i) := by
  rw [execFtRemove_of_other hrun hs h1 h2, known]
  exact if_pos (by simp [plan])

end

/-! ## READ and LOOKUP -/

theorem execFtRead_of_running :
    execFtRead g s = .next ((s.showEntry g ((s.latch g R.ft_FT_INDEX).toNat % 1048576)).ftResult g 0
      ((s.latch g R.ft_FT_INDEX).toNat % 1048576)) := by
  simp [execFtRead, hrun, hs]

theorem execFtLookup_of_running :
    execFtLookup g s = match bankFind (s.ft.bankOf s.ft.active) (s.ftNew g).key with
      | none => .next (s.ftResult g 3 0)
      | some i => .next ((s.showEntry g i).ftResult g 0 i) := by
  unfold execFtLookup
  rw [hrun, hs]
  rfl

end

/-- An entry is shown with its result: the counters stand in FT_PKTS and FT_DROPS, and the table stays. -/
theorem State.showEntry_ftResult (s : State) (g : Agent) (i : Nat) :
    ((s.showEntry g i).ftResult g 0 i).FtShows g false 0 i ∧
    ((s.showEntry g i).ftResult g 0 i).latch g R.ft_FT_PKTS = w32 (s.ftEntry i).pkts ∧
    ((s.showEntry g i).ftResult g 0 i).latch g R.ft_FT_DROPS = w32 (s.ftEntry i).drops ∧ ((s.showEntry g i).ftResult g 0 i).ft = s.ft := by
  obtain ⟨pkts, drops, ft⟩ := s.showEntry_spec g i
  refine ⟨State.ftResult_shows _ _ _ _ _, ?_, ?_, (State.ftResult_ft _ _ _ _ _).trans ft⟩
  · rw [State.latch_ftResult, if_neg (by decide), pkts]
  · rw [State.latch_ftResult, if_neg (by decide), drops]

/-! ## Rings (R114) -/

theorem State.ringSlots_of_reg {s : State} {n l : Nat} (h : s.reg (R.ring_RING_SIZE n) = w32 l) (hl : l < 32) :
    s.ringSlots n = if l = 0 then 0 else 2 ^ l := by
  have size : (w32 l).toNat % 32 = l := by
    rw [w32, BitVec.toNat_ofNat]
    omega
  simp only [State.ringSlots, h, size]

/-- A ring set up with a size: its slots, and RING_HEAD at 0. -/
theorem State.ring_of_size (s : State) (n : Nat) {l : Nat} (h0 : l ≠ 0) (hl : l < 32) :
    ((s.setReg (R.ring_RING_SIZE n) (w32 l)).setReg (R.ring_RING_HEAD n) 0).ringSlots n = 2 ^ l ∧
    ((s.setReg (R.ring_RING_SIZE n) (w32 l)).setReg (R.ring_RING_HEAD n) 0).reg (R.ring_RING_HEAD n) = 0 := by
  have apart : R.ring_RING_SIZE n ≠ R.ring_RING_HEAD n := by simp [R.ring_RING_SIZE, R.ring_RING_HEAD]
  refine ⟨?_, by rw [State.reg_setReg, if_pos rfl]⟩
  rw [State.ringSlots_of_reg (l := l) _ hl, if_neg h0]
  rw [State.reg_setReg, if_neg apart, State.reg_setReg, if_pos rfl]

section
variable {s : State} {g : Agent} {n : Fin 64} {v : Word} (hrun : s.running = true) (hs : s.inService 1 8 = true)
include hrun hs

theorem execRingEnable_of_zero (hv : v.toNat % 32 = 0) : execRingEnable g n v s = .next (s.setReg (R.ring_RING_SIZE n.val) 0) := by
  simp [execRingEnable, hrun, hs, hv]

theorem execRingEnable_of_size (hv : v.toNat % 32 ≠ 0) :
    execRingEnable g n v s = if s.ringSlots n.val ≠ 0 ∨ v.toNat % 32 < 4 ∨ 16 < v.toNat % 32 then .next s
      else .next ((s.setReg (R.ring_RING_SIZE n.val) (w32 (v.toNat % 32))).setReg (R.ring_RING_HEAD n.val) 0) := by
  simp only [execRingEnable, hrun, hs, hv, Bool.and_self, Bool.not_true, Bool.false_eq_true, if_false]

end

/-! ## The statement -/

/-- Settles O27: each command by the case that its search of the banks falls into. -/
theorem flowTableIsWrittenReadAndCopied : Obligations.FlowTableIsWrittenReadAndCopied := by
  unfold Obligations.FlowTableIsWrittenReadAndCopied
  refine ⟨?commands, ?copied, ?rings⟩
  case commands =>
    intro g s hrun hs
    refine ⟨fun barred => ?_, fun hk hp => ⟨?_, ?_, ?_⟩, fun plan => ?_, fun h1 h2 => ⟨?_, ?_⟩, ?_, fun unknown => ?_, fun i known => ?_⟩
    · exact ⟨_, execFtAdd_of_barred hrun hs barred, s.ftResult_shows _ _ _ _, s.ftResult_ft _ _ _ _⟩
    · exact fun i known => execFtAdd_of_known hrun hs hk hp known
    · exact fun fresh full => execFtAdd_of_full hrun hs hk hp fresh full
    · exact fun i fresh room => ⟨execFtAdd_of_shadow_full hrun hs hk hp fresh room, fun b shadow =>
        execFtAdd_of_room hrun hs hk hp fresh room shadow⟩
    · exact ⟨_, execFtRemove_of_plan hrun hs plan, s.ftResult_shows _ _ _ _, s.ftResult_ft _ _ _ _⟩
    · exact fun unknown => execFtRemove_of_unknown hrun hs h1 h2 unknown
    · exact fun i known => ⟨execFtRemove_of_known hrun hs h1 h2 known, fun plan =>
        ⟨_, execFtRemove_of_known_plan hrun hs h1 h2 known plan, s.ftResult_shows _ _ _ _, s.ftResult_ft _ _ _ _⟩⟩
    · exact ⟨_, _, execFtRead_of_running hrun hs, rfl, s.showEntry_ftResult g _⟩
    · have run := execFtLookup_of_running hrun hs (g := g)
      rw [show bankFind (s.ft.bankOf s.ft.active) (s.ftNew g).key = none from unknown] at run
      exact ⟨_, run, s.ftResult_shows _ _ _ _, s.ftResult_ft _ _ _ _⟩
    · have run := execFtLookup_of_running hrun hs (g := g)
      rw [show bankFind (s.ft.bankOf s.ft.active) (s.ftNew g).key = some i from known] at run
      exact ⟨_, run, s.showEntry_ftResult g i⟩
  case copied =>
    intro s hc
    exact ⟨_, if_pos hc, rfl, rfl⟩
  case rings =>
    intro g n v s hrun hs
    refine ⟨fun hv => ⟨_, execRingEnable_of_zero (g := g) hrun hs hv, ?_, rfl⟩, fun h4 h16 hz => ?_, fun hv h => ?_⟩
    · exact State.ringSlots_of_reg (l := 0) (by rw [State.reg_setReg, if_pos rfl]; rfl) (by omega)
    · obtain ⟨slots, head⟩ := s.ring_of_size n.val (l := v.toNat % 32) (by omega) (by omega)
      exact ⟨_, (execRingEnable_of_size (g := g) hrun hs (by omega)).trans (if_neg (by omega)), slots, head, rfl⟩
    · exact (execRingEnable_of_size (g := g) hrun hs hv).trans (if_pos h)

end Sys2Proof.Machine
end

section
/-!
PROOF. Pair datagrams as the module sends them (R102, R206, R207, R212): one rule for a datagram to the peer, and the three rows that
send one.
-/

namespace Sys2Proof.Machine

/-! ## A datagram to the peer (R102, R206) -/

/-- STAMP of the next datagram: the raster's, or one past the last one sent where the raster's is not later. -/
def State.nextPairStamp (s : State) : Stamp :=
  match s.pair.lastStamp with
  | some l => if later s.stamp l then s.stamp else l + 1
  | none => s.stamp

/-- The UDP packet of a datagram that leaves a port for the peer. -/
def State.peerPacket (s : State) (p type : Nat) (body : List Byte) : List Byte :=
  let addr := s.pairAddr 0
  let v6 := !isV4 addr
  let b := s.pairBytes type s.nextPairStamp body
  udpPacket v6 (s.ownAddr p v6) addr (le s.pairLink 3 1) Config.pairTtl 47810 47810 (udpCheck v6 (s.ownAddr p v6) addr 47810 47810 b) b

/-- A datagram has gone to the peer through the pair-link port in use; without one UP nothing has left. -/
structure State.PairSent (s t : State) (type : Nat) (body : List Byte) : Prop where
  stamp  : t.pair.lastStamp = some s.nextPairStamp
  silent : s.pairPort = none → t.wire = s.wire ∧ t.ports = s.ports
  sends  : ∀ p, s.pairPort = some p →
    s.Sends t p (ipLine (s.peerPacket p type body).length) (.pair 0 p (s.peerPacket p type body))

theorem State.PairSent.of_same {s t u : State} {type : Nat} {body : List Byte} (h : s.PairSent t type body) (hw : u.wire = t.wire)
    (hp : u.ports = t.ports) (hr : u.pair = t.pair) : s.PairSent u type body where
  stamp := by rw [hr, h.stamp]
  silent none := by rw [hw, hp]; exact h.silent none
  sends p some := (h.sends p some).of_same hw hp

theorem State.port_up_of_pairPort {s : State} {p : Nat} (h : s.pairPort = some p) : (s.port p).state = .up := by
  simpa using List.find?_some h

/-- What sending to the peer is: the STAMP is kept, and the packet leaves the pair-link port in use. -/
theorem State.sendPair_eq (s : State) (type : Nat) (body : List Byte) :
    s.sendPair 0 type body =
      let u := s.modPair fun p => { p with lastStamp := some s.nextPairStamp }
      match s.pairPort with
      | none => u
      | some p => u.sendOther p (ipLine (s.peerPacket p type body).length) (.pair 0 p (s.peerPacket p type body)) := by
  unfold State.sendPair State.sendPairTo
  rfl

section
variable {s : State} {f : Pair → Pair} (hl : (f s.pair).lastStamp = s.pair.lastStamp) (ht : (f s.pair).term = s.pair.term)
include hl

theorem State.nextPairStamp_modPair : (s.modPair f).nextPairStamp = s.nextPairStamp := by
  unfold State.nextPairStamp
  rw [State.modPair_pair, hl]
  rfl

include ht

theorem State.peerPacket_modPair (p type : Nat) (body : List Byte) : (s.modPair f).peerPacket p type body = s.peerPacket p type body := by
  have bytes (stamp : Stamp) : (s.modPair f).pairBytes type stamp body = s.pairBytes type stamp body := by
    unfold State.pairBytes
    rw [State.modPair_pair, ht]
    rfl
  unfold State.peerPacket
  rw [State.nextPairStamp_modPair hl, bytes]
  rfl

/-- The pair block changes before it sends, but for the last STAMP and the TERM: the datagram goes to the peer, its STAMP is kept, and
but for TX_FRAMES nothing else changes. -/
theorem State.sendPair_sent (type : Nat) (body : List Byte) :
    let t := (s.modPair f).sendPair 0 type body
    s.PairSent t type body ∧ t.pair = { f s.pair with lastStamp := t.pair.lastStamp } ∧
      t = { s with wire := t.wire, ports := t.ports, regs := t.regs, pair := t.pair } := by
  let u := (s.modPair f).modPair fun p => { p with lastStamp := some s.nextPairStamp }
  have run := (s.modPair f).sendPair_eq type body
  rw [State.nextPairStamp_modPair hl, show (s.modPair f).pairPort = s.pairPort from rfl] at run
  dsimp only
  cases hp : s.pairPort with
  | none =>
    rw [hp] at run
    rw [run]
    exact ⟨⟨rfl, fun _ => ⟨rfl, rfl⟩, fun _ h => (nomatch hp.symm.trans h)⟩, rfl, rfl⟩
  | some p =>
    rw [hp] at run
    dsimp only at run
    rw [State.peerPacket_modPair hl ht] at run
    obtain ⟨sent, -, -, rest⟩ := State.sendOther_of_up (s := u) (State.port_up_of_pairPort hp)
      (ipLine (s.peerPacket p type body).length) (.pair 0 p (s.peerPacket p type body))
    have pair : (u.sendOther p (ipLine (s.peerPacket p type body).length) (.pair 0 p (s.peerPacket p type body))).pair = u.pair := by
      rw [rest]
    rw [run]
    refine ⟨⟨by rw [pair]; rfl, fun h => (nomatch hp.symm.trans h), fun q hq => ?_⟩, ?_, ?_⟩
    · cases hp.symm.trans hq
      exact sent
    · rw [pair]
      rfl
    · rw [rest]
      rfl

end

/-! ## The rows that send (R207, R212) -/

theorem execHeartbeatTx_of_due {s r : State} (e : s.pairReadyCheck = r) (hr : r.pair.role ≠ .single)
    (hd : r.due (r.pair.lastTx + us (r.pairField 4 2)) = true ∨ r.pairFlags ≠ r.pair.lastFlags) :
    execHeartbeatTx s = .next ((r.modPair fun p => { p with lastTx := r.now, lastFlags := r.pairFlags }).sendPair 0 1
      (leBytes 1 r.pairFlags.toNat ++ [0, 0, 0] ++ beBytes 8 r.im.configId.toNat)) := by
  subst e
  exact if_pos (c := _ ∧ _) ⟨hr, hd⟩

section
variable {s : State} {g : Agent} (hrun : s.running = true) (hs : s.inService 4 8 = true)
include hrun hs

theorem execPairSwitch_of_ready
    (h : s.pair.role = .active ∧ s.pair.peerAt.isSome = true ∧ s.pair.silent = false ∧ bit s.pair.peerFlags.toNat 1 = true) :
    execPairSwitch g s = .next (((s.modPair fun p =>
      { p with role := .switching, yield := true, switchH := some (s.stamp + s.stampMs 50), switchOk := false }).sendPair 0 3
        (beBytes 8 (s.stamp + s.stampMs 50).toNat)).event R.pair_EVENTS 2) := by
  have ready : s.pair.role = .active ∧ s.pair.peerAt.isSome = true ∧ (!s.pair.silent) = true ∧ bit s.pair.peerFlags.toNat 1 = true := by
    simpa using h
  unfold execPairSwitch
  rw [hrun, hs]
  exact if_pos ready

theorem execPairSwitch_of_refused
    (h : ¬(s.pair.role = .active ∧ s.pair.peerAt.isSome = true ∧ s.pair.silent = false ∧ bit s.pair.peerFlags.toNat 1 = true)) :
    execPairSwitch g s = .next (s.count R.pair_SWITCH_REFUSED) := by
  simp [execPairSwitch, hrun, hs, h]

end

/-- Settles O34: each row sends by the one rule for a datagram to the peer. -/
theorem pairDatagramsAreSent : Obligations.PairDatagramsAreSent := by
  unfold Obligations.PairDatagramsAreSent
  intro sends
  have sent {r t : State} {type : Nat} {body : List Byte} (h : r.PairSent t type body) : sends r t type body :=
    ⟨h.stamp, h.silent, h.sends⟩
  refine ⟨?heartbeat, ?records, ?switch⟩
  case heartbeat =>
    intro s r hr hd
    obtain ⟨h, pair, rest⟩ := State.sendPair_sent (s := r) (f := fun p => { p with lastTx := r.now, lastFlags := r.pairFlags }) rfl rfl 1
      (leBytes 1 r.pairFlags.toNat ++ [0, 0, 0] ++ beBytes 8 r.im.configId.toNat)
    exact ⟨_, execHeartbeatTx_of_due rfl hr hd, sent h, pair, rest⟩
  case records =>
    intro s ha hu recs
    obtain ⟨h, pair, rest⟩ := State.sendPair_sent (s := s) (f := fun p => { p with unsent := [] }) rfl rfl 2
      (beBytes 2 recs.length ++ [0, 0] ++ recs.flatMap fun r => r.bytes)
    exact ⟨_, if_pos ⟨ha, hu⟩, sent h, pair, rest⟩
  case switch =>
    intro g s hrun hs ok h
    refine ⟨fun ready => ?_, fun refused => ?_⟩
    · obtain ⟨sending, pair, -⟩ := State.sendPair_sent (s := s)
        (f := fun p => { p with role := .switching, yield := true, switchH := some h, switchOk := false }) rfl rfl 3 (beBytes 8 h.toNat)
      refine ⟨_, execPairSwitch_of_ready (g := g) hrun hs ready, sent (sending.of_same ?_ ?_ ?_), ?_⟩
      · exact State.event_wire _ _ _
      · exact State.event_ports _ _ _
      · exact State.event_pair _ _ _
      · rw [State.event_pair]
        exact pair
    · exact ⟨_, execPairSwitch_of_refused (g := g) hrun hs refused, State.toNat_reg_count _ _,
        fun b hb => (State.reg_count _ _ _).trans (if_neg hb), rfl⟩

end Sys2Proof.Machine
end

section
/-!
PROOF. What coding and packetising leave of the ingress (R116 to R123, R302): of the inputs of all channels, only the proxy sums of
the channel that is coded.
-/

namespace Sys2Proof.Machine

/-! ## Units are read from their own part -/

section
variable {s t : State} (n : Nat)

theorem State.chIn_of_chanIn (h : t.chanIn = s.chanIn) : t.chIn n = s.chIn n := by rw [State.chIn, h, State.chIn]
theorem State.surface_of_surfaces (h : t.surfaces = s.surfaces) : t.surface n = s.surface n := by rw [State.surface, h, State.surface]
theorem State.chan_of_chans (h : t.chans = s.chans) : t.chan n = s.chan n := by rw [State.chan, h, State.chan]

end

/-! ## The relation -/

/-- Of the ingress nothing changes but the proxy sums of channel `c`. -/
structure State.InputKept (s t : State) (c : Nat) : Prop where
  other : ∀ d, d ≠ c → t.chIn d = s.chIn d
  own   : t.chIn c = { s.chIn c with proxies := (t.chIn c).proxies }

section
variable {c : Nat}

theorem State.InputKept.refl (s : State) : s.InputKept s c := ⟨fun _ _ => rfl, rfl⟩

theorem State.InputKept.trans {s t u : State} (h : s.InputKept t c) (k : t.InputKept u c) : s.InputKept u c where
  other d hd := (k.other d hd).trans (h.other d hd)
  own := by rw [k.own, h.own]

theorem Keeps.inputKept {A : Nat} {s t : State} (h : Keeps A s t) (hA : A.testBit (Part.bit .chanIn) = false) : s.InputKept t c := by
  have same (d : Nat) : t.chIn d = s.chIn d := State.chIn_of_chanIn d (h.same .chanIn hA)
  exact ⟨fun d _ => same d, by rw [same]⟩

theorem State.InputKept.modProxies (s : State) (f : ChanIn → List (Nat × Sparse Nat)) :
    s.InputKept (s.modChIn c fun x => { x with proxies := f x }) c :=
  ⟨fun d hd => by simp [hd], by simp⟩

theorem State.InputKept.foldl {β : Type} {f : State → β → State} (hf : ∀ (y : State) b, y.InputKept (f y b) c) (l : List β) (s : State) :
    s.InputKept (l.foldl f s) c := by
  induction l generalizing s with
  | nil => exact .refl s
  | cons b r ih => exact (hf s b).trans (ih (f s b))

theorem State.InputKept.under {f : State → State} (hf : ∀ y : State, y.InputKept (f y) c) (s : State) (n : Nat) : s.InputKept (s.under c n f) c := by
  have plan (y : State) (g : Chan → Chan) : y.InputKept (y.modChan c g) c :=
    (State.modChan_keeps rfl (.refl 0x800000 y)).inputKept rfl
  unfold State.under
  split
  · exact hf s
  · dsimp only
    split
    · exact hf s
    · exact ((plan s _).trans (hf _)).trans (plan _ _)

end

/-- A branch. -/
theorem Keeps.ite {A : Nat} {z a b : State} {p : Prop} [Decidable p] (h : Keeps A z a) (k : Keeps A z b) :
    Keeps A z (if p then a else b) := by
  split
  · exact h
  · exact k

/-! ## The rind (R178, R302) -/

section
variable (s : State) (c : Nat)

theorem State.channelProxy_inputKept (f : TxFrame) : s.InputKept (s.channelProxy c f) c := by
  unfold State.channelProxy
  split
  · exact .refl s
  · exact ((State.admitRecord_keeps rfl (Keeps.freshMore rfl (.refl 0x4c00000045 s))).inputKept rfl).trans (.modProxies _ _)

theorem State.closeFrame_inputKept : s.InputKept (s.closeFrame c) c := by
  unfold State.closeFrame
  split
  · exact .refl s
  next f rest _ =>
    split
    · exact .refl s
    · split
      · exact .refl s
      · refine .under (fun y => ?_) s f.number
        extract_lets sent x r recorded noted closed
        have before : Keeps 0xc800000 y sent := State.chanSend_keeps rfl (.refl _ y)
        have noting : Keeps 0x1c800000 sent noted := State.modPair_keeps rfl (State.modRind_keeps rfl (.refl _ sent))
        exact (before.inputKept rfl).trans <| (noting.inputKept rfl).trans <|
          ((State.modChan_keeps rfl (.refl 0x800000 noted)).inputKept rfl).trans <| (State.channelProxy_inputKept _ c f).trans <|
            (State.frameResolved_keeps rfl (.refl 0x481500c005 _)).inputKept rfl

theorem State.resolve_inputKept (j : Job) (o : Outcome3) : s.InputKept (s.resolve c j o) c := by
  unfold State.resolve
  extract_lets e col g pos n zone how sent void marked closing noted lacking opened head record recon counted voided zoned rtp carried
    after out lined
  have h1 : Keeps 0x4c1d80c045 s opened :=
    State.openRecord_keeps rfl <| Keeps.ite
      (State.modChan_keeps rfl (State.modFrame_keeps rfl (State.modChan_keeps rfl (State.modJob_keeps rfl (.refl _ s)))))
      (State.modFrame_keeps rfl (State.modChan_keeps rfl (State.modJob_keeps rfl (.refl _ s))))
  have h2 : Keeps 0x4c1d80c045 s voided :=
    Keeps.ite (State.count_keeps rfl (State.count_keeps rfl (State.count_keeps rfl h1)))
      (State.count_keeps rfl (State.count_keeps rfl h1))
  have h3 : Keeps 0x4c1d80c045 s zoned := Keeps.ite (State.count_keeps rfl h2) h2
  have h4 : Keeps 0x4c1d80c045 s carried := Keeps.ite (State.packRecord_keeps rfl h3) (State.chanSend_keeps rfl h3)
  have h5 : Keeps 0x4c1d80c045 s out :=
    Keeps.ite (State.count_keeps rfl h1) (State.pressFollows_keeps rfl (State.modLineRecord_keeps rfl h4))
  have h6 : Keeps 0x4c1d80c045 s lined := by
    unfold lined
    split
    · exact Keeps.ite (State.closeLine_keeps rfl h5) h5
    · exact h5
  exact (h6.inputKept rfl).trans <| (lined.closeFrame_inputKept c).trans <| (State.dropJobs_keeps rfl (.refl 0x800000 _)).inputKept rfl

theorem State.handOver_inputKept (j : Job) : s.InputKept (s.handOver c j) c := by
  unfold State.handOver
  split
  · exact s.resolve_inputKept c j .void
  · extract_lets x e late
    split
    · exact s.resolve_inputKept c j _
    · have noted : Keeps 0x4800000005 s late := State.event_keeps rfl (State.event_keeps rfl (State.count_keeps rfl (.refl _ s)))
      exact ((State.curdLate_keeps rfl noted).inputKept rfl).trans (State.resolve_inputKept _ c j .void)

theorem State.settleIn_inputKept (j : Job) : s.InputKept (s.settleIn c j) c := by
  unfold State.settleIn
  extract_lets first counted fenced
  split
  · exact .refl s
  · split
    · exact .refl s
    · exact s.resolve_inputKept c j .void
    · have fencing : Keeps 0x4000001 s fenced := State.modRind_keeps rfl (State.count_keeps rfl (.refl _ s))
      exact (fencing.inputKept rfl).trans (fenced.resolve_inputKept c j .void)
    · split
      · exact .refl s
      · split
        · exact s.handOver_inputKept c j
        · exact s.resolve_inputKept c j .skipped
        · exact s.resolve_inputKept c j .void

theorem State.settleJob_inputKept (j : Job) : s.InputKept (s.settleJob c j) c := by
  unfold State.settleJob
  split
  · exact .refl s
  next j _ =>
    split
    · exact .refl s
    · refine .under (fun y => ?_) s j.frame
      extract_lets lacking
      have h : Keeps 0x800000 y lacking := Keeps.ite (State.modJob_keeps rfl (State.charge_keeps rfl (.refl _ y))) (.refl _ y)
      split
      · exact h.inputKept rfl
      · exact (h.inputKept rfl).trans (lacking.settleIn_inputKept c _)

theorem State.settle_inputKept : s.InputKept (s.settle c) c := .foldl (fun y j => y.settleJob_inputKept c j) _ s

/-! ## The harmless state of a channel (R142) -/

theorem State.finishFrame_inputKept (f : TxFrame) : s.InputKept (s.finishFrame c f) c := by
  unfold State.finishFrame
  refine ((State.modFrame_keeps rfl (.refl 0x800000 s)).inputKept rfl).trans (.under (fun y => ?_) _ f.number)
  refine .foldl (fun y line => .foldl (fun y e => ?_) _ y) _ y
  dsimp only
  split
  all_goals
    split
    · exact y.resolve_inputKept c _ .void
    · exact .refl y

theorem State.finishFrames_inputKept : s.InputKept (s.finishFrames c) c :=
  (State.InputKept.foldl (fun y f => y.finishFrame_inputKept c f) _ s).trans ((State.modChan_keeps rfl (.refl 0x800000 _)).inputKept rfl)

theorem State.channelHarmless_inputKept (reason cls : Nat) : s.InputKept (s.channelHarmless c reason cls) c := by
  unfold State.channelHarmless
  split
  · exact .refl s
  · split
    · exact .refl s
    · exact .refl s
    · exact (s.finishFrames_inputKept c).trans
        ((State.beginEov_keeps rfl (State.modChan_keeps rfl (.refl 0x8800000 _))).inputKept rfl)

end

/-- A packet that is formed leaves the state of every channel. -/
theorem State.chanState_chanSend (s : State) (c d kind frame rtp : Nat) (stamp : Stamp) (body : List Byte) :
    ((s.chanSend c kind frame rtp stamp body).chan d).state = (s.chan d).state := by
  have enqueue (y : State) (q : QPacket) : ((y.enqueue q).chan d).state = (y.chan d).state := by
    unfold State.enqueue State.modGap
    dsimp only
    split
    · rfl
    · by_cases h : d = q.channel
      · simp only [h, State.modChan_eq, State.chan_setChan, if_true]
        split <;> rfl
      · simp [h]
  have queued (f : Bool → QPacket) (l : List Bool) (y : State) :
      ((l.foldl (fun y b => y.enqueue (f b)) y).chan d).state = (y.chan d).state := by
    induction l generalizing y with
    | nil => rfl
    | cons b r ih => exact (ih _).trans (enqueue y _)
  unfold State.chanSend
  refine (queued _ _ _).trans ?_
  by_cases h : d = c <;> simp [h]

theorem State.chanState_beginEov (s : State) (c reason cls : Nat) (left before : Option Nat) :
    ((s.beginEov c reason cls left before).chan c).state = (s.chan c).state := by
  unfold State.beginEov State.sendEov
  dsimp only
  split
  · simp
  · rw [State.modChan_eq, State.chan_setChan, if_pos rfl]
    dsimp only
    rw [State.chanState_chanSend]
    simp

/-- Where the output gate is open and the module sends, a channel that is not off is in its harmless state afterwards. -/
theorem State.channelHarmless_state {s : State} {c : Nat} (hg : s.startup.gateOpen = true) (hs : s.sends = true)
    (ho : (s.chan c).state ≠ .off) (reason cls : Nat) : ((s.channelHarmless c reason cls).chan c).state = .harmless := by
  unfold State.channelHarmless
  rw [if_neg (by simp [hg, hs])]
  split
  next h => exact absurd h ho
  next h => exact h
  · rw [State.chanState_beginEov]
    simp

end Sys2Proof.Machine
end

section
/-!
PROOF. The time-outs of inputs: input loss, the gap of a stripe, lost numbers of a merge and silent paths (R116, R117, R120, R121, R142).
-/

namespace Sys2Proof.Machine

/-! ## An event and an entry about an output -/

section
variable (u : State) (e m ctrl dp : Nat) (f : FaultClass) (outs : List (Output × Nat)) (data : List Byte)

theorem State.eventLogOut_keeps : Keeps 0x4800000005 u ((u.event e m).logOut f ctrl dp outs data) :=
  State.logOut_keeps rfl (State.event_keeps rfl (.refl _ u))

/-- Once the units of the ingress have changed, the entry joins the intake. -/
theorem State.eventLogOut_logs {s : State} (k : Keeps 0x600000 s u) (hrun : s.running = true) :
    s.Logs ((u.event e m).logOut f ctrl dp outs data) f :=
  ((State.logOut_logsOne (((State.event_keeps rfl (.refl 0x4800000005 u)).running rfl (k.running rfl hrun))) f ctrl dp outs data).logs.after
    (State.event_keeps rfl (.refl 0x4800000005 u)) rfl).after k rfl

end

/-! ## Input loss (R116, R142) -/

/-- The input is lost, and the ledger is told so. -/
def State.inputLost (s : State) (c last : Nat) : State :=
  ((s.modChIn c fun x => { x with lossStands := true, input := 2 }).event (R.ig_EVENTS (s.chanTile c)) 1).chanLog F.INPUT_LOSS c
    (leBytes 4 last)

theorem execInputLossTimeout_of_silent {c : Fin 48} {s : State} (hon : s.chanOn c.val = true) (hg : s.startup.gateOpen = true)
    (hl : (s.chIn c.val).lossStands = false)
    (hd : s.due (max (s.chIn c.val).watchFrom ((s.chIn c.val).lastAccept.getD 0) + 2 * s.chanPeriod c.val) = true) :
    ∃ last, execInputLossTimeout c s = .next ((s.inputLost c.val last).channelHarmless c.val 3 F.INPUT_LOSS.code) :=
  ⟨_, if_pos (c := _ ∧ _) ⟨hon, hg, hl, hd⟩⟩

section
variable (s : State) (c last : Nat)

theorem State.inputLost_keeps : Keeps 0x4800200005 s (s.inputLost c last) :=
  State.chanLog_keeps rfl (State.event_keeps rfl (State.modChIn_keeps rfl (.refl _ s)))

theorem State.chIn_inputLost (d : Nat) :
    (s.inputLost c last).chIn d = if d = c then { s.chIn c with lossStands := true, input := 2 } else s.chIn d :=
  (State.chIn_of_chanIn d ((State.eventLogOut_keeps _ _ _ _ _ _ _ _).same .chanIn rfl)).trans (State.chIn_setChIn _ _ _ _)

theorem State.inputLost_logs (hrun : s.running = true) : s.Logs (s.inputLost c last) F.INPUT_LOSS :=
  State.eventLogOut_logs _ _ _ _ _ _ _ _ (State.modChIn_keeps rfl (.refl _ s)) hrun

end

/-! ## The gap of a stripe (R121) -/

/-- Of the ingress only channel `c` changes, and of it only the stripe lines of the frame in progress: those of `ls` are closed, and
none is opened. -/
structure State.LinesClosed (s t : State) (c : Nat) (ls : List LineIn) : Prop where
  other : ∀ d, d ≠ c → t.chIn d = s.chIn d
  frame : ∀ f, (s.chIn c).frame = some f → ∃ e, (t.chIn c).frame = some e ∧ e.number = f.number ∧ e.rtp = f.rtp ∧ e.placed = f.placed ∧
    ∀ x ∈ e.open_, x ∈ f.open_ ∧ x ∉ ls

theorem State.LinesClosed.keep {A : Nat} {s t u : State} {c : Nat} {ls : List LineIn} (h : s.LinesClosed t c ls) (k : Keeps A t u)
    (hA : A.testBit (Part.bit .chanIn) = false) : s.LinesClosed u c ls := by
  have same (d : Nat) : u.chIn d = t.chIn d := State.chIn_of_chanIn d (k.same .chanIn hA)
  exact ⟨fun d hd => (same d).trans (h.other d hd), fun f hf => by rw [same]; exact h.frame f hf⟩

theorem State.chIn_modFrameIn (s : State) (c d : Nat) (g : FrameIn → FrameIn) :
    (s.modFrameIn c g).chIn d = if d = c then { s.chIn c with frame := (s.chIn c).frame.map g } else s.chIn d :=
  State.chIn_setChIn _ _ _ _

theorem State.frame_modFrameIn {s : State} {c : Nat} {f : FrameIn} (hf : (s.chIn c).frame = some f) (g : FrameIn → FrameIn) :
    ((s.modFrameIn c g).chIn c).frame = some (g f) := by
  rw [State.chIn_modFrameIn, if_pos rfl, hf]
  rfl

theorem State.closeStripeLine_closes (s : State) (c : Nat) (l : LineIn) : s.LinesClosed (s.closeStripeLine c l.line l.stripe) c [l] := by
  unfold State.closeStripeLine
  split
  next hn => exact ⟨fun _ _ => rfl, fun f hf => nomatch hn.symm.trans hf⟩
  next =>
    extract_lets g lack ks t closed
    refine State.LinesClosed.keep (t := closed) ⟨fun d hd => ?_, fun f hf => ?_⟩
      (Keeps.foldl (A := 0x4000800001) (fun y k h => ?_) (.refl _ closed)) rfl
    · rw [State.chIn_modFrameIn, if_neg hd]
    · refine ⟨_, State.frame_modFrameIn hf _, rfl, rfl, rfl, fun x hx => ?_⟩
      obtain ⟨inside, apart⟩ := List.mem_filter.mp hx
      refine ⟨inside, fun hl => ?_⟩
      rw [List.mem_singleton.mp hl] at apart
      simp at apart
    · dsimp only
      split
      · exact State.closeCurd_keeps rfl (State.logRated_keeps rfl (State.count_keeps rfl h))
      · exact State.logRated_keeps rfl (State.count_keeps rfl h)

theorem State.LinesClosed.foldl (c : Nat) (ls : List LineIn) (s : State) :
    s.LinesClosed (ls.foldl (fun s l => s.closeStripeLine c l.line l.stripe) s) c ls := by
  induction ls generalizing s with
  | nil => exact ⟨fun _ _ => rfl, fun f hf => ⟨f, hf, rfl, rfl, rfl, fun x hx => ⟨hx, List.not_mem_nil⟩⟩⟩
  | cons l r ih =>
    have first := s.closeStripeLine_closes c l
    have rest := ih (s.closeStripeLine c l.line l.stripe)
    refine ⟨fun d hd => (rest.other d hd).trans (first.other d hd), fun f hf => ?_⟩
    obtain ⟨g, hg, number, rtp, placed, lines⟩ := first.frame f hf
    obtain ⟨e, he, number', rtp', placed', lines'⟩ := rest.frame g hg
    refine ⟨e, he, number'.trans number, rtp'.trans rtp, placed'.trans placed, fun x hx => ?_⟩
    obtain ⟨inside, apart⟩ := lines' x hx
    obtain ⟨was, ne⟩ := lines x inside
    exact ⟨was, fun h => (List.mem_cons.mp h).elim (fun h => ne (List.mem_singleton.mpr h)) apart⟩

theorem execStripeGapTimeout_of_due {c : Fin 48} {f : FrameIn} {b : Nat} {s : State} (hf : (s.chIn c.val).frame = some f)
    (hb : (s.chIn c.val).lastAccept = some b) (hd : s.due (b + us (s.gapUs c.val)) = true) :
    execStripeGapTimeout c s = .next ((f.open_.reverse.foldl (fun s l => s.closeStripeLine c.val l.line l.stripe) s).settle c.val) := by
  unfold execStripeGapTimeout
  dsimp only
  rw [hf, hb]
  exact if_pos hd

/-! ## Lost numbers of a merge (R117) -/

section
variable (m : Merge) (upA upB : Bool) (skew now : Nat)

/-- What is lost leaves the tracker: the rest is what is not lost. -/
theorem Merge.missing_forget_lost : (m.forget (m.lost upA upB skew now)).missing =
    m.missing.filter fun x => !((x.passedA || !upA) && (x.passedB || !upB) || decide (x.since + us skew ≤ now)) := by
  unfold Merge.forget Merge.lost
  refine List.filter_congr fun x hx => ?_
  rw [List.contains_eq_mem]
  simp [hx]

theorem Merge.mem_missing_forget_lost {y : Missing} (h : y ∈ (m.forget (m.lost upA upB skew now)).missing) :
    y ∈ m.missing ∧ now < y.since + us skew := by
  rw [Merge.missing_forget_lost, List.mem_filter] at h
  obtain ⟨hy, keep⟩ := h
  have young : ¬y.since + us skew ≤ now := by
    intro old
    simp [old] at keep
  exact ⟨hy, by omega⟩

theorem Merge.length_lost : (m.lost upA upB skew now).length = m.missing.length - (m.forget (m.lost upA upB skew now)).missing.length := by
  have parts := List.length_eq_length_filter_add (l := m.missing) fun x =>
    (x.passedA || !upA) && (x.passedB || !upB) || decide (x.since + us skew ≤ now)
  rw [Merge.missing_forget_lost]
  exact (Nat.sub_eq_of_eq_add parts).symm

end

/-- What a loss of numbers of a tracker makes of it and of MERGE_LOST of its tile. -/
structure State.NumbersLost (s t : State) (m n : Merge) (tile skew : Nat) : Prop where
  missing : ∀ y ∈ n.missing, y ∈ m.missing ∧ s.now < y.since + us skew
  high    : n.high = m.high
  counted : (t.reg (R.ig_MERGE_LOST tile)).toNat =
    min 0xFFFFFFFF ((s.reg (R.ig_MERGE_LOST tile)).toNat + (m.missing.length - n.missing.length))

theorem State.numbersLost (s : State) {u t : State} (m : Merge) (upA upB : Bool) {tile skew : Nat} (hu : u.regs = s.regs)
    (ht : t.regs = (u.countBy (R.ig_MERGE_LOST tile) (m.lost upA upB skew s.now).length).regs) :
    s.NumbersLost t m (m.forget (m.lost upA upB skew s.now)) tile skew where
  missing _ hy := m.mem_missing_forget_lost upA upB skew s.now hy
  high := rfl
  counted := by
    rw [State.reg_of_regs _ ht, State.reg_countBy, if_pos rfl, toNat_w32_min, State.reg_of_regs _ hu, Merge.length_lost]

theorem State.chanLost_spec (s : State) (c : Nat) : ∃ n, s.NumbersLost (s.chanLost c) (s.chIn c).merge n (s.chanTile c) (s.skewUs c) ∧
    ∀ d, (s.chanLost c).chIn d = if d = c then { s.chIn c with merge := n } else s.chIn d :=
  ⟨_, s.numbersLost _ _ _ rfl rfl, fun _ => State.chIn_setChIn _ _ _ _⟩

theorem State.surfLost_spec (s : State) (p : SurfPlan) (v : Nat) : ∃ n, s.NumbersLost (s.surfLost p v) (s.surface v).merge n p.tile p.skewUs ∧
    ∀ d, (s.surfLost p v).surface d = if d = v then { s.surface v with merge := n } else s.surface d := by
  unfold State.surfLost
  extract_lets m up lost counted
  have told : Keeps 0x4000000000 counted
      (lost.foldl (fun s x => if m.bad.any fun e => e.1 == x.seq then s.surfLog F.CHECK_FAIL p v (leBytes 4 x.seq) else s) counted) :=
    Keeps.foldl (fun y x h => Keeps.ite (State.surfLog_keeps rfl h) h) (.refl _ counted)
  exact ⟨_, s.numbersLost _ _ _ rfl (told.same .regs rfl), fun d =>
    (State.surface_of_surfaces d (told.same .surfaces rfl)).trans (State.surface_setSurface _ _ _ _)⟩

theorem execMergeSkewTimeout_channel {c : Fin 48} {n : Nat} {x : Missing} {s : State}
    (hx : ((s.chIn c.val).merge.missing.find? fun y => y.seq == n) = some x) (hd : s.due (x.since + us (s.skewUs c.val)) = true) :
    execMergeSkewTimeout (.channel c) n s = .next (s.chanLost c.val) := by
  unfold execMergeSkewTimeout
  dsimp only
  rw [hx]
  exact if_pos hd

theorem execMergeSkewTimeout_surface {v n : Nat} {p : SurfPlan} {x : Missing} {s : State} (hp : s.surfPlan v = some p)
    (hx : ((s.surface v).merge.missing.find? fun y => y.seq == n) = some x) (hd : s.due (x.since + us p.skewUs) = true) :
    execMergeSkewTimeout (.surface v) n s = .next (s.surfLost p v) := by
  unfold execMergeSkewTimeout
  dsimp only
  rw [hp, hx]
  exact if_pos hd

/-! ## Silent paths (R120) -/

/-- A path that is present no more, its loss logged. -/
def PathWatch.gone (w : PathWatch) : PathWatch := { w with ok := false, lost := true }

/-- One path is present no more. -/
def ChanIn.losePath (x : ChanIn) (pathB : Bool) : ChanIn := if pathB then { x with pathB := x.pathB.gone } else { x with pathA := x.pathA.gone }
def Surface.losePath (x : Surface) (pathB : Bool) : Surface := if pathB then { x with pathB := x.pathB.gone } else { x with pathA := x.pathA.gone }

/-- A path that has fallen silent while the other delivers. -/
def silentPath (a b : PathWatch) (startAt now : Nat) (pathB : Bool) : Bool := if pathB then b.silent a startAt now else a.silent b startAt now

/-- A path of a channel's input, or of a surface's, is lost, and the ledger is told so. -/
def State.channelPathLost (s : State) (c : Nat) (pathB : Bool) : State :=
  let u := s.modChIn c fun x => x.losePath pathB
  (u.event (R.ig_EVENTS (u.chanTile c)) 4).chanLog F.MERGE_PATH_LOSS c (leBytes 1 (b2n pathB))
def State.surfacePathLost (s : State) (p : SurfPlan) (v : Nat) (pathB : Bool) : State :=
  ((s.modSurface v fun x => x.losePath pathB).event (R.ig_EVENTS p.tile) 4).surfLog F.MERGE_PATH_LOSS p v (leBytes 1 (b2n pathB))

theorem State.chIn_channelPathLost (s : State) (c d : Nat) (pathB : Bool) :
    (s.channelPathLost c pathB).chIn d = if d = c then (s.chIn c).losePath pathB else s.chIn d :=
  (State.chIn_of_chanIn d ((State.eventLogOut_keeps _ _ _ _ _ _ _ _).same .chanIn rfl)).trans (State.chIn_setChIn _ _ _ _)

theorem State.surface_surfacePathLost (s : State) (p : SurfPlan) (v d : Nat) (pathB : Bool) :
    (s.surfacePathLost p v pathB).surface d = if d = v then (s.surface v).losePath pathB else s.surface d :=
  (State.surface_of_surfaces d ((State.eventLogOut_keeps _ _ _ _ _ _ _ _).same .surfaces rfl)).trans (State.surface_setSurface _ _ _ _)

section
variable {s : State} {pathB : Bool}

theorem execPathSilenceTimeout_channel {c : Fin 48} (hm : s.chanMerged c.val = true)
    (hs : silentPath (s.chIn c.val).pathA (s.chIn c.val).pathB (s.chIn c.val).merge.startAt s.now pathB = true) :
    execPathSilenceTimeout (.channel c) pathB s = .next (s.channelPathLost c.val pathB) := if_pos (c := _ ∧ _) ⟨hm, hs⟩

theorem execPathSilenceTimeout_surface {v : Nat} {p : SurfPlan} (hp : s.surfPlan v = some p) (hm : s.surfMerged v = true)
    (hs : silentPath (s.surface v).pathA (s.surface v).pathB (s.surface v).merge.startAt s.now pathB = true) :
    execPathSilenceTimeout (.surface v) pathB s = .next (s.surfacePathLost p v pathB) := by
  unfold execPathSilenceTimeout
  dsimp only
  rw [hp]
  exact if_pos (c := _ ∧ _) ⟨hm, hs⟩

end

/-! ## The statement -/

/-- Settles O28: each time-out by what it makes of its own channel, surface or tracker; coding the rest of a channel's frames keeps its
input. -/
theorem inputTimeoutsOfChannelsAndPaths : Obligations.InputTimeoutsOfChannelsAndPaths := by
  unfold Obligations.InputTimeoutsOfChannelsAndPaths
  refine ⟨?loss, ?gap, ?channelSkew, ?surfaceSkew, ?channelPath, ?surfacePath⟩
  case loss =>
    intro c s hon hg hl hd
    obtain ⟨last, run⟩ := execInputLossTimeout_of_silent hon hg hl hd
    have lost := s.inputLost_keeps c.val last
    have coded := (s.inputLost c.val last).channelHarmless_inputKept c.val 3 F.INPUT_LOSS.code
    have own := coded.own
    rw [s.chIn_inputLost c.val last, if_pos rfl] at own
    refine ⟨_, run, by rw [own], by rw [own], by rw [own], by rw [own], fun d hd => ?_, fun hrun => ?_, fun hs ho => ?_⟩
    · rw [coded.other d hd, s.chIn_inputLost c.val last, if_neg hd]
    · exact (s.inputLost_logs c.val last hrun).keep (State.channelHarmless_keeps rfl (.refl 0x4c1da0c045 _)) rfl
    · refine State.channelHarmless_state ?_ ?_ ?_ 3 F.INPUT_LOSS.code
      · rw [lost.same .startup rfl]
        exact hg
      · unfold State.sends
        rw [lost.same .pair rfl]
        exact hs
      · rw [State.chan_of_chans _ (lost.same .chans rfl)]
        exact ho
  case gap =>
    intro c f b s hf hb hd
    have lines := State.LinesClosed.foldl c.val f.open_.reverse s
    have coded := (f.open_.reverse.foldl (fun s l => s.closeStripeLine c.val l.line l.stripe) s).settle_inputKept c.val
    obtain ⟨e, he, number, rtp, placed, rest⟩ := lines.frame f hf
    refine ⟨_, e, execStripeGapTimeout_of_due hf hb hd, by rw [coded.own]; exact he, ?_, number, rtp, placed, fun d hd =>
      (coded.other d hd).trans (lines.other d hd)⟩
    refine List.eq_nil_iff_forall_not_mem.mpr fun x hx => ?_
    obtain ⟨was, isClosed⟩ := rest x hx
    exact isClosed (List.mem_reverse.mpr was)
  case channelSkew =>
    intro c n x s hx hd
    obtain ⟨m, lost, chIn⟩ := s.chanLost_spec c.val
    have own : ((s.chanLost c.val).chIn c.val).merge = m := by rw [chIn, if_pos rfl]
    rw [← own] at lost
    exact ⟨_, execMergeSkewTimeout_channel hx hd, lost.missing, lost.high, fun d hd => by rw [chIn, if_neg hd], lost.counted⟩
  case surfaceSkew =>
    intro v n p x s hp hx hd
    obtain ⟨m, lost, surface⟩ := s.surfLost_spec p v
    have own : (s.surfLost p v).surface v = { s.surface v with merge := m } := by rw [surface, if_pos rfl]
    rw [show m = ((s.surfLost p v).surface v).merge by rw [own]] at lost
    exact ⟨_, execMergeSkewTimeout_surface hp hx hd, lost.missing, by rw [own], fun d hd => by rw [surface, if_neg hd], lost.counted⟩
  case channelPath =>
    intro c s hm x logs
    have told (pathB : Bool) : logs (s.channelPathLost c.val pathB) :=
      ⟨fun d hd => (s.chIn_channelPathLost c.val d pathB).trans (if_neg hd),
        State.eventLogOut_logs _ _ _ _ _ _ _ _ (State.modChIn_keeps rfl (.refl _ s))⟩
    have own (pathB : Bool) := (s.chIn_channelPathLost c.val c.val pathB).trans (if_pos rfl)
    exact ⟨fun hs => ⟨_, execPathSilenceTimeout_channel (pathB := true) hm hs, told true, own true⟩,
      fun hs => ⟨_, execPathSilenceTimeout_channel (pathB := false) hm hs, told false, own false⟩⟩
  case surfacePath =>
    intro v p s hp hm x logs
    have told (pathB : Bool) : logs (s.surfacePathLost p v pathB) :=
      ⟨fun d hd => (s.surface_surfacePathLost p v d pathB).trans (if_neg hd),
        State.eventLogOut_logs _ _ _ _ _ _ _ _ (State.modSurface_keeps rfl (.refl _ s))⟩
    have own (pathB : Bool) := (s.surface_surfacePathLost p v v pathB).trans (if_pos rfl)
    exact ⟨fun hs => ⟨_, execPathSilenceTimeout_surface (pathB := true) hp hm hs, told true, own true⟩,
      fun hs => ⟨_, execPathSilenceTimeout_surface (pathB := false) hp hm hs, told false, own false⟩⟩

end Sys2Proof.Machine
end

section
/-!
PROOF. Writes of surfaces that come too late (R284, R325): the undone write raises the memory controller's event. Where that event meets
a saturated interrupt source, IRQ_SATURATED joins the ledger's intake as well, which the statement leaves no room for.
-/

namespace Sys2Proof.Machine

/-- D0 runs; slot 0 of surface 0 holds a write of frame 0 in progress; the event DROP is enabled, and the memory controller's
source has counted 255. -/
def saturatedMemory : State :=
  ((({ startup := { phase := 2 } } : State).setReg R.mem_EVENT_EN 128).setSource 16 { count := 255 }).setSurface 0
    { frames := [{ number := 0, written := [0] }], slots := [(0, { a := some { frame := 0 } })] }

/-- The one write that is undone makes two entries: IRQ_SATURATED, then MEM_WRITE_DROP. -/
theorem surfaceWriteTimeout_saturatedMemory :
    (match exec (.surfaceWriteTimeout 0 0 0 0) saturatedMemory with
      | .next t => t.ledger.outbox.map Entry.cls
      | _ => []) = [F.IRQ_SATURATED.code, F.MEM_WRITE_DROP.code] := by decide +kernel

/-- Refutes O29: MEM_WRITE_DROP need not be the only entry of a write that is undone, since its event may find its interrupt source
full. -/
theorem not_surfaceFramesCloseAndWritesAreUndone : ¬ Obligations.SurfaceFramesCloseAndWritesAreUndone := by
  unfold Obligations.SurfaceFramesCloseAndWritesAreUndone
  rintro ⟨-, undone, -⟩
  obtain ⟨t, run, -, -, -, -, -, logsOne, -⟩ := undone 0 0 0 0 { number := 0, written := [0] } saturatedMemory (by decide +kernel)
    (by decide +kernel) (by decide +kernel)
  have noRate : saturatedMemory.rate F.MEM_WRITE_DROP.code 0 = none := by decide +kernel
  obtain ⟨e, outbox, -⟩ := logsOne (by decide +kernel) fun r hr => nomatch noRate.symm.trans hr
  have two := surfaceWriteTimeout_saturatedMemory
  rw [run] at two
  have empty : saturatedMemory.ledger.outbox = [] := by decide +kernel
  rw [empty] at outbox
  have length : t.ledger.outbox.length = 2 := by simpa using congrArg List.length two
  simp [outbox] at length

end Sys2Proof.Machine
end

section
/-!
PROOF. The packets that a channel forms (R137, R142, R180, R182, R188): each takes the channel's next SEQ, goes to the queues of the
channel's own paths, and leaves every other channel as it is.
-/

namespace Sys2Proof.Machine

/-! ## A packet reaches the queues of its paths (R94, R95) -/

/-- Of the channels nothing changes but the numbers that the paths of channel `c` have not sent. -/
structure State.GapsMoved (s t : State) (c : Nat) : Prop where
  other : ∀ d, d ≠ c → t.chan d = s.chan d
  own   : t.chan c = { s.chan c with gapA := (t.chan c).gapA, gapB := (t.chan c).gapB }

theorem State.GapsMoved.trans {s t u : State} {c : Nat} (h : s.GapsMoved t c) (k : t.GapsMoved u c) : s.GapsMoved u c where
  other d hd := (k.other d hd).trans (h.other d hd)
  own := by rw [k.own, h.own]

theorem State.enqueue_gapsMoved (s : State) (q : QPacket) : s.GapsMoved (s.enqueue q) q.channel := by
  unfold State.enqueue State.modGap
  dsimp only
  split
  · exact ⟨fun _ _ => rfl, rfl⟩
  · refine ⟨fun d hd => by simp [hd], ?_⟩
    rw [State.modChan_eq, State.chan_setChan, if_pos rfl]
    split <;> rfl

/-- One packet after another of the same channel. -/
theorem State.foldl_enqueue_gapsMoved {β : Type} {c : Nat} {f : β → QPacket} (hf : ∀ b, (f b).channel = c) (l : List β) (s : State) :
    s.GapsMoved (l.foldl (fun y b => y.enqueue (f b)) s) c := by
  induction l generalizing s with
  | nil => exact ⟨fun _ _ => rfl, rfl⟩
  | cons b r ih => exact .trans (hf b ▸ s.enqueue_gapsMoved (f b)) (ih _)

/-! ## A packet is formed (R137, R180) -/

/-- Channel `c` has formed one packet: it has taken the next SEQ, and the open packet and the end-of-validity are as they were. -/
structure State.PacketFormed (s t : State) (c : Nat) : Prop where
  other  : ∀ d, d ≠ c → t.chan d = s.chan d
  seq    : (t.chan c).seq = ((s.chan c).seq + 1) % 2 ^ 32
  packet : (t.chan c).packet = (s.chan c).packet
  eov    : (t.chan c).eov = (s.chan c).eov

theorem State.chanSend_formed (s : State) (c kind frame rtp : Nat) (stamp : Stamp) (body : List Byte) (pixelAt firstAt : Nat) :
    s.PacketFormed (s.chanSend c kind frame rtp stamp body pixelAt firstAt) c := by
  unfold State.chanSend
  extract_lets seq bytes numbered
  have chan (d : Nat) : numbered.chan d = if d = c then _ else s.chan d := State.chan_setChan _ _ _ _
  have formed {t : State} (queued : numbered.GapsMoved t c) : s.PacketFormed t c := by
    have own := queued.own
    rw [chan c, if_pos rfl] at own
    exact ⟨fun d hd => (queued.other d hd).trans ((chan d).trans (if_neg hd)), by rw [own], by rw [own], by rw [own]⟩
  refine formed (State.foldl_enqueue_gapsMoved (c := c) ?_ _ numbered)
  exact fun _ => rfl

/-- A change of the channel's own record before does not touch the others. -/
theorem State.PacketFormed.other_of_modChan {s t : State} {c d : Nat} {f : Chan → Chan} (h : (s.modChan c f).PacketFormed t c)
    (hd : d ≠ c) : t.chan d = s.chan d :=
  (h.other d hd).trans ((State.chan_setChan _ _ _ _).trans (if_neg hd))

/-! ## The packet of packed packing is closed (R182) -/

/-- Channel `c` has closed its open packet and sent it under the next SEQ. -/
structure State.PacketClosed (s t : State) (c : Nat) : Prop where
  packet : (t.chan c).packet = none
  seq    : (t.chan c).seq = ((s.chan c).seq + 1) % 2 ^ 32
  other  : ∀ d, d ≠ c → t.chan d = s.chan d

theorem State.closePacket_closed {s : State} {c : Nat} {p : OpenPacket} (hp : (s.chan c).packet = some p) :
    s.PacketClosed (s.closePacket c) c := by
  unfold State.closePacket
  rw [hp]
  let u := s.modChan c fun x => { x with packet := none }
  have formed (frame rtp : Nat) := u.chanSend_formed c 1 frame rtp p.stamp p.body p.lastAt p.firstAt
  have own : u.chan c = { s.chan c with packet := none } := by simp [u]
  exact ⟨(formed _ _).packet.trans (by rw [own]), (formed _ _).seq.trans (by rw [own]), fun d hd => (formed _ _).other_of_modChan hd⟩

/-- The sections that the frame is completed under are put back afterwards (R165). -/
theorem State.PacketClosed.under {s : State} {c : Nat} {p : OpenPacket} {f : State → State}
    (hf : ∀ y : State, (y.chan c).packet = some p → y.PacketClosed (f y) c) (hp : (s.chan c).packet = some p) (n : Nat) :
    s.PacketClosed (s.under c n f) c := by
  unfold State.under
  split
  · exact hf s hp
  next t _ =>
    dsimp only
    split
    · exact hf s hp
    · have closed := hf (s.setChan c { s.chan c with plan := t.secs.plan, zones := t.secs.zones, key := t.secs.key }) (by simp [hp])
      exact ⟨by simp [closed.packet], by simp [closed.seq], fun d hd => by simp [hd, closed.other d hd]⟩

theorem execPackedPacketTimeout_of_due {c : Fin 48} {p : OpenPacket} {s : State} (hp : (s.chan c.val).packet = some p)
    (hd : s.due (p.openedAt + us 4) = true ∨ s.packetFull c.val p = true) :
    execPackedPacketTimeout c s = .next (s.under c.val p.frame fun s => s.closePacket c.val) := by
  unfold execPackedPacketTimeout
  dsimp only
  rw [hp]
  exact if_pos (Bool.or_eq_true_iff.mpr hd)

/-! ## End-of-validity records (R142, R188) -/

/-- Channel `c` has sent the end-of-validity record `e` under the next SEQ. -/
structure State.EovSent (s t : State) (c : Nat) (e : Eov) : Prop where
  eov   : (t.chan c).eov = some { e with lastAt := s.now }
  seq   : (t.chan c).seq = ((s.chan c).seq + 1) % 2 ^ 32
  other : ∀ d, d ≠ c → t.chan d = s.chan d

theorem State.sendEov_sent (s : State) (c : Nat) (e : Eov) : s.EovSent ((s.modChan c fun x => { x with eov := some e }).sendEov c) c e := by
  let u := s.modChan c fun x => { x with eov := some e }
  have own : u.chan c = { s.chan c with eov := some e } := by simp [u]
  have formed (body : List Byte) := u.chanSend_formed c 4 (u.recordFrame c e.media) e.media e.stamp body 0 0
  have now (body : List Byte) : (u.chanSend c 4 (u.recordFrame c e.media) e.media e.stamp body).now = s.now :=
    (State.chanSend_keeps rfl (.refl 0x8800000 u)).now
  change s.EovSent (u.sendEov c) c e
  unfold State.sendEov
  rw [show (u.chan c).eov = some e by rw [own]]
  refine ⟨?_, ?_, fun d hd => ?_⟩
  · simp [(formed _).eov, own, now]
  · simp [(formed _).seq, own]
  · simpa [hd] using (formed _).other_of_modChan hd

/-- The record that repeats `e` while its cause stands: another cause that is shown is taken now. -/
def State.eovRepeated (s : State) (c : Nat) (e : Eov) : Eov :=
  let r := s.channelReason c
  if r = (7, 0) ∨ r = (e.reason, e.cls) then e else { e with reason := r.1, cls := r.2, stamp := s.stamp, media := s.mediaClock }

/-- The channel's last record has been sent: it sends end-of-validity no more, and the ledger is told so (R188). -/
def State.eovEnded (s : State) (c : Nat) : State :=
  ((s.event (R.cc_CC_EVENTS (s.egOf c) c) 16).logOut F.CHANNEL_END (R.eg (s.egOf c)) (s.chanDp c s.chanLevel 0 0) [(.channel c, 7)]
    (leBytes 4 (s.chan c).lastFrame)).modChan c fun x => if x.gone then {} else { x with eov := none }

section
variable {c : Fin 48} {e : Eov} {s : State} (he : (s.chan c.val).eov = some e)
  (hd : s.due (e.lastAt + s.chanPeriod c.val) = true) (hs : s.sends = true)
include he hd hs

theorem execChannelEovRepeat_of_stands (hl : e.left = none) : execChannelEovRepeat c s =
    .next ((s.modChan c.val fun x => { x with eov := some (s.eovRepeated c.val e) }).sendEov c.val) := by
  simp [execChannelEovRepeat, he, hd, hs, hl, State.eovRepeated]

theorem execChannelEovRepeat_of_left {n : Nat} (hl : e.left = some (n + 2)) : execChannelEovRepeat c s =
    .next ((s.modChan c.val fun x => { x with eov := some { e with left := some (n + 1) } }).sendEov c.val) := by
  simp [execChannelEovRepeat, he, hd, hs, hl]

theorem execChannelEovRepeat_of_last (hl : e.left = some 1 ∨ e.left = some 0) :
    execChannelEovRepeat c s = .next (s.eovEnded c.val) := by
  obtain hl | hl := hl <;> simp [execChannelEovRepeat, he, hd, hs, hl, State.eovEnded]

end

theorem State.eovRepeated_left (s : State) (c : Nat) (e : Eov) : (s.eovRepeated c e).left = e.left := by
  unfold State.eovRepeated
  dsimp only
  split <;> rfl

section
variable (s : State) (c : Nat)

theorem State.eovEnded_keeps : Keeps 0x4800800005 s (s.eovEnded c) :=
  State.modChan_keeps rfl (State.logOut_keeps rfl (State.event_keeps rfl (.refl _ s)))

theorem State.eovEnded_logs (hrun : s.running = true) : s.Logs (s.eovEnded c) F.CHANNEL_END :=
  (State.eventLogOut_logs _ _ _ _ _ _ _ _ (.refl _ s) hrun).keep (State.modChan_keeps rfl (.refl 0x800000 _)) rfl

theorem State.eov_eovEnded : ((s.eovEnded c).chan c).eov = none := by
  unfold State.eovEnded
  rw [State.modChan_eq, State.chan_setChan, if_pos rfl]
  split <;> rfl

theorem State.chan_eovEnded {d : Nat} (hd : d ≠ c) : (s.eovEnded c).chan d = s.chan d :=
  ((State.chan_setChan _ _ _ _).trans (if_neg hd)).trans
    (State.chan_of_chans d ((State.eventLogOut_keeps _ _ _ _ _ _ _ _).same .chans rfl))

end

end Sys2Proof.Machine
end

section
/-!
PROOF. Packets leave a port (R183, R185): what the packet at the head of a queue changes when its last bit has passed, and when a
waiting frame of another kind is started.
-/

namespace Sys2Proof.Machine

/-! ## Units are read from their own part -/

theorem State.queue_of_queues {s t : State} (n : Nat) (h : t.queues = s.queues) : t.queue n = s.queue n := by
  rw [State.queue, h, State.queue]

theorem State.queue_setQueue (s : State) (p k : Nat) (q : List QPacket) : (s.setQueue p q).queue k = if k = p then q else s.queue k :=
  Sparse.get_put _ _ _ _ _

/-! ## Frames of another kind (R183) -/

theorem State.others_startOther (s : State) (p n : Nat) (x : Sent) : ((s.startOther p n x).port p).others = (s.port p).others := by
  rw [State.startOther, State.modPort_eq, State.port_setPort, if_pos rfl]
  rfl

/-- A frame that is sent counts in TX_FRAMES of its port, the one register that changes. -/
theorem State.reg_txFrame (s : State) {p a : Nat} (h : a ≠ txFramesReg p) : (s.txFrame p).reg a = s.reg a :=
  (State.reg_count _ _ _).trans (if_neg h)

section
variable {s : State} {p : Nat}

theorem State.nextOther_of_waits (hq : s.queue p = []) {n : Nat} {x : Sent} {o : List (Nat × Sent)} (ho : (s.port p).others = (n, x) :: o)
    (hd : s.due (s.port p).lineFree = true) : s.nextOther p = (s.modPort p fun y => { y with others := o }).startOther p n x := by
  unfold State.nextOther
  rw [ho]
  exact if_pos (by rw [hq, hd]; rfl)

theorem State.nextOther_of_none (h : s.queue p ≠ [] ∨ (s.port p).others = []) : s.nextOther p = s := by
  unfold State.nextOther
  split
  next ho =>
    have busy : s.queue p ≠ [] := h.resolve_right (by simp [ho])
    exact if_neg (by simp [busy])
  · rfl

theorem State.wire_nextOther_of_waits (hq : s.queue p = []) {n : Nat} {x : Sent} {o : List (Nat × Sent)}
    (ho : (s.port p).others = (n, x) :: o) (hd : s.due (s.port p).lineFree = true) : (s.nextOther p).wire = x :: s.wire := by
  rw [State.nextOther_of_waits hq ho hd]
  rfl

theorem State.others_nextOther_of_waits (hq : s.queue p = []) {n : Nat} {x : Sent} {o : List (Nat × Sent)}
    (ho : (s.port p).others = (n, x) :: o) (hd : s.due (s.port p).lineFree = true) : ((s.nextOther p).port p).others = o := by
  rw [State.nextOther_of_waits hq ho hd, State.others_startOther, State.modPort_eq, State.port_setPort, if_pos rfl]

theorem State.reg_nextOther {a : Nat} (h : a ≠ txFramesReg p) : (s.nextOther p).reg a = s.reg a := by
  unfold State.nextOther
  split
  · split
    · exact State.reg_txFrame _ h
    · rfl
  · rfl

end

/-! ## A curd packet's last bit has left (R185) -/

section
variable (s : State) (p : Nat) (q : QPacket)

theorem State.chan_curdLeft (d : Nat) : (s.curdLeft p q).chan d =
    if d = q.channel then { s.chan d with latMax := max (s.chan d).latMax (s.now - q.firstAt) } else s.chan d := by
  let u := s.modChan q.channel fun x => { x with latMax := max x.latMax (s.now - q.firstAt) }
  have late : Keeps 0x4800000005 u (s.curdLeft p q) :=
    Keeps.ite (Keeps.ite (State.logData_keeps rfl (State.event_keeps rfl (State.count_keeps rfl (.refl _ u))))
      (State.logRated_keeps rfl (State.event_keeps rfl (State.count_keeps rfl (.refl _ u))))) (.refl _ u)
  rw [State.chan_of_chans d (late.same .chans rfl)]
  refine (s.chan_setChan q.channel d _).trans ?_
  split
  next h => rw [h]
  · rfl

/-- A packet that leaves too late counts in TX_LATE and raises an event of its tile; TX_PKTS is not touched. -/
theorem State.reg_curdLeft : (s.curdLeft p q).reg (R.eg_TX_PKTS (p / 8)) = s.reg (R.eg_TX_PKTS (p / 8)) := by
  have notHub : R.eg_TX_PKTS (p / 8) ≠ R.hub_SATURATED := by simp only [R.eg_TX_PKTS, R.eg, R.hub_SATURATED, R.hub]; omega
  have notLate : R.eg_TX_PKTS (p / 8) ≠ R.eg_TX_LATE (p / 8) := by simp [R.eg_TX_PKTS, R.eg_TX_LATE]
  have notEvents : R.eg_TX_PKTS (p / 8) ≠ R.eg_EVENTS (p / 8) := by simp [R.eg_TX_PKTS, R.eg_EVENTS]
  have counted (u : State) : ((u.count (R.eg_TX_LATE (p / 8))).event (R.eg_EVENTS (p / 8)) 2).reg (R.eg_TX_PKTS (p / 8)) =
      u.reg (R.eg_TX_PKTS (p / 8)) := by
    rw [State.reg_event _ _ _ _ notHub, if_neg notEvents, State.reg_count, if_neg notLate]
  unfold State.curdLeft
  dsimp only
  split
  · split
    · exact (State.reg_of_regs _ ((State.logData_keeps rfl (.refl 0x4000000000 _)).same .regs rfl)).trans (counted _)
    · exact (State.reg_of_regs _ ((State.logRated_keeps rfl (.refl 0x4000000000 _)).same .regs rfl)).trans (counted _)
  · rfl

/-! ## A packet leaves (R183) -/

/-- The packet has been taken from its queue and sent. -/
def State.packetSent (rest : List QPacket) : State := (s.setQueue p rest).send (.media p (s.pathPacket q.path q.bytes))

/-- The packet and the time it waited have been counted as well. -/
def State.packetCounted (rest : List QPacket) : State :=
  let e := p / 8
  let peak := max (s.reg (R.eg_QPEAK_P e (p % 8))).toNat (s.now - q.queuedAt)
  let u := (s.packetSent p q rest).setReg (R.eg_QPEAK_P e (p % 8)) (w32 peak)
  ((u.count (R.eg_TX_PKTS e)).count (R.pa_PA_PKTS e q.channel)).txFrame p

/-- The line is free from now on as well: this is what every packet that leaves changes, whatever its kind. -/
def State.packetOut (rest : List QPacket) : State :=
  (s.packetCounted p q rest).modPort p fun y => { y with lineFree := (s.packetCounted p q rest).now }

variable (rest : List QPacket)

theorem State.packetLeft_eq : s.packetLeft p q rest =
    if q.curd then (s.packetOut p q rest).curdLeft p q else s.packetOut p q rest := rfl

theorem State.packetCounted_keeps : Keeps 0x1 (s.packetSent p q rest) (s.packetCounted p q rest) :=
  State.txFrame_keeps rfl (State.count_keeps rfl (State.count_keeps rfl (State.setReg_keeps rfl (.refl _ _))))

theorem State.packetOut_keeps : Keeps 0x40001 (s.packetSent p q rest) (s.packetOut p q rest) :=
  State.modPort_keeps rfl <| State.txFrame_keeps rfl <| State.count_keeps rfl <| State.count_keeps rfl <| State.setReg_keeps rfl (.refl _ _)

theorem State.packetLeft_keeps_packetOut : Keeps 0x4800800005 (s.packetOut p q rest) (s.packetLeft p q rest) := by
  rw [State.packetLeft_eq]
  exact Keeps.ite (State.curdLeft_keeps rfl (.refl _ _)) (.refl _ _)

theorem State.queue_packetLeft (k : Nat) : (s.packetLeft p q rest).queue k = if k = p then rest else s.queue k := by
  rw [State.queue_of_queues k ((s.packetLeft_keeps_packetOut p q rest).same .queues rfl),
    State.queue_of_queues k ((s.packetOut_keeps p q rest).same .queues rfl)]
  exact s.queue_setQueue p k rest

theorem State.wire_packetLeft : (s.packetLeft p q rest).wire = .media p (s.pathPacket q.path q.bytes) :: s.wire :=
  ((s.packetLeft_keeps_packetOut p q rest).same .wire rfl).trans ((s.packetOut_keeps p q rest).same .wire rfl)

theorem State.now_packetLeft : (s.packetLeft p q rest).now = s.now :=
  (s.packetLeft_keeps_packetOut p q rest).now.trans (s.packetOut_keeps p q rest).now

theorem State.port_packetLeft : (s.packetLeft p q rest).port p = { s.port p with lineFree := s.now } := by
  have port : (s.packetCounted p q rest).port p = s.port p := State.port_of_ports p ((s.packetCounted_keeps p q rest).same .ports rfl)
  have now : (s.packetCounted p q rest).now = s.now := (s.packetCounted_keeps p q rest).now
  rw [State.port_of_ports p ((s.packetLeft_keeps_packetOut p q rest).same .ports rfl), State.packetOut, State.modPort_eq,
    State.port_setPort, if_pos rfl, port, now]

theorem State.chan_packetLeft (d : Nat) : (s.packetLeft p q rest).chan d =
    if q.curd = true ∧ d = q.channel then { s.chan d with latMax := max (s.chan d).latMax (s.now - q.firstAt) } else s.chan d := by
  rw [State.packetLeft_eq]
  have chan : (s.packetOut p q rest).chan d = s.chan d := State.chan_of_chans d ((s.packetOut_keeps p q rest).same .chans rfl)
  have now : (s.packetOut p q rest).now = s.now := (s.packetOut_keeps p q rest).now
  by_cases hc : q.curd = true
  · simp only [hc, if_true, true_and, State.chan_curdLeft, chan, now]
  · rw [if_neg hc, if_neg fun h => hc h.1, chan]

/-- TX_FRAMES of a media port lies in no egress tile. -/
theorem eg_TX_PKTS_ne_txFramesReg {p : Nat} (hp : p < 32) : R.eg_TX_PKTS (p / 8) ≠ txFramesReg p := by
  simp only [txFramesReg, if_pos hp, R.eg_TX_PKTS, R.eg, R.port_TX_FRAMES, R.port]
  omega

theorem State.toNat_TX_PKTS_packetLeft (hp : p < 32) : ((s.packetLeft p q rest).reg (R.eg_TX_PKTS (p / 8))).toNat =
    min 0xFFFFFFFF ((s.reg (R.eg_TX_PKTS (p / 8))).toNat + 1) := by
  have notFrames := eg_TX_PKTS_ne_txFramesReg hp
  have notPath : R.eg_TX_PKTS (p / 8) ≠ R.pa_PA_PKTS (p / 8) q.channel := by simp only [R.eg_TX_PKTS, R.eg, R.pa_PA_PKTS, R.pa]; omega
  have notPeak : R.eg_TX_PKTS (p / 8) ≠ R.eg_QPEAK_P (p / 8) (p % 8) := by simp only [R.eg_TX_PKTS, R.eg_QPEAK_P]; omega
  have out : (s.packetOut p q rest).reg (R.eg_TX_PKTS (p / 8)) = w32 (min 0xFFFFFFFF ((s.reg (R.eg_TX_PKTS (p / 8))).toNat + 1)) := by
    have port : Keeps 0x40000 (s.packetCounted p q rest) (s.packetOut p q rest) := State.modPort_keeps rfl (.refl _ _)
    rw [State.reg_of_regs _ (port.same .regs rfl), State.packetCounted,
      State.reg_txFrame _ notFrames, State.reg_count, if_neg notPath, State.reg_count, if_pos rfl, State.reg_setReg, if_neg notPeak,
      State.packetSent]
    rfl
  have left : (s.packetLeft p q rest).reg (R.eg_TX_PKTS (p / 8)) = (s.packetOut p q rest).reg (R.eg_TX_PKTS (p / 8)) := by
    rw [State.packetLeft_eq]
    split
    · exact State.reg_curdLeft _ p q
    · rfl
  rw [left, out, toNat_w32_min]

end

theorem execPacketDepart_of_due {p : Fin 32} {q : QPacket} {r : List QPacket} {s : State} (hu : (s.port p.val).state = .up)
    (hq : s.queue p.val = q :: r) (hd : s.due (s.departsAt p.val q) = true) :
    execPacketDepart p s = .next ((s.packetLeft p.val q r).nextOther p.val) := by
  unfold execPacketDepart
  dsimp only
  rw [hq]
  exact if_neg (by simp [hu, hd])

theorem execPacketDepart_of_empty {p : Fin 32} {s : State} (hu : (s.port p.val).state = .up) (hq : s.queue p.val = []) :
    execPacketDepart p s = .next (s.nextOther p.val) := by
  unfold execPacketDepart
  dsimp only
  rw [hq]
  exact if_pos hu

end Sys2Proof.Machine
end

section
/-!
PROOF. Stored skip signatures (R173, R285), and the statement about packets that leave and signatures that become invalid.
-/

namespace Sys2Proof

/-- A read after numbers have been taken out: they read as unlisted ones. -/
theorem Sparse.get_filter {α : Type} (d : Nat → α) (keep : Nat → Bool) (m : Sparse α) (k : Nat) :
    Sparse.get d (m.filter fun e => keep e.1) k = if keep k then Sparse.get d m k else d k := by
  induction m with
  | nil => simp [Sparse.get]
  | cons e r ih =>
    obtain ⟨j, v⟩ := e
    by_cases hj : keep j = true
    · rw [List.filter_cons_of_pos (p := fun e : Nat × α => keep e.1) (a := (j, v)) hj, Sparse.get_cons, Sparse.get_cons, ih]
      by_cases hk : j = k
      · simp [← hk, hj]
      · simp [hk]
    · rw [List.filter_cons_of_neg (p := fun e : Nat × α => keep e.1) (a := (j, v)) hj, ih, Sparse.get_cons]
      by_cases hk : j = k
      · simp [← hk, hj]
      · simp [hk]

namespace Machine

/-! ## Signatures that become invalid (R285) -/

/-- The signatures of a line of `n` positions are invalid. -/
def Chan.dropSigs (x : Chan) (line n : Nat) : Chan :=
  { x with sigs := x.sigs.filter fun e => !(line * n ≤ e.1 && e.1 < (line + 1) * n) }

/-- The signature of a position is invalid. -/
def Chan.dropSig (x : Chan) (position : Nat) : Chan := { x with sigs := x.sigs.put (fun _ => ⟨0, false⟩) position ⟨0, false⟩ }

theorem Chan.get_dropSigs (x : Chan) (line n i : Nat) : (x.dropSigs line n).sigs.get (fun _ => ⟨0, false⟩) i =
    if line * n ≤ i ∧ i < (line + 1) * n then ⟨0, false⟩ else x.sigs.get (fun _ => ⟨0, false⟩) i := by
  refine (Sparse.get_filter _ (fun k => !(line * n ≤ k && k < (line + 1) * n)) x.sigs i).trans ?_
  simp only [Bool.not_eq_true', ← Bool.decide_and, decide_eq_false_iff_not, ite_not]

theorem Chan.get_dropSig (x : Chan) (position i : Nat) : (x.dropSig position).sigs.get (fun _ => ⟨0, false⟩) i =
    if i = position then ⟨0, false⟩ else x.sigs.get (fun _ => ⟨0, false⟩) i :=
  Sparse.get_put (fun _ => (⟨0, false⟩ : Signature)) x.sigs position ⟨0, false⟩ i

theorem execSignaturePrefetchDone_unreadable (c : Fin 48) (n : Nat) (s : State) : execSignaturePrefetchDone c n false s =
    .next (s.modChan c.val fun x => x.dropSigs n (s.chanGeom c.val).positions.length) := rfl

theorem execSignatureWriteTimeout_eq (c : Fin 48) (n : Nat) (s : State) :
    execSignatureWriteTimeout c n s = .next (s.modChan c.val fun x => x.dropSig n) := rfl

/-! ## The statement -/

/-- Settles O31: a packet or a record that is formed by what forming one leaves of its channel, a packet that leaves by what each
of its port, queue, registers and channel is afterwards, and signatures by what a read of them finds. -/
theorem packetsLeaveAndSignaturesFall : Obligations.PacketsLeaveAndSignaturesFall := by
  unfold Obligations.PacketsLeaveAndSignaturesFall
  refine ⟨?packed, ?depart, ?eov, ?signatures⟩
  case packed =>
    intro c p s hp hd
    have closed := State.PacketClosed.under (fun y hy => State.closePacket_closed (s := y) hy) hp p.frame
    exact ⟨_, execPackedPacketTimeout_of_due hp hd, closed.packet, closed.seq, closed.other⟩
  case depart =>
    intro p s hu
    refine ⟨fun q r hq hd => ?left, fun n x o hq ho hd => ?started⟩
    case left =>
      have after : Keeps 0x40021 (s.packetLeft p.val q r) _ := State.nextOther_keeps (p := p.val) rfl (.refl _ _)
      have queue (k : Nat) := (State.queue_of_queues k (after.same .queues rfl)).trans (s.queue_packetLeft p.val q r k)
      have own := s.port_packetLeft p.val q r
      have left := (s.queue_packetLeft p.val q r p.val).trans (if_pos rfl)
      refine ⟨_, execPacketDepart_of_due hu hq hd, (queue p.val).trans (if_pos rfl), fun k hk => (queue k).trans (if_neg hk),
        ⟨fun h => ?stays, fun n x o hr ho => ?starts⟩, ?counted, fun d => ?chan⟩
      case stays =>
        rw [State.nextOther_of_none (by rw [left, own]; exact h)]
        exact ⟨s.wire_packetLeft p.val q r, by rw [own]⟩
      case starts =>
        have waits : ((s.packetLeft p.val q r).port p.val).others = (n, x) :: o := by rw [own]; exact ho
        have free : (s.packetLeft p.val q r).due ((s.packetLeft p.val q r).port p.val).lineFree = true := by
          rw [own, State.due, State.now_packetLeft]
          exact decide_eq_true (Nat.le_refl _)
        exact ⟨(State.wire_nextOther_of_waits (left.trans hr) waits free).trans (by rw [State.wire_packetLeft]),
          State.others_nextOther_of_waits (left.trans hr) waits free⟩
      case counted =>
        rw [State.reg_nextOther (eg_TX_PKTS_ne_txFramesReg p.isLt)]
        exact s.toNat_TX_PKTS_packetLeft p.val q r p.isLt
      case chan =>
        exact (State.chan_of_chans d (after.same .chans rfl)).trans (s.chan_packetLeft p.val q r d)
    case started =>
      have kept : Keeps 0x40021 s (s.nextOther p.val) := State.nextOther_keeps rfl (.refl _ s)
      exact ⟨_, execPacketDepart_of_empty hu hq, State.wire_nextOther_of_waits hq ho hd, State.others_nextOther_of_waits hq ho hd,
        kept.same .queues rfl, kept.same .chans rfl⟩
  case eov =>
    intro c e s he hd hs
    refine ⟨fun hl => ?stands, fun n hl => ?left, fun hl => ?last⟩
    case stands =>
      intro r same
      have sent := s.sendEov_sent c.val (s.eovRepeated c.val e)
      refine ⟨_, _, execChannelEovRepeat_of_stands he hd hs hl, sent.eov, (s.eovRepeated_left c.val e).trans hl, rfl, fun h => ?_,
        fun h => ?_, sent.seq, sent.other⟩
      · rw [show s.eovRepeated c.val e = e from if_pos h]
        exact ⟨rfl, rfl, rfl⟩
      · rw [show s.eovRepeated c.val e = _ from if_neg h]
        exact ⟨rfl, rfl⟩
    case left =>
      have sent := s.sendEov_sent c.val { e with left := some (n + 1) }
      exact ⟨_, execChannelEovRepeat_of_left he hd hs hl, sent.eov, sent.seq, sent.other⟩
    case last =>
      have kept := s.eovEnded_keeps c.val
      exact ⟨_, execChannelEovRepeat_of_last he hd hs hl, s.eov_eovEnded c.val, s.eovEnded_logs c.val, kept.same .queues rfl,
        kept.same .wire rfl, fun _ => s.chan_eovEnded c.val⟩
  case signatures =>
    intro c n i s
    have own (f : Chan → Chan) : (s.modChan c.val f).chan c.val = f (s.chan c.val) := (s.chan_setChan _ _ _).trans (if_pos rfl)
    have other (f : Chan → Chan) (d : Nat) (hd : d ≠ c.val) : (s.modChan c.val f).chan d = s.chan d :=
      (s.chan_setChan _ _ _).trans (if_neg hd)
    refine ⟨rfl, ⟨_, execSignaturePrefetchDone_unreadable c n s, ?_, other _, rfl⟩,
      ⟨_, execSignatureWriteTimeout_eq c n s, ?_, other _, rfl⟩⟩
    · rw [own]
      exact Chan.get_dropSigs _ _ _ _
    · rw [own]
      exact Chan.get_dropSig _ _ _

end Machine

end Sys2Proof
end

section
/-!
PROOF. The selection of a curd in TRIM (R174, R190, R374): where the curd that is selected is skipped and is the last one of line T - 1 of
a takeover, its coder becomes free in the same row, and its tile is gated when it is unused; a gated tile reads its reset
values, so that the counts of the selection are gone with it. The statement has them stand in the coder's registers.
-/

namespace Sys2Proof.Machine

/-- CHANNEL: enabled, with skips, 4:2:2 8-bit, V 16, 32 x 2 at 60 Hz, one stripe and curd of 32 pixels, R 4, QMAX 6. -/
def skippingPlan : List Byte :=
  [9, 0, 1, 16] ++ leBytes 2 32 ++ leBytes 2 2 ++ leBytes 2 60 ++ leBytes 2 1 ++ leBytes 2 32 ++ [4, 6] ++ leBytes 2 0 ++ leBytes 2 1000 ++
  leBytes 2 32 ++ List.replicate 44 0

/-- The 16 units of a grey curd. -/
def greyUnits : List (List Int) := List.replicate 16 [100, 128, 100, 128]

/-- The one curd of line 0 of frame 1: lane 0 of coder 10 has taken all of it. -/
def lastOfLine : Job :=
  { frame := 1, line := 0, stripe := 0, k := 0, units := 16, source := greyUnits, lastAt := 0, lastStamp := 0, done := true, coder := 10,
    lane := some 0, takenAt := some 0, restart := true }

/-- The channel that codes it: the same picture was coded in the frame before, and its signature is stored. -/
def repeatingChannel : Chan :=
  { state := .coding, plan := skippingPlan, n := 1, jobs := [lastOfLine], codedAt := [(0, (1, false))],
    frames := [{ number := 1, rtp := 0, startStamp := 0, n := 1, secs := { plan := skippingPlan } }],
    sigs := [(0, ⟨sipHash 0 0 (sigMessage greyUnits), true⟩)] }

/-- In TRIM a MOVE takes channel 0 from coder 10 to coder 0: line T is line 1, and line 0 is not resolved yet. -/
def movingInTrim : State :=
  ((((({ clock := { now := us 1 }, startup := { phase := 9 }, hull := { state := .trim } } : State).setChan 0 repeatingChannel).setRind 0
    { coder := some 0, prev := some 10, prevCause := 5, takeLine := 1, takeFrame := 1, handing := true }).setCoder 0
    { state := .holding, channel := some 0 }).setCoder 10 { state := .holding, channel := some 0 }).setTile (tileNo 2 10) { state := .inService }

/-- The selection skips the curd and frees coder 10, whose tile is gated; its count of curds is cleared with it. -/
theorem curdSelect_movingInTrim :
    (match exec (.curdSelect 0 0) movingInTrim with
      | .next t => some ((t.tile (tileNo 2 10)).state, t.reg (R.coder_CURDS 10))
      | _ => none) = some (.gated, 0) := by decide +kernel

/-- Refutes O30: the coder that selects a curd need not show the curd in its counts, since the selection may end its takeover and have its
tile gated. -/
theorem not_curdsAreTakenSelectedAndJudged : ¬ Obligations.CurdsAreTakenSelectedAndJudged := by
  unfold Obligations.CurdsAreTakenSelectedAndJudged
  rintro ⟨-, selects, -⟩
  obtain ⟨t, run, -, curds, -⟩ := selects 0 0 lastOfLine movingInTrim (by decide +kernel) (by decide +kernel) rfl rfl (by decide +kernel)
    (by decide +kernel)
  have cleared := curdSelect_movingInTrim
  rw [run] at cleared
  have zero : t.reg (R.coder_CURDS 10) = 0 := congrArg Prod.snd (Option.some.inj cleared)
  have before : movingInTrim.reg (R.coder_CURDS 10) = 0 := by decide +kernel
  have one : (t.reg (R.coder_CURDS 10)).toNat = min 0xFFFFFFFF ((movingInTrim.reg (R.coder_CURDS 10)).toNat + 1) := curds
  rw [zero, before] at one
  exact absurd one (by decide)

end Sys2Proof.Machine
end

section
/-!
PROOF. The causes of a takeover and the host's commands to a coder (R179, R195, R196, R204): what a cause makes of the coder that it
concerns, what it requests of the safety pair, and what it leaves as it is.
-/

namespace Sys2Proof.Machine

/-! ## Coders and requests -/

theorem State.coder_of_coders {s t : State} (h : t.coders = s.coders) (k : Nat) : t.coder k = s.coder k := by
  rw [State.coder, h, State.coder]

/-- While D0 runs, a class that is logged for the data it names makes one entry. -/
theorem State.logData_logsOne {s : State} (hrun : s.running = true) (f : FaultClass) (ctrl dp : Nat) (data : List Byte) :
    s.LogsOne (s.logData f ctrl dp data) f := by
  refine ⟨{ s.entry f ctrl data with dp := dp, dataOnly := true }, ?_, rfl⟩
  rw [State.logData, State.logEntry_outbox, if_pos hrun]

/-- A takeover of channel `c` from coder `k` for a cause is requested at `t`, and every request of `s` still is. -/
def State.Requests (s t : State) (c k cause : Nat) : Prop :=
  (t.takeovers.any fun y => y.channel == c && y.coder == k && y.cause == cause) = true ∧ ∀ y ∈ s.takeovers, y ∈ t.takeovers

theorem State.takeoverCause_requests {s u : State} (h : u.takeovers = s.takeovers) (c k cause : Nat) (target : Option Nat) :
    s.Requests (u.takeoverCause c k cause target) c k cause := by
  unfold State.Requests State.takeoverCause
  rw [← h]
  split
  next stands => exact ⟨stands, fun _ hy => hy⟩
  next => exact ⟨by simp, fun _ hy => List.mem_append_left _ hy⟩

theorem State.takeoverCause_frame (s : State) (c k cause : Nat) (target : Option Nat) :
    s.takeoverCause c k cause target = { s with takeovers := (s.takeoverCause c k cause target).takeovers } := by
  unfold State.takeoverCause
  split <;> rfl

/-! ## Causes on the coder of a channel (R179, R195) -/

section
variable {s : State} {c k : Nat}

/-- A hardware cause fences the holder before it is requested; the events and the rind's mark in between touch no coder. -/
theorem State.coderCause_of_held {cause : Nat} (hc : (s.coder k).channel = some c) (h : cause ≤ 3) :
    ∃ u, Keeps 0x4804000005 (s.modCoder k fun y => { y with fenced := true }) u ∧ s.coderCause k cause = u.takeoverCause c k cause := by
  unfold State.coderCause
  dsimp only
  rw [hc]
  dsimp only
  rw [if_pos h]
  have told := State.event_keeps (events := R.rind_EVENTS c) (mask := 2) rfl (.refl 0x4804000005 (s.modCoder k fun y => { y with fenced := true }))
  exact ⟨_, Keeps.ite (State.modRind_keeps rfl told) told, rfl⟩

theorem State.coderCause_fences {cause : Nat} (hc : (s.coder k).channel = some c) (h : cause ≤ 3) :
    ((s.coderCause k cause).coder k = { s.coder k with fenced := true } ∧ ∀ j, j ≠ k → (s.coderCause k cause).coder j = s.coder j) ∧
    s.Requests (s.coderCause k cause) c k cause := by
  obtain ⟨u, kept, run⟩ := State.coderCause_of_held hc h
  have coder (j : Nat) : (s.coderCause k cause).coder j = if j = k then { s.coder k with fenced := true } else s.coder j := by
    rw [run, State.takeoverCause_frame]
    exact (State.coder_of_coders (kept.same .coders rfl) j).trans (s.coder_setCoder k j _)
  exact ⟨⟨(coder k).trans (if_pos rfl), fun j hj => (coder j).trans (if_neg hj)⟩,
    run ▸ State.takeoverCause_requests (kept.same .takeovers rfl) c k cause none⟩

/-- A failed self-check only asks for a takeover, and reports its coder. -/
theorem State.coderSuspect_spec (s : State) (c k fails why : Nat) :
    (s.coderSuspect c k fails why).coders = s.coders ∧ s.Requests (s.coderSuspect c k fails why) c k 4 ∧
    (s.running = true → s.Logs (s.coderSuspect c k fails why) F.CODER_SUSPECT) := by
  refine ⟨(State.coderSuspect_keeps rfl (.refl 0x4802000005 s)).same .coders rfl,
    State.takeoverCause_requests ((State.eventLogOut_keeps s _ _ _ _ _ _ _).same .takeovers rfl) c k 4 none, fun hrun => ?_⟩
  exact (State.eventLogOut_logs s _ _ _ _ _ _ _ (.refl _ s) hrun).keep (State.takeoverCause_keeps rfl (.refl 0x2000000 _)) rfl

theorem execCoderWatchdog_of_held {k : Fin 52} (hc : (s.coder k.val).channel = some c) :
    execCoderWatchdog k s = if 0 < s.fifoFill c k.val then .next (s.coderCause k.val 3) else .next s := by
  unfold execCoderWatchdog
  dsimp only
  rw [hc]

theorem execCoderSelfCheckFail_of_held {k : Fin 52} (hc : (s.coder k.val).channel = some c) (b : Bool) :
    ∃ fails why, execCoderSelfCheckFail k b s = .next (s.coderSuspect c k.val fails why) := by
  unfold execCoderSelfCheckFail
  dsimp only
  rw [hc]
  exact ⟨_, _, rfl⟩

end

/-! ## Causes on a coder without a channel (R195, R204) -/

/-- A spare that is not ripe yet, ripens or is ripe: it may still be given a channel. -/
def Coder.Unused (x : Coder) : Prop := x.state = .spare ∨ x.state = .ripening ∨ x.state = .ripe

/-- A spare is marked failed. -/
def State.failSpare (s : State) (k : Nat) : State := (s.modCoder k fun y => { y with state := .failed }).spareCheck

theorem State.failSpare_keeps (s : State) (k : Nat) : Keeps 0x4811004005 s (s.failSpare k) :=
  State.spareCheck_keeps rfl (State.modCoder_keeps rfl (.refl _ s))

theorem State.coder_failSpare (s : State) (k j : Nat) :
    (s.failSpare k).coder j = if j = k then { s.coder k with state := .failed } else s.coder j :=
  (State.coder_of_coders ((State.spareCheck_keeps rfl (.refl 0x4810004005 _)).same .coders rfl) j).trans (s.coder_setCoder k j _)

section
variable {s : State}

theorem State.coderCause_of_unused {k : Nat} (hc : (s.coder k).channel = none) (hu : (s.coder k).Unused) (cause : Nat) :
    s.coderCause k cause = (s.coderFault none k cause).failSpare k := by
  unfold State.coderCause
  dsimp only
  rw [hc]
  obtain h | h | h := hu <;> rw [h] <;> rfl

theorem State.coderCause_of_failed {k : Nat} (hc : (s.coder k).channel = none) (hf : (s.coder k).state = .failed) (cause : Nat) :
    s.coderCause k cause = s := by
  unfold State.coderCause
  dsimp only
  rw [hc, hf]

/-- Events and entries made before do not change what a cause makes of a spare. -/
theorem State.coderCause_fails {u : State} {k : Nat} (before : Keeps 0x4800000005 s u) (hc : (s.coder k).channel = none)
    (hu : (s.coder k).Unused) (cause : Nat) :
    (u.coderCause k cause).coder k = { s.coder k with state := .failed } ∧ (∀ j, j ≠ k → (u.coderCause k cause).coder j = s.coder j) ∧
    (s.running = true → s.Logs (u.coderCause k cause) F.CODER_FAULT) := by
  have same (j : Nat) : u.coder j = s.coder j := State.coder_of_coders (before.same .coders rfl) j
  have logged (j : Nat) : (u.coderFault none k cause).coder j = s.coder j :=
    (State.coder_of_coders ((State.coderFault_keeps rfl (.refl 0x4000000000 u)).same .coders rfl) j).trans (same j)
  rw [State.coderCause_of_unused (by rw [same]; exact hc) (by rw [same]; exact hu)]
  refine ⟨?_, fun j hj => ?_, fun hrun => ?_⟩
  · rw [State.coder_failSpare, if_pos rfl, logged]
  · rw [State.coder_failSpare, if_neg hj, logged]
  · exact ((State.logData_logsOne (before.running rfl hrun) _ _ _ _).logs.after before rfl).keep (State.failSpare_keeps _ k) rfl

theorem execCoderWatchdog_of_free {k : Fin 52} (hc : (s.coder k.val).channel = none) : execCoderWatchdog k s = .next s := by
  unfold execCoderWatchdog
  dsimp only
  rw [hc]

theorem execCoderSelfCheckFail_of_unused {k : Fin 52} (hc : (s.coder k.val).channel = none) (hu : (s.coder k.val).Unused) (b : Bool) :
    ∃ u, execCoderSelfCheckFail k b s = .next (u.coderCause k.val 4) ∧ Keeps 0x4800000005 s u := by
  unfold execCoderSelfCheckFail
  dsimp only
  rw [hc]
  obtain h | h | h := hu <;> rw [h] <;> exact ⟨_, rfl, State.log_keeps rfl (State.event_keeps rfl (.refl _ s))⟩

end

/-! ## RETEST and RETIRE (R204) -/

/-- A coder that begins to ripen again, for its retest. -/
def Coder.retested (x : Coder) (now : Nat) : Coder := { x with state := .ripening, ripeFrom := now, retest := true, fenced := false }

/-- A failed coder ripens again, and its tile with it. -/
def State.retested (s : State) (k : Nat) : State :=
  (s.modCoder k fun x => x.retested s.now).modTile (tileNo (coderTile k).1 (coderTile k).2) fun x => { x with state := .ripening, ripeFrom := s.now }

theorem State.coder_retested (s : State) (k j : Nat) :
    (s.retested k).coder j = if j = k then (s.coder k).retested s.now else s.coder j :=
  s.coder_setCoder k j ((s.coder k).retested s.now)

section
variable {s : State} {k : Fin 64} (g : Agent)

theorem execCoderRetest_of_failed (hrun : s.running = true) (hs : s.inService 4 8 = true) (hk : k.val < 52)
    (hf : (s.coder k.val).state = .failed) : execCoderRetest g k s = .next (s.retested k.val) := if_pos ⟨hrun, hs, hk, hf⟩

theorem execCoderRetest_of_not_failed (hf : (s.coder k.val).state ≠ .failed) : execCoderRetest g k s = .next s :=
  if_neg fun h => hf h.2.2.2

theorem execCoderRetire_of_unused (hrun : s.running = true) (hs : s.inService 4 8 = true) (hk : k.val < 52)
    (hc : (s.coder k.val).channel = none) (hu : (s.coder k.val).Unused) : execCoderRetire g k s = .next (s.failSpare k.val) :=
  if_pos ⟨hrun, hs, hk, hc, hu.symm.elim (·.symm.imp_right .inl) fun h => .inr (.inr h)⟩

theorem execCoderRetire_of_used (h : (s.coder k.val).state = .holding ∨ (s.coder k.val).state = .failed) :
    execCoderRetire g k s = .next s := by
  unfold execCoderRetire
  obtain h | h := h <;> simp [h]

end

/-! ## MOVE (R196) -/

section
variable {s : State} {c : Fin 48} {v : Word} (g : Agent)

theorem execRindMove_of_target {h : Nat} (hrun : s.running = true) (hs : s.inService 4 (0x10 + c.val) = true)
    (hh : (s.rind c.val).coder = some h) (ht : bit v.toNat 7 = true ∨ v.toNat % 64 ∈ s.ripeSpares) :
    ∃ target, execRindMove g c v s = .next (s.takeoverCause c.val h 5 target) := by
  unfold execRindMove
  simp only [hrun, hs, hh, Bool.and_true, Bool.not_true, Bool.false_eq_true, if_false, List.contains_eq_mem, decide_eq_true_eq, if_pos ht]
  exact ⟨_, rfl⟩

theorem execRindMove_of_refused (hrun : s.running = true) (hs : s.inService 4 (0x10 + c.val) = true)
    (h : (s.rind c.val).coder = none ∨ (bit v.toNat 7 = false ∧ v.toNat % 64 ∉ s.ripeSpares)) :
    execRindMove g c v s = .next (s.count (R.rind_MOVE_REFUSED c.val)) := by
  unfold execRindMove
  simp only [hrun, hs, Bool.and_true, Bool.not_true, Bool.false_eq_true, if_false, List.contains_eq_mem, decide_eq_true_eq]
  cases hc : (s.rind c.val).coder with
  | none => rfl
  | some k =>
    obtain ⟨notAny, notRipe⟩ := h.resolve_left (by simp [hc])
    exact if_neg (by simp [notAny, notRipe])

end

/-! ## The statement -/

/-- Settles O32: each cause by what it makes of its coder and what it requests, and RETEST, RETIRE and MOVE by their cases. -/
theorem coderCausesFenceFailAndRequest : Obligations.CoderCausesFenceFailAndRequest := by
  unfold Obligations.CoderCausesFenceFailAndRequest
  refine ⟨?held, ?free, ?commands, ?move⟩
  case held =>
    intro k c s hc
    obtain ⟨fences1, asks1⟩ := State.coderCause_fences (cause := 1) hc (by decide)
    obtain ⟨fences2, asks2⟩ := State.coderCause_fences (cause := 2) hc (by decide)
    obtain ⟨fences3, asks3⟩ := State.coderCause_fences (cause := 3) hc (by decide)
    refine ⟨⟨_, rfl, fences1, asks1⟩, ⟨_, rfl, fences2, asks2⟩, fun hw => ⟨_, ?_, fences3, asks3⟩, fun hw => ?_, fun b => ?_⟩
    · exact (execCoderWatchdog_of_held hc).trans (if_pos hw)
    · exact (execCoderWatchdog_of_held hc).trans (if_neg (by omega))
    · obtain ⟨fails, why, run⟩ := execCoderSelfCheckFail_of_held hc b
      exact ⟨_, run, s.coderSuspect_spec c k.val fails why⟩
  case free =>
    intro k s hc
    refine ⟨execCoderWatchdog_of_free hc, fun hu => ⟨?_, ?_, fun b => ?_⟩, fun hf => ⟨?_, ?_⟩⟩
    · exact ⟨_, rfl, State.coderCause_fails (.refl _ s) hc hu 1⟩
    · exact ⟨_, rfl, State.coderCause_fails (.refl _ s) hc hu 2⟩
    · obtain ⟨u, run, before⟩ := execCoderSelfCheckFail_of_unused hc hu b
      exact ⟨_, run, State.coderCause_fails before hc hu 4⟩
    · exact congrArg (β := Out) .next (State.coderCause_of_failed hc hf 1)
    · exact congrArg (β := Out) .next (State.coderCause_of_failed hc hf 2)
  case commands =>
    intro g k s hrun hs hk
    refine ⟨fun hf => ?_, fun hf => execCoderRetest_of_not_failed g hf, fun hc hu => ?_, fun h => execCoderRetire_of_used g h⟩
    · have own := (s.coder_retested k.val k.val).trans (if_pos rfl)
      exact ⟨_, execCoderRetest_of_failed g hrun hs hk hf, congrArg Coder.state own, congrArg Coder.retest own,
        congrArg Coder.ripeFrom own, (congrArg Coder.channel own :), fun j hj => (s.coder_retested k.val j).trans (if_neg hj), rfl⟩
    · exact ⟨_, execCoderRetire_of_unused g hrun hs hk hc hu, (s.coder_failSpare k.val k.val).trans (if_pos rfl),
        fun j hj => (s.coder_failSpare k.val j).trans (if_neg hj)⟩
  case move =>
    intro g c v s hrun hs
    refine ⟨fun h hh ht => ?_, fun h => ?_⟩
    · obtain ⟨target, run⟩ := execRindMove_of_target g hrun hs hh ht
      obtain ⟨asked, kept⟩ := State.takeoverCause_requests (s := s) rfl c.val h 5 target
      exact ⟨_, run, asked, kept, s.takeoverCause_frame c.val h 5 target⟩
    · exact ⟨_, execRindMove_of_refused g hrun hs h, s.toNat_reg_count _, fun b hb => (s.reg_count _ b).trans (if_neg hb), rfl⟩

end Sys2Proof.Machine
end

section
/-!
PROOF. What coding and packetising leave of the sparing and of the pair (R178, R188, R193, R199, R207, R215): of all rinds only that of
the channel that is coded changes, which waits and storms as before; of the pair block, the records to be sent and SPARE_LOW.
-/

namespace Sys2Proof.Machine

/-! ## The relation -/

/-- No rind but that of channel `c` changes, and it waits for a coder and is in a storm of claims as before; the pair block keeps all but
the channels whose frame record is to be sent and whether SPARE_LOW has been logged. -/
structure State.SparingKept (s t : State) (c : Nat) : Prop where
  other : ∀ d, d ≠ c → t.rind d = s.rind d
  waits : (t.rind c).waits = (s.rind c).waits
  storm : (t.rind c).storm = (s.rind c).storm
  pair  : t.pair = { s.pair with unsent := t.pair.unsent, spareLow := t.pair.spareLow }

section
variable {c : Nat}

theorem State.SparingKept.refl (s : State) : s.SparingKept s c := ⟨fun _ _ => rfl, rfl, rfl, rfl⟩

theorem State.SparingKept.trans {s t u : State} (h : s.SparingKept t c) (k : t.SparingKept u c) : s.SparingKept u c where
  other d hd := (k.other d hd).trans (h.other d hd)
  waits := k.waits.trans h.waits
  storm := k.storm.trans h.storm
  pair := by rw [k.pair, h.pair]

/-- An operation that touches neither rinds nor the pair block. -/
theorem Keeps.sparingKept {A : Nat} {s t : State} (h : Keeps A s t) (hr : A.testBit (Part.bit .rinds) = false)
    (hp : A.testBit (Part.bit .pair) = false) : s.SparingKept t c := by
  have same (d : Nat) : t.rind d = s.rind d := State.rind_of_rinds (h.same .rinds hr) d
  exact ⟨fun d _ => same d, by rw [same], by rw [same], by rw [h.same .pair hp]⟩

/-- A change of the channel's own rind that concerns neither its waiting nor a storm. -/
theorem State.SparingKept.modRind (s : State) (f : Rind → Rind) (hw : (f (s.rind c)).waits = (s.rind c).waits)
    (hs : (f (s.rind c)).storm = (s.rind c).storm) : s.SparingKept (s.modRind c f) c where
  other d hd := by simp [hd]
  waits := by simpa using hw
  storm := by simpa using hs
  pair := rfl

theorem State.SparingKept.foldl {β : Type} {f : State → β → State} (hf : ∀ (y : State) b, y.SparingKept (f y b) c) (l : List β) (s : State) :
    s.SparingKept (l.foldl f s) c := by
  induction l generalizing s with
  | nil => exact .refl s
  | cons b r ih => exact (hf s b).trans (ih (f s b))

theorem State.SparingKept.ite {s a b : State} {p : Prop} [Decidable p] (h : s.SparingKept a c) (k : s.SparingKept b c) :
    s.SparingKept (if p then a else b) c := by
  split
  · exact h
  · exact k

theorem State.SparingKept.under {f : State → State} (hf : ∀ y : State, y.SparingKept (f y) c) (s : State) (n : Nat) :
    s.SparingKept (s.under c n f) c := by
  have plan (y : State) (g : Chan → Chan) : y.SparingKept (y.modChan c g) c :=
    (State.modChan_keeps rfl (.refl 0x800000 y)).sparingKept rfl rfl
  unfold State.under
  split
  · exact hf s
  · dsimp only
    split
    · exact hf s
    · exact ((plan s _).trans (hf _)).trans (plan _ _)

end

/-! ## A coder becomes free (R197, R199, R215) -/

theorem State.rind_spareCheck (s : State) (d : Nat) : s.spareCheck.rind d = s.rind d :=
  State.rind_of_rinds ((State.spareCheck_keeps rfl (.refl 0x4810004005 s)).same .rinds rfl) d

theorem State.rind_freeCoder (s : State) (k cause d : Nat) : (s.freeCoder k cause).rind d = s.rind d :=
  State.rind_of_rinds ((State.freeCoder_keeps rfl (.refl 0x481100c005 s)).same .rinds rfl) d

theorem State.spareCheck_pair (s : State) : s.spareCheck.pair = { s.pair with spareLow := s.spareCheck.pair.spareLow } := by
  have rolled : s.rollWaits.pair = s.pair := (State.rollWaits_keeps rfl (.refl 0x4000 s)).same .pair rfl
  unfold State.spareCheck
  dsimp only
  repeat' split
  · rw [rolled]
  · rw [State.log_pair, State.event_pair, State.modPair_pair, rolled]
  · rw [State.modPair_pair, rolled]
  · rw [rolled]

theorem State.freeCoder_pair (s : State) (k cause : Nat) :
    (s.freeCoder k cause).pair = { s.pair with spareLow := (s.freeCoder k cause).pair.spareLow } := by
  unfold State.freeCoder
  extract_lets gone freed
  have before : Keeps 0x1008000 s freed := by
    refine Keeps.ite ?_ (Keeps.ite ?_ ?_)
    · exact State.modCoder_keeps rfl (State.modCoder_keeps rfl (.refl _ s))
    · exact State.modTile_keeps rfl (State.modCoder_keeps rfl (State.modCoder_keeps rfl (.refl _ s)))
    · exact State.modCoder_keeps rfl (State.modCoder_keeps rfl (.refl _ s))
  have trimmed : freed.spareCheck.trimCoders.pair = freed.spareCheck.pair :=
    (State.trimCoders_keeps rfl (.refl 0x1008001 freed.spareCheck)).same .pair rfl
  rw [trimmed, State.spareCheck_pair, before.same .pair rfl]

section
variable (s : State) (c : Nat)

theorem State.spareCheck_sparingKept : s.SparingKept s.spareCheck c where
  other d _ := s.rind_spareCheck d
  waits := by rw [State.rind_spareCheck]
  storm := by rw [State.rind_spareCheck]
  pair := by rw [State.spareCheck_pair]

theorem State.freeCoder_sparingKept (k cause : Nat) : s.SparingKept (s.freeCoder k cause) c where
  other d _ := s.rind_freeCoder k cause d
  waits := by rw [State.rind_freeCoder]
  storm := by rw [State.rind_freeCoder]
  pair := by rw [State.freeCoder_pair]

theorem State.fenceReport_sparingKept : s.SparingKept (s.fenceReport c) c := by
  unfold State.fenceReport
  dsimp only
  split
  · exact .refl s
  · exact (State.SparingKept.modRind s _ rfl rfl).trans ((State.logData_keeps rfl (.refl 0x4000000000 _)).sparingKept rfl rfl)

theorem State.handedOver_sparingKept : s.SparingKept (s.handedOver c) c := by
  unfold State.handedOver
  dsimp only
  have told := (State.SparingKept.modRind (c := c) s (fun x => { x with handing := false, fenced := false, prev := none }) rfl rfl).trans
    (State.fenceReport_sparingKept _ c)
  repeat' split
  · exact told
  · exact told.trans (State.freeCoder_sparingKept _ c _ _)
  · exact told

theorem State.lineResolved_sparingKept (frame line : Nat) : s.SparingKept (s.lineResolved c frame line) c :=
  .ite (s.handedOver_sparingKept c) (.refl s)

theorem State.frameResolved_sparingKept : s.SparingKept (s.frameResolved c) c :=
  .ite (s.handedOver_sparingKept c) (.refl s)

/-! ## The rind (R178, R200) -/

theorem State.modLineRecord_sparingKept (frame line : Nat) (f : MirrorRec → MirrorRec) : s.SparingKept (s.modLineRecord c frame line f) c :=
  .modRind s _ rfl rfl

theorem State.openRecord_sparingKept (frame line n : Nat) : s.SparingKept (s.openRecord c frame line n) c := by
  unfold State.openRecord
  split
  · exact .refl s
  · refine .modRind s _ ?_ ?_
    all_goals
      dsimp only
      split <;> rfl

theorem State.closeLine_sparingKept (number line : Nat) : s.SparingKept (s.closeLine c number line) c := by
  unfold State.closeLine
  split
  · exact .refl s
  · extract_lets rs packed last sent next recorded noted
    have before : Keeps 0x8800000 s sent := by
      refine State.chanSend_keeps rfl ?_
      unfold packed
      split
      · exact Keeps.ite (State.closePacket_keeps rfl (.refl _ s)) (.refl _ s)
      · exact .refl _ s
    exact (before.sparingKept rfl rfl).trans <| (sent.modLineRecord_sparingKept c number line _).trans <|
      ((State.modFrame_keeps rfl (.refl 0x800000 recorded)).sparingKept rfl rfl).trans (noted.lineResolved_sparingKept c number line)

theorem State.closeFrame_sparingKept : s.SparingKept (s.closeFrame c) c := by
  unfold State.closeFrame
  split
  · exact .refl s
  next f rest _ =>
    split
    · exact .refl s
    · split
      · exact .refl s
      · refine .under (fun y => ?_) s f.number
        extract_lets sent x r recorded noted closed
        have before : Keeps 0x8800000 y sent := State.chanSend_keeps rfl (.refl _ y)
        have after : Keeps 0x4c00a00045 noted closed := State.channelProxy_keeps rfl (State.modChan_keeps rfl (.refl _ noted))
        have records : recorded.SparingKept noted c := ⟨fun _ _ => rfl, rfl, rfl, rfl⟩
        exact (before.sparingKept rfl rfl).trans <| (State.SparingKept.modRind sent _ rfl rfl).trans <| records.trans <|
          (after.sparingKept rfl rfl).trans (closed.frameResolved_sparingKept c)

theorem State.resolve_sparingKept (j : Job) (o : Outcome3) : s.SparingKept (s.resolve c j o) c := by
  unfold State.resolve
  extract_lets e col g pos n zone how sent void marked closing noted lacking opened head record recon counted voided zoned rtp carried
    after out lined
  have before : Keeps 0x800000 s lacking := Keeps.ite
    (State.modChan_keeps rfl (State.modFrame_keeps rfl (State.modChan_keeps rfl (State.modJob_keeps rfl (.refl _ s)))))
    (State.modFrame_keeps rfl (State.modChan_keeps rfl (State.modJob_keeps rfl (.refl _ s))))
  have h1 : s.SparingKept opened c := (before.sparingKept rfl rfl).trans (lacking.openRecord_sparingKept c _ _ _)
  have h2 : Keeps 0x1 opened voided :=
    Keeps.ite (State.count_keeps rfl (State.count_keeps rfl (State.count_keeps rfl (.refl _ _))))
      (State.count_keeps rfl (State.count_keeps rfl (.refl _ _)))
  have h3 : Keeps 0x1 opened zoned := Keeps.ite (State.count_keeps rfl h2) h2
  have h4 : Keeps 0x8800000 zoned carried :=
    Keeps.ite (State.packRecord_keeps rfl (.refl _ _)) (State.chanSend_keeps rfl (.refl _ _))
  have h5 : s.SparingKept out c := by
    refine .ite ?skipped ?sent
    case skipped => exact h1.trans ((State.count_keeps rfl (.refl 0x1 opened)).sparingKept rfl rfl)
    case sent =>
      exact h1.trans <| (h3.sparingKept rfl rfl).trans <| (h4.sparingKept rfl rfl).trans <|
        (carried.modLineRecord_sparingKept c _ _ _).trans ((State.pressFollows_keeps rfl (.refl 0x800000 _)).sparingKept rfl rfl)
  have h6 : s.SparingKept lined c := by
    unfold lined
    split
    · exact .ite (h5.trans (out.closeLine_sparingKept c _ _)) h5
    · exact h5
  exact h6.trans <| (lined.closeFrame_sparingKept c).trans ((State.dropJobs_keeps rfl (.refl 0x800000 _)).sparingKept rfl rfl)

/-! ## The harmless state of a channel (R142) -/

theorem State.finishFrame_sparingKept (f : TxFrame) : s.SparingKept (s.finishFrame c f) c := by
  unfold State.finishFrame
  refine ((State.modFrame_keeps rfl (.refl 0x800000 s)).sparingKept rfl rfl).trans (.under (fun y => ?_) _ f.number)
  exact .foldl (fun y line => .foldl (fun y e => .ite (y.resolve_sparingKept c _ .void) (.refl y)) _ y) _ y

theorem State.finishFrames_sparingKept : s.SparingKept (s.finishFrames c) c :=
  (State.SparingKept.foldl (fun y f => y.finishFrame_sparingKept c f) _ s).trans
    ((State.modChan_keeps rfl (.refl 0x800000 _)).sparingKept rfl rfl)

theorem State.channelHarmless_sparingKept (reason cls : Nat) : s.SparingKept (s.channelHarmless c reason cls) c := by
  unfold State.channelHarmless
  split
  · exact .refl s
  · split
    · exact .refl s
    · exact .refl s
    · exact (s.finishFrames_sparingKept c).trans
        ((State.beginEov_keeps rfl (State.modChan_keeps rfl (.refl 0x8800000 _))).sparingKept rfl rfl)

/-- The coder that is lost is failed; the channel waits and is in a storm as before (R197). -/
theorem State.loseCoder_sparingKept (cause : Nat) : s.SparingKept (s.loseCoder c cause) c := by
  unfold State.loseCoder
  dsimp only
  split
  · exact .ite ((State.SparingKept.modRind s _ rfl rfl).trans (State.freeCoder_sparingKept _ c _ _)) (.refl s)
  · exact .refl s

end

end Sys2Proof.Machine
end

section
/-!
PROOF. Claims and storms (R192, R193, R196 to R198): a grant that is made, a grant refused by a storm, a cause or a channel for which no
spare is ripe, and the end of a storm.
-/

namespace Sys2Proof.Machine

/-! ## A grant that is made (R192, R193) -/

/-- The grant of spare `k` to channel `c`: the coder is its holder under the next claim, from a first line that begins at `start` or
later, and no other rind changes. -/
structure State.GrantMade (s t : State) (c k start : Nat) : Prop where
  coder     : (t.rind c).coder = some k
  claim     : (t.rind c).claim = (s.nextClaim c).1
  pending   : (t.rind c).pending = true
  notBefore : (t.rind c).notBefore = start
  grants    : (t.rind c).grants = s.now :: lastSecond s.now (s.rind c).grants
  waits     : (t.rind c).waits = none
  state     : (t.coder k).state = .holding
  channel   : (t.coder k).channel = some c
  other     : ∀ d, d ≠ c → t.rind d = s.rind d

theorem State.makeGrant_made (s : State) (c k cause start : Nat) : s.GrantMade (s.makeGrant c k cause start) c k start := by
  unfold State.makeGrant
  extract_lets x taken freed old held
  rcases hn : s.nextClaim c with ⟨claim, g⟩
  dsimp -zeta only
  extract_lets granted holding coding counted cleared asked
  have before : Keeps 0x481100c005 s freed := by
    have first : Keeps 0x481100c005 s taken := State.modCoder_keeps rfl (.refl _ s)
    unfold freed
    split
    · exact State.freeCoder_keeps rfl first
    · refine Keeps.ite ?_ first
      split
      · exact State.freeCoder_keeps rfl first
      · exact first
  have after : Keeps 0x4810844025 holding asked.spareCheck := by
    have told : Keeps 0x4810844025 holding cleared :=
      State.clearCause_keeps rfl <| State.event_keeps rfl <| State.count_keeps rfl <| State.event_keeps rfl <| State.count_keeps rfl <|
        State.modChan_keeps rfl (.refl _ holding)
    exact State.spareCheck_keeps rfl (Keeps.ite (State.askWitness_keeps rfl told) told)
  have ungated : Keeps 0x1008000 granted holding := State.modCoder_keeps rfl (State.ungateSpare_keeps rfl (.refl _ granted))
  have rind (d : Nat) : asked.spareCheck.rind d = granted.rind d :=
    (State.rind_of_rinds (after.same .rinds rfl) d).trans (State.rind_of_rinds (ungated.same .rinds rfl) d)
  have was (d : Nat) : freed.rind d = s.rind d := State.rind_of_rinds (before.same .rinds rfl) d
  have own := (rind c).trans ((freed.rind_setRind c c _).trans (if_pos rfl))
  have coder := (State.coder_of_coders (after.same .coders rfl) k).trans ((granted.ungateSpare.coder_setCoder k k _).trans (if_pos rfl))
  refine ⟨by rw [own], by rw [own, hn], by rw [own], by rw [own], ?_, by rw [own], by rw [coder], by rw [coder], fun d hd => ?_⟩
  · rw [own, was]
    exact congrArg (fun n => n :: lastSecond n (s.rind c).grants) before.now
  · exact (rind d).trans (((freed.rind_setRind c d _).trans (if_neg hd)).trans (was d))

section
variable {s : State} {c k cause start : Nat}

theorem State.grant_of_below (hg : (lastSecond s.now (s.rind c).grants).length < s.stormLimit)
    (he : ¬(s.pairMode = true ∧ 16 ≤ (s.nextClaim c).2)) : s.grant c k cause start = s.makeGrant c k cause start := by
  unfold State.grant
  dsimp only
  rw [if_neg (Nat.not_le.mpr hg), if_neg (by simpa using he)]

end

/-! ## A channel without its grant (R197, R198) -/

/-- An output that no coder serves goes to its harmless state, and the coder that it lost is failed. -/
def State.holdOut (s : State) (c cause reason cls : Nat) : State := (s.goHarmless (.channel c) reason cls).loseCoder c cause

/-- The rind of a channel whose grant is refused at the limit, and of one that waits for a spare. -/
def Rind.stormed (x : Rind) (now : Nat) : Rind :=
  { x with grants := lastSecond now x.grants, refused := now :: lastSecond now x.refused, storm := true, waits := none }
def Rind.awaiting (x : Rind) (now : Nat) : Rind := { x with waits := some (x.waits.getD now) }

/-- A grant is refused at the limit: the channel is in a storm, and the ledger is told so. -/
def State.stormNoted (s : State) (c : Nat) : State :=
  ((s.modRind c fun x => x.stormed s.now).event R.brine_EVENTS 16).rindLog F.CLAIM_STORM c 7
    (leBytes 4 (lastSecond s.now (s.rind c).grants).length)

/-- No spare is ripe: the event is raised and the channel waits. -/
def State.spareAwaited (s : State) (c : Nat) : State :=
  (s.event R.brine_EVENTS 8).modRind c fun x => x.awaiting (s.event R.brine_EVENTS 8).now

/-- The ledger is told that no spare is ripe. -/
def State.spareLacked (s : State) (c : Nat) : State :=
  (s.spareAwaited c).rindLog F.NO_SPARE c 6 (leBytes 1 (s.spareAwaited c).ripeSpares.length ++ leBytes 1 (s.spareAwaited c).failedCoders.length)

section
variable (s : State) (c : Nat)

theorem State.grant_of_storm (k cause start : Nat) (h : s.stormLimit ≤ (lastSecond s.now (s.rind c).grants).length) :
    s.grant c k cause start = (s.stormNoted c).holdOut c cause 7 F.CLAIM_STORM.code := if_pos h

theorem State.noSpare_eq (cause : Nat) : s.noSpare c cause = ((s.spareLacked c).holdOut c cause 6 F.NO_SPARE.code).spareCheck := rfl

theorem State.holdOut_sparingKept (cause reason cls : Nat) : s.SparingKept (s.holdOut c cause reason cls) c :=
  (s.channelHarmless_sparingKept c reason cls).trans (State.loseCoder_sparingKept _ c cause)

theorem State.holdOut_keeps (cause reason cls : Nat) : Keeps 0x4c3da0c865 s (s.holdOut c cause reason cls) :=
  State.loseCoder_keeps rfl (State.goHarmless_keeps rfl (.refl _ s))

theorem State.rind_stormNoted (d : Nat) : (s.stormNoted c).rind d = if d = c then (s.rind c).stormed s.now else s.rind d :=
  (State.rind_of_rinds ((State.eventLogOut_keeps _ _ _ _ _ _ _ _).same .rinds rfl) d).trans (s.rind_setRind c d _)

theorem State.stormNoted_logs (hrun : s.running = true) : s.Logs (s.stormNoted c) F.CLAIM_STORM :=
  (State.eventLogOut_logs (s := s.modRind c fun x => x.stormed s.now) _ _ _ _ _ _ _ _ (.refl _ _) hrun).after
    (State.modRind_keeps rfl (.refl 0x4000000 s)) rfl

theorem State.spareAwaited_keeps : Keeps 0x4804000005 s (s.spareAwaited c) :=
  State.modRind_keeps rfl (State.event_keeps rfl (.refl _ s))

theorem State.rind_spareLacked (d : Nat) : (s.spareLacked c).rind d = if d = c then (s.rind c).awaiting s.now else s.rind d := by
  have told : Keeps 0x4800000005 s (s.event R.brine_EVENTS 8) := State.event_keeps rfl (.refl _ s)
  have rind (d : Nat) : (s.event R.brine_EVENTS 8).rind d = s.rind d := State.rind_of_rinds (told.same .rinds rfl) d
  have now : (s.event R.brine_EVENTS 8).now = s.now := told.now
  have logged : (s.spareLacked c).rind d = (s.spareAwaited c).rind d :=
    State.rind_of_rinds ((State.rindLog_keeps rfl (.refl 0x4000000000 _)).same .rinds rfl) d
  rw [logged, State.spareAwaited, State.modRind_eq, State.rind_setRind, rind, rind, now]

theorem State.spareLacked_logs (hrun : s.running = true) : s.Logs (s.spareLacked c) F.NO_SPARE :=
  (State.logOut_logsOne ((s.spareAwaited_keeps c).running rfl hrun) _ _ _ _ _).logs.after (s.spareAwaited_keeps c) rfl

/-- At the limit no claim is granted. -/
theorem State.grant_storms (k cause start : Nat) (h : s.stormLimit ≤ (lastSecond s.now (s.rind c).grants).length) :
    ((s.grant c k cause start).rind c).storm = true ∧ (s.running = true → s.Logs (s.grant c k cause start) F.CLAIM_STORM) ∧
    ∀ d, d ≠ c → (s.grant c k cause start).rind d = s.rind d := by
  rw [s.grant_of_storm c k cause start h]
  have held := (s.stormNoted c).holdOut_sparingKept c cause 7 F.CLAIM_STORM.code
  refine ⟨?_, fun hrun => (s.stormNoted_logs c hrun).keep (State.holdOut_keeps _ c _ _ _) rfl, fun d hd => ?_⟩
  · rw [held.storm, State.rind_stormNoted, if_pos rfl]
    rfl
  · rw [held.other d hd, State.rind_stormNoted, if_neg hd]

theorem State.noSpare_waits (cause : Nat) :
    ((s.noSpare c cause).rind c).waits.isSome = true ∧ (s.running = true → s.Logs (s.noSpare c cause) F.NO_SPARE) ∧
    ∀ d, d ≠ c → (s.noSpare c cause).rind d = s.rind d := by
  rw [State.noSpare_eq]
  have held := ((s.spareLacked c).holdOut_sparingKept c cause 6 F.NO_SPARE.code).trans (State.spareCheck_sparingKept _ c)
  refine ⟨?_, fun hrun => (s.spareLacked_logs c hrun).keep (State.spareCheck_keeps rfl (State.holdOut_keeps _ c _ _ _)) rfl, fun d hd => ?_⟩
  · rw [held.waits, State.rind_spareLacked, if_pos rfl]
    rfl
  · rw [held.other d hd, State.rind_spareLacked, if_neg hd]

end

/-! ## CLAIM_GRANT -/

/-- The spare that a cause may have: the ripe one that it names, else the lowest-numbered. -/
def State.spareFor (s : State) (x : Takeover) : Option Nat :=
  match x.target with
  | some k => if s.ripeSpares.contains k then some k else none
  | none => s.lowestSpare

/-- A cause is taken up; one of the causes 1 to 4 is reported (R196 step 1). -/
def State.takenUp (s : State) (x : Takeover) (rest : List Takeover) : State :=
  let u : State := { s with takeovers := rest }
  if x.cause ≤ 4 then u.coderFault (some x.channel) x.coder x.cause else u

/-- A cause of the holding coder is served at time `now` by a spare, or is left without one (R196, R197). -/
def State.serveCause (s : State) (x : Takeover) (now : Nat) (spare : Option Nat) : State :=
  match spare with
  | some k => s.grant x.channel k x.cause (if x.cause = 6 then now else now + 500)
  | none =>
    if x.cause = 5 then s.count (R.rind_MOVE_REFUSED x.channel)
    else if x.cause = 6 then s
    else s.noSpare x.channel x.cause

section
variable (s : State) (x : Takeover) (rest : List Takeover)

theorem State.takenUp_frame : ∃ l, s.takenUp x rest = { s with takeovers := rest, ledger := l } := by
  unfold State.takenUp
  dsimp only
  split
  · obtain ⟨l, told⟩ := State.logEntry_frame { s with takeovers := rest } _
    exact ⟨l, told⟩
  · exact ⟨_, rfl⟩

/-- What is told after a cause has been taken up is told after `s`. -/
theorem State.takenUp_logs_after {t : State} {f : FaultClass} (h : (s.takenUp x rest).Logs t f) : s.Logs t f := by
  have told : Keeps 0x4000000000 { s with takeovers := rest } (s.takenUp x rest) := Keeps.ite (State.coderFault_keeps rfl (.refl _ _)) (.refl _ _)
  exact (h.after told rfl).of_ledger rfl

theorem State.takenUp_logs (hrun : s.running = true) (h : x.cause ≤ 4) : s.Logs (s.takenUp x rest) F.CODER_FAULT := by
  unfold State.takenUp
  dsimp only
  rw [if_pos h]
  exact (State.logData_logsOne (s := { s with takeovers := rest }) hrun _ _ _ _).logs.of_ledger rfl

theorem State.takenUp_running (hrun : s.running = true) : (s.takenUp x rest).running = true := by
  obtain ⟨l, told⟩ := s.takenUp_frame x rest
  rw [told]
  exact hrun

theorem State.rind_takenUp (d : Nat) : (s.takenUp x rest).rind d = s.rind d := by
  obtain ⟨l, told⟩ := s.takenUp_frame x rest
  rw [told]
  rfl

/-- What a cause leaves of the claims: its grant is the one that `s` would make. -/
theorem State.takenUp_grant_made {c : Nat} (k cause start : Nat) (hg : (lastSecond s.now (s.rind c).grants).length < s.stormLimit)
    (he : ¬(s.pairMode = true ∧ 16 ≤ (s.nextClaim c).2)) : s.GrantMade ((s.takenUp x rest).grant c k cause start) c k start := by
  obtain ⟨l, told⟩ := s.takenUp_frame x rest
  rw [told, State.grant_of_below (s := { s with takeovers := rest, ledger := l }) hg he]
  have made := State.makeGrant_made { s with takeovers := rest, ledger := l } c k cause start
  exact ⟨made.coder, made.claim, made.pending, made.notBefore, made.grants, made.waits, made.state, made.channel, made.other⟩

theorem State.takenUp_grant_storms {c : Nat} (k cause start : Nat) (h : s.stormLimit ≤ (lastSecond s.now (s.rind c).grants).length) :
    (((s.takenUp x rest).grant c k cause start).rind c).storm = true ∧
    (s.running = true → s.Logs ((s.takenUp x rest).grant c k cause start) F.CLAIM_STORM) ∧
    ∀ d, d ≠ c → ((s.takenUp x rest).grant c k cause start).rind d = s.rind d := by
  have limit : (s.takenUp x rest).stormLimit ≤ (lastSecond (s.takenUp x rest).now ((s.takenUp x rest).rind c).grants).length := by
    obtain ⟨l, told⟩ := s.takenUp_frame x rest
    rw [told]
    exact h
  obtain ⟨storm, logs, other⟩ := (s.takenUp x rest).grant_storms c k cause start limit
  exact ⟨storm, fun hrun => s.takenUp_logs_after x rest (logs (s.takenUp_running x rest hrun)),
    fun d hd => (other d hd).trans (s.rind_takenUp x rest d)⟩

theorem State.takenUp_noSpare_waits (c cause : Nat) :
    (((s.takenUp x rest).noSpare c cause).rind c).waits.isSome = true ∧
    (s.running = true → s.Logs ((s.takenUp x rest).noSpare c cause) F.NO_SPARE) ∧
    ∀ d, d ≠ c → ((s.takenUp x rest).noSpare c cause).rind d = s.rind d := by
  obtain ⟨waits, logs, other⟩ := (s.takenUp x rest).noSpare_waits c cause
  exact ⟨waits, fun hrun => s.takenUp_logs_after x rest (logs (s.takenUp_running x rest hrun)),
    fun d hd => (other d hd).trans (s.rind_takenUp x rest d)⟩

end

section
variable {s : State} (hsp : s.spRuns = true) (hr : s.roleNo = 0)
include hsp hr

theorem execClaimGrant_of_cause {x : Takeover} {rest : List Takeover} (hn : s.nextCause = some (x, rest)) :
    execClaimGrant s = .next (({ s with takeovers := rest } : State).arbitrateCause x) := by
  unfold execClaimGrant
  rw [if_neg (by simp [hsp, hr]), hn]

/-- A cause of the holding coder is served by its spare, if any. -/
theorem execClaimGrant_of_holder {x : Takeover} {rest : List Takeover} (hn : s.nextCause = some (x, rest))
    (hc : (s.rind x.channel).coder = some x.coder) :
    execClaimGrant s = .next ((s.takenUp x rest).serveCause x s.now (s.spareFor x)) := by
  have holds : ¬((s.takenUp x rest).rind x.channel).coder ≠ some x.coder := by
    rw [State.rind_takenUp]
    exact not_not.mpr hc
  have same : (s.takenUp x rest).now = s.now ∧ (s.takenUp x rest).spareFor x = s.spareFor x := by
    obtain ⟨l, told⟩ := s.takenUp_frame x rest
    rw [told]
    exact ⟨rfl, rfl⟩
  rw [execClaimGrant_of_cause hsp hr hn, ← same.1, ← same.2]
  exact congrArg Host.Outcome.next (if_neg holds)

/-- Without a cause the channel that has waited longest is served. -/
theorem execClaimGrant_of_waiting {e : Nat × Nat} {l : List (Nat × Nat)} {k : Nat} (hn : s.nextCause = none)
    (hw : s.waitingChannels = e :: l) (hk : s.lowestSpare = some k) :
    execClaimGrant s = .next (s.grant e.2 k (s.rind e.2).prevCause s.now) := by
  have ripe : s.ripeSpares ≠ [] := fun h => by simp [State.lowestSpare, h] at hk
  unfold execClaimGrant State.grantWaiting
  simp [hsp, hr, hn, hw, hk, ripe]

/-- Without a cause and a waiting channel, the first channel that has no coder and may have one. -/
theorem execClaimGrant_of_unserved {c k : Nat} (hn : s.nextCause = none) (hw : s.waitingChannels = []) (hu : s.unserved = some c)
    (hk : s.lowestSpare = some k) : execClaimGrant s = .next (s.grant c k 0 s.now) := by
  unfold execClaimGrant
  simp [hsp, hr, hn, hw, hu, hk]

end

/-! ## CLAIM_STORM_CLEAR (R198) -/

/-- The rind after its storm has ended. -/
def Rind.stormOver (x : Rind) (now : Nat) : Rind :=
  { x with storm := false, grants := lastSecond now x.grants, refused := lastSecond now x.refused }

section
variable {c : Fin 48} {s : State}

theorem execClaimStormClear_of_calm (hs : (s.rind c.val).storm = true)
    (h : (lastSecond s.now (s.rind c.val).grants).length + (lastSecond s.now (s.rind c.val).refused).length ≤ s.stormLimit) :
    execClaimStormClear c s = .next ((s.modRind c.val fun x => x.stormOver s.now).clearCause (.channel c.val) F.CLAIM_STORM.code) :=
  if_pos (c := _ ∧ _) ⟨hs, h⟩

theorem execClaimStormClear_of_busy
    (h : s.stormLimit < (lastSecond s.now (s.rind c.val).grants).length + (lastSecond s.now (s.rind c.val).refused).length) :
    execClaimStormClear c s = .next s :=
  if_neg (c := _ ∧ _) fun both => Nat.not_le.mpr h both.2

end

/-! ## The statement -/

/-- Settles O33: a cause is served by its spare, refused, or left waiting, each by its rule above; without a cause the two kinds of
channels are served by the one rule for a grant. -/
theorem claimsAreGrantedAndStormsEnd : Obligations.ClaimsAreGrantedAndStormsEnd := by
  unfold Obligations.ClaimsAreGrantedAndStormsEnd
  refine ⟨?grant, ?storm⟩
  case grant =>
    intro s hsp hr below granted
    have made {t : State} {c k start : Nat} (h : s.GrantMade t c k start) : granted t c k start :=
      ⟨h.coder, h.claim, h.pending, h.notBefore, h.grants, h.waits, h.state, h.channel, h.other⟩
    refine ⟨fun x rest hn hc => ?cause, fun hn => ⟨fun e l k hw hk hb => ?waiting, fun c k hw hu hk hb => ?unserved⟩⟩
    case cause =>
      intro c spare
      have run := execClaimGrant_of_holder hsp hr hn hc
      refine ⟨fun k hk hb => ?_, fun k hk hl => ?_, fun hk h4 => ?_, fun hk h5 => ?_⟩
      all_goals rw [show s.spareFor x = _ from hk] at run
      · refine ⟨_, run, made (s.takenUp_grant_made x rest k x.cause _ hb.1 hb.2), fun h4 hrun => ?_⟩
        exact (s.takenUp_logs x rest hrun h4).keep (State.grant_keeps rfl (.refl 0x4c3da4c865 _)) rfl
      · exact ⟨_, run, s.takenUp_grant_storms x rest k x.cause _ hl⟩
      · rw [State.serveCause, if_neg (by omega), if_neg (by omega)] at run
        exact ⟨_, run, s.takenUp_noSpare_waits x rest c x.cause⟩
      · have taken : s.takenUp x rest = { s with takeovers := rest } := if_neg (by omega)
        rw [State.serveCause, if_pos h5, taken] at run
        exact ⟨_, run, rfl, State.toNat_reg_count _ _⟩
    case waiting =>
      exact ⟨_, execClaimGrant_of_waiting hsp hr hn hw hk, made (State.grant_of_below hb.1 hb.2 ▸ s.makeGrant_made e.2 k _ _)⟩
    case unserved =>
      exact ⟨_, execClaimGrant_of_unserved hsp hr hn hw hu hk, made (State.grant_of_below hb.1 hb.2 ▸ s.makeGrant_made c k _ _)⟩
  case storm =>
    intro c s hs
    have rind (d : Nat) : ((s.modRind c.val fun x => x.stormOver s.now).clearCause (.channel c.val) F.CLAIM_STORM.code).rind d =
        if d = c.val then (s.rind c.val).stormOver s.now else s.rind d := s.rind_setRind c.val d _
    refine ⟨fun h => ⟨_, execClaimStormClear_of_calm hs h, ?_, ?_, fun d hd => (rind d).trans (if_neg hd), rfl⟩,
      fun h => execClaimStormClear_of_busy h⟩
    · rw [rind, if_pos rfl]
      rfl
    · rw [rind, if_pos rfl]
      rfl

end Sys2Proof.Machine
end

section
/-!
PROOF. Asking the witness (R208, R209): what a datagram and an ASK change, and the rows that ask and ask again.
-/

namespace Sys2Proof.Machine

/-! ## The registers of the pair block -/

theorem le_one_lt (p : List Byte) (i : Nat) : le p i 1 < 256 := by
  unfold le
  cases p.drop i with
  | nil => exact Nat.zero_lt_succ _
  | cons b r => exact (by simp : ([b].foldr (fun b acc => b.toNat + 256 * acc) 0) = b.toNat) ▸ b.isLt

/-- The pair-link ports are numbered by a byte. -/
theorem State.pairPort_lt {s : State} {p : Nat} (h : s.pairPort = some p) : p < 256 := by
  have port := List.mem_of_find?_eq_some h
  unfold State.pairPorts at port
  dsimp only at port
  split at port
  · rcases List.mem_cons.mp port with rfl | second
    · exact le_one_lt _ _
    · split at second
      · cases second
      · rw [List.mem_singleton.mp second]
        exact le_one_lt _ _
  · cases port

/-- A register of the pair block. -/
def inPairBlock (a : Nat) : Prop := R.pair ≤ a ∧ a < R.pair + 0x1000

theorem inPairBlock.ne_txFramesReg {a p : Nat} (ha : inPairBlock a) (hp : p < 256) : a ≠ txFramesReg p := by
  obtain ⟨low, high⟩ := ha
  unfold txFramesReg
  simp only [R.pair, R.port_TX_FRAMES, R.port, R.mp_TX_FRAMES, R.mp] at *
  split <;> omega

theorem inPairBlock.ne_hub_SATURATED {a : Nat} (ha : inPairBlock a) : a ≠ R.hub_SATURATED := by
  obtain ⟨low, high⟩ := ha
  simp only [R.pair, R.hub_SATURATED, R.hub] at *
  omega

/-- An event of the pair block changes no other register of it. -/
theorem State.reg_pairEvent {a : Nat} (ha : inPairBlock a) (he : a ≠ R.pair_EVENTS) (s : State) (m : Nat) :
    (s.event R.pair_EVENTS m).reg a = s.reg a :=
  (State.reg_event _ _ _ _ ha.ne_hub_SATURATED).trans (if_neg he)

theorem State.reg_pairReadyCheck {a : Nat} (ha : inPairBlock a) (he : a ≠ R.pair_EVENTS) (s : State) : s.pairReadyCheck.reg a = s.reg a :=
  s.pairReadyCheck_reg he ha.ne_hub_SATURATED

theorem inPairBlock_HB_RX : inPairBlock R.pair_HB_RX := ⟨by decide, by decide⟩
theorem inPairBlock_REC_RX : inPairBlock R.pair_REC_RX := ⟨by decide, by decide⟩
theorem inPairBlock_WIT_TIMEOUTS : inPairBlock R.pair_WIT_TIMEOUTS := ⟨by decide, by decide⟩

/-! ## A datagram leaves (R102, R206) -/

/-- What sending a datagram to an address makes of the state: it leaves the pair-link port in use, and the last STAMP is kept. -/
structure State.DatagramSent (s t : State) (dest : Nat) : Prop where
  pair  : t.pair = { s.pair with lastStamp := t.pair.lastStamp }
  frame : t = { s with wire := t.wire, ports := t.ports, regs := t.regs, pair := t.pair }
  reg   : ∀ a, inPairBlock a → t.reg a = s.reg a
  sends : ∀ p, s.pairPort = some p → ∃ k : List Byte, s.Sends t p (ipLine k.length) (.pair dest p k)

theorem State.sendPairTo_sent (s : State) (dest addr type : Nat) (body : List Byte) : s.DatagramSent (s.sendPairTo dest addr type body) dest := by
  unfold State.sendPairTo
  extract_lets stamp u v6 dport b
  split
  next none => exact ⟨rfl, rfl, fun _ _ => rfl, fun p hp => nomatch (none : s.pairPort = _).symm.trans hp⟩
  next p some =>
    extract_lets src packet
    obtain ⟨sent, -, reg, rest⟩ := State.sendOther_of_up (s := u) (State.port_up_of_pairPort some) (ipLine packet.length) (.pair dest p packet)
    refine ⟨?_, ?_, fun a ha => reg a (ha.ne_txFramesReg (State.pairPort_lt some)), fun q hq => ⟨packet, ?_⟩⟩
    · rw [rest]
      rfl
    · rw [rest]
      rfl
    · cases (some : s.pairPort = _).symm.trans hq
      exact sent

/-! ## An ASK (R209) -/

/-- The ASK of a reason to W0 or W1 that is sent next. -/
def State.nextAskOf (s : State) (reason : Nat) (second : Bool) : Ask :=
  { askId := s.pair.nextAsk, reason := reason, second := second, sentAt := s.now }

/-- An ASK is sent: it waits for its answer, under the next ASK_ID. -/
structure State.AskSent (s t : State) (reason : Nat) (second : Bool) : Prop where
  pair : t.pair = { s.pair with
    nextAsk := s.pair.nextAsk + 1, asks := s.pair.asks ++ [s.nextAskOf reason second], lastStamp := t.pair.lastStamp }
  reg  : ∀ a, inPairBlock a → a ≠ R.pair_ASKS → t.reg a = s.reg a

theorem State.sendAsk_sent (s : State) (reason : Nat) (second : Bool) : s.AskSent (s.sendAsk reason second) reason second := by
  unfold State.sendAsk
  extract_lets id u
  have sent := u.sendPairTo_sent (if second then 2 else 1) (u.pairAddr (if second then 2 else 1)) 4
    (beBytes 1 reason ++ beBytes 1 (b2n u.pairActive) ++ [0, 0] ++ beBytes 4 id.toNat)
  exact ⟨sent.pair, fun a ha h => (sent.reg a ha).trans ((State.reg_count _ _ _).trans (if_neg h))⟩

/-- A reason has been asked for: an ASK of it waits for its answer or for its retry. -/
def Pair.awaits (p : Pair) (reason : Nat) : Prop := (∃ a ∈ p.asks, a.reason = reason) ∨ ∃ a ∈ p.retries, a.1 = reason

/-- After a reason has been asked for, the pair block differs in what waits and in what is sent alone. -/
structure State.Asked (s t : State) (reason : Nat) : Prop where
  awaits : t.pair.awaits reason
  pair   : t.pair = { s.pair with nextAsk := t.pair.nextAsk, asks := t.pair.asks, lastStamp := t.pair.lastStamp }
  reg    : ∀ a, inPairBlock a → a ≠ R.pair_ASKS → t.reg a = s.reg a

theorem State.askWitness_asked (s : State) (reason : Nat) : s.Asked (s.askWitness reason) reason := by
  unfold State.askWitness
  split
  next waits =>
    refine ⟨?_, rfl, fun _ _ _ => rfl⟩
    simpa [Pair.awaits] using waits
  next =>
    have sent := s.sendAsk_sent reason false
    refine ⟨.inl ⟨s.nextAskOf reason false, ?_, rfl⟩, ?_, sent.reg⟩
    · rw [sent.pair]
      exact List.mem_append_right _ List.mem_cons_self
    · rw [sent.pair]

/-! ## Silence (R209) -/

/-- The peer has fallen silent, and the ledger is told so. -/
def State.peerSilent (s : State) : State :=
  ((s.modPair fun p => { p with silent := true }).event R.pair_EVENTS 1).pairLog F.PEER_SILENT (leBytes 8 (s.pair.peerStamp.getD 0))

theorem State.event_pairLog_keeps (s : State) (m : Nat) (f : FaultClass) (data : List Byte) :
    Keeps 0x4800000005 s ((s.event R.pair_EVENTS m).pairLog f data) :=
  State.pairLog_keeps rfl (State.event_keeps rfl (.refl _ s))

/-- An event and an entry of the pair block leave what the pair block holds; the entry joins the intake. -/
theorem State.pair_event_pairLog (s : State) (m : Nat) (f : FaultClass) (data : List Byte) :
    ((s.event R.pair_EVENTS m).pairLog f data).pair = s.pair := (s.event_pairLog_keeps m f data).same .pair rfl

theorem State.event_pairLog_logs {s : State} (hrun : s.running = true) (m : Nat) (f : FaultClass) (data : List Byte) :
    s.Logs ((s.event R.pair_EVENTS m).pairLog f data) f := by
  have raised : Keeps 0x4800000005 s (s.event R.pair_EVENTS m) := State.event_keeps rfl (.refl _ s)
  exact (State.log_logsOne (raised.running rfl hrun) f R.pair data).logs.after raised rfl

/-- The entry of a module whose pair block has changed before. -/
theorem State.modPair_event_pairLog_logs {s : State} (hrun : s.running = true) (g : Pair → Pair) (m : Nat) (f : FaultClass) (data : List Byte) :
    s.Logs (((s.modPair g).event R.pair_EVENTS m).pairLog f data) f :=
  (State.event_pairLog_logs (s := s.modPair g) hrun m f data).of_ledger rfl

theorem State.reg_event_pairLog {a : Nat} (ha : inPairBlock a) (he : a ≠ R.pair_EVENTS) (s : State) (m : Nat) (f : FaultClass)
    (data : List Byte) : ((s.event R.pair_EVENTS m).pairLog f data).reg a = s.reg a :=
  (State.reg_of_regs a (State.log_regs _ _ _ _)).trans (State.reg_pairEvent ha he s m)

theorem execHeartbeatMiss_of_silent {b : Nat} {s : State} (hr : s.pair.role ≠ .single) (hb : s.pair.peerAt = some b)
    (hs : s.pair.silent = false) (hd : s.due (b + s.hbLimit) = true) :
    execHeartbeatMiss s = .next (s.peerSilent.askWitness (if s.pairActive then 5 else 1)) := by
  have active : s.peerSilent.pairActive = s.pairActive := by
    unfold State.pairActive State.peerSilent
    rw [State.pair_event_pairLog]
    rfl
  have stamp : ((s.modPair fun p => { p with silent := true }).event R.pair_EVENTS 1).pair.peerStamp = s.pair.peerStamp := by
    rw [State.event_pair]
    rfl
  unfold execHeartbeatMiss
  rw [hb]
  dsimp only
  rw [if_pos ⟨hr, hs, hd⟩, stamp]
  exact congrArg (fun r => Host.Outcome.next (s.peerSilent.askWitness (if r = true then 5 else 1))) active

/-! ## Retries (R209) -/

/-- No answer has come to an ASK within WIT_MS. -/
def State.unanswered (s : State) (a : Ask) : State :=
  ((s.count R.pair_WIT_TIMEOUTS).event R.pair_EVENTS 4).modPair fun p => { p with
    witOk := false, asks := p.asks.filter fun b => b.askId != a.askId }

/-- No witness has answered: the ledger is told so, and then the reason waits for its retry. -/
def State.unreachableTold (s : State) (a : Ask) : State :=
  s.pairLog F.WITNESS_UNREACHABLE (leBytes 1 a.reason ++ leBytes 1 (if a.second then 2 else 1))
def State.unreachable (s : State) (a : Ask) : State :=
  (s.unreachableTold a).modPair fun p => { p with retries := p.retries ++ [(a.reason, (s.unreachableTold a).now)] }

section
variable (s : State) (a : Ask)

theorem State.unanswered_keeps : Keeps 0x4810000005 s (s.unanswered a) :=
  State.modPair_keeps rfl (State.event_keeps rfl (State.count_keeps rfl (.refl _ s)))

theorem State.unanswered_pair : (s.unanswered a).pair =
    { s.pair with witOk := false, asks := s.pair.asks.filter fun b => b.askId != a.askId } := by
  unfold State.unanswered
  rw [State.modPair_pair, State.event_pair]
  rfl

theorem State.unanswered_witnessField (off n : Nat) : (s.unanswered a).witnessField off n = s.witnessField off n := by
  unfold State.witnessField
  rw [State.payload_of_config ((s.unanswered_keeps a).same .config rfl)]

theorem State.toNat_WIT_TIMEOUTS_unanswered : ((s.unanswered a).reg R.pair_WIT_TIMEOUTS).toNat =
    min 0xFFFFFFFF ((s.reg R.pair_WIT_TIMEOUTS).toNat + 1) := by
  have raised := (s.count R.pair_WIT_TIMEOUTS).reg_pairEvent inPairBlock_WIT_TIMEOUTS (by decide) 4
  exact (congrArg BitVec.toNat raised).trans (s.toNat_reg_count _)

end

theorem State.unreachableTold_keeps (s : State) (a : Ask) : Keeps 0x4000000000 s (s.unreachableTold a) := State.pairLog_keeps rfl (.refl _ s)

theorem State.unreachable_regs (s : State) (a : Ask) : (s.unreachable a).regs = s.regs := (s.unreachableTold_keeps a).same .regs rfl

theorem State.unreachable_pair (s : State) (a : Ask) :
    (s.unreachable a).pair = { s.pair with retries := s.pair.retries ++ [(a.reason, s.now)] } := by
  have now : (s.unreachableTold a).now = s.now := (s.unreachableTold_keeps a).now
  rw [State.unreachable, State.modPair_pair, (s.unreachableTold_keeps a).same .pair rfl, now]

theorem State.unreachable_logs {s : State} (hrun : s.running = true) (a : Ask) : s.Logs (s.unreachable a) F.WITNESS_UNREACHABLE :=
  (State.log_logsOne (s := s) hrun _ _ _).logs

section
variable {a : Ask} {s : State} (h : (s.pair.asks.find? fun a => s.due (a.sentAt + ms (s.witnessField 2 2))) = some a)
include h

/-- The first ASK of a reason, of two witnesses, goes to W1. -/
theorem execWitnessTimeout_of_first (again : a.second = false ∧ s.witnessField 0 1 = 2) :
    execWitnessTimeout s = .next ((s.unanswered a).sendAsk a.reason true) := by
  unfold execWitnessTimeout
  rw [h]
  exact if_pos ⟨by rw [again.1]; rfl, ((s.unanswered_witnessField a 0 1).trans again.2 :)⟩

theorem execWitnessTimeout_of_last (last : ¬(a.second = false ∧ s.witnessField 0 1 = 2)) :
    execWitnessTimeout s = .next ((s.unanswered a).unreachable a) := by
  unfold execWitnessTimeout
  rw [h]
  exact if_neg fun both => last ⟨by simpa using both.1, (s.unanswered_witnessField a 0 1).symm.trans both.2⟩

end

/-- The reason leaves the retries. -/
def State.retried (s : State) (reason : Nat) : State := s.modPair fun p => { p with retries := p.retries.filter fun x => x.1 != reason }

section
variable {r b : Nat} {s : State} (h : (s.pair.retries.find? fun r => s.due (r.2 + ms (s.witnessField 4 2))) = some (r, b))
include h

theorem execWitnessRetry_of_stands (stands : s.askStands r = true) : execWitnessRetry s = .next ((s.retried r).sendAsk r false) := by
  unfold execWitnessRetry
  rw [h]
  exact if_pos stands

theorem execWitnessRetry_of_gone (gone : s.askStands r = false) : execWitnessRetry s = .next (s.retried r) := by
  unfold execWitnessRetry
  rw [h]
  exact if_neg (Bool.not_eq_true _ ▸ gone)

end

/-! ## The statement -/

/-- Settles O36: each row asks by the one rule for an ASK, and what waits is read off the pair block. -/
theorem witnessIsAskedAndRetried : Obligations.WitnessIsAskedAndRetried := by
  unfold Obligations.WitnessIsAskedAndRetried
  refine ⟨?miss, ?noActive, ?timeout, ?retry⟩
  case miss =>
    intro b s hr hb hs hd r
    have asked := s.peerSilent.askWitness_asked r
    have told : s.peerSilent.pair = { s.pair with silent := true } := State.pair_event_pairLog _ _ _ _
    refine ⟨_, execHeartbeatMiss_of_silent hr hb hs hd, ?_, fun hrun => ?_, ?_, asked.awaits⟩
    · rw [asked.pair, told]
    · exact (State.modPair_event_pairLog_logs hrun _ _ _ _).keep (State.askWitness_keeps rfl (.refl 0x10040021 _)) rfl
    · rw [asked.pair, told]
  case noActive =>
    intro s h
    have asked := s.askWitness_asked 3
    exact ⟨_, if_pos h, by rw [asked.pair], asked.awaits⟩
  case timeout =>
    intro a s h others
    have silent := s.unanswered_pair a
    have count := s.toNat_WIT_TIMEOUTS_unanswered a
    by_cases again : a.second = false ∧ s.witnessField 0 1 = 2
    case pos =>
      have sent := (s.unanswered a).sendAsk_sent a.reason true
      have next : (s.unanswered a).nextAskOf a.reason true = s.nextAskOf a.reason true := by
        rw [State.nextAskOf, State.now, (s.unanswered_keeps a).now, silent]
        rfl
      refine ⟨_, execWitnessTimeout_of_first h again, ?_, ?_, fun _ => ⟨?_, ?_, ?_⟩, fun h => absurd again h⟩
      · rw [sent.pair, silent]
      · rw [sent.reg _ inPairBlock_WIT_TIMEOUTS (by decide), count]
      · rw [sent.pair, next, silent]
        rfl
      · rw [sent.pair, silent]
      · rw [sent.pair, silent]
    case neg =>
      have told := (s.unanswered a).unreachable_pair a
      have now : (s.unanswered a).now = s.now := (s.unanswered_keeps a).now
      refine ⟨_, execWitnessTimeout_of_last h again, ?_, ?_, fun h => absurd h again, fun _ => ⟨?_, ?_, fun hrun => ?_⟩⟩
      · rw [told, silent]
      · rw [State.reg_of_regs _ ((s.unanswered a).unreachable_regs a), count]
      · rw [told, silent]
      · rw [told, silent, now]
      · exact (State.unreachable_logs ((s.unanswered_keeps a).running rfl hrun) a).after (s.unanswered_keeps a) rfl
  case retry =>
    intro r b s h
    cases stands : s.askStands r
    case true =>
      have sent := (s.retried r).sendAsk_sent r false
      refine ⟨_, execWitnessRetry_of_stands h stands, ?_, fun _ => ⟨?_, ?_⟩, nofun⟩
      · rw [sent.pair]
        rfl
      · rw [sent.pair]
        rfl
      · rw [sent.pair]
        rfl
    case false => exact ⟨_, execWitnessRetry_of_gone h stands, rfl, nofun, fun _ => ⟨rfl, rfl⟩⟩

end Sys2Proof.Machine
end

section
/-!
PROOF. Pair datagrams as the module takes them (R205 to R211): the checks of R206, and what a good HEARTBEAT, RECORDS, HANDOVER, ANSWER
or PROBE does.
-/

namespace Sys2Proof.Machine

/-! ## The checks (R206) -/

/-- What a datagram that fails the checks, or one with the module's own RANK, may change: registers, the hub and the ledger. -/
theorem Keeps.noted_eq {s t : State} (h : Keeps 0x4800000005 s t) :
    t = { s with regs := t.regs, cores := t.cores, setNow := t.setNow, ledger := t.ledger } := by
  refine h.eq_of_agree rfl (fun p hp => ?_) (fun p hp => ?_)
  · cases p
    case regs | setNow | cores | ledger => cases hp
    all_goals rfl
  · cases p
    case regs | setNow | cores | ledger => rfl
    all_goals cases hp

theorem State.pairReject_counts (s : State) (rank reason : Nat) :
    let t := s.pairReject rank reason
    t = { s with regs := t.regs, cores := t.cores, setNow := t.setNow, ledger := t.ledger } ∧
    (t.reg R.pair_AUTH_FAIL).toNat = min 0xFFFFFFFF ((s.reg R.pair_AUTH_FAIL).toNat + 1) := by
  refine ⟨Keeps.noted_eq (State.pairReject_keeps rfl (.refl _ s)), ?_⟩
  have logged : (s.pairReject rank reason).regs = ((s.count R.pair_AUTH_FAIL).event R.pair_EVENTS 8).regs :=
    (State.logRated_keeps rfl (.refl 0x4000000000 _)).same .regs rfl
  rw [State.reg_of_regs _ logged, State.reg_pairEvent ⟨by decide, by decide⟩ (by decide), State.toNat_reg_count]

section
variable {s : State} {b : List Byte} {type : Nat} {f : PairDatagram → State → State}

/-- The last STAMP accepted from an address. -/
def State.witStamp (s : State) (src : Nat) : Option Nat := (s.pair.witStamps.find? fun e => e.1 == src).map (·.2)

/-- The STAMP of a good datagram is the last accepted one, of the peer or of a witness. -/
def State.peerStamped (s : State) (b : List Byte) : State := s.modPair fun p => { p with peerStamp := some (readPair b).stamp }
def State.witStamped (s : State) (src : Nat) (b : List Byte) : State :=
  s.modPair fun p => { p with witStamps := (src, (readPair b).stamp) :: p.witStamps.filter fun e => e.1 != src }

theorem State.pairAccept_of_deaf (h : s.pairHears = false ∨ isPair b type = false) : s.pairAccept b type f = s := by
  obtain h | h := h <;> simp [State.pairAccept, h]

theorem State.witAccept_of_deaf {src : Nat} (h : s.pairHears = false ∨ isPair b type = false) : s.witAccept src b type f = s := by
  obtain h | h := h <;> simp [State.witAccept, h]

section
variable (hh : s.pairHears = true) (ht : isPair b type = true)
include hh ht

theorem State.pairAccept_of_bad (hb : s.pairBad b s.pair.peerStamp ≠ none) :
    ∃ r, s.pairAccept b type f = s.pairReject (readPair b).rank r := by
  obtain ⟨r, hr⟩ := Option.ne_none_iff_exists'.mp hb
  exact ⟨r, by simp [State.pairAccept, hh, ht, hr]⟩

theorem State.witAccept_of_bad {src : Nat} (hb : s.pairBad b (s.witStamp src) ≠ none) :
    ∃ r, s.witAccept src b type f = s.pairReject (readPair b).rank r := by
  obtain ⟨r, hr⟩ := Option.ne_none_iff_exists'.mp hb
  unfold State.witStamp at hr
  exact ⟨r, by simp [State.witAccept, hh, ht, hr]⟩

theorem State.pairAccept_of_good (hb : s.pairBad b s.pair.peerStamp = none) :
    s.pairAccept b type f = f (readPair b) (s.peerStamped b) := by
  simp [State.pairAccept, hh, ht, hb, State.peerStamped]

theorem State.witAccept_of_good {src : Nat} (hb : s.pairBad b (s.witStamp src) = none) :
    s.witAccept src b type f = f (readPair b) (s.witStamped src b) := by
  unfold State.witStamp at hb
  simp [State.witAccept, hh, ht, hb, State.witStamped]

end

end

/-! ## HEARTBEAT (R207, R209) -/

section
variable {s : State} {b : List Byte}

theorem execHeartbeatRx_of_other (h : ¬(s.pairHears = true ∧ isPair b 1 = true ∧ (readPair b).rank = s.pairField 1 1)) :
    execHeartbeatRx b s = .next (s.pairAccept b 1 fun d s => s.onHeartbeat d (BitVec.ofNat 8 (le d.body 0 1))) :=
  if_neg (by simpa [and_assoc] using h)

section
variable (hh : s.pairHears = true) (ht : isPair b 1 = true) (own : (readPair b).rank = s.pairField 1 1)
include hh ht own

theorem execHeartbeatRx_of_own_bad (hb : s.pairBad b none ≠ none) : ∃ r, execHeartbeatRx b s = .next (s.pairReject (readPair b).rank r) := by
  obtain ⟨r, hr⟩ := Option.ne_none_iff_exists'.mp hb
  exact ⟨r, by simp [execHeartbeatRx, hh, ht, own, hr]⟩

theorem execHeartbeatRx_of_own_good (hb : s.pairBad b none = none) : execHeartbeatRx b s =
    .next (s.logRated F.PAIR_RANK_CLASH 0 R.pair 0 (fun _ => leBytes 1 (readPair b).rank) false) := by
  simp [execHeartbeatRx, hh, ht, own, hb]

end

end

/-- READY is judged anew: only the role of a standby may change, and it stays a standby. -/
theorem State.pairReadyCheck_pair (s : State) : s.pairReadyCheck.pair = { s.pair with role := s.pairReadyCheck.pair.role } ∧
    (s.pair.role = .standby → s.pairReadyCheck.pair.role = .standby ∨ s.pairReadyCheck.pair.role = .ready) := by
  unfold State.pairReadyCheck
  repeat' split
  next standby _ =>
    rw [State.pair_event_pairLog]
    exact ⟨rfl, fun _ => .inr rfl⟩
  next standby _ => exact ⟨rfl, fun _ => .inl standby⟩
  next ready _ => exact ⟨rfl, fun h => nomatch ready.symm.trans h⟩
  next ready _ =>
    rw [State.event_pair]
    exact ⟨rfl, fun _ => .inl rfl⟩
  next other _ => exact ⟨rfl, fun h => absurd h other⟩

/-- The module turns standby (R211): no channel has an open frame or a curd in hand. -/
structure State.TurnedStandby (s t : State) (term : Nat) : Prop where
  role  : t.pair.role = .standby ∨ t.pair.role = .ready
  pair  : t.pair = { s.pair with
    role := t.pair.role, term := max s.pair.term term, yield := false, switchH := none, switchOk := false, retries := [], asks := [] }
  chans : ∀ c, (t.chan c).frames = [] ∧ (t.chan c).jobs = []
  logs  : s.running = true → s.Logs t F.DEMOTED
  reg   : ∀ a, inPairBlock a → a ≠ R.pair_EVENTS → t.reg a = s.reg a

/-- What turning standby makes of a channel. -/
def Chan.quieted (x : Chan) : Chan :=
  { x with
    state := if x.state = .off then .off else .enabled, started := false, frames := [], jobs := [], packet := none, eov := none, startAfter := none,
    gapA := {}, gapB := {} }

/-- The role given up, the ledger told of it, and the channels and head outputs quiet: READY is then judged anew. -/
def State.roleGiven (s : State) (term : Nat) : State := s.modPair fun p => { p with
  role := .standby, term := max p.term term, yield := false, switchH := none, switchOk := false, retries := [], asks := [] }
def State.demotionTold (s : State) (term cause : Nat) : State :=
  ((s.roleGiven term).event R.pair_EVENTS 2).pairLog F.DEMOTED (leBytes 4 (s.roleGiven term).pair.term ++ leBytes 1 cause)
def State.darkened (s : State) (term cause : Nat) : State :=
  ((s.demotionTold term cause).mapChans fun _ => Chan.quieted).mapHeads fun _ h => { h with sending := false, gapA := none, gapB := none }

section
variable (s : State) (term cause : Nat)

theorem State.demotionTold_keeps : Keeps 0x4800000005 (s.roleGiven term) (s.demotionTold term cause) :=
  (s.roleGiven term).event_pairLog_keeps 2 F.DEMOTED _

theorem State.darkened_keeps : Keeps 0x20800000 (s.demotionTold term cause) (s.darkened term cause) :=
  State.mapHeads_keeps rfl (State.mapChans_keeps rfl (.refl _ _))

theorem State.darkened_pair : (s.darkened term cause).pair = (s.roleGiven term).pair :=
  ((s.darkened_keeps term cause).same .pair rfl).trans ((s.demotionTold_keeps term cause).same .pair rfl)

theorem State.darkened_chan (c : Nat) : (s.darkened term cause).chan c = ((s.demotionTold term cause).chan c).quieted :=
  Sparse.get_mapVals _ (fun _ => Chan.quieted) _ c rfl

theorem State.demote_turnsStandby : s.TurnedStandby (s.demote term cause) term := by
  change s.TurnedStandby (s.darkened term cause).pairReadyCheck term
  have pair := s.darkened_pair term cause
  obtain ⟨judged, standby⟩ := (s.darkened term cause).pairReadyCheck_pair
  rw [pair] at judged standby
  refine ⟨standby rfl, judged, fun c => ?_, fun hrun => ?_, fun a ha he => ?_⟩
  · rw [State.chan_of_chans c ((s.darkened term cause).pairReadyCheck_same .chans rfl), s.darkened_chan]
    exact ⟨rfl, rfl⟩
  · have told : (s.roleGiven term).Logs (s.demotionTold term cause) F.DEMOTED := State.event_pairLog_logs (s := s.roleGiven term) hrun 2 F.DEMOTED _
    have dark : s.Logs (s.darkened term cause) F.DEMOTED := (told.of_ledger rfl).keep (s.darkened_keeps term cause) rfl
    exact dark.keep (State.pairReadyCheck_keeps rfl (.refl 0x4810000005 _)) rfl
  · have told : (s.demotionTold term cause).reg a = s.reg a := State.reg_event_pairLog ha he (s.roleGiven term) 2 F.DEMOTED _
    rw [State.reg_pairReadyCheck ha he, State.reg_of_regs a ((s.darkened_keeps term cause).same .regs rfl), told]

end

section
variable (s : State) (d : PairDatagram) (f : BitVec 8)

/-- A HEARTBEAT has been heard (R207, R209). -/
def State.hears : State :=
  let t := (s.count R.pair_HB_RX).modPair fun p => { p with
    peerAt := some s.now, peerFlags := f, silent := false, peerTerm := d.term, activeAt := if bit f.toNat 0 then some s.now else p.activeAt }
  if s.pair.silent then t.event R.pair_EVENTS 1 else t

theorem State.hears_keeps : Keeps 0x4810000005 s (s.hears d f) :=
  have heard : Keeps 0x4810000005 s ((s.count R.pair_HB_RX).modPair _) := State.modPair_keeps rfl (State.count_keeps rfl (.refl _ s))
  Keeps.ite (State.event_keeps rfl heard) heard

theorem State.hears_pair : (s.hears d f).pair = { s.pair with
    peerAt := some s.now, peerFlags := f, silent := false, peerTerm := d.term,
    activeAt := if bit f.toNat 0 then some s.now else s.pair.activeAt } := by
  unfold State.hears
  dsimp only
  split
  · rw [State.event_pair]
    rfl
  · rfl

theorem State.toNat_HB_RX_hears : ((s.hears d f).reg R.pair_HB_RX).toNat = min 0xFFFFFFFF ((s.reg R.pair_HB_RX).toNat + 1) := by
  unfold State.hears
  dsimp only
  split
  · rw [State.reg_pairEvent inPairBlock_HB_RX (by decide)]
    exact s.toNat_reg_count _
  · exact s.toNat_reg_count _

/-- What every HEARTBEAT leaves behind, whatever the module makes of it. -/
structure State.PeerHeard (s t : State) : Prop where
  peerAt    : t.pair.peerAt = some s.now
  peerFlags : t.pair.peerFlags = f
  peerTerm  : t.pair.peerTerm = d.term
  silent    : t.pair.silent = false
  stamp     : t.pair.peerStamp = s.pair.peerStamp
  count     : (t.reg R.pair_HB_RX).toNat = min 0xFFFFFFFF ((s.reg R.pair_HB_RX).toNat + 1)

variable {s d f}

theorem State.PeerHeard.of_hears {t : State} (hat : t.pair.peerAt = (s.hears d f).pair.peerAt)
    (hflags : t.pair.peerFlags = (s.hears d f).pair.peerFlags) (hterm : t.pair.peerTerm = (s.hears d f).pair.peerTerm)
    (hsilent : t.pair.silent = (s.hears d f).pair.silent) (hstamp : t.pair.peerStamp = (s.hears d f).pair.peerStamp)
    (hreg : t.reg R.pair_HB_RX = (s.hears d f).reg R.pair_HB_RX) : State.PeerHeard d f s t := by
  rw [State.hears_pair] at *
  exact ⟨hat, hflags, hterm, hsilent, hstamp, by rw [hreg, State.toNat_HB_RX_hears]⟩

/-- An active or switching module that hears no other active one with a higher TERM stays as it is. -/
theorem State.onHeartbeat_of_active (ha : s.pairActive = true) (h : bit f.toNat 0 = false ∨ d.term ≤ s.pair.term) :
    s.onHeartbeat d f = s.hears d f := by
  have active : (s.hears d f).pairActive = true := by
    rw [State.pairActive, State.hears_pair]
    exact ha
  have term : (s.hears d f).pair.term = s.pair.term := by rw [State.hears_pair]
  have stays : ¬(bit f.toNat 0 = true ∧ (s.hears d f).pair.term < d.term) := by
    rw [term]
    rintro ⟨on, less⟩
    rcases h with off | le
    · exact Bool.noConfusion (off.symm.trans on)
    · omega
  exact (if_pos active).trans (if_neg stays)

section
variable (on : bit f.toNat 0 = true) (less : s.pair.term < d.term)
include on less

/-- A HEARTBEAT of another active module with a higher TERM makes an active module standby. -/
theorem State.onHeartbeat_of_higher (hr : s.pair.role = .active) : s.onHeartbeat d f = (s.hears d f).demote d.term 2 := by
  have role : (s.hears d f).pair.role = .active := by rw [State.hears_pair, hr]
  have higher : bit f.toNat 0 = true ∧ (s.hears d f).pair.term < d.term := ⟨on, by rwa [State.hears_pair]⟩
  have active : (s.hears d f).pairActive = true := by rw [State.pairActive, role]; rfl
  have stays : (s.hears d f).pair.role ≠ .switching := by rw [role]; nofun
  exact (if_pos active).trans ((if_pos higher).trans (if_neg stays))

theorem State.onHeartbeat_demotes (hr : s.pair.role = .active) : let t := s.onHeartbeat d f
    (t.pair.role = .standby ∨ t.pair.role = .ready) ∧ t.pair.term = d.term ∧ (∀ c, (t.chan c).frames = [] ∧ (t.chan c).jobs = []) ∧
      (s.running = true → s.Logs t F.DEMOTED) := by
  have turned := (s.hears d f).demote_turnsStandby d.term 2
  rw [State.onHeartbeat_of_higher on less hr]
  refine ⟨turned.role, ?_, turned.chans, fun hrun => (turned.logs ((s.hears_keeps d f).running rfl hrun)).after (s.hears_keeps d f) rfl⟩
  rw [turned.pair, State.hears_pair]
  exact max_eq_right less.le

/-- It tells a switching module that its successor is active. -/
theorem State.onHeartbeat_of_switching (hr : s.pair.role = .switching) :
    s.onHeartbeat d f = (s.hears d f).modPair fun p => { p with switchOk := true } := by
  have role : (s.hears d f).pair.role = .switching := by rw [State.hears_pair, hr]
  have higher : bit f.toNat 0 = true ∧ (s.hears d f).pair.term < d.term := ⟨on, by rwa [State.hears_pair]⟩
  have active : (s.hears d f).pairActive = true := by rw [State.pairActive, role]; rfl
  exact (if_pos active).trans ((if_pos higher).trans (if_pos role))

end

/-- A module that is not active takes the higher TERM, and may ask the witness. -/
theorem State.onHeartbeat_of_inactive (ha : s.pairActive = false) :
    let u := (s.hears d f).modPair fun p => { p with term := max p.term d.term }
    s.onHeartbeat d f = u ∨ ∃ r, s.onHeartbeat d f = u.askWitness r := by
  intro u
  have inactive : ¬(s.hears d f).pairActive = true := by
    rw [State.pairActive, State.hears_pair]
    exact Bool.not_eq_true _ ▸ ha
  have took : s.onHeartbeat d f =
      if u.pair.role = .ready ∧ bit f.toNat 0 ∧ yields f then u.askWitness (if u.pair.switchH.isSome then 4 else 2) else u := if_neg inactive
  rw [took]
  split
  · exact .inr ⟨_, rfl⟩
  · exact .inl rfl

theorem State.onHeartbeat_pair_of_inactive (ha : s.pairActive = false) :
    State.PeerHeard d f s (s.onHeartbeat d f) ∧ (s.onHeartbeat d f).pair.role = s.pair.role ∧
      (s.onHeartbeat d f).pair.term = max s.pair.term d.term := by
  have pair := s.hears_pair d f
  rcases State.onHeartbeat_of_inactive (d := d) (f := f) ha with took | ⟨r, asks⟩
  · rw [took, State.modPair_pair]
    exact ⟨.of_hears rfl rfl rfl rfl rfl rfl, by rw [pair], by rw [pair]⟩
  · have asked := ((s.hears d f).modPair fun p => { p with term := max p.term d.term }).askWitness_asked r
    have same := asked.pair
    rw [← asks] at asked same
    rw [State.modPair_pair] at same
    exact ⟨.of_hears (by rw [same]) (by rw [same]) (by rw [same]) (by rw [same]) (by rw [same]) (asked.reg _ inPairBlock_HB_RX (by decide)),
      by rw [same, pair], by rw [same, pair]⟩

/-- Whatever the module makes of it, the HEARTBEAT has been heard. -/
theorem State.onHeartbeat_heard (s : State) (d : PairDatagram) (f : BitVec 8) : State.PeerHeard d f s (s.onHeartbeat d f) := by
  cases active : s.pairActive
  case false => exact (State.onHeartbeat_pair_of_inactive active).1
  case true =>
    by_cases higher : bit f.toNat 0 = true ∧ s.pair.term < d.term
    case neg =>
      rw [State.onHeartbeat_of_active active (by simpa [Decidable.imp_iff_not_or] using higher)]
      exact .of_hears rfl rfl rfl rfl rfl rfl
    case pos =>
      obtain ⟨on, less⟩ := higher
      rcases (by simpa [State.pairActive] using active : s.pair.role = .active ∨ s.pair.role = .switching) with hr | hr
      · have turned := (s.hears d f).demote_turnsStandby d.term 2
        have same := turned.pair
        rw [State.onHeartbeat_of_higher on less hr]
        exact .of_hears (by rw [same]) (by rw [same]) (by rw [same]) (by rw [same]) (by rw [same])
          (turned.reg _ inPairBlock_HB_RX (by decide))
      · rw [State.onHeartbeat_of_switching on less hr]
        exact .of_hears rfl rfl rfl rfl rfl rfl

end

/-! ## RECORDS (R207) -/

/-- The frame record that a standby has of a channel. -/
def State.recordOf (s : State) (c : Nat) : Option MirrorRec := s.pair.records.get (fun _ => none) c

/-- A frame record of a channel replaces the one before when it is newer. -/
def replaces (c : Nat) (old : Option MirrorRec) (r : MirrorRec) : Option MirrorRec :=
  if r.channel = c ∧ (∀ o, old = some o → newer32 r.frame o.frame = true) then some r else old

theorem State.recordOf_put (s : State) (r : MirrorRec) (c : Nat) :
    (s.modPair fun p => { p with records := p.records.put (fun _ => none) r.channel (some r) }).recordOf c =
      if c = r.channel then some r else s.recordOf c := by
  unfold State.recordOf
  rw [State.modPair_pair, Sparse.get_put]

theorem State.recordOf_keepRecord (s : State) (r : MirrorRec) (c : Nat) : (s.keepRecord r).recordOf c = replaces c (s.recordOf c) r := by
  have newer_iff (old : Option MirrorRec) : (match old with | some o => newer32 r.frame o.frame | none => true) = true ↔
      ∀ o, old = some o → newer32 r.frame o.frame = true := by
    cases old <;> simp
  unfold State.keepRecord replaces
  extract_lets newer counted
  have counted_recordOf (d : Nat) : counted.recordOf d = s.recordOf d := rfl
  by_cases h : r.channel = c
  case neg =>
    refine Eq.trans ?_ (if_neg fun both => h both.1).symm
    split
    · exact (counted.recordOf_put r c).trans (if_neg (Ne.symm h))
    · rfl
  case pos =>
    subst h
    split
    next new => exact ((counted.recordOf_put r r.channel).trans (if_pos rfl)).trans (if_pos ⟨rfl, (newer_iff _).mp new⟩).symm
    next older => exact (if_neg fun both => older ((newer_iff _).mpr both.2)).symm

theorem State.toNat_REC_RX_keepRecord (s : State) (r : MirrorRec) :
    ((s.keepRecord r).reg R.pair_REC_RX).toNat = min 0xFFFFFFFF ((s.reg R.pair_REC_RX).toNat + 1) := by
  unfold State.keepRecord
  extract_lets newer counted
  split <;> exact s.toNat_reg_count _

theorem State.recordOf_foldl_keepRecord (l : List MirrorRec) (s : State) (c : Nat) :
    (l.foldl (fun s r => s.keepRecord r) s).recordOf c = l.foldl (replaces c) (s.recordOf c) := by
  induction l generalizing s with
  | nil => rfl
  | cons r l ih => rw [List.foldl_cons, List.foldl_cons, ih, State.recordOf_keepRecord]

theorem State.toNat_REC_RX_foldl_keepRecord (l : List MirrorRec) (s : State) :
    ((l.foldl (fun s r => s.keepRecord r) s).reg R.pair_REC_RX).toNat = min 0xFFFFFFFF ((s.reg R.pair_REC_RX).toNat + l.length) := by
  induction l generalizing s with
  | nil =>
    have bound := (s.reg R.pair_REC_RX).isLt
    simp only [List.foldl_nil, List.length_nil]
    omega
  | cons r l ih =>
    rw [List.foldl_cons, ih, State.toNat_REC_RX_keepRecord, List.length_cons]
    omega

/-! ## ANSWER (R209 to R211) -/

/-- An ASK has been answered: it waits no longer, and the ledger is told so. -/
def State.askEnded (s : State) (a : Ask) : State := s.modPair fun p => { p with
  asks := p.asks.filter fun b => b.askId != a.askId, retries := p.retries ++ [(a.reason, s.now)], witOk := true }
def State.answered (s : State) (a : Ask) (verdict term : Nat) : State :=
  ((s.askEnded a).event R.pair_EVENTS 4).pairLog F.WITNESS_ANSWER (leBytes 1 verdict ++ leBytes 4 term ++ leBytes 1 a.reason)

section
variable (s : State) (a : Ask) (verdict term : Nat)

theorem State.answered_pair : (s.answered a verdict term).pair = (s.askEnded a).pair := State.pair_event_pairLog _ _ _ _

theorem State.answered_rind (c : Nat) : (s.answered a verdict term).rind c = s.rind c :=
  State.rind_of_rinds (((s.askEnded a).event_pairLog_keeps 4 F.WITNESS_ANSWER _).same .rinds rfl) c

/-- A GRANT to an active module: the claims of its channels are renewed, and their causes end. -/
def State.renewed (s : State) (c : Nat) : State :=
  if (s.rind c).granted then (s.modRind c fun x => { x with renew := true }).clearCause (.channel c) F.CLAIM_EXHAUSTED.code else s

theorem State.renewed_pair (c : Nat) : (s.renewed c).pair = s.pair :=
  have cleared : Keeps 0x4004000000 s ((s.modRind c _).clearCause _ _) := State.clearCause_keeps rfl (State.modRind_keeps rfl (.refl _ s))
  (Keeps.ite cleared (.refl _ s)).same .pair rfl

theorem State.rind_renewed (c d : Nat) : ((s.renewed c).rind d).granted = (s.rind d).granted ∧
    ((s.rind d).renew = true ∨ d = c ∧ (s.rind d).granted = true → ((s.renewed c).rind d).renew = true) := by
  unfold State.renewed
  split
  next granted =>
    have cleared (t : State) : (t.clearCause (.channel c) F.CLAIM_EXHAUSTED.code).rinds = t.rinds :=
      (State.clearCause_keeps rfl (.refl 0x4000000000 t)).same .rinds rfl
    rw [State.rind_of_rinds (cleared _) d]
    by_cases h : d = c <;> simp [h]
  next other =>
    refine ⟨rfl, ?_⟩
    rintro (renew | ⟨rfl, granted⟩)
    · exact renew
    · exact absurd granted other

/-- All channels renew their claims so. -/
def State.allRenewed : State := (List.range 48).foldl State.renewed s

theorem State.allRenewed_pair : s.allRenewed.pair = s.pair :=
  List.foldlRecOn (motive := fun t => t.pair = s.pair) (List.range 48) State.renewed rfl fun t ht c _ => (t.renewed_pair c).trans ht

theorem State.renew_allRenewed {c : Nat} (hc : c < 48) (hg : (s.rind c).granted = true) : (s.allRenewed.rind c).renew = true := by
  have granted : (s.allRenewed.rind c).granted = (s.rind c).granted :=
    List.foldlRecOn (motive := fun t => (t.rind c).granted = (s.rind c).granted) (List.range 48) State.renewed rfl
      fun t ht d _ => (t.rind_renewed d c).1.trans ht
  have reached := foldl_reaches (f := State.renewed) (P := fun t d => (t.rind d).granted = true → (t.rind d).renew = true)
    (fun t d h => (t.rind_renewed d d).2 (.inr ⟨rfl, (t.rind_renewed d d).1 ▸ h⟩))
    (fun t d e kept h => (t.rind_renewed d e).2 (.inl (kept ((t.rind_renewed d e).1 ▸ h)))) (List.range 48) s
  exact reached c (List.mem_range.mpr hc) (granted.trans hg)

/-- A channel of a promoted module: its claim is of the new term, and it starts later or is held down (R210). -/
def State.channelPromoted (term after : Nat) (s : State) (c : Nat) : State :=
  let u := s.modChan c fun x => { x with startAfter := some after, noSkip := true }
  let t := u.modRind c fun x => { x with claim := term % 256 * 256 + u.pairField 1 1, g := 0, granted := x.coder.isSome, renew := false }
  if t.heldDown (.channel c) then t.channelHarmless c (t.channelReason c).1 (t.channelReason c).2 else t

theorem State.channelPromoted_pair (after c : Nat) : (s.channelPromoted term after c).pair =
    { s.pair with unsent := (s.channelPromoted term after c).pair.unsent, spareLow := (s.channelPromoted term after c).pair.spareLow } := by
  unfold State.channelPromoted
  extract_lets u t
  split
  · exact (t.channelHarmless_sparingKept c _ _).pair
  · rfl

/-- What a promotion makes of the module's own role, and what of the pair block it leaves. -/
def State.rolePromoted (s : State) (term : Nat) : State := s.modPair fun p => { p with
  role := .active, term := term, grantedAt := s.now, retries := [], yield := false, switchOk := false }

theorem State.promote_pair : (s.promote term).pair =
    { (s.rolePromoted term).pair with unsent := (s.promote term).pair.unsent, spareLow := (s.promote term).pair.spareLow } := by
  refine List.foldlRecOn (motive := fun t => t.pair = { (s.rolePromoted term).pair with unsent := t.pair.unsent, spareLow := t.pair.spareLow })
    _ (State.channelPromoted term _) ?_ fun t ht c _ => ?_
  · rw [State.pair_event_pairLog]
    rfl
  · rw [State.channelPromoted_pair, ht]

theorem State.answered_standby : (s.answered a verdict term).pairStandby = s.pairStandby := by
  rw [State.pairStandby, State.answered_pair]
  rfl

theorem State.answered_active : (s.answered a verdict term).pairActive = s.pairActive := by
  rw [State.pairActive, State.answered_pair]
  rfl

theorem State.onAnswer_of_grant (h : s.pairStandby = true) : s.onAnswer a 1 term = (s.answered a 1 term).promote term :=
  if_pos ((s.answered_standby a 1 term).trans h)

theorem State.onAnswer_of_renewal (h : s.pairStandby = false) :
    s.onAnswer a 1 term = ((s.answered a 1 term).modPair fun p => { p with term := term, retries := [] }).allRenewed :=
  if_neg (Bool.not_eq_true _ ▸ (s.answered_standby a 1 term).trans h)

theorem State.onAnswer_of_deny (h : s.pairActive = true) : s.onAnswer a 2 term = (s.answered a 2 term).demote term 1 :=
  if_pos ((s.answered_active a 2 term).trans h)

theorem State.onAnswer_of_inactive_deny (h : s.pairActive = false) :
    s.onAnswer a 2 term = (s.answered a 2 term).modPair fun p => { p with term := max p.term term } :=
  if_neg (Bool.not_eq_true _ ▸ (s.answered_active a 2 term).trans h)

theorem State.onAnswer_of_other (h1 : verdict ≠ 1) (h2 : verdict ≠ 2) : s.onAnswer a verdict term = s.answered a verdict term := by
  unfold State.onAnswer
  split
  · exact absurd rfl h1
  · exact absurd rfl h2
  · rfl

/-- What the ANSWER to an ASK makes of the module, by its verdict. -/
structure State.AnswerTaken (s t : State) (a : Ask) (verdict term : Nat) : Prop where
  ended   : ∀ x ∈ t.pair.asks, x.askId ≠ a.askId
  witOk   : t.pair.witOk = true
  grant   : verdict = 1 → t.pair.role = (if s.pairStandby then .active else s.pair.role) ∧ t.pair.term = term ∧
    (s.pairStandby = false → ∀ c : Fin 48, (s.rind c.val).granted = true → (t.rind c.val).renew = true)
  deny    : verdict = 2 → s.pairActive = true → t.pair.role = .standby ∨ t.pair.role = .ready
  confirm : verdict = 3 → t.pair.role = s.pair.role

theorem State.askEnded_asks : ∀ x ∈ (s.askEnded a).pair.asks, x.askId ≠ a.askId := by
  intro x hx
  simpa using (List.mem_filter.mp hx).2

theorem State.onAnswer_taken : s.AnswerTaken (s.onAnswer a verdict term) a verdict term := by
  have ends := s.askEnded_asks a
  have told := s.answered_pair a verdict term
  by_cases h1 : verdict = 1
  · subst h1
    cases standby : s.pairStandby
    case true =>
      have promoted := (s.answered a 1 term).promote_pair term
      rw [State.rolePromoted, State.modPair_pair, told] at promoted
      rw [State.onAnswer_of_grant _ _ _ standby]
      exact ⟨by rwa [promoted], by rw [promoted]; rfl, fun _ => ⟨by rw [promoted, standby]; rfl, by rw [promoted], by rw [standby]; nofun⟩,
        nofun, nofun⟩
    case false =>
      rw [State.onAnswer_of_renewal _ _ _ standby]
      have renewed := ((s.answered a 1 term).modPair fun p => { p with term := term, retries := [] }).allRenewed_pair
      rw [State.modPair_pair, told] at renewed
      refine ⟨by rwa [renewed], by rw [renewed]; rfl, fun _ => ⟨by rw [renewed, standby]; rfl, by rw [renewed], fun _ c hg => ?_⟩, nofun, nofun⟩
      exact State.renew_allRenewed _ c.isLt ((congrArg Rind.granted (s.answered_rind a 1 term c)).trans hg)
  · by_cases h2 : verdict = 2
    · subst h2
      cases active : s.pairActive
      case true =>
        have turned := (s.answered a 2 term).demote_turnsStandby term 1
        have same := turned.pair
        rw [told] at same
        rw [State.onAnswer_of_deny _ _ _ active]
        exact ⟨by rw [same]; nofun, by rw [same]; rfl, nofun, fun _ _ => turned.role, nofun⟩
      case false =>
        rw [State.onAnswer_of_inactive_deny _ _ _ active]
        exact ⟨by rwa [State.modPair_pair, told], by rw [State.modPair_pair, told]; rfl, nofun, fun _ h => by simp [active] at h, nofun⟩
    · rw [State.onAnswer_of_other _ _ _ _ h1 h2]
      exact ⟨by rwa [told], by rw [told]; rfl, fun h => absurd h h1, fun h => absurd h h2, fun _ => by rw [told]; rfl⟩

end

/-! ## The rows -/

section
variable {b : List Byte} {s : State}

/-- A datagram that fails the checks is counted, and nothing else comes of it. -/
theorem State.rejected_counts {c : Instr} (h : ∃ rank r, exec c s = .next (s.pairReject rank r)) :
    ∃ t, exec c s = .next t ∧ t = { s with regs := t.regs, cores := t.cores, setNow := t.setNow, ledger := t.ledger } ∧
      (t.reg R.pair_AUTH_FAIL).toNat = min 0xFFFFFFFF ((s.reg R.pair_AUTH_FAIL).toNat + 1) := by
  obtain ⟨rank, r, rejected⟩ := h
  exact ⟨_, rejected, s.pairReject_counts rank r⟩

theorem State.pairActive_eq_false_of_pairStandby (h : s.pairStandby = true) : s.pairActive = false := by
  rcases (by simpa [State.pairStandby] using h : s.pair.role = .standby ∨ s.pair.role = .ready) with role | role <;>
    simp [State.pairActive, role]

theorem execHeartbeatRx_of_peer_good (hh : s.pairHears = true) (ht : isPair b 1 = true) (other : (readPair b).rank ≠ s.pairField 1 1)
    (hb : s.pairBad b s.pair.peerStamp = none) :
    execHeartbeatRx b s = .next ((s.peerStamped b).onHeartbeat (readPair b) (BitVec.ofNat 8 (le (readPair b).body 0 1))) :=
  (execHeartbeatRx_of_other fun own => other own.2.2).trans (congrArg Host.Outcome.next (State.pairAccept_of_good hh ht hb))

theorem execHeartbeatRx_of_deaf (h : s.pairHears = false ∨ isPair b 1 = false) : execHeartbeatRx b s = .next s := by
  refine (execHeartbeatRx_of_other fun own => ?_).trans (congrArg Host.Outcome.next (State.pairAccept_of_deaf h))
  rcases h with h | h
  · exact Bool.noConfusion (h.symm.trans own.1)
  · exact Bool.noConfusion (h.symm.trans own.2.1)

theorem execRecordsRx_of_standby (hh : s.pairHears = true) (ht : isPair b 2 = true) (hb : s.pairBad b s.pair.peerStamp = none)
    (standby : s.pairStandby = true) :
    execRecordsRx b s = .next (((List.range (be (readPair b).body 0 2)).filterMap fun i =>
      readFrameRecord (((readPair b).body.drop (4 + 164 * i)).take 164)).foldl (fun s r => s.keepRecord r) (s.peerStamped b)).pairReadyCheck := by
  have standing : (s.peerStamped b).pairStandby = true := standby
  exact congrArg Host.Outcome.next ((State.pairAccept_of_good hh ht hb).trans (if_neg (by simp [standing])))

theorem execHandoverRx_of_ready (hh : s.pairHears = true) (ht : isPair b 3 = true) (hb : s.pairBad b s.pair.peerStamp = none)
    (ready : s.pair.role = .ready) : execHandoverRx b s = .next (((s.peerStamped b).modPair fun p =>
      { p with switchH := some (BitVec.ofNat 64 (be (readPair b).body 0 8)) }).askWitness 4) :=
  congrArg Host.Outcome.next ((State.pairAccept_of_good hh ht hb).trans (if_pos (show (s.peerStamped b).pair.role = .ready from ready)))

section
variable {src : Nat} (hh : s.pairHears = true) (hb : s.pairBad b (s.witStamp src) = none)
include hh hb

theorem execAnswerRx_of_waiting {a : Ask} (ht : isPair b 5 = true)
    (waits : (s.pair.asks.find? fun a => a.askId == w32 (be (readPair b).body 4 4)) = some a) :
    execAnswerRx ⟨src, b⟩ s = .next ((s.witStamped src b).onAnswer a (be (readPair b).body 0 1) (readPair b).term) := by
  have waits : ((s.witStamped src b).pair.asks.find? fun a => a.askId == w32 (be (readPair b).body 4 4)) = some a := waits
  refine congrArg Host.Outcome.next ((State.witAccept_of_good hh ht hb).trans ?_)
  rw [waits]

theorem execAnswerRx_of_unasked (ht : isPair b 5 = true)
    (none : (s.pair.asks.find? fun a => a.askId == w32 (be (readPair b).body 4 4)) = none) :
    execAnswerRx ⟨src, b⟩ s = .next (s.witStamped src b) := by
  have none : ((s.witStamped src b).pair.asks.find? fun a => a.askId == w32 (be (readPair b).body 4 4)) = .none := none
  refine congrArg Host.Outcome.next ((State.witAccept_of_good hh ht hb).trans ?_)
  rw [none]

theorem execProbeRx_of_inactive (ht : isPair b 6 = true) (inactive : s.pairActive = false) :
    execProbeRx ⟨src, b⟩ s = .next (s.witStamped src b) := by
  have inactive : ¬(s.witStamped src b).pairActive = true := Bool.not_eq_true _ ▸ inactive
  exact congrArg Host.Outcome.next ((State.witAccept_of_good hh ht hb).trans (if_neg inactive))

theorem execProbeRx_of_active (ht : isPair b 6 = true) (active : s.pairActive = true) :
    ∃ body, execProbeRx ⟨src, b⟩ s = .next ((s.witStamped src b).sendPairTo (if src = s.pairAddr 2 then 2 else 1) src 7 body) :=
  ⟨_, congrArg Host.Outcome.next ((State.witAccept_of_good hh ht hb).trans
    (if_pos (show (s.witStamped src b).pairActive = true from active)))⟩

end

end

/-! ## The statement -/

/-- Settles O35: the checks decide what a datagram may do, and a good one does what its own handler does. -/
theorem pairDatagramsAreCheckedAndTaken : Obligations.PairDatagramsAreCheckedAndTaken := by
  unfold Obligations.PairDatagramsAreCheckedAndTaken
  refine ⟨fun b src s => ⟨fun hh => ⟨?hbBad, ?hbOwn, ?recBad, ?handBad, ?ansBad, ?probeBad⟩, fun deaf => ?deaf, ?hbType, ?recType, ?handType,
    ?ansType, ?probeType⟩, fun b s hh => ⟨?heartbeat, ?records, ?handover⟩, fun b src s hh hb => ⟨fun ht => ⟨?waiting, ?unasked⟩, ?inactive, ?active⟩⟩
  case hbBad =>
    rintro ht (⟨own, bad⟩ | ⟨other, bad⟩)
    · exact State.rejected_counts ⟨_, execHeartbeatRx_of_own_bad hh ht own bad⟩
    · obtain ⟨r, rejected⟩ := State.pairAccept_of_bad hh ht bad
      exact State.rejected_counts ⟨_, r, (execHeartbeatRx_of_other fun own => other own.2.2).trans (congrArg Host.Outcome.next rejected)⟩
  case hbOwn =>
    intro ht own good
    refine ⟨_, execHeartbeatRx_of_own_good hh ht own good, Keeps.noted_eq (State.logRated_keeps rfl (.refl _ s)), ?_⟩
    exact (State.logRated_keeps rfl (.refl 0x4000000000 s)).same .regs rfl
  case recBad | handBad =>
    intro ht bad
    obtain ⟨r, rejected⟩ := State.pairAccept_of_bad hh ht bad
    exact State.rejected_counts ⟨_, r, congrArg Host.Outcome.next rejected⟩
  case ansBad | probeBad =>
    intro ht bad
    obtain ⟨r, rejected⟩ := State.witAccept_of_bad hh ht bad
    exact State.rejected_counts ⟨_, r, congrArg Host.Outcome.next rejected⟩
  case deaf =>
    exact ⟨execHeartbeatRx_of_deaf (.inl deaf), congrArg Host.Outcome.next (State.pairAccept_of_deaf (.inl deaf)),
      congrArg Host.Outcome.next (State.pairAccept_of_deaf (.inl deaf)), congrArg Host.Outcome.next (State.witAccept_of_deaf (.inl deaf)),
      congrArg Host.Outcome.next (State.witAccept_of_deaf (.inl deaf))⟩
  case hbType => exact fun ht => execHeartbeatRx_of_deaf (.inr ht)
  case recType | handType => exact fun ht => congrArg Host.Outcome.next (State.pairAccept_of_deaf (.inr ht))
  case ansType | probeType => exact fun ht => congrArg Host.Outcome.next (State.witAccept_of_deaf (.inr ht))
  case heartbeat =>
    intro ht good other
    have heard := (s.peerStamped b).onHeartbeat_heard (readPair b) (BitVec.ofNat 8 (le (readPair b).body 0 1))
    refine ⟨_, execHeartbeatRx_of_peer_good hh ht other good, heard.peerAt, heard.peerFlags, heard.peerTerm, heard.silent, heard.stamp,
      heard.count, fun role stays => ?_, fun role on less => ?_, fun role on less => ?_, fun standby => ?_⟩
    · rw [State.onHeartbeat_of_active (s := s.peerStamped b) (by simp [State.pairActive, State.peerStamped, role]) stays, State.hears_pair]
      exact ⟨role, rfl⟩
    · exact State.onHeartbeat_demotes (s := s.peerStamped b) on less role
    · rw [State.onHeartbeat_of_switching (s := s.peerStamped b) on less role, State.modPair_pair, State.hears_pair]
      exact ⟨role, rfl⟩
    · exact (State.onHeartbeat_pair_of_inactive (s := s.peerStamped b) (State.pairActive_eq_false_of_pairStandby standby)).2
  case records =>
    intro ht good standby
    refine ⟨_, execRecordsRx_of_standby hh ht good standby, fun c => ?_, ?_⟩
    · refine Eq.trans ?_ (State.recordOf_foldl_keepRecord _ (s.peerStamped b) c)
      rw [State.pairReadyCheck_pair _ |>.1]
      rfl
    · rw [State.reg_pairReadyCheck inPairBlock_REC_RX (by decide)]
      exact State.toNat_REC_RX_foldl_keepRecord _ (s.peerStamped b)
  case handover =>
    intro ht good ready
    have asked := State.askWitness_asked ((s.peerStamped b).modPair fun p =>
      { p with switchH := some (BitVec.ofNat 64 (be (readPair b).body 0 8)) }) 4
    exact ⟨_, execHandoverRx_of_ready hh ht good ready, by rw [asked.pair]; rfl, asked.awaits⟩
  case waiting =>
    intro a waits
    obtain ⟨ended, witOk, grant, deny, confirm⟩ :=
      (s.witStamped src b).onAnswer_taken a (be (readPair b).body 0 1) (readPair b).term
    exact ⟨_, execAnswerRx_of_waiting hh hb ht waits, ended, witOk, grant, deny, confirm⟩
  case unasked => exact fun none => ⟨_, execAnswerRx_of_unasked hh hb ht none, rfl⟩
  case inactive => exact fun ht inactive => ⟨_, execProbeRx_of_inactive hh hb ht inactive, rfl⟩
  case active =>
    intro ht active
    obtain ⟨body, answers⟩ := execProbeRx_of_active hh hb ht active
    obtain ⟨p, port⟩ := Option.isSome_iff_exists.mp (by simpa [State.pairHears] using hh : _ ∧ s.pairPort.isSome = true).2
    obtain ⟨k, sends⟩ := ((s.witStamped src b).sendPairTo_sent (if src = s.pairAddr 2 then 2 else 1) src 7 body).sends p port
    exact ⟨_, p, k, answers, port, sends⟩

end Sys2Proof.Machine
end

section
/-!
PROOF. The end of a promotion and of a planned switchover (R210, R212): the first frame of a promoted channel, the deadline of the GRANT,
and the switchover stamp.
-/

namespace Sys2Proof.Machine

/-! ## What a channel keeps up to its first frame -/

/-- Of channel `c` only the press state and the gap records change; the pair block keeps all but the channels whose frame record is to be
sent and whether SPARE_LOW has been logged. -/
structure State.PressKept (s t : State) (c : Nat) : Prop where
  chan : t.chan c = { s.chan c with
    qNext := (t.chan c).qNext, bank := (t.chan c).bank, gapA := (t.chan c).gapA, gapB := (t.chan c).gapB }
  pair : t.pair = { s.pair with unsent := t.pair.unsent, spareLow := t.pair.spareLow }

section
variable {c : Nat}

theorem State.PressKept.refl (s : State) : s.PressKept s c := ⟨rfl, rfl⟩

theorem State.PressKept.trans {s t u : State} (h : s.PressKept t c) (k : t.PressKept u c) : s.PressKept u c where
  chan := by rw [k.chan, h.chan]
  pair := by rw [k.pair, h.pair]

/-- An operation that touches neither channels nor the pair block. -/
theorem Keeps.pressKept {A : Nat} {s t : State} (h : Keeps A s t) (hc : A.testBit (Part.bit .chans) = false)
    (hp : A.testBit (Part.bit .pair) = false) : s.PressKept t c :=
  ⟨by rw [State.chan_of_chans c (h.same .chans hc)], by rw [h.same .pair hp]⟩

theorem State.PressKept.modChan (s : State) (f : Chan → Chan)
    (hf : ∀ x, f x = { x with qNext := (f x).qNext, bank := (f x).bank, gapA := (f x).gapA, gapB := (f x).gapB }) :
    s.PressKept (s.modChan c f) c where
  chan := by simpa using hf (s.chan c)
  pair := rfl

theorem State.PressKept.foldl {β : Type} {f : State → β → State} (hf : ∀ (y : State) b, y.PressKept (f y b) c) (l : List β) (s : State) :
    s.PressKept (l.foldl f s) c := by
  induction l generalizing s with
  | nil => exact .refl s
  | cons b r ih => exact (hf s b).trans (ih (f s b))

theorem State.PressKept.ite {s a b : State} {p : Prop} [Decidable p] (h : s.PressKept a c) (k : s.PressKept b c) :
    s.PressKept (if p then a else b) c := by
  split
  · exact h
  · exact k

end

section
variable (s : State) (c : Nat)

theorem State.takePress_pressKept (q : List Nat) (d : Nat) : s.PressKept (s.takePress c q d) c :=
  have set (y : State) (i : Nat) : y.PressKept (y.setQ c i (q.getD i 0)) c :=
    .modChan y (fun x => { x with qNext := x.qNext.put (fun _ => y.qMid c) i (q.getD i 0) }) fun _ => rfl
  (State.PressKept.modChan s (fun x => { x with qNext := [], bank := d }) fun _ => rfl).trans (.foldl set (List.range 256) _)

theorem State.pressAnew_pressKept : s.PressKept (s.pressAnew c) c := .modChan s _ fun _ => rfl

theorem State.restartWhole_pressKept (line cause : Nat) : s.PressKept (s.restartWhole c line cause) c := by
  have row : s.PressKept (s.modRind c fun x => { x with restartRow := true }) c := (State.modRind_keeps rfl (.refl 0x4000000 s)).pressKept rfl rfl
  exact (row.trans (State.pressAnew_pressKept _ c)).trans ((State.mirrorBad_keeps rfl (.refl 0x4800000005 _)).pressKept rfl rfl)

theorem State.takeState_pressKept (frame line : Nat) : s.PressKept (s.takeState c frame line) c := by
  unfold State.takeState
  dsimp only
  split
  · split
    · exact .ite (s.takePress_pressKept c _ _) (s.pressAnew_pressKept c)
    · exact s.pressAnew_pressKept c
  · split
    · exact .ite (s.restartWhole_pressKept c _ _) (.ite (s.restartWhole_pressKept c _ _) (s.takePress_pressKept c _ _))
    · exact s.restartWhole_pressKept c _ _

theorem State.handedOver_pressKept : s.PressKept (s.handedOver c) c where
  chan := by rw [State.chan_of_chans c ((State.handedOver_keeps rfl (.refl 0x481500c005 s)).same .chans rfl)]
  pair := (s.handedOver_sparingKept c).pair

theorem State.reachLine_pressKept (frame line : Nat) : s.PressKept (s.reachLine c frame line) c := by
  unfold State.reachLine
  extract_lets x reached taken y announced before
  refine .ite (.refl s) ?_
  have toLine : s.PressKept taken c :=
    .trans ((State.modRind_keeps rfl (.refl 0x4000000 s)).pressKept rfl rfl) (reached.takeState_pressKept c frame line)
  have told : s.PressKept announced c := by
    refine toLine.trans (.ite ?_ (.refl taken))
    exact (State.logOut_keeps rfl (State.modRind_keeps rfl (.refl 0x4004000000 taken))).pressKept rfl rfl
  exact .ite (told.trans (announced.handedOver_pressKept c)) told

theorem State.renewClaim_pressKept : s.PressKept (s.renewClaim c) c :=
  .ite ((State.modRind_keeps rfl (.refl 0x4000000 s)).pressKept rfl rfl) (.refl s)

end

/-! ## The first frame after a promotion (R210, R212) -/

/-- The channel waits no longer, and its first frame is coded without skips. -/
def State.startsCoding (s : State) (c : Nat) : State := s.modChan c fun x => { x with startAfter := none, noSkip := true }

/-- Its coded-frame number follows that of the peer's frame record. -/
def State.startsNumbered (s : State) (c : Nat) (r : MirrorRec) : State :=
  (s.startsCoding c).modChan c fun x => { x with n := (r.n + 1) % 2 ^ 32 }

/-- It takes its coded-frame number and its press state from the peer's frame record. -/
def State.takesRecord (s : State) (c : Nat) (r : MirrorRec) : State :=
  (s.startsNumbered c r).takePress c r.qNext r.d

/-- The picture of a channel is read off its sections in effect. -/
theorem State.chanGeom_of_plan {s t : State} {c : Nat} (h : (t.chan c).plan = (s.chan c).plan) : t.chanGeom c = s.chanGeom c := by
  simp only [State.chanGeom, State.chanField, h]

theorem State.chanGeom_startsCoding (s : State) (c : Nat) : (s.startsCoding c).chanGeom c = s.chanGeom c :=
  State.chanGeom_of_plan (by simp [State.startsCoding])

/-- The first SEQ past those that the frames between the record and a frame may have used (R210). -/
def State.seqPast (s : State) (c number : Nat) (r : MirrorRec) : Nat :=
  (r.seqNext + (number + 2 ^ 32 - r.frame) % 2 ^ 32 *
    ((s.chanGeom c).height * (s.chanGeom c).positions.length + (s.chanGeom c).height + 2)) % 2 ^ 32

/-- A gap record on each path names the numbers that the peer may have used. -/
def State.gapsTold (s : State) (c first last : Nat) : State := (s.chanPaths c).foldl (fun s b =>
  if (s.port (s.pathPort c b)).state = .up then s.sendGap c b first last 2 else s.modGap c b fun g => g.extend first last 2) s

/-- The next SEQ is past them, and the ledger is told of the gap. -/
def State.seqPassed (s : State) (c first seq : Nat) : State :=
  (s.gapsTold c first ((seq + 2 ^ 32 - 1) % 2 ^ 32)).modChan c fun x => { x with seq := seq }
def State.startsPast (s : State) (c first seq : Nat) : State :=
  let u := s.seqPassed c first seq
  u.logOut F.PAIR_GAP R.pair (u.chanDp c 3 0 0) [(.channel c, 7)] (leBytes 4 first ++ leBytes 4 ((seq + 2 ^ 32 - 1) % 2 ^ 32))

section
variable (s : State) (c : Nat)

theorem State.gapsTold_pressKept (first last : Nat) : s.PressKept (s.gapsTold c first last) c := by
  refine .foldl (fun y b => .ite ?_ ?_) _ s
  · exact (State.sendGap_keeps rfl (.refl 0x8000001 y)).pressKept rfl rfl
  · exact .modChan y _ fun x => by cases b <;> rfl

theorem State.startsPast_chan (first seq : Nat) :
    (s.startsPast c first seq).chan c = { (s.gapsTold c first ((seq + 2 ^ 32 - 1) % 2 ^ 32)).chan c with seq := seq } := by
  have logged : Keeps 0x4000000000 (s.seqPassed c first seq) (s.startsPast c first seq) := State.logOut_keeps rfl (.refl _ _)
  rw [State.chan_of_chans c (logged.same .chans rfl), State.seqPassed, State.modChan_eq, State.chan_setChan, if_pos rfl]

theorem State.seqPast_startsCoding (number : Nat) (r : MirrorRec) : (s.startsCoding c).seqPast c number r = s.seqPast c number r := by
  rw [State.seqPast, State.chanGeom_startsCoding, State.seqPast]

theorem State.takesRecord_pair (r : MirrorRec) : (s.takesRecord c r).pair = s.pair := by
  have numbered : Keeps 0x800000 s (s.startsNumbered c r) := State.modChan_keeps rfl (State.modChan_keeps rfl (.refl 0x800000 s))
  have taken : Keeps 0x800000 s (s.takesRecord c r) := State.takePress_keeps rfl numbered
  exact taken.same .pair rfl

theorem State.takesRecord_chan (r : MirrorRec) : (s.takesRecord c r).chan c = { s.chan c with
    startAfter := none, noSkip := true, n := (r.n + 1) % 2 ^ 32,
    qNext := ((s.takesRecord c r).chan c).qNext, bank := ((s.takesRecord c r).chan c).bank,
    gapA := ((s.takesRecord c r).chan c).gapA, gapB := ((s.takesRecord c r).chan c).gapB } := by
  have numbered : (s.startsNumbered c r).chan c = { s.chan c with startAfter := none, noSkip := true, n := (r.n + 1) % 2 ^ 32 } := by
    simp [State.startsNumbered, State.startsCoding]
  have press : (s.startsNumbered c r).PressKept (s.takesRecord c r) c := State.takePress_pressKept _ c _ _
  exact press.chan.trans (by rw [numbered])

end

section
variable {s : State} {c number : Nat} (waits : (s.chan c).startAfter.isSome = true)
include waits

theorem State.promotedStart_of_unrecorded (h : s.pair.records.get (fun _ => none) c = none) : s.promotedStart c number =
    (s.startsCoding c).modChan c fun x => { x with n := 0, qNext := [], bank := 0, sigs := [], codedAt := [], last := [] } := by
  have h : (s.startsCoding c).pair.records.get (fun _ => none) c = none := h
  unfold State.promotedStart
  rw [if_neg (by simpa [Option.isSome_iff_ne_none] using waits)]
  dsimp only
  split
  next => rfl
  next r some => exact nomatch h.symm.trans some

theorem State.promotedStart_of_recorded {r : MirrorRec} (h : s.pair.records.get (fun _ => none) c = some r) : s.promotedStart c number =
    if s.pair.switchH.isSome = true ∧ (r.frame + 1) % 2 ^ 32 = number then (s.takesRecord c r).modChan c fun x => { x with seq := r.seqNext }
    else (s.takesRecord c r).startsPast c r.seqNext (s.seqPast c number r) := by
  have h : (s.startsCoding c).pair.records.get (fun _ => none) c = some r := h
  rw [← s.takesRecord_pair c r, ← s.seqPast_startsCoding]
  unfold State.promotedStart
  rw [if_neg (by simpa [Option.isSome_iff_ne_none] using waits)]
  dsimp only
  split
  next none => exact nomatch none.symm.trans h
  next r' some =>
    cases h.symm.trans some
    rfl

/-- Whether or not numbers are passed over, the channel has taken the record and its next SEQ. -/
theorem State.promotedStart_chan_of_recorded {r : MirrorRec} (h : s.pair.records.get (fun _ => none) c = some r) :
    ∃ u, (s.takesRecord c r).PressKept u c ∧ (s.promotedStart c number).chan c = { u.chan c with
      seq := if s.pair.switchH.isSome = true ∧ (r.frame + 1) % 2 ^ 32 = number then r.seqNext else s.seqPast c number r } := by
  rw [State.promotedStart_of_recorded waits h]
  split
  · exact ⟨_, .refl _, by rw [State.modChan_eq, State.chan_setChan, if_pos rfl]⟩
  · exact ⟨_, State.gapsTold_pressKept _ c _ _, State.startsPast_chan _ c _ _⟩

end

/-- What a promoted channel takes at its first frame (R210, R212). -/
structure State.FirstFrameTaken (s t : State) (c number : Nat) : Prop where
  starts   : (t.chan c).startAfter = none ∧ (t.chan c).noSkip = true
  anew     : s.pair.records.get (fun _ => none) c = none → (t.chan c).n = 0 ∧ (t.chan c).bank = 0
  recorded : ∀ r, s.pair.records.get (fun _ => none) c = some r → (t.chan c).n = (r.n + 1) % 2 ^ 32 ∧
    (t.chan c).seq = if s.pair.switchH.isSome = true ∧ (r.frame + 1) % 2 ^ 32 = number then r.seqNext else s.seqPast c number r

theorem State.promotedStart_taken {s : State} {c : Nat} (number : Nat) (waits : (s.chan c).startAfter.isSome = true) :
    s.FirstFrameTaken (s.promotedStart c number) c number := by
  cases record : s.pair.records.get (fun _ => none) c
  case none =>
    rw [State.promotedStart_of_unrecorded waits record]
    exact ⟨by simp [State.startsCoding], by simp, fun r some => nomatch record.symm.trans some⟩
  case some r =>
    obtain ⟨u, ⟨kept, -⟩, started⟩ := State.promotedStart_chan_of_recorded (number := number) waits record
    rw [s.takesRecord_chan c r] at kept
    rw [kept] at started
    refine ⟨by simp [started], fun none => (nomatch record.symm.trans none), fun r' some => ?_⟩
    cases record.symm.trans some
    simp [started]

/-- What the channel takes at its first frame does not depend on its press and on its gap records. -/
theorem State.FirstFrameTaken.of_pressKept {s u t : State} {c number : Nat} (kept : s.PressKept u c) (h : u.FirstFrameTaken t c number) :
    s.FirstFrameTaken t c number := by
  obtain ⟨chan, pair⟩ := kept
  have geom : u.chanGeom c = s.chanGeom c := State.chanGeom_of_plan (by rw [chan])
  obtain ⟨starts, anew, recorded⟩ := h
  simp only [State.seqPast, geom] at recorded
  rw [pair] at anew recorded
  exact ⟨starts, anew, recorded⟩

/-! ## The end of a switchover (R212) -/

section
variable {s : State} {h : Stamp}

theorem execSwitchDeadline_of_reached (role : s.pair.role = .switching) (hH : s.pair.switchH = some h)
    (due : s.reached (h - s.stampMs 5) = true) (ok : s.pair.switchOk = false) :
    execSwitchDeadline s = .next (((s.modPair fun p => { p with role := .active, yield := false, switchH := none }).event R.pair_EVENTS 2).pairLog
      F.SWITCH_ABANDONED (leBytes 8 h.toNat)) := by
  unfold execSwitchDeadline
  rw [role, hH]
  exact if_pos ⟨due, ok⟩

section
variable (hH : s.pair.switchH = some h) (due : s.reached h = true)
include hH due

/-- The former active module gives way to its successor at H. -/
theorem execSwitchoverStamp_of_switching (role : s.pair.role = .switching) (ok : s.pair.switchOk = true) (sent : s.pair.unsent = [])
    (closed : ∀ c : Fin 48, (s.chan c.val).frames = []) : execSwitchoverStamp s = .next (s.demote s.pair.peerTerm 2) := by
  have closed : (List.range 48).all (fun c => (s.chan c).frames.isEmpty) = true :=
    List.all_eq_true.mpr fun c hc => List.isEmpty_iff.mpr (closed ⟨c, List.mem_range.mp hc⟩)
  have ends : s.pair.switchOk = true ∧ s.pair.unsent = [] ∧ (List.range 48).all (fun c => (s.chan c).frames.isEmpty) = true :=
    ⟨ok, sent, closed⟩
  unfold execSwitchoverStamp
  rw [hH]
  dsimp only
  rw [due, role]
  exact if_pos ends

theorem execSwitchoverStamp_of_active (role : s.pair.role = .active) (started : ∀ c : Fin 48, (s.chan c.val).startAfter = none) :
    execSwitchoverStamp s = .next (s.modPair fun p => { p with switchH := none }) := by
  have started : (List.range 48).all (fun c => (s.chan c).startAfter.isNone) = true :=
    List.all_eq_true.mpr fun c hc => Option.isNone_iff_eq_none.mpr (started ⟨c, List.mem_range.mp hc⟩)
  unfold execSwitchoverStamp
  rw [hH]
  dsimp only
  rw [due, role]
  exact if_pos started

theorem execSwitchoverStamp_of_other (hs : s.pair.role ≠ .switching) (ha : s.pair.role ≠ .active) :
    execSwitchoverStamp s = .next (s.modPair fun p => { p with switchH := none }) := by
  unfold execSwitchoverStamp
  rw [hH]
  dsimp only
  rw [due]
  refine (if_neg (by decide)).trans ?_
  split
  next role => exact absurd role hs
  next role => exact absurd role ha
  next => rfl

end

end

/-! ## The statement -/

/-- Settles O37: what reaching the first line leaves of the channel and of the pair block decides what its first frame takes; the
switchover ends as the role has it. -/
theorem promotionAndSwitchoverEnd : Obligations.PromotionAndSwitchoverEnd := by
  unfold Obligations.PromotionAndSwitchoverEnd
  refine ⟨?start, ?deadline, fun h s hH due => ⟨?switching, ?active, ?other⟩⟩
  case start =>
    intro c s active on waits may f g
    have kept : s.PressKept ((s.renewClaim c).reachLine c f 0) c := (s.renewClaim_pressKept c).trans ((s.renewClaim c).reachLine_pressKept c f 0)
    have taken := (State.promotedStart_taken f (by rwa [kept.chan])).of_pressKept kept
    exact ⟨_, if_pos ⟨active, on, waits, may⟩, taken.starts.1, taken.starts.2, taken.anew, taken.recorded⟩
  case deadline =>
    intro h s role hH due ok
    refine ⟨_, execSwitchDeadline_of_reached role hH due ok, ?_, fun hrun => State.modPair_event_pairLog_logs hrun _ _ _ _⟩
    rw [State.pair_event_pairLog]
    rfl
  case switching =>
    intro role ok sent closed
    have turned := s.demote_turnsStandby s.pair.peerTerm 2
    exact ⟨_, execSwitchoverStamp_of_switching hH due role ok sent closed, turned.role, by rw [turned.pair]⟩
  case active => exact fun role started => execSwitchoverStamp_of_active hH due role started
  case other => exact fun hs ha => execSwitchoverStamp_of_other hH due hs ha

end Sys2Proof.Machine
end

section
/-!
PROOF. What a head sends (R240, R243, R247): its end-of-validity packets and its entry into a waiting mode change. Of all heads only that
one changes, and of its registers only those that count what was sent.
-/

namespace Sys2Proof.Machine

/-! ## Heads are read from their own part -/

theorem State.head_of_heads {s t : State} (h : t.heads = s.heads) (n : Nat) : t.head n = s.head n := by
  rw [State.head, h, State.head]

@[simp] theorem State.head_event (s : State) (e m n : Nat) : (s.event e m).head n = s.head n := State.head_of_heads (s.event_heads e m) n
@[simp] theorem State.head_count (s : State) (a n : Nat) : (s.count a).head n = s.head n := rfl
@[simp] theorem State.head_clearCause (s : State) (o : Output) (cls n : Nat) : (s.clearCause o cls).head n = s.head n := rfl
@[simp] theorem State.head_headLog (s : State) (f : FaultClass) (k : Nat) (data : List Byte) (outs : List (Output × Nat)) (n : Nat) :
    (s.headLog f k data outs).head n = s.head n :=
  State.head_of_heads (State.logOut_heads _ _ _ _ _ _) n
@[simp] theorem State.head_admitRecord (s : State) (type source : Nat) (payload : List Byte) (n : Nat) :
    (s.admitRecord type source payload).head n = s.head n :=
  State.head_of_heads ((State.admitRecord_keeps rfl (.refl 0x4c00000005 s)).same .heads rfl) n

/-! ## The registers of a head -/

/-- A register of one of the sixteen heads. -/
def inHeadBlock (n a : Nat) : Prop := n < 16 ∧ R.head n ≤ a ∧ a < R.head n + 0x1000

section
variable {n a : Nat}

theorem inHeadBlock.of_offset {k : Nat} (hn : n < 16) (hk : k < 0x1000) : inHeadBlock n (R.head n + k) :=
  ⟨hn, Nat.le_add_right _ _, Nat.add_lt_add_left hk _⟩

theorem inHeadBlock_FRAMES_SENT (hn : n < 16) : inHeadBlock n (R.head_FRAMES_SENT n) := .of_offset hn (by decide)
theorem inHeadBlock_VOID_FRAMES (hn : n < 16) : inHeadBlock n (R.head_VOID_FRAMES n) := .of_offset hn (by decide)
theorem inHeadBlock_EOV_FRAMES (hn : n < 16) : inHeadBlock n (R.head_EOV_FRAMES n) := .of_offset hn (by decide)
theorem inHeadBlock_FREEZES (hn : n < 16) : inHeadBlock n (R.head_FREEZES n) := .of_offset hn (by decide)

theorem inHeadBlock.ne_hub_SATURATED (ha : inHeadBlock n a) : a ≠ R.hub_SATURATED := by
  obtain ⟨-, low, -⟩ := ha
  simp only [R.head, R.hub_SATURATED, R.hub] at *
  omega

theorem inHeadBlock.ne_txFramesReg (ha : inHeadBlock n a) {p : Nat} (hp : p < 256) : a ≠ txFramesReg p := by
  obtain ⟨-, low, -⟩ := ha
  unfold txFramesReg
  simp only [R.head, R.port_TX_FRAMES, R.port, R.mp_TX_FRAMES, R.mp] at *
  split <;> omega

theorem inHeadBlock.ne_recorder (ha : inHeadBlock n a) {b : Nat} (hb : R.rec ≤ b) : a ≠ b := by
  obtain ⟨hn, -, high⟩ := ha
  simp only [R.head, R.rec] at *
  omega

/-- An event of the head changes no other register of it. -/
theorem State.reg_headEvent (ha : inHeadBlock n a) (he : a ≠ R.head_EVENTS n) (s : State) (m : Nat) :
    (s.event (R.head_EVENTS n) m).reg a = s.reg a :=
  (State.reg_event _ _ _ _ ha.ne_hub_SATURATED).trans (if_neg he)

theorem State.reg_headLog (s : State) (f : FaultClass) (k : Nat) (data : List Byte) (outs : List (Output × Nat)) :
    (s.headLog f k data outs).reg a = s.reg a :=
  State.reg_of_regs a (State.logOut_regs _ _ _ _ _ _)

theorem State.reg_logRated (s : State) (f : FaultClass) (inst ctrl dp : Nat) (data : Nat → List Byte) (only : Bool) (stamp : Stamp) :
    (s.logRated f inst ctrl dp data only stamp).reg a = s.reg a := by
  obtain ⟨l, hl⟩ := s.logRated_frame f inst ctrl dp data only stamp
  rw [hl]
  rfl

/-- A record for the recorder changes no register of a head. -/
theorem State.reg_admitRecord (ha : inHeadBlock n a) (s : State) (type source : Nat) (payload : List Byte) :
    (s.admitRecord type source payload).reg a = s.reg a := by
  have drops : a ≠ dropsReg type := ha.ne_recorder (by unfold dropsReg; split <;> decide)
  have events : a ≠ R.rec_EVENTS := ha.ne_recorder (by decide)
  unfold State.admitRecord
  split
  · rfl
  dsimp only
  split
  · rfl
  next limit _ =>
  generalize (if (s.recorder.shed type).on = true then decide (limit / 2 ≤ s.backlog) else decide (limit < s.backlog)) = shed
  cases shed
  case true =>
    rw [if_pos rfl]
    refine (State.reg_logRated _ _ _ _ _ _ _ _).trans ?_
    refine (State.reg_event _ _ _ _ ha.ne_hub_SATURATED).trans ((if_neg events).trans ?_)
    exact (State.reg_count _ _ _).trans (if_neg drops)
  case false =>
    simp only [Bool.false_eq_true, if_false]
    split <;> rfl

end

/-! ## What sending changes -/

/-- The packet counters of a head lie behind its other counters. -/
theorem ne_headPkts {n k : Nat} (hk : k < 0x48) (b : Bool) : R.head n + k ≠ headPkts n b := by
  cases b <;> simp only [headPkts, R.head_PKTS_A, R.head_PKTS_B] <;> simp <;> omega

/-- A head without its number, its gap records and the time of its last end-of-validity packet. -/
def Head.unsent (h : Head) : Head := { h with seq := 0, gapA := none, gapB := none, lastEovAt := 0 }

/-- Packets of head `n` have gone out: what `unsent` leaves out of that head changes, of all heads nothing else; of its registers only its
packet counters and EOV_FRAMES. -/
structure State.HeadSends (s t : State) (n : Nat) : Prop where
  head   : (t.head n).unsent = (s.head n).unsent
  others : ∀ m, m ≠ n → t.head m = s.head m
  reg    : ∀ a, inHeadBlock n a → (∀ b, a ≠ headPkts n b) → a ≠ R.head_EOV_FRAMES n → t.reg a = s.reg a

section
variable {s t u : State} {n : Nat}

theorem State.HeadSends.refl (s : State) (n : Nat) : s.HeadSends s n := ⟨rfl, fun _ _ => rfl, fun _ _ _ _ => rfl⟩

theorem State.HeadSends.trans (h : s.HeadSends t n) (k : t.HeadSends u n) : s.HeadSends u n where
  head := k.head.trans h.head
  others m hm := (k.others m hm).trans (h.others m hm)
  reg a ha hp he := (k.reg a ha hp he).trans (h.reg a ha hp he)

/-- What a head holds beside what `unsent` leaves out stays. -/
theorem State.HeadSends.field {β : Type} (h : s.HeadSends t n) (f : Head → β) (hf : ∀ x : Head, f x.unsent = f x) :
    f (t.head n) = f (s.head n) := by
  rw [← hf, h.head, hf]

theorem State.HeadSends.foldl {β : Type} {f : State → β → State} (hf : ∀ (y : State) (b : β), y.HeadSends (f y b) n) (l : List β)
    (s : State) : s.HeadSends (l.foldl f s) n := by
  induction l generalizing s with
  | nil => exact .refl s n
  | cons b r ih => exact (hf s b).trans (ih (f s b))

theorem State.modHead_headSends (s : State) (n : Nat) {f : Head → Head} (hf : ∀ h, (f h).unsent = h.unsent) : s.HeadSends (s.modHead n f) n where
  head := by
    rw [State.modHead_eq, State.head_setHead, if_pos rfl]
    exact hf _
  others m hm := (State.head_setHead _ _ _ _).trans (if_neg hm)
  reg _ _ _ _ := rfl

/-- A packet of the head on one path. -/
theorem State.sendMedia_headSends (s : State) (n : Nat) (path rtp : List Byte) (b : Bool) :
    s.HeadSends ((s.sendMedia path rtp).count (headPkts n b)) n where
  head := congrArg Head.unsent (State.head_of_heads rfl n)
  others m _ := State.head_of_heads rfl m
  reg _ ha hp _ := ((State.reg_count _ _ _).trans (if_neg (hp b))).trans (State.reg_txFrame s (ha.ne_txFramesReg (le_one_lt _ _)))

theorem State.headGap_headSends (s : State) (n : Nat) (b : Bool) : s.HeadSends (s.headGap n b) n := by
  unfold State.headGap
  dsimp only
  split
  · split
    · refine (s.modHead_headSends n fun h => ?_).trans (State.sendMedia_headSends _ _ _ _ _)
      cases b <;> rfl
    · exact .refl s n
  · exact .refl s n

theorem State.headSend_headSends (s : State) (n : Nat) (packet : Nat → List Byte) : s.HeadSends (s.headSend n packet) n := by
  unfold State.headSend
  extract_lets q bytes numbered
  have first : s.HeadSends numbered n := s.modHead_headSends n fun _ => rfl
  refine first.trans (.foldl (fun y b => ?_) _ numbered)
  dsimp only
  split
  · exact (y.headGap_headSends n b).trans (State.sendMedia_headSends _ _ _ _ _)
  · exact y.modHead_headSends n fun h => by cases b <;> rfl

theorem State.headEov_headSends (s : State) (n reason : Nat) : s.HeadSends (s.headEov n reason) n := by
  unfold State.headEov
  extract_lets h element rtp t
  have sent : s.HeadSends t n := s.headSend_headSends n _
  clear_value t
  have counted : t.HeadSends (t.count (R.head_EOV_FRAMES n)) n :=
    ⟨rfl, fun _ _ => rfl, fun a _ _ he => (State.reg_count _ _ _).trans (if_neg he)⟩
  exact (sent.trans counted).trans (State.modHead_headSends _ n (f := fun h => { h with lastEovAt := t.now }) fun _ => rfl)

end

/-! ## A waiting mode change (R247, R248) -/

/-- The head has left its frame for a new timing `p` and gang `g`: it runs that timing in MODE_GAP, or stops. -/
structure State.ModeEntered (s t : State) (n : Nat) (p : List Byte) (g : Bool) : Prop where
  mode     : (t.head n).mode = none
  inFrame  : (t.head n).inFrame = false
  gang     : (t.head n).gang = g
  enabled  : (headTiming p).enable = true → (t.head n).state = .modeGap ∧ (t.head n).timing = p
  disabled : (headTiming p).enable = false → (t.head n).state = .stopping ∧ (t.head n).eovLeft = some 16
  others   : ∀ m, m ≠ n → t.head m = s.head m

/-- E of a mode change: what is due at it before the new timing is looked at. -/
def State.modeLeft (s : State) (n : Nat) : State :=
  let s' := if (s.head n).state = .failed then (s.modHead n fun h => { h with freezeAt := [] }).clearCause (.head n) F.HEAD_FAILED.code else s
  let s' := s'.modHead n fun h => { h with mode := none, inFrame := false, eovPeriod := (s.timing n).period }
  if s'.sends then s'.headEov n voidMode else s'

theorem State.modeLeft_spec (s : State) (n : Nat) :
    ((s.modeLeft n).head n).mode = none ∧ ((s.modeLeft n).head n).inFrame = false ∧ ∀ m, m ≠ n → (s.modeLeft n).head m = s.head m := by
  unfold State.modeLeft
  extract_lets u v
  have hu : ∀ m, m ≠ n → u.head m = s.head m := by
    intro m hm
    unfold u
    split
    · simp [hm]
    · rfl
  have hv : (v.head n).mode = none ∧ (v.head n).inFrame = false ∧ ∀ m, m ≠ n → v.head m = s.head m :=
    ⟨by simp [v], by simp [v], fun m hm => by simp [v, hm, hu m hm]⟩
  clear_value v
  obtain ⟨mode, inFrame, others⟩ := hv
  split
  · have sent := v.headEov_headSends n voidMode
    exact ⟨(sent.field Head.mode fun _ => rfl).trans mode, (sent.field Head.inFrame fun _ => rfl).trans inFrame,
      fun m hm => (sent.others m hm).trans (others m hm)⟩
  · exact ⟨mode, inFrame, others⟩

theorem State.enterMode_modeEntered (s : State) (n : Nat) (p : List Byte) (g : Bool) : s.ModeEntered (s.enterMode n p g) n p g := by
  obtain ⟨mode, inFrame, others⟩ := s.modeLeft_spec n
  unfold State.enterMode
  extract_lets h old cleared ended left gap told timed
  have hleft : left = s.modeLeft n := rfl
  rw [← hleft] at mode inFrame others
  clear_value left
  cases on : (headTiming p).enable
  case true =>
    have state : (timed.head n).state = .modeGap := by simp [timed, told, gap, State.lineLimit]
    have timing : (timed.head n).timing = p := by simp [timed, State.lineLimit]
    have gang : (timed.head n).gang = g := by simp [timed, State.lineLimit]
    have mode : (timed.head n).mode = none := by simp [timed, told, gap, State.lineLimit, mode]
    have others (m : Nat) (hm : m ≠ n) : timed.head m = s.head m := by simp [timed, told, gap, State.lineLimit, hm, others m hm]
    clear_value timed
    rw [if_pos rfl]
    exact {
      mode := by simp [State.runFrom, mode]
      inFrame := by simp [State.runFrom]
      gang := by simp [State.runFrom, gang]
      enabled := fun _ => ⟨by simp [State.runFrom, state], by simp [State.runFrom, timing]⟩
      disabled := fun off => Bool.noConfusion (on.symm.trans off)
      others := fun m hm => by simp [State.runFrom, hm, others m hm] }
  case false =>
    rw [if_neg Bool.false_ne_true]
    exact {
      mode := by simp [mode]
      inFrame := by simp [inFrame]
      gang := by simp
      enabled := fun now => Bool.noConfusion (on.symm.trans now)
      disabled := fun _ => by simp
      others := fun m hm => by simp [hm, others m hm] }

end Sys2Proof.Machine
end

section
/-!
PROOF. The end of a head's frame (R247, R250 to R252): what a frame counts and leaves as its signature, and what that signature makes of
the head.
-/

namespace Sys2Proof.Machine

/-! ## The frame is counted and signed (R250, R251) -/

/-- CRC-64 of the frame in progress. -/
def Head.frameSignature (h : Head) : Nat := h.sig ^^^ 0xFFFFFFFFFFFFFFFF

/-- The signature of the frame equals the one before, or its number is wrong. -/
def Head.badFrame (h : Head) : Bool := h.lastSig == some h.frameSignature || h.tagFrame != h.frame % 2 ^ 32

theorem Head.badFrame_iff (h : Head) : h.badFrame = true ↔ h.lastSig = some h.frameSignature ∨ h.tagFrame ≠ h.frame % 2 ^ 32 := by
  simp [Head.badFrame]

/-- A register has counted `k` more, up to its last value. -/
def State.Counted (s t : State) (a k : Nat) : Prop := (t.reg a).toNat = min 0xFFFFFFFF ((s.reg a).toNat + k)

theorem State.Counted.keep {s t u : State} {a k : Nat} (h : s.Counted t a k) (e : u.reg a = t.reg a) : s.Counted u a k := by
  rw [State.Counted, e, h]

theorem State.Counted.after {s t u : State} {a k : Nat} (h : t.Counted u a k) (e : t.reg a = s.reg a) : s.Counted u a k := by
  rw [State.Counted, h, e]

/-- Count one when `b`. -/
def State.countIf (s : State) (b : Bool) (a : Nat) : State := if b then s.count a else s

section
variable (s : State) (b : Bool) (a : Nat)

theorem State.countIf_counted : s.Counted (s.countIf b a) a (b2n b) := by
  cases b with
  | true => exact s.toNat_reg_count a
  | false =>
    have small := (s.reg a).isLt
    change (s.reg a).toNat = min 0xFFFFFFFF ((s.reg a).toNat + 0)
    omega

theorem State.reg_countIf_ne {c : Nat} (h : c ≠ a) : (s.countIf b a).reg c = s.reg c := by
  cases b with
  | true => exact (s.reg_count a c).trans (if_neg h)
  | false => rfl

@[simp] theorem State.head_countIf (n : Nat) : (s.countIf b a).head n = s.head n := by
  cases b <;> rfl

end

theorem State.countIf_keeps {A : Nat} {z s : State} {b : Bool} {a : Nat} (hA : 0x1 &&& A = 0x1) (hk : Keeps A z s) :
    Keeps A z (s.countIf b a) := by
  cases b with
  | true => exact State.count_keeps hA hk
  | false => exact hk

/-- A frame of a head that held `h` counts in FRAMES_SENT and, when it had such packets, in VOID_FRAMES and EOV_FRAMES; without
end-of-validity it is the last valid one. -/
def State.frameCounted (s : State) (n : Nat) (h : Head) : State :=
  let s := ((s.event (R.head_EVENTS n) 8).count (R.head_FRAMES_SENT n)).countIf h.sawVoid (R.head_VOID_FRAMES n)
  if h.sawEov then s.count (R.head_EOV_FRAMES n) else s.modHead n fun h => { h with lastValid := h.tagFrame }

/-- Its CRC-64 is the frame's signature. -/
def State.frameSigned (s : State) (n : Nat) (h : Head) : State :=
  (s.frameCounted n h).modHead n fun x => { x with signature := h.frameSignature, lastSig := some h.frameSignature }

/-- The composed lines of the frame become the record of its proxy (R302). -/
def State.pictureAdmitted (s : State) (n : Nat) (h : Head) (payload : List Byte) : State :=
  if h.picture = [] then s else (s.admitRecord 2 n payload).modHead n fun h => { h with picture := [] }

/-- The frame of head `n` has been counted and signed. -/
structure State.FrameSigned (s t : State) (n : Nat) : Prop where
  head    : t.head n = { s.head n with
    inFrame := false, signature := (s.head n).frameSignature, lastSig := some (s.head n).frameSignature,
    lastValid := if (s.head n).sawEov then (s.head n).lastValid else (s.head n).tagFrame, picture := (t.head n).picture }
  others  : ∀ m, m ≠ n → t.head m = s.head m
  frames  : s.Counted t (R.head_FRAMES_SENT n) 1
  voids   : s.Counted t (R.head_VOID_FRAMES n) (b2n (s.head n).sawVoid)
  eovs    : s.Counted t (R.head_EOV_FRAMES n) (b2n (s.head n).sawEov)
  freezes : t.reg (R.head_FREEZES n) = s.reg (R.head_FREEZES n)
  keeps   : Keeps 0x4c20000005 s t

section
variable (s : State) (n : Nat) (h : Head)

theorem State.head_frameCounted (m : Nat) : (s.frameCounted n h).head m =
    if m = n then { s.head n with lastValid := if h.sawEov then (s.head n).lastValid else (s.head n).tagFrame } else s.head m := by
  unfold State.frameCounted
  cases h.sawEov
  case true => by_cases hm : m = n <;> simp [hm]
  case false => simp

theorem State.reg_frameCounted (a : Nat) : (s.frameCounted n h).reg a =
    ((((s.event (R.head_EVENTS n) 8).count (R.head_FRAMES_SENT n)).countIf h.sawVoid (R.head_VOID_FRAMES n)).countIf h.sawEov
      (R.head_EOV_FRAMES n)).reg a := by
  unfold State.frameCounted
  cases h.sawEov <;> rfl

end

theorem State.frameCounted_keeps {A : Nat} {z s : State} {n : Nat} {h : Head} (hA : 0x4820000005 &&& A = 0x4820000005) (hk : Keeps A z s) :
    Keeps A z (s.frameCounted n h) := by
  have counted : Keeps A z (((s.event (R.head_EVENTS n) 8).count (R.head_FRAMES_SENT n)).countIf h.sawVoid (R.head_VOID_FRAMES n)) :=
    State.countIf_keeps (Part.sub hA rfl) (State.count_keeps (Part.sub hA rfl) (State.event_keeps (Part.sub hA rfl) hk))
  unfold State.frameCounted
  dsimp only
  split
  · exact State.count_keeps (Part.sub hA rfl) counted
  · exact State.modHead_keeps (Part.sub hA rfl) counted

section
variable (s : State) {n : Nat} (h : Head) (hn : n < 16)
include hn

theorem State.FRAMES_SENT_frameCounted : s.Counted (s.frameCounted n h) (R.head_FRAMES_SENT n) 1 := by
  refine .after (.keep (State.toNat_reg_count _ _) ?_)
    (State.reg_headEvent (inHeadBlock_FRAMES_SENT hn) (by simp [R.head_FRAMES_SENT, R.head_EVENTS]) s 8)
  rw [State.reg_frameCounted, State.reg_countIf_ne _ _ _ (by simp [R.head_FRAMES_SENT, R.head_EOV_FRAMES]),
    State.reg_countIf_ne _ _ _ (by simp [R.head_FRAMES_SENT, R.head_VOID_FRAMES])]

theorem State.VOID_FRAMES_frameCounted : s.Counted (s.frameCounted n h) (R.head_VOID_FRAMES n) (b2n h.sawVoid) := by
  refine .after (.keep (State.countIf_counted _ _ _)
    ((s.reg_frameCounted n h _).trans (State.reg_countIf_ne _ _ _ (by simp [R.head_VOID_FRAMES, R.head_EOV_FRAMES])))) ?_
  rw [State.reg_count, if_neg (by simp [R.head_VOID_FRAMES, R.head_FRAMES_SENT]),
    State.reg_headEvent (inHeadBlock_VOID_FRAMES hn) (by simp [R.head_VOID_FRAMES, R.head_EVENTS])]

theorem State.EOV_FRAMES_frameCounted : s.Counted (s.frameCounted n h) (R.head_EOV_FRAMES n) (b2n h.sawEov) := by
  refine .after (.keep (State.countIf_counted _ _ _) (s.reg_frameCounted n h _)) ?_
  rw [State.reg_countIf_ne _ _ _ (by simp [R.head_EOV_FRAMES, R.head_VOID_FRAMES]), State.reg_count,
    if_neg (by simp [R.head_EOV_FRAMES, R.head_FRAMES_SENT]),
    State.reg_headEvent (inHeadBlock_EOV_FRAMES hn) (by simp [R.head_EOV_FRAMES, R.head_EVENTS])]

theorem State.FREEZES_frameCounted : (s.frameCounted n h).reg (R.head_FREEZES n) = s.reg (R.head_FREEZES n) := by
  rw [State.reg_frameCounted, State.reg_countIf_ne _ _ _ (by simp [R.head_FREEZES, R.head_EOV_FRAMES]),
    State.reg_countIf_ne _ _ _ (by simp [R.head_FREEZES, R.head_VOID_FRAMES]), State.reg_count,
    if_neg (by simp [R.head_FREEZES, R.head_FRAMES_SENT]),
    State.reg_headEvent (inHeadBlock_FREEZES hn) (by simp [R.head_FREEZES, R.head_EVENTS])]

end

section
variable (s : State) (n : Nat) (h : Head) (payload : List Byte)

theorem State.head_pictureAdmitted (m : Nat) : (s.pictureAdmitted n h payload).head m =
    if m = n then { s.head n with picture := ((s.pictureAdmitted n h payload).head n).picture } else s.head m := by
  unfold State.pictureAdmitted
  split
  · split <;> simp [*]
  · simp

theorem State.reg_pictureAdmitted {a : Nat} (ha : inHeadBlock n a) : (s.pictureAdmitted n h payload).reg a = s.reg a := by
  unfold State.pictureAdmitted
  split
  · rfl
  · exact State.reg_admitRecord ha s 2 n payload

theorem State.pictureAdmitted_keeps {A : Nat} {z s : State} (hA : 0x4c20000005 &&& A = 0x4c20000005) (hk : Keeps A z s) :
    Keeps A z (s.pictureAdmitted n h payload) := by
  unfold State.pictureAdmitted
  split
  · exact hk
  · exact State.modHead_keeps (Part.sub hA rfl) (State.admitRecord_keeps (Part.sub hA rfl) hk)

end

/-- The end of a frame that was sent, up to the verdict on its signature. -/
def State.frameDone (s : State) (n : Nat) (payload : List Byte) : State :=
  ((s.modHead n fun h => { h with inFrame := false }).frameSigned n (s.head n)).pictureAdmitted n (s.head n) payload

section
variable (s : State) {n : Nat} (payload : List Byte)

theorem State.reg_frameDone {a : Nat} (ha : inHeadBlock n a) : (s.frameDone n payload).reg a =
    ((s.modHead n fun h => { h with inFrame := false }).frameCounted n (s.head n)).reg a :=
  State.reg_pictureAdmitted _ n _ payload ha

theorem State.frameDone_frameSigned (hn : n < 16) : s.FrameSigned (s.frameDone n payload) n where
  head := by
    simp only [State.frameDone, State.frameSigned]
    rw [State.head_pictureAdmitted, if_pos rfl]
    simp [State.head_frameCounted]
  others m hm := by
    simp only [State.frameDone, State.frameSigned]
    rw [State.head_pictureAdmitted, if_neg hm]
    simp [State.head_frameCounted, hm]
  frames := (State.Counted.keep (State.FRAMES_SENT_frameCounted _ _ hn) (s.reg_frameDone payload (inHeadBlock_FRAMES_SENT hn))).after rfl
  voids := (State.Counted.keep (State.VOID_FRAMES_frameCounted _ _ hn) (s.reg_frameDone payload (inHeadBlock_VOID_FRAMES hn))).after rfl
  eovs := (State.Counted.keep (State.EOV_FRAMES_frameCounted _ _ hn) (s.reg_frameDone payload (inHeadBlock_EOV_FRAMES hn))).after rfl
  freezes := (s.reg_frameDone payload (inHeadBlock_FREEZES hn)).trans (State.FREEZES_frameCounted _ _ hn)
  keeps := State.pictureAdmitted_keeps _ _ _ rfl (State.modHead_keeps rfl (State.frameCounted_keeps rfl (State.modHead_keeps rfl (.refl _ s))))

end

/-! ## The verdict on the signature (R252) -/

/-- Times of the freezes within the last 60 s, with one now. -/
def Head.freezeTimes (h : Head) (now : Nat) : List Nat := now :: h.freezeAt.filter fun b => decide (now < b + sec 60)

/-- A bad frame of a head that held `h` freezes it. -/
def State.freezeNoted (s : State) (n : Nat) (h : Head) : State :=
  let t := (s.modHead n fun x => { x with frozen := true, goodFrames := 0, freezeAt := h.freezeTimes s.now }).count (R.head_FREEZES n)
  (t.event (R.head_EVENTS n) 32).headLog F.HEAD_FREEZE n
    (leBytes 4 h.tagFrame ++ leBytes 1 (if h.lastSig == some h.frameSignature then 1 else 2)) [(.head n, voidFreeze)]

/-- A head with `count` freezes within 60 s fails, and sends end-of-validity packets from now on. -/
def State.headFailed (s : State) (n count period : Nat) : State :=
  ((s.modHead n fun x => { x with state := .failed, eovPeriod := period }).headLog F.HEAD_FAILED n (leBytes 4 count)
    [(.head n, voidFreeze)]).headEov n voidFreeze

/-- A good frame of a frozen head: after the second in a row it is frozen no longer. -/
def State.goodFrameNoted (s : State) (n : Nat) (h : Head) : State :=
  if h.frozen then
    if h.goodFrames = 0 then s.modHead n fun x => { x with goodFrames := 1 }
    else ((s.modHead n fun x => { x with frozen := false, goodFrames := 0 }).headLog F.HEAD_FREEZE_CLEARED n (leBytes 4 h.tagFrame)).clearCause
      (.head n) F.HEAD_FREEZE.code
  else s

/-- What the frame of a head that held `h` makes of it. -/
def State.frameJudged (s : State) (n : Nat) (h : Head) (period : Nat) : State :=
  if h.badFrame then
    if 3 ≤ (h.freezeTimes s.now).length then (s.freezeNoted n h).headFailed n (h.freezeTimes s.now).length period else s.freezeNoted n h
  else s.goodFrameNoted n h

/-- What no verdict touches: the frame's signature, the frames counted, and every other head. -/
structure State.SignatureKept (s t : State) (n : Nat) : Prop where
  inFrame   : (t.head n).inFrame = (s.head n).inFrame
  signature : (t.head n).signature = (s.head n).signature
  lastSig   : (t.head n).lastSig = (s.head n).lastSig
  lastValid : (t.head n).lastValid = (s.head n).lastValid
  frames    : t.reg (R.head_FRAMES_SENT n) = s.reg (R.head_FRAMES_SENT n)
  voids     : t.reg (R.head_VOID_FRAMES n) = s.reg (R.head_VOID_FRAMES n)
  others    : ∀ m, m ≠ n → t.head m = s.head m

theorem State.SignatureKept.trans {s t u : State} {n : Nat} (h : s.SignatureKept t n) (k : t.SignatureKept u n) : s.SignatureKept u n where
  inFrame := k.inFrame.trans h.inFrame
  signature := k.signature.trans h.signature
  lastSig := k.lastSig.trans h.lastSig
  lastValid := k.lastValid.trans h.lastValid
  frames := k.frames.trans h.frames
  voids := k.voids.trans h.voids
  others m hm := (k.others m hm).trans (h.others m hm)

section
variable (s : State) {n : Nat} (h : Head)

theorem State.head_freezeNoted (m : Nat) : (s.freezeNoted n h).head m =
    if m = n then { s.head n with frozen := true, goodFrames := 0, freezeAt := h.freezeTimes s.now } else s.head m := by
  simp [State.freezeNoted]

theorem State.reg_freezeNoted {a : Nat} (ha : inHeadBlock n a) (he : a ≠ R.head_EVENTS n) :
    (s.freezeNoted n h).reg a = (s.count (R.head_FREEZES n)).reg a :=
  (State.reg_headLog _ _ _ _ _).trans (State.reg_headEvent ha he _ _)

theorem State.freezeNoted_signatureKept (hn : n < 16) : s.SignatureKept (s.freezeNoted n h) n where
  inFrame := by simp [State.head_freezeNoted]
  signature := by simp [State.head_freezeNoted]
  lastSig := by simp [State.head_freezeNoted]
  lastValid := by simp [State.head_freezeNoted]
  frames := (s.reg_freezeNoted h (inHeadBlock_FRAMES_SENT hn) (by simp [R.head_FRAMES_SENT, R.head_EVENTS])).trans
    ((State.reg_count _ _ _).trans (if_neg (by simp [R.head_FRAMES_SENT, R.head_FREEZES])))
  voids := (s.reg_freezeNoted h (inHeadBlock_VOID_FRAMES hn) (by simp [R.head_VOID_FRAMES, R.head_EVENTS])).trans
    ((State.reg_count _ _ _).trans (if_neg (by simp [R.head_VOID_FRAMES, R.head_FREEZES])))
  others m hm := by simp [State.head_freezeNoted, hm]

theorem State.freezeNoted_logs (hrun : s.running = true) : s.Logs (s.freezeNoted n h) F.HEAD_FREEZE := by
  have raised : Keeps 0x4820000005 s (((s.modHead n fun x =>
      { x with frozen := true, goodFrames := 0, freezeAt := h.freezeTimes s.now }).count (R.head_FREEZES n)).event (R.head_EVENTS n) 32) :=
    State.event_keeps rfl (State.count_keeps rfl (State.modHead_keeps rfl (.refl _ s)))
  exact (State.logOut_logsOne (raised.running rfl hrun) _ _ _ _ _).logs.after raised rfl

theorem State.freezeNoted_keeps : Keeps 0x4820000005 s (s.freezeNoted n h) :=
  State.headLog_keeps rfl (State.event_keeps rfl (State.count_keeps rfl (State.modHead_keeps rfl (.refl _ s))))

end

section
variable (s : State) {n : Nat} (count period : Nat)

/-- The end-of-validity packet of a head that fails. -/
theorem State.headFailed_headSends :
    (s.modHead n fun x => { x with state := .failed, eovPeriod := period }).HeadSends (s.headFailed n count period) n := by
  refine .trans ⟨?_, fun m _ => State.head_headLog _ _ _ _ _ m, fun a _ _ _ => State.reg_headLog _ _ _ _ _⟩ (State.headEov_headSends _ n voidFreeze)
  exact congrArg Head.unsent (State.head_headLog _ _ _ _ _ n)

theorem State.headFailed_field {β : Type} (f : Head → β) (hf : ∀ x : Head, f x.unsent = f x) :
    f ((s.headFailed n count period).head n) = f { s.head n with state := .failed, eovPeriod := period } := by
  rw [(s.headFailed_headSends count period).field f hf]
  simp

theorem State.headFailed_signatureKept (hn : n < 16) : s.SignatureKept (s.headFailed n count period) n where
  inFrame := s.headFailed_field count period Head.inFrame fun _ => rfl
  signature := s.headFailed_field count period Head.signature fun _ => rfl
  lastSig := s.headFailed_field count period Head.lastSig fun _ => rfl
  lastValid := s.headFailed_field count period Head.lastValid fun _ => rfl
  frames := (s.headFailed_headSends count period).reg _ (inHeadBlock_FRAMES_SENT hn) (ne_headPkts (by decide))
    (by simp [R.head_FRAMES_SENT, R.head_EOV_FRAMES])
  voids := (s.headFailed_headSends count period).reg _ (inHeadBlock_VOID_FRAMES hn) (ne_headPkts (by decide))
    (by simp [R.head_VOID_FRAMES, R.head_EOV_FRAMES])
  others m hm := ((s.headFailed_headSends count period).others m hm).trans (by simp [hm])

theorem State.headFailed_logs (hrun : s.running = true) : s.Logs (s.headFailed n count period) F.HEAD_FAILED := by
  have failed : Keeps 0x20000000 s (s.modHead n fun x => { x with state := .failed, eovPeriod := period }) := State.modHead_keeps rfl (.refl _ s)
  exact ((State.logOut_logsOne (failed.running rfl hrun) _ _ _ _ _).logs.after failed rfl).keep
    (State.headEov_keeps rfl (.refl 0x20000021 _)) rfl

theorem State.headFailed_keeps : Keeps 0x4020000021 s (s.headFailed n count period) :=
  State.headEov_keeps rfl (State.headLog_keeps rfl (State.modHead_keeps rfl (.refl _ s)))

end

section
variable (s : State) {n : Nat} (h : Head)

theorem State.goodFrameNoted_regs : (s.goodFrameNoted n h).regs = s.regs := by
  unfold State.goodFrameNoted
  split
  · split
    · rfl
    · exact State.logOut_regs _ _ _ _ _ _
  · rfl

/-- A good frame changes whether its head is frozen, and nothing else. -/
theorem State.head_goodFrameNoted (m : Nat) : (s.goodFrameNoted n h).head m =
    if m = n then { s.head n with
      frozen := ((s.goodFrameNoted n h).head n).frozen, goodFrames := ((s.goodFrameNoted n h).head n).goodFrames } else s.head m := by
  unfold State.goodFrameNoted
  split
  · split <;> simp
  · split
    next hm => rw [hm]
    next => rfl

theorem State.goodFrameNoted_signatureKept : s.SignatureKept (s.goodFrameNoted n h) n where
  inFrame := by rw [State.head_goodFrameNoted, if_pos rfl]
  signature := by rw [State.head_goodFrameNoted, if_pos rfl]
  lastSig := by rw [State.head_goodFrameNoted, if_pos rfl]
  lastValid := by rw [State.head_goodFrameNoted, if_pos rfl]
  frames := State.reg_of_regs _ (s.goodFrameNoted_regs h)
  voids := State.reg_of_regs _ (s.goodFrameNoted_regs h)
  others m hm := by rw [State.head_goodFrameNoted, if_neg hm]

theorem State.goodFrameNoted_of_first (hf : h.frozen = true) (hg : h.goodFrames = 0) :
    s.goodFrameNoted n h = s.modHead n fun x => { x with goodFrames := 1 } :=
  (if_pos hf).trans (if_pos hg)

theorem State.goodFrameNoted_of_second (hf : h.frozen = true) (hg : h.goodFrames ≠ 0) :
    s.goodFrameNoted n h = ((s.modHead n fun x => { x with frozen := false, goodFrames := 0 }).headLog F.HEAD_FREEZE_CLEARED n
      (leBytes 4 h.tagFrame)).clearCause (.head n) F.HEAD_FREEZE.code :=
  (if_pos hf).trans (if_neg hg)

theorem State.goodFrameNoted_logs (hrun : s.running = true) (hf : h.frozen = true) (hg : h.goodFrames ≠ 0) :
    s.Logs (s.goodFrameNoted n h) F.HEAD_FREEZE_CLEARED := by
  rw [s.goodFrameNoted_of_second h hf hg]
  have thawed : Keeps 0x20000000 s (s.modHead n fun x => { x with frozen := false, goodFrames := 0 }) := State.modHead_keeps rfl (.refl _ s)
  exact ((State.logOut_logsOne (thawed.running rfl hrun) _ _ _ _ _).logs.after thawed rfl).keep
    (State.clearCause_keeps rfl (.refl 0x4000000000 _)) rfl

theorem State.frameJudged_signatureKept (hn : n < 16) (period : Nat) : s.SignatureKept (s.frameJudged n h period) n := by
  have frozen := s.freezeNoted_signatureKept h hn
  unfold State.frameJudged
  split
  · split
    · exact frozen.trans ((s.freezeNoted n h).headFailed_signatureKept _ period hn)
    · exact frozen
  · exact s.goodFrameNoted_signatureKept h

end

/-! ## HEAD_FRAME_DONE -/

/-- The frame of head `n` is at its end. -/
structure State.FrameEnds (s : State) (n : Nat) : Prop where
  inFrame : (s.head n).inFrame = true
  lines   : (s.timing n).height ≤ (s.head n).next
  time    : ((s.timing n).lineNs (s.head n).frame (s.timing n).height : Int) ≤ s.ptpNs

/-- The end of a frame before a waiting mode change is entered. -/
def State.frameEnded (s : State) (n : Nat) (payload : List Byte) : State :=
  if !(s.head n).sending then (s.modHead n fun h => { h with inFrame := false }).modHead n fun h => { h with lastSig := none }
  else (s.frameDone n payload).frameJudged n (s.head n) (s.timing n).period

section
variable {s : State} {n : Fin 16} (ends : s.FrameEnds n.val)
include ends

theorem State.FrameEnds.not_early : ¬((!(s.head n.val).inFrame) = true ∨ (s.head n.val).next < (s.timing n.val).height ∨
    s.ptpNs < ((s.timing n.val).lineNs (s.head n.val).frame (s.timing n.val).height : Int)) := by
  simp [ends.inFrame, ends.lines, ends.time]

theorem execHeadFrameDone_of_no_mode (hm : (s.head n.val).mode = none) :
    ∃ payload, execHeadFrameDone n s = .next (s.frameEnded n.val payload) := by
  unfold execHeadFrameDone
  apply Exists.intro
  refine (if_neg ends.not_early).trans ?_
  rw [hm]
  rfl

theorem execHeadFrameDone_of_mode {p : List Byte} {g : Bool} (hm : (s.head n.val).mode = some (p, g)) :
    ∃ payload, execHeadFrameDone n s = .next ((s.frameEnded n.val payload).enterMode n.val p g) := by
  unfold execHeadFrameDone
  apply Exists.intro
  refine (if_neg ends.not_early).trans ?_
  rw [hm]
  rfl

end

section
variable (s : State) {n : Nat} (payload : List Byte)

theorem State.frameEnded_of_unsent (h : (s.head n).sending = false) :
    s.frameEnded n payload = (s.modHead n fun h => { h with inFrame := false }).modHead n fun h => { h with lastSig := none } :=
  if_pos (by rw [h]; rfl)

theorem State.frameEnded_of_sent (h : (s.head n).sending = true) :
    s.frameEnded n payload = (s.frameDone n payload).frameJudged n (s.head n) (s.timing n).period :=
  if_neg (by rw [h]; decide)

theorem State.head_frameEnded_ne (hn : n < 16) {m : Nat} (hm : m ≠ n) : (s.frameEnded n payload).head m = s.head m := by
  cases h : (s.head n).sending
  case false =>
    rw [s.frameEnded_of_unsent payload h]
    simp [hm]
  case true =>
    rw [s.frameEnded_of_sent payload h]
    exact ((State.frameJudged_signatureKept _ _ hn _).others m hm).trans ((s.frameDone_frameSigned payload hn).others m hm)

end

/-! ## What becomes of the head of a frame that was sent -/

/-- What every frame of head `n` that was sent leaves. -/
structure State.FrameTold (s t : State) (n : Nat) : Prop where
  inFrame   : (t.head n).inFrame = false
  signature : (t.head n).signature = (s.head n).frameSignature
  lastSig   : (t.head n).lastSig = some (s.head n).frameSignature
  lastValid : (t.head n).lastValid = if (s.head n).sawEov then (s.head n).lastValid else (s.head n).tagFrame
  frames    : s.Counted t (R.head_FRAMES_SENT n) 1
  voids     : s.Counted t (R.head_VOID_FRAMES n) (b2n (s.head n).sawVoid)
  others    : ∀ m, m ≠ n → t.head m = s.head m

/-- What a bad frame leaves besides: the head is frozen, or fails with its third freeze within 60 s. -/
structure State.FrameRefused (s t : State) (n : Nat) (times : List Nat) : Prop where
  frozen   : (t.head n).frozen = true
  freezeAt : (t.head n).freezeAt = times
  logs     : s.running = true → s.Logs t F.HEAD_FREEZE
  freezes  : s.Counted t (R.head_FREEZES n) 1
  eovs     : times.length < 3 → s.Counted t (R.head_EOV_FRAMES n) (b2n (s.head n).sawEov)
  stays    : times.length < 3 → (t.head n).state = (s.head n).state
  fails    : 3 ≤ times.length → (t.head n).state = .failed ∧ (s.running = true → s.Logs t F.HEAD_FAILED)

/-- What a good frame leaves besides. -/
structure State.FrameAccepted (s t : State) (n : Nat) : Prop where
  freezes : t.reg (R.head_FREEZES n) = s.reg (R.head_FREEZES n)
  eovs    : s.Counted t (R.head_EOV_FRAMES n) (b2n (s.head n).sawEov)
  state   : (t.head n).state = (s.head n).state
  first   : (s.head n).frozen = true → (s.head n).goodFrames = 0 → (t.head n).frozen = true ∧ (t.head n).goodFrames = 1
  second  : (s.head n).frozen = true → (s.head n).goodFrames ≠ 0 →
    (t.head n).frozen = false ∧ (s.running = true → s.Logs t F.HEAD_FREEZE_CLEARED)

section
variable {s t : State} {n : Nat} (h : s.FrameSigned t n)
include h

theorem State.FrameSigned.told {u : State} (k : t.SignatureKept u n) : s.FrameTold u n where
  inFrame := by rw [k.inFrame, h.head]
  signature := by rw [k.signature, h.head]
  lastSig := by rw [k.lastSig, h.head]
  lastValid := by rw [k.lastValid, h.head]
  frames := h.frames.keep k.frames
  voids := h.voids.keep k.voids
  others m hm := (k.others m hm).trans (h.others m hm)

theorem State.FrameSigned.freezeNoted_refused (hn : n < 16) (few : ((s.head n).freezeTimes s.now).length < 3) :
    s.FrameRefused (t.freezeNoted n (s.head n)) n ((s.head n).freezeTimes s.now) where
  frozen := by simp [State.head_freezeNoted]
  freezeAt := by
    rw [State.head_freezeNoted, if_pos rfl, show t.now = s.now from h.keeps.now]
  logs hrun := (t.freezeNoted_logs _ (h.keeps.running rfl hrun)).after h.keeps rfl
  freezes := .after (.keep (t.toNat_reg_count _)
    (t.reg_freezeNoted _ (inHeadBlock_FREEZES hn) (by simp [R.head_FREEZES, R.head_EVENTS]))) h.freezes
  eovs _ := h.eovs.keep ((t.reg_freezeNoted _ (inHeadBlock_EOV_FRAMES hn) (by simp [R.head_EOV_FRAMES, R.head_EVENTS])).trans
    ((State.reg_count _ _ _).trans (if_neg (by simp [R.head_EOV_FRAMES, R.head_FREEZES]))))
  stays _ := by
    rw [State.head_freezeNoted, if_pos rfl, h.head]
  fails many := absurd many (Nat.not_le_of_lt few)

theorem State.FrameSigned.headFailed_refused (hn : n < 16) (many : 3 ≤ ((s.head n).freezeTimes s.now).length) (period : Nat) :
    s.FrameRefused ((t.freezeNoted n (s.head n)).headFailed n ((s.head n).freezeTimes s.now).length period) n
      ((s.head n).freezeTimes s.now) where
  frozen := by
    rw [State.headFailed_field _ _ _ Head.frozen fun _ => rfl]
    simp [State.head_freezeNoted]
  freezeAt := by
    rw [State.headFailed_field _ _ _ Head.freezeAt fun _ => rfl, State.head_freezeNoted, if_pos rfl, show t.now = s.now from h.keeps.now]
  logs hrun := ((t.freezeNoted_logs _ (h.keeps.running rfl hrun)).after h.keeps rfl).keep (State.headFailed_keeps _ _ _) rfl
  freezes := by
    refine .after (.keep (t.toNat_reg_count _) ?_) h.freezes
    exact ((State.headFailed_headSends _ _ _).reg _ (inHeadBlock_FREEZES hn) (ne_headPkts (by decide))
      (by simp [R.head_FREEZES, R.head_EOV_FRAMES])).trans
        (t.reg_freezeNoted _ (inHeadBlock_FREEZES hn) (by simp [R.head_FREEZES, R.head_EVENTS]))
  eovs few := absurd many (Nat.not_le_of_lt few)
  stays few := absurd many (Nat.not_le_of_lt few)
  fails _ := by
    refine ⟨State.headFailed_field _ _ _ Head.state fun _ => rfl, fun hrun => ?_⟩
    have noted := t.freezeNoted_keeps (n := n) (s.head n)
    exact ((State.headFailed_logs _ _ _ (noted.running rfl (h.keeps.running rfl hrun))).after noted rfl).after h.keeps rfl

theorem State.FrameSigned.goodFrameNoted_accepted : s.FrameAccepted (t.goodFrameNoted n (s.head n)) n where
  freezes := (State.reg_of_regs _ (t.goodFrameNoted_regs _)).trans h.freezes
  eovs := h.eovs.keep (State.reg_of_regs _ (t.goodFrameNoted_regs _))
  state := by rw [State.head_goodFrameNoted, if_pos rfl, h.head]
  first hf hg := by
    rw [State.goodFrameNoted_of_first _ _ hf hg, State.modHead_eq, State.head_setHead, if_pos rfl, h.head]
    exact ⟨hf, rfl⟩
  second hf hg := by
    refine ⟨?_, fun hrun => (State.goodFrameNoted_logs _ _ (h.keeps.running rfl hrun) hf hg).after h.keeps rfl⟩
    rw [State.goodFrameNoted_of_second _ _ hf hg]
    simp

end

section
variable (s : State) {n : Nat} (payload : List Byte) (hsent : (s.head n).sending = true) (hn : n < 16)
include hsent hn

theorem State.frameEnded_told : s.FrameTold (s.frameEnded n payload) n := by
  rw [s.frameEnded_of_sent payload hsent]
  exact (s.frameDone_frameSigned payload hn).told (State.frameJudged_signatureKept _ _ hn _)

theorem State.frameEnded_refused (bad : (s.head n).badFrame = true) :
    s.FrameRefused (s.frameEnded n payload) n ((s.head n).freezeTimes s.now) := by
  have signed := s.frameDone_frameSigned payload hn
  rw [s.frameEnded_of_sent payload hsent, State.frameJudged, if_pos bad, show (s.frameDone n payload).now = s.now from signed.keeps.now]
  split
  next many => exact signed.headFailed_refused hn many _
  next few => exact signed.freezeNoted_refused hn (Nat.lt_of_not_le few)

theorem State.frameEnded_accepted (good : ¬(s.head n).badFrame = true) : s.FrameAccepted (s.frameEnded n payload) n := by
  rw [s.frameEnded_of_sent payload hsent, State.frameJudged, if_neg good]
  exact (s.frameDone_frameSigned payload hn).goodFrameNoted_accepted

end

end Sys2Proof.Machine
end

section
/-!
PROOF. The tests of heads, readers and scalers (R233, R252): what a failed check makes of a unit and of the layer that uses it, and what a
RETEST draws.
-/

namespace Sys2Proof.Machine

/-! ## Units are read from their own parts -/

theorem State.unit_of_parts {s t : State} (hr : t.readers = s.readers) (hs : t.scalers = s.scalers) (sc : Bool) (n : Nat) :
    t.unit sc n = s.unit sc n := by
  simp only [State.unit, State.reader, State.scaler, hr, hs]

section
variable (s : State) (sc : Bool) (n : Nat) (f : CheckedUnit → CheckedUnit)

theorem State.unit_modUnit (m : Nat) : (s.modUnit sc n f).unit sc m = if m = n then f (s.unit sc n) else s.unit sc m := by
  cases sc <;> simp [State.modUnit, State.unit]

theorem State.modUnit_frame : s.modUnit sc n f = { s with readers := (s.modUnit sc n f).readers, scalers := (s.modUnit sc n f).scalers } := by
  cases sc <;> rfl

theorem State.userOf_modUnit : (s.modUnit sc n f).userOf = s.userOf := by
  cases sc <;> rfl

end

/-- A unit in use is one of a layer that is enabled. -/
theorem State.layerOf_of_userOf {s : State} {sc : Bool} {u n i : Nat} (h : s.userOf sc u = some (n, i)) : ∃ l, s.layerOf n i = some l := by
  obtain ⟨m, -, hm⟩ := List.exists_of_findSome?_eq_some h
  obtain ⟨j, -, hj⟩ := List.exists_of_findSome?_eq_some hm
  split at hj
  next l hl =>
    cases (Option.ite_none_right_eq_some.mp hj).2
    exact ⟨l, hl⟩
  next => cases hj

/-! ## A check fails (R233) -/

/-- Times of the faults of a unit within the last 60 s, with one now. -/
def CheckedUnit.faultTimes (u : CheckedUnit) (now : Nat) : List Nat := now :: u.faults.filter fun b => decide (now < b + sec 60)

/-- A unit that fails its check has one fault more, and fails with the third within 60 s. -/
def State.faultCounted (s : State) (sc : Bool) (u : Nat) : State :=
  s.modUnit sc u fun x => { x with
    faults := (s.unit sc u).faultTimes s.now, faulty := true, failed := x.failed || decide (3 ≤ ((s.unit sc u).faultTimes s.now).length) }

theorem State.layerOf_of_heads {s t : State} (h : t.heads = s.heads) (n i : Nat) : t.layerOf n i = s.layerOf n i := by
  rw [State.layerOf, State.head_of_heads h, State.layerOf]

/-- A layer is void for its unit. -/
def State.layerVoided (s : State) (n i : Nat) : State := s.modRes n i fun r => { r with cause := some voidUnit, snapshot := none }

theorem State.res_layerVoided (s : State) (n i : Nat) :
    ((s.layerVoided n i).head n).res i = { (s.head n).res i with cause := some voidUnit, snapshot := none } := by
  simp [State.layerVoided, State.modRes, Head.res, Head.setRes, Sparse.get_put]

section
variable {s : State} {sc : Bool} {n i : Nat} {l : Layer}

theorem State.unitFault_of_user {u : Nat} (user : s.userOf sc u = some (n, i)) (layer : s.layerOf n i = some l) : s.unitFault sc u =
    ((s.faultCounted sc u).event (if sc then R.sc_EVENTS u else R.rd_EVENTS u) (if sc then 1 else 16)).unitLog n i l sc u := by
  have used : (s.faultCounted sc u).userOf sc u = some (n, i) := (congrFun (congrFun (s.userOf_modUnit sc u _) sc) u).trans user
  have shown (e m : Nat) : ((s.faultCounted sc u).event e m).layerOf n i = some l :=
    (State.layerOf_of_heads (by rw [State.event_heads, State.faultCounted, State.modUnit_frame]) n i).trans layer
  unfold State.unitFault
  unfold State.faultCounted CheckedUnit.faultTimes at *
  dsimp only
  rw [used]
  dsimp only
  rw [shown]

theorem State.unitFault_keeps_counted {u : Nat} (user : s.userOf sc u = some (n, i)) (layer : s.layerOf n i = some l) :
    Keeps 0x4800000005 (s.faultCounted sc u) (s.unitFault sc u) := by
  rw [State.unitFault_of_user user layer]
  exact State.unitLog_keeps rfl (State.event_keeps rfl (.refl _ _))

theorem State.unitFault_logs {u : Nat} (user : s.userOf sc u = some (n, i)) (layer : s.layerOf n i = some l) (hrun : s.running = true) :
    s.Logs (s.unitFault sc u) F.UNIT_FAULT := by
  have counted : Keeps 0xc0000000 s (s.faultCounted sc u) := State.modUnit_keeps rfl (.refl _ s)
  have raised : Keeps 0x4800000005 (s.faultCounted sc u)
    ((s.faultCounted sc u).event (if sc then R.sc_EVENTS u else R.rd_EVENTS u) (if sc then 1 else 16)) := State.event_keeps rfl (.refl _ _)
  rw [State.unitFault_of_user user layer]
  exact ((State.logOut_logsOne (raised.running rfl (counted.running rfl hrun)) _ _ _ _ _).logs.after raised rfl).after counted rfl

/-- The row of a unit in use: the fault, the void of its layer, and what ends the layer's cause or tells of the new one. -/
theorem execUnitCheckFail_of_user {u : Fin 64} (user : s.userOf sc u.val = some (n, i)) (layer : s.layerOf n i = some l) :
    ∃ t, execUnitCheckFail sc u s = .next t ∧ Keeps 0x4800000005 ((s.unitFault sc u.val).layerVoided n i) t := by
  unfold execUnitCheckFail
  dsimp only
  rw [user]
  dsimp only
  rw [layer]
  dsimp only
  split
  next q _ =>
    split
    · exact ⟨_, rfl, .refl _ _⟩
    · exact ⟨_, rfl, State.endLayerCause_keeps rfl (.refl _ _)⟩
  next => exact ⟨_, rfl, State.event_keeps rfl (.refl _ _)⟩

theorem execUnitCheckFail_of_unused {u : Fin 64} (h : s.userOf sc u.val = none) : execUnitCheckFail sc u s = .next s := by
  unfold execUnitCheckFail
  dsimp only
  rw [h]

end

/-- What UNIT_CHECK_FAIL leaves of a unit in use, of its layer and of the ledger. -/
structure State.UnitFailed (s t : State) (sc : Bool) (u n i : Nat) : Prop where
  unit   : t.unit sc u = { s.unit sc u with
    faults := (s.unit sc u).faultTimes s.now, faulty := true,
    failed := (s.unit sc u).failed || decide (3 ≤ ((s.unit sc u).faultTimes s.now).length) }
  others : ∀ m, m ≠ u → t.unit sc m = s.unit sc m
  layer  : ((t.head n).res i).cause = some voidUnit ∧ ((t.head n).res i).snapshot = none
  logs   : s.running = true → s.Logs t F.UNIT_FAULT

theorem execUnitCheckFail_unitFailed {s : State} {sc : Bool} {u : Fin 64} {n i : Nat} (user : s.userOf sc u.val = some (n, i)) :
    ∃ t, execUnitCheckFail sc u s = .next t ∧ s.UnitFailed t sc u.val n i := by
  obtain ⟨l, layer⟩ := State.layerOf_of_userOf user
  obtain ⟨t, run, ended⟩ := execUnitCheckFail_of_user user layer
  have voided : Keeps 0x20000000 (s.unitFault sc u.val) ((s.unitFault sc u.val).layerVoided n i) := State.modRes_keeps rfl (.refl _ _)
  have counted := State.unitFault_keeps_counted user layer
  have units (m : Nat) : t.unit sc m = (s.faultCounted sc u.val).unit sc m := by
    rw [State.unit_of_parts (ended.same .readers rfl) (ended.same .scalers rfl),
      State.unit_of_parts (voided.same .readers rfl) (voided.same .scalers rfl),
      State.unit_of_parts (counted.same .readers rfl) (counted.same .scalers rfl)]
  refine ⟨t, run, ?unit, fun m hm => ?others, ?layer, fun hrun => ?logs⟩
  case unit => rw [units, State.faultCounted, State.unit_modUnit, if_pos rfl]
  case others => rw [units, State.faultCounted, State.unit_modUnit, if_neg hm]
  case layer =>
    rw [State.head_of_heads (ended.same .heads rfl), State.res_layerVoided]
    exact ⟨rfl, rfl⟩
  case logs => exact ((State.unitFault_logs user layer hrun).keep voided rfl).keep ended rfl

/-! ## RETEST (R233, R252) -/

theorem State.retestUnit_of_sound {s : State} {sc : Bool} {u : Nat} (h : (s.unit sc u).failed = false) : s.retestUnit sc u = s :=
  if_neg (by simp [h])

section
variable {s : State} {sc : Bool} {u : Nat} (failed : (s.unit sc u).failed = true)
include failed

theorem State.retestUnit_of_used (used : (s.userOf sc u).isSome = true) :
    s.retestUnit sc u = s.modUnit sc u fun x => { x with retest := true } := by
  refine (if_pos failed).trans (if_pos ?_)
  rw [State.userOf_modUnit]
  exact used

/-- A unit that no layer uses is tested at once: a free value decides whether it is as new. -/
theorem State.retestUnit_of_unused (unused : s.userOf sc u = none) : s.retestUnit sc u =
    ({ s.modUnit sc u fun x => { x with retest := true } with fresh := s.fresh + 1 } : State).modUnit sc u fun x =>
      if Config.freeBit s.fresh then { x with failed := false, faulty := false, faults := [], retest := false } else { x with retest := false } := by
  refine (if_pos failed).trans ((if_neg ?_).trans ?_)
  · rw [State.userOf_modUnit, unused]
    decide
  unfold State.selfCheck
  rw [State.unit_modUnit, if_pos rfl]
  refine (if_pos failed).trans ((if_pos rfl).trans ?_)
  cases sc <;> rfl

end

/-- What a RETEST leaves of an unused unit that has failed. -/
theorem State.retestUnit_tested {s : State} {sc : Bool} {u : Nat} (failed : (s.unit sc u).failed = true) (unused : s.userOf sc u = none) :
    let t := s.retestUnit sc u
    t.fresh = s.fresh + 1 ∧
      (t.unit sc u = { s.unit sc u with failed := false, faulty := false, faults := [], retest := false } ∨
        t.unit sc u = { s.unit sc u with retest := false }) ∧
      (∀ m, m ≠ u → t.unit sc m = s.unit sc m) ∧ t = { s with fresh := t.fresh, readers := t.readers, scalers := t.scalers } := by
  intro t
  have run : t = _ := State.retestUnit_of_unused failed unused
  have units (m : Nat) : ({ s.modUnit sc u fun x => { x with retest := true } with fresh := s.fresh + 1 } : State).unit sc m =
      if m = u then { s.unit sc u with retest := true } else s.unit sc m :=
    (State.unit_of_parts rfl rfl sc m).trans (s.unit_modUnit sc u _ m)
  refine ⟨?fresh, ?unit, fun m hm => ?others, ?rest⟩
  case fresh => rw [run]; cases sc <;> rfl
  case unit =>
    rw [run, State.unit_modUnit, if_pos rfl, units, if_pos rfl]
    split
    · exact .inl rfl
    · exact .inr rfl
  case others => rw [run, State.unit_modUnit, if_neg hm, units, if_neg hm]
  case rest => rw [run]; cases sc <;> rfl

section
variable {h : Fin 16} {s : State} (g : Agent)

theorem execHeadRetest_of_passed (failed : (s.head h.val).state = .failed) (passed : Config.freeBit s.fresh = true) :
    execHeadRetest g h s = .next ((({ s with fresh := s.fresh + 1 } : State).modHead h.val fun x =>
      { x with state := .harmless, freezeAt := [], lastSig := none }).clearCause (.head h.val) F.HEAD_FAILED.code) :=
  (if_pos failed).trans (if_pos passed)

theorem execHeadRetest_of_not_passed (failed : (s.head h.val).state = .failed) (passed : Config.freeBit s.fresh = false) :
    execHeadRetest g h s = .next { s with fresh := s.fresh + 1 } :=
  (if_pos failed).trans (if_neg (Bool.eq_false_iff.mp passed))

theorem execHeadRetest_of_not_failed (sound : (s.head h.val).state ≠ .failed) : execHeadRetest g h s = .next s :=
  if_neg sound

end

/-! ## The statement -/

/-- Settles O39: a frame's end counts and signs it, and the signature decides what becomes of the head or a waiting mode change is
entered; a failed check and a RETEST act on their unit or head alone. -/
theorem framesAreSignedAndUnitsTested : Obligations.FramesAreSignedAndUnitsTested := by
  unfold Obligations.FramesAreSignedAndUnitsTested
  refine ⟨?frames, ?heads, ?checks, ?retests⟩
  case frames =>
    intro h s inFrame lines time x v bad at_ counts
    have ends : s.FrameEnds h.val := ⟨inFrame, lines, time⟩
    refine ⟨fun mode idle => ?unsent, fun mode sent => ?sent, fun p g mode => ?mode⟩
    case unsent =>
      obtain ⟨payload, run⟩ := execHeadFrameDone_of_no_mode ends mode
      rw [s.frameEnded_of_unsent payload idle] at run
      exact ⟨_, run, by simp [x], fun m hm => by simp [hm], rfl⟩
    case sent =>
      obtain ⟨payload, run⟩ := execHeadFrameDone_of_no_mode ends mode
      have told := s.frameEnded_told payload sent h.isLt
      have refused (hbad : bad) := s.frameEnded_refused payload sent h.isLt (x.badFrame_iff.mpr hbad)
      have accepted (good : ¬bad) := s.frameEnded_accepted payload sent h.isLt (x.badFrame_iff.not.mpr good)
      refine ⟨_, run, told.inFrame, told.signature, told.lastSig, told.lastValid, told.frames, told.voids, fun stays => ?eovs,
        fun hbad => ?bad, fun good => ?good, told.others⟩
      case eovs =>
        by_cases hbad : bad
        · exact (refused hbad).eovs (Nat.lt_of_not_le fun many => stays ⟨hbad, many⟩)
        · exact (accepted hbad).eovs
      case bad =>
        have r := refused hbad
        exact ⟨r.frozen, r.freezeAt, r.logs, r.freezes, r.stays, r.fails⟩
      case good =>
        have a := accepted good
        exact ⟨a.freezes, a.state, a.first, a.second⟩
    case mode =>
      obtain ⟨payload, run⟩ := execHeadFrameDone_of_mode ends mode
      have entered := (s.frameEnded h.val payload).enterMode_modeEntered h.val p g
      exact ⟨_, run, entered.mode, entered.inFrame, entered.gang, entered.enabled, entered.disabled,
        fun m hm => (entered.others m hm).trans (s.head_frameEnded_ne payload h.isLt hm)⟩
  case heads =>
    refine fun g h s => ⟨fun failed => ?_, execHeadRetest_of_not_failed g⟩
    cases passed : Config.freeBit s.fresh
    case true =>
      refine ⟨_, execHeadRetest_of_passed g failed passed, rfl, .inl ?_, fun m hm => ?_⟩
      · rw [State.head_clearCause, State.modHead_eq, State.head_setHead, if_pos rfl]
        rfl
      · rw [State.head_clearCause, State.modHead_eq, State.head_setHead, if_neg hm]
        rfl
    case false => exact ⟨_, execHeadRetest_of_not_passed g failed passed, rfl, .inr rfl, fun _ _ => rfl⟩
  case checks =>
    refine fun sc u s => ⟨execUnitCheckFail_of_unused, fun n i user => ?_⟩
    intro at_
    obtain ⟨t, run, failed⟩ := execUnitCheckFail_unitFailed user
    refine ⟨t, run, ?_, ?_, ?_, failed.layer.1, failed.layer.2, failed.logs, failed.others⟩
    · rw [failed.unit]
    · rw [failed.unit]
      rfl
    · rw [failed.unit]
      simp [at_, CheckedUnit.faultTimes]
  case retests =>
    intro retests g r c s
    have tested (sc : Bool) (u : Nat) : retests s sc u (.next (s.retestUnit sc u)) := by
      refine ⟨fun sound => congrArg _ (State.retestUnit_of_sound sound), fun failed => ⟨fun used => ?used, fun unused => ?unused⟩⟩
      case used =>
        rw [State.retestUnit_of_used failed used]
        refine ⟨_, rfl, ?_, fun m hm => ?_, State.modUnit_frame _ _ _ _⟩
        · rw [State.unit_modUnit, if_pos rfl]
        · rw [State.unit_modUnit, if_neg hm]
      case unused => exact ⟨_, rfl, State.retestUnit_tested failed unused⟩
    exact ⟨tested false r.val, tested true c.val⟩

end Sys2Proof.Machine
end

section
/-!
PROOF. The frame of a head (R220 to R243, R249): what can hold a head, and what the work on a line, the sending of its packets and a latch
leave of it.
-/

namespace Sys2Proof.Machine

/-! ## What holds a head (R239, R249) -/

/-- What can hold a head from outside it is as it was. -/
structure State.HoldsKept (s t : State) : Prop where
  causes  : t.ledger.causes = s.ledger.causes
  safe    : t.ledger.safe = s.ledger.safe
  hull    : t.hull = s.hull
  startup : t.startup = s.startup

theorem State.HoldsKept.refl (s : State) : s.HoldsKept s := ⟨rfl, rfl, rfl, rfl⟩

theorem State.HoldsKept.trans {s t u : State} (h : s.HoldsKept t) (k : t.HoldsKept u) : s.HoldsKept u :=
  ⟨k.causes.trans h.causes, k.safe.trans h.safe, k.hull.trans h.hull, k.startup.trans h.startup⟩

/-- An operation that leaves the ledger and the parts beside it alone. -/
theorem Keeps.holdsKept {A : Nat} {s t : State} (k : Keeps A s t) (hl : A.testBit (Part.bit .ledger) = false)
    (hh : A.testBit (Part.bit .hull) = false) (hs : A.testBit (Part.bit .startup) = false) : s.HoldsKept t where
  causes := congrArg Ledger.causes (k.same .ledger hl)
  safe := congrArg Ledger.safe (k.same .ledger hl)
  hull := k.same .hull hh
  startup := k.same .startup hs

section
variable {z s : State}

theorem State.logEntry_holdsKept {e : Entry} (h : z.HoldsKept s) : z.HoldsKept (s.logEntry e) := by
  unfold State.logEntry
  split
  · exact h.trans ⟨rfl, rfl, rfl, rfl⟩
  · exact h

theorem State.logRated_holdsKept {f : FaultClass} {inst ctrl dp : Nat} {data : Nat → List Byte} {only : Bool} {stamp : Stamp}
    (h : z.HoldsKept s) : z.HoldsKept (s.logRated f inst ctrl dp data only stamp) := by
  unfold State.logRated
  extract_lets old n ready rest
  split
  · exact State.logEntry_holdsKept (h.trans ⟨rfl, rfl, rfl, rfl⟩)
  · exact h.trans ⟨rfl, rfl, rfl, rfl⟩

theorem State.arbitrate_holdsKept (h : z.HoldsKept s) : z.HoldsKept s.arbitrate :=
  h.trans ((State.arbitrate_keeps rfl (.refl 0x800000000 s)).holdsKept rfl rfl rfl)

theorem State.irqCount_holdsKept {n : Nat} (h : z.HoldsKept s) : z.HoldsKept (s.irqCount n) := by
  unfold State.irqCount
  split
  · exact h
  · dsimp only
    split
    · exact State.arbitrate_holdsKept (h.trans ⟨rfl, rfl, rfl, rfl⟩)
    · split
      · exact h.trans ⟨rfl, rfl, rfl, rfl⟩
      · exact State.arbitrate_holdsKept (State.logEntry_holdsKept (h.trans ⟨rfl, rfl, rfl, rfl⟩))

theorem State.event_holdsKept {e m : Nat} (h : z.HoldsKept s) : z.HoldsKept (s.event e m) := by
  unfold State.event
  dsimp only
  split
  · split
    · exact State.irqCount_holdsKept (h.trans ⟨rfl, rfl, rfl, rfl⟩)
    · exact h.trans ⟨rfl, rfl, rfl, rfl⟩
  · exact h.trans ⟨rfl, rfl, rfl, rfl⟩

end

theorem State.HoldsKept.standing {s t : State} (h : s.HoldsKept t) (o : Output) : t.standing o = s.standing o := by
  rw [State.standing, h.causes, State.standing]

theorem State.HoldsKept.allHeld {s t : State} (h : s.HoldsKept t) : t.allHeld = s.allHeld := by
  rw [State.allHeld, h.safe, h.hull, h.startup, State.allHeld]

/-- What of a head decides whether a head is held. -/
def Head.holding (h : Head) : Bool × Bool × HeadState := (h.gang, h.frozen, h.state)

theorem State.HoldsKept.headHeld {s t : State} (h : s.HoldsKept t) (heads : ∀ m, (t.head m).holding = (s.head m).holding) (n : Nat) :
    t.headHeld n = s.headHeld n := by
  simp only [Head.holding, Prod.mk.injEq, forall_and] at heads
  obtain ⟨gang, frozen, state⟩ := heads
  simp only [State.headHeld, State.gangOf, State.headCauses, h.allHeld, h.standing, gang, frozen, state]

/-! ## Heads that agree in what a function shows of them -/

/-- Of head `n` what `e` shows is as it was, and so is every other head. -/
structure State.HeadAlike {β : Type} (e : Head → β) (s t : State) (n : Nat) : Prop where
  head   : e (t.head n) = e (s.head n)
  others : ∀ m, m ≠ n → t.head m = s.head m

section
variable {β : Type} {e : Head → β} {z s t : State} {n : Nat}

theorem State.HeadAlike.refl (e : Head → β) (s : State) (n : Nat) : s.HeadAlike e s n := ⟨rfl, fun _ _ => rfl⟩

theorem State.HeadAlike.trans (h : z.HeadAlike e s n) (k : s.HeadAlike e t n) : z.HeadAlike e t n where
  head := k.head.trans h.head
  others m hm := (k.others m hm).trans (h.others m hm)

theorem State.HeadAlike.foldl {γ : Type} {f : State → γ → State} {l : List γ} (hf : ∀ y b, z.HeadAlike e y n → z.HeadAlike e (f y b) n)
    (h : z.HeadAlike e s n) : z.HeadAlike e (l.foldl f s) n :=
  List.foldlRecOn (motive := fun y => z.HeadAlike e y n) l f h fun y hy b _ => hf y b hy

/-- An operation that leaves the heads alone. -/
theorem State.HeadAlike.keep {A : Nat} (h : z.HeadAlike e s n) (k : Keeps A s t) (hA : A.testBit (Part.bit .heads) = false) :
    z.HeadAlike e t n :=
  h.trans ⟨congrArg e (State.head_of_heads (k.same .heads hA) n), fun m _ => State.head_of_heads (k.same .heads hA) m⟩

theorem State.HeadAlike.modHead (h : z.HeadAlike e s n) {f : Head → Head} (hf : ∀ x, e (f x) = e x) : z.HeadAlike e (s.modHead n f) n := by
  refine h.trans ⟨?_, fun m hm => (State.head_setHead _ _ _ _).trans (if_neg hm)⟩
  rw [State.modHead_eq, State.head_setHead, if_pos rfl]
  exact hf _

end

/-! ## A latch (R222, R233, R246, R251) -/

/-- A head without what the work on its lines and the resolution of its layers at a latch change. -/
def Head.settled (h : Head) : Head := { h with
  latched := [], staged := [], layers := [], memAreas := [], badReads := [], moved := [], heldReason := none, picture := [], sig := 0,
  sawVoid := false, sawEov := false, seq := 0, gapA := none, gapB := none, lastEovAt := 0 }

section
variable {z s : State} {n : Nat} (h : z.HeadAlike Head.settled s n)
include h

theorem State.modRes_settled (i : Nat) (f : LayerRes → LayerRes) : z.HeadAlike Head.settled (s.modRes n i f) n := h.modHead fun _ => rfl

theorem State.endLayerCause_settled (q : Nat) : z.HeadAlike Head.settled (s.endLayerCause n q) n :=
  h.keep (State.endLayerCause_keeps rfl (.refl 0x4000000000 s)) rfl

theorem State.event_settled (e m : Nat) : z.HeadAlike Head.settled (s.event e m) n := h.keep (State.event_keeps rfl (.refl 0x4800000005 s)) rfl

theorem State.logOut_settled (f : FaultClass) (ctrl dp : Nat) (outs : List (Output × Nat)) (data : List Byte) :
    z.HeadAlike Head.settled (s.logOut f ctrl dp outs data) n :=
  h.keep (State.logOut_keeps rfl (.refl 0x4000000000 s)) rfl

theorem State.beginLayerCause_settled (i : Nat) (l : Layer) (reason age : Nat) :
    z.HeadAlike Head.settled (s.beginLayerCause n i l reason age) n := by
  unfold State.beginLayerCause
  extract_lets old void ended base log
  have hv : z.HeadAlike Head.settled void n := State.modRes_settled h i _
  have he : z.HeadAlike Head.settled ended n := by
    unfold ended
    split
    · exact State.endLayerCause_settled hv _
    · exact State.event_settled hv _ _
  have logged (f : FaultClass) (data : List Byte) : z.HeadAlike Head.settled (log f data) n := State.logOut_settled he _ _ _ _ _
  clear_value ended log
  split
  · exact h
  · split
    · split
      · exact State.logOut_settled he _ _ _ _ _
      · exact he
    all_goals exact logged _ _

theorem State.showLayer_settled (i : Nat) (l : Layer) (snap age : Nat) : z.HeadAlike Head.settled (s.showLayer n i l snap age) n := by
  unfold State.showLayer
  extract_lets old shown
  have hs : z.HeadAlike Head.settled shown n := State.modRes_settled h i _
  clear_value shown
  split
  · exact State.endLayerCause_settled (State.logOut_settled (State.event_settled (State.modRes_settled hs i _) _ _) _ _ _ _ _) _
  · exact hs

theorem State.resolveLayer_settled (i ns rennet : Nat) : z.HeadAlike Head.settled (s.resolveLayer n i ns rennet) n := by
  unfold State.resolveLayer
  split
  · dsimp only
    split
    · exact State.endLayerCause_settled (State.modRes_settled h i _) _
    · exact State.modRes_settled h i _
  · extract_lets enabled x since
    have he : z.HeadAlike Head.settled enabled n := by
      unfold enabled
      split
      · exact h
      · exact State.modRes_settled h i _
    have begins (l : Layer) (reason : Nat) : z.HeadAlike Head.settled (enabled.beginLayerCause n i l reason 0) n :=
      State.beginLayerCause_settled he i l reason 0
    clear_value enabled
    iterate 3
      split
      · exact begins _ _
    split
    · exact begins _ _
    · split
      · exact begins _ _
      · dsimp only
        have aged := State.modRes_settled he i
        split
        · exact State.beginLayerCause_settled (aged _) _ _ _ _
        · exact State.showLayer_settled (aged _) _ _ _ _

end

/-- The tag block of frame `next` has been formed at a latch, with the stamp and CONFIG_ID of that moment. -/
def Head.tagged (h : Head) (next : Nat) (s : State) : Head :=
  { h with newFrame := next % 2 ^ 32, newStamp := s.stamp, newConfig := s.im.configId.toNat % 2 ^ 32 }

theorem State.stamp_of_parts {s t : State} (hclock : t.clock = s.clock) (hconfig : t.config = s.config) : t.stamp = s.stamp := by
  simp only [State.stamp, State.ticks, State.ptpNs, State.provisional, State.now, State.mode, State.payload, hclock, hconfig]

/-- A latch forms the tag block after the layers have been resolved. -/
theorem State.latchHead_resolved (s : State) (n : Nat) (all : Bool) (ns next : Nat) : ∃ u, s.HeadAlike Head.settled u n ∧
    s.latchHead n all ns next = (u.modHead n fun h => h.tagged next u).event (R.head_EVENTS n) 1 := by
  unfold State.latchHead
  extract_lets h takes taken unstaged applied rennet checked moved resolved id
  have hu : s.HeadAlike Head.settled unstaged n := .modHead (.refl _ s n) fun _ => rfl
  have ha : s.HeadAlike Head.settled applied n := by
    refine hu.foldl fun y e hy => ?_
    dsimp only
    refine State.HeadAlike.foldl (fun y u hy => ?_) (hy.modHead fun _ => rfl)
    split
    · exact hy.keep (State.modScaler_keeps rfl (.refl 0x80000000 y)) rfl
    · exact hy
  have hc : s.HeadAlike Head.settled checked n := ha.foldl fun y u hy => hy.keep (State.selfCheck_keeps rfl (.refl 0x48c0000045 y)) rfl
  exact ⟨resolved, .foldl (fun y i hy => State.resolveLayer_settled hy i ns rennet) (hc.modHead fun _ => rfl), rfl⟩

theorem State.latchHead_tagged (s : State) (n : Nat) (all : Bool) (ns next : Nat) :
    ((s.latchHead n all ns next).head n).settled = ((s.head n).tagged next s).settled := by
  have kept : Keeps 0x48e0000045 s (s.latchHead n all ns next) := State.latchHead_keeps rfl (.refl _ s)
  obtain ⟨u, resolved, latched⟩ := s.latchHead_resolved n all ns next
  rw [latched] at kept ⊢
  have stamp : u.stamp = s.stamp :=
    State.stamp_of_parts ((State.event_clock (u.modHead n _) _ _).symm.trans (kept.same .clock rfl))
      ((State.event_config (u.modHead n _) _ _).symm.trans (kept.same .config rfl))
  have im : u.im = s.im := (State.event_im (u.modHead n _) _ _).symm.trans (kept.same .im rfl)
  rw [State.head_event, State.modHead_eq, State.head_setHead, if_pos rfl, Head.tagged, stamp, im]
  exact congrArg (·.tagged next s) resolved.head

end Sys2Proof.Machine
end

section
/-!
PROOF. An active line of a head (R219 to R221, R240, R245, R249): its readers, its composition and its packets leave what else the head
holds, and only a head-wide cause changes its state.
-/

namespace Sys2Proof.Machine

/-! ## What the work on a line keeps -/

/-- What the work on a line of head `n` keeps: what the head is besides its lines, the other heads, what holds them, and the wire of a
frame that is not sent. -/
structure State.LineKept (s t : State) (n : Nat) : Prop where
  alike : s.HeadAlike Head.settled t n
  holds : s.HoldsKept t
  wire  : (s.head n).sending = false → t.wire = s.wire

section
variable {z s t : State} {n : Nat}

theorem State.LineKept.refl (s : State) (n : Nat) : s.LineKept s n := ⟨.refl _ s n, .refl s, fun _ => rfl⟩

theorem State.LineKept.field {γ : Type} (h : s.LineKept t n) (f : Head → γ) (hf : ∀ x : Head, f x = f x.settled) :
    f (t.head n) = f (s.head n) := by
  rw [hf, h.alike.head, ← hf]

theorem State.LineKept.trans (h : z.LineKept s n) (k : s.LineKept t n) : z.LineKept t n where
  alike := h.alike.trans k.alike
  holds := h.holds.trans k.holds
  wire idle := (k.wire ((h.field Head.sending fun _ => rfl).trans idle)).trans (h.wire idle)

theorem State.LineKept.foldl {γ : Type} {f : State → γ → State} {l : List γ} (hf : ∀ y b, z.LineKept y n → z.LineKept (f y b) n)
    (h : z.LineKept s n) : z.LineKept (l.foldl f s) n :=
  List.foldlRecOn (motive := fun y => z.LineKept y n) l f h fun y hy b _ => hf y b hy

theorem State.LineKept.keep {A : Nat} (h : z.LineKept s n) (k : Keeps A s t) (holds : s.HoldsKept t)
    (hh : A.testBit (Part.bit .heads) = false) (hw : A.testBit (Part.bit .wire) = false) : z.LineKept t n :=
  h.trans ⟨State.HeadAlike.keep (.refl _ s n) k hh, holds, fun _ => k.same .wire hw⟩

theorem State.LineKept.modHead {f : Head → Head} (h : z.LineKept s n) (hf : ∀ x, (f x).settled = x.settled) : z.LineKept (s.modHead n f) n :=
  h.trans ⟨.modHead (.refl _ s n) hf, ⟨rfl, rfl, rfl, rfl⟩, fun _ => rfl⟩

theorem State.LineKept.countBy {a k : Nat} (h : z.LineKept s n) : z.LineKept (s.countBy a k) n :=
  h.trans ⟨⟨rfl, fun _ _ => rfl⟩, ⟨rfl, rfl, rfl, rfl⟩, fun _ => rfl⟩

theorem State.LineKept.count {a : Nat} (h : z.LineKept s n) : z.LineKept (s.count a) n := h.countBy

theorem State.LineKept.event {e m : Nat} (h : z.LineKept s n) : z.LineKept (s.event e m) n :=
  h.keep (State.event_keeps rfl (.refl 0x4800000005 s)) (State.event_holdsKept (.refl s)) rfl rfl

theorem State.LineKept.logRated {f : FaultClass} {inst ctrl dp : Nat} {data : Nat → List Byte} {only : Bool} {stamp : Stamp}
    (h : z.LineKept s n) : z.LineKept (s.logRated f inst ctrl dp data only stamp) n :=
  h.keep (State.logRated_keeps rfl (.refl 0x4000000000 s)) (State.logRated_holdsKept (.refl s)) rfl rfl

theorem State.LineKept.freeBelow {k : Nat} (h : z.LineKept s n) : z.LineKept (s.freeBelow k).2 n :=
  h.keep (State.freeBelow_keeps rfl (.refl 0x40 s)) ⟨rfl, rfl, rfl, rfl⟩ rfl rfl

theorem State.LineKept.of_snd {γ : Type} {b : γ} {p : γ × State} (h : z.LineKept p.2 n) (e : p = (b, s)) : z.LineKept s n := by
  rw [e] at h
  exact h

/-- Packets of a frame that is sent. -/
theorem State.LineKept.headSend {packet : Nat → List Byte} (h : z.LineKept s n) (sending : (z.head n).sending = true) :
    z.LineKept (s.headSend n packet) n where
  alike := h.alike.trans ⟨(s.headSend_headSends n packet).field Head.settled fun _ => rfl, (s.headSend_headSends n packet).others⟩
  holds := h.holds.trans ((State.headSend_keeps rfl (.refl 0x20000021 s)).holdsKept rfl rfl rfl)
  wire idle := Bool.noConfusion (sending.symm.trans idle)

end

/-! ## The readers (R219, R221, R223) -/

section
variable {z s : State} {n : Nat} (h : z.LineKept s n)
include h

theorem State.curdRead_lineKept (i r : Nat) (l : Layer) (a : ReadView) (y st k : Nat) (v : ShownCurd) :
    z.LineKept (s.curdRead n i r l a y st k v) n := by
  unfold State.curdRead
  extract_lets read
  have hr : z.LineKept read n := h.count
  clear_value read
  split
  · exact hr
  · next q =>
    have hv : z.LineKept (read.count (R.rd_RD_VOID_AREAS r)) n := hr.count
    split
    · exact hv.count.event.logRated
    · exact hv.count.event.logRated
    · split
      · exact hv.count.logRated
      · exact hv
    · exact hv

theorem State.decodeLines_lineKept (i : Nat) (l : Layer) (a : ReadView) (cols : List (Nat × Nat)) (first : Bool) (keep lo hi : Nat) :
    z.LineKept (s.decodeLines n i l a cols first keep lo hi) n := by
  unfold State.decodeLines
  refine State.LineKept.modHead (.foldl (fun y e hy => ?_) h) fun _ => rfl
  refine State.LineKept.foldl (fun y d hy => ?_) hy
  have kept (f : LayerRes → LayerRes) : z.LineKept (y.modRes n i f) n := hy.modHead fun _ => rfl
  exact State.curdRead_lineKept (kept _) _ _ _ _ _ _ _ _

theorem State.readFor_lineKept (cy : Nat) (v : Nat × Layer × Nat × Nat) : z.LineKept (s.readFor n cy v) n := by
  obtain ⟨i, l, x0, x1⟩ := v
  unfold State.readFor
  dsimp only
  split
  · split
    · exact State.decodeLines_lineKept h _ _ _ _ _ _ _ _
    · split
      · exact State.decodeLines_lineKept h _ _ _ _ _ _ _ _
      · exact h
  · exact h

end

/-! ## The packets of the line (R240, R245) -/

theorem State.sendLine_lineKept (s : State) (n y : Nat) (px : List (Rgb × Option Nat)) (held under : Option Nat) :
    s.LineKept (s.sendLine n y px held under) n := by
  unfold State.sendLine
  extract_lets h
  split
  next =>
  extract_lets per
  refine State.LineKept.foldl (fun y e hy => ?_) (.refl s n)
  extract_lets off
  split
  next tail drawn hdrawn =>
  have hd : s.LineKept drawn n := by
    refine .of_snd ?_ hdrawn
    split
    · split
      · exact hy.freeBelow
      · exact hy
    · exact hy
  clear hdrawn
  split
  next =>
  extract_lets claim sent
  have hs : s.LineKept sent n := by
    unfold sent
    split
    · exact hd
    next sending => exact hd.headSend (by simpa [h] using sending)
  exact hs.modHead fun _ => rfl

/-! ## The line -/

/-- A head that a head-wide cause may hold: it is harmless where it ran. -/
def Head.heldIf (h : Head) (held : Bool) : Head := { h with state := if held = true ∧ h.state = .running then .harmless else h.state }

theorem State.holdLine_settled (s : State) (n : Nat) : ((s.holdLine n).head n).settled = ((s.head n).heldIf (s.headHeld n)).settled := by
  unfold State.holdLine State.heldBy Head.heldIf
  cases s.headHeld n
  case true =>
    simp [Head.settled]
  case false => simp

/-- What the head's buffer shows after a line that left `low` pixels in it. -/
def Head.bufferShown (h : Head) (low width : Nat) : Head :=
  { h with bufLow := min h.bufLow low, panic := decide (low < width), urgent := decide (low < 2 * width) }

theorem State.LineKept.headHeld {s t : State} {n : Nat} (h : s.LineKept t n) : t.headHeld n = s.headHeld n := by
  refine h.holds.headHeld (fun m => ?_) n
  by_cases hm : m = n
  · rw [hm]
    exact h.field Head.holding fun _ => rfl
  · rw [h.alike.others m hm]

/-- Of what head `n` is besides its lines, an active line that leaves its buffer at `low` changes the state, when the head is held, and
what its buffer shows. -/
structure State.LineShown (s t : State) (n low : Nat) : Prop where
  head   : (t.head n).settled = (((s.head n).heldIf (s.headHeld n)).bufferShown low (s.timing n).width).settled
  others : ∀ m, m ≠ n → t.head m = s.head m
  wire   : (s.head n).sending = false → t.wire = s.wire

/-- A line that is read, held where its head is, and shown. -/
theorem State.LineKept.lineShown {s read shown : State} {n : Nat} (hread : s.LineKept read n) (hshown : (read.holdLine n).LineKept shown n)
    (low : Nat) : s.LineShown (shown.modHead n fun h => h.bufferShown low (s.timing n).width) n low where
  head := by
    have held : (read.headHeld n, (read.head n).settled) = (s.headHeld n, (s.head n).settled) := by rw [hread.headHeld, hread.alike.head]
    have chain : (shown.head n).settled = ((s.head n).heldIf (s.headHeld n)).settled :=
      hshown.alike.head.trans ((read.holdLine_settled n).trans (congrArg (fun p : Bool × Head => p.2.heldIf p.1) held))
    rw [State.modHead_eq, State.head_setHead, if_pos rfl]
    exact congrArg (Head.bufferShown · low (s.timing n).width) chain
  others m hm := by
    rw [State.modHead_eq, State.head_setHead, if_neg hm, hshown.alike.others m hm, ← hread.alike.others m hm]
    unfold State.holdLine
    split <;> simp [hm]
  wire idle := by
    have sending : ((read.holdLine n).head n).sending = false :=
      (congrArg Head.sending (read.holdLine_settled n)).trans ((hread.field Head.sending fun _ => rfl).trans idle)
    refine (hshown.wire sending).trans (.trans ?_ (hread.wire idle))
    unfold State.holdLine
    split <;> rfl

theorem State.LineShown.keep {A : Nat} {s t u : State} {n low : Nat} (h : s.LineShown t n low) (k : Keeps A t u)
    (hh : A.testBit (Part.bit .heads) = false) (hw : A.testBit (Part.bit .wire) = false) : s.LineShown u n low where
  head := (congrArg Head.settled (State.head_of_heads (k.same .heads hh) n)).trans h.head
  others m hm := (State.head_of_heads (k.same .heads hh) m).trans (h.others m hm)
  wire idle := (k.same .wire hw).trans (h.wire idle)

theorem State.activeLine_lineShown (s : State) (n y : Nat) (fill : LineFill) : s.LineShown (s.activeLine n y fill) n fill.low := by
  unfold State.activeLine
  split
  extract_lets t cy noted counted vs read held reason ls late px under sent tail bg keep pictured underrun o told panic panicked urgent
  have hread : s.LineKept read n :=
    .foldl (fun y v hy => State.readFor_lineKept hy cy v) (.foldl (fun y e hy => hy.countBy) (.modHead (.refl s n) fun _ => rfl))
  have hlate : held.LineKept late n := by
    refine .foldl (fun y l hy => ?_) (.refl held n)
    extract_lets voids scaled
    have hs : held.LineKept scaled n := by
      unfold scaled
      split
      · exact hy.countBy.countBy.countBy
      · exact hy
    clear_value scaled
    split
    · exact hs.countBy.event.logRated
    · exact hs
  have hsent : held.LineKept sent n := hlate.trans (late.sendLine_lineKept n y px reason under)
  have hpictured : held.LineKept pictured n := by
    unfold pictured
    split
    · exact hsent.modHead fun _ => rfl
    · exact hsent
  clear_value under
  have htold : held.LineKept told n := by
    unfold told
    split
    · exact hpictured.count.event.logRated
    · exact hpictured
  have hpanicked : held.LineKept panicked n := by
    unfold panicked
    split
    · exact htold.count
    · exact htold
  exact (hread.lineShown hpanicked fill.low).keep (State.raiseReads_keeps rfl (.refl 0x200000000 _)) rfl rfl

end Sys2Proof.Machine
end

section
/-!
PROOF. The rows of a head's frame (R237, R239, R243, R246 to R249): HEAD_LINE_START, HEAD_FRAME_START and HEAD_EOV_REPEAT.
-/

namespace Sys2Proof.Machine

/-! ## HEAD_LINE_START (R237, R240, R246) -/

/-- The next line of head `n` begins: the comparators see it, and the last active line takes the guard stamp. -/
def State.lineBegun (s : State) (n : Nat) : State :=
  let seen := (s.modHead n fun h => { h with line := (s.head n).next, next := (s.head n).next + 1 }).lineMatch n (s.head n).next
  if (s.head n).next + 1 = (s.timing n).height then seen.modHead n fun h => { h with guardStamp := seen.stamp } else seen

/-- A head whose next line has begun. -/
def Head.onLine (h : Head) (guard : Stamp) : Head := { h with line := h.next, next := h.next + 1, guardStamp := guard }

theorem State.modHead_holdsKept {z s : State} {n : Nat} {f : Head → Head} (h : z.HoldsKept s) : z.HoldsKept (s.modHead n f) :=
  h.trans ⟨rfl, rfl, rfl, rfl⟩

theorem State.lineMatch_holdsKept {z s : State} {n y : Nat} (h : z.HoldsKept s) : z.HoldsKept (s.lineMatch n y) := by
  unfold State.lineMatch
  extract_lets hit m
  split
  · exact h
  · exact State.event_holdsKept h

section
variable (s : State) (n : Nat)

theorem State.head_lineMatch (y m : Nat) : (s.lineMatch n y).head m = s.head m :=
  State.head_of_heads ((State.lineMatch_keeps rfl (.refl 0x4800000005 s)).same .heads rfl) m

theorem State.stamp_lineMatch (y : Nat) : (s.lineMatch n y).stamp = s.stamp :=
  have kept : Keeps 0x4800000005 s (s.lineMatch n y) := State.lineMatch_keeps rfl (.refl _ s)
  State.stamp_of_parts (kept.same .clock rfl) (kept.same .config rfl)

theorem State.head_lineBegun (m : Nat) : (s.lineBegun n).head m =
    if m = n then (s.head n).onLine (if (s.head n).next + 1 = (s.timing n).height then s.stamp else (s.head n).guardStamp)
    else s.head m := by
  unfold State.lineBegun
  dsimp only
  by_cases hm : m = n
  · rw [if_pos hm, hm]
    split
    · rw [State.modHead_eq, State.head_setHead, if_pos rfl, State.stamp_lineMatch, State.head_lineMatch, State.modHead_eq, State.head_setHead,
        if_pos rfl]
      rfl
    · rw [State.head_lineMatch, State.modHead_eq, State.head_setHead, if_pos rfl]
      rfl
  · rw [if_neg hm]
    split <;> simp [hm, State.head_lineMatch]

theorem State.lineBegun_keeps : Keeps 0x4820000005 s (s.lineBegun n) := by
  unfold State.lineBegun
  dsimp only
  split
  · exact State.modHead_keeps rfl (State.lineMatch_keeps rfl (State.modHead_keeps rfl (.refl _ s)))
  · exact State.lineMatch_keeps rfl (State.modHead_keeps rfl (.refl _ s))

theorem State.lineBegun_holdsKept : s.HoldsKept (s.lineBegun n) := by
  unfold State.lineBegun
  dsimp only
  split
  · exact State.modHead_holdsKept (State.lineMatch_holdsKept (State.modHead_holdsKept (.refl s)))
  · exact State.lineMatch_holdsKept (State.modHead_holdsKept (.refl s))

theorem State.headHeld_lineBegun : (s.lineBegun n).headHeld n = s.headHeld n := by
  refine (s.lineBegun_holdsKept n).headHeld (fun m => ?_) n
  rw [State.head_lineBegun]
  split
  next hm => rw [hm]; rfl
  next => rfl

end

/-- The next line of head `n` has come. -/
structure State.LineComes (s : State) (n : Nat) : Prop where
  state : (s.head n).state ≠ .off
  line  : (s.head n).next < (s.timing n).vt
  time  : ((s.timing n).lineNs (s.head n).frame (s.head n).next : Int) ≤ s.ptpNs

section
variable {s : State} {n : Fin 16} {fill : LineFill} (comes : s.LineComes n.val)
include comes

theorem State.LineComes.not_early : ¬((s.head n.val).state = .off ∨ (s.timing n.val).vt ≤ (s.head n.val).next ∨
    s.ptpNs < ((s.timing n.val).lineNs (s.head n.val).frame (s.head n.val).next : Int)) := by
  simp [comes.state, comes.line, comes.time]

/-- Neither an active line of a frame in progress nor the latch line. -/
theorem execHeadLineStart_of_blank
    (blank : ((s.head n.val).next < (s.timing n.val).height ∧ (s.head n.val).inFrame = false) ∨ (s.timing n.val).height < (s.head n.val).next) :
    execHeadLineStart n fill s = .next (s.lineBegun n.val) := by
  refine (if_neg comes.not_early).trans ?_
  obtain ⟨active, idle⟩ | behind := blank
  · exact (if_pos active).trans (if_neg (by simp [idle]))
  · exact (if_neg (Nat.not_lt_of_gt behind)).trans (if_neg (Nat.ne_of_gt behind))

theorem execHeadLineStart_of_active (active : (s.head n.val).next < (s.timing n.val).height) (inFrame : (s.head n.val).inFrame = true) :
    execHeadLineStart n fill s = .next ((s.lineBegun n.val).activeLine n.val (s.head n.val).next fill) :=
  (if_neg comes.not_early).trans ((if_pos active).trans (if_pos inFrame))

section
variable (latch : (s.head n.val).next = (s.timing n.val).height)
include latch

/-- `ns` is the time of the latch line. -/
theorem execHeadLineStart_of_latch (noStart : (s.head n.val).startK = none) (noMode : (s.head n.val).mode = none)
    (runs : (s.head n.val).state.active = true ∨ (s.head n.val).state = .failed) :
    ∃ ns, execHeadLineStart n fill s = .next ((s.lineBegun n.val).latchHead n.val false ns ((s.head n.val).frame + 1)) := by
  unfold execHeadLineStart
  apply Exists.intro
  refine (if_neg comes.not_early).trans ((if_neg (by simp [latch])).trans ((if_pos latch).trans ?_))
  rw [noStart]
  exact (if_neg (by rcases runs with run | run <;> simp [run])).trans (if_pos (by simp [noMode]))

theorem execHeadLineStart_of_start (start : (s.head n.val).startK = some ((s.head n.val).frame + 1)) :
    ∃ ns data, execHeadLineStart n fill s = .next (if (s.head n.val).state = .enabled
      then ((s.lineBegun n.val).latchHead n.val true ns ((s.head n.val).frame + 1)).headLog F.HEAD_START n.val data
      else (s.lineBegun n.val).latchHead n.val true ns ((s.head n.val).frame + 1)) := by
  unfold execHeadLineStart
  apply Exists.intro
  apply Exists.intro
  refine (if_neg comes.not_early).trans ((if_neg (by simp [latch])).trans ((if_pos latch).trans ?_))
  rw [start]
  refine (if_pos rfl).trans ?_
  dsimp only
  split <;> rfl

end

end

/-! ## HEAD_FRAME_START (R237, R239, R249) -/

/-- The next frame of head `n` has come, and it is one that the head sends. -/
structure State.FrameComes (s : State) (n : Nat) : Prop where
  state  : (s.head n).state ≠ .off
  line   : (s.timing n).vt ≤ (s.head n).next
  time   : ((s.timing n).lineNs ((s.head n).frame + 1) 0 : Int) ≤ s.ptpNs
  starts : (s.head n).startK = some ((s.head n).frame + 1) ∨ ((s.head n).startK = none ∧ (s.head n).state.active = true)

/-- A head without its layers. -/
def Head.bare (h : Head) : Head := { h with layers := [] }

/-- A head whose next frame has begun; `held` is the reason of a head-wide cause. -/
def Head.begun (h : Head) (isHeld sends : Bool) (held : Option Nat) : Head := { h with
  frame := h.frame + 1, next := 0, line := 0, state := if isHeld then HeadState.harmless else .running, startK := none, inFrame := true,
  heldReason := held, sending := sends, tagFrame := h.newFrame, tagStamp := h.newStamp, tagConfig := h.newConfig, sawVoid := false,
  sawEov := false, picture := [], badReads := [], moved := [], pend := !h.staged.isEmpty,
  sig := sigFeed 0xFFFFFFFFFFFFFFFF (leBytes 4 h.newFrame ++ leBytes 8 h.newStamp.toNat ++ leBytes 4 h.newConfig) }

/-- The module sends now, in pair mode since 500 us after its grant (R211). -/
def State.sendsFrames (s : State) : Bool := s.sends && (!s.pairMode || s.due (s.pair.grantedAt + us 500))

/-- An operation that changes no part but the heads. -/
theorem Keeps.heads_eq {s t : State} (h : Keeps 0x20000000 s t) : t = { s with heads := t.heads } := by
  refine h.eq_of_agree rfl (fun p hp => ?_) (fun p hp => ?_)
  · cases p
    case heads => cases hp
    all_goals rfl
  · cases p
    case heads => rfl
    all_goals cases hp

/-- What the start of a frame leaves: the head has begun it, and nothing else changes. -/
structure State.FrameBegun (s t : State) (n : Nat) : Prop where
  head   : ∃ held, (t.head n).bare = ((s.head n).begun (s.headHeld n) s.sendsFrames held).bare
  others : ∀ m, m ≠ n → t.head m = s.head m
  frame  : t = { s with heads := t.heads }

theorem execHeadFrameStart_of_comes {s : State} {n : Fin 16} (comes : s.FrameComes n.val) :
    ∃ t, execHeadFrameStart n s = .next t ∧ s.FrameBegun t n.val := by
  suffices begins : ∃ t, execHeadFrameStart n s = .next t ∧
      (∃ held, (t.head n.val).bare = ((s.head n.val).begun (s.headHeld n.val) s.sendsFrames held).bare) ∧
      ∀ m, m ≠ n.val → t.head m = s.head m by
    obtain ⟨t, run, head, others⟩ := begins
    exact ⟨t, run, head, others, (execHeadFrameStart_keeps rfl (.refl _ s) t run).heads_eq⟩
  obtain ⟨state, line, time, starts⟩ := comes
  unfold execHeadFrameStart
  extract_lets k h t next stepped first st held sending begun
  have goes : ¬((!st.active) = true ∨ (!first) = true ∧ h.startK.isSome = true) := by
    rcases starts with start | ⟨none, active⟩
    · simp [first, st, h, k, next, start, HeadState.active]
    · simp [first, st, h, k, none, active]
  have same : stepped.headHeld k = s.headHeld k := by
    refine State.HoldsKept.headHeld (s := s) (t := stepped) ⟨rfl, rfl, rfl, rfl⟩ (fun m => ?_) k
    by_cases hm : m = k <;> simp [stepped, hm, Head.holding]
  refine ⟨_, (if_neg (by simp [h, t, k, next, state, line, time])).trans (if_neg goes), ?_⟩
  generalize htold : List.foldl _ begun (List.range 8) = told
  have kept : begun.HeadAlike Head.bare told k := by
    rw [← htold]
    refine .foldl (fun y i hy => ?_) (.refl _ begun k)
    split
    · extract_lets stands
      clear_value stands
      split
      · exact hy
      · exact hy.modHead fun _ => rfl
    · exact hy
  have here : stepped.head k = { s.head k with frame := (s.head k).frame + 1, next := 0, line := 0 } :=
    (State.head_setHead _ _ _ _).trans (if_pos rfl)
  have began : begun.head k = (s.head k).begun (stepped.headHeld k) s.sendsFrames (stepped.heldBy k) := by
    refine (State.head_setHead _ _ _ _).trans ((if_pos rfl).trans ?_)
    rw [here]
    rfl
  refine ⟨⟨stepped.heldBy k, kept.head.trans ?_⟩, fun m hm => (kept.others m hm).trans ?_⟩
  · rw [began, same]
  · simp [begun, stepped, k, hm]

/-! ## HEAD_EOV_REPEAT (R243, R247, R248) -/

/-- A head without the records of what it has not sent. -/
def Head.gapless (h : Head) : Head := { h with gapA := none, gapB := none }

/-- Packets of head `n` have left on its paths: of the head only its gap records change, of its registers only its packet counters. -/
structure State.PathsServed (s t : State) (n : Nat) : Prop where
  head : (t.head n).gapless = (s.head n).gapless
  reg  : ∀ a, inHeadBlock n a → (∀ b, a ≠ headPkts n b) → t.reg a = s.reg a

section
variable {z s : State} {n : Nat}

theorem State.PathsServed.modHead {f : Head → Head} (h : z.PathsServed s n) (hf : ∀ x, (f x).gapless = x.gapless) :
    z.PathsServed (s.modHead n f) n where
  head := by
    rw [State.modHead_eq, State.head_setHead, if_pos rfl, hf, h.head]
  reg := h.reg

theorem State.PathsServed.sendMedia {path rtp : List Byte} {b : Bool} (h : z.PathsServed s n) :
    z.PathsServed ((s.sendMedia path rtp).count (headPkts n b)) n where
  head := (congrArg Head.gapless (State.head_of_heads rfl n)).trans h.head
  reg a ha hp := (((State.reg_count _ _ _).trans (if_neg (hp b))).trans (State.reg_txFrame s (ha.ne_txFramesReg (le_one_lt _ _)))).trans
    (h.reg a ha hp)

theorem State.PathsServed.headGap {b : Bool} (h : z.PathsServed s n) : z.PathsServed (s.headGap n b) n := by
  unfold State.headGap
  dsimp only
  split
  · split
    · exact State.PathsServed.sendMedia (h.modHead fun _ => by cases b <;> rfl)
    · exact h
  · exact h

theorem State.PathsServed.foldl {β : Type} {f : State → β → State} {l : List β} (hf : ∀ y b, z.PathsServed y n → z.PathsServed (f y b) n)
    (h : z.PathsServed s n) : z.PathsServed (l.foldl f s) n :=
  List.foldlRecOn (motive := fun y => z.PathsServed y n) l f h fun y hy b _ => hf y b hy

end

/-- A packet of a head takes one number. -/
theorem State.headSend_pathsServed (s : State) (n : Nat) (packet : Nat → List Byte) :
    (s.modHead n fun h => { h with seq := ((s.head n).seq + 1) % 2 ^ 32 }).PathsServed (s.headSend n packet) n := by
  unfold State.headSend
  extract_lets seq bytes numbered
  refine .foldl (fun y b hy => ?_) ⟨rfl, fun _ _ _ => rfl⟩
  dsimp only
  split
  · exact hy.headGap.sendMedia
  · exact hy.modHead fun _ => by cases b <;> rfl

/-- An end-of-validity packet of head `n` has left. -/
structure State.EovLeft (s t : State) (n : Nat) : Prop where
  sends  : s.HeadSends t n
  at_    : (t.head n).lastEovAt = s.now
  seq    : (t.head n).seq = ((s.head n).seq + 1) % 2 ^ 32
  counts : n < 16 → s.Counted t (R.head_EOV_FRAMES n) 1

theorem State.headEov_eovLeft (s : State) (n reason : Nat) : s.EovLeft (s.headEov n reason) n := by
  suffices left : ((s.headEov n reason).head n).lastEovAt = s.now ∧ ((s.headEov n reason).head n).seq = ((s.head n).seq + 1) % 2 ^ 32 ∧
      (n < 16 → s.Counted (s.headEov n reason) (R.head_EOV_FRAMES n) 1) by
    obtain ⟨at_, seq, counts⟩ := left
    exact ⟨s.headEov_headSends n reason, at_, seq, counts⟩
  unfold State.headEov
  extract_lets h element rtp sent
  have at_ : sent.now = s.now := (State.headSend_keeps rfl (.refl 0x20000021 s)).now
  have served := s.headSend_pathsServed n fun seq => headPacket h.flow true seq rtp 0 0 element (h.patch reason)
  change State.PathsServed _ sent n at served
  clear_value sent
  have seq : (sent.head n).seq = ((s.head n).seq + 1) % 2 ^ 32 := (congrArg Head.seq served.head).trans (by simp [Head.gapless])
  refine ⟨by simpa using at_, by simpa using seq, fun hn => ?_⟩
  exact State.Counted.after (sent.toNat_reg_count _) (served.reg _ (inHeadBlock_EOV_FRAMES hn) (ne_headPkts (by decide)))

/-- A stopping head owes `left` end-of-validity packets from now on. -/
def State.eovOwed (s : State) (n left : Nat) : State := s.modHead n fun h => { h with eovLeft := some left, lastEovAt := s.now }

theorem State.head_eovOwed (s : State) (n left m : Nat) :
    (s.eovOwed n left).head m = if m = n then { s.head n with eovLeft := some left, lastEovAt := s.now } else s.head m :=
  State.head_setHead _ _ _ _

/-- A stopping head has sent its last packet. -/
def State.stopped (s : State) (n : Nat) : State := s.modHead n fun h => { h with state := .off, eovLeft := none }

theorem State.head_stopped (s : State) (n m : Nat) :
    (s.stopped n).head m = if m = n then { s.head n with state := .off, eovLeft := none } else s.head m :=
  State.head_setHead _ _ _ _

theorem State.headLog_frame (s : State) (f : FaultClass) (n : Nat) (data : List Byte) (outs : List (Output × Nat)) :
    ∃ l, s.headLog f n data outs = { s with ledger := l } :=
  s.logEntry_frame _

section
variable {s : State} {n : Fin 16} (due : s.due ((s.head n.val).lastEovAt + (s.head n.val).eovPeriod) = true)
include due

theorem execHeadEovRepeat_of_gap (gap : (s.head n.val).state = .modeGap ∨ (s.head n.val).state = .failed) (sends : s.sends = true) :
    ∃ reason, execHeadEovRepeat n s = .next (s.headEov n.val reason) := by
  rcases gap with state | state
  · refine ⟨voidMode, (if_pos due).trans ?_⟩
    rw [state]
    exact if_pos sends
  · refine ⟨voidFreeze, (if_pos due).trans ?_⟩
    rw [state]
    exact if_pos sends

theorem execHeadEovRepeat_of_silent (gap : (s.head n.val).state = .modeGap ∨ (s.head n.val).state = .failed) (silent : s.sends = false) :
    execHeadEovRepeat n s = .next s := by
  refine (if_pos due).trans ?_
  rcases gap with state | state <;> (rw [state]; exact if_neg (by simp [silent]))

/-- A stopping head that owes more than one packet owes one fewer. -/
theorem execHeadEovRepeat_of_owing {k : Nat} (state : (s.head n.val).state = .stopping) (left : (s.head n.val).eovLeft = some (k + 2)) :
    ∃ t, execHeadEovRepeat n s = .next t ∧ (t = s.eovOwed n.val (k + 1) ∨ t = (s.eovOwed n.val (k + 1)).headEov n.val voidMode) := by
  unfold execHeadEovRepeat
  simp only [due, state, left, if_true, Option.getD_some, Nat.add_one_sub_one, Nat.add_one_ne_zero, if_false]
  split
  · exact ⟨_, rfl, .inr rfl⟩
  · exact ⟨_, rfl, .inl rfl⟩

theorem execHeadEovRepeat_of_last (state : (s.head n.val).state = .stopping) (left : (s.head n.val).eovLeft = some 1) :
    execHeadEovRepeat n s = .next ((s.stopped n.val).headLog F.HEAD_STOP n.val (leBytes 4 (s.head n.val).tagFrame)) := by
  refine (if_pos due).trans ?_
  rw [state, left]
  exact if_pos rfl

end

/-! ## The statement -/

/-- Settles O38: a line, a frame and an end-of-validity packet that have come begin or leave as the state of their head says. -/
theorem headsRunTheirFrames : Obligations.HeadsRunTheirFrames := by
  unfold Obligations.HeadsRunTheirFrames
  refine ⟨?lines, ?frames, ?eovs⟩
  case lines =>
    intro h fill s state line time x y
    have comes : s.LineComes h.val := ⟨state, line, time⟩
    have begun := s.head_lineBegun h.val h.val
    rw [if_pos rfl] at begun
    have kept := s.lineBegun_keeps h.val
    have stamp : (s.lineBegun h.val).stamp = s.stamp := State.stamp_of_parts (kept.same .clock rfl) (kept.same .config rfl)
    have im : (s.lineBegun h.val).im = s.im := kept.same .im rfl
    have elsewhere (m : Nat) (hm : m ≠ h.val) : (s.lineBegun h.val).head m = s.head m := (s.head_lineBegun h.val m).trans (if_neg hm)
    refine ⟨fun blank => ?blank, fun active inFrame => ?active, fun latch noStart noMode runs => ?latch, fun latch start => ?start⟩
    case blank => exact ⟨_, execHeadLineStart_of_blank comes blank, begun, elsewhere, kept.same .wire rfl⟩
    case active =>
      have run := execHeadLineStart_of_active (fill := fill) comes active inFrame
      have shown := (s.lineBegun h.val).activeLine_lineShown h.val y fill
      generalize (s.lineBegun h.val).activeLine h.val y fill = t at run shown
      have head := shown.head
      rw [s.headHeld_lineBegun, State.timing, begun] at head
      refine ⟨t, run, congrArg Head.line head, congrArg Head.next head,
        congrArg Head.bufLow head, congrArg Head.panic head, congrArg Head.urgent head, (congrArg Head.tagFrame head :),
        congrArg Head.state head, fun idle => ?_, fun m hm => (shown.others m hm).trans (elsewhere m hm)⟩
      exact (shown.wire (by rw [begun]; exact idle)).trans (kept.same .wire rfl)
    case latch =>
      obtain ⟨ns, run⟩ := execHeadLineStart_of_latch (fill := fill) comes latch noStart noMode runs
      have tagged := (s.lineBegun h.val).latchHead_tagged h.val false ns ((s.head h.val).frame + 1)
      generalize (s.lineBegun h.val).latchHead h.val false ns ((s.head h.val).frame + 1) = t at run tagged
      rw [begun, Head.tagged, stamp, im] at tagged
      exact ⟨t, run, congrArg Head.line tagged, congrArg Head.next tagged, congrArg Head.newFrame tagged, congrArg Head.newStamp tagged,
        congrArg Head.newConfig tagged, (congrArg Head.state tagged :)⟩
    case start =>
      obtain ⟨ns, data, run⟩ := execHeadLineStart_of_start (fill := fill) comes latch start
      have tagged := (s.lineBegun h.val).latchHead_tagged h.val true ns ((s.head h.val).frame + 1)
      have latched : Keeps 0x48e0000045 (s.lineBegun h.val) ((s.lineBegun h.val).latchHead h.val true ns ((s.head h.val).frame + 1)) :=
        State.latchHead_keeps rfl (.refl _ _)
      generalize (s.lineBegun h.val).latchHead h.val true ns ((s.head h.val).frame + 1) = t at run tagged latched
      rw [begun, Head.tagged, stamp, im] at tagged
      by_cases enabled : (s.head h.val).state = .enabled
      · rw [if_pos enabled] at run
        have head : ((t.headLog F.HEAD_START h.val data).head h.val).settled = (t.head h.val).settled := by rw [State.head_headLog]
        rw [tagged] at head
        refine ⟨_, run, congrArg Head.newFrame head, congrArg Head.newStamp head, congrArg Head.newConfig head, fun _ hrun => ?_⟩
        exact ((State.logOut_logsOne (latched.running rfl (kept.running rfl hrun)) _ _ _ _ _).logs.after latched rfl).after kept rfl
      · rw [if_neg enabled] at run
        exact ⟨t, run, congrArg Head.newFrame tagged, congrArg Head.newStamp tagged, congrArg Head.newConfig tagged,
          fun now => absurd now enabled⟩
  case frames =>
    intro h s state line time starts
    obtain ⟨t, run, ⟨held, head⟩, others, frame⟩ := execHeadFrameStart_of_comes ⟨state, line, time, starts⟩
    exact ⟨t, run, congrArg Head.frame head, congrArg Head.next head, congrArg Head.inFrame head, congrArg Head.tagFrame head,
      congrArg Head.tagStamp head, congrArg Head.tagConfig head, congrArg Head.sawVoid head, congrArg Head.sawEov head,
      congrArg Head.state head, congrArg Head.sending head, others, frame⟩
  case eovs =>
    refine fun h s due => ⟨fun gap => ⟨fun sends => ?sent, execHeadEovRepeat_of_silent due gap⟩,
      fun stops => ⟨fun k left => ?owing, fun last => ?last⟩⟩
    case sent =>
      obtain ⟨reason, run⟩ := execHeadEovRepeat_of_gap due gap sends
      have left := s.headEov_eovLeft h.val reason
      exact ⟨_, run, left.at_, left.seq, left.counts h.isLt, left.sends.field Head.state fun _ => rfl, left.sends.others⟩
    case owing =>
      obtain ⟨t, run, owes⟩ := execHeadEovRepeat_of_owing due stops left
      have owed := s.head_eovOwed h.val (k + 1)
      have here := (owed h.val).trans (if_pos rfl)
      rcases owes with rfl | rfl
      · exact ⟨_, run, by rw [here], by rw [here], by rw [here]; exact stops, fun m hm => (owed m).trans (if_neg hm)⟩
      · have sent := (s.eovOwed h.val (k + 1)).headEov_eovLeft h.val voidMode
        refine ⟨_, run, (sent.sends.field Head.eovLeft fun _ => rfl).trans (by rw [here]), sent.at_,
          (sent.sends.field Head.state fun _ => rfl).trans (by rw [here]; exact stops),
          fun m hm => (sent.sends.others m hm).trans ((owed m).trans (if_neg hm))⟩
    case last =>
      have kept : Keeps 0x20000000 s (s.stopped h.val) := State.modHead_keeps rfl (.refl _ s)
      have stopped := s.head_stopped h.val
      obtain ⟨l, frame⟩ := (s.stopped h.val).headLog_frame F.HEAD_STOP h.val (leBytes 4 (s.head h.val).tagFrame) []
      refine ⟨_, execHeadEovRepeat_of_last due stops last, ?_, fun m hm => ?_, fun hrun => ?_, ?_⟩
      · exact (State.head_headLog _ _ _ _ _ _).trans ((stopped h.val).trans (if_pos rfl))
      · exact (State.head_headLog _ _ _ _ _ _).trans ((stopped m).trans (if_neg hm))
      · exact (State.logOut_logsOne (kept.running rfl hrun) _ _ _ _ _).of_ledger rfl
      · rw [frame]
        rfl

end Sys2Proof.Machine
end

section
/-!
PROOF. A slip of a slave clock (R264, R325, R326): it raises the audio block's event before it logs AUDIO_SLIP. Where that event meets a
saturated interrupt source, IRQ_SATURATED joins the ledger's intake as well, which the statement leaves no room for.
-/

namespace Sys2Proof.Machine

/-- D0 runs; clock 0 is a good slave clock that has not slipped yet; the event SLIP is enabled, and the audio block's source has
counted 255. -/
def saturatedAudio : State :=
  (({ startup := { phase := 2 }, audio := { ck0 := { state := .good } },
      config := [{ type := 0x0703, domain := 7, tile := 0, payload := 2 :: List.replicate 15 0 }] } : State).setReg R.au_EVENT_EN 8).setSource
    245 { count := 255 }

/-- The one slip makes two entries: IRQ_SATURATED, then AUDIO_SLIP. -/
theorem audioSlip_saturatedAudio :
    (match exec (.audioSlip false true) saturatedAudio with
      | .next t => t.ledger.outbox.map Entry.cls
      | _ => []) = [F.IRQ_SATURATED.code, F.AUDIO_SLIP.code] := by decide +kernel

/-- Refutes O40: AUDIO_SLIP need not be the only entry of a clock's first slip, since its event may find its interrupt source full. -/
theorem not_audioFramesSlipsAndStuckMicrophones : ¬ Obligations.AudioFramesSlipsAndStuckMicrophones := by
  unfold Obligations.AudioFramesSlipsAndStuckMicrophones
  rintro ⟨-, slips, -⟩
  obtain ⟨slipOfGood, -⟩ := slips false true saturatedAudio (by decide +kernel)
  obtain ⟨t, run, -, -, -, -, logsOne, -⟩ := slipOfGood (by decide +kernel) (by decide +kernel)
  have noRate : saturatedAudio.rate F.AUDIO_SLIP.code (b2n false) = none := by decide +kernel
  obtain ⟨e, outbox, -⟩ := logsOne fun r hr => nomatch noRate.symm.trans hr
  have two := audioSlip_saturatedAudio
  rw [run] at two
  have empty : saturatedAudio.ledger.outbox = [] := by decide +kernel
  rw [empty] at outbox
  have length : t.ledger.outbox.length = 2 := by simpa using congrArg List.length two
  simp [outbox] at length

end Sys2Proof.Machine
end

section
/-!
The proofs below are elaborated one after another. Side by side, the threads that wait
for each other's stacks cost the compile of this text more memory than the proofs do.
-/
set_option Elab.async false

section
/-!
PROOF. What every command keeps (R381, R403 to R406): the Keep laws of the meanings, put together over the table of commands, with the
set of parts that `mayChange` names for each. The three statements about every step follow from it.
-/

namespace Sys2Proof.Machine

/-- The commands that take entries out of the units' queues, or may reset D0. -/
def drains (c : Instr) : Bool :=
  match c with
  | .ledgerIntake _ => true
  | c => mayReset c

/-- Parts added to a set. -/
def Part.addAll (m : Nat) (l : List Part) : Nat := l.foldl (fun m p => m ||| 2 ^ p.bit) m

/-- What a command may change as a set: its parts, with the bit of the commands that drain. -/
def changeSet (c : Instr) : Nat :=
  bif drains c then Part.addAll (2 ^ drainBit) (mayChange c) else Part.addAll 0 (mayChange c)

theorem Part.testBit_addAll (l : List Part) (m i : Nat) :
    (Part.addAll m l).testBit i = true ↔ m.testBit i = true ∨ ∃ p ∈ l, p.bit = i := by
  induction l generalizing m with
  | nil => simp [addAll]
  | cons p r ih =>
    rw [show addAll m (p :: r) = addAll (m ||| 2 ^ p.bit) r from rfl, ih]
    simp [Nat.testBit_or, Nat.testBit_two_pow, or_assoc]

theorem Part.bit_injective {p q : Part} (h : p.bit = q.bit) : p = q := by
  revert h
  cases p <;> cases q <;> first | exact fun _ => rfl | exact nofun

theorem Part.bit_ne_drainBit (p : Part) : p.bit ≠ drainBit := by cases p <;> decide

/-- A part that `mayChange` does not list is outside the command's set. -/
theorem changeSet_testBit_of_not_mem {c : Instr} {p : Part} (h : p ∉ mayChange c) : (changeSet c).testBit p.bit = false := by
  have out (m : Nat) (hm : m.testBit p.bit = false) : (Part.addAll m (mayChange c)).testBit p.bit = false := by
    rw [Bool.eq_false_iff, Ne, Part.testBit_addAll]
    rintro (k | ⟨q, hq, e⟩)
    · exact Bool.noConfusion (hm.symm.trans k)
    · exact h (Part.bit_injective e ▸ hq)
  unfold changeSet
  cases drains c
  · exact out _ (Nat.zero_testBit _)
  · exact out _ (Nat.testBit_two_pow_of_ne p.bit_ne_drainBit.symm)

theorem changeSet_drainBit {c : Instr} (h : drains c = false) : (changeSet c).testBit drainBit = false := by
  unfold changeSet
  rw [h, Bool.eq_false_iff, Ne, cond_false, Part.testBit_addAll]
  rintro (k | ⟨q, -, e⟩)
  · exact Bool.noConfusion ((Nat.zero_testBit _).symm.trans k)
  · exact q.bit_ne_drainBit e

/-- Every command keeps what is outside its set: the Keep law of its meaning, at the number that its set is. -/
theorem exec_keeps (c : Instr) (s : State) : KeepsOut (changeSet c) s (exec c s) := by
  cases c with
  | registerWrite => exact execRegisterWrite_keeps (A := 0xffffbefb77) rfl (.refl _ s)
  | ptpMessageRx => exact execPtpMessageRx_keeps (A := 0xcc3da4ebe5) rfl (.refl _ s)
  | delayReqTx => exact execDelayReqTx_keeps (A := 0x40221) rfl (.refl _ s)
  | syncTimeout => exact execSyncTimeout_keeps (A := 0xcc3da0cb65) rfl (.refl _ s)
  | announceTimeout => exact execAnnounceTimeout_keeps (A := 0xcc3da0cb65) rfl (.refl _ s)
  | leadingSyncTx => exact execLeadingSyncTx_keeps (A := 0x40221) rfl (.refl _ s)
  | leadingAnnounceTx => exact execLeadingAnnounceTx_keeps (A := 0x40221) rfl (.refl _ s)
  | suspectClr agent => exact execSuspectClr_keeps (agent := agent) (A := 0x100) rfl (.refl _ s)
  | forceHold agent _ => exact execForceHold_keeps (agent := agent) (A := 0xcc3da0cb65) rfl (.refl _ s)
  | monitorWindowEnd => exact execMonitorWindowEnd_keeps (A := 0xcd3da6cf65) rfl (.refl _ s)
  | monitorEdgeTimeout => exact execMonitorEdgeTimeout_keeps (A := 0xcd3da6cf65) rfl (.refl _ s)
  | rennetPoint => exact execRennetPoint_keeps (A := 0xedbff7ff65) rfl (.refl _ s)
  | stampLoRead => exact execStampLoRead_keeps (A := 0x12) rfl (.refl _ s)
  | armHiWrite agent _ _ => exact execArmHiWrite_keeps (agent := agent) (A := 0x4000000801) rfl (.refl _ s)
  | tioPulseEdge => exact execTioPulseEdge_keeps (A := 0x820) rfl (.refl _ s)
  | tioPulseEnd => exact execTioPulseEnd_keeps (A := 0x820) rfl (.refl _ s)
  | tioInputTransition => exact execTioInputTransition_keeps (A := 0x801) rfl (.refl _ s)
  | tioLevelQualified => exact execTioLevelQualified_keeps (A := 0x4800000801) rfl (.refl _ s)
  | tioStuckTimeout => exact execTioStuckTimeout_keeps (A := 0x4000000800) rfl (.refl _ s)
  | tioRelease agent _ => exact execTioRelease_keeps (agent := agent) (A := 0x4804800805) rfl (.refl _ s)
  | tioFlush agent _ => exact execTioFlush_keeps (agent := agent) (A := 0x800) rfl (.refl _ s)
  | capLoRead => exact execCapLoRead_keeps (A := 0x812) rfl (.refl _ s)
  | slotCheck => exact execSlotCheck_keeps (A := 0x4000001000) rfl (.refl _ s)
  | validationDone => exact execValidationDone_keeps (A := 0x4800001005) rfl (.refl _ s)
  | slotCtrlClear agent _ => exact execSlotCtrlClear_keeps (agent := agent) (A := 0x4000001000) rfl (.refl _ s)
  | commitIssue => exact execCommitIssue_keeps (A := 0xdd3db6eb67) rfl (.refl _ s)
  | ripenDone => exact execRipenDone_keeps (A := 0x4d3db6e865) rfl (.refl _ s)
  | goPoint => exact execGoPoint_keeps (A := 0x4d3db6e065) rfl (.refl _ s)
  | commitCancel agent _ => exact execCommitCancel_keeps (agent := agent) (A := 0x4d3db6e065) rfl (.refl _ s)
  | floorRaise => exact execFloorRaise_keeps (A := 0x4000001000) rfl (.refl _ s)
  | stagedWrite => exact execStagedWrite_keeps (A := 0x5000000000) rfl (.refl _ s)
  | fwAliveTimeout => exact execFwAliveTimeout_keeps (A := 0xe800001005) rfl (.refl _ s)
  | fwConfirm => exact execFwConfirm_keeps (A := 0x4800001005) rfl (.refl _ s)
  | fwRevert => exact execFwRevert_keeps (A := 0x6800001005) rfl (.refl _ s)
  | bootWrite => exact execBootWrite_keeps (A := 0x4800001005) rfl (.refl _ s)
  | bootPrefer => exact execBootPrefer_keeps (A := 0x4000001000) rfl (.refl _ s)
  | frameRx => exact execFrameRx_keeps (A := 0xfffffefb7f) rfl (.refl _ s)
  | ftAdd => exact execFtAdd_keeps (A := 0x4800140027) rfl (.refl _ s)
  | ftRemove => exact execFtRemove_keeps (A := 0x4800140027) rfl (.refl _ s)
  | ftRead => exact execFtRead_keeps (A := 0x4800000007) rfl (.refl _ s)
  | ftLookup => exact execFtLookup_keeps (A := 0x4800000007) rfl (.refl _ s)
  | ringEnable agent _ _ => exact execRingEnable_keeps (agent := agent) (A := 0x1) rfl (.refl _ s)
  | inputLossTimeout => exact execInputLossTimeout_keeps (A := 0x4c3da0c865) rfl (.refl _ s)
  | stripeGapTimeout => exact execStripeGapTimeout_keeps (A := 0x4c1da0c045) rfl (.refl _ s)
  | mergeSkewTimeout => exact execMergeSkewTimeout_keeps (A := 0x4000600001) rfl (.refl _ s)
  | pathSilenceTimeout => exact execPathSilenceTimeout_keeps (A := 0x4800600005) rfl (.refl _ s)
  | surfaceFrameClose => exact execSurfaceFrameClose_keeps (A := 0x4800400005) rfl (.refl _ s)
  | surfaceCloseTimeout => exact execSurfaceCloseTimeout_keeps (A := 0x4800400005) rfl (.refl _ s)
  | laneSignalDetect => exact execLaneSignalDetect_keeps (A := 0x60000) rfl (.refl _ s)
  | laneAdaptConverged => exact execLaneAdaptConverged_keeps (A := 0x60000) rfl (.refl _ s)
  | pcsLock => exact execPcsLock_keeps (A := 0x40000) rfl (.refl _ s)
  | portUp => exact execPortUp_keeps (A := 0x4828840025) rfl (.refl _ s)
  | bringupStepTimeout => exact execBringupStepTimeout_keeps (A := 0x4800060005) rfl (.refl _ s)
  | backoffRetry => exact execBackoffRetry_keeps (A := 0x60001) rfl (.refl _ s)
  | adaptStep => exact execAdaptStep_keeps (A := 0x20000) rfl (.refl _ s)
  | laneLowFom => exact execLaneLowFom_keeps (A := 0x4800020005) rfl (.refl _ s)
  | fomBelowMin => exact execFomBelowMin_keeps (A := 0xcc3da6cb65) rfl (.refl _ s)
  | pcsAlignmentLoss => exact execPcsAlignmentLoss_keeps (A := 0xcc3da6cb65) rfl (.refl _ s)
  | fecUncorrBurst => exact execFecUncorrBurst_keeps (A := 0xcc3da6cb65) rfl (.refl _ s)
  | linkFaultPersist => exact execLinkFaultPersist_keeps (A := 0xcc3da6cb65) rfl (.refl _ s)
  | fecDegrade => exact execFecDegrade_keeps (A := 0x4800040005) rfl (.refl _ s)
  | optRemoved => exact execOptRemoved_keeps (A := 0xcc3daecb65) rfl (.refl _ s)
  | optInserted => exact execOptInserted_keeps (A := 0x48000c0005) rfl (.refl _ s)
  | optModuleReady => exact execOptModuleReady_keeps (A := 0xe0001) rfl (.refl _ s)
  | portAdmin agent _ _ => exact execPortAdmin_keeps (agent := agent) (A := 0xcc3da6cb65) rfl (.refl _ s)
  | retryNow agent _ => exact execRetryNow_keeps (agent := agent) (A := 0x60001) rfl (.refl _ s)
  | laneLoop agent _ _ => exact execLaneLoop_keeps (agent := agent) (A := 0x4000020020) rfl (.refl _ s)
  | lanePrbs agent _ _ => exact execLanePrbs_keeps (agent := agent) (A := 0x4000020000) rfl (.refl _ s)
  | laneFreeze agent _ _ => exact execLaneFreeze_keeps (agent := agent) (A := 0x20000) rfl (.refl _ s)
  | fomRead agent _ => exact execFomRead_keeps (agent := agent) (A := 0x20010) rfl (.refl _ s)
  | optPoll => exact execOptPoll_keeps (A := 0xcc3daecb65) rfl (.refl _ s)
  | optCmd agent _ _ => exact execOptCmd_keeps (agent := agent) (A := 0x80001) rfl (.refl _ s)
  | optCmdDone => exact execOptCmdDone_keeps (A := 0x80001) rfl (.refl _ s)
  | optSdaStuck => exact execOptSdaStuck_keeps (A := 0x4800080005) rfl (.refl _ s)
  | optResetBus agent _ => exact execOptResetBus_keeps (agent := agent) (A := 0x80000) rfl (.refl _ s)
  | laneTakeCurd => exact execLaneTakeCurd_keeps (A := 0x4805800005) rfl (.refl _ s)
  | curdSelect => exact execCurdSelect_keeps (A := 0x4c1da0c045) rfl (.refl _ s)
  | verdict => exact execVerdict_keeps (A := 0x4c1fa0c045) rfl (.refl _ s)
  | verdictDeadline => exact execVerdictDeadline_keeps (A := 0x4c1da0c045) rfl (.refl _ s)
  | curdLateHandover => exact execCurdLateHandover_keeps (A := 0x4000800000) rfl (.refl _ s)
  | packedPacketTimeout => exact execPackedPacketTimeout_keeps (A := 0x8800000) rfl (.refl _ s)
  | packetDepart => exact execPacketDepart_keeps (A := 0x4808840025) rfl (.refl _ s)
  | channelEovRepeat => exact execChannelEovRepeat_keeps (A := 0x4808800005) rfl (.refl _ s)
  | signaturePrefetchDone => exact execSignaturePrefetchDone_keeps (A := 0x800000) rfl (.refl _ s)
  | signatureWriteTimeout => exact execSignatureWriteTimeout_keeps (A := 0x800000) rfl (.refl _ s)
  | coderEccFault => exact execCoderEccFault_keeps (A := 0x4817004005) rfl (.refl _ s)
  | coderClockLoss => exact execCoderClockLoss_keeps (A := 0x4817004005) rfl (.refl _ s)
  | coderWatchdog => exact execCoderWatchdog_keeps (A := 0x4817004005) rfl (.refl _ s)
  | rindMove agent _ _ => exact execRindMove_keeps (agent := agent) (A := 0x2000001) rfl (.refl _ s)
  | coderRetest agent _ => exact execCoderRetest_keeps (agent := agent) (A := 0x1008000) rfl (.refl _ s)
  | coderRetire agent _ => exact execCoderRetire_keeps (agent := agent) (A := 0x4811004005) rfl (.refl _ s)
  | claimForget => exact execClaimForget_keeps (A := 0x400000) rfl (.refl _ s)
  | heartbeatRx => exact execHeartbeatRx_keeps (A := 0x4830840025) rfl (.refl _ s)
  | recordsRx => exact execRecordsRx_keeps (A := 0x4810000005) rfl (.refl _ s)
  | handoverRx => exact execHandoverRx_keeps (A := 0x4810040025) rfl (.refl _ s)
  | answerRx => exact execAnswerRx_keeps (A := 0x4c3da0c045) rfl (.refl _ s)
  | promotedChannelStart => exact execPromotedChannelStart_keeps (A := 0x481d80c005) rfl (.refl _ s)
  | probeRx => exact execProbeRx_keeps (A := 0x4810040025) rfl (.refl _ s)
  | pairSwitch agent => exact execPairSwitch_keeps (agent := agent) (A := 0x4810040025) rfl (.refl _ s)
  | headLineStart => exact execHeadLineStart_keeps (A := 0x4ae0000065) rfl (.refl _ s)
  | headFrameStart => exact execHeadFrameStart_keeps (A := 0x20000000) rfl (.refl _ s)
  | headFrameDone => exact execHeadFrameDone_keeps (A := 0x4c20000025) rfl (.refl _ s)
  | headEovRepeat => exact execHeadEovRepeat_keeps (A := 0x4020000021) rfl (.refl _ s)
  | headRetest agent _ => exact execHeadRetest_keeps (agent := agent) (A := 0x4020000040) rfl (.refl _ s)
  | unitCheckFail => exact execUnitCheckFail_keeps (A := 0x48e0000005) rfl (.refl _ s)
  | readerRetest agent _ => exact execReaderRetest_keeps (agent := agent) (A := 0x48c0000045) rfl (.refl _ s)
  | scalerRetest agent _ => exact execScalerRetest_keeps (agent := agent) (A := 0x48c0000045) rfl (.refl _ s)
  | audioFrameBoundary => exact execAudioFrameBoundary_keeps (A := 0x4d00000025) rfl (.refl _ s)
  | audioSlip => exact execAudioSlip_keeps (A := 0x4900000005) rfl (.refl _ s)
  | micStuckTimeout => exact execMicStuckTimeout_keeps (A := 0x4900000005) rfl (.refl _ s)
  | memRequestServe => exact execMemRequestServe_keeps (A := 0x4f3db6f07d) rfl (.refl _ s)
  | memStarvationRaise => exact execMemStarvationRaise_keeps (A := 0x200000001) rfl (.refl _ s)
  | refreshDue => exact execRefreshDue_keeps (A := 0x200000000) rfl (.refl _ s)
  | refreshPayback => exact execRefreshPayback_keeps (A := 0x200000000) rfl (.refl _ s)
  | mr4Poll => exact execMr4Poll_keeps (A := 0x4a00000005) rfl (.refl _ s)
  | trainingDue => exact execTrainingDue_keeps (A := 0x200000000) rfl (.refl _ s)
  | trainingStep => exact execTrainingStep_keeps (A := 0x200000000) rfl (.refl _ s)
  | trainingForce => exact execTrainingForce_keeps (A := 0x200000000) rfl (.refl _ s)
  | trainingDone => exact execTrainingDone_keeps (A := 0xcf3db6f075) rfl (.refl _ s)
  | trainNow => exact execTrainNow_keeps (A := 0x200000000) rfl (.refl _ s)
  | memChannelSilent => exact execMemChannelSilent_keeps (A := 0x4f3db6f075) rfl (.refl _ s)
  | memRetire => exact execMemRetire_keeps (A := 0x4f3db6f075) rfl (.refl _ s)
  | remapDone => exact execRemapDone_keeps (A := 0x4220c00008) rfl (.refl _ s)
  | patrolScrub => exact execPatrolScrub_keeps (A := 0x4f3db6f075) rfl (.refl _ s)
  | dupCopyDone => exact execDupCopyDone_keeps (A := 0x4a00000005) rfl (.refl _ s)
  | surfaceWriteTimeout => exact execSurfaceWriteTimeout_keeps (A := 0x4800400005) rfl (.refl _ s)
  | recordAdmit => exact execRecordAdmit_keeps (A := 0x4c00000005) rfl (.refl _ s)
  | wheelSign => exact execWheelSign_keeps (A := 0x4c00000005) rfl (.refl _ s)
  | sealNow agent => exact execSealNow_keeps (_agent := agent) (A := 0x4c00000005) rfl (.refl _ s)
  | exportOpen => exact execExportOpen_keeps (A := 0x400000000) rfl (.refl _ s)
  | exportClose => exact execExportClose_keeps (A := 0x400000000) rfl (.refl _ s)
  | exportIdleTimeout => exact execExportIdleTimeout_keeps (A := 0x400000000) rfl (.refl _ s)
  | verify agent => exact execVerify_keeps (_agent := agent) (A := 0x400000000) rfl (.refl _ s)
  | nandProgramFail => exact execNandProgramFail_keeps (A := 0x4c00000045) rfl (.refl _ s)
  | codeFetchError => exact execCodeFetchError_keeps (A := 0x4800000005) rfl (.refl _ s)
  | sramUncorr => exact execSramUncorr_keeps (A := 0x4800000005) rfl (.refl _ s)
  | coreWfi => exact execCoreWfi_keeps (A := 0x800000000) rfl (.refl _ s)
  | corePark agent _ => exact execCorePark_keeps (agent := agent) (A := 0x800000000) rfl (.refl _ s)
  | coreResume => exact execCoreResume_keeps (A := 0x800000000) rfl (.refl _ s)
  | coreWatchdogExpire => exact execCoreWatchdogExpire_keeps (A := 0x4800000005) rfl (.refl _ s)
  | wdtKick => exact execWdtKick_keeps (A := 0x800000000) rfl (.refl _ s)
  | coreAlive => exact execCoreAlive_keeps (A := 0x4800001000) rfl (.refl _ s)
  | spLockstepMismatch => exact execSpLockstepMismatch_keeps (A := 0x4800000005) rfl (.refl _ s)
  | irqEvent => exact execIrqEvent_keeps (A := 0x4800000005) rfl (.refl _ s)
  | irqClaim => exact execIrqClaim_keeps (A := 0x800000011) rfl (.refl _ s)
  | irqComplete => exact execIrqComplete_keeps (A := 0x800000001) rfl (.refl _ s)
  | srcCfgWrite => exact execSrcCfgWrite_keeps (A := 0x4800000001) rfl (.refl _ s)
  | thresholdWrite agent _ _ => exact execThresholdWrite_keeps (agent := agent) (A := 0x800000000) rfl (.refl _ s)
  | swiSet agent _ => exact execSwiSet_keeps (agent := agent) (A := 0x4800000001) rfl (.refl _ s)
  | srcCntSatClear agent _ => exact execSrcCntSatClear_keeps (agent := agent) (A := 0x800000000) rfl (.refl _ s)
  | irqNoTarget => exact execIrqNoTarget_keeps (A := 0x4800000000) rfl (.refl _ s)
  | rtArm => exact execRtArm_keeps (A := 0x4800000001) rfl (.refl _ s)
  | rtExpire => exact execRtExpire_keeps (A := 0x4800000001) rfl (.refl _ s)
  | rtDisarm => exact execRtDisarm_keeps (A := 0x4800000001) rfl (.refl _ s)
  | chkStart => exact execChkStart_keeps (A := 0x800000001) rfl (.refl _ s)
  | chkData => exact execChkData_keeps (A := 0x800000001) rfl (.refl _ s)
  | chkEnd => exact execChkEnd_keeps (A := 0x4800000001) rfl (.refl _ s)
  | mdpOpen => exact execMdpOpen_keeps (A := 0x5c00000027) rfl (.refl _ s)
  | mdpIdentify => exact execMdpIdentify_keeps (A := 0x5000000021) rfl (.refl _ s)
  | mdpRequest => exact execMdpRequest_keeps (A := 0xffffbefb77) rfl (.refl _ s)
  | mdpAck => exact execMdpAck_keeps (A := 0x5c00000007) rfl (.refl _ s)
  | mdpClose => exact execMdpClose_keeps (A := 0x5c00000027) rfl (.refl _ s)
  | read => exact execRead_keeps (A := 0xffffbefb77) rfl (.refl _ s)
  | write => exact execWrite_keeps (A := 0xffffbefb77) rfl (.refl _ s)
  | modify => exact execModify_keeps (A := 0xffffbefb77) rfl (.refl _ s)
  | blockRead => exact execBlockRead_keeps (A := 0xffffbefb77) rfl (.refl _ s)
  | blockWrite => exact execBlockWrite_keeps (A := 0xffffbefb77) rfl (.refl _ s)
  | subscribe => exact execSubscribe_keeps (A := 0xffffbefb77) rfl (.refl _ s)
  | unsubscribe => exact execUnsubscribe_keeps (A := 0xffffbefb77) rfl (.refl _ s)
  | attest => exact execAttest_keeps (A := 0xffffbefb77) rfl (.refl _ s)
  | enrol => exact execEnrol_keeps (A := 0xffffbefb77) rfl (.refl _ s)
  | slotWrite => exact execSlotWrite_keeps (A := 0xffffbefb77) rfl (.refl _ s)
  | slotClear => exact execSlotClear_keeps (A := 0xffffbefb77) rfl (.refl _ s)
  | disown => exact execDisown_keeps (A := 0xffffbefb77) rfl (.refl _ s)
  | nop => exact execNop_keeps (A := 0xffffbefb77) rfl (.refl _ s)
  | sessionIdle => exact execSessionIdle_keeps (A := 0x5c00000007) rfl (.refl _ s)
  | sessionKill => exact execSessionKill_keeps (A := 0x5c00000007) rfl (.refl _ s)
  | notifySend => exact execNotifySend_keeps (A := 0x5c00000027) rfl (.refl _ s)
  | notifyRetx => exact execNotifyRetx_keeps (A := 0x5c00000027) rfl (.refl _ s)
  | stateNotify => exact execStateNotify_keeps (A := 0x5c00000027) rfl (.refl _ s)
  | mpAdmin agent _ _ => exact execMpAdmin_keeps (agent := agent) (A := 0xcc3da6cb65) rfl (.refl _ s)
  | feedClassChange => exact execFeedClassChange_keeps (A := 0x6800000005) rfl (.refl _ s)
  | feedOver => exact execFeedOver_keeps (A := 0x6800000005) rfl (.refl _ s)
  | feedHighTimeout => exact execFeedHighTimeout_keeps (A := 0x6800000005) rfl (.refl _ s)
  | feedStageClose => exact execFeedStageClose_keeps (A := 0x6800000005) rfl (.refl _ s)
  | railFault => exact execRailFault_keeps (A := 0x2ffffffffff) rfl (.refl _ s)
  | hullSag => exact execHullSag_keeps (A := 0x6c3da0d865) rfl (.refl _ s)
  | powerReqRun agent => exact execPowerReqRun_keeps (agent := agent) (A := 0x6805808005) rfl (.refl _ s)
  | powerReqTrim agent => exact execPowerReqTrim_keeps (agent := agent) (A := 0x6805808005) rfl (.refl _ s)
  | powerReqKeep agent _ => exact execPowerReqKeep_keeps (agent := agent) (A := 0x6c3da0c865) rfl (.refl _ s)
  | powerReqOff agent _ _ => exact execPowerReqOff_keeps (agent := agent) (A := 0x6c3da0c865) rfl (.refl _ s)
  | thermSample => exact execThermSample_keeps (A := 0x6800000005) rfl (.refl _ s)
  | telemetryRefresh => exact execTelemetryRefresh_keeps (A := 0x2000000000) rfl (.refl _ s)
  | ledgerIntake => exact execLedgerIntake_keeps (A := 0x24d3db6e865) rfl (.refl _ s)
  | quietExpire => exact execQuietExpire_keeps (A := 0x4804800005) rfl (.refl _ s)
  | relCtrlOne => exact execRelCtrlOne_keeps (A := 0x4804800005) rfl (.refl _ s)
  | relCtrlAll => exact execRelCtrlAll_keeps (A := 0x4804800005) rfl (.refl _ s)
  | safeNTransition => exact execSafeNTransition_keeps (A := 0x4000000001) rfl (.refl _ s)
  | safeEnter => exact execSafeEnter_keeps (A := 0x4d3db6e865) rfl (.refl _ s)
  | safeRelease => exact execSafeRelease_keeps (A := 0x4804800005) rfl (.refl _ s)
  | rstNTransition => exact execRstNTransition_keeps (A := 0xc000000001) rfl (.refl _ s)
  | hostReset => exact execHostReset_keeps (A := 0xcc3da0c865) rfl (.refl _ s)
  | coderSelfCheckFail => exact execCoderSelfCheckFail_keeps (A := 0x4817004005) rfl (.refl _ s)
  | claimStormClear => exact execClaimStormClear_keeps (A := 0x4004000000) rfl (.refl _ s)
  | raisedCauseClear => exact execRaisedCauseClear_keeps (A := 0x4000000000) rfl (.refl _ s)
  | processorRestartDone => exact execProcessorRestartDone_keeps (A := 0x800000000) rfl (.refl _ s)
  | quarantineExpire => exact execQuarantineExpire_keeps (A := 0xcc3da0cb65) rfl (.refl _ s)
  | holdLimitReached => exact execHoldLimitReached_keeps (A := 0x4800000105) rfl (.refl _ s)
  | refInPpsEdge => exact execRefInPpsEdge_keeps (A := 0x4800000505) rfl (.refl _ s)
  | rollStep => exact execRollStep_keeps (A := 0x4802004005) rfl (.refl _ s)
  | rollStepSchedule => exact execRollStepSchedule_keeps (A := 0x480100c005) rfl (.refl _ s)
  | rollHalt => exact execRollHalt_keeps (A := 0x4800004005) rfl (.refl _ s)
  | bootWriteDone => exact execBootWriteDone_keeps (A := 0x4800001005) rfl (.refl _ s)
  | ftRebuildDone => exact execFtRebuildDone_keeps (A := 0x142021) rfl (.refl _ s)
  | ftCopyDone => exact execFtCopyDone_keeps (A := 0x100000) rfl (.refl _ s)
  | claimGrant => exact execClaimGrant_keeps (A := 0x4c3fa4c865) rfl (.refl _ s)
  | heartbeatTx => exact execHeartbeatTx_keeps (A := 0x4810040025) rfl (.refl _ s)
  | recordsTx => exact execRecordsTx_keeps (A := 0x10040021) rfl (.refl _ s)
  | heartbeatMiss => exact execHeartbeatMiss_keeps (A := 0x4810040025) rfl (.refl _ s)
  | witnessTimeout => exact execWitnessTimeout_keeps (A := 0x4810040025) rfl (.refl _ s)
  | witnessRetry => exact execWitnessRetry_keeps (A := 0x10040021) rfl (.refl _ s)
  | switchDeadline => exact execSwitchDeadline_keeps (A := 0x4810000005) rfl (.refl _ s)
  | pageWrite => exact execPageWrite_keeps (A := 0x4c00000005) rfl (.refl _ s)
  | pageTimeout => exact execPageTimeout_keeps (A := 0x4c00000005) rfl (.refl _ s)
  | recWarnLedgerClose => exact execRecWarnLedgerClose_keeps (A := 0x400000000) rfl (.refl _ s)
  | recWarnStop => exact execRecWarnStop_keeps (A := 0x4c00000005) rfl (.refl _ s)
  | safeSealTimeout => exact execSafeSealTimeout_keeps (A := 0x4c00000005) rfl (.refl _ s)
  | verifyDone => exact execVerifyDone_keeps (A := 0x4c00000005) rfl (.refl _ s)
  | hullLinkLost => exact execHullLinkLost_keeps (A := 0x6800000005) rfl (.refl _ s)
  | hullLinkRestored => exact execHullLinkRestored_keeps (A := 0x6800000005) rfl (.refl _ s)
  | railStart => exact execRailStart_keeps (A := 0x2000000000) rfl (.refl _ s)
  | railPowerGood => exact execRailPowerGood_keeps (A := 0x2000000000) rfl (.refl _ s)
  | railStartTimeout => exact execRailStartTimeout_keeps (A := 0x2ffffffffff) rfl (.refl _ s)
  | railRetry => exact execRailRetry_keeps (A := 0x2000000000) rfl (.refl _ s)
  | sagRelease => exact execSagRelease_keeps (A := 0x6c00000005) rfl (.refl _ s)
  | sagHoldExpire => exact execSagHoldExpire_keeps (A := 0x6004800000) rfl (.refl _ s)
  | vbusReset => exact execVbusReset_keeps (A := 0x2ffffffffff) rfl (.refl _ s)
  | vbusResetRelease => exact execVbusResetRelease_keeps (A := 0x2000000000) rfl (.refl _ s)
  | keepGate => exact execKeepGate_keeps (A := 0x2ffffffffff) rfl (.refl _ s)
  | wakeTimer => exact execWakeTimer_keeps (A := 0xa000000000) rfl (.refl _ s)
  | thermTrip => exact execThermTrip_keeps (A := 0x2ffffffffff) rfl (.refl _ s)
  | tripCooled => exact execTripCooled_keeps (A := 0x2000000000) rfl (.refl _ s)
  | ledgerDeliver => exact execLedgerDeliver_keeps (A := 0x4d3db6e865) rfl (.refl _ s)
  | mirrorCopy => exact execMirrorCopy_keeps (A := 0x4000000001) rfl (.refl _ s)
  | safePinQualify => exact execSafePinQualify_keeps (A := 0x4d3db6e865) rfl (.refl _ s)
  | safePinClear => exact execSafePinClear_keeps (A := 0x4000000000) rfl (.refl _ s)
  | responseRun => exact execResponseRun_keeps (A := 0x4c3da0c865) rfl (.refl _ s)
  | rstPinQualify => exact execRstPinQualify_keeps (A := 0x2ffffffffff) rfl (.refl _ s)
  | rstPinRelease => exact execRstPinRelease_keeps (A := 0xa000000000) rfl (.refl _ s)
  | hostResetEnter => exact execHostResetEnter_keeps (A := 0x2ffffffffff) rfl (.refl _ s)
  | startD0Release => exact execStartD0Release_keeps (A := 0xee3da0d8e5) rfl (.refl _ s)
  | bootBankSelect => exact execBootBankSelect_keeps (A := 0xcc3da6db65) rfl (.refl _ s)
  | startFirmware => exact execStartFirmware_keeps (A := 0x6800001005) rfl (.refl _ s)
  | startInstall => exact execStartInstall_keeps (A := 0xcd3db7cfe5) rfl (.refl _ s)
  | startPorts => exact execStartPorts_keeps (A := 0x8000060001) rfl (.refl _ s)
  | startSlow => exact execStartSlow_keeps (A := 0xc000000000) rfl (.refl _ s)
  | spRestartsClear => exact execSpRestartsClear_keeps (A := 0x4000000000) rfl (.refl _ s)
  | hullAlive => exact execHullAlive_keeps (A := 0x2000001000) rfl (.refl _ s)
  | hullPowerUp => exact execHullPowerUp_keeps (A := 0x2ffffffffff) rfl (.refl _ s)
  | vbusBelow18v => exact execVbusBelow18v_keeps (A := 0x2ffffffffff) rfl (.refl _ s)
  | noActiveHeartbeat => exact execNoActiveHeartbeat_keeps (A := 0x10040021) rfl (.refl _ s)
  | switchoverStamp => exact execSwitchoverStamp_keeps (A := 0x4830800005) rfl (.refl _ s)

/-- Settles O6: a part that the command's row does not name is outside its set. -/
theorem commandsChangeOnlyTheirParts : Obligations.CommandsChangeOnlyTheirParts := by
  unfold Obligations.CommandsChangeOnlyTheirParts
  exact fun c s t run p out => (exec_keeps c s t run).same p (changeSet_testBit_of_not_mem out)

/-- A tick changes the clock and the servo alone. -/
theorem State.Canonical.tick {s : State} (h : s.Canonical) : s.tick.Canonical := ⟨h.mem, h.regs, h.latches⟩

/-- Settles O4: a tick touches no map, and every command keeps the maps in canonical form. -/
theorem everyStepKeepsTheCanonicalForm : Obligations.EveryStepKeepsTheCanonicalForm := by
  unfold Obligations.EveryStepKeepsTheCanonicalForm
  intro s t canon run
  unfold step at run
  split at run
  · cases run
    exact canon.tick
  · next c r _ =>
    have keeps := exec_keeps c { s with pending := r } t run
    exact ⟨keeps.mem canon.mem, keeps.regs canon.regs, keeps.latches canon.latches⟩

/-- LEDGER_INTAKE leaves D0 running: it does not touch start-up. -/
theorem running_of_ledgerIntake {a : Nat} {s t : State} (run : exec (.ledgerIntake a) s = .next t) (on : s.running = true) :
    t.running = true := by
  have not_mem : Part.startup ∉ mayChange (.ledgerIntake a) := by simp [mayChange, Part.outputs]
  have same : t.startup = s.startup := (exec_keeps _ s t run).same .startup (changeSet_testBit_of_not_mem not_mem)
  unfold State.running at on ⊢
  rw [same]
  exact on

theorem drains_of_not_mayReset {c : Instr} (h : mayReset c = false) (k : ∀ a, c ≠ .ledgerIntake a) : drains c = false := by
  cases c
  case ledgerIntake a => exact absurd rfl (k a)
  all_goals exact h

/-- Settles O3: what every command keeps, and LEDGER_INTAKE apart. -/
theorem commandsLeaveQueueTimeAndHistory : Obligations.CommandsLeaveQueueTimeAndHistory := by
  unfold Obligations.CommandsLeaveQueueTimeAndHistory
  intro c s t run
  have keeps := exec_keeps c s t run
  refine ⟨keeps.pending, keeps.now, keeps.wire, keeps.fresh, fun stays => ⟨fun on => ?_, fun other => ?_⟩⟩
  · by_cases intake : ∃ a, c = .ledgerIntake a
    · obtain ⟨a, rfl⟩ := intake
      exact running_of_ledgerIntake run on
    · exact decide_eq_true (keeps.runs (changeSet_drainBit (drains_of_not_mayReset stays fun a e => intake ⟨a, e⟩)) (of_decide_eq_true on))
  · exact keeps.noted (changeSet_drainBit (drains_of_not_mayReset stays other))

end Sys2Proof.Machine
end

section
/-!
PROOF. Every command completes: each branch of each meaning answers a next state, but for a feed above 80 V (R416).
-/

namespace Sys2Proof.Machine

/-- A meaning answers a next state. -/
def Answers (o : Out) : Prop := ∃ t, o = .next t

theorem Answers.next (t : State) : Answers (.next t) := ⟨t, rfl⟩

theorem Answers.ite {c : Prop} [Decidable c] {a b : Out} (h : Answers a) (k : Answers b) : Answers (if c then a else b) := by
  split
  · exact h
  · exact k

theorem execSyncTimeout_answers {s : State} {inst} : Answers (execSyncTimeout inst s) := by
  unfold execSyncTimeout
  dsimp only
  repeat' split
  all_goals exact .next _

theorem execAnnounceTimeout_answers {s : State} {inst} : Answers (execAnnounceTimeout inst s) := by
  unfold execAnnounceTimeout
  dsimp only
  repeat' split
  all_goals exact .next _

theorem execMonitorWindowEnd_answers {s : State} {clock} {periods} : Answers (execMonitorWindowEnd clock periods s) := by
  unfold execMonitorWindowEnd
  repeat' split
  all_goals exact .next _

theorem execMonitorEdgeTimeout_answers {s : State} {clock} : Answers (execMonitorEdgeTimeout clock s) := by
  unfold execMonitorEdgeTimeout
  repeat' split
  all_goals exact .next _

theorem execArmHiWrite_answers {s : State} {agent} {pin} {value} : Answers (execArmHiWrite agent pin value s) := by
  unfold execArmHiWrite
  dsimp only
  repeat' split
  all_goals exact .next _

theorem execTioPulseEdge_answers {s : State} {pin} : Answers (execTioPulseEdge pin s) := by
  unfold execTioPulseEdge
  dsimp only
  repeat' split
  all_goals exact .next _

theorem execTioPulseEnd_answers {s : State} {pin} : Answers (execTioPulseEnd pin s) := by
  unfold execTioPulseEnd
  repeat' split
  all_goals exact .next _

theorem execTioLevelQualified_answers {s : State} {pin} : Answers (execTioLevelQualified pin s) := by
  unfold execTioLevelQualified
  dsimp only
  repeat' split
  all_goals exact .next _

theorem execTioStuckTimeout_answers {s : State} {pin} : Answers (execTioStuckTimeout pin s) := by
  unfold execTioStuckTimeout
  dsimp only
  repeat' split
  all_goals exact .next _

theorem execTioRelease_answers {s : State} {agent} {pin} : Answers (execTioRelease agent pin s) := by
  unfold execTioRelease
  dsimp only
  repeat' split
  all_goals exact .next _

theorem execValidationDone_answers {s : State} {slot} : Answers (execValidationDone slot s) := by
  unfold execValidationDone
  dsimp only
  repeat' split
  all_goals exact .next _

theorem execCommitIssue_answers {s : State} {agent} : Answers (execCommitIssue agent s) := by
  unfold execCommitIssue
  repeat' split
  all_goals exact .next _

theorem execRipenDone_answers {s : State} {domain} {tile} {failedStage} : Answers (execRipenDone domain tile failedStage s) := by
  unfold execRipenDone
  dsimp only
  repeat' split
  all_goals exact .next _

theorem execGoPoint_answers {s : State} {ticket} : Answers (execGoPoint ticket s) := by
  unfold execGoPoint
  repeat' split
  all_goals exact .next _

theorem execCommitCancel_answers {s : State} {agent} {ticket} : Answers (execCommitCancel agent ticket s) := by
  unfold execCommitCancel
  repeat' split
  all_goals exact .next _

theorem execFwAliveTimeout_answers {s : State} {processor} : Answers (execFwAliveTimeout processor s) := by
  unfold execFwAliveTimeout
  dsimp only
  repeat' split
  all_goals exact .next _

theorem execBootWrite_answers {s : State} {agent} {bank} {slot} : Answers (execBootWrite agent bank slot s) := by
  unfold execBootWrite
  dsimp only
  repeat' split
  all_goals exact .next _

theorem execFrameRx_answers {s : State} {port} {bytes} {fcsOk} : Answers (execFrameRx port bytes fcsOk s) := by
  unfold execFrameRx
  dsimp only
  repeat' split
  all_goals exact .next _

theorem execFtAdd_answers {s : State} {agent} : Answers (execFtAdd agent s) := by
  unfold execFtAdd
  dsimp only
  repeat' split
  all_goals exact .next _

theorem execFtRemove_answers {s : State} {agent} : Answers (execFtRemove agent s) := by
  unfold execFtRemove
  dsimp only
  repeat' split
  all_goals exact .next _

theorem execFtLookup_answers {s : State} {agent} : Answers (execFtLookup agent s) := by
  unfold execFtLookup
  repeat' split
  all_goals exact .next _

theorem execRingEnable_answers {s : State} {agent} {ring} {size} : Answers (execRingEnable agent ring size s) := by
  unfold execRingEnable
  dsimp only
  repeat' split
  all_goals exact .next _

theorem execStripeGapTimeout_answers {s : State} {channel} : Answers (execStripeGapTimeout channel s) := by
  unfold execStripeGapTimeout
  dsimp only
  repeat' split
  all_goals exact .next _

theorem execMergeSkewTimeout_answers {s : State} {flow} {seq} : Answers (execMergeSkewTimeout flow seq s) := by
  unfold execMergeSkewTimeout
  repeat' split
  all_goals exact .next _

theorem execPathSilenceTimeout_answers {s : State} {flow} {pathB} : Answers (execPathSilenceTimeout flow pathB s) := by
  unfold execPathSilenceTimeout
  dsimp only
  repeat' split
  all_goals exact .next _

theorem execSurfaceFrameClose_answers {s : State} {surface} {frame} : Answers (execSurfaceFrameClose surface frame s) := by
  unfold execSurfaceFrameClose
  repeat' split
  all_goals exact .next _

theorem execSurfaceCloseTimeout_answers {s : State} {surface} {frame} : Answers (execSurfaceCloseTimeout surface frame s) := by
  unfold execSurfaceCloseTimeout
  repeat' split
  all_goals exact .next _

theorem execLaneAdaptConverged_answers {s : State} {lane} {fom} : Answers (execLaneAdaptConverged lane fom s) := by
  unfold execLaneAdaptConverged
  dsimp only
  repeat' split
  all_goals exact .next _

theorem execBackoffRetry_answers {s : State} {port} : Answers (execBackoffRetry port s) := by
  unfold execBackoffRetry
  dsimp only
  repeat' split
  all_goals exact .next _

theorem execLaneLowFom_answers {s : State} {lane} : Answers (execLaneLowFom lane s) := by
  unfold execLaneLowFom
  dsimp only
  repeat' split
  all_goals exact .next _

theorem execFomBelowMin_answers {s : State} {lane} : Answers (execFomBelowMin lane s) := by
  unfold execFomBelowMin
  repeat' split
  all_goals exact .next _

theorem execFecUncorrBurst_answers {s : State} {port} {codewords} : Answers (execFecUncorrBurst port codewords s) := by
  unfold execFecUncorrBurst
  dsimp only
  repeat' split
  all_goals exact .next _

theorem execFecDegrade_answers {s : State} {port} {symbols} {codewords} {corrected} : Answers (execFecDegrade port symbols codewords corrected s) := by
  unfold execFecDegrade
  dsimp only
  repeat' split
  all_goals exact .next _

theorem execOptModuleReady_answers {s : State} {event} : Answers (execOptModuleReady event s) := by
  unfold execOptModuleReady
  dsimp only
  repeat' split
  all_goals exact .next _

theorem execOptSdaStuck_answers {s : State} {bus} {freed} : Answers (execOptSdaStuck bus freed s) := by
  unfold execOptSdaStuck
  dsimp only
  repeat' split
  all_goals exact .next _

theorem execLaneTakeCurd_answers {s : State} {channel} {take} : Answers (execLaneTakeCurd channel take s) := by
  unfold execLaneTakeCurd
  dsimp only
  repeat' split
  all_goals exact .next _

theorem execCurdSelect_answers {s : State} {channel} {lane} : Answers (execCurdSelect channel lane s) := by
  unfold execCurdSelect
  dsimp only
  repeat' split
  all_goals exact .next _

theorem execVerdict_answers {s : State} {channel} {stripe} {k} {injected} : Answers (execVerdict channel stripe k injected s) := by
  unfold execVerdict
  dsimp only
  repeat' split
  all_goals exact .next _

theorem execCurdLateHandover_answers {s : State} {channel} {stripe} {k} : Answers (execCurdLateHandover channel stripe k s) := by
  unfold execCurdLateHandover
  dsimp only
  split <;> exact .next _

theorem execPackedPacketTimeout_answers {s : State} {channel} : Answers (execPackedPacketTimeout channel s) := by
  unfold execPackedPacketTimeout
  dsimp only
  repeat' split
  all_goals exact .next _

theorem execPacketDepart_answers {s : State} {port} : Answers (execPacketDepart port s) := by
  unfold execPacketDepart
  dsimp only
  repeat' split
  all_goals exact .next _

theorem execChannelEovRepeat_answers {s : State} {channel} : Answers (execChannelEovRepeat channel s) := by
  unfold execChannelEovRepeat
  dsimp only
  repeat' split
  all_goals exact .next _

theorem execCoderWatchdog_answers {s : State} {coder} : Answers (execCoderWatchdog coder s) := by
  unfold execCoderWatchdog
  dsimp only
  repeat' split
  all_goals exact .next _

theorem execRindMove_answers {s : State} {agent} {channel} {value} : Answers (execRindMove agent channel value s) := by
  unfold execRindMove
  dsimp only
  repeat' split
  all_goals exact .next _

theorem execClaimForget_answers {s : State} {surface} : Answers (execClaimForget surface s) := by
  unfold execClaimForget
  dsimp only
  repeat' split
  all_goals exact .next _

theorem execHeartbeatRx_answers {s : State} {bytes} : Answers (execHeartbeatRx bytes s) := by
  unfold execHeartbeatRx
  repeat' split
  all_goals exact .next _

theorem execHeadLineStart_answers {s : State} {head} {fill} : Answers (execHeadLineStart head fill s) := by
  unfold execHeadLineStart
  extract_lets
  refine .ite (.next _) ?_
  extract_lets
  refine .ite (.ite (.next _) (.next _)) (.ite ?_ (.next _))
  split
  · exact .ite (.ite (.next _) (.next _)) (.next _)
  · exact .ite (.next _) (.ite (.next _) (.next _))

theorem execHeadFrameDone_answers {s : State} {head} : Answers (execHeadFrameDone head s) := by
  unfold execHeadFrameDone
  extract_lets
  refine .ite (.next _) ?_
  split <;> exact .next _

theorem execHeadEovRepeat_answers {s : State} {head} : Answers (execHeadEovRepeat head s) := by
  unfold execHeadEovRepeat
  dsimp only
  repeat' split
  all_goals exact .next _

theorem execHeadRetest_answers {s : State} {agent} {head} : Answers (execHeadRetest agent head s) := by
  unfold execHeadRetest
  dsimp only
  repeat' split
  all_goals exact .next _

theorem execUnitCheckFail_answers {s : State} {scaler} {unit} : Answers (execUnitCheckFail scaler unit s) := by
  unfold execUnitCheckFail
  dsimp only
  repeat' split
  all_goals exact .next _

theorem execMemRequestServe_answers {s : State} {channel} {arriving} {errors} : Answers (execMemRequestServe channel arriving errors s) := by
  unfold execMemRequestServe
  dsimp only
  repeat' split
  all_goals exact .next _

theorem execTrainingForce_answers {s : State} {channel} : Answers (execTrainingForce channel s) := by
  unfold execTrainingForce
  dsimp only
  repeat' split
  all_goals exact .next _

theorem execTrainingDone_answers {s : State} {channel} {readMargin} {writeMargin} : Answers (execTrainingDone channel readMargin writeMargin s) := by
  unfold execTrainingDone
  repeat' first | exact .next _ | split | dsimp only

theorem execPatrolScrub_answers {s : State} {errors} : Answers (execPatrolScrub errors s) := by
  unfold execPatrolScrub
  extract_lets
  refine .ite (.next _) ?_
  split
  extract_lets
  refine .ite (.next _) ?_
  extract_lets
  exact .ite (.next _) (.ite (.ite (.next _) (.next _)) (.next _))

theorem execDupCopyDone_answers {s : State} {region} {extent} : Answers (execDupCopyDone region extent s) := by
  unfold execDupCopyDone
  dsimp only
  repeat' split
  all_goals exact .next _

theorem execSurfaceWriteTimeout_answers {s : State} {group} {surface} {slot} {frame} : Answers (execSurfaceWriteTimeout group surface slot frame s) := by
  unfold execSurfaceWriteTimeout
  dsimp only
  repeat' split
  all_goals exact .next _

theorem execRecordAdmit_answers {s : State} {source} : Answers (execRecordAdmit source s) := by
  unfold execRecordAdmit
  repeat' split
  all_goals exact .next _

theorem execWheelSign_answers {s : State} {wheel} : Answers (execWheelSign wheel s) := by
  unfold execWheelSign
  repeat' split
  all_goals exact .next _

theorem execExportOpen_answers {s : State} {agent} : Answers (execExportOpen agent s) := by
  unfold execExportOpen
  dsimp only
  repeat' split
  all_goals exact .next _

theorem execExportClose_answers {s : State} {agent} : Answers (execExportClose agent s) := by
  unfold execExportClose
  split <;> exact .next _

theorem execExportIdleTimeout_answers {s : State} {session} : Answers (execExportIdleTimeout session s) := by
  unfold execExportIdleTimeout
  split <;> exact .next _

theorem execNandProgramFail_answers {s : State} {block} : Answers (execNandProgramFail block s) := by
  unfold execNandProgramFail
  repeat' split
  all_goals exact .next _

theorem execCoreWatchdogExpire_answers {s : State} {processor} : Answers (execCoreWatchdogExpire processor s) := by
  unfold execCoreWatchdogExpire
  dsimp only
  repeat' split
  all_goals exact .next _

theorem execCoreAlive_answers {s : State} {agent} {processor} : Answers (execCoreAlive agent processor s) := by
  unfold execCoreAlive
  dsimp only
  repeat' split
  all_goals exact .next _

theorem execIrqClaim_answers {s : State} {agent} {target} : Answers (execIrqClaim agent target s) := by
  unfold execIrqClaim
  dsimp only
  repeat' split
  all_goals exact .next _

theorem execIrqNoTarget_answers {s : State} {source} : Answers (execIrqNoTarget source s) := by
  unfold execIrqNoTarget
  dsimp only
  repeat' split
  all_goals exact .next _

theorem execRtArm_answers {s : State} {agent} {timer} {value} : Answers (execRtArm agent timer value s) := by
  unfold execRtArm
  dsimp only
  repeat' split
  all_goals exact .next _

theorem execRtExpire_answers {s : State} {timer} : Answers (execRtExpire timer s) := by
  unfold execRtExpire
  repeat' split
  all_goals exact .next _

theorem execChkEnd_answers {s : State} {agent} {channel} : Answers (execChkEnd agent channel s) := by
  unfold execChkEnd
  dsimp only
  repeat' split
  all_goals exact .next _

theorem execMdpOpen_answers {s : State} {route} {datagram} : Answers (execMdpOpen route datagram s) := by
  unfold execMdpOpen
  dsimp only
  repeat' split
  all_goals exact .next _

theorem execNotifySend_answers {s : State} {session} : Answers (execNotifySend session s) := by
  unfold execNotifySend
  dsimp only
  repeat' split
  all_goals exact .next _

theorem execNotifyRetx_answers {s : State} {session} : Answers (execNotifyRetx session s) := by
  unfold execNotifyRetx
  dsimp only
  repeat' split
  all_goals exact .next _

theorem execStateNotify_answers {s : State} {session} : Answers (execStateNotify session s) := by
  unfold execStateNotify
  dsimp only
  repeat' split
  all_goals exact .next _

theorem execMpAdmin_answers {s : State} {agent} {m1} {admin} : Answers (execMpAdmin agent m1 admin s) := by
  unfold execMpAdmin
  dsimp only
  repeat' split
  all_goals exact .next _

theorem execFeedClassChange_answers {s : State} {feedB : Bool} {millivolts : Nat} (h : millivolts ≤ 80000) :
    Answers (execFeedClassChange feedB millivolts s) := by
  unfold execFeedClassChange
  rw [if_neg (Nat.not_lt.mpr h)]
  refine .ite (.next _) ?_
  dsimp only
  split <;> exact .next _

theorem execFeedOver_answers {s : State} {feedB : Bool} {millivolts : Nat} (h : millivolts ≤ 80000) :
    Answers (execFeedOver feedB millivolts s) := by
  unfold execFeedOver
  rw [if_neg (Nat.not_lt.mpr h)]
  exact .ite (.next _) (.next _)

theorem execPowerReqRun_answers {s : State} {agent} : Answers (execPowerReqRun agent s) := by
  unfold execPowerReqRun
  repeat' split
  all_goals exact .next _

theorem execPowerReqTrim_answers {s : State} {agent} : Answers (execPowerReqTrim agent s) := by
  unfold execPowerReqTrim
  repeat' split
  all_goals exact .next _

theorem execPowerReqKeep_answers {s : State} {agent} {confirm} : Answers (execPowerReqKeep agent confirm s) := by
  unfold execPowerReqKeep
  repeat' split
  all_goals exact .next _

theorem execPowerReqOff_answers {s : State} {agent} {confirm} {wake} : Answers (execPowerReqOff agent confirm wake s) := by
  unfold execPowerReqOff
  repeat' split
  all_goals exact .next _

theorem execRelCtrlOne_answers {s : State} {agent} {kind} {index} : Answers (execRelCtrlOne agent kind index s) := by
  unfold execRelCtrlOne
  dsimp only
  repeat' split
  all_goals exact .next _

theorem execSafeRelease_answers {s : State} {agent} : Answers (execSafeRelease agent s) := by
  unfold execSafeRelease
  repeat' split
  all_goals exact .next _

theorem execHostReset_answers {s : State} {agent} {confirm} : Answers (execHostReset agent confirm s) := by
  unfold execHostReset
  repeat' split
  all_goals exact .next _

theorem execCoderSelfCheckFail_answers {s : State} {coder} {store} : Answers (execCoderSelfCheckFail coder store s) := by
  unfold execCoderSelfCheckFail
  dsimp only
  repeat' split
  all_goals exact .next _

theorem execRaisedCauseClear_answers {s : State} {out} {cls} : Answers (execRaisedCauseClear out cls s) := by
  unfold execRaisedCauseClear
  repeat' split
  all_goals exact .next _

theorem execQuarantineExpire_answers {s : State} : Answers (execQuarantineExpire s) := by
  unfold execQuarantineExpire
  repeat' split
  all_goals exact .next _

theorem execRefInPpsEdge_answers {s : State} : Answers (execRefInPpsEdge s) := by
  unfold execRefInPpsEdge
  dsimp only
  repeat' split
  all_goals exact .next _

theorem execRollStep_answers {s : State} : Answers (execRollStep s) := by
  unfold execRollStep
  repeat' split
  all_goals exact .next _

theorem execRollStepSchedule_answers {s : State} : Answers (execRollStepSchedule s) := by
  unfold execRollStepSchedule
  dsimp only
  repeat' split
  all_goals exact .next _

theorem execRollHalt_answers {s : State} : Answers (execRollHalt s) := by
  unfold execRollHalt
  repeat' split
  all_goals exact .next _

theorem execBootWriteDone_answers {s : State} : Answers (execBootWriteDone s) := by
  unfold execBootWriteDone
  dsimp only
  repeat' split
  all_goals exact .next _

theorem execFtRebuildDone_answers {s : State} : Answers (execFtRebuildDone s) := by
  unfold execFtRebuildDone
  dsimp only
  repeat' split
  all_goals exact .next _

theorem execClaimGrant_answers {s : State} : Answers (execClaimGrant s) := by
  unfold execClaimGrant
  repeat' split
  all_goals exact .next _

theorem execHeartbeatMiss_answers {s : State} : Answers (execHeartbeatMiss s) := by
  unfold execHeartbeatMiss
  repeat' split
  all_goals exact .next _

theorem execWitnessTimeout_answers {s : State} : Answers (execWitnessTimeout s) := by
  unfold execWitnessTimeout
  dsimp only
  repeat' split
  all_goals exact .next _

theorem execWitnessRetry_answers {s : State} : Answers (execWitnessRetry s) := by
  unfold execWitnessRetry
  dsimp only
  repeat' split
  all_goals exact .next _

theorem execSwitchDeadline_answers {s : State} : Answers (execSwitchDeadline s) := by
  unfold execSwitchDeadline
  repeat' split
  all_goals exact .next _

theorem execPageWrite_answers {s : State} : Answers (execPageWrite s) := by
  unfold execPageWrite
  dsimp only
  repeat' split
  all_goals exact .next _

theorem execPageTimeout_answers {s : State} : Answers (execPageTimeout s) := by
  unfold execPageTimeout
  dsimp only
  repeat' split
  all_goals exact .next _

theorem execRecWarnLedgerClose_answers {s : State} : Answers (execRecWarnLedgerClose s) := by
  unfold execRecWarnLedgerClose
  split <;> exact .next _

theorem execRecWarnStop_answers {s : State} : Answers (execRecWarnStop s) := by
  unfold execRecWarnStop
  repeat' split
  all_goals exact .next _

theorem execSafeSealTimeout_answers {s : State} : Answers (execSafeSealTimeout s) := by
  unfold execSafeSealTimeout
  split <;> exact .next _

theorem execVerifyDone_answers {s : State} : Answers (execVerifyDone s) := by
  unfold execVerifyDone
  split <;> exact .next _

theorem execRailPowerGood_answers {s : State} : Answers (execRailPowerGood s) := by
  unfold execRailPowerGood
  split <;> exact .next _

theorem execRailStartTimeout_answers {s : State} : Answers (execRailStartTimeout s) := by
  unfold execRailStartTimeout
  repeat' split
  all_goals exact .next _

theorem execRailRetry_answers {s : State} : Answers (execRailRetry s) := by
  unfold execRailRetry
  repeat' split
  all_goals exact .next _

theorem execSagHoldExpire_answers {s : State} : Answers (execSagHoldExpire s) := by
  unfold execSagHoldExpire
  repeat' split
  all_goals exact .next _

theorem execKeepGate_answers {s : State} : Answers (execKeepGate s) := by
  unfold execKeepGate
  repeat' split
  all_goals exact .next _

theorem execWakeTimer_answers {s : State} : Answers (execWakeTimer s) := by
  unfold execWakeTimer
  repeat' split
  all_goals exact .next _

theorem execMirrorCopy_answers {s : State} : Answers (execMirrorCopy s) := by
  unfold execMirrorCopy
  repeat' split
  all_goals exact .next _

theorem execResponseRun_answers {s : State} : Answers (execResponseRun s) := by
  unfold execResponseRun
  repeat' split
  all_goals exact .next _

theorem execHostResetEnter_answers {s : State} : Answers (execHostResetEnter s) := by
  unfold execHostResetEnter
  repeat' split
  all_goals exact .next _

theorem execSwitchoverStamp_answers {s : State} : Answers (execSwitchoverStamp s) := by
  unfold execSwitchoverStamp
  repeat' split
  all_goals exact .next _

/-- Every command but one at a feed above 80 V answers a next state. -/
theorem exec_answers (c : Instr) (s : State) (classes : ∀ f v, c = .feedClassChange f v → v ≤ 80000)
    (overs : ∀ f v, c = .feedOver f v → v ≤ 80000) : Answers (exec c s) := by
  cases c with
  | registerWrite => exact .ite (.next _) (.ite (.next _) (.next _))
  | ptpMessageRx => exact .next _
  | delayReqTx => exact .ite (.next _) (.next _)
  | syncTimeout => exact execSyncTimeout_answers
  | announceTimeout => exact execAnnounceTimeout_answers
  | leadingSyncTx => exact .ite (.next _) (.next _)
  | leadingAnnounceTx => exact .ite (.next _) (.next _)
  | suspectClr => exact .ite (.next _) (.next _)
  | forceHold => exact .ite (.next _) (.next _)
  | monitorWindowEnd => exact execMonitorWindowEnd_answers
  | monitorEdgeTimeout => exact execMonitorEdgeTimeout_answers
  | rennetPoint => exact .ite (.next _) (.next _)
  | stampLoRead => exact .ite (.next _) (.next _)
  | armHiWrite agent _ _ => exact execArmHiWrite_answers (agent := agent)
  | tioPulseEdge => exact execTioPulseEdge_answers
  | tioPulseEnd => exact execTioPulseEnd_answers
  | tioInputTransition => exact .ite (.next _) (.next _)
  | tioLevelQualified => exact execTioLevelQualified_answers
  | tioStuckTimeout => exact execTioStuckTimeout_answers
  | tioRelease agent _ => exact execTioRelease_answers (agent := agent)
  | tioFlush => exact .ite (.next _) (.next _)
  | capLoRead => exact .ite (.next _) (.next _)
  | slotCheck => exact .ite (.next _) (.ite (.next _) (.next _))
  | validationDone => exact execValidationDone_answers
  | slotCtrlClear => exact .ite (.next _) (.ite (.next _) (.next _))
  | commitIssue => exact execCommitIssue_answers
  | ripenDone => exact execRipenDone_answers
  | goPoint => exact execGoPoint_answers
  | commitCancel agent _ => exact execCommitCancel_answers (agent := agent)
  | floorRaise => exact .ite (.next _) (.next _)
  | stagedWrite => exact .ite (.next _) (.ite (.next _) (.next _))
  | fwAliveTimeout => exact execFwAliveTimeout_answers
  | fwConfirm => exact .ite (.next _) (.next _)
  | fwRevert => exact .ite (.next _) (.next _)
  | bootWrite => exact execBootWrite_answers
  | bootPrefer => exact .ite (.next _) (.ite (.next _) (.next _))
  | frameRx => exact execFrameRx_answers
  | ftAdd => exact execFtAdd_answers
  | ftRemove => exact execFtRemove_answers
  | ftRead => exact .ite (.next _) (.next _)
  | ftLookup => exact execFtLookup_answers
  | ringEnable agent _ _ => exact execRingEnable_answers (agent := agent)
  | inputLossTimeout => exact .ite (.next _) (.next _)
  | stripeGapTimeout => exact execStripeGapTimeout_answers
  | mergeSkewTimeout => exact execMergeSkewTimeout_answers
  | pathSilenceTimeout => exact execPathSilenceTimeout_answers
  | surfaceFrameClose => exact execSurfaceFrameClose_answers
  | surfaceCloseTimeout => exact execSurfaceCloseTimeout_answers
  | laneSignalDetect => exact .ite (.next _) (.next _)
  | laneAdaptConverged => exact execLaneAdaptConverged_answers
  | pcsLock => exact .ite (.next _) (.next _)
  | portUp => exact .ite (.next _) (.next _)
  | bringupStepTimeout => exact .ite (.next _) (.next _)
  | backoffRetry => exact execBackoffRetry_answers
  | adaptStep => exact .ite (.next _) (.next _)
  | laneLowFom => exact execLaneLowFom_answers
  | fomBelowMin => exact execFomBelowMin_answers
  | pcsAlignmentLoss => exact .next _
  | fecUncorrBurst => exact execFecUncorrBurst_answers
  | linkFaultPersist => exact .ite (.next _) (.next _)
  | fecDegrade => exact execFecDegrade_answers
  | optRemoved => exact .ite (.next _) (.next _)
  | optInserted => exact .ite (.next _) (.next _)
  | optModuleReady => exact execOptModuleReady_answers
  | portAdmin => exact .ite (.next _) (.next _)
  | retryNow => exact .ite (.next _) (.next _)
  | laneLoop => exact .ite (.next _) (.ite (.next _) (.next _))
  | lanePrbs => exact .ite (.next _) (.ite (.next _) (.next _))
  | laneFreeze => exact .ite (.next _) (.next _)
  | fomRead => exact .ite (.next _) (.next _)
  | optPoll => exact .ite (.next _) (.next _)
  | optCmd => exact .ite (.next _) (.ite (.next _) (.next _))
  | optCmdDone => exact .ite (.next _) (.next _)
  | optSdaStuck => exact execOptSdaStuck_answers
  | optResetBus => exact .ite (.next _) (.next _)
  | laneTakeCurd => exact execLaneTakeCurd_answers
  | curdSelect => exact execCurdSelect_answers
  | verdict => exact execVerdict_answers
  | verdictDeadline => exact .next _
  | curdLateHandover => exact execCurdLateHandover_answers
  | packedPacketTimeout => exact execPackedPacketTimeout_answers
  | packetDepart => exact execPacketDepart_answers
  | channelEovRepeat => exact execChannelEovRepeat_answers
  | signaturePrefetchDone => exact .ite (.next _) (.next _)
  | signatureWriteTimeout => exact .next _
  | coderEccFault => exact .next _
  | coderClockLoss => exact .next _
  | coderWatchdog => exact execCoderWatchdog_answers
  | rindMove agent _ _ => exact execRindMove_answers (agent := agent)
  | coderRetest => exact .ite (.next _) (.next _)
  | coderRetire => exact .ite (.next _) (.next _)
  | claimForget => exact execClaimForget_answers
  | heartbeatRx => exact execHeartbeatRx_answers
  | recordsRx => exact .next _
  | handoverRx => exact .next _
  | answerRx => exact .next _
  | promotedChannelStart => exact .ite (.next _) (.next _)
  | probeRx => exact .next _
  | pairSwitch => exact .ite (.next _) (.ite (.next _) (.next _))
  | headLineStart => exact execHeadLineStart_answers
  | headFrameStart => exact .ite (.next _) (.ite (.next _) (.next _))
  | headFrameDone => exact execHeadFrameDone_answers
  | headEovRepeat => exact execHeadEovRepeat_answers
  | headRetest agent _ => exact execHeadRetest_answers (agent := agent)
  | unitCheckFail => exact execUnitCheckFail_answers
  | readerRetest => exact .next _
  | scalerRetest => exact .next _
  | audioFrameBoundary => exact .ite (.next _) (.next _)
  | audioSlip => exact .ite (.next _) (.next _)
  | micStuckTimeout => exact .ite (.next _) (.next _)
  | memRequestServe => exact execMemRequestServe_answers
  | memStarvationRaise => exact .next _
  | refreshDue => exact .ite (.next _) (.ite (.next _) (.next _))
  | refreshPayback => exact .ite (.next _) (.next _)
  | mr4Poll => exact .ite (.next _) (.ite (.next _) (.next _))
  | trainingDue => exact .ite (.next _) (.next _)
  | trainingStep => exact .ite (.next _) (.next _)
  | trainingForce => exact execTrainingForce_answers
  | trainingDone => exact execTrainingDone_answers
  | trainNow => exact .ite (.next _) (.next _)
  | memChannelSilent => exact .ite (.next _) (.next _)
  | memRetire => exact .ite (.next _) (.next _)
  | remapDone => exact .ite (.next _) (.next _)
  | patrolScrub => exact execPatrolScrub_answers
  | dupCopyDone => exact execDupCopyDone_answers
  | surfaceWriteTimeout => exact execSurfaceWriteTimeout_answers
  | recordAdmit => exact execRecordAdmit_answers
  | wheelSign => exact execWheelSign_answers
  | sealNow => exact .ite (.next _) (.next _)
  | exportOpen => exact execExportOpen_answers
  | exportClose => exact execExportClose_answers
  | exportIdleTimeout => exact execExportIdleTimeout_answers
  | verify => exact .ite (.next _) (.next _)
  | nandProgramFail => exact execNandProgramFail_answers
  | codeFetchError => exact .ite (.next _) (.next _)
  | sramUncorr => exact .ite (.next _) (.next _)
  | coreWfi => exact .ite (.next _) (.next _)
  | corePark => exact .ite (.next _) (.next _)
  | coreResume => exact .ite (.next _) (.next _)
  | coreWatchdogExpire => exact execCoreWatchdogExpire_answers
  | wdtKick => exact .ite (.next _) (.next _)
  | coreAlive => exact execCoreAlive_answers
  | spLockstepMismatch => exact .ite (.next _) (.next _)
  | irqEvent => exact .next _
  | irqClaim => exact execIrqClaim_answers
  | irqComplete => exact .ite (.next _) (.ite (.next _) (.next _))
  | srcCfgWrite => exact .ite (.next _) (.ite (.next _) (.next _))
  | thresholdWrite => exact .next _
  | swiSet => exact .next _
  | srcCntSatClear => exact .next _
  | irqNoTarget => exact execIrqNoTarget_answers
  | rtArm => exact execRtArm_answers
  | rtExpire => exact execRtExpire_answers
  | rtDisarm => exact .ite (.next _) (.ite (.next _) (.next _))
  | chkStart => exact .ite (.next _) (.ite (.next _) (.next _))
  | chkData => exact .ite (.next _) (.ite (.next _) (.next _))
  | chkEnd => exact execChkEnd_answers
  | mdpOpen => exact execMdpOpen_answers
  | mdpIdentify => exact .ite (.next _) (.ite (.next _) (.next _))
  | mdpRequest => exact .next _
  | mdpAck => exact .next _
  | mdpClose => exact .next _
  | read => exact .next _
  | write => exact .next _
  | modify => exact .next _
  | blockRead => exact .next _
  | blockWrite => exact .next _
  | subscribe => exact .next _
  | unsubscribe => exact .next _
  | attest => exact .next _
  | enrol => exact .next _
  | slotWrite => exact .next _
  | slotClear => exact .next _
  | disown => exact .next _
  | nop => exact .next _
  | sessionIdle => exact .ite (.next _) (.next _)
  | sessionKill => exact .ite (.next _) (.next _)
  | notifySend => exact execNotifySend_answers
  | notifyRetx => exact execNotifyRetx_answers
  | stateNotify => exact execStateNotify_answers
  | mpAdmin agent _ _ => exact execMpAdmin_answers (agent := agent)
  | feedClassChange => exact execFeedClassChange_answers (classes _ _ rfl)
  | feedOver => exact execFeedOver_answers (overs _ _ rfl)
  | feedHighTimeout => exact .ite (.next _) (.next _)
  | feedStageClose => exact .ite (.next _) (.next _)
  | railFault => exact .ite (.next _) (.next _)
  | hullSag => exact .ite (.next _) (.next _)
  | powerReqRun agent => exact execPowerReqRun_answers (agent := agent)
  | powerReqTrim agent => exact execPowerReqTrim_answers (agent := agent)
  | powerReqKeep agent _ => exact execPowerReqKeep_answers (agent := agent)
  | powerReqOff agent _ _ => exact execPowerReqOff_answers (agent := agent)
  | thermSample => exact .ite (.next _) (.next _)
  | telemetryRefresh => exact .ite (.next _) (.next _)
  | ledgerIntake => exact .next _
  | quietExpire => exact .next _
  | relCtrlOne => exact execRelCtrlOne_answers
  | relCtrlAll => exact .ite (.next _) (.ite (.next _) (.next _))
  | safeNTransition => exact .ite (.next _) (.next _)
  | safeEnter => exact .next _
  | safeRelease => exact execSafeRelease_answers
  | rstNTransition => exact .ite (.next _) (.ite (.next _) (.next _))
  | hostReset => exact execHostReset_answers
  | coderSelfCheckFail => exact execCoderSelfCheckFail_answers
  | claimStormClear => exact .ite (.next _) (.next _)
  | raisedCauseClear => exact execRaisedCauseClear_answers
  | processorRestartDone => exact .ite (.next _) (.next _)
  | quarantineExpire => exact execQuarantineExpire_answers
  | holdLimitReached => exact .ite (.next _) (.next _)
  | refInPpsEdge => exact execRefInPpsEdge_answers
  | rollStep => exact execRollStep_answers
  | rollStepSchedule => exact execRollStepSchedule_answers
  | rollHalt => exact execRollHalt_answers
  | bootWriteDone => exact execBootWriteDone_answers
  | ftRebuildDone => exact execFtRebuildDone_answers
  | ftCopyDone => exact .ite (.next _) (.next _)
  | claimGrant => exact execClaimGrant_answers
  | heartbeatTx => exact .ite (.next _) (.next _)
  | recordsTx => exact .ite (.next _) (.next _)
  | heartbeatMiss => exact execHeartbeatMiss_answers
  | witnessTimeout => exact execWitnessTimeout_answers
  | witnessRetry => exact execWitnessRetry_answers
  | switchDeadline => exact execSwitchDeadline_answers
  | pageWrite => exact execPageWrite_answers
  | pageTimeout => exact execPageTimeout_answers
  | recWarnLedgerClose => exact execRecWarnLedgerClose_answers
  | recWarnStop => exact execRecWarnStop_answers
  | safeSealTimeout => exact execSafeSealTimeout_answers
  | verifyDone => exact execVerifyDone_answers
  | hullLinkLost => exact .ite (.next _) (.next _)
  | hullLinkRestored => exact .ite (.next _) (.next _)
  | railStart => exact .next _
  | railPowerGood => exact execRailPowerGood_answers
  | railStartTimeout => exact execRailStartTimeout_answers
  | railRetry => exact execRailRetry_answers
  | sagRelease => exact .ite (.next _) (.next _)
  | sagHoldExpire => exact execSagHoldExpire_answers
  | vbusReset => exact .ite (.next _) (.next _)
  | vbusResetRelease => exact .next _
  | keepGate => exact execKeepGate_answers
  | wakeTimer => exact execWakeTimer_answers
  | thermTrip => exact .ite (.next _) (.next _)
  | tripCooled => exact .ite (.next _) (.next _)
  | ledgerDeliver => exact .next _
  | mirrorCopy => exact execMirrorCopy_answers
  | safePinQualify => exact .next _
  | safePinClear => exact .ite (.next _) (.next _)
  | responseRun => exact execResponseRun_answers
  | rstPinQualify => exact .ite (.next _) (.next _)
  | rstPinRelease => exact .ite (.next _) (.next _)
  | hostResetEnter => exact execHostResetEnter_answers
  | startD0Release => exact .ite (.next _) (.next _)
  | bootBankSelect => exact .ite (.next _) (.next _)
  | startFirmware => exact .ite (.next _) (.next _)
  | startInstall => exact .ite (.next _) (.next _)
  | startPorts => exact .ite (.next _) (.next _)
  | startSlow => exact .ite (.next _) (.next _)
  | spRestartsClear => exact .ite (.next _) (.next _)
  | hullAlive => exact .ite (.next _) (.next _)
  | hullPowerUp => exact .ite (.next _) (.next _)
  | vbusBelow18v => exact .ite (.next _) (.next _)
  | noActiveHeartbeat => exact .ite (.next _) (.next _)
  | switchoverStamp => exact execSwitchoverStamp_answers

/-- Settles O7: every branch of every meaning answers a next state, and the feed rows begin with the fault of R416. -/
theorem everyCommandCompletes : Obligations.EveryCommandCompletes := by
  unfold Obligations.EveryCommandCompletes
  refine fun c s => ⟨exec_answers c s, ?_⟩
  rintro f v (rfl | rfl) high
  · exact if_pos high
  · exact if_pos high

end Sys2Proof.Machine
end

section
/-!
PROOF. A step takes the command in front, an empty queue passes one nanosecond (R25), and the reset state lists nothing (R403, R404).
-/

namespace Sys2Proof.Machine

/-- Settles O1: a step looks at its queue first. -/
theorem stepRunsTheFrontCommand : Obligations.StepRunsTheFrontCommand := by
  unfold Obligations.StepRunsTheFrontCommand
  exact fun _ _ _ => rfl

/-- Settles O5: nothing is listed at reset. -/
theorem resetStateIsCanonical : Obligations.ResetStateIsCanonical :=
  ⟨⟨rfl, rfl, rfl⟩, rfl, rfl, rfl, fun _ => rfl, fun _ => rfl⟩

/-- What one nanosecond removes of a phase correction is all of it, or the 0.5 ppm of R25. -/
theorem slewStep_cases (left : Int) :
    -32768 ≤ slewStep left ∧ slewStep left ≤ 32768 ∧
      (slewStep left = left ∨ (slewStep left = 32768 ∧ 32768 < left) ∨ (slewStep left = -32768 ∧ left < -32768)) := by
  unfold slewStep
  omega

/-- A servo that steers stays, or moves its estimate by one unit toward its target when its time has come (R25). -/
theorem Servo.steer_cases (v : Servo) (now : Nat) :
    v.steer now = v ∨ (v.freqAt + freqStepNs ≤ now ∧ ∃ f, ((f = v.freqAdj + 1 ∧ f ≤ v.freqTarget) ∨ (f = v.freqAdj - 1 ∧ v.freqTarget ≤ f)) ∧
      v.steer now = { v with freqAdj := f, freqAt := now }) := by
  unfold Servo.steer
  split
  next stays => exact .inl rfl
  next moves =>
    rw [not_or, Nat.not_lt] at moves
    obtain ⟨apart, time⟩ := moves
    refine .inr ⟨time, _, ?_, rfl⟩
    split <;> omega

/-- Settles O2: the clock passes one nanosecond, and the servo steers while D0 runs. -/
theorem emptyQueuePassesOneNanosecond : Obligations.EmptyQueuePassesOneNanosecond := by
  unfold Obligations.EmptyQueuePassesOneNanosecond
  intro s empty
  have run : step s = .next s.tick := by
    unfold step
    rw [empty]
  refine ⟨fun off => ?_, fun on => ?_⟩
  · rw [run]
    unfold State.tick
    simp [off]
  · obtain ⟨low, high, slew⟩ := slewStep_cases s.servo.slewLeft
    rw [run]
    unfold State.tick
    obtain stays | ⟨time, f, moved, steers⟩ := s.servo.steer_cases s.clock.now
    · refine ⟨_, s.servo.freqAdj, low, high, slew, .inl rfl, ?_⟩
      simp [on, stays, tbUnit]
    · refine ⟨_, f, low, high, slew, .inr ⟨time, moved⟩, ?_⟩
      have other : f ≠ s.servo.freqAdj := by omega
      simp [on, steers, tbUnit, other, State.now]

end Sys2Proof.Machine
end

section
/-!
PROOF. The wait of a request (R283).
-/

namespace Sys2Proof.Machine

/-- A request in the lower classes that is raised has class 3. -/
theorem MemReq.cls_raised {r : MemReq} (h : 3 < r.cls) : ({ r with raised := true } : MemReq).cls = 3 := by
  have calm : r.panic = false := by
    cases panic : r.panic
    · rfl
    · simp [MemReq.cls, panic] at h
  simp [MemReq.cls, calm]

/-- The request has waited 1 us in a class below 3 and rises. -/
def State.rises (s : State) (r : MemReq) : Bool := decide (3 < r.cls) && s.due (r.since + us 1)

/-- What the row makes of a request. -/
def State.raise (s : State) (r : MemReq) : MemReq := if s.rises r then { r with raised := true } else r

theorem State.rises_iff (s : State) (r : MemReq) : s.rises r = true ↔ 3 < r.cls ∧ s.due (r.since + us 1) = true := by
  simp [State.rises]

theorem State.raise_of_not_rises {s : State} {r : MemReq} (h : ¬s.rises r = true) : s.raise r = r := if_neg h

theorem State.cls_raise_of_rises {s : State} {r : MemReq} (h : s.rises r = true) : (s.raise r).cls = 3 := by
  unfold State.raise
  rw [if_pos h]
  exact MemReq.cls_raised ((s.rises_iff r).mp h).1

theorem execMemStarvationRaise_eq (m : Fin 16) (s : State) :
    execMemStarvationRaise m s =
      .next ((s.modMchan m.val fun x => { x with queue := x.queue.map s.raise }).countBy (R.mch_CH_STARVED m.val)
        ((s.mchan m.val).queue.filter s.rises).length) := rfl

/-- Settles O41: every request of the queue is raised or left, and those raised are counted. -/
theorem starvedRequestsFollowR283 : Obligations.StarvedRequestsFollowR283 := by
  unfold Obligations.StarvedRequestsFollowR283
  intro m s
  have queue : ((s.modMchan m.val fun x => { x with queue := x.queue.map s.raise }).mchan m.val).queue =
      (s.mchan m.val).queue.map s.raise := by simp
  refine ⟨_, execMemStarvationRaise_eq m s, ?_, fun i r hr => ⟨s.raise r, ?_, fun due low => ?_, fun high => ?_, fun stays => ?_⟩, ?_, fun k hk => ?_, fun a ha => ?_, rfl⟩
  · exact (congrArg List.length queue).trans (List.length_map _)
  · exact (congrArg (·[i]?) queue).trans (by rw [List.getElem?_map, hr, Option.map_some])
  · exact State.cls_raise_of_rises ((s.rises_iff r).mpr ⟨low, due⟩)
  · rw [State.raise_of_not_rises]
    rw [State.rises_iff]
    omega
  · exact State.raise_of_not_rises fun rises => stays ((s.rises_iff r).mp rises).symm
  · rw [State.reg_countBy, if_pos rfl, toNat_w32_min]
    rfl
  · exact (State.mchan_setMchan _ _ _ _).trans (if_neg hk)
  · exact (State.reg_countBy _ _ _ _).trans (if_neg ha)

end Sys2Proof.Machine
end

section
/-!
PROOF. What the hub's work leaves (R325 to R329): an arbitration, an event and an entry change counts, wake processors and note missing
targets; what is in service, a processor that does not sleep, the timers, the check channels and the safety pair's record stay.
-/

namespace Sys2Proof.Machine

/-! ## Processors and sources are read from the cores -/

theorem State.proc_of_cores {s t : State} (h : t.cores = s.cores) (n : Nat) : t.proc n = s.proc n := by
  rw [State.proc, State.tc, h, State.proc, State.tc]

theorem State.source_of_cores {s t : State} (h : t.cores = s.cores) (n : Nat) : t.source n = s.source n := by
  rw [State.source, h, State.source]

theorem State.proc_modProc (s : State) (n m : Nat) (f : Processor → Processor) :
    (s.modProc n f).proc m = if m = n then f (s.proc n) else s.proc m := by
  unfold State.modProc State.proc
  by_cases hn : n = 4
  · subst hn
    by_cases hm : m = 4
    · simp [hm]
    · simp [hm, State.tc]
  · by_cases hm : m = 4
    · subst hm
      simp [hn, Ne.symm hn, State.setTc]
    · by_cases h : m = n
      · simp [hn, h]
      · simp [hn, hm, h]

theorem State.proc_modProc_same (s : State) (n : Nat) (f : Processor → Processor) : (s.modProc n f).proc n = f (s.proc n) :=
  (s.proc_modProc n n f).trans (if_pos rfl)

theorem State.source_modProc (s : State) (n m : Nat) (f : Processor → Processor) : (s.modProc n f).source m = s.source m := by
  unfold State.modProc
  split <;> rfl

theorem State.proc_tc (s : State) (c : Fin 4) : s.proc c.val = s.tc c.val := if_neg (by omega)

theorem State.modProc_tc (s : State) (c : Fin 4) (f : Processor → Processor) : s.modProc c.val f = s.modTc c.val f := if_neg (by omega)

theorem State.arbitrate_eq (s : State) : s.arbitrate = { s with cores := s.arbitrate.cores } := by
  have kept : Keeps 0x800000000 s s.arbitrate := State.arbitrate_keeps rfl (.refl _ s)
  refine kept.eq_of_agree rfl (fun p hp => ?_) fun p hp => ?_
  · cases p
    case cores => exact absurd hp (by decide)
    all_goals rfl
  · cases p
    case cores => rfl
    all_goals exact absurd hp (by decide)

/-! ## A wake -/

/-- A processor that is woken was asleep, and is ACTIVE. -/
theorem State.wakeTarget_proc_cases (s : State) (t n : Nat) :
    (s.wakeTarget t).proc n = s.proc n ∨ (s.wakeTarget t).proc n = { s.proc n with state := .active } := by
  unfold State.wakeTarget
  split
  · split
    · next h4 =>
      by_cases hn : n = 4
      · exact .inr (by simp [State.proc, hn])
      · exact .inl (by simp [State.proc, State.tc, hn])
    · next h4 =>
      rw [show (s.modTc t fun c => { c with state := .active }) = s.modProc t fun c => { c with state := .active } from (if_neg h4).symm,
        State.proc_modProc]
      split
      · next h => exact .inr (by rw [h])
      · exact .inl rfl
  · exact .inl rfl

/-! ## What an arbitration, a count, an event and an entry leave of the cores -/

/-- The hub's work from `s` to `t`: what is in service stays, and so do the processors that do not sleep, the timers, the check
channels, the thresholds and the record of the safety pair's restarts. -/
structure State.HubWork (s t : State) : Prop where
  service    : ∀ k, (t.source k).service = (s.source k).service
  proc       : ∀ n, (s.proc n).state ≠ .sleep → t.proc n = s.proc n
  restarts   : t.cores.spRestarts = s.cores.spRestarts
  mismatches : t.cores.spMismatch = s.cores.spMismatch
  thresholds : t.cores.thresholds = s.cores.thresholds
  timers     : t.cores.timers = s.cores.timers
  checks     : t.cores.checks = s.cores.checks

theorem State.HubWork.of_cores {s t : State} (h : t.cores = s.cores) : s.HubWork t :=
  ⟨fun k => by rw [State.source_of_cores h], fun n _ => State.proc_of_cores h n, by rw [h], by rw [h], by rw [h], by rw [h], by rw [h]⟩

theorem State.HubWork.trans {s t u : State} (h : s.HubWork t) (k : t.HubWork u) : s.HubWork u where
  service n := (k.service n).trans (h.service n)
  proc n hn := (k.proc n (by rwa [h.proc n hn])).trans (h.proc n hn)
  restarts := k.restarts.trans h.restarts
  mismatches := k.mismatches.trans h.mismatches
  thresholds := k.thresholds.trans h.thresholds
  timers := k.timers.trans h.timers
  checks := k.checks.trans h.checks

theorem State.HubWork.foldl {β : Type} {f : State → β → State} (hf : ∀ (s : State) b, s.HubWork (f s b)) (l : List β) (s : State) :
    s.HubWork (l.foldl f s) := by
  induction l generalizing s with
  | nil => exact .of_cores rfl
  | cons b r ih => exact (hf s b).trans (ih _)

theorem State.wakeTarget_hubWork (s : State) (t : Nat) : s.HubWork (s.wakeTarget t) := by
  have service (k : Nat) : ((s.wakeTarget t).source k).service = (s.source k).service := by
    rw [State.source, State.wakeTarget_sources, State.source]
  have rest : (s.wakeTarget t).cores = { s.cores with tc := (s.wakeTarget t).cores.tc, sp := (s.wakeTarget t).cores.sp } := by
    unfold State.wakeTarget
    split
    · split <;> rfl
    · rfl
  exact ⟨service, s.wakeTarget_proc t, by rw [rest], by rw [rest], by rw [rest], by rw [rest], by rw [rest]⟩

/-- What an arbitration does for one source: its delivery wakes the target. -/
def State.deliver (s : State) (e : Nat × IrqSource) : State :=
  match s.effectiveTarget e.2 with
  | some t => if s.eligible e.2 t then s.wakeTarget t else s
  | none => s

/-- The sources in turn. -/
def State.deliveries (s : State) : State := s.cores.sources.foldl State.deliver s

/-- An arbitration changes no processor but by its deliveries. -/
theorem State.arbitrate_proc_eq (s : State) (n : Nat) : s.arbitrate.proc n = s.deliveries.proc n := rfl

/-- A delivery is a wake, or nothing. -/
theorem State.deliver_cases (s : State) (e : Nat × IrqSource) : s.deliver e = s ∨ ∃ t, s.deliver e = s.wakeTarget t := by
  unfold State.deliver
  split
  · split
    · exact .inr ⟨_, rfl⟩
    · exact .inl rfl
  · exact .inl rfl

theorem State.arbitrate_hubWork (s : State) : s.HubWork s.arbitrate := by
  have wakes : s.HubWork s.deliveries := by
    refine .foldl (fun s e => ?_) _ s
    obtain same | ⟨t, wakes⟩ := s.deliver_cases e
    · rw [same]
      exact .of_cores rfl
    · rw [wakes]
      exact s.wakeTarget_hubWork t
  refine ⟨fun k => ?_, s.arbitrate_proc, wakes.restarts, wakes.mismatches, wakes.thresholds, wakes.timers, wakes.checks⟩
  obtain ⟨a, b, e⟩ := s.arbitrate_source k
  rw [e]

/-- A source is written, its service apart. -/
theorem State.setSource_hubWork {s : State} {n : Nat} {x : IrqSource} (h : x.service = (s.source n).service) : s.HubWork (s.setSource n x) := by
  refine ⟨fun k => ?_, fun _ _ => rfl, rfl, rfl, rfl, rfl, rfl⟩
  rw [State.source_setSource]
  split
  · next e => rw [h, e]
  · rfl

theorem State.irqCount_hubWork (s : State) (n : Nat) : s.HubWork (s.irqCount n) := by
  unfold State.irqCount
  split
  · exact .of_cores rfl
  · extract_lets x y
    have sated : s.HubWork y :=
      (State.HubWork.of_cores (s.count_cores _)).trans (State.setSource_hubWork (s := s.count R.hub_SATURATED) rfl)
    split
    · have counts : s.HubWork (s.setSource n { x with count := x.count + 1 }) := State.setSource_hubWork rfl
      exact counts.trans (State.arbitrate_hubWork _)
    · split
      · exact sated
      · exact (sated.trans (.of_cores (y.log_cores _ _ _))).trans (State.arbitrate_hubWork _)

theorem State.event_hubWork (s : State) (e m : Nat) : s.HubWork (s.event e m) := by
  unfold State.event
  extract_lets old new rising s' s''
  have same : s.HubWork s'' := .of_cores rfl
  split
  · split
    · next n _ _ =>
      have marks : s''.HubWork (s''.modSource n fun x => { x with counted := some s''.now }) := State.setSource_hubWork rfl
      exact (same.trans marks).trans (State.irqCount_hubWork _ _)
    · exact same
  · exact same

theorem State.log_hubWork (s : State) (c : FaultClass) (ctrl : Nat) (data : List Byte) : s.HubWork (s.log c ctrl data) :=
  .of_cores (s.log_cores c ctrl data)

theorem State.count_hubWork (s : State) (a : Nat) : s.HubWork (s.count a) := .of_cores rfl

/-! ## A restart (R323, R329) -/

/-- What a restart makes of its processor. -/
def Processor.restarted (p : Processor) (now : Nat) : Processor :=
  { p with state := .restarting, alive := false, halted := false, kickedAt := now }

theorem State.restart_eq (s : State) (n : Nat) : s.restart n = (s.modProc n fun p => p.restarted s.now).leaveService n := rfl

theorem State.proc_leaveService (s : State) (n m : Nat) (h : (s.proc m).state ≠ .sleep) : (s.leaveService n).proc m = s.proc m :=
  State.arbitrate_proc (s.mapSources _) m h

/-- What leaves service at a processor is in service for it no more. -/
theorem State.service_leaveService (s : State) (n k : Nat) : ((s.leaveService n).source k).service ≠ some n := by
  unfold State.leaveService
  obtain ⟨a, b, e⟩ := State.arbitrate_source (s.mapSources fun _ x =>
    if x.service == some n then { x with service := none, count := min 255 (x.count + 1) } else x) k
  rw [e]
  have got : (s.mapSources fun _ x => if x.service == some n then { x with service := none, count := min 255 (x.count + 1) } else x).source k =
      if (s.source k).service == some n then { s.source k with service := none, count := min 255 ((s.source k).count + 1) } else s.source k :=
    Sparse.get_mapVals _ _ _ _ (if_neg (by simp))
  rw [got]
  split
  · nofun
  · next h => exact fun service => h (beq_iff_eq.mpr service)

theorem State.proc_restart (s : State) (n : Nat) : (s.restart n).proc n = (s.proc n).restarted s.now := by
  rw [State.restart_eq, State.proc_leaveService]
  · exact s.proc_modProc_same n _
  · rw [State.proc_modProc_same]
    nofun

theorem State.service_restart (s : State) (n k : Nat) : ((s.restart n).source k).service ≠ some n :=
  State.service_leaveService _ n k

theorem State.restart_eq_cores (s : State) (n : Nat) : s.restart n = { s with cores := (s.restart n).cores } := by
  have kept : Keeps 0x800000000 s (s.restart n) := State.restart_keeps rfl (.refl _ s)
  refine kept.eq_of_agree rfl (fun p hp => ?_) fun p hp => ?_
  · cases p
    case cores => exact absurd hp (by decide)
    all_goals rfl
  · cases p
    case cores => rfl
    all_goals exact absurd hp (by decide)

theorem State.reg_restart (s : State) (n a : Nat) : (s.restart n).reg a = s.reg a := by rw [s.restart_eq_cores n]; rfl

/-- A processor that has restarted, or halted, stays so while the hub works, and nothing comes into service for it. -/
structure State.Restarted (t : State) (n : Nat) (p : Processor) : Prop where
  proc    : t.proc n = p
  down    : p.state = .restarting
  service : ∀ k, (t.source k).service ≠ some n

theorem State.restart_restarted (s : State) (n : Nat) : (s.restart n).Restarted n ((s.proc n).restarted s.now) :=
  ⟨s.proc_restart n, rfl, s.service_restart n⟩

theorem State.Restarted.hub {t u : State} {n : Nat} {p : Processor} (h : t.Restarted n p) (k : t.HubWork u) : u.Restarted n p where
  proc := (k.proc n (by rw [h.proc, h.down]; nofun)).trans h.proc
  down := h.down
  service m := by rw [k.service m]; exact h.service m

theorem State.Restarted.halt {t : State} {n : Nat} {p : Processor} (h : t.Restarted n p) :
    (t.modProc n fun p => { p with halted := true }).Restarted n { p with halted := true } where
  proc := by rw [State.proc_modProc_same, h.proc]
  down := h.down
  service m := by rw [State.source_modProc]; exact h.service m

end Sys2Proof.Machine
end

section
/-!
PROOF. The states of the processors (R321 to R324, R329): sleep, park, resume, watchdog and restart, and what their faults report.
-/

namespace Sys2Proof.Machine

section
variable {s : State}

/-! ## Sleep (R322) -/

theorem execCoreWfi_of_active {p : Fin 5} (h : (s.proc p.val).state = .active) :
    execCoreWfi p s = .next (s.modProc p.val fun x => { x with state := .sleep }).arbitrate := if_pos h

theorem execCoreWfi_of_other {p : Fin 5} (h : (s.proc p.val).state ≠ .active) : execCoreWfi p s = .next s := if_neg h

/-- Where no source waits, an arbitration wakes nobody. -/
theorem State.arbitrate_proc_of_quiet (h : ∀ e ∈ s.cores.sources, e.2.waits = false) (n : Nat) : s.arbitrate.proc n = s.proc n := by
  have still (x : State) (e : Nat × IrqSource) (he : e.2.waits = false) : x.deliver e = x := by
    unfold State.deliver
    split
    · exact if_neg (by simp [State.eligible, he])
    · rfl
  have fold (l : List (Nat × IrqSource)) (quiet : ∀ e ∈ l, e.2.waits = false) : l.foldl State.deliver s = s := by
    induction l with
    | nil => rfl
    | cons e r ih =>
      rw [List.foldl_cons, still s e (quiet e (List.mem_cons_self ..))]
      exact ih fun e he => quiet e (List.mem_cons_of_mem _ he)
  rw [State.arbitrate_proc_eq, State.deliveries, fold _ h]

/-- An arbitration leaves a processor as it is, or wakes it. -/
theorem State.arbitrate_proc_cases (n : Nat) :
    s.arbitrate.proc n = s.proc n ∨ s.arbitrate.proc n = { s.proc n with state := .active } := by
  have fold (l : List (Nat × IrqSource)) : ∀ x : State,
      (x.proc n = s.proc n ∨ x.proc n = { s.proc n with state := .active }) →
      ((l.foldl State.deliver x).proc n = s.proc n ∨ (l.foldl State.deliver x).proc n = { s.proc n with state := .active }) := by
    induction l with
    | nil => exact fun _ h => h
    | cons e r ih =>
      intro x hx
      refine ih _ ?_
      obtain same | ⟨t, wakes⟩ := x.deliver_cases e
      · rwa [same]
      · rw [wakes]
        obtain same | woken := x.wakeTarget_proc_cases t n
        · rwa [same]
        · obtain h | h := hx <;> exact .inr (by rw [woken, h])
  exact fold _ s (.inl rfl)

/-! ## Park, resume, kick, restart (R322, R323) -/

theorem execCorePark_of_awake {g : Agent} {c : Fin 4} (hrun : s.running = true)
    (h : (s.tc c.val).state = .active ∨ (s.tc c.val).state = .sleep) :
    execCorePark g c s = .next (s.modTc c.val fun p => { p with state := .parked }).arbitrate := if_pos ⟨hrun, h⟩

theorem execCorePark_of_idle {g : Agent} {c : Fin 4}
    (h : s.running = false ∨ (s.tc c.val).state = .parked ∨ (s.tc c.val).state = .restarting) : execCorePark g c s = .next s := by
  refine if_neg ?_
  rintro ⟨hrun, awake⟩
  obtain off | down := h
  · exact Bool.noConfusion (off.symm.trans hrun)
  · obtain a | a := awake <;> obtain b | b := down <;> exact CoreState.noConfusion (a.symm.trans b)

theorem execCoreResume_of_parked {g : Agent} {c : Fin 4} (hrun : s.running = true) (hg : g ≠ .tc c) (hi : s.startup.noImage = false)
    (h : (s.tc c.val).state = .parked) :
    execCoreResume g c s = .next (s.modTc c.val fun p => { p with state := .active, kickedAt := s.now }).arbitrate :=
  if_pos ⟨hrun, hg, hi, h⟩

theorem execCoreResume_of_barred {g : Agent} {c : Fin 4}
    (h : s.running = false ∨ g = .tc c ∨ s.startup.noImage = true ∨ (s.tc c.val).state ≠ .parked) :
    execCoreResume g c s = .next s := by
  refine if_neg ?_
  rintro ⟨hrun, other, image, parked⟩
  obtain off | own | none | awake := h
  · exact Bool.noConfusion (off.symm.trans hrun)
  · exact other own
  · exact Bool.noConfusion (image.symm.trans none)
  · exact awake parked

theorem execWdtKick_of_allowed {g : Agent} {p : Fin 5} (hrun : s.running = true) (h : p.val ≠ 4 ∨ g = .sp) :
    execWdtKick g p s = .next (s.modProc p.val fun x => { x with kickedAt := s.now }) := if_pos ⟨hrun, h⟩

theorem execWdtKick_of_idle {g : Agent} {p : Fin 5} (h : s.running = false) : execWdtKick g p s = .next s :=
  if_neg fun k => Bool.noConfusion (h.symm.trans k.1)

theorem execProcessorRestartDone_of_done {p : Fin 5} (hrun : s.running = true) (hr : (s.proc p.val).state = .restarting)
    (hh : (s.proc p.val).halted = false) (hf : p.val = 4 ∨ s.im.fwTc.running ≠ []) :
    execProcessorRestartDone p s = .next (s.modProc p.val fun q => { q with state := .active, kickedAt := s.now }).arbitrate :=
  if_pos ⟨hrun, hr, hh, hf⟩

theorem execProcessorRestartDone_of_undone {p : Fin 5} (h : s.running = false ∨ (s.proc p.val).state ≠ .restarting ∨
    (s.proc p.val).halted = true ∨ (p.val ≠ 4 ∧ s.im.fwTc.running = [])) : execProcessorRestartDone p s = .next s := by
  refine if_neg ?_
  rintro ⟨hrun, down, halted, loaded⟩
  obtain off | up | halt | ⟨tc, empty⟩ := h
  · exact Bool.noConfusion (off.symm.trans hrun)
  · exact up down
  · exact Bool.noConfusion (halted.symm.trans halt)
  · obtain sp | full := loaded
    · exact tc sp
    · exact full empty

/-! ## The watchdog (R323) -/

/-- The watchdog of a processor that runs has expired. -/
def State.watchdogDue (s : State) (n : Nat) : Prop :=
  s.running = true ∧ 0 < s.wdtMs n ∧ ((s.proc n).state = .active ∨ (s.proc n).state = .sleep) ∧
    s.due ((s.proc n).kickedAt + ms (s.wdtMs n)) = true

theorem execCoreWatchdogExpire_of_not_due {p : Fin 5} (h : ¬s.watchdogDue p.val) : execCoreWatchdogExpire p s = .next s := if_neg h

theorem execCoreWatchdogExpire_of_core {p : Fin 5} (h : s.watchdogDue p.val) (h4 : p.val ≠ 4) :
    execCoreWatchdogExpire p s = .next ((((s.restart p.val).count (R.core_WDT_RESTARTS p.val)).event (R.core_EVENTS p.val) 1).log
      F.CORE_WATCHDOG (R.core p.val) (leBytes 1 p.val)) :=
  (if_pos h).trans (if_neg h4)

theorem execCoreWatchdogExpire_of_sp {p : Fin 5} (h : s.watchdogDue p.val) (h4 : p.val = 4) :
    execCoreWatchdogExpire p s = .next (((s.restart p.val).log F.SP_RESTART R.sp (leBytes 1 1)).spRestarted false) :=
  (if_pos h).trans (if_pos h4)

/-- The record of the safety pair's restarts changes no processor and no service. -/
theorem State.Restarted.spRestarted {n : Nat} {p : Processor} (h : s.Restarted n p) (b : Bool) : (s.spRestarted b).Restarted n p := by
  unfold State.spRestarted
  extract_lets recent rs ms c x y
  have recorded : x.Restarted n p := ⟨h.proc, h.down, h.service⟩
  have noted : y.Restarted n p := (recorded.hub (x.count_hubWork _)).hub (State.event_hubWork _ _ _)
  split
  · exact noted.hub (State.log_hubWork _ _ _ _)
  · exact noted

theorem core_WDT_RESTARTS_apart (n : Nat) (h : n < 4) :
    R.core_WDT_RESTARTS n ≠ R.core_EVENTS n ∧ R.core_WDT_RESTARTS n ≠ R.hub_SATURATED := by
  simp only [R.core_WDT_RESTARTS, R.core_EVENTS, R.core, R.hub_SATURATED, R.hub]
  omega

/-- A register that is counted shows the count after an event of another register and an entry. -/
theorem State.toNat_reg_counted {a e : Nat} (he : a ≠ e) (hs : a ≠ R.hub_SATURATED) (m : Nat) (c : FaultClass) (ctrl : Nat) (data : List Byte) :
    (((((s.count a).event e m).log c ctrl data).reg a)).toNat = min 0xFFFFFFFF ((s.reg a).toNat + 1) := by
  rw [State.reg_of_regs a (State.log_regs _ c ctrl data), State.reg_event _ _ _ _ hs, if_neg he]
  exact s.toNat_reg_count a

end

/-- Settles O46: each row acts in the states that its rule names, and an arbitration after it wakes sleeping processors only. -/
theorem processorsSleepParkAndRestart : Obligations.ProcessorsSleepParkAndRestart := by
  unfold Obligations.ProcessorsSleepParkAndRestart
  refine ⟨fun p s active quiet => ?sleeps, fun p s => ⟨fun active => ?wakes, execCoreWfi_of_other⟩, fun g c p s off => ?reset,
    fun g c s on => ?park, fun g p s on => ?kick, fun p s idle => ?notDue, fun p s on limit up due => ?watchdog, fun p s undone => ?undone,
    fun p s on down halted loaded => ?done⟩
  case sleeps =>
    refine ⟨_, execCoreWfi_of_active active, ?_, fun q hq => ?_, by rw [State.arbitrate_eq]; unfold State.modProc; split <;> rfl⟩
    · rw [State.arbitrate_proc_of_quiet ?_]
      · exact s.proc_modProc_same _ _
      · unfold State.modProc
        split <;> exact quiet
    · rw [State.arbitrate_proc_of_quiet ?_]
      · exact (s.proc_modProc _ _ _).trans (if_neg hq)
      · unfold State.modProc
        split <;> exact quiet
  case wakes =>
    refine ⟨_, execCoreWfi_of_active active, ?_, by rw [State.arbitrate_eq]; unfold State.modProc; split <;> rfl⟩
    obtain same | woken := State.arbitrate_proc_cases (s := s.modProc p.val fun x => { x with state := .sleep }) p.val
    · exact .inl (by rw [same, State.proc_modProc_same])
    · exact .inr (by rw [woken])
  case reset =>
    exact ⟨execCorePark_of_idle (g := g) (.inl off), execCoreResume_of_barred (.inl off), execWdtKick_of_idle off,
      execCoreWatchdogExpire_of_not_due fun due => Bool.noConfusion (off.symm.trans due.1), execProcessorRestartDone_of_undone (.inl off)⟩
  case park =>
    refine ⟨fun down => execCorePark_of_idle (g := g) (.inr down), fun awake => execCoreResume_of_barred (.inr (.inr (.inr awake))), fun awake => ?_,
      fun parked => ⟨fun none => execCoreResume_of_barred (.inr (.inr (.inl none))), fun other image => ?_, execCoreResume_of_barred (.inr (.inl rfl))⟩⟩
    · refine ⟨_, execCorePark_of_awake (g := g) on awake, ?_, by rw [State.arbitrate_eq]; rfl⟩
      rw [← State.proc_tc, State.arbitrate_proc, State.proc_tc] <;> simp [State.proc_tc]
    · refine ⟨_, execCoreResume_of_parked on other image parked, ?_, by rw [State.arbitrate_eq]; rfl⟩
      rw [← State.proc_tc, State.arbitrate_proc, State.proc_tc] <;> simp [State.proc_tc]
  case kick =>
    refine ⟨fun allowed => ⟨_, execWdtKick_of_allowed on allowed, s.proc_modProc_same _ _, fun q hq => (s.proc_modProc _ _ _).trans (if_neg hq), ?_⟩,
      fun other => if_neg fun k => k.2.elim (fun h => h rfl) other⟩
    unfold State.modProc
    split <;> rfl
  case notDue =>
    refine execCoreWatchdogExpire_of_not_due ?_
    rintro ⟨-, limit, up, due⟩
    obtain zero | parked | down | early := idle
    · exact absurd limit (by omega)
    · obtain h | h := up <;> exact CoreState.noConfusion (h.symm.trans parked)
    · obtain h | h := up <;> exact CoreState.noConfusion (h.symm.trans down)
    · exact Bool.noConfusion (early.symm.trans due)
  case watchdog =>
    have expired : s.watchdogDue p.val := ⟨on, limit, up, due⟩
    have restarted := s.restart_restarted p.val
    have kept : Keeps 0x800000000 s (s.restart p.val) := State.restart_keeps rfl (.refl _ s)
    by_cases sp : p.val = 4
    · have logged : s.Logs ((s.restart p.val).log F.SP_RESTART R.sp (leBytes 1 1)) F.SP_RESTART :=
        (State.log_logsOne (kept.running rfl on) _ _ _).logs.after kept rfl
      have after := (restarted.hub (State.log_hubWork _ F.SP_RESTART R.sp (leBytes 1 1))).spRestarted false
      refine ⟨_, execCoreWatchdogExpire_of_sp expired sp, by rw [after.proc]; rfl, by rw [after.proc]; rfl, by rw [after.proc]; rfl,
        after.service, fun h => absurd sp h, fun _ => logged.keep (State.spRestarted_keeps rfl (.refl 0x4800000005 _)) rfl⟩
    · have counted : Keeps 0x4800000005 s (((s.restart p.val).count (R.core_WDT_RESTARTS p.val)).event (R.core_EVENTS p.val) 1) :=
        State.event_keeps rfl (State.count_keeps rfl (State.restart_keeps rfl (.refl _ s)))
      have after := ((restarted.hub (State.count_hubWork _ (R.core_WDT_RESTARTS p.val))).hub
        (State.event_hubWork _ (R.core_EVENTS p.val) 1)).hub (State.log_hubWork _ F.CORE_WATCHDOG (R.core p.val) (leBytes 1 p.val))
      obtain ⟨events, saturated⟩ := core_WDT_RESTARTS_apart p.val (by omega)
      refine ⟨_, execCoreWatchdogExpire_of_core expired sp, by rw [after.proc]; rfl, by rw [after.proc]; rfl, by rw [after.proc]; rfl,
        after.service, fun _ => ⟨?_, ?_⟩, fun h => absurd h sp⟩
      · rw [State.toNat_reg_counted events saturated, State.reg_restart]
      · exact (State.log_logsOne (counted.running rfl on) _ _ _).logs.after counted rfl
  case undone => exact execProcessorRestartDone_of_undone (.inr undone)
  case done =>
    refine ⟨_, execProcessorRestartDone_of_done on down halted loaded, ?_, by rw [State.arbitrate_eq]; unfold State.modProc; split <;> rfl⟩
    rw [State.arbitrate_proc, State.proc_modProc_same]
    rw [State.proc_modProc_same]
    nofun

end Sys2Proof.Machine
end

section
/-!
PROOF. What the faults of a processor report (R321, R324).
-/

namespace Sys2Proof.Machine

section
variable {s : State}

theorem fault_rows_of_idle (p : Fin 5) (a : Nat) (pc : Word) (h : s.running = false) :
    execCodeFetchError p s = .next s ∧ execSramUncorr p a s = .next s ∧ execSpLockstepMismatch pc s = .next s := by
  simp [execCodeFetchError, execSramUncorr, execSpLockstepMismatch, h]

/-- The processor restarts and halts (R321). -/
def State.halted (s : State) (n : Nat) : State := (s.restart n).modProc n fun p => { p with halted := true }

theorem State.halted_keeps {A : Nat} {z : State} {n : Nat} (hA : 0x800000000 &&& A = 0x800000000) (h : Keeps A z s) : Keeps A z (s.halted n) :=
  State.modProc_keeps hA (State.restart_keeps hA h)

/-- The state whose last change a code fetch that fails logs: an event of a tending core, none of the safety pair. -/
def State.haltNoted (s : State) (n : Nat) : State := if n = 4 then s.halted n else (s.halted n).event (R.core_EVENTS n) 4

/-- A class whatever its own severity is the same class in the ledger. -/
theorem execCodeFetchError_of_running {p : Fin 5} (h : s.running = true) :
    ∃ c ctrl data, c.code = F.CORE_CODE_LOST.code ∧ execCodeFetchError p s = .next ((s.haltNoted p.val).log c ctrl data) := by
  refine ⟨_, _, _, ?_, if_neg (by simp [h])⟩
  split <;> rfl

theorem State.Logs.of_code {s t : State} {c d : FaultClass} (h : s.Logs t c) (e : c.code = d.code) : s.Logs t d := by
  obtain ⟨a, x, b, made, code⟩ := h
  exact ⟨a, x, b, made, code.trans e⟩

theorem State.haltNoted_keeps (n : Nat) : Keeps 0x4800000005 s (s.haltNoted n) := by
  unfold State.haltNoted
  split
  · exact State.halted_keeps rfl (.refl _ s)
  · exact State.event_keeps rfl (State.halted_keeps rfl (.refl _ s))

theorem State.haltNoted_restarted (n : Nat) : (s.haltNoted n).Restarted n { (s.proc n).restarted s.now with halted := true } := by
  unfold State.haltNoted
  split
  · exact (s.restart_restarted n).halt
  · exact (s.restart_restarted n).halt.hub (State.event_hubWork _ _ _)

theorem execSramUncorr_of_core {p : Fin 5} (a : Nat) (h : s.running = true) (h4 : p.val ≠ 4) :
    execSramUncorr p a s = .next (((s.count (R.core_SRAM_UNCORR p.val)).event (R.core_EVENTS p.val) 2).log F.CORE_SRAM_UNCORR
      (procBlock p.val) (leBytes 1 p.val ++ leBytes 4 a)) := by
  simp [execSramUncorr, h, h4]

theorem execSramUncorr_of_sp (a : Nat) (h : s.running = true) :
    execSramUncorr 4 a s = .next (s.log F.CORE_SRAM_UNCORR R.sp (leBytes 1 4 ++ leBytes 4 a)) := by
  simp [execSramUncorr, h, procBlock]

theorem core_SRAM_UNCORR_apart (n : Nat) (h : n < 4) :
    R.core_SRAM_UNCORR n ≠ R.core_EVENTS n ∧ R.core_SRAM_UNCORR n ≠ R.hub_SATURATED := by
  simp only [R.core_SRAM_UNCORR, R.core_EVENTS, R.core, R.hub_SATURATED, R.hub]
  omega

/-! ## The safety pair's lockstep (R324) -/

/-- The pair restarts after a mismatch, which is counted and logged. -/
def State.mismatched (s : State) (pc : Word) : State :=
  (((s.restart 4).count R.sp_LOCKSTEP_ERRS).event R.sp_EVENTS 2).log F.SP_LOCKSTEP R.sp (leBytes 4 pc.toNat)

theorem execSpLockstepMismatch_of_halted (pc : Word) (h : s.cores.sp.halted = true) : execSpLockstepMismatch pc s = .next s :=
  if_pos (by simp [h])

theorem execSpLockstepMismatch_of_running (pc : Word) (hrun : s.running = true) (h : s.cores.sp.halted = false) :
    execSpLockstepMismatch pc s = .next ((s.mismatched pc).spRestarted true) :=
  if_neg (by simp [hrun, h])

theorem State.restart_records (n : Nat) :
    (s.restart n).cores.spRestarts = s.cores.spRestarts ∧ (s.restart n).cores.spMismatch = s.cores.spMismatch := by
  have moved (f : Processor → Processor) : (s.modProc n f).cores.spRestarts = s.cores.spRestarts ∧
      (s.modProc n f).cores.spMismatch = s.cores.spMismatch := by
    unfold State.modProc
    split <;> exact ⟨rfl, rfl⟩
  have left (u : State) : (u.leaveService n).cores.spRestarts = u.cores.spRestarts ∧
      (u.leaveService n).cores.spMismatch = u.cores.spMismatch :=
    ⟨(State.arbitrate_hubWork (u.mapSources _)).restarts, (State.arbitrate_hubWork (u.mapSources _)).mismatches⟩
  rw [State.restart_eq, (left _).1, (left _).2]
  exact moved _

theorem State.mismatched_keeps (pc : Word) : Keeps 0x4800000005 s (s.mismatched pc) :=
  State.log_keeps rfl (State.event_keeps rfl (State.count_keeps rfl (State.restart_keeps rfl (.refl _ s))))

/-- From the restart on, the hub works. -/
theorem State.mismatched_hubWork (pc : Word) : (s.restart 4).HubWork (s.mismatched pc) :=
  ((State.count_hubWork _ _).trans (State.event_hubWork _ _ _)).trans (State.log_hubWork _ _ _ _)

/-- A mismatch that another one, or two restarts, precede within 60 s logs SP_RESTARTS. -/
theorem State.spRestarted_logs (hrun : s.running = true)
    (h : (∃ b ∈ s.cores.spMismatch, s.now < b + sec 60) ∨
      2 ≤ (s.cores.spRestarts.filter fun b => decide (s.now < b + sec 60)).length) :
    s.Logs (s.spRestarted true) F.SP_RESTARTS := by
  unfold State.spRestarted
  extract_lets recent rs ms c x y
  have enough : ((true && decide (2 ≤ ms.length)) || decide (3 ≤ rs.length)) = true := by
    have counts : ms.length = (recent s.cores.spMismatch).length + 1 ∧ rs.length = (recent s.cores.spRestarts).length + 1 := ⟨rfl, rfl⟩
    obtain ⟨b, hb, within⟩ | two := h
    · have some : 0 < (recent s.cores.spMismatch).length := List.length_pos_of_mem (List.mem_filter.mpr ⟨hb, decide_eq_true within⟩)
      simp only [Bool.true_and, Bool.or_eq_true, decide_eq_true_eq]
      omega
    · have two : 2 ≤ (recent s.cores.spRestarts).length := two
      simp only [Bool.true_and, Bool.or_eq_true, decide_eq_true_eq]
      omega
  have kept : Keeps 0x4800000005 x y := State.event_keeps rfl (State.count_keeps rfl (.refl _ x))
  rw [if_pos enough]
  exact ((State.log_logsOne (kept.running rfl (s := x) hrun) _ _ _).logs.after kept rfl).of_ledger rfl

theorem State.reg_spRestarted {a : Nat} (b : Bool) (hr : a ≠ R.sp_SP_RESTARTS) (he : a ≠ R.sp_EVENTS) (hs : a ≠ R.hub_SATURATED) :
    (s.spRestarted b).reg a = s.reg a := by
  unfold State.spRestarted
  extract_lets recent rs ms c x y
  have noted : y.reg a = s.reg a := by
    rw [State.reg_event _ _ _ _ hs, if_neg he, State.reg_count, if_neg hr]
    rfl
  split
  · rw [State.reg_of_regs a (State.log_regs _ _ _ _), noted]
  · exact noted

end

/-- Settles O47: a code fetch halts its processor, an SRAM read is counted and logged, and a mismatch restarts the safety pair. -/
theorem processorFaultsAreReported : Obligations.ProcessorFaultsAreReported := by
  unfold Obligations.ProcessorFaultsAreReported
  refine ⟨fun p a pc s off => fault_rows_of_idle p a pc off, fun p s on => ?fetch, fun p a s on => ?sram, fun a s on => ?sramOfSp,
    fun pc s halted => execSpLockstepMismatch_of_halted pc halted, fun pc s on up => ?lockstep⟩
  case fetch =>
    obtain ⟨c, ctrl, data, code, run⟩ := execCodeFetchError_of_running (p := p) on
    have noted := State.haltNoted_keeps (s := s) p.val
    have after := (State.haltNoted_restarted (s := s) p.val).hub (State.log_hubWork _ c ctrl data)
    refine ⟨_, run, by rw [after.proc]; rfl, by rw [after.proc], by rw [after.proc]; rfl, after.service, ?_⟩
    exact ((State.log_logsOne (noted.running rfl on) c ctrl data).logs.after noted rfl).of_code code
  case sram =>
    obtain ⟨events, saturated⟩ := core_SRAM_UNCORR_apart p.val p.isLt
    have counted : Keeps 0x4800000005 s ((s.count (R.core_SRAM_UNCORR p.val)).event (R.core_EVENTS p.val) 2) :=
      State.event_keeps rfl (State.count_keeps rfl (.refl _ s))
    exact ⟨_, execSramUncorr_of_core a on (by simp; omega), State.toNat_reg_counted events saturated _ _ _ _,
      (State.log_logsOne (counted.running rfl on) _ _ _).logs.after counted rfl⟩
  case sramOfSp =>
    obtain ⟨logs, alone⟩ := State.log_alone on F.CORE_SRAM_UNCORR R.sp (leBytes 1 4 ++ leBytes 4 a)
    exact ⟨_, execSramUncorr_of_sp a on, logs, alone⟩
  case lockstep =>
    have kept := State.mismatched_keeps (s := s) pc
    have hub := State.mismatched_hubWork (s := s) pc
    have down := ((s.restart_restarted 4).hub hub).spRestarted true
    have sp : ((s.mismatched pc).spRestarted true).cores.sp = (s.proc 4).restarted s.now := down.proc
    have rest : Keeps 0x4800000005 (s.mismatched pc) ((s.mismatched pc).spRestarted true) := State.spRestarted_keeps rfl (.refl _ _)
    obtain ⟨restarts, mismatches⟩ := State.restart_records (s := s) 4
    have now : (s.mismatched pc).now = s.now := kept.now
    have counted : Keeps 0x4800000005 s (((s.restart 4).count R.sp_LOCKSTEP_ERRS).event R.sp_EVENTS 2) :=
      State.event_keeps rfl (State.count_keeps rfl (State.restart_keeps rfl (.refl _ s)))
    refine ⟨_, execSpLockstepMismatch_of_running pc on up, by rw [sp]; rfl, by rw [sp]; rfl, down.service, ?_, ?_, fun recent => ?_⟩
    · rw [State.reg_spRestarted true (by decide) (by decide) (by decide), State.mismatched, State.toNat_reg_counted (by decide) (by decide),
        State.reg_restart]
    · exact ((State.log_logsOne (counted.running rfl on) _ _ _).logs.after counted rfl).keep rest rfl
    · refine (State.spRestarted_logs (kept.running rfl on) ?_).after kept rfl
      rw [hub.mismatches, hub.restarts, mismatches, restarts, now]
      exact recent

end Sys2Proof.Machine
end

section
/-!
PROOF. The hub's counts and services (R325, R326, R328): what an event, a claim, a completion and the software's own events make of a
source.
-/

namespace Sys2Proof.Machine

section
variable {s : State}

/-! ## Events (R325) -/

/-- A count that is full loses the event and has SAT (R326). -/
theorem State.irqCount_sat {n : Nat} (h0 : 0 < n) (h286 : n ≤ 286) (full : 255 ≤ (s.source n).count) :
    ((s.irqCount n).source n).sat = true := by
  unfold State.irqCount
  rw [if_neg (by omega)]
  extract_lets x y
  rw [if_neg (Nat.not_lt.mpr full)]
  have sat : (y.source n).sat = true := by simp [y]
  split
  · exact sat
  · obtain ⟨a, b, e⟩ := State.arbitrate_source (y.log F.IRQ_SATURATED R.src (leBytes 2 n)) n
    rw [e, State.source_of_cores (y.log_cores F.IRQ_SATURATED R.src (leBytes 2 n))]
    exact sat

/-- The bits of an event that rise and are enabled. -/
def State.rising (s : State) (e m : Nat) : Word := (s.reg e ||| w32 m) &&& ~~~(s.reg e) &&& s.reg (e + 4)

/-- The state with the event's bits set. -/
def State.eventSet (s : State) (e m : Nat) : State :=
  ({ s with setNow := s.setNow.put (fun _ => (0, 0)) e (s.now, s.setBits e ||| w32 m) } : State).setReg e (s.reg e ||| w32 m)

/-- The source that an event counts at, marked as having counted in this cycle. -/
def State.eventMarked (s : State) (e m k : Nat) : State :=
  (s.eventSet e m).modSource k fun x => { x with counted := some s.now }

theorem State.event_of_rising {e m k : Nat} (hk : eventSource e = some k) (hr : s.rising e m ≠ 0) (hc : (s.source k).counted ≠ some s.now) :
    s.event e m = (s.eventMarked e m k).irqCount k := by
  unfold State.event
  rw [hk]
  exact if_pos ⟨hr, hc⟩

theorem State.event_of_still {e m : Nat} (hr : s.rising e m = 0) : s.event e m = s.eventSet e m := by
  unfold State.event
  extract_lets old new rising s' s''
  split
  · exact if_neg fun h => h.1 hr
  · rfl

theorem State.source_eventMarked (e m k j : Nat) :
    (s.eventMarked e m k).source j = if j = k then { s.source k with counted := some s.now } else s.source j :=
  State.source_setSource _ _ _ _

/-- A bit that was 0 and is enabled rises. -/
theorem State.rising_ne_zero {e n : Nat} (off : s.reg e &&& w32 (2 ^ n) = 0) (on : s.reg (e + 4) &&& w32 (2 ^ n) ≠ 0) :
    s.rising e (2 ^ n) ≠ 0 := by
  have same : s.rising e (2 ^ n) &&& w32 (2 ^ n) = s.reg (e + 4) &&& w32 (2 ^ n) := by
    refine BitVec.eq_of_getLsbD_eq fun i hi => ?_
    have off := congrArg (·.getLsbD i) off
    simp only [BitVec.getLsbD_and] at off
    simp only [State.rising, BitVec.getLsbD_and, BitVec.getLsbD_or, BitVec.getLsbD_not, hi, decide_true, Bool.true_and]
    cases hm : (w32 (2 ^ n)).getLsbD i
    · simp
    · simp [show (s.reg e).getLsbD i = false by simpa [hm] using off]
  intro h
  rw [h] at same
  exact on (same.symm.trans BitVec.zero_and)

/-- A bit that was 1, or is not enabled, does not rise. -/
theorem State.rising_eq_zero {e : Nat} {n : Fin 32} (h : s.reg e &&& w32 (2 ^ n.val) ≠ 0 ∨ s.reg (e + 4) &&& w32 (2 ^ n.val) = 0) :
    s.rising e (2 ^ n.val) = 0 := by
  have power : w32 (2 ^ n.val) = BitVec.twoPow 32 n.val :=
    BitVec.eq_of_toNat_eq (by rw [w32, BitVec.toNat_ofNat, BitVec.toNat_twoPow])
  rw [power, BitVec.and_twoPow, BitVec.and_twoPow] at h
  refine BitVec.eq_of_getLsbD_eq fun i hi => ?_
  simp only [State.rising, power, BitVec.getLsbD_and, BitVec.getLsbD_or, BitVec.getLsbD_not, BitVec.getLsbD_twoPow, hi, decide_true,
    Bool.true_and]
  by_cases hn : n.val = i
  · subst hn
    obtain set | off := h
    · have one : (s.reg e).getLsbD n.val = true := by
        by_contra none
        exact set (if_neg none)
      simp [one]
    · have none : (s.reg (e + 4)).getLsbD n.val = false := by
        by_contra one
        rw [if_pos (by simpa using one)] at off
        have := congrArg (·.getLsbD n.val) off
        simp at this
      rw [none, Bool.and_false]
      exact BitVec.getLsbD_zero.symm
  · simp [hn]

theorem State.event_service (e m k : Nat) : ((s.event e m).source k).service = (s.source k).service :=
  (s.event_hubWork e m).service k

theorem execIrqEvent_of_running (a : Nat) (n : Fin 32) (hrun : s.running = true) : execIrqEvent a n s = .next (s.event a (2 ^ n.val)) :=
  congrArg _ (if_pos hrun)

theorem execIrqEvent_of_idle (a : Nat) (n : Fin 32) (h : s.running = false) : execIrqEvent a n s = .next s := by
  simp [execIrqEvent, h]

theorem execSwiSet_of_idle {g : Agent} (v : Word) (h : s.running = false) : execSwiSet g v s = .next s := by
  simp [execSwiSet, h]

/-! ## Claims and completions (R328) -/

theorem execIrqClaim_of_idle {g : Agent} {p : Fin 5} (h : s.running = false) : execIrqClaim g p s = .next (s.answer 0) :=
  if_pos (by simp [h])

theorem execIrqClaim_of_other {g : Agent} {p : Fin 5} (hrun : s.running = true) (h : agentNo g ≠ p.val) :
    execIrqClaim g p s = .next ((s.count R.hub_BAD_COMPLETE).answer 0) := by
  simp [execIrqClaim, hrun, h]

theorem execIrqClaim_of_none {g : Agent} {p : Fin 5} (hrun : s.running = true) (h : agentNo g = p.val) (h0 : s.topSource p.val = 0) :
    execIrqClaim g p s = .next (s.answer 0) := by
  simp [execIrqClaim, hrun, h, h0]

theorem execIrqClaim_of_eligible {g : Agent} {p : Fin 5} (hrun : s.running = true) (h : agentNo g = p.val) (h0 : s.topSource p.val ≠ 0) :
    execIrqClaim g p s = .next (((s.modSource (s.topSource p.val) fun x =>
      { x with count := x.count - 1, service := some p.val }).arbitrate).answer (w32 (s.topSource p.val))) := by
  simp [execIrqClaim, hrun, h, h0]

theorem execIrqComplete_of_serving {g : Agent} {p : Fin 5} {n : Fin 512} (hrun : s.running = true)
    (h : agentNo g = p.val ∧ (s.source n.val).service = some p.val) :
    execIrqComplete g p n s = .next (s.modSource n.val fun x => { x with service := none }).arbitrate :=
  (if_neg (by simp [hrun])).trans (if_pos h)

theorem execIrqComplete_of_other {g : Agent} {p : Fin 5} {n : Fin 512} (hrun : s.running = true)
    (h : ¬(agentNo g = p.val ∧ (s.source n.val).service = some p.val)) :
    execIrqComplete g p n s = .next (s.count R.hub_BAD_COMPLETE) :=
  (if_neg (by simp [hrun])).trans (if_neg h)

/-- A source after it is written and the hub has arbitrated: count and service are what was written, and others keep theirs. -/
theorem State.source_setSource_arbitrate (n m : Nat) (x : IrqSource) :
    ∃ a b, (s.setSource n x).arbitrate.source m = { (if m = n then x else s.source m) with noTarget := a, noTargetLogged := b } := by
  obtain ⟨a, b, e⟩ := State.arbitrate_source (s.setSource n x) m
  exact ⟨a, b, by rw [e, State.source_setSource]⟩

/-! ## The software's own events (R325) -/

/-- One bit of SWI_SET. -/
def State.swi (v : Word) (s : State) (i : Nat) : State := if bit v.toNat i then s.irqCount (271 + i) else s

theorem execSwiSet_of_running {g : Agent} (v : Word) (hrun : s.running = true) :
    execSwiSet g v s = .next ((List.range 16).foldl (State.swi v) s) := by
  unfold execSwiSet
  rw [if_pos hrun]
  rfl

theorem State.swi_hubWork (v : Word) (s : State) (i : Nat) : s.HubWork (s.swi v i) := by
  unfold State.swi
  split
  · exact s.irqCount_hubWork _
  · exact .of_cores rfl

theorem State.count_swi (v : Word) (s : State) {i : Nat} (hi : i < 16) (m : Nat) :
    ((s.swi v i).source m).count =
      if m = 271 + i ∧ bit v.toNat i = true ∧ (s.source m).count < 255 then (s.source m).count + 1 else (s.source m).count := by
  unfold State.swi
  by_cases set : bit v.toNat i = true
  · rw [if_pos set, (s.irqCount_source (271 + i) m).1]
    by_cases hm : m = 271 + i
    · subst hm
      refine if_congr ?_ rfl rfl
      simp [set]
      omega
    · rw [if_neg fun h => hm h.1, if_neg fun h => hm h.1]
  · rw [if_neg set, if_neg fun h => set h.2.1]

/-- Each number at most once: its source counts once, and the other sources keep their counts. -/
theorem State.count_foldl_swi (v : Word) (l : List Nat) (apart : l.Nodup) (low : ∀ i ∈ l, i < 16) (s : State) (m : Nat) :
    ((l.foldl (State.swi v) s).source m).count =
      if (∃ i ∈ l, m = 271 + i ∧ bit v.toNat i = true) ∧ (s.source m).count < 255 then (s.source m).count + 1 else (s.source m).count := by
  induction l generalizing s with
  | nil => simp
  | cons j r ih =>
    obtain ⟨fresh, apart⟩ := List.nodup_cons.mp apart
    have first := s.count_swi v (low j (List.mem_cons_self ..)) m
    rw [List.foldl_cons, ih apart fun i hi => low i (List.mem_cons_of_mem _ hi)]
    by_cases here : m = 271 + j
    · have later : ¬∃ i ∈ r, m = 271 + i ∧ bit v.toNat i = true := by
        rintro ⟨i, hi, e, -⟩
        exact fresh ((show j = i by omega) ▸ hi)
      rw [if_neg fun h => later h.1, first]
      refine if_congr ?_ rfl rfl
      constructor
      · rintro ⟨e, set, room⟩
        exact ⟨⟨j, List.mem_cons_self .., e, set⟩, room⟩
      · rintro ⟨⟨i, -, e, set⟩, room⟩
        exact ⟨here, (show i = j by omega) ▸ set, room⟩
    · rw [if_neg fun h => here h.1] at first
      rw [first]
      refine if_congr (and_congr_left' ⟨?_, ?_⟩) rfl rfl
      · rintro ⟨i, hi, h⟩
        exact ⟨i, List.mem_cons_of_mem _ hi, h⟩
      · rintro ⟨i, hi, e, set⟩
        obtain rfl | hi := List.mem_cons.mp hi
        · exact absurd e here
        · exact ⟨i, hi, e, set⟩

theorem execSrcCntSatClear_of_running {g : Agent} {n : Fin 512} (hrun : s.running = true) (h : n.val ≠ 0) :
    execSrcCntSatClear g n s = .next (s.modSource n.val fun x => { x with sat := x.sat && x.satAt == some s.now }) := by
  unfold execSrcCntSatClear
  exact congrArg _ (if_pos (by simp [hrun, h]))

theorem execSrcCntSatClear_of_idle {g : Agent} {n : Fin 512} (h : s.running = false ∨ n.val = 0) : execSrcCntSatClear g n s = .next s := by
  unfold execSrcCntSatClear
  obtain h | h := h <;> simp [h]

end

/-- Settles O48: an event counts where it rises, and a claim, a completion and SWI_SET by the rule of their sources. -/
theorem hubCountsClaimsAndCompletes : Obligations.HubCountsClaimsAndCompletes := by
  unfold Obligations.HubCountsClaimsAndCompletes
  refine ⟨fun a i g p n v s off => ?reset, fun a n s on apart => ?event, fun g p s on => ⟨fun own some => ?claims, execIrqClaim_of_none on, fun other => ?claimOfOther⟩,
    fun g p n s on => ⟨fun serves => ?completes, fun other => ?completeOfOther⟩, fun g v s on => ?software, fun g n s on pos => ?sat,
    fun g s => execSrcCntSatClear_of_idle (g := g) (.inr rfl)⟩
  case reset =>
    exact ⟨execIrqEvent_of_idle a i off, execIrqClaim_of_idle off, if_pos (by simp [off]), execSwiSet_of_idle (g := g) v off,
      execSrcCntSatClear_of_idle (g := g) (.inl off)⟩
  case event =>
    refine ⟨_, execIrqEvent_of_running a n on, (s.reg_event _ _ _ apart).trans (if_pos rfl), fun k hk h0 h286 fresh off enabled => ?_, fun still m => ?_,
      fun m => State.event_service _ _ m⟩
    · have marked (m : Nat) : ((s.eventMarked a (2 ^ n.val) k).source m).count = (s.source m).count := by
        rw [State.source_eventMarked]
        split
        · next e => rw [e]
        · rfl
      have counts (m : Nat) := (s.eventMarked a (2 ^ n.val) k).irqCount_source k m
      rw [State.event_of_rising hk (State.rising_ne_zero off enabled) fresh]
      refine ⟨fun room => ?_, fun full => ⟨?_, State.irqCount_sat h0 h286 (by rw [marked]; exact full)⟩, fun m hm => ?_⟩
      · rw [(counts k).1, marked, if_pos ⟨rfl, h0.ne', h286, room⟩]
      · rw [(counts k).1, marked, if_neg (by omega)]
      · rw [(counts m).1, marked, marked, if_neg fun h => hm h.1]
    · rw [State.event_of_still (State.rising_eq_zero still)]
      rfl
  case claims =>
    have after (m : Nat) := State.source_setSource_arbitrate (s := s) (s.topSource p.val) m
      { s.source (s.topSource p.val) with count := (s.source (s.topSource p.val)).count - 1, service := Option.some p.val }
    refine ⟨_, execIrqClaim_of_eligible on own some, rfl, ?_, ?_, fun m hm => ?_, by rw [State.arbitrate_eq]; rfl⟩
    · obtain ⟨a, b, e⟩ := after (s.topSource p.val)
      exact (congrArg IrqSource.count e).trans (by rw [if_pos rfl])
    · obtain ⟨a, b, e⟩ := after (s.topSource p.val)
      exact (congrArg IrqSource.service e).trans (by rw [if_pos rfl])
    · obtain ⟨a, b, e⟩ := after m
      rw [if_neg hm] at e
      exact ⟨(congrArg IrqSource.count e).trans rfl, (congrArg IrqSource.service e).trans rfl⟩
  case claimOfOther =>
    exact ⟨_, execIrqClaim_of_other on other, rfl, s.toNat_reg_count _, fun b hb => (s.reg_count _ b).trans (if_neg hb), rfl⟩
  case completes =>
    have after (m : Nat) := State.source_setSource_arbitrate (s := s) n.val m { s.source n.val with service := none }
    refine ⟨_, execIrqComplete_of_serving on serves, ?_, fun m => ?_, by rw [State.arbitrate_eq]; rfl⟩
    · obtain ⟨a, b, e⟩ := after n.val
      exact (congrArg IrqSource.service e).trans (by rw [if_pos rfl])
    · obtain ⟨a, b, e⟩ := after m
      refine ⟨(congrArg IrqSource.count e).trans ?_, fun hm => (congrArg IrqSource.service e).trans (by rw [if_neg hm])⟩
      dsimp only
      split
      · next h => rw [h]
      · rfl
  case completeOfOther =>
    exact ⟨_, execIrqComplete_of_other on other, s.toNat_reg_count _, fun b hb => (s.reg_count _ b).trans (if_neg hb), rfl⟩
  case software =>
    have counts (m : Nat) := State.count_foldl_swi v (List.range 16) List.nodup_range (fun i hi => List.mem_range.mp hi) s m
    refine ⟨_, execSwiSet_of_running (g := g) v on, fun i => (counts _).trans (if_congr ?_ rfl rfl), fun m hm => (counts m).trans (if_neg ?_), fun m =>
      (State.HubWork.foldl (State.swi_hubWork v) (List.range 16) s).service m⟩
    · refine and_congr_left' ⟨?_, fun set => ⟨i.val, List.mem_range.mpr i.isLt, rfl, set⟩⟩
      rintro ⟨j, -, e, set⟩
      exact (show j = i.val by omega) ▸ set
    · rintro ⟨⟨j, hj, e, -⟩, -⟩
      have := List.mem_range.mp hj
      omega
  case sat =>
    refine ⟨_, execSrcCntSatClear_of_running (g := g) on pos, (State.source_setSource _ _ _ _).trans ?_, fun m hm => (State.source_setSource _ _ _ _).trans (if_neg hm), rfl⟩
    rw [if_pos rfl, ← Bool.beq_eq_decide_eq]

end Sys2Proof.Machine
end

section
/-!
PROOF. Who configures the hub (R327, R329, R330), and the raster-compare timers (R330, R331).
-/

namespace Sys2Proof.Machine

section
variable {s : State}

/-! ## Sources and thresholds -/

theorem execSrcCfgWrite_of_idle {g : Agent} {n : Fin 512} (v : Word) (h : s.running = false ∨ n.val = 0) :
    execSrcCfgWrite g n v s = .next s := by
  refine if_pos ?_
  obtain h | h := h <;> simp [h]

/-- The source is the safety pair's, or the write would make it so (R330). -/
theorem spConfigured_iff (x : IrqSource) (v : Word) :
    (x.ofSp || (srcCfgWrite x v).ofSp) = true ↔
      x.target = 4 ∨ x.fallback = 4 ∨ v.toNat / 16 % 8 = 4 ∨ v.toNat / 256 % 8 = 4 := by
  simp only [IrqSource.ofSp, srcCfgWrite, Bool.or_eq_true, beq_iff_eq]
  split <;> split <;> omega

theorem execSrcCfgWrite_of_allowed {g : Agent} {n : Fin 512} {v : Word} (hrun : s.running = true) (h0 : n.val ≠ 0)
    (h : g = .sp ∨ ¬((s.source n.val).ofSp || (srcCfgWrite (s.source n.val) v).ofSp) = true) :
    execSrcCfgWrite g n v s = .next (s.setSource n.val (srcCfgWrite (s.source n.val) v)).arbitrate := by
  refine (if_neg (by simp [hrun, h0])).trans (if_neg ?_)
  rintro ⟨other, sps⟩
  exact h.elim other fun free => free sps

theorem execSrcCfgWrite_of_denied {g : Agent} {n : Fin 512} {v : Word} (hrun : s.running = true) (h0 : n.val ≠ 0) (hg : g ≠ .sp)
    (h : ((s.source n.val).ofSp || (srcCfgWrite (s.source n.val) v).ofSp) = true) :
    execSrcCfgWrite g n v s = .next (s.hubDenied g n.val) :=
  (if_neg (by simp [hrun, h0])).trans (if_pos ⟨hg, h⟩)

/-- A denied write counts and is logged, and changes no source (R330). -/
theorem State.hubDenied_spec (hrun : s.running = true) (g : Agent) (n : Nat) :
    s.LogsOne (s.hubDenied g n) F.HUB_DENIED ∧
      ((s.hubDenied g n).reg R.hub_DENIED).toNat = min 0xFFFFFFFF ((s.reg R.hub_DENIED).toNat + 1) ∧
      (∀ b, b ≠ R.hub_DENIED → (s.hubDenied g n).reg b = s.reg b) ∧
      s.hubDenied g n = { s with regs := (s.hubDenied g n).regs, ledger := (s.hubDenied g n).ledger } := by
  have regs (b : Nat) : (s.hubDenied g n).reg b = (s.count R.hub_DENIED).reg b := State.reg_of_regs b (State.log_regs _ _ _ _)
  obtain ⟨logs, alone⟩ := State.log_alone (s := s.count R.hub_DENIED) hrun F.HUB_DENIED R.src (leBytes 1 (agentNo g) ++ leBytes 2 n)
  refine ⟨logs.of_ledger rfl, by rw [regs, s.toNat_reg_count], fun b hb => by rw [regs, s.reg_count, if_neg hb], ?_⟩
  unfold State.hubDenied
  rw [alone]
  rfl

/-- The state with a target's THRESHOLD written. -/
def State.setThreshold (s : State) (t v : Nat) : State :=
  { s with cores := { s.cores with thresholds := s.cores.thresholds.put (fun _ => 0) t v } }

theorem execThresholdWrite_of_running {g : Agent} {p : Fin 5} (v : Word) (hrun : s.running = true) :
    execThresholdWrite g p v s = .next (s.setThreshold p.val (v.toNat % 16)).arbitrate :=
  congrArg Host.Outcome.next (if_pos hrun)

theorem execThresholdWrite_of_idle {g : Agent} {p : Fin 5} (v : Word) (h : s.running = false) : execThresholdWrite g p v s = .next s :=
  congrArg Host.Outcome.next (if_neg (by simp [h]))

theorem State.threshold_setThreshold (t v q : Nat) :
    (s.setThreshold t v).arbitrate.threshold q = if q = t then v else s.threshold q := by
  rw [State.threshold, (State.arbitrate_hubWork _).thresholds]
  exact Sparse.get_put _ _ _ _ _

/-! ## A missing target (R327) -/

theorem execIrqNoTarget_of_early {n : Fin 512}
    (h : (s.source n.val).noTarget = none ∨ ∃ b, (s.source n.val).noTarget = some b ∧ s.now < b + sec 1) :
    execIrqNoTarget n s = .next s := by
  unfold execIrqNoTarget
  obtain none | ⟨b, since, early⟩ := h
  · simp only [none]
  · simp only [since]
    exact if_neg fun late => absurd late.1 (Nat.not_le.mpr early)

theorem execIrqNoTarget_of_late {n : Fin 512} {b : Nat} (hb : (s.source n.val).noTarget = some b) (hd : b + sec 1 ≤ s.now) :
    execIrqNoTarget n s = if (s.source n.val).noTargetLogged = false then
        .next ((s.setSource n.val { s.source n.val with noTargetLogged := true }).log F.IRQ_NO_TARGET R.src
          (leBytes 2 n.val ++ leBytes 1 (s.source n.val).target ++ leBytes 1 (s.source n.val).fallback))
      else .next s := by
  unfold execIrqNoTarget
  simp only [hb, hd, true_and]

/-! ## Raster-compare timers (R331) -/

theorem timer_rows_of_idle {g : Agent} {n : Fin 8} (v : Word) (h : s.running = false) :
    execRtArm g n v s = .next s ∧ execRtDisarm g n s = .next s :=
  ⟨if_pos (by simp [h]), if_pos (by simp [h])⟩

theorem timer_rows_of_denied {g : Agent} {n : Fin 8} (v : Word) (hrun : s.running = true) (hg : g ≠ .sp)
    (h : (s.source (263 + n.val)).ofSp = true) :
    execRtArm g n v s = .next (s.hubDenied g (263 + n.val)) ∧ execRtDisarm g n s = .next (s.hubDenied g (263 + n.val)) :=
  ⟨(if_neg (by simp [hrun])).trans (if_pos ⟨hg, h⟩), (if_neg (by simp [hrun])).trans (if_pos ⟨hg, h⟩)⟩

/-- The state with a timer's compare stamp written. -/
def State.armTimer (s : State) (n : Nat) (v : Word) (a : Stamp) : State :=
  (s.setReg (R.rt_RT_CMP_HI n) v).setTimer n { armed := some a, late := false, seededCancel := false }

theorem execRtArm_of_allowed {g : Agent} {n : Fin 8} {v : Word} (hrun : s.running = true)
    (h : g = .sp ∨ (s.source (263 + n.val)).ofSp = false) {a : Stamp} (ha : a = v ++ s.latch g (R.rt_RT_CMP_LO n.val)) :
    execRtArm g n v s = if later a (s.armTimer n.val v a).stamp then .next (s.armTimer n.val v a)
      else .next ((((s.armTimer n.val v a).modTimer n.val fun t => { t with late := true }).log F.TIMER_LATE (R.rt n.val)
        (leBytes 1 n.val ++ leBytes 8 a.toNat)).fireTimer n.val a) := by
  subst ha
  refine (if_neg (by simp [hrun])).trans (if_neg ?_)
  rintro ⟨other, sps⟩
  exact h.elim other fun free => Bool.noConfusion (free.symm.trans sps)

theorem execRtDisarm_of_allowed {g : Agent} {n : Fin 8} (hrun : s.running = true)
    (h : g = .sp ∨ (s.source (263 + n.val)).ofSp = false) :
    execRtDisarm g n s = .next (s.modTimer n.val fun t => { t with armed := none }) := by
  refine (if_neg (by simp [hrun])).trans (if_neg ?_)
  rintro ⟨other, sps⟩
  exact h.elim other fun free => Bool.noConfusion (free.symm.trans sps)

theorem execRtExpire_of_reached {n : Fin 8} {a : Stamp} (ha : (s.timer n.val).armed = some a) (hr : s.reached a = true) :
    execRtExpire n s = .next (s.fireTimer n.val a) := by
  unfold execRtExpire
  rw [ha]
  exact if_pos hr

theorem execRtExpire_of_waiting {n : Fin 8}
    (h : (s.timer n.val).armed = none ∨ ∃ a, (s.timer n.val).armed = some a ∧ s.reached a = false) : execRtExpire n s = .next s := by
  unfold execRtExpire
  obtain none | ⟨a, armed, early⟩ := h
  · rw [none]
  · rw [armed]
    exact if_neg (by simp [early])

/-- The stamp that a timer which fires at `a` is armed at next. -/
def State.rearmed (s : State) (n : Nat) (a : Stamp) : Option Stamp :=
  if (s.reg (R.rt_RT_PERIOD n)).toNat = 0 then none else some (a + BitVec.ofNat 64 (s.reg (R.rt_RT_PERIOD n)).toNat)

/-- The timer counts and is armed anew or not at all. -/
def State.firing (s : State) (n : Nat) (a : Stamp) : State :=
  (s.count (R.rt_RT_FIRED n)).modTimer n fun t => { t with armed := s.rearmed n a }

theorem State.fireTimer_eq (n : Nat) (a : Stamp) : s.fireTimer n a = (s.firing n a).irqCount (263 + n) := rfl

theorem State.timer_of_cores {s t : State} (h : t.cores.timers = s.cores.timers) (n : Nat) : t.timer n = s.timer n := by
  rw [State.timer, h, State.timer]

theorem State.timer_fireTimer (n m : Nat) (a : Stamp) :
    (s.fireTimer n a).timer m = if m = n then { s.timer n with armed := s.rearmed n a } else s.timer m := by
  rw [State.fireTimer_eq, State.timer_of_cores (State.irqCount_hubWork _ _).timers]
  exact State.timer_setTimer _ _ _ _

theorem rt_apart (n : Nat) : R.rt_RT_FIRED n ≠ R.hub_SATURATED ∧ R.rt_RT_CMP_HI n ≠ R.hub_SATURATED ∧
    R.rt_RT_FIRED n ≠ R.rt_RT_CMP_HI n ∧ R.rt_RT_PERIOD n ≠ R.rt_RT_CMP_HI n := by
  simp only [R.rt_RT_FIRED, R.rt_RT_CMP_HI, R.rt_RT_PERIOD, R.rt, R.hub_SATURATED, R.hub]
  omega

/-- What a timer that fires leaves behind (R331). -/
theorem State.fireTimer_spec (n : Fin 8) (a : Stamp) :
    ((s.fireTimer n.val a).reg (R.rt_RT_FIRED n.val)).toNat = min 0xFFFFFFFF ((s.reg (R.rt_RT_FIRED n.val)).toNat + 1) ∧
      ((s.source (263 + n.val)).count < 255 →
        ((s.fireTimer n.val a).source (263 + n.val)).count = (s.source (263 + n.val)).count + 1) := by
  rw [State.fireTimer_eq]
  refine ⟨?_, fun room => ?_⟩
  · rw [State.reg_irqCount _ _ _ (rt_apart n.val).1]
    exact s.toNat_reg_count _
  · rw [((s.firing n.val a).irqCount_source _ _).1]
    exact if_pos ⟨rfl, by omega, by omega, room⟩

end

/-- Settles O49: a write of a source or of a threshold does what its words say, or is denied, and a missing target is logged once. -/
theorem hubIsConfiguredByWhoMay : Obligations.HubIsConfiguredByWhoMay := by
  unfold Obligations.HubIsConfiguredByWhoMay
  refine ⟨fun g n p v s => ⟨execSrcCfgWrite_of_idle v, execThresholdWrite_of_idle (g := g) v⟩, fun g n v s on pos => ⟨fun allowed => ?writes, fun denied => ?denied⟩,
    fun g p v s on => ?threshold, fun n s early => execIrqNoTarget_of_early early, fun n b s since late => ⟨fun unlogged => ?logs, fun logged => ?silent⟩⟩
  case writes =>
    have after (m : Nat) := State.source_setSource_arbitrate (s := s) n.val m (srcCfgWrite (s.source n.val) v)
    obtain ⟨a, b, own⟩ := after n.val
    rw [if_pos rfl] at own
    refine ⟨_, execSrcCfgWrite_of_allowed on pos (allowed.imp_right fun free sps => free ((spConfigured_iff _ v).mp sps)), by rw [own]; rfl,
      by rw [own]; rfl, by rw [own]; rfl, by rw [own]; rfl, by rw [own]; rfl, fun m => ?_, by rw [State.arbitrate_eq]; rfl⟩
    obtain ⟨a, b, e⟩ := after m
    rw [e]
    dsimp only
    split
    · next h =>
      rw [h]
      exact ⟨rfl, rfl, rfl⟩
    · exact ⟨rfl, rfl, rfl⟩
  case denied =>
    obtain ⟨logs, counts, others, frame⟩ := State.hubDenied_spec on g n.val
    exact ⟨_, execSrcCfgWrite_of_denied on pos denied.1 ((spConfigured_iff _ v).mpr denied.2), logs, counts, others, frame⟩
  case threshold =>
    exact ⟨_, execThresholdWrite_of_running (g := g) v on, (State.threshold_setThreshold _ _ _).trans (if_pos rfl),
      fun q hq => (State.threshold_setThreshold _ _ _).trans (if_neg hq), by rw [State.arbitrate_eq]; rfl⟩
  case logs =>
    have source (m : Nat) : ((s.setSource n.val { s.source n.val with noTargetLogged := true }).log F.IRQ_NO_TARGET R.src
          (leBytes 2 n.val ++ leBytes 1 (s.source n.val).target ++ leBytes 1 (s.source n.val).fallback)).source m =
        if m = n.val then { s.source n.val with noTargetLogged := true } else s.source m :=
      (State.source_of_cores (State.log_cores _ _ _ _) m).trans (State.source_setSource _ _ _ _)
    refine ⟨_, (execIrqNoTarget_of_late since late).trans (if_pos unlogged), (source _).trans (if_pos rfl), fun m hm => (source m).trans (if_neg hm),
      fun on => (State.log_logsOne (s := s.setSource n.val _) on _ _ _).of_ledger rfl, ?_⟩
    obtain ⟨l, e⟩ := State.log_frame (s.setSource n.val { s.source n.val with noTargetLogged := true }) F.IRQ_NO_TARGET R.src
      (leBytes 2 n.val ++ leBytes 1 (s.source n.val).target ++ leBytes 1 (s.source n.val).fallback)
    rw [e]
    rfl
  case silent => exact (execIrqNoTarget_of_late since late).trans (if_neg (by simp [logged]))

/-- Settles O50: a write that is denied changes no timer, and a timer fires as `fireTimer_spec` says. -/
theorem rasterTimersArmFireAndDisarm : Obligations.RasterTimersArmFireAndDisarm := by
  unfold Obligations.RasterTimersArmFireAndDisarm
  refine ⟨fun n s waits => execRtExpire_of_waiting waits, fun g n v s off => timer_rows_of_idle v off,
    fun g n s => ⟨fun on => ⟨fun other sps v c row => ?denied, fun allowed => ⟨fun v => ⟨fun ahead => ?arms, fun past => ?late⟩, ?disarms⟩⟩, fun a armed reached => ?fires⟩⟩
  case denied =>
    obtain ⟨logs, counts, others, frame⟩ := State.hubDenied_spec on g (263 + n.val)
    obtain ⟨arm, disarm⟩ := timer_rows_of_denied v on other sps
    obtain rfl | rfl := row
    · exact ⟨_, arm, counts, others, logs, frame⟩
    · exact ⟨_, disarm, counts, others, logs, frame⟩
  case arms =>
    exact ⟨_, (execRtArm_of_allowed on allowed rfl).trans (if_pos ahead), (State.timer_setTimer _ _ _ _).trans (if_pos rfl),
      (s.reg_setReg _ _ _).trans (if_pos rfl), fun m hm => (State.timer_setTimer _ _ _ _).trans (if_neg hm), rfl⟩
  case late =>
    have run := (execRtArm_of_allowed (v := v) on allowed rfl).trans (if_neg fun ahead => Bool.noConfusion (past.symm.trans ahead))
    obtain ⟨u, hu⟩ : ∃ u, u = ((s.armTimer n.val v (v ++ s.latch g (R.rt_RT_CMP_LO n.val))).modTimer n.val fun t => { t with late := true }).log
      F.TIMER_LATE (R.rt n.val) (leBytes 1 n.val ++ leBytes 8 (v ++ s.latch g (R.rt_RT_CMP_LO n.val)).toNat) := ⟨_, rfl⟩
    rw [← hu] at run
    obtain ⟨fired, apart, firedApart, periodApart⟩ := rt_apart n.val
    have logs : s.Logs u F.TIMER_LATE := by
      rw [hu]
      exact (State.log_logsOne (s := (s.armTimer n.val v _).modTimer n.val _) on _ _ _).logs.of_ledger rfl
    have reg (b : Nat) (hb : b ≠ R.rt_RT_CMP_HI n.val) : u.reg b = s.reg b := by
      rw [hu, State.reg_of_regs b (State.log_regs _ _ _ _)]
      exact (s.reg_setReg _ _ _).trans (if_neg hb)
    have source : u.source (263 + n.val) = s.source (263 + n.val) := by
      rw [hu, State.source_of_cores (State.log_cores _ _ _ _)]
      rfl
    have timer (m : Nat) : u.timer m = if m = n.val then
        { armed := some (v ++ s.latch g (R.rt_RT_CMP_LO n.val)), late := true, seededCancel := false } else s.timer m := by
      rw [hu, State.timer_of_cores (congrArg Cores.timers (State.log_cores _ _ _ _))]
      unfold State.armTimer
      by_cases hm : m = n.val
      · simp [hm]
      · simp [hm]
        rfl
    obtain ⟨counts, events⟩ := State.fireTimer_spec (s := u) n (v ++ s.latch g (R.rt_RT_CMP_LO n.val))
    refine ⟨_, run, ?_, logs.keep (State.fireTimer_keeps rfl (.refl 0x4800000001 _)) rfl, fun m hm => ?_, ?_, ?_, ?_⟩
    · rw [State.timer_fireTimer, if_pos rfl, timer, if_pos rfl]
    · rw [State.timer_fireTimer, if_neg hm, timer, if_neg hm]
    · rw [State.timer_fireTimer, if_pos rfl, State.rearmed, reg _ periodApart]
    · rw [counts, reg _ firedApart]
    · rw [source] at events
      exact events
  case disarms =>
    exact ⟨_, execRtDisarm_of_allowed on allowed, (State.timer_setTimer _ _ _ _).trans (if_pos rfl),
      fun m hm => (State.timer_setTimer _ _ _ _).trans (if_neg hm), rfl⟩
  case fires =>
    obtain ⟨counts, events⟩ := State.fireTimer_spec (s := s) n a
    refine ⟨_, execRtExpire_of_reached armed reached, ?_, counts, events, fun m hm => (State.timer_fireTimer _ _ _).trans (if_neg hm)⟩
    rw [State.timer_fireTimer, if_pos rfl]
    rfl

end Sys2Proof.Machine
end

section
/-!
PROOF. The check-value channels (R333 to R336): who may write one, what a message holds, and the verdict at its end.
-/

namespace Sys2Proof.Machine

/-! ## Bytes in a channel's ORDER -/

theorem le_leBytes (n v : Nat) (h : v < 256 ^ n) : le (leBytes n v) 0 n = v := by
  have fold (n v : Nat) (h : v < 256 ^ n) : (leBytes n v).foldr (fun b acc => b.toNat + 256 * acc) 0 = v := by
    induction n generalizing v with
    | zero => exact (Nat.lt_one_iff.mp h).symm
    | succ n ih =>
      have high : v / 256 < 256 ^ n := Nat.div_lt_of_lt_mul (by rwa [Nat.pow_succ'] at h)
      rw [leBytes, List.foldr_cons, ih _ high, BitVec.toNat_ofNat]
      omega
  rw [le, List.drop_zero, List.take_of_length_le (by rw [leBytes_length]), fold n v h]

theorem be_beBytes (n v : Nat) (h : v < 256 ^ n) : be (beBytes n v) 0 n = v := by
  have small := le_leBytes n v h
  rw [le, List.drop_zero, List.take_of_length_le (by rw [leBytes_length])] at small
  rw [be, List.drop_zero, List.take_of_length_le (by rw [beBytes_length]), beBytes, List.foldl_reverse]
  simpa [Nat.add_comm] using small

theorem orderBytes_length (order : Bool) (n v : Nat) : (orderBytes order n v).length = n := by
  unfold orderBytes
  split <;> simp

/-- What is written in a channel's ORDER is read back in it. -/
theorem orderValue_orderBytes (order : Bool) (n v : Nat) (h : v < 256 ^ n) : orderValue order (orderBytes order n v) = v := by
  unfold orderValue
  rw [orderBytes_length]
  cases order
  · exact le_leBytes n v h
  · exact be_beBytes n v h

/-! ## The verdict (R336) -/

/-- The alive counter is the one before, or further ahead than WINDOW. -/
def CheckChannel.stale (c : CheckChannel) (a : Nat) : Prop :=
  ∃ l, c.last = some l ∧ ((a + 65536 - l) % 65536 = 0 ∨ c.window < (a + 65536 - l) % 65536)

theorem CheckChannel.judge_of_short {c : CheckChannel} (h : c.fed.length < 2 + checkWidth c.alg) : c.judge = (4, c.result, c.shown) :=
  if_pos h

section
variable {c : CheckChannel} {body : List Byte} {a x : Nat}

/-- A message with a trailer is judged by its check value, and then by its alive counter. -/
theorem CheckChannel.judge_of_trailer (ha : a < 65536) (hx : x < 256 ^ checkWidth c.alg)
    (h : c.fed = (body ++ orderBytes c.order 2 a) ++ orderBytes c.order (checkWidth c.alg) x) :
    c.judge.2 = (checkValue c.alg (body ++ orderBytes c.order 2 a), a) ∧
      (x ≠ checkValue c.alg (body ++ orderBytes c.order 2 a) → c.judge.1 = 2) ∧
      (x = checkValue c.alg (body ++ orderBytes c.order 2 a) → c.stale a → c.judge.1 = 3) ∧
      (x = checkValue c.alg (body ++ orderBytes c.order 2 a) → ¬c.stale a → c.judge.1 = 1) := by
  have length : c.fed.length = body.length + 2 + checkWidth c.alg := by
    rw [h, List.length_append, List.length_append, orderBytes_length, orderBytes_length]
  have coveredLength : (body ++ orderBytes c.order 2 a).length = c.fed.length - checkWidth c.alg := by
    rw [length, List.length_append, orderBytes_length]
    omega
  have covered : c.fed.take (c.fed.length - checkWidth c.alg) = body ++ orderBytes c.order 2 a := by
    rw [← coveredLength, h, List.take_left]
  have received : orderValue c.order (c.fed.drop (c.fed.length - checkWidth c.alg)) = x := by
    rw [← coveredLength, h, List.drop_left, orderValue_orderBytes _ _ _ hx]
  have alive : orderValue c.order ((c.fed.drop (c.fed.length - checkWidth c.alg - 2)).take 2) = a := by
    have start : c.fed.length - checkWidth c.alg - 2 = body.length := by omega
    rw [start, h, List.append_assoc, List.drop_left, List.take_left' (orderBytes_length _ _ _), orderValue_orderBytes _ _ _ ha]
  unfold CheckChannel.judge
  dsimp only
  rw [if_neg (by omega), covered, received, alive]
  by_cases good : x = checkValue c.alg (body ++ orderBytes c.order 2 a)
  · rw [if_neg (not_not_intro good.symm)]
    cases last : c.last with
    | none => exact ⟨rfl, fun bad => absurd good bad, fun _ ⟨l, hl, _⟩ => absurd (last.symm.trans hl) nofun, fun _ _ => rfl⟩
    | some l =>
      dsimp only
      split
      · next old => exact ⟨rfl, fun bad => absurd good bad, fun _ _ => rfl, fun _ fresh => absurd ⟨l, last, old⟩ fresh⟩
      · next fresh =>
        refine ⟨rfl, fun bad => absurd good bad, fun _ ⟨k, hk, old⟩ => absurd old ?_, fun _ _ => rfl⟩
        rwa [← Option.some.inj (last.symm.trans hk)]
  · rw [if_pos (Ne.symm good)]
    exact ⟨rfl, fun _ => rfl, fun e => absurd e good, fun e => absurd e good⟩

end

/-! ## Who writes a channel (R333, R334) -/

section
variable {s : State} {g : Agent} {n : Fin 16}

theorem check_rows_of_off (z : Fin 3) (v : Word) (h : s.running = false ∨ (s.check n.val).mode = 0) :
    execChkStart g n s = .next s ∧ execChkData g n z v s = .next s ∧ execChkEnd g n s = .next s := by
  have off : (!s.running || (s.check n.val).mode == 0) = true := by
    obtain h | h := h <;> simp [h]
  exact ⟨if_pos off, if_pos off, if_pos off⟩

theorem check_on (hrun : s.running = true) (hm : (s.check n.val).mode ≠ 0) : ¬(!s.running || (s.check n.val).mode == 0) = true := by
  simp [hrun, hm]

theorem State.checkOwned_iff (m : Nat) : s.checkOwned g m = true ↔ agentNo g = (s.check m).owner := beq_iff_eq

theorem execChkStart_of_owner (hrun : s.running = true) (hm : (s.check n.val).mode ≠ 0) (ho : agentNo g = (s.check n.val).owner) :
    execChkStart g n s = .next (s.modCheck n.val fun c => { c with state := .opened, fed := [], verdict := 0 }) :=
  (if_neg (check_on hrun hm)).trans (if_neg (by simp [(State.checkOwned_iff n.val).mpr ho]))

theorem execChkStart_of_other (hrun : s.running = true) (hm : (s.check n.val).mode ≠ 0) (ho : agentNo g ≠ (s.check n.val).owner) :
    execChkStart g n s = .next (s.count (R.chk_CHK_ERRORS n.val)) :=
  (if_neg (check_on hrun hm)).trans (if_pos ((Bool.not_eq_true' _).mpr (Bool.eq_false_iff.mpr fun own => ho ((State.checkOwned_iff n.val).mp own))))

/-- The owner writes to an open message. -/
theorem check_open_iff : ¬(!s.checkOwned g n.val || (s.check n.val).state != .opened) = true ↔
    agentNo g = (s.check n.val).owner ∧ (s.check n.val).state = .opened := by
  simp [State.checkOwned_iff]

theorem execChkData_of_open {z : Fin 3} {v : Word} (hrun : s.running = true) (hm : (s.check n.val).mode ≠ 0)
    (h : agentNo g = (s.check n.val).owner ∧ (s.check n.val).state = .opened) :
    execChkData g n z v s = .next (s.modCheck n.val fun c =>
      { c with fed := c.fed ++ orderBytes c.order (2 ^ z.val) v.toNat, busyTo := max c.busyTo s.now + 2 ^ z.val }) :=
  (if_neg (check_on hrun hm)).trans (if_neg (check_open_iff.mpr h))

theorem execChkEnd_of_open (hrun : s.running = true) (hm : (s.check n.val).mode ≠ 0)
    (h : agentNo g = (s.check n.val).owner ∧ (s.check n.val).state = .opened) :
    execChkEnd g n s = if (s.check n.val).mode = 1 then .next ((s.count (R.chk_CHK_MSGS n.val)).setCheck n.val (s.check n.val).closeAppend)
      else if (s.check n.val).closeStrip.verdict = 1 then
        .next (((s.count (R.chk_CHK_MSGS n.val)).setCheck n.val (s.check n.val).closeStrip).irqCount (247 + n.val))
      else .next (((((s.count (R.chk_CHK_MSGS n.val)).setCheck n.val (s.check n.val).closeStrip).irqCount (247 + n.val)).count
        (R.chk_CHK_FAILS n.val)).logRated F.CHK_FAIL n.val (R.chk n.val) 0 (fun _ => leBytes 1 n.val ++
          leBytes 1 (s.check n.val).closeStrip.verdict ++ leBytes 2 (s.check n.val).closeStrip.shown) false) :=
  (if_neg (check_on hrun hm)).trans (if_neg (check_open_iff.mpr h))

theorem check_rows_of_closed {z : Fin 3} {v : Word} (hrun : s.running = true) (hm : (s.check n.val).mode ≠ 0)
    (h : ¬(agentNo g = (s.check n.val).owner ∧ (s.check n.val).state = .opened)) :
    execChkData g n z v s = .next (s.count (R.chk_CHK_ERRORS n.val)) ∧ execChkEnd g n s = .next (s.count (R.chk_CHK_ERRORS n.val)) := by
  have closed := not_not.mp fun k => h (check_open_iff.mp k)
  exact ⟨(if_neg (check_on hrun hm)).trans (if_pos closed), (if_neg (check_on hrun hm)).trans (if_pos closed)⟩

/-! ## The end of a message -/

theorem CheckChannel.closeStrip_spec (c : CheckChannel) :
    c.closeStrip.state = .done ∧ c.closeStrip.verdict = c.judge.1 ∧ (c.closeStrip.result, c.closeStrip.shown) = c.judge.2 ∧
      c.closeStrip.last = if c.judge.1 = 1 then some c.judge.2.2 else c.last := ⟨rfl, rfl, rfl, rfl⟩

theorem chk_apart (n : Nat) : R.chk_CHK_MSGS n ≠ R.hub_SATURATED ∧ R.chk_CHK_FAILS n ≠ R.hub_SATURATED ∧
    R.chk_CHK_MSGS n ≠ R.chk_CHK_FAILS n := by
  simp only [R.chk_CHK_MSGS, R.chk_CHK_FAILS, R.chk, R.hub_SATURATED, R.hub]
  omega

theorem State.check_of_cores {s t : State} (h : t.cores.checks = s.cores.checks) (n : Nat) : t.check n = s.check n := by
  rw [State.check, h, State.check]

/-- END of a check-and-strip message: the channel holds what its judgement makes of it, one message and one event count, and a verdict
that is not PASS counts one failure. -/
theorem execChkEnd_of_strip (hrun : s.running = true) (hm : (s.check n.val).mode ≠ 0) (h1 : (s.check n.val).mode ≠ 1)
    (h : agentNo g = (s.check n.val).owner ∧ (s.check n.val).state = .opened) :
    ∃ t, execChkEnd g n s = .next t ∧ t.check n.val = (s.check n.val).closeStrip ∧ (∀ m, m ≠ n.val → t.check m = s.check m) ∧
      (t.reg (R.chk_CHK_MSGS n.val)).toNat = min 0xFFFFFFFF ((s.reg (R.chk_CHK_MSGS n.val)).toNat + 1) ∧
      ((s.source (247 + n.val)).count < 255 → (t.source (247 + n.val)).count = (s.source (247 + n.val)).count + 1) ∧
      ((s.check n.val).judge.1 ≠ 1 →
        (t.reg (R.chk_CHK_FAILS n.val)).toNat = min 0xFFFFFFFF ((s.reg (R.chk_CHK_FAILS n.val)).toNat + 1)) := by
  obtain ⟨msgsHub, failsHub, apart⟩ := chk_apart n.val
  obtain ⟨u, hu⟩ : ∃ u, u = ((s.count (R.chk_CHK_MSGS n.val)).setCheck n.val (s.check n.val).closeStrip).irqCount (247 + n.val) := ⟨_, rfl⟩
  have checks (m : Nat) : u.check m = if m = n.val then (s.check n.val).closeStrip else s.check m := by
    rw [hu, State.check_of_cores (State.irqCount_hubWork _ _).checks]
    exact State.check_setCheck _ _ _ _
  have regs (a : Nat) (ha : a ≠ R.hub_SATURATED) : u.reg a = (s.count (R.chk_CHK_MSGS n.val)).reg a := by
    rw [hu, State.reg_irqCount _ _ _ ha]
    rfl
  have messages : (u.reg (R.chk_CHK_MSGS n.val)).toNat = min 0xFFFFFFFF ((s.reg (R.chk_CHK_MSGS n.val)).toNat + 1) := by
    rw [regs _ msgsHub, s.toNat_reg_count]
  have event (room : (s.source (247 + n.val)).count < 255) : (u.source (247 + n.val)).count = (s.source (247 + n.val)).count + 1 := by
    rw [hu, (State.irqCount_source _ _ _).1]
    exact if_pos ⟨rfl, by omega, by omega, room⟩
  have run := execChkEnd_of_open hrun hm h
  rw [if_neg h1, ← hu] at run
  by_cases pass : (s.check n.val).judge.1 = 1
  · exact ⟨u, run.trans (if_pos pass), (checks _).trans (if_pos rfl), fun m hm => (checks m).trans (if_neg hm), messages, event,
      fun fail => absurd pass fail⟩
  · obtain ⟨l, logged⟩ := State.logRated_frame (u.count (R.chk_CHK_FAILS n.val)) F.CHK_FAIL n.val (R.chk n.val) 0
      (fun _ => leBytes 1 n.val ++ leBytes 1 (s.check n.val).closeStrip.verdict ++ leBytes 2 (s.check n.val).closeStrip.shown) false
      (u.count (R.chk_CHK_FAILS n.val)).stamp
    refine ⟨_, (run.trans (if_neg pass)).trans (congrArg _ logged), (checks _).trans (if_pos rfl), fun m hm => (checks m).trans (if_neg hm), ?_, event,
      fun _ => ?_⟩
    · exact (congrArg BitVec.toNat ((u.reg_count _ _).trans (if_neg apart))).trans messages
    · refine (u.toNat_reg_count _).trans ?_
      rw [regs _ failsHub, s.reg_count, if_neg apart.symm]

end

/-- Settles O51: the owner's rows by what they make of the channel, and the end of a message by its judgement. -/
theorem checkChannelsOpenFeedAndJudge : Obligations.CheckChannelsOpenFeedAndJudge := by
  unfold Obligations.CheckChannelsOpenFeedAndJudge
  refine ⟨fun g n z v s off => check_rows_of_off z v off, fun g n s on used => ⟨fun z v c refused => ?errors, fun own => ⟨?start, fun opened => ⟨fun z v => ?data,
    fun append => ?append, fun strip => ⟨?ends, fun short => ?short, ?trailer⟩⟩⟩⟩⟩
  case errors =>
    have counts : ∃ t, (.next (s.count (R.chk_CHK_ERRORS n.val)) : Out) = .next t ∧
        (t.reg (R.chk_CHK_ERRORS n.val)).toNat = min 0xFFFFFFFF ((s.reg (R.chk_CHK_ERRORS n.val)).toNat + 1) ∧
        (∀ b, b ≠ R.chk_CHK_ERRORS n.val → t.reg b = s.reg b) ∧ t = { s with regs := t.regs } :=
      ⟨_, rfl, s.toNat_reg_count _, fun b hb => (s.reg_count _ b).trans (if_neg hb), rfl⟩
    obtain ⟨other, rfl | rfl | rfl⟩ | ⟨closed, rfl | rfl⟩ := refused
    · rwa [← execChkStart_of_other on used other] at counts
    · rwa [← (check_rows_of_closed (z := z) (v := v) on used fun h => other h.1).1] at counts
    · rwa [← (check_rows_of_closed (z := z) (v := v) on used fun h => other h.1).2] at counts
    · rwa [← (check_rows_of_closed (z := z) (v := v) on used fun h => closed h.2).1] at counts
    · rwa [← (check_rows_of_closed (z := z) (v := v) on used fun h => closed h.2).2] at counts
  case start =>
    exact ⟨_, execChkStart_of_owner on used own, (State.check_setCheck _ _ _ _).trans (if_pos rfl),
      fun m hm => (State.check_setCheck _ _ _ _).trans (if_neg hm), rfl⟩
  case data =>
    have after := (State.check_setCheck s n.val n.val { s.check n.val with
      fed := (s.check n.val).fed ++ orderBytes (s.check n.val).order (2 ^ z.val) v.toNat,
      busyTo := max (s.check n.val).busyTo s.now + 2 ^ z.val }).trans (if_pos rfl)
    exact ⟨_, execChkData_of_open on used ⟨own, opened⟩, congrArg CheckChannel.fed after, (congrArg CheckChannel.state after).trans opened,
      fun m hm => (State.check_setCheck _ _ _ _).trans (if_neg hm), rfl⟩
  case append =>
    have after := (State.check_setCheck (s.count (R.chk_CHK_MSGS n.val)) n.val n.val (s.check n.val).closeAppend).trans (if_pos rfl)
    exact ⟨_, (execChkEnd_of_open on used ⟨own, opened⟩).trans (if_pos append), congrArg CheckChannel.result after, congrArg CheckChannel.shown after,
      congrArg CheckChannel.counter after, congrArg CheckChannel.state after, s.toNat_reg_count _,
      fun m hm => (State.check_setCheck _ _ _ _).trans (if_neg hm)⟩
  case ends =>
    obtain ⟨t, run, channel, others, messages, event, -⟩ := execChkEnd_of_strip on used strip ⟨own, opened⟩
    exact ⟨t, run, by rw [channel]; rfl, others, messages, event⟩
  case short =>
    obtain ⟨t, run, channel, -, -, -, fails⟩ := execChkEnd_of_strip on used strip ⟨own, opened⟩
    obtain ⟨-, verdict, -, last⟩ := (s.check n.val).closeStrip_spec
    rw [CheckChannel.judge_of_short short] at verdict last fails
    exact ⟨t, run, by rw [channel, verdict], by rw [channel, last]; rfl, fails (show 4 ≠ 1 by decide)⟩
  case trailer =>
    intro body a x ha hx covered value stale fed
    obtain ⟨t, run, channel, -, -, -, fails⟩ := execChkEnd_of_strip on used strip ⟨own, opened⟩
    obtain ⟨-, verdict, shown, last⟩ := (s.check n.val).closeStrip_spec
    obtain ⟨found, wrong, old, good⟩ := CheckChannel.judge_of_trailer ha hx fed
    rw [found] at shown last
    obtain ⟨result, alive⟩ := Prod.mk.inj shown
    refine ⟨t, run, by rw [channel, result], by rw [channel, alive], fun h => ?_, fun h k => ?_, fun bad => ?_, fun h k => ⟨?_, ?_⟩⟩
    · rw [channel, verdict, wrong h]
    · rw [channel, verdict, old h k]
    · have fail : (s.check n.val).judge.1 ≠ 1 := by
        by_cases h : x = value
        · rw [old h (bad.resolve_left (not_not_intro h))]
          decide
        · rw [wrong h]
          decide
      exact ⟨by rw [channel, last, if_neg fail], fails fail⟩
    · rw [channel, verdict, good h k]
    · rw [channel, last, if_pos (good h k)]

end Sys2Proof.Machine
end

section
/-!
PROOF. A training of frame memory that fails (R291, R325, R326): it raises the memory controller's event before it logs MEM_TRAIN_FAIL.
Where that event meets a saturated interrupt source, IRQ_SATURATED joins the ledger's intake as well, which the statement leaves no room for.
-/

namespace Sys2Proof.Machine

/-- D0 runs; channel 0 is in service and its training runs; the event TRAIN_FAIL is enabled, and the memory controller's source has
counted 255. -/
def saturatedTraining : State :=
  (({ startup := { phase := 2 } } : State).setReg R.mem_EVENT_EN 2 |>.setSource 16 { count := 255 }).setMchan 0
    { state := .inService, trainDue := some 0, trainRun := true }

/-- The one failure makes two entries: IRQ_SATURATED, then MEM_TRAIN_FAIL. -/
theorem trainingDone_saturatedTraining :
    (match exec (.trainingDone 0 0 0) saturatedTraining with
      | .next t => t.ledger.outbox.map Entry.cls
      | _ => []) = [F.IRQ_SATURATED.code, F.MEM_TRAIN_FAIL.code] := by decide +kernel

/-- Refutes O43: MEM_TRAIN_FAIL need not be the only entry of a training that fails, since its event may find its interrupt source full. -/
theorem not_memoryIsRefreshedTrainedAndRetired : ¬ Obligations.MemoryIsRefreshedTrainedAndRetired := by
  unfold Obligations.MemoryIsRefreshedTrainedAndRetired
  rintro ⟨-, service, -⟩
  obtain ⟨-, -, -, -, -, -, -, -, -, -, -, -, trainings, -⟩ := service 0 saturatedTraining (by decide +kernel)
  obtain ⟨-, fails⟩ := trainings 0 0 (by decide +kernel)
  obtain ⟨keepsOld, -⟩ := fails (by decide)
  obtain ⟨t, run, -, logsOne, -⟩ := keepsOld (by decide +kernel) (by decide +kernel) (by decide +kernel)
  obtain ⟨e, outbox, -⟩ := logsOne (by decide +kernel)
  have two := trainingDone_saturatedTraining
  rw [run] at two
  have empty : saturatedTraining.ledger.outbox = [] := by decide +kernel
  rw [empty] at outbox
  have length : t.ledger.outbox.length = 2 := by simpa using congrArg List.length two
  simp [outbox] at length

end Sys2Proof.Machine
end

section
/-!
PROOF. A verification that fails (R315, R325, R326): it raises the recorder's event before it logs REC_VERIFY_FAIL. Where that event meets a
saturated interrupt source, IRQ_SATURATED joins the ledger's intake as well, which the statement leaves no room for.
-/

namespace Sys2Proof.Machine

/-- D0 runs; wheel 0, which the store does not hold, is being verified; the event VERIFY_DONE is enabled, and the recorder's source has
counted 255. -/
def saturatedVerification : State :=
  ({ startup := { phase := 2 }, recorder := { verifying := some 0 } } : State).setReg R.rec_EVENT_EN 16 |>.setSource 246 { count := 255 }

/-- The one failure makes two entries: IRQ_SATURATED, then REC_VERIFY_FAIL. -/
theorem verifyDone_saturatedVerification :
    (match exec .verifyDone saturatedVerification with
      | .next t => t.ledger.outbox.map Entry.cls
      | _ => []) = [F.IRQ_SATURATED.code, F.REC_VERIFY_FAIL.code] := by decide +kernel

/-- Refutes O45: REC_VERIFY_FAIL need not be the only entry of a verification that fails, since its event may find its interrupt source
full. -/
theorem not_wheelsAreSignedExportedAndVerified : ¬ Obligations.WheelsAreSignedExportedAndVerified := by
  unfold Obligations.WheelsAreSignedExportedAndVerified
  rintro ⟨-, -, -, -, -, -, -, verifies, -⟩
  obtain ⟨t, run, -, -, logsOne, -⟩ := verifies 0 true false false saturatedVerification (by decide +kernel) (by decide +kernel)
  obtain ⟨e, outbox, -⟩ := logsOne rfl (by decide +kernel)
  have two := verifyDone_saturatedVerification
  rw [run] at two
  have empty : saturatedVerification.ledger.outbox = [] := by decide +kernel
  rw [empty] at outbox
  have length : t.ledger.outbox.length = 2 := by simpa using congrArg List.length two
  simp [outbox] at length

end Sys2Proof.Machine
end

section
/-!
PROOF. An entry for which the response queue has no room (R72, R385, R395): device-safe is entered, and what it abandons may re-plan a failed
head (R252), whose cause then clears. The statement leaves no room for that: it keeps every cause when the entry raises none.
-/

namespace Sys2Proof.Machine

/-- An entry of severity 2 with a response, stamped before seeding. -/
def awaitedEntry : Entry := { stamp := 0, ctrl := 0, cls := F.SOURCE_STALE.code, own := 2, sev := 2, response := true, provisional := true }

/-- D0 runs. The entry is next, the response queue is full, head 0 has failed with its cause standing and its timing no longer planned, and
a full commit waits for a later rennet point. -/
def fullResponses : State :=
  ({ startup := { phase := 2 }, clock := { seeded := true },
     ledger := { intake := [awaitedEntry], responses := List.replicate 256 ⟨F.SOURCE_STALE.code, 2, 0⟩,
                 causes := [(.head 0, { cls := F.HEAD_FAILED.code, sev := 3 })] },
     commits := { live := [{ ticket := 1, stamp := 1000000, image := { kind := 1 } }] } } : State).setHead 0 { state := .failed, timing := [1] }

/-- The delivery clears the cause of the failed head. -/
theorem ledgerDeliver_fullResponses :
    (match exec .ledgerDeliver fullResponses with
      | .next t => t.ledger.causes.map fun e => e.2.cleared
      | _ => []) = [some 0] := by decide +kernel

/-- Refutes O57: the delivery of an entry that raises no cause may change the causes, when the response queue is full. -/
theorem not_theLedgerTakesAndDeliversEntries : ¬ Obligations.TheLedgerTakesAndDeliversEntries := by
  unfold Obligations.TheLedgerTakesAndDeliversEntries
  rintro ⟨-, delivery, -⟩
  obtain ⟨-, delivers, -⟩ := delivery fullResponses
  obtain ⟨-, -, stored⟩ := delivers awaitedEntry [] (by decide +kernel) (by decide +kernel)
  obtain ⟨t, run, -, -, -, -, causes, -⟩ := stored (.inl (by decide +kernel))
  have cleared := ledgerDeliver_fullResponses
  rw [run] at cleared
  dsimp only at cleared
  rw [causes (.inl (by decide))] at cleared
  exact absurd cleared (by decide +kernel)

end Sys2Proof.Machine
end

section
/-!
PROOF. The release of D0 while the supply warning stands (R367, R410): the warning takes every channel to its harmless state, and the end of
an open frame frees the coder that a takeover left behind (R199). In a state that names a coder no module has, number 131, the tile so freed
is that of the recorder, which then ripens. The statement ranges over such states too.
-/

namespace Sys2Proof.Machine

/-- A plan of one line of one curd, 16 pixels wide. -/
def oneCurdPlan : List Byte := [0, 0, 1, 0, 16, 0, 1, 0, 0, 0, 0, 0, 16, 0, 0, 0, 0, 0, 0, 0, 16, 0]

/-- D0 may leave reset under a supply warning; the output gate is open, and channel 0 has an open frame whose only line completes the
takeover from coder 131. -/
def heldRelease : State :=
  (({ startup := { gateOpen := true }, hull := { rails := 10, running := true, sag := true } } : State).setChan 0
    { state := .coding, plan := oneCurdPlan, frames := [{ number := 0, rtp := 0, startStamp := 0, n := 0, secs := { plan := oneCurdPlan } }] }).setRind 0
    { prev := some 131, prevCause := 6, handing := true, takeLine := 1 }

/-- The tile of the recorder ripens. -/
theorem startD0Release_heldRelease :
    (match exec .startD0Release heldRelease with
      | .next t => (t.tile (tileNo 7 1)).state
      | _ => .inService) = .ripening := by decide +kernel

/-- Refutes O59: the recorder's tile need not be in service when D0 leaves reset. -/
theorem not_resetsByThePinAndByHostSoftware : ¬ Obligations.ResetsByThePinAndByHostSoftware := by
  unfold Obligations.ResetsByThePinAndByHostSoftware
  rintro ⟨-, resets⟩
  obtain ⟨-, -, -, -, -, -, -, -, releases, -⟩ := resets heldRelease
  obtain ⟨t, run, ⟨-, -, -, -, -, -, tile, -⟩, -⟩ :=
    releases (by decide +kernel) (by decide +kernel) (by decide +kernel) (by decide +kernel) (by decide +kernel)
  have ripens := startD0Release_heldRelease
  rw [run] at ripens
  exact absurd (ripens.symm.trans tile) (by decide)

end Sys2Proof.Machine
end

section
/-!
PROOF. What the work on outputs, commits and tiles leaves steady: the registers of the memory controller, the ledger but for entries,
rates and causes, and the recorder but for what it has staged and shed.
-/

namespace Sys2Proof.Machine

/-- A ledger without the entries on their way, the rates and the causes. -/
def Ledger.steady (l : Ledger) : Ledger := { l with outbox := [], rates := [], causes := [] }

/-- A recorder without what it has staged and shed. -/
def Recorder.steady (r : Recorder) : Recorder := { r with staging := [], abandoned := 0, shedTap := {}, shedProxy := {}, shedAudio := {} }

/-- The address lies in the block of a memory channel (Table 12-7). -/
abbrev inMemChannels (a : Nat) : Prop := a / 0x10000 = 0xA1

/-- The registers of the memory channels, the ledger and the recorder are as they were, but for entries, rates, causes and what is
staged and shed. -/
structure State.Steady (s t : State) : Prop where
  memRegs  : ∀ a, inMemChannels a → t.reg a = s.reg a
  ledger   : t.ledger.steady = s.ledger.steady
  recorder : t.recorder.steady = s.recorder.steady

section
variable {s t u : State}

theorem State.Steady.refl (s : State) : s.Steady s := ⟨fun _ _ => rfl, rfl, rfl⟩

theorem State.Steady.trans (h : s.Steady t) (k : t.Steady u) : s.Steady u :=
  ⟨fun a ha => (k.memRegs a ha).trans (h.memRegs a ha), k.ledger.trans h.ledger, k.recorder.trans h.recorder⟩

theorem State.Steady.foldl {β : Type} {f : State → β → State} (l : List β) (hf : ∀ y : State, ∀ b ∈ l, y.Steady (f y b)) (s : State) :
    s.Steady (l.foldl f s) :=
  List.foldlRecOn (motive := fun y => s.Steady y) l f (.refl s) fun y hy b hb => hy.trans (hf y b hb)

theorem State.Steady.ite {a b : State} {p : Prop} [Decidable p] (h : s.Steady a) (k : s.Steady b) : s.Steady (if p then a else b) := by
  split
  · exact h
  · exact k

/-- An operation that touches neither registers nor ledger nor recorder. -/
theorem Keeps.steady {A : Nat} (h : Keeps A s t) (hr : A.testBit (Part.bit .regs) = false) (hl : A.testBit (Part.bit .ledger) = false)
    (hc : A.testBit (Part.bit .recorder) = false) : s.Steady t where
  memRegs a _ := State.reg_of_regs a (h.same .regs hr)
  ledger := by rw [h.same .ledger hl]
  recorder := by rw [h.same .recorder hc]

theorem State.Steady.of_ledger (s : State) {l : Ledger} (h : l.steady = s.ledger.steady) : s.Steady { s with ledger := l } := ⟨fun _ _ => rfl, h, rfl⟩

theorem State.Steady.of_recorder (s : State) {r : Recorder} (h : r.steady = s.recorder.steady) : s.Steady { s with recorder := r } :=
  ⟨fun _ _ => rfl, rfl, h⟩

theorem State.Steady.of_regs (s : State) {regs : Sparse Word} (h : ∀ a, inMemChannels a → Sparse.get resetOf regs a = s.reg a) :
    s.Steady { s with regs := regs } := ⟨h, rfl, rfl⟩

end

/-! ## Entries, counts and events -/

section
variable (s : State)

theorem State.logEntry_steady (e : Entry) : s.Steady (s.logEntry e) := by
  unfold State.logEntry
  exact .ite (.of_ledger s rfl) (.refl s)

theorem State.logRated_steady (f : FaultClass) (inst ctrl dp : Nat) (data : Nat → List Byte) (only : Bool) (stamp : Stamp) :
    s.Steady (s.logRated f inst ctrl dp data only stamp) := by
  unfold State.logRated
  extract_lets old n ready rest
  split
  · refine State.Steady.trans ?_ (State.logEntry_steady _ _)
    exact ⟨fun _ _ => rfl, rfl, rfl⟩
  · exact ⟨fun _ _ => rfl, rfl, rfl⟩

theorem State.log_steady (f : FaultClass) (ctrl : Nat) (data : List Byte) : s.Steady (s.log f ctrl data) := s.logEntry_steady _

theorem State.logData_steady (f : FaultClass) (ctrl dp : Nat) (data : List Byte) : s.Steady (s.logData f ctrl dp data) := s.logEntry_steady _

theorem State.logOut_steady (f : FaultClass) (ctrl dp : Nat) (outs : List (Output × Nat)) (data : List Byte) :
    s.Steady (s.logOut f ctrl dp outs data) := s.logEntry_steady _

theorem State.countBy_steady {a : Nat} (n : Nat) (ha : ¬inMemChannels a) : s.Steady (s.countBy a n) :=
  .of_regs s fun b hb => (s.reg_countBy a n b).trans (if_neg (ne_of_mem_of_not_mem (s := { x | inMemChannels x }) hb ha))

theorem State.count_steady {a : Nat} (ha : ¬inMemChannels a) : s.Steady (s.count a) := s.countBy_steady 1 ha

theorem State.irqCount_steady (n : Nat) : s.Steady (s.irqCount n) := by
  have work := State.irqCount_holdsKept (n := n) (.refl s)
  refine ⟨fun a ha => s.reg_irqCount n a fun e => ?_, ?_, by rw [(State.irqCount_keeps rfl (.refl 0x4800000001 s)).same .recorder rfl]⟩
  · rw [e, inMemChannels, R.hub_SATURATED, R.hub] at ha
    omega
  · have arbitrated (y : State) : y.arbitrate.ledger = y.ledger := (State.arbitrate_keeps rfl (.refl 0x800000000 y)).same .ledger rfl
    unfold State.irqCount
    dsimp only
    repeat' split
    · rfl
    · rw [arbitrated]
      rfl
    · rfl
    · rw [arbitrated]
      exact (State.logEntry_steady _ _).ledger

theorem State.event_steady {e : Nat} (m : Nat) (he : ¬inMemChannels e) : s.Steady (s.event e m) where
  memRegs a ha := by
    have apart : a ≠ R.hub_SATURATED := by
      rintro rfl
      rw [inMemChannels, R.hub_SATURATED, R.hub] at ha
      omega
    exact (s.reg_event e m a apart).trans (if_neg (ne_of_mem_of_not_mem (s := { x | inMemChannels x }) ha he))
  ledger := by
    unfold State.event
    dsimp only
    split
    · split
      · exact (State.irqCount_steady _ _).ledger
      · rfl
    · rfl
  recorder := by rw [(State.event_keeps rfl (.refl 0x4800000005 s)).same .recorder rfl]

end

/-! ## Records (R302, R306, R309) -/

section
variable (s : State)

theorem State.modRecorder_steady {f : Recorder → Recorder} (hf : (f s.recorder).steady = s.recorder.steady) : s.Steady (s.modRecorder f) :=
  .of_recorder s hf

theorem Recorder.setShed_steady (r : Recorder) (type : Nat) (x : Shed) : (r.setShed type x).steady = r.steady := by
  unfold Recorder.setShed
  split <;> rfl

theorem dropsReg_apart (type : Nat) : ¬inMemChannels (dropsReg type) := by
  unfold dropsReg
  split <;> decide

theorem State.dropRecord_steady : s.Steady s.dropRecord := by
  unfold State.dropRecord
  exact s.modRecorder_steady rfl

theorem State.admitRecord_steady (type source : Nat) (payload : List Byte) : s.Steady (s.admitRecord type source payload) := by
  unfold State.admitRecord
  split
  · exact .refl s
  · extract_lets back add
    have added (y : State) : y.Steady (add y) := y.modRecorder_steady rfl
    split
    · exact added s
    · dsimp only
      refine .ite ?shed ?admitted
      case shed =>
        exact ((s.modRecorder_steady (Recorder.setShed_steady _ _ _)).trans (State.count_steady _ (dropsReg_apart type))).trans
          ((State.event_steady _ 4 (by decide)).trans (State.logRated_steady _ _ _ _ _ _ _ _))
      case admitted =>
        exact (s.modRecorder_steady (Recorder.setShed_steady _ _ _)).trans ((State.Steady.ite (State.dropRecord_steady _) (.refl _)).trans (added _))

theorem State.channelProxy_steady (c : Nat) (f : TxFrame) : s.Steady (s.channelProxy c f) := by
  unfold State.channelProxy
  split
  · exact .refl s
  · extract_lets g sums w blocks voids px drawn
    have drawn : s.Steady drawn := ⟨fun _ _ => rfl, rfl, rfl⟩
    exact drawn.trans ((State.admitRecord_steady _ _ _ _).trans ((State.modChIn_keeps rfl (.refl 0x200000 _)).steady rfl rfl rfl))

/-! ## Tiles and coders (R74, R199, R374) -/

/-- The block of the memory channels belongs to tile 10 of D0. -/
theorem inMemChannels.tile {a : Nat} (h : inMemChannels a) : a / 0x100000 = 10 := by
  unfold inMemChannels at h
  omega

theorem State.clearTileRegs_steady {d : Nat} (t : Nat) (hd : 1 ≤ d) : s.Steady (s.clearTileRegs d t) :=
  .of_regs s fun a ha => (Sparse.get_filter resetOf (fun a => a / 0x100000 != 256 * d + t) _ a).trans
    (if_pos (bne_iff_ne.2 (ha.tile.trans_ne (by omega))))

theorem State.clearTileCounts_steady_of_pos {d : Nat} (t : Nat) (hd : 1 ≤ d) : s.Steady (s.clearTileCounts d t) := by
  unfold State.clearTileCounts
  split
  · exact .refl s
  · extract_lets counter cleared coder
    have regs : s.Steady cleared := by
      refine .of_regs s fun a ha => (Sparse.get_filter resetOf (fun a => !(a / 0x100000 == 256 * d + t && counter a)) _ a).trans (if_pos ?_)
      have apart : (a / 0x100000 == 256 * d + t) = false := beq_eq_false_iff_ne.2 (by rw [ha.tile]; omega)
      rw [apart]
      rfl
    have peak : cleared.Steady coder := by
      unfold coder
      split
      · exact (State.modCoder_keeps rfl (.refl 0x1000000 cleared)).steady rfl rfl rfl
      · exact .refl _
    refine (regs.trans peak).trans (.ite (.foldl _ (fun y c _ => .ite ?_ (.refl y)) _) (.refl _))
    exact (State.modChan_keeps rfl (.refl 0x800000 y)).steady rfl rfl rfl

theorem State.gate_steady {d : Nat} (t cause : Nat) (hd : 1 ≤ d) : s.Steady (s.gate d t cause) := by
  unfold State.gate
  dsimp only
  have gated := ((State.modTile_keeps (n := tileNo d t) (f := fun x => { x with state := .gated, cause := cause }) rfl
    (.refl 0x8000 s)).steady rfl rfl rfl).trans (State.clearTileRegs_steady _ t hd)
  split
  · exact gated.trans ((State.modCoder_keeps rfl (.refl 0x1000000 _)).steady rfl rfl rfl)
  · exact gated

theorem State.tileUnused_pos {d t : Nat} (h : s.tileUnused d t = true) : 1 ≤ d := by
  cases d with
  | zero => exact absurd h Bool.false_ne_true
  | succ d => exact Nat.succ_pos d

theorem State.gateUnusedOf_steady (l : List (Nat × Nat)) : s.Steady (s.gateUnusedOf l) := by
  refine .foldl l (fun y x _ => ?_) s
  split
  next h =>
    simp only [Bool.and_eq_true] at h
    exact y.gate_steady x.2 2 (y.tileUnused_pos h.1.2)
  · exact .refl y

theorem State.trimCoders_steady : s.Steady s.trimCoders := .ite (s.gateUnusedOf_steady _) (.refl s)

theorem State.spareCheck_steady : s.Steady s.spareCheck := by
  unfold State.spareCheck
  extract_lets waits n
  have rolled : s.Steady waits := (State.rollWaits_keeps rfl (.refl 0x4000 s)).steady rfl rfl rfl
  have pair (f : Pair → Pair) : s.Steady (waits.modPair f) := rolled.trans ((State.modPair_keeps rfl (.refl 0x10000000 _)).steady rfl rfl rfl)
  refine .ite (.ite rolled ?_) (.ite (pair _) rolled)
  exact (pair _).trans ((State.event_steady _ 4 (by decide)).trans (State.log_steady _ _ _ _))

theorem State.freeCoder_steady (k cause : Nat) : s.Steady (s.freeCoder k cause) := by
  unfold State.freeCoder
  extract_lets gone freed
  have before : Keeps 0x1008000 s freed := by
    refine Keeps.ite ?_ (Keeps.ite ?_ ?_)
    · exact State.modCoder_keeps rfl (State.modCoder_keeps rfl (.refl _ s))
    · exact State.modTile_keeps rfl (State.modCoder_keeps rfl (State.modCoder_keeps rfl (.refl _ s)))
    · exact State.modCoder_keeps rfl (State.modCoder_keeps rfl (.refl _ s))
  exact (before.steady rfl rfl rfl).trans (freed.spareCheck_steady.trans (State.trimCoders_steady _))

/-! ## The rind and the end of a channel (R142, R193, R200) -/

theorem State.modRind_steady (c : Nat) (f : Rind → Rind) : s.Steady (s.modRind c f) :=
  (State.modRind_keeps rfl (.refl 0x4000000 s)).steady rfl rfl rfl

theorem State.modChan_steady (c : Nat) (f : Chan → Chan) : s.Steady (s.modChan c f) :=
  (State.modChan_keeps rfl (.refl 0x800000 s)).steady rfl rfl rfl

theorem State.under_steady {f : State → State} (hf : ∀ y : State, y.Steady (f y)) (c n : Nat) : s.Steady (s.under c n f) := by
  unfold State.under
  split
  · exact hf s
  · dsimp only
    split
    · exact hf s
    · exact ((s.modChan_steady c _).trans (hf _)).trans (State.modChan_steady _ c _)

theorem State.fenceReport_steady (c : Nat) : s.Steady (s.fenceReport c) := by
  unfold State.fenceReport
  dsimp only
  split
  · exact .refl s
  · exact (s.modRind_steady c _).trans (State.logData_steady _ _ _ _ _)

theorem State.handedOver_steady (c : Nat) : s.Steady (s.handedOver c) := by
  unfold State.handedOver
  dsimp only
  have told := (s.modRind_steady c fun x => { x with handing := false, fenced := false, prev := none }).trans (State.fenceReport_steady _ c)
  repeat' split
  · exact told
  · exact told.trans (State.freeCoder_steady _ _ _)
  · exact told

theorem State.lineResolved_steady (c frame line : Nat) : s.Steady (s.lineResolved c frame line) := .ite (s.handedOver_steady c) (.refl s)

theorem State.frameResolved_steady (c : Nat) : s.Steady (s.frameResolved c) := .ite (s.handedOver_steady c) (.refl s)

theorem State.closeLine_steady (c number line : Nat) : s.Steady (s.closeLine c number line) := by
  unfold State.closeLine
  split
  · exact .refl s
  · extract_lets rs packed last sent next recorded noted
    have before : Keeps 0x8800000 s sent := by
      refine State.chanSend_keeps rfl ?_
      unfold packed
      split
      · exact Keeps.ite (State.closePacket_keeps rfl (.refl _ s)) (.refl _ s)
      · exact .refl _ s
    have after : Keeps 0x4800000 sent noted := State.modFrame_keeps rfl (State.modLineRecord_keeps rfl (.refl _ sent))
    exact (before.steady rfl rfl rfl).trans <| (after.steady rfl rfl rfl).trans (noted.lineResolved_steady c number line)

theorem State.closeFrame_steady (c : Nat) : s.Steady (s.closeFrame c) := by
  unfold State.closeFrame
  split
  · exact .refl s
  next f rest _ =>
    split
    · exact .refl s
    · split
      · exact .refl s
      · refine s.under_steady (fun y => ?_) c f.number
        extract_lets sent x r recorded noted closed
        have before : Keeps 0x8800000 y sent := State.chanSend_keeps rfl (.refl _ y)
        have after : Keeps 0x14800000 sent (noted.modChan c fun x => { x with frames := rest, lastClose := some f.number, n := (f.n + 1) % 2 ^ 32 }) :=
          State.modChan_keeps rfl (State.modPair_keeps rfl (State.modRind_keeps rfl (.refl _ sent)))
        exact (before.steady rfl rfl rfl).trans <| (after.steady rfl rfl rfl).trans <|
          (State.channelProxy_steady _ c f).trans (closed.frameResolved_steady c)

/-- The blocks of the egress channels and of the rinds lie above that of the memory channels. -/
theorem inMemChannels.lt {a : Nat} (h : inMemChannels a) : a < 0xA20000 := by
  unfold inMemChannels at h
  omega

theorem cc_apart (e c k : Nat) : ¬inMemChannels (R.cc e c + k) := fun h => absurd h.lt (by rw [R.cc]; omega)

theorem rind_apart (c k : Nat) : ¬inMemChannels (R.rind c + k) := fun h => absurd h.lt (by rw [R.rind]; omega)

theorem State.resolve_steady (c : Nat) (j : Job) (o : Outcome3) : s.Steady (s.resolve c j o) := by
  unfold State.resolve
  extract_lets e col g pos n zone how sent void marked closing noted lacking opened head record recon counted voided zoned rtp carried
    after out lined
  have before : Keeps 0x4800000 s opened := State.openRecord_keeps rfl (Keeps.ite
    (State.modChan_keeps rfl (State.modFrame_keeps rfl (State.modChan_keeps rfl (State.modJob_keeps rfl (.refl _ s)))))
    (State.modFrame_keeps rfl (State.modChan_keeps rfl (State.modJob_keeps rfl (.refl _ s)))))
  have h1 : s.Steady opened := before.steady rfl rfl rfl
  have h2 : opened.Steady counted := (State.count_steady opened (cc_apart e c _)).trans (State.count_steady _ (rind_apart c _))
  have h3 : counted.Steady voided := .ite (State.count_steady _ (cc_apart e c _)) (.refl _)
  have h4 : voided.Steady zoned := .ite (State.count_steady _ (cc_apart e c _)) (.refl _)
  have h5 : Keeps 0x8800000 zoned carried :=
    Keeps.ite (State.packRecord_keeps rfl (.refl _ _)) (State.chanSend_keeps rfl (.refl _ _))
  have h6 : s.Steady out := by
    refine .ite (h1.trans (State.count_steady opened (cc_apart e c _))) ?sent
    exact ((((h1.trans h2).trans h3).trans h4).trans (h5.steady rfl rfl rfl)).trans
      ((State.pressFollows_keeps rfl (State.modLineRecord_keeps rfl (.refl 0x4800000 carried))).steady rfl rfl rfl)
  have h7 : s.Steady lined := by
    unfold lined
    split
    · exact .ite (h6.trans (out.closeLine_steady c _ _)) h6
    · exact h6
  exact h7.trans <| (lined.closeFrame_steady c).trans ((State.dropJobs_keeps rfl (.refl 0x800000 _)).steady rfl rfl rfl)

theorem State.finishFrame_steady (c : Nat) (f : TxFrame) : s.Steady (s.finishFrame c f) := by
  unfold State.finishFrame
  refine ((State.modFrame_keeps rfl (.refl 0x800000 s)).steady rfl rfl rfl).trans (State.under_steady _ (fun y => ?_) c f.number)
  exact .foldl _ (fun y line _ => .foldl _ (fun y e _ => .ite (y.resolve_steady c _ .void) (.refl y)) y) y

theorem State.finishFrames_steady (c : Nat) : s.Steady (s.finishFrames c) :=
  (State.Steady.foldl _ (fun y f _ => y.finishFrame_steady c f) s).trans (State.modChan_steady _ c _)

theorem State.channelHarmless_steady (c reason cls : Nat) : s.Steady (s.channelHarmless c reason cls) := by
  unfold State.channelHarmless
  split
  · exact .refl s
  · split
    · exact .refl s
    · exact .refl s
    · exact (s.finishFrames_steady c).trans ((State.beginEov_keeps rfl (State.modChan_keeps rfl (.refl 0x8800000 _))).steady rfl rfl rfl)

theorem State.goHarmless_steady (o : Output) (reason cls : Nat) : s.Steady (s.goHarmless o reason cls) := by
  cases o with
  | channel c => exact s.channelHarmless_steady c reason cls
  | head h => exact .ite ((State.modHead_keeps rfl (.refl 0x20000000 s)).steady rfl rfl rfl) (.refl s)
  | audio n => exact .refl s
  | tio n => exact ⟨fun _ _ => rfl, rfl, rfl⟩

theorem State.allHarmless_steady (reason cls : Nat) : s.Steady (s.allHarmless reason cls) := by
  refine .foldl _ (fun y o _ => ?_) s
  cases o with
  | channel c => exact y.goHarmless_steady _ _ _
  | head h => exact y.goHarmless_steady _ _ _
  | audio n => exact y.goHarmless_steady _ _ _
  | tio n => exact .ite (y.goHarmless_steady _ _ _) (.refl y)

end

end Sys2Proof.Machine
end

section
/-!
PROOF. An abandoned commit, and the slot or the entry into device-safe that abandons it, leave steady what the outputs' work does.
-/

namespace Sys2Proof.Machine

/-! ## Frames that leave the ports (R94, R113, R240) -/

section
variable (s : State)

/-- The ports that a byte numbers count outside the memory channels. -/
theorem txFrames_apart {p : Nat} (h : p < 256) : ¬inMemChannels (if p < 32 then R.port_TX_FRAMES p else R.mp_TX_FRAMES (p - 32)) := by
  unfold inMemChannels
  split
  · rw [R.port_TX_FRAMES, R.port]
    omega
  · rw [R.mp_TX_FRAMES, R.mp]
    omega

theorem State.txFrame_steady {p : Nat} (h : p < 256) : s.Steady (s.txFrame p) := s.count_steady (txFrames_apart h)

theorem State.sendMedia_steady (path rtp : List Byte) : s.Steady (s.sendMedia path rtp) :=
  (s.txFrame_steady (le_one_lt _ _)).trans ((State.send_keeps rfl (.refl 0x20 _)).steady rfl rfl rfl)

theorem State.sendOther_steady {p : Nat} (n : Nat) (x : Sent) (h : p < 256) : s.Steady (s.sendOther p n x) := by
  have sent : s.Steady ((s.txFrame p).send x) := (s.txFrame_steady h).trans ((State.send_keeps rfl (.refl 0x20 _)).steady rfl rfl rfl)
  have ported (y : State) (f : Port → Port) : y.Steady (y.modPort p f) := (State.modPort_keeps rfl (.refl 0x40000 y)).steady rfl rfl rfl
  exact .ite (.refl s) (.ite sent (.ite (sent.trans (ported _ _)) (ported s _)))

theorem State.sendReport_steady {p : Nat} (group source : Nat) (join : Bool) (h : p < 256) : s.Steady (s.sendReport p group source join) :=
  .ite (.refl s) (s.sendOther_steady _ _ h)

theorem State.leave_steady {x : Nat × Nat × Nat} (h : x.1 < 256) : s.Steady (s.leave x) := by
  unfold State.leave
  split
  · exact State.Steady.trans ((State.modPort_keeps rfl (.refl 0x40000 s)).steady rfl rfl rfl) (State.sendReport_steady _ _ _ _ h)
  · exact .refl s

theorem State.leaveUnneeded_steady : s.Steady s.leaveUnneeded := by
  refine .foldl _ (fun y p hp => .foldl _ (fun z j _ => .ite (.refl z) (z.leave_steady ?_)) y) s
  exact (List.mem_range.1 hp).trans (by decide)

theorem State.dropRebuild_steady (ticket : Nat) : s.Steady (s.dropRebuild ticket) :=
  .ite (((State.modFt_keeps rfl (.refl 0x100000 s)).steady rfl rfl rfl).trans (State.leaveUnneeded_steady _)) (.refl s)

/-! ## Heads (R243, R246 to R248) -/

theorem State.modHead_steady (n : Nat) (f : Head → Head) : s.Steady (s.modHead n f) :=
  (State.modHead_keeps rfl (.refl 0x20000000 s)).steady rfl rfl rfl

theorem head_apart (n k : Nat) : ¬inMemChannels (R.head n + k) := fun h => absurd h.lt (by rw [R.head]; omega)

theorem headPkts_apart (n : Nat) (pathB : Bool) : ¬inMemChannels (headPkts n pathB) := by
  cases pathB
  · exact head_apart n _
  · exact head_apart n _

theorem State.headGap_steady (n : Nat) (pathB : Bool) : s.Steady (s.headGap n pathB) := by
  unfold State.headGap
  dsimp only
  split
  · split
    · exact (s.modHead_steady n _).trans ((State.sendMedia_steady _ _ _).trans (State.count_steady _ (headPkts_apart n pathB)))
    · exact .refl s
  · exact .refl s

theorem State.headSend_steady (n : Nat) (packet : Nat → List Byte) : s.Steady (s.headSend n packet) := by
  refine (s.modHead_steady n _).trans (.foldl _ (fun y pathB _ => .ite ?_ (y.modHead_steady n _)) _)
  exact (y.headGap_steady n pathB).trans ((State.sendMedia_steady _ _ _).trans (State.count_steady _ (headPkts_apart n pathB)))

theorem State.headEov_steady (n reason : Nat) : s.Steady (s.headEov n reason) := by
  unfold State.headEov
  extract_lets h element rtp sent
  have hsent : s.Steady sent := s.headSend_steady n _
  exact (hsent.trans (State.count_steady _ (head_apart n _))).trans (State.modHead_steady _ n _)

theorem State.clearCause_steady (o : Output) (cls : Nat) : s.Steady (s.clearCause o cls) := ⟨fun _ _ => rfl, rfl, rfl⟩

theorem State.enterMode_steady (n : Nat) (p : List Byte) (gang : Bool) : s.Steady (s.enterMode n p gang) := by
  unfold State.enterMode
  extract_lets h old freed left told gap logged timed
  have hfreed : s.Steady freed := by
    unfold freed
    split
    · exact (s.modHead_steady n _).trans (State.clearCause_steady _ _ _)
    · exact .refl s
  have hleft : s.Steady left := hfreed.trans (State.modHead_steady _ n _)
  have htold : s.Steady told := hleft.trans (.ite (State.headEov_steady _ _ _) (.refl _))
  split
  · have hlogged : s.Steady logged := (htold.trans (State.modHead_steady _ n _)).trans (State.logOut_steady _ _ _ _ _ _)
    have run : Keeps 0x20000000 logged (timed.runFrom n ((headTiming p).firstAfter timed.ptpNs.toNat)) :=
      State.runFrom_keeps rfl (State.lineLimit_keeps rfl (State.modHead_keeps rfl (.refl _ logged)))
    exact hlogged.trans (run.steady rfl rfl rfl)
  · exact htold.trans (State.modHead_steady _ n _)

theorem State.headCommit_steady (n : Nat) (stamp : Stamp) (replan : Bool) : s.Steady (s.headCommit n stamp replan) := by
  unfold State.headCommit
  extract_lets h t secs staged p g on start
  have staged : s.Steady staged := .ite (.refl s) (s.modHead_steady n _)
  have started (y : State) : y.Steady (start y) :=
    (State.runFrom_keeps rfl (State.modHead_keeps rfl (.refl 0x20000000 y))).steady rfl rfl rfl
  have modded (y : State) (f : Head → Head) : y.Steady (y.modHead n f) := y.modHead_steady n f
  split
  · exact staged.trans (.ite (started _) (modded _ _))
  · exact staged.trans (.ite (started _) (.refl _))
  · exact staged.trans (.ite (.ite (.refl _) (started _)) (modded _ _))
  · exact staged.trans (.ite (.ite (modded _ _) (State.enterMode_steady _ n p g)) (.refl _))

/-! ## The starts of outputs and port groups (R75, R187) -/

theorem State.applySections_steady (c : Nat) : s.Steady (s.applySections c) := by
  unfold State.applySections
  extract_lets p z k x old geom qs keyed same applied
  have applied : s.Steady applied := s.modChan_steady c _
  exact .ite (applied.trans (State.logOut_steady _ _ _ _ _ _)) applied

theorem State.startChannel_steady (c : Nat) : s.Steady (s.startChannel c) := by
  unfold State.startChannel
  refine .ite ?planned (.ite (.refl s) (s.modChan_steady c _))
  extract_lets fresh applied enabled
  have hfresh : s.Steady fresh := .ite ⟨fun _ _ => rfl, rfl, rfl⟩ (.refl s)
  have happlied : s.Steady applied := hfresh.trans (fresh.applySections_steady c)
  have henabled : s.Steady enabled := happlied.trans ((State.enableChannel_keeps rfl (.refl 0xa00000 _)).steady rfl rfl rfl)
  exact .ite (.ite (henabled.trans (State.channelHarmless_steady _ _ _ _)) henabled) happlied

theorem State.startOutputs_steady (stamp : Stamp) : s.Steady (s.startOutputs stamp) := by
  have channels := State.Steady.foldl (List.range 48) (fun y c _ => y.startChannel_steady c) s
  have heads := channels.trans (.foldl (List.range 16) (fun y h _ => y.headCommit_steady h stamp false) _)
  exact heads.trans ((State.audioWait_keeps rfl (.refl 0x100000000 _)).steady rfl rfl rfl)

theorem lane_apart {l : Nat} (h : l < 256) : ¬inMemChannels (R.lane_BRINGUPS l) := by
  unfold inMemChannels
  rw [R.lane_BRINGUPS, R.lane]
  split <;> omega

/-- The lanes of a port of a group lie within the group. -/
theorem State.lanesOf_lt {p l : Nat} (hp : p < 32) (h : l ∈ s.lanesOf p) : l < 256 := by
  unfold State.lanesOf at h
  rw [if_neg (by omega)] at h
  obtain ⟨i, hi, rfl⟩ := List.mem_map.1 h
  have hi := List.mem_range.1 hi
  have width : 8 / portsOfMode (s.groupMode (p / 8)) ≤ 8 := Nat.div_le_self _ _
  have slots := Nat.mul_le_mul (Nat.le_of_lt_succ (Nat.mod_lt p (by decide : 0 < 8)) : p % 8 ≤ 7) width
  omega

theorem State.startTry_steady {p : Nat} (preset : Nat) (h : p < 32) : s.Steady (s.startTry p preset) := by
  refine State.Steady.trans ((State.modPort_keeps rfl (.refl 0x40000 s)).steady rfl rfl rfl) (.foldl _ (fun y l hl => ?_) _)
  exact (y.count_steady (lane_apart (State.lanesOf_lt _ h hl))).trans ((State.modLane_keeps rfl (.refl 0x20000 _)).steady rfl rfl rfl)

theorem State.tryAttempt_steady {p : Nat} (h : p < 32) : s.Steady (s.tryAttempt p) := by
  refine .ite ?_ (.refl s)
  unfold State.startAttempt
  refine State.Steady.trans ?prepared (State.startTry_steady _ 0 h)
  refine State.Steady.trans ((State.modPort_keeps rfl (.refl 0x40000 s)).steady rfl rfl rfl) (.foldl _ (fun y l _ => ?_) _)
  exact (State.modLane_keeps rfl (.refl 0x20000 y)).steady rfl rfl rfl

theorem busPorts_lt {g p : Nat} (hg : g < 4) (h : p ∈ busPorts g) : p < 32 := by
  rw [busPorts, if_pos hg] at h
  obtain ⟨i, hi, rfl⟩ := List.mem_map.1 h
  have hi := List.mem_range.1 hi
  omega

theorem State.groupRejoin_steady {g : Nat} (hg : g < 4) : s.Steady (s.groupRejoin g) :=
  .foldl _ (fun y _ hp => State.Steady.trans ((State.modPort_keeps rfl (.refl 0x40000 y)).steady rfl rfl rfl)
    (State.tryAttempt_steady _ (busPorts_lt hg hp))) s

theorem State.groupBack_steady (d t : Nat) : s.Steady (s.groupBack d t) := by
  unfold State.groupBack
  split
  next h => exact s.groupRejoin_steady h.2
  next =>
    split
    next h => exact s.groupRejoin_steady (by omega)
    next =>
      split
      next h => exact s.groupRejoin_steady h.2
      next => exact .refl s

/-! ## Commits that end without applying (R64, R72) -/

theorem roleGates_pos {r d t : Nat} (h : roleGates r d t = true) : 1 ≤ d := by
  cases d with
  | zero => simp [roleGates] at h
  | succ d => exact Nat.succ_pos d

/-- No counters of D0 clear. -/
theorem State.clearTileCounts_steady (d t : Nat) : s.Steady (s.clearTileCounts d t) := by
  cases d with
  | zero => exact .refl s
  | succ d => exact s.clearTileCounts_steady_of_pos t (Nat.succ_pos d)

theorem State.tileRejoins_steady (x : Nat × Nat) : s.Steady (s.tileRejoins x) := by
  unfold State.tileRejoins
  extract_lets n served
  split
  · exact .refl s
  · split
    next r _ =>
      split
      next h => exact s.gate_steady x.2 1 (roleGates_pos h)
      next =>
        have hserved : s.Steady served :=
          State.Steady.trans ((State.modTile_keeps rfl (.refl 0x8000 s)).steady rfl rfl rfl) (State.clearTileCounts_steady _ x.1 x.2)
        split
        · exact hserved.trans ((State.modCoder_keeps rfl (.refl 0x1000000 _)).steady rfl rfl rfl)
        · exact hserved.trans (served.groupBack_steady x.1 x.2)
    next => exact .refl s

theorem State.rejoin_steady (c : Commit) : s.Steady (s.rejoin c) := by
  unfold State.rejoin
  extract_lets left tiles started rolled checked
  have htiles : s.Steady tiles := (s.dropRebuild_steady _).trans (.foldl _ (fun y x _ => y.tileRejoins_steady x) _)
  have hstarted : s.Steady started := htiles.trans (.ite (State.startOutputs_steady _ _) (.refl _))
  have hrolled : s.Steady rolled := by
    refine hstarted.trans (.ite (.foldl _ (fun y k _ => ?_) _) (.refl _))
    extract_lets unloaded t
    have hun : y.Steady unloaded := (State.modCoder_keeps rfl (.refl 0x1000000 y)).steady rfl rfl rfl
    refine hun.trans (.ite ?_ (.refl _))
    have served : Keeps 0x1008000 unloaded ((unloaded.modCoder k fun y => { y with state := .ripe }).modTile (tileNo t.1 t.2) fun y =>
        { y with state := .inService }) := State.modTile_keeps rfl (State.modCoder_keeps rfl (.refl _ _))
    exact (served.steady rfl rfl rfl).trans (State.clearTileCounts_steady _ _ _)
  have hchecked : s.Steady checked := hrolled.trans rolled.spareCheck_steady
  exact hchecked.trans (.ite (checked.gateUnusedOf_steady _) (.refl _))

theorem State.drop_steady (c : Commit) (st : CommitState) (cls : Nat) : s.Steady (s.drop c st cls) := by
  unfold State.drop
  extract_lets live counted
  have noted : Keeps 0x2000 s (live.setTicket c.ticket st cls) := State.setTicket_keeps rfl (State.modCommits_keeps rfl (.refl _ s))
  exact ((noted.steady rfl rfl rfl).trans (State.count_steady _ (by decide))).trans
    ((State.event_steady _ 8 (by decide)).trans (counted.rejoin_steady c))

theorem State.abandon_steady (c : Commit) (reason : Nat) : s.Steady (s.abandon c reason) :=
  (s.log_steady _ _ _).trans (State.drop_steady _ c _ _)

theorem State.slotLost_steady (n : Nat) : s.Steady (s.slotLost n) := by
  unfold State.slotLost
  refine .ite (.refl s) ?_
  extract_lets lost gone told
  have hlost : s.Steady lost := (State.modImgSlot_keeps rfl (.refl 0x1000 s)).steady rfl rfl rfl
  have htold : s.Steady told := hlost.trans ((State.log_steady _ _ _ _).trans (State.event_steady _ 0x80 (by decide)))
  exact htold.trans (.foldl _ (fun y c _ => y.abandon_steady c _) told)

theorem State.safeAbandons_steady : s.Steady s.safeAbandons := .foldl _ (fun y c _ => y.abandon_steady c abandonSafe) s

theorem State.safeEntered_steady (t : State) : t.Steady (s.safeEntered t) := .ite t.safeAbandons_steady (.refl t)

end

end Sys2Proof.Machine
end

section
/-!
PROOF. What the recorder's seals leave alone: the ledger but for entries and rates, the entries that stand, and every register but
those that count seals and events.
-/

namespace Sys2Proof.Machine

/-- The recorder has reported: of the ledger only entries and rates have changed, of the registers only EVENTS of the recorder and
SATURATED of the hub. -/
structure State.Reports (s t : State) : Prop where
  regs   : ∀ a, a ≠ R.rec_EVENTS → a ≠ R.hub_SATURATED → t.reg a = s.reg a
  ledger : t.ledger.steady = s.ledger.steady

section
variable {s t u : State}

theorem State.Reports.refl (s : State) : s.Reports s := ⟨fun _ _ _ => rfl, rfl⟩

theorem State.Reports.trans (h : s.Reports t) (k : t.Reports u) : s.Reports u :=
  ⟨fun a he hs => (k.regs a he hs).trans (h.regs a he hs), k.ledger.trans h.ledger⟩

/-- An operation that touches neither registers nor ledger. -/
theorem Keeps.reports {A : Nat} (h : Keeps A s t) (hr : A.testBit (Part.bit .regs) = false) (hl : A.testBit (Part.bit .ledger) = false) :
    s.Reports t := ⟨fun a _ _ => State.reg_of_regs a (h.same .regs hr), congrArg Ledger.steady (h.same .ledger hl)⟩

end

section
variable (s : State)

theorem State.event_reports (m : Nat) : s.Reports (s.event R.rec_EVENTS m) where
  regs a he hs := (s.reg_event _ m a hs).trans (if_neg he)
  ledger := (s.event_steady m (by decide)).ledger

theorem State.recLog_reports (f : FaultClass) (data : List Byte) : s.Reports (s.recLog f data) where
  regs a _ _ := State.reg_of_regs a ((State.log_keeps rfl (.refl 0x4000000000 s)).same .regs rfl)
  ledger := (s.log_steady f _ data).ledger

theorem State.modRecorder_reports (f : Recorder → Recorder) : s.Reports (s.modRecorder f) := ⟨fun _ _ _ => rfl, rfl⟩

theorem State.wear_reports (slot : Nat) : s.Reports (s.wear slot) := by
  unfold State.wear
  extract_lets worn
  have hworn : s.Reports worn := s.modRecorder_reports _
  split
  · exact (hworn.trans (State.modRecorder_reports _ _)).trans ((State.event_reports _ 32).trans (State.recLog_reports _ _ _))
  · exact hworn

theorem State.openNext_reports : s.Reports s.openNext := by
  unfold State.openNext
  split
  · exact .refl s
  · exact ((s.modRecorder_reports _).trans (State.modRecorder_reports _ _)).trans (State.wear_reports _ _)

theorem State.holdWheel_reports (w : Wheel) : s.Reports (s.holdWheel w).1 := by
  unfold State.holdWheel
  extract_lets p
  split
  · exact .refl s
  · split
    · split
      · exact .refl s
      · exact (s.modRecorder_reports _).trans ((State.event_reports _ 8).trans (State.recLog_reports _ _ _))
    · exact .refl s

theorem State.nandWrite_reports (n : Nat) : s.Reports (s.nandWrite n) :=
  (State.nandWrite_keeps rfl (.refl 0x400000000 s)).reports rfl rfl

/-- A seal of the open wheel leaves the ledger steady. -/
theorem State.sealOpen_ledger (cause abandoned : Nat) : (s.sealOpen cause abandoned).ledger.steady = s.ledger.steady := by
  unfold State.sealOpen
  split
  · rfl
  next w _ =>
    have hheld := s.holdWheel_reports w
    generalize s.holdWheel w = q at hheld ⊢
    obtain ⟨y, held⟩ := q
    dsimp -zeta only
    extract_lets due x digested sealed marked written
    have hwritten : Keeps 0x400000001 y (written.count R.rec_SEALS) :=
      State.count_keeps rfl <| State.modRecorder_keeps rfl <| State.nandWrite_keeps rfl <|
        Keeps.ite (State.modStore_keeps rfl (State.modOpen_keeps rfl (.refl _ y))) (State.modOpen_keeps rfl (.refl _ y))
    calc ((written.count R.rec_SEALS).event R.rec_EVENTS 1 |>.recLog F.REC_SEALED _).ledger.steady
      _ = ((written.count R.rec_SEALS).event R.rec_EVENTS 1).ledger.steady := (State.recLog_reports _ _ _).ledger
      _ = (written.count R.rec_SEALS).ledger.steady := (State.event_reports _ 1).ledger
      _ = y.ledger.steady := congrArg Ledger.steady (hwritten.same .ledger rfl)
      _ = s.ledger.steady := hheld.ledger

theorem State.padPage_reports : s.Reports s.padPage := (State.padPage_keeps rfl (.refl 0x400000000 s)).reports rfl rfl

theorem State.writePages_reports (n : Nat) : s.Reports (State.writePages n s) :=
  (State.writePages_keeps rfl (.refl 0x400000000 s)).reports rfl rfl

theorem State.drainStep_ledger : s.drainStep.ledger.steady = s.ledger.steady := by
  unfold State.drainStep
  split
  · rfl
  next r rest _ =>
    split
    · extract_lets padded paged
      have written : paged.ledger.steady = s.ledger.steady := (State.writePages_reports _ _).ledger.trans s.padPage_reports.ledger
      split
      · exact (State.openNext_reports _).ledger.trans ((State.sealOpen_ledger _ _ 0).trans written)
      · exact written
    · extract_lets full padded paged laid
      have written : paged.ledger.steady = s.ledger.steady := (State.writePages_reports _ _).ledger.trans s.padPage_reports.ledger
      split
      · split
        · exact (State.openNext_reports _).ledger.trans ((State.sealOpen_ledger _ sealFull 0).trans written)
        · exact written
      · refine (State.writePages_reports _ _).ledger.trans ?_
        exact congrArg Ledger.steady ((State.layOut_keeps rfl (State.modRecorder_keeps rfl (.refl 0x400000000 s))).same .ledger rfl)

theorem State.drain_ledger (n : Nat) : (State.drain n s).ledger.steady = s.ledger.steady := by
  induction n generalizing s with
  | zero => rfl
  | succ n ih =>
    unfold State.drain
    split
    · rfl
    · exact (ih s.drainStep).trans s.drainStep_ledger

theorem State.sealWheel_ledger (cause : Nat) : (s.sealWheel cause).ledger.steady = s.ledger.steady := by
  unfold State.sealWheel
  split
  · rfl
  · exact State.drain_ledger _ _

end

end Sys2Proof.Machine
end

section
/-!
PROOF. Device-safe (R390 to R394): its entry and its joining, the conditions that clear, and its release.
-/

namespace Sys2Proof.Machine

/-! ## The entry into device-safe (R392) -/

section
variable {s y : State} {cls : Nat} {cleared : Bool}

/-- The ledger as device-safe is joined with a cause. -/
def Ledger.joined (l : Ledger) (cls : Nat) (cleared : Bool) : Ledger :=
  { l with safeCauses := (l.safeCauses.filter fun c => c.cls != cls) ++ [⟨cls, safeKind cls, cleared⟩] }

/-- Device-safe begins with a cause, before what its entry does. -/
def State.safeBegun (s : State) (cls : Nat) (cleared : Bool) : State :=
  { s with ledger := { s.ledger.joined cls cleared with safe := true, safeSince := s.now, safeStamp := s.stamp, safeFirst := cls } }

/-- The entry is counted. -/
def State.safeCounted (s : State) (cls : Nat) (cleared : Bool) : State :=
  ((s.safeBegun cls cleared).count R.safe_SAFE_ENTRIES).event R.safe_EVENTS 1

/-- The entry is logged. -/
def State.safeLogged (s : State) (cls : Nat) (cleared : Bool) : State :=
  (s.safeCounted cls cleared).log F.SAFE_ENTERED R.led (leBytes 2 cls ++ leBytes 1 (s.safeCounted cls cleared).safeBits)

theorem State.enterSafe_of_safe (h : s.ledger.safe = true) : s.enterSafe cls cleared = { s with ledger := s.ledger.joined cls cleared } :=
  if_pos h

theorem State.enterSafe_of_not_safe (h : s.ledger.safe = false) :
    s.enterSafe cls cleared = ((s.safeLogged cls cleared).sealWheel sealSafe).allHarmless 2 cls :=
  if_neg (Bool.eq_false_iff.1 h)

theorem State.safeCounted_keeps (s : State) (cls : Nat) (cleared : Bool) :
    Keeps 0x4800000005 (s.safeBegun cls cleared) (s.safeCounted cls cleared) :=
  State.event_keeps rfl (State.count_keeps rfl (.refl _ _))

/-- Device-safe is entered: of the ledger the entry and its cause change beside entries, rates and the causes of outputs. -/
theorem State.enterSafe_ledger (h : s.ledger.safe = false) :
    (s.enterSafe cls cleared).ledger.steady = (s.safeBegun cls cleared).ledger.steady := by
  rw [State.enterSafe_of_not_safe h]
  calc (((s.safeLogged cls cleared).sealWheel sealSafe).allHarmless 2 cls).ledger.steady
    _ = ((s.safeLogged cls cleared).sealWheel sealSafe).ledger.steady := (State.allHarmless_steady _ _ _).ledger
    _ = (s.safeLogged cls cleared).ledger.steady := State.sealWheel_ledger _ _
    _ = (s.safeCounted cls cleared).ledger.steady := (State.log_steady _ _ _ _).ledger
    _ = ((s.safeBegun cls cleared).count R.safe_SAFE_ENTRIES).ledger.steady := (State.event_steady _ 1 (by decide)).ledger
    _ = (s.safeBegun cls cleared).ledger.steady := rfl

theorem State.enterSafe_logs (h : s.ledger.safe = false) (hrun : s.running = true) : s.Logs (s.enterSafe cls cleared) F.SAFE_ENTERED := by
  rw [State.enterSafe_of_not_safe h]
  have counted := s.safeCounted_keeps cls cleared
  have told : (s.safeCounted cls cleared).Logs (s.safeLogged cls cleared) F.SAFE_ENTERED :=
    (State.log_logsOne (counted.running rfl hrun) _ _ _).logs
  have after : Keeps 0x4c3da0c865 (s.safeLogged cls cleared) (((s.safeLogged cls cleared).sealWheel sealSafe).allHarmless 2 cls) :=
    State.allHarmless_keeps rfl (State.sealWheel_keeps rfl (.refl _ _))
  have logs : (s.safeBegun cls cleared).Logs (((s.safeLogged cls cleared).sealWheel sealSafe).allHarmless 2 cls) F.SAFE_ENTERED :=
    (told.keep after rfl).after counted rfl
  exact logs

/-- What of the ledger device-safe changes. -/
def Ledger.safety (l : Ledger) : Bool × Nat × Stamp × Nat × List SafeCause := (l.safe, l.safeFirst, l.safeStamp, l.safeSince, l.safeCauses)

theorem Ledger.safe_of_steady {l m : Ledger} (h : l.steady = m.steady) : l.safe = m.safe :=
  (congrArg Ledger.safe h : l.steady.safe = m.steady.safe)

theorem Ledger.safeCauses_of_steady {l m : Ledger} (h : l.steady = m.steady) : l.safeCauses = m.safeCauses :=
  (congrArg Ledger.safeCauses h : l.steady.safeCauses = m.steady.safeCauses)

theorem Ledger.safety_of_steady {l m : Ledger} (h : l.steady = m.steady) : l.safety = m.safety :=
  (congrArg Ledger.safety h : l.steady.safety = m.steady.safety)

/-! ## Entry and joining by a cause (R390, R393) -/

/-- Device-safe stands in `t` by a cause of a class, joined or entered from `s`. -/
structure State.EntersSafe (s t : State) (c : FaultClass) : Prop where
  joined  : s.ledger.safe = true → t.ledger.safe = true ∧ t.ledger.safeFirst = s.ledger.safeFirst ∧ t.ledger.safeStamp = s.ledger.safeStamp
  entered : s.ledger.safe = false → t.ledger.safe = true ∧ t.ledger.safeFirst = c.code ∧ t.ledger.safeStamp = s.stamp ∧ t.ledger.safeSince = s.now
  named   : s.ledger.safe = false → s.Logs t F.SAFE_ENTERED
  logs    : s.Logs t c
  cause   : ∃ x ∈ t.ledger.safeCauses, x.cls = c.code
  hull    : t.hull = s.hull

/-- A cause that is taken and logged, after what leaves device-safe, the time and D0 as they are. -/
theorem State.entersSafe {c : FaultClass} {ctrl : Nat} {data : List Byte} (hrun : s.running = true) (before : Keeps 0x4800000005 s y)
    (safety : y.ledger.safety = s.ledger.safety) :
    s.EntersSafe (s.safeEntered ((y.enterSafe c.code cleared).log c ctrl data)) c := by
  generalize ht : s.safeEntered ((y.enterSafe c.code cleared).log c ctrl data) = t
  have steady : t.ledger.steady = (y.enterSafe c.code cleared).ledger.steady := by
    rw [← ht]
    exact (State.safeEntered_steady _ _).ledger.trans (State.log_steady _ _ _ _).ledger
  have entering : Keeps 0x4c3da0c865 y (y.enterSafe c.code cleared) := State.enterSafe_keeps rfl (.refl _ y)
  have after : Keeps 0x4d3db6e065 ((y.enterSafe c.code cleared).log c ctrl data) t := ht ▸ State.safeEntered_keeps rfl (.refl _ _)
  have logging := State.log_keeps (c := c) (ctrl := ctrl) (data := data) rfl (.refl 0x4000000000 (y.enterSafe c.code cleared))
  have yrun : y.running = true := before.running rfl hrun
  simp only [Ledger.safety, Prod.mk.injEq] at safety
  obtain ⟨hsafe, hfirst, hstamp, hsince, hcauses⟩ := safety
  have shown : t.ledger.safety = (y.enterSafe c.code cleared).ledger.safety := Ledger.safety_of_steady steady
  have joins (h : s.ledger.safe = true) : t.ledger.safety = (y.ledger.joined c.code cleared).safety := by
    rw [shown, State.enterSafe_of_safe (hsafe.trans h)]
  have enters (h : s.ledger.safe = false) : t.ledger.safety = (y.safeBegun c.code cleared).ledger.safety :=
    shown.trans (Ledger.safety_of_steady (State.enterSafe_ledger (hsafe.trans h)))
  simp only [Ledger.safety, Prod.mk.injEq] at joins enters
  refine ⟨fun h => ?_, fun h => ?_, fun h => ?_, ?_, ?_, ?_⟩
  · obtain ⟨jsafe, jfirst, jstamp, -, -⟩ := joins h
    exact ⟨jsafe.trans (hsafe.trans h), jfirst.trans hfirst, jstamp.trans hstamp⟩
  · obtain ⟨esafe, efirst, estamp, esince, -⟩ := enters h
    exact ⟨esafe, efirst, estamp.trans (State.stamp_of_parts (before.same .clock rfl) (before.same .config rfl)), esince.trans before.now⟩
  · exact (((State.enterSafe_logs (hsafe.trans h) yrun).keep logging rfl).keep after rfl).after before rfl
  · exact (((State.log_logsOne (entering.running rfl yrun) c ctrl data).logs.keep after rfl).after entering rfl).after before rfl
  · have last (l : List SafeCause) (h : t.ledger.safeCauses = l ++ [⟨c.code, safeKind c.code, cleared⟩]) :
        ∃ x ∈ t.ledger.safeCauses, x.cls = c.code := ⟨_, h ▸ List.mem_append_right _ (List.mem_singleton_self _), rfl⟩
    cases h : s.ledger.safe with
    | true => exact last _ (joins h).2.2.2.2
    | false => exact last _ (enters h).2.2.2.2
  · exact (after.same .hull rfl).trans ((logging.same .hull rfl).trans ((entering.same .hull rfl).trans (before.same .hull rfl)))

theorem State.safeEntered_of_same {t : State} (h : t.ledger.safe = s.ledger.safe) : s.safeEntered t = t := by simp [State.safeEntered, h]

theorem State.safeEntered_of_safe {t : State} (h : s.ledger.safe = true) : s.safeEntered t = t := by simp [State.safeEntered, h]

end

/-! ## SAFE_n (R393) -/

/-- A change of the ledger that leaves the entries on their way. -/
theorem Keeps.of_ledger {A : Nat} (s : State) {l : Ledger} (hA : A.testBit (Part.bit .ledger) = true) (h : l.outbox = s.ledger.outbox) :
    Keeps A s { s with ledger := l } :=
  Keeps.upd (.refl _ s) rfl rfl rfl rfl rfl rfl rfl h id fun p hp => by
    cases p with
    | ledger => exact absurd hp (by rw [hA]; decide)
    | _ => rfl

/-- A low of 1 us: what is done to the ledger before device-safe is entered. -/
def State.pinTaken (s : State) : State := { s with ledger := { s.ledger with pinFiltered := false } }

theorem State.pinTaken_keeps (s : State) : Keeps 0x4800000005 s (s.pinTaken.event R.safe_EVENTS 2) :=
  State.event_keeps rfl (Keeps.of_ledger s rfl rfl)

section
variable {s : State}

theorem execSafePinQualify_of_low (hrun : s.running = true) (hlow : s.ledger.pinHigh = false) (hfiltered : s.ledger.pinFiltered = true)
    (hlong : s.ledger.pinSince + 1000 ≤ s.now) :
    ∃ t, exec .safePinQualify s = .next t ∧ s.EntersSafe t F.SAFE_PIN ∧
      (s.ledger.safe = true → t.ledger.pinFiltered = false ∧ t.chans = s.chans) := by
  have taken : s.safePinQualify = ((s.pinTaken.event R.safe_EVENTS 2).enterSafe F.SAFE_PIN.code).log F.SAFE_PIN R.safe
      (leBytes 4 (((s.pinTaken.event R.safe_EVENTS 2).enterSafe F.SAFE_PIN.code).reg R.safe_SAFE_GLITCHES).toNat) :=
    if_pos ⟨hrun, hlow, hfiltered, decide_eq_true hlong⟩
  have before := s.pinTaken_keeps
  have steady : (s.pinTaken.event R.safe_EVENTS 2).ledger.steady = s.pinTaken.ledger.steady := (State.event_steady _ 2 (by decide)).ledger
  refine ⟨_, rfl, ?_, fun h => ?_⟩
  · rw [taken]
    exact State.entersSafe hrun before ((Ledger.safety_of_steady steady :))
  · have stands : (s.pinTaken.event R.safe_EVENTS 2).ledger.safe = true := (congrArg Ledger.safe steady).trans h
    rw [State.safeEntered_of_safe h, taken]
    refine ⟨?_, ?_⟩
    · refine (congrArg Ledger.pinFiltered (State.log_steady _ _ _ _).ledger).trans ?_
      rw [State.enterSafe_of_safe stands]
      exact congrArg Ledger.pinFiltered steady
    · rw [State.log_chans, State.enterSafe_of_safe stands]
      exact before.same .chans rfl

theorem execSafePinQualify_of_not_low (h : s.running = false ∨ s.ledger.pinHigh = true ∨ s.ledger.pinFiltered = false ∨
    s.now < s.ledger.pinSince + 1000) : exec .safePinQualify s = .next s := by
  have stays : s.safePinQualify = s := by
    refine if_neg fun k => ?_
    obtain ⟨hrun, hlow, hfiltered, hlong⟩ := k
    have hlong : s.ledger.pinSince + 1000 ≤ s.now := of_decide_eq_true hlong
    rcases h with h | h | h | h
    · exact absurd hrun (by rw [h]; exact Bool.false_ne_true)
    · exact absurd hlow (by rw [h]; decide)
    · exact absurd hfiltered (by rw [h]; exact Bool.false_ne_true)
    · exact absurd hlong (Nat.not_le.2 h)
  show execSafePinQualify s = _
  rw [execSafePinQualify, stays, State.safeEntered_of_same rfl]

/-- The condition of a class has gone: its causes are cleared, and nothing else changes. -/
theorem State.clearSafe_only (s : State) (cls : Nat) :
    (∀ x ∈ (s.clearSafe cls).ledger.safeCauses, x.cls = cls → x.cleared = true) ∧
    (∀ x, x.cls ≠ cls → (x ∈ (s.clearSafe cls).ledger.safeCauses ↔ x ∈ s.ledger.safeCauses)) ∧
    s.clearSafe cls = { s with ledger := { s.ledger with safeCauses := (s.clearSafe cls).ledger.safeCauses } } := by
  have cleared : (s.clearSafe cls).ledger.safeCauses = s.ledger.safeCauses.map fun c => if c.cls = cls then { c with cleared := true } else c := rfl
  refine ⟨fun x hx hc => ?_, fun x hx => ?_, rfl⟩
  · rw [cleared] at hx
    obtain ⟨c, -, rfl⟩ := List.mem_map.1 hx
    by_cases h : c.cls = cls
    · rw [if_pos h]
    · rw [if_neg h] at hc
      exact absurd hc h
  · rw [cleared, List.mem_map]
    refine ⟨?_, fun h => ⟨x, h, if_neg hx⟩⟩
    rintro ⟨c, hc, rfl⟩
    by_cases h : c.cls = cls
    · rw [if_pos h] at hx
      exact absurd h hx
    · rwa [if_neg h]

/-! ## SAFE_ENTER and SAFE_RELEASE (R390, R394) -/

/-- A write without the right is counted, and nothing else changes. -/
theorem State.relIgnored_counts (s : State) :
    ((s.count R.led_REL_IGNORED).reg R.led_REL_IGNORED).toNat = min 0xFFFFFFFF ((s.reg R.led_REL_IGNORED).toNat + 1) ∧
      s.count R.led_REL_IGNORED = { s with regs := (s.count R.led_REL_IGNORED).regs } := ⟨s.toNat_reg_count _, rfl⟩

theorem State.safeRequested_of_reset {g : Agent} (h : s.running = false) : s.safeRequested g = s := if_pos (by rw [h]; rfl)

theorem State.safeRequested_of_refused {g : Agent} (hrun : s.running = true) (hright : s.sessionRight g 1 = false) :
    s.safeRequested g = s.count R.led_REL_IGNORED :=
  (if_neg (by rw [hrun]; exact Bool.false_ne_true)).trans (if_pos (by rw [hright]; rfl))

theorem execSafeEnter_of_right {g : Agent} (hrun : s.running = true) (hright : s.sessionRight g 1 = true) :
    ∃ t, exec (.safeEnter g) s = .next t ∧ s.EntersSafe t F.SAFE_HOST ∧ (s.ledger.safe = true → t.chans = s.chans) := by
  obtain ⟨data, asked⟩ : ∃ data, s.safeRequested g = (s.enterSafe F.SAFE_HOST.code true).log F.SAFE_HOST R.led data := by
    refine ⟨_, (if_neg ?_).trans (if_neg ?_)⟩
    · rw [hrun]
      exact Bool.false_ne_true
    · rw [hright]
      exact Bool.false_ne_true
  refine ⟨_, rfl, ?_, fun h => ?_⟩
  · rw [asked]
    exact State.entersSafe hrun (.refl _ s) rfl
  · rw [State.safeEntered_of_safe h, asked, State.log_chans, State.enterSafe_of_safe h]

/-- Device-safe and its causes have ended. -/
def State.safeEnded (s : State) : State := { s with ledger := { s.ledger with safe := false, safeCauses := [], safeFirst := 0 } }

/-- The release is logged. -/
def State.safeReleased (s : State) : State :=
  (s.safeEnded.event R.safe_EVENTS 4).log F.SAFE_RELEASED R.led (leBytes 4 ((s.now - s.ledger.safeSince) / ms 1))

/-- What a release may do besides ending device-safe. -/
theorem State.safeReleased_keeps (s : State) : Keeps 0x4804800005 s.safeEnded s.safeReleased.allReturn :=
  State.allReturn_keeps rfl (State.log_keeps rfl (State.event_keeps rfl (.refl _ _)))

theorem State.safeReleased_ledger (s : State) : s.safeReleased.allReturn.ledger.steady = s.safeEnded.ledger.steady :=
  calc s.safeReleased.allReturn.ledger.steady
    _ = s.safeReleased.ledger.steady := congrArg Ledger.steady ((State.allReturn_keeps rfl (.refl 0x4800000 _)).same .ledger rfl)
    _ = (s.safeEnded.event R.safe_EVENTS 4).ledger.steady := (State.log_steady _ _ _ _).ledger
    _ = s.safeEnded.ledger.steady := (State.event_steady _ 4 (by decide)).ledger

theorem State.safeReleased_causes (s : State) : s.safeReleased.allReturn.ledger.causes = s.ledger.causes :=
  (congrArg Ledger.causes ((State.allReturn_keeps rfl (.refl 0x4800000 _)).same .ledger rfl)).trans
    (State.logEntry_holdsKept (State.event_holdsKept (.refl s.safeEnded))).causes

theorem State.safeReleased_logs (hrun : s.running = true) : s.Logs s.safeReleased.allReturn F.SAFE_RELEASED := by
  have noting : Keeps 0x4800000005 s.safeEnded (s.safeEnded.event R.safe_EVENTS 4) := State.event_keeps rfl (.refl _ _)
  have told : (s.safeEnded.event R.safe_EVENTS 4).Logs s.safeReleased F.SAFE_RELEASED :=
    (State.log_logsOne (noting.running rfl hrun) _ _ _).logs
  have logs : s.safeEnded.Logs s.safeReleased.allReturn F.SAFE_RELEASED :=
    (told.keep (State.allReturn_keeps rfl (.refl 0x4800000 _)) rfl).after noting rfl
  exact logs

theorem execSafeRelease_of_cleared {g : Agent} (hrun : s.running = true) (hright : s.sessionRight g 1 = true) (hsafe : s.ledger.safe = true)
    (hcleared : ∀ x ∈ s.ledger.safeCauses, x.cleared = true) : exec (.safeRelease g) s = .next s.safeReleased.allReturn := by
  have none : (s.ledger.safeCauses.any fun c => !c.cleared) = false := by
    simp only [List.any_eq_false, Bool.not_eq_true', Bool.not_eq_false]
    exact hcleared
  show execSafeRelease g s = _
  simp only [execSafeRelease, hrun, hright, hsafe, none, Bool.not_true, Bool.false_eq_true, if_false]
  rfl

theorem execSafeRelease_of_standing {g : Agent} (hrun : s.running = true) (hright : s.sessionRight g 1 = true) (hsafe : s.ledger.safe = true)
    (hstands : ∃ x ∈ s.ledger.safeCauses, x.cleared = false) :
    exec (.safeRelease g) s = .next (s.log F.SAFE_RELEASE_IGNORED R.safe (leBytes 1 s.safeBits ++ leBytes 4 s.highMs)) := by
  have some : (s.ledger.safeCauses.any fun c => !c.cleared) = true := by
    obtain ⟨x, hx, hc⟩ := hstands
    exact List.any_eq_true.2 ⟨x, hx, by rw [hc]; rfl⟩
  show execSafeRelease g s = _
  simp only [execSafeRelease, hrun, hright, hsafe, some, Bool.not_true, Bool.false_eq_true, if_false, if_true]

end

/-! ## The statement -/

/-- A change of level of the pin. -/
theorem execSafeNTransition_changes {b : Bool} {s : State} (h : s.ledger.pinHigh ≠ b) :
    ∃ t, exec (.safeNTransition b) s = .next t ∧
      t.ledger = { s.ledger with pinHigh := b, pinSince := s.now, pinFiltered := s.ledger.pinFiltered || b } ∧
      t = { s with regs := t.regs, ledger := t.ledger } ∧
      (t.reg R.safe_SAFE_GLITCHES).toNat = (if b = true ∧ s.now < s.ledger.pinSince + 1000 then
        min 0xFFFFFFFF ((s.reg R.safe_SAFE_GLITCHES).toNat + 1) else (s.reg R.safe_SAFE_GLITCHES).toNat) := by
  refine ⟨_, if_neg h, ?_⟩
  by_cases short : b = true ∧ s.now < s.ledger.pinSince + 1000
  · have taken : (b && decide (s.now < s.ledger.pinSince + us 1)) = true := by
      rw [short.1, Bool.true_and]
      exact decide_eq_true short.2
    rw [if_pos short]
    simp only [taken, if_true]
    exact ⟨rfl, rfl, s.toNat_reg_count _⟩
  · have missed : (b && decide (s.now < s.ledger.pinSince + us 1)) = false := by
      rw [Bool.and_eq_false_iff, decide_eq_false_iff_not, ← Bool.not_eq_true]
      exact not_and_or.1 short
    rw [if_neg short]
    simp only [missed, Bool.false_eq_true, if_false, true_and]
    rfl

/-- Settles O58: each command is an entry by `State.entersSafe`, a clearing, a count, or the release; what the outputs and the abandoned
commits do beside leaves the ledger steady. -/
theorem deviceSafeIsEnteredAndReleased : Obligations.DeviceSafeIsEnteredAndReleased := by
  unfold Obligations.DeviceSafeIsEnteredAndReleased
  refine ⟨fun b s => ⟨fun h => if_pos h, fun h => execSafeNTransition_changes h⟩, fun s => ?_⟩
  intro enters only
  have enters_of {c : FaultClass} {t : State} (h : s.EntersSafe t c) : enters c t := by
    refine ⟨fun hs => ?_, fun hs => ?_⟩
    · obtain ⟨safe, first, stamp⟩ := h.joined hs
      exact ⟨safe, first, stamp, h.logs, h.cause⟩
    · obtain ⟨safe, first, stamp, since⟩ := h.entered hs
      have held (o : Output) : t.heldDown o = true := by simp [State.heldDown, State.allHeld, safe]
      exact ⟨safe, first, stamp, since, h.named hs, h.logs, held, h.cause⟩
  refine ⟨?qualify, execSafePinQualify_of_not_low, ?clear, ?notClear, ?restarts, ?notRestarts, ?reset, ?runs⟩
  case qualify =>
    intro hrun hlow hfiltered hlong
    obtain ⟨t, ht, entered, joined⟩ := execSafePinQualify_of_low hrun hlow hfiltered hlong
    exact ⟨t, ht, enters_of entered, entered.hull, joined⟩
  case clear => exact fun hhigh hlong => ⟨_, if_pos ⟨hhigh, decide_eq_true hlong⟩, s.clearSafe_only _⟩
  case notClear =>
    intro h
    refine if_neg fun k => ?_
    rcases h with h | h
    · exact absurd k.1 (by rw [h]; exact Bool.false_ne_true)
    · exact absurd (of_decide_eq_true k.2) (Nat.not_le.2 h)
  case restarts =>
    intro h
    exact ⟨_, if_pos (List.all_eq_true.2 fun x hx => decide_eq_true (h x hx)), s.clearSafe_only _⟩
  case notRestarts =>
    intro x hx h
    exact if_neg fun k => absurd (of_decide_eq_true (List.all_eq_true.1 k x hx)) (Nat.not_le.2 h)
  case reset =>
    intro h g
    refine ⟨?_, if_pos (by rw [h]; rfl)⟩
    show execSafeEnter g s = _
    rw [execSafeEnter, State.safeRequested_of_reset h, State.safeEntered_of_same rfl]
  case runs =>
    intro hrun g
    have running : ¬(!s.running) = true := by rw [hrun]; exact Bool.false_ne_true
    refine ⟨fun hright => ⟨⟨_, ?_, s.relIgnored_counts⟩, ⟨_, ?_, s.relIgnored_counts⟩⟩, fun hright => ⟨?_, ?_, fun hsafe => ⟨?_, ?_⟩⟩⟩
    · show execSafeEnter g s = _
      rw [execSafeEnter, State.safeRequested_of_refused hrun hright, State.safeEntered_of_same (s := s) (t := s.count R.led_REL_IGNORED) rfl]
    · exact (if_neg running).trans (if_pos (by rw [hright]; rfl))
    · obtain ⟨t, ht, entered, joined⟩ := execSafeEnter_of_right hrun hright
      exact ⟨t, ht, enters_of entered, entered.hull, joined⟩
    · intro hsafe
      show execSafeRelease g s = _
      simp [execSafeRelease, hrun, hright, hsafe]
    · intro hstands
      obtain ⟨one, alone⟩ := State.log_alone hrun F.SAFE_RELEASE_IGNORED R.safe (leBytes 1 s.safeBits ++ leBytes 4 s.highMs)
      have kept := (State.log_steady s F.SAFE_RELEASE_IGNORED R.safe (leBytes 1 s.safeBits ++ leBytes 4 s.highMs)).ledger
      exact ⟨_, execSafeRelease_of_standing hrun hright hsafe hstands, (Ledger.safe_of_steady kept).trans hsafe,
        Ledger.safeCauses_of_steady kept, one, alone⟩
    · intro hcleared
      have ended := s.safeReleased_ledger
      exact ⟨_, execSafeRelease_of_cleared hrun hright hsafe hcleared, Ledger.safe_of_steady ended, Ledger.safeCauses_of_steady ended,
        State.safeReleased_logs hrun, s.safeReleased_causes, s.safeReleased_keeps.same .recorder rfl, s.safeReleased_keeps.same .hull rfl⟩

end Sys2Proof.Machine
end

section
/-!
PROOF. The requests of frame memory and its scrub (R274, R277 to R282, R288, R292).
-/

namespace Sys2Proof.Machine

/-! ## What changes of the state -/

theorem Keeps.memory_eq {s t : State} (h : Keeps 0x200000000 s t) : t = { s with memory := t.memory } := by
  refine h.eq_of_agree rfl (fun p hp => ?_) (fun p hp => ?_)
  · cases p
    case memory => cases hp
    all_goals rfl
  · cases p
    case memory => rfl
    all_goals cases hp

theorem Keeps.memWritten_eq {s t : State} (h : Keeps 0x200000008 s t) : t = { s with mem := t.mem, memory := t.memory } := by
  refine h.eq_of_agree rfl (fun p hp => ?_) (fun p hp => ?_)
  · cases p
    case mem | memory => cases hp
    all_goals rfl
  · cases p
    case mem | memory => rfl
    all_goals cases hp

theorem Keeps.memCorrected_eq {s t : State} (h : Keeps 0x200000011 s t) :
    t = { s with readValue := t.readValue, memory := t.memory, regs := t.regs } := by
  refine h.eq_of_agree rfl (fun p hp => ?_) (fun p hp => ?_)
  · cases p
    case readValue | memory | regs => cases hp
    all_goals rfl
  · cases p
    case readValue | memory | regs => rfl
    all_goals cases hp

theorem Keeps.memRead_eq {s t : State} (h : Keeps 0x200000010 s t) : t = { s with readValue := t.readValue, memory := t.memory } := by
  refine h.eq_of_agree rfl (fun p hp => ?_) (fun p hp => ?_)
  · cases p
    case readValue | memory => cases hp
    all_goals rfl
  · cases p
    case readValue | memory => rfl
    all_goals cases hp

theorem Keeps.scrubbed_eq {s t : State} (h : Keeps 0x200000001 s t) : t = { s with memory := t.memory, regs := t.regs } := by
  refine h.eq_of_agree rfl (fun p hp => ?_) (fun p hp => ?_)
  · cases p
    case memory | regs => cases hp
    all_goals rfl
  · cases p
    case memory | regs => rfl
    all_goals cases hp

/-- Of a larger set of parts. -/
theorem Keeps.widen {A B : Nat} {s t : State} (h : Keeps A s t) (hAB : A &&& B = A) : Keeps B s t := by
  have outside {i : Nat} (hi : B.testBit i = false) : A.testBit i = false := by rw [← hAB, Nat.testBit_land, hi, Bool.and_false]
  exact ⟨h.pending, h.now, h.mem, h.regs, h.latches, h.wire, h.fresh, fun k => h.noted (outside k), fun k => h.runs (outside k),
    fun p hp => h.same p (outside hp)⟩

/-! ## The panic time (R282) -/

/-- A channel without its panic time. -/
def MemChan.calm (x : MemChan) : MemChan := { x with panicSince := none, panicNs := 0 }

/-- Nothing has changed but the panic time of a channel. -/
structure State.Calm (s t : State) (m : Nat) : Prop where
  chan     : (t.mchan m).calm = (s.mchan m).calm
  others   : ∀ k, k ≠ m → t.mchan k = s.mchan k
  poisoned : t.memory.poisoned = s.memory.poisoned
  single   : t.memory.single = s.memory.single
  keeps    : Keeps 0x200000000 s t

theorem State.panicCheck_calm (s : State) (m : Nat) : s.Calm (s.panicCheck m) m := by
  have keeps : Keeps 0x200000000 s (s.panicCheck m) := State.panicCheck_keeps rfl (.refl _ s)
  have changed (f : MemChan → MemChan) (hf : ∀ x, (f x).calm = x.calm) (k : Keeps 0x200000000 s (s.modMchan m f)) : s.Calm (s.modMchan m f) m :=
    ⟨by rw [State.modMchan_eq, State.mchan_setMchan, if_pos rfl, hf], fun k hk => (State.mchan_setMchan _ _ _ _).trans (if_neg hk), rfl, rfl, k⟩
  unfold State.panicCheck at keeps ⊢
  dsimp only at keeps ⊢
  split
  next => exact changed _ (fun _ => rfl) (State.modMchan_keeps rfl (.refl _ s))
  next => exact changed _ (fun _ => rfl) (State.modMchan_keeps rfl (.refl _ s))
  next => exact ⟨rfl, fun _ _ => rfl, rfl, rfl, .refl _ s⟩

section
variable {s t : State} {m : Nat}

/-- What the panic time does not decide. -/
theorem State.Calm.field {β : Type} (h : s.Calm t m) (f : MemChan → β) (hf : ∀ x, f x.calm = f x) : f (t.mchan m) = f (s.mchan m) := by
  rw [← hf, h.chan, hf]

theorem State.Calm.queue (h : s.Calm t m) : (t.mchan m).queue = (s.mchan m).queue := h.field MemChan.queue fun _ => rfl

theorem State.Calm.next (h : s.Calm t m) : (t.mchan m).next = (s.mchan m).next := h.field MemChan.next fun _ => rfl

theorem State.Calm.serves (h : s.Calm t m) : (t.mchan m).serves = (s.mchan m).serves := h.field MemChan.serves fun _ => rfl

theorem State.Calm.stalled (h : s.Calm t m) : t.stalled m = s.stalled m := by
  rw [State.stalled, State.now, h.keeps.now, h.field MemChan.lastRefresh fun _ => rfl]
  rfl

theorem State.Calm.errorsGoOn (h : s.Calm t m) : t.errorsGoOn m = s.errorsGoOn m := by
  rw [State.errorsGoOn, State.now, h.keeps.now, h.field MemChan.checkBy fun _ => rfl, h.field MemChan.uncorrAt fun _ => rfl]
  rfl

theorem State.Calm.isPoisoned (h : s.Calm t m) (l c : Nat) : t.isPoisoned l c = s.isPoisoned l c := by
  rw [State.isPoisoned, h.poisoned, State.isPoisoned]

theorem State.Calm.liveCopy (h : s.Calm t m) (r e : Nat) : t.liveCopy r e = s.liveCopy r e := by
  rw [State.liveCopy, h.single, State.liveCopy]

theorem State.Calm.regionDup (h : s.Calm t m) (r : Nat) : t.regionDup r = s.regionDup r := by
  rw [h.keeps.memory_eq]
  rfl

end

/-! ## Arrival (R274, R280, R294) -/

section
variable {s : State} {m : Nat} {r : MemReq}

theorem State.arrive_of_unmapped_core {n : Nat} (h : s.mapped r.addr = false) (hp : r.port = .tc n) :
    s.arrive m r = s.log F.MEM_ACCESS R.mem (leBytes 1 n ++ leBytes 8 r.addr) := by
  simp [State.arrive, h, hp]

theorem State.arrive_of_unmapped (h : s.mapped r.addr = false) (hp : ∀ n, r.port ≠ .tc n) : s.arrive m r = s := by
  unfold State.arrive
  rw [if_pos (by rw [h]; rfl)]
  split
  next n hn => exact absurd hn (hp n)
  next => rfl

theorem State.arrive_of_fenced_write (hm : s.mapped r.addr = true) (hf : s.fenced r.addr = true) (hw : r.write.isSome = true) :
    s.arrive m r = s := by
  simp [State.arrive, hm, hf, State.fencedRequest, hw]

theorem State.arrive_of_room (hm : s.mapped r.addr = true) (hf : s.fenced r.addr = false) (hl : r.length ≠ 0)
    (hline : lineOf r.addr = lineOf (r.addr + r.length - 1)) (hc : s.memChannel r.addr = m) (hq : (s.mchan m).queue.length < 64) :
    s.arrive m r = s.modMchan m fun x =>
      { x with queue := x.queue ++ [{ s.ported r with since := s.now, raised := false, again := false }], qPeak := max x.qPeak (x.queue.length + 1) } := by
  unfold State.arrive
  rw [if_neg (by rw [hm]; exact Bool.false_ne_true), if_neg (by rw [hf]; exact Bool.false_ne_true), if_neg]
  rintro (h | h | h | h)
  · exact hl h
  · exact h hline
  · exact h hc
  · exact Nat.not_le.2 hq h

theorem State.arrive_of_no_room (hm : s.mapped r.addr = true) (hf : s.fenced r.addr = false)
    (h : r.length = 0 ∨ lineOf r.addr ≠ lineOf (r.addr + r.length - 1) ∨ s.memChannel r.addr ≠ m ∨ 64 ≤ (s.mchan m).queue.length) :
    s.arrive m r = s := by
  unfold State.arrive
  rw [if_neg (by rw [hm]; exact Bool.false_ne_true), if_neg (by rw [hf]; exact Bool.false_ne_true), if_pos h]

end

/-! ## Errors that are corrected or counted (R277, R278, R292) -/

section
variable (s : State) (m : Nat)

theorem mch_inMemChannels {m : Nat} (h : m < 16) {k : Nat} (hk : k < 0x1000) : inMemChannels (R.mch m + k) := by
  unfold inMemChannels
  rw [R.mch]
  omega

/-- The registers of the memory unit lie below those of its channels. -/
theorem mch_ne_mem (m k : Nat) {j : Nat} (hj : j < 0x1000) : R.mch m + k ≠ R.mem + j := by
  rw [R.mch, R.mem]
  omega

theorem State.corrected_reg (a : Nat) : (s.corrected m).reg a = ((s.count (R.mch_CH_CORR m)).count R.mem_ECC_CORR).reg a := rfl

theorem State.corrected_scrubLine : (s.corrected m).memory.scrubLine = s.memory.scrubLine := rfl

theorem State.corrected_counts : ((s.corrected m).reg (R.mch_CH_CORR m)).toNat = min 0xFFFFFFFF ((s.reg (R.mch_CH_CORR m)).toNat + 1) ∧
    ((s.corrected m).reg R.mem_ECC_CORR).toNat = min 0xFFFFFFFF ((s.reg R.mem_ECC_CORR).toNat + 1) := by
  have apart : R.mch_CH_CORR m ≠ R.mem_ECC_CORR := mch_ne_mem m _ (by decide)
  refine ⟨?_, ?_⟩
  · rw [State.corrected_reg, State.reg_count, if_neg apart, State.toNat_reg_count]
  · rw [State.corrected_reg, State.toNat_reg_count, State.reg_count, if_neg apart.symm]

/-- An uncorrectable error is counted and reported. -/
def State.uncorrReported (region : Nat) (port : MemPort) : State :=
  (((s.count (R.mch_CH_UNCORR m)).count R.mem_ECC_UNCORR).event R.mem_EVENTS 4).logRated F.MEM_ECC_UNCORR m (R.mch m) 0
    (fun _ => leBytes 1 m ++ leBytes 1 (min 255 region) ++ leBytes 1 port.code) false

theorem State.uncorrReported_keeps (region : Nat) (port : MemPort) : Keeps 0x4800000005 s (s.uncorrReported m region port) :=
  State.logRated_keeps rfl (State.event_keeps rfl (State.count_keeps rfl (State.count_keeps rfl (.refl _ s))))

theorem State.uncorrReported_counts (region : Nat) (port : MemPort) :
    ((s.uncorrReported m region port).reg (R.mch_CH_UNCORR m)).toNat = min 0xFFFFFFFF ((s.reg (R.mch_CH_UNCORR m)).toNat + 1) := by
  have logged (y : State) : (y.logRated F.MEM_ECC_UNCORR m (R.mch m) 0
      (fun _ => leBytes 1 m ++ leBytes 1 (min 255 region) ++ leBytes 1 port.code) false).regs = y.regs :=
    (State.logRated_keeps rfl (.refl 0x4000000000 y)).same .regs rfl
  have hub : R.mch_CH_UNCORR m ≠ R.hub_SATURATED := by
    rw [R.mch_CH_UNCORR, R.mch, R.hub_SATURATED, R.hub]
    omega
  have events : R.mch_CH_UNCORR m ≠ R.mem_EVENTS := mch_ne_mem m _ (by decide)
  have unit : R.mch_CH_UNCORR m ≠ R.mem_ECC_UNCORR := mch_ne_mem m _ (by decide)
  rw [State.uncorrReported, State.reg_of_regs _ (logged _), State.reg_event _ _ _ _ hub, if_neg events, State.reg_count, if_neg unit,
    State.toNat_reg_count]

theorem State.uncorrReported_regs (region : Nat) (port : MemPort) {a : Nat} (hch : a ≠ R.mch_CH_UNCORR m) (hunit : a ≠ R.mem_ECC_UNCORR)
    (hevents : a ≠ R.mem_EVENTS) (hhub : a ≠ R.hub_SATURATED) : (s.uncorrReported m region port).reg a = s.reg a := by
  have logged (y : State) : (y.logRated F.MEM_ECC_UNCORR m (R.mch m) 0
      (fun _ => leBytes 1 m ++ leBytes 1 (min 255 region) ++ leBytes 1 port.code) false).regs = y.regs :=
    (State.logRated_keeps rfl (.refl 0x4000000000 y)).same .regs rfl
  rw [State.uncorrReported, State.reg_of_regs _ (logged _), State.reg_event _ _ _ _ hhub, if_neg hevents, State.reg_count, if_neg hunit,
    State.reg_count, if_neg hch]

/-- What an uncorrectable error leaves: the channel notes it, with no error to go on from where no check ran. -/
structure State.Uncorrected (s t : State) (m : Nat) : Prop where
  keeps    : Keeps 0x4a00000005 s t
  queue    : (t.mchan m).queue = (s.mchan m).queue
  poisoned : t.memory.poisoned = s.memory.poisoned
  single   : t.memory.single = s.memory.single
  line     : t.memory.scrubLine = s.memory.scrubLine
  counts   : (t.reg (R.mch_CH_UNCORR m)).toNat = min 0xFFFFFFFF ((s.reg (R.mch_CH_UNCORR m)).toNat + 1)
  repairs  : t.reg R.mem_DUP_REPAIRS = s.reg R.mem_DUP_REPAIRS
  passes   : t.reg R.mem_SCRUB_PASSES = s.reg R.mem_SCRUB_PASSES
  ends     : (s.mchan m).checkBy = none → t.errorsGoOn m = false

theorem State.uncorrectable_uncorrected (region : Nat) (port : MemPort) : s.Uncorrected (s.uncorrectable m region port) m := by
  have keeps : Keeps 0x4a00000005 s (s.uncorrectable m region port) := State.uncorrectable_keeps rfl (.refl _ s)
  have reported := s.uncorrReported_keeps m region port
  have memory : (s.uncorrReported m region port).memory = s.memory := reported.same .memory rfl
  have chan : (s.uncorrReported m region port).mchan m = s.mchan m := congrArg (fun y => y.chans.get (fun _ => ({} : MemChan)) m) memory
  have poisoned : (s.uncorrReported m region port).memory.poisoned = s.memory.poisoned := congrArg Memory.poisoned memory
  have single : (s.uncorrReported m region port).memory.single = s.memory.single := congrArg Memory.single memory
  have line : (s.uncorrReported m region port).memory.scrubLine = s.memory.scrubLine := congrArg Memory.scrubLine memory
  have counts := s.uncorrReported_counts m region port
  have repairs := s.uncorrReported_regs m region port (a := R.mem_DUP_REPAIRS) (mch_ne_mem m _ (by decide)).symm (by decide) (by decide) (by decide)
  have passes := s.uncorrReported_regs m region port (a := R.mem_SCRUB_PASSES) (mch_ne_mem m _ (by decide)).symm (by decide) (by decide) (by decide)
  generalize hr : s.uncorrReported m region port = r at poisoned single line chan counts repairs passes
  have unfolded : s.uncorrectable m region port =
      let at_ := r.now :: (r.mchan m).uncorrAt.filter fun t => r.now < t + sec 1
      let y := r.modMchan m fun x => { x with uncorrAt := at_, uncorrSince := true }
      let checking := match (y.mchan m).checkBy with | some t => decide (y.now ≤ t) | none => false
      if 4 ≤ at_.length ∧ checking = false then
        y.modMchan m fun x => { x with checkBy := some (y.now + sec 1), trainDue := some (x.trainDue.getD y.now), uncorrAt := [] }
      else y := by
    rw [← hr]
    rfl
  rw [unfolded] at keeps ⊢
  extract_lets at_ y checking at keeps
  have hy : y.mchan m = { r.mchan m with uncorrAt := at_, uncorrSince := true } := by simp [y]
  split at keeps
  next h =>
    rw [if_pos h]
    refine ⟨keeps, ?_, poisoned, single, line, counts, repairs, passes, fun _ => ?_⟩
    · simp [chan]
    · simp [State.errorsGoOn]
  next h =>
    rw [if_neg h]
    refine ⟨keeps, ?_, poisoned, single, line, counts, repairs, passes, fun none => ?_⟩
    · simp [chan]
    · simp [State.errorsGoOn, chan, none]

end

/-! ## The service of a request (R281, R282) -/

section
variable {s : State} {m : Fin 16} {e : Fin 3} {r : MemReq}

/-- The request leaves the queue and its row is open. -/
def State.taken (s : State) (m : Nat) (r : MemReq) : State :=
  s.modMchan m fun x =>
    { x with queue := x.queue.erase r, rows := x.rows.put (fun _ => 0) (Config.dramBank r.addr) (Config.dramRow r.addr + 1) }

theorem State.serve_of_write {p : List Byte} (h : r.write = some p) (m e : Nat) : s.serve m r e = (s.taken m r).memWrite m r p e := by
  unfold State.serve
  rw [h]
  rfl

theorem State.serve_of_read (h : r.write = none) (m e : Nat) : s.serve m r e = (s.taken m r).memRead m r e := by
  unfold State.serve
  rw [h]
  rfl

theorem State.taken_queue (s : State) (m : Nat) (r : MemReq) : ((s.taken m r).mchan m).queue = (s.mchan m).queue.erase r := by simp [State.taken]

theorem State.taken_others (s : State) (m : Nat) (r : MemReq) {k : Nat} (hk : k ≠ m) : (s.taken m r).mchan k = s.mchan k :=
  (State.mchan_setMchan _ _ _ _).trans (if_neg hk)

theorem State.taken_errorsGoOn (s : State) (m : Nat) (r : MemReq) : (s.taken m r).errorsGoOn m = s.errorsGoOn m := by
  have check : ((s.taken m r).mchan m).checkBy = (s.mchan m).checkBy := by simp [State.taken]
  have errors : ((s.taken m r).mchan m).uncorrAt = (s.mchan m).uncorrAt := by simp [State.taken]
  rw [State.errorsGoOn, check, errors]
  rfl

theorem execMemRequestServe_of_idle (h : (s.mchan m.val).serves = false ∨ s.stalled m.val = true ∨ (s.mchan m.val).next = none) :
    exec (.memRequestServe m [] e) s = .next (s.panicCheck m.val) := by
  have calm := s.panicCheck_calm m.val
  show execMemRequestServe m [] e s = _
  simp only [execMemRequestServe, List.foldl_nil, calm.serves, calm.stalled, calm.next]
  rcases h with h | h | h
  · simp [h]
  · simp [h]
  · simp [h]

theorem execMemRequestServe_of_next (hserves : (s.mchan m.val).serves = true) (hstalled : s.stalled m.val = false)
    (hnext : (s.mchan m.val).next = some r) (hgo : ((s.panicCheck m.val).serve m.val r e.val).errorsGoOn m.val = false) :
    exec (.memRequestServe m [] e) s = .next (((s.panicCheck m.val).serve m.val r e.val).panicCheck m.val) := by
  have calm := s.panicCheck_calm m.val
  have after := ((s.panicCheck m.val).serve m.val r e.val).panicCheck_calm m.val
  show execMemRequestServe m [] e s = _
  simp only [execMemRequestServe, List.foldl_nil, calm.serves, calm.stalled, calm.next, hserves, hstalled, hnext, after.errorsGoOn, hgo,
    Bool.not_true, Bool.or_self, Bool.false_eq_true, if_false]

/-- The line of a request and the copy that is read. -/
def MemReq.line (r : MemReq) : Nat := lineOf r.addr
def State.copyOf (s : State) (r : MemReq) : Nat := s.liveCopy (regionOf r.addr).1 (extentOf (regionOf r.addr).2)

/-- Its extent has one copy only. -/
def State.loneCopy (s : State) (r : MemReq) : Bool :=
  s.memory.single.any fun y => y.region == (regionOf r.addr).1 && y.extent == extentOf (regionOf r.addr).2

theorem State.lineRead_good {n : Nat} (s : State) (m : Nat) (hg : s.isPoisoned r.line (s.copyOf r) = false) (hn : n ≠ 2) :
    s.lineRead m r n = (if n = 1 then s.corrected m else s, true) := by
  refine if_neg ?_
  rintro (h | h)
  · exact hn h
  · exact absurd (hg.symm.trans h) Bool.false_ne_true

/-- The line is poisoned and the error counted. -/
def State.lineLost (s : State) (m : Nat) (r : MemReq) : State :=
  (s.poison r.line (s.copyOf r)).uncorrectable m (regionOf r.addr).1 r.port

theorem State.lineRead_bad {n : Nat} (s : State) (m : Nat) (hb : n = 2 ∨ s.isPoisoned r.line (s.copyOf r) = true) :
    s.lineRead m r n =
      if (s.lineLost m r).regionDup (regionOf r.addr).1 && !s.loneCopy r && !(s.lineLost m r).isPoisoned r.line (1 - s.copyOf r) then
        (((s.lineLost m r).dupRepair (regionOf r.addr).1 (extentOf (regionOf r.addr).2) r.line (s.copyOf r)).event R.mem_EVENTS 32, true)
      else (s.lineLost m r, false) := if_pos hb

theorem State.isPoisoned_poison (s : State) (l c k d : Nat) : (s.poison l c).isPoisoned k d = (decide ((k, d) = (l, c)) || s.isPoisoned k d) := by
  have poisoned : (s.poison l c).memory.poisoned =
      if s.memory.poisoned.contains (l, c) then s.memory.poisoned else (l, c) :: s.memory.poisoned := by
    simp only [State.poison, State.modMemory]
    split <;> rfl
  rw [State.isPoisoned, State.isPoisoned, poisoned, Bool.eq_iff_iff]
  by_cases h : s.memory.poisoned.contains (l, c) = true
  · rw [if_pos h]
    have member : (l, c) ∈ s.memory.poisoned := List.contains_iff_mem.1 h
    simp only [List.contains_iff_mem, Bool.or_eq_true, decide_eq_true_eq]
    exact ⟨.inr, fun k => k.elim (fun e => e ▸ member) id⟩
  · rw [if_neg h]
    simp only [List.contains_iff_mem, Bool.or_eq_true, decide_eq_true_eq, List.mem_cons]

theorem State.isPoisoned_unpoison (s : State) (l c k d : Nat) : (s.unpoison l c).isPoisoned k d = (decide ((k, d) ≠ (l, c)) && s.isPoisoned k d) := by
  simp only [State.unpoison, State.modMemory, State.isPoisoned]
  rw [Bool.eq_iff_iff]
  simp [and_comm]

theorem State.poison_chans (s : State) (l c : Nat) : (s.poison l c).memory.chans = s.memory.chans := by
  simp only [State.poison, State.modMemory]
  split <;> rfl

theorem State.poison_single (s : State) (l c : Nat) : (s.poison l c).memory.single = s.memory.single := by
  simp only [State.poison, State.modMemory]
  split <;> rfl

/-- A line that cannot be corrected has been read: it is poisoned, the error is counted, and the channel's requests wait as they did. -/
structure State.LineLost (s t : State) (m : Nat) (r : MemReq) : Prop where
  keeps    : Keeps 0x4a00000005 s t
  queue    : (t.mchan m).queue = (s.mchan m).queue
  poisoned : ∀ k d, t.isPoisoned k d = (decide ((k, d) = (r.line, s.copyOf r)) || s.isPoisoned k d)
  counts   : (t.reg (R.mch_CH_UNCORR m)).toNat = min 0xFFFFFFFF ((s.reg (R.mch_CH_UNCORR m)).toNat + 1)
  repairs  : t.reg R.mem_DUP_REPAIRS = s.reg R.mem_DUP_REPAIRS
  passes   : t.reg R.mem_SCRUB_PASSES = s.reg R.mem_SCRUB_PASSES
  ends     : (s.mchan m).checkBy = none → t.errorsGoOn m = false
  dup      : ∀ n, t.regionDup n = s.regionDup n

theorem State.regionDup_of_config {s t : State} (h : t.config = s.config) (n : Nat) : t.regionDup n = s.regionDup n := by
  have same : t.regionRecord n = s.regionRecord n := by rw [State.regionRecord, State.payload_of_config h, State.regionRecord]
  unfold State.regionDup
  rw [same]

theorem State.lineLost_lineLost (s : State) (m : Nat) (r : MemReq) : s.LineLost (s.lineLost m r) m r := by
  have poison : Keeps 0x200000000 s (s.poison r.line (s.copyOf r)) := State.poison_keeps rfl (.refl _ s)
  have chan : (s.poison r.line (s.copyOf r)).mchan m = s.mchan m := by rw [State.mchan, State.poison_chans, State.mchan]
  have lost := (s.poison r.line (s.copyOf r)).uncorrectable_uncorrected m (regionOf r.addr).1 r.port
  have keeps : Keeps 0x4a00000005 s (s.lineLost m r) := State.uncorrectable_keeps rfl (State.poison_keeps rfl (.refl _ s))
  refine ⟨keeps, lost.queue.trans (by rw [chan]), fun k d => ?_, lost.counts, lost.repairs, lost.passes, fun h => lost.ends (by rw [chan, h]),
    State.regionDup_of_config (keeps.same .config rfl)⟩
  rw [← State.isPoisoned_poison, State.isPoisoned, State.isPoisoned]
  exact congrArg (List.contains · (k, d)) lost.poisoned

/-! ### A write -/

/-- What a write of the request leaves, when its line needs no reading or reads well. -/
def State.written (s : State) (r : MemReq) (p : List Byte) : State :=
  let t := s.setBytes r.addr (p.take r.length)
  if r.length = 64 then (t.unpoison r.line 0).unpoison r.line 1 else t

theorem State.memWrite_eq {n : Nat} (s : State) (m : Nat) (p : List Byte) (h : r.length = 64 ∨ s.isPoisoned r.line (s.copyOf r) = true ∨ n = 0) :
    s.memWrite m r p n = s.written r p := by
  have mem : Keeps 0x8 s (s.setBytes r.addr (p.take r.length)) := State.setBytes_keeps rfl (.refl _ s)
  have memory : (s.setBytes r.addr (p.take r.length)).memory = s.memory := mem.same .memory rfl
  have poisoned : (s.setBytes r.addr (p.take r.length)).isPoisoned r.line ((s.setBytes r.addr (p.take r.length)).copyOf r) =
      s.isPoisoned r.line (s.copyOf r) := by
    simp only [State.isPoisoned, State.copyOf, State.liveCopy, memory]
  unfold State.memWrite State.written
  dsimp only
  by_cases whole : r.length = 64
  · rw [if_pos whole, if_pos whole]
    rfl
  · rw [if_neg whole, if_neg whole]
    by_cases bad : s.isPoisoned r.line (s.copyOf r) = true
    · exact if_pos (poisoned.trans bad)
    · have zero : n = 0 := (h.resolve_left whole).resolve_left bad
      have good : (s.setBytes r.addr (p.take r.length)).isPoisoned r.line ((s.setBytes r.addr (p.take r.length)).copyOf r) = false :=
        poisoned.trans (Bool.eq_false_iff.2 bad)
      refine (if_neg (by rw [show lineOf r.addr = r.line from rfl]; exact Bool.eq_false_iff.1 good)).trans ?_
      rw [State.lineRead_good _ m good (by omega), zero]
      rfl

theorem State.written_keeps (s : State) (p : List Byte) : Keeps 0x200000008 s (s.written r p) :=
  Keeps.ite (State.unpoison_keeps rfl (State.unpoison_keeps rfl (State.setBytes_keeps rfl (.refl _ s)))) (State.setBytes_keeps rfl (.refl _ s))

theorem State.written_chans (s : State) (p : List Byte) : (s.written r p).memory.chans = s.memory.chans := by
  have mem : Keeps 0x8 s (s.setBytes r.addr (p.take r.length)) := State.setBytes_keeps rfl (.refl _ s)
  have chans : (s.setBytes r.addr (p.take r.length)).memory.chans = s.memory.chans := congrArg Memory.chans (mem.same .memory rfl)
  unfold State.written
  dsimp only
  split
  · exact chans
  · exact chans

theorem State.written_byte (s : State) (p : List Byte) (a : Nat) : (s.written r p).byte a =
    if r.addr ≤ a ∧ a < r.addr + min r.length p.length then p.getD (a - r.addr) 0 else s.byte a := by
  have bytes : (s.written r p).byte a = (s.setBytes r.addr (p.take r.length)).byte a := by
    unfold State.written
    dsimp only
    split <;> rfl
  rw [bytes]
  by_cases h : r.addr ≤ a ∧ a < r.addr + min r.length p.length
  · obtain ⟨k, rfl⟩ := Nat.exists_eq_add_of_le h.1
    have hk : k < (p.take r.length).length := by rw [List.length_take]; omega
    rw [if_pos h, State.byte_setBytes_of_inside s hk, List.getElem_take, Nat.add_sub_cancel_left, List.getD_eq_getElem]
  · rw [if_neg h, State.byte_setBytes_of_outside]
    rwa [List.length_take]

theorem State.written_whole (s : State) (p : List Byte) (h : r.length = 64) :
    (s.written r p).isPoisoned r.line 0 = false ∧ (s.written r p).isPoisoned r.line 1 = false := by
  unfold State.written
  dsimp only
  rw [if_pos h]
  simp [State.isPoisoned_unpoison]

/-! ### The request at its service -/

/-- The request that is served has left the queue, and nothing else has changed but panic time and open rows. -/
structure State.Ready (s t : State) (m : Nat) (r : MemReq) : Prop where
  queue    : (t.mchan m).queue = (s.mchan m).queue.erase r
  others   : ∀ k, k ≠ m → t.mchan k = s.mchan k
  poisoned : t.memory.poisoned = s.memory.poisoned
  single   : t.memory.single = s.memory.single
  check    : (t.mchan m).checkBy = (s.mchan m).checkBy
  goOn     : t.errorsGoOn m = s.errorsGoOn m
  keeps    : Keeps 0x200000000 s t

theorem State.ready (s : State) (m : Nat) (r : MemReq) : s.Ready ((s.panicCheck m).taken m r) m r := by
  have calm := s.panicCheck_calm m
  refine ⟨?_, fun k hk => ?_, calm.poisoned, calm.single, ?_, ?_, State.modMchan_keeps rfl calm.keeps⟩
  · rw [State.taken_queue, calm.queue]
  · rw [State.taken_others _ _ _ hk, calm.others k hk]
  · have same : (((s.panicCheck m).taken m r).mchan m).checkBy = ((s.panicCheck m).mchan m).checkBy := by simp [State.taken]
    exact same.trans (calm.field MemChan.checkBy fun _ => rfl)
  · rw [State.taken_errorsGoOn, calm.errorsGoOn]

section
variable {t u : State}

theorem State.Ready.isPoisoned (h : s.Ready t m r) (k c : Nat) : t.isPoisoned k c = s.isPoisoned k c := by
  rw [State.isPoisoned, h.poisoned, State.isPoisoned]

theorem State.Ready.copyOf (h : s.Ready t m r) : t.copyOf r = s.copyOf r := by
  rw [State.copyOf, State.liveCopy, h.single, State.copyOf, State.liveCopy]

theorem State.Ready.loneCopy (h : s.Ready t m r) : t.loneCopy r = s.loneCopy r := by rw [State.loneCopy, h.single, State.loneCopy]

/-- Bytes are read from frame memory. -/
theorem State.bytes_of_mem (h : t.mem = s.mem) (a n : Nat) : t.bytes a n = s.bytes a n :=
  State.bytes_congr fun k _ => by rw [State.byte, h, State.byte]

/-- The channel runs the request that comes next. -/
theorem execMemRequestServe_served (hserves : (s.mchan m.val).serves = true) (hstalled : s.stalled m.val = false)
    (hnext : (s.mchan m.val).next = some r) (hu : (s.panicCheck m.val).serve m.val r e.val = u) (hgo : u.errorsGoOn m.val = false) :
    ∃ t, exec (.memRequestServe m [] e) s = .next t ∧ u.Calm t m.val := by
  subst hu
  exact ⟨_, execMemRequestServe_of_next hserves hstalled hnext hgo, State.panicCheck_calm _ _⟩

/-! ### Reads -/

theorem State.memValue_of_core {n : Nat} (s : State) (h : r.port = .tc n) :
    (s.memValue r).readValue = w32 (le (s.bytes r.addr r.length) 0 r.length) := by
  rw [State.memValue, h]
  rfl

theorem State.memValue_of_other (s : State) (h : ∀ n, r.port ≠ .tc n) : s.memValue r = s := by
  unfold State.memValue
  split
  next n hn => exact absurd hn (h n)
  next => rfl

theorem State.memValue_memory (s : State) : (s.memValue r).memory = s.memory := (State.memValue_keeps rfl (.refl 0x10 s)).same .memory rfl

theorem State.memRead_good {n : Nat} (s : State) (m : Nat) (hg : s.isPoisoned r.line (s.copyOf r) = false) (hn : n ≠ 2) :
    s.memRead m r n = (if n = 1 then s.corrected m else s).memValue r := by
  rw [State.memRead, State.lineRead_good s m hg hn]
  exact if_pos rfl

theorem State.lineRead_lost {n : Nat} (s : State) (m : Nat) (hb : n = 2 ∨ s.isPoisoned r.line (s.copyOf r) = true)
    (hdup : s.regionDup (regionOf r.addr).1 = false) : s.lineRead m r n = (s.lineLost m r, false) := by
  have lost := s.lineLost_lineLost m r
  refine (State.lineRead_bad s m hb).trans (if_neg ?_)
  rw [lost.dup, hdup]
  exact Bool.false_ne_true

theorem State.memRead_lost {n : Nat} (s : State) (m : Nat) (hb : n = 2 ∨ s.isPoisoned r.line (s.copyOf r) = true)
    (hdup : s.regionDup (regionOf r.addr).1 = false) : s.memRead m r n = (s.lineLost m r).poisonEffect m r := by
  rw [State.memRead, State.lineRead_lost s m hb hdup]
  exact if_neg Bool.false_ne_true

/-- The other copy has been read and returned, and the line is good again. -/
def State.repaired (s : State) (m : Nat) (r : MemReq) : State :=
  ((s.lineLost m r).dupRepair (regionOf r.addr).1 (extentOf (regionOf r.addr).2) r.line (s.copyOf r)).event R.mem_EVENTS 32

theorem State.lineRead_repaired {n : Nat} (s : State) (m : Nat) (hb : n = 2 ∨ s.isPoisoned r.line (s.copyOf r) = true)
    (hdup : s.regionDup (regionOf r.addr).1 = true) (hlone : s.loneCopy r = false) (hother : s.isPoisoned r.line (1 - s.copyOf r) = false) :
    s.lineRead m r n = (s.repaired m r, true) := by
  have lost := s.lineLost_lineLost m r
  have other : (s.lineLost m r).isPoisoned r.line (1 - s.copyOf r) = false := by
    rw [lost.poisoned, hother, Bool.or_false, decide_eq_false_iff_not, Prod.mk.injEq]
    omega
  refine (State.lineRead_bad s m hb).trans (if_pos ?_)
  rw [lost.dup, hdup, hlone, other]
  rfl

theorem State.memRead_repaired {n : Nat} (s : State) (m : Nat) (hb : n = 2 ∨ s.isPoisoned r.line (s.copyOf r) = true)
    (hdup : s.regionDup (regionOf r.addr).1 = true) (hlone : s.loneCopy r = false) (hother : s.isPoisoned r.line (1 - s.copyOf r) = false) :
    s.memRead m r n = (s.repaired m r).memValue r := by
  rw [State.memRead, State.lineRead_repaired s m hb hdup hlone hother]
  exact if_pos rfl

theorem State.repaired_keeps (s : State) (m : Nat) : Keeps 0x4a00000005 s (s.repaired m r) :=
  State.event_keeps rfl (State.dupRepair_keeps rfl (s.lineLost_lineLost m r).keeps)

/-- The request goes back to its reader, or takes the line's slot with it. -/
structure State.LostLineTold (s t : State) (m : Nat) (r : MemReq) : Prop where
  memory   : t.memory.poisoned = s.memory.poisoned
  mem      : t.mem = s.mem
  unitRegs : ∀ a, inMemChannels a → t.reg a = s.reg a
  goOn     : t.errorsGoOn m = s.errorsGoOn m
  dropped  : r.port ≠ .im → (t.mchan m).queue = (s.mchan m).queue
  again    : r.port = .im → r.again = false → (t.mchan m).queue = (s.mchan m).queue ++ [{ r with again := true, since := s.now }]

theorem State.errorsGoOn_of_chan {m : Nat} (hc : (t.mchan m).checkBy = (s.mchan m).checkBy) (he : (t.mchan m).uncorrAt = (s.mchan m).uncorrAt)
    (hnow : t.now = s.now) : t.errorsGoOn m = s.errorsGoOn m := by
  rw [State.errorsGoOn, hc, he, hnow]
  rfl

theorem State.mchan_of_memory (h : t.memory = s.memory) (m : Nat) : t.mchan m = s.mchan m := by rw [State.mchan, h, State.mchan]

theorem State.errorsGoOn_of_memory (h : t.memory = s.memory) (hnow : t.now = s.now) (m : Nat) : t.errorsGoOn m = s.errorsGoOn m := by
  have same := State.mchan_of_memory h m
  exact State.errorsGoOn_of_chan (by rw [same]) (by rw [same]) hnow

theorem State.poisonEffect_told (s : State) (m : Nat) (hr : (regionOf r.addr).1 ≠ 0) : s.LostLineTold (s.poisonEffect m r) m r := by
  unfold State.poisonEffect
  generalize regionOf r.addr = place at hr ⊢
  obtain ⟨region, x⟩ := place
  dsimp only at hr ⊢
  rw [if_neg hr]
  split
  next him =>
    split
    next hagain =>
      have keeps : Keeps 0x4d3db6f065 s (s.slotLost (slotAt x)) := State.slotLost_keeps rfl (.refl _ s)
      exact ⟨congrArg Memory.poisoned (keeps.same .memory rfl), keeps.same .mem rfl, (s.slotLost_steady _).memRegs,
        State.errorsGoOn_of_memory (keeps.same .memory rfl) keeps.now m, fun h => absurd him h,
        fun _ h => absurd (h.symm.trans hagain) Bool.false_ne_true⟩
    next hagain =>
      have check : (((s.modMchan m fun c => { c with queue := c.queue ++ [{ r with again := true, since := s.now }] }).mchan m)).checkBy =
          (s.mchan m).checkBy := by simp
      have errors : (((s.modMchan m fun c => { c with queue := c.queue ++ [{ r with again := true, since := s.now }] }).mchan m)).uncorrAt =
          (s.mchan m).uncorrAt := by simp
      exact ⟨rfl, rfl, fun _ _ => rfl, State.errorsGoOn_of_chan check errors rfl, fun h => absurd him h, fun _ _ => by simp⟩
  next him => exact ⟨rfl, rfl, fun _ _ => rfl, rfl, fun _ => rfl, fun h => absurd h him⟩

theorem State.regionDup_zero (s : State) : s.regionDup 0 = true := rfl

theorem State.dup_of_zero {n : Nat} (h : s.regionDup n = false) : n ≠ 0 := by
  rintro rfl
  exact Bool.false_ne_true (h.symm.trans s.regionDup_zero)

theorem State.reg_unpoison (s : State) (l c a : Nat) : (s.unpoison l c).reg a = s.reg a := rfl

theorem State.repaired_counts (s : State) (m : Nat) :
    ((s.repaired m r).reg R.mem_DUP_REPAIRS).toNat = min 0xFFFFFFFF ((s.reg R.mem_DUP_REPAIRS).toNat + 1) := by
  have lost := s.lineLost_lineLost m r
  have logged (y : State) (data : List Byte) : (y.log F.MEM_DUP_REPAIR R.mem data).regs = y.regs :=
    (State.log_keeps rfl (.refl 0x4000000000 y)).same .regs rfl
  rw [State.repaired, State.dupRepair, State.reg_event _ _ _ _ (by decide), if_neg (by decide), State.reg_of_regs _ (logged _ _),
    State.toNat_reg_count, State.reg_unpoison, lost.repairs]

theorem State.repaired_logs (s : State) (m : Nat) (hrun : s.running = true) : s.Logs (s.repaired m r) F.MEM_DUP_REPAIR := by
  have lost := s.lineLost_lineLost m r
  have before : Keeps 0x4a00000005 s (((s.lineLost m r).unpoison r.line (s.copyOf r)).count R.mem_DUP_REPAIRS) :=
    State.count_keeps rfl (State.unpoison_keeps rfl lost.keeps)
  have told := (State.log_logsOne (before.running rfl hrun) F.MEM_DUP_REPAIR R.mem
    (leBytes 1 (regionOf r.addr).1 ++ leBytes 2 (extentOf (regionOf r.addr).2))).logs
  exact (told.keep (State.event_keeps rfl (.refl 0x4800000005 _)) rfl).after before rfl

/-- The memory of the unit after a repair: the line is good and the queue as it was. -/
theorem State.repaired_memory (s : State) (m : Nat) :
    (s.repaired m r).memory = ((s.lineLost m r).unpoison r.line (s.copyOf r)).memory := by
  have logged : ((s.lineLost m r).dupRepair (regionOf r.addr).1 (extentOf (regionOf r.addr).2) r.line (s.copyOf r)).memory =
      ((s.lineLost m r).unpoison r.line (s.copyOf r)).memory := by
    rw [State.dupRepair, State.log_memory, State.count_memory]
  rw [State.repaired, State.event_memory, logged]

theorem State.repaired_good (s : State) (m : Nat) : (s.repaired m r).isPoisoned r.line (s.copyOf r) = false := by
  rw [State.isPoisoned, State.repaired_memory, ← State.isPoisoned, State.isPoisoned_unpoison]
  simp

theorem State.repaired_mchan (s : State) (m k : Nat) : (s.repaired m r).mchan k = (s.lineLost m r).mchan k := by
  have chans (y : State) (l c : Nat) : (y.unpoison l c).memory.chans = y.memory.chans := rfl
  rw [State.mchan, State.repaired_memory, chans, State.mchan]

/-! ### What the row answers for a request -/

variable (hserves : (s.mchan m.val).serves = true) (hstalled : s.stalled m.val = false) (hnext : (s.mchan m.val).next = some r)
include hserves hstalled hnext

theorem execMemRequestServe_write {p : List Byte} (hgo : s.errorsGoOn m.val = false) (hw : r.write = some p)
    (quiet : r.length = 64 ∨ s.isPoisoned r.line (s.copyOf r) = true ∨ e = 0) :
    ∃ t, exec (.memRequestServe m [] e) s = .next t ∧ (t.mchan m.val).queue = (s.mchan m.val).queue.erase r ∧
      (∀ a, t.byte a = (if r.addr ≤ a ∧ a < r.addr + min r.length p.length then p.getD (a - r.addr) 0 else s.byte a)) ∧
      (r.length = 64 → t.isPoisoned r.line 0 = false ∧ t.isPoisoned r.line 1 = false) ∧
      (∀ k, k ≠ m.val → t.mchan k = s.mchan k) ∧ t = { s with mem := t.mem, memory := t.memory } := by
  have ready := s.ready m.val r
  generalize hv : (s.panicCheck m.val).taken m.val r = v at ready
  have chan (k : Nat) : (v.written r p).mchan k = v.mchan k := by rw [State.mchan, State.written_chans, State.mchan]
  have keeps : Keeps 0x200000008 v (v.written r p) := v.written_keeps p
  have served : (s.panicCheck m.val).serve m.val r e.val = v.written r p := by
    rw [State.serve_of_write hw, hv]
    refine State.memWrite_eq v m.val p ?_
    rw [ready.isPoisoned, ready.copyOf]
    exact quiet.imp_right (Or.imp_right fun h => congrArg Fin.val h)
  have goOn : (v.written r p).errorsGoOn m.val = false :=
    (State.errorsGoOn_of_chan (by rw [chan]) (by rw [chan]) keeps.now).trans (ready.goOn.trans hgo)
  obtain ⟨t, run, calm⟩ := execMemRequestServe_served hserves hstalled hnext served goOn
  have byte (a : Nat) : t.byte a = (v.written r p).byte a := by rw [State.byte, calm.keeps.same .mem rfl, State.byte]
  have before (a : Nat) : v.byte a = s.byte a := by rw [State.byte, ready.keeps.same .mem rfl, State.byte]
  have whole : Keeps 0x200000008 s t := ((ready.keeps.widen rfl).trans keeps).trans (calm.keeps.widen rfl)
  refine ⟨t, run, ?_, fun a => ?_, fun h => ?_, fun k hk => ?_, whole.memWritten_eq⟩
  · rw [calm.queue, chan, ready.queue]
  · rw [byte, State.written_byte, before]
  · rw [calm.isPoisoned, calm.isPoisoned]
    exact v.written_whole p h
  · rw [calm.others k hk, chan, ready.others k hk]

/-- A line that reads well. -/
theorem execMemRequestServe_read (hgo : s.errorsGoOn m.val = false) (hw : r.write = none) (hgood : s.isPoisoned r.line (s.copyOf r) = false)
    (he : e.val ≠ 2) :
    ∃ t, exec (.memRequestServe m [] e) s = .next t ∧ (t.mchan m.val).queue = (s.mchan m.val).queue.erase r ∧
      (∀ n, r.port = .tc n → t.readValue = w32 (le (s.bytes r.addr r.length) 0 r.length)) ∧
      ((∀ n, r.port ≠ .tc n) → t.readValue = s.readValue) ∧
      (e.val = 0 → (∀ k, k ≠ m.val → t.mchan k = s.mchan k) ∧ t = { s with readValue := t.readValue, memory := t.memory }) ∧
      (e.val = 1 → (t.reg (R.mch_CH_CORR m.val)).toNat = min 0xFFFFFFFF ((s.reg (R.mch_CH_CORR m.val)).toNat + 1) ∧
        (t.reg R.mem_ECC_CORR).toNat = min 0xFFFFFFFF ((s.reg R.mem_ECC_CORR).toNat + 1)) ∧
      t = { s with readValue := t.readValue, memory := t.memory, regs := t.regs } := by
  have ready := s.ready m.val r
  generalize hv : (s.panicCheck m.val).taken m.val r = v at ready
  generalize hx : (if e.val = 1 then v.corrected m.val else v) = x
  have served : (s.panicCheck m.val).serve m.val r e.val = x.memValue r := by
    rw [State.serve_of_read hw, hv, State.memRead_good v m.val (by rw [ready.isPoisoned, ready.copyOf, hgood]) he, hx]
  have corrected : Keeps 0x200000001 v x := hx ▸ Keeps.ite (State.corrected_keeps rfl (.refl _ v)) (.refl _ v)
  have valued : Keeps 0x10 x (x.memValue r) := State.memValue_keeps rfl (.refl _ x)
  have chan : ((x.memValue r).mchan m.val).queue = (v.mchan m.val).queue ∧ ((x.memValue r).mchan m.val).checkBy = (v.mchan m.val).checkBy ∧
      ((x.memValue r).mchan m.val).uncorrAt = (v.mchan m.val).uncorrAt := by
    rw [State.mchan_of_memory x.memValue_memory, ← hx]
    have counted (y : State) (a b : Nat) : ((y.count a).count b).mchan m.val = y.mchan m.val := State.mchan_of_memory rfl _
    split
    · simp [State.corrected, counted]
    · exact ⟨rfl, rfl, rfl⟩
  obtain ⟨queue, check, errors⟩ := chan
  have goOn : (x.memValue r).errorsGoOn m.val = false :=
    (State.errorsGoOn_of_chan check errors (valued.now.trans corrected.now)).trans (ready.goOn.trans hgo)
  obtain ⟨t, run, calm⟩ := execMemRequestServe_served hserves hstalled hnext served goOn
  have value : t.readValue = (x.memValue r).readValue := calm.keeps.same .readValue rfl
  have mem : x.mem = s.mem := (corrected.same .mem rfl).trans (ready.keeps.same .mem rfl)
  have whole : Keeps 0x200000011 s t :=
    (((ready.keeps.widen rfl).trans (corrected.widen rfl)).trans (valued.widen rfl)).trans (calm.keeps.widen rfl)
  refine ⟨t, run, ?_, fun n hn => ?_, fun hn => ?_, fun h0 => ?_, fun h1 => ?_, whole.memCorrected_eq⟩
  · rw [calm.queue, queue, ready.queue]
  · rw [value, x.memValue_of_core hn, State.bytes_of_mem mem]
  · rw [value, x.memValue_of_other hn]
    exact (corrected.same .readValue rfl).trans (ready.keeps.same .readValue rfl)
  · rw [if_neg (by omega)] at hx
    subst hx
    have quiet : Keeps 0x200000010 s t := ((ready.keeps.widen rfl).trans (valued.widen rfl)).trans (calm.keeps.widen rfl)
    refine ⟨fun k hk => ?_, quiet.memRead_eq⟩
    rw [calm.others k hk, State.mchan_of_memory v.memValue_memory, ready.others k hk]
  · rw [if_pos h1] at hx
    subst hx
    have after (a : Nat) : t.reg a = (v.corrected m.val).reg a :=
      (State.reg_of_regs a (calm.keeps.same .regs rfl)).trans (State.reg_of_regs a (valued.same .regs rfl))
    have before (a : Nat) : v.reg a = s.reg a := State.reg_of_regs a (ready.keeps.same .regs rfl)
    obtain ⟨chCounts, eccCounts⟩ := v.corrected_counts m.val
    rw [before] at chCounts eccCounts
    rw [after, after]
    exact ⟨chCounts, eccCounts⟩

/-- A line that is lost, in a region of one copy. -/
theorem execMemRequestServe_lost (hcheck : (s.mchan m.val).checkBy = none) (hw : r.write = none)
    (hbad : e.val = 2 ∨ s.isPoisoned r.line (s.copyOf r) = true) (hdup : s.regionDup (regionOf r.addr).1 = false) :
    ∃ t, exec (.memRequestServe m [] e) s = .next t ∧ t.isPoisoned r.line (s.copyOf r) = true ∧ t.mem = s.mem ∧
      (t.reg (R.mch_CH_UNCORR m.val)).toNat = min 0xFFFFFFFF ((s.reg (R.mch_CH_UNCORR m.val)).toNat + 1) ∧
      (r.port ≠ .im → (t.mchan m.val).queue = (s.mchan m.val).queue.erase r) ∧
      (r.port = .im → r.again = false →
        (t.mchan m.val).queue = (s.mchan m.val).queue.erase r ++ [{ r with again := true, since := s.now }]) := by
  have ready := s.ready m.val r
  generalize hv : (s.panicCheck m.val).taken m.val r = v at ready
  have vdup : v.regionDup (regionOf r.addr).1 = false := (State.regionDup_of_config (ready.keeps.same .config rfl) _).trans hdup
  have served : (s.panicCheck m.val).serve m.val r e.val = (v.lineLost m.val r).poisonEffect m.val r := by
    rw [State.serve_of_read hw, hv]
    exact State.memRead_lost v m.val (by rwa [ready.isPoisoned, ready.copyOf]) vdup
  have lost := v.lineLost_lineLost m.val r
  have told := (v.lineLost m.val r).poisonEffect_told m.val (State.dup_of_zero vdup)
  obtain ⟨t, run, calm⟩ := execMemRequestServe_served hserves hstalled hnext served (told.goOn.trans (lost.ends (ready.check.trans hcheck)))
  have counted : t.reg (R.mch_CH_UNCORR m.val) = (v.lineLost m.val r).reg (R.mch_CH_UNCORR m.val) :=
    (State.reg_of_regs _ (calm.keeps.same .regs rfl)).trans (told.unitRegs _ (mch_inMemChannels m.isLt (by decide)))
  have before : v.reg (R.mch_CH_UNCORR m.val) = s.reg (R.mch_CH_UNCORR m.val) := State.reg_of_regs _ (ready.keeps.same .regs rfl)
  refine ⟨t, run, ?_, ?_, ?_, fun h => ?_, fun h ha => ?_⟩
  · rw [calm.isPoisoned, State.isPoisoned, told.memory, ← State.isPoisoned, lost.poisoned, ready.copyOf]
    simp
  · exact ((calm.keeps.same .mem rfl).trans told.mem).trans ((lost.keeps.same .mem rfl).trans (ready.keeps.same .mem rfl))
  · rw [counted, lost.counts, before]
  · rw [calm.queue, told.dropped h, lost.queue, ready.queue]
  · rw [calm.queue, told.again h ha, lost.queue, ready.queue, State.now, lost.keeps.now, ready.keeps.now, State.now]

/-- A line that is lost, in an extent whose other copy is good. -/
theorem execMemRequestServe_repaired (hcheck : (s.mchan m.val).checkBy = none) (hw : r.write = none)
    (hbad : e.val = 2 ∨ s.isPoisoned r.line (s.copyOf r) = true) (hdup : s.regionDup (regionOf r.addr).1 = true)
    (hlone : s.loneCopy r = false) (hother : s.isPoisoned r.line (1 - s.copyOf r) = false) :
    ∃ t, exec (.memRequestServe m [] e) s = .next t ∧ t.isPoisoned r.line (s.copyOf r) = false ∧ t.mem = s.mem ∧
      (t.mchan m.val).queue = (s.mchan m.val).queue.erase r ∧
      (∀ n, r.port = .tc n → t.readValue = w32 (le (s.bytes r.addr r.length) 0 r.length)) ∧
      (t.reg R.mem_DUP_REPAIRS).toNat = min 0xFFFFFFFF ((s.reg R.mem_DUP_REPAIRS).toNat + 1) ∧
      (s.running = true → s.Logs t F.MEM_DUP_REPAIR) := by
  have ready := s.ready m.val r
  generalize hv : (s.panicCheck m.val).taken m.val r = v at ready
  have vdup : v.regionDup (regionOf r.addr).1 = true := (State.regionDup_of_config (ready.keeps.same .config rfl) _).trans hdup
  have served : (s.panicCheck m.val).serve m.val r e.val = (v.repaired m.val r).memValue r := by
    rw [State.serve_of_read hw, hv]
    exact State.memRead_repaired v m.val (by rwa [ready.isPoisoned, ready.copyOf]) vdup (ready.loneCopy.trans hlone)
      (by rwa [ready.isPoisoned, ready.copyOf])
  have lost := v.lineLost_lineLost m.val r
  have repaired := v.repaired_keeps (r := r) m.val
  have valued : Keeps 0x10 (v.repaired m.val r) ((v.repaired m.val r).memValue r) := State.memValue_keeps rfl (.refl _ _)
  have now : ((v.repaired m.val r).memValue r).now = (v.lineLost m.val r).now := valued.now.trans (repaired.now.trans lost.keeps.now.symm)
  have chan : ((v.repaired m.val r).memValue r).mchan m.val = (v.lineLost m.val r).mchan m.val :=
    (State.mchan_of_memory (State.memValue_memory _) _).trans (v.repaired_mchan _ _)
  have goOn : ((v.repaired m.val r).memValue r).errorsGoOn m.val = false :=
    (State.errorsGoOn_of_chan (by rw [chan]) (by rw [chan]) now).trans (lost.ends (ready.check.trans hcheck))
  obtain ⟨t, run, calm⟩ := execMemRequestServe_served hserves hstalled hnext served goOn
  have mem : (v.repaired m.val r).mem = s.mem := (repaired.same .mem rfl).trans (ready.keeps.same .mem rfl)
  have counted (a : Nat) : t.reg a = (v.repaired m.val r).reg a :=
    (State.reg_of_regs a (calm.keeps.same .regs rfl)).trans (State.reg_of_regs a (valued.same .regs rfl))
  have before (a : Nat) : v.reg a = s.reg a := State.reg_of_regs a (ready.keeps.same .regs rfl)
  refine ⟨t, run, ?_, ?_, ?_, fun n hn => ?_, ?_, fun hrun => ?_⟩
  · rw [calm.isPoisoned, State.isPoisoned, State.memValue_memory, ← State.isPoisoned, ← ready.copyOf]
    exact v.repaired_good m.val
  · exact ((calm.keeps.same .mem rfl).trans (valued.same .mem rfl)).trans mem
  · rw [calm.queue, chan, lost.queue, ready.queue]
  · rw [calm.keeps.same .readValue rfl, State.memValue_of_core _ hn, State.bytes_of_mem mem]
  · rw [counted, v.repaired_counts, before]
  · have told := v.repaired_logs (r := r) m.val (ready.keeps.running rfl hrun)
    exact ((told.keep valued rfl).keep calm.keeps rfl).after ready.keeps rfl

end

end

/-! ## The scrub (R279) -/

section
variable {s : State} {e : Fin 3}

theorem execPatrolScrub_of_off (h : s.memory.state < 2 ∨ bit (s.reg R.mem_MEM_CTRL).toNat 0 = false) : exec (.patrolScrub e) s = .next s :=
  if_pos h

/-- The scrub has gone to the next line. -/
def State.scrubStepped (s : State) : State :=
  let t := s.modMemory fun y => { y with scrubLine := if s.scrubLines ≤ s.memory.scrubLine + 1 then 0 else s.memory.scrubLine + 1 }
  if s.scrubLines ≤ s.memory.scrubLine + 1 then t.count R.mem_SCRUB_PASSES else t

theorem State.scrubStepped_keeps (s : State) : Keeps 0x200000001 s s.scrubStepped :=
  Keeps.ite (State.count_keeps rfl (State.modMemory_keeps rfl (.refl _ s))) (State.modMemory_keeps rfl (.refl _ s))

theorem State.scrubStepped_memory (s : State) : s.scrubStepped.memory =
    { s.memory with scrubLine := if s.scrubLines ≤ s.memory.scrubLine + 1 then 0 else s.memory.scrubLine + 1 } := by
  unfold State.scrubStepped
  dsimp only
  split <;> rfl

theorem State.scrubStepped_mchan (s : State) (m : Nat) : s.scrubStepped.mchan m = s.mchan m := by
  rw [State.mchan, State.scrubStepped_memory, State.mchan]

theorem State.scrubStepped_isPoisoned (s : State) (l c : Nat) : s.scrubStepped.isPoisoned l c = s.isPoisoned l c := by
  rw [State.isPoisoned, State.scrubStepped_memory, State.isPoisoned]

theorem State.scrubStepped_liveCopy (s : State) (r e : Nat) : s.scrubStepped.liveCopy r e = s.liveCopy r e := by
  rw [State.liveCopy, State.scrubStepped_memory, State.liveCopy]

theorem State.scrubStepped_reg (s : State) {a : Nat} (h : a ≠ R.mem_SCRUB_PASSES) : s.scrubStepped.reg a = s.reg a := by
  unfold State.scrubStepped
  dsimp only
  split
  · exact (State.reg_count _ _ _).trans (if_neg h)
  · rfl

theorem State.scrubStepped_passes (s : State) : (s.scrubStepped.reg R.mem_SCRUB_PASSES).toNat =
    min 0xFFFFFFFF ((s.reg R.mem_SCRUB_PASSES).toNat + b2n (decide (s.scrubLines ≤ s.memory.scrubLine + 1))) := by
  unfold State.scrubStepped
  dsimp only
  split
  next h =>
    rw [decide_eq_true h]
    exact State.toNat_reg_count _ _
  next h =>
    have bound := (s.reg R.mem_SCRUB_PASSES).isLt
    rw [decide_eq_false h]
    exact (Nat.min_eq_right (Nat.le_of_lt_succ bound)).symm

variable (hstate : 2 ≤ s.memory.state) (hon : bit (s.reg R.mem_MEM_CTRL).toNat 0 = true)
include hstate hon

theorem not_scrubOff : ¬(s.memory.state < 2 ∨ bit (s.reg R.mem_MEM_CTRL).toNat 0 = false) := by
  rintro (h | h)
  · omega
  · exact Bool.false_ne_true (h.symm.trans hon)

variable {r x c : Nat} (hplace : s.scrubAt s.memory.scrubLine s.regions = (r, x, c))
include hplace

theorem execPatrolScrub_of_busy (h : (s.mchan (s.scrubChannel r x c)).queue ≠ [] ∨ s.stalled (s.scrubChannel r x c) = true) :
    exec (.patrolScrub e) s = .next s := by
  show execPatrolScrub e s = _
  unfold execPatrolScrub
  rw [if_neg (not_scrubOff hstate hon), hplace]
  refine if_pos ?_
  rcases h with h | h
  · rw [Bool.or_eq_true, Bool.not_eq_true', List.isEmpty_eq_false_iff]
    exact .inl h
  · rw [h, Bool.or_true]

variable (hempty : (s.mchan (s.scrubChannel r x c)).queue = []) (hstalled : s.stalled (s.scrubChannel r x c) = false)
include hempty hstalled

/-- A line that reads well. -/
theorem execPatrolScrub_of_good (he : e.val ≠ 2) (hgood : s.isPoisoned (memBase + r * 2 ^ 36 + x) c = false) :
    ∃ t, exec (.patrolScrub e) s = .next t ∧ (t = s.scrubStepped ∨ e.val = 1 ∧ t = s.scrubStepped.corrected (s.scrubChannel r x c)) ∧
      (e.val = 1 → (s.mchan (s.scrubChannel r x c)).serves = true → c = s.liveCopy r (extentOf x) →
        t = s.scrubStepped.corrected (s.scrubChannel r x c)) := by
  have run : execPatrolScrub e s = execPatrolScrub e s := rfl
  conv_rhs at run => unfold execPatrolScrub
  rw [if_neg (not_scrubOff hstate hon), hplace] at run
  dsimp -zeta only at run
  extract_lets a b d lone next wrap stepping stepped lost told at run
  rw [if_neg (by rw [hempty, hstalled]; exact Bool.false_ne_true)] at run
  have hstepped : stepped = s.scrubStepped := rfl
  clear_value stepped
  subst hstepped
  rw [State.scrubStepped_mchan, State.scrubStepped_liveCopy, State.scrubStepped_isPoisoned] at run
  have read : ¬(e.val = 2 ∨ s.isPoisoned a c = true) := by
    rintro (h | h)
    · exact he h
    · exact Bool.false_ne_true (hgood.symm.trans h)
  rw [if_neg read] at run
  split at run
  next skip =>
    refine ⟨_, run, .inl rfl, fun _ hserves hlive => ?_⟩
    rw [hserves, ← hlive, bne_self_eq_false, Bool.and_false] at skip
    exact absurd skip Bool.false_ne_true
  next =>
    by_cases h1 : e.val = 1
    · rw [if_pos h1] at run
      exact ⟨_, run, .inr ⟨h1, rfl⟩, fun _ _ _ => rfl⟩
    · rw [if_neg h1] at run
      exact ⟨_, run, .inl rfl, fun h => absurd h h1⟩

/-- A line that is lost, in a region of one copy. -/
theorem execPatrolScrub_of_lost (hbad : e.val = 2 ∨ s.isPoisoned (memBase + r * 2 ^ 36 + x) c = true)
    (hserves : (s.mchan (s.scrubChannel r x c)).serves = true) (hcheck : (s.mchan (s.scrubChannel r x c)).checkBy = none)
    (hdup : s.regionDup r = false) (hlive : c = s.liveCopy r (extentOf x)) :
    exec (.patrolScrub e) s = .next
      ((s.scrubStepped.poison (memBase + r * 2 ^ 36 + x) c).uncorrectable (s.scrubChannel r x c) r .sc) := by
  have run : execPatrolScrub e s = execPatrolScrub e s := rfl
  conv_rhs at run => unfold execPatrolScrub
  rw [if_neg (not_scrubOff hstate hon), hplace] at run
  dsimp -zeta only at run
  extract_lets a b d lone next wrap stepping stepped lost told at run
  rw [if_neg (by rw [hempty, hstalled]; exact Bool.false_ne_true)] at run
  have hstepped : stepped = s.scrubStepped := rfl
  have hlost : lost = (s.scrubStepped.poison a c).uncorrectable d r .sc := rfl
  have keeps : Keeps 0x4a00000005 s lost := State.uncorrectable_keeps rfl (State.poison_keeps rfl (s.scrubStepped_keeps.widen rfl))
  have dup : lost.regionDup r = false := (State.regionDup_of_config (keeps.same .config rfl) r).trans hdup
  have htold : told = lost := by
    refine (if_neg ?_).trans (if_neg (State.dup_of_zero hdup))
    rw [dup]
    exact Bool.false_ne_true
  have goes : lost.errorsGoOn d = false := by
    refine ((s.scrubStepped.poison a c).uncorrectable_uncorrected d r .sc).ends ?_
    rw [State.mchan, State.poison_chans, ← State.mchan, State.scrubStepped_mchan, hcheck]
  rw [htold, goes, if_neg Bool.false_ne_true] at run
  clear_value stepped
  subst hstepped
  rw [State.scrubStepped_mchan, State.scrubStepped_liveCopy, State.scrubStepped_isPoisoned, if_neg, if_pos hbad] at run
  · exact run
  · rw [hserves, ← hlive, bne_self_eq_false, Bool.and_false]
    exact Bool.false_ne_true

end

/-! ## The statement -/

/-- What the scrub leaves of a line that reads well. -/
theorem execPatrolScrub_good_counts {s : State} {e : Fin 3} {r x c : Nat} (hstate : 2 ≤ s.memory.state)
    (hon : bit (s.reg R.mem_MEM_CTRL).toNat 0 = true) (hplace : s.scrubAt s.memory.scrubLine s.regions = (r, x, c))
    (hempty : (s.mchan (s.scrubChannel r x c)).queue = []) (hstalled : s.stalled (s.scrubChannel r x c) = false)
    (he : e.val ≠ 2) (hgood : s.isPoisoned (memBase + r * 2 ^ 36 + x) c = false) :
    ∃ t, exec (.patrolScrub e) s = .next t ∧
      t.memory.scrubLine = (if s.scrubLines ≤ s.memory.scrubLine + 1 then 0 else s.memory.scrubLine + 1) ∧
      (t.reg R.mem_SCRUB_PASSES).toNat =
        min 0xFFFFFFFF ((s.reg R.mem_SCRUB_PASSES).toNat + b2n (decide (s.scrubLines ≤ s.memory.scrubLine + 1))) ∧
      (e = 1 → (s.mchan (s.scrubChannel r x c)).serves = true → c = s.liveCopy r (extentOf x) →
        (t.reg (R.mch_CH_CORR (s.scrubChannel r x c))).toNat = min 0xFFFFFFFF ((s.reg (R.mch_CH_CORR (s.scrubChannel r x c))).toNat + 1)) ∧
      t = { s with memory := t.memory, regs := t.regs } := by
  generalize hm : s.scrubChannel r x c = m at *
  obtain ⟨t, run, forms, corrects⟩ := execPatrolScrub_of_good (e := e) hstate hon hplace (hm ▸ hempty) (hm ▸ hstalled) he hgood
  rw [hm] at forms corrects
  have stepped := s.scrubStepped_keeps
  have passes : R.mem_SCRUB_PASSES ≠ R.mch_CH_CORR m := (mch_ne_mem m _ (by decide)).symm
  have corrected : Keeps 0x200000001 s (s.scrubStepped.corrected m) := State.corrected_keeps rfl stepped
  have same : (s.scrubStepped.corrected m).reg R.mem_SCRUB_PASSES = s.scrubStepped.reg R.mem_SCRUB_PASSES := by
    rw [State.corrected_reg, State.reg_count, if_neg (by decide), State.reg_count, if_neg passes]
  refine ⟨t, run, ?_, ?_, fun h1 hserves hlive => ?_, ?_⟩
  · rcases forms with rfl | ⟨-, rfl⟩
    · rw [State.scrubStepped_memory]
    · rw [State.corrected_scrubLine, State.scrubStepped_memory]
  · rcases forms with rfl | ⟨-, rfl⟩
    · exact s.scrubStepped_passes
    · rw [same]
      exact s.scrubStepped_passes
  · rw [corrects (congrArg Fin.val h1) hserves hlive, (s.scrubStepped.corrected_counts m).1, State.scrubStepped_reg _ passes.symm]
  · rcases forms with rfl | ⟨-, rfl⟩
    · exact stepped.scrubbed_eq
    · exact corrected.scrubbed_eq

/-- What it leaves of a line that is lost. -/
theorem execPatrolScrub_lost_counts {s : State} {e : Fin 3} {r x c : Nat} (hstate : 2 ≤ s.memory.state)
    (hon : bit (s.reg R.mem_MEM_CTRL).toNat 0 = true) (hplace : s.scrubAt s.memory.scrubLine s.regions = (r, x, c))
    (hempty : (s.mchan (s.scrubChannel r x c)).queue = []) (hstalled : s.stalled (s.scrubChannel r x c) = false)
    (hbad : e.val = 2 ∨ s.isPoisoned (memBase + r * 2 ^ 36 + x) c = true)
    (hserves : (s.mchan (s.scrubChannel r x c)).serves = true) (hcheck : (s.mchan (s.scrubChannel r x c)).checkBy = none)
    (hdup : s.regionDup r = false) (hlive : c = s.liveCopy r (extentOf x)) :
    ∃ t, exec (.patrolScrub e) s = .next t ∧ t.isPoisoned (memBase + r * 2 ^ 36 + x) c = true ∧ t.mem = s.mem ∧
      t.memory.scrubLine = (if s.scrubLines ≤ s.memory.scrubLine + 1 then 0 else s.memory.scrubLine + 1) ∧
      (t.reg (R.mch_CH_UNCORR (s.scrubChannel r x c))).toNat = min 0xFFFFFFFF ((s.reg (R.mch_CH_UNCORR (s.scrubChannel r x c))).toNat + 1) := by
  have run := execPatrolScrub_of_lost hstate hon hplace hempty hstalled hbad hserves hcheck hdup hlive
  generalize s.scrubChannel r x c = m at run ⊢
  generalize memBase + r * 2 ^ 36 + x = a at run ⊢
  have lost := (s.scrubStepped.poison a c).uncorrectable_uncorrected m r .sc
  have apart : R.mch_CH_UNCORR m ≠ R.mem_SCRUB_PASSES := mch_ne_mem m _ (by decide)
  have poisoned (y : State) : (y.poison a c).reg (R.mch_CH_UNCORR m) = y.reg (R.mch_CH_UNCORR m) := rfl
  have mem (y : State) : (y.poison a c).mem = y.mem := rfl
  have line (y : State) : (y.poison a c).memory.scrubLine = y.memory.scrubLine := by
    simp only [State.poison, State.modMemory]
    split <;> rfl
  refine ⟨_, run, ?_, ?_, ?_, ?_⟩
  · rw [State.isPoisoned, lost.poisoned, ← State.isPoisoned, State.isPoisoned_poison]
    simp
  · rw [lost.keeps.same .mem rfl, mem]
    exact s.scrubStepped_keeps.same .mem rfl
  · rw [lost.line, line, State.scrubStepped_memory]
  · rw [lost.counts, poisoned, State.scrubStepped_reg _ apart]

/-- Settles O42: a request arrives by `State.arrive`, is served as a write, a read that reads well, a line lost or repaired, and the scrub
reads one line; of a lost line only what its slot's commits leave of the channels' registers takes an argument of its own
(`State.slotLost_steady`). -/
theorem memoryRequestsAreServed : Obligations.MemoryRequestsAreServed := by
  unfold Obligations.MemoryRequestsAreServed
  refine ⟨fun m e r l s => rfl, fun m r s => ⟨fun hm => ⟨fun n hp hrun => ?unmapped, fun hp => State.arrive_of_unmapped hm hp⟩,
    State.arrive_of_fenced_write, fun hm hf => ⟨fun hl hline hc hq => ?room, State.arrive_of_no_room hm hf⟩⟩,
    fun m e s h => execMemRequestServe_of_idle h, fun m e r s hserves hstalled hnext => ?serves, fun e s => ⟨execPatrolScrub_of_off, fun hstate hon => ?scrub⟩⟩
  case unmapped =>
    rw [State.arrive_of_unmapped_core hm hp]
    exact State.log_alone hrun _ _ _
  case room =>
    rw [State.arrive_of_room hm hf hl hline hc hq]
    exact ⟨by simp, by simp, fun k hk => (State.mchan_setMchan _ _ _ _).trans (if_neg hk), rfl⟩
  case serves =>
    intro l c lone
    refine ⟨fun hgo => ⟨fun p hw quiet => execMemRequestServe_write hserves hstalled hnext hgo hw quiet, fun hw hgood => ⟨fun h0 => ?_, fun h1 => ?_⟩⟩,
      fun hcheck hw hbad => ⟨fun hdup => ?_, fun hdup hlone hother => ?_⟩⟩
    · subst h0
      obtain ⟨t, run, queue, value, other, quiet, -, -⟩ :=
        execMemRequestServe_read (e := 0) hserves hstalled hnext hgo hw hgood (by decide)
      exact ⟨t, run, queue, value, other, quiet rfl⟩
    · subst h1
      obtain ⟨t, run, queue, value, -, -, counts, frame⟩ :=
        execMemRequestServe_read (e := 1) hserves hstalled hnext hgo hw hgood (by decide)
      exact ⟨t, run, queue, value, (counts rfl).1, (counts rfl).2, frame⟩
    · exact execMemRequestServe_lost hserves hstalled hnext hcheck hw (hbad.imp_left (congrArg Fin.val)) hdup
    · exact execMemRequestServe_repaired hserves hstalled hnext hcheck hw (hbad.imp_left (congrArg Fin.val)) hdup hlone hother
  case scrub =>
    generalize hplace : s.scrubAt s.memory.scrubLine s.regions = place
    obtain ⟨r, x, c⟩ := place
    intro x' a m
    refine ⟨execPatrolScrub_of_busy hstate hon hplace, fun hempty hstalled hm => ⟨fun he hgood => ?_, fun hbad hserves hcheck hdup hlive => ?_⟩⟩
    · exact execPatrolScrub_good_counts hstate hon hplace hempty hstalled (fun h => he (Fin.ext h)) hgood
    · exact execPatrolScrub_lost_counts hstate hon hplace hempty hstalled (hbad.imp_left (congrArg Fin.val)) hserves hcheck hdup hlive

end Sys2Proof.Machine
end

section
/-!
PROOF. Records that are admitted or shed, pages that are written, and seals (R300 to R310).
-/

namespace Sys2Proof.Machine

/-! ## What changes of the state -/

theorem Keeps.recorder_eq {s t : State} (h : Keeps 0x400000000 s t) : t = { s with recorder := t.recorder } := by
  refine h.eq_of_agree rfl (fun p hp => ?_) (fun p hp => ?_)
  · cases p
    case recorder => cases hp
    all_goals rfl
  · cases p
    case recorder => rfl
    all_goals cases hp

/-! ## Admission (R300, R301, R306) -/

/-- A record as it is staged. -/
def State.record (s : State) (type source : Nat) (payload : List Byte) : Staged :=
  { type := type, source := source, payload := payload, at_ := s.now, stamp := s.stamp }

/-- A record is staged behind the others. -/
def State.stage (s : State) (r : Staged) : State := s.modRecorder fun q => { q with staging := q.staging ++ [r] }

/-- The backlog sheds records of a class with a limit. -/
def State.sheds (s : State) (type limit : Nat) : Prop :=
  if (s.recorder.shed type).on then limit / 2 ≤ s.backlog else limit < s.backlog

section
variable {s : State} {type source limit : Nat} {p : List Byte}

theorem State.admitRecord_of_refused (h : s.recAdmits type = false) : s.admitRecord type source p = s :=
  if_pos (by rw [h]; rfl)

theorem State.admitRecord_unlimited (h : s.recAdmits type = true) (hl : shedLimit type = none) :
    s.admitRecord type source p = s.stage (s.record type source p) := by
  unfold State.admitRecord
  rw [if_neg (by rw [h]; exact Bool.false_ne_true)]
  dsimp only
  rw [hl]
  rfl

theorem Recorder.shed_setShed (r : Recorder) (type : Nat) (x : Shed) : (r.setShed type x).shed type = x :=
  match type with
  | 0 | 1 | 2 | 3 | 4 => rfl
  | _ + 5 => rfl

theorem Recorder.setShed_staging (r : Recorder) (type : Nat) (x : Shed) : (r.setShed type x).staging = r.staging := by
  unfold Recorder.setShed
  split <;> rfl

theorem Recorder.setShed_taps (r : Recorder) (type : Nat) (x : Shed) : (r.setShed type x).taps = r.taps := by
  unfold Recorder.setShed
  split <;> rfl

/-- What is shed of a class begins or goes on, and is counted. -/
def State.shedBy (s : State) (type : Nat) : State :=
  (s.modRecorder fun r => r.setShed type
    { on := true, count := (s.recorder.shed type).count + 1,
      first := if (s.recorder.shed type).count = 0 then s.stamp else (s.recorder.shed type).first, last := s.stamp }).count (dropsReg type)

/-- It is reported. -/
def State.shedReported (s : State) (type : Nat) : State :=
  let t := (s.shedBy type).event R.rec_EVENTS 4
  t.logRated F.REC_DROP 0 R.rec 0 (fun _ => leBytes 4 t.recorder.shedTap.count ++ leBytes 4 t.recorder.shedProxy.count ++
    leBytes 4 t.recorder.shedAudio.count) false

/-- A class is shed no longer, and what was shed of it is told in a DROP record. -/
def State.admitting (s : State) (type : Nat) : State :=
  let t := s.modRecorder fun r => r.setShed type { s.recorder.shed type with on := false }
  if 0 < (s.recorder.shed type).count then t.dropRecord else t

theorem State.admitRecord_shed (h : s.recAdmits type = true) (hl : shedLimit type = some limit) (hs : s.sheds type limit) :
    s.admitRecord type source p = s.shedReported type := by
  have on : (if (s.recorder.shed type).on then decide (limit / 2 ≤ s.backlog) else decide (limit < s.backlog)) = true := by
    unfold State.sheds at hs
    split
    next o => rw [if_pos o] at hs; exact decide_eq_true hs
    next o => rw [if_neg o] at hs; exact decide_eq_true hs
  unfold State.admitRecord
  rw [if_neg (by rw [h]; exact Bool.false_ne_true)]
  dsimp only
  rw [hl]
  exact if_pos on

theorem State.admitRecord_admitted (h : s.recAdmits type = true) (hl : shedLimit type = some limit) (hs : ¬s.sheds type limit) :
    s.admitRecord type source p = (s.admitting type).stage ((s.admitting type).record type source p) := by
  have off : ¬(if (s.recorder.shed type).on then decide (limit / 2 ≤ s.backlog) else decide (limit < s.backlog)) = true := by
    unfold State.sheds at hs
    split
    next o => rw [if_pos o] at hs; exact fun k => hs (of_decide_eq_true k)
    next o => rw [if_neg o] at hs; exact fun k => hs (of_decide_eq_true k)
  unfold State.admitRecord
  rw [if_neg (by rw [h]; exact Bool.false_ne_true)]
  dsimp only
  rw [hl]
  exact if_neg off

/-! ### What is shed -/

theorem State.shedReported_keeps (s : State) (type : Nat) : Keeps 0x4800000005 (s.shedBy type) (s.shedReported type) := by
  unfold State.shedReported
  exact State.logRated_keeps rfl (State.event_keeps rfl (.refl _ _))

theorem State.shedReported_recorder (s : State) (type : Nat) : (s.shedReported type).recorder = (s.shedBy type).recorder :=
  (s.shedReported_keeps type).same .recorder rfl

theorem dropsReg_ne (type : Nat) : dropsReg type ≠ R.rec_EVENTS ∧ dropsReg type ≠ R.hub_SATURATED := by
  unfold dropsReg
  split
  · decide
  · decide
  · decide

theorem State.shedReported_counts (s : State) (type : Nat) :
    ((s.shedReported type).reg (dropsReg type)).toNat = min 0xFFFFFFFF ((s.reg (dropsReg type)).toNat + 1) := by
  have logged : (s.shedReported type).regs = ((s.shedBy type).event R.rec_EVENTS 4).regs :=
    (State.logRated_keeps rfl (.refl 0x4000000000 _)).same .regs rfl
  obtain ⟨events, hub⟩ := dropsReg_ne type
  rw [State.reg_of_regs _ logged, State.reg_event _ _ _ _ hub, if_neg events]
  exact State.toNat_reg_count _ _

theorem State.shedBy_shed (s : State) (type : Nat) : (s.shedBy type).recorder.staging = s.recorder.staging ∧
    ((s.shedBy type).recorder.shed type).on = true ∧ ((s.shedBy type).recorder.shed type).count = (s.recorder.shed type).count + 1 ∧
    (s.shedBy type).recorder.taps = s.recorder.taps := by
  have recorder : (s.shedBy type).recorder = s.recorder.setShed type
    { on := true, count := (s.recorder.shed type).count + 1,
      first := if (s.recorder.shed type).count = 0 then s.stamp else (s.recorder.shed type).first, last := s.stamp } := rfl
  rw [recorder, Recorder.shed_setShed]
  exact ⟨Recorder.setShed_staging _ _ _, rfl, rfl, Recorder.setShed_taps _ _ _⟩

/-- A record is shed: it is not staged but counted. -/
theorem State.shedReported_shed (s : State) (type : Nat) : (s.shedReported type).recorder.staging = s.recorder.staging ∧
    ((s.shedReported type).recorder.shed type).on = true ∧
    ((s.shedReported type).recorder.shed type).count = (s.recorder.shed type).count + 1 ∧
    (s.shedReported type).recorder.taps = s.recorder.taps := by
  rw [s.shedReported_recorder]
  exact s.shedBy_shed type

/-! ### What is admitted -/

theorem State.admitting_keeps (s : State) (type : Nat) : Keeps 0x400000000 s (s.admitting type) :=
  Keeps.ite (State.dropRecord_keeps rfl (State.modRecorder_keeps rfl (.refl _ s))) (State.modRecorder_keeps rfl (.refl _ s))

theorem State.admitting_stamp (s : State) (type : Nat) : (s.admitting type).stamp = s.stamp :=
  State.stamp_of_parts ((s.admitting_keeps type).same .clock rfl) ((s.admitting_keeps type).same .config rfl)

theorem State.admitting_record (s : State) (type source : Nat) (p : List Byte) : (s.admitting type).record type source p = s.record type source p := by
  rw [State.record, s.admitting_stamp, State.now, (s.admitting_keeps type).now, State.record, State.now]

theorem State.admitting_of_none (h : (s.recorder.shed type).count = 0) :
    s.admitting type = s.modRecorder fun r => r.setShed type { s.recorder.shed type with on := false } :=
  if_neg (by rw [h]; exact Nat.lt_irrefl 0)

theorem State.admitting_of_some (h : 0 < (s.recorder.shed type).count) :
    s.admitting type = (s.modRecorder fun r => r.setShed type { s.recorder.shed type with on := false }).dropRecord := if_pos h

theorem State.dropRecord_recorder (s : State) : ∃ d : Staged, d.type = 6 ∧ d.stamp = s.stamp ∧ s.dropRecord.recorder = { s.recorder with
    staging := s.recorder.staging ++ [d], abandoned := 0, shedTap := { s.recorder.shedTap with count := 0 },
    shedProxy := { s.recorder.shedProxy with count := 0 }, shedAudio := { s.recorder.shedAudio with count := 0 } } :=
  ⟨_, rfl, rfl, rfl⟩

/-- The counts of every class have ended. -/
theorem State.dropRecord_shed (s : State) (type : Nat) : s.dropRecord.recorder.shed type = { s.recorder.shed type with count := 0 } := by
  obtain ⟨d, -, -, recorder⟩ := s.dropRecord_recorder
  rw [recorder]
  unfold Recorder.shed
  split <;> rfl

theorem State.admitting_shed (s : State) (type : Nat) :
    ((s.admitting type).recorder.shed type).on = false ∧ ((s.admitting type).recorder.shed type).count = 0 := by
  by_cases h : 0 < (s.recorder.shed type).count
  · rw [State.admitting_of_some h, State.dropRecord_shed]
    exact ⟨congrArg Shed.on (Recorder.shed_setShed _ _ _), rfl⟩
  · have none : (s.recorder.shed type).count = 0 := Nat.eq_zero_of_not_pos h
    rw [State.admitting_of_none none]
    exact ⟨congrArg Shed.on (Recorder.shed_setShed _ _ _), (congrArg Shed.count (Recorder.shed_setShed _ _ _)).trans none⟩

theorem State.admitting_staging_of_none (h : (s.recorder.shed type).count = 0) : (s.admitting type).recorder.staging = s.recorder.staging := by
  rw [State.admitting_of_none h]
  exact Recorder.setShed_staging _ _ _

theorem State.admitting_staging_of_some (h : 0 < (s.recorder.shed type).count) :
    ∃ d : Staged, d.type = 6 ∧ d.stamp = s.stamp ∧ (s.admitting type).recorder.staging = s.recorder.staging ++ [d] := by
  rw [State.admitting_of_some h]
  obtain ⟨d, kind, stamp, recorder⟩ := (s.modRecorder fun r => r.setShed type { s.recorder.shed type with on := false }).dropRecord_recorder
  refine ⟨d, kind, stamp, ?_⟩
  rw [recorder]
  exact congrArg (· ++ [d]) (Recorder.setShed_staging _ _ _)

theorem State.admitting_taps (s : State) (type : Nat) : (s.admitting type).recorder.taps = s.recorder.taps := by
  by_cases h : 0 < (s.recorder.shed type).count
  · rw [State.admitting_of_some h]
    obtain ⟨d, -, -, recorder⟩ := (s.modRecorder fun r => r.setShed type { s.recorder.shed type with on := false }).dropRecord_recorder
    rw [recorder]
    exact Recorder.setShed_taps _ _ _
  · rw [State.admitting_of_none (Nat.eq_zero_of_not_pos h)]
    exact Recorder.setShed_taps _ _ _

end

/-! ### RECORD_ADMIT -/

section
variable {s : State} {type n : Nat} {p : List Byte}

theorem execRecordAdmit_ledger {e : Entry} {r : List Entry} (h : s.recAdmits 1 = true) (hm : s.ledger.mirror = e :: r) :
    exec (.recordAdmit .ledger) s =
      .next (({ s with ledger := { s.ledger with mirror := r } } : State).stage (s.record 1 0 (entryBytes e))) := by
  have admits : ({ s with ledger := { s.ledger with mirror := r } } : State).recAdmits 1 = true := h
  show execRecordAdmit .ledger s = _
  unfold execRecordAdmit
  dsimp only
  rw [if_neg (by rw [h]; decide), hm]
  dsimp only
  rw [State.admitRecord_unlimited admits rfl]
  rfl

theorem execRecordAdmit_data (h4 : type ≠ 4) (h : 2 ≤ type ∧ type ≤ 5) :
    exec (.recordAdmit (.data type n p)) s = .next (s.admitRecord type n p) :=
  (if_neg h4).trans (if_pos h)

theorem execRecordAdmit_of_none (h : type < 2 ∨ 5 < type ∨ s.recAdmits type = false) : exec (.recordAdmit (.data type n p)) s = .next s := by
  show execRecordAdmit (.data type n p) s = _
  unfold execRecordAdmit
  dsimp only
  split
  next h4 =>
    subst h4
    have refused : s.recAdmits 4 = false := (h.resolve_left (by decide)).resolve_left (by decide)
    rw [show s.tapAdmit n p = (s, true) from if_pos refused]
  next =>
    split
    next range => rw [State.admitRecord_of_refused ((h.resolve_left (by omega)).resolve_left (by omega))]
    next => rfl

/-- A record within the limit of its class. -/
theorem State.admitRecord_stages {limit : Nat} (h : s.recAdmits type = true) (hl : shedLimit type = some limit) (hs : ¬s.sheds type limit) :
    ((s.admitRecord type n p).recorder.shed type).on = false ∧ ((s.admitRecord type n p).recorder.shed type).count = 0 ∧
      ((s.recorder.shed type).count = 0 → (s.admitRecord type n p).recorder.staging = s.recorder.staging ++ [s.record type n p]) ∧
      (0 < (s.recorder.shed type).count → ∃ d : Staged, d.type = 6 ∧ d.stamp = s.stamp ∧
        (s.admitRecord type n p).recorder.staging = s.recorder.staging ++ [d, s.record type n p]) ∧
      (s.admitRecord type n p).recorder.taps = s.recorder.taps ∧ Keeps 0x400000000 s (s.admitRecord type n p) := by
  rw [State.admitRecord_admitted h hl hs, State.admitting_record]
  have staged : ((s.admitting type).stage (s.record type n p)).recorder.staging = (s.admitting type).recorder.staging ++ [s.record type n p] := rfl
  have shed : ((s.admitting type).stage (s.record type n p)).recorder.shed type = (s.admitting type).recorder.shed type := rfl
  obtain ⟨off, none⟩ := s.admitting_shed type
  rw [shed, staged]
  refine ⟨off, none, fun h0 => ?_, fun hpos => ?_, s.admitting_taps type, State.modRecorder_keeps rfl (s.admitting_keeps type)⟩
  · rw [State.admitting_staging_of_none h0]
  · obtain ⟨d, kind, stamp, staging⟩ := State.admitting_staging_of_some hpos
    exact ⟨d, kind, stamp, by rw [staging, List.append_assoc]; rfl⟩

/-- The tap has taken a packet. -/
def State.tapped (s : State) (n size : Nat) : State :=
  s.modTap n fun x => { x with
    pkts := min 0xFFFFFFFF (x.pkts + 1),
    inSecond := (if (s.tap n).second = s.now / sec 1 then (s.tap n).inSecond else 0) + size, second := s.now / sec 1 }

theorem State.tapAdmit_within (h : s.recAdmits 4 = true)
    (hcap : (if (s.tap n).second = s.now / sec 1 then (s.tap n).inSecond else 0) + (24 + (pad8 p).length) ≤ (s.tapCap n).getD 0 * 125) :
    (s.tapAdmit n p).1 = (s.tapped n (24 + (pad8 p).length)).admitRecord 4 n p := by
  unfold State.tapAdmit
  dsimp only
  rw [if_neg (by rw [h]; decide), if_neg (Nat.not_lt.2 hcap)]
  rfl

/-- The tap has discarded a packet. -/
def State.tapLimited (s : State) (n : Nat) : State := (s.modTap n fun x => { x with limited := min 0xFFFFFFFF (x.limited + 1) }).count R.rec_TAP_DROPS

theorem State.tapAdmit_beyond (h : s.recAdmits 4 = true)
    (hcap : (s.tapCap n).getD 0 * 125 < (if (s.tap n).second = s.now / sec 1 then (s.tap n).inSecond else 0) + (24 + (pad8 p).length)) :
    Keeps 0x4000000000 (s.tapLimited n) (s.tapAdmit n p).1 := by
  unfold State.tapAdmit
  dsimp only
  rw [if_neg (by rw [h]; decide), if_pos hcap]
  have logged := State.logRated_keeps (s := s.tapLimited n) (c := F.REC_TAP_LIMIT) (inst := n) (ctrl := R.rec)
    (dp := dpAddr 2 (le p 4 1) (le p 0 4) 0 0 0) (data := fun k => leBytes 1 n ++ leBytes 4 k) (dataOnly := false) (stamp := (s.tapLimited n).stamp)
    rfl (.refl 0x4000000000 _)
  exact logged

theorem State.tapped_keeps (s : State) (n size : Nat) : Keeps 0x400000000 s (s.tapped n size) := State.modTap_keeps rfl (.refl _ s)

/-- A TAP record within its tap's cap. -/
theorem execRecordAdmit_tap_within (h : s.recAdmits 4 = true)
    (hcap : (if (s.tap n).second = s.now / sec 1 then (s.tap n).inSecond else 0) + (24 + (pad8 p).length) ≤ (s.tapCap n).getD 0 * 125) :
    ∃ t, exec (.recordAdmit (.data 4 n p)) s = .next t ∧ (t.tap n).pkts = min 0xFFFFFFFF ((s.tap n).pkts + 1) ∧
      (t.tap n).inSecond = (if (s.tap n).second = s.now / sec 1 then (s.tap n).inSecond else 0) + (24 + (pad8 p).length) ∧
      (¬s.sheds 4 8388608 → (s.recorder.shed 4).count = 0 → t.recorder.staging = s.recorder.staging ++ [s.record 4 n p]) ∧
      (s.sheds 4 8388608 → t.recorder.staging = s.recorder.staging ∧ (t.recorder.shed 4).count = (s.recorder.shed 4).count + 1 ∧
        (t.reg R.rec_TAP_DROPS).toNat = min 0xFFFFFFFF ((s.reg R.rec_TAP_DROPS).toNat + 1)) := by
  have run : exec (.recordAdmit (.data 4 n p)) s = .next (s.tapAdmit n p).1 := rfl
  rw [State.tapAdmit_within h hcap] at run
  generalize hv : s.tapped n (24 + (pad8 p).length) = v at run
  have admits : v.recAdmits 4 = true := by rw [← hv]; exact h
  have same : v.recorder.staging = s.recorder.staging ∧ v.recorder.shed 4 = s.recorder.shed 4 ∧ v.record 4 n p = s.record 4 n p ∧
      v.sheds 4 8388608 = s.sheds 4 8388608 ∧ v.reg R.rec_TAP_DROPS = s.reg R.rec_TAP_DROPS := by
    rw [← hv]
    exact ⟨rfl, rfl, rfl, rfl, rfl⟩
  obtain ⟨staging, shed, record, sheds, drops⟩ := same
  have tap : v.tap n = { s.tap n with
      pkts := min 0xFFFFFFFF ((s.tap n).pkts + 1),
      inSecond := (if (s.tap n).second = s.now / sec 1 then (s.tap n).inSecond else 0) + (24 + (pad8 p).length), second := s.now / sec 1 } := by
    rw [← hv, State.tapped, State.modTap_eq, State.tap_setTap, if_pos rfl]
  have tap_of {t : State} (ht : t.recorder.taps = v.recorder.taps) : t.tap n = v.tap n := by rw [State.tap, ht, State.tap]
  by_cases hs : s.sheds 4 8388608
  · have vs : v.sheds 4 8388608 := sheds ▸ hs
    rw [State.admitRecord_shed admits rfl vs] at run
    obtain ⟨waits, -, counts, taps⟩ := v.shedReported_shed 4
    refine ⟨_, run, ?_, ?_, fun k => absurd hs k, fun _ => ⟨waits.trans staging, by rw [counts, shed], ?_⟩⟩
    · rw [tap_of taps, tap]
    · rw [tap_of taps, tap]
    · rw [← drops]
      exact v.shedReported_counts 4
  · have vs : ¬v.sheds 4 8388608 := sheds ▸ hs
    obtain ⟨-, -, stages, -, taps, -⟩ := State.admitRecord_stages (n := n) (p := p) admits rfl vs
    refine ⟨_, run, ?_, ?_, fun _ h0 => ?_, fun k => absurd k hs⟩
    · rw [tap_of taps, tap]
    · rw [tap_of taps, tap]
    · rw [stages (shed ▸ h0), staging, record]

/-- A TAP record beyond its tap's cap. -/
theorem execRecordAdmit_tap_beyond (h : s.recAdmits 4 = true)
    (hcap : (s.tapCap n).getD 0 * 125 < (if (s.tap n).second = s.now / sec 1 then (s.tap n).inSecond else 0) + (24 + (pad8 p).length)) :
    ∃ t, exec (.recordAdmit (.data 4 n p)) s = .next t ∧ (t.tap n).limited = min 0xFFFFFFFF ((s.tap n).limited + 1) ∧
      t.recorder.staging = s.recorder.staging ∧
      (t.reg R.rec_TAP_DROPS).toNat = min 0xFFFFFFFF ((s.reg R.rec_TAP_DROPS).toNat + 1) := by
  have kept := State.tapAdmit_beyond h hcap
  have recorder : (s.tapAdmit n p).1.recorder = (s.tapLimited n).recorder := kept.same .recorder rfl
  have taps (y : State) : (y.count R.rec_TAP_DROPS).tap n = y.tap n := rfl
  have staging : (s.tapLimited n).recorder.staging = s.recorder.staging := rfl
  refine ⟨(s.tapAdmit n p).1, rfl, ?_, (congrArg Recorder.staging recorder).trans staging, ?_⟩
  · rw [State.tap, recorder, ← State.tap, State.tapLimited, taps, State.modTap_eq, State.tap_setTap, if_pos rfl]
  · rw [State.reg_of_regs _ (kept.same .regs rfl)]
    exact State.toNat_reg_count _ _

end

/-! ## Pages (R304) -/

section
variable {s : State} {w : Wheel}

theorem State.openWheel_iff : s.openWheel = some w ↔ s.recorder.store.wheels.getLast? = some w ∧ w.seal_.isNone = true := by
  unfold State.openWheel
  split
  next v hv =>
    rw [hv, Option.some.injEq]
    split
    next h =>
      rw [Option.some.injEq]
      exact ⟨fun e => ⟨e, e ▸ h⟩, fun e => e.1⟩
    next h => exact ⟨fun e => (Option.some_ne_none _ e.symm).elim, fun e => absurd (e.1 ▸ e.2) h⟩
  next hv =>
    rw [hv]
    exact ⟨fun e => (Option.some_ne_none _ e.symm).elim, fun e => (Option.some_ne_none _ e.1.symm).elim⟩

/-- A change of the open wheel that leaves it open. -/
theorem State.openWheel_modOpen {f : Wheel → Wheel} (h : s.openWheel = some w) (hf : (f w).seal_.isNone = true) :
    (s.modOpen f).openWheel = some (f w) := by
  obtain ⟨last, opened⟩ := State.openWheel_iff.1 h
  refine State.openWheel_iff.2 ⟨?_, hf⟩
  have wheels : (s.modOpen f).recorder.store.wheels = s.recorder.store.wheels.map fun w => if w.seal_.isNone then f w else w := rfl
  rw [wheels, List.getLast?_map, last, Option.map_some, if_pos opened]

/-- The open wheel depends on the wheels kept only. -/
theorem State.openWheel_of_wheels {s t : State} (h : t.recorder.store.wheels = s.recorder.store.wheels) : t.openWheel = s.openWheel := by
  rw [State.openWheel, h, State.openWheel]

theorem State.writePages_of_less {n : Nat} (h : s.recorder.carry.length < pageBytes) : State.writePages n s = s := by
  cases n with
  | zero => rfl
  | succ n => exact if_neg fun k => Nat.not_le.2 h k.1

theorem State.writePages_of_stop {n : Nat} (h : s.mayWrite pageBytes = false) : State.writePages n s = s := by
  cases n with
  | zero => rfl
  | succ n => exact if_neg fun k => Bool.false_ne_true (h.symm.trans k.2)

/-- One page of what is laid out has been written. -/
def State.pageWritten (s : State) : State :=
  (s.writePage (s.recorder.carry.take pageBytes)).modRecorder fun r => { r with carry := r.carry.drop pageBytes, carryAt := s.now }

theorem State.writePages_succ {n : Nat} (h : pageBytes ≤ s.recorder.carry.length) (hw : s.mayWrite pageBytes = true) :
    State.writePages (n + 1) s = State.writePages n s.pageWritten := if_pos ⟨h, hw⟩

theorem State.pageWritten_keeps (s : State) : Keeps 0x400000000 s s.pageWritten :=
  State.modRecorder_keeps rfl (State.writePage_keeps rfl (.refl _ s))

theorem State.pageWritten_recorder (s : State) (h : pageBytes ≤ s.recorder.carry.length) :
    s.pageWritten.recorder.carry = s.recorder.carry.drop pageBytes ∧
    s.pageWritten.recorder.store.written = (s.recorder.store.written + pageBytes) % 2 ^ 64 ∧
    s.pageWritten.recorder.staging = s.recorder.staging := by
  have size : (s.recorder.carry.take pageBytes).length = pageBytes := by rw [List.length_take]; omega
  have written : s.pageWritten.recorder.store.written = (s.recorder.store.written + (s.recorder.carry.take pageBytes).length) % 2 ^ 64 := rfl
  exact ⟨rfl, by rw [written, size], rfl⟩

theorem State.openWheel_pageWritten (h : s.openWheel = some w) :
    s.pageWritten.openWheel = some { w with area := s.recorder.carry.take pageBytes :: w.area } := by
  have opened : (s.nandWrite (s.recorder.carry.take pageBytes).length).openWheel = some w := (State.openWheel_of_wheels rfl).trans h
  exact (State.openWheel_of_wheels rfl).trans (State.openWheel_modOpen (f := fun w => { w with area := s.recorder.carry.take pageBytes :: w.area })
    opened (State.openWheel_iff.1 h).2)

/-! ### PAGE_WRITE -/

/-- With no warning nothing is given up. -/
theorem State.abandonHead_of_no_warning {n : Nat} (h : s.recorder.warnAt = none) : State.abandonHead n s = s := by
  cases n with
  | zero => rfl
  | succ n =>
    unfold State.abandonHead
    split
    next w r rest hw _ => exact absurd (h.symm.trans hw) (Option.some_ne_none w).symm
    next => rfl

/-- A full page is laid out already. -/
theorem State.layPage_of_full {n : Nat} (h : pageBytes ≤ s.recorder.carry.length) : State.layPage n s = s := by
  cases n with
  | zero => rfl
  | succ n =>
    unfold State.layPage
    split
    next => exact if_pos (by rw [decide_eq_true h]; rfl)
    next => rfl

theorem execPageWrite_of_none (h : s.openWheel = none) : exec .pageWrite s = .next s := if_pos (by rw [h]; rfl)

theorem execPageWrite_of_full (hopen : s.openWheel = some w) (hwarn : s.recorder.warnAt = none) (hfull : pageBytes ≤ s.recorder.carry.length) :
    exec .pageWrite s = .next (State.writePages 1 s) := by
  show execPageWrite s = _
  unfold execPageWrite
  rw [if_neg (by rw [hopen]; exact Bool.false_ne_true), State.abandonHead_of_no_warning hwarn]
  dsimp only
  rw [State.layPage_of_full hfull, if_pos hfull]

/-! ### PAGE_TIMEOUT -/

theorem execPageTimeout_of_none (h : s.openWheel = none) : exec .pageTimeout s = .next s := by
  show execPageTimeout s = _
  unfold execPageTimeout
  split
  · rfl
  · exact if_pos (.inl (by rw [h]; rfl))

theorem State.oldestStaged_of_carry (h : s.recorder.carry ≠ []) : s.oldestStaged = some s.recorder.carryAt := if_pos h

theorem execPageTimeout_of_early (hcarry : s.recorder.carry ≠ []) (hdue : s.due (s.recorder.carryAt + ms 10) = false) :
    exec .pageTimeout s = .next s := by
  show execPageTimeout s = _
  unfold execPageTimeout
  rw [State.oldestStaged_of_carry hcarry]
  exact if_pos (.inr hdue)

theorem execPageTimeout_flushes (hopen : s.openWheel = some w) (hstaging : s.recorder.staging = []) (hcarry : s.recorder.carry ≠ [])
    (hdue : s.due (s.recorder.carryAt + ms 10) = true) (hpart : s.recorder.carry.length < pageBytes) :
    exec .pageTimeout s = .next s.flushPage := by
  have stays : ¬(s.openWheel.isNone = true ∨ s.due (s.recorder.carryAt + ms 10) = false) := by
    rw [hopen, hdue]
    simp
  have none : s.sealNext = false := by rw [State.sealNext, hstaging]
  show execPageTimeout s = _
  unfold execPageTimeout
  rw [State.oldestStaged_of_carry hcarry]
  dsimp only
  rw [if_neg stays, hstaging, show State.layPage [].length s = s from rfl, if_neg (Nat.not_le.2 hpart), none]
  exact if_neg Bool.false_ne_true

/-- A record's bytes in the wheel: its header and its payload, which a multiple of 8 needs no padding. -/
theorem recordBytes_length {role type source seq : Nat} {stamp : Stamp} {p : List Byte} (h : p.length % 8 = 0) :
    (recordBytes role type source stamp seq p).length = 24 + p.length := by
  have padded : pad8 p = p := by
    rw [pad8, h]
    exact List.append_nil p
  simp only [recordBytes, padded, List.length_append, leBytes_length]

/-- The page as it is completed. -/
def State.padBytes (s : State) (w : Wheel) : List Byte :=
  recordBytes (match s.im.role with | some 1 => 1 | _ => 0) 0 0 s.stamp w.records
    (List.replicate (pageBytes - s.recorder.carry.length - 24) 0)

theorem State.padBytes_length (hroom : s.recorder.carry.length + 24 ≤ pageBytes) (hmod : s.recorder.carry.length % 8 = 0) :
    (s.padBytes w).length = pageBytes - s.recorder.carry.length := by
  have bytes : pageBytes % 8 = 0 := rfl
  rw [State.padBytes, recordBytes_length (by rw [List.length_replicate]; omega), List.length_replicate]
  omega

/-- A wheel with one record more. -/
def Wheel.laidOut (w : Wheel) (n : Nat) (stamp : Stamp) : Wheel :=
  { w with records := w.records + 1, bytes := w.bytes + n, first := some (w.first.getD stamp), last := stamp }

/-- The open wheel with the record that completes its page. -/
def State.padWheel (s : State) (w : Wheel) : Wheel :=
  w.laidOut (s.padBytes w).length s.stamp

theorem State.padPage_eq (hopen : s.openWheel = some w) (hcarry : s.recorder.carry ≠ []) (hroom : s.recorder.carry.length + 24 ≤ pageBytes) :
    s.padPage = (s.modOpen fun y => y.laidOut (s.padBytes w).length s.stamp).modRecorder fun r => { r with
      carry := r.carry ++ s.padBytes w, carryAt := if r.carry.isEmpty then s.now else r.carryAt } := by
  have part : s.recorder.carry.length % pageBytes = s.recorder.carry.length := Nat.mod_eq_of_lt (by omega)
  have some : s.recorder.carry.length ≠ 0 := fun h => hcarry (List.length_eq_zero_iff.1 h)
  unfold State.padPage
  dsimp only
  rw [part, if_neg some, if_neg (by omega), State.layOut, hopen]
  rfl

theorem State.openWheel_padPage (hopen : s.openWheel = some w) (hcarry : s.recorder.carry ≠ [])
    (hroom : s.recorder.carry.length + 24 ≤ pageBytes) : s.padPage.openWheel = some (s.padWheel w) := by
  rw [State.padPage_eq hopen hcarry hroom]
  exact (State.openWheel_of_wheels rfl).trans (State.openWheel_modOpen hopen (State.openWheel_iff.1 hopen).2)

theorem State.mayWrite_of_recorder {s t : State} {n : Nat} (hw : t.recorder.warnAt = s.recorder.warnAt) (ht : t.recorder.tokens = s.recorder.tokens)
    (ha : t.recorder.tokensAt = s.recorder.tokensAt) (hnow : t.now = s.now) : t.mayWrite n = s.mayWrite n := by
  rw [State.mayWrite, State.bucket, hw, ht, ha, hnow, State.mayWrite, State.bucket]

/-- A part page is completed and written. -/
theorem State.flushPage_writes (hopen : s.openWheel = some w) (hcarry : s.recorder.carry ≠ [])
    (hroom : s.recorder.carry.length + 24 ≤ pageBytes) (hmod : s.recorder.carry.length % 8 = 0) (hwrite : s.mayWrite pageBytes = true) :
    s.flushPage.recorder.carry = [] ∧ (s.recorder.carry ++ s.padBytes w).length = pageBytes ∧
    s.flushPage.openWheel = some { s.padWheel w with area := (s.recorder.carry ++ s.padBytes w) :: w.area } ∧ Keeps 0x400000000 s s.flushPage := by
  have size : (s.recorder.carry ++ s.padBytes w).length = pageBytes := by
    rw [List.length_append, State.padBytes_length hroom hmod]
    omega
  have padding := State.padPage_eq hopen hcarry hroom
  have opened := State.openWheel_padPage hopen hcarry hroom
  have keeps : Keeps 0x400000000 s s.padPage := State.padPage_keeps rfl (.refl _ s)
  have carry : s.padPage.recorder.carry = s.recorder.carry ++ s.padBytes w := by rw [padding]; rfl
  have may : s.padPage.mayWrite pageBytes = true := by
    rw [State.mayWrite_of_recorder (s := s) (by rw [padding]; rfl) (by rw [padding]; rfl) (by rw [padding]; rfl) keeps.now, hwrite]
  have full : pageBytes ≤ s.padPage.recorder.carry.length := by rw [carry, size]
  obtain ⟨rest, -, -⟩ := s.padPage.pageWritten_recorder full
  have empty : s.padPage.pageWritten.recorder.carry = [] := by
    rw [rest, carry, List.drop_eq_nil_iff]
    exact size.le
  have flushed : s.flushPage = s.padPage.pageWritten := by
    rw [State.flushPage, if_pos hwrite, State.writePages_succ full may, State.writePages_of_less (by rw [empty]; decide)]
  rw [flushed]
  refine ⟨empty, size, ?_, keeps.trans s.padPage.pageWritten_keeps⟩
  rw [State.openWheel_pageWritten opened, carry, List.take_of_length_le size.le]
  rfl

end

/-! ## Seals (R307 to R310) -/

section
variable {s : State} {w : Wheel}

/-- A hold that is full is noted, and nothing else of the recorder changes. -/
theorem State.holdWheel_recorder (s : State) (w : Wheel) : ∃ b, (s.holdWheel w).1.recorder = { s.recorder with holdFull := b } := by
  unfold State.holdWheel
  extract_lets p
  split
  · exact ⟨_, rfl⟩
  · split
    · split
      · exact ⟨_, rfl⟩
      · refine ⟨true, ?_⟩
        dsimp only
        rw [State.recLog, State.log_recorder, State.event_recorder]
        rfl
    · exact ⟨_, rfl⟩

/-- What a seal of the open wheel leaves. -/
structure State.Sealed (s t : State) (cause : Nat) : Prop where
  cause   : t.recorder.lastCause = cause
  carry   : t.recorder.carry = []
  staging : t.recorder.staging = s.recorder.staging
  state   : t.recorder.state = s.recorder.state
  closed  : t.recorder.closedLedger = s.recorder.closedLedger
  counts  : (t.reg R.rec_SEALS).toNat = min 0xFFFFFFFF ((s.reg R.rec_SEALS).toNat + 1)
  keeps   : Keeps 0x4c00000005 s t
  logs    : s.running = true → s.Logs t F.REC_SEALED

/-- The seal block as it is written: the wheel is sealed, with nothing laid out, and the seal is yet to be counted. -/
structure State.SealWritten (y z : State) (cause : Nat) : Prop where
  keeps   : Keeps 0x400000000 y z
  cause   : z.recorder.lastCause = cause
  carry   : z.recorder.carry = []
  staging : z.recorder.staging = y.recorder.staging
  state   : z.recorder.state = y.recorder.state
  closed  : z.recorder.closedLedger = y.recorder.closedLedger

/-- What of the recorder a write to NAND leaves. -/
def Recorder.lasting (r : Recorder) : List Staged × RecState × Bool := (r.staging, r.state, r.closedLedger)

theorem State.nandWrite_lasting (s : State) (n : Nat) : (s.nandWrite n).recorder.lasting = s.recorder.lasting := by
  unfold State.nandWrite
  dsimp only
  generalize s.recorder.rateNow = rate
  obtain ⟨a, b, c⟩ := rate
  rfl

theorem State.sealNoted_lasting (s : State) (cause : Nat) :
    (s.modRecorder fun r => { r with lastCause := cause, carry := [] }).recorder.lasting = s.recorder.lasting := rfl

theorem State.sealOpen_writes (h : s.openWheel = some w) (cause abandoned : Nat) : ∃ z data, (s.holdWheel w).1.SealWritten z cause ∧
    s.sealOpen cause abandoned = ((z.count R.rec_SEALS).event R.rec_EVENTS 1).recLog F.REC_SEALED data := by
  unfold State.sealOpen
  rw [h]
  dsimp -zeta only
  generalize s.holdWheel w = q
  obtain ⟨y, held⟩ := q
  dsimp -zeta only
  extract_lets due x digested sealed marked written
  have keeps : Keeps 0x400000000 y written :=
    State.modRecorder_keeps rfl <| State.nandWrite_keeps rfl <|
      Keeps.ite (State.modStore_keeps rfl (State.modOpen_keeps rfl (.refl _ y))) (State.modOpen_keeps rfl (.refl _ y))
  have marks : marked.recorder.lasting = y.recorder.lasting := by
    unfold marked
    split <;> rfl
  have lasting : written.recorder.lasting = y.recorder.lasting :=
    (State.sealNoted_lasting _ cause).trans ((State.nandWrite_lasting marked sealBytes).trans marks)
  simp only [Recorder.lasting, Prod.mk.injEq] at lasting
  obtain ⟨staging, state, closed⟩ := lasting
  exact ⟨written, _, ⟨keeps, rfl, rfl, staging, state, closed⟩, rfl⟩

theorem State.sealOpen_sealed (h : s.openWheel = some w) (cause abandoned : Nat) : s.Sealed (s.sealOpen cause abandoned) cause := by
  obtain ⟨z, data, written, sealed⟩ := State.sealOpen_writes h cause abandoned
  have hheld := s.holdWheel_reports w
  obtain ⟨b, hrec⟩ := s.holdWheel_recorder w
  have kheld : Keeps 0x4c00000005 s (s.holdWheel w).1 := State.holdWheel_keeps rfl (.refl _ s)
  have recorder : (s.sealOpen cause abandoned).recorder = z.recorder := by
    rw [sealed, State.recLog, State.log_recorder, State.event_recorder, State.count_recorder]
  have counting : Keeps 0x4c00000005 s ((z.count R.rec_SEALS).event R.rec_EVENTS 1) :=
    State.event_keeps rfl (State.count_keeps rfl (kheld.trans (written.keeps.widen rfl)))
  refine ⟨?_, ?_, ?_, ?_, ?_, ?_, State.sealOpen_keeps rfl (.refl _ s), fun hrun => ?_⟩
  · rw [recorder, written.cause]
  · rw [recorder, written.carry]
  · rw [recorder, written.staging, hrec]
  · rw [recorder, written.state, hrec]
  · rw [recorder, written.closed, hrec]
  · have before : z.reg R.rec_SEALS = s.reg R.rec_SEALS :=
      (State.reg_of_regs _ (written.keeps.same .regs rfl)).trans (hheld.regs _ (by decide) (by decide))
    have logged (y : State) : (y.recLog F.REC_SEALED data).reg R.rec_SEALS = y.reg R.rec_SEALS := State.reg_of_regs _ (State.log_regs _ _ _ _)
    rw [sealed, logged, State.reg_event _ _ _ _ (by decide), if_neg (by decide), State.toNat_reg_count, before]
  · rw [sealed]
    exact (State.log_logsOne (counting.running rfl hrun) _ _ _).logs.after counting rfl

/-! ### What is laid out after a seal -/

/-- The work between seals: the last cause stays, and of the registers only EVENTS and SATURATED may change. -/
structure State.BetweenSeals (s t : State) : Prop where
  cause   : t.recorder.lastCause = s.recorder.lastCause
  reports : s.Reports t
  keeps   : Keeps 0x4c00000005 s t

theorem State.BetweenSeals.refl (s : State) : s.BetweenSeals s := ⟨rfl, .refl s, .refl _ s⟩

theorem State.BetweenSeals.trans {t u : State} (h : s.BetweenSeals t) (k : t.BetweenSeals u) : s.BetweenSeals u :=
  ⟨k.cause.trans h.cause, h.reports.trans k.reports, h.keeps.trans k.keeps⟩

/-- A change of the recorder alone. -/
theorem State.BetweenSeals.of_keeps {t : State} (h : Keeps 0x400000000 s t) (hc : t.recorder.lastCause = s.recorder.lastCause) : s.BetweenSeals t :=
  ⟨hc, h.reports rfl rfl, h.widen rfl⟩

theorem State.wear_recorder (s : State) (slot : Nat) : ∃ cycles logged, (s.wear slot).recorder =
    { s.recorder with store := { s.recorder.store with cycles := cycles, wearLogged := logged } } := by
  unfold State.wear
  dsimp only
  refine ⟨s.recorder.store.cycles.put (fun _ => 0) slot (s.recorder.store.cycles.get (fun _ => 0) slot + 1), ?_⟩
  split
  · refine ⟨true, ?_⟩
    rw [State.recLog, State.log_recorder, State.event_recorder]
    rfl
  · exact ⟨s.recorder.store.wearLogged, rfl⟩

/-- The next wheel opens, when it has a slot, with one record staged before the others. -/
theorem State.openNext_opens (s : State) : s.BetweenSeals s.openNext ∧ s.openNext.recorder.carry = s.recorder.carry ∧
    (s.openNext.recorder.staging = s.recorder.staging ∨ ∃ r v, r.seal_ = none ∧ r.size = 48 ∧ v.bytes = 0 ∧
      s.openNext.openWheel = some v ∧ s.openNext.recorder.staging = r :: s.recorder.staging) := by
  have keeps : Keeps 0x4c00000005 s s.openNext := State.openNext_keeps rfl (.refl _ s)
  have reports := s.openNext_reports
  unfold State.openNext at keeps reports ⊢
  split
  next => exact ⟨.refl s, rfl, .inl rfl⟩
  next slot gone hnext =>
    rw [hnext] at keeps reports
    extract_lets n wheel opened stamp rec_
    obtain ⟨cycles, logged, recorder⟩ := (opened.modRecorder fun r => { r with staging := rec_ :: r.staging }).wear_recorder slot
    refine ⟨⟨?_, reports, keeps⟩, ?_, .inr ⟨rec_, wheel, rfl, ?_, rfl, ?_, ?_⟩⟩
    · rw [recorder]
      rfl
    · rw [recorder]
      rfl
    · simp [Staged.size, rec_, pad8]
    · refine State.openWheel_iff.2 ⟨?_, rfl⟩
      rw [recorder]
      exact List.getLast?_concat
    · rw [recorder]
      rfl

theorem State.writePages_between (n : Nat) (s : State) : s.BetweenSeals (State.writePages n s) ∧
    (State.writePages n s).recorder.staging = s.recorder.staging := by
  induction n generalizing s with
  | zero => exact ⟨.refl s, rfl⟩
  | succ n ih =>
    unfold State.writePages
    split
    next h =>
      obtain ⟨kept, staging⟩ := ih s.pageWritten
      exact ⟨(State.BetweenSeals.of_keeps s.pageWritten_keeps rfl).trans kept, staging⟩
    next => exact ⟨.refl s, rfl⟩

theorem State.layOut_between (s : State) (type source : Nat) (stamp : Stamp) (payload : List Byte) (at_ : Nat) :
    s.BetweenSeals (s.layOut type source stamp payload at_) ∧ (s.layOut type source stamp payload at_).recorder.staging = s.recorder.staging := by
  have keeps : Keeps 0x400000000 s (s.layOut type source stamp payload at_) := State.layOut_keeps rfl (.refl _ s)
  unfold State.layOut at keeps ⊢
  split
  next => exact ⟨.refl s, rfl⟩
  next w hw =>
    rw [hw] at keeps
    exact ⟨.of_keeps keeps rfl, rfl⟩

/-- The one record of a fresh wheel is laid out, and no seal follows. -/
theorem State.drain_fresh {r : Staged} (hs : s.recorder.staging = [r]) (hr : r.seal_ = none) (hfull : s.wheelFull r.size = false)
    (hcarry : s.recorder.carry = []) (n : Nat) : s.BetweenSeals (State.drain (n + 2) s) := by
  have staged : s.drainStep = State.writePages (((s.modRecorder fun q => { q with staging := [] }).layOut r.type r.source r.stamp r.payload
      r.at_).recorder.carry.length / pageBytes + 1) ((s.modRecorder fun q => { q with staging := [] }).layOut r.type r.source r.stamp r.payload r.at_) := by
    unfold State.drainStep
    rw [hs]
    dsimp -zeta only
    rw [hr]
    dsimp -zeta only
    extract_lets full padded paged laid
    have open_ : full = false := hfull
    rw [open_]
    exact if_neg Bool.false_ne_true
  generalize hu : s.modRecorder (fun q => { q with staging := [] }) = u at staged
  have taken : s.BetweenSeals u := hu ▸ .of_keeps (State.modRecorder_keeps rfl (.refl _ s)) rfl
  have empty : u.recorder.staging = [] := by rw [← hu]; rfl
  obtain ⟨laid, still⟩ := u.layOut_between r.type r.source r.stamp r.payload r.at_
  generalize u.layOut r.type r.source r.stamp r.payload r.at_ = v at staged laid still
  obtain ⟨paged, left⟩ := State.writePages_between (v.recorder.carry.length / pageBytes + 1) v
  have ends : s.drainStep.recorder.staging = [] := by rw [staged, left, still, empty]
  have steps : State.drain (n + 2) s = State.drain (n + 1) s.drainStep := by
    refine if_neg ?_
    rw [hs, hcarry]
    simp [pageBytes]
  have stops : State.drain (n + 1) s.drainStep = s.drainStep := if_pos (by rw [ends]; rfl)
  rw [steps, stops, staged]
  exact (taken.trans laid).trans paged

/-! ### A seal that is asked for -/

/-- What a seal has done for the one who asked: it is the last cause, counted, and logged. -/
structure State.SealDone (s t : State) (cause : Nat) : Prop where
  cause  : t.recorder.lastCause = cause
  counts : (t.reg R.rec_SEALS).toNat = min 0xFFFFFFFF ((s.reg R.rec_SEALS).toNat + 1)
  logs   : s.running = true → s.Logs t F.REC_SEALED

theorem State.Sealed.done {cause : Nat} {t u : State} (h : s.Sealed t cause) (k : t.BetweenSeals u) : s.SealDone u cause :=
  ⟨k.cause.trans h.cause, by rw [k.reports.regs _ (by decide) (by decide), h.counts], fun hrun => (h.logs hrun).keep k.keeps rfl⟩

/-- A seal mark is staged. -/
def State.marked (s : State) (cause : Nat) : State :=
  s.modRecorder fun r => { r with staging := r.staging ++ [{ type := 0, at_ := s.now, stamp := s.stamp, seal_ := some cause }] }

theorem State.marked_staging (h : s.recorder.staging = []) (cause : Nat) :
    (s.marked cause).recorder.staging = [{ type := 0, at_ := s.now, stamp := s.stamp, seal_ := some cause }] :=
  congrArg (· ++ _) h

theorem State.padPage_of_nothing (h : s.recorder.carry = []) : s.padPage = s := if_pos (by rw [h]; rfl)

theorem State.drainStep_marked {cause : Nat} (hstaging : s.recorder.staging = []) (hcarry : s.recorder.carry = []) (hmay : s.mayWrite sealBytes = true) :
    (s.marked cause).drainStep = (((s.marked cause).modRecorder fun q => { q with staging := [] }).sealOpen cause 0).openNext := by
  have empty : (s.marked cause).recorder.carry = [] := hcarry
  have may : (s.marked cause).mayWrite sealBytes = true := hmay
  have staged := State.marked_staging hstaging cause
  generalize s.marked cause = u at empty may staged
  unfold State.drainStep
  rw [staged]
  dsimp only
  rw [State.padPage_of_nothing empty, State.writePages_of_less (by rw [empty]; decide), if_pos ⟨by rw [empty]; rfl, may⟩]

/-- A wheel that has just opened has room for its first record. -/
theorem State.wheelFull_of_fresh {v : Wheel} (h : s.openWheel = some v) (hb : v.bytes = 0) : s.wheelFull 48 = false := by
  rw [State.wheelFull, h]
  dsimp only
  rw [hb]
  decide

theorem State.sealWheel_seals (hopen : s.openWheel = some w) (hstaging : s.recorder.staging = []) (hcarry : s.recorder.carry = [])
    (hmay : s.mayWrite sealBytes = true) (cause : Nat) : s.SealDone (s.sealWheel cause) cause := by
  have asked : s.sealWheel cause = State.drain 5 (s.marked cause).drainStep := by
    unfold State.sealWheel
    rw [hopen]
    show State.drain (2 * (s.marked cause).recorder.staging.length + 4) (s.marked cause) = _
    have carry : (s.marked cause).recorder.carry = [] := hcarry
    rw [State.marked_staging hstaging]
    refine if_neg ?_
    rw [State.marked_staging hstaging, carry]
    simp [pageBytes]
  rw [asked, State.drainStep_marked hstaging hcarry hmay]
  generalize hv : (s.marked cause).modRecorder (fun q => { q with staging := [] }) = v
  have opened : v.openWheel = some w := by rw [← hv]; exact (State.openWheel_of_wheels rfl).trans hopen
  have before : v.recorder.staging = [] ∧ v.regs = s.regs ∧ v.ledger = s.ledger ∧ v.running = s.running := by
    rw [← hv]
    exact ⟨rfl, rfl, rfl, rfl⟩
  obtain ⟨unstaged, regs, ledger, running⟩ := before
  have sealed := State.sealOpen_sealed opened cause 0
  obtain ⟨opens, carry, staging⟩ := (v.sealOpen cause 0).openNext_opens
  have drained : v.SealDone (State.drain 5 (v.sealOpen cause 0).openNext) cause := by
    refine sealed.done ?_
    rcases staging with none | ⟨r, f, mark, size, bytes, fresh, one⟩
    · have rest : State.drain 5 (v.sealOpen cause 0).openNext = (v.sealOpen cause 0).openNext :=
        if_pos (by rw [none, sealed.staging, unstaged]; rfl)
      rw [rest]
      exact opens
    · refine opens.trans (State.drain_fresh ?_ mark ?_ (carry.trans sealed.carry) 3)
      · rw [one, sealed.staging, unstaged]
      · rw [size]
        exact State.wheelFull_of_fresh fresh bytes
  obtain ⟨last, counts, logs⟩ := drained
  exact ⟨last, by rw [counts, State.reg_of_regs _ regs], fun hrun => (logs (running.trans hrun)).of_ledger ledger.symm⟩

theorem execSealNow_seals (hrun : s.running = true) (hopen : s.openWheel = some w) (hstaging : s.recorder.staging = [])
    (hcarry : s.recorder.carry = []) (hmay : s.mayWrite sealBytes = true) (g : Agent) :
    ∃ t, exec (.sealNow g) s = .next t ∧ s.SealDone t 4 :=
  ⟨_, if_pos hrun, State.sealWheel_seals hopen hstaging hcarry hmay 4⟩

theorem execSealNow_of_reset (h : s.running = false) (g : Agent) : exec (.sealNow g) s = .next s :=
  if_neg (by rw [h]; exact Bool.false_ne_true)

/-! ### SAFE_SEAL_TIMEOUT -/

theorem execSafeSealTimeout_of_open (h : s.openWheel = some w) : exec .safeSealTimeout s =
    .next (if s.ledger.safe ∧ s.due (w.openedAt + ms s.safeSealMs) ∧ (s.recorder.staging.all fun r => r.seal_.isNone)
      then s.sealWheel sealSafe else s) := by
  show execSafeSealTimeout s = _
  unfold execSafeSealTimeout
  rw [h]

theorem execSafeSealTimeout_of_none (h : s.openWheel = none) : exec .safeSealTimeout s = .next s := by
  show execSafeSealTimeout s = _
  unfold execSafeSealTimeout
  rw [h]

theorem execSafeSealTimeout_of_early (hopen : s.openWheel = some w)
    (h : s.ledger.safe = false ∨ s.due (w.openedAt + ms s.safeSealMs) = false) : exec .safeSealTimeout s = .next s := by
  rw [execSafeSealTimeout_of_open hopen, if_neg]
  rintro ⟨safe, due, -⟩
  rcases h with h | h
  · exact Bool.false_ne_true (h.symm.trans safe)
  · exact Bool.false_ne_true (h.symm.trans due)

theorem execSafeSealTimeout_seals (hsafe : s.ledger.safe = true) (hopen : s.openWheel = some w)
    (hdue : s.due (w.openedAt + ms s.safeSealMs) = true) (hstaging : s.recorder.staging = []) (hcarry : s.recorder.carry = [])
    (hmay : s.mayWrite sealBytes = true) : ∃ t, exec .safeSealTimeout s = .next t ∧ s.SealDone t 3 := by
  refine ⟨_, ?_, State.sealWheel_seals hopen hstaging hcarry hmay 3⟩
  rw [execSafeSealTimeout_of_open hopen, if_pos ⟨hsafe, hdue, by rw [hstaging]; rfl⟩]
  rfl

/-! ### The supply warning (R309) -/

theorem execRecWarnLedgerClose_of_none (h : s.recorder.warnAt = none) : exec .recWarnLedgerClose s = .next s := by
  show execRecWarnLedgerClose s = _
  unfold execRecWarnLedgerClose
  rw [h]

theorem execRecWarnLedgerClose_of_warning {b : Nat} (h : s.recorder.warnAt = some b) : exec .recWarnLedgerClose s =
    .next (if s.due (b + us 1000) then s.modRecorder fun r => { r with closedLedger := true } else s) := by
  show execRecWarnLedgerClose s = _
  unfold execRecWarnLedgerClose
  rw [h]

theorem execRecWarnStop_of_no_warning (h : s.recorder.warnAt = none) : exec .recWarnStop s = .next s := by
  show execRecWarnStop s = _
  unfold execRecWarnStop
  rw [h]

theorem execRecWarnStop_of_closed (h : s.openWheel = none) : exec .recWarnStop s = .next s := by
  show execRecWarnStop s = _
  unfold execRecWarnStop
  rw [h]
  split
  next heq => exact absurd heq.symm (Option.some_ne_none _)
  next => rfl

theorem execRecWarnStop_of_early {b : Nat} (hwarn : s.recorder.warnAt = some b)
    (h : s.due (b + us 1200) = false ∨ s.recorder.state = .warnSealed) : exec .recWarnStop s = .next s := by
  show execRecWarnStop s = _
  unfold execRecWarnStop
  split
  next c _ hc _ =>
    obtain rfl : c = b := Option.some.inj (hc.symm.trans hwarn)
    exact if_pos h
  next => rfl

/-- Records that are not in NAND when writing stops. -/
def State.warnLost (s : State) (w : Wheel) : Nat :=
  (s.recorder.staging.filter fun r => r.seal_.isNone).length + (w.records - w.cut.records)

/-- What is not in NAND is given up. -/
def State.warnStopped (s : State) (w : Wheel) : State :=
  ((s.modOpen fun _ => w.cut).modRecorder fun r => { r with
    staging := [], carry := [], abandoned := r.abandoned + s.warnLost w, warnAbandoned := s.recorder.warnAbandoned + s.warnLost w,
    closedLedger := true, state := .warnSealed }).countBy R.rec_ABANDONED (s.warnLost w)

theorem execRecWarnStop_seals {b : Nat} (hwarn : s.recorder.warnAt = some b) (hopen : s.openWheel = some w)
    (hdue : s.due (b + us 1200) = true) (hstate : s.recorder.state ≠ .warnSealed) : ∃ n, exec .recWarnStop s =
      .next (((s.warnStopped w).sealOpen sealWarning n).recLog F.REC_WARN_SEAL (leBytes 8 w.number ++ leBytes 4 n)) := by
  refine ⟨s.recorder.warnAbandoned + s.warnLost w, ?_⟩
  show execRecWarnStop s = _
  unfold execRecWarnStop
  rw [hwarn, hopen]
  dsimp only
  rw [if_neg (by rw [hdue]; exact fun h => h.elim (fun h => Bool.false_ne_true h.symm) hstate)]
  rfl

theorem State.openWheel_warnStopped (h : s.openWheel = some w) : (s.warnStopped w).openWheel = some w.cut :=
  (State.openWheel_of_wheels rfl).trans (State.openWheel_modOpen (f := fun _ => w.cut) h (State.openWheel_iff.1 h).2)

theorem State.warnStopped_reg (s : State) (w : Wheel) : (s.warnStopped w).reg R.rec_SEALS = s.reg R.rec_SEALS := by
  rw [State.warnStopped, State.reg_countBy, if_neg (by decide)]
  rfl

end

/-! ## The statement -/

theorem recordAdmitOfLedger (s : State) : (s.recAdmits 1 = false ∨ s.ledger.mirror = [] → exec (.recordAdmit .ledger) s = .next s) := by
  intro h
  show execRecordAdmit .ledger s = _
  unfold execRecordAdmit
  dsimp only
  split
  next => rfl
  next admits =>
    rcases h with h | h
    · exact absurd (by rw [h]) admits
    · rw [h]

/-- Settles O44: records are admitted or shed by the class's limit, a page is written from the bucket, and a seal with nothing
staged or laid out ends the wheel; what the next wheel lays out adds no seal. -/
theorem recordsAreAdmittedWrittenAndSealed : Obligations.RecordsAreAdmittedWrittenAndSealed := by
  unfold Obligations.RecordsAreAdmittedWrittenAndSealed
  refine ⟨fun s => ⟨recordAdmitOfLedger s, ?ledger, fun type n p => ?data⟩,
    fun s h => ⟨execPageWrite_of_none h, execPageTimeout_of_none h, execSafeSealTimeout_of_none h, execRecWarnStop_of_closed h⟩,
    fun w s hopen hwarn hfull => ?page, fun s hcarry hdue => execPageTimeout_of_early hcarry hdue, ?timeout,
    fun w s hopen hstaging hcarry hmay => ?seals, fun g s hrun => execSealNow_of_reset hrun g,
    fun w s hopen h => execSafeSealTimeout_of_early hopen h,
    fun s h => ⟨execRecWarnLedgerClose_of_none h, execRecWarnStop_of_no_warning h⟩, fun b s hwarn => ?warning⟩
  case ledger =>
    intro e r h hm
    exact ⟨_, execRecordAdmit_ledger h hm, rfl, rfl, rfl⟩
  case data =>
    intro rec_ sheds
    refine ⟨execRecordAdmit_of_none, ?mask, ?classes, ?tap⟩
    case mask =>
      rintro rfl h
      refine ⟨_, execRecordAdmit_data (by decide) (by decide), ?_, ?_⟩
      · rw [State.admitRecord_unlimited h rfl]
        rfl
      · rw [State.admitRecord_unlimited h rfl]
        rfl
    case classes =>
      intro l kind h hl
      have run : exec (.recordAdmit (.data type n p)) s = .next (s.admitRecord type n p) :=
        execRecordAdmit_data (by omega) (by omega)
      refine ⟨fun within => ?_, fun beyond => ?_⟩
      · obtain ⟨off, ended, alone, behind, -, keeps⟩ := State.admitRecord_stages (n := n) (p := p) h hl within
        exact ⟨_, run, off, ended, alone, behind, keeps.recorder_eq⟩
      · rw [State.admitRecord_shed h hl beyond] at run
        obtain ⟨staging, on, count, -⟩ := s.shedReported_shed type
        exact ⟨_, run, staging, on, count, s.shedReported_counts type⟩
    case tap =>
      rintro used size rfl h
      exact ⟨fun hcap => execRecordAdmit_tap_within h hcap, fun hcap => execRecordAdmit_tap_beyond h hcap⟩
  case page =>
    have run := execPageWrite_of_full hopen hwarn hfull
    refine ⟨fun hwait => ?_, fun hmay => ?_⟩
    · rw [run, State.writePages_of_stop hwait]
    · have one : State.writePages 1 s = s.pageWritten := State.writePages_succ hfull hmay
      obtain ⟨carry, written, staging⟩ := s.pageWritten_recorder hfull
      exact ⟨_, run.trans (by rw [one]), carry, State.openWheel_pageWritten hopen, written, staging, s.pageWritten_keeps.recorder_eq⟩
  case timeout =>
    intro w s hopen hstaging hcarry hdue hroom hmod hmay
    obtain ⟨carry, length, opened, keeps⟩ := State.flushPage_writes hopen hcarry hroom hmod hmay
    refine ⟨_, s.recorder.carry ++ s.padBytes w, execPageTimeout_flushes hopen hstaging hcarry hdue (by omega), carry, length,
      List.take_left, ?_, keeps.recorder_eq⟩
    rw [opened, State.padWheel, State.padBytes_length hroom hmod]
    rfl
  case seals =>
    refine ⟨fun hrun g => ?_, fun hsafe hdue => ?_⟩
    · obtain ⟨t, run, last, counts, logs⟩ := execSealNow_seals hrun hopen hstaging hcarry hmay g
      exact ⟨t, run, last, counts, logs⟩
    · obtain ⟨t, run, last, counts, logs⟩ := execSafeSealTimeout_seals hsafe hopen hdue hstaging hcarry hmay
      exact ⟨t, run, last, counts, logs⟩
  case warning =>
    have close := execRecWarnLedgerClose_of_warning hwarn
    refine ⟨fun early => ?_, fun h => execRecWarnStop_of_early hwarn h, fun due => ?_, fun w hopen hdue hstate => ?_⟩
    · rw [close, if_neg (by rw [early]; exact Bool.false_ne_true)]
    · rw [close, if_pos due]
      rfl
    · obtain ⟨n, run⟩ := execRecWarnStop_seals hwarn hopen hdue hstate
      have sealed := State.sealOpen_sealed (State.openWheel_warnStopped hopen) sealWarning n
      have stopped : Keeps 0x400000001 s (s.warnStopped w) :=
        State.countBy_keeps rfl (State.modRecorder_keeps rfl (State.modOpen_keeps rfl (.refl _ s)))
      have before : (s.warnStopped w).recorder.staging = [] ∧ (s.warnStopped w).recorder.state = .warnSealed ∧
          (s.warnStopped w).recorder.closedLedger = true := ⟨rfl, rfl, rfl⟩
      have counted := s.warnStopped_reg w
      generalize s.warnStopped w = v at *
      obtain ⟨staging, state, closed⟩ := before
      have recorder (data : List Byte) : ((v.sealOpen sealWarning n).recLog F.REC_WARN_SEAL data).recorder = (v.sealOpen sealWarning n).recorder :=
        State.log_recorder _ _ _ _
      have regs (data : List Byte) : ((v.sealOpen sealWarning n).recLog F.REC_WARN_SEAL data).regs = (v.sealOpen sealWarning n).regs :=
        State.log_regs _ _ _ _
      refine ⟨_, run, ?_, ?_, ?_, ?_, ?_, fun hrun => ?_, ?_⟩
      · rw [recorder, sealed.state, state]
      · rw [recorder, sealed.staging, staging]
      · rw [recorder, sealed.carry]
      · rw [recorder, sealed.cause]
        rfl
      · rw [recorder, sealed.closed, closed]
      · have running := sealed.keeps.running rfl (stopped.running rfl hrun)
        exact ((State.log_logsOne running _ _ _).logs.after sealed.keeps rfl).after stopped rfl
      · rw [State.reg_of_regs _ (regs _), sealed.counts, counted]

end Sys2Proof.Machine
end

section
/-!
PROOF. What a reset of D0 to D7 keeps and clears (R403, R404), and what the hull controller writes of itself.
-/

namespace Sys2Proof.Machine

/-! ## Resets -/

/-- A reset has left phase 1 with the rails removed, memory and configuration empty, and what is stored as it was. -/
def State.Cleared (s t : State) (k : ResetKind) : Prop :=
  t.startup.phase = 1 ∧ t.startup.kind = k ∧ t.running = false ∧ t.hull.rails = 0 ∧ t.mem = [] ∧ t.config = [] ∧
  t.recorder.store = s.recorder.store ∧ t.mdp.slots = s.mdp.slots ∧ t.im.lineage = s.im.lineage ∧ t.pending = s.pending ∧
  t.clock = { now := s.now }

/-- What a reset keeps is as it was. -/
structure State.Lasts (s t : State) : Prop where
  store   : t.recorder.store = s.recorder.store
  slots   : t.mdp.slots = s.mdp.slots
  lineage : t.im.lineage = s.im.lineage
  pending : t.pending = s.pending
  now     : t.now = s.now
  startup : t.startup = s.startup

section
variable {s t u : State}

theorem State.Lasts.trans (h : s.Lasts t) (k : t.Lasts u) : s.Lasts u :=
  ⟨k.store.trans h.store, k.slots.trans h.slots, k.lineage.trans h.lineage, k.pending.trans h.pending, k.now.trans h.now,
   k.startup.trans h.startup⟩

/-- A change of registers, of the hull controller, or of both. -/
theorem Keeps.lasts (h : Keeps 0x2000000001 s t) : s.Lasts t where
  store := congrArg Recorder.store (h.same .recorder rfl)
  slots := congrArg Mdp.slots (h.same .mdp rfl)
  lineage := congrArg ImageManager.lineage (h.same .im rfl)
  pending := h.pending
  now := h.now
  startup := h.same .startup rfl

theorem State.interruptBootWrite_lasts (s : State) : s.Lasts s.interruptBootWrite := by
  unfold State.interruptBootWrite
  split
  · exact ⟨rfl, rfl, rfl, rfl, rfl, rfl⟩
  · exact ⟨rfl, rfl, rfl, rfl, rfl, rfl⟩

theorem State.interruptBootWrite_hull (s : State) : s.interruptBootWrite.hull = s.hull :=
  (State.interruptBootWrite_keeps rfl (.refl 0x1000 s)).same .hull rfl

theorem State.Lasts.reset (h : s.Lasts t) (k : ResetKind) : s.Cleared (t.resetDevice k 0) k :=
  ⟨rfl, rfl, rfl, rfl, rfl, rfl, h.store, h.slots, h.lineage, h.pending, congrArg (fun n => ({ now := n } : Clock)) h.now⟩

/-- A reset counts itself. -/
theorem State.Lasts.reset_count (h : s.Lasts t) (k : ResetKind) :
    (t.resetDevice k 0).startup.count = min 0xFFFFFFFF (s.startup.count + 1) := congrArg (fun x : Startup => min 0xFFFFFFFF (x.count + 1)) h.startup

theorem State.Cleared.modHull {k : ResetKind} {f : Hull → Hull} (h : s.Cleared t k) (hf : (f t.hull).rails = 0) : s.Cleared (t.modHull f) k := by
  obtain ⟨phase, kind, running, -, rest⟩ := h
  exact ⟨phase, kind, running, hf, rest⟩

theorem State.resetDevice_hull (s : State) (k : ResetKind) (rails : Nat) : (s.resetDevice k rails).hull =
    { s.hull with
      rails := rails, starting := none, sagHeld := false, sagReleased := none, linkOk := false, stale := false, temps := [], sampled := false,
      tjMax := 0, tjDomain := 0, warn := false, crit := false, keepAt := none, offDue := false,
      state := if s.staysOff k then .off else .run,
      wakeAt := if s.hull.offDue && s.staysOff k && s.hull.wakeS != 0 then some (s.now + sec s.hull.wakeS) else s.hull.wakeAt } := rfl

end

/-- What one step of a fold reaches for its element, and no other step loses, holds of every element at the end. -/
theorem State.foldl_reaches {β : Type} {f : State → β → State} {P : β → State → Prop} (hit : ∀ y b, P b (f y b))
    (stay : ∀ y b c, P b y → P b (f y c)) {l : List β} {b : β} (hb : b ∈ l) (s : State) : P b (l.foldl f s) := by
  induction l generalizing s with
  | nil => cases hb
  | cons c l ih =>
    rcases List.mem_cons.1 hb with rfl | hb
    · exact List.foldlRecOn (motive := P b) l f (hit s b) fun y hy c _ => stay y b c hy
    · exact ih hb _

/-! ## The hull log -/

section
variable (s : State) (c : FaultClass) (data : List Byte) (micros : Nat)

/-- The entry is the newest of the log. -/
theorem State.hullLog_last : (s.hullLog c data micros).hull.log.getLast? = some ⟨c.code, c.sev, data ++ leBytes 4 s.hullUptime, micros⟩ := by
  unfold State.hullLog State.modHull
  dsimp only
  split
  · exact List.getLast?_concat
  · exact List.getLast?_concat

/-- Nothing else of the hull controller changes. -/
theorem State.hullLog_hull : ∃ log lost, (s.hullLog c data micros).hull = { s.hull with log := log, logLost := lost } := by
  unfold State.hullLog State.modHull
  dsimp only
  split
  · exact ⟨_, _, rfl⟩
  · exact ⟨_, _, rfl⟩

theorem State.hullLog_lasts : s.Lasts (s.hullLog c data micros) :=
  Keeps.lasts (State.hullLog_keeps rfl (.refl 0x2000000001 s))

end

/-! ## The rails -/

theorem State.startRails_of_may {s : State} (h : s.mayStartRails = true) :
    s.startRails = s.modHull fun h => { h with starting := some s.now, retryAt := none } := if_pos h

theorem State.startRails_of_kept {s : State} (h : s.mayStartRails = false) : s.startRails = s :=
  if_neg (by rw [h]; exact Bool.false_ne_true)

theorem Keeps.hull_eq {s t : State} (h : Keeps 0x2000000000 s t) : t = { s with hull := t.hull } := by
  refine h.eq_of_agree rfl (fun p hp => ?_) (fun p hp => ?_)
  · cases p
    case hull => cases hp
    all_goals rfl
  · cases p
    case hull => rfl
    all_goals cases hp

theorem State.startRails_eq (s : State) : s.startRails = { s with hull := s.startRails.hull } :=
  Keeps.hull_eq (State.startRails_keeps rfl (.refl _ s))

end Sys2Proof.Machine
end

section
/-!
PROOF. The feeds, the rails and the temperatures of the hull controller (R360 to R366, R375, R376).
-/

namespace Sys2Proof.Machine

/-! ## The feeds (R360, R361) -/

theorem Keeps.hullNoted_eq {s t : State} (h : Keeps 0x6800000005 s t) :
    t = { s with regs := t.regs, setNow := t.setNow, cores := t.cores, ledger := t.ledger, hull := t.hull } := by
  refine h.eq_of_agree rfl (fun p hp => ?_) (fun p hp => ?_)
  · cases p
    case regs | setNow | cores | ledger | hull => cases hp
    all_goals rfl
  · cases p
    case regs | setNow | cores | ledger | hull => rfl
    all_goals cases hp

section
variable {s t u : State} {b : Bool} {mv : Nat}

theorem State.feed_modFeed (s : State) (b : Bool) (f : Feed → Feed) : (s.modFeed b f).feed b = f (s.feed b) :=
  match b with
  | true => rfl
  | false => rfl

theorem State.otherFeed_modFeed (s : State) (b : Bool) (f : Feed → Feed) : (s.modFeed b f).feed (!b) = s.feed (!b) :=
  match b with
  | true => rfl
  | false => rfl

theorem State.feed_of_hull (h : t.hull = s.hull) (b : Bool) : t.feed b = s.feed b := by
  rw [State.feed, h, State.feed]

/-- A feed has taken a value, the other one is as it was, and what else has changed is what the hull side notes. -/
structure State.FeedSet (s t : State) (b : Bool) (f : Feed) : Prop where
  feed  : t.feed b = f
  other : t.feed (!b) = s.feed (!b)
  keeps : Keeps 0x6800000005 s t

theorem State.modFeed_sets (s : State) (b : Bool) (f : Feed → Feed) : s.FeedSet (s.modFeed b f) b (f (s.feed b)) :=
  ⟨s.feed_modFeed b f, s.otherFeed_modFeed b f, State.modHull_keeps rfl (.refl _ s)⟩

/-- Notes leave the feeds alone. -/
theorem State.FeedSet.noted {f : Feed} (h : s.FeedSet t b f) (k : Keeps 0x4800000005 t u) : s.FeedSet u b f :=
  ⟨(State.feed_of_hull (k.same .hull rfl) b).trans h.feed, (State.feed_of_hull (k.same .hull rfl) _).trans h.other,
   h.keeps.trans (k.widen rfl)⟩

theorem State.FeedSet.trans {f g : Feed} (h : s.FeedSet t b f) (k : t.FeedSet u b g) : s.FeedSet u b g :=
  ⟨k.feed, k.other.trans h.other, h.keeps.trans k.keeps⟩

theorem State.FeedSet.log {f : Feed} (h : s.FeedSet t b f) (c : FaultClass) (data : List Byte) : s.FeedSet (t.log c R.hull data) b f :=
  h.noted (State.log_keeps rfl (.refl _ t))

/-- What is logged last is among the entries of the row. -/
theorem State.FeedSet.logs {f : Feed} (h : s.FeedSet t b f) (hrun : s.running = true) (c : FaultClass) (data : List Byte) :
    s.Logs (t.log c R.hull data) c :=
  ((State.log_logsOne (h.keeps.running rfl hrun) c R.hull data).logs).after h.keeps rfl

theorem State.openStage_sets (s : State) (b : Bool) : s.FeedSet (s.openStage b) b { s.feed b with closed := false } :=
  ((s.modFeed_sets b _).noted (State.hullEvent_keeps rfl (.refl _ _))).log _ _

theorem State.openStage_logs (hrun : s.running = true) (b : Bool) : s.Logs (s.openStage b) F.HULL_FEED_OFF :=
  ((s.modFeed_sets b _).noted (State.hullEvent_keeps rfl (.refl _ _))).logs hrun _ _

/-! ### FEED_CLASS_CHANGE -/

/-- The highest voltage of a feed since it was last in its bounds. -/
def State.feedHighest (s : State) (b : Bool) (mv : Nat) : Nat :=
  if feedClass mv = .high ∨ feedClass mv = .over then max (s.feed b).highest mv else mv

/-- The feed enters a class. -/
def State.feedEnters (s : State) (b : Bool) (mv : Nat) : State :=
  (s.modFeed b fun f => { f with cls := feedClass mv, mv := mv, highest := s.feedHighest b mv, since := s.now }).hullEvent 4

theorem State.feedEnters_sets (s : State) (b : Bool) (mv : Nat) : s.FeedSet (s.feedEnters b mv) b
    { s.feed b with cls := feedClass mv, mv := mv, highest := s.feedHighest b mv, since := s.now } :=
  (s.modFeed_sets b _).noted (State.hullEvent_keeps rfl (.refl _ _))

theorem State.powerFlags_of_config (h : t.config = s.config) : t.powerFlags = s.powerFlags := by
  rw [State.powerFlags, State.hasSection, State.payload, h]
  rfl

theorem execFeedClassChange_of_same (hmv : mv ≤ 80000) (h : feedClass mv = (s.feed b).cls) :
    exec (.feedClassChange b mv) s = .next (s.modFeed b fun f => { f with mv := mv, highest := s.feedHighest b mv }) :=
  (if_neg (Nat.not_lt.2 hmv)).trans (if_pos h)

theorem execFeedClassChange_of_low (hmv : mv ≤ 80000) (h : feedClass mv ≠ (s.feed b).cls) (hc : feedClass mv = .absent ∨ feedClass mv = .low) :
    exec (.feedClassChange b mv) s = .next (if s.feedExpected b then
      (s.feedEnters b mv).log F.HULL_FEED_LOST R.hull (leBytes 1 (b2n b) ++ leBytes 4 mv) else s.feedEnters b mv) := by
  have expected : (s.feedEnters b mv).feedExpected b = s.feedExpected b := by
    rw [State.feedExpected, State.powerFlags_of_config ((s.feedEnters_sets b mv).keeps.same .config rfl), State.feedExpected]
  rw [← expected]
  refine ((if_neg (Nat.not_lt.2 hmv)).trans (if_neg h)).trans ?_
  rcases hc with hc | hc
  · rw [State.feedEnters, State.feedHighest, hc]
  · rw [State.feedEnters, State.feedHighest, hc]

theorem execFeedClassChange_of_good (hmv : mv ≤ 80000) (h : feedClass mv ≠ (s.feed b).cls) (hc : feedClass mv = .good) :
    exec (.feedClassChange b mv) s = .next (if ((s.feed b).cls = .low ∨ (s.feed b).cls = .absent) ∧ (s.feed b).closed then
      (s.feedEnters b mv).log F.HULL_FEED_RESTORED R.hull (leBytes 1 (b2n b)) else s.feedEnters b mv) := by
  refine ((if_neg (Nat.not_lt.2 hmv)).trans (if_neg h)).trans ?_
  rw [State.feedEnters, State.feedHighest, hc]

theorem execFeedClassChange_of_high (hmv : mv ≤ 80000) (h : feedClass mv ≠ (s.feed b).cls) (hc : feedClass mv = .high) :
    exec (.feedClassChange b mv) s = .next ((s.feedEnters b mv).log F.HULL_FEED_HIGH R.hull (leBytes 1 (b2n b) ++ leBytes 4 mv)) := by
  refine ((if_neg (Nat.not_lt.2 hmv)).trans (if_neg h)).trans ?_
  rw [State.feedEnters, State.feedHighest, hc]

theorem execFeedClassChange_of_over (hmv : mv ≤ 80000) (h : feedClass mv ≠ (s.feed b).cls) (hc : feedClass mv = .over) :
    exec (.feedClassChange b mv) s =
      .next (if (s.feed b).closed then (s.feedEnters b mv).openStage b else s.feedEnters b mv) := by
  refine ((if_neg (Nat.not_lt.2 hmv)).trans (if_neg h)).trans ?_
  rw [State.feedEnters, State.feedHighest, hc]

/-- What FEED_CLASS_CHANGE makes of a feed. -/
structure State.FeedChanged (s t : State) (b : Bool) (mv : Nat) : Prop where
  cls    : (t.feed b).cls = feedClass mv
  mv_    : (t.feed b).mv = mv
  other  : t.feed (!b) = s.feed (!b)
  keeps  : Keeps 0x6800000005 s t
  closed : (t.feed b).closed = if feedClass mv = .over ∧ (s.feed b).cls ≠ .over then false else (s.feed b).closed

/-- A feed that keeps its stage as it is. -/
theorem State.FeedSet.changed {f : Feed} (h : s.FeedSet t b f) (hc : f.cls = feedClass mv) (hmv : f.mv = mv)
    (hcl : f.closed = if feedClass mv = .over ∧ (s.feed b).cls ≠ .over then false else (s.feed b).closed) : s.FeedChanged t b mv :=
  ⟨h.feed ▸ hc, h.feed ▸ hmv, h.other, h.keeps, h.feed ▸ hcl⟩

theorem State.FeedSet.changed_of_within {f : Feed} (h : s.FeedSet t b f) (hf : f.cls = feedClass mv) (hmv : f.mv = mv)
    (hcl : f.closed = (s.feed b).closed) (hc : feedClass mv ≠ .over) : s.FeedChanged t b mv :=
  h.changed hf hmv (by rw [if_neg fun k => hc k.1, hcl])

/-- What FEED_CLASS_CHANGE logs of a feed that enters a new class. -/
def State.FeedLogs (s t : State) (b : Bool) (mv : Nat) : Prop :=
  (feedClass mv = .high → s.Logs t F.HULL_FEED_HIGH) ∧
  (feedClass mv = .good → (s.feed b).cls = .absent ∨ (s.feed b).cls = .low → (s.feed b).closed = true → s.Logs t F.HULL_FEED_RESTORED) ∧
  (feedClass mv = .absent ∨ feedClass mv = .low → s.feedExpected b = true → s.Logs t F.HULL_FEED_LOST) ∧
  (feedClass mv = .over → (s.feed b).closed = true → s.Logs t F.HULL_FEED_OFF)

theorem execFeedClassChange_low (hmv : mv ≤ 80000) (h : feedClass mv ≠ (s.feed b).cls) (hc : feedClass mv = .absent ∨ feedClass mv = .low) :
    ∃ t, exec (.feedClassChange b mv) s = .next t ∧ s.FeedChanged t b mv ∧ (s.running = true → s.FeedLogs t b mv) := by
  have enters := s.feedEnters_sets b mv
  have isNot {c : FeedClass} (ha : c ≠ .absent) (hl : c ≠ .low) : feedClass mv ≠ c := fun k => hc.elim (fun e => ha (k.symm.trans e)) fun e => hl (k.symm.trans e)
  have hover : feedClass mv ≠ .over := isNot (by decide) (by decide)
  refine ⟨_, execFeedClassChange_of_low hmv h hc, ?_, fun hrun => ⟨fun k => absurd k (isNot (by decide) (by decide)),
    fun k => absurd k (isNot (by decide) (by decide)), fun _ expected => ?_, fun k => absurd k hover⟩⟩
  · split
    · exact (enters.log _ _).changed_of_within rfl rfl rfl hover
    · exact enters.changed_of_within rfl rfl rfl hover
  · rw [if_pos expected]
    exact enters.logs hrun _ _

theorem execFeedClassChange_good (hmv : mv ≤ 80000) (h : feedClass mv ≠ (s.feed b).cls) (hc : feedClass mv = .good) :
    ∃ t, exec (.feedClassChange b mv) s = .next t ∧ s.FeedChanged t b mv ∧ (s.running = true → s.FeedLogs t b mv) := by
  have enters := s.feedEnters_sets b mv
  have isNot {c : FeedClass} (hne : FeedClass.good ≠ c) : feedClass mv ≠ c := fun k => hne (hc.symm.trans k)
  have hover : feedClass mv ≠ .over := isNot (by decide)
  refine ⟨_, execFeedClassChange_of_good hmv h hc, ?_, fun hrun => ⟨fun k => absurd k (isNot (by decide)), fun _ was closed => ?_,
    fun k => k.elim (fun k => absurd k (isNot (by decide))) fun k => absurd k (isNot (by decide)), fun k => absurd k hover⟩⟩
  · split
    · exact (enters.log _ _).changed_of_within rfl rfl rfl hover
    · exact enters.changed_of_within rfl rfl rfl hover
  · rw [if_pos ⟨was.symm, closed⟩]
    exact enters.logs hrun _ _

theorem execFeedClassChange_high (hmv : mv ≤ 80000) (h : feedClass mv ≠ (s.feed b).cls) (hc : feedClass mv = .high) :
    ∃ t, exec (.feedClassChange b mv) s = .next t ∧ s.FeedChanged t b mv ∧ (s.running = true → s.FeedLogs t b mv) := by
  have enters := s.feedEnters_sets b mv
  have isNot {c : FeedClass} (hne : FeedClass.high ≠ c) : feedClass mv ≠ c := fun k => hne (hc.symm.trans k)
  exact ⟨_, execFeedClassChange_of_high hmv h hc, (enters.log _ _).changed_of_within rfl rfl rfl (isNot (by decide)), fun hrun =>
    ⟨fun _ => enters.logs hrun _ _, fun k => absurd k (isNot (by decide)),
     fun k => k.elim (fun k => absurd k (isNot (by decide))) fun k => absurd k (isNot (by decide)), fun k => absurd k (isNot (by decide))⟩⟩

theorem execFeedClassChange_beyond (hmv : mv ≤ 80000) (h : feedClass mv ≠ (s.feed b).cls) (hc : feedClass mv = .over) :
    ∃ t, exec (.feedClassChange b mv) s = .next t ∧ s.FeedChanged t b mv ∧ (s.running = true → s.FeedLogs t b mv) := by
  have enters := s.feedEnters_sets b mv
  have isNot {c : FeedClass} (hne : FeedClass.over ≠ c) : feedClass mv ≠ c := fun k => hne (hc.symm.trans k)
  have was : (s.feed b).cls ≠ .over := fun k => h (hc.trans k.symm)
  refine ⟨_, execFeedClassChange_of_over hmv h hc, ?_, fun hrun => ⟨fun k => absurd k (isNot (by decide)), fun k => absurd k (isNot (by decide)),
    fun k => k.elim (fun k => absurd k (isNot (by decide))) fun k => absurd k (isNot (by decide)), fun _ closed => ?_⟩⟩
  · split
    · refine (enters.trans (State.openStage_sets _ b)).changed (congrArg Feed.cls enters.feed) (congrArg Feed.mv enters.feed) ?_
      rw [if_pos ⟨hc, was⟩]
    next opened =>
      refine enters.changed rfl rfl ?_
      rw [if_pos ⟨hc, was⟩]
      exact Bool.eq_false_iff.2 opened
  · rw [if_pos closed]
    exact (State.openStage_logs (enters.keeps.running rfl hrun) b).after enters.keeps rfl

theorem execFeedClassChange_spec (hmv : mv ≤ 80000) : ∃ t, exec (.feedClassChange b mv) s = .next t ∧ s.FeedChanged t b mv ∧
    (feedClass mv ≠ (s.feed b).cls → s.running = true → s.FeedLogs t b mv) := by
  by_cases h : feedClass mv = (s.feed b).cls
  · refine ⟨_, execFeedClassChange_of_same hmv h, (s.modFeed_sets b _).changed h.symm rfl ?_, fun k => absurd h k⟩
    rw [if_neg fun k => k.2 (h.symm.trans k.1)]
  · have entered : ∃ t, exec (.feedClassChange b mv) s = .next t ∧ s.FeedChanged t b mv ∧ (s.running = true → s.FeedLogs t b mv) := by
      obtain hc | hc | hc | hc : (feedClass mv = .absent ∨ feedClass mv = .low) ∨ feedClass mv = .good ∨ feedClass mv = .high ∨
          feedClass mv = .over := by cases feedClass mv <;> simp
      · exact execFeedClassChange_low hmv h hc
      · exact execFeedClassChange_good hmv h hc
      · exact execFeedClassChange_high hmv h hc
      · exact execFeedClassChange_beyond hmv h hc
    obtain ⟨t, run, changed, logs⟩ := entered
    exact ⟨t, run, changed, fun _ => logs⟩

/-! ### FEED_OVER, FEED_HIGH_TIMEOUT, FEED_STAGE_CLOSE -/

theorem execFeedOver_opens (hmv : mv ≤ 80000) (hv : 75000 < mv) (hclosed : (s.feed b).closed = true) :
    ∃ t f, exec (.feedOver b mv) s = .next t ∧ s.FeedSet t b f ∧ f.closed = false ∧ f.cls = .over ∧ (s.running = true → s.Logs t F.HULL_FEED_OFF) := by
  have enters := s.modFeed_sets b fun f => { f with cls := .over, mv := mv, highest := max f.highest mv, since := s.now }
  exact ⟨_, _, (if_neg (Nat.not_lt.2 hmv)).trans (if_pos ⟨hv, hclosed⟩), enters.trans (State.openStage_sets _ b), rfl,
    congrArg Feed.cls enters.feed, fun hrun => (State.openStage_logs (enters.keeps.running rfl hrun) b).after enters.keeps rfl⟩

theorem execFeedOver_of_none (hmv : mv ≤ 80000) (h : mv ≤ 75000 ∨ (s.feed b).closed = false) : exec (.feedOver b mv) s = .next s := by
  refine (if_neg (Nat.not_lt.2 hmv)).trans (if_neg ?_)
  rintro ⟨hv, closed⟩
  rcases h with h | h
  · exact absurd hv (Nat.not_lt.2 h)
  · exact Bool.false_ne_true (h.symm.trans closed)

theorem execFeedHighTimeout_opens (hcls : (s.feed b).cls = .high) (hclosed : (s.feed b).closed = true)
    (hdue : (s.feed b).since + ms 100 ≤ s.now) : exec (.feedHighTimeout b) s = .next (s.openStage b) :=
  if_pos ⟨hcls, hclosed, decide_eq_true hdue⟩

theorem execFeedHighTimeout_of_none (h : (s.feed b).cls ≠ .high ∨ (s.feed b).closed = false ∨ s.now < (s.feed b).since + ms 100) :
    exec (.feedHighTimeout b) s = .next s := by
  refine if_neg ?_
  rintro ⟨cls, closed, due⟩
  rcases h with h | h | h
  · exact h cls
  · exact Bool.false_ne_true (h.symm.trans closed)
  · exact absurd (of_decide_eq_true due) (Nat.not_le.2 h)

theorem execFeedStageClose_closes (hcls : (s.feed b).cls = .good) (hopen : (s.feed b).closed = false)
    (hdue : (s.feed b).since + sec 1 ≤ s.now) : ∃ t, exec (.feedStageClose b) s = .next t ∧
      s.FeedSet t b { s.feed b with closed := true } ∧ (s.running = true → s.Logs t F.HULL_FEED_RESTORED) := by
  have closes := (s.modFeed_sets b fun f => { f with closed := true }).noted (State.hullEvent_keeps (mask := 4) rfl (.refl _ _))
  exact ⟨_, if_pos ⟨hcls, hopen, decide_eq_true hdue⟩, closes.log _ _, fun hrun => closes.logs hrun _ _⟩

theorem execFeedStageClose_of_none (h : (s.feed b).cls ≠ .good ∨ (s.feed b).closed = true ∨ s.now < (s.feed b).since + sec 1) :
    exec (.feedStageClose b) s = .next s := by
  refine if_neg ?_
  rintro ⟨cls, opened, due⟩
  rcases h with h | h | h
  · exact h cls
  · exact Bool.false_ne_true (opened.symm.trans h)
  · exact absurd (of_decide_eq_true due) (Nat.not_le.2 h)

end

/-! ## The rails (R365, R366) -/

/-- The newest entry of the hull log is of a class. -/
def State.HullLogged (t : State) (c : FaultClass) : Prop := ∃ e, t.hull.log.getLast? = some e ∧ e.cls = c.code ∧ e.sev = c.sev

section
variable {s t : State}

theorem State.HullLogged.of_log {c : FaultClass} (h : s.HullLogged c) (hl : t.hull.log = s.hull.log) : t.HullLogged c := by
  rw [State.HullLogged, hl]
  exact h

theorem State.hullLog_logged (s : State) (c : FaultClass) (data : List Byte) : (s.hullLog c data).HullLogged c :=
  ⟨_, s.hullLog_last c data 0, rfl, rfl⟩

/-- The entry that is written before a reset stands after it. -/
theorem State.HullLogged.reset {c : FaultClass} (h : s.HullLogged c) (k : ResetKind) : (s.interruptBootWrite.resetDevice k 0).HullLogged c := by
  refine h.of_log ?_
  show s.interruptBootWrite.hull.log = s.hull.log
  rw [s.interruptBootWrite_hull]

theorem execRailStart_starts (hmay : s.mayStartRails = true) (hretry : s.hull.retryAt = none) :
    exec .railStart s = .next { s with hull := { s.hull with starting := some s.now } } := by
  have run : exec .railStart s = .next (if s.hull.retryAt.isNone then s.startRails else s) := rfl
  rw [run, if_pos (by rw [hretry]; rfl), State.startRails_of_may hmay]
  unfold State.modHull
  rw [← hretry]

theorem execRailStart_of_none (h : s.mayStartRails = false ∨ s.hull.retryAt.isSome = true) : exec .railStart s = .next s := by
  have run : exec .railStart s = .next (if s.hull.retryAt.isNone then s.startRails else s) := rfl
  rw [run]
  split
  next retry =>
    rcases h with h | h
    · rw [State.startRails_of_kept h]
    · rw [Option.isNone_iff_eq_none.1 retry] at h
      cases h
  next => rfl

theorem execRailPowerGood_of_none (h : s.hull.starting = none) : exec .railPowerGood s = .next s := by
  show execRailPowerGood s = _
  unfold execRailPowerGood
  rw [h]

theorem execRailPowerGood_counts {x : Nat} (h : s.hull.starting = some x) :
    exec .railPowerGood s = .next { s with hull := { s.hull with
      rails := s.hull.rails + 1, starting := if s.hull.rails < 9 then some s.now else none,
      attempts := if s.hull.rails < 9 then s.hull.attempts else 0 } } := by
  have next : s.hull.rails < 9 ↔ s.hull.rails + 1 < 10 := by omega
  show execRailPowerGood s = _
  unfold execRailPowerGood
  rw [h]
  simp only [next]
  rfl

theorem execRailStartTimeout_of_none (h : s.hull.starting = none) : exec .railStartTimeout s = .next s := by
  show execRailStartTimeout s = _
  unfold execRailStartTimeout
  rw [h]

theorem execRailStartTimeout_of_early {x : Nat} (h : s.hull.starting = some x) (hx : s.now < x + ms 5) : exec .railStartTimeout s = .next s := by
  show execRailStartTimeout s = _
  unfold execRailStartTimeout
  rw [h]
  exact if_neg fun k => absurd (of_decide_eq_true k) (Nat.not_le.2 hx)

/-- The state that a failed start of a rail resets. -/
def State.railFailed (s : State) : State :=
  (s.hullLog F.HULL_RAIL_FAIL (leBytes 1 (s.hull.rails + 1) ++ leBytes 1 (s.hull.attempts + 1))).modHull fun h =>
    { h with latchedOff := decide (3 ≤ s.hull.attempts + 1) }

theorem execRailStartTimeout_fails {x : Nat} (h : s.hull.starting = some x) (hx : x + ms 5 ≤ s.now) :
    exec .railStartTimeout s = .next ((s.railFailed.resetDevice .rail 0).modHull fun h =>
      { h with attempts := s.hull.attempts + 1, retryAt := if 3 ≤ s.hull.attempts + 1 then none else some (s.railFailed.now + sec 1) }) := by
  show execRailStartTimeout s = _
  unfold execRailStartTimeout
  rw [h]
  exact if_pos (decide_eq_true hx)

theorem State.railFailed_lasts (s : State) : s.Lasts s.railFailed :=
  (s.hullLog_lasts _ _ _).trans (Keeps.lasts (State.modHull_keeps rfl (.refl _ _)))

theorem execRailRetry_of_none (h : s.hull.retryAt = none) : exec .railRetry s = .next s := by
  show execRailRetry s = _
  unfold execRailRetry
  rw [h]

theorem execRailRetry_of_early {x : Nat} (h : s.hull.retryAt = some x) (hx : s.now < x) : exec .railRetry s = .next s := by
  show execRailRetry s = _
  unfold execRailRetry
  rw [h]
  exact if_neg fun k => absurd (of_decide_eq_true k) (Nat.not_le.2 hx)

theorem execRailRetry_starts {x : Nat} (h : s.hull.retryAt = some x) (hx : x ≤ s.now) :
    exec .railRetry s = .next (s.modHull fun h => { h with retryAt := none }).startRails := by
  show execRailRetry s = _
  unfold execRailRetry
  rw [h]
  exact if_pos (decide_eq_true hx)

theorem State.startRails_retryAt (h : s.hull.retryAt = none) : s.startRails.hull.retryAt = none := by
  cases hmay : s.mayStartRails with
  | true => rw [State.startRails_of_may hmay]; rfl
  | false => rw [State.startRails_of_kept hmay, h]

theorem State.startRails_starting (h : s.mayStartRails = true) : s.startRails.hull.starting = some s.now := by
  rw [State.startRails_of_may h]
  rfl

theorem execRailFault_resets {r : Fin 10} {mv : Nat} (hr : r.val < s.hull.rails) (hband : inBand r.val mv = false) :
    exec (.railFault r mv) s = .next
      ((s.hullLog F.HULL_RAIL_FAULT (leBytes 1 (r.val + 1) ++ leBytes 4 mv)).interruptBootWrite.resetDevice .rail 0) := if_pos ⟨hr, hband⟩

theorem execRailFault_of_none {r : Fin 10} {mv : Nat} (h : s.hull.rails ≤ r.val ∨ inBand r.val mv = true) : exec (.railFault r mv) s = .next s := by
  refine if_neg ?_
  rintro ⟨hr, hband⟩
  rcases h with h | h
  · exact absurd hr (Nat.not_lt.2 h)
  · exact Bool.false_ne_true (hband.symm.trans h)

/-! ## Trips (R376) -/

/-- The state that a trip resets. -/
def State.trippedOff (s : State) : State :=
  ((s.countHalves R.hull_TRIPS 1 0).hullLog F.THERM_TRIP
    (leBytes 1 s.hull.tjDomain ++ leBytes 1 (s.now :: s.hull.trips.filter fun t => decide (s.now < t + sec 3600)).length)).modHull fun h =>
      { h with
        trips := s.now :: s.hull.trips.filter fun t => decide (s.now < t + sec 3600), tripped := true,
        latchedOff := h.latchedOff ||
          (decide (4 ≤ (s.now :: s.hull.trips.filter fun t => decide (s.now < t + sec 3600)).length) || !bit s.powerFlags 1) }

theorem execThermTrip_of_none (h : s.hull.rails = 0) : exec .thermTrip s = .next s := if_pos h

theorem execThermTrip_resets (h : s.hull.rails ≠ 0) : exec .thermTrip s = .next (s.trippedOff.interruptBootWrite.resetDevice .trip 0) := if_neg h

theorem State.trippedOff_lasts (s : State) : s.Lasts s.trippedOff :=
  (Keeps.lasts (State.countHalves_keeps rfl (.refl _ _))).trans
    ((State.hullLog_lasts _ _ _ _).trans (Keeps.lasts (State.modHull_keeps rfl (.refl _ _))))

theorem execTripCooled_of_none (h : s.hull.tripped = false) : exec .tripCooled s = .next s := if_neg (by rw [h]; exact Bool.false_ne_true)

theorem execTripCooled_starts (h : s.hull.tripped = true) :
    exec .tripCooled s = .next (s.modHull fun h => { h with tripped := false }).startRails := if_pos h

theorem State.startRails_tripped (s : State) : s.startRails.hull.tripped = s.hull.tripped := by
  cases hmay : s.mayStartRails with
  | true => rw [State.startRails_of_may hmay]; rfl
  | false => rw [State.startRails_of_kept hmay]

end

/-! ## Temperatures (R375) -/

/-- The readings of the domains with the sensors that work. -/
def judgedOf (readings : List DomainTemp) : List (Nat × DomainTemp) :=
  (readings.take 8).zipIdx.map fun x => (x.2, judgeSensors readings x.2 x.1)

/-- A domain has no working sensor. -/
def blindOf (judged : List (Nat × DomainTemp)) : Bool := judged.any fun x => x.2.value.isNone

/-- The hottest domain and its temperature. -/
def topOf (judged : List (Nat × DomainTemp)) : Nat × Int :=
  judged.foldl (fun (m : Nat × Int) x => match x.2.value with
    | some v => if m.2 < v then (x.1, v) else m
    | none => m) (0, -40 * 256)

/-- What the entries of a sample name. -/
def thermData (judged : List (Nat × DomainTemp)) : List Byte :=
  leBytes 1 (((judged.find? fun x => x.2.value.isNone).map (·.1)).getD (topOf judged).1) ++ leInt 2 (topOf judged).2

/-- A domain's reading is taken; a sensor that has failed is logged. -/
def State.thermTaken (s : State) (x : Nat × DomainTemp) : State :=
  let t := if (s.domTemp x.1).aOk && !x.2.aOk then s.sensorFailed x.1 0 x.2.a else s
  (if (s.domTemp x.1).bOk && !x.2.bOk then t.sensorFailed x.1 1 x.2.b else t).setDomTemp x.1 x.2

/-- The readings of a sample are taken. -/
def State.thermSampled (s : State) (judged : List (Nat × DomainTemp)) : State :=
  (judged.foldl State.thermTaken s).modHull fun h => { h with sampled := true, tjMax := (topOf judged).2, tjDomain := (topOf judged).1 }

/-- WARN crosses its threshold, or clears 5 degrees below it. -/
def State.thermWarn (s : State) (blind : Bool) (top : Int) (data : List Byte) : State :=
  if s.hull.warn = false ∧ (blind || decide ((s.warnC : Int) * 256 ≤ top)) then
    ((s.modHull fun h => { h with warn := true }).hullEvent 0x10).log F.THERM_WARN R.hull data
  else if s.hull.warn ∧ blind = false ∧ top < (s.warnC : Int) * 256 - 5 * 256 then
    (s.modHull fun h => { h with warn := false }).log F.THERM_CLEAR R.hull (leBytes 1 1 ++ leInt 2 top)
  else s

/-- CRIT crosses its threshold, or clears 5 degrees below it. -/
def State.thermCrit (s : State) (blind : Bool) (top : Int) (data : List Byte) : State :=
  if s.hull.crit = false ∧ (blind || decide ((110 : Int) * 256 ≤ top)) then
    ((((s.modHull fun h => { h with crit := true }).countHalves R.hull_TRIPS 0 1).hullEvent 0x20)).log F.THERM_CRIT R.hull data
  else if s.hull.crit ∧ blind = false ∧ top < (105 : Int) * 256 then
    ((s.modHull fun h => { h with crit := false }).clearSafe F.THERM_CRIT.code).log F.THERM_CLEAR R.hull (leBytes 1 2 ++ leInt 2 top)
  else s

section
variable {s t : State} {l : List DomainTemp} {r : DomainTemp} {blind : Bool} {top : Int} {data : List Byte}

theorem execThermSample_of_reset (h : s.running = false) : exec (.thermSample l) s = .next s := if_pos (by rw [h]; rfl)

theorem execThermSample_of_running (h : s.running = true) : exec (.thermSample l) s =
    .next (((s.thermSampled (judgedOf l)).thermWarn (blindOf (judgedOf l)) (topOf (judgedOf l)).2 (thermData (judgedOf l))).thermCrit
      (blindOf (judgedOf l)) (topOf (judgedOf l)).2 (thermData (judgedOf l))) := if_neg (by rw [h]; exact Bool.false_ne_true)

/-- A sample of any domains changes what the hull side notes. -/
theorem execThermSample_keeps_hull (s : State) (l : List DomainTemp) : ∃ t, exec (.thermSample l) s = .next t ∧ Keeps 0x6800000005 s t := by
  have keeps : KeepsOut 0x6800000005 s (execThermSample l s) := execThermSample_keeps rfl (.refl _ s)
  cases hrun : s.running with
  | false => exact ⟨s, execThermSample_of_reset hrun, .refl _ s⟩
  | true => exact ⟨_, execThermSample_of_running hrun, keeps _ (execThermSample_of_running hrun)⟩

/-! ### The thresholds -/

theorem State.hullLogged_hull (s : State) (m : Nat) (c : FaultClass) (d : List Byte) : ((s.hullEvent m).log c R.hull d).hull = s.hull :=
  (State.log_keeps rfl (State.hullEvent_keeps rfl (.refl 0x4800000005 s))).same .hull rfl

theorem State.thermWarn_hull (s : State) (blind : Bool) (top : Int) (data : List Byte) : (s.thermWarn blind top data).hull =
    { s.hull with warn := if s.hull.warn then blind || decide ((s.warnC : Int) * 256 - 1280 ≤ top) else blind || decide ((s.warnC : Int) * 256 ≤ top) } := by
  unfold State.thermWarn
  cases hw : s.hull.warn with
  | false =>
    split
    next h =>
      rw [State.hullLogged_hull, if_neg Bool.false_ne_true, h.2]
      rfl
    next h =>
      rw [if_neg fun k => Bool.false_ne_true k.1, if_neg Bool.false_ne_true, Bool.eq_false_iff.2 fun k => h ⟨rfl, k⟩, ← hw]
  | true =>
    rw [if_neg fun k => Bool.false_ne_true k.1.symm, if_pos rfl]
    split
    next h =>
      obtain ⟨-, sees, cool⟩ := h
      rw [State.log_hull, sees, decide_eq_false (by omega)]
      rfl
    next h =>
      have warm : (blind || decide ((s.warnC : Int) * 256 - 1280 ≤ top)) = true := by
        cases blind with
        | true => rfl
        | false => exact decide_eq_true (by by_contra hlt; exact h ⟨rfl, rfl, by omega⟩)
      rw [warm, ← hw]

theorem State.thermCrit_hull (s : State) (blind : Bool) (top : Int) (data : List Byte) : (s.thermCrit blind top data).hull =
    { s.hull with crit := if s.hull.crit then blind || decide (105 * 256 ≤ top) else blind || decide (110 * 256 ≤ top) } := by
  unfold State.thermCrit
  cases hw : s.hull.crit with
  | false =>
    split
    next h =>
      rw [State.hullLogged_hull, if_neg Bool.false_ne_true, h.2]
      rfl
    next h =>
      rw [if_neg fun k => Bool.false_ne_true k.1, if_neg Bool.false_ne_true, Bool.eq_false_iff.2 fun k => h ⟨rfl, k⟩, ← hw]
  | true =>
    rw [if_neg fun k => Bool.false_ne_true k.1.symm, if_pos rfl]
    split
    next h =>
      obtain ⟨-, sees, cool⟩ := h
      rw [State.log_hull, sees, decide_eq_false (by omega)]
      rfl
    next h =>
      have warm : (blind || decide ((105 : Int) * 256 ≤ top)) = true := by
        cases blind with
        | true => rfl
        | false => exact decide_eq_true (by by_contra hlt; exact h ⟨rfl, rfl, by omega⟩)
      rw [warm, ← hw]

theorem State.thermWarn_keeps (h : Keeps 0x6800000005 t s) (blind : Bool) (top : Int) (data : List Byte) :
    Keeps 0x6800000005 t (s.thermWarn blind top data) :=
  Keeps.ite (State.log_keeps rfl (State.hullEvent_keeps rfl (State.modHull_keeps rfl h)))
    (Keeps.ite (State.log_keeps rfl (State.modHull_keeps rfl h)) h)

theorem State.thermCrit_logs (hrun : s.running = true) (hcrit : s.hull.crit = false) (h : (blind || decide (110 * 256 ≤ top)) = true) :
    s.Logs (s.thermCrit blind top data) F.THERM_CRIT := by
  rw [State.thermCrit, if_pos ⟨hcrit, h⟩]
  have keeps : Keeps 0x6800000005 s (((s.modHull fun h => { h with crit := true }).countHalves R.hull_TRIPS 0 1).hullEvent 0x20) :=
    State.hullEvent_keeps rfl (State.countHalves_keeps rfl (State.modHull_keeps rfl (.refl _ s)))
  exact (State.log_logsOne (keeps.running rfl hrun) _ _ _).logs.after keeps rfl

/-! ### One domain -/

theorem State.thermTaken_keeps (s : State) (x : Nat × DomainTemp) : Keeps 0x6800000005 s (s.thermTaken x) :=
  State.setDomTemp_keeps rfl (Keeps.ite
    (State.sensorFailed_keeps rfl (Keeps.ite (State.sensorFailed_keeps rfl (.refl _ s)) (.refl _ s)))
    (Keeps.ite (State.sensorFailed_keeps rfl (.refl _ s)) (.refl _ s)))

theorem State.thermSampled_keeps (s : State) (x : Nat × DomainTemp) : Keeps 0x6800000005 s (s.thermSampled [x]) :=
  State.modHull_keeps rfl (s.thermTaken_keeps x)

/-- A failed sensor is noted and logged, whatever it reads. -/
theorem State.sensorFailed_hull (s : State) (d sensor : Nat) (v : Int) : (s.sensorFailed d sensor v).hull = s.hull := s.hullLogged_hull _ _ _

/-- A sample moves neither WARN nor CRIT by itself. -/
theorem State.thermTaken_crit (s : State) (x : Nat × DomainTemp) : (s.thermTaken x).hull.crit = s.hull.crit := by
  have set (u : State) : (u.setDomTemp x.1 x.2).hull.crit = u.hull.crit := rfl
  unfold State.thermTaken
  dsimp only
  rw [set]
  have first : (if (s.domTemp x.1).aOk && !x.2.aOk then s.sensorFailed x.1 0 x.2.a else s).hull = s.hull := by
    split
    · rw [State.sensorFailed_hull]
    · rfl
  split
  · rw [State.sensorFailed_hull, first]
  · rw [first]

/-- Both sensors are in range and agree. -/
theorem judgeSensors_of_good (ha : sensorInRange r.a = true) (hb : sensorInRange r.b = true) (hd : (r.a - r.b).natAbs ≤ 2560) (d : Nat) :
    judgeSensors l d r = { r with aOk := true, bOk := true } := by
  unfold judgeSensors
  dsimp only
  rw [ha, hb, if_neg (by simp; omega)]

theorem judgeSensors_of_bad (ha : sensorInRange r.a = false) (hb : sensorInRange r.b = false) (d : Nat) :
    judgeSensors l d r = { r with aOk := false, bOk := false } := by
  unfold judgeSensors
  dsimp only
  rw [ha, hb]
  rfl

/-- Readings with both sensors working. -/
def DomainTemp.working (r : DomainTemp) : DomainTemp := { r with aOk := true, bOk := true }

theorem topOf_working (ha : sensorInRange r.a = true) : topOf [(0, r.working)] = (0, max r.a r.b) := by
  have bound : -40 * 256 ≤ r.a := by
    have h := (Bool.and_eq_true_iff.1 ha).1
    exact of_decide_eq_true h
  have value : r.working.value = some (max r.a r.b) := rfl
  unfold topOf
  simp only [List.foldl_cons, List.foldl_nil, value]
  split
  next => rfl
  next h => exact congrArg (Prod.mk 0) (by omega)

theorem State.thermTaken_working (s : State) (r : DomainTemp) : s.thermTaken (0, r.working) = s.setDomTemp 0 r.working := by
  unfold State.thermTaken DomainTemp.working
  simp only [Bool.not_true, Bool.and_false, Bool.false_eq_true, if_false]

theorem State.thermSampled_working (s : State) (r : DomainTemp) (ha : sensorInRange r.a = true) : (s.thermSampled [(0, r.working)]).hull =
    { s.hull with temps := s.hull.temps.put (fun _ => {}) 0 r.working, sampled := true, tjMax := max r.a r.b, tjDomain := 0 } := by
  rw [State.thermSampled, topOf_working ha, List.foldl_cons, List.foldl_nil, State.thermTaken_working]
  rfl

end

/-! ## The statement -/

/-- A reset that counts itself, as the statement says it. -/
theorem State.Lasts.wasReset {s u : State} (h : s.Lasts u) (k : ResetKind) (t : State) (ht : t.startup = (u.resetDevice k 0).startup)
    (hc : s.Cleared t k) :
    t.startup.phase = 1 ∧ t.startup.kind = k ∧ t.running = false ∧ t.hull.rails = 0 ∧ t.mem = [] ∧ t.config = [] ∧
    t.recorder.store = s.recorder.store ∧ t.mdp.slots = s.mdp.slots ∧ t.im.lineage = s.im.lineage ∧ t.pending = s.pending ∧
    t.startup.count = min 0xFFFFFFFF (s.startup.count + 1) ∧ t.clock = { now := s.now } := by
  obtain ⟨phase, kind, running, rails, mem, config, store, slots, lineage, pending, clock⟩ := hc
  exact ⟨phase, kind, running, rails, mem, config, store, slots, lineage, pending, by rw [ht, h.reset_count], clock⟩

section
variable {s : State}

/-- One domain whose sensors are in range and agree. -/
theorem execThermSample_of_good (hrun : s.running = true) {r : DomainTemp} (ha : sensorInRange r.a = true) (hb : sensorInRange r.b = true)
    (hd : (r.a - r.b).natAbs ≤ 2560) :
    ∃ t, exec (.thermSample [r]) s = .next t ∧ t.hull.tjMax = max r.a r.b ∧ t.domTemp 0 = r.working ∧ Keeps 0x6800000005 s t ∧
      t.hull.warn = (if s.hull.warn then decide ((s.warnC : Int) * 256 - 1280 ≤ max r.a r.b) else decide ((s.warnC : Int) * 256 ≤ max r.a r.b)) ∧
      t.hull.crit = (if s.hull.crit then decide (105 * 256 ≤ max r.a r.b) else decide (110 * 256 ≤ max r.a r.b)) ∧
      (s.hull.crit = false → 110 * 256 ≤ max r.a r.b → s.Logs t F.THERM_CRIT) := by
  have judged : judgedOf [r] = [(0, r.working)] := congrArg (fun x => [(0, x)]) (judgeSensors_of_good ha hb hd 0)
  have run := execThermSample_of_running (l := [r]) hrun
  obtain ⟨t, run', keeps⟩ := execThermSample_keeps_hull s [r]
  obtain rfl := Host.Outcome.next.inj (run'.symm.trans run)
  rw [judged] at run keeps
  have sees : blindOf [(0, r.working)] = false := rfl
  have hull := s.thermSampled_working r ha
  have taken := s.thermSampled_keeps (0, r.working)
  rw [sees, topOf_working ha] at run keeps
  generalize s.thermSampled [(0, r.working)] = v at *
  generalize thermData [(0, r.working)] = data at *
  have warnC : v.warnC = s.warnC := by
    have config : v.config = s.config := taken.same .config rfl
    rw [State.warnC, State.hasSection, State.payload, config]
    rfl
  have warned := v.thermWarn_hull false (max r.a r.b) data
  have done := (v.thermWarn false (max r.a r.b) data).thermCrit_hull false (max r.a r.b) data
  rw [warned, hull, warnC] at done
  simp only [Bool.false_or] at done
  refine ⟨_, run, by rw [done], ?_, keeps, by rw [done], by rw [done], fun hcrit hot => ?_⟩
  · rw [State.domTemp, done]
    exact (Sparse.get_put _ _ _ _ _).trans (if_pos rfl)
  · have between : Keeps 0x6800000005 s (v.thermWarn false (max r.a r.b) data) := State.thermWarn_keeps taken _ _ _
    refine (State.thermCrit_logs (between.running rfl hrun) ?_ ?_).after between rfl
    · rw [warned, hull]
      exact hcrit
    · exact decide_eq_true hot

/-- One domain with no working sensor. -/
theorem execThermSample_of_bad (hrun : s.running = true) {r : DomainTemp} (ha : sensorInRange r.a = false) (hb : sensorInRange r.b = false) :
    ∃ t, exec (.thermSample [r]) s = .next t ∧ t.hull.crit = true ∧ (s.hull.crit = false → s.Logs t F.THERM_CRIT) ∧ Keeps 0x6800000005 s t := by
  have judged : judgedOf [r] = [(0, { r with aOk := false, bOk := false })] :=
    congrArg (fun x => [(0, x)]) (judgeSensors_of_bad (l := [r]) ha hb 0)
  have run := execThermSample_of_running (l := [r]) hrun
  obtain ⟨t, run', keeps⟩ := execThermSample_keeps_hull s [r]
  obtain rfl := Host.Outcome.next.inj (run'.symm.trans run)
  rw [judged] at run keeps
  have blind : blindOf [(0, { r with aOk := false, bOk := false })] = true := rfl
  rw [blind] at run keeps
  have crit := s.thermTaken_crit (0, { r with aOk := false, bOk := false })
  have taken := s.thermSampled_keeps (0, { r with aOk := false, bOk := false })
  have sampled : (s.thermSampled [(0, { r with aOk := false, bOk := false })]).hull.crit = s.hull.crit := crit
  generalize s.thermSampled [(0, { r with aOk := false, bOk := false })] = v at *
  generalize (topOf [(0, { r with aOk := false, bOk := false })]).2 = top at *
  generalize thermData [(0, { r with aOk := false, bOk := false })] = data at *
  have warned := v.thermWarn_hull true top data
  refine ⟨_, run, ?_, fun hcrit => ?_, keeps⟩
  · rw [State.thermCrit_hull]
    simp
  · have between : Keeps 0x6800000005 s (v.thermWarn true top data) := State.thermWarn_keeps taken _ _ _
    refine (State.thermCrit_logs (between.running rfl hrun) ?_ rfl).after between rfl
    rw [warned]
    exact sampled.trans hcrit

end

/-- Settles O55: each row of the hull side is its effect on the feed, the rails or the thresholds, and a reset keeps what is stored. -/
theorem hullFeedsRailsAndTemperature : Obligations.HullFeedsRailsAndTemperature := by
  unfold Obligations.HullFeedsRailsAndTemperature
  intro wasReset hullLogged noted
  refine ⟨fun b mv s h => ⟨if_pos h, if_pos h⟩, ?classes, ?stages, fun s => ⟨execRailStart_starts, execRailStart_of_none, ?start,
    fun h => ⟨execRailPowerGood_of_none h, execRailStartTimeout_of_none h⟩, execRailRetry_of_none, fun x h hx => execRailRetry_of_early h hx,
    ?retry, fun r mv => ⟨?faults, execRailFault_of_none⟩, fun h l => execThermSample_of_reset h, fun l => ?samples, fun hrun r => ?domain,
    ?trips, execThermTrip_of_none, ?cooled, execTripCooled_of_none⟩⟩
  case classes =>
    intro b mv s hmv old c
    refine ⟨?_, fun hv hclosed => ?_, execFeedOver_of_none hmv⟩
    · obtain ⟨t, run, changed, logs⟩ := execFeedClassChange_spec (s := s) (b := b) hmv
      exact ⟨t, run, changed.cls, changed.mv_, changed.other, changed.keeps.hullNoted_eq, changed.closed, logs⟩
    · obtain ⟨t, f, run, sets, opened, cls, logs⟩ := execFeedOver_opens hmv hv hclosed
      exact ⟨t, run, sets.feed ▸ opened, sets.feed ▸ cls, sets.other, sets.keeps.hullNoted_eq, logs⟩
  case stages =>
    intro b s f
    refine ⟨fun hcls hclosed hdue => ?_, execFeedHighTimeout_of_none, fun hcls hopen hdue => ?_, execFeedStageClose_of_none⟩
    · have sets := s.openStage_sets b
      exact ⟨_, execFeedHighTimeout_opens hcls hclosed hdue, sets.feed, sets.other, sets.keeps.hullNoted_eq, fun hrun => State.openStage_logs hrun b⟩
    · obtain ⟨t, run, sets, logs⟩ := execFeedStageClose_closes hcls hopen hdue
      exact ⟨t, run, sets.feed, sets.other, sets.keeps.hullNoted_eq, logs⟩
  case start =>
    intro x hx
    refine ⟨execRailPowerGood_counts hx, fun hdue => ?_, fun early => execRailStartTimeout_of_early hx early⟩
    have lasts := s.railFailed_lasts
    have logged := s.hullLog_logged F.HULL_RAIL_FAIL (leBytes 1 (s.hull.rails + 1) ++ leBytes 1 (s.hull.attempts + 1))
    refine ⟨_, execRailStartTimeout_fails hx hdue, lasts.wasReset .rail _ rfl ((lasts.reset .rail).modHull rfl), logged, rfl, rfl,
      fun few => ⟨?_, ?_⟩, fun many => ⟨?_, ?_, ?_⟩⟩
    · exact decide_eq_false (by omega)
    · exact (if_neg (by omega)).trans (congrArg (fun n => some (n + sec 1)) lasts.now)
    · exact decide_eq_true (by omega)
    · refine if_pos ?_
      rw [State.staysOff, show s.railFailed.hull.latchedOff = true from decide_eq_true (by omega)]
      rfl
    · exact if_pos (by omega)
  case retry =>
    intro x hx hdue
    refine ⟨_, execRailRetry_starts hx hdue, State.startRails_retryAt rfl,
      (State.startRails_keeps rfl (State.modHull_keeps rfl (.refl 0x2000000000 s))).hull_eq,
      fun hmay => State.startRails_starting hmay⟩
  case faults =>
    intro hr hband
    have lasts := (s.hullLog_lasts F.HULL_RAIL_FAULT (leBytes 1 (r.val + 1) ++ leBytes 4 mv) 0).trans (State.interruptBootWrite_lasts _)
    exact ⟨_, execRailFault_resets hr hband, lasts.wasReset .rail _ rfl (lasts.reset .rail), (s.hullLog_logged _ _).reset .rail⟩
  case samples =>
    obtain ⟨t, run, keeps⟩ := execThermSample_keeps_hull s l
    exact ⟨t, run, keeps.hullNoted_eq⟩
  case domain =>
    intro top warnAt
    refine ⟨fun ha hb hd => ?_, fun ha hb => ?_⟩
    · obtain ⟨t, run, max, temp, keeps, warn, crit, logs⟩ := execThermSample_of_good hrun ha hb hd
      exact ⟨t, run, max, temp, keeps.hullNoted_eq, warn, crit, logs⟩
    · obtain ⟨t, run, crit, logs, keeps⟩ := execThermSample_of_bad hrun ha hb
      exact ⟨t, run, crit, logs, keeps.hullNoted_eq⟩
  case trips =>
    intro rails
    have lasts := s.trippedOff_lasts.trans (State.interruptBootWrite_lasts _)
    have logged : s.trippedOff.HullLogged F.THERM_TRIP := State.hullLog_logged _ _ _
    have hull := s.trippedOff.interruptBootWrite_hull
    have latched : s.trippedOff.hull.latchedOff = (s.hull.latchedOff ||
        (decide (4 ≤ (s.now :: s.hull.trips.filter fun t => decide (s.now < t + sec 3600)).length) || !bit s.powerFlags 1)) := by
      obtain ⟨log, lost, h⟩ := (s.countHalves R.hull_TRIPS 1 0).hullLog_hull F.THERM_TRIP
        (leBytes 1 s.hull.tjDomain ++ leBytes 1 (s.now :: s.hull.trips.filter fun t => decide (s.now < t + sec 3600)).length) 0
      have same := congrArg Hull.latchedOff h
      exact congrArg (· || _) same
    refine ⟨_, execThermTrip_resets rails, lasts.wasReset .trip _ rfl (lasts.reset .trip), logged.reset .trip, ?_, ?_⟩
    · rw [State.resetDevice_hull, hull]
      rfl
    · rw [State.resetDevice_hull, hull, latched, Bool.or_assoc]
      rfl
  case cooled =>
    intro tripped
    refine ⟨_, execTripCooled_starts tripped, State.startRails_tripped _,
      (State.startRails_keeps rfl (State.modHull_keeps rfl (.refl 0x2000000000 s))).hull_eq,
      fun hmay => State.startRails_starting hmay⟩

end Sys2Proof.Machine
end

section
/-!
PROOF. The supply warning, the loss of the supply, the hull link and the power states (R363, R364, R367 to R373, R378, R379).
-/

namespace Sys2Proof.Machine

/-! ## The supply warning (R367 to R369) -/

theorem State.heldDown_of_sag {s : State} (h : s.hull.sagHeld = true) (o : Output) : s.heldDown o = true := by simp [State.heldDown, State.allHeld, h]

theorem State.heldDown_of_keep {s : State} (h : s.hull.keepAt.isSome = true) (o : Output) : s.heldDown o = true := by
  simp [State.heldDown, State.allHeld, h]

section
variable {s : State}

theorem Recorder.admission_of_steady {r q : Recorder} (h : r.steady = q.steady) : r.closedAll = q.closedAll ∧ r.warnAt = q.warnAt := by
  have closed := congrArg Recorder.closedAll h
  have warned := congrArg Recorder.warnAt h
  exact ⟨closed, warned⟩

theorem execHullSag_of_none {v : Nat} (h : s.hull.sag = true ∨ 38000 ≤ v) : exec (.hullSag v) s = .next s := if_pos h

theorem execHullSag_begins {v : Nat} (hsag : s.hull.sag = false) (hv : v < 38000) : exec (.hullSag v) s =
    .next (if s.running then (s.modHull fun h => { h with sag := true, sagAt := s.now, vbus := v }).warningBegins
      else s.modHull fun h => { h with sag := true, sagAt := s.now, vbus := v }) :=
  if_neg fun k => k.elim (fun k => Bool.false_ne_true (hsag.symm.trans k)) fun k => absurd hv (Nat.not_lt.2 k)

/-- The warning holds every output, is logged, and closes the recorder's classes. -/
theorem State.warningBegins_spec (hrun : s.running = true) : s.warningBegins.hull = { s.hull with sagHeld := true, sagReleased := none } ∧
    s.Logs s.warningBegins F.HULL_SAG ∧ s.warningBegins.recorder.closedAll = true ∧ s.warningBegins.recorder.warnAt = some s.now := by
  unfold State.warningBegins
  extract_lets held noted logged
  have begins : Keeps 0x6800000005 s noted := State.hullEvent_keeps rfl (State.countHalves_keeps rfl (State.modHull_keeps rfl (.refl _ s)))
  have before : Keeps 0x4800000005 held noted := State.hullEvent_keeps rfl (State.countHalves_keeps rfl (.refl _ held))
  have logs : Keeps 0x4000000000 noted logged := State.logOut_keeps rfl (.refl _ noted)
  have closes : Keeps 0x4c3da0d865 logged (logged.interruptBootWrite.recorderWarn.allHarmless 1 F.HULL_SAG.code) :=
    State.allHarmless_keeps rfl (State.modRecorder_keeps rfl (State.interruptBootWrite_keeps rfl (.refl _ logged)))
  have steady := (State.allHarmless_steady logged.interruptBootWrite.recorderWarn 1 F.HULL_SAG.code).recorder
  obtain ⟨closed, warned⟩ := Recorder.admission_of_steady steady
  have now : logged.interruptBootWrite.now = s.now :=
    (State.interruptBootWrite_keeps rfl (.refl 0x1000 logged)).now.trans (logs.now.trans begins.now)
  refine ⟨?_, ?_, closed, warned.trans (congrArg some now)⟩
  · rw [closes.same .hull rfl, logs.same .hull rfl, before.same .hull rfl]
    rfl
  · exact ((State.logOut_logsOne (begins.running rfl hrun) _ _ _ _ _).logs.keep closes rfl).after begins rfl

theorem execSagRelease_of_none (h : s.hull.sag = false) : exec .sagRelease s = .next s := if_neg (by rw [h]; exact Bool.false_ne_true)

/-- What the release leaves with D0 running. -/
def State.sagReleased (s : State) : State :=
  (((s.modHull fun h => { h with sag := false, sagReleased := some s.now }).hullEvent 2).log F.HULL_SAG_CLEAR R.hull
    (leBytes 4 ((s.now - s.hull.sagAt) / 1000))).recorderResume

theorem execSagRelease_releases (h : s.hull.sag = true) : exec .sagRelease s =
    .next (if s.running then s.sagReleased else s.modHull fun h => { h with sag := false, sagReleased := some s.now }) := if_pos h

/-- The next wheel opens with the recorder's admission as it was. -/
theorem State.openNext_admission (s : State) : s.openNext.recorder.closedAll = s.recorder.closedAll ∧
    s.openNext.recorder.warnAt = s.recorder.warnAt := by
  unfold State.openNext
  split
  next => exact ⟨rfl, rfl⟩
  next slot gone _ =>
    extract_lets n wheel opened stamp rec_
    obtain ⟨cycles, logged, recorder⟩ := (opened.modRecorder fun r => { r with staging := rec_ :: r.staging }).wear_recorder slot
    rw [recorder]
    exact ⟨rfl, rfl⟩

theorem State.recorderResume_admission (s : State) : s.recorderResume.recorder.closedAll = false ∧ s.recorderResume.recorder.warnAt = none := by
  unfold State.recorderResume
  extract_lets resumed
  split
  · obtain ⟨closed, warned⟩ := (resumed.modRecorder fun r => { r with state := resumed.recRunState }).openNext_admission
    exact ⟨closed, warned⟩
  · exact ⟨rfl, rfl⟩

theorem State.sagReleased_spec (hrun : s.running = true) : s.sagReleased.hull = { s.hull with sag := false, sagReleased := some s.now } ∧
    s.Logs s.sagReleased F.HULL_SAG_CLEAR ∧ s.sagReleased.recorder.closedAll = false ∧ s.sagReleased.recorder.warnAt = none ∧
    s.sagReleased.chans = s.chans := by
  unfold State.sagReleased
  generalize hu : (s.modHull fun h => { h with sag := false, sagReleased := some s.now }) = u
  have begins : Keeps 0x2000000000 s u := hu ▸ State.modHull_keeps rfl (.refl _ s)
  have hull : u.hull = { s.hull with sag := false, sagReleased := some s.now } := by rw [← hu]; rfl
  have event : Keeps 0x4800000005 u (u.hullEvent 2) := State.hullEvent_keeps rfl (.refl _ u)
  generalize hv : (u.hullEvent 2).log F.HULL_SAG_CLEAR R.hull (leBytes 4 ((s.now - s.hull.sagAt) / 1000)) = v
  have noted : Keeps 0x4800000005 u v := hv ▸ State.log_keeps rfl event
  have logs : s.Logs v F.HULL_SAG_CLEAR :=
    hv ▸ ((State.log_logsOne (event.running rfl (begins.running rfl hrun)) _ _ _).logs.after event rfl).after begins rfl
  have resumes : Keeps 0x4c00000005 v v.recorderResume := State.recorderResume_keeps rfl (.refl _ v)
  obtain ⟨closed, warned⟩ := v.recorderResume_admission
  refine ⟨?_, logs.keep resumes rfl, closed, warned, ?_⟩
  · rw [resumes.same .hull rfl, noted.same .hull rfl, hull]
  · exact (resumes.same .chans rfl).trans ((noted.same .chans rfl).trans (begins.same .chans rfl))

theorem execSagHoldExpire_of_none (h : s.hull.sagReleased = none ∨ s.hull.sag = true ∨ s.hull.sagHeld = false) :
    exec .sagHoldExpire s = .next s := by
  show execSagHoldExpire s = _
  unfold execSagHoldExpire
  split
  next x hx =>
    refine if_neg ?_
    rintro ⟨sag, held, -⟩
    rcases h with h | h | h
    · exact Option.some_ne_none _ (hx.symm.trans h)
    · exact Bool.false_ne_true (sag.symm.trans h)
    · exact Bool.false_ne_true (h.symm.trans held)
  next => rfl

theorem execSagHoldExpire_of_early {x : Nat} (hx : s.hull.sagReleased = some x) (h : s.now < x + ms s.sagHoldMs) :
    exec .sagHoldExpire s = .next s := by
  show execSagHoldExpire s = _
  unfold execSagHoldExpire
  rw [hx]
  exact if_neg fun k => absurd (of_decide_eq_true k.2.2) (Nat.not_le.2 h)

theorem execSagHoldExpire_ends {x : Nat} (hx : s.hull.sagReleased = some x) (hsag : s.hull.sag = false) (hheld : s.hull.sagHeld = true)
    (h : x + ms s.sagHoldMs ≤ s.now) : exec .sagHoldExpire s =
      .next (((s.modHull fun h => { h with sagHeld := false, sagReleased := none }).clearCauseAll F.HULL_SAG.code).allReturn) := by
  show execSagHoldExpire s = _
  unfold execSagHoldExpire
  rw [hx]
  exact if_pos ⟨hsag, hheld, decide_eq_true h⟩

/-- No cause of the class stands uncleared. -/
theorem State.clearCauseAll_clears (s : State) (cls : Nat) (o : Output) {c : Cause} (hc : c ∈ (s.clearCauseAll cls).standing o)
    (hcls : c.cls = cls) : c.cleared.isSome = true := by
  obtain ⟨e, he, rfl⟩ := List.mem_map.1 hc
  obtain ⟨f, -, rfl⟩ := List.mem_map.1 (List.mem_filter.1 he).1
  revert hcls
  split
  · exact fun _ => rfl
  next h => exact fun hcls => Option.isSome_iff_ne_none.2 fun none => h ⟨hcls, by rw [none]; rfl⟩

end

/-! ## The supply is lost, and comes back (R363, R370, R403) -/

section
variable {s : State}

/-- The state that RESET resets. -/
def State.vbusFallen (s : State) : State :=
  ((if s.hull.sag ∧ s.running then s.countHalves R.hull_SAGS 1 0 else s).hullLog F.HULL_RESET_PRIOR
    (leBytes 4 ((s.now - s.hull.sagAt) / 1000)) ((s.now - s.hull.sagAt) / 1000)).interruptBootWrite

theorem execVbusReset_resets (h : s.hull.running = true) (hr : s.hull.resetOn = false) :
    exec .vbusReset s = .next ((s.vbusFallen.resetDevice .vbus 0).modHull fun h => { h with resetOn := true }) := if_pos ⟨h, hr⟩

theorem execVbusReset_of_none (h : s.hull.running = false ∨ s.hull.resetOn = true) : exec .vbusReset s = .next s := by
  refine if_neg ?_
  rintro ⟨running, quiet⟩
  rcases h with h | h
  · exact Bool.false_ne_true (h.symm.trans running)
  · exact Bool.false_ne_true (quiet.symm.trans h)

theorem State.vbusFallen_lasts (s : State) : s.Lasts s.vbusFallen :=
  ((Keeps.lasts (Keeps.ite (State.countHalves_keeps rfl (.refl _ s)) (.refl _ s))).trans (State.hullLog_lasts _ _ _ _)).trans
    (State.interruptBootWrite_lasts _)

theorem State.vbusFallen_log (s : State) : ∃ e, s.vbusFallen.hull.log.getLast? = some e ∧ e.cls = F.HULL_RESET_PRIOR.code ∧
    e.micros = (s.now - s.hull.sagAt) / 1000 := by
  rw [State.vbusFallen, State.interruptBootWrite_hull]
  exact ⟨_, State.hullLog_last _ _ _ _, rfl, rfl⟩

theorem execVbusBelow18v_of_none (h : s.hull.running = false) : exec .vbusBelow18v s = .next s := if_neg (by rw [h]; exact Bool.false_ne_true)

theorem execVbusBelow18v_stops (h : s.hull.running = true) : exec .vbusBelow18v s =
    .next ((if s.hull.resetOn then s else s.interruptBootWrite.resetDevice .vbus 0).modHull fun h => { h with running := false, alive := false }) :=
  if_pos h

theorem execHullPowerUp_of_none (h : s.hull.running = true) : exec .hullPowerUp s = .next s := if_pos h

theorem execHullPowerUp_starts (h : s.hull.running = false) : exec .hullPowerUp s = .next ((s.resetDevice .power 0).modHull fun _ =>
    { log := s.hull.log, logLost := s.hull.logLost, energy := s.hull.energy, upSince := s.now, feedA := s.hull.feedA, feedB := s.hull.feedB,
      sag := s.hull.sag, sagAt := s.hull.sagAt }) := if_neg (by rw [h]; exact Bool.false_ne_true)

end

/-! ## The hull link (R364, R378, R379) -/

section
variable {s : State}

theorem execHullLinkLost_of_none (h : s.running = false ∨ s.hull.linkOk = false) : exec .hullLinkLost s = .next s := by
  refine if_neg ?_
  rintro ⟨running, ok⟩
  rcases h with h | h
  · exact Bool.false_ne_true (h.symm.trans running)
  · exact Bool.false_ne_true (h.symm.trans ok)

theorem execHullLinkRestored_of_none (h : s.running = false ∨ s.hull.linkOk = true) : exec .hullLinkRestored s = .next s := by
  refine if_neg ?_
  rintro ⟨running, lost⟩
  rcases h with h | h
  · exact Bool.false_ne_true (h.symm.trans running)
  · exact Bool.false_ne_true (lost.symm.trans h)

/-- A change of the hull controller with its event and its entry. -/
theorem State.hullTold (hrun : s.running = true) (f : Hull → Hull) (m : Nat) (c : FaultClass) (data : List Byte) :
    (((s.modHull f).hullEvent m).log c R.hull data).hull = f s.hull ∧ s.Logs (((s.modHull f).hullEvent m).log c R.hull data) c ∧
      Keeps 0x6800000005 s (((s.modHull f).hullEvent m).log c R.hull data) := by
  have before : Keeps 0x6800000005 s ((s.modHull f).hullEvent m) := State.hullEvent_keeps rfl (State.modHull_keeps rfl (.refl _ s))
  exact ⟨State.hullLogged_hull _ _ _ _, (State.log_logsOne (before.running rfl hrun) _ _ _).logs.after before rfl, State.log_keeps rfl before⟩

theorem execHullLinkLost_spec (hrun : s.running = true) (hok : s.hull.linkOk = true) : ∃ t, exec .hullLinkLost s = .next t ∧
    t.hull = { s.hull with linkOk := false, stale := true, linkLostAt := s.now } ∧ s.Logs t F.HULL_LINK_LOST ∧ t.chans = s.chans := by
  obtain ⟨hull, logs, keeps⟩ := State.hullTold hrun (fun h => { h with linkOk := false, stale := true, linkLostAt := s.now }) 8 F.HULL_LINK_LOST
    (leBytes 8 s.hull.linkStamp.toNat)
  exact ⟨_, if_pos ⟨hrun, hok⟩, hull, logs, keeps.same .chans rfl⟩

theorem execHullLinkRestored_spec (hrun : s.running = true) (hlost : s.hull.linkOk = false) : ∃ t, exec .hullLinkRestored s = .next t ∧
    t.hull = { s.hull with linkOk := true, stale := s.im.fwHull.swapping } ∧ s.Logs t F.HULL_LINK_RESTORED ∧ t.chans = s.chans := by
  obtain ⟨hull, logs, keeps⟩ := State.hullTold hrun (fun h => { h with linkOk := true, stale := s.im.fwHull.swapping }) 8 F.HULL_LINK_RESTORED
    (leBytes 4 ((s.now - s.hull.linkLostAt) / 1000))
  exact ⟨_, if_pos ⟨hrun, hlost⟩, hull, logs, keeps.same .chans rfl⟩

theorem execHullAlive_of_none (h : s.hull.running = false) : exec .hullAlive s = .next s := if_neg (by rw [h]; exact Bool.false_ne_true)

theorem execHullAlive_reports (h : s.hull.running = true) : ∃ t, exec .hullAlive s = .next t ∧ t.hull.alive = true ∧
    (s.hull.linkOk = true → t.hull.stale = false) ∧ t.im.fwHull.aliveBy = none ∧ t.im.fwHull.swapping = false ∧
    t = { s with im := t.im, hull := t.hull } := by
  refine ⟨_, if_pos h, rfl, fun hok => ?_, rfl, rfl, rfl⟩
  have stale : (!s.hull.linkOk && s.hull.stale) = false := by rw [hok]; rfl
  exact stale

theorem execTelemetryRefresh_of_none {x : Telemetry} (h : s.running = false ∨ s.hull.linkOk = false ∨ s.hull.stale = true) :
    exec (.telemetryRefresh x) s = .next s := by
  refine if_neg ?_
  rintro ⟨running, ok, fresh⟩
  rcases h with h | h | h
  · exact Bool.false_ne_true (h.symm.trans running)
  · exact Bool.false_ne_true (h.symm.trans ok)
  · exact Bool.false_ne_true (fresh.symm.trans h)

end

/-! ## The power states (R372, R373) -/

section
variable {s t : State} {g : Agent} {c : BitVec 16} {w : Nat}

/-- A request is refused: one entry, and nothing else. -/
def State.PowerRefused (s t : State) : Prop := s.LogsOne t F.POWER_REFUSED ∧ t = { s with ledger := t.ledger }

theorem State.powerRefused_refused (hrun : s.running = true) (req reason : Nat) : s.PowerRefused (s.powerRefused req reason) :=
  State.log_alone hrun _ _ _

theorem execPowerReqRun_of_reset (h : s.running = false) : exec (.powerReqRun g) s = .next s := if_pos (by rw [h]; rfl)
theorem execPowerReqTrim_of_reset (h : s.running = false) : exec (.powerReqTrim g) s = .next s := if_pos (by rw [h]; rfl)
theorem execPowerReqKeep_of_reset (h : s.running = false) : exec (.powerReqKeep g c) s = .next s := if_pos (by rw [h]; rfl)
theorem execPowerReqOff_of_reset (h : s.running = false) : exec (.powerReqOff g c w) s = .next s := if_pos (by rw [h]; rfl)

/-! ### RUN and TRIM -/

theorem execPowerReqRun_of_sag (hrun : s.running = true) (hsag : s.hull.sag = true) :
    exec (.powerReqRun g) s = .next (s.powerRefused 0 2) :=
  (if_neg (by rw [hrun]; exact Bool.false_ne_true)).trans (if_pos hsag)

theorem execPowerReqTrim_of_sag (hrun : s.running = true) (hsag : s.hull.sag = true) :
    exec (.powerReqTrim g) s = .next (s.powerRefused 1 2) :=
  (if_neg (by rw [hrun]; exact Bool.false_ne_true)).trans (if_pos hsag)

/-- What a request for RUN does in a power state. -/
def State.requestRun (s : State) : PowerState → State
  | .run => s.powerRefused 0 3
  | .trim => (s.powerState .run).ungateCause 2
  | .off => s
  | .keep => ((s.powerState .run).leaveKeep).ungateCause 2

theorem execPowerReqRun_of_calm (hrun : s.running = true) (hsag : s.hull.sag = false) :
    exec (.powerReqRun g) s = .next (s.requestRun s.hull.state) := by
  refine ((if_neg (by rw [hrun]; exact Bool.false_ne_true)).trans (if_neg (by rw [hsag]; exact Bool.false_ne_true))).trans ?_
  cases s.hull.state <;> rfl

/-- What a request for TRIM does in a power state. -/
def State.requestTrim (s : State) : PowerState → State
  | .trim => s.powerRefused 1 3
  | .run => (s.powerState .trim).gateUnused
  | .off => s
  | .keep => ((s.powerState .trim).leaveKeep).gateUnused

theorem execPowerReqTrim_of_calm (hrun : s.running = true) (hsag : s.hull.sag = false) :
    exec (.powerReqTrim g) s = .next (s.requestTrim s.hull.state) := by
  refine ((if_neg (by rw [hrun]; exact Bool.false_ne_true)).trans (if_neg (by rw [hsag]; exact Bool.false_ne_true))).trans ?_
  cases s.hull.state <;> rfl

theorem execPowerReqRun_refuses (hrun : s.running = true) (h : s.hull.sag = true ∨ s.hull.state = .run) :
    ∃ t, exec (.powerReqRun g) s = .next t ∧ s.PowerRefused t := by
  cases hsag : s.hull.sag with
  | true => exact ⟨_, execPowerReqRun_of_sag hrun hsag, State.powerRefused_refused hrun _ _⟩
  | false =>
    have same : s.hull.state = .run := h.resolve_left (by rw [hsag]; exact Bool.false_ne_true)
    exact ⟨_, (execPowerReqRun_of_calm hrun hsag).trans (by rw [same]; rfl), State.powerRefused_refused hrun 0 3⟩

theorem execPowerReqTrim_refuses (hrun : s.running = true) (h : s.hull.sag = true ∨ s.hull.state = .trim) :
    ∃ t, exec (.powerReqTrim g) s = .next t ∧ s.PowerRefused t := by
  cases hsag : s.hull.sag with
  | true => exact ⟨_, execPowerReqTrim_of_sag hrun hsag, State.powerRefused_refused hrun _ _⟩
  | false =>
    have same : s.hull.state = .trim := h.resolve_left (by rw [hsag]; exact Bool.false_ne_true)
    exact ⟨_, (execPowerReqTrim_of_calm hrun hsag).trans (by rw [same]; rfl), State.powerRefused_refused hrun 1 3⟩

theorem State.powerState_hull (s : State) (new : PowerState) (wake : Nat) : (s.powerState new wake).hull = { s.hull with state := new } :=
  State.hullLogged_hull _ _ _ _

theorem State.leaveKeep_hull (s : State) : s.leaveKeep.hull = { s.hull with keepAt := none, offDue := false } :=
  (State.allReturn_keeps rfl (State.ungateCause_keeps rfl (.refl 0x5808000 _))).same .hull rfl

/-- The request has been taken: the state is the one asked for, with memory and configuration as they were. -/
structure State.PowerSet (s t : State) (new : PowerState) : Prop where
  state  : t.hull.state = new
  leaves : s.hull.state = .keep → t.hull.keepAt = none ∧ t.hull.offDue = false
  keeps  : Keeps 0x6805808005 s t

theorem State.powerState_sets {new : PowerState} {u : State} (hk : s.hull.state ≠ .keep) (hu : Keeps 0x1008001 (s.powerState new) u) :
    s.PowerSet u new := by
  refine ⟨?_, fun k => absurd k hk, (State.powerState_keeps rfl (.refl _ s)).trans (hu.widen rfl)⟩
  rw [hu.same .hull rfl, State.powerState_hull]

theorem State.leaveKeep_sets {new : PowerState} {u : State} (hu : Keeps 0x1008001 (s.powerState new).leaveKeep u) :
    s.PowerSet u new := by
  have hull : u.hull = { s.hull with state := new, keepAt := none, offDue := false } := by
    rw [hu.same .hull rfl, State.leaveKeep_hull, State.powerState_hull]
  exact ⟨by rw [hull], fun _ => by rw [hull]; exact ⟨rfl, rfl⟩,
    (State.leaveKeep_keeps rfl (State.powerState_keeps rfl (.refl _ s))).trans (hu.widen rfl)⟩

theorem execPowerReqRun_sets (hrun : s.running = true) (hsag : s.hull.sag = false) (h : s.hull.state = .trim ∨ s.hull.state = .keep) :
    ∃ t, exec (.powerReqRun g) s = .next t ∧ s.PowerSet t .run := by
  refine ⟨_, execPowerReqRun_of_calm hrun hsag, ?_⟩
  rcases h with h | h
  · have sets := State.powerState_sets (new := .run) (h ▸ (by decide)) (State.ungateCause_keeps (cause := 2) rfl (.refl _ (s.powerState .run)))
    rw [h]
    exact sets
  · have sets := State.leaveKeep_sets (s := s) (new := .run) (State.ungateCause_keeps (cause := 2) rfl (.refl _ _))
    rw [h]
    exact sets

theorem execPowerReqTrim_sets (hrun : s.running = true) (hsag : s.hull.sag = false) (h : s.hull.state = .run ∨ s.hull.state = .keep) :
    ∃ t, exec (.powerReqTrim g) s = .next t ∧ s.PowerSet t .trim := by
  refine ⟨_, execPowerReqTrim_of_calm hrun hsag, ?_⟩
  rcases h with h | h
  · have sets := State.powerState_sets (new := .trim) (h ▸ (by decide)) (State.gateUnused_keeps rfl (.refl _ (s.powerState .trim)))
    rw [h]
    exact sets
  · have sets := State.leaveKeep_sets (s := s) (new := .trim) (State.gateUnused_keeps rfl (.refl _ _))
    rw [h]
    exact sets

/-! ### KEEP and OFF -/

theorem execPowerReqKeep_refuses (hrun : s.running = true) (h : confirmed c = false ∨ s.hull.sag = true ∨ s.hull.state = .keep) :
    ∃ t, exec (.powerReqKeep g c) s = .next t ∧ s.PowerRefused t := by
  show ∃ t, execPowerReqKeep g c s = .next t ∧ _
  unfold execPowerReqKeep
  dsimp only
  rw [if_neg (by rw [hrun]; exact Bool.false_ne_true)]
  split
  next => exact ⟨_, rfl, State.powerRefused_refused hrun _ _⟩
  next confirms =>
    split
    next => exact ⟨_, rfl, State.powerRefused_refused hrun _ _⟩
    next calm =>
      have keep : s.hull.state = .keep := (h.resolve_left (by simpa using confirms)).resolve_left calm
      rw [keep]
      exact ⟨_, rfl, State.powerRefused_refused hrun _ _⟩

theorem execPowerReqKeep_of_off (hrun : s.running = true) (hc : confirmed c = true) (hsag : s.hull.sag = false) (h : s.hull.state = .off) :
    exec (.powerReqKeep g c) s = .next s := by
  show execPowerReqKeep g c s = _
  unfold execPowerReqKeep
  simp [hrun, hc, hsag, h]

theorem execPowerReqKeep_begins (hrun : s.running = true) (hc : confirmed c = true) (hsag : s.hull.sag = false)
    (h : s.hull.state = .run ∨ s.hull.state = .trim) : exec (.powerReqKeep g c) s = .next (s.powerState .keep).keepBegins := by
  have off : s.hull.state ≠ .off := by rcases h with h | h <;> simp [h]
  have keep : s.hull.state ≠ .keep := by rcases h with h | h <;> simp [h]
  show execPowerReqKeep g c s = _
  unfold execPowerReqKeep
  simp [hrun, hc, hsag, off, keep]

theorem State.keepBegins_hull (s : State) : s.keepBegins.hull = { s.hull with keepAt := some (s.hull.keepAt.getD s.now) } :=
  (State.allHarmless_keeps rfl (.refl 0x4c3da0c865 _)).same .hull rfl

theorem State.powerState_now (s : State) (new : PowerState) (wake : Nat) : (s.powerState new wake).now = s.now :=
  (State.powerState_keeps rfl (.refl 0x6800000005 s)).now

theorem execPowerReqOff_refuses (hrun : s.running = true) (h : confirmed c = false ∨ s.hull.sag = true ∨ s.hull.state = .off) :
    ∃ t, exec (.powerReqOff g c w) s = .next t ∧ s.PowerRefused t := by
  show ∃ t, execPowerReqOff g c w s = .next t ∧ _
  unfold execPowerReqOff
  dsimp only
  rw [if_neg (by rw [hrun]; exact Bool.false_ne_true)]
  split
  next => exact ⟨_, rfl, State.powerRefused_refused hrun _ _⟩
  next confirms =>
    split
    next => exact ⟨_, rfl, State.powerRefused_refused hrun _ _⟩
    next calm =>
      have off : s.hull.state = .off := (h.resolve_left (by simpa using confirms)).resolve_left calm
      rw [if_pos off]
      exact ⟨_, rfl, State.powerRefused_refused hrun _ _⟩

/-- OFF has been asked for. -/
def State.offAsked (s : State) (w : Nat) : State :=
  (s.powerState .off (w % 0x4000)).modHull fun h => { h with offDue := true, wakeS := w % 0x4000 }

theorem execPowerReqOff_begins (hrun : s.running = true) (hc : confirmed c = true) (hsag : s.hull.sag = false) (h : s.hull.state ≠ .off) :
    exec (.powerReqOff g c w) s = .next ((s.offAsked w).keepBegins.sealWheel sealDemand) := by
  show execPowerReqOff g c w s = _
  unfold execPowerReqOff
  simp only [hrun, hc, hsag, h, Bool.not_true, Bool.false_eq_true, if_false]
  rfl

theorem State.offAsked_hull (s : State) (w : Nat) :
    (s.offAsked w).hull = { s.hull with state := .off, offDue := true, wakeS := w % 0x4000 } := by
  have hull := s.powerState_hull .off (w % 0x4000)
  generalize hu : s.powerState .off (w % 0x4000) = u at hull
  rw [State.offAsked, hu]
  show ({ u.hull with offDue := true, wakeS := w % 0x4000 } : Hull) = _
  rw [hull]

theorem execPowerReqOff_spec (hrun : s.running = true) (hc : confirmed c = true) (hsag : s.hull.sag = false) (h : s.hull.state ≠ .off) :
    ∃ t, exec (.powerReqOff g c w) s = .next t ∧ (∀ o, t.heldDown o = true) ∧ Keeps 0x6c3da0c865 s t ∧
      t.hull = { s.hull with state := .off, offDue := true, wakeS := w % 16384, keepAt := some (s.hull.keepAt.getD s.now) } := by
  have sealing : Keeps 0x4c00000005 (s.offAsked w).keepBegins ((s.offAsked w).keepBegins.sealWheel sealDemand) :=
    State.sealWheel_keeps rfl (.refl _ _)
  have asked : Keeps 0x6800000005 s (s.offAsked w) := State.modHull_keeps rfl (State.powerState_keeps rfl (.refl _ s))
  have begins : Keeps 0x6c3da0c865 (s.offAsked w) (s.offAsked w).keepBegins := State.allHarmless_keeps rfl (State.modHull_keeps rfl (.refl _ _))
  have hull : ((s.offAsked w).keepBegins.sealWheel sealDemand).hull =
      { s.hull with state := .off, offDue := true, wakeS := w % 16384, keepAt := some (s.hull.keepAt.getD s.now) } := by
    rw [sealing.same .hull rfl, State.keepBegins_hull, State.offAsked_hull, State.now, asked.now, State.now]
  refine ⟨_, execPowerReqOff_begins hrun hc hsag h, fun o => State.heldDown_of_keep (by rw [hull]; rfl) o,
    (asked.widen rfl).trans (begins.trans (sealing.widen rfl)), hull⟩

theorem execPowerReqKeep_spec (hrun : s.running = true) (hc : confirmed c = true) (hsag : s.hull.sag = false)
    (h : s.hull.state = .run ∨ s.hull.state = .trim) : ∃ t, exec (.powerReqKeep g c) s = .next t ∧
      t.hull = { s.hull with state := .keep, keepAt := some (s.hull.keepAt.getD s.now) } ∧ (∀ o, t.heldDown o = true) ∧ Keeps 0x6c3da0c865 s t := by
  have asked : Keeps 0x6800000005 s (s.powerState .keep) := State.powerState_keeps rfl (.refl _ s)
  have begins : Keeps 0x6c3da0c865 (s.powerState .keep) (s.powerState .keep).keepBegins :=
    State.allHarmless_keeps rfl (State.modHull_keeps rfl (.refl _ _))
  have hull : (s.powerState .keep).keepBegins.hull = { s.hull with state := .keep, keepAt := some (s.hull.keepAt.getD s.now) } := by
    rw [State.keepBegins_hull, State.powerState_hull, State.powerState_now]
  exact ⟨_, execPowerReqKeep_begins hrun hc hsag h, hull, fun o => State.heldDown_of_keep (by rw [hull]; rfl) o, (asked.widen rfl).trans begins⟩

end

/-! ## KEEP_GATE (R373) -/

/-! ### A time source that is lost touches the pins, the servo and start-up -/

section
variable {A : Nat} {z s : State}

theorem State.servoTo_light {new : ServoState} (hA : 0xc800000925 &&& A = 0xc800000925) (h : Keeps A z s) : Keeps A z (s.servoTo new) := by
  unfold State.servoTo
  extract_lets old x y u v
  split
  · exact h
  have hx : Keeps A z x := State.modServo_keeps (Part.sub hA rfl) h
  have hy : Keeps A z y := Keeps.ite (State.holdFrequency_keeps (Part.sub hA rfl) hx) hx
  have hu : Keeps A z u := State.timeNoted_keeps (Part.sub hA rfl) hy
  have hv : Keeps A z v := Keeps.ite (State.modStartup_keeps (Part.sub hA rfl) hu fun _ _ => (by decide : 2 ≤ 7)) hu
  split
  · exact hv.trans (v.lockLost_keeps_tiles.widen (Part.sub hA rfl))
  · exact Keeps.ite (State.clearCauseAll_keeps (Part.sub hA rfl) hv) hv

theorem State.toHoldover_light (hA : 0xc800000925 &&& A = 0xc800000925) (h : Keeps A z s) : Keeps A z s.toHoldover :=
  State.servoTo_light hA (State.log_keeps (Part.sub hA rfl) (State.modServo_keeps (Part.sub hA rfl) h))

theorem State.pathStep_light {i : Nat} {mpd off : Int} (hA : 0xc800000b25 &&& A = 0xc800000b25) (h : Keeps A z s) :
    Keeps A z (s.pathStep i mpd off) :=
  State.servoTo_light (Part.sub hA rfl) (State.modServo_keeps (Part.sub hA rfl)
    (State.mapPtp_keeps (Part.sub hA rfl) (State.timeNoted_keeps (Part.sub hA rfl) h)))

theorem State.takeSource_light {new : Option Source} (hA : 0xc800000b25 &&& A = 0xc800000b25) (h : Keeps A z s) :
    Keeps A z (s.takeSource new) := by
  unfold State.takeSource
  extract_lets old state was x y
  split
  · exact h
  have hx : Keeps A z x := State.modServo_keeps (Part.sub hA rfl) h
  have hy : Keeps A z y := State.timeNoted_keeps (Part.sub hA rfl) hx
  have hserve (f : Servo → Servo) : Keeps A z (y.modServo f) := State.modServo_keeps (Part.sub hA rfl) hy
  have hslew (c : Source) : Keeps A z (y.slewIn c) := hserve _
  have hstep (i : Nat) (mpd off : Int) : Keeps A z (y.pathStep i mpd off) := State.pathStep_light hA hy
  clear_value y state
  split
  · exact State.servoTo_light (Part.sub hA rfl) (hserve _)
  · exact State.servoTo_light (Part.sub hA rfl) hy
  · exact hserve _
  · exact State.toHoldover_light (Part.sub hA rfl) hy
  · exact Keeps.ite (hslew _) (hstep _ _ _)
  · exact Keeps.ite hy (Keeps.ite (State.modServo_keeps (Part.sub hA rfl) (hslew _)) (hstep _ _ _))
  · exact Keeps.ite (State.servoTo_light (Part.sub hA rfl) (hslew _)) (hstep _ _ _)
  · exact hy

theorem State.ptpPortDown_light {p : Nat} (hA : 0xc800000b25 &&& A = 0xc800000b25) (h : Keeps A z s) : Keeps A z (s.ptpPortDown p) := by
  unfold State.ptpPortDown
  refine Keeps.foldl (fun t i ht => ?_) (State.takeSource_light hA h)
  exact Keeps.ite (State.setInst_keeps (Part.sub hA rfl) ht) ht

/-- A port that leaves: no attempt follows. -/
theorem State.portDown_light {p cause : Nat} (hcause : cause = 6 ∨ cause = 7 ∨ cause = 9) (hA : 0xc808860b25 &&& A = 0xc808860b25)
    (h : Keeps A z s) : Keeps A z (s.portDown p cause) := by
  unfold State.portDown
  extract_lets old long a b c sev told d e
  split
  · exact h
  have ha : Keeps A z a := Keeps.foldl (fun _ _ h => State.aimTaps_keeps (Part.sub hA rfl) h) h
  have hb : Keeps A z b := State.modPort_keeps (Part.sub hA rfl) (State.count_keeps (Part.sub hA rfl) ha)
  have hc : Keeps A z c := Keeps.foldl (fun _ _ h => State.modLane_keeps (Part.sub hA rfl) h) hb
  have hd : Keeps A z d := State.noted_keeps (Part.sub hA rfl) hc
  have he : Keeps A z e := State.pairLinkMoved_keeps (Part.sub hA rfl)
    (State.ptpPortDown_light (Part.sub hA rfl) (State.dropQueue_keeps (Part.sub hA rfl) hd))
  exact he

/-- A group leaves without a tile entering or leaving service, and without a record. -/
theorem State.groupLeave_light {g : Nat} (hA : 0xc808860b25 &&& A = 0xc808860b25) (h : Keeps A z s) : Keeps A z (s.groupLeave g) := by
  unfold State.groupLeave
  exact Keeps.foldl (fun _ _ h => State.modPort_keeps (Part.sub hA rfl) (State.portDown_light (.inr (.inr rfl)) hA h)) h

end

/-! ### The tiles -/

section
variable {s : State}

/-- A tile that is gated. -/
theorem State.tile_gate (s : State) (d t cause n : Nat) :
    (s.gate d t cause).tile n = if n = tileNo d t then { s.tile n with state := .gated, cause := cause } else s.tile n := by
  let u := s.modTile (tileNo d t) fun x => { x with state := .gated, cause := cause }
  have rest : Keeps 0x1000001 u (s.gate d t cause) := by
    have cleared : Keeps 0x1000001 u (u.clearTileRegs d t) := State.clearTileRegs_keeps rfl (.refl _ u)
    unfold State.gate
    dsimp only
    split
    · exact State.modCoder_keeps rfl cleared
    · exact cleared
  rw [State.tile_of_tiles (rest.same .tiles rfl)]
  show (s.setTile (tileNo d t) { s.tile (tileNo d t) with state := .gated, cause := cause }).tile n = _
  rw [State.tile_setTile]
  split
  next h => rw [h]
  next => rfl

/-- For KEEP and OFF every tile but the recorder's is gated. -/
def State.keepTile (s : State) (x : Nat × Nat) : State :=
  if x = (7, 1) ∨ (s.tile (tileNo x.1 x.2)).state = .gated then s else s.gate x.1 x.2 3

theorem State.keepTile_keeps {A : Nat} {z : State} {x : Nat × Nat} (hA : 0x1008001 &&& A = 0x1008001) (h : Keeps A z s) : Keeps A z (s.keepTile x) :=
  Keeps.ite h (State.gate_keeps hA h)

/-- A gated tile stays gated. -/
theorem State.keepTile_gated {n : Nat} (h : (s.tile n).state = .gated) (x : Nat × Nat) : ((s.keepTile x).tile n).state = .gated := by
  unfold State.keepTile
  split
  · exact h
  · rw [State.tile_gate]
    split
    · rfl
    · exact h

theorem State.keepTile_gates (s : State) {x : Nat × Nat} (h : x ≠ (7, 1)) : ((s.keepTile x).tile (tileNo x.1 x.2)).state = .gated := by
  unfold State.keepTile
  split
  next was => exact was.resolve_left h
  next => rw [State.tile_gate, if_pos rfl]

theorem State.foldl_keepTile_gates {l : List (Nat × Nat)} {x : Nat × Nat} (hx : x ∈ l) (h : x ≠ (7, 1)) (s : State) :
    ((l.foldl State.keepTile s).tile (tileNo x.1 x.2)).state = .gated :=
  State.foldl_reaches (P := fun x y => x ≠ (7, 1) → (y.tile (tileNo x.1 x.2)).state = .gated) (fun y _ => y.keepTile_gates)
    (fun _ _ c hy h => State.keepTile_gated (hy h) c) hx s h

theorem tile_lt {d t : Nat} (h : (d, t) ∈ allTiles) : t < 256 := by
  have small : ∀ d ∈ [1, 2, 3, 4, 5, 6, 7], ∀ t ∈ domainTiles d, t < 256 := by decide
  obtain ⟨e, he, ht⟩ := List.mem_flatMap.1 h
  obtain ⟨u, hu, eq⟩ := List.mem_map.1 ht
  cases eq
  exact small _ he _ hu

/-- The recorder's tile stays as it is. -/
theorem State.foldl_keepTile_recorder (s : State) : (allTiles.foldl State.keepTile s).tile (tileNo 7 1) = s.tile (tileNo 7 1) := by
  have apart (x : Nat × Nat) (hx : x ∈ allTiles) (hne : x ≠ (7, 1)) : tileNo 7 1 ≠ tileNo x.1 x.2 := fun h => by
    obtain ⟨d, t⟩ := x
    have small := tile_lt hx
    simp only [tileNo] at h
    exact hne (Prod.ext (by dsimp only; omega) (by dsimp only; omega))
  refine List.foldlRecOn (motive := fun y => State.tile y (tileNo 7 1) = s.tile (tileNo 7 1)) allTiles _ rfl fun y hy x hx => ?_
  unfold State.keepTile
  split
  next => exact hy
  next h => rw [State.tile_gate, if_neg (apart x hx fun k => h (.inl k)), hy]

/-! ### The row -/

theorem execKeepGate_of_reset (h : s.running = false) : exec .keepGate s = .next s := by
  show execKeepGate s = _
  unfold execKeepGate
  split
  · exact if_neg fun k => Bool.false_ne_true (h.symm.trans k.1)
  · rfl

theorem execKeepGate_of_none (h : s.hull.keepAt = none) : exec .keepGate s = .next s := by
  show execKeepGate s = _
  unfold execKeepGate
  rw [h]

theorem execKeepGate_of_early {x : Nat} (hx : s.hull.keepAt = some x) (h : s.now < x + 16 * s.slowestPeriod) : exec .keepGate s = .next s := by
  show execKeepGate s = _
  unfold execKeepGate
  rw [hx]
  exact if_neg fun k => absurd (of_decide_eq_true k.2) (Nat.not_le.2 h)

/-- The state that OFF resets. -/
def State.offGated (s : State) : State :=
  (s.hullLog F.POWER_STATE (leBytes 1 2 ++ leBytes 1 3 ++ leBytes 4 s.hull.wakeS)).interruptBootWrite

theorem execKeepGate_off {x : Nat} (hx : s.hull.keepAt = some x) (hrun : s.running = true) (h : x + 16 * s.slowestPeriod ≤ s.now)
    (hoff : s.hull.offDue = true) : ∃ now count, now = s.now ∧ count = s.startup.count ∧ exec .keepGate s =
      .next (((s.offGated.resetDevice .power 0).modStartup fun x => { x with count := count }).modHull fun h =>
        { h with state := .off, wakeAt := if s.hull.wakeS = 0 then none else some (now + sec s.hull.wakeS), wakeS := 0 }) := by
  have logged := s.hullLog_lasts F.POWER_STATE (leBytes 1 2 ++ leBytes 1 3 ++ leBytes 4 s.hull.wakeS) 0
  refine ⟨_, _, logged.now, congrArg Startup.count logged.startup, ?_⟩
  show execKeepGate s = _
  unfold execKeepGate
  rw [hx]
  exact (if_pos ⟨hrun, decide_eq_true h⟩).trans (if_pos hoff)

/-- The media groups have left and the tiles are gated. -/
def State.keepGated (s : State) : State := allTiles.foldl State.keepTile ((List.range 4).foldl (fun s g => s.groupLeave g) s)

/-- The media ports are DOWN and their lanes idle. -/
def State.mediaDown (s : State) : State :=
  { s with
    ports := s.ports.mapVals (fun _ => {}) fun n p =>
      if n < 32 then { p with state := if p.state = .disabled then .disabled else .down, step := 0, backoff := none } else p
    lanes := s.lanes.mapVals (fun _ => {}) fun n l => if n < 32 then { l with state := .idle } else l }

theorem State.mediaDown_keeps (s : State) : Keeps 0x60000 s s.mediaDown :=
  Keeps.upd (.refl _ s) rfl rfl rfl rfl rfl rfl rfl rfl id (by intro p hp; cases p <;> first | rfl | cases hp)

theorem execKeepGate_keep {x : Nat} (hx : s.hull.keepAt = some x) (hrun : s.running = true) (h : x + 16 * s.slowestPeriod ≤ s.now)
    (hoff : s.hull.offDue = false) : exec .keepGate s = .next s.keepGated.mediaDown := by
  show execKeepGate s = _
  unfold execKeepGate
  rw [hx]
  exact (if_pos ⟨hrun, decide_eq_true h⟩).trans (if_neg (by rw [hoff]; exact Bool.false_ne_true))

theorem State.keepGated_keeps (s : State) : Keeps 0xc809868b25 s s.keepGated :=
  Keeps.foldl (fun _ _ h => State.keepTile_keeps rfl h) (Keeps.foldl (fun _ _ h => State.groupLeave_light rfl h) (.refl _ s))

theorem State.keepGated_recorder (s : State) : s.keepGated.tile (tileNo 7 1) = s.tile (tileNo 7 1) := by
  have left : Keeps 0xc808860b25 s ((List.range 4).foldl (fun s g => s.groupLeave g) s) :=
    Keeps.foldl (fun _ _ h => State.groupLeave_light rfl h) (.refl _ s)
  rw [State.keepGated, State.foldl_keepTile_recorder, State.tile_of_tiles (left.same .tiles rfl)]

/-! ## WAKE_TIMER -/

theorem execWakeTimer_of_none (h : s.hull.wakeAt = none ∨ s.hull.state ≠ .off ∨ s.hull.latchedOff = true) : exec .wakeTimer s = .next s := by
  show execWakeTimer s = _
  unfold execWakeTimer
  split
  next x hx =>
    refine if_neg ?_
    rintro ⟨-, off, free⟩
    rcases h with h | h | h
    · exact Option.some_ne_none _ (hx.symm.trans h)
    · exact h off
    · exact Bool.false_ne_true (free.symm.trans h)
  next => rfl

theorem execWakeTimer_of_early {x : Nat} (hx : s.hull.wakeAt = some x) (h : s.now < x) : exec .wakeTimer s = .next s := by
  show execWakeTimer s = _
  unfold execWakeTimer
  rw [hx]
  exact if_neg fun k => absurd (of_decide_eq_true k.1) (Nat.not_le.2 h)

/-- The module wakes. -/
def State.woken (s : State) : State :=
  (s.modHull fun h => { h with state := .run, wakeAt := none }).modStartup fun x => { x with kind := .wake, count := min 0xFFFFFFFF (x.count + 1) }

theorem execWakeTimer_wakes {x : Nat} (hx : s.hull.wakeAt = some x) (h : x ≤ s.now) (hoff : s.hull.state = .off)
    (hfree : s.hull.latchedOff = false) : exec .wakeTimer s = .next s.woken.startRails := by
  show execWakeTimer s = _
  unfold execWakeTimer
  rw [hx]
  exact if_pos ⟨decide_eq_true h, hoff, hfree⟩

theorem State.startRails_state (s : State) : s.startRails.hull.state = s.hull.state ∧ s.startRails.hull.wakeAt = s.hull.wakeAt := by
  cases hmay : s.mayStartRails with
  | true => rw [State.startRails_of_may hmay]; exact ⟨rfl, rfl⟩
  | false => rw [State.startRails_of_kept hmay]; exact ⟨rfl, rfl⟩

end

/-! ## The statement -/

/-- A reset that does not count. -/
theorem State.Cleared.recount {s t : State} {k : ResetKind} (h : s.Cleared t k) (n : Nat) :
    s.Cleared (t.modStartup fun x => { x with count := n }) k := h

/-- Settles O56: the warning, the resets and the power states are each their change of the hull controller with what it notes, and
KEEP_GATE leaves the recorder's tile and store alone, since only a time source is chosen anew when the groups leave. -/
theorem supplyWarningAndPowerStates : Obligations.SupplyWarningAndPowerStates := by
  unfold Obligations.SupplyWarningAndPowerStates
  intro cleared wasReset g s
  refine ⟨?sag, fun v => execHullSag_of_none, ?release, fun hsag hrun => ?releaseEarly, execSagRelease_of_none, execSagHoldExpire_of_none,
    ?hold, ?vbus, execVbusReset_of_none, rfl, ?below, fun hrun hon => ?belowReset, fun hrun => ⟨execVbusBelow18v_of_none hrun, ?powerUp⟩,
    execHullPowerUp_of_none, execHullLinkLost_spec, execHullLinkLost_of_none, execHullLinkRestored_of_none, execHullAlive_of_none,
    execHullLinkRestored_spec, execHullAlive_reports, fun x => ⟨?telemetry, execTelemetryRefresh_of_none⟩, fun hrun c w => ?reset, ?requests,
    execKeepGate_of_reset, ?gate, execKeepGate_of_none, ?wake, execWakeTimer_of_none⟩
  case sag =>
    intro v hsag hv
    have run := execHullSag_begins hsag hv
    refine ⟨fun hrun => ?_, fun hrun => ?_⟩
    · rw [if_pos hrun] at run
      obtain ⟨hull, logs, closed, warned⟩ :=
        (s.modHull fun h => { h with sag := true, sagAt := s.now, vbus := v }).warningBegins_spec hrun
      exact ⟨_, run, hull, State.heldDown_of_sag (by rw [hull]), logs, closed, warned⟩
    · rw [run, if_neg (by rw [hrun]; exact Bool.false_ne_true)]
      rfl
  case release =>
    intro hsag hrun
    have run := execSagRelease_releases hsag
    rw [if_pos hrun] at run
    exact ⟨_, run, State.sagReleased_spec hrun⟩
  case releaseEarly =>
    rw [execSagRelease_releases hsag, if_neg (by rw [hrun]; exact Bool.false_ne_true)]
    rfl
  case hold =>
    intro x hx hsag hheld
    have period : ms s.sagHoldMs = s.sagHoldMs * 1000000 := Nat.mul_comm _ _
    rw [← period]
    refine ⟨fun h => ?_, execSagHoldExpire_of_early hx⟩
    have run := execSagHoldExpire_ends hx hsag hheld h
    generalize hu : s.modHull (fun h => { h with sagHeld := false, sagReleased := none }) = u at run
    have hull : u.hull = { s.hull with sagHeld := false, sagReleased := none } := by rw [← hu]; rfl
    have begins : Keeps 0x2000000000 s u := hu ▸ State.modHull_keeps rfl (.refl _ s)
    have returns : Keeps 0x4800000 (u.clearCauseAll F.HULL_SAG.code) (u.clearCauseAll F.HULL_SAG.code).allReturn := State.allReturn_keeps rfl (.refl _ _)
    have ends : Keeps 0x4004800000 u (u.clearCauseAll F.HULL_SAG.code).allReturn :=
      (State.clearCauseAll_keeps rfl (.refl 0x4004800000 u)).trans (returns.widen rfl)
    refine ⟨_, run, (ends.same .hull rfl).trans hull, fun o c hc hcls => ?_, (ends.same .recorder rfl).trans (begins.same .recorder rfl),
      (ends.same .regs rfl).trans (begins.same .regs rfl)⟩
    have causes : (u.clearCauseAll F.HULL_SAG.code).allReturn.standing o = (u.clearCauseAll F.HULL_SAG.code).standing o := by
      rw [State.standing, returns.same .ledger rfl, State.standing]
    exact u.clearCauseAll_clears _ o (causes ▸ hc) hcls
  case vbus =>
    intro hrun hr
    obtain ⟨e, last, cls, micros⟩ := s.vbusFallen_log
    have lasts := s.vbusFallen_lasts
    exact ⟨_, e, execVbusReset_resets hrun hr, ⟨(lasts.reset .vbus).modHull rfl, lasts.reset_count .vbus⟩, rfl, last, cls, micros⟩
  case below =>
    intro hrun hr
    have lasts := s.interruptBootWrite_lasts
    have run := execVbusBelow18v_stops hrun
    rw [if_neg (by rw [hr]; exact Bool.false_ne_true)] at run
    refine ⟨_, run, ⟨(lasts.reset .vbus).modHull rfl, lasts.reset_count .vbus⟩, rfl, ?_⟩
    show s.interruptBootWrite.hull.log = s.hull.log
    rw [s.interruptBootWrite_hull]
  case belowReset =>
    rw [execVbusBelow18v_stops hrun, if_pos hon]
    rfl
  case powerUp =>
    have lasts : s.Lasts s := ⟨rfl, rfl, rfl, rfl, rfl, rfl⟩
    exact ⟨_, execHullPowerUp_starts hrun, ⟨(lasts.reset .power).modHull rfl, lasts.reset_count .power⟩, rfl, rfl, rfl, rfl⟩
  case telemetry =>
    intro hrun hok fresh
    exact ⟨_, if_pos ⟨hrun, hok, fresh⟩, rfl, rfl, rfl, rfl, rfl, rfl, rfl, rfl⟩
  case reset =>
    exact ⟨execPowerReqRun_of_reset hrun, execPowerReqTrim_of_reset hrun, execPowerReqKeep_of_reset hrun, execPowerReqOff_of_reset hrun⟩
  case requests =>
    intro hrun refused
    refine ⟨fun hsag off => ⟨?_, ?_, fun c hc => execPowerReqKeep_of_off hrun hc hsag off⟩, execPowerReqRun_refuses hrun,
      fun hsag h => ?_, execPowerReqTrim_refuses hrun, fun hsag h => ?_, fun c => execPowerReqKeep_refuses hrun, fun c hc hsag h => ?_,
      fun c w => execPowerReqOff_refuses hrun, fun c w hc hsag h => ?_⟩
    · rw [execPowerReqRun_of_calm hrun hsag, off]
      rfl
    · rw [execPowerReqTrim_of_calm hrun hsag, off]
      rfl
    · obtain ⟨t, run, sets⟩ := execPowerReqRun_sets (g := g) hrun hsag h
      exact ⟨t, run, sets.state, sets.keeps.same .mem rfl, sets.keeps.same .config rfl, fun k => sets.leaves (h.resolve_left k)⟩
    · obtain ⟨t, run, sets⟩ := execPowerReqTrim_sets (g := g) hrun hsag h
      exact ⟨t, run, sets.state, sets.keeps.same .mem rfl, sets.keeps.same .config rfl, fun k => sets.leaves (h.resolve_left k)⟩
    · obtain ⟨t, run, hull, held, keeps⟩ := execPowerReqKeep_spec (g := g) hrun hc hsag h
      exact ⟨t, run, hull, held, keeps.same .mem rfl, keeps.same .config rfl⟩
    · obtain ⟨t, run, held, keeps, hull⟩ := execPowerReqOff_spec (g := g) (w := w) hrun hc hsag h
      exact ⟨t, run, held, keeps.same .mem rfl, keeps.same .config rfl, hull⟩
  case gate =>
    intro x hx hrun
    refine ⟨execKeepGate_of_early hx, fun h => ⟨fun hoff => ?_, fun hkeep => ?_⟩⟩
    · obtain ⟨now, count, rfl, rfl, run⟩ := execKeepGate_off hx hrun h hoff
      have lasts : s.Lasts s.offGated := (s.hullLog_lasts _ _ _).trans (State.interruptBootWrite_lasts _)
      refine ⟨_, run, ((lasts.reset .power).recount _).modHull rfl, rfl, rfl, ?_⟩
      rw [Nat.mul_comm s.hull.wakeS]
      rfl
    · have keeps := s.keepGated_keeps
      have hull : s.keepGated.hull = s.hull := keeps.same .hull rfl
      have recorder : s.keepGated.recorder = s.recorder := keeps.same .recorder rfl
      have gates (d n : Nat) (hd : (d, n) ∈ allTiles) (hne : (d, n) ≠ (7, 1)) : (s.keepGated.tile (tileNo d n)).state = .gated :=
        State.foldl_keepTile_gates hd hne _
      have stays := s.keepGated_recorder
      refine ⟨_, execKeepGate_keep hx hrun h hkeep, ?_⟩
      generalize s.keepGated = u at hull recorder gates stays
      have downs := u.mediaDown_keeps
      have tile (n : Nat) : u.mediaDown.tile n = u.tile n := State.tile_of_tiles (downs.same .tiles rfl) n
      refine ⟨(downs.same .hull rfl).trans hull, ?_, fun d n hd hne => (congrArg Tile.state (tile _)).trans (gates d n hd hne), (tile _).trans stays⟩
      exact (congrArg Recorder.store (downs.same .recorder rfl)).trans (congrArg Recorder.store recorder)
  case wake =>
    intro x hx hoff hfree
    refine ⟨fun h => ?_, execWakeTimer_of_early hx⟩
    have run := execWakeTimer_wakes hx h hoff hfree
    have eq := s.woken.startRails_eq
    obtain ⟨state, wakeAt⟩ := s.woken.startRails_state
    have startup : s.woken.startRails.startup = s.woken.startup := (State.startRails_keeps rfl (.refl 0x2000000000 s.woken)).same .startup rfl
    refine ⟨_, run, state, wakeAt, startup, ?_, fun hrun htrip hreset hpin hrails hstart => State.startRails_starting ?_⟩
    · rw [startup]
      exact eq
    · simp [State.mayStartRails, State.woken, State.modHull, State.modStartup, hrun, htrip, hreset, hpin, hrails, hstart, hfree]

end Sys2Proof.Machine
end

section
/-!
PROOF. Phases 3 to 8 of start-up (R408 to R410, R432).
-/

namespace Sys2Proof.Machine

/-! ## What the ports and the choice of a time source leave of start-up and of the processors -/

/-- Start-up is where it was, unless it waited for the servo in phase 6, and of the processors only those asleep may have changed. -/
structure State.Unmoved (s t : State) : Prop where
  startup : s.startup.phase ≠ 6 → t.startup = s.startup
  hub     : s.HubWork t

section
variable {s t u : State}

theorem State.Unmoved.trans (h : s.Unmoved t) (k : t.Unmoved u) : s.Unmoved u where
  startup h6 := (k.startup (by rwa [h.startup h6])).trans (h.startup h6)
  hub := h.hub.trans k.hub

theorem Keeps.unmoved {A : Nat} (h : Keeps A s t) (hs : A.testBit (Part.bit .startup) = false) (hc : A.testBit (Part.bit .cores) = false) :
    s.Unmoved t := ⟨fun _ => h.same .startup hs, .of_cores (h.same .cores hc)⟩

theorem State.Unmoved.refl (s : State) : s.Unmoved s := (Keeps.refl 0 s).unmoved rfl rfl

theorem State.Unmoved.foldl {β : Type} {f : State → β → State} (hf : ∀ (y : State) b, y.Unmoved (f y b)) (l : List β) (s : State) :
    s.Unmoved (l.foldl f s) := List.foldlRecOn (motive := fun y => s.Unmoved y) l f (.refl s) fun y hy b _ => hy.trans (hf y b)

theorem State.Unmoved.ite {p : Prop} [Decidable p] (h : s.Unmoved t) (k : s.Unmoved u) : s.Unmoved (if p then t else u) := by
  split
  · exact h
  · exact k

theorem State.event_unmoved (s : State) (e m : Nat) : s.Unmoved (s.event e m) :=
  ⟨fun _ => (State.event_keeps rfl (.refl 0x4800000005 s)).same .startup rfl, s.event_hubWork e m⟩

theorem State.log_unmoved (s : State) (c : FaultClass) (ctrl : Nat) (data : List Byte) : s.Unmoved (s.log c ctrl data) :=
  (State.log_keeps rfl (.refl 0x4000000000 s)).unmoved rfl rfl

theorem State.modServo_unmoved (s : State) (f : Servo → Servo) : s.Unmoved (s.modServo f) :=
  (State.modServo_keeps rfl (.refl 0x100 s)).unmoved rfl rfl

theorem State.timeNoted_unmoved (s : State) (m : Nat) (c : FaultClass) (d : List Byte) :
    s.Unmoved ((s.event R.time_EVENTS m).log c R.time d) := (s.event_unmoved _ m).trans (State.log_unmoved _ c _ d)

/-- Only in phase 6 does ACQUIRE bring start-up to its next phase. -/
theorem State.servoTo_unmoved (s : State) (new : ServoState) : s.Unmoved (s.servoTo new) := by
  unfold State.servoTo
  extract_lets old x y z w
  split
  · exact .refl s
  have hy : s.Unmoved y := (s.modServo_unmoved _).trans (.ite (x.modServo_unmoved _) (.refl x))
  have hz : s.Unmoved z := hy.trans (y.timeNoted_unmoved _ _ _)
  have hw : z.Unmoved w := by
    unfold w
    split
    next h => exact ⟨fun h6 => absurd h.2 h6, .of_cores rfl⟩
    next => exact .refl z
  split
  · exact (hz.trans hw).trans (w.lockLost_keeps_tiles.unmoved rfl rfl)
  · exact (hz.trans hw).trans (.ite ((State.clearCauseAll_keeps rfl (.refl 0x4000000000 w)).unmoved rfl rfl) (.refl w))

theorem State.Unmoved.modServo (h : s.Unmoved t) (f : Servo → Servo) : s.Unmoved (t.modServo f) := h.trans (t.modServo_unmoved f)

theorem State.Unmoved.servoTo (h : s.Unmoved t) (new : ServoState) : s.Unmoved (t.servoTo new) := h.trans (t.servoTo_unmoved new)

theorem State.toHoldover_unmoved (s : State) : s.Unmoved s.toHoldover :=
  (((s.modServo_unmoved _).trans (State.log_unmoved _ _ _ _))).servoTo _

theorem State.pathStep_unmoved (s : State) (i : Nat) (mpd off : Int) : s.Unmoved (s.pathStep i mpd off) :=
  (((s.timeNoted_unmoved _ _ _).trans ((State.mapPtp_keeps rfl (.refl 0x200 _)).unmoved rfl rfl)).modServo _).servoTo _

theorem State.takeSource_unmoved (s : State) (new : Option Source) : s.Unmoved (s.takeSource new) := by
  unfold State.takeSource
  extract_lets old state was x y
  split
  · exact .refl s
  have hy : s.Unmoved y := (s.modServo_unmoved _).trans (x.timeNoted_unmoved _ _ _)
  have hslew (c : Source) : s.Unmoved (y.slewIn c) := hy.modServo _
  have hstep (i : Nat) (mpd off : Int) : s.Unmoved (y.pathStep i mpd off) := hy.trans (y.pathStep_unmoved i mpd off)
  clear_value y state
  split
  · exact (hy.modServo _).servoTo _
  · exact hy.servoTo _
  · exact hy.modServo _
  · exact hy.trans y.toHoldover_unmoved
  · exact .ite (hslew _) (hstep _ _ _)
  · exact .ite hy (.ite ((hslew _).modServo _) (hstep _ _ _))
  · exact .ite ((hslew _).servoTo _) (hstep _ _ _)
  · exact hy

theorem State.ptpPortDown_unmoved (s : State) (p : Nat) : s.Unmoved (s.ptpPortDown p) :=
  (s.takeSource_unmoved s.candidate).trans (.foldl (fun y _ => .ite ((State.setInst_keeps rfl (.refl 0x200 y)).unmoved rfl rfl) (.refl y)) _ _)

theorem State.groupNoted_unmoved (s : State) (p m q : Nat) (c : FaultClass) (d : List Byte) : s.Unmoved ((s.groupEvent p m).portLog c q d) := by
  have logged (y : State) : y.Unmoved (y.portLog c q d) := (State.portLog_keeps rfl (.refl 0x4000000000 y)).unmoved rfl rfl
  have noted : s.Unmoved (s.groupEvent p m) := .ite (s.event_unmoved _ _) (s.event_unmoved _ _)
  exact noted.trans (logged _)

theorem State.pairLinkMoved_unmoved (s : State) (old : Option Nat) : s.Unmoved (s.pairLinkMoved old) := by
  unfold State.pairLinkMoved
  extract_lets a
  split
  · exact s.groupNoted_unmoved _ _ _ _ _
  · exact s.groupNoted_unmoved _ _ _ _ _
  · exact .refl s

/-- A port that leaves, or that is switched off. -/
theorem State.portDown_unmoved {p cause : Nat} (hc : cause = 6 ∨ cause = 7 ∨ cause = 9) (s : State) : s.Unmoved (s.portDown p cause) := by
  unfold State.portDown
  extract_lets old long a b c sev told d e
  split
  · exact .refl s
  have hc' : Keeps 0x60001 s c := Keeps.foldl (fun _ _ h => State.modLane_keeps rfl h) (State.modPort_keeps rfl (State.count_keeps rfl
    (Keeps.foldl (fun _ _ h => State.aimTaps_keeps rfl h) (.refl _ s))))
  have hd : s.Unmoved d := (hc'.unmoved rfl rfl).trans (c.groupNoted_unmoved _ _ _ _ _)
  have hq : d.Unmoved (d.dropQueue p) := (State.dropQueue_keeps rfl (.refl 0x8840000 d)).unmoved rfl rfl
  exact ((hd.trans hq).trans (State.ptpPortDown_unmoved _ p)).trans (State.pairLinkMoved_unmoved _ _)

/-! ## The management ports (R340) -/

theorem State.adminOn_unmoved (s : State) (p : Nat) : s.Unmoved (s.adminOn p) := (State.adminOn_keeps rfl (.refl 0x60021 s)).unmoved rfl rfl

theorem State.adminOff_unmoved (s : State) (p : Nat) : s.Unmoved (s.adminOff p) := by
  have rest : Keeps 0x60000 (s.portDown p 7) (s.adminOff p) := by
    unfold State.adminOff
    exact State.modPort_keeps rfl (Keeps.foldl (fun _ _ h => State.modLane_keeps rfl h) (.refl _ _))
  exact (State.portDown_unmoved (.inr (.inl rfl)) s).trans (rest.unmoved rfl rfl)

theorem State.startManagement_unmoved (s : State) : s.Unmoved s.startManagement := by
  unfold State.startManagement
  extract_lets p
  exact .foldl (fun y i => .ite (y.adminOn_unmoved _) (y.adminOff_unmoved _)) _ s

theorem State.adminOff_light {A : Nat} {z : State} {p : Nat} (hA : 0xc808860b25 &&& A = 0xc808860b25) (h : Keeps A z s) : Keeps A z (s.adminOff p) := by
  unfold State.adminOff
  exact State.modPort_keeps (Part.sub hA rfl) (Keeps.foldl (fun _ _ h => State.modLane_keeps (Part.sub hA rfl) h)
    (State.portDown_light (.inr (.inl rfl)) hA h))

theorem State.startManagement_light {A : Nat} {z : State} (hA : 0xc808860b25 &&& A = 0xc808860b25) (h : Keeps A z s) :
    Keeps A z s.startManagement := by
  unfold State.startManagement
  extract_lets p
  exact Keeps.foldl (fun _ _ h => Keeps.ite (State.adminOn_keeps (Part.sub hA rfl) h) (State.adminOff_light hA h)) h

end

/-! ## Phase 3: a bank is chosen (R408, R409) -/

/-- The checks of an image look at the lineage, the rollback floor and the ownership slots. -/
theorem State.checkImage_of_parts {s t : State} (hm : t.mdp = s.mdp) (hl : t.im.lineage = s.im.lineage) (hf : t.im.floor = s.im.floor)
    (p : List Byte) : t.checkImage p = s.checkImage p := by
  have anchor : t.anchor = s.anchor := by
    have slot : t.slot = s.slot := funext fun n => by rw [State.slot, hm, State.slot]
    funext k
    rw [State.anchor, slot, State.anchor]
  have verifies : t.certVerifies = s.certVerifies := by
    funext p count i
    rw [State.certVerifies, anchor, State.certVerifies]
  have chain : t.chainBad p = s.chainBad p := by rw [State.chainBad, verifies, State.chainBad]
  rw [State.checkImage, chain, hl, hf, State.checkImage]

section
variable {s : State} {b : Bool}

/-- A bank that the checks accept, and that has not been tried. -/
def State.bankGood (s : State) (b : Bool) : Prop := s.tried b = false ∧ s.checkImage (s.bank b).bytes = none

/-- Start-up runs a bank's image. -/
def State.BankRuns (s t : State) (b : Bool) : Prop :=
  t.startup.phase = 4 ∧ t.startup.phaseAt = s.now ∧ t.startup.fallback = (b != s.im.preferred) ∧ t.im.startedFrom = b ∧
  t.im.bootRole = some (imageOf (s.bank b).bytes).role ∧
  t.im.configId = BitVec.ofNat 64 (le (imageOf (s.bank b).bytes).digest 0 8) ∧ t.im.runRollback = w32 (imageOf (s.bank b).bytes).rollback

/-- A bank has failed: it has been tried, and when it was tried now that is logged and it is invalid unless it is empty. -/
def State.BankFailed (s t : State) (b : Bool) : Prop :=
  t.tried b = true ∧
  (s.tried b = false → (s.running = true → s.Logs t F.START_BANK_FAIL) ∧
    (t.bank b).state = (if (s.bank b).state = .empty then .empty else .invalid))

theorem State.tryBank_of_good (h : s.checkImage (s.bank b).bytes = none) : s.tryBank b = s.startFrom b (imageOf (s.bank b).bytes) := by
  unfold State.tryBank
  rw [h]

/-- The bank is refused. -/
def State.bankRefused (s : State) (b : Bool) (c : FaultClass) : State :=
  ((s.modBankState b fun x => { x with state := if x.state = .empty then .empty else .invalid }).log F.START_BANK_FAIL R.start
    (leBytes 1 (b2n b) ++ leBytes 2 c.code)).modStartup fun x => { x with triedA := x.triedA || !b, triedB := x.triedB || b }

theorem State.tryBank_of_bad (h : s.checkImage (s.bank b).bytes ≠ none) : ∃ c, s.tryBank b = s.bankRefused b c := by
  unfold State.tryBank
  split
  next none => exact absurd none h
  next c _ _ => exact ⟨c, rfl⟩

theorem State.startFrom_runs (s : State) (b : Bool) : s.BankRuns (s.startFrom b (imageOf (s.bank b).bytes)) b := ⟨rfl, rfl, rfl, rfl, rfl, rfl, rfl⟩

/-- What is left of a bank that start-up does not run: it has been tried, and the other bank is as it was. -/
structure State.Refused (s t : State) (b : Bool) : Prop where
  failed    : s.BankFailed t b
  other     : t.tried (!b) = s.tried (!b)
  bank      : t.bank (!b) = s.bank (!b)
  phase     : t.startup.phase = s.startup.phase
  preferred : t.im.preferred = s.im.preferred
  check     : ∀ p, t.checkImage p = s.checkImage p
  keeps     : Keeps 0xc000001000 s t

theorem State.bankRefused_refused (b : Bool) (c : FaultClass) : s.Refused (s.bankRefused b c) b := by
  generalize hu : s.modBankState b (fun x => { x with state := if x.state = .empty then .empty else .invalid }) = u
  generalize hv : u.log F.START_BANK_FAIL R.start (leBytes 1 (b2n b) ++ leBytes 2 c.code) = v
  have run : s.bankRefused b c = v.modStartup fun x => { x with triedA := x.triedA || !b, triedB := x.triedB || b } := by
    rw [State.bankRefused, hu, hv]
  have logs : Keeps 0x4000000000 u v := hv ▸ State.log_keeps rfl (.refl _ u)
  have first : Keeps 0x1000 s u := hu ▸ State.modIm_keeps rfl (.refl _ s)
  have keeps : Keeps 0xc000001000 s (s.bankRefused b c) :=
    run ▸ State.modStartup_keeps rfl ((first.widen rfl).trans (logs.widen rfl)) fun _ h => h
  have startup : v.startup = s.startup := (logs.same .startup rfl).trans (first.same .startup rfl)
  have im : v.im = u.im := logs.same .im rfl
  have bank : (u.bank b).state = (if (s.bank b).state = .empty then .empty else .invalid) ∧ u.bank (!b) = s.bank (!b) ∧
      u.im.lineage = s.im.lineage ∧ u.im.floor = s.im.floor ∧ u.im.preferred = s.im.preferred := by
    rw [← hu]
    cases b
    · exact ⟨rfl, rfl, rfl, rfl, rfl⟩
    · exact ⟨rfl, rfl, rfl, rfl, rfl⟩
  obtain ⟨own, other, lineage, floor, preferred⟩ := bank
  have banks (k : Bool) : (s.bankRefused b c).bank k = u.bank k := by
    rw [run]
    show v.bank k = _
    rw [State.bank, im, State.bank]
  have ims : (s.bankRefused b c).im = u.im := by
    rw [run]
    exact im
  refine ⟨⟨?_, fun _ => ⟨fun hrun => ?_, by rw [banks, own]⟩⟩, ?_, by rw [banks, other], ?_, by rw [ims, preferred],
    State.checkImage_of_parts (keeps.same .mdp rfl) (by rw [ims, lineage]) (by rw [ims, floor]), keeps⟩
  · rw [run]
    cases b
    · exact Bool.or_true _
    · exact Bool.or_true _
  · rw [run]
    have entry := (State.log_logsOne (first.running rfl hrun) F.START_BANK_FAIL R.start (leBytes 1 (b2n b) ++ leBytes 2 c.code)).logs
    rw [hv] at entry
    exact (entry.after first rfl).keep (State.modStartup_keeps rfl (.refl 0x8000000000 v) fun _ h => h) rfl
  · rw [run, State.tried, State.tried, ← startup]
    cases b
    · exact Bool.or_false _
    · exact Bool.or_false _
  · rw [run, ← startup]
    rfl

/-- A bank is tried when it has not been. -/
def State.tryOnce (s : State) (b : Bool) : State := if s.tried b then s else s.tryBank b

theorem State.tryOnce_of_good (h : s.bankGood b) : s.tryOnce b = s.startFrom b (imageOf (s.bank b).bytes) := by
  obtain ⟨fresh, good⟩ := h
  rw [State.tryOnce, if_neg (by rw [fresh]; exact Bool.false_ne_true), State.tryBank_of_good good]

theorem State.tryOnce_refused (h : ¬s.bankGood b) : s.Refused (s.tryOnce b) b := by
  unfold State.tryOnce
  split
  next tried => exact ⟨⟨tried, fun fresh => absurd (fresh.symm.trans tried) Bool.false_ne_true⟩, rfl, rfl, rfl, rfl, fun _ => rfl, .refl _ s⟩
  next fresh =>
    obtain ⟨c, run⟩ := State.tryBank_of_bad fun good => h ⟨Bool.eq_false_iff.2 fresh, good⟩
    rw [run]
    exact State.bankRefused_refused b c

/-- The other bank is as good as it was. -/
theorem State.Refused.bankGood_iff {t : State} (h : s.Refused t b) : t.bankGood (!b) ↔ s.bankGood (!b) := by
  rw [State.bankGood, State.bankGood, h.other, h.bank, h.check]

theorem execBootBankSelect_of_none (h : s.startup.phase ≠ 3 ∨ s.memory.state < 2 ∨ s.startup.noImage = true) : exec .bootBankSelect s = .next s := by
  refine if_neg ?_
  rintro ⟨phase, trained, image⟩
  rcases h with h | h | h
  · exact h phase
  · exact absurd trained (Nat.not_le.2 h)
  · exact Bool.false_ne_true (image.symm.trans h)

theorem execBootBankSelect_selects (hp : s.startup.phase = 3) (hm : 2 ≤ s.memory.state) (hn : s.startup.noImage = false) :
    exec .bootBankSelect s = .next (
      let t := s.tryOnce s.im.preferred
      let u := if t.startup.phase = 4 || t.tried (!s.im.preferred) then t else t.tryBank (!s.im.preferred)
      if u.startup.phase = 4 then u else u.enterNoImage) := if_pos ⟨hp, hm, hn⟩

/-- The preferred bank runs. -/
theorem execBootBankSelect_preferred (hp : s.startup.phase = 3) (hm : 2 ≤ s.memory.state) (hn : s.startup.noImage = false)
    (hg : s.bankGood s.im.preferred) :
    exec .bootBankSelect s = .next (s.startFrom s.im.preferred (imageOf (s.bank s.im.preferred).bytes)) := by
  rw [execBootBankSelect_selects hp hm hn, State.tryOnce_of_good hg]
  rfl

theorem execBootBankSelect_refused (hp : s.startup.phase = 3) (hm : 2 ≤ s.memory.state) (hn : s.startup.noImage = false)
    (hg : ¬s.bankGood s.im.preferred) : exec .bootBankSelect s = .next (
      let u := (s.tryOnce s.im.preferred).tryOnce (!s.im.preferred)
      if u.startup.phase = 4 then u else u.enterNoImage) := by
  have refused := State.tryOnce_refused hg
  have waits : ¬(s.tryOnce s.im.preferred).startup.phase = 4 := by rw [refused.phase, hp]; decide
  rw [execBootBankSelect_selects hp hm hn]
  dsimp only
  rw [decide_eq_false waits, Bool.false_or, State.tryOnce]
  rfl

/-! ### No bank yields an image -/

/-- The tending cores are PARKED and the tiles gated. -/
theorem State.enterNoImage_spec (h6 : s.startup.phase ≠ 6) : s.enterNoImage.startup = { s.startup with noImage := true } ∧
    (∀ c, s.enterNoImage.bank c = s.bank c) ∧ (s.running = true → s.Logs s.enterNoImage F.START_NO_IMAGE) ∧
    (∀ n, n < 4 → (s.enterNoImage.tc n).state = .parked) ∧ Keeps 0xcc3da6db65 s s.enterNoImage := by
  unfold State.enterNoImage
  extract_lets a l p g
  have ha : Keeps 0x8000001000 s a := State.modIm_keeps rfl (State.modStartup_keeps rfl (.refl _ s) fun _ h => h)
  have hl : Keeps 0x4000000000 a l := State.log_keeps rfl (.refl _ a)
  have hp : Keeps 0x800000000 l p := Keeps.foldl (fun _ _ h => State.modTc_keeps rfl h) (.refl _ l)
  have hg : Keeps 0x1008001 p g := Keeps.foldl (fun _ _ h => Keeps.ite h (State.gate_keeps rfl h)) (.refl _ p)
  have hm : Keeps 0xc808860b25 g g.startManagement := State.startManagement_light rfl (.refl _ g)
  have moves := g.startManagement_unmoved
  have after : Keeps 0xcc0986cb25 l g.startManagement := (hp.widen rfl).trans ((hg.widen rfl).trans (hm.widen rfl))
  have rest : Keeps 0xcc0986cb25 a g.startManagement := (hl.widen rfl).trans after
  have running : a.running = s.running := rfl
  have startup : g.startup = a.startup := (hg.same .startup rfl).trans ((hp.same .startup rfl).trans (hl.same .startup rfl))
  have parked (n : Nat) (hn : n < 4) : (p.tc n).state = .parked :=
    State.foldl_reaches (P := fun n (y : State) => (y.tc n).state = .parked)
      (fun y n => by rw [State.modTc_eq, State.tc_setTc, if_pos rfl])
      (fun y n m hy => by
        rw [State.modTc_eq, State.tc_setTc]
        split
        · rfl
        · exact hy) (List.mem_range.2 hn) l
  refine ⟨?_, fun c => ?_, fun hrun => ?_, fun n hn => ?_, (ha.widen rfl).trans (rest.widen rfl)⟩
  · rw [moves.startup (by rw [startup]; exact h6), startup]
    rfl
  · have im : g.startManagement.im = a.im := rest.same .im rfl
    rw [State.bank, im]
    rfl
  · exact ((State.log_logsOne (running.trans hrun) _ _ _).logs.keep after rfl).after ha rfl
  · have proc (y : State) : y.proc n = y.tc n := if_neg (by omega)
    have before : (g.proc n).state = .parked := by rw [State.proc_of_cores (hg.same .cores rfl), proc, parked n hn]
    rw [← proc, moves.hub.proc n (by rw [before]; decide), before]

end

/-! ## Phase 4: the processors take their code (R410) -/

/-- A processor restarts, and has not reported yet. -/
def State.Restarting (s : State) (n : Nat) : Prop := (s.proc n).state = .restarting ∧ (s.proc n).alive = false

section
variable {s t : State} {n : Nat}

theorem State.Restarting.hub (h : s.Restarting n) (k : s.HubWork t) : t.Restarting n := by
  obtain ⟨state, alive⟩ := h
  rw [State.Restarting, k.proc n (by rw [state]; decide)]
  exact ⟨state, alive⟩

theorem State.restart_restarting (s : State) (n : Nat) : (s.restart n).Restarting n := by
  rw [State.Restarting, s.proc_restart]
  exact ⟨rfl, rfl⟩

/-- The restart of another processor leaves it so. -/
theorem State.Restarting.restart (h : s.Restarting n) (m : Nat) : (s.restart m).Restarting n := by
  by_cases hm : n = m
  · exact hm ▸ s.restart_restarting n
  · obtain ⟨state, alive⟩ := h
    have other : (s.modProc m fun p => p.restarted s.now).proc n = s.proc n := by rw [State.proc_modProc, if_neg hm]
    rw [State.Restarting, State.restart_eq, State.proc_leaveService _ _ _ (by rw [other, state]; decide), other]
    exact ⟨state, alive⟩

theorem State.restartKind_restarting (s : State) (hn : n < 4) : (s.restartKind 0).Restarting n :=
  State.foldl_reaches (P := fun n y => y.Restarting n) State.restart_restarting (fun _ _ m hy => hy.restart m) (List.mem_range.2 hn) s

/-- The firmware of the tending cores from the image. -/
theorem State.loadFirmware_tc {y : Section} (hy : (s.bootImage.sections.find? fun z => z.type == 0x0B01) = some y) :
    (s.loadFirmware 0 0x0B01).im.fwTc = { running := y.payload, aliveBy := some (s.now + sec 2) } ∧
    ∀ n, n < 4 → (s.loadFirmware 0 0x0B01).Restarting n := by
  unfold State.loadFirmware
  rw [hy]
  refine ⟨?_, fun n hn => State.restartKind_restarting _ hn⟩
  rw [(State.restartKind_keeps rfl (.refl 0x2800000000 _)).same .im rfl]
  rfl

/-- The firmware of the safety pair leaves the tending cores as they are. -/
theorem State.loadFirmware_sp (s : State) : (s.loadFirmware 1 0x0B02).im.fwTc = s.im.fwTc ∧
    ∀ n, s.Restarting n → (s.loadFirmware 1 0x0B02).Restarting n := by
  unfold State.loadFirmware
  split
  next x _ =>
    refine ⟨?_, fun n h => ?_⟩
    · rw [(State.restartKind_keeps rfl (.refl 0x2800000000 _)).same .im rfl]
      rfl
    · have same (f : FwBank → FwBank) : (s.modFw 1 f).Restarting n := h
      exact (same _).restart 4
  next => exact ⟨rfl, fun _ h => h⟩

theorem State.swapFirmware_hull (s : State) (p : List Byte) : (s.swapFirmware 2 p).im.fwTc = s.im.fwTc ∧ s.HubWork (s.swapFirmware 2 p) := by
  unfold State.swapFirmware
  extract_lets u
  have swaps : Keeps 0x2000000000 u (u.swapRestart 2) :=
    Keeps.upd (.refl _ u) rfl rfl rfl rfl rfl rfl rfl rfl id (by intro p hp; cases p <;> first | rfl | cases hp)
  have notes : Keeps 0x4800000005 (u.swapRestart 2) (((u.swapRestart 2).event R.im_EVENTS 32).log F.IMG_FW_SWAP R.im
      (leBytes 1 (2 + 1) ++ leBytes 8 (le p 16 8))) := State.log_keeps rfl (State.event_keeps rfl (.refl _ _))
  refine ⟨?_, ?_⟩
  · rw [notes.same .im rfl, swaps.same .im rfl]
    rfl
  · have before : s.HubWork (u.swapRestart 2) := .of_cores (swaps.same .cores rfl)
    exact (before.trans (State.event_hubWork _ _ _)).trans (State.log_hubWork _ _ _ _)

theorem execStartFirmware_of_none (h : s.startup.phase ≠ 4 ∨ s.im.fwTc.running ≠ []) : exec .startFirmware s = .next s :=
  if_neg fun k => h.elim (fun h => h k.1) fun h => h k.2

/-- The hull controller's firmware is swapped when the image's differs. -/
def State.swapHull (s : State) (i : Image) : State :=
  match i.sections.find? fun x => x.type == 0x0D02 with
  | some x => if s.swaps x then s.swapFirmware 2 x.payload else s
  | none => s

theorem State.swapHull_cores (s : State) (i : Image) : (s.swapHull i).im.fwTc = s.im.fwTc ∧ s.HubWork (s.swapHull i) := by
  unfold State.swapHull
  split
  next x _ =>
    split
    · exact s.swapFirmware_hull x.payload
    · exact ⟨rfl, .of_cores rfl⟩
  next => exact ⟨rfl, .of_cores rfl⟩

theorem execStartFirmware_loads (hp : s.startup.phase = 4) (hf : s.im.fwTc.running = []) : exec .startFirmware s =
    .next (((s.loadFirmware 0 0x0B01).loadFirmware 1 0x0B02).swapHull ((s.loadFirmware 0 0x0B01).loadFirmware 1 0x0B02).bootImage) := by
  show execStartFirmware s = _
  unfold execStartFirmware
  rw [if_pos ⟨hp, hf⟩]
  generalize (s.loadFirmware 0 0x0B01).loadFirmware 1 0x0B02 = u
  rfl

end

/-! ## Phase 5: the sections are installed (R410, R432) -/

section
variable {s : State}

theorem State.installRefIn_unmoved (s : State) (p : List Byte) : s.Unmoved (s.installRefIn p) := by
  unfold State.installRefIn
  extract_lets m
  have set (y : Monitor) : s.Unmoved { s with refIn := y } := ⟨fun _ => rfl, .of_cores rfl⟩
  exact (set _).trans (State.takeSource_unmoved _ _)

theorem State.installPtpPorts_unmoved (s : State) (p : List Byte) : s.Unmoved (s.installPtpPorts p) := by
  unfold State.installPtpPorts
  extract_lets n
  have set (y : State) (i : Nat) (w : Word) : y.Unmoved ((y.setInst i {}).setReg (R.ptp_ASYM_NS i) w) :=
    (State.setReg_keeps rfl (State.setInst_keeps rfl (.refl 0x201 y))).unmoved rfl rfl
  exact (State.Unmoved.foldl (fun y i => set y i _) _ s).trans (State.takeSource_unmoved _ _)

theorem execStartInstall_of_none (h : s.startup.phase ≠ 4 ∨ s.im.fwTc.running = [] ∨ s.im.fwTc.aliveBy ≠ none ∨ s.im.fwSp.aliveBy ≠ none ∨
    s.im.fwHull.aliveBy ≠ none) : exec .startInstall s = .next s := by
  refine if_neg ?_
  rintro ⟨phase, loaded, tc, sp, hull⟩
  rcases h with h | h | h | h | h
  · exact h phase
  · exact loaded h
  · exact h tc
  · exact h sp
  · exact h hull

/-- The sections of the image but its commit groups become the configuration, and start-up stays where it is, unless it waits for the
servo. -/
theorem State.installAll_spec (h6 : s.startup.phase ≠ 6) : s.installAll.startup = s.startup ∧
    s.installAll.config = s.bootImage.sections.filter fun x => x.type != 0x0A01 := by
  unfold State.installAll
  extract_lets a b c d e f g
  have config : b.config = s.bootImage.sections.filter fun x => x.type != 0x0A01 := rfl
  have kc : Keeps 0xcc3da0cf65 b c := State.installRefIn_keeps rfl (State.installPtpPorts_keeps rfl (.refl _ b))
  have ke : Keeps 0x800000800 c e :=
    State.installCheckPlan_keeps rfl (State.installInterruptPlan_keeps rfl (State.installTioPlan_keeps rfl (.refl _ c)))
  have kf : Keeps 0xcc3db6cb65 e f :=
    State.startManagement_keeps rfl (State.installFlowPlan_keeps rfl (State.installPair_keeps rfl (.refl _ e)))
  have kg : Keeps 0x4d00000005 f g := State.applyHolds_keeps rfl (State.recorderPlan_keeps rfl
    (State.installPdm_keeps rfl (State.audioStart_keeps rfl (.refl _ f))))
  have last : Keeps 0x4000800000 g ((List.range 48).foldl (fun s c => if s.hasSection 0x0401 4 (0x10 + c) then s.applySections c else s) g) :=
    Keeps.foldl (fun _ _ h => Keeps.ite (State.applySections_keeps rfl h) h) (.refl _ g)
  have tail : Keeps 0xcd3db6cf65 b ((List.range 48).foldl (fun s c => if s.hasSection 0x0401 4 (0x10 + c) then s.applySections c else s) g) :=
    (kc.widen rfl).trans ((ke.widen rfl).trans ((kf.widen rfl).trans ((kg.widen rfl).trans (last.widen rfl))))
  have sources : b.Unmoved c := (b.installPtpPorts_unmoved _).trans (State.installRefIn_unmoved _ _)
  have plans : Keeps 0x10140021 e ((e.installPair).installFlowPlan (e.payload 0x0301 1 8)) :=
    State.installFlowPlan_keeps rfl (State.installPair_keeps rfl (.refl _ e))
  have begun : b.startup.phase ≠ 6 := h6
  have planned := (plans.same .startup rfl).trans ((ke.same .startup rfl).trans (sources.startup begun))
  have managed : f.startup = b.startup := by
    refine ((State.startManagement_unmoved _).startup ?_).trans planned
    rw [planned]
    exact begun
  refine ⟨?_, ?_⟩
  · rw [last.same .startup rfl, kg.same .startup rfl]
    exact managed
  · exact (tail.same .config rfl).trans config

/-- START_INSTALL leaves reset with the tiles. -/
theorem execStartInstall_installs (hp : s.startup.phase = 4) (hl : s.im.fwTc.running ≠ []) (htc : s.im.fwTc.aliveBy = none)
    (hsp : s.im.fwSp.aliveBy = none) (hh : s.im.fwHull.aliveBy = none) : ∃ t, exec .startInstall s = .next t ∧
      t.config = s.bootImage.sections.filter (fun z => z.type != 0x0A01) ∧ t.startup.phase = 5 ∧ Keeps 0xcd3db7cfe5 s t := by
  generalize hu : s.modStartup (fun x => { x with phase := 5, phaseAt := s.now }) = u
  have run : exec .startInstall s =
      .next (allTiles.foldl (fun t x => t.leaveReset (t.im.bootRole.getD 0) x) u.installAll) := by
    show execStartInstall s = _
    unfold execStartInstall
    rw [if_pos ⟨hp, hl, htc, hsp, hh⟩]
    dsimp only
    rw [hu]
  have phase : u.startup.phase = 5 := by rw [← hu]; rfl
  have image : u.bootImage = s.bootImage := by rw [← hu]; rfl
  obtain ⟨startup, config⟩ := State.installAll_spec (s := u) (by rw [phase]; decide)
  have leaves : Keeps 0x1008001 u.installAll (allTiles.foldl (fun t x => t.leaveReset (t.im.bootRole.getD 0) x) u.installAll) :=
    Keeps.foldl (fun _ _ h => State.leaveReset_keeps rfl h) (.refl _ _)
  have keeps : KeepsOut 0xcd3db7cfe5 s (execStartInstall s) := execStartInstall_keeps rfl (.refl _ s)
  refine ⟨_, run, ?_, ?_, keeps _ run⟩
  · rw [leaves.same .config rfl, config, image]
  · rw [leaves.same .startup rfl, startup, phase]

/-! ## Phases 6 to 8 (R410) -/

theorem execStartPorts_of_none (h : s.startup.phase ≠ 5 ∨ s.nothingRipens = false) : exec .startPorts s = .next s := by
  refine if_neg ?_
  rintro ⟨phase, ripe⟩
  rcases h with h | h
  · exact h phase
  · exact Bool.false_ne_true (h.symm.trans ripe)

theorem execStartPorts_starts (hp : s.startup.phase = 5) (hr : s.nothingRipens = true) : ∃ t, exec .startPorts s = .next t ∧
    t.startup = { s.startup with phase := if s.clock.seeded then 8 else if s.servo.state = .acquire then 7 else 6, phaseAt := s.now } ∧
    Keeps 0x8000060001 s t := by
  have phase : 2 ≤ if s.clock.seeded then 8 else if s.servo.state = .acquire then 7 else 6 := by
    split
    · decide
    · split <;> decide
  refine ⟨_, if_pos ⟨hp, hr⟩, ?_, ?_⟩
  · exact (Keeps.foldl (fun _ _ h => State.tryAttempt_keeps rfl h) (.refl 0x60001 _)).same .startup rfl
  · exact Keeps.foldl (fun _ _ h => State.tryAttempt_keeps rfl h) (State.modStartup_keeps rfl (.refl _ s) fun _ _ => phase)

theorem execStartSlow_of_none (h : s.startup.phase < 6 ∨ 8 < s.startup.phase ∨ s.startup.slow = true ∨ s.now < s.startup.phaseAt + sec 120) :
    exec .startSlow s = .next s := by
  refine if_neg ?_
  rintro ⟨lo, hi, slow, due⟩
  rcases h with h | h | h | h
  · exact absurd lo (Nat.not_le.2 h)
  · exact absurd hi (Nat.not_le.2 h)
  · exact Bool.false_ne_true (slow.symm.trans h)
  · exact absurd (of_decide_eq_true due) (Nat.not_le.2 h)

theorem execStartSlow_logs (h6 : 6 ≤ s.startup.phase) (h8 : s.startup.phase ≤ 8) (hs : s.startup.slow = false)
    (hdue : s.startup.phaseAt + sec 120 ≤ s.now) : ∃ t, exec .startSlow s = .next t ∧ t.startup = { s.startup with slow := true } ∧
      (s.running = true → s.LogsOne t F.START_SLOW) ∧ t = { s with ledger := t.ledger, startup := t.startup } := by
  have run : exec .startSlow s = .next ((s.modStartup fun y => { y with slow := true }).log F.START_SLOW R.start
      (leBytes 1 s.startup.phase ++ leBytes 1 (servoCode s.servo.state))) := if_pos ⟨h6, h8, hs, decide_eq_true hdue⟩
  obtain ⟨l, e⟩ := (s.modStartup fun y => { y with slow := true }).log_frame F.START_SLOW R.start
    (leBytes 1 s.startup.phase ++ leBytes 1 (servoCode s.servo.state))
  refine ⟨_, run, by rw [e]; rfl, fun hrun => ?_, by rw [e]; rfl⟩
  have running : (s.modStartup fun y => { y with slow := true }).running = true := hrun
  exact (State.log_logsOne running _ _ _).of_ledger rfl

end

/-! ## The statement -/

theorem Keeps.startedFrom_eq {s t : State} (h : Keeps 0xc000001000 s t) :
    t = { s with im := t.im, startup := t.startup, ledger := t.ledger } := by
  refine h.eq_of_agree rfl (fun p hp => ?_) (fun p hp => ?_)
  · cases p
    case im | startup | ledger => cases hp
    all_goals rfl
  · cases p
    case im | startup | ledger => rfl
    all_goals cases hp

section
variable {s : State}

/-- Later work that leaves what was tried and the banks' states alone. -/
theorem State.BankFailed.later {t u : State} {b : Bool} (h : s.BankFailed t b) (tried : u.tried b = t.tried b) (bank : u.bank b = t.bank b)
    {A : Nat} (k : Keeps A t u) (hA : A.testBit drainBit = false) : s.BankFailed u b := by
  obtain ⟨was, how⟩ := h
  refine ⟨tried.trans was, fun fresh => ?_⟩
  obtain ⟨logs, state⟩ := how fresh
  exact ⟨fun hrun => (logs hrun).keep k hA, by rw [bank, state]⟩

/-- Earlier work that left the bank alone. -/
theorem State.BankFailed.earlier {t u : State} {b : Bool} (h : t.BankFailed u b) (tried : t.tried b = s.tried b) (bank : t.bank b = s.bank b)
    (running : t.running = s.running) {A : Nat} (k : Keeps A s t) (hA : A.testBit drainBit = false) : s.BankFailed u b := by
  obtain ⟨was, how⟩ := h
  refine ⟨was, fun fresh => ?_⟩
  obtain ⟨logs, state⟩ := how (tried.trans fresh)
  exact ⟨fun hrun => (logs (running.trans hrun)).after k hA, by rw [state, bank]⟩

theorem State.startFrom_keeps_banks (s : State) (b : Bool) (i : Image) : (∀ c, (s.startFrom b i).tried c = s.tried c) ∧
    (∀ c, (s.startFrom b i).bank c = s.bank c) :=
  ⟨fun c => match c with | true => rfl | false => rfl, fun c => match c with | true => rfl | false => rfl⟩

/-- BOOT_BANK_SELECT when the preferred bank fails. -/
theorem execBootBankSelect_falls (hp : s.startup.phase = 3) (hm : 2 ≤ s.memory.state) (hn : s.startup.noImage = false)
    (hg : ¬s.bankGood s.im.preferred) : ∃ t, exec .bootBankSelect s = .next t ∧
      (s.bankGood (!s.im.preferred) → s.BankRuns t (!s.im.preferred) ∧ s.BankFailed t s.im.preferred ∧
        t = { s with im := t.im, startup := t.startup, ledger := t.ledger }) ∧
      (¬s.bankGood (!s.im.preferred) → t.startup.noImage = true ∧ t.startup.phase = 3 ∧ s.BankFailed t s.im.preferred ∧
        s.BankFailed t (!s.im.preferred) ∧ (s.running = true → s.Logs t F.START_NO_IMAGE) ∧ ∀ n, n < 4 → (t.tc n).state = .parked) := by
  have run := execBootBankSelect_refused hp hm hn hg
  have first := State.tryOnce_refused hg
  have preferred := first.preferred
  generalize s.tryOnce s.im.preferred = u at run first preferred
  by_cases good : s.bankGood (!s.im.preferred)
  case pos =>
    have starts := State.tryOnce_of_good (first.bankGood_iff.2 good)
    rw [starts] at run
    obtain ⟨tried, banks⟩ := u.startFrom_keeps_banks (!s.im.preferred) (imageOf (u.bank (!s.im.preferred)).bytes)
    have keeps : Keeps 0x8000001000 u (u.startFrom (!s.im.preferred) (imageOf (u.bank (!s.im.preferred)).bytes)) :=
      State.startFrom_keeps rfl (.refl _ u)
    obtain ⟨phase, since, fallback, started, role, config, rollback⟩ := u.startFrom_runs (!s.im.preferred)
    generalize u.startFrom (!s.im.preferred) (imageOf (u.bank (!s.im.preferred)).bytes) = t at *
    dsimp only at run
    rw [if_pos phase] at run
    rw [first.bank] at role config rollback
    exact ⟨t, run, fun _ => ⟨⟨phase, since.trans first.keeps.now, preferred ▸ fallback, started, role, config, rollback⟩,
      first.failed.later (tried _) (banks _) keeps rfl, (first.keeps.trans (keeps.widen rfl)).startedFrom_eq⟩, fun bad => absurd good bad⟩
  case neg =>
    have second := State.tryOnce_refused fun h => good (first.bankGood_iff.1 h)
    generalize u.tryOnce (!s.im.preferred) = v at run second
    have phase : v.startup.phase = 3 := by rw [second.phase, first.phase, hp]
    dsimp only at run
    rw [if_neg (by rw [phase]; decide)] at run
    obtain ⟨startup, banks, logs, parked, keeps⟩ := v.enterNoImage_spec (by rw [phase]; decide)
    have tried (c : Bool) : v.enterNoImage.tried c = v.tried c := by rw [State.tried, startup, State.tried]
    have running : u.running = s.running := by rw [State.running, first.phase, State.running]
    have running' : v.running = s.running := by rw [State.running, phase, State.running, hp]
    have other := second.other
    have bank := second.bank
    rw [Bool.not_not] at other bank
    refine ⟨_, run, fun h => absurd h good, fun _ => ⟨by rw [startup], by rw [startup]; exact phase, ?_, ?_, fun hrun => ?_, parked⟩⟩
    · exact (first.failed.later other bank second.keeps rfl).later (tried _) (banks _) keeps rfl
    · exact (second.failed.earlier first.other first.bank running first.keeps rfl).later (tried _) (banks _) keeps rfl
    · exact ((logs (running'.trans hrun)).after second.keeps rfl).after first.keeps rfl

end

/-- Settles O60: the ports that come up or go down at start-up leave its phase alone unless it is phase 6, and a processor that is
PARKED or restarts stays so. -/
theorem startUpBringsTheImageIntoForce : Obligations.StartUpBringsTheImageIntoForce := by
  unfold Obligations.StartUpBringsTheImageIntoForce
  intro s x b
  refine ⟨execBootBankSelect_of_none, fun hp hm hn => ?bank, execStartFirmware_of_none, fun hp hf => ?firmware, execStartInstall_of_none,
    fun hp hl htc hsp hh => ?sections, execStartPorts_of_none, fun hp hr => ?ports, fun h6 h8 hs hdue => execStartSlow_logs h6 h8 hs hdue,
    execStartSlow_of_none⟩
  case bank =>
    intro good runs failed
    have keeps : KeepsOut 0xcc3da6db65 s (execBootBankSelect s) := execBootBankSelect_keeps rfl (.refl _ s)
    by_cases hg : s.bankGood s.im.preferred
    · have run := execBootBankSelect_preferred hp hm hn hg
      have kept := keeps _ run
      exact ⟨_, run, kept.same .mem rfl, kept.same .config rfl, kept.same .hull rfl, fun _ => ⟨s.startFrom_runs _, rfl⟩,
        fun bad => absurd hg bad, fun bad => absurd hg bad⟩
    · obtain ⟨t, run, other, none⟩ := execBootBankSelect_falls hp hm hn hg
      have kept := keeps _ run
      exact ⟨t, run, kept.same .mem rfl, kept.same .config rfl, kept.same .hull rfl, fun h => absurd h hg, fun _ => other, fun _ => none⟩
  case firmware =>
    have run := execStartFirmware_loads hp hf
    have keeps : KeepsOut 0x6800001005 s (execStartFirmware s) := execStartFirmware_keeps rfl (.refl _ s)
    have kept := keeps _ run
    refine ⟨_, run, kept.same .startup rfl, kept.same .config rfl, kept.same .mem rfl, fun y hy => ?_⟩
    obtain ⟨tc, restarting⟩ := State.loadFirmware_tc hy
    obtain ⟨tc', still⟩ := (s.loadFirmware 0 0x0B01).loadFirmware_sp
    generalize s.loadFirmware 0 0x0B01 = u at *
    generalize u.loadFirmware 1 0x0B02 = v at *
    obtain ⟨tc'', hub⟩ := v.swapHull_cores v.bootImage
    have fw := tc''.trans (tc'.trans tc)
    refine ⟨by rw [fw], by rw [fw]; rfl, fun n hn => ?_⟩
    have down := (still n (restarting n hn)).hub hub
    rw [State.Restarting, State.proc, if_neg (by omega)] at down
    exact down
  case sections =>
    obtain ⟨t, run, config, phase, keeps⟩ := execStartInstall_installs hp hl htc hsp hh
    exact ⟨t, run, config, phase, keeps.same .mem rfl, keeps.same .hull rfl, keeps.same .mdp rfl⟩
  case ports =>
    obtain ⟨t, run, startup, keeps⟩ := execStartPorts_starts hp hr
    exact ⟨t, run, startup, keeps.same .config rfl, keeps.same .tiles rfl, keeps.same .ledger rfl, keeps.same .mem rfl⟩

end Sys2Proof.Machine
end

section
/-!
PROOF. What MDP sessions do with the device's state: a datagram to the host touches two counters and what has been sent, the end
of a session empties its place and no other, an operation is answered as request E + 1 (R342, R346, R348).
-/

namespace Sys2Proof.Machine

/-! ## Datagrams to the host (R342) -/

/-- The counters of datagrams and of frames that leave on a route. -/
def Route.txCounters (r : Route) : List Nat := [R.mp_MDP_TX (b2n r.m1), R.mp_TX_FRAMES (b2n r.m1)]

/-- A register of another block than the management ports' counts no datagram that leaves. -/
theorem Route.not_txCounter {a : Nat} (h : ∀ m : Bool, a ∉ [R.mp_MDP_TX (b2n m), R.mp_TX_FRAMES (b2n m)]) (r : Route) : a ∉ r.txCounters :=
  h r.m1

/-- A datagram of a session has left for the host: the place holds the new session, and what has been sent, two counters and this
place are all that changed. -/
structure State.Told (s t : State) (i : Nat) (y : Session) (r : Route) : Prop where
  keeps  : Keeps 0x1000000021 s t
  own    : t.session i = y
  others : ∀ k, k ≠ i → t.session k = s.session k
  slots  : t.mdp.slots = s.mdp.slots
  regs   : ∀ a, a ∉ r.txCounters → t.reg a = s.reg a
  sent   : (s.port r.mp).state = .up → ∃ b, t.wire = .mdp r b :: s.wire

section
variable (s : State) (r : Route) (b : List Byte)

@[simp] theorem State.sendDatagram_mdp : (s.sendDatagram r b).mdp = s.mdp :=
  (State.sendDatagram_keeps rfl (.refl 0x21 s)).same .mdp rfl

@[simp] theorem State.sendDatagram_session (k : Nat) : (s.sendDatagram r b).session k = s.session k :=
  State.session_of_mdp k (s.sendDatagram_mdp r b)

theorem State.reg_sendDatagram {a : Nat} (ha : a ∉ r.txCounters) : (s.sendDatagram r b).reg a = s.reg a := by
  obtain ⟨hm, hf⟩ : a ≠ R.mp_MDP_TX (b2n r.m1) ∧ a ≠ R.mp_TX_FRAMES (b2n r.m1) := by simpa [Route.txCounters] using ha
  unfold State.sendDatagram
  split
  · change ((s.count _).count _).reg a = _
    rw [State.reg_count, if_neg hf, State.reg_count, if_neg hm]
  · rfl

theorem State.sendDatagram_wire (h : (s.port r.mp).state = .up) : (s.sendDatagram r b).wire = .mdp r b :: s.wire := by
  rw [State.sendDatagram, if_pos h, State.send_wire, State.count_wire, State.count_wire]

end

section
variable {s t : State} {i : Nat} {r : Route} {y z : Session}

/-- What leaves after a place was given a new session leaves from the state before as well. -/
theorem State.Told.of_setSession (h : (s.setSession i z).Told t i y r) : s.Told t i y r where
  keeps := (State.setSession_keeps rfl (.refl _ s)).trans h.keeps
  own := h.own
  others k hk := (h.others k hk).trans (by rw [State.session_setSession, if_neg hk])
  slots := h.slots
  regs := h.regs
  sent := h.sent

/-- While CTR has room, a protected datagram is one datagram that takes the next CTR. -/
theorem State.mdpSend_told (type seq : Nat) (body : List Byte) (hp : (s.session i).present = true) (hx : (s.session i).txCtr ≤ ctrLimit) :
    s.Told (s.mdpSend i r type seq body) i { s.session i with txCtr := (s.session i).txCtr + 1 } r := by
  obtain ⟨b, e⟩ : ∃ b, s.mdpSend i r type seq body =
      (s.setSession i { s.session i with txCtr := (s.session i).txCtr + 1 }).sendDatagram r b :=
    ⟨_, by rw [State.mdpSend, if_neg (by simp [hp]), if_neg (by omega)]; rfl⟩
  rw [e]
  refine .of_setSession ⟨State.sendDatagram_keeps rfl (.refl _ _), ?_, ?_, ?_, ?_, ?_⟩
  · rw [State.sendDatagram_session, State.session_setSession, if_pos rfl]
  · exact fun k _ => State.sendDatagram_session _ _ _ k
  · rw [State.sendDatagram_mdp]
  · exact fun a ha => State.reg_sendDatagram _ _ _ ha
  · exact fun h => ⟨b, State.sendDatagram_wire _ _ _ h⟩

end

/-! ## The end of a session (R346) -/

section
variable (s : State) (i c : Nat)

theorem State.endSession_of_absent (h : (s.session i).present = false) : s.endSession i c = s := by
  simp [State.endSession, h]

/-- The place of an open session is emptied; what the session held elsewhere goes with it. -/
theorem State.endSession_of_open (h : (s.session i).present = true) : ∃ u : State, u.mdp = s.mdp ∧ s.endSession i c = u.setSession i {} := by
  rw [State.endSession, if_pos h]
  generalize hu : ((s.log F.MDP_SESSION_END R.mdp _).event R.mdp_EVENTS 1) = u
  refine ⟨(u.endExport i).dropLatches (.session (Fin.ofNat 8 i)), ?_, rfl⟩
  change u.mdp = s.mdp
  rw [← hu, State.event_mdp, State.log_mdp]

theorem State.session_endSession (k : Nat) :
    (s.endSession i c).session k = if k = i ∧ (s.session i).present = true then {} else s.session k := by
  cases hp : (s.session i).present
  case false => rw [State.endSession_of_absent s i c hp, if_neg (by simp)]
  case true =>
    obtain ⟨u, mdp, e⟩ := State.endSession_of_open s i c hp
    rw [e, State.session_setSession, State.session_of_mdp k mdp]
    simp

@[simp] theorem State.endSession_slots : (s.endSession i c).mdp.slots = s.mdp.slots := by
  cases hp : (s.session i).present
  case false => rw [State.endSession_of_absent s i c hp]
  case true =>
    obtain ⟨u, mdp, e⟩ := State.endSession_of_open s i c hp
    rw [e, ← mdp]
    rfl

variable {s i}

theorem State.endSession_logs (hrun : s.running = true) (hp : (s.session i).present = true) : s.Logs (s.endSession i c) F.MDP_SESSION_END := by
  rw [State.endSession, if_pos hp]
  exact (State.log_logsOne hrun _ _ _).logs.keep (A := 0x5c00000007)
    (State.setSession_keeps rfl (State.dropLatches_keeps rfl (State.endExport_keeps rfl (State.event_keeps rfl (.refl _ _))))) rfl

end

/-- Sessions that end one after another leave their places empty, and no other. -/
theorem State.session_endSessions (ends : List (Nat × Nat)) (s : State) (k : Nat) :
    (ends.foldl (fun s e => s.endSession e.1 e.2) s).session k = if k ∈ ends.map Prod.fst ∧ (s.session k).present = true then {} else s.session k := by
  induction ends generalizing s with
  | nil => simp
  | cons e l ih =>
    have first := s.session_endSession e.1 e.2 k
    rw [List.foldl_cons, ih, first]
    by_cases hk : k = e.1
    · subst hk
      by_cases hp : (s.session e.1).present = true <;> simp [hp]
    · simp only [hk, false_and, if_false]
      exact if_congr (by simp [hk]) rfl rfl

theorem State.endSessions_slots (ends : List (Nat × Nat)) (s : State) :
    (ends.foldl (fun s e => s.endSession e.1 e.2) s).mdp.slots = s.mdp.slots := by
  induction ends generalizing s with
  | nil => rfl
  | cons e l ih => rw [List.foldl_cons, ih, State.endSession_slots]

theorem State.endSessions_keeps (ends : List (Nat × Nat)) (s : State) :
    Keeps 0x5c00000007 s (ends.foldl (fun s e => s.endSession e.1 e.2) s) :=
  Keeps.foldl (fun _ _ h => State.endSession_keeps rfl h) (.refl _ s)

/-! ## Requests in their turn (R348) -/

/-- A session once the answer of request E + 1 has left. -/
def Session.answering (x : Session) (body : List Byte) : Session :=
  { x with executed := x.executed + 1, answers := ((⟨x.executed + 1, body⟩ : Answer) :: x.answers).take 64,
           held := x.held.filter fun h => x.executed + 1 < h.seq, txCtr := x.txCtr + 1 }

/-- A session that is open, closes after no request and has numbers and a CTR left for one more request. -/
structure Session.Open (x : Session) : Prop where
  present : x.present = true
  closing : x.closing = none
  room    : x.txCtr ≤ ctrLimit
  numbers : x.executed + 1 < 0xFFFFFFFF

/-- Nothing runs of a session that holds no request. -/
theorem State.runHeld_of_idle {s : State} {i : Nat} (h : (s.session i).held = []) (k : Nat) : State.runHeld i k s = s := by
  cases k with
  | zero => rfl
  | succ k => simp [State.runHeld, h]

theorem State.closeCheck_of_open {s : State} {i : Nat} (h : (s.session i).closing = none) : s.closeCheck i = s := by
  simp [State.closeCheck, h]

section
variable {i op : Nat} {route : Route} {r : OpResult}

/-- A finished operation is answered as request E + 1, and then the sessions end that end with it. -/
theorem State.finishOp_told (h : (r.state.session i).Open) :
    ∃ u, r.state.Told u i ((r.state.session i).answering (answerBody op r)) route ∧
      State.finishOp i op route r = r.ends.foldl (fun s e => s.endSession e.1 e.2) u := by
  obtain ⟨hp, hc, hx, hn⟩ := h
  let y : Session := { (r.state.session i).answering (answerBody op r) with txCtr := (r.state.session i).txCtr }
  have own : (r.state.setSession i y).session i = y := by rw [State.session_setSession, if_pos rfl]
  have told := State.mdpSend_told (r := route) 4 ((r.state.session i).executed + 1) (answerBody op r)
    (s := r.state.setSession i y) (i := i) (by rw [own]; exact hp) (by rw [own]; exact hx)
  rw [own] at told
  refine ⟨_, told.of_setSession, ?_⟩
  generalize ho : (r.state.setSession i y).mdpSend i route 4 ((r.state.session i).executed + 1) (answerBody op r) = u at told ⊢
  have closing : ((r.ends.foldl (fun s e => s.endSession e.1 e.2) u).session i).closing = none := by
    rw [State.session_endSessions, told.own]
    split
    · rfl
    · exact hc
  rw [← State.closeCheck_of_open closing]
  unfold State.finishOp
  rw [if_neg (by simp [hp])]
  dsimp only
  rw [if_neg (by omega), ← ho]
  rfl

end

end Sys2Proof.Machine
end

section
/-!
PROOF. O54: which datagrams a management port takes, what each of them does with its session, and how sessions open, end and are
told of entries (R340 to R352).
-/

namespace Sys2Proof.Machine

/-! ## One more in a counter -/

/-- A counter has counted one, up to its limit. -/
def State.Took (s t : State) (a : Nat) : Prop := (t.reg a).toNat = min 0xFFFFFFFF ((s.reg a).toNat + 1)

section
variable {s s' t u : State} {a : Nat}

theorem State.count_took (s : State) (a : Nat) : s.Took (s.count a) a := s.toNat_reg_count a

theorem State.Took.keep (h : s.Took t a) (e : u.reg a = t.reg a) : s.Took u a := by
  rw [State.Took, e]
  exact h

theorem State.Took.after (h : s.Took t a) (e : s.reg a = s'.reg a) : s'.Took t a := by
  rw [State.Took, ← e]
  exact h

theorem State.reg_mdpLog (s : State) (c : FaultClass) (i : Nat) (data : List Byte) (a : Nat) : (s.mdpLog c i data).reg a = s.reg a :=
  s.reg_logRated ..

/-- An event of the MDP block leaves every other register of it. -/
theorem State.reg_mdpEvent (s : State) (m : Nat) {a : Nat} (h : a ∉ [R.mdp_EVENTS, R.hub_SATURATED]) : (s.event R.mdp_EVENTS m).reg a = s.reg a := by
  obtain ⟨he, hs⟩ : a ≠ R.mdp_EVENTS ∧ a ≠ R.hub_SATURATED := by simpa using h
  rw [State.reg_event _ _ _ _ hs, if_neg he]

theorem State.malformed_wire (s : State) (r : Route) (n : Nat) : (s.malformed r n).wire = s.wire :=
  (State.malformed_keeps rfl (.refl 0x4000000001 s)).same .wire rfl

theorem State.malformed_mdp (s : State) (r : Route) (n : Nat) : (s.malformed r n).mdp = s.mdp :=
  (State.malformed_keeps rfl (.refl 0x4000000001 s)).same .mdp rfl

theorem State.malformed_took (s : State) (r : Route) (n : Nat) : s.Took (s.malformed r n) R.mdp_VIOLATIONS :=
  (s.count_took _).keep (State.reg_logRated ..)

end

/-! ## What a port hears (R340, R343) -/

section
variable {s : State} {r : Route} {d : List Byte} {type least i : Nat}

theorem State.mdpOn_running (h : s.mdpOn = true) : s.running = true := (Bool.and_eq_true_iff.mp h).1

theorem State.mdpHears_iff : s.mdpHears r = true ↔ s.mdpOn = true ∧ (s.port r.mp).state = .up := by
  simp [State.mdpHears]

theorem State.mdpHears_running (h : s.mdpHears r = true) : s.running = true := State.mdpOn_running (State.mdpHears_iff.mp h).1

theorem State.onDatagram_of_deaf (h : s.mdpHears r = false) (f) : s.onDatagram r type least d f = s := by
  simp [State.onDatagram, h]

theorem State.sessionOf_present {id : Nat} (h : s.sessionOf id = some i) : (s.session i).present = true :=
  (Bool.and_eq_true_iff.mp (List.find?_some (p := fun k => (s.session k).present && (s.session k).id.toNat == id) h)).1

/-- The plaintext of a datagram under the key of a session. -/
def State.plain (s : State) (i : Nat) (d : List Byte) : Option (List Byte) :=
  gcmOpen (s.session i).key (mdpNonce false (be d 12 8)) (d.take 20) (d.drop 20)

/-- The state once a datagram of a session is accepted: its CTR is taken, its route is the session's, and it is counted. -/
def State.accepted (s : State) (r : Route) (i ctr : Nat) : State :=
  (s.setSession i { (s.session i).take ctr with route := r, lastAt := s.now }).count (R.mp_MDP_RX (b2n r.m1))

section
variable (hh : s.mdpHears r = true) (hd : headerOk d type (16 + least) = true) (f : State → Nat → Nat → List Byte → State)
include hh hd

/-- A protected datagram of no open session counts in VIOLATIONS. -/
theorem State.onDatagram_of_stranger (hs : s.sessionOf (be d 4 4) = none) :
    (s.onDatagram r type least d f).mdp = s.mdp ∧ s.Took (s.onDatagram r type least d f) R.mdp_VIOLATIONS := by
  have e : s.onDatagram r type least d f = s.mdpViolation.logRated F.MDP_NO_SESSION 0 R.mdp 0 (fun _ => leBytes 4 (be d 4 4)) false := by
    simp [State.onDatagram, State.acceptDatagram, hh, hd, hs]
  rw [e]
  exact ⟨(State.logRated_keeps rfl (State.mdpViolation_keeps rfl (.refl 0x4000000001 s))).same .mdp rfl,
    (s.count_took _).keep (State.reg_logRated ..)⟩

variable (hs : s.sessionOf (be d 4 4) = some i)
include hs

/-- One that does not authenticate counts in AUTH_FAIL. -/
theorem State.onDatagram_of_forged (hp : s.plain i d = none) :
    (s.onDatagram r type least d f).mdp = s.mdp ∧ s.Took (s.onDatagram r type least d f) R.mdp_AUTH_FAIL := by
  unfold State.plain at hp
  have e : s.onDatagram r type least d f = ((s.count R.mdp_AUTH_FAIL).logRated F.MDP_AUTH (s.session i).id.toNat R.mdp 0
      (fun n => leBytes 4 (s.session i).id.toNat ++ leBytes 4 n) false).event R.mdp_EVENTS 4 := by
    simp [State.onDatagram, State.acceptDatagram, hh, hd, hs, hp]
  rw [e]
  refine ⟨(State.event_keeps rfl (State.logRated_keeps rfl (State.count_keeps rfl (.refl 0x4800000005 s)))).same .mdp rfl, ?_⟩
  exact (s.count_took _).keep ((State.reg_mdpEvent _ _ (by decide)).trans (State.reg_logRated ..))

variable {body : List Byte} (hp : s.plain i d = some body)
include hp

/-- An authentic one whose CTR was seen before counts in REPLAYS. -/
theorem State.onDatagram_of_replay (hc : (s.session i).ctrNew (be d 12 8) = false) :
    (s.onDatagram r type least d f).mdp = s.mdp ∧ s.Took (s.onDatagram r type least d f) R.mdp_REPLAYS := by
  unfold State.plain at hp
  have e : s.onDatagram r type least d f = (s.count R.mdp_REPLAYS).mdpLog F.MDP_REPLAY i (leBytes 8 (be d 12 8)) := by
    simp [State.onDatagram, State.acceptDatagram, hh, hd, hs, hp, hc]
  rw [e]
  exact ⟨(State.mdpLog_keeps rfl (State.count_keeps rfl (.refl 0x4000000001 s))).same .mdp rfl, (s.count_took _).keep (State.reg_mdpLog _ _ _ _ _)⟩

variable (hc : (s.session i).ctrNew (be d 12 8) = true)
include hc

/-- One whose CTR is beyond the limit ends the session. -/
theorem State.onDatagram_of_exhausted (hl : ctrLimit < be d 12 8) : s.onDatagram r type least d f = s.endSession i 6 := by
  unfold State.plain at hp
  simp [State.onDatagram, State.acceptDatagram, hh, hd, hs, hp, hc, hl]

/-- Any other is accepted. -/
theorem State.onDatagram_of_accepted (hl : be d 12 8 ≤ ctrLimit) :
    s.onDatagram r type least d f = f (s.accepted r i (be d 12 8)) i (be d 8 4) body := by
  unfold State.plain at hp
  simp [State.onDatagram, State.acceptDatagram, hh, hd, hs, hp, hc, Nat.not_lt.mpr hl, State.accepted]

end

/-! ## An accepted datagram -/

section
variable (s r i) (ctr : Nat)

theorem State.accepted_keeps : Keeps 0x1000000001 s (s.accepted r i ctr) := State.count_keeps rfl (State.setSession_keeps rfl (.refl _ s))

theorem State.session_accepted (k : Nat) :
    (s.accepted r i ctr).session k = if k = i then { (s.session i).take ctr with route := r, lastAt := s.now } else s.session k :=
  (State.session_of_mdp k (State.count_mdp _ _)).trans (State.session_setSession _ _ _ _)

theorem State.reg_accepted {a : Nat} (h : a ≠ R.mp_MDP_RX (b2n r.m1)) : (s.accepted r i ctr).reg a = s.reg a :=
  (State.reg_count _ _ a).trans (if_neg h)

theorem State.accepted_wire : (s.accepted r i ctr).wire = s.wire := State.count_wire _ _

end

end

end Sys2Proof.Machine
end

section
/-! PROOF. O54: IDENTIFY and OPEN (R344, R345). -/

namespace Sys2Proof.Machine

/-! ## Answers without a session -/

section
variable (s : State) (r : Route)

/-- The rate of a kind is counted from the time and the configuration. -/
theorem State.inRate_of_parts {t : State} (hc : t.config = s.config) (hn : t.now = s.now) (x : Nat × Nat) : t.inRate x = s.inRate x := by
  have rate : t.openRate = s.openRate := by
    rw [State.openRate, State.mdpSetting, State.hasSection, State.payload_of_config hc, hc]
    rfl
  rw [State.inRate, rate, hn]
  rfl

theorem State.mdpReply_of_late (ty : Nat) (b : List Byte) (h : (s.inRate s.mdp.replies).2 = false) : s.mdpReply r ty b = s := by
  simp [State.mdpReply, h]

theorem State.mdpReply_of_rate (ty : Nat) (b : List Byte) (h : (s.inRate s.mdp.replies).2 = true) :
    s.mdpReply r ty b = (s.modMdp fun m => { m with replies := (s.inRate s.mdp.replies).1 }).sendDatagram r (mdpHeader ty 0 0 0 ++ b) := by
  simp [State.mdpReply, h]

theorem State.mdpReply_sessions (ty : Nat) (b : List Byte) : (s.mdpReply r ty b).mdp.sessions = s.mdp.sessions := by
  cases h : (s.inRate s.mdp.replies).2
  case false => rw [State.mdpReply_of_late s r ty b h]
  case true => rw [State.mdpReply_of_rate s r ty b h, State.sendDatagram_mdp, State.modMdp_mdp]

theorem State.reg_mdpReply (ty : Nat) (b : List Byte) {a : Nat} (ha : a ∉ r.txCounters) : (s.mdpReply r ty b).reg a = s.reg a := by
  cases h : (s.inRate s.mdp.replies).2
  case false => rw [State.mdpReply_of_late s r ty b h]
  case true => rw [State.mdpReply_of_rate s r ty b h, State.reg_sendDatagram _ _ _ ha]; rfl

end

/-! ## IDENTIFY (R344) -/

section
variable {s : State} {r : Route} {d : List Byte} (hh : s.mdpHears r = true)
include hh

theorem execMdpIdentify_of_answered (hd : headerOk d 9 1056 = true) (hz : ((d.drop 20).all fun b => b == 0) = true) :
    execMdpIdentify r d s = .next ((s.count (R.mp_MDP_RX (b2n r.m1))).mdpReply r 10 Config.deviceCertificate) := by
  simp only [execMdpIdentify, hh, hd, hz, Bool.not_true, Bool.and_self, if_false, if_true, Bool.false_eq_true]

theorem execMdpIdentify_of_malformed (hd : headerOk d 9 1056 = false) : execMdpIdentify r d s = .next (s.malformed r (be d 3 1)) := by
  simp [execMdpIdentify, hh, hd]

/-- The certificate answers within the rate. -/
theorem identify_answers (h : (s.inRate s.mdp.replies).2 = true) :
    let t := (s.count (R.mp_MDP_RX (b2n r.m1))).mdpReply r 10 Config.deviceCertificate
    t.wire = .mdp r (mdpHeader 10 0 0 0 ++ Config.deviceCertificate) :: s.wire ∧ t.mdp.sessions = s.mdp.sessions := by
  generalize hu : s.count (R.mp_MDP_RX (b2n r.m1)) = u
  have kept : Keeps 1 s u := hu ▸ State.count_keeps rfl (.refl _ s)
  have mdp : u.mdp = s.mdp := kept.same .mdp rfl
  have rate : (u.inRate u.mdp.replies).2 = true := by rw [mdp, State.inRate_of_parts s (kept.same .config rfl) kept.now, h]
  let v := u.modMdp fun m => { m with replies := (u.inRate u.mdp.replies).1 }
  have up : (v.port r.mp).state = .up := by
    change (u.port r.mp).state = _
    rw [State.port_of_ports _ (kept.same .ports rfl)]
    exact (State.mdpHears_iff.mp hh).2
  refine ⟨?_, ?_⟩
  · rw [State.mdpReply_of_rate _ _ _ _ rate]
    exact (v.sendDatagram_wire r _ up).trans (congrArg _ (kept.same .wire rfl))
  · rw [State.mdpReply_sessions, mdp]

omit hh in
/-- Beyond the rate nothing leaves. -/
theorem identify_of_late (h : (s.inRate s.mdp.replies).2 = false) :
    let t := (s.count (R.mp_MDP_RX (b2n r.m1))).mdpReply r 10 Config.deviceCertificate
    t.wire = s.wire ∧ t.mdp = s.mdp := by
  generalize hu : s.count (R.mp_MDP_RX (b2n r.m1)) = u
  have kept : Keeps 1 s u := hu ▸ State.count_keeps rfl (.refl _ s)
  have mdp : u.mdp = s.mdp := kept.same .mdp rfl
  have rate : (u.inRate u.mdp.replies).2 = false := by rw [mdp, State.inRate_of_parts s (kept.same .config rfl) kept.now, h]
  rw [State.mdpReply_of_late _ _ _ _ rate]
  exact ⟨kept.same .wire rfl, mdp⟩

end

/-! ## An OPEN that fails (R345, R354) -/

/-- An OPEN has failed: it is counted, and every session is as it was. -/
def State.OpenFailed (s t : State) : Prop := s.Took t R.mdp_OPEN_FAILS ∧ t.mdp.sessions = s.mdp.sessions

section
variable (s : State)

theorem State.enrolFailed_sessions : s.enrolFailed.mdp.sessions = s.mdp.sessions := by
  unfold State.enrolFailed
  dsimp only
  split
  · rw [State.ownEvent, State.event_mdp, State.log_mdp, State.modMdp_mdp, State.log_mdp, State.modMdp_mdp]
  · rw [State.log_mdp, State.modMdp_mdp]

theorem State.reg_enrolFailed {a : Nat} (h : a ∉ [R.mdp_EVENTS, R.hub_SATURATED]) : s.enrolFailed.reg a = s.reg a := by
  have first (u : State) (f : Mdp → Mdp) (c : FaultClass) (b : List Byte) : ((u.modMdp f).log c R.mdp b).reg a = u.reg a :=
    State.reg_of_regs a (State.log_regs ..)
  unfold State.enrolFailed
  dsimp only
  split
  · rw [State.ownEvent, State.reg_mdpEvent _ _ h, first, first]
  · rw [first]

/-- An OPEN that fails at a step from 2 on. -/
theorem State.openFails_spec (hrun : s.running = true) (r : Route) (o : Opening) (step reason : Nat) :
    s.OpenFailed (s.openFails r o step reason) ∧ s.Logs (s.openFails r o step reason) F.MDP_OPEN_FAIL := by
  have quiet : R.mdp_OPEN_FAILS ∉ [R.mdp_EVENTS, R.hub_SATURATED] := by decide
  let u := (s.count R.mdp_OPEN_FAILS).event R.mdp_EVENTS 2
  let v := u.log F.MDP_OPEN_FAIL R.mdp (leBytes 1 o.slot ++ leBytes 1 step ++ leBytes 1 r.mp)
  have early : Keeps 0x4800000005 s u := State.event_keeps rfl (State.count_keeps rfl (.refl _ s))
  have counted : s.Took v R.mdp_OPEN_FAILS := (s.count_took _).keep ((State.reg_of_regs _ (State.log_regs ..)).trans (State.reg_mdpEvent _ _ quiet))
  have sessions : v.mdp.sessions = s.mdp.sessions := by
    rw [State.log_mdp]
    exact congrArg Mdp.sessions (early.same .mdp rfl)
  have logged : s.Logs v F.MDP_OPEN_FAIL := (State.log_logsOne (early.running rfl hrun) _ _ _).logs.after early rfl
  obtain ⟨w, e, later, reg, ses⟩ : ∃ w, s.openFails r o step reason = w.mdpReply r 8 (beBytes 2 reason ++ beBytes 2 0 ++ beBytes 8 o.time) ∧
      Keeps 0x5800000005 v w ∧ w.reg R.mdp_OPEN_FAILS = v.reg R.mdp_OPEN_FAILS ∧ w.mdp.sessions = v.mdp.sessions := by
    by_cases h : o.slot = 0xFF ∧ (step = 6 ∨ step = 7)
    · exact ⟨v.enrolFailed, by simp only [State.openFails, if_pos h]; rfl, State.enrolFailed_keeps rfl (.refl _ v), v.reg_enrolFailed quiet,
        v.enrolFailed_sessions⟩
    · exact ⟨v, by simp only [State.openFails, if_neg h]; rfl, .refl _ v, rfl, rfl⟩
  rw [e]
  refine ⟨⟨counted.keep ((w.reg_mdpReply r _ _ (r.not_txCounter (by decide))).trans reg), ?_⟩, ?_⟩
  · rw [State.mdpReply_sessions, ses, sessions]
  · exact (logged.keep later rfl).keep (State.mdpReply_keeps rfl (.refl 0x1000000021 w)) rfl

end

/-! ## An OPEN that is accepted -/

section
variable (s : State)

/-- A session is created in the first free place, and its OPEN_ACK leaves. -/
theorem State.openSession_spec (hrun : s.running = true) (r : Route) (o : Opening) (key : List Byte) {i : Nat}
    (hi : ((List.range 8).find? fun k => !(s.session k).present) = some i) :
    let t := s.openSession r o key
    let rights := if o.slot = 0xFF then 0 else (s.slot o.slot).perms % 8
    t.session i = { present := true, id := sessionId s.mdp.draws, key := key, slot := o.slot, rights := rights, route := r, lastAt := s.now, txCtr := 2 } ∧
    (∀ k, k ≠ i → t.session k = s.session k) ∧ s.Logs t F.MDP_SESSION_OPEN ∧ s.Took t R.mdp_OPENS := by
  intro t rights
  let y : Session := { present := true, id := sessionId s.mdp.draws, key := key, slot := o.slot, rights := rights, route := r, lastAt := s.now }
  let keep := s.mdp.fresh.filter fun e => decide (s.now < e.2 + sec 60)
  let u := (s.modMdp fun m => { m with draws := m.draws + 1, fresh := (o.print, s.now) :: keep }).setSession i y
  let v := ((u.count (R.mp_MDP_RX (b2n r.m1))).count R.mdp_OPENS).event R.mdp_EVENTS 1
  let w := v.log F.MDP_SESSION_OPEN R.mdp (leBytes 4 (sessionId s.mdp.draws).toNat ++ leBytes 1 o.slot ++ leBytes 1 r.mp)
  have e : t = w.mdpSend i r 2 0 (w.openAck rights o.time) := by
    simp only [t, State.openSession, hi]
    rfl
  have early : Keeps 0x5800000005 s v :=
    State.event_keeps rfl (State.count_keeps rfl (State.count_keeps rfl (State.setSession_keeps rfl (State.modMdp_keeps rfl (.refl _ s)))))
  have mdp : w.mdp = u.mdp := by rw [State.log_mdp, State.event_mdp, State.count_mdp, State.count_mdp]
  have session (k : Nat) : w.session k = if k = i then y else s.session k := by
    rw [State.session_of_mdp k mdp, State.session_setSession]
    rfl
  have own : w.session i = y := by rw [session, if_pos rfl]
  have told := State.mdpSend_told (s := w) (i := i) (r := r) 2 0 (w.openAck rights o.time) (by rw [own]) (by rw [own]; exact Nat.le_of_ble_eq_true rfl)
  rw [← e] at told
  refine ⟨by rw [told.own, own], fun k hk => by rw [told.others k hk, session, if_neg hk], ?_, ?_⟩
  · exact ((State.log_logsOne (early.running rfl hrun) _ _ _).logs.after early rfl).keep told.keeps rfl
  · refine ((u.count (R.mp_MDP_RX (b2n r.m1))).count_took R.mdp_OPENS).after (s' := s) ?_ |>.keep ?_
    · exact (State.reg_count _ _ _).trans (if_neg (by cases r.m1 <;> decide))
    · exact (told.regs _ (r.not_txCounter (by decide))).trans
        ((State.reg_of_regs _ (State.log_regs ..)).trans (State.reg_mdpEvent _ _ (by decide)))

/-- What an OPEN is checked against does not depend on the count of the running second. -/
theorem State.openCheck_of_opens (x : Nat × Nat) (o : Opening) : (s.modMdp fun m => { m with opens := x }).openCheck o = s.openCheck o := rfl

/-- An OPEN that passes the checks has found room. -/
theorem State.openCheck_room {o : Opening} {key : List Byte} (h : s.openCheck o = .ok key) : s.openSessions < s.maxSessions := by
  unfold State.openCheck at h
  dsimp only at h
  repeat' split at h
  all_goals cases h
  all_goals exact Nat.lt_of_not_le ‹¬s.maxSessions ≤ s.openSessions›

/-- With every place taken no OPEN passes the checks. -/
theorem State.openCheck_of_full (hm : s.maxSessions ≤ 8) (hf : ∀ k, k < 8 → (s.session k).present = true) (o : Opening) :
    ∃ e, s.openCheck o = .error e := by
  have full : s.openSessions = 8 := by
    rw [State.openSessions, List.filter_eq_self.mpr fun k hk => hf k (List.mem_range.mp hk), List.length_range]
  cases h : s.openCheck o
  case error e => exact ⟨e, rfl⟩
  case ok key =>
    have := s.openCheck_room h
    omega

end

/-! ## The row of an OPEN -/

section
variable {s : State} {r : Route} {d : List Byte} (hh : s.mdpHears r = true)
include hh

theorem execMdpOpen_of_malformed (hd : headerOk d 1 1036 = false) : execMdpOpen r d s = .next (s.malformed r (be d 3 1)) := by
  simp [execMdpOpen, hh, hd]

variable (hd : headerOk d 1 1036 = true)
include hd

/-- Beyond the rate an OPEN fails, unchecked and unanswered. -/
theorem execMdpOpen_of_late (hr : (s.inRate s.mdp.opens).2 = false) :
    ∃ t, execMdpOpen r d s = .next t ∧ s.OpenFailed t ∧ t.wire = s.wire := by
  let u := s.modMdp fun m => { m with opens := (s.inRate s.mdp.opens).1 }
  let v := (u.count R.mdp_OPEN_FAILS).event R.mdp_EVENTS 2
  let t := v.logRated F.MDP_OPEN_FAIL 0 R.mdp 0 (fun _ => leBytes 1 (openingOf d).slot ++ leBytes 1 1 ++ leBytes 1 r.mp) false
  have e : execMdpOpen r d s = .next t := by
    unfold execMdpOpen
    rw [if_neg (by simp [hh]), if_neg (by simp [hd])]
    exact if_pos (by simp [hr])
  have kept : Keeps 0x4800000005 u t := State.logRated_keeps rfl (State.event_keeps rfl (State.count_keeps rfl (.refl _ u)))
  refine ⟨t, e, ⟨?_, congrArg Mdp.sessions (a₂ := u.mdp) (kept.same .mdp rfl)⟩, kept.same .wire rfl⟩
  exact (u.count_took R.mdp_OPEN_FAILS).keep ((State.reg_logRated ..).trans (State.reg_mdpEvent _ _ (by decide)))

variable (hr : (s.inRate s.mdp.opens).2 = true)
include hr

/-- One that fails a check is counted, logged and opens no session. -/
theorem execMdpOpen_of_error {step reason : Nat} (he : s.openCheck (openingOf d) = .error (step, reason)) :
    ∃ t, execMdpOpen r d s = .next t ∧ s.OpenFailed t ∧ s.Logs t F.MDP_OPEN_FAIL := by
  let u := s.modMdp fun m => { m with opens := (s.inRate s.mdp.opens).1 }
  have e : execMdpOpen r d s = .next (u.openFails r (openingOf d) step reason) := by
    unfold execMdpOpen
    rw [if_neg (by simp [hh]), if_neg (by simp [hd])]
    dsimp only
    rw [if_neg (by simp [hr]), State.openCheck_of_opens, he]
  exact ⟨_, e, u.openFails_spec (State.mdpHears_running hh) r _ step reason⟩

/-- One that passes opens a session in the first free place. -/
theorem execMdpOpen_of_ok {key : List Byte} (he : s.openCheck (openingOf d) = .ok key) {i : Nat}
    (hi : ((List.range 8).find? fun k => !(s.session k).present) = some i) :
    ∃ t, execMdpOpen r d s = .next t ∧ (t.session i).present = true ∧ (t.session i).key = key ∧ (t.session i).slot = be d 20 1 ∧
      (t.session i).route = r ∧ (t.session i).rights = (if be d 20 1 = 0xFF then 0 else (s.slot (be d 20 1)).perms % 8) ∧
      (∀ k, k ≠ i → t.session k = s.session k) ∧ s.Logs t F.MDP_SESSION_OPEN ∧ s.Took t R.mdp_OPENS := by
  let u := s.modMdp fun m => { m with opens := (s.inRate s.mdp.opens).1 }
  have e : execMdpOpen r d s = .next (u.openSession r (openingOf d) key) := by
    unfold execMdpOpen
    rw [if_neg (by simp [hh]), if_neg (by simp [hd])]
    dsimp only
    rw [if_neg (by simp [hr]), State.openCheck_of_opens, he]
  obtain ⟨own, others, logged, counted⟩ := u.openSession_spec (State.mdpHears_running hh) r (openingOf d) key hi
  exact ⟨_, e, by rw [own], by rw [own], by rw [own]; rfl, by rw [own], by rw [own]; rfl, others, logged, counted⟩

end

end Sys2Proof.Machine
end

section
/-! PROOF. O54: requests, acknowledgements and CLOSE (R346, R348, R352). -/

namespace Sys2Proof.Machine

/-! ## Requests (R348) -/

section
variable {s : State} {r : Route} {i n ctr : Nat} {body : List Byte}

/-- A setting is read from the configuration. -/
theorem State.mdpWindow_of_config {t : State} (hc : t.config = s.config) : t.mdpWindow = s.mdpWindow := by
  rw [State.mdpWindow, State.mdpSetting, State.hasSection, State.payload_of_config hc, hc]
  rfl

/-- A request beyond the window is a violation. -/
theorem State.onRequest_of_beyond (h : (s.session i).executed + s.mdpWindow < n) : s.onRequest r i n body = s.mdpViolation := by
  rw [State.onRequest, if_pos (by omega), if_neg (by omega)]

/-- A request that has been executed is answered again. -/
theorem State.onRequest_of_executed {a : Answer} (h : n ≤ (s.session i).executed)
    (ha : ((s.session i).answers.find? fun a => a.seq == n) = some a) :
    s.onRequest r i n body = (s.count R.mdp_RETX).mdpSend i r 4 n a.body := by
  simp only [State.onRequest, if_neg (Nat.not_lt.mpr h), ha]

/-- The next request of a session that holds none runs alone: it is executed in full, and the sessions that end with it end. -/
theorem State.onRequest_of_next (hp : (s.session i).present = true) (hw : 1 ≤ s.mdpWindow) (hn : n = (s.session i).executed + 1)
    (hh : (s.session i).held = []) :
    s.onRequest r i n body =
      State.runHeld i 63 ((s.setSession i { s.session i with held := [⟨n, body, r⟩] }).runBody i ⟨n, body, r⟩) := by
  rw [State.onRequest, if_pos (by omega), if_pos (by omega), State.modSession_eq, hh, List.filter_nil]
  let z : Session := { s.session i with held := [⟨n, body, r⟩] }
  have own : (s.setSession i z).session i = z := by rw [State.session_setSession, if_pos rfl]
  change State.runHeld i (63 + 1) (s.setSession i z) = _
  rw [State.runHeld]
  simp only [own]
  simp [z, hp, hn]

/-- A NOP is answered with the raster. -/
theorem State.runBody_of_nop (s : State) (i n : Nat) (r : Route) :
    s.runBody i ⟨n, [0x50, 0, 0, 0], r⟩ = State.finishOp i opNop r s.doNop := rfl

/-- The answer of a NOP. -/
theorem State.answerBody_nop (s : State) : answerBody opNop s.doNop = [0x50, 0, 0, 0] ++ beBytes 8 s.stamp.toNat := by
  have head : beBytes 1 opNop ++ beBytes 1 0 ++ beBytes 2 0 = [0x50, 0, 0, 0] := by decide
  rw [← head]
  rfl

/-- The NOP that comes next is executed, numbered and answered. -/
theorem State.onRequest_nop (ho : (s.session i).Open) (hw : 1 ≤ s.mdpWindow) (hn : n = (s.session i).executed + 1)
    (hh : (s.session i).held = []) :
    ∃ u, s.Told u i ({ s.session i with held := [⟨n, [0x50, 0, 0, 0], r⟩] }.answering (answerBody opNop s.doNop)) r ∧
      s.onRequest r i n [0x50, 0, 0, 0] = u := by
  let z : Session := { s.session i with held := [⟨n, [0x50, 0, 0, 0], r⟩] }
  have own : (s.setSession i z).session i = z := by rw [State.session_setSession, if_pos rfl]
  obtain ⟨u, told, e⟩ := State.finishOp_told (i := i) (op := opNop) (route := r) (r := (s.setSession i z).doNop)
    (by change ((s.setSession i z).session i).Open; rw [own]; exact ⟨ho.present, ho.closing, ho.room, ho.numbers⟩)
  change (s.setSession i z).Told u i _ r at told
  have answer : (s.setSession i z).doNop.result = s.doNop.result := rfl
  refine ⟨u, ?_, ?_⟩
  · change State.Told _ _ _ (((s.setSession i z).session i).answering _) _ at told
    rw [own] at told
    exact told.of_setSession
  · rw [State.onRequest_of_next ho.present hw hn hh, State.runBody_of_nop, e]
    refine State.runHeld_of_idle (s := u) ?_ 63
    rw [told.own]
    change (((s.setSession i z).session i).answering _).held = []
    rw [own]
    simp [Session.answering, z, hn]

end

/-! ## CLOSE (R346) -/

section
variable {s : State} {i n : Nat}

/-- A session whose CLOSE is due ends, whether its confirmation can still be sent or not. -/
theorem State.closeCheck_of_due (hrun : s.running = true) (hp : (s.session i).present = true) (hc : (s.session i).closing = some n)
    (hn : n ≤ (s.session i).executed) :
    (s.closeCheck i).session i = {} ∧ (∀ k, k ≠ i → (s.closeCheck i).session k = s.session k) ∧ s.Logs (s.closeCheck i) F.MDP_SESSION_END := by
  have e : s.closeCheck i = (s.mdpSend i (s.session i).route 7 0 []).endSession i 1 := by simp only [State.closeCheck, hc, hp, hn, and_self, if_true]
  rw [e]
  by_cases hx : (s.session i).txCtr ≤ ctrLimit
  case pos =>
    have told := State.mdpSend_told (r := (s.session i).route) 7 0 [] hp hx
    have still : ((s.mdpSend i (s.session i).route 7 0 []).session i).present = true := by rw [told.own]; exact hp
    refine ⟨by rw [State.session_endSession, if_pos ⟨rfl, still⟩], fun k hk => ?_, ?_⟩
    · rw [State.session_endSession, if_neg (fun h => hk h.1), told.others k hk]
    · exact (State.endSession_logs 1 (told.keeps.running rfl hrun) still).after told.keeps rfl
  case neg =>
    have spent : s.mdpSend i (s.session i).route 7 0 [] = s.endSession i 6 := by
      rw [State.mdpSend, if_neg (by simp [hp]), if_pos (by omega)]
    have own := s.session_endSession i 6 i
    rw [if_pos ⟨rfl, hp⟩] at own
    rw [spent, State.endSession_of_absent _ _ _ (by rw [own])]
    exact ⟨own, fun k hk => by rw [State.session_endSession, if_neg (fun h => hk h.1)], State.endSession_logs 6 hrun hp⟩

/-- A CLOSE that is earlier than its requests waits. -/
theorem State.closeCheck_of_waiting (hc : (s.session i).closing = some n) (hn : (s.session i).executed < n) : s.closeCheck i = s := by
  simp only [State.closeCheck, hc, Nat.not_le.mpr hn, and_false, if_false]

/-- A session that is open ends, alone. -/
theorem State.endSession_spec (c : Nat) (hrun : s.running = true) (hp : (s.session i).present = true) :
    (s.endSession i c).session i = {} ∧ (∀ k, k ≠ i → (s.endSession i c).session k = s.session k) ∧
    s.Logs (s.endSession i c) F.MDP_SESSION_END :=
  ⟨by rw [State.session_endSession, if_pos ⟨rfl, hp⟩], fun k hk => by rw [State.session_endSession, if_neg (fun h => hk h.1)],
    State.endSession_logs c hrun hp⟩

end

/-! ## Notifications (R352) -/

section
variable {s : State} {i : Nat}

/-- A session once a NOTIFY with a body has left. -/
def Session.notified (x : Session) (body : List Byte) (now : Nat) : Session :=
  { x with notifies := x.notifies ++ [⟨x.nextNotify, body, now⟩], nextNotify := x.nextNotify + 1, txCtr := x.txCtr + 1 }

theorem State.notify_told (recs : List (List Byte)) (hp : (s.session i).present = true) (hx : (s.session i).txCtr ≤ ctrLimit) :
    s.Told (s.notify i recs) i ((s.session i).notified (beBytes 1 recs.length ++ beBytes 3 0 ++ recs.flatten) s.now) (s.session i).route := by
  let y : Session := { (s.session i).notified (beBytes 1 recs.length ++ beBytes 3 0 ++ recs.flatten) s.now with txCtr := (s.session i).txCtr }
  have own : (s.setSession i y).session i = y := by rw [State.session_setSession, if_pos rfl]
  have told := State.mdpSend_told (s := s.setSession i y) (i := i) (r := (s.session i).route) 5 (s.session i).nextNotify
    (beBytes 1 recs.length ++ beBytes 3 0 ++ recs.flatten) (by rw [own]; exact hp) (by rw [own]; exact hx)
  rw [own] at told
  exact told.of_setSession

/-- Number of the oldest entry that the ledger still holds. -/
def State.oldestKept (s : State) : Nat :=
  match s.ledger.store.getLast? with
  | some e => e.seq
  | none => s.ledger.nextSeq

/-- A session that waits for no entry, or has no room for a NOTIFY, is sent none. -/
theorem execNotifySend_of_unsubscribed {i : Fin 8} (h : (s.session i.val).sub = none ∨ 64 ≤ (s.session i.val).notifies.length) :
    execNotifySend i s = .next s ∧ execStateNotify i s = .next s := by
  cases hb : (s.session i.val).sub
  case none => simp only [execNotifySend, execStateNotify, hb, and_self]
  case some b =>
    have full : 64 ≤ (s.session i.val).notifies.length := h.resolve_left (by simp [hb])
    simp [execNotifySend, execStateNotify, hb, full]

variable {i : Fin 8} {b : Subscription} (hb : (s.session i.val).sub = some b) (hp : (s.session i.val).present = true)
  (hl : (s.session i.val).notifies.length < 64)
include hb hp hl

/-- The entries due from where the stream stands are sent as one NOTIFY; with none due only the stream's place moves on. -/
theorem execNotifySend_of_kept (ho : newer32 s.oldestKept b.next = false) (hn : newer32 b.next s.ledger.nextSeq = false) :
    let y := takeEntries b.minSev (s.notifyRoom (s.session i.val).route) b.next s.ledger.store.reverse
    let v := s.setSession i.val { s.session i.val with sub := some { b with next := y.2 } }
    execNotifySend i s =
      if y.1.isEmpty then .next v else .next (v.notify i.val (y.1.map fun e => notifyRecord 1 (entryBytes e))) := by
  unfold State.oldestKept at ho
  cases hk : s.ledger.store.getLast?
  all_goals
    simp only [hk] at ho
    simp [execNotifySend, hb, hp, Nat.not_le.mpr hl, hk, ho, hn, b2n]

/-- Entries that have left the ledger are counted, logged and told as lost. -/
theorem execNotifySend_of_lost (ho : newer32 s.oldestKept b.next = true) :
    let last := (s.oldestKept + 0xFFFFFFFF) % 0x100000000
    let y := takeEntries b.minSev (s.notifyRoom (s.session i.val).route - 1) s.oldestKept s.ledger.store.reverse
    let v := s.setSession i.val { s.session i.val with sub := some { b with next := if newer32 b.next s.ledger.nextSeq then b.next else y.2 } }
    let w := ((v.countBy R.mdp_NOTIFY_LOST ((s.oldestKept + 0x100000000 - b.next) % 0x100000000)).event R.mdp_EVENTS 16).log F.NOTIFY_LOSS R.mdp
      (leBytes 4 (s.session i.val).id.toNat ++ leBytes 4 b.next ++ leBytes 4 last)
    execNotifySend i s =
      .next (w.notify i.val (notifyRecord 2 (beBytes 4 b.next ++ beBytes 4 last) :: y.1.map fun e => notifyRecord 1 (entryBytes e))) := by
  unfold State.oldestKept at ho ⊢
  cases hk : s.ledger.store.getLast?
  all_goals
    simp only [hk] at ho ⊢
    simp [execNotifySend, hb, hp, Nat.not_le.mpr hl, hk, ho, b2n]

/-- A STATE record is sent once per second. -/
theorem execStateNotify_of_due (hs : b.state = true) (hd : s.due (b.stateAt + sec 1) = true) :
    ∃ recs, execStateNotify i s = .next ((s.setSession i.val { s.session i.val with sub := some { b with stateAt := s.now } }).notify i.val recs) := by
  exact ⟨_, by
    unfold execStateNotify
    simp only [hb]
    exact if_pos ⟨hp, hs, hl, hd⟩⟩

end

section
variable {s : State} {i : Fin 8} {b : Subscription} (hp : (s.session i.val).present = true) (hb : (s.session i.val).sub = some b)
  (hl : (s.session i.val).notifies.length < 64) (hx : (s.session i.val).txCtr ≤ ctrLimit)
include hp hb hl hx

omit hb hl in
/-- A NOTIFY of a session whose stream has just moved. -/
theorem State.notify_subscribed (sub : Subscription) (recs : List (List Byte)) :
    ∃ p, s.Told ((s.setSession i.val { s.session i.val with sub := some sub }).notify i.val recs) i.val
      ({ s.session i.val with sub := some sub }.notified p s.now) (s.session i.val).route := by
  let y : Session := { s.session i.val with sub := some sub }
  have own : (s.setSession i.val y).session i.val = y := by rw [State.session_setSession, if_pos rfl]
  have told := State.notify_told (s := s.setSession i.val y) (i := i.val) recs (by rw [own]; exact hp) (by rw [own]; exact hx)
  rw [own] at told
  exact ⟨_, told.of_setSession⟩

omit hb hl in
/-- Lost entries are counted and logged before the NOTIFY that tells of them. -/
theorem State.loss_notified (hrun : s.running = true) (sub : Subscription) (n : Nat) (data : List Byte) (recs : List (List Byte)) :
    let w := ((s.setSession i.val { s.session i.val with sub := some sub }).countBy R.mdp_NOTIFY_LOST n).event R.mdp_EVENTS 16
    let t := (w.log F.NOTIFY_LOSS R.mdp data).notify i.val recs
    s.Logs t F.NOTIFY_LOSS ∧ (t.session i.val).notifies.length = (s.session i.val).notifies.length + 1 ∧
    (t.reg R.mdp_NOTIFY_LOST).toNat = min 0xFFFFFFFF ((s.reg R.mdp_NOTIFY_LOST).toNat + n) := by
  intro w t
  let u := s.setSession i.val { s.session i.val with sub := some sub }
  let z := w.log F.NOTIFY_LOSS R.mdp data
  have early : Keeps 0x5800000005 s w := State.event_keeps rfl (State.countBy_keeps rfl (State.setSession_keeps rfl (.refl _ s)))
  have mdp : z.mdp = u.mdp := by
    rw [State.log_mdp, State.event_mdp]
    exact (State.countBy_keeps rfl (.refl 1 _)).same .mdp rfl
  have own : z.session i.val = { s.session i.val with sub := some sub } := by
    rw [State.session_of_mdp _ mdp, State.session_setSession, if_pos rfl]
  have reg : u.reg R.mdp_NOTIFY_LOST = s.reg R.mdp_NOTIFY_LOST := rfl
  have told := State.notify_told (s := z) (i := i.val) recs (by rw [own]; exact hp) (by rw [own]; exact hx)
  rw [own] at told
  refine ⟨?_, ?_, ?_⟩
  · exact ((State.log_logsOne (early.running rfl hrun) _ _ _).logs.after early rfl).keep told.keeps rfl
  · rw [told.own]
    exact List.length_append
  · rw [told.regs _ (Route.not_txCounter (by decide) _), State.reg_of_regs _ (State.log_regs ..), State.reg_mdpEvent _ _ (by decide),
      State.reg_countBy, if_pos rfl, toNat_w32_min, reg]

theorem notifySend_of_kept (ho : newer32 s.oldestKept b.next = false) (hn : newer32 b.next s.ledger.nextSeq = false) :
    let x := s.session i.val
    let y := takeEntries b.minSev (s.notifyRoom x.route) b.next s.ledger.store.reverse
    (y.1 = [] → ∃ t, execNotifySend i s = .next t ∧ t.session i.val = { x with sub := some { b with next := y.2 } } ∧ t = { s with mdp := t.mdp }) ∧
    (y.1 ≠ [] → ∃ t p, execNotifySend i s = .next t ∧ (t.session i.val).sub = some { b with next := y.2 } ∧
      (t.session i.val).notifies = x.notifies ++ [⟨x.nextNotify, p, s.now⟩] ∧ (t.session i.val).nextNotify = x.nextNotify + 1) := by
  intro x y
  have e := execNotifySend_of_kept hb hp hl ho hn
  dsimp only at e
  refine ⟨fun hy => ?_, fun hy => ?_⟩
  · rw [if_pos (by rw [List.isEmpty_iff]; exact hy)] at e
    exact ⟨_, e, by rw [State.session_setSession, if_pos rfl], rfl⟩
  · rw [if_neg (by rw [List.isEmpty_iff]; exact hy)] at e
    obtain ⟨p, told⟩ := State.notify_subscribed hp hx { b with next := y.2 } (y.1.map fun e => notifyRecord 1 (entryBytes e))
    exact ⟨_, p, e, by rw [told.own]; rfl, by rw [told.own]; rfl, by rw [told.own]; rfl⟩

theorem notifySend_of_lost (hrun : s.running = true) (ho : newer32 s.oldestKept b.next = true) :
    ∃ t, execNotifySend i s = .next t ∧ s.Logs t F.NOTIFY_LOSS ∧ (t.session i.val).notifies.length = (s.session i.val).notifies.length + 1 ∧
      (t.reg R.mdp_NOTIFY_LOST).toNat = min 0xFFFFFFFF ((s.reg R.mdp_NOTIFY_LOST).toNat + (s.oldestKept + 0x100000000 - b.next) % 0x100000000) :=
  ⟨_, execNotifySend_of_lost hb hp hl ho, State.loss_notified hp hx hrun _ _ _ _⟩

theorem stateNotify_of_due (hs : b.state = true) (hd : s.due (b.stateAt + sec 1) = true) :
    ∃ t p, execStateNotify i s = .next t ∧ (t.session i.val).sub = some { b with stateAt := s.now } ∧
      (t.session i.val).nextNotify = (s.session i.val).nextNotify + 1 ∧
      (t.session i.val).notifies = (s.session i.val).notifies ++ [⟨(s.session i.val).nextNotify, p, s.now⟩] := by
  obtain ⟨recs, e⟩ := execStateNotify_of_due hb hp hl hs hd
  obtain ⟨p, told⟩ := State.notify_subscribed hp hx { b with stateAt := s.now } recs
  exact ⟨_, p, e, by rw [told.own]; rfl, by rw [told.own]; rfl, by rw [told.own]; rfl⟩

end

/-- The oldest NOTIFY without an ACK is sent again. -/
theorem notifyRetx_told {s : State} {i : Fin 8} {m : Notify} {l : List Notify} (hp : (s.session i.val).present = true)
    (hm : (s.session i.val).notifies = m :: l) (hd : s.due (m.sentAt + ms s.retxMs) = true) (hx : (s.session i.val).txCtr ≤ ctrLimit) :
    ∃ t, execNotifyRetx i s = .next t ∧ s.Told t i.val { s.session i.val with notifies := { m with sentAt := s.now } :: l, txCtr := (s.session i.val).txCtr + 1 }
      (s.session i.val).route := by
  let y : Session := { s.session i.val with notifies := { m with sentAt := s.now } :: l }
  have own : (s.setSession i.val y).session i.val = y := by rw [State.session_setSession, if_pos rfl]
  have told := State.mdpSend_told (s := s.setSession i.val y) (i := i.val) (r := (s.session i.val).route) 5 m.seq m.body
    (by rw [own]; exact hp) (by rw [own]; exact hx)
  rw [own] at told
  refine ⟨_, ?_, told.of_setSession⟩
  simp only [execNotifyRetx, hm, hp, hd, and_self, if_true]
  rfl

end Sys2Proof.Machine
end

section
/-! PROOF. O54: the statement. -/

namespace Sys2Proof.Machine

/-! ## Rows whose conditions do not hold -/

section
variable {s : State} {i : Fin 8} {g : Agent}

theorem execSessionIdle_of_alive (h : (s.session i.val).present = false ∨ s.due ((s.session i.val).lastAt + sec s.idleS) = false) :
    execSessionIdle i s = .next s := by
  unfold execSessionIdle
  rcases h with h | h <;> simp [h]

theorem execSessionIdle_of_due (hp : (s.session i.val).present = true) (hd : s.due ((s.session i.val).lastAt + sec s.idleS) = true) :
    execSessionIdle i s = .next (s.endSession i.val 2) :=
  if_pos (c := _ ∧ _) ⟨hp, hd⟩

theorem execSessionKill_of_may (hrun : s.running = true) (h : g.isCore = true ∨ s.sessionRight g 2 = true) :
    execSessionKill g s = .next (s.endSession ((s.latch g R.sess_SESS_SEL).toNat % 8) 3) :=
  if_pos (c := _ ∧ _) ⟨hrun, h⟩

theorem execSessionKill_of_others (h : s.running = false ∨ g.isCore = false ∧ s.sessionRight g 2 = false) : execSessionKill g s = .next s := by
  unfold execSessionKill
  rcases h with h | ⟨hc, hr⟩
  · simp [h]
  · simp [hc, hr]

end

/-! ## MP_ADMIN (R341) -/

section
variable {s : State} (g : Agent) (b : Bool)

theorem execMpAdmin_of_idle (c : Bool) (h : s.running = false ∨ (s.port (32 + b2n b)).admin = c) : execMpAdmin g b c s = .next s := by
  unfold execMpAdmin
  rcases h with h | h <;> simp [h]

theorem execMpAdmin_off (hrun : s.running = true) (ha : (s.port (32 + b2n b)).admin = true)
    (hu : (s.port (65 - (32 + b2n b))).state = .up) : execMpAdmin g b false s = .next (s.adminOff (32 + b2n b)) := by
  simp [execMpAdmin, hrun, ha, hu]

theorem execMpAdmin_off_of_last (hu : (s.port (65 - (32 + b2n b))).state ≠ .up) : execMpAdmin g b false s = .next s := by
  unfold execMpAdmin
  simp [hu]

theorem execMpAdmin_on (hrun : s.running = true) (ha : (s.port (32 + b2n b)).admin = false) :
    execMpAdmin g b true s = .next (s.adminOn (32 + b2n b)) := by
  simp [execMpAdmin, hrun, ha]

end

/-! ## Datagrams of a session -/

section
variable {s : State} {r : Route} {d : List Byte} {i : Nat}

/-- The three kinds of protected datagrams are taken in the same way. -/
theorem exec_onDatagram {c : Instr} (h : (c = .mdpRequest r d ∧ headerOk d 3 20 = true) ∨ (c = .mdpAck r d ∧ headerOk d 6 16 = true) ∨
    (c = .mdpClose r d ∧ headerOk d 7 16 = true)) :
    ∃ type least f, headerOk d type (16 + least) = true ∧ exec c s = .next (s.onDatagram r type least d f) := by
  rcases h with ⟨rfl, hd⟩ | ⟨rfl, hd⟩ | ⟨rfl, hd⟩
  · exact ⟨3, 4, _, hd, rfl⟩
  · exact ⟨6, 0, _, hd, rfl⟩
  · exact ⟨7, 0, _, hd, rfl⟩

variable (hh : s.mdpHears r = true) (hs : s.sessionOf (be d 4 4) = some i)
include hh hs

section
variable {body : List Byte} (hd : headerOk d 3 20 = true) (hc : (s.session i).ctrNew (be d 12 8) = true) (hl : be d 12 8 ≤ ctrLimit)
  (hp : s.plain i d = some body)
include hd hc hl hp

theorem execMdpRequest_of_accepted :
    execMdpRequest r d s = .next ((s.accepted r i (be d 12 8)).onRequest r i (be d 8 4) body) :=
  congrArg _ (State.onDatagram_of_accepted hh hd _ hs hp hc hl)

/-- A request beyond the window is a violation of a session that stays as it is. -/
theorem mdpRequest_of_beyond (hn : (s.session i).executed + s.mdpWindow < be d 8 4) :
    ∃ t, execMdpRequest r d s = .next t ∧ (t.session i).executed = (s.session i).executed ∧ (t.session i).answers = (s.session i).answers ∧
      s.Took t R.mdp_VIOLATIONS := by
  refine ⟨_, execMdpRequest_of_accepted hh hs hd hc hl hp, ?_⟩
  let u := s.accepted r i (be d 12 8)
  have own := s.session_accepted r i (be d 12 8) i
  rw [if_pos rfl] at own
  have window : u.mdpWindow = s.mdpWindow := State.mdpWindow_of_config ((s.accepted_keeps r i _).same .config rfl)
  rw [State.onRequest_of_beyond (by rw [own, window]; exact hn)]
  have session : u.mdpViolation.session i = u.session i := State.session_of_mdp i (State.count_mdp _ _)
  exact ⟨by rw [session, own]; rfl, by rw [session, own]; rfl,
    (u.count_took _).after (s.reg_accepted r i _ (by cases r.m1 <;> decide))⟩

/-- A request that has been executed is answered again from its stored answer, and counted in RETX. -/
theorem mdpRequest_of_executed {a : Answer} (hx : (s.session i).txCtr ≤ ctrLimit) (hn : be d 8 4 ≤ (s.session i).executed)
    (ha : ((s.session i).answers.find? fun a => a.seq == be d 8 4) = some a) :
    ∃ t, execMdpRequest r d s = .next t ∧ (t.session i).executed = (s.session i).executed ∧ s.Took t R.mdp_RETX ∧
      ∃ b, t.wire = .mdp r b :: s.wire := by
  refine ⟨_, execMdpRequest_of_accepted hh hs hd hc hl hp, ?_⟩
  let u := s.accepted r i (be d 12 8)
  have own := s.session_accepted r i (be d 12 8) i
  rw [if_pos rfl] at own
  have kept : Keeps 0x1000000001 s (u.count R.mdp_RETX) := State.count_keeps rfl (s.accepted_keeps r i _)
  have session : (u.count R.mdp_RETX).session i = _ := (State.session_of_mdp i (State.count_mdp _ _)).trans own
  rw [State.onRequest_of_executed (a := a) (by rw [own]; exact hn) (by rw [own]; exact ha)]
  have told := State.mdpSend_told (s := u.count R.mdp_RETX) (i := i) (r := r) 4 (be d 8 4) a.body
    (by rw [session]; exact State.sessionOf_present hs) (by rw [session]; exact hx)
  have up : ((u.count R.mdp_RETX).port r.mp).state = .up := by
    rw [State.port_of_ports _ (kept.same .ports rfl)]
    exact (State.mdpHears_iff.mp hh).2
  obtain ⟨b, hb⟩ := told.sent up
  refine ⟨by rw [told.own, session]; rfl, ?_, b, hb.trans (congrArg _ (kept.same .wire rfl))⟩
  exact ((u.count_took _).after (s.reg_accepted r i _ (by cases r.m1 <;> decide))).keep (told.regs _ (r.not_txCounter (by decide)))

/-- The next request of a session that holds none and closes after none, when it is a NOP, is executed. -/
theorem mdpRequest_of_next :
    ∃ t, execMdpRequest r d s = .next t ∧ (body = [0x50, 0, 0, 0] → (s.session i).txCtr ≤ ctrLimit → 1 ≤ s.mdpWindow →
      be d 8 4 = (s.session i).executed + 1 → be d 8 4 < 0xFFFFFFFF → (s.session i).held = [] → (s.session i).closing = none →
      (t.session i).executed = be d 8 4 ∧ (t.session i).rxHigh = max (s.session i).rxHigh (be d 12 8) ∧
      (t.session i).answers = ((⟨be d 8 4, [0x50, 0, 0, 0] ++ beBytes 8 s.stamp.toNat⟩ : Answer) :: (s.session i).answers).take 64) := by
  refine ⟨_, execMdpRequest_of_accepted hh hs hd hc hl hp, fun hb hx hw hn hlast hheld hcl => ?_⟩
  let u := s.accepted r i (be d 12 8)
  have own := s.session_accepted r i (be d 12 8) i
  rw [if_pos rfl] at own
  have window : u.mdpWindow = s.mdpWindow := State.mdpWindow_of_config ((s.accepted_keeps r i _).same .config rfl)
  obtain ⟨t, told, e⟩ := State.onRequest_nop (s := u) (r := r) (n := be d 8 4) (i := i)
    (by rw [own]; exact ⟨State.sessionOf_present hs, hcl, hx, by change (s.session i).executed + 1 < _; omega⟩) (by rw [window]; exact hw)
    (by rw [own]; exact hn) (by rw [own]; exact hheld)
  have stamp : u.stamp = s.stamp := State.stamp_of_parts ((s.accepted_keeps r i _).same .clock rfl) ((s.accepted_keeps r i _).same .config rfl)
  have answer : answerBody opNop u.doNop = [0x50, 0, 0, 0] ++ beBytes 8 s.stamp.toNat := by rw [State.answerBody_nop, stamp]
  rw [hb, e, told.own, own, answer, hn]
  exact ⟨rfl, rfl, rfl⟩

end

section
variable {body : List Byte} (hd : headerOk d 6 16 = true) (hc : (s.session i).ctrNew (be d 12 8) = true) (hl : be d 12 8 ≤ ctrLimit)
  (hp : s.plain i d = some body)
include hd hc hl hp

/-- An ACK removes the NOTIFYs up to its SEQ; of one not sent it is a violation. -/
theorem mdpAck_spec :
    ∃ t, execMdpAck r d s = .next t ∧ (∀ k, k ≠ i → t.session k = s.session k) ∧
      (be d 8 4 < (s.session i).nextNotify → (t.session i).notifies = (s.session i).notifies.filter fun m => decide (be d 8 4 < m.seq)) ∧
      ((s.session i).nextNotify ≤ be d 8 4 → (t.session i).notifies = (s.session i).notifies ∧ s.Took t R.mdp_VIOLATIONS) := by
  refine ⟨_, congrArg Host.Outcome.next (State.onDatagram_of_accepted (type := 6) (least := 0) hh hd _ hs hp hc hl), ?_⟩
  let u := s.accepted r i (be d 12 8)
  have session := s.session_accepted r i (be d 12 8)
  have own := session i
  rw [if_pos rfl] at own
  have next : (u.session i).nextNotify = (s.session i).nextNotify := by rw [own]; rfl
  by_cases hn : (s.session i).nextNotify ≤ be d 8 4
  case pos =>
    rw [if_pos (by rw [next]; exact hn)]
    have same (k : Nat) : u.mdpViolation.session k = u.session k := State.session_of_mdp k (State.count_mdp _ _)
    refine ⟨fun k hk => by rw [same, session, if_neg hk], fun h => absurd hn (by omega), fun _ => ⟨by rw [same, own]; rfl, ?_⟩⟩
    exact (u.count_took _).after (s.reg_accepted r i _ (by cases r.m1 <;> decide))
  case neg =>
    rw [if_neg (by rw [next]; exact hn)]
    refine ⟨fun k hk => ?_, fun _ => ?_, fun h => absurd h hn⟩
    · rw [State.modSession_eq, State.session_setSession, if_neg hk, session, if_neg hk]
    · rw [State.modSession_eq, State.session_setSession, if_pos rfl, own]
      rfl

end

section
variable {body : List Byte} (hd : headerOk d 7 16 = true) (hc : (s.session i).ctrNew (be d 12 8) = true) (hl : be d 12 8 ≤ ctrLimit)
  (hp : s.plain i d = some body)
include hd hc hl hp

/-- A CLOSE ends the session when its requests are answered, and is remembered until then. -/
theorem mdpClose_spec :
    ∃ t, execMdpClose r d s = .next t ∧ (∀ k, k ≠ i → t.session k = s.session k) ∧
      (be d 8 4 ≤ (s.session i).executed → t.session i = {} ∧ s.Logs t F.MDP_SESSION_END) ∧
      ((s.session i).executed < be d 8 4 → (t.session i).present = true ∧ (t.session i).closing = some (be d 8 4)) := by
  refine ⟨_, congrArg Host.Outcome.next (State.onDatagram_of_accepted (type := 7) (least := 0) hh hd _ hs hp hc hl), ?_⟩
  let u := s.accepted r i (be d 12 8)
  let v := u.setSession i { u.session i with closing := some (be d 8 4) }
  have session (k : Nat) (hk : k ≠ i) : v.session k = s.session k := by
    rw [State.session_setSession, if_neg hk, State.session_accepted, if_neg hk]
  have own : v.session i = { u.session i with closing := some (be d 8 4) } := by
    rw [State.session_setSession, if_pos rfl]
  have old := s.session_accepted r i (be d 12 8) i
  rw [if_pos rfl] at old
  have closing : (v.session i).closing = some (be d 8 4) := by rw [own]
  have executed : (v.session i).executed = (s.session i).executed := by rw [own, old]; rfl
  have present : (v.session i).present = true := by rw [own, old]; exact State.sessionOf_present hs
  have kept : Keeps 0x1000000001 s v := State.setSession_keeps rfl (s.accepted_keeps r i _)
  change (∀ k, k ≠ i → (v.closeCheck i).session k = s.session k) ∧ (_ → (v.closeCheck i).session i = {} ∧ s.Logs (v.closeCheck i) _) ∧
    (_ → ((v.closeCheck i).session i).present = true ∧ ((v.closeCheck i).session i).closing = _)
  by_cases hn : be d 8 4 ≤ (s.session i).executed
  case pos =>
    obtain ⟨gone, others, logged⟩ := State.closeCheck_of_due (kept.running rfl (State.mdpHears_running hh)) present closing (by rw [executed]; exact hn)
    exact ⟨fun k hk => (others k hk).trans (session k hk), fun _ => ⟨gone, logged.after kept rfl⟩, fun h => absurd hn (by omega)⟩
  case neg =>
    rw [State.closeCheck_of_waiting closing (by rw [executed]; omega)]
    exact ⟨session, fun h => absurd h hn, fun _ => ⟨present, closing⟩⟩

end

end

/-- Settles O54: each row of a datagram, of a session's end and of its notifications by the checks that come before it. -/
theorem datagramsOpenServeAndCloseSessions : Obligations.DatagramsOpenServeAndCloseSessions := by
  unfold Obligations.DatagramsOpenServeAndCloseSessions
  refine ⟨?deaf, ?opening, ?refused, ?handled, ?idle, ?dark, ?sessions, ?adminDark, ?admin⟩
  case deaf =>
    intro r d s h
    have identify : execMdpIdentify r d s = .next s := if_pos (by simp [h])
    have opening : execMdpOpen r d s = .next s := if_pos (by simp [h])
    exact ⟨identify, opening, congrArg _ (State.onDatagram_of_deaf h _), congrArg _ (State.onDatagram_of_deaf h _),
      congrArg _ (State.onDatagram_of_deaf h _)⟩
  case opening =>
    intro r d s hh
    refine ⟨fun hd hz => ⟨fun hr => ⟨_, execMdpIdentify_of_answered hh hd hz, identify_answers hh hr⟩,
        fun hr => ⟨_, execMdpIdentify_of_answered hh hd hz, identify_of_late hr⟩⟩,
      fun hd => ⟨_, execMdpIdentify_of_malformed hh hd, s.malformed_wire r _, s.malformed_mdp r _, s.malformed_took r _⟩,
      fun hd => ⟨_, execMdpOpen_of_malformed hh hd, s.malformed_wire r _, s.malformed_mdp r _, s.malformed_took r _⟩,
      fun hd => ⟨fun hr => ?late, fun hr hm hf => ?full, fun hr k hk => ?checked⟩⟩
    case late => exact execMdpOpen_of_late hh hd hr
    case full =>
      obtain ⟨⟨n, m⟩, he⟩ := s.openCheck_of_full hm hf (openingOf d)
      exact execMdpOpen_of_error hh hd hr he
    case checked =>
      cases he : s.openCheck (openingOf d) with
      | error e => exact execMdpOpen_of_error hh hd hr he
      | ok key => exact execMdpOpen_of_ok hh hd hr he hk
  case refused =>
    intro r d c s hh hc
    obtain ⟨type, least, f, hd, e⟩ := exec_onDatagram (s := s) hc
    refine ⟨fun hs => ⟨_, e, State.onDatagram_of_stranger hh hd f hs⟩,
      fun i hs => ⟨fun hp => ⟨_, e, State.onDatagram_of_forged hh hd f hs hp⟩, fun hp hn => ?_, fun hp hn hl => ?_⟩⟩
    · obtain ⟨body, hp⟩ := Option.ne_none_iff_exists'.mp hp
      exact ⟨_, e, State.onDatagram_of_replay hh hd f hs hp hn⟩
    · obtain ⟨body, hp⟩ := Option.ne_none_iff_exists'.mp hp
      rw [e, State.onDatagram_of_exhausted hh hd f hs hp hn hl]
      exact ⟨_, rfl, State.endSession_spec 6 (State.mdpHears_running hh) (State.sessionOf_present hs)⟩
  case handled =>
    intro r d i s hh hs
    refine ⟨fun hd hf hn hp => ?beyond, fun hd hf hx a hn ha => ?again, fun hd hf hx hw hn hlast hheld hcl => ?nop, fun hd hf => ?ack,
      fun hd hf => ?close⟩
    case beyond =>
      obtain ⟨body, hp⟩ := Option.ne_none_iff_exists'.mp hp
      exact mdpRequest_of_beyond hh hs hd hf.1 hf.2 hp hn
    case again =>
      cases hp : gcmOpen (s.session i).key (mdpNonce false (be d 12 8)) (d.take 20) (d.drop 20) with
      | none => exact ⟨_, rfl, State.onDatagram_of_forged (type := 3) (least := 4) hh hd _ hs hp⟩
      | some body => exact mdpRequest_of_executed hh hs hd hf.1 hf.2 hp hx hn ha
    case nop =>
      cases hp : gcmOpen (s.session i).key (mdpNonce false (be d 12 8)) (d.take 20) (d.drop 20) with
      | none => exact ⟨_, rfl, State.onDatagram_of_forged (type := 3) (least := 4) hh hd _ hs hp⟩
      | some body =>
        obtain ⟨t, e, done⟩ := mdpRequest_of_next hh hs hd hf.1 hf.2 hp
        exact ⟨t, e, fun hb => done hb hx hw hn hlast hheld hcl⟩
    case ack =>
      cases hp : gcmOpen (s.session i).key (mdpNonce false (be d 12 8)) (d.take 20) (d.drop 20) with
      | none => exact ⟨_, rfl, State.onDatagram_of_forged (type := 6) (least := 0) hh hd _ hs hp⟩
      | some body => exact mdpAck_spec hh hs hd hf.1 hf.2 hp
    case close =>
      cases hp : gcmOpen (s.session i).key (mdpNonce false (be d 12 8)) (d.take 20) (d.drop 20) with
      | none => exact ⟨_, rfl, State.onDatagram_of_forged (type := 7) (least := 0) hh hd _ hs hp⟩
      | some body => exact mdpClose_spec hh hs hd hf.1 hf.2 hp
  case idle =>
    intro i s
    refine ⟨execSessionIdle_of_alive, execNotifySend_of_unsubscribed, fun hn => ?_⟩
    change execNotifyRetx i s = _
    simp only [execNotifyRetx, hn]
  case dark => exact fun g s h => execSessionKill_of_others (.inl h)
  case sessions =>
    intro i s hrun hp
    refine ⟨fun hd => ⟨_, execSessionIdle_of_due hp hd, State.endSession_spec 2 hrun hp⟩,
      fun g hg => ⟨fun hm => ?kill, fun hc hr => execSessionKill_of_others (.inr ⟨hc, hr⟩)⟩,
      fun b hb hl hx => ⟨fun ho hn => ?kept, fun ho => ?lost, fun hs hd => ?state⟩, fun m l hm hd hx => ?retx⟩
    case kill =>
      have e := execSessionKill_of_may hrun hm
      rw [hg] at e
      exact ⟨_, e, State.endSession_spec 3 hrun hp⟩
    case kept => exact notifySend_of_kept hp hb hl hx ho hn
    case lost => exact notifySend_of_lost hp hb hl hx hrun ho
    case state => exact stateNotify_of_due hp hb hl hx hs hd
    case retx =>
      obtain ⟨t, e, told⟩ := notifyRetx_told hp hm hd hx
      exact ⟨t, e, by rw [told.own], by rw [told.own], told.others⟩
  case adminDark => exact fun g b c s h => execMpAdmin_of_idle g b c (.inl h)
  case admin =>
    intro g b s hrun
    refine ⟨execMpAdmin_of_idle g b _ (.inr rfl), fun ha hu => ⟨_, execMpAdmin_off g b hrun ha hu, s.port_adminOff _⟩,
      execMpAdmin_off_of_last g b, fun ha => ?_⟩
    obtain ⟨admin, state, -, -, others⟩ := s.adminOn_spec (32 + b2n b)
    exact ⟨_, execMpAdmin_on g b hrun ha, admin, state, others⟩

end Sys2Proof.Machine
end

section
/-!
PROOF. O53: the operations of a session: each does its work, is answered as request E + 1, and what it refuses is answered with the
class of its refusal (R348 to R355).
-/

namespace Sys2Proof.Machine

/-! ## An operation is answered -/

/-- An operation has been executed as request E + 1 of a session: its answer is stored, and CTR has advanced. -/
def State.Answered (s t : State) (i op status : Nat) (res : List Byte) : Prop :=
  (t.session i).present = true ∧ (t.session i).executed = (s.session i).executed + 1 ∧ (t.session i).txCtr = (s.session i).txCtr + 1 ∧
  (t.session i).answers =
    ((⟨(s.session i).executed + 1, beBytes 1 op ++ beBytes 1 0 ++ beBytes 2 status ++ res⟩ : Answer) :: (s.session i).answers).take 64

/-- What an answer changes besides what the operation did. -/
theorem Keeps.told_eq {s t : State} (h : Keeps 0x1000000021 s t) : t = { s with regs := t.regs, mdp := t.mdp, wire := t.wire } := by
  refine h.eq_of_agree rfl (fun p hp => ?_) (fun p hp => ?_)
  · cases p
    case regs | mdp | wire => cases hp
    all_goals rfl
  · cases p
    case regs | mdp | wire => rfl
    all_goals cases hp

/-- A session in which its next operation can be executed at once. -/
structure State.Serves (s : State) (i : Nat) : Prop where
  on   : s.mdpOn = true
  free : (s.session i).Open
  held : (s.session i).held = []

theorem sessionAgent_val (i : Fin 8) : sessionAgent i.val = .session i := by simp [sessionAgent]

/-- Of a closed session, or while sessions are not possible, no operation is executed. -/
theorem State.opCommand_of_closed {s : State} {i op : Nat} (h : s.mdpOn = false ∨ (s.session i).present = false) (f) : s.opCommand i op f = s := by
  unfold State.opCommand
  rcases h with h | h <;> simp [h]

section
variable {s : State} {i op : Nat} (h : s.Serves i) {f : State → Route → OpResult} {r : OpResult} (hf : f s (s.session i).route = r)
  {sub : Option Subscription} (hr : r.state.session i = { s.session i with sub := sub })
include h hf hr

/-- An operation that leaves its session open is answered, then the sessions end that end with it. -/
theorem State.opCommand_told : ∃ u, r.state.Told u i ({ s.session i with sub := sub }.answering (answerBody op r)) (s.session i).route ∧
    s.opCommand i op f = r.ends.foldl (fun s e => s.endSession e.1 e.2) u := by
  obtain ⟨present, closing, room, numbers⟩ := h.free
  obtain ⟨u, told, e⟩ := State.finishOp_told (i := i) (op := op) (route := (s.session i).route) (r := r)
    (by rw [hr]; exact ⟨present, closing, room, numbers⟩)
  rw [hr] at told
  refine ⟨u, told, ?_⟩
  have idle : ((r.ends.foldl (fun s e => s.endSession e.1 e.2) u).session i).held = [] := by
    rw [State.session_endSessions, told.own]
    split
    · rfl
    · simp [Session.answering, h.held]
  rw [State.opCommand, if_pos (by simp [h.on, present])]
  dsimp only
  rw [hf, e, State.runHeld_of_idle idle]

/-- An operation with which no session ends. -/
theorem State.opCommand_answers (hends : r.ends = []) :
    r.state.Told (s.opCommand i op f) i ({ s.session i with sub := sub }.answering (answerBody op r)) (s.session i).route ∧
    s.Answered (s.opCommand i op f) i op r.status (if r.status = 0 then r.result else []) := by
  obtain ⟨u, told, e⟩ := State.opCommand_told (op := op) h hf hr
  rw [hends] at e
  change s.opCommand i op f = u at e
  rw [e]
  refine ⟨told, ?_⟩
  unfold State.Answered
  rw [told.own]
  exact ⟨h.free.present, rfl, rfl, rfl⟩

end

section
variable {s : State} {i : Nat} {op : Nat} (h : s.Serves i) {f : State → Route → OpResult}
include h

/-- An operation that changes nothing is answered, and that is all. -/
theorem State.opCommand_pure {result : List Byte} (hf : f s (s.session i).route = { state := s, result := result }) :
    let t := s.opCommand i op f
    s.Told t i ((s.session i).answering (answerBody op { state := s, result := result })) (s.session i).route ∧
    s.Answered t i op 0 result ∧ t = { s with regs := t.regs, mdp := t.mdp, wire := t.wire } := by
  obtain ⟨told, answered⟩ := State.opCommand_answers (sub := (s.session i).sub) (op := op) h hf rfl rfl
  exact ⟨told, answered, told.keeps.told_eq⟩

/-- A violation is answered with its class, and counted. -/
theorem State.opCommand_refused {c : FaultClass} {data : List Byte} (hf : f s (s.session i).route = s.opRefused i c data) (hc : c.code ≠ 0) :
    let t := s.opCommand i op f
    s.Answered t i op c.code [] ∧ s.Took t R.mdp_VIOLATIONS ∧ t.mdp.slots = s.mdp.slots := by
  have kept : Keeps 0x4000000001 s (s.opRefused i c data).state := State.opRefused_keeps rfl (.refl _ s)
  have own : (s.opRefused i c data).state.session i = s.session i := State.session_of_mdp i (kept.same .mdp rfl)
  obtain ⟨told, answered⟩ := State.opCommand_answers (sub := (s.session i).sub) (op := op) h hf own rfl
  rw [if_neg (show (s.opRefused i c data).status ≠ 0 from hc)] at answered
  refine ⟨answered, ?_, told.slots.trans (congrArg Mdp.slots (kept.same .mdp rfl))⟩
  exact ((s.count_took R.mdp_VIOLATIONS).keep (State.reg_mdpLog _ _ _ _ _)).keep (told.regs _ (Route.not_txCounter (by decide) _))

/-- An operation on the ownership that is refused is answered OWN_REFUSED, and logged. -/
theorem State.opCommand_ownRefused {o m : Nat} (hf : f s (s.session i).route = s.ownRefused o m) :
    let t := s.opCommand i op f
    s.Answered t i op F.OWN_REFUSED.code [] ∧ s.Logs t F.OWN_REFUSED ∧ t.mdp.slots = s.mdp.slots ∧ t.im = s.im := by
  have kept : Keeps 0x4000000000 s (s.ownRefused o m).state := State.log_keeps rfl (.refl _ s)
  have own : (s.ownRefused o m).state.session i = s.session i := State.session_of_mdp i (kept.same .mdp rfl)
  obtain ⟨told, answered⟩ := State.opCommand_answers (sub := (s.session i).sub) (op := op) h hf own rfl
  exact ⟨answered, (State.log_logsOne (State.mdpOn_running h.on) _ _ _).logs.keep told.keeps rfl,
    told.slots.trans (congrArg Mdp.slots (kept.same .mdp rfl)), (told.keeps.same .im rfl).trans (kept.same .im rfl)⟩

end

/-! ## Reading and writing registers (R349) -/

section
variable {s : State} {i : Fin 8} {a : Nat}

/-- A read of one register by a session with the READ right. -/
theorem State.doRead_one {r : Route} (hright : bit (s.session i.val).rights 0 = true) (ha : accessRefused a = false) (hfit : s.answerFits r 4 = true) :
    s.doRead i.val r a 1 = { state := (s.readReg (.session i) a).1, result := beBytes 4 (s.readReg (.session i) a).2.toNat } := by
  have addrs : addrsOf a 1 = [a] := rfl
  simp [State.doRead, State.right, addrs, hright, ha, hfit, sessionAgent_val]

theorem State.doRead_of_unread {r : Route} (hright : bit (s.session i.val).rights 0 = false) (hfit : s.answerFits r 4 = true) :
    s.doRead i.val r a 1 = s.opRights i.val opRead a := by
  simp [State.doRead, State.right, hright, hfit]

/-- A write of a refused address is a violation. -/
theorem State.doWrite_of_refused {v : Word} (hright : bit (s.session i.val).rights 1 = true) (ha : accessRefused a = true) :
    s.doWrite i.val a [v] = s.opAddress i.val a := by
  have writes : (addrsOf a [v].length).zip [v] = [(a, v)] := rfl
  have check (op : Nat) : s.writeCheck i.val op [(a, v)] = some (s.opAddress i.val a) := by simp [State.writeCheck, ha]
  unfold State.doWrite
  dsimp only
  rw [writes, if_neg (by simp), if_neg (by simp [State.right, hright]), check]

/-- No read of a register touches a session. -/
theorem State.session_readReg (g : Agent) (k : Nat) : (s.readReg g a).1.session k = s.session k :=
  State.session_of_mdp k ((State.readReg_keeps rfl (.refl 0xb21820813 s)).same .mdp rfl)

/-- A write that tells the ledger nothing has set off no refusal. -/
theorem refusalSince_of_ledger {s t : State} (h : t.ledger = s.ledger) : refusalSince s t = 0 := by
  simp [refusalSince, h]

/-- A register that only counts what leaves is not one that software stores in. -/
theorem Route.not_txCounter_of_rw {l : Layout} {k : Nat} {w : RegRow} (hl : layoutOf a = some (l, k)) (hr : l.rowAt (offsetOf a) = some w)
    (hw : w.rw ≠ 0) (r : Route) : a ∉ r.txCounters := by
  have counters : ∀ m : Bool, ∀ b ∈ [R.mp_MDP_TX (b2n m), R.mp_TX_FRAMES (b2n m)], ((rowOf b).map RegRow.rw) = some 0 := by decide
  intro ha
  have row := counters r.m1 a ha
  simp [rowOf, hl, hr, hw] at row

variable {l : Layout} {k : Nat} {w : RegRow} (hn : accessRefused a = false) (had : adminRegister a = false) (hst : stagedRegister a = false)
  (hl : layoutOf a = some (l, k)) (hd : s.tileDark a = false) (hp : perAgent l (offsetOf a) (.session i) = none)
  (hr : l.rowAt (offsetOf a) = some w) (hc : w.w1c = 0) (hw : w.rw ≠ 0) (he : isEventEnable l (offsetOf a) = false)

section
include hn had hst

theorem State.writeCheck_of_plain (op : Nat) (v : Word) : s.writeCheck i.val op [(a, v)] = none := by
  simp [State.writeCheck, hn, had, hst]

end

section
include hl hd hp hr hc hw he

theorem State.writeReg_of_plain {v : Word} (ha : s.writeActs (.session i) l k (offsetOf a) a v = none) :
    s.writeReg (sessionAgent i.val) a v = s.setReg a (rwValue (s.reg a) w.rw v) := by
  rw [sessionAgent_val, State.writeReg_of_shared hl hd ha hp, State.storeReg_of_rw hr hc hw he]

include hn had hst

/-- A write of a plain register stores it. -/
theorem State.doWrite_of_plain {v : Word} (hright : bit (s.session i.val).rights 1 = true)
    (ha : s.writeActs (.session i) l k (offsetOf a) a v = none) :
    s.doWrite i.val a [v] = { state := s.setReg a (rwValue (s.reg a) w.rw v) } := by
  have writes : (addrsOf a [v].length).zip [v] = [(a, v)] := rfl
  have told : refusalSince s (s.setReg a (rwValue (s.reg a) w.rw v)) = 0 := refusalSince_of_ledger rfl
  unfold State.doWrite
  dsimp only
  rw [writes, if_neg (by simp), if_neg (by simp [State.right, hright]), State.writeCheck_of_plain hn had hst]
  dsimp only [List.foldl_cons, List.foldl_nil]
  rw [State.writeReg_of_plain hl hd hp hr hc hw he ha, told]

/-- A MODIFY of a plain register stores it under its mask, and answers the old value. -/
theorem State.doModify_of_plain {m v : Word} (hright : bit (s.session i.val).rights 1 = true)
    (hra : s.readActs (.session i) l k (offsetOf a) a = none) (hlp : s.latchPair l k (offsetOf a) = none)
    (ha : s.writeActs (.session i) l k (offsetOf a) a (((s.readReg (.session i) a).2 &&& ~~~m) ||| (v &&& m)) = none) :
    s.doModify i.val a m v =
      { state := s.setReg a (rwValue (s.reg a) w.rw (((s.readReg (.session i) a).2 &&& ~~~m) ||| (v &&& m))),
        result := beBytes 4 (s.readReg (.session i) a).2.toNat } := by
  have still : (s.readReg (.session i) a).1 = s := by simp [State.readReg, hl, hd, hra, hlp]
  have told (x : Word) : refusalSince s (s.setReg a x) = 0 := refusalSince_of_ledger rfl
  unfold State.doModify
  dsimp only
  rw [if_neg (by simp [State.right, hright]), if_neg (by simp [hn]), sessionAgent_val, State.writeCheck_of_plain hn had hst]
  dsimp only
  rw [still, ← sessionAgent_val, State.writeReg_of_plain hl hd hp hr hc hw he (by rw [sessionAgent_val]; exact ha), told]

end

/-- A value stored in a plain register stands there once the operation is answered. -/
theorem State.opCommand_stores {op : Nat} (h : s.Serves i.val) {f : State → Route → OpResult} {x : Word} {result : List Byte}
    (hl : layoutOf a = some (l, k)) (hr : l.rowAt (offsetOf a) = some w) (hw : w.rw ≠ 0)
    (hf : f s (s.session i.val).route = { state := s.setReg a x, result := result }) :
    let t := s.opCommand i.val op f
    s.Answered t i.val op 0 result ∧ t.reg a = x ∧ t = { s with regs := t.regs, mdp := t.mdp, wire := t.wire } := by
  obtain ⟨told, answered⟩ := State.opCommand_answers (sub := (s.session i.val).sub) (op := op) h hf rfl rfl
  refine ⟨answered, ?_, ?_⟩
  · rw [told.regs a (Route.not_txCounter_of_rw hl hr hw _)]
    exact (s.reg_setReg a a x).trans (if_pos rfl)
  · have kept : Keeps 0x1000000021 s (s.setReg a x) := State.setReg_keeps rfl (.refl _ s)
    exact (kept.trans told.keeps).told_eq

end

end Sys2Proof.Machine
end

section
/-! PROOF. O53: images, streams and attestation (R351 to R353). -/

namespace Sys2Proof.Machine

section
variable {s : State} {i : Nat}

theorem State.doBlockRead_identity {r : Route} {off len : Nat} (h0 : 0 < len) (hlen : len ≤ 8192) (hlast : off + len ≤ 2112)
    (hfit : s.answerFits r len = true) :
    s.doBlockRead i r 3 off len = { state := s, result := (identitySpace.drop off).take len } := by
  simp [State.doBlockRead, hfit, hlast, Nat.not_lt.mpr hlen, Nat.pos_iff_ne_zero.mp h0]

section
variable {k : Fin 2} {p : List Byte} (hright : bit (s.session i).rights 1 = true) (hp : p ≠ []) (hlen : p.length ≤ 8192)
  (hc : (s.imgSlot k.val).state ≠ .checking) (hpin : s.slotPinned k.val = false)
include hright hp hlen hc hpin

/-- The checks of a BLOCK_WRITE to a staging slot pass. -/
theorem State.doBlockWrite_of_free (off : Nat) :
    s.doBlockWrite i k.val off p =
      if off = 0 then { state := s.modImgSlot k.val fun _ => { state := .loading, bytes := p } }
      else if off = (s.imgSlot k.val).bytes.length ∧ off + p.length ≤ 268435456 then
        { state := s.modImgSlot k.val fun y => { y with state := .loading, reason := 0, bytes := y.bytes ++ p } }
      else s.opBlock i k.val off := by
  have sized : ¬(p.length = 0 ∨ 8192 < p.length) := by
    rintro (h | h)
    · exact hp (List.length_eq_zero_iff.mp h)
    · omega
  have may : ¬(k.val < 2 ∧ s.right i 1 = false) := by simp [State.right, hright]
  rw [State.doBlockWrite, if_neg sized, if_neg may, if_neg (Nat.not_le.mpr k.isLt), if_neg hc, if_neg (by simp [hpin])]

end

theorem State.doSubscribe_of_right {m f q : Nat} (hm : m ≤ 4) (hright : bit (s.session i).rights 0 = true) :
    let n := if bit f 0 then s.ledger.nextSeq else q
    s.doSubscribe i m f q =
      { state := s.setSession i { s.session i with sub := some { minSev := m, state := bit f 1, next := n, stateAt := s.now } },
        result := beBytes 4 n } := by
  simp [State.doSubscribe, State.right, hright, Nat.not_lt.mpr hm]

theorem State.doUnsubscribe_of_right (hright : bit (s.session i).rights 0 = true) :
    s.doUnsubscribe i = { state := s.setSession i { s.session i with sub := none } } := by
  simp [State.doUnsubscribe, State.right, hright]

theorem State.doAttest_of_nonce {r : Route} {p : List Byte} (hp : p.length = 32) (hfit : s.answerFits r 704 = true) :
    s.doAttest i r p =
      { state := s.log F.ATTESTED R.mdp (leBytes 4 (s.session i).id.toNat ++ p.take 8), result := s.report p ++ Config.pssSign (s.report p) } :=
  if_neg (by simp [hp, hfit])

end

/-! ## Answers of these operations -/

section
variable {s : State} {i : Nat} {op : Nat} (h : s.Serves i) {f : State → Route → OpResult}
include h

/-- A staging slot changes alone. -/
theorem State.opCommand_loads {k : Fin 2} {g : Slot → Slot} (hf : f s (s.session i).route = { state := s.modImgSlot k.val g }) :
    let t := s.opCommand i op f
    s.Answered t i op 0 [] ∧ t.imgSlot k.val = g (s.imgSlot k.val) ∧ ∀ j, j < 2 → j ≠ k.val → t.imgSlot j = s.imgSlot j := by
  obtain ⟨told, answered⟩ := State.opCommand_answers (sub := (s.session i).sub) (op := op) h hf rfl rfl
  have im := told.keeps.same .im rfl
  refine ⟨answered, ?_, fun j hj hne => ?_⟩
  · rw [State.imgSlot_of_im im]
    exact s.imgSlot_modImgSlot_same k.val g
  · rw [State.imgSlot_of_im im]
    exact s.imgSlot_modImgSlot_ne (n := k) (m := ⟨j, hj⟩) g (fun e => hne (congrArg Fin.val e))

/-- The stream of a session is set, or ends. -/
theorem State.opCommand_streams {sub : Option Subscription} {result : List Byte}
    (hf : f s (s.session i).route = { state := s.setSession i { s.session i with sub := sub }, result := result }) :
    let t := s.opCommand i op f
    s.Answered t i op 0 result ∧ (t.session i).sub = sub := by
  obtain ⟨told, answered⟩ := State.opCommand_answers (sub := sub) (op := op) h hf (by rw [State.session_setSession, if_pos rfl]) rfl
  exact ⟨answered, by rw [told.own]; rfl⟩

/-- An operation that only logs. -/
theorem State.opCommand_logs {c : FaultClass} {data result : List Byte}
    (hf : f s (s.session i).route = { state := s.log c R.mdp data, result := result }) :
    let t := s.opCommand i op f
    s.Answered t i op 0 result ∧ s.Logs t c := by
  have own : (s.log c R.mdp data).session i = s.session i := State.session_of_mdp i (State.log_mdp ..)
  obtain ⟨told, answered⟩ := State.opCommand_answers (sub := (s.session i).sub) (op := op) h hf own rfl
  exact ⟨answered, (State.log_logsOne (State.mdpOn_running h.on) _ _ _).logs.keep told.keeps rfl⟩

end

end Sys2Proof.Machine
end

section
/-! PROOF. O53: the ownership (R354, R355). -/

namespace Sys2Proof.Machine

section
variable {s : State} {i : Nat}

/-- ENROL of an unowned module by its enrolment session, with a key of the right shape: the proof decides. -/
theorem State.doEnrol_of_unowned {p : List Byte} (hp : p.length = 1032) (hx : (s.session i).slot = 0xFF) (hu : s.unowned = true)
    (h0 : be p 0 4 ≠ 0) (h1 : be p 0 4 ≠ 0xFFFFFFFF) (hk : keyShape p = true) :
    s.doEnrol i p =
      if proofGood p (be p 0 4) = true then
        { state := (((s.setSlot 0 (opSlot p 0x0F)).modIm fun im => { im with lineage := w32 (be p 0 4) }).log F.OWN_ENROLLED R.mdp
            (leBytes 4 (be p 0 4) ++ leBytes 8 (opSlot p 0x0F).keyId.toNat)).ownEvent, ends := [(i, 4)] }
      else s.ownRefused opEnrol 3 := by
  rw [State.doEnrol, if_neg (by simp [hp]), if_neg (by simp [hx]), if_neg (by simp [hu]), if_neg (by simp [h0, h1]), if_neg (by simp [hk])]
  cases proofGood p (be p 0 4) <;> rfl

/-- Without ADMIN the operations on the slots are violations. -/
theorem State.doSlotWrite_of_rights {p : List Byte} (hp : p.length = 1032) (hright : bit (s.session i).rights 2 = false) :
    s.doSlotWrite i p = s.opRights i opSlotWrite 0 := by
  rw [State.doSlotWrite, if_neg (by simp [hp]), if_pos (by simp [State.right, hright])]

theorem State.doSlotClear_of_rights {k : Nat} (hright : bit (s.session i).rights 2 = false) : s.doSlotClear i k = s.opRights i opSlotClear 0 :=
  if_pos (by simp [State.right, hright])

theorem State.doDisown_of_rights {c : BitVec 64} (hright : bit (s.session i).rights 2 = false) : s.doDisown i c = s.opRights i opDisown 0 :=
  if_pos (by simp [State.right, hright])

/-- SLOT_WRITE takes new content of a slot when it passes every check, and is refused otherwise. -/
theorem State.doSlotWrite_of_admin {p : List Byte} (hp : p.length = 1032) (hright : bit (s.session i).rights 2 = true) :
    let k := be p 0 1
    let o := opSlot p (be p 1 1)
    if k ≤ 3 ∧ keyShape p = true ∧ be p 1 1 < 16 ∧ proofGood p s.im.lineage.toNat = true ∧
        ((List.range 4).any fun j => j != k && (s.slot j).present && (s.slot j).keyId == o.keyId) = false ∧ s.adminRemains k o = true ∧
        (s.anchors (s.slot k) = true → (s.slot k).keyId = o.keyId) then
      s.doSlotWrite i p = s.slotChange k o
    else ∃ m, s.doSlotWrite i p = s.ownRefused opSlotWrite m := by
  intro k o
  split
  case isTrue h =>
    obtain ⟨hk, shape, perms, proof, other, admin, anchor⟩ := h
    have keeps : ¬(s.anchors (s.slot k) && (s.slot k).keyId != o.keyId) = true := by simpa using anchor
    rw [State.doSlotWrite, if_neg (by simp [hp]), if_neg (by simp [State.right, hright]), if_neg (Nat.not_lt.mpr hk),
      if_neg (by simpa [shape] using show (opSlot p (be p 1 1)).perms < 16 from perms), if_neg (by simp [proof]),
      if_neg (by rw [other]; simp), if_neg (by simpa using admin),
      if_neg keeps]
  case isFalse h =>
    rw [State.doSlotWrite, if_neg (by simp [hp]), if_neg (by simp [State.right, hright])]
    split
    · exact ⟨_, rfl⟩
    split
    · exact ⟨_, rfl⟩
    split
    · exact ⟨_, rfl⟩
    split
    · exact ⟨_, rfl⟩
    split
    · exact ⟨_, rfl⟩
    split
    · exact ⟨_, rfl⟩
    next hk keyed proof other admin anchor =>
      have shape : keyShape p = true ∧ o.perms < 16 := by simpa using keyed
      exact absurd ⟨Nat.le_of_not_lt hk, shape.1, shape.2, by simpa using proof, Bool.eq_false_iff.mpr other, by simpa using admin,
        by simpa using anchor⟩ h

/-- SLOT_CLEAR empties a slot while one with ADMIN remains and no anchor is lost. -/
theorem State.doSlotClear_of_admin {k : Nat} (hright : bit (s.session i).rights 2 = true) :
    if k ≤ 3 ∧ s.adminRemains k {} = true ∧ s.anchors (s.slot k) = false then s.doSlotClear i k = s.slotChange k {}
    else ∃ m, s.doSlotClear i k = s.ownRefused opSlotClear m := by
  split
  case isTrue h =>
    obtain ⟨hk, admin, anchor⟩ := h
    rw [State.doSlotClear, if_neg (by simp [State.right, hright]), if_neg (Nat.not_lt.mpr hk),
      if_neg (by rw [admin]; simp), if_neg (by rw [anchor]; simp)]
  case isFalse h =>
    rw [State.doSlotClear, if_neg (by simp [State.right, hright])]
    split
    · exact ⟨_, rfl⟩
    split
    · exact ⟨_, rfl⟩
    split
    · exact ⟨_, rfl⟩
    next hk admin anchor =>
      exact absurd ⟨Nat.le_of_not_lt hk, by simpa using admin, by simpa using anchor⟩ h

end

/-! ## What an owner's operation leaves -/

section
variable {s : State} {i : Nat} {op : Nat} (h : s.Serves i) {f : State → Route → OpResult}
include h

/-- An operation on the ownership that takes effect leaves what it stored, is logged, and ends sessions after its answer. -/
theorem State.opCommand_owns {v : State} {c : FaultClass} {data : List Byte} {ends : List (Nat × Nat)}
    (hf : f s (s.session i).route = { state := (v.log c R.mdp data).ownEvent, ends := ends }) (hv : v.mdp.sessions = s.mdp.sessions)
    (hrun : v.running = true) (hl : v.ledger = s.ledger) :
    let t := s.opCommand i op f
    t.mdp.slots = v.mdp.slots ∧ t.im = v.im ∧ (∀ k, (t.session k).present = true → (s.session k).present = true ∧ k ∉ ends.map Prod.fst) ∧
    ((s.session i).present = true → i ∈ ends.map Prod.fst → t.session i = {}) ∧ s.Logs t c := by
  generalize hw : (v.log c R.mdp data).ownEvent = w at hf
  have mdp : w.mdp = v.mdp := by rw [← hw, State.ownEvent, State.event_mdp, State.log_mdp]
  have im : w.im = v.im := by rw [← hw, State.ownEvent, State.event_im, State.log_im]
  have logged : s.Logs w c := by
    rw [← hw]
    exact (((State.log_logsOne hrun c R.mdp data).logs.of_ledger hl.symm)).keep (State.ownEvent_keeps rfl (.refl 0x4800000005 _)) rfl
  have session (k : Nat) : w.session k = s.session k := by rw [State.session, State.session, mdp, hv]
  obtain ⟨u, told, e⟩ := State.opCommand_told (sub := (s.session i).sub) (op := op) h hf (session i)
  have gone := State.session_endSessions ends u
  have slots := State.endSessions_slots ends u
  have ended : Keeps 0x5c00000027 w (s.opCommand i op f) := by
    rw [e]
    exact (told.keeps.widen rfl).trans ((State.endSessions_keeps ends u).widen rfl)
  change s.opCommand i op f = ends.foldl _ u at e
  rw [← e] at gone slots
  refine ⟨slots.trans (told.slots.trans (congrArg _ mdp)), (ended.same .im rfl).trans im, fun k hk => ?_, fun hp hi => ?_, logged.keep ended rfl⟩
  · rw [gone k] at hk
    split at hk
    · cases hk
    next hn =>
      refine ⟨?_, fun hm => hn ⟨hm, hk⟩⟩
      by_cases hki : k = i
      · rw [hki]
        exact h.free.present
      · rwa [told.others k hki, session k] at hk
  · rw [gone i, if_pos ⟨hi, by rw [told.own]; exact hp⟩]

/-- A slot has taken new content: it stands there alone, is logged, and the sessions opened under the old content have ended. -/
theorem State.opCommand_slotChange {k : Nat} {o : OwnerSlot} (hf : f s (s.session i).route = s.slotChange k o) :
    let t := s.opCommand i op f
    t.slot k = o ∧ (∀ j, j ≠ k → t.slot j = s.slot j) ∧
    (∀ j, j < 8 → (s.session j).present = true → (s.session j).slot = k → (t.session j).present = false) ∧ s.Logs t F.OWN_SLOT := by
  intro t
  obtain ⟨slots, -, gone, -, logged⟩ := State.opCommand_owns (op := op) (v := s.setSlot k o) h hf rfl (State.mdpOn_running h.on) rfl
  have slot (j : Nat) : t.slot j = if j = k then o else s.slot j := by rw [State.slot, slots, ← State.slot_setSlot, State.slot]
  refine ⟨by rw [slot, if_pos rfl], fun j hj => by rw [slot, if_neg hj], fun j hj hp hs => ?_, logged⟩
  refine Bool.eq_false_iff.mpr fun ht => (gone j ht).2 ?_
  simp [State.slotSessions, hj, hp, hs]

/-- The first owner: its slot, the lineage and the end of the enrolment session. -/
theorem State.opCommand_enrols {o : OwnerSlot} {lineage : Word} {data : List Byte}
    (hf : f s (s.session i).route =
      { state := (((s.setSlot 0 o).modIm fun im => { im with lineage := lineage }).log F.OWN_ENROLLED R.mdp data).ownEvent, ends := [(i, 4)] }) :
    let t := s.opCommand i op f
    t.slot 0 = o ∧ t.im.lineage = lineage ∧ t.session i = {} ∧ s.Logs t F.OWN_ENROLLED := by
  intro t
  obtain ⟨slots, im, -, own, logged⟩ := State.opCommand_owns (op := op) h hf rfl (State.mdpOn_running h.on) rfl
  refine ⟨?_, congrArg ImageManager.lineage im, own h.free.present (by simp), logged⟩
  have slot := s.slot_setSlot 0 0 o
  rw [if_pos rfl] at slot
  rw [← slot, State.slot, slots]
  rfl

end

/-! ## DISOWN (R355) -/

section
variable {s : State} {i : Nat}

theorem State.doDisown_of_others {c : BitVec 64} (hright : bit (s.session i).rights 2 = true) (hc : c.toNat ≠ keyIdNo) :
    s.doDisown i c = s.ownRefused opDisown 0 := by
  rw [State.doDisown, if_neg (by simp [State.right, hright]), if_pos hc]

/-- The state of a module that has no owner any more: no slot, no lineage, no bank that is valid, and no image in a staging slot that
no commit names. -/
structure State.Disowned (s t : State) : Prop where
  slots   : ∀ k, k < 4 → t.slot k = {}
  lineage : t.im.lineage = 0
  bankA   : t.im.bankA.state = .invalid
  bankB   : t.im.bankB.state = .invalid
  staging : ∀ n, n < 2 → s.slotPinned n = false → t.imgSlot n = {}

/-- A staging slot that no commit names is emptied. -/
def State.unstage (s : State) (n : Nat) : State := if s.slotPinned n then s else s.modImgSlot n fun _ => {}

/-- Both are. -/
def State.unstaged (s : State) : State := [0, 1].foldl State.unstage s

/-- No bank is valid, and there is no lineage. -/
def State.unbanked (s : State) : State :=
  ((s.modBankState false fun b => { b with state := .invalid }).modBankState true fun b => { b with state := .invalid }).modIm fun im =>
    { im with lineage := 0 }

/-- No slot, lineage or valid bank is left. -/
def State.unowning (s : State) : State := ((List.range 4).foldl (fun s n => s.setSlot n {}) s).unbanked

theorem State.doDisown_of_owner {c : BitVec 64} (hright : bit (s.session i).rights 2 = true) (hc : c.toNat = keyIdNo) :
    s.doDisown i c =
      { state := (s.unowning.unstaged.log F.OWN_DISOWNED R.mdp (leBytes 4 s.im.lineage.toNat)).ownEvent,
        ends := ((List.range 8).filter fun k => (s.session k).present).map fun k => (k, 5) } := by
  rw [State.doDisown, if_neg (by simp [State.right, hright]), if_neg (by simp [hc])]
  rfl

theorem State.unstage_keeps {z : State} (n : Nat) (h : Keeps 0x1000 z s) : Keeps 0x1000 z (s.unstage n) := .ite h (State.modImgSlot_keeps rfl h)

theorem State.unstaged_keeps : Keeps 0x1000 s s.unstaged := Keeps.foldl (fun _ n h => State.unstage_keeps n h) (.refl _ s)

theorem State.unstage_im (n : Nat) :
    (s.unstage n).im.lineage = s.im.lineage ∧ (s.unstage n).im.bankA = s.im.bankA ∧ (s.unstage n).im.bankB = s.im.bankB := by
  unfold State.unstage State.modImgSlot
  split
  · exact ⟨rfl, rfl, rfl⟩
  · rw [State.modIm_im]
    split <;> exact ⟨rfl, rfl, rfl⟩

theorem State.unstaged_im :
    s.unstaged.im.lineage = s.im.lineage ∧ s.unstaged.im.bankA = s.im.bankA ∧ s.unstaged.im.bankB = s.im.bankB := by
  obtain ⟨l, a, b⟩ := (s.unstage 0).unstage_im 1
  obtain ⟨l', a', b'⟩ := s.unstage_im 0
  exact ⟨l.trans l', a.trans a', b.trans b'⟩

theorem State.slotPinned_unstage (n m : Nat) : (s.unstage n).slotPinned m = s.slotPinned m := by
  rw [State.slotPinned, (State.unstage_keeps n (.refl _ s)).same .commits rfl, State.slotPinned]

theorem State.imgSlot_unstage (n m : Fin 2) :
    (s.unstage n.val).imgSlot m.val = if m = n ∧ s.slotPinned n.val = false then {} else s.imgSlot m.val := by
  unfold State.unstage
  cases hp : s.slotPinned n.val
  case true => simp
  case false =>
    by_cases h : m = n
    · rw [h, if_neg Bool.false_ne_true, State.imgSlot_modImgSlot_same, if_pos ⟨rfl, rfl⟩]
    · rw [if_neg Bool.false_ne_true, State.imgSlot_modImgSlot_ne _ _ h, if_neg fun k => h k.1]

theorem State.imgSlot_unstaged (m : Fin 2) (hp : s.slotPinned m.val = false) : s.unstaged.imgSlot m.val = {} := by
  have two : s.unstaged = (s.unstage (0 : Fin 2).val).unstage (1 : Fin 2).val := rfl
  rw [two, State.imgSlot_unstage, State.slotPinned_unstage, State.imgSlot_unstage]
  match m, hp with
  | 0, hp => rw [if_neg (by simp), if_pos ⟨rfl, hp⟩]
  | 1, hp => rw [if_pos ⟨rfl, hp⟩]

theorem State.unbanked_keeps {z : State} (h : Keeps 0x1000001000 z s) : Keeps 0x1000001000 z s.unbanked :=
  State.modIm_keeps rfl (State.modBankState_keeps rfl (State.modBankState_keeps rfl h))

theorem State.unbanked_im :
    s.unbanked.im.lineage = 0 ∧ s.unbanked.im.bankA.state = .invalid ∧ s.unbanked.im.bankB.state = .invalid := ⟨rfl, rfl, rfl⟩

theorem State.unbanked_mdp : s.unbanked.mdp = s.mdp := rfl

theorem State.unowning_keeps : Keeps 0x1000001000 s s.unowning :=
  State.unbanked_keeps (Keeps.foldl (fun _ _ h => State.setSlot_keeps rfl h) (.refl _ s))

theorem State.unowning_sessions : s.unowning.mdp.sessions = s.mdp.sessions := by
  rw [State.unowning, State.unbanked_mdp]
  rfl

theorem State.slot_unowning {k : Nat} (hk : k < 4) : s.unowning.slot k = {} := by
  have range : List.range 4 = [0, 1, 2, 3] := rfl
  rw [State.slot, State.unowning, State.unbanked_mdp, ← State.slot, range]
  simp only [List.foldl_cons, List.foldl_nil, State.slot_setSlot]
  match k, hk with
  | 0, _ | 1, _ | 2, _ | 3, _ => rfl

theorem State.disowned_spec : s.Disowned s.unowning.unstaged := by
  obtain ⟨lineage, bankA, bankB⟩ := s.unowning.unstaged_im
  obtain ⟨lineage', bankA', bankB'⟩ := State.unbanked_im (s := (List.range 4).foldl (fun s n => s.setSlot n {}) s)
  refine ⟨fun k hk => ?_, lineage.trans lineage', (congrArg _ bankA).trans bankA', (congrArg _ bankB).trans bankB', fun n hn hp => ?_⟩
  · rw [State.slot, s.unowning.unstaged_keeps.same .mdp rfl]
    exact s.slot_unowning hk
  · refine State.imgSlot_unstaged ⟨n, hn⟩ ?_
    rw [State.slotPinned, s.unowning_keeps.same .commits rfl, ← State.slotPinned, hp]

/-- Every open session ends with the ownership. -/
theorem State.opCommand_disowns {i op : Nat} {f : State → Route → OpResult} (h : s.Serves i) {data : List Byte}
    (hf : f s (s.session i).route =
      { state := (s.unowning.unstaged.log F.OWN_DISOWNED R.mdp data).ownEvent,
        ends := ((List.range 8).filter fun k => (s.session k).present).map fun k => (k, 5) }) :
    let t := s.opCommand i op f
    s.Disowned t ∧ (∀ j, j < 8 → (t.session j).present = false) ∧ s.Logs t F.OWN_DISOWNED := by
  intro t
  have kept : Keeps 0x1000001000 s s.unowning.unstaged := s.unowning_keeps.trans (s.unowning.unstaged_keeps.widen rfl)
  have sessions : s.unowning.unstaged.mdp.sessions = s.mdp.sessions := by
    rw [s.unowning.unstaged_keeps.same .mdp rfl, State.unowning_sessions]
  obtain ⟨slots, im, gone, -, logged⟩ :=
    State.opCommand_owns (op := op) h hf sessions (kept.running rfl (State.mdpOn_running h.on)) (kept.same .ledger rfl)
  obtain ⟨empty, lineage, bankA, bankB, staging⟩ := s.disowned_spec
  refine ⟨⟨fun k hk => ?_, ?_, ?_, ?_, fun n hn hp => ?_⟩, fun j hj => Bool.eq_false_iff.mpr fun ht => ?_, logged⟩
  · rw [State.slot, slots]
    exact empty k hk
  · rw [im, lineage]
  · rw [im, bankA]
  · rw [im, bankB]
  · rw [State.imgSlot_of_im im]
    exact staging n hn hp
  · obtain ⟨hp, hm⟩ := gone j ht
    exact hm (by simp [hj, hp])

end

end Sys2Proof.Machine
end

section
/-! PROOF. O53: the statement. -/

namespace Sys2Proof.Machine

/-- Settles O53: each operation by what it does to its session's state and by the answer that follows it. -/
theorem operationsOfSessionsAreExecuted : Obligations.OperationsOfSessionsAreExecuted := by
  unfold Obligations.OperationsOfSessionsAreExecuted
  refine ⟨?closed, ?opened⟩
  case closed =>
    intro i a n k v w l p c s h
    have still (op : Nat) (f : State → Route → OpResult) : (.next (s.opCommand i.val op f) : Out) = .next s :=
      congrArg _ (State.opCommand_of_closed h f)
    exact ⟨still _ _, still _ _, still _ _, still _ _, still _ _, still _ _, still _ _, still _ _, still _ _, still _ _, still _ _, still _ _,
      still _ _⟩
  case opened =>
    intro i s hon hpresent hheld hclosing hroom hnumbers
    have h : s.Serves i.val := ⟨hon, ⟨hpresent, hclosing, hroom, hnumbers⟩, hheld⟩
    refine ⟨?read, ?write, ?blockRead, ?blockWrite, ?subscribe, ?unsubscribe, ?attest, ?nop, ?enrol, ?slotWrite, ?slotClear, ?disownRights,
      ?disownRefused, ?disown⟩
    case read =>
      refine fun a => ⟨fun hright ha hfit => ⟨_, rfl, ?_⟩, fun hright hfit => ⟨_, rfl, ?_⟩⟩
      · have own : (s.readReg (.session i) a).1.session i.val = s.session i.val := State.session_readReg _ _
        exact (State.opCommand_answers (op := opRead) (f := fun s r => s.doRead i.val r a 1) (sub := (s.session i.val).sub) h
          (State.doRead_one hright ha hfit) own rfl).2
      · obtain ⟨answered, counted, -⟩ := State.opCommand_refused (op := opRead) (f := fun s r => s.doRead i.val r a 1) (c := F.MDP_RIGHTS) h
          (State.doRead_of_unread hright hfit) (by decide)
        exact ⟨answered, counted⟩
    case write =>
      refine fun a v hright => ⟨fun ha => ⟨_, rfl, ?_⟩,
        fun l k w hn had hst hl hd hp hr hc hw he => ⟨fun hact => ⟨_, rfl, ?_⟩, fun m hra hlp hact => ⟨_, rfl, ?_⟩⟩⟩
      · obtain ⟨answered, counted, -⟩ := State.opCommand_refused (op := opWrite) (f := fun s _ => s.doWrite i.val a [v]) (c := F.MDP_ADDRESS) h
          (State.doWrite_of_refused hright ha) (by decide)
        exact ⟨answered, counted⟩
      · exact State.opCommand_stores (f := fun s _ => s.doWrite i.val a [v]) h hl hr hw
          (State.doWrite_of_plain hn had hst hl hd hp hr hc hw he hright hact)
      · exact State.opCommand_stores (f := fun s _ => s.doModify i.val a m v) h hl hr hw
          (State.doModify_of_plain hn had hst hl hd hp hr hc hw he hright hra hlp hact)
    case blockRead =>
      intro off len h0 hlen hlast hfit
      obtain ⟨-, answered, kept⟩ := State.opCommand_pure (op := opBlockRead) (f := fun s r => s.doBlockRead i.val r 3 off len) h
          (State.doBlockRead_identity (i := i.val) h0 hlen hlast hfit)
      exact ⟨_, rfl, answered, kept⟩
    case blockWrite =>
      intro k p hright hp hlen hstate hpin
      have load := State.doBlockWrite_of_free hright hp hlen hstate hpin
      refine ⟨⟨_, rfl, State.opCommand_loads (f := fun s _ => s.doBlockWrite i.val k.val 0 p) h ((load 0).trans (if_pos rfl))⟩, fun hb hroom => ?_⟩
      have first : (s.imgSlot k.val).bytes.length ≠ 0 := fun e => hb (List.length_eq_zero_iff.mp e)
      obtain ⟨answered, slot, -⟩ := State.opCommand_loads (op := opBlockWrite) (f := fun s _ => s.doBlockWrite i.val k.val (s.imgSlot k.val).bytes.length p) h
          ((load _).trans ((if_neg first).trans (if_pos ⟨rfl, hroom⟩)))
      exact ⟨_, rfl, answered, congrArg Slot.bytes slot, congrArg Slot.state slot⟩
    case subscribe => exact fun m f q hm hright => ⟨_, rfl, State.opCommand_streams (f := fun s _ => s.doSubscribe i.val m f q) h
        (State.doSubscribe_of_right hm hright)⟩
    case unsubscribe => exact fun hright => ⟨_, rfl, State.opCommand_streams (f := fun s _ => s.doUnsubscribe i.val) h
        (State.doUnsubscribe_of_right hright)⟩
    case attest => exact fun p hp hfit => ⟨_, rfl, State.opCommand_logs (f := fun s r => s.doAttest i.val r p) h (State.doAttest_of_nonce hp hfit)⟩
    case nop =>
      obtain ⟨told, answered, kept⟩ := State.opCommand_pure (op := opNop) (f := fun s _ => s.doNop) h rfl
      exact ⟨_, rfl, answered, told.others, told.sent, kept⟩
    case enrol =>
      intro p hp hslot hunowned h0 h1 hkey
      have enrol := State.doEnrol_of_unowned hp hslot hunowned h0 h1 hkey
      refine ⟨_, rfl, ?_⟩
      split
      case isTrue hproof =>
        rw [if_pos hproof] at enrol
        exact State.opCommand_enrols (f := fun s _ => s.doEnrol i.val p) h enrol
      case isFalse hproof =>
        rw [if_neg hproof] at enrol
        exact State.opCommand_ownRefused (f := fun s _ => s.doEnrol i.val p) h enrol
    case slotWrite =>
      intro p hp k o
      refine ⟨fun hright => ⟨_, rfl, State.opCommand_refused (c := F.MDP_RIGHTS) (f := fun s _ => s.doSlotWrite i.val p) h
          (State.doSlotWrite_of_rights hp hright) (by decide)⟩,
        fun hright => ⟨_, rfl, ?_⟩⟩
      have write := State.doSlotWrite_of_admin hp hright
      dsimp only at write
      split
      case isTrue hc =>
        rw [if_pos hc] at write
        exact State.opCommand_slotChange (f := fun s _ => s.doSlotWrite i.val p) h write
      case isFalse hc =>
        rw [if_neg hc] at write
        obtain ⟨m, e⟩ := write
        obtain ⟨answered, logged, slots, -⟩ := State.opCommand_ownRefused (op := opSlotWrite) (f := fun s _ => s.doSlotWrite i.val p) h e
        exact ⟨answered, logged, slots⟩
    case slotClear =>
      intro k
      refine ⟨fun hright => ⟨_, rfl, State.opCommand_refused (c := F.MDP_RIGHTS) (f := fun s _ => s.doSlotClear i.val k) h
          (State.doSlotClear_of_rights hright) (by decide)⟩,
        fun hright => ⟨_, rfl, ?_⟩⟩
      have clear := State.doSlotClear_of_admin (s := s) (i := i.val) (k := k) hright
      split
      case isTrue hc =>
        rw [if_pos hc] at clear
        exact State.opCommand_slotChange (f := fun s _ => s.doSlotClear i.val k) h clear
      case isFalse hc =>
        rw [if_neg hc] at clear
        obtain ⟨m, e⟩ := clear
        obtain ⟨answered, logged, slots, -⟩ := State.opCommand_ownRefused (op := opSlotClear) (f := fun s _ => s.doSlotClear i.val k) h e
        exact ⟨answered, logged, slots⟩
    case disownRights => exact fun c hright => ⟨_, rfl, State.opCommand_refused (c := F.MDP_RIGHTS) (f := fun s _ => s.doDisown i.val c) h
        (State.doDisown_of_rights hright) (by decide)⟩
    case disownRefused =>
      intro c hright hc
      obtain ⟨answered, logged, slots, -⟩ := State.opCommand_ownRefused (op := opDisown) (f := fun s _ => s.doDisown i.val c) h
          (State.doDisown_of_others hright hc)
      exact ⟨_, rfl, answered, logged, slots⟩
    case disown =>
      intro c hright hc
      obtain ⟨⟨slots, lineage, bankA, bankB, staging⟩, closed, logged⟩ := State.opCommand_disowns (op := opDisown) (f := fun s _ => s.doDisown i.val c) h
          (State.doDisown_of_owner hright hc)
      exact ⟨_, rfl, staging, slots, lineage, bankA, bankB, closed, logged⟩

end Sys2Proof.Machine
end

end
